-- ==== Sys2Proof/Word.lean ====
section
/-! DEFINITION. The plain word types of the WQ94 and BZ31 model (00 R10, 03 R61, R68). -/

namespace Sys2Proof

/-- A byte. -/
abbrev Byte := BitVec 8

/-- A 32-bit register word (R10). -/
abbrev Word := BitVec 32

/-- A 64-bit register pair (R10). -/
abbrev DWord := BitVec 64

/-- A stamp: TIME, CLASS, DIE, INDEX (R61). -/
abbrev Stamp := BitVec 64

/-- An order key: a stamp followed by its sequence word (R68). -/
abbrev Key := BitVec 96

/-- Station time, or any duration, in nanoseconds. -/
abbrev Time := Nat

end Sys2Proof
end

