-- ==== Sys2Proof/Machine/Bits.lean ====
section
/-! DEFINITION. Bit fields, byte order, saturation and the sparse tables that memories and register files are held in. -/

namespace Sys2Proof.Machine

/-- The field `[hi:lo]` of a number, bit 0 least significant (00, Notation and units). -/
def bitsOf (v hi lo : Nat) : Nat := (v >>> lo) % 2 ^ (hi + 1 - lo)

/-- The field `[hi:lo]` of a register word, as a number. -/
def fld (w : Word) (hi lo : Nat) : Nat := bitsOf w.toNat hi lo

/-- Bit `n` of a register word. -/
def bit (w : Word) (n : Nat) : Bool := w.getLsbD n

/-- A word with the bits of `mask` taken from `new` and the others from `old`. -/
def mergeMask (mask old new : Word) : Word := (old &&& ~~~mask) ||| (new &&& mask)

/-- The mask of the field `[hi:lo]`. -/
def maskOf (hi lo : Nat) : Word := BitVec.ofNat 32 ((2 ^ (hi + 1 - lo) - 1) <<< lo)

/-- A word with field `[hi:lo]` replaced. -/
def setFld (w : Word) (hi lo v : Nat) : Word :=
  mergeMask (maskOf hi lo) w (BitVec.ofNat 32 ((v % 2 ^ (hi + 1 - lo)) <<< lo))

/-- The word with only bit `n` set. -/
def oneBit (n : Nat) : Word := BitVec.ofNat 32 (1 <<< n)

/-- A flag as a number. -/
def b2n (b : Bool) : Nat := if b then 1 else 0

/-- The low and the high word of a 64-bit quantity (R10: the low word is at the lower offset). -/
def loWord (v : Nat) : Word := BitVec.ofNat 32 v
def hiWord (v : Nat) : Word := BitVec.ofNat 32 (v >>> 32)

/-- A 64-bit quantity from its two words. -/
def pairVal (lo hi : Word) : Nat := hi.toNat * 2 ^ 32 + lo.toNat

/-- `n` bytes of a number, least significant first (R10). -/
def leBytes : Nat → Nat → List Byte
  | 0, _ => []
  | n + 1, v => BitVec.ofNat 8 v :: leBytes n (v / 256)

/-- The number that little-endian bytes spell. -/
def ofLe : List Byte → Nat
  | [] => 0
  | b :: bs => b.toNat + 256 * ofLe bs

/-- Bytes `off … off+n-1` of a byte string, as a little-endian number; bytes past the end count as zero. -/
def leAt (bs : List Byte) (off n : Nat) : Nat := ofLe ((bs.drop off).take n)

/-- Byte `off` of a byte string, 0 past its end. -/
def byteAt (bs : List Byte) (off : Nat) : Nat := leAt bs off 1

/-- A byte string padded with zeros to `n` bytes, or cut to it. -/
def padTo (n : Nat) (bs : List Byte) : List Byte := (bs ++ List.replicate (n - bs.length) 0).take n

/-- The least multiple of `m` at or above `n`. -/
def roundUp (n m : Nat) : Nat := (n + m - 1) / m * m

/-- A number from its two's complement form in `n` bits. -/
def toSigned (n v : Nat) : Int := if 2 * (v % 2 ^ n) < 2 ^ n then (v % 2 ^ n : Nat) else ((v % 2 ^ n : Nat) : Int) - (2 ^ n : Nat)

/-- The two's complement form in `n` bits, saturated to the range. -/
def toTwos (n : Nat) (v : Int) : Nat :=
  let hi : Int := 2 ^ (n - 1) - 1
  let lo : Int := -(2 ^ (n - 1))
  let c := if v > hi then hi else if v < lo then lo else v
  (c % (2 ^ n : Int)).toNat

/-- Add to a counter that holds at its greatest value (R581). -/
def satAdd (top v k : Nat) : Nat := min top (v + k)

/-- Add `k` to the 8-bit saturating counter in byte `n` of a counter word (R581). -/
def satByte (w : Word) (n k : Nat) : Word := setFld w (8 * n + 7) (8 * n) (satAdd 255 (fld w (8 * n + 7) (8 * n)) k)

/-- A sparse table: keys strictly rising, and no entry equal to what an unlisted key holds. -/
abbrev SMap (α : Type) := List (Nat × α)

/-- The value at a key; an unlisted key holds what `d` says. -/
def mget {α : Type} (d : Nat → α) : SMap α → Nat → α
  | [], k => d k
  | (j, v) :: m, k => if j = k then v else mget d m k

/-- The table without any entry at `k`. -/
def mdel {α : Type} : SMap α → Nat → SMap α
  | [], _ => []
  | (j, v) :: m, k => if j = k then mdel m k else (j, v) :: mdel m k

/-- The table with the entry `(k, v)` put in its place. -/
def mins {α : Type} (k : Nat) (v : α) : SMap α → SMap α
  | [] => [(k, v)]
  | (j, w) :: m => if k < j then (k, v) :: (j, w) :: m else if k = j then (k, v) :: m else (j, w) :: mins k v m

/-- Write a key; writing what an unlisted key holds removes the entry. -/
def mset {α : Type} [DecidableEq α] (d : Nat → α) (m : SMap α) (k : Nat) (v : α) : SMap α :=
  if v = d k then mdel m k else mins k v m

/-- Keys strictly rising from `lo`, and no entry at its default. -/
def mwfFrom {α : Type} [DecidableEq α] (d : Nat → α) : Nat → SMap α → Bool
  | _, [] => true
  | lo, (j, v) :: m => decide (lo ≤ j) && decide (v ≠ d j) && mwfFrom d (j + 1) m

/-- The canonical form of a sparse table. -/
def mwf {α : Type} [DecidableEq α] (d : Nat → α) (m : SMap α) : Bool := mwfFrom d 0 m

/-- Byte memory: an unlisted address reads as zero (log 3). -/
abbrev Mem := SMap Byte

/-- What a byte nothing has written reads as. -/
def memDefault (_ : Nat) : Byte := 0

/-- Read one byte (log 3). -/
def Mem.byte (m : Mem) (a : Nat) : Byte := mget memDefault m a

/-- Write one byte. -/
def Mem.put (m : Mem) (a : Nat) (b : Byte) : Mem := mset memDefault m a b

/-- The canonical form of a memory (log 3). -/
def Mem.wf (m : Mem) : Bool := mwf memDefault m

/-- Read `n` bytes. -/
def Mem.bytes (m : Mem) (a n : Nat) : List Byte := (List.range n).map fun i => m.byte (a + i)

/-- Write a byte string, lowest address first. -/
def Mem.puts (m : Mem) (a : Nat) : List Byte → Mem
  | [] => m
  | b :: bs => (m.put a b).puts (a + 1) bs

/-- Read a little-endian number of `n` bytes. -/
def Mem.num (m : Mem) (a n : Nat) : Nat := ofLe (m.bytes a n)

/-- Write a little-endian number of `n` bytes. -/
def Mem.putNum (m : Mem) (a n v : Nat) : Mem := m.puts a (leBytes n v)

/-- Element `i` of a list, or a value when there is none. -/
def nth {α : Type} (d : α) (l : List α) (i : Nat) : α := l.getD i d

/-- The list with element `i` changed by `f` (unchanged when there is none). -/
def modifyNth {α : Type} (l : List α) (i : Nat) (f : α → α) : List α := l.modify i f

/-- The list with every element that meets `p` changed by `f`. -/
def mapIf {α : Type} (p : α → Bool) (f : α → α) (l : List α) : List α := l.map fun x => if p x then f x else x

/-- Insert into a list ordered by `key`, after entries with an equal key. -/
def insertBy {α : Type} (key : α → Nat) (x : α) : List α → List α
  | [] => [x]
  | y :: ys => if key x < key y then x :: y :: ys else y :: insertBy key x ys

/-- A list sorted by `key`, equal keys in their former order. -/
def sortBy {α : Type} (key : α → Nat) (l : List α) : List α := l.foldl (fun acc x => insertBy key x acc) []

/-- The list without the first element that meets `p`. -/
def dropFirst {α : Type} (p : α → Bool) : List α → List α
  | [] => []
  | x :: xs => if p x then xs else x :: dropFirst p xs

end Sys2Proof.Machine
end

