-- ==== Sys2Proof/Machine/BzTypes.lean ====
section
/-! DEFINITION. The state of one BZ31 power companion (18 to 20): its channels, banks, supervisor, settings and link. -/

namespace Sys2Proof.Machine

/-- High-side channel states (R491). -/
inductive HsState where
  | off | onDc | pwm | retryWait | thermalWait | fault
  deriving DecidableEq, Repr

/-- Solenoid output states (R527). -/
inductive SolPhase where
  | idle | peak | dwell | hold | decay | rest | fault
  deriving DecidableEq, Repr

/-- Supervisor states of a chip (R535). -/
inductive Supervisor where
  | powerup | run | holdLast | limp
  deriving DecidableEq, Repr

/-- One high-side channel (18). -/
structure HsChan where
  /-- ACTION of the command in force: 1 ON, 2 OFF, 3 PULSE, 4 PROFILE (R467). -/
  act : Nat := 2
  /-- The command's profile words (R471). -/
  w0 : Word := 0
  w1 : Word := 0
  /-- Pending end of a PULSE. -/
  pulseEnd : Option Time := none
  state : HsState := .off
  /-- The switch conducts. -/
  on : Bool := false
  /-- PWM period number, its start, the end of its on-time and its duty (R472). -/
  period : Nat := 0
  periodStart : Time := 0
  offAt : Time := 0
  duty : Nat := 0
  /-- The compensated duty that the next period takes (R482). -/
  nextDuty : Nat := 0
  /-- End of RETRY_WAIT (R475). -/
  waitEnd : Time := 0
  /-- Since when the channel is on under its command (R475). -/
  onSince : Time := 0
  /-- The overload timer, in microseconds (R474). -/
  limUs : Nat := 0
  retries : Nat := 0
  restarts : Nat := 0
  /-- End of the mode M window, once it has opened (R476). -/
  mEnd : Option Time := none
  /-- The wire model x (R478). -/
  x : Rat := 0
  /-- OL: 0 NOT_ASSESSED, 1 GOOD, 2 OPEN; and the runs of OPEN assessments of each kind (R489). -/
  ol : Nat := 0
  olOnRun : Nat := 0
  olOffRun : Nat := 0
  /-- The off-state check: its pull-up source, the start of the off time, the last check (R488). -/
  olSource : Bool := false
  olActive : Bool := false
  offSince : Time := 0
  lastOffCheck : Option Time := none
  /-- The time of the last on-state check under DC (R486). -/
  lastOnCheck : Time := 0
  /-- The mean current in mA (R473) and the junction in units of 0.5 °C. -/
  current : Nat := 0
  junction : Int := 0
  /-- BZ_HS_STS flags, which of them latched the fault hold, and BZ_HS_EVT_CNT (R495). -/
  sts : Word := 0
  latch : Word := 0
  cnt : Word := 0
  deriving DecidableEq, Repr

/-- A movement baseline with its learning state (R520). -/
structure Baseline where
  learning : Bool := true
  sum : Nat := 0
  found : Nat := 0
  fails : Nat := 0
  base : Nat := 0
  deriving DecidableEq, Repr

/-- One solenoid output (19). -/
structure SolOut where
  phase : SolPhase := .idle
  /-- The running profile (R500). -/
  w0 : Word := 0
  w1 : Word := 0
  w2 : Word := 0
  w3 : Word := 0
  phaseStart : Time := 0
  peakStart : Time := 0
  /-- The low-side switch conducts. -/
  low : Bool := false
  /-- The decay in progress uses the fast path. -/
  fast : Bool := false
  /-- The command came from a REFLEX frame (R514). -/
  reflex : Bool := false
  /-- The fault hold follows the decay in progress. -/
  toFault : Bool := false
  /-- A PEAK_TIME at low current waits for its probe (R524). -/
  openSuspect : Bool := false
  /-- A trip waits for the end of the bank's dead time (R545). -/
  tripPending : Bool := false
  /-- The output's current in mA, the valley and peak samples in converter counts, frozen periods (R504, R522). -/
  current : Nat := 0
  valley : Nat := 0
  peakSample : Option Nat := none
  frozen : Nat := 0
  /-- The coil model's rise over ambient in kelvin (R515). -/
  dt : Rat := 0
  warm : Bool := false
  dip : Baseline := {}
  kink : Baseline := {}
  /-- Last verdicts (0 NOT_ASSESSED, 1 MOVED, 2 NOT_MOVED, 3 DEVIANT) and times in µs (R531). -/
  dipVerdict : Nat := 0
  kinkVerdict : Nat := 0
  tDip : Nat := 0
  tKink : Nat := 0
  sts : Word := 0
  latch : Word := 0
  cnt : Word := 0
  deriving DecidableEq, Repr

/-- The two windows that a scheduled event occupies in its bank (R511). Currents are coil currents in mA. -/
structure SolWin where
  out : Nat
  start : Time
  peakEnd : Option Time
  /-- `none`: HOLD_TIME 0, the span ends at the next scheduled event of the output. -/
  spanEnd : Option Time
  holdMa : Nat
  deriving DecidableEq, Repr

/-- One solenoid bank (19). -/
structure SolBank where
  /-- 0 off, 1 VS, 2 boost rail (R502). -/
  source : Nat := 0
  /-- End of the 2 µs source change, the bank's dead time (R502, R545). -/
  changeUntil : Time := 0
  /-- When the bank returns to VS. -/
  vsAt : Option Time := none
  /-- Continuity probe (R523). -/
  probing : Bool := false
  probeFails : Nat := 0
  probeFailed : Bool := false
  probeExists : Bool := false
  windows : List SolWin := []
  /-- BZ_SOL_BANK_CNT (R531). -/
  cnt : Word := 0
  deriving DecidableEq, Repr

/-- An actuation event as the chip receives it in an EVENT frame (R455). -/
structure BzEvent where
  id : Nat
  action : Nat
  index : Nat
  kind : Nat
  profile : Nat
  flags : Nat
  fire : Time
  deadline : Time
  stamp : Stamp
  durationUs : Nat
  deriving DecidableEq, Repr

/-- A scheduled event with its start time (its FIRE_TIME, or the deferred time of R512). -/
structure BzSched where
  ev : BzEvent
  start : Time
  deriving DecidableEq, Repr

/-- A REFLEX frame (R460). -/
structure BzReflex where
  lseq : Nat
  action : Nat
  index : Nat
  kind : Nat
  profile : Nat
  rule : Nat
  durationUs : Nat
  deriving DecidableEq, Repr

/-- What the chip samples at every 1 µs tick (R548). -/
structure BzSample where
  held : Nat
  flags : Nat
  limp : Nat
  deriving DecidableEq, Repr

/-- A frame that a chip sends (R456, R458, R547, R549). -/
inductive BzFrame where
  | reply (id result : Nat) (at_ : Time)
  | status (kind eseq time : Nat) (s : BzSample) (vs rev : Nat)
  | slipAck (op reason slipId sum : Nat)
  | regData (result tag off : Nat) (data : Word)
  deriving DecidableEq, Repr

/-- A settings block: words at offsets 0x000 to 0x7FC; an unlisted offset holds its reset value (R494). -/
abbrev Settings := SMap Word

/-- One BZ31 chip. -/
structure Chip where
  /-- The logic is out of logic reset (R555). -/
  powered : Bool := false
  powerAt : Time := 0
  supervisor : Supervisor := .powerup
  /-- Heartbeat: locked, TIME frames in a row, last valid frame, time of the loss (R536, R537). -/
  locked : Bool := false
  timeRun : Nat := 0
  lastTime : Time := 0
  lossAt : Time := 0
  /-- The chip's clock, in station time. -/
  clock : Time := 0
  /-- VS in mV, the last 256 samples (newest first), and their count since power-up (R483). -/
  vs : Nat := 24000
  vsWin : List Nat := []
  crank : Bool := false
  crankAt : Time := 0
  underV : Bool := false
  overV : Bool := false
  /-- Filtered limp-home pins LH0 and LH1 (R540). -/
  lh0 : Bool := false
  lh1 : Bool := false
  /-- Trip inputs at their active level, and latched trips (R544 to R546). -/
  tripPins : Vector Bool 4 := .replicate 4 false
  trips : Vector Bool 4 := .replicate 4 false
  /-- W1C flags of BZ_CHIP_STS, BZ_CHIP_EVT_CNT, and the logic temperature in °C (R557, R515). -/
  sts : Word := 0
  cnt : Word := 0
  logicTemp : Int := 0
  thetaAmb : Rat := 0
  /-- Settings: crest, the retiring event bank, lee (R313, R327). -/
  crest : Settings := []
  retiring : Option Settings := none
  lee : Settings := []
  /-- Chunks of the lee block received since PREPARE (R458). -/
  chunks : List Nat := []
  preparing : Bool := false
  slipId : Nat := 0
  /-- COMMIT received: its slip point (R328). -/
  armed : Option Time := none
  /-- The most recent slip point at which the chip switched. -/
  slipPoint : Time := 0
  /-- The non-volatile limp store: two copies with a sequence count, offsets 0x6A0 to 0x7FF (R552). -/
  storeA : Option (Nat × Settings) := none
  storeB : Option (Nat × Settings) := none
  storeBusy : Bool := false
  hs : Vector HsChan 12 := .replicate 12 {}
  sol : Vector SolOut 12 := .replicate 12 {}
  bank : Vector SolBank 3 := .replicate 3 {}
  /-- Solenoid outputs whose limp entry waits for its start (R542). -/
  limpPend : List Nat := []
  /-- The boost store in mV, charging, fast decays to the internal clamps, BZ_SOL_BST_STS flags (R506, R528). -/
  vBst : Nat := 0
  charging : Bool := false
  bstStopped : Bool := false
  ovHold : Bool := false
  clampInt : Bool := false
  bstSts : Word := 0
  schedule : List BzSched := []
  /-- Peaks refused for energy in the present µs: bank, µs of the start, e_est (19 corner cases). -/
  refused : List (Nat × Nat × Nat) := []
  lastReflex : Option Nat := none
  /-- Status reporting (R547, R548). -/
  reported : Option BzSample := none
  eseq : Nat := 0
  lseq : Nat := 0
  tx : List BzFrame := []
  /-- Frames on the wire toward the mesa port, oldest first. -/
  wire : List (List Byte) := []
  /-- The last REG executed: its TAG and the reply (R549). -/
  lastReg : Option (Nat × BzFrame) := none
  deriving DecidableEq, Repr

end Sys2Proof.Machine
end

