-- ==== Sys2Proof/Machine/StCore.lean ====
section
/-! DEFINITION. Module-wide state: fuses, register banks, records and logs, host link, station time, reset, boot, OTP and debug (00, 02, 15, 21, 22). -/

namespace Sys2Proof.Machine

/-- What manufacture fixes: the assembly, options, series and identity of the module (R1 to R6, R381). -/
structure Fuses where
  ergCount : Nat
  stackCount : Nat
  mesaCount : Nat
  optV : Bool
  optT : Bool
  optD : Bool
  optA : Bool
  series : Nat
  serial : Nat
  deriving DecidableEq, Repr

/-- A record on its way to a log writer (R559, R560): its bytes with the annex, and its key in the keyed lane. -/
structure LogRec where
  die : Nat
  key : Option Key
  bytes : List Byte
  /-- The fault vector is signalled when the host ring holds this record (R587). -/
  irq : Bool := false
  deriving DecidableEq, Repr

/-- One entry of a log ring (R562). -/
structure LogEntry where
  seq : Nat
  keyed : Bool
  early : Bool
  lostBefore : Bool
  bytes : List Byte
  irq : Bool := false
  deriving DecidableEq, Repr

/-- One die's log writer: its reorder region in key order, and the ring entries that the host copy has not taken (R560 to R563). -/
structure LogWriter where
  reorder : List LogRec := []
  ring : List LogEntry := []
  seq : Nat := 0
  lostBefore : Bool := false
  deriving DecidableEq, Repr

/-- Records, log writers and the fault store (21). -/
structure Logs where
  /-- Records made and not yet at their log writer. -/
  made : List LogRec := []
  writer : Vector LogWriter 2 := .replicate 2 {}
  /-- Slots of the fault store, 48 bytes each, and the next slot (R564). -/
  store : SMap (List Byte) := []
  /-- Count of fault records since cold reset (R568). -/
  faultRef : Nat := 0
  /-- SAFE (R585). -/
  safe : Bool := false
  /-- Times of the MEM_UE records of each tile and stack within the last second (R576, R584). -/
  tileUe : List (Nat × Time) := []
  stackUe : List (Nat × Time) := []
  deriving DecidableEq, Repr

/-- A command entry of HP1 or HP2 with its stamp and JOB index (R389, R393, R395). -/
structure HpCmd where
  /-- HP2 queue 0 to 7, 0xFF for HP1; 256 for a command that no completion is owed to (R380, R401). -/
  queue : Nat
  stamp : Stamp
  job : Nat
  bytes : List Byte
  deriving DecidableEq, Repr

/-- A completion waiting for its CQ slot or its RSP registers (R390, R396). -/
structure HpDone where
  cmd : HpCmd
  status : Nat
  detail : Nat
  result : Nat
  deriving DecidableEq, Repr

/-- One HP2 queue pair (R394 to R397). -/
structure HpQueue where
  enabled : Bool := false
  active : Bool := false
  sqHead : Nat := 0
  sqTail : Nat := 0
  cqHead : Nat := 0
  cqTail : Nat := 0
  phase : Bool := true
  err : Nat := 0
  stopped : Bool := false
  /-- Visible entries not yet stamped, and stamped entries not yet fetched with their SQ index (R395). -/
  held : Nat := 0
  unfetched : List (Stamp × Nat × Nat) := []
  /-- Stamped entries that have not posted a completion. -/
  open_ : Nat := 0
  /-- Completions posted that the host has not freed. -/
  cqUsed : Nat := 0
  deriving DecidableEq, Repr

/-- A busy staging range (R392). -/
structure StageRange where
  off : Nat
  len : Nat
  owner : Stamp × Nat
  /-- When it became free; it counts as busy for a command stamped before then. -/
  freed : Option Time := none
  deriving DecidableEq, Repr

/-- The host link (15). -/
structure HostLink where
  /-- Configuration space: Memory Space and Bus Master Enable, D3hot, MSI-X enable and function mask. -/
  memSpace : Bool := false
  busMaster : Bool := false
  d3hot : Bool := false
  pmeEn : Bool := false
  pme : Bool := false
  msixEn : Bool := false
  msixMask : Bool := false
  /-- MSI-X table words by BAR2 offset, pending vectors, vectors signalled in order (R384). -/
  msixTable : SMap Word := []
  msixPending : List Nat := []
  msixSent : List Nat := []
  /-- HP1: the command in flight (R393). -/
  hp1Busy : Option HpCmd := none
  queue : Vector HpQueue 8 := .replicate 8 {}
  /-- Previous stamp TIME of INDEX 0 and of INDEX 1 (R395). -/
  lastTime0 : Option Nat := none
  lastTime1 : Option Nat := none
  /-- Fetched entries not yet executed; admin commands waiting for the executor; the one it runs (R398). -/
  fetched : List HpCmd := []
  admin : List HpCmd := []
  adminNow : Option HpCmd := none
  /-- Commands under way: STAGE_IN reads, output copies, and the SLIP whose completion waits (R396, R398). -/
  staging : List HpCmd := []
  copies : List (HpCmd × Nat × Nat × Nat) := []
  slipCmd : Option HpCmd := none
  stepCmd : Option HpCmd := none
  loadCmd : Option HpCmd := none
  done : List HpDone := []
  busy : List StageRange := []
  /-- The last injected key (R401). -/
  lastInject : Option Key := none
  /-- ADMIT of the injected events, by key (R93, R401). -/
  admits : List (Key × Nat) := []
  /-- Writes issued to host memory, in order: address and bytes (R387). -/
  writes : List (Nat × List Byte) := []
  deriving DecidableEq, Repr

/-- Servo states (R406). -/
inductive Servo where
  | stopped | acquiring | locked | holdover
  deriving DecidableEq, Repr

/-- Station time and the PTP unit (R404 to R407). -/
structure TimeUnit where
  /-- Station time in ns, and whether it runs. -/
  now : Time := 0
  running : Bool := false
  servo : Servo := .stopped
  /-- Syncs in a row within 500 ns; the time of the last Sync; the offset measured; the frequency correction in 0.001 ppm. -/
  goodSyncs : Nat := 0
  lastSync : Time := 0
  offset : Int := 0
  freq : Int := 0
  /-- The offset that the servo slews away. -/
  slew : Int := 0
  /-- A forward step waiting for its instant: amount, time of the request, by a TIME_STEP command (R407). -/
  step : Option (Nat × Time × Bool) := none
  /-- Limits of the TIME field (R67). -/
  epochNearMade : Bool := false
  limit : Bool := false
  /-- The path delay of the slave port, and the master it follows (R405). -/
  pathDelay : Int := 0
  master : Option (List Nat) := none
  lastAnnounce : Time := 0
  /-- Sync messages sent on master ports, by port (R405). -/
  syncsSent : List (Nat × Nat) := []
  /-- The epoch that station time was started with (R404). -/
  epoch : Nat := 0
  /-- Replay session (R93): `now` is the replay clock; live station time, and whether it runs and is at its limit, wait here. -/
  replay : Bool := false
  live : Time := 0
  liveRunning : Bool := false
  liveLimit : Bool := false
  deriving DecidableEq, Repr

/-- The phase of the module (R588, R593, R597, R605). -/
inductive Phase where
  | unpowered | inReset | bringUp | running | bscan | powerDown | waiting
  deriving DecidableEq, Repr

/-- OTP key slot states (R595). -/
inductive KeyState where
  | empty | valid | revoked
  deriving DecidableEq, Repr

/-- One OTP key slot. -/
structure KeySlot where
  state : KeyState := .empty
  x : Nat := 0
  y : Nat := 0
  deriving DecidableEq, Repr

/-- A shutdown record's fields (R606). -/
structure ShdnRec where
  seq : Nat
  state : Nat
  cause : Nat
  step : Nat
  rails : Nat
  live : Word
  stStart : Time
  stWrite : Time
  faultRef : Nat
  slipId : Nat
  slipState : Nat
  chips : Nat
  crest : List Byte
  deriving DecidableEq, Repr

/-- JTAG instructions (R600). -/
inductive JtagIr where
  | bypass | idcode | sample | extest | clamp | highz | dbgChal | dbgResp | dbgAccess
  deriving DecidableEq, Repr

/-- Where a host or management-core access goes (R382, R383). -/
inductive Space where
  | config | bar0 | bar2
  deriving DecidableEq, Repr

/-- A debug operation of DBG_ACCESS (R601): management-core control and its memory of one word, tile and reservoir state, internal scan. -/
inductive DebugOp where
  | haltCore | stepCore | resumeCore
  | readTile (tile : Nat) (store addr : Nat)
  | writeTile (tile : Nat) (store addr : Nat) (value : BitVec 8)
  | readReservoir (addr : Nat)
  | writeReservoir (addr : Nat) (value : BitVec 8)
  | scan
  deriving DecidableEq, Repr

/-- Reset, boot, OTP, JTAG, debug and power-down (22). -/
structure ResetUnit where
  phase : Phase := .running
  lastCause : Nat := 0
  warmCount : Nat := 0
  /-- A deferred warm reset and its cause (R590). -/
  warmPending : Option Nat := none
  fwCopy : Nat := 0
  fwRunning : Bool := false
  bootFailed : Bool := false
  fwVersion : Nat := 0
  /-- Boot flash as the ROM reads it: the bytes of copies A and B, and the recovery window (R596, R598). -/
  flashA : List Byte := []
  flashB : List Byte := []
  recovery : SMap Word := []
  /-- Image slots 0 to 7, firmware slots 0 to 3, debug slots 0 and 1 (R595). -/
  otp : Vector KeySlot 14 := .replicate 14 {}
  rollback : Nat := 0
  debugFuse : Bool := false
  otpResult : Nat := 0
  /-- Debug lock: unlocked with a scope; the outstanding challenge; failed responses (R601). -/
  unlocked : Bool := false
  scope : Nat := 0
  challenge : Option (List Byte) := none
  failed : Nat := 0
  coreHalted : Bool := false
  exhausted : Bool := false
  nonces : Nat := 0
  /-- JTAG: the instruction in force, what the last scan shifted out, the boundary register, and the module held by the port. -/
  ir : JtagIr := .idcode
  tdo : List Byte := []
  boundary : List Bool := []
  pinsDriven : Bool := false
  highZ : Bool := false
  /-- Shutdown area (R606), the record shown in the MESA_SHDN window, the sequence under way and its cause (R605). -/
  slotA : Option ShdnRec := none
  slotB : Option ShdnRec := none
  shown : Option ShdnRec := none
  cause : Nat := 0
  step : Nat := 0
  stStart : Time := 0
  attachedAtStart : Nat := 0
  /-- ENTER_LIMP writes of the sequence: port and TAG; the chips that have answered (R605, R606). -/
  limpTags : List (Nat × Nat) := []
  limpAnswered : Nat := 0
  shdnDone : Bool := false
  rails : Nat := 0
  deriving DecidableEq, Repr

end Sys2Proof.Machine
end

