-- ==== Sys2Proof/Machine/StTile.lean ====
section
/-! DEFINITION. State of tiles, streams, flits, reservoir stacks and cairn apply units (04, 05, 07, 08, 10). -/

namespace Sys2Proof.Machine

/-- A job's name: its stamp and its index under the stamp (R68). -/
structure JobId where
  stamp : Stamp
  job : Nat
  deriving DecidableEq, Repr

/-- Where a message goes or comes from (R101, R104). -/
inductive Place where
  | tile (t : Nat)
  | apply (die : Nat)
  | stack (n : Nat)
  | mesa (die unit : Nat)
  deriving DecidableEq, Repr

/-- An item or message: its key, void mask, node identity, producer, bytes (R102, R235). -/
structure Item where
  key : Key
  void : Nat := 0
  nodeA : Nat := 0
  nodeN : Nat := 0
  poison : Bool := false
  body : List Byte := []
  deriving DecidableEq, Repr

/-- One source of a merge point: its horizon, the items it holds in order, whether it is loose (R71, R74). -/
structure MSource where
  src : Nat
  horizon : Key
  held : List Item := []
  loose : Bool := false
  deriving DecidableEq, Repr

/-- A message on its way through the mesh and the links (R101 to R103). -/
structure Msg where
  src : Place
  dest : Place
  cls : Nat
  admitted : Bool
  horizon : Bool
  prod : Nat
  stream : Nat
  item : Item
  /-- The producers of the sending tile, for a CLOSE (R269). -/
  prods : List Nat := []
  deriving DecidableEq, Repr

/-- A node of the routes (R110, R111): tile ports, routers, Dellu ports of erg dies, reservoir controllers, apply units, mesa ports, mesa units. -/
inductive Node where
  | tile (t : Nat)
  | router (t : Nat)
  | ergPort (die port : Nat)
  | stack (n : Nat)
  | apply (die : Nat)
  | mesaPort (die port : Nat)
  | mesa (die unit : Nat)
  deriving DecidableEq, Repr

/-- A message at one node: flits that wait here, and flits that have not left this node yet. -/
structure Hop where
  place : Node
  msg : Msg
  here : Nat
  left : Nat
  /-- The node that the flits came from. -/
  prev : Option Node := none
  deriving DecidableEq, Repr

/-- Messages under way, and credits in use (R105 to R109). -/
structure Net where
  hops : List Hop := []
  /-- Hop credits in use at an output, by class. -/
  hopUsed : List (Node × Node × Nat × Nat) := []
  /-- Links that retrain, with the attempt (R578). -/
  retrain : List (Nat × Nat) := []
  deriving DecidableEq, Repr

/-- A reservoir's bytes over all stacks, its poisoned words, and the void masks of its lines (R89, R574; log 15). -/
structure Reservoir where
  mem : Mem := []
  poison : SMap Bool := []
  void : SMap Nat := []
  /-- Stacks that failed bring-up: the addresses run on over the others, in stack order (02 R44). -/
  missing : List Nat := []
  deriving DecidableEq, Repr

/-- The result crest digest of the reset bank (R316, R609), first byte least significant (log 31). -/
def resetDigest : Nat := 71135400135317033365373243425655274628060368991604819268143507874380053371023

/-- One bank of a tile's banked state (R137). -/
structure TileBank where
  wbed : Mem := []
  imem : Mem := []
  /-- T13 entries, index 64 * slot + entry. -/
  cb : SMap Nat := []
  /-- Scale entries, index 256 * column + entry. -/
  scale : SMap Word := []
  /-- Misfit slots, 16 bytes each. -/
  slots : Mem := []
  wbedPoison : SMap Bool := []
  imemPoison : SMap Bool := []
  /-- Result crest digest of the crest this bank holds (R223, R316). -/
  digest : Nat := resetDigest
  deriving DecidableEq, Repr

/-- Stream descriptor states (R197). -/
inductive DState where
  | closed | openIn | openOut | absent
  deriving DecidableEq, Repr

/-- A stream descriptor (R197), with the key of the last item taken (R253) and the producers that have sent on it. -/
structure Desc where
  state : DState := .closed
  kind : Nat := 0
  loose : Bool := false
  fmt : Nat := 0
  sources : Nat := 0
  stream : Nat := 0
  ring : BitVec 64 := 0
  credit : Nat := 0
  last : Option Key := none
  used : List Nat := []
  deriving DecidableEq, Repr

/-- The facet state (R198). -/
structure Facet where
  wfmt : Nat := 0
  afmt : Nat := 0
  ofmt : Nat := 0
  wcb : Nat := 8
  acb : Nat := 8
  ocb : Nat := 8
  azp : Nat := 0
  ozp : Nat := 0
  mode : Nat := 0
  group : Nat := 0
  sbase : Nat := 0
  slot : Nat := 64
  wide : Nat := 0
  total : Nat := 1
  nodeA : Nat := 0
  nodeN : Nat := 1
  vecs : Nat := 1
  dest : Nat := 0
  srcBase : Nat := 0
  deriving DecidableEq, Repr

/-- A byte range in a space (R196). -/
structure Extent where
  space : Nat
  base : Nat
  len : Nat
  deriving DecidableEq, Repr

/-- An engine operation that has issued and not completed (R216): its engine and its extents (log 26). -/
structure InFlight where
  engine : Nat
  reads : List Extent
  writes : List Extent
  deriving DecidableEq, Repr

/-- What a blocked cairn wait or settle writes when its reply comes (R251, R252). -/
structure CairnWait where
  die : Nat
  key : Key
  /-- 0 CWAIT, 1 SETTLE.N, 2 SETTLE.W. -/
  kind : Nat
  sreg : Nat
  preg : Nat
  slot : Nat
  deriving DecidableEq, Repr

/-- A retained hold of a misfit slot (R180). -/
structure Hold where
  slot : Nat
  extents : List Extent
  deriving DecidableEq, Repr

/-- A narrow settle that waits for its record (R191): slot, key, count, time of completion, decision. -/
structure Settled where
  slot : Nat
  key : Key
  count : Nat
  time : Time
  rerun : Bool
  /-- The narrow count saturated. -/
  sat : Bool := false
  deriving DecidableEq, Repr

/-- The control core while it runs a job (R195, R199, R202). -/
structure Core where
  id : JobId
  admitted : Bool := false
  bank : Nat := 0
  old : Bool := false
  image : Nat := 0
  entry : Nat := 0
  profile : Bool := false
  pc : Nat := 0
  sreg : Vector Word 32 := .replicate 32 0
  areg : Vector (BitVec 64) 16 := .replicate 16 0
  preg : Vector Bool 8 := .replicate 8 false
  desc : Vector Desc 16 := .replicate 16 {}
  vx : Vector (Vector Word 64) 16 := .replicate 16 (.replicate 64 0)
  /-- Poisoned lanes of the vector registers, 64 per register (R575). -/
  vxPoison : SMap Bool := []
  /-- Poisoned registers (R575): scalars at 0, predicates at 32, address registers at 64, facet fields at 96. -/
  regPoison : SMap Bool := []
  facet : Facet := {}
  prod : Nat := 0
  emits : List (Nat × Nat) := []
  counters : SMap Nat := []
  wait : Option CairnWait := none
  /-- The reply the router holds (R97). -/
  reply : Option (Nat × Bool) := none
  holds : List Hold := []
  settled : List Settled := []
  /-- The core waits under R213. -/
  blocked : Bool := false
  deriving DecidableEq, Repr

/-- A start message (R200). -/
structure StartMsg where
  id : JobId
  admitted : Bool
  image : Nat
  entry : Nat
  key : Key
  deriving DecidableEq, Repr

/-- An input stream at a tile: a merge of its producers, and the items released and not taken (R139, R249). -/
structure InPort where
  kind : Nat
  stream : Nat
  sources : Nat
  /-- LOOSE of the descriptor (R74, R197). -/
  loose : Bool := false
  srcs : List MSource := []
  released : List Item := []
  deriving DecidableEq, Repr

/-- One tile (R121, R195; log 4). -/
structure Tile where
  core : Option Core := none
  starts : List StartMsg := []
  abuf : Mem := []
  abufPoison : SMap Bool := []
  /-- Valid lines of 64 bytes, one bit each (R203). -/
  valid : Nat := 0
  flight : List InFlight := []
  /-- The plane that FLD preloaded: weight extent and node (R236). -/
  plane : Option (BitVec 64 × Nat × Nat) := none
  ports : List InPort := []
  halves : Vector TileBank 2 := .replicate 2 {}
  /-- The retiring half, with the slip point before which jobs hold it (R133). -/
  retiring : Option Time := none
  /-- Lee is being refreshed from crest (R326). -/
  refreshing : Bool := false
  /-- The next line the scrubber reads, and lines it has passed (R136). -/
  scrub : Nat := 0
  deriving DecidableEq, Repr

/-- Cairn states (R259). -/
inductive CState where
  | free | bound | poisoned
  deriving DecidableEq, Repr

/-- A cairn word (R259). -/
structure Cairn where
  count : Nat := 0
  ops : Nat := 0
  wrapped : Bool := false
  saturated : Bool := false
  state : CState := .free
  bind : Nat := 0
  deriving DecidableEq, Repr

/-- A cairn operation at an apply unit (R268) with the producer and tile that sent it and its apply position (R271). -/
structure COp where
  opc : Nat
  cairn : Nat
  operand : Nat
  contrib : Nat := 0
  rerun : Bool := false
  threshold : Nat := 0
  key : Key
  tile : Nat
  pos : Nat := 0
  /-- The operand was poisoned (R575). -/
  bad : Bool := false
  deriving DecidableEq, Repr

/-- A binding (R261), with floors and horizons of its producers, held operations, waits being watched, closed producers. -/
structure Binding where
  idx : Nat := 0
  id : JobId
  ranges : List (Nat × Nat)
  sources : Nat
  admitted : Bool
  end_ : Time
  floors : SMap Nat := []
  horizons : List (Nat × Nat) := []
  ops : List COp := []
  watching : List COp := []
  deriving DecidableEq, Repr

/-- A cairn apply unit (R259 to R265). -/
structure ApplyUnit where
  table : SMap Cairn := []
  binds : List Binding := []
  waiting : List Binding := []
  early : List COp := []
  earlyClose : List (JobId × List Nat) := []
  opsApplied : Nat := 0
  peak : Nat := 0
  deriving DecidableEq, Repr

end Sys2Proof.Machine
end

