-- ==== Sys2Proof/Machine/StIn.lean ====
section
/-! DEFINITION. State of the field inputs, the power control and Dunewatch, and the operand types of their commands (13, 14, 16). -/

namespace Sys2Proof.Machine

/-- The guard of a Nonto instruction (R205, R206), whether a field that must be zero is not (R207, R227),
and the memory error its fetch met: `some false` corrected, `some true` uncorrectable (R574). -/
structure Issue where
  pn : Bool := false
  pg : Fin 8 := 0
  stray : Bool := false
  ecc : Option Bool := none
  deriving DecidableEq, Repr

/-- A memory error that a read finds (R574): store code, byte address in the store, uncorrectable or not (log 16). -/
structure EccHit where
  store : Nat
  addr : Nat
  ue : Bool
  deriving DecidableEq, Repr

/-- A CSI-2 packet header as received (R417). -/
inductive CsiHeader where
  | good | corrected | bad
  deriving DecidableEq, Repr

/-- A CAN frame (R435). -/
structure CanFrame where
  ident : Nat
  ide : Bool
  rtr : Bool
  fdf : Bool
  brs : Bool
  esi : Bool
  data : List Byte
  deriving DecidableEq, Repr

/-- Merge points that the commands address (R71): the two lanes of a die, an input stream of a tile. -/
inductive MergeId where
  | admission (die : Fin 2)
  | data (die : Fin 2)
  | tile (t : Fin 512) (kind stream : Nat)
  deriving DecidableEq, Repr

/-- A reflex source (R460). -/
inductive ReflexSource where
  | trigger (input : Fin 32)
  | sentinel (k : Fin 4)
  deriving DecidableEq, Repr

/-- An adapted oasis (R350). -/
inductive Oasis where
  | tile (t : Fin 512)
  | router (t : Fin 512)
  deriving DecidableEq, Repr

/-- A trigger input (R413 to R415). -/
structure TrigIn where
  /-- A candidate pulse: the time and direction of its edge. -/
  cand : Option (Time × Bool) := none
  /-- The edge time of the last qualified edge while its holdoff runs. -/
  holdoff : Option Time := none
  lastRising : Bool := false
  /-- Since when the pin has been at the inactive level. -/
  inactive : Option Time := none
  /-- The horizon lag before the last slip point (R415). -/
  oldLag : Nat := 40
  deriving DecidableEq, Repr

/-- A frame in progress (R418 to R424). -/
structure FrameIn where
  stamp : Stamp
  number : Nat
  /-- False for a frame that is discarded whole (R419, R421). -/
  stored : Bool
  lines : Nat := 0
  damaged : Bool := false
  deriving DecidableEq, Repr

/-- A camera stream (R417 to R424). -/
structure Cam where
  cur : Option FrameIn := none
  last : Option Time := none
  frames : Nat := 0
  /-- The stored frames: slot and stamp, oldest first. -/
  slots : List (Nat × Stamp) := []
  deriving DecidableEq, Repr

/-- A tag gateway port (R425 to R432). -/
structure TagPort where
  reading : Bool := false
  /-- The stamp of the FR edge of the frame being read. -/
  fr : Option Stamp := none
  /-- TAG_ID, SEQ and stamp of the last 256 events. -/
  seen : List (Nat × Nat × Stamp) := []
  events : Nat := 0
  rejects : Nat := 0
  deriving DecidableEq, Repr

/-- A CAN controller (R433 to R436). -/
structure Can where
  init : Bool := true
  integrated : Bool := false
  busOff : Bool := false
  tec : Nat := 0
  rec_ : Nat := 0
  /-- Frames transmitted from the buffers, in order. -/
  sent : List (Nat × List Word) := []
  deriving DecidableEq, Repr

/-- A map-cache entry (R430): slot, tag, rate, last use, and the last pair of TX_TIME and time kept for the estimate. -/
structure MapEntry where
  slot : Nat
  tag : Nat
  rate : Nat
  used : Time
  pair : Option (Nat × Time)
  deriving DecidableEq, Repr

/-- A job-starting event released on the admission lane (R408): its stamp, and its class or stream. -/
structure AdmEvent where
  key : Key
  /-- Trigger input, or 32 plus the camera stream. -/
  source : Nat
  deriving DecidableEq, Repr

/-- The field inputs of one mesa die (R408 to R437). -/
structure DieIngress where
  trig : Vector TrigIn 32 := .replicate 32 {}
  cam : Vector Cam 24 := .replicate 24 {}
  locked : Vector Bool 8 := .replicate 8 false
  tag : Vector TagPort 8 := .replicate 8 {}
  can : Vector Can 4 := .replicate 4 {}
  ethUp : Vector Bool 4 := .replicate 4 false
  cache : List MapEntry := []
  /-- Sources of the two lanes, by their tiebreak byte (R62). -/
  adm : List MSource := []
  data : List MSource := []
  /-- Released and not yet taken: admission events; items of the data lane kept for closures and streams. -/
  events : List Item := []
  items : List Item := []
  deriving DecidableEq, Repr

/-- One row domain (R337 to R348). -/
structure Row where
  /-- 0 to 3 for A0 to A3. -/
  state : Nat := 0
  waking : Bool := false
  /-- The wake under way: when it was requested, the A3 set and the A common state that its exit latency counts, and whether it has been found late (R340, R349). -/
  wakeAt : Time := 0
  wakeSet : List Nat := []
  wakeCommon : Bool := false
  late : Bool := false
  /-- Restores under way: crest, then lee (R340). -/
  crestDue : Bool := false
  leeDue : Bool := false
  idleSince : Time := 0
  noA3 : Bool := false
  idleHint : Bool := false
  busyUntil : Option Time := none
  /-- A write of MESA_RST_DOMAIN waits for the row (R591). -/
  passage : Bool := false
  deriving DecidableEq, Repr

/-- One adapted oasis (R350 to R355). -/
structure OasisSt where
  /-- Voltage code, 2.5 mV steps from 0.550 V. -/
  volt : Nat := 20
  mhz : Nat := 1250
  quiet : Nat := 0
  alarm : Bool := false
  /-- Windows with an alarm in a row at 0.950 V. -/
  topAlarms : Nat := 0
  /-- Kinds of R355 whose excursion is open. -/
  excursions : List Nat := []
  throttle : Option Nat := none
  /-- An AVS window or a row's wake has looked at its start voltage. -/
  seen : Bool := false
  deriving DecidableEq, Repr

/-- The power control (13). -/
structure Power where
  rows : SMap Row := []
  /-- A common domains in A1, one bit per erg die. -/
  commonA1 : Vector Bool 4 := .replicate 4 false
  /-- F domains that are on, numbers 1 to 8 at 0 to 7. -/
  fOn : Vector Bool 8 := .replicate 8 false
  tileOasis : SMap OasisSt := []
  routerOasis : SMap OasisSt := []
  /-- The last sample of each sensor, in 0.25 °C. -/
  temps : List (Nat × Int) := []
  /-- Sensors beyond T_WARN and T_LIMIT. -/
  warm : List Nat := []
  hot : List Nat := []
  /-- Erg dies switched off by T_TRIP. -/
  tripped : List Nat := []
  deriving DecidableEq, Repr

/-- One Dunewatch output (R368, R372). -/
structure DwOut where
  level : Bool := false
  on : Nat := 0
  off : Nat := 0
  /-- Processed frames since the followed gesture class was last detected. -/
  gap : Option Nat := none
  deriving DecidableEq, Repr

/-- A frame that Dunewatch works on (R364, R369): its luma image, stamp, bank. -/
structure DwJob where
  image : List Nat
  stamp : Stamp
  feed : Bool
  /-- The station time that selects its bank: of its stamp, or of the DW_FEED_GO write. -/
  bankAt : Time
  deriving DecidableEq, Repr

/-- Dunewatch (14). -/
structure Dw where
  job : Option DwJob := none
  /-- The previous processed frame, and the embeddings of the last four, newest first. -/
  prev : Option (List Nat) := none
  hist : List (List Nat) := []
  out : Vector DwOut 4 := .replicate 4 {}
  /-- DW_EMBED window. -/
  embed : List Nat := []
  captured : Bool := false
  lastProcessed : Option Stamp := none
  lastGood : Option Stamp := none
  /-- Station time from which DW_TIMEOUT runs. -/
  watchFrom : Time := 0
  lost : Bool := false
  seq : Nat := 0
  top : Nat := 0
  det : Nat := 0
  score : Int := 0
  lastStamp : Stamp := 0
  /-- Host feed window, and the outputs' changes presented to the reflex logic: output, falling, stamp. -/
  feed : Mem := []
  sentinel : List (Nat × Bool × Stamp) := []
  deriving DecidableEq, Repr

end Sys2Proof.Machine
end

