-- ==== Sys2Proof/Machine/StWork.lean ====
section
/-! DEFINITION. State of images, jobs, reservations, cycles, DFL ports and the slip (01, 11, 12, 17). -/

namespace Sys2Proof.Machine

/-- An entry bound record with its tile masks (R299). -/
structure EntryBound where
  entry : Nat
  kind : Nat
  phases : Nat
  replicas : Nat
  tileCount : Nat
  commitNs : Nat
  totalNs : Nat
  /-- BOUND, ALLOW, RERUN_COST and RESHARD of the four phases. -/
  phase : List (Nat × Nat × Nat × Nat)
  /-- UP and DOWN shares of links 0 to 10. -/
  share : List (Nat × Nat)
  capA : Nat
  capB : Nat
  /-- One 512-bit tile mask per replica. -/
  masks : List Nat
  deriving DecidableEq, Repr

/-- A PLACE record (R292). -/
structure PlaceRec where
  tile : Nat
  cbMask : Nat
  wbedOff : Nat
  wbedLen : Nat
  imemOff : Nat
  imemLen : Nat
  entryFirst : Nat
  entryCount : Nat
  scaleFirst : Nat
  scaleCount : Nat
  misfitMask : Nat
  deriving DecidableEq, Repr

/-- A RES_MAP record (R293), in MiB. -/
structure ResRec where
  base : Nat
  len : Nat
  use : Nat
  deriving DecidableEq, Repr

/-- A CAIRN_MAP record (R309). -/
structure CairnRec where
  entry : Nat
  replica : Nat
  die : Nat
  ranges : List (Nat × Nat)
  sources : Nat
  deriving DecidableEq, Repr

/-- A chunk of TILE_CONTENT (R294). -/
structure Chunk where
  tile : Nat
  kind : Nat
  off : Nat
  bytes : List Byte
  deriving DecidableEq, Repr

/-- A resident image as the loader leaves it (R288 to R297). -/
structure Image where
  /-- The identity, first byte least significant. -/
  ident : Nat
  keySlot : Nat
  profile : Bool
  noLee : Bool
  unbound : Bool
  minLeadUs : Nat
  clockMhz : Nat
  target : Nat
  entries : List EntryBound
  place : List PlaceRec
  res : List ResRec
  cairns : List CairnRec
  len : Nat
  deriving DecidableEq, Repr

/-- The loader's tables (R296, R297, R321): slots in crest, in lee, in the retiring bank. -/
structure Loader where
  crest : Vector (Option Image) 4 := .replicate 4 none
  lee : Vector (Option Image) 4 := .replicate 4 none
  old : Vector (Option Image) 4 := .replicate 4 none
  /-- Slots that a load or unload has changed since the last slip. -/
  changed : Vector Bool 4 := .replicate 4 false
  /-- The expected lee checksum of each tile that has one of its own. -/
  expect : SMap Nat := []
  deriving DecidableEq, Repr

/-- A job (R438 to R442): what it runs, where, until when, and how it ended. -/
structure Job where
  id : JobId
  /-- 1 cycle, 2 frame, 3 host. -/
  kind : Nat
  die : Nat
  /-- Cycle class, or camera stream. -/
  cls : Nat
  image : Nat
  entry : Nat
  old : Bool
  admitted : Bool
  start : Time
  end_ : Time
  tiles : List Nat
  share : List (Nat × Nat)
  /-- Cairn ranges by die. -/
  cairns : List (Nat × List (Nat × Nat))
  void : Nat := 0
  stopped : Option Nat := none
  /-- Tiles that have not ended. -/
  running : List Nat := []
  excepted : Bool := false
  /-- A reservation is held (R87). -/
  reserved : Bool := false
  /-- Every tile ended at JEND (R23). -/
  committed : Bool := false
  /-- A frame job whose start messages wait for the end of its frame (R423). -/
  unstarted : Bool := false
  hp : Option (Nat × Nat × List Byte) := none
  deriving DecidableEq, Repr

/-- A commit as received (R445): receipt time, key, body. -/
structure CommitMsg where
  receipt : Time
  key : Key
  void : Nat
  body : List Byte
  deriving DecidableEq, Repr

/-- An actuation event (R444). -/
structure ActEvent where
  action : Nat
  chip : Nat
  kind : Nat
  index : Nat
  profile : Nat
  flags : Nat
  duration : Nat
  fire : Time
  deadline : Time
  stamp : Stamp
  seq : Nat
  deriving DecidableEq, Repr

/-- A cycle's pending event in the actuation unit (R30), and what has become of it. -/
structure Cycle where
  id : JobId
  die : Nat
  cls : Nat
  admitted : Bool
  old : Bool
  deadline : Time
  dflt : ActEvent
  ident : Nat
  crest : Nat
  closeAt : Time
  closed : Bool := false
  capped : Bool := false
  digest : Nat := 0
  absent : Nat := 0
  /-- Keys of the tag records and of the frames in the input set (R22). -/
  tags : List Key := []
  frames : List Key := []
  commit : Option CommitMsg := none
  /-- The commit has been checked, with the event as checked. -/
  checked : Bool := false
  event : Option ActEvent := none
  extra : Nat := 0
  void : Nat := 0
  verdict : Option (Nat × Nat) := none
  recorded : Bool := false
  appended : Nat := 0
  dfltSent : Bool := false
  dfltNotSent : Bool := false
  jobStopped : Bool := false
  /-- An event decided and not yet sent: it waits for its bank's turn (R510). -/
  queued : Option ActEvent := none
  deriving DecidableEq, Repr

/-- A state of one chip as the actuation unit sees it, from one status event on (R86, R446). -/
structure ChipState where
  stamp : Stamp
  up : Bool
  seated : Bool
  attached : Bool
  /-- Held channels 0 to 11 and outputs 12 to 23. -/
  held : Nat
  deriving DecidableEq, Repr

/-- An event on a DFL port (R455, R459; log 38). -/
structure DflEvent where
  eid : Nat
  event : ActEvent
  cycle : JobId
  cycleDie : Nat
  /-- End of its last transmission; transmissions so far. -/
  sentAt : Time := 0
  sent : Nat := 0
  scheduled : Bool := false
  deriving DecidableEq, Repr

/-- A frame that waits on a DFL port (R459): its class in the priority order, its bytes without CRC and LSEQ. -/
structure DflFrame where
  prio : Nat
  bytes : List Byte
  eid : Option Nat := none
  deriving DecidableEq, Repr

/-- A REG operation of a DFL port (17, 20). -/
structure RegOp where
  write : Bool
  off : Nat
  value : Word
  tag : Nat
  started : Time
  /-- The REG has been sent once more (R550). -/
  again : Bool := false
  deriving DecidableEq, Repr

/-- One DFL port (R447, R454 to R459). -/
structure DflPort where
  up : Bool := false
  attached : Bool := false
  seated : Bool := false
  hold : Bool := false
  rev : Nat := 0
  crcErr : Nat := 0
  retx : Nat := 0
  lseq : Nat := 0
  nextEid : Nat := 0
  nextTag : Nat := 0
  queue : List DflFrame := []
  events : List DflEvent := []
  /-- Frames sent, in order, with LSEQ and CRC. -/
  wire : List (List Byte) := []
  reg : Option RegOp := none
  regResult : Option (Nat × Word) := none
  history : List ChipState := []
  /-- The chip's states under replay: that at its start, then those of the replayed log (R93; log 57). -/
  logged : List ChipState := []
  held : Nat := 0
  /-- Frames discarded in a row; valid STATUS frames with LOCKED in a row; the end of the last valid frame. -/
  discards : Nat := 0
  lockedRun : Nat := 0
  lastValid : Time := 0
  /-- Slip transfer: chunks not yet acknowledged with the time and count of their transmissions; a reseat is under way. -/
  chunks : List (Nat × Time × Nat) := []
  reseat : Bool := false
  /-- The crest checksum that the chip has reported since the link last went down; a comparison with the ledger is due (R328). -/
  ident : Option Nat := none
  compareDue : Bool := true
  deriving DecidableEq, Repr

/-- A slip party (R318, R330; log 30). -/
inductive Party where
  | tile (t : Nat)
  | mesa (d : Nat)
  | chip (c : Nat)
  deriving DecidableEq, Repr

/-- Coordinator states (R319). -/
inductive SlipSt where
  | idle | preparing | arming | armed
  deriving DecidableEq, Repr

/-- The slip coordinator (R318 to R332). -/
structure Slip where
  st : SlipSt := .idle
  id : Nat := 0
  point : Time := 0
  deadline : Time := 0
  expect : Nat := 0
  parties : List Party := []
  /-- Parties that PREPARE, COMMIT or ABORT has reached. -/
  prepared : List Party := []
  /-- What each party answers to PREPARE: the NACK reason, or 0, and its checksum. -/
  answers : List (Party × Nat × Nat) := []
  acked : List Party := []
  committed : List Party := []
  commitAcked : List Party := []
  /-- Checksums acknowledged by mesa dies. -/
  mesaSum : Vector Nat 2 := .replicate 2 0
  reason : Nat := 0
  failed : Option Party := none
  leeDigest : Nat := 0
  crestDigest : Nat := resetDigest
  last : Time := 0
  /-- Slip point of the most recent successful slip (R132). -/
  lastPoint : Option Time := none
  deriving DecidableEq, Repr

/-- A register write held while lee is refreshed (R326): address and value. -/
structure HeldWrite where
  addr : Nat
  value : Word
  mask : Word
  deriving DecidableEq, Repr

end Sys2Proof.Machine
end

