-- ==== Sys2Proof/Syntax.lean ====
section
/-! DEFINITION. The commands of the block: one constructor per row of spec/opcode_table.json, with the row's operands. -/

namespace Sys2Proof

open Machine

/-- A command: an access, an event at a pin or a unit, or one Nonto instruction of a tile. Each constructor cites its row's rule (log 6; log 7). -/
inductive Instr where
  /-- REGISTER_WRITE (R13): `size` bytes at `off`; a 4-byte access carries the low 32 bits. -/
  | registerWrite (space : Space) (off size : Nat) (value : DWord) (t : Time)
  /-- LOW_WORD_READ_LATCH (R11). -/
  | lowWordReadLatch (off : Nat)
  /-- LOW_WORD_STAGE (R12). -/
  | lowWordStage (off : Nat) (value : Word)
  /-- HIGH_WORD_COMMIT (R12). -/
  | highWordCommit (off : Nat) (value : Word) (t : Time)
  /-- ABSENT_UNIT_ACCESS (R53). -/
  | absentUnitAccess (off : Nat) (write : Bool) (t : Time)
  /-- POWER_ON (R588). -/
  | powerOn
  /-- RESET_N_ASSERT (R588): the time RESET_N has been low. -/
  | resetNAssert (us : Nat)
  /-- RESET_N_RELEASE (R593): the level of the boundary-scan strap. -/
  | resetNRelease (bscan : Bool)
  /-- COLD_RESET_END (R593): capability bits and tiles that failed bring-up. -/
  | coldResetEnd (failed : List Nat) (deadTiles : List (Fin 512))
  /-- FIRMWARE_START (R597). -/
  | firmwareStart
  /-- WARM_RST_N_ASSERT (R588): the time WARM_RST_N has been low. -/
  | warmRstNAssert (us : Nat)
  /-- WATCHDOG_EXPIRY (R588). -/
  | watchdogExpiry
  /-- WARM_RESET (R589). -/
  | warmReset
  /-- RST_CTL_COLD (R588). -/
  | rstCtlCold (key : Nat)
  /-- RST_CTL_WARM (R588). -/
  | rstCtlWarm (key : Nat)
  /-- RST_CTL_SHUTDOWN (R604). -/
  | rstCtlShutdown (key : Nat) (t : Time)
  /-- RST_DOMAIN_WRITE (R591). -/
  | rstDomainWrite (value : Word) (t : Time)
  /-- RECOVER (R598). -/
  | recover
  /-- ROLLBACK_COMMIT (R597). -/
  | rollbackCommit
  /-- OTP_PROGRAM (R599). -/
  | otpProgram (request : List Byte)
  /-- OTP_REVOKE (R599). -/
  | otpRevoke (request : List Byte)
  /-- OTP_DISABLE_DEBUG (R599). -/
  | otpDisableDebug (request : List Byte)
  /-- JTAG_BYPASS (R600). -/
  | jtagBypass (tdi : List Bool)
  /-- JTAG_IDCODE (R600). -/
  | jtagIdcode
  /-- JTAG_SAMPLE_PRELOAD (R600). -/
  | jtagSamplePreload (pins : List Bool) (load : List Bool)
  /-- JTAG_EXTEST (R600). -/
  | jtagExtest (pins : List Bool) (load : List Bool)
  /-- JTAG_CLAMP (R600). -/
  | jtagClamp
  /-- JTAG_HIGHZ (R600). -/
  | jtagHighz
  /-- DBG_CHAL (R601). -/
  | dbgChal
  /-- DBG_RESP (R601). -/
  | dbgResp (response : List Byte)
  /-- DBG_ACCESS (R601). -/
  | dbgAccess (op : DebugOp) (t : Time)
  /-- RELOCK (R601). -/
  | relock
  /-- DFL_HOLD_SET (R603). -/
  | dflHoldSet (t : Time)
  /-- DFL_HOLD_CLEAR (R603). -/
  | dflHoldClear
  /-- POWER_DOWN_START (R605): the next step of the sequence. -/
  | powerDownStart (t : Time)
  /-- PWR_FAIL_N_FALL (R604): the time PWR_FAIL_N has been low. -/
  | pwrFailNFall (us : Nat) (t : Time)
  /-- RAIL_COLLAPSE (R607). -/
  | railCollapse (rail : Nat) (t : Time)
  /-- HOST_LINK_RESET (R380). -/
  | hostLinkReset (flr : Bool)
  /-- POWER_STATE_CHANGE (R385). -/
  | powerStateChange (d3hot : Bool) (t : Time)
  /-- STAGE_CONFIG_WRITE (R386). -/
  | stageConfigWrite (value : Word)
  /-- HP1_DOORBELL (R393). -/
  | hp1Doorbell (value : Word) (t : Time)
  /-- SQ_TAIL_DOORBELL (R395). -/
  | sqTailDoorbell (queue : Fin 8) (value : Word) (t : Time)
  /-- HP2_GROUP_STAMP (R395). -/
  | hp2GroupStamp (queue : Fin 8) (t : Time)
  /-- SQ_ENTRY_FETCH (R395): the 64 bytes read, or none when the read failed. -/
  | sqEntryFetch (queue : Fin 8) (data : Option (List Byte)) (t : Time)
  /-- CQ_HEAD_DOORBELL (R396). -/
  | cqHeadDoorbell (queue : Fin 8) (value : Word)
  /-- QUEUE_ENABLE (R397). -/
  | queueEnable (queue : Fin 8)
  /-- QUEUE_DISABLE (R397). -/
  | queueDisable (queue : Fin 8)
  /-- HP_NOP (R389). -/
  | hpNop (t : Time)
  /-- STAGE_IN (R389). -/
  | stageIn (t : Time)
  /-- STAGE_IN_COMPLETE (R396): the bytes read from host memory, or none when the read failed. -/
  | stageInComplete (data : Option (List Byte)) (t : Time)
  /-- SUBMIT_JOB (R399). -/
  | submitJob (t : Time)
  /-- LOAD_IMAGE (R290). -/
  | loadImage (t : Time)
  /-- UNLOAD_IMAGE (R297). -/
  | unloadImage (t : Time)
  /-- SLIP (R318). -/
  | slip (t : Time)
  /-- TIME_STEP (R407). -/
  | timeStep (t : Time)
  /-- INJECT (R401). -/
  | inject (t : Time)
  /-- ADMIN_COMMAND_NEXT (R398). -/
  | adminCommandNext
  /-- OUTPUT_COPY_COMPLETE (R387). -/
  | outputCopyComplete (ok : Bool) (t : Time)
  /-- COMPLETION_POST (R396). -/
  | completionPost (t : Time)
  /-- TIME_START (R404). -/
  | timeStart
  /-- TIME_CONFIG_CHANGE (R404). -/
  | timeConfigChange (value : Word)
  /-- PTP_SYNC (R406): the time the Sync and its Follow_Up carry, and the local time of its receipt. -/
  | ptpSync (master : Int) (t : Time)
  /-- PTP_SYNC_TIMEOUT (R406). -/
  | ptpSyncTimeout (t : Time)
  /-- TIME_STEP_APPLY (R407). -/
  | timeStepApply (t : Time)
  /-- TIME_STEP_TIMEOUT (R407). -/
  | timeStepTimeout (t : Time)
  /-- STAMP_EPOCH_NEAR (R67). -/
  | stampEpochNear (t : Time)
  /-- STAMP_LIMIT (R67). -/
  | stampLimit (t : Time)
  /-- ETH_FRAME (R403). -/
  | ethFrame (die : Fin 2) (port : Fin 4) (frame : List Byte) (fcsOk : Bool) (at_ : Time)
  /-- REPLAY_START (R93): the first logged stamp's time. -/
  | replayStart (first : Time)
  /-- REPLAY_END (R94). -/
  | replayEnd
  /-- REPLAY_CLOCK_ADVANCE (R93). -/
  | replayClockAdvance (t : Time)
  /-- TRIG_EDGE (R413): the station time of the edge at the pin. -/
  | trigEdge (die : Fin 2) (input : Fin 32) (rising : Bool) (at_ : Time)
  /-- TRIG_GLITCH (R413): the input leaves its active level. -/
  | trigGlitch (die : Fin 2) (input : Fin 32) (at_ : Time)
  /-- TRIG_QUALIFY (R413). -/
  | trigQualify (die : Fin 2) (input : Fin 32) (t : Time)
  /-- TRIG_HOLDOFF_END (R414). -/
  | trigHoldoffEnd (die : Fin 2) (input : Fin 32) (t : Time)
  /-- CAM_CLOCK_LOCK (R410). -/
  | camClockLock (die : Fin 2) (receiver : Fin 8) (locked : Bool)
  /-- FRAME_START (R419). -/
  | frameStart (die : Fin 2) (receiver : Fin 8) (vc : Nat) (dt : Nat) (at_ : Time)
  /-- CSI_LONG_PACKET (R417). -/
  | csiLongPacket (die : Fin 2) (receiver : Fin 8) (vc dt : Nat) (header : CsiHeader) (crcOk overflow : Bool) (payload : List Byte)
  /-- CSI_LINE_SHORT_PACKET (R416). -/
  | csiLineShortPacket (die : Fin 2) (receiver : Fin 8) (vc dt : Nat)
  /-- FRAME_END (R424). -/
  | frameEnd (die : Fin 2) (receiver : Fin 8) (vc dt : Nat) (t : Time)
  /-- FRAME_READOUT_TIMEOUT (R418). -/
  | frameReadoutTimeout (die : Fin 2) (stream : Fin 24) (t : Time)
  /-- TAG_RXS (R426). -/
  | tagRxs (die : Fin 2) (port : Fin 8) (t : Time)
  /-- TAG_FR (R426). -/
  | tagFr (die : Fin 2) (port : Fin 8) (at_ : Time)
  /-- TAG_READ_DONE (R428): `bytes` are what the QSPI read returned: PHR, PSDU, status. -/
  | tagReadDone (die : Fin 2) (port : Fin 8) (bytes : List Byte) (t : Time)
  /-- TAG_RATE_UPDATE (R430). -/
  | tagRateUpdate (die : Fin 2) (tag : DWord) (tx : Word) (stamp : Stamp)
  /-- CAN_FRAME_RECEIVE (R435). -/
  | canFrameReceive (die : Fin 2) (ctl : Fin 4) (frame : CanFrame) (at_ : Time)
  /-- CAN_ERROR_FRAME (R436): the error counters after the error frame, per ISO 11898-1. -/
  | canErrorFrame (die : Fin 2) (ctl : Fin 4) (tec rec_ : Nat)
  /-- CAN_TRANSMIT (R436). -/
  | canTransmit (die : Fin 2) (ctl : Fin 4) (buffer : Fin 4)
  /-- CAN_INIT_ENTER (R436). -/
  | canInitEnter (die : Fin 2) (ctl : Fin 4)
  /-- CAN_INIT_LEAVE (R436). -/
  | canInitLeave (die : Fin 2) (ctl : Fin 4)
  /-- MERGE_ITEM_ARRIVE (R71): an item, or with none a horizon. -/
  | mergeItemArrive (merge : MergeId) (src : Nat) (item : Option Item) (horizon : Key) (t : Time)
  /-- MERGE_RELEASE (R71). -/
  | mergeRelease (merge : MergeId) (t : Time)
  /-- CYCLE_ADMISSION (R439). -/
  | cycleAdmission (die : Fin 2) (stamp : Stamp) (hits : List EccHit) (t : Time)
  /-- FRAME_JOB_ADMISSION (R440). -/
  | frameJobAdmission (die : Fin 2) (stamp : Stamp) (t : Time)
  /-- HOST_JOB_ADMISSION (R439). -/
  | hostJobAdmission (t : Time)
  /-- INPUT_SET_CLOSURE (R26). -/
  | inputSetClosure (die : Fin 2) (stamp : Stamp) (t : Time)
  /-- RESERVATION_END (R304). -/
  | reservationEnd (job : JobId) (t : Time)
  /-- COMMIT_RECEIVE (R445). -/
  | commitReceive (die : Fin 2) (key : Key) (void : Nat) (body : List Byte) (t : Time)
  /-- COMMIT_CHECK (R446). -/
  | commitCheck (stamp : Stamp) (t : Time)
  /-- DEADLINE_EXPIRY (R36). -/
  | deadlineExpiry (stamp : Stamp) (t : Time)
  /-- REPLY_RECEIVE (R456). -/
  | replyReceive (port : Fin 4) (eid result : Nat) (time : Time) (t : Time)
  /-- EVENT_RETRANSMIT (R459). -/
  | eventRetransmit (port : Fin 4) (eid : Nat) (t : Time)
  /-- EVENT_ABANDON (R459). -/
  | eventAbandon (port : Fin 4) (eid : Nat) (t : Time)
  /-- DFL_FRAME_SEND (R459). -/
  | dflFrameSend (port : Fin 4) (t : Time)
  /-- DFL_TIME_TICK (R457). -/
  | dflTimeTick (port : Fin 4) (t : Time)
  /-- DFL_FRAME_DISCARD (R454). -/
  | dflFrameDiscard (port : Fin 4) (t : Time)
  /-- DFL_SILENCE_TIMEOUT (R538). -/
  | dflSilenceTimeout (port : Fin 4) (t : Time)
  /-- DFL_ALIGN_LOSS_TIMEOUT (R538). -/
  | dflAlignLossTimeout (port : Fin 4) (since : Time) (t : Time)
  /-- DFL_DISCARD_COUNT (R538). -/
  | dflDiscardCount (port : Fin 4) (t : Time)
  /-- DFL_LINK_UP (R538). -/
  | dflLinkUp (port : Fin 4) (t : Time)
  /-- STATUS_EVENT_RECEIVE (R548): bytes 2 to 21 of the STATUS frame. -/
  | statusEventReceive (port : Fin 4) (body : List Byte) (t : Time)
  /-- STATUS_PERIODIC_RECEIVE (R547). -/
  | statusPeriodicReceive (port : Fin 4) (body : List Byte) (t : Time)
  /-- STATUS_IDENT_RECEIVE (R328). -/
  | statusIdentReceive (port : Fin 4) (body : List Byte) (t : Time)
  /-- REFLEX_RULE_WRITE (R461). -/
  | reflexRuleWrite (die : Fin 2) (rule : Fin 64) (word : Fin 3) (value : Word)
  /-- REFLEX_LAUNCH (R462). -/
  | reflexLaunch (die : Fin 2) (source : ReflexSource) (falling : Bool) (stamp : Stamp) (levels : Nat) (hits : List EccHit) (t : Time)
  /-- ACT_REG_GO (R550). -/
  | actRegGo (port : Fin 4) (write : Bool) (off : Nat) (value : Word) (t : Time)
  /-- REG_DATA_RECEIVE (R550). -/
  | regDataReceive (port : Fin 4) (tag result off : Nat) (value : Word) (t : Time)
  /-- ACT_REG_TIMEOUT (R550). -/
  | actRegTimeout (port : Fin 4) (t : Time)
  /-- SLIP_PREPARE_WRITE (R318): the value written to MESA_SLIP_CTL. -/
  | slipPrepareWrite (value : Word) (t : Time)
  /-- SLIP_ABORT_WRITE (R323). -/
  | slipAbortWrite (t : Time)
  /-- PARTY_PREPARE (R320). -/
  | partyPrepare (party : Party) (id : Nat) (t : Time)
  /-- PARTY_CHECKSUM_DONE (R320). -/
  | partyChecksumDone (party : Party) (id : Nat) (hits : List EccHit) (t : Time)
  /-- PREPARE_ACK (R321). -/
  | prepareAck (party : Party) (id : Nat) (sum : Nat) (t : Time)
  /-- PREPARE_NACK (R322). -/
  | prepareNack (party : Party) (id : Nat) (reason : Nat) (t : Time)
  /-- SLIP_PREPARE_TIMEOUT (R322). -/
  | slipPrepareTimeout (t : Time)
  /-- PARTY_COMMIT (R323). -/
  | partyCommit (party : Party) (id : Nat) (t : Time)
  /-- COMMIT_ACK_RECEIVE (R319). -/
  | commitAckReceive (party : Party) (id : Nat) (t : Time)
  /-- SLIP_ARM_TIMEOUT (R319). -/
  | slipArmTimeout (t : Time)
  /-- PARTY_ABORT (R325). -/
  | partyAbort (party : Party) (id : Nat) (t : Time)
  /-- SLIP_POINT (R324). -/
  | slipPoint (t : Time)
  /-- TILE_BANK_RETIRE_END (R133): `lee` when a lee write waits for the half. -/
  | tileBankRetireEnd (tile : Fin 512) (lee : Bool) (t : Time)
  /-- MESA_BANK_RETIRE_END (R326). -/
  | mesaBankRetireEnd (die : Fin 2) (t : Time)
  /-- SLIP_RECLAIM_TIMEOUT (R326). -/
  | slipReclaimTimeout (job : JobId) (t : Time)
  /-- LEE_REFRESH_DONE (R326). -/
  | leeRefreshDone (party : Party) (t : Time)
  /-- LEE_CHUNK_RETRANSMIT (R458). -/
  | leeChunkRetransmit (port : Fin 4) (chunk : Fin 32) (t : Time)
  /-- JOB_START (R200). -/
  | jobStart (tile : Fin 512) (t : Time)
  /-- ENGINE_OP_COMPLETE (R216). -/
  | engineOpComplete (tile : Fin 512) (engine : Fin 5)
  /-- SCRUB_READ (R136): the errors found in the line. -/
  | scrubRead (tile : Fin 512) (hits : List EccHit) (t : Time)
  /-- RESERVOIR_PATROL (R574). -/
  | reservoirPatrol (stack : Fin 8) (hits : List EccHit) (t : Time)
  /-- TILE_CB_WRITE (R341). -/
  | tileCbWrite (tile : Fin 512) (off : Nat) (value : Word) (t : Time)
  /-- FLIT_HOP (R114). -/
  | flitHop (src dst : Node)
  /-- CREDIT_RETURN (R106). -/
  | creditReturn (src dst : Node) (cls : Fin 4) (count : Nat)
  /-- HORIZON_ARRIVE (R108). -/
  | horizonArrive (merge : MergeId) (src : Nat) (horizon : Key)
  /-- FLIT_DELIVER (R105): `good` when every flit's CHECK passes. -/
  | flitDeliver (place : Node) (good headGood : Bool) (t : Time)
  /-- HOP_WAIT (R120). -/
  | hopWait (die : Fin 4) (cls : Fin 4) (ns : Nat)
  /-- BE_WAIT (R120). -/
  | beWait (die : Fin 4) (ns : Nat)
  /-- CAIRN_BIND_MSG (R263). -/
  | cairnBindMsg (die : Fin 4) (job : JobId) (admitted : Bool) (end_ : Time) (ranges : List (Nat × Nat)) (sources : Nat)
  /-- CAIRN_ADD_MSG (R267). -/
  | cairnAddMsg (die : Fin 4) (tile : Fin 512) (key : Key) (cairn : Nat) (operand : Word)
  /-- CAIRN_ADDS_MSG (R269). -/
  | cairnAddsMsg (die : Fin 4) (tile : Fin 512) (key : Key) (cairn : Nat) (operand : Word)
  /-- CAIRN_FENCE_MSG (R269). -/
  | cairnFenceMsg (die : Fin 4) (tile : Fin 512) (key : Key) (cairn : Nat)
  /-- CAIRN_WAIT_MSG (R273). -/
  | cairnWaitMsg (die : Fin 4) (tile : Fin 512) (key : Key) (cairn : Nat) (target : Word)
  /-- CAIRN_SETTLE_N_MSG (R274). -/
  | cairnSettleNMsg (die : Fin 4) (tile : Fin 512) (key : Key) (cairn : Nat) (count : Word) (contrib : Nat) (rerun : Bool) (threshold : Word)
  /-- CAIRN_SETTLE_W_MSG (R274). -/
  | cairnSettleWMsg (die : Fin 4) (tile : Fin 512) (key : Key) (cairn : Nat) (count : Word) (contrib : Nat)
  /-- CAIRN_CLOSE_MSG (R269). -/
  | cairnCloseMsg (die : Fin 4) (job : JobId) (prods : List Nat)
  /-- CAIRN_APPLY (R271). -/
  | cairnApply (die : Fin 4) (job : JobId) (hits : List EccHit) (t : Time)
  /-- CAIRN_REPLY (R97): `cycles` are the tile cycles since the decision of the slot's narrow settle. -/
  | cairnReply (tile : Fin 512) (key : Key) (result : Word) (decision : Bool) (cycles : Nat) (t : Time)
  /-- ROW_ENTER_A1 (R338). -/
  | rowEnterA1 (dom : Nat) (t : Time)
  /-- ROW_ENTER_A2 (R338). -/
  | rowEnterA2 (dom : Nat) (t : Time)
  /-- ROW_ENTER_A3 (R345). -/
  | rowEnterA3 (dom : Nat) (t : Time)
  /-- ROW_WAKE (R339). -/
  | rowWake (dom : Nat) (t : Time)
  /-- ROW_WAKE_DONE (R337). -/
  | rowWakeDone (dom : Nat) (t : Time)
  /-- ROW_CREST_RESTORED (R340). -/
  | rowCrestRestored (dom : Nat) (t : Time)
  /-- ROW_LEE_RESTORED (R340). -/
  | rowLeeRestored (dom : Nat) (t : Time)
  /-- WAKE_LATE (R349). -/
  | wakeLate (dom : Nat) (t : Time)
  /-- COMMON_ENTER_A1 (R342). -/
  | commonEnterA1 (dom : Nat) (t : Time)
  /-- COMMON_WAKE (R342). -/
  | commonWake (dom : Nat) (t : Time)
  /-- F_DOMAIN_SWITCH_DONE (R336). -/
  | fDomainSwitchDone (dom : Nat) (t : Time)
  /-- HINT_REG_NO_CHANGE (R347). -/
  | hintRegNoChange (dom : Nat)
  /-- HINT_REG_IDLE_SOON (R347). -/
  | hintRegIdleSoon (dom : Nat) (t : Time)
  /-- HINT_REG_BUSY_SOON (R347). -/
  | hintRegBusySoon (dom : Nat) (t : Time)
  /-- BUSY_HOLD_END (R347). -/
  | busyHoldEnd (dom : Nat) (t : Time)
  /-- TIMING_ALARM (R351). -/
  | timingAlarm (oasis : Oasis) (on : Bool)
  /-- AVS_WINDOW (R352): the least margin of the window, in monitor units. -/
  | avsWindow (oasis : Oasis) (alarm : Bool) (margin : Nat) (t : Time)
  /-- CLOCK_CHANGE (R350). -/
  | clockChange (oasis : Oasis) (t : Time)
  /-- THERMAL_SAMPLE (R356): sensors with their temperatures in units of 0.25 °C. -/
  | thermalSample (temps : List (Nat × Int)) (t : Time)
  /-- DW_ENABLE (R377). -/
  | dwEnable (t : Time)
  /-- DW_DISABLE (R377). -/
  | dwDisable (t : Time)
  /-- DW_FREEZE (R377). -/
  | dwFreeze (on : Bool)
  /-- DW_FRAME (R364). -/
  | dwFrame (stream : Fin 24) (stamp : Stamp) (width height : Nat) (luma : List Byte) (damaged : Bool) (t : Time)
  /-- DW_FEED_GO (R364). -/
  | dwFeedGo (t : Time)
  /-- DW_INFERENCE_DONE (R367). -/
  | dwInferenceDone (t : Time)
  /-- DW_SOURCE_LOST (R372). -/
  | dwSourceLost (t : Time)
  /-- LOG_RECORD_ARRIVE (R560): the oldest record made on the die reaches its log writer. -/
  | logRecordArrive (die : Fin 2)
  /-- LOG_KEYED_RELEASE (R560): the least frontier of the die's keyed sources. -/
  | logKeyedRelease (die : Fin 2) (frontier : Key)
  /-- LOG_HOST_COPY (R563). -/
  | logHostCopy (die : Fin 2)
  /-- LOG_HOST_HEAD_WRITE (R563). -/
  | logHostHeadWrite (value : Word)
  /-- RESERVOIR_RANGE (R577). -/
  | reservoirRange (addr : Nat) (loader write : Bool) (t : Time)
  /-- STACK_FAILED (R576): `interface` for an uncorrectable interface fault, else by the count of MEM_UE. -/
  | stackFailed (stack : Fin 8) (interface : Bool) (t : Time)
  /-- TILE_FATAL (R584). -/
  | tileFatal (tile : Fin 512) (t : Time)
  /-- SAFE_CLEAR (R585): `fatal` when a new FATAL fault falls in the same cycle. -/
  | safeClear (fatal : Bool)
  /-- DELLU_FLIT_CRC_FAIL (R578). -/
  | delluFlitCrcFail (link : Fin 11) (flits : Nat) (t : Time)
  /-- DELLU_RETRAIN (R578). -/
  | delluRetrain (link : Fin 11) (attempt : Nat) (t : Time)
  /-- DELLU_RETRAIN_DONE (R578). -/
  | delluRetrainDone (link : Fin 11) (ok : Bool)
  /-- LINK_FAILED (R578). -/
  | linkFailed (link : Fin 11) (t : Time)
  /-- ADD (R229). -/
  | add (tile : Fin 512) (g : Issue) (dst a b : Fin 32)
  /-- SUB (R229). -/
  | sub (tile : Fin 512) (g : Issue) (dst a b : Fin 32)
  /-- AND (R229). -/
  | and_ (tile : Fin 512) (g : Issue) (dst a b : Fin 32)
  /-- OR (R229). -/
  | or_ (tile : Fin 512) (g : Issue) (dst a b : Fin 32)
  /-- XOR (R229). -/
  | xor_ (tile : Fin 512) (g : Issue) (dst a b : Fin 32)
  /-- SLL (R229). -/
  | sll (tile : Fin 512) (g : Issue) (dst a b : Fin 32)
  /-- SRL (R229). -/
  | srl (tile : Fin 512) (g : Issue) (dst a b : Fin 32)
  /-- SRA (R229). -/
  | sra (tile : Fin 512) (g : Issue) (dst a b : Fin 32)
  /-- MUL (R229). -/
  | mul (tile : Fin 512) (g : Issue) (dst a b : Fin 32)
  /-- MULW (R229). -/
  | mulw (tile : Fin 512) (g : Issue) (dst a b : Fin 32)
  /-- MULWU (R229). -/
  | mulwu (tile : Fin 512) (g : Issue) (dst a b : Fin 32)
  /-- DIV (R229). -/
  | div (tile : Fin 512) (g : Issue) (dst a b : Fin 32)
  /-- DIVU (R229). -/
  | divu (tile : Fin 512) (g : Issue) (dst a b : Fin 32)
  /-- REM (R229). -/
  | rem (tile : Fin 512) (g : Issue) (dst a b : Fin 32)
  /-- REMU (R229). -/
  | remu (tile : Fin 512) (g : Issue) (dst a b : Fin 32)
  /-- MIN (R229). -/
  | min (tile : Fin 512) (g : Issue) (dst a b : Fin 32)
  /-- MAX (R229). -/
  | max (tile : Fin 512) (g : Issue) (dst a b : Fin 32)
  /-- MINU (R229). -/
  | minu (tile : Fin 512) (g : Issue) (dst a b : Fin 32)
  /-- MAXU (R229). -/
  | maxu (tile : Fin 512) (g : Issue) (dst a b : Fin 32)
  /-- ADDS (R229). -/
  | adds (tile : Fin 512) (g : Issue) (dst a b : Fin 32)
  /-- SUBS (R229). -/
  | subs (tile : Fin 512) (g : Issue) (dst a b : Fin 32)
  /-- ADDI (R230). -/
  | addi (tile : Fin 512) (g : Issue) (dst a : Fin 32) (imm : BitVec 12)
  /-- ANDI (R230). -/
  | andi (tile : Fin 512) (g : Issue) (dst a : Fin 32) (imm : BitVec 12)
  /-- ORI (R230). -/
  | ori (tile : Fin 512) (g : Issue) (dst a : Fin 32) (imm : BitVec 12)
  /-- XORI (R230). -/
  | xori (tile : Fin 512) (g : Issue) (dst a : Fin 32) (imm : BitVec 12)
  /-- SHI (R230). -/
  | shi (tile : Fin 512) (g : Issue) (dst a : Fin 32) (imm : BitVec 12)
  /-- LUI (R230). -/
  | lui (tile : Fin 512) (g : Issue) (dst : Fin 32) (imm : BitVec 17)
  /-- CMP_EQ (R231). -/
  | cmpEq (tile : Fin 512) (g : Issue) (dst : Fin 8) (a b : Fin 32)
  /-- CMP_NE (R231). -/
  | cmpNe (tile : Fin 512) (g : Issue) (dst : Fin 8) (a b : Fin 32)
  /-- CMP_LT (R231). -/
  | cmpLt (tile : Fin 512) (g : Issue) (dst : Fin 8) (a b : Fin 32)
  /-- CMP_GE (R231). -/
  | cmpGe (tile : Fin 512) (g : Issue) (dst : Fin 8) (a b : Fin 32)
  /-- CMP_LTU (R231). -/
  | cmpLtu (tile : Fin 512) (g : Issue) (dst : Fin 8) (a b : Fin 32)
  /-- CMP_GEU (R231). -/
  | cmpGeu (tile : Fin 512) (g : Issue) (dst : Fin 8) (a b : Fin 32)
  /-- BR (R210). -/
  | br (tile : Fin 512) (g : Issue) (link : Fin 32) (off : BitVec 17)
  /-- JR (R210). -/
  | jr (tile : Fin 512) (g : Issue) (dst a : Fin 32)
  /-- PAND (R232). -/
  | pand (tile : Fin 512) (g : Issue) (dst a b : Fin 8)
  /-- POR (R232). -/
  | por (tile : Fin 512) (g : Issue) (dst a b : Fin 8)
  /-- PXOR (R232). -/
  | pxor (tile : Fin 512) (g : Issue) (dst a b : Fin 8)
  /-- PANDN (R232). -/
  | pandn (tile : Fin 512) (g : Issue) (dst a b : Fin 8)
  /-- PNOT (R232). -/
  | pnot (tile : Fin 512) (g : Issue) (dst a : Fin 8)
  /-- PFROM (R232). -/
  | pfrom (tile : Fin 512) (g : Issue) (dst : Fin 8) (a : Fin 32)
  /-- PTO (R232). -/
  | pto (tile : Fin 512) (g : Issue) (dst : Fin 32) (a : Fin 8)
  /-- NOP (R232). -/
  | nop (tile : Fin 512) (g : Issue)
  /-- JEND (R204). -/
  | jend (tile : Fin 512) (g : Issue)
  /-- FENCE_ENG (R232). -/
  | fenceEng (tile : Fin 512) (g : Issue)
  /-- LD (R215): `hits` are the errors that the read finds. -/
  | ld (tile : Fin 512) (g : Issue) (dst : Fin 32) (xa : Fin 16) (off : BitVec 13) (hits : List EccHit)
  /-- ST (R215). -/
  | st (tile : Fin 512) (g : Issue) (src : Fin 32) (xa : Fin 16) (off : BitVec 13)
  /-- ASET (R233). -/
  | aset (tile : Fin 512) (g : Issue) (dst : Fin 16) (a b : Fin 32)
  /-- AMOV (R233). -/
  | amov (tile : Fin 512) (g : Issue) (dst a : Fin 16)
  /-- AADD (R233). -/
  | aadd (tile : Fin 512) (g : Issue) (dst a : Fin 16) (b : Fin 32)
  /-- ALEN (R233). -/
  | alen (tile : Fin 512) (g : Issue) (dst a : Fin 16) (b : Fin 32)
  /-- ARDLO (R233). -/
  | ardlo (tile : Fin 512) (g : Issue) (dst : Fin 32) (a : Fin 16)
  /-- ARDHI (R233). -/
  | ardhi (tile : Fin 512) (g : Issue) (dst : Fin 32) (a : Fin 16)
  /-- DSET_KIND (R246). -/
  | dsetKind (tile : Fin 512) (g : Issue) (d : Fin 16) (a : Fin 32)
  /-- DSET_LOOSE (R246). -/
  | dsetLoose (tile : Fin 512) (g : Issue) (d : Fin 16) (a : Fin 32)
  /-- DSET_FMT (R246). -/
  | dsetFmt (tile : Fin 512) (g : Issue) (d : Fin 16) (a : Fin 32)
  /-- DSET_SOURCES (R246). -/
  | dsetSources (tile : Fin 512) (g : Issue) (d : Fin 16) (a : Fin 32)
  /-- DSET_STREAM (R246). -/
  | dsetStream (tile : Fin 512) (g : Issue) (d : Fin 16) (a : Fin 32)
  /-- DSET_RING (R246). -/
  | dsetRing (tile : Fin 512) (g : Issue) (d : Fin 16) (a b : Fin 32)
  /-- FSET (R236). -/
  | fset (tile : Fin 512) (g : Issue) (sel : Fin 32) (a : Fin 32)
  /-- FLD (R236). -/
  | fld (tile : Fin 512) (g : Issue) (xb : Fin 16) (c : Fin 32)
  /-- FMAC (R237). -/
  | fmac (tile : Fin 512) (g : Issue) (xd xa xb : Fin 16) (c : Fin 32) (hits : List EccHit)
  /-- FDRN (R238). -/
  | fdrn (tile : Fin 512) (g : Issue) (xd xa xb : Fin 16) (hits : List EccHit)
  /-- FADD (R240). -/
  | fadd (tile : Fin 512) (g : Issue) (dst a b : Fin 16)
  /-- FSUB (R240). -/
  | fsub (tile : Fin 512) (g : Issue) (dst a b : Fin 16)
  /-- FMUL (R240). -/
  | fmul (tile : Fin 512) (g : Issue) (dst a b : Fin 16)
  /-- FMA (R240). -/
  | fma (tile : Fin 512) (g : Issue) (dst a b : Fin 16)
  /-- FMIN (R240). -/
  | fmin (tile : Fin 512) (g : Issue) (dst a b : Fin 16)
  /-- FMAX (R240). -/
  | fmax (tile : Fin 512) (g : Issue) (dst a b : Fin 16)
  /-- FABS (R240). -/
  | fabs (tile : Fin 512) (g : Issue) (dst a : Fin 16)
  /-- FNEG (R240). -/
  | fneg (tile : Fin 512) (g : Issue) (dst a : Fin 16)
  /-- CVT_F32_F16 (R240). -/
  | cvtF32F16 (tile : Fin 512) (g : Issue) (dst a : Fin 16)
  /-- CVT_F16_F32 (R240). -/
  | cvtF16F32 (tile : Fin 512) (g : Issue) (dst a : Fin 16)
  /-- CVT_F32_I32 (R240). -/
  | cvtF32I32 (tile : Fin 512) (g : Issue) (dst a : Fin 16)
  /-- CVT_I32_F32 (R240). -/
  | cvtI32F32 (tile : Fin 512) (g : Issue) (dst a : Fin 16)
  /-- IADD (R240). -/
  | iadd (tile : Fin 512) (g : Issue) (dst a b : Fin 16)
  /-- ISUB (R240). -/
  | isub (tile : Fin 512) (g : Issue) (dst a b : Fin 16)
  /-- IMUL (R240). -/
  | imul (tile : Fin 512) (g : Issue) (dst a b : Fin 16)
  /-- IADDS (R240). -/
  | iadds (tile : Fin 512) (g : Issue) (dst a b : Fin 16)
  /-- ISUBS (R240). -/
  | isubs (tile : Fin 512) (g : Issue) (dst a b : Fin 16)
  /-- IMIN (R240). -/
  | imin (tile : Fin 512) (g : Issue) (dst a b : Fin 16)
  /-- IMAX (R240). -/
  | imax (tile : Fin 512) (g : Issue) (dst a b : Fin 16)
  /-- VAND (R240). -/
  | vand (tile : Fin 512) (g : Issue) (dst a b : Fin 16)
  /-- VOR (R240). -/
  | vor (tile : Fin 512) (g : Issue) (dst a b : Fin 16)
  /-- VXOR (R240). -/
  | vxor (tile : Fin 512) (g : Issue) (dst a b : Fin 16)
  /-- VSLL (R240). -/
  | vsll (tile : Fin 512) (g : Issue) (dst a b : Fin 16)
  /-- VSRA (R240). -/
  | vsra (tile : Fin 512) (g : Issue) (dst a b : Fin 16)
  /-- RSUM (R240). -/
  | rsum (tile : Fin 512) (g : Issue) (dst a : Fin 16)
  /-- RMAX (R240). -/
  | rmax (tile : Fin 512) (g : Issue) (dst a : Fin 16)
  /-- RMIN (R240). -/
  | rmin (tile : Fin 512) (g : Issue) (dst a : Fin 16)
  /-- FLT (R240). -/
  | flt (tile : Fin 512) (g : Issue) (dst a b : Fin 16)
  /-- FEQ (R240). -/
  | feq (tile : Fin 512) (g : Issue) (dst a b : Fin 16)
  /-- ILT (R240). -/
  | ilt (tile : Fin 512) (g : Issue) (dst a b : Fin 16)
  /-- SEL (R240). -/
  | sel (tile : Fin 512) (g : Issue) (dst a b : Fin 16)
  /-- BCAST (R240). -/
  | bcast (tile : Fin 512) (g : Issue) (dst : Fin 16) (a : Fin 32)
  /-- EXTR (R240). -/
  | extr (tile : Fin 512) (g : Issue) (dst : Fin 32) (a : Fin 16) (b : Fin 32)
  /-- INSR (R240). -/
  | insr (tile : Fin 512) (g : Issue) (dst : Fin 16) (a b : Fin 32)
  /-- LANEID (R240). -/
  | laneid (tile : Fin 512) (g : Issue) (dst : Fin 16)
  /-- VLD32 (R241). -/
  | vld32 (tile : Fin 512) (g : Issue) (vx : Fin 16) (xa : Fin 16) (c : Fin 32) (hits : List EccHit)
  /-- VLD16 (R241). -/
  | vld16 (tile : Fin 512) (g : Issue) (vx : Fin 16) (xa : Fin 16) (c : Fin 32) (hits : List EccHit)
  /-- VLDU8 (R241). -/
  | vldu8 (tile : Fin 512) (g : Issue) (vx : Fin 16) (xa : Fin 16) (c : Fin 32) (hits : List EccHit)
  /-- VLDBC (R241). -/
  | vldbc (tile : Fin 512) (g : Issue) (vx : Fin 16) (xa : Fin 16) (c : Fin 32) (hits : List EccHit)
  /-- VST32 (R241). -/
  | vst32 (tile : Fin 512) (g : Issue) (vx : Fin 16) (xa : Fin 16) (c : Fin 32)
  /-- VST16 (R241). -/
  | vst16 (tile : Fin 512) (g : Issue) (vx : Fin 16) (xa : Fin 16) (c : Fin 32)
  /-- VSTU8 (R241). -/
  | vstu8 (tile : Fin 512) (g : Issue) (vx : Fin 16) (xa : Fin 16) (c : Fin 32)
  /-- VTAB (R241). -/
  | vtab (tile : Fin 512) (g : Issue) (vx xa vb : Fin 16) (hits : List EccHit)
  /-- GATHER (R242). -/
  | gather (tile : Fin 512) (g : Issue) (xd xa xb : Fin 16) (c : Fin 32) (hits : List EccHit)
  /-- GATHER_CSR (R244). -/
  | gatherCsr (tile : Fin 512) (g : Issue) (xd xa xb : Fin 16) (c : Fin 32) (hits : List EccHit)
  /-- SCATTER (R242). -/
  | scatter (tile : Fin 512) (g : Issue) (xd xa xb : Fin 16) (c : Fin 32) (hits : List EccHit)
  /-- SCATTER_ACC (R246). -/
  | scatterAcc (tile : Fin 512) (g : Issue) (xd xa xb : Fin 16) (c : Fin 32) (hits : List EccHit)
  /-- SOPEN_IN (R247). -/
  | sopenIn (tile : Fin 512) (g : Issue) (d : Fin 16)
  /-- SOPEN_OUT (R247): the flits that the destination has granted. -/
  | sopenOut (tile : Fin 512) (g : Issue) (d : Fin 16) (credit : Nat)
  /-- SCLOSE (R250). -/
  | sclose (tile : Fin 512) (g : Issue) (d : Fin 16)
  /-- SPUT (R248). -/
  | sput (tile : Fin 512) (g : Issue) (d : Fin 16) (a b : Fin 32)
  /-- SGET (R249). -/
  | sget (tile : Fin 512) (g : Issue) (d : Fin 16) (a b : Fin 32) (pd : Fin 8)
  /-- SHZN (R250). -/
  | shzn (tile : Fin 512) (g : Issue) (d : Fin 16)
  /-- CWAIT (R251). -/
  | cwait (tile : Fin 512) (g : Issue) (c : Fin 16) (a b : Fin 32)
  /-- CPOST (R251). -/
  | cpost (tile : Fin 512) (g : Issue) (c : Fin 16)
  /-- CADD (R251). -/
  | cadd (tile : Fin 512) (g : Issue) (c : Fin 16) (a : Fin 32)
  /-- CADDS (R251). -/
  | cadds (tile : Fin 512) (g : Issue) (c : Fin 16) (a : Fin 32)
  /-- CFENCE (R251). -/
  | cfence (tile : Fin 512) (g : Issue) (c : Fin 16)
  /-- SETTLE_N (R252). -/
  | settleN (tile : Fin 512) (g : Issue) (a b : Fin 32) (pd : Fin 8)
  /-- SETTLE_W (R252). -/
  | settleW (tile : Fin 512) (g : Issue) (a b : Fin 32) (pd : Fin 8)
  /-- STLO (R253). -/
  | stlo (tile : Fin 512) (g : Issue) (dst : Fin 32)
  /-- STHI (R253). -/
  | sthi (tile : Fin 512) (g : Issue) (dst : Fin 32)
  /-- STJOB (R253). -/
  | stjob (tile : Fin 512) (g : Issue) (dst : Fin 32)
  /-- PSEL (R253). -/
  | psel (tile : Fin 512) (g : Issue) (a : Fin 32)
  /-- PGET (R253). -/
  | pget (tile : Fin 512) (g : Issue) (dst : Fin 32)
  /-- EGET (R253). -/
  | eget (tile : Fin 512) (g : Issue) (dst : Fin 32)
  /-- IKLO (R253). -/
  | iklo (tile : Fin 512) (g : Issue) (dst : Fin 32) (d : Fin 16)
  /-- IKHI (R253). -/
  | ikhi (tile : Fin 512) (g : Issue) (dst : Fin 32) (d : Fin 16)
  /-- IKSEQ (R253). -/
  | ikseq (tile : Fin 512) (g : Issue) (dst : Fin 32) (d : Fin 16)
  /-- ACT (R254). -/
  | act (tile : Fin 512) (g : Issue) (xa : Fin 16)
  /-- LOG (R255). -/
  | log (tile : Fin 512) (g : Issue) (xa : Fin 16) (c : Fin 32)
  /-- PWR_NO_CHANGE (R256). -/
  | pwrNoChange (tile : Fin 512) (g : Issue) (a : Fin 32)
  /-- PWR_IDLE_SOON (R256). -/
  | pwrIdleSoon (tile : Fin 512) (g : Issue) (a : Fin 32)
  /-- PWR_BUSY_SOON (R256). -/
  | pwrBusySoon (tile : Fin 512) (g : Issue) (a : Fin 32)
  /-- BANK_ID (R223). -/
  | bankId (tile : Fin 512) (g : Issue) (dst : Fin 32)
  /-- BANK_OLD (R223). -/
  | bankOld (tile : Fin 512) (g : Issue) (dst : Fin 8)
  /-- RDCYC (R225): tile cycles since job start. -/
  | rdcyc (tile : Fin 512) (g : Issue) (dst : Fin 32) (cycles : Nat)
  /-- RDST (R225). -/
  | rdst (tile : Fin 512) (g : Issue) (dst : Fin 32)
  /-- SPOLL (R225). -/
  | spoll (tile : Fin 512) (g : Issue) (dst : Fin 32) (d : Fin 16)
  /-- SGETNB (R225). -/
  | sgetnb (tile : Fin 512) (g : Issue) (pd : Fin 8) (d : Fin 16) (a b : Fin 32)
  /-- RDSTALL (R225): tile cycles spent blocked since job start. -/
  | rdstall (tile : Fin 512) (g : Issue) (dst : Fin 32) (cycles : Nat)
  /-- BZ_POWER_UP (R551): VS rises above 4.0 V (R551). -/
  | bzPowerUp (chip : Fin 4) (vsMv : Nat) (sensor : Int) (lh0 lh1 : Bool) (t : Time)
  /-- BZ_POWERUP_TIMEOUT (R551). -/
  | bzPowerupTimeout (chip : Fin 4) (t : Time)
  /-- BZ_LOGIC_RESET (R555). -/
  | bzLogicReset (chip : Fin 4) (vsMv : Nat)
  /-- BZ_TIME_FRAME (R457): `station` is the time the frame carries, `errNs` the clock's deviation after it. -/
  | bzTimeFrame (chip : Fin 4) (station errNs : Nat) (t : Time)
  /-- BZ_HEARTBEAT_LOSS (R537). -/
  | bzHeartbeatLoss (chip : Fin 4) (t : Time)
  /-- BZ_HOLD_LAST_END (R539). -/
  | bzHoldLastEnd (chip : Fin 4) (t : Time)
  /-- BZ_LIMP_PIN_CHANGE (R540). -/
  | bzLimpPinChange (chip : Fin 4) (lh0 lh1 : Bool) (stableUs : Nat) (t : Time)
  /-- BZ_LIMP_ENTRY_START (R542). -/
  | bzLimpEntryStart (chip : Fin 4) (out : Fin 12) (t : Time)
  /-- BZ_OVERVOLT (R532). -/
  | bzOvervolt (chip : Fin 4) (vsMv us : Nat) (t : Time)
  /-- BZ_UNDERVOLT (R534). -/
  | bzUndervolt (chip : Fin 4) (vsMv : Nat) (t : Time)
  /-- BZ_CRANK_ENTER (R533). -/
  | bzCrankEnter (chip : Fin 4) (vsMv : Nat) (t : Time)
  /-- BZ_CRANK_END (R533). -/
  | bzCrankEnd (chip : Fin 4) (vsMv us : Nat)
  /-- BZ_CRANK_TIMEOUT (R533). -/
  | bzCrankTimeout (chip : Fin 4) (t : Time)
  /-- BZ_SUPPLY_RECOVER (R534). -/
  | bzSupplyRecover (chip : Fin 4) (vsMv us : Nat) (t : Time)
  /-- VS_SAMPLE (R483). -/
  | vsSample (chip : Fin 4) (vsMv : Nat)
  /-- BZ_TRIP (R545): the pin has held `level` for `ns`. -/
  | bzTrip (chip : Fin 4) (input : Fin 4) (level : Bool) (ns : Nat) (t : Time)
  /-- BZ_TRIP_CLEAR (R546): `pins` are the inputs at their active level at the write. -/
  | bzTripClear (chip : Fin 4) (mask : Nat) (pins : Vector Bool 4) (t : Time)
  /-- BZ_RELEASE (R543). -/
  | bzRelease (chip : Fin 4)
  /-- BZ_ENTER_LIMP (R553). -/
  | bzEnterLimp (chip : Fin 4) (t : Time)
  /-- BZ_REG_READ (R549). -/
  | bzRegRead (chip : Fin 4) (tag off : Nat) (t : Time)
  /-- BZ_REG_WRITE (R549). -/
  | bzRegWrite (chip : Fin 4) (tag off : Nat) (data : Word) (t : Time)
  /-- BZ_STATUS_SAMPLE (R548). -/
  | bzStatusSample (chip : Fin 4) (t : Time)
  /-- BZ_PERIODIC_STATUS (R548). -/
  | bzPeriodicStatus (chip : Fin 4) (t : Time)
  /-- BZ_IDENT_STATUS (R548). -/
  | bzIdentStatus (chip : Fin 4)
  /-- BZ_FRAME_SEND (R548). -/
  | bzFrameSend (chip : Fin 4)
  /-- BZ_LIMP_STORE_DONE (R552). -/
  | bzLimpStoreDone (chip : Fin 4) (ok : Bool)
  /-- BZ_SLIP_PREPARE (R320). -/
  | bzSlipPrepare (chip : Fin 4) (slipId : Nat)
  /-- BZ_LEE_DATA (R458). -/
  | bzLeeData (chip : Fin 4) (chunk id8 : Nat) (bytes : List Byte) (t : Time)
  /-- BZ_SLIP_COMMIT (R323). -/
  | bzSlipCommit (chip : Fin 4) (slipId : Nat) (point : Time)
  /-- BZ_SLIP_ABORT (R325). -/
  | bzSlipAbort (chip : Fin 4) (slipId : Nat)
  /-- BZ_SLIP_POINT (R324). -/
  | bzSlipPoint (chip : Fin 4) (t : Time)
  /-- BZ_RESEAT_SWITCH (R328). -/
  | bzReseatSwitch (chip : Fin 4) (t : Time)
  /-- BZ_HS_EVENT_RECEIVE (R468). -/
  | bzHsEventReceive (chip : Fin 4) (ev : BzEvent) (t : Time)
  /-- BZ_SOL_EVENT_RECEIVE (R501). -/
  | bzSolEventReceive (chip : Fin 4) (ev : BzEvent) (t : Time)
  /-- BZ_REFLEX_RECEIVE (R469). -/
  | bzReflexReceive (chip : Fin 4) (frame : BzReflex) (t : Time)
  /-- BZ_HS_EVENT_FIRE (R469). -/
  | bzHsEventFire (chip : Fin 4) (chan : Fin 12) (t : Time)
  /-- HS_PULSE_END (R467). -/
  | hsPulseEnd (chip : Fin 4) (chan : Fin 12) (t : Time)
  /-- HS_PWM_PERIOD (R472). -/
  | hsPwmPeriod (chip : Fin 4) (chan : Fin 12) (t : Time)
  /-- HS_PWM_OFF_EDGE (R472): `meanMa` is the mean of the last 25 µs of the on-time. -/
  | hsPwmOffEdge (chip : Fin 4) (chan : Fin 12) (meanMa : Nat) (t : Time)
  /-- HS_DC_OL_CHECK (R486). -/
  | hsDcOlCheck (chip : Fin 4) (chan : Fin 12) (meanMa : Nat) (t : Time)
  /-- HS_OVERLOAD (R474): the overload timer stands at `limUs`. -/
  | hsOverload (chip : Fin 4) (chan : Fin 12) (limUs : Nat) (t : Time)
  /-- HS_RETRY_END (R475). -/
  | hsRetryEnd (chip : Fin 4) (chan : Fin 12) (junction : Int) (t : Time)
  /-- HS_RETRY_RESET (R475). -/
  | hsRetryReset (chip : Fin 4) (chan : Fin 12) (t : Time)
  /-- HS_M_WINDOW_END (R476). -/
  | hsMWindowEnd (chip : Fin 4) (chan : Fin 12) (t : Time)
  /-- HS_THERMAL_SHUTDOWN (R477): junction in units of 0.5 °C. -/
  | hsThermalShutdown (chip : Fin 4) (chan : Fin 12) (junction : Int) (t : Time)
  /-- HS_THERMAL_RESTART (R477). -/
  | hsThermalRestart (chip : Fin 4) (chan : Fin 12) (junction : Int) (t : Time)
  /-- HS_FUSE_UPDATE (R478). -/
  | hsFuseUpdate (chip : Fin 4) (chan : Fin 12) (meanMa : Nat) (t : Time)
  /-- HS_COMP_UPDATE (R482). -/
  | hsCompUpdate (chip : Fin 4) (chan : Fin 12)
  /-- HS_CLAMP_END (R485). -/
  | hsClampEnd (chip : Fin 4) (chan : Fin 12) (energyUj : Nat) (t : Time)
  /-- HS_OL_OFF_SOURCE_ON (R488). -/
  | hsOlOffSourceOn (chip : Fin 4) (chan : Fin 12) (outMv : Nat) (t : Time)
  /-- HS_OL_OFF_SAMPLE (R488). -/
  | hsOlOffSample (chip : Fin 4) (chan : Fin 12) (outMv : Nat) (t : Time)
  /-- HS_PAIR_IMBALANCE (R490). -/
  | hsPairImbalance (chip : Fin 4) (chan : Fin 12) (ma0 ma1 us : Nat) (t : Time)
  /-- HS_FLAG_CLEAR (R493). -/
  | hsFlagClear (chip : Fin 4) (chan : Fin 12) (mask : Word) (junction : Int) (t : Time)
  /-- BZ_SOL_EVENT_START (R501). -/
  | bzSolEventStart (chip : Fin 4) (out : Fin 12) (t : Time)
  /-- SOL_PEAK_REACHED (R503): `samples` are the means of R518, one per 0.5 µs, in mA. -/
  | solPeakReached (chip : Fin 4) (out : Fin 12) (samples : List Nat) (t : Time)
  /-- SOL_PEAK_TIMEOUT (R503). -/
  | solPeakTimeout (chip : Fin 4) (out : Fin 12) (maxMa : Nat) (t : Time)
  /-- SOL_DWELL_END (R502). -/
  | solDwellEnd (chip : Fin 4) (out : Fin 12) (t : Time)
  /-- SOL_SOURCE_SWITCH (R502). -/
  | solSourceSwitch (chip : Fin 4) (bank : Fin 3) (t : Time)
  /-- SOL_CHOP_PERIOD (R504). -/
  | solChopPeriod (chip : Fin 4) (out : Fin 12) (valley : Nat) (t : Time)
  /-- SOL_HOLD_END (R502). -/
  | solHoldEnd (chip : Fin 4) (out : Fin 12) (t : Time)
  /-- SOL_DECAY_END (R502). -/
  | solDecayEnd (chip : Fin 4) (out : Fin 12) (currentMa clampUj : Nat) (t : Time)
  /-- SOL_REST_END (R519): `volts` are the samples of R519, one per µs, in mV. -/
  | solRestEnd (chip : Fin 4) (out : Fin 12) (volts : List Int) (t : Time)
  /-- SOL_SHORT (R525). -/
  | solShort (chip : Fin 4) (bank : Fin 3) (out : Option (Fin 12)) (ma : Nat)
  /-- SOL_COIL_UPDATE (R515): mean square currents in mA², logic temperature in °C. -/
  | solCoilUpdate (chip : Fin 4) (meanSq : List Nat) (sensor : Int) (t : Time)
  /-- SOL_PROBE (R523). -/
  | solProbe (chip : Fin 4) (bank : Fin 3)
  /-- SOL_PROBE_DONE (R523). -/
  | solProbeDone (chip : Fin 4) (bank : Fin 3) (mv : Nat) (t : Time)
  /-- BST_MEASURE (R506). -/
  | bstMeasure (chip : Fin 4) (mv : Nat) (t : Time)
  /-- SOL_FLAG_CLEAR (R529). -/
  | solFlagClear (chip : Fin 4) (out : Fin 12) (mask : Word) (probeMv : Nat) (t : Time)
  /-- SOL_RELEARN (R520). -/
  | solRelearn (chip : Fin 4) (mask : Word)
  /-- VDD_KEEP_LOSS (R604). -/
  | vddKeepLoss
  /-- ETH_LINK_CHANGE (R410). -/
  | ethLinkChange (die : Fin 2) (port : Fin 4) (up : Bool)
  /-- PTP_ANNOUNCE_RECEIVE (R405): the data set the best master clock algorithm compares. -/
  | ptpAnnounceReceive (master : List Nat) (t : Time)
  /-- PTP_DELAY_RESPONSE (R405). -/
  | ptpDelayResponse (delay : Int)
  /-- PTP_MASTER_SYNC_SEND (R405). -/
  | ptpMasterSyncSend (die : Fin 2) (port : Fin 4) (t : Time)
  /-- BZ_DFL_FRAME_DISCARD (R454). -/
  | bzDflFrameDiscard (chip : Fin 4)
  /-- SOL_CHOP_OFF (R504). -/
  | solChopOff (chip : Fin 4) (out : Fin 12) (peakCounts currentMa onNs : Nat)
  deriving DecidableEq, Repr

end Sys2Proof
end

