-- ==== Sys2Proof/Machine/Float.lean ====
section
/-! DEFINITION. Exact number formats and their one rounding: binary32, F16, T13, the chord tree (03 R76 to R79; 05 R141, R142; 06 R149 to R173). -/

namespace Sys2Proof.Machine

/-- A decoded float: the value of `fin` is `m` times `2 ^ e`, negated when `neg`. -/
inductive FVal where
  | nan
  | inf (neg : Bool)
  | fin (neg : Bool) (m : Nat) (e : Int)
  deriving DecidableEq, Repr

/-- A binary format: precision `p`, the exponent of its smallest subnormal, the code of +infinity, its width, its canonical NaN. -/
structure FFmt where
  p : Nat
  emin : Int
  infCode : Nat
  width : Nat
  nanCode : Nat
  deriving DecidableEq, Repr

/-- IEEE binary32 with its canonical NaN (R152). -/
def f32 : FFmt := { p := 24, emin := -149, infCode := 0x7F800000, width := 32, nanCode := 0x7FC00000 }

/-- IEEE binary16 with its canonical NaN (R152, R160). -/
def f16 : FFmt := { p := 11, emin := -24, infCode := 0x7C00, width := 16, nanCode := 0x7E00 }

/-- The value of a code. -/
def FFmt.decode (f : FFmt) (code : Nat) : FVal :=
  let neg := code.testBit (f.width - 1)
  let mag := code % 2 ^ (f.width - 1)
  if mag > f.infCode then .nan
  else if mag = f.infCode then .inf neg
  else
    let e := mag / 2 ^ (f.p - 1)
    let m := mag % 2 ^ (f.p - 1)
    if e = 0 then .fin neg m f.emin else .fin neg (2 ^ (f.p - 1) + m) (f.emin + e - 1)

/-- `m / 2^k` to the nearest integer, ties to even. -/
def shrEven (m k : Nat) : Nat :=
  let q := m >>> k
  let r := m % 2 ^ k
  if 2 * r > 2 ^ k ∨ (2 * r = 2 ^ k ∧ q % 2 = 1) then q + 1 else q

/-- The magnitude code of `m * 2^e` rounded to nearest, ties to even; it may lie at or above `infCode` (overflow). -/
def FFmt.magCode (f : FFmt) (m : Nat) (e : Int) : Nat :=
  if m = 0 then 0 else
    let len : Int := (Nat.log2 m + 1 : Nat)
    let q := max (e + len - f.p) f.emin
    let m' := if q ≤ e then m <<< (e - q).toNat else shrEven m (q - e).toNat
    (q - f.emin).toNat * 2 ^ (f.p - 1) + m'

/-- The sign bit of a code. -/
def FFmt.sign (f : FFmt) (neg : Bool) : Nat := if neg then 2 ^ (f.width - 1) else 0

/-- A value as a code, with one rounding to nearest, ties to even; subnormals are kept (R141). -/
def FFmt.encode (f : FFmt) : FVal → Nat
  | .nan => f.nanCode
  | .inf neg => f.sign neg + f.infCode
  | .fin neg m e => f.sign neg + min f.infCode (f.magCode m e)

/-- A signed integer times `2 ^ e`; a zero takes the sign given. -/
def finOf (zneg : Bool) (v : Int) (e : Int) : FVal :=
  if v = 0 then .fin zneg 0 e else .fin (decide (v < 0)) v.natAbs e

/-- The signed significand of a finite value at exponent `e'`, which must not lie above its own. -/
def alignTo (neg : Bool) (m : Nat) (e e' : Int) : Int :=
  let v : Int := (m <<< (e - e').toNat : Nat)
  if neg then -v else v

/-- Exact sum (R162). -/
def FVal.add : FVal → FVal → FVal
  | .nan, _ => .nan
  | _, .nan => .nan
  | .inf a, .inf b => if a = b then .inf a else .nan
  | .inf a, _ => .inf a
  | _, .inf b => .inf b
  | .fin a m e, .fin b n g =>
    let k := min e g
    finOf (a && b) (alignTo a m e k + alignTo b n g k) k

/-- Exact product (R162). -/
def FVal.mul : FVal → FVal → FVal
  | .nan, _ => .nan
  | _, .nan => .nan
  | .inf a, .inf b => .inf (a != b)
  | .inf a, .fin b n _ => if n = 0 then .nan else .inf (a != b)
  | .fin a m _, .inf b => if m = 0 then .nan else .inf (a != b)
  | .fin a m e, .fin b n g => .fin (a != b) (m * n) (e + g)

/-- Negation. -/
def FVal.neg : FVal → FVal
  | .nan => .nan
  | .inf a => .inf (!a)
  | .fin a m e => .fin (!a) m e

/-- Exact comparison of two finite or infinite values: -1, 0 or 1; `none` with a NaN. -/
def FVal.cmp : FVal → FVal → Option Int
  | .nan, _ => none
  | _, .nan => none
  | .inf a, .inf b => some (if a = b then 0 else if a then -1 else 1)
  | .inf a, _ => some (if a then -1 else 1)
  | _, .inf b => some (if b then 1 else -1)
  | .fin a m e, .fin b n g =>
    let k := min e g
    some (Int.sign (alignTo a m e k - alignTo b n g k))

/-- The value of a binary32 word. -/
def v32 (w : Word) : FVal := f32.decode w.toNat

/-- A value rounded to a binary32 word. -/
def w32 (v : FVal) : Word := BitVec.ofNat 32 (f32.encode v)

/-- binary32 operations, each rounded once (R141). -/
def fadd32 (a b : Word) : Word := w32 ((v32 a).add (v32 b))
def fsub32 (a b : Word) : Word := w32 ((v32 a).add (v32 b).neg)
def fmul32 (a b : Word) : Word := w32 ((v32 a).mul (v32 b))
def ffma32 (a b c : Word) : Word := w32 (((v32 a).mul (v32 b)).add (v32 c))

/-- Whether a binary32 word is a NaN. -/
def isNan32 (w : Word) : Bool := v32 w = .nan

/-- The canonical binary32 NaN. -/
def nan32 : Word := 0x7FC00000

/-- Lane minimum and maximum; a NaN in either operand gives the canonical NaN (R240). -/
def fmin32 (a b : Word) : Word :=
  match (v32 a).cmp (v32 b) with
  | none => nan32
  | some c => if c < 0 then a else if c > 0 then b else if a.getLsbD 31 then a else b
def fmax32 (a b : Word) : Word :=
  match (v32 a).cmp (v32 b) with
  | none => nan32
  | some c => if c > 0 then a else if c < 0 then b else if a.getLsbD 31 then b else a

/-- F16 to binary32, exactly (R240). -/
def f16to32 (h : Nat) : Word := w32 (f16.decode (h % 0x10000))

/-- binary32 to F16 with ties to even; overflow gives infinity (R240). -/
def f32to16 (w : Word) : Nat := f16.encode (v32 w)

/-- int32 to binary32, ties to even. -/
def i32toF (w : Word) : Word := w32 (finOf false w.toInt 0)

/-- The nearest integer, ties to even, of a finite value. -/
def roundInt (neg : Bool) (m : Nat) (e : Int) : Int :=
  let r : Int := if e ≥ 0 then (m <<< e.toNat : Nat) else (shrEven m (-e).toNat : Nat)
  if neg then -r else r

/-- Clamp to the int32 range. -/
def sat32 (v : Int) : Int := max (-2147483648) (min 2147483647 v)

/-- binary32 to int32, ties to even, saturating; NaN gives 0 (R240). -/
def fToI32 (w : Word) : Int :=
  match v32 w with
  | .nan => 0
  | .inf neg => if neg then -2147483648 else 2147483647
  | .fin neg m e => sat32 (roundInt neg m e)

/-- The value of a T13 code (R150). -/
def t13Val (c : Nat) : FVal :=
  let neg := c.testBit 12
  let e := bitsOf c 11 7
  let f := bitsOf c 6 0
  if e = 31 then .nan else if e = 0 then .fin neg f (-21) else .fin neg (128 + f) ((e : Int) - 22)

/-- A T13 code as stored: an invalid code becomes the NaN code 0x0FC0 (R151). -/
def t13Store (c : Nat) : Nat := if bitsOf c 11 7 = 31 then 0x0FC0 else c % 0x2000

/-- Magnitudes of the standard G4 codebook as T13 codes (R154). -/
def g4Mag : List Nat := [0x0000, 0x05A0, 0x0628, 0x0684, 0x06BC, 0x0700, 0x0730, 0x0780]

/-- 256 times the magnitudes of the standard G6 codebook (R155). -/
def g6K : List Nat :=
  [0, 4, 8, 12, 16, 21, 25, 30, 34, 39, 44, 50, 56, 62, 68, 75] ++
  [82, 90, 98, 106, 115, 125, 135, 146, 157, 169, 182, 195, 209, 224, 240, 256]

/-- Storage formats (R149): 0 G4, 1 G6, 2 U8, 3 F16, 4 binary32. -/
def fmtBits : Nat → Nat
  | 0 => 4
  | 1 => 6
  | 2 => 8
  | 3 => 16
  | _ => 32

/-- Value `k` of a packed tensor that starts at byte 0 of `bs` (R149). -/
def unpackAt (fmt : Nat) (bs : List Byte) (k : Nat) : Nat :=
  match fmt with
  | 0 => bitsOf (byteAt bs (k / 2)) (4 * (k % 2) + 3) (4 * (k % 2))
  | 1 => bitsOf (leAt bs (3 * (k / 4)) 3) (6 * (k % 4) + 5) (6 * (k % 4))
  | 2 => byteAt bs k
  | 3 => leAt bs (2 * k) 2
  | _ => leAt bs (4 * k) 4

/-- Values packed into bytes (R149); a count of values that fills whole bytes. -/
def packVals (fmt : Nat) (vs : List Nat) : List Byte :=
  let total := vs.foldr (fun v acc => v % 2 ^ fmtBits fmt + 2 ^ fmtBits fmt * acc) 0
  leBytes ((vs.length * fmtBits fmt + 7) / 8) total

/-- The value of a code of the standard codebooks (R153 to R155). -/
def stdVal (fmt code : Nat) : FVal :=
  match fmt with
  | 0 =>
    let neg := code.testBit 3
    let i := code % 8
    if neg ∧ i = 0 then .nan else
      match t13Val (nth 0 g4Mag i) with
      | .fin _ m e => .fin neg m e
      | v => v
  | _ =>
    let neg := code.testBit 5
    let i := code % 32
    if neg ∧ i = 0 then .nan else .fin neg (nth 0 g6K i) (-8)

/-- The number of codes of a bell-grid format. -/
def gridSize (fmt : Nat) : Nat := if fmt = 0 then 16 else 64

/-- A bell-grid code through codebook selector `sel`; `cb` are the T13 entries of the named slot (R157). -/
def gridVal (fmt sel : Nat) (cb : Nat → Nat) (code : Nat) : FVal :=
  if sel = 8 then stdVal fmt code else t13Val (cb (64 * sel + code))

/-- A stored activation or weight code decoded to its exact value (R124, R153, R158 to R161). -/
def operandVal (fmt sel : Nat) (cb : Nat → Nat) (zero : Int) (code : Nat) : FVal :=
  match fmt with
  | 0 => gridVal 0 sel cb code
  | 1 => gridVal 1 sel cb code
  | 2 => finOf false ((code : Int) - zero) 0
  | _ => f16.decode code

/-- A chord sum: the balanced pairwise tree over 16 positions (R76, R123). -/
def pairUp : List Word → List Word
  | a :: b :: rest => fadd32 a b :: pairUp rest
  | l => l

/-- Chord sum of 16 binary32 products. -/
def chordSum (ps : List Word) : Word := (pairUp (pairUp (pairUp (pairUp ps)))).headD 0

/-- A node on the accumulator's stack: first chord, length, value (R128). -/
structure ANode where
  a : Nat
  n : Nat
  s : Word
  deriving DecidableEq, Repr

/-- Whether node `(a, n)` closes a scale group of `g` chords in a reduction of `total` chords (R77, R128). -/
def closesGroup (g total a n : Nat) : Bool :=
  let lg := g * ((total - 1) / g)
  decide (g > 0) && ((decide (n = g) && decide (a % g = 0)) || (decide (a = lg) && decide (a + n = total) && decide (n < g)))

/-- A formed node, with its group scale where it closes a group (R128, R129). -/
def formNode (g total : Nat) (scale : Nat → Word → Word) (a n : Nat) (s : Word) : ANode :=
  { a, n, s := if closesGroup g total a n then scale (a / (max g 1)) s else s }

/-- Merge a formed node into the stack (R128). -/
def mergeTop (g total : Nat) (scale : Nat → Word → Word) : List ANode → ANode → List ANode
  | top :: rest, x =>
    if top.n = x.n then mergeTop g total scale rest (formNode g total scale top.a (2 * x.n) (fadd32 top.s x.s))
    else x :: top :: rest
  | [], x => [x]

/-- Fold the stack from the right (R128). -/
def closeStack (g total : Nat) (scale : Nat → Word → Word) : List ANode → Word
  | [] => 0
  | x :: rest => (rest.foldl (fun y left => formNode g total scale left.a (left.n + y.n) (fadd32 left.s y.s)) x).s

/-- The value of node `(a0, n)` from its chord sums in ascending order (R128). -/
def accumulate (g total : Nat) (scale : Nat → Word → Word) (a0 : Nat) (sums : List Word) : Word :=
  closeStack g total scale
    (sums.foldl (fun (acc : List ANode × Nat) s =>
      (mergeTop g total scale acc.1 (formNode g total scale acc.2 1 s), acc.2 + 1)) (([] : List ANode), a0)).1

/-- The largest power of two below `n` (R76). -/
def splitPow (n : Nat) : Nat := 2 ^ Nat.log2 (n - 1)

/-- Whether `(a, n)` is a node of the chord tree of `total` chords (R76); the depth of the tree bounds the walk. -/
def isNode : Nat → Nat → Nat → Nat → Nat → Bool
  | 0, _, _, _, _ => false
  | fuel + 1, ra, rn, a, n =>
    if ra = a ∧ rn = n then true
    else if rn ≤ 1 then false
    else
      let p := splitPow rn
      if a < ra + p then isNode fuel ra p a n else isNode fuel (ra + p) (rn - p) a n

/-- `(a, n)` is a node of the tree over `total` chords. -/
def isTreeNode (total a n : Nat) : Bool := isNode 64 0 total a n

/-- The parent node of two children in order, where they are siblings (R78, R238). -/
def parentOf (total a1 n1 a2 n2 : Nat) : Option (Nat × Nat) :=
  let n := n1 + n2
  if a2 = a1 + n1 ∧ n1 > 0 ∧ n2 > 0 ∧ n1 = splitPow n ∧ isTreeNode total a1 n then some (a1, n) else none

/-- Positions 0 to 15 of a chord, +0.0 where there is no product. -/
def chordOf (ps : List Word) (c : Nat) : List Word := (ps.drop (16 * c)).take 16 ++ List.replicate (16 - min 16 (ps.length - 16 * c)) 0

/-- The chord-tree sum of the 64 lanes of a vector register (R79). -/
def laneSum (ls : List Word) : Word :=
  accumulate 0 4 (fun _ w => w) 0 ((List.range 4).map fun c => chordSum (chordOf ls c))

/-- Lane maximum or minimum with its index; the lowest index of a tie, and of a NaN (R79). -/
def laneBest (greater : Bool) (ls : List Word) : Word × Nat :=
  match ls.findIdx? isNan32 with
  | some i => (nan32, i)
  | none =>
    (ls.zipIdx.drop 1).foldl (fun acc x =>
      match (v32 x.1).cmp (v32 acc.1) with
      | some c => if (greater ∧ c > 0) ∨ (¬greater ∧ c < 0) then (x.1, x.2) else acc
      | none => acc) (ls.headD 0, 0)

/-- A rounding shift of a signed integer (R167). -/
def rshift (p : Int) (n : Nat) : Int := if n = 0 then p else (p + 2 ^ (n - 1)) / 2 ^ n

/-- The integer value of an integral binary32 word, saturated to int32 (R168). -/
def intOf32 (w : Word) : Int := fToI32 w

/-- The group step of INTEGER mode (R168). -/
def intGroup (m : Int) (n : Nat) (s : Word) : Word := w32 (finOf false (rshift (intOf32 s * m) n) 0)

/-- Whether `a` is nearer to `v` than `b`, exactly; both finite or infinite distances of finite grid points to `v`. -/
def distLt (v a b : FVal) : Option Int :=
  let d (x : FVal) : FVal := match v.add x.neg with
    | .fin _ m e => .fin false m e
    | .inf _ => .inf false
    | .nan => .nan
  (d a).cmp (d b)

/-- Magnitude of a value. -/
def FVal.abs : FVal → FVal
  | .nan => .nan
  | .inf _ => .inf false
  | .fin _ m e => .fin false m e

/-- The better of two grid codes for a finite `v`: nearer; then smaller magnitude; then lower code (R173). -/
def gridBetter (v : FVal) (x y : Nat × FVal) : Nat × FVal :=
  match distLt v y.2 x.2 with
  | some c =>
    if c < 0 then y
    else if c > 0 then x
    else match (y.2.abs).cmp x.2.abs with
      | some m => if m < 0 then y else x
      | none => x
  | none => x

/-- The grid entries that are not NaN, in code order. -/
def gridEntries (fmt sel : Nat) (cb : Nat → Nat) : List (Nat × FVal) :=
  ((List.range (gridSize fmt)).map fun c => (c, gridVal fmt sel cb c)).filter fun x => decide (x.2 ≠ .nan)

/-- The largest (or smallest) entry by value, lowest code on a tie. -/
def gridEdge (top : Bool) (es : List (Nat × FVal)) : Option (Nat × FVal) :=
  match es with
  | [] => none
  | e :: rest => some (rest.foldl (fun a b =>
      match b.2.cmp a.2 with
      | some c => if (top ∧ c > 0) ∨ (¬top ∧ c < 0) then b else a
      | none => a) e)

/-- Nearest entry to a finite value; 0 in a codebook of NaNs only. -/
def gridNearest (es : List (Nat × FVal)) (v : FVal) : Nat :=
  match es with
  | [] => 0
  | e :: rest => (rest.foldl (gridBetter v) e).1

/-- Quantise to G4 or G6 (R173): the code and whether it is an edge saturation. -/
def quantGrid (fmt sel : Nat) (cb : Nat → Nat) (v : FVal) : Nat × Bool :=
  let es := gridEntries fmt sel cb
  match v with
  | .nan =>
    match (List.range (gridSize fmt)).find? fun c => decide (gridVal fmt sel cb c = .nan) with
    | some c => (c, false)
    | none => (gridNearest es (.fin false 0 0), true)
  | .inf neg =>
    match gridEdge (!neg) es with
    | some e => (e.1, true)
    | none => (0, true)
  | .fin _ _ _ =>
    let above : Bool := match gridEdge true es with | some e => decide (v.cmp e.2 = some 1) | none => true
    let below : Bool := match gridEdge false es with | some e => decide (v.cmp e.2 = some (-1)) | none => true
    (gridNearest es v, above || below)

/-- Clamp to 0 … 255 with the saturation (R169, R173). -/
def clampU8 (o : Int) : Nat × Bool := if o < 0 then (0, true) else if o > 255 then (255, true) else (o.toNat, false)

/-- Quantise a binary32 value to an output format in FLOAT or FOLDED mode (R173). -/
def quantise (fmt sel : Nat) (cb : Nat → Nat) (zo : Nat) (w : Word) : Nat × Bool :=
  match fmt with
  | 0 => quantGrid 0 sel cb (v32 w)
  | 1 => quantGrid 1 sel cb (v32 w)
  | 2 =>
    match v32 w with
    | .nan => (zo, true)
    | .inf neg => if neg then (0, true) else (255, true)
    | .fin neg m e => clampU8 (roundInt neg m e + zo)
  | 3 =>
    match v32 w with
    | .nan => (0x7E00, false)
    | .inf neg => (f16.sign neg + 0x7BFF, true)
    | .fin neg m e =>
      let c := f16.magCode m e
      if c ≥ f16.infCode then (f16.sign neg + 0x7BFF, true) else (f16.sign neg + c, false)
  | _ => (w.toNat, false)

/-- The channel step of INTEGER mode with its clamp (R169). -/
def intChannel (bias m : Int) (n zo : Nat) (a : Word) : Nat × Bool :=
  clampU8 (rshift (sat32 (intOf32 a + bias) * m) n + zo)

/-- The function table of R142: breakpoints b1 to b63, then 64 pairs (c0, c1). -/
def tableEval (tab : List Word) (x : Word) : Word :=
  if isNan32 x then nan32 else
    let s := ((tab.take 63).filter fun b => match (v32 b).cmp (v32 x) with | some c => decide (c ≤ 0) | none => false).length
    ffma32 (nth 0 tab (64 + 2 * s + 1)) x (nth 0 tab (64 + 2 * s))

end Sys2Proof.Machine
end

