-- ==== Sys2Proof/Machine/Cairn.lean ====
section
/-! DEFINITION. The cairn apply unit (10 R257 to R279): bindings, positions, frontiers, apply order, waits and settles (log 24). -/

namespace Sys2Proof.Machine

/-- What an apply-unit step asks of the rest of the device. -/
structure ApplyOut where
  unit : ApplyUnit
  /-- Replies: tile, key of the wait, result, decision (R273, R274). -/
  replies : List (Nat × Key × Nat × Bool) := []
  /-- Jobs to stop: job, reason of R570, key, cairn number. -/
  stops : List (JobId × Nat × Key × Nat) := []
  /-- Events of ERG_CAIRN_STS bits. -/
  flags : List Nat := []
  deriving DecidableEq, Repr

/-- The smallest key of a job (R263), and the smallest key above all its keys. -/
def firstKey (id : JobId) : Nat := id.stamp.toNat * 2 ^ 32 + id.job * 2 ^ 28
def lastKey (id : JobId) : Nat := id.stamp.toNat * 2 ^ 32 + (id.job + 1) * 2 ^ 28

/-- The job, producer and emit count of a key (R68). -/
def keyStamp (k : Key) : Stamp := BitVec.ofNat 64 (k.toNat >>> 32)
def keyJob (k : Key) : Nat := bitsOf k.toNat 31 28
def keyProd (k : Key) : Nat := bitsOf k.toNat 27 16
def keyEmit (k : Key) : Nat := bitsOf k.toNat 15 0
def keyId (k : Key) : JobId := { stamp := keyStamp k, job := keyJob k }

/-- An order key from its parts (R68). -/
def mkKey (id : JobId) (prod emit : Nat) : Key :=
  BitVec.ofNat 96 (id.stamp.toNat * 2 ^ 32 + id.job * 2 ^ 28 + prod * 2 ^ 16 + emit)

/-- A position (FLOOR, LATE, KEY) as one number in lexicographic order (R271). -/
def mkPos (floor : Nat) (late : Bool) (key : Nat) : Nat := (floor * 2 + b2n late) * 2 ^ 96 + key

/-- A position beyond every position. -/
def posTop : Nat := 2 ^ 260

/-- The floor of a producer. -/
def Binding.floor (b : Binding) (p : Nat) : Nat := mget (fun _ => 0) b.floors p

/-- The position at which a key of producer `p` stands (R271). -/
def Binding.position (b : Binding) (p key : Nat) : Nat :=
  mkPos (max key (b.floor p)) (decide (b.floor p > key)) key

/-- The horizon of a producer: the first key of the job until something moves it (R263). -/
def Binding.horizon (b : Binding) (p : Nat) : Nat :=
  match b.horizons.find? fun x => x.1 = p with
  | some x => x.2
  | none => mkPos (firstKey b.id) false (firstKey b.id)

/-- Set a producer's horizon. -/
def Binding.setHorizon (b : Binding) (p pos : Nat) : Binding :=
  { b with horizons := (p, pos) :: b.horizons.filter fun x => decide (x.1 ≠ p) }

/-- Whether a wait or settle of producer `p` is pending (R272). -/
def Binding.waits (b : Binding) (p : Nat) : Bool :=
  (b.watching ++ b.ops.filter fun o => decide (o.opc ≥ 4)).any fun o => decide (keyProd o.key = p)

/-- The frontier of producer `p` (R271, R272). -/
def Binding.frontier (b : Binding) (p : Nat) : Nat :=
  if b.waits p then posTop
  else match b.ops.find? fun o => decide (keyProd o.key = p) with
    | some o => o.pos
    | none => b.horizon p

/-- The producers of a binding. -/
def Binding.prods (b : Binding) : List Nat := (List.range 4096).filter fun p => b.sources.testBit p

/-- Whether every frontier but that of `p` lies above `pos`. -/
def Binding.passed (b : Binding) (p pos : Nat) : Bool :=
  b.prods.all fun q => decide (q = p) || decide (b.frontier q > pos)

/-- Whether cairn `c` of the module lies in the binding's ranges. -/
def Binding.owns (b : Binding) (c : Nat) : Bool := b.ranges.any fun r => decide (r.1 ≤ c ∧ c < r.1 + r.2)

/-- The cairn word of a number; only its index within the die counts (R257). -/
def ApplyUnit.word (u : ApplyUnit) (c : Nat) : Cairn := mget (fun _ => {}) u.table (c % 65536)

/-- Write a cairn word. -/
def ApplyUnit.setWord (u : ApplyUnit) (c : Nat) (w : Cairn) : ApplyUnit :=
  { u with table := mset (fun _ => {}) u.table (c % 65536) w }

/-- Every cairn number of a binding's ranges. -/
def Binding.cairns (b : Binding) : List Nat := b.ranges.flatMap fun r => (List.range r.2).map (· + r.1)

/-- Free the cairns of a binding, keeping their final values (R264). -/
def ApplyUnit.freeCairns (u : ApplyUnit) (b : Binding) : ApplyUnit :=
  b.cairns.foldl (fun u c => u.setWord c { u.word c with state := .free, bind := 0 }) u

/-- Drop a job's binding (R264). -/
def ApplyUnit.drop (u : ApplyUnit) (id : JobId) : ApplyUnit :=
  let u := (u.binds.filter fun b => decide (b.id = id)).foldl ApplyUnit.freeCairns u
  { u with
    binds := u.binds.filter fun b => decide (b.id ≠ id)
    waiting := u.waiting.filter fun b => decide (b.id ≠ id)
    early := u.early.filter fun o => decide (keyId o.key ≠ id)
    earlyClose := u.earlyClose.filter fun x => decide (x.1 ≠ id) }

/-- The lowest free entry of the binding table. -/
def ApplyUnit.freeIdx (u : ApplyUnit) : Nat :=
  ((List.range 256).find? fun i => u.binds.all fun b => decide (b.idx ≠ i)).getD 0

/-- Whether the unit has room and no owner for a binding. -/
def ApplyUnit.fits (u : ApplyUnit) (b : Binding) : Bool :=
  decide (u.binds.length < 256) && u.binds.all fun o => o.cairns.all fun c => !b.owns c

/-- Let a binding take effect (R263): its cairns are bound at zero. -/
def ApplyUnit.bind (u : ApplyUnit) (b : Binding) : ApplyUnit :=
  let i := u.freeIdx
  let u := b.cairns.foldl (fun u c => u.setWord c { state := .bound, bind := i }) u
  { u with binds := u.binds ++ [{ b with idx := i }], peak := max u.peak (u.binds.length + 1) }

/-- The operations and waits of a unit that are pending on a cairn word that becomes poisoned. -/
def ApplyUnit.pendingOn (u : ApplyUnit) (c : Nat) : List Binding :=
  u.binds.filter fun b => (b.watching ++ b.ops).any fun o => decide (o.cairn % 65536 = c % 65536)

/-- Replace the binding of a job. -/
def ApplyUnit.setBind (u : ApplyUnit) (b : Binding) : ApplyUnit :=
  { u with binds := mapIf (fun x => decide (x.id = b.id)) (fun _ => b) u.binds }

/-- Check an operation against its binding and hold it at its position (R267, R271). -/
def ApplyUnit.admitOp (u : ApplyUnit) (b : Binding) (o : COp) : ApplyOut :=
  let p := keyProd o.key
  if !b.owns o.cairn then { unit := u, stops := [(b.id, 0x09, o.key, o.cairn)], flags := [2] }
  else if !b.sources.testBit p then { unit := u, stops := [(b.id, 0x0A, o.key, o.cairn)], flags := [3] }
  else if (u.word o.cairn).state = .poisoned then { unit := u, stops := [(b.id, 0x0B, o.key, o.cairn)] }
  else if o.opc = 3 then { unit := u.setBind (b.setHorizon p (b.position p o.key.toNat)) }
  else
    match (b.ops ++ b.watching).find? fun x => decide (x.key = o.key) with
    | some _ => { unit := u, stops := [(b.id, 0x02, o.key, 0)] }
    | none =>
      let o := { o with pos := b.position p o.key.toNat }
      { unit := u.setBind { b with ops := insertBy COp.pos o b.ops } }

/-- An operation arrives at the apply unit (R267, R269): it waits for its binding, or is checked against it. -/
def ApplyUnit.arrive (u : ApplyUnit) (o : COp) : ApplyOut :=
  match u.binds.find? fun b => decide (b.id = keyId o.key) with
  | some b => u.admitOp b o
  | none => { unit := { u with early := u.early ++ [o] } }

/-- The frontiers of a tile's producers move beyond the job (R269). -/
def ApplyUnit.closeProds (u : ApplyUnit) (b : Binding) (prods : List Nat) : ApplyUnit :=
  u.setBind (prods.foldl (fun b p => b.setHorizon p posTop) b)

/-- A CLOSE message (R269); one that comes before its binding waits for it. -/
def ApplyUnit.close (u : ApplyUnit) (id : JobId) (prods : List Nat) : ApplyUnit :=
  match u.binds.find? fun b => decide (b.id = id) with
  | none => { u with earlyClose := u.earlyClose ++ [(id, prods)] }
  | some b => u.closeProds b prods

/-- The early operations of a job, checked once its binding stands. -/
def ApplyUnit.takeEarly (u : ApplyUnit) (id : JobId) : ApplyOut :=
  let mine := u.early.filter fun o => decide (keyId o.key = id)
  let u := { u with early := u.early.filter fun o => decide (keyId o.key ≠ id) }
  let closes := u.earlyClose.filter fun x => decide (x.1 = id)
  let u := { u with earlyClose := u.earlyClose.filter fun x => decide (x.1 ≠ id) }
  let r := mine.foldl (fun (r : ApplyOut) o =>
    let n := r.unit.arrive o
    { n with stops := r.stops ++ n.stops, flags := r.flags ++ n.flags }) { unit := u }
  { r with unit := closes.foldl (fun u x => u.close x.1 x.2) r.unit }

/-- Let waiting bindings take effect in their order of arrival where they fit (R265). -/
def ApplyUnit.wakeWaiting (u : ApplyUnit) : ApplyOut :=
  u.waiting.foldl (fun (r : ApplyOut) b =>
    if r.unit.fits b then
      let v := { r.unit with waiting := r.unit.waiting.filter fun x => decide (x.id ≠ b.id) }
      let n := (v.bind b).takeEarly b.id
      { n with stops := r.stops ++ n.stops, flags := r.flags ++ n.flags }
    else r) { unit := u }

/-- The not-admitted owners that an admitted binding reclaims (R265): owners of its cairns, and with a full table the largest OWNER. -/
def ApplyUnit.reclaimed (u : ApplyUnit) (b : Binding) : List Binding :=
  let held := u.binds.filter fun o => !o.admitted && o.cairns.any fun c => b.owns c
  if held = [] ∧ u.binds.length ≥ 256 then
    match (sortBy (fun o : Binding => firstKey o.id) (u.binds.filter fun o => !o.admitted)).getLast? with
    | some o => [o]
    | none => []
  else held

/-- A binding message arrives (R263, R265). -/
def ApplyUnit.bindMsg (u : ApplyUnit) (b : Binding) : ApplyOut :=
  if u.fits b then (u.bind b).takeEarly b.id
  else if b.admitted ∧ u.reclaimed b ≠ [] then
    let gone := u.reclaimed b
    let stops := gone.map fun o => (o.id, 0x0C, mkKey { o.id with job := 0 } 0 0, (o.cairns.find? fun c => b.owns c).getD 0)
    let v := gone.foldl (fun u o => u.drop o.id) u
    if v.fits b then { (v.bind b).takeEarly b.id with stops := stops, flags := gone.map fun _ => 4 }
    else { unit := { v with waiting := v.waiting ++ [b] }, stops := stops, flags := 7 :: gone.map fun _ => 4 }
  else { unit := { u with waiting := u.waiting ++ [b] }, flags := [7] }

/-- The horizon after an applied operation with key `k` of producer `p` (R271). -/
def Binding.afterApplied (b : Binding) (p k : Nat) : Binding := b.setHorizon p (b.position p (k + 1))

/-- A satisfied wait: its producer's floor and frontier, and its reply (R271 to R274). -/
def Binding.satisfy (b : Binding) (w q : COp) : Binding :=
  let p := keyProd w.key
  let b := { b with watching := b.watching.filter fun x => decide (x.key ≠ w.key) }
  if q.key.toNat > w.key.toNat then
    let b := { b with floors := mset (fun _ => 0) b.floors p q.key.toNat }
    b.setHorizon p (mkPos q.key.toNat true (w.key.toNat + 1))
  else b.afterApplied p w.key.toNat

/-- Whether a watched wait or settle is satisfied by cairn word `c` (R273, R274). -/
def COp.met (o : COp) (c : Cairn) : Bool :=
  if o.opc = 4 then decide (c.count ≥ o.operand) else decide (c.ops ≥ o.contrib)

/-- The decision a settle returns (R274). -/
def COp.decision (o : COp) (count : Nat) : Bool := decide (o.opc = 5) && o.rerun && decide (count > o.threshold)

/-- The cairn word after a count-changing operation, with the flag event it raises (R269, R278). -/
def COp.change (o : COp) (c : Cairn) : Cairn × List Nat :=
  let sum := c.count + o.operand
  let ops := min 1023 (c.ops + 1)
  let st := if o.bad then CState.poisoned else c.state
  if o.opc = 1 then
    if sum > 0xFFFFFFFF then ({ c with count := sum % 2 ^ 32, ops, wrapped := true, state := st }, [5])
    else ({ c with count := sum, ops, state := st }, [])
  else
    if sum > 0xFFFFFFFF then ({ c with count := 0xFFFFFFFF, ops, saturated := true, state := st }, [6])
    else ({ c with count := sum, ops, state := st }, [])

/-- Watched waits of cairn `o.cairn` that the operation `o` has satisfied (R273, R274). -/
def Binding.fire (b : Binding) (o : COp) (c : Cairn) : Binding × List (Nat × Key × Nat × Bool) :=
  (b.watching.filter fun w => decide (w.cairn = o.cairn) && w.met c).foldl
    (fun r w => (r.1.satisfy w o, r.2 ++ [(w.tile, w.key, c.count, w.decision c.count)])) (b, [])

/-- Apply the operation at the smallest position of a binding once every other frontier passes it (R271).
A poisoned operand poisons the word, and a job with anything pending on it stops (R279, R575). -/
def ApplyUnit.applyNext (u : ApplyUnit) (id : JobId) : ApplyOut :=
  match u.binds.find? fun b => decide (b.id = id) with
  | none => { unit := u }
  | some b =>
    match b.ops with
    | [] => { unit := u }
    | o :: rest =>
      let p := keyProd o.key
      if !b.passed p o.pos then { unit := u } else
      let c := u.word o.cairn
      let u := { u with opsApplied := (u.opsApplied + 1) % 2 ^ 64 }
      let b := { b with ops := rest }
      if o.opc = 4 then
        if c.count ≥ o.operand then
          { unit := u.setBind (b.afterApplied p o.key.toNat), replies := [(o.tile, o.key, c.count, false)] }
        else { unit := u.setBind { b with watching := b.watching ++ [o] } }
      else
        let (c', fl) := o.change c
        let u := u.setWord o.cairn c'
        let b := if o.opc ≥ 5 then { b with watching := b.watching ++ [o] } else b.afterApplied p o.key.toNat
        if o.bad then
          { unit := u.setBind b, flags := fl ++ [1]
            stops := if (b.watching ++ b.ops).any fun x => decide (x.cairn = o.cairn) then [(b.id, 0x0B, o.key, o.cairn)] else [] }
        else
          let (b, rs) := b.fire o c'
          { unit := u.setBind b, replies := rs, flags := fl }

/-- Whether a binding is done (R264): every frontier beyond the job, and no wait pending. -/
def Binding.finished (b : Binding) : Bool :=
  decide (b.ops = []) && decide (b.watching = []) &&
    b.prods.all fun p => decide (b.frontier p ≥ mkPos (lastKey b.id) false 0)

/-- Release finished bindings, and let waiting ones take effect (R264, R265). -/
def ApplyUnit.settleBinds (u : ApplyUnit) : ApplyOut :=
  ((u.binds.filter Binding.finished).foldl (fun u b => u.drop b.id) u).wakeWaiting

/-- The 64-bit image of a cairn word (R259). -/
def Cairn.word (c : Cairn) : Nat :=
  c.count + c.ops * 2 ^ 32 + b2n c.wrapped * 2 ^ 42 + b2n c.saturated * 2 ^ 43 +
  (match c.state with | .free => 0 | .bound => 1 | .poisoned => 2) * 2 ^ 44 + c.bind * 2 ^ 48

end Sys2Proof.Machine
end

