-- ==== Sys2Proof/Machine/Crc.lean ====
section
/-! DEFINITION. The cyclic codes of the spec: CRC-8 (R579), CRC-16 (R454), CRC-32 (R562) and CRC-64 (R314). -/

namespace Sys2Proof.Machine

/-- One bit of a most-significant-first CRC of width `w`. -/
def crcStepMsb (w poly c : Nat) : Nat :=
  if c.testBit (w - 1) then ((c <<< 1) ^^^ poly) % 2 ^ w else (c <<< 1) % 2 ^ w

/-- One bit of a reflected CRC with reversed polynomial. -/
def crcStepLsb (rpoly c : Nat) : Nat := if c % 2 = 1 then (c >>> 1) ^^^ rpoly else c >>> 1

/-- A function applied `n` times. -/
def iter {α : Type} (f : α → α) : Nat → α → α
  | 0, x => x
  | n + 1, x => iter f n (f x)

/-- A most-significant-first CRC over bytes. -/
def crcMsb (w poly init : Nat) (bs : List Byte) : Nat :=
  bs.foldl (fun c b => iter (crcStepMsb w poly) 8 (c ^^^ (b.toNat <<< (w - 8)))) init

/-- A reflected CRC over bytes. -/
def crcLsb (rpoly init : Nat) (bs : List Byte) : Nat :=
  bs.foldl (fun c b => iter (crcStepLsb rpoly) 8 (c ^^^ b.toNat)) init

/-- The sideband CHECK code (R579): polynomial 0x07, initial value 0. -/
def crc8 (bs : List Byte) : Nat := crcMsb 8 0x07 0 bs

/-- The CRC of a DFL frame (R454): polynomial 0x1021, initial value 0xFFFF, no reflection, no final XOR. -/
def crc16 (bs : List Byte) : Nat := crcMsb 16 0x1021 0xFFFF bs

/-- CRC-32 of IEEE 802.3 (R562). -/
def crc32 (bs : List Byte) : Nat := crcLsb 0xEDB88320 0xFFFFFFFF bs ^^^ 0xFFFFFFFF

/-- The bank checksum (R314): ECMA-182 polynomial, reflected, initial value and final XOR all ones. -/
def crc64 (bs : List Byte) : Nat := crcLsb 0xC96C5795D7870F42 0xFFFFFFFFFFFFFFFF bs ^^^ 0xFFFFFFFFFFFFFFFF

end Sys2Proof.Machine
end

