-- ==== Sys2Proof/Machine/RegMap.lean ====
section
/-! DEFINITION. The register map: what each BAR0 word holds, its reset value, and the type of each of its fields (00 R10 to R16, 15 R383 and the register tables of the owning chapters).
Fields whose write has a row of its own are in no mask. -/

namespace Sys2Proof.Machine

/-- The types of a word's fields (R13): RW, RWL and W1C masks, the reset value, and whether it is the low word of a 64-bit register. -/
structure RegInfo where
  reset : Word := 0
  rw : Word := 0
  rwl : Word := 0
  w1c : Word := 0
  lowOf64 : Bool := false
  deriving DecidableEq, Repr

/-- The base of mesa region `j`, of tile `t`'s block, of erg region `k` (R148, R383). -/
def mesaBase (j : Nat) : Nat := 0x00400000 + 0x00200000 * j
def tileBase (t : Nat) : Nat := 0x00800000 + 0x1000 * t
def ergBase (k : Nat) : Nat := 0x00C00000 + 0x00100000 * k

/-- Offset of the lee view of a register block (R317). -/
def leeView : Nat := 0x00010000

/-- Addresses that the spec gives no place for: the model's own (log 5). -/
def misfitRerunsAddr : Nat := 0x90
def misfitRecordsAddr : Nat := 0x94
def linkAcctAddr (n : Nat) : Nat := 0x100 + 4 * n
def flowStsOff : Nat := 0x220
def looseCtlOff : Nat := 0x00100820

/-- A run of words: whether `off` is a word of `n` words of stride 4 from `base`. -/
def inWords (off base n : Nat) : Bool := decide (base ≤ off ∧ off < base + 4 * n ∧ off % 4 = 0)

/-- Words of the cycle classes (17): word `w`. -/
def classInfo (w : Nat) : RegInfo :=
  match w with
  | 0 => { rwl := 0x007FFFFF, reset := 0x007D0000 }
  | 1 => { rwl := 0x000FFFFF }
  | 2 => { rwl := 0x00FF3FFF }
  | 3 => { rwl := 0x00FFFFFF }
  | 4 => { rwl := 0x0001FFFF, reset := 100000 }
  | 5 => { rwl := 0x000FFFFF, reset := 40000 }
  | 6 => { rwl := 0x0003FF3F }
  | 7 => { rwl := 0x00FFFFFF }
  | 8 => { rwl := 0x000000FF, reset := 0x0F }
  | _ => {}

/-- The words of a mesa region below the ledger, for die `j` (17, 16). -/
def mesaInfo (j off : Nat) : RegInfo :=
  if off = 0 then (if j = 0 then { w1c := 0x1F } else {})
  else if off = 0x40 then { rwl := 0x00FFFFFF }
  else if 0x100 ≤ off ∧ off < 0x500 then classInfo ((off - 0x100) % 0x40 / 4)
  else if off = 0x00040000 then { w1c := 0xFF }
  else if 0x00060000 ≤ off ∧ off < 0x00060400 then
    match (off - 0x00060000) % 0x10 / 4 with
    | 0 => { rwl := 0xFFFF }
    | 1 => { rwl := 0x0003FF3F }
    | 2 => { rwl := 0x00FFFFFF }
    | _ => {}
  else if inWords off 0x00080020 2 then { rwl := 0x1 }
  else if 0x00080100 ≤ off ∧ off < 0x00080140 then
    match (off - 0x00080100) % 0x20 / 4 with
    | 0 => { rw := 0x0FFF0002 }
    | 1 => { rw := 0xFFFFFFFF }
    | 3 => { w1c := 0xE }
    | _ => {}
  else if inWords off 0x00100000 32 then { rwl := 0x00FFFFFF, reset := 0x00801000 }
  else if off = 0x00100800 then { w1c := 0x0FFF }
  else if off = looseCtlOff then { rwl := 0x1F }
  else if 0x00120000 ≤ off ∧ off < 0x00120300 then
    match (off - 0x00120000) % 0x20 / 4 with
    | 0 => { rw := 0x1FFF, reset := 0x540 }
    | 1 => { rw := 0x1FFF1FFF }
    | 2 => { rw := 0x000FFFFF, reset := 0x00010D05 }
    | 3 => { rw := 0x000FFFFF, reset := 40000 }
    | _ => {}
  else if inWords off 0x00120400 8 then { rw := 0xFFFF }
  else if inWords off 0x00120800 2 then { rw := 0xFFFFFFFF }
  else if 0x00140000 ≤ off ∧ off < 0x00140200 then
    match (off - 0x00140000) % 0x40 / 4 with
    | 0 => { rw := 0xFF1F }
    | 1 => { rw := 0x07FFFFFF }
    | 2 => { rw := 0x00FFFFFF }
    | 3 => { rw := 0x03FF, reset := 24 }
    | 4 => { rwl := 0xFFFFFFFF }
    | _ => {}
  else if 0x00160000 ≤ off ∧ off < 0x00161000 then
    let o := (off - 0x00160000) % 0x400
    if o = 0 then { rw := 0x3 }
    else if o = 4 ∨ o = 8 then { rw := 0xFFFFFFFF }
    else if inWords o 0x100 32 then { rwl := 0xFFFFFFFF }
    else if inWords o 0x200 72 then { rw := 0xFFFFFFFF }
    else {}
  else {}

/-- PWR_ words at 0x1000 (R358). -/
def pwrInfo (o : Nat) : RegInfo :=
  if o = 0x000 then { w1c := 0x3F }
  else if o = 0x008 then { rw := 0x3FFFF, reset := 0x3320A }
  else if o = 0x00C then { rw := 0xFFFF, reset := 0x695F }
  else if o = 0x014 then { rw := 0x1F, reset := 8 }
  else if o = 0x080 then { rwl := 0xFFFFFFFF }
  else if 0x100 ≤ o ∧ o < 0x200 then (if o % 8 = 0 then { rwl := 0x3FFF } else { rwl := 0xFFFFFFFF })
  else if 0x480 ≤ o ∧ o < 0x6A0 then
    if o % 8 = 0 then { rwl := 0xFFFF, reset := 0x7814 }
    else if ((o - 0x400) / 8 - 16) % 17 = 16 then {}
    else { rwl := 0x007FF7FF, reset := 0x004E2190 }
  else {}

/-- DW_ words at 0x6000 (R377). -/
def dwInfo (o : Nat) : RegInfo :=
  if o = 0x004 then { w1c := 0xF }
  else if o = 0x010 then { rwl := 0xFFFF1F01, reset := 0x00420000 }
  else if o = 0x014 then { rwl := 0x1FFF1FFF }
  else if o = 0x018 then { rwl := 0x3F3F, reset := 0x0101 }
  else if o = 0x01C then { rwl := 0xFFFF, reset := 500 }
  else if o = 0x020 then { rw := 0x7FF }
  else if o = 0x038 then { rwl := 0xFFFFFFFF, lowOf64 := true }
  else if o = 0x03C then { rwl := 0xFFFFFFFF }
  else if inWords o 0x040 4 then { rwl := 0x7F, reset := 0x40 }
  else if inWords o 0x060 8 then { rwl := 0xFFFFFFFF, reset := 0x7FFFFFFF }
  else if inWords o 0x080 8 then { rwl := 0xFFF, reset := 0x111 }
  else if inWords o 0x0A0 8 then { rwl := 0xFFFFFFFF }
  else if inWords o 0x800 512 then { rwl := 0xFFFFFFFF }
  else if inWords o 0x1000 1200 then { rw := 0xFFFFFFFF }
  else {}

/-- Fault and log words at 0x5000 (R587). -/
def faultInfo (o : Nat) : RegInfo :=
  if o = 0x000 then { w1c := 0xF }
  else if o = 0x008 then { rw := 0x00033FFF, reset := 0x00012000 }
  else if o = 0x020 ∨ o = 0x028 then { rw := 0x3FFFF }
  else if o = 0x024 ∨ o = 0x02C then { rw := 0xFFFF }
  else if o = 0x030 then { rw := 0x7 }
  else if o = 0x040 then { rwl := 0x1F }
  else if o = 0x044 ∨ o = 0x048 then { rwl := 0x00FFFFFF }
  else if o = 0x060 then { rw := 0xFFFFF000, lowOf64 := true }
  else if o = 0x064 then { rw := 0xFFFFFFFF }
  else if o = 0x068 then { rw := 0xFFFFF000 }
  else {}

/-- Words below 0x1000 of mesa die 0 (R54, R92, R330). -/
def headInfo (o : Nat) : RegInfo :=
  if o = 0x40 then { w1c := 0x1FFF }
  else if o = 0x80 then { w1c := 0x1F }
  else if o = 0x88 then { rw := 0x1 }
  else if o = 0x200 then { rw := 0xF0 }
  else if o = 0x204 then { w1c := 0xF8 }
  else if o = 0x208 ∨ o = 0x210 then { rw := 0xFFFFFFFF, lowOf64 := true }
  else if o = 0x20C ∨ o = 0x214 then { rw := 0xFFFFFFFF }
  else if inWords o 0x220 8 then { rw := 0xFFFFFFFF }
  else {}

/-- The reset value of a settings word (R494, R530, R556). -/
def bzSettingReset (off : Nat) : Word :=
  if off < 0x180 then
    let n := off / 0x20
    match off % 0x20 with
    | 0x00 => BitVec.ofNat 32 ((if n < 6 then 150 else 50) * 2 ^ 8 + 20 * 2 ^ 18 + 3 * 2 ^ 26)
    | 0x04 => 1
    | 0x0C => BitVec.ofNat 32 (20 * 2 ^ 2 + 3 * 2 ^ 12 + 100 * 2 ^ 16)
    | _ => 0
  else if off = 0x380 then 24000
  else if off = 0x3A0 then BitVec.ofNat 32 (470 + 30 * 2 ^ 12 + 2 ^ 18 + 15 * 2 ^ 24)
  else if 0x3B0 ≤ off && off < 0x3E0 then
    if off % 16 = 0 then BitVec.ofNat 32 (50 + 80 * 2 ^ 8 + 160 * 2 ^ 16 + 2 ^ 26) else 0
  else if 0x3E0 ≤ off && off < 0x4A0 then
    match off % 16 with
    | 0 => BitVec.ofNat 32 (155 * 2 ^ 8 + 80 * 2 ^ 16 + 20 * 2 ^ 24)
    | 4 => BitVec.ofNat 32 (1000 + 200 * 2 ^ 16)
    | 8 => 1200
    | _ => BitVec.ofNat 32 (10 * 2 ^ 8 + 20 * 2 ^ 16)
  else if off = 0x6A0 then 50
  else 0

/-- Host-link words at 0x3000 (15). -/
def hostInfo (o : Nat) : RegInfo :=
  if o = 0x000 then { rw := 0x3, reset := 0x1 }
  else if o = 0x004 then { w1c := 0x1F }
  else if inWords o 0x100 16 then { rw := 0xFFFFFFFF }
  else if o = 0x164 then { w1c := 0x6 }
  else if o = 0x168 then { rw := 0x000107FF }
  else if 0x200 ≤ o ∧ o < 0x400 then
    match (o - 0x200) % 0x40 / 4 with
    | 0 => { rw := 0xFFFFFFFF, lowOf64 := true }
    | 1 => { rw := 0xFFFFFFFF }
    | 2 => { rw := 0xFFFFFFFF, lowOf64 := true }
    | 3 => { rw := 0xFFFFFFFF }
    | 4 => { rw := 0x1FFF1FFF }
    | 5 => { rw := 0x0FFF0000 }
    | _ => {}
  else {}

/-- Time and PTP words at 0x4000 (15). -/
def timeInfo (o : Nat) : RegInfo :=
  if o = 0x008 then { rw := 0xFFFFFFFF, lowOf64 := true }
  else if o = 0x00C then { rw := 0xFFFFFFFF }
  else if o = 0x014 then { w1c := 0x78 }
  else if o = 0x020 then { rw := 0xFFFFFFFF, reset := 1000000 }
  else if o = 0x028 then { rw := 0xFFFFFFFF, lowOf64 := true }
  else if o = 0x02C then { rw := 0xFFFFFFFF }
  else {}

/-- Reset, boot, OTP and debug words at 0x9000 (22 R610); DFL_HOLD, set by reset, has rows of its own. -/
def resetInfo (o : Nat) : RegInfo :=
  if o = 0x004 then { w1c := 0x300 }
  else if o = 0x010 then { w1c := 0x700 }
  else if o = 0x018 then { reset := 0x1 }
  else if o = 0x030 then { rw := 0xFFFFFFC0, lowOf64 := true }
  else if o = 0x034 then { rw := 0xFFFFFFFF }
  else if o = 0x040 then { w1c := 0x10000 }
  else {}

/-- The ledger of mesa die 0 (R311): every word of the four 2048-byte crest blocks is RWL. -/
def ledgerOff : Nat := 0x000C0000

/-- Ethernet words of a port block (15 R403). -/
def ethInfo (o : Nat) : RegInfo :=
  if o = 0x000 then { rw := 0xF, rwl := 0x0FFF0000 }
  else if inWords o 0x040 8 then { rwl := 0xFFFF0007 }
  else {}

/-- The map of BAR0 at the normal offsets (R383); an offset not listed reads as zero (R16). -/
def regInfo (a : Nat) : RegInfo :=
  if a < 0x1000 then headInfo a
  else if a < 0x2000 then pwrInfo (a - 0x1000)
  else if a < 0x3000 then {}
  else if a < 0x4000 then hostInfo (a - 0x3000)
  else if a < 0x5000 then timeInfo (a - 0x4000)
  else if a < 0x6000 then faultInfo (a - 0x5000)
  else if a < 0x9000 then dwInfo (a - 0x6000)
  else if a < 0xA000 then resetInfo (a - 0x9000)
  else if a < 0x00400000 then {}
  else if a < 0x00800000 then
    let j := (a - 0x00400000) / 0x00200000
    let o := (a - 0x00400000) % 0x00200000
    if ledgerOff ≤ o ∧ o < ledgerOff + 0x4000 then
      (if j = 0 ∧ o % 0x1000 < 0x800 ∧ o % 4 = 0 then { rwl := 0xFFFFFFFF, reset := bzSettingReset (o % 0x1000) } else {})
    else if 0x00180000 ≤ o ∧ o < 0x00181000 then ethInfo ((o - 0x00180000) % 0x400)
    else mesaInfo j o
  else if a < 0x00A00000 then
    let o := (a - 0x00800000) % 0x1000
    if o = 0x004 then { rw := 0x3, reset := 0x3 } else if o = 0x00C then { w1c := 0x1FF } else {}
  else if 0x00C00000 ≤ a ∧ a < 0x01000000 then
    let o := (a - 0x00C00000) % 0x00100000
    if o = 0x200 then { w1c := 0xFF } else if o = flowStsOff then { w1c := 0x3F } else {}
  else {}

/-- The reset value of a word (log 4). -/
def regReset (a : Nat) : Word := (regInfo a).reset

end Sys2Proof.Machine
end

