-- ==== Sys2Proof/Machine/State.lean ====
section
/-! DEFINITION. The state of a WQ94 module with its BZ31 chips, its value right after reset, and the reasons a step can stop. -/

namespace Sys2Proof.Machine

/-- Everything the spec gives the block, and the queue of commands that wait. -/
structure State where
  /-- Commands that wait, first in first out. -/
  pending : List Instr := []
  fuses : Fuses
  /-- MESA_CAP_LIVE (R50) and the tiles that are live (R51). -/
  live : Word := 0
  tileLive : BitVec 512 := 0
  /-- Register words that differ from their reset values, by BAR0 address: RW, W1C, RS and counter fields. -/
  regs : SMap Word := []
  /-- Banked register words (R311): the crest and lee of every RWL field, by BAR0 address. -/
  crest : SMap Word := []
  lee : SMap Word := []
  /-- The retiring bank of each mesa die (R326), and the slip point before which work reads it. -/
  old : Vector (Option (SMap Word)) 2 := .replicate 2 none
  oldDigest : Nat := 0
  /-- Poisoned words of the crest, of the lee and of the retiring banks, by BAR0 address (R574, R575). -/
  crestBad : SMap Bool := []
  leeBad : SMap Bool := []
  oldBad : SMap Bool := []
  /-- A mesa die's lee is being refreshed; writes held until then (R326). -/
  refreshing : Vector Bool 2 := .replicate 2 false
  heldWrites : List HeldWrite := []
  /-- Latched high words by the address of their register pair (R11); staged low words (R12). -/
  latch : SMap Word := []
  staged : SMap Word := []
  time : TimeUnit := {}
  unit : ResetUnit := {}
  logs : Logs := {}
  link : HostLink := {}
  loader : Loader := {}
  slip : Slip := {}
  jobs : List Job := []
  cycles : List Cycle := []
  /-- Host jobs that wait for admission (R399). -/
  submits : List HpCmd := []
  ingress : Vector DieIngress 2 := .replicate 2 {}
  ports : Vector DflPort 4 := .replicate 4 {}
  tiles : SMap Tile := []
  apply : Vector ApplyUnit 4 := .replicate 4 {}
  resv : Reservoir := {}
  net : Net := {}
  power : Power := {}
  dw : Dw := {}
  chips : Vector Chip 4
  /-- Free-value counter: it numbers the values that the spec leaves open, and nothing else reads it. -/
  free : Nat := 0
  deriving DecidableEq, Repr

/-- Reasons for a fault. No command of this model ends in one: what the spec calls a fault is a record, a flag and a consequence in the state. -/
inductive Fault where
  /-- Raised by no command; safe. -/
  | none
  deriving DecidableEq, Repr

/-- Reasons for a refusal. -/
inductive Refusal where
  /-- Raised by an arm of the dispatch whose command has no meaning yet; safe. -/
  | notModelled (mnemonic : String)
  deriving DecidableEq, Repr

/-- The module the reset state describes: WQ94-E2M4I2-VTDA-2 (02 R1 to R6; log 1). -/
def Fuses.station : Fuses :=
  { ergCount := 2, stackCount := 4, mesaCount := 2, optV := true, optT := true, optD := true, optA := true, series := 2, serial := 0 }

/-- MESA_CAP_LIVE of an assembly with every unit live (R50). -/
def Fuses.allLive (f : Fuses) : Word :=
  BitVec.ofNat 32 ((2 ^ f.ergCount - 1) + (2 ^ f.stackCount - 1) * 2 ^ 4 + (2 ^ f.mesaCount - 1) * 2 ^ 12 +
    (if f.optA then (2 ^ (2 * f.mesaCount) - 1) * 2 ^ 14 else 0))

/-- A tile index set: the first `n`. -/
def firstTiles (n : Nat) : BitVec 512 := BitVec.ofNat 512 (2 ^ n - 1)

/-- The RUNNING record that the first cold reset writes into a blank shutdown area (R606, R608; log 1). -/
def firstShdn : ShdnRec :=
  { seq := 1, state := 1, cause := 0, step := 0, rails := 0, live := Fuses.station.allLive, stStart := 0, stWrite := 0, faultRef := 0
    slipId := 0, slipState := 0, chips := 0, crest := leBytes 16 resetDigest }

/-- Firmware slot 0, which Etbexia programs at manufacture (R595): the model names a point of the curve for it, its base point (log 53). -/
def makerKey : KeySlot :=
  { state := .valid, x := 48439561293906451759052585252797914202762949526041747995844080717082404635286
    y := 36134250956749795798585127919587881956611106672985015071877198253568414405109 }

/-- The state right after reset (22 R593; log 1): cold reset has ended, every unit is live, firmware has not started,
station time is held at 0, DFL_HOLD is set, no chip is powered (log 4). -/
def State.reset : State :=
  { fuses := Fuses.station
    live := Fuses.station.allLive
    tileLive := firstTiles 256
    regs := [(0x9010, 0x100)]
    unit := { slotA := some firstShdn, otp := (Vector.replicate 14 {}).set 8 makerKey }
    power := { fOn := #v[true, false, false, true, false, false, false, true] }
    chips := .replicate 4 {} }

end Sys2Proof.Machine
end

