-- ==== Sys2Proof/Machine/Ops.lean ====
section
/-! DEFINITION. The named operations over the state: time, units, registers, flags, vectors, frames of a DFL port, records, jobs and their stops. -/

namespace Sys2Proof.Machine

/-- Station time as an event at `t` finds it: it never runs backward (R66), it is held until it starts (R404), and in a replay only the replay clock moves it (R93; log 17). -/
def State.at (s : State) (t : Time) : State :=
  if s.time.running && !s.time.replay then { s with time := { s.time with now := max s.time.now t } } else s

/-- Station time runs, and has not reached the limit of R67. -/
def State.timeRuns (s : State) : Bool := s.time.running && !s.time.limit

/-! ### Units -/

/-- Erg die `k`, stack `n`, mesa die `j`, DFL port of chip `c` are in service (R50). -/
def State.ergLive (s : State) (k : Nat) : Bool := decide (k < 4) && bit s.live k
def State.stackLive (s : State) (n : Nat) : Bool := decide (n < 8) && bit s.live (4 + n)
def State.mesaLive (s : State) (j : Nat) : Bool := decide (j < 2) && bit s.live (12 + j)
def State.dflLive (s : State) (c : Nat) : Bool := decide (c < 4) && bit s.live (14 + c)

/-- A tile is in service (R51). -/
def State.tileOn (s : State) (t : Nat) : Bool := decide (t < 512) && s.tileLive.getLsbD t && s.ergLive (t / 128)

/-- The mesa die that serves erg die `k` (R41, R43). -/
def State.serving (s : State) (k : Nat) : Nat :=
  if s.fuses.mesaCount ≤ 1 then 0 else if s.fuses.ergCount = 2 then k % 2 else k / 2

/-- The erg die that owns stack `n` (R7). -/
def State.stackDie (s : State) (n : Nat) : Nat := if s.fuses.stackCount = s.fuses.ergCount then n else n / 2

/-- The live stacks, in stack order, and the live capacity in bytes (R44). -/
def State.liveStacks (s : State) : List Nat := (List.range 8).filter fun n => s.stackLive n
def State.liveBytes (s : State) : Nat := s.liveStacks.length * 2 ^ 34

/-- The stacks that addresses run on over, in stack order: those that bring-up left in service (R44). -/
def State.placedStacks (s : State) : List Nat := (List.range s.fuses.stackCount).filter fun n => !s.resv.missing.contains n

/-- The stack that holds a reservoir address. -/
def State.stackOf (s : State) (a : Nat) : Option Nat := s.placedStacks[a / 2 ^ 34]?

/-- The stack of an address, or the erg die that owns it, is out of service (R584; log 46). -/
def State.stackDead (s : State) (a : Nat) : Bool := match s.stackOf a with | some n => !s.stackLive n || !s.ergLive (s.stackDie n) | none => true

/-- Some byte of a range lies on a stack out of service. -/
def State.rangeDead (s : State) (base n : Nat) : Bool := decide (0 < n) && (s.stackDead base || s.stackDead (base + n - 1))

/-! ### Register words -/

/-- The word of a register that is not banked. -/
def State.reg (s : State) (a : Nat) : Word := mget regReset s.regs a

/-- Write a word that is not banked. -/
def State.setReg (s : State) (a : Nat) (v : Word) : State := { s with regs := mset regReset s.regs a v }

/-- The crest and the lee of a banked word (R14). -/
def State.crestWord (s : State) (a : Nat) : Word := mget regReset s.crest a
def State.leeWord (s : State) (a : Nat) : Word := mget regReset s.lee a

/-- A banked word of mesa die `j` is poisoned in the bank that work selects (R312, R575; log 15). -/
def State.bankBad (s : State) (j : Nat) (old : Bool) (a : Nat) : Bool :=
  match old, s.old[j]? with
  | true, some (some _) => mget (fun _ => false) s.oldBad a
  | _, _ => mget (fun _ => false) s.crestBad a

/-- A banked word of mesa die `j` in the bank that work selects: the retiring one for `old` (R312); a poisoned word counts as absent (R575). -/
def State.bankWord (s : State) (j : Nat) (old : Bool) (a : Nat) : Word :=
  if s.bankBad j old a then 0 else
  match old, s.old[j]? with
  | true, some (some m) => mget regReset m a
  | _, _ => s.crestWord a

/-- Word `k` of an entry of `n` words at `a`: an entry with a poisoned word is absent (R575). -/
def State.entryWord (s : State) (j : Nat) (old : Bool) (a n k : Nat) : Word :=
  if (List.range n).any fun i => s.bankBad j old (a + 4 * i) then 0 else s.bankWord j old (a + 4 * k)

/-- A word of the power limits: where it is poisoned, its reset value stands (R575). -/
def State.limitWord (s : State) (old : Bool) (a : Nat) : Word := if s.bankBad 0 old a then regReset a else s.bankWord 0 old a

/-- Whether work with a stamp of station time `tm` uses the bank that was crest before the last slip (R132, R312). -/
def State.usesOld (s : State) (tm : Time) : Bool :=
  match s.slip.lastPoint with
  | some p => decide (tm < p)
  | none => false

/-- The station time of a stamp (R61). -/
def stampTime (st : Stamp) : Time := st.toNat / 256 * 2

/-- A stamp from its station time, class, die and index (R61, R62). -/
def mkStamp (tm : Time) (cls die index : Nat) : Stamp :=
  BitVec.ofNat 64 ((tm / 2 % 2 ^ 56) * 256 + cls * 32 + die * 16 + index)

/-! ### Flags and counters (R581) -/

/-- Set bit `b` of a flag word. -/
def State.setFlag (s : State) (a b : Nat) : State := s.setReg a (s.reg a ||| oneBit b)

/-- Count an event in byte `n` of the counter words at `a`. -/
def State.countByte (s : State) (a n : Nat) : State :=
  let a := a + 4 * (n / 4)
  s.setReg a (satByte (s.reg a) (n % 4) 1)

/-- Add to a 32-bit counter that holds at its top. -/
def State.count32 (s : State) (a k : Nat) : State :=
  s.setReg a (BitVec.ofNat 32 (satAdd 0xFFFFFFFF (s.reg a).toNat k))

/-- An event of TILE_STS bit `b` (R148). -/
def State.tileFlag (s : State) (t b : Nat) : State := (s.setFlag (tileBase t + 0x0C) b).countByte (tileBase t + 0x10) b

/-- An event of ERG_CAIRN_STS bit `b`; UE, UNBOUND, SOURCE and RECLAIMED are counted. -/
def State.cairnFlag (s : State) (k b : Nat) : State :=
  let s := s.setFlag (ergBase k + 0x200) b
  if 1 ≤ b ∧ b ≤ 4 then s.countByte (ergBase k + 0x210) (b - 1) else s

/-- An event of ERG_FLOW_STS bit `b` (R120). -/
def State.flowFlag (s : State) (k b : Nat) : State := s.setFlag (ergBase k + flowStsOff) b

/-- An event of MESA_GV_STS bit `b` (R92). -/
def State.gvFlag (s : State) (b : Nat) : State := s.setFlag 0x80 b

/-- An event of MESA_FAULT_STS bit `b` (R587). -/
def State.faultFlag (s : State) (b : Nat) : State := (s.setFlag 0x5000 b).countByte 0x5004 b

/-- An event of MESA_IN_STS bit `b` (R437). -/
def State.inFlag (s : State) (j b : Nat) : State :=
  (s.setFlag (mesaBase j + 0x00100800) b).countByte (mesaBase j + 0x00100804) b

/-- An event of PWR_STS bit `b` (R358). -/
def State.pwrFlag (s : State) (b : Nat) : State :=
  let s := s.setFlag 0x1000 b
  if b < 4 then s.countByte 0x1004 b else s

/-- An event of DW_STS bit `b` (R377). -/
def State.dwFlag (s : State) (b : Nat) : State := (s.setFlag 0x6004 b).countByte 0x6008 b

/-- An event of ACT_STS bit `b` (17). -/
def State.actFlag (s : State) (j b : Nat) : State := s.setFlag (mesaBase j + 0x00040000) b

/-- An event of MESA_SLIP_STS bit `b` (R330). -/
def State.slipFlag (s : State) (b : Nat) : State := s.setFlag 0x204 b

/-- REPLAY is set (R93). -/
def State.replaying (s : State) : Bool := s.time.replay

/-! ### MSI-X (R384, R385) -/

/-- Signal a vector: PME in D3hot; pending while masked. -/
def State.signal (s : State) (v : Nat) : State :=
  let l := s.link
  let masked := l.msixMask || (mget (fun _ => 1) l.msixTable (16 * v + 12)).getLsbD 0
  if l.d3hot then { s with link := { l with pme := true } }
  else if !l.msixEn then s
  else if masked then { s with link := { l with msixPending := if l.msixPending.contains v then l.msixPending else l.msixPending ++ [v] } }
  else { s with link := { l with msixSent := l.msixSent ++ [v] } }

/-! ### Frames of a DFL port (R459) -/

/-- Update port `p`. -/
def State.port (s : State) (p : Nat) : DflPort := s.ports.toList.getD p {}
def State.setPort (s : State) (p : Nat) (d : DflPort) : State := { s with ports := s.ports.setIfInBounds p d }

/-- Queue a frame on a port: frames wait in the order of their class, first come first served within one (R459). -/
def DflPort.queueFrame (d : DflPort) (f : DflFrame) : DflPort := { d with queue := insertBy DflFrame.prio f d.queue }

/-- Bytes 2 to 13 of a REG frame (R549). -/
def regBytes (write : Bool) (tag off : Nat) (v : Word) : List Byte :=
  0x04 :: 0x00 :: (if write then 2 else 1) :: BitVec.ofNat 8 tag :: (leBytes 2 off ++ leBytes 4 v.toNat ++ leBytes 4 0)

/-- The unit's own REG write to a chip, under the port's next TAG (R543, R553); none in replay (R550). -/
def State.sendReg (s : State) (p off : Nat) (v : Word) : State :=
  if s.replaying then s else
  let d := s.port p
  let tag := (d.nextTag + 1) % 256
  s.setPort p ({ d with nextTag := tag }.queueFrame { prio := 5, bytes := regBytes true tag off v })

/-- ENTER_LIMP to every attached chip (R553, R585). -/
def State.enterLimpAll (s : State) : State :=
  (List.range 4).foldl (fun s p => if (s.port p).attached then s.sendReg p 0x010 2 else s) s

/-! ### Records (R559 to R573) -/

/-- Hand a record to its die's log writer; `sev` of 2 or 3 also enters the fault store (R564, R587). -/
def State.makeRecord (s : State) (die sev : Nat) (key : Option Key) (bytes : List Byte) : State :=
  let ctl := s.reg 0x5008
  let irq := bit ctl 11 && decide (fld ctl 13 12 ≤ sev)
  let copying := bit (s.reg 0x5030) 2
  let s := { s with logs := { s.logs with made := s.logs.made ++ [{ die, key, bytes, irq := irq && copying }] } }
  let s :=
    if sev ≥ 2 then
      let i := (s.reg 0x5010).toNat % 64
      let s := { s with logs := { s.logs with store := mset (fun _ => []) s.logs.store i (padTo 48 bytes) } }
      s.setReg 0x5010 (BitVec.ofNat 32 ((i + 1) % 64))
    else s
  if irq ∧ !copying then s.signal (fld ctl 10 0) else s

/-- What a fault record names (R568): class, severity, source, stamp, address, detail. -/
structure FaultInfo where
  cls : Nat
  sev : Nat
  kind : Nat
  index : Nat
  stamp : Stamp := 0
  addr : Nat := 0
  detail : Nat := 0
  deriving DecidableEq, Repr

/-- The 48 bytes of a fault record (R568). -/
def FaultInfo.bytes (f : FaultInfo) (replay : Bool) (now ref : Nat) : List Byte :=
  [0x80, BitVec.ofNat 8 (b2n replay), BitVec.ofNat 8 f.sev, BitVec.ofNat 8 f.kind] ++ leBytes 2 f.cls ++ leBytes 2 f.index ++
  leBytes 8 f.stamp.toNat ++ leBytes 8 f.addr ++ leBytes 4 f.detail ++ leBytes 4 0 ++ leBytes 8 now ++ leBytes 4 ref ++ leBytes 4 0

/-- A fault raises its severity's status flag (R567, R587); INFO raises none. -/
def State.faultSeen (s : State) (sev : Nat) : State := if sev = 0 then s else s.faultFlag (sev - 1)

/-- SAFE after a FATAL fault (R585). -/
def State.enterSafe (s : State) : State :=
  let ctl := s.reg 0x5008
  if bit ctl 16 then
    let s' := { s with logs := { s.logs with safe := true } }
    if bit ctl 17 && !s.logs.safe then s'.enterLimpAll else s'
  else s

/-- The record of a fault, its reference, its status flag, and SAFE when it is FATAL (R568, R585, R587; log 60). -/
def State.fault (s : State) (die : Nat) (key : Option Key) (f : FaultInfo) : State :=
  let ref := (s.logs.faultRef + 1) % 2 ^ 32
  let s := { s with logs := { s.logs with faultRef := ref } }
  let s := (s.makeRecord die f.sev key (f.bytes s.replaying s.time.now ref)).faultSeen f.sev
  if f.sev = 3 then s.enterSafe else s

/-- A throttled fault: counted always, recorded when it finds its status flag clear (R54, R567; log 60). -/
def State.faultThrottled (s : State) (clear : Bool) (die : Nat) (f : FaultInfo) : State :=
  if clear then s.fault die none f else s.faultSeen f.sev

/-- An access to an absent unit of a group (R53, R54). -/
def State.absentAccess (s : State) (group : Nat) : State :=
  let clear := !bit (s.reg 0x40) group
  ((s.count32 0x44 1).setFlag 0x40 group).faultThrottled clear 0 { cls := 0x0001, sev := 0, kind := 6, index := 0, detail := group }

/-- Records that carry a void mask are counted (R92). -/
def State.countVoid (s : State) (void : Nat) : State :=
  let s := (List.range 4).foldl (fun s b => if void.testBit b then s.gvFlag b else s) s
  if void = 0 then s else s.count32 0x84 1

/-! ### Jobs -/

/-- The job of a name. -/
def State.job (s : State) (id : JobId) : Option Job := s.jobs.find? fun j => decide (j.id = id)

/-- Change the job of a name. -/
def State.modJob (s : State) (id : JobId) (f : Job → Job) : State :=
  { s with jobs := mapIf (fun j => decide (j.id = id)) f s.jobs }

/-- OR marks into a job's void mask (R89). -/
def State.mark (s : State) (id : JobId) (m : Nat) : State := s.modJob id fun j => { j with void := j.void ||| m }

/-- A job's void mask; 0 for a job that is gone. -/
def State.voidOf (s : State) (id : JobId) : Nat := match s.job id with | some j => j.void | none => 0

/-- A tile's state, and its replacement; an unlisted tile is as cold reset leaves it. -/
def State.tile (s : State) (t : Nat) : Tile := mget (fun _ => {}) s.tiles t
def State.setTile (s : State) (t : Nat) (x : Tile) : State := { s with tiles := mset (fun _ => {}) s.tiles t x }
def State.modTile (s : State) (t : Nat) (f : Tile → Tile) : State := s.setTile t (f (s.tile t))

/-- The apply unit of a die. -/
def State.applyUnit (s : State) (k : Nat) : ApplyUnit := s.apply.toList.getD k {}
def State.setApply (s : State) (k : Nat) (u : ApplyUnit) : State := { s with apply := s.apply.setIfInBounds k u }

/-- Flags of ERG_CAIRN_STS in a row. -/
def State.cairnFlags (s : State) (k : Nat) (bs : List Nat) : State := bs.foldl (fun s b => s.cairnFlag k b) s

/-- Replies go to the routers of the waiting tiles (R97, R273): CAIRN-class messages. -/
def State.sendReplies (s : State) (k : Nat) (rs : List (Nat × Key × Nat × Bool)) : State :=
  rs.foldl (fun s r =>
    let m : Msg := { src := .apply k, dest := .tile r.1, cls := 1, admitted := true, horizon := false, prod := 0, stream := 0,
                     item := { key := r.2.1, body := leBytes 1 0x20 ++ leBytes 3 0 ++ leBytes 4 r.2.2.1 ++ leBytes 1 (b2n r.2.2.2) } }
    { s with net := { s.net with hops := s.net.hops ++ [{ place := .apply k, msg := m, here := 2, left := 2 }] } }) s

/-- Drop a job's bindings on every die; bindings that waited take effect (R264, R265; log 19). -/
def State.dropBindings (s : State) (id : JobId) : State :=
  (List.range 4).foldl (fun s k =>
    let r := ((s.applyUnit k).drop id).wakeWaiting
    (s.setApply k r.unit).cairnFlags k r.flags) s

/-- The job's tiles leave it: no further item, nothing closed (R219). -/
def State.freeTiles (s : State) (id : JobId) : State :=
  { s with tiles := (s.tiles.map fun x =>
      (x.1, { x.2 with
        core := (match x.2.core with | some c => if c.id = id then none else some c | none => none)
        starts := x.2.starts.filter fun m => decide (m.id ≠ id)
        flight := (match x.2.core with | some c => if c.id = id then [] else x.2.flight | none => x.2.flight) })).filter (fun x => decide (x.2 ≠ {})) }

/-- The die whose log takes a job's records: that of its first tile, else of the job (R560). -/
def State.jobDie (s : State) (j : Job) : Nat :=
  match j.tiles with
  | t :: _ => s.serving (t / 128)
  | [] => j.die

/-- Entry and image slot of a job, as records carry them (R572). -/
def Job.entrySlot (j : Job) : Nat := j.entry % 256 + 256 * (j.image % 4)

/-- The key of a job-stop record (R573). -/
def stopKey (id : JobId) (reason : Nat) (key : Key) : Key :=
  if 2 ≤ reason ∧ reason ≤ 5 then key else BitVec.ofNat 96 (id.stamp.toNat * 2 ^ 32)

/-- A job-stop record (R573). -/
def stopBytes (replay : Bool) (void reason entrySlot : Nat) (key : Key) (detail now unit : Nat) : List Byte :=
  [0x82, BitVec.ofNat 8 (b2n replay), BitVec.ofNat 8 void, BitVec.ofNat 8 reason] ++ leBytes 2 entrySlot ++ leBytes 2 0 ++
  leBytes 12 key.toNat ++ leBytes 4 detail ++ leBytes 8 0 ++ leBytes 8 now ++ leBytes 2 unit ++ leBytes 6 0

/-- A command's staging ranges become free (R392). -/
def State.freeRanges (s : State) (p : StageRange → Bool) : State :=
  { s with link := { s.link with busy := mapIf (fun r => p r && r.freed.isNone) (fun r => { r with freed := some s.time.now }) s.link.busy } }

/-- A command has finished: its staging ranges become free (R392), and its completion waits for a slot (R390, R396). -/
def State.hpDone (s : State) (c : HpCmd) (status detail result : Nat) : State :=
  let s := s.freeRanges fun r => decide (r.owner = (c.stamp, c.job))
  if c.queue = 256 then s else { s with link := { s.link with done := s.link.done ++ [{ cmd := c, status, detail, result }] } }

/-- STATUS and DETAIL of a host job's completion (R390, R391). -/
def State.hostResult (s : State) (id : JobId) : Nat × Nat :=
  match s.job id with
  | some j => (if j.stopped.isSome then 6 else 0, j.void + b2n j.admitted * 2 ^ 8 + j.stopped.getD 0 * 2 ^ 16)
  | none => (0, 0)

/-- A copy entry that belongs to a job. -/
def copyOf (id : JobId) (c : HpCmd × Nat × Nat × Nat) : Bool := decide (c.1.stamp = id.stamp ∧ c.1.job = id.job)

/-- A host job that has ended or stopped (R392, R396, R399): its input range is free; its output copy is due, or with OUT_HOST 0 its completion follows at once. -/
def State.hostJobOver (s : State) (id : JobId) : State :=
  match s.link.copies.find? (copyOf id) with
  | none => s
  | some c =>
    if leAt c.1.bytes 0x28 8 = 0 then
      ({ s with link := { s.link with copies := s.link.copies.filter fun c => !copyOf id c } }).hpDone c.1 (s.hostResult id).1 (s.hostResult id).2 0
    else
      ({ s with link := { s.link with copies := mapIf (copyOf id) (fun c => (c.1, c.2.1, c.2.2.1, 1)) s.link.copies } }).freeRanges fun r =>
        decide (r.owner = (id.stamp, id.job) ∧ r.off = leAt c.1.bytes 0x10 8)

/-- Stop a job (R220, R570, R573): one record, its tiles, bindings and messages end, its cycle resolves later to DEFAULT (log 19). -/
def State.stopJob (s : State) (id : JobId) (reason : Nat) (key : Key) (detail unit : Nat) : State :=
  match s.job id with
  | none => s
  | some j =>
    if j.stopped ≠ none ∨ (j.running = [] ∧ j.committed) then s else
    let void := j.void ||| (if reason = 7 ∨ reason = 8 then 8 else 0) ||| (if reason = 0x0B ∨ reason = 0x0F then 4 else 0)
    let s := s.modJob id fun j => { j with stopped := some reason, running := [], void := void }
    let k := stopKey id reason key
    let s := (s.makeRecord (s.jobDie j) 2 (some k) (stopBytes s.replaying void reason j.entrySlot k detail s.time.now unit)).countVoid void
    let s := if reason = 2 ∨ reason = 3 ∨ reason = 4 then s.gvFlag 4 else s
    let s := (s.freeTiles id).dropBindings id
    let s := { s with cycles := mapIf (fun c => decide (c.id = id)) (fun c => { c with jobStopped := true, void := c.void ||| void }) s.cycles }
    if j.kind = 3 then s.hostJobOver id else s

/-- Stop each job of an apply unit's list (R267); an owner that the device runs no job for loses its bindings (R264). -/
def State.stopAll (s : State) (k : Nat) (l : List (JobId × Nat × Key × Nat)) : State :=
  l.foldl (fun s x => if (s.job x.1).isNone then s.dropBindings x.1 else s.stopJob x.1 x.2.1 x.2.2.1 x.2.2.2 k) s

/-- Put what an apply-unit step asked for into the state. -/
def State.applyOut (s : State) (k : Nat) (r : ApplyOut) : State :=
  (((s.setApply k r.unit).cairnFlags k r.flags).sendReplies k r.replies).stopAll k r.stops

end Sys2Proof.Machine
end

