-- ==== Sys2Proof/Machine/NtCore.lean ====
section
/-! DEFINITION. The control core (08): registers, extents, stores of a tile, poison, exceptions, emission keys, and the issue of one instruction. -/

namespace Sys2Proof.Machine

/-- No poison. -/
def clean (_ : Nat) : Bool := false

/-! ### Registers (R195, R206, R212) -/

/-- Scalar registers: s0 reads as zero and discards writes; a value computed from poison is poisoned (R575). -/
def Core.s (c : Core) (r : Fin 32) : Word := if r = 0 then 0 else c.sreg[r]
def Core.sBad (c : Core) (r : Fin 32) : Bool := mget clean c.regPoison r.val
def Core.setS (c : Core) (r : Fin 32) (v : Word) (bad : Bool) : Core :=
  if r = 0 then c else { c with sreg := c.sreg.set r v, regPoison := mset clean c.regPoison r.val bad }

/-- Predicate registers: p0 reads as 1 and discards writes. -/
def Core.p (c : Core) (r : Fin 8) : Bool := if r = 0 then true else c.preg[r]
def Core.pBad (c : Core) (r : Fin 8) : Bool := mget clean c.regPoison (32 + r.val)
def Core.setP (c : Core) (r : Fin 8) (v : Bool) (bad : Bool) : Core :=
  if r = 0 then c else { c with preg := c.preg.set r v, regPoison := mset clean c.regPoison (32 + r.val) bad }

/-- Address registers. -/
def Core.a (c : Core) (r : Fin 16) : BitVec 64 := c.areg[r]
def Core.aBad (c : Core) (r : Fin 16) : Bool := mget clean c.regPoison (64 + r.val)
def Core.setA (c : Core) (r : Fin 16) (v : BitVec 64) (bad : Bool) : Core :=
  { c with areg := c.areg.set r v, regPoison := mset clean c.regPoison (64 + r.val) bad }

/-- Any field of the facet state is poisoned. -/
def Core.facetBad (c : Core) : Bool := (List.range 19).any fun i => mget clean c.regPoison (96 + i)

/-- Lanes of a vector register with their poison, 64 per register. -/
def Core.lanes (c : Core) (r : Fin 16) : List Word := c.vx[r].toList
def Core.laneBad (c : Core) (r : Fin 16) (k : Nat) : Bool := mget clean c.vxPoison (64 * r.val + k)
def Core.setLanes (c : Core) (r : Fin 16) (f : Fin 64 → Word) (bad : Nat → Bool) : Core :=
  { c with
    vx := c.vx.set r (Vector.ofFn f)
    vxPoison := (List.range 64).foldl (fun m k => mset clean m (64 * r.val + k) (bad k)) c.vxPoison }

/-- Stream descriptors. -/
def Core.d (c : Core) (r : Fin 16) : Desc := c.desc[r]
def Core.setD (c : Core) (r : Fin 16) (v : Desc) : Core := { c with desc := c.desc.set r v }

/-! ### Extents (R196) -/

/-- The extent that an address register holds. -/
def extentOf (w : BitVec 64) : Extent :=
  { space := bitsOf w.toNat 39 38, base := bitsOf w.toNat 37 0, len := bitsOf w.toNat 63 40 }

/-- Two extents share a byte. -/
def Extent.overlaps (x y : Extent) : Bool :=
  decide (x.space = y.space ∧ x.base < y.base + y.len ∧ y.base < x.base + x.len)

/-- Some extent of the one list shares a byte with some extent of the other. -/
def anyOverlap (xs ys : List Extent) : Bool := xs.any fun x => ys.any fun y => x.overlaps y

/-- LEE_EN of a tile, and the sizes it gives the banks (R131). -/
def State.leeEn (s : State) (t : Nat) : Bool := bit (s.reg (tileBase t + 4)) 0
def State.wbedSize (s : State) (t : Nat) : Nat := if s.leeEn t then 0x180000 else 0x300000
def State.imemSize (s : State) (t : Nat) : Nat := if s.leeEn t then 0x8000 else 0x10000

/-- The half that is crest (R148). -/
def State.crestHalf (s : State) (t : Nat) : Nat := fld (s.reg (tileBase t + 8)) 0 0

/-- The bytes of a space (R44, R131, R196). -/
def State.spaceSize (s : State) (t : Nat) : Nat → Nat
  | 0 => 0x40000
  | 1 => s.liveBytes
  | 2 => s.wbedSize t
  | _ => 0

/-- An extent lies within its space. -/
def State.inSpace (s : State) (t : Nat) (x : Extent) : Bool := decide (x.base + x.len ≤ s.spaceSize t x.space)

/-- The extents of open rings (R139). -/
def Core.rings (c : Core) : List Extent :=
  (c.desc.toList.filter fun d => decide (d.state = .openIn)).map fun d => extentOf d.ring

/-- Held extents (R180), and those that operations in flight read and write (R138). -/
def Core.held (c : Core) : List Extent := c.holds.flatMap Hold.extents
def Tile.reads (x : Tile) : List Extent := x.flight.flatMap InFlight.reads
def Tile.writes (x : Tile) : List Extent := x.flight.flatMap InFlight.writes

/-- The lowest cause among those that hold (log 25). -/
def firstCause (l : List (Nat × Bool)) : Option Nat :=
  ((l.filter fun x => x.2).map fun x => x.1).foldl (fun a x => match a with | none => some x | some y => some (min x y)) none

/-- The checks of an extent of an engine operation (R196, R216, R217): its space, its alignment, its range. -/
def State.extentChecks (s : State) (t : Nat) (spaces : List Nat) (x : Extent) : List (Nat × Bool) :=
  [(2, x.space = 3 || !spaces.contains x.space), (4, decide (x.space ≠ 3) && !s.inSpace t x),
   (5, decide (x.base % 4 ≠ 0 ∨ x.len % 4 ≠ 0))]

/-! ### Stores of a tile (R131, R137, R203, R574) -/

/-- A half, and its replacement. -/
def Tile.half (x : Tile) (h : Nat) : TileBank := if h = 0 then x.halves[0] else x.halves[1]
def Tile.setHalf (x : Tile) (h : Nat) (b : TileBank) : Tile :=
  { x with halves := if h = 0 then x.halves.set 0 b else x.halves.set 1 b }

/-- The half whose weight bed and instruction memory a bank uses: with LEE_EN = 0 both stores are one bank (R131). -/
def State.bedHalf (s : State) (t h : Nat) : Nat := if s.leeEn t then h else 0

/-- Some 8-byte word of a range is poisoned. -/
def anyPoison (m : SMap Bool) (off len : Nat) : Bool :=
  decide (0 < len) && m.any fun e => e.2 && decide (off < 8 * e.1 + 8 ∧ 8 * e.1 < off + len)

/-- Poison after a write of `len` bytes: poisoned data poisons every word it touches; clean data cleans the words it fills (R574, R575). -/
def writePoison (m : SMap Bool) (off len : Nat) (bad : Nat → Bool) : SMap Bool :=
  (List.range ((off + len + 7) / 8 - off / 8)).foldl (fun m i =>
    let w := off / 8 + i
    if len = 0 then m
    else if (List.range 8).any fun j => decide (off ≤ 8 * w + j ∧ 8 * w + j < off + len) && bad (8 * w + j - off) then mset clean m w true
    else if off ≤ 8 * w ∧ 8 * w + 8 ≤ off + len then mset clean m w false else m) m

/-- Set the valid bits of the lines a range touches (R203). -/
def validLines (v off len : Nat) : Nat :=
  if len = 0 then v else (List.range ((off + len - 1) / 64 + 1 - off / 64)).foldl (fun v i => v ||| 2 ^ (off / 64 + i)) v

/-- Write bytes into the activation buffer (R203); `bad` says which are poisoned. -/
def Tile.abWrite (x : Tile) (off : Nat) (bs : List Byte) (bad : Nat → Bool) : Tile :=
  { x with
    abuf := x.abuf.puts off bs
    abufPoison := writePoison x.abufPoison off bs.length bad
    valid := validLines x.valid off bs.length }

/-- Bytes of a space as a job reads them. -/
def State.load (s : State) (t : Nat) (c : Core) (space base n : Nat) : List Byte :=
  match space with
  | 0 => (s.tile t).abuf.bytes base n
  | 1 => s.resv.mem.bytes base n
  | _ => ((s.tile t).half (s.bedHalf t c.bank)).wbed.bytes base n

/-- Some of those bytes are poisoned. -/
def State.loadBad (s : State) (t : Nat) (c : Core) (space base n : Nat) : Bool :=
  match space with
  | 0 => anyPoison (s.tile t).abufPoison base n
  | 1 => anyPoison s.resv.poison base n || s.rangeDead base n
  | _ => anyPoison ((s.tile t).half (s.bedHalf t c.bank)).wbedPoison base n

/-- Write into the activation buffer of a tile. -/
def State.abWrite (s : State) (t off : Nat) (bs : List Byte) (bad : Nat → Bool) : State :=
  s.modTile t fun x => x.abWrite off bs bad

/-- Void masks of reservoir lines: what a read collects, what a write leaves (R89). -/
def Reservoir.voidAt (r : Reservoir) (base n : Nat) : Nat :=
  (r.void.filter fun e => decide (base < 64 * e.1 + 64 ∧ 64 * e.1 < base + n)).foldl (fun v e => v ||| e.2) 0

/-- Write into the reservoir, with the mask of the job that writes (R89, R574). -/
def Reservoir.write (r : Reservoir) (base : Nat) (bs : List Byte) (bad : Nat → Bool) (void : Nat) : Reservoir :=
  { r with
    mem := r.mem.puts base bs
    poison := writePoison r.poison base bs.length bad
    void := if bs = [] then r.void else
      (List.range ((base + bs.length - 1) / 64 + 1 - base / 64)).foldl (fun m i => mset (fun _ => 0) m (base / 64 + i) void) r.void }

/-- Write into the reservoir; what falls on a stack out of service is discarded (R584). -/
def State.resvWrite (s : State) (base : Nat) (bs : List Byte) (bad : Nat → Bool) (void : Nat) : State :=
  let cut := (base / 2 ^ 34 + 1) * 2 ^ 34 - base
  let s := if s.stackDead base then s else { s with resv := s.resv.write base (bs.take cut) bad void }
  if bs.length ≤ cut ∨ s.stackDead (base + cut) then s
  else { s with resv := s.resv.write (base + cut) (bs.drop cut) (fun i => bad (i + cut)) void }

/-- Write into a space that a job may write. -/
def State.store (s : State) (t : Nat) (c : Core) (space base : Nat) (bs : List Byte) (bad : Nat → Bool) : State :=
  if space = 1 then s.resvWrite base bs bad (s.voidOf c.id) else s.abWrite t base bs bad

/-! ### Memory errors (R574) -/

/-- A correctable error in a store of tile `t`: corrected, its flag, a throttled record. -/
def State.memCe (s : State) (t store addr : Nat) (stamp : Stamp) : State :=
  let f : FaultInfo := { cls := 0x0010, sev := 1, kind := 0, index := t, stamp, addr, detail := store }
  let die := s.serving (t / 128)
  match store with
  | 1 => (s.tileFlag t 0).faultThrottled (!bit (s.reg (tileBase t + 0x0C)) 0) die f
  | 3 => (s.tileFlag t 2).faultThrottled (!bit (s.reg (tileBase t + 0x0C)) 2) die f
  | _ => s.faultThrottled (!bit (s.reg 0x5000) 0) die f

/-- Poison the word of a tile's store that holds byte `addr` (log 15). -/
def Tile.poison (x : Tile) (h store addr : Nat) : Tile :=
  match store with
  | 1 => x.setHalf h { x.half h with wbedPoison := mset clean (x.half h).wbedPoison (addr / 8) true }
  | 2 => x.setHalf h { x.half h with imemPoison := mset clean (x.half h).imemPoison (addr / 8) true }
  | _ => { x with abufPoison := mset clean x.abufPoison (addr / 8) true }

/-- An uncorrectable error in a store of tile `t`, half `h`: the word is poisoned, its flag, a record (R574). -/
def State.memUe (s : State) (t h store addr : Nat) (stamp : Stamp) : State :=
  let s := s.modTile t fun x => x.poison h store addr
  let s := s.tileFlag t (match store with | 1 => 1 | 2 => 4 | _ => 3)
  let s := { s with logs := { s.logs with tileUe := s.logs.tileUe ++ [(t, s.time.now)] } }
  s.fault (s.serving (t / 128)) none { cls := 0x0011, sev := 2, kind := 0, index := t, stamp, addr, detail := store }

/-- A reservoir error (R574). -/
def State.resvErr (s : State) (die addr : Nat) (ue : Bool) (stamp : Stamp) : State :=
  let n := (s.stackOf addr).getD 0
  if ue then
    let s := { s with
      resv := { s.resv with poison := mset clean s.resv.poison (addr / 8) true }
      logs := { s.logs with stackUe := s.logs.stackUe ++ [(n, s.time.now)] } }
    s.fault die none { cls := 0x0011, sev := 2, kind := 4, index := n, stamp, addr, detail := 5 }
  else s.faultThrottled (!bit (s.reg 0x5000) 0) die { cls := 0x0010, sev := 1, kind := 4, index := n, stamp, addr, detail := 5 }

/-- The store code of a space, and an extent that holds a store's byte. -/
def Extent.holds (x : Extent) (store addr : Nat) : Bool :=
  decide ((match x.space with | 0 => 3 | 1 => 5 | _ => 1) = store ∧ x.base / 8 * 8 ≤ addr ∧ addr < x.base + x.len)

/-- The errors that a read of some extents finds; an error outside them is not read. -/
def State.applyHits (s : State) (t : Nat) (c : Core) (xs : List Extent) (hits : List EccHit) : State :=
  hits.foldl (fun s e =>
    if xs.any fun x => x.holds e.store e.addr then
      if e.store = 5 then s.resvErr (s.serving (t / 128)) e.addr e.ue c.id.stamp
      else if e.ue then s.memUe t (s.bedHalf t c.bank) e.store e.addr c.id.stamp
      else s.memCe t e.store e.addr c.id.stamp
    else s) s

/-! ### Keys (R68, R70, R199) -/

/-- The EMIT count of a producer; none before its first selection. -/
def Core.count (c : Core) (p : Nat) : Option Nat := (c.emits.find? fun e => decide (e.1 = p)).map (·.2)

/-- The producer table cannot take the current producer (R199). -/
def Core.noRoom (c : Core) (p : Nat) : Bool := (c.count p).isNone && decide (16 ≤ c.emits.length)

/-- The key that the next emission of the current producer carries (R199). -/
def Core.nextKey (c : Core) : Key := mkKey c.id c.prod (min 65535 ((c.count c.prod).getD 0))

/-- The current producer has emitted all it may (R70). -/
def Core.spent (c : Core) : Bool := decide (65536 ≤ (c.count c.prod).getD 0)

/-- Give a producer an EMIT count. -/
def Core.setCount (c : Core) (p n : Nat) : Core :=
  { c with emits := match c.count p with
      | none => c.emits ++ [(p, n)]
      | some _ => c.emits.map fun e => if e.1 = p then (p, n) else e }

/-- Count one emission of the current producer. -/
def Core.emitted (c : Core) : Core := c.setCount c.prod ((c.count c.prod).getD 0 + 1)

/-! ### Results of an instruction -/

/-- What an instruction does when it runs. -/
inductive NtRes where
  /-- It completes: the core's new state, before the pc advances. -/
  | done (c : Core) (s : State)
  /-- It completes and control goes to an address. -/
  | jump (c : Core) (s : State) (pc : Nat)
  /-- It raises an exception and has no effect (R218). -/
  | raise (cause : Nat)
  /-- It waits, and has no effect yet (R213). -/
  | wait
  /-- It has begun, and the core waits for its end (R213). -/
  | hold (c : Core) (s : State)
  /-- It stops its job (R220, R575). -/
  | stop (s : State) (reason : Nat) (key : Key) (detail : Nat)
  /-- The job has left the tile (R204). -/
  | left (s : State)

/-- Put a core back into its tile. -/
def State.setCore (s : State) (t : Nat) (c : Core) : State := s.modTile t fun x => { x with core := some c }

/-- The exception record (R572). -/
def excBytes (replay : Bool) (void cause pc entrySlot : Nat) (key : Key) (word now t : Nat) : List Byte :=
  [0x81, BitVec.ofNat 8 (b2n replay), BitVec.ofNat 8 void, BitVec.ofNat 8 cause] ++ leBytes 2 pc ++ leBytes 2 entrySlot ++
  leBytes 12 key.toNat ++ leBytes 4 word ++ leBytes 8 0 ++ leBytes 8 now ++ leBytes 2 t ++ leBytes 6 0

/-- The instruction word at an address of the job's bank. -/
def State.imemWord (s : State) (t : Nat) (c : Core) (pc : Nat) : Nat :=
  ((s.tile t).half (s.bedHalf t c.bank)).imem.num pc 4

/-- Entry and image slot of a core, as records carry them. -/
def Core.entrySlot (c : Core) : Nat := c.entry % 256 + 256 * (c.image % 4)

/-- An exception (R217 to R219): cause and pc, the flag, the record; the tile releases its holds and leaves the job. -/
def State.raiseExc (s : State) (t : Nat) (c : Core) (cause : Nat) : State :=
  let s := (s.setReg (tileBase t + 0x1C) (BitVec.ofNat 32 cause)).setReg (tileBase t + 0x20) (BitVec.ofNat 32 (c.pc % 65536))
  let s := s.tileFlag t 5
  let void := s.voidOf c.id
  let s := (s.makeRecord (s.serving (t / 128)) 2 (some c.nextKey)
    (excBytes s.replaying void cause c.pc c.entrySlot c.nextKey (s.imemWord t c c.pc) s.time.now t)).countVoid void
  let s := s.modTile t fun x => { x with core := none }
  s.modJob c.id fun j => { j with excepted := true }

/-- The job is a cycle (R575). -/
def State.isCycle (s : State) (id : JobId) : Bool := match s.job id with | some j => decide (j.kind = 1) | none => false

/-- An exception; for a cycle job a poisoned fetch stops the whole job (R575). -/
def State.excAt (s : State) (t : Nat) (c : Core) (cause : Nat) : State :=
  let s' := s.raiseExc t c cause
  if cause = 9 then
    let s' := s'.mark c.id 4
    if s.isCycle c.id then s'.stopJob c.id 0x0F 0 0 t else s'
  else s'

/-- What a read of poison does: a cycle job stops, any other is marked and runs on (R575). -/
def readGate (s : State) (c : Core) (bad : Bool) (k : State → NtRes) : NtRes :=
  if bad then (if s.isCycle c.id then .stop s 0x0F 0 0 else k (s.mark c.id 4)) else k s

/-- The end of an instruction: the pc advances, and running past the last word raises PC_RANGE at it (R210). -/
def State.settle (s : State) (t : Nat) (c0 : Core) : NtRes → State
  | .done c s' => if c0.pc + 4 < s.imemSize t then s'.setCore t { c with pc := c0.pc + 4, blocked := false } else s.excAt t c0 7
  | .jump c s' pc => s'.setCore t { c with pc := pc, blocked := false }
  | .raise cause => s.excAt t c0 cause
  | .wait => s.setCore t { c0 with blocked := true }
  | .hold c s' => s'.setCore t { c with blocked := true }
  | .stop s' reason key detail => s'.stopJob c0.id reason key detail t
  | .left s' => s'

/-- The issue of one instruction on a tile (R205, R206, R211): fetch errors, the encoding, the guard, then its meaning.
A tile that runs no job, or whose core waits for a reply, issues nothing (log 26; log 27). -/
def State.issue (s : State) (t : Fin 512) (g : Issue) (illegal : Core → Bool) (f : Core → State → NtRes) : State :=
  match (s.tile t).core with
  | none => s
  | some c =>
    if c.wait.isSome || !s.tileOn t then s else
    let h := s.bedHalf t c.bank
    let s := match g.ecc with
      | none => s
      | some false => s.memCe t 2 c.pc c.id.stamp
      | some true => s.memUe t h 2 c.pc c.id.stamp
    if anyPoison ((s.tile t).half h).imemPoison c.pc 4 then s.excAt t c 9
    else if g.stray || (g.pn && g.pg == 0) || illegal c then s.excAt t c 1
    else if c.p g.pg == g.pn then s.settle t c (.done c s)
    else s.settle t c (f c s)

/-- No further encoding rule. -/
def anyEnc (_ : Core) : Bool := false

/-- An instruction that only changes the core (scalar, predicate, address and control registers, facet state). -/
def State.issueCore (s : State) (t : Fin 512) (g : Issue) (f : Core → Core) : State :=
  s.issue t g anyEnc fun c s => .done (f c) s

end Sys2Proof.Machine
end

