-- ==== Sys2Proof/Machine/NtPort.lean ====
section
/-! DEFINITION. What a tile sends and takes (03, 04, 08, 09): messages, credits, horizons, input streams, the end of a job on a tile. -/

namespace Sys2Proof.Machine

/-- The node where a place's messages begin and end (R110). -/
def nodeOf : Place → Node
  | .tile t => .tile t
  | .apply d => .apply d
  | .stack n => .stack n
  | .mesa d u => .mesa d u

/-- Flits of a message (R101, R102): a horizon is one, an item a head and its body flits. -/
def Msg.flits (m : Msg) : Nat := if m.horizon then 1 else 1 + (m.item.body.length + 63) / 64

/-- Put a message into the network at its source. -/
def State.inject (s : State) (m : Msg) : State :=
  { s with net := { s.net with hops := s.net.hops ++ [{ place := nodeOf m.src, msg := m, here := m.flits, left := m.flits }] } }

/-- Slots that the destination reserves for each tile (R105). -/
def slotCap : Place → Nat
  | .apply _ => 4
  | .mesa _ _ => 2
  | .stack _ => 8
  | .tile _ => 0

/-- A message of a tile on a stream has not left the tile. -/
def State.unsent (s : State) (t stream : Nat) : Bool :=
  s.net.hops.any fun h => decide (h.place = .tile t ∧ h.msg.src = .tile t ∧ h.msg.cls = 2 ∧ h.msg.stream = stream ∧ h.left = h.msg.flits)
    && !h.msg.horizon

/-- The destination in an output descriptor's RING field, in the layout of sideband bits [15:6] (R101, R197). -/
def ringDest (ring : BitVec 64) : Place :=
  let v := ring.toNat
  let die := bitsOf v 8 7
  if v.testBit 9 then .mesa (die % 2) (bitsOf v 3 0) else .tile (128 * die + 16 * bitsOf v 6 4 + bitsOf v 3 0)

/-- The log writer, the actuation unit and the apply units as destinations (R101). -/
def logDest (die : Nat) : Place := .mesa die 2
def actDest (die : Nat) : Place := .mesa die 1

/-- A message of a job on a tile. -/
def Core.msg (c : Core) (t : Nat) (dest : Place) (cls stream : Nat) (item : Item) : Msg :=
  { src := .tile t, dest, cls, admitted := c.admitted, horizon := false, prod := c.prod, stream, item }

/-- A HORIZON of a producer on an output stream (R73, R250). -/
def Core.horizonMsg (c : Core) (t : Nat) (d : Desc) (prod : Nat) (key : Key) : Msg :=
  { src := .tile t, dest := ringDest d.ring, cls := 2, admitted := c.admitted, horizon := true, prod, stream := d.stream, item := { key } }

/-- Operations that wait in an engine's queue, and its room (R214): 0 facet, 1 vector, 2 gather/scatter, 3 stream, 4 cairn. -/
def Tile.queued (x : Tile) (e : Nat) : Nat := (x.flight.filter fun f => decide (f.engine = e)).length
def engineRoom : Nat → Nat
  | 0 => 4
  | 1 => 2
  | 2 => 2
  | _ => 4
def State.queueFull (s : State) (t e : Nat) : Bool := decide (engineRoom e ≤ (s.tile t).queued e)

/-- Note an operation in flight (R138; log 26). -/
def State.fly (s : State) (t e : Nat) (reads writes : List Extent) : State :=
  s.modTile t fun x => { x with flight := x.flight ++ [{ engine := e, reads, writes }] }

/-! ### Input streams (R71, R139, R249, R250) -/

/-- A source's frontier (R71): its oldest item's key, or its horizon; a loose source has none (R74). -/
def MSource.frontier (m : MSource) : Option Nat :=
  if m.loose then none
  else match m.held with
    | [] => some m.horizon.toNat
    | x :: _ => some x.key.toNat

/-- Every source of a port lies at or beyond a key; a source that has sent nothing has not begun. -/
def InPort.beyond (p : InPort) (k : Nat) : Bool :=
  decide (p.sources ≤ p.srcs.length) && p.srcs.all fun m => match m.frontier with | none => true | some f => decide (k ≤ f)

/-- The input stream of a kind and number at a tile. -/
def Tile.port (x : Tile) (kind stream : Nat) : InPort :=
  (x.ports.find? fun p => decide (p.kind = kind ∧ p.stream = stream)).getD { kind, stream, sources := 0 }
def Tile.setPort (x : Tile) (p : InPort) : Tile :=
  { x with ports :=
      if x.ports.any fun q => decide (q.kind = p.kind ∧ q.stream = p.stream) then
        x.ports.map fun q => if q.kind = p.kind ∧ q.stream = p.stream then p else q
      else x.ports ++ [p] }

/-- A key belongs to a job (R249). -/
def ofJob (id : JobId) (k : Key) : Bool := decide (firstKey id ≤ k.toNat ∧ k.toNat < lastKey id)

/-- What SGET finds at a stream (R249): items of earlier jobs are discarded; port items (KIND 1 to 5) carry their own stamps and belong to the reader. -/
def InPort.head (p : InPort) (id : JobId) : InPort × Option Item :=
  if p.kind = 0 then
    let rest := p.released.dropWhile fun i => decide (i.key.toNat < firstKey id)
    let q := { p with released := rest }
    match rest with
    | i :: _ => if ofJob id i.key then (q, some i) else (q, none)
    | [] => (q, none)
  else (p, p.released.head?)

/-- The stream holds no more of the job's items (R249). -/
def InPort.ended (p : InPort) (id : JobId) : Bool :=
  (p.released.any fun i => decide (lastKey id ≤ i.key.toNat)) || p.beyond (lastKey id)

/-- Discard what a job left at a stream (R250). -/
def InPort.discard (p : InPort) (id : JobId) : InPort :=
  { p with
    released := if p.kind = 0 then p.released.filter fun i => decide (lastKey id ≤ i.key.toNat) else []
    srcs := p.srcs.map fun m => { m with held := m.held.filter fun i => !ofJob id i.key } }

/-- The bytes that SGET copies (R235, R249): a record for a partial node, else the body in whole flits. -/
def Item.copy (i : Item) : List Byte :=
  if i.nodeN > 0 then leBytes 8 (i.nodeA % 2 ^ 20 + i.nodeN % 2 ^ 13 * 2 ^ 20) ++ padTo 256 i.body
  else padTo (roundUp i.body.length 64) i.body

/-! ### Closing streams, and the end of a job on a tile (R204, R250, R270) -/

/-- Close one descriptor as SCLOSE does. -/
def State.closeDesc (s : State) (t : Nat) (c : Core) (d : Desc) : State :=
  match d.state with
  | .openOut =>
    let prods := if d.used = [] then [c.prod] else d.used
    prods.foldl (fun s p => s.inject (c.horizonMsg t d p (BitVec.ofNat 96 (lastKey c.id)))) s
  | .openIn => s.modTile t fun x => x.setPort ((x.port d.kind d.stream).discard c.id)
  | .absent => s
  | .closed => s

/-- The CLOSE message to one die's apply unit (R269, R270). -/
def Core.closeMsg (c : Core) (t k void : Nat) : Msg :=
  { c.msg t (.apply k) 1 0 { key := mkKey c.id 0 0, void, body := leBytes 64 0x07 } with prods := (c.emits.map (·.1) ++ [c.prod]).eraseDups }

/-- The live erg dies. -/
def State.liveErgs (s : State) : List Nat := (List.range 4).filter fun k => s.ergLive k

/-- A tile of a job has ended at JEND; the job is committed when the last of its tiles has (R23, R204, R399). -/
def State.tileEnded (s : State) (t : Nat) (id : JobId) : State :=
  let s := s.modTile t fun x => { x with core := none }
  let s := s.modJob id fun j =>
    let rest := j.running.filter fun u => decide (u ≠ t)
    { j with running := rest, committed := j.committed || (decide (rest = []) && decide (j.stopped = none)) }
  match s.job id with
  | some j => if j.committed ∧ j.kind = 3 then s.hostJobOver id else s
  | none => s

end Sys2Proof.Machine
end

