-- ==== Sys2Proof/Machine/Lanes.lean ====
section
/-! DEFINITION. Merge points (03 R71 to R75; 16 R408 to R411, R415): horizon lags of the ingress ports, the two lanes of a mesa die, the input streams of tiles (log 20). -/

namespace Sys2Proof.Machine

/-- The field inputs of a die, and their replacement. -/
def State.die (s : State) (j : Nat) : DieIngress := s.ingress.toList.getD j {}
def State.setDie (s : State) (j : Nat) (d : DieIngress) : State := { s with ingress := s.ingress.setIfInBounds j d }
def State.modDie (s : State) (j : Nat) (f : DieIngress → DieIngress) : State := s.setDie j (f (s.die j))

/-! ### Input log (R565, R566) -/

/-- An input-log record; replay work never enters the log (R94). -/
def State.logInput (s : State) (die kind outcome flags : Nat) (key : Key) (data : List Byte) : State :=
  if s.replaying then s else
  s.makeRecord die 0 (some key)
    ([0x01, BitVec.ofNat 8 kind, BitVec.ofNat 8 outcome, BitVec.ofNat 8 flags] ++ leBytes 4 data.length ++ leBytes 8 (key.toNat / 2 ^ 32) ++
     leBytes 4 key.toNat ++ leBytes 4 0 ++ data)

/-- A key from a stamp and a sequence word. -/
def keyOf (st : Stamp) (seq : Nat) : Key := BitVec.ofNat 96 (st.toNat * 2 ^ 32 + seq)

/-! ### Port settings (16) -/

/-- MESA_TRIG_CFG of an input, in the bank of a pin event (R411, R415). -/
def State.trigCfg (s : State) (j : Nat) (old : Bool) (n : Nat) : Word := s.bankWord j old (mesaBase j + 0x100000 + 4 * n)

/-- MESA_LOOSE_CTL bit of a port class (R74): 0 triggers, 1 cameras, 2 tags, 3 CAN, 4 Ethernet. -/
def State.looseClass (s : State) (j : Nat) (old : Bool) (b : Nat) : Bool := bit (s.bankWord j old (mesaBase j + looseCtlOff)) b

/-- The registers of a camera stream, with READOUT_MAX, FRAME_MIN and SLOTS in ns and slots (R424). -/
def camBase (die stream : Nat) : Nat := mesaBase die + 0x120000 + 0x20 * stream
def State.camEn (s : State) (die stream : Nat) : Bool := s.fuses.optV && bit (s.reg (camBase die stream)) 0
/-- The stream that Dunewatch watches: its receiver counts as enabled (R361). -/
def State.dwWatch (s : State) (die stream : Nat) : Bool :=
  let w := s.bankWord 0 false 0x6010
  s.fuses.optD && s.fuses.optV && bit (s.reg 0x6000) 0 && !bit w 0 && decide (die = 0 ∧ fld w 12 8 = stream)
def State.readoutMax (s : State) (die stream : Nat) : Nat := 1000 * fld (s.reg (camBase die stream + 0x0C)) 19 0
def State.frameMin (s : State) (die stream : Nat) : Nat := 10000 * fld (s.reg (camBase die stream + 0x08)) 15 0
def State.camSlots (s : State) (die stream : Nat) : Nat := fld (s.reg (camBase die stream + 0x08)) 19 16 + 1

/-- The registers of a tag port, and its LAG (R427). -/
def tagBase (die port : Nat) : Nat := mesaBase die + 0x140000 + 0x40 * port
def State.tagEn (s : State) (die port : Nat) : Bool := s.fuses.optT && bit (s.reg (tagBase die port)) 0
def State.tagLag (s : State) (die p : Nat) : Nat := 100 * fld (s.reg (tagBase die p + 0x0C)) 9 0

/-- The CAN block of a controller (R436; layout of its words: log 5). -/
def canBase (die ctl : Nat) : Nat := mesaBase die + 0x160000 + 0x400 * ctl
def State.canEn (s : State) (die ctl : Nat) : Bool := bit (s.reg (canBase die ctl)) 0

/-- T_frame in ns (R434): core clock periods of 12.5 ns, rounded up. -/
def State.canFrameTime (s : State) (die ctl : Nat) : Nat :=
  let n := s.reg (canBase die ctl + 4)
  let d := s.reg (canBase die ctl + 8)
  let nom := (fld n 7 0 + 1) * (3 + fld n 15 8 + fld n 22 16)
  let dat := (fld d 4 0 + 1) * (3 + fld d 9 5 + fld d 13 10)
  let clocks := if bit (s.reg (canBase die ctl)) 1 then 70 * nom + 700 * dat else 160 * nom
  (clocks * 25 + 1) / 2

/-- An Ethernet port block. -/
def ethBase (die port : Nat) : Nat := mesaBase die + 0x180000 + 0x400 * port
def State.ethEn (s : State) (die port : Nat) : Bool := bit (s.reg (ethBase die port)) 0

/-! ### Horizons of the ingress ports (R25, R73, R409, R415) -/

/-- The horizon lag of a trigger input. -/
def State.trigLag (s : State) (j n : Nat) : Nat := 40 + 8 * fld (s.trigCfg j false n) 10 3

/-- The time of a trigger input's horizon: it never falls when a slip changes the lag (R415). -/
def State.trigHorizon (s : State) (j n : Nat) : Time :=
  let now := s.time.now
  let new := s.trigLag j n
  let old := ((s.die j).trig.toList.getD n {}).oldLag
  match s.slip.lastPoint with
  | none => now - new
  | some p => if old ≤ new then max (p - old) (now - new) else if now < p + old then now - old else now - new

/-- The horizon key of a port: its time with the tiebreak byte and the sequence word at zero (R73). -/
def timeKey (t : Time) : Key := BitVec.ofNat 96 (t / 2 % 2 ^ 56 * 256 * 2 ^ 32)

/-- A source of a lane that its configuration makes it feed: its tiebreak byte, the time of its horizon, its loose mark. -/
structure LaneSource where
  byte : Nat
  horizon : Time
  loose : Bool
  deriving DecidableEq, Repr

/-- The sources of a lane that are trigger inputs and camera streams. -/
def State.trigSources (s : State) (j : Nat) (bound : Bool) : List LaneSource :=
  ((List.range 32).filter fun n =>
    let c := s.trigCfg j false n
    bit c 0 && (!bound || decide (fld c 23 19 < 16))).map fun n =>
      { byte := n / 16 * 32 + 16 * j + n % 16, horizon := s.trigHorizon j n, loose := s.looseClass j false 0 }
def camByte (j n : Nat) : Nat := (2 + n / 16) * 32 + 16 * j + n % 16
def State.camSources (s : State) (j : Nat) (lag : Nat → Nat) : List LaneSource :=
  ((List.range 24).filter fun n => s.camEn j n).map fun n => { byte := camByte j n, horizon := s.time.now - lag n, loose := s.looseClass j false 1 }

/-- The remaining sources of the data lane. -/
def State.slowSources (s : State) (j : Nat) : List LaneSource :=
  (((List.range 8).filter fun n => s.tagEn j n).map fun n =>
    { byte := 3 * 32 + 16 * j + 8 + n, horizon := s.time.now - s.tagLag j n, loose := s.looseClass j false 2 }) ++
  (((List.range 4).filter fun n => s.canEn j n).map fun n =>
    { byte := 4 * 32 + 16 * j + n, horizon := s.time.now - (1000 + s.canFrameTime j n), loose := s.looseClass j false 3 }) ++
  (((List.range 4).filter fun n => s.ethEn j n).map fun n =>
    { byte := 4 * 32 + 16 * j + 4 + n, horizon := s.time.now - (if bit (s.reg (ethBase j n)) 1 then 5000 else 9400)
      loose := s.looseClass j false 4 })

/-- The sources of the admission lane, and of the data lane (R408, R409). -/
def State.laneSources (s : State) (j : Nat) (admission : Bool) : List LaneSource :=
  if admission then s.trigSources j true ++ s.camSources j fun _ => 40
  else s.trigSources j false ++ (s.camSources j fun n => s.readoutMax j n + 2000) ++ s.slowSources j

/-- The items that a lane holds. -/
def State.lane (s : State) (j : Nat) (admission : Bool) : List MSource := if admission then (s.die j).adm else (s.die j).data
def State.setLane (s : State) (j : Nat) (admission : Bool) (l : List MSource) : State :=
  s.modDie j fun d => if admission then { d with adm := l } else { d with data := l }

/-- The source with a number; one that has sent nothing. -/
def sourceOf (l : List MSource) (src : Nat) : MSource := (l.find? fun m => decide (m.src = src)).getD { src, horizon := 0 }
def putSource (l : List MSource) (m : MSource) : List MSource :=
  if l.any fun x => decide (x.src = m.src) then l.map fun x => if x.src = m.src then m else x else l ++ [m]

/-- The lane as its merge sees it: every source that feeds it or holds an item, with its horizon of the moment. -/
def State.laneView (s : State) (j : Nat) (admission : Bool) : List MSource :=
  let held := s.lane j admission
  let conf := s.laneSources j admission
  let known := conf.map fun c =>
    let m := sourceOf held c.byte
    { m with loose := c.loose, horizon := if m.horizon.toNat < (timeKey c.horizon).toNat then timeKey c.horizon else m.horizon }
  known ++ held.filter fun m => decide (m.held ≠ []) && !conf.any fun c => decide (c.byte = m.src)

/-! ### Release (R71, R72, R74, R75) -/

/-- The source whose head a merge releases: a loose one at once, else the head below every other frontier. -/
def pickSource (l : List MSource) : Option MSource :=
  match l.find? fun m => m.loose && decide (m.held ≠ []) with
  | some m => some m
  | none => l.find? fun m => match m.held with
    | [] => false
    | i :: _ => l.all fun q => decide (q.src = m.src) || (match q.frontier with | none => true | some f => decide (i.key.toNat < f))

/-- Two sources that hold items with equal keys (R72). -/
def tiedKey (l : List MSource) : Option Key :=
  (l.filterMap fun m => match m.held with
    | [] => none
    | i :: _ => if l.any fun q => decide (q.src ≠ m.src) && (match q.held with | x :: _ => decide (x.key = i.key) | [] => false) then some i.key else none).head?

/-- An item that passes a merge with a loose source carries LOOSE (R75, R89). -/
def markLoose (l : List MSource) (i : Item) : Item := if l.any fun m => m.loose then { i with void := i.void ||| 1 } else i

/-! ### Arrival at a lane (R27, R71) -/

/-- The KIND and STREAM under which a lane item is delivered (R415, R424, R431, R435, R403): by class and index of its stamp. -/
def itemKind (byte : Nat) : Nat × Nat :=
  let n := byte % 16
  match byte / 32 with
  | 0 => (3, n)
  | 1 => (3, 16 + n)
  | 2 => (1, n)
  | 3 => if n < 8 then (1, 16 + n) else (2, n - 8)
  | _ => if n < 4 then (4, n) else (5, n - 4)

/-- A late ingress (R27): the record in the keyed lane, the exclusion in the input log, TAG_LATE of a tag port (R427). -/
def State.lateIngress (s : State) (j byte : Nat) (i : Item) : State :=
  let s := s.fault j (some i.key) { cls := 0x0003, sev := 0, kind := 2, index := j, stamp := keyStamp i.key, detail := byte }
  let s := s.logInput j 2 0xFF 0 i.key i.body
  if (itemKind byte).1 = 2 then s.inFlag j 8 else s

/-- An item reaches a lane: it is held, or excluded when its port's horizon has passed its stamp. -/
def State.laneArrive (s : State) (j : Nat) (admission : Bool) (byte : Nat) (i : Item) : State :=
  let m := (s.laneView j admission).find? fun m => decide (m.src = byte)
  let late := match m with | some m => !m.loose && decide (i.key.toNat < m.horizon.toNat) | none => false
  if late then (if admission then s else s.lateIngress j byte i)
  else
    let l := s.lane j admission
    let x := sourceOf l byte
    s.setLane j admission (putSource l { x with held := x.held ++ [i] })

/-- A horizon reaches a source of a lane: it never falls. -/
def State.laneHorizon (s : State) (j : Nat) (admission : Bool) (byte : Nat) (h : Key) : State :=
  let l := s.lane j admission
  let x := sourceOf l byte
  s.setLane j admission (putSource l { x with horizon := if x.horizon.toNat < h.toNat then h else x.horizon })

/-! ### Port items at the tiles (16; log 35) -/

/-- A port's horizon on the data lane of a die lies beyond every key of a stamp. -/
def State.portPast (s : State) (j kind stream : Nat) (id : JobId) : Bool :=
  ((s.laneView j false).filter fun m => decide ((itemKind m.src).1 = kind ∧ ((itemKind m.src).2 = stream ∨ stream = 0xFFFF))).all fun m =>
    match m.frontier with | none => true | some f => decide (lastKey id ≤ f)

/-- Whether an item of the data lane is delivered on a descriptor. -/
def wantsItem (kind stream : Nat) (i : Item) : Bool :=
  let k := itemKind ((keyStamp i.key).toNat % 256)
  decide (k.1 = kind ∧ (k.2 = stream ∨ (kind = 3 ∧ stream = 0xFFFF)))

/-- The cycle of a job. -/
def State.cycleOf (s : State) (id : JobId) : Option Cycle := s.cycles.find? fun c => decide (c.id = id)

/-- Cut bytes into items of at most 2048 bytes. -/
def chunks2048 (bs : List Byte) : List (List Byte) := (List.range ((bs.length + 2047) / 2048)).map fun k => (bs.drop (2048 * k)).take 2048

/-- With PUSH set, the rows of a frame's slot, in plane and row order, under the frame's stamp (R424). -/
def State.pushItems (s : State) (j stream : Nat) (i : Item) : List Item :=
  if !bit (s.reg (camBase j stream)) 12 then [] else
  let w := leAt i.body 8 2
  let h := leAt i.body 0xA 2
  let planes : List Nat := if byteAt i.body 0xD = 1 then [w, w / 2, w / 2] else if byteAt i.body 0xC = 3 then [2 * w] else [w]
  let rows := (planes.foldl (fun (r : Nat × List (List Byte)) len =>
    (r.1 + roundUp len 64 * h, r.2 ++ (List.range h).flatMap fun y => chunks2048 (s.resv.mem.bytes (r.1 + roundUp len 64 * y) len)))
    (leAt i.body 0 8, [])).2
  rows.zipIdx.map fun x => { i with key := keyOf (keyStamp i.key) (x.2 + 1), body := x.1 }

/-- The items that a job finds on a port's stream when it opens it: a cycle the tag records of its input set, any other job the items of its own stamp. -/
def State.portItems (s : State) (j kind stream : Nat) (id : JobId) : List Item :=
  let all := ((s.die j).items.filter fun i => wantsItem kind stream i).flatMap fun i => i :: (if kind = 1 then s.pushItems j stream i else [])
  match s.cycleOf id with
  | some c => if kind = 2 then all.filter fun i => decide (i.key ∈ c.tags) else []
  | none => all.filter fun i => decide (keyStamp i.key = id.stamp)

/-- An open port stream holds no more items for a job (R249): a cycle's tag records are all there, any other port has passed the job's keys. -/
def State.portEnded (s : State) (j kind stream : Nat) (id : JobId) : Bool :=
  ((s.cycleOf id).isSome && decide (kind = 2)) || s.portPast j kind stream id

/-- An item released on the data lane reaches the open descriptors that name it; the tag records of a cycle are fixed by its input set. -/
def State.deliverItem (s : State) (j : Nat) (i : Item) : State :=
  { s with tiles := s.tiles.map fun x =>
      match x.2.core with
      | none => x
      | some c =>
        if s.serving (x.1 / 128) ≠ j then x else
        (x.1, { x.2 with ports := x.2.ports.map fun p =>
          if p.kind ≠ 0 && wantsItem p.kind p.stream i && !((s.cycleOf c.id).isSome && decide (p.kind = 2)) &&
              c.desc.toList.any (fun d => decide (d.state = .openIn ∧ d.kind = p.kind ∧ d.stream = p.stream))
          then { p with released := p.released ++ [i] } else p }) }

end Sys2Proof.Machine
end

