-- ==== Sys2Proof/Config.lean ====
section
/-! DEFINITION. What an implementation fixes and the spec leaves open: constants without a body, so that no proof can see a value. -/

namespace Sys2Proof.Config

/-- The fused safe table V_safe(f) of a die (R350), as a voltage code, by erg die and 100 MHz step (log 40). -/
opaque vSafe : Nat → Nat → Nat

/-- The 64 features of the Dunewatch network for its two input channels (R365): the fixed weights are in ROM (log 41). -/
opaque dwFeature : List Nat → List Nat → Nat → BitVec 8

/-- Fields of a Dunewatch record that no rule fills for its change (R378, log 51): by the free-value counter and field number. -/
opaque dwOpenField : Nat → Nat → BitVec 64

/-- DW_ROM_ID (R365, log 41). -/
opaque dwRomId : BitVec 32

/-- The bytes of the `n`th challenge nonce (R601, log 42). -/
opaque nonceByte : Nat → Nat → BitVec 8

/-- The JEP106 manufacturer code of the JTAG identification code (R600, log 43). -/
opaque idcode : BitVec 11

/-- The frequency correction that the time servo sets, from its former one and the measured offset, before it is limited (R406, log 52). -/
opaque servoFreq : Int → Int → Int

/-- What an internal scan shifts out (R601, log 43). -/
opaque scanBits : Nat → List (BitVec 8)

/-- The rate estimate of a tag (R430) from its former rate, the ticks and the time between two frames, before clamping (log 44). -/
opaque rateEstimate : Nat → Nat → Nat → Nat

/-- Subsystem vendor and device identification of the host link's configuration space (R381, log 45). -/
opaque subsystemId : BitVec 32

/-- LEN of a log entry longer than its 16-bit field can say (R562, log 48). -/
opaque longLen : Nat → BitVec 16

/-- The target index in the completion of a load that selected no target section (R289, log 49). -/
opaque noTarget : BitVec 8

/-- What a register read returns for a poisoned word of a mesa bank or of the ledger, from its offset and the station time (R574, log 56). -/
opaque poisonWord : Nat → Nat → BitVec 32

/-- The revision letter of the attached BZ31 chips, in ASCII (R547, R556, log 61). -/
opaque chipRev : BitVec 8

end Sys2Proof.Config
end

