-- ==== Sys2Proof/Machine/BzCore.lean ====
section
/-! DEFINITION. A BZ31 chip's shared operations: settings, holds, flags, frames, checksum and register reads (18 R494, R495, 19 R530, R531, 20 R541, R547 to R549, R556, R557). -/

namespace Sys2Proof.Machine

/-- A settings word (R494). -/
def Settings.word (s : Settings) (off : Nat) : Word := mget bzSettingReset s off

/-- A settings block with one word written: every value is stored as written (R494). -/
def Settings.put (s : Settings) (off : Nat) (w : Word) : Settings := mset bzSettingReset s off w

/-- A settings block with the 16 words of a 64-byte chunk written (R458). -/
def Settings.putChunk (s : Settings) (chunk : Nat) (bytes : List Byte) : Settings :=
  (List.range 16).foldl (fun acc i => acc.put (chunk * 64 + 4 * i) (BitVec.ofNat 32 (leAt bytes (4 * i) 4))) s

/-- The 2048 bytes of a settings block (R311). -/
def Settings.bytes (s : Settings) : List Byte :=
  (List.range 512).flatMap fun i => leBytes 4 (s.word (4 * i)).toNat

/-- The checksum of a settings block (R315). -/
def Settings.sum (s : Settings) : Nat := crc64 s.bytes

/-- The value of a field within its range: a value outside acts as the nearest one inside (R494). -/
def clampTo (lo hi v : Nat) : Nat := max lo (min hi v)

/-- The bank of event-shaping settings that a stamp selects (R313, R327). -/
def Chip.evBank (c : Chip) (st : Stamp) : Settings :=
  if 2 * (st.toNat / 256) < c.slipPoint then c.retiring.getD c.crest else c.crest

/-- PAIR of high-side channels 2k and 2k+1 (R465). -/
def Chip.hsPair (c : Chip) (n : Nat) : Bool :=
  decide (n < 6) && bit (c.crest.word (0x20 * (n / 2 * 2))) 1

/-- Channel 2k+1 of a pair (R465). -/
def Chip.hsUpper (c : Chip) (n : Nat) : Bool := decide (n % 2 = 1) && c.hsPair n

/-- The channel that stands for a channel: the lower one of its pair (R465). -/
def Chip.hsRep (c : Chip) (n : Nat) : Nat := if c.hsUpper n then n - 1 else n

/-- The parallel pair bit of a solenoid output (R499). -/
def Chip.solPair (c : Chip) (n : Nat) : Bool :=
  bit (c.crest.word (0x3B0 + 0x10 * (n / 4))) (if n % 4 < 2 then 24 else 25)

/-- The higher output of a pair (R499). -/
def Chip.solUpper (c : Chip) (n : Nat) : Bool := decide (n % 2 = 1) && c.solPair n

/-- A latched trip whose mask names the output: bit 8+n of a high-side channel, bit 20+n of a solenoid output (R545, R556). -/
def Chip.tripHeld (c : Chip) (maskBit : Nat) : Bool :=
  (List.finRange 4).any fun t => c.trips[t] && bit (c.crest.word (0x6B0 + 4 * t.val)) maskBit

/-- A trip holds a high-side channel; a trip of either switch holds a pair (R465). -/
def Chip.hsTrip (c : Chip) (n : Nat) : Bool :=
  c.tripHeld (8 + n) || (c.hsPair n && n % 2 == 0 && c.tripHeld (9 + n))

/-- A trip holds a solenoid output; a trip of either output holds a pair (R499). -/
def Chip.solTrip (c : Chip) (n : Nat) : Bool :=
  c.tripHeld (20 + n) || (c.solPair n && n % 2 == 0 && c.tripHeld (21 + n))

/-- A supply hold (R534). -/
def Chip.supplyHeld (c : Chip) : Bool := c.underV || c.overV

/-- HOLD_LAST and LIMP hold every output (R535). -/
def Chip.stateHeld (c : Chip) : Bool := c.supervisor == .holdLast || c.supervisor == .limp

/-- A hold from outside the channel: trip, supply or supervisor (R468, R535). -/
def Chip.hsExtHeld (c : Chip) (n : Fin 12) : Bool :=
  c.hsTrip n.val || c.supplyHeld || c.stateHeld

/-- The HELD bit of a high-side channel (R547); a hold of either switch of a pair holds the pair. -/
def Chip.hsHeld (c : Chip) (n : Fin 12) : Bool := c.hsExtHeld n || c.hs[n].state == .fault

def Chip.solExtHeld (c : Chip) (n : Fin 12) : Bool :=
  c.solTrip n.val || c.supplyHeld || c.stateHeld

/-- The HELD bit of a solenoid output (R547). An output that decays toward FAULT counts as held. -/
def Chip.solHeld (c : Chip) (n : Fin 12) : Bool :=
  c.solExtHeld n || c.sol[n].phase == .fault || c.sol[n].toFault

/-- The output that stands for an output: the lower one of its pair (R499). -/
def Chip.solRep (c : Chip) (n : Fin 12) : Fin 12 := if c.solUpper n.val then ⟨n.val - 1, by omega⟩ else n

/-- Index 0 to 11 of a frame as a channel or output number. -/
def idx12 (i : Nat) : Option (Fin 12) := if h : i < 12 then some ⟨i, h⟩ else none

/-- Change one channel. -/
def Chip.hsSet (c : Chip) (n : Fin 12) (h : HsChan) : Chip := { c with hs := c.hs.set n h }

/-- Change one output. -/
def Chip.solSet (c : Chip) (n : Fin 12) (o : SolOut) : Chip := { c with sol := c.sol.set n o }

/-- Change one bank. -/
def Chip.bankSet (c : Chip) (b : Fin 3) (k : SolBank) : Chip := { c with bank := c.bank.set b k }

/-- The bank of an output (R496). -/
def bankOf (n : Fin 12) : Fin 3 := ⟨n.val / 4, by omega⟩

/-- The counter byte of a BZ_HS_STS flag (R495): OVERLOAD; THERMAL; OPEN_ON and OPEN_OFF; CLEAR_REFUSED and SUPPRESSED. -/
def hsCntByte : Nat → Option Nat
  | 0 => some 0
  | 1 => some 1
  | 4 => some 2
  | 5 => some 2
  | 9 => some 3
  | 10 => some 3
  | _ => none

/-- Set a BZ_HS_STS flag and count its event (R495, R581). -/
def HsChan.flag (h : HsChan) (n : Nat) : HsChan :=
  { h with
    sts := h.sts ||| oneBit n
    cnt := match hsCntByte n with
      | some b => satByte h.cnt b 1
      | none => h.cnt }

/-- The counter byte of a BZ_SOL_STS flag (R531). -/
def solCntByte : Nat → Option Nat
  | 0 => some 0
  | 1 => some 0
  | 8 => some 1
  | 9 => some 1
  | 13 => some 2
  | 14 => some 2
  | 5 => some 3
  | _ => none

/-- Set a BZ_SOL_STS flag and count its event (R531, R581). -/
def SolOut.flag (o : SolOut) (n : Nat) : SolOut :=
  { o with
    sts := o.sts ||| oneBit n
    cnt := match solCntByte n with
      | some b => satByte o.cnt b 1
      | none => o.cnt }

/-- The counter byte of a BZ_CHIP_STS flag (R557): trips count on their own; LOSS 1, UNDERVOLT 2, CLEAR_REFUSED 3. -/
def chipCntByte : Nat → Option Nat
  | 18 => some 1
  | 16 => some 2
  | 21 => some 3
  | _ => none

/-- Set a BZ_CHIP_STS flag and count its event (R557, R581). -/
def Chip.flag (c : Chip) (n : Nat) : Chip :=
  { c with
    sts := c.sts ||| oneBit n
    cnt := match chipCntByte n with
      | some b => satByte c.cnt b 1
      | none => c.cnt }

/-- The filtered limp index 2 × LH1 + LH0 (R540). -/
def Chip.limpIndex (c : Chip) : Nat := 2 * b2n c.lh1 + b2n c.lh0

/-- The latched trips as a number. -/
def tripsNat (t : Vector Bool 4) : Nat := b2n t[0] + 2 * b2n t[1] + 4 * b2n t[2] + 8 * b2n t[3]

/-- What the chip samples at a tick: HELD, CHIP_FLAGS and LIMP_INFO (R547, R548). -/
def Chip.sample (c : Chip) : BzSample :=
  { held :=
      ((List.finRange 12).map fun n => b2n (c.hsHeld n) * 2 ^ n.val).sum
        + ((List.finRange 12).map fun n => b2n (c.solHeld n) * 2 ^ (12 + n.val)).sum
    flags :=
      b2n c.crank + 2 * b2n c.underV + 4 * b2n c.overV + 8 * b2n (c.supervisor == .holdLast)
        + 16 * b2n (c.supervisor == .limp) + 32 * b2n (tripsNat c.trips != 0) + 64 * b2n c.locked
        + 128 * b2n (c.supervisor == .powerup)
    limp := c.limpIndex + 4 * (b2n c.lh0 + 2 * b2n c.lh1) + 16 * tripsNat c.trips }

/-- VS in units of 0.2 V, to the nearest (R547). -/
def Chip.vsUnits (c : Chip) : Nat := min 255 ((c.vs + 100) / 200)

/-- The revision letter of the chips: a free value (log 61). -/
def bzRev : Nat := Config.chipRev.toNat

/-- Queue a frame for sending (R548). -/
def Chip.send (c : Chip) (f : BzFrame) : Chip := { c with tx := c.tx ++ [f] }

/-- Queue a REPLY with the time of its result (R456). -/
def Chip.reply (c : Chip) (id result : Nat) (t : Time) : Chip := c.send (.reply id result t)

/-- Queue an EVENT status frame with the present sample (R548). -/
def Chip.sendStatusEvent (c : Chip) (tick : Time) : Chip :=
  { c.send (.status 1 c.eseq tick c.sample c.vsUnits bzRev) with
    eseq := (c.eseq + 1) % 256, reported := some c.sample }

/-- Queue an IDENT frame: TIME holds the crest checksum (R547, R548). -/
def Chip.sendIdent (c : Chip) : Chip :=
  c.send (.status 2 c.eseq c.crest.sum c.sample c.vsUnits bzRev)

/-- The order in which the chip sends its frames (R548): REPLY, EVENT, SLIP_ACK, REG_DATA, then PERIODIC and IDENT. -/
def BzFrame.prio : BzFrame → Nat
  | .reply .. => 0
  | .status 1 .. => 1
  | .slipAck .. => 2
  | .regData .. => 3
  | .status .. => 4

/-- A frame's bytes with its CRC (R454). -/
def withCrc (bs : List Byte) : List Byte := bs ++ leBytes 2 (crc16 bs)

/-- The bytes of a frame from the chip (R456, R458, R547, R549; log 38). -/
def BzFrame.bytes (lseq : Nat) : BzFrame → List Byte
  | .reply id r t => withCrc (leBytes 1 0x81 ++ leBytes 1 lseq ++ leBytes 2 id ++ leBytes 1 r ++ [0] ++ leBytes 8 t)
  | .status k e t s vs rev =>
    withCrc (leBytes 1 0x82 ++ leBytes 1 lseq ++ leBytes 1 k ++ leBytes 1 e ++ leBytes 8 t ++ leBytes 3 s.held
      ++ leBytes 1 s.flags ++ leBytes 1 s.limp ++ leBytes 1 vs ++ leBytes 1 rev ++ leBytes 3 0)
  | .slipAck op r id sum =>
    withCrc (leBytes 1 0x84 ++ leBytes 1 lseq ++ leBytes 1 op ++ leBytes 1 r ++ leBytes 2 id ++ leBytes 8 sum)
  | .regData r tag off d =>
    withCrc (leBytes 1 0x83 ++ leBytes 1 lseq ++ leBytes 1 r ++ leBytes 1 tag ++ leBytes 2 off ++ leBytes 4 d.toNat
      ++ leBytes 4 0)

/-- The first frame of the best priority in a queue, and the rest. -/
def takeBest (key : BzFrame → Nat) (q : List BzFrame) : Option (BzFrame × List BzFrame) :=
  match q with
  | [] => none
  | f :: fs =>
    let best := fs.foldl (fun b g => if key g < key b then g else b) f
    some (best, q.erase best)

/-- The state code of BZ_CHIP_STS (R557). -/
def Supervisor.code : Supervisor → Nat
  | .powerup => 0
  | .run => 1
  | .holdLast => 2
  | .limp => 3

/-- The STATE code of BZ_HS_STS (R495). -/
def HsState.code : HsState → Nat
  | .off => 0
  | .onDc => 1
  | .pwm => 2
  | .retryWait => 3
  | .thermalWait => 4
  | .fault => 5

/-- The STATE code of BZ_SOL_STS (R531). -/
def SolPhase.code : SolPhase → Nat
  | .idle => 0
  | .peak => 1
  | .dwell => 2
  | .hold => 3
  | .decay => 4
  | .rest => 5
  | .fault => 6

/-- C_BST, V_FLOOR of the store (R530). -/
def Chip.cBst (c : Chip) : Nat := clampTo 100 2200 (fld (c.crest.word 0x3A0) 11 0)
def Chip.vFloor (c : Chip) : Nat := 1000 * clampTo 20 44 (fld (c.crest.word 0x3A0) 17 12)

/-- The available energy of the store in units of 10⁻¹² J: C_BST in µF times mV², halved (R507). -/
def Chip.eAvail (c : Chip) : Nat :=
  if c.vBst ≤ c.vFloor then 0 else c.cBst * (c.vBst * c.vBst - c.vFloor * c.vFloor) / 2

/-- The coil temperature estimate (R515). -/
def Chip.thetaC (c : Chip) (n : Fin 12) : Rat := c.thetaAmb + c.sol[n].dt

/-- The current of an output as the shunt and the mirrors see it: a low-side switch that is off contributes none (R498). -/
def SolOut.sensed (o : SolOut) : Nat := if o.low then o.current else 0

/-- A temperature in units of 0.5 °C as a signed 16-bit field. -/
def halfDeg (t : Rat) : Nat := toTwos 16 (t * 2).floor

/-- A chip register read; `none` for an offset outside the chip's register space (R495, R531, R549, R557). -/
def Chip.regRead (c : Chip) (off : Nat) : Option Word :=
  if off % 4 ≠ 0 then none
  else if off = 0x000 then some (BitVec.ofNat 32 (bzRev + 0x0B31 * 2 ^ 16))
  else if off = 0x004 then
    some (c.sts ||| BitVec.ofNat 32 (c.supervisor.code + c.limpIndex * 8 + (b2n c.lh0 + 2 * b2n c.lh1) * 32
      + 128 * b2n c.locked + 256 * b2n c.crank))
  else if off = 0x008 then some (BitVec.ofNat 32 (c.vs % 2 ^ 16 + toTwos 16 (2 * c.logicTemp) * 2 ^ 16))
  else if off = 0x00C then some (BitVec.ofNat 32 (tripsNat c.tripPins + 256 * tripsNat c.trips))
  else if off = 0x010 then some 0
  else if off = 0x014 then some c.cnt
  else if 0x100 ≤ off && off < 0x1C0 then
    match idx12 ((off - 0x100) / 16) with
    | none => some 0
    | some n =>
      let h := c.hs[n]
      match off % 16 with
      | 0 => some (h.sts ||| BitVec.ofNat 32 (h.state.code * 2 ^ 16 + h.ol * 2 ^ 20))
      | 4 =>
        let up := idx12 (n.val + 1)
        let j := if c.hsPair n.val && n.val % 2 == 0 then
            max h.junction ((up.map fun m => c.hs[m].junction).getD h.junction) else h.junction
        some (BitVec.ofNat 32 ((if c.hsUpper n.val then 0 else min 0xFFFF h.current) + toTwos 16 j * 2 ^ 16))
      | 8 => some (BitVec.ofNat 32 ((h.x * 65536).floor.toNat + min 15 h.restarts * 2 ^ 18 + min 15 h.retries * 2 ^ 22))
      | _ => some h.cnt
  else if 0x200 ≤ off && off < 0x2C0 then
    match idx12 ((off - 0x200) / 16) with
    | none => some 0
    | some n =>
      let o := c.sol[n]
      match off % 16 with
      | 0 => some (o.sts ||| BitVec.ofNat 32 (o.phase.code * 2 ^ 16 + o.dipVerdict * 2 ^ 19 + o.kinkVerdict * 2 ^ 21))
      | 4 => some (BitVec.ofNat 32 (min 0xFFFF o.sensed + halfDeg (c.thetaC n) * 2 ^ 16))
      | 8 => some (BitVec.ofNat 32 (min 0xFFFF o.tDip + min 0xFFFF o.tKink * 2 ^ 16))
      | _ => some o.cnt
  else if 0x300 ≤ off && off < 0x330 then
    let b : Fin 3 := ⟨(off - 0x300) / 16 % 3, by omega⟩
    match off % 16 with
    | 0 => some c.bank[b].cnt
    | 4 => some (BitVec.ofNat 32 (min 0xFFFF (((List.finRange 12).filter fun m => m.val / 4 == b.val).map fun (m : Fin 12) => c.sol[m].sensed).sum + b2n c.bank[b].probeFailed * 2 ^ 16
        + b2n c.bank[b].probeExists * 2 ^ 17))
    | _ => some 0
  else if off = 0x340 then some (c.bstSts ||| BitVec.ofNat 32 (min 0xFFFF (c.vBst / 10) + b2n c.charging * 2 ^ 16))
  else if off = 0x344 then some (BitVec.ofNat 32 (c.eAvail / 1000000))
  else if 0x380 ≤ off && off < 0x3B0 then
    match idx12 ((off - 0x380) / 4) with
    | none => some 0
    | some n =>
      let o := c.sol[n]
      some (BitVec.ofNat 32 ((if o.dip.learning then 0 else min 0xFFFF o.dip.base)
        + (if o.kink.learning then 0 else min 0xFFFF o.kink.base) * 2 ^ 16))
  else if off < 0x400 then some 0
  else none

/-- Events stamped before the slip point still scheduled: the retiring event bank is kept for them (R327). -/
def Chip.oldScheduled (c : Chip) : Bool :=
  c.schedule.any fun e => decide (2 * (e.ev.stamp.toNat / 256) < c.slipPoint)

/-- Release the retiring event bank once its last event is resolved; lee is then refreshed from crest (R327). -/
def Chip.retireBank (c : Chip) : Chip :=
  if c.retiring.isSome && !c.oldScheduled then { c with retiring := none, lee := c.crest } else c

/-- The first scheduled event of an output that is due, least start first, then stamp, then order of receipt (R469). -/
def Chip.dueEvent (c : Chip) (kind : Nat) (n : Fin 12) (t : Time) : Option BzSched :=
  let due := c.schedule.filter fun e => e.ev.kind == kind && e.ev.index == n.val && decide (e.start ≤ t)
  due.foldl (fun b e => match b with
    | none => some e
    | some f => if e.start < f.start ∨ (e.start = f.start ∧ e.ev.stamp.toNat < f.ev.stamp.toNat) then some e else some f)
    none

/-- Take an event out of the schedule. -/
def Chip.unschedule (c : Chip) (e : BzSched) : Chip := { c with schedule := c.schedule.erase e }

end Sys2Proof.Machine
end

