-- ==== Sys2Proof/Machine/BzHigh.lean ====
section
/-! DEFINITION. The protected high-side channels of a BZ31 (18): commands, PWM, limits, thermal, fuse, compensation and open-load rules, each on one chip. -/

namespace Sys2Proof.Machine

/-- Profile fields (R471). -/
def hpDuty (w0 : Word) : Nat := fld w0 12 0
def hpPeriod (w0 : Word) : Nat := fld w0 31 16
def hpInrush (w1 : Word) : Nat := fld w1 1 0
def hpComp (w1 : Word) : Bool := bit w1 2
def hpStretch (w1 : Word) : Bool := bit w1 3
def hpMTime (w1 : Word) : Nat := clampTo 1 200 (fld w1 15 8)

/-- A profile that is refused with BAD (R468, R471). -/
def hpBad (w0 w1 : Word) : Bool :=
  hpInrush w1 == 3 || decide (hpDuty w0 > 4096) || (decide (1 ≤ hpPeriod w0) && decide (hpPeriod w0 ≤ 99))
    || fld w0 15 13 != 0 || fld w1 7 4 != 0 || fld w1 31 18 != 0

/-- The two words of high-side profile `p` (R494). -/
def hsProf (s : Settings) (p : Nat) : Word × Word := (s.word (0x180 + 8 * p), s.word (0x184 + 8 * p))

/-- Channel settings in force (R494); a pair uses those of its lower channel (R465). -/
def Chip.hsCfg (c : Chip) (n : Nat) : Word := c.crest.word (0x20 * n)
def Chip.hsDiag (c : Chip) (n : Nat) : Word := c.crest.word (0x20 * n + 0x0C)
def Chip.hsEn (c : Chip) (n : Nat) : Bool := bit (c.hsCfg n) 0

/-- LIM_TIME in µs (R494). -/
def Chip.hsLimTime (c : Chip) (n : Nat) : Nat := 50 * clampTo 1 200 (fld (c.hsCfg n) 25 18)

/-- ILIM in mA, within the range of its class (R464, R465). -/
def Chip.hsIlim (c : Chip) (n : Nat) : Nat :=
  let v := fld (c.hsCfg n) 17 8
  50 * (if c.hsPair n then clampTo 40 320 v else if n < 6 then clampTo 20 160 v else clampTo 8 60 v)

/-- The hardware current ceiling in mA (R464). -/
def Chip.hsCeiling (c : Chip) (n : Nat) : Nat := if c.hsPair n then 48000 else if n < 6 then 24000 else 9000

/-- The single-pulse clamp energy rating in µJ (R464). -/
def Chip.hsClampRating (c : Chip) (n : Nat) : Nat := if c.hsPair n then 192000 else if n < 6 then 120000 else 45000

/-- The active limit at time `t`: tripled within a mode M window, up to the ceiling (R474, R476). -/
def Chip.hsLimit (c : Chip) (n : Fin 12) (t : Time) : Nat :=
  match c.hs[n].mEnd with
  | some e => if hpInrush c.hs[n].w1 = 2 ∧ t < e then min (3 * c.hsIlim n) (c.hsCeiling n) else c.hsIlim n
  | none => c.hsIlim n

/-- FUSE_SEL and the model's i_n in mA and tau in µs (R479). -/
def Chip.hsFuse (c : Chip) (n : Nat) : Option (Nat × Nat) :=
  match fld (c.crest.word (0x20 * n + 4)) 2 0 with
  | 0 => none
  | 1 => some (4000, 8000000)
  | 2 => some (5000, 11000000)
  | 3 => some (6500, 15000000)
  | 4 => some (8000, 19000000)
  | 5 => some (10500, 26000000)
  | 6 => some (14000, 40000000)
  | _ =>
    let w := c.crest.word (0x20 * n + 8)
    some (10 * clampTo 10 3000 (fld w 15 0), 10000 * clampTo 10 12000 (fld w 31 16))

/-- The filtered supply: the mean of the last 256 samples, or the latest until there are 256 (R483). -/
def Chip.vsF (c : Chip) : Nat :=
  if c.vsWin.length < 256 then (c.vsWin.headD c.vs) else (c.vsWin.take 256).sum / 256

/-- The compensated duty (R482). -/
def Chip.compDuty (c : Chip) (duty : Nat) : Nat :=
  let vnom := clampTo 6000 36000 (fld (c.crest.word 0x380) 15 0)
  let v := c.vsF
  min 4096 ((duty * vnom * vnom + v * v / 2) / (v * v))

/-- The duty that a profile runs at (R482). -/
def Chip.dutyOf (c : Chip) (w0 w1 : Word) : Nat :=
  if hpComp w1 ∧ hpPeriod w0 > 0 then c.compDuty (hpDuty w0) else hpDuty w0

/-- The on-time of period `k` in ns (R472, R487). -/
def onTimeNs (duty periodUs : Nat) (stretch : Bool) (k : Nat) : Nat :=
  let ns := 100 * ((duty * periodUs * 10 + 2048) / 4096)
  if stretch && decide (0 < duty) && decide (ns < 50000) && decide ((k + 1) % 256 = 0) && decide (100 ≤ periodUs)
  then 50000 else ns

/-- The switch turns off at `t`: the overload timer resets and an off time starts (R474, R488). -/
def HsChan.turnOff (h : HsChan) (t : Time) : HsChan :=
  { h with on := false, limUs := 0, offSince := if h.on then t else h.offSince, olActive := h.on || h.olActive }

/-- The switch turns on at `t`: an off-state check in progress ends (R488), and the first on edge of a mode M command opens its window (R476). -/
def HsChan.turnOn (h : HsChan) (t : Time) : HsChan :=
  { h with
    on := true, olSource := false, olActive := false
    mEnd := if hpInrush h.w1 = 2 ∧ h.mEnd = none then some (t + hpMTime h.w1 * 1000000) else h.mEnd }

/-- Start period `k` at `t` with duty `d` (R472). -/
def HsChan.startPeriod (h : HsChan) (k : Nat) (d : Nat) (t : Time) : HsChan :=
  let on := onTimeNs d (hpPeriod h.w0) (hpStretch h.w1) k
  let h1 := { h with period := k, periodStart := t, offAt := t + on, duty := d, nextDuty := d }
  if on = 0 then h1.turnOff t else h1.turnOn t

/-- Enter the state of the command in force (R467, R472, R491). -/
def HsChan.start (h : HsChan) (duty : Nat) (t : Time) : HsChan :=
  match h.act with
  | 1 => { h.turnOn t with state := .onDc, onSince := t }
  | 3 => { h.turnOn t with state := .onDc, onSince := t }
  | 4 =>
    if hpPeriod h.w0 = 0 then
      if hpDuty h.w0 > 0 then { h.turnOn t with state := .onDc, onSince := t } else { h.turnOff t with state := .off }
    else { h.startPeriod 0 duty t with state := .pwm, onSince := t }
  | _ => { h.turnOff t with state := .off }

/-- Replace the command in force (R467); in RETRY_WAIT, THERMAL_WAIT the channel turns on only when the wait ends (R491). -/
def Chip.hsCommand (c : Chip) (n : Fin 12) (act : Nat) (w0 w1 : Word) (durUs : Nat) (t : Time) : Chip :=
  let h := { c.hs[n] with
    act := act, w0 := w0, w1 := w1, pulseEnd := if act = 3 then some (t + durUs * 1000) else none
    retries := 0, restarts := 0, mEnd := none, nextDuty := c.dutyOf w0 w1 }
  if h.state = .retryWait ∨ h.state = .thermalWait then c.hsSet n h
  else c.hsSet n (h.start (c.dutyOf w0 w1) t)

/-- A command that finds its channel held is dropped and counted (R468). -/
def Chip.hsSuppress (c : Chip) (n : Fin 12) : Chip := c.hsSet n (c.hs[n].flag 10)

/-- End the channel's command at a hold from outside: the channel turns off and waits in OFF (R534, R545). -/
def Chip.hsEnd (c : Chip) (n : Fin 12) (t : Time) : Chip :=
  let h := c.hs[n]
  c.hsSet n { h.turnOff t with act := 2, pulseEnd := none, state := if h.state = .fault then .fault else .off }

/-- Put the channel in the fault hold with a latching flag (R491, R492). -/
def Chip.hsFault (c : Chip) (n : Fin 12) (f : Nat) (t : Time) : Chip :=
  let h := c.hs[n].turnOff t
  c.hsSet n { h.flag f with act := 2, pulseEnd := none, state := .fault, latch := h.latch ||| oneBit f }

/-- The checks of an EVENT frame for a high-side channel (R468): 4 BAD, 3 HELD, 0 SCHEDULED. -/
def Chip.hsCheck (c : Chip) (action index profile durUs : Nat) (s : Settings) : Nat :=
  match idx12 index with
  | none => 4
  | some n =>
    let p := hsProf s profile
    if action = 0 ∨ action > 4 ∨ profile > 63 ∨ (action = 3 ∧ (durUs = 0 ∨ durUs > 16000000)) then 4
    else if !c.hsEn n.val || c.hsUpper n.val || hpBad p.1 p.2 then 4
    else if c.hsHeld n || c.supervisor == .powerup then 3
    else 0

/-- BZ_HS_EVENT_RECEIVE on the chip: the checks of R468 and the one reply of R456. -/
def Chip.hsReceive (c : Chip) (e : BzEvent) (t : Time) : Chip :=
  match c.hsCheck e.action e.index e.profile e.durationUs (c.evBank e.stamp) with
  | 0 => ({ c with schedule := c.schedule ++ [BzSched.mk e e.fire] }).reply e.id 0 t
  | r => c.reply e.id r t

/-- BZ_HS_EVENT_FIRE on the chip: the first due event of the channel takes effect, or is suppressed (R469, R468). -/
def Chip.hsFire (c : Chip) (n : Fin 12) (t : Time) : Chip :=
  match c.dueEvent 0 n t with
  | none => c
  | some e =>
    let p := hsProf (c.evBank e.ev.stamp) e.ev.profile
    let c1 := c.unschedule e
    let c2 := if c.hsHeld n || c.hsUpper n.val then c1.hsSuppress n
      else c1.hsCommand n e.ev.action p.1 p.2 e.ev.durationUs t
    c2.retireBank

/-- A REFLEX command at a high-side channel (R468, R469): it uses the crest bank of the moment. -/
def Chip.hsReflex (c : Chip) (r : BzReflex) (t : Time) : Chip :=
  match idx12 r.index with
  | none => c
  | some n =>
    match c.hsCheck r.action r.index r.profile r.durationUs c.crest with
    | 0 =>
      let p := hsProf c.crest r.profile
      c.hsCommand n r.action p.1 p.2 r.durationUs t
    | _ => c.hsSuppress n

/-- HS_PULSE_END: exactly DURATION_US after the command took effect the output turns off as if by OFF (R467). -/
def Chip.hsPulseEnd (c : Chip) (n : Fin 12) (t : Time) : Chip :=
  match c.hs[n].pulseEnd with
  | some e => if e ≤ t then c.hsCommand n 2 c.hs[n].w0 c.hs[n].w1 0 t else c
  | none => c

/-- HS_PWM_PERIOD: the next period starts when the present one has lasted PERIOD_US (R472); a new compensated duty applies from it (R482). -/
def Chip.hsPeriod (c : Chip) (n : Fin 12) (t : Time) : Chip :=
  let h := c.hs[n]
  if h.state = .pwm ∧ h.periodStart + 1000 * hpPeriod h.w0 ≤ t then
    c.hsSet n (h.startPeriod (h.period + 1) h.nextDuty (h.periodStart + 1000 * hpPeriod h.w0))
  else c

/-- The two ways an assessment enters OL (R489): `some true` OPEN, `some false` GOOD, `none` NOT_ASSESSED; `onKind` for the on-state check. -/
def HsChan.assess (h : HsChan) (olCount : Nat) (onKind : Bool) : Option Bool → HsChan
  | none => h
  | some false => { h with ol := 1, olOnRun := 0, olOffRun := 0 }
  | some true =>
    let h1 := if onKind then { h with olOnRun := h.olOnRun + 1, olOffRun := 0 }
      else { h with olOffRun := h.olOffRun + 1, olOnRun := 0 }
    if h1.ol ≠ 2 ∧ olCount ≤ (if onKind then h1.olOnRun else h1.olOffRun) then
      { h1 with ol := 2 }.flag (if onKind then 4 else 5)
    else h1

/-- OL_COUNT (R494). -/
def Chip.olCount (c : Chip) (n : Nat) : Nat := clampTo 1 15 (fld (c.hsDiag n) 15 12)

/-- The on-state assessment of a mean current (R486): NOT_ASSESSED when disabled, in CRANK, at the limit, or after a short on-time. -/
def Chip.olOnResult (c : Chip) (n : Fin 12) (onNs meanMa : Nat) : Option Bool :=
  if bit (c.hsDiag n) 0 && !c.crank && c.hs[n].limUs == 0 && decide (50000 ≤ onNs) then
    some (decide (meanMa < clampTo 10 500 (fld (c.hsDiag n) 10 2)))
  else none

/-- HS_PWM_OFF_EDGE: the on-time ends, the on-state check runs and the output turns off (R472, R486). -/
def Chip.hsOffEdge (c : Chip) (n : Fin 12) (meanMa : Nat) (t : Time) : Chip :=
  let h := c.hs[n]
  if h.state = .pwm ∧ h.on ∧ h.offAt ≤ t ∧ h.offAt < h.periodStart + 1000 * hpPeriod h.w0 then
    let h1 := h.assess (c.olCount n) true (c.olOnResult n (h.offAt - h.periodStart) meanMa)
    c.hsSet n (h1.turnOff h.offAt)
  else c

/-- HS_DC_OL_CHECK: under DC ON, or at duty 4096, the on-state check runs once per 10 ms (R486). -/
def Chip.hsDcCheck (c : Chip) (n : Fin 12) (meanMa : Nat) (t : Time) : Chip :=
  let h := c.hs[n]
  let dc := h.state = .onDc ∨ (h.state = .pwm ∧ h.periodStart + 1000 * hpPeriod h.w0 ≤ h.offAt)
  if dc ∧ h.on ∧ h.onSince + 10000000 ≤ t ∧ h.lastOnCheck + 10000000 ≤ t then
    c.hsSet n { h.assess (c.olCount n) true (c.olOnResult n 50000 meanMa) with lastOnCheck := t }
  else c

/-- HS_OVERLOAD: the overload timer reaches LIM_TIME (R474); mode L retries up to 8 times (R475). -/
def Chip.hsOverload (c : Chip) (n : Fin 12) (limUs : Nat) (t : Time) : Chip :=
  let h := { c.hs[n] with limUs := limUs }
  if h.on ∧ c.hsLimTime n ≤ limUs then
    if hpInrush h.w1 = 1 ∧ h.retries < 8 then
      c.hsSet n { (h.turnOff t).flag 0 with state := .retryWait, waitEnd := t + 2000000, retries := h.retries + 1 }
    else (c.hsSet n h).hsFault n 0 t
  else c.hsSet n h

/-- HS_RETRY_END: 2 ms after an overload the channel takes its command again, once its junction is at 160 °C or below (R475, R477). -/
def Chip.hsRetryEnd (c : Chip) (n : Fin 12) (junction : Int) (t : Time) : Chip :=
  let h := { c.hs[n] with junction := junction }
  if h.state = .retryWait ∧ h.waitEnd ≤ t ∧ junction ≤ 320 then c.hsSet n (h.start (c.dutyOf h.w0 h.w1) t)
  else c.hsSet n h

/-- HS_RETRY_RESET: 100 ms of the command without an overload return the retry count to 0 (R475). -/
def Chip.hsRetryReset (c : Chip) (n : Fin 12) (t : Time) : Chip :=
  let h := c.hs[n]
  if (h.state = .onDc ∨ h.state = .pwm) ∧ h.onSince + 100000000 ≤ t then c.hsSet n { h with retries := 0 } else c

/-- HS_M_WINDOW_END: the limit returns to ILIM (R476). The window stays opened, so it opens once per command. -/
def Chip.hsMEnd (c : Chip) (n : Fin 12) (t : Time) : Chip :=
  match c.hs[n].mEnd with
  | some e => if e ≤ t then c.hsSet n { c.hs[n] with mEnd := some 0, limUs := 0 } else c
  | none => c

/-- HS_THERMAL_SHUTDOWN: a junction at 175 °C turns the channel off (R477). Temperatures in units of 0.5 °C. -/
def Chip.hsThermal (c : Chip) (n : Fin 12) (junction : Int) (t : Time) : Chip :=
  let h := { c.hs[n] with junction := junction }
  if 350 ≤ junction then
    let h1 := h.flag 1
    if h.state = .fault then c.hsSet n h1
    else if fld (c.hsCfg n) 29 26 ≤ h.restarts then (c.hsSet n h1).hsFault n 2 t
    else if h.state = .onDc ∨ h.state = .pwm then c.hsSet n { h1.turnOff t with state := .thermalWait }
    else c.hsSet n h1
  else c.hsSet n h

/-- HS_THERMAL_RESTART: at 160 °C or below the channel takes its command again (R477). -/
def Chip.hsThermalRestart (c : Chip) (n : Fin 12) (junction : Int) (t : Time) : Chip :=
  let h := { c.hs[n] with junction := junction }
  if h.state = .thermalWait ∧ junction ≤ 320 then
    c.hsSet n ({ h with restarts := h.restarts + 1 }.start (c.dutyOf h.w0 h.w1) t)
  else c.hsSet n h

/-- One update of the wire model (R478), x held within 0 to 4. -/
def fuseStep (x : Rat) (iMa inMa tauUs : Nat) : Rat :=
  let r : Rat := ((iMa : Rat) / inMa) ^ 2
  max 0 (min 4 (x + (r - x) * 100 / tauUs))

/-- HS_FUSE_TRIP (R480): the model at or above 1 turns the channel off into the fault hold, once. -/
def Chip.hsFuseTrip (c : Chip) (n : Fin 12) (t : Time) : Chip :=
  let h := c.hs[n]
  if (c.hsFuse n).isSome ∧ 1 ≤ h.x ∧ bit h.latch 3 = false then c.hsFault n 3 t else c

/-- HS_FUSE_UPDATE: every 100 µs (R478). -/
def Chip.hsFuseUpdate (c : Chip) (n : Fin 12) (iMa : Nat) (t : Time) : Chip :=
  match c.hsFuse n with
  | none => c.hsSet n { c.hs[n] with current := iMa }
  | some (i, tau) => (c.hsSet n { c.hs[n] with current := iMa, x := fuseStep c.hs[n].x iMa i tau }).hsFuseTrip n t

/-- HS_COMP_UPDATE: once per ms the compensated duty is recomputed (R482). -/
def Chip.hsComp (c : Chip) (n : Fin 12) : Chip :=
  let h := c.hs[n]
  if h.state = .pwm ∧ hpComp h.w1 then c.hsSet n { h with nextDuty := c.compDuty (hpDuty h.w0) } else c

/-- HS_CLAMP_END: an estimate above the single-pulse rating sets CLAMP_E (R485). The off time of R488 counts from here. -/
def Chip.hsClampEnd (c : Chip) (n : Fin 12) (uj : Nat) (t : Time) : Chip :=
  if c.hs[n].on then c else
    let c1 := c.hsSet n { c.hs[n] with offSince := t, olActive := true }
    if c.hsClampRating n < uj then c1.hsFault n 7 t else c1

/-- OL_OFF_TH in mV (R494). -/
def Chip.olOffTh (c : Chip) (n : Nat) : Nat := 20 * clampTo 50 200 (fld (c.hsDiag n) 23 16)

/-- HS_OL_OFF_SOURCE_ON: 50 µs into the off time the output is sampled; above the threshold it is shorted to VS, else the source turns on (R488). -/
def Chip.hsOlSource (c : Chip) (n : Fin 12) (outMv : Nat) (t : Time) : Chip :=
  let h := c.hs[n]
  let due : Bool := match h.lastOffCheck with
    | none => true
    | some p => decide (p + 10000000 ≤ t)
  if bit (c.hsDiag n) 1 ∧ !h.on ∧ h.olActive ∧ h.offSince + 50000 ≤ t ∧ due ∧ !c.crank then
    let h1 := { h with lastOffCheck := some t, olActive := false }
    if c.olOffTh n < outMv then c.hsSet n (h1.flag 6) else c.hsSet n { h1 with olSource := true }
  else c

/-- HS_OL_OFF_SAMPLE: 200 µs into the off time the output is sampled and the source turns off (R488, R489). -/
def Chip.hsOlSample (c : Chip) (n : Fin 12) (outMv : Nat) (t : Time) : Chip :=
  let h := c.hs[n]
  if h.olSource ∧ h.offSince + 200000 ≤ t then
    c.hsSet n { h.assess (c.olCount n) false (if c.crank then none else some (decide (c.olOffTh n < outMv))) with olSource := false }
  else c

/-- HS_PAIR_IMBALANCE: more than 30 % of the total for 1 ms without a break (R490). -/
def Chip.hsImbalance (c : Chip) (n : Fin 12) (iA iB us : Nat) (t : Time) : Chip :=
  let d := max iA iB - min iA iB
  if c.hsPair n ∧ n.val % 2 = 0 ∧ c.hs[n].on ∧ 2000 ≤ iA + iB ∧ 3 * (iA + iB) < 10 * d ∧ 1000 ≤ us then c.hsFault n 8 t
  else c

/-- The higher junction of a channel or of its pair, in units of 0.5 °C. -/
def Chip.hsHot (c : Chip) (n : Fin 12) : Int :=
  match idx12 (n.val + 1) with
  | some m => if c.hsPair n && n.val % 2 == 0 then max c.hs[n].junction c.hs[m].junction else c.hs[n].junction
  | none => c.hs[n].junction

/-- The limp entry of a high-side channel (R541). -/
def Chip.limpByte (c : Chip) (i : Nat) : Nat :=
  let off := 0x700 + 0x20 * c.limpIndex + i
  bitsOf (c.crest.word (off / 4 * 4)).toNat (8 * (off % 4) + 7) (8 * (off % 4))

/-- A high-side channel takes its limp entry, unless it is held by a fault, a trip or the supply (R541). -/
def Chip.hsTakeLimp (c : Chip) (n : Fin 12) (t : Time) : Chip :=
  if c.hsUpper n.val || c.hs[n].state == .fault || c.hsTrip n.val || c.supplyHeld then c else
    let e := c.limpByte n.val
    let p := hsProf c.crest (e / 4)
    match e % 4 with
    | 3 => c
    | 0 => c.hsCommand n 2 p.1 p.2 0 t
    | 1 => if hpBad p.1 p.2 then c.hsCommand n 2 p.1 p.2 0 t else c.hsCommand n 1 p.1 p.2 0 t
    | _ => if hpBad p.1 p.2 then c.hsCommand n 2 p.1 p.2 0 t else c.hsCommand n 4 p.1 p.2 0 t

/-- A W1C write to BZ_HS_STS (R493): refused clears set CLEAR_REFUSED; the channel leaves FAULT when no latching flag is left, and then takes its limp entry when the chip is in LIMP (R541). -/
def Chip.hsClear (c : Chip) (n : Fin 12) (mask : Word) (t : Time) : Chip :=
  let h := c.hs[n]
  let refuseFuse := bit mask 3 && bit h.sts 3 && decide ((1 : Rat) / 2 < h.x)
  let refuseTh := bit mask 2 && bit h.sts 2 && decide (320 < c.hsHot n)
  let keep := (if refuseFuse then oneBit 3 else 0) ||| (if refuseTh then oneBit 2 else 0)
  let eff := mask &&& 0x7FF &&& ~~~keep
  let h1 := { h with sts := h.sts &&& ~~~eff, latch := h.latch &&& ~~~eff }
  let h2 := if refuseFuse || refuseTh then h1.flag 9 else h1
  if h.state = .fault ∧ h2.latch = 0 then
    let c1 := c.hsSet n { h2 with state := .off, act := 2 }
    if c.supervisor = .limp then c1.hsTakeLimp n t else c1
  else c.hsSet n h2

end Sys2Proof.Machine
end

