-- ==== Sys2Proof/Machine/BzSol.lean ====
section
/-! DEFINITION. The solenoid banks of a BZ31 (19): profiles, phases, the boost store, overlap arbitration, coil model, movement detection and diagnostics, each on one chip (log 62). -/

namespace Sys2Proof.Machine

/-- A solenoid profile's four words (R500). -/
structure SolProf where
  w0 : Word
  w1 : Word
  w2 : Word
  w3 : Word
  deriving DecidableEq, Repr

def SolProf.peakI (p : SolProf) : Nat := fld p.w0 7 0
def SolProf.holdI (p : SolProf) : Nat := fld p.w0 16 8
def SolProf.boost (p : SolProf) : Bool := bit p.w0 17
def SolProf.fastEnd (p : SolProf) : Bool := bit p.w0 18
def SolProf.move (p : SolProf) : Bool := bit p.w0 19
def SolProf.slackUs (p : SolProf) : Nat := fld p.w0 31 20
def SolProf.peakMin (p : SolProf) : Nat := fld p.w1 11 0
def SolProf.peakMax (p : SolProf) : Nat := fld p.w1 23 12
def SolProf.dwellUs (p : SolProf) : Nat := 10 * fld p.w2 9 0
def SolProf.holdUs (p : SolProf) : Nat := fld p.w2 31 12
def SolProf.kinkUs (p : SolProf) : Nat := 10 * fld p.w3 7 0

/-- The profile an output runs. -/
def SolOut.prof (o : SolOut) : SolProf := ⟨o.w0, o.w1, o.w2, o.w3⟩

/-- An invalid profile (R500). -/
def SolProf.bad (p : SolProf) : Bool :=
  fld p.w1 31 24 != 0 || fld p.w2 11 10 != 0 || fld p.w3 31 8 != 0
    || (p.peakI != 0 && (decide (p.peakI < 20) || decide (240 < p.peakI)))
    || (p.holdI != 0 && (decide (p.holdI < 10) || decide (400 < p.holdI)))
    || (p.peakI != 0 && p.holdI != 0 && decide (50 * p.peakI < 10 * p.holdI))
    || (p.peakI != 0 && decide (p.peakMax ≤ p.peakMin))

/-- Solenoid profile `p` of a settings block (R530). -/
def solProf (s : Settings) (p : Nat) : SolProf :=
  ⟨s.word (0x4A0 + 16 * p), s.word (0x4A4 + 16 * p), s.word (0x4A8 + 16 * p), s.word (0x4AC + 16 * p)⟩

/-- Output settings (R530). -/
def Chip.solCfg (c : Chip) (n : Nat) : Word := c.crest.word (0x3E0 + 0x10 * n)
def Chip.solEn (c : Chip) (n : Nat) : Bool := bit (c.solCfg n) 0
def Chip.tCoilMax (c : Chip) (n : Nat) : Nat := clampTo 100 200 (fld (c.solCfg n) 15 8)
def Chip.dtMax (c : Chip) (n : Nat) : Nat := clampTo 10 150 (fld (c.solCfg n) 23 16)
def Chip.moveTolUs (c : Chip) (n : Nat) : Nat := 10 * clampTo 1 255 (fld (c.solCfg n) 31 24)
def Chip.solMdet (c : Chip) (n : Nat) : Word := c.crest.word (0x3EC + 0x10 * n)

/-- Bank settings (R530): CHOP_US, HOLD_MAX and PEAK_SUM_MAX in mA. -/
def bankCfg (s : Settings) (b : Nat) : Word := s.word (0x3B0 + 0x10 * b)
def chopNs (s : Settings) (b : Nat) : Nat := 1000 * clampTo 20 100 (fld (bankCfg s b) 6 0)
def holdMaxMa (s : Settings) (b : Nat) : Nat := 50 * clampTo 10 160 (fld (bankCfg s b) 15 8)
def peakSumMaxMa (s : Settings) (b : Nat) : Nat := 100 * clampTo 10 200 (fld (bankCfg s b) 23 16)

/-- Switches that carry an output's coil current: 2 for a pair (R499). -/
def Chip.solMult (c : Chip) (n : Nat) : Nat := if c.solPair n then 2 else 1

/-- Coil currents of a profile in mA (R499, R500). -/
def Chip.solPeakMa (c : Chip) (n : Nat) (p : SolProf) : Nat := 50 * p.peakI * c.solMult n
def Chip.solHoldMa (c : Chip) (n : Nat) (p : SolProf) : Nat := 10 * p.holdI * c.solMult n

/-- e_est in units of 10⁻¹² J: 48 V × PEAK_I × (PEAK_MAX + PEAK_DWELL), 0 without boost (R507). -/
def Chip.eEst (c : Chip) (n : Nat) (p : SolProf) : Nat :=
  if p.boost then 2400000 * p.peakI * (p.peakMax + p.dwellUs) * c.solMult n else 0

/-- An output in PEAK or DWELL. -/
def SolOut.peaking (o : SolOut) : Bool := o.phase == .peak || o.phase == .dwell

/-- An output in PEAK, DWELL or HOLD. -/
def SolOut.running (o : SolOut) : Bool := o.peaking || o.phase == .hold

/-- The e_est of a scheduled event for a peak of bank `b` that starts in the µs `us`: events of the other banks that start in the same µs count, unless they are held (19 corner cases). -/
def Chip.sameUsEst (c : Chip) (b us : Nat) (e : BzSched) : Nat :=
  match idx12 e.ev.index with
  | some m =>
    if e.ev.kind == 1 && decide (e.start / 1000 = us) && m.val / 4 != b && !c.solHeld m && !c.solUpper m then
      c.eEst m (solProf (c.evBank e.ev.stamp) e.ev.profile)
    else 0
  | none => 0

/-- What counts with the peak of output `n` that starts in the µs `us`: the peaks of the other banks in PEAK or DWELL, those that start in the same µs, and those already refused in it (R508, 19 corner cases). -/
def Chip.otherEst (c : Chip) (n : Fin 12) (us : Nat) : Nat :=
  let b := n.val / 4
  let others := (List.finRange 12).filter fun m => m.val / 4 != b && c.sol[m].peaking
  (others.map fun (m : Fin 12) => c.eEst m c.sol[m].prof).sum + (c.schedule.map (c.sameUsEst b us)).sum
    + ((c.refused.filter fun r => r.1 != b && r.2.1 == us).map (·.2.2)).sum

/-- The energy check of a peak that starts in the µs `us` (R508; log 62). -/
def Chip.energyOk (c : Chip) (n : Fin 12) (p : SolProf) (us : Nat) : Bool :=
  decide (c.eEst n p + c.otherEst n us ≤ c.eAvail)

/-- The end of a span (R511): with HOLD_TIME 0, the start of the next scheduled event of the same output, or none. -/
def spanEndIn (ws : List SolWin) (w : SolWin) : Option Time :=
  match w.spanEnd with
  | some e => some e
  | none =>
    let later := (ws.filter fun v => v.out == w.out && decide (w.start < v.start)).map (·.start)
    later.foldl (fun b s => match b with
      | none => some s
      | some x => some (min x s)) none

/-- Half-open windows overlap; an absent end is beyond every time (R511). -/
def overlaps (a : Time) (ae : Option Time) (b : Time) (be : Option Time) : Bool :=
  (match be with
    | none => true
    | some e => decide (a < e)) &&
  (match ae with
    | none => true
    | some e => decide (b < e))

/-- The windows of a profile that starts at `s` on output `n` (R511). -/
def Chip.solWin (c : Chip) (n : Nat) (p : SolProf) (s : Time) : SolWin :=
  let pk := s + 1000 * (p.peakMax + p.dwellUs + 20)
  { out := n, start := s, peakEnd := if p.peakI = 0 then none else some pk,
    spanEnd := if p.holdUs = 0 then none else some (pk + 1000 * p.holdUs), holdMa := c.solHoldMa n p }

/-- A span whose end has come keeps it (R511). -/
def endSpan (ws : List SolWin) (t : Time) (w : SolWin) : SolWin :=
  match spanEndIn ws w with
  | some e => if e ≤ t then { w with spanEnd := some e } else w
  | none => w

/-- The end of a window lies beyond `t`. -/
def endsAfter (t : Time) (e : Option Time) (open_ : Bool) : Bool :=
  match e with
  | none => open_
  | some x => decide (t < x)

/-- Windows still in force at `t`: the span or the peak window has not ended (R511; log 62). -/
def liveWins (ws : List SolWin) (t : Time) : List SolWin :=
  (ws.map (endSpan ws t)).filter fun w => endsAfter t w.spanEnd true || endsAfter t w.peakEnd false

/-- The latest end of a peak window in the bank that overlaps the peak window of `w` (R512). -/
def peakClash (ws : List SolWin) (w : SolWin) : Option Time :=
  match w.peakEnd with
  | none => none
  | some we =>
    let ends := ws.filterMap fun v => match v.peakEnd with
      | none => none
      | some ve => if overlaps w.start (some we) v.start (some ve) then some ve else none
    ends.foldl (fun b e => match b with
      | none => some e
      | some x => some (max x e)) none

/-- The current checks of R512 at a start: `true` when both sums are within the limits of the bank settings `cfg`. -/
def Chip.sumsOk (c : Chip) (cfg : Settings) (ws : List SolWin) (n : Fin 12) (p : SolProf) (w : SolWin) : Bool :=
  let others := ws.filter fun v => !(v.out == n.val && decide (v.start ≤ w.start))
  let during (e : Option Time) : Nat :=
    ((others.filter fun v => overlaps w.start e v.start (spanEndIn ws v)).map (·.holdMa)).sum
  let peakOk : Bool := match w.peakEnd with
    | none => true
    | some pe => decide (c.solPeakMa n p + during (some pe) ≤ peakSumMaxMa cfg (n.val / 4))
  peakOk && decide (w.holdMa + during (spanEndIn (ws ++ [w]) w) ≤ holdMaxMa cfg (n.val / 4))

/-- Overlap arbitration (R512): the start time, or `none` for OVERLAP. -/
def Chip.arbitrate (c : Chip) (cfg : Settings) (ws : List SolWin) (n : Fin 12) (p : SolProf) (fire : Time) :
    Nat → Time → Option Time
  | 0, _ => none
  | fuel + 1, s =>
    let w := c.solWin n p s
    match peakClash ws w with
    | some e => c.arbitrate cfg ws n p fire fuel e
    | none =>
      if c.sumsOk cfg ws n p w && decide (s - fire ≤ 1000 * p.slackUs) then some s else none

/-- No output of the bank in PEAK, DWELL or HOLD: its high-side turns off (R502). -/
def Chip.bankRest (c : Chip) (b : Fin 3) : Chip :=
  if (List.finRange 12).any fun m => m.val / 4 == b.val && c.sol[m].running then c
  else c.bankSet b { c.bank[b] with source := 0, vsAt := none }

/-- The bank high-side changes its source in 2 µs (R502). -/
def SolBank.toSource (k : SolBank) (src : Nat) (t : Time) : SolBank :=
  if k.source = src then k else { k with source := src, changeUntil := t + 2000 }

/-- A low-side switch that turns on ends a running probe with no result (R523). -/
def SolBank.noProbe (k : SolBank) : SolBank := { k with probing := false }

/-- Let the output's current decay (R502); outputs without current go straight on. -/
def Chip.solDecay (c : Chip) (n : Fin 12) (fast toFault : Bool) (t : Time) : Chip :=
  let o : SolOut := c.sol[n]
  let b := bankOf n
  let o1 := { o with low := false, toFault := toFault, reflex := false, tripPending := false }
  let c1 :=
    if o.running then
      let c2 := c.solSet n { o1 with phase := .decay, fast := fast, phaseStart := t, dipVerdict := if o.phase = .peak then 0 else o.dipVerdict }
      if o.peaking then c2.bankSet b { c2.bank[b] with vsAt := some (t + 20000) } else c2
    else if o.phase = .decay then c.solSet n { o1 with fast := o.fast || fast, toFault := o.toFault || toFault }
    else if toFault then
      c.solSet n { o1 with phase := .fault, toFault := false, kinkVerdict := if o.phase = .rest then 0 else o.kinkVerdict }
    else c.solSet n { o1 with toFault := false }
  c1.bankRest b

/-- A latching diagnostic: its flag, a fast decay, then FAULT (R527, R528). -/
def Chip.solFault (c : Chip) (n : Fin 12) (f : Nat) (t : Time) : Chip :=
  (c.solSet n { c.sol[n].flag f with latch := c.sol[n].latch ||| oneBit f }).solDecay n true true t

/-- End the output's command at a hold from outside: a fast decay, then IDLE (R534, R545). -/
def Chip.solEnd (c : Chip) (n : Fin 12) (t : Time) : Chip := c.solDecay n true false t

/-- Start a profile's first phase (R502, R505). -/
def Chip.solBegin (c : Chip) (n : Fin 12) (p : SolProf) (reflex : Bool) (t : Time) : Chip :=
  let o : SolOut := c.sol[n]
  let b := bankOf n
  let o1 := { o with
    w0 := p.w0, w1 := p.w1, w2 := p.w2, w3 := p.w3, phaseStart := t, reflex := reflex, openSuspect := false
    frozen := 0, peakSample := none, toFault := false
    dipVerdict := if o.phase = SolPhase.peak then 0 else o.dipVerdict
    kinkVerdict := if o.phase = SolPhase.rest ∨ o.phase = SolPhase.decay then 0 else o.kinkVerdict }
  if p.peakI ≠ 0 then
    let c1 := c.solSet n { o1 with phase := .peak, peakStart := t, low := true }
    c1.bankSet b { (c1.bank[b].noProbe.toSource (if p.boost then 2 else 1) t) with vsAt := none }
  else if p.holdI ≠ 0 then
    let c1 := c.solSet n { o1 with phase := .hold, low := true }
    let k := c1.bank[b].noProbe
    c1.bankSet b (if k.source = 0 then k.toSource 1 t else if o.peaking then { k with vsAt := some (t + 20000) } else k)
  else if o.phase = .idle then c.solSet n { o1 with phase := .idle }
  else if o.phase = .decay then c.solSet n { o1 with fast := p.fastEnd }
  else (c.solSet n { o1 with phase := if o.phase = SolPhase.rest then .hold else o.phase }).solDecay n p.fastEnd false t

/-- A REFLEX output in PEAK or DWELL gives way to a scheduled peak of its bank: HOLD, or DECAY without one (R514). -/
def Chip.reflexYield (c : Chip) (n : Fin 12) (t : Time) : Chip :=
  (List.finRange 12).foldl (fun a (m : Fin 12) =>
    let o : SolOut := a.sol[m]
    if m.val / 4 = n.val / 4 ∧ m ≠ n ∧ o.reflex ∧ o.peaking then
      if o.prof.holdI ≠ 0 then a.solSet m { o with phase := .hold, phaseStart := t, dipVerdict := if o.phase = .peak then 0 else o.dipVerdict }
      else a.solDecay m o.prof.fastEnd false t
    else a) c

/-- Count in byte `k` of BZ_SOL_BANK_CNT (R531). -/
def Chip.bankCount (c : Chip) (b : Fin 3) (k : Nat) : Chip :=
  c.bankSet b { c.bank[b] with cnt := satByte c.bank[b].cnt k 1 }

/-- The receipt checks of R501 before arbitration: 4 BAD, 3 HELD, 0 otherwise. -/
def Chip.solCheck (c : Chip) (action index profile : Nat) (s : Settings) : Nat :=
  match idx12 index with
  | none => 4
  | some n =>
    if action ≠ 4 ∨ 32 ≤ profile then 4
    else if (solProf s profile).bad || !c.solEn n || c.solUpper n then 4
    else if c.solHeld n || c.supervisor == .powerup then 3
    else 0

/-- BZ_SOL_EVENT_RECEIVE on the chip (R501, R512, R513). -/
def Chip.solReceive (c : Chip) (e : BzEvent) (t : Time) : Chip :=
  let s := c.evBank e.stamp
  match c.solCheck e.action e.index e.profile s, idx12 e.index with
  | 0, some n =>
    let b := bankOf n
    let p := solProf s e.profile
    let ws := liveWins c.bank[b].windows t
    let c1 := c.bankSet b { c.bank[b] with windows := ws }
    match c1.arbitrate s ws n p e.fire (ws.length + 1) e.fire with
    | none => (c1.bankCount b 0).reply e.id 1 t
    | some st =>
      let c2 := { c1 with schedule := c1.schedule ++ [BzSched.mk e st] }
      let c3 := c2.bankSet b { c2.bank[b] with windows := c2.bank[b].windows ++ [c2.solWin n p st] }
      let c4 := if e.fire < st then c3.bankCount b 1 else c3
      c4.reply e.id 0 t
  | r, _ => c.reply e.id r t

/-- An event refused whole for energy: BOOST_REFUSED, NOT_ASSESSED, the count, and REPLY 2 (R508, R521). -/
def Chip.boostRefuse (c : Chip) (n : Fin 12) (p : SolProf) (id us : Nat) (t : Time) : Chip :=
  let c1 := c.solSet n { c.sol[n].flag 11 with dipVerdict := 0, kinkVerdict := 0 }
  let c2 := { c1 with refused := (c.refused.filter fun (r : Nat × Nat × Nat) => r.2.1 == us) ++ [(n.val / 4, us, c.eEst n p)] }
  (c2.bankCount (bankOf n) 3).reply id 2 t

/-- BZ_SOL_EVENT_START on the chip: hold check, energy check, then the first phase (R501, R508). -/
def Chip.solStart (c : Chip) (n : Fin 12) (t : Time) : Chip :=
  match c.dueEvent 1 n t with
  | none => c
  | some e =>
    let p := solProf (c.evBank e.ev.stamp) e.ev.profile
    let c1 := c.unschedule e
    let c2 :=
      if c.solHeld n || c.solUpper n then c1.solSet n (c1.sol[n].flag 13)
      else if p.peakI ≠ 0 ∧ c.energyOk n p (e.start / 1000) = false then c1.boostRefuse n p e.ev.id (e.start / 1000) t
      else if p.peakI ≠ 0 then (c1.reflexYield n t).solBegin n p false t
      else c1.solBegin n p false t
    c2.retireBank

/-- A REFLEX command at a solenoid output (R514). -/
def Chip.solReflex (c : Chip) (r : BzReflex) (t : Time) : Chip :=
  match idx12 r.index with
  | none => c
  | some n =>
    match c.solCheck r.action r.index r.profile c.crest with
    | 0 =>
      let p := solProf c.crest r.profile
      let b := bankOf n
      let ws := liveWins c.bank[b].windows t
      let w := c.solWin n p t
      let free := !((List.finRange 12).any fun m => m.val / 4 == n.val / 4 && c.sol[m].peaking)
      if free && (peakClash ws w).isNone && c.sumsOk c.crest ws n p w && (p.peakI == 0 || c.energyOk n p (t / 1000)) then
        c.solBegin n p true t
      else (c.solSet n (c.sol[n].flag 12)).bankCount b 2
    | _ => c.solSet n (c.sol[n].flag 13)

/-- One step of the dip search (R518): index of the sample, running maximum, dip state. -/
structure DipSt where
  i : Nat := 0
  m : Nat := 0
  dip : Option (Nat × Nat) := none
  found : Option Nat := none
  deriving DecidableEq, Repr

def dipStep (thMa : Nat) (d : DipSt) (s : Nat) : DipSt :=
  if d.found.isSome then d else
    let m := max d.m s
    let dip := match d.dip with
      | none => if thMa ≤ m - s then some (s, d.i) else none
      | some (sm, tm) => if s < sm then some (s, d.i) else some (sm, tm)
    let found := match dip with
      | some (sm, tm) => if 2 * sm + thMa < 2 * s then some tm else none
      | none => none
    { i := d.i + 1, m := m, dip := dip, found := found }

/-- The dip time in whole µs from the means taken every 0.5 µs of the PEAK phase (R518). -/
def dipSearch (thMa : Nat) (samples : List Nat) : Option Nat :=
  ((samples.foldl (dipStep thMa) {}).found).map (· / 2)

/-- The kink time in µs from the coil voltages of every 1 µs after the decay end (R519). -/
def kinkSearch (thMv : Nat) (winUs : Nat) (us : List Int) : Option Nat :=
  (List.range (min us.length (winUs + 1))).find? fun i =>
    decide (8 ≤ i) && decide (thMv ≤ (us.getD i 0 - 2 * us.getD (i - 4) 0 + us.getD (i - 8) 0).natAbs)

/-- A search result enters its baseline (R520, R521): the new baseline, the verdict, and the flag it sets. -/
def Baseline.take (b : Baseline) (tolUs : Nat) : Option Nat → Baseline × Nat × Option Nat
  | some t =>
    if b.learning then
      let b1 := { b with sum := b.sum + t, found := b.found + 1, fails := 0 }
      if b1.found = 8 then ({ b1 with learning := false, base := (b1.sum + 4) / 8 }, 0, none) else (b1, 0, none)
    else if max t b.base - min t b.base ≤ tolUs then
      ({ b with base := ((b.base : Int) + ((t : Int) - b.base).tdiv 16).toNat }, 1, none)
    else (b, 3, some 9)
  | none =>
    if b.learning then
      if b.fails + 1 = 32 then ({ b with fails := 0 }, 0, some 10) else ({ b with fails := b.fails + 1 }, 0, none)
    else (b, 2, some 8)

/-- Set an optional flag. -/
def SolOut.flagOpt (o : SolOut) : Option Nat → SolOut
  | none => o
  | some f => o.flag f

/-- The dip verdict at the end of a PEAK phase that reached PEAK_I (R518, R521). -/
def Chip.solDip (c : Chip) (n : Fin 12) (samples : List Nat) : SolOut :=
  let o : SolOut := c.sol[n]
  if o.prof.move && bit (c.solMdet n) 0 then
    let r := dipSearch (10 * clampTo 1 255 (fld (c.solMdet n) 15 8)) samples
    let (b, v, f) := o.dip.take (c.moveTolUs n) r
    ({ o with dip := b, dipVerdict := v, tDip := r.getD 0 }).flagOpt f
  else { o with dipVerdict := 0 }

/-- SOL_PEAK_REACHED: DWELL, or PEAK_TIME when earlier than PEAK_MIN (R502, R503, R525). -/
def Chip.solPeakReached (c : Chip) (n : Fin 12) (samples : List Nat) (t : Time) : Chip :=
  let o : SolOut := c.sol[n]
  if o.phase = .peak ∧ o.peakStart ≤ t ∧ t ≤ o.peakStart + 1000 * o.prof.peakMax then
    if t < o.peakStart + 1000 * o.prof.peakMin then c.solFault n 0 t
    else c.solSet n { c.solDip n samples with phase := .dwell, phaseStart := t, current := c.solPeakMa n o.prof }
  else c

/-- SOL_PEAK_TIMEOUT: PEAK_I not reached by PEAK_MAX (R503); a current below 10 % of PEAK_I throughout makes an open coil suspect (R524). -/
def Chip.solPeakTimeout (c : Chip) (n : Fin 12) (maxMa : Nat) (t : Time) : Chip :=
  let o : SolOut := c.sol[n]
  if o.phase = .peak ∧ o.peakStart + 1000 * o.prof.peakMax ≤ t then
    let c1 := c.solFault n 0 t
    c1.solSet n { c1.sol[n] with openSuspect := decide (10 * maxMa < c.solPeakMa n o.prof) }
  else c

/-- SOL_DWELL_END: HOLD, or the final decay of a PULSE profile; the bank returns to VS 20 µs later (R502). -/
def Chip.solDwellEnd (c : Chip) (n : Fin 12) (t : Time) : Chip :=
  let o : SolOut := c.sol[n]
  if o.phase = .dwell ∧ o.phaseStart + 1000 * o.prof.dwellUs ≤ t then
    if o.prof.holdI = 0 then c.solDecay n o.prof.fastEnd false t
    else
      let c1 := c.solSet n { o with phase := .hold, phaseStart := t }
      let b := bankOf n
      c1.bankSet b { c1.bank[b] with vsAt := some (t + 20000) }
  else c

/-- SOL_SOURCE_SWITCH: a source change ends, with the trips that waited for it (R545); the bank goes back to VS when due (R502). -/
def Chip.solSource (c : Chip) (b : Fin 3) (t : Time) : Chip :=
  let c1 := if c.bank[b].changeUntil ≤ t then
      (List.finRange 12).foldl (fun a (m : Fin 12) => if m.val / 4 = b.val ∧ a.sol[m].tripPending then a.solEnd m t else a) c
    else c
  let k := c1.bank[b]
  match k.vsAt with
  | some v =>
    if v ≤ t && !((List.finRange 12).any fun m => m.val / 4 == b.val && c1.sol[m].peaking) && k.source == 2 then
      c1.bankSet b { (k.toSource 1 t) with vsAt := none }
    else c1
  | none => c1

/-- SOL_CHOP_PERIOD: a chop period starts with the low-side on and its valley sample (R504); the period just ended is frozen when valley and peak differ by at most one count, and the third in a row is SENSE_STALL (R522). -/
def Chip.solChop (c : Chip) (n : Fin 12) (valley : Nat) (t : Time) : Chip :=
  let o : SolOut := c.sol[n]
  if o.phase = .hold then
    let frozen := match o.peakSample with
      | none => o.frozen
      | some pk => if max pk o.valley - min pk o.valley ≤ 1 then o.frozen + 1 else 0
    if 3 ≤ frozen then (c.solSet n { o with frozen := frozen }).solFault n 1 t
    else
      let b := bankOf n
      let c1 := c.solSet n { o with frozen := frozen, valley := valley, peakSample := none, low := true }
      c1.bankSet b c1.bank[b].noProbe
  else c

/-- SOL_CHOP_OFF: the low-side turns off at HOLD_I, or at 90 % of the period, not before 1 µs (R504). -/
def Chip.solChopOff (c : Chip) (n : Fin 12) (peakCounts currentMa onNs : Nat) : Chip :=
  let o : SolOut := c.sol[n]
  let full := chopNs c.crest (n.val / 4) * 9 ≤ onNs * 10
  if o.phase = .hold ∧ o.low ∧ 1000 ≤ onNs ∧ (c.solHoldMa n o.prof ≤ currentMa ∨ full) then
    c.solSet n { o with low := false, peakSample := some peakCounts, current := currentMa }
  else c

/-- SOL_HOLD_END: after HOLD_TIME the final decay starts (R502); a HOLD_TIME of 0 does not end. -/
def Chip.solHoldEnd (c : Chip) (n : Fin 12) (t : Time) : Chip :=
  let o : SolOut := c.sol[n]
  if o.phase = .hold ∧ o.prof.holdUs ≠ 0 ∧ o.phaseStart + 1000 * o.prof.holdUs ≤ t then c.solDecay n o.prof.fastEnd false t
  else c

/-- The clamp energy rating of an output in µJ (R497). -/
def Chip.solClampRating (c : Chip) (n : Nat) : Nat := 30000 * c.solMult n

/-- SOL_DECAY_END: below 50 mA the output rests (R502), or enters the fault hold that the decay leads to (R527), or DECAY_E's (R526). -/
def Chip.solDecayEnd (c : Chip) (n : Fin 12) (currentMa clampUj : Nat) (t : Time) : Chip :=
  let o := { c.sol[n] with current := currentMa }
  if o.phase = .decay ∧ currentMa < 50 then
    if o.fast ∧ c.clampInt ∧ c.solClampRating n < clampUj then
      c.solSet n { o.flag 7 with latch := o.latch ||| oneBit 7, phase := .fault, toFault := false, kinkVerdict := 0 }
    else if o.toFault then c.solSet n { o with phase := .fault, toFault := false, kinkVerdict := 0 }
    else c.solSet n { o with phase := .rest, phaseStart := t }
  else c

/-- SOL_REST_END: the release search ends with its verdict (R519, R521), and the output is IDLE (R502). -/
def Chip.solRestEnd (c : Chip) (n : Fin 12) (volts : List Int) (t : Time) : Chip :=
  let o : SolOut := c.sol[n]
  if o.phase = .rest ∧ o.phaseStart + 1000 * o.prof.kinkUs ≤ t then
    if o.prof.move && bit (c.solMdet n) 1 then
      let r := kinkSearch (10 * clampTo 1 255 (fld (c.solMdet n) 23 16)) o.prof.kinkUs volts
      let (b, v, f) := o.kink.take (c.moveTolUs n) r
      c.solSet n (({ o with phase := .idle, kink := b, kinkVerdict := v, tKink := r.getD 0 }).flagOpt f)
    else c.solSet n { o with phase := .idle, kinkVerdict := 0 }
  else c

/-- An output off at once into the fault hold with SHORT (R525). -/
def Chip.solShortOne (c : Chip) (n : Fin 12) : Chip :=
  let o : SolOut := c.sol[n]
  (c.solSet n { o.flag 4 with latch := o.latch ||| oneBit 4, low := false, phase := .fault, toFault := false, reflex := false, dipVerdict := if o.phase = SolPhase.peak then 0 else o.dipVerdict, kinkVerdict := 0 }).bankRest (bankOf n)

/-- SOL_SHORT: a low-side at its ceiling, reported on the lower output of a pair (R499), or the bank high-side at 30 A with every output that conducted (R525). -/
def Chip.solShort (c : Chip) (b : Fin 3) (out : Option (Fin 12)) (ma : Nat) : Chip :=
  match out with
  | some n => if n.val / 4 = b.val ∧ 20000 * c.solMult n ≤ ma then c.solShortOne (c.solRep n) else c
  | none =>
    if 30000 ≤ ma then
      let c1 := (List.finRange 12).foldl (fun a (m : Fin 12) =>
        if m.val / 4 = b.val then (if a.sol[m].low then a.solShortOne m else a) else a) c
      c1.bankSet b { c1.bank[b] with source := 0, vsAt := none }
    else c

/-- One update of the coil model (R515): the mean square current in mA², RCOLD, RTH and TAU. -/
def coilStep (dt thetaC : Rat) (i2 rcold rth tau : Nat) : Rat :=
  let r : Rat := (rcold : Rat) / 100 * (1 + 393 / 100000 * (thetaC - 20))
  dt + ((i2 : Rat) / 1000000 * r * rth / 10 - dt) / (100 * tau)

/-- COIL_WARN and COIL_HOT from the present estimate (R517). -/
def Chip.coilCheck (c : Chip) (n : Fin 12) (t : Time) : Chip :=
  let th := c.thetaC n
  let mx := c.tCoilMax n
  let o : SolOut := c.sol[n]
  let warm := decide ((mx : Rat) - 15 ≤ th)
  let c1 := c.solSet n { (if warm && !o.warm then o.flag 5 else o) with warm := warm }
  if (mx : Rat) ≤ th ∧ bit o.latch 6 = false then c1.solFault n 6 t else c1

/-- SOL_COIL_UPDATE: every 1 ms, for every output with EN set (R515). `i2` are the mean square currents in mA², `sensor` the logic temperature in °C. -/
def Chip.coilUpdate (c : Chip) (i2 : List Nat) (sensor : Int) (t : Time) : Chip :=
  let c0 := { c with logicTemp := sensor, thetaAmb := c.thetaAmb + ((sensor : Rat) - 5 - c.thetaAmb) / 10000 }
  (List.finRange 12).foldl (fun a (n : Fin 12) =>
    if a.solEn n && !a.solUpper n then
      let w := a.crest.word (0x3E4 + 0x10 * n.val)
      let tau := clampTo 1 6000 (fld (a.crest.word (0x3E8 + 0x10 * n.val)) 15 0)
      let dt := coilStep a.sol[n].dt (a.thetaC n) (i2.getD n.val 0) (max 10 (fld w 15 0)) (max 1 (fld w 31 16)) tau
      (a.solSet n { a.sol[n] with dt := dt }).coilCheck n t
    else a) c0

/-- SOL_PROBE: the continuity probe runs while no low-side of the bank conducts (R523). -/
def Chip.solProbe (c : Chip) (b : Fin 3) : Chip :=
  if bit (bankCfg c.crest b) 26 && !((List.finRange 12).any fun m => m.val / 4 == b.val && c.sol[m].low) then
    c.bankSet b { c.bank[b] with probing := true }
  else c

/-- Two failed probes: SENSE_OPEN and the fault hold on all four outputs of the bank (R523); a pair is one output (R499). -/
def Chip.senseOpen (c : Chip) (b : Fin 3) (t : Time) : Chip :=
  (List.finRange 12).foldl (fun a (m : Fin 12) => if m.val / 4 = b.val ∧ c.solUpper m.val = false then a.solFault m 2 t else a) c

/-- A passing probe after a PEAK_TIME at low current: OPEN_COIL (R524). -/
def Chip.openCoil (c : Chip) (b : Fin 3) : Chip :=
  (List.finRange 12).foldl (fun a (m : Fin 12) =>
    let o : SolOut := a.sol[m]
    if m.val / 4 = b.val ∧ o.openSuspect then a.solSet m { o.flag 3 with latch := o.latch ||| oneBit 3, openSuspect := false }
    else a) c

/-- The probe that follows a PEAK_TIME failed: no OPEN_COIL comes of it (R524). -/
def Chip.noSuspect (c : Chip) (b : Fin 3) : Chip :=
  (List.finRange 12).foldl (fun a (m : Fin 12) =>
    if m.val / 4 = b.val then a.solSet m { a.sol[m] with openSuspect := false } else a) c

/-- SOL_PROBE_DONE: above 0.3 V the probe fails; two in a row set SENSE_OPEN (R523, R524). -/
def Chip.probeDone (c : Chip) (b : Fin 3) (mv : Nat) (t : Time) : Chip :=
  let k := c.bank[b]
  if k.probing then
    if 300 < mv then
      let c1 := (c.bankSet b { k with probing := false, probeFails := k.probeFails + 1, probeFailed := true, probeExists := true }).noSuspect b
      if 1 ≤ k.probeFails then c1.senseOpen b t else c1
    else (c.bankSet b { k with probing := false, probeFails := 0, probeFailed := false, probeExists := true }).openCoil b
  else c

/-- BST_MEASURE: charging, overvoltage and BOOST_LOW from the store voltage in mV (R506, R509, R528). -/
def Chip.bstMeasure (c : Chip) (mv : Nat) (t : Time) : Chip :=
  let en := bit (c.crest.word 0x3A0) 18
  let stopped := if 50000 < mv then true else if mv ≤ 47500 then false else c.bstStopped
  let charging := en && !stopped && !c.crank && (if c.charging then decide (6000 ≤ c.vs) else decide (8000 ≤ c.vs))
  let ov := decide (54000 < mv) && !c.ovHold
  let ovHold := decide (54000 < mv) || (c.ovHold && decide (50000 ≤ mv))
  let c1 := { c with
    vBst := mv, bstStopped := stopped, charging := charging && !ovHold, ovHold := ovHold
    clampInt := ovHold || decide (52000 ≤ mv)
    bstSts := if ov then c.bstSts ||| oneBit 18 else c.bstSts }
  (List.finRange 3).foldl (fun a (b : Fin 3) =>
    let k := a.bank[b]
    if k.source = 2 ∧ mv < a.vFloor ∧ ((List.finRange 12).any fun m => m.val / 4 == b.val && a.sol[m].phase == .peak) then
      { a.bankSet b (k.toSource 1 t) with bstSts := a.bstSts ||| oneBit 17 }
    else a) c1

/-- SOL_RELEARN: both baselines of each named output learn again (R520, R531). -/
def Chip.relearn (c : Chip) (mask : Word) : Chip :=
  (List.finRange 12).foldl (fun a (n : Fin 12) =>
    if bit mask n.val then a.solSet n { a.sol[n] with dip := {}, kink := {} } else a) c

/-- A solenoid profile's start under a limp entry: its checks against the spans in force, in CRANK against the store only (20 corner cases), and against the store; an entry that fails them leaves its output IDLE (R542; log 63). -/
def Chip.limpStart (c : Chip) (n : Fin 12) (p : SolProf) (t : Time) : Chip :=
  let b := bankOf n
  let ws := liveWins c.bank[b].windows t
  let w := c.solWin n p t
  if (c.crank || c.sumsOk c.crest ws n p w) && (p.peakI == 0 || c.energyOk n p (t / 1000)) then
    (c.bankSet b { c.bank[b] with windows := ws ++ [w] }).solBegin n p false t
  else c.solDecay n c.sol[n].prof.fastEnd false t

/-- A solenoid output takes its limp entry: OFF and ON end its command; a profile with a peak waits for its start (R541, R542). -/
def Chip.solTakeLimp (c : Chip) (n : Fin 12) (entry : Nat) (t : Time) : Chip :=
  let c0 := { c with limpPend := c.limpPend.filter (· != n.val) }
  if c0.solUpper n || c0.sol[n].phase == .fault || c0.sol[n].toFault || c0.solTrip n.val || c0.supplyHeld then c0 else
    let off := c0.solDecay n c0.sol[n].prof.fastEnd false t
    match entry % 4 with
    | 3 => c0
    | 2 =>
      let p := solProf c0.crest (entry / 4)
      if 32 ≤ entry / 4 || p.bad then off
      else if p.peakI ≠ 0 then { c0 with limpPend := c0.limpPend ++ [n.val] }
      else if p.holdI ≠ 0 then c0.limpStart n p t
      else c0.solBegin n p false t
    | _ => off

/-- BZ_LIMP_ENTRY_START on the chip: the first waiting output of its bank starts when the earlier peak windows of the bank have ended (R542; log 63). -/
def Chip.limpEntryStart (c : Chip) (n : Fin 12) (entry : Nat) (t : Time) : Chip :=
  let b := bankOf n
  let first := c.limpPend.contains n.val && c.limpPend.all fun m => m / 4 != n.val / 4 || decide (n.val ≤ m)
  let busy := c.bank[b].windows.any fun w => match w.peakEnd with
    | none => false
    | some e => decide (w.start ≤ t) && decide (t < e)
  if c.supervisor = .limp ∧ first ∧ !busy then
    let c1 := { c with limpPend := c.limpPend.filter (· != n.val) }
    if c1.sol[n].phase == .fault || c1.sol[n].toFault || c1.solTrip n.val || c1.supplyHeld then c1
    else c1.limpStart n (solProf c1.crest (entry / 4)) t
  else c

/-- A W1C write to BZ_SOL_STS (R529): a clear of COIL_HOT above T_COIL_MAX − 20 K, or of SENSE_OPEN while the probe at the clear fails, is refused. -/
def Chip.solClear (c : Chip) (n : Fin 12) (mask : Word) (probeFails : Bool) (entry : Nat) (t : Time) : Chip :=
  let o : SolOut := c.sol[n]
  let refHot := bit mask 6 && bit o.sts 6 && decide ((c.tCoilMax n : Rat) - 20 < c.thetaC n)
  let refOpen := bit mask 2 && bit o.sts 2 && probeFails
  let keep := (if refHot then oneBit 6 else 0) ||| (if refOpen then oneBit 2 else 0)
  let eff := mask &&& 0x7FFF &&& ~~~keep
  let o1 := { o with sts := o.sts &&& ~~~eff, latch := o.latch &&& ~~~eff }
  let o2 := if refHot || refOpen then o1.flag 14 else o1
  if o.phase = .fault ∧ o2.latch = 0 then
    let c1 := c.solSet n { o2 with phase := .idle }
    if c.supervisor = .limp then c1.solTakeLimp n entry t else c1
  else if o.toFault ∧ o2.latch = 0 then
    let c1 := c.solSet n { o2 with toFault := false }
    if c.supervisor = .limp then c1.solTakeLimp n entry t else c1
  else c.solSet n o2

/-- The probe at a clear of SENSE_OPEN (R523). -/
def Chip.clearProbe (c : Chip) (n : Fin 12) (mask : Word) (fails : Bool) : Chip :=
  let b := bankOf n
  let k := c.bank[b]
  if bit mask 2 && bit c.sol[n].sts 2 && bit (bankCfg c.crest b.val) 26 then
    c.bankSet b { k with probeFails := if fails then k.probeFails + 1 else 0, probeFailed := fails, probeExists := true }
  else c

end Sys2Proof.Machine
end

