-- ==== Sys2Proof/Machine/BzChip.lean ====
section
/-! DEFINITION. A BZ31 chip as a whole (20): power-up, heartbeat, supervisor, supply, trips, limp, status reporting, register frames, and its side of a slip (12). -/

namespace Sys2Proof.Machine

/-- Every channel and output that is not held by a fault, a trip or the supply takes its limp entry (R541, R542). -/
def Chip.takeLimp (c : Chip) (t : Time) : Chip :=
  let c1 := (List.finRange 12).foldl (fun a n => a.hsTakeLimp n t) { c with limpPend := [] }
  (List.finRange 12).foldl (fun a n => a.solTakeLimp n (a.limpByte (12 + n.val)) t) c1

/-- Enter LIMP (R535, R541); a chip in LIMP stays as it is (log 63). -/
def Chip.enterLimp (c : Chip) (t : Time) : Chip :=
  if c.supervisor = .limp then c else { c with supervisor := .limp }.takeLimp t

/-- The section of a settings block that the limp store copies: offsets 0x6A0 to 0x7FF (R552). -/
def limpSection (s : Settings) : Settings := s.filter fun e => decide (0x6A0 ≤ e.1)

/-- The newer valid copy of the limp store (R552). -/
def Chip.storeNewest (c : Chip) : Option (Nat × Settings) :=
  match c.storeA, c.storeB with
  | some a, some b => if b.1 < a.1 then some a else some b
  | some a, none => some a
  | none, b => b

/-- BZ_POWER_UP (R551): VS above 4.0 V; every output off, crest from the reset values and the limp store, hot models. -/
def Chip.powerUp (c : Chip) (vsMv : Nat) (sensor : Int) (lh0 lh1 : Bool) (t : Time) : Chip :=
  if !c.powered && decide (4000 < vsMv) then
    let crest : Settings := (c.storeNewest.map (·.2)).getD []
    let fresh : Chip := { storeA := c.storeA, storeB := c.storeB, vBst := c.vBst }
    let c1 : Chip := { fresh with
      powered := true, powerAt := t, clock := t, vs := vsMv, lh0 := lh0, lh1 := lh1, crest := crest, lee := crest
      logicTemp := sensor, thetaAmb := (sensor : Rat) - 5
      sts := if c.storeNewest.isSome then 0 else oneBit 20 }
    let c2 := (List.finRange 12).foldl (fun a n =>
      a.hsSet n { a.hs[n] with x := if (a.hsFuse n).isSome then 1 / 2 else 0 }) c1
    (List.finRange 12).foldl (fun a n =>
      (a.solSet n { a.sol[n] with dt := (a.dtMax n : Rat) }).coilCheck n t) c2
  else c

/-- BZ_LOGIC_RESET (R532, R555): VS below 3.5 V clears the chip; the non-volatile limp store stays (R552), a write in progress is lost (R554). -/
def Chip.logicReset (c : Chip) (vsMv : Nat) : Chip :=
  if c.powered && decide (vsMv < 3500) then { storeA := c.storeA, storeB := c.storeB, vBst := c.vBst, vs := vsMv } else c

/-- BZ_POWERUP_TIMEOUT: 100 ms without lock lead to LIMP (R535, R551). -/
def Chip.powerupTimeout (c : Chip) (t : Time) : Chip :=
  if c.powered ∧ c.supervisor = .powerup ∧ c.powerAt + 100000000 ≤ t then c.enterLimp t else c

/-- BZ_TIME_FRAME: the frame disciplines the clock; 10 in a row within ±20 ns lock the heartbeat (R457, R536, R537). -/
def Chip.timeFrame (c : Chip) (station errNs : Nat) (t : Time) : Chip :=
  let run := if c.lastTime + 2000000 ≤ t then 1 else c.timeRun + 1
  let c1 := { c with timeRun := run, lastTime := t, clock := station }
  if !c.locked && decide (10 ≤ run) && decide (errNs ≤ 20) then
    let c2 := { c1 with locked := true, supervisor := if c.supervisor = Supervisor.powerup then Supervisor.run else c.supervisor }
    (c2.sendStatusEvent (c2.clock / 1000 * 1000)).sendIdent
  else c1

/-- HOLD_LAST_MS of the crest (R556). -/
def Chip.holdLastMs (c : Chip) : Nat := fld (c.crest.word 0x6A4) 15 0

/-- BZ_HEARTBEAT_LOSS: no valid TIME frame for 2 ms (R537). -/
def Chip.heartbeatLoss (c : Chip) (t : Time) : Chip :=
  if c.locked ∧ c.lastTime + 2000000 ≤ t then
    let c1 := { c.flag 18 with locked := false, timeRun := 0, lossAt := t }
    if c.supervisor = .run then
      if c.holdLastMs = 0 then c1.enterLimp t else { c1 with supervisor := .holdLast }
    else c1
  else c

/-- BZ_HOLD_LAST_END: HOLD_LAST_MS pass from the loss; 0xFFFF has no end (R539). -/
def Chip.holdLastEnd (c : Chip) (t : Time) : Chip :=
  if c.supervisor = .holdLast ∧ c.holdLastMs ≠ 0xFFFF ∧ c.lossAt + 1000000 * c.holdLastMs ≤ t then c.enterLimp t else c

/-- BZ_LIMP_PIN_CHANGE: a level stable for 10 ms counts; in LIMP the new state applies at once (R540). -/
def Chip.limpPins (c : Chip) (lh0 lh1 : Bool) (stableUs : Nat) (t : Time) : Chip :=
  if 10000 ≤ stableUs then
    let c1 := { c with lh0 := lh0, lh1 := lh1 }
    if c.supervisor = .limp ∧ c1.limpIndex ≠ c.limpIndex then c1.takeLimp t else c1
  else c

/-- Every output ends its command at a supply hold (R534). -/
def Chip.endAll (c : Chip) (t : Time) : Chip :=
  let c1 := (List.finRange 12).foldl (fun a n => a.hsEnd n t) { c with limpPend := [] }
  (List.finRange 12).foldl (fun a n => a.solEnd n t) c1

/-- BZ_OVERVOLT: VS above 37 V for 10 µs (R532, R534). -/
def Chip.overvolt (c : Chip) (vsMv us : Nat) (t : Time) : Chip :=
  let c1 := { c with vs := vsMv }
  if 37000 < vsMv ∧ 10 ≤ us ∧ c.overV = false then { c1.flag 17 with overV := true }.endAll t else c1

/-- Enter UNDERVOLT (R532, R534). -/
def Chip.enterUnder (c : Chip) (t : Time) : Chip :=
  if c.underV then { c with crank := false } else { c.flag 16 with underV := true, crank := false }.endAll t

/-- BZ_UNDERVOLT: VS below 4.5 V (R532). -/
def Chip.undervolt (c : Chip) (vsMv : Nat) (t : Time) : Chip :=
  let c1 := { c with vs := vsMv }
  if vsMv < 4500 then c1.enterUnder t else c1

/-- BZ_CRANK_ENTER: VS from 4.5 V up to 6 V (R532, R533). -/
def Chip.crankEnter (c : Chip) (vsMv : Nat) (t : Time) : Chip :=
  let c1 := { c with vs := vsMv }
  if 4500 ≤ vsMv ∧ vsMv < 6000 ∧ c.crank = false ∧ c.underV = false then { c1 with crank := true, crankAt := t, charging := false } else c1

/-- BZ_CRANK_END: VS at 6 V or above for 1 ms (R533). -/
def Chip.crankEnd (c : Chip) (vsMv us : Nat) : Chip :=
  let c1 := { c with vs := vsMv }
  if 6000 ≤ vsMv ∧ 1000 ≤ us then { c1 with crank := false } else c1

/-- BZ_CRANK_TIMEOUT: CRANK lasts CRANK_MS (R533). -/
def Chip.crankTimeout (c : Chip) (t : Time) : Chip :=
  if c.crank ∧ c.crankAt + 1000000 * clampTo 1 50 (fld (c.crest.word 0x6A0) 5 0) ≤ t then c.enterUnder t else c

/-- BZ_SUPPLY_RECOVER: VS between 6 V and 36 V for 1 ms ends the supply hold; in LIMP the outputs take their entries (R534). -/
def Chip.supplyRecover (c : Chip) (vsMv us : Nat) (t : Time) : Chip :=
  let c1 := { c with vs := vsMv }
  if 6000 ≤ vsMv ∧ vsMv ≤ 36000 ∧ 1000 ≤ us ∧ c.supplyHeld then
    let c2 := { c1 with underV := false, overV := false }
    if c.supervisor = .limp then c2.takeLimp t else c2
  else c1

/-- VS_SAMPLE: one sample every 62.5 µs; the last 256 are kept (R483). -/
def Chip.vsSample (c : Chip) (vsMv : Nat) : Chip := { c with vs := vsMv, vsWin := (vsMv :: c.vsWin).take 256 }

/-- A trip acts on a solenoid output: during dead time at its end (R545). -/
def Chip.solTripAct (c : Chip) (n : Fin 12) (t : Time) : Chip :=
  let o : SolOut := c.sol[n]
  if t < c.bank[bankOf n].changeUntil ∧ o.running then c.solSet n { o with tripPending := true, low := false } else c.solEnd n t

/-- Outputs that a latched trip names end their commands, but for those that the chip `old` already tripped (R545; log 64). -/
def Chip.tripAct (c old : Chip) (t : Time) : Chip :=
  let c1 := (List.finRange 12).foldl (fun a n => if a.hsTrip n.val && !old.hsTrip n.val then a.hsEnd (⟨a.hsRep n.val, by
    unfold Chip.hsRep; split <;> omega⟩) t else a) c
  (List.finRange 12).foldl (fun a n => if a.solTrip n.val && !old.solTrip n.val then a.solTripAct n t else a) c1

/-- BZ_TRIP: a level of a trip input outlasts the filter of 0.5 µs; an active level of an enabled trip latches it (R544, R545; log 64). -/
def Chip.trip (c : Chip) (k : Fin 4) (level : Bool) (ns : Nat) (t : Time) : Chip :=
  let w := c.crest.word (0x6B0 + 4 * k.val)
  if 500 ≤ ns then
    let c1 := { c with tripPins := c.tripPins.set k (level == bit w 1) }
    if bit w 0 ∧ level = bit w 1 then { c1 with trips := c.trips.set k true, cnt := satByte c.cnt 0 1 }.tripAct c t else c1
  else c

/-- A write of `mask` to the LATCHED bits: refused while the input is at its active level (R546). -/
def Chip.tripClear (c : Chip) (mask : Nat) (t : Time) : Chip :=
  let c1 := (List.finRange 4).foldl (fun a k =>
    if mask.testBit k.val && a.trips[k] then
      if a.tripPins[k] then a.flag 21 else { a with trips := a.trips.set k false }
    else a) c
  if c.supervisor = .limp ∧ c1.trips ≠ c.trips then
    let c2 := (List.finRange 12).foldl (fun a n => if c.hsTrip n.val && !a.hsTrip n.val then a.hsTakeLimp n t else a) c1
    (List.finRange 12).foldl (fun a n => if c.solTrip n.val && !a.solTrip n.val then a.solTakeLimp n (a.limpByte (12 + n.val)) t else a) c2
  else c1

/-- BZ_TRIP_CLEAR, with the levels of the inputs at the write (R546; log 64). -/
def Chip.tripClearAt (c : Chip) (mask : Nat) (pins : Vector Bool 4) (t : Time) : Chip :=
  { c with tripPins := pins }.tripClear mask t

/-- BZ_RELEASE (R543). -/
def Chip.release (c : Chip) : Chip :=
  if c.locked && c.stateHeld then { c with supervisor := .run, limpPend := [] } else c.flag 22

/-- A register write on the chip: W1C flags, RELEASE, ENTER_LIMP and RELEARN; every other register is read-only (R495, R531, R557). -/
def Chip.regWrite (c : Chip) (off : Nat) (data : Word) (t : Time) : Chip :=
  if off = 0x004 then { c with sts := c.sts &&& ~~~data }
  else if off = 0x00C then c.tripClear (fld data 11 8) t
  else if off = 0x010 then
    let c1 := if bit data 0 then c.release else c
    if bit data 1 then c1.enterLimp t else c1
  else if 0x100 ≤ off ∧ off < 0x1C0 ∧ off % 16 = 0 then
    match idx12 ((off - 0x100) / 16) with
    | some n => c.hsClear n data t
    | none => c
  else if 0x200 ≤ off ∧ off < 0x2C0 ∧ off % 16 = 0 then
    match idx12 ((off - 0x200) / 16) with
    | some n => c.solClear n data c.bank[bankOf n].probeFailed (c.limpByte (12 + n.val)) t
    | none => c
  else if off = 0x340 then { c with bstSts := c.bstSts &&& ~~~data }
  else if off = 0x3C0 then c.relearn data
  else c

/-- A REG frame: a repeated TAG repeats the reply and executes nothing (R549). -/
def Chip.reg (c : Chip) (write : Bool) (tag off : Nat) (data : Word) (t : Time) : Chip :=
  match c.lastReg with
  | some (g, f) => if g = tag then c.send f else go
  | none => go
where
  go : Chip :=
    match c.regRead off with
    | none =>
      let f := BzFrame.regData 1 tag off 0
      { c.send f with lastReg := some (tag, f) }
    | some _ =>
      let c1 := if write then c.regWrite off data t else c
      let f := BzFrame.regData 0 tag off ((c1.regRead off).getD 0)
      { c1.send f with lastReg := some (tag, f) }

/-- BZ_STATUS_SAMPLE: a tick's sample that differs from the last one reported becomes a status event; none is kept while the heartbeat is lost (R537, R548). -/
def Chip.statusSample (c : Chip) (t : Time) : Chip :=
  if c.powered && c.locked && decide (c.reported ≠ some c.sample) then c.sendStatusEvent (t / 1000 * 1000) else c

/-- BZ_PERIODIC_STATUS: TIME is the chip time (R547, R548). -/
def Chip.periodic (c : Chip) (t : Time) : Chip :=
  c.send (.status 0 c.eseq t c.sample c.vsUnits bzRev)

/-- BZ_FRAME_SEND: the frame of the best priority leaves, under the next LSEQ (R454, R548). -/
def Chip.frameSend (c : Chip) : Chip :=
  match takeBest BzFrame.prio c.tx with
  | none => c
  | some (f, rest) => { c with tx := rest, wire := c.wire ++ [f.bytes c.lseq], lseq := (c.lseq + 1) % 256 }

/-- BZ_LIMP_STORE_DONE: the write replaces the older copy, or sets NVM_FAIL (R552). -/
def Chip.storeDone (c : Chip) (ok : Bool) : Chip :=
  if c.storeBusy then
    if ok then
      let seq := ((c.storeNewest.map (·.1)).getD 0) + 1
      let copy := some (seq, limpSection c.crest)
      match c.storeA, c.storeB with
      | none, _ => { c with storeBusy := false, storeA := copy }
      | some _, none => { c with storeBusy := false, storeB := copy }
      | some a, some b => if b.1 < a.1 then { c with storeBusy := false, storeB := copy } else { c with storeBusy := false, storeA := copy }
    else { c.flag 19 with storeBusy := false }
  else c

/-- BZ_SLIP_PREPARE: the chip opens its lee block, or answers NACK RETIRING (R320, R327, R458). -/
def Chip.slipPrepare (c : Chip) (id : Nat) : Chip :=
  let c1 := c.retireBank
  if c1.retiring.isSome then c1.send (.slipAck 2 0x06 id 0)
  else { c1 with preparing := true, slipId := id, chunks := [], armed := none }

/-- BZ_LEE_DATA: one chunk of the ledger block lands in lee and is acknowledged (R456, R458). -/
def Chip.leeData (c : Chip) (chunk id8 : Nat) (bytes : List Byte) (t : Time) : Chip :=
  if chunk < 32 ∧ (c.preparing = false ∨ c.slipId % 256 = id8) then
    { c with lee := c.lee.putChunk chunk bytes, chunks := if c.chunks.contains chunk then c.chunks else c.chunks ++ [chunk] }.reply
      (0xF000 + chunk) 0 t
  else c

/-- The chip's checksum of the block as received goes to the mesa in an ACK (R320, R458). -/
def Chip.slipChecksum (c : Chip) : Chip :=
  if c.preparing then c.send (.slipAck 1 0 c.slipId c.lee.sum) else c

/-- BZ_SLIP_COMMIT: the chip stores the slip point and answers COMMIT_ACK (R323, R458). -/
def Chip.slipCommit (c : Chip) (id : Nat) (point : Time) : Chip :=
  if c.preparing ∧ c.slipId = id then { c with armed := some point }.send (.slipAck 3 0 id c.lee.sum) else c

/-- BZ_SLIP_ABORT: crest is unchanged, lee keeps its contents (R325). -/
def Chip.slipAbort (c : Chip) (id : Nat) : Chip :=
  if c.slipId = id then { c with preparing := false, armed := none, chunks := [] } else c

/-- Channels and outputs whose pairing changes turn off (R466, R499). -/
def Chip.pairChange (c : Chip) (old : Settings) (t : Time) : Chip :=
  let c1 := (List.finRange 12).foldl (fun a n =>
    let o := 0x20 * (n.val / 2 * 2)
    if n.val < 6 ∧ bit (old.word o) 1 ≠ bit (a.crest.word o) 1 then a.hsEnd n t else a) c
  (List.finRange 12).foldl (fun a n =>
    let o := 0x3B0 + 0x10 * (n.val / 4)
    let k := if n.val % 4 < 2 then 24 else 25
    if bit (old.word o) k ≠ bit (a.crest.word o) k then a.solEnd n t else a) c1

/-- Outputs whose BZ_SOL_MDET changed learn again (R520). -/
def Chip.mdetChange (c : Chip) (old : Settings) : Chip :=
  (List.finRange 12).foldl (fun a n =>
    let o := 0x3EC + 0x10 * n.val
    if old.word o ≠ a.crest.word o then a.solSet n { a.sol[n] with dip := {}, kink := {} } else a) c

/-- The switch of the chip's settings: guarding settings at once, models keep their state (R313, R466, R480, R499, R517, R520, R542). -/
def Chip.switch (c : Chip) (t : Time) : Chip :=
  let old := c.crest
  let c1 := { c with crest := c.lee }
  let c2 := ((c1.pairChange old t).mdetChange old).tripAct c t
  let c3 := (List.finRange 12).foldl (fun a n => (a.hsFuseTrip n t)) c2
  let c4 := (List.finRange 12).foldl (fun a (n : Fin 12) => if a.solEn n && !a.solUpper n then a.coilCheck n t else a) c3
  if c.supervisor = .limp then c4.takeLimp t else c4

/-- BZ_SLIP_POINT: a chip that received COMMIT switches at the slip point (R324, R327, R328); a changed supply-and-hold section is written to the limp store (R552). -/
def Chip.slipPointAct (c : Chip) (t : Time) : Chip :=
  match c.armed with
  | none => c
  | some p =>
    if p ≤ t then
      let old := c.crest
      let c1 := { c with armed := none, preparing := false, chunks := [], slipPoint := p }
      let c2 := { c1.switch t with retiring := some old }
      let c3 := if limpSection old ≠ limpSection c2.crest then { c2 with storeBusy := true } else c2
      c3.retireBank.sendIdent
    else c

/-- BZ_RESEAT_SWITCH: the whole ledger block is in lee and no event is scheduled (R328). -/
def Chip.reseatSwitch (c : Chip) (t : Time) : Chip :=
  if c.preparing = false ∧ c.armed = none ∧ c.chunks.length = 32 ∧ c.schedule = [] then
    ({ c with chunks := [], retiring := none }.switch t).sendIdent
  else c

/-- BZ_REFLEX_RECEIVE: the first valid copy is applied, the second is ignored (R460, R462, R468, R514). -/
def Chip.reflexReceive (c : Chip) (r : BzReflex) (t : Time) : Chip :=
  if c.lastReflex = some r.lseq then { c with lastReflex := none }
  else
    let c1 := { c with lastReflex := some r.lseq }
    if r.kind = 0 then c1.hsReflex r t else c1.solReflex r t

/-- BZ_DFL_FRAME_DISCARD: a discarded frame breaks a run of TIME frames (R454, R536). -/
def Chip.frameDiscard (c : Chip) : Chip := if c.locked then c else { c with timeRun := 0 }

end Sys2Proof.Machine
end

