-- ==== Sys2Proof/Machine/Crypto.lean ====
section
/-! DEFINITION. SHA-256 (FIPS 180-4) and ECDSA verification on curve P-256 (FIPS 186-5), as 11 R287, R288, 12 R316 and 22 R595 to R601 name them. -/

namespace Sys2Proof.Machine

/-! ### SHA-256 -/

/-- The 64 round constants. -/
def shaK : List Nat :=
  [0x428a2f98, 0x71374491, 0xb5c0fbcf, 0xe9b5dba5, 0x3956c25b, 0x59f111f1, 0x923f82a4, 0xab1c5ed5,
   0xd807aa98, 0x12835b01, 0x243185be, 0x550c7dc3, 0x72be5d74, 0x80deb1fe, 0x9bdc06a7, 0xc19bf174,
   0xe49b69c1, 0xefbe4786, 0x0fc19dc6, 0x240ca1cc, 0x2de92c6f, 0x4a7484aa, 0x5cb0a9dc, 0x76f988da,
   0x983e5152, 0xa831c66d, 0xb00327c8, 0xbf597fc7, 0xc6e00bf3, 0xd5a79147, 0x06ca6351, 0x14292967] ++
  [0x27b70a85, 0x2e1b2138, 0x4d2c6dfc, 0x53380d13, 0x650a7354, 0x766a0abb, 0x81c2c92e, 0x92722c85,
   0xa2bfe8a1, 0xa81a664b, 0xc24b8b70, 0xc76c51a3, 0xd192e819, 0xd6990624, 0xf40e3585, 0x106aa070,
   0x19a4c116, 0x1e376c08, 0x2748774c, 0x34b0bcb5, 0x391c0cb3, 0x4ed8aa4a, 0x5b9cca4f, 0x682e6ff3,
   0x748f82ee, 0x78a5636f, 0x84c87814, 0x8cc70208, 0x90befffa, 0xa4506ceb, 0xbef9a3f7, 0xc67178f2]

/-- The initial hash value. -/
def shaInit : List Word :=
  [0x6a09e667, 0xbb67ae85, 0x3c6ef372, 0xa54ff53a, 0x510e527f, 0x9b05688c, 0x1f83d9ab, 0x5be0cd19]

/-- Bytes as a big-endian number. -/
def ofBe (bs : List Byte) : Nat := bs.foldl (fun a b => a * 256 + b.toNat) 0

/-- `n` bytes of a number, most significant first. -/
def beBytes (n v : Nat) : List Byte := (leBytes n v).reverse

/-- The 16 words of a block. -/
def shaWords (bs : List Byte) : List Word := (List.range 16).map fun i => BitVec.ofNat 32 (ofBe ((bs.drop (4 * i)).take 4))

/-- The message schedule, newest word first. -/
def shaSchedule (blk : List Word) : List Word :=
  ((List.range 48).foldl (fun (w : List Word) _ =>
    let a := nth 0 w 1
    let b := nth 0 w 14
    let s1 := a.rotateRight 17 ^^^ a.rotateRight 19 ^^^ (a >>> 10)
    let s0 := b.rotateRight 7 ^^^ b.rotateRight 18 ^^^ (b >>> 3)
    (s1 + nth 0 w 6 + s0 + nth 0 w 15) :: w) blk.reverse).reverse

/-- One round on the eight working words. -/
def shaRound (h : List Word) (kw : Word) : List Word :=
  match h with
  | [a, b, c, d, e, f, g, x] =>
    let t1 := x + (e.rotateRight 6 ^^^ e.rotateRight 11 ^^^ e.rotateRight 25) + ((e &&& f) ^^^ (~~~e &&& g)) + kw
    let t2 := (a.rotateRight 2 ^^^ a.rotateRight 13 ^^^ a.rotateRight 22) + ((a &&& b) ^^^ (a &&& c) ^^^ (b &&& c))
    [t1 + t2, a, b, c, d + t1, e, f, g]
  | _ => h

/-- The compression of one block. -/
def shaBlock (h blk : List Word) : List Word :=
  let r := (shaK.zip (shaSchedule blk)).foldl (fun h kw => shaRound h (BitVec.ofNat 32 kw.1 + kw.2)) h
  h.zipWith (· + ·) r

/-- The padded message. -/
def shaPad (bs : List Byte) : List Byte :=
  bs ++ 0x80 :: List.replicate ((119 - bs.length % 64) % 64) 0 ++ beBytes 8 (8 * bs.length)

/-- The SHA-256 digest, 32 bytes. -/
def sha256 (bs : List Byte) : List Byte :=
  let p := shaPad bs
  ((List.range (p.length / 64)).foldl (fun h i => shaBlock h (shaWords (p.drop (64 * i)))) shaInit).flatMap fun w => beBytes 4 w.toNat

/-! ### P-256 -/

/-- The field prime, the curve's b, the order, the base point. -/
def p256p : Nat := 0xffffffff00000001000000000000000000000000ffffffffffffffffffffffff
def p256b : Nat := 0x5ac635d8aa3a93e7b3ebbd55769886bc651d06b0cc53b0f63bce3c3e27d2604b
def p256n : Nat := 0xffffffff00000000ffffffffffffffffbce6faada7179e84f3b9cac2fc632551
def p256g : Nat × Nat :=
  (0x6b17d1f2e12c4247f8bce6e563a440f277037d812deb33a0f4a13945d898c296,
   0x4fe342e2fe1a7f9b8ee7eb4a7c0f9e162bce33576b315ececbb6406837bf51f5)

/-- `b` to the `e` modulo `m`, over the low `k` bits of `e`. -/
def powMod (b m e : Nat) : Nat → Nat
  | 0 => 1 % m
  | k + 1 =>
    let h := powMod (b * b % m) m (e / 2) k
    if e % 2 = 1 then h * b % m else h

/-- The inverse modulo a prime. -/
def invMod (a m : Nat) : Nat := powMod (a % m) m (m - 2) 256

/-- Points in affine form; none is the point at infinity. -/
abbrev EcPoint := Option (Nat × Nat)

/-- The sum of two points. -/
def ecAdd : EcPoint → EcPoint → EcPoint
  | none, q => q
  | p, none => p
  | some (x1, y1), some (x2, y2) =>
    if x1 = x2 ∧ (y1 + y2) % p256p = 0 then none
    else
      let l := if x1 = x2 then (3 * x1 * x1 + (p256p - 3)) * invMod (2 * y1) p256p % p256p
        else (y2 + (p256p - y1)) * invMod (x2 + (p256p - x1)) p256p % p256p
      let x := (l * l + 2 * p256p - x1 - x2) % p256p
      some (x, (l * (x1 + p256p - x) + p256p - y1) % p256p)

/-- A multiple of a point, over the low bits of the factor. -/
def ecMul (p : EcPoint) (k : Nat) : Nat → EcPoint
  | 0 => none
  | n + 1 =>
    let h := ecMul (ecAdd p p) (k / 2) n
    if k % 2 = 1 then ecAdd h p else h

/-- A point of the curve (R595). -/
def onCurve (x y : Nat) : Bool :=
  decide (x < p256p ∧ y < p256p ∧ y * y % p256p = (x * x * x + (p256p - 3) * x + p256b) % p256p)

/-- ECDSA verification of a digest; the signature is r then s, 32 bytes each, big-endian. -/
def ecdsaVerify (x y : Nat) (digest sig : List Byte) : Bool :=
  let r := ofBe (sig.take 32)
  let v := ofBe ((sig.drop 32).take 32)
  if r = 0 ∨ p256n ≤ r ∨ v = 0 ∨ p256n ≤ v ∨ !onCurve x y then false
  else
    let w := invMod v p256n
    match ecAdd (ecMul (some p256g) (ofBe digest * w % p256n) 256) (ecMul (some (x, y)) (r * w % p256n) 256) with
    | none => false
    | some (a, _) => decide (a % p256n = r)

end Sys2Proof.Machine
end

