-- ==== Sys2Proof/Machine/Lee.lean ====
section
/-! DEFINITION. Writes into lee (00 R14, R15; 12 R311, R317, R326), the rows that hold tiles (13 R333 to R348), and the banks of a tile (05 R131 to R137). -/

namespace Sys2Proof.Machine

/-! ### Rows (R333, R337, R339) -/

/-- The row domain of a tile, and the tiles of a row domain (R122, R333). -/
def rowDom (t : Nat) : Nat := 16 + 17 * (t / 128) + t % 16
def domDie (d : Nat) : Nat := (d - 16) / 17
def domRow (d : Nat) : Nat := (d - 16) % 17
def domTiles (d : Nat) : List Nat := (List.range 8).map fun col => 128 * domDie d + 16 * col + domRow d

/-- `d` numbers a row domain, or an A common domain (log 65). -/
def isRowDom (d : Nat) : Bool := decide (16 ≤ d ∧ d < 84 ∧ domRow d < 16)
def isCommonDom (d : Nat) : Bool := decide (16 ≤ d ∧ d < 84 ∧ domRow d = 16)

/-- A row domain's state; an unlisted row is in A0. -/
def State.row (s : State) (d : Nat) : Row := mget (fun _ => {}) s.power.rows d
def State.setRow (s : State) (d : Nat) (r : Row) : State :=
  { s with power := { s.power with rows := mset (fun _ => {}) s.power.rows d r } }

/-- A row takes jobs and writes: it is in A0, and its crest is restored (R340). -/
def Row.ready (r : Row) : Bool := decide (r.state = 0) && !r.waking && !r.crestDue

/-- The rows of a die in A3 (R340). -/
def State.a3Set (s : State) (k : Nat) : List Nat := ((List.range 16).map fun r => 16 + 17 * k + r).filter fun d => decide ((s.row d).state = 3)

/-- A wake request (R339), with what its exit latency counts; a row in A0 or already waking stays so. -/
def State.wakeRow (s : State) (d : Nat) : State :=
  let r := s.row d
  if r.state = 0 ∨ r.waking then s else s.setRow d { r with
    waking := true, wakeAt := s.time.now, late := false, wakeSet := if r.state = 3 then s.a3Set (domDie d) else []
    wakeCommon := s.power.commonA1.toList.getD (domDie d) false }

/-! ### RWL writes (R14, R15, R326) -/

/-- The mesa die that holds a banked word; the BZ31 ledger lies in mesa die 0 and is no part of its banks (R311). -/
def leeDie (a : Nat) : Nat := if a < 0x00400000 ∨ 0x00800000 ≤ a then 0 else (a - 0x00400000) / 0x00200000
def inLedger (a : Nat) : Bool := decide (mesaBase 0 + ledgerOff ≤ a ∧ a < mesaBase 0 + ledgerOff + 0x4000)

/-- A discarded RWL write makes a LEE_LOCKED record (R15, R569). -/
def State.leeLocked (s : State) (a : Nat) : State :=
  s.fault (leeDie a) none { cls := 0x0002, sev := 0, kind := 2, index := leeDie a, detail := a }

/-- Lee is locked from the acceptance of a slip until it completes or aborts (R15, R319). -/
def State.leeShut (s : State) : Bool := decide (s.slip.st ≠ .idle)

/-- Set the RWL bits of a word in lee; a write replaces a poisoned word (R574). -/
def State.setLee (s : State) (a : Nat) (mask v : Word) : State :=
  { s with lee := mset regReset s.lee a (mergeMask mask (s.leeWord a) v), leeBad := mdel s.leeBad a }

/-- An error found in a word of a mesa bank or of the ledger (R574): `bank` is 0 for crest, 1 for lee, 2 for the retiring bank. -/
def State.rwlError (s : State) (bank a : Nat) (ue : Bool) : State :=
  let f : FaultInfo := { cls := 0x0011, sev := 2, kind := 2, index := leeDie a, addr := a, detail := 6 }
  if !ue then s.faultThrottled (!bit (s.reg 0x5000) 0) (leeDie a) { f with cls := 0x0010, sev := 1 }
  else
    let s := match bank with
      | 0 => { s with crestBad := mset clean s.crestBad a true }
      | 1 => { s with leeBad := mset clean s.leeBad a true }
      | _ => { s with oldBad := mset clean s.oldBad a true }
    s.fault (leeDie a) none f

/-- The errors that a read of some words of a bank finds (R574); an error outside them is not read (log 16). -/
def State.rwlReads (s : State) (bank : Nat) (reads : Nat → Bool) (hits : List EccHit) : State :=
  hits.foldl (fun s e => if e.store = 6 ∧ e.addr % 4 = 0 ∧ reads e.addr then s.rwlError bank e.addr e.ue else s) s

/-- The bank that work of mesa die `j` reads: crest, or the retiring one (R312). -/
def State.bankOf (s : State) (j : Nat) (old : Bool) : Nat := if old && (s.old.toList.getD j none).isSome then 2 else 0

/-- Hold a write until lee has been refreshed; mesa die 0 holds at most 64, and takes no more (R326). -/
def State.holdWrite (s : State) (a : Nat) (mask v : Word) : State :=
  if s.heldWrites.length < 64 then { s with heldWrites := s.heldWrites ++ [{ addr := a, value := v, mask }] } else s

/-- The lee of a mesa die is retiring or being refreshed. -/
def State.leeBusy (s : State) (j : Nat) : Bool :=
  s.refreshing.toList.getD j false || (s.old.toList.getD j none).isSome

/-- A write to the RWL bits of a mesa word. -/
def State.leeWrite (s : State) (a : Nat) (mask v : Word) : State :=
  if s.leeShut then s.leeLocked a
  else if !inLedger a && s.leeBusy (leeDie a) then s.holdWrite a mask v
  else s.setLee a mask v

/-! ### Banked state of a tile -/

/-- The half that is lee (R131). -/
def State.leeHalf (s : State) (t : Nat) : Nat := 1 - s.crestHalf t

/-- Change one bank of a tile. -/
def State.modHalf (s : State) (t h : Nat) (f : TileBank → TileBank) : State := s.modTile t fun x => x.setHalf h (f (x.half h))

/-- Store one T13 codebook entry (R151). -/
def TileBank.setCb (b : TileBank) (i v : Nat) : TileBank := { b with cb := mset (fun _ => 0) b.cb i (t13Store v) }

/-- Byte `n` of a word table. -/
def wordBytes (m : SMap Word) (n : Nat) : List Byte := (List.range n).flatMap fun i => leBytes 4 (mget (fun _ => 0) m i).toNat

/-- The tables of a bank, serialised: codebooks, scale file, misfit slots (R315). -/
def TileBank.tables (b : TileBank) : List Byte :=
  ((List.range 512).flatMap fun i => leBytes 2 (mget (fun _ => 0) b.cb i)) ++ wordBytes b.scale 16384 ++ b.slots.bytes 0 1024

/-- A tile's bank, serialised (R315). -/
def State.tileSerial (s : State) (t h : Nat) : List Byte :=
  let b := (s.tile t).half h
  if s.leeEn t then b.wbed.bytes 0 0x180000 ++ (b.imem.bytes 0 0x8000 ++ b.tables) else b.tables

/-- A tile's checksum (R314, R315). -/
def State.tileSum (s : State) (t h : Nat) : Nat := crc64 (s.tileSerial t h)

/-- The expected lee checksum of a tile follows a write into its lee (R321; log 36). -/
def State.expectLee (s : State) (t : Nat) : State :=
  { s with loader := { s.loader with expect := mins t (s.tileSum t (s.leeHalf t)) s.loader.expect } }

/-- A register write of word `j` of the TILE_CB window lands in the lee bank (R148). -/
def State.cbWord (s : State) (t j : Nat) (v : Word) : State :=
  (s.modHalf t (s.leeHalf t) fun b => (b.setCb (2 * j) (fld v 12 0)).setCb (2 * j + 1) (fld v 28 16)).expectLee t

/-- The lee of a tile is retiring or being refreshed (R133, R326), or its row holds it back (R337). -/
def State.tileLeeBusy (s : State) (t : Nat) : Bool :=
  (s.tile t).retiring.isSome || (s.tile t).refreshing || !(s.row (rowDom t)).ready || (s.row (rowDom t)).leeDue

/-- Apply the held writes of a tile's window, in arrival order (R326). -/
def State.releaseTile (s : State) (t : Nat) : State :=
  if s.tileLeeBusy t then s else
  let mine := s.heldWrites.filter fun w => decide (tileBase t ≤ w.addr ∧ w.addr < tileBase t + 0x1000)
  let s := { s with heldWrites := s.heldWrites.filter fun w => !decide (tileBase t ≤ w.addr ∧ w.addr < tileBase t + 0x1000) }
  mine.foldl (fun s w => s.cbWord t ((w.addr - tileBase t - 0x400) / 4) w.value) s

/-- A write through the TILE_CB window (R15, R148, R339, R341): it sets NO_A3, wakes the row, and lands in lee when lee may be written (log 14). -/
def State.cbWrite (s : State) (t j : Nat) (v : Word) : State :=
  if s.leeShut then s.leeLocked (tileBase t + 0x400 + 4 * j)
  else
    let s := (s.setRow (rowDom t) { s.row (rowDom t) with noA3 := true }).wakeRow (rowDom t)
    if s.tileLeeBusy t then s.holdWrite (tileBase t + 0x400 + 4 * j) 0x1FFF1FFF v else s.cbWord t j v

/-- Set a 64-bit read-only register pair. -/
def State.setPair (s : State) (a v : Nat) : State := (s.setReg a (loWord v)).setReg (a + 4) (hiWord v)

/-- A 64-bit register pair as a number. -/
def State.getPair (s : State) (a : Nat) : Nat := pairVal (s.reg a) (s.reg (a + 4))

end Sys2Proof.Machine
end

