-- ==== Sys2Proof/Machine/Slip.lean ====
section
/-! DEFINITION. The slip coordinator (12 R318 to R332): requests, parties, checksums, the lee digest, commit and abort (log 30). -/

namespace Sys2Proof.Machine

/-! ### Slip frames of a DFL port (R458) -/

/-- A SLIP frame: OP, SLIP_ID, SLIP_POINT. -/
def slipBytes (op id point : Nat) : List Byte := [0x06, 0, BitVec.ofNat 8 op, 0] ++ leBytes 2 id ++ leBytes 8 point

/-- The words of a ledger block, as bytes (R311). -/
def ledgerBytes (m : SMap Word) (c : Nat) : List Byte :=
  (List.range 512).flatMap fun i => leBytes 4 (mget regReset m (mesaBase 0 + ledgerOff + 0x1000 * c + 4 * i)).toNat

/-- A LEE_DATA frame. -/
def leeDataBytes (m : SMap Word) (c chunk id : Nat) : List Byte :=
  [0x05, 0, BitVec.ofNat 8 chunk, BitVec.ofNat 8 id] ++ ((ledgerBytes m c).drop (64 * chunk)).take 64 ++ leBytes 2 0

/-- Queue SLIP frames toward a chip; COMMIT and ABORT are sent twice (R323). -/
def State.sendSlip (s : State) (c op : Nat) : State :=
  let f : DflFrame := { prio := 3, bytes := slipBytes op s.slip.id s.slip.point }
  let d := (s.port c).queueFrame f
  s.setPort c (if op = 1 then d else d.queueFrame f)

/-- Queue the 32 chunks of a ledger block; the reseat sends the crest block, a prepare the lee block (R328, R458). -/
def State.sendChunks (s : State) (c : Nat) (m : SMap Word) : State :=
  (List.range 32).foldl (fun s k =>
    s.setPort c ((s.port c).queueFrame { prio := 6, bytes := leeDataBytes m c k (s.slip.id % 256) }))
    (s.setPort c { s.port c with chunks := (List.range 32).map fun k => (k, 0, 0) })

/-! ### Requests and aborts (R318, R322, R325) -/

/-- MESA_SLIP_PARTY (R330). -/
def Party.word : Party → Word
  | .tile t => BitVec.ofNat 32 (4 * t)
  | .mesa d => BitVec.ofNat 32 (1 + 4 * d)
  | .chip c => BitVec.ofNat 32 (2 + 4 * c)

/-- The chips that are parties, or that hold COMMIT. -/
def Slip.chips (p : Slip) : List Nat := p.parties.filterMap fun x => match x with | .chip c => some c | _ => none

/-- The slip command of the host protocol has its outcome (R398). -/
def State.slipReply (s : State) (status reason : Nat) : State :=
  match s.link.slipCmd with
  | none => s
  | some c => ({ s with link := { s.link with slipCmd := none } }).hpDone c status reason s.slip.id

/-- Add 1 to a half of MESA_SLIP_CNT. -/
def State.slipCount (s : State) (hi : Bool) : State :=
  let w := s.reg 0x240
  s.setReg 0x240 (if hi then setFld w 31 16 (satAdd 0xFFFF (fld w 31 16) 1) else setFld w 15 0 (satAdd 0xFFFF (fld w 15 0) 1))

/-- Abort the slip (R325). -/
def State.slipAbort (s : State) (reason : Nat) (party : Option Party) : State :=
  let s := s.slip.chips.foldl (fun s c => s.sendSlip c 3) s
  let s := { s with slip := { s.slip with st := .idle, reason, failed := party } }
  let s := match party with | some p => s.setReg 0x218 p.word | none => s
  ((s.slipFlag 4).slipCount true).slipReply 4 reason

/-- A party of a preparing slip is lost (R322). -/
def State.partyGone (s : State) (p : Party) : State :=
  if s.slip.st = .preparing ∧ p ∈ s.slip.parties then s.slipAbort 8 (some p) else s

/-- A load or an unload runs (R318). -/
def State.loading (s : State) : Bool := match s.link.adminNow with | some c => byteAt c.bytes 0 == 3 || byteAt c.bytes 0 == 4 | none => false

/-- Why a request is refused, or 0 (R318). -/
def State.slipRefusal (s : State) (point deadline : Nat) : Nat :=
  let now := s.time.now
  if s.slip.st ≠ .idle ∨ s.loading then 0x0B
  else if deadline < now + 200000 ∨ now + 10000000000 < deadline ∨ point < deadline + 100000 ∨ deadline + 10000000000 < point then 0x0C
  else if s.replaying then 0x0D
  else 0

/-- The parties of a slip (R318, R329): the tiles and mesa dies in service, the attached chips outside EXCLUDE. -/
def State.slipParties (s : State) (exclude : Nat) : List Party :=
  ((List.range 512).filter fun t => s.tileOn t).map Party.tile ++
  ((List.range 2).filter fun d => s.mesaLive d).map Party.mesa ++
  ((List.range 4).filter fun c => s.dflLive c && (s.port c).attached && !exclude.testBit c).map Party.chip

/-- A request (R318): each takes the next SLIP_ID; an accepted one opens prepare and sends PREPARE with the lee blocks. -/
def State.slipRequest (s : State) (point deadline expect exclude : Nat) : State :=
  let why := s.slipRefusal point deadline
  let s := { s with slip := { s.slip with id := (s.slip.id + 1) % 65536 } }
  if why ≠ 0 then
    { s with slip := { s.slip with reason := why } }.slipFlag 7
  else
    let ps := s.slipParties exclude
    let s := { s with slip := { s.slip with
      st := .preparing, point, deadline, expect, parties := ps, prepared := [], answers := [], acked := [], committed := [], commitAcked := []
      mesaSum := .replicate 2 0, failed := none } }
    s.slip.chips.foldl (fun s c => (s.sendSlip c 1).sendChunks c s.lee) s

/-- EXPECT of the registers (R330). -/
def State.expectRegs (s : State) : Nat := (List.range 8).foldl (fun v k => v + (s.reg (0x220 + 4 * k)).toNat * 2 ^ (32 * k)) 0

/-- SLIP_PREPARE_WRITE (R318, R330): PREPARE submits a request with the register fields. -/
def execSlipPrepareWrite (value : Word) (t : Time) (s : State) : Host.Outcome State Fault Refusal :=
  .next (
    let s := (s.at t).setReg 0x200 (value &&& 0xF0)
    if bit value 0 then s.slipRequest (s.getPair 0x208) (s.getPair 0x210) s.expectRegs (fld value 7 4) else s)

/-- SLIP_ABORT_WRITE (R323): honoured while PREPARING, refused while ARMING or ARMED; with no slip nothing happens. -/
def execSlipAbortWrite (t : Time) (s : State) : Host.Outcome State Fault Refusal :=
  .next (
    let s := s.at t
    match s.slip.st with
    | .idle => s
    | .preparing => s.slipAbort 0x0A none
    | _ => s.slipFlag 6)

/-! ### What a party checks (R320) -/

/-- The addresses of a mesa die's RWL words, rising (R311, R315). -/
def rwlAddrs (d : Nat) : List Nat :=
  let run (base n : Nat) : List Nat := (List.range n).map fun i => base + 4 * i
  let m := mesaBase d
  let own := run m 0x140 ++ run (m + 0x60000) 0x100 ++ run (m + 0x80000) 0x50 ++ run (m + 0x100000) 0x20A ++ run (m + 0x140000) 0x80 ++
    run (m + 0x160000) 0x400 ++ run (m + 0x180000) 0x400
  ((if d = 0 then run 0x1000 0x2400 else []) ++ own).filter fun a => decide ((regInfo a).rwl ≠ 0)

/-- A mesa die's checksum (R315). -/
def mesaSumOf (m : SMap Word) (d : Nat) : Nat := crc64 ((rwlAddrs d).flatMap fun a => leBytes 4 (mget regReset m a).toNat)

/-- An image in either bank places weight-bed or instruction bytes on a tile. -/
def placesOn (i : Option Image) (t : Nat) : Bool :=
  match i with
  | none => false
  | some i => i.place.any fun p => decide (p.tile = t ∧ 0 < p.wbedLen + p.imemLen)

/-- The slip would change the weight bed or the instruction memory of a tile (R137). -/
def State.bedChanges (s : State) (t : Nat) : Bool :=
  (List.range 4).any fun k =>
    let l := s.loader.lee.toList.getD k none
    let c := s.loader.crest.toList.getD k none
    decide (l ≠ c) && (placesOn l t || placesOn c t)

/-- Classes of a die that are enabled in lee: the image they name, their entry, their FRAME_LEAD. -/
def State.leeClasses (s : State) (d : Nat) : List (Option Image × Nat × Nat) :=
  ((List.range 16).filter fun c => bit (s.leeWord (mesaBase d + 0x100 + 0x40 * c)) 0).map fun c =>
    let a := mesaBase d + 0x100 + 0x40 * c
    (s.loader.lee.toList.getD (fld (s.leeWord a) 2 1) none, fld (s.leeWord a) 10 3, fld (s.leeWord (a + 16)) 16 0)

/-- The NACK reason of a party, or 0 (R320). -/
def State.partyNack (s : State) : Party → Nat
  | .tile t =>
    if (s.tile t).retiring.isSome ∨ (s.tile t).refreshing then 6
    else if !s.leeEn t ∧ s.bedChanges t then 4
    else if s.leeEn t ∧ (((s.tile t).half (s.leeHalf t)).wbedPoison ≠ [] ∨ ((s.tile t).half (s.leeHalf t)).imemPoison ≠ []) then 7
    else 0
  | .mesa d =>
    if s.leeBad.any fun e => decide (leeDie e.1 = d) && !inLedger e.1 then 7
    else if (s.leeClasses d).any fun c => match c.1 with | some i => decide (c.2.2 < i.minLeadUs) | none => false then 5
    else if (s.leeClasses d).any fun c => match c.1 with
        | none => true
        | some i => !i.entries.any fun e => decide (e.entry = c.2.1 ∧ e.kind = 1) then 0x0F
    else 0
  | .chip _ => 0

/-- PARTY_PREPARE (R320): the party begins, and a row that does not retain its weight bed wakes (R337). -/
def execPartyPrepare (party : Party) (id : Nat) (t : Time) (s : State) : Host.Outcome State Fault Refusal :=
  .next (
    let s := s.at t
    if s.slip.st ≠ .preparing ∨ s.slip.id ≠ id ∨ party ∉ s.slip.parties ∨ party ∈ s.slip.prepared then s else
    let s := { s with slip := { s.slip with prepared := s.slip.prepared ++ [party] } }
    match party with
    | .tile u => if 2 ≤ (s.row (rowDom u)).state then s.wakeRow (rowDom u) else s
    | _ => s)

/-- A party can read its whole lee: a tile's row must hold its restored contents (R337, R340). -/
def State.partyAwake (s : State) : Party → Bool
  | .tile t => !(s.row (rowDom t)).waking && decide ((s.row (rowDom t)).state < 2) && !(s.row (rowDom t)).crestDue && !(s.row (rowDom t)).leeDue
  | _ => true

/-- A party's lee checksum (R315). -/
def State.partySum (s : State) : Party → Nat
  | .tile t => s.tileSum t (s.leeHalf t)
  | .mesa d => mesaSumOf s.lee d
  | .chip _ => 0

/-- The errors that a party finds as it reads its lee (R574): a tile in its half, a mesa die in its bank (log 16). -/
def State.leeReads (s : State) (hits : List EccHit) : Party → State
  | .tile u => hits.foldl (fun s e =>
      if s.leeEn u ∧ ((e.store = 1 ∧ e.addr < 0x180000) ∨ (e.store = 2 ∧ e.addr < 0x8000)) then
        (if e.ue then s.memUe u (s.leeHalf u) e.store e.addr 0 else s.memCe u e.store e.addr 0)
      else s) s
  | .mesa d => s.rwlReads 1 (fun a => decide (leeDie a = d) && !inLedger a && decide ((regInfo a).rwl ≠ 0)) hits
  | .chip _ => s

/-- PARTY_CHECKSUM_DONE (R320): the party answers ACK with its checksum, or NACK with the first reason; a chip answers with its own frame. -/
def execPartyChecksumDone (party : Party) (id : Nat) (hits : List EccHit) (t : Time) (s : State) : Host.Outcome State Fault Refusal :=
  .next (
    let s := s.at t
    match party with
    | .chip c =>
      if h : c < 4 then (if (s.chips[c]).slipId = id then { s with chips := s.chips.set c (s.chips[c]).slipChecksum } else s) else s
    | _ =>
      if s.slip.st ≠ .preparing ∨ s.slip.id ≠ id ∨ party ∉ s.slip.prepared ∨ (s.slip.answers.any fun a => decide (a.1 = party)) ∨ !s.partyAwake party then s
      else
        let s := s.leeReads hits party
        let why := s.partyNack party
        let sum := s.partySum party
        let s := match party with | .tile u => s.setPair (tileBase u + 0x40) sum | _ => s
        { s with slip := { s.slip with answers := s.slip.answers ++ [(party, why, sum)] } })

/-! ### The coordinator (R319, R321, R322) -/

/-- The expected lee checksum of a tile (R321): that of a bank of zeros until the loader has written. -/
def State.expectedSum (s : State) (t : Nat) : Nat :=
  match s.loader.expect.find? fun e => decide (e.1 = t) with
  | some e => e.2
  | none => crc64 (List.replicate (if s.leeEn t then 1673216 else 67584) 0)

/-- The slip manifest of a bank (R316). -/
def manifest (ids : List Nat) (mesa chips : List Nat) : List Byte := ids.flatMap (leBytes 32) ++ mesa.flatMap (leBytes 8) ++ chips.flatMap (leBytes 8)

/-- The result crest digest that the lee would have (R316; log 31). -/
def State.formDigest (s : State) : Nat :=
  ofLe (sha256 (manifest (s.loader.lee.toList.map fun i => match i with | some i => i.ident | none => 0)
    s.slip.mesaSum.toList ((List.range 4).map fun c => if s.fuses.optA ∧ c < 2 * s.fuses.mesaCount then crc64 (ledgerBytes s.lee c) else 0)))

/-- An acknowledged checksum differs from the one that the coordinator expects (R321). -/
def State.sumWrong (s : State) (p : Party) (sum : Nat) : Bool :=
  match p with
  | .tile t => decide (sum ≠ s.expectedSum t)
  | .chip c => decide (sum ≠ crc64 (ledgerBytes s.lee c))
  | .mesa _ => false

/-- Once every mesa die has acknowledged, the lee digest is formed (R321). -/
def State.digestStep (s : State) : State :=
  if s.slip.parties.all fun p => (match p with | .mesa _ => decide (p ∈ s.slip.acked) | _ => true) then
    { s with slip := { s.slip with leeDigest := s.formDigest } }
  else s

/-- COMMIT goes to every party once the last check has passed (R319, R323). -/
def State.armStep (s : State) : State :=
  if s.slip.parties.all fun p => decide (p ∈ s.slip.acked) then
    let s := { s with slip := { s.slip with st := .arming } }
    s.slip.chips.foldl (fun s c => s.sendSlip c 2) s
  else s

/-- An ACK has reached the coordinator (R321). -/
def State.slipAck (s : State) (p : Party) (sum : Nat) : State :=
  if s.sumWrong p sum then s.slipAbort 2 (some p)
  else
    let s := { s with slip := { s.slip with acked := s.slip.acked ++ [p] } }
    match p with
    | .mesa d =>
      let s := ({ s with slip := { s.slip with mesaSum := s.slip.mesaSum.setIfInBounds d sum } }).digestStep
      let all := s.slip.parties.all fun q => (match q with | .mesa _ => decide (q ∈ s.slip.acked) | _ => true)
      if all ∧ s.slip.expect ≠ 0 ∧ s.slip.expect ≠ s.slip.leeDigest then s.slipAbort 3 none else s.armStep
    | _ => s.armStep

/-- An ACK or a NACK of a party can still count (R322). -/
def State.awaits (s : State) (p : Party) (id : Nat) : Bool :=
  decide (s.slip.st = .preparing ∧ s.slip.id = id ∧ p ∈ s.slip.parties ∧ p ∉ s.slip.acked) && decide (s.time.now ≤ s.slip.deadline)

/-- A word of a chip's ledger lee block is poisoned (R320, R574). -/
def State.ledgerBad (s : State) (c : Nat) : Bool :=
  s.leeBad.any fun e => decide (mesaBase 0 + ledgerOff + 0x1000 * c ≤ e.1 ∧ e.1 < mesaBase 0 + ledgerOff + 0x1000 * c + 0x800)

/-- PREPARE_ACK (R321, R322): what a tile or a mesa die acknowledges is the checksum it answered; a chip whose ledger block is poisoned, and an unseated chip, count as NACK (R320). -/
def execPrepareAck (party : Party) (id : Nat) (sum : Nat) (t : Time) (s : State) : Host.Outcome State Fault Refusal :=
  .next (
    let s := s.at t
    if !s.awaits party id then s else
    match party with
    | .chip c =>
      if s.ledgerBad c then s.slipAbort 7 (some party)
      else if !(s.port c).seated then s.slipAbort 0x0E (some party) else s.slipAck party sum
    | _ => if (party, 0, sum) ∈ s.slip.answers then s.slipAck party sum else s)

/-- PREPARE_NACK (R322): the slip aborts with the reason of the NACK. -/
def execPrepareNack (party : Party) (id : Nat) (reason : Nat) (t : Time) (s : State) : Host.Outcome State Fault Refusal :=
  .next (
    let s := s.at t
    if !s.awaits party id ∨ reason = 0 then s else
    match party with
    | .chip _ => s.slipAbort reason (some party)
    | _ => if s.slip.answers.any fun a => decide (a.1 = party ∧ a.2.1 = reason) then s.slipAbort reason (some party) else s)

/-- SLIP_PREPARE_TIMEOUT (R322). -/
def execSlipPrepareTimeout (t : Time) (s : State) : Host.Outcome State Fault Refusal :=
  .next (
    let s := s.at t
    if s.slip.st = .preparing ∧ s.slip.deadline ≤ s.time.now then
      s.slipAbort 1 (s.slip.parties.find? fun p => decide (p ∉ s.slip.acked))
    else s)

/-- PARTY_COMMIT (R323): the party stores the digest with its lee bank; a chip has its own row. -/
def execPartyCommit (party : Party) (id : Nat) (t : Time) (s : State) : Host.Outcome State Fault Refusal :=
  .next (
    let s := s.at t
    if s.slip.st ≠ .arming ∨ s.slip.id ≠ id ∨ party ∉ s.slip.parties then s else
    match party with
    | .chip _ => s
    | .mesa _ => { s with slip := { s.slip with committed := (party :: s.slip.committed).eraseDups } }
    | .tile u =>
      let s := { s with slip := { s.slip with committed := (party :: s.slip.committed).eraseDups } }
      s.modHalf u (s.leeHalf u) fun b => { b with digest := s.slip.leeDigest })

/-- COMMIT_ACK_RECEIVE (R319): after the last one the slip is ARMED. -/
def execCommitAckReceive (party : Party) (id : Nat) (t : Time) (s : State) : Host.Outcome State Fault Refusal :=
  .next (
    let s := s.at t
    let known := match party with | .chip _ => true | _ => decide (party ∈ s.slip.committed)
    if s.slip.st ≠ .arming ∨ s.slip.id ≠ id ∨ party ∉ s.slip.parties ∨ !known then s else
    let s := { s with slip := { s.slip with commitAcked := (party :: s.slip.commitAcked).eraseDups } }
    if s.slip.parties.all fun p => decide (p ∈ s.slip.commitAcked) then { s with slip := { s.slip with st := .armed } } else s)

/-- SLIP_ARM_TIMEOUT (R319): the arm deadline is SLIP_POINT − 40 µs. -/
def execSlipArmTimeout (t : Time) (s : State) : Host.Outcome State Fault Refusal :=
  .next (
    let s := s.at t
    if s.slip.st = .arming ∧ s.slip.point ≤ s.time.now + 40000 then
      s.slipAbort 9 (s.slip.parties.find? fun p => decide (p ∉ s.slip.commitAcked))
    else s)

/-- PARTY_ABORT (R325): the party forgets the prepare; its crest and its lee stay as they are. -/
def execPartyAbort (party : Party) (id : Nat) (t : Time) (s : State) : Host.Outcome State Fault Refusal :=
  .next (
    let s := s.at t
    if s.slip.st ≠ .idle ∨ s.slip.id ≠ id then s else
    { s with slip := { s.slip with
      prepared := s.slip.prepared.filter fun p => decide (p ≠ party)
      answers := s.slip.answers.filter fun a => decide (a.1 ≠ party)
      committed := s.slip.committed.filter fun p => decide (p ≠ party) } })

/-! ### The slip point, retirement and refresh (R133, R324 to R329) -/

/-- Note the port's present state under a stamp; a replay takes the chip's states from its log (R93). -/
def State.noteChip (s : State) (p : Nat) (st : Stamp) : State :=
  if s.replaying then s else
  let d := s.port p
  s.setPort p { d with history := d.history ++ [{ stamp := st, up := d.up, seated := d.seated, attached := d.attached, held := d.held }] }

/-- The status stamp of a chip at a time (R62, R548). -/
def chipStamp (p : Nat) (t : Time) : Stamp := mkStamp t 4 (p / 2) (8 + p % 2)

/-- A chip is unseated (R328): the record, SPLIT, its channels held, and the reseat. -/
def State.unseat (s : State) (c : Nat) : State :=
  let s := (s.slipFlag 5).fault (c / 2) none { cls := 0x0008, sev := 2, kind := 3, index := c, detail := c }
  let d := s.port c
  let s := (s.setPort c { d with seated := false, reseat := true, compareDue := true }).noteChip c (chipStamp c s.time.now)
  if d.up then s.sendChunks c s.crest else s

/-- A tile at the slip point (R324). -/
def State.tileSlips (s : State) (t : Nat) : State :=
  let a := tileBase t
  let w := s.reg (a + 8)
  let w := setFld w 31 16 ((fld w 31 16 + 1) % 65536)
  let s := s.setReg (a + 8) (setFld (setFld w 0 0 (1 - fld w 0 0)) 1 1 1)
  let s := s.setPair (a + 0x48) (s.getPair (a + 0x40))
  s.modTile t fun x => { x with retiring := some s.slip.point }

/-- The banked words of a mesa die (R311), and those of the other die and of the ledger. -/
def mesaBank {α : Type} (d : Nat) (m : SMap α) : SMap α := m.filter fun e => decide (leeDie e.1 = d) && !inLedger e.1
def notBank {α : Type} (d : Nat) (m : SMap α) : SMap α := m.filter fun e => decide (leeDie e.1 ≠ d) || inLedger e.1

/-- A table of poisoned words with a mesa die's part taken from another. -/
def mixBad (d : Nat) (keep new : SMap Bool) : SMap Bool := (mesaBank d new).foldl (fun m e => mset clean m e.1 e.2) (notBank d keep)

/-- A mesa die at the slip point: its crest retires (R324, R326); its trigger inputs keep the lag that ends (R415). -/
def State.mesaSlips (s : State) (d : Nat) : State :=
  let g := s.ingress.toList.getD d {}
  { s with
    old := s.old.setIfInBounds d (some (mesaBank d s.crest)), oldBad := mixBad d s.oldBad s.crestBad
    ingress := s.ingress.setIfInBounds d { g with
      trig := Vector.ofFn fun n => { g.trig[n] with oldLag := 40 + 8 * fld (s.bankWord d false (mesaBase d + 0x100000 + 4 * n.val)) 10 3 } } }

/-- SLIP_POINT (R324): every party makes lee crest, and the coordinator records the commit. -/
def execSlipPoint (t : Time) (s : State) : Host.Outcome State Fault Refusal :=
  .next (
    let s := s.at t
    if s.slip.st ≠ .armed ∨ s.time.now < s.slip.point then s else
    let s := s.slip.parties.foldl (fun s p => match p with | .tile u => s.tileSlips u | .mesa d => s.mesaSlips d | .chip _ => s) s
    let out := (List.range 4).filter fun c => (s.port c).attached && !decide (Party.chip c ∈ s.slip.parties)
    let s := { s with
      crest := s.lee, crestBad := s.leeBad
      oldDigest := s.slip.crestDigest
      loader := { s.loader with old := s.loader.crest, crest := s.loader.lee, changed := .replicate 4 false }
      slip := { s.slip with st := .idle, crestDigest := s.slip.leeDigest, last := s.slip.point, lastPoint := some s.slip.point } }
    let s := ((s.slipFlag 3).slipCount false).slipReply 0 0
    out.foldl (fun s c => s.unseat c) s)

/-- A job stamped before a slip point. -/
def Job.before (j : Job) (p : Time) : Bool := decide (stampTime j.id.stamp < p)

/-- Jobs that run on a tile and hold its retiring half (R133). -/
def State.holders (s : State) (t : Nat) (p : Time) : List Job := s.jobs.filter fun j => j.before p && decide (t ∈ j.running)

/-- Reservations on a tile with a stamp before the slip point, which have not ended. -/
def State.tileReserved (s : State) (t : Nat) (p : Time) : Bool :=
  s.jobs.any fun j => j.before p && j.reserved && decide (t ∈ j.tiles) && decide (s.time.now < j.end_)

/-- Stop a job whose bank is reclaimed (R133, R326). -/
def State.reclaim (s : State) (id : JobId) (tiles : List Nat) (unit : Nat) : State :=
  let s := tiles.foldl (fun s t => s.tileFlag t 6) s
  s.stopJob id 0x0A 0 0 unit

/-- The retiring half becomes lee and is refreshed (R133, R326). -/
def State.retireTile (s : State) (t : Nat) : State :=
  let a := tileBase t + 8
  (s.setReg a (setFld (s.reg a) 1 1 0)).modTile t fun x => { x with retiring := none, refreshing := true }

/-- TILE_BANK_RETIRE_END (R133): `lee` when a lee write waits, which stops the not-admitted jobs that hold the half. -/
def execTileBankRetireEnd (tile : Fin 512) (lee : Bool) (t : Time) (s : State) : Host.Outcome State Fault Refusal :=
  .next (
    let s := s.at t
    match (s.tile tile).retiring with
    | none => s
    | some p =>
      if s.tileReserved tile p then s else
      let hs := s.holders tile p
      if hs.any fun j => j.admitted then s
      else if hs = [] then s.retireTile tile
      else if lee then (hs.foldl (fun s j => s.reclaim j.id [tile.val] tile) s).retireTile tile
      else s)

/-- Work of a mesa die stamped before the slip point that is not over: reservations, verdicts, running jobs (R326). -/
def State.mesaHeld (s : State) (d : Nat) (p : Time) : Bool :=
  (s.jobs.any fun j => j.before p && decide (j.die = d) && ((j.reserved && decide (s.time.now < j.end_)) || decide (j.running ≠ []))) ||
  s.cycles.any fun c => decide (stampTime c.id.stamp < p ∧ c.die = d ∧ c.verdict = none)

/-- MESA_BANK_RETIRE_END (R326). -/
def execMesaBankRetireEnd (die : Fin 2) (t : Time) (s : State) : Host.Outcome State Fault Refusal :=
  .next (
    let s := s.at t
    match s.old[die], s.slip.lastPoint with
    | some _, some p =>
      if s.mesaHeld die p then s else { s with old := s.old.set die none, oldBad := notBank die s.oldBad, refreshing := s.refreshing.set die true }
    | _, _ => s)

/-- SLIP_RECLAIM_TIMEOUT (R326): 1 ms after the slip point a not-admitted job stamped before it stops. -/
def execSlipReclaimTimeout (job : JobId) (t : Time) (s : State) : Host.Outcome State Fault Refusal :=
  .next (
    let s := s.at t
    match s.job job, s.slip.lastPoint with
    | some j, some p =>
      if !j.admitted ∧ j.before p ∧ j.running ≠ [] ∧ p + 1000000 ≤ s.time.now then s.reclaim job j.running j.die else s
    | _, _ => s)

/-- Lee becomes a copy of crest on a tile (R326), with its expected checksum. -/
def State.refreshTile (s : State) (t : Nat) : State :=
  let c := s.crestHalf t
  let s := s.modTile t fun x =>
    let b := if s.leeEn t then x.half c else { x.half c with
      wbed := (x.half (1 - c)).wbed, imem := (x.half (1 - c)).imem
      wbedPoison := (x.half (1 - c)).wbedPoison, imemPoison := (x.half (1 - c)).imemPoison }
    { x.setHalf (1 - c) b with refreshing := false }
  let s := { s with loader := { s.loader with expect := mins t (s.getPair (tileBase t + 0x48)) s.loader.expect } }
  s.releaseTile t

/-- Lee becomes a copy of crest on a mesa die (R326); the writes held for it are applied in arrival order. -/
def State.refreshMesa (s : State) (d : Nat) : State :=
  let s := { s with
    lee := (mesaBank d s.crest).foldl (fun (m : SMap Word) (e : Nat × Word) => mset regReset m e.1 e.2) (notBank d s.lee)
    leeBad := mixBad d s.leeBad s.crestBad
    refreshing := s.refreshing.setIfInBounds d false }
  let mine := s.heldWrites.filter fun (w : HeldWrite) => decide (leeDie w.addr = d) && decide (w.addr < 0x00800000 ∨ 0x00A00000 ≤ w.addr)
  let s := { s with heldWrites := s.heldWrites.filter fun (w : HeldWrite) => !(decide (leeDie w.addr = d) && decide (w.addr < 0x00800000 ∨ 0x00A00000 ≤ w.addr)) }
  mine.foldl (fun (s : State) (w : HeldWrite) => s.setLee w.addr w.mask w.value) s

/-- LEE_REFRESH_DONE (R326). -/
def execLeeRefreshDone (party : Party) (t : Time) (s : State) : Host.Outcome State Fault Refusal :=
  .next (
    let s := s.at t
    match party with
    | .tile u => if (s.tile u).refreshing then s.refreshTile u else s
    | .mesa d => if s.refreshing.toList.getD d false then s.refreshMesa d else s
    | .chip _ => s)

/-- LEE_CHUNK_RETRANSMIT (R458): a chunk without its REPLY within 4 µs is sent once more. -/
def execLeeChunkRetransmit (port : Fin 4) (chunk : Fin 32) (t : Time) (s : State) : Host.Outcome State Fault Refusal :=
  .next (
    let s := s.at t
    let d := s.port port
    match d.chunks.find? fun c => decide (c.1 = chunk.val ∧ c.2.2 = 1) with
    | none => s
    | some c =>
      if s.time.now < c.2.1 + 4000 then s else
      s.setPort port ({ d with chunks := d.chunks.map fun (x : Nat × Time × Nat) => if x.1 = chunk.val then (x.1, x.2.1, 2) else x }.queueFrame
        { prio := 6, bytes := leeDataBytes (if d.reseat then s.crest else s.lee) port chunk (s.slip.id % 256) }))

end Sys2Proof.Machine
end

