-- ==== Sys2Proof/Machine/Actuation.lean ====
section
/-! DEFINITION. The actuation unit (01 R30 to R40; 17 R444 to R453): commits, checks, verdicts, default actions, decision records (log 32). -/

namespace Sys2Proof.Machine

/-! ### The event body (R444) -/

/-- The 48 bytes of an event. -/
def ActEvent.body (e : ActEvent) : List Byte :=
  [0x15, BitVec.ofNat 8 e.action, BitVec.ofNat 8 (e.chip + 4 * e.kind), BitVec.ofNat 8 e.index, BitVec.ofNat 8 e.profile, BitVec.ofNat 8 e.flags] ++
  leBytes 2 0 ++ leBytes 4 e.duration ++ leBytes 4 0 ++ leBytes 8 e.fire ++ leBytes 8 e.deadline ++ leBytes 8 e.stamp.toNat ++ leBytes 4 e.seq ++
  leBytes 4 0

/-- A commit's body with the unit's fields filled in. -/
def filled (body : List Byte) (deadline : Time) (stamp : Stamp) (seq : Nat) : List Byte :=
  let b := padTo 48 body
  b.take 5 ++ [0] ++ (b.drop 6).take 18 ++ leBytes 8 deadline ++ leBytes 8 stamp.toNat ++ leBytes 4 seq ++ b.drop 0x2C

/-- The event that a body spells. -/
def eventOf (body : List Byte) (deadline : Time) (stamp : Stamp) (seq : Nat) : ActEvent :=
  { action := byteAt body 1, chip := byteAt body 2 % 4, kind := byteAt body 2 / 4 % 2, index := byteAt body 3, profile := byteAt body 4
    flags := 0, duration := leAt body 8 4, fire := leAt body 0x10 8, deadline, stamp, seq }

/-- ACTION suits KIND (R444): a high-side channel takes ON, OFF, PULSE and PROFILE, a solenoid output PROFILE. -/
def actionFits (action kind : Nat) : Bool := if kind = 0 then decide (1 ≤ action ∧ action ≤ 4) else decide (action = 4)

/-- A body has the form of R444 (check 2 of R446; log 38). -/
def bodyOk (body : List Byte) : Bool :=
  let b := padTo 48 body
  let action := byteAt b 1
  decide (byteAt b 0 = 0x15 ∧ leAt b 6 2 = 0 ∧ leAt b 0xC 4 = 0 ∧ leAt b 0x2C 4 = 0 ∧ byteAt b 2 < 8) &&
  (if action = 0 then decide (byteAt b 2 = 0 ∧ byteAt b 3 = 0 ∧ byteAt b 4 = 0 ∧ leAt b 8 4 = 0 ∧ leAt b 0x10 8 = 0)
   else actionFits action (byteAt b 2 / 4) && decide (byteAt b 3 < 12 ∧ byteAt b 4 < 64) &&
     (if action = 3 then decide (1 ≤ leAt b 8 4 ∧ leAt b 8 4 ≤ 16000000) else decide (leAt b 8 4 = 0)))

/-! ### The chip's state at T (R86, R446) -/

/-- A chip's state after its last status event at or before a stamp; in replay by the replayed log (R93). -/
def DflPort.atStamp (d : DflPort) (replay : Bool) (T : Stamp) : ChipState :=
  ((if replay then d.logged else d.history).filter fun h => decide (h.stamp.toNat ≤ T.toNat)).getLastD { stamp := 0, up := false, seated := false, attached := false, held := 0 }

/-- Checks 6 to 9 of R446 at T: the reason, or none. -/
def State.chipCheck (s : State) (T : Stamp) (chip kind index : Nat) : Option Nat :=
  let d := s.port chip
  let h := d.atStamp s.replaying T
  if !s.fuses.optA ∨ !s.dflLive chip ∨ !d.attached then some 0x08
  else if !h.seated then some 0x09
  else if !h.up then some 0x0A
  else if h.held.testBit (index + 12 * kind) then some 0x0B
  else none

/-! ### Cycles -/

/-- The cycle of a job name, and its change. -/
def State.cycle (s : State) (id : JobId) : Option Cycle := s.cycles.find? fun c => decide (c.id = id)
def State.modCycle (s : State) (id : JobId) (f : Cycle → Cycle) : State :=
  { s with cycles := mapIf (fun c => decide (c.id = id)) f s.cycles }

/-- ACT_STS flag of a verdict (17). -/
def verdictFlag : Nat → Option Nat
  | 2 => some 1
  | 3 => some 0
  | 4 => some 2
  | 5 => some 3
  | 6 => some 4
  | _ => none

/-- Write a decision record (R40, R451) with its counters and flags; `n` is 0, or numbers an appended one. -/
def State.decision (s : State) (c : Cycle) (n verdict reason : Nat) (ev : List Byte) : State :=
  let void := c.void ||| s.voidOf c.id
  let flags := b2n c.admitted + 2 * b2n c.capped + 4 * b2n s.replaying + 8 * b2n (decide (0 < n)) + 16 * b2n c.dfltSent + 32 * b2n c.dfltNotSent
  let rec_ := [0x19, BitVec.ofNat 8 flags, BitVec.ofNat 8 void, BitVec.ofNat 8 verdict, BitVec.ofNat 8 reason, BitVec.ofNat 8 (c.cls + 16 * c.die),
      BitVec.ofNat 8 (min 255 c.extra), 0] ++ leBytes 8 c.id.stamp.toNat ++ leBytes 8 c.ident ++ leBytes 8 c.crest ++ leBytes 8 c.digest ++ padTo 48 ev ++
      leBytes 8 ((c.commit.map fun m => m.receipt).getD 0) ++ leBytes 8 s.time.now
  let s := (s.makeRecord c.die 0 (some (keyOf c.id.stamp (0xFFFFFFF0 + min n 15))) rec_).countVoid void
  let s := s.count32 (mesaBase c.die + 0x40010 + 4 * verdict) 1
  let s := match verdictFlag verdict with | some b => s.actFlag c.die b | none => s
  if reason = 0x0A then s.actFlag c.die 7 else s

/-! ### Sending (R38, R448, R455, R459, R510) -/

/-- The EVENT frame. -/
def eventFrame (eid : Nat) (e : ActEvent) : List Byte :=
  [0x01, 0, BitVec.ofNat 8 e.action, BitVec.ofNat 8 (e.index % 16 + 16 * e.kind), BitVec.ofNat 8 e.profile, BitVec.ofNat 8 e.flags] ++ leBytes 2 eid ++
  leBytes 8 e.fire ++ leBytes 8 e.deadline ++ leBytes 8 e.stamp.toNat ++ leBytes 4 e.duration ++ leBytes 2 0

/-- An event is resolved once it has been scheduled and has fired; refused and abandoned ones leave the list (R455). -/
def DflEvent.open_ (e : DflEvent) (now : Time) : Bool := !(e.scheduled && decide (e.event.fire < now))

/-- The next handle that no open event holds (R455). -/
def DflPort.freeEid (d : DflPort) : Nat :=
  ((List.range 4096).map fun k => (d.nextEid + k) % 4096).find? (fun e => !d.events.any fun x => decide (x.eid = e)) |>.getD d.nextEid

/-- Send an event from its chip's port. In replay nothing crosses the link (R93); over a link that is down nothing is queued (R459). -/
def State.sendEvent (s : State) (id : JobId) (die : Nat) (e : ActEvent) : State :=
  let d := s.port e.chip
  let d := { d with events := d.events.filter fun x => x.open_ s.time.now }
  let eid := d.freeEid
  let d := { d with nextEid := (eid + 1) % 4096, events := d.events ++ [{ eid, event := e, cycle := id, cycleDie := die }] }
  s.setPort e.chip (if s.replaying || !d.up then d else d.queueFrame { prio := 2, bytes := eventFrame eid e, eid := some eid })

/-- A cycle has decided what it sends. -/
def Cycle.decided (c : Cycle) : Bool := c.verdict.isSome || c.checked

/-- The default action of a cycle (R37, R449, R453): checked at T, then sent, or held for its bank's turn.
`skip` names a chip that the default does not reach; `direct` follows a refusal by the chip. -/
def State.runDefault (s : State) (c : Cycle) (skip : Option Nat) (direct : Bool) : State :=
  let e := c.dflt
  if e.action = 0 ∨ c.dfltSent ∨ c.dfltNotSent then s
  else if skip = some e.chip ∨ (s.chipCheck c.id.stamp e.chip e.kind e.index).isSome ∨ (!s.replaying ∧ !(s.port e.chip).up) then
    s.modCycle c.id fun c => { c with dfltNotSent := true }
  else
    let e := if direct ∧ e.fire < s.time.now + 2000 then { e with fire := s.time.now + 2000 } else e
    let s := s.modCycle c.id fun c => { c with dfltSent := true, dflt := e }
    if e.kind = 1 ∧ !direct then s.modCycle c.id fun c => { c with queued := some e } else s.sendEvent c.id c.die e

/-- The event field of a record (R451). -/
def Cycle.recordEvent (c : Cycle) (verdict : Nat) : List Byte :=
  if verdict = 2 then (if c.dflt.action ≠ 0 ∨ c.commit.isSome then c.dflt.body else [])
  else match c.commit with
    | some m => filled m.body c.deadline c.id.stamp (m.key.toNat % 2 ^ 32)
    | none => []

/-- A verdict becomes final: the default action for any but COMMITTED, then the one decision record (R35, R40, R449). -/
def State.finish (s : State) (id : JobId) (verdict reason : Nat) (skip : Option Nat) (direct : Bool) : State :=
  match s.cycle id with
  | none => s
  | some c =>
    if c.verdict.isSome then s else
    let s := if verdict = 1 then s else s.runDefault c skip direct
    let s := s.modCycle id fun c => { c with verdict := some (verdict, reason), recorded := true }
    match s.cycle id with
    | none => s
    | some c => s.decision c 0 verdict reason (c.recordEvent verdict)

/-- A refusal that follows the record appends another (R40, R453). -/
def State.append (s : State) (id : JobId) (verdict reason : Nat) (ev : ActEvent) (skip : Option Nat) : State :=
  match s.cycle id with
  | none => s
  | some c =>
    let s := if ev.flags = 0 then s.runDefault c skip true else s
    let s := s.modCycle id fun c => { c with appended := c.appended + 1 }
    match s.cycle id with
    | none => s
    | some c => s.decision c c.appended verdict reason ev.body

/-- An event of a cycle has been refused or abandoned: the record, or an appended one; no further default follows a default. -/
def State.eventLost (s : State) (e : DflEvent) (verdict reason : Nat) : State :=
  let down := decide (reason = 0x0A)
  let s := if down then s.modCycle e.cycle fun c => { c with void := c.void ||| 4 } else s
  let skip := if down then some e.event.chip else none
  match s.cycle e.cycle with
  | none => s
  | some c =>
    if e.event.flags = 0 ∧ c.verdict = none then s.finish e.cycle verdict reason skip true
    else s.append e.cycle verdict reason e.event skip

/-- Abandon an event (R459). -/
def State.abandon (s : State) (p eid : Nat) : State :=
  let d := s.port p
  match d.events.find? fun e => decide (e.eid = eid ∧ e.scheduled = false) with
  | none => s
  | some e =>
    let s := s.setPort p { d with events := d.events.filter fun x => decide (x.eid ≠ eid), queue := d.queue.filter fun f => decide (f.eid ≠ some eid) }
    s.eventLost e 4 0x0A

/-- Send, and abandon at once over a link that is down. -/
def State.sendOrAbandon (s : State) (c : Cycle) (e : ActEvent) : State :=
  let s := s.sendEvent c.id c.die e
  if s.replaying || (s.port e.chip).up then s
  else match (s.port e.chip).events.getLast? with
    | some x => s.abandon e.chip x.eid
    | none => s

/-- Events of a solenoid bank leave in key order, once no cycle with a smaller key is undecided (R71, R510; log 19). -/
def State.bankRun (s : State) : State :=
  let open_ := s.cycles.filter fun c => !c.decided
  let ready := s.cycles.filter fun c => c.queued.isSome && open_.all fun o => decide (c.id.stamp.toNat < o.id.stamp.toNat)
  (sortBy (fun c : Cycle => c.id.stamp.toNat) ready).foldl (fun (s : State) (c : Cycle) =>
    match c.queued with
    | some e => (s.modCycle c.id fun c => { c with queued := none }).sendOrAbandon c e
    | none => s) s

/-- A final verdict, and what it lets go. -/
def State.resolve (s : State) (id : JobId) (verdict reason : Nat) : State := (s.finish id verdict reason none false).bankRun

/-! ### Commits (R445, R446) -/

/-- COMMIT_RECEIVE (R445): the commit is the ACT of PRODUCER 4095 and EMIT 0; every other one is stray. -/
def State.commitIn (s : State) (die : Nat) (key : Key) (void : Nat) (body : List Byte) : State :=
  match s.cycles.find? fun c => decide (c.id = keyId key ∧ c.die = die) with
  | none => s.actFlag die 5
  | some c =>
    if keyProd key = 4095 ∧ keyEmit key = 0 then
      if c.verdict.isSome ∨ c.commit.isSome then s
      else s.modCycle c.id fun c => { c with commit := some { receipt := s.time.now, key, void, body := padTo 48 body }, void := c.void ||| void }
    else (s.modCycle c.id fun c => { c with extra := min 255 (c.extra + 1) }).actFlag die 5

/-- COMMIT_RECEIVE. -/
def execCommitReceive (die : Fin 2) (key : Key) (void : Nat) (body : List Byte) (t : Time) (s : State) : Host.Outcome State Fault Refusal :=
  .next ((s.at t).commitIn die key void body)

/-- The first failing check of R446: a verdict with its reason, `none` for an event that goes out. ACTION NONE is COMMITTED at once. -/
def State.commitVerdict (s : State) (c : Cycle) (m : CommitMsg) (e : ActEvent) : Option (Nat × Nat) :=
  let T := stampTime c.id.stamp
  if c.deadline ≤ m.receipt then some (2, 3)
  else if !bodyOk m.body then some (4, 0x0C)
  else if e.action = 0 then some (1, 0)
  else if e.fire < c.deadline + 6000 then some (3, 6)
  else if T + 16000000000 < e.fire then some (4, 7)
  else (s.chipCheck c.id.stamp e.chip e.kind e.index).map fun r => (4, r)

/-- EVENT frames that wait on a port (R459). -/
def DflPort.waiting (d : DflPort) : Nat := (d.queue.filter fun f => decide (f.prio = 2)).length

/-- The check of a cycle's commit. -/
def State.commitCheck (s : State) (c : Cycle) (m : CommitMsg) : State :=
  let e := eventOf m.body c.deadline c.id.stamp (m.key.toNat % 2 ^ 32)
  match s.commitVerdict c m e with
  | some v => s.resolve c.id v.1 v.2
  | none =>
    if 64 ≤ (s.port e.chip).waiting then s
    else
      let s := s.modCycle c.id fun c => { c with checked := true, event := some e }
      if e.kind = 1 then (s.modCycle c.id fun c => { c with queued := some e }).bankRun
      else (s.sendOrAbandon c e).bankRun

/-- The cycle of a trigger stamp. -/
def State.cycleAt (s : State) (st : Stamp) : Option Cycle := s.cycles.find? fun c => decide (c.id = { stamp := st, job := 0 })

/-- COMMIT_CHECK (R446): once the status horizon, 4 µs behind station time, has passed T. -/
def execCommitCheck (stamp : Stamp) (t : Time) (s : State) : Host.Outcome State Fault Refusal :=
  .next (
    let s := s.at t
    match s.cycleAt stamp with
    | none => s
    | some c =>
      match c.commit with
      | none => s
      | some m => if c.decided ∨ s.time.now < stampTime stamp + 4000 then s else s.commitCheck c m)

/-- DEADLINE_EXPIRY (R36, R450): D has passed without a commit. -/
def execDeadlineExpiry (stamp : Stamp) (t : Time) (s : State) : Host.Outcome State Fault Refusal :=
  .next (
    let s := s.at t
    match s.cycleAt stamp with
    | none => s
    | some c =>
      if c.verdict.isSome ∨ c.commit.isSome ∨ s.time.now < c.deadline then s
      else s.resolve c.id 2 (if c.jobStopped then 5 else 4))

end Sys2Proof.Machine
end

