-- ==== Sys2Proof/Machine/Dfl.lean ====
section
/-! DEFINITION. The DFL ports and the reflex path (17 R447, R454 to R463; 20 R538, R547 to R550): frames both ways, link state, seating, register access (log 32). -/

namespace Sys2Proof.Machine

/-! ### Sending (R454, R457, R459) -/

/-- A port may send: DFL_HOLD is clear and station time runs (R603); nothing is sent in replay (R93). -/
def State.dflSends (s : State) (p : Nat) : Bool := s.dflLive p && !bit (s.reg 0x9018) 0 && s.time.running && !s.replaying

/-- The bytes on the wire: LSEQ in byte 1, the reference time in a TIME frame, the CRC behind. -/
def wireBytes (bs : List Byte) (lseq : Nat) (now : Time) : List Byte :=
  let b := bs.take 1 ++ [BitVec.ofNat 8 lseq] ++ bs.drop 2
  let b := if byteAt bs 0 = 3 then b.take 6 ++ leBytes 8 now else b
  b ++ leBytes 2 (crc16 b)

/-- A frame leaves the queue; a REFLEX frame goes out twice with one LSEQ (R462). -/
def DflPort.sendFirst (d : DflPort) (now : Time) : DflPort :=
  match d.queue with
  | [] => d
  | f :: rest =>
    let b := wireBytes f.bytes d.lseq now
    { d with
      queue := rest
      lseq := (d.lseq + 1) % 256
      wire := d.wire ++ (if f.prio = 1 then [b, b] else [b])
      events := mapIf (fun e => decide (some e.eid = f.eid)) (fun e => { e with sent := e.sent + 1, sentAt := now + 500 }) d.events
      chunks := d.chunks.map fun c => if f.prio = 6 ∧ c.1 = byteAt f.bytes 2 ∧ c.2.2 < 2 then (c.1, now + 900, max 1 c.2.2) else c
      reg := d.reg.map fun r => if f.prio = 5 ∧ byteAt f.bytes 3 = r.tag then { r with started := now } else r }

/-- DFL_FRAME_SEND (R454, R459): the first queued frame of the highest priority. -/
def execDflFrameSend (port : Fin 4) (t : Time) (s : State) : Host.Outcome State Fault Refusal :=
  .next (
    let s := s.at t
    if s.dflSends port then s.setPort port ((s.port port).sendFirst s.time.now) else s)

/-- DFL_TIME_TICK (R457): a TIME frame is queued; it carries the time of its own reference point. -/
def execDflTimeTick (port : Fin 4) (t : Time) (s : State) : Host.Outcome State Fault Refusal :=
  .next (
    let s := s.at t
    if s.dflSends port then s.setPort port ((s.port port).queueFrame { prio := 4, bytes := [0x03, 0] ++ leBytes 4 0 ++ leBytes 8 0 }) else s)

/-! ### Link state (R447, R538, R580) -/

/-- The link of a port goes down (R447, R459, R580): its queue is discarded, its unanswered events are abandoned, a slip loses the party; in replay the events have their replies from the log (R93; log 37). -/
def State.linkDown (s : State) (p : Nat) (at_ : Time) (cond : Nat) : State :=
  let st := chipStamp p at_
  let d := s.port p
  let lost := if s.replaying then [] else (d.events.filter fun e => !e.scheduled).map DflEvent.eid
  let s := (s.setPort p { d with up := false, queue := [], discards := 0, lockedRun := 0, ident := none, compareDue := true }).noteChip p st
  let s := s.fault (p / 2) none { cls := 0x0024, sev := 2, kind := 3, index := p, stamp := st, detail := p }
  let s := s.actFlag (p / 2) 7
  let s := if s.replaying then s else s.logInput (p / 2) 0 0xFF 0 (keyOf st 0) [0, BitVec.ofNat 8 p, BitVec.ofNat 8 cond, 0]
  ((lost.foldl (fun s e => s.abandon p e) s).bankRun).partyGone (.chip p)

/-- DFL_FRAME_DISCARD (R454, R580). -/
def execDflFrameDiscard (port : Fin 4) (t : Time) (s : State) : Host.Outcome State Fault Refusal :=
  .next (
    let s := s.at t
    if !s.dflLive port then s else
    let d := s.port port
    let s := s.setPort port { d with crcErr := min 255 (d.crcErr + 1), discards := d.discards + 1, lockedRun := 0 }
    s.faultThrottled (!bit (s.reg 0x5000) 0) (port / 2) { cls := 0x0025, sev := 1, kind := 3, index := port, detail := port })

/-- DFL_SILENCE_TIMEOUT (R447, R538): 1 ms since the end of the last valid frame. -/
def execDflSilenceTimeout (port : Fin 4) (t : Time) (s : State) : Host.Outcome State Fault Refusal :=
  .next (
    let s := s.at t
    let d := s.port port
    if d.up ∧ d.lastValid + 1000000 ≤ s.time.now then s.linkDown port (d.lastValid + 1000000) 0 else s)

/-- DFL_ALIGN_LOSS_TIMEOUT (R447, R538): 10 µs since the start of the alignment loss. -/
def execDflAlignLossTimeout (port : Fin 4) (since : Time) (t : Time) (s : State) : Host.Outcome State Fault Refusal :=
  .next (
    let s := s.at t
    if (s.port port).up ∧ since + 10000 ≤ s.time.now then s.linkDown port (since + 10000) 1 else s)

/-- DFL_DISCARD_COUNT (R447, R538): 16 frames discarded in a row. -/
def execDflDiscardCount (port : Fin 4) (t : Time) (s : State) : Host.Outcome State Fault Refusal :=
  .next (
    let s := s.at t
    if (s.port port).up ∧ 16 ≤ (s.port port).discards then s.linkDown port s.time.now 2 else s)

/-! ### Seating (R328, R543) -/

/-- AUTO_RELEASE of a port, in crest; ignored while UNCLEAN is set (R543, R608). -/
def State.autoRelease (s : State) (p : Nat) : Bool := !bit (s.reg 0x9010) 8 && bit (s.bankWord (p / 2) false (mesaBase (p / 2) + 0x80020 + 4 * (p % 2))) 0

/-- A chip is seated: its channels are released, and with AUTO_RELEASE the unit writes RELEASE (R328, R543). -/
def State.seat (s : State) (p : Nat) : State :=
  let d := s.port p
  let s := s.setPort p { d with seated := true, reseat := false, compareDue := false, chunks := [] }
  if d.seated then s
  else
    let s := s.noteChip p (chipStamp p s.time.now)
    if s.autoRelease p then s.sendReg p 0x010 1 else s

/-- Compare a chip's reported crest checksum with the ledger crest block (R328). -/
def State.compare (s : State) (p : Nat) : State :=
  let d := s.port p
  match d.ident with
  | none => s
  | some sum =>
    if !d.up ∨ !(d.compareDue || d.reseat || !d.seated) then s
    else if sum = crc64 (ledgerBytes s.crest p) then s.seat p
    else if d.reseat then s
    else s.unseat p

/-- DFL_LINK_UP (R447, R538): 10 valid locked STATUS frames in a row. -/
def execDflLinkUp (port : Fin 4) (t : Time) (s : State) : Host.Outcome State Fault Refusal :=
  .next (
    let s := s.at t
    let d := s.port port
    if d.up ∨ d.lockedRun < 10 ∨ !s.dflSends port then s else
    let st := chipStamp port s.time.now
    let s := (s.setPort port { d with up := true, discards := 0, lastValid := s.time.now }).noteChip port st
    let s := s.logInput (port / 2) 0 0xFF 0 (keyOf st 0) [1, BitVec.ofNat 8 port, 3, 0]
    let s := if (s.port port).reseat then s.sendChunks port s.crest else s
    s.compare port)

/-! ### STATUS frames (R547, R548) -/

/-- A valid frame has ended: the silence and discard counts start again. -/
def State.validFrame (s : State) (p : Nat) : State := s.setPort p { s.port p with lastValid := s.time.now, discards := 0 }

/-- A valid STATUS frame: the locked run, HOLD and the revision. -/
def State.statusFrame (s : State) (p : Nat) (body : List Byte) : State :=
  let s := s.validFrame p
  let d := s.port p
  let fl := byteAt body 13
  s.setPort p { d with
    lockedRun := if fl.testBit 6 then d.lockedRun + 1 else 0
    hold := fl.testBit 3 || fl.testBit 4
    rev := byteAt body 16 }

/-- A BZ31 status event, under its stamp (R86, R548). -/
def State.chipEvent (s : State) (p : Nat) (st : Stamp) (held : Nat) : State :=
  (s.setPort p { s.port p with held := held }).noteChip p st

/-- STATUS_EVENT_RECEIVE (R548, R565): the event is stamped at its tick and logged; in replay such events come from the log. -/
def execStatusEventReceive (port : Fin 4) (body : List Byte) (t : Time) (s : State) : Host.Outcome State Fault Refusal :=
  .next (
    let s := s.at t
    if !s.dflLive port then s else
    let s := s.statusFrame port body
    let st := chipStamp port (leAt body 2 8)
    if s.replaying ∨ !s.timeRuns then s
    else (s.chipEvent port st (leAt body 10 3)).logInput (port / 2) 0 0xFF 0 (keyOf st 0) (padTo 20 body))

/-- STATUS_PERIODIC_RECEIVE (R547). -/
def execStatusPeriodicReceive (port : Fin 4) (body : List Byte) (t : Time) (s : State) : Host.Outcome State Fault Refusal :=
  .next (
    let s := s.at t
    if !s.dflLive port then s else s.statusFrame port body)

/-- STATUS_IDENT_RECEIVE (R328, R547): the chip has identified itself; its crest checksum is compared (log 37). -/
def execStatusIdentReceive (port : Fin 4) (body : List Byte) (t : Time) (s : State) : Host.Outcome State Fault Refusal :=
  .next (
    let s := s.at t
    if !s.dflLive port then s else
    let s := s.statusFrame port body
    let d := s.port port
    let s := s.setPort port { d with attached := true, ident := some (leAt body 2 8) }
    let s := if d.attached then s else s.noteChip port (chipStamp port s.time.now)
    s.compare port)

/-! ### Replies (R453, R456, R459) -/

/-- The verdict of a refusing reply (R453). -/
def replyVerdict : Nat → Nat × Nat
  | 1 => (5, 0)
  | 3 => (4, 0x0B)
  | 4 => (4, 0x0C)
  | _ => (6, 0)

/-- A reply reaches the unit: an acknowledged chunk, a scheduled event, or a refusal (R453, R456; log 37). -/
def State.replyIn (s : State) (p eid result time : Nat) : State :=
  let d := s.port p
  if 0xF000 ≤ eid then s.setPort p { d with chunks := d.chunks.filter fun c => decide (c.1 + 0xF000 ≠ eid) }
  else
    match d.events.find? fun e => decide (e.eid = eid) && e.open_ s.time.now with
    | none => s.setPort p { d with crcErr := min 255 (d.crcErr + 1) }
    | some e =>
      let s := s.logInput (p / 2) 3 0xFF 0 (keyOf e.event.stamp e.event.seq) (leBytes 2 eid ++ [BitVec.ofNat 8 result, 0] ++ leBytes 8 time)
      if result = 0 then
        let s := s.setPort p { d with
          events := mapIf (fun x => decide (x.eid = eid)) (fun x => { x with scheduled := true }) d.events
          queue := d.queue.filter fun f => decide (f.eid ≠ some eid) }
        if e.event.flags = 0 then s.finish e.cycle 1 0 none false else s
      else
        let s := s.setPort p { d with events := d.events.filter fun x => decide (x.eid ≠ eid), queue := d.queue.filter fun f => decide (f.eid ≠ some eid) }
        (s.eventLost e (replyVerdict result).1 (replyVerdict result).2).bankRun

/-- REPLY_RECEIVE (R456); in replay the replies come from the log (R93). -/
def execReplyReceive (port : Fin 4) (eid result : Nat) (time : Time) (t : Time) (s : State) : Host.Outcome State Fault Refusal :=
  .next (
    let s := s.at t
    if !s.dflLive port then s else
    let s := s.validFrame port
    if s.replaying then s else s.replyIn port eid result time)

/-- EVENT_RETRANSMIT (R459): no REPLY within 1.5 µs of the end of the frame. -/
def execEventRetransmit (port : Fin 4) (eid : Nat) (t : Time) (s : State) : Host.Outcome State Fault Refusal :=
  .next (
    let s := s.at t
    let d := s.port port
    match d.events.find? fun e => decide (e.eid = eid ∧ e.scheduled = false ∧ e.sent = 1) with
    | none => s
    | some e =>
      if !d.up ∨ s.time.now < e.sentAt + 1500 ∨ (d.queue.any fun f => decide (f.eid = some eid)) then s
      else s.setPort port ({ d with retx := min 255 (d.retx + 1) }.queueFrame { prio := 2, bytes := eventFrame eid e.event, eid := some eid }))

/-- EVENT_ABANDON (R459): no REPLY 2 µs before the fire time, or the link is down. -/
def execEventAbandon (port : Fin 4) (eid : Nat) (t : Time) (s : State) : Host.Outcome State Fault Refusal :=
  .next (
    let s := s.at t
    let d := s.port port
    match d.events.find? fun e => decide (e.eid = eid ∧ e.scheduled = false) with
    | none => s
    | some e => if e.event.fire ≤ s.time.now + 2000 ∨ (!s.replaying ∧ !d.up) then (s.abandon port eid).bankRun else s)

/-! ### The reflex path (R460 to R463) -/

/-- The base of a reflex rule, and its lee words once `word` has been written. -/
def ruleBase (die rule : Nat) : Nat := mesaBase die + 0x60000 + 0x10 * rule

/-- A rule that R461 does not let enable. -/
def ruleBad (s : State) (die : Nat) (w0 w1 w2 : Word) : Bool :=
  decide (fld w1 4 3 / 2 ≠ die) || (bit w0 1 && (decide (die = 1) || !s.fuses.optD)) ||
  !actionFits (fld w1 2 0) (fld w1 5 5) || (decide (fld w1 2 0 = 3) && decide (fld w2 23 0 < 1 ∨ 16000000 < fld w2 23 0))

/-- A write to a word of a reflex rule (R55, R461): one that would leave a forbidden rule enabled is discarded. -/
def State.ruleWrite (s : State) (die rule word : Nat) (value : Word) : State :=
  let a := ruleBase die rule
  let w (i : Nat) : Word := if i = word then value &&& (regInfo (a + 4 * i)).rwl else s.leeWord (a + 4 * i)
  if bit (w 0) 0 ∧ !s.fuses.optA then (s.actFlag die 6).absentAccess (10 + die)
  else if bit (w 0) 0 ∧ ruleBad s die (w 0) (w 1) (w 2) then s.actFlag die 6
  else s.leeWrite (a + 4 * word) (regInfo (a + 4 * word)).rwl value

/-- REFLEX_RULE_WRITE (R461). -/
def execReflexRuleWrite (die : Fin 2) (rule : Fin 64) (word : Fin 3) (value : Word) (s : State) : Host.Outcome State Fault Refusal :=
  .next (if s.mesaLive die then s.ruleWrite die rule word value else s.absentAccess 4)

/-- EDGE of a rule matches a direction (R460). -/
def edgeMatches (w0 : Word) (falling : Bool) : Bool :=
  match fld w0 8 7 with
  | 1 => falling
  | 2 => true
  | _ => !falling

/-- A rule fires for a source event (R462). -/
def ruleFires (w0 : Word) (source : ReflexSource) (falling : Bool) (levels : Nat) : Bool :=
  bit w0 0 && edgeMatches w0 falling && (!bit w0 9 || levels.testBit (fld w0 14 10) == bit w0 15) &&
  (match source with
   | .trigger i => !bit w0 1 && decide (fld w0 6 2 = i.val)
   | .sentinel k => bit w0 1 && decide (fld w0 6 2 = k.val))

/-- One launch: the frame on its port, and the reflex record (R460, R463). -/
def State.launch (s : State) (die rule : Nat) (old falling sentinel : Bool) (stamp : Stamp) (w1 w2 : Word) : State :=
  let b := [BitVec.ofNat 8 (fld w1 2 0), BitVec.ofNat 8 (fld w1 11 8 + 16 * fld w1 5 5), BitVec.ofNat 8 (fld w1 17 12), BitVec.ofNat 8 rule] ++
    leBytes 4 (fld w2 23 0)
  let p := fld w1 4 3
  let d := s.port p
  let s := if d.up ∧ s.dflSends p then s.setPort p (d.queueFrame { prio := 1, bytes := [0x02, 0] ++ b }) else s
  s.makeRecord die 0 none
    ([0x1B, BitVec.ofNat 8 rule, BitVec.ofNat 8 (die + 2 * b2n sentinel + 4 * b2n falling), BitVec.ofNat 8 p] ++ leBytes 4 0 ++
     leBytes 8 (if s.time.limit then 0 else stamp.toNat) ++ b ++ leBytes 8 (if old then s.oldDigest else s.slip.crestDigest) ++ leBytes 8 s.time.now ++ leBytes 8 0)

/-- Every enabled rule of a die for one source event, in rule order (R462). -/
def State.reflex (s : State) (die : Nat) (source : ReflexSource) (falling : Bool) (stamp : Stamp) (levels : Nat) : State :=
  let old := decide (stamp ≠ 0) && s.usesOld (stampTime stamp)
  let sentinel := match source with | .sentinel _ => true | .trigger _ => false
  (List.range 64).foldl (fun (s : State) (n : Nat) =>
    let a := ruleBase die n
    if ruleFires (s.entryWord die old a 3 0) source falling levels then
      s.launch die n old falling sentinel stamp (s.entryWord die old a 3 1) (s.entryWord die old a 3 2)
    else s) s

/-- A sentinel change that Dunewatch has presented (R370); a trigger's edge comes with the command. -/
def State.presented (s : State) (die : Nat) (source : ReflexSource) (falling : Bool) (stamp : Stamp) : Bool :=
  match source with
  | .trigger _ => true
  | .sentinel k => decide (die = 0) && s.dw.sentinel.contains (k.val, falling, stamp)

/-- The reflex logic takes a sentinel change. -/
def State.takeSentinel (s : State) (source : ReflexSource) (falling : Bool) (stamp : Stamp) : State :=
  match source with
  | .trigger _ => s
  | .sentinel k => { s with dw := { s.dw with sentinel := dropFirst (fun e => e == (k.val, falling, stamp)) s.dw.sentinel } }

/-- The words that the reflex logic reads: the rules of a die (R460). -/
def rulesRead (die a : Nat) : Bool := decide (ruleBase die 0 ≤ a ∧ a < ruleBase die 64 ∧ (a - ruleBase die 0) % 16 < 12)

/-- REFLEX_LAUNCH (R460, R462, R463): a qualified edge, or a sentinel change that Dunewatch has presented; in replay no rule launches (R93). -/
def execReflexLaunch (die : Fin 2) (source : ReflexSource) (falling : Bool) (stamp : Stamp) (levels : Nat) (hits : List EccHit) (t : Time) (s : State) :
    Host.Outcome State Fault Refusal :=
  .next (
    let s := s.at t
    if s.replaying ∨ !s.mesaLive die ∨ !s.presented die source falling stamp then s
    else ((s.rwlReads (s.bankOf die (decide (stamp ≠ 0) && s.usesOld (stampTime stamp))) (rulesRead die) hits).takeSentinel source falling stamp).reflex
      die source falling stamp levels)

/-! ### Register access to a chip (R550) -/

/-- The address of ACT_REG_CMD of a port. -/
def actRegBase (p : Nat) : Nat := mesaBase (p / 2) + 0x80100 + 0x20 * (p % 2)

/-- ACT_REG_GO (R550): `off`, WRITE and the data of ACT_REG_WDATA. -/
def execActRegGo (port : Fin 4) (write : Bool) (off : Nat) (value : Word) (t : Time) (s : State) : Host.Outcome State Fault Refusal :=
  .next (
    let s := s.at t
    if !s.dflLive port then s.absentAccess (10 + port / 2) else
    let a := actRegBase port
    let d := s.port port
    if d.reg.isSome then s.setFlag (a + 0xC) 2
    else
      let s := (s.setReg a (BitVec.ofNat 32 (2 * b2n write + off % 4096 * 2 ^ 16))).setReg (a + 4) value
      if !d.up ∧ !s.replaying then s.setFlag (a + 0xC) 2
      else
        let tag := (d.nextTag + 1) % 256
        let d := { d with nextTag := tag, reg := some { write, off := off % 4096, value, tag, started := s.time.now } }
        s.setPort port (if s.replaying then d else d.queueFrame { prio := 5, bytes := regBytes write tag (off % 4096) (if write then value else 0) }))

/-- REG_DATA_RECEIVE (R549, R550): the operation with this TAG ends with its data. -/
def execRegDataReceive (port : Fin 4) (tag result off : Nat) (value : Word) (t : Time) (s : State) : Host.Outcome State Fault Refusal :=
  .next (
    let s := s.at t
    if !s.dflLive port then s else
    let s := s.validFrame port
    let d := s.port port
    let s := if s.unit.limpTags.contains (port.val, tag) then
        { s with unit := { s.unit with limpAnswered := s.unit.limpAnswered ||| 2 ^ port.val } }
      else s
    match d.reg with
    | none => s
    | some r =>
      if r.tag ≠ tag ∨ r.off ≠ off then s else
      let a := actRegBase port
      let s := (s.setPort port { d with reg := none, regResult := some (result, value) }).setReg (a + 8) value
      let s := s.setFlag (a + 0xC) 1
      if result = 0 then s else s.setFlag (a + 0xC) 2)

/-- ACT_REG_TIMEOUT (R550): after 10 µs the REG goes out once more, after a second 10 µs the operation ends with TIMEOUT. -/
def execActRegTimeout (port : Fin 4) (t : Time) (s : State) : Host.Outcome State Fault Refusal :=
  .next (
    let s := s.at t
    let d := s.port port
    match d.reg with
    | none => s
    | some r =>
      if s.time.now < r.started + 10000 then s
      else if r.again then (s.setPort port { d with reg := none }).setFlag (actRegBase port + 0xC) 3
      else
        let d := { d with reg := some { r with again := true, started := s.time.now } }
        s.setPort port (if s.replaying ∨ !d.up then d
          else d.queueFrame { prio := 5, bytes := regBytes r.write r.tag r.off (if r.write then r.value else 0) }))

end Sys2Proof.Machine
end

