-- ==== Sys2Proof/Machine/TileRows.lean ====
section
/-! DEFINITION. Events of a tile (05 R131 to R148; 08 R199 to R204, R216; 21 R574): job start, engine completion, scrubber, patrol, codebook window. -/

namespace Sys2Proof.Machine

/-- The image that a job runs: the slot in the bank the job selects (R312). -/
def State.imageOf (s : State) (old : Bool) (slot : Nat) : Option Image :=
  (if old then s.loader.old else s.loader.crest).toList.getD slot none

/-- The image runs in profile mode (R82). -/
def State.profiles (s : State) (i : Option Image) : Bool := bit (s.reg 0x88) 0 && (match i with | some i => i.profile | none => false)

/-- The entry-table entry that an image's entry starts a tile at: ENTRY_FIRST of its PLACE record there, plus the entry (11 R292). -/
def entryAt (i : Option Image) (t entry : Nat) : Nat :=
  (match i.bind fun i => i.place.find? fun p => decide (p.tile = t) with | some p => p.entryFirst | none => 0) + entry

/-- The core as a job finds it (R199, R201, R202). -/
def State.startCore (s : State) (t : Nat) (m : StartMsg) : Core :=
  let old := s.usesOld (stampTime m.id.stamp)
  let bank := if old then 1 - s.crestHalf t else s.crestHalf t
  let im := ((s.tile t).half (s.bedHalf t bank)).imem
  let image := s.imageOf old m.image
  let n := entryAt image t m.entry
  { id := m.id, admitted := m.admitted, bank, old, image := m.image, entry := m.entry
    profile := s.profiles image
    pc := im.num (8 * n) 2
    sreg := (Vector.replicate 32 0).set 1 (BitVec.ofNat 32 (im.num (8 * n + 4) 4)) }

/-- A job starts on a tile (R201 to R203): the buffer's lines become invalid; an entry pc out of range raises PC_RANGE. -/
def State.startJob (s : State) (t : Nat) (m : StartMsg) : State :=
  let c := s.startCore t m
  let s := s.modTile t fun x => { x with core := some c, starts := x.starts.erase m, abuf := [], abufPoison := [], valid := 0, plane := none }
  let s := if c.profile then s.mark m.id 2 else s
  if c.pc % 4 ≠ 0 ∨ c.pc < 0x800 ∨ s.imemSize t ≤ c.pc then s.excAt t c 7 else s

/-- JOB_START (R200): the waiting start message with the smallest key, once the tile is free, its row takes jobs, and a cycle's input set is closed (R26). -/
def execJobStart (tile : Fin 512) (t : Time) (s : State) : Host.Outcome State Fault Refusal :=
  .next (
    let s := s.at t
    let x := s.tile tile
    match (sortBy (fun m : StartMsg => m.key.toNat) x.starts).head? with
    | none => s
    | some m => if (s.cycles.any fun c => decide (c.id = m.id) && !c.closed) ∨ x.core.isSome ∨ x.flight ≠ [] ∨ !s.tileOn tile ∨ !(s.row (rowDom tile)).ready then s else s.startJob tile m)

/-- ENGINE_OP_COMPLETE (R216): the oldest operation of an engine leaves its queue, and its extents are free. -/
def execEngineOpComplete (tile : Fin 512) (engine : Fin 5) (s : State) : Host.Outcome State Fault Refusal :=
  .next (s.modTile tile fun x => { x with flight := dropFirst (fun f => decide (f.engine = engine.val)) x.flight })

/-- SCRUB_READ (R136, R574): the next line of the weight bed, over both halves in turn; a full pass counts (log 24). -/
def execScrubRead (tile : Fin 512) (hits : List EccHit) (t : Time) (s : State) : Host.Outcome State Fault Refusal :=
  .next (
    let s := s.at t
    if !s.tileOn tile ∨ !bit (s.reg (tileBase tile + 4)) 1 ∨ !(s.row (rowDom tile)).ready then s else
    let line := (s.tile tile).scrub
    let half := if s.leeEn tile then line / 24576 else 0
    let base := if s.leeEn tile then line % 24576 * 64 else line * 64
    let s := hits.foldl (fun s e =>
      if e.store = 1 ∧ base ≤ e.addr ∧ e.addr < base + 64 then
        (if e.ue then s.memUe tile half 1 e.addr 0 else s.memCe tile 1 e.addr 0)
      else s) s
    let s := s.modTile tile fun x => { x with scrub := (line + 1) % 49152 }
    if line = 49151 then s.setReg (tileBase tile + 0x34) (s.reg (tileBase tile + 0x34) + 1) else s)

/-- RESERVOIR_PATROL (R574): a read of a live stack's line in an idle cycle of its controller. -/
def execReservoirPatrol (stack : Fin 8) (hits : List EccHit) (t : Time) (s : State) : Host.Outcome State Fault Refusal :=
  .next (
    let s := s.at t
    if !s.stackLive stack then s else
    hits.foldl (fun s e =>
      if e.store = 5 ∧ s.stackOf e.addr = some stack.val then s.resvErr (s.serving (s.stackDie stack)) e.addr e.ue 0 else s) s)

/-- TILE_CB_WRITE (R14, R148, R317): a word of the codebook window, at its normal offset or at its lee view (log 14). -/
def execTileCbWrite (tile : Fin 512) (off : Nat) (value : Word) (t : Time) (s : State) : Host.Outcome State Fault Refusal :=
  .next (
    let s := s.at t
    if !s.ergLive (tile / 128) then s.absentAccess (tile / 128)
    else if !s.tileOn tile then s.absentAccess (tile / 128)
    else if off % 4 ≠ 0 ∨ off < 0x400 ∨ 0xC00 ≤ off then s
    else s.cbWrite tile ((off - 0x400) % 0x400 / 4) value)

end Sys2Proof.Machine
end

