-- ==== Sys2Proof/Machine/Admission.lean ====
section
/-! DEFINITION. Admission (01 R22 to R30; 11 R301 to R304; 17 R438 to R442, R452): fitting, replicas, reservations, cycles, frame jobs, host jobs, input sets (log 18). -/

namespace Sys2Proof.Machine

/-! ### What a job asks for -/

/-- A job that asks for admission: what it runs, its interval, its own deadline test, the replicas it may take. -/
structure Want where
  id : JobId
  kind : Nat
  die : Nat
  cls : Nat
  slot : Nat
  old : Bool
  image : Image
  entry : EntryBound
  end_ : Time
  inTime : Bool
  mask : Nat
  maxOpen : Nat
  deriving DecidableEq, Repr

/-- The start of its interval: the time of its stamp (R87, R439). -/
def Want.start (w : Want) : Time := stampTime w.id.stamp

/-- The tiles of a replica (R299). -/
def EntryBound.tiles (e : EntryBound) (r : Nat) : List Nat := (List.range 512).filter fun t => (e.masks.getD r 0).testBit t

/-- The cairn ranges of a replica, by die, with their sources (R309). -/
def Image.ranges (i : Image) (entry r : Nat) : List CairnRec := i.cairns.filter fun c => decide (c.entry = entry ∧ c.replica = r)

/-- Reservations whose interval overlaps [a, b) (R438). -/
def State.reserved (s : State) (a b : Time) : List Job := s.jobs.filter fun j => j.reserved && decide (j.start < b ∧ a < j.end_)

/-- Two cairn ranges share a cairn. -/
def rangesMeet (x y : List (Nat × Nat)) : Bool := x.any fun p => y.any fun q => decide (p.1 < q.1 + q.2 ∧ q.1 < p.1 + p.2)

/-- A job's ranges on a die. -/
def Job.rangesOn (j : Job) (k : Nat) : List (Nat × Nat) := (j.cairns.filter fun c => decide (c.1 = k)).flatMap fun c => c.2

/-- Every unit that a replica uses is in service (R51, R302, R584). -/
def State.replicaLive (s : State) (w : Want) (r : Nat) : Bool :=
  (w.entry.tiles r).all (fun t => s.tileOn t) && (w.image.ranges w.entry.entry r).all (fun c => s.ergLive c.die) &&
  w.image.res.all fun x => !s.rangeDead (x.base * 2 ^ 20) (x.len * 2 ^ 20)

/-- The replica's tiles, cairn ranges and binding entries are free over the interval (R266, R302). -/
def State.replicaFree (s : State) (w : Want) (r : Nat) : Bool :=
  s.replicaLive w r &&
  (s.reserved w.start w.end_).all (fun j => j.tiles.all fun t => decide (t ∉ w.entry.tiles r)) &&
  (w.image.ranges w.entry.entry r).all (fun c =>
    s.jobs.all fun j => !(j.reserved && decide (j.start < w.end_ ∧ w.start < j.end_ + 1000)) || !rangesMeet (j.rangesOn c.die) c.ranges) &&
  decide ((s.reserved w.start w.end_).length < 256)

/-- Replicas that the job may take, in index order. -/
def Want.replicas (w : Want) : List Nat := (List.range w.entry.replicas).filter fun r => w.mask.testBit r

/-- Links where the shares of the overlapping reservations and the job's own exceed 56 units (R119). -/
def State.shortLinks (s : State) (w : Want) : List Nat :=
  (List.range 11).filter fun n =>
    let own := w.entry.share.getD n (0, 0)
    let sum := (s.reserved w.start w.end_).foldl (fun (x : Nat × Nat) (j : Job) => (x.1 + (j.share.getD n (0, 0)).1, x.2 + (j.share.getD n (0, 0)).2)) own
    own ≠ (0, 0) && decide (56 < sum.1 ∨ 56 < sum.2)

/-- FMAX of a row domain in the bank that work selects (R346, R358). -/
def State.fmax (s : State) (old : Bool) (d : Nat) : Nat := fld (s.limitWord old (0x1404 + 8 * d)) 22 12

/-- The power control can hold a replica's tiles at BOUND_CLOCK_MHZ (R346). -/
def State.clockOk (s : State) (w : Want) (r : Nat) : Bool := (w.entry.tiles r).all fun t => decide (w.image.clockMhz ≤ s.fmax w.old (rowDom t))

/-- A cycle's class has a reservation to spare at its stamp (R439). -/
def State.budgetOk (s : State) (w : Want) : Bool :=
  decide (w.maxOpen = 0) ||
  decide ((s.jobs.filter fun j => j.reserved && decide (j.kind = 1 ∧ j.die = w.die ∧ j.cls = w.cls ∧ j.start ≤ w.start ∧ w.start < j.end_)).length < w.maxOpen)

/-- Entries in use in the reservation table. -/
def State.tableUsed (s : State) : Nat := (s.jobs.filter fun j => j.reserved).length

/-- New work is refused whatever its policy: station time does not run, SAFE, or the module powers down (R67, R439, R585, R605; log 13). -/
def State.admitShut (s : State) : Bool := !s.timeRuns || s.logs.safe || decide (s.unit.phase ≠ .running)

/-- The tests of R439; with debug unlocked nothing fits (R602). -/
def State.fitting (s : State) (w : Want) : Option Nat :=
  match w.replicas.find? fun r => s.replicaFree w r with
  | none => none
  | some r =>
    if s.admitShut ∨ s.unit.unlocked ∨ w.image.unbound ∨ !w.inTime ∨ s.shortLinks w ≠ [] ∨ !s.clockOk w r ∨ !s.budgetOk w ∨ 1024 ≤ s.tableUsed then none
    else some r

/-- The replica of a not-admitted job (R442). -/
def State.looseReplica (s : State) (w : Want) : Option Nat :=
  w.replicas.find? fun r =>
    s.replicaLive w r &&
    s.jobs.all fun j => !(j.reserved && decide (j.start ≤ w.start ∧ w.start < j.end_)) || j.tiles.all fun t => decide (t ∉ w.entry.tiles r)

/-! ### Registers of mesa die 0 (17, R120) -/

/-- MESA_ADM_STS flags and the refusals of links, for a job that does not fit. -/
def State.noteMiss (s : State) (w : Want) : State :=
  let s := s.setFlag 0x400000 0
  let s := if s.budgetOk w then s else s.setFlag 0x400000 3
  let s := match w.replicas.find? fun r => s.replicaFree w r with
    | some r =>
      let s := if s.clockOk w r then s else s.setFlag 0x400000 4
      if 1024 ≤ s.tableUsed ∧ s.clockOk w r ∧ s.budgetOk w ∧ w.inTime ∧ s.shortLinks w = [] then s.setFlag 0x400000 2 else s
    | none => s
  (s.shortLinks w).foldl (fun s n =>
    let a := linkAcctAddr n
    s.setReg a (setFld (s.reg a) 31 16 (satAdd 0xFFFF (fld (s.reg a) 31 16) 1))) s

/-- The peak of MESA_ADM_OPEN. -/
def State.notePeak (s : State) : State := s.setReg 0x400004 (setFld (s.reg 0x400004) 26 16 (max (fld (s.reg 0x400004) 26 16) s.tableUsed))

/-! ### Starting a job (R200, R262, R441) -/

/-- The job that a request becomes on a replica. -/
def Want.job (w : Want) (r : Nat) (admitted unstarted : Bool) (hp : Option (Nat × Nat × List Byte)) : Job :=
  { id := w.id, kind := w.kind, die := w.die, cls := w.cls, image := w.slot, entry := w.entry.entry, old := w.old, admitted
    start := w.start, end_ := w.end_, tiles := w.entry.tiles r, share := w.entry.share
    cairns := (w.image.ranges w.entry.entry r).map fun c => (c.die, c.ranges)
    void := if admitted then 0 else 8, running := w.entry.tiles r, reserved := admitted, unstarted, hp }

/-- The ranges and sources that a job's image declares for a die (R262, R309); none, all zero. -/
def State.bindRec (s : State) (j : Job) (k : Nat) : List (Nat × Nat) × Nat :=
  match (s.imageOf j.old j.image).bind fun i => i.cairns.find? fun c => decide (c.entry = j.entry ∧ c.die = k ∧ (k, c.ranges) ∈ j.cairns) with
  | some c => (c.ranges, c.sources)
  | none => ([], 0)

/-- The 10 body flits of a binding message (R310). -/
def bindBody (admitted : Bool) (end_ : Time) (ranges : List (Nat × Nat)) (sources : Nat) : List Byte :=
  leBytes 8 (0x10 + ranges.length * 2 ^ 8 + b2n admitted * 2 ^ 12) ++ leBytes 8 (if admitted then end_ else 0) ++
  padTo 112 (ranges.flatMap fun r => leBytes 8 (r.1 + r.2 * 2 ^ 18)) ++ leBytes 512 sources

/-- The binding message to a die's apply unit (R262, R310). -/
def State.bindMsg (s : State) (j : Job) (k : Nat) : Msg :=
  let r := s.bindRec j k
  { src := .mesa 0 0, dest := .apply k, cls := 1, admitted := j.admitted, horizon := false, prod := 0, stream := 0
    item := { key := mkKey j.id 0 0, void := j.void, body := bindBody j.admitted j.end_ r.1 r.2 } }

/-- The start messages of a job reach its tiles (R200), whose rows wake (R339). -/
def State.startTiles (s : State) (id : JobId) : State :=
  match s.job id with
  | none => s
  | some j =>
    let s := s.modJob id fun j => { j with unstarted := false }
    j.tiles.foldl (fun s t =>
      (s.modTile t fun x => { x with starts := x.starts ++ [{ id, admitted := j.admitted, image := j.image, entry := j.entry, key := mkKey id 0 0 }] }).wakeRow
        (rowDom t)) s

/-- A job begins: the reservation, the binding messages, for a cycle its pending event, the start messages (R441). -/
def State.beginJob (s : State) (j : Job) (c : Option Cycle) : State :=
  let s := { s with jobs := s.jobs ++ [j] }
  let s := if j.admitted then ((s.count32 0x400008 1)).notePeak else s.setFlag 0x400000 1
  let s := s.liveErgs.foldl (fun s k => s.inject (s.bindMsg j k)) s
  let s := match c with | some c => { s with cycles := s.cycles ++ [c] } | none => s
  if j.unstarted then s else s.startTiles j.id

/-! ### Requests in key order (R438) -/

/-- The key of a host submission. -/
def HpCmd.key (c : HpCmd) : Key := mkKey { stamp := c.stamp, job := c.job } 0 0

/-- No request that has reached admission has a smaller key (R71, R438). -/
def State.firstRequest (s : State) (k : Key) : Bool :=
  (s.ingress.toList.all fun d => d.events.all fun i => decide (k.toNat ≤ i.key.toNat)) && s.submits.all fun c => decide (k.toNat ≤ c.key.toNat)

/-- Class, index of a stamp's tiebreak byte (R62). -/
def stampClass (st : Stamp) : Nat := st.toNat % 256 / 32
def stampIndex (st : Stamp) : Nat := st.toNat % 16

/-- The trigger input, or the camera stream, that a stamp names. -/
def stampPort (st : Stamp) : Nat := stampIndex st + (if stampClass st = 1 ∨ stampClass st = 3 then 16 else 0)

/-- Take an admission event from a die's lane. -/
def State.takeEvent (s : State) (die : Fin 2) (st : Stamp) : State :=
  { s with ingress := s.ingress.set die { s.ingress[die] with events := s.ingress[die].events.filter fun i => decide (keyStamp i.key ≠ st) } }

/-- The event of a stamp on a die's lane. -/
def State.eventAt (s : State) (die : Fin 2) (st : Stamp) : Option Item := s.ingress[die].events.find? fun i => decide (keyStamp i.key = st)

/-- Events of a port class enter the input log when MESA_LOG_IN_CFG selects them (R566). -/
def State.logsClass (s : State) (st : Stamp) (b : Nat) : Bool := bit (s.bankWord 0 (s.usesOld (stampTime st)) 0x5040) b

/-! ### Cycles (R20, R28 to R30, R37, R439) -/

/-- A word of a class in the bank that a stamp selects. -/
def State.classWord (s : State) (die cls : Nat) (old : Bool) (k : Nat) : Word := s.entryWord die old (mesaBase die + 0x100 + 0x40 * cls) 9 k

/-- Lmax of a class (R26): the largest lag of its ports, none of them loose. -/
def State.lmax (s : State) (die cls : Nat) (old : Bool) : Nat :=
  if bit (s.bankWord die old (mesaBase die + looseCtlOff)) 2 then 0
  else ((List.range 8).filter fun p => bit (s.classWord die cls old 2) (16 + p)).foldl (fun m p => max m (s.tagLag die p)) 0

/-- TAG_GUARD in ns, and the closure wait (R26). -/
def State.tagGuard (s : State) (die cls : Nat) (old : Bool) : Nat := 100 * fld (s.classWord die cls old 2) 13 0
def State.closureWait (s : State) (die cls : Nat) (old : Bool) : Nat := s.lmax die cls old - s.tagGuard die cls old

/-- The default action of a class for a trigger (R37, R449). -/
def State.classDefault (s : State) (die cls : Nat) (old : Bool) (st : Stamp) (deadline : Time) : ActEvent :=
  let w := s.classWord die cls old 6
  { action := fld w 2 0, chip := fld w 4 3, kind := fld w 5 5, index := fld w 11 8, profile := fld w 17 12, flags := 1, duration := 0
    fire := max (stampTime st + 1000 * fld (s.classWord die cls old 7) 23 0) (deadline + 6000), deadline, stamp := st, seq := 0 }

/-- The result crest digest of the bank that work uses (R451). -/
def State.digestOf (s : State) (old : Bool) : Nat := (if old then s.oldDigest else s.slip.crestDigest) % 2 ^ 64

/-- The pending event of a cycle (R30). -/
def State.newCycle (s : State) (die cls : Nat) (st : Stamp) (old admitted : Bool) (ident : Nat) : Cycle :=
  let deadline := stampTime st + 10 * fld (s.classWord die cls old 0) 22 12
  { id := { stamp := st, job := 0 }, die, cls, admitted, old, deadline, dflt := s.classDefault die cls old st deadline, ident := ident % 2 ^ 64
    crest := s.digestOf old
    closeAt := max s.time.now (stampTime st + s.lmax die cls old - s.tagGuard die cls old), void := if admitted then 0 else 8 }

/-- A cycle that never runs: its verdict is REFUSED and its default action applies (R29). -/
def State.refuseCycle (s : State) (c : Cycle) (reason : Nat) : State :=
  let s := (s.count32 0x40000C 1).setFlag 0x400000 0
  ({ s with cycles := s.cycles ++ [{ c with void := 0, admitted := false }] }).resolve c.id 4 reason

/-- The bound record of an entry. -/
def Image.bound (i : Image) (entry kind : Nat) : Option EntryBound := i.entries.find? fun e => decide (e.entry = entry ∧ e.kind = kind)

/-- The request of a cycle. -/
def State.cycleWant (s : State) (die cls : Nat) (st : Stamp) (old : Bool) (i : Image) (e : EntryBound) : Want :=
  let w0 := s.classWord die cls old 0
  let bound := s.closureWait die cls old + e.totalNs
  { id := { stamp := st, job := 0 }, kind := 1, die, cls, slot := fld w0 2 1, old, image := i, entry := e, end_ := stampTime st + bound
    inTime := decide (bound ≤ 10 * fld w0 22 12), mask := fld (s.classWord die cls old 8) 3 0, maxOpen := fld (s.classWord die cls old 8) 7 4 }

/-- What admission decides: a replica to reserve, or one to run on without a reservation. In replay the log decides (R93). -/
inductive Outcome where
  | refused
  | admitted (r : Nat)
  | loose (r : Nat)
  deriving DecidableEq, Repr

/-- The outcome that the input log gives for a key (R93). -/
def State.loggedAdmit (s : State) (k : Key) : Option Nat := (s.link.admits.find? fun e => decide (e.1 = k)).map Prod.snd

/-- The decision for a request under a policy (R93, R441, R442). -/
def State.decideJob (s : State) (w : Want) (bestEffort : Bool) : Outcome :=
  let free := match s.looseReplica w with | some r => Outcome.loose r | none => .refused
  if s.replaying then
    match s.loggedAdmit (mkKey w.id 0 0) with
    | some 1 => match w.replicas.find? (fun r => s.replicaFree w r) with
      | some r => .admitted r
      | none => match w.replicas.head? with | some r => .admitted r | none => .refused
    | some 2 => free
    | _ => .refused
  else match s.fitting w with
    | some r => .admitted r
    | none => if bestEffort && !s.admitShut then free else .refused

/-- ADMIT of the input log (R401). -/
def Outcome.code : Outcome → Nat
  | .refused => 0
  | .admitted _ => 1
  | .loose _ => 2

/-- A cycle's trigger at the admission unit (R28, R29, R439, R441). -/
def State.admitCycle (s : State) (die cls : Nat) (st : Stamp) (item : Item) : State :=
  let old := s.usesOld (stampTime st)
  let w0 := s.classWord die cls old 0
  let image := s.imageOf old (fld w0 2 1)
  let ident := match image with | some i => i.ident | none => 0
  let rec_ := image.bind fun i => (i.bound (fld w0 10 3) 1).map fun e => s.cycleWant die cls st old i e
  let out := match rec_ with | some w => s.decideJob w (bit w0 11) | none => .refused
  let s := if s.logsClass st 0 then s.logInput die 0 out.code 0 item.key item.body else s
  let s := match rec_ with | some w => if s.replaying ∨ (s.fitting w).isSome then s else s.noteMiss w | none => s
  match rec_, out with
  | some w, .admitted r => s.beginJob (w.job r true false none) (some (s.newCycle die cls st old true ident))
  | some w, .loose r => s.beginJob (w.job r false false none) (some (s.newCycle die cls st old false ident))
  | _, _ => s.refuseCycle (s.newCycle die cls st old false ident) (if s.timeRuns then 1 else 2)

/-- The class that a trigger input is bound to, in the bank of a stamp (R19, R411, R415); 16 is none. -/
def State.trigClass (s : State) (die input : Nat) (st : Stamp) : Nat :=
  let a := mesaBase die + 0x100000 + 4 * input
  let old := s.usesOld (stampTime st)
  if s.bankBad die old a then 16 else fld (s.bankWord die old a) 23 19

/-- The words that a cycle's start reads: the entry of its class (R20, R575). -/
def classRead (die cls a : Nat) : Bool := decide (cls < 16 ∧ mesaBase die + 0x100 + 0x40 * cls ≤ a ∧ a < mesaBase die + 0x124 + 0x40 * cls)

/-- CYCLE_ADMISSION (R28, R438, R439): the event of a bound trigger input, when no earlier request waits; a class with a poisoned word does not start (R575). -/
def execCycleAdmission (die : Fin 2) (stamp : Stamp) (hits : List EccHit) (t : Time) (s : State) : Host.Outcome State Fault Refusal :=
  .next (
    let s := s.at t
    match s.eventAt die stamp with
    | none => s
    | some i =>
      if 2 ≤ stampClass stamp ∨ !s.firstRequest i.key then s else
      let cls := s.trigClass die (stampPort stamp) stamp
      let s := s.rwlReads (s.bankOf die (s.usesOld (stampTime stamp))) (classRead die cls) hits
      let s := s.takeEvent die stamp
      if 16 ≤ cls ∨ !bit (s.classWord die cls (s.usesOld (stampTime stamp)) 0) 0 then s
      else s.admitCycle die cls stamp i)

/-! ### Frame jobs (R343, R344, R422, R423, R439, R440) -/

/-- WAKE_NS of the contract of a class (R343). -/
def State.wakeNs (s : State) (old : Bool) (kind die slot num : Nat) : Nat :=
  let w (n k : Nat) : Word := s.entryWord 0 old (0x1100 + 8 * n) 2 k
  let mine := (List.range 32).filter fun n =>
    bit (w n 0) 0 && decide (fld (w n 0) 2 1 = kind ∧ fld (w n 0) 13 6 = num) && (if kind = 0 then decide (fld (w n 0) 3 3 = die) else decide (fld (w n 0) 5 4 = slot))
  match mine with
  | [] => (s.bankWord 0 old 0x1080).toNat
  | n :: rest => rest.foldl (fun m k => min m (w k 1).toNat) (w n 1).toNat

/-- The effective wake limit of a frame or host entry (R344). -/
def State.wakeLimit (s : State) (old : Bool) (i : Image) (slot : Nat) (e : EntryBound) : Nat :=
  let w := s.wakeNs old (e.kind - 1) 0 slot e.entry
  if e.kind = 2 then min w (i.minLeadUs * 1000 - e.totalNs) else w

/-- The first frame entry of a stream, in ascending slot and entry order (R440). -/
def State.frameEntry (s : State) (old : Bool) (die stream : Nat) : Option (Nat × Image × EntryBound) :=
  (List.range 4).findSome? fun k =>
    match s.imageOf old k with
    | none => none
    | some i =>
      ((sortBy EntryBound.entry i.entries).find? fun e => decide (e.kind = 2) && e.capA.testBit stream && decide (bitsOf e.capA 24 24 = die)).map fun e => (k, i, e)

/-- The request of a frame job. -/
def State.frameWant (s : State) (die stream : Nat) (st : Stamp) (old : Bool) (x : Nat × Image × EntryBound) : Want :=
  let end_ := stampTime st + s.readoutMax die stream + x.2.2.totalNs + s.wakeLimit old x.2.1 x.1 x.2.2
  { id := { stamp := st, job := 0 }, kind := 2, die, cls := stream, slot := x.1, old, image := x.2.1, entry := x.2.2, end_
    inTime := decide (end_ ≤ stampTime st + s.camSlots die stream * s.frameMin die stream), mask := 0xF, maxOpen := 0 }

/-- The items of a die that have reached the data lane, released or still held (R25, R74). -/
def DieIngress.arrived (d : DieIngress) : List Item := d.items ++ d.data.flatMap fun m => m.held

/-- The outcome of a frame for its job (R423): undamaged it starts the tiles, damaged it starts nothing and never commits. -/
def State.frameResolved (s : State) (st : Stamp) (damaged : Bool) : State :=
  let id : JobId := { stamp := st, job := 0 }
  match s.job id with
  | none => s
  | some x =>
    if !x.unstarted then s
    else if damaged then s.modJob id fun x => { x with unstarted := false, running := [] }
    else s.startTiles id

/-- The frame of a job may have ended already (R423): undamaged, the tiles start; damaged, the job has nothing to run. -/
def State.frameGate (s : State) (die : Fin 2) (st : Stamp) : State :=
  match (s.die die).arrived.find? fun i => decide (keyStamp i.key = st) with
  | none => s
  | some i => s.frameResolved st ((byteAt i.body 0xE).testBit 0)

/-- FRAME_JOB_ADMISSION (R440 to R442): the job's tiles start when the frame ends undamaged (R423). -/
def execFrameJobAdmission (die : Fin 2) (stamp : Stamp) (t : Time) (s : State) : Host.Outcome State Fault Refusal :=
  .next (
    let s := s.at t
    match s.eventAt die stamp with
    | none => s
    | some i =>
      if stampClass stamp < 2 ∨ !s.firstRequest i.key then s else
      let s := s.takeEvent die stamp
      let old := s.usesOld (stampTime stamp)
      let stream := stampPort stamp
      match s.frameEntry old die stream with
      | none => s
      | some x =>
        let w := s.frameWant die stream stamp old x
        let be := bit (s.bankWord die old (mesaBase die + 0x40)) stream
        let out := s.decideJob w be
        let s := if s.replaying ∨ (s.fitting w).isSome then s else s.noteMiss w
        match out with
        | .admitted r => (s.beginJob (w.job r true true none) none).frameGate die stamp
        | .loose r => (s.beginJob (w.job r false true none) none).frameGate die stamp
        | .refused => s.count32 0x40000C 1)

/-! ### Host jobs (R399, R439) -/

/-- Fields of a SUBMIT_JOB entry (R389). -/
def HpCmd.slot (c : HpCmd) : Nat := byteAt c.bytes 8
def HpCmd.entry (c : HpCmd) : Nat := byteAt c.bytes 9
def HpCmd.policy (c : HpCmd) : Nat := byteAt c.bytes 0xA
def HpCmd.id (c : HpCmd) : JobId := { stamp := c.stamp, job := c.job }

/-- The staging area (R386). -/
def State.stageBytes (s : State) : Nat := fld (s.reg 0x300C) 12 0 * 2 ^ 20
def State.stageBase (s : State) : Nat := s.liveBytes - s.stageBytes

/-- The header item of a host job (R399): bytes 0x08 to 0x3F with absolute addresses. -/
def State.hostHeader (s : State) (c : HpCmd) : List Byte :=
  padTo 64 ((c.bytes.drop 8).take 8 ++ leBytes 8 (s.stageBase + leAt c.bytes 0x10 8) ++ (c.bytes.drop 0x18).take 8 ++
    leBytes 8 (s.stageBase + leAt c.bytes 0x20 8) ++ (c.bytes.drop 0x28).take 0x18)

/-- The header goes to every tile of the job, on stream 0xFFFF, and nothing follows it (R399). -/
def State.sendHeader (s : State) (j : Job) (body : List Byte) : State :=
  j.tiles.foldl (fun s t =>
    let m : Msg := { src := .mesa 0 0, dest := .tile t, cls := 2, admitted := j.admitted, horizon := false, prod := 0, stream := 0xFFFF
                     item := { key := mkKey j.id 0 0, void := j.void, body } }
    (s.inject m).inject { m with horizon := true, item := { key := BitVec.ofNat 96 (lastKey j.id) } }) s

/-- A host job starts. -/
def State.beginHost (s : State) (c : HpCmd) (j : Job) : State :=
  let s := s.sendHeader j (s.hostHeader c)
  let s := s.beginJob j none
  { s with link := { s.link with copies := s.link.copies ++ [(c, s.stageBase + leAt c.bytes 0x20 8, leAt c.bytes 0x1C 4, 0)] } }

/-- The request of a host job. -/
def State.hostWant (s : State) (c : HpCmd) (old : Bool) (i : Image) (e : EntryBound) : Want :=
  let bound := e.totalNs + s.wakeLimit old i c.slot e
  { id := c.id, kind := 3, die := 0, cls := 0, slot := c.slot, old, image := i, entry := e, end_ := stampTime c.stamp + bound
    inTime := decide (bound ≤ leAt c.bytes 0xC 4), mask := 0xF, maxOpen := 0 }

/-- The data of a host submission in the input log (R565): the entry and its staged input. -/
def State.hostLogData (s : State) (c : HpCmd) : List Byte := padTo 64 c.bytes ++ s.resv.mem.bytes (s.stageBase + leAt c.bytes 0x10 8) (leAt c.bytes 0x18 4)

/-- HOST_JOB_ADMISSION (R399, R439, R441, R442): the waiting submission with the smallest key (log 13). -/
def execHostJobAdmission (t : Time) (s : State) : Host.Outcome State Fault Refusal :=
  .next (
    let s := s.at t
    match (sortBy (fun c : HpCmd => c.key.toNat) s.submits).head? with
    | none => s
    | some c =>
      if !s.firstRequest c.key then s else
      let s := { s with submits := s.submits.erase c }
      let old := s.usesOld (stampTime c.stamp)
      let w := (s.imageOf old c.slot).bind fun i => (i.bound c.entry 3).map fun e => s.hostWant c old i e
      let out := match w with | some w => s.decideJob w (decide (c.policy = 1)) | none => .refused
      let s := s.logInput 0 1 out.code 0 c.key (s.hostLogData c)
      let s := match w with | some w => if s.replaying ∨ (s.fitting w).isSome then s else s.noteMiss w | none => s
      match w, out with
      | some w, .admitted r => s.beginHost c (w.job r true false none)
      | some w, .loose r => s.beginHost c (w.job r false false none)
      | _, _ => (s.count32 0x40000C 1).hpDone c 5 0 0)

/-! ### Input sets (R22, R23, R26, R303, R452) -/

/-- The tag records of a cycle's window (R22). -/
def State.tagSet (s : State) (c : Cycle) : List Item :=
  let T := stampTime c.id.stamp
  let lo := T - 1000 * fld (s.classWord c.die c.cls c.old 1) 19 0
  sortBy (fun i : Item => i.key.toNat) ((s.die c.die).arrived.filter fun i =>
    let st := keyStamp i.key
    decide (stampClass st = 3 ∧ 8 ≤ stampIndex st ∧ byteAt i.body 0 = 0x11 ∧ lo ≤ stampTime st ∧ stampTime st + s.tagGuard c.die c.cls c.old ≤ T) &&
    bit (s.classWord c.die c.cls c.old 2) (16 + stampIndex st - 8))

/-- The frame of a stream in a cycle's input set (R22, R23): the latest one in time, if its job was admitted and had committed by T. -/
def State.frameSet (s : State) (c : Cycle) (stream : Nat) : Option Job :=
  let T := stampTime c.id.stamp
  let lead := 1000 * fld (s.classWord c.die c.cls c.old 4) 16 0
  let oldest := T - 1000 * fld (s.classWord c.die c.cls c.old 5) 19 0
  let stored := ((s.ingress.toList.getD c.die {}).cam.toList.getD stream {}).slots.map fun x => x.2
  match (stored.filter fun st => decide (stampTime st + lead ≤ T)).getLast? with
  | none => none
  | some st => if stampTime st < oldest then none else (s.job { stamp := st, job := 0 }).filter fun j => decide (j.kind = 2 ∧ j.admitted = true ∧ j.committed = true ∧ j.end_ ≤ T)

/-- The streams of a class. -/
def State.classStreams (s : State) (c : Cycle) : List Nat := (List.range 24).filter fun k => bit (s.classWord c.die c.cls c.old 3) k

/-- Bytes 0 to 7 of the digest of an input set (R452). -/
def inputDigest (tags frames : List Key) (absent : Nat) : Nat :=
  leAt (sha256 ((tags ++ frames).flatMap (fun k => leBytes 12 k.toNat) ++ leBytes 4 absent)) 0 8

/-- A cycle's input set closes: the tag events cut to CAP_A, the frames, the absent streams, their digest and marks. -/
def State.closeSet (s : State) (c : Cycle) : State :=
  let cap := match s.job c.id with
    | some j => ((s.imageOf c.old j.image).bind fun i => i.bound j.entry 1).map EntryBound.capA
    | none => none
  let all := s.tagSet c
  let tags := match cap with | some n => all.take n | none => all
  let frames := (s.classStreams c).map fun k => s.frameSet c k
  let jobs := frames.filterMap id
  let fkeys := (sortBy (fun k : Key => k.toNat) (jobs.map fun j => mkKey j.id 0 0))
  let absent := (frames.filter fun f => f.isNone).length
  let void := jobs.foldl (fun v j => v ||| j.void) (tags.foldl (fun v i => v ||| i.void) 0)
  let tkeys := tags.map fun i => i.key
  (s.mark c.id void).modCycle c.id fun c => { c with
    closed := true, capped := decide (tags.length < all.length), tags := tkeys, frames := fkeys, absent, digest := inputDigest tkeys fkeys absent }

/-- INPUT_SET_CLOSURE (R26). -/
def execInputSetClosure (die : Fin 2) (stamp : Stamp) (t : Time) (s : State) : Host.Outcome State Fault Refusal :=
  .next (
    let s := s.at t
    match s.cycleAt stamp with
    | none => s
    | some c => if c.die ≠ die.val ∨ c.closed ∨ s.time.now < c.closeAt then s else s.closeSet c)

/-! ### The end of a reservation (R304) -/

/-- Every running tile of a job waits under R213. -/
def State.jobStalled (s : State) (j : Job) : Bool :=
  decide (j.running ≠ []) && j.running.all fun t => match (s.tile t).core with | some c => decide (c.id = j.id) && c.blocked | none => false

/-- The dies of a job's tiles. -/
def Job.ergs (j : Job) : List Nat := (List.range 4).filter fun k => j.tiles.any fun t => decide (t / 128 = k)

/-- RESERVATION_END (R304): the interval ends; a job that still runs stops. -/
def execReservationEnd (job : JobId) (t : Time) (s : State) : Host.Outcome State Fault Refusal :=
  .next (
    let s := s.at t
    match s.job job with
    | none => s
    | some j =>
      if s.time.now < j.end_ then s else
      let s := s.modJob job fun j => { j with reserved := false }
      if j.running = [] ∨ j.stopped.isSome then s
      else if j.excepted then s.stopJob job 1 0 0 j.die
      else if s.jobStalled j then (j.ergs.foldl (fun s k => s.flowFlag k 5) s).stopJob job 7 0 0 j.die
      else s.stopJob job 8 0 0 j.die)

end Sys2Proof.Machine
end

