-- ==== Sys2Proof/Machine/BzRows.lean ====
section
/-! DEFINITION. The commands at the BZ31 chips (18 to 20, and the chip's side of 12 and 17). Each changes one chip and nothing else. -/

namespace Sys2Proof.Machine

/-- Change chip `n`; a logic-reset chip answers nothing (R555). -/
def State.onChip (s : State) (n : Fin 4) (f : Chip → Chip) : State :=
  { s with chips := s.chips.set n (f s.chips[n]) }

/-- Change chip `n` while its logic is out of logic reset (R532, R555). -/
def State.onLive (s : State) (n : Fin 4) (f : Chip → Chip) : State :=
  if s.chips[n].powered then s.onChip n f else s

/-- BZ_POWER_UP (R551). -/
def execBzPowerUp (chip : Fin 4) (vsMv : Nat) (sensor : Int) (lh0 lh1 : Bool) (t : Time) (s : State) : Host.Outcome State Fault Refusal :=
  .next (s.onChip chip fun c => c.powerUp vsMv sensor lh0 lh1 t)

/-- BZ_POWERUP_TIMEOUT (R535, R551). -/
def execBzPowerupTimeout (chip : Fin 4) (t : Time) (s : State) : Host.Outcome State Fault Refusal :=
  .next (s.onLive chip fun c => c.powerupTimeout t)

/-- BZ_LOGIC_RESET (R532, R555). -/
def execBzLogicReset (chip : Fin 4) (vsMv : Nat) (s : State) : Host.Outcome State Fault Refusal :=
  .next (s.onChip chip fun c => c.logicReset vsMv)

/-- BZ_TIME_FRAME (R457, R536). -/
def execBzTimeFrame (chip : Fin 4) (station errNs : Nat) (t : Time) (s : State) : Host.Outcome State Fault Refusal :=
  .next (s.onLive chip fun c => c.timeFrame station errNs t)

/-- BZ_HEARTBEAT_LOSS (R537, R539, R554). -/
def execBzHeartbeatLoss (chip : Fin 4) (t : Time) (s : State) : Host.Outcome State Fault Refusal :=
  .next (s.onLive chip fun c => c.heartbeatLoss t)

/-- BZ_HOLD_LAST_END (R539, R541). -/
def execBzHoldLastEnd (chip : Fin 4) (t : Time) (s : State) : Host.Outcome State Fault Refusal :=
  .next (s.onLive chip fun c => c.holdLastEnd t)

/-- BZ_LIMP_PIN_CHANGE (R540). -/
def execBzLimpPinChange (chip : Fin 4) (lh0 lh1 : Bool) (stableUs : Nat) (t : Time) (s : State) : Host.Outcome State Fault Refusal :=
  .next (s.onLive chip fun c => c.limpPins lh0 lh1 stableUs t)

/-- BZ_LIMP_ENTRY_START (R542). -/
def execBzLimpEntryStart (chip : Fin 4) (out : Fin 12) (t : Time) (s : State) : Host.Outcome State Fault Refusal :=
  .next (s.onLive chip fun c => c.limpEntryStart out (c.limpByte (12 + out.val)) t)

/-- BZ_OVERVOLT (R532, R534). -/
def execBzOvervolt (chip : Fin 4) (vsMv us : Nat) (t : Time) (s : State) : Host.Outcome State Fault Refusal :=
  .next (s.onLive chip fun c => c.overvolt vsMv us t)

/-- BZ_UNDERVOLT (R532, R534). -/
def execBzUndervolt (chip : Fin 4) (vsMv : Nat) (t : Time) (s : State) : Host.Outcome State Fault Refusal :=
  .next (s.onLive chip fun c => c.undervolt vsMv t)

/-- BZ_CRANK_ENTER (R532, R533). -/
def execBzCrankEnter (chip : Fin 4) (vsMv : Nat) (t : Time) (s : State) : Host.Outcome State Fault Refusal :=
  .next (s.onLive chip fun c => c.crankEnter vsMv t)

/-- BZ_CRANK_END (R533). -/
def execBzCrankEnd (chip : Fin 4) (vsMv us : Nat) (s : State) : Host.Outcome State Fault Refusal :=
  .next (s.onLive chip fun c => c.crankEnd vsMv us)

/-- BZ_CRANK_TIMEOUT (R533). -/
def execBzCrankTimeout (chip : Fin 4) (t : Time) (s : State) : Host.Outcome State Fault Refusal :=
  .next (s.onLive chip fun c => c.crankTimeout t)

/-- BZ_SUPPLY_RECOVER (R534, R541). -/
def execBzSupplyRecover (chip : Fin 4) (vsMv us : Nat) (t : Time) (s : State) : Host.Outcome State Fault Refusal :=
  .next (s.onLive chip fun c => c.supplyRecover vsMv us t)

/-- VS_SAMPLE (R483). -/
def execVsSample (chip : Fin 4) (vsMv : Nat) (s : State) : Host.Outcome State Fault Refusal :=
  .next (s.onLive chip fun c => c.vsSample vsMv)

/-- BZ_TRIP (R544, R545). -/
def execBzTrip (chip : Fin 4) (input : Fin 4) (level : Bool) (ns : Nat) (t : Time) (s : State) : Host.Outcome State Fault Refusal :=
  .next (s.onLive chip fun c => c.trip input level ns t)

/-- BZ_TRIP_CLEAR (R546). -/
def execBzTripClear (chip : Fin 4) (mask : Nat) (pins : Vector Bool 4) (t : Time) (s : State) : Host.Outcome State Fault Refusal :=
  .next (s.onLive chip fun c => c.tripClearAt mask pins t)

/-- BZ_RELEASE (R543). -/
def execBzRelease (chip : Fin 4) (s : State) : Host.Outcome State Fault Refusal :=
  .next (s.onLive chip fun c => c.release)

/-- BZ_ENTER_LIMP (R535, R541, R553). -/
def execBzEnterLimp (chip : Fin 4) (t : Time) (s : State) : Host.Outcome State Fault Refusal :=
  .next (s.onLive chip fun c => c.enterLimp t)

/-- BZ_REG_READ (R549). -/
def execBzRegRead (chip : Fin 4) (tag off : Nat) (t : Time) (s : State) : Host.Outcome State Fault Refusal :=
  .next (s.onLive chip fun c => c.reg false tag off 0 t)

/-- BZ_REG_WRITE (R495, R549, R557). -/
def execBzRegWrite (chip : Fin 4) (tag off : Nat) (data : Word) (t : Time) (s : State) : Host.Outcome State Fault Refusal :=
  .next (s.onLive chip fun c => c.reg true tag off data t)

/-- BZ_STATUS_SAMPLE (R547, R548). -/
def execBzStatusSample (chip : Fin 4) (t : Time) (s : State) : Host.Outcome State Fault Refusal :=
  .next (s.onLive chip fun c => c.statusSample t)

/-- BZ_PERIODIC_STATUS (R547). -/
def execBzPeriodicStatus (chip : Fin 4) (t : Time) (s : State) : Host.Outcome State Fault Refusal :=
  .next (s.onLive chip fun c => c.periodic t)

/-- BZ_IDENT_STATUS (R547). -/
def execBzIdentStatus (chip : Fin 4) (s : State) : Host.Outcome State Fault Refusal :=
  .next (s.onLive chip fun c => c.sendIdent)

/-- BZ_FRAME_SEND (R454, R548). -/
def execBzFrameSend (chip : Fin 4) (s : State) : Host.Outcome State Fault Refusal :=
  .next (s.onLive chip fun c => c.frameSend)

/-- BZ_LIMP_STORE_DONE (R552). -/
def execBzLimpStoreDone (chip : Fin 4) (ok : Bool) (s : State) : Host.Outcome State Fault Refusal :=
  .next (s.onLive chip fun c => c.storeDone ok)

/-- BZ_SLIP_PREPARE (R320, R327). -/
def execBzSlipPrepare (chip : Fin 4) (slipId : Nat) (s : State) : Host.Outcome State Fault Refusal :=
  .next (s.onLive chip fun c => c.slipPrepare slipId)

/-- BZ_LEE_DATA (R458). -/
def execBzLeeData (chip : Fin 4) (chunk id8 : Nat) (bytes : List Byte) (t : Time) (s : State) : Host.Outcome State Fault Refusal :=
  .next (s.onLive chip fun c => c.leeData chunk id8 bytes t)

/-- BZ_SLIP_COMMIT (R323). -/
def execBzSlipCommit (chip : Fin 4) (slipId : Nat) (point : Time) (s : State) : Host.Outcome State Fault Refusal :=
  .next (s.onLive chip fun c => c.slipCommit slipId point)

/-- BZ_SLIP_ABORT (R325). -/
def execBzSlipAbort (chip : Fin 4) (slipId : Nat) (s : State) : Host.Outcome State Fault Refusal :=
  .next (s.onLive chip fun c => c.slipAbort slipId)

/-- BZ_SLIP_POINT (R324, R327). -/
def execBzSlipPoint (chip : Fin 4) (t : Time) (s : State) : Host.Outcome State Fault Refusal :=
  .next (s.onLive chip fun c => c.slipPointAct t)

/-- BZ_RESEAT_SWITCH (R328). -/
def execBzReseatSwitch (chip : Fin 4) (t : Time) (s : State) : Host.Outcome State Fault Refusal :=
  .next (s.onLive chip fun c => c.reseatSwitch t)

/-- BZ_HS_EVENT_RECEIVE (R455, R465, R468). -/
def execBzHsEventReceive (chip : Fin 4) (ev : BzEvent) (t : Time) (s : State) : Host.Outcome State Fault Refusal :=
  .next (s.onLive chip fun c => c.hsReceive ev t)

/-- BZ_SOL_EVENT_RECEIVE (R501, R512). -/
def execBzSolEventReceive (chip : Fin 4) (ev : BzEvent) (t : Time) (s : State) : Host.Outcome State Fault Refusal :=
  .next (s.onLive chip fun c => c.solReceive ev t)

/-- BZ_REFLEX_RECEIVE (R460). -/
def execBzReflexReceive (chip : Fin 4) (frame : BzReflex) (t : Time) (s : State) : Host.Outcome State Fault Refusal :=
  .next (s.onLive chip fun c => c.reflexReceive frame t)

/-- BZ_HS_EVENT_FIRE (R469). -/
def execBzHsEventFire (chip : Fin 4) (chan : Fin 12) (t : Time) (s : State) : Host.Outcome State Fault Refusal :=
  .next (s.onLive chip fun c => c.hsFire chan t)

/-- HS_PULSE_END (R467). -/
def execHsPulseEnd (chip : Fin 4) (chan : Fin 12) (t : Time) (s : State) : Host.Outcome State Fault Refusal :=
  .next (s.onLive chip fun c => c.hsPulseEnd chan t)

/-- HS_PWM_PERIOD (R472, R487). -/
def execHsPwmPeriod (chip : Fin 4) (chan : Fin 12) (t : Time) (s : State) : Host.Outcome State Fault Refusal :=
  .next (s.onLive chip fun c => c.hsPeriod chan t)

/-- HS_PWM_OFF_EDGE (R472, R486). -/
def execHsPwmOffEdge (chip : Fin 4) (chan : Fin 12) (meanMa : Nat) (t : Time) (s : State) : Host.Outcome State Fault Refusal :=
  .next (s.onLive chip fun c => c.hsOffEdge chan meanMa t)

/-- HS_DC_OL_CHECK (R486). -/
def execHsDcOlCheck (chip : Fin 4) (chan : Fin 12) (meanMa : Nat) (t : Time) (s : State) : Host.Outcome State Fault Refusal :=
  .next (s.onLive chip fun c => c.hsDcCheck chan meanMa t)

/-- HS_OVERLOAD (R474, R475). -/
def execHsOverload (chip : Fin 4) (chan : Fin 12) (limUs : Nat) (t : Time) (s : State) : Host.Outcome State Fault Refusal :=
  .next (s.onLive chip fun c => c.hsOverload chan limUs t)

/-- HS_RETRY_END (R475). -/
def execHsRetryEnd (chip : Fin 4) (chan : Fin 12) (junction : Int) (t : Time) (s : State) : Host.Outcome State Fault Refusal :=
  .next (s.onLive chip fun c => c.hsRetryEnd chan junction t)

/-- HS_RETRY_RESET (R475). -/
def execHsRetryReset (chip : Fin 4) (chan : Fin 12) (t : Time) (s : State) : Host.Outcome State Fault Refusal :=
  .next (s.onLive chip fun c => c.hsRetryReset chan t)

/-- HS_M_WINDOW_END (R476). -/
def execHsMWindowEnd (chip : Fin 4) (chan : Fin 12) (t : Time) (s : State) : Host.Outcome State Fault Refusal :=
  .next (s.onLive chip fun c => c.hsMEnd chan t)

/-- HS_THERMAL_SHUTDOWN (R477). -/
def execHsThermalShutdown (chip : Fin 4) (chan : Fin 12) (junction : Int) (t : Time) (s : State) : Host.Outcome State Fault Refusal :=
  .next (s.onLive chip fun c => c.hsThermal chan junction t)

/-- HS_THERMAL_RESTART (R477). -/
def execHsThermalRestart (chip : Fin 4) (chan : Fin 12) (junction : Int) (t : Time) (s : State) : Host.Outcome State Fault Refusal :=
  .next (s.onLive chip fun c => c.hsThermalRestart chan junction t)

/-- HS_FUSE_UPDATE (R478, R480). -/
def execHsFuseUpdate (chip : Fin 4) (chan : Fin 12) (meanMa : Nat) (t : Time) (s : State) : Host.Outcome State Fault Refusal :=
  .next (s.onLive chip fun c => c.hsFuseUpdate chan meanMa t)

/-- HS_COMP_UPDATE (R482). -/
def execHsCompUpdate (chip : Fin 4) (chan : Fin 12) (s : State) : Host.Outcome State Fault Refusal :=
  .next (s.onLive chip fun c => c.hsComp chan)

/-- HS_CLAMP_END (R485). -/
def execHsClampEnd (chip : Fin 4) (chan : Fin 12) (energyUj : Nat) (t : Time) (s : State) : Host.Outcome State Fault Refusal :=
  .next (s.onLive chip fun c => c.hsClampEnd chan energyUj t)

/-- HS_OL_OFF_SOURCE_ON (R488). -/
def execHsOlOffSourceOn (chip : Fin 4) (chan : Fin 12) (outMv : Nat) (t : Time) (s : State) : Host.Outcome State Fault Refusal :=
  .next (s.onLive chip fun c => c.hsOlSource chan outMv t)

/-- HS_OL_OFF_SAMPLE (R488, R489). -/
def execHsOlOffSample (chip : Fin 4) (chan : Fin 12) (outMv : Nat) (t : Time) (s : State) : Host.Outcome State Fault Refusal :=
  .next (s.onLive chip fun c => c.hsOlSample chan outMv t)

/-- HS_PAIR_IMBALANCE (R490). -/
def execHsPairImbalance (chip : Fin 4) (chan : Fin 12) (ma0 ma1 us : Nat) (t : Time) (s : State) : Host.Outcome State Fault Refusal :=
  .next (s.onLive chip fun c => c.hsImbalance chan ma0 ma1 us t)

/-- BZ_SOL_EVENT_START (R501, R508). -/
def execBzSolEventStart (chip : Fin 4) (out : Fin 12) (t : Time) (s : State) : Host.Outcome State Fault Refusal :=
  .next (s.onLive chip fun c => c.solStart out t)

/-- SOL_PEAK_REACHED (R503, R518). -/
def execSolPeakReached (chip : Fin 4) (out : Fin 12) (samples : List Nat) (t : Time) (s : State) : Host.Outcome State Fault Refusal :=
  .next (s.onLive chip fun c => c.solPeakReached out samples t)

/-- SOL_PEAK_TIMEOUT (R503, R518). -/
def execSolPeakTimeout (chip : Fin 4) (out : Fin 12) (maxMa : Nat) (t : Time) (s : State) : Host.Outcome State Fault Refusal :=
  .next (s.onLive chip fun c => c.solPeakTimeout out maxMa t)

/-- SOL_DWELL_END (R502). -/
def execSolDwellEnd (chip : Fin 4) (out : Fin 12) (t : Time) (s : State) : Host.Outcome State Fault Refusal :=
  .next (s.onLive chip fun c => c.solDwellEnd out t)

/-- SOL_SOURCE_SWITCH (R502). -/
def execSolSourceSwitch (chip : Fin 4) (bank : Fin 3) (t : Time) (s : State) : Host.Outcome State Fault Refusal :=
  .next (s.onLive chip fun c => c.solSource bank t)

/-- SOL_CHOP_PERIOD (R504, R522). -/
def execSolChopPeriod (chip : Fin 4) (out : Fin 12) (valley : Nat) (t : Time) (s : State) : Host.Outcome State Fault Refusal :=
  .next (s.onLive chip fun c => c.solChop out valley t)

/-- SOL_HOLD_END (R502). -/
def execSolHoldEnd (chip : Fin 4) (out : Fin 12) (t : Time) (s : State) : Host.Outcome State Fault Refusal :=
  .next (s.onLive chip fun c => c.solHoldEnd out t)

/-- SOL_DECAY_END (R502, R526). -/
def execSolDecayEnd (chip : Fin 4) (out : Fin 12) (currentMa clampUj : Nat) (t : Time) (s : State) : Host.Outcome State Fault Refusal :=
  .next (s.onLive chip fun c => c.solDecayEnd out currentMa clampUj t)

/-- SOL_REST_END (R502, R519). -/
def execSolRestEnd (chip : Fin 4) (out : Fin 12) (volts : List Int) (t : Time) (s : State) : Host.Outcome State Fault Refusal :=
  .next (s.onLive chip fun c => c.solRestEnd out volts t)

/-- SOL_SHORT (R525). -/
def execSolShort (chip : Fin 4) (bank : Fin 3) (out : Option (Fin 12)) (ma : Nat) (s : State) : Host.Outcome State Fault Refusal :=
  .next (s.onLive chip fun c => c.solShort bank out ma)

/-- SOL_COIL_UPDATE (R515, R517). -/
def execSolCoilUpdate (chip : Fin 4) (meanSq : List Nat) (sensor : Int) (t : Time) (s : State) : Host.Outcome State Fault Refusal :=
  .next (s.onLive chip fun c => c.coilUpdate meanSq sensor t)

/-- SOL_PROBE (R523). -/
def execSolProbe (chip : Fin 4) (bank : Fin 3) (s : State) : Host.Outcome State Fault Refusal :=
  .next (s.onLive chip fun c => c.solProbe bank)

/-- SOL_PROBE_DONE (R523, R524). -/
def execSolProbeDone (chip : Fin 4) (bank : Fin 3) (mv : Nat) (t : Time) (s : State) : Host.Outcome State Fault Refusal :=
  .next (s.onLive chip fun c => c.probeDone bank mv t)

/-- BST_MEASURE (R506, R509). -/
def execBstMeasure (chip : Fin 4) (mv : Nat) (t : Time) (s : State) : Host.Outcome State Fault Refusal :=
  .next (s.onLive chip fun c => c.bstMeasure mv t)

/-- SOL_RELEARN (R520). -/
def execSolRelearn (chip : Fin 4) (mask : Word) (s : State) : Host.Outcome State Fault Refusal :=
  .next (s.onLive chip fun c => c.relearn mask)

/-- BZ_DFL_FRAME_DISCARD (R454). -/
def execBzDflFrameDiscard (chip : Fin 4) (s : State) : Host.Outcome State Fault Refusal :=
  .next (s.onLive chip fun c => c.frameDiscard)

/-- SOL_CHOP_OFF (R504). -/
def execSolChopOff (chip : Fin 4) (out : Fin 12) (peakCounts currentMa onNs : Nat) (s : State) : Host.Outcome State Fault Refusal :=
  .next (s.onLive chip fun c => c.solChopOff out peakCounts currentMa onNs)

/-- HS_FLAG_CLEAR (R491, R493, R495): the clear sees the junction at the write. -/
def execHsFlagClear (chip : Fin 4) (chan : Fin 12) (mask : Word) (junction : Int) (t : Time) (s : State) : Host.Outcome State Fault Refusal :=
  .next (s.onLive chip fun c => (c.hsSet chan { c.hs[chan] with junction := junction }).hsClear chan mask t)

/-- SOL_FLAG_CLEAR (R517, R523, R529): a clear of SENSE_OPEN runs a probe, refused above 0.3 V. -/
def execSolFlagClear (chip : Fin 4) (out : Fin 12) (mask : Word) (probeMv : Nat) (t : Time) (s : State) : Host.Outcome State Fault Refusal :=
  .next (s.onLive chip fun c =>
    (c.clearProbe out mask (decide (300 < probeMv))).solClear out mask (bit (bankCfg c.crest (bankOf out).val) 26 && decide (300 < probeMv)) (c.limpByte (12 + out.val)) t)

end Sys2Proof.Machine
end

