-- ==== Sys2Proof/Machine/NtFacet.lean ====
section
/-! DEFINITION. Facet instructions (05 R123 to R135; 06; 07 R174 to R184; 09 R234 to R238): FSET, FLD, FMAC, FDRN (log 27). -/

namespace Sys2Proof.Machine

/-- Bytes of a chord of activations, of a weight plane, of a vector of 64 outputs (R126, R149, R234). -/
def chordBytes (fmt : Nat) : Nat := 2 * fmtBits fmt
def planeBytes (fmt : Nat) : Nat := 128 * fmtBits fmt
def outBytes (fmt : Nat) : Nat := 8 * fmtBits fmt

/-- Chords per scale group (R163, R198). -/
def groupChords : Nat → Nat
  | 0 => 0
  | 1 => 2
  | 2 => 4
  | _ => 8

/-- Write one field of the facet state from the low bits of a word (R198, R236). -/
def Facet.setField (f : Facet) (sel v : Nat) : Facet :=
  match sel with
  | 0 => { f with wfmt := v % 2 ^ 3 }
  | 1 => { f with afmt := v % 2 ^ 3 }
  | 2 => { f with ofmt := v % 2 ^ 3 }
  | 3 => { f with wcb := v % 2 ^ 4 }
  | 4 => { f with acb := v % 2 ^ 4 }
  | 5 => { f with ocb := v % 2 ^ 4 }
  | 6 => { f with azp := v % 2 ^ 8 }
  | 7 => { f with ozp := v % 2 ^ 8 }
  | 8 => { f with mode := v % 2 ^ 2 }
  | 9 => { f with group := v % 2 ^ 2 }
  | 10 => { f with sbase := v % 2 ^ 8 }
  | 11 => { f with slot := v % 2 ^ 7 }
  | 12 => { f with wide := v % 2 }
  | 13 => { f with total := v % 2 ^ 21 }
  | 14 => { f with nodeA := v % 2 ^ 20 }
  | 15 => { f with nodeN := v % 2 ^ 13 }
  | 16 => { f with vecs := v % 2 ^ 6 }
  | 17 => { f with dest := v % 2 ^ 2 }
  | _ => { f with srcBase := v % 2 ^ 32 }

/-- The checks of the complete facet state (R127, R149, R157, R163, R164, R175, R198, R237); `mac` for FMAC. -/
def Facet.bad (f : Facet) (mac : Bool) : Bool :=
  let g := groupChords f.group
  let per := if f.mode = 1 then 2 else 1
  let groups := if g = 0 then 0 else if mac then (f.nodeA + f.nodeN - 1) / g - f.nodeA / g + 1 else 1
  decide (f.wfmt > 3 ∨ f.afmt > 3 ∨ f.ofmt > 4 ∨ f.wcb > 8 ∨ f.acb > 8 ∨ f.dest > 2 ∨ f.mode > 2) ||
  decide (f.dest = 0 ∧ f.ofmt ≤ 1 ∧ f.ocb > 8) ||
  decide (f.mode = 1 ∧ (f.wfmt ≠ 2 ∨ f.afmt ≠ 2)) ||
  decide (f.dest = 0 ∧ ((f.mode = 1 ∧ f.ofmt ≠ 2) ∨ (f.mode = 2 ∧ f.ofmt = 4))) ||
  decide (f.total < 1 ∨ f.total > 2 ^ 20 ∨ f.vecs < 1 ∨ f.vecs > 32 ∨ f.nodeN < 1 ∨ f.nodeN > 4096) ||
  !isTreeNode f.total f.nodeA f.nodeN ||
  decide (f.slot > 64 ∨ (f.dest ≠ 0 ∧ f.slot ≠ 64)) ||
  (mac && decide (f.dest = 0 ∧ (f.nodeA ≠ 0 ∨ f.nodeN ≠ f.total))) ||
  decide (f.sbase + 2 + per * groups > 255)

/-- Codebook entries and scale entries that a bank holds (R137, R157, R164). -/
def TileBank.cbEntry (b : TileBank) (i : Nat) : Nat := mget (fun _ => 0) b.cb i
def TileBank.scaleEntry (b : TileBank) (col e : Nat) : Word := mget (fun _ => 0) b.scale (256 * col + e)

/-- The fields of a misfit slot (R174). -/
def TileBank.slotNum (b : TileBank) (slot off n : Nat) : Nat := b.slots.num (16 * slot + off) n
def TileBank.slotMode (b : TileBank) (slot : Nat) : Nat := b.slotNum slot 2 1 % 4
def TileBank.slotLead (b : TileBank) (slot : Nat) : Bool := (b.slotNum slot 2 1).testBit 2

/-- The group step of a column at group `j` of the operation (R165, R168). -/
def groupScale (b : TileBank) (f : Facet) (col j : Nat) (x : Word) : Word :=
  if f.mode = 1 then
    intGroup (b.scaleEntry col (f.sbase + 3 + 2 * j)).toInt (fld (b.scaleEntry col (f.sbase + 4 + 2 * j)) 5 0) x
  else fmul32 x (b.scaleEntry col (f.sbase + 3 + j))

/-- The closed reduction as an output code, and whether it is an edge saturation (R166, R169, R173). -/
def channelOut (b : TileBank) (f : Facet) (col : Nat) (x : Word) : Nat × Bool :=
  let e (i : Nat) := b.scaleEntry col (f.sbase + i)
  if f.mode = 1 then intChannel (e 1).toInt (e 0).toInt (fld (e 2) 5 0) f.ozp x
  else
    let v := if f.mode = 0 then ffma32 x (e 0) (e 1) else fadd32 x (e 1)
    quantise f.ofmt f.ocb b.cbEntry f.ozp v

/-- The value of a column of a node from chords of activation values and weight codes (R123 to R129). -/
def columnNode (b : TileBank) (f : Facet) (acts : List (List FVal)) (wbytes : List Byte) (col : Nat) : Word :=
  let g := groupChords f.group
  let pb := planeBytes f.wfmt
  let sums := acts.zipIdx.map fun (ch, k) =>
    let plane := (wbytes.drop (k * pb)).take pb
    chordSum (ch.zipIdx.map fun (a, r) =>
      w32 (a.mul (operandVal f.wfmt f.wcb b.cbEntry 128 (unpackAt f.wfmt plane (64 * r + col)))))
  accumulate g f.total (fun j x => groupScale b f col (j - f.nodeA / (max g 1)) x) f.nodeA sums

/-- The activation values of one vector's chords (R158, R234). -/
def chordValues (b : TileBank) (f : Facet) (bytes : List Byte) : List (List FVal) :=
  (List.range f.nodeN).map fun k =>
    let ch := (bytes.drop (k * chordBytes f.afmt)).take (chordBytes f.afmt)
    (List.range 16).map fun r => operandVal f.afmt f.acb b.cbEntry f.azp (unpackAt f.afmt ch r)

/-- The identity word of a partial-node record (R235). -/
def identityWord (a n : Nat) : Nat := a % 2 ^ 20 + n % 2 ^ 13 * 2 ^ 20

/-- A node's values for one vector, with the poison of each column. -/
structure NodeVal where
  a : Nat
  n : Nat
  vals : List Word
  bad : Nat → Bool

/-- What a facet operation has done so far: the state, the core, edge saturations. -/
structure FacetAcc where
  c : Core
  s : State
  edges : Nat := 0

/-- Bytes of 64 binary32 values. -/
def valBytes (ws : List Word) : List Byte := ws.flatMap fun w => leBytes 4 w.toNat

/-- Write vector `v` of a result by DEST (R130, R234, R235, R237); none when the producer has no EMIT count left (R70). -/
def FacetAcc.put (x : FacetAcc) (t : Nat) (b : TileBank) (xd : Fin 16) (v : Nat) (y : NodeVal) : Option FacetAcc :=
  let f := x.c.facet
  let base := (extentOf (x.c.a xd)).base
  match f.dest with
  | 0 =>
    let codes := (List.range 64).map fun col => channelOut b f col (nth 0 y.vals col)
    let bits := fmtBits f.ofmt
    some { x with
      s := x.s.abWrite t (base + v * outBytes f.ofmt) (packVals f.ofmt (codes.map (·.1)))
        fun i => y.bad (8 * i / bits) || y.bad ((8 * i + 7) / bits)
      edges := x.edges + (codes.filter (·.2)).length }
  | 1 =>
    some { x with
      s := x.s.abWrite t (base + v * 264) (leBytes 8 (identityWord y.a y.n) ++ valBytes y.vals)
        fun i => if i < 8 then false else y.bad ((i - 8) / 4) }
  | _ =>
    if x.c.spent then none else
    let d := x.c.d xd
    let poison := (List.range 64).any y.bad
    let m := x.c.msg t (ringDest d.ring) 2 d.stream
      { key := x.c.nextKey, void := x.s.voidOf x.c.id, nodeA := y.a, nodeN := y.n, poison, body := valBytes y.vals }
    let used := if d.used.contains x.c.prod then d.used else d.used ++ [x.c.prod]
    some { x with c := (x.c.emitted).setD xd { d with used }, s := x.s.inject m }

/-- Count edge saturations in a slot, held at the top (R175, R176). -/
def Core.countMisfit (c : Core) (mode n : Nat) : Core :=
  let k := c.facet.slot
  if k < 64 ∧ mode ≠ 0 then
    { c with counters := mset (fun _ => 0) c.counters k (satAdd 0xFFFFFFFF (mget (fun _ => 0) c.counters k) n) }
  else c

/-- Start or extend the retained hold of a slot in RERUN mode (R180). -/
def Core.hold (c : Core) (mode : Nat) (xs : List Extent) : Core :=
  let k := c.facet.slot
  let xs := xs.filter fun x => decide (x.space ≤ 1)
  if k < 64 ∧ mode = 2 then
    { c with holds :=
        if c.holds.any fun h => decide (h.slot = k) then
          c.holds.map fun h => if h.slot = k then { h with extents := h.extents ++ xs } else h
        else c.holds ++ [{ slot := k, extents := xs }] }
  else c

/-- The exceptions that FMAC and FDRN share (R137, R216, R234, R237). -/
def State.facetCheck (s : State) (t : Nat) (c : Core) (mac : Bool) (xd xa xb : Fin 16) (sc : Nat) : Option Nat :=
  let f := c.facet
  let d := extentOf (c.a xd)
  let a := extentOf (c.a xa)
  let b := extentOf (c.a xb)
  let m := f.vecs
  let needD := if f.dest = 0 then m * outBytes f.ofmt else m * 264
  let needA := if mac then (m - 1) * (if m > 1 then sc else 0) + f.nodeN * chordBytes f.afmt else m * 264
  let needB := if mac then f.nodeN * planeBytes f.wfmt else m * 264
  let out := if f.dest = 2 then [] else [d]
  firstCause (
    [(2, f.bad mac), (2, mac && decide (m > 1 ∧ (sc % 4 ≠ 0 ∨ sc < f.nodeN * chordBytes f.afmt))),
     (3, anyOverlap (a :: b :: out) c.rings), (4, decide (a.len < needA ∨ b.len < needB)),
     (4, decide (f.dest ≠ 2 ∧ d.len < needD)),
     (6, decide (f.dest = 2) && decide ((c.d xd).state ≠ .openOut)),
     (8, decide (f.dest = 2) && c.noRoom c.prod)] ++
    s.extentChecks t [0] a ++ s.extentChecks t (if mac then [0, 2] else [0]) b ++
    (if f.dest = 2 then [] else s.extentChecks t [0] d))

/-- The end of a facet operation: its misfit counts, its hold, its place in the queue. -/
def FacetAcc.finish (x : FacetAcc) (t : Nat) (mode : Nat) (reads writes : List Extent) : NtRes :=
  let c := (x.c.countMisfit mode x.edges).hold mode reads
  .done c (x.s.fly t 0 reads writes)

/-- Run the vectors of a facet operation in order; `node` gives a vector's node, or the child at which it fails (R238). -/
def runVectors (t : Nat) (b : TileBank) (xd : Fin 16) (mode : Nat) (reads writes : List Extent)
    (node : Nat → NodeVal ⊕ Nat) : List Nat → FacetAcc → NtRes
  | [], x => x.finish t mode reads writes
  | v :: vs, x =>
    match node v with
    | .inr child => .stop x.s 0x03 x.c.nextKey child
    | .inl y =>
      match x.put t b xd v y with
      | none => .stop x.s 0x04 x.c.nextKey 0
      | some x' => runVectors t b xd mode reads writes node vs x'

/-- Queue room and held outputs of a facet operation (R181, R213). -/
def State.facetWaits (s : State) (t : Nat) (c : Core) (writes : List Extent) : Bool :=
  s.queueFull t 0 || anyOverlap writes c.held

/-- FSET (R198, R236). A selector above 18 is an illegal encoding (R209). -/
def execFset (tile : Fin 512) (g : Issue) (sel : Fin 32) (a : Fin 32) (s : State) : Host.Outcome State Fault Refusal :=
  .next (s.issue tile g (fun _ => decide (18 < sel.val)) fun c s =>
    .done { c with facet := c.facet.setField sel.val (c.s a).toNat, regPoison := mset clean c.regPoison (96 + sel.val) (c.sBad a) } s)

/-- FLD (R126, R236): the plane of the named weight extent and of the node waits in the idle plane register. -/
def execFld (tile : Fin 512) (g : Issue) (xb : Fin 16) (c : Fin 32) (s : State) : Host.Outcome State Fault Refusal :=
  .next (s.issue tile g anyEnc fun k s =>
    let b := extentOf (k.a xb)
    match firstCause (s.extentChecks tile [0, 2] b) with
    | some e => .raise e
    | none =>
      if s.queueFull tile 0 then .wait
      else .done k ((s.fly tile 0 [b] []).modTile tile fun x => { x with plane := some (k.a xb, k.facet.nodeA, k.facet.nodeN) }))

/-- FMAC (R123 to R130, R135, R234, R237). -/
def execFmac (tile : Fin 512) (g : Issue) (xd xa xb : Fin 16) (c : Fin 32) (hits : List EccHit) (s : State) : Host.Outcome State Fault Refusal :=
  .next (s.issue tile g anyEnc fun k s =>
    let f := k.facet
    let sc := (k.s c).toNat
    let a := extentOf (k.a xa)
    let w := extentOf (k.a xb)
    let writes := if f.dest = 2 then [] else [extentOf (k.a xd)]
    match s.facetCheck tile k true xd xa xb sc with
    | some e => .raise e
    | none =>
      if s.facetWaits tile k writes then .wait else
      let an := f.nodeN * chordBytes f.afmt
      let wn := f.nodeN * planeBytes f.wfmt
      let s := s.applyHits tile k [a, w] hits
      let s := s.modTile tile fun x => { x with plane := none }
      let b := (s.tile tile).half k.bank
      let regs := k.facetBad || k.aBad xa || k.aBad xb || k.aBad xd || k.sBad c
      let wbad := s.loadBad tile k w.space w.base wn
      let abad := (List.range f.vecs).any fun v => s.loadBad tile k 0 (a.base + v * sc) an
      let wb := s.load tile k w.space w.base wn
      let bits := fmtBits f.wfmt
      let colBad (col : Nat) : Bool := wbad && (List.range (16 * f.nodeN)).any fun r =>
        s.loadBad tile k w.space (w.base + (64 * r + col) * bits / 8) 1 || s.loadBad tile k w.space (w.base + ((64 * r + col) * bits + bits - 1) / 8) 1
      let node (s : State) (v : Nat) : NodeVal ⊕ Nat :=
        let acts := chordValues b f (s.load tile k 0 (a.base + v * sc) an)
        let vb := s.loadBad tile k 0 (a.base + v * sc) an
        .inl { a := f.nodeA, n := f.nodeN, vals := (List.range 64).map (columnNode b f acts wb), bad := fun col => regs || vb || colBad col }
      readGate s k (wbad || abad) fun s =>
        runVectors tile b xd (b.slotMode f.slot) [a, w] writes (node s) (List.range f.vecs) { c := k, s })

/-- A partial-node record as FDRN reads it (R235): node, values, poison by column. -/
def State.readNode (s : State) (t : Nat) (k : Core) (base : Nat) : NodeVal :=
  let bs := s.load t k 0 base 264
  let w := leAt bs 0 8
  { a := bitsOf w 19 0, n := bitsOf w 32 20, vals := (List.range 64).map fun i => BitVec.ofNat 32 (leAt bs (8 + 4 * i) 4)
    bad := fun col => s.loadBad t k 0 base 8 || s.loadBad t k 0 (base + 8 + 4 * col) 4 }

/-- The parent of two children, or the NODE_A of the failing child (R238). -/
def combine (b : TileBank) (f : Facet) (regs : Bool) (x y : NodeVal) : NodeVal ⊕ Nat :=
  let (l, r) := if y.a < x.a then (y, x) else (x, y)
  match parentOf f.total l.a l.n r.a r.n with
  | none => .inr r.a
  | some (pa, pn) =>
    if f.dest = 0 ∧ ¬(pa = 0 ∧ pn = f.total) then .inr r.a else
    let g := groupChords f.group
    .inl { a := pa, n := pn
           vals := (List.range 64).map fun col =>
             (formNode g f.total (fun _ w => groupScale b f col 0 w) pa pn (fadd32 (nth 0 l.vals col) (nth 0 r.vals col))).s
           bad := fun col => regs || l.bad col || r.bad col }

/-- FDRN (R78, R129, R238). -/
def execFdrn (tile : Fin 512) (g : Issue) (xd xa xb : Fin 16) (hits : List EccHit) (s : State) : Host.Outcome State Fault Refusal :=
  .next (s.issue tile g anyEnc fun k s =>
    let f := k.facet
    let a := extentOf (k.a xa)
    let b := extentOf (k.a xb)
    let writes := if f.dest = 2 then [] else [extentOf (k.a xd)]
    match s.facetCheck tile k false xd xa xb 0 with
    | some e => .raise e
    | none =>
      if s.facetWaits tile k writes then .wait else
      let s := s.applyHits tile k [a, b] hits
      let bank := (s.tile tile).half k.bank
      let regs := k.facetBad || k.aBad xa || k.aBad xb || k.aBad xd
      let n := f.vecs * 264
      readGate s k (s.loadBad tile k 0 a.base n || s.loadBad tile k 0 b.base n) fun s =>
        runVectors tile bank xd (bank.slotMode f.slot) [a, b] writes
          (fun v => combine bank f regs (s.readNode tile k (a.base + v * 264)) (s.readNode tile k (b.base + v * 264)))
          (List.range f.vecs) { c := k, s })

end Sys2Proof.Machine
end

