-- ==== Sys2Proof/Machine/NtScalar.lean ====
section
/-! DEFINITION. Scalar, predicate, control, memory, extent and stamp instructions (09 R229 to R233, R253, R256). -/

namespace Sys2Proof.Machine

/-- Result of a scalar operation on two registers. -/
def Core.alu (c : Core) (dst a b : Fin 32) (f : Word → Word → Word) : Core :=
  c.setS dst (f (c.s a) (c.s b)) (c.sBad a || c.sBad b)

/-- Result of a scalar operation on a register and an immediate. -/
def Core.imm (c : Core) (dst a : Fin 32) (f : Word → Word) : Core := c.setS dst (f (c.s a)) (c.sBad a)

/-- Result of a comparison. -/
def Core.cmp (c : Core) (dst : Fin 8) (a b : Fin 32) (f : Word → Word → Bool) : Core :=
  c.setP dst (f (c.s a) (c.s b)) (c.sBad a || c.sBad b)

/-- Result of predicate logic. -/
def Core.plogic (c : Core) (dst a b : Fin 8) (f : Bool → Bool → Bool) : Core :=
  c.setP dst (f (c.p a) (c.p b)) (c.pBad a || c.pBad b)

/-- Shift count of a register (R229). -/
def shamt (b : Word) : Nat := fld b 4 0

/-- Signed quotient and remainder: a zero divisor gives 0, the overflow saturates (R229). -/
def sdivN (a b : Word) : Word :=
  if b = 0 then 0 else if a = 0x80000000 ∧ b = 0xFFFFFFFF then 0x7FFFFFFF else BitVec.ofInt 32 (Int.tdiv a.toInt b.toInt)
def sremN (a b : Word) : Word :=
  if b = 0 then 0 else if a = 0x80000000 ∧ b = 0xFFFFFFFF then 0 else BitVec.ofInt 32 (Int.tmod a.toInt b.toInt)
def udivN (a b : Word) : Word := if b = 0 then 0 else BitVec.ofNat 32 (a.toNat / b.toNat)
def uremN (a b : Word) : Word := if b = 0 then 0 else BitVec.ofNat 32 (a.toNat % b.toNat)

/-- The bit pattern of an integer saturated to int32. -/
def satW (v : Int) : Word := BitVec.ofInt 32 (sat32 v)

/-- The register after `r`; s31 has none. -/
def nextReg (r : Fin 32) : Fin 32 := if h : r.val + 1 < 32 then ⟨r.val + 1, h⟩ else 0

/-- A 64-bit result in a register pair. -/
def Core.setPair (c : Core) (dst : Fin 32) (v : Nat) (bad : Bool) : Core :=
  (c.setS dst (loWord v) bad).setS (nextReg dst) (hiWord v) bad

/-- DST of MULW and MULWU must be even, from s2 to s30 (R229). -/
def badPair (dst : Fin 32) (_ : Core) : Bool := decide (dst.val % 2 = 1 ∨ dst.val < 2)

/-- A reserved SHI encoding (R230). -/
def badShi (imm : BitVec 12) (_ : Core) : Bool := decide (bitsOf imm.toNat 11 10 = 3 ∨ bitsOf imm.toNat 9 5 ≠ 0)

/-- The shift of SHI (R230). -/
def shiOp (imm : BitVec 12) (a : Word) : Word :=
  let n := bitsOf imm.toNat 4 0
  match bitsOf imm.toNat 11 10 with
  | 0 => a <<< n
  | 1 => a >>> n
  | _ => a.sshiftRight n

/-- Whether an address can be jumped to (R210). -/
def State.jumpOk (s : State) (t pc : Nat) : Bool := decide (pc % 4 = 0 ∧ 0x800 ≤ pc ∧ pc < s.imemSize t)

/-- A jump with a link (R210); a target out of range raises PC_RANGE at the branch. -/
def State.jumpTo (s : State) (t : Nat) (c : Core) (link : Fin 32) (pc : Int) : NtRes :=
  if 0 ≤ pc ∧ s.jumpOk t pc.toNat then .jump (c.setS link (BitVec.ofNat 32 (c.pc + 4)) false) s pc.toNat else .raise 7

/-- The address of a scalar access, and the exceptions it can raise (R215). -/
def Core.memAddr (c : Core) (xa : Fin 16) (off : BitVec 13) : Int := ((extentOf (c.a xa)).base : Int) + off.toInt
def State.memCheck (s : State) (t : Nat) (c : Core) (xa : Fin 16) (off : BitVec 13) (store : Bool) : Option Nat :=
  let x := extentOf (c.a xa)
  let a := c.memAddr xa off
  let inside : Bool := decide ((x.base : Int) ≤ a ∧ a + 4 ≤ (x.base + x.len : Nat)) && s.inSpace t x
  firstCause [
    (2, decide (x.space = 1 ∨ x.space = 3)),
    (3, (store && x.space == 2) || anyOverlap [{ space := x.space, base := a.toNat, len := 4 }] c.rings),
    (4, decide (x.space = 0 ∨ x.space = 2) && !inside),
    (5, decide (a % 4 ≠ 0))]

/-- ADD (R229). -/
def execAdd (tile : Fin 512) (g : Issue) (dst a b : Fin 32) (s : State) : Host.Outcome State Fault Refusal :=
  .next (s.issueCore tile g fun c => c.alu dst a b fun a b => a + b)

/-- SUB (R229). -/
def execSub (tile : Fin 512) (g : Issue) (dst a b : Fin 32) (s : State) : Host.Outcome State Fault Refusal :=
  .next (s.issueCore tile g fun c => c.alu dst a b fun a b => a - b)

/-- AND (R229). -/
def execAnd (tile : Fin 512) (g : Issue) (dst a b : Fin 32) (s : State) : Host.Outcome State Fault Refusal :=
  .next (s.issueCore tile g fun c => c.alu dst a b fun a b => a &&& b)

/-- OR (R229). -/
def execOr (tile : Fin 512) (g : Issue) (dst a b : Fin 32) (s : State) : Host.Outcome State Fault Refusal :=
  .next (s.issueCore tile g fun c => c.alu dst a b fun a b => a ||| b)

/-- XOR (R229). -/
def execXor (tile : Fin 512) (g : Issue) (dst a b : Fin 32) (s : State) : Host.Outcome State Fault Refusal :=
  .next (s.issueCore tile g fun c => c.alu dst a b fun a b => a ^^^ b)

/-- SLL (R229). -/
def execSll (tile : Fin 512) (g : Issue) (dst a b : Fin 32) (s : State) : Host.Outcome State Fault Refusal :=
  .next (s.issueCore tile g fun c => c.alu dst a b fun a b => a <<< shamt b)

/-- SRL (R229). -/
def execSrl (tile : Fin 512) (g : Issue) (dst a b : Fin 32) (s : State) : Host.Outcome State Fault Refusal :=
  .next (s.issueCore tile g fun c => c.alu dst a b fun a b => a >>> shamt b)

/-- SRA (R229). -/
def execSra (tile : Fin 512) (g : Issue) (dst a b : Fin 32) (s : State) : Host.Outcome State Fault Refusal :=
  .next (s.issueCore tile g fun c => c.alu dst a b fun a b => a.sshiftRight (shamt b))

/-- MUL (R229). -/
def execMul (tile : Fin 512) (g : Issue) (dst a b : Fin 32) (s : State) : Host.Outcome State Fault Refusal :=
  .next (s.issueCore tile g fun c => c.alu dst a b fun a b => a * b)

/-- MULW (R229). -/
def execMulw (tile : Fin 512) (g : Issue) (dst a b : Fin 32) (s : State) : Host.Outcome State Fault Refusal :=
  .next (s.issue tile g (badPair dst) fun c s =>
    .done (c.setPair dst (((c.s a).toInt * (c.s b).toInt) % 2 ^ 64).toNat (c.sBad a || c.sBad b)) s)

/-- MULWU (R229). -/
def execMulwu (tile : Fin 512) (g : Issue) (dst a b : Fin 32) (s : State) : Host.Outcome State Fault Refusal :=
  .next (s.issue tile g (badPair dst) fun c s =>
    .done (c.setPair dst ((c.s a).toNat * (c.s b).toNat) (c.sBad a || c.sBad b)) s)

/-- DIV (R229). -/
def execDiv (tile : Fin 512) (g : Issue) (dst a b : Fin 32) (s : State) : Host.Outcome State Fault Refusal :=
  .next (s.issueCore tile g fun c => c.alu dst a b fun a b => sdivN a b)

/-- DIVU (R229). -/
def execDivu (tile : Fin 512) (g : Issue) (dst a b : Fin 32) (s : State) : Host.Outcome State Fault Refusal :=
  .next (s.issueCore tile g fun c => c.alu dst a b fun a b => udivN a b)

/-- REM (R229). -/
def execRem (tile : Fin 512) (g : Issue) (dst a b : Fin 32) (s : State) : Host.Outcome State Fault Refusal :=
  .next (s.issueCore tile g fun c => c.alu dst a b fun a b => sremN a b)

/-- REMU (R229). -/
def execRemu (tile : Fin 512) (g : Issue) (dst a b : Fin 32) (s : State) : Host.Outcome State Fault Refusal :=
  .next (s.issueCore tile g fun c => c.alu dst a b fun a b => uremN a b)

/-- MIN (R229). -/
def execMin (tile : Fin 512) (g : Issue) (dst a b : Fin 32) (s : State) : Host.Outcome State Fault Refusal :=
  .next (s.issueCore tile g fun c => c.alu dst a b fun a b => if a.toInt ≤ b.toInt then a else b)

/-- MAX (R229). -/
def execMax (tile : Fin 512) (g : Issue) (dst a b : Fin 32) (s : State) : Host.Outcome State Fault Refusal :=
  .next (s.issueCore tile g fun c => c.alu dst a b fun a b => if b.toInt ≤ a.toInt then a else b)

/-- MINU (R229). -/
def execMinu (tile : Fin 512) (g : Issue) (dst a b : Fin 32) (s : State) : Host.Outcome State Fault Refusal :=
  .next (s.issueCore tile g fun c => c.alu dst a b fun a b => if a.toNat ≤ b.toNat then a else b)

/-- MAXU (R229). -/
def execMaxu (tile : Fin 512) (g : Issue) (dst a b : Fin 32) (s : State) : Host.Outcome State Fault Refusal :=
  .next (s.issueCore tile g fun c => c.alu dst a b fun a b => if b.toNat ≤ a.toNat then a else b)

/-- ADDS (R229). -/
def execAdds (tile : Fin 512) (g : Issue) (dst a b : Fin 32) (s : State) : Host.Outcome State Fault Refusal :=
  .next (s.issueCore tile g fun c => c.alu dst a b fun a b => satW (a.toInt + b.toInt))

/-- SUBS (R229). -/
def execSubs (tile : Fin 512) (g : Issue) (dst a b : Fin 32) (s : State) : Host.Outcome State Fault Refusal :=
  .next (s.issueCore tile g fun c => c.alu dst a b fun a b => satW (a.toInt - b.toInt))

/-- ADDI (R208, R230). -/
def execAddi (tile : Fin 512) (g : Issue) (dst a : Fin 32) (imm : BitVec 12) (s : State) : Host.Outcome State Fault Refusal :=
  .next (s.issueCore tile g fun c => c.imm dst a fun a => a + imm.signExtend 32)

/-- ANDI (R208, R230). -/
def execAndi (tile : Fin 512) (g : Issue) (dst a : Fin 32) (imm : BitVec 12) (s : State) : Host.Outcome State Fault Refusal :=
  .next (s.issueCore tile g fun c => c.imm dst a fun a => a &&& imm.zeroExtend 32)

/-- ORI (R208, R230). -/
def execOri (tile : Fin 512) (g : Issue) (dst a : Fin 32) (imm : BitVec 12) (s : State) : Host.Outcome State Fault Refusal :=
  .next (s.issueCore tile g fun c => c.imm dst a fun a => a ||| imm.zeroExtend 32)

/-- XORI (R208, R230). -/
def execXori (tile : Fin 512) (g : Issue) (dst a : Fin 32) (imm : BitVec 12) (s : State) : Host.Outcome State Fault Refusal :=
  .next (s.issueCore tile g fun c => c.imm dst a fun a => a ^^^ imm.zeroExtend 32)

/-- SHI (R230). -/
def execShi (tile : Fin 512) (g : Issue) (dst a : Fin 32) (imm : BitVec 12) (s : State) : Host.Outcome State Fault Refusal :=
  .next (s.issue tile g (badShi imm) fun c s => .done (c.imm dst a (shiOp imm)) s)

/-- LUI (R208, R230). -/
def execLui (tile : Fin 512) (g : Issue) (dst : Fin 32) (imm : BitVec 17) (s : State) : Host.Outcome State Fault Refusal :=
  .next (s.issueCore tile g fun c => c.setS dst (imm.zeroExtend 32 <<< 15) false)

/-- CMP_EQ (R231). -/
def execCmpEq (tile : Fin 512) (g : Issue) (dst : Fin 8) (a b : Fin 32) (s : State) : Host.Outcome State Fault Refusal :=
  .next (s.issueCore tile g fun c => c.cmp dst a b fun a b => a == b)

/-- CMP_NE (R231). -/
def execCmpNe (tile : Fin 512) (g : Issue) (dst : Fin 8) (a b : Fin 32) (s : State) : Host.Outcome State Fault Refusal :=
  .next (s.issueCore tile g fun c => c.cmp dst a b fun a b => a != b)

/-- CMP_LT (R231). -/
def execCmpLt (tile : Fin 512) (g : Issue) (dst : Fin 8) (a b : Fin 32) (s : State) : Host.Outcome State Fault Refusal :=
  .next (s.issueCore tile g fun c => c.cmp dst a b fun a b => decide (a.toInt < b.toInt))

/-- CMP_GE (R231). -/
def execCmpGe (tile : Fin 512) (g : Issue) (dst : Fin 8) (a b : Fin 32) (s : State) : Host.Outcome State Fault Refusal :=
  .next (s.issueCore tile g fun c => c.cmp dst a b fun a b => decide (b.toInt ≤ a.toInt))

/-- CMP_LTU (R231). -/
def execCmpLtu (tile : Fin 512) (g : Issue) (dst : Fin 8) (a b : Fin 32) (s : State) : Host.Outcome State Fault Refusal :=
  .next (s.issueCore tile g fun c => c.cmp dst a b fun a b => decide (a.toNat < b.toNat))

/-- CMP_GEU (R231). -/
def execCmpGeu (tile : Fin 512) (g : Issue) (dst : Fin 8) (a b : Fin 32) (s : State) : Host.Outcome State Fault Refusal :=
  .next (s.issueCore tile g fun c => c.cmp dst a b fun a b => decide (b.toNat ≤ a.toNat))

/-- BR (R208, R210). -/
def execBr (tile : Fin 512) (g : Issue) (link : Fin 32) (off : BitVec 17) (s : State) : Host.Outcome State Fault Refusal :=
  .next (s.issue tile g anyEnc fun c s => s.jumpTo tile c link (c.pc + 4 * off.toInt))

/-- JR (R210). -/
def execJr (tile : Fin 512) (g : Issue) (dst a : Fin 32) (s : State) : Host.Outcome State Fault Refusal :=
  .next (s.issue tile g anyEnc fun c s => s.jumpTo tile c dst (fld (c.s a) 15 0))

/-- PAND (R232). -/
def execPand (tile : Fin 512) (g : Issue) (dst a b : Fin 8) (s : State) : Host.Outcome State Fault Refusal :=
  .next (s.issueCore tile g fun c => c.plogic dst a b fun a b => a && b)

/-- POR (R232). -/
def execPor (tile : Fin 512) (g : Issue) (dst a b : Fin 8) (s : State) : Host.Outcome State Fault Refusal :=
  .next (s.issueCore tile g fun c => c.plogic dst a b fun a b => a || b)

/-- PXOR (R232). -/
def execPxor (tile : Fin 512) (g : Issue) (dst a b : Fin 8) (s : State) : Host.Outcome State Fault Refusal :=
  .next (s.issueCore tile g fun c => c.plogic dst a b fun a b => a != b)

/-- PANDN (R232). -/
def execPandn (tile : Fin 512) (g : Issue) (dst a b : Fin 8) (s : State) : Host.Outcome State Fault Refusal :=
  .next (s.issueCore tile g fun c => c.plogic dst a b fun a b => a && !b)

/-- PNOT (R232). -/
def execPnot (tile : Fin 512) (g : Issue) (dst a : Fin 8) (s : State) : Host.Outcome State Fault Refusal :=
  .next (s.issueCore tile g fun c => c.setP dst (!c.p a) (c.pBad a))

/-- PFROM (R232). -/
def execPfrom (tile : Fin 512) (g : Issue) (dst : Fin 8) (a : Fin 32) (s : State) : Host.Outcome State Fault Refusal :=
  .next (s.issueCore tile g fun c => c.setP dst (c.s a != 0) (c.sBad a))

/-- PTO (R232). -/
def execPto (tile : Fin 512) (g : Issue) (dst : Fin 32) (a : Fin 8) (s : State) : Host.Outcome State Fault Refusal :=
  .next (s.issueCore tile g fun c => c.setS dst (BitVec.ofNat 32 (b2n (c.p a))) (c.pBad a))

/-- NOP (R232). -/
def execNop (tile : Fin 512) (g : Issue) (s : State) : Host.Outcome State Fault Refusal :=
  .next (s.issueCore tile g fun c => c)

/-- JEND (R204, R232, R270). -/
def execJend (tile : Fin 512) (g : Issue) (s : State) : Host.Outcome State Fault Refusal :=
  .next (s.issue tile g anyEnc fun c s =>
    if (s.tile tile).flight ≠ [] ∨ c.holds ≠ [] ∨ (c.desc.toList.any fun d => d.state == .openOut && s.unsent tile d.stream) then .wait
    else
      let s := c.desc.toList.foldl (fun s d => s.closeDesc tile c d) s
      let s := s.liveErgs.foldl (fun s k => s.inject (c.closeMsg tile k (s.voidOf c.id))) s
      .left (s.tileEnded tile c.id))

/-- FENCE_ENG (R232). -/
def execFenceEng (tile : Fin 512) (g : Issue) (s : State) : Host.Outcome State Fault Refusal :=
  .next (s.issue tile g anyEnc fun c s =>
    if (s.tile tile).flight ≠ [] then .wait else .done c s)

/-- LD (R215). -/
def execLd (tile : Fin 512) (g : Issue) (dst : Fin 32) (xa : Fin 16) (off : BitVec 13) (hits : List EccHit) (s : State) : Host.Outcome State Fault Refusal :=
  .next (s.issue tile g anyEnc fun c s =>
    match s.memCheck tile c xa off false with
    | some e => .raise e
    | none =>
      let sp := (extentOf (c.a xa)).space
      let a := (c.memAddr xa off).toNat
      let x : Extent := { space := sp, base := a, len := 4 }
      if anyOverlap [x] (s.tile tile).writes then .wait
      else
        let s := s.applyHits tile c [x] hits
        let bad := s.loadBad tile c sp a 4
        readGate s c bad fun s =>
          .done (c.setS dst (BitVec.ofNat 32 (ofLe (s.load tile c sp a 4))) (bad || c.aBad xa)) s)

/-- ST (R215). -/
def execSt (tile : Fin 512) (g : Issue) (src : Fin 32) (xa : Fin 16) (off : BitVec 13) (s : State) : Host.Outcome State Fault Refusal :=
  .next (s.issue tile g anyEnc fun c s =>
    match s.memCheck tile c xa off true with
    | some e => .raise e
    | none =>
      let a := (c.memAddr xa off).toNat
      let x : Extent := { space := 0, base := a, len := 4 }
      if anyOverlap [x] ((s.tile tile).writes ++ (s.tile tile).reads ++ c.held) then .wait
      else .done c (s.abWrite tile a (leBytes 4 (c.s src).toNat) fun _ => c.sBad src || c.aBad xa))

/-- ASET (R233). -/
def execAset (tile : Fin 512) (g : Issue) (dst : Fin 16) (a b : Fin 32) (s : State) : Host.Outcome State Fault Refusal :=
  .next (s.issueCore tile g fun c => c.setA dst (c.s b ++ c.s a) (c.sBad a || c.sBad b))

/-- AMOV (R233). -/
def execAmov (tile : Fin 512) (g : Issue) (dst a : Fin 16) (s : State) : Host.Outcome State Fault Refusal :=
  .next (s.issueCore tile g fun c => c.setA dst (c.a a) (c.aBad a))

/-- AADD (R233). -/
def execAadd (tile : Fin 512) (g : Issue) (dst a : Fin 16) (b : Fin 32) (s : State) : Host.Outcome State Fault Refusal :=
  .next (s.issueCore tile g fun c =>
    let v := c.a a
    let base := (v.extractLsb' 0 38) + (c.s b).signExtend 38
    c.setA dst (v.extractLsb' 38 26 ++ base) (c.aBad a || c.sBad b))

/-- ALEN (R233). -/
def execAlen (tile : Fin 512) (g : Issue) (dst a : Fin 16) (b : Fin 32) (s : State) : Host.Outcome State Fault Refusal :=
  .next (s.issueCore tile g fun c =>
    c.setA dst ((c.s b).extractLsb' 0 24 ++ (c.a a).extractLsb' 0 40) (c.aBad a || c.sBad b))

/-- ARDLO (R233). -/
def execArdlo (tile : Fin 512) (g : Issue) (dst : Fin 32) (a : Fin 16) (s : State) : Host.Outcome State Fault Refusal :=
  .next (s.issueCore tile g fun c => c.setS dst ((c.a a).extractLsb' 0 32) (c.aBad a))

/-- ARDHI (R233). -/
def execArdhi (tile : Fin 512) (g : Issue) (dst : Fin 32) (a : Fin 16) (s : State) : Host.Outcome State Fault Refusal :=
  .next (s.issueCore tile g fun c => c.setS dst ((c.a a).extractLsb' 32 32) (c.aBad a))

/-- STLO (R253). -/
def execStlo (tile : Fin 512) (g : Issue) (dst : Fin 32) (s : State) : Host.Outcome State Fault Refusal :=
  .next (s.issueCore tile g fun c => c.setS dst (c.id.stamp.extractLsb' 0 32) false)

/-- STHI (R253). -/
def execSthi (tile : Fin 512) (g : Issue) (dst : Fin 32) (s : State) : Host.Outcome State Fault Refusal :=
  .next (s.issueCore tile g fun c => c.setS dst (c.id.stamp.extractLsb' 32 32) false)

/-- STJOB (R253). -/
def execStjob (tile : Fin 512) (g : Issue) (dst : Fin 32) (s : State) : Host.Outcome State Fault Refusal :=
  .next (s.issueCore tile g fun c => c.setS dst (BitVec.ofNat 32 c.id.job) false)

/-- PSEL (R199, R253). -/
def execPsel (tile : Fin 512) (g : Issue) (a : Fin 32) (s : State) : Host.Outcome State Fault Refusal :=
  .next (s.issue tile g anyEnc fun c s =>
    let p := fld (c.s a) 11 0
    if c.noRoom p then .raise 8
    else .done { (c.setCount p ((c.count p).getD 0)) with prod := p } s)

/-- PGET (R253). -/
def execPget (tile : Fin 512) (g : Issue) (dst : Fin 32) (s : State) : Host.Outcome State Fault Refusal :=
  .next (s.issueCore tile g fun c => c.setS dst (BitVec.ofNat 32 c.prod) false)

/-- EGET (R253). -/
def execEget (tile : Fin 512) (g : Issue) (dst : Fin 32) (s : State) : Host.Outcome State Fault Refusal :=
  .next (s.issueCore tile g fun c => c.setS dst (BitVec.ofNat 32 ((c.count c.prod).getD 0)) false)

/-- IKLO (R253). -/
def execIklo (tile : Fin 512) (g : Issue) (dst : Fin 32) (d : Fin 16) (s : State) : Host.Outcome State Fault Refusal :=
  .next (s.issueCore tile g fun c => c.setS dst (((c.d d).last.getD 0).extractLsb' 32 32) false)

/-- IKHI (R253). -/
def execIkhi (tile : Fin 512) (g : Issue) (dst : Fin 32) (d : Fin 16) (s : State) : Host.Outcome State Fault Refusal :=
  .next (s.issueCore tile g fun c => c.setS dst (((c.d d).last.getD 0).extractLsb' 64 32) false)

/-- IKSEQ (R253). -/
def execIkseq (tile : Fin 512) (g : Issue) (dst : Fin 32) (d : Fin 16) (s : State) : Host.Outcome State Fault Refusal :=
  .next (s.issueCore tile g fun c => c.setS dst (((c.d d).last.getD 0).extractLsb' 0 32) false)

/-- BANK_ID (R223, R256). -/
def execBankId (tile : Fin 512) (g : Issue) (dst : Fin 32) (s : State) : Host.Outcome State Fault Refusal :=
  .next (s.issueCore tile g fun c =>
    c.setS dst (BitVec.ofNat 32 ((s.tile tile).half c.bank).digest) false)

/-- BANK_OLD (R223, R256). -/
def execBankOld (tile : Fin 512) (g : Issue) (dst : Fin 8) (s : State) : Host.Outcome State Fault Refusal :=
  .next (s.issueCore tile g fun c => c.setP dst c.old false)

end Sys2Proof.Machine
end

