-- ==== Sys2Proof/Machine/NtStream.lean ====
section
/-! DEFINITION. Stream, cairn, settle, emit and profile instructions (08 R225; 09 R246 to R255). -/

namespace Sys2Proof.Machine

/-! ### Descriptors and streams -/

/-- DSET writes one field of a CLOSED descriptor (R246). -/
def State.dset (s : State) (t : Fin 512) (g : Issue) (d : Fin 16) (f : Core → Desc → Desc) : State :=
  s.issue t g anyEnc fun c s => if (c.d d).state ≠ .closed then .raise 6 else .done (c.setD d (f c (c.d d))) s

/-- Whether a port of KIND 1 to 5 is absent on a die (R50, R55, R197). -/
def State.portAbsent (s : State) (die kind stream : Nat) : Bool :=
  match kind with
  | 0 => false
  | 1 => !s.mesaLive die || !s.fuses.optV || decide (24 ≤ stream)
  | 2 => !s.mesaLive die || !s.fuses.optT || decide (8 ≤ stream)
  | 3 => !s.mesaLive die || decide (32 ≤ stream ∧ stream ≠ 0xFFFF)
  | _ => !s.mesaLive die || decide (4 ≤ stream)

/-- The exceptions of SOPEN.IN (R247). -/
def State.openCheck (s : State) (t : Nat) (c : Core) (d : Desc) : Option Nat :=
  let x := extentOf d.ring
  let fl := (s.tile t).reads ++ (s.tile t).writes
  firstCause [(6, decide (d.state ≠ .closed)),
    (2, decide (x.space ≠ 0 ∨ x.len % 64 ≠ 0 ∨ x.len < 2112 ∨ d.sources < 1 ∨ 64 < d.sources)),
    (4, decide (x.space = 0 ∧ 0x40000 < x.base + x.len)), (5, decide (x.base % 4 ≠ 0)),
    (3, anyOverlap [x] (c.rings ++ fl))]

/-- Take an item at SGET's destination (R249): copied, its key kept, its void mask joined to the job's. -/
def State.takeItem (s : State) (t : Nat) (c : Core) (d : Fin 16) (a b : Fin 32) (pd : Fin 8) (p : InPort) (i : Item) : NtRes :=
  let off := (c.s a).toNat
  let bs := i.copy
  if bs.length > (c.s b).toNat then .raise 4
  else
    let regs := c.sBad a || c.sBad b
    readGate s c i.poison fun s =>
      let s := s.modTile t fun x => x.setPort { p with released := p.released.drop 1 }
      let s := (s.abWrite t off bs fun _ => i.poison || regs).mark c.id i.void
      let c := (c.setD d { c.d d with last := some i.key }).setP pd true false
      .done (c.setS b (BitVec.ofNat 32 bs.length) false) s

/-- SGET and SGETNB (R225, R249). -/
def State.get (s : State) (t : Nat) (c : Core) (d : Fin 16) (a b : Fin 32) (pd : Fin 8) (block : Bool) : NtRes :=
  let e := c.d d
  if e.state = .absent then .done ((c.setP pd false false).setS b 0xFFFFFFFF false) s
  else if e.state ≠ .openIn then .raise 6
  else
    let x : Extent := { space := 0, base := (c.s a).toNat, len := (c.s b).toNat }
    match firstCause [(5, decide (x.base % 4 ≠ 0)), (4, !s.inSpace t x), (3, anyOverlap [x] c.rings)] with
    | some n => .raise n
    | none =>
      if anyOverlap [x] (c.held ++ (s.tile t).reads ++ (s.tile t).writes) then .wait else
      let p := ((s.tile t).port e.kind e.stream).head c.id
      match p.2 with
      | some i => s.takeItem t c d a b pd p.1 i
      | none =>
        if (if e.kind = 0 then p.1.ended c.id else s.portEnded (s.serving (t / 128)) e.kind e.stream c.id) then .done ((c.setP pd false false).setS b 0 false) (s.modTile t fun y => y.setPort p.1)
        else if block then .wait
        else .done (c.setP pd false false) s

/-- DSET.KIND (R246). -/
def execDsetKind (tile : Fin 512) (g : Issue) (d : Fin 16) (a : Fin 32) (s : State) : Host.Outcome State Fault Refusal :=
  .next (s.issue tile g anyEnc fun c s =>
    match firstCause [(6, decide ((c.d d).state ≠ .closed)), (2, decide (6 ≤ fld (c.s a) 2 0))] with
    | some e => .raise e
    | none => .done (c.setD d { c.d d with kind := fld (c.s a) 2 0 }) s)

/-- DSET.LOOSE (R246). -/
def execDsetLoose (tile : Fin 512) (g : Issue) (d : Fin 16) (a : Fin 32) (s : State) : Host.Outcome State Fault Refusal :=
  .next (s.dset tile g d fun c e => { e with loose := bit (c.s a) 0 })

/-- DSET.FMT (R246). -/
def execDsetFmt (tile : Fin 512) (g : Issue) (d : Fin 16) (a : Fin 32) (s : State) : Host.Outcome State Fault Refusal :=
  .next (s.dset tile g d fun c e => { e with fmt := fld (c.s a) 2 0 })

/-- DSET.SOURCES (R246). -/
def execDsetSources (tile : Fin 512) (g : Issue) (d : Fin 16) (a : Fin 32) (s : State) : Host.Outcome State Fault Refusal :=
  .next (s.dset tile g d fun c e => { e with sources := fld (c.s a) 6 0 })

/-- DSET.STREAM (R246). -/
def execDsetStream (tile : Fin 512) (g : Issue) (d : Fin 16) (a : Fin 32) (s : State) : Host.Outcome State Fault Refusal :=
  .next (s.dset tile g d fun c e => { e with stream := fld (c.s a) 15 0 })

/-- DSET.RING (R246). -/
def execDsetRing (tile : Fin 512) (g : Issue) (d : Fin 16) (a b : Fin 32) (s : State) : Host.Outcome State Fault Refusal :=
  .next (s.dset tile g d fun c e => { e with ring := c.s b ++ c.s a })

/-- SOPEN.IN (R55, R139, R247). -/
def execSopenIn (tile : Fin 512) (g : Issue) (d : Fin 16) (s : State) : Host.Outcome State Fault Refusal :=
  .next (s.issue tile g anyEnc fun c s =>
    let e := c.d d
    match s.openCheck tile c e with
    | some n => .raise n
    | none =>
      if s.portAbsent (s.serving (tile.val / 128)) e.kind e.stream then .done (c.setD d { e with state := .absent }) s
      else
        let s := s.modTile tile fun x =>
          let p := x.port e.kind e.stream
          x.setPort { p with
            sources := if e.kind = 0 then e.sources else 1
            loose := e.loose, srcs := p.srcs.map fun m => { m with loose := e.loose }
            released := if e.kind = 0 then p.released else s.portItems (s.serving (tile.val / 128)) e.kind e.stream c.id }
        .done (c.setD d { e with state := .openIn, credit := (extentOf e.ring).len / 64 }) s)

/-- SOPEN.OUT (R247): only an internal stream can be opened for output (log 33). -/
def execSopenOut (tile : Fin 512) (g : Issue) (d : Fin 16) (credit : Nat) (s : State) : Host.Outcome State Fault Refusal :=
  .next (s.issue tile g anyEnc fun c s =>
    match firstCause [(6, decide ((c.d d).state ≠ .closed)), (2, decide ((c.d d).kind ≠ 0))] with
    | some e => .raise e
    | none => .done (c.setD d { c.d d with state := .openOut, credit := credit, used := [] }) s)

/-- SCLOSE (R73, R247, R250). -/
def execSclose (tile : Fin 512) (g : Issue) (d : Fin 16) (s : State) : Host.Outcome State Fault Refusal :=
  .next (s.issue tile g anyEnc fun c s =>
    let e := c.d d
    if e.state = .closed then .raise 6
    else if e.state = .openOut ∧ s.unsent tile e.stream then .wait
    else .done (c.setD d { e with state := .closed, credit := 0 }) (s.closeDesc tile c e))

/-- SPUT (R70, R199, R245, R248). -/
def execSput (tile : Fin 512) (g : Issue) (d : Fin 16) (a b : Fin 32) (s : State) : Host.Outcome State Fault Refusal :=
  .next (s.issue tile g anyEnc fun c s =>
    let e := c.d d
    let x : Extent := { space := 0, base := (c.s a).toNat, len := (c.s b).toNat }
    match firstCause [(6, decide (e.state ≠ .openOut)), (2, decide (x.len < 4 ∨ 2048 < x.len ∨ x.len % 4 ≠ 0)), (5, decide (x.base % 4 ≠ 0)),
        (4, !s.inSpace tile x), (3, anyOverlap [x] c.rings), (8, c.noRoom c.prod)] with
    | some n => .raise n
    | none =>
      if s.queueFull tile 3 then .wait
      else if c.spent then .stop s 0x04 c.nextKey 0
      else
        let bad := s.loadBad tile c 0 x.base x.len
        readGate s c bad fun s =>
          let m := c.msg tile (ringDest e.ring) 2 e.stream
            { key := c.nextKey, void := s.voidOf c.id, poison := bad || c.sBad a || c.sBad b
              body := padTo (roundUp x.len 64) (s.load tile c 0 x.base x.len) }
          let used := if e.used.contains c.prod then e.used else e.used ++ [c.prod]
          .done (c.emitted.setD d { e with used }) ((s.inject m).fly tile 3 [x] []))

/-- SGET (R213, R249). -/
def execSget (tile : Fin 512) (g : Issue) (d : Fin 16) (a b : Fin 32) (pd : Fin 8) (s : State) : Host.Outcome State Fault Refusal :=
  .next (s.issue tile g anyEnc fun c s => s.get tile c d a b pd true)

/-- SHZN (R73, R250). -/
def execShzn (tile : Fin 512) (g : Issue) (d : Fin 16) (s : State) : Host.Outcome State Fault Refusal :=
  .next (s.issue tile g anyEnc fun c s =>
    match firstCause [(6, decide ((c.d d).state ≠ .openOut)), (8, c.noRoom c.prod)] with
    | some n => .raise n
    | none => .done (c.setCount c.prod ((c.count c.prod).getD 0)) (s.inject (c.horizonMsg tile (c.d d) c.prod c.nextKey)))

/-! ### Cairns (R251, R258, R268) -/

/-- The body of a cairn message (R268). -/
def cairnBody (opc cairn operand contrib : Nat) (rerun : Bool) (threshold : Nat) : List Byte :=
  leBytes 64 (opc + cairn * 2 ^ 8 + operand * 2 ^ 32 + contrib * 2 ^ 64 + b2n rerun * 2 ^ 74 + threshold * 2 ^ 75)

/-- The number of cairns of the module (R257). -/
def State.capCairns (s : State) : Nat := 65536 * s.fuses.ergCount

/-- Send a cairn operation under the next EMIT count; `k` gets the core after the emission and the message's key (R251, R258). -/
def State.cairnSend (s : State) (t : Nat) (c : Core) (cairn : Nat) (body : List Byte) (bad : Bool) (k : Core → State → Key → NtRes) : NtRes :=
  if s.capCairns ≤ cairn then .raise 2
  else if c.noRoom c.prod then .raise 8
  else if !s.ergLive (cairn / 65536) then .stop s 0x09 0 cairn
  else if c.spent then .stop s 0x04 c.nextKey 0
  else
    let m := c.msg t (.apply (cairn / 65536)) 1 0 { key := c.nextKey, void := s.voidOf c.id, poison := bad, body }
    k c.emitted (s.inject m) c.nextKey

/-- The cairn number that a register holds. -/
def Core.cairnOf (c : Core) (r : Fin 16) : Nat := fld (c.s ⟨r.val, by omega⟩) 17 0
def Core.cairnBad (c : Core) (r : Fin 16) : Bool := c.sBad ⟨r.val, by omega⟩

/-- CPOST, CADD, CADDS and CFENCE go to the cairn queue (R251). -/
def State.cairnQueued (s : State) (t : Fin 512) (g : Issue) (r : Fin 16) (opc : Nat) (operand : Core → Nat) (bad : Core → Bool) : State :=
  s.issue t g anyEnc fun c s =>
    if s.queueFull t 4 then .wait
    else s.cairnSend t c (c.cairnOf r) (cairnBody opc (c.cairnOf r) (operand c) 0 false 0) (bad c || c.cairnBad r)
      fun c s _ => .done c (s.fly t 4 [] [])

/-- CWAIT (R213, R251). -/
def execCwait (tile : Fin 512) (g : Issue) (c : Fin 16) (a b : Fin 32) (s : State) : Host.Outcome State Fault Refusal :=
  .next (s.issue tile g anyEnc fun k s =>
    s.cairnSend tile k (k.cairnOf c) (cairnBody 4 (k.cairnOf c) (k.s b).toNat 0 false 0) (k.sBad b || k.cairnBad c) fun k' s key =>
      .hold { k' with wait := some { die := k.cairnOf c / 65536, key, kind := 0, sreg := a.val, preg := 0, slot := 0 } } s)

/-- CPOST (R251): an ADD of 1. -/
def execCpost (tile : Fin 512) (g : Issue) (c : Fin 16) (s : State) : Host.Outcome State Fault Refusal :=
  .next (s.cairnQueued tile g c 1 (fun _ => 1) fun _ => false)

/-- CADD (R251). -/
def execCadd (tile : Fin 512) (g : Issue) (c : Fin 16) (a : Fin 32) (s : State) : Host.Outcome State Fault Refusal :=
  .next (s.cairnQueued tile g c 1 (fun k => (k.s a).toNat) fun k => k.sBad a)

/-- CADDS (R251). -/
def execCadds (tile : Fin 512) (g : Issue) (c : Fin 16) (a : Fin 32) (s : State) : Host.Outcome State Fault Refusal :=
  .next (s.cairnQueued tile g c 2 (fun k => (k.s a).toNat) fun k => k.sBad a)

/-- CFENCE (R251). -/
def execCfence (tile : Fin 512) (g : Issue) (c : Fin 16) (s : State) : Host.Outcome State Fault Refusal :=
  .next (s.cairnQueued tile g c 3 (fun _ => 0) fun _ => false)

/-! ### Settles (R178, R184, R252) -/

/-- Send a settle of a slot on a cairn and wait; the local counter is taken and cleared (R178). -/
def State.settleSend (s : State) (t : Nat) (c : Core) (slot cairn opc kind : Nat) (b : Fin 32) (pd : Fin 8) (rerun : Bool) (threshold contrib : Nat)
    (bad : Bool) : NtRes :=
  let n := mget (fun _ => 0) c.counters slot
  s.cairnSend t c cairn (cairnBody opc cairn n contrib rerun threshold) bad fun k s key =>
    .hold { k with
      counters := mdel k.counters slot
      wait := some { die := cairn / 65536, key, kind, sreg := b.val, preg := pd.val, slot } } s

/-- SETTLE.N (R178, R252). -/
def execSettleN (tile : Fin 512) (g : Issue) (a b : Fin 32) (pd : Fin 8) (s : State) : Host.Outcome State Fault Refusal :=
  .next (s.issue tile g anyEnc fun c s =>
    let slot := (c.s a).toNat
    let k := (s.tile tile).half c.bank
    let mode := k.slotMode slot
    if 63 < slot then .raise 2
    else if mode = 0 then .done ((c.setS b 0 false).setP pd false false) s
    else if mode = 3 then
      .done { (c.setS b 0 false).setP pd true false with
        settled := c.settled ++ [{ slot, key := c.nextKey, count := 0, time := s.time.now, rerun := true }] } s
    else s.settleSend tile c slot (k.slotNum slot 12 4) 5 1 b pd (decide (mode = 2)) (k.slotNum slot 4 4) (k.slotNum slot 8 2) (c.sBad a))

/-- SETTLE.W (R184, R252). -/
def execSettleW (tile : Fin 512) (g : Issue) (a b : Fin 32) (pd : Fin 8) (s : State) : Host.Outcome State Fault Refusal :=
  .next (s.issue tile g anyEnc fun c s =>
    let slot := (c.s a).toNat
    let k := (s.tile tile).half c.bank
    if 63 < slot then .raise 2
    else if k.slotMode slot < 2 then .raise 2
    else s.settleSend tile c slot (k.slotNum slot 12 4 + 1) 6 2 b pd false 0 (k.slotNum slot 8 2) (c.sBad a))

/-! ### Emits (R254, R255) -/

/-- The die that holds the job's pending event, or serves the tile. -/
def State.actDie (s : State) (t : Nat) (c : Core) : Nat :=
  match s.job c.id with | some j => j.die | none => s.serving (t / 128)

/-- Send an extent's bytes to a mesa unit under the next EMIT count (R199, R245). -/
def State.emitExtent (s : State) (t : Nat) (c : Core) (x : Extent) (dest : Place) (regs : Bool) (wrap : State → List Byte → List Byte) : NtRes :=
  if s.queueFull t 3 then .wait
  else if c.spent then .stop s 0x04 c.nextKey 0
  else
    let bad := s.loadBad t c 0 x.base x.len
    readGate s c bad fun s =>
      let m := c.msg t dest 0 0 { key := c.nextKey, void := s.voidOf c.id, poison := bad || regs, body := wrap s (s.load t c 0 x.base x.len) }
      .done c.emitted ((s.inject m).fly t 3 [x] [])

/-- The exceptions of ACT and LOG. -/
def State.emitCheck (s : State) (t : Nat) (c : Core) (x : Extent) (operand : Bool) : Option Nat :=
  firstCause ([(2, operand), (8, c.noRoom c.prod)] ++ s.extentChecks t [0] x)

/-- ACT (R254): the commit's body has 48 bytes (R444). -/
def execAct (tile : Fin 512) (g : Issue) (xa : Fin 16) (s : State) : Host.Outcome State Fault Refusal :=
  .next (s.issue tile g anyEnc fun c s =>
    let x := extentOf (c.a xa)
    match s.emitCheck tile c x (decide (x.len ≠ 48)) with
    | some n => .raise n
    | none => s.emitExtent tile c x (actDest (s.actDie tile c)) (c.aBad xa) fun _ b => b)

/-- The bytes of a trace record (R571). -/
def traceBytes (type void : Nat) (replay : Bool) (key : Key) (body : List Byte) : List Byte :=
  [BitVec.ofNat 8 type, BitVec.ofNat 8 (b2n replay), BitVec.ofNat 8 void, 0] ++ leBytes 12 key.toNat ++ body

/-- LOG (R255, R571). -/
def execLog (tile : Fin 512) (g : Issue) (xa : Fin 16) (c : Fin 32) (s : State) : Host.Outcome State Fault Refusal :=
  .next (s.issue tile g anyEnc fun k s =>
    let x := extentOf (k.a xa)
    let ty := fld (k.s c) 7 0
    match s.emitCheck tile k x (decide (x.len < 16 ∨ 256 < x.len ∨ ty < 0x40 ∨ 0x7F < ty)) with
    | some n => .raise n
    | none => s.emitExtent tile k x (logDest (s.serving (tile.val / 128))) (k.aBad xa || k.sBad c) fun s b =>
        traceBytes ty (s.voidOf k.id) s.replaying k.nextKey b)

/-! ### Profile-only instructions (R81, R225) -/

/-- Outside profile mode, and with DST s31 where a pair is written, the encoding is illegal. -/
def notProfile (pair : Bool) (dst : Nat) (c : Core) : Bool := !c.profile || (pair && decide (dst = 31))

/-- RDCYC (R225). -/
def execRdcyc (tile : Fin 512) (g : Issue) (dst : Fin 32) (cycles : Nat) (s : State) : Host.Outcome State Fault Refusal :=
  .next (s.issue tile g (notProfile true dst.val) fun c s => .done (c.setPair dst cycles false) s)

/-- RDST (R225). -/
def execRdst (tile : Fin 512) (g : Issue) (dst : Fin 32) (s : State) : Host.Outcome State Fault Refusal :=
  .next (s.issue tile g (notProfile true dst.val) fun c s => .done (c.setPair dst s.time.now false) s)

/-- SPOLL (R225): items released on the descriptor and not taken. -/
def execSpoll (tile : Fin 512) (g : Issue) (dst : Fin 32) (d : Fin 16) (s : State) : Host.Outcome State Fault Refusal :=
  .next (s.issue tile g (notProfile false 0) fun c s =>
    let e := c.d d
    .done (c.setS dst (if e.state = .openIn then BitVec.ofNat 32 ((s.tile tile).port e.kind e.stream).released.length else 0) false) s)

/-- SGETNB (R225): the offset stands in s[a], the capacity in s[b] (log 34). -/
def execSgetnb (tile : Fin 512) (g : Issue) (pd : Fin 8) (d : Fin 16) (a b : Fin 32) (s : State) : Host.Outcome State Fault Refusal :=
  .next (s.issue tile g (notProfile false 0) fun c s => s.get tile c d a b pd false)

/-- RDSTALL (R225). -/
def execRdstall (tile : Fin 512) (g : Issue) (dst : Fin 32) (cycles : Nat) (s : State) : Host.Outcome State Fault Refusal :=
  .next (s.issue tile g (notProfile false 0) fun c s => .done (c.setS dst (BitVec.ofNat 32 cycles) false) s)

end Sys2Proof.Machine
end

