-- ==== Sys2Proof/Machine/CairnRows.lean ====
section
/-! DEFINITION. Messages at a cairn apply unit and replies to tiles (10 R262 to R279; 07 R178 to R192; log 24). -/

namespace Sys2Proof.Machine

/-- A job that is known and has stopped. -/
def State.jobGone (s : State) (id : JobId) : Bool := match s.job id with | some j => j.stopped.isSome | none => false

/-- Put an apply-unit step into the state, then release what is finished (R264). -/
def State.cairnStep (s : State) (k : Nat) (r : ApplyOut) : State :=
  let s := s.applyOut k r
  s.applyOut k (s.applyUnit k).settleBinds

/-- An operation arrives (R267); one of a stopped job is discarded (R264). -/
def State.cairnOp (s : State) (k : Nat) (o : COp) : State :=
  if !s.ergLive k || s.jobGone (keyId o.key) then s else s.cairnStep k ((s.applyUnit k).arrive o)

/-- A CLOSE arrives (R269). -/
def State.cairnClose (s : State) (k : Nat) (id : JobId) (prods : List Nat) : State :=
  if !s.ergLive k || s.jobGone id then s else s.cairnStep k { unit := (s.applyUnit k).close id prods }

/-- A binding message arrives (R263, R265). -/
def State.cairnBind (s : State) (k : Nat) (b : Binding) : State :=
  if !s.ergLive k || s.jobGone b.id then s else s.cairnStep k ((s.applyUnit k).bindMsg b)

/-- CAIRN_BIND_MSG (R263). -/
def execCairnBindMsg (die : Fin 4) (job : JobId) (admitted : Bool) (end_ : Time) (ranges : List (Nat × Nat)) (sources : Nat) (s : State) :
    Host.Outcome State Fault Refusal :=
  .next (s.cairnBind die { id := job, ranges, sources, admitted, end_ })

/-- CAIRN_ADD_MSG (R267, R269). -/
def execCairnAddMsg (die : Fin 4) (tile : Fin 512) (key : Key) (cairn : Nat) (operand : Word) (s : State) : Host.Outcome State Fault Refusal :=
  .next (s.cairnOp die { opc := 1, cairn, operand := operand.toNat, key, tile })

/-- CAIRN_ADDS_MSG (R267, R269). -/
def execCairnAddsMsg (die : Fin 4) (tile : Fin 512) (key : Key) (cairn : Nat) (operand : Word) (s : State) : Host.Outcome State Fault Refusal :=
  .next (s.cairnOp die { opc := 2, cairn, operand := operand.toNat, key, tile })

/-- CAIRN_FENCE_MSG (R267, R269). -/
def execCairnFenceMsg (die : Fin 4) (tile : Fin 512) (key : Key) (cairn : Nat) (s : State) : Host.Outcome State Fault Refusal :=
  .next (s.cairnOp die { opc := 3, cairn, operand := 0, key, tile })

/-- CAIRN_WAIT_MSG (R267, R269, R272). -/
def execCairnWaitMsg (die : Fin 4) (tile : Fin 512) (key : Key) (cairn : Nat) (target : Word) (s : State) : Host.Outcome State Fault Refusal :=
  .next (s.cairnOp die { opc := 4, cairn, operand := target.toNat, key, tile })

/-- CAIRN_SETTLE_N_MSG (R178, R267, R274). -/
def execCairnSettleNMsg (die : Fin 4) (tile : Fin 512) (key : Key) (cairn : Nat) (count : Word) (contrib : Nat) (rerun : Bool) (threshold : Word)
    (s : State) : Host.Outcome State Fault Refusal :=
  .next (s.cairnOp die { opc := 5, cairn, operand := count.toNat, contrib := contrib % 1024, rerun, threshold := threshold.toNat, key, tile })

/-- CAIRN_SETTLE_W_MSG (R184, R267, R274). -/
def execCairnSettleWMsg (die : Fin 4) (tile : Fin 512) (key : Key) (cairn : Nat) (count : Word) (contrib : Nat) (s : State) :
    Host.Outcome State Fault Refusal :=
  .next (s.cairnOp die { opc := 6, cairn, operand := count.toNat, contrib := contrib % 1024, key, tile })

/-- CAIRN_CLOSE_MSG (R264, R269). -/
def execCairnCloseMsg (die : Fin 4) (job : JobId) (prods : List Nat) (s : State) : Host.Outcome State Fault Refusal :=
  .next (s.cairnClose die job prods)

/-- An error in a cairn word (R279, R574): corrected, or the word poisoned and every job that waits on it stopped. -/
def State.cairnEcc (s : State) (k cairn : Nat) (ue : Bool) : State :=
  let f : FaultInfo := { cls := 0x0011, sev := 2, kind := 1, index := k, addr := 8 * (cairn % 65536), detail := 4 }
  let die := s.serving k
  if !ue then (s.cairnFlag k 0).faultThrottled (!bit (s.reg (ergBase k + 0x200)) 0) die { f with cls := 0x0010, sev := 1 }
  else
    let u := s.applyUnit k
    let s := (s.setApply k (u.setWord cairn { u.word cairn with state := .poisoned })).cairnFlag k 1
    s.fault die none f

/-- The job of the next operation stops on a poisoned word, and with it every job that waits on the word (R267, R279). -/
def State.cairnPoisonStop (s : State) (k : Nat) (o : COp) : State :=
  s.stopAll k (((s.applyUnit k).pendingOn o.cairn).map fun b => (b.id, 0x0B, o.key, o.cairn))

/-- The operation that a binding applies next, once every other frontier has passed it (R271). -/
def ApplyUnit.next (u : ApplyUnit) (id : JobId) : Option COp :=
  match u.binds.find? fun b => decide (b.id = id) with
  | none => none
  | some b => b.ops.head?.filter fun o => b.passed (keyProd o.key) o.pos

/-- CAIRN_APPLY (R271 to R275, R278, R279). -/
def execCairnApply (die : Fin 4) (job : JobId) (hits : List EccHit) (t : Time) (s : State) : Host.Outcome State Fault Refusal :=
  .next (
    let s := s.at t
    if !s.ergLive die then s else
    match (s.applyUnit die).next job with
    | none => s.cairnStep die { unit := s.applyUnit die }
    | some o =>
      let s := match hits.find? fun e => decide (e.store = 4 ∧ e.addr / 8 = o.cairn % 65536) with
        | none => s
        | some e => s.cairnEcc die o.cairn e.ue
      if ((s.applyUnit die).word o.cairn).state = .poisoned then s.cairnPoisonStop die o
      else s.cairnStep die ((s.applyUnit die).applyNext job))

/-! ### Replies (R97, R178, R184, R251, R252) -/

/-- The 48 bytes of a misfit record (R191). -/
def misfitBytes (b : TileBank) (slot flags void : Nat) (key : Key) (count wide time cyc tile : Nat) : List Byte :=
  [0x21, BitVec.ofNat 8 flags, BitVec.ofNat 8 void, BitVec.ofNat 8 (b.slotMode slot + 4 * (b.slotNum slot 3 1 % 4))] ++
  leBytes 2 (b.slotNum slot 0 2) ++ leBytes 2 0 ++ leBytes 12 key.toNat ++ leBytes 4 count ++ leBytes 4 (b.slotNum slot 4 4) ++
  leBytes 4 wide ++ leBytes 8 time ++ leBytes 4 cyc ++ leBytes 2 tile ++ leBytes 2 0

/-- The lead tile's misfit record (R191, R192). -/
def State.misfit (s : State) (t : Nat) (c : Core) (slot : Nat) (x : Settled) (wide : Option Nat) (cyc : Nat) : State :=
  let b := (s.tile t).half c.bank
  if !b.slotLead slot then s else
  let void := s.voidOf c.id
  let flags := b2n wide.isSome + 2 * b2n s.replaying + 4 * b2n (b.slotMode slot = 3) + 8 * b2n x.sat
  let s := (s.makeRecord (s.serving (t / 128)) 0 (some x.key)
    (misfitBytes b slot flags void x.key x.count (wide.getD 0) x.time cyc t)).countVoid void
  let s := s.count32 misfitRecordsAddr 1
  if wide.isSome then s.count32 misfitRerunsAddr 1 else s

/-- The core once the reply of its wait or settle has come. -/
def Core.replied (c : Core) (w : CairnWait) (result : Word) (decision : Bool) (x : Settled) : Core :=
  let r : Fin 32 := Fin.ofNat 32 w.sreg
  let p : Fin 8 := Fin.ofNat 8 w.preg
  let c := { c with wait := none, reply := none }
  match w.kind with
  | 0 => c.setS r result false
  | 1 =>
    let c := (c.setS r result false).setP p decision false
    if decision then { c with settled := c.settled ++ [x] } else { c with holds := c.holds.filter fun h => decide (h.slot ≠ w.slot) }
  | _ =>
    let c := (c.setS r result false).setP p false false
    { c with holds := c.holds.filter fun h => decide (h.slot ≠ w.slot), settled := c.settled.filter fun y => decide (y.slot ≠ w.slot) }

/-- The records that a settle's reply makes. -/
def State.settleRecord (s : State) (t : Nat) (c : Core) (w : CairnWait) (result : Word) (decision : Bool) (x : Settled) (cyc : Nat) : State :=
  if w.kind = 1 then (if !decision ∧ result ≠ 0 then s.misfit t c w.slot x none 0 else s)
  else if w.kind = 2 then
    match c.settled.find? fun y => decide (y.slot = w.slot) with
    | some y => s.misfit t c w.slot y (some result.toNat) cyc
    | none => s
  else s

/-- CAIRN_REPLY (R97, R178, R251, R252): the reply in the router's register ends the wait, and the core goes on. -/
def execCairnReply (tile : Fin 512) (key : Key) (result : Word) (decision : Bool) (cycles : Nat) (t : Time) (s : State) :
    Host.Outcome State Fault Refusal :=
  .next (
    let s := s.at t
    match (s.tile tile).core with
    | none => s
    | some c =>
      match c.wait with
      | none => s
      | some w =>
        if w.key ≠ key then s else
        let held := c.reply.getD (result.toNat, decision)
        let result : Word := BitVec.ofNat 32 held.1
        let decision := held.2
        let x : Settled := { slot := w.slot, key, count := result.toNat, time := s.time.now, rerun := decision
                             sat := ((s.applyUnit w.die).word (((s.tile tile).half c.bank).slotNum w.slot 12 4)).saturated }
        s.settle tile c (.done (c.replied w result decision x) (s.settleRecord tile c w result decision x cycles)))

end Sys2Proof.Machine
end

