-- ==== Sys2Proof/Machine/Flow.lean ====
section
/-! DEFINITION. Merge points and the mesh (03 R71 to R75; 04 R97 to R120): arrival and release of items, routes, hops, credits, delivery (log 18; log 20; log 23). -/

namespace Sys2Proof.Machine

/-! ### Input streams of a tile -/

/-- An item or a horizon reaches an input stream. -/
def State.portArrive (s : State) (t kind stream src : Nat) (i : Item) : State :=
  s.modTile t fun x =>
    let p := x.port kind stream
    let m := sourceOf p.srcs src
    x.setPort { p with srcs := putSource p.srcs { m with held := m.held ++ [i], loose := p.loose } }
def State.portHorizon (s : State) (t kind stream src : Nat) (h : Key) : State :=
  s.modTile t fun x =>
    let p := x.port kind stream
    let m := sourceOf p.srcs src
    x.setPort { p with srcs := putSource p.srcs { m with horizon := h, loose := p.loose } }

/-- A merge of an input stream releases one item (R71), or finds a tie (R72). -/
def State.portRelease (s : State) (t kind stream : Nat) : State :=
  let p := (s.tile t).port kind stream
  if p.sources = 0 ∨ (p.srcs.length < p.sources ∧ !p.loose) then s else
  match tiedKey (p.srcs.filter fun m => !m.loose) with
  | some k =>
    let drop (l : List Item) : List Item := l.filter fun i => decide (i.key ≠ k)
    (s.modTile t fun x => x.setPort { p with srcs := p.srcs.map fun m => { m with held := drop m.held } }).stopJob (keyId k) 2 k 0 t
  | none =>
    match pickSource p.srcs with
    | none => s
    | some m =>
      match m.held with
      | [] => s
      | i :: rest =>
        s.modTile t fun x => x.setPort { p with
          srcs := putSource p.srcs { m with held := rest }
          released := p.released ++ [markLoose p.srcs i] }

/-! ### The lanes (R408) -/

/-- The packed bytes of a frame item's slot (R420). -/
def State.framePixels (s : State) (i : Item) : List Byte :=
  let w := leAt i.body 8 2
  let h := leAt i.body 0xA 2
  let planes : List Nat := if byteAt i.body 0xD = 1 then [w, w / 2, w / 2] else if byteAt i.body 0xC = 3 then [2 * w] else [w]
  s.resv.mem.bytes (leAt i.body 0 8) (planes.foldl (fun n len => n + roundUp len 64 * h) 0)

/-- ADMIT of a frame item in the input log (R565): the outcome of its frame job. -/
def State.frameAdmit (s : State) (j stream : Nat) (st : Stamp) : Nat :=
  match s.job { stamp := st, job := 0 } with
  | some x => if x.admitted then 1 else 2
  | none => if (s.frameEntry (s.usesOld (stampTime st)) j stream).isSome then 0 else 0xFF

/-- A trigger edge starts a cycle, whose admission logs it. -/
def State.startsCycle (s : State) (j : Nat) (st : Stamp) : Bool :=
  let c := s.trigClass j (stampPort st) st
  decide (c < 16) && bit (s.classWord j c (s.usesOld (stampTime st)) 0) 0

/-- The input log takes an item of the data lane (R565, R566). -/
def State.logItem (s : State) (j : Nat) (i : Item) : State :=
  let st := keyStamp i.key
  let k := itemKind (st.toNat % 256)
  match k.1 with
  | 1 =>
    if !s.logsClass st 1 then s else
    let pix := bit (s.bankWord 0 (s.usesOld (stampTime st)) (0x5044 + 4 * j)) k.2
    s.logInput j 0 (s.frameAdmit j k.2 st) (b2n pix) i.key (i.body ++ if pix then s.framePixels i else [])
  | 2 => if s.logsClass st 2 then s.logInput j 0 0xFF 0 i.key i.body else s
  | 3 => if s.logsClass st 0 && !s.startsCycle j st then s.logInput j 0 0xFF 0 i.key i.body else s
  | 4 => if s.logsClass st 3 then s.logInput j 0 0xFF 0 i.key i.body else s
  | _ => if s.logsClass st 4 then s.logInput j 0 0xFF 0 i.key i.body else s

/-- A lane of a die releases one item: a request to admission, or a port item to closures and streams. -/
def State.laneRelease (s : State) (j : Nat) (admission : Bool) : State :=
  let v := s.laneView j admission
  match pickSource v with
  | none => s
  | some m =>
    match m.held with
    | [] => s
    | i :: rest =>
      let i := markLoose v i
      let l := s.lane j admission
      let s := s.setLane j admission (putSource l { sourceOf l m.src with held := rest })
      if admission then s.modDie j fun d => { d with events := d.events ++ [i] }
      else ((s.modDie j fun d => { d with items := d.items ++ [i] }).logItem j i).deliverItem j i

/-- MERGE_ITEM_ARRIVE (R71): an item, or with none a horizon. -/
def execMergeItemArrive (merge : MergeId) (src : Nat) (item : Option Item) (horizon : Key) (t : Time) (s : State) : Host.Outcome State Fault Refusal :=
  .next (
    let s := s.at t
    match merge, item with
    | .admission d, some i => s.laneArrive d true src i
    | .data d, some i => s.laneArrive d false src i
    | .tile u kind stream, some i => if s.tileOn u then s.portArrive u kind stream src i else s
    | .admission d, none => s.laneHorizon d true src horizon
    | .data d, none => s.laneHorizon d false src horizon
    | .tile u kind stream, none => if s.tileOn u then s.portHorizon u kind stream src horizon else s)

/-- MERGE_RELEASE (R71, R72, R74). -/
def execMergeRelease (merge : MergeId) (t : Time) (s : State) : Host.Outcome State Fault Refusal :=
  .next (
    let s := s.at t
    match merge with
    | .admission d => s.laneRelease d true
    | .data d => s.laneRelease d false
    | .tile u kind stream => s.portRelease u kind stream)

/-- HORIZON_ARRIVE (R108): the newest horizon replaces the register of its source. -/
def execHorizonArrive (merge : MergeId) (src : Nat) (horizon : Key) (s : State) : Host.Outcome State Fault Refusal :=
  .next (
    match merge with
    | .admission d => s.laneHorizon d true src horizon
    | .data d => s.laneHorizon d false src horizon
    | .tile u kind stream => if s.tileOn u then s.portHorizon u kind stream src horizon else s)

/-! ### Routes (R41, R43, R110, R111) -/

/-- Column and row of a tile position, and the position of a column and row on a die. -/
def tileCol (t : Nat) : Nat := t % 128 / 16
def tileRow (t : Nat) : Nat := t % 16
def positionOf (die col row : Nat) : Nat := 128 * die + 16 * col + row

/-- Where a Dellu port of an erg die attaches. -/
def portPosition (die p : Nat) : Nat := positionOf die (if p % 2 = 0 then 0 else 7) (if p < 2 then 0 else 15)

/-- Where a reservoir controller attaches. -/
def State.stackPosition (s : State) (n : Nat) : Nat :=
  positionOf (s.stackDie n) (if s.fuses.stackCount ≠ s.fuses.ergCount ∧ n % 2 = 1 then 7 else 0) 8

/-- The erg die of a place; none on a mesa die. -/
def State.ergOf (s : State) : Place → Option Nat
  | .tile t => some (t / 128)
  | .apply d => some d
  | .stack n => some (s.stackDie n)
  | .mesa _ _ => none

/-- The column that chooses between the two erg links of E2 (R111): the source's, on a response its requester's. -/
def linkCol (m : Msg) : Nat :=
  match m.src with
  | .tile t => tileCol t
  | _ => match m.dest with | .tile t => tileCol t | _ => 0

/-- The erg port toward another erg die. -/
def State.portToward (s : State) (k k' : Nat) (m : Msg) : Nat :=
  if s.fuses.ergCount = 2 then (if linkCol m < 4 then 1 else 2) else k ^^^ k'

/-- The port of the serving mesa die that joins an erg die. -/
def State.mesaPortOf (s : State) (k : Nat) : Nat := if s.fuses.ergCount = 2 ∧ s.fuses.mesaCount = 2 then 0 else k % 2

/-- The node at which a message ends: a reply ends in the tile's router (R97). -/
def Msg.final (m : Msg) : Node :=
  match m.dest with
  | .tile t => if m.cls = 1 then .router t else .tile t
  | p => nodeOf p

/-- The router where a message leaves a die's mesh, and the node behind it. -/
def State.meshExit (s : State) (k : Nat) (m : Msg) : Nat × Node :=
  match s.ergOf m.dest with
  | some k' =>
    if k' = k then
      (match m.dest with | .tile t => t | .stack n => s.stackPosition n | _ => positionOf k 0 0, m.final)
    else (portPosition k (s.portToward k k' m), .ergPort k (s.portToward k k' m))
  | none => (portPosition k 0, .ergPort k 0)

/-- One step in the mesh: along the row to the column, then along the column (R110). -/
def meshStep (t u : Nat) : Nat :=
  if tileCol t < tileCol u then t + 16
  else if tileCol u < tileCol t then t - 16
  else if tileRow t < tileRow u then t + 1 else t - 1

/-- The next node of a message, or none at its end (log 23). -/
def State.nextHop (s : State) (n : Node) (m : Msg) : Option Node :=
  if n = m.final then none else
  match n with
  | .tile t => some (.router t)
  | .apply k => some (.router (positionOf k 0 0))
  | .stack x => some (.router (s.stackPosition x))
  | .router t =>
    let e := s.meshExit (t / 128) m
    some (if e.1 = t then e.2 else .router (meshStep t e.1))
  | .ergPort k p =>
    match s.ergOf m.dest with
    | some k' => some (if k' = k then .router (portPosition k p) else .ergPort k' p)
    | none => some (.mesaPort (s.serving k) (s.mesaPortOf k))
  | .mesaPort d p =>
    match s.ergOf m.dest, m.dest with
    | some k, _ =>
      if s.serving k = d then some (if p = s.mesaPortOf k ∧ p ≠ 2 then .ergPort k 0 else .mesaPort d (s.mesaPortOf k))
      else some (if p = 2 then .mesaPort (1 - d) 2 else .mesaPort d 2)
    | none, .mesa d' u => some (if d' = d then .mesa d u else if p = 2 then .mesaPort (1 - d) 2 else .mesaPort d 2)
    | none, _ => none
  | .mesa d _ =>
    match s.ergOf m.dest, m.dest with
    | some k, _ => some (.mesaPort d (if s.serving k = d then s.mesaPortOf k else 2))
    | none, .mesa d' u => some (if d' = d then .mesa d u else .mesaPort d 2)
    | none, _ => none

/-- The link between two nodes, numbered as MESA_LINK_ACCT (R120). -/
def State.linkOf (s : State) (a b : Node) : Option Nat :=
  match a, b with
  | .ergPort k _, .mesaPort _ _ => some k
  | .mesaPort _ _, .ergPort k _ => some k
  | .mesaPort _ _, .mesaPort _ _ => some 10
  | .ergPort k p, .ergPort k' _ =>
    let lo := min k k'
    let hi := max k k'
    some (if s.fuses.ergCount = 2 then (if p = 1 then 4 else 5)
      else if lo = 0 then 3 + hi else if lo = 1 then 5 + hi else 9)
  | _, _ => none

/-- Input-queue depths by class (R109). -/
def hopDepth (link : Option Nat) (cls : Nat) : Nat :=
  match link with
  | none => if cls < 2 then 4 else 8
  | some 10 => [32, 16, 128, 64].getD cls 0
  | some _ => [64, 32, 256, 128].getD cls 0

/-! ### Hops (R103, R105, R106, R108, R114) -/

/-- Hop credits in use on an output, by class. -/
def Net.used (n : Net) (a b : Node) (cls : Nat) : Nat :=
  match n.hopUsed.find? fun e => decide (e.1 = a ∧ e.2.1 = b ∧ e.2.2.1 = cls) with
  | some e => e.2.2.2
  | none => 0
def Net.setUsed (n : Net) (a b : Node) (cls k : Nat) : Net :=
  let rest := n.hopUsed.filter fun e => decide (¬(e.1 = a ∧ e.2.1 = b ∧ e.2.2.1 = cls))
  { n with hopUsed := if k = 0 then rest else rest ++ [(a, b, cls, k)] }

/-- Messages that have left their source and are not yet delivered. -/
def Net.moving (n : Net) (p : Msg → Bool) : List Msg := ((n.hops.filter fun h => h.prev.isSome && p h.msg).map Hop.msg).eraseDups

/-- Flits of an item in a ring. -/
def itemFlits (i : Item) : Nat := 1 + (i.body.length + 63) / 64

/-- Flits of a sender's stream on their way or in the consumer's ring (R105, R139). -/
def State.streamOut (s : State) (m : Msg) : Nat :=
  let way := (s.net.moving fun x => decide (x.src = m.src ∧ x.dest = m.dest ∧ x.cls = 2 ∧ x.stream = m.stream) && !x.horizon).foldl (fun n x => n + x.flits) 0
  match m.dest with
  | .tile u =>
    let p := (s.tile u).port 0 m.stream
    let ring := (p.srcs.flatMap fun q => q.held) ++ p.released
    way + ((ring.filter fun i => decide (keyId i.key = keyId m.item.key ∧ keyProd i.key = keyProd m.item.key)).foldl (fun n i => n + itemFlits i) 0)
  | _ => way

/-- Operations of a tile that hold slots of an apply unit (R105). -/
def State.opsHeld (s : State) (t k : Nat) : Nat :=
  let u := s.applyUnit k
  ((u.early ++ u.binds.flatMap fun b => b.ops).filter fun o => decide (o.tile = t)).length

/-- A tile's message may leave it: it holds a slot at its destination (R105); a horizon needs none (R108). -/
def State.mayLeave (s : State) (h : Hop) : Bool :=
  match h.prev, h.msg.src with
  | none, .tile t =>
    let m := h.msg
    if m.horizon then true
    else
      let moving := (s.net.moving fun x => decide (x.src = m.src ∧ x.dest = m.dest ∧ x.cls = m.cls)).length
      match m.dest with
      | .tile _ =>
        (match (s.tile t).core with
         | none => true
         | some c => c.desc.toList.all fun d => !decide (d.state = .openOut ∧ d.stream = m.stream) || decide (s.streamOut m + m.flits ≤ d.credit))
      | .apply k => decide (moving + s.opsHeld t k < slotCap m.dest)
      | _ => decide (moving < slotCap m.dest)
  | _, _ => true

/-- Smaller in the order of R114: admitted first, then the smaller key. -/
def msgBefore (a b : Hop) : Bool :=
  if a.msg.admitted = b.msg.admitted then decide (a.msg.item.key.toNat < b.msg.item.key.toNat) else a.msg.admitted

/-- The first of a list in that order, the earlier of two equals. -/
def firstMsg : List Hop → Option Hop
  | [] => none
  | h :: rest => match firstMsg rest with
    | none => some h
    | some x => some (if msgBefore x h then x else h)

/-- The message of a class that an output forwards next: the one in progress keeps the output (R103). -/
def State.pickMsg (s : State) (a b : Node) (cls : Nat) : Option Hop :=
  let here := s.net.hops.filter fun h => decide (h.place = a ∧ h.msg.cls = cls) && decide (s.nextHop a h.msg = some b)
  if hopDepth (s.linkOf a b) cls ≤ s.net.used a b cls then none
  else match here.find? fun h => decide (h.left < h.msg.flits) with
    | some h => if h.here = 0 then none else some h
    | none => firstMsg (here.filter fun h => decide (0 < h.here) && s.mayLeave h)

/-- Two horizons of one producer on one stream. -/
def sameStream (x y : Msg) : Bool :=
  decide (x.src = y.src ∧ x.dest = y.dest ∧ x.stream = y.stream ∧ x.cls = y.cls)

/-- Flits that wait at `b` after one more of `m` from `a`: a waiting horizon is replaced by a newer one (R108). -/
def landFlit (a b : Node) (m : Msg) (l : List Hop) : List Hop :=
  let mine := fun (h : Hop) => decide (h.place = b ∧ h.msg = m ∧ h.prev = some a ∧ h.here + (m.flits - h.left) < m.flits)
  let tail := (l.filter fun h => decide (h.place = b) && sameStream h.msg m).getLast?
  match tail with
  | some h =>
    if m.horizon ∧ h.msg.horizon ∧ h.msg.prod = m.prod ∧ h.here = 1 then l.map fun x => if x = h then { x with msg := m } else x
    else if l.any mine then mapIf mine (fun h => { h with here := h.here + 1 }) l
    else l ++ [{ place := b, msg := m, here := 1, left := m.flits, prev := some a }]
  | none => l ++ [{ place := b, msg := m, here := 1, left := m.flits, prev := some a }]

/-- The die that a node lies on: erg dies at 0 to 3, mesa dies at 4 and 5. -/
def State.nodeDie (s : State) : Node → Nat
  | .tile t => t / 128
  | .router t => t / 128
  | .ergPort k _ => k
  | .stack n => s.stackDie n
  | .apply k => k
  | .mesaPort j _ => 4 + j
  | .mesa j _ => 4 + j

/-- One flit leaves an entry. -/
def takeFlit (h : Hop) : List Hop → List Hop
  | [] => []
  | x :: rest => if x = h then (if x.left ≤ 1 then rest else { x with here := x.here - 1, left := x.left - 1 } :: rest) else x :: takeFlit h rest

/-- FLIT_HOP (R114): the output from `src` to `dst` forwards one flit of the lowest class that has one and a hop credit; a link that retrains passes nothing, nor does a die whose clocks are stopped (R342). -/
def execFlitHop (src dst : Node) (s : State) : Host.Outcome State Fault Refusal :=
  .next (
    let stopped : Bool := match s.linkOf src dst with | some n => s.net.retrain.any fun e => decide (e.1 = n) | none => false
    if (stopped || s.power.commonA1.toList.getD (s.nodeDie src) false) = true then s else
    match (List.range 4).findSome? fun cls => s.pickMsg src dst cls with
    | none => s
    | some h =>
      let used := s.net.used src dst h.msg.cls
      { s with net := ({ s.net with hops := landFlit src dst h.msg (takeFlit h s.net.hops) }).setUsed src dst h.msg.cls (used + 1) })

/-- Flits of a class that still occupy the queue behind an output. -/
def Net.waiting (n : Net) (a b : Node) (cls : Nat) : Nat :=
  (n.hops.filter fun h => decide (h.place = b ∧ h.prev = some a ∧ h.msg.cls = cls)).foldl (fun k h => k + h.here) 0

/-- CREDIT_RETURN (R106, R107): the counter of the output takes back credits of slots that are free again. -/
def execCreditReturn (src dst : Node) (cls : Fin 4) (count : Nat) (s : State) : Host.Outcome State Fault Refusal :=
  .next (
    let used := s.net.used src dst cls
    { s with net := s.net.setUsed src dst cls (used - min count (used - s.net.waiting src dst cls)) })

/-! ### Delivery -/

/-- The cairn operation that a body spells (R268). -/
def cairnOpOf (body : List Byte) (key : Key) (tile : Nat) (bad : Bool) : COp :=
  let v := leAt body 0 16
  { opc := bitsOf v 7 0, cairn := bitsOf v 25 8, operand := bitsOf v 63 32, contrib := bitsOf v 73 64, rerun := v.testBit 74
    threshold := bitsOf v 106 75, key, tile, bad }

/-- The range words of a binding message (R310). -/
def rangesOf (body : List Byte) : List (Nat × Nat) :=
  (List.range (byteAt body 1 % 16)).map fun i => let v := leAt body (16 + 8 * i) 8; (bitsOf v 17 0, bitsOf v 35 18)

/-- A CAIRN-class message at an apply unit. -/
def State.cairnIn (s : State) (k : Nat) (m : Msg) : State :=
  let b := m.item.body
  let tile := match m.src with | .tile t => t | _ => 0
  match byteAt b 0 with
  | 0x10 => s.cairnBind k { id := keyId m.item.key, ranges := rangesOf b, sources := leAt b 128 512, admitted := (byteAt b 1).testBit 4, end_ := leAt b 8 8 }
  | 7 => s.cairnClose k (keyId m.item.key) m.prods
  | _ => s.cairnOp k (cairnOpOf b m.item.key tile m.item.poison)

/-- A reply in the router's register of a tile (R97, R273). -/
def State.replyAt (s : State) (t : Nat) (m : Msg) : State :=
  s.modTile t fun x => { x with core := x.core.map fun c =>
    match c.wait with
    | some w => if w.key = m.item.key then { c with reply := some (leAt m.item.body 4 4, decide (byteAt m.item.body 8 = 1)) } else c
    | none => c }

/-- What a delivered message does. -/
def State.consume (s : State) (m : Msg) : State :=
  match m.dest with
  | .tile t =>
    if m.cls = 1 then s.replyAt t m
    else if m.horizon then s.portHorizon t 0 m.stream m.prod m.item.key
    else s.portArrive t 0 m.stream m.prod m.item
  | .apply k => s.cairnIn k m
  | .mesa d 1 => s.commitIn d m.item.key m.item.void m.item.body
  | .mesa d 2 => (s.makeRecord d 0 (some m.item.key) m.item.body).countVoid m.item.void
  | .mesa _ _ => s
  | .stack _ => s

/-- The jobs that run at a destination. -/
def State.jobsAt (s : State) : Place → List JobId
  | .tile t => match (s.tile t).core with | some c => [c.id] | none => []
  | .apply k => (s.applyUnit k).binds.map fun b => b.id
  | .mesa d _ => (s.jobs.filter fun j => decide (j.running ≠ [] ∧ j.die = d)).map fun j => j.id
  | .stack _ => []

/-- SRC_KIND and SRC_INDEX of a place (R568), and the mesa die that logs it. -/
def State.placeCode (s : State) : Place → Nat × Nat × Nat
  | .tile t => (0, t, s.serving (t / 128))
  | .apply k => (1, k, s.serving k)
  | .stack n => (4, n, s.serving (s.stackDie n))
  | .mesa d _ => (2, d, d)

/-- A message whose CHECK fails is discarded (R579). -/
def State.sidebandFail (s : State) (m : Msg) (headGood : Bool) : State :=
  let c := s.placeCode m.dest
  let s := s.fault c.2.2 none
    { cls := 0x0023, sev := 2, kind := c.1, index := c.2.1, stamp := if headGood then keyStamp m.item.key else 0, detail := c.2.1 }
  (if headGood then [keyId m.item.key] else s.jobsAt m.dest).foldl (fun s id => s.mark id 4) s

/-- FLIT_DELIVER (R105, R579): the first message that stands whole at its end is consumed, or discarded when a CHECK fails. -/
def execFlitDeliver (place : Node) (good headGood : Bool) (t : Time) (s : State) : Host.Outcome State Fault Refusal :=
  .next (
    let s := s.at t
    match s.net.hops.find? fun h => decide (h.place = place ∧ h.msg.final = place ∧ h.here = h.msg.flits) with
    | none => s
    | some h =>
      let s := { s with net := { s.net with hops := s.net.hops.erase h } }
      if good then s.consume h.msg else s.sidebandFail h.msg headGood)

/-- HOP_WAIT (R120): a class waited for a hop credit for more than 1 µs. -/
def execHopWait (die : Fin 4) (cls : Fin 4) (ns : Nat) (s : State) : Host.Outcome State Fault Refusal :=
  .next (if s.ergLive die ∧ 1000 < ns then s.flowFlag die cls else s)

/-- BE_WAIT (R120): a best-effort flit waited for more than 100 µs. -/
def execBeWait (die : Fin 4) (ns : Nat) (s : State) : Host.Outcome State Fault Refusal :=
  .next (if s.ergLive die ∧ 100000 < ns then s.flowFlag die 4 else s)

end Sys2Proof.Machine
end

