-- ==== Sys2Proof/Machine/Ingress.lean ====
section
/-! DEFINITION. Field inputs (16 R408 to R437; 15 R402, R403): trigger inputs, cameras, tag gateways, CAN controllers, Ethernet events (log 21). -/

namespace Sys2Proof.Machine

/-- The ports of a mesa die stamp events (R67, R93, R404, R410): the die is live, station time runs, no replay, and F domain `f` of the die is on. -/
def State.stamping (s : State) (j f : Nat) : Bool :=
  s.mesaLive j && s.timeRuns && !s.replaying && s.power.fOn.toList.getD (4 * j + f) false

/-- The order key of an ingress event (R61, R68). -/
def eventKey (t : Time) (byte : Nat) : Key := keyOf (BitVec.ofNat 64 (t / 2 % 2 ^ 56 * 256 + byte)) 0

/-! ### Trigger inputs (R412 to R415) -/

/-- An input of a die, and its replacement. -/
def State.trigIn (s : State) (j : Fin 2) (n : Fin 32) : TrigIn := s.ingress[j].trig[n]
def State.setTrig (s : State) (j : Fin 2) (n : Fin 32) (x : TrigIn) : State :=
  { s with ingress := s.ingress.set j { s.ingress[j] with trig := s.ingress[j].trig.set n x } }

/-- MESA_TRIG_CFG for an edge at a time. -/
def State.trigAt (s : State) (j : Fin 2) (n : Fin 32) (t : Time) : Word := s.trigCfg j (s.usesOld t) n

/-- An edge direction is selected (R415). -/
def edgeSelected (cfg : Word) (rising : Bool) : Bool :=
  match fld cfg 2 1 with
  | 1 => !rising
  | 2 => true
  | _ => rising

/-- The inactive level of an input in holdoff: the opposite of the selected direction's end; with BOTH the level that the edge left (R414). -/
def inactiveHigh (cfg : Word) (lastRising : Bool) : Bool :=
  match fld cfg 2 1 with
  | 1 => true
  | 2 => lastRising
  | _ => false

/-- TRIG_EDGE (R413, R414): a candidate begins; during holdoff the edge is ignored and counted. -/
def execTrigEdge (die : Fin 2) (input : Fin 32) (rising : Bool) (at_ : Time) (s : State) : Host.Outcome State Fault Refusal :=
  .next (
    let s := s.at at_
    let cfg := s.trigAt die input at_
    let x := s.trigIn die input
    if !s.stamping die 3 ∨ !bit cfg 0 then s
    else if x.holdoff.isSome then
      (s.setTrig die input { x with inactive := if rising = inactiveHigh cfg x.lastRising then some at_ else none }).inFlag die 1
    else if x.cand.isSome ∨ !edgeSelected cfg rising then s
    else s.setTrig die input { x with cand := some (at_, rising) })

/-- TRIG_GLITCH (R413): the candidate ends before its FILTER time. -/
def execTrigGlitch (die : Fin 2) (input : Fin 32) (at_ : Time) (s : State) : Host.Outcome State Fault Refusal :=
  .next (
    let s := s.at at_
    let x := s.trigIn die input
    match x.cand with
    | none => s
    | some (e, _) => if at_ < e + 8 * fld (s.trigAt die input e) 10 3 then (s.setTrig die input { x with cand := none }).inFlag die 0 else s)

/-- The body of a trigger item (R415). -/
def trigBody (input : Nat) (rising : Bool) (filter : Nat) : List Byte :=
  padTo 64 ([BitVec.ofNat 8 input, BitVec.ofNat 8 (b2n !rising), 0, 0] ++ leBytes 2 (8 * filter))

/-- TRIG_QUALIFY (R413, R415): the edge is stamped and reaches the lanes that the input feeds; the reflex logic takes it by its own row. -/
def execTrigQualify (die : Fin 2) (input : Fin 32) (t : Time) (s : State) : Host.Outcome State Fault Refusal :=
  .next (
    let s := s.at t
    let x := s.trigIn die input
    match x.cand with
    | none => s
    | some (e, r) =>
      let cfg := s.trigAt die input e
      if !s.stamping die 3 ∨ t < e + 8 * fld cfg 10 3 then s else
      let s := s.setTrig die input { x with cand := none, holdoff := some e, lastRising := r, inactive := if fld cfg 2 1 = 2 then some e else none }
      let byte := input.val / 16 * 32 + 16 * die.val + input.val % 16
      let i : Item := { key := eventKey e byte, body := trigBody input r (fld cfg 10 3) }
      let s := if fld cfg 23 19 < 16 then s.laneArrive die true byte i else s
      s.laneArrive die false byte i)

/-- TRIG_HOLDOFF_END (R414). -/
def execTrigHoldoffEnd (die : Fin 2) (input : Fin 32) (t : Time) (s : State) : Host.Outcome State Fault Refusal :=
  .next (
    let s := s.at t
    let x := s.trigIn die input
    match x.holdoff, x.inactive with
    | some e, some i =>
      let cfg := s.trigAt die input e
      if e + 8 * fld cfg 18 11 ≤ t ∧ i + 8 * fld cfg 10 3 ≤ t then s.setTrig die input { x with holdoff := none, inactive := none } else s
    | _, _ => s)

/-! ### Cameras (R416 to R424) -/

/-- A stream of a die, and its replacement. -/
def State.camIn (s : State) (j : Fin 2) (n : Nat) : Cam := s.ingress[j].cam.toList.getD n {}
def State.setCam (s : State) (j : Fin 2) (n : Nat) (x : Cam) : State :=
  { s with ingress := s.ingress.set j { s.ingress[j] with cam := s.ingress[j].cam.setIfInBounds n x } }

/-- The receiver's control register (R424). -/
def rxCtl (j r : Nat) : Nat := mesaBase j + 0x120400 + 4 * r

/-- CAM_CLOCK_LOCK (R410). -/
def execCamClockLock (die : Fin 2) (receiver : Fin 8) (locked : Bool) (s : State) : Host.Outcome State Fault Refusal :=
  .next (
    if !s.mesaLive die ∨ !s.fuses.optV ∨ !bit (s.reg (rxCtl die receiver)) 0 then s
    else { s with ingress := s.ingress.set die { s.ingress[die] with locked := s.ingress[die].locked.set receiver locked } })

/-- A receiver takes packets: it is fitted and enabled, its clock lane is locked, its domain is on. -/
def State.rxUp (s : State) (j : Fin 2) (r : Fin 8) : Bool :=
  s.mesaLive j && s.fuses.optV && (bit (s.reg (rxCtl j r)) 0 || (List.range 3).any fun k => s.dwWatch j (3 * r + k)) && s.ingress[j].locked[r] && s.power.fOn.toList.getD (4 * j.val + 2) false

/-- Settings of a stream (R424). -/
def State.camDt (s : State) (j n : Nat) : Nat := fld (s.reg (camBase j n)) 10 5
def State.camVc (s : State) (j n : Nat) : Nat := fld (s.reg (camBase j n)) 4 1
def State.camF16 (s : State) (j n : Nat) : Bool := bit (s.reg (camBase j n)) 11
def State.camW (s : State) (j n : Nat) : Nat := fld (s.reg (camBase j n + 4)) 12 0
def State.camH (s : State) (j n : Nat) : Nat := fld (s.reg (camBase j n + 4)) 28 16

/-- The streams of a receiver that a packet matches (R417); a short packet's code is no pixel type, so its virtual channel decides. Of two streams with one channel and type, the lower-numbered takes the packets (log 21). -/
def State.camMatch (s : State) (j r vc dt : Nat) : List Nat :=
  [3 * r, 3 * r + 1, 3 * r + 2].filter fun n => s.camEn j n && decide (s.camVc j n = vc ∧ (dt < 0x10 ∨ s.camDt j n = dt)) &&
    [3 * r, 3 * r + 1, 3 * r + 2].all fun k => !(decide (k < n) && s.camEn j k && decide (s.camVc j k = vc ∧ s.camDt j k = s.camDt j n))

/-- The row lengths of the planes of a stream's packed frame (R420). -/
def State.planes (s : State) (j n : Nat) : List Nat :=
  let w := s.camW j n
  if s.camDt j n = 0x1E then [w, w / 2, w / 2] else if s.camF16 j n then [2 * w] else [w]

/-- The bytes of a slot (R421), and the ring of a stream in the park area: its start and length. -/
def State.slotSize (s : State) (j n : Nat) : Nat := roundUp ((s.planes j n).foldl (fun b len => b + roundUp len 64 * s.camH j n) 0) 65536
def State.ringStart (s : State) (j n : Nat) : Nat :=
  (List.range n).foldl (fun a k => if s.camEn j k then a + s.camSlots j k * s.slotSize j k else a) ((s.reg (mesaBase j + 0x120800)).toNat * 2 ^ 20)
def State.ringFits (s : State) (j n : Nat) : Bool :=
  decide (s.ringStart j n + s.camSlots j n * s.slotSize j n ≤ ((s.reg (mesaBase j + 0x120800)).toNat + (s.reg (mesaBase j + 0x120804)).toNat) * 2 ^ 20)

/-- The data type and packing of a stream can be stored (R420, R424). -/
def State.camStores (s : State) (j n : Nat) : Bool :=
  match s.camDt j n with
  | 0x2A => !s.camF16 j n
  | 0x1E => !s.camF16 j n && decide (s.camW j n % 2 = 0)
  | 0x2B => true
  | 0x2C => true
  | _ => false

/-- The body of a frame item (R424). -/
def State.frameBody (s : State) (j n : Nat) (f : FrameIn) : List Byte :=
  padTo 64 (leBytes 8 (s.ringStart j n + f.number % s.camSlots j n * s.slotSize j n) ++ leBytes 2 (s.camW j n) ++ leBytes 2 (s.camH j n) ++
    [BitVec.ofNat 8 (if s.camF16 j n then 3 else 2), BitVec.ofNat 8 (b2n (decide (s.camDt j n = 0x1E))), BitVec.ofNat 8 (b2n f.damaged), 0] ++
    leBytes 4 (roundUp ((s.planes j n).headD 0) 64) ++ leBytes 4 f.number ++ leBytes 4 f.lines)

/-- A frame ends (R418, R423, R424; log 21). -/
def State.endFrame (s : State) (j : Fin 2) (n : Nat) (damaged : Bool) : State :=
  let x := s.camIn j n
  match x.cur with
  | none => s
  | some f =>
    let s := s.setCam j n { x with cur := none }
    if !f.stored then s else
    let f := { f with damaged := f.damaged || damaged }
    let s := if f.damaged then s.inFlag j 2 else s
    let s := s.laneArrive j false (camByte j n) { key := keyOf f.stamp 0, body := s.frameBody j n f }
    s.frameResolved f.stamp f.damaged

/-- A not-admitted job that still reads the slot which a new frame begins to overwrite (R422). -/
def State.reclaimSlot (s : State) (j : Fin 2) (n slot : Nat) : State :=
  let mine := ((s.camIn j n).slots.filter fun e => decide (e.1 = slot)).map fun e => e.2
  (s.jobs.filter fun x => decide (x.kind = 2 ∧ x.admitted = false ∧ x.die = j.val ∧ x.cls = n ∧ x.id.stamp ∈ mine ∧ x.running ≠ [])).foldl
    (fun s x => (s.inFlag j 6).stopJob x.id 0x0D 0 0 j) s

/-- A frame start on one stream (R418, R419, R421). -/
def State.startFrame (s : State) (j : Fin 2) (n : Nat) (t : Time) : State :=
  let s := s.endFrame j n true
  let x := s.camIn j n
  let key := eventKey t (camByte j n)
  let st := keyStamp key
  let skip := { stamp := st, number := 0, stored := false : FrameIn }
  if !s.camStores j n then
    let s := s.setCam j n { x with cur := some skip }
    if s.camDt j n = 0x2A ∨ s.camDt j n = 0x1E then s.inFlag j 11 else s
  else if !s.ringFits j n then (s.setCam j n { x with cur := some skip }).inFlag j 5
  else if (match x.last with | some l => decide (stampTime st < l + s.frameMin j n) | none => false) then
    (s.setCam j n { x with cur := some skip }).inFlag j 3
  else
    let slot := x.frames % s.camSlots j n
    let s := s.reclaimSlot j n slot
    let s := s.setCam j n { x with
      cur := some { stamp := st, number := x.frames, stored := true }
      last := some (stampTime st), frames := (x.frames + 1) % 2 ^ 32, slots := x.slots ++ [(slot, st)] }
    s.laneArrive j true (camByte j n) { key }

/-- FRAME_START (R417 to R421). -/
def execFrameStart (die : Fin 2) (receiver : Fin 8) (vc : Nat) (dt : Nat) (at_ : Time) (s : State) : Host.Outcome State Fault Refusal :=
  .next (
    let s := s.at at_
    if !s.rxUp die receiver ∨ !s.stamping die 2 then s else
    match s.camMatch die receiver vc dt with
    | [] => s.inFlag die 4
    | ns => ns.foldl (fun s n => s.startFrame die n at_) s)

/-- Payload bytes of a line (R418). -/
def lineBytes (dt w : Nat) : Nat :=
  match dt with
  | 0x2B => (w * 5 + 3) / 4
  | 0x2C => (w * 3 + 1) / 2
  | 0x1E => 2 * w
  | _ => w

/-- Pixel `x` of a line in the packed formats of CSI-2 (log 5). -/
def raw10At (p : List Byte) (x : Nat) : Nat := byteAt p (x / 4 * 5 + x % 4) * 4 + byteAt p (x / 4 * 5 + 4) / 4 ^ (x % 4) % 4
def raw12At (p : List Byte) (x : Nat) : Nat := byteAt p (x / 2 * 3 + x % 2) * 16 + byteAt p (x / 2 * 3 + 2) / 16 ^ (x % 2) % 16

/-- The rows that a line gives to the planes (R420). -/
def packLine (dt : Nat) (f16_ : Bool) (w : Nat) (p : List Byte) : List (List Byte) :=
  let wide (v : Nat) (e : Int) : List Byte := leBytes 2 (f16.encode (finOf false v e))
  match dt with
  | 0x2B => if f16_ then [(List.range w).flatMap fun x => wide (raw10At p x) (-10)] else [(List.range w).map fun x => BitVec.ofNat 8 (raw10At p x / 4)]
  | 0x2C => if f16_ then [(List.range w).flatMap fun x => wide (raw12At p x) (-12)] else [(List.range w).map fun x => BitVec.ofNat 8 (raw12At p x / 16)]
  | 0x1E =>
    let at_ (i : Nat) : Byte := BitVec.ofNat 8 (byteAt p i)
    [(List.range w).map fun x => at_ (2 * x + 1), (List.range (w / 2)).map fun x => at_ (4 * x), (List.range (w / 2)).map fun x => at_ (4 * x + 2)]
  | _ => [p.take w]

/-- A line is written into its rows of the slot; lines beyond HEIGHT have none. -/
def State.storeLine (s : State) (j : Fin 2) (n : Nat) (f : FrameIn) (p : List Byte) : State :=
  let h := s.camH j n
  if h ≤ f.lines then s else
  ((packLine (s.camDt j n) (s.camF16 j n) (s.camW j n) p).foldl (fun (r : Nat × State) row =>
    let pitch := roundUp row.length 64
    (r.1 + pitch * h, r.2.resvWrite (r.1 + pitch * f.lines) row (fun _ => false) 0))
    (s.ringStart j n + f.number % s.camSlots j n * s.slotSize j n, s)).2

/-- A line of a frame in progress (R418). -/
def State.frameLine (s : State) (j : Fin 2) (n : Nat) (crcOk overflow : Bool) (p : List Byte) : State :=
  let x := s.camIn j n
  match x.cur with
  | none => s
  | some f =>
    if !f.stored then s
    else if overflow ∨ !crcOk ∨ p.length ≠ lineBytes (s.camDt j n) (s.camW j n) then s.endFrame j n true
    else (s.storeLine j n f p).setCam j n { x with cur := some { f with lines := f.lines + 1 } }

/-- CSI_LONG_PACKET (R417, R418, R420). -/
def execCsiLongPacket (die : Fin 2) (receiver : Fin 8) (vc dt : Nat) (header : CsiHeader) (crcOk overflow : Bool) (payload : List Byte) (s : State) :
    Host.Outcome State Fault Refusal :=
  .next (
    if !s.rxUp die receiver ∨ s.replaying then s else
    match header with
    | .bad =>
      [3 * receiver.val, 3 * receiver.val + 1, 3 * receiver.val + 2].foldl (fun s n =>
        let x := s.camIn die n
        s.setCam die n { x with cur := x.cur.map fun f => { f with damaged := true } }) s
    | _ =>
      match s.camMatch die receiver vc dt with
      | [] => s.inFlag die 4
      | ns => ns.foldl (fun s n => s.frameLine die n crcOk overflow payload) s)

/-- CSI_LINE_SHORT_PACKET (R416): accepted and ignored. -/
def execCsiLineShortPacket (die : Fin 2) (receiver : Fin 8) (vc dt : Nat) (s : State) : Host.Outcome State Fault Refusal :=
  match die, receiver, vc, dt with
  | _, _, _, _ => .next s

/-- FRAME_END (R418, R423, R424). -/
def execFrameEnd (die : Fin 2) (receiver : Fin 8) (vc dt : Nat) (t : Time) (s : State) : Host.Outcome State Fault Refusal :=
  .next (
    let s := s.at t
    if !s.rxUp die receiver ∨ s.replaying then s else
    match s.camMatch die receiver vc dt with
    | [] => s.inFlag die 4
    | ns => ns.foldl (fun s n =>
        match (s.camIn die n).cur with
        | none => s
        | some f => s.endFrame die n (decide (f.lines ≠ s.camH die n))) s)

/-- FRAME_READOUT_TIMEOUT (R418). -/
def execFrameReadoutTimeout (die : Fin 2) (stream : Fin 24) (t : Time) (s : State) : Host.Outcome State Fault Refusal :=
  .next (
    let s := s.at t
    match (s.camIn die stream).cur with
    | none => s
    | some f => if stampTime f.stamp + s.readoutMax die stream ≤ s.time.now then s.endFrame die stream true else s)

/-! ### Tag gateways (R425 to R432) -/

/-- A port of a die, and its replacement. -/
def State.tagIn (s : State) (j : Fin 2) (p : Fin 8) : TagPort := s.ingress[j].tag[p]
def State.setTag (s : State) (j : Fin 2) (p : Fin 8) (x : TagPort) : State :=
  { s with ingress := s.ingress.set j { s.ingress[j] with tag := s.ingress[j].tag.set p x } }

/-- STREAM mode of a port (R426). -/
def State.tagStream (s : State) (j p : Nat) : Bool := bit (s.reg (tagBase j p)) 1

/-- A frame that makes no event (R426, R428; log 22). -/
def State.tagReject (s : State) (j : Fin 2) (p : Fin 8) : State :=
  let x := s.tagIn j p
  (s.setTag j p { x with reading := false, fr := none, rejects := satAdd 0xFFFF x.rejects 1 }).inFlag j 7

/-- TAG_RXS (R426): the read of a port in STREAM mode starts. -/
def execTagRxs (die : Fin 2) (port : Fin 8) (t : Time) (s : State) : Host.Outcome State Fault Refusal :=
  .next (
    let s := s.at t
    let x := s.tagIn die port
    if s.stamping die 3 && s.tagEn die port && s.tagStream die port && !x.reading then s.setTag die port { x with reading := true, fr := none } else s)

/-- TAG_FR (R24, R426): the event is stamped; an edge that finds a read of an earlier frame ends that frame unread, and in POST mode the new frame is read next (log 22). -/
def execTagFr (die : Fin 2) (port : Fin 8) (at_ : Time) (s : State) : Host.Outcome State Fault Refusal :=
  .next (
    let s := s.at at_
    let x := s.tagIn die port
    let st := keyStamp (eventKey at_ (3 * 32 + 16 * die.val + 8 + port.val))
    if !s.stamping die 3 ∨ !s.tagEn die port then s
    else if x.reading ∧ x.fr.isSome then
      let s := s.tagReject die port
      if s.tagStream die port then s else s.setTag die port { s.tagIn die port with reading := true, fr := some st }
    else if s.tagStream die port && !x.reading then s
    else s.setTag die port { x with reading := true, fr := some st })

/-- The map-cache entry of a tag, when it holds a rate (R430). -/
def DieIngress.rateOf (d : DieIngress) (tag : Nat) : Option Nat := (d.cache.find? fun e => decide (e.tag = tag ∧ e.rate ≠ 0)).map MapEntry.rate

/-- The checks of R428 on PHR, PSDU and status; the answer is the offset of the source address within the PSDU. -/
def tagValid (bs : List Byte) (statusBit : Nat) : Option Nat :=
  let len := byteAt bs 0
  let fcf := leAt bs 1 2
  let dst := bitsOf fcf 11 10
  let src := 5 + (if dst = 3 then 8 else 2)
  let pay := src + 8
  if len + 2 ≤ bs.length ∧ (byteAt bs (len + 1)).testBit statusBit = true ∧ bitsOf fcf 2 0 = 1 ∧ bitsOf fcf 13 12 ≤ 1 ∧ fcf.testBit 3 = false ∧
      fcf.testBit 6 = true ∧ bitsOf fcf 15 14 = 3 ∧ 2 ≤ dst ∧ pay + 20 + 2 ≤ len ∧ byteAt bs (1 + pay) = 0xE7 ∧
      1 ≤ byteAt bs (2 + pay) ∧ byteAt bs (2 + pay) ≤ 3 then some src else none

/-- The 32-byte handling-event record (R429, R431). -/
def tagRecord (bs : List Byte) (src statusBit : Nat) (j port : Nat) (st : Stamp) (frameOffset : Nat) (rate : Option Nat) (again : Bool) : List Byte :=
  let p := 1 + src + 8
  let delta := (leAt bs (p + 4) 4 + 2 ^ 32 - leAt bs (p + 8) 4) % 2 ^ 32
  let age := (delta * rate.getD 0x77359400 + 2 ^ 15) / 2 ^ 16
  let time := (stampTime st + 2 ^ 65 - frameOffset - age) % 2 ^ 64
  let status := byteAt bs (byteAt bs 0 + 1)
  let rssi := if statusBit = 7 then status % 128 + (if 64 ≤ status % 128 then 128 else 0) else 0x80
  [0x11, BitVec.ofNat 8 (byteAt bs (p + 1)), BitVec.ofNat 8 (b2n rate.isNone + 2 * b2n again + 4 * b2n (decide (2 ^ 31 ≤ delta))),
   BitVec.ofNat 8 (port + 16 * j)] ++ leBytes 8 (leAt bs (1 + src) 8) ++ leBytes 2 (leAt bs (p + 2) 2) ++
  [BitVec.ofNat 8 (byteAt bs (byteAt bs 0)), BitVec.ofNat 8 rssi] ++ leBytes 8 time ++ leBytes 4 (leAt bs (p + 12) 4) ++ leBytes 4 (leAt bs (p + 16) 4)

/-- TAG_READ_DONE (R426 to R432): the record, or a reject (log 22). -/
def execTagReadDone (die : Fin 2) (port : Fin 8) (bytes : List Byte) (t : Time) (s : State) : Host.Outcome State Fault Refusal :=
  .next (
    let s := s.at t
    let x := s.tagIn die port
    match x.fr with
    | none => s
    | some st =>
      if !x.reading then s else
      let w := s.reg (tagBase die port + 4)
      let bs := bytes.take (fld w 23 16)
      match tagValid bs (fld w 26 24) with
      | none => s.tagReject die port
      | some src =>
        let tag := leAt bs (1 + src) 8
        let seq := leAt bs (1 + src + 8 + 2) 2
        let again := x.seen.any fun e => decide (e.1 = tag ∧ e.2.1 = seq ∧ stampTime st ≤ stampTime e.2.2 + 1000000000)
        let fo := (s.bankWord die (s.usesOld (stampTime st)) (tagBase die port + 0x10)).toNat
        let body := tagRecord bs src (fld w 26 24) die port st fo ((s.die die).rateOf tag) again
        let s := s.setTag die port { x with
          reading := false, fr := none, events := satAdd 0xFFFF x.events 1
          seen := ((tag, seq, st) :: x.seen).take 256 }
        s.laneArrive die false (st.toNat % 256) { key := keyOf st 0, body })

/-- A new or changed entry of the map cache: the lowest free slot, else that of the entry least recently used (R430). -/
def cachePut (l : List MapEntry) (e : MapEntry) : List MapEntry :=
  match l.find? fun x => decide (x.tag = e.tag) with
  | some x => l.map fun y => if y.tag = e.tag then { e with slot := x.slot } else y
  | none =>
    match (List.range 4096).find? fun k => l.all fun x => decide (x.slot ≠ k) with
    | some k => l ++ [{ e with slot := k }]
    | none =>
      match (sortBy MapEntry.used l).head? with
      | some x => (l.filter fun y => decide (y.slot ≠ x.slot)) ++ [{ e with slot := x.slot }]
      | none => l

/-- The rate that the management core estimates (log 44), within 500 ppm of the nominal one (R430). -/
def tagRate (former ticks : Nat) (time : Nat) : Nat := max 1999000000 (min 2001000000 (Config.rateEstimate former ticks time))

/-- TAG_RATE_UPDATE (R430): frames of a tag at least 1 s apart give a rate. -/
def execTagRateUpdate (die : Fin 2) (tag : DWord) (tx : Word) (stamp : Stamp) (s : State) : Host.Outcome State Fault Refusal :=
  .next (
    if !s.mesaLive die ∨ !s.fuses.optT then s else
    let time := stampTime stamp - (s.bankWord die (s.usesOld (stampTime stamp)) (tagBase die (stampIndex stamp - 8) + 0x10)).toNat
    let l := (s.die die).cache
    let fresh : MapEntry := { slot := 0, tag := tag.toNat, rate := 0, used := time, pair := some (tx.toNat, time) }
    let e := match l.find? fun x => decide (x.tag = tag.toNat) with
      | none => fresh
      | some x =>
        match x.pair with
        | none => { x with used := time, pair := some (tx.toNat, time) }
        | some (tx0, t0) =>
          if time < t0 + 1000000000 then { x with used := time }
          else { x with used := time, pair := some (tx.toNat, time), rate := tagRate x.rate ((tx.toNat + 2 ^ 32 - tx0) % 2 ^ 32) (time - t0) }
    s.modDie die fun d => { d with cache := cachePut l e })

/-! ### CAN controllers (R433 to R436) -/

/-- A controller of a die, and its replacement. -/
def State.canIn (s : State) (j : Fin 2) (c : Fin 4) : Can := s.ingress[j].can[c]
def State.setCan (s : State) (j : Fin 2) (c : Fin 4) (x : Can) : State :=
  { s with ingress := s.ingress.set j { s.ingress[j] with can := s.ingress[j].can.set c x } }

/-- A controller is on the bus. -/
def State.canUp (s : State) (j : Fin 2) (c : Fin 4) : Bool :=
  let x := s.canIn j c
  s.mesaLive j && s.canEn j c && !x.init && x.integrated && !x.busOff

/-- The lowest acceptance filter that accepts a frame (R435): identifier and IDE in its first word, the mask in the second. -/
def State.canFilter (s : State) (j c : Nat) (old : Bool) (f : CanFrame) : Option Nat :=
  (List.range 16).find? fun k =>
    let w := s.bankWord j old (canBase j c + 0x100 + 8 * k)
    let m := fld (s.bankWord j old (canBase j c + 0x104 + 8 * k)) 28 0
    !s.bankBad j old (canBase j c + 0x100 + 8 * k) && !s.bankBad j old (canBase j c + 0x104 + 8 * k) &&
      decide (fld w 28 0 &&& m = f.ident &&& m) && (bit w 29 == f.ide)

/-- The item of a CAN frame (R435). -/
def canBody (f : CanFrame) (filter : Nat) : List Byte :=
  padTo 128 (leBytes 4 (f.ident % 2 ^ 29 + b2n f.ide * 2 ^ 29 + b2n f.rtr * 2 ^ 30 + b2n f.fdf * 2 ^ 31) ++
    [BitVec.ofNat 8 (b2n f.brs + 2 * b2n f.esi), BitVec.ofNat 8 f.data.length, BitVec.ofNat 8 filter, 0] ++ f.data)

/-- CAN_FRAME_RECEIVE (R435): an accepted frame becomes one event. -/
def execCanFrameReceive (die : Fin 2) (ctl : Fin 4) (frame : CanFrame) (at_ : Time) (s : State) : Host.Outcome State Fault Refusal :=
  .next (
    let s := s.at at_
    if !s.stamping die 3 ∨ !s.canUp die ctl ∨ 64 < frame.data.length ∨ (frame.fdf ∧ !bit (s.reg (canBase die ctl)) 1) then s else
    match s.canFilter die ctl (s.usesOld at_) frame with
    | none => s
    | some k =>
      let byte := 4 * 32 + 16 * die.val + ctl.val
      s.laneArrive die false byte { key := eventKey at_ byte, body := canBody frame k })

/-- CAN_ERROR_FRAME (R436): the error counters after it; above 255 transmit errors the controller is bus-off. -/
def execCanErrorFrame (die : Fin 2) (ctl : Fin 4) (tec rec_ : Nat) (s : State) : Host.Outcome State Fault Refusal :=
  .next (
    if !s.canUp die ctl then s else
    let off := decide (255 < tec)
    let x := s.canIn die ctl
    let s := (s.setCan die ctl { x with tec, rec_ := rec_, busOff := off, integrated := !off }).inFlag die 9
    if off then s.inFlag die 10 else s)

/-- The 18 words of a transmit buffer. -/
def State.canBuffer (s : State) (j c b : Nat) : List Word := (List.range 18).map fun k => s.reg (canBase j c + 0x200 + 72 * b + 4 * k)

/-- CAN_TRANSMIT (R436): the frame of a transmit buffer goes out. -/
def execCanTransmit (die : Fin 2) (ctl : Fin 4) (buffer : Fin 4) (s : State) : Host.Outcome State Fault Refusal :=
  .next (
    if !s.canUp die ctl then s else
    let x := s.canIn die ctl
    s.setCan die ctl { x with sent := x.sent ++ [(buffer.val, s.canBuffer die ctl buffer)] })

/-- CAN_INIT_ENTER (R433, R436): the controller leaves the bus, and bus-off ends. -/
def execCanInitEnter (die : Fin 2) (ctl : Fin 4) (s : State) : Host.Outcome State Fault Refusal :=
  .next (if s.mesaLive die then s.setCan die ctl { s.canIn die ctl with init := true, integrated := false, busOff := false, tec := 0, rec_ := 0 } else s.absentAccess 4)

/-- CAN_INIT_LEAVE (R436): an enabled controller integrates on the bus. -/
def execCanInitLeave (die : Fin 2) (ctl : Fin 4) (s : State) : Host.Outcome State Fault Refusal :=
  .next (if s.mesaLive die then s.setCan die ctl { s.canIn die ctl with init := false, integrated := s.canEn die ctl } else s.absentAccess 4)

/-! ### Ethernet (R402, R403, R410) -/

/-- What a filter sees of a frame: its VLAN, its EtherType, the offset behind it. -/
def ethHead (f : List Byte) : Option Nat × Nat × Nat :=
  let be (o : Nat) : Nat := byteAt f o * 256 + byteAt f (o + 1)
  if be 12 = 0x8100 then (some (be 14 % 4096), be 16, 18) else (none, be 12, 14)

/-- The UDP destination port of a frame over IPv4 or IPv6. -/
def udpPort (f : List Byte) (type off : Nat) : Option (Nat × Nat) :=
  let be (o : Nat) : Nat := byteAt f o * 256 + byteAt f (o + 1)
  if type = 0x0800 ∧ byteAt f (off + 9) = 17 ∧ be (off + 6) % 8192 = 0 then some (2, be (off + 4 * (byteAt f off % 16) + 2))
  else if type = 0x86DD ∧ byteAt f (off + 6) = 17 then some (3, be (off + 42))
  else none

/-- A filter word accepts a frame. -/
def ethFilter (w : Word) (vid : Nat) (f : List Byte) : Bool :=
  let h := ethHead f
  let value := fld w 31 16
  (!bit w 2 || decide (h.1 = some vid)) &&
  (match fld w 1 0 with
   | 1 => decide (h.2.1 = value)
   | 2 => decide (udpPort f h.2.1 h.2.2 = some (2, value))
   | 3 => decide (udpPort f h.2.1 h.2.2 = some (3, value))
   | _ => false)

/-- A PTP frame (R405). -/
def isPtp (f : List Byte) : Bool :=
  let h := ethHead f
  decide (h.2.1 = 0x88F7) || (match udpPort f h.2.1 h.2.2 with | some (_, p) => decide (p = 319 ∨ p = 320) | none => false)

/-- The item of an Ethernet frame (R403). -/
def ethBody (filter : Nat) (f : List Byte) : List Byte :=
  let data := f.take 2040
  leBytes 2 f.length ++ [BitVec.ofNat 8 filter, BitVec.ofNat 8 (b2n (decide (2040 < f.length)))] ++ leBytes 4 0 ++ padTo (roundUp data.length 4) data

/-- ETH_FRAME (R402, R403): an event under the lowest filter that matches; a frame that is neither PTP nor matched is counted and dropped. -/
def execEthFrame (die : Fin 2) (port : Fin 4) (frame : List Byte) (fcsOk : Bool) (at_ : Time) (s : State) : Host.Outcome State Fault Refusal :=
  .next (
    let s := s.at at_
    let b := ethBase die port
    if !s.mesaLive die ∨ !s.ethEn die port ∨ !s.ingress[die].ethUp[port] ∨ (ethHead frame).2.1 = 0x8808 then s else
    let old := s.usesOld at_
    let hit := (List.range 8).find? fun n => ethFilter (s.bankWord die old (b + 0x40 + 4 * n)) (fld (s.bankWord die old b) 27 16) frame
    if !fcsOk ∨ 9216 < frame.length then s.count32 (b + 8) 1 else
    match hit with
    | some n =>
      let byte := 4 * 32 + 16 * die.val + 4 + port.val
      if s.stamping die 1 then s.laneArrive die false byte { key := eventKey at_ byte, body := ethBody n frame } else s
    | none => if isPtp frame && bit (s.reg b) 3 then s else s.count32 (b + 8) 1)

/-- ETH_LINK_CHANGE (R410). -/
def execEthLinkChange (die : Fin 2) (port : Fin 4) (up : Bool) (s : State) : Host.Outcome State Fault Refusal :=
  .next (if s.mesaLive die then { s with ingress := s.ingress.set die { s.ingress[die] with ethUp := s.ingress[die].ethUp.set port up } } else s)

end Sys2Proof.Machine
end

