-- ==== Sys2Proof/Machine/Faults.lean ====
section
/-! DEFINITION. Log writers, the host copy of the log, and what takes units out of service (21). -/

namespace Sys2Proof.Machine

/-! ### Log writers (R560 to R562) -/

/-- Bytes of an entry: a 16-byte header and the record, padded to 16. -/
def entryLen (bs : List Byte) : Nat := 16 + roundUp bs.length 16

/-- A die's log area in bytes: 0 while its LOG_EN is clear (R561, R587). -/
def State.logArea (s : State) (j : Nat) : Nat :=
  if bit (s.reg 0x5030) j then fld (s.reg (0x5024 + 8 * j)) 15 0 * 2 ^ 20 else 0

/-- The reorder region, and the ring. -/
def State.logRegion (s : State) (j : Nat) : Nat := s.logArea j / 8
def State.logRing (s : State) (j : Nat) : Nat := s.logArea j - s.logArea j / 8

/-- A die's log writer, and its replacement. -/
def State.writer (s : State) (j : Nat) : LogWriter := s.logs.writer.toList.getD j {}
def State.setWriter (s : State) (j : Nat) (w : LogWriter) : State :=
  { s with logs := { s.logs with writer := s.logs.writer.setIfInBounds j w } }

/-- Oldest entries that must go so that `need` bytes fit into `cap`, and what stays. -/
def makeRoom (cap need : Nat) : List LogEntry → List LogEntry
  | [] => []
  | e :: rest => if ((e :: rest).foldl (fun n x => n + entryLen x.bytes) need) ≤ cap then e :: rest else makeRoom cap need rest

/-- LOG_OVERRUN (R561, R567): lost entries are counted, and a record is made when the flag was clear. -/
def State.logLost (s : State) (j n : Nat) : State :=
  if n = 0 then s else
  let clear := !bit (s.reg 0x5000) 3
  ((s.count32 0x5074 n).faultFlag 3).faultThrottled clear j { cls := 0x0040, sev := 2, kind := 2, index := j, detail := n }

/-- A record enters the log ring (R561, R562). One that finds no room at all is lost (log 47). -/
def State.logEntry (s : State) (j : Nat) (r : LogRec) (early : Bool) : State :=
  let w := s.writer j
  let cap := s.logRing j
  if cap < entryLen r.bytes then (s.setWriter j { w with lostBefore := true }).count32 0x5074 1
  else
    let ring := makeRoom cap (entryLen r.bytes) w.ring
    let lost := w.ring.length - ring.length
    let e : LogEntry := { seq := w.seq, keyed := r.key.isSome, early, lostBefore := w.lostBefore || decide (0 < lost), bytes := r.bytes, irq := r.irq }
    (s.setWriter j { w with ring := ring ++ [e], seq := (w.seq + 1) % 2 ^ 64, lostBefore := false }).logLost j lost

/-- The key of a record, as a number. -/
def LogRec.order (r : LogRec) : Nat := match r.key with | some k => k.toNat | none => 0

/-- Release the smallest-keyed records, marked EARLY, until the reorder region holds the rest. -/
def State.logEarly (s : State) (j : Nat) : List LogRec → State
  | [] => s.setWriter j { s.writer j with reorder := [] }
  | r :: rest =>
    if ((r :: rest).foldl (fun (n : Nat) (x : LogRec) => n + entryLen x.bytes) 0) ≤ s.logRegion j then s.setWriter j { s.writer j with reorder := r :: rest }
    else (s.logEntry j r true).logEarly j rest

/-- The power-down sequence lets no new record into a ring (R605). -/
def State.logShut (s : State) : Bool := decide (s.unit.phase = .powerDown ∨ s.unit.phase = .waiting)

/-- LOG_RECORD_ARRIVE (R560, R561): the die's oldest record on its way enters the reorder region or the ring. -/
def execLogRecordArrive (die : Fin 2) (s : State) : Host.Outcome State Fault Refusal :=
  .next (
    match s.logs.made.find? fun r => decide (r.die = die.val) with
    | none => s
    | some r =>
      let s := { s with logs := { s.logs with made := dropFirst (fun r => decide (r.die = die.val)) s.logs.made } }
      if !s.mesaLive die ∨ s.logShut then s
      else if r.key.isNone then s.logEntry die r false
      else s.logEarly die (insertBy LogRec.order r (s.writer die).reorder))

/-- LOG_KEYED_RELEASE (R71, R560): the smallest-keyed record, when its key lies below every frontier. -/
def execLogKeyedRelease (die : Fin 2) (frontier : Key) (s : State) : Host.Outcome State Fault Refusal :=
  .next (
    let w := s.writer die
    match w.reorder with
    | [] => s
    | r :: rest => if !s.mesaLive die ∨ frontier.toNat ≤ r.order then s else (s.setWriter die { w with reorder := rest }).logEntry die r false)

/-! ### The host ring (R563) -/

/-- The bytes of a log entry (R562). -/
def LogEntry.image (e : LogEntry) (die : Nat) : List Byte :=
  let n := entryLen e.bytes
  padTo n (leBytes 2 (if n < 65536 then n else (Config.longLen n).toNat) ++
    [BitVec.ofNat 8 die, BitVec.ofNat 8 (b2n e.keyed + 2 * b2n e.early + 4 * b2n e.lostBefore)] ++
    leBytes 8 e.seq ++ leBytes 4 (crc32 e.bytes) ++ e.bytes)

/-- A filler entry of `n` bytes: LEN, and zeros. -/
def fillerEntry (n : Nat) : List Byte := padTo n (leBytes 2 (if n < 65536 then n else (Config.longLen n).toNat))

/-- The DMA engine can write to host memory (R336, R387): the link is up, the function may master, F misc of mesa die 0 is on. -/
def State.dmaOk (s : State) : Bool := s.mesaLive 0 && s.link.busMaster && !s.link.d3hot && s.power.fOn.toList.getD 3 false

/-- Write to host memory. -/
def State.hostWrite (s : State) (a : Nat) (bs : List Byte) : State := { s with link := { s.link with writes := s.link.writes ++ [(a, bs)] } }

/-- LOG_HOST_COPY (R563): the die's oldest entry goes to the host ring; an entry that would cross the end of the ring is preceded by a filler. -/
def execLogHostCopy (die : Fin 2) (s : State) : Host.Outcome State Fault Refusal :=
  .next (
    let size := (s.reg 0x5068).toNat
    let head := (s.reg 0x506C).toNat
    let tail := (s.reg 0x5070).toNat
    let base := s.getPair 0x5060
    let w := s.writer die
    match w.ring with
    | [] => s
    | e :: rest =>
      if !s.mesaLive die ∨ !s.dmaOk ∨ !bit (s.reg 0x5030) 2 ∨ size = 0 then s else
      let free := if head = tail then size else (head + size - tail) % size
      let n := entryLen e.bytes
      let fill := if tail + n > size then size - tail else 0
      if free < fill + n then s else
      let s := if fill = 0 then s else s.hostWrite (base + tail) (fillerEntry fill)
      let at0 := if fill = 0 then tail else 0
      let s := (s.hostWrite (base + at0) (e.image die)).setWriter die { w with ring := rest }
      let s := s.setReg 0x5070 (BitVec.ofNat 32 ((at0 + n) % size))
      if e.irq then s.signal (fld (s.reg 0x5008) 10 0) else s)

/-- LOG_HOST_HEAD_WRITE (R563). -/
def execLogHostHeadWrite (value : Word) (s : State) : Host.Outcome State Fault Refusal := .next (s.setReg 0x506C value)

/-! ### Units out of service (R576, R578, R584) -/

/-- A job uses an erg die: a tile, a cairn range, or a reservoir range on one of its stacks. -/
def State.jobRanges (s : State) (j : Job) : List ResRec := match s.imageOf j.old j.image with | some i => i.res | none => []
def State.usesStack (s : State) (j : Job) (n : Nat) : Bool :=
  s.placedStacks.zipIdx.any fun x => x.1 == n && (s.jobRanges j).any fun r => decide (0 < r.len ∧ r.base * 2 ^ 20 < (x.2 + 1) * 2 ^ 34 ∧ x.2 * 2 ^ 34 < (r.base + r.len) * 2 ^ 20)
def State.usesErg (s : State) (j : Job) (k : Nat) : Bool :=
  (j.tiles.any fun t => decide (t / 128 = k)) || (j.cairns.any fun c => decide (c.1 = k ∧ c.2 ≠ [])) ||
  ((List.range 8).any fun n => decide (s.stackDie n = k ∧ n < s.fuses.stackCount) && s.usesStack j n)

/-- Jobs that are not over. -/
def State.openJobs (s : State) : List Job := s.jobs.filter fun j => decide (j.stopped = none) && (decide (j.running ≠ []) || j.reserved)

/-- Stop the open jobs that meet a test. -/
def State.stopWhere (s : State) (p : Job → Bool) (reason unit : Nat) : State :=
  (s.openJobs.filter p).foldl (fun s j => s.stopJob j.id reason 0 0 unit) s

/-- UNIT_OUT_OF_SERVICE (R584). -/
def State.outRecord (s : State) (die kind index detail : Nat) : State :=
  s.fault die none { cls := 0x0032, sev := 3, kind, index, detail }

/-- Clear bits of MESA_CAP_LIVE (R50). -/
def State.clearLive (s : State) (bits : List Nat) : State := { s with live := bits.foldl (fun w b => w &&& ~~~oneBit b) s.live }

/-- The die that a place lies on. -/
def State.placeDie (s : State) : Place → Nat
  | .tile t => t / 128
  | .stack n => s.stackDie n
  | .apply k => k
  | .mesa j _ => 4 + j

/-- Messages at a lost die, from it or to it are lost, with the credits they held (log 46). -/
def State.dropTraffic (s : State) (d : Nat) : State :=
  { s with net := { s.net with
      hops := s.net.hops.filter fun h => decide (s.nodeDie h.place ≠ d ∧ s.placeDie h.msg.dest ≠ d ∧ s.placeDie h.msg.src ≠ d)
      hopUsed := s.net.hopUsed.filter fun e => decide (s.nodeDie e.1 ≠ d ∧ s.nodeDie e.2.1 ≠ d) } }

/-- An erg die leaves service (R584). -/
def State.ergOut (s : State) (k reason : Nat) : State :=
  if !s.ergLive k then s else
  let s := (s.clearLive [k]).outRecord (s.serving k) 1 k k
  let s := s.stopWhere (fun j => s.usesErg j k) reason (128 * k)
  let s := ((List.range 128).foldl (fun s t => s.partyGone (.tile (128 * k + t))) s).dropTraffic k
  s.setApply k {}

/-- A tile leaves service (R51, R584). -/
def State.tileOut (s : State) (t : Nat) : State :=
  let s := { s with tileLive := s.tileLive &&& ~~~(BitVec.ofNat 512 (1 <<< t)) }
  let s := s.outRecord (s.serving (t / 128)) 0 t (0x8000 + t)
  (s.stopWhere (fun j => decide (t ∈ j.tiles)) 0x10 t).partyGone (.tile t)

/-- A stack leaves service (R576, R584). -/
def State.stackOut (s : State) (n : Nat) : State :=
  let die := s.serving (s.stackDie n)
  let s := s.fault die none { cls := 0x0031, sev := 3, kind := 4, index := n }
  let s := (s.clearLive [4 + n]).outRecord die 4 n (4 + n)
  s.stopWhere (fun j => s.usesStack j n) 0x10 n

/-- Mesa die 1 leaves service (R584): its cycles, pending events and entries are lost, its ports and their slip parties with it. -/
def State.mesaOut (s : State) : State :=
  if !s.mesaLive 1 then s else
  let s := (s.clearLive [13, 16, 17]).outRecord 0 2 1 13
  let s := { s with
    cycles := s.cycles.filter fun c => decide (c.die ≠ 1)
    ingress := s.ingress.set 1 {}
    ports := (s.ports.set 2 {}).set 3 {}
    logs := { s.logs with writer := s.logs.writer.set 1 {}, made := s.logs.made.filter fun r => decide (r.die ≠ 1) }
    power := { s.power with fOn := Vector.ofFn fun n => s.power.fOn[n] && decide (n.val < 4) } }
  (((s.partyGone (.mesa 1)).partyGone (.chip 2)).partyGone (.chip 3)).dropTraffic 5

/-- MEM_UE events of a unit within the last second. -/
def recentUe (l : List (Nat × Time)) (n : Nat) (now : Time) : Nat := (l.filter fun e => decide (e.1 = n ∧ now < e.2 + 1000000000)).length

/-- TILE_FATAL (R51, R584): 16 MEM_UE of the tile's own stores within 1 s. -/
def execTileFatal (tile : Fin 512) (t : Time) (s : State) : Host.Outcome State Fault Refusal :=
  .next (
    let s := s.at t
    if s.tileOn tile ∧ 16 ≤ recentUe s.logs.tileUe tile s.time.now then s.tileOut tile else s)

/-- STACK_FAILED (R576): an uncorrectable interface fault, or 64 MEM_UE within 1 s. -/
def execStackFailed (stack : Fin 8) (interface : Bool) (t : Time) (s : State) : Host.Outcome State Fault Refusal :=
  .next (
    let s := s.at t
    if s.stackLive stack ∧ (interface ∨ 64 ≤ recentUe s.logs.stackUe stack s.time.now) then s.stackOut stack else s)

/-- RESERVOIR_RANGE (R577): an access of the DMA engine or the loader at or above the live capacity (log 60). -/
def execReservoirRange (addr : Nat) (loader write : Bool) (t : Time) (s : State) : Host.Outcome State Fault Refusal :=
  .next (
    let s := s.at t
    if addr < s.liveBytes then s
    else s.fault 0 none { cls := 0x0012, sev := 2, kind := 4, index := addr / 2 ^ 34 % 65536, addr, detail := b2n loader })

/-- SAFE_CLEAR (R581, R585): a FATAL fault in the same cycle leaves SAFE set. -/
def execSafeClear (fatal : Bool) (s : State) : Host.Outcome State Fault Refusal :=
  .next (if fatal then s else { s with logs := { s.logs with safe := false } })

/-! ### Links (R578) -/

/-- A link is there: both of its dies are live (R41, R120). -/
def State.linkPresent (s : State) (n : Nat) : Bool :=
  let e := s.fuses.ergCount
  if n < 4 then s.ergLive n && s.mesaLive (s.serving n)
  else if n = 10 then s.mesaLive 0 && s.mesaLive 1
  else if e = 2 then decide (n < 6) && s.ergLive 0 && s.ergLive 1
  else decide (e = 4) && (match n with
    | 4 => s.ergLive 0 && s.ergLive 1
    | 5 => s.ergLive 0 && s.ergLive 2
    | 6 => s.ergLive 0 && s.ergLive 3
    | 7 => s.ergLive 1 && s.ergLive 2
    | 8 => s.ergLive 1 && s.ergLive 3
    | _ => s.ergLive 2 && s.ergLive 3)

/-- The erg die that a failed link takes out of service: the higher-numbered one it joins. -/
def State.linkErg (s : State) (n : Nat) : Nat :=
  if n < 4 then n
  else if s.fuses.ergCount = 2 then 1
  else match n with | 4 => 1 | 5 => 2 | 7 => 2 | _ => 3

/-- The last retrain attempt of a link. -/
def Net.attempt (n : Net) (link : Nat) : Nat := match n.retrain.find? fun e => decide (e.1 = link) with | some e => e.2 | none => 0

/-- DELLU_FLIT_CRC_FAIL (R578): the sender replays, in order; the flits arrive all the same. -/
def execDelluFlitCrcFail (link : Fin 11) (flits : Nat) (t : Time) (s : State) : Host.Outcome State Fault Refusal :=
  .next (
    let s := s.at t
    if !s.linkPresent link then s
    else s.faultThrottled (!bit (s.reg 0x5000) 0) 0 { cls := 0x0020, sev := 1, kind := 5, index := link, detail := flits })

/-- DELLU_RETRAIN (R578): the link retrains; hop credits and the retry buffer are kept, and nothing passes meanwhile. -/
def execDelluRetrain (link : Fin 11) (attempt : Nat) (t : Time) (s : State) : Host.Outcome State Fault Refusal :=
  .next (
    let s := s.at t
    if !s.linkPresent link ∨ attempt ≠ s.net.attempt link + 1 ∨ 3 < attempt then s else
    let s := { s with net := { s.net with retrain := (s.net.retrain.filter fun (e : Nat × Nat) => decide (e.1 ≠ link.val)) ++ [(link.val, attempt)] } }
    s.fault 0 none { cls := 0x0021, sev := 2, kind := 5, index := link, detail := attempt })

/-- DELLU_RETRAIN_DONE (R578): the link carries flits again, or the attempt stays counted. -/
def execDelluRetrainDone (link : Fin 11) (ok : Bool) (s : State) : Host.Outcome State Fault Refusal :=
  .next (if ok then { s with net := { s.net with retrain := s.net.retrain.filter fun (e : Nat × Nat) => decide (e.1 ≠ link.val) } } else s)

/-- LINK_FAILED (R578, R584): three retrains in a row have failed. -/
def execLinkFailed (link : Fin 11) (t : Time) (s : State) : Host.Outcome State Fault Refusal :=
  .next (
    let s := s.at t
    if !s.linkPresent link ∨ s.net.attempt link < 3 then s else
    let s := s.fault 0 none { cls := 0x0022, sev := 3, kind := 5, index := link }
    if link.val = 10 then s.mesaOut else s.ergOut (s.linkErg link) 0x10)

end Sys2Proof.Machine
end

