-- ==== Sys2Proof/Machine/NtCode.lean ====
section
/-! DEFINITION. The encoding of Nonto instruction words, as the loader checks it (08 R201, R205 to R210, R226, R227; 09 R229 to R256). -/

namespace Sys2Proof.Machine

/-- What a register field of an RR word names: a scalar register, a register file of 16, a predicate register, nothing. -/
inductive Reg where
  | s | r | p | dash
  deriving DecidableEq, Repr

/-- The 5-bit field is one that the register file has; a dash is zero (R207, R227). -/
def Reg.ok (k : Reg) (v : Nat) : Bool :=
  match k with
  | .s => true
  | .r => decide (v < 16)
  | .p => decide (v < 8)
  | .dash => decide (v = 0)

/-- The three fields of a VOP (R240). -/
def vopForm (f : Nat) : Option (Reg × Reg × Reg) :=
  if f ≤ 0x05 ∨ (0x30 ≤ f ∧ f ≤ 0x3B) ∨ (0x48 ≤ f ∧ f ≤ 0x4B) then some (.r, .r, .r)
  else if f = 0x06 ∨ f = 0x07 ∨ (0x20 ≤ f ∧ f ≤ 0x23) ∨ (0x40 ≤ f ∧ f ≤ 0x42) then some (.r, .r, .dash)
  else match f with
    | 0x50 => some (.r, .s, .dash)
    | 0x51 => some (.s, .r, .s)
    | 0x52 => some (.r, .s, .s)
    | 0x53 => some (.r, .dash, .dash)
    | _ => none

/-- The fields of an RR word by major opcode and FUNC; none for a reserved FUNC. -/
def rrForm (op f : Nat) : Option (Reg × Reg × Reg) :=
  match op, f with
  | 0x00, f => if f ≤ 0x14 then some (.s, .s, .s) else none
  | 0x07, f => if f ≤ 0x05 then some (.p, .s, .s) else none
  | 0x09, 0 => some (.s, .s, .dash)
  | 0x0A, 4 => some (.p, .p, .dash)
  | 0x0A, 5 => some (.p, .s, .dash)
  | 0x0A, 6 => some (.s, .p, .dash)
  | 0x0A, f => if f ≤ 3 then some (.p, .p, .p) else none
  | 0x0B, f => if f ≤ 2 then some (.dash, .dash, .dash) else none
  | 0x0E, 0 => some (.r, .s, .s)
  | 0x0E, 1 => some (.r, .r, .dash)
  | 0x0E, 2 => some (.r, .r, .s)
  | 0x0E, 3 => some (.r, .r, .s)
  | 0x0E, 4 => some (.s, .r, .dash)
  | 0x0E, 5 => some (.s, .r, .dash)
  | 0x14, f => vopForm f
  | 0x20, 3 => some (.dash, .s, .dash)
  | 0x20, f => if f ≤ 5 then some (.s, .dash, .dash) else if f ≤ 8 then some (.s, .r, .dash) else none
  | 0x23, f => if f ≤ 2 then some (.dash, .s, .dash) else none
  | 0x24, 0 => some (.s, .dash, .dash)
  | 0x24, 1 => some (.p, .dash, .dash)
  | 0x25, 0 => some (.s, .dash, .dash)
  | 0x25, 1 => some (.s, .dash, .dash)
  | 0x25, 2 => some (.s, .r, .dash)
  | 0x25, 3 => some (.p, .r, .s)
  | 0x25, 4 => some (.s, .dash, .dash)
  | _, _ => none

/-- Further limits on DST: an even register from s2 for MULW and MULWU (R229), not s31 for RDCYC and RDST (R225). -/
def dstOk (op f dst : Nat) : Bool :=
  if op = 0x00 ∧ (f = 0x09 ∨ f = 0x0A) then decide (dst % 2 = 0 ∧ 2 ≤ dst)
  else if op = 0x25 ∧ f ≤ 1 then decide (dst ≤ 30)
  else true

/-- A word of format RR. -/
def rrLegal (op w : Nat) : Bool :=
  match rrForm op (bitsOf w 6 0) with
  | none => false
  | some (d, a, b) => d.ok (bitsOf w 21 17) && a.ok (bitsOf w 16 12) && b.ok (bitsOf w 11 7) && dstOk op (bitsOf w 6 0) (bitsOf w 21 17)

/-- A word of format ENG: FUNC, and which of XD, XA, XB, SC are used (R236, R241, R242, R254, R255). -/
def engLegal (op w : Nat) : Bool :=
  let f := bitsOf w 4 0
  let used (xd xa xb sc : Bool) : Bool :=
    (xd || decide (bitsOf w 21 18 = 0)) && (xa || decide (bitsOf w 17 14 = 0)) && (xb || decide (bitsOf w 13 10 = 0)) && (sc || decide (bitsOf w 9 5 = 0))
  match op with
  | 0x10 => decide (f ≤ 18) && used false false false true
  | 0x11 => decide (f = 0) && used false false true true
  | 0x12 => decide (f = 0)
  | 0x13 => decide (f = 0) && used true true true false
  | 0x15 => decide (f ≤ 3) && used true true false true
  | 0x16 => decide (f ≤ 2) && used true true false true
  | 0x17 => decide (f = 0) && used true true true false
  | 0x18 => decide (f ≤ 3)
  | 0x21 => decide (f = 0) && used false true false false
  | 0x22 => decide (f = 0) && used false true false true
  | _ => false

/-- A word of format STR: FUNC, and which of DX, SA, SB, PD are used (R246 to R252). -/
def strLegal (op w : Nat) : Bool :=
  let f := bitsOf w 4 0
  let used (dx sa sb pd : Bool) : Bool :=
    (dx || decide (bitsOf w 21 18 = 0)) && (sa || decide (bitsOf w 17 13 = 0)) && (sb || decide (bitsOf w 12 8 = 0)) && (pd || decide (bitsOf w 7 5 = 0))
  match op with
  | 0x0F => decide (f ≤ 5) && used true true (decide (f = 5)) false
  | 0x19 => decide (f ≤ 2) && used true false false false
  | 0x1A => decide (f = 0) && used true true true false
  | 0x1B => decide (f = 0)
  | 0x1C => decide (f = 0) && used true false false false
  | 0x1D => decide (f = 0) && used true true true false
  | 0x1E => decide (f ≤ 3) && used true (decide (f = 1 ∨ f = 2)) false false
  | 0x1F => decide (f ≤ 1) && used false true true true
  | _ => false

/-- Major opcodes by format (R209). -/
def isRr (op : Nat) : Bool := [0x00, 0x07, 0x09, 0x0A, 0x0B, 0x0E, 0x14, 0x20, 0x23, 0x24, 0x25].contains op
def isEng (op : Nat) : Bool := [0x10, 0x11, 0x12, 0x13, 0x15, 0x16, 0x17, 0x18, 0x21, 0x22].contains op
def isStr (op : Nat) : Bool := [0x0F, 0x19, 0x1A, 0x1B, 0x1C, 0x1D, 0x1E, 0x1F].contains op
def isImm (op : Nat) : Bool := [0x01, 0x02, 0x03, 0x04, 0x06, 0x08, 0x0C, 0x0D].contains op

/-- The major opcode of a word. -/
def opOf (w : Nat) : Nat := bitsOf w 27 22

/-- The word is a legal encoding (R206, R207, R209, R227). -/
def wordLegal (w : Nat) : Bool :=
  let op := opOf w
  !(w.testBit 31 && decide (bitsOf w 30 28 = 0)) &&
  (if isRr op then rrLegal op w
   else if isEng op then engLegal op w
   else if isStr op then strLegal op w
   else if isImm op then true
   else decide (op = 0x05) && decide (bitsOf w 11 10 ≠ 3 ∧ bitsOf w 9 5 = 0))

/-- A profile-only instruction (R225). -/
def wordProfile (w : Nat) : Bool := decide (opOf w = 0x25)

/-- The target of a BR at `pc` lies in the code of a bank of `size` bytes (R208, R210). -/
def branchOk (size pc w : Nat) : Bool :=
  opOf w != 0x08 || (let t : Int := (pc : Int) + 4 * toSigned 17 (bitsOf w 16 0)
    decide (t % 4 = 0 ∧ 0x800 ≤ t ∧ t < (size : Int)))

/-- An entry-table entry that a bank of `size` bytes may use (R201). -/
def entryOk (size : Nat) (e : List Byte) : Bool :=
  decide (leAt e 0 2 % 4 = 0 ∧ 0x800 ≤ leAt e 0 2 ∧ leAt e 0 2 < size ∧ leAt e 2 2 = 0)

end Sys2Proof.Machine
end

