-- ==== Sys2Proof/Machine/ImageRows.lean ====
section
/-! DEFINITION. Fennov images as bytes, and the checks of a load (11 R283 to R299; 02 R57 to R59; log 28). -/

namespace Sys2Proof.Machine

/-! ### The parts of an image (R283 to R286) -/

/-- A section table entry (R286). -/
structure Sect where
  ty : Nat
  target : Nat
  count : Nat
  off : Nat
  len : Nat
  stray : Bool
  deriving DecidableEq, Repr

/-- Bytes of an image. -/
def imgNum (d : List Byte) (off n : Nat) : Nat := leAt d off n

/-- Header fields (R284). -/
def imgLen (d : List Byte) : Nat := leAt d 0x08 8
def imgFlags (d : List Byte) : Nat := leAt d 0x12 2
def imgTargets (d : List Byte) : Nat := byteAt d 0x16
def imgSects (d : List Byte) : Nat := leAt d 0x1C 4
def imgTable (d : List Byte) : Nat := leAt d 0x20 8
def imgNoLee (d : List Byte) : Bool := (imgFlags d).testBit 1

/-- Every byte of a range is zero. -/
def zeros (d : List Byte) (off n : Nat) : Bool := (d.drop off).take n |>.all fun b => b == 0

/-- Entry `i` of the section table. -/
def sectAt (d : List Byte) (i : Nat) : Sect :=
  let a := imgTable d + 32 * i
  { ty := leAt d a 2, target := byteAt d (a + 2), count := leAt d (a + 4) 4, off := leAt d (a + 8) 8, len := leAt d (a + 16) 8
    stray := decide (byteAt d (a + 3) ≠ 0) || !zeros d (a + 24) 8 }

/-- The section table. -/
def sects (d : List Byte) : List Sect := (List.range (imgSects d)).map (sectAt d)

/-- The section of a type that a target uses: its own or a shared one. -/
def sectOf (d : List Byte) (k ty : Nat) : Option Sect := (sects d).find? fun x => decide (x.ty = ty ∧ (x.target = k ∨ x.target = 0xFF))

/-- The bytes of a section. -/
def sectBytes (d : List Byte) (x : Sect) : List Byte := (d.drop x.off).take x.len

/-- Records of `n` bytes of a target's section. -/
def sectRecs (d : List Byte) (k ty n : Nat) : List (List Byte) :=
  match sectOf d k ty with
  | some x => (List.range x.count).map fun i => ((sectBytes d x).drop (n * i)).take n
  | none => []

/-! ### Records (R292 to R294, R299, R309) -/

/-- An entry bound record of a section's bytes. -/
def boundRec (sec : List Byte) (i : Nat) : EntryBound :=
  let b := (sec.drop (128 * i)).take 128
  { entry := byteAt b 0, kind := byteAt b 1, phases := byteAt b 2, replicas := byteAt b 3, tileCount := leAt b 4 2
    commitNs := leAt b 8 4, totalNs := leAt b 0xC 4
    phase := (List.range 4).map fun p => (leAt b (16 + 16 * p) 4, leAt b (20 + 16 * p) 4, leAt b (24 + 16 * p) 4, leAt b (28 + 16 * p) 4)
    share := (List.range 11).map fun n => (byteAt b (0x50 + 2 * n), byteAt b (0x51 + 2 * n))
    capA := leAt b 0x68 4, capB := leAt b 0x6C 4
    masks := (List.range (byteAt b 3)).map fun r => leAt sec (leAt b 0x70 8 + 64 * r) 64 }

/-- The entry bound records of a target. -/
def boundRecs (d : List Byte) (k : Nat) : List EntryBound :=
  match sectOf d k 1 with
  | some x => (List.range x.count).map (boundRec (sectBytes d x))
  | none => []

/-- A PLACE record, a RES_MAP record, a CAIRN_MAP record, a LAYER_COSTS record. -/
def placeRec (b : List Byte) : PlaceRec :=
  { tile := leAt b 0 2, cbMask := byteAt b 2, wbedOff := leAt b 4 4, wbedLen := leAt b 8 4, imemOff := leAt b 0xC 2, imemLen := leAt b 0xE 2
    entryFirst := leAt b 0x10 2, entryCount := leAt b 0x12 2, scaleFirst := leAt b 0x14 2, scaleCount := leAt b 0x16 2, misfitMask := leAt b 0x18 8 }
def resRec (b : List Byte) : ResRec := { base := leAt b 0 4, len := leAt b 4 4, use := byteAt b 8 }
def cairnRec (b : List Byte) : CairnRec :=
  { entry := byteAt b 0, replica := byteAt b 1, die := byteAt b 2
    ranges := (List.range (byteAt b 3)).map fun j => (bitsOf (leAt b (8 + 8 * j) 8) 17 0, bitsOf (leAt b (8 + 8 * j) 8) 35 18)
    sources := leAt b 72 512 }
def costRec (b : List Byte) : Nat × Nat × Nat := (byteAt b 0, byteAt b 1, leAt b 4 4)

def placeRecs (d : List Byte) (k : Nat) : List PlaceRec := (sectRecs d k 2 32).map placeRec
def resRecs (d : List Byte) (k : Nat) : List ResRec := (sectRecs d k 3 16).map resRec
def cairnRecs (d : List Byte) (k : Nat) : List CairnRec := (sectRecs d k 4 584).map cairnRec
def costRecs (d : List Byte) (k : Nat) : List (Nat × Nat × Nat) := (sectRecs d k 7 8).map costRec

/-- `n` chunks of TILE_CONTENT from its bytes, with whether all of them fit and have reserved bytes of zero. -/
def chunksFrom : Nat → List Byte → Bool × List Chunk
  | 0, _ => (true, [])
  | n + 1, bs =>
    let len := leAt bs 8 4
    let size := 16 + roundUp len 16
    let r := chunksFrom n (bs.drop size)
    (r.1 && decide (size ≤ bs.length ∧ leAt bs 0 2 < 512 ∧ byteAt bs 2 ≤ 5 ∧ byteAt bs 3 = 0) && zeros bs 12 4,
     { tile := leAt bs 0 2, kind := byteAt bs 2, off := leAt bs 4 4, bytes := (bs.drop 16).take len } :: r.2)

/-- The chunks of a target. -/
def chunkRead (d : List Byte) (k : Nat) : Bool × List Chunk :=
  match sectOf d k 5 with
  | some x => chunksFrom x.count (sectBytes d x)
  | none => (true, [])
def chunksOf (d : List Byte) (k : Nat) : List Chunk := (chunkRead d k).2

/-- The store that a chunk kind writes: the entry table lies in the instruction memory (R201). -/
def chunkStore (kind : Nat) : Nat := if kind = 5 then 0 else kind

/-- Two half-open ranges share a byte. -/
def meets (a n b m : Nat) : Bool := decide (a < b + m ∧ b < a + n ∧ 0 < n ∧ 0 < m)

/-- Two chunks overlap. -/
def chunksMeet (x y : Chunk) : Bool :=
  decide (x.tile = y.tile ∧ chunkStore x.kind = chunkStore y.kind) && meets x.off x.bytes.length y.off y.bytes.length

/-- No two elements of a list are related. -/
def pairFree {α : Type} (p : α → α → Bool) : List α → Bool
  | [] => true
  | x :: xs => (xs.all fun y => !p x y) && pairFree p xs

/-! ### FORMAT (R283 to R286, R290) -/

/-- Header fields in their ranges (R284, R400). -/
def headerOk (d : List Byte) : Bool :=
  decide (d.take 4 = [0x46, 0x4E, 0x56, 0x49] ∧ leAt d 4 2 = 1 ∧ leAt d 6 2 = 0x100 ∧ imgLen d = d.length ∧ 0x140 ≤ d.length ∧
    imgFlags d < 4 ∧ byteAt d 0x14 < 16 ∧ byteAt d 0x15 < 4 ∧ 1 ≤ imgTargets d ∧ imgTargets d ≤ 4 ∧ byteAt d 0x17 ≤ 7 ∧
    imgTable d % 64 = 0 ∧ 0x100 ≤ imgTable d ∧ imgTable d + 32 * imgSects d ≤ d.length - 64 ∧
    1 ≤ leAt d 0x2C 4 ∧ leAt d 0x2C 4 ≤ 4096) && zeros d 0xC0 64

/-- Target directory entries (R285). -/
def targetOk (d : List Byte) (k : Nat) : Bool :=
  let a := 0x40 + 32 * k
  if imgTargets d ≤ k then zeros d a 32
  else decide ((byteAt d (a + 3) = 1 ∨ byteAt d (a + 3) = 2) ∧ 400 ≤ leAt d (a + 4) 2 ∧ leAt d (a + 4) 2 ≤ 1600 ∧
    1 ≤ leAt d (a + 6) 2 ∧ leAt d (a + 6) 2 ≤ 256) && zeros d (a + 8) 24

/-- A section table entry, and the place of its section. -/
def sectOk (d : List Byte) (x : Sect) : Bool :=
  !x.stray && decide (1 ≤ x.ty ∧ x.ty ≤ 8 ∧ (x.target = 0xFF ∨ x.target < imgTargets d) ∧ x.off % 64 = 0 ∧
    imgTable d + 32 * imgSects d ≤ x.off ∧ x.off + x.len ≤ d.length - 64)

/-- Every target has each type once, and SPILL and LAYER_COSTS at most once. -/
def typesOk (d : List Byte) : Bool :=
  (List.range (imgTargets d)).all fun k => (List.range 7).all fun i =>
    let n := ((sects d).filter fun x => decide (x.ty = i + 1 ∧ (x.target = k ∨ x.target = 0xFF))).length
    decide (n = 1 ∨ (5 ≤ i ∧ n = 0))

/-- The records of a section lie in it, with their fields in range. -/
def recordsOk (d : List Byte) (x : Sect) : Bool :=
  let b := sectBytes d x
  let recs (n : Nat) : List (List Byte) := (List.range x.count).map fun i => (b.drop (n * i)).take n
  match x.ty with
  | 1 => decide (128 * x.count ≤ x.len) && (recs 128).all fun r =>
      decide (1 ≤ byteAt r 1 ∧ byteAt r 1 ≤ 3 ∧ (byteAt r 1 = 1 ∨ leAt r 8 4 = 0) ∧ leAt r 0x70 8 + 64 * byteAt r 3 ≤ x.len) &&
        zeros r 6 2 && zeros r 0x66 2 && zeros r 0x78 8
  | 2 => decide (32 * x.count ≤ x.len) && (recs 32).all fun r =>
      decide (leAt r 0 2 < 512 ∧ byteAt r 3 = 0 ∧ 0x800 ≤ leAt r 0xC 2 ∧ leAt r 0x12 2 ≤ 256)
  | 3 => decide (16 * x.count ≤ x.len) && (recs 16).all fun r => decide (1 ≤ leAt r 4 4 ∧ byteAt r 8 ≤ 3) && zeros r 9 7
  | 4 => decide (584 * x.count ≤ x.len) && (recs 584).all fun r =>
      decide (byteAt r 3 ≤ 8) && zeros r 4 4 && (List.range 8).all fun j =>
        let w := leAt r (8 + 8 * j) 8
        if j < byteAt r 3 then decide (w < 2 ^ 36 ∧ 1 ≤ bitsOf w 35 18 ∧ bitsOf w 35 18 ≤ 65536) else decide (w = 0)
  | 5 => (chunksFrom x.count b).1 && pairFree chunksMeet (chunksFrom x.count b).2
  | 7 => decide (8 * x.count ≤ x.len) && (recs 8).all fun r => decide (byteAt r 1 ≤ 3) && zeros r 2 2
  | _ => true

/-- An image of the right form (code 0x01). -/
def formatOk (d : List Byte) : Bool :=
  headerOk d && ((List.range 4).all fun k => targetOk d k) && ((sects d).all fun x => sectOk d x) &&
  pairFree (fun x y => meets x.off x.len y.off y.len) (sects d) && typesOk d && ((sects d).all fun x => recordsOk d x) &&
  (List.range (imgTargets d)).all fun k => decide ((boundRecs d k).length = leAt d (0x46 + 32 * k) 2)

/-! ### Identity and signature (R287, R288) -/

/-- The image identity. -/
def imgDigest (d : List Byte) : List Byte := sha256 (d.take (d.length - 64))

/-- The key slot that signs an image. -/
def State.imageKey (s : State) (slot : Nat) : KeySlot := s.unit.otp.toList.getD slot {}

/-- KEY, SIGNATURE, or neither. -/
def State.signCode (s : State) (d : List Byte) (slot : Nat) : Nat :=
  let k := s.imageKey slot
  if k.state ≠ .valid then 3
  else if ecdsaVerify k.x k.y (imgDigest d) (d.drop (d.length - 64)) then 0 else 2

/-! ### Requirements (R57 to R59) -/

/-- Mesa dies that an image uses. -/
def imgDies (d : List Byte) : List Nat := (List.range 2).filter fun j => (byteAt d 0x15).testBit j

/-- The module has every die and every stack that it was built with in service. -/
def State.allLive (s : State) : Bool :=
  ((List.range s.fuses.ergCount).all fun k => s.ergLive k) && ((List.range s.fuses.stackCount).all fun n => s.stackLive n) &&
  (List.range s.fuses.mesaCount).all fun j => s.mesaLive j

/-- The target section that a load takes, and whether its bounds are void (R59). -/
def State.selectTarget (s : State) (d : List Byte) (unbound : Bool) : Option (Nat × Bool) :=
  let f := s.fuses
  let is (k : Nat) (n v : Nat) : Bool := decide (byteAt d (0x40 + 32 * k + n) = v)
  let exact := (List.range (imgTargets d)).find? fun k => is k 0 f.ergCount && is k 1 f.stackCount && is k 2 f.mesaCount && is k 3 f.series
  match exact.filter fun _ => s.allLive with
  | some k => some (k, false)
  | none =>
    if !unbound then none else
    ((List.range (imgTargets d)).find? fun k => is k 0 f.ergCount && is k 2 f.mesaCount &&
      (resRecs d k).all fun r => decide ((r.base + r.len) * 2 ^ 20 ≤ s.liveBytes)).map fun k => (k, true)

/-- The mask of failing requirement checks (R58): 0x15 takes what fails only because a fitted unit is not live. -/
def State.needMask (s : State) (d : List Byte) (unbound : Bool) : Nat :=
  let f := s.fuses
  let opt := byteAt d 0x14
  let dies := imgDies d
  let dead := dies.any fun j => !s.mesaLive j
  let fit (j : Nat) : Bool := decide (j < f.mesaCount)
  let lower : List (Bool × Bool) :=
    [(dies.contains 1 && !fit 1, dies.contains 1 && !s.mesaLive 1),
     (opt.testBit 0 && dies.any fun j => !(f.optV && fit j), opt.testBit 0 && dead),
     (opt.testBit 1 && dies.any fun j => !(f.optT && fit j), opt.testBit 1 && dead),
     (opt.testBit 2 && !f.optD, false),
     (opt.testBit 3 && dies.any fun j => !(f.optA && fit j), opt.testBit 3 && dies.any fun j => !s.dflLive (2 * j) && !s.dflLive (2 * j + 1))]
  let low := lower.zipIdx.foldl (fun m x => if x.1.1 then m ||| 2 ^ x.2 else if x.1.2 then m ||| 0x20 else m) 0
  let low := if s.liveBytes < leAt d 0x18 4 * 2 ^ 20 then low ||| 0x40 else low
  if (s.selectTarget d unbound).isNone then low ||| 0x80 else low

/-- The code of the lowest failing requirement. -/
def maskCode (m : Nat) : Nat := match (List.range 16).find? fun n => m.testBit n with | some n => 0x10 + n | none => 0

/-! ### Contents (R189, R201, R226, R258, R290, R298) -/

/-- Instruction words that chunks give a tile: address and word. -/
def Chunk.words (c : Chunk) : List (Nat × Nat) :=
  (List.range ((c.bytes.length + 3) / 4)).map fun i => (c.off + 4 * i, leAt c.bytes (4 * i) 4)

/-- The instruction words of a target. -/
def imgWords (d : List Byte) (k : Nat) : List (Nat × Nat) := ((chunksOf d k).filter fun c => decide (c.kind = 0)).flatMap Chunk.words

/-- Byte `a` of a tile's instruction memory as the chunks leave it. -/
def imgImem (cs : List Chunk) (t a : Nat) : Byte :=
  match cs.find? fun c => decide (c.tile = t ∧ chunkStore c.kind = 0 ∧ c.off ≤ a ∧ a < c.off + c.bytes.length) with
  | some c => c.bytes.getD (a - c.off) 0
  | none => 0

/-- Bytes of an instruction-memory bank. -/
def imgBank (d : List Byte) : Nat := if imgNoLee d then 0x10000 else 0x8000

/-- The tiles that a bound record names. -/
def EntryBound.allTiles (e : EntryBound) : List Nat := (List.range 512).filter fun t => e.masks.any fun m => m.testBit t

/-- Entry-table entries that bound records use break R201. -/
def entriesBad (d : List Byte) (k : Nat) : Bool :=
  let cs := chunksOf d k
  let ps := placeRecs d k
  (boundRecs d k).any fun e => e.allTiles.any fun t =>
    let n := (match ps.find? fun p => decide (p.tile = t) with | some p => p.entryFirst | none => 0) + e.entry
    !entryOk (imgBank d) ((List.range 8).map fun i => imgImem cs t (8 * n + i))

/-- CAIRN_MAP (R258): ranges on the record's die, and disjoint within one binding. -/
def State.cairnsBad (s : State) (d : List Byte) (k : Nat) : Bool :=
  (cairnRecs d k).any fun c =>
    (c.ranges.any fun r => decide (65536 * s.fuses.ergCount < r.1 + r.2 ∨ r.1 / 65536 ≠ c.die ∨ (r.1 + r.2 - 1) / 65536 ≠ c.die)) ||
    !pairFree (fun x y => meets x.1 x.2 y.1 y.2) c.ranges

/-- A bound record is consistent (R189, R298). -/
def boundBad (costs : List (Nat × Nat × Nat)) (e : EntryBound) : Bool :=
  let ph (p : Nat) : Nat × Nat × Nat × Nat := e.phase.getD p (0, 0, 0, 0)
  let has (p : Nat) : Bool := e.phases.testBit p
  let cost (p : Nat) : Nat := (costs.filter fun c => decide (c.1 = e.entry ∧ c.2.1 = p)).foldl (fun n c => n + c.2.2) 0
  let last := ((List.range 4).filter has).getLast?
  ((List.range 4).any fun p =>
    (if has p then decide ((ph p).1 = 0 ∨ (ph p).1 < (ph p).2.1 ∨ (ph p).2.1 < (ph p).2.2.1) else decide (ph p ≠ (0, 0, 0, 0))) ||
    decide ((ph p).2.2.1 ≠ cost p)) ||
  (match e.kind with | 1 => decide (8 ≤ e.phases) | 2 => decide (e.phases ≠ 8) | _ => decide (16 ≤ e.phases)) ||
  decide (e.totalNs ≠ e.phase.foldl (fun n x => n + x.1 + x.2.2.2) e.commitNs) ||
  (match last with | some p => decide ((ph p).2.2.2 ≠ 0) | none => false) || decide (e.replicas < 1 ∨ 4 < e.replicas)

/-- The first failing content check before placement, or 0. -/
def State.contentCode (s : State) (d : List Byte) (k : Nat) : Nat :=
  let ws := imgWords d k
  if 0x0100 < leAt d 0x10 2 then 0x20
  else if ws.any fun w => !wordLegal w.2 then 0x21
  else if !(imgFlags d).testBit 0 && ws.any fun w => wordProfile w.2 then 0x22
  else if ws.any fun w => !branchOk (imgBank d) w.1 w.2 then 0x23
  else if entriesBad d k then 0x24
  else if s.cairnsBad d k then 0x25
  else if (boundRecs d k).any (boundBad (costRecs d k)) then 0x26
  else if (boundRecs d k).any fun e => decide (e.kind = 2 ∧ leAt d 0x28 4 * 1000 < e.totalNs) then 0x27
  else 0

/-! ### Placement (R292 to R296) -/

/-- Claims of two records on one tile meet. -/
def claimsMeet (x y : PlaceRec) : Bool :=
  decide (x.tile = y.tile) &&
  (decide (x.cbMask &&& y.cbMask ≠ 0 ∨ x.misfitMask &&& y.misfitMask ≠ 0) || meets x.wbedOff x.wbedLen y.wbedOff y.wbedLen ||
    meets x.imemOff x.imemLen y.imemOff y.imemLen || meets x.entryFirst x.entryCount y.entryFirst y.entryCount ||
    meets x.scaleFirst x.scaleCount y.scaleFirst y.scaleCount)

/-- A chunk lies inside a claim. -/
def chunkIn (p : PlaceRec) (c : Chunk) : Bool :=
  let n := c.bytes.length
  let lies (a m : Nat) : Bool := decide (a ≤ c.off ∧ c.off + n ≤ a + m)
  decide (p.tile = c.tile) &&
  (match c.kind with
   | 0 => lies p.imemOff p.imemLen
   | 1 => lies p.wbedOff p.wbedLen
   | 2 => decide (c.off + n ≤ 1024) && (List.range 8).all fun i => !meets (128 * i) 128 c.off n || p.cbMask.testBit i
   | 3 => decide (c.off + n ≤ 65536) && (List.range 64).all fun col => (List.range 256).all fun e =>
       !meets (1024 * col + 4 * e) 4 c.off n || decide (p.scaleFirst ≤ e ∧ e < p.scaleFirst + p.scaleCount)
   | 4 => decide (c.off + n ≤ 1024) && (List.range 64).all fun i => !meets (16 * i) 16 c.off n || p.misfitMask.testBit i
   | _ => lies (8 * p.entryFirst) (8 * p.entryCount))

/-- A claim lies inside a bank of a tile that the module has. -/
def State.claimFits (s : State) (d : List Byte) (p : PlaceRec) : Bool :=
  decide (p.tile < 128 * s.fuses.ergCount ∧ p.wbedOff + p.wbedLen ≤ (if imgNoLee d then 0x300000 else 0x180000) ∧
    p.imemOff + p.imemLen ≤ imgBank d ∧ p.entryFirst + p.entryCount ≤ 256 ∧ p.scaleFirst + p.scaleCount ≤ 256)

/-- Images that retire (R295): in the bank that was crest before the last slip, and no longer in crest, while a tile of theirs retires. -/
def State.retiring (s : State) : List Image :=
  s.loader.old.toList.filterMap fun i => i.filter fun i =>
    !(s.loader.crest.toList.any fun c => decide (c = some i)) && i.place.any fun p => (s.tile p.tile).retiring.isSome

/-- Images resident in crest or in lee, but for the lee of one slot. -/
def State.residents (s : State) (but : Option Nat) : List Image :=
  s.loader.crest.toList.filterMap id ++ (s.loader.lee.toList.zipIdx.filterMap fun x => if some x.2 = but then none else x.1)

/-- Byte ranges of the reservoir that images hold, and that the module itself claims: staging, logs, parked frames (R386, R421, R561). -/
def resSpans (rs : List ResRec) : List (Nat × Nat) := rs.map fun r => (r.base * 2 ^ 20, r.len * 2 ^ 20)
def State.moduleSpans (s : State) : List (Nat × Nat) :=
  (s.stageBase, s.stageBytes) :: (List.range 2).flatMap fun j =>
    [(fld (s.reg (0x5020 + 8 * j)) 17 0 * 2 ^ 20, s.logArea j),
     ((s.reg (mesaBase j + 0x120800)).toNat * 2 ^ 20, (s.reg (mesaBase j + 0x120804)).toNat * 2 ^ 20)]

/-- R292, R293, R295, R296 are broken. -/
def State.placementBad (s : State) (d : List Byte) (k slot : Nat) (cold : Bool) : Bool :=
  let ps := placeRecs d k
  let rs := resRecs d k
  let bank : List Image := if cold then s.residents none
    else s.retiring ++ s.loader.lee.toList.zipIdx.filterMap fun x => if x.2 = slot then none else x.1
  let ranges := (s.residents (if cold then none else some slot) ++ s.retiring).flatMap fun i => resSpans i.res
  ps.any (fun p => !s.claimFits d p) || !pairFree claimsMeet ps ||
  (chunksOf d k).any (fun c => !ps.any fun p => chunkIn p c) ||
  (cold && (decide (s.loader.crest.toList.getD slot none ≠ none ∨ s.loader.lee.toList.getD slot none ≠ none) ||
    (s.residents none).any fun i => i.place.any fun q => ps.any fun p => decide (p.tile = q.tile))) ||
  (bank.any fun i => i.place.any fun q => ps.any fun p => claimsMeet p q) ||
  (resSpans rs).any (fun r => decide (s.liveBytes < r.1 + r.2) || (ranges ++ s.moduleSpans).any fun q => meets r.1 r.2 q.1 q.2) ||
  decide (((rs.filter fun r => decide (r.use = 2 ∧ d.length ≤ r.len * 2 ^ 20)).length ≠ 1) ∨ (rs.filter fun r => decide (r.use = 2)).length ≠ 1)

/-- LEE_MODE: NO_LEE does not match a placed tile, or is loaded into lee (R290). -/
def State.leeModeBad (s : State) (d : List Byte) (k : Nat) (cold : Bool) : Bool :=
  (imgNoLee d && !cold) || (placeRecs d k).any fun p => s.leeEn p.tile == imgNoLee d

/-- The outcome of the checks (R290): code, mask, target. -/
def State.loadCheck (s : State) (d : List Byte) (slot : Nat) (cold unbound : Bool) : Nat × Nat × Option (Nat × Bool) :=
  if !formatOk d then (1, 0, none)
  else
    let sign := s.signCode d (byteAt d 0x17)
    if sign ≠ 0 then (sign, 0, none)
    else
      let m := s.needMask d unbound
      let t := s.selectTarget d unbound
      if m ≠ 0 then (maskCode m, m, t)
      else match t with
        | none => (0x17, 0x80, none)
        | some (k, u) =>
          let c := s.contentCode d k
          (if c ≠ 0 then c else if s.placementBad d k slot cold then 0x28 else if s.leeModeBad d k cold then 0x29 else 0, 0, some (k, u))

/-- The image as the loader keeps it. -/
def imageOfBytes (d : List Byte) (k : Nat) (unbound : Bool) : Image :=
  { ident := ofLe (imgDigest d), keySlot := byteAt d 0x17, profile := (imgFlags d).testBit 0, noLee := imgNoLee d, unbound
    minLeadUs := leAt d 0x28 4, clockMhz := leAt d (0x44 + 32 * k) 2, target := k
    entries := boundRecs d k, place := placeRecs d k, res := resRecs d k, cairns := cairnRecs d k, len := d.length }

end Sys2Proof.Machine
end

