-- ==== Sys2Proof/Machine/Loader.lean ====
section
/-! DEFINITION. The loader: loads into crest and lee, carries, unloads (11 R289 to R297; 12 R321), and the contents a bank is restored from (13 R340; log 28). -/

namespace Sys2Proof.Machine

/-! ### Writing banks (R294, R296, R297) -/

/-- A chunk of the weight bed or the instruction memory; `bad` says which of its bytes were read poisoned. -/
def TileBank.putBed (b : TileBank) (c : Chunk) (bad : Nat → Bool) : TileBank :=
  if c.kind = 1 then { b with wbed := b.wbed.puts c.off c.bytes, wbedPoison := writePoison b.wbedPoison c.off c.bytes.length bad }
  else { b with imem := b.imem.puts c.off c.bytes, imemPoison := writePoison b.imemPoison c.off c.bytes.length bad }

/-- A chunk of the codebooks, the scale file or the misfit slots (R137, R151). -/
def TileBank.putTable (b : TileBank) (c : Chunk) : TileBank :=
  match c.kind with
  | 2 => (List.range (c.bytes.length / 2)).foldl (fun (b : TileBank) i => b.setCb (c.off / 2 + i) (leAt c.bytes (2 * i) 2 % 8192)) b
  | 3 => { b with scale := (List.range (c.bytes.length / 4)).foldl (fun (m : SMap Word) i => mset (fun _ => 0) m (c.off / 4 + i) (BitVec.ofNat 32 (leAt c.bytes (4 * i) 4))) b.scale }
  | _ => { b with slots := b.slots.puts c.off c.bytes }

/-- The chunk goes to the banked stores. -/
def isBed (kind : Nat) : Bool := decide (kind = 0 ∨ kind = 1 ∨ kind = 5)

/-- Write a chunk into a bank of its tile. -/
def State.putChunk (s : State) (h : Nat) (c : Chunk) (bad : Nat → Bool) : State :=
  if isBed c.kind then s.modHalf c.tile (s.bedHalf c.tile h) fun b => b.putBed c bad else s.modHalf c.tile h fun b => b.putTable c

/-- The entries of a table outside a range of keys. -/
def mcut {α : Type} (m : SMap α) (a n : Nat) : SMap α := m.filter fun e => decide (e.1 < a ∨ a + n ≤ e.1)

/-- The weight bed and the instruction memory of a claim, zeroed. -/
def TileBank.zeroBed (b : TileBank) (p : PlaceRec) : TileBank :=
  let zero (m : SMap Bool) (a n : Nat) : SMap Bool := writePoison m a n clean
  { b with
    wbed := mcut b.wbed p.wbedOff p.wbedLen
    imem := mcut (mcut b.imem p.imemOff p.imemLen) (8 * p.entryFirst) (8 * p.entryCount)
    wbedPoison := zero b.wbedPoison p.wbedOff p.wbedLen
    imemPoison := zero (zero b.imemPoison p.imemOff p.imemLen) (8 * p.entryFirst) (8 * p.entryCount) }

/-- The tables of a claim, zeroed. -/
def TileBank.zeroTables (b : TileBank) (p : PlaceRec) : TileBank :=
  { b with
    cb := b.cb.filter fun e => !p.cbMask.testBit (e.1 / 64)
    scale := b.scale.filter fun e => decide (e.1 % 256 < p.scaleFirst ∨ p.scaleFirst + p.scaleCount ≤ e.1 % 256)
    slots := b.slots.filter fun e => !p.misfitMask.testBit (e.1 / 16) }

/-- Zero a claim in the lee of its tile; with LEE_EN = 0 the bed has no lee (R131). -/
def State.zeroLee (s : State) (p : PlaceRec) : State :=
  let h := s.leeHalf p.tile
  let s := if s.leeEn p.tile then s.modHalf p.tile h fun b => b.zeroBed p else s
  s.modHalf p.tile h fun b => b.zeroTables p

/-! ### The image store (R293, R297) -/

/-- The base of an image's store. -/
def Image.store (i : Image) : Nat := match i.res.find? fun r => decide (r.use = 2) with | some r => r.base * 2 ^ 20 | none => 0

/-- The image that its store holds. -/
def State.storeBytes (s : State) (i : Image) : List Byte := s.resv.mem.bytes i.store i.len

/-- A byte of the store reads poisoned (R574, R584). -/
def State.storeBad (s : State) (i : Image) (off : Nat) : Bool :=
  s.stackDead (i.store + off) || mget clean s.resv.poison ((i.store + off) / 8)
def State.storePoisoned (s : State) (i : Image) : Bool :=
  s.rangeDead i.store i.len || anyPoison s.resv.poison i.store i.len

/-- Chunks of an image's bytes with the offset of their first byte in the image. -/
def chunksPlaced : Nat → Nat → List Byte → List (Nat × Chunk)
  | 0, _, _ => []
  | n + 1, at0, bs =>
    let len := leAt bs 8 4
    let size := 16 + roundUp len 16
    (at0 + 16, { tile := leAt bs 0 2, kind := byteAt bs 2, off := leAt bs 4 4, bytes := (bs.drop 16).take len }) :: chunksPlaced n (at0 + size) (bs.drop size)

/-- The chunks that an image's store holds for its target. -/
def State.storeChunks (s : State) (i : Image) : List (Nat × Chunk) :=
  let d := s.storeBytes i
  match sectOf d i.target 5 with
  | some x => chunksPlaced x.count x.off (sectBytes d x)
  | none => []

/-- Write one of the store's chunks into a bank, poisoned where the store is. -/
def State.putStored (s : State) (h : Nat) (i : Image) (x : Nat × Chunk) : State :=
  s.putChunk h x.2 fun k => s.storeBad i (x.1 + k)

/-! ### The loader's turn (R133, R291, R326, R339) -/

/-- Make a tile ready for a write into its banks: its row wakes, and not-admitted jobs that hold a retiring half stop (R133). -/
def State.readyTile (s : State) (t : Nat) : State :=
  let s := s.wakeRow (rowDom t)
  match (s.tile t).retiring with
  | none => s
  | some p =>
    let hs := s.holders t p
    if s.tileReserved t p ∨ (hs.any fun j => j.admitted) then s
    else (hs.foldl (fun s j => s.reclaim j.id [t] t) s).retireTile t

/-- Tiles that a slot's images and a new image place on. -/
def placedTiles (l : List PlaceRec) : List Nat := (l.map PlaceRec.tile).eraseDups

/-- Every tile of a list can be written. -/
def State.tilesReady (s : State) (l : List Nat) : Bool := l.all fun t => !s.tileLeeBusy t

/-- The loader notes the checksums that the lees of some tiles must show (R321). -/
def State.expectAll (s : State) (l : List Nat) : State := l.foldl (fun s t => s.expectLee t) s

/-! ### Loads (R289 to R297, R400) -/

/-- Fields of a LOAD_IMAGE entry (R389). -/
def HpCmd.loadSlot (c : HpCmd) : Nat := byteAt c.bytes 8
def HpCmd.cold (c : HpCmd) : Bool := decide (byteAt c.bytes 9 = 0)
def HpCmd.allowUnbound (c : HpCmd) : Bool := (byteAt c.bytes 0xA).testBit 0
def HpCmd.stageOff (c : HpCmd) : Nat := leAt c.bytes 0x10 8
def HpCmd.loadLen (c : HpCmd) : Nat := leAt c.bytes 0x18 8

/-- The staged image. -/
def State.stagedImage (s : State) (c : HpCmd) : List Byte := s.resv.mem.bytes (s.stageBase + c.stageOff) c.loadLen

/-- The admin command has its outcome, and the executor is free (R398). -/
def State.adminDone (s : State) (c : HpCmd) (status detail result : Nat) : State :=
  ({ s with link := { s.link with adminNow := none } }).hpDone c status detail result

/-- The image's bytes go to its store, and the SPILL bytes to the spill ranges in RES_MAP order (R293, R307). -/
def State.storeImage (s : State) (d : List Byte) (i : Image) : State :=
  let s := s.resvWrite i.store d clean 0
  let spill := match sectOf d i.target 6 with | some x => sectBytes d x | none => []
  ((i.res.filter fun r => decide (r.use = 1)).foldl (fun (x : State × List Byte) r =>
    (x.1.resvWrite (r.base * 2 ^ 20) (x.2.take (r.len * 2 ^ 20)) clean 0, x.2.drop (r.len * 2 ^ 20))) (s, spill)).1

/-- The carry of one slot into lee (R297): refused for a key that is no longer valid or a store that does not verify, which leaves the slot empty in lee. -/
def State.carry (s : State) (k : Nat) : State :=
  match s.loader.crest.toList.getD k none with
  | none => s
  | some i =>
    if s.loader.changed.toList.getD k false then s
    else if s.storePoisoned i ∨ s.signCode (s.storeBytes i) i.keySlot ≠ 0 then
      let s := (i.place.foldl (fun s p => s.zeroLee p) s).expectAll (placedTiles i.place)
      { s with loader := { s.loader with lee := s.loader.lee.setIfInBounds k none, changed := s.loader.changed.setIfInBounds k true } }
    else
      let s := ((s.storeChunks i).foldl (fun s x => s.putStored (s.leeHalf x.2.tile) i x) s).expectAll (placedTiles i.place)
      { s with loader := { s.loader with lee := s.loader.lee.setIfInBounds k (some i) } }

/-- COLD (R296): the chunks land in crest; lee holds them too, so that the next slip keeps the image (log 29). -/
def State.loadCold (s : State) (d : List Byte) (i : Image) (slot : Nat) : State :=
  let s := s.storeImage d i
  let s := (chunksOf d i.target).foldl (fun s c => (s.putChunk (s.crestHalf c.tile) c clean).putChunk (s.leeHalf c.tile) c clean) s
  let s := s.expectAll (placedTiles i.place)
  { s with loader := { s.loader with
      crest := s.loader.crest.setIfInBounds slot (some i), lee := s.loader.lee.setIfInBounds slot (some i)
      changed := s.loader.changed.setIfInBounds slot true } }

/-- LEE (R297): what lee held for the slot gives way to the image, and the other resident slots are carried. -/
def State.loadLee (s : State) (d : List Byte) (i : Image) (slot : Nat) : State :=
  let was := match s.loader.lee.toList.getD slot none with | some o => o.place | none => []
  let s := s.storeImage d i
  let s := (was ++ i.place).foldl (fun s p => s.zeroLee p) s
  let s := (chunksOf d i.target).foldl (fun s c => s.putChunk (s.leeHalf c.tile) c clean) s
  let s := s.expectAll (placedTiles (was ++ i.place))
  let s := { s with loader := { s.loader with
    lee := s.loader.lee.setIfInBounds slot (some i), changed := s.loader.changed.setIfInBounds slot true } }
  ((List.range 4).filter fun k => k != slot).foldl (fun s k => s.carry k) s

/-- The tiles that a load writes (log 29). -/
def State.loadTiles (s : State) (i : Image) (slot : Nat) (cold : Bool) : List Nat :=
  if cold then placedTiles i.place
  else placedTiles (i.place ++ (s.loader.lee.toList.filterMap id).flatMap Image.place)

/-- DETAIL of a load completion (R390); no target index is stated for a load that selected none (log 49). -/
def loadDetail (code mask : Nat) (t : Option (Nat × Bool)) : Nat :=
  code + mask * 2 ^ 8 + (match t with | some x => x.1 | none => Config.noTarget.toNat) * 2 ^ 24

/-- LOAD_IMAGE (R289 to R297, R400): the admin command that runs. It waits while a slip is open (R291) and until the tiles it writes can be written (log 29). -/
def execLoadImage (t : Time) (s : State) : Host.Outcome State Fault Refusal :=
  .next (
    let s := s.at t
    match s.link.adminNow with
    | none => s
    | some c =>
      if byteAt c.bytes 0 ≠ 3 ∨ s.slip.st ≠ .idle then s else
      let d := s.stagedImage c
      let slot := c.loadSlot
      let chk := s.loadCheck d slot c.cold c.allowUnbound
      let ident := leAt (imgDigest d) 0 8
      if chk.1 ≠ 0 then s.adminDone c 4 (loadDetail chk.1 chk.2.1 chk.2.2) ident
      else
        match chk.2.2 with
        | none => s
        | some (k, u) =>
          let i := imageOfBytes d k u
          let ts := s.loadTiles i slot c.cold
          let s := ts.foldl (fun s t => s.readyTile t) s
          if !s.tilesReady ts then s
          else (if c.cold then s.loadCold d i slot else s.loadLee d i slot).adminDone c 0 (loadDetail 0 0 (some (k, u))) ident)

/-- UNLOAD_IMAGE (R289, R297): the slot's image leaves lee, and its claims there are filled with zero. -/
def execUnloadImage (t : Time) (s : State) : Host.Outcome State Fault Refusal :=
  .next (
    let s := s.at t
    match s.link.adminNow with
    | none => s
    | some c =>
      if byteAt c.bytes 0 ≠ 4 ∨ s.slip.st ≠ .idle then s else
      let slot := c.loadSlot
      match s.loader.lee.toList.getD slot none with
      | none => s.adminDone c 0 0 0
      | some i =>
        let ts := placedTiles i.place
        let s := ts.foldl (fun s t => s.readyTile t) s
        if !s.tilesReady ts then s
        else
          let s := (i.place.foldl (fun s p => s.zeroLee p) s).expectAll ts
          ({ s with loader := { s.loader with
              lee := s.loader.lee.setIfInBounds slot none, changed := s.loader.changed.setIfInBounds slot true } }).adminDone c 0 0 0)

/-! ### Restore after A3 (R340) -/

/-- A tile that an image claims. -/
def claimedBy (l : List (Option Image)) (t : Nat) : List Image := l.filterMap fun i => i.filter fun i => i.place.any fun p => decide (p.tile = t)

/-- Both banks of a tile lose what they held; the digest that a bank was committed under stays (R337; log 50). -/
def TileBank.lost (b : TileBank) : TileBank := { digest := b.digest }

/-- Rewrite one bank of a tile from the stores of some images (R340): zero where nothing is claimed; RESTORE_POISON where a store reads poisoned. -/
def State.restoreBank (s : State) (t h : Nat) (bed : Bool) (l : List Image) : State :=
  let s := s.modHalf t h fun b => if bed ∨ s.leeEn t then b.lost else { b with cb := [], scale := [], slots := [] }
  let s := if bed ∧ !s.leeEn t then s.modHalf t 0 fun b => { b with wbed := [], imem := [], wbedPoison := [], imemPoison := [] } else s
  l.foldl (fun s i =>
    let mine := (s.storeChunks i).filter fun x => decide (x.2.tile = t) && (bed || s.leeEn t || !isBed x.2.kind)
    let s := if mine.any fun x => (List.range x.2.bytes.length).any fun k => s.storeBad i (x.1 + k) then s.pwrFlag 5 else s
    mine.foldl (fun s x => s.putStored h i x) s) s

/-- The crest, and the lee, of a tile. -/
def State.restoreCrest (s : State) (t : Nat) : State :=
  let l := claimedBy s.loader.crest.toList t
  if l = [] ∧ claimedBy s.loader.lee.toList t = [] then s else s.restoreBank t (s.crestHalf t) true l
def State.restoreLee (s : State) (t : Nat) : State :=
  let l := claimedBy s.loader.lee.toList t
  if l = [] ∧ claimedBy s.loader.crest.toList t = [] then s else s.restoreBank t (s.leeHalf t) false l

end Sys2Proof.Machine
end

