-- ==== Sys2Proof/Machine/Power.lean ====
section
/-! DEFINITION. The power control (13 R333 to R359): row, common and F domains, hints, adaptive voltage and clocks, thermal response (log 39). -/

namespace Sys2Proof.Machine

/-! ### Contracts (R343 to R345) -/

/-- The effective wake limit of a cycle class of a die (R344). -/
def State.cycleLimit (s : State) (die cls : Nat) : Nat :=
  min (s.wakeNs false 0 die 0 cls) (s.closureWait die cls false - 200)

/-- The classes of a die that run an entry of a slot, in crest. -/
def State.classesOf (s : State) (die slot entry : Nat) : List Nat :=
  (List.range 16).filter fun c => let w := s.classWord die c false 0; bit w 0 && decide (fld w 2 1 = slot ∧ fld w 10 3 = entry)

/-- The effective wake limits of an entry of a crest image. -/
def State.entryLimits (s : State) (slot : Nat) (i : Image) (e : EntryBound) : List Nat :=
  if e.kind = 1 then (List.range 2).flatMap fun j => (s.classesOf j slot e.entry).map (s.cycleLimit j) else [s.wakeLimit false i slot e]

/-- The limits of every class whose entry uses a tile of some rows. -/
def State.rowLimits (s : State) (rows : List Nat) : List Nat :=
  s.loader.crest.toList.zipIdx.flatMap fun x => match x.1 with
    | none => []
    | some i => i.entries.flatMap fun e => if e.allTiles.any fun t => rows.contains (rowDom t) then s.entryLimits x.2 i e else []

/-- An exit latency meets every limit of some rows. -/
def State.latencyOk (s : State) (rows : List Nat) (ns : Nat) : Bool := (s.rowLimits rows).all fun l => decide (ns ≤ l)

/-- Bytes of one bank of a tile (R340). -/
def State.bankBytes (s : State) (t : Nat) : Nat := if s.leeEn t then 1673216 else 3278848

/-- The erg die whose stacks hold an image's store. -/
def State.storeDie (s : State) (i : Image) : Nat := match s.stackOf i.store with | some n => s.stackDie n | none => 0

/-- Wake time that a die's A common domain adds. -/
def State.commonNs (s : State) (k : Nat) : Nat := if s.power.commonA1.toList.getD k false then 3000 else 0

/-- The exit latency of a set of rows of a die in A3, with its A common domain in A1 or not (R340). -/
def State.a3Ns (s : State) (k : Nat) (rows : List Nat) (common : Bool) : Nat :=
  let bytes := (rows.flatMap domTiles).foldl (fun n t =>
    match (claimedBy s.loader.crest.toList t ++ claimedBy s.loader.lee.toList t).head? with
    | none => n
    | some i => n + s.bankBytes t * (if s.storeDie i = k then 1 else 2)) 0
  20000 + bytes / 64 + (if common then 3000 else 0)
def State.a3Latency (s : State) (k : Nat) (rows : List Nat) : Nat := s.a3Ns k rows (s.power.commonA1.toList.getD k false)

/-- The exit latency of a row in a state (R337, R345). -/
def State.exitNs (s : State) (d state : Nat) : Nat :=
  match state with
  | 0 => 0
  | 1 => 250 + s.commonNs (domDie d)
  | 2 => 12000 + s.commonNs (domDie d)
  | _ => s.a3Latency (domDie d) ((s.a3Set (domDie d)).filter (fun x => x != d) ++ [d])

/-! ### Row states (R337 to R341, R348) -/

/-- No tile of a row runs a job or has one waiting. -/
def State.rowIdle (s : State) (d : Nat) : Bool := (domTiles d).all fun t => (s.tile t).core.isNone && decide ((s.tile t).starts = [] ∧ (s.tile t).flight = [])

/-- A current reservation covers a tile of a row. -/
def State.rowReserved (s : State) (d : Nat) : Bool :=
  s.jobs.any fun j => j.reserved && decide (j.start ≤ s.time.now ∧ s.time.now < j.end_) && j.tiles.any fun t => decide (rowDom t = d)

/-- A row that may go deeper: it is there, holds its contents, and runs nothing. -/
def State.rowQuiet (s : State) (d : Nat) : Bool :=
  let r := s.row d
  isRowDom d && s.ergLive (domDie d) && !r.waking && !r.crestDue && !r.leeDue && s.rowIdle d

/-- The further conditions of A2 (R338, R347, R348). -/
def State.rowDeep (s : State) (d idle : Nat) : Bool :=
  let r := s.row d
  !s.rowReserved d && decide (s.slip.st = .idle ∧ 1 ≤ r.state) && (r.idleHint || decide (r.idleSince + idle ≤ s.time.now)) &&
  (match r.busyUntil with | some b => decide (b ≤ s.time.now) | none => true)

/-- A row enters a state. -/
def State.enterRow (s : State) (d state : Nat) : State :=
  let r := s.row d
  s.setRow d { r with state, idleHint := false, idleSince := if r.state = 0 then s.time.now else r.idleSince }

/-- ROW_ENTER_A1 (R338, R345). -/
def execRowEnterA1 (dom : Nat) (t : Time) (s : State) : Host.Outcome State Fault Refusal :=
  .next (
    let s := s.at t
    if s.rowQuiet dom ∧ (s.row dom).state = 0 ∧ s.latencyOk [dom] (s.exitNs dom 1) then s.enterRow dom 1 else s)

/-- The tiles of a row lose what their logic held (R337). -/
def State.dropBuffers (s : State) (d : Nat) : State :=
  (domTiles d).foldl (fun s t => s.modTile t fun x => { x with abuf := [], abufPoison := [], valid := 0, plane := none }) s

/-- ROW_ENTER_A2 (R338, R345). -/
def execRowEnterA2 (dom : Nat) (t : Time) (s : State) : Host.Outcome State Fault Refusal :=
  .next (
    let s := s.at t
    if s.rowQuiet dom ∧ (s.row dom).state = 1 ∧ bit (s.reg 0x1008) 16 ∧ s.rowDeep dom (10000 * fld (s.reg 0x1008) 7 0) ∧
      s.latencyOk [dom] (s.exitNs dom 2) then (s.enterRow dom 2).dropBuffers dom
    else s)

/-- No tile of a row has a bank that changes. -/
def State.rowSteady (s : State) (d : Nat) : Bool :=
  (domTiles d).all (fun t => (s.tile t).retiring.isNone && !(s.tile t).refreshing) && !s.loading

/-- Both banks of a row's tiles are lost. -/
def State.loseBanks (s : State) (d : Nat) : State :=
  (domTiles d).foldl (fun s t => s.modTile t fun x => { x with halves := #v[x.halves[0].lost, x.halves[1].lost] }) s

/-- A row's passage into A3 by MESA_RST_DOMAIN, from which it wakes at once (R591; log 39). -/
def State.rowPassage (s : State) (d : Nat) : State :=
  let s := s.setRow d { s.row d with passage := false }
  (((s.enterRow d 3).dropBuffers d).loseBanks d).wakeRow d

/-- ROW_ENTER_A3 (R338, R341, R345, R591). -/
def execRowEnterA3 (dom : Nat) (t : Time) (s : State) : Host.Outcome State Fault Refusal :=
  .next (
    let s := s.at t
    let set := s.a3Set (domDie dom) ++ [dom]
    if (s.row dom).passage ∧ s.rowQuiet dom ∧ s.rowSteady dom then s.rowPassage dom
    else if s.rowQuiet dom ∧ ((s.row dom).state = 1 ∨ (s.row dom).state = 2) ∧ bit (s.reg 0x1008) 17 ∧ !(s.row dom).noA3 ∧ s.rowSteady dom ∧
      s.rowDeep dom (1000000 * fld (s.reg 0x1008) 15 8) ∧ s.latencyOk set (s.a3Latency (domDie dom) set) then
      ((s.enterRow dom 3).dropBuffers dom).loseBanks dom
    else s)

/-- ROW_WAKE (R339): one of the reasons to wake the row has come, a host read of its TILE_CB windows among them, which has no row of its own (log 58). -/
def execRowWake (dom : Nat) (t : Time) (s : State) : Host.Outcome State Fault Refusal :=
  .next (
    let s := s.at t
    if isRowDom dom ∧ s.ergLive (domDie dom) then s.wakeRow dom else s)

/-! ### Oases (R350 to R355) -/

/-- The domain of an oasis, and its die. -/
def Oasis.dom : Oasis → Nat
  | .tile t => rowDom t
  | .router t => 32 + 17 * (t / 128)
def Oasis.die : Oasis → Nat
  | .tile t => t / 128
  | .router t => t / 128

/-- The limits of a domain in crest (R353): VMIN, VMAX, FMIN, FMAX. -/
def State.vmin (s : State) (d : Nat) : Nat := min 160 (fld (s.limitWord false (0x1400 + 8 * d)) 7 0)
def State.vmax (s : State) (d : Nat) : Nat := max (s.vmin d) (fld (s.limitWord false (0x1400 + 8 * d)) 15 8)
def State.fmin (s : State) (d : Nat) : Nat := fld (s.limitWord false (0x1404 + 8 * d)) 10 0
def State.fceil (s : State) (d : Nat) : Nat := max (s.fmin d) (fld (s.limitWord false (0x1404 + 8 * d)) 22 12)

/-- V_safe of a die at a clock, interpolated between 100 MHz steps and rounded up to a code (R350). -/
def vSafeAt (k mhz : Nat) : Nat :=
  let a := Config.vSafe k (mhz / 100)
  let b := Config.vSafe k (mhz / 100 + 1)
  min 160 (a + ((b - a) * (mhz % 100) + 99) / 100)

/-- The BOUND_CLOCK_MHZ of the reservation under which a tile runs a job. -/
def State.boundClock (s : State) (t : Nat) : Nat :=
  match (s.tile t).core with
  | none => 0
  | some c => match s.job c.id with
    | some j => if j.reserved then (match s.imageOf j.old j.image with | some i => i.clockMhz | none => 0) else 0
    | none => 0

/-- A tile holds a current reservation. -/
def State.tileHeld (s : State) (t : Nat) : Bool :=
  s.jobs.any fun j => j.reserved && decide (j.start ≤ s.time.now ∧ s.time.now < j.end_ ∧ t ∈ j.tiles)

/-- The sensors of a domain (R356): a stack counts toward the A common domain of its die. -/
def State.sensorDom (s : State) (n : Nat) : Option Nat :=
  if n < 68 then some (16 + n) else if n < 76 then some (n - 67) else if n < 84 then some (32 + 17 * s.stackDie (n - 76)) else none

/-- A domain has a sensor in a list. -/
def State.domIn (s : State) (l : List Nat) (d : Nat) : Bool := l.any fun n => decide (s.sensorDom n = some d)

/-- The clock that an oasis should run at (R354, R357). -/
def State.wantClock (s : State) (o : Oasis) : Nat :=
  match o with
  | .router _ => 1600
  | .tile t =>
    let base := max (s.fceil (rowDom t)) (s.boundClock t)
    if s.domIn s.power.warm (rowDom t) && !s.tileHeld t then min base (s.fmin (rowDom t)) else base

/-- The state of an oasis; one that nothing has adapted starts at max(V_safe(f), VMIN) (R350). -/
def State.oasisStart (s : State) (o : Oasis) : OasisSt :=
  let f := match o with | .tile t => s.fceil (rowDom t) | .router _ => 1600
  { volt := max (vSafeAt o.die f) (s.vmin o.dom), mhz := f }
def State.oasis (s : State) (o : Oasis) : OasisSt :=
  let (m, t) : SMap OasisSt × Nat := match o with | .tile t => (s.power.tileOasis, t.val) | .router t => (s.power.routerOasis, t.val)
  match m.find? fun e => decide (e.1 = t) with
  | some e => e.2
  | none => s.oasisStart o
def State.setOasis (s : State) (o : Oasis) (x : OasisSt) : State :=
  { s with power := match o with
    | .tile t => { s.power with tileOasis := mins t x s.power.tileOasis }
    | .router t => { s.power with routerOasis := mins t x s.power.routerOasis } }

/-- An oasis that is there and powered. -/
def State.oasisOn (s : State) (o : Oasis) : Bool :=
  s.ergLive o.die && (match o with | .tile t => decide ((s.row (rowDom t)).state < 2) | .router _ => true)

/-- A POLICY_OVERRIDDEN record (R355, R569): the oasis as a tile or as a router position. -/
def State.overridden (s : State) (o : Oasis) (kind value : Nat) : State :=
  let f : FaultInfo := { cls := 0x0006, sev := 0, kind := 0, index := 0, detail := o.dom + kind * 2 ^ 8 + value * 2 ^ 16 }
  (s.pwrFlag 0).fault (s.serving o.die) none (match o with
    | .tile t => { f with kind := 0, index := t }
    | .router t => { f with kind := 1, index := t / 128, addr := t % 128 })

/-- An excursion of a kind starts, goes on, or ends; one record at its start (R355). -/
def State.excursion (s : State) (o : Oasis) (kind value : Nat) (out : Bool) : State :=
  let x := s.oasis o
  if out then (if x.excursions.contains kind then s else (s.setOasis o { x with excursions := x.excursions ++ [kind] }).overridden o kind value)
  else if x.excursions.contains kind then s.setOasis o { x with excursions := x.excursions.filter fun k => k != kind } else s

/-- ROW_WAKE_DONE (R337, R340, R350): the row is in A0; out of A3 its restores are due, out of A2 or A3 its oases start again. -/
def execRowWakeDone (dom : Nat) (t : Time) (s : State) : Host.Outcome State Fault Refusal :=
  .next (
    let s := s.at t
    let r := s.row dom
    if !isRowDom dom ∨ !r.waking then s else
    let a3 := decide (r.state = 3)
    let s := s.setRow dom { r with state := 0, waking := false, crestDue := a3, leeDue := a3 }
    if r.state < 2 then s else
    (domTiles dom).foldl (fun s t =>
      if h : t < 512 then
        let o : Oasis := .tile ⟨t, h⟩
        let x := { s.oasisStart o with seen := true }
        (s.setOasis o x).excursion o 1 x.volt (decide (s.vmax dom < x.volt))
      else s) s)

/-- ROW_CREST_RESTORED (R340): the crest of every claimed tile of the row, in ascending tile number. -/
def execRowCrestRestored (dom : Nat) (t : Time) (s : State) : Host.Outcome State Fault Refusal :=
  .next (
    let s := s.at t
    if !(s.row dom).crestDue then s else
    let s := (domTiles dom).foldl (fun s t => s.restoreCrest t) s
    s.setRow dom { s.row dom with crestDue := false })

/-- ROW_LEE_RESTORED (R340): then the lee, and the writes held for it. -/
def execRowLeeRestored (dom : Nat) (t : Time) (s : State) : Host.Outcome State Fault Refusal :=
  .next (
    let s := s.at t
    let r := s.row dom
    if r.crestDue ∨ !r.leeDue then s else
    let s := (domTiles dom).foldl (fun s t => s.restoreLee t) s
    let s := s.setRow dom { s.row dom with leeDue := false }
    let s := (domTiles dom).foldl (fun s t => s.releaseTile t) s
    if (s.row dom).passage ∧ s.rowQuiet dom ∧ s.rowSteady dom then s.rowPassage dom else s)

/-- The exit latency counted for a row's wake (R337, R340, R349). -/
def State.countedNs (s : State) (d : Nat) : Nat :=
  let r := s.row d
  if r.crestDue ∨ r.state = 3 then s.a3Ns (domDie d) r.wakeSet r.wakeCommon else (if r.state = 2 then 12000 else 250) + (if r.wakeCommon then 3000 else 0)

/-- WAKE_LATE (R349): the row still wakes, or restores crest, after the exit latency counted for it; one record for a wake. -/
def execWakeLate (dom : Nat) (t : Time) (s : State) : Host.Outcome State Fault Refusal :=
  .next (
    let s := s.at t
    let r := s.row dom
    if !isRowDom dom ∨ !(r.waking || r.crestDue) ∨ r.late ∨ s.time.now ≤ r.wakeAt + s.countedNs dom then s
    else ((s.setRow dom { r with late := true }).pwrFlag 1).fault (s.serving (domDie dom)) none { cls := 0x0007, sev := 2, kind := 1, index := domDie dom, detail := dom })

/-! ### Common and F domains (R336, R342) -/

/-- COMMON_ENTER_A1 (R342). -/
def execCommonEnterA1 (dom : Nat) (t : Time) (s : State) : Host.Outcome State Fault Refusal :=
  .next (
    let s := s.at t
    let k := domDie dom
    if isCommonDom dom ∧ s.ergLive k ∧ ((List.range 16).all fun r => decide (2 ≤ (s.row (16 + 17 * k + r)).state) && !(s.row (16 + 17 * k + r)).waking) ∧
      (s.applyUnit k).binds = [] ∧ (s.applyUnit k).waiting = [] ∧
      (s.jobs.all fun j => !(j.reserved && j.tiles.any fun t => decide (t / 128 = k))) ∧
      (s.net.hops.all fun h => decide (s.nodeDie h.place ≠ k)) then
      { s with power := { s.power with commonA1 := s.power.commonA1.setIfInBounds k true } }
    else s)

/-- COMMON_WAKE (R342): a flit has arrived at the die, or a row of it wakes. -/
def execCommonWake (dom : Nat) (t : Time) (s : State) : Host.Outcome State Fault Refusal :=
  .next (
    let s := s.at t
    let k := domDie dom
    if isCommonDom dom ∧ ((s.net.hops.any fun h => decide (s.nodeDie h.place = k)) ∨
      ((List.range 16).any fun r => (s.row (16 + 17 * k + r)).waking || decide ((s.row (16 + 17 * k + r)).state < 2))) then
      { s with power := { s.power with commonA1 := s.power.commonA1.setIfInBounds k false } }
    else s)

/-- An F domain is on as configuration requires (R336). -/
def State.fWanted (s : State) (j f : Nat) : Bool :=
  let eth := (List.range 4).any fun p => s.ethEn j p
  s.mesaLive j && (match f with
    | 0 => decide (j = 0) || eth
    | 1 => eth
    | 2 => (List.range 24).any fun n => s.camEn j n || s.dwWatch j n
    | _ => true)

/-- F_DOMAIN_SWITCH_DONE (R336, R588): logic that powers on starts from its reset state. -/
def execFDomainSwitchDone (dom : Nat) (t : Time) (s : State) : Host.Outcome State Fault Refusal :=
  .next (
    let s := s.at t
    if dom < 1 ∨ 8 < dom then s else
    let j := (dom - 1) / 4
    let f := (dom - 1) % 4
    let on := s.fWanted j f
    let was := s.power.fOn.toList.getD (dom - 1) false
    let s := { s with power := { s.power with fOn := s.power.fOn.setIfInBounds (dom - 1) on } }
    if on && !was then s.modDie j fun d => match f with
      | 1 => { d with ethUp := .replicate 4 false }
      | 2 => { d with cam := .replicate 24 {}, locked := .replicate 8 false }
      | _ => d
    else s)

/-! ### Hints (R224, R256, R347) -/

/-- Idle soon: the row may skip its idle time. -/
def State.idleSoon (s : State) (d : Nat) : State :=
  if isRowDom d && s.ergLive (domDie d) then s.setRow d { s.row d with idleHint := true } else s

/-- Busy soon: a row in A2 or A3 wakes, and stays in A1 or shallower for 1 ms. -/
def State.busySoon (s : State) (d : Nat) : State :=
  if isRowDom d && s.ergLive (domDie d) then
    let s := if 2 ≤ (s.row d).state then s.wakeRow d else s
    s.setRow d { s.row d with busyUntil := some (s.time.now + 1000000) }
  else s

/-- HINT_REG_NO_CHANGE (R347). -/
def execHintRegNoChange (_dom : Nat) (s : State) : Host.Outcome State Fault Refusal := .next s

/-- HINT_REG_IDLE_SOON (R347). -/
def execHintRegIdleSoon (dom : Nat) (t : Time) (s : State) : Host.Outcome State Fault Refusal := .next ((s.at t).idleSoon dom)

/-- HINT_REG_BUSY_SOON (R347). -/
def execHintRegBusySoon (dom : Nat) (t : Time) (s : State) : Host.Outcome State Fault Refusal := .next ((s.at t).busySoon dom)

/-- BUSY_HOLD_END (R347). -/
def execBusyHoldEnd (dom : Nat) (t : Time) (s : State) : Host.Outcome State Fault Refusal :=
  .next (
    let s := s.at t
    match (s.row dom).busyUntil with
    | some b => if b ≤ s.time.now then s.setRow dom { s.row dom with busyUntil := none } else s
    | none => s)

/-- PWR_NO_CHANGE (R256). -/
def execPwrNoChange (tile : Fin 512) (g : Issue) (_a : Fin 32) (s : State) : Host.Outcome State Fault Refusal := .next (s.issueCore tile g fun c => c)

/-- PWR_IDLE_SOON (R224, R256). -/
def execPwrIdleSoon (tile : Fin 512) (g : Issue) (a : Fin 32) (s : State) : Host.Outcome State Fault Refusal :=
  .next (s.issue tile g anyEnc fun c s => .done c (s.idleSoon (c.s a).toNat))

/-- PWR_BUSY_SOON (R224, R256). -/
def execPwrBusySoon (tile : Fin 512) (g : Issue) (a : Fin 32) (s : State) : Host.Outcome State Fault Refusal :=
  .next (s.issue tile g anyEnc fun c s => .done c (s.busySoon (c.s a).toNat))

/-! ### Adaptive voltage and clocks (R350 to R355) -/

/-- TIMING_ALARM (R351): while an alarm stands every clock edge is stretched, which changes timing only. -/
def execTimingAlarm (oasis : Oasis) (on : Bool) (s : State) : Host.Outcome State Fault Refusal :=
  .next (if s.oasisOn oasis then s.setOasis oasis { s.oasis oasis with alarm := on } else s)

/-- The voltage, the quiet windows and the alarm windows after one window (R352; log 68). -/
def OasisSt.window (x : OasisSt) (alarm : Bool) (margin target vmin : Nat) : OasisSt :=
  if alarm then { x with volt := min 160 (x.volt + 4), quiet := 0, topAlarms := x.topAlarms + 1 }
  else if target + 4 < margin then
    let q := x.quiet + 1
    { x with volt := if 16 ≤ q then max vmin (x.volt - 1) else x.volt, quiet := q, topAlarms := 0 }
  else { x with quiet := 0, topAlarms := 0 }

/-- AVS_WINDOW (R352, R353, R355); the first window since cold reset also looks at the start voltage (R350; log 59). -/
def execAvsWindow (oasis : Oasis) (alarm : Bool) (margin : Nat) (t : Time) (s : State) : Host.Outcome State Fault Refusal :=
  .next (
    let s := s.at t
    if !s.oasisOn oasis then s else
    let d := oasis.dom
    let x := s.oasis oasis
    let s := if x.seen then s else (s.setOasis oasis { x with seen := true }).excursion oasis 1 x.volt (decide (s.vmax d < x.volt))
    let x := (s.oasis oasis).window alarm margin (fld (s.reg 0x1014) 4 0) (s.vmin d)
    let slow := decide (x.volt = 160 ∧ 4 ≤ x.topAlarms)
    let f := if slow then max 400 (x.mhz * 95 / 100 / 5 * 5) else x.mhz
    let s := s.setOasis oasis { x with mhz := f }
    let s := s.excursion oasis 0 x.volt (decide (s.vmax d < x.volt) && (alarm || x.excursions.contains 0))
    let s := if x.volt ≤ s.vmax d then s.excursion oasis 1 x.volt false else s
    match oasis with
    | .tile _ => s.excursion oasis 3 f (decide (f < s.fmin d) && (slow || x.excursions.contains 3))
    | .router _ => s)

/-- CLOCK_CHANGE (R350, R354): the voltage is raised first when the clock rises, then the clock takes its new value. -/
def execClockChange (oasis : Oasis) (t : Time) (s : State) : Host.Outcome State Fault Refusal :=
  .next (
    let s := s.at t
    if !s.oasisOn oasis then s else
    let d := oasis.dom
    let x := s.oasis oasis
    let f := match x.throttle with | some m => min m (s.wantClock oasis) | none => s.wantClock oasis
    let v := if x.mhz < f then max x.volt (vSafeAt oasis.die f) else x.volt
    let s := s.setOasis oasis { x with mhz := f, volt := v }
    let s := s.excursion oasis 1 v (decide (s.vmax d < v) && (decide (x.volt < v) || x.excursions.contains 1))
    match oasis with
    | .tile _ => (s.excursion oasis 2 f (decide (s.fceil d < f))).excursion oasis 3 f (decide (f < s.fmin d) && x.excursions.contains 3)
    | .router _ => s)

/-! ### Temperatures (R356, R357) -/

/-- The oases of a domain. -/
def domOases (d : Nat) : List Oasis :=
  if isRowDom d then (domTiles d).filterMap fun t => if h : t < 512 then some (.tile ⟨t, h⟩) else none
  else if isCommonDom d then (List.range 128).filterMap fun n => if h : 128 * domDie d + n < 512 then some (.router ⟨128 * domDie d + n, h⟩) else none
  else []

/-- A threshold acts on a sensor, with 5 K of hysteresis. -/
def acts (was : Bool) (temp : Int) (deg : Nat) : Bool := decide ((4 * deg : Nat) ≤ temp) || (was && decide ((4 * deg : Nat) - 20 < temp))

/-- The power-down sequence starts (R604); one that has started runs on. -/
def State.startDown (s : State) (cause : Nat) : State :=
  if s.unit.phase ≠ .running then s else
  { s with unit := { s.unit with
      phase := .powerDown, cause, step := 0, stStart := s.time.now, rails := 0
      attachedAtStart := (List.range 4).foldl (fun m c => if (s.port c).attached then m + 2 ^ c else m) 0 } }

/-- T_TRIP (R357). -/
def State.trip (s : State) (n : Nat) : State :=
  match s.sensorDom n with
  | none => s
  | some d =>
    if 16 ≤ d then
      let k := domDie d
      if !s.ergLive k then s else
      let s := (s.pwrFlag 4).fault (s.serving k) none { cls := 0x0030, sev := 3, kind := 1, index := k, detail := n }
      let s := { s with power := { s.power with tripped := s.power.tripped ++ [k] } }
      s.ergOut k 0x0E
    else
      let j := (d - 1) / 4
      if !s.mesaLive j ∨ s.unit.phase ≠ .running then s
      else ((s.pwrFlag 4).fault j none { cls := 0x0030, sev := 3, kind := 2, index := j, detail := n }).startDown 3

/-- T_LIMIT in one sample: every oasis of the domain loses 10 % of its clock (log 68). -/
def State.throttle (s : State) (d : Nat) : State :=
  (domOases d).foldl (fun s o =>
    let x := s.oasis o
    let f := max 400 (x.mhz * 90 / 100 / 5 * 5)
    s.setOasis o { x with mhz := f, throttle := some f }) s

/-- The end of T_LIMIT (log 68). -/
def State.unthrottle (s : State) (d : Nat) : State := (domOases d).foldl (fun s o => s.setOasis o { s.oasis o with throttle := none }) s

/-- The sensor's domain or die is there. -/
def State.sensorOn (s : State) (n : Nat) : Bool :=
  if n < 68 then s.ergLive (n / 17) else if n < 76 then s.mesaLive ((n - 68) / 4) else decide (n < 84) && s.stackLive (n - 76)

/-- What a temperature gives before the trip is looked at: the warning and limit flags, and the throttle of T_LIMIT (R356). -/
def State.senseHeat (s : State) (x : Nat × Int) (warm hot : Bool) : State :=
  let n := x.1
  let wasWarm := s.power.warm.contains n
  let wasHot := s.power.hot.contains n
  let put (l : List Nat) (b : Bool) : List Nat := if b then (if l.contains n then l else l ++ [n]) else l.filter fun k => k != n
  let s := { s with power := { s.power with
    temps := (s.power.temps.filter fun e => decide (e.1 ≠ n)) ++ [x], warm := put s.power.warm warm, hot := put s.power.hot hot } }
  let s := if warm && !wasWarm then s.pwrFlag 2 else s
  match s.sensorDom n with
  | none => s
  | some d =>
    if hot then
      let s := s.throttle d
      if wasHot then s else
      match (domOases d).head? with
      | some o => (s.pwrFlag 3).overridden o 4 (s.oasis o).mhz
      | none => s.pwrFlag 3
    else if wasHot && !s.domIn s.power.hot d then s.unthrottle d else s

/-- One sensor's reading. -/
def State.sense (s : State) (x : Nat × Int) : State :=
  if !s.sensorOn x.1 then s else
  let limit := fld (s.reg 0x100C) 15 8
  let warn := min (fld (s.reg 0x100C) 7 0) limit
  let s := s.senseHeat x (acts (s.power.warm.contains x.1) x.2 warn) (acts (s.power.hot.contains x.1) x.2 limit)
  if (480 : Int) ≤ x.2 then s.trip x.1 else s

/-- THERMAL_SAMPLE (R356, R357). -/
def execThermalSample (temps : List (Nat × Int)) (t : Time) (s : State) : Host.Outcome State Fault Refusal :=
  .next (temps.foldl State.sense (s.at t))

end Sys2Proof.Machine
end

