-- ==== Sys2Proof/Machine/Dunewatch.lean ====
section
/-! DEFINITION. Dunewatch (14 R360 to R378): decimation, choice of frames, the last layer, the outputs and what they drive. -/

namespace Sys2Proof.Machine

/-- A word of DW_ in the bank that a station time selects (R369). -/
def State.dwWord (s : State) (old : Bool) (off : Nat) : Word := s.bankWord 0 old (0x6000 + off)

/-- DW_CTL.EN, on a module with option D. -/
def State.dwOn (s : State) : Bool := s.fuses.optD && bit (s.reg 0x6000) 0

/-! ### Source and decimation (R361 to R364) -/

/-- SX and SY; 0 acts as 1 (R363). -/
def dwStep (w : Word) : Nat × Nat := (max 1 (fld w 5 0), max 1 (fld w 13 8))

/-- One output pixel: the rounded mean of its block (R363). -/
def dwPixel (luma : List Byte) (width x y sx sy : Nat) : Nat :=
  let sum := (List.range sy).foldl (fun n j => ((luma.drop ((y + j) * width + x)).take sx).foldl (fun (n : Nat) (b : Byte) => n + b.toNat) n) 0
  (sum + sx * sy / 2) / (sx * sy)

/-- The 80 × 60 image (R363). -/
def decimate (luma : List Byte) (width x0 y0 sx sy : Nat) : List Nat :=
  (List.range 60).flatMap fun v => (List.range 80).map fun u => dwPixel luma width (x0 + sx * u) (y0 + sy * v) sx sy

/-- A frame is large enough for the region, and undamaged (R363). -/
def dwGood (xy step : Word) (width height : Nat) (damaged : Bool) : Bool :=
  !damaged && decide (fld xy 12 0 + 80 * (dwStep step).1 ≤ width ∧ fld xy 28 16 + 60 * (dwStep step).2 ≤ height)

/-! ### The last layer (R365 to R367) -/

/-- Channel 1: the absolute difference to the previous processed frame, zero when there is none (R365). -/
def dwDiff (image : List Nat) : Option (List Nat) → List Nat
  | none => image.map fun _ => 0
  | some p => List.zipWith (fun a b => max a b - min a b) image p

/-- The input of the last layer (R366). -/
def dwInput (hist : List (List Nat)) : List Nat := (List.range 4).flatMap fun j => hist.getD j (List.replicate 64 0)

/-- The score of a class (R367). -/
def State.dwScore (s : State) (old : Bool) (x : List Nat) (c : Nat) : Int :=
  let weight (i : Nat) : Int := toSigned 8 (fld (s.dwWord old (0x800 + 256 * c + i / 4 * 4)) (8 * (i % 4) + 7) (8 * (i % 4)))
  sat32 ((x.zipIdx).foldl (fun (n : Int) (e : Nat × Nat) => n + weight e.2 * (e.1 : Int)) (toSigned 32 (s.dwWord old (0xA0 + 4 * c)).toNat))

/-- The class of the largest score, the lowest index on a tie (R367). -/
def dwTop (scores : List Int) : Nat :=
  (scores.zipIdx.foldl (fun (b : Int × Nat) (e : Int × Nat) => if b.1 < e.1 then e else b) (scores.getD 0 0, 0)).2

/-- The detected class (R367). -/
def State.dwDetect (s : State) (old : Bool) (scores : List Int) : Nat :=
  let top := dwTop scores
  if 0 < top ∧ toSigned 32 (s.dwWord old (0x60 + 4 * top)).toNat ≤ scores.getD top 0 then top else 0

/-- MARGIN (R378): the top score less the second-largest. -/
def dwMargin (scores : List Int) : Int :=
  let top := dwTop scores
  let rest := (scores.zipIdx.filter fun e => decide (e.2 ≠ top)).map Prod.fst
  min 0x7FFFFFFF (scores.getD top 0 - rest.foldl max (rest.headD 0))

/-! ### Outputs (R368, R370, R378) -/

/-- A change of an output. -/
structure DwChange where
  k : Nat
  cls : Nat
  assert : Bool
  pulse : Bool
  lost : Bool
  feed : Bool
  score : Nat
  stamp : Stamp
  margin : Nat
  old : Bool
  deriving DecidableEq, Repr

/-- The record of a change (R378). -/
def State.dwRecord (s : State) (c : DwChange) : List Byte :=
  [0x31, BitVec.ofNat 8 (b2n c.assert + 2 * b2n c.pulse + 4 * b2n c.lost + 8 * b2n s.replaying + 16 * b2n c.feed), BitVec.ofNat 8 c.k, BitVec.ofNat 8 c.cls] ++
  leBytes 4 c.score ++ leBytes 8 c.stamp.toNat ++ leBytes 4 s.dw.seq ++ leBytes 8 (s.digestOf c.old) ++ leBytes 4 c.margin ++
  leBytes 8 s.time.now ++ leBytes 8 0

/-- Busy-soon hints to the rows of DW_HINT_ROWS (R370, R377). -/
def State.dwHints (s : State) (old : Bool) : State :=
  let rows := pairVal (s.dwWord old 0x38) (s.dwWord old 0x3C)
  ((List.range 64).filter fun n => rows.testBit n).foldl (fun s n => s.busySoon (16 + 17 * (n / 16) + n % 16)) s

/-- An output asserts, deasserts or pulses (R370); sentinel sources stay inactive in replay (R373). -/
def State.dwChange (s : State) (c : DwChange) : State :=
  let w := s.dwWord c.old (0x40 + 4 * c.k)
  let rise := c.assert || c.pulse
  let out := s.dw.out.toList.getD c.k {}
  let s := if c.pulse then s else { s with dw := { s.dw with out := s.dw.out.setIfInBounds c.k { out with level := c.assert } } }
  let s := if s.replaying then s else { s with dw := { s.dw with sentinel := s.dw.sentinel ++ [(c.k, !rise, c.stamp)] } }
  let s := if bit w 6 then s.makeRecord 0 0 none (s.dwRecord c) else s
  let s := if bit w 4 && rise then s.signal (fld (s.reg 0x6020) 10 0) else s
  if bit w 5 && rise then s.dwHints c.old else s

/-- The counters of an output after one processed frame, and the change it makes: `some true` asserts or pulses, `some false` deasserts (R368). -/
def DwOut.frame (o : DwOut) (cls d : Nat) (hyst : Word) : DwOut × Option Bool :=
  if cls = 0 then (o, none)
  else if cls < 4 then
    let o := if d = cls then { o with on := o.on + 1, off := 0 } else { o with on := 0, off := o.off + 1 }
    (o, if !o.level ∧ max 1 (fld hyst 3 0) ≤ o.on then some true
        else if o.level ∧ max 1 (fld hyst 7 4) ≤ o.off then some false
        else none)
  else if d = cls then
    ({ o with gap := some 1 }, match o.gap with | some g => if max 1 (fld hyst 11 8) < g then some true else none | none => some true)
  else ({ o with gap := o.gap.map fun g => g + 1 }, none)

/-- The frame's last layer has its scores: DW_LAST, the capture, and the outputs in ascending number (R366 to R370, R377). -/
def State.dwFinish (s : State) (j : DwJob) : State :=
  let old := if j.feed then s.usesOld j.bankAt else s.usesOld (stampTime j.stamp)
  let f := (List.range 64).map fun n => (Config.dwFeature j.image (dwDiff j.image s.dw.prev) n).toNat
  let hist := (f :: s.dw.hist).take 4
  let x := dwInput hist
  let scores := (List.range 8).map fun c => s.dwScore old x c
  let top := dwTop scores
  let d := s.dwDetect old scores
  let score := scores.getD top 0
  let capture := bit (s.reg 0x6000) 1 && !s.dw.captured
  let s := { s with dw := { s.dw with
    job := none, prev := some j.image, hist, top, det := d, score
    embed := if capture then x else s.dw.embed
    captured := s.dw.captured || capture
    lastStamp := if j.feed then s.dw.lastStamp else j.stamp } }
  let s := if capture then s.dwFlag 3 else s
  (List.range 4).foldl (fun s k =>
    let cls := fld (s.dwWord old (0x40 + 4 * k)) 2 0
    let r := (s.dw.out.toList.getD k {}).frame cls d (s.dwWord old (0x80 + 4 * cls))
    let s := { s with dw := { s.dw with out := s.dw.out.setIfInBounds k r.1 } }
    match r.2 with
    | none => s
    | some up =>
      s.dwChange { k, cls, assert := up && decide (cls < 4), pulse := decide (4 ≤ cls), lost := false, feed := j.feed
                   score := toTwos 32 score, stamp := if j.feed then 0 else j.stamp, margin := toTwos 32 (dwMargin scores), old }) s

/-- An inference that still runs ends before the next frame is taken: the choice of frames does not depend on how busy Dunewatch is (R364). -/
def State.dwSettle (s : State) : State := match s.dw.job with | some j => s.dwFinish j | none => s

/-- A frame is processed: it is counted, and its inference starts (R364, R377, R378). -/
def State.dwTake (s : State) (j : DwJob) : State :=
  let s := s.setReg 0x600C (s.reg 0x600C + 1)
  { s with dw := { s.dw with job := some j, seq := (s.dw.seq + 1) % 2 ^ 32 } }

/-- DW_FRAME (R361 to R364, R369, R372, R373): the last line of a frame of the watched stream has arrived, `luma` row by row. -/
def execDwFrame (stream : Fin 24) (stamp : Stamp) (width height : Nat) (luma : List Byte) (damaged : Bool) (t : Time) (s : State) :
    Host.Outcome State Fault Refusal :=
  .next (
    let s := s.at t
    let old := s.usesOld (stampTime stamp)
    let src := s.dwWord old 0x10
    if !s.dwOn ∨ !s.fuses.optV ∨ s.replaying ∨ bit src 0 ∨ fld src 12 8 ≠ stream.val ∨ s.power.fOn[2] = false then s else
    let xy := s.dwWord old 0x14
    let st := s.dwWord old 0x18
    if !dwGood xy st width height damaged then s.dwFlag 1 else
    let s := s.dwSettle
    let lost := s.dw.lost
    let s := { s with dw := { s.dw with lost := false, lastGood := some stamp, watchFrom := stampTime stamp } }
    let due := match s.dw.lastProcessed with
      | none => true
      | some p => lost || decide (stampTime p + 1000000 * fld src 31 16 ≤ stampTime stamp)
    if !due then s else
    let image := decimate luma width (fld xy 12 0) (fld xy 28 16) (dwStep st).1 (dwStep st).2
    ({ s with dw := { s.dw with lastProcessed := some stamp } }).dwTake { image, stamp, feed := false, bankAt := stampTime stamp })

/-- DW_FEED_GO (R364, R369, R373, R377): the frame in the DW_FEED window, without a stamp. -/
def execDwFeedGo (t : Time) (s : State) : Host.Outcome State Fault Refusal :=
  .next (
    let s := s.at t
    if !s.fuses.optD then s.absentAccess 9
    else if !s.dwOn ∨ !bit (s.bankWord 0 false 0x6010) 0 ∨ s.dw.job.isSome then s.dwFlag 2
    else s.dwTake { image := (s.dw.feed.bytes 0 4800).map BitVec.toNat, stamp := 0, feed := true, bankAt := s.time.now })

/-- DW_INFERENCE_DONE (R365 to R371, R377). -/
def execDwInferenceDone (t : Time) (s : State) : Host.Outcome State Fault Refusal := .next ((s.at t).dwSettle)

/-- DW_ENABLE (R366, R377): setting EN starts with an empty history. -/
def execDwEnable (t : Time) (s : State) : Host.Outcome State Fault Refusal :=
  .next (
    let s := s.at t
    if !s.fuses.optD then s.absentAccess 9
    else if s.dwOn then s
    else
      let s := s.setReg 0x6000 (s.reg 0x6000 ||| oneBit 0)
      { s with dw := { s.dw with
          job := none, prev := none, hist := [], out := .replicate 4 {}, lastProcessed := none, lastGood := none
          watchFrom := s.time.now, lost := false, seq := 0 } })

/-- A value that no rule gives a record's field (log 51). -/
def State.dwOpen (s : State) (field : Nat) : Nat := (Config.dwOpenField s.free field).toNat

/-- DW_DISABLE (R377): clearing EN abandons an inference, clears the history, and deasserts every asserted output. -/
def execDwDisable (t : Time) (s : State) : Host.Outcome State Fault Refusal :=
  .next (
    let s := s.at t
    if !s.fuses.optD then s.absentAccess 9
    else if !s.dwOn then s
    else
      let s := s.setReg 0x6000 (s.reg 0x6000 &&& ~~~(oneBit 0))
      let s := { s with dw := { s.dw with job := none, prev := none, hist := [], lost := false } }
      (List.range 4).foldl (fun s k =>
        if (s.dw.out.toList.getD k {}).level then
          let s' := s.dwChange { k, cls := fld (s.dwWord false (0x40 + 4 * k)) 2 0, assert := false, pulse := false, lost := false, feed := false
                                 score := s.dwOpen 0, stamp := BitVec.ofNat 64 (s.dwOpen 1), margin := s.dwOpen 2, old := false }
          { s' with free := s.free + 1 }
        else s) s)

/-- DW_FREEZE (R377): setting FREEZE arms the capture of the next processed frame's embedding; clearing it lets a later setting arm again. -/
def execDwFreeze (on : Bool) (s : State) : Host.Outcome State Fault Refusal :=
  .next (
    if !s.fuses.optD then s.absentAccess 9
    else if on = bit (s.reg 0x6000) 1 then s
    else
      let s := s.setReg 0x6000 (if on then s.reg 0x6000 ||| oneBit 1 else s.reg 0x6000 &&& ~~~(oneBit 1))
      { s with dw := { s.dw with captured := false } })

/-- DW_SOURCE_LOST (R372, R373): no good frame for DW_TIMEOUT; every enabled output goes to its LOST_STATE. -/
def execDwSourceLost (t : Time) (s : State) : Host.Outcome State Fault Refusal :=
  .next (
    let s := s.at t
    if !s.dwOn ∨ bit (s.bankWord 0 false 0x6010) 0 ∨ s.replaying ∨ s.dw.lost ∨
      s.time.now < s.dw.watchFrom + 1000000 * fld (s.bankWord 0 false 0x601C) 15 0 then s
    else
      let s := s.dwFlag 0
      let s := { s with dw := { s.dw with lost := true, prev := none, hist := [] } }
      (List.range 4).foldl (fun s k =>
        let w := s.dwWord false (0x40 + 4 * k)
        if fld w 2 0 = 0 ∨ (s.dw.out.toList.getD k {}).level = bit w 3 then s else
        let s' := s.dwChange { k, cls := fld w 2 0, assert := bit w 3, pulse := false, lost := true, feed := false, score := 0
                               stamp := match s.dw.lastGood with | some st => st | none => BitVec.ofNat 64 (s.dwOpen 1)
                               margin := s.dwOpen 2, old := false }
        { s' with free := s.free + 1 }) s)

end Sys2Proof.Machine
end

