-- ==== Sys2Proof/Machine/TimeUnit.lean ====
section
/-! DEFINITION. Station time, the PTP unit and the replay clock (03 R66, R67, R93, R94; 15 R404 to R407). -/

namespace Sys2Proof.Machine

/-! ### The live counter -/

/-- The station time counter, which a replay sets aside (R93), and whether it runs. -/
def TimeUnit.clock (u : TimeUnit) : Time := if u.replay then u.live else u.now
def TimeUnit.runs (u : TimeUnit) : Bool := if u.replay then u.liveRunning else u.running
def TimeUnit.setClock (u : TimeUnit) (n : Time) : TimeUnit := if u.replay then { u with live := n } else { u with now := n }

/-- The counter as an event at `t` finds it: held until it starts, and never running backward (R66, R404). -/
def State.tick (s : State) (t : Time) : State :=
  if s.time.runs then { s with time := s.time.setClock (max s.time.clock t) } else s

/-- MESA_TIME_CTL. -/
def State.timeCtl (s : State) : Word := s.reg 0x4010

/-- An event of MESA_TIME_STS bit `b`; the time vector reports it (R384; log 54). -/
def State.timeFlag (s : State) (b : Nat) : State :=
  let s := s.setFlag 0x4014 b
  if bit s.timeCtl 27 then s.signal (fld s.timeCtl 26 16) else s

/-- The servo leaves LOCKED, or another state, for `v`. -/
def State.setServo (s : State) (v : Servo) : State :=
  let s' := { s with time := { s.time with servo := v, goodSyncs := 0 } }
  if s.time.servo = .locked ∧ v ≠ .locked then s'.timeFlag 5 else s'

/-- Load the counter and start it. -/
def State.startTime (s : State) (n : Time) (servo : Servo) (epoch : Nat) : State :=
  let u := { s.time.setClock n with servo, epoch, goodSyncs := 0 }
  { s with time := if u.replay then { u with liveRunning := true } else { u with running := true } }

/-- TIME_START (R404): with SOURCE FREE a held counter is loaded with MESA_TIME_START and runs undisciplined. -/
def execTimeStart (s : State) : Host.Outcome State Fault Refusal :=
  .next (
    if s.time.runs ∨ !bit s.timeCtl 1 then s
    else s.startTime (pairVal (s.reg 0x4028) (s.reg 0x402C)) .stopped (pairVal (s.reg 0x4008) (s.reg 0x400C)))

/-- TIME_CONFIG_CHANGE (R45, R404, R405): START is not kept; a write that sets BC_EN on rev A is discarded; a change to bits [15:2] returns the servo to ACQUIRING. -/
def execTimeConfigChange (value : Word) (s : State) : Host.Outcome State Fault Refusal :=
  .next (
    if bit value 4 ∧ s.fuses.series = 1 then s.absentAccess 12
    else
      let changed := decide (fld value 15 2 ≠ fld s.timeCtl 15 2)
      let s := s.setReg 0x4010 (value &&& 0x0FFFFFFE)
      if changed ∧ s.time.servo ≠ .stopped then s.setServo .acquiring else s)

/-! ### The servo (R404, R406) -/

/-- The slave port is enabled for PTP and its link is up (R405). -/
def State.slaveUp (s : State) : Bool :=
  let p := fld s.timeCtl 7 5
  s.mesaLive (p / 4) && s.ethEn (p / 4) (p % 4) && bit (s.reg (ethBase (p / 4) (p % 4))) 3 && ((s.die (p / 4)).ethUp.toList.getD (p % 4) false)

/-- A forward step that is larger than MESA_TIME_STEP_MAX, or whose instant has not come, is refused; the servo slews instead (R407). -/
def State.stepRefused (s : State) (n : Int) : State := ({ s with time := { s.time with step := none, slew := n } }).timeFlag 4

/-- The servo after one Sync (R406). -/
def State.servoSync (s : State) (offset : Int) : State :=
  let good := decide (offset.natAbs ≤ 500)
  let n := if good then s.time.goodSyncs + 1 else 0
  let freq := max (-250000) (min 250000 (Config.servoFreq s.time.freq offset))
  let s := { s with time := { s.time with lastSync := s.time.clock, offset, freq, goodSyncs := n } }
  let s := if 8 ≤ n then { s with time := { s.time with servo := .locked } }
           else if s.time.servo = .locked ∧ !good then s.setServo .acquiring else s
  if (100000 : Int) < offset ∧ s.time.step.isNone then
    if offset.toNat ≤ (s.reg 0x4020).toNat then { s with time := { s.time with step := some (offset.toNat, s.time.clock, false) } }
    else s.stepRefused offset
  else { s with time := { s.time with slew := offset } }

/-- PTP_SYNC (R404, R406): the first accepted Sync starts station time; a later one is measured by the servo. -/
def execPtpSync (master : Int) (t : Time) (s : State) : Host.Outcome State Fault Refusal :=
  .next (
    if bit s.timeCtl 1 ∨ !s.slaveUp then s else
    let ptp := master + s.time.pathDelay
    if !s.time.runs then
      let set := pairVal (s.reg 0x4008) (s.reg 0x400C)
      let epoch := if set = 0 then ptp.toNat / 1000000000 * 1000000000 else set
      let s := (s.setReg 0x4008 (loWord epoch)).setReg 0x400C (hiWord epoch)
      if ptp < (epoch : Int) then s
      else
        let s := s.startTime (ptp.toNat - epoch) .acquiring epoch
        { s with time := { s.time with lastSync := s.time.clock, freq := 0, offset := 0 } }
    else
      let s := s.tick t
      s.servoSync (ptp - (s.time.epoch : Int) - (s.time.clock : Int)))

/-- PTP_SYNC_TIMEOUT (R406): holdover; the counter runs on with the last frequency correction. -/
def execPtpSyncTimeout (t : Time) (s : State) : Host.Outcome State Fault Refusal :=
  .next (
    let s := s.tick t
    if bit s.timeCtl 1 ∨ !s.time.runs ∨ s.time.servo = .stopped then s else s.setServo .holdover)

/-- A data set compares better than the master followed (R405): field by field, the smaller value first. -/
def betterMaster : List Nat → List Nat → Bool
  | [], _ => false
  | _, [] => true
  | a :: as, b :: bs => decide (a < b) || (decide (a = b) && betterMaster as bs)

/-- PTP_ANNOUNCE_RECEIVE (R405). -/
def execPtpAnnounceReceive (master : List Nat) (t : Time) (s : State) : Host.Outcome State Fault Refusal :=
  .next (
    let s := s.tick t
    if bit s.timeCtl 1 ∨ !s.slaveUp then s else
    let take : Bool := match s.time.master with | none => true | some m => betterMaster master m
    { s with time := { s.time with
        lastAnnounce := if take ∨ s.time.master = some master then s.time.clock else s.time.lastAnnounce
        master := if take then some master else s.time.master } })

/-- PTP_DELAY_RESPONSE (R405): the path delay of the slave port. -/
def execPtpDelayResponse (delay : Int) (s : State) : Host.Outcome State Fault Refusal :=
  .next (if bit s.timeCtl 1 ∨ !s.slaveUp then s else { s with time := { s.time with pathDelay := delay } })

/-- PTP_MASTER_SYNC_SEND (R405): a boundary clock serves every other port with PTP_EN. -/
def execPtpMasterSyncSend (die : Fin 2) (port : Fin 4) (t : Time) (s : State) : Host.Outcome State Fault Refusal :=
  .next (
    let s := s.tick t
    let n := 4 * die.val + port.val
    if bit s.timeCtl 1 ∨ !bit s.timeCtl 4 ∨ s.fuses.series = 1 ∨ n = fld s.timeCtl 7 5 ∨ !s.time.runs ∨ !s.mesaLive die ∨ !s.ethEn die port ∨
      !bit (s.reg (ethBase die port)) 3 ∨ s.ingress[die].ethUp[port] = false then s
    else
      let was := match s.time.syncsSent.find? fun e => decide (e.1 = n) with | some e => e.2 | none => 0
      { s with time := { s.time with syncsSent := (s.time.syncsSent.filter fun (e : Nat × Nat) => decide (e.1 ≠ n)) ++ [(n, was + 1)] } })

/-! ### Steps (R66, R407) -/

/-- An admitted reservation is current. -/
def State.reservationNow (s : State) : Bool :=
  s.jobs.any fun j => j.reserved && decide (j.start ≤ s.time.now ∧ s.time.now < j.end_)

/-- The outcome of a step that a TIME_STEP command requested. -/
def State.stepReply (s : State) (status : Nat) : State :=
  match s.link.stepCmd with
  | none => s
  | some c => ({ s with link := { s.link with stepCmd := none } }).adminDone c status 0 0

/-- TIME_STEP_APPLY (R407): within 10 ms of the request, at an instant with no admitted reservation current. -/
def execTimeStepApply (t : Time) (s : State) : Host.Outcome State Fault Refusal :=
  .next (
    let s := s.tick t
    match s.time.step with
    | none => s
    | some (n, req, cmd) =>
      if req + 10000000 < s.time.clock ∨ s.reservationNow then s else
      let s := ({ s with time := { s.time.setClock (s.time.clock + n) with step := none } }).timeFlag 3
      if cmd then s.stepReply 0 else s)

/-- TIME_STEP_TIMEOUT (R407). -/
def execTimeStepTimeout (t : Time) (s : State) : Host.Outcome State Fault Refusal :=
  .next (
    let s := s.tick t
    match s.time.step with
    | none => s
    | some (n, req, cmd) =>
      if s.time.clock < req + 10000000 then s else
      let s := s.stepRefused n
      if cmd then s.stepReply 4 else s)

/-- OFFSET_NS of a TIME_STEP entry. -/
def HpCmd.stepBy (c : HpCmd) : Int := toSigned 64 (leAt c.bytes 8 8)

/-- TIME_STEP (R66, R404, R407): the admin command that runs. A step back is refused with a record; a held counter cannot be stepped. -/
def execTimeStep (t : Time) (s : State) : Host.Outcome State Fault Refusal :=
  .next (
    let s := (s.at t).tick t
    match s.link.adminNow with
    | none => s
    | some c =>
      if byteAt c.bytes 0 ≠ 6 ∨ s.time.step.isSome then s
      else if c.stepBy = 0 then s.adminDone c 0 0 0
      else if c.stepBy < 0 then
        (s.fault 0 none { cls := 0x0004, sev := 0, kind := 6, index := 0, detail := toTwos 32 c.stepBy }).adminDone c 4 0 0
      else if !s.time.runs ∨ ((s.reg 0x4020).toNat : Int) < c.stepBy then (s.stepRefused c.stepBy).adminDone c 4 0 0
      else { s with
        time := { s.time with step := some (c.stepBy.toNat, s.time.clock, true) }
        link := { s.link with stepCmd := some c } })

/-! ### The limits of TIME (R67) -/

/-- STAMP_EPOCH_NEAR (R67). -/
def execStampEpochNear (t : Time) (s : State) : Host.Outcome State Fault Refusal :=
  .next (
    let s := s.tick t
    if s.time.clock < 2 ^ 57 - 2 ^ 52 ∨ s.time.epochNearMade then s else
    let s := { s with time := { s.time with epochNearMade := true } }
    (s.timeFlag 6).fault 0 none { cls := 0x0005, sev := 0, kind := 6, index := 0 })

/-- STAMP_LIMIT (R67). -/
def execStampLimit (t : Time) (s : State) : Host.Outcome State Fault Refusal :=
  .next (
    let s := s.tick t
    if s.time.clock < 2 ^ 57 then s
    else { s with time := if s.time.replay then { s.time with liveLimit := true } else { s.time with limit := true } })

/-! ### Replay (R93, R94) -/

/-- A message of a job is in flight. -/
def State.inFlight (s : State) (id : JobId) : Bool := s.net.hops.any fun h => decide (keyId h.msg.item.key = id)

/-- A job is quiescent (R93). -/
def State.quiescent (s : State) (id : JobId) : Bool :=
  (match s.job id with
   | none => true
   | some j => decide (j.running = []) || j.stopped.isSome || s.jobStalled j) && !s.inFlight id

/-- The points that the replay clock holds at (R93). -/
def State.holdPoints (s : State) : List Time :=
  ((s.jobs.filter fun j => j.reserved && j.admitted && !s.quiescent j.id).map Job.end_ ++
   (s.cycles.filter fun c => c.admitted && (!s.quiescent c.id || (c.commit.isSome && !c.checked))).map Cycle.deadline).filter fun p => decide (s.time.now ≤ p)

/-- The replay clock advances with the log, as far as the points where it holds (R93). -/
def State.replayTo (s : State) (t : Time) : State :=
  { s with time := { s.time with now := max s.time.now (s.holdPoints.foldl min t) } }

/-- The chips' states as a replay finds them (R93; log 57). -/
def DflPort.startLog (d : DflPort) : DflPort := { d with logged := [{ stamp := 0, up := d.up, seated := d.seated, attached := d.attached, held := d.held }] }

/-- REPLAY_START (R93): the replay clock starts at the first logged stamp. -/
def execReplayStart (first : Time) (s : State) : Host.Outcome State Fault Refusal :=
  .next (
    if s.time.replay then s else
    { s with
      time := { s.time with
        replay := true, live := s.time.now, liveRunning := s.time.running, liveLimit := s.time.limit, now := first, running := true, limit := false }
      link := { s.link with lastInject := none, admits := [] }
      ports := s.ports.map DflPort.startLog })

/-- REPLAY_END (R94): live station time again, with no carry-over; the chips' states are noted as they then stand (log 57). -/
def execReplayEnd (s : State) : Host.Outcome State Fault Refusal :=
  .next (
    if !s.time.replay then s else
    let s := { s with time := { s.time with
        replay := false, now := s.time.live, running := s.time.liveRunning, limit := s.time.liveLimit, live := 0, liveRunning := false, liveLimit := false } }
    (List.range 4).foldl (fun s p => (s.setPort p { s.port p with logged := [] }).noteChip p (chipStamp p s.time.now)) s)

/-- REPLAY_CLOCK_ADVANCE (R93). -/
def execReplayClockAdvance (t : Time) (s : State) : Host.Outcome State Fault Refusal :=
  .next (if s.time.replay then s.replayTo t else s)

end Sys2Proof.Machine
end

