-- ==== Sys2Proof/Machine/HostLink.lean ====
section
/-! DEFINITION. The host link (15 R379 to R401): link resets, staging, HP1, HP2, the commands and their completions, replay injection (log 12). -/

namespace Sys2Proof.Machine

/-! ### Flags, queues, power (R380, R385, R386) -/

/-- An event of MESA_HP_STS bit `b`; bits 0 to 3 are counted. -/
def State.hpFlag (s : State) (b : Nat) : State :=
  let s := s.setFlag 0x3004 b
  if b < 4 then s.countByte 0x3008 b else s

/-- MESA_HP_DROP_CNT. -/
def State.hpDrop (s : State) (n : Nat) : State := s.count32 0x3010 n

/-- Change the host link, a queue. -/
def State.modLink (s : State) (f : HostLink → HostLink) : State := { s with link := f s.link }
def State.queue (s : State) (q : Nat) : HpQueue := s.link.queue.toList.getD q {}
def State.setQueue (s : State) (q : Nat) (x : HpQueue) : State := s.modLink fun l => { l with queue := l.queue.setIfInBounds q x }

/-- Registers of a queue (R394): base of a ring, its size, the control word. -/
def queueReg (q off : Nat) : Nat := 0x3200 + 0x40 * q + off
def State.sqSize (s : State) (q : Nat) : Nat := fld (s.reg (queueReg q 0x10)) 12 0
def State.cqSize (s : State) (q : Nat) : Nat := fld (s.reg (queueReg q 0x10)) 28 16
def State.cqBase (s : State) (q : Nat) : Nat := pairVal (s.reg (queueReg q 8)) (s.reg (queueReg q 0xC))

/-- A queue error (R397). -/
def State.queueErr (s : State) (q code : Nat) : State := (s.setQueue q { s.queue q with err := code }).hpFlag 1

/-- A host job whose copy a host-link reset discards: nothing is owed to the host any more (R380). -/
def HpCmd.orphan (c : HpCmd) : HpCmd := { c with queue := 256 }
def orphanCopy (c : HpCmd × Nat × Nat × Nat) : HpCmd × Nat × Nat × Nat :=
  ({ c.1.orphan with bytes := c.1.bytes.take 0x28 ++ List.replicate 8 0 ++ c.1.bytes.drop 0x30 }, c.2)

/-- Commands under way whose completions a host-link reset discards. -/
def HostLink.owed (l : HostLink) (submits : List HpCmd) : List HpCmd :=
  (l.fetched ++ l.admin ++ l.adminNow.toList ++ l.staging ++ l.slipCmd.toList ++ submits).filter fun c => decide (c.queue ≠ 256)

/-- HOST_LINK_RESET (R380): configuration space, HP1 and HP2; what is unfinished toward the host is discarded and counted. -/
def State.linkReset (s : State) : State :=
  let l := s.link
  let entries := l.queue.toList.foldl (fun (n : Nat) (q : HpQueue) => n + q.held + q.unfetched.length) 0
  let copies := l.copies.foldl (fun (n : Nat) (c : HpCmd × Nat × Nat × Nat) =>
    if c.1.queue = 256 then n else n + (if leAt c.1.bytes 0x28 8 = 0 then 1 else 2)) 0
  let s := s.hpDrop (entries + copies + (l.owed s.submits).length + l.done.length)
  let due := l.copies.filter fun c => decide (c.2.2.2 = 1)
  let s := due.foldl (fun s c => s.freeRanges fun r => decide (r.owner = (c.1.stamp, c.1.job))) s
  let s := (List.range 27).foldl (fun s k => s.setReg (0x3100 + 4 * k) 0) s
  let s := { s with submits := s.submits.map HpCmd.orphan }
  let s := s.modLink fun l => { l with
    memSpace := false, busMaster := false, d3hot := false, pmeEn := false, pme := false, msixEn := false, msixMask := false
    msixTable := [], msixPending := [], hp1Busy := none, queue := .replicate 8 {}
    fetched := l.fetched.map HpCmd.orphan, admin := l.admin.map HpCmd.orphan, adminNow := l.adminNow.map HpCmd.orphan
    staging := l.staging.map HpCmd.orphan, slipCmd := l.slipCmd.map HpCmd.orphan, stepCmd := l.stepCmd.map HpCmd.orphan
    copies := (l.copies.filter fun c => decide (c.2.2.2 ≠ 1)).map orphanCopy, done := [] }
  s.hpFlag 4

/-- HOST_LINK_RESET (R380): a fundamental or hot reset, link down, or a Function Level Reset. -/
def execHostLinkReset (_flr : Bool) (s : State) : Host.Outcome State Fault Refusal := .next s.linkReset

/-- POWER_STATE_CHANGE (R385). -/
def execPowerStateChange (d3hot : Bool) (t : Time) (s : State) : Host.Outcome State Fault Refusal :=
  .next ((s.at t).modLink fun l => { l with d3hot })

/-- STAGE_CONFIG_WRITE (R386). -/
def execStageConfigWrite (value : Word) (s : State) : Host.Outcome State Fault Refusal :=
  .next (
    if s.link.hp1Busy.isSome ∨ (s.link.queue.toList.any fun q => q.enabled) then s.hpFlag 1
    else s.setReg 0x300C (BitVec.ofNat 32 (min 4096 (fld value 12 0))))

/-! ### Entries (R389, R392) -/

/-- A command is accepted on a queue (R389); 255 is HP1, 256 an injected submission. -/
def opcAccepted (queue opc : Nat) : Bool :=
  match opc with
  | 0 => true
  | 1 => true
  | 2 => decide (queue ≠ 0)
  | 7 => decide (1 ≤ queue ∧ queue ≤ 7)
  | _ => decide (3 ≤ opc ∧ opc ≤ 6 ∧ (queue = 0 ∨ 255 ≤ queue))

/-- The bytes of an entry that its command gives a field (R389, R401): offset and length. -/
def opcFields : Nat → List (Nat × Nat)
  | 1 => [(8, 8), (0x10, 8), (0x18, 4)]
  | 2 => [(8, 3), (0xC, 4), (0x10, 8), (0x18, 8), (0x20, 8), (0x28, 8)]
  | 3 => [(8, 3), (0x10, 16)]
  | 4 => [(8, 1)]
  | 5 => [(8, 17), (0x20, 32)]
  | 6 => [(8, 8)]
  | 7 => [(8, 14), (0x18, 12)]
  | _ => []

/-- Every reserved byte is zero. -/
def reservedZero (bs : List Byte) : Bool :=
  let used := (0, 1) :: (4, 4) :: opcFields (byteAt bs 0)
  (List.range 64).all fun k => decide (byteAt bs k = 0) || used.any fun f => decide (f.1 ≤ k ∧ k < f.1 + f.2)

/-- A staging range lies in the area, at a multiple of 64 (R386). -/
def State.stageInside (s : State) (off len : Nat) : Bool := decide (off % 64 = 0 ∧ off + len ≤ s.stageBytes)

/-- The staging ranges of a command. -/
def HpCmd.ranges (c : HpCmd) : List (Nat × Nat) :=
  (match byteAt c.bytes 0 with
   | 1 => [(leAt c.bytes 0x10 8, leAt c.bytes 0x18 4)]
   | 2 => [(leAt c.bytes 0x10 8, leAt c.bytes 0x18 4), (leAt c.bytes 0x20 8, leAt c.bytes 0x1C 4)]
   | 3 => [(c.stageOff, c.loadLen)]
   | _ => []).filter fun r => decide (r.2 ≠ 0)

/-- Two ranges of bytes overlap. -/
def stageMeets (a n b m : Nat) : Bool := decide (a < b + m ∧ b < a + n)

/-- The host entry that a SUBMIT_JOB names, in the bank of its stamp (R399). -/
def State.hostEntry (s : State) (c : HpCmd) : Option EntryBound :=
  (s.imageOf (s.usesOld (stampTime c.stamp)) c.slot).bind fun i => i.bound c.entry 3

/-- Every field of an entry is in its range (R389, R392, R399). -/
def State.fieldsOk (s : State) (c : HpCmd) : Bool :=
  reservedZero c.bytes && (c.ranges.all fun r => s.stageInside r.1 r.2) &&
  (match byteAt c.bytes 0 with
   | 1 =>
     let len := leAt c.bytes 0x18 4
     decide (64 ≤ len ∧ len % 64 = 0 ∧ leAt c.bytes 0x10 8 % 64 = 0)
   | 2 =>
     let il := leAt c.bytes 0x18 4
     let ol := leAt c.bytes 0x1C 4
     decide (c.slot ≤ 3 ∧ c.policy ≤ 1 ∧ leAt c.bytes 0x10 8 % 64 = 0 ∧ leAt c.bytes 0x20 8 % 64 = 0) &&
     !(decide (0 < il ∧ 0 < ol) && stageMeets (leAt c.bytes 0x10 8) il (leAt c.bytes 0x20 8) ol) &&
     (match s.hostEntry c with | some e => decide (il ≤ e.capA) | none => false)
   | 3 => decide (c.loadSlot ≤ 3 ∧ byteAt c.bytes 9 ≤ 1 ∧ byteAt c.bytes 0xA ≤ 1 ∧ c.stageOff % 64 = 0)
   | 4 => decide (c.loadSlot ≤ 3)
   | 5 => decide (byteAt c.bytes 0x18 ≤ 0xF)
   | 7 => decide (byteAt c.bytes 0x14 ≤ 3 ∧ (byteAt c.bytes 0x15 ≤ 3 ∨ byteAt c.bytes 0x15 = 0xFF)) && s.stageInside (leAt c.bytes 0x18 8) (leAt c.bytes 0x20 4)
   | _ => true)

/-- A SLIP that leaves out a chip the module has no port for names an absent unit (R55): the chip. -/
def State.namesAbsent (s : State) (c : HpCmd) : Option Nat :=
  if byteAt c.bytes 0 = 5 then (List.range 4).find? fun k => (byteAt c.bytes 0x18).testBit k && !s.dflLive k else none

/-- A range of the command is busy at its stamp (R392). -/
def State.stageBusy (s : State) (c : HpCmd) : Bool :=
  c.ranges.any fun r => s.link.busy.any fun b =>
    stageMeets r.1 r.2 b.off b.len && decide ((mkKey { stamp := b.owner.1, job := b.owner.2 } 0 0).toNat < c.key.toNat) &&
    (match b.freed with | none => true | some f => decide (stampTime c.stamp < f))

/-- Released ranges are forgotten once no stamped entry waits to be fetched. -/
def State.pruneBusy (s : State) : State :=
  if s.link.queue.toList.any fun q => decide (q.unfetched ≠ []) then s
  else s.modLink fun l => { l with busy := l.busy.filter fun b => b.freed.isNone }

/-- An entry becomes a command (R389, R391, R392, R398, R566): it completes with its status, or it waits for its turn. `logged` is the ADMIT of an injected submission. -/
def State.startCmd (s : State) (c : HpCmd) (logged : Option Nat) : State :=
  let s := s.pruneBusy
  let opc := byteAt c.bytes 0
  let plain (outcome : Nat) (s : State) : State := s.logInput 0 1 outcome 0 c.key (padTo 64 c.bytes)
  if !opcAccepted c.queue opc then (plain 0xFF s).hpDone c 2 0 0
  else if (opc = 2 ∧ s.replaying ∧ logged.isNone) ∨ (opc = 7 ∧ !s.replaying) then (plain 0xFF s).hpDone c 9 0 0
  else if !s.fieldsOk c then (plain 0xFF s).hpDone c 3 0 0
  else if (s.namesAbsent c).isSome then ((plain 0xFF s).absentAccess (10 + (s.namesAbsent c).getD 0 / 2)).hpDone c 1 0 0
  else if (match logged with | some a => decide (a = 3) | none => s.stageBusy c) then ((plain 3 s).hpFlag 3).hpDone c 7 0 0
  else
    let s := if opc = 2 then s else plain 0xFF s
    s.modLink fun l => { l with
      busy := l.busy ++ c.ranges.map fun r => { off := r.1, len := r.2, owner := (c.stamp, c.job) }
      fetched := if 3 ≤ opc ∧ opc ≤ 6 then l.fetched else l.fetched ++ [c]
      admin := if 3 ≤ opc ∧ opc ≤ 6 then l.admin ++ [c] else l.admin }

/-! ### HP1 (R393, R594) -/

/-- Stamp TIME of a group: its arrival interval, or the previous TIME of the same INDEX plus 1 (R395). -/
def groupTime (now : Time) (last : Option Nat) : Nat := match last with | none => now / 2 | some l => max (now / 2) (l + 1)

/-- The stamp of a host group (R62, R395). -/
def hostStamp (tm index : Nat) : Stamp := mkStamp (2 * tm) 5 0 index

/-- HP1_DOORBELL (R393, R594). -/
def execHp1Doorbell (value : Word) (t : Time) (s : State) : Host.Outcome State Fault Refusal :=
  .next (
    let s := s.at t
    if !bit value 0 then s
    else if !s.unit.fwRunning ∨ !bit (s.reg 0x3000) 0 ∨ s.link.hp1Busy.isSome then s.setFlag 0x3164 2
    else
      let tm := groupTime s.time.now s.link.lastTime0
      let bytes := (List.range 16).flatMap fun k => leBytes 4 (s.reg (0x3100 + 4 * k)).toNat
      let c : HpCmd := { queue := 255, stamp := hostStamp tm 0, job := 0, bytes }
      (s.modLink fun l => { l with lastTime0 := some tm, hp1Busy := some c }).startCmd c none)

/-! ### HP2 (R394 to R397) -/

/-- The entries that the next group of a queue holds (R395). -/
def State.groupSize (s : State) (q : Nat) : Nat :=
  let x := s.queue q
  min 16 (min x.held (s.cqSize q - x.cqUsed - x.open_))

/-- Stamp the next group of a queue (R395). -/
def State.stampGroup (s : State) (q : Nat) : State :=
  let x := s.queue q
  let n := s.groupSize q
  if n = 0 ∨ !x.enabled ∨ x.stopped then s else
  let tm := groupTime s.time.now s.link.lastTime1
  let size := max 1 (s.sqSize q)
  let first := (x.sqTail + size - x.held % size) % size
  let new := (List.range n).map fun k => (hostStamp tm 1, k, (first + k) % size)
  (s.setQueue q { x with held := x.held - n, unfetched := x.unfetched ++ new, open_ := x.open_ + n }).modLink fun l => { l with lastTime1 := some tm }

/-- Why a doorbell of a queue is ignored, or 0 (R397). -/
def State.doorbellErr (s : State) (q : Nat) : Nat :=
  if !(s.queue q).enabled ∨ !bit (s.reg 0x3000) 1 then 4 else if !s.link.busMaster then 5 else 0

/-- SQ_TAIL_DOORBELL (R394, R395, R397, R594). -/
def execSqTailDoorbell (queue : Fin 8) (value : Word) (t : Time) (s : State) : Host.Outcome State Fault Refusal :=
  .next (
    let s := s.at t
    let x := s.queue queue
    let tail := fld value 11 0
    if !s.unit.fwRunning then s.hpFlag 1
    else if s.doorbellErr queue ≠ 0 then s.queueErr queue (s.doorbellErr queue)
    else if s.sqSize queue ≤ tail then s.queueErr queue 1
    else
      let n := (tail + s.sqSize queue - x.sqTail) % s.sqSize queue
      (s.setQueue queue { x with sqTail := tail, held := x.held + n }).stampGroup queue)

/-- HP2_GROUP_STAMP (R395): the next group of the held-back entries. -/
def execHp2GroupStamp (queue : Fin 8) (t : Time) (s : State) : Host.Outcome State Fault Refusal := .next ((s.at t).stampGroup queue)

/-- SQ_ENTRY_FETCH (R387, R395, R397): the read of the oldest stamped entry completes; a failed read stops the queue. -/
def execSqEntryFetch (queue : Fin 8) (data : Option (List Byte)) (t : Time) (s : State) : Host.Outcome State Fault Refusal :=
  .next (
    let s := s.at t
    let x := s.queue queue
    if !s.dmaOk ∨ x.stopped then s else
    match x.unfetched, data with
    | [], _ => s
    | l, none =>
      (((s.setQueue queue { x with unfetched := [], stopped := true, open_ := x.open_ - l.length }).queueErr queue 3).hpFlag 2).hpDrop l.length
    | (st, job, i) :: rest, some bs =>
      (s.setQueue queue { x with unfetched := rest, sqHead := (i + 1) % max 1 (s.sqSize queue) }).startCmd
        { queue := queue.val, stamp := st, job, bytes := padTo 64 bs } none)

/-- CQ_HEAD_DOORBELL (R396, R397). -/
def execCqHeadDoorbell (queue : Fin 8) (value : Word) (s : State) : Host.Outcome State Fault Refusal :=
  .next (
    let x := s.queue queue
    let head := fld value 11 0
    let n := (head + s.cqSize queue - x.cqHead) % max 1 (s.cqSize queue)
    if !s.unit.fwRunning then s.hpFlag 1
    else if s.doorbellErr queue ≠ 0 then s.queueErr queue (s.doorbellErr queue)
    else if s.cqSize queue ≤ head ∨ x.cqUsed < n then s.queueErr queue 2
    else s.setQueue queue { x with cqHead := head, cqUsed := x.cqUsed - n })

/-- QUEUE_ENABLE (R397). -/
def execQueueEnable (queue : Fin 8) (s : State) : Host.Outcome State Fault Refusal :=
  .next (
    let x := s.queue queue
    if x.enabled then s
    else s.setQueue queue { x with
      enabled := true, active := true, sqHead := 0, sqTail := 0, cqHead := 0, cqTail := 0, cqUsed := 0, phase := true, err := 0, stopped := false, held := 0 })

/-- QUEUE_DISABLE (R397): stamping ends; the stamped entries still run and post their completions. -/
def execQueueDisable (queue : Fin 8) (s : State) : Host.Outcome State Fault Refusal :=
  .next (
    let x := s.queue queue
    s.setQueue queue { x with enabled := false, held := 0, active := decide (x.open_ ≠ 0) })

/-! ### Commands (R389, R396, R398, R399) -/

/-- The waiting command of an opcode with the smallest key. -/
def State.nextCmd (s : State) (opc : Nat) : Option HpCmd :=
  (sortBy (fun c : HpCmd => c.key.toNat) (s.link.fetched.filter fun c => decide (byteAt c.bytes 0 = opc))).head?

/-- It leaves the waiting list. -/
def State.takeCmd (s : State) (c : HpCmd) : State := s.modLink fun l => { l with fetched := l.fetched.erase c }

/-- HP_NOP (R389, R396). -/
def execHpNop (t : Time) (s : State) : Host.Outcome State Fault Refusal :=
  .next (
    let s := s.at t
    match s.nextCmd 0 with
    | none => s
    | some c => (s.takeCmd c).hpDone c 0 0 0)

/-- STAGE_IN (R389): the DMA read of host memory starts; an entry with a bad field or a busy range has completed when it was dispatched. -/
def execStageIn (t : Time) (s : State) : Host.Outcome State Fault Refusal :=
  .next (
    let s := s.at t
    match s.nextCmd 1 with
    | none => s
    | some c => (s.takeCmd c).modLink fun l => { l with staging := l.staging ++ [c] })

/-- STAGE_IN_COMPLETE (R387, R391, R396): the bytes are in the reservoir, or the read failed. -/
def execStageInComplete (data : Option (List Byte)) (t : Time) (s : State) : Host.Outcome State Fault Refusal :=
  .next (
    let s := s.at t
    if !s.dmaOk then s else
    match s.link.staging with
    | [] => s
    | c :: rest =>
      let s := s.modLink fun l => { l with staging := rest }
      match data with
      | none => (s.hpFlag 2).hpDone c 8 0 0
      | some bs => (s.resvWrite (s.stageBase + leAt c.bytes 0x10 8) (padTo (leAt c.bytes 0x18 4) bs) clean 0).hpDone c 0 0 0)

/-- SUBMIT_JOB (R399): the job asks for admission. -/
def execSubmitJob (t : Time) (s : State) : Host.Outcome State Fault Refusal :=
  .next (
    let s := s.at t
    match s.nextCmd 2 with
    | none => s
    | some c =>
      let s := s.takeCmd c
      { s with submits := s.submits ++ [c] })

/-- ADMIN_COMMAND_NEXT (R398): the executor takes the command with the smallest key. -/
def execAdminCommandNext (s : State) : Host.Outcome State Fault Refusal :=
  .next (
    if s.link.adminNow.isSome then s else
    match (sortBy (fun c : HpCmd => c.key.toNat) s.link.admin).head? with
    | none => s
    | some c => s.modLink fun l => { l with adminNow := some c, admin := l.admin.erase c })

/-- SLIP (R318, R398): the admin command that runs; the executor goes on once the request is accepted or refused. -/
def execSlip (t : Time) (s : State) : Host.Outcome State Fault Refusal :=
  .next (
    let s := s.at t
    match s.link.adminNow with
    | none => s
    | some c =>
      if byteAt c.bytes 0 ≠ 5 then s else
      let s := s.modLink fun l => { l with adminNow := none }
      let point := leAt c.bytes 8 8
      let deadline := leAt c.bytes 0x10 8
      let why := s.slipRefusal point deadline
      let s := s.slipRequest point deadline (leAt c.bytes 0x20 32) (byteAt c.bytes 0x18)
      if why ≠ 0 then s.hpDone c 4 why s.slip.id else s.modLink fun l => { l with slipCmd := some c })

/-! ### Output copies and completions (R387, R390, R396) -/

/-- OUTPUT_COPY_COMPLETE (R387, R391, R392, R399): the oldest copy that is due. -/
def execOutputCopyComplete (ok : Bool) (t : Time) (s : State) : Host.Outcome State Fault Refusal :=
  .next (
    let s := s.at t
    if !s.dmaOk then s else
    match s.link.copies.find? fun c => decide (c.2.2.2 = 1) with
    | none => s
    | some c =>
      let id : JobId := c.1.id
      let s := s.modLink fun l => { l with copies := l.copies.filter fun x => !copyOf id x }
      let r := s.hostResult id
      if ok then (s.hostWrite (leAt c.1.bytes 0x28 8) (s.resv.mem.bytes c.2.1 c.2.2.1)).hpDone c.1 r.1 r.2 c.2.2.1
      else (s.hpFlag 2).hpDone c.1 8 r.2 0)

/-- The completion entry (R390). -/
def HpDone.entry (d : HpDone) (phase : Bool) (sqHead : Nat) : List Byte :=
  leBytes 4 (leAt d.cmd.bytes 4 4) ++ [BitVec.ofNat 8 d.status, BitVec.ofNat 8 (b2n phase), BitVec.ofNat 8 d.cmd.queue, BitVec.ofNat 8 d.cmd.job] ++
  leBytes 2 sqHead ++ leBytes 2 0 ++ leBytes 4 d.detail ++ leBytes 8 d.cmd.stamp.toNat ++ leBytes 8 d.result

/-- A completion of HP1 (R393). -/
def State.postHp1 (s : State) (d : HpDone) : State :=
  let e := d.entry false 0
  let s := (List.range 8).foldl (fun s k => s.setReg (0x3140 + 4 * k) (BitVec.ofNat 32 (leAt e (4 * k) 4))) s
  let s := (s.modLink fun l => { l with hp1Busy := none }).setFlag 0x3164 1
  let w := s.reg 0x3168
  if bit w 16 then s.signal (fld w 10 0) else s

/-- A completion of an HP2 queue (R390, R396, R397): the entry, the phase on a wrap, then the vector (R384). -/
def State.postHp2 (s : State) (d : HpDone) : State :=
  let q := d.cmd.queue
  let x := s.queue q
  let size := max 1 (s.cqSize q)
  let tail := (x.cqTail + 1) % size
  let s := s.hostWrite (s.cqBase q + 32 * x.cqTail) (d.entry x.phase x.sqHead)
  let s := s.setQueue q { x with
    cqTail := tail, phase := if tail = 0 then !x.phase else x.phase, cqUsed := x.cqUsed + 1, open_ := x.open_ - 1
    active := x.enabled || decide (1 < x.open_) }
  let w := s.reg (queueReg q 0x14)
  if bit w 27 then s.signal (fld w 26 16) else s

/-- A completion can be posted: HP1's at once, HP2's while its CQ has room and the DMA engine may write (R385, R388). -/
def State.postable (s : State) (d : HpDone) : Bool :=
  decide (d.cmd.queue = 255) || (s.dmaOk && decide ((s.queue d.cmd.queue).cqUsed < s.cqSize d.cmd.queue))

/-- COMPLETION_POST (R390, R393, R396). -/
def execCompletionPost (t : Time) (s : State) : Host.Outcome State Fault Refusal :=
  .next (
    let s := s.at t
    match s.link.done.find? fun d => s.postable d with
    | none => s
    | some d =>
      let s := s.modLink fun l => { l with done := l.done.erase d }
      if d.cmd.queue = 255 then s.postHp1 d else s.postHp2 d)

/-! ### Replay injection (R93, R401) -/

/-- The logged pixels of a frame, and the frame's place among the stored ones (R421, R566). -/
def State.injectFrame (s : State) (j : Fin 2) (n : Nat) (i : Item) (pixels : List Byte) : State :=
  let x := s.camIn j n
  let number := leAt i.body 0x14 4
  let s := s.setCam j n { x with
    frames := (number + 1) % 2 ^ 32, last := some (stampTime (keyStamp i.key)), slots := x.slots ++ [(number % s.camSlots j n, keyStamp i.key)] }
  let s := s.resvWrite (leAt i.body 0 8) pixels clean 0
  let s := s.laneArrive j true (camByte j n) { key := i.key }
  let s := s.laneArrive j false (camByte j n) i
  s.frameResolved (keyStamp i.key) ((byteAt i.body 0xE).testBit 0)

/-- A BZ31 status event or link change from the log changes the chip's logged state (R93, R447, R548, R565). -/
def State.injectChip (s : State) (st : Stamp) (data : List Byte) : State :=
  let link := decide (data.length = 4)
  let p := if link then byteAt data 1 else 2 * (st.toNat / 16 % 2) + (stampIndex st - 8)
  let d := s.port p
  let h := d.logged.getLastD { stamp := 0, up := false, seated := false, attached := false, held := 0 }
  let h := if link then { h with stamp := st, up := decide (byteAt data 0 = 1) } else { h with stamp := st, held := leAt data 10 3 }
  s.setPort p { d with logged := d.logged ++ [h] }

/-- A logged ingress event enters the lanes under its stamp (R401). -/
def State.injectEvent (s : State) (key : Key) (data : List Byte) : State :=
  let st := keyStamp key
  let byte := st.toNat % 256
  let j : Fin 2 := Fin.ofNat 2 (byte / 16)
  let k := itemKind byte
  match k.1 with
  | 1 => s.injectFrame j k.2 { key, body := data.take 64 } (data.drop 64)
  | 3 =>
    let s := if fld (s.trigCfg j (s.usesOld (stampTime st)) k.2) 23 19 < 16 then s.laneArrive j true byte { key, body := data } else s
    s.laneArrive j false byte { key, body := data }
  | 5 => if 4 ≤ k.2 then s.injectChip st data else s.laneArrive j false byte { key, body := data }
  | _ => s.laneArrive j false byte { key, body := data }

/-- A logged reply reaches the port that holds its event (R93, R401). -/
def State.injectReply (s : State) (key : Key) (data : List Byte) : State :=
  let eid := leAt data 0 2
  match (List.range 4).find? fun p => (s.port p).events.any fun e => decide (e.eid = eid ∧ keyOf e.event.stamp e.event.seq = key) with
  | none => s
  | some p => s.replyIn p eid (byteAt data 2) (leAt data 4 8)

/-- INJECT (R93, R401): one logged event, under its logged stamp and sequence word. -/
def execInject (t : Time) (s : State) : Host.Outcome State Fault Refusal :=
  .next (
    let s := s.at t
    match s.nextCmd 7 with
    | none => s
    | some c =>
      let s := s.takeCmd c
      let key : Key := keyOf (BitVec.ofNat 64 (leAt c.bytes 8 8)) (leAt c.bytes 0x10 4)
      let outcome := byteAt c.bytes 0x15
      let data := s.resv.mem.bytes (s.stageBase + leAt c.bytes 0x18 8) (leAt c.bytes 0x20 4)
      if !s.replaying then s.hpDone c 9 0 0
      else if (match s.link.lastInject with | some l => decide (key.toNat ≤ l.toNat) | none => false) then s.hpDone c 3 0 0
      else
        let s := s.modLink fun l => { l with lastInject := some key, admits := l.admits ++ [(key, outcome)] }
        let s := s.replayTo (stampTime (keyStamp key))
        let s := match byteAt c.bytes 0x14 with
          | 0 => s.injectEvent key data
          | 1 => s.startCmd { queue := 256, stamp := keyStamp key, job := keyJob key, bytes := padTo 64 data } (some outcome)
          | 2 => s.lateIngress ((keyStamp key).toNat / 16 % 2) ((keyStamp key).toNat % 256) { key, body := data }
          | _ => s.injectReply key data
        s.hpDone c 0 0 0)

end Sys2Proof.Machine
end

