-- ==== Sys2Proof/Machine/NtGather.lean ====
section
/-! DEFINITION. The gather/scatter engine (05 R143 to R146; 09 R242 to R245; log 27). -/

namespace Sys2Proof.Machine

/-- The parameters in s[SC] (R242). -/
def gsRow (w : Word) : Nat := fld w 10 0
def gsFault (w : Word) : Bool := bit w 11
def gsNodes (w : Word) : Nat := fld w 31 12

/-- One row copy of an operation: where it comes from (none: a row of zeros), where it goes, whether its index is poisoned. -/
structure RowCopy where
  src : Option Nat
  dst : Nat
  bad : Bool

/-- What an operation does to one index: nothing (skipped), a copy, or the stop of the job. -/
inductive GsStep where
  | skip
  | copy (r : RowCopy)
  | stop

/-- Copy one row between spaces; poison travels by byte (R575), and reading a reservoir line collects its mask (R89). -/
def State.copyRow (s : State) (t : Nat) (c : Core) (srcSpace dstSpace rb : Nat) (r : RowCopy) : State :=
  match r.src with
  | none => s.store t c dstSpace r.dst (List.replicate rb 0) fun _ => r.bad
  | some a =>
    let s := if srcSpace = 1 then s.mark c.id (s.resv.voidAt a rb) else s
    s.store t c dstSpace r.dst (s.load t c srcSpace a rb) fun i => r.bad || s.loadBad t c srcSpace (a + i) 1

/-- Run the steps in list order (R144, R145): the state, whether an index was out of range under ZERO, whether the job stops. -/
def State.runRows (s : State) (t : Nat) (c : Core) (srcSpace dstSpace rb : Nat) : List (GsStep × Bool) → State × Bool
  | [] => (s, false)
  | (st, oor) :: rest =>
    let s := if oor then s.tileFlag t 7 else s
    match st with
    | .skip => s.runRows t c srcSpace dstSpace rb rest
    | .copy r => (s.copyRow t c srcSpace dstSpace rb r).runRows t c srcSpace dstSpace rb rest
    | .stop => (s, true)

/-- The indices of an index extent with their poison; an empty one stands for 0 to `rows` − 1 (R243). -/
def State.indexList (s : State) (t : Nat) (c : Core) (x : Extent) (rows : Nat) : List (Nat × Bool) :=
  if x.len = 0 then (List.range rows).map fun i => (i, false)
  else (List.range (x.len / 4)).map fun j =>
    (ofLe (s.load t c 0 (x.base + 4 * j) 4), s.loadBad t c 0 (x.base + 4 * j) 4)

/-- The checks that every gather/scatter operation shares (R196, R242). -/
def State.gsCheck (s : State) (t : Nat) (c : Core) (xd xa xb : Extent) (w : Word) (dsp asp : List Nat) : List (Nat × Bool) :=
  [(2, decide (gsRow w < 4 ∨ gsRow w > 1024 ∨ gsRow w % 4 ≠ 0)), (3, anyOverlap [xd, xa, xb] c.rings)] ++
  s.extentChecks t dsp xd ++ s.extentChecks t asp xa ++ s.extentChecks t [0] xb

/-- The number of rows that an index list names. -/
def gsCount (xa xb : Extent) (rb : Nat) : Nat := if xb.len = 0 then xa.len / rb else xb.len / 4

/-- The end of a gather/scatter operation. -/
def State.gsDone (s : State) (t : Nat) (c : Core) (stopped : Bool) (xs : List Extent) (xd : Extent) : NtRes :=
  if stopped then .stop s 0x05 c.nextKey 0 else .done c (s.fly t 2 xs [xd])

/-- Issue a gather/scatter operation that has passed its checks: queue room, holds, then the errors and poison of what it reads. -/
def State.gsRun (s : State) (t : Nat) (c : Core) (xd xa xb : Extent) (hits : List EccHit) (k : State → NtRes) : NtRes :=
  if s.queueFull t 2 || anyOverlap [xd] c.held then .wait else
  let s := s.applyHits t c [xa, xb] hits
  readGate s c (s.loadBad t c xa.space xa.base xa.len || s.loadBad t c 0 xb.base xb.len) k

/-- GATHER (R143, R144, R242, R243). -/
def execGather (tile : Fin 512) (g : Issue) (xd xa xb : Fin 16) (c : Fin 32) (hits : List EccHit) (s : State) : Host.Outcome State Fault Refusal :=
  .next (s.issue tile g anyEnc fun k s =>
    let d := extentOf (k.a xd)
    let a := extentOf (k.a xa)
    let b := extentOf (k.a xb)
    let w := k.s c
    let rb := gsRow w
    match firstCause ((4, decide (d.len < gsCount a b rb * rb)) :: s.gsCheck tile k d a b w [0] [0, 1, 2]) with
    | some e => .raise e
    | none => s.gsRun tile k d a b hits fun s =>
      let regs := k.aBad xd || k.aBad xa || k.aBad xb || k.sBad c
      let rows := a.len / rb
      let steps := (s.indexList tile k b rows).zipIdx.map fun ((i, bad), j) =>
        if i < rows then (GsStep.copy { src := some (a.base + i * rb), dst := d.base + j * rb, bad := bad || regs }, false)
        else if gsFault w then (.stop, false)
        else (.copy { src := none, dst := d.base + j * rb, bad := bad || regs }, true)
      let r := s.runRows tile k a.space 0 rb steps
      r.1.gsDone tile k r.2 [a, b] d)

/-- The offsets of a CSR list in pairs, node by node, or none from the first that decreases or points beyond the list (R244). -/
def csrCheck (limit : Nat) : List Nat → List Nat × Bool
  | x :: y :: rest =>
    if x ≤ y ∧ y ≤ limit then
      let r := csrCheck limit (y :: rest)
      ((y - x) :: r.1, r.2)
    else ([], true)
  | _ => ([], false)

/-- GATHER_CSR (R143, R144, R244): counts first, then rows; a bad offset or an overflow stops the job under both policies. -/
def execGatherCsr (tile : Fin 512) (g : Issue) (xd xa xb : Fin 16) (c : Fin 32) (hits : List EccHit) (s : State) : Host.Outcome State Fault Refusal :=
  .next (s.issue tile g anyEnc fun k s =>
    let d := extentOf (k.a xd)
    let a := extentOf (k.a xa)
    let b := extentOf (k.a xb)
    let w := k.s c
    let rb := gsRow w
    let n := gsNodes w
    match firstCause ((4, decide (b.len < 4 * (n + 1) ∨ d.len < 4 * n)) :: s.gsCheck tile k d a b w [0] [0, 1, 2]) with
    | some e => .raise e
    | none => s.gsRun tile k d a b hits fun s =>
      let regs := k.aBad xd || k.aBad xa || k.aBad xb || k.sBad c
      let words := s.indexList tile k b 0
      let offs := (words.take (n + 1)).map (·.1)
      let offBad := (words.take (n + 1)).any (·.2)
      let list := words.drop (n + 1)
      let (counts, broken) := csrCheck list.length offs
      let s := s.abWrite tile d.base (counts.flatMap fun x => leBytes 4 x) fun _ => regs || offBad
      if broken then s.gsDone tile k true [a, b] d else
      let rows := a.len / rb
      let first := offs.headD 0
      let named := (list.drop first).take (counts.foldl (· + ·) 0)
      let steps := named.zipIdx.map fun ((i, bad), j) =>
        let dst := d.base + 4 * n + j * rb
        if dst + rb > d.base + d.len then (GsStep.stop, false)
        else if i < rows then (.copy { src := some (a.base + i * rb), dst, bad := bad || offBad || regs }, false)
        else if gsFault w then (.stop, false)
        else (.copy { src := none, dst, bad := bad || offBad || regs }, true)
      let r := s.runRows tile k a.space 0 rb steps
      r.1.gsDone tile k r.2 [a, b] d)

/-- SCATTER (R143, R144, R145, R242, R243). -/
def execScatter (tile : Fin 512) (g : Issue) (xd xa xb : Fin 16) (c : Fin 32) (hits : List EccHit) (s : State) : Host.Outcome State Fault Refusal :=
  .next (s.issue tile g anyEnc fun k s =>
    let d := extentOf (k.a xd)
    let a := extentOf (k.a xa)
    let b := extentOf (k.a xb)
    let w := k.s c
    let rb := gsRow w
    let n := gsCount a b rb
    match firstCause ((4, decide (d.len < n * rb ∨ a.len < n * rb)) :: s.gsCheck tile k d a b w [0, 1] [0]) with
    | some e => .raise e
    | none => s.gsRun tile k d a b hits fun s =>
      let regs := k.aBad xd || k.aBad xa || k.aBad xb || k.sBad c
      let rows := d.len / rb
      let steps := (s.indexList tile k b (a.len / rb)).zipIdx.map fun ((i, bad), j) =>
        if i < rows then (GsStep.copy { src := some (a.base + j * rb), dst := d.base + i * rb, bad := bad || regs }, false)
        else if gsFault w then (.stop, false)
        else (.skip, true)
      let r := s.runRows tile k 0 d.space rb steps
      r.1.gsDone tile k r.2 [a, b] d)

/-- The chord-tree value over positions that hold a contribution (R146): a subtree without any is not evaluated and adds +0.0. -/
def accTree : Nat → List (Nat × Word) → Nat → Nat → Option Word
  | 0, _, _, _ => none
  | fuel + 1, vs, a, n =>
    let mine := vs.filter fun x => decide (16 * a ≤ x.1 ∧ x.1 < 16 * (a + n))
    if mine = [] then none
    else if n ≤ 1 then
      some (chordSum ((List.range 16).map fun p => match mine.find? fun x => decide (x.1 = 16 * a + p) with | some x => x.2 | none => 0))
    else
      let p := splitPow n
      match accTree fuel mine a p, accTree fuel mine (a + p) (n - p) with
      | some x, some y => some (fadd32 x y)
      | some x, none => some (fadd32 x 0)
      | none, some y => some (fadd32 0 y)
      | none, none => none

/-- SCATTER_ACC (R79, R143, R146, R242). Every row of XD starts at +0.0; contribution `j` stands at SRC_BASE + `j`. -/
def execScatterAcc (tile : Fin 512) (g : Issue) (xd xa xb : Fin 16) (c : Fin 32) (hits : List EccHit) (s : State) : Host.Outcome State Fault Refusal :=
  .next (s.issue tile g anyEnc fun k s =>
    let d := extentOf (k.a xd)
    let a := extentOf (k.a xa)
    let b := extentOf (k.a xb)
    let w := k.s c
    let rb := gsRow w
    let n := gsCount a b rb
    let f := k.facet
    match firstCause ([(4, decide (a.len < n * rb)), (2, decide (f.srcBase + n > 16 * f.total))] ++ s.gsCheck tile k d a b w [0] [0]) with
    | some e => .raise e
    | none => s.gsRun tile k d a b hits fun s =>
      let regs := k.aBad xd || k.aBad xa || k.aBad xb || k.sBad c || k.facetBad
      let rows := d.len / rb
      let idx := (s.indexList tile k b (a.len / rb)).zipIdx
      let zeroed := s.abWrite tile d.base (List.replicate (rows * rb) 0) fun _ => false
      if gsFault w ∧ (idx.any fun x => decide (rows ≤ x.1.1)) then zeroed.gsDone tile k true [a, b] d else
      let out (row e : Nat) : Word :=
        (accTree 64 ((idx.filter fun x => decide (x.1.1 = row)).map fun x =>
          (f.srcBase + x.2, (BitVec.ofNat 32 (ofLe (s.load tile k 0 (a.base + x.2 * rb + 4 * e) 4)) : Word))) 0 f.total).getD 0
      let bad (row e : Nat) : Bool := regs || idx.any fun x =>
        decide (x.1.1 = row) && (x.1.2 || s.loadBad tile k 0 (a.base + x.2 * rb + 4 * e) 4)
      let bytes := (List.range rows).flatMap fun r => (List.range (rb / 4)).flatMap fun e => leBytes 4 (out r e).toNat
      let s' := (idx.filter fun x => decide (rows ≤ x.1.1)).foldl (fun s _ => s.tileFlag tile 7) s
      let s' := s'.abWrite tile d.base bytes fun i => bad (i / rb) (i % rb / 4)
      s'.gsDone tile k false [a, b] d)

end Sys2Proof.Machine
end

