-- ==== Sys2Proof/Machine/NtVector.lean ====
section
/-! DEFINITION. The vector unit (05 R141, R142; 09 R240, R241): lane operations, loads, stores and function tables. -/

namespace Sys2Proof.Machine

/-- Issue a vector operation that touches no extent: it takes a place in the vector queue (R213, R216). -/
def State.issueVec (s : State) (t : Fin 512) (g : Issue) (f : Core → Core) : State :=
  s.issue t g anyEnc fun c s => if s.queueFull t 1 then .wait else .done (f c) (s.fly t 1 [] [])

/-- Lane `k` of a register. -/
def Core.lane (c : Core) (r : Fin 16) (k : Fin 64) : Word := c.vx[r][k]

/-- One-, two- and three-operand lane operations; poison travels by lane (R575). -/
def Core.map1 (c : Core) (dst a : Fin 16) (f : Word → Word) : Core :=
  c.setLanes dst (fun k => f (c.lane a k)) (c.laneBad a)
def Core.map2 (c : Core) (dst a b : Fin 16) (f : Word → Word → Word) : Core :=
  c.setLanes dst (fun k => f (c.lane a k) (c.lane b k)) fun k => c.laneBad a k || c.laneBad b k
def Core.map3 (c : Core) (dst a b : Fin 16) (f : Word → Word → Word → Word) : Core :=
  c.setLanes dst (fun k => f (c.lane a k) (c.lane b k) (c.lane dst k)) fun k => c.laneBad a k || c.laneBad b k || c.laneBad dst k

/-- A reduction: lanes 0 and 1 hold its results, the others zero (R79, R240). -/
def Core.reduce (c : Core) (dst a : Fin 16) (v0 v1 : Word) (two : Bool) : Core :=
  let bad := (List.range 64).any (c.laneBad a)
  c.setLanes dst (fun k => if k.val = 0 then v0 else if k.val = 1 then v1 else 0) fun k => bad && decide (k = 0 ∨ (two ∧ k = 1))

/-- All ones for a comparison that holds. -/
def maskW (b : Bool) : Word := if b then 0xFFFFFFFF else 0

/-- binary32 comparisons: a NaN compares as false (R240). -/
def flt32 (a b : Word) : Bool := match (v32 a).cmp (v32 b) with | some x => decide (x < 0) | none => false
def feq32 (a b : Word) : Bool := match (v32 a).cmp (v32 b) with | some x => decide (x = 0) | none => false

/-- A canonical NaN for any NaN, the value otherwise (R141). -/
def canon32 (w : Word) : Word := if isNan32 w then nan32 else w

/-- The lane that a scalar register names. -/
def laneIx (w : Word) : Fin 64 := ⟨fld w 5 0, by unfold fld bitsOf; omega⟩

/-! ### Loads, stores and tables (R241) -/

/-- The address of a vector access. -/
def Core.vecAddr (c : Core) (xa : Fin 16) (r : Fin 32) : Nat := (extentOf (c.a xa)).base + (c.s r).toNat

/-- The exceptions of VLD and VST of `n` bytes. -/
def State.vecCheck (s : State) (t : Nat) (c : Core) (xa : Fin 16) (r : Fin 32) (n : Nat) (store : Bool) : Option Nat :=
  let x := extentOf (c.a xa)
  let a := c.vecAddr xa r
  firstCause (
    [(3, store && x.space == 2), (3, anyOverlap [{ space := x.space, base := a, len := n }] c.rings),
     (4, decide (x.space = 0 ∨ x.space = 2) && decide (x.base + x.len < a + n)), (5, decide (a % 4 ≠ 0))] ++
    s.extentChecks t [0, 2] x)

/-- VLD of lanes `w` bytes wide, `w` of 0 copying one word into every lane. -/
def State.vload (s : State) (t : Fin 512) (g : Issue) (vx xa : Fin 16) (r : Fin 32) (w : Nat) (hits : List EccHit) : State :=
  s.issue t g anyEnc fun c s =>
    let n := if w = 0 then 4 else 64 * w
    match s.vecCheck t c xa r n false with
    | some e => .raise e
    | none =>
      if s.queueFull t 1 then .wait else
      let x : Extent := { space := (extentOf (c.a xa)).space, base := c.vecAddr xa r, len := n }
      let s := s.applyHits t c [x] hits
      let bs := s.load t c x.space x.base n
      let regs := c.aBad xa || c.sBad r
      let at_ (k : Nat) := if w = 0 then 0 else k * w
      let lw := if w = 0 then 4 else w
      readGate s c (s.loadBad t c x.space x.base n) fun s =>
        .done (c.setLanes vx (fun k => BitVec.ofNat 32 (leAt bs (at_ k.val) lw))
          fun k => regs || s.loadBad t c x.space (x.base + at_ k) lw) (s.fly t 1 [x] [])

/-- VST of the low `w` bytes of each lane. -/
def State.vstore (s : State) (t : Fin 512) (g : Issue) (vx xa : Fin 16) (r : Fin 32) (w : Nat) : State :=
  s.issue t g anyEnc fun c s =>
    let n := 64 * w
    match s.vecCheck t c xa r n true with
    | some e => .raise e
    | none =>
      let x : Extent := { space := 0, base := c.vecAddr xa r, len := n }
      if s.queueFull t 1 || anyOverlap [x] c.held then .wait else
      let regs := c.aBad xa || c.sBad r
      let bs := (c.lanes vx).flatMap fun v => leBytes w v.toNat
      .done c ((s.abWrite t x.base bs fun i => regs || c.laneBad vx (i / w)).fly t 1 [] [x])

/-- The words of a function table (R142, R241). -/
def tableWords (bs : List Byte) : List Word := (List.range 192).map fun i => BitVec.ofNat 32 (leAt bs (4 * i) 4)

/-- FADD (R141, R240). -/
def execFadd (tile : Fin 512) (g : Issue) (dst a b : Fin 16) (s : State) : Host.Outcome State Fault Refusal :=
  .next (s.issueVec tile g fun c => c.map2 dst a b fun a b => fadd32 a b)

/-- FSUB (R141, R240). -/
def execFsub (tile : Fin 512) (g : Issue) (dst a b : Fin 16) (s : State) : Host.Outcome State Fault Refusal :=
  .next (s.issueVec tile g fun c => c.map2 dst a b fun a b => fsub32 a b)

/-- FMUL (R141, R240). -/
def execFmul (tile : Fin 512) (g : Issue) (dst a b : Fin 16) (s : State) : Host.Outcome State Fault Refusal :=
  .next (s.issueVec tile g fun c => c.map2 dst a b fun a b => fmul32 a b)

/-- FMA (R141, R240). -/
def execFma (tile : Fin 512) (g : Issue) (dst a b : Fin 16) (s : State) : Host.Outcome State Fault Refusal :=
  .next (s.issueVec tile g fun c => c.map3 dst a b ffma32)

/-- FMIN (R141, R240). -/
def execFmin (tile : Fin 512) (g : Issue) (dst a b : Fin 16) (s : State) : Host.Outcome State Fault Refusal :=
  .next (s.issueVec tile g fun c => c.map2 dst a b fun a b => fmin32 a b)

/-- FMAX (R141, R240). -/
def execFmax (tile : Fin 512) (g : Issue) (dst a b : Fin 16) (s : State) : Host.Outcome State Fault Refusal :=
  .next (s.issueVec tile g fun c => c.map2 dst a b fun a b => fmax32 a b)

/-- FABS (R141, R240). -/
def execFabs (tile : Fin 512) (g : Issue) (dst a : Fin 16) (s : State) : Host.Outcome State Fault Refusal :=
  .next (s.issueVec tile g fun c => c.map1 dst a fun a => canon32 (a &&& 0x7FFFFFFF))

/-- FNEG (R141, R240). -/
def execFneg (tile : Fin 512) (g : Issue) (dst a : Fin 16) (s : State) : Host.Outcome State Fault Refusal :=
  .next (s.issueVec tile g fun c => c.map1 dst a fun a => canon32 (a ^^^ 0x80000000))

/-- CVT_F32_F16 (R141, R240). -/
def execCvtF32F16 (tile : Fin 512) (g : Issue) (dst a : Fin 16) (s : State) : Host.Outcome State Fault Refusal :=
  .next (s.issueVec tile g fun c => c.map1 dst a fun a => f16to32 (fld a 15 0))

/-- CVT_F16_F32 (R141, R240). -/
def execCvtF16F32 (tile : Fin 512) (g : Issue) (dst a : Fin 16) (s : State) : Host.Outcome State Fault Refusal :=
  .next (s.issueVec tile g fun c => c.map1 dst a fun a => BitVec.ofNat 32 (f32to16 a))

/-- CVT_F32_I32 (R141, R240). -/
def execCvtF32I32 (tile : Fin 512) (g : Issue) (dst a : Fin 16) (s : State) : Host.Outcome State Fault Refusal :=
  .next (s.issueVec tile g fun c => c.map1 dst a fun a => i32toF a)

/-- CVT_I32_F32 (R141, R240). -/
def execCvtI32F32 (tile : Fin 512) (g : Issue) (dst a : Fin 16) (s : State) : Host.Outcome State Fault Refusal :=
  .next (s.issueVec tile g fun c => c.map1 dst a fun a => BitVec.ofInt 32 (fToI32 a))

/-- IADD (R240). -/
def execIadd (tile : Fin 512) (g : Issue) (dst a b : Fin 16) (s : State) : Host.Outcome State Fault Refusal :=
  .next (s.issueVec tile g fun c => c.map2 dst a b fun a b => a + b)

/-- ISUB (R240). -/
def execIsub (tile : Fin 512) (g : Issue) (dst a b : Fin 16) (s : State) : Host.Outcome State Fault Refusal :=
  .next (s.issueVec tile g fun c => c.map2 dst a b fun a b => a - b)

/-- IMUL (R240). -/
def execImul (tile : Fin 512) (g : Issue) (dst a b : Fin 16) (s : State) : Host.Outcome State Fault Refusal :=
  .next (s.issueVec tile g fun c => c.map2 dst a b fun a b => a * b)

/-- IADDS (R240). -/
def execIadds (tile : Fin 512) (g : Issue) (dst a b : Fin 16) (s : State) : Host.Outcome State Fault Refusal :=
  .next (s.issueVec tile g fun c => c.map2 dst a b fun a b => satW (a.toInt + b.toInt))

/-- ISUBS (R240). -/
def execIsubs (tile : Fin 512) (g : Issue) (dst a b : Fin 16) (s : State) : Host.Outcome State Fault Refusal :=
  .next (s.issueVec tile g fun c => c.map2 dst a b fun a b => satW (a.toInt - b.toInt))

/-- IMIN (R240). -/
def execImin (tile : Fin 512) (g : Issue) (dst a b : Fin 16) (s : State) : Host.Outcome State Fault Refusal :=
  .next (s.issueVec tile g fun c => c.map2 dst a b fun a b => if a.toInt ≤ b.toInt then a else b)

/-- IMAX (R240). -/
def execImax (tile : Fin 512) (g : Issue) (dst a b : Fin 16) (s : State) : Host.Outcome State Fault Refusal :=
  .next (s.issueVec tile g fun c => c.map2 dst a b fun a b => if b.toInt ≤ a.toInt then a else b)

/-- VAND (R240). -/
def execVand (tile : Fin 512) (g : Issue) (dst a b : Fin 16) (s : State) : Host.Outcome State Fault Refusal :=
  .next (s.issueVec tile g fun c => c.map2 dst a b fun a b => a &&& b)

/-- VOR (R240). -/
def execVor (tile : Fin 512) (g : Issue) (dst a b : Fin 16) (s : State) : Host.Outcome State Fault Refusal :=
  .next (s.issueVec tile g fun c => c.map2 dst a b fun a b => a ||| b)

/-- VXOR (R240). -/
def execVxor (tile : Fin 512) (g : Issue) (dst a b : Fin 16) (s : State) : Host.Outcome State Fault Refusal :=
  .next (s.issueVec tile g fun c => c.map2 dst a b fun a b => a ^^^ b)

/-- VSLL (R240). -/
def execVsll (tile : Fin 512) (g : Issue) (dst a b : Fin 16) (s : State) : Host.Outcome State Fault Refusal :=
  .next (s.issueVec tile g fun c => c.map2 dst a b fun a b => a <<< shamt b)

/-- VSRA (R240). -/
def execVsra (tile : Fin 512) (g : Issue) (dst a b : Fin 16) (s : State) : Host.Outcome State Fault Refusal :=
  .next (s.issueVec tile g fun c => c.map2 dst a b fun a b => a.sshiftRight (shamt b))

/-- RSUM (R79, R240). -/
def execRsum (tile : Fin 512) (g : Issue) (dst a : Fin 16) (s : State) : Host.Outcome State Fault Refusal :=
  .next (s.issueVec tile g fun c => c.reduce dst a (laneSum (c.lanes a)) 0 false)

/-- RMAX (R79, R240). -/
def execRmax (tile : Fin 512) (g : Issue) (dst a : Fin 16) (s : State) : Host.Outcome State Fault Refusal :=
  .next (s.issueVec tile g fun c =>
    let r := laneBest true (c.lanes a)
    c.reduce dst a r.1 (BitVec.ofNat 32 r.2) true)

/-- RMIN (R79, R240). -/
def execRmin (tile : Fin 512) (g : Issue) (dst a : Fin 16) (s : State) : Host.Outcome State Fault Refusal :=
  .next (s.issueVec tile g fun c =>
    let r := laneBest false (c.lanes a)
    c.reduce dst a r.1 (BitVec.ofNat 32 r.2) true)

/-- FLT (R141, R240). -/
def execFlt (tile : Fin 512) (g : Issue) (dst a b : Fin 16) (s : State) : Host.Outcome State Fault Refusal :=
  .next (s.issueVec tile g fun c => c.map2 dst a b fun a b => maskW (flt32 a b))

/-- FEQ (R141, R240). -/
def execFeq (tile : Fin 512) (g : Issue) (dst a b : Fin 16) (s : State) : Host.Outcome State Fault Refusal :=
  .next (s.issueVec tile g fun c => c.map2 dst a b fun a b => maskW (feq32 a b))

/-- ILT (R240). -/
def execIlt (tile : Fin 512) (g : Issue) (dst a b : Fin 16) (s : State) : Host.Outcome State Fault Refusal :=
  .next (s.issueVec tile g fun c => c.map2 dst a b fun a b => maskW (decide (a.toInt < b.toInt)))

/-- SEL (R240). -/
def execSel (tile : Fin 512) (g : Issue) (dst a b : Fin 16) (s : State) : Host.Outcome State Fault Refusal :=
  .next (s.issueVec tile g fun c => c.map3 dst a b fun a b d => if d ≠ 0 then a else b)

/-- BCAST (R240). -/
def execBcast (tile : Fin 512) (g : Issue) (dst : Fin 16) (a : Fin 32) (s : State) : Host.Outcome State Fault Refusal :=
  .next (s.issueVec tile g fun c => c.setLanes dst (fun _ => c.s a) fun _ => c.sBad a)

/-- EXTR (R240). -/
def execExtr (tile : Fin 512) (g : Issue) (dst : Fin 32) (a : Fin 16) (b : Fin 32) (s : State) : Host.Outcome State Fault Refusal :=
  .next (s.issueVec tile g fun c => c.setS dst (c.lane a (laneIx (c.s b))) (c.laneBad a (laneIx (c.s b)).val || c.sBad b))

/-- INSR (R240). -/
def execInsr (tile : Fin 512) (g : Issue) (dst : Fin 16) (a b : Fin 32) (s : State) : Host.Outcome State Fault Refusal :=
  .next (s.issueVec tile g fun c =>
    let i := laneIx (c.s b)
    c.setLanes dst (fun k => if k = i then c.s a else c.lane dst k)
      fun k => c.sBad b || (if k = i.val then c.sBad a else c.laneBad dst k))

/-- LANEID (R240). -/
def execLaneid (tile : Fin 512) (g : Issue) (dst : Fin 16) (s : State) : Host.Outcome State Fault Refusal :=
  .next (s.issueVec tile g fun c => c.setLanes dst (fun k => BitVec.ofNat 32 k.val) fun _ => false)

/-- VLD32 (R241). -/
def execVld32 (tile : Fin 512) (g : Issue) (vx : Fin 16) (xa : Fin 16) (c : Fin 32) (hits : List EccHit) (s : State) : Host.Outcome State Fault Refusal :=
  .next (s.vload tile g vx xa c 4 hits)

/-- VLD16 (R241). -/
def execVld16 (tile : Fin 512) (g : Issue) (vx : Fin 16) (xa : Fin 16) (c : Fin 32) (hits : List EccHit) (s : State) : Host.Outcome State Fault Refusal :=
  .next (s.vload tile g vx xa c 2 hits)

/-- VLDU8 (R241). -/
def execVldu8 (tile : Fin 512) (g : Issue) (vx : Fin 16) (xa : Fin 16) (c : Fin 32) (hits : List EccHit) (s : State) : Host.Outcome State Fault Refusal :=
  .next (s.vload tile g vx xa c 1 hits)

/-- VLDBC (R241). -/
def execVldbc (tile : Fin 512) (g : Issue) (vx : Fin 16) (xa : Fin 16) (c : Fin 32) (hits : List EccHit) (s : State) : Host.Outcome State Fault Refusal :=
  .next (s.vload tile g vx xa c 0 hits)

/-- VST32 (R241). -/
def execVst32 (tile : Fin 512) (g : Issue) (vx : Fin 16) (xa : Fin 16) (c : Fin 32) (s : State) : Host.Outcome State Fault Refusal :=
  .next (s.vstore tile g vx xa c 4)

/-- VST16 (R241). -/
def execVst16 (tile : Fin 512) (g : Issue) (vx : Fin 16) (xa : Fin 16) (c : Fin 32) (s : State) : Host.Outcome State Fault Refusal :=
  .next (s.vstore tile g vx xa c 2)

/-- VSTU8 (R241). -/
def execVstu8 (tile : Fin 512) (g : Issue) (vx : Fin 16) (xa : Fin 16) (c : Fin 32) (s : State) : Host.Outcome State Fault Refusal :=
  .next (s.vstore tile g vx xa c 1)

/-- VTAB (R142, R241). -/
def execVtab (tile : Fin 512) (g : Issue) (vx xa vb : Fin 16) (hits : List EccHit) (s : State) : Host.Outcome State Fault Refusal :=
  .next (s.issue tile g anyEnc fun c s =>
    let x := extentOf (c.a xa)
    match firstCause ((4, decide (x.len < 768)) :: s.extentChecks tile [2] x) with
    | some e => .raise e
    | none =>
      if s.queueFull tile 1 then .wait else
      let s := s.applyHits tile c [x] hits
      let tab := tableWords (s.load tile c 2 x.base 768)
      let bad (off n : Nat) := s.loadBad tile c 2 (x.base + off) n
      let seg (v : Word) := ((tab.take 63).filter fun b => !flt32 v b && !isNan32 b).length
      readGate s c (s.loadBad tile c 2 x.base 768) fun s =>
        .done (c.setLanes vx (fun k => tableEval tab (c.lane vb k))
          fun k => c.aBad xa || c.laneBad vb k || bad 0 256 || bad (256 + 8 * seg (nth 0 (c.lanes vb) k)) 8) (s.fly tile 1 [x] []))

end Sys2Proof.Machine
end

