-- ==== Sys2Proof/Machine/Reset.lean ====
section
/-! DEFINITION. Resets, boot, keys, JTAG and debug, power-down (22 R588 to R610). -/

namespace Sys2Proof.Machine

/-- Change the reset unit. -/
def State.modUnit (s : State) (f : ResetUnit → ResetUnit) : State := { s with unit := f s.unit }

/-! ### What a reset leaves (R588, R589, R582, R609) -/

/-- What the host and the chips have already been sent. -/
def HostLink.sentOnly (l : HostLink) : HostLink := { writes := l.writes, msixSent := l.msixSent }
def DflPort.sentOnly (d : DflPort) : DflPort := { wire := d.wire }

/-- The module without power or in cold reset: what is not volatile stays, and the BZ31 chips (R588, R595, R606). -/
def State.blank (s : State) (phase : Phase) (cause : Nat) : State :=
  { pending := s.pending, fuses := s.fuses, chips := s.chips, free := s.free
    link := s.link.sentOnly, ports := s.ports.map DflPort.sentOnly
    power := { fOn := .replicate 8 false }
    unit := { phase, lastCause := cause, flashA := s.unit.flashA, flashB := s.unit.flashB, otp := s.unit.otp, rollback := s.unit.rollback
              debugFuse := s.unit.debugFuse, nonces := s.unit.nonces, tdo := s.unit.tdo, slotA := s.unit.slotA, slotB := s.unit.slotB } }

/-- The bits of a register word that keep their value through warm reset (R582): RS fields and counters. -/
def warmKeep (a : Nat) : Word :=
  let all : Word := 0xFFFFFFFF
  if a ∈ [0x44, 0x84, misfitRerunsAddr, misfitRecordsAddr, 0x240, 0x1004, 0x3008, 0x3010, 0x4008, 0x400C, 0x5004, 0x5010, 0x5074, 0x6008, 0x600C, 0x400008, 0x40000C] then all
  else if 0x100 ≤ a ∧ a < 0x12C then 0xFFFF0000
  else if a = 0x1000 then oneBit 4
  else if a = 0x5000 then oneBit 2
  else if a = 0x9010 then oneBit 8
  else if a = 0x9040 then oneBit 16
  else if 0x00400000 ≤ a ∧ a < 0x00800000 then
    let o := (a - 0x00400000) % 0x00200000
    if (0x40010 ≤ o ∧ o < 0x40030) ∨ (0x00100804 ≤ o ∧ o < 0x00100810) ∨ (0x00180000 ≤ o ∧ o < 0x00181000 ∧ o % 0x400 = 8) then all else 0
  else if 0x00800000 ≤ a ∧ a < 0x00A00000 then (if a % 0x1000 ∈ [0x10, 0x14, 0x18, 0x34] then all else 0)
  else if 0x00C00000 ≤ a ∧ a < 0x01000000 then (if a % 0x00100000 = 0x210 then all else 0)
  else 0

/-- The register words after a warm reset. -/
def warmRegs (m : SMap Word) : SMap Word :=
  m.foldl (fun (r : SMap Word) e => mset regReset r e.1 (mergeMask (warmKeep e.1) (regReset e.1) e.2)) []

/-- The F domains that bring-up switches on (R593). -/
def startF (two : Bool) : Vector Bool 8 := #v[true, false, false, true, false, false, false, two]

/-- Entries that a log ring loses at a warm reset (R582). -/
def Logs.uncopied (l : Logs) : Nat := l.writer.toList.foldl (fun (n : Nat) (w : LogWriter) => n + w.ring.length) 0

/-- A warm reset (R589): what R582 lists, SAFE (R585, corner cases of chapter 21), the keep-retained storage, the OTP table, the shutdown area, the reservoir and the configuration space stay. -/
def State.warm (s : State) (cause : Nat) : State :=
  let lost := s.logs.uncopied
  let conf := s.link
  let s := s.linkReset.count32 0x5074 lost
  { pending := s.pending, fuses := s.fuses, live := s.live, tileLive := s.tileLive, chips := s.chips, free := s.free, resv := s.resv
    regs := warmRegs s.regs
    logs := { store := s.logs.store, faultRef := s.logs.faultRef, safe := s.logs.safe }
    link := { s.link.sentOnly with
      memSpace := conf.memSpace, busMaster := conf.busMaster, d3hot := conf.d3hot, pmeEn := conf.pmeEn, pme := conf.pme
      msixEn := conf.msixEn, msixMask := conf.msixMask, msixTable := conf.msixTable, msixPending := conf.msixPending }
    ports := s.ports.map fun d => { d.sentOnly with crcErr := d.crcErr, retx := d.retx }
    ingress := s.ingress.map fun d => { tag := d.tag.map fun p => { events := p.events, rejects := p.rejects } }
    apply := s.apply.map fun u => { opsApplied := u.opsApplied, peak := u.peak }
    power := { fOn := startF (s.mesaLive 1), rows := (s.power.rows.filter fun e => e.2.noA3).map fun e => (e.1, { noA3 := true }) }
    unit := { s.unit with
      phase := .running, lastCause := cause, warmCount := satAdd 0xFFFF s.unit.warmCount 1, warmPending := none, fwCopy := 0, fwRunning := false
      bootFailed := false, fwVersion := 0, recovery := [], otpResult := 0, unlocked := false, scope := 0, challenge := none, coreHalted := false } }

/-! ### Cold reset and bring-up (R588, R592, R593, R608) -/

/-- A cold reset is possible: power is there, and no power-down sequence has started (R604). -/
def State.coldOk (s : State) : Bool := decide (s.unit.phase ≠ .unpowered ∧ s.unit.phase ≠ .powerDown ∧ s.unit.phase ≠ .waiting)

/-- POWER_ON (R588, R592): VDD_KEEP rises; RESET_N is held low. -/
def execPowerOn (s : State) : Host.Outcome State Fault Refusal :=
  .next (if s.unit.phase = .unpowered then s.blank .inReset 0 else s)

/-- RESET_N_ASSERT (R588): low for at least 10 µs (log 66). -/
def execResetNAssert (us : Nat) (s : State) : Host.Outcome State Fault Refusal :=
  .next (if 10 ≤ us ∧ s.coldOk then s.blank .inReset 1 else s)

/-- RESET_N_RELEASE (R593, R600): bring-up, or boundary-scan mode. -/
def execResetNRelease (bscan : Bool) (s : State) : Host.Outcome State Fault Refusal :=
  .next (if s.unit.phase = .inReset then s.modUnit fun u => { u with phase := if bscan then .bscan else .bringUp } else s)

/-- The valid shutdown record with the higher SEQ (R606, R608). -/
def ResetUnit.newest (u : ResetUnit) : Option ShdnRec :=
  match u.slotA, u.slotB with
  | some a, some b => some (if a.seq < b.seq then b else a)
  | some a, none => some a
  | none, b => b

/-- Write a record into the slot that does not hold the highest valid SEQ (R606). -/
def State.shdnWrite (s : State) (state : Nat) : State :=
  let u := s.unit
  let seq := match u.newest with | some r => (r.seq + 1) % 2 ^ 32 | none => 1
  let run := decide (state = 1)
  let r : ShdnRec :=
    { seq, state, cause := if run then 0 else u.cause, step := if run then 0 else u.step, rails := u.rails, live := s.live
      stStart := if run then 0 else u.stStart, stWrite := s.time.now, faultRef := s.logs.faultRef, slipId := s.slip.id
      slipState := match s.slip.st with | .idle => 0 | .preparing => 1 | .arming => 2 | .armed => 3
      chips := if run then 0 else u.limpAnswered % 16 + 16 * u.attachedAtStart
      crest := leBytes 16 s.slip.crestDigest }
  let toB : Bool := match u.slotA, u.slotB with
    | some a, some b => decide (b.seq ≤ a.seq)
    | some _, none => true
    | none, _ => false
  s.modUnit fun u => if toB then { u with slotB := some r } else { u with slotA := some r }

/-- SHUTDOWN_RECORD_READ (R608). -/
def State.shdnRead (s : State) : State :=
  let r := s.unit.newest
  let s := s.modUnit fun u => { u with shown := r }
  let s := match r with | some r => if r.state = 3 then s else s.setFlag 0x9010 8 | none => s.setFlag 0x9010 8
  s.shdnWrite 1

/-- LIVE bits of units that fail bring-up with the unit that carries them: the ports of mesa die 1, the stacks of an erg die (R7, R593; log 46). -/
def State.failedAt (s : State) (failed : List Nat) : List Nat :=
  failed ++ (if 13 ∈ failed then [16, 17] else []) ++ ((List.range s.fuses.stackCount).filter fun n => decide (s.stackDie n ∈ failed)).map (4 + ·)

/-- COLD_RESET_END (R50, R51, R593, R608): LIVE without the units that failed; a module whose mesa die 0 failed does not end cold reset. -/
def execColdResetEnd (failed : List Nat) (deadTiles : List (Fin 512)) (s : State) : Host.Outcome State Fault Refusal :=
  .next (
    if s.unit.phase ≠ .bringUp ∨ 12 ∈ failed then s else
    let failed := s.failedAt failed
    let live := failed.foldl (fun (w : Word) b => w &&& ~~~(oneBit b)) s.fuses.allLive
    let tiles := deadTiles.foldl (fun (m : BitVec 512) (t : Fin 512) => m &&& ~~~(BitVec.ofNat 512 (2 ^ t.val))) (firstTiles (128 * s.fuses.ergCount))
    let s := { s with live, tileLive := tiles, resv := { s.resv with missing := (List.range s.fuses.stackCount).filter fun n => failed.contains (4 + n) }, power := { s.power with fOn := startF (bit live 13) } }
    let s := s.modUnit fun u => { u with phase := .running }
    s.shdnRead)

/-! ### Firmware (R595 to R598) -/

/-- A key slot that verifies: VALID, with a point of the curve (R595). -/
def KeySlot.good (k : KeySlot) : Bool := decide (k.state = .valid) && onCurve k.x k.y

/-- A slot of the OTP table: image slots at 0, firmware slots at 8, debug slots at 12. -/
def State.key (s : State) (n : Nat) : KeySlot := s.unit.otp.toList.getD n {}

/-- VERSION of a firmware image (R596). -/
def fwVersionOf (bs : List Byte) : Nat := leAt bs 8 4

/-- A firmware copy is valid (R596). -/
def State.fwValid (s : State) (bs : List Byte) : Bool :=
  let len := leAt bs 0xC 4
  let k := s.key (8 + byteAt bs 6)
  decide (leAt bs 0 4 = 0x57465157 ∧ leAt bs 4 2 = 1 ∧ 192 ≤ len ∧ len ≤ 2 ^ 21 ∧ len ≤ bs.length ∧ byteAt bs 6 ≤ 3 ∧ s.unit.rollback ≤ fwVersionOf bs / 2 ^ 16) &&
  k.good && ecdsaVerify k.x k.y (sha256 (bs.take (len - 64))) ((bs.drop (len - 64)).take 64)

/-- The firmware starts (log 55). -/
def State.startFw (s : State) (copy : Nat) (bs : List Byte) : State :=
  s.modUnit fun u => { u with fwCopy := copy, fwRunning := true, bootFailed := false, fwVersion := fwVersionOf bs }

/-- FIRMWARE_START (R597, R598): copy B is read only when copy A is not valid or older. -/
def execFirmwareStart (s : State) : Host.Outcome State Fault Refusal :=
  .next (
    if s.unit.phase ≠ .running ∨ s.unit.fwRunning ∨ s.unit.bootFailed then s else
    let a := s.unit.flashA
    let b := s.unit.flashB
    let aOk := s.fwValid a
    let readB := !aOk || decide (fwVersionOf a < fwVersionOf b)
    let bOk := readB && s.fwValid b
    let s := if aOk then s else s.setFlag 0x9010 9
    let s := if readB && !bOk then s.setFlag 0x9010 10 else s
    if bOk && (!aOk || decide (fwVersionOf a < fwVersionOf b)) then s.startFw 1 b
    else if aOk then s.startFw 0 a
    else s.modUnit fun u => { u with bootFailed := true })

/-- A word of the recovery window. -/
def State.windowWord (s : State) (k : Nat) : Nat := (mget (fun _ => 0) s.unit.recovery (0x00200000 + 4 * k)).toNat

/-- The image in the recovery window: its LEN bytes, at most the whole window (R596, R598). -/
def State.windowBytes (s : State) : List Byte :=
  let len := max 16 (min (2 ^ 21) (s.windowWord 3))
  ((List.range ((len + 3) / 4)).flatMap fun k => leBytes 4 (s.windowWord k)).take len

/-- RECOVER (R598): the image in the recovery window starts if it is valid (log 55). -/
def execRecover (s : State) : Host.Outcome State Fault Refusal :=
  .next (if s.unit.bootFailed ∧ s.fwValid s.windowBytes then s.startFw 2 s.windowBytes else s)

/-- ROLLBACK_COMMIT (R597). -/
def execRollbackCommit (s : State) : Host.Outcome State Fault Refusal :=
  .next (if s.unit.fwRunning then s.modUnit fun u => { u with rollback := max u.rollback (min 64 (u.fwVersion / 2 ^ 16)) } else s)

/-! ### Key requests (R599) -/

/-- The OTP slot that a request names; a slot that its KIND does not have is none. -/
def otpIndex (kind slot : Nat) : Option Nat :=
  match kind with
  | 0 => if slot < 8 then some slot else none
  | 1 => if slot < 4 then some (8 + slot) else none
  | 2 => if slot < 2 then some (12 + slot) else none
  | _ => none

/-- BAD_SIG: SIGNER, signature, serial number, or no request at all (R599). -/
def State.otpBadSig (s : State) (op : Nat) (r : List Byte) : Bool :=
  let k := s.key (8 + byteAt r 7)
  !(decide (leAt r 0 4 = 0x524B5157 ∧ byteAt r 4 = op ∧ byteAt r 7 ≤ 3 ∧ leAt r 8 8 = s.fuses.serial) && k.good &&
    ecdsaVerify k.x k.y (sha256 (padTo 128 r)) ((padTo 192 r).drop 128))

/-- The outcome in MESA_OTP_STS. -/
def State.otpDone (s : State) (result : Nat) : State := s.modUnit fun u => { u with otpResult := result }
def State.setKey (s : State) (n : Nat) (k : KeySlot) : State := s.modUnit fun u => { u with otp := u.otp.setIfInBounds n k }

/-- OTP_PROGRAM (R595, R599): `request` is the 192 staged bytes. -/
def execOtpProgram (request : List Byte) (s : State) : Host.Outcome State Fault Refusal :=
  .next (
    if s.otpBadSig 1 request then s.otpDone 1 else
    match otpIndex (byteAt request 5) (byteAt request 6) with
    | none => s.otpDone 2
    | some n =>
      if (s.key n).state ≠ .empty then s.otpDone 2
      else (s.setKey n { state := .valid, x := ofBe ((request.drop 0x10).take 32), y := ofBe ((request.drop 0x30).take 32) }).otpDone 0)

/-- OTP_REVOKE (R599): never the only VALID firmware slot. -/
def execOtpRevoke (request : List Byte) (s : State) : Host.Outcome State Fault Refusal :=
  .next (
    if s.otpBadSig 2 request then s.otpDone 1 else
    match otpIndex (byteAt request 5) (byteAt request 6) with
    | none => s.otpDone 2
    | some n =>
      if !(s.key n).good then s.otpDone 2
      else if byteAt request 5 = 1 ∧ ((List.range 4).filter fun k => (s.key (8 + k)).good).length = 1 then s.otpDone 3
      else (s.setKey n { s.key n with state := .revoked }).otpDone 0)

/-- OTP_DISABLE_DEBUG (R599, R601). -/
def execOtpDisableDebug (request : List Byte) (s : State) : Host.Outcome State Fault Refusal :=
  .next (
    if s.otpBadSig 3 request then s.otpDone 1
    else (s.modUnit fun u => { u with debugFuse := true, unlocked := false, scope := 0 }).otpDone 0)

/-! ### JTAG and debug (R600 to R602) -/

/-- Bits shifted out, first bit least significant, as bytes. -/
def packBits (l : List Bool) : List Byte :=
  (List.range ((l.length + 7) / 8)).map fun k => BitVec.ofNat 8 ((List.range 8).foldl (fun n b => n + b2n (l.getD (8 * k + b) false) * 2 ^ b) 0)

/-- The test access port is powered. -/
def State.tapOn (s : State) : Bool := decide (s.unit.phase ≠ .unpowered)
def State.scanMode (s : State) : Bool := decide (s.unit.phase = .bscan)

/-- The one-bit bypass register between TDI and TDO; pins that the port held are released. -/
def State.bypass (s : State) (tdi : List Bool) : State :=
  s.modUnit fun u => { u with ir := .bypass, tdo := packBits ((false :: tdi).take tdi.length), pinsDriven := false, highZ := false }

/-- JTAG_BYPASS (R600). -/
def execJtagBypass (tdi : List Bool) (s : State) : Host.Outcome State Fault Refusal := .next (if s.tapOn then s.bypass tdi else s)

/-- JTAG_IDCODE (R600): version 1 on revision A, 2 on B; part number 0x0094. -/
def execJtagIdcode (s : State) : Host.Outcome State Fault Refusal :=
  .next (
    if !s.tapOn then s else
    s.modUnit fun u => { u with
      ir := .idcode, pinsDriven := false, highZ := false
      tdo := leBytes 4 (s.fuses.series * 2 ^ 28 + 0x0094 * 2 ^ 12 + Config.idcode.toNat * 2 + 1) })

/-- JTAG_SAMPLE_PRELOAD (R600): in boundary-scan mode it captures the balls and loads the boundary register; else it acts as BYPASS. -/
def execJtagSamplePreload (pins load : List Bool) (s : State) : Host.Outcome State Fault Refusal :=
  .next (
    if !s.tapOn then s
    else if !s.scanMode then s.bypass load
    else s.modUnit fun u => { u with ir := .sample, tdo := packBits pins, boundary := load, pinsDriven := false, highZ := false })

/-- JTAG_EXTEST (R600). -/
def execJtagExtest (pins load : List Bool) (s : State) : Host.Outcome State Fault Refusal :=
  .next (
    if !s.tapOn then s
    else if !s.scanMode then s.bypass load
    else s.modUnit fun u => { u with ir := .extest, tdo := packBits pins, boundary := load, pinsDriven := true, highZ := false })

/-- JTAG_CLAMP (R600): the balls hold the preloaded values, and the port bypasses. -/
def execJtagClamp (s : State) : Host.Outcome State Fault Refusal :=
  .next (
    if !s.tapOn then s
    else if !s.scanMode then s.bypass []
    else s.modUnit fun u => { u with ir := .clamp, tdo := [], pinsDriven := true, highZ := false })

/-- JTAG_HIGHZ (R600): every output ball is in high impedance. -/
def execJtagHighz (s : State) : Host.Outcome State Fault Refusal :=
  .next (
    if !s.tapOn then s
    else if !s.scanMode then s.bypass []
    else s.modUnit fun u => { u with ir := .highz, tdo := [], pinsDriven := false, highZ := true })

/-- DBG_CHAL (R601): a fresh nonce, the serial number, 8 zero bytes; BYPASS once the attempts are exhausted. -/
def execDbgChal (s : State) : Host.Outcome State Fault Refusal :=
  .next (
    if !s.tapOn ∨ s.scanMode then s
    else if s.unit.exhausted then s.bypass []
    else
      let c := (List.range 32).map (fun k => Config.nonceByte s.unit.nonces k) ++ leBytes 8 s.fuses.serial ++ leBytes 8 0
      s.modUnit fun u => { u with ir := .dbgChal, tdo := c, challenge := some c, nonces := u.nonces + 1 })

/-- A response verifies: SCOPE, debug slot, signature over the challenge and SCOPE (R601; log 67). -/
def State.responseOk (s : State) (r : List Byte) : Bool :=
  match s.unit.challenge with
  | none => false
  | some c =>
    let k := s.key (12 + byteAt r 4)
    decide (byteAt r 4 ≤ 1) && k.good && ecdsaVerify k.x k.y (sha256 (c ++ padTo 4 r)) ((padTo 69 r).drop 5)

/-- DBG_RESP (R601, R602): each challenge serves one response; the third failure exhausts the attempts (log 67). -/
def execDbgResp (response : List Byte) (s : State) : Host.Outcome State Fault Refusal :=
  .next (
    if !s.tapOn ∨ s.scanMode then s
    else if s.unit.exhausted then s.bypass []
    else
      let ok := s.responseOk response
      let s := s.modUnit fun u => { u with ir := .dbgResp, challenge := none }
      if ok then
        if s.unit.debugFuse then s
        else (s.modUnit fun u => { u with unlocked := true, scope := leAt response 0 4 }).setFlag 0x9040 16
      else s.modUnit fun u => { u with failed := u.failed + 1, exhausted := decide (3 ≤ u.failed + 1) })

/-- The bit of SCOPE that an operation needs (R601). -/
def DebugOp.scope : DebugOp → Nat
  | .haltCore => 0
  | .stepCore => 0
  | .resumeCore => 0
  | .scan => 2
  | _ => 1

/-- A store of a tile, as the debugger names it: 0 weight bed, 1 instruction memory, each the crest half; 2 activation buffer. -/
def State.debugTile (s : State) (t store addr : Nat) (w : Option Byte) : State × Byte :=
  let h := s.bedHalf t (s.crestHalf t)
  let b := (s.tile t).halves.toList.getD h {}
  match store with
  | 0 => (match w with | some v => s.modHalf t h fun b => { b with wbed := b.wbed.put addr v } | none => s, b.wbed.byte addr)
  | 1 => (match w with | some v => s.modHalf t h fun b => { b with imem := b.imem.put addr v } | none => s, b.imem.byte addr)
  | _ => (match w with | some v => s.modTile t fun x => { x with abuf := x.abuf.put addr v } | none => s, (s.tile t).abuf.byte addr)

/-- DBG_ACCESS (R601): within the granted SCOPE; what an internal scan shifts out is open (log 43). While debug is locked it acts as BYPASS (R600). -/
def execDbgAccess (op : DebugOp) (t : Time) (s : State) : Host.Outcome State Fault Refusal :=
  .next (
    let s := s.at t
    if !s.tapOn ∨ s.scanMode then s
    else if !s.unit.unlocked ∨ s.unit.scope.testBit op.scope = false then s.bypass []
    else
      let s := s.modUnit fun u => { u with ir := .dbgAccess, tdo := [] }
      match op with
      | .haltCore => s.modUnit fun u => { u with coreHalted := true }
      | .stepCore => s
      | .resumeCore => s.modUnit fun u => { u with coreHalted := false }
      | .readTile tile store addr => s.modUnit fun u => { u with tdo := [(s.debugTile tile store addr none).2] }
      | .writeTile tile store addr v => (s.debugTile tile store addr (some v)).1
      | .readReservoir addr => s.modUnit fun u => { u with tdo := [s.resv.mem.byte addr] }
      | .writeReservoir addr v => s.resvWrite addr [v] clean 0
      | .scan => { s.modUnit (fun u => { u with tdo := Config.scanBits s.free }) with free := s.free + 1 })

/-- RELOCK (R601). -/
def execRelock (s : State) : Host.Outcome State Fault Refusal := .next (s.modUnit fun u => { u with unlocked := false, scope := 0 })

/-! ### Reset requests (R588, R590, R591, R332) -/

/-- WARM_DEFERRED (R590): a request waits while a slip is ARMING or ARMED; one made after the power-down sequence has started is ignored. -/
def State.askWarm (s : State) (cause : Nat) : State :=
  if s.unit.phase ≠ .running then s
  else
    let s := s.modUnit fun u => { u with warmPending := some (u.warmPending.getD cause) }
    if s.slip.st = .arming ∨ s.slip.st = .armed then s.setFlag 0x9004 8 else s

/-- WARM_RST_N_ASSERT (R588): low for at least 10 µs. -/
def execWarmRstNAssert (us : Nat) (s : State) : Host.Outcome State Fault Refusal := .next (if 10 ≤ us then s.askWarm 3 else s)

/-- WATCHDOG_EXPIRY (R588): of the management core. -/
def execWatchdogExpiry (s : State) : Host.Outcome State Fault Refusal := .next (if s.unit.fwRunning then s.askWarm 5 else s)

/-- RST_CTL_WARM (R588). -/
def execRstCtlWarm (key : Nat) (s : State) : Host.Outcome State Fault Refusal := .next (if key = 0xA5 then s.askWarm 4 else s)

/-- WARM_RESET (R332, R589): the requested warm reset takes place. -/
def execWarmReset (s : State) : Host.Outcome State Fault Refusal :=
  .next (
    match s.unit.warmPending with
    | none => s
    | some cause => if s.unit.phase ≠ .running ∨ s.slip.st = .arming ∨ s.slip.st = .armed then s else s.warm cause)

/-- RST_CTL_COLD (R588). -/
def execRstCtlCold (key : Nat) (s : State) : Host.Outcome State Fault Refusal :=
  .next (if key = 0xA5 ∧ s.unit.phase = .running then s.blank .bringUp 2 else s)

/-- RST_CTL_SHUTDOWN (R604). -/
def execRstCtlShutdown (key : Nat) (t : Time) (s : State) : Host.Outcome State Fault Refusal :=
  .next (let s := s.at t; if key = 0xA5 then s.startDown 1 else s)

/-- RST_DOMAIN_WRITE (R591): a row passes through A3 once it is idle, or DOMAIN_REFUSED is set. -/
def execRstDomainWrite (value : Word) (t : Time) (s : State) : Host.Outcome State Fault Refusal :=
  .next (
    let s := s.at t
    let d := fld value 6 0
    let covered := s.jobs.any fun j => j.reserved && decide (s.time.now < j.end_) && j.tiles.any fun t => decide (rowDom t = d)
    if !isRowDom d then s.setFlag 0x9004 9
    else if !s.ergLive (domDie d) then s.absentAccess (domDie d)
    else if covered ∨ s.slip.st ≠ .idle ∨ (s.row d).noA3 then s.setFlag 0x9004 9
    else
      let s := s.setRow d { s.row d with passage := true }
      if s.rowQuiet d ∧ s.rowSteady d then s.rowPassage d else s)

/-! ### DFL_HOLD (R603) -/

/-- DFL_HOLD_SET (R538, R603): no port sends, and its link is down. -/
def execDflHoldSet (t : Time) (s : State) : Host.Outcome State Fault Refusal :=
  .next (
    let s := (s.at t).setReg 0x9018 1
    (List.range 4).foldl (fun s p => if (s.port p).up then s.linkDown p s.time.now 0 else s) s)

/-- DFL_HOLD_CLEAR (R603). -/
def execDflHoldClear (s : State) : Host.Outcome State Fault Refusal := .next (s.setReg 0x9018 0)

/-! ### Power-down (R604 to R608) -/

/-- Step 2: every A domain is off; the running jobs are abandoned with no record and no verdict. -/
def State.dropWork (s : State) : State :=
  { s with jobs := [], cycles := [], submits := [], tiles := [], net := {}, apply := .replicate 4 {}, resv := s.resv }

/-- Step 4: ENTER_LIMP to every attached chip (R553). -/
def State.limpAll (s : State) : State :=
  (List.range 4).foldl (fun s p =>
    if (s.port p).attached then
      (s.sendReg p 0x010 2).modUnit fun u => { u with limpTags := u.limpTags ++ [(p, ((s.port p).nextTag + 1) % 256)] }
    else s) s

/-- One step of the sequence (R605; log 8). -/
def State.downStep (s : State) : State :=
  let s' := match s.unit.step with
    | 0 => s.shdnWrite 2
    | 1 => s.dropWork
    | 2 => { s.linkReset with power := { s.power with fOn := .replicate 8 false } }
    | 3 => s.limpAll
    | 4 => { s with ports := s.ports.map DflPort.sentOnly }
    | 5 => s.shdnWrite 3
    | _ => s.modUnit fun u => { u with shdnDone := true, phase := .waiting }
  s'.modUnit fun u => { u with step := min 7 (u.step + 1) }

/-- POWER_DOWN_START (R605): the sequence completes its next step (log 8; log 66). -/
def execPowerDownStart (t : Time) (s : State) : Host.Outcome State Fault Refusal :=
  .next (let s := s.at t; if s.unit.phase = .powerDown then s.downStep else s)

/-- PWR_FAIL_N_FALL (R604, R606): low for at least 1 µs. -/
def execPwrFailNFall (us : Nat) (t : Time) (s : State) : Host.Outcome State Fault Refusal :=
  .next (
    let s := s.at t
    if us < 1 then s else (s.startDown 2).modUnit fun u => { u with rails := u.rails ||| 16 })

/-- RAIL_COLLAPSE (R607): before step 6 completes, the sequencer stops and writes an UNCLEAN record (log 66). -/
def execRailCollapse (rail : Nat) (t : Time) (s : State) : Host.Outcome State Fault Refusal :=
  .next (
    let s := s.at t
    if 4 ≤ rail ∨ !(decide (s.unit.phase = .running) || decide (s.unit.phase = .powerDown ∧ s.unit.step < 6)) then s else
    let s := s.startDown 5
    let s := s.modUnit fun u => { u with rails := u.rails ||| 2 ^ rail }
    (s.shdnWrite 4).modUnit fun u => { u with phase := .waiting })

/-- VDD_KEEP_LOSS (R592, R606): what is not volatile stays. -/
def execVddKeepLoss (s : State) : Host.Outcome State Fault Refusal := .next (s.blank .unpowered 0)

end Sys2Proof.Machine
end

