-- ==== Sys2Proof/Machine/RegRead.lean ====
section
/-! DEFINITION. What a register word reads as (00 R10 to R16; 02 R47 to R54; 12 R317; 15 R383; the register tables of the owning chapters): stored words, banked words, and the words that show other state. -/

namespace Sys2Proof.Machine

/-! ### Places (R53, R317, R383) -/

/-- The normal offset of a BAR0 word: a lee view lies 0x10000 above its block (R317). The views of the codebook windows are no part of this. -/
def normalOff (a : Nat) : Nat :=
  if (0x00010000 ≤ a ∧ a < 0x00020000) ∨ (0x00400000 ≤ a ∧ a < 0x00800000 ∧ a / leeView % 2 = 1) then a - leeView else a

/-- A BAR0 offset is in a lee view. -/
def isLeeView (a : Nat) : Bool := decide (normalOff a ≠ a)

/-- The group of the absent unit that an entry of the PWR_ block is indexed by (R358; log 69). -/
def State.absentPwr (s : State) (o : Nat) : Option Nat :=
  let dom (d : Nat) : Option Nat :=
    if 16 ≤ d ∧ d < 84 then (if s.ergLive (domDie d) then none else some (domDie d))
    else if 5 ≤ d ∧ d < 9 ∧ !s.mesaLive 1 then some 4 else none
  if 0x480 ≤ o ∧ o < 0x6A0 then dom ((o - 0x400) / 8)
  else if 0x800 ≤ o ∧ o < 0x950 then dom ((o - 0x800) / 4)
  else if 0xC00 ≤ o ∧ o < 0xD50 then
    let n := (o - 0xC00) / 4
    if n < 68 then (if s.ergLive (n / 17) then none else some (n / 17))
    else if 72 ≤ n ∧ n < 76 ∧ !s.mesaLive 1 then some 4
    else if 76 ≤ n ∧ n - 76 < s.fuses.stackCount ∧ !s.ergLive (s.stackDie (n - 76)) then some (s.stackDie (n - 76)) else none
  else none

/-- The group of the absent unit in a region of mesa die `j` (R53, R55): the reflex rules and ACT_STS are there without option A. -/
def State.absentMesa (s : State) (j o : Nat) : Option Nat :=
  if !s.mesaLive j then (if j = 1 then some 4 else none)
  else match o / 0x20000 with
    | 4 =>
      let p := if o % 0x20000 < 0x100 then o % 0x20 / 4 else (o % 0x20000 - 0x100) / 0x20
      if !s.fuses.optA || (decide (p < 2) && !s.dflLive (2 * j + p)) then some (10 + j) else none
    | 6 =>
      let c := o % 0x20000 / 0x1000
      if j = 0 && decide (c < 4) && !s.dflLive c then some (10 + c / 2) else none
    | 9 => if s.fuses.optV then none else some (5 + j)
    | 10 => if s.fuses.optT then none else some (7 + j)
    | _ => none

/-- The group of MESA_CAP_ABSENT_STS that an access to a normal offset meets when its unit is absent or out of service (R53, R54; log 69). -/
def State.absentGroup (s : State) (a : Nat) : Option Nat :=
  if 0x1000 ≤ a ∧ a < 0x2000 then s.absentPwr (a - 0x1000)
  else if 0x6000 ≤ a ∧ a < 0x9000 then (if s.fuses.optD then none else some 9)
  else if 0x00400000 ≤ a ∧ a < 0x00800000 then s.absentMesa ((a - 0x00400000) / 0x00200000) ((a - 0x00400000) % 0x00200000)
  else if 0x00800000 ≤ a ∧ a < 0x00A00000 then
    (if s.tileOn ((a - 0x00800000) / 0x1000) then none else some ((a - 0x00800000) / 0x1000 / 128))
  else if 0x00C00000 ≤ a ∧ a < 0x01000000 then
    (if s.ergLive ((a - 0x00C00000) / 0x00100000) then none else some ((a - 0x00C00000) / 0x00100000))
  else none

/-! ### Words that show other state -/

/-- A capability word (R47 to R50). -/
def State.capWord (s : State) (o : Nat) : Word :=
  let f := s.fuses
  let io : Nat := 32 + 64 * 2 ^ 8 + 4 * 2 ^ 16 + 4 * 2 ^ 20 + (if f.optV then 8 else 0) * 2 ^ 24 + (if f.optT then 8 else 0) * 2 ^ 28
  let aDoms := 17 * f.ergCount
  let fDoms := 4 * f.mesaCount
  BitVec.ofNat 32 (match o with
    | 0x00 => 0x0001000B
    | 0x04 => 0x04010E94
    | 0x08 => 1 + f.series * 2 ^ 8 + f.series * 2 ^ 12 + 0x0094 * 2 ^ 16
    | 0x0C => f.ergCount + f.stackCount * 2 ^ 3 + f.mesaCount * 2 ^ 7 + b2n f.optV * 2 ^ 12 + b2n f.optT * 2 ^ 13 + b2n f.optD * 2 ^ 14 + b2n f.optA * 2 ^ 15
    | 0x10 => f.allLive.toNat
    | 0x14 => s.live.toNat
    | 0x18 => 16 + f.series * 2 ^ 8 + (if f.series = 1 then 460 else 819) * 2 ^ 16
    | 0x1C => 128 * f.ergCount + 3072 * 2 ^ 16
    | 0x20 => io
    | 0x24 => if f.mesaCount = 2 then io else 0
    | 0x28 => (if f.series = 1 then 4 else 5) + 16 * 2 ^ 4 + 2 ^ 10 + 2 ^ 11 + (if f.series = 1 then 0 else 2 ^ 12)
    | 0x2C => 1 + fDoms * 2 ^ 8 + aDoms * 2 ^ 16 + (1 + fDoms + aDoms) * 2 ^ 24
    | 0x30 => 400 + 1600 * 2 ^ 16
    | 0x34 => 65536 * f.ergCount
    | _ => 0)

/-- UP_SHARE and DOWN_SHARE of a link: what the admitted reservations of now hold (R119, R120). -/
def State.linkShare (s : State) (n : Nat) : Nat × Nat :=
  (s.reserved s.time.now (s.time.now + 1)).foldl (fun (x : Nat × Nat) (j : Job) => (x.1 + (j.share.getD n (0, 0)).1, x.2 + (j.share.getD n (0, 0)).2)) (0, 0)

/-- Word `k` of a number, least significant word first. -/
def wordOf (v k : Nat) : Word := BitVec.ofNat 32 (v / 2 ^ (32 * k))

/-- Words of mesa die 0 below 0x1000. -/
def State.headRead (s : State) (a : Nat) : Word :=
  if a < 0x40 then s.capWord a
  else if a = 0x88 then setFld (s.reg a) 1 1 (b2n s.time.replay)
  else if 0x100 ≤ a ∧ a < 0x12C then
    let n := (a - 0x100) / 4
    let x := s.linkShare n
    setFld (setFld (setFld (s.reg a) 6 0 x.1) 14 8 x.2) 15 15 (b2n (s.linkPresent n))
  else if a = 0x204 then
    let st := match s.slip.st with | .idle => 0 | .preparing => 1 | .arming => 2 | .armed => 3
    setFld (setFld (setFld (s.reg a) 2 0 st) 15 8 s.slip.reason) 31 16 s.slip.id
  else if a = 0x248 ∨ a = 0x24C then wordOf s.slip.last ((a - 0x248) / 4)
  else if 0x260 ≤ a ∧ a < 0x280 then wordOf s.slip.crestDigest ((a - 0x260) / 4)
  else if 0x280 ≤ a ∧ a < 0x2A0 then wordOf s.slip.leeDigest ((a - 0x280) / 4)
  else s.reg a

/-- PWR_DOM_STS of a domain (R358); an F or K domain shows no voltage and no exit latency. -/
def State.domWord (s : State) (d : Nat) : Word :=
  let volt := (domOases d).foldl (fun (v : Nat) (o : Oasis) => max v (s.oasis o).volt) 0
  BitVec.ofNat 32 (
    if d = 0 then 8
    else if 1 ≤ d ∧ d < 9 then (if s.mesaLive ((d - 1) / 4) then 8 + (if s.power.fOn.toList.getD (d - 1) false then 0 else 3) else 0)
    else if isRowDom d then
      let r := s.row d
      r.state + 4 * b2n r.noA3 + 8 + 16 * volt + ((s.exitNs d r.state + 99) / 100) * 2 ^ 12
    else if isCommonDom d then
      b2n (s.power.commonA1.toList.getD (domDie d) false) + 8 + 16 * volt + ((s.commonNs (domDie d) + 99) / 100) * 2 ^ 12
    else 0)

/-- PWR_ words (R358; log 69). -/
def State.pwrRead (s : State) (o : Nat) : Word :=
  if 0x800 ≤ o ∧ o < 0x950 then s.domWord ((o - 0x800) / 4)
  else if 0xC00 ≤ o ∧ o < 0xD50 then
    (match s.power.temps.find? fun e => decide (e.1 = (o - 0xC00) / 4) with
     | some e => BitVec.ofNat 32 (toTwos 12 e.2 + 2 ^ 12)
     | none => 0)
  else s.reg (0x1000 + o)

/-- Host-link words (15). -/
def State.hostRead (s : State) (o : Nat) : Word :=
  if o = 0x160 then 0
  else if o = 0x164 then setFld (s.reg 0x3164) 0 0 (b2n s.link.hp1Busy.isSome)
  else if 0x200 ≤ o ∧ o < 0x400 ∧ (o - 0x200) % 0x40 = 0x14 then setFld (s.reg (0x3000 + o)) 0 0 (b2n (s.queue ((o - 0x200) / 0x40)).enabled)
  else if 0x200 ≤ o ∧ o < 0x400 ∧ (o - 0x200) % 0x40 = 0x18 then
    let q := s.queue ((o - 0x200) / 0x40)
    BitVec.ofNat 32 (q.sqHead + q.cqTail * 2 ^ 12 + b2n q.active * 2 ^ 24 + q.err * 2 ^ 28)
  else s.reg (0x3000 + o)

/-- The code of a servo state. -/
def Servo.code : Servo → Nat
  | .stopped => 0
  | .acquiring => 1
  | .locked => 2
  | .holdover => 3

/-- Time words (15). -/
def State.timeRead (s : State) (o : Nat) : Word :=
  match o with
  | 0x000 => loWord s.time.now
  | 0x004 => hiWord s.time.now
  | 0x014 => setFld (setFld (s.reg 0x4014) 1 0 s.time.servo.code) 2 2 (b2n s.time.running)
  | 0x018 => BitVec.ofNat 32 (toTwos 32 s.time.offset)
  | 0x01C => BitVec.ofNat 32 (toTwos 32 s.time.freq)
  | _ => s.reg (0x4000 + o)

/-- A word of a byte string. -/
def wordAt (bs : List Byte) (off : Nat) : Word := BitVec.ofNat 32 (leAt bs off 4)

/-- Fault and log words (R587). -/
def State.faultRead (s : State) (o : Nat) : Word :=
  if o = 0x000 then setFld (s.reg 0x5000) 8 8 (b2n s.logs.safe)
  else if o = 0x00C then BitVec.ofNat 32 s.logs.faultRef
  else if 0x100 ≤ o ∧ o < 0xD00 then wordAt (mget (fun _ => []) s.logs.store ((o - 0x100) / 48)) ((o - 0x100) % 48)
  else s.reg (0x5000 + o)

/-- DW_ words that show Dunewatch's state (R377). -/
def State.dwRead (s : State) (o : Nat) : Word :=
  if o = 0x004 then
    let levels := (List.range 4).foldl (fun n k => n + b2n (s.dw.out.toList.getD k {}).level * 2 ^ k) 0
    setFld (setFld (s.reg 0x6004) 11 8 levels) 12 12 (b2n s.dw.job.isSome)
  else if o = 0x024 then Config.dwRomId
  else if o = 0x028 then BitVec.ofNat 32 (s.dw.top % 8 + 8 * (s.dw.det % 8))
  else if o = 0x02C then BitVec.ofNat 32 (toTwos 32 s.dw.score)
  else if o = 0x030 then loWord s.dw.lastStamp.toNat
  else if o = 0x034 then hiWord s.dw.lastStamp.toNat
  else if o = 0x0F0 then 0
  else if 0x100 ≤ o ∧ o < 0x200 then wordAt (s.dw.embed.map fun b => BitVec.ofNat 8 b) (o - 0x100)
  else if 0x1000 ≤ o ∧ o < 0x22C0 then wordAt (s.dw.feed.bytes (o - 0x1000) 4) 0
  else s.reg (0x6000 + o)

/-- The 64 bytes of a shutdown record (R606). -/
def ShdnRec.bytes (r : ShdnRec) : List Byte :=
  let b := [0x57, 0x51, 0x53, 0x44] ++ leBytes 4 r.seq ++ leBytes 1 r.state ++ leBytes 1 r.cause ++ leBytes 1 r.step ++ leBytes 1 r.rails ++
    leBytes 4 r.live.toNat ++ leBytes 8 r.stStart ++ leBytes 8 r.stWrite ++ leBytes 4 r.faultRef ++ leBytes 2 r.slipId ++ leBytes 1 r.slipState ++
    leBytes 1 r.chips ++ padTo 16 r.crest ++ leBytes 4 0
  b ++ leBytes 4 (crc32 b)

/-- The code of a key slot (R610). -/
def KeySlot.code (k : KeySlot) : Nat := match k.state with | .empty => 0 | .valid => (if onCurve k.x k.y then 1 else 2) | .revoked => 2

/-- Reset, boot, OTP and debug words (R610). -/
def State.resetRead (s : State) (o : Nat) : Word :=
  let u := s.unit
  match o with
  | 0x004 => setFld (setFld (s.reg 0x9004) 3 0 u.lastCause) 31 16 u.warmCount
  | 0x010 => setFld (setFld (setFld (s.reg 0x9010) 1 0 u.fwCopy) 2 2 (b2n u.fwRunning)) 3 3 (b2n u.bootFailed)
  | 0x014 => BitVec.ofNat 32 u.fwVersion
  | 0x020 => BitVec.ofNat 32 ((u.otp.toList.zipIdx).foldl (fun n e => n + e.1.code * 4 ^ e.2) 0)
  | 0x028 => BitVec.ofNat 32 (u.otpResult + u.rollback * 2 ^ 8)
  | 0x040 =>
    let lock := if u.debugFuse then 2 else if u.unlocked then 1 else 0
    setFld (setFld (setFld (s.reg 0x9040) 1 0 lock) 2 2 (b2n u.exhausted)) 15 8 u.scope
  | _ =>
    if 0x100 ≤ o ∧ o < 0x140 then (match u.shown with | some r => wordAt r.bytes (o - 0x100) | none => 0)
    else s.reg (0x9000 + o)

/-- ACT_DFL_STS of a port (17). -/
def DflPort.word (d : DflPort) : Word :=
  BitVec.ofNat 32 (b2n d.up + 2 * b2n d.attached + 4 * b2n d.seated + 8 * b2n d.hold + d.rev * 2 ^ 8 + d.crcErr * 2 ^ 16 + d.retx * 2 ^ 24)

/-- Words of a mesa region that show other state; the rest are stored words. -/
def State.mesaRead (s : State) (j o : Nat) : Word :=
  let a := mesaBase j + o
  if o = 0x004 ∧ j = 0 then setFld (s.reg a) 10 0 s.tableUsed
  else if inWords o 0x00080000 2 then (s.port (2 * j + (o - 0x00080000) / 4)).word
  else if o = 0x0008010C ∨ o = 0x0008012C then setFld (s.reg a) 0 0 (b2n (s.port (2 * j + (o - 0x0008010C) / 0x20)).reg.isSome)
  else if 0x00120000 ≤ o ∧ o < 0x00120300 ∧ o % 0x20 = 0x10 then BitVec.ofNat 32 ((s.die j).cam.toList.getD ((o - 0x00120000) / 0x20) {}).frames
  else if inWords o 0x00120400 8 then setFld (s.reg a) 16 16 (b2n ((s.die j).locked.toList.getD ((o - 0x00120400) / 4) false))
  else if 0x00140000 ≤ o ∧ o < 0x00140200 ∧ o % 0x40 = 0x14 then
    let p := (s.die j).tag.toList.getD ((o - 0x00140000) / 0x40) {}
    BitVec.ofNat 32 (p.events + p.rejects * 2 ^ 16)
  else if 0x00160000 ≤ o ∧ o < 0x00161000 ∧ o % 0x400 = 0x00 then
    setFld (s.reg a) 2 2 (b2n ((s.die j).can.toList.getD ((o - 0x00160000) / 0x400) {}).init)
  else if 0x00160000 ≤ o ∧ o < 0x00161000 ∧ o % 0x400 = 0x0C then
    let c := (s.die j).can.toList.getD ((o - 0x00160000) / 0x400) {}
    BitVec.ofNat 32 (c.tec + c.rec_ * 2 ^ 16)
  else s.reg a

/-- Words of a tile's register block (R148). -/
def State.tileRead (s : State) (t o : Nat) : Word :=
  let cb (h i : Nat) : Nat := mget (fun _ => 0) ((s.tile t).half h).cb i
  if o = 0x000 then BitVec.ofNat 32 (t % 16 + t / 16 % 8 * 2 ^ 4 + t / 128 * 2 ^ 7 + t * 2 ^ 16)
  else if o = 0x008 then setFld (s.reg (tileBase t + 8)) 1 1 (b2n (s.tile t).retiring.isSome)
  else if o = 0x030 then (if h : t < 512 then BitVec.ofNat 32 (s.oasis (.tile ⟨t, h⟩)).mhz else 0)
  else if 0x400 ≤ o ∧ o < 0xC00 then
    let h := if o < 0x800 then s.crestHalf t else s.leeHalf t
    let j := (o - 0x400) % 0x400 / 4
    BitVec.ofNat 32 (cb h (2 * j) + cb h (2 * j + 1) * 2 ^ 16)
  else s.reg (tileBase t + o)

/-- Words of an erg region (R51, R281, R282). -/
def State.ergRead (s : State) (k o : Nat) : Word :=
  let u := s.applyUnit k
  if 0x100 ≤ o ∧ o < 0x110 then BitVec.ofNat 32 (s.tileLive.toNat / 2 ^ (128 * k + 8 * (o - 0x100)))
  else if o = 0x204 then BitVec.ofNat 32 (u.binds.length + u.peak * 2 ^ 16)
  else if o = 0x208 ∨ o = 0x20C then wordOf u.opsApplied ((o - 0x208) / 4)
  else if 0x00080000 ≤ o then wordOf (u.word ((o - 0x00080000) / 8)).word (o % 8 / 4)
  else s.reg (ergBase k + o)

/-- The stored or shown part of the word at a normal offset. -/
def State.plainRead (s : State) (a : Nat) : Word :=
  if a < 0x1000 then s.headRead a
  else if a < 0x2000 then s.pwrRead (a - 0x1000)
  else if a < 0x3000 then 0
  else if a < 0x4000 then s.hostRead (a - 0x3000)
  else if a < 0x5000 then s.timeRead (a - 0x4000)
  else if a < 0x6000 then s.faultRead (a - 0x5000)
  else if a < 0x9000 then s.dwRead (a - 0x6000)
  else if a < 0xA000 then s.resetRead (a - 0x9000)
  else if 0x00200000 ≤ a ∧ a < 0x00400000 then (if s.unit.bootFailed then mget (fun _ => 0) s.unit.recovery a else 0)
  else if 0x00400000 ≤ a ∧ a < 0x00800000 then s.mesaRead ((a - 0x00400000) / 0x00200000) ((a - 0x00400000) % 0x00200000)
  else if 0x00800000 ≤ a ∧ a < 0x00A00000 then s.tileRead ((a - 0x00800000) / 0x1000) ((a - 0x00800000) % 0x1000)
  else if 0x00C00000 ≤ a ∧ a < 0x01000000 then s.ergRead ((a - 0x00C00000) / 0x00100000) ((a - 0x00C00000) % 0x00100000)
  else 0

/-- A banked word as a register read shows it: crest, or lee at a lee view (R16, R317); a poisoned word's value is open (R574, log 56). -/
def State.shownWord (s : State) (lee : Bool) (n : Nat) : Word :=
  if mget clean (if lee then s.leeBad else s.crestBad) n then Config.poisonWord n s.time.now
  else if lee then s.leeWord n else s.crestWord n

/-- What a 32-bit read of a BAR0 offset returns (R13, R14, R16, R53, R317): the RWL bits from crest, at a lee view from lee (log 9). -/
def State.readWord (s : State) (a : Nat) : Word :=
  let n := normalOff a
  if (s.absentGroup n).isSome then 0
  else mergeMask (regInfo n).rwl (s.plainRead n) (s.shownWord (isLeeView a) n)

/-- The low word of a 64-bit register (R10, R11). -/
def isLow64 (a : Nat) : Bool :=
  let n := normalOff a
  (regInfo n).lowOf64 || decide (n ∈ [0x248, 0x4000, 0x6030]) ||
  decide (0x00800000 ≤ n ∧ n < 0x00A00000 ∧ (n % 0x1000 = 0x40 ∨ n % 0x1000 = 0x48)) ||
  decide (0x00C00000 ≤ n ∧ n < 0x01000000 ∧ (n % 0x00100000 = 0x208 ∨ (0x00080000 ≤ n % 0x00100000 ∧ n % 8 = 0)))

/-- What a read of a high word returns: the value latched with its low word, if no access to the pair came between (R11). -/
def State.readHigh (s : State) (a : Nat) : Word := mget (fun _ => s.readWord a) s.latch (a - 4)

end Sys2Proof.Machine
end

