-- ==== Sys2Proof/Machine/Register.lean ====
section
/-! DEFINITION. Register accesses (00 R10 to R16; 02 R53 to R55; 12 R317; 15 R380 to R394; 16 R410, R421; 17 R443): each write lands by the type of its field, or does what its register starts (log 11). -/

namespace Sys2Proof.Machine

/-- The state that a meaning answers. -/
def answer (s : State) (o : Host.Outcome State Fault Refusal) : State :=
  match o with
  | .next s' => s'
  | _ => s

/-! ### A plain write (R13, R14, R16) -/

/-- A write to the RW bits of a word, a clear of its W1C bits, and its RWL bits into lee. -/
def State.plainWrite (s : State) (a : Nat) (v : Word) : State :=
  let i := regInfo a
  let s := s.setReg a (mergeMask i.rw (s.reg a) v &&& ~~~(v &&& i.w1c))
  if i.rwl = 0 then s else s.leeWrite a i.rwl v

/-- A field brought into its range. -/
def clampFld (w : Word) (hi lo least top : Nat) : Word := setFld w hi lo (max least (min top (fld w hi lo)))

/-! ### Mesa die 0 -/

/-- Words below 0x1000 (R92, R330). -/
def State.headWrite (s : State) (a : Nat) (v : Word) (t : Time) : State :=
  if a = 0x88 then
    let s := s.plainWrite a v
    answer s (if bit v 1 then execReplayStart 0 s else execReplayEnd s)
  else if a = 0x200 then
    let s := answer s (execSlipPrepareWrite v t s)
    if bit v 1 then answer s (execSlipAbortWrite t s) else s
  else s.plainWrite a v

/-- PWR_ words (R347, R357, R358). -/
def State.pwrWrite (s : State) (o : Nat) (v : Word) (t : Time) : State :=
  let a := 0x1000 + o
  if o = 0x00C then s.plainWrite a (clampFld (clampFld v 7 0 70 105) 15 8 80 110)
  else if o = 0x010 then
    answer s (match fld v 9 8 with
      | 1 => execHintRegIdleSoon (fld v 6 0) t s
      | 2 => execHintRegBusySoon (fld v 6 0) t s
      | _ => execHintRegNoChange (fld v 6 0) s)
  else if 0x480 ≤ o ∧ o < 0x6A0 then
    s.plainWrite a (if o % 8 = 0 then clampFld (clampFld v 7 0 0 160) 15 8 0 160 else clampFld (clampFld v 10 0 400 1600) 22 12 400 1600)
  else s.plainWrite a v

/-- Registers of a queue pair (R394, R397). -/
def State.queueWrite (s : State) (q : Fin 8) (w : Nat) (v : Word) : State :=
  let a := queueReg q (4 * w)
  if w ≤ 4 then (if (s.queue q).enabled then s.hpFlag 1 else s.plainWrite a v)
  else if w = 5 then
    let s := s.plainWrite a v
    answer s (if bit v 0 then execQueueEnable q s else if (s.queue q).enabled then execQueueDisable q s else .next s)
  else s

/-- Host-link words (R386, R393, R394). -/
def State.hostWordWrite (s : State) (o : Nat) (v : Word) (t : Time) : State :=
  if o = 0x00C then answer s (execStageConfigWrite v s)
  else if o = 0x160 then answer s (execHp1Doorbell v t s)
  else if 0x200 ≤ o ∧ o < 0x400 then s.queueWrite (Fin.ofNat 8 ((o - 0x200) / 0x40)) ((o - 0x200) % 0x40 / 4) v
  else s.plainWrite (0x3000 + o) v

/-- Time words (R404, R407). -/
def State.timeWrite (s : State) (o : Nat) (v : Word) : State :=
  if o = 0x010 then
    let s' := answer s (execTimeConfigChange v s)
    if bit v 0 && !(bit v 4 && decide (s.fuses.series = 1)) then answer s' (execTimeStart s') else s'
  else if o = 0x020 then s.plainWrite 0x4020 (clampFld v 31 0 0 1000000000)
  else s.plainWrite (0x4000 + o) v

/-- Fault and log words (R563, R585, R587). -/
def State.faultWrite (s : State) (o : Nat) (v : Word) : State :=
  if o = 0x008 then
    let s := s.plainWrite 0x5008 v
    if bit v 18 then answer s (execSafeClear false s) else s
  else if 0x020 ≤ o ∧ o < 0x030 then (if bit (s.reg 0x5030) ((o - 0x020) / 8) then s else s.plainWrite (0x5000 + o) v)
  else if o = 0x06C then answer s (execLogHostHeadWrite v s)
  else s.plainWrite (0x5000 + o) v

/-- DW_ words (R377). -/
def State.dwWrite (s : State) (o : Nat) (v : Word) (t : Time) : State :=
  let a := 0x6000 + o
  if o = 0x000 then
    let s := answer s (execDwFreeze (bit v 1) s)
    answer s (if bit v 0 then execDwEnable t s else execDwDisable t s)
  else if o = 0x010 then s.plainWrite a (setFld (clampFld v 31 16 33 1000) 12 8 (min 23 (fld v 12 8)))
  else if o = 0x0F0 then (if bit v 0 then answer s (execDwFeedGo t s) else s)
  else if 0x1000 ≤ o ∧ o < 0x22C0 then { s with dw := { s.dw with feed := s.dw.feed.putNum (o - 0x1000) 4 v.toNat } }
  else s.plainWrite a v

/-- The staged bytes of a key request (R599; log 67). -/
def State.keyRequest (s : State) : List Byte := s.resv.mem.bytes (s.stageBase + s.getPair 0x9030) 192

/-- Reset, boot, OTP and debug words (R588, R591, R598, R599, R601, R603, R604). -/
def State.resetWrite (s : State) (o : Nat) (v : Word) (t : Time) : State :=
  let key := fld v 7 0
  match o with
  | 0x000 =>
    answer s (if bit v 10 then execRstCtlShutdown key t s else if bit v 9 then execRstCtlCold key s else if bit v 8 then execRstCtlWarm key s else .next s)
  | 0x008 => answer s (execRstDomainWrite v t s)
  | 0x018 =>
    let s := answer s (if bit v 0 then (if bit (s.reg 0x9018) 0 then .next s else execDflHoldSet t s) else execDflHoldClear s)
    let s := if bit v 1 then answer s (execRecover s) else s
    if bit v 2 then answer s (execRollbackCommit s) else s
  | 0x024 =>
    if bit v 0 then
      let r := s.keyRequest
      answer s (match byteAt r 4 with
        | 1 => execOtpProgram r s
        | 2 => execOtpRevoke r s
        | 3 => execOtpDisableDebug r s
        | _ => .next (s.otpDone 1))
    else s
  | 0x044 => if bit v 0 then answer s (execRelock s) else s
  | _ => s.plainWrite (0x9000 + o) v

/-! ### Mesa regions -/

/-- A write that a port's state does not allow (R410). -/
def State.cfgRefused (s : State) (j : Nat) : State := s.inFlag j 11

/-- DEFAULT_ACTION (R55, R443): only NONE, ON, OFF and PROFILE, on a target that R444 allows. -/
def State.defaultWrite (s : State) (j a : Nat) (v : Word) : State :=
  let v := v &&& 0x0003FF3F
  let act := fld v 2 0
  if act ≠ 0 ∧ !s.fuses.optA then s.absentAccess (10 + j)
  else if (act = 0 ∧ v = 0) ∨ (act ≠ 3 ∧ actionFits act (fld v 5 5) = true ∧ fld v 11 8 < 12) then s.plainWrite a v
  else s.actFlag j 6

/-- A word of a cycle class (R20, R55, R443): each value lands in its range; bits that name a port or stream the die lacks are discarded. -/
def State.classWrite (s : State) (j a : Nat) (v : Word) : State :=
  match (a - mesaBase j - 0x100) % 0x40 / 4 with
  | 0 => s.plainWrite a (clampFld v 22 12 100 2000)
  | 1 => s.plainWrite a (clampFld v 19 0 0 1000000)
  | 2 =>
    let lacks : Word := if s.fuses.optT then 0xFF000000 else 0xFFFF0000
    let s := if v &&& lacks = 0 then s else s.absentAccess (7 + j)
    s.plainWrite a (clampFld (v &&& ~~~lacks) 13 0 0 10000)
  | 3 =>
    let bad := !s.fuses.optV && decide (fld v 23 0 ≠ 0)
    let s := if bad then s.absentAccess (5 + j) else s
    s.plainWrite a (if bad then 0 else v)
  | 4 => s.plainWrite a (clampFld v 16 0 100 100000)
  | 5 => s.plainWrite a (clampFld v 19 0 1000 1000000)
  | 6 => s.defaultWrite j a v
  | 7 => s.plainWrite a (clampFld v 23 0 0 16000000)
  | _ => s.plainWrite a v

/-- A word with an enable bit: the bits of `fixed` change only while the port is off (R410; log 11). -/
def State.portWrite (s : State) (j a : Nat) (on : Bool) (fixed v : Word) : State :=
  if on && decide ((s.reg a ^^^ v) &&& (fixed &&& (regInfo a).rw) ≠ 0) then (s.plainWrite a (mergeMask fixed v (s.reg a))).cfgRefused j
  else s.plainWrite a v

/-- Camera words (R410, R419, R421); disabling a stream damages and ends the frame that is arriving (R418; log 11). -/
def State.camWrite (s : State) (j : Fin 2) (o : Nat) (v : Word) : State :=
  let a := mesaBase j + o
  let w := o - 0x00120000
  if w < 0x300 then
    let n := w / 0x20
    let on := bit (s.reg (camBase j n)) 0
    let s := if w % 0x20 = 0 ∧ !bit v 0 ∧ on then s.endFrame j n true else s
    let s' := s.portWrite j a on (if w % 0x20 = 0 then 0x1FFE else 0xFFFFFFFF) v
    if w % 0x20 = 0 ∧ bit v 0 ∧ !on then s'.setCam j n {} else s'
  else if 0x400 ≤ w ∧ w < 0x420 then s.portWrite j a (bit (s.reg a) 0) 0xFFFE v
  else if (List.range 24).any fun n => bit (s.reg (camBase j n)) 0 then s.portWrite j a true 0xFFFFFFFF v
  else s.plainWrite a v

/-- Tag gateway words (R410, R432); FRAME_OFFSET is banked. -/
def State.tagWrite (s : State) (j : Nat) (o : Nat) (v : Word) : State :=
  let a := mesaBase j + o
  let on := bit (s.reg (mesaBase j + (o - o % 0x40))) 0
  match o % 0x40 with
  | 0x00 => s.portWrite j a on 0xFF1E v
  | 0x10 => s.plainWrite a v
  | _ => s.portWrite j a on 0xFFFFFFFF v

/-- CAN words (R410, R433, R436): FD and the bit timing change only in INIT. -/
def State.canWrite (s : State) (j : Fin 2) (o : Nat) (v : Word) : State :=
  let a := mesaBase j + o
  let c : Fin 4 := Fin.ofNat 4 ((o - 0x00160000) / 0x400)
  let busy := !(s.canIn j c).init
  match o % 0x400 with
  | 0x00 =>
    let s := s.portWrite j a busy 0x2 v
    let s := s.setCan j c { s.canIn j c with integrated := (s.canIn j c).integrated && bit v 0 || (busy && bit v 0 && !(s.canIn j c).busOff) }
    answer s (if bit v 2 then (if busy then execCanInitEnter j c s else .next s) else (if busy then .next s else execCanInitLeave j c s))
  | 0x04 => s.portWrite j a busy 0xFFFFFFFF v
  | 0x08 => s.portWrite j a busy 0xFFFFFFFF v
  | _ => s.plainWrite a v

/-- ACT_REG words of a port (R550, R558). -/
def State.actRegWrite (s : State) (j : Fin 2) (o : Nat) (v : Word) (t : Time) : State :=
  let a := mesaBase j + o
  let p : Fin 4 := Fin.ofNat 4 (2 * j.val + (o - 0x00080100) / 0x20)
  if o % 0x20 = 0 ∧ bit v 0 then answer s (execActRegGo p (bit v 1) (fld v 27 16) (s.reg (a + 4)) t s) else s.plainWrite a v

/-- Words of a mesa region. -/
def State.mesaWrite (s : State) (j : Fin 2) (o : Nat) (v : Word) (t : Time) : State :=
  let a := mesaBase j + o
  if 0x100 ≤ o ∧ o < 0x500 then s.classWrite j a v
  else if 0x00060000 ≤ o ∧ o < 0x00060400 then
    (if o % 0x10 < 0xC then answer s (execReflexRuleWrite j (Fin.ofNat 64 ((o - 0x00060000) / 0x10)) (Fin.ofNat 3 (o % 0x10 / 4)) v s) else s)
  else if 0x00080100 ≤ o ∧ o < 0x00080140 then s.actRegWrite j o v t
  else if inWords o 0x00100000 32 then s.plainWrite a (clampFld v 18 11 2 255)
  else if 0x00120000 ≤ o ∧ o < 0x00130000 then s.camWrite j o v
  else if 0x00140000 ≤ o ∧ o < 0x00140200 then s.tagWrite j o v
  else if 0x00160000 ≤ o ∧ o < 0x00161000 then s.canWrite j o v
  else if 0x00180000 ≤ o ∧ o < 0x00181000 ∧ o % 0x400 = 0 then s.portWrite j a (bit (s.reg a) 0) 0x6 v
  else s.plainWrite a v

/-! ### Tiles and erg dies -/

/-- An image in either bank claims a tile (R131). -/
def State.tileClaimed (s : State) (t : Nat) : Bool :=
  !(claimedBy s.loader.crest.toList t).isEmpty || !(claimedBy s.loader.lee.toList t).isEmpty || !(claimedBy s.loader.old.toList t).isEmpty

/-- Words of a tile's register block (R131, R148). -/
def State.tileWrite (s : State) (t : Fin 512) (o : Nat) (v : Word) (time : Time) : State :=
  if o = 0x004 then
    if bit v 0 ≠ s.leeEn t ∧ s.tileClaimed t then (s.plainWrite (tileBase t + 4) (setFld v 0 0 (b2n (s.leeEn t)))).tileFlag t 8
    else s.plainWrite (tileBase t + 4) v
  else if 0x400 ≤ o ∧ o < 0xC00 then answer s (execTileCbWrite t o v time s)
  else s.plainWrite (tileBase t + o) v

/-! ### Any BAR0 word -/

/-- An access to a register pair drops the high word latched for it (R11). -/
def State.dropLatch (s : State) (a : Nat) : State := 
  { s with latch := s.latch.filter fun e => !decide (normalOff e.1 = a ∨ normalOff e.1 + 4 = a) }

/-- A write of one word at a normal offset. -/
def State.wordWrite (s : State) (a : Nat) (v : Word) (t : Time) : State :=
  if a < 0x1000 then s.headWrite a v t
  else if a < 0x2000 then s.pwrWrite (a - 0x1000) v t
  else if a < 0x3000 then s
  else if a < 0x4000 then s.hostWordWrite (a - 0x3000) v t
  else if a < 0x5000 then s.timeWrite (a - 0x4000) v
  else if a < 0x6000 then s.faultWrite (a - 0x5000) v
  else if a < 0x9000 then s.dwWrite (a - 0x6000) v t
  else if a < 0xA000 then s.resetWrite (a - 0x9000) v t
  else if a < 0x00200000 then s
  else if a < 0x00400000 then
    (if s.unit.bootFailed then { s with unit := { s.unit with recovery := mset (fun _ => 0) s.unit.recovery a v } } else s)
  else if a < 0x00800000 then s.mesaWrite (Fin.ofNat 2 ((a - 0x00400000) / 0x00200000)) ((a - 0x00400000) % 0x00200000) v t
  else if a < 0x00A00000 then s.tileWrite (Fin.ofNat 512 ((a - 0x00800000) / 0x1000)) ((a - 0x00800000) % 0x1000) v t
  else s.plainWrite a v

/-- A write of the low word of a 64-bit RW or RWL register: it waits for the high word (R12); a queue's base is guarded at once (R394; log 10). -/
def State.stageWrite (s : State) (n : Nat) (v : Word) : State :=
  if 0x3200 ≤ n ∧ n < 0x3400 ∧ (s.queue ((n - 0x3200) / 0x40)).enabled then s.hpFlag 1
  else { s with staged := mins n v s.staged }

/-- A write of the high word: the staged low word takes effect with it (R12). -/
def State.commitWrite (s : State) (n : Nat) (v : Word) (t : Time) : State :=
  let low := mget (fun _ => if (regInfo (n - 4)).rwl = 0 then s.reg (n - 4) else s.leeWord (n - 4)) s.staged (n - 4)
  if 0x3200 ≤ n ∧ n < 0x3400 ∧ (s.queue ((n - 0x3200) / 0x40)).enabled then s.hpFlag 1
  else (({ s with staged := mdel s.staged (n - 4) }).wordWrite (n - 4) low t).wordWrite n v t

/-- The registers answer accesses: bring-up is over, and the power-down sequence has not ended (R593, R605). -/
def State.regsUp (s : State) : Bool := decide (s.unit.phase = .running ∨ s.unit.phase = .powerDown)

/-- One 32-bit write to a BAR0 offset (R10 to R16, R53, R317). -/
def State.barWrite (s : State) (off : Nat) (v : Word) (t : Time) : State :=
  let n := normalOff off
  if 2 ^ 24 ≤ off then s
  else
    let s := s.dropLatch n
    match s.absentGroup n with
    | some g => s.absentAccess g
    | none =>
      if (regInfo n).lowOf64 then s.stageWrite n v
      else if 4 ≤ n ∧ (regInfo (n - 4)).lowOf64 then s.commitWrite n v t
      else s.wordWrite n v t

/-! ### Configuration space and BAR2 (R380 to R385, R394) -/

/-- What an MSI-X table word holds before it is written: every vector is masked. -/
def msixReset (a : Nat) : Word := if a % 16 = 12 then 1 else 0

/-- Pending vectors that are masked no more are signalled (R384). -/
def State.msixRelease (s : State) : State :=
  let l := s.link
  let open_ (v : Nat) : Bool := l.msixEn && !l.msixMask && !l.d3hot && !bit (mget msixReset l.msixTable (16 * v + 12)) 0
  { s with link := { l with msixSent := l.msixSent ++ l.msixPending.filter open_, msixPending := l.msixPending.filter fun v => !open_ v } }

/-- A write to configuration space: the bytes of `lanes` of the word at `a` (R381; log 45). -/
def State.configWrite (s : State) (a : Nat) (lanes v : Word) (t : Time) : State :=
  let on (n : Nat) : Bool := bit lanes n
  match a with
  | 0x04 => s.modLink fun l => { l with memSpace := if on 1 then bit v 1 else l.memSpace, busMaster := if on 2 then bit v 2 else l.busMaster }
  | 0x44 =>
    let s := if on 0 && (decide (fld v 1 0 = 0) || decide (fld v 1 0 = 3)) then answer s (execPowerStateChange (decide (fld v 1 0 = 3)) t s) else s
    let s := s.modLink fun l => { l with pmeEn := if on 8 then bit v 8 else l.pmeEn, pme := if on 15 && bit v 15 then false else l.pme }
    s.msixRelease
  | 0x50 => (s.modLink fun l => { l with msixEn := if on 31 then bit v 31 else l.msixEn, msixMask := if on 30 then bit v 30 else l.msixMask }).msixRelease
  | 0x68 => if on 15 && bit v 15 then answer s (execHostLinkReset true s) else s
  | _ => s

/-- One 32-bit write to a BAR2 offset: the MSI-X table, or a doorbell (R382, R394). -/
def State.bar2Write (s : State) (off : Nat) (v : Word) (t : Time) : State :=
  if off < 0x8000 then
    let v := if off % 16 = 12 then v &&& 1 else v
    (s.modLink fun l => { l with msixTable := mset msixReset l.msixTable off v }).msixRelease
  else if 0xA000 ≤ off ∧ off < 0xA040 then
    let q : Fin 8 := Fin.ofNat 8 ((off - 0xA000) / 8)
    answer s (if off % 8 = 0 then execSqTailDoorbell q v t s else execCqHeadDoorbell q v s)
  else s

/-! ### The commands -/

/-- REGISTER_WRITE (R13, R53, R382): a posted write of a size or alignment that the BAR does not take is discarded and sets BAD_ACCESS (log 9). -/
def execRegisterWrite (space : Space) (off size : Nat) (value : DWord) (t : Time) (s : State) : Host.Outcome State Fault Refusal :=
  .next (
    let s := s.at t
    let lo : Word := BitVec.ofNat 32 value.toNat
    let hi : Word := BitVec.ofNat 32 (value.toNat / 2 ^ 32)
    if !s.regsUp then s else
    match space with
    | .config =>
      if (size ≠ 1 ∧ size ≠ 2 ∧ size ≠ 4) ∨ off % size ≠ 0 then s
      else s.configWrite (off - off % 4) (BitVec.ofNat 32 ((2 ^ (8 * size) - 1) * 2 ^ (8 * (off % 4)))) (BitVec.ofNat 32 (value.toNat * 2 ^ (8 * (off % 4)))) t
    | .bar0 => if size = 4 ∧ off % 4 = 0 then s.barWrite off lo t else s.hpFlag 0
    | .bar2 =>
      if 2 ^ 16 ≤ off then s
      else if size = 4 ∧ off % 4 = 0 then s.bar2Write off lo t
      else if size = 8 ∧ off % 8 = 0 ∧ off < 0xA000 then (s.bar2Write off lo t).bar2Write (off + 4) hi t
      else s.hpFlag 0)

/-- LOW_WORD_READ_LATCH (R11; log 9). -/
def execLowWordReadLatch (off : Nat) (s : State) : Host.Outcome State Fault Refusal :=
  .next (
    let n := normalOff off
    if !s.regsUp ∨ !isLow64 off then s
    else match s.absentGroup n with
      | some g => s.absentAccess g
      | none => { s with latch := mins off (s.readWord (off + 4)) s.latch })

/-- LOW_WORD_STAGE (R12; log 10). -/
def execLowWordStage (off : Nat) (value : Word) (s : State) : Host.Outcome State Fault Refusal :=
  .next (
    let n := normalOff off
    if !s.regsUp ∨ !(regInfo n).lowOf64 then s
    else
      let s := s.dropLatch n
      match s.absentGroup n with
      | some g => s.absentAccess g
      | none => s.stageWrite n value)

/-- HIGH_WORD_COMMIT (R12, R15; log 10). -/
def execHighWordCommit (off : Nat) (value : Word) (t : Time) (s : State) : Host.Outcome State Fault Refusal :=
  .next (
    let s := s.at t
    let n := normalOff off
    if !s.regsUp ∨ n < 4 ∨ !(regInfo (n - 4)).lowOf64 then s
    else
      let s := s.dropLatch n
      match s.absentGroup n with
      | some g => s.absentAccess g
      | none => s.commitWrite n value t)

/-- ABSENT_UNIT_ACCESS (R53, R54): a read returns zero, a write is ignored; either is counted. -/
def execAbsentUnitAccess (off : Nat) (_write : Bool) (t : Time) (s : State) : Host.Outcome State Fault Refusal :=
  .next (
    let s := s.at t
    match s.absentGroup (normalOff off) with
    | some g => s.absentAccess g
    | none => s)

end Sys2Proof.Machine
end

