-- ==== Sys2Proof/Machine/Dispatch.lean ====
section
/-! DEFINITION. The one map from a command to its meaning, an arm per constructor. -/

namespace Sys2Proof.Machine

/-- The effect of one command on everything but the queue. -/
def exec (i : Instr) (s : State) : Host.Outcome State Fault Refusal :=
  match i with
  | .registerWrite space off size value t => Sys2Proof.Machine.execRegisterWrite space off size value t s
  | .lowWordReadLatch off => Sys2Proof.Machine.execLowWordReadLatch off s
  | .lowWordStage off value => Sys2Proof.Machine.execLowWordStage off value s
  | .highWordCommit off value t => Sys2Proof.Machine.execHighWordCommit off value t s
  | .absentUnitAccess off write t => Sys2Proof.Machine.execAbsentUnitAccess off write t s
  | .powerOn => Sys2Proof.Machine.execPowerOn s
  | .resetNAssert us => Sys2Proof.Machine.execResetNAssert us s
  | .resetNRelease bscan => Sys2Proof.Machine.execResetNRelease bscan s
  | .coldResetEnd failed deadTiles => Sys2Proof.Machine.execColdResetEnd failed deadTiles s
  | .firmwareStart => Sys2Proof.Machine.execFirmwareStart s
  | .warmRstNAssert us => Sys2Proof.Machine.execWarmRstNAssert us s
  | .watchdogExpiry => Sys2Proof.Machine.execWatchdogExpiry s
  | .warmReset => Sys2Proof.Machine.execWarmReset s
  | .rstCtlCold key => Sys2Proof.Machine.execRstCtlCold key s
  | .rstCtlWarm key => Sys2Proof.Machine.execRstCtlWarm key s
  | .rstCtlShutdown key t => Sys2Proof.Machine.execRstCtlShutdown key t s
  | .rstDomainWrite value t => Sys2Proof.Machine.execRstDomainWrite value t s
  | .recover => Sys2Proof.Machine.execRecover s
  | .rollbackCommit => Sys2Proof.Machine.execRollbackCommit s
  | .otpProgram request => Sys2Proof.Machine.execOtpProgram request s
  | .otpRevoke request => Sys2Proof.Machine.execOtpRevoke request s
  | .otpDisableDebug request => Sys2Proof.Machine.execOtpDisableDebug request s
  | .jtagBypass tdi => Sys2Proof.Machine.execJtagBypass tdi s
  | .jtagIdcode => Sys2Proof.Machine.execJtagIdcode s
  | .jtagSamplePreload pins load => Sys2Proof.Machine.execJtagSamplePreload pins load s
  | .jtagExtest pins load => Sys2Proof.Machine.execJtagExtest pins load s
  | .jtagClamp => Sys2Proof.Machine.execJtagClamp s
  | .jtagHighz => Sys2Proof.Machine.execJtagHighz s
  | .dbgChal => Sys2Proof.Machine.execDbgChal s
  | .dbgResp response => Sys2Proof.Machine.execDbgResp response s
  | .dbgAccess op t => Sys2Proof.Machine.execDbgAccess op t s
  | .relock => Sys2Proof.Machine.execRelock s
  | .dflHoldSet t => Sys2Proof.Machine.execDflHoldSet t s
  | .dflHoldClear => Sys2Proof.Machine.execDflHoldClear s
  | .powerDownStart t => Sys2Proof.Machine.execPowerDownStart t s
  | .pwrFailNFall us t => Sys2Proof.Machine.execPwrFailNFall us t s
  | .railCollapse rail t => Sys2Proof.Machine.execRailCollapse rail t s
  | .hostLinkReset flr => Sys2Proof.Machine.execHostLinkReset flr s
  | .powerStateChange d3hot t => Sys2Proof.Machine.execPowerStateChange d3hot t s
  | .stageConfigWrite value => Sys2Proof.Machine.execStageConfigWrite value s
  | .hp1Doorbell value t => Sys2Proof.Machine.execHp1Doorbell value t s
  | .sqTailDoorbell queue value t => Sys2Proof.Machine.execSqTailDoorbell queue value t s
  | .hp2GroupStamp queue t => Sys2Proof.Machine.execHp2GroupStamp queue t s
  | .sqEntryFetch queue data t => Sys2Proof.Machine.execSqEntryFetch queue data t s
  | .cqHeadDoorbell queue value => Sys2Proof.Machine.execCqHeadDoorbell queue value s
  | .queueEnable queue => Sys2Proof.Machine.execQueueEnable queue s
  | .queueDisable queue => Sys2Proof.Machine.execQueueDisable queue s
  | .hpNop t => Sys2Proof.Machine.execHpNop t s
  | .stageIn t => Sys2Proof.Machine.execStageIn t s
  | .stageInComplete data t => Sys2Proof.Machine.execStageInComplete data t s
  | .submitJob t => Sys2Proof.Machine.execSubmitJob t s
  | .loadImage t => Sys2Proof.Machine.execLoadImage t s
  | .unloadImage t => Sys2Proof.Machine.execUnloadImage t s
  | .slip t => Sys2Proof.Machine.execSlip t s
  | .timeStep t => Sys2Proof.Machine.execTimeStep t s
  | .inject t => Sys2Proof.Machine.execInject t s
  | .adminCommandNext => Sys2Proof.Machine.execAdminCommandNext s
  | .outputCopyComplete ok t => Sys2Proof.Machine.execOutputCopyComplete ok t s
  | .completionPost t => Sys2Proof.Machine.execCompletionPost t s
  | .timeStart => Sys2Proof.Machine.execTimeStart s
  | .timeConfigChange value => Sys2Proof.Machine.execTimeConfigChange value s
  | .ptpSync master t => Sys2Proof.Machine.execPtpSync master t s
  | .ptpSyncTimeout t => Sys2Proof.Machine.execPtpSyncTimeout t s
  | .timeStepApply t => Sys2Proof.Machine.execTimeStepApply t s
  | .timeStepTimeout t => Sys2Proof.Machine.execTimeStepTimeout t s
  | .stampEpochNear t => Sys2Proof.Machine.execStampEpochNear t s
  | .stampLimit t => Sys2Proof.Machine.execStampLimit t s
  | .ethFrame die port frame fcsOk at_ => Sys2Proof.Machine.execEthFrame die port frame fcsOk at_ s
  | .replayStart first => Sys2Proof.Machine.execReplayStart first s
  | .replayEnd => Sys2Proof.Machine.execReplayEnd s
  | .replayClockAdvance t => Sys2Proof.Machine.execReplayClockAdvance t s
  | .trigEdge die input rising at_ => Sys2Proof.Machine.execTrigEdge die input rising at_ s
  | .trigGlitch die input at_ => Sys2Proof.Machine.execTrigGlitch die input at_ s
  | .trigQualify die input t => Sys2Proof.Machine.execTrigQualify die input t s
  | .trigHoldoffEnd die input t => Sys2Proof.Machine.execTrigHoldoffEnd die input t s
  | .camClockLock die receiver locked => Sys2Proof.Machine.execCamClockLock die receiver locked s
  | .frameStart die receiver vc dt at_ => Sys2Proof.Machine.execFrameStart die receiver vc dt at_ s
  | .csiLongPacket die receiver vc dt header crcOk overflow payload => Sys2Proof.Machine.execCsiLongPacket die receiver vc dt header crcOk overflow payload s
  | .csiLineShortPacket die receiver vc dt => Sys2Proof.Machine.execCsiLineShortPacket die receiver vc dt s
  | .frameEnd die receiver vc dt t => Sys2Proof.Machine.execFrameEnd die receiver vc dt t s
  | .frameReadoutTimeout die stream t => Sys2Proof.Machine.execFrameReadoutTimeout die stream t s
  | .tagRxs die port t => Sys2Proof.Machine.execTagRxs die port t s
  | .tagFr die port at_ => Sys2Proof.Machine.execTagFr die port at_ s
  | .tagReadDone die port bytes t => Sys2Proof.Machine.execTagReadDone die port bytes t s
  | .tagRateUpdate die tag tx stamp => Sys2Proof.Machine.execTagRateUpdate die tag tx stamp s
  | .canFrameReceive die ctl frame at_ => Sys2Proof.Machine.execCanFrameReceive die ctl frame at_ s
  | .canErrorFrame die ctl tec rec_ => Sys2Proof.Machine.execCanErrorFrame die ctl tec rec_ s
  | .canTransmit die ctl buffer => Sys2Proof.Machine.execCanTransmit die ctl buffer s
  | .canInitEnter die ctl => Sys2Proof.Machine.execCanInitEnter die ctl s
  | .canInitLeave die ctl => Sys2Proof.Machine.execCanInitLeave die ctl s
  | .mergeItemArrive merge src item horizon t => Sys2Proof.Machine.execMergeItemArrive merge src item horizon t s
  | .mergeRelease merge t => Sys2Proof.Machine.execMergeRelease merge t s
  | .cycleAdmission die stamp hits t => Sys2Proof.Machine.execCycleAdmission die stamp hits t s
  | .frameJobAdmission die stamp t => Sys2Proof.Machine.execFrameJobAdmission die stamp t s
  | .hostJobAdmission t => Sys2Proof.Machine.execHostJobAdmission t s
  | .inputSetClosure die stamp t => Sys2Proof.Machine.execInputSetClosure die stamp t s
  | .reservationEnd job t => Sys2Proof.Machine.execReservationEnd job t s
  | .commitReceive die key void body t => Sys2Proof.Machine.execCommitReceive die key void body t s
  | .commitCheck stamp t => Sys2Proof.Machine.execCommitCheck stamp t s
  | .deadlineExpiry stamp t => Sys2Proof.Machine.execDeadlineExpiry stamp t s
  | .replyReceive port eid result time t => Sys2Proof.Machine.execReplyReceive port eid result time t s
  | .eventRetransmit port eid t => Sys2Proof.Machine.execEventRetransmit port eid t s
  | .eventAbandon port eid t => Sys2Proof.Machine.execEventAbandon port eid t s
  | .dflFrameSend port t => Sys2Proof.Machine.execDflFrameSend port t s
  | .dflTimeTick port t => Sys2Proof.Machine.execDflTimeTick port t s
  | .dflFrameDiscard port t => Sys2Proof.Machine.execDflFrameDiscard port t s
  | .dflSilenceTimeout port t => Sys2Proof.Machine.execDflSilenceTimeout port t s
  | .dflAlignLossTimeout port since t => Sys2Proof.Machine.execDflAlignLossTimeout port since t s
  | .dflDiscardCount port t => Sys2Proof.Machine.execDflDiscardCount port t s
  | .dflLinkUp port t => Sys2Proof.Machine.execDflLinkUp port t s
  | .statusEventReceive port body t => Sys2Proof.Machine.execStatusEventReceive port body t s
  | .statusPeriodicReceive port body t => Sys2Proof.Machine.execStatusPeriodicReceive port body t s
  | .statusIdentReceive port body t => Sys2Proof.Machine.execStatusIdentReceive port body t s
  | .reflexRuleWrite die rule word value => Sys2Proof.Machine.execReflexRuleWrite die rule word value s
  | .reflexLaunch die source falling stamp levels hits t => Sys2Proof.Machine.execReflexLaunch die source falling stamp levels hits t s
  | .actRegGo port write off value t => Sys2Proof.Machine.execActRegGo port write off value t s
  | .regDataReceive port tag result off value t => Sys2Proof.Machine.execRegDataReceive port tag result off value t s
  | .actRegTimeout port t => Sys2Proof.Machine.execActRegTimeout port t s
  | .slipPrepareWrite value t => Sys2Proof.Machine.execSlipPrepareWrite value t s
  | .slipAbortWrite t => Sys2Proof.Machine.execSlipAbortWrite t s
  | .partyPrepare party id t => Sys2Proof.Machine.execPartyPrepare party id t s
  | .partyChecksumDone party id hits t => Sys2Proof.Machine.execPartyChecksumDone party id hits t s
  | .prepareAck party id sum t => Sys2Proof.Machine.execPrepareAck party id sum t s
  | .prepareNack party id reason t => Sys2Proof.Machine.execPrepareNack party id reason t s
  | .slipPrepareTimeout t => Sys2Proof.Machine.execSlipPrepareTimeout t s
  | .partyCommit party id t => Sys2Proof.Machine.execPartyCommit party id t s
  | .commitAckReceive party id t => Sys2Proof.Machine.execCommitAckReceive party id t s
  | .slipArmTimeout t => Sys2Proof.Machine.execSlipArmTimeout t s
  | .partyAbort party id t => Sys2Proof.Machine.execPartyAbort party id t s
  | .slipPoint t => Sys2Proof.Machine.execSlipPoint t s
  | .tileBankRetireEnd tile lee t => Sys2Proof.Machine.execTileBankRetireEnd tile lee t s
  | .mesaBankRetireEnd die t => Sys2Proof.Machine.execMesaBankRetireEnd die t s
  | .slipReclaimTimeout job t => Sys2Proof.Machine.execSlipReclaimTimeout job t s
  | .leeRefreshDone party t => Sys2Proof.Machine.execLeeRefreshDone party t s
  | .leeChunkRetransmit port chunk t => Sys2Proof.Machine.execLeeChunkRetransmit port chunk t s
  | .jobStart tile t => Sys2Proof.Machine.execJobStart tile t s
  | .engineOpComplete tile engine => Sys2Proof.Machine.execEngineOpComplete tile engine s
  | .scrubRead tile hits t => Sys2Proof.Machine.execScrubRead tile hits t s
  | .reservoirPatrol stack hits t => Sys2Proof.Machine.execReservoirPatrol stack hits t s
  | .tileCbWrite tile off value t => Sys2Proof.Machine.execTileCbWrite tile off value t s
  | .flitHop src dst => Sys2Proof.Machine.execFlitHop src dst s
  | .creditReturn src dst cls count => Sys2Proof.Machine.execCreditReturn src dst cls count s
  | .horizonArrive merge src horizon => Sys2Proof.Machine.execHorizonArrive merge src horizon s
  | .flitDeliver place good headGood t => Sys2Proof.Machine.execFlitDeliver place good headGood t s
  | .hopWait die cls ns => Sys2Proof.Machine.execHopWait die cls ns s
  | .beWait die ns => Sys2Proof.Machine.execBeWait die ns s
  | .cairnBindMsg die job admitted end_ ranges sources => Sys2Proof.Machine.execCairnBindMsg die job admitted end_ ranges sources s
  | .cairnAddMsg die tile key cairn operand => Sys2Proof.Machine.execCairnAddMsg die tile key cairn operand s
  | .cairnAddsMsg die tile key cairn operand => Sys2Proof.Machine.execCairnAddsMsg die tile key cairn operand s
  | .cairnFenceMsg die tile key cairn => Sys2Proof.Machine.execCairnFenceMsg die tile key cairn s
  | .cairnWaitMsg die tile key cairn target => Sys2Proof.Machine.execCairnWaitMsg die tile key cairn target s
  | .cairnSettleNMsg die tile key cairn count contrib rerun threshold => Sys2Proof.Machine.execCairnSettleNMsg die tile key cairn count contrib rerun threshold s
  | .cairnSettleWMsg die tile key cairn count contrib => Sys2Proof.Machine.execCairnSettleWMsg die tile key cairn count contrib s
  | .cairnCloseMsg die job prods => Sys2Proof.Machine.execCairnCloseMsg die job prods s
  | .cairnApply die job hits t => Sys2Proof.Machine.execCairnApply die job hits t s
  | .cairnReply tile key result decision cycles t => Sys2Proof.Machine.execCairnReply tile key result decision cycles t s
  | .rowEnterA1 dom t => Sys2Proof.Machine.execRowEnterA1 dom t s
  | .rowEnterA2 dom t => Sys2Proof.Machine.execRowEnterA2 dom t s
  | .rowEnterA3 dom t => Sys2Proof.Machine.execRowEnterA3 dom t s
  | .rowWake dom t => Sys2Proof.Machine.execRowWake dom t s
  | .rowWakeDone dom t => Sys2Proof.Machine.execRowWakeDone dom t s
  | .rowCrestRestored dom t => Sys2Proof.Machine.execRowCrestRestored dom t s
  | .rowLeeRestored dom t => Sys2Proof.Machine.execRowLeeRestored dom t s
  | .wakeLate dom t => Sys2Proof.Machine.execWakeLate dom t s
  | .commonEnterA1 dom t => Sys2Proof.Machine.execCommonEnterA1 dom t s
  | .commonWake dom t => Sys2Proof.Machine.execCommonWake dom t s
  | .fDomainSwitchDone dom t => Sys2Proof.Machine.execFDomainSwitchDone dom t s
  | .hintRegNoChange dom => Sys2Proof.Machine.execHintRegNoChange dom s
  | .hintRegIdleSoon dom t => Sys2Proof.Machine.execHintRegIdleSoon dom t s
  | .hintRegBusySoon dom t => Sys2Proof.Machine.execHintRegBusySoon dom t s
  | .busyHoldEnd dom t => Sys2Proof.Machine.execBusyHoldEnd dom t s
  | .timingAlarm oasis on => Sys2Proof.Machine.execTimingAlarm oasis on s
  | .avsWindow oasis alarm margin t => Sys2Proof.Machine.execAvsWindow oasis alarm margin t s
  | .clockChange oasis t => Sys2Proof.Machine.execClockChange oasis t s
  | .thermalSample temps t => Sys2Proof.Machine.execThermalSample temps t s
  | .dwEnable t => Sys2Proof.Machine.execDwEnable t s
  | .dwDisable t => Sys2Proof.Machine.execDwDisable t s
  | .dwFreeze on => Sys2Proof.Machine.execDwFreeze on s
  | .dwFrame stream stamp width height luma damaged t => Sys2Proof.Machine.execDwFrame stream stamp width height luma damaged t s
  | .dwFeedGo t => Sys2Proof.Machine.execDwFeedGo t s
  | .dwInferenceDone t => Sys2Proof.Machine.execDwInferenceDone t s
  | .dwSourceLost t => Sys2Proof.Machine.execDwSourceLost t s
  | .logRecordArrive die => Sys2Proof.Machine.execLogRecordArrive die s
  | .logKeyedRelease die frontier => Sys2Proof.Machine.execLogKeyedRelease die frontier s
  | .logHostCopy die => Sys2Proof.Machine.execLogHostCopy die s
  | .logHostHeadWrite value => Sys2Proof.Machine.execLogHostHeadWrite value s
  | .reservoirRange addr loader write t => Sys2Proof.Machine.execReservoirRange addr loader write t s
  | .stackFailed stack interface t => Sys2Proof.Machine.execStackFailed stack interface t s
  | .tileFatal tile t => Sys2Proof.Machine.execTileFatal tile t s
  | .safeClear fatal => Sys2Proof.Machine.execSafeClear fatal s
  | .delluFlitCrcFail link flits t => Sys2Proof.Machine.execDelluFlitCrcFail link flits t s
  | .delluRetrain link attempt t => Sys2Proof.Machine.execDelluRetrain link attempt t s
  | .delluRetrainDone link ok => Sys2Proof.Machine.execDelluRetrainDone link ok s
  | .linkFailed link t => Sys2Proof.Machine.execLinkFailed link t s
  | .add tile g dst a b => Sys2Proof.Machine.execAdd tile g dst a b s
  | .sub tile g dst a b => Sys2Proof.Machine.execSub tile g dst a b s
  | .and_ tile g dst a b => Sys2Proof.Machine.execAnd tile g dst a b s
  | .or_ tile g dst a b => Sys2Proof.Machine.execOr tile g dst a b s
  | .xor_ tile g dst a b => Sys2Proof.Machine.execXor tile g dst a b s
  | .sll tile g dst a b => Sys2Proof.Machine.execSll tile g dst a b s
  | .srl tile g dst a b => Sys2Proof.Machine.execSrl tile g dst a b s
  | .sra tile g dst a b => Sys2Proof.Machine.execSra tile g dst a b s
  | .mul tile g dst a b => Sys2Proof.Machine.execMul tile g dst a b s
  | .mulw tile g dst a b => Sys2Proof.Machine.execMulw tile g dst a b s
  | .mulwu tile g dst a b => Sys2Proof.Machine.execMulwu tile g dst a b s
  | .div tile g dst a b => Sys2Proof.Machine.execDiv tile g dst a b s
  | .divu tile g dst a b => Sys2Proof.Machine.execDivu tile g dst a b s
  | .rem tile g dst a b => Sys2Proof.Machine.execRem tile g dst a b s
  | .remu tile g dst a b => Sys2Proof.Machine.execRemu tile g dst a b s
  | .min tile g dst a b => Sys2Proof.Machine.execMin tile g dst a b s
  | .max tile g dst a b => Sys2Proof.Machine.execMax tile g dst a b s
  | .minu tile g dst a b => Sys2Proof.Machine.execMinu tile g dst a b s
  | .maxu tile g dst a b => Sys2Proof.Machine.execMaxu tile g dst a b s
  | .adds tile g dst a b => Sys2Proof.Machine.execAdds tile g dst a b s
  | .subs tile g dst a b => Sys2Proof.Machine.execSubs tile g dst a b s
  | .addi tile g dst a imm => Sys2Proof.Machine.execAddi tile g dst a imm s
  | .andi tile g dst a imm => Sys2Proof.Machine.execAndi tile g dst a imm s
  | .ori tile g dst a imm => Sys2Proof.Machine.execOri tile g dst a imm s
  | .xori tile g dst a imm => Sys2Proof.Machine.execXori tile g dst a imm s
  | .shi tile g dst a imm => Sys2Proof.Machine.execShi tile g dst a imm s
  | .lui tile g dst imm => Sys2Proof.Machine.execLui tile g dst imm s
  | .cmpEq tile g dst a b => Sys2Proof.Machine.execCmpEq tile g dst a b s
  | .cmpNe tile g dst a b => Sys2Proof.Machine.execCmpNe tile g dst a b s
  | .cmpLt tile g dst a b => Sys2Proof.Machine.execCmpLt tile g dst a b s
  | .cmpGe tile g dst a b => Sys2Proof.Machine.execCmpGe tile g dst a b s
  | .cmpLtu tile g dst a b => Sys2Proof.Machine.execCmpLtu tile g dst a b s
  | .cmpGeu tile g dst a b => Sys2Proof.Machine.execCmpGeu tile g dst a b s
  | .br tile g link off => Sys2Proof.Machine.execBr tile g link off s
  | .jr tile g dst a => Sys2Proof.Machine.execJr tile g dst a s
  | .pand tile g dst a b => Sys2Proof.Machine.execPand tile g dst a b s
  | .por tile g dst a b => Sys2Proof.Machine.execPor tile g dst a b s
  | .pxor tile g dst a b => Sys2Proof.Machine.execPxor tile g dst a b s
  | .pandn tile g dst a b => Sys2Proof.Machine.execPandn tile g dst a b s
  | .pnot tile g dst a => Sys2Proof.Machine.execPnot tile g dst a s
  | .pfrom tile g dst a => Sys2Proof.Machine.execPfrom tile g dst a s
  | .pto tile g dst a => Sys2Proof.Machine.execPto tile g dst a s
  | .nop tile g => Sys2Proof.Machine.execNop tile g s
  | .jend tile g => Sys2Proof.Machine.execJend tile g s
  | .fenceEng tile g => Sys2Proof.Machine.execFenceEng tile g s
  | .ld tile g dst xa off hits => Sys2Proof.Machine.execLd tile g dst xa off hits s
  | .st tile g src xa off => Sys2Proof.Machine.execSt tile g src xa off s
  | .aset tile g dst a b => Sys2Proof.Machine.execAset tile g dst a b s
  | .amov tile g dst a => Sys2Proof.Machine.execAmov tile g dst a s
  | .aadd tile g dst a b => Sys2Proof.Machine.execAadd tile g dst a b s
  | .alen tile g dst a b => Sys2Proof.Machine.execAlen tile g dst a b s
  | .ardlo tile g dst a => Sys2Proof.Machine.execArdlo tile g dst a s
  | .ardhi tile g dst a => Sys2Proof.Machine.execArdhi tile g dst a s
  | .dsetKind tile g d a => Sys2Proof.Machine.execDsetKind tile g d a s
  | .dsetLoose tile g d a => Sys2Proof.Machine.execDsetLoose tile g d a s
  | .dsetFmt tile g d a => Sys2Proof.Machine.execDsetFmt tile g d a s
  | .dsetSources tile g d a => Sys2Proof.Machine.execDsetSources tile g d a s
  | .dsetStream tile g d a => Sys2Proof.Machine.execDsetStream tile g d a s
  | .dsetRing tile g d a b => Sys2Proof.Machine.execDsetRing tile g d a b s
  | .fset tile g sel a => Sys2Proof.Machine.execFset tile g sel a s
  | .fld tile g xb c => Sys2Proof.Machine.execFld tile g xb c s
  | .fmac tile g xd xa xb c hits => Sys2Proof.Machine.execFmac tile g xd xa xb c hits s
  | .fdrn tile g xd xa xb hits => Sys2Proof.Machine.execFdrn tile g xd xa xb hits s
  | .fadd tile g dst a b => Sys2Proof.Machine.execFadd tile g dst a b s
  | .fsub tile g dst a b => Sys2Proof.Machine.execFsub tile g dst a b s
  | .fmul tile g dst a b => Sys2Proof.Machine.execFmul tile g dst a b s
  | .fma tile g dst a b => Sys2Proof.Machine.execFma tile g dst a b s
  | .fmin tile g dst a b => Sys2Proof.Machine.execFmin tile g dst a b s
  | .fmax tile g dst a b => Sys2Proof.Machine.execFmax tile g dst a b s
  | .fabs tile g dst a => Sys2Proof.Machine.execFabs tile g dst a s
  | .fneg tile g dst a => Sys2Proof.Machine.execFneg tile g dst a s
  | .cvtF32F16 tile g dst a => Sys2Proof.Machine.execCvtF32F16 tile g dst a s
  | .cvtF16F32 tile g dst a => Sys2Proof.Machine.execCvtF16F32 tile g dst a s
  | .cvtF32I32 tile g dst a => Sys2Proof.Machine.execCvtF32I32 tile g dst a s
  | .cvtI32F32 tile g dst a => Sys2Proof.Machine.execCvtI32F32 tile g dst a s
  | .iadd tile g dst a b => Sys2Proof.Machine.execIadd tile g dst a b s
  | .isub tile g dst a b => Sys2Proof.Machine.execIsub tile g dst a b s
  | .imul tile g dst a b => Sys2Proof.Machine.execImul tile g dst a b s
  | .iadds tile g dst a b => Sys2Proof.Machine.execIadds tile g dst a b s
  | .isubs tile g dst a b => Sys2Proof.Machine.execIsubs tile g dst a b s
  | .imin tile g dst a b => Sys2Proof.Machine.execImin tile g dst a b s
  | .imax tile g dst a b => Sys2Proof.Machine.execImax tile g dst a b s
  | .vand tile g dst a b => Sys2Proof.Machine.execVand tile g dst a b s
  | .vor tile g dst a b => Sys2Proof.Machine.execVor tile g dst a b s
  | .vxor tile g dst a b => Sys2Proof.Machine.execVxor tile g dst a b s
  | .vsll tile g dst a b => Sys2Proof.Machine.execVsll tile g dst a b s
  | .vsra tile g dst a b => Sys2Proof.Machine.execVsra tile g dst a b s
  | .rsum tile g dst a => Sys2Proof.Machine.execRsum tile g dst a s
  | .rmax tile g dst a => Sys2Proof.Machine.execRmax tile g dst a s
  | .rmin tile g dst a => Sys2Proof.Machine.execRmin tile g dst a s
  | .flt tile g dst a b => Sys2Proof.Machine.execFlt tile g dst a b s
  | .feq tile g dst a b => Sys2Proof.Machine.execFeq tile g dst a b s
  | .ilt tile g dst a b => Sys2Proof.Machine.execIlt tile g dst a b s
  | .sel tile g dst a b => Sys2Proof.Machine.execSel tile g dst a b s
  | .bcast tile g dst a => Sys2Proof.Machine.execBcast tile g dst a s
  | .extr tile g dst a b => Sys2Proof.Machine.execExtr tile g dst a b s
  | .insr tile g dst a b => Sys2Proof.Machine.execInsr tile g dst a b s
  | .laneid tile g dst => Sys2Proof.Machine.execLaneid tile g dst s
  | .vld32 tile g vx xa c hits => Sys2Proof.Machine.execVld32 tile g vx xa c hits s
  | .vld16 tile g vx xa c hits => Sys2Proof.Machine.execVld16 tile g vx xa c hits s
  | .vldu8 tile g vx xa c hits => Sys2Proof.Machine.execVldu8 tile g vx xa c hits s
  | .vldbc tile g vx xa c hits => Sys2Proof.Machine.execVldbc tile g vx xa c hits s
  | .vst32 tile g vx xa c => Sys2Proof.Machine.execVst32 tile g vx xa c s
  | .vst16 tile g vx xa c => Sys2Proof.Machine.execVst16 tile g vx xa c s
  | .vstu8 tile g vx xa c => Sys2Proof.Machine.execVstu8 tile g vx xa c s
  | .vtab tile g vx xa vb hits => Sys2Proof.Machine.execVtab tile g vx xa vb hits s
  | .gather tile g xd xa xb c hits => Sys2Proof.Machine.execGather tile g xd xa xb c hits s
  | .gatherCsr tile g xd xa xb c hits => Sys2Proof.Machine.execGatherCsr tile g xd xa xb c hits s
  | .scatter tile g xd xa xb c hits => Sys2Proof.Machine.execScatter tile g xd xa xb c hits s
  | .scatterAcc tile g xd xa xb c hits => Sys2Proof.Machine.execScatterAcc tile g xd xa xb c hits s
  | .sopenIn tile g d => Sys2Proof.Machine.execSopenIn tile g d s
  | .sopenOut tile g d credit => Sys2Proof.Machine.execSopenOut tile g d credit s
  | .sclose tile g d => Sys2Proof.Machine.execSclose tile g d s
  | .sput tile g d a b => Sys2Proof.Machine.execSput tile g d a b s
  | .sget tile g d a b pd => Sys2Proof.Machine.execSget tile g d a b pd s
  | .shzn tile g d => Sys2Proof.Machine.execShzn tile g d s
  | .cwait tile g c a b => Sys2Proof.Machine.execCwait tile g c a b s
  | .cpost tile g c => Sys2Proof.Machine.execCpost tile g c s
  | .cadd tile g c a => Sys2Proof.Machine.execCadd tile g c a s
  | .cadds tile g c a => Sys2Proof.Machine.execCadds tile g c a s
  | .cfence tile g c => Sys2Proof.Machine.execCfence tile g c s
  | .settleN tile g a b pd => Sys2Proof.Machine.execSettleN tile g a b pd s
  | .settleW tile g a b pd => Sys2Proof.Machine.execSettleW tile g a b pd s
  | .stlo tile g dst => Sys2Proof.Machine.execStlo tile g dst s
  | .sthi tile g dst => Sys2Proof.Machine.execSthi tile g dst s
  | .stjob tile g dst => Sys2Proof.Machine.execStjob tile g dst s
  | .psel tile g a => Sys2Proof.Machine.execPsel tile g a s
  | .pget tile g dst => Sys2Proof.Machine.execPget tile g dst s
  | .eget tile g dst => Sys2Proof.Machine.execEget tile g dst s
  | .iklo tile g dst d => Sys2Proof.Machine.execIklo tile g dst d s
  | .ikhi tile g dst d => Sys2Proof.Machine.execIkhi tile g dst d s
  | .ikseq tile g dst d => Sys2Proof.Machine.execIkseq tile g dst d s
  | .act tile g xa => Sys2Proof.Machine.execAct tile g xa s
  | .log tile g xa c => Sys2Proof.Machine.execLog tile g xa c s
  | .pwrNoChange tile g a => Sys2Proof.Machine.execPwrNoChange tile g a s
  | .pwrIdleSoon tile g a => Sys2Proof.Machine.execPwrIdleSoon tile g a s
  | .pwrBusySoon tile g a => Sys2Proof.Machine.execPwrBusySoon tile g a s
  | .bankId tile g dst => Sys2Proof.Machine.execBankId tile g dst s
  | .bankOld tile g dst => Sys2Proof.Machine.execBankOld tile g dst s
  | .rdcyc tile g dst cycles => Sys2Proof.Machine.execRdcyc tile g dst cycles s
  | .rdst tile g dst => Sys2Proof.Machine.execRdst tile g dst s
  | .spoll tile g dst d => Sys2Proof.Machine.execSpoll tile g dst d s
  | .sgetnb tile g pd d a b => Sys2Proof.Machine.execSgetnb tile g pd d a b s
  | .rdstall tile g dst cycles => Sys2Proof.Machine.execRdstall tile g dst cycles s
  | .bzPowerUp chip vsMv sensor lh0 lh1 t => Sys2Proof.Machine.execBzPowerUp chip vsMv sensor lh0 lh1 t s
  | .bzPowerupTimeout chip t => Sys2Proof.Machine.execBzPowerupTimeout chip t s
  | .bzLogicReset chip vsMv => Sys2Proof.Machine.execBzLogicReset chip vsMv s
  | .bzTimeFrame chip station errNs t => Sys2Proof.Machine.execBzTimeFrame chip station errNs t s
  | .bzHeartbeatLoss chip t => Sys2Proof.Machine.execBzHeartbeatLoss chip t s
  | .bzHoldLastEnd chip t => Sys2Proof.Machine.execBzHoldLastEnd chip t s
  | .bzLimpPinChange chip lh0 lh1 stableUs t => Sys2Proof.Machine.execBzLimpPinChange chip lh0 lh1 stableUs t s
  | .bzLimpEntryStart chip out t => Sys2Proof.Machine.execBzLimpEntryStart chip out t s
  | .bzOvervolt chip vsMv us t => Sys2Proof.Machine.execBzOvervolt chip vsMv us t s
  | .bzUndervolt chip vsMv t => Sys2Proof.Machine.execBzUndervolt chip vsMv t s
  | .bzCrankEnter chip vsMv t => Sys2Proof.Machine.execBzCrankEnter chip vsMv t s
  | .bzCrankEnd chip vsMv us => Sys2Proof.Machine.execBzCrankEnd chip vsMv us s
  | .bzCrankTimeout chip t => Sys2Proof.Machine.execBzCrankTimeout chip t s
  | .bzSupplyRecover chip vsMv us t => Sys2Proof.Machine.execBzSupplyRecover chip vsMv us t s
  | .vsSample chip vsMv => Sys2Proof.Machine.execVsSample chip vsMv s
  | .bzTrip chip input level ns t => Sys2Proof.Machine.execBzTrip chip input level ns t s
  | .bzTripClear chip mask pins t => Sys2Proof.Machine.execBzTripClear chip mask pins t s
  | .bzRelease chip => Sys2Proof.Machine.execBzRelease chip s
  | .bzEnterLimp chip t => Sys2Proof.Machine.execBzEnterLimp chip t s
  | .bzRegRead chip tag off t => Sys2Proof.Machine.execBzRegRead chip tag off t s
  | .bzRegWrite chip tag off data t => Sys2Proof.Machine.execBzRegWrite chip tag off data t s
  | .bzStatusSample chip t => Sys2Proof.Machine.execBzStatusSample chip t s
  | .bzPeriodicStatus chip t => Sys2Proof.Machine.execBzPeriodicStatus chip t s
  | .bzIdentStatus chip => Sys2Proof.Machine.execBzIdentStatus chip s
  | .bzFrameSend chip => Sys2Proof.Machine.execBzFrameSend chip s
  | .bzLimpStoreDone chip ok => Sys2Proof.Machine.execBzLimpStoreDone chip ok s
  | .bzSlipPrepare chip slipId => Sys2Proof.Machine.execBzSlipPrepare chip slipId s
  | .bzLeeData chip chunk id8 bytes t => Sys2Proof.Machine.execBzLeeData chip chunk id8 bytes t s
  | .bzSlipCommit chip slipId point => Sys2Proof.Machine.execBzSlipCommit chip slipId point s
  | .bzSlipAbort chip slipId => Sys2Proof.Machine.execBzSlipAbort chip slipId s
  | .bzSlipPoint chip t => Sys2Proof.Machine.execBzSlipPoint chip t s
  | .bzReseatSwitch chip t => Sys2Proof.Machine.execBzReseatSwitch chip t s
  | .bzHsEventReceive chip ev t => Sys2Proof.Machine.execBzHsEventReceive chip ev t s
  | .bzSolEventReceive chip ev t => Sys2Proof.Machine.execBzSolEventReceive chip ev t s
  | .bzReflexReceive chip frame t => Sys2Proof.Machine.execBzReflexReceive chip frame t s
  | .bzHsEventFire chip chan t => Sys2Proof.Machine.execBzHsEventFire chip chan t s
  | .hsPulseEnd chip chan t => Sys2Proof.Machine.execHsPulseEnd chip chan t s
  | .hsPwmPeriod chip chan t => Sys2Proof.Machine.execHsPwmPeriod chip chan t s
  | .hsPwmOffEdge chip chan meanMa t => Sys2Proof.Machine.execHsPwmOffEdge chip chan meanMa t s
  | .hsDcOlCheck chip chan meanMa t => Sys2Proof.Machine.execHsDcOlCheck chip chan meanMa t s
  | .hsOverload chip chan limUs t => Sys2Proof.Machine.execHsOverload chip chan limUs t s
  | .hsRetryEnd chip chan junction t => Sys2Proof.Machine.execHsRetryEnd chip chan junction t s
  | .hsRetryReset chip chan t => Sys2Proof.Machine.execHsRetryReset chip chan t s
  | .hsMWindowEnd chip chan t => Sys2Proof.Machine.execHsMWindowEnd chip chan t s
  | .hsThermalShutdown chip chan junction t => Sys2Proof.Machine.execHsThermalShutdown chip chan junction t s
  | .hsThermalRestart chip chan junction t => Sys2Proof.Machine.execHsThermalRestart chip chan junction t s
  | .hsFuseUpdate chip chan meanMa t => Sys2Proof.Machine.execHsFuseUpdate chip chan meanMa t s
  | .hsCompUpdate chip chan => Sys2Proof.Machine.execHsCompUpdate chip chan s
  | .hsClampEnd chip chan energyUj t => Sys2Proof.Machine.execHsClampEnd chip chan energyUj t s
  | .hsOlOffSourceOn chip chan outMv t => Sys2Proof.Machine.execHsOlOffSourceOn chip chan outMv t s
  | .hsOlOffSample chip chan outMv t => Sys2Proof.Machine.execHsOlOffSample chip chan outMv t s
  | .hsPairImbalance chip chan ma0 ma1 us t => Sys2Proof.Machine.execHsPairImbalance chip chan ma0 ma1 us t s
  | .hsFlagClear chip chan mask junction t => Sys2Proof.Machine.execHsFlagClear chip chan mask junction t s
  | .bzSolEventStart chip out t => Sys2Proof.Machine.execBzSolEventStart chip out t s
  | .solPeakReached chip out samples t => Sys2Proof.Machine.execSolPeakReached chip out samples t s
  | .solPeakTimeout chip out maxMa t => Sys2Proof.Machine.execSolPeakTimeout chip out maxMa t s
  | .solDwellEnd chip out t => Sys2Proof.Machine.execSolDwellEnd chip out t s
  | .solSourceSwitch chip bank t => Sys2Proof.Machine.execSolSourceSwitch chip bank t s
  | .solChopPeriod chip out valley t => Sys2Proof.Machine.execSolChopPeriod chip out valley t s
  | .solHoldEnd chip out t => Sys2Proof.Machine.execSolHoldEnd chip out t s
  | .solDecayEnd chip out currentMa clampUj t => Sys2Proof.Machine.execSolDecayEnd chip out currentMa clampUj t s
  | .solRestEnd chip out volts t => Sys2Proof.Machine.execSolRestEnd chip out volts t s
  | .solShort chip bank out ma => Sys2Proof.Machine.execSolShort chip bank out ma s
  | .solCoilUpdate chip meanSq sensor t => Sys2Proof.Machine.execSolCoilUpdate chip meanSq sensor t s
  | .solProbe chip bank => Sys2Proof.Machine.execSolProbe chip bank s
  | .solProbeDone chip bank mv t => Sys2Proof.Machine.execSolProbeDone chip bank mv t s
  | .bstMeasure chip mv t => Sys2Proof.Machine.execBstMeasure chip mv t s
  | .solFlagClear chip out mask probeMv t => Sys2Proof.Machine.execSolFlagClear chip out mask probeMv t s
  | .solRelearn chip mask => Sys2Proof.Machine.execSolRelearn chip mask s
  | .vddKeepLoss => Sys2Proof.Machine.execVddKeepLoss s
  | .ethLinkChange die port up => Sys2Proof.Machine.execEthLinkChange die port up s
  | .ptpAnnounceReceive master t => Sys2Proof.Machine.execPtpAnnounceReceive master t s
  | .ptpDelayResponse delay => Sys2Proof.Machine.execPtpDelayResponse delay s
  | .ptpMasterSyncSend die port t => Sys2Proof.Machine.execPtpMasterSyncSend die port t s
  | .bzDflFrameDiscard chip => Sys2Proof.Machine.execBzDflFrameDiscard chip s
  | .solChopOff chip out peakCounts currentMa onNs => Sys2Proof.Machine.execSolChopOff chip out peakCounts currentMa onNs s

end Sys2Proof.Machine
end

