-- ==== Sys2Proof/WellFormed.lean ====
section
/-! DEFINITION. The operands that a command can carry: the ranges that the formats and tables of the spec give them. -/

namespace Sys2Proof

/-- Every operand of a command is in the range that the spec gives it: offsets and sizes of an access (R10, R382), lengths of requests, frames and entries (R389, R455, R549, R599, R601), numbers of domains, cairns, slips (R268, R318, R333, R416). -/
def Instr.wf : Instr → Bool
  | .registerWrite _ _ size _ _ => decide (size = 1 ∨ size = 2 ∨ size = 4 ∨ size = 8)
  | .lowWordReadLatch off => decide (off % 4 = 0 ∧ off < 2 ^ 24)
  | .lowWordStage off _ => decide (off % 4 = 0 ∧ off < 2 ^ 24)
  | .highWordCommit off _ _ => decide (off % 4 = 0 ∧ off < 2 ^ 24)
  | .absentUnitAccess off _ _ => decide (off % 4 = 0 ∧ off < 2 ^ 24)
  | .powerOn => true
  | .resetNAssert .. => true
  | .resetNRelease .. => true
  | .coldResetEnd failed _ => decide (∀ b ∈ failed, b < 18)
  | .firmwareStart => true
  | .warmRstNAssert .. => true
  | .watchdogExpiry => true
  | .warmReset => true
  | .rstCtlCold key => decide (key < 256)
  | .rstCtlWarm key => decide (key < 256)
  | .rstCtlShutdown key _ => decide (key < 256)
  | .rstDomainWrite .. => true
  | .recover => true
  | .rollbackCommit => true
  | .otpProgram r => decide (r.length = 192)
  | .otpRevoke r => decide (r.length = 192)
  | .otpDisableDebug r => decide (r.length = 192)
  | .jtagBypass .. => true
  | .jtagIdcode => true
  | .jtagSamplePreload p l => decide (p.length = l.length)
  | .jtagExtest p l => decide (p.length = l.length)
  | .jtagClamp => true
  | .jtagHighz => true
  | .dbgChal => true
  | .dbgResp r => decide (r.length = 69)
  | .dbgAccess .. => true
  | .relock => true
  | .dflHoldSet .. => true
  | .dflHoldClear => true
  | .powerDownStart .. => true
  | .pwrFailNFall .. => true
  | .railCollapse rail _ => decide (rail < 4)
  | .hostLinkReset .. => true
  | .powerStateChange .. => true
  | .stageConfigWrite .. => true
  | .hp1Doorbell .. => true
  | .sqTailDoorbell .. => true
  | .hp2GroupStamp .. => true
  | .sqEntryFetch _ d _ => decide (d.getD [] = [] ∨ (d.getD []).length = 64)
  | .cqHeadDoorbell .. => true
  | .queueEnable .. => true
  | .queueDisable .. => true
  | .hpNop .. => true
  | .stageIn .. => true
  | .stageInComplete .. => true
  | .submitJob .. => true
  | .loadImage .. => true
  | .unloadImage .. => true
  | .slip .. => true
  | .timeStep .. => true
  | .inject .. => true
  | .adminCommandNext => true
  | .outputCopyComplete .. => true
  | .completionPost .. => true
  | .timeStart => true
  | .timeConfigChange .. => true
  | .ptpSync .. => true
  | .ptpSyncTimeout .. => true
  | .timeStepApply .. => true
  | .timeStepTimeout .. => true
  | .stampEpochNear .. => true
  | .stampLimit .. => true
  | .ethFrame .. => true
  | .replayStart .. => true
  | .replayEnd => true
  | .replayClockAdvance .. => true
  | .trigEdge .. => true
  | .trigGlitch .. => true
  | .trigQualify .. => true
  | .trigHoldoffEnd .. => true
  | .camClockLock .. => true
  | .frameStart _ _ vc dt _ => decide (vc < 16 ∧ dt < 64)
  | .csiLongPacket _ _ vc dt _ _ _ p => decide (vc < 16 ∧ dt < 64 ∧ p.length < 65536)
  | .csiLineShortPacket _ _ vc dt => decide (vc < 16 ∧ dt < 64)
  | .frameEnd _ _ vc dt _ => decide (vc < 16 ∧ dt < 64)
  | .frameReadoutTimeout .. => true
  | .tagRxs .. => true
  | .tagFr .. => true
  | .tagReadDone _ _ b _ => decide (b.length ≤ 130)
  | .tagRateUpdate .. => true
  | .canFrameReceive .. => true
  | .canErrorFrame .. => true
  | .canTransmit .. => true
  | .canInitEnter .. => true
  | .canInitLeave .. => true
  | .mergeItemArrive .. => true
  | .mergeRelease .. => true
  | .cycleAdmission .. => true
  | .frameJobAdmission .. => true
  | .hostJobAdmission .. => true
  | .inputSetClosure .. => true
  | .reservationEnd .. => true
  | .commitReceive _ _ v b _ => decide (v < 16 ∧ b.length = 48)
  | .commitCheck .. => true
  | .deadlineExpiry .. => true
  | .replyReceive _ eid result _ _ => decide (eid < 65536 ∧ result < 256)
  | .eventRetransmit _ eid _ => decide (eid < 65536)
  | .eventAbandon _ eid _ => decide (eid < 65536)
  | .dflFrameSend .. => true
  | .dflTimeTick .. => true
  | .dflFrameDiscard .. => true
  | .dflSilenceTimeout .. => true
  | .dflAlignLossTimeout .. => true
  | .dflDiscardCount .. => true
  | .dflLinkUp .. => true
  | .statusEventReceive _ b _ => decide (b.length = 20)
  | .statusPeriodicReceive _ b _ => decide (b.length = 20)
  | .statusIdentReceive _ b _ => decide (b.length = 20)
  | .reflexRuleWrite .. => true
  | .reflexLaunch _ _ _ _ levels _ _ => decide (levels < 2 ^ 32)
  | .actRegGo _ _ off _ _ => decide (off < 4096)
  | .regDataReceive _ tag result off _ _ => decide (tag < 256 ∧ result < 256 ∧ off < 65536)
  | .actRegTimeout .. => true
  | .slipPrepareWrite .. => true
  | .slipAbortWrite .. => true
  | .partyPrepare _ id _ => decide (id < 65536)
  | .partyChecksumDone _ id _ _ => decide (id < 65536)
  | .prepareAck _ id sum _ => decide (id < 65536 ∧ sum < 2 ^ 64)
  | .prepareNack _ id reason _ => decide (id < 65536 ∧ reason < 256)
  | .slipPrepareTimeout .. => true
  | .partyCommit _ id _ => decide (id < 65536)
  | .commitAckReceive _ id _ => decide (id < 65536)
  | .slipArmTimeout .. => true
  | .partyAbort _ id _ => decide (id < 65536)
  | .slipPoint .. => true
  | .tileBankRetireEnd .. => true
  | .mesaBankRetireEnd .. => true
  | .slipReclaimTimeout .. => true
  | .leeRefreshDone .. => true
  | .leeChunkRetransmit .. => true
  | .jobStart .. => true
  | .engineOpComplete .. => true
  | .scrubRead .. => true
  | .reservoirPatrol .. => true
  | .tileCbWrite _ off _ _ => decide (off % 4 = 0 ∧ 0x400 ≤ off ∧ off < 0xC00)
  | .flitHop .. => true
  | .creditReturn .. => true
  | .horizonArrive .. => true
  | .flitDeliver .. => true
  | .hopWait .. => true
  | .beWait .. => true
  | .cairnBindMsg _ _ _ _ ranges _ => decide (∀ r ∈ ranges, r.1 + r.2 ≤ 2 ^ 18)
  | .cairnAddMsg _ _ _ cairn _ => decide (cairn < 2 ^ 18)
  | .cairnAddsMsg _ _ _ cairn _ => decide (cairn < 2 ^ 18)
  | .cairnFenceMsg _ _ _ cairn => decide (cairn < 2 ^ 18)
  | .cairnWaitMsg _ _ _ cairn _ => decide (cairn < 2 ^ 18)
  | .cairnSettleNMsg _ _ _ cairn _ contrib _ _ => decide (cairn < 2 ^ 18 ∧ contrib < 1024)
  | .cairnSettleWMsg _ _ _ cairn _ contrib => decide (cairn < 2 ^ 18 ∧ contrib < 1024)
  | .cairnCloseMsg _ _ prods => decide (∀ p ∈ prods, p < 4096)
  | .cairnApply .. => true
  | .cairnReply .. => true
  | .rowEnterA1 dom _ => decide (dom < 128)
  | .rowEnterA2 dom _ => decide (dom < 128)
  | .rowEnterA3 dom _ => decide (dom < 128)
  | .rowWake dom _ => decide (dom < 128)
  | .rowWakeDone dom _ => decide (dom < 128)
  | .rowCrestRestored dom _ => decide (dom < 128)
  | .rowLeeRestored dom _ => decide (dom < 128)
  | .wakeLate dom _ => decide (dom < 128)
  | .commonEnterA1 dom _ => decide (dom < 128)
  | .commonWake dom _ => decide (dom < 128)
  | .fDomainSwitchDone dom _ => decide (dom < 128)
  | .hintRegNoChange dom => decide (dom < 128)
  | .hintRegIdleSoon dom _ => decide (dom < 128)
  | .hintRegBusySoon dom _ => decide (dom < 128)
  | .busyHoldEnd dom _ => decide (dom < 128)
  | .timingAlarm .. => true
  | .avsWindow .. => true
  | .clockChange .. => true
  | .thermalSample temps _ => decide (∀ e ∈ temps, e.1 < 84)
  | .dwEnable .. => true
  | .dwDisable .. => true
  | .dwFreeze .. => true
  | .dwFrame _ _ w h luma _ _ => decide (w < 8192 ∧ h < 8192 ∧ luma.length = w * h)
  | .dwFeedGo .. => true
  | .dwInferenceDone .. => true
  | .dwSourceLost .. => true
  | .logRecordArrive .. => true
  | .logKeyedRelease .. => true
  | .logHostCopy .. => true
  | .logHostHeadWrite .. => true
  | .reservoirRange .. => true
  | .stackFailed .. => true
  | .tileFatal .. => true
  | .safeClear .. => true
  | .delluFlitCrcFail .. => true
  | .delluRetrain .. => true
  | .delluRetrainDone .. => true
  | .linkFailed .. => true
  | .add .. => true
  | .sub .. => true
  | .and_ .. => true
  | .or_ .. => true
  | .xor_ .. => true
  | .sll .. => true
  | .srl .. => true
  | .sra .. => true
  | .mul .. => true
  | .mulw .. => true
  | .mulwu .. => true
  | .div .. => true
  | .divu .. => true
  | .rem .. => true
  | .remu .. => true
  | .min .. => true
  | .max .. => true
  | .minu .. => true
  | .maxu .. => true
  | .adds .. => true
  | .subs .. => true
  | .addi .. => true
  | .andi .. => true
  | .ori .. => true
  | .xori .. => true
  | .shi .. => true
  | .lui .. => true
  | .cmpEq .. => true
  | .cmpNe .. => true
  | .cmpLt .. => true
  | .cmpGe .. => true
  | .cmpLtu .. => true
  | .cmpGeu .. => true
  | .br .. => true
  | .jr .. => true
  | .pand .. => true
  | .por .. => true
  | .pxor .. => true
  | .pandn .. => true
  | .pnot .. => true
  | .pfrom .. => true
  | .pto .. => true
  | .nop .. => true
  | .jend .. => true
  | .fenceEng .. => true
  | .ld .. => true
  | .st .. => true
  | .aset .. => true
  | .amov .. => true
  | .aadd .. => true
  | .alen .. => true
  | .ardlo .. => true
  | .ardhi .. => true
  | .dsetKind .. => true
  | .dsetLoose .. => true
  | .dsetFmt .. => true
  | .dsetSources .. => true
  | .dsetStream .. => true
  | .dsetRing .. => true
  | .fset .. => true
  | .fld .. => true
  | .fmac .. => true
  | .fdrn .. => true
  | .fadd .. => true
  | .fsub .. => true
  | .fmul .. => true
  | .fma .. => true
  | .fmin .. => true
  | .fmax .. => true
  | .fabs .. => true
  | .fneg .. => true
  | .cvtF32F16 .. => true
  | .cvtF16F32 .. => true
  | .cvtF32I32 .. => true
  | .cvtI32F32 .. => true
  | .iadd .. => true
  | .isub .. => true
  | .imul .. => true
  | .iadds .. => true
  | .isubs .. => true
  | .imin .. => true
  | .imax .. => true
  | .vand .. => true
  | .vor .. => true
  | .vxor .. => true
  | .vsll .. => true
  | .vsra .. => true
  | .rsum .. => true
  | .rmax .. => true
  | .rmin .. => true
  | .flt .. => true
  | .feq .. => true
  | .ilt .. => true
  | .sel .. => true
  | .bcast .. => true
  | .extr .. => true
  | .insr .. => true
  | .laneid .. => true
  | .vld32 .. => true
  | .vld16 .. => true
  | .vldu8 .. => true
  | .vldbc .. => true
  | .vst32 .. => true
  | .vst16 .. => true
  | .vstu8 .. => true
  | .vtab .. => true
  | .gather .. => true
  | .gatherCsr .. => true
  | .scatter .. => true
  | .scatterAcc .. => true
  | .sopenIn .. => true
  | .sopenOut .. => true
  | .sclose .. => true
  | .sput .. => true
  | .sget .. => true
  | .shzn .. => true
  | .cwait .. => true
  | .cpost .. => true
  | .cadd .. => true
  | .cadds .. => true
  | .cfence .. => true
  | .settleN .. => true
  | .settleW .. => true
  | .stlo .. => true
  | .sthi .. => true
  | .stjob .. => true
  | .psel .. => true
  | .pget .. => true
  | .eget .. => true
  | .iklo .. => true
  | .ikhi .. => true
  | .ikseq .. => true
  | .act .. => true
  | .log .. => true
  | .pwrNoChange .. => true
  | .pwrIdleSoon .. => true
  | .pwrBusySoon .. => true
  | .bankId .. => true
  | .bankOld .. => true
  | .rdcyc .. => true
  | .rdst .. => true
  | .spoll .. => true
  | .sgetnb .. => true
  | .rdstall .. => true
  | .bzPowerUp .. => true
  | .bzPowerupTimeout .. => true
  | .bzLogicReset .. => true
  | .bzTimeFrame .. => true
  | .bzHeartbeatLoss .. => true
  | .bzHoldLastEnd .. => true
  | .bzLimpPinChange .. => true
  | .bzLimpEntryStart .. => true
  | .bzOvervolt .. => true
  | .bzUndervolt .. => true
  | .bzCrankEnter .. => true
  | .bzCrankEnd .. => true
  | .bzCrankTimeout .. => true
  | .bzSupplyRecover .. => true
  | .vsSample .. => true
  | .bzTrip .. => true
  | .bzTripClear _ mask _ _ => decide (mask < 16)
  | .bzRelease .. => true
  | .bzEnterLimp .. => true
  | .bzRegRead _ tag off _ => decide (tag < 256 ∧ off < 65536)
  | .bzRegWrite _ tag off _ _ => decide (tag < 256 ∧ off < 65536)
  | .bzStatusSample .. => true
  | .bzPeriodicStatus .. => true
  | .bzIdentStatus .. => true
  | .bzFrameSend .. => true
  | .bzLimpStoreDone .. => true
  | .bzSlipPrepare _ id => decide (id < 65536)
  | .bzLeeData _ chunk id b _ => decide (chunk < 32 ∧ id < 256 ∧ b.length = 64)
  | .bzSlipCommit _ id _ => decide (id < 65536)
  | .bzSlipAbort _ id => decide (id < 65536)
  | .bzSlipPoint .. => true
  | .bzReseatSwitch .. => true
  | .bzHsEventReceive .. => true
  | .bzSolEventReceive .. => true
  | .bzReflexReceive .. => true
  | .bzHsEventFire .. => true
  | .hsPulseEnd .. => true
  | .hsPwmPeriod .. => true
  | .hsPwmOffEdge .. => true
  | .hsDcOlCheck .. => true
  | .hsOverload .. => true
  | .hsRetryEnd .. => true
  | .hsRetryReset .. => true
  | .hsMWindowEnd .. => true
  | .hsThermalShutdown .. => true
  | .hsThermalRestart .. => true
  | .hsFuseUpdate .. => true
  | .hsCompUpdate .. => true
  | .hsClampEnd .. => true
  | .hsOlOffSourceOn .. => true
  | .hsOlOffSample .. => true
  | .hsPairImbalance .. => true
  | .hsFlagClear .. => true
  | .bzSolEventStart .. => true
  | .solPeakReached .. => true
  | .solPeakTimeout .. => true
  | .solDwellEnd .. => true
  | .solSourceSwitch .. => true
  | .solChopPeriod .. => true
  | .solHoldEnd .. => true
  | .solDecayEnd .. => true
  | .solRestEnd .. => true
  | .solShort .. => true
  | .solCoilUpdate _ m _ _ => decide (m.length = 12)
  | .solProbe .. => true
  | .solProbeDone .. => true
  | .bstMeasure .. => true
  | .solFlagClear .. => true
  | .solRelearn .. => true
  | .vddKeepLoss => true
  | .ethLinkChange .. => true
  | .ptpAnnounceReceive .. => true
  | .ptpDelayResponse .. => true
  | .ptpMasterSyncSend .. => true
  | .bzDflFrameDiscard .. => true
  | .solChopOff .. => true

/-- A well-formed command. -/
abbrev Instr.WellFormed (i : Instr) : Prop := i.wf = true

end Sys2Proof
end

