-- ==== Sys2Proof/Safety.lean ====
section
/-! DEFINITION. What the claims call safe: the invariants of the module, and what no command but a few may change. -/

namespace Sys2Proof.Machine

/-- The tiles that the assembly fits: 128 on each erg die (02 R1, R51). -/
def Fuses.allTiles (f : Fuses) : BitVec 512 := firstTiles (128 * f.ergCount)

/-- A LIVE bit is set only if the same bit of PRESENT is set, for the units of MESA_CAP_LIVE and for the tiles (02 R50, R51). -/
def State.LiveFitted (s : State) : Prop := s.live &&& ~~~s.fuses.allLive = 0 ∧ s.tileLive &&& ~~~s.fuses.allTiles = 0

/-- What fuses, one-time storage and bring-up have fixed: no command touches it but those of the spec's rules for it (02 R47, R50, R51; 22 R595, R597, R599, R601), and none but the step itself the queue. -/
structure Kept where
  pending : List Instr
  fuses : Fuses
  live : Word
  tileLive : BitVec 512
  otp : Vector KeySlot 14
  rollback : Nat
  debugFuse : Bool

/-- That part of a state. -/
def State.kept (s : State) : Kept :=
  { pending := s.pending, fuses := s.fuses, live := s.live, tileLive := s.tileLive, otp := s.unit.otp, rollback := s.unit.rollback, debugFuse := s.unit.debugFuse }

/-- A key slot moves only from EMPTY to VALID and from VALID to REVOKED (22 R595). -/
def KeySlot.after (k k' : KeySlot) : Prop := k' = k ∨ k.state = .empty ∨ (k.state = .valid ∧ k'.state = .revoked)

/-- The units and tiles in service are fitted (R50, R51). -/
def Kept.Fit (k : Kept) : Prop := k.live &&& ~~~k.fuses.allLive = 0 ∧ k.tileLive &&& ~~~k.fuses.allTiles = 0

/-- What the commands may do to the kept part: no unit appears that is not fitted, key slots, the rollback count and the debug fuse only move forward, and the queue and the fuses stay. -/
structure Kept.Leads (k k' : Kept) : Prop where
  pending : k'.pending = k.pending
  fuses : k'.fuses = k.fuses
  fit : k.Fit → k'.Fit
  otp : ∀ n : Fin 14, (k.otp[n]).after (k'.otp[n])
  rollback : k.rollback ≤ k'.rollback
  fuse : k.debugFuse = true → k'.debugFuse = true

/-! ### What a cold reset leaves -/

/-- `u` is what a cold reset leaves of `s`, in a phase and under a cause: nothing volatile holds a value, and flash, the one-time storage, the shutdown area, the rollback count, the debug fuse and the chips are as before (22 R588, R592, R595, R606). -/
structure State.Cleared (s u : State) (p : Phase) (cause : Nat) : Prop where
  phase : u.unit.phase = p
  lastCause : u.unit.lastCause = cause
  words : u.regs = [] ∧ u.crest = [] ∧ u.lee = [] ∧ u.staged = [] ∧ u.latch = []
  units : u.live = 0 ∧ u.tileLive = 0 ∧ u.tiles = [] ∧ u.resv = {} ∧ u.net = {} ∧ u.logs = {} ∧ u.loader = {} ∧ u.slip = {} ∧ u.time = {}
  work : u.jobs = [] ∧ u.cycles = [] ∧ u.submits = []
  lock : u.unit.unlocked = false ∧ u.unit.failed = 0 ∧ u.unit.exhausted = false ∧ u.unit.fwRunning = false ∧ u.unit.warmCount = 0
  stays : u.fuses = s.fuses ∧ u.pending = s.pending ∧ u.chips = s.chips ∧ u.unit.flashA = s.unit.flashA ∧ u.unit.flashB = s.unit.flashB ∧
    u.unit.otp = s.unit.otp ∧ u.unit.rollback = s.unit.rollback ∧ u.unit.debugFuse = s.unit.debugFuse ∧ u.unit.slotA = s.unit.slotA ∧ u.unit.slotB = s.unit.slotB

/-! ### The issue of an instruction, as the claims speak of it -/

/-- The state once an instruction has been fetched: a corrected fetch error is flagged and recorded (21 R574). -/
def State.fetched (s : State) (t : Nat) (g : Issue) (c : Core) : State :=
  match g.ecc with
  | some false => s.memCe t 2 c.pc c.id.stamp
  | _ => s

/-- Tile `t` runs core `c`, waits for no reply, is in service, and fetches a clean word of legal form whose guard holds (08 R202, R205, R206, R211, R213). -/
structure State.Issues (s : State) (t : Fin 512) (g : Issue) (c : Core) : Prop where
  core : (s.tile t).core = some c
  free : c.wait = none
  on : s.tileOn t = true
  fetch : g.ecc ≠ some true
  clean : anyPoison (((s.fetched t g c).tile t).half (s.bedHalf t c.bank)).imemPoison c.pc 4 = false
  plain : g.stray = false
  legal : (g.pn && g.pg == 0) = false
  guard : (c.p g.pg == g.pn) = false

/-- The word after the one at the core's pc lies in the bank (08 R210). -/
def State.More (s : State) (t : Fin 512) (c : Core) : Prop := c.pc + 4 < s.imemSize t

/-- The core `c` after an instruction at `c0` has completed: the pc has advanced (08 R202). -/
def Core.retire (c0 c : Core) : Core := { c with pc := c0.pc + 4, blocked := false }

/-! ### Commands at the chips -/

/-- A command at chip `n` completes, changes that chip alone, and leaves it as the condition says (20 R555). -/
def State.ChipGoes (s : State) (n : Fin 4) (r : Host.Outcome State Fault Refusal) (p : Chip → Prop) : Prop :=
  ∃ u, r = .next u ∧ { u with chips := s.chips } = s ∧ (∀ m : Fin 4, m ≠ n → u.chips[m] = s.chips[m]) ∧ p u.chips[n]

/-- A high-side channel may not take a limp entry: the upper one of a pair, in the fault hold, tripped, or without supply (20 R541). -/
def Chip.hsBarred (c : Chip) (k : Fin 12) : Bool := c.hsUpper k.val || c.hs[k].state == .fault || c.hsTrip k.val || c.supplyHeld

/-- `x` is what chip `c` becomes in LIMP: every high-side channel that may has taken the command of its limp entry, OFF for an invalid profile; entry 3 keeps the channel (20 R535, R541). -/
def Chip.Limps (c x : Chip) : Prop :=
  x.supervisor = .limp ∧ x.crest = c.crest ∧ x.schedule = c.schedule ∧ x.trips = c.trips ∧
  ∀ k : Fin 12, let e := c.limpByte k.val
    let p := hsProf c.crest (e / 4)
    (c.hsBarred k = true ∨ e % 4 = 3 → x.hs[k] = c.hs[k]) ∧
    (c.hsBarred k = false → e % 4 ≠ 3 → (x.hs[k]).act = if e % 4 = 0 ∨ hpBad p.1 p.2 = true then 2 else if e % 4 = 1 then 1 else 4)

/-- `x` is chip `c` with every command ended: the channels are off, the low-side switches do not conduct, no limp entry waits (20 R534). -/
def Chip.Ends (c x : Chip) : Prop :=
  x.limpPend = [] ∧ x.schedule = c.schedule ∧ x.supervisor = c.supervisor ∧ x.crest = c.crest ∧
  ∀ k : Fin 12, (x.hs[k]).on = false ∧ (x.hs[k]).act = 2 ∧ (x.hs[k]).pulseEnd = none ∧ (x.hs[k]).state = (if c.hs[k].state = .fault then .fault else .off) ∧ (x.sol[k]).low = false

/-- A channel is in the fault hold by flag `f` (18 R491, R492). -/
def HsChan.Faulted (h : HsChan) (f : Nat) : Prop := h.state = .fault ∧ h.on = false ∧ h.act = 2 ∧ h.pulseEnd = none ∧ h.sts.getLsbD f = true ∧ h.latch.getLsbD f = true

/-- An output that ran decays fast toward the fault hold by flag `f` (19 R527). -/
def SolOut.Failing (o : SolOut) (f : Nat) : Prop := o.phase = .decay ∧ o.fast = true ∧ o.toFault = true ∧ o.low = false ∧ o.sts.getLsbD f = true ∧ o.latch.getLsbD f = true

/-- Chip `c` becomes `x` by a change of high-side channel `k` alone, whose new state is as the condition says. -/
def Chip.HsGoes (c x : Chip) (k : Fin 12) (p : HsChan → Prop) : Prop := ∃ h, x = { c with hs := c.hs.set k h } ∧ p h

/-- Chip `c` becomes `x` by a change of solenoid output `k` alone. -/
def Chip.SolGoes (c x : Chip) (k : Fin 12) (p : SolOut → Prop) : Prop := ∃ o, x = { c with sol := c.sol.set k o } ∧ p o

/-- A channel runs the command it holds, from `t` on, at `duty`: on under DC, off, or in the first PWM period (18 R467, R471, R472, R491). -/
def HsChan.Runs (h : HsChan) (duty : Nat) (t : Time) : Prop :=
  (h.act = 1 ∨ h.act = 3 ∨ (h.act = 4 ∧ hpPeriod h.w0 = 0 ∧ 0 < hpDuty h.w0) → h.state = .onDc ∧ h.on = true ∧ h.onSince = t) ∧
  (h.act = 2 ∨ (h.act = 4 ∧ hpPeriod h.w0 = 0 ∧ hpDuty h.w0 = 0) → h.state = .off ∧ h.on = false) ∧
  (h.act = 4 → hpPeriod h.w0 ≠ 0 → let on := onTimeNs duty (hpPeriod h.w0) (hpStretch h.w1) 0
    h.state = .pwm ∧ h.period = 0 ∧ h.periodStart = t ∧ h.duty = duty ∧ h.offAt = t + on ∧ h.on = decide (on ≠ 0))

/-- Channel `h` becomes `x` by taking a command at `t`: it replaces the one in force, and a channel in RETRY_WAIT or THERMAL_WAIT keeps waiting (18 R467, R491). -/
def HsChan.Takes (h x : HsChan) (act : Nat) (w0 w1 : Word) (duty durUs : Nat) (t : Time) : Prop :=
  x.act = act ∧ x.w0 = w0 ∧ x.w1 = w1 ∧ x.pulseEnd = (if act = 3 then some (t + 1000 * durUs) else none) ∧ x.retries = 0 ∧ x.restarts = 0 ∧
  x.sts = h.sts ∧ x.latch = h.latch ∧ x.cnt = h.cnt ∧ x.x = h.x ∧ x.junction = h.junction ∧
  (h.state = .retryWait ∨ h.state = .thermalWait → x.state = h.state ∧ x.on = h.on) ∧
  (h.state ≠ .retryWait → h.state ≠ .thermalWait → x.Runs duty t)

/-- The open-load state after one assessment, of the on-state check (`on`) or the off-state one: nothing, GOOD, or OPEN, which counts in its own run (18 R489). -/
def HsChan.Assessed (h x : HsChan) (on : Bool) (count : Nat) (r : Option Bool) : Prop :=
  let run := if on then h.olOnRun else h.olOffRun
  (r = none → x.ol = h.ol ∧ x.olOnRun = h.olOnRun ∧ x.olOffRun = h.olOffRun ∧ x.sts = h.sts) ∧
  (r = some false → x.ol = 1 ∧ x.olOnRun = 0 ∧ x.olOffRun = 0 ∧ x.sts = h.sts) ∧
  (r = some true → x.olOnRun = (if on then run + 1 else 0) ∧ x.olOffRun = (if on then 0 else run + 1) ∧
    (h.ol ≠ 2 → count ≤ run + 1 → x.ol = 2 ∧ x.sts.getLsbD (if on then 4 else 5) = true) ∧ (h.ol = 2 ∨ run + 1 < count → x.ol = h.ol ∧ x.sts = h.sts))

/-- A movement baseline after one search: eight found times make it, later ones are compared and followed, 32 failures in a row while learning are told (19 R520, R521). `v` is the verdict, `sts` the output's flags after it. -/
def Baseline.Took (b x : Baseline) (tolUs : Nat) (r : Option Nat) (v : Nat) (sts : Word) : Prop :=
  (∀ m, r = some m → b.learning = true → v = 0 ∧ x.sum = b.sum + m ∧ x.found = b.found + 1 ∧ x.fails = 0 ∧ (b.found + 1 = 8 → x.learning = false ∧ x.base = (b.sum + m + 4) / 8) ∧ (b.found + 1 ≠ 8 → x.learning = true)) ∧
  (∀ m, r = some m → b.learning = false → max m b.base - min m b.base ≤ tolUs → v = 1 ∧ x = { b with base := ((b.base : Int) + ((m : Int) - b.base).tdiv 16).toNat }) ∧
  (∀ m, r = some m → b.learning = false → tolUs < max m b.base - min m b.base → v = 3 ∧ x = b ∧ sts.getLsbD 9 = true) ∧
  (r = none → b.learning = false → v = 2 ∧ x = b ∧ sts.getLsbD 8 = true) ∧
  (r = none → b.learning = true → v = 0 ∧ x = { b with fails := if b.fails + 1 = 32 then 0 else b.fails + 1 } ∧ (b.fails + 1 = 32 → sts.getLsbD 10 = true))

end Sys2Proof.Machine
end

