-- ==== Sys2Proof/Certificates/Slice0/Obligations.lean ====
section
/-! DEFINITION. The statements for the provers, each a Prop; every docstring names the rules of spec/ it states. A statement of several parts is the conjunction of the claims that it names, which stand here too. -/

open Sys2Proof Sys2Proof.Machine

/-- R229 (09). Every ALU instruction completes with the result of the table in s[DST] (s0 discards it), MULW and MULWU with the product in their pair, poisoned exactly when an operand is; nothing else changes but the pc and what the fetch recorded. MULW and MULWU with an odd DST or s0 are illegal encodings. -/
def Obligations.AluResults : Prop :=
  (∀ op ∈ ([(.add, fun a b => a + b), (.sub, fun a b => a - b), (.and_, fun a b => a &&& b), (.or_, fun a b => a ||| b), (.xor_, fun a b => a ^^^ b),
      (.sll, fun a b => a <<< (b.toNat % 32)), (.srl, fun a b => a >>> (b.toNat % 32)), (.sra, fun a b => a.sshiftRight (b.toNat % 32)),
      (.mul, fun a b => a * b),
      (.div, fun a b => if b = 0 then 0 else if a = 0x80000000 ∧ b = 0xFFFFFFFF then 0x7FFFFFFF else a.sdiv b),
      (.divu, fun a b => if b = 0 then 0 else a / b),
      (.rem, fun a b => if b = 0 then 0 else if a = 0x80000000 ∧ b = 0xFFFFFFFF then 0 else a.srem b),
      (.remu, fun a b => if b = 0 then 0 else a % b),
      (.min, fun a b => if a.slt b then a else b), (.max, fun a b => if a.slt b then b else a),
      (.minu, fun a b => if a < b then a else b), (.maxu, fun a b => if a < b then b else a),
      (.adds, fun a b => BitVec.ofInt 32 (max (-2147483648) (min 2147483647 (a.toInt + b.toInt)))),
      (.subs, fun a b => BitVec.ofInt 32 (max (-2147483648) (min 2147483647 (a.toInt - b.toInt))))] :
      List ((Fin 512 → Issue → Fin 32 → Fin 32 → Fin 32 → Instr) × (Word → Word → Word))),
    ∀ (s : State) (t : Fin 512) (g : Issue) (c : Core) (dst a b : Fin 32), s.Issues t g c → (s.fetched t g c).More t c →
      exec (op.1 t g dst a b) s =
        .next ((s.fetched t g c).setCore t (c.retire (c.setS dst (op.2 (c.s a) (c.s b)) (c.sBad a || c.sBad b))))) ∧
  (∀ (s : State) (t : Fin 512) (g : Issue) (c : Core) (k : Fin 15) (a b : Fin 32), s.Issues t g c → (s.fetched t g c).More t c →
    let lo : Fin 32 := ⟨2 * k.val + 2, by omega⟩
    let hi : Fin 32 := ⟨2 * k.val + 3, by omega⟩
    let bad := c.sBad a || c.sBad b
    let p := (c.s a).signExtend 64 * (c.s b).signExtend 64
    let q := (c.s a).zeroExtend 64 * (c.s b).zeroExtend 64
    exec (.mulw t g lo a b) s =
      .next ((s.fetched t g c).setCore t (c.retire ((c.setS lo (p.extractLsb' 0 32) bad).setS hi (p.extractLsb' 32 32) bad))) ∧
    exec (.mulwu t g lo a b) s =
      .next ((s.fetched t g c).setCore t (c.retire ((c.setS lo (q.extractLsb' 0 32) bad).setS hi (q.extractLsb' 32 32) bad)))) ∧
  (∀ (s : State) (t : Fin 512) (g : Issue) (c : Core) (dst a b : Fin 32), s.Issues t g c → dst.val % 2 = 1 ∨ dst = 0 →
    (∃ u, exec (.mulw t g dst a b) s = .next u ∧ (u.tile t).core = none ∧ u.reg (tileBase t + 0x1C) = 1 ∧ (u.tile t).abuf = (s.tile t).abuf) ∧ (∃ u, exec (.mulwu t g dst a b) s = .next u ∧ (u.tile t).core = none ∧ u.reg (tileBase t + 0x1C) = 1 ∧ (u.tile t).abuf = (s.tile t).abuf))

/-- R230 (09). The immediate instructions complete with the results of the table, SHI for its three kinds of shift; kind 3 and a nonzero IMM12[9:5] are illegal encodings. -/
def Obligations.ImmediateResults : Prop :=
  (∀ op ∈ ([(.addi, fun a i => a + i.signExtend 32), (.andi, fun a i => a &&& i.zeroExtend 32), (.ori, fun a i => a ||| i.zeroExtend 32),
      (.xori, fun a i => a ^^^ i.zeroExtend 32)] : List ((Fin 512 → Issue → Fin 32 → Fin 32 → BitVec 12 → Instr) × (Word → BitVec 12 → Word))),
    ∀ (s : State) (t : Fin 512) (g : Issue) (c : Core) (dst a : Fin 32) (i : BitVec 12), s.Issues t g c → (s.fetched t g c).More t c →
      exec (op.1 t g dst a i) s = .next ((s.fetched t g c).setCore t (c.retire (c.setS dst (op.2 (c.s a) i) (c.sBad a))))) ∧
  (∀ (s : State) (t : Fin 512) (g : Issue) (c : Core) (dst a : Fin 32) (n : BitVec 5), s.Issues t g c → (s.fetched t g c).More t c →
    exec (.shi t g dst a ((0 : BitVec 2) ++ (0 : BitVec 5) ++ n)) s = .next ((s.fetched t g c).setCore t (c.retire (c.setS dst (c.s a <<< n.toNat) (c.sBad a)))) ∧
    exec (.shi t g dst a ((1 : BitVec 2) ++ (0 : BitVec 5) ++ n)) s = .next ((s.fetched t g c).setCore t (c.retire (c.setS dst (c.s a >>> n.toNat) (c.sBad a)))) ∧
    exec (.shi t g dst a ((2 : BitVec 2) ++ (0 : BitVec 5) ++ n)) s =
      .next ((s.fetched t g c).setCore t (c.retire (c.setS dst ((c.s a).sshiftRight n.toNat) (c.sBad a))))) ∧
  (∀ (s : State) (t : Fin 512) (g : Issue) (c : Core) (dst : Fin 32) (i : BitVec 17), s.Issues t g c → (s.fetched t g c).More t c →
    exec (.lui t g dst i) s = .next ((s.fetched t g c).setCore t (c.retire (c.setS dst (i ++ (0 : BitVec 15)) false)))) ∧
  (∀ (s : State) (t : Fin 512) (g : Issue) (c : Core) (dst a : Fin 32) (i : BitVec 12), s.Issues t g c → i.extractLsb' 10 2 = 3 ∨ i.extractLsb' 5 5 ≠ 0 → ∃ u, exec (.shi t g dst a i) s = .next u ∧ (u.tile t).core = none ∧ u.reg (tileBase t + 0x1C) = 1 ∧ (u.tile t).abuf = (s.tile t).abuf)

/-- R231 (09). A comparison completes with p[DST] 1 when it holds and 0 otherwise (p0 discards it), poisoned exactly when an operand is; nothing else changes but the pc and what the fetch recorded. -/
def Obligations.ComparisonResults : Prop :=
  (∀ op ∈ ([(.cmpEq, fun a b => a == b), (.cmpNe, fun a b => !(a == b)), (.cmpLt, fun a b => a.slt b), (.cmpGe, fun a b => !(a.slt b)),
      (.cmpLtu, fun a b => a.ult b), (.cmpGeu, fun a b => !(a.ult b))] :
      List ((Fin 512 → Issue → Fin 8 → Fin 32 → Fin 32 → Instr) × (Word → Word → Bool))),
    ∀ (s : State) (t : Fin 512) (g : Issue) (c : Core) (dst : Fin 8) (a b : Fin 32), s.Issues t g c → (s.fetched t g c).More t c →
      exec (op.1 t g dst a b) s =
        .next ((s.fetched t g c).setCore t (c.retire (c.setP dst (op.2 (c.s a) (c.s b)) (c.sBad a || c.sBad b)))))

/-- R232 (09). The predicate instructions complete with the results of the table in p[DST], PTO in s[DST]; NOP only advances the pc. -/
def Sys2Proof.Claims.PredicateResults : Prop :=
  (∀ op ∈ ([(.pand, fun a b => a && b), (.por, fun a b => a || b), (.pxor, fun a b => a != b), (.pandn, fun a b => a && !b)] :
      List ((Fin 512 → Issue → Fin 8 → Fin 8 → Fin 8 → Instr) × (Bool → Bool → Bool))),
    ∀ (s : State) (t : Fin 512) (g : Issue) (c : Core) (dst a b : Fin 8), s.Issues t g c → (s.fetched t g c).More t c →
      exec (op.1 t g dst a b) s =
        .next ((s.fetched t g c).setCore t (c.retire (c.setP dst (op.2 (c.p a) (c.p b)) (c.pBad a || c.pBad b))))) ∧
  (∀ (s : State) (t : Fin 512) (g : Issue) (c : Core), s.Issues t g c → (s.fetched t g c).More t c →
    (∀ dst a : Fin 8, exec (.pnot t g dst a) s = .next ((s.fetched t g c).setCore t (c.retire (c.setP dst (!c.p a) (c.pBad a))))) ∧
    (∀ (dst : Fin 8) (a : Fin 32), exec (.pfrom t g dst a) s = .next ((s.fetched t g c).setCore t (c.retire (c.setP dst (decide (c.s a ≠ 0)) (c.sBad a))))) ∧
    (∀ (dst : Fin 32) (a : Fin 8), exec (.pto t g dst a) s =
      .next ((s.fetched t g c).setCore t (c.retire (c.setS dst (if c.p a then 1 else 0) (c.pBad a))))) ∧
    exec (.nop t g) s = .next ((s.fetched t g c).setCore t (c.retire c)))

/-- R195, R206 (08). s0 reads as zero and p0 as 1, and both discard writes; any other register reads back what was written, and a write changes no other register of its file. -/
def Obligations.HardwiredRegisters : Prop :=
  ∀ (c : Core) (bad : Bool),
    (∀ (dst r : Fin 32) (v : Word), (c.setS dst v bad).s r = if r = 0 then 0 else if r = dst then v else c.s r) ∧
    (∀ (dst r : Fin 8) (v : Bool), (c.setP dst v bad).p r = if r = 0 then true else if r = dst then v else c.p r) ∧
    (∀ (dst r : Fin 16) (v : BitVec 64), (c.setA dst v bad).a r = if r = dst then v else c.a r) ∧
    (∀ (dst : Fin 32) (r : Fin 8) (v : Word), (c.setS dst v bad).p r = c.p r) ∧
    (∀ (dst : Fin 32) (r : Fin 16) (v : Word), (c.setS dst v bad).a r = c.a r ∧ (c.setS dst v bad).vx = c.vx ∧ (c.setS dst v bad).desc = c.desc)

/-- R233 (09). The extent instructions complete with the effects of the table; AADD wraps within BASE, and ALEN takes 24 bits. -/
def Obligations.AddressRegisterResults : Prop :=
  ∀ (s : State) (t : Fin 512) (g : Issue) (c : Core), s.Issues t g c → (s.fetched t g c).More t c →
    let f := s.fetched t g c
    let toS (i : Instr) (dst : Fin 32) (v : Word) (bad : Bool) : Prop := exec i s = .next (f.setCore t (c.retire (c.setS dst v bad)))
    let toA (i : Instr) (dst : Fin 16) (v : BitVec 64) (bad : Bool) : Prop := exec i s = .next (f.setCore t (c.retire (c.setA dst v bad)))
    (∀ (dst : Fin 16) (a b : Fin 32), toA (.aset t g dst a b) dst (c.s b ++ c.s a) (c.sBad a || c.sBad b)) ∧
    (∀ dst a : Fin 16, toA (.amov t g dst a) dst (c.a a) (c.aBad a)) ∧
    (∀ (dst a : Fin 16) (b : Fin 32), toA (.aadd t g dst a b) dst
      ((c.a a).extractLsb' 38 26 ++ ((c.a a).extractLsb' 0 38 + (c.s b).signExtend 38)) (c.aBad a || c.sBad b)) ∧
    (∀ (dst a : Fin 16) (b : Fin 32), toA (.alen t g dst a b) dst ((c.s b).extractLsb' 0 24 ++ (c.a a).extractLsb' 0 40) (c.aBad a || c.sBad b)) ∧
    (∀ (dst : Fin 32) (a : Fin 16), toS (.ardlo t g dst a) dst ((c.a a).extractLsb' 0 32) (c.aBad a) ∧ toS (.ardhi t g dst a) dst ((c.a a).extractLsb' 32 32) (c.aBad a))

/-- R199, R253, R256 (08, 09). The stamp, key, producer and bank instructions complete with the effects of the tables. PSEL needs room in the producer table. -/
def Sys2Proof.Claims.StampAndProducerResults : Prop :=
  ∀ (s : State) (t : Fin 512) (g : Issue) (c : Core), s.Issues t g c → (s.fetched t g c).More t c →
    let f := s.fetched t g c
    let toS (i : Instr) (dst : Fin 32) (v : Word) (bad : Bool) : Prop := exec i s = .next (f.setCore t (c.retire (c.setS dst v bad)))
    (∀ dst : Fin 32, toS (.stlo t g dst) dst (c.id.stamp.extractLsb' 0 32) false ∧ toS (.sthi t g dst) dst (c.id.stamp.extractLsb' 32 32) false ∧
      toS (.stjob t g dst) dst (BitVec.ofNat 32 c.id.job) false ∧ toS (.pget t g dst) dst (BitVec.ofNat 32 c.prod) false ∧
      toS (.eget t g dst) dst (BitVec.ofNat 32 ((c.count c.prod).getD 0)) false ∧
      toS (.bankId t g dst) dst (BitVec.ofNat 32 ((f.tile t).half c.bank).digest) false) ∧
    (∀ (dst : Fin 32) (d : Fin 16), let k : Key := (c.d d).last.getD 0
      toS (.iklo t g dst d) dst (k.extractLsb' 32 32) false ∧ toS (.ikhi t g dst d) dst (k.extractLsb' 64 32) false ∧
      toS (.ikseq t g dst d) dst (k.extractLsb' 0 32) false) ∧
    (∀ dst : Fin 8, exec (.bankOld t g dst) s = .next (f.setCore t (c.retire (c.setP dst c.old false)))) ∧
    (∀ a : Fin 32, c.noRoom ((c.s a).toNat % 4096) = false → ∃ k : Core, exec (.psel t g a) s = .next (f.setCore t (c.retire k)) ∧
      k.prod = (c.s a).toNat % 4096 ∧ (∀ p, k.count p = if p = (c.s a).toNat % 4096 then some ((c.count p).getD 0) else c.count p) ∧
      k.sreg = c.sreg ∧ k.preg = c.preg ∧ k.areg = c.areg ∧ k.vx = c.vx ∧ k.desc = c.desc ∧ k.facet = c.facet)

/-- R141, R240 (05, 09). The lane operations of the vector unit on two registers complete with the results of the table, lane by lane, each lane poisoned when an operand lane is; the operation takes a place in the vector queue. -/
def Sys2Proof.Claims.VectorPairResults : Prop :=
  ∀ op ∈ ([(.fadd, fadd32), (.fsub, fsub32), (.fmul, fmul32), (.fmin, fmin32), (.fmax, fmax32),
      (.iadd, fun a b => a + b), (.isub, fun a b => a - b), (.imul, fun a b => a * b),
      (.iadds, fun a b => BitVec.ofInt 32 (max (-2147483648) (min 2147483647 (a.toInt + b.toInt)))),
      (.isubs, fun a b => BitVec.ofInt 32 (max (-2147483648) (min 2147483647 (a.toInt - b.toInt)))),
      (.imin, fun a b => if a.slt b then a else b), (.imax, fun a b => if a.slt b then b else a),
      (.vand, fun a b => a &&& b), (.vor, fun a b => a ||| b), (.vxor, fun a b => a ^^^ b),
      (.vsll, fun a b => a <<< (b.toNat % 32)), (.vsra, fun a b => a.sshiftRight (b.toNat % 32)),
      (.flt, fun a b => if flt32 a b then 0xFFFFFFFF else 0), (.feq, fun a b => if feq32 a b then 0xFFFFFFFF else 0),
      (.ilt, fun a b => if a.slt b then 0xFFFFFFFF else 0)] :
      List ((Fin 512 → Issue → Fin 16 → Fin 16 → Fin 16 → Instr) × (Word → Word → Word))),
    ∀ (s : State) (t : Fin 512) (g : Issue) (c : Core) (dst a b : Fin 16), s.Issues t g c → (s.fetched t g c).More t c →
      (s.fetched t g c).queueFull t 1 = false →
      exec (op.1 t g dst a b) s = .next (((s.fetched t g c).fly t 1 [] []).setCore t
        (c.retire (c.setLanes dst (fun k => op.2 (c.lane a k) (c.lane b k)) fun k => c.laneBad a k || c.laneBad b k)))

/-- R79, R141, R240 (03, 05, 09). The other vector operations complete: one operand, fused multiply-add, select, reductions, and moves between lanes and scalars. -/
def Sys2Proof.Claims.VectorOtherResults : Prop :=
  ∀ (s : State) (t : Fin 512) (g : Issue) (c : Core), s.Issues t g c → (s.fetched t g c).More t c → (s.fetched t g c).queueFull t 1 = false →
    let toV (i : Instr) (dst : Fin 16) (v : Fin 64 → Word) (bad : Nat → Bool) : Prop :=
      exec i s = .next (((s.fetched t g c).fly t 1 [] []).setCore t (c.retire (c.setLanes dst v bad)))
    (∀ op ∈ ([(.fabs, fun a => if isNan32 a then nan32 else a &&& 0x7FFFFFFF), (.fneg, fun a => if isNan32 a then nan32 else a ^^^ 0x80000000),
        (.cvtF32F16, fun a => f16to32 (a.toNat % 65536)), (.cvtF16F32, fun a => BitVec.ofNat 32 (f32to16 a)), (.cvtF32I32, i32toF),
        (.cvtI32F32, fun a => BitVec.ofInt 32 (fToI32 a))] : List ((Fin 512 → Issue → Fin 16 → Fin 16 → Instr) × (Word → Word))),
      ∀ dst a : Fin 16, toV (op.1 t g dst a) dst (fun k => op.2 (c.lane a k)) (c.laneBad a)) ∧
    (∀ dst a b : Fin 16,
      toV (.fma t g dst a b) dst (fun k => ffma32 (c.lane a k) (c.lane b k) (c.lane dst k)) (fun k => c.laneBad a k || c.laneBad b k || c.laneBad dst k) ∧
      toV (.sel t g dst a b) dst (fun k => if c.lane dst k = 0 then c.lane b k else c.lane a k) (fun k => c.laneBad a k || c.laneBad b k || c.laneBad dst k)) ∧
    (∀ dst a : Fin 16, let any := (List.range 64).any (c.laneBad a)
      toV (.rsum t g dst a) dst (fun k => if k = 0 then laneSum (c.lanes a) else 0) (fun k => any && decide (k = 0)) ∧
      toV (.rmax t g dst a) dst (fun k => if k = 0 then (laneBest true (c.lanes a)).1 else if k = 1 then BitVec.ofNat 32 (laneBest true (c.lanes a)).2 else 0)
        (fun k => any && decide (k ≤ 1)) ∧
      toV (.rmin t g dst a) dst (fun k => if k = 0 then (laneBest false (c.lanes a)).1 else if k = 1 then BitVec.ofNat 32 (laneBest false (c.lanes a)).2 else 0)
        (fun k => any && decide (k ≤ 1))) ∧
    (∀ (dst : Fin 16) (a : Fin 32), toV (.bcast t g dst a) dst (fun _ => c.s a) (fun _ => c.sBad a)) ∧
    (∀ dst : Fin 16, toV (.laneid t g dst) dst (fun k => BitVec.ofNat 32 k.val) (fun _ => false)) ∧
    (∀ (dst : Fin 16) (a b : Fin 32), toV (.insr t g dst a b) dst (fun k => if k.val = (c.s b).toNat % 64 then c.s a else c.lane dst k)
      (fun k => c.sBad b || (if k = (c.s b).toNat % 64 then c.sBad a else c.laneBad dst k))) ∧
    (∀ (dst : Fin 32) (a : Fin 16) (b : Fin 32) (k : Fin 64), k.val = (c.s b).toNat % 64 →
      exec (.extr t g dst a b) s = .next (((s.fetched t g c).fly t 1 [] []).setCore t (c.retire (c.setS dst (c.lane a k) (c.laneBad a k || c.sBad b)))))

/-- R138, R196, R213, R215 (08). LD completes with the little-endian word at BASE + OFF13 of an extent in the activation buffer or the weight bed, and marks the job when the word is poisoned in a job that is no cycle. -/
def Sys2Proof.Claims.LoadResult : Prop :=
  ∀ (s : State) (t : Fin 512) (g : Issue) (c : Core) (dst : Fin 32) (xa : Fin 16) (off : BitVec 13) (hits : List EccHit) (a : Nat),
    s.Issues t g c → (s.fetched t g c).More t c →
    let f := s.fetched t g c
    let x := extentOf (c.a xa)
    let e : Extent := { space := x.space, base := a, len := 4 }
    let r := f.applyHits t c [e] hits
    let bad := r.loadBad t c x.space a 4
    (a : Int) = x.base + off.toInt → a % 4 = 0 → x.space = 0 ∨ x.space = 2 → x.base ≤ a → a + 4 ≤ x.base + x.len → x.base + x.len ≤ f.spaceSize t x.space →
    anyOverlap [e] c.rings = false → anyOverlap [e] (f.tile t).writes = false → bad = false ∨ r.isCycle c.id = false →
      exec (.ld t g dst xa off hits) s = .next ((if bad then r.mark c.id 4 else r).setCore t
        (c.retire (c.setS dst (BitVec.ofNat 32 (ofLe (r.load t c x.space a 4))) (bad || c.aBad xa))))

/-- R138, R180, R196, R213, R215 (08). ST completes: the four bytes at BASE + OFF13 of the activation buffer hold s[SRC] little-endian, every other byte of the buffer, every other tile and the reservoir are unchanged, and no register changes but the pc. -/
def Sys2Proof.Claims.StoreResult : Prop :=
  ∀ (s : State) (t : Fin 512) (g : Issue) (c : Core) (src : Fin 32) (xa : Fin 16) (off : BitVec 13) (a : Nat),
    s.Issues t g c → (s.fetched t g c).More t c →
    let f := s.fetched t g c
    let x := extentOf (c.a xa)
    let e : Extent := { space := x.space, base := a, len := 4 }
    (a : Int) = x.base + off.toInt → a % 4 = 0 → x.space = 0 → x.base ≤ a → a + 4 ≤ x.base + x.len → x.base + x.len ≤ 0x40000 →
    anyOverlap [e] c.rings = false → anyOverlap [e] ((f.tile t).writes ++ (f.tile t).reads ++ c.held) = false →
      ∃ u, exec (.st t g src xa off) s = .next u ∧ (u.tile t).core = some (c.retire c) ∧
        (∀ n, (u.tile t).abuf.byte n = if a ≤ n ∧ n < a + 4 then (c.s src).extractLsb' (8 * (n - a)) 8 else (f.tile t).abuf.byte n) ∧
        (u.tile t).halves = (f.tile t).halves ∧ (u.tile t).flight = (f.tile t).flight ∧ (u.tile t).ports = (f.tile t).ports ∧
        (∀ n, n ≠ t.val → u.tile n = f.tile n) ∧ u.resv = f.resv ∧ u.regs = f.regs ∧ u.net = f.net ∧ u.jobs = f.jobs ∧ u.logs = f.logs ∧ u.kept = f.kept

/-- R138, R139, R180, R196, R213, R241 (05, 08, 09). The vector loads and stores complete on an extent of the activation buffer (loads also the weight bed): lane `k` takes the `k`-th word, half or byte, VLDBC one word for every lane; a store writes the low bytes of each lane in order and nothing else. -/
def Sys2Proof.Claims.VectorTransferResults : Prop :=
  ∀ (s : State) (t : Fin 512) (g : Issue) (c : Core) (vx xa : Fin 16) (r : Fin 32),
    s.Issues t g c → (s.fetched t g c).More t c → (s.fetched t g c).queueFull t 1 = false →
    let f := s.fetched t g c
    let x := extentOf (c.a xa)
    let a := x.base + (c.s r).toNat
    a % 4 = 0 → x.base % 4 = 0 → x.len % 4 = 0 → x.base + x.len ≤ f.spaceSize t x.space →
    (∀ op ∈ ([(.vld32, 256, 4, 4), (.vld16, 128, 2, 2), (.vldu8, 64, 1, 1), (.vldbc, 4, 0, 4)] :
        List ((Fin 512 → Issue → Fin 16 → Fin 16 → Fin 32 → List EccHit → Instr) × Nat × Nat × Nat)), ∀ hits,
      let e : Extent := { space := x.space, base := a, len := op.2.1 }
      let q := f.applyHits t c [e] hits
      x.space = 0 ∨ x.space = 2 → a + op.2.1 ≤ x.base + x.len → anyOverlap [e] c.rings = false → q.loadBad t c x.space a op.2.1 = false →
        exec (op.1 t g vx xa r hits) s = .next ((q.fly t 1 [e] []).setCore t (c.retire (c.setLanes vx
          (fun k => BitVec.ofNat 32 (leAt (q.load t c x.space a op.2.1) (k.val * op.2.2.1) op.2.2.2))
          fun k => (c.aBad xa || c.sBad r) || q.loadBad t c x.space (a + k * op.2.2.1) op.2.2.2)))) ∧
    (∀ op ∈ ([(.vst32, 4), (.vst16, 2), (.vstu8, 1)] : List ((Fin 512 → Issue → Fin 16 → Fin 16 → Fin 32 → Instr) × Nat)),
      let e : Extent := { space := 0, base := a, len := 64 * op.2 }
      x.space = 0 → a + 64 * op.2 ≤ x.base + x.len → anyOverlap [e] c.rings = false → anyOverlap [e] c.held = false →
        ∃ u, exec (op.1 t g vx xa r) s = .next u ∧ (u.tile t).core = some (c.retire c) ∧
          (u.tile t).flight = (f.tile t).flight ++ [{ engine := 1, reads := [], writes := [e] }] ∧
          (∀ (k : Fin 64) (i : Nat), i < op.2 → (u.tile t).abuf.byte (a + op.2 * k.val + i) = (c.lane vx k).extractLsb' (8 * i) 8) ∧
          (∀ n, n < a ∨ a + 64 * op.2 ≤ n → (u.tile t).abuf.byte n = (f.tile t).abuf.byte n) ∧
          (u.tile t).halves = (f.tile t).halves ∧ (∀ n, n ≠ t.val → u.tile n = f.tile n) ∧ u.resv = f.resv ∧ u.regs = f.regs ∧ u.kept = f.kept)

/-- R142 (05), R241 (09). VTAB completes with, in each lane, c0[s] + c1[s] × x rounded once for the segment s that counts the breakpoints not above x, and the canonical NaN for a NaN. The 768 bytes of the table are read clean. -/
def Sys2Proof.Claims.FunctionTableResult : Prop :=
  ∀ (s : State) (t : Fin 512) (g : Issue) (c : Core) (vx xa vb : Fin 16) (hits : List EccHit),
    s.Issues t g c → (s.fetched t g c).More t c → (s.fetched t g c).queueFull t 1 = false →
    let f := s.fetched t g c
    let x := extentOf (c.a xa)
    let q := f.applyHits t c [x] hits
    let w (i : Nat) : Word := BitVec.ofNat 32 (leAt (q.load t c 2 x.base 768) (4 * i) 4)
    x.space = 2 → x.base % 4 = 0 → x.len % 4 = 0 → 768 ≤ x.len → x.base + x.len ≤ f.wbedSize t → q.loadBad t c 2 x.base 768 = false →
      ∃ u k, exec (.vtab t g vx xa vb hits) s = .next u ∧ (u.tile t).core = some (c.retire k) ∧
        (u.tile t).flight = (q.tile t).flight ++ [{ engine := 1, reads := [x], writes := [] }] ∧
        (∀ l : Fin 64, isNan32 (c.lane vb l) = true → k.lane vx l = nan32) ∧
        (∀ l : Fin 64, isNan32 (c.lane vb l) = false →
          let n := ((List.range 63).filter fun i => flt32 (w i) (c.lane vb l) || feq32 (w i) (c.lane vb l)).length
          k.lane vx l = ffma32 (w (64 + 2 * n + 1)) (c.lane vb l) (w (64 + 2 * n))) ∧
        (∀ r : Fin 16, r ≠ vx → ∀ l, k.lane r l = c.lane r l) ∧ k.sreg = c.sreg ∧ k.preg = c.preg ∧ k.areg = c.areg ∧
        (u.tile t).abuf = (q.tile t).abuf ∧ u.resv = q.resv ∧ u.kept = f.kept

/-- R208, R210, R232 (08, 09). BR and JR go to a target that lies in the code of the bank and link the next pc; FENCE_ENG completes when no engine operation is in flight and waits otherwise, with no effect. -/
def Sys2Proof.Claims.BranchResults : Prop :=
  ∀ (s : State) (t : Fin 512) (g : Issue) (c : Core), s.Issues t g c →
    let f := s.fetched t g c
    (∀ (link : Fin 32) (off : BitVec 17) (pc : Nat), (pc : Int) = c.pc + 4 * off.toInt → pc % 4 = 0 → 0x800 ≤ pc → pc < f.imemSize t →
      exec (.br t g link off) s = .next (f.setCore t { c.setS link (BitVec.ofNat 32 (c.pc + 4)) false with pc := pc, blocked := false })) ∧
    (∀ (dst a : Fin 32), let pc := (c.s a).toNat % 65536
      pc % 4 = 0 → 0x800 ≤ pc → pc < f.imemSize t →
      exec (.jr t g dst a) s = .next (f.setCore t { c.setS dst (BitVec.ofNat 32 (c.pc + 4)) false with pc := pc, blocked := false })) ∧
    ((f.tile t).flight = [] → f.More t c → exec (.fenceEng t g) s = .next (f.setCore t (c.retire c))) ∧
    ((f.tile t).flight ≠ [] → exec (.fenceEng t g) s = .next (f.setCore t { c with blocked := true }))

/-- R204, R213, R269, R270 (08, 10). JEND completes when no engine operation is in flight, no misfit hold stands and every item of an open output has left the tile: the tile leaves the job, a CLOSE goes to the apply unit of every live erg die; otherwise it waits. -/
def Sys2Proof.Claims.JobEndLeavesTile : Prop :=
  ∀ (s : State) (t : Fin 512) (g : Issue) (c : Core), s.Issues t g c →
    let f := s.fetched t g c
    ((f.tile t).flight = [] → c.holds = [] → (∀ d ∈ c.desc.toList, d.state = .openOut → f.unsent t d.stream = false) →
      ∃ u, exec (.jend t g) s = .next u ∧ (u.tile t).core = none ∧ (u.tile t).abuf = (f.tile t).abuf ∧ (u.tile t).halves = (f.tile t).halves ∧
        (∀ n, n ≠ t.val → u.tile n = f.tile n) ∧
        (∀ k ∈ f.liveErgs, ∃ h ∈ u.net.hops, h.msg.src = .tile t ∧ h.msg.dest = .apply k ∧ h.msg.cls = 1 ∧ h.msg.item.body = leBytes 64 7) ∧
        (∀ j, f.job c.id = some j → ∃ j', u.job c.id = some j' ∧ t.val ∉ j'.running ∧ j'.stopped = j.stopped) ∧
        u.regs = f.regs ∧ u.resv = f.resv ∧ u.kept = f.kept) ∧
    ((f.tile t).flight ≠ [] ∨ c.holds ≠ [] → exec (.jend t g) s = .next (f.setCore t { c with blocked := true }))

/-- R206, R211 (08). An instruction whose guard is false has no effect of its own: the core moves to the next instruction, whatever operands, extents, descriptors or producers it names. Stated for an instruction of every format, of every engine and of every class of exception. It rests on the model's own readings in log 25. -/
def Obligations.FalseGuardSkips : Prop :=
  ∀ (s : State) (t : Fin 512) (g : Issue) (c : Core), (s.tile t).core = some c → c.wait = none → s.tileOn t = true → g.ecc = none →
    anyPoison ((s.tile t).half (s.bedHalf t c.bank)).imemPoison c.pc 4 = false → g.stray = false → g.pg ≠ 0 → c.p g.pg = g.pn → s.More t c →
    let skip (i : Instr) : Prop := exec i s = .next (s.setCore t (c.retire c))
    (∀ dst a b, skip (.add t g dst a b) ∧ skip (.div t g dst a b) ∧ skip (.adds t g dst a b)) ∧
    (∀ dst a i, skip (.addi t g dst a i)) ∧ (∀ dst i, skip (.lui t g dst i)) ∧ (∀ dst a b, skip (.cmpEq t g dst a b)) ∧
    (∀ link off, skip (.br t g link off)) ∧ (∀ dst a, skip (.jr t g dst a)) ∧ skip (.jend t g) ∧ skip (.fenceEng t g) ∧ skip (.nop t g) ∧
    (∀ dst xa off hits, skip (.ld t g dst xa off hits)) ∧ (∀ src xa off, skip (.st t g src xa off)) ∧
    (∀ dst a b, skip (.aset t g dst a b)) ∧ (∀ a, skip (.psel t g a)) ∧
    (∀ d a, skip (.dsetKind t g d a)) ∧ (∀ xb c', skip (.fld t g xb c')) ∧ (∀ xd xa xb c' hits, skip (.fmac t g xd xa xb c' hits)) ∧
    (∀ xd xa xb hits, skip (.fdrn t g xd xa xb hits)) ∧ (∀ dst a b, skip (.fadd t g dst a b)) ∧ (∀ vx xa c' hits, skip (.vld32 t g vx xa c' hits)) ∧
    (∀ vx xa c', skip (.vst32 t g vx xa c')) ∧ (∀ vx xa vb hits, skip (.vtab t g vx xa vb hits)) ∧
    (∀ xd xa xb c' hits, skip (.gather t g xd xa xb c' hits) ∧ skip (.scatter t g xd xa xb c' hits) ∧ skip (.scatterAcc t g xd xa xb c' hits)) ∧
    (∀ d, skip (.sopenIn t g d) ∧ skip (.sclose t g d) ∧ skip (.shzn t g d)) ∧ (∀ d a b, skip (.sput t g d a b)) ∧ (∀ d a b pd, skip (.sget t g d a b pd)) ∧
    (∀ k a b, skip (.cwait t g k a b)) ∧ (∀ k, skip (.cpost t g k)) ∧ (∀ a b pd, skip (.settleN t g a b pd) ∧ skip (.settleW t g a b pd)) ∧
    (∀ xa, skip (.act t g xa)) ∧ (∀ xa c', skip (.log t g xa c')) ∧ (∀ a, skip (.pwrIdleSoon t g a))

/-- R217 to R219, R572 (08, 21). What raising an exception does, and where some instructions raise one: the cause and the pc stand in TILE_EXC_CAUSE and TILE_EXC_PC, TILE_STS.EXC is set, the tile leaves its job and no other tile does, a record is made, and the job is marked. It rests on the model's own readings in log 25. -/
def Obligations.ExceptionsStopTheTile : Prop :=
  ∀ (s : State) (t : Fin 512) (g : Issue) (c : Core), s.Issues t g c → g.ecc = none →
    let raises (i : Instr) (cause : Nat) : Prop := ∃ u, exec i s = .next u ∧ (u.tile t).core = none ∧
      u.reg (tileBase t + 0x1C) = BitVec.ofNat 32 cause ∧ u.reg (tileBase t + 0x20) = BitVec.ofNat 32 (c.pc % 65536) ∧
      (u.reg (tileBase t + 0x0C)).getLsbD 5 = true ∧ (∀ n, n ≠ t.val → u.tile n = s.tile n) ∧ (u.tile t).abuf = (s.tile t).abuf ∧
      (u.tile t).flight = (s.tile t).flight ∧ u.resv = s.resv ∧ u.net = s.net ∧ u.logs.made.length = s.logs.made.length + 1 ∧
      (∀ j, s.job c.id = some j → ∃ j', u.job c.id = some j' ∧ j'.excepted = true ∧ j'.running = j.running) ∧ u.kept = s.kept
    (∀ (link : Fin 32) (off : BitVec 17), c.pc + 4 * off.toInt < 0x800 ∨ (s.imemSize t : Int) ≤ c.pc + 4 * off.toInt → raises (.br t g link off) 7) ∧
    (∀ (dst a : Fin 32), (c.s a).toNat % 4 ≠ 0 → raises (.jr t g dst a) 7) ∧
    (∀ (dst a b : Fin 32), dst.val % 2 = 1 ∨ dst = 0 → raises (.mulw t g dst a b) 1 ∧ raises (.mulwu t g dst a b) 1) ∧
    (∀ (dst a : Fin 32) (i : BitVec 12), i.extractLsb' 10 2 = 3 ∨ i.extractLsb' 5 5 ≠ 0 → raises (.shi t g dst a i) 1) ∧
    (∀ (dst : Fin 32) (cycles : Nat), c.profile = false → raises (.rdcyc t g dst cycles) 1 ∧ raises (.rdst t g dst) 1 ∧ raises (.rdstall t g dst cycles) 1) ∧
    (∀ (dst : Fin 32) (xa : Fin 16) (off : BitVec 13) (hits : List EccHit), (extentOf (c.a xa)).space = 1 ∨ (extentOf (c.a xa)).space = 3 →
      raises (.ld t g dst xa off hits) 2 ∧ raises (.st t g dst xa off) 2) ∧
    (∀ (d : Fin 16) (a : Fin 32), (c.d d).state ≠ .closed → raises (.dsetLoose t g d a) 6) ∧
    (∀ (d : Fin 16), (c.d d).state = .closed → raises (.sclose t g d) 6) ∧
    (∀ (a : Fin 32), c.count ((c.s a).toNat % 4096) = none → 16 ≤ c.emits.length → raises (.psel t g a) 8) ∧
    (s.imemSize t ≤ c.pc + 4 → raises (.nop t g) 7)

/-- R198, R236, R246 (08, 09). FSET writes the field that its selector names, at the field's width, and never raises an operand exception; DSET writes one field of a CLOSED descriptor; FLD leaves every value as it is. -/
def Obligations.FieldWrites : Prop :=
  ∀ (s : State) (t : Fin 512) (g : Issue) (c : Core), s.Issues t g c → (s.fetched t g c).More t c →
    let f := s.fetched t g c
    (∀ (sel a : Fin 32), sel.val ≤ 18 → ∃ k : Core, exec (.fset t g sel a) s = .next (f.setCore t (c.retire k)) ∧
      (let x := (c.s a).toNat
       k.facet = (match sel.val with
        | 0 => { c.facet with wfmt := x % 8 } | 1 => { c.facet with afmt := x % 8 } | 2 => { c.facet with ofmt := x % 8 }
        | 3 => { c.facet with wcb := x % 16 } | 4 => { c.facet with acb := x % 16 } | 5 => { c.facet with ocb := x % 16 }
        | 6 => { c.facet with azp := x % 256 } | 7 => { c.facet with ozp := x % 256 } | 8 => { c.facet with mode := x % 4 }
        | 9 => { c.facet with group := x % 4 } | 10 => { c.facet with sbase := x % 256 } | 11 => { c.facet with slot := x % 128 }
        | 12 => { c.facet with wide := x % 2 } | 13 => { c.facet with total := x % 2097152 } | 14 => { c.facet with nodeA := x % 1048576 }
        | 15 => { c.facet with nodeN := x % 8192 } | 16 => { c.facet with vecs := x % 64 } | 17 => { c.facet with dest := x % 4 }
        | _ => { c.facet with srcBase := x })) ∧
      k.sreg = c.sreg ∧ k.preg = c.preg ∧ k.areg = c.areg ∧ k.vx = c.vx ∧ k.desc = c.desc ∧ k.emits = c.emits ∧ k.counters = c.counters) ∧
    (∀ (d : Fin 16) (a b : Fin 32), (c.d d).state = .closed →
      let into (i : Instr) (e : Desc) : Prop := exec i s = .next (f.setCore t (c.retire (c.setD d e)))
      ((c.s a).toNat % 8 < 6 → into (.dsetKind t g d a) { c.d d with kind := (c.s a).toNat % 8 }) ∧
      into (.dsetLoose t g d a) { c.d d with loose := (c.s a).getLsbD 0 } ∧
      into (.dsetFmt t g d a) { c.d d with fmt := (c.s a).toNat % 8 } ∧
      into (.dsetSources t g d a) { c.d d with sources := (c.s a).toNat % 128 } ∧
      into (.dsetStream t g d a) { c.d d with stream := (c.s a).toNat % 65536 } ∧
      into (.dsetRing t g d a b) { c.d d with ring := c.s b ++ c.s a }) ∧
    (∀ (xb : Fin 16) (r : Fin 32), let b := extentOf (c.a xb)
      f.queueFull t 0 = false → b.space = 0 ∨ b.space = 2 → b.base + b.len ≤ f.spaceSize t b.space → b.base % 4 = 0 → b.len % 4 = 0 →
      ∃ u, exec (.fld t g xb r) s = .next u ∧ (u.tile t).core = some (c.retire c) ∧ (u.tile t).abuf = (f.tile t).abuf ∧
        (u.tile t).halves = (f.tile t).halves ∧ (u.tile t).plane = some (c.a xb, c.facet.nodeA, c.facet.nodeN) ∧
        (u.tile t).flight = (f.tile t).flight ++ [{ engine := 0, reads := [b], writes := [] }] ∧
        (∀ n, n ≠ t.val → u.tile n = f.tile n) ∧ u.resv = f.resv ∧ u.regs = f.regs ∧ u.net = f.net ∧ u.kept = f.kept)

/-- R127, R166, R169, R173, R234 to R237 (05, 06, 09). FMAC completes when its facet state and extents pass their checks, its queue has room, no held extent is written and its operands read clean. With DEST 0 it writes each vector's 64 quantised channel outputs and counts edge saturations, with DEST 1 each vector's partial node and identity, with DEST 2 it sends each vector's node under the next EMIT count. -/
def Sys2Proof.Claims.FacetMacResults : Prop :=
  ∀ (s : State) (t : Fin 512) (g : Issue) (c : Core) (xd xa xb : Fin 16) (r : Fin 32) (hits : List EccHit), s.Issues t g c → (s.fetched t g c).More t c →
    let f := s.fetched t g c
    let fc := c.facet
    let sc := (c.s r).toNat
    let a := extentOf (c.a xa)
    let w := extentOf (c.a xb)
    let d := extentOf (c.a xd)
    let writes := if fc.dest = 2 then [] else [d]
    let q := (f.applyHits t c [a, w] hits).modTile t fun x => { x with plane := none }
    let b := (q.tile t).half c.bank
    let mode := b.slotMode fc.slot
    let wb := q.load t c w.space w.base (fc.nodeN * planeBytes fc.wfmt)
    let acts (v : Nat) := chordValues b fc (q.load t c 0 (a.base + v * sc) (fc.nodeN * chordBytes fc.afmt))
    let vals (v : Nat) := (List.range 64).map (columnNode b fc (acts v) wb)
    let codes (v : Nat) := (List.range 64).map fun col => channelOut b fc col (nth 0 (vals v) col)
    let edges (n : Nat) := (List.range n).foldl (fun e v => e + ((codes v).filter (·.2)).length) 0
    f.facetCheck t c true xd xa xb sc = none → f.facetWaits t c writes = false → c.facetBad = false → c.aBad xa = false → c.aBad xb = false →
    c.aBad xd = false → c.sBad r = false → q.loadBad t c w.space w.base (fc.nodeN * planeBytes fc.wfmt) = false →
    (∀ v < fc.vecs, q.loadBad t c 0 (a.base + v * sc) (fc.nodeN * chordBytes fc.afmt) = false) →
    (fc.dest = 0 → exec (.fmac t g xd xa xb r hits) s = .next
      ((((List.range fc.vecs).foldl (fun u v => u.abWrite t (d.base + v * outBytes fc.ofmt) (packVals fc.ofmt ((codes v).map (·.1))) fun _ => false) q).fly
        t 0 [a, w] [d]).setCore t (c.retire ((c.countMisfit mode (edges fc.vecs)).hold mode [a, w])))) ∧
    (fc.dest = 1 → exec (.fmac t g xd xa xb r hits) s = .next
      ((((List.range fc.vecs).foldl (fun u v => u.abWrite t (d.base + v * 264) (leBytes 8 (identityWord fc.nodeA fc.nodeN) ++ valBytes (vals v)) fun _ => false) q).fly
        t 0 [a, w] [d]).setCore t (c.retire ((c.countMisfit mode 0).hold mode [a, w])))) ∧
    (fc.dest = 2 → (c.count c.prod).getD 0 + fc.vecs ≤ 65536 → ∃ u k, exec (.fmac t g xd xa xb r hits) s = .next u ∧ (u.tile t).core = some (c.retire k) ∧
      k.count c.prod = some ((c.count c.prod).getD 0 + fc.vecs) ∧ k.sreg = c.sreg ∧ k.areg = c.areg ∧ k.vx = c.vx ∧ k.facet = c.facet ∧
      u.net.hops.length = f.net.hops.length + fc.vecs ∧ (u.tile t).abuf = (q.tile t).abuf ∧ u.resv = q.resv ∧
      (∀ v < fc.vecs, ∃ h, u.net.hops[f.net.hops.length + v]? = some h ∧ h.msg.dest = ringDest (c.d xd).ring ∧ h.msg.stream = (c.d xd).stream ∧
        h.msg.item.key = mkKey c.id c.prod ((c.count c.prod).getD 0 + v) ∧ h.msg.item.nodeA = fc.nodeA ∧ h.msg.item.nodeN = fc.nodeN ∧
        h.msg.item.body = valBytes (vals v) ∧ h.msg.item.poison = false))

/-- R76, R78, R129, R165, R238 (03, 05, 09). FDRN with DEST 1 completes when its records read clean and each pair is the left and right children of one node: it writes their parents, element by element the binary32 sum with the group scale where the parent closes a group; a pair that fails the check stops the job with ORDER_SHAPE. -/
def Sys2Proof.Claims.FacetDrainResults : Prop :=
  ∀ (s : State) (t : Fin 512) (g : Issue) (c : Core) (xd xa xb : Fin 16) (hits : List EccHit), s.Issues t g c → (s.fetched t g c).More t c →
    let f := s.fetched t g c
    let fc := c.facet
    let a := extentOf (c.a xa)
    let b := extentOf (c.a xb)
    let d := extentOf (c.a xd)
    let q := f.applyHits t c [a, b] hits
    let bank := (q.tile t).half c.bank
    let mode := bank.slotMode fc.slot
    let pair (v : Nat) := combine bank fc false (q.readNode t c (a.base + v * 264)) (q.readNode t c (b.base + v * 264))
    fc.dest = 1 → f.facetCheck t c false xd xa xb 0 = none → f.facetWaits t c [d] = false → c.facetBad = false → c.aBad xa = false → c.aBad xb = false →
    c.aBad xd = false → q.loadBad t c 0 a.base (fc.vecs * 264) = false → q.loadBad t c 0 b.base (fc.vecs * 264) = false →
    (∀ y : Nat → NodeVal, (∀ v < fc.vecs, pair v = .inl (y v)) →
      exec (.fdrn t g xd xa xb hits) s = .next
        ((((List.range fc.vecs).foldl (fun u v => u.abWrite t (d.base + v * 264) (leBytes 8 (identityWord (y v).a (y v).n) ++ valBytes (y v).vals)
          fun i => if i < 8 then false else (y v).bad ((i - 8) / 4)) q).fly t 0 [a, b] [d]).setCore t (c.retire ((c.countMisfit mode 0).hold mode [a, b])))) ∧
    (∀ child, 0 < fc.vecs → pair 0 = .inr child → exec (.fdrn t g xd xa xb hits) s = .next (q.stopJob c.id 0x03 c.nextKey child t))

/-- R143 to R145, R242, R243 (05, 09). GATHER and SCATTER complete when their extents pass their checks, the queue has room, no held extent is written and what they read is clean: GATHER copies row index[j] of XA to row j of XD, SCATTER row j of XA to row index[j] of XD, in list order; an index beyond the table gathers zeros or is skipped, with GATHER_OOR, under ZERO, and stops the job under FAULT. -/
def Sys2Proof.Claims.RowCopyResults : Prop :=
  ∀ (s : State) (t : Fin 512) (g : Issue) (c : Core) (xd xa xb : Fin 16) (r : Fin 32) (hits : List EccHit), s.Issues t g c → (s.fetched t g c).More t c →
    let f := s.fetched t g c
    let d := extentOf (c.a xd)
    let a := extentOf (c.a xa)
    let b := extentOf (c.a xb)
    let rb := (c.s r).toNat % 2048
    let fault := (c.s r).getLsbD 11
    let q := f.applyHits t c [a, b] hits
    let index (rows : Nat) : List Nat := if b.len = 0 then List.range rows else (List.range (b.len / 4)).map fun j => ofLe (q.load t c 0 (b.base + 4 * j) 4)
    let copy (sp dp src dst : Nat) (u : State) : State := u.copyRow t c sp dp rb { src := some src, dst, bad := false }
    let zero (dst : Nat) (u : State) : State := (u.tileFlag t 7).copyRow t c 0 0 rb { src := none, dst, bad := false }
    f.queueFull t 2 = false → anyOverlap [d] c.held = false → 4 ≤ rb → rb ≤ 1024 → rb % 4 = 0 → anyOverlap [d, a, b] c.rings = false →
    (∀ x ∈ [d, a, b], x.base % 4 = 0 ∧ x.len % 4 = 0 ∧ x.base + x.len ≤ f.spaceSize t x.space) →
    q.loadBad t c a.space a.base a.len = false → q.loadBad t c 0 b.base b.len = false →
    c.aBad xd = false → c.aBad xa = false → c.aBad xb = false → c.sBad r = false → b.space = 0 →
    (a.space ≤ 2 → d.space = 0 → (index (a.len / rb)).length * rb ≤ d.len → fault = false ∨ (∀ i ∈ index (a.len / rb), i < a.len / rb) →
      (∀ j, j < b.len / 4 → q.loadBad t c 0 (b.base + 4 * j) 4 = false) →
      exec (.gather t g xd xa xb r hits) s = .next ((((index (a.len / rb)).zipIdx.foldl (fun u x =>
        if x.1 < a.len / rb then copy a.space 0 (a.base + x.1 * rb) (d.base + x.2 * rb) u else zero (d.base + x.2 * rb) u) q).fly t 2 [a, b] [d]).setCore t (c.retire c))) ∧
    (a.space = 0 → d.space ≤ 1 → (index (a.len / rb)).length * rb ≤ d.len → (index (a.len / rb)).length * rb ≤ a.len →
      fault = false ∨ (∀ i ∈ index (a.len / rb), i < d.len / rb) → (∀ j, j < b.len / 4 → q.loadBad t c 0 (b.base + 4 * j) 4 = false) →
      exec (.scatter t g xd xa xb r hits) s = .next ((((index (a.len / rb)).zipIdx.foldl (fun u x =>
        if x.1 < d.len / rb then copy 0 d.space (a.base + x.2 * rb) (d.base + x.1 * rb) u else u.tileFlag t 7) q).fly t 2 [a, b] [d]).setCore t (c.retire c)))

/-- R76, R143, R144, R146, R242, R244 (03, 05, 09). GATHER_CSR completes, under conditions as for GATHER, when no offset decreases or points beyond the list and the rows fit: first the neighbour counts, then the rows in list order. SCATTER_ACC completes with, in every row of XD, the chord tree over N_SRC positions of the contributions that name the row. -/
def Sys2Proof.Claims.GatherListResults : Prop :=
  ∀ (s : State) (t : Fin 512) (g : Issue) (c : Core) (xd xa xb : Fin 16) (r : Fin 32) (hits : List EccHit), s.Issues t g c → (s.fetched t g c).More t c →
    let f := s.fetched t g c
    let d := extentOf (c.a xd)
    let a := extentOf (c.a xa)
    let b := extentOf (c.a xb)
    let rb := (c.s r).toNat % 2048
    let fault := (c.s r).getLsbD 11
    let n := (c.s r).toNat / 4096
    let q := f.applyHits t c [a, b] hits
    let words : List Nat := (List.range (b.len / 4)).map fun j => ofLe (q.load t c 0 (b.base + 4 * j) 4)
    f.queueFull t 2 = false → anyOverlap [d] c.held = false → 4 ≤ rb → rb ≤ 1024 → rb % 4 = 0 → anyOverlap [d, a, b] c.rings = false →
    (∀ x ∈ [d, a, b], x.base % 4 = 0 ∧ x.len % 4 = 0 ∧ x.base + x.len ≤ f.spaceSize t x.space) →
    q.loadBad t c a.space a.base a.len = false → q.loadBad t c 0 b.base b.len = false →
    c.aBad xd = false → c.aBad xa = false → c.aBad xb = false → c.sBad r = false → b.space = 0 → d.space = 0 → 0 < b.len →
    (∀ j, j < b.len / 4 → q.loadBad t c 0 (b.base + 4 * j) 4 = false) →
    (let offs := words.take (n + 1)
     let list := words.drop (n + 1)
     let counts := (offs.zip offs.tail).map fun p => p.2 - p.1
     let named := (list.drop (offs.headD 0)).take counts.sum
     a.space ≤ 2 → 4 * (n + 1) ≤ b.len → 4 * n + named.length * rb ≤ d.len → (∀ p ∈ offs.zip offs.tail, p.1 ≤ p.2 ∧ p.2 ≤ list.length) →
     fault = false ∨ (∀ i ∈ named, i < a.len / rb) →
      exec (.gatherCsr t g xd xa xb r hits) s = .next (((named.zipIdx.foldl (fun (u : State) x =>
        if x.1 < a.len / rb then u.copyRow t c a.space 0 rb { src := some (a.base + x.1 * rb), dst := d.base + 4 * n + x.2 * rb, bad := false }
        else (u.tileFlag t 7).copyRow t c a.space 0 rb { src := none, dst := d.base + 4 * n + x.2 * rb, bad := false })
        (q.abWrite t d.base (counts.flatMap fun x => leBytes 4 x) fun _ => false)).fly t 2 [a, b] [d]).setCore t (c.retire c))) ∧
    (let rows := d.len / rb
     let sent (row : Nat) : List (Nat × Nat) := words.zipIdx.filter fun x => decide (x.1 = row)
     let word (j e : Nat) : Word := BitVec.ofNat 32 (ofLe (q.load t c 0 (a.base + j * rb + 4 * e) 4))
     let sum (row e : Nat) : Word := (accTree 64 ((sent row).map fun x => (c.facet.srcBase + x.2, word x.2 e)) 0 c.facet.total).getD 0
     let late := words.filter fun i => decide (rows ≤ i)
     a.space = 0 → words.length * rb ≤ a.len → c.facet.srcBase + words.length ≤ 16 * c.facet.total → c.facetBad = false →
     fault = false ∨ late = [] → (∀ j e, j < words.length → e < rb / 4 → q.loadBad t c 0 (a.base + j * rb + 4 * e) 4 = false) →
      ∃ bad : Nat → Bool, (∀ i, i < rows * rb → bad i = false) ∧ exec (.scatterAcc t g xd xa xb r hits) s = .next ((((late.foldl (fun u _ => u.tileFlag t 7) q).abWrite t d.base
        ((List.range rows).flatMap fun row => (List.range (rb / 4)).flatMap fun e => leBytes 4 (sum row e).toNat) bad).fly t 2 [a, b] [d]).setCore t (c.retire c)))

/-- R73, R139, R197, R199, R245 to R250 (03, 05, 08, 09). The stream instructions complete: SOPEN opens a CLOSED descriptor, SPUT sends the extent as one item under the next EMIT count, SHZN a horizon, SCLOSE closes; SGET and SGETNB take the next item of the job on an internal stream into the activation buffer, with its length in s[b] and 1 in the predicate; SPOLL counts the items released. It rests on the model's own readings in log 33 and log 34. -/
def Obligations.StreamResults : Prop :=
  ∀ (s : State) (t : Fin 512) (g : Issue) (c : Core) (d : Fin 16), s.Issues t g c → (s.fetched t g c).More t c →
    let f := s.fetched t g c
    let e := c.d d
    let ring := extentOf e.ring
    (f.openCheck t c e = none → f.portAbsent (f.serving (t.val / 128)) e.kind e.stream = false →
      ∃ u, exec (.sopenIn t g d) s = .next u ∧ (u.tile t).core = some (c.retire (c.setD d { e with state := .openIn, credit := ring.len / 64 })) ∧
        (e.kind = 0 → ((u.tile t).port 0 e.stream).sources = e.sources ∧ ((u.tile t).port 0 e.stream).released = ((f.tile t).port 0 e.stream).released) ∧
        (u.tile t).abuf = (f.tile t).abuf ∧ (∀ n, n ≠ t.val → u.tile n = f.tile n) ∧ u.net = f.net ∧ u.regs = f.regs ∧ u.kept = f.kept) ∧
    (f.openCheck t c e = none → f.portAbsent (f.serving (t.val / 128)) e.kind e.stream = true →
      exec (.sopenIn t g d) s = .next (f.setCore t (c.retire (c.setD d { e with state := .absent })))) ∧
    (∀ credit, e.state = .closed → e.kind = 0 →
      exec (.sopenOut t g d credit) s = .next (f.setCore t (c.retire (c.setD d { e with state := .openOut, credit := credit, used := [] })))) ∧
    (e.state = .absent → exec (.sclose t g d) s = .next (f.setCore t (c.retire (c.setD d { e with state := .closed, credit := 0 })))) ∧
    (e.state = .openOut → f.unsent t e.stream = false → ∃ u, exec (.sclose t g d) s = .next u ∧
      (u.tile t).core = some (c.retire (c.setD d { e with state := .closed, credit := 0 })) ∧
      (∃ h ∈ u.net.hops, h.msg.horizon = true ∧ h.msg.dest = ringDest e.ring ∧ h.msg.stream = e.stream ∧ h.msg.item.key = BitVec.ofNat 96 (lastKey c.id))) ∧
    (e.state = .openOut → c.noRoom c.prod = false → exec (.shzn t g d) s = .next
      ((f.inject (c.horizonMsg t e c.prod c.nextKey)).setCore t (c.retire (c.setCount c.prod ((c.count c.prod).getD 0))))) ∧
    (∀ a b : Fin 32, let x : Extent := { space := 0, base := (c.s a).toNat, len := (c.s b).toNat }
      e.state = .openOut → 4 ≤ x.len → x.len ≤ 2048 → x.len % 4 = 0 → x.base % 4 = 0 → x.base + x.len ≤ 0x40000 → anyOverlap [x] c.rings = false →
      c.noRoom c.prod = false → c.spent = false → f.queueFull t 3 = false → f.loadBad t c 0 x.base x.len = false →
      ∃ u k h, exec (.sput t g d a b) s = .next u ∧ (u.tile t).core = some (c.retire k) ∧ k.count c.prod = some ((c.count c.prod).getD 0 + 1) ∧
        k.sreg = c.sreg ∧ k.preg = c.preg ∧ k.areg = c.areg ∧ u.net.hops = f.net.hops ++ [h] ∧ h.msg.dest = ringDest e.ring ∧ h.msg.cls = 2 ∧
        h.msg.stream = e.stream ∧ h.msg.item.key = c.nextKey ∧ h.msg.item.body.take x.len = (f.tile t).abuf.bytes x.base x.len ∧
        h.msg.item.body.length = roundUp x.len 64 ∧ (u.tile t).abuf = (f.tile t).abuf ∧ u.resv = f.resv ∧ u.regs = f.regs ∧ u.kept = f.kept) ∧
    (∀ (a b : Fin 32) (pd : Fin 8) (i : Item) (rest : List Item), let x : Extent := { space := 0, base := (c.s a).toNat, len := (c.s b).toNat }
      e.state = .openIn → e.kind = 0 → x.base % 4 = 0 → x.base + x.len ≤ 0x40000 → anyOverlap [x] c.rings = false →
      anyOverlap [x] (c.held ++ (f.tile t).reads ++ (f.tile t).writes) = false →
      ((f.tile t).port 0 e.stream).released = i :: rest → ofJob c.id i.key = true → i.copy.length ≤ x.len → i.poison = false →
      let got (n : Instr) : Prop := ∃ u, exec n s = .next u ∧
        (u.tile t).core = some (c.retire (((c.setD d { e with last := some i.key }).setP pd true false).setS b (BitVec.ofNat 32 i.copy.length) false)) ∧
        ((u.tile t).port 0 e.stream).released = rest ∧ (∀ m, x.base + i.copy.length ≤ m ∨ m < x.base → (u.tile t).abuf.byte m = (f.tile t).abuf.byte m) ∧
        (∀ m, m < i.copy.length → (u.tile t).abuf.byte (x.base + m) = i.copy.getD m 0) ∧ u.voidOf c.id = (if (f.job c.id).isSome then f.voidOf c.id ||| i.void else 0) ∧
        (∀ n, n ≠ t.val → u.tile n = f.tile n) ∧ u.net = f.net ∧ u.resv = f.resv ∧ u.regs = f.regs ∧ u.kept = f.kept
      got (.sget t g d a b pd) ∧ (c.profile = true → got (.sgetnb t g pd d a b))) ∧
    (∀ dst : Fin 32, c.profile = true → e.state = .openIn →
      exec (.spoll t g dst d) s = .next (f.setCore t (c.retire (c.setS dst (BitVec.ofNat 32 ((f.tile t).port e.kind e.stream).released.length) false))))

/-- R178, R184, R251, R252, R257, R258, R268 (07, 09, 10). The cairn instructions send one message to the apply unit of the cairn's die under the next EMIT count of the current producer; CPOST, CADD, CADDS and CFENCE complete, CWAIT and the settles of an armed slot send and then wait for the reply, a narrow settle of an OFF slot completes at once with count 0 and predicate 0. -/
def Sys2Proof.Claims.CairnInstructionResults : Prop :=
  ∀ (s : State) (t : Fin 512) (g : Issue) (c : Core), s.Issues t g c → (s.fetched t g c).More t c → c.noRoom c.prod = false → c.spent = false →
    let f := s.fetched t g c
    let sent (i : Instr) (n opc operand : Nat) (bad : Bool) (contrib : Nat) (rerun : Bool) (thr : Nat) (k : Core) (more : State → State) : Prop :=
      exec i s = .next ((more (f.inject { src := .tile t, dest := .apply (n / 65536), cls := 1, admitted := c.admitted, horizon := false, prod := c.prod, stream := 0, item := { key := c.nextKey, void := f.voidOf c.id, poison := bad, body := cairnBody opc n operand contrib rerun thr } })).setCore t k)
    let n (r : Fin 16) : Nat := (c.s ⟨r.val, by omega⟩).toNat % 262144
    let nb (r : Fin 16) : Bool := c.sBad ⟨r.val, by omega⟩
    let fly (u : State) : State := u.fly t 4 [] []
    (∀ (r : Fin 16) (a b : Fin 32), n r < 65536 * f.fuses.ergCount → f.ergLive (n r / 65536) = true →
      (f.queueFull t 4 = false →
        sent (.cpost t g r) (n r) 1 1 (nb r) 0 false 0 (c.retire c.emitted) fly ∧
        sent (.cadd t g r a) (n r) 1 (c.s a).toNat (c.sBad a || nb r) 0 false 0 (c.retire c.emitted) fly ∧
        sent (.cadds t g r a) (n r) 2 (c.s a).toNat (c.sBad a || nb r) 0 false 0 (c.retire c.emitted) fly ∧
        sent (.cfence t g r) (n r) 3 0 (nb r) 0 false 0 (c.retire c.emitted) fly) ∧
      sent (.cwait t g r a b) (n r) 4 (c.s b).toNat (c.sBad b || nb r) 0 false 0
        { c.emitted with wait := some { die := n r / 65536, key := c.nextKey, kind := 0, sreg := a.val, preg := 0, slot := 0 }, blocked := true } id) ∧
    (∀ (a b : Fin 32) (pd : Fin 8), let slot := (c.s a).toNat
      let k := (f.tile t).half c.bank
      let count := mget (fun _ => 0) c.counters slot
      let m := k.slotNum slot 12 4
      let away (kind die : Nat) : Core := { c.emitted with counters := mdel c.counters slot, blocked := true, wait := some { die, key := c.nextKey, kind, sreg := b.val, preg := pd.val, slot } }
      slot < 64 →
      (k.slotMode slot = 0 → exec (.settleN t g a b pd) s = .next (f.setCore t (c.retire ((c.setS b 0 false).setP pd false false)))) ∧
      (k.slotMode slot = 1 ∨ k.slotMode slot = 2 → m < 65536 * f.fuses.ergCount → f.ergLive (m / 65536) = true →
        sent (.settleN t g a b pd) m 5 count (c.sBad a) (k.slotNum slot 8 2) (decide (k.slotMode slot = 2)) (k.slotNum slot 4 4) (away 1 (m / 65536)) id) ∧
      (2 ≤ k.slotMode slot → m + 1 < 65536 * f.fuses.ergCount → f.ergLive ((m + 1) / 65536) = true →
        sent (.settleW t g a b pd) (m + 1) 6 count (c.sBad a) (k.slotNum slot 8 2) false 0 (away 2 ((m + 1) / 65536)) id))

/-- R199, R225, R245, R254 to R256, R571 (08, 09, 21). ACT and LOG send a clean extent to the actuation unit or the log writer under the next EMIT count; in profile mode RDCYC, RDST and RDSTALL complete with the count or station time; a PWR hint only changes what waits in the power control. -/
def Sys2Proof.Claims.EmitAndProfileResults : Prop :=
  ∀ (s : State) (t : Fin 512) (g : Issue) (c : Core), s.Issues t g c → (s.fetched t g c).More t c →
    let f := s.fetched t g c
    (∀ (xa : Fin 16) (r : Fin 32), let x := extentOf (c.a xa)
      x.space = 0 → x.base % 4 = 0 → x.len % 4 = 0 → x.base + x.len ≤ 0x40000 → c.noRoom c.prod = false → c.spent = false → f.queueFull t 3 = false →
      f.loadBad t c 0 x.base x.len = false →
      let sent (i : Instr) (dest : Place) (bad : Bool) (body : List Byte) : Prop := exec i s = .next
        (((f.inject { src := .tile t, dest, cls := 0, admitted := c.admitted, horizon := false, prod := c.prod, stream := 0, item := { key := c.nextKey, void := f.voidOf c.id, poison := bad, body } }).fly t 3 [x] []).setCore t (c.retire c.emitted))
      let bytes := (f.tile t).abuf.bytes x.base x.len
      (x.len = 48 → sent (.act t g xa) (.mesa (match f.job c.id with | some j => j.die | none => f.serving (t.val / 128)) 1) (c.aBad xa) bytes) ∧
      (16 ≤ x.len → x.len ≤ 256 → 0x40 ≤ (c.s r).toNat % 256 → (c.s r).toNat % 256 ≤ 0x7F →
        sent (.log t g xa r) (.mesa (f.serving (t.val / 128)) 2) (c.aBad xa || c.sBad r)
          ([BitVec.ofNat 8 ((c.s r).toNat % 256), (if f.time.replay then 1 else 0), BitVec.ofNat 8 (f.voidOf c.id), 0] ++ leBytes 12 c.nextKey.toNat ++ bytes))) ∧
    (c.profile = true → ∀ (dst : Fin 32) (cycles : Nat),
      exec (.rdstall t g dst cycles) s = .next (f.setCore t (c.retire (c.setS dst (BitVec.ofNat 32 cycles) false))) ∧
      (∀ dst' : Fin 32, dst'.val = dst.val + 1 →
        exec (.rdcyc t g dst cycles) s = .next (f.setCore t (c.retire ((c.setS dst (BitVec.ofNat 32 cycles) false).setS dst' (BitVec.ofNat 32 (cycles / 4294967296)) false))) ∧
        exec (.rdst t g dst) s = .next (f.setCore t (c.retire ((c.setS dst (BitVec.ofNat 32 f.time.now) false).setS dst' (BitVec.ofNat 32 (f.time.now / 4294967296)) false))))) ∧
    (∀ a : Fin 32, exec (.pwrNoChange t g a) s = .next (f.setCore t (c.retire c)) ∧
      (∃ u, exec (.pwrIdleSoon t g a) s = .next u ∧ (u.tile t).core = some (c.retire c) ∧ (∀ n, n ≠ t.val → u.tile n = f.tile n) ∧ u.resv = f.resv ∧
        u.net = f.net ∧ u.regs = f.regs ∧ u.jobs = f.jobs ∧ u.kept = f.kept) ∧
      (∃ u, exec (.pwrBusySoon t g a) s = .next u ∧ (u.tile t).core = some (c.retire c) ∧ (∀ n, n ≠ t.val → u.tile n = f.tile n) ∧ u.resv = f.resv ∧
        u.net = f.net ∧ u.regs = f.regs ∧ u.jobs = f.jobs ∧ u.kept = f.kept))

/-- R588, R592, R593, R600 (22). POWER_ON, RESET_N_ASSERT, RST_CTL_COLD and VDD_KEEP_LOSS leave the cold-reset state, in the phase and with the cause of each, and keep what is not volatile; RESET_N_RELEASE starts bring-up or the boundary-scan mode. -/
def Sys2Proof.Claims.ColdResetClears : Prop :=
  ∀ s : State,
    (s.unit.phase = .unpowered → ∃ u, exec .powerOn s = .next u ∧ s.Cleared u .inReset 0) ∧
    (s.unit.phase ≠ .unpowered → exec .powerOn s = .next s) ∧
    (∀ us, 10 ≤ us → s.coldOk = true → ∃ u, exec (.resetNAssert us) s = .next u ∧ s.Cleared u .inReset 1) ∧
    (∀ us, us < 10 → exec (.resetNAssert us) s = .next s) ∧
    (∀ scan, s.unit.phase = .inReset → exec (.resetNRelease scan) s = .next { s with unit := { s.unit with phase := if scan then .bscan else .bringUp } }) ∧
    (∀ scan, s.unit.phase ≠ .inReset → exec (.resetNRelease scan) s = .next s) ∧
    (s.unit.phase = .running → ∃ u, exec (.rstCtlCold 0xA5) s = .next u ∧ s.Cleared u .bringUp 2) ∧
    (∀ key, key ≠ 0xA5 → exec (.rstCtlCold key) s = .next s) ∧
    (∃ u, exec .vddKeepLoss s = .next u ∧ s.Cleared u .unpowered 0)

/-- R50, R51, R593, R606, R608 (02, 22). COLD_RESET_END: a unit is live if it is fitted and neither it nor the die that carries it failed bring-up (log 46); addresses run on over the other stacks; the newest shutdown record is shown, MESA_SHDN_STS.UNCLEAN is set unless that record is CLEAN, and a RUNNING record goes into the slot that does not hold the newest one. A module whose mesa die 0 failed stays in bring-up. -/
def Sys2Proof.Claims.BringUpEnds : Prop :=
  ∀ (s : State) (failed : List Nat) (dead : List (Fin 512)),
    (s.unit.phase = .bringUp → 12 ∉ failed → ∃ u, exec (.coldResetEnd failed dead) s = .next u ∧ u.unit.phase = .running ∧
      (∀ b, b < 32 → u.live.getLsbD b = (s.fuses.allLive.getLsbD b && !(s.failedAt failed).contains b)) ∧
      (∀ t : Fin 512, u.tileLive.getLsbD t.val = (decide (t.val < 128 * s.fuses.ergCount) && !dead.contains t)) ∧
      u.unit.shown = s.unit.newest ∧
      (u.reg 0x9010 = if (∃ r, s.unit.newest = some r ∧ r.state = 3) then s.reg 0x9010 else s.reg 0x9010 ||| oneBit 8) ∧
      (∃ r, r.state = 1 ∧ r.live = u.live ∧ r.faultRef = s.logs.faultRef ∧ r.seq = (match s.unit.newest with | some old => (old.seq + 1) % 2 ^ 32 | none => 1) ∧
        ((u.unit.slotA = some r ∧ u.unit.slotB = s.unit.slotB) ∨ (u.unit.slotB = some r ∧ u.unit.slotA = s.unit.slotA)) ∧
        (∀ old, s.unit.newest = some old → u.unit.slotA = some old ∨ u.unit.slotB = some old)) ∧
      u.kept.otp = s.kept.otp ∧ u.kept.rollback = s.kept.rollback ∧ u.kept.debugFuse = s.kept.debugFuse ∧ u.kept.pending = s.kept.pending ∧ u.kept.fuses = s.kept.fuses ∧
      u.chips = s.chips ∧ u.resv.mem = s.resv.mem ∧ (∀ n, n ∈ u.resv.missing ↔ n < s.fuses.stackCount ∧ 4 + n ∈ s.failedAt failed) ∧ u.unit.flashA = s.unit.flashA ∧ u.unit.flashB = s.unit.flashB) ∧
    (s.unit.phase ≠ .bringUp ∨ 12 ∈ failed → exec (.coldResetEnd failed dead) s = .next s)

/-- R595 to R598 (22). FIRMWARE_START starts the valid copy of the higher VERSION, copy A first of equal ones; with none, boot has failed. RECOVER starts a valid image of the recovery window, and only after a failed boot; ROLLBACK_COMMIT raises the rollback count to the running version, never lowers it, and changes nothing else. It rests on the model's own readings in log 55 and log 67. -/
def Obligations.FirmwareResults : Prop :=
  ∀ s : State,
    let a := s.unit.flashA
    let b := s.unit.flashB
    (s.unit.phase = .running → s.unit.fwRunning = false → s.unit.bootFailed = false →
      (s.fwValid a = true → (s.fwValid b = true → fwVersionOf b ≤ fwVersionOf a) → ∃ u, exec .firmwareStart s = .next u ∧
        u.unit = { s.unit with fwCopy := 0, fwRunning := true, bootFailed := false, fwVersion := fwVersionOf a }) ∧
      (s.fwValid b = true → (s.fwValid a = true → fwVersionOf a < fwVersionOf b) → ∃ u, exec .firmwareStart s = .next u ∧
        u.unit = { s.unit with fwCopy := 1, fwRunning := true, bootFailed := false, fwVersion := fwVersionOf b }) ∧
      (s.fwValid a = false → s.fwValid b = false → ∃ u, exec .firmwareStart s = .next u ∧ u.unit = { s.unit with bootFailed := true }) ∧
      (∃ u, exec .firmwareStart s = .next u ∧ { u with unit := s.unit, regs := s.regs } = s ∧
        (∀ x, x ≠ 0x9010 → u.reg x = s.reg x) ∧ (u.reg 0x9010 &&& ~~~0x600 = s.reg 0x9010 &&& ~~~0x600))) ∧
    (s.unit.phase ≠ .running ∨ s.unit.fwRunning = true ∨ s.unit.bootFailed = true → exec .firmwareStart s = .next s) ∧
    (s.unit.bootFailed = true → s.fwValid s.windowBytes = true → exec .recover s =
      .next { s with unit := { s.unit with fwCopy := 2, fwRunning := true, bootFailed := false, fwVersion := fwVersionOf s.windowBytes } }) ∧
    (s.unit.bootFailed = false ∨ s.fwValid s.windowBytes = false → exec .recover s = .next s) ∧
    (∃ u, exec .rollbackCommit s = .next u ∧ s.unit.rollback ≤ u.unit.rollback ∧
      (s.unit.fwRunning = true → u.unit.rollback = max s.unit.rollback (min 64 (s.unit.fwVersion / 2 ^ 16))) ∧
      (s.unit.fwRunning = false → u.unit.rollback = s.unit.rollback) ∧ { u with unit := { u.unit with rollback := s.unit.rollback } } = s)

/-- R595, R599, R601 (22). The three key requests. One that does not verify answers BAD_SIG, one that names no slot of its KIND or a slot in the wrong state SLOT, a revocation of the only valid firmware slot LAST_KEY; any other changes exactly its slot, or the debug fuse and the lock, and answers 0. It rests on the model's own readings in log 67. -/
def Obligations.KeyRequestResults : Prop :=
  ∀ (s : State) (r : List Byte),
    let done (u : State) (result : Nat) := { u with unit := { u.unit with otpResult := result } }
    (s.otpBadSig 1 r = true → exec (.otpProgram r) s = .next (done s 1)) ∧
    (s.otpBadSig 2 r = true → exec (.otpRevoke r) s = .next (done s 1)) ∧
    (s.otpBadSig 3 r = true → exec (.otpDisableDebug r) s = .next (done s 1)) ∧
    (s.otpBadSig 1 r = false → (∀ n, otpIndex (byteAt r 5) (byteAt r 6) = some n → (s.key n).state ≠ .empty) → exec (.otpProgram r) s = .next (done s 2)) ∧
    (s.otpBadSig 2 r = false → (∀ n, otpIndex (byteAt r 5) (byteAt r 6) = some n → (s.key n).good = false) → exec (.otpRevoke r) s = .next (done s 2)) ∧
    (∀ n, s.otpBadSig 1 r = false → otpIndex (byteAt r 5) (byteAt r 6) = some n → (s.key n).state = .empty →
      ∃ u, exec (.otpProgram r) s = .next (done u 0) ∧ u.key n = { state := .valid, x := ofBe ((r.drop 16).take 32), y := ofBe ((r.drop 48).take 32) } ∧
        (∀ m, m ≠ n → u.key m = s.key m) ∧ { u with unit := { u.unit with otp := s.unit.otp } } = s) ∧
    (∀ n, s.otpBadSig 2 r = false → otpIndex (byteAt r 5) (byteAt r 6) = some n → (s.key n).good = true →
      (byteAt r 5 = 1 → (∀ m, m < 4 → (s.key (8 + m)).good = true → 8 + m = n) → exec (.otpRevoke r) s = .next (done s 3)) ∧
      ((byteAt r 5 ≠ 1 ∨ ∃ m, m < 4 ∧ 8 + m ≠ n ∧ (s.key (8 + m)).good = true) → ∃ u, exec (.otpRevoke r) s = .next (done u 0) ∧
        u.key n = { s.key n with state := .revoked } ∧ (∀ m, m ≠ n → u.key m = s.key m) ∧ { u with unit := { u.unit with otp := s.unit.otp } } = s)) ∧
    (s.otpBadSig 3 r = false → exec (.otpDisableDebug r) s = .next { s with unit := { s.unit with debugFuse := true, unlocked := false, scope := 0, otpResult := 0 } })

/-- R600 (22). The boundary-scan instructions. The identification register holds the version, part number 0x0094 and bit 0 set; in boundary-scan mode SAMPLE/PRELOAD and EXTEST capture the balls and load the boundary register, and EXTEST and CLAMP drive them; outside it those, CLAMP and HIGHZ act as BYPASS, whose one bit delays TDI by one. Each touches the port alone. -/
def Sys2Proof.Claims.JtagResults : Prop :=
  ∀ (s : State), s.unit.phase ≠ .unpowered →
    let port (x : ResetUnit) := { s with unit := x }
    let bypass (tdi : List Bool) := port { s.unit with ir := .bypass, tdo := packBits ((false :: tdi).take tdi.length), pinsDriven := false, highZ := false }
    (∀ tdi, exec (.jtagBypass tdi) s = .next (bypass tdi)) ∧
    exec .jtagIdcode s = .next (port { s.unit with ir := .idcode, pinsDriven := false, highZ := false, tdo := leBytes 4 (s.fuses.series * 2 ^ 28 + 0x0094 * 2 ^ 12 + Config.idcode.toNat * 2 + 1) }) ∧
    (s.unit.phase = .bscan → ∀ pins load,
      exec (.jtagSamplePreload pins load) s = .next (port { s.unit with ir := .sample, tdo := packBits pins, boundary := load, pinsDriven := false, highZ := false }) ∧
      exec (.jtagExtest pins load) s = .next (port { s.unit with ir := .extest, tdo := packBits pins, boundary := load, pinsDriven := true, highZ := false }) ∧
      exec .jtagClamp s = .next (port { s.unit with ir := .clamp, tdo := [], pinsDriven := true, highZ := false }) ∧
      exec .jtagHighz s = .next (port { s.unit with ir := .highz, tdo := [], pinsDriven := false, highZ := true })) ∧
    (s.unit.phase ≠ .bscan → ∀ pins load, exec (.jtagSamplePreload pins load) s = .next (bypass load) ∧ exec (.jtagExtest pins load) s = .next (bypass load) ∧
      exec .jtagClamp s = .next (bypass []) ∧ exec .jtagHighz s = .next (bypass []))

/-- R601, R602 (22). DBG_CHAL gives a challenge that the next response uses up; a response that verifies unlocks debug with its SCOPE, unless the debug fuse is blown; the third failure exhausts the attempts, after which both act as BYPASS; RELOCK ends access, and an access outside the SCOPE acts as BYPASS. The nonce is free (log 42). -/
def Sys2Proof.Claims.DebugResults : Prop :=
  ∀ (s : State) (r : List Byte), s.unit.phase ≠ .unpowered → s.unit.phase ≠ .bscan →
    let bypass := { s with unit := { s.unit with ir := .bypass, tdo := [], pinsDriven := false, highZ := false } }
    (s.unit.exhausted = false → ∃ c, exec .dbgChal s = .next { s with unit := { s.unit with ir := .dbgChal, tdo := c, challenge := some c, nonces := s.unit.nonces + 1 } } ∧
      c.length = 48 ∧ c.drop 32 = leBytes 8 s.fuses.serial ++ leBytes 8 0) ∧
    (s.unit.exhausted = true → exec .dbgChal s = .next bypass ∧ exec (.dbgResp r) s = .next bypass) ∧
    (s.unit.exhausted = false → s.responseOk r = true → s.unit.debugFuse = false → ∃ u, exec (.dbgResp r) s = .next u ∧
      u.unit = { s.unit with ir := .dbgResp, challenge := none, unlocked := true, scope := leAt r 0 4 } ∧ u.reg 0x9040 = s.reg 0x9040 ||| oneBit 16 ∧
      (∀ a, a ≠ 0x9040 → u.reg a = s.reg a) ∧ { u with unit := s.unit, regs := s.regs } = s) ∧
    (s.unit.exhausted = false → s.responseOk r = true → s.unit.debugFuse = true →
      exec (.dbgResp r) s = .next { s with unit := { s.unit with ir := .dbgResp, challenge := none } }) ∧
    (s.unit.exhausted = false → s.responseOk r = false → exec (.dbgResp r) s = .next { s with unit := { s.unit with ir := .dbgResp, challenge := none, failed := s.unit.failed + 1, exhausted := decide (3 ≤ s.unit.failed + 1) } }) ∧
    exec .relock s = .next { s with unit := { s.unit with unlocked := false, scope := 0 } } ∧
    (∀ op t, s.unit.unlocked = false ∨ s.unit.scope.testBit op.scope = false → exec (.dbgAccess op t) s = .next (bypass.at t)) ∧
    (∀ t, s.unit.unlocked = true → s.unit.scope.testBit 0 = true →
      (∃ u, exec (.dbgAccess .haltCore t) s = .next u ∧ u = { s.at t with unit := { s.unit with ir := .dbgAccess, tdo := [], coreHalted := true } }) ∧
      (∃ u, exec (.dbgAccess .resumeCore t) s = .next u ∧ u = { s.at t with unit := { s.unit with ir := .dbgAccess, tdo := [], coreHalted := false } })) ∧
    (∀ t addr, s.unit.unlocked = true → s.unit.scope.testBit 1 = true →
      exec (.dbgAccess (.readReservoir addr) t) s = .next { s.at t with unit := { s.unit with ir := .dbgAccess, tdo := [s.resv.mem.byte addr] } })

/-- R332, R590 (17, 22). A warm reset, asked for by pin, watchdog or register, waits while a slip is ARMING or ARMED and then takes place; each deferral sets WARM_DEFERRED. Once the power-down sequence has started, a request is ignored. -/
def Obligations.WarmResetWaits : Prop :=
  ∀ s : State,
    let asked (u : State) (cause : Nat) := u.unit = { s.unit with warmPending := some (s.unit.warmPending.getD cause) } ∧
      u.reg 0x9004 = (if s.slip.st = .arming ∨ s.slip.st = .armed then s.reg 0x9004 ||| oneBit 8 else s.reg 0x9004) ∧
      (∀ a, a ≠ 0x9004 → u.reg a = s.reg a) ∧ { u with unit := s.unit, regs := s.regs } = s
    (s.unit.phase = .running →
      (∀ us, 10 ≤ us → ∃ u, exec (.warmRstNAssert us) s = .next u ∧ asked u 3) ∧
      (s.unit.fwRunning = true → ∃ u, exec .watchdogExpiry s = .next u ∧ asked u 5) ∧
      (∃ u, exec (.rstCtlWarm 0xA5) s = .next u ∧ asked u 4) ∧
      (∀ cause, s.unit.warmPending = some cause → s.slip.st = .arming ∨ s.slip.st = .armed → exec .warmReset s = .next s) ∧
      (∀ cause, s.unit.warmPending = some cause → s.slip.st ≠ .arming → s.slip.st ≠ .armed → ∃ u, exec .warmReset s = .next u ∧ u.unit.lastCause = cause ∧ u.unit.warmPending = none ∧ u.unit.fwRunning = false ∧ u.slip = {})) ∧
    (s.unit.phase ≠ .running → (∀ us, exec (.warmRstNAssert us) s = .next s) ∧ exec .watchdogExpiry s = .next s ∧ (∀ key, exec (.rstCtlWarm key) s = .next s) ∧
      exec .warmReset s = .next s)

/-- R588, R589 (22). A warm reset keeps the reservoir, the fuses' storage, the chips, the shutdown area and the configuration space, counts, and resets the rest; a request by a short pulse or without its key is none. -/
def Sys2Proof.Claims.WarmResetResults : Prop :=
  ∀ s : State,
    (s.unit.phase = .running →
      (∀ cause, s.unit.warmPending = some cause → s.slip.st ≠ .arming → s.slip.st ≠ .armed → ∃ u, exec .warmReset s = .next u ∧
        u.unit.phase = .running ∧ u.unit.lastCause = cause ∧ u.unit.warmCount = min 0xFFFF (s.unit.warmCount + 1) ∧ u.unit.warmPending = none ∧
        u.unit.fwRunning = false ∧ u.unit.unlocked = false ∧ u.unit.failed = s.unit.failed ∧ u.unit.exhausted = s.unit.exhausted ∧
        u.kept = s.kept ∧ u.resv = s.resv ∧ u.chips = s.chips ∧ u.unit.slotA = s.unit.slotA ∧ u.unit.slotB = s.unit.slotB ∧
        u.logs.store = s.logs.store ∧ u.logs.faultRef = s.logs.faultRef ∧ u.logs.safe = s.logs.safe ∧ u.link.msixTable = s.link.msixTable ∧ u.link.busMaster = s.link.busMaster ∧
        u.time = {} ∧ u.slip = {} ∧ u.jobs = [] ∧ u.tiles = [] ∧ u.crest = [] ∧ u.lee = [] ∧ u.loader = {} ∧ u.net = {} ∧ u.cycles = [] ∧ u.staged = [])) ∧
    (s.unit.warmPending = none → exec .warmReset s = .next s) ∧
    (∀ us, us < 10 → exec (.warmRstNAssert us) s = .next s) ∧ (∀ key, key ≠ 0xA5 → exec (.rstCtlWarm key) s = .next s)

/-- R604 to R607 (22). RST_CTL.SHUTDOWN with its key, PWR_FAIL_N and a rail that collapses start the power-down sequence or stop it; each command of the sequence completes one step, the last of which sets SHDN_DONE. It rests on the model's own readings in log 8 and log 66. -/
def Obligations.PowerDownResults : Prop :=
  ∀ (s : State) (t : Time),
    let v := s.at t
    let m := (List.range 4).foldl (fun m c => if (s.port c).attached then m + 2 ^ c else m) 0
    let started (cause rails : Nat) := { v.unit with phase := .powerDown, cause := cause, step := 0, stStart := v.time.now, rails := rails, attachedAtStart := m }
    (s.unit.phase = .running →
      exec (.rstCtlShutdown 0xA5 t) s = .next { v with unit := started 1 0 } ∧
      (∀ us, 1 ≤ us → exec (.pwrFailNFall us t) s = .next { v with unit := started 2 16 }) ∧
      (∀ rail, rail < 4 → ∃ u, exec (.railCollapse rail t) s = .next u ∧ u.unit.phase = .waiting ∧ u.unit.rails = 2 ^ rail ∧ u.unit.cause = 5 ∧
        (∃ r, (u.unit.slotA = some r ∨ u.unit.slotB = some r) ∧ r.state = 4 ∧ r.cause = 5 ∧ r.rails = 2 ^ rail ∧ r.stWrite = v.time.now) ∧
        { u with unit := v.unit } = v)) ∧
    (∀ key, key ≠ 0xA5 → exec (.rstCtlShutdown key t) s = .next v) ∧
    exec (.pwrFailNFall 0 t) s = .next v ∧
    (s.unit.phase ≠ .running → s.unit.phase ≠ .powerDown → ∀ rail, exec (.railCollapse rail t) s = .next v ∧ exec (.rstCtlShutdown 0xA5 t) s = .next v) ∧
    (s.unit.phase ≠ .powerDown → exec (.powerDownStart t) s = .next v) ∧
    (s.unit.phase = .powerDown → ∃ u, exec (.powerDownStart t) s = .next u ∧ u.unit.step = min 7 (s.unit.step + 1) ∧ u.kept = s.kept ∧
      (s.unit.step = 0 → ∃ r, (u.unit.slotA = some r ∨ u.unit.slotB = some r) ∧ r.state = 2 ∧ r.cause = s.unit.cause) ∧
      (s.unit.step = 1 → u.jobs = [] ∧ u.cycles = [] ∧ u.tiles = [] ∧ u.regs = s.regs ∧ u.logs = s.logs ∧ u.resv = s.resv) ∧
      (s.unit.step = 2 → ∀ d, d < 8 → u.power.fOn.toList.getD d false = false) ∧
      (s.unit.step = 3 → ∀ p : Fin 4, (s.port p).attached = true → v.replaying = false → ∃ f ∈ (u.port p).queue, f.bytes = regBytes true (((s.port p).nextTag + 1) % 256) 0x010 2) ∧
      (s.unit.step = 4 → ∀ p : Fin 4, (u.port p).attached = false ∧ (u.port p).up = false) ∧
      (s.unit.step = 5 → ∃ r, (u.unit.slotA = some r ∨ u.unit.slotB = some r) ∧ r.state = 3) ∧
      (6 ≤ s.unit.step → u.unit.phase = .waiting ∧ u.unit.shdnDone = true))

/-- R538, R591, R603 (20, 22). MESA_RST_DOMAIN passes an idle row domain through A3 and is refused, with DOMAIN_REFUSED, for a domain that is none, that a reservation covers or that may not enter A3, or while a slip is under way; DFL_HOLD takes every DFL link down, and its end alone brings none up. -/
def Sys2Proof.Claims.DomainAndHoldResults : Prop :=
  ∀ (s : State) (t : Time),
    let v := s.at t
    (∀ value : Word, (isRowDom (value.toNat % 128) = false ∨
        (v.ergLive (domDie (value.toNat % 128)) = true ∧ (v.slip.st ≠ .idle ∨ (v.row (value.toNat % 128)).noA3 = true))) →
      exec (.rstDomainWrite value t) s = .next (v.setFlag 0x9004 9)) ∧
    (∀ value : Word, let d := value.toNat % 128
      isRowDom d = true → v.ergLive (domDie d) = true → (∀ j ∈ v.jobs, j.reserved = false) → v.slip.st = .idle → (v.row d).noA3 = false →
      ∃ u, exec (.rstDomainWrite value t) s = .next u ∧ u.kept = s.kept ∧ u.regs = s.regs ∧ (∀ n, n < 512 → rowDom n ≠ d → u.tile n = s.tile n) ∧
        (v.rowQuiet d = false → u = v.setRow d { v.row d with passage := true })) ∧
    exec (.dflHoldSet t) s = .next ((List.range 4).foldl (fun (w : State) p => if (w.port p).up then w.linkDown p w.time.now 0 else w) (v.setReg 0x9018 1)) ∧
    ((∀ p, p < 4 → (s.port p).up = false) → exec (.dflHoldSet t) s = .next (v.setReg 0x9018 1)) ∧
    exec .dflHoldClear s = .next (s.setReg 0x9018 0)

/-- R13, R14, R16 (00). A 32-bit write to a word of BAR0 lands by the type of each field: an RW bit takes the written bit, a W1C bit is cleared by a written 1, any other bit stays; an RWL bit takes the written bit in lee, and crest stays. Stated for words whose write has no further effect. -/
def Sys2Proof.Claims.RegisterWriteByFieldType : Prop :=
  ∀ (s : State) (v : Word) (t : Time), s.regsUp = true →
    (∀ a ∈ [0x40, 0x80, 0x204, 0x1000, 0x1008, 0x4014, 0x5000, 0x5030, 0x9004, 0x9010, 0x9040], ∃ u, exec (.registerWrite .bar0 a 4 (v.setWidth 64) t) s = .next u ∧
      (∀ b, b < 32 → (u.reg a).getLsbD b =
        if (regInfo a).rw.getLsbD b then v.getLsbD b else if (regInfo a).w1c.getLsbD b then (s.reg a).getLsbD b && !v.getLsbD b else (s.reg a).getLsbD b) ∧
      (∀ x, x ≠ a → u.reg x = s.reg x) ∧ { u with regs := s.regs, latch := s.latch } = s.at t) ∧
    (∀ a ∈ [0x1080, 0x1100, 0x1104, 0x5040], s.leeShut = false → s.leeBusy (leeDie a) = false → ∃ u, exec (.registerWrite .bar0 a 4 (v.setWidth 64) t) s = .next u ∧
      (∀ b, b < 32 → (u.leeWord a).getLsbD b = if (regInfo a).rwl.getLsbD b then v.getLsbD b else (s.leeWord a).getLsbD b) ∧
      (∀ x, u.crestWord x = s.crestWord x ∧ u.reg x = s.reg x) ∧ (∀ x, x ≠ a → u.leeWord x = s.leeWord x)) ∧
    (∀ a ∈ [0x1080, 0x1100, 0x1104, 0x5040], s.leeShut = true → ∃ u, exec (.registerWrite .bar0 a 4 (v.setWidth 64) t) s = .next u ∧ u.lee = s.lee ∧ u.crest = s.crest)

/-- R10, R15, R53, R54, R382 (00, 02, 15). An access that a BAR does not take is discarded and sets BAD_ACCESS, one beyond the map has no effect, and one to a unit that is absent or out of service writes nothing, sets that group's bit of MESA_CAP_ABSENT_STS and is counted. No register answers before bring-up has ended. -/
def Sys2Proof.Claims.AccessesThatLandNowhere : Prop :=
  ∀ (s : State) (off : Nat) (v : DWord) (t : Time),
    let absent (u : State) (g : Nat) := u.reg 0x40 = s.reg 0x40 ||| oneBit g ∧ u.reg 0x44 = BitVec.ofNat 32 (min 0xFFFFFFFF ((s.reg 0x44).toNat + 1)) ∧
      (∀ x, x ≠ 0x40 → x ≠ 0x44 → u.reg x = s.reg x) ∧ { u with regs := s.regs, latch := s.latch, logs := s.logs, link := s.link } = s.at t ∧
      (u.logs.made.length = s.logs.made.length + if (s.reg 0x40).getLsbD g then 0 else 1)
    (s.regsUp = false → ∀ space size, exec (.registerWrite space off size v t) s = .next (s.at t)) ∧
    (s.regsUp = true → ∀ size, size ≠ 4 ∨ off % 4 ≠ 0 → exec (.registerWrite .bar0 off size v t) s = .next ((s.at t).hpFlag 0)) ∧
    (s.regsUp = true → 2 ^ 24 ≤ off → off % 4 = 0 → exec (.registerWrite .bar0 off 4 v t) s = .next (s.at t)) ∧
    (s.regsUp = true → ∀ g, g < 13 → off < 2 ^ 24 → off % 4 = 0 → s.absentGroup (normalOff off) = some g →
      ∃ u, exec (.registerWrite .bar0 off 4 v t) s = .next u ∧ absent u g) ∧
    (∀ g w, g < 13 → s.absentGroup (normalOff off) = some g → ∃ u, exec (.absentUnitAccess off w t) s = .next u ∧ absent u g ∧ u.latch = s.latch) ∧
    (∀ w, s.absentGroup (normalOff off) = none → exec (.absentUnitAccess off w t) s = .next (s.at t))

/-- R11, R12 (00). A read of the low word of a 64-bit register latches the high word for the read that follows, whatever happens to the register between; a write of the low word waits, and takes effect together with the write of the high word. It rests on the model's own readings in log 10. -/
def Obligations.RegisterPairs : Prop :=
  ∀ (s : State), s.regsUp = true →
    (∀ off, isLow64 off = true → s.absentGroup (normalOff off) = none → ∃ u, exec (.lowWordReadLatch off) s = .next u ∧ { u with latch := s.latch } = s ∧
      ∀ w : State, w.latch = u.latch → w.readHigh (off + 4) = s.readWord (off + 4)) ∧
    (∀ off, isLow64 off = false → exec (.lowWordReadLatch off) s = .next s) ∧
    (∀ n ∈ [0x208, 0x210, 0x4028, 0x5060, 0x9030], ∀ low high t,
      (∃ u, exec (.lowWordStage n low) s = .next u ∧ mget (fun _ => 0) u.staged n = low ∧ (∀ x, u.reg x = s.reg x) ∧ { u with staged := s.staged, latch := s.latch } = s ∧
        ∃ w, exec (.highWordCommit (n + 4) high t) u = .next w ∧ w.reg n = mergeMask (regInfo n).rw (s.reg n) low ∧
          w.reg (n + 4) = mergeMask (regInfo (n + 4)).rw (s.reg (n + 4)) high ∧ (∀ x, x ≠ n → x ≠ n + 4 → w.reg x = s.reg x) ∧
          (∀ d, mget (fun _ => d) w.staged n = d) ∧ { w with regs := s.regs, staged := s.staged, latch := s.latch } = s.at t) ∧
      ((∀ d, mget (fun _ => d) s.staged n = d) → ∃ w, exec (.highWordCommit (n + 4) high t) s = .next w ∧ w.reg n = s.reg n ∧
        w.reg (n + 4) = mergeMask (regInfo (n + 4)).rw (s.reg (n + 4)) high ∧ (∀ x, x ≠ n + 4 → w.reg x = s.reg x)))

/-- R380, R385, R386 (15). A host-link reset clears the configuration space and HP1, disables every HP2 queue, discards and counts what is unfinished toward the host, sets LINK_RESET, and touches nothing else; D3hot is entered and left by command; the staging size is written only while HP1 is idle and no queue is enabled, and is at most 4096 MiB. -/
def Sys2Proof.Claims.HostLinkResults : Prop :=
  ∀ (s : State) (t : Time),
    (∀ flr, ∃ u, exec (.hostLinkReset flr) s = .next u ∧ u.link.memSpace = false ∧ u.link.busMaster = false ∧ u.link.d3hot = false ∧ u.link.msixEn = false ∧
      u.link.msixTable = [] ∧ u.link.msixPending = [] ∧ u.link.hp1Busy = none ∧ u.link.done = [] ∧ u.link.writes = s.link.writes ∧
      (∀ q, u.queue q = {}) ∧ (∀ k, k < 27 → u.reg (0x3100 + 4 * k) = 0) ∧ (u.reg 0x3004).getLsbD 4 = true ∧ (s.reg 0x3010).toNat ≤ (u.reg 0x3010).toNat ∧
      (∀ x, x < 0x3000 ∨ 0x316C ≤ x → u.reg x = s.reg x) ∧ { u with link := s.link, regs := s.regs, submits := s.submits } = s) ∧
    (∀ d3, exec (.powerStateChange d3 t) s = .next { s.at t with link := { s.link with d3hot := d3 } }) ∧
    (∀ value : Word, s.link.hp1Busy = none → (∀ q, (s.queue q).enabled = false) →
      exec (.stageConfigWrite value) s = .next (s.setReg 0x300C (BitVec.ofNat 32 (min 4096 (value.toNat % 8192))))) ∧
    (∀ value : Word, s.link.hp1Busy ≠ none ∨ (∃ q, (s.queue q).enabled = true) → exec (.stageConfigWrite value) s = .next (s.hpFlag 1))

/-- R389, R391 to R393, R398 (15). An entry that a doorbell of HP1 or a fetch of HP2 takes in completes at once with status 2 for a command the queue does not take, 9 for one the replay mode does not, 3 for a bad field; else it waits for its turn, an admin command in the executor's list. A doorbell of HP1 while it is busy or disabled sets REJECTED. -/
def Sys2Proof.Claims.HostEntriesDispatched : Prop :=
  ∀ (s : State) (t : Time),
    let v := s.at t
    let begins (i : Instr) (c : HpCmd) : Prop := ∃ u, exec i s = .next u ∧ u.kept = s.kept ∧ u.resv = s.resv ∧ u.jobs = s.jobs ∧ u.net = s.net ∧
      let opc := byteAt c.bytes 0
      let mode := (opc = 2 ∧ v.replaying = true) ∨ (opc = 7 ∧ v.replaying = false)
      let completes (status : Nat) : Prop := (∃ d ∈ u.link.done, d.cmd = c ∧ d.status = status) ∧ u.link.fetched = s.link.fetched ∧ u.link.admin = s.link.admin
      (opcAccepted c.queue opc = false → completes 2) ∧
      (opcAccepted c.queue opc = true → mode → completes 9) ∧
      (opcAccepted c.queue opc = true → ¬ mode → v.fieldsOk c = false → completes 3) ∧
      (opcAccepted c.queue opc = true → ¬ mode → v.fieldsOk c = true → v.namesAbsent c = none →
        (∀ b ∈ s.link.busy, ∀ r ∈ c.ranges, stageMeets r.1 r.2 b.off b.len = false) → u.link.done = s.link.done ∧
        (if 3 ≤ opc ∧ opc ≤ 6 then u.link.admin = s.link.admin ++ [c] ∧ u.link.fetched = s.link.fetched
         else u.link.fetched = s.link.fetched ++ [c] ∧ u.link.admin = s.link.admin))
    (∀ value : Word, value.getLsbD 0 = true → s.unit.fwRunning = true → (s.reg 0x3000).getLsbD 0 = true → s.link.hp1Busy = none →
      begins (.hp1Doorbell value t) { queue := 255, stamp := hostStamp (groupTime v.time.now s.link.lastTime0) 0, job := 0, bytes := (List.range 16).flatMap fun k => leBytes 4 (s.reg (0x3100 + 4 * k)).toNat }) ∧
    (∀ value : Word, value.getLsbD 0 = true → s.unit.fwRunning = false ∨ (s.reg 0x3000).getLsbD 0 = false ∨ s.link.hp1Busy ≠ none →
      exec (.hp1Doorbell value t) s = .next (v.setFlag 0x3164 2)) ∧
    (∀ (q : Fin 8) (bs : List Byte) (st : Stamp) (job i : Nat) (rest : List (Stamp × Nat × Nat)), s.dmaOk = true → (s.queue q).stopped = false →
      (s.queue q).unfetched = (st, job, i) :: rest → begins (.sqEntryFetch q (some bs) t) { queue := q, stamp := st, job := job, bytes := padTo 64 bs }) ∧
    (∀ (q : Fin 8), s.dmaOk = true → (s.queue q).stopped = false → (s.queue q).unfetched ≠ [] → ∃ u, exec (.sqEntryFetch q none t) s = .next u ∧
      (u.queue q).stopped = true ∧ (u.queue q).err = 3 ∧ (u.queue q).unfetched = [] ∧ (∀ p : Fin 8, p ≠ q → u.queue p = s.queue p) ∧ u.kept = s.kept)

/-- R394 to R397 (15). Enabling a queue sets its pointers to 0 and its phase to 1; disabling it ends stamping and keeps what is stamped; an SQ tail doorbell makes entries visible, which are stamped in groups of at most 16 that leave room in the CQ, in the order of the SQ and under one stamp; a CQ head doorbell frees slots; a doorbell in error changes nothing but the queue's error code and QUEUE_ERR. -/
def Sys2Proof.Claims.QueueResults : Prop :=
  ∀ (s : State) (q : Fin 8) (t : Time),
    let x := s.queue q
    let only (u : State) (y : HpQueue) := u.queue q = y ∧ (∀ p : Fin 8, p ≠ q → u.queue p = s.queue p) ∧ u.regs = s.regs ∧ u.kept = s.kept
    (x.enabled = false → ∃ u, exec (.queueEnable q) s = .next u ∧
      only u { x with enabled := true, active := true, sqHead := 0, sqTail := 0, cqHead := 0, cqTail := 0, cqUsed := 0, phase := true, err := 0, stopped := false, held := 0 }) ∧
    (x.enabled = true → exec (.queueEnable q) s = .next s) ∧
    (∃ u, exec (.queueDisable q) s = .next u ∧ only u { x with enabled := false, held := 0, active := decide (x.open_ ≠ 0) }) ∧
    (let n := s.groupSize q
     (n ≤ 16 ∧ n ≤ x.held ∧ n ≤ s.cqSize q - x.cqUsed - x.open_) ∧
     (0 < n → x.enabled = true → x.stopped = false → ∃ u, exec (.hp2GroupStamp q t) s = .next u ∧
      ∃ tm new, u.link.lastTime1 = some tm ∧ (s.at t).time.now / 2 ≤ tm ∧ (∀ l, s.link.lastTime1 = some l → l < tm) ∧
        only u { x with held := x.held - n, unfetched := x.unfetched ++ new, open_ := x.open_ + n } ∧ new.length = n ∧
        (∀ k, k < n → ∃ i, new[k]? = some (hostStamp tm 1, k, i))) ∧
     (n = 0 ∨ x.enabled = false ∨ x.stopped = true → exec (.hp2GroupStamp q t) s = .next (s.at t))) ∧
    (∀ value : Word, let tail := value.toNat % 4096
      (s.unit.fwRunning = true → s.doorbellErr q = 0 → tail < s.sqSize q → exec (.sqTailDoorbell q value t) s = exec (.hp2GroupStamp q t)
        (s.setQueue q { x with sqTail := tail, held := x.held + (tail + s.sqSize q - x.sqTail) % s.sqSize q })) ∧
      (s.unit.fwRunning = true → s.doorbellErr q = 0 → s.sqSize q ≤ tail → exec (.sqTailDoorbell q value t) s = .next (((s.at t).setQueue q { x with err := 1 }).hpFlag 1)) ∧
      (s.unit.fwRunning = true → s.doorbellErr q ≠ 0 → exec (.sqTailDoorbell q value t) s = .next (((s.at t).setQueue q { x with err := s.doorbellErr q }).hpFlag 1) ∧
        exec (.cqHeadDoorbell q value) s = .next ((s.setQueue q { x with err := s.doorbellErr q }).hpFlag 1)) ∧
      (let n := (tail + s.cqSize q - x.cqHead) % s.cqSize q
       s.unit.fwRunning = true → s.doorbellErr q = 0 → tail < s.cqSize q → n ≤ x.cqUsed → ∃ u, exec (.cqHeadDoorbell q value) s = .next u ∧ only u { x with cqHead := tail, cqUsed := x.cqUsed - n }) ∧
      (s.unit.fwRunning = false → exec (.cqHeadDoorbell q value) s = .next (s.hpFlag 1) ∧ exec (.sqTailDoorbell q value t) s = .next ((s.at t).hpFlag 1)))

/-- R387, R389, R390, R392, R396, R398, R399 (15). What each command of the host does when its turn comes, in the order of keys: NOP completes; a STAGE_IN starts its read, and its bytes land in the staging area or it completes with status 8; a SUBMIT_JOB asks for admission; the executor takes one admin command at a time; a copy of a job's output is written to host memory; a completion goes to HP1's registers or to the tail of its CQ. It rests on the model's own readings in log 12. -/
def Obligations.HostCommandResults : Prop :=
  ∀ (s : State) (t : Time) (c : HpCmd),
    let v := s.at t
    let link (f : HostLink) := { v with link := f }
    (s.nextCmd 0 = some c → c.queue ≠ 256 → ∃ u, exec (.hpNop t) s = .next u ∧ u.link.fetched = s.link.fetched.erase c ∧
      u.link.done = s.link.done ++ [{ cmd := c, status := 0, detail := 0, result := 0 }] ∧ { u with link := s.link } = v) ∧
    (s.nextCmd 1 = some c → exec (.stageIn t) s = .next (link { s.link with fetched := s.link.fetched.erase c, staging := s.link.staging ++ [c] })) ∧
    (s.nextCmd 2 = some c → exec (.submitJob t) s = .next { link { s.link with fetched := s.link.fetched.erase c } with submits := s.submits ++ [c] }) ∧
    (s.nextCmd 0 = none → exec (.hpNop t) s = .next v) ∧ (s.nextCmd 1 = none → exec (.stageIn t) s = .next v) ∧ (s.nextCmd 2 = none → exec (.submitJob t) s = .next v) ∧
    (∀ rest, s.dmaOk = true → s.link.staging = c :: rest → c.queue ≠ 256 →
      (∀ bs, ∃ u, exec (.stageInComplete (some bs) t) s = .next u ∧ u.link.staging = rest ∧
        u.link.done = s.link.done ++ [{ cmd := c, status := 0, detail := 0, result := 0 }] ∧ u.regs = s.regs ∧
        u.resv = (s.resvWrite (s.stageBase + leAt c.bytes 0x10 8) (padTo (leAt c.bytes 0x18 4) bs) clean 0).resv ∧ { u with link := s.link, resv := s.resv } = v) ∧
      (∃ u, exec (.stageInComplete none t) s = .next u ∧ u.link.staging = rest ∧
        u.link.done = s.link.done ++ [{ cmd := c, status := 8, detail := 0, result := 0 }] ∧ u.resv = s.resv ∧ { u with link := s.link, regs := s.regs } = v)) ∧
    (s.link.adminNow = none → (sortBy (fun c : HpCmd => c.key.toNat) s.link.admin).head? = some c →
      exec .adminCommandNext s = .next { s with link := { s.link with adminNow := some c, admin := s.link.admin.erase c } }) ∧
    (s.link.adminNow ≠ none → exec .adminCommandNext s = .next s) ∧
    (∀ a n, s.dmaOk = true → s.link.copies.find? (fun c => decide (c.2.2.2 = 1)) = some (c, a, n, 1) → c.queue ≠ 256 →
      (∃ u, exec (.outputCopyComplete true t) s = .next u ∧ u.link.writes = s.link.writes ++ [(leAt c.bytes 0x28 8, s.resv.mem.bytes a n)] ∧
        u.link.done = s.link.done ++ [{ cmd := c, status := (s.hostResult c.id).1, detail := (s.hostResult c.id).2, result := n }] ∧ { u with link := s.link } = v) ∧
      (∃ u, exec (.outputCopyComplete false t) s = .next u ∧ u.link.writes = s.link.writes ∧
        u.link.done = s.link.done ++ [{ cmd := c, status := 8, detail := (s.hostResult c.id).2, result := 0 }] ∧ { u with link := s.link, regs := s.regs } = v)) ∧
    (∀ d, s.link.done.find? (fun d => s.postable d) = some d → ∃ u, exec (.completionPost t) s = .next u ∧ u.link.done = s.link.done.erase d ∧ u.kept = s.kept ∧
      (d.cmd.queue = 255 → u.link.hp1Busy = none ∧ (u.reg 0x3164).getLsbD 1 = true ∧ u.link.writes = s.link.writes ∧
        (∀ k, k < 8 → u.reg (0x3140 + 4 * k) = BitVec.ofNat 32 (leAt (d.entry false 0) (4 * k) 4))) ∧
      (d.cmd.queue < 8 → u.link.writes = s.link.writes ++ [(s.cqBase d.cmd.queue + 32 * (s.queue d.cmd.queue).cqTail, d.entry (s.queue d.cmd.queue).phase (s.queue d.cmd.queue).sqHead)] ∧
        (u.queue d.cmd.queue).cqUsed = (s.queue d.cmd.queue).cqUsed + 1 ∧ (u.queue d.cmd.queue).cqTail = ((s.queue d.cmd.queue).cqTail + 1) % s.cqSize d.cmd.queue)) ∧
    ((∀ d ∈ s.link.done, s.postable d = false) → exec (.completionPost t) s = .next v)

/-- R45, R66, R404 to R406 (02, 03, 15). Station time is held until it is started: by START with SOURCE FREE, or by the first accepted Sync, whose Epoch is the master's second; it then runs forward only. The servo locks after eight Syncs within 500 ns, leaves LOCKED on one outside, and goes to HOLDOVER when Syncs stop; the frequency correction stays within 250 ppm, and its value is free (log 52). It rests on the model's own readings in log 54. -/
def Obligations.TimeAndServoResults : Prop :=
  ∀ (s : State) (t : Time),
    let held := s.time.runs = false
    let free := (s.reg 0x4010).getLsbD 1
    (∀ w : Time, (s.at w).time.running = s.time.running ∧ s.time.now ≤ (s.at w).time.now ∧ (s.time.running = false → s.at w = s)) ∧
    (held → free = true → s.time.replay = false → exec .timeStart s = .next { s with time := { s.time with
      now := pairVal (s.reg 0x4028) (s.reg 0x402C), servo := .stopped, epoch := pairVal (s.reg 0x4008) (s.reg 0x400C), goodSyncs := 0, running := true } }) ∧
    (¬ held ∨ free = false → exec .timeStart s = .next s) ∧
    (∀ value : Word, value.getLsbD 4 = true → s.fuses.series = 1 → exec (.timeConfigChange value) s = .next (s.absentAccess 12)) ∧
    (∀ value : Word, (value.getLsbD 4 = false ∨ s.fuses.series ≠ 1) → ∃ u, exec (.timeConfigChange value) s = .next u ∧
      u.reg 0x4010 = value &&& 0x0FFFFFFE ∧ (∀ x, x ≠ 0x4010 → x ≠ 0x4014 → u.reg x = s.reg x) ∧ u.time.now = s.time.now ∧
      (s.time.servo = .stopped → u.time = s.time) ∧ (value.toNat / 4 % 2 ^ 14 = (s.reg 0x4010).toNat / 4 % 2 ^ 14 → u.time = s.time) ∧
      (s.time.servo ≠ .stopped → value.toNat / 4 % 2 ^ 14 ≠ (s.reg 0x4010).toNat / 4 % 2 ^ 14 → u.time.servo = .acquiring)) ∧
    (free = false → s.slaveUp = true → s.time.replay = false → ∀ master : Int,
      (held → let ptp := master + s.time.pathDelay
        let set := pairVal (s.reg 0x4008) (s.reg 0x400C)
        let epoch := if set = 0 then ptp.toNat / 1000000000 * 1000000000 else set
        (epoch : Int) ≤ ptp → ∃ u, exec (.ptpSync master t) s = .next u ∧ u.time.running = true ∧ u.time.servo = .acquiring ∧ u.time.now = ptp.toNat - epoch ∧
          u.time.epoch = epoch ∧ (∀ x, x ≠ 0x4008 → x ≠ 0x400C → u.reg x = s.reg x) ∧ u.kept = s.kept) ∧
      (¬ held → let offset := master + s.time.pathDelay - s.time.epoch - (max s.time.now t : Nat)
        ∃ u, exec (.ptpSync master t) s = .next u ∧ u.time.offset = offset ∧ -250000 ≤ u.time.freq ∧ u.time.freq ≤ 250000 ∧ u.time.now = max s.time.now t ∧
          u.time.goodSyncs = (if offset.natAbs ≤ 500 then s.time.goodSyncs + 1 else 0) ∧
          (offset.natAbs ≤ 500 → 7 ≤ s.time.goodSyncs → u.time.servo = .locked) ∧ (500 < offset.natAbs → s.time.servo = .locked → u.time.servo = .acquiring) ∧
          (s.time.servo ≠ .locked → s.time.goodSyncs < 7 → u.time.servo = s.time.servo) ∧
          (100000 < offset → s.time.step = none → offset.toNat ≤ (s.reg 0x4020).toNat → ∃ r, u.time.step = some (offset.toNat, r, false)) ∧
          (offset ≤ 100000 → u.time.slew = offset ∧ u.time.step = s.time.step)) ∧
      (∃ u, exec (.ptpDelayResponse master) s = .next u ∧ u = { s with time := { s.time with pathDelay := master } })) ∧
    (free = true ∨ s.slaveUp = false → ∀ master, exec (.ptpSync master t) s = .next s ∧ exec (.ptpDelayResponse master) s = .next s) ∧
    (free = false → ¬ held → s.time.servo ≠ .stopped → ∃ u, exec (.ptpSyncTimeout t) s = .next u ∧ u.time.servo = .holdover ∧ u.time.freq = s.time.freq ∧ u.kept = s.kept)

/-- R405 (15). The port follows the master whose data set compares best, field by field; a boundary clock sends its Sync on every other enabled port, only on a die of revision B and only while station time runs. -/
def Sys2Proof.Claims.PtpMasterResults : Prop :=
  ∀ (s : State) (t : Time), s.time.runs = true → (s.reg 0x4010).getLsbD 1 = false →
    (s.slaveUp = true → ∀ m : List Nat,
      (∀ old, s.time.master = some old → betterMaster m old = false → ∃ u, exec (.ptpAnnounceReceive m t) s = .next u ∧ u.time.master = some old ∧ { u with time := s.time } = s) ∧
      ((∀ old, s.time.master = some old → betterMaster m old = true) → ∃ u, exec (.ptpAnnounceReceive m t) s = .next u ∧ u.time.master = some m ∧
        u.time.lastAnnounce = u.time.clock ∧ { u with time := s.time } = s)) ∧
    (∀ (die : Fin 2) (port : Fin 4), let n := 4 * die.val + port.val
      let serves := (s.reg 0x4010).getLsbD 4 = true ∧ s.fuses.series ≠ 1 ∧ n ≠ (s.reg 0x4010).toNat / 32 % 8 ∧ s.mesaLive die = true ∧ s.ethEn die port = true ∧
        (s.reg (ethBase die port)).getLsbD 3 = true ∧ s.ingress[die].ethUp[port] = true
      let sent (u : State) := match u.time.syncsSent.find? fun e => decide (e.1 = n) with | some e => e.2 | none => 0
      ∃ u, exec (.ptpMasterSyncSend die port t) s = .next u ∧ { u with time := s.time } = s ∧ (serves → sent u = sent s + 1) ∧ (¬ serves → sent u = sent s))

/-- R66, R67, R407 (03, 15). Station time goes back by no command. A TIME_STEP back is refused with a record, one larger than MESA_TIME_STEP_MAX with STEP_REFUSED, a step of 0 is done at once; a step is applied within 10 ms at an instant with no admitted reservation current, and refused after; at the limits of TIME the warning and the stop are made. -/
def Sys2Proof.Claims.TimeStepResults : Prop :=
  ∀ (s : State) (t : Time), s.time.runs = true → s.time.replay = false →
    let now := max s.time.now t
    (∀ c, s.link.adminNow = some c → byteAt c.bytes 0 = 6 → s.time.step = none → c.queue ≠ 256 →
      (∃ u, exec (.timeStep t) s = .next u ∧ u.time.now = now ∧ u.kept = s.kept ∧
        (c.stepBy = 0 → u.link.adminNow = none ∧ u.time.step = none ∧ ∃ d ∈ u.link.done, d.cmd = c ∧ d.status = 0) ∧
        (c.stepBy < 0 → u.link.adminNow = none ∧ u.time.step = none ∧ u.logs.made.length = s.logs.made.length + 1 ∧ ∃ d ∈ u.link.done, d.cmd = c ∧ d.status = 4) ∧
        (0 < c.stepBy → c.stepBy ≤ (s.reg 0x4020).toNat → u.time.step = some (c.stepBy.toNat, now, true) ∧ u.link.adminNow = some c ∧ u.link.stepCmd = some c) ∧
        ((s.reg 0x4020).toNat < c.stepBy → u.link.adminNow = none ∧ u.time.step = none ∧ u.time.slew = c.stepBy ∧ (u.reg 0x4014).getLsbD 4 = true ∧
          ∃ d ∈ u.link.done, d.cmd = c ∧ d.status = 4))) ∧
    (∀ n req cmd, s.time.step = some (n, req, cmd) →
      (now ≤ req + 10000000 → (∀ j ∈ s.jobs, j.reserved = true → now < j.start ∨ j.end_ ≤ now) → ∃ u, exec (.timeStepApply t) s = .next u ∧
        u.time.now = now + n ∧ u.time.step = none ∧ (u.reg 0x4014).getLsbD 3 = true ∧ u.kept = s.kept ∧ u.jobs = s.jobs) ∧
      (req + 10000000 < now → ∃ u, exec (.timeStepApply t) s = .next u ∧ u.time.now = now ∧ u.time.step = s.time.step) ∧
      (req + 10000000 ≤ now → ∃ u, exec (.timeStepTimeout t) s = .next u ∧ u.time.now = now ∧ u.time.step = none ∧ u.time.slew = n ∧ (u.reg 0x4014).getLsbD 4 = true) ∧
      (now < req + 10000000 → exec (.timeStepTimeout t) s = .next (s.tick t))) ∧
    (2 ^ 57 - 2 ^ 52 ≤ now → s.time.epochNearMade = false → ∃ u, exec (.stampEpochNear t) s = .next u ∧ u.time.epochNearMade = true ∧ (u.reg 0x4014).getLsbD 6 = true ∧
      u.logs.made.length = s.logs.made.length + 1) ∧
    (now < 2 ^ 57 - 2 ^ 52 → exec (.stampEpochNear t) s = .next (s.tick t)) ∧
    (2 ^ 57 ≤ now → ∃ u, exec (.stampLimit t) s = .next u ∧ u.time = { s.time with now := now, limit := true } ∧ u.timeRuns = false ∧ { u with time := s.time } = s) ∧
    (now < 2 ^ 57 → exec (.stampLimit t) s = .next (s.tick t))

/-- R93, R94, R401 (03, 15). A replay session sets live station time aside and gives it back unchanged at its end; the chips' states start from those of the moment, and are noted again at the end (log 57); while it lasts, only the log moves the clock, never backward and never past a point where it holds. An injected event is taken under its logged key, and one whose key does not rise, or that no session is open for, changes neither lanes nor clock. -/
def Obligations.ReplayResults : Prop :=
  ∀ s : State,
    let state (p : Fin 4) (w : State) (st : Stamp) : ChipState := { stamp := st, up := w.ports[p].up, seated := w.ports[p].seated, attached := w.ports[p].attached, held := w.ports[p].held }
    (s.time.replay = false → ∀ first, ∃ u, exec (.replayStart first) s = .next u ∧ u.time.replay = true ∧ u.time.now = first ∧ u.time.live = s.time.now ∧
      u.link.lastInject = none ∧ { u with time := s.time, link := s.link, ports := s.ports } = s ∧
      (∀ p : Fin 4, u.ports[p] = { s.ports[p] with logged := [state p s 0] }) ∧
      ∀ w : State, w.time.replay = true → w.time.live = u.time.live → w.time.liveRunning = u.time.liveRunning → w.time.liveLimit = u.time.liveLimit →
        ∃ e, exec .replayEnd w = .next e ∧ e.time.replay = false ∧ e.time.now = s.time.now ∧ e.time.running = s.time.running ∧ e.time.limit = s.time.limit ∧ { e with time := w.time, ports := w.ports } = w ∧
          ∀ p : Fin 4, e.ports[p] = { w.ports[p] with logged := [], history := w.ports[p].history ++ [state p w (chipStamp p s.time.now)] }) ∧
    (s.time.replay = true → (∀ first, exec (.replayStart first) s = .next s) ∧ (∀ t, s.at t = s) ∧
      ∀ t, ∃ u, exec (.replayClockAdvance t) s = .next u ∧ s.time.now ≤ u.time.now ∧ (t ≤ s.time.now → u.time.now = s.time.now) ∧
        (∀ p ∈ s.holdPoints, u.time.now ≤ max p s.time.now) ∧ ((∀ p ∈ s.holdPoints, t ≤ p) → u.time.now = max s.time.now t) ∧ { u with time := s.time } = s) ∧
    (s.time.replay = false → exec .replayEnd s = .next s ∧ ∀ t, exec (.replayClockAdvance t) s = .next s) ∧
    (∀ (c : HpCmd) (t : Time), s.nextCmd 7 = some c → c.queue ≠ 256 →
      let key : Key := keyOf (BitVec.ofNat 64 (leAt c.bytes 8 8)) (leAt c.bytes 0x10 4)
      let answers (u : State) (status : Nat) := u.link.fetched = s.link.fetched.erase c ∧ ∃ d ∈ u.link.done, d.cmd = c ∧ d.status = status
      (s.time.replay = false → ∃ u, exec (.inject t) s = .next u ∧ answers u 9 ∧ { u with link := s.link } = s.at t) ∧
      (∀ l, s.time.replay = true → s.link.lastInject = some l → key.toNat ≤ l.toNat → ∃ u, exec (.inject t) s = .next u ∧ answers u 3 ∧ { u with link := s.link } = s) ∧
      (s.time.replay = true → (∀ l, s.link.lastInject = some l → l.toNat < key.toNat) → 2 < byteAt c.bytes 0x14 →
        (∀ p, p < 4 → ∀ e ∈ (s.port p).events, e.eid ≠ leAt (s.resv.mem.bytes (s.stageBase + leAt c.bytes 0x18 8) (leAt c.bytes 0x20 4)) 0 2) →
        ∃ u, exec (.inject t) s = .next u ∧ answers u 0 ∧ u.link.lastInject = some key ∧ u.link.admits = s.link.admits ++ [(key, byteAt c.bytes 0x15)] ∧
          s.time.now ≤ u.time.now ∧ u.ports = s.ports ∧ u.kept = s.kept))

/-- R61, R412 to R415 (03, 16). A selected edge of an enabled input begins a candidate pulse; one that ends before its FILTER time is counted as a glitch and leaves no event; one that lasts is stamped with the time of its edge and enters the lanes that the input feeds; edges in holdoff are counted, and holdoff ends only after its time and a full filter time at the inactive level. It rests on the model's own readings in log 20. -/
def Obligations.TriggerResults : Prop :=
  ∀ (s : State) (die : Fin 2) (n : Fin 32) (t : Time),
    let v := s.at t
    let x := s.trigIn die n
    let only (u : State) (y : TrigIn) := u = v.setTrig die n y
    (∀ rising, v.stamping die 3 = false ∨ (v.trigAt die n t).getLsbD 0 = false → exec (.trigEdge die n rising t) s = .next v) ∧
    (∀ rising, v.stamping die 3 = true → (v.trigAt die n t).getLsbD 0 = true →
      (x.holdoff = none → x.cand = none → edgeSelected (v.trigAt die n t) rising = true → ∃ u, exec (.trigEdge die n rising t) s = .next u ∧ only u { x with cand := some (t, rising) }) ∧
      (x.holdoff = none → x.cand ≠ none ∨ edgeSelected (v.trigAt die n t) rising = false → exec (.trigEdge die n rising t) s = .next v) ∧
      (x.holdoff ≠ none → ∃ u, exec (.trigEdge die n rising t) s = .next (u.inFlag die 1) ∧
        only u { x with inactive := if rising = inactiveHigh (v.trigAt die n t) x.lastRising then some t else none })) ∧
    (x.cand = none → exec (.trigGlitch die n t) s = .next v ∧ exec (.trigQualify die n t) s = .next v) ∧
    (∀ e r, x.cand = some (e, r) → let cfg := v.trigAt die n e
      let filter := 8 * (cfg.toNat / 8 % 256)
      (t < e + filter → (∃ u, exec (.trigGlitch die n t) s = .next (u.inFlag die 0) ∧ only u { x with cand := none }) ∧ exec (.trigQualify die n t) s = .next v) ∧
      (e + filter ≤ t → exec (.trigGlitch die n t) s = .next v) ∧
      (e + filter ≤ t → v.stamping die 3 = true → ∃ u byte i, only u { x with cand := none, holdoff := some e, lastRising := r, inactive := if cfg.toNat / 2 % 4 = 2 then some e else none } ∧
        byte = n.val / 16 * 32 + 16 * die.val + n.val % 16 ∧ i.key = eventKey e byte ∧ i.body = trigBody n r (cfg.toNat / 8 % 256) ∧ i.void = 0 ∧
        exec (.trigQualify die n t) s = .next (if cfg.toNat / 2 ^ 19 % 32 < 16 then (u.laneArrive die true byte i).laneArrive die false byte i else u.laneArrive die false byte i))) ∧
    (∀ e i, x.holdoff = some e → x.inactive = some i → let cfg := v.trigAt die n e
      (e + 8 * (cfg.toNat / 2 ^ 11 % 256) ≤ t → i + 8 * (cfg.toNat / 8 % 256) ≤ t → ∃ u, exec (.trigHoldoffEnd die n t) s = .next u ∧ only u { x with holdoff := none, inactive := none }) ∧
      (t < e + 8 * (cfg.toNat / 2 ^ 11 % 256) ∨ t < i + 8 * (cfg.toNat / 8 % 256) → exec (.trigHoldoffEnd die n t) s = .next v)) ∧
    (x.holdoff = none ∨ x.inactive = none → exec (.trigHoldoffEnd die n t) s = .next v)

/-- R416 to R424 (16). A frame start on an enabled stream begins a frame under the stamp of its arrival, or one that is discarded whole, with its flag: too soon after the last, or with no room in the park area; a line is stored in the next row of the frame's slot; a line with an error, a wrong number of lines or READOUT_MAX ends the frame as damaged; a frame that ends becomes an item of the data lane. It rests on the model's own readings in log 21. -/
def Obligations.CameraResults : Prop :=
  ∀ (s : State) (die : Fin 2) (r : Fin 8) (vc dt : Nat) (t : Time),
    let v := s.at t
    (∀ locked, exec (.camClockLock die r locked) s = .next (if s.mesaLive die = true ∧ s.fuses.optV = true ∧ (s.reg (rxCtl die r)).getLsbD 0 = true then
      { s with ingress := s.ingress.set die { s.ingress[die] with locked := s.ingress[die].locked.set r locked } } else s)) ∧
    exec (.csiLineShortPacket die r vc dt) s = .next s ∧
    (v.rxUp die r = false → exec (.frameStart die r vc dt t) s = .next v ∧ exec (.frameEnd die r vc dt t) s = .next v ∧
      ∀ h c o p, exec (.csiLongPacket die r vc dt h c o p) s = .next s) ∧
    (v.rxUp die r = true → v.stamping die 2 = true → v.camMatch die r vc dt = [] → exec (.frameStart die r vc dt t) s = .next (v.inFlag die 4) ∧
      exec (.frameEnd die r vc dt t) s = .next (v.inFlag die 4) ∧ ∀ c o p, exec (.csiLongPacket die r vc dt .good c o p) s = .next (s.inFlag die 4)) ∧
    (∀ c o p, s.rxUp die r = true → s.replaying = false → ∃ u, exec (.csiLongPacket die r vc dt .bad c o p) s = .next u ∧ u.resv = s.resv ∧ u.regs = s.regs ∧
      ∀ k : Fin 3, (u.camIn die (3 * r.val + k)).cur = ((s.camIn die (3 * r.val + k)).cur.map fun f => { f with damaged := true })) ∧
    (∀ n, n < 24 → v.rxUp die r = true → v.stamping die 2 = true → v.camMatch die r vc dt = [n] →
      let x := s.camIn die n
      let st := keyStamp (eventKey t (camByte die n))
      (x.cur = none → v.camStores die n = true →
        (v.ringFits die n = false → ∃ u, exec (.frameStart die r vc dt t) s = .next (u.inFlag die 5) ∧ u = v.setCam die n { x with cur := some { stamp := st, number := 0, stored := false } }) ∧
        (v.ringFits die n = true → (∃ l, x.last = some l ∧ stampTime st < l + v.frameMin die n) →
          ∃ u, exec (.frameStart die r vc dt t) s = .next (u.inFlag die 3) ∧ u = v.setCam die n { x with cur := some { stamp := st, number := 0, stored := false } }) ∧
        (v.ringFits die n = true → (∀ l, x.last = some l → l + v.frameMin die n ≤ stampTime st) → (∀ j ∈ s.jobs, j.kind ≠ 2) →
          ∃ u, exec (.frameStart die r vc dt t) s = .next (u.laneArrive die true (camByte die n) { key := eventKey t (camByte die n) }) ∧
            u = v.setCam die n { x with cur := some { stamp := st, number := x.frames, stored := true }, last := some (stampTime st), frames := (x.frames + 1) % 2 ^ 32, slots := x.slots ++ [(x.frames % v.camSlots die n, st)] })) ∧
      (∀ f, x.cur = some f → f.stored = true →
        (∀ p, p.length = lineBytes (s.camDt die n) (s.camW die n) → exec (.csiLongPacket die r vc dt .good true false p) s =
          .next ((s.storeLine die n f p).setCam die n { x with cur := some { f with lines := f.lines + 1 } })) ∧
        (∀ p, p.length ≠ lineBytes (s.camDt die n) (s.camW die n) → exec (.csiLongPacket die r vc dt .good true false p) s = .next (s.endFrame die n true)) ∧
        (∀ o p, o = true → exec (.csiLongPacket die r vc dt .good true o p) s = .next (s.endFrame die n true) ∧ exec (.csiLongPacket die r vc dt .good false false p) s = .next (s.endFrame die n true)) ∧
        (f.damaged = false → f.lines = v.camH die n → ∃ u, exec (.frameEnd die r vc dt t) s =
            .next ((u.laneArrive die false (camByte die n) { key := keyOf f.stamp 0, body := v.frameBody die n f }).frameResolved f.stamp false) ∧ u = v.setCam die n { x with cur := none }) ∧
        (f.lines ≠ v.camH die n → exec (.frameEnd die r vc dt t) s = .next (v.endFrame die n true)))) ∧
    (∀ (n : Fin 24) (f : FrameIn), (s.camIn die n).cur = some f →
      exec (.frameReadoutTimeout die n t) s = .next (if stampTime f.stamp + v.readoutMax die n ≤ v.time.now then v.endFrame die n true else v)) ∧
    (∀ n : Fin 24, (s.camIn die n).cur = none → exec (.frameReadoutTimeout die n t) s = .next v)

/-- R24, R426 to R432 (16). The tag gateways: RXS starts a read in STREAM mode; FR stamps the event, and one that finds a read of an earlier frame ends that frame as a reject, and without the stream mode reads the new one; a read that is valid becomes one record under the stamp of FR, and one that is not is a reject; frames of a tag at least 1 s apart set its rate, within 500 ppm of the nominal one (its value is free, log 44). It rests on the model's own readings in log 22. -/
def Obligations.TagResults : Prop :=
  ∀ (s : State) (die : Fin 2) (p : Fin 8) (t : Time),
    let v := s.at t
    let x := s.tagIn die p
    let up := v.stamping die 3 = true ∧ s.tagEn die p = true
    let st := keyStamp (eventKey t (3 * 32 + 16 * die.val + 8 + p.val))
    let dropped := (v.setTag die p { x with reading := false, fr := none, rejects := min 0xFFFF (x.rejects + 1) }).inFlag die 7
    (up → s.tagStream die p = true → x.reading = false → exec (.tagRxs die p t) s = .next (v.setTag die p { x with reading := true, fr := none }) ∧ exec (.tagFr die p t) s = .next v) ∧
    (¬ up → exec (.tagRxs die p t) s = .next v ∧ exec (.tagFr die p t) s = .next v) ∧
    (s.tagStream die p = false ∨ x.reading = true → exec (.tagRxs die p t) s = .next v) ∧
    (up → x.reading = true → x.fr ≠ none → exec (.tagFr die p t) s = .next (if s.tagStream die p then dropped else dropped.setTag die p { x with reading := true, fr := some st, rejects := min 0xFFFF (x.rejects + 1) })) ∧
    (up → (s.tagStream die p = false ∨ x.reading = true) → (x.reading = false ∨ x.fr = none) → exec (.tagFr die p t) s = .next (v.setTag die p { x with reading := true, fr := some st })) ∧
    (x.fr = none ∨ x.reading = false → ∀ bs, exec (.tagReadDone die p bs t) s = .next v) ∧
    (∀ fr bs, x.fr = some fr → x.reading = true → let w := s.reg (tagBase die p + 4)
      let got := bs.take (w.toNat / 2 ^ 16 % 256)
      let bit_ := w.toNat / 2 ^ 24 % 8
      (tagValid got bit_ = none → exec (.tagReadDone die p bs t) s = .next dropped) ∧
      (∀ src, tagValid got bit_ = some src → ∃ body again, exec (.tagReadDone die p bs t) s = .next ((v.setTag die p { x with reading := false, fr := none, events := min 0xFFFF (x.events + 1), seen := ((leAt got (1 + src) 8, leAt got (1 + src + 10) 2, fr) :: x.seen).take 256 }).laneArrive die false (fr.toNat % 256) { key := keyOf fr 0, body := body }) ∧
        body = tagRecord got src bit_ die p fr ((v.bankWord die (v.usesOld (stampTime fr)) (tagBase die p + 0x10)).toNat) ((s.die die).rateOf (leAt got (1 + src) 8)) again ∧
        body.length = 32)) ∧
    (∀ tag tx st', s.mesaLive die = true → s.fuses.optT = true → ∃ u, exec (.tagRateUpdate die tag tx st') s = .next u ∧ u.regs = s.regs ∧ u.resv = s.resv ∧ u.kept = s.kept ∧
      (∀ r, (u.die die).rateOf tag.toNat = some r → (s.die die).rateOf tag.toNat = some r ∨ (1999000000 ≤ r ∧ r ≤ 2001000000))) ∧
    (∀ tag tx st', s.mesaLive die = false ∨ s.fuses.optT = false → exec (.tagRateUpdate die tag tx st') s = .next s)

/-- R402, R403, R410, R433 to R436 (15, 16). An accepted CAN frame, and an Ethernet frame that a filter matches, becomes one item of the data lane under the stamp of its arrival, with the lowest filter that matches; above 255 transmit errors a controller is bus-off; initialisation mode ends bus-off and leaves the bus; a transmit buffer goes out as it stands; an Ethernet frame that is bad, or neither matched nor PTP, is counted and dropped. It rests on the model's own readings in log 5 and log 21. -/
def Obligations.FieldBusResults : Prop :=
  ∀ (s : State) (die : Fin 2) (k : Fin 4) (t : Time),
    let v := s.at t
    let c := s.canIn die k
    let up := s.canUp die k = true
    (∀ f : CanFrame, v.stamping die 3 = true → up → f.data.length ≤ 64 → (f.fdf = true → (s.reg (canBase die k)).getLsbD 1 = true) →
      (v.canFilter die k (v.usesOld t) f = none → exec (.canFrameReceive die k f t) s = .next v) ∧
      (∀ n, v.canFilter die k (v.usesOld t) f = some n → let byte := 4 * 32 + 16 * die.val + k.val
        exec (.canFrameReceive die k f t) s = .next (v.laneArrive die false byte { key := eventKey t byte, body := canBody f n }))) ∧
    (∀ f : CanFrame, v.stamping die 3 = false ∨ ¬ up ∨ 64 < f.data.length → exec (.canFrameReceive die k f t) s = .next v) ∧
    (∀ tec rec_, up → (tec ≤ 255 → exec (.canErrorFrame die k tec rec_) s = .next ((s.setCan die k { c with tec := tec, rec_ := rec_, busOff := false, integrated := true }).inFlag die 9)) ∧
      (255 < tec → exec (.canErrorFrame die k tec rec_) s = .next (((s.setCan die k { c with tec := tec, rec_ := rec_, busOff := true, integrated := false }).inFlag die 9).inFlag die 10))) ∧
    (∀ b : Fin 4, up → ∃ words, exec (.canTransmit die k b) s = .next (s.setCan die k { c with sent := c.sent ++ [(b.val, words)] }) ∧ words.length = 18 ∧
      ∀ i, i < 18 → words[i]? = some (s.reg (canBase die k + 0x200 + 72 * b.val + 4 * i))) ∧
    (¬ up → (∀ tec rec_, exec (.canErrorFrame die k tec rec_) s = .next s) ∧ ∀ b, exec (.canTransmit die k b) s = .next s) ∧
    (s.mesaLive die = true → exec (.canInitEnter die k) s = .next (s.setCan die k { c with init := true, integrated := false, busOff := false, tec := 0, rec_ := 0 }) ∧
      exec (.canInitLeave die k) s = .next (s.setCan die k { c with init := false, integrated := s.canEn die k }) ∧
      ∀ b, exec (.ethLinkChange die k b) s = .next { s with ingress := s.ingress.set die { s.ingress[die] with ethUp := s.ingress[die].ethUp.set k b } }) ∧
    (s.mesaLive die = false → exec (.canInitEnter die k) s = .next (s.absentAccess 4) ∧ exec (.canInitLeave die k) s = .next (s.absentAccess 4) ∧ ∀ b, exec (.ethLinkChange die k b) s = .next s) ∧
    (∀ (frame : List Byte) (ok : Bool), let b := ethBase die k
      let live := s.mesaLive die = true ∧ s.ethEn die k = true ∧ s.ingress[die].ethUp[k] = true ∧ (ethHead frame).2.1 ≠ 0x8808
      let matches_ (n : Nat) := ethFilter (v.bankWord die (v.usesOld t) (b + 0x40 + 4 * n)) ((v.bankWord die (v.usesOld t) b).toNat / 2 ^ 16 % 4096) frame = true
      let byte := 4 * 32 + 16 * die.val + 4 + k.val
      (¬ live → exec (.ethFrame die k frame ok t) s = .next v) ∧
      (live → ok = false ∨ 9216 < frame.length → exec (.ethFrame die k frame ok t) s = .next (v.count32 (b + 8) 1)) ∧
      (live → ok = true → frame.length ≤ 9216 → (∀ n, n < 8 → ¬ matches_ n) → isPtp frame = false ∨ (s.reg b).getLsbD 3 = false → exec (.ethFrame die k frame ok t) s = .next (v.count32 (b + 8) 1)) ∧
      (∀ n, n < 8 → live → ok = true → frame.length ≤ 9216 → matches_ n → (∀ m, m < n → ¬ matches_ m) → v.stamping die 1 = true →
        exec (.ethFrame die k frame ok t) s = .next (v.laneArrive die false byte { key := eventKey t byte, body := ethBody n frame })))

/-- R27, R71 to R75, R108, R139 (03, 04, 05). Items and horizons at a merge: an item that its port's horizon has passed is excluded from the data lane, any other is held behind what its source holds; a horizon of a lane never falls; a lane releases the head of a loose source, or the head that lies below every other source's frontier, marked LOOSE where the lane has a loose source; a tie stops the job and drops the tied items. It rests on the model's own readings in log 20. -/
def Obligations.MergeResults : Prop :=
  ∀ (s : State) (d : Fin 2) (src : Nat) (h : Key) (t : Time),
    let v := s.at t
    let src_ (u : State) (adm : Bool) (n : Nat) := sourceOf (u.lane d adm) n
    let others (u : State) (adm : Bool) (n : Nat) := u.lane d (!adm) = s.lane d (!adm) ∧ (∀ k, k ≠ n → src_ u adm k = src_ s adm k) ∧ u.kept = s.kept ∧ u.tiles = s.tiles ∧ u.resv = s.resv
    let point (adm : Bool) : MergeId := if adm then .admission d else .data d
    (∀ adm, (∃ u, exec (.mergeItemArrive (point adm) src none h t) s = .next u ∧ (src_ u adm src).horizon.toNat = max (src_ s adm src).horizon.toNat h.toNat ∧ (src_ u adm src).held = (src_ s adm src).held ∧ others u adm src ∧ u.regs = s.regs) ∧
      (∃ u, exec (.horizonArrive (point adm) src h) s = .next u ∧ (src_ u adm src).horizon.toNat = max (src_ s adm src).horizon.toNat h.toNat ∧ (src_ u adm src).held = (src_ s adm src).held ∧ others u adm src ∧ u.regs = s.regs)) ∧
    (∀ (adm : Bool) (i : Item),
      ((∀ m, (v.laneView d adm).find? (fun m => decide (m.src = src)) = some m → m.loose = true ∨ m.horizon.toNat ≤ i.key.toNat) →
        ∃ u, exec (.mergeItemArrive (point adm) src (some i) h t) s = .next u ∧ (src_ u adm src).held = (src_ s adm src).held ++ [i] ∧ others u adm src ∧ u.regs = s.regs) ∧
      (∀ m, (v.laneView d adm).find? (fun m => decide (m.src = src)) = some m → m.loose = false → i.key.toNat < m.horizon.toNat →
        ∃ u, exec (.mergeItemArrive (point adm) src (some i) h t) s = .next u ∧ u.lane d adm = s.lane d adm ∧ u.lane d (!adm) = s.lane d (!adm) ∧ u.tiles = s.tiles ∧
          (adm = false → s.logs.made.length < u.logs.made.length))) ∧
    (∀ adm, pickSource (v.laneView d adm) = none → exec (.mergeRelease (point adm) t) s = .next v) ∧
    (∀ adm m i rest, pickSource (v.laneView d adm) = some m → m.held = i :: rest →
      (m.loose = true ∨ ∀ q ∈ v.laneView d adm, q.src ≠ m.src → ∀ f, q.frontier = some f → i.key.toNat < f) ∧
      ∃ u, exec (.mergeRelease (point adm) t) s = .next u ∧ (src_ u adm m.src).held = rest ∧ (∀ k, k ≠ m.src → src_ u adm k = src_ s adm k) ∧ u.lane d (!adm) = s.lane d (!adm) ∧
        (if adm then (u.die d).events = (s.die d).events ++ [markLoose (v.laneView d adm) i] ∧ u.tiles = s.tiles else (u.die d).items = (s.die d).items ++ [markLoose (v.laneView d adm) i]) ∧ u.kept = s.kept) ∧
    (∀ (tile : Fin 512) (kind stream : Nat), let p := (s.tile tile).port kind stream
      let at_ (u : State) (n : Nat) := sourceOf ((u.tile tile).port kind stream).srcs n
      (s.tileOn tile = true → (∀ i, ∃ u, exec (.mergeItemArrive (.tile tile kind stream) src (some i) h t) s = .next u ∧ (at_ u src).held = (at_ s src).held ++ [i] ∧
          (∀ n, n ≠ src → at_ u n = at_ s n) ∧ (∀ n, n ≠ tile.val → u.tile n = s.tile n) ∧ u.regs = s.regs ∧ u.kept = s.kept) ∧
        (∃ u, exec (.horizonArrive (.tile tile kind stream) src h) s = .next u ∧ (at_ u src).horizon = h ∧ (at_ u src).held = (at_ s src).held ∧ (∀ n, n ≠ tile.val → u.tile n = s.tile n) ∧ u.regs = s.regs)) ∧
      (s.tileOn tile = false → (∀ i, exec (.mergeItemArrive (.tile tile kind stream) src i h t) s = .next v) ∧ exec (.horizonArrive (.tile tile kind stream) src h) s = .next s) ∧
      (p.sources = 0 ∨ (p.srcs.length < p.sources ∧ p.loose = false) → exec (.mergeRelease (.tile tile kind stream) t) s = .next v) ∧
      (0 < p.sources → p.sources ≤ p.srcs.length → tiedKey (p.srcs.filter fun m => !m.loose) = none → ∀ m i rest, pickSource p.srcs = some m → m.held = i :: rest →
        ∃ u, exec (.mergeRelease (.tile tile kind stream) t) s = .next u ∧ ((u.tile tile).port kind stream).released = p.released ++ [markLoose p.srcs i] ∧ (at_ u m.src).held = rest ∧
          (∀ n, n ≠ tile.val → u.tile n = s.tile n) ∧ u.regs = s.regs) ∧
      (0 < p.sources → p.sources ≤ p.srcs.length → ∀ k, tiedKey (p.srcs.filter fun m => !m.loose) = some k → ∃ u, exec (.mergeRelease (.tile tile kind stream) t) s = .next u ∧
        (∀ m ∈ ((u.tile tile).port kind stream).srcs, ∀ i ∈ m.held, i.key ≠ k) ∧
        (∀ j, s.job (keyId k) = some j → j.stopped = none → j.running ≠ [] → ∃ j', u.job (keyId k) = some j' ∧ j'.stopped = some 2 ∧ j'.running = [])))

/-- R97, R103, R105 to R108, R114, R120, R579 (04, 21). An output forwards one flit of the lowest class that has one and a hop credit, and takes a credit; credits come back for slots that are free again; a message that stands whole at its end is consumed there, or discarded with a record and its job marked when its CHECK fails; waits above 1 µs and 100 µs are flagged. It rests on the model's own readings in log 23. -/
def Obligations.MeshResults : Prop :=
  ∀ (s : State) (a b : Node) (t : Time),
    let stopped := (∃ n, s.linkOf a b = some n ∧ ∃ e ∈ s.net.retrain, e.1 = n) ∨ s.power.commonA1.toList.getD (s.nodeDie a) false = true
    (stopped → exec (.flitHop a b) s = .next s) ∧
    ((∀ c, c < 4 → s.pickMsg a b c = none) → exec (.flitHop a b) s = .next s) ∧
    (∀ (c : Nat) (h : Hop), ¬ stopped → c < 4 → s.pickMsg a b c = some h → (∀ k, k < c → s.pickMsg a b k = none) →
      h.msg.cls = c ∧ h.place = a ∧ s.net.used a b c < hopDepth (s.linkOf a b) c ∧ ∃ u, exec (.flitHop a b) s = .next u ∧ u.net.hops = landFlit a b h.msg (takeFlit h s.net.hops) ∧
        u.net.used a b c = s.net.used a b c + 1 ∧ (∀ a' b' c', (a', b', c') ≠ (a, b, c) → u.net.used a' b' c' = s.net.used a' b' c') ∧ { u with net := s.net } = s) ∧
    (∀ (c : Fin 4) (n : Nat), ∃ u, exec (.creditReturn a b c n) s = .next u ∧ u.net.used a b c = s.net.used a b c - min n (s.net.used a b c - s.net.waiting a b c) ∧
      (∀ a' b' c', (a', b', c') ≠ (a, b, c.val) → u.net.used a' b' c' = s.net.used a' b' c') ∧ u.net.hops = s.net.hops ∧ { u with net := s.net } = s) ∧
    (∀ good head, (∀ h ∈ s.net.hops, h.place = a → h.msg.final = a → h.here ≠ h.msg.flits) → exec (.flitDeliver a good head t) s = .next (s.at t)) ∧
    (∀ (h : Hop), s.net.hops.find? (fun h => decide (h.place = a ∧ h.msg.final = a ∧ h.here = h.msg.flits)) = some h →
      let port (u : State) (tile : Nat) := sourceOf ((u.tile tile).port 0 h.msg.stream).srcs h.msg.prod
      (∀ head, ∃ u, exec (.flitDeliver a true head t) s = .next u ∧ ((∀ k, h.msg.dest ≠ .apply k) → u.net.hops = s.net.hops.erase h) ∧ u.kept = s.kept ∧
        (∀ tile, h.msg.dest = .tile tile → h.msg.cls ≠ 1 → h.msg.horizon = false → (port u tile).held = (port s tile).held ++ [h.msg.item] ∧ (∀ n, n ≠ tile → u.tile n = s.tile n)) ∧
        (∀ tile, h.msg.dest = .tile tile → h.msg.cls ≠ 1 → h.msg.horizon = true → (port u tile).horizon = h.msg.item.key ∧ (port u tile).held = (port s tile).held) ∧
        (∀ tile c w, h.msg.dest = .tile tile → h.msg.cls = 1 → (s.tile tile).core = some c → c.wait = some w →
          (u.tile tile).core = some (if w.key = h.msg.item.key then { c with reply := some (leAt h.msg.item.body 4 4, decide (byteAt h.msg.item.body 8 = 1)) } else c))) ∧
      (∀ head, ∃ u, exec (.flitDeliver a false head t) s = .next u ∧ u.tiles = s.tiles ∧ u.net.hops = s.net.hops.erase h ∧ u.logs.made.length = s.logs.made.length + 1 ∧
        (head = true → ∀ j, s.job (keyId h.msg.item.key) = some j → ∃ j', u.job (keyId h.msg.item.key) = some j' ∧ j'.void = j.void ||| 4))) ∧
    (∀ (k c : Fin 4) (ns : Nat), exec (.hopWait k c ns) s = .next (if s.ergLive k = true ∧ 1000 < ns then s.flowFlag k c else s) ∧
      exec (.beWait k ns) s = .next (if s.ergLive k = true ∧ 100000 < ns then s.flowFlag k 4 else s))

/-- R263 to R269, R271 (10). Messages at an apply unit whose die is live, for a job that has not stopped. A binding that fits takes effect with every cairn of its ranges bound at zero; an operation without its binding waits for it; one that the binding owns is held at its position; one outside the ranges, or from a producer that is no source, stops the job; a CLOSE moves the frontiers of its producers beyond the job. A message for a die that is out of service or a stopped job is discarded. Stated for a unit with no binding that waits or is finished. -/
def Sys2Proof.Claims.CairnMessageResults : Prop :=
  ∀ (s : State) (k : Fin 4) (tile : Fin 512) (key : Key) (cairn : Nat) (w : Word) (n : Nat) (rerun : Bool) (thr : Word),
    let U := s.applyUnit k
    let id := keyId key
    let op (opc : Nat) (contrib : Nat) (rerun : Bool) (thr : Nat) (operand : Nat) : COp := { opc := opc, cairn := cairn, operand := operand, contrib := contrib, rerun := rerun, threshold := thr, key := key, tile := tile }
    let msgs : List (Instr × COp) := [(.cairnAddMsg k tile key cairn w, op 1 0 false 0 w.toNat), (.cairnAddsMsg k tile key cairn w, op 2 0 false 0 w.toNat), (.cairnWaitMsg k tile key cairn w, op 4 0 false 0 w.toNat),
      (.cairnSettleNMsg k tile key cairn w n rerun thr, op 5 (n % 1024) rerun thr.toNat w.toNat), (.cairnSettleWMsg k tile key cairn w n, op 6 (n % 1024) false 0 w.toNat)]
    let gone (j : JobId) := s.ergLive k = false ∨ ∃ x, s.job j = some x ∧ x.stopped ≠ none
    let steady (V : ApplyUnit) := V.waiting = [] ∧ ∀ b ∈ V.binds, b.finished = false
    let stops (i : Instr) (reason : Nat) := ∃ u, exec i s = .next u ∧ u.kept = s.kept ∧ ∀ j, s.job id = some j → j.stopped = none → j.running ≠ [] → ∃ j', u.job id = some j' ∧ j'.stopped = some reason
    (∀ m ∈ msgs, gone id → exec m.1 s = .next s) ∧
    (gone id → exec (.cairnFenceMsg k tile key cairn) s = .next s ∧ ∀ prods, exec (.cairnCloseMsg k id prods) s = .next s) ∧
    (∀ adm e ranges sources, gone id → exec (.cairnBindMsg k id adm e ranges sources) s = .next s) ∧
    (¬ gone id → (∀ b ∈ U.binds, b.id ≠ id) → steady U → (∀ m ∈ msgs, exec m.1 s = .next (s.setApply k { U with early := U.early ++ [m.2] })) ∧
      exec (.cairnFenceMsg k tile key cairn) s = .next (s.setApply k { U with early := U.early ++ [op 3 0 false 0 0] }) ∧
      ∀ prods, exec (.cairnCloseMsg k id prods) s = .next (s.setApply k { U with earlyClose := U.earlyClose ++ [(id, prods)] })) ∧
    (∀ b, ¬ gone id → U.binds.find? (fun b => decide (b.id = id)) = some b →
      (b.owns cairn = false → (∀ m ∈ msgs, stops m.1 9) ∧ stops (.cairnFenceMsg k tile key cairn) 9) ∧
      (b.owns cairn = true → b.sources.testBit (keyProd key) = false → (∀ m ∈ msgs, stops m.1 10) ∧ stops (.cairnFenceMsg k tile key cairn) 10) ∧
      (b.owns cairn = true → b.sources.testBit (keyProd key) = true → (U.word cairn).state ≠ .poisoned → steady U →
        ((∀ o ∈ b.ops ++ b.watching, o.key ≠ key) → ∀ m ∈ msgs,
          exec m.1 s = .next (s.setApply k (U.setBind { b with ops := insertBy COp.pos { m.2 with pos := b.position (keyProd key) key.toNat } b.ops }))) ∧
        ((b.setHorizon (keyProd key) (b.position (keyProd key) key.toNat)).finished = false →
          exec (.cairnFenceMsg k tile key cairn) s = .next (s.setApply k (U.setBind (b.setHorizon (keyProd key) (b.position (keyProd key) key.toNat)))))) ∧
      (∀ prods, steady (U.closeProds b prods) → exec (.cairnCloseMsg k id prods) s = .next (s.setApply k (U.closeProds b prods)) ∧
        ∀ p ∈ prods, (prods.foldl (fun (b : Binding) p => b.setHorizon p posTop) b).horizon p = posTop)) ∧
    (∀ adm e ranges sources, let b : Binding := { id := id, ranges := ranges, sources := sources, admitted := adm, end_ := e }
      ¬ gone id → U.fits b = true → U.early = [] → U.earlyClose = [] → steady (U.bind b) → ∃ u, exec (.cairnBindMsg k id adm e ranges sources) s = .next u ∧ u = s.setApply k (U.bind b) ∧
        (∀ c ∈ b.cairns, (U.bind b).word c = { state := .bound, bind := U.freeIdx }) ∧ (∀ c, (∀ x ∈ b.cairns, x % 65536 ≠ c % 65536) → (U.bind b).word c = U.word c))

/-- R97, R178, R271 to R278 (04, 07, 10). CAIRN_APPLY applies the operation at the smallest position once every other frontier has passed it, and no other: ADD and SETTLE add, ADD modulo 2^32 and the others up to the top, each counting one operation; it changes nothing else of the unit's words. CAIRN_REPLY ends the wait of the tile that waits for that key, with the result in its register. -/
def Sys2Proof.Claims.CairnApplyAndReplyResults : Prop :=
  ∀ (s : State) (k : Fin 4) (job : JobId) (t : Time),
    let v := s.at t
    let U := s.applyUnit k
    (s.ergLive k = false → ∀ hits, exec (.cairnApply k job hits t) s = .next v) ∧
    (s.ergLive k = true → U.waiting = [] → (∀ b ∈ U.binds, b.finished = false) → U.next job = none → ∀ hits, exec (.cairnApply k job hits t) s = .next v) ∧
    (∀ (b : Binding) (o : COp) (rest : List COp), s.ergLive k = true → U.waiting = [] → U.binds.find? (fun b => decide (b.id = job)) = some b → b.ops = o :: rest → b.passed (keyProd o.key) o.pos = true →
      (U.word o.cairn).state ≠ .poisoned → o.bad = false → ∃ u, exec (.cairnApply k job [] t) s = .next u ∧ u.kept = s.kept ∧
        let c := U.word o.cairn
        let c' := (u.applyUnit k).word o.cairn
        (∀ n, n % 65536 ≠ o.cairn % 65536 → ((u.applyUnit k).word n).count = (U.word n).count ∧ ((u.applyUnit k).word n).ops = (U.word n).ops) ∧
        (o.opc = 4 → c'.count = c.count ∧ c'.ops = c.ops) ∧
        (o.opc = 1 → c'.count = (c.count + o.operand) % 2 ^ 32) ∧
        (o.opc = 2 ∨ 5 ≤ o.opc → c'.count = min 0xFFFFFFFF (c.count + o.operand)) ∧
        (o.opc ≠ 4 → c'.ops = min 1023 (c.ops + 1))) ∧
    (∀ (tile : Fin 512) (key : Key) (result : Word) (d : Bool) (cyc : Nat),
      ((∀ c, (s.tile tile).core = some c → ∀ w, c.wait = some w → w.key ≠ key) → exec (.cairnReply tile key result d cyc t) s = .next v) ∧
      (∀ c w, (s.tile tile).core = some c → c.wait = some w → w.key = key → s.More tile c →
        let r : Word := BitVec.ofNat 32 (c.reply.getD (result.toNat, d)).1
        ∃ u c', exec (.cairnReply tile key result d cyc t) s = .next u ∧ (u.tile tile).core = some c' ∧ c'.wait = none ∧ c'.reply = none ∧ c'.pc = c.pc + 4 ∧
          c'.sreg = (c.setS (Fin.ofNat 32 w.sreg) r false).sreg ∧ (∀ n, n ≠ tile.val → u.tile n = s.tile n) ∧ u.kept = s.kept ∧
          (w.kind = 1 → c'.preg = (c.setP (Fin.ofNat 8 w.preg) (c.reply.getD (result.toNat, d)).2 false).preg ∧
            ((c.reply.getD (result.toNat, d)).2 = false → ∀ h ∈ c'.holds, h.slot ≠ w.slot))))

/-- R26, R136, R148, R200 to R203, R216, R574 (03, 05, 08, 21). A free tile of a row that takes jobs starts the waiting job with the smallest key, once the input set of a cycle is closed: its pc and argument come from the entry table, its other registers are zero, its buffer holds nothing. An engine's oldest operation completes; the scrubber reads the next line and counts a full pass; a patrol read of a clean line changes nothing; a codebook word is written in lee. It rests on the model's own readings in log 16, log 24 and log 26. -/
def Obligations.TileEventResults : Prop :=
  ∀ (s : State) (n : Fin 512) (t : Time),
    let v := s.at t
    let x := s.tile n
    (x.starts = [] → exec (.jobStart n t) s = .next v) ∧
    (x.core ≠ none ∨ x.flight ≠ [] ∨ s.tileOn n = false ∨ (s.row (rowDom n)).ready = false → exec (.jobStart n t) s = .next v) ∧
    (∀ m, (sortBy (fun m : StartMsg => m.key.toNat) x.starts).head? = some m → x.core = none → x.flight = [] → s.tileOn n = true → (s.row (rowDom n)).ready = true →
      (∀ c ∈ s.cycles, c.id = m.id → c.closed = true) → let c := v.startCore n m
      m ∈ x.starts ∧ (∀ m' ∈ x.starts, m.key.toNat ≤ m'.key.toNat) ∧
      c.sreg[0] = 0 ∧ (∀ r : Fin 32, 2 ≤ r.val → c.sreg[r] = 0) ∧ c.wait = none ∧ c.holds = [] ∧ c.id = m.id ∧
      (c.pc % 4 = 0 → 0x800 ≤ c.pc → c.pc < s.imemSize n → ∃ u, exec (.jobStart n t) s = .next u ∧ (u.tile n).core = some c ∧ (u.tile n).abuf = [] ∧ (u.tile n).valid = 0 ∧
        (u.tile n).starts = x.starts.erase m ∧ (u.tile n).halves = x.halves ∧ (∀ k, k ≠ n.val → u.tile k = s.tile k) ∧ u.regs = s.regs ∧ u.resv = s.resv ∧ u.kept = s.kept) ∧
      (c.pc % 4 ≠ 0 ∨ c.pc < 0x800 ∨ s.imemSize n ≤ c.pc → ∃ u, exec (.jobStart n t) s = .next u ∧ (u.tile n).core = none ∧ u.reg (tileBase n + 0x1C) = 7)) ∧
    (∀ e : Fin 5, ∃ u, exec (.engineOpComplete n e) s = .next u ∧ (u.tile n).flight = dropFirst (fun f => decide (f.engine = e.val)) x.flight ∧ (∀ k, k ≠ n.val → u.tile k = s.tile k) ∧
      (u.tile n).core = x.core ∧ (u.tile n).abuf = x.abuf ∧ { u with tiles := s.tiles } = s) ∧
    (s.tileOn n = true → (s.reg (tileBase n + 4)).getLsbD 1 = true → (s.row (rowDom n)).ready = true → ∃ u, exec (.scrubRead n [] t) s = .next u ∧ (u.tile n).scrub = (x.scrub + 1) % 49152 ∧
      (u.tile n).halves = x.halves ∧ (u.tile n).core = x.core ∧ (∀ k, k ≠ n.val → u.tile k = s.tile k) ∧
      u.reg (tileBase n + 0x34) = (if x.scrub = 49151 then s.reg (tileBase n + 0x34) + 1 else s.reg (tileBase n + 0x34)) ∧ (∀ a, a ≠ tileBase n + 0x34 → u.reg a = s.reg a) ∧ u.resv = s.resv) ∧
    (∀ hits, s.tileOn n = false ∨ (s.reg (tileBase n + 4)).getLsbD 1 = false ∨ (s.row (rowDom n)).ready = false → exec (.scrubRead n hits t) s = .next v) ∧
    (∀ (k : Fin 8) (e : EccHit), exec (.reservoirPatrol k [] t) s = .next v ∧
      (s.stackLive k = true → e.store = 5 → s.stackOf e.addr = some k.val → e.ue = true → ∃ u, exec (.reservoirPatrol k [e] t) s = .next u ∧ mget clean u.resv.poison (e.addr / 8) = true ∧
        u.resv.mem = s.resv.mem ∧ u.logs.made.length = s.logs.made.length + 1) ∧
      (s.stackLive k = true → e.store = 5 → s.stackOf e.addr = some k.val → e.ue = false → ∃ u, exec (.reservoirPatrol k [e] t) s = .next u ∧ u.resv = s.resv ∧ (u.reg 0x5000).getLsbD 0 = true) ∧
      (s.stackLive k = false → exec (.reservoirPatrol k [e] t) s = .next v)) ∧
    (∀ (off : Nat) (w : Word), off % 4 = 0 → 0x400 ≤ off → off < 0xC00 → s.tileOn n = true → s.leeShut = false → s.tileLeeBusy n = false → let i := (off - 0x400) % 0x400 / 4
      ∃ u, exec (.tileCbWrite n off w t) s = .next u ∧ mget (fun _ => 0) ((u.tile n).half (s.leeHalf n)).cb (2 * i) = t13Store (w.toNat % 65536) ∧
        mget (fun _ => 0) ((u.tile n).half (s.leeHalf n)).cb (2 * i + 1) = t13Store (w.toNat / 65536) ∧ (u.tile n).half (s.crestHalf n) = x.half (s.crestHalf n) ∧ u.kept = s.kept) ∧
    (∀ (off : Nat) (w : Word), s.tileOn n = false → exec (.tileCbWrite n off w t) s = .next (v.absentAccess (n / 128)))

/-- R28, R29, R93, R304, R438 to R442 (01, 03, 11, 17). A job is admitted only on the first allowed replica that is free over its interval, and only when every test of R439 holds; the request with the smallest key is taken first. An admitted job has its reservation, its tiles' start messages and, for a cycle, its pending event; a refused one leaves no job, and a cycle that is refused is resolved at once; a class with a word found poisoned does not start (R575). It rests on the model's own readings in log 13 and log 18. -/
def Obligations.AdmissionResults : Prop :=
  ∀ (s : State) (die : Fin 2) (st : Stamp) (hits : List EccHit) (t : Time),
    let v := s.at t
    let x := v.rwlReads (s.bankOf die (s.usesOld (stampTime st))) (classRead die (s.trigClass die (stampPort st) st)) hits
    let begun (u : State) (w : Want) (r : Nat) (adm : Bool) := (∃ j, u.jobs = s.jobs ++ [j] ∧ j.id = w.id ∧ j.admitted = adm ∧ j.reserved = adm ∧ j.tiles = w.entry.tiles r ∧ j.start = w.start ∧ j.end_ = w.end_ ∧ j.stopped = none) ∧ u.resv = s.resv ∧ u.kept = s.kept
    (∀ (x : State) (w : Want) (r : Nat), x.fitting w = some r → r < w.entry.replicas ∧ w.mask.testBit r = true ∧ x.replicaFree w r = true ∧ (∀ q, q < r → w.mask.testBit q = true → x.replicaFree w q = false) ∧
      x.timeRuns = true ∧ x.logs.safe = false ∧ x.unit.unlocked = false ∧ w.image.unbound = false ∧ w.inTime = true ∧ x.shortLinks w = [] ∧ x.clockOk w r = true ∧ x.budgetOk w = true ∧ x.tableUsed < 1024 ∧
      ∀ j ∈ x.jobs, j.reserved = true → j.start < w.end_ → w.start < j.end_ → ∀ q ∈ j.tiles, q ∉ w.entry.tiles r) ∧
    (s.eventAt die st = none → exec (.cycleAdmission die st hits t) s = .next v ∧ exec (.frameJobAdmission die st t) s = .next v) ∧
    (∀ i, s.eventAt die st = some i → s.firstRequest i.key = false → exec (.cycleAdmission die st hits t) s = .next v ∧ exec (.frameJobAdmission die st t) s = .next v) ∧
    (∀ i, s.eventAt die st = some i → s.firstRequest i.key = true → stampClass st < 2 → s.replaying = false → let old := s.usesOld (stampTime st)
      let cls := s.trigClass die (stampPort st) st
      let w0 := x.classWord die cls old 0
      ((∃ e ∈ hits, e.store = 6 ∧ e.ue = true ∧ e.addr % 4 = 0 ∧ classRead die cls e.addr = true) → w0 = 0) ∧ (hits = [] → x = v) ∧
      (16 ≤ cls ∨ w0.getLsbD 0 = false → exec (.cycleAdmission die st hits t) s = .next (x.takeEvent die st)) ∧
      (∀ im e r, cls < 16 → w0.getLsbD 0 = true → s.imageOf old (w0.toNat / 2 % 4) = some im → im.bound (w0.toNat / 8 % 256) 1 = some e → let w := x.cycleWant die cls st old im e
        (∀ j ∈ s.jobs, j.id ≠ w.id) → x.fitting w = some r →
        ∃ u c, exec (.cycleAdmission die st hits t) s = .next u ∧ begun u w r true ∧ u.cycles = s.cycles ++ [c] ∧ c.id = w.id ∧ c.verdict = none ∧ c.commit = none ∧ c.admitted = true ∧ c.deadline = stampTime st + 10 * (w0.toNat / 4096 % 2048) ∧
          (∀ n ∈ w.entry.tiles r, ∃ m ∈ (u.tile n).starts, m.id = w.id ∧ m.entry = e.entry) ∧ u.eventAt die st = none) ∧
      (cls < 16 → w0.getLsbD 0 = true → s.imageOf old (w0.toNat / 2 % 4) = none → (∀ c ∈ s.cycles, c.id ≠ { stamp := st, job := 0 }) → ∃ u, exec (.cycleAdmission die st hits t) s = .next u ∧ u.jobs = s.jobs ∧ u.eventAt die st = none ∧
        ∃ c ∈ u.cycles, c.id = { stamp := st, job := 0 } ∧ c.admitted = false ∧ c.verdict = some (4, if v.timeRuns then 1 else 2))) ∧
    (∀ i, s.eventAt die st = some i → s.firstRequest i.key = true → 2 ≤ stampClass st → s.replaying = false → let old := s.usesOld (stampTime st)
      (s.frameEntry old die (stampPort st) = none → exec (.frameJobAdmission die st t) s = .next (v.takeEvent die st)) ∧
      (∀ x r, s.frameEntry old die (stampPort st) = some x → let w := v.frameWant die (stampPort st) st old x
        v.fitting w = some r → (∀ j ∈ s.jobs, j.id ≠ w.id) → (∀ a ∈ (s.die die).arrived, keyStamp a.key ≠ st) → ∃ u, exec (.frameJobAdmission die st t) s = .next u ∧ begun u w r true ∧ (∃ j ∈ u.jobs, j.id = w.id ∧ j.unstarted = true) ∧ u.tiles = s.tiles) ∧
      (∀ x, s.frameEntry old die (stampPort st) = some x → v.fitting (v.frameWant die (stampPort st) st old x) = none → (s.bankWord die old (mesaBase die + 0x40)).getLsbD (stampPort st) = false →
        ∃ u, exec (.frameJobAdmission die st t) s = .next u ∧ u.jobs = s.jobs ∧ u.tiles = s.tiles ∧ u.eventAt die st = none)) ∧
    (s.submits = [] → exec (.hostJobAdmission t) s = .next v) ∧
    (∀ c, (sortBy (fun c : HpCmd => c.key.toNat) s.submits).head? = some c → s.firstRequest c.key = true → s.replaying = false → c.queue ≠ 256 → let old := s.usesOld (stampTime c.stamp)
      (s.imageOf old c.slot = none → ∃ u, exec (.hostJobAdmission t) s = .next u ∧ u.jobs = s.jobs ∧ u.submits = s.submits.erase c ∧ u.link.done = s.link.done ++ [{ cmd := c, status := 5, detail := 0, result := 0 }]) ∧
      (∀ im e r, s.imageOf old c.slot = some im → im.bound c.entry 3 = some e → let w := v.hostWant c old im e
        v.fitting w = some r → (∀ j ∈ s.jobs, j.id ≠ w.id) → ∃ u, exec (.hostJobAdmission t) s = .next u ∧ begun u w r true ∧ u.submits = s.submits.erase c ∧ ∃ x ∈ u.link.copies, x.1 = c)) ∧
    (∀ c, (sortBy (fun c : HpCmd => c.key.toNat) s.submits).head? = some c → s.firstRequest c.key = false → exec (.hostJobAdmission t) s = .next v)

/-- R22, R26, R303, R304, R452 (01, 11, 17). A cycle's input set closes once, at its closure time: it holds the tag records of its window, at most CAP_A of them, and the frames whose jobs had committed, with their digest and their marks. A reservation ends with its interval, and a job that still runs stops: with reason 1 after an exception, 7 when every tile waits, else 8. It rests on the model's own readings in log 20. -/
def Obligations.ClosureAndEndResults : Prop :=
  ∀ (s : State) (die : Fin 2) (st : Stamp) (t : Time),
    let v := s.at t
    (s.cycleAt st = none → exec (.inputSetClosure die st t) s = .next v) ∧
    (∀ c, s.cycleAt st = some c → c.die ≠ die.val ∨ c.closed = true ∨ v.time.now < c.closeAt → exec (.inputSetClosure die st t) s = .next v) ∧
    (∀ c, s.cycleAt st = some c → c.die = die.val → c.closed = false → c.closeAt ≤ v.time.now → ∃ u c', exec (.inputSetClosure die st t) s = .next u ∧ u.cycleAt st = some c' ∧ c'.closed = true ∧
      (∃ n, c'.tags = ((s.tagSet c).take n).map (fun i => i.key) ∧ (∀ j im e, s.job c.id = some j → s.imageOf c.old j.image = some im → im.bound j.entry 1 = some e → c'.tags.length ≤ e.capA)) ∧
      c'.digest = inputDigest c'.tags c'.frames c'.absent ∧ c'.frames.length + c'.absent = (s.classStreams c).length ∧ c'.verdict = c.verdict ∧ c'.commit = c.commit ∧ c'.deadline = c.deadline ∧
      u.tiles = s.tiles ∧ u.regs = s.regs ∧ u.kept = s.kept) ∧
    (∀ id, s.job id = none → exec (.reservationEnd id t) s = .next v) ∧
    (∀ id j, s.job id = some j →
      (v.time.now < j.end_ → exec (.reservationEnd id t) s = .next v) ∧
      (j.end_ ≤ v.time.now → ∃ u j', exec (.reservationEnd id t) s = .next u ∧ u.job id = some j' ∧ j'.reserved = false ∧ u.kept = s.kept ∧
        (j.running = [] ∨ j.stopped ≠ none → j'.stopped = j.stopped ∧ u.tiles = s.tiles) ∧
        (j.running ≠ [] → j.stopped = none → j'.stopped = some (if j.excepted then 1 else if v.jobStalled { j with reserved := false } then 7 else 8) ∧ j'.running = [])))

/-- R30, R35 to R40, R444 to R446, R449 to R453, R510 (01, 17, 19). A cycle takes one commit, of producer 4095 and emit 0, and counts every other ACT; the checks give the first verdict that fails, in their order; a verdict is given once, with one record, and any but COMMITTED runs the default, which reaches its chip only when the chip was seated, up and free at T; an event that passes goes to its port; a deadline without a commit gives DEFAULT. It rests on the model's own readings in log 32. -/
def Obligations.ActuationResults : Prop :=
  ∀ (s : State) (die : Fin 2) (key : Key) (void : Nat) (body : List Byte) (st : Stamp) (t : Time),
    let v := s.at t
    let tame (u : State) := u.tiles = s.tiles ∧ u.resv = s.resv ∧ u.jobs = s.jobs ∧ u.slip = s.slip ∧ u.kept = s.kept
    let others (u : State) (id : JobId) := u.cycles.filter (fun c => decide (c.id ≠ id)) = s.cycles.filter fun c => decide (c.id ≠ id)
    let found := s.cycles.find? fun c => decide (c.id = keyId key ∧ c.die = die.val)
    let barred (c : Cycle) : Bool := (v.chipCheck c.id.stamp c.dflt.chip c.dflt.kind c.dflt.index).isSome || (!s.replaying && !(s.port c.dflt.chip).up)
    let judged (u : State) (c : Cycle) (verdict reason : Nat) := ∃ c', u.cycleAt st = some c' ∧ c'.verdict = some (verdict, reason) ∧ c'.recorded = true ∧ c'.commit = c.commit ∧
      s.logs.made.length < u.logs.made.length ∧ tame u ∧
      (verdict ≠ 1 → c.dflt.action ≠ 0 → c.dfltSent = false → c.dfltNotSent = false → c'.dfltSent = !barred c ∧ c'.dfltNotSent = barred c)
    (found = none → exec (.commitReceive die key void body t) s = .next (v.actFlag die 5)) ∧
    (∀ c, found = some c →
      (keyProd key = 4095 → keyEmit key = 0 → c.verdict = none → c.commit = none → ∃ u, exec (.commitReceive die key void body t) s = .next u ∧ tame u ∧ others u c.id ∧ u.regs = s.regs ∧
        { c with commit := some { receipt := v.time.now, key, void, body := padTo 48 body }, void := c.void ||| void } ∈ u.cycles) ∧
      (keyProd key = 4095 → keyEmit key = 0 → c.verdict ≠ none ∨ c.commit ≠ none → exec (.commitReceive die key void body t) s = .next v) ∧
      (keyProd key ≠ 4095 ∨ keyEmit key ≠ 0 → ∃ u, exec (.commitReceive die key void body t) s = .next u ∧ tame u ∧ others u c.id ∧ { c with extra := min 255 (c.extra + 1) } ∈ u.cycles ∧
        (u.reg (mesaBase die + 0x40000)).getLsbD 5 = true)) ∧
    (s.cycleAt st = none → exec (.commitCheck st t) s = .next v ∧ exec (.deadlineExpiry st t) s = .next v) ∧
    (∀ c, s.cycleAt st = some c →
      (c.commit = none ∨ c.verdict ≠ none ∨ c.checked = true ∨ v.time.now < stampTime st + 4000 → exec (.commitCheck st t) s = .next v) ∧
      (∀ m, c.commit = some m → c.verdict = none → c.checked = false → stampTime st + 4000 ≤ v.time.now → let e := eventOf m.body c.deadline st (m.key.toNat % 2 ^ 32)
        let check := v.chipCheck st e.chip e.kind e.index
        (c.deadline ≤ m.receipt → ∃ u, exec (.commitCheck st t) s = .next u ∧ judged u c 2 3) ∧
        (m.receipt < c.deadline →
          (bodyOk m.body = false → ∃ u, exec (.commitCheck st t) s = .next u ∧ judged u c 4 0x0C) ∧
          (bodyOk m.body = true →
            (e.action = 0 → ∃ u, exec (.commitCheck st t) s = .next u ∧ judged u c 1 0) ∧
            (e.action ≠ 0 →
              (e.fire < c.deadline + 6000 → ∃ u, exec (.commitCheck st t) s = .next u ∧ judged u c 3 6) ∧
              (c.deadline + 6000 ≤ e.fire → stampTime st + 16000000000 < e.fire → ∃ u, exec (.commitCheck st t) s = .next u ∧ judged u c 4 7) ∧
              (c.deadline + 6000 ≤ e.fire → e.fire ≤ stampTime st + 16000000000 →
                (∀ r, check = some r → ∃ u, exec (.commitCheck st t) s = .next u ∧ judged u c 4 r) ∧
                (check = none → 64 ≤ (s.port e.chip).waiting → exec (.commitCheck st t) s = .next v) ∧
                (check = none → (s.port e.chip).waiting < 64 → ∃ u c', exec (.commitCheck st t) s = .next u ∧ u.cycleAt st = some c' ∧ c'.checked = true ∧ c'.event = some e ∧ tame u ∧
                  (e.kind = 0 → (s.port e.chip).up = true → s.replaying = false → ∃ x ∈ (u.port e.chip).events, x.event = e ∧ x.cycle = c.id ∧ ∃ f ∈ (u.port e.chip).queue, f.prio = 2 ∧ f.bytes = eventFrame x.eid e ∧ f.eid = some x.eid))))))) ∧
      (c.verdict ≠ none ∨ c.commit ≠ none ∨ v.time.now < c.deadline → exec (.deadlineExpiry st t) s = .next v) ∧
      (c.verdict = none → c.commit = none → c.deadline ≤ v.time.now → ∃ u, exec (.deadlineExpiry st t) s = .next u ∧ judged u c 2 (if c.jobStopped then 5 else 4)))

/-- R447, R454, R457, R459, R538, R580 (17, 20, 21). A port sends the first frame of the highest priority with the next LSEQ and a CRC behind, a REFLEX frame twice; a TIME tick queues a TIME frame; a discarded frame is counted and recorded; a link goes down after 1 ms of silence, 10 µs without alignment, or 16 discarded frames, with a fault record, its unanswered events abandoned and a preparing slip of its chip aborted; it comes up after 10 valid locked STATUS frames. -/
def Sys2Proof.Claims.DflLinkResults : Prop :=
  ∀ (s : State) (p : Fin 4) (since t : Time),
    let v := s.at t
    let d := s.port p
    let others (u : State) := (∀ q : Fin 4, q ≠ p → u.port q = s.port q) ∧ { u with ports := s.ports } = v
    let downed (u : State) (at_ : Time) := (u.port p).up = false ∧ (u.port p).seated = d.seated ∧ (u.port p).discards = 0 ∧ (u.port p).lockedRun = 0 ∧
      (s.replaying = false → ∃ h ∈ (u.port p).history, h.stamp = chipStamp p at_ ∧ h.up = false ∧ h.seated = d.seated ∧ h.held = d.held) ∧ (s.replaying = true → (u.port p).history = d.history ∧ (u.port p).events = d.events) ∧
      (s.replaying = false → ∀ e ∈ (u.port p).events, e.scheduled = true) ∧ s.logs.made.length < u.logs.made.length ∧
      (s.slip.st = .preparing → .chip p.val ∈ s.slip.parties → u.slip.st = .idle ∧ u.slip.reason = 8 ∧ u.slip.failed = some (.chip p)) ∧
      (s.slip.st ≠ .preparing ∨ .chip p.val ∉ s.slip.parties → u.slip = s.slip) ∧ u.tiles = s.tiles ∧ u.jobs = s.jobs ∧ u.kept = s.kept
    (v.dflSends p = false ∨ d.queue = [] → exec (.dflFrameSend p t) s = .next v) ∧
    (∀ f rest, v.dflSends p = true → d.queue = f :: rest → ∃ u x, exec (.dflFrameSend p t) s = .next u ∧ (u.port p).queue = rest ∧ (u.port p).lseq = (d.lseq + 1) % 256 ∧
      (u.port p).wire = d.wire ++ (if f.prio = 1 then [x ++ leBytes 2 (crc16 x), x ++ leBytes 2 (crc16 x)] else [x ++ leBytes 2 (crc16 x)]) ∧
      (f.bytes ≠ [] → byteAt x 0 = byteAt f.bytes 0 ∧ byteAt x 1 = d.lseq % 256 ∧ (byteAt f.bytes 0 ≠ 3 → x.drop 2 = f.bytes.drop 2) ∧ (byteAt f.bytes 0 = 3 → 6 ≤ f.bytes.length → x.drop 6 = leBytes 8 v.time.now)) ∧ others u) ∧
    (v.dflSends p = false → exec (.dflTimeTick p t) s = .next v) ∧
    (v.dflSends p = true → ∃ u, exec (.dflTimeTick p t) s = .next u ∧ (u.port p).queue.length = d.queue.length + 1 ∧ (∃ f ∈ (u.port p).queue, f.prio = 4 ∧ byteAt f.bytes 0 = 3) ∧ (∀ f ∈ d.queue, f ∈ (u.port p).queue) ∧
      (u.port p).events = d.events ∧ (u.port p).wire = d.wire ∧ others u) ∧
    (s.dflLive p = false → exec (.dflFrameDiscard p t) s = .next v) ∧
    (s.dflLive p = true → ∃ u, exec (.dflFrameDiscard p t) s = .next u ∧ u.port p = { d with crcErr := min 255 (d.crcErr + 1), discards := d.discards + 1, lockedRun := 0 } ∧
      (∀ q : Fin 4, q ≠ p → u.port q = s.port q) ∧ u.logs.made.length = s.logs.made.length + (if (s.reg 0x5000).getLsbD 0 then 0 else 1) ∧ (u.reg 0x5000).getLsbD 0 = true ∧ u.tiles = s.tiles ∧ u.kept = s.kept) ∧
    (d.up = false ∨ v.time.now < d.lastValid + 1000000 → exec (.dflSilenceTimeout p t) s = .next v) ∧
    (d.up = true → d.lastValid + 1000000 ≤ v.time.now → ∃ u, exec (.dflSilenceTimeout p t) s = .next u ∧ downed u (d.lastValid + 1000000)) ∧
    (d.up = false ∨ v.time.now < since + 10000 → exec (.dflAlignLossTimeout p since t) s = .next v) ∧
    (d.up = true → since + 10000 ≤ v.time.now → ∃ u, exec (.dflAlignLossTimeout p since t) s = .next u ∧ downed u (since + 10000)) ∧
    (d.up = false ∨ d.discards < 16 → exec (.dflDiscardCount p t) s = .next v) ∧
    (d.up = true → 16 ≤ d.discards → ∃ u, exec (.dflDiscardCount p t) s = .next u ∧ downed u v.time.now) ∧
    (d.up = true ∨ d.lockedRun < 10 ∨ v.dflSends p = false → exec (.dflLinkUp p t) s = .next v) ∧
    (d.up = false → 10 ≤ d.lockedRun → v.dflSends p = true → ∃ u, exec (.dflLinkUp p t) s = .next u ∧ (u.port p).up = true ∧ (u.port p).attached = d.attached ∧ (u.port p).discards = 0 ∧ (u.port p).lastValid = v.time.now ∧
      (s.replaying = false → ∃ h ∈ (u.port p).history, h.stamp = chipStamp p v.time.now ∧ h.up = true) ∧ (d.ident = none → (u.port p).seated = d.seated) ∧ u.tiles = s.tiles ∧ u.jobs = s.jobs ∧ u.kept = s.kept)

/-- R93, R328, R447, R453, R456, R459, R547, R548 (03, 12, 17, 20). A STATUS frame sets what the unit knows of the chip; a status event also sets the held channels under its stamp and is logged; an identification seats the chip when its crest checksum is that of the ledger, and unseats it when it is not; a reply schedules an event, which makes its cycle COMMITTED, or refuses it with the verdict of its code; an event without a reply is sent once more after 1.5 µs, and abandoned 2 µs before it fires. -/
def Sys2Proof.Claims.DflReceiveResults : Prop :=
  ∀ (s : State) (p : Fin 4) (body : List Byte) (eid result : Nat) (time t : Time),
    let v := s.at t
    let d := s.port p
    let others (u : State) := ∀ q : Fin 4, q ≠ p → u.port q = s.port q
    let known (u : State) := (u.port p).lockedRun = (if (byteAt body 13).testBit 6 then d.lockedRun + 1 else 0) ∧ (u.port p).hold = ((byteAt body 13).testBit 3 || (byteAt body 13).testBit 4) ∧
      (u.port p).rev = byteAt body 16 ∧ (u.port p).lastValid = v.time.now ∧ (u.port p).discards = 0 ∧ (u.port p).up = d.up ∧ (u.port p).queue.length ≥ d.queue.length ∧ u.tiles = s.tiles ∧ u.jobs = s.jobs ∧ u.kept = s.kept
    let sum := leAt body 2 8
    let due := d.up && (d.compareDue || d.reseat || !d.seated)
    let event := d.events.find? fun e => decide (e.eid = eid) && e.open_ v.time.now
    let unanswered := d.events.find? fun e => decide (e.eid = eid ∧ e.scheduled = false)
    let ends (u : State) (e : DflEvent) (verdict reason : Nat) := ∀ c, s.cycle e.cycle = some c → c.verdict = none → e.event.flags = 0 → ∃ c', u.cycle e.cycle = some c' ∧ c'.verdict = some (verdict, reason) ∧ s.logs.made.length < u.logs.made.length
    (s.dflLive p = false → exec (.statusPeriodicReceive p body t) s = .next v ∧ exec (.statusEventReceive p body t) s = .next v ∧ exec (.statusIdentReceive p body t) s = .next v ∧ exec (.replyReceive p eid result time t) s = .next v) ∧
    (s.dflLive p = true →
      (∃ u, exec (.statusPeriodicReceive p body t) s = .next u ∧ known u ∧ others u ∧ { u with ports := s.ports } = v ∧ (u.port p).held = d.held ∧ (u.port p).attached = d.attached ∧ (u.port p).seated = d.seated) ∧
      (∃ u, exec (.statusEventReceive p body t) s = .next u ∧ known u ∧ others u ∧ (u.port p).seated = d.seated ∧
        (s.replaying = true ∨ v.timeRuns = false → (u.port p).held = d.held ∧ (u.port p).history = d.history ∧ u.logs = s.logs) ∧
        (s.replaying = false → v.timeRuns = true → (u.port p).held = leAt body 10 3 ∧ u.logs.made.length = s.logs.made.length + 1 ∧
          (u.port p).history = d.history ++ [{ stamp := chipStamp p (leAt body 2 8), up := d.up, seated := d.seated, attached := d.attached, held := leAt body 10 3 }])) ∧
      (∃ u, exec (.statusIdentReceive p body t) s = .next u ∧ known u ∧ others u ∧ (u.port p).attached = true ∧
        (due = false → (u.port p).seated = d.seated) ∧ (due = true → sum = crc64 (ledgerBytes s.crest p) → (u.port p).seated = true ∧ (u.port p).reseat = false) ∧
        (due = true → sum ≠ crc64 (ledgerBytes s.crest p) → d.reseat = true → (u.port p).seated = d.seated ∧ (u.port p).reseat = true) ∧
        (due = true → sum ≠ crc64 (ledgerBytes s.crest p) → d.reseat = false → (u.port p).seated = false ∧ (u.port p).reseat = true ∧ (u.reg 0x204).getLsbD 5 = true ∧ s.logs.made.length < u.logs.made.length)) ∧
      (∃ u, exec (.replyReceive p eid result time t) s = .next u ∧ (u.port p).lastValid = v.time.now ∧ (u.port p).discards = 0 ∧ u.tiles = s.tiles ∧ u.jobs = s.jobs ∧ u.kept = s.kept ∧
        (s.replaying = true → others u ∧ (u.port p).events = d.events ∧ u.cycles = s.cycles) ∧
        (s.replaying = false →
          (0xF000 ≤ eid → (u.port p).chunks = d.chunks.filter (fun c => decide (c.1 + 0xF000 ≠ eid)) ∧ u.cycles = s.cycles ∧ others u) ∧
          (eid < 0xF000 → event = none → (u.port p).crcErr = min 255 (d.crcErr + 1) ∧ (u.port p).events = d.events ∧ u.cycles = s.cycles ∧ others u) ∧
          (∀ e, eid < 0xF000 → event = some e →
            (result = 0 → (∀ x ∈ (u.port p).events, x.eid = eid → x.scheduled = true) ∧ (u.port p).events.length = d.events.length ∧ ends u e 1 0) ∧
            (result = 1 → ends u e 5 0) ∧ (result = 3 → ends u e 4 0x0B) ∧ (result = 4 → ends u e 4 0x0C) ∧ (result = 2 ∨ 4 < result → ends u e 6 0))))) ∧
    (∀ e, d.events.find? (fun e => decide (e.eid = eid ∧ e.scheduled = false ∧ e.sent = 1)) = some e →
      (d.up = false ∨ v.time.now < e.sentAt + 1500 → exec (.eventRetransmit p eid t) s = .next v) ∧
      (d.up = true → e.sentAt + 1500 ≤ v.time.now → (∀ f ∈ d.queue, f.eid ≠ some eid) → ∃ u, exec (.eventRetransmit p eid t) s = .next u ∧ (u.port p).queue.length = d.queue.length + 1 ∧
        (∃ f ∈ (u.port p).queue, f.prio = 2 ∧ f.bytes = eventFrame eid e.event ∧ f.eid = some eid) ∧ (u.port p).retx = min 255 (d.retx + 1) ∧ (u.port p).events = d.events ∧ others u ∧ { u with ports := s.ports } = v)) ∧
    (d.events.find? (fun e => decide (e.eid = eid ∧ e.scheduled = false ∧ e.sent = 1)) = none → exec (.eventRetransmit p eid t) s = .next v) ∧
    (unanswered = none → exec (.eventAbandon p eid t) s = .next v) ∧
    (∀ e, unanswered = some e →
      (v.time.now + 2000 < e.event.fire → s.replaying = true ∨ d.up = true → exec (.eventAbandon p eid t) s = .next v) ∧
      (e.event.fire ≤ v.time.now + 2000 ∨ (s.replaying = false ∧ d.up = false) → ∃ u, exec (.eventAbandon p eid t) s = .next u ∧ ends u e 4 0x0A ∧ u.tiles = s.tiles ∧ u.jobs = s.jobs ∧ u.kept = s.kept))

/-- R55, R460 to R463, R549, R550 (02, 17, 20). A reflex rule that R461 forbids is not written enabled; an edge or a presented sentinel change launches every enabled rule of its source, in replay none, each with one frame toward its chip and one record, and a rule with a word found poisoned never (R575); a register operation of a port runs alone, ends with its data, is sent once more after 10 µs, and times out after another 10 µs. It rests on the model's own readings in log 16 and log 32. -/
def Obligations.ReflexAndChipRegisterResults : Prop :=
  ∀ (s : State) (die : Fin 2) (rule : Fin 64) (word : Fin 3) (value : Word) (src : ReflexSource) (falling write : Bool) (st : Stamp) (levels tag result off : Nat) (hits : List EccHit) (p : Fin 4) (t : Time),
    let v := s.at t
    let d := s.port p
    let a := ruleBase die rule
    let w (i : Nat) : Word := if i = word.val then value &&& (regInfo (a + 4 * i)).rwl else s.leeWord (a + 4 * i)
    let forbidden := fld (w 1) 4 3 / 2 ≠ die.val ∨ ((w 0).getLsbD 1 = true ∧ (die = 1 ∨ s.fuses.optD = false)) ∨ actionFits (fld (w 1) 2 0) (fld (w 1) 5 5) = false ∨
      (fld (w 1) 2 0 = 3 ∧ (fld (w 2) 23 0 < 1 ∨ 16000000 < fld (w 2) 23 0))
    let old := decide (st ≠ 0) && s.usesOld (stampTime st)
    let read := v.rwlReads (s.bankOf die old) (rulesRead die) hits
    let firing := (List.range 64).filter fun n => ruleFires (read.entryWord die old (ruleBase die n) 3 0) src falling levels
    let r := actRegBase p
    let tame (u : State) := u.tiles = s.tiles ∧ u.jobs = s.jobs ∧ u.cycles = s.cycles ∧ u.resv = s.resv ∧ u.kept = s.kept
    (s.mesaLive die = false → exec (.reflexRuleWrite die rule word value) s = .next (s.absentAccess 4)) ∧
    (s.mesaLive die = true → (w 0).getLsbD 0 = true → s.fuses.optA = false ∨ forbidden → ∃ u, exec (.reflexRuleWrite die rule word value) s = .next u ∧ u.lee = s.lee ∧ u.crest = s.crest ∧ (u.reg (mesaBase die + 0x40000)).getLsbD 6 = true ∧ tame u) ∧
    (s.mesaLive die = true → ((w 0).getLsbD 0 = true → s.fuses.optA = true ∧ ¬ forbidden) → s.slip.st = .idle → s.leeBusy die = false → ∃ u, exec (.reflexRuleWrite die rule word value) s = .next u ∧
      u.leeWord (a + 4 * word) = mergeMask (regInfo (a + 4 * word)).rwl (s.leeWord (a + 4 * word)) value ∧ (∀ n, n ≠ a + 4 * word → u.leeWord n = s.leeWord n) ∧ { u with lee := s.lee, leeBad := s.leeBad } = s) ∧
    (s.replaying = true ∨ s.mesaLive die = false ∨ s.presented die src falling st = false → exec (.reflexLaunch die src falling st levels hits t) s = .next v) ∧
    (s.replaying = false → s.mesaLive die = true → s.presented die src falling st = true → ∃ u, exec (.reflexLaunch die src falling st levels hits t) s = .next u ∧ u.logs.made.length = read.logs.made.length + firing.length ∧
      (hits = [] → read = v) ∧ (∀ n, n < 64 → (∃ e ∈ hits, e.store = 6 ∧ e.ue = true ∧ ∃ k, k < 3 ∧ e.addr = ruleBase die n + 4 * k) → n ∉ firing) ∧
      (∀ q : Fin 4, (u.port q).queue.length = (s.port q).queue.length + (if (s.port q).up = true ∧ v.dflSends q = true then (firing.filter fun n => decide (fld (read.entryWord die old (ruleBase die n) 3 1) 4 3 = q.val)).length else 0)) ∧ tame u ∧ u.regs = read.regs) ∧
    (s.dflLive p = false → exec (.actRegGo p write off value t) s = .next (v.absentAccess (10 + p / 2)) ∧ exec (.regDataReceive p tag result off value t) s = .next v) ∧
    (s.dflLive p = true → (d.reg ≠ none → exec (.actRegGo p write off value t) s = .next (v.setFlag (r + 0xC) 2)) ∧
      (d.reg = none → ∃ u, exec (.actRegGo p write off value t) s = .next u ∧ u.reg (r + 4) = value ∧ u.reg r = BitVec.ofNat 32 ((if write then 2 else 0) + off % 4096 * 65536) ∧ tame u ∧ (∀ q : Fin 4, q ≠ p → u.port q = s.port q) ∧
        (d.up = false → s.replaying = false → (u.reg (r + 0xC)).getLsbD 2 = true ∧ u.port p = d) ∧
        (d.up = true ∨ s.replaying = true → (u.port p).reg = some { write, off := off % 4096, value, tag := (d.nextTag + 1) % 256, started := v.time.now } ∧ (u.port p).queue.length = d.queue.length + (if s.replaying then 0 else 1)))) ∧
    (s.dflLive p = true → ∃ u, exec (.regDataReceive p tag result off value t) s = .next u ∧ (u.port p).lastValid = v.time.now ∧ (u.port p).discards = 0 ∧ tame u ∧ (∀ q : Fin 4, q ≠ p → u.port q = s.port q) ∧
      (∀ x, d.reg = some x → x.tag = tag → x.off = off → (u.port p).reg = none ∧ (u.port p).regResult = some (result, value) ∧ u.reg (r + 8) = value ∧ (u.reg (r + 0xC)).getLsbD 1 = true ∧ (result ≠ 0 → (u.reg (r + 0xC)).getLsbD 2 = true)) ∧
      (∀ x, d.reg = some x → x.tag ≠ tag ∨ x.off ≠ off → (u.port p).reg = some x ∧ u.regs = s.regs)) ∧
    (d.reg = none → exec (.actRegTimeout p t) s = .next v) ∧
    (∀ x, d.reg = some x → (v.time.now < x.started + 10000 → exec (.actRegTimeout p t) s = .next v) ∧
      (x.started + 10000 ≤ v.time.now → x.again = true → ∃ u, exec (.actRegTimeout p t) s = .next u ∧ (u.port p).reg = none ∧ (u.reg (r + 0xC)).getLsbD 3 = true ∧ tame u) ∧
      (x.started + 10000 ≤ v.time.now → x.again = false → ∃ u, exec (.actRegTimeout p t) s = .next u ∧ (u.port p).reg = some { x with again := true, started := v.time.now } ∧ u.regs = s.regs ∧ tame u ∧
        (u.port p).queue.length = d.queue.length + (if d.up = true ∧ s.replaying = false then 1 else 0)))

/-- R318 to R322, R325, R330, R331, R398, R458 (12, 15, 17). A request takes the next SLIP_ID and is refused for BUSY, POINT_INVALID or REPLAY, in that order; an accepted one makes the units in service and the attached chips outside EXCLUDE its parties, and sends each chip PREPARE and 32 chunks; a party answers with its checksum and the first NACK reason; a wrong checksum, a wrong digest, a NACK, an unseated chip, a host abort and the deadline abort the slip, which changes no crest and no lee; with the last ACK the slip is ARMING. -/
def Sys2Proof.Claims.SlipPrepareResults : Prop :=
  ∀ (s : State) (value : Word) (party : Party) (id sum reason : Nat) (c : HpCmd) (port : Fin 4) (chunk : Fin 32) (hits : List EccHit) (t : Time),
    let v := s.at t
    let read := v.leeReads hits party
    let next := (s.slip.id + 1) % 65536
    let refusal (busy : Bool) (point deadline : Nat) : Nat := if busy then 0x0B
      else if deadline < v.time.now + 200000 ∨ v.time.now + 10000000000 < deadline ∨ point < deadline + 100000 ∨ deadline + 10000000000 < point then 0x0C else if s.replaying then 0x0D else 0
    let stays (u : State) := u.crest = s.crest ∧ u.lee = s.lee ∧ u.loader = s.loader ∧ u.tiles = s.tiles ∧ u.jobs = s.jobs ∧ u.cycles = s.cycles ∧ u.kept = s.kept
    let refused (u : State) (why : Nat) := u.slip = { s.slip with id := next, reason := why } ∧ (u.reg 0x204).getLsbD 7 = true ∧ stays u ∧ ∀ p : Fin 4, u.port p = s.port p
    let opened (u : State) (point deadline expect exclude : Nat) := u.slip.st = .preparing ∧ u.slip.id = next ∧ u.slip.point = point ∧ u.slip.deadline = deadline ∧ u.slip.expect = expect ∧
      u.slip.prepared = [] ∧ u.slip.answers = [] ∧ u.slip.acked = [] ∧ u.slip.committed = [] ∧ u.slip.commitAcked = [] ∧ u.slip.crestDigest = s.slip.crestDigest ∧
      (∀ n, .tile n ∈ u.slip.parties ↔ n < 512 ∧ s.tileOn n = true) ∧ (∀ d, .mesa d ∈ u.slip.parties ↔ d < 2 ∧ s.mesaLive d = true) ∧
      (∀ k, .chip k ∈ u.slip.parties ↔ k < 4 ∧ s.dflLive k = true ∧ (s.port k).attached = true ∧ exclude.testBit k = false) ∧
      (∀ k : Fin 4, .chip k.val ∈ u.slip.parties → (u.port k).queue.length = (s.port k).queue.length + 33 ∧ (u.port k).chunks.length = 32 ∧ ∃ f ∈ (u.port k).queue, f.prio = 3 ∧ f.bytes = slipBytes 1 next point) ∧ stays u
    let aborted (u : State) (why : Nat) (failed : Option Party) := u.slip = { s.slip with st := .idle, reason := why, failed := failed } ∧ (u.reg 0x204).getLsbD 4 = true ∧
      fld (u.reg 0x240) 31 16 = min 0xFFFF (fld (s.reg 0x240) 31 16 + 1) ∧ (∀ p, failed = some p → u.reg 0x218 = p.word) ∧ stays u ∧
      (∀ k : Fin 4, .chip k.val ∈ s.slip.parties → ∃ f ∈ (u.port k).queue, f.prio = 3 ∧ f.bytes = slipBytes 3 s.slip.id s.slip.point) ∧
      (∀ x, s.link.slipCmd = some x → x.queue ≠ 256 → u.link.slipCmd = none ∧ u.link.done = s.link.done ++ [{ cmd := x, status := 4, detail := why, result := s.slip.id }])
    let point := v.getPair 0x208
    let deadline := v.getPair 0x210
    let why := refusal (decide (s.slip.st ≠ .idle) || s.loading) point deadline
    (value.getLsbD 0 = false → exec (.slipPrepareWrite value t) s = .next (v.setReg 0x200 (value &&& 0xF0))) ∧
    (value.getLsbD 0 = true → ∃ u, exec (.slipPrepareWrite value t) s = .next u ∧ (why ≠ 0 → refused u why) ∧ (why = 0 → opened u point deadline v.expectRegs (fld value 7 4))) ∧
    ((∀ x, s.link.adminNow = some x → byteAt x.bytes 0 ≠ 5) → exec (.slip t) s = .next v) ∧
    (s.link.adminNow = some c → byteAt c.bytes 0 = 5 → let r := refusal (decide (s.slip.st ≠ .idle)) (leAt c.bytes 8 8) (leAt c.bytes 0x10 8)
      ∃ u, exec (.slip t) s = .next u ∧ u.link.adminNow = none ∧ (r ≠ 0 → refused u r ∧ (c.queue ≠ 256 → u.link.done = s.link.done ++ [{ cmd := c, status := 4, detail := r, result := next }])) ∧
        (r = 0 → opened u (leAt c.bytes 8 8) (leAt c.bytes 0x10 8) (leAt c.bytes 0x20 32) (byteAt c.bytes 0x18) ∧ u.link.slipCmd = some c ∧ u.link.done = s.link.done)) ∧
    (s.slip.st = .idle → exec (.slipAbortWrite t) s = .next v) ∧
    (s.slip.st = .preparing → ∃ u, exec (.slipAbortWrite t) s = .next u ∧ aborted u 0x0A none) ∧
    (s.slip.st = .arming ∨ s.slip.st = .armed → exec (.slipAbortWrite t) s = .next (v.slipFlag 6)) ∧
    (s.slip.st ≠ .preparing ∨ s.slip.id ≠ id ∨ party ∉ s.slip.parties ∨ party ∈ s.slip.prepared → exec (.partyPrepare party id t) s = .next v) ∧
    (s.slip.st = .preparing → s.slip.id = id → party ∈ s.slip.parties → party ∉ s.slip.prepared → ∃ u, exec (.partyPrepare party id t) s = .next u ∧ u.slip = { s.slip with prepared := s.slip.prepared ++ [party] } ∧
      { u with slip := s.slip, power := s.power } = v ∧ (∀ n, party = .tile n → 2 ≤ (s.row (rowDom n)).state → (u.row (rowDom n)).waking = true)) ∧
    ((∀ k, party ≠ .chip k) → (s.slip.st ≠ .preparing ∨ s.slip.id ≠ id ∨ party ∉ s.slip.prepared ∨ (∃ a ∈ s.slip.answers, a.1 = party) ∨ s.partyAwake party = false → exec (.partyChecksumDone party id hits t) s = .next v) ∧
      (s.slip.st = .preparing → s.slip.id = id → party ∈ s.slip.prepared → (∀ a ∈ s.slip.answers, a.1 ≠ party) → s.partyAwake party = true → ∃ u r x, exec (.partyChecksumDone party id hits t) s = .next u ∧
        u.slip = { s.slip with answers := s.slip.answers ++ [(party, r, x)] } ∧ (hits = [] → read = v) ∧ u.tiles = read.tiles ∧ stays { u with tiles := s.tiles } ∧
        (∀ n, party = .tile n → x = crc64 (s.tileSerial n (s.leeHalf n)) ∧ (let y := read.tile n
          (y.retiring ≠ none ∨ y.refreshing = true → r = 6) ∧ (y.retiring = none → y.refreshing = false → s.leeEn n = false → r = if s.bedChanges n then 4 else 0) ∧
          (y.retiring = none → y.refreshing = false → s.leeEn n = true → r = if (y.half (s.leeHalf n)).wbedPoison ≠ [] ∨ (y.half (s.leeHalf n)).imemPoison ≠ [] then 7 else 0))) ∧
        (∀ d, party = .mesa d → let bad := read.leeBad.any fun e => decide (leeDie e.1 = d) && !inLedger e.1
          x = mesaSumOf s.lee d ∧ u.regs = read.regs ∧ (bad = true → r = 7) ∧ (bad = false → r = 0 ∨ r = 5 ∨ r = 0x0F)))) ∧
    (∀ k : Fin 4, exec (.partyChecksumDone (.chip k.val) id hits t) s = .next (if (s.chips[k]).slipId = id then { v with chips := s.chips.set k.val (s.chips[k]).slipChecksum } else v)) ∧
    (v.awaits party id = false → exec (.prepareAck party id sum t) s = .next v ∧ exec (.prepareNack party id reason t) s = .next v) ∧
    (v.awaits party id = true → let given := (∃ k, party = .chip k) ∨ (party, 0, sum) ∈ s.slip.answers
      let all := s.slip.parties.all fun q => decide (q ∈ s.slip.acked ++ [party])
      (∀ k, party = .chip k → s.ledgerBad k = true → ∃ u, exec (.prepareAck party id sum t) s = .next u ∧ aborted u 7 (some party)) ∧
      (∀ k, party = .chip k → s.ledgerBad k = false → (s.port k).seated = false → ∃ u, exec (.prepareAck party id sum t) s = .next u ∧ aborted u 0x0E (some party)) ∧
      (¬ given → exec (.prepareAck party id sum t) s = .next v) ∧
      (given → (∀ k, party = .chip k → s.ledgerBad k = false ∧ (s.port k).seated = true) → s.sumWrong party sum = true → ∃ u, exec (.prepareAck party id sum t) s = .next u ∧ aborted u 2 (some party)) ∧
      (given → (∀ k, party = .chip k → s.ledgerBad k = false ∧ (s.port k).seated = true) → s.sumWrong party sum = false → (∀ d, party ≠ .mesa d) → ∃ u, exec (.prepareAck party id sum t) s = .next u ∧ stays u ∧
        u.slip = { s.slip with acked := s.slip.acked ++ [party], st := if all then .arming else .preparing }) ∧
      (∀ d, party = .mesa d → given → let sl : Slip := { s.slip with acked := s.slip.acked ++ [party], mesaSum := s.slip.mesaSum.setIfInBounds d sum }
        let full := s.slip.parties.all fun (q : Party) => (match q with | .mesa _ => decide (q ∈ sl.acked) | _ => true)
        let dig := { v with slip := sl }.formDigest
        ∃ u, exec (.prepareAck party id sum t) s = .next u ∧ stays u ∧ u.slip.acked = sl.acked ∧ u.slip.leeDigest = (if full then dig else s.slip.leeDigest) ∧
          (full = true → s.slip.expect ≠ 0 → s.slip.expect ≠ dig → u.slip.st = .idle ∧ u.slip.reason = 3) ∧
          (full = false ∨ s.slip.expect = 0 ∨ s.slip.expect = dig → u.slip.st = if all then .arming else .preparing)) ∧
      (reason = 0 → exec (.prepareNack party id reason t) s = .next v) ∧
      (reason ≠ 0 → ((∃ k, party = .chip k) ∨ ∃ a ∈ s.slip.answers, a.1 = party ∧ a.2.1 = reason) → ∃ u, exec (.prepareNack party id reason t) s = .next u ∧ aborted u reason (some party)) ∧
      ((∀ k, party ≠ .chip k) → (∀ a ∈ s.slip.answers, a.1 = party → a.2.1 ≠ reason) → exec (.prepareNack party id reason t) s = .next v)) ∧
    (s.slip.st ≠ .preparing ∨ v.time.now < s.slip.deadline → exec (.slipPrepareTimeout t) s = .next v) ∧
    (s.slip.st = .preparing → s.slip.deadline ≤ v.time.now → ∃ u, exec (.slipPrepareTimeout t) s = .next u ∧ aborted u 1 (s.slip.parties.find? fun p => decide (p ∉ s.slip.acked))) ∧
    (let x := (s.port port).chunks.find? fun c => decide (c.1 = chunk.val ∧ c.2.2 = 1)
     (x = none ∨ (∃ y, x = some y ∧ v.time.now < y.2.1 + 4000) → exec (.leeChunkRetransmit port chunk t) s = .next v) ∧
     (∀ y, x = some y → y.2.1 + 4000 ≤ v.time.now → ∃ u, exec (.leeChunkRetransmit port chunk t) s = .next u ∧ (u.port port).queue.length = (s.port port).queue.length + 1 ∧
       (∀ c ∈ (u.port port).chunks, c.1 = chunk.val → c.2.2 = 2) ∧ (∀ q : Fin 4, q ≠ port → u.port q = s.port q) ∧ { u with ports := s.ports } = v))

/-- R132, R133, R319, R323 to R326, R329 (05, 12). A party stores the digest on COMMIT; the last COMMIT_ACK arms the slip, and the arm deadline aborts it; at the slip point every party's lee becomes crest, its former crest retires, and an attached chip that is no party is unseated; a retiring bank goes when no work holds it, stopping at most not-admitted work, and the party's lee then becomes a copy of its crest. -/
def Sys2Proof.Claims.SlipCommitResults : Prop :=
  ∀ (s : State) (party : Party) (id : Nat) (tile : Fin 512) (die : Fin 2) (lee : Bool) (job : JobId) (t : Time),
    let v := s.at t
    let quiet (u : State) := u.jobs = s.jobs ∧ u.cycles = s.cycles ∧ u.kept = s.kept
    let reclaimed (u : State) (j : Job) := ∃ j', u.job j.id = some j' ∧ j'.stopped = some 0x0A ∧ j'.running = []
    (s.slip.st ≠ .arming ∨ s.slip.id ≠ id ∨ party ∉ s.slip.parties ∨ (∃ k, party = .chip k) → exec (.partyCommit party id t) s = .next v) ∧
    (s.slip.st = .arming → s.slip.id = id → party ∈ s.slip.parties → (∀ k, party ≠ .chip k) → ∃ u, exec (.partyCommit party id t) s = .next u ∧ party ∈ u.slip.committed ∧ (∀ q ∈ s.slip.committed, q ∈ u.slip.committed) ∧
      quiet u ∧ u.regs = s.regs ∧ u.crest = s.crest ∧ u.lee = s.lee ∧ (∀ d, party = .mesa d → u.tiles = s.tiles) ∧
      (∀ n, party = .tile n → ((u.tile n).half (s.leeHalf n)).digest = s.slip.leeDigest ∧ (u.tile n).half (s.crestHalf n) = (s.tile n).half (s.crestHalf n) ∧ ∀ m, m ≠ n → u.tile m = s.tile m)) ∧
    (let known := (∃ k, party = .chip k) ∨ party ∈ s.slip.committed
     (s.slip.st ≠ .arming ∨ s.slip.id ≠ id ∨ party ∉ s.slip.parties ∨ ¬ known → exec (.commitAckReceive party id t) s = .next v) ∧
     (s.slip.st = .arming → s.slip.id = id → party ∈ s.slip.parties → known → ∃ u, exec (.commitAckReceive party id t) s = .next u ∧ { u with slip := s.slip } = v ∧
       (∀ q, q ∈ u.slip.commitAcked ↔ q = party ∨ q ∈ s.slip.commitAcked) ∧ ((∀ q ∈ s.slip.parties, q = party ∨ q ∈ s.slip.commitAcked) → u.slip.st = .armed) ∧
       ((∃ q ∈ s.slip.parties, q ≠ party ∧ q ∉ s.slip.commitAcked) → u.slip.st = .arming))) ∧
    (s.slip.st ≠ .arming ∨ v.time.now + 40000 < s.slip.point → exec (.slipArmTimeout t) s = .next v) ∧
    (s.slip.st = .arming → s.slip.point ≤ v.time.now + 40000 → ∃ u, exec (.slipArmTimeout t) s = .next u ∧ u.slip.st = .idle ∧ u.slip.reason = 9 ∧ (u.reg 0x204).getLsbD 4 = true ∧ u.crest = s.crest ∧ u.lee = s.lee ∧ u.tiles = s.tiles ∧ quiet u) ∧
    (s.slip.st ≠ .idle ∨ s.slip.id ≠ id → exec (.partyAbort party id t) s = .next v) ∧
    (s.slip.st = .idle → s.slip.id = id → ∃ u, exec (.partyAbort party id t) s = .next u ∧ { u with slip := s.slip } = v ∧ (∀ q, q ∈ u.slip.prepared ↔ q ∈ s.slip.prepared ∧ q ≠ party) ∧
      (∀ a, a ∈ u.slip.answers ↔ a ∈ s.slip.answers ∧ a.1 ≠ party) ∧ (∀ q, q ∈ u.slip.committed ↔ q ∈ s.slip.committed ∧ q ≠ party) ∧ u.slip.st = .idle) ∧
    (s.slip.st ≠ .armed ∨ v.time.now < s.slip.point → exec (.slipPoint t) s = .next v) ∧
    (s.slip.st = .armed → s.slip.point ≤ v.time.now → s.slip.parties.Nodup → ∃ u, exec (.slipPoint t) s = .next u ∧ u.crest = s.lee ∧ u.lee = s.lee ∧ u.crestBad = s.leeBad ∧ u.loader.crest = s.loader.lee ∧ u.loader.lee = s.loader.lee ∧ u.loader.old = s.loader.crest ∧
      u.slip.st = .idle ∧ u.slip.crestDigest = s.slip.leeDigest ∧ u.slip.last = s.slip.point ∧ u.slip.lastPoint = some s.slip.point ∧ u.oldDigest = s.slip.crestDigest ∧ (u.reg 0x204).getLsbD 3 = true ∧ quiet u ∧
      (∀ n, .tile n ∈ s.slip.parties → u.crestHalf n = 1 - s.crestHalf n ∧ (u.reg (tileBase n + 8)).getLsbD 1 = true ∧ fld (u.reg (tileBase n + 8)) 31 16 = (fld (s.reg (tileBase n + 8)) 31 16 + 1) % 65536 ∧
        u.getPair (tileBase n + 0x48) = s.getPair (tileBase n + 0x40) ∧ (u.tile n).retiring = some s.slip.point ∧ (u.tile n).halves = (s.tile n).halves ∧ (u.tile n).core = (s.tile n).core) ∧
      (∀ n, .tile n ∉ s.slip.parties → u.tile n = s.tile n ∧ u.crestHalf n = s.crestHalf n) ∧ (∀ d : Fin 2, .mesa d.val ∈ s.slip.parties → u.old[d] = some (mesaBank d s.crest)) ∧
      (∀ k : Fin 4, ((s.port k).attached = true → .chip k.val ∉ s.slip.parties → (u.port k).seated = false) ∧ ((s.port k).attached = false ∨ .chip k.val ∈ s.slip.parties → (u.port k).seated = (s.port k).seated))) ∧
    ((s.tile tile).retiring = none → exec (.tileBankRetireEnd tile lee t) s = .next v) ∧
    (∀ p, (s.tile tile).retiring = some p → let hs := v.holders tile p
      let released (u : State) := (u.tile tile).retiring = none ∧ (u.tile tile).refreshing = true ∧ (u.reg (tileBase tile + 8)).getLsbD 1 = false ∧ u.crestHalf tile = s.crestHalf tile ∧ (u.tile tile).halves = (s.tile tile).halves ∧ u.kept = s.kept
      (v.tileReserved tile p = true ∨ (∃ j ∈ hs, j.admitted = true) ∨ (hs ≠ [] ∧ lee = false) → exec (.tileBankRetireEnd tile lee t) s = .next v) ∧
      (v.tileReserved tile p = false → hs = [] → ∃ u, exec (.tileBankRetireEnd tile lee t) s = .next u ∧ released u ∧ quiet u) ∧
      (v.tileReserved tile p = false → hs ≠ [] → (∀ j ∈ hs, j.admitted = false) → lee = true → ∃ u, exec (.tileBankRetireEnd tile lee t) s = .next u ∧ released u ∧
        (∀ j ∈ hs, s.job j.id = some j → j.stopped = none → reclaimed u j))) ∧
    (s.old[die] = none ∨ s.slip.lastPoint = none → exec (.mesaBankRetireEnd die t) s = .next v) ∧
    (∀ p, s.old[die] ≠ none → s.slip.lastPoint = some p → exec (.mesaBankRetireEnd die t) s = .next (if v.mesaHeld die p then v else { v with old := s.old.set die none, oldBad := notBank die s.oldBad, refreshing := s.refreshing.set die true })) ∧
    (s.job job = none ∨ s.slip.lastPoint = none → exec (.slipReclaimTimeout job t) s = .next v) ∧
    (∀ j p, s.job job = some j → s.slip.lastPoint = some p →
      (j.admitted = true ∨ j.before p = false ∨ j.running = [] ∨ v.time.now < p + 1000000 → exec (.slipReclaimTimeout job t) s = .next v) ∧
      (j.admitted = false → j.before p = true → j.running ≠ [] → p + 1000000 ≤ v.time.now → j.stopped = none → ∃ u, exec (.slipReclaimTimeout job t) s = .next u ∧ reclaimed u j ∧ u.kept = s.kept)) ∧
    (∀ k, exec (.leeRefreshDone (.chip k) t) s = .next v) ∧
    (∀ n, let c := s.crestHalf n
      ((s.tile n).refreshing = false → exec (.leeRefreshDone (.tile n) t) s = .next v) ∧
      ((s.tile n).refreshing = true → (∀ w ∈ s.heldWrites, w.addr < tileBase n ∨ tileBase n + 0x1000 ≤ w.addr) → ∃ u, exec (.leeRefreshDone (.tile n) t) s = .next u ∧ (u.tile n).refreshing = false ∧ quiet u ∧ u.regs = s.regs ∧
        (u.tile n).half c = (s.tile n).half c ∧ (∀ m, m ≠ n → u.tile m = s.tile m) ∧ (s.leeEn n = true → (u.tile n).half (1 - c) = (s.tile n).half c) ∧
        (s.leeEn n = false → (u.tile n).half (1 - c) = { (s.tile n).half c with wbed := ((s.tile n).half (1 - c)).wbed, imem := ((s.tile n).half (1 - c)).imem, wbedPoison := ((s.tile n).half (1 - c)).wbedPoison, imemPoison := ((s.tile n).half (1 - c)).imemPoison }))) ∧
    (∀ d : Fin 2, (s.refreshing[d] = false → exec (.leeRefreshDone (.mesa d) t) s = .next v) ∧
      (s.refreshing[d] = true → mwf regReset s.crest = true → (∀ w ∈ s.heldWrites, leeDie w.addr ≠ d.val) → ∃ u, exec (.leeRefreshDone (.mesa d) t) s = .next u ∧ u.refreshing = s.refreshing.set d false ∧ u.crest = s.crest ∧ u.tiles = s.tiles ∧ quiet u ∧
        ∀ a, u.leeWord a = if leeDie a = d.val ∧ inLedger a = false then s.crestWord a else s.leeWord a))

/-- R290, R291, R296, R297, R390, R398, R400 (11, 15). A load runs alone and waits while a slip is open; it ends with the first failing check and leaves the banks as they are, or writes the image into crest and lee (COLD) or into lee alone; an unload empties the slot in lee and leaves crest. It rests on the model's own readings in log 28 and log 29. -/
def Obligations.LoaderResults : Prop :=
  ∀ (s : State) (c : HpCmd) (t : Time),
    let v := s.at t
    let slot := c.loadSlot
    let d := s.stagedImage c
    let chk := s.loadCheck d slot c.cold c.allowUnbound
    let ident := leAt (imgDigest d) 0 8
    let ended (u : State) (status detail result : Nat) := u.link.adminNow = none ∧ (c.queue ≠ 256 → { cmd := c, status, detail, result } ∈ u.link.done) ∧ u.kept = s.kept
    let crestKept (u : State) := u.loader.crest = s.loader.crest ∧ u.crest = s.crest ∧ u.slip = s.slip ∧ ∀ n, u.crestHalf n = s.crestHalf n ∧ (s.leeEn n = true → (u.tile n).half (s.crestHalf n) = (s.tile n).half (s.crestHalf n))
    ((∀ x, s.link.adminNow = some x → byteAt x.bytes 0 ≠ 3) ∨ s.slip.st ≠ .idle → exec (.loadImage t) s = .next v) ∧
    ((∀ x, s.link.adminNow = some x → byteAt x.bytes 0 ≠ 4) ∨ s.slip.st ≠ .idle → exec (.unloadImage t) s = .next v) ∧
    (s.link.adminNow = some c → byteAt c.bytes 0 = 3 → s.slip.st = .idle →
      (formatOk d = false → chk = (1, 0, none)) ∧ (formatOk d = true → s.signCode d (byteAt d 0x17) ≠ 0 → chk = (s.signCode d (byteAt d 0x17), 0, none)) ∧
      (chk.1 ≠ 0 → ∃ u, exec (.loadImage t) s = .next u ∧ ended u 4 (loadDetail chk.1 chk.2.1 chk.2.2) ident ∧ u.loader = s.loader ∧ u.tiles = s.tiles ∧ u.resv = s.resv ∧ u.jobs = s.jobs ∧ u.regs = s.regs) ∧
      (∀ k un, chk = (0, 0, some (k, un)) → slot < 4 → let i := imageOfBytes d k un
        let ts := s.loadTiles i slot c.cold
        let w := ts.foldl (fun s t => s.readyTile t) v
        (w.tilesReady ts = false → ∃ u, exec (.loadImage t) s = .next u ∧ u.link.adminNow = some c ∧ u.loader = s.loader ∧ u.resv = s.resv) ∧
        (w.tilesReady ts = true → c.cold = true → ∃ u, exec (.loadImage t) s = .next u ∧ ended u 0 (k * 2 ^ 24) ident ∧ u.resv = (v.storeImage d i).resv ∧
          u.loader.crest = s.loader.crest.setIfInBounds slot (some i) ∧ u.loader.lee = s.loader.lee.setIfInBounds slot (some i) ∧ (∀ n, n ∉ placedTiles i.place → (u.tile n).halves = (s.tile n).halves)) ∧
        (w.tilesReady ts = true → c.cold = false → ∃ u, exec (.loadImage t) s = .next u ∧ ended u 0 (k * 2 ^ 24) ident ∧ crestKept u ∧ u.loader.lee.toList.getD slot none = some i))) ∧
    (s.link.adminNow = some c → byteAt c.bytes 0 = 4 → s.slip.st = .idle → slot < 4 →
      (s.loader.lee.toList.getD slot none = none → ∃ u, exec (.unloadImage t) s = .next u ∧ ended u 0 0 0 ∧ u.loader = s.loader ∧ u.tiles = s.tiles ∧ u.resv = s.resv) ∧
      (∀ i, s.loader.lee.toList.getD slot none = some i → let ts := placedTiles i.place
        let w := ts.foldl (fun s t => s.readyTile t) v
        (w.tilesReady ts = false → ∃ u, exec (.unloadImage t) s = .next u ∧ u.link.adminNow = some c ∧ u.loader = s.loader ∧ u.resv = s.resv) ∧
        (w.tilesReady ts = true → ∃ u, exec (.unloadImage t) s = .next u ∧ ended u 0 0 0 ∧ crestKept u ∧ u.loader.lee = s.loader.lee.setIfInBounds slot none ∧ u.resv = s.resv)))

/-- R333, R336 to R342, R345, R347 to R349, R591 (13, 22). A row goes to A1, A2 and A3 only when it is idle, has the state above, is allowed to, and every wake limit of its classes holds for the exit latency; A2 drops the activation buffers, A3 both banks; it wakes for work, a start message or a slip, and from A3 has its crest and then its lee restored; a wake beyond its latency is recorded; an A common domain is off only while no row, binding, reservation or flit of its die is there; an F domain is on when configuration asks for it; the hints do what R347 says. -/
def Sys2Proof.Claims.PowerDomainResults : Prop :=
  ∀ (s : State) (d : Nat) (t : Time),
    let v := s.at t
    let r := s.row d
    let k := domDie d
    let ctl := s.reg 0x1008
    let row (u : State) (x : Row) := u.row d = x ∧ (∀ e, e ≠ d → u.row e = s.row e) ∧ u.power.commonA1 = s.power.commonA1 ∧ u.power.fOn = s.power.fOn ∧ u.jobs = s.jobs ∧ u.kept = s.kept
    let only (u : State) (x : Row) := row u x ∧ { u with power := s.power } = v
    let steady (n : Nat) := (s.tile n).retiring = none ∧ (s.tile n).refreshing = false
    let quiet := isRowDom d = true ∧ s.ergLive k = true ∧ r.waking = false ∧ r.crestDue = false ∧ r.leeDue = false ∧ ∀ n ∈ domTiles d, (s.tile n).core = none ∧ (s.tile n).starts = [] ∧ (s.tile n).flight = []
    let deep (idle : Nat) := v.rowReserved d = false ∧ s.slip.st = .idle ∧ (r.idleHint = true ∨ r.idleSince + idle ≤ v.time.now) ∧ ∀ b, r.busyUntil = some b → b ≤ v.time.now
    let fits (rows : List Nat) (ns : Nat) := ∀ l ∈ v.rowLimits rows, ns ≤ l
    let a1 := quiet ∧ r.state = 0 ∧ fits [d] (250 + v.commonNs k)
    let a2 := quiet ∧ r.state = 1 ∧ ctl.getLsbD 16 = true ∧ deep (10000 * fld ctl 7 0) ∧ fits [d] (12000 + v.commonNs k)
    let set := v.a3Set k ++ [d]
    let still := (∀ n ∈ domTiles d, steady n) ∧ s.loading = false
    let a3 := quiet ∧ (r.state = 1 ∨ r.state = 2) ∧ ctl.getLsbD 17 = true ∧ r.noA3 = false ∧ still ∧ deep (1000000 * fld ctl 15 8) ∧ fits set (v.a3Latency k set)
    let passes := r.passage = true ∧ quiet ∧ still
    let dropped (u : State) := (∀ n ∈ domTiles d, (u.tile n).abuf = [] ∧ (u.tile n).valid = 0 ∧ (u.tile n).plane = none ∧ (u.tile n).ports = (s.tile n).ports) ∧ (∀ n, n ∉ domTiles d → u.tile n = s.tile n) ∧ u.regs = s.regs ∧ u.resv = s.resv
    let emptied (u : State) := ∀ n ∈ domTiles d, ∀ h, (u.tile n).half h = { digest := ((s.tile n).half h).digest }
    (a1 → ∃ u, exec (.rowEnterA1 d t) s = .next u ∧ only u { r with state := 1, idleHint := false, idleSince := v.time.now }) ∧ (¬ a1 → exec (.rowEnterA1 d t) s = .next v) ∧
    (a2 → ∃ u, exec (.rowEnterA2 d t) s = .next u ∧ row u { r with state := 2, idleHint := false } ∧ dropped u ∧ ∀ n ∈ domTiles d, (u.tile n).halves = (s.tile n).halves) ∧ (¬ a2 → exec (.rowEnterA2 d t) s = .next v) ∧
    (passes → ∃ u, exec (.rowEnterA3 d t) s = .next u ∧ (u.row d).state = 3 ∧ (u.row d).passage = false ∧ (u.row d).waking = true ∧ dropped u ∧ emptied u) ∧
    (¬ passes → a3 → ∃ u, exec (.rowEnterA3 d t) s = .next u ∧ row u { r with state := 3, idleHint := false } ∧ dropped u ∧ emptied u) ∧ (¬ passes → ¬ a3 → exec (.rowEnterA3 d t) s = .next v) ∧
    (let due := isRowDom d = true ∧ s.ergLive k = true
     (due → r.state ≠ 0 → r.waking = false → ∃ u, exec (.rowWake d t) s = .next u ∧ only u { r with waking := true, wakeAt := v.time.now, late := false, wakeSet := if r.state = 3 then s.a3Set k else [], wakeCommon := s.power.commonA1.toList.getD k false }) ∧ (¬ due ∨ r.state = 0 ∨ r.waking = true → exec (.rowWake d t) s = .next v)) ∧
    (isRowDom d = true → r.waking = true → ∃ u, exec (.rowWakeDone d t) s = .next u ∧ row u { r with state := 0, waking := false, crestDue := decide (r.state = 3), leeDue := decide (r.state = 3) } ∧ u.tiles = s.tiles) ∧
    (isRowDom d = false ∨ r.waking = false → exec (.rowWakeDone d t) s = .next v) ∧
    (r.crestDue = false → exec (.rowCrestRestored d t) s = .next v) ∧
    (r.crestDue = true → ∃ u, exec (.rowCrestRestored d t) s = .next u ∧ row u { r with crestDue := false } ∧ u.resv = s.resv ∧ (∀ n, n ∉ domTiles d → u.tile n = s.tile n) ∧
      (∀ n ∈ domTiles d, claimedBy s.loader.crest.toList n = [] → claimedBy s.loader.lee.toList n = [] → u.tile n = s.tile n) ∧ ∀ n h, ((u.tile n).half h).digest = ((s.tile n).half h).digest) ∧
    (r.crestDue = true ∨ r.leeDue = false → exec (.rowLeeRestored d t) s = .next v) ∧
    (r.crestDue = false → r.leeDue = true → r.passage = false → ∃ u, exec (.rowLeeRestored d t) s = .next u ∧ row u { r with leeDue := false } ∧ u.resv = s.resv ∧ (∀ n, n ∉ domTiles d → u.tile n = s.tile n) ∧
      ∀ n ∈ domTiles d, s.leeEn n = true → (u.tile n).half (s.crestHalf n) = (s.tile n).half (s.crestHalf n)) ∧
    (let late := isRowDom d = true ∧ (r.waking = true ∨ r.crestDue = true) ∧ r.late = false ∧ r.wakeAt + v.countedNs d < v.time.now
     (late → ∃ u, exec (.wakeLate d t) s = .next u ∧ (u.reg 0x1000).getLsbD 1 = true ∧ u.logs.made.length = s.logs.made.length + 1 ∧ row u { r with late := true } ∧ u.tiles = s.tiles) ∧ (¬ late → exec (.wakeLate d t) s = .next v)) ∧
    (let rows := (List.range 16).map fun n => s.row (16 + 17 * k + n)
     let off := isCommonDom d = true ∧ s.ergLive k = true ∧ (∀ x ∈ rows, 2 ≤ x.state ∧ x.waking = false) ∧ (s.applyUnit k).binds = [] ∧ (s.applyUnit k).waiting = [] ∧
      (∀ j ∈ s.jobs, j.reserved = true → ∀ n ∈ j.tiles, n / 128 ≠ k) ∧ ∀ h ∈ s.net.hops, s.nodeDie h.place ≠ k
     let on := isCommonDom d = true ∧ ((∃ h ∈ s.net.hops, s.nodeDie h.place = k) ∨ ∃ x ∈ rows, x.waking = true ∨ x.state < 2)
     let set (u : State) (b : Bool) := u.power.commonA1 = s.power.commonA1.setIfInBounds k b ∧ u.power.rows = s.power.rows ∧ { u with power := s.power } = v
     (off → ∃ u, exec (.commonEnterA1 d t) s = .next u ∧ set u true) ∧ (¬ off → exec (.commonEnterA1 d t) s = .next v) ∧ (on → ∃ u, exec (.commonWake d t) s = .next u ∧ set u false) ∧ (¬ on → exec (.commonWake d t) s = .next v)) ∧
    (d < 1 ∨ 8 < d → exec (.fDomainSwitchDone d t) s = .next v) ∧
    (1 ≤ d → d ≤ 8 → let j := (d - 1) / 4
      let f := (d - 1) % 4
      ∃ u, exec (.fDomainSwitchDone d t) s = .next u ∧ u.power.fOn = s.power.fOn.setIfInBounds (d - 1) (v.fWanted j f) ∧ u.power.rows = s.power.rows ∧ u.tiles = s.tiles ∧ u.regs = s.regs ∧ u.kept = s.kept ∧
        (s.power.fOn.toList.getD (d - 1) false = true ∨ v.fWanted j f = false → u.ingress = s.ingress) ∧
        (s.power.fOn.toList.getD (d - 1) false = false → v.fWanted j f = true → f = 2 → (u.die j).cam = .replicate 24 {} ∧ (u.die j).trig = (s.die j).trig ∧ (u.die j).tag = (s.die j).tag)) ∧
    exec (.hintRegNoChange d) s = .next s ∧
    (isRowDom d = true → s.ergLive k = true → (∃ u, exec (.hintRegIdleSoon d t) s = .next u ∧ only u { r with idleHint := true }) ∧
      (∃ u, exec (.hintRegBusySoon d t) s = .next u ∧ (u.row d).busyUntil = some (v.time.now + 1000000) ∧ (u.row d).state = r.state ∧ (2 ≤ r.state → (u.row d).waking = true) ∧ (∀ e, e ≠ d → u.row e = s.row e) ∧ { u with power := s.power } = v)) ∧
    (isRowDom d = false ∨ s.ergLive k = false → exec (.hintRegIdleSoon d t) s = .next v ∧ exec (.hintRegBusySoon d t) s = .next v) ∧
    (r.busyUntil = none → exec (.busyHoldEnd d t) s = .next v) ∧
    (∀ b, r.busyUntil = some b → (v.time.now < b → exec (.busyHoldEnd d t) s = .next v) ∧ (b ≤ v.time.now → ∃ u, exec (.busyHoldEnd d t) s = .next u ∧ only u { r with busyUntil := none }))

/-- R350 to R354, R356, R357 (13). A window with an alarm raises the oasis by four codes, and after sixteen quiet windows it falls by one, never below VMIN or above 0.950 V; with alarms at 0.950 V the clock falls by 5 %; a clock change raises the voltage first; a temperature sets the warning and limit marks with their hysteresis, lowers the clocks at T_LIMIT by 10 % and takes the erg die out of service at T_TRIP; a list of samples acts one after the other. -/
def Sys2Proof.Claims.VoltageAndHeatResults : Prop :=
  ∀ (s : State) (o : Oasis) (on alarm : Bool) (margin n : Nat) (temp : Int) (rest : List (Nat × Int)) (t : Time),
    let v := s.at t
    let x := s.oasis o
    let d := o.dom
    let others (u : State) := (∀ p, p ≠ o → u.oasis p = s.oasis p) ∧ u.power.rows = s.power.rows ∧ u.tiles = s.tiles ∧ u.jobs = s.jobs ∧ u.kept = s.kept
    let target := fld (s.reg 0x1014) 4 0
    let volt := if alarm then min 160 (x.volt + 4) else if target + 4 < margin ∧ 16 ≤ x.quiet + 1 then max (s.vmin d) (x.volt - 1) else x.volt
    let tops := if alarm then x.topAlarms + 1 else 0
    let limit := fld (s.reg 0x100C) 15 8
    let warn := min (fld (s.reg 0x100C) 7 0) limit
    let hot := acts (s.power.hot.contains n) temp limit
    (s.oasisOn o = false → exec (.timingAlarm o on) s = .next s ∧ exec (.avsWindow o alarm margin t) s = .next v ∧ exec (.clockChange o t) s = .next v) ∧
    (s.oasisOn o = true →
      (∃ u, exec (.timingAlarm o on) s = .next u ∧ u.oasis o = { x with alarm := on } ∧ others u ∧ { u with power := s.power } = s) ∧
      (∃ u, exec (.avsWindow o alarm margin t) s = .next u ∧ (u.oasis o).volt = volt ∧ (u.oasis o).topAlarms = tops ∧ (u.oasis o).quiet = (if !alarm && decide (target + 4 < margin) then x.quiet + 1 else 0) ∧
        (u.oasis o).mhz = (if volt = 160 ∧ 4 ≤ tops then max 400 (x.mhz * 95 / 100 / 5 * 5) else x.mhz) ∧ others u) ∧
      (∃ u, exec (.clockChange o t) s = .next u ∧ others u ∧ let f := match x.throttle with | some m => min m (v.wantClock o) | none => v.wantClock o
        (u.oasis o).mhz = f ∧ (u.oasis o).volt = (if x.mhz < f then max x.volt (vSafeAt o.die f) else x.volt) ∧ (u.oasis o).quiet = x.quiet ∧ (u.oasis o).alarm = x.alarm)) ∧
    exec (.thermalSample [] t) s = .next v ∧
    (∀ u, exec (.thermalSample [(n, temp)] t) s = .next u → exec (.thermalSample ((n, temp) :: rest) t) s = exec (.thermalSample rest t) u) ∧
    (s.sensorOn n = false → exec (.thermalSample [(n, temp)] t) s = .next v) ∧
    (s.sensorOn n = true → temp < 480 → ∃ u, exec (.thermalSample [(n, temp)] t) s = .next u ∧ (n, temp) ∈ u.power.temps ∧ (∀ e ∈ s.power.temps, e.1 ≠ n → e ∈ u.power.temps) ∧
      (n ∈ u.power.warm ↔ acts (s.power.warm.contains n) temp warn = true) ∧ (n ∈ u.power.hot ↔ hot = true) ∧ (∀ m, m ≠ n → ((m ∈ u.power.warm ↔ m ∈ s.power.warm) ∧ (m ∈ u.power.hot ↔ m ∈ s.power.hot))) ∧
      (acts (s.power.warm.contains n) temp warn = true → n ∉ s.power.warm → (u.reg 0x1000).getLsbD 2 = true) ∧ (hot = true → n ∉ s.power.hot → (u.reg 0x1000).getLsbD 3 = true) ∧
      (∀ e, hot = true → s.sensorDom n = some e → (domOases e).Nodup → ∀ p ∈ domOases e, (u.oasis p).mhz = max 400 ((s.oasis p).mhz * 90 / 100 / 5 * 5) ∧ (u.oasis p).throttle = some (u.oasis p).mhz) ∧
      (∀ e, s.sensorDom n = some e → ∀ p, p ∉ domOases e → u.oasis p = s.oasis p) ∧ u.live = s.live ∧ u.tiles = s.tiles ∧ u.jobs = s.jobs ∧ u.kept = s.kept) ∧
    (s.sensorOn n = true → 480 ≤ temp → n < 68 → ∃ u, exec (.thermalSample [(n, temp)] t) s = .next u ∧ u.ergLive (n / 17) = false ∧ n / 17 ∈ u.power.tripped ∧ (u.reg 0x1000).getLsbD 4 = true ∧
      (∀ j, s.job j.id = some j → j.stopped = none → j.running ≠ [] → (∃ q ∈ j.tiles, q / 128 = n / 17) → ∃ j', u.job j.id = some j' ∧ j'.stopped = some 0x0E ∧ j'.running = []) ∧ s.logs.made.length < u.logs.made.length)

/-- R361 to R373, R377, R378 (14). Enabling starts with an empty history, disabling drops an inference and deasserts the outputs; FREEZE arms one capture; a good frame of the watched stream, far enough from the last one, is decimated and its inference starts, counted; a bad frame is flagged; a feed runs only with the host source on and no inference open; the end of an inference gives the scores, the detected class and the outputs; without a good frame for DW_TIMEOUT the source is lost and the history is cleared. It rests on the model's own readings in log 41 and log 51. -/
def Obligations.DunewatchResults : Prop :=
  ∀ (s : State) (stream : Fin 24) (st : Stamp) (width height : Nat) (luma : List Byte) (damaged on : Bool) (t : Time),
    let v := s.at t
    let tame (u : State) := u.tiles = s.tiles ∧ u.jobs = s.jobs ∧ u.resv = s.resv ∧ u.crest = s.crest ∧ u.kept = s.kept
    let old := s.usesOld (stampTime st)
    let src := s.dwWord old 0x10
    let xy := s.dwWord old 0x14
    let step := s.dwWord old 0x18
    let sx := max 1 (fld step 5 0)
    let sy := max 1 (fld step 13 8)
    let heard := s.dwOn = true ∧ s.fuses.optV = true ∧ s.replaying = false ∧ src.getLsbD 0 = false ∧ fld src 12 8 = stream.val ∧ s.power.fOn[2] = true
    let good := damaged = false ∧ fld xy 12 0 + 80 * sx ≤ width ∧ fld xy 28 16 + 60 * sy ≤ height
    let x := v.dwSettle
    let due := match x.dw.lastProcessed with | none => true | some p => x.dw.lost || decide (stampTime p + 1000000 * fld src 31 16 ≤ stampTime st)
    let pixel (a b : Nat) : Nat := ((List.range sy).foldl (fun n j => n + (List.range sx).foldl (fun m i => m + (luma.getD ((fld xy 28 16 + sy * b + j) * width + fld xy 12 0 + sx * a + i) 0).toNat) 0) 0 + sx * sy / 2) / (sx * sy)
    (s.fuses.optD = false → exec (.dwEnable t) s = .next (v.absentAccess 9) ∧ exec (.dwDisable t) s = .next (v.absentAccess 9) ∧ exec (.dwFreeze on) s = .next (s.absentAccess 9) ∧ exec (.dwFeedGo t) s = .next (v.absentAccess 9)) ∧
    (s.fuses.optD = true →
      (s.dwOn = true → exec (.dwEnable t) s = .next v) ∧
      (s.dwOn = false → (∃ u, exec (.dwEnable t) s = .next u ∧ u.dwOn = true ∧ u.dw.hist = [] ∧ u.dw.prev = none ∧ u.dw.job = none ∧ u.dw.seq = 0 ∧ u.dw.lost = false ∧ u.dw.watchFrom = v.time.now ∧ u.dw.embed = s.dw.embed ∧
          (∀ k : Fin 4, u.dw.out[k] = {}) ∧ (∀ a, a ≠ 0x6000 → u.reg a = s.reg a) ∧ tame u) ∧ exec (.dwDisable t) s = .next v) ∧
      (s.dwOn = true → ∃ u, exec (.dwDisable t) s = .next u ∧ u.dwOn = false ∧ u.dw.job = none ∧ u.dw.prev = none ∧ u.dw.hist = [] ∧ (∀ k : Fin 4, (u.dw.out[k]).level = false) ∧ u.tiles = s.tiles ∧ u.jobs = s.jobs ∧ u.kept = s.kept ∧
        (s.replaying = false → u.dw.sentinel.length = s.dw.sentinel.length + ((List.range 4).filter fun k => (s.dw.out.toList.getD k {}).level).length)) ∧
      (on = (s.reg 0x6000).getLsbD 1 → exec (.dwFreeze on) s = .next s) ∧
      (on ≠ (s.reg 0x6000).getLsbD 1 → ∃ u, exec (.dwFreeze on) s = .next u ∧ (u.reg 0x6000).getLsbD 1 = on ∧ u.dwOn = s.dwOn ∧ u.dw.captured = false ∧ u.dw.embed = s.dw.embed ∧ (∀ a, a ≠ 0x6000 → u.reg a = s.reg a) ∧ tame u) ∧
      (s.dwOn = false ∨ (s.bankWord 0 false 0x6010).getLsbD 0 = false ∨ s.dw.job ≠ none → exec (.dwFeedGo t) s = .next (v.dwFlag 2)) ∧
      (s.dwOn = true → (s.bankWord 0 false 0x6010).getLsbD 0 = true → s.dw.job = none → ∃ u, exec (.dwFeedGo t) s = .next u ∧ u.reg 0x600C = s.reg 0x600C + 1 ∧ u.dw.seq = (s.dw.seq + 1) % 2 ^ 32 ∧
        u.dw.job = some { image := (s.dw.feed.bytes 0 4800).map BitVec.toNat, stamp := 0, feed := true, bankAt := v.time.now } ∧ tame u)) ∧
    (¬ heard → exec (.dwFrame stream st width height luma damaged t) s = .next v) ∧
    (heard → ¬ good → exec (.dwFrame stream st width height luma damaged t) s = .next (v.dwFlag 1)) ∧
    (heard → good → due = false → ∃ u, exec (.dwFrame stream st width height luma damaged t) s = .next u ∧ u.dw.job = none ∧ u.dw.lastGood = some st ∧ u.dw.watchFrom = stampTime st ∧ u.dw.lost = false ∧ u.reg 0x600C = x.reg 0x600C ∧ u.kept = s.kept) ∧
    (heard → good → due = true → ∃ u j, exec (.dwFrame stream st width height luma damaged t) s = .next u ∧ u.dw.job = some j ∧ j.stamp = st ∧ j.feed = false ∧ j.image.length = 4800 ∧
      (∀ a b, a < 80 → b < 60 → j.image.getD (80 * b + a) 0 = pixel a b) ∧ u.dw.lastProcessed = some st ∧ u.dw.lastGood = some st ∧ u.dw.lost = false ∧ u.reg 0x600C = x.reg 0x600C + 1 ∧ u.dw.seq = (x.dw.seq + 1) % 2 ^ 32 ∧ u.kept = s.kept) ∧
    (s.dw.job = none → exec (.dwInferenceDone t) s = .next v) ∧
    (∀ j, s.dw.job = some j → let bank := if j.feed then s.usesOld j.bankAt else s.usesOld (stampTime j.stamp)
      let f := (List.range 64).map fun n => (Config.dwFeature j.image (dwDiff j.image s.dw.prev) n).toNat
      let hist := (f :: s.dw.hist).take 4
      let scores := (List.range 8).map fun c => s.dwScore bank (dwInput hist) c
      let top := dwTop scores
      ∃ u, exec (.dwInferenceDone t) s = .next u ∧ u.dw.job = none ∧ u.dw.prev = some j.image ∧ u.dw.hist = hist ∧ u.dw.top = top ∧ top < 8 ∧ (∀ c, c < 8 → scores.getD c 0 ≤ scores.getD top 0) ∧ (∀ c, c < top → scores.getD c 0 < scores.getD top 0) ∧
        u.dw.det = (if 0 < top ∧ toSigned 32 (s.dwWord bank (0x60 + 4 * top)).toNat ≤ scores.getD top 0 then top else 0) ∧ u.dw.score = scores.getD top 0 ∧
        ((s.reg 0x6000).getLsbD 1 = true → s.dw.captured = false → u.dw.embed = dwInput hist ∧ u.dw.captured = true ∧ (u.reg 0x6004).getLsbD 3 = true) ∧ ((s.reg 0x6000).getLsbD 1 = false ∨ s.dw.captured = true → u.dw.embed = s.dw.embed ∧ u.dw.captured = s.dw.captured) ∧
        (∀ k : Fin 4, let o := s.dw.out[k]
          let cls := fld (s.dwWord bank (0x40 + 4 * k)) 2 0
          let hyst := s.dwWord bank (0x80 + 4 * cls)
          (cls = 0 → u.dw.out[k] = o) ∧
          (1 ≤ cls → cls < 4 → (u.dw.out[k]).on = (if u.dw.det = cls then o.on + 1 else 0) ∧ (u.dw.out[k]).off = (if u.dw.det = cls then 0 else o.off + 1) ∧
            (u.dw.out[k]).level = (if o.level then decide ((u.dw.out[k]).off < max 1 (fld hyst 7 4)) else decide (max 1 (fld hyst 3 0) ≤ (u.dw.out[k]).on))) ∧
          (4 ≤ cls → (u.dw.out[k]).level = o.level)) ∧ u.tiles = s.tiles ∧ u.jobs = s.jobs ∧ u.kept = s.kept) ∧
    (let lost := s.dwOn = true ∧ (s.bankWord 0 false 0x6010).getLsbD 0 = false ∧ s.replaying = false ∧ s.dw.lost = false ∧ s.dw.watchFrom + 1000000 * fld (s.bankWord 0 false 0x601C) 15 0 ≤ v.time.now
     (¬ lost → exec (.dwSourceLost t) s = .next v) ∧
     (lost → ∃ u, exec (.dwSourceLost t) s = .next u ∧ u.dw.lost = true ∧ u.dw.hist = [] ∧ u.dw.prev = none ∧ (u.reg 0x6004).getLsbD 0 = true ∧ u.tiles = s.tiles ∧ u.jobs = s.jobs ∧ u.kept = s.kept ∧
       (∀ k : Fin 4, let w := s.dwWord false (0x40 + 4 * k)
         (u.dw.out[k]).level = if fld w 2 0 = 0 then (s.dw.out[k]).level else w.getLsbD 3)))

/-- R560 to R563, R587 (21). A record reaches its die's ring at once, or in key order through the reorder region, from which the oldest leave early when it is full; an entry that does not fit pushes out the oldest, counted, and the next entry says so; the host ring takes the oldest entry when it has room, after a filler where the end would cut it. -/
def Sys2Proof.Claims.LogResults : Prop :=
  ∀ (s : State) (die : Fin 2) (frontier : Key) (value : Word),
    let w := s.writer die
    let other (u : State) := (∀ e : Fin 2, e ≠ die → u.writer e = s.writer e) ∧ u.tiles = s.tiles ∧ u.jobs = s.jobs ∧ u.resv = s.resv ∧ u.kept = s.kept
    let first := s.logs.made.find? fun r => decide (r.die = die.val)
    let entered (u : State) (r : LogRec) (early : Bool) (kept : List LogEntry) := ∃ e, (u.writer die).ring = kept ++ [e] ∧ e.seq = w.seq ∧ e.bytes = r.bytes ∧ e.keyed = r.key.isSome ∧ e.early = early ∧
      e.lostBefore = (w.lostBefore || decide (kept.length < w.ring.length)) ∧ (u.writer die).seq = (w.seq + 1) % 2 ^ 64 ∧ (u.writer die).lostBefore = false
    let size (l : List LogEntry) := (l.map fun e => entryLen e.bytes).sum
    (first = none → exec (.logRecordArrive die) s = .next s) ∧
    (∀ r, first = some r → ∃ u, exec (.logRecordArrive die) s = .next u ∧ other u ∧
      (s.mesaLive die = false ∨ s.logShut = true → u.writer die = w ∧ u.logs.made.length + 1 = s.logs.made.length) ∧
      (s.mesaLive die = true → s.logShut = false → r.key = none → entryLen r.bytes ≤ s.logRing die → ∃ kept lost, w.ring = lost ++ kept ∧ size kept + entryLen r.bytes ≤ s.logRing die ∧
        (∀ e rest, lost = rest ++ [e] → s.logRing die < size (e :: kept) + entryLen r.bytes) ∧ entered u r false kept ∧ (u.writer die).reorder = w.reorder) ∧
      (s.mesaLive die = true → s.logShut = false → r.key = none → s.logRing die < entryLen r.bytes → (u.writer die).ring = w.ring ∧ (u.writer die).lostBefore = true ∧ (u.writer die).seq = w.seq ∧ (u.reg 0x5074).toNat = min 0xFFFFFFFF ((s.reg 0x5074).toNat + 1)) ∧
      (s.mesaLive die = true → s.logShut = false → r.key ≠ none → let l := insertBy LogRec.order r w.reorder
        ((l.map fun x => entryLen x.bytes).sum ≤ s.logRegion die → (u.writer die).reorder = l ∧ (u.writer die).ring = w.ring ∧ u.logs.made.length + 1 = s.logs.made.length) ∧
        (∃ gone, l = gone ++ (u.writer die).reorder ∧ (((u.writer die).reorder.map fun x => entryLen x.bytes).sum ≤ s.logRegion die)))) ∧
    (w.reorder = [] → exec (.logKeyedRelease die frontier) s = .next s) ∧
    (∀ r rest, w.reorder = r :: rest → (s.mesaLive die = false ∨ frontier.toNat ≤ r.order → exec (.logKeyedRelease die frontier) s = .next s) ∧
      (s.mesaLive die = true → r.order < frontier.toNat → ∃ u, exec (.logKeyedRelease die frontier) s = .next u ∧ (u.writer die).reorder = rest ∧ other u ∧
        (entryLen r.bytes ≤ s.logRing die → ∃ kept lost, w.ring = lost ++ kept ∧ size kept + entryLen r.bytes ≤ s.logRing die ∧ entered u r false kept))) ∧
    (let bytes := (s.reg 0x5068).toNat
     let head := (s.reg 0x506C).toNat
     let tail := (s.reg 0x5070).toNat
     let base := s.getPair 0x5060
     let free := if head = tail then bytes else (head + bytes - tail) % bytes
     let ready := s.mesaLive die = true ∧ s.dmaOk = true ∧ (s.reg 0x5030).getLsbD 2 = true ∧ bytes ≠ 0
     (w.ring = [] ∨ ¬ ready → exec (.logHostCopy die) s = .next s) ∧
     (∀ e rest, w.ring = e :: rest → ready → let n := entryLen e.bytes
       let fill := if tail + n > bytes then bytes - tail else 0
       (free < fill + n → exec (.logHostCopy die) s = .next s) ∧
       (fill + n ≤ free → ∃ u, exec (.logHostCopy die) s = .next u ∧ (u.writer die).ring = rest ∧ (u.writer die).seq = w.seq ∧ other u ∧
         (fill = 0 → u.link.writes = s.link.writes ++ [(base + tail, e.image die)] ∧ u.reg 0x5070 = BitVec.ofNat 32 ((tail + n) % bytes)) ∧
         (fill ≠ 0 → u.link.writes = s.link.writes ++ [(base + tail, fillerEntry fill), (base, e.image die)] ∧ u.reg 0x5070 = BitVec.ofNat 32 (n % bytes))))) ∧
    (∃ u, exec (.logHostHeadWrite value) s = .next u ∧ u.reg 0x506C = value ∧ (∀ a, a ≠ 0x506C → u.reg a = s.reg a) ∧ { u with regs := s.regs } = s)

/-- R50, R51, R567, R568, R576 to R578, R581, R584, R585 (02, 21). A link with CRC errors is recorded, retrains at most three times, and fails for good, which takes an erg die or mesa die 1 out of service; a tile with 16 and a stack with 64 uncorrectable errors in a second leave service; what leaves service loses its LIVE bit and stops its jobs, with records of FATAL severity that set SAFE where MESA_FAULT_CTL asks for it; an access beyond the live capacity is recorded; SAFE is cleared by a write, unless a FATAL fault comes with it. -/
def Sys2Proof.Claims.FaultResults : Prop :=
  ∀ (s : State) (tile : Fin 512) (stack : Fin 8) (link : Fin 11) (interface loader write fatal ok : Bool) (addr flits attempt : Nat) (t : Time),
    let v := s.at t
    let clear := (s.reg 0x5000).getLsbD 0 = false
    let safe (u : State) := u.logs.safe = (s.logs.safe || (s.reg 0x5008).getLsbD 16)
    let stops (u : State) (uses : Job → Prop) (reason : Nat) := (∀ j, s.job j.id = some j → uses j → j.stopped = none → j.running ≠ [] → ∃ j', u.job j.id = some j' ∧ j'.stopped = some reason ∧ j'.running = []) ∧
      ((s.jobs.map Job.id).Nodup → ∀ j ∈ s.jobs, ¬ uses j → j ∈ u.jobs)
    let onTile (n : Nat) (j : Job) : Prop := ∃ q ∈ j.tiles, q / 128 = n
    let recorded (u : State) (n : Nat) := u.logs.made.length = s.logs.made.length + n ∧ (u.reg 0x5000).getLsbD 0 = true ∧ u.tiles = s.tiles ∧ u.jobs = s.jobs ∧ u.live = s.live ∧ u.kept = s.kept
    (s.linkPresent link = false → exec (.delluFlitCrcFail link flits t) s = .next v ∧ exec (.delluRetrain link attempt t) s = .next v ∧ exec (.linkFailed link t) s = .next v) ∧
    (s.linkPresent link = true →
      (∃ u, exec (.delluFlitCrcFail link flits t) s = .next u ∧ u.net = s.net ∧ (clear → recorded u 1) ∧ (¬ clear → recorded u 0)) ∧
      (attempt ≠ s.net.attempt link + 1 ∨ 3 < attempt → exec (.delluRetrain link attempt t) s = .next v) ∧
      (attempt = s.net.attempt link + 1 → attempt ≤ 3 → ∃ u, exec (.delluRetrain link attempt t) s = .next u ∧ u.net.attempt link = attempt ∧ (∀ n, n ≠ link.val → u.net.attempt n = s.net.attempt n) ∧
        u.net.hops = s.net.hops ∧ u.net.hopUsed = s.net.hopUsed ∧ u.logs.made.length = s.logs.made.length + 1 ∧ u.tiles = s.tiles ∧ u.jobs = s.jobs ∧ u.kept = s.kept) ∧
      (s.net.attempt link < 3 → exec (.linkFailed link t) s = .next v) ∧
      (3 ≤ s.net.attempt link → link.val ≠ 10 → ∃ u, exec (.linkFailed link t) s = .next u ∧ u.ergLive (s.linkErg link) = false ∧ (∀ n, n ≠ s.linkErg link → u.ergLive n = s.ergLive n) ∧ safe u ∧
        (∀ j, s.job j.id = some j → onTile (s.linkErg link) j → j.stopped = none → j.running ≠ [] → ∃ j', u.job j.id = some j' ∧ j'.stopped = some 0x10) ∧ s.logs.made.length + 2 ≤ u.logs.made.length) ∧
      (3 ≤ s.net.attempt link → link.val = 10 → ∃ u, exec (.linkFailed link t) s = .next u ∧ u.mesaLive 1 = false ∧ u.mesaLive 0 = true ∧ (∀ c, c < 4 → u.dflLive c = (s.dflLive c && decide (c < 2))) ∧ (∀ c ∈ u.cycles, c.die ≠ 1) ∧ u.die 1 = {} ∧ safe u)) ∧
    exec (.delluRetrainDone link false) s = .next s ∧
    (∃ u, exec (.delluRetrainDone link true) s = .next u ∧ u.net.attempt link = 0 ∧ (∀ n, n ≠ link.val → u.net.attempt n = s.net.attempt n) ∧ u.net.hops = s.net.hops ∧ { u with net := s.net } = s) ∧
    (let bad := s.tileOn tile = true ∧ 16 ≤ (s.logs.tileUe.filter fun e => decide (e.1 = tile.val ∧ v.time.now < e.2 + 1000000000)).length
     (¬ bad → exec (.tileFatal tile t) s = .next v) ∧
     (bad → ∃ u, exec (.tileFatal tile t) s = .next u ∧ u.tileOn tile = false ∧ (∀ n, n < 512 → n ≠ tile.val → u.tileLive.getLsbD n = s.tileLive.getLsbD n) ∧ u.live = s.live ∧ safe u ∧ stops u (fun j => tile.val ∈ j.tiles) 0x10)) ∧
    (let bad := s.stackLive stack = true ∧ (interface = true ∨ 64 ≤ (s.logs.stackUe.filter fun e => decide (e.1 = stack.val ∧ v.time.now < e.2 + 1000000000)).length)
     (¬ bad → exec (.stackFailed stack interface t) s = .next v) ∧
     (bad → ∃ u, exec (.stackFailed stack interface t) s = .next u ∧ u.stackLive stack = false ∧ (∀ n, n < 8 → n ≠ stack.val → u.stackLive n = s.stackLive n) ∧ u.tileLive = s.tileLive ∧ safe u ∧ stops u (fun j => s.usesStack j stack = true) 0x10)) ∧
    (addr < s.liveBytes → exec (.reservoirRange addr loader write t) s = .next v) ∧
    (s.liveBytes ≤ addr → ∃ u, exec (.reservoirRange addr loader write t) s = .next u ∧ (u.reg 0x5000).getLsbD 1 = true ∧ u.logs.made.length = s.logs.made.length + 1 ∧ u.resv = s.resv ∧ u.tiles = s.tiles ∧ u.jobs = s.jobs ∧ u.kept = s.kept) ∧
    exec (.safeClear fatal) s = .next (if fatal then s else { s with logs := { s.logs with safe := false } })

/-- R483, R532 to R546, R551, R555, R557 (18, 20). A chip without power answers nothing but power-up; power-up starts it with every output off and its limp store as crest; ten TIME frames within 20 ns lock it, 2 ms without one lose the lock and hold the outputs, or lead to LIMP; the limp pins choose the entries that LIMP gives the outputs; undervoltage, overvoltage and an overlong crank end every command; a trip turns off what its mask names until it is cleared with the input inactive; RELEASE ends HOLD_LAST and LIMP while the heartbeat is there. It rests on the model's own readings in log 63 and log 64. -/
def Obligations.ChipSupervisorResults : Prop :=
  ∀ (s : State) (n : Fin 4) (vs us stable station err ns mask : Nat) (sensor : Int) (lh0 lh1 level : Bool) (k : Fin 4) (o : Fin 12) (pins : Vector Bool 4) (t : Time),
    let c := s.chips[n]
    let goes := s.ChipGoes n
    let cfg := c.crest.word (0x6B0 + 4 * k.val)
    (c.powered = false → exec (.bzPowerupTimeout n t) s = .next s ∧ exec (.bzLogicReset n vs) s = .next s ∧ exec (.bzTimeFrame n station err t) s = .next s ∧ exec (.bzHeartbeatLoss n t) s = .next s ∧ exec (.bzHoldLastEnd n t) s = .next s ∧
      exec (.bzLimpPinChange n lh0 lh1 stable t) s = .next s ∧ exec (.bzLimpEntryStart n o t) s = .next s ∧ exec (.bzOvervolt n vs us t) s = .next s ∧ exec (.bzUndervolt n vs t) s = .next s ∧ exec (.bzCrankEnter n vs t) s = .next s ∧
      exec (.bzCrankEnd n vs us) s = .next s ∧ exec (.bzCrankTimeout n t) s = .next s ∧ exec (.bzSupplyRecover n vs us t) s = .next s ∧ exec (.vsSample n vs) s = .next s ∧ exec (.bzTrip n k level ns t) s = .next s ∧
      exec (.bzTripClear n mask pins t) s = .next s ∧ exec (.bzRelease n) s = .next s ∧ exec (.bzEnterLimp n t) s = .next s) ∧
    (c.powered = true ∨ vs ≤ 4000 → exec (.bzPowerUp n vs sensor lh0 lh1 t) s = .next s) ∧
    (c.powered = false → 4000 < vs → goes (exec (.bzPowerUp n vs sensor lh0 lh1 t) s) fun x => x.powered = true ∧ x.supervisor = .powerup ∧ x.locked = false ∧ x.powerAt = t ∧ x.vs = vs ∧ x.lh0 = lh0 ∧ x.lh1 = lh1 ∧ x.storeA = c.storeA ∧ x.storeB = c.storeB ∧
      x.crest = (match c.storeNewest with | some y => y.2 | none => []) ∧ x.lee = x.crest ∧ x.retiring = none ∧ x.schedule = [] ∧ x.tx = [] ∧ x.sts.getLsbD 20 = c.storeNewest.isNone ∧ ∀ m : Fin 12, (x.hs[m]).state = .off ∧ (x.hs[m]).on = false ∧ (x.sol[m]).low = false) ∧
    (c.powered = true →
      (3500 ≤ vs → exec (.bzLogicReset n vs) s = .next s) ∧
      (vs < 3500 → goes (exec (.bzLogicReset n vs) s) fun x => x = { storeA := c.storeA, storeB := c.storeB, vBst := c.vBst, vs := vs }) ∧
      (c.supervisor ≠ .powerup ∨ t < c.powerAt + 100000000 → exec (.bzPowerupTimeout n t) s = .next s) ∧
      (c.supervisor = .powerup → c.powerAt + 100000000 ≤ t → goes (exec (.bzPowerupTimeout n t) s) c.Limps) ∧
      (let run := if c.lastTime + 2000000 ≤ t then 1 else c.timeRun + 1
       (c.locked = false → 10 ≤ run → err ≤ 20 → goes (exec (.bzTimeFrame n station err t) s) fun x => x.locked = true ∧ x.supervisor = (if c.supervisor = .powerup then .run else c.supervisor) ∧ x.timeRun = run ∧ x.lastTime = t ∧ x.clock = station ∧
         x.tx.length = c.tx.length + 2 ∧ x.hs = c.hs ∧ x.sol = c.sol ∧ x.crest = c.crest) ∧
       (c.locked = true ∨ run < 10 ∨ 20 < err → goes (exec (.bzTimeFrame n station err t) s) fun x => x = { c with timeRun := run, lastTime := t, clock := station })) ∧
      (c.locked = false ∨ t < c.lastTime + 2000000 → exec (.bzHeartbeatLoss n t) s = .next s) ∧
      (c.locked = true → c.lastTime + 2000000 ≤ t → goes (exec (.bzHeartbeatLoss n t) s) fun x => x.locked = false ∧ x.timeRun = 0 ∧ x.lossAt = t ∧ x.sts.getLsbD 18 = true ∧
        (c.supervisor = .run → c.holdLastMs = 0 → c.Limps x) ∧ (c.supervisor = .run → c.holdLastMs ≠ 0 → x.supervisor = .holdLast ∧ x.hs = c.hs ∧ x.sol = c.sol) ∧ (c.supervisor ≠ .run → x.supervisor = c.supervisor ∧ x.hs = c.hs ∧ x.sol = c.sol)) ∧
      (let due := c.supervisor = .holdLast ∧ c.holdLastMs ≠ 0xFFFF ∧ c.lossAt + 1000000 * c.holdLastMs ≤ t
       (¬ due → exec (.bzHoldLastEnd n t) s = .next s) ∧ (due → goes (exec (.bzHoldLastEnd n t) s) c.Limps)) ∧
      (let a := { c with lh0 := lh0, lh1 := lh1 }
       (stable < 10000 → exec (.bzLimpPinChange n lh0 lh1 stable t) s = .next s) ∧
       (10000 ≤ stable → c.supervisor ≠ .limp ∨ a.limpIndex = c.limpIndex → goes (exec (.bzLimpPinChange n lh0 lh1 stable t) s) fun x => x = a) ∧
       (10000 ≤ stable → c.supervisor = .limp → a.limpIndex ≠ c.limpIndex → goes (exec (.bzLimpPinChange n lh0 lh1 stable t) s) fun x => a.Limps x ∧ x.lh0 = lh0 ∧ x.lh1 = lh1)) ∧
      (let first := o.val ∈ c.limpPend ∧ ∀ m ∈ c.limpPend, m / 4 = o.val / 4 → o.val ≤ m
       let busy := ∃ w ∈ c.bank[bankOf o].windows, ∃ e, w.peakEnd = some e ∧ w.start ≤ t ∧ t < e
       let p := solProf c.crest (c.limpByte (12 + o.val) / 4)
       let held := c.sol[o].phase = .fault ∨ c.sol[o].toFault = true ∨ c.solTrip o.val = true ∨ c.supplyHeld = true
       let room := (c.crank || c.sumsOk c.crest (liveWins c.bank[bankOf o].windows t) o p (c.solWin o p t)) && (p.peakI == 0 || c.energyOk o p (t / 1000))
       (c.supervisor ≠ .limp ∨ ¬ first ∨ busy → exec (.bzLimpEntryStart n o t) s = .next s) ∧
       (c.supervisor = .limp → first → ¬ busy → goes (exec (.bzLimpEntryStart n o t) s) fun x => x.limpPend = c.limpPend.filter (· != o.val) ∧ x.hs = c.hs ∧ x.crest = c.crest ∧
         (held → x.sol = c.sol) ∧ (¬ held → room = false → (x.sol[o]).low = false ∧ (x.sol[o]).phase = (if c.sol[o].running then .decay else c.sol[o].phase) ∧ ∀ m : Fin 12, m ≠ o → x.sol[m] = c.sol[m]) ∧ (¬ held → room = true → p.peakI ≠ 0 → (x.sol[o]).phase = .peak ∧ (x.sol[o]).low = true ∧ (x.sol[o]).prof = p ∧ (x.sol[o]).peakStart = t ∧ ∀ m : Fin 12, m ≠ o → x.sol[m] = c.sol[m]))) ∧
      (37000 < vs → 10 ≤ us → c.overV = false → goes (exec (.bzOvervolt n vs us t) s) fun x => x.overV = true ∧ x.vs = vs ∧ x.sts.getLsbD 17 = true ∧ c.Ends x) ∧
      (vs ≤ 37000 ∨ us < 10 ∨ c.overV = true → goes (exec (.bzOvervolt n vs us t) s) fun x => x = { c with vs := vs }) ∧
      (4500 ≤ vs → goes (exec (.bzUndervolt n vs t) s) fun x => x = { c with vs := vs }) ∧
      (vs < 4500 → c.underV = true → goes (exec (.bzUndervolt n vs t) s) fun x => x = { c with vs := vs, crank := false }) ∧
      (vs < 4500 → c.underV = false → goes (exec (.bzUndervolt n vs t) s) fun x => x.underV = true ∧ x.crank = false ∧ x.vs = vs ∧ x.sts.getLsbD 16 = true ∧ c.Ends x) ∧
      (let cranks := 4500 ≤ vs ∧ vs < 6000 ∧ c.crank = false ∧ c.underV = false
       (cranks → goes (exec (.bzCrankEnter n vs t) s) fun x => x = { c with vs := vs, crank := true, crankAt := t, charging := false }) ∧ (¬ cranks → goes (exec (.bzCrankEnter n vs t) s) fun x => x = { c with vs := vs })) ∧
      goes (exec (.bzCrankEnd n vs us) s) (fun x => x = { c with vs := vs, crank := c.crank && !(decide (6000 ≤ vs) && decide (1000 ≤ us)) }) ∧
      (let long := c.crank = true ∧ c.crankAt + 1000000 * max 1 (min 50 (fld (c.crest.word 0x6A0) 5 0)) ≤ t
       (¬ long → exec (.bzCrankTimeout n t) s = .next s) ∧ (long → goes (exec (.bzCrankTimeout n t) s) fun x => x.underV = true ∧ x.crank = false ∧ (c.underV = false → c.Ends x ∧ x.sts.getLsbD 16 = true) ∧ (c.underV = true → x.hs = c.hs ∧ x.sol = c.sol))) ∧
      (let back := 6000 ≤ vs ∧ vs ≤ 36000 ∧ 1000 ≤ us ∧ c.supplyHeld = true
       let a := { c with vs := vs, underV := false, overV := false }
       (¬ back → goes (exec (.bzSupplyRecover n vs us t) s) fun x => x = { c with vs := vs }) ∧ (back → c.supervisor ≠ .limp → goes (exec (.bzSupplyRecover n vs us t) s) fun x => x = a) ∧
       (back → c.supervisor = .limp → goes (exec (.bzSupplyRecover n vs us t) s) fun x => a.Limps x ∧ x.underV = false ∧ x.overV = false)) ∧
      goes (exec (.vsSample n vs) s) (fun x => x = { c with vs := vs, vsWin := (vs :: c.vsWin).take 256 }) ∧
      (ns < 500 → exec (.bzTrip n k level ns t) s = .next s) ∧ (500 ≤ ns → cfg.getLsbD 0 = false ∨ level ≠ cfg.getLsbD 1 → goes (exec (.bzTrip n k level ns t) s) fun x => x = { c with tripPins := c.tripPins.set k (level == cfg.getLsbD 1) }) ∧
      (cfg.getLsbD 0 = true → level = cfg.getLsbD 1 → 500 ≤ ns → goes (exec (.bzTrip n k level ns t) s) fun x => x.trips = c.trips.set k true ∧ x.tripPins = c.tripPins.set k true ∧ x.schedule = c.schedule ∧ x.supervisor = c.supervisor ∧ x.crest = c.crest ∧
        (∀ m : Fin 12, x.hsTrip m.val = true → c.hsTrip m.val = false → x.hsUpper m.val = false → (x.hs[m]).on = false ∧ (x.hs[m]).act = 2) ∧ (∀ m : Fin 12, (∀ q : Fin 12, x.hsTrip q.val = true → x.hsRep q.val ≠ m.val) → x.hs[m] = c.hs[m]) ∧
        (∀ m : Fin 12, x.solTrip m.val = true → c.solTrip m.val = false → (x.sol[m]).low = false) ∧ (∀ m : Fin 12, x.solTrip m.val = false ∨ c.solTrip m.val = true → x.sol[m] = c.sol[m])) ∧
      goes (exec (.bzTripClear n mask pins t) s) (fun x => x.tripPins = pins ∧ (∀ m : Fin 4, x.trips[m] = (c.trips[m] && (!mask.testBit m.val || pins[m]))) ∧ ((∃ m : Fin 4, mask.testBit m.val = true ∧ c.trips[m] = true ∧ pins[m] = true) → x.sts.getLsbD 21 = true) ∧
        (c.supervisor ≠ .limp → x.hs = c.hs ∧ x.sol = c.sol) ∧ x.supervisor = c.supervisor) ∧
      (c.locked = true → c.stateHeld = true → goes (exec (.bzRelease n) s) fun x => x = { c with supervisor := .run, limpPend := [] }) ∧
      (c.locked = false ∨ c.stateHeld = false → goes (exec (.bzRelease n) s) fun x => x.sts = c.sts ||| oneBit 22 ∧ x.supervisor = c.supervisor ∧ x.hs = c.hs ∧ x.sol = c.sol ∧ x.limpPend = c.limpPend) ∧
      (c.supervisor = .limp → exec (.bzEnterLimp n t) s = .next s) ∧ (c.supervisor ≠ .limp → goes (exec (.bzEnterLimp n t) s) c.Limps))

/-- R320, R323 to R325, R327, R328, R454, R458, R547 to R549, R552 (12, 17, 20). A register frame answers with data, BAD_OFFSET outside the register space, and the former answer to a repeated TAG; a changed sample becomes a status event; frames leave in the order of their kinds under the next LSEQ; the limp store keeps its last good copy; PREPARE opens the lee block unless the retiring bank still holds an event, chunks land in it, and at the slip point it becomes crest while events stamped before keep the former one. It rests on the model's own readings in log 61. -/
def Obligations.ChipFrameResults : Prop :=
  ∀ (s : State) (n : Fin 4) (tag off id chunk id8 : Nat) (data : Word) (bytes : List Byte) (point t : Time) (ok : Bool),
    let c := s.chips[n]
    let goes := s.ChipGoes n
    let fresh := ∀ g f, c.lastReg = some (g, f) → g ≠ tag
    let answers (x : Chip) (f : BzFrame) := x.tx = c.tx ++ [f] ∧ x.lastReg = some (tag, f)
    let kept := c.retiring ≠ none ∧ ∃ e ∈ c.schedule, stampTime e.ev.stamp < c.slipPoint
    (c.powered = false → exec (.bzRegRead n tag off t) s = .next s ∧ exec (.bzRegWrite n tag off data t) s = .next s ∧ exec (.bzStatusSample n t) s = .next s ∧ exec (.bzPeriodicStatus n t) s = .next s ∧ exec (.bzIdentStatus n) s = .next s ∧
      exec (.bzFrameSend n) s = .next s ∧ exec (.bzLimpStoreDone n ok) s = .next s ∧ exec (.bzSlipPrepare n id) s = .next s ∧ exec (.bzLeeData n chunk id8 bytes t) s = .next s ∧ exec (.bzSlipCommit n id point) s = .next s ∧
      exec (.bzSlipAbort n id) s = .next s ∧ exec (.bzSlipPoint n t) s = .next s ∧ exec (.bzReseatSwitch n t) s = .next s ∧ exec (.bzDflFrameDiscard n) s = .next s) ∧
    (c.powered = true →
      (∀ f, c.lastReg = some (tag, f) → goes (exec (.bzRegRead n tag off t) s) (fun x => x = { c with tx := c.tx ++ [f] }) ∧ goes (exec (.bzRegWrite n tag off data t) s) fun x => x = { c with tx := c.tx ++ [f] }) ∧
      (fresh → off % 4 ≠ 0 ∨ 0x400 ≤ off → goes (exec (.bzRegRead n tag off t) s) (fun x => answers x (.regData 1 tag off 0) ∧ { x with tx := c.tx, lastReg := c.lastReg } = c) ∧
        goes (exec (.bzRegWrite n tag off data t) s) fun x => answers x (.regData 1 tag off 0) ∧ { x with tx := c.tx, lastReg := c.lastReg } = c) ∧
      (fresh → off % 4 = 0 → off < 0x400 → (∃ v, c.regRead off = some v ∧ goes (exec (.bzRegRead n tag off t) s) fun x => answers x (.regData 0 tag off v) ∧ { x with tx := c.tx, lastReg := c.lastReg } = c) ∧
        goes (exec (.bzRegWrite n tag off data t) s) fun x => (∃ v, answers x (.regData 0 tag off v)) ∧ x.crest = c.crest ∧ x.schedule = c.schedule ∧ (off = 0x004 → x.sts = c.sts &&& ~~~data ∧ x.hs = c.hs ∧ x.sol = c.sol) ∧
          (off = 0x340 → x.bstSts = c.bstSts &&& ~~~data ∧ x.hs = c.hs ∧ x.sol = c.sol) ∧ (off = 0x010 → data.getLsbD 1 = true → x.supervisor = .limp) ∧
          (off = 0x010 → data.getLsbD 0 = true → data.getLsbD 1 = false → c.locked = true → c.stateHeld = true → x.supervisor = .run) ∧
          (off = 0 ∨ off = 8 ∨ off = 0x14 ∨ off = 0x344 ∨ (0x300 ≤ off ∧ off < 0x330) ∨ (0x380 ≤ off ∧ off < 0x3B0) → { x with tx := c.tx, lastReg := c.lastReg } = c)) ∧
      (c.locked = true → c.reported ≠ some c.sample → goes (exec (.bzStatusSample n t) s) fun x =>
        x = { c with tx := c.tx ++ [.status 1 c.eseq (t / 1000 * 1000) c.sample c.vsUnits bzRev], eseq := (c.eseq + 1) % 256, reported := some c.sample }) ∧
      (c.locked = false ∨ c.reported = some c.sample → exec (.bzStatusSample n t) s = .next s) ∧
      goes (exec (.bzPeriodicStatus n t) s) (fun x => x = { c with tx := c.tx ++ [.status 0 c.eseq t c.sample c.vsUnits bzRev] }) ∧
      goes (exec (.bzIdentStatus n) s) (fun x => x = { c with tx := c.tx ++ [.status 2 c.eseq c.crest.sum c.sample c.vsUnits bzRev] }) ∧
      (c.tx = [] → exec (.bzFrameSend n) s = .next s) ∧
      (c.tx ≠ [] → goes (exec (.bzFrameSend n) s) fun x => ∃ f ∈ c.tx, (∀ g ∈ c.tx, f.prio ≤ g.prio) ∧ x = { c with tx := c.tx.erase f, wire := c.wire ++ [f.bytes c.lseq], lseq := (c.lseq + 1) % 256 }) ∧
      (c.storeBusy = false → exec (.bzLimpStoreDone n ok) s = .next s) ∧
      (c.storeBusy = true → ok = true → goes (exec (.bzLimpStoreDone n ok) s) fun x => x.storeBusy = false ∧ x.storeNewest = some ((match c.storeNewest with | some y => y.1 | none => 0) + 1, limpSection c.crest) ∧
        (x.storeA = c.storeA ∨ x.storeB = c.storeB) ∧ { x with storeBusy := true, storeA := c.storeA, storeB := c.storeB } = c) ∧
      (c.storeBusy = true → ok = false → goes (exec (.bzLimpStoreDone n ok) s) fun x => x = { c with storeBusy := false, sts := c.sts ||| oneBit 19 }) ∧
      (kept → goes (exec (.bzSlipPrepare n id) s) fun x => x = { c with tx := c.tx ++ [.slipAck 2 6 id 0] }) ∧
      (¬ kept → goes (exec (.bzSlipPrepare n id) s) fun x => x = { c with preparing := true, slipId := id, chunks := [], armed := none, retiring := none, lee := if c.retiring = none then c.lee else c.crest }) ∧
      (chunk < 32 → c.preparing = false ∨ c.slipId % 256 = id8 → goes (exec (.bzLeeData n chunk id8 bytes t) s) fun x => x.tx = c.tx ++ [.reply (0xF000 + chunk) 0 t] ∧ (∀ m, m ∈ x.chunks ↔ m = chunk ∨ m ∈ c.chunks) ∧ x.crest = c.crest ∧
        (∀ i, i < 16 → x.lee.word (64 * chunk + 4 * i) = BitVec.ofNat 32 (leAt bytes (4 * i) 4)) ∧ (∀ a, a < 64 * chunk ∨ 64 * chunk + 64 ≤ a → x.lee.word a = c.lee.word a)) ∧
      (32 ≤ chunk ∨ (c.preparing = true ∧ c.slipId % 256 ≠ id8) → exec (.bzLeeData n chunk id8 bytes t) s = .next s) ∧
      (c.preparing = true → c.slipId = id → goes (exec (.bzSlipCommit n id point) s) fun x => x = { c with armed := some point, tx := c.tx ++ [.slipAck 3 0 id c.lee.sum] }) ∧
      (c.preparing = false ∨ c.slipId ≠ id → exec (.bzSlipCommit n id point) s = .next s) ∧
      (c.slipId = id → goes (exec (.bzSlipAbort n id) s) fun x => x = { c with preparing := false, armed := none, chunks := [] }) ∧ (c.slipId ≠ id → exec (.bzSlipAbort n id) s = .next s) ∧
      (c.armed = none ∨ (∃ p, c.armed = some p ∧ t < p) → exec (.bzSlipPoint n t) s = .next s) ∧
      (∀ p, c.armed = some p → p ≤ t → goes (exec (.bzSlipPoint n t) s) fun x => x.crest = c.lee ∧ x.lee = c.lee ∧ x.slipPoint = p ∧ x.armed = none ∧ x.preparing = false ∧ x.chunks = [] ∧ x.schedule = c.schedule ∧ x.supervisor = c.supervisor ∧
        ((∃ e ∈ c.schedule, stampTime e.ev.stamp < p) → x.retiring = some c.crest) ∧ ((∀ e ∈ c.schedule, p ≤ stampTime e.ev.stamp) → x.retiring = none) ∧
        x.storeBusy = (c.storeBusy || decide (limpSection c.crest ≠ limpSection c.lee)) ∧ x.tx.length = c.tx.length + 1) ∧
      (let whole := c.preparing = false ∧ c.armed = none ∧ c.chunks.length = 32 ∧ c.schedule = []
       (¬ whole → exec (.bzReseatSwitch n t) s = .next s) ∧ (whole → goes (exec (.bzReseatSwitch n t) s) fun x => x.crest = c.lee ∧ x.lee = c.lee ∧ x.retiring = none ∧ x.chunks = [] ∧ x.schedule = [] ∧ x.supervisor = c.supervisor ∧ x.tx.length = c.tx.length + 1)) ∧
      (c.locked = true → exec (.bzDflFrameDiscard n) s = .next s) ∧ (c.locked = false → goes (exec (.bzDflFrameDiscard n) s) fun x => x = { c with timeRun := 0 }))

/-- R455, R456, R464 to R493 (18). A chip's protected high-side channels: an event is answered once and scheduled, it takes effect at its time or is suppressed while the channel is held, and a reflex command takes effect on its first copy; PWM periods, pulses and checks follow their times; an overload, a hot junction, the wire model, the clamp energy and a pair's imbalance turn the channel off into the state the rules give; a flag clears unless its cause stands. It rests on the model's own readings in log 61. -/
def Obligations.ChipHighSideResults : Prop :=
  ∀ (s : State) (n : Fin 4) (k : Fin 12) (ev : BzEvent) (rf : BzReflex) (ma mb lim uj mv us : Nat) (j : Int) (mask : Word) (t : Time),
    let c := s.chips[n]
    let h := c.hs[k]
    let goes := s.ChipGoes n
    let one := fun (r : Host.Outcome State Fault Refusal) (p : HsChan → Prop) => s.ChipGoes n r fun x => c.HsGoes x k p
    let off := fun (x : HsChan) => x.on = false ∧ x.limUs = 0 ∧ x.act = h.act ∧ x.w0 = h.w0 ∧ x.w1 = h.w1 ∧ x.x = h.x
    (c.powered = false → exec (.bzHsEventReceive n ev t) s = .next s ∧ exec (.bzReflexReceive n rf t) s = .next s ∧ exec (.bzHsEventFire n k t) s = .next s ∧ exec (.hsPulseEnd n k t) s = .next s ∧ exec (.hsPwmPeriod n k t) s = .next s ∧
      exec (.hsPwmOffEdge n k ma t) s = .next s ∧ exec (.hsDcOlCheck n k ma t) s = .next s ∧ exec (.hsOverload n k lim t) s = .next s ∧ exec (.hsRetryEnd n k j t) s = .next s ∧ exec (.hsRetryReset n k t) s = .next s ∧
      exec (.hsMWindowEnd n k t) s = .next s ∧ exec (.hsThermalShutdown n k j t) s = .next s ∧ exec (.hsThermalRestart n k j t) s = .next s ∧ exec (.hsFuseUpdate n k ma t) s = .next s ∧ exec (.hsCompUpdate n k) s = .next s ∧
      exec (.hsClampEnd n k uj t) s = .next s ∧ exec (.hsOlOffSourceOn n k mv t) s = .next s ∧ exec (.hsOlOffSample n k mv t) s = .next s ∧ exec (.hsPairImbalance n k ma mb us t) s = .next s ∧ exec (.hsFlagClear n k mask j t) s = .next s) ∧
    (c.powered = true →
      (let p := hsProf (c.evBank ev.stamp) ev.profile
       let bad := 12 ≤ ev.index ∨ ev.action = 0 ∨ 4 < ev.action ∨ 63 < ev.profile ∨ (ev.action = 3 ∧ (ev.durationUs = 0 ∨ 16000000 < ev.durationUs)) ∨ c.hsEn ev.index = false ∨ c.hsUpper ev.index = true ∨ hpBad p.1 p.2 = true
       let held := c.supervisor = .powerup ∨ ∃ m : Fin 12, m.val = ev.index ∧ c.hsHeld m = true
       (bad → goes (exec (.bzHsEventReceive n ev t) s) fun x => x = { c with tx := c.tx ++ [.reply ev.id 4 t] }) ∧
       (¬ bad → held → goes (exec (.bzHsEventReceive n ev t) s) fun x => x = { c with tx := c.tx ++ [.reply ev.id 3 t] }) ∧
       (¬ bad → ¬ held → goes (exec (.bzHsEventReceive n ev t) s) fun x => x = { c with schedule := c.schedule ++ [{ ev := ev, start := ev.fire }], tx := c.tx ++ [.reply ev.id 0 t] })) ∧
      ((∀ q ∈ c.schedule, q.ev.kind = 0 → q.ev.index = k.val → t < q.start) → exec (.bzHsEventFire n k t) s = .next s) ∧
      (∀ q, c.dueEvent 0 k t = some q → q ∈ c.schedule ∧ q.ev.kind = 0 ∧ q.ev.index = k.val ∧ q.start ≤ t ∧ (∀ r ∈ c.schedule, r.ev.kind = 0 → r.ev.index = k.val → q.start ≤ r.start) ∧
        goes (exec (.bzHsEventFire n k t) s) fun x => x.schedule = c.schedule.erase q ∧ x.crest = c.crest ∧ x.tx = c.tx ∧ x.sol = c.sol ∧ (x.retiring = c.retiring ∨ x.retiring = none) ∧ (∀ m : Fin 12, m ≠ k → x.hs[m] = c.hs[m]) ∧
          (c.hsHeld k = true ∨ c.hsUpper k.val = true → x.hs[k] = h.flag 10) ∧
          (c.hsHeld k = false → c.hsUpper k.val = false → let p := hsProf (c.evBank q.ev.stamp) q.ev.profile
            h.Takes x.hs[k] q.ev.action p.1 p.2 (c.dutyOf p.1 p.2) q.ev.durationUs t)) ∧
      (c.lastReflex = some rf.lseq → goes (exec (.bzReflexReceive n rf t) s) fun x => x = { c with lastReflex := none }) ∧
      (c.lastReflex ≠ some rf.lseq → rf.kind = 0 → let c1 := { c with lastReflex := some rf.lseq }
        let p := hsProf c.crest rf.profile
        (12 ≤ rf.index → goes (exec (.bzReflexReceive n rf t) s) fun x => x = c1) ∧
        (rf.index = k.val → c.hsCheck rf.action k.val rf.profile rf.durationUs c.crest ≠ 0 → goes (exec (.bzReflexReceive n rf t) s) fun x => c1.HsGoes x k fun y => y = h.flag 10) ∧
        (rf.index = k.val → c.hsCheck rf.action k.val rf.profile rf.durationUs c.crest = 0 → goes (exec (.bzReflexReceive n rf t) s) fun x => c1.HsGoes x k fun y => h.Takes y rf.action p.1 p.2 (c.dutyOf p.1 p.2) rf.durationUs t)) ∧
      (h.pulseEnd = none ∨ (∃ e, h.pulseEnd = some e ∧ t < e) → exec (.hsPulseEnd n k t) s = .next s) ∧
      (∀ e, h.pulseEnd = some e → e ≤ t → one (exec (.hsPulseEnd n k t) s) fun x => h.Takes x 2 h.w0 h.w1 (c.dutyOf h.w0 h.w1) 0 t) ∧
      (let next := h.periodStart + 1000 * hpPeriod h.w0
       let width := onTimeNs h.nextDuty (hpPeriod h.w0) (hpStretch h.w1) (h.period + 1)
       (h.state ≠ .pwm ∨ t < next → exec (.hsPwmPeriod n k t) s = .next s) ∧
       (h.state = .pwm → next ≤ t → one (exec (.hsPwmPeriod n k t) s) fun x => x.state = .pwm ∧ x.period = h.period + 1 ∧ x.periodStart = next ∧ x.duty = h.nextDuty ∧ x.offAt = next + width ∧ x.on = decide (width ≠ 0) ∧ x.act = h.act ∧ x.w0 = h.w0 ∧ x.w1 = h.w1 ∧
         x.sts = h.sts ∧ x.x = h.x ∧ x.ol = h.ol) ∧
       (h.state ≠ .pwm ∨ h.on = false ∨ t < h.offAt ∨ next ≤ h.offAt → exec (.hsPwmOffEdge n k ma t) s = .next s) ∧
       (h.state = .pwm → h.on = true → h.offAt ≤ t → h.offAt < next → one (exec (.hsPwmOffEdge n k ma t) s) fun x => x.state = .pwm ∧ off x ∧ x.offSince = h.offAt ∧ x.olActive = true ∧ h.Assessed x true (c.olCount k.val) (c.olOnResult k (h.offAt - h.periodStart) ma)) ∧
       (let due := (h.state = .onDc ∨ (h.state = .pwm ∧ next ≤ h.offAt)) ∧ h.on = true ∧ h.onSince + 10000000 ≤ t ∧ h.lastOnCheck + 10000000 ≤ t
        (¬ due → exec (.hsDcOlCheck n k ma t) s = .next s) ∧ (due → one (exec (.hsDcOlCheck n k ma t) s) fun x => x.state = h.state ∧ x.on = true ∧ x.lastOnCheck = t ∧ h.Assessed x true (c.olCount k.val) (c.olOnResult k 50000 ma)))) ∧
      (h.on = false ∨ lim < c.hsLimTime k.val → one (exec (.hsOverload n k lim t) s) fun x => x = { h with limUs := lim }) ∧
      (h.on = true → c.hsLimTime k.val ≤ lim → hpInrush h.w1 = 1 → h.retries < 8 → one (exec (.hsOverload n k lim t) s) fun x => x.state = .retryWait ∧ off x ∧ x.waitEnd = t + 2000000 ∧ x.retries = h.retries + 1 ∧ x.sts = h.sts ||| oneBit 0 ∧ x.latch = h.latch) ∧
      (h.on = true → c.hsLimTime k.val ≤ lim → hpInrush h.w1 ≠ 1 ∨ 8 ≤ h.retries → one (exec (.hsOverload n k lim t) s) fun x => x.Faulted 0) ∧
      (let back := h.state = .retryWait ∧ h.waitEnd ≤ t ∧ j ≤ 320
       (¬ back → one (exec (.hsRetryEnd n k j t) s) fun x => x = { h with junction := j }) ∧ (back → one (exec (.hsRetryEnd n k j t) s) fun x => x.Runs (c.dutyOf h.w0 h.w1) t ∧ x.act = h.act ∧ x.w0 = h.w0 ∧ x.w1 = h.w1 ∧ x.retries = h.retries ∧ x.junction = j ∧ x.sts = h.sts)) ∧
      (let calm := (h.state = .onDc ∨ h.state = .pwm) ∧ h.onSince + 100000000 ≤ t
       (¬ calm → exec (.hsRetryReset n k t) s = .next s) ∧ (calm → one (exec (.hsRetryReset n k t) s) fun x => x = { h with retries := 0 })) ∧
      (h.mEnd = none ∨ (∃ e, h.mEnd = some e ∧ t < e) → exec (.hsMWindowEnd n k t) s = .next s) ∧
      (∀ e, h.mEnd = some e → e ≤ t → one (exec (.hsMWindowEnd n k t) s) (fun x => x.limUs = 0 ∧ x.state = h.state ∧ x.on = h.on ∧ x.act = h.act ∧ x.sts = h.sts) ∧ ∃ u, exec (.hsMWindowEnd n k t) s = .next u ∧ ∀ t', t ≤ t' → (u.chips[n]).hsLimit k t' = c.hsIlim k.val) ∧
      (j < 350 → one (exec (.hsThermalShutdown n k j t) s) fun x => x = { h with junction := j }) ∧
      (350 ≤ j → let most := fld (c.hsCfg k.val) 29 26
        (h.state = .fault → one (exec (.hsThermalShutdown n k j t) s) fun x => x.state = .fault ∧ x.on = h.on ∧ x.sts = h.sts ||| oneBit 1 ∧ x.junction = j) ∧
        (h.state ≠ .fault → most ≤ h.restarts → one (exec (.hsThermalShutdown n k j t) s) fun x => x.Faulted 2 ∧ x.sts.getLsbD 1 = true ∧ x.junction = j) ∧
        (h.state = .onDc ∨ h.state = .pwm → h.restarts < most → one (exec (.hsThermalShutdown n k j t) s) fun x => x.state = .thermalWait ∧ off x ∧ x.sts = h.sts ||| oneBit 1 ∧ x.latch = h.latch ∧ x.junction = j) ∧
        (h.state = .off ∨ h.state = .retryWait ∨ h.state = .thermalWait → h.restarts < most → one (exec (.hsThermalShutdown n k j t) s) fun x => x.state = h.state ∧ x.on = h.on ∧ x.sts = h.sts ||| oneBit 1 ∧ x.junction = j)) ∧
      (h.state ≠ .thermalWait ∨ 320 < j → one (exec (.hsThermalRestart n k j t) s) fun x => x = { h with junction := j }) ∧
      (h.state = .thermalWait → j ≤ 320 → one (exec (.hsThermalRestart n k j t) s) fun x => x.Runs (c.dutyOf h.w0 h.w1) t ∧ x.act = h.act ∧ x.restarts = h.restarts + 1 ∧ x.junction = j ∧ x.sts = h.sts) ∧
      (c.hsFuse k.val = none → one (exec (.hsFuseUpdate n k ma t) s) fun x => x = { h with current := ma }) ∧
      (∀ i tau, c.hsFuse k.val = some (i, tau) → let v := max 0 (min 4 (h.x + (((ma : Rat) / i) ^ 2 - h.x) * 100 / tau))
        (v < 1 ∨ h.latch.getLsbD 3 = true → one (exec (.hsFuseUpdate n k ma t) s) fun x => x = { h with current := ma, x := v }) ∧ (1 ≤ v → h.latch.getLsbD 3 = false → one (exec (.hsFuseUpdate n k ma t) s) fun x => x.Faulted 3 ∧ x.x = v ∧ x.current = ma)) ∧
      (h.state ≠ .pwm ∨ hpComp h.w1 = false → exec (.hsCompUpdate n k) s = .next s) ∧ (h.state = .pwm → hpComp h.w1 = true → one (exec (.hsCompUpdate n k) s) fun x => x = { h with nextDuty := c.compDuty (hpDuty h.w0) }) ∧
      (h.on = true → exec (.hsClampEnd n k uj t) s = .next s) ∧ (h.on = false → uj ≤ c.hsClampRating k.val → one (exec (.hsClampEnd n k uj t) s) fun x => x = { h with offSince := t, olActive := true }) ∧
      (h.on = false → c.hsClampRating k.val < uj → one (exec (.hsClampEnd n k uj t) s) fun x => x.Faulted 7) ∧
      (let due := (c.hsDiag k.val).getLsbD 1 = true ∧ h.on = false ∧ h.olActive = true ∧ h.offSince + 50000 ≤ t ∧ (∀ e, h.lastOffCheck = some e → e + 10000000 ≤ t) ∧ c.crank = false
       (¬ due → exec (.hsOlOffSourceOn n k mv t) s = .next s) ∧ (due → mv ≤ c.olOffTh k.val → one (exec (.hsOlOffSourceOn n k mv t) s) fun x => x = { h with lastOffCheck := some t, olActive := false, olSource := true }) ∧
       (due → c.olOffTh k.val < mv → one (exec (.hsOlOffSourceOn n k mv t) s) fun x => x.sts = h.sts ||| oneBit 6 ∧ x.lastOffCheck = some t ∧ x.olActive = false ∧ x.olSource = h.olSource ∧ x.state = h.state ∧ x.ol = h.ol)) ∧
      (h.olSource = false ∨ t < h.offSince + 200000 → exec (.hsOlOffSample n k mv t) s = .next s) ∧
      (h.olSource = true → h.offSince + 200000 ≤ t → one (exec (.hsOlOffSample n k mv t) s) fun x => x.olSource = false ∧ x.state = h.state ∧ x.on = h.on ∧ h.Assessed x false (c.olCount k.val) (if c.crank then none else some (decide (c.olOffTh k.val < mv)))) ∧
      (let uneven := c.hsPair k.val = true ∧ k.val % 2 = 0 ∧ h.on = true ∧ 2000 ≤ ma + mb ∧ 3 * (ma + mb) < 10 * (max ma mb - min ma mb) ∧ 1000 ≤ us
       (¬ uneven → exec (.hsPairImbalance n k ma mb us t) s = .next s) ∧ (uneven → one (exec (.hsPairImbalance n k ma mb us t) s) fun x => x.Faulted 8)) ∧
      (let hot := (c.hsSet k { h with junction := j }).hsHot k
       let fuse := mask.getLsbD 3 = true ∧ h.sts.getLsbD 3 = true ∧ (1 : Rat) / 2 < h.x
       let heat := mask.getLsbD 2 = true ∧ h.sts.getLsbD 2 = true ∧ 320 < hot
       one (exec (.hsFlagClear n k mask j t) s) fun x =>
         (∀ f, f < 11 → mask.getLsbD f = true → ¬ (f = 3 ∧ fuse) → ¬ (f = 2 ∧ heat) → (f ≠ 9 → x.sts.getLsbD f = false) ∧ x.latch.getLsbD f = false) ∧
         (∀ f, mask.getLsbD f = false ∨ 11 ≤ f ∨ (f = 3 ∧ fuse) ∨ (f = 2 ∧ heat) → (f ≠ 9 → x.sts.getLsbD f = h.sts.getLsbD f) ∧ x.latch.getLsbD f = h.latch.getLsbD f) ∧
         (fuse ∨ heat → x.sts.getLsbD 9 = true) ∧ (h.state ≠ .fault → x.state = h.state ∧ x.on = h.on ∧ x.act = h.act) ∧ (h.state = .fault → x.latch ≠ 0 → x.state = .fault) ∧ (h.state = .fault → x.latch = 0 → c.supervisor ≠ .limp → x.state = .off ∧ x.act = 2)))

/-- R501, R502, R505, R508, R511 to R514, R531 (19). A solenoid event is checked, arbitrated against its bank and answered; its start is suppressed, refused for energy, or gives the first phase; a reflex command takes effect on its first copy, or is dropped. -/
def Sys2Proof.Claims.SolenoidEvents : Prop :=
  ∀ (s : State) (n : Fin 4) (k : Fin 12) (b : Fin 3) (ev : BzEvent) (rf : BzReflex) (samples i2 : List Nat) (volts : List Int) (ma uj mv on : Nat) (who : Option (Fin 12)) (j : Int) (mask : Word) (t : Time),
    let c := s.chips[n]
    let o := c.sol[k]
    let goes := s.ChipGoes n
    let one := fun (r : Host.Outcome State Fault Refusal) (p : SolOut → Prop) => s.ChipGoes n r fun x => c.SolGoes x k p
    let rest := fun (x : Chip) => (∀ m : Fin 12, m ≠ k → x.sol[m] = c.sol[m]) ∧ (∀ m : Fin 3, m ≠ bankOf k → x.bank[m] = c.bank[m]) ∧ x.hs = c.hs ∧ x.schedule = c.schedule ∧ x.crest = c.crest ∧ x.tx = c.tx ∧ x.vBst = c.vBst
    let fades := fun (x : SolOut) => x.phase = .decay ∧ x.fast = o.prof.fastEnd ∧ x.low = false ∧ x.toFault = false ∧ x.phaseStart = t ∧ x.sts = o.sts
    (c.powered = false → exec (.bzSolEventReceive n ev t) s = .next s ∧ exec (.bzSolEventStart n k t) s = .next s ∧ exec (.solPeakReached n k samples t) s = .next s ∧ exec (.solPeakTimeout n k ma t) s = .next s ∧ exec (.solDwellEnd n k t) s = .next s ∧
      exec (.solSourceSwitch n b t) s = .next s ∧ exec (.solChopPeriod n k mv t) s = .next s ∧ exec (.solChopOff n k mv ma on) s = .next s ∧ exec (.solHoldEnd n k t) s = .next s ∧ exec (.solDecayEnd n k ma uj t) s = .next s ∧ exec (.solRestEnd n k volts t) s = .next s ∧
      exec (.solShort n b who ma) s = .next s ∧ exec (.solCoilUpdate n i2 j t) s = .next s ∧ exec (.solProbe n b) s = .next s ∧ exec (.solProbeDone n b mv t) s = .next s ∧ exec (.bstMeasure n mv t) s = .next s ∧ exec (.solFlagClear n k mask mv t) s = .next s ∧
      exec (.solRelearn n mask) s = .next s) ∧
    (c.powered = true →
      (let st := c.evBank ev.stamp
       let bad := 12 ≤ ev.index ∨ ev.action ≠ 4 ∨ 32 ≤ ev.profile ∨ (solProf st ev.profile).bad = true ∨ c.solEn ev.index = false ∨ c.solUpper ev.index = true
       let held := c.supervisor = .powerup ∨ ∃ m : Fin 12, m.val = ev.index ∧ c.solHeld m = true
       (bad → goes (exec (.bzSolEventReceive n ev t) s) fun x => x = { c with tx := c.tx ++ [.reply ev.id 4 t] }) ∧
       (¬ bad → held → goes (exec (.bzSolEventReceive n ev t) s) fun x => x = { c with tx := c.tx ++ [.reply ev.id 3 t] }) ∧
       (¬ bad → ¬ held → ev.index = k.val → let p := solProf st ev.profile
         let ws := liveWins c.bank[bankOf k].windows t
         let cnt := c.bank[bankOf k].cnt
         let start := c.arbitrate st ws k p ev.fire (ws.length + 1) ev.fire
         (start = none → goes (exec (.bzSolEventReceive n ev t) s) fun x => x = { c.bankSet (bankOf k) { c.bank[bankOf k] with windows := ws, cnt := satByte cnt 0 1 } with tx := c.tx ++ [.reply ev.id 1 t] }) ∧
         (∀ at_, start = some at_ → ev.fire ≤ at_ ∧ at_ ≤ ev.fire + 1000 * p.slackUs ∧ peakClash ws (c.solWin k p at_) = none ∧ c.sumsOk st ws k p (c.solWin k p at_) = true ∧ goes (exec (.bzSolEventReceive n ev t) s) fun x =>
           x = { c.bankSet (bankOf k) { c.bank[bankOf k] with windows := ws ++ [c.solWin k p at_], cnt := if ev.fire < at_ then satByte cnt 1 1 else cnt } with schedule := c.schedule ++ [{ ev := ev, start := at_ }], tx := c.tx ++ [.reply ev.id 0 t] }))) ∧
      ((∀ q ∈ c.schedule, q.ev.kind = 1 → q.ev.index = k.val → t < q.start) → exec (.bzSolEventStart n k t) s = .next s) ∧
      (∀ q, c.dueEvent 1 k t = some q → let p := solProf (c.evBank q.ev.stamp) q.ev.profile
        let held := c.solHeld k = true ∨ c.solUpper k.val = true
        let us := q.start / 1000
        goes (exec (.bzSolEventStart n k t) s) fun x => x.schedule = c.schedule.erase q ∧ x.crest = c.crest ∧ x.hs = c.hs ∧ (∀ m : Fin 3, m ≠ bankOf k → x.bank[m] = c.bank[m]) ∧
          (held → x.sol[k] = o.flag 13 ∧ x.tx = c.tx ∧ x.bank = c.bank) ∧
          (¬ held → p.peakI ≠ 0 → c.energyOk k p us = false → x.sol[k] = { o.flag 11 with dipVerdict := 0, kinkVerdict := 0 } ∧ x.tx = c.tx ++ [.reply q.ev.id 2 t] ∧ x.bank[bankOf k].cnt = satByte c.bank[bankOf k].cnt 3 1) ∧
          (¬ held → p.peakI ≠ 0 → c.energyOk k p us = true → x.tx = c.tx ∧ (x.sol[k]).phase = .peak ∧ (x.sol[k]).low = true ∧ (x.sol[k]).prof = p ∧ (x.sol[k]).peakStart = t ∧ (x.sol[k]).reflex = false ∧ (x.bank[bankOf k]).source = (if p.boost then 2 else 1)) ∧
          (∀ m : Fin 12, m ≠ k → held ∨ p.peakI = 0 ∨ c.energyOk k p us = false ∨ bankOf m ≠ bankOf k ∨ c.sol[m].reflex = false ∨ c.sol[m].peaking = false → x.sol[m] = c.sol[m]) ∧
          (∀ m : Fin 12, m ≠ k → ¬ held → p.peakI ≠ 0 → c.energyOk k p us = true → bankOf m = bankOf k → c.sol[m].reflex = true → c.sol[m].peaking = true → (x.sol[m]).phase = if c.sol[m].prof.holdI ≠ 0 then .hold else .decay) ∧
          (¬ held → p.peakI = 0 → p.holdI ≠ 0 → (x.sol[k]).phase = .hold ∧ (x.sol[k]).low = true ∧ (x.sol[k]).prof = p ∧ (x.sol[k]).phaseStart = t ∧ (x.bank[bankOf k]).source ≠ 0) ∧
          (¬ held → p.peakI = 0 → p.holdI = 0 → o.running = true → (x.sol[k]).phase = .decay ∧ (x.sol[k]).fast = p.fastEnd ∧ (x.sol[k]).low = false ∧ (x.sol[k]).prof = p)) ∧
      (c.lastReflex ≠ some rf.lseq → rf.kind ≠ 0 → let c1 := { c with lastReflex := some rf.lseq }
        let p := solProf c.crest rf.profile
        let ws := liveWins c.bank[bankOf k].windows t
        let w := c.solWin k p t
        let room := (∀ m : Fin 12, bankOf m = bankOf k → c.sol[m].peaking = false) ∧ peakClash ws w = none ∧ c.sumsOk c.crest ws k p w = true ∧ (p.peakI = 0 ∨ c.energyOk k p (t / 1000) = true)
        let pass := c.solCheck rf.action k.val rf.profile c.crest = 0
        (12 ≤ rf.index → goes (exec (.bzReflexReceive n rf t) s) fun x => x = c1) ∧ (rf.index = k.val → ¬ pass → goes (exec (.bzReflexReceive n rf t) s) fun x => c1.SolGoes x k fun y => y = o.flag 13) ∧
        (rf.index = k.val → pass → ¬ room → goes (exec (.bzReflexReceive n rf t) s) fun x => rest x ∧ x.sol[k] = o.flag 12 ∧ x.bank[bankOf k] = { c.bank[bankOf k] with cnt := satByte c.bank[bankOf k].cnt 2 1 }) ∧
        (rf.index = k.val → pass → room → p.peakI ≠ 0 → goes (exec (.bzReflexReceive n rf t) s) fun x => rest x ∧ (x.sol[k]).phase = .peak ∧ (x.sol[k]).low = true ∧ (x.sol[k]).prof = p ∧ (x.sol[k]).reflex = true ∧ (x.sol[k]).peakStart = t)))

/-- R502 to R504, R518 to R522, R526, R527 (19). The phases of an output follow their times and its current; a peak outside its window, a frozen sense value and a decay with too much clamp energy lead to the fault hold; the movement searches give their verdicts. -/
def Sys2Proof.Claims.SolenoidPhases : Prop :=
  ∀ (s : State) (n : Fin 4) (k : Fin 12) (b : Fin 3) (ev : BzEvent) (rf : BzReflex) (samples i2 : List Nat) (volts : List Int) (ma uj mv on : Nat) (who : Option (Fin 12)) (j : Int) (mask : Word) (t : Time),
    let c := s.chips[n]
    let o := c.sol[k]
    let goes := s.ChipGoes n
    let one := fun (r : Host.Outcome State Fault Refusal) (p : SolOut → Prop) => s.ChipGoes n r fun x => c.SolGoes x k p
    let rest := fun (x : Chip) => (∀ m : Fin 12, m ≠ k → x.sol[m] = c.sol[m]) ∧ (∀ m : Fin 3, m ≠ bankOf k → x.bank[m] = c.bank[m]) ∧ x.hs = c.hs ∧ x.schedule = c.schedule ∧ x.crest = c.crest ∧ x.tx = c.tx ∧ x.vBst = c.vBst
    let fades := fun (x : SolOut) => x.phase = .decay ∧ x.fast = o.prof.fastEnd ∧ x.low = false ∧ x.toFault = false ∧ x.phaseStart = t ∧ x.sts = o.sts
    (c.powered = true →
      (let fast := t < o.peakStart + 1000 * o.prof.peakMin
       let due := o.phase = .peak ∧ o.peakStart ≤ t ∧ t ≤ o.peakStart + 1000 * o.prof.peakMax
       let cfg := c.solMdet k.val
       (¬ due → exec (.solPeakReached n k samples t) s = .next s) ∧ (due → fast → goes (exec (.solPeakReached n k samples t) s) fun x => rest x ∧ (x.sol[k]).Failing 0) ∧
       (due → ¬ fast → one (exec (.solPeakReached n k samples t) s) fun x => x.phase = .dwell ∧ x.phaseStart = t ∧ x.current = c.solPeakMa k.val o.prof ∧ x.low = o.low ∧ x.kink = o.kink ∧ x.latch = o.latch ∧ (o.prof.move = false ∨ cfg.getLsbD 0 = false → x.dip = o.dip ∧ x.dipVerdict = 0 ∧ x.sts = o.sts) ∧
         (o.prof.move = true → cfg.getLsbD 0 = true → o.dip.Took x.dip (c.moveTolUs k.val) (dipSearch (10 * clampTo 1 255 (fld cfg 15 8)) samples) x.dipVerdict x.sts))) ∧
      (let late := o.phase = .peak ∧ o.peakStart + 1000 * o.prof.peakMax ≤ t
       (¬ late → exec (.solPeakTimeout n k ma t) s = .next s) ∧ (late → goes (exec (.solPeakTimeout n k ma t) s) fun x => rest x ∧ (x.sol[k]).Failing 0 ∧ (x.sol[k]).openSuspect = decide (10 * ma < c.solPeakMa k.val o.prof))) ∧
      (let due := o.phase = .dwell ∧ o.phaseStart + 1000 * o.prof.dwellUs ≤ t
       (¬ due → exec (.solDwellEnd n k t) s = .next s) ∧ (due → o.prof.holdI = 0 → goes (exec (.solDwellEnd n k t) s) fun x => rest x ∧ fades x.sol[k]) ∧
       (due → o.prof.holdI ≠ 0 → goes (exec (.solDwellEnd n k t) s) fun x => x = (c.solSet k { o with phase := .hold, phaseStart := t }).bankSet (bankOf k) { c.bank[bankOf k] with vsAt := some (t + 20000) })) ∧
      (let q := c.bank[b]
       let ends := fun (m : Fin 12) => bankOf m = b ∧ c.sol[m].tripPending = true
       let back := ∃ v, q.vsAt = some v ∧ v ≤ t ∧ q.source = 2 ∧ ∀ m : Fin 12, bankOf m = b → c.sol[m].peaking = false
       (t < q.changeUntil ∨ (∀ m, ¬ ends m) → (¬ back → exec (.solSourceSwitch n b t) s = .next s) ∧ (back → goes (exec (.solSourceSwitch n b t) s) fun x => x = c.bankSet b { q with source := 1, changeUntil := t + 2000, vsAt := none })) ∧
       (q.changeUntil ≤ t → (∃ m, ends m) → goes (exec (.solSourceSwitch n b t) s) fun x => (∀ m, ends m → (x.sol[m]).tripPending = false ∧ (x.sol[m]).low = false ∧ (c.sol[m].running = true → (x.sol[m]).phase = .decay ∧ (x.sol[m]).fast = true)) ∧ (∀ m : Fin 12, ¬ ends m → x.sol[m] = c.sol[m]) ∧
         (∀ m : Fin 3, m ≠ b → x.bank[m] = c.bank[m]) ∧ x.hs = c.hs ∧ x.schedule = c.schedule)) ∧
      (let frozen := match o.peakSample with | none => o.frozen | some v => if max v o.valley - min v o.valley ≤ 1 then o.frozen + 1 else 0
       (o.phase ≠ .hold → exec (.solChopPeriod n k mv t) s = .next s) ∧ (o.phase = .hold → 3 ≤ frozen → goes (exec (.solChopPeriod n k mv t) s) fun x => rest x ∧ (x.sol[k]).Failing 1) ∧
       (o.phase = .hold → frozen < 3 → goes (exec (.solChopPeriod n k mv t) s) fun x => x = (c.solSet k { o with frozen := frozen, valley := mv, peakSample := none, low := true }).bankSet (bankOf k) { c.bank[bankOf k] with probing := false })) ∧
      (let ends := o.phase = .hold ∧ o.low = true ∧ 1000 ≤ on ∧ (c.solHoldMa k.val o.prof ≤ ma ∨ chopNs c.crest (k.val / 4) * 9 ≤ on * 10)
       (¬ ends → exec (.solChopOff n k mv ma on) s = .next s) ∧ (ends → one (exec (.solChopOff n k mv ma on) s) fun x => x = { o with low := false, peakSample := some mv, current := ma })) ∧
      (let due := o.phase = .hold ∧ o.prof.holdUs ≠ 0 ∧ o.phaseStart + 1000 * o.prof.holdUs ≤ t
       (¬ due → exec (.solHoldEnd n k t) s = .next s) ∧ (due → goes (exec (.solHoldEnd n k t) s) fun x => rest x ∧ fades x.sol[k])) ∧
      (let due := o.phase = .decay ∧ ma < 50
       let much := o.fast = true ∧ c.clampInt = true ∧ 30000 * c.solMult k.val < uj
       (¬ due → exec (.solDecayEnd n k ma uj t) s = .next s) ∧
       (due → much → one (exec (.solDecayEnd n k ma uj t) s) fun x => x.phase = .fault ∧ x.sts = o.sts ||| oneBit 7 ∧ x.latch = o.latch ||| oneBit 7 ∧ x.current = ma) ∧
       (due → ¬ much → o.toFault = true → one (exec (.solDecayEnd n k ma uj t) s) fun x => x = { o with current := ma, phase := .fault, toFault := false, kinkVerdict := 0 }) ∧
       (due → ¬ much → o.toFault = false → one (exec (.solDecayEnd n k ma uj t) s) fun x => x = { o with current := ma, phase := .rest, phaseStart := t })) ∧
      (let due := o.phase = .rest ∧ o.phaseStart + 1000 * o.prof.kinkUs ≤ t
       let cfg := c.solMdet k.val
       (¬ due → exec (.solRestEnd n k volts t) s = .next s) ∧ (due → one (exec (.solRestEnd n k volts t) s) fun x => x.phase = .idle ∧ x.dip = o.dip ∧ x.latch = o.latch ∧ (o.prof.move = false ∨ cfg.getLsbD 1 = false → x.kink = o.kink ∧ x.kinkVerdict = 0 ∧ x.sts = o.sts) ∧
         (o.prof.move = true → cfg.getLsbD 1 = true → o.kink.Took x.kink (c.moveTolUs k.val) (kinkSearch (10 * clampTo 1 255 (fld cfg 23 16)) o.prof.kinkUs volts) x.kinkVerdict x.sts))))

/-- R515, R517, R525 (19). Shorts and the coil model. -/
def Sys2Proof.Claims.SolenoidDiagnostics : Prop :=
  ∀ (s : State) (n : Fin 4) (k : Fin 12) (b : Fin 3) (ev : BzEvent) (rf : BzReflex) (samples i2 : List Nat) (volts : List Int) (ma uj mv on : Nat) (who : Option (Fin 12)) (j : Int) (mask : Word) (t : Time),
    let c := s.chips[n]
    let o := c.sol[k]
    let goes := s.ChipGoes n
    let one := fun (r : Host.Outcome State Fault Refusal) (p : SolOut → Prop) => s.ChipGoes n r fun x => c.SolGoes x k p
    let rest := fun (x : Chip) => (∀ m : Fin 12, m ≠ k → x.sol[m] = c.sol[m]) ∧ (∀ m : Fin 3, m ≠ bankOf k → x.bank[m] = c.bank[m]) ∧ x.hs = c.hs ∧ x.schedule = c.schedule ∧ x.crest = c.crest ∧ x.tx = c.tx ∧ x.vBst = c.vBst
    let fades := fun (x : SolOut) => x.phase = .decay ∧ x.fast = o.prof.fastEnd ∧ x.low = false ∧ x.toFault = false ∧ x.phaseStart = t ∧ x.sts = o.sts
    (c.powered = true →
      (let shut := fun (x : Chip) (m : Fin 12) => (x.sol[m]).phase = .fault ∧ (x.sol[m]).low = false ∧ (x.sol[m]).sts = c.sol[m].sts ||| oneBit 4 ∧ (x.sol[m]).latch = c.sol[m].latch ||| oneBit 4
       let hit := fun (m : Fin 12) => bankOf m = b ∧ ((∃ q, who = some q ∧ c.solRep q = m) ∧ 20000 * c.solMult m.val ≤ ma ∨ who = none ∧ 30000 ≤ ma ∧ c.sol[m].low = true)
       goes (exec (.solShort n b who ma) s) fun x => (∀ m, hit m → shut x m) ∧ (∀ m, ¬ hit m → x.sol[m] = c.sol[m]) ∧ (∀ m : Fin 3, m ≠ b → x.bank[m] = c.bank[m]) ∧ x.hs = c.hs ∧ x.schedule = c.schedule ∧ (who = none → 30000 ≤ ma → (x.bank[b]).source = 0)) ∧
      (let amb := c.thetaAmb + ((j : Rat) - 5 - c.thetaAmb) / 10000
       goes (exec (.solCoilUpdate n i2 j t) s) fun x => x.logicTemp = j ∧ x.thetaAmb = amb ∧ x.hs = c.hs ∧ x.schedule = c.schedule ∧ (∀ m : Fin 12, c.solEn m.val = false ∨ c.solUpper m.val = true → x.sol[m] = c.sol[m]) ∧
         ∀ m : Fin 12, c.solEn m.val = true → c.solUpper m.val = false → let w := c.crest.word (0x3E4 + 0x10 * m.val)
           let tau := clampTo 1 6000 (fld (c.crest.word (0x3E8 + 0x10 * m.val)) 15 0)
           let r := ((max 10 (fld w 15 0) : Nat) : Rat) / 100 * (1 + 393 / 100000 * (amb + c.sol[m].dt - 20))
           let dt := c.sol[m].dt + (((i2.getD m.val 0 : Nat) : Rat) / 1000000 * r * ((max 1 (fld w 31 16) : Nat) : Rat) / 10 - c.sol[m].dt) / (100 * (tau : Rat))
           let top : Rat := c.tCoilMax m.val
           (x.sol[m]).dt = dt ∧ (x.sol[m]).warm = decide (top - 15 ≤ amb + dt) ∧ (top - 15 ≤ amb + dt → c.sol[m].warm = false → (x.sol[m]).sts.getLsbD 5 = true) ∧
             (amb + dt < top ∨ c.sol[m].latch.getLsbD 6 = true → (x.sol[m]).phase = c.sol[m].phase ∧ (x.sol[m]).low = c.sol[m].low ∧ (x.sol[m]).latch = c.sol[m].latch) ∧
             (top ≤ amb + dt → c.sol[m].latch.getLsbD 6 = false → (x.sol[m]).sts.getLsbD 6 = true ∧ (x.sol[m]).latch.getLsbD 6 = true ∧ (x.sol[m]).low = false ∧ (c.sol[m].running = true → (x.sol[m]).Failing 6) ∧ (c.sol[m].phase = .idle ∨ c.sol[m].phase = .rest → (x.sol[m]).phase = .fault))))

/-- R506, R509, R520, R523, R524, R528, R529 (19). The continuity probe, the boost store, relearning, and the clearing of flags. -/
def Sys2Proof.Claims.SolenoidStores : Prop :=
  ∀ (s : State) (n : Fin 4) (k : Fin 12) (b : Fin 3) (ev : BzEvent) (rf : BzReflex) (samples i2 : List Nat) (volts : List Int) (ma uj mv on : Nat) (who : Option (Fin 12)) (j : Int) (mask : Word) (t : Time),
    let c := s.chips[n]
    let o := c.sol[k]
    let goes := s.ChipGoes n
    let one := fun (r : Host.Outcome State Fault Refusal) (p : SolOut → Prop) => s.ChipGoes n r fun x => c.SolGoes x k p
    let rest := fun (x : Chip) => (∀ m : Fin 12, m ≠ k → x.sol[m] = c.sol[m]) ∧ (∀ m : Fin 3, m ≠ bankOf k → x.bank[m] = c.bank[m]) ∧ x.hs = c.hs ∧ x.schedule = c.schedule ∧ x.crest = c.crest ∧ x.tx = c.tx ∧ x.vBst = c.vBst
    let fades := fun (x : SolOut) => x.phase = .decay ∧ x.fast = o.prof.fastEnd ∧ x.low = false ∧ x.toFault = false ∧ x.phaseStart = t ∧ x.sts = o.sts
    (c.powered = true →
      (let runs := (bankCfg c.crest b.val).getLsbD 26 = true ∧ ∀ m : Fin 12, bankOf m = b → c.sol[m].low = false
       (¬ runs → exec (.solProbe n b) s = .next s) ∧ (runs → goes (exec (.solProbe n b) s) fun x => x = c.bankSet b { c.bank[b] with probing := true })) ∧
      (let q := c.bank[b]
       (q.probing = false → exec (.solProbeDone n b mv t) s = .next s) ∧
       (q.probing = true → mv ≤ 300 → goes (exec (.solProbeDone n b mv t) s) fun x => x.bank = c.bank.set b { q with probing := false, probeFails := 0, probeFailed := false, probeExists := true } ∧ x.hs = c.hs ∧
         ∀ m : Fin 12, (bankOf m = b ∧ c.sol[m].openSuspect = true → (x.sol[m]).sts = c.sol[m].sts ||| oneBit 3 ∧ (x.sol[m]).latch = c.sol[m].latch ||| oneBit 3 ∧ (x.sol[m]).openSuspect = false ∧ (x.sol[m]).phase = c.sol[m].phase) ∧ (bankOf m ≠ b ∨ c.sol[m].openSuspect = false → x.sol[m] = c.sol[m])) ∧
       (q.probing = true → 300 < mv → q.probeFails = 0 → goes (exec (.solProbeDone n b mv t) s) fun x => x.bank = c.bank.set b { q with probing := false, probeFails := 1, probeFailed := true, probeExists := true } ∧ x.hs = c.hs ∧
         ∀ m : Fin 12, x.sol[m] = if bankOf m = b then { c.sol[m] with openSuspect := false } else c.sol[m]) ∧
       (q.probing = true → 300 < mv → q.probeFails ≠ 0 → goes (exec (.solProbeDone n b mv t) s) fun x => (x.bank[b]).probing = false ∧ (x.bank[b]).probeFails = q.probeFails + 1 ∧ (x.bank[b]).probeFailed = true ∧ x.hs = c.hs ∧
         ∀ m : Fin 12, (bankOf m = b → c.solUpper m.val = false → (x.sol[m]).sts = c.sol[m].sts ||| oneBit 2 ∧ (x.sol[m]).latch = c.sol[m].latch ||| oneBit 2 ∧ (x.sol[m]).low = false ∧ (c.sol[m].running = true → (x.sol[m]).Failing 2) ∧ (c.sol[m].phase = .idle ∨ c.sol[m].phase = .rest → (x.sol[m]).phase = .fault)) ∧
           (bankOf m ≠ b → x.sol[m] = c.sol[m]))) ∧
      (let full := if 50000 < mv then true else if mv ≤ 47500 then false else c.bstStopped
       let hold := 54000 < mv ∨ (c.ovHold = true ∧ 50000 ≤ mv)
       let drained := fun (m : Fin 3) => c.bank[m].source = 2 ∧ mv < c.vFloor ∧ ∃ q : Fin 12, bankOf q = m ∧ c.sol[q].phase = .peak
       goes (exec (.bstMeasure n mv t) s) fun x => x.vBst = mv ∧ x.bstStopped = full ∧ x.sol = c.sol ∧ x.hs = c.hs ∧ x.schedule = c.schedule ∧ x.crest = c.crest ∧ x.ovHold = decide hold ∧ x.clampInt = decide (hold ∨ 52000 ≤ mv) ∧
         x.charging = decide ((c.crest.word 0x3A0).getLsbD 18 = true ∧ full = false ∧ c.crank = false ∧ (if c.charging then 6000 else 8000) ≤ c.vs ∧ ¬ hold) ∧
         (54000 < mv → c.ovHold = false → x.bstSts.getLsbD 18 = true) ∧ ((∃ m, drained m) → x.bstSts.getLsbD 17 = true) ∧ ((∀ m, ¬ drained m) → mv ≤ 54000 → x.bstSts = c.bstSts) ∧
         (∀ m : Fin 3, drained m → x.bank[m] = { c.bank[m] with source := 1, changeUntil := t + 2000 }) ∧ (∀ m : Fin 3, ¬ drained m → x.bank[m] = c.bank[m])) ∧
      goes (exec (.solRelearn n mask) s) (fun x => { x with sol := c.sol } = c ∧ ∀ m : Fin 12, x.sol[m] = if mask.getLsbD m.val then { c.sol[m] with dip := {}, kink := {} } else c.sol[m]) ∧
      (let hot := mask.getLsbD 6 = true ∧ o.sts.getLsbD 6 = true ∧ (c.tCoilMax k.val : Rat) - 20 < c.thetaC k
       let gap := mask.getLsbD 2 = true ∧ o.sts.getLsbD 2 = true ∧ (bankCfg c.crest (bankOf k).val).getLsbD 26 = true ∧ 300 < mv
       goes (exec (.solFlagClear n k mask mv t) s) fun x => (∀ m : Fin 12, m ≠ k → x.sol[m] = c.sol[m]) ∧ x.hs = c.hs ∧ x.schedule = c.schedule ∧ x.crest = c.crest ∧
         (∀ f, f < 15 → mask.getLsbD f = true → ¬ (f = 6 ∧ hot) → ¬ (f = 2 ∧ gap) → (f ≠ 14 → (x.sol[k]).sts.getLsbD f = false) ∧ (x.sol[k]).latch.getLsbD f = false) ∧
         (∀ f, mask.getLsbD f = false ∨ 15 ≤ f ∨ (f = 6 ∧ hot) ∨ (f = 2 ∧ gap) → (f ≠ 14 → (x.sol[k]).sts.getLsbD f = o.sts.getLsbD f) ∧ (x.sol[k]).latch.getLsbD f = o.latch.getLsbD f) ∧
         (hot ∨ gap → (x.sol[k]).sts.getLsbD 14 = true) ∧ (o.phase ≠ .fault → o.toFault = false → (x.sol[k]).phase = o.phase ∧ (x.sol[k]).low = o.low) ∧ (o.phase = .fault → (x.sol[k]).latch ≠ 0 → (x.sol[k]).phase = .fault) ∧
         (o.phase = .fault → (x.sol[k]).latch = 0 → c.supervisor ≠ .limp → (x.sol[k]).phase = .idle) ∧ (o.phase ≠ .fault → o.toFault = true → (x.sol[k]).latch = 0 → (x.sol[k]).toFault = false)))

/-- R496 to R531, R542 (19). A chip's solenoid banks: an event is checked, arbitrated against its bank and answered; its start is suppressed, refused for energy, or gives the first phase; the phases follow their times; PEAK_TIME, SENSE_STALL, SENSE_OPEN, OPEN_COIL, SHORT, COIL_HOT and DECAY_E lead where the rules say; the boost store, the coil model and the movement searches are kept; flags clear unless their cause stands. It rests on the model's own readings in log 62 and log 63. -/
def Obligations.ChipSolenoidResults : Prop := Sys2Proof.Claims.SolenoidEvents ∧ Sys2Proof.Claims.SolenoidPhases ∧ Sys2Proof.Claims.SolenoidDiagnostics ∧ Sys2Proof.Claims.SolenoidStores

/-- R476 (18). Mode M: the window opens at the first on edge of the command and lasts M_TIME; within it the limit is three times ILIM, up to the ceiling, and LIM_TIME applies; later edges do not open it again; after it the limit is ILIM, and the timer starts anew. -/
def Obligations.ModeMWindow : Prop :=
  ∀ (s : State) (n : Fin 4) (k : Fin 12) (t : Time),
    let c := s.chips[n]
    let h := c.hs[k]
    let wide (x : Chip) (till : Time) := ∀ t', x.hsLimit k t' = if t' < till then min (3 * c.hsIlim k.val) (c.hsCeiling k.val) else c.hsIlim k.val
    let opens (r : Host.Outcome State Fault Refusal) (time : Nat) := ∃ u, r = .next u ∧ wide u.chips[n] (t + 1000000 * time) ∧
      (∀ t', ∃ v, exec (.hsPwmPeriod n k t') u = .next v ∧ wide v.chips[n] (t + 1000000 * time)) ∧
      (∀ lim t', c.hsLimTime k.val ≤ lim → ∃ v, exec (.hsOverload n k lim t') u = .next v ∧ (v.chips[n].hs[k]).Faulted 0) ∧
      (∀ lim t', lim < c.hsLimTime k.val → ∃ v, exec (.hsOverload n k lim t') u = .next v ∧ (v.chips[n].hs[k]).on = true) ∧
      (∀ t', t + 1000000 * time ≤ t' → ∃ v, exec (.hsMWindowEnd n k t') u = .next v ∧ (v.chips[n].hs[k]).limUs = 0 ∧ (v.chips[n].hs[k]).on = true ∧ ∀ t'', t' ≤ t'' → (v.chips[n]).hsLimit k t'' = c.hsIlim k.val)
    let goesOn (act : Nat) (w0 w1 : Word) := hpInrush w1 = 2 ∧ (act = 1 ∨ act = 3 ∨ (act = 4 ∧ hpPeriod w0 = 0 ∧ 0 < hpDuty w0) ∨ (act = 4 ∧ hpPeriod w0 ≠ 0 ∧ onTimeNs (c.dutyOf w0 w1) (hpPeriod w0) (hpStretch w1) 0 ≠ 0))
    c.powered = true →
      (∀ q, c.dueEvent 0 k t = some q → c.hsHeld k = false → c.hsUpper k.val = false → h.state ≠ .retryWait → h.state ≠ .thermalWait → let p := hsProf (c.evBank q.ev.stamp) q.ev.profile
        goesOn q.ev.action p.1 p.2 → opens (exec (.bzHsEventFire n k t) s) (hpMTime p.2)) ∧
      (h.mEnd = none → goesOn h.act h.w0 h.w1 → ∀ j : Int, j ≤ 320 →
        (h.state = .retryWait → h.waitEnd ≤ t → opens (exec (.hsRetryEnd n k j t) s) (hpMTime h.w1)) ∧ (h.state = .thermalWait → opens (exec (.hsThermalRestart n k j t) s) (hpMTime h.w1)))

/-- The step (log 2 for the empty queue, which is the model's choice): with a command at the front, a step runs it on the state with the queue's rest; with none, the block idles. -/
def Obligations.StepTakesTheFront : Prop :=
  (∀ (s : State) (c : Instr), step { s with pending := c :: s.pending } = exec c s) ∧
  (∀ (s : State) (c : Instr) (rest : List Instr), s.pending = c :: rest → step s = exec c { s with pending := rest }) ∧
  (∀ s : State, s.pending = [] → step s = .next s)

/-- R94, R117, R586 (03, 04, 21). No command ends the machine: whatever the state, every command completes with a next state, in which the queue is as it was. -/
def Obligations.EveryCommandCompletes : Prop := ∀ (c : Instr) (s : State), ∃ u, exec c s = .next u ∧ u.pending = s.pending

/-- R47, R50, R51, R595, R597, R599, R601 (02, 22). What fuses and one-time storage hold moves one way: no command changes the assembly or the queue, a key slot goes from EMPTY to VALID and from VALID to REVOKED, the rollback count never falls, a blown debug fuse stays blown, and no unit or tile comes into service that the assembly does not fit. A step takes one command off the queue besides. -/
def Obligations.FusesOnlyMoveForward : Prop :=
  (∀ (c : Instr) (s u : State), exec c s = .next u → s.kept.Leads u.kept) ∧
  (∀ s u : State, step s = .next u → u.pending = s.pending.tail ∧ ({ s with pending := u.pending } : State).kept.Leads u.kept)

/-- R50, R51 (02). Every step keeps the invariant that a LIVE bit is set only for a unit that is present, and a tile's only for a tile of the assembly. -/
def Obligations.LiveUnitsAreFitted : Prop := ∀ s u : State, s.LiveFitted → step s = .next u → u.LiveFitted

/-- The reservoir's memory stays in its canonical form, strictly rising and without an entry that reads as an unlisted address does, so equal contents are equal data (the model's form, log 3). -/
def Obligations.ReservoirStaysCanonical : Prop := ∀ s u : State, s.resv.mem.wf = true → step s = .next u → u.resv.mem.wf = true

/-- R50, R51, R404, R593, R601 (02, 15, 22). The state of reset: nothing waits, every unit and tile of the assembly is in service, the banks hold their reset values, the reservoir reads zero and is in its form, station time has not started, debug is LOCKED and the firmware has not started. The assembly itself is the model's choice (log 1). It rests on the model's own readings in log 4. -/
def Obligations.ResetState : Prop :=
  let r := State.reset
  r.pending = [] ∧ r.live = r.fuses.allLive ∧ r.tileLive = r.fuses.allTiles ∧ r.LiveFitted ∧ r.crest = [] ∧ r.lee = [] ∧ r.staged = [] ∧ r.tiles = [] ∧ r.jobs = [] ∧ r.resv.mem.wf = true ∧ (∀ a, r.resv.mem.byte a = 0) ∧ r.time = {} ∧
  r.unit.phase = .running ∧ r.unit.unlocked = false ∧ r.unit.debugFuse = false ∧ r.unit.fwRunning = false ∧ ∀ n : Fin 4, r.chips[n].powered = false

/-- R79, R141, R240 (03, 05, 09). The lane operations of the vector unit on two registers complete with the results of the table, lane by lane, each lane poisoned when an operand lane is; the operation takes a place in the vector queue. The other vector operations complete: one operand, fused multiply-add, select, reductions, and moves between lanes and scalars. It rests on the model's own readings in log 26. -/
def Obligations.VectorResults : Prop := Sys2Proof.Claims.VectorPairResults ∧ Sys2Proof.Claims.VectorOtherResults

/-- R138, R180, R196, R213, R215 (08). LD completes with the little-endian word at BASE + OFF13 of an extent in the activation buffer or the weight bed, and marks the job when the word is poisoned in a job that is no cycle. ST completes: the four bytes at BASE + OFF13 of the activation buffer hold s[SRC] little-endian, every other byte of the buffer, every other tile and the reservoir are unchanged, and no register changes but the pc. It rests on the model's own readings in log 26. -/
def Obligations.LoadAndStoreResults : Prop := Sys2Proof.Claims.LoadResult ∧ Sys2Proof.Claims.StoreResult

/-- R138, R139, R142, R180, R196, R213, R241 (05, 08, 09). The vector loads and stores complete on an extent of the activation buffer (loads also the weight bed): lane `k` takes the `k`-th word, half or byte, VLDBC one word for every lane; a store writes the low bytes of each lane in order and nothing else. VTAB completes with, in each lane, c0[s] + c1[s] × x rounded once for the segment s that counts the breakpoints not above x, and the canonical NaN for a NaN. The 768 bytes of the table are read clean. It rests on the model's own readings in log 26. -/
def Obligations.VectorMemoryResults : Prop := Sys2Proof.Claims.VectorTransferResults ∧ Sys2Proof.Claims.FunctionTableResult

/-- R204, R208, R210, R213, R232, R269, R270 (08, 09, 10). BR and JR go to a target that lies in the code of the bank and link the next pc; FENCE_ENG completes when no engine operation is in flight and waits otherwise, with no effect. JEND completes when no engine operation is in flight, no misfit hold stands and every item of an open output has left the tile: the tile leaves the job, a CLOSE goes to the apply unit of every live erg die; otherwise it waits. It rests on the model's own readings in log 27. -/
def Obligations.ControlResults : Prop := Sys2Proof.Claims.BranchResults ∧ Sys2Proof.Claims.JobEndLeavesTile

/-- R76, R78, R127, R129, R165, R166, R169, R173, R234 to R237, R238 (03, 05, 06, 09). FMAC completes when its facet state and extents pass their checks, its queue has room, no held extent is written and its operands read clean. With DEST 0 it writes each vector's 64 quantised channel outputs and counts edge saturations, with DEST 1 each vector's partial node and identity, with DEST 2 it sends each vector's node under the next EMIT count. FDRN with DEST 1 completes when its records read clean and each pair is the left and right children of one node: it writes their parents, element by element the binary32 sum with the group scale where the parent closes a group; a pair that fails the check stops the job with ORDER_SHAPE. It rests on the model's own readings in log 26 and log 27. -/
def Obligations.FacetResults : Prop := Sys2Proof.Claims.FacetMacResults ∧ Sys2Proof.Claims.FacetDrainResults

/-- R50, R51, R588, R592, R593, R600, R606, R608 (02, 22). POWER_ON, RESET_N_ASSERT, RST_CTL_COLD and VDD_KEEP_LOSS leave the cold-reset state, in the phase and with the cause of each, and keep what is not volatile; RESET_N_RELEASE starts bring-up or the boundary-scan mode. COLD_RESET_END: a unit is live if it is fitted and neither it nor the die that carries it failed bring-up (log 46); addresses run on over the other stacks; the newest shutdown record is shown, MESA_SHDN_STS.UNCLEAN is set unless that record is CLEAN, and a RUNNING record goes into the slot that does not hold the newest one. A module whose mesa die 0 failed stays in bring-up. -/
def Obligations.ColdResetResults : Prop := Sys2Proof.Claims.ColdResetClears ∧ Sys2Proof.Claims.BringUpEnds

/-- R600, R601, R602 (22). The boundary-scan instructions. The identification register holds the version, part number 0x0094 and bit 0 set; in boundary-scan mode SAMPLE/PRELOAD and EXTEST capture the balls and load the boundary register, and EXTEST and CLAMP drive them; outside it those, CLAMP and HIGHZ act as BYPASS, whose one bit delays TDI by one. Each touches the port alone. DBG_CHAL gives a challenge that the next response uses up; a response that verifies unlocks debug with its SCOPE, unless the debug fuse is blown; the third failure exhausts the attempts, after which both act as BYPASS; RELOCK ends access, and an access outside the SCOPE acts as BYPASS. The nonce is free (log 42). It rests on the model's own readings in log 43 and log 67. -/
def Obligations.JtagAndDebugResults : Prop := Sys2Proof.Claims.JtagResults ∧ Sys2Proof.Claims.DebugResults

/-- R538, R588, R589, R591, R603 (20, 22). A warm reset keeps the reservoir, the fuses' storage, the chips, the shutdown area and the configuration space, counts, and resets the rest; a request by a short pulse or without its key is none. MESA_RST_DOMAIN passes an idle row domain through A3 and is refused, with DOMAIN_REFUSED, for a domain that is none, that a reservation covers or that may not enter A3, or while a slip is under way; DFL_HOLD takes every DFL link down, and its end alone brings none up. It rests on the model's own readings in log 39, log 60 and log 66. -/
def Obligations.ResetOfUnitsResults : Prop := Sys2Proof.Claims.WarmResetResults ∧ Sys2Proof.Claims.DomainAndHoldResults

/-- R66, R67, R405, R407 (03, 15). The port follows the master whose data set compares best, field by field; a boundary clock sends its Sync on every other enabled port, only on a die of revision B and only while station time runs. Station time goes back by no command. A TIME_STEP back is refused with a record, one larger than MESA_TIME_STEP_MAX with STEP_REFUSED, a step of 0 is done at once; a step is applied within 10 ms at an instant with no admitted reservation current, and refused after; at the limits of TIME the warning and the stop are made. It rests on the model's own readings in log 54. -/
def Obligations.PtpAndStepResults : Prop := Sys2Proof.Claims.PtpMasterResults ∧ Sys2Proof.Claims.TimeStepResults

/-- R97, R178, R263 to R269, R271, R271 to R278 (04, 07, 10). Messages at an apply unit whose die is live, for a job that has not stopped. A binding that fits takes effect with every cairn of its ranges bound at zero; an operation without its binding waits for it; one that the binding owns is held at its position; one outside the ranges, or from a producer that is no source, stops the job; a CLOSE moves the frontiers of its producers beyond the job. A message for a die that is out of service or a stopped job is discarded. Stated for a unit with no binding that waits or is finished. CAIRN_APPLY applies the operation at the smallest position once every other frontier has passed it, and no other: ADD and SETTLE add, ADD modulo 2^32 and the others up to the top, each counting one operation; it changes nothing else of the unit's words. CAIRN_REPLY ends the wait of the tile that waits for that key, with the result in its register. It rests on the model's own readings in log 24. -/
def Obligations.CairnResults : Prop := Sys2Proof.Claims.CairnMessageResults ∧ Sys2Proof.Claims.CairnApplyAndReplyResults

/-- R93, R328, R447, R453, R454, R456, R457, R459, R538, R547, R548, R580 (03, 12, 17, 20, 21). A port sends the first frame of the highest priority with the next LSEQ and a CRC behind, a REFLEX frame twice; a TIME tick queues a TIME frame; a discarded frame is counted and recorded; a link goes down after 1 ms of silence, 10 µs without alignment, or 16 discarded frames, with a fault record, its unanswered events abandoned and a preparing slip of its chip aborted; it comes up after 10 valid locked STATUS frames. A STATUS frame sets what the unit knows of the chip; a status event also sets the held channels under its stamp and is logged; an identification seats the chip when its crest checksum is that of the ledger, and unseats it when it is not; a reply schedules an event, which makes its cycle COMMITTED, or refuses it with the verdict of its code; an event without a reply is sent once more after 1.5 µs, and abandoned 2 µs before it fires. It rests on the model's own readings in log 37. -/
def Obligations.DflResults : Prop := Sys2Proof.Claims.DflLinkResults ∧ Sys2Proof.Claims.DflReceiveResults

/-- R132, R133, R318 to R322, R319, R323 to R326, R325, R329, R330, R331, R398, R458 (05, 12, 15, 17). A request takes the next SLIP_ID and is refused for BUSY, POINT_INVALID or REPLAY, in that order; an accepted one makes the units in service and the attached chips outside EXCLUDE its parties, and sends each chip PREPARE and 32 chunks; a party answers with its checksum and the first NACK reason; a wrong checksum, a wrong digest, a NACK, an unseated chip, a host abort and the deadline abort the slip, which changes no crest and no lee; with the last ACK the slip is ARMING. A party stores the digest on COMMIT; the last COMMIT_ACK arms the slip, and the arm deadline aborts it; at the slip point every party's lee becomes crest, its former crest retires, and an attached chip that is no party is unseated; a retiring bank goes when no work holds it, stopping at most not-admitted work, and the party's lee then becomes a copy of its crest. It rests on the model's own readings in log 30 and log 31. -/
def Obligations.SlipResults : Prop := Sys2Proof.Claims.SlipPrepareResults ∧ Sys2Proof.Claims.SlipCommitResults

/-- R380, R385, R386, R389, R391 to R393, R394 to R397, R398 (15). A host-link reset clears the configuration space and HP1, disables every HP2 queue, discards and counts what is unfinished toward the host, sets LINK_RESET, and touches nothing else; D3hot is entered and left by command; the staging size is written only while HP1 is idle and no queue is enabled, and is at most 4096 MiB. An entry that a doorbell of HP1 or a fetch of HP2 takes in completes at once with status 2 for a command the queue does not take, 9 for one the replay mode does not, 3 for a bad field; else it waits for its turn, an admin command in the executor's list. A doorbell of HP1 while it is busy or disabled sets REJECTED. Enabling a queue sets its pointers to 0 and its phase to 1; disabling it ends stamping and keeps what is stamped; an SQ tail doorbell makes entries visible, which are stamped in groups of at most 16 that leave room in the CQ, in the order of the SQ and under one stamp; a CQ head doorbell frees slots; a doorbell in error changes nothing but the queue's error code and QUEUE_ERR. It rests on the model's own readings in log 12 and log 45. -/
def Obligations.HostLinkAndQueueResults : Prop := Sys2Proof.Claims.HostLinkResults ∧ Sys2Proof.Claims.HostEntriesDispatched ∧ Sys2Proof.Claims.QueueResults

/-- R10, R13, R14, R15, R16, R53, R54, R382 (00, 02, 15). A 32-bit write to a word of BAR0 lands by the type of each field: an RW bit takes the written bit, a W1C bit is cleared by a written 1, any other bit stays; an RWL bit takes the written bit in lee, and crest stays. Stated for words whose write has no further effect. An access that a BAR does not take is discarded and sets BAD_ACCESS, one beyond the map has no effect, and one to a unit that is absent or out of service writes nothing, sets that group's bit of MESA_CAP_ABSENT_STS and is counted. No register answers before bring-up has ended. It rests on the model's own readings in log 9 and log 11. -/
def Obligations.RegisterAccessResults : Prop := Sys2Proof.Claims.RegisterWriteByFieldType ∧ Sys2Proof.Claims.AccessesThatLandNowhere

/-- R76, R143, R143 to R145, R144, R146, R242, R243, R244 (03, 05, 09). GATHER and SCATTER complete when their extents pass their checks, the queue has room, no held extent is written and what they read is clean: GATHER copies row index[j] of XA to row j of XD, SCATTER row j of XA to row index[j] of XD, in list order; an index beyond the table gathers zeros or is skipped, with GATHER_OOR, under ZERO, and stops the job under FAULT. GATHER_CSR completes, under conditions as for GATHER, when no offset decreases or points beyond the list and the rows fit: first the neighbour counts, then the rows in list order. SCATTER_ACC completes with, in every row of XD, the chord tree over N_SRC positions of the contributions that name the row. It rests on the model's own readings in log 26 and log 27. -/
def Obligations.GatherResults : Prop := Sys2Proof.Claims.RowCopyResults ∧ Sys2Proof.Claims.GatherListResults

/-- R178, R184, R199, R225, R245, R251, R252, R254 to R256, R257, R258, R268, R571 (07, 08, 09, 10, 21). The cairn instructions send one message to the apply unit of the cairn's die under the next EMIT count of the current producer; CPOST, CADD, CADDS and CFENCE complete, CWAIT and the settles of an armed slot send and then wait for the reply, a narrow settle of an OFF slot completes at once with count 0 and predicate 0. ACT and LOG send a clean extent to the actuation unit or the log writer under the next EMIT count; in profile mode RDCYC, RDST and RDSTALL complete with the count or station time; a PWR hint only changes what waits in the power control. It rests on the model's own readings in log 26. -/
def Obligations.CairnAndEmitInstructionResults : Prop := Sys2Proof.Claims.CairnInstructionResults ∧ Sys2Proof.Claims.EmitAndProfileResults

/-- R333, R336 to R342, R345, R347 to R349, R350 to R354, R356, R357, R591 (13, 22). A row goes to A1, A2 and A3 only when it is idle, has the state above, is allowed to, and every wake limit of its classes holds for the exit latency; A2 drops the activation buffers, A3 both banks; it wakes for work, a start message or a slip, and from A3 has its crest and then its lee restored; a wake beyond its latency is recorded; an A common domain is off only while no row, binding, reservation or flit of its die is there; an F domain is on when configuration asks for it; the hints do what R347 says. A window with an alarm raises the oasis by four codes, and after sixteen quiet windows it falls by one, never below VMIN or above 0.950 V; with alarms at 0.950 V the clock falls by 5 %; a clock change raises the voltage first; a temperature sets the warning and limit marks with their hysteresis, lowers the clocks at T_LIMIT by 10 % and takes the erg die out of service at T_TRIP; a list of samples acts one after the other. It rests on the model's own readings in log 39, log 59 and log 68. -/
def Obligations.PowerResults : Prop := Sys2Proof.Claims.PowerDomainResults ∧ Sys2Proof.Claims.VoltageAndHeatResults

/-- R50, R51, R560 to R563, R567, R568, R576 to R578, R581, R584, R585, R587 (02, 21). A record reaches its die's ring at once, or in key order through the reorder region, from which the oldest leave early when it is full; an entry that does not fit pushes out the oldest, counted, and the next entry says so; the host ring takes the oldest entry when it has room, after a filler where the end would cut it. A link with CRC errors is recorded, retrains at most three times, and fails for good, which takes an erg die or mesa die 1 out of service; a tile with 16 and a stack with 64 uncorrectable errors in a second leave service; what leaves service loses its LIVE bit and stops its jobs, with records of FATAL severity that set SAFE where MESA_FAULT_CTL asks for it; an access beyond the live capacity is recorded; SAFE is cleared by a write, unless a FATAL fault comes with it. It rests on the model's own readings in log 46, log 47 and log 60. -/
def Obligations.LogAndFaultResults : Prop := Sys2Proof.Claims.LogResults ∧ Sys2Proof.Claims.FaultResults

/-- R199, R232, R253, R256 (08, 09). The predicate instructions complete with the results of the table in p[DST], PTO in s[DST]; NOP only advances the pc. The stamp, key, producer and bank instructions complete with the effects of the tables. PSEL needs room in the producer table. -/
def Obligations.PredicateAndStampResults : Prop := Sys2Proof.Claims.PredicateResults ∧ Sys2Proof.Claims.StampAndProducerResults
end

