-- ==== Sys2Proof/Laws/Memory.lean ====
section
/-! SUPPORT. Laws of the sparse tables that memories and register files are held in: read after write, the canonical form, byte strings. -/

namespace Sys2Proof.Machine

variable {α : Type}

/-! ### Sparse tables -/

theorem mget_mdel (d : Nat → α) (m : SMap α) (k j : Nat) : mget d (mdel m k) j = if j = k then d j else mget d m j := by
  induction m with
  | nil => simp [mdel, mget]
  | cons e m ih =>
    obtain ⟨a, v⟩ := e
    by_cases h : a = k
    · subst h
      simp only [mdel, if_true, ih, mget]
      split
      · rfl
      · rename_i hj; rw [if_neg (Ne.symm hj)]
    · simp only [mdel, if_neg h, mget, ih]
      by_cases ha : a = j
      · subst ha; simp [h]
      · simp [ha]

theorem mget_mins (d : Nat → α) (m : SMap α) (k j : Nat) (v : α) : mget d (mins k v m) j = if j = k then v else mget d m j := by
  have put : ∀ m : SMap α, mget d ((k, v) :: m) j = if j = k then v else mget d m j := fun m => by
    rw [mget]; split
    · rename_i h; rw [if_pos h.symm]
    · rename_i h; rw [if_neg fun e => h e.symm]
  induction m with
  | nil => exact put []
  | cons e m ih =>
    obtain ⟨a, w⟩ := e
    unfold mins
    split
    · exact put _
    · split
      · rename_i _ h
        subst h
        rw [put m]
        split
        · rfl
        · rename_i hj; rw [mget, if_neg fun e => hj e.symm]
      · rename_i _ h2
        rw [mget, ih, mget]
        split
        · rename_i ha; subst ha; rw [if_neg fun e => h2 e.symm]
        · rfl

/-- Read after write. -/
theorem mget_mset [DecidableEq α] (d : Nat → α) (m : SMap α) (k j : Nat) (v : α) :
    mget d (mset d m k v) j = if j = k then v else mget d m j := by
  unfold mset
  split
  · rename_i h
    rw [mget_mdel]
    split
    · rename_i hj; rw [h, hj]
    · rfl
  · exact mget_mins d m k j v

@[simp] theorem mget_mset_same [DecidableEq α] (d : Nat → α) (m : SMap α) (k : Nat) (v : α) : mget d (mset d m k v) k = v := by
  simp [mget_mset]

theorem mget_mset_ne [DecidableEq α] (d : Nat → α) (m : SMap α) (k j : Nat) (v : α) (h : j ≠ k) : mget d (mset d m k v) j = mget d m j := by
  simp [mget_mset, h]

/-! ### The canonical form -/

theorem mwfFrom_mono [DecidableEq α] (d : Nat → α) (m : SMap α) (a b : Nat) (h : b ≤ a) (hm : mwfFrom d a m = true) : mwfFrom d b m = true := by
  cases m with
  | nil => rfl
  | cons e m =>
    simp only [mwfFrom, Bool.and_eq_true, decide_eq_true_eq] at hm ⊢
    exact ⟨⟨by omega, hm.1.2⟩, hm.2⟩

theorem mwfFrom_mdel [DecidableEq α] (d : Nat → α) (m : SMap α) (a k : Nat) (hm : mwfFrom d a m = true) : mwfFrom d a (mdel m k) = true := by
  induction m generalizing a with
  | nil => rfl
  | cons e m ih =>
    obtain ⟨j, w⟩ := e
    simp only [mwfFrom, Bool.and_eq_true, decide_eq_true_eq] at hm
    unfold mdel
    split
    · exact mwfFrom_mono d _ (j + 1) a (by omega) (ih _ hm.2)
    · simp only [mwfFrom, Bool.and_eq_true, decide_eq_true_eq]
      exact ⟨hm.1, ih _ hm.2⟩

theorem mwfFrom_mins [DecidableEq α] (d : Nat → α) (m : SMap α) (a k : Nat) (v : α) (hk : a ≤ k) (hv : v ≠ d k) (hm : mwfFrom d a m = true) :
    mwfFrom d a (mins k v m) = true := by
  induction m generalizing a with
  | nil => simp [mins, mwfFrom, hk, hv]
  | cons e m ih =>
    obtain ⟨j, w⟩ := e
    simp only [mwfFrom, Bool.and_eq_true, decide_eq_true_eq] at hm
    unfold mins
    split
    · rename_i h
      simp only [mwfFrom, Bool.and_eq_true, decide_eq_true_eq]
      exact ⟨⟨hk, hv⟩, ⟨by omega, hm.1.2⟩, hm.2⟩
    · split
      · rename_i h1 h2
        subst h2
        simp only [mwfFrom, Bool.and_eq_true, decide_eq_true_eq]
        exact ⟨⟨hk, hv⟩, hm.2⟩
      · simp only [mwfFrom, Bool.and_eq_true, decide_eq_true_eq]
        exact ⟨hm.1, ih _ (by omega) hm.2⟩

/-- Writing keeps the canonical form. -/
theorem mwf_mset [DecidableEq α] (d : Nat → α) (m : SMap α) (k : Nat) (v : α) (hm : mwf d m = true) : mwf d (mset d m k v) = true := by
  unfold mset mwf at *
  split
  · exact mwfFrom_mdel d m 0 k hm
  · exact mwfFrom_mins d m 0 k v (Nat.zero_le _) (by assumption) hm

/-- Two canonical tables that read alike are equal. -/
theorem mwf_ext [DecidableEq α] (d : Nat → α) (m n : SMap α) (hm : mwf d m = true) (hn : mwf d n = true) (h : ∀ k, mget d m k = mget d n k) : m = n := by
  have low : ∀ (m : SMap α) (a k : Nat), mwfFrom d a m = true → k < a → mget d m k = d k := by
    intro m
    induction m with
    | nil => intros; rfl
    | cons e m ih =>
      intro a k hw hk
      simp only [mwfFrom, Bool.and_eq_true, decide_eq_true_eq] at hw
      rw [mget, if_neg (by omega), ih (e.1 + 1) k hw.2 (by omega)]
  suffices H : ∀ (m n : SMap α) (a : Nat), mwfFrom d a m = true → mwfFrom d a n = true → (∀ k, a ≤ k → mget d m k = mget d n k) → m = n from
    H m n 0 hm hn fun k _ => h k
  intro m
  induction m with
  | nil =>
    intro n a _ hw hk
    cases n with
    | nil => rfl
    | cons e n =>
      simp only [mwfFrom, Bool.and_eq_true, decide_eq_true_eq] at hw
      have := hk e.1 hw.1.1
      simp only [mget, if_true] at this
      exact absurd this.symm hw.1.2
  | cons e m ih =>
    intro n a hw hw' hk
    simp only [mwfFrom, Bool.and_eq_true, decide_eq_true_eq] at hw
    cases n with
    | nil =>
      have := hk e.1 hw.1.1
      simp only [mget, if_true] at this
      exact absurd this hw.1.2
    | cons f n =>
      simp only [mwfFrom, Bool.and_eq_true, decide_eq_true_eq] at hw'
      rcases Nat.lt_trichotomy e.1 f.1 with hlt | heq | hgt
      · have h1 := hk e.1 hw.1.1
        rw [mget, if_pos rfl, mget, if_neg (by omega), low n (f.1 + 1) e.1 hw'.2 (by omega)] at h1
        exact absurd h1 hw.1.2
      · have h1 := hk e.1 hw.1.1
        rw [mget, if_pos rfl, mget, if_pos heq.symm] at h1
        have hef : e = f := Prod.ext heq h1
        subst hef
        rw [ih n (e.1 + 1) hw.2 hw'.2 fun k hle => by
          have := hk k (by omega)
          rwa [mget, if_neg (by omega), mget, if_neg (by omega)] at this]
      · have h1 := hk f.1 hw'.1.1
        rw [mget, if_neg (by omega), low m (e.1 + 1) f.1 hw.2 (by omega), mget, if_pos rfl] at h1
        exact absurd h1.symm hw'.1.2

/-! ### Byte memory -/

theorem Mem.byte_put (m : Mem) (a n : Nat) (b : Byte) : (m.put a b).byte n = if n = a then b else m.byte n := mget_mset _ _ _ _ _

/-- Every byte after a byte string has been written. -/
theorem Mem.byte_puts (m : Mem) (a n : Nat) (bs : List Byte) :
    (m.puts a bs).byte n = if a ≤ n ∧ n < a + bs.length then bs.getD (n - a) 0 else m.byte n := by
  induction bs generalizing m a with
  | nil => simp only [Mem.puts, List.length_nil]; rw [if_neg (by omega)]
  | cons b bs ih =>
    simp only [Mem.puts, ih, Mem.byte_put, List.length_cons]
    by_cases h1 : a + 1 ≤ n ∧ n < a + 1 + bs.length
    · rw [if_pos h1, if_pos (by omega)]
      have : n - a = (n - (a + 1)) + 1 := by omega
      rw [this]; rfl
    · rw [if_neg h1]
      by_cases h2 : n = a
      · subst h2; rw [if_pos rfl, if_pos (by omega)]; simp
      · rw [if_neg h2, if_neg (by omega)]

theorem Mem.byte_puts_out (m : Mem) (a n : Nat) (bs : List Byte) (h : n < a ∨ a + bs.length ≤ n) : (m.puts a bs).byte n = m.byte n := by
  rw [Mem.byte_puts, if_neg (by omega)]

/-- A byte write keeps the canonical form. -/
theorem Mem.wf_put (m : Mem) (a : Nat) (b : Byte) (h : m.wf = true) : (m.put a b).wf = true := mwf_mset _ _ _ _ h

theorem Mem.wf_puts (m : Mem) (a : Nat) (bs : List Byte) (h : m.wf = true) : (m.puts a bs).wf = true := by
  induction bs generalizing m a with
  | nil => exact h
  | cons b bs ih => exact ih _ _ (Mem.wf_put m a b h)

@[simp] theorem Mem.length_bytes (m : Mem) (a n : Nat) : (m.bytes a n).length = n := by simp [Mem.bytes]

theorem Mem.getD_bytes (m : Mem) (a n i : Nat) (h : i < n) : (m.bytes a n).getD i 0 = m.byte (a + i) := by
  simp [Mem.bytes, List.getD, h]

@[simp] theorem leBytes_length (n v : Nat) : (leBytes n v).length = n := by
  induction n generalizing v with
  | zero => rfl
  | succ n ih => simp [leBytes, ih]

/-- Byte `i` of a number, least significant first. -/
theorem leBytes_getD (n v i : Nat) (h : i < n) : (leBytes n v).getD i 0 = BitVec.ofNat 8 (v / 256 ^ i) := by
  induction n generalizing v i with
  | zero => omega
  | succ n ih =>
    cases i with
    | zero => simp [leBytes]
    | succ i =>
      have := ih (v / 256) i (by omega)
      simp only [leBytes, List.getD_cons_succ, this, Nat.div_div_eq_div_mul]
      rw [Nat.pow_succ, Nat.mul_comm]

/-- Little-endian bytes spell their number again. -/
theorem ofLe_leBytes (n v : Nat) : ofLe (leBytes n v) = v % 256 ^ n := by
  induction n generalizing v with
  | zero => simp [leBytes, ofLe, Nat.mod_one]
  | succ n ih =>
    have h : (BitVec.ofNat 8 v).toNat = v % 256 := BitVec.toNat_ofNat v 8
    rw [leBytes, ofLe, ih, h, Nat.pow_succ, Nat.mul_comm (256 ^ n) 256, Nat.mod_mul]

@[simp] theorem padTo_length (n : Nat) (bs : List Byte) : (padTo n bs).length = n := by
  simp only [padTo, List.length_take, List.length_append, List.length_replicate]
  omega

end Sys2Proof.Machine
end

