-- ==== Sys2Proof/Laws/State.lean ====
section
/-! SUPPORT. One lemma per field and update of the state, true by rfl, and what a read gives after a write. -/

namespace Sys2Proof.Machine

variable (s : State)

/-! ### State.setReg -/

@[simp] theorem State.setReg_pending (a : Nat) (v : Word) : (s.setReg a v).pending = s.pending := rfl
@[simp] theorem State.setReg_fuses (a : Nat) (v : Word) : (s.setReg a v).fuses = s.fuses := rfl
@[simp] theorem State.setReg_live (a : Nat) (v : Word) : (s.setReg a v).live = s.live := rfl
@[simp] theorem State.setReg_tileLive (a : Nat) (v : Word) : (s.setReg a v).tileLive = s.tileLive := rfl
@[simp] theorem State.setReg_crest (a : Nat) (v : Word) : (s.setReg a v).crest = s.crest := rfl
@[simp] theorem State.setReg_lee (a : Nat) (v : Word) : (s.setReg a v).lee = s.lee := rfl
@[simp] theorem State.setReg_old (a : Nat) (v : Word) : (s.setReg a v).old = s.old := rfl
@[simp] theorem State.setReg_oldDigest (a : Nat) (v : Word) : (s.setReg a v).oldDigest = s.oldDigest := rfl
@[simp] theorem State.setReg_crestBad (a : Nat) (v : Word) : (s.setReg a v).crestBad = s.crestBad := rfl
@[simp] theorem State.setReg_leeBad (a : Nat) (v : Word) : (s.setReg a v).leeBad = s.leeBad := rfl
@[simp] theorem State.setReg_oldBad (a : Nat) (v : Word) : (s.setReg a v).oldBad = s.oldBad := rfl
@[simp] theorem State.setReg_refreshing (a : Nat) (v : Word) : (s.setReg a v).refreshing = s.refreshing := rfl
@[simp] theorem State.setReg_heldWrites (a : Nat) (v : Word) : (s.setReg a v).heldWrites = s.heldWrites := rfl
@[simp] theorem State.setReg_latch (a : Nat) (v : Word) : (s.setReg a v).latch = s.latch := rfl
@[simp] theorem State.setReg_staged (a : Nat) (v : Word) : (s.setReg a v).staged = s.staged := rfl
@[simp] theorem State.setReg_time (a : Nat) (v : Word) : (s.setReg a v).time = s.time := rfl
@[simp] theorem State.setReg_unit (a : Nat) (v : Word) : (s.setReg a v).unit = s.unit := rfl
@[simp] theorem State.setReg_logs (a : Nat) (v : Word) : (s.setReg a v).logs = s.logs := rfl
@[simp] theorem State.setReg_link (a : Nat) (v : Word) : (s.setReg a v).link = s.link := rfl
@[simp] theorem State.setReg_loader (a : Nat) (v : Word) : (s.setReg a v).loader = s.loader := rfl
@[simp] theorem State.setReg_slip (a : Nat) (v : Word) : (s.setReg a v).slip = s.slip := rfl
@[simp] theorem State.setReg_jobs (a : Nat) (v : Word) : (s.setReg a v).jobs = s.jobs := rfl
@[simp] theorem State.setReg_cycles (a : Nat) (v : Word) : (s.setReg a v).cycles = s.cycles := rfl
@[simp] theorem State.setReg_submits (a : Nat) (v : Word) : (s.setReg a v).submits = s.submits := rfl
@[simp] theorem State.setReg_ingress (a : Nat) (v : Word) : (s.setReg a v).ingress = s.ingress := rfl
@[simp] theorem State.setReg_ports (a : Nat) (v : Word) : (s.setReg a v).ports = s.ports := rfl
@[simp] theorem State.setReg_tiles (a : Nat) (v : Word) : (s.setReg a v).tiles = s.tiles := rfl
@[simp] theorem State.setReg_apply (a : Nat) (v : Word) : (s.setReg a v).apply = s.apply := rfl
@[simp] theorem State.setReg_resv (a : Nat) (v : Word) : (s.setReg a v).resv = s.resv := rfl
@[simp] theorem State.setReg_net (a : Nat) (v : Word) : (s.setReg a v).net = s.net := rfl
@[simp] theorem State.setReg_power (a : Nat) (v : Word) : (s.setReg a v).power = s.power := rfl
@[simp] theorem State.setReg_dw (a : Nat) (v : Word) : (s.setReg a v).dw = s.dw := rfl
@[simp] theorem State.setReg_chips (a : Nat) (v : Word) : (s.setReg a v).chips = s.chips := rfl
@[simp] theorem State.setReg_free (a : Nat) (v : Word) : (s.setReg a v).free = s.free := rfl

/-! ### State.setTile -/

@[simp] theorem State.setTile_pending (t : Nat) (x : Tile) : (s.setTile t x).pending = s.pending := rfl
@[simp] theorem State.setTile_fuses (t : Nat) (x : Tile) : (s.setTile t x).fuses = s.fuses := rfl
@[simp] theorem State.setTile_live (t : Nat) (x : Tile) : (s.setTile t x).live = s.live := rfl
@[simp] theorem State.setTile_tileLive (t : Nat) (x : Tile) : (s.setTile t x).tileLive = s.tileLive := rfl
@[simp] theorem State.setTile_regs (t : Nat) (x : Tile) : (s.setTile t x).regs = s.regs := rfl
@[simp] theorem State.setTile_crest (t : Nat) (x : Tile) : (s.setTile t x).crest = s.crest := rfl
@[simp] theorem State.setTile_lee (t : Nat) (x : Tile) : (s.setTile t x).lee = s.lee := rfl
@[simp] theorem State.setTile_old (t : Nat) (x : Tile) : (s.setTile t x).old = s.old := rfl
@[simp] theorem State.setTile_oldDigest (t : Nat) (x : Tile) : (s.setTile t x).oldDigest = s.oldDigest := rfl
@[simp] theorem State.setTile_crestBad (t : Nat) (x : Tile) : (s.setTile t x).crestBad = s.crestBad := rfl
@[simp] theorem State.setTile_leeBad (t : Nat) (x : Tile) : (s.setTile t x).leeBad = s.leeBad := rfl
@[simp] theorem State.setTile_oldBad (t : Nat) (x : Tile) : (s.setTile t x).oldBad = s.oldBad := rfl
@[simp] theorem State.setTile_refreshing (t : Nat) (x : Tile) : (s.setTile t x).refreshing = s.refreshing := rfl
@[simp] theorem State.setTile_heldWrites (t : Nat) (x : Tile) : (s.setTile t x).heldWrites = s.heldWrites := rfl
@[simp] theorem State.setTile_latch (t : Nat) (x : Tile) : (s.setTile t x).latch = s.latch := rfl
@[simp] theorem State.setTile_staged (t : Nat) (x : Tile) : (s.setTile t x).staged = s.staged := rfl
@[simp] theorem State.setTile_time (t : Nat) (x : Tile) : (s.setTile t x).time = s.time := rfl
@[simp] theorem State.setTile_unit (t : Nat) (x : Tile) : (s.setTile t x).unit = s.unit := rfl
@[simp] theorem State.setTile_logs (t : Nat) (x : Tile) : (s.setTile t x).logs = s.logs := rfl
@[simp] theorem State.setTile_link (t : Nat) (x : Tile) : (s.setTile t x).link = s.link := rfl
@[simp] theorem State.setTile_loader (t : Nat) (x : Tile) : (s.setTile t x).loader = s.loader := rfl
@[simp] theorem State.setTile_slip (t : Nat) (x : Tile) : (s.setTile t x).slip = s.slip := rfl
@[simp] theorem State.setTile_jobs (t : Nat) (x : Tile) : (s.setTile t x).jobs = s.jobs := rfl
@[simp] theorem State.setTile_cycles (t : Nat) (x : Tile) : (s.setTile t x).cycles = s.cycles := rfl
@[simp] theorem State.setTile_submits (t : Nat) (x : Tile) : (s.setTile t x).submits = s.submits := rfl
@[simp] theorem State.setTile_ingress (t : Nat) (x : Tile) : (s.setTile t x).ingress = s.ingress := rfl
@[simp] theorem State.setTile_ports (t : Nat) (x : Tile) : (s.setTile t x).ports = s.ports := rfl
@[simp] theorem State.setTile_apply (t : Nat) (x : Tile) : (s.setTile t x).apply = s.apply := rfl
@[simp] theorem State.setTile_resv (t : Nat) (x : Tile) : (s.setTile t x).resv = s.resv := rfl
@[simp] theorem State.setTile_net (t : Nat) (x : Tile) : (s.setTile t x).net = s.net := rfl
@[simp] theorem State.setTile_power (t : Nat) (x : Tile) : (s.setTile t x).power = s.power := rfl
@[simp] theorem State.setTile_dw (t : Nat) (x : Tile) : (s.setTile t x).dw = s.dw := rfl
@[simp] theorem State.setTile_chips (t : Nat) (x : Tile) : (s.setTile t x).chips = s.chips := rfl
@[simp] theorem State.setTile_free (t : Nat) (x : Tile) : (s.setTile t x).free = s.free := rfl

/-! ### State.modTile -/

@[simp] theorem State.modTile_pending (t : Nat) (f : Tile → Tile) : (s.modTile t f).pending = s.pending := rfl
@[simp] theorem State.modTile_fuses (t : Nat) (f : Tile → Tile) : (s.modTile t f).fuses = s.fuses := rfl
@[simp] theorem State.modTile_live (t : Nat) (f : Tile → Tile) : (s.modTile t f).live = s.live := rfl
@[simp] theorem State.modTile_tileLive (t : Nat) (f : Tile → Tile) : (s.modTile t f).tileLive = s.tileLive := rfl
@[simp] theorem State.modTile_regs (t : Nat) (f : Tile → Tile) : (s.modTile t f).regs = s.regs := rfl
@[simp] theorem State.modTile_crest (t : Nat) (f : Tile → Tile) : (s.modTile t f).crest = s.crest := rfl
@[simp] theorem State.modTile_lee (t : Nat) (f : Tile → Tile) : (s.modTile t f).lee = s.lee := rfl
@[simp] theorem State.modTile_old (t : Nat) (f : Tile → Tile) : (s.modTile t f).old = s.old := rfl
@[simp] theorem State.modTile_oldDigest (t : Nat) (f : Tile → Tile) : (s.modTile t f).oldDigest = s.oldDigest := rfl
@[simp] theorem State.modTile_crestBad (t : Nat) (f : Tile → Tile) : (s.modTile t f).crestBad = s.crestBad := rfl
@[simp] theorem State.modTile_leeBad (t : Nat) (f : Tile → Tile) : (s.modTile t f).leeBad = s.leeBad := rfl
@[simp] theorem State.modTile_oldBad (t : Nat) (f : Tile → Tile) : (s.modTile t f).oldBad = s.oldBad := rfl
@[simp] theorem State.modTile_refreshing (t : Nat) (f : Tile → Tile) : (s.modTile t f).refreshing = s.refreshing := rfl
@[simp] theorem State.modTile_heldWrites (t : Nat) (f : Tile → Tile) : (s.modTile t f).heldWrites = s.heldWrites := rfl
@[simp] theorem State.modTile_latch (t : Nat) (f : Tile → Tile) : (s.modTile t f).latch = s.latch := rfl
@[simp] theorem State.modTile_staged (t : Nat) (f : Tile → Tile) : (s.modTile t f).staged = s.staged := rfl
@[simp] theorem State.modTile_time (t : Nat) (f : Tile → Tile) : (s.modTile t f).time = s.time := rfl
@[simp] theorem State.modTile_unit (t : Nat) (f : Tile → Tile) : (s.modTile t f).unit = s.unit := rfl
@[simp] theorem State.modTile_logs (t : Nat) (f : Tile → Tile) : (s.modTile t f).logs = s.logs := rfl
@[simp] theorem State.modTile_link (t : Nat) (f : Tile → Tile) : (s.modTile t f).link = s.link := rfl
@[simp] theorem State.modTile_loader (t : Nat) (f : Tile → Tile) : (s.modTile t f).loader = s.loader := rfl
@[simp] theorem State.modTile_slip (t : Nat) (f : Tile → Tile) : (s.modTile t f).slip = s.slip := rfl
@[simp] theorem State.modTile_jobs (t : Nat) (f : Tile → Tile) : (s.modTile t f).jobs = s.jobs := rfl
@[simp] theorem State.modTile_cycles (t : Nat) (f : Tile → Tile) : (s.modTile t f).cycles = s.cycles := rfl
@[simp] theorem State.modTile_submits (t : Nat) (f : Tile → Tile) : (s.modTile t f).submits = s.submits := rfl
@[simp] theorem State.modTile_ingress (t : Nat) (f : Tile → Tile) : (s.modTile t f).ingress = s.ingress := rfl
@[simp] theorem State.modTile_ports (t : Nat) (f : Tile → Tile) : (s.modTile t f).ports = s.ports := rfl
@[simp] theorem State.modTile_apply (t : Nat) (f : Tile → Tile) : (s.modTile t f).apply = s.apply := rfl
@[simp] theorem State.modTile_resv (t : Nat) (f : Tile → Tile) : (s.modTile t f).resv = s.resv := rfl
@[simp] theorem State.modTile_net (t : Nat) (f : Tile → Tile) : (s.modTile t f).net = s.net := rfl
@[simp] theorem State.modTile_power (t : Nat) (f : Tile → Tile) : (s.modTile t f).power = s.power := rfl
@[simp] theorem State.modTile_dw (t : Nat) (f : Tile → Tile) : (s.modTile t f).dw = s.dw := rfl
@[simp] theorem State.modTile_chips (t : Nat) (f : Tile → Tile) : (s.modTile t f).chips = s.chips := rfl
@[simp] theorem State.modTile_free (t : Nat) (f : Tile → Tile) : (s.modTile t f).free = s.free := rfl

/-! ### State.setCore -/

@[simp] theorem State.setCore_pending (t : Nat) (c : Core) : (s.setCore t c).pending = s.pending := rfl
@[simp] theorem State.setCore_fuses (t : Nat) (c : Core) : (s.setCore t c).fuses = s.fuses := rfl
@[simp] theorem State.setCore_live (t : Nat) (c : Core) : (s.setCore t c).live = s.live := rfl
@[simp] theorem State.setCore_tileLive (t : Nat) (c : Core) : (s.setCore t c).tileLive = s.tileLive := rfl
@[simp] theorem State.setCore_regs (t : Nat) (c : Core) : (s.setCore t c).regs = s.regs := rfl
@[simp] theorem State.setCore_crest (t : Nat) (c : Core) : (s.setCore t c).crest = s.crest := rfl
@[simp] theorem State.setCore_lee (t : Nat) (c : Core) : (s.setCore t c).lee = s.lee := rfl
@[simp] theorem State.setCore_old (t : Nat) (c : Core) : (s.setCore t c).old = s.old := rfl
@[simp] theorem State.setCore_oldDigest (t : Nat) (c : Core) : (s.setCore t c).oldDigest = s.oldDigest := rfl
@[simp] theorem State.setCore_crestBad (t : Nat) (c : Core) : (s.setCore t c).crestBad = s.crestBad := rfl
@[simp] theorem State.setCore_leeBad (t : Nat) (c : Core) : (s.setCore t c).leeBad = s.leeBad := rfl
@[simp] theorem State.setCore_oldBad (t : Nat) (c : Core) : (s.setCore t c).oldBad = s.oldBad := rfl
@[simp] theorem State.setCore_refreshing (t : Nat) (c : Core) : (s.setCore t c).refreshing = s.refreshing := rfl
@[simp] theorem State.setCore_heldWrites (t : Nat) (c : Core) : (s.setCore t c).heldWrites = s.heldWrites := rfl
@[simp] theorem State.setCore_latch (t : Nat) (c : Core) : (s.setCore t c).latch = s.latch := rfl
@[simp] theorem State.setCore_staged (t : Nat) (c : Core) : (s.setCore t c).staged = s.staged := rfl
@[simp] theorem State.setCore_time (t : Nat) (c : Core) : (s.setCore t c).time = s.time := rfl
@[simp] theorem State.setCore_unit (t : Nat) (c : Core) : (s.setCore t c).unit = s.unit := rfl
@[simp] theorem State.setCore_logs (t : Nat) (c : Core) : (s.setCore t c).logs = s.logs := rfl
@[simp] theorem State.setCore_link (t : Nat) (c : Core) : (s.setCore t c).link = s.link := rfl
@[simp] theorem State.setCore_loader (t : Nat) (c : Core) : (s.setCore t c).loader = s.loader := rfl
@[simp] theorem State.setCore_slip (t : Nat) (c : Core) : (s.setCore t c).slip = s.slip := rfl
@[simp] theorem State.setCore_jobs (t : Nat) (c : Core) : (s.setCore t c).jobs = s.jobs := rfl
@[simp] theorem State.setCore_cycles (t : Nat) (c : Core) : (s.setCore t c).cycles = s.cycles := rfl
@[simp] theorem State.setCore_submits (t : Nat) (c : Core) : (s.setCore t c).submits = s.submits := rfl
@[simp] theorem State.setCore_ingress (t : Nat) (c : Core) : (s.setCore t c).ingress = s.ingress := rfl
@[simp] theorem State.setCore_ports (t : Nat) (c : Core) : (s.setCore t c).ports = s.ports := rfl
@[simp] theorem State.setCore_apply (t : Nat) (c : Core) : (s.setCore t c).apply = s.apply := rfl
@[simp] theorem State.setCore_resv (t : Nat) (c : Core) : (s.setCore t c).resv = s.resv := rfl
@[simp] theorem State.setCore_net (t : Nat) (c : Core) : (s.setCore t c).net = s.net := rfl
@[simp] theorem State.setCore_power (t : Nat) (c : Core) : (s.setCore t c).power = s.power := rfl
@[simp] theorem State.setCore_dw (t : Nat) (c : Core) : (s.setCore t c).dw = s.dw := rfl
@[simp] theorem State.setCore_chips (t : Nat) (c : Core) : (s.setCore t c).chips = s.chips := rfl
@[simp] theorem State.setCore_free (t : Nat) (c : Core) : (s.setCore t c).free = s.free := rfl

/-! ### State.setPort -/

@[simp] theorem State.setPort_pending (p : Nat) (d : DflPort) : (s.setPort p d).pending = s.pending := rfl
@[simp] theorem State.setPort_fuses (p : Nat) (d : DflPort) : (s.setPort p d).fuses = s.fuses := rfl
@[simp] theorem State.setPort_live (p : Nat) (d : DflPort) : (s.setPort p d).live = s.live := rfl
@[simp] theorem State.setPort_tileLive (p : Nat) (d : DflPort) : (s.setPort p d).tileLive = s.tileLive := rfl
@[simp] theorem State.setPort_regs (p : Nat) (d : DflPort) : (s.setPort p d).regs = s.regs := rfl
@[simp] theorem State.setPort_crest (p : Nat) (d : DflPort) : (s.setPort p d).crest = s.crest := rfl
@[simp] theorem State.setPort_lee (p : Nat) (d : DflPort) : (s.setPort p d).lee = s.lee := rfl
@[simp] theorem State.setPort_old (p : Nat) (d : DflPort) : (s.setPort p d).old = s.old := rfl
@[simp] theorem State.setPort_oldDigest (p : Nat) (d : DflPort) : (s.setPort p d).oldDigest = s.oldDigest := rfl
@[simp] theorem State.setPort_crestBad (p : Nat) (d : DflPort) : (s.setPort p d).crestBad = s.crestBad := rfl
@[simp] theorem State.setPort_leeBad (p : Nat) (d : DflPort) : (s.setPort p d).leeBad = s.leeBad := rfl
@[simp] theorem State.setPort_oldBad (p : Nat) (d : DflPort) : (s.setPort p d).oldBad = s.oldBad := rfl
@[simp] theorem State.setPort_refreshing (p : Nat) (d : DflPort) : (s.setPort p d).refreshing = s.refreshing := rfl
@[simp] theorem State.setPort_heldWrites (p : Nat) (d : DflPort) : (s.setPort p d).heldWrites = s.heldWrites := rfl
@[simp] theorem State.setPort_latch (p : Nat) (d : DflPort) : (s.setPort p d).latch = s.latch := rfl
@[simp] theorem State.setPort_staged (p : Nat) (d : DflPort) : (s.setPort p d).staged = s.staged := rfl
@[simp] theorem State.setPort_time (p : Nat) (d : DflPort) : (s.setPort p d).time = s.time := rfl
@[simp] theorem State.setPort_unit (p : Nat) (d : DflPort) : (s.setPort p d).unit = s.unit := rfl
@[simp] theorem State.setPort_logs (p : Nat) (d : DflPort) : (s.setPort p d).logs = s.logs := rfl
@[simp] theorem State.setPort_link (p : Nat) (d : DflPort) : (s.setPort p d).link = s.link := rfl
@[simp] theorem State.setPort_loader (p : Nat) (d : DflPort) : (s.setPort p d).loader = s.loader := rfl
@[simp] theorem State.setPort_slip (p : Nat) (d : DflPort) : (s.setPort p d).slip = s.slip := rfl
@[simp] theorem State.setPort_jobs (p : Nat) (d : DflPort) : (s.setPort p d).jobs = s.jobs := rfl
@[simp] theorem State.setPort_cycles (p : Nat) (d : DflPort) : (s.setPort p d).cycles = s.cycles := rfl
@[simp] theorem State.setPort_submits (p : Nat) (d : DflPort) : (s.setPort p d).submits = s.submits := rfl
@[simp] theorem State.setPort_ingress (p : Nat) (d : DflPort) : (s.setPort p d).ingress = s.ingress := rfl
@[simp] theorem State.setPort_tiles (p : Nat) (d : DflPort) : (s.setPort p d).tiles = s.tiles := rfl
@[simp] theorem State.setPort_apply (p : Nat) (d : DflPort) : (s.setPort p d).apply = s.apply := rfl
@[simp] theorem State.setPort_resv (p : Nat) (d : DflPort) : (s.setPort p d).resv = s.resv := rfl
@[simp] theorem State.setPort_net (p : Nat) (d : DflPort) : (s.setPort p d).net = s.net := rfl
@[simp] theorem State.setPort_power (p : Nat) (d : DflPort) : (s.setPort p d).power = s.power := rfl
@[simp] theorem State.setPort_dw (p : Nat) (d : DflPort) : (s.setPort p d).dw = s.dw := rfl
@[simp] theorem State.setPort_chips (p : Nat) (d : DflPort) : (s.setPort p d).chips = s.chips := rfl
@[simp] theorem State.setPort_free (p : Nat) (d : DflPort) : (s.setPort p d).free = s.free := rfl

/-! ### State.setApply -/

@[simp] theorem State.setApply_pending (k : Nat) (u : ApplyUnit) : (s.setApply k u).pending = s.pending := rfl
@[simp] theorem State.setApply_fuses (k : Nat) (u : ApplyUnit) : (s.setApply k u).fuses = s.fuses := rfl
@[simp] theorem State.setApply_live (k : Nat) (u : ApplyUnit) : (s.setApply k u).live = s.live := rfl
@[simp] theorem State.setApply_tileLive (k : Nat) (u : ApplyUnit) : (s.setApply k u).tileLive = s.tileLive := rfl
@[simp] theorem State.setApply_regs (k : Nat) (u : ApplyUnit) : (s.setApply k u).regs = s.regs := rfl
@[simp] theorem State.setApply_crest (k : Nat) (u : ApplyUnit) : (s.setApply k u).crest = s.crest := rfl
@[simp] theorem State.setApply_lee (k : Nat) (u : ApplyUnit) : (s.setApply k u).lee = s.lee := rfl
@[simp] theorem State.setApply_old (k : Nat) (u : ApplyUnit) : (s.setApply k u).old = s.old := rfl
@[simp] theorem State.setApply_oldDigest (k : Nat) (u : ApplyUnit) : (s.setApply k u).oldDigest = s.oldDigest := rfl
@[simp] theorem State.setApply_crestBad (k : Nat) (u : ApplyUnit) : (s.setApply k u).crestBad = s.crestBad := rfl
@[simp] theorem State.setApply_leeBad (k : Nat) (u : ApplyUnit) : (s.setApply k u).leeBad = s.leeBad := rfl
@[simp] theorem State.setApply_oldBad (k : Nat) (u : ApplyUnit) : (s.setApply k u).oldBad = s.oldBad := rfl
@[simp] theorem State.setApply_refreshing (k : Nat) (u : ApplyUnit) : (s.setApply k u).refreshing = s.refreshing := rfl
@[simp] theorem State.setApply_heldWrites (k : Nat) (u : ApplyUnit) : (s.setApply k u).heldWrites = s.heldWrites := rfl
@[simp] theorem State.setApply_latch (k : Nat) (u : ApplyUnit) : (s.setApply k u).latch = s.latch := rfl
@[simp] theorem State.setApply_staged (k : Nat) (u : ApplyUnit) : (s.setApply k u).staged = s.staged := rfl
@[simp] theorem State.setApply_time (k : Nat) (u : ApplyUnit) : (s.setApply k u).time = s.time := rfl
@[simp] theorem State.setApply_unit (k : Nat) (u : ApplyUnit) : (s.setApply k u).unit = s.unit := rfl
@[simp] theorem State.setApply_logs (k : Nat) (u : ApplyUnit) : (s.setApply k u).logs = s.logs := rfl
@[simp] theorem State.setApply_link (k : Nat) (u : ApplyUnit) : (s.setApply k u).link = s.link := rfl
@[simp] theorem State.setApply_loader (k : Nat) (u : ApplyUnit) : (s.setApply k u).loader = s.loader := rfl
@[simp] theorem State.setApply_slip (k : Nat) (u : ApplyUnit) : (s.setApply k u).slip = s.slip := rfl
@[simp] theorem State.setApply_jobs (k : Nat) (u : ApplyUnit) : (s.setApply k u).jobs = s.jobs := rfl
@[simp] theorem State.setApply_cycles (k : Nat) (u : ApplyUnit) : (s.setApply k u).cycles = s.cycles := rfl
@[simp] theorem State.setApply_submits (k : Nat) (u : ApplyUnit) : (s.setApply k u).submits = s.submits := rfl
@[simp] theorem State.setApply_ingress (k : Nat) (u : ApplyUnit) : (s.setApply k u).ingress = s.ingress := rfl
@[simp] theorem State.setApply_ports (k : Nat) (u : ApplyUnit) : (s.setApply k u).ports = s.ports := rfl
@[simp] theorem State.setApply_tiles (k : Nat) (u : ApplyUnit) : (s.setApply k u).tiles = s.tiles := rfl
@[simp] theorem State.setApply_resv (k : Nat) (u : ApplyUnit) : (s.setApply k u).resv = s.resv := rfl
@[simp] theorem State.setApply_net (k : Nat) (u : ApplyUnit) : (s.setApply k u).net = s.net := rfl
@[simp] theorem State.setApply_power (k : Nat) (u : ApplyUnit) : (s.setApply k u).power = s.power := rfl
@[simp] theorem State.setApply_dw (k : Nat) (u : ApplyUnit) : (s.setApply k u).dw = s.dw := rfl
@[simp] theorem State.setApply_chips (k : Nat) (u : ApplyUnit) : (s.setApply k u).chips = s.chips := rfl
@[simp] theorem State.setApply_free (k : Nat) (u : ApplyUnit) : (s.setApply k u).free = s.free := rfl

/-! ### State.modJob -/

@[simp] theorem State.modJob_pending (id : JobId) (f : Job → Job) : (s.modJob id f).pending = s.pending := rfl
@[simp] theorem State.modJob_fuses (id : JobId) (f : Job → Job) : (s.modJob id f).fuses = s.fuses := rfl
@[simp] theorem State.modJob_live (id : JobId) (f : Job → Job) : (s.modJob id f).live = s.live := rfl
@[simp] theorem State.modJob_tileLive (id : JobId) (f : Job → Job) : (s.modJob id f).tileLive = s.tileLive := rfl
@[simp] theorem State.modJob_regs (id : JobId) (f : Job → Job) : (s.modJob id f).regs = s.regs := rfl
@[simp] theorem State.modJob_crest (id : JobId) (f : Job → Job) : (s.modJob id f).crest = s.crest := rfl
@[simp] theorem State.modJob_lee (id : JobId) (f : Job → Job) : (s.modJob id f).lee = s.lee := rfl
@[simp] theorem State.modJob_old (id : JobId) (f : Job → Job) : (s.modJob id f).old = s.old := rfl
@[simp] theorem State.modJob_oldDigest (id : JobId) (f : Job → Job) : (s.modJob id f).oldDigest = s.oldDigest := rfl
@[simp] theorem State.modJob_crestBad (id : JobId) (f : Job → Job) : (s.modJob id f).crestBad = s.crestBad := rfl
@[simp] theorem State.modJob_leeBad (id : JobId) (f : Job → Job) : (s.modJob id f).leeBad = s.leeBad := rfl
@[simp] theorem State.modJob_oldBad (id : JobId) (f : Job → Job) : (s.modJob id f).oldBad = s.oldBad := rfl
@[simp] theorem State.modJob_refreshing (id : JobId) (f : Job → Job) : (s.modJob id f).refreshing = s.refreshing := rfl
@[simp] theorem State.modJob_heldWrites (id : JobId) (f : Job → Job) : (s.modJob id f).heldWrites = s.heldWrites := rfl
@[simp] theorem State.modJob_latch (id : JobId) (f : Job → Job) : (s.modJob id f).latch = s.latch := rfl
@[simp] theorem State.modJob_staged (id : JobId) (f : Job → Job) : (s.modJob id f).staged = s.staged := rfl
@[simp] theorem State.modJob_time (id : JobId) (f : Job → Job) : (s.modJob id f).time = s.time := rfl
@[simp] theorem State.modJob_unit (id : JobId) (f : Job → Job) : (s.modJob id f).unit = s.unit := rfl
@[simp] theorem State.modJob_logs (id : JobId) (f : Job → Job) : (s.modJob id f).logs = s.logs := rfl
@[simp] theorem State.modJob_link (id : JobId) (f : Job → Job) : (s.modJob id f).link = s.link := rfl
@[simp] theorem State.modJob_loader (id : JobId) (f : Job → Job) : (s.modJob id f).loader = s.loader := rfl
@[simp] theorem State.modJob_slip (id : JobId) (f : Job → Job) : (s.modJob id f).slip = s.slip := rfl
@[simp] theorem State.modJob_cycles (id : JobId) (f : Job → Job) : (s.modJob id f).cycles = s.cycles := rfl
@[simp] theorem State.modJob_submits (id : JobId) (f : Job → Job) : (s.modJob id f).submits = s.submits := rfl
@[simp] theorem State.modJob_ingress (id : JobId) (f : Job → Job) : (s.modJob id f).ingress = s.ingress := rfl
@[simp] theorem State.modJob_ports (id : JobId) (f : Job → Job) : (s.modJob id f).ports = s.ports := rfl
@[simp] theorem State.modJob_tiles (id : JobId) (f : Job → Job) : (s.modJob id f).tiles = s.tiles := rfl
@[simp] theorem State.modJob_apply (id : JobId) (f : Job → Job) : (s.modJob id f).apply = s.apply := rfl
@[simp] theorem State.modJob_resv (id : JobId) (f : Job → Job) : (s.modJob id f).resv = s.resv := rfl
@[simp] theorem State.modJob_net (id : JobId) (f : Job → Job) : (s.modJob id f).net = s.net := rfl
@[simp] theorem State.modJob_power (id : JobId) (f : Job → Job) : (s.modJob id f).power = s.power := rfl
@[simp] theorem State.modJob_dw (id : JobId) (f : Job → Job) : (s.modJob id f).dw = s.dw := rfl
@[simp] theorem State.modJob_chips (id : JobId) (f : Job → Job) : (s.modJob id f).chips = s.chips := rfl
@[simp] theorem State.modJob_free (id : JobId) (f : Job → Job) : (s.modJob id f).free = s.free := rfl

/-! ### State.abWrite -/

@[simp] theorem State.abWrite_pending (t off : Nat) (bs : List Byte) (bad : Nat → Bool) : (s.abWrite t off bs bad).pending = s.pending := rfl
@[simp] theorem State.abWrite_fuses (t off : Nat) (bs : List Byte) (bad : Nat → Bool) : (s.abWrite t off bs bad).fuses = s.fuses := rfl
@[simp] theorem State.abWrite_live (t off : Nat) (bs : List Byte) (bad : Nat → Bool) : (s.abWrite t off bs bad).live = s.live := rfl
@[simp] theorem State.abWrite_tileLive (t off : Nat) (bs : List Byte) (bad : Nat → Bool) : (s.abWrite t off bs bad).tileLive = s.tileLive := rfl
@[simp] theorem State.abWrite_regs (t off : Nat) (bs : List Byte) (bad : Nat → Bool) : (s.abWrite t off bs bad).regs = s.regs := rfl
@[simp] theorem State.abWrite_crest (t off : Nat) (bs : List Byte) (bad : Nat → Bool) : (s.abWrite t off bs bad).crest = s.crest := rfl
@[simp] theorem State.abWrite_lee (t off : Nat) (bs : List Byte) (bad : Nat → Bool) : (s.abWrite t off bs bad).lee = s.lee := rfl
@[simp] theorem State.abWrite_old (t off : Nat) (bs : List Byte) (bad : Nat → Bool) : (s.abWrite t off bs bad).old = s.old := rfl
@[simp] theorem State.abWrite_oldDigest (t off : Nat) (bs : List Byte) (bad : Nat → Bool) : (s.abWrite t off bs bad).oldDigest = s.oldDigest := rfl
@[simp] theorem State.abWrite_crestBad (t off : Nat) (bs : List Byte) (bad : Nat → Bool) : (s.abWrite t off bs bad).crestBad = s.crestBad := rfl
@[simp] theorem State.abWrite_leeBad (t off : Nat) (bs : List Byte) (bad : Nat → Bool) : (s.abWrite t off bs bad).leeBad = s.leeBad := rfl
@[simp] theorem State.abWrite_oldBad (t off : Nat) (bs : List Byte) (bad : Nat → Bool) : (s.abWrite t off bs bad).oldBad = s.oldBad := rfl
@[simp] theorem State.abWrite_refreshing (t off : Nat) (bs : List Byte) (bad : Nat → Bool) : (s.abWrite t off bs bad).refreshing = s.refreshing := rfl
@[simp] theorem State.abWrite_heldWrites (t off : Nat) (bs : List Byte) (bad : Nat → Bool) : (s.abWrite t off bs bad).heldWrites = s.heldWrites := rfl
@[simp] theorem State.abWrite_latch (t off : Nat) (bs : List Byte) (bad : Nat → Bool) : (s.abWrite t off bs bad).latch = s.latch := rfl
@[simp] theorem State.abWrite_staged (t off : Nat) (bs : List Byte) (bad : Nat → Bool) : (s.abWrite t off bs bad).staged = s.staged := rfl
@[simp] theorem State.abWrite_time (t off : Nat) (bs : List Byte) (bad : Nat → Bool) : (s.abWrite t off bs bad).time = s.time := rfl
@[simp] theorem State.abWrite_unit (t off : Nat) (bs : List Byte) (bad : Nat → Bool) : (s.abWrite t off bs bad).unit = s.unit := rfl
@[simp] theorem State.abWrite_logs (t off : Nat) (bs : List Byte) (bad : Nat → Bool) : (s.abWrite t off bs bad).logs = s.logs := rfl
@[simp] theorem State.abWrite_link (t off : Nat) (bs : List Byte) (bad : Nat → Bool) : (s.abWrite t off bs bad).link = s.link := rfl
@[simp] theorem State.abWrite_loader (t off : Nat) (bs : List Byte) (bad : Nat → Bool) : (s.abWrite t off bs bad).loader = s.loader := rfl
@[simp] theorem State.abWrite_slip (t off : Nat) (bs : List Byte) (bad : Nat → Bool) : (s.abWrite t off bs bad).slip = s.slip := rfl
@[simp] theorem State.abWrite_jobs (t off : Nat) (bs : List Byte) (bad : Nat → Bool) : (s.abWrite t off bs bad).jobs = s.jobs := rfl
@[simp] theorem State.abWrite_cycles (t off : Nat) (bs : List Byte) (bad : Nat → Bool) : (s.abWrite t off bs bad).cycles = s.cycles := rfl
@[simp] theorem State.abWrite_submits (t off : Nat) (bs : List Byte) (bad : Nat → Bool) : (s.abWrite t off bs bad).submits = s.submits := rfl
@[simp] theorem State.abWrite_ingress (t off : Nat) (bs : List Byte) (bad : Nat → Bool) : (s.abWrite t off bs bad).ingress = s.ingress := rfl
@[simp] theorem State.abWrite_ports (t off : Nat) (bs : List Byte) (bad : Nat → Bool) : (s.abWrite t off bs bad).ports = s.ports := rfl
@[simp] theorem State.abWrite_apply (t off : Nat) (bs : List Byte) (bad : Nat → Bool) : (s.abWrite t off bs bad).apply = s.apply := rfl
@[simp] theorem State.abWrite_resv (t off : Nat) (bs : List Byte) (bad : Nat → Bool) : (s.abWrite t off bs bad).resv = s.resv := rfl
@[simp] theorem State.abWrite_net (t off : Nat) (bs : List Byte) (bad : Nat → Bool) : (s.abWrite t off bs bad).net = s.net := rfl
@[simp] theorem State.abWrite_power (t off : Nat) (bs : List Byte) (bad : Nat → Bool) : (s.abWrite t off bs bad).power = s.power := rfl
@[simp] theorem State.abWrite_dw (t off : Nat) (bs : List Byte) (bad : Nat → Bool) : (s.abWrite t off bs bad).dw = s.dw := rfl
@[simp] theorem State.abWrite_chips (t off : Nat) (bs : List Byte) (bad : Nat → Bool) : (s.abWrite t off bs bad).chips = s.chips := rfl
@[simp] theorem State.abWrite_free (t off : Nat) (bs : List Byte) (bad : Nat → Bool) : (s.abWrite t off bs bad).free = s.free := rfl

/-! ### State.hostWrite -/

@[simp] theorem State.hostWrite_pending (a : Nat) (bs : List Byte) : (s.hostWrite a bs).pending = s.pending := rfl
@[simp] theorem State.hostWrite_fuses (a : Nat) (bs : List Byte) : (s.hostWrite a bs).fuses = s.fuses := rfl
@[simp] theorem State.hostWrite_live (a : Nat) (bs : List Byte) : (s.hostWrite a bs).live = s.live := rfl
@[simp] theorem State.hostWrite_tileLive (a : Nat) (bs : List Byte) : (s.hostWrite a bs).tileLive = s.tileLive := rfl
@[simp] theorem State.hostWrite_regs (a : Nat) (bs : List Byte) : (s.hostWrite a bs).regs = s.regs := rfl
@[simp] theorem State.hostWrite_crest (a : Nat) (bs : List Byte) : (s.hostWrite a bs).crest = s.crest := rfl
@[simp] theorem State.hostWrite_lee (a : Nat) (bs : List Byte) : (s.hostWrite a bs).lee = s.lee := rfl
@[simp] theorem State.hostWrite_old (a : Nat) (bs : List Byte) : (s.hostWrite a bs).old = s.old := rfl
@[simp] theorem State.hostWrite_oldDigest (a : Nat) (bs : List Byte) : (s.hostWrite a bs).oldDigest = s.oldDigest := rfl
@[simp] theorem State.hostWrite_crestBad (a : Nat) (bs : List Byte) : (s.hostWrite a bs).crestBad = s.crestBad := rfl
@[simp] theorem State.hostWrite_leeBad (a : Nat) (bs : List Byte) : (s.hostWrite a bs).leeBad = s.leeBad := rfl
@[simp] theorem State.hostWrite_oldBad (a : Nat) (bs : List Byte) : (s.hostWrite a bs).oldBad = s.oldBad := rfl
@[simp] theorem State.hostWrite_refreshing (a : Nat) (bs : List Byte) : (s.hostWrite a bs).refreshing = s.refreshing := rfl
@[simp] theorem State.hostWrite_heldWrites (a : Nat) (bs : List Byte) : (s.hostWrite a bs).heldWrites = s.heldWrites := rfl
@[simp] theorem State.hostWrite_latch (a : Nat) (bs : List Byte) : (s.hostWrite a bs).latch = s.latch := rfl
@[simp] theorem State.hostWrite_staged (a : Nat) (bs : List Byte) : (s.hostWrite a bs).staged = s.staged := rfl
@[simp] theorem State.hostWrite_time (a : Nat) (bs : List Byte) : (s.hostWrite a bs).time = s.time := rfl
@[simp] theorem State.hostWrite_unit (a : Nat) (bs : List Byte) : (s.hostWrite a bs).unit = s.unit := rfl
@[simp] theorem State.hostWrite_logs (a : Nat) (bs : List Byte) : (s.hostWrite a bs).logs = s.logs := rfl
@[simp] theorem State.hostWrite_loader (a : Nat) (bs : List Byte) : (s.hostWrite a bs).loader = s.loader := rfl
@[simp] theorem State.hostWrite_slip (a : Nat) (bs : List Byte) : (s.hostWrite a bs).slip = s.slip := rfl
@[simp] theorem State.hostWrite_jobs (a : Nat) (bs : List Byte) : (s.hostWrite a bs).jobs = s.jobs := rfl
@[simp] theorem State.hostWrite_cycles (a : Nat) (bs : List Byte) : (s.hostWrite a bs).cycles = s.cycles := rfl
@[simp] theorem State.hostWrite_submits (a : Nat) (bs : List Byte) : (s.hostWrite a bs).submits = s.submits := rfl
@[simp] theorem State.hostWrite_ingress (a : Nat) (bs : List Byte) : (s.hostWrite a bs).ingress = s.ingress := rfl
@[simp] theorem State.hostWrite_ports (a : Nat) (bs : List Byte) : (s.hostWrite a bs).ports = s.ports := rfl
@[simp] theorem State.hostWrite_tiles (a : Nat) (bs : List Byte) : (s.hostWrite a bs).tiles = s.tiles := rfl
@[simp] theorem State.hostWrite_apply (a : Nat) (bs : List Byte) : (s.hostWrite a bs).apply = s.apply := rfl
@[simp] theorem State.hostWrite_resv (a : Nat) (bs : List Byte) : (s.hostWrite a bs).resv = s.resv := rfl
@[simp] theorem State.hostWrite_net (a : Nat) (bs : List Byte) : (s.hostWrite a bs).net = s.net := rfl
@[simp] theorem State.hostWrite_power (a : Nat) (bs : List Byte) : (s.hostWrite a bs).power = s.power := rfl
@[simp] theorem State.hostWrite_dw (a : Nat) (bs : List Byte) : (s.hostWrite a bs).dw = s.dw := rfl
@[simp] theorem State.hostWrite_chips (a : Nat) (bs : List Byte) : (s.hostWrite a bs).chips = s.chips := rfl
@[simp] theorem State.hostWrite_free (a : Nat) (bs : List Byte) : (s.hostWrite a bs).free = s.free := rfl

/-! ### State.onChip -/

@[simp] theorem State.onChip_pending (n : Fin 4) (f : Chip → Chip) : (s.onChip n f).pending = s.pending := rfl
@[simp] theorem State.onChip_fuses (n : Fin 4) (f : Chip → Chip) : (s.onChip n f).fuses = s.fuses := rfl
@[simp] theorem State.onChip_live (n : Fin 4) (f : Chip → Chip) : (s.onChip n f).live = s.live := rfl
@[simp] theorem State.onChip_tileLive (n : Fin 4) (f : Chip → Chip) : (s.onChip n f).tileLive = s.tileLive := rfl
@[simp] theorem State.onChip_regs (n : Fin 4) (f : Chip → Chip) : (s.onChip n f).regs = s.regs := rfl
@[simp] theorem State.onChip_crest (n : Fin 4) (f : Chip → Chip) : (s.onChip n f).crest = s.crest := rfl
@[simp] theorem State.onChip_lee (n : Fin 4) (f : Chip → Chip) : (s.onChip n f).lee = s.lee := rfl
@[simp] theorem State.onChip_old (n : Fin 4) (f : Chip → Chip) : (s.onChip n f).old = s.old := rfl
@[simp] theorem State.onChip_oldDigest (n : Fin 4) (f : Chip → Chip) : (s.onChip n f).oldDigest = s.oldDigest := rfl
@[simp] theorem State.onChip_crestBad (n : Fin 4) (f : Chip → Chip) : (s.onChip n f).crestBad = s.crestBad := rfl
@[simp] theorem State.onChip_leeBad (n : Fin 4) (f : Chip → Chip) : (s.onChip n f).leeBad = s.leeBad := rfl
@[simp] theorem State.onChip_oldBad (n : Fin 4) (f : Chip → Chip) : (s.onChip n f).oldBad = s.oldBad := rfl
@[simp] theorem State.onChip_refreshing (n : Fin 4) (f : Chip → Chip) : (s.onChip n f).refreshing = s.refreshing := rfl
@[simp] theorem State.onChip_heldWrites (n : Fin 4) (f : Chip → Chip) : (s.onChip n f).heldWrites = s.heldWrites := rfl
@[simp] theorem State.onChip_latch (n : Fin 4) (f : Chip → Chip) : (s.onChip n f).latch = s.latch := rfl
@[simp] theorem State.onChip_staged (n : Fin 4) (f : Chip → Chip) : (s.onChip n f).staged = s.staged := rfl
@[simp] theorem State.onChip_time (n : Fin 4) (f : Chip → Chip) : (s.onChip n f).time = s.time := rfl
@[simp] theorem State.onChip_unit (n : Fin 4) (f : Chip → Chip) : (s.onChip n f).unit = s.unit := rfl
@[simp] theorem State.onChip_logs (n : Fin 4) (f : Chip → Chip) : (s.onChip n f).logs = s.logs := rfl
@[simp] theorem State.onChip_link (n : Fin 4) (f : Chip → Chip) : (s.onChip n f).link = s.link := rfl
@[simp] theorem State.onChip_loader (n : Fin 4) (f : Chip → Chip) : (s.onChip n f).loader = s.loader := rfl
@[simp] theorem State.onChip_slip (n : Fin 4) (f : Chip → Chip) : (s.onChip n f).slip = s.slip := rfl
@[simp] theorem State.onChip_jobs (n : Fin 4) (f : Chip → Chip) : (s.onChip n f).jobs = s.jobs := rfl
@[simp] theorem State.onChip_cycles (n : Fin 4) (f : Chip → Chip) : (s.onChip n f).cycles = s.cycles := rfl
@[simp] theorem State.onChip_submits (n : Fin 4) (f : Chip → Chip) : (s.onChip n f).submits = s.submits := rfl
@[simp] theorem State.onChip_ingress (n : Fin 4) (f : Chip → Chip) : (s.onChip n f).ingress = s.ingress := rfl
@[simp] theorem State.onChip_ports (n : Fin 4) (f : Chip → Chip) : (s.onChip n f).ports = s.ports := rfl
@[simp] theorem State.onChip_tiles (n : Fin 4) (f : Chip → Chip) : (s.onChip n f).tiles = s.tiles := rfl
@[simp] theorem State.onChip_apply (n : Fin 4) (f : Chip → Chip) : (s.onChip n f).apply = s.apply := rfl
@[simp] theorem State.onChip_resv (n : Fin 4) (f : Chip → Chip) : (s.onChip n f).resv = s.resv := rfl
@[simp] theorem State.onChip_net (n : Fin 4) (f : Chip → Chip) : (s.onChip n f).net = s.net := rfl
@[simp] theorem State.onChip_power (n : Fin 4) (f : Chip → Chip) : (s.onChip n f).power = s.power := rfl
@[simp] theorem State.onChip_dw (n : Fin 4) (f : Chip → Chip) : (s.onChip n f).dw = s.dw := rfl
@[simp] theorem State.onChip_free (n : Fin 4) (f : Chip → Chip) : (s.onChip n f).free = s.free := rfl

/-! ### The core -/

@[simp] theorem Core.setA_id (c : Core) (r : Fin 16) (v : BitVec 64) (bad : Bool) : (c.setA r v bad).id = c.id := rfl
@[simp] theorem Core.setA_admitted (c : Core) (r : Fin 16) (v : BitVec 64) (bad : Bool) : (c.setA r v bad).admitted = c.admitted := rfl
@[simp] theorem Core.setA_bank (c : Core) (r : Fin 16) (v : BitVec 64) (bad : Bool) : (c.setA r v bad).bank = c.bank := rfl
@[simp] theorem Core.setA_old (c : Core) (r : Fin 16) (v : BitVec 64) (bad : Bool) : (c.setA r v bad).old = c.old := rfl
@[simp] theorem Core.setA_image (c : Core) (r : Fin 16) (v : BitVec 64) (bad : Bool) : (c.setA r v bad).image = c.image := rfl
@[simp] theorem Core.setA_entry (c : Core) (r : Fin 16) (v : BitVec 64) (bad : Bool) : (c.setA r v bad).entry = c.entry := rfl
@[simp] theorem Core.setA_profile (c : Core) (r : Fin 16) (v : BitVec 64) (bad : Bool) : (c.setA r v bad).profile = c.profile := rfl
@[simp] theorem Core.setA_pc (c : Core) (r : Fin 16) (v : BitVec 64) (bad : Bool) : (c.setA r v bad).pc = c.pc := rfl
@[simp] theorem Core.setA_sreg (c : Core) (r : Fin 16) (v : BitVec 64) (bad : Bool) : (c.setA r v bad).sreg = c.sreg := rfl
@[simp] theorem Core.setA_preg (c : Core) (r : Fin 16) (v : BitVec 64) (bad : Bool) : (c.setA r v bad).preg = c.preg := rfl
@[simp] theorem Core.setA_desc (c : Core) (r : Fin 16) (v : BitVec 64) (bad : Bool) : (c.setA r v bad).desc = c.desc := rfl
@[simp] theorem Core.setA_vx (c : Core) (r : Fin 16) (v : BitVec 64) (bad : Bool) : (c.setA r v bad).vx = c.vx := rfl
@[simp] theorem Core.setA_vxPoison (c : Core) (r : Fin 16) (v : BitVec 64) (bad : Bool) : (c.setA r v bad).vxPoison = c.vxPoison := rfl
@[simp] theorem Core.setA_facet (c : Core) (r : Fin 16) (v : BitVec 64) (bad : Bool) : (c.setA r v bad).facet = c.facet := rfl
@[simp] theorem Core.setA_prod (c : Core) (r : Fin 16) (v : BitVec 64) (bad : Bool) : (c.setA r v bad).prod = c.prod := rfl
@[simp] theorem Core.setA_emits (c : Core) (r : Fin 16) (v : BitVec 64) (bad : Bool) : (c.setA r v bad).emits = c.emits := rfl
@[simp] theorem Core.setA_counters (c : Core) (r : Fin 16) (v : BitVec 64) (bad : Bool) : (c.setA r v bad).counters = c.counters := rfl
@[simp] theorem Core.setA_wait (c : Core) (r : Fin 16) (v : BitVec 64) (bad : Bool) : (c.setA r v bad).wait = c.wait := rfl
@[simp] theorem Core.setA_reply (c : Core) (r : Fin 16) (v : BitVec 64) (bad : Bool) : (c.setA r v bad).reply = c.reply := rfl
@[simp] theorem Core.setA_holds (c : Core) (r : Fin 16) (v : BitVec 64) (bad : Bool) : (c.setA r v bad).holds = c.holds := rfl
@[simp] theorem Core.setA_settled (c : Core) (r : Fin 16) (v : BitVec 64) (bad : Bool) : (c.setA r v bad).settled = c.settled := rfl
@[simp] theorem Core.setA_blocked (c : Core) (r : Fin 16) (v : BitVec 64) (bad : Bool) : (c.setA r v bad).blocked = c.blocked := rfl
@[simp] theorem Core.setD_id (c : Core) (r : Fin 16) (v : Desc) : (c.setD r v).id = c.id := rfl
@[simp] theorem Core.setD_admitted (c : Core) (r : Fin 16) (v : Desc) : (c.setD r v).admitted = c.admitted := rfl
@[simp] theorem Core.setD_bank (c : Core) (r : Fin 16) (v : Desc) : (c.setD r v).bank = c.bank := rfl
@[simp] theorem Core.setD_old (c : Core) (r : Fin 16) (v : Desc) : (c.setD r v).old = c.old := rfl
@[simp] theorem Core.setD_image (c : Core) (r : Fin 16) (v : Desc) : (c.setD r v).image = c.image := rfl
@[simp] theorem Core.setD_entry (c : Core) (r : Fin 16) (v : Desc) : (c.setD r v).entry = c.entry := rfl
@[simp] theorem Core.setD_profile (c : Core) (r : Fin 16) (v : Desc) : (c.setD r v).profile = c.profile := rfl
@[simp] theorem Core.setD_pc (c : Core) (r : Fin 16) (v : Desc) : (c.setD r v).pc = c.pc := rfl
@[simp] theorem Core.setD_sreg (c : Core) (r : Fin 16) (v : Desc) : (c.setD r v).sreg = c.sreg := rfl
@[simp] theorem Core.setD_areg (c : Core) (r : Fin 16) (v : Desc) : (c.setD r v).areg = c.areg := rfl
@[simp] theorem Core.setD_preg (c : Core) (r : Fin 16) (v : Desc) : (c.setD r v).preg = c.preg := rfl
@[simp] theorem Core.setD_vx (c : Core) (r : Fin 16) (v : Desc) : (c.setD r v).vx = c.vx := rfl
@[simp] theorem Core.setD_vxPoison (c : Core) (r : Fin 16) (v : Desc) : (c.setD r v).vxPoison = c.vxPoison := rfl
@[simp] theorem Core.setD_regPoison (c : Core) (r : Fin 16) (v : Desc) : (c.setD r v).regPoison = c.regPoison := rfl
@[simp] theorem Core.setD_facet (c : Core) (r : Fin 16) (v : Desc) : (c.setD r v).facet = c.facet := rfl
@[simp] theorem Core.setD_prod (c : Core) (r : Fin 16) (v : Desc) : (c.setD r v).prod = c.prod := rfl
@[simp] theorem Core.setD_emits (c : Core) (r : Fin 16) (v : Desc) : (c.setD r v).emits = c.emits := rfl
@[simp] theorem Core.setD_counters (c : Core) (r : Fin 16) (v : Desc) : (c.setD r v).counters = c.counters := rfl
@[simp] theorem Core.setD_wait (c : Core) (r : Fin 16) (v : Desc) : (c.setD r v).wait = c.wait := rfl
@[simp] theorem Core.setD_reply (c : Core) (r : Fin 16) (v : Desc) : (c.setD r v).reply = c.reply := rfl
@[simp] theorem Core.setD_holds (c : Core) (r : Fin 16) (v : Desc) : (c.setD r v).holds = c.holds := rfl
@[simp] theorem Core.setD_settled (c : Core) (r : Fin 16) (v : Desc) : (c.setD r v).settled = c.settled := rfl
@[simp] theorem Core.setD_blocked (c : Core) (r : Fin 16) (v : Desc) : (c.setD r v).blocked = c.blocked := rfl
@[simp] theorem Core.setLanes_id (c : Core) (r : Fin 16) (f : Fin 64 → Word) (bad : Nat → Bool) : (c.setLanes r f bad).id = c.id := rfl
@[simp] theorem Core.setLanes_admitted (c : Core) (r : Fin 16) (f : Fin 64 → Word) (bad : Nat → Bool) : (c.setLanes r f bad).admitted = c.admitted := rfl
@[simp] theorem Core.setLanes_bank (c : Core) (r : Fin 16) (f : Fin 64 → Word) (bad : Nat → Bool) : (c.setLanes r f bad).bank = c.bank := rfl
@[simp] theorem Core.setLanes_old (c : Core) (r : Fin 16) (f : Fin 64 → Word) (bad : Nat → Bool) : (c.setLanes r f bad).old = c.old := rfl
@[simp] theorem Core.setLanes_image (c : Core) (r : Fin 16) (f : Fin 64 → Word) (bad : Nat → Bool) : (c.setLanes r f bad).image = c.image := rfl
@[simp] theorem Core.setLanes_entry (c : Core) (r : Fin 16) (f : Fin 64 → Word) (bad : Nat → Bool) : (c.setLanes r f bad).entry = c.entry := rfl
@[simp] theorem Core.setLanes_profile (c : Core) (r : Fin 16) (f : Fin 64 → Word) (bad : Nat → Bool) : (c.setLanes r f bad).profile = c.profile := rfl
@[simp] theorem Core.setLanes_pc (c : Core) (r : Fin 16) (f : Fin 64 → Word) (bad : Nat → Bool) : (c.setLanes r f bad).pc = c.pc := rfl
@[simp] theorem Core.setLanes_sreg (c : Core) (r : Fin 16) (f : Fin 64 → Word) (bad : Nat → Bool) : (c.setLanes r f bad).sreg = c.sreg := rfl
@[simp] theorem Core.setLanes_areg (c : Core) (r : Fin 16) (f : Fin 64 → Word) (bad : Nat → Bool) : (c.setLanes r f bad).areg = c.areg := rfl
@[simp] theorem Core.setLanes_preg (c : Core) (r : Fin 16) (f : Fin 64 → Word) (bad : Nat → Bool) : (c.setLanes r f bad).preg = c.preg := rfl
@[simp] theorem Core.setLanes_desc (c : Core) (r : Fin 16) (f : Fin 64 → Word) (bad : Nat → Bool) : (c.setLanes r f bad).desc = c.desc := rfl
@[simp] theorem Core.setLanes_regPoison (c : Core) (r : Fin 16) (f : Fin 64 → Word) (bad : Nat → Bool) : (c.setLanes r f bad).regPoison = c.regPoison := rfl
@[simp] theorem Core.setLanes_facet (c : Core) (r : Fin 16) (f : Fin 64 → Word) (bad : Nat → Bool) : (c.setLanes r f bad).facet = c.facet := rfl
@[simp] theorem Core.setLanes_prod (c : Core) (r : Fin 16) (f : Fin 64 → Word) (bad : Nat → Bool) : (c.setLanes r f bad).prod = c.prod := rfl
@[simp] theorem Core.setLanes_emits (c : Core) (r : Fin 16) (f : Fin 64 → Word) (bad : Nat → Bool) : (c.setLanes r f bad).emits = c.emits := rfl
@[simp] theorem Core.setLanes_counters (c : Core) (r : Fin 16) (f : Fin 64 → Word) (bad : Nat → Bool) : (c.setLanes r f bad).counters = c.counters := rfl
@[simp] theorem Core.setLanes_wait (c : Core) (r : Fin 16) (f : Fin 64 → Word) (bad : Nat → Bool) : (c.setLanes r f bad).wait = c.wait := rfl
@[simp] theorem Core.setLanes_reply (c : Core) (r : Fin 16) (f : Fin 64 → Word) (bad : Nat → Bool) : (c.setLanes r f bad).reply = c.reply := rfl
@[simp] theorem Core.setLanes_holds (c : Core) (r : Fin 16) (f : Fin 64 → Word) (bad : Nat → Bool) : (c.setLanes r f bad).holds = c.holds := rfl
@[simp] theorem Core.setLanes_settled (c : Core) (r : Fin 16) (f : Fin 64 → Word) (bad : Nat → Bool) : (c.setLanes r f bad).settled = c.settled := rfl
@[simp] theorem Core.setLanes_blocked (c : Core) (r : Fin 16) (f : Fin 64 → Word) (bad : Nat → Bool) : (c.setLanes r f bad).blocked = c.blocked := rfl
@[simp] theorem Core.setS_id (c : Core) (r : Fin 32) (v : Word) (bad : Bool) : (c.setS r v bad).id = c.id := by unfold Core.setS; split <;> rfl
@[simp] theorem Core.setS_admitted (c : Core) (r : Fin 32) (v : Word) (bad : Bool) : (c.setS r v bad).admitted = c.admitted := by unfold Core.setS; split <;> rfl
@[simp] theorem Core.setS_bank (c : Core) (r : Fin 32) (v : Word) (bad : Bool) : (c.setS r v bad).bank = c.bank := by unfold Core.setS; split <;> rfl
@[simp] theorem Core.setS_old (c : Core) (r : Fin 32) (v : Word) (bad : Bool) : (c.setS r v bad).old = c.old := by unfold Core.setS; split <;> rfl
@[simp] theorem Core.setS_image (c : Core) (r : Fin 32) (v : Word) (bad : Bool) : (c.setS r v bad).image = c.image := by unfold Core.setS; split <;> rfl
@[simp] theorem Core.setS_entry (c : Core) (r : Fin 32) (v : Word) (bad : Bool) : (c.setS r v bad).entry = c.entry := by unfold Core.setS; split <;> rfl
@[simp] theorem Core.setS_profile (c : Core) (r : Fin 32) (v : Word) (bad : Bool) : (c.setS r v bad).profile = c.profile := by unfold Core.setS; split <;> rfl
@[simp] theorem Core.setS_pc (c : Core) (r : Fin 32) (v : Word) (bad : Bool) : (c.setS r v bad).pc = c.pc := by unfold Core.setS; split <;> rfl
@[simp] theorem Core.setS_areg (c : Core) (r : Fin 32) (v : Word) (bad : Bool) : (c.setS r v bad).areg = c.areg := by unfold Core.setS; split <;> rfl
@[simp] theorem Core.setS_preg (c : Core) (r : Fin 32) (v : Word) (bad : Bool) : (c.setS r v bad).preg = c.preg := by unfold Core.setS; split <;> rfl
@[simp] theorem Core.setS_desc (c : Core) (r : Fin 32) (v : Word) (bad : Bool) : (c.setS r v bad).desc = c.desc := by unfold Core.setS; split <;> rfl
@[simp] theorem Core.setS_vx (c : Core) (r : Fin 32) (v : Word) (bad : Bool) : (c.setS r v bad).vx = c.vx := by unfold Core.setS; split <;> rfl
@[simp] theorem Core.setS_vxPoison (c : Core) (r : Fin 32) (v : Word) (bad : Bool) : (c.setS r v bad).vxPoison = c.vxPoison := by unfold Core.setS; split <;> rfl
@[simp] theorem Core.setS_facet (c : Core) (r : Fin 32) (v : Word) (bad : Bool) : (c.setS r v bad).facet = c.facet := by unfold Core.setS; split <;> rfl
@[simp] theorem Core.setS_prod (c : Core) (r : Fin 32) (v : Word) (bad : Bool) : (c.setS r v bad).prod = c.prod := by unfold Core.setS; split <;> rfl
@[simp] theorem Core.setS_emits (c : Core) (r : Fin 32) (v : Word) (bad : Bool) : (c.setS r v bad).emits = c.emits := by unfold Core.setS; split <;> rfl
@[simp] theorem Core.setS_counters (c : Core) (r : Fin 32) (v : Word) (bad : Bool) : (c.setS r v bad).counters = c.counters := by unfold Core.setS; split <;> rfl
@[simp] theorem Core.setS_wait (c : Core) (r : Fin 32) (v : Word) (bad : Bool) : (c.setS r v bad).wait = c.wait := by unfold Core.setS; split <;> rfl
@[simp] theorem Core.setS_reply (c : Core) (r : Fin 32) (v : Word) (bad : Bool) : (c.setS r v bad).reply = c.reply := by unfold Core.setS; split <;> rfl
@[simp] theorem Core.setS_holds (c : Core) (r : Fin 32) (v : Word) (bad : Bool) : (c.setS r v bad).holds = c.holds := by unfold Core.setS; split <;> rfl
@[simp] theorem Core.setS_settled (c : Core) (r : Fin 32) (v : Word) (bad : Bool) : (c.setS r v bad).settled = c.settled := by unfold Core.setS; split <;> rfl
@[simp] theorem Core.setS_blocked (c : Core) (r : Fin 32) (v : Word) (bad : Bool) : (c.setS r v bad).blocked = c.blocked := by unfold Core.setS; split <;> rfl
@[simp] theorem Core.setP_id (c : Core) (r : Fin 8) (v : Bool) (bad : Bool) : (c.setP r v bad).id = c.id := by unfold Core.setP; split <;> rfl
@[simp] theorem Core.setP_admitted (c : Core) (r : Fin 8) (v : Bool) (bad : Bool) : (c.setP r v bad).admitted = c.admitted := by unfold Core.setP; split <;> rfl
@[simp] theorem Core.setP_bank (c : Core) (r : Fin 8) (v : Bool) (bad : Bool) : (c.setP r v bad).bank = c.bank := by unfold Core.setP; split <;> rfl
@[simp] theorem Core.setP_old (c : Core) (r : Fin 8) (v : Bool) (bad : Bool) : (c.setP r v bad).old = c.old := by unfold Core.setP; split <;> rfl
@[simp] theorem Core.setP_image (c : Core) (r : Fin 8) (v : Bool) (bad : Bool) : (c.setP r v bad).image = c.image := by unfold Core.setP; split <;> rfl
@[simp] theorem Core.setP_entry (c : Core) (r : Fin 8) (v : Bool) (bad : Bool) : (c.setP r v bad).entry = c.entry := by unfold Core.setP; split <;> rfl
@[simp] theorem Core.setP_profile (c : Core) (r : Fin 8) (v : Bool) (bad : Bool) : (c.setP r v bad).profile = c.profile := by unfold Core.setP; split <;> rfl
@[simp] theorem Core.setP_pc (c : Core) (r : Fin 8) (v : Bool) (bad : Bool) : (c.setP r v bad).pc = c.pc := by unfold Core.setP; split <;> rfl
@[simp] theorem Core.setP_sreg (c : Core) (r : Fin 8) (v : Bool) (bad : Bool) : (c.setP r v bad).sreg = c.sreg := by unfold Core.setP; split <;> rfl
@[simp] theorem Core.setP_areg (c : Core) (r : Fin 8) (v : Bool) (bad : Bool) : (c.setP r v bad).areg = c.areg := by unfold Core.setP; split <;> rfl
@[simp] theorem Core.setP_desc (c : Core) (r : Fin 8) (v : Bool) (bad : Bool) : (c.setP r v bad).desc = c.desc := by unfold Core.setP; split <;> rfl
@[simp] theorem Core.setP_vx (c : Core) (r : Fin 8) (v : Bool) (bad : Bool) : (c.setP r v bad).vx = c.vx := by unfold Core.setP; split <;> rfl
@[simp] theorem Core.setP_vxPoison (c : Core) (r : Fin 8) (v : Bool) (bad : Bool) : (c.setP r v bad).vxPoison = c.vxPoison := by unfold Core.setP; split <;> rfl
@[simp] theorem Core.setP_facet (c : Core) (r : Fin 8) (v : Bool) (bad : Bool) : (c.setP r v bad).facet = c.facet := by unfold Core.setP; split <;> rfl
@[simp] theorem Core.setP_prod (c : Core) (r : Fin 8) (v : Bool) (bad : Bool) : (c.setP r v bad).prod = c.prod := by unfold Core.setP; split <;> rfl
@[simp] theorem Core.setP_emits (c : Core) (r : Fin 8) (v : Bool) (bad : Bool) : (c.setP r v bad).emits = c.emits := by unfold Core.setP; split <;> rfl
@[simp] theorem Core.setP_counters (c : Core) (r : Fin 8) (v : Bool) (bad : Bool) : (c.setP r v bad).counters = c.counters := by unfold Core.setP; split <;> rfl
@[simp] theorem Core.setP_wait (c : Core) (r : Fin 8) (v : Bool) (bad : Bool) : (c.setP r v bad).wait = c.wait := by unfold Core.setP; split <;> rfl
@[simp] theorem Core.setP_reply (c : Core) (r : Fin 8) (v : Bool) (bad : Bool) : (c.setP r v bad).reply = c.reply := by unfold Core.setP; split <;> rfl
@[simp] theorem Core.setP_holds (c : Core) (r : Fin 8) (v : Bool) (bad : Bool) : (c.setP r v bad).holds = c.holds := by unfold Core.setP; split <;> rfl
@[simp] theorem Core.setP_settled (c : Core) (r : Fin 8) (v : Bool) (bad : Bool) : (c.setP r v bad).settled = c.settled := by unfold Core.setP; split <;> rfl
@[simp] theorem Core.setP_blocked (c : Core) (r : Fin 8) (v : Bool) (bad : Bool) : (c.setP r v bad).blocked = c.blocked := by unfold Core.setP; split <;> rfl

/-! ### The chip -/

@[simp] theorem Chip.hsSet_powered (c : Chip) (k : Fin 12) (h : HsChan) : (c.hsSet k h).powered = c.powered := rfl
@[simp] theorem Chip.hsSet_powerAt (c : Chip) (k : Fin 12) (h : HsChan) : (c.hsSet k h).powerAt = c.powerAt := rfl
@[simp] theorem Chip.hsSet_supervisor (c : Chip) (k : Fin 12) (h : HsChan) : (c.hsSet k h).supervisor = c.supervisor := rfl
@[simp] theorem Chip.hsSet_locked (c : Chip) (k : Fin 12) (h : HsChan) : (c.hsSet k h).locked = c.locked := rfl
@[simp] theorem Chip.hsSet_timeRun (c : Chip) (k : Fin 12) (h : HsChan) : (c.hsSet k h).timeRun = c.timeRun := rfl
@[simp] theorem Chip.hsSet_lastTime (c : Chip) (k : Fin 12) (h : HsChan) : (c.hsSet k h).lastTime = c.lastTime := rfl
@[simp] theorem Chip.hsSet_lossAt (c : Chip) (k : Fin 12) (h : HsChan) : (c.hsSet k h).lossAt = c.lossAt := rfl
@[simp] theorem Chip.hsSet_clock (c : Chip) (k : Fin 12) (h : HsChan) : (c.hsSet k h).clock = c.clock := rfl
@[simp] theorem Chip.hsSet_vs (c : Chip) (k : Fin 12) (h : HsChan) : (c.hsSet k h).vs = c.vs := rfl
@[simp] theorem Chip.hsSet_vsWin (c : Chip) (k : Fin 12) (h : HsChan) : (c.hsSet k h).vsWin = c.vsWin := rfl
@[simp] theorem Chip.hsSet_crank (c : Chip) (k : Fin 12) (h : HsChan) : (c.hsSet k h).crank = c.crank := rfl
@[simp] theorem Chip.hsSet_crankAt (c : Chip) (k : Fin 12) (h : HsChan) : (c.hsSet k h).crankAt = c.crankAt := rfl
@[simp] theorem Chip.hsSet_underV (c : Chip) (k : Fin 12) (h : HsChan) : (c.hsSet k h).underV = c.underV := rfl
@[simp] theorem Chip.hsSet_overV (c : Chip) (k : Fin 12) (h : HsChan) : (c.hsSet k h).overV = c.overV := rfl
@[simp] theorem Chip.hsSet_lh0 (c : Chip) (k : Fin 12) (h : HsChan) : (c.hsSet k h).lh0 = c.lh0 := rfl
@[simp] theorem Chip.hsSet_lh1 (c : Chip) (k : Fin 12) (h : HsChan) : (c.hsSet k h).lh1 = c.lh1 := rfl
@[simp] theorem Chip.hsSet_tripPins (c : Chip) (k : Fin 12) (h : HsChan) : (c.hsSet k h).tripPins = c.tripPins := rfl
@[simp] theorem Chip.hsSet_trips (c : Chip) (k : Fin 12) (h : HsChan) : (c.hsSet k h).trips = c.trips := rfl
@[simp] theorem Chip.hsSet_sts (c : Chip) (k : Fin 12) (h : HsChan) : (c.hsSet k h).sts = c.sts := rfl
@[simp] theorem Chip.hsSet_cnt (c : Chip) (k : Fin 12) (h : HsChan) : (c.hsSet k h).cnt = c.cnt := rfl
@[simp] theorem Chip.hsSet_logicTemp (c : Chip) (k : Fin 12) (h : HsChan) : (c.hsSet k h).logicTemp = c.logicTemp := rfl
@[simp] theorem Chip.hsSet_thetaAmb (c : Chip) (k : Fin 12) (h : HsChan) : (c.hsSet k h).thetaAmb = c.thetaAmb := rfl
@[simp] theorem Chip.hsSet_crest (c : Chip) (k : Fin 12) (h : HsChan) : (c.hsSet k h).crest = c.crest := rfl
@[simp] theorem Chip.hsSet_retiring (c : Chip) (k : Fin 12) (h : HsChan) : (c.hsSet k h).retiring = c.retiring := rfl
@[simp] theorem Chip.hsSet_lee (c : Chip) (k : Fin 12) (h : HsChan) : (c.hsSet k h).lee = c.lee := rfl
@[simp] theorem Chip.hsSet_chunks (c : Chip) (k : Fin 12) (h : HsChan) : (c.hsSet k h).chunks = c.chunks := rfl
@[simp] theorem Chip.hsSet_preparing (c : Chip) (k : Fin 12) (h : HsChan) : (c.hsSet k h).preparing = c.preparing := rfl
@[simp] theorem Chip.hsSet_slipId (c : Chip) (k : Fin 12) (h : HsChan) : (c.hsSet k h).slipId = c.slipId := rfl
@[simp] theorem Chip.hsSet_armed (c : Chip) (k : Fin 12) (h : HsChan) : (c.hsSet k h).armed = c.armed := rfl
@[simp] theorem Chip.hsSet_slipPoint (c : Chip) (k : Fin 12) (h : HsChan) : (c.hsSet k h).slipPoint = c.slipPoint := rfl
@[simp] theorem Chip.hsSet_storeA (c : Chip) (k : Fin 12) (h : HsChan) : (c.hsSet k h).storeA = c.storeA := rfl
@[simp] theorem Chip.hsSet_storeB (c : Chip) (k : Fin 12) (h : HsChan) : (c.hsSet k h).storeB = c.storeB := rfl
@[simp] theorem Chip.hsSet_storeBusy (c : Chip) (k : Fin 12) (h : HsChan) : (c.hsSet k h).storeBusy = c.storeBusy := rfl
@[simp] theorem Chip.hsSet_sol (c : Chip) (k : Fin 12) (h : HsChan) : (c.hsSet k h).sol = c.sol := rfl
@[simp] theorem Chip.hsSet_bank (c : Chip) (k : Fin 12) (h : HsChan) : (c.hsSet k h).bank = c.bank := rfl
@[simp] theorem Chip.hsSet_limpPend (c : Chip) (k : Fin 12) (h : HsChan) : (c.hsSet k h).limpPend = c.limpPend := rfl
@[simp] theorem Chip.hsSet_vBst (c : Chip) (k : Fin 12) (h : HsChan) : (c.hsSet k h).vBst = c.vBst := rfl
@[simp] theorem Chip.hsSet_charging (c : Chip) (k : Fin 12) (h : HsChan) : (c.hsSet k h).charging = c.charging := rfl
@[simp] theorem Chip.hsSet_bstStopped (c : Chip) (k : Fin 12) (h : HsChan) : (c.hsSet k h).bstStopped = c.bstStopped := rfl
@[simp] theorem Chip.hsSet_ovHold (c : Chip) (k : Fin 12) (h : HsChan) : (c.hsSet k h).ovHold = c.ovHold := rfl
@[simp] theorem Chip.hsSet_clampInt (c : Chip) (k : Fin 12) (h : HsChan) : (c.hsSet k h).clampInt = c.clampInt := rfl
@[simp] theorem Chip.hsSet_bstSts (c : Chip) (k : Fin 12) (h : HsChan) : (c.hsSet k h).bstSts = c.bstSts := rfl
@[simp] theorem Chip.hsSet_schedule (c : Chip) (k : Fin 12) (h : HsChan) : (c.hsSet k h).schedule = c.schedule := rfl
@[simp] theorem Chip.hsSet_refused (c : Chip) (k : Fin 12) (h : HsChan) : (c.hsSet k h).refused = c.refused := rfl
@[simp] theorem Chip.hsSet_lastReflex (c : Chip) (k : Fin 12) (h : HsChan) : (c.hsSet k h).lastReflex = c.lastReflex := rfl
@[simp] theorem Chip.hsSet_reported (c : Chip) (k : Fin 12) (h : HsChan) : (c.hsSet k h).reported = c.reported := rfl
@[simp] theorem Chip.hsSet_eseq (c : Chip) (k : Fin 12) (h : HsChan) : (c.hsSet k h).eseq = c.eseq := rfl
@[simp] theorem Chip.hsSet_lseq (c : Chip) (k : Fin 12) (h : HsChan) : (c.hsSet k h).lseq = c.lseq := rfl
@[simp] theorem Chip.hsSet_tx (c : Chip) (k : Fin 12) (h : HsChan) : (c.hsSet k h).tx = c.tx := rfl
@[simp] theorem Chip.hsSet_wire (c : Chip) (k : Fin 12) (h : HsChan) : (c.hsSet k h).wire = c.wire := rfl
@[simp] theorem Chip.hsSet_lastReg (c : Chip) (k : Fin 12) (h : HsChan) : (c.hsSet k h).lastReg = c.lastReg := rfl
@[simp] theorem Chip.solSet_powered (c : Chip) (k : Fin 12) (o : SolOut) : (c.solSet k o).powered = c.powered := rfl
@[simp] theorem Chip.solSet_powerAt (c : Chip) (k : Fin 12) (o : SolOut) : (c.solSet k o).powerAt = c.powerAt := rfl
@[simp] theorem Chip.solSet_supervisor (c : Chip) (k : Fin 12) (o : SolOut) : (c.solSet k o).supervisor = c.supervisor := rfl
@[simp] theorem Chip.solSet_locked (c : Chip) (k : Fin 12) (o : SolOut) : (c.solSet k o).locked = c.locked := rfl
@[simp] theorem Chip.solSet_timeRun (c : Chip) (k : Fin 12) (o : SolOut) : (c.solSet k o).timeRun = c.timeRun := rfl
@[simp] theorem Chip.solSet_lastTime (c : Chip) (k : Fin 12) (o : SolOut) : (c.solSet k o).lastTime = c.lastTime := rfl
@[simp] theorem Chip.solSet_lossAt (c : Chip) (k : Fin 12) (o : SolOut) : (c.solSet k o).lossAt = c.lossAt := rfl
@[simp] theorem Chip.solSet_clock (c : Chip) (k : Fin 12) (o : SolOut) : (c.solSet k o).clock = c.clock := rfl
@[simp] theorem Chip.solSet_vs (c : Chip) (k : Fin 12) (o : SolOut) : (c.solSet k o).vs = c.vs := rfl
@[simp] theorem Chip.solSet_vsWin (c : Chip) (k : Fin 12) (o : SolOut) : (c.solSet k o).vsWin = c.vsWin := rfl
@[simp] theorem Chip.solSet_crank (c : Chip) (k : Fin 12) (o : SolOut) : (c.solSet k o).crank = c.crank := rfl
@[simp] theorem Chip.solSet_crankAt (c : Chip) (k : Fin 12) (o : SolOut) : (c.solSet k o).crankAt = c.crankAt := rfl
@[simp] theorem Chip.solSet_underV (c : Chip) (k : Fin 12) (o : SolOut) : (c.solSet k o).underV = c.underV := rfl
@[simp] theorem Chip.solSet_overV (c : Chip) (k : Fin 12) (o : SolOut) : (c.solSet k o).overV = c.overV := rfl
@[simp] theorem Chip.solSet_lh0 (c : Chip) (k : Fin 12) (o : SolOut) : (c.solSet k o).lh0 = c.lh0 := rfl
@[simp] theorem Chip.solSet_lh1 (c : Chip) (k : Fin 12) (o : SolOut) : (c.solSet k o).lh1 = c.lh1 := rfl
@[simp] theorem Chip.solSet_tripPins (c : Chip) (k : Fin 12) (o : SolOut) : (c.solSet k o).tripPins = c.tripPins := rfl
@[simp] theorem Chip.solSet_trips (c : Chip) (k : Fin 12) (o : SolOut) : (c.solSet k o).trips = c.trips := rfl
@[simp] theorem Chip.solSet_sts (c : Chip) (k : Fin 12) (o : SolOut) : (c.solSet k o).sts = c.sts := rfl
@[simp] theorem Chip.solSet_cnt (c : Chip) (k : Fin 12) (o : SolOut) : (c.solSet k o).cnt = c.cnt := rfl
@[simp] theorem Chip.solSet_logicTemp (c : Chip) (k : Fin 12) (o : SolOut) : (c.solSet k o).logicTemp = c.logicTemp := rfl
@[simp] theorem Chip.solSet_thetaAmb (c : Chip) (k : Fin 12) (o : SolOut) : (c.solSet k o).thetaAmb = c.thetaAmb := rfl
@[simp] theorem Chip.solSet_crest (c : Chip) (k : Fin 12) (o : SolOut) : (c.solSet k o).crest = c.crest := rfl
@[simp] theorem Chip.solSet_retiring (c : Chip) (k : Fin 12) (o : SolOut) : (c.solSet k o).retiring = c.retiring := rfl
@[simp] theorem Chip.solSet_lee (c : Chip) (k : Fin 12) (o : SolOut) : (c.solSet k o).lee = c.lee := rfl
@[simp] theorem Chip.solSet_chunks (c : Chip) (k : Fin 12) (o : SolOut) : (c.solSet k o).chunks = c.chunks := rfl
@[simp] theorem Chip.solSet_preparing (c : Chip) (k : Fin 12) (o : SolOut) : (c.solSet k o).preparing = c.preparing := rfl
@[simp] theorem Chip.solSet_slipId (c : Chip) (k : Fin 12) (o : SolOut) : (c.solSet k o).slipId = c.slipId := rfl
@[simp] theorem Chip.solSet_armed (c : Chip) (k : Fin 12) (o : SolOut) : (c.solSet k o).armed = c.armed := rfl
@[simp] theorem Chip.solSet_slipPoint (c : Chip) (k : Fin 12) (o : SolOut) : (c.solSet k o).slipPoint = c.slipPoint := rfl
@[simp] theorem Chip.solSet_storeA (c : Chip) (k : Fin 12) (o : SolOut) : (c.solSet k o).storeA = c.storeA := rfl
@[simp] theorem Chip.solSet_storeB (c : Chip) (k : Fin 12) (o : SolOut) : (c.solSet k o).storeB = c.storeB := rfl
@[simp] theorem Chip.solSet_storeBusy (c : Chip) (k : Fin 12) (o : SolOut) : (c.solSet k o).storeBusy = c.storeBusy := rfl
@[simp] theorem Chip.solSet_hs (c : Chip) (k : Fin 12) (o : SolOut) : (c.solSet k o).hs = c.hs := rfl
@[simp] theorem Chip.solSet_bank (c : Chip) (k : Fin 12) (o : SolOut) : (c.solSet k o).bank = c.bank := rfl
@[simp] theorem Chip.solSet_limpPend (c : Chip) (k : Fin 12) (o : SolOut) : (c.solSet k o).limpPend = c.limpPend := rfl
@[simp] theorem Chip.solSet_vBst (c : Chip) (k : Fin 12) (o : SolOut) : (c.solSet k o).vBst = c.vBst := rfl
@[simp] theorem Chip.solSet_charging (c : Chip) (k : Fin 12) (o : SolOut) : (c.solSet k o).charging = c.charging := rfl
@[simp] theorem Chip.solSet_bstStopped (c : Chip) (k : Fin 12) (o : SolOut) : (c.solSet k o).bstStopped = c.bstStopped := rfl
@[simp] theorem Chip.solSet_ovHold (c : Chip) (k : Fin 12) (o : SolOut) : (c.solSet k o).ovHold = c.ovHold := rfl
@[simp] theorem Chip.solSet_clampInt (c : Chip) (k : Fin 12) (o : SolOut) : (c.solSet k o).clampInt = c.clampInt := rfl
@[simp] theorem Chip.solSet_bstSts (c : Chip) (k : Fin 12) (o : SolOut) : (c.solSet k o).bstSts = c.bstSts := rfl
@[simp] theorem Chip.solSet_schedule (c : Chip) (k : Fin 12) (o : SolOut) : (c.solSet k o).schedule = c.schedule := rfl
@[simp] theorem Chip.solSet_refused (c : Chip) (k : Fin 12) (o : SolOut) : (c.solSet k o).refused = c.refused := rfl
@[simp] theorem Chip.solSet_lastReflex (c : Chip) (k : Fin 12) (o : SolOut) : (c.solSet k o).lastReflex = c.lastReflex := rfl
@[simp] theorem Chip.solSet_reported (c : Chip) (k : Fin 12) (o : SolOut) : (c.solSet k o).reported = c.reported := rfl
@[simp] theorem Chip.solSet_eseq (c : Chip) (k : Fin 12) (o : SolOut) : (c.solSet k o).eseq = c.eseq := rfl
@[simp] theorem Chip.solSet_lseq (c : Chip) (k : Fin 12) (o : SolOut) : (c.solSet k o).lseq = c.lseq := rfl
@[simp] theorem Chip.solSet_tx (c : Chip) (k : Fin 12) (o : SolOut) : (c.solSet k o).tx = c.tx := rfl
@[simp] theorem Chip.solSet_wire (c : Chip) (k : Fin 12) (o : SolOut) : (c.solSet k o).wire = c.wire := rfl
@[simp] theorem Chip.solSet_lastReg (c : Chip) (k : Fin 12) (o : SolOut) : (c.solSet k o).lastReg = c.lastReg := rfl
@[simp] theorem Chip.bankSet_powered (c : Chip) (b : Fin 3) (k : SolBank) : (c.bankSet b k).powered = c.powered := rfl
@[simp] theorem Chip.bankSet_powerAt (c : Chip) (b : Fin 3) (k : SolBank) : (c.bankSet b k).powerAt = c.powerAt := rfl
@[simp] theorem Chip.bankSet_supervisor (c : Chip) (b : Fin 3) (k : SolBank) : (c.bankSet b k).supervisor = c.supervisor := rfl
@[simp] theorem Chip.bankSet_locked (c : Chip) (b : Fin 3) (k : SolBank) : (c.bankSet b k).locked = c.locked := rfl
@[simp] theorem Chip.bankSet_timeRun (c : Chip) (b : Fin 3) (k : SolBank) : (c.bankSet b k).timeRun = c.timeRun := rfl
@[simp] theorem Chip.bankSet_lastTime (c : Chip) (b : Fin 3) (k : SolBank) : (c.bankSet b k).lastTime = c.lastTime := rfl
@[simp] theorem Chip.bankSet_lossAt (c : Chip) (b : Fin 3) (k : SolBank) : (c.bankSet b k).lossAt = c.lossAt := rfl
@[simp] theorem Chip.bankSet_clock (c : Chip) (b : Fin 3) (k : SolBank) : (c.bankSet b k).clock = c.clock := rfl
@[simp] theorem Chip.bankSet_vs (c : Chip) (b : Fin 3) (k : SolBank) : (c.bankSet b k).vs = c.vs := rfl
@[simp] theorem Chip.bankSet_vsWin (c : Chip) (b : Fin 3) (k : SolBank) : (c.bankSet b k).vsWin = c.vsWin := rfl
@[simp] theorem Chip.bankSet_crank (c : Chip) (b : Fin 3) (k : SolBank) : (c.bankSet b k).crank = c.crank := rfl
@[simp] theorem Chip.bankSet_crankAt (c : Chip) (b : Fin 3) (k : SolBank) : (c.bankSet b k).crankAt = c.crankAt := rfl
@[simp] theorem Chip.bankSet_underV (c : Chip) (b : Fin 3) (k : SolBank) : (c.bankSet b k).underV = c.underV := rfl
@[simp] theorem Chip.bankSet_overV (c : Chip) (b : Fin 3) (k : SolBank) : (c.bankSet b k).overV = c.overV := rfl
@[simp] theorem Chip.bankSet_lh0 (c : Chip) (b : Fin 3) (k : SolBank) : (c.bankSet b k).lh0 = c.lh0 := rfl
@[simp] theorem Chip.bankSet_lh1 (c : Chip) (b : Fin 3) (k : SolBank) : (c.bankSet b k).lh1 = c.lh1 := rfl
@[simp] theorem Chip.bankSet_tripPins (c : Chip) (b : Fin 3) (k : SolBank) : (c.bankSet b k).tripPins = c.tripPins := rfl
@[simp] theorem Chip.bankSet_trips (c : Chip) (b : Fin 3) (k : SolBank) : (c.bankSet b k).trips = c.trips := rfl
@[simp] theorem Chip.bankSet_sts (c : Chip) (b : Fin 3) (k : SolBank) : (c.bankSet b k).sts = c.sts := rfl
@[simp] theorem Chip.bankSet_cnt (c : Chip) (b : Fin 3) (k : SolBank) : (c.bankSet b k).cnt = c.cnt := rfl
@[simp] theorem Chip.bankSet_logicTemp (c : Chip) (b : Fin 3) (k : SolBank) : (c.bankSet b k).logicTemp = c.logicTemp := rfl
@[simp] theorem Chip.bankSet_thetaAmb (c : Chip) (b : Fin 3) (k : SolBank) : (c.bankSet b k).thetaAmb = c.thetaAmb := rfl
@[simp] theorem Chip.bankSet_crest (c : Chip) (b : Fin 3) (k : SolBank) : (c.bankSet b k).crest = c.crest := rfl
@[simp] theorem Chip.bankSet_retiring (c : Chip) (b : Fin 3) (k : SolBank) : (c.bankSet b k).retiring = c.retiring := rfl
@[simp] theorem Chip.bankSet_lee (c : Chip) (b : Fin 3) (k : SolBank) : (c.bankSet b k).lee = c.lee := rfl
@[simp] theorem Chip.bankSet_chunks (c : Chip) (b : Fin 3) (k : SolBank) : (c.bankSet b k).chunks = c.chunks := rfl
@[simp] theorem Chip.bankSet_preparing (c : Chip) (b : Fin 3) (k : SolBank) : (c.bankSet b k).preparing = c.preparing := rfl
@[simp] theorem Chip.bankSet_slipId (c : Chip) (b : Fin 3) (k : SolBank) : (c.bankSet b k).slipId = c.slipId := rfl
@[simp] theorem Chip.bankSet_armed (c : Chip) (b : Fin 3) (k : SolBank) : (c.bankSet b k).armed = c.armed := rfl
@[simp] theorem Chip.bankSet_slipPoint (c : Chip) (b : Fin 3) (k : SolBank) : (c.bankSet b k).slipPoint = c.slipPoint := rfl
@[simp] theorem Chip.bankSet_storeA (c : Chip) (b : Fin 3) (k : SolBank) : (c.bankSet b k).storeA = c.storeA := rfl
@[simp] theorem Chip.bankSet_storeB (c : Chip) (b : Fin 3) (k : SolBank) : (c.bankSet b k).storeB = c.storeB := rfl
@[simp] theorem Chip.bankSet_storeBusy (c : Chip) (b : Fin 3) (k : SolBank) : (c.bankSet b k).storeBusy = c.storeBusy := rfl
@[simp] theorem Chip.bankSet_hs (c : Chip) (b : Fin 3) (k : SolBank) : (c.bankSet b k).hs = c.hs := rfl
@[simp] theorem Chip.bankSet_sol (c : Chip) (b : Fin 3) (k : SolBank) : (c.bankSet b k).sol = c.sol := rfl
@[simp] theorem Chip.bankSet_limpPend (c : Chip) (b : Fin 3) (k : SolBank) : (c.bankSet b k).limpPend = c.limpPend := rfl
@[simp] theorem Chip.bankSet_vBst (c : Chip) (b : Fin 3) (k : SolBank) : (c.bankSet b k).vBst = c.vBst := rfl
@[simp] theorem Chip.bankSet_charging (c : Chip) (b : Fin 3) (k : SolBank) : (c.bankSet b k).charging = c.charging := rfl
@[simp] theorem Chip.bankSet_bstStopped (c : Chip) (b : Fin 3) (k : SolBank) : (c.bankSet b k).bstStopped = c.bstStopped := rfl
@[simp] theorem Chip.bankSet_ovHold (c : Chip) (b : Fin 3) (k : SolBank) : (c.bankSet b k).ovHold = c.ovHold := rfl
@[simp] theorem Chip.bankSet_clampInt (c : Chip) (b : Fin 3) (k : SolBank) : (c.bankSet b k).clampInt = c.clampInt := rfl
@[simp] theorem Chip.bankSet_bstSts (c : Chip) (b : Fin 3) (k : SolBank) : (c.bankSet b k).bstSts = c.bstSts := rfl
@[simp] theorem Chip.bankSet_schedule (c : Chip) (b : Fin 3) (k : SolBank) : (c.bankSet b k).schedule = c.schedule := rfl
@[simp] theorem Chip.bankSet_refused (c : Chip) (b : Fin 3) (k : SolBank) : (c.bankSet b k).refused = c.refused := rfl
@[simp] theorem Chip.bankSet_lastReflex (c : Chip) (b : Fin 3) (k : SolBank) : (c.bankSet b k).lastReflex = c.lastReflex := rfl
@[simp] theorem Chip.bankSet_reported (c : Chip) (b : Fin 3) (k : SolBank) : (c.bankSet b k).reported = c.reported := rfl
@[simp] theorem Chip.bankSet_eseq (c : Chip) (b : Fin 3) (k : SolBank) : (c.bankSet b k).eseq = c.eseq := rfl
@[simp] theorem Chip.bankSet_lseq (c : Chip) (b : Fin 3) (k : SolBank) : (c.bankSet b k).lseq = c.lseq := rfl
@[simp] theorem Chip.bankSet_tx (c : Chip) (b : Fin 3) (k : SolBank) : (c.bankSet b k).tx = c.tx := rfl
@[simp] theorem Chip.bankSet_wire (c : Chip) (b : Fin 3) (k : SolBank) : (c.bankSet b k).wire = c.wire := rfl
@[simp] theorem Chip.bankSet_lastReg (c : Chip) (b : Fin 3) (k : SolBank) : (c.bankSet b k).lastReg = c.lastReg := rfl
@[simp] theorem Chip.send_powered (c : Chip) (f : BzFrame) : (c.send f).powered = c.powered := rfl
@[simp] theorem Chip.send_powerAt (c : Chip) (f : BzFrame) : (c.send f).powerAt = c.powerAt := rfl
@[simp] theorem Chip.send_supervisor (c : Chip) (f : BzFrame) : (c.send f).supervisor = c.supervisor := rfl
@[simp] theorem Chip.send_locked (c : Chip) (f : BzFrame) : (c.send f).locked = c.locked := rfl
@[simp] theorem Chip.send_timeRun (c : Chip) (f : BzFrame) : (c.send f).timeRun = c.timeRun := rfl
@[simp] theorem Chip.send_lastTime (c : Chip) (f : BzFrame) : (c.send f).lastTime = c.lastTime := rfl
@[simp] theorem Chip.send_lossAt (c : Chip) (f : BzFrame) : (c.send f).lossAt = c.lossAt := rfl
@[simp] theorem Chip.send_clock (c : Chip) (f : BzFrame) : (c.send f).clock = c.clock := rfl
@[simp] theorem Chip.send_vs (c : Chip) (f : BzFrame) : (c.send f).vs = c.vs := rfl
@[simp] theorem Chip.send_vsWin (c : Chip) (f : BzFrame) : (c.send f).vsWin = c.vsWin := rfl
@[simp] theorem Chip.send_crank (c : Chip) (f : BzFrame) : (c.send f).crank = c.crank := rfl
@[simp] theorem Chip.send_crankAt (c : Chip) (f : BzFrame) : (c.send f).crankAt = c.crankAt := rfl
@[simp] theorem Chip.send_underV (c : Chip) (f : BzFrame) : (c.send f).underV = c.underV := rfl
@[simp] theorem Chip.send_overV (c : Chip) (f : BzFrame) : (c.send f).overV = c.overV := rfl
@[simp] theorem Chip.send_lh0 (c : Chip) (f : BzFrame) : (c.send f).lh0 = c.lh0 := rfl
@[simp] theorem Chip.send_lh1 (c : Chip) (f : BzFrame) : (c.send f).lh1 = c.lh1 := rfl
@[simp] theorem Chip.send_tripPins (c : Chip) (f : BzFrame) : (c.send f).tripPins = c.tripPins := rfl
@[simp] theorem Chip.send_trips (c : Chip) (f : BzFrame) : (c.send f).trips = c.trips := rfl
@[simp] theorem Chip.send_sts (c : Chip) (f : BzFrame) : (c.send f).sts = c.sts := rfl
@[simp] theorem Chip.send_cnt (c : Chip) (f : BzFrame) : (c.send f).cnt = c.cnt := rfl
@[simp] theorem Chip.send_logicTemp (c : Chip) (f : BzFrame) : (c.send f).logicTemp = c.logicTemp := rfl
@[simp] theorem Chip.send_thetaAmb (c : Chip) (f : BzFrame) : (c.send f).thetaAmb = c.thetaAmb := rfl
@[simp] theorem Chip.send_crest (c : Chip) (f : BzFrame) : (c.send f).crest = c.crest := rfl
@[simp] theorem Chip.send_retiring (c : Chip) (f : BzFrame) : (c.send f).retiring = c.retiring := rfl
@[simp] theorem Chip.send_lee (c : Chip) (f : BzFrame) : (c.send f).lee = c.lee := rfl
@[simp] theorem Chip.send_chunks (c : Chip) (f : BzFrame) : (c.send f).chunks = c.chunks := rfl
@[simp] theorem Chip.send_preparing (c : Chip) (f : BzFrame) : (c.send f).preparing = c.preparing := rfl
@[simp] theorem Chip.send_slipId (c : Chip) (f : BzFrame) : (c.send f).slipId = c.slipId := rfl
@[simp] theorem Chip.send_armed (c : Chip) (f : BzFrame) : (c.send f).armed = c.armed := rfl
@[simp] theorem Chip.send_slipPoint (c : Chip) (f : BzFrame) : (c.send f).slipPoint = c.slipPoint := rfl
@[simp] theorem Chip.send_storeA (c : Chip) (f : BzFrame) : (c.send f).storeA = c.storeA := rfl
@[simp] theorem Chip.send_storeB (c : Chip) (f : BzFrame) : (c.send f).storeB = c.storeB := rfl
@[simp] theorem Chip.send_storeBusy (c : Chip) (f : BzFrame) : (c.send f).storeBusy = c.storeBusy := rfl
@[simp] theorem Chip.send_hs (c : Chip) (f : BzFrame) : (c.send f).hs = c.hs := rfl
@[simp] theorem Chip.send_sol (c : Chip) (f : BzFrame) : (c.send f).sol = c.sol := rfl
@[simp] theorem Chip.send_bank (c : Chip) (f : BzFrame) : (c.send f).bank = c.bank := rfl
@[simp] theorem Chip.send_limpPend (c : Chip) (f : BzFrame) : (c.send f).limpPend = c.limpPend := rfl
@[simp] theorem Chip.send_vBst (c : Chip) (f : BzFrame) : (c.send f).vBst = c.vBst := rfl
@[simp] theorem Chip.send_charging (c : Chip) (f : BzFrame) : (c.send f).charging = c.charging := rfl
@[simp] theorem Chip.send_bstStopped (c : Chip) (f : BzFrame) : (c.send f).bstStopped = c.bstStopped := rfl
@[simp] theorem Chip.send_ovHold (c : Chip) (f : BzFrame) : (c.send f).ovHold = c.ovHold := rfl
@[simp] theorem Chip.send_clampInt (c : Chip) (f : BzFrame) : (c.send f).clampInt = c.clampInt := rfl
@[simp] theorem Chip.send_bstSts (c : Chip) (f : BzFrame) : (c.send f).bstSts = c.bstSts := rfl
@[simp] theorem Chip.send_schedule (c : Chip) (f : BzFrame) : (c.send f).schedule = c.schedule := rfl
@[simp] theorem Chip.send_refused (c : Chip) (f : BzFrame) : (c.send f).refused = c.refused := rfl
@[simp] theorem Chip.send_lastReflex (c : Chip) (f : BzFrame) : (c.send f).lastReflex = c.lastReflex := rfl
@[simp] theorem Chip.send_reported (c : Chip) (f : BzFrame) : (c.send f).reported = c.reported := rfl
@[simp] theorem Chip.send_eseq (c : Chip) (f : BzFrame) : (c.send f).eseq = c.eseq := rfl
@[simp] theorem Chip.send_lseq (c : Chip) (f : BzFrame) : (c.send f).lseq = c.lseq := rfl
@[simp] theorem Chip.send_wire (c : Chip) (f : BzFrame) : (c.send f).wire = c.wire := rfl
@[simp] theorem Chip.send_lastReg (c : Chip) (f : BzFrame) : (c.send f).lastReg = c.lastReg := rfl

/-! ### Reads after writes -/

@[simp] theorem State.reg_setReg_same (a : Nat) (v : Word) : (s.setReg a v).reg a = v := mget_mset_same _ _ _ _

theorem State.reg_setReg (a b : Nat) (v : Word) : (s.setReg a v).reg b = if b = a then v else s.reg b := mget_mset _ _ _ _ _

theorem State.reg_setReg_ne (a b : Nat) (v : Word) (h : b ≠ a) : (s.setReg a v).reg b = s.reg b := mget_mset_ne _ _ _ _ _ h

@[simp] theorem State.tile_setTile_same (t : Nat) (x : Tile) : (s.setTile t x).tile t = x := mget_mset_same _ _ _ _

theorem State.tile_setTile (t n : Nat) (x : Tile) : (s.setTile t x).tile n = if n = t then x else s.tile n := mget_mset _ _ _ _ _

theorem State.tile_setTile_ne (t n : Nat) (x : Tile) (h : n ≠ t) : (s.setTile t x).tile n = s.tile n := mget_mset_ne _ _ _ _ _ h

@[simp] theorem State.tile_setReg (a t : Nat) (v : Word) : (s.setReg a v).tile t = s.tile t := rfl

@[simp] theorem State.tile_modTile_same (t : Nat) (f : Tile → Tile) : (s.modTile t f).tile t = f (s.tile t) := mget_mset_same _ _ _ _

theorem State.tile_modTile (t n : Nat) (f : Tile → Tile) : (s.modTile t f).tile n = if n = t then f (s.tile t) else s.tile n := mget_mset _ _ _ _ _

@[simp] theorem State.setCore_core (t : Nat) (c : Core) : ((s.setCore t c).tile t).core = some c := by simp [State.setCore]

theorem State.setCore_tile_ne (t n : Nat) (c : Core) (h : n ≠ t) : (s.setCore t c).tile n = s.tile n := by simp [State.setCore, State.tile_modTile, h]

@[simp] theorem State.reg_setTile (t : Nat) (x : Tile) (a : Nat) : (s.setTile t x).reg a = s.reg a := rfl

@[simp] theorem State.reg_setCore (t : Nat) (c : Core) (a : Nat) : (s.setCore t c).reg a = s.reg a := rfl

/-- s0 discards a write and reads zero; another register reads what was written (R195). -/
theorem Core.s_setS (c : Core) (r q : Fin 32) (v : Word) (bad : Bool) : (c.setS r v bad).s q = if q = 0 then 0 else if q = r then v else c.s q := by
  unfold Core.s Core.setS
  by_cases hq : q = 0
  · simp [hq]
  · by_cases hr : r = 0
    · subst hr; simp [hq]
    · simp [hq, hr, Vector.getElem_set, Fin.ext_iff, eq_comm]

/-- p0 discards a write and reads 1 (R195). -/
theorem Core.p_setP (c : Core) (r q : Fin 8) (v bad : Bool) : (c.setP r v bad).p q = if q = 0 then true else if q = r then v else c.p q := by
  unfold Core.p Core.setP
  by_cases hq : q = 0
  · simp [hq]
  · by_cases hr : r = 0
    · subst hr; simp [hq]
    · simp [hq, hr, Vector.getElem_set, Fin.ext_iff, eq_comm]

@[simp] theorem Core.a_setA (c : Core) (r q : Fin 16) (v : BitVec 64) (bad : Bool) : (c.setA r v bad).a q = if q = r then v else c.a q := by
  simp [Core.a, Core.setA, Vector.getElem_set, Fin.ext_iff, eq_comm]

/-- A command at a chip without power changes nothing (R532). -/
theorem State.onLive_off (n : Fin 4) (f : Chip → Chip) (h : s.chips[n].powered = false) : s.onLive n f = s := by
  unfold State.onLive; rw [h]; rfl

theorem State.onLive_on (n : Fin 4) (f : Chip → Chip) (h : s.chips[n].powered = true) : s.onLive n f = s.onChip n f := by
  unfold State.onLive; rw [h]; rfl

@[simp] theorem State.onChip_same (n : Fin 4) (f : Chip → Chip) : (s.onChip n f).chips[n] = f s.chips[n] := by simp [State.onChip]

theorem State.onChip_ne (n m : Fin 4) (f : Chip → Chip) (h : m ≠ n) : (s.onChip n f).chips[m] = s.chips[m] := by
  have : n.val ≠ m.val := fun e => h (Fin.ext e.symm)
  simp [State.onChip, this]

/-- What a command at a live chip does, in the terms of the claims. -/
theorem State.onLive_goes (n : Fin 4) (f : Chip → Chip) (p : Chip → Prop) (h : s.chips[n].powered = true) (hp : p (f s.chips[n])) : s.ChipGoes n (.next (s.onLive n f)) p := by
  refine ⟨_, rfl, ?_, fun m hm => ?_, ?_⟩
  · rw [s.onLive_on n f h]; rfl
  · rw [s.onLive_on n f h]; exact s.onChip_ne n m f hm
  · rw [s.onLive_on n f h, s.onChip_same]; exact hp

/-! ### The state of reset -/

theorem reset_resv_wf : State.reset.resv.mem.wf = true := rfl

theorem reset_regs_wf : mwf regReset State.reset.regs = true := by decide

end Sys2Proof.Machine
end

