-- ==== Sys2Proof/Laws/Issue.lean ====
section
/-! SUPPORT. What issuing an instruction comes to: once for an instruction that runs, one that a false guard skips, and one of an illegal form. -/

namespace Sys2Proof.Machine

/-- An instruction that issues runs its meaning on the state after the fetch. -/
theorem State.issue_runs (s : State) (t : Fin 512) (g : Issue) (c : Core) (illegal : Core → Bool) (f : Core → State → NtRes)
    (h : s.Issues t g c) (hi : illegal c = false) : s.issue t g illegal f = (s.fetched t g c).settle t c (f c (s.fetched t g c)) := by
  obtain ⟨hc, hf, ho, he, hp, hs, hl, hg⟩ := h
  rcases hx : g.ecc with _ | b
  · simp only [State.fetched, hx] at hp ⊢
    simp [State.issue, hc, hf, ho, hx, hp, hs, hl, hi, hg]
  · cases b
    · simp only [State.fetched, hx] at hp ⊢
      simp [State.issue, hc, hf, ho, hx, hp, hs, hl, hi, hg]
    · exact absurd hx he

/-- An instruction of an illegal form raises ILLEGAL_INSTRUCTION, whatever its guard (R211). -/
theorem State.issue_illegal (s : State) (t : Fin 512) (g : Issue) (c : Core) (illegal : Core → Bool) (f : Core → State → NtRes)
    (h : s.Issues t g c) (hi : illegal c = true) : s.issue t g illegal f = (s.fetched t g c).excAt t c 1 := by
  obtain ⟨hc, hf, ho, he, hp, hs, hl, hg⟩ := h
  rcases hx : g.ecc with _ | b
  · simp only [State.fetched, hx] at hp ⊢
    simp [State.issue, hc, hf, ho, hx, hp, hi]
  · cases b
    · simp only [State.fetched, hx] at hp ⊢
      simp [State.issue, hc, hf, ho, hx, hp, hi]
    · exact absurd hx he

/-- A completed instruction leaves its core with the pc advanced, when a word follows. -/
theorem State.settle_done (s u : State) (t : Fin 512) (c0 c : Core) (h : s.More t c0) : s.settle t c0 (.done c u) = u.setCore t (c0.retire c) := by
  unfold State.More at h
  simp [State.settle, h, Core.retire]

/-- An instruction that only changes the core completes. -/
theorem State.issueCore_runs (s : State) (t : Fin 512) (g : Issue) (c : Core) (f : Core → Core) (h : s.Issues t g c) (hm : (s.fetched t g c).More t c) :
    s.issueCore t g f = (s.fetched t g c).setCore t (c.retire (f c)) := by
  rw [State.issueCore, State.issue_runs s t g c anyEnc _ h rfl, State.settle_done _ _ _ _ _ hm]

/-- An instruction whose guard is false only advances the pc (R206). -/
theorem State.issue_skips (s : State) (t : Fin 512) (g : Issue) (c : Core) (illegal : Core → Bool) (f : Core → State → NtRes)
    (hc : (s.tile t).core = some c) (hw : c.wait = none) (ho : s.tileOn t = true) (he : g.ecc = none)
    (hp : anyPoison ((s.tile t).half (s.bedHalf t c.bank)).imemPoison c.pc 4 = false) (hs : g.stray = false) (hg : g.pg ≠ 0) (hn : c.p g.pg = g.pn)
    (hm : s.More t c) (hi : illegal c = false) : s.issue t g illegal f = s.setCore t (c.retire c) := by
  have hl : (g.pn && g.pg == 0) = false := by simp [hg]
  rw [← State.settle_done s s t c c hm]
  simp [State.issue, hc, hw, ho, he, hp, hs, hi, hl, hn]

end Sys2Proof.Machine
end

