-- ==== Sys2Proof/Laws/Kept.lean ====
section
/-! SUPPORT. Operations and commands that leave the kept part of a state as it is: chips, tiles, instructions, the CAIRN and the slip. -/

namespace Sys2Proof.Machine

set_option linter.unusedSimpArgs false
set_option linter.unusedTactic false
set_option linter.unreachableTactic false

theorem State.kept_mk (a b c d e f g h i j k l m n o p q r s t u v w x y z a1 b1 c1 d1 e1 f1 g1 h1 i1 : _) :
  State.kept (State.mk a b c d e f g h i j k l m n o p q r s t u v w x y z a1 b1 c1 d1 e1 f1 g1 h1 i1) = Kept.mk a b c d r.otp r.rollback r.debugFuse := rfl
theorem pending_kept (s : State) : s.pending = s.kept.pending := rfl
theorem fuses_kept (s : State) : s.fuses = s.kept.fuses := rfl
theorem live_kept (s : State) : s.live = s.kept.live := rfl
theorem tileLive_kept (s : State) : s.tileLive = s.kept.tileLive := rfl
theorem otp_kept (s : State) : s.unit.otp = s.kept.otp := rfl
theorem rollback_kept (s : State) : s.unit.rollback = s.kept.rollback := rfl
theorem debugFuse_kept (s : State) : s.unit.debugFuse = s.kept.debugFuse := rfl
theorem kept_eta (k : Kept) : Kept.mk k.pending k.fuses k.live k.tileLive k.otp k.rollback k.debugFuse = k := rfl
theorem foldl_kept {α : Type} (f : State → α → State) (l : List α) (s : State) (h : ∀ s a, (f s a).kept = s.kept) : (l.foldl f s).kept = s.kept := by
  induction l generalizing s with
  | nil => rfl
  | cons a l ih => rw [List.foldl_cons, ih, h]
theorem foldl_fst_kept {α β : Type} (f : State × β → α → State × β) (l : List α) (s : State × β) (h : ∀ s a, (f s a).1.kept = s.1.kept) : (l.foldl f s).1.kept = s.1.kept := by
  induction l generalizing s with
  | nil => rfl
  | cons a l ih => rw [List.foldl_cons, ih, h]
theorem foldl_snd_kept {α β : Type} (f : β × State → α → β × State) (l : List α) (s : β × State) (h : ∀ s a, (f s a).2.kept = s.2.kept) : (l.foldl f s).2.kept = s.2.kept := by
  induction l generalizing s with
  | nil => rfl
  | cons a l ih => rw [List.foldl_cons, ih, h]

/-- The next state of an outcome keeps `k`. -/
def OutcomeKeeps (k : Kept) : Host.Outcome State Fault Refusal → Prop
  | .next s => s.kept = k
  | _ => True

/-- Every state that an instruction's result carries keeps `k`. -/
def NtRes.Keeps (k : Kept) : NtRes → Prop
  | .done _ s => s.kept = k
  | .jump _ s _ => s.kept = k
  | .raise _ => True
  | .wait => True
  | .hold _ s => s.kept = k
  | .stop s _ _ _ => s.kept = k
  | .left s => s.kept = k

theorem NtRes.keeps_done (k : Kept) (c : Core) (s : State) : NtRes.Keeps k (.done c s) = (s.kept = k) := rfl
theorem NtRes.keeps_jump (k : Kept) (c : Core) (s : State) (pc : Nat) : NtRes.Keeps k (.jump c s pc) = (s.kept = k) := rfl
theorem NtRes.keeps_raise (k : Kept) (n : Nat) : NtRes.Keeps k (.raise n) = True := rfl
theorem NtRes.keeps_wait (k : Kept) : NtRes.Keeps k .wait = True := rfl
theorem NtRes.keeps_hold (k : Kept) (c : Core) (s : State) : NtRes.Keeps k (.hold c s) = (s.kept = k) := rfl
theorem NtRes.keeps_stop (k : Kept) (s : State) (r : Nat) (key : Key) (d : Nat) : NtRes.Keeps k (.stop s r key d) = (s.kept = k) := rfl
theorem NtRes.keeps_left (k : Kept) (s : State) : NtRes.Keeps k (.left s) = (s.kept = k) := rfl

theorem ite_kept (b : Prop) [Decidable b] (u v : State) (k : Kept) (hu : u.kept = k) (hv : v.kept = k) : (if b then u else v).kept = k := by
  split <;> assumption

theorem answer_next (s s' : State) : answer s (.next s') = s' := rfl

theorem State.at_kept (s : State) (t : Time) : (State.at s t).kept = s.kept := by
  unfold State.at
  repeat' (first | with_reducible rfl | assumption | rw [foldl_kept] | rw [foldl_fst_kept] | rw [foldl_snd_kept] | with_reducible refine ite_kept _ _ _ _ ?_ ?_ | split | intro _ _ | simp only [State.kept_mk, pending_kept, fuses_kept, live_kept, tileLive_kept, otp_kept, rollback_kept, debugFuse_kept, kept_eta] | rw [apply_ite State.kept])

theorem State.setReg_kept (s : State) (a : Nat) (v : Word) : (State.setReg s a v).kept = s.kept := by
  unfold State.setReg
  repeat' (first | with_reducible rfl | assumption | rw [foldl_kept] | rw [foldl_fst_kept] | rw [foldl_snd_kept] | with_reducible refine ite_kept _ _ _ _ ?_ ?_ | split | intro _ _ | simp only [State.kept_mk, pending_kept, fuses_kept, live_kept, tileLive_kept, otp_kept, rollback_kept, debugFuse_kept, kept_eta] | rw [apply_ite State.kept])

theorem State.setFlag_kept (s : State) (a : Nat) (b : Nat) : (State.setFlag s a b).kept = s.kept := by
  unfold State.setFlag
  repeat' (first | with_reducible rfl | assumption | rw [foldl_kept] | rw [foldl_fst_kept] | rw [foldl_snd_kept] | with_reducible refine ite_kept _ _ _ _ ?_ ?_ | split | intro _ _ | simp only [State.kept_mk, pending_kept, fuses_kept, live_kept, tileLive_kept, otp_kept, rollback_kept, debugFuse_kept, kept_eta, State.setReg_kept] | rw [apply_ite State.kept])

theorem State.countByte_kept (s : State) (a : Nat) (n : Nat) : (State.countByte s a n).kept = s.kept := by
  unfold State.countByte
  repeat' (first | with_reducible rfl | assumption | rw [foldl_kept] | rw [foldl_fst_kept] | rw [foldl_snd_kept] | with_reducible refine ite_kept _ _ _ _ ?_ ?_ | split | intro _ _ | simp only [State.kept_mk, pending_kept, fuses_kept, live_kept, tileLive_kept, otp_kept, rollback_kept, debugFuse_kept, kept_eta, State.setReg_kept] | rw [apply_ite State.kept])

theorem State.count32_kept (s : State) (a : Nat) (k : Nat) : (State.count32 s a k).kept = s.kept := by
  unfold State.count32
  repeat' (first | with_reducible rfl | assumption | rw [foldl_kept] | rw [foldl_fst_kept] | rw [foldl_snd_kept] | with_reducible refine ite_kept _ _ _ _ ?_ ?_ | split | intro _ _ | simp only [State.kept_mk, pending_kept, fuses_kept, live_kept, tileLive_kept, otp_kept, rollback_kept, debugFuse_kept, kept_eta, State.setReg_kept] | rw [apply_ite State.kept])

theorem State.tileFlag_kept (s : State) (t : Nat) (b : Nat) : (State.tileFlag s t b).kept = s.kept := by
  unfold State.tileFlag
  repeat' (first | with_reducible rfl | assumption | rw [foldl_kept] | rw [foldl_fst_kept] | rw [foldl_snd_kept] | with_reducible refine ite_kept _ _ _ _ ?_ ?_ | split | intro _ _ | simp only [State.kept_mk, pending_kept, fuses_kept, live_kept, tileLive_kept, otp_kept, rollback_kept, debugFuse_kept, kept_eta, State.countByte_kept, State.setFlag_kept] | rw [apply_ite State.kept])

theorem State.cairnFlag_kept (s : State) (k : Nat) (b : Nat) : (State.cairnFlag s k b).kept = s.kept := by
  unfold State.cairnFlag
  repeat' (first | with_reducible rfl | assumption | rw [foldl_kept] | rw [foldl_fst_kept] | rw [foldl_snd_kept] | with_reducible refine ite_kept _ _ _ _ ?_ ?_ | split | intro _ _ | simp only [State.kept_mk, pending_kept, fuses_kept, live_kept, tileLive_kept, otp_kept, rollback_kept, debugFuse_kept, kept_eta, State.setFlag_kept, State.countByte_kept] | rw [apply_ite State.kept])

theorem State.flowFlag_kept (s : State) (k : Nat) (b : Nat) : (State.flowFlag s k b).kept = s.kept := by
  unfold State.flowFlag
  repeat' (first | with_reducible rfl | assumption | rw [foldl_kept] | rw [foldl_fst_kept] | rw [foldl_snd_kept] | with_reducible refine ite_kept _ _ _ _ ?_ ?_ | split | intro _ _ | simp only [State.kept_mk, pending_kept, fuses_kept, live_kept, tileLive_kept, otp_kept, rollback_kept, debugFuse_kept, kept_eta, State.setFlag_kept] | rw [apply_ite State.kept])

theorem State.gvFlag_kept (s : State) (b : Nat) : (State.gvFlag s b).kept = s.kept := by
  unfold State.gvFlag
  repeat' (first | with_reducible rfl | assumption | rw [foldl_kept] | rw [foldl_fst_kept] | rw [foldl_snd_kept] | with_reducible refine ite_kept _ _ _ _ ?_ ?_ | split | intro _ _ | simp only [State.kept_mk, pending_kept, fuses_kept, live_kept, tileLive_kept, otp_kept, rollback_kept, debugFuse_kept, kept_eta, State.setFlag_kept] | rw [apply_ite State.kept])

theorem State.faultFlag_kept (s : State) (b : Nat) : (State.faultFlag s b).kept = s.kept := by
  unfold State.faultFlag
  repeat' (first | with_reducible rfl | assumption | rw [foldl_kept] | rw [foldl_fst_kept] | rw [foldl_snd_kept] | with_reducible refine ite_kept _ _ _ _ ?_ ?_ | split | intro _ _ | simp only [State.kept_mk, pending_kept, fuses_kept, live_kept, tileLive_kept, otp_kept, rollback_kept, debugFuse_kept, kept_eta, State.countByte_kept, State.setFlag_kept] | rw [apply_ite State.kept])

theorem State.inFlag_kept (s : State) (j : Nat) (b : Nat) : (State.inFlag s j b).kept = s.kept := by
  unfold State.inFlag
  repeat' (first | with_reducible rfl | assumption | rw [foldl_kept] | rw [foldl_fst_kept] | rw [foldl_snd_kept] | with_reducible refine ite_kept _ _ _ _ ?_ ?_ | split | intro _ _ | simp only [State.kept_mk, pending_kept, fuses_kept, live_kept, tileLive_kept, otp_kept, rollback_kept, debugFuse_kept, kept_eta, State.countByte_kept, State.setFlag_kept] | rw [apply_ite State.kept])

theorem State.pwrFlag_kept (s : State) (b : Nat) : (State.pwrFlag s b).kept = s.kept := by
  unfold State.pwrFlag
  repeat' (first | with_reducible rfl | assumption | rw [foldl_kept] | rw [foldl_fst_kept] | rw [foldl_snd_kept] | with_reducible refine ite_kept _ _ _ _ ?_ ?_ | split | intro _ _ | simp only [State.kept_mk, pending_kept, fuses_kept, live_kept, tileLive_kept, otp_kept, rollback_kept, debugFuse_kept, kept_eta, State.setFlag_kept, State.countByte_kept] | rw [apply_ite State.kept])

theorem State.dwFlag_kept (s : State) (b : Nat) : (State.dwFlag s b).kept = s.kept := by
  unfold State.dwFlag
  repeat' (first | with_reducible rfl | assumption | rw [foldl_kept] | rw [foldl_fst_kept] | rw [foldl_snd_kept] | with_reducible refine ite_kept _ _ _ _ ?_ ?_ | split | intro _ _ | simp only [State.kept_mk, pending_kept, fuses_kept, live_kept, tileLive_kept, otp_kept, rollback_kept, debugFuse_kept, kept_eta, State.countByte_kept, State.setFlag_kept] | rw [apply_ite State.kept])

theorem State.actFlag_kept (s : State) (j : Nat) (b : Nat) : (State.actFlag s j b).kept = s.kept := by
  unfold State.actFlag
  repeat' (first | with_reducible rfl | assumption | rw [foldl_kept] | rw [foldl_fst_kept] | rw [foldl_snd_kept] | with_reducible refine ite_kept _ _ _ _ ?_ ?_ | split | intro _ _ | simp only [State.kept_mk, pending_kept, fuses_kept, live_kept, tileLive_kept, otp_kept, rollback_kept, debugFuse_kept, kept_eta, State.setFlag_kept] | rw [apply_ite State.kept])

theorem State.slipFlag_kept (s : State) (b : Nat) : (State.slipFlag s b).kept = s.kept := by
  unfold State.slipFlag
  repeat' (first | with_reducible rfl | assumption | rw [foldl_kept] | rw [foldl_fst_kept] | rw [foldl_snd_kept] | with_reducible refine ite_kept _ _ _ _ ?_ ?_ | split | intro _ _ | simp only [State.kept_mk, pending_kept, fuses_kept, live_kept, tileLive_kept, otp_kept, rollback_kept, debugFuse_kept, kept_eta, State.setFlag_kept] | rw [apply_ite State.kept])

theorem State.signal_kept (s : State) (v : Nat) : (State.signal s v).kept = s.kept := by
  unfold State.signal
  repeat' (first | with_reducible rfl | assumption | rw [foldl_kept] | rw [foldl_fst_kept] | rw [foldl_snd_kept] | with_reducible refine ite_kept _ _ _ _ ?_ ?_ | split | intro _ _ | simp only [State.kept_mk, pending_kept, fuses_kept, live_kept, tileLive_kept, otp_kept, rollback_kept, debugFuse_kept, kept_eta] | rw [apply_ite State.kept])

theorem State.setPort_kept (s : State) (p : Nat) (d : DflPort) : (State.setPort s p d).kept = s.kept := by
  unfold State.setPort
  repeat' (first | with_reducible rfl | assumption | rw [foldl_kept] | rw [foldl_fst_kept] | rw [foldl_snd_kept] | with_reducible refine ite_kept _ _ _ _ ?_ ?_ | split | intro _ _ | simp only [State.kept_mk, pending_kept, fuses_kept, live_kept, tileLive_kept, otp_kept, rollback_kept, debugFuse_kept, kept_eta] | rw [apply_ite State.kept])

theorem State.sendReg_kept (s : State) (p : Nat) (off : Nat) (v : Word) : (State.sendReg s p off v).kept = s.kept := by
  unfold State.sendReg
  repeat' (first | with_reducible rfl | assumption | rw [foldl_kept] | rw [foldl_fst_kept] | rw [foldl_snd_kept] | with_reducible refine ite_kept _ _ _ _ ?_ ?_ | split | intro _ _ | simp only [State.kept_mk, pending_kept, fuses_kept, live_kept, tileLive_kept, otp_kept, rollback_kept, debugFuse_kept, kept_eta, State.setPort_kept] | rw [apply_ite State.kept])

theorem State.enterLimpAll_kept (s : State) : (State.enterLimpAll s).kept = s.kept := by
  unfold State.enterLimpAll
  repeat' (first | with_reducible rfl | assumption | rw [foldl_kept] | rw [foldl_fst_kept] | rw [foldl_snd_kept] | with_reducible refine ite_kept _ _ _ _ ?_ ?_ | split | intro _ _ | simp only [State.kept_mk, pending_kept, fuses_kept, live_kept, tileLive_kept, otp_kept, rollback_kept, debugFuse_kept, kept_eta, State.sendReg_kept] | rw [apply_ite State.kept])

theorem State.makeRecord_kept (s : State) (die : Nat) (sev : Nat) (key : Option Key) (bytes : List Byte) : (State.makeRecord s die sev key bytes).kept = s.kept := by
  unfold State.makeRecord
  repeat' (first | with_reducible rfl | assumption | rw [foldl_kept] | rw [foldl_fst_kept] | rw [foldl_snd_kept] | with_reducible refine ite_kept _ _ _ _ ?_ ?_ | split | intro _ _ | simp only [State.kept_mk, pending_kept, fuses_kept, live_kept, tileLive_kept, otp_kept, rollback_kept, debugFuse_kept, kept_eta, State.setReg_kept, State.signal_kept] | rw [apply_ite State.kept])

theorem State.faultSeen_kept (s : State) (sev : Nat) : (State.faultSeen s sev).kept = s.kept := by
  unfold State.faultSeen
  repeat' (first | with_reducible rfl | assumption | rw [foldl_kept] | rw [foldl_fst_kept] | rw [foldl_snd_kept] | with_reducible refine ite_kept _ _ _ _ ?_ ?_ | split | intro _ _ | simp only [State.kept_mk, pending_kept, fuses_kept, live_kept, tileLive_kept, otp_kept, rollback_kept, debugFuse_kept, kept_eta, State.faultFlag_kept] | rw [apply_ite State.kept])

theorem State.enterSafe_kept (s : State) : (State.enterSafe s).kept = s.kept := by
  unfold State.enterSafe
  repeat' (first | with_reducible rfl | assumption | rw [foldl_kept] | rw [foldl_fst_kept] | rw [foldl_snd_kept] | with_reducible refine ite_kept _ _ _ _ ?_ ?_ | split | intro _ _ | simp only [State.kept_mk, pending_kept, fuses_kept, live_kept, tileLive_kept, otp_kept, rollback_kept, debugFuse_kept, kept_eta, State.enterLimpAll_kept] | rw [apply_ite State.kept])

theorem State.fault_kept (s : State) (die : Nat) (key : Option Key) (f : FaultInfo) : (State.fault s die key f).kept = s.kept := by
  unfold State.fault
  repeat' (first | with_reducible rfl | assumption | rw [foldl_kept] | rw [foldl_fst_kept] | rw [foldl_snd_kept] | with_reducible refine ite_kept _ _ _ _ ?_ ?_ | split | intro _ _ | simp only [State.kept_mk, pending_kept, fuses_kept, live_kept, tileLive_kept, otp_kept, rollback_kept, debugFuse_kept, kept_eta, State.faultSeen_kept, State.makeRecord_kept, State.enterSafe_kept] | rw [apply_ite State.kept])

theorem State.faultThrottled_kept (s : State) (clear : Bool) (die : Nat) (f : FaultInfo) : (State.faultThrottled s clear die f).kept = s.kept := by
  unfold State.faultThrottled
  repeat' (first | with_reducible rfl | assumption | rw [foldl_kept] | rw [foldl_fst_kept] | rw [foldl_snd_kept] | with_reducible refine ite_kept _ _ _ _ ?_ ?_ | split | intro _ _ | simp only [State.kept_mk, pending_kept, fuses_kept, live_kept, tileLive_kept, otp_kept, rollback_kept, debugFuse_kept, kept_eta, State.fault_kept, State.faultSeen_kept] | rw [apply_ite State.kept])

theorem State.absentAccess_kept (s : State) (group : Nat) : (State.absentAccess s group).kept = s.kept := by
  unfold State.absentAccess
  repeat' (first | with_reducible rfl | assumption | rw [foldl_kept] | rw [foldl_fst_kept] | rw [foldl_snd_kept] | with_reducible refine ite_kept _ _ _ _ ?_ ?_ | split | intro _ _ | simp only [State.kept_mk, pending_kept, fuses_kept, live_kept, tileLive_kept, otp_kept, rollback_kept, debugFuse_kept, kept_eta, State.faultThrottled_kept, State.setFlag_kept, State.count32_kept] | rw [apply_ite State.kept])

theorem State.countVoid_kept (s : State) (void : Nat) : (State.countVoid s void).kept = s.kept := by
  unfold State.countVoid
  repeat' (first | with_reducible rfl | assumption | rw [foldl_kept] | rw [foldl_fst_kept] | rw [foldl_snd_kept] | with_reducible refine ite_kept _ _ _ _ ?_ ?_ | split | intro _ _ | simp only [State.kept_mk, pending_kept, fuses_kept, live_kept, tileLive_kept, otp_kept, rollback_kept, debugFuse_kept, kept_eta, State.gvFlag_kept, State.count32_kept] | rw [apply_ite State.kept])

theorem State.modJob_kept (s : State) (id : JobId) (f : Job → Job) : (State.modJob s id f).kept = s.kept := by
  unfold State.modJob
  repeat' (first | with_reducible rfl | assumption | rw [foldl_kept] | rw [foldl_fst_kept] | rw [foldl_snd_kept] | with_reducible refine ite_kept _ _ _ _ ?_ ?_ | split | intro _ _ | simp only [State.kept_mk, pending_kept, fuses_kept, live_kept, tileLive_kept, otp_kept, rollback_kept, debugFuse_kept, kept_eta] | rw [apply_ite State.kept])

theorem State.mark_kept (s : State) (id : JobId) (m : Nat) : (State.mark s id m).kept = s.kept := by
  unfold State.mark
  repeat' (first | with_reducible rfl | assumption | rw [foldl_kept] | rw [foldl_fst_kept] | rw [foldl_snd_kept] | with_reducible refine ite_kept _ _ _ _ ?_ ?_ | split | intro _ _ | simp only [State.kept_mk, pending_kept, fuses_kept, live_kept, tileLive_kept, otp_kept, rollback_kept, debugFuse_kept, kept_eta, State.modJob_kept] | rw [apply_ite State.kept])

theorem State.setTile_kept (s : State) (t : Nat) (x : Tile) : (State.setTile s t x).kept = s.kept := by
  unfold State.setTile
  repeat' (first | with_reducible rfl | assumption | rw [foldl_kept] | rw [foldl_fst_kept] | rw [foldl_snd_kept] | with_reducible refine ite_kept _ _ _ _ ?_ ?_ | split | intro _ _ | simp only [State.kept_mk, pending_kept, fuses_kept, live_kept, tileLive_kept, otp_kept, rollback_kept, debugFuse_kept, kept_eta] | rw [apply_ite State.kept])

theorem State.modTile_kept (s : State) (t : Nat) (f : Tile → Tile) : (State.modTile s t f).kept = s.kept := by
  unfold State.modTile
  repeat' (first | with_reducible rfl | assumption | rw [foldl_kept] | rw [foldl_fst_kept] | rw [foldl_snd_kept] | with_reducible refine ite_kept _ _ _ _ ?_ ?_ | split | intro _ _ | simp only [State.kept_mk, pending_kept, fuses_kept, live_kept, tileLive_kept, otp_kept, rollback_kept, debugFuse_kept, kept_eta, State.setTile_kept] | rw [apply_ite State.kept])

theorem State.setApply_kept (s : State) (k : Nat) (u : ApplyUnit) : (State.setApply s k u).kept = s.kept := by
  unfold State.setApply
  repeat' (first | with_reducible rfl | assumption | rw [foldl_kept] | rw [foldl_fst_kept] | rw [foldl_snd_kept] | with_reducible refine ite_kept _ _ _ _ ?_ ?_ | split | intro _ _ | simp only [State.kept_mk, pending_kept, fuses_kept, live_kept, tileLive_kept, otp_kept, rollback_kept, debugFuse_kept, kept_eta] | rw [apply_ite State.kept])

theorem State.cairnFlags_kept (s : State) (k : Nat) (bs : List Nat) : (State.cairnFlags s k bs).kept = s.kept := by
  unfold State.cairnFlags
  repeat' (first | with_reducible rfl | assumption | rw [foldl_kept] | rw [foldl_fst_kept] | rw [foldl_snd_kept] | with_reducible refine ite_kept _ _ _ _ ?_ ?_ | split | intro _ _ | simp only [State.kept_mk, pending_kept, fuses_kept, live_kept, tileLive_kept, otp_kept, rollback_kept, debugFuse_kept, kept_eta, State.cairnFlag_kept] | rw [apply_ite State.kept])

theorem State.sendReplies_kept (s : State) (k : Nat) (rs : List (Nat × Key × Nat × Bool)) : (State.sendReplies s k rs).kept = s.kept := by
  unfold State.sendReplies
  repeat' (first | with_reducible rfl | assumption | rw [foldl_kept] | rw [foldl_fst_kept] | rw [foldl_snd_kept] | with_reducible refine ite_kept _ _ _ _ ?_ ?_ | split | intro _ _ | simp only [State.kept_mk, pending_kept, fuses_kept, live_kept, tileLive_kept, otp_kept, rollback_kept, debugFuse_kept, kept_eta] | rw [apply_ite State.kept])

theorem State.dropBindings_kept (s : State) (id : JobId) : (State.dropBindings s id).kept = s.kept := by
  unfold State.dropBindings
  repeat' (first | with_reducible rfl | assumption | rw [foldl_kept] | rw [foldl_fst_kept] | rw [foldl_snd_kept] | with_reducible refine ite_kept _ _ _ _ ?_ ?_ | split | intro _ _ | simp only [State.kept_mk, pending_kept, fuses_kept, live_kept, tileLive_kept, otp_kept, rollback_kept, debugFuse_kept, kept_eta, State.cairnFlags_kept, State.setApply_kept] | rw [apply_ite State.kept])

theorem State.freeTiles_kept (s : State) (id : JobId) : (State.freeTiles s id).kept = s.kept := by
  unfold State.freeTiles
  repeat' (first | with_reducible rfl | assumption | rw [foldl_kept] | rw [foldl_fst_kept] | rw [foldl_snd_kept] | with_reducible refine ite_kept _ _ _ _ ?_ ?_ | split | intro _ _ | simp only [State.kept_mk, pending_kept, fuses_kept, live_kept, tileLive_kept, otp_kept, rollback_kept, debugFuse_kept, kept_eta] | rw [apply_ite State.kept])

theorem State.freeRanges_kept (s : State) (p : StageRange → Bool) : (State.freeRanges s p).kept = s.kept := by
  unfold State.freeRanges
  repeat' (first | with_reducible rfl | assumption | rw [foldl_kept] | rw [foldl_fst_kept] | rw [foldl_snd_kept] | with_reducible refine ite_kept _ _ _ _ ?_ ?_ | split | intro _ _ | simp only [State.kept_mk, pending_kept, fuses_kept, live_kept, tileLive_kept, otp_kept, rollback_kept, debugFuse_kept, kept_eta] | rw [apply_ite State.kept])

theorem State.hpDone_kept (s : State) (c : HpCmd) (status : Nat) (detail : Nat) (result : Nat) : (State.hpDone s c status detail result).kept = s.kept := by
  unfold State.hpDone
  repeat' (first | with_reducible rfl | assumption | rw [foldl_kept] | rw [foldl_fst_kept] | rw [foldl_snd_kept] | with_reducible refine ite_kept _ _ _ _ ?_ ?_ | split | intro _ _ | simp only [State.kept_mk, pending_kept, fuses_kept, live_kept, tileLive_kept, otp_kept, rollback_kept, debugFuse_kept, kept_eta, State.freeRanges_kept] | rw [apply_ite State.kept])

theorem State.hostJobOver_kept (s : State) (id : JobId) : (State.hostJobOver s id).kept = s.kept := by
  unfold State.hostJobOver
  repeat' (first | with_reducible rfl | assumption | rw [foldl_kept] | rw [foldl_fst_kept] | rw [foldl_snd_kept] | with_reducible refine ite_kept _ _ _ _ ?_ ?_ | split | intro _ _ | simp only [State.kept_mk, pending_kept, fuses_kept, live_kept, tileLive_kept, otp_kept, rollback_kept, debugFuse_kept, kept_eta, State.hpDone_kept, State.freeRanges_kept] | rw [apply_ite State.kept])

theorem State.stopJob_kept (s : State) (id : JobId) (reason : Nat) (key : Key) (detail : Nat) (unit : Nat) : (State.stopJob s id reason key detail unit).kept = s.kept := by
  unfold State.stopJob
  repeat' (first | with_reducible rfl | assumption | rw [foldl_kept] | rw [foldl_fst_kept] | rw [foldl_snd_kept] | with_reducible refine ite_kept _ _ _ _ ?_ ?_ | split | intro _ _ | simp only [State.kept_mk, pending_kept, fuses_kept, live_kept, tileLive_kept, otp_kept, rollback_kept, debugFuse_kept, kept_eta, State.modJob_kept, State.countVoid_kept, State.makeRecord_kept, State.gvFlag_kept, State.dropBindings_kept, State.freeTiles_kept, State.hostJobOver_kept] | rw [apply_ite State.kept])

theorem State.stopAll_kept (s : State) (k : Nat) (l : List (JobId × Nat × Key × Nat)) : (State.stopAll s k l).kept = s.kept := by
  unfold State.stopAll
  repeat' (first | with_reducible rfl | assumption | rw [foldl_kept] | rw [foldl_fst_kept] | rw [foldl_snd_kept] | with_reducible refine ite_kept _ _ _ _ ?_ ?_ | split | intro _ _ | simp only [State.kept_mk, pending_kept, fuses_kept, live_kept, tileLive_kept, otp_kept, rollback_kept, debugFuse_kept, kept_eta, State.stopJob_kept, State.dropBindings_kept] | rw [apply_ite State.kept])

theorem State.applyOut_kept (s : State) (k : Nat) (r : ApplyOut) : (State.applyOut s k r).kept = s.kept := by
  unfold State.applyOut
  repeat' (first | with_reducible rfl | assumption | rw [foldl_kept] | rw [foldl_fst_kept] | rw [foldl_snd_kept] | with_reducible refine ite_kept _ _ _ _ ?_ ?_ | split | intro _ _ | simp only [State.kept_mk, pending_kept, fuses_kept, live_kept, tileLive_kept, otp_kept, rollback_kept, debugFuse_kept, kept_eta, State.stopAll_kept, State.sendReplies_kept, State.cairnFlags_kept, State.setApply_kept] | rw [apply_ite State.kept])

theorem State.onChip_kept (s : State) (n : Fin 4) (f : Chip → Chip) : (State.onChip s n f).kept = s.kept := by
  unfold State.onChip
  repeat' (first | with_reducible rfl | assumption | rw [foldl_kept] | rw [foldl_fst_kept] | rw [foldl_snd_kept] | with_reducible refine ite_kept _ _ _ _ ?_ ?_ | split | intro _ _ | simp only [State.kept_mk, pending_kept, fuses_kept, live_kept, tileLive_kept, otp_kept, rollback_kept, debugFuse_kept, kept_eta] | rw [apply_ite State.kept])

theorem State.onLive_kept (s : State) (n : Fin 4) (f : Chip → Chip) : (State.onLive s n f).kept = s.kept := by
  unfold State.onLive
  repeat' (first | with_reducible rfl | assumption | rw [foldl_kept] | rw [foldl_fst_kept] | rw [foldl_snd_kept] | with_reducible refine ite_kept _ _ _ _ ?_ ?_ | split | intro _ _ | simp only [State.kept_mk, pending_kept, fuses_kept, live_kept, tileLive_kept, otp_kept, rollback_kept, debugFuse_kept, kept_eta, State.onChip_kept] | rw [apply_ite State.kept])

theorem execBzPowerUp_keeps (chip : Fin 4) (vsMv : Nat) (sensor : Int) (lh0 : Bool) (lh1 : Bool) (t : Time) (s : State) : OutcomeKeeps s.kept (execBzPowerUp chip vsMv sensor lh0 lh1 t s) := by
  unfold execBzPowerUp
  show State.kept _ = _
  repeat' (first | with_reducible rfl | assumption | rw [foldl_kept] | rw [foldl_fst_kept] | rw [foldl_snd_kept] | with_reducible refine ite_kept _ _ _ _ ?_ ?_ | split | intro _ _ | simp only [State.kept_mk, pending_kept, fuses_kept, live_kept, tileLive_kept, otp_kept, rollback_kept, debugFuse_kept, kept_eta, State.onChip_kept] | rw [apply_ite State.kept])

theorem execBzPowerupTimeout_keeps (chip : Fin 4) (t : Time) (s : State) : OutcomeKeeps s.kept (execBzPowerupTimeout chip t s) := by
  unfold execBzPowerupTimeout
  show State.kept _ = _
  repeat' (first | with_reducible rfl | assumption | rw [foldl_kept] | rw [foldl_fst_kept] | rw [foldl_snd_kept] | with_reducible refine ite_kept _ _ _ _ ?_ ?_ | split | intro _ _ | simp only [State.kept_mk, pending_kept, fuses_kept, live_kept, tileLive_kept, otp_kept, rollback_kept, debugFuse_kept, kept_eta, State.onLive_kept] | rw [apply_ite State.kept])

theorem execBzLogicReset_keeps (chip : Fin 4) (vsMv : Nat) (s : State) : OutcomeKeeps s.kept (execBzLogicReset chip vsMv s) := by
  unfold execBzLogicReset
  show State.kept _ = _
  repeat' (first | with_reducible rfl | assumption | rw [foldl_kept] | rw [foldl_fst_kept] | rw [foldl_snd_kept] | with_reducible refine ite_kept _ _ _ _ ?_ ?_ | split | intro _ _ | simp only [State.kept_mk, pending_kept, fuses_kept, live_kept, tileLive_kept, otp_kept, rollback_kept, debugFuse_kept, kept_eta, State.onChip_kept] | rw [apply_ite State.kept])

theorem execBzTimeFrame_keeps (chip : Fin 4) (station : Nat) (errNs : Nat) (t : Time) (s : State) : OutcomeKeeps s.kept (execBzTimeFrame chip station errNs t s) := by
  unfold execBzTimeFrame
  show State.kept _ = _
  repeat' (first | with_reducible rfl | assumption | rw [foldl_kept] | rw [foldl_fst_kept] | rw [foldl_snd_kept] | with_reducible refine ite_kept _ _ _ _ ?_ ?_ | split | intro _ _ | simp only [State.kept_mk, pending_kept, fuses_kept, live_kept, tileLive_kept, otp_kept, rollback_kept, debugFuse_kept, kept_eta, State.onLive_kept] | rw [apply_ite State.kept])

theorem execBzHeartbeatLoss_keeps (chip : Fin 4) (t : Time) (s : State) : OutcomeKeeps s.kept (execBzHeartbeatLoss chip t s) := by
  unfold execBzHeartbeatLoss
  show State.kept _ = _
  repeat' (first | with_reducible rfl | assumption | rw [foldl_kept] | rw [foldl_fst_kept] | rw [foldl_snd_kept] | with_reducible refine ite_kept _ _ _ _ ?_ ?_ | split | intro _ _ | simp only [State.kept_mk, pending_kept, fuses_kept, live_kept, tileLive_kept, otp_kept, rollback_kept, debugFuse_kept, kept_eta, State.onLive_kept] | rw [apply_ite State.kept])

theorem execBzHoldLastEnd_keeps (chip : Fin 4) (t : Time) (s : State) : OutcomeKeeps s.kept (execBzHoldLastEnd chip t s) := by
  unfold execBzHoldLastEnd
  show State.kept _ = _
  repeat' (first | with_reducible rfl | assumption | rw [foldl_kept] | rw [foldl_fst_kept] | rw [foldl_snd_kept] | with_reducible refine ite_kept _ _ _ _ ?_ ?_ | split | intro _ _ | simp only [State.kept_mk, pending_kept, fuses_kept, live_kept, tileLive_kept, otp_kept, rollback_kept, debugFuse_kept, kept_eta, State.onLive_kept] | rw [apply_ite State.kept])

theorem execBzLimpPinChange_keeps (chip : Fin 4) (lh0 : Bool) (lh1 : Bool) (stableUs : Nat) (t : Time) (s : State) : OutcomeKeeps s.kept (execBzLimpPinChange chip lh0 lh1 stableUs t s) := by
  unfold execBzLimpPinChange
  show State.kept _ = _
  repeat' (first | with_reducible rfl | assumption | rw [foldl_kept] | rw [foldl_fst_kept] | rw [foldl_snd_kept] | with_reducible refine ite_kept _ _ _ _ ?_ ?_ | split | intro _ _ | simp only [State.kept_mk, pending_kept, fuses_kept, live_kept, tileLive_kept, otp_kept, rollback_kept, debugFuse_kept, kept_eta, State.onLive_kept] | rw [apply_ite State.kept])

theorem execBzLimpEntryStart_keeps (chip : Fin 4) (out : Fin 12) (t : Time) (s : State) : OutcomeKeeps s.kept (execBzLimpEntryStart chip out t s) := by
  unfold execBzLimpEntryStart
  show State.kept _ = _
  repeat' (first | with_reducible rfl | assumption | rw [foldl_kept] | rw [foldl_fst_kept] | rw [foldl_snd_kept] | with_reducible refine ite_kept _ _ _ _ ?_ ?_ | split | intro _ _ | simp only [State.kept_mk, pending_kept, fuses_kept, live_kept, tileLive_kept, otp_kept, rollback_kept, debugFuse_kept, kept_eta, State.onLive_kept] | rw [apply_ite State.kept])

theorem execBzOvervolt_keeps (chip : Fin 4) (vsMv : Nat) (us : Nat) (t : Time) (s : State) : OutcomeKeeps s.kept (execBzOvervolt chip vsMv us t s) := by
  unfold execBzOvervolt
  show State.kept _ = _
  repeat' (first | with_reducible rfl | assumption | rw [foldl_kept] | rw [foldl_fst_kept] | rw [foldl_snd_kept] | with_reducible refine ite_kept _ _ _ _ ?_ ?_ | split | intro _ _ | simp only [State.kept_mk, pending_kept, fuses_kept, live_kept, tileLive_kept, otp_kept, rollback_kept, debugFuse_kept, kept_eta, State.onLive_kept] | rw [apply_ite State.kept])

theorem execBzUndervolt_keeps (chip : Fin 4) (vsMv : Nat) (t : Time) (s : State) : OutcomeKeeps s.kept (execBzUndervolt chip vsMv t s) := by
  unfold execBzUndervolt
  show State.kept _ = _
  repeat' (first | with_reducible rfl | assumption | rw [foldl_kept] | rw [foldl_fst_kept] | rw [foldl_snd_kept] | with_reducible refine ite_kept _ _ _ _ ?_ ?_ | split | intro _ _ | simp only [State.kept_mk, pending_kept, fuses_kept, live_kept, tileLive_kept, otp_kept, rollback_kept, debugFuse_kept, kept_eta, State.onLive_kept] | rw [apply_ite State.kept])

theorem execBzCrankEnter_keeps (chip : Fin 4) (vsMv : Nat) (t : Time) (s : State) : OutcomeKeeps s.kept (execBzCrankEnter chip vsMv t s) := by
  unfold execBzCrankEnter
  show State.kept _ = _
  repeat' (first | with_reducible rfl | assumption | rw [foldl_kept] | rw [foldl_fst_kept] | rw [foldl_snd_kept] | with_reducible refine ite_kept _ _ _ _ ?_ ?_ | split | intro _ _ | simp only [State.kept_mk, pending_kept, fuses_kept, live_kept, tileLive_kept, otp_kept, rollback_kept, debugFuse_kept, kept_eta, State.onLive_kept] | rw [apply_ite State.kept])

theorem execBzCrankEnd_keeps (chip : Fin 4) (vsMv : Nat) (us : Nat) (s : State) : OutcomeKeeps s.kept (execBzCrankEnd chip vsMv us s) := by
  unfold execBzCrankEnd
  show State.kept _ = _
  repeat' (first | with_reducible rfl | assumption | rw [foldl_kept] | rw [foldl_fst_kept] | rw [foldl_snd_kept] | with_reducible refine ite_kept _ _ _ _ ?_ ?_ | split | intro _ _ | simp only [State.kept_mk, pending_kept, fuses_kept, live_kept, tileLive_kept, otp_kept, rollback_kept, debugFuse_kept, kept_eta, State.onLive_kept] | rw [apply_ite State.kept])

theorem execBzCrankTimeout_keeps (chip : Fin 4) (t : Time) (s : State) : OutcomeKeeps s.kept (execBzCrankTimeout chip t s) := by
  unfold execBzCrankTimeout
  show State.kept _ = _
  repeat' (first | with_reducible rfl | assumption | rw [foldl_kept] | rw [foldl_fst_kept] | rw [foldl_snd_kept] | with_reducible refine ite_kept _ _ _ _ ?_ ?_ | split | intro _ _ | simp only [State.kept_mk, pending_kept, fuses_kept, live_kept, tileLive_kept, otp_kept, rollback_kept, debugFuse_kept, kept_eta, State.onLive_kept] | rw [apply_ite State.kept])

theorem execBzSupplyRecover_keeps (chip : Fin 4) (vsMv : Nat) (us : Nat) (t : Time) (s : State) : OutcomeKeeps s.kept (execBzSupplyRecover chip vsMv us t s) := by
  unfold execBzSupplyRecover
  show State.kept _ = _
  repeat' (first | with_reducible rfl | assumption | rw [foldl_kept] | rw [foldl_fst_kept] | rw [foldl_snd_kept] | with_reducible refine ite_kept _ _ _ _ ?_ ?_ | split | intro _ _ | simp only [State.kept_mk, pending_kept, fuses_kept, live_kept, tileLive_kept, otp_kept, rollback_kept, debugFuse_kept, kept_eta, State.onLive_kept] | rw [apply_ite State.kept])

theorem execVsSample_keeps (chip : Fin 4) (vsMv : Nat) (s : State) : OutcomeKeeps s.kept (execVsSample chip vsMv s) := by
  unfold execVsSample
  show State.kept _ = _
  repeat' (first | with_reducible rfl | assumption | rw [foldl_kept] | rw [foldl_fst_kept] | rw [foldl_snd_kept] | with_reducible refine ite_kept _ _ _ _ ?_ ?_ | split | intro _ _ | simp only [State.kept_mk, pending_kept, fuses_kept, live_kept, tileLive_kept, otp_kept, rollback_kept, debugFuse_kept, kept_eta, State.onLive_kept] | rw [apply_ite State.kept])

theorem execBzTrip_keeps (chip : Fin 4) (input : Fin 4) (level : Bool) (ns : Nat) (t : Time) (s : State) : OutcomeKeeps s.kept (execBzTrip chip input level ns t s) := by
  unfold execBzTrip
  show State.kept _ = _
  repeat' (first | with_reducible rfl | assumption | rw [foldl_kept] | rw [foldl_fst_kept] | rw [foldl_snd_kept] | with_reducible refine ite_kept _ _ _ _ ?_ ?_ | split | intro _ _ | simp only [State.kept_mk, pending_kept, fuses_kept, live_kept, tileLive_kept, otp_kept, rollback_kept, debugFuse_kept, kept_eta, State.onLive_kept] | rw [apply_ite State.kept])

theorem execBzTripClear_keeps (chip : Fin 4) (mask : Nat) (pins : Vector Bool 4) (t : Time) (s : State) : OutcomeKeeps s.kept (execBzTripClear chip mask pins t s) := by
  unfold execBzTripClear
  show State.kept _ = _
  repeat' (first | with_reducible rfl | assumption | rw [foldl_kept] | rw [foldl_fst_kept] | rw [foldl_snd_kept] | with_reducible refine ite_kept _ _ _ _ ?_ ?_ | split | intro _ _ | simp only [State.kept_mk, pending_kept, fuses_kept, live_kept, tileLive_kept, otp_kept, rollback_kept, debugFuse_kept, kept_eta, State.onLive_kept] | rw [apply_ite State.kept])

theorem execBzRelease_keeps (chip : Fin 4) (s : State) : OutcomeKeeps s.kept (execBzRelease chip s) := by
  unfold execBzRelease
  show State.kept _ = _
  repeat' (first | with_reducible rfl | assumption | rw [foldl_kept] | rw [foldl_fst_kept] | rw [foldl_snd_kept] | with_reducible refine ite_kept _ _ _ _ ?_ ?_ | split | intro _ _ | simp only [State.kept_mk, pending_kept, fuses_kept, live_kept, tileLive_kept, otp_kept, rollback_kept, debugFuse_kept, kept_eta, State.onLive_kept] | rw [apply_ite State.kept])

theorem execBzEnterLimp_keeps (chip : Fin 4) (t : Time) (s : State) : OutcomeKeeps s.kept (execBzEnterLimp chip t s) := by
  unfold execBzEnterLimp
  show State.kept _ = _
  repeat' (first | with_reducible rfl | assumption | rw [foldl_kept] | rw [foldl_fst_kept] | rw [foldl_snd_kept] | with_reducible refine ite_kept _ _ _ _ ?_ ?_ | split | intro _ _ | simp only [State.kept_mk, pending_kept, fuses_kept, live_kept, tileLive_kept, otp_kept, rollback_kept, debugFuse_kept, kept_eta, State.onLive_kept] | rw [apply_ite State.kept])

theorem execBzRegRead_keeps (chip : Fin 4) (tag : Nat) (off : Nat) (t : Time) (s : State) : OutcomeKeeps s.kept (execBzRegRead chip tag off t s) := by
  unfold execBzRegRead
  show State.kept _ = _
  repeat' (first | with_reducible rfl | assumption | rw [foldl_kept] | rw [foldl_fst_kept] | rw [foldl_snd_kept] | with_reducible refine ite_kept _ _ _ _ ?_ ?_ | split | intro _ _ | simp only [State.kept_mk, pending_kept, fuses_kept, live_kept, tileLive_kept, otp_kept, rollback_kept, debugFuse_kept, kept_eta, State.onLive_kept] | rw [apply_ite State.kept])

theorem execBzRegWrite_keeps (chip : Fin 4) (tag : Nat) (off : Nat) (data : Word) (t : Time) (s : State) : OutcomeKeeps s.kept (execBzRegWrite chip tag off data t s) := by
  unfold execBzRegWrite
  show State.kept _ = _
  repeat' (first | with_reducible rfl | assumption | rw [foldl_kept] | rw [foldl_fst_kept] | rw [foldl_snd_kept] | with_reducible refine ite_kept _ _ _ _ ?_ ?_ | split | intro _ _ | simp only [State.kept_mk, pending_kept, fuses_kept, live_kept, tileLive_kept, otp_kept, rollback_kept, debugFuse_kept, kept_eta, State.onLive_kept] | rw [apply_ite State.kept])

theorem execBzStatusSample_keeps (chip : Fin 4) (t : Time) (s : State) : OutcomeKeeps s.kept (execBzStatusSample chip t s) := by
  unfold execBzStatusSample
  show State.kept _ = _
  repeat' (first | with_reducible rfl | assumption | rw [foldl_kept] | rw [foldl_fst_kept] | rw [foldl_snd_kept] | with_reducible refine ite_kept _ _ _ _ ?_ ?_ | split | intro _ _ | simp only [State.kept_mk, pending_kept, fuses_kept, live_kept, tileLive_kept, otp_kept, rollback_kept, debugFuse_kept, kept_eta, State.onLive_kept] | rw [apply_ite State.kept])

theorem execBzPeriodicStatus_keeps (chip : Fin 4) (t : Time) (s : State) : OutcomeKeeps s.kept (execBzPeriodicStatus chip t s) := by
  unfold execBzPeriodicStatus
  show State.kept _ = _
  repeat' (first | with_reducible rfl | assumption | rw [foldl_kept] | rw [foldl_fst_kept] | rw [foldl_snd_kept] | with_reducible refine ite_kept _ _ _ _ ?_ ?_ | split | intro _ _ | simp only [State.kept_mk, pending_kept, fuses_kept, live_kept, tileLive_kept, otp_kept, rollback_kept, debugFuse_kept, kept_eta, State.onLive_kept] | rw [apply_ite State.kept])

theorem execBzIdentStatus_keeps (chip : Fin 4) (s : State) : OutcomeKeeps s.kept (execBzIdentStatus chip s) := by
  unfold execBzIdentStatus
  show State.kept _ = _
  repeat' (first | with_reducible rfl | assumption | rw [foldl_kept] | rw [foldl_fst_kept] | rw [foldl_snd_kept] | with_reducible refine ite_kept _ _ _ _ ?_ ?_ | split | intro _ _ | simp only [State.kept_mk, pending_kept, fuses_kept, live_kept, tileLive_kept, otp_kept, rollback_kept, debugFuse_kept, kept_eta, State.onLive_kept] | rw [apply_ite State.kept])

theorem execBzFrameSend_keeps (chip : Fin 4) (s : State) : OutcomeKeeps s.kept (execBzFrameSend chip s) := by
  unfold execBzFrameSend
  show State.kept _ = _
  repeat' (first | with_reducible rfl | assumption | rw [foldl_kept] | rw [foldl_fst_kept] | rw [foldl_snd_kept] | with_reducible refine ite_kept _ _ _ _ ?_ ?_ | split | intro _ _ | simp only [State.kept_mk, pending_kept, fuses_kept, live_kept, tileLive_kept, otp_kept, rollback_kept, debugFuse_kept, kept_eta, State.onLive_kept] | rw [apply_ite State.kept])

theorem execBzLimpStoreDone_keeps (chip : Fin 4) (ok : Bool) (s : State) : OutcomeKeeps s.kept (execBzLimpStoreDone chip ok s) := by
  unfold execBzLimpStoreDone
  show State.kept _ = _
  repeat' (first | with_reducible rfl | assumption | rw [foldl_kept] | rw [foldl_fst_kept] | rw [foldl_snd_kept] | with_reducible refine ite_kept _ _ _ _ ?_ ?_ | split | intro _ _ | simp only [State.kept_mk, pending_kept, fuses_kept, live_kept, tileLive_kept, otp_kept, rollback_kept, debugFuse_kept, kept_eta, State.onLive_kept] | rw [apply_ite State.kept])

theorem execBzSlipPrepare_keeps (chip : Fin 4) (slipId : Nat) (s : State) : OutcomeKeeps s.kept (execBzSlipPrepare chip slipId s) := by
  unfold execBzSlipPrepare
  show State.kept _ = _
  repeat' (first | with_reducible rfl | assumption | rw [foldl_kept] | rw [foldl_fst_kept] | rw [foldl_snd_kept] | with_reducible refine ite_kept _ _ _ _ ?_ ?_ | split | intro _ _ | simp only [State.kept_mk, pending_kept, fuses_kept, live_kept, tileLive_kept, otp_kept, rollback_kept, debugFuse_kept, kept_eta, State.onLive_kept] | rw [apply_ite State.kept])

theorem execBzLeeData_keeps (chip : Fin 4) (chunk : Nat) (id8 : Nat) (bytes : List Byte) (t : Time) (s : State) : OutcomeKeeps s.kept (execBzLeeData chip chunk id8 bytes t s) := by
  unfold execBzLeeData
  show State.kept _ = _
  repeat' (first | with_reducible rfl | assumption | rw [foldl_kept] | rw [foldl_fst_kept] | rw [foldl_snd_kept] | with_reducible refine ite_kept _ _ _ _ ?_ ?_ | split | intro _ _ | simp only [State.kept_mk, pending_kept, fuses_kept, live_kept, tileLive_kept, otp_kept, rollback_kept, debugFuse_kept, kept_eta, State.onLive_kept] | rw [apply_ite State.kept])

theorem execBzSlipCommit_keeps (chip : Fin 4) (slipId : Nat) (point : Time) (s : State) : OutcomeKeeps s.kept (execBzSlipCommit chip slipId point s) := by
  unfold execBzSlipCommit
  show State.kept _ = _
  repeat' (first | with_reducible rfl | assumption | rw [foldl_kept] | rw [foldl_fst_kept] | rw [foldl_snd_kept] | with_reducible refine ite_kept _ _ _ _ ?_ ?_ | split | intro _ _ | simp only [State.kept_mk, pending_kept, fuses_kept, live_kept, tileLive_kept, otp_kept, rollback_kept, debugFuse_kept, kept_eta, State.onLive_kept] | rw [apply_ite State.kept])

theorem execBzSlipAbort_keeps (chip : Fin 4) (slipId : Nat) (s : State) : OutcomeKeeps s.kept (execBzSlipAbort chip slipId s) := by
  unfold execBzSlipAbort
  show State.kept _ = _
  repeat' (first | with_reducible rfl | assumption | rw [foldl_kept] | rw [foldl_fst_kept] | rw [foldl_snd_kept] | with_reducible refine ite_kept _ _ _ _ ?_ ?_ | split | intro _ _ | simp only [State.kept_mk, pending_kept, fuses_kept, live_kept, tileLive_kept, otp_kept, rollback_kept, debugFuse_kept, kept_eta, State.onLive_kept] | rw [apply_ite State.kept])

theorem execBzSlipPoint_keeps (chip : Fin 4) (t : Time) (s : State) : OutcomeKeeps s.kept (execBzSlipPoint chip t s) := by
  unfold execBzSlipPoint
  show State.kept _ = _
  repeat' (first | with_reducible rfl | assumption | rw [foldl_kept] | rw [foldl_fst_kept] | rw [foldl_snd_kept] | with_reducible refine ite_kept _ _ _ _ ?_ ?_ | split | intro _ _ | simp only [State.kept_mk, pending_kept, fuses_kept, live_kept, tileLive_kept, otp_kept, rollback_kept, debugFuse_kept, kept_eta, State.onLive_kept] | rw [apply_ite State.kept])

theorem execBzReseatSwitch_keeps (chip : Fin 4) (t : Time) (s : State) : OutcomeKeeps s.kept (execBzReseatSwitch chip t s) := by
  unfold execBzReseatSwitch
  show State.kept _ = _
  repeat' (first | with_reducible rfl | assumption | rw [foldl_kept] | rw [foldl_fst_kept] | rw [foldl_snd_kept] | with_reducible refine ite_kept _ _ _ _ ?_ ?_ | split | intro _ _ | simp only [State.kept_mk, pending_kept, fuses_kept, live_kept, tileLive_kept, otp_kept, rollback_kept, debugFuse_kept, kept_eta, State.onLive_kept] | rw [apply_ite State.kept])

theorem execBzHsEventReceive_keeps (chip : Fin 4) (ev : BzEvent) (t : Time) (s : State) : OutcomeKeeps s.kept (execBzHsEventReceive chip ev t s) := by
  unfold execBzHsEventReceive
  show State.kept _ = _
  repeat' (first | with_reducible rfl | assumption | rw [foldl_kept] | rw [foldl_fst_kept] | rw [foldl_snd_kept] | with_reducible refine ite_kept _ _ _ _ ?_ ?_ | split | intro _ _ | simp only [State.kept_mk, pending_kept, fuses_kept, live_kept, tileLive_kept, otp_kept, rollback_kept, debugFuse_kept, kept_eta, State.onLive_kept] | rw [apply_ite State.kept])

theorem execBzSolEventReceive_keeps (chip : Fin 4) (ev : BzEvent) (t : Time) (s : State) : OutcomeKeeps s.kept (execBzSolEventReceive chip ev t s) := by
  unfold execBzSolEventReceive
  show State.kept _ = _
  repeat' (first | with_reducible rfl | assumption | rw [foldl_kept] | rw [foldl_fst_kept] | rw [foldl_snd_kept] | with_reducible refine ite_kept _ _ _ _ ?_ ?_ | split | intro _ _ | simp only [State.kept_mk, pending_kept, fuses_kept, live_kept, tileLive_kept, otp_kept, rollback_kept, debugFuse_kept, kept_eta, State.onLive_kept] | rw [apply_ite State.kept])

theorem execBzReflexReceive_keeps (chip : Fin 4) (frame : BzReflex) (t : Time) (s : State) : OutcomeKeeps s.kept (execBzReflexReceive chip frame t s) := by
  unfold execBzReflexReceive
  show State.kept _ = _
  repeat' (first | with_reducible rfl | assumption | rw [foldl_kept] | rw [foldl_fst_kept] | rw [foldl_snd_kept] | with_reducible refine ite_kept _ _ _ _ ?_ ?_ | split | intro _ _ | simp only [State.kept_mk, pending_kept, fuses_kept, live_kept, tileLive_kept, otp_kept, rollback_kept, debugFuse_kept, kept_eta, State.onLive_kept] | rw [apply_ite State.kept])

theorem execBzHsEventFire_keeps (chip : Fin 4) (chan : Fin 12) (t : Time) (s : State) : OutcomeKeeps s.kept (execBzHsEventFire chip chan t s) := by
  unfold execBzHsEventFire
  show State.kept _ = _
  repeat' (first | with_reducible rfl | assumption | rw [foldl_kept] | rw [foldl_fst_kept] | rw [foldl_snd_kept] | with_reducible refine ite_kept _ _ _ _ ?_ ?_ | split | intro _ _ | simp only [State.kept_mk, pending_kept, fuses_kept, live_kept, tileLive_kept, otp_kept, rollback_kept, debugFuse_kept, kept_eta, State.onLive_kept] | rw [apply_ite State.kept])

theorem execHsPulseEnd_keeps (chip : Fin 4) (chan : Fin 12) (t : Time) (s : State) : OutcomeKeeps s.kept (execHsPulseEnd chip chan t s) := by
  unfold execHsPulseEnd
  show State.kept _ = _
  repeat' (first | with_reducible rfl | assumption | rw [foldl_kept] | rw [foldl_fst_kept] | rw [foldl_snd_kept] | with_reducible refine ite_kept _ _ _ _ ?_ ?_ | split | intro _ _ | simp only [State.kept_mk, pending_kept, fuses_kept, live_kept, tileLive_kept, otp_kept, rollback_kept, debugFuse_kept, kept_eta, State.onLive_kept] | rw [apply_ite State.kept])

theorem execHsPwmPeriod_keeps (chip : Fin 4) (chan : Fin 12) (t : Time) (s : State) : OutcomeKeeps s.kept (execHsPwmPeriod chip chan t s) := by
  unfold execHsPwmPeriod
  show State.kept _ = _
  repeat' (first | with_reducible rfl | assumption | rw [foldl_kept] | rw [foldl_fst_kept] | rw [foldl_snd_kept] | with_reducible refine ite_kept _ _ _ _ ?_ ?_ | split | intro _ _ | simp only [State.kept_mk, pending_kept, fuses_kept, live_kept, tileLive_kept, otp_kept, rollback_kept, debugFuse_kept, kept_eta, State.onLive_kept] | rw [apply_ite State.kept])

theorem execHsPwmOffEdge_keeps (chip : Fin 4) (chan : Fin 12) (meanMa : Nat) (t : Time) (s : State) : OutcomeKeeps s.kept (execHsPwmOffEdge chip chan meanMa t s) := by
  unfold execHsPwmOffEdge
  show State.kept _ = _
  repeat' (first | with_reducible rfl | assumption | rw [foldl_kept] | rw [foldl_fst_kept] | rw [foldl_snd_kept] | with_reducible refine ite_kept _ _ _ _ ?_ ?_ | split | intro _ _ | simp only [State.kept_mk, pending_kept, fuses_kept, live_kept, tileLive_kept, otp_kept, rollback_kept, debugFuse_kept, kept_eta, State.onLive_kept] | rw [apply_ite State.kept])

theorem execHsDcOlCheck_keeps (chip : Fin 4) (chan : Fin 12) (meanMa : Nat) (t : Time) (s : State) : OutcomeKeeps s.kept (execHsDcOlCheck chip chan meanMa t s) := by
  unfold execHsDcOlCheck
  show State.kept _ = _
  repeat' (first | with_reducible rfl | assumption | rw [foldl_kept] | rw [foldl_fst_kept] | rw [foldl_snd_kept] | with_reducible refine ite_kept _ _ _ _ ?_ ?_ | split | intro _ _ | simp only [State.kept_mk, pending_kept, fuses_kept, live_kept, tileLive_kept, otp_kept, rollback_kept, debugFuse_kept, kept_eta, State.onLive_kept] | rw [apply_ite State.kept])

theorem execHsOverload_keeps (chip : Fin 4) (chan : Fin 12) (limUs : Nat) (t : Time) (s : State) : OutcomeKeeps s.kept (execHsOverload chip chan limUs t s) := by
  unfold execHsOverload
  show State.kept _ = _
  repeat' (first | with_reducible rfl | assumption | rw [foldl_kept] | rw [foldl_fst_kept] | rw [foldl_snd_kept] | with_reducible refine ite_kept _ _ _ _ ?_ ?_ | split | intro _ _ | simp only [State.kept_mk, pending_kept, fuses_kept, live_kept, tileLive_kept, otp_kept, rollback_kept, debugFuse_kept, kept_eta, State.onLive_kept] | rw [apply_ite State.kept])

theorem execHsRetryEnd_keeps (chip : Fin 4) (chan : Fin 12) (junction : Int) (t : Time) (s : State) : OutcomeKeeps s.kept (execHsRetryEnd chip chan junction t s) := by
  unfold execHsRetryEnd
  show State.kept _ = _
  repeat' (first | with_reducible rfl | assumption | rw [foldl_kept] | rw [foldl_fst_kept] | rw [foldl_snd_kept] | with_reducible refine ite_kept _ _ _ _ ?_ ?_ | split | intro _ _ | simp only [State.kept_mk, pending_kept, fuses_kept, live_kept, tileLive_kept, otp_kept, rollback_kept, debugFuse_kept, kept_eta, State.onLive_kept] | rw [apply_ite State.kept])

theorem execHsRetryReset_keeps (chip : Fin 4) (chan : Fin 12) (t : Time) (s : State) : OutcomeKeeps s.kept (execHsRetryReset chip chan t s) := by
  unfold execHsRetryReset
  show State.kept _ = _
  repeat' (first | with_reducible rfl | assumption | rw [foldl_kept] | rw [foldl_fst_kept] | rw [foldl_snd_kept] | with_reducible refine ite_kept _ _ _ _ ?_ ?_ | split | intro _ _ | simp only [State.kept_mk, pending_kept, fuses_kept, live_kept, tileLive_kept, otp_kept, rollback_kept, debugFuse_kept, kept_eta, State.onLive_kept] | rw [apply_ite State.kept])

theorem execHsMWindowEnd_keeps (chip : Fin 4) (chan : Fin 12) (t : Time) (s : State) : OutcomeKeeps s.kept (execHsMWindowEnd chip chan t s) := by
  unfold execHsMWindowEnd
  show State.kept _ = _
  repeat' (first | with_reducible rfl | assumption | rw [foldl_kept] | rw [foldl_fst_kept] | rw [foldl_snd_kept] | with_reducible refine ite_kept _ _ _ _ ?_ ?_ | split | intro _ _ | simp only [State.kept_mk, pending_kept, fuses_kept, live_kept, tileLive_kept, otp_kept, rollback_kept, debugFuse_kept, kept_eta, State.onLive_kept] | rw [apply_ite State.kept])

theorem execHsThermalShutdown_keeps (chip : Fin 4) (chan : Fin 12) (junction : Int) (t : Time) (s : State) : OutcomeKeeps s.kept (execHsThermalShutdown chip chan junction t s) := by
  unfold execHsThermalShutdown
  show State.kept _ = _
  repeat' (first | with_reducible rfl | assumption | rw [foldl_kept] | rw [foldl_fst_kept] | rw [foldl_snd_kept] | with_reducible refine ite_kept _ _ _ _ ?_ ?_ | split | intro _ _ | simp only [State.kept_mk, pending_kept, fuses_kept, live_kept, tileLive_kept, otp_kept, rollback_kept, debugFuse_kept, kept_eta, State.onLive_kept] | rw [apply_ite State.kept])

theorem execHsThermalRestart_keeps (chip : Fin 4) (chan : Fin 12) (junction : Int) (t : Time) (s : State) : OutcomeKeeps s.kept (execHsThermalRestart chip chan junction t s) := by
  unfold execHsThermalRestart
  show State.kept _ = _
  repeat' (first | with_reducible rfl | assumption | rw [foldl_kept] | rw [foldl_fst_kept] | rw [foldl_snd_kept] | with_reducible refine ite_kept _ _ _ _ ?_ ?_ | split | intro _ _ | simp only [State.kept_mk, pending_kept, fuses_kept, live_kept, tileLive_kept, otp_kept, rollback_kept, debugFuse_kept, kept_eta, State.onLive_kept] | rw [apply_ite State.kept])

theorem execHsFuseUpdate_keeps (chip : Fin 4) (chan : Fin 12) (meanMa : Nat) (t : Time) (s : State) : OutcomeKeeps s.kept (execHsFuseUpdate chip chan meanMa t s) := by
  unfold execHsFuseUpdate
  show State.kept _ = _
  repeat' (first | with_reducible rfl | assumption | rw [foldl_kept] | rw [foldl_fst_kept] | rw [foldl_snd_kept] | with_reducible refine ite_kept _ _ _ _ ?_ ?_ | split | intro _ _ | simp only [State.kept_mk, pending_kept, fuses_kept, live_kept, tileLive_kept, otp_kept, rollback_kept, debugFuse_kept, kept_eta, State.onLive_kept] | rw [apply_ite State.kept])

theorem execHsCompUpdate_keeps (chip : Fin 4) (chan : Fin 12) (s : State) : OutcomeKeeps s.kept (execHsCompUpdate chip chan s) := by
  unfold execHsCompUpdate
  show State.kept _ = _
  repeat' (first | with_reducible rfl | assumption | rw [foldl_kept] | rw [foldl_fst_kept] | rw [foldl_snd_kept] | with_reducible refine ite_kept _ _ _ _ ?_ ?_ | split | intro _ _ | simp only [State.kept_mk, pending_kept, fuses_kept, live_kept, tileLive_kept, otp_kept, rollback_kept, debugFuse_kept, kept_eta, State.onLive_kept] | rw [apply_ite State.kept])

theorem execHsClampEnd_keeps (chip : Fin 4) (chan : Fin 12) (energyUj : Nat) (t : Time) (s : State) : OutcomeKeeps s.kept (execHsClampEnd chip chan energyUj t s) := by
  unfold execHsClampEnd
  show State.kept _ = _
  repeat' (first | with_reducible rfl | assumption | rw [foldl_kept] | rw [foldl_fst_kept] | rw [foldl_snd_kept] | with_reducible refine ite_kept _ _ _ _ ?_ ?_ | split | intro _ _ | simp only [State.kept_mk, pending_kept, fuses_kept, live_kept, tileLive_kept, otp_kept, rollback_kept, debugFuse_kept, kept_eta, State.onLive_kept] | rw [apply_ite State.kept])

theorem execHsOlOffSourceOn_keeps (chip : Fin 4) (chan : Fin 12) (outMv : Nat) (t : Time) (s : State) : OutcomeKeeps s.kept (execHsOlOffSourceOn chip chan outMv t s) := by
  unfold execHsOlOffSourceOn
  show State.kept _ = _
  repeat' (first | with_reducible rfl | assumption | rw [foldl_kept] | rw [foldl_fst_kept] | rw [foldl_snd_kept] | with_reducible refine ite_kept _ _ _ _ ?_ ?_ | split | intro _ _ | simp only [State.kept_mk, pending_kept, fuses_kept, live_kept, tileLive_kept, otp_kept, rollback_kept, debugFuse_kept, kept_eta, State.onLive_kept] | rw [apply_ite State.kept])

theorem execHsOlOffSample_keeps (chip : Fin 4) (chan : Fin 12) (outMv : Nat) (t : Time) (s : State) : OutcomeKeeps s.kept (execHsOlOffSample chip chan outMv t s) := by
  unfold execHsOlOffSample
  show State.kept _ = _
  repeat' (first | with_reducible rfl | assumption | rw [foldl_kept] | rw [foldl_fst_kept] | rw [foldl_snd_kept] | with_reducible refine ite_kept _ _ _ _ ?_ ?_ | split | intro _ _ | simp only [State.kept_mk, pending_kept, fuses_kept, live_kept, tileLive_kept, otp_kept, rollback_kept, debugFuse_kept, kept_eta, State.onLive_kept] | rw [apply_ite State.kept])

theorem execHsPairImbalance_keeps (chip : Fin 4) (chan : Fin 12) (ma0 : Nat) (ma1 : Nat) (us : Nat) (t : Time) (s : State) : OutcomeKeeps s.kept (execHsPairImbalance chip chan ma0 ma1 us t s) := by
  unfold execHsPairImbalance
  show State.kept _ = _
  repeat' (first | with_reducible rfl | assumption | rw [foldl_kept] | rw [foldl_fst_kept] | rw [foldl_snd_kept] | with_reducible refine ite_kept _ _ _ _ ?_ ?_ | split | intro _ _ | simp only [State.kept_mk, pending_kept, fuses_kept, live_kept, tileLive_kept, otp_kept, rollback_kept, debugFuse_kept, kept_eta, State.onLive_kept] | rw [apply_ite State.kept])

theorem execBzSolEventStart_keeps (chip : Fin 4) (out : Fin 12) (t : Time) (s : State) : OutcomeKeeps s.kept (execBzSolEventStart chip out t s) := by
  unfold execBzSolEventStart
  show State.kept _ = _
  repeat' (first | with_reducible rfl | assumption | rw [foldl_kept] | rw [foldl_fst_kept] | rw [foldl_snd_kept] | with_reducible refine ite_kept _ _ _ _ ?_ ?_ | split | intro _ _ | simp only [State.kept_mk, pending_kept, fuses_kept, live_kept, tileLive_kept, otp_kept, rollback_kept, debugFuse_kept, kept_eta, State.onLive_kept] | rw [apply_ite State.kept])

theorem execSolPeakReached_keeps (chip : Fin 4) (out : Fin 12) (samples : List Nat) (t : Time) (s : State) : OutcomeKeeps s.kept (execSolPeakReached chip out samples t s) := by
  unfold execSolPeakReached
  show State.kept _ = _
  repeat' (first | with_reducible rfl | assumption | rw [foldl_kept] | rw [foldl_fst_kept] | rw [foldl_snd_kept] | with_reducible refine ite_kept _ _ _ _ ?_ ?_ | split | intro _ _ | simp only [State.kept_mk, pending_kept, fuses_kept, live_kept, tileLive_kept, otp_kept, rollback_kept, debugFuse_kept, kept_eta, State.onLive_kept] | rw [apply_ite State.kept])

theorem execSolPeakTimeout_keeps (chip : Fin 4) (out : Fin 12) (maxMa : Nat) (t : Time) (s : State) : OutcomeKeeps s.kept (execSolPeakTimeout chip out maxMa t s) := by
  unfold execSolPeakTimeout
  show State.kept _ = _
  repeat' (first | with_reducible rfl | assumption | rw [foldl_kept] | rw [foldl_fst_kept] | rw [foldl_snd_kept] | with_reducible refine ite_kept _ _ _ _ ?_ ?_ | split | intro _ _ | simp only [State.kept_mk, pending_kept, fuses_kept, live_kept, tileLive_kept, otp_kept, rollback_kept, debugFuse_kept, kept_eta, State.onLive_kept] | rw [apply_ite State.kept])

theorem execSolDwellEnd_keeps (chip : Fin 4) (out : Fin 12) (t : Time) (s : State) : OutcomeKeeps s.kept (execSolDwellEnd chip out t s) := by
  unfold execSolDwellEnd
  show State.kept _ = _
  repeat' (first | with_reducible rfl | assumption | rw [foldl_kept] | rw [foldl_fst_kept] | rw [foldl_snd_kept] | with_reducible refine ite_kept _ _ _ _ ?_ ?_ | split | intro _ _ | simp only [State.kept_mk, pending_kept, fuses_kept, live_kept, tileLive_kept, otp_kept, rollback_kept, debugFuse_kept, kept_eta, State.onLive_kept] | rw [apply_ite State.kept])

theorem execSolSourceSwitch_keeps (chip : Fin 4) (bank : Fin 3) (t : Time) (s : State) : OutcomeKeeps s.kept (execSolSourceSwitch chip bank t s) := by
  unfold execSolSourceSwitch
  show State.kept _ = _
  repeat' (first | with_reducible rfl | assumption | rw [foldl_kept] | rw [foldl_fst_kept] | rw [foldl_snd_kept] | with_reducible refine ite_kept _ _ _ _ ?_ ?_ | split | intro _ _ | simp only [State.kept_mk, pending_kept, fuses_kept, live_kept, tileLive_kept, otp_kept, rollback_kept, debugFuse_kept, kept_eta, State.onLive_kept] | rw [apply_ite State.kept])

theorem execSolChopPeriod_keeps (chip : Fin 4) (out : Fin 12) (valley : Nat) (t : Time) (s : State) : OutcomeKeeps s.kept (execSolChopPeriod chip out valley t s) := by
  unfold execSolChopPeriod
  show State.kept _ = _
  repeat' (first | with_reducible rfl | assumption | rw [foldl_kept] | rw [foldl_fst_kept] | rw [foldl_snd_kept] | with_reducible refine ite_kept _ _ _ _ ?_ ?_ | split | intro _ _ | simp only [State.kept_mk, pending_kept, fuses_kept, live_kept, tileLive_kept, otp_kept, rollback_kept, debugFuse_kept, kept_eta, State.onLive_kept] | rw [apply_ite State.kept])

theorem execSolHoldEnd_keeps (chip : Fin 4) (out : Fin 12) (t : Time) (s : State) : OutcomeKeeps s.kept (execSolHoldEnd chip out t s) := by
  unfold execSolHoldEnd
  show State.kept _ = _
  repeat' (first | with_reducible rfl | assumption | rw [foldl_kept] | rw [foldl_fst_kept] | rw [foldl_snd_kept] | with_reducible refine ite_kept _ _ _ _ ?_ ?_ | split | intro _ _ | simp only [State.kept_mk, pending_kept, fuses_kept, live_kept, tileLive_kept, otp_kept, rollback_kept, debugFuse_kept, kept_eta, State.onLive_kept] | rw [apply_ite State.kept])

theorem execSolDecayEnd_keeps (chip : Fin 4) (out : Fin 12) (currentMa : Nat) (clampUj : Nat) (t : Time) (s : State) : OutcomeKeeps s.kept (execSolDecayEnd chip out currentMa clampUj t s) := by
  unfold execSolDecayEnd
  show State.kept _ = _
  repeat' (first | with_reducible rfl | assumption | rw [foldl_kept] | rw [foldl_fst_kept] | rw [foldl_snd_kept] | with_reducible refine ite_kept _ _ _ _ ?_ ?_ | split | intro _ _ | simp only [State.kept_mk, pending_kept, fuses_kept, live_kept, tileLive_kept, otp_kept, rollback_kept, debugFuse_kept, kept_eta, State.onLive_kept] | rw [apply_ite State.kept])

theorem execSolRestEnd_keeps (chip : Fin 4) (out : Fin 12) (volts : List Int) (t : Time) (s : State) : OutcomeKeeps s.kept (execSolRestEnd chip out volts t s) := by
  unfold execSolRestEnd
  show State.kept _ = _
  repeat' (first | with_reducible rfl | assumption | rw [foldl_kept] | rw [foldl_fst_kept] | rw [foldl_snd_kept] | with_reducible refine ite_kept _ _ _ _ ?_ ?_ | split | intro _ _ | simp only [State.kept_mk, pending_kept, fuses_kept, live_kept, tileLive_kept, otp_kept, rollback_kept, debugFuse_kept, kept_eta, State.onLive_kept] | rw [apply_ite State.kept])

theorem execSolShort_keeps (chip : Fin 4) (bank : Fin 3) (out : Option (Fin 12)) (ma : Nat) (s : State) : OutcomeKeeps s.kept (execSolShort chip bank out ma s) := by
  unfold execSolShort
  show State.kept _ = _
  repeat' (first | with_reducible rfl | assumption | rw [foldl_kept] | rw [foldl_fst_kept] | rw [foldl_snd_kept] | with_reducible refine ite_kept _ _ _ _ ?_ ?_ | split | intro _ _ | simp only [State.kept_mk, pending_kept, fuses_kept, live_kept, tileLive_kept, otp_kept, rollback_kept, debugFuse_kept, kept_eta, State.onLive_kept] | rw [apply_ite State.kept])

theorem execSolCoilUpdate_keeps (chip : Fin 4) (meanSq : List Nat) (sensor : Int) (t : Time) (s : State) : OutcomeKeeps s.kept (execSolCoilUpdate chip meanSq sensor t s) := by
  unfold execSolCoilUpdate
  show State.kept _ = _
  repeat' (first | with_reducible rfl | assumption | rw [foldl_kept] | rw [foldl_fst_kept] | rw [foldl_snd_kept] | with_reducible refine ite_kept _ _ _ _ ?_ ?_ | split | intro _ _ | simp only [State.kept_mk, pending_kept, fuses_kept, live_kept, tileLive_kept, otp_kept, rollback_kept, debugFuse_kept, kept_eta, State.onLive_kept] | rw [apply_ite State.kept])

theorem execSolProbe_keeps (chip : Fin 4) (bank : Fin 3) (s : State) : OutcomeKeeps s.kept (execSolProbe chip bank s) := by
  unfold execSolProbe
  show State.kept _ = _
  repeat' (first | with_reducible rfl | assumption | rw [foldl_kept] | rw [foldl_fst_kept] | rw [foldl_snd_kept] | with_reducible refine ite_kept _ _ _ _ ?_ ?_ | split | intro _ _ | simp only [State.kept_mk, pending_kept, fuses_kept, live_kept, tileLive_kept, otp_kept, rollback_kept, debugFuse_kept, kept_eta, State.onLive_kept] | rw [apply_ite State.kept])

theorem execSolProbeDone_keeps (chip : Fin 4) (bank : Fin 3) (mv : Nat) (t : Time) (s : State) : OutcomeKeeps s.kept (execSolProbeDone chip bank mv t s) := by
  unfold execSolProbeDone
  show State.kept _ = _
  repeat' (first | with_reducible rfl | assumption | rw [foldl_kept] | rw [foldl_fst_kept] | rw [foldl_snd_kept] | with_reducible refine ite_kept _ _ _ _ ?_ ?_ | split | intro _ _ | simp only [State.kept_mk, pending_kept, fuses_kept, live_kept, tileLive_kept, otp_kept, rollback_kept, debugFuse_kept, kept_eta, State.onLive_kept] | rw [apply_ite State.kept])

theorem execBstMeasure_keeps (chip : Fin 4) (mv : Nat) (t : Time) (s : State) : OutcomeKeeps s.kept (execBstMeasure chip mv t s) := by
  unfold execBstMeasure
  show State.kept _ = _
  repeat' (first | with_reducible rfl | assumption | rw [foldl_kept] | rw [foldl_fst_kept] | rw [foldl_snd_kept] | with_reducible refine ite_kept _ _ _ _ ?_ ?_ | split | intro _ _ | simp only [State.kept_mk, pending_kept, fuses_kept, live_kept, tileLive_kept, otp_kept, rollback_kept, debugFuse_kept, kept_eta, State.onLive_kept] | rw [apply_ite State.kept])

theorem execSolRelearn_keeps (chip : Fin 4) (mask : Word) (s : State) : OutcomeKeeps s.kept (execSolRelearn chip mask s) := by
  unfold execSolRelearn
  show State.kept _ = _
  repeat' (first | with_reducible rfl | assumption | rw [foldl_kept] | rw [foldl_fst_kept] | rw [foldl_snd_kept] | with_reducible refine ite_kept _ _ _ _ ?_ ?_ | split | intro _ _ | simp only [State.kept_mk, pending_kept, fuses_kept, live_kept, tileLive_kept, otp_kept, rollback_kept, debugFuse_kept, kept_eta, State.onLive_kept] | rw [apply_ite State.kept])

theorem execBzDflFrameDiscard_keeps (chip : Fin 4) (s : State) : OutcomeKeeps s.kept (execBzDflFrameDiscard chip s) := by
  unfold execBzDflFrameDiscard
  show State.kept _ = _
  repeat' (first | with_reducible rfl | assumption | rw [foldl_kept] | rw [foldl_fst_kept] | rw [foldl_snd_kept] | with_reducible refine ite_kept _ _ _ _ ?_ ?_ | split | intro _ _ | simp only [State.kept_mk, pending_kept, fuses_kept, live_kept, tileLive_kept, otp_kept, rollback_kept, debugFuse_kept, kept_eta, State.onLive_kept] | rw [apply_ite State.kept])

theorem execSolChopOff_keeps (chip : Fin 4) (out : Fin 12) (peakCounts : Nat) (currentMa : Nat) (onNs : Nat) (s : State) : OutcomeKeeps s.kept (execSolChopOff chip out peakCounts currentMa onNs s) := by
  unfold execSolChopOff
  show State.kept _ = _
  repeat' (first | with_reducible rfl | assumption | rw [foldl_kept] | rw [foldl_fst_kept] | rw [foldl_snd_kept] | with_reducible refine ite_kept _ _ _ _ ?_ ?_ | split | intro _ _ | simp only [State.kept_mk, pending_kept, fuses_kept, live_kept, tileLive_kept, otp_kept, rollback_kept, debugFuse_kept, kept_eta, State.onLive_kept] | rw [apply_ite State.kept])

theorem execHsFlagClear_keeps (chip : Fin 4) (chan : Fin 12) (mask : Word) (junction : Int) (t : Time) (s : State) : OutcomeKeeps s.kept (execHsFlagClear chip chan mask junction t s) := by
  unfold execHsFlagClear
  show State.kept _ = _
  repeat' (first | with_reducible rfl | assumption | rw [foldl_kept] | rw [foldl_fst_kept] | rw [foldl_snd_kept] | with_reducible refine ite_kept _ _ _ _ ?_ ?_ | split | intro _ _ | simp only [State.kept_mk, pending_kept, fuses_kept, live_kept, tileLive_kept, otp_kept, rollback_kept, debugFuse_kept, kept_eta, State.onLive_kept] | rw [apply_ite State.kept])

theorem execSolFlagClear_keeps (chip : Fin 4) (out : Fin 12) (mask : Word) (probeMv : Nat) (t : Time) (s : State) : OutcomeKeeps s.kept (execSolFlagClear chip out mask probeMv t s) := by
  unfold execSolFlagClear
  show State.kept _ = _
  repeat' (first | with_reducible rfl | assumption | rw [foldl_kept] | rw [foldl_fst_kept] | rw [foldl_snd_kept] | with_reducible refine ite_kept _ _ _ _ ?_ ?_ | split | intro _ _ | simp only [State.kept_mk, pending_kept, fuses_kept, live_kept, tileLive_kept, otp_kept, rollback_kept, debugFuse_kept, kept_eta, State.onLive_kept] | rw [apply_ite State.kept])

theorem State.abWrite_kept (s : State) (t : Nat) (off : Nat) (bs : List Byte) (bad : Nat → Bool) : (State.abWrite s t off bs bad).kept = s.kept := by
  unfold State.abWrite
  repeat' (first | with_reducible rfl | assumption | rw [foldl_kept] | rw [foldl_fst_kept] | rw [foldl_snd_kept] | with_reducible refine ite_kept _ _ _ _ ?_ ?_ | split | intro _ _ | simp only [State.kept_mk, pending_kept, fuses_kept, live_kept, tileLive_kept, otp_kept, rollback_kept, debugFuse_kept, kept_eta, State.modTile_kept] | rw [apply_ite State.kept])

theorem State.resvWrite_kept (s : State) (base : Nat) (bs : List Byte) (bad : Nat → Bool) (void : Nat) : (State.resvWrite s base bs bad void).kept = s.kept := by
  have e : ∀ (b : Prop) [Decidable b] (u v : State), u.kept = s.kept → v.kept = s.kept → (if b then u else v).kept = s.kept := by
    intro b _ u v hu hv; split <;> assumption
  have r : ∀ (u : State) (x : Reservoir), u.kept = s.kept → ({ u with resv := x } : State).kept = s.kept := fun _ _ h => h
  unfold State.resvWrite
  exact e _ _ _ (e _ _ _ rfl (r _ _ rfl)) (r _ _ (e _ _ _ rfl (r _ _ rfl)))

theorem State.store_kept (s : State) (t : Nat) (c : Core) (space : Nat) (base : Nat) (bs : List Byte) (bad : Nat → Bool) : (State.store s t c space base bs bad).kept = s.kept := by
  unfold State.store
  repeat' (first | with_reducible rfl | assumption | rw [foldl_kept] | rw [foldl_fst_kept] | rw [foldl_snd_kept] | with_reducible refine ite_kept _ _ _ _ ?_ ?_ | split | intro _ _ | simp only [State.kept_mk, pending_kept, fuses_kept, live_kept, tileLive_kept, otp_kept, rollback_kept, debugFuse_kept, kept_eta, State.resvWrite_kept, State.abWrite_kept] | rw [apply_ite State.kept])

theorem State.memCe_kept (s : State) (t : Nat) (store : Nat) (addr : Nat) (stamp : Stamp) : (State.memCe s t store addr stamp).kept = s.kept := by
  unfold State.memCe
  repeat' (first | with_reducible rfl | assumption | rw [foldl_kept] | rw [foldl_fst_kept] | rw [foldl_snd_kept] | with_reducible refine ite_kept _ _ _ _ ?_ ?_ | split | intro _ _ | simp only [State.kept_mk, pending_kept, fuses_kept, live_kept, tileLive_kept, otp_kept, rollback_kept, debugFuse_kept, kept_eta, State.faultThrottled_kept, State.tileFlag_kept] | rw [apply_ite State.kept])

theorem State.memUe_kept (s : State) (t : Nat) (h : Nat) (store : Nat) (addr : Nat) (stamp : Stamp) : (State.memUe s t h store addr stamp).kept = s.kept := by
  unfold State.memUe
  repeat' (first | with_reducible rfl | assumption | rw [foldl_kept] | rw [foldl_fst_kept] | rw [foldl_snd_kept] | with_reducible refine ite_kept _ _ _ _ ?_ ?_ | split | intro _ _ | simp only [State.kept_mk, pending_kept, fuses_kept, live_kept, tileLive_kept, otp_kept, rollback_kept, debugFuse_kept, kept_eta, State.modTile_kept, State.tileFlag_kept, State.fault_kept] | rw [apply_ite State.kept])

theorem State.resvErr_kept (s : State) (die : Nat) (addr : Nat) (ue : Bool) (stamp : Stamp) : (State.resvErr s die addr ue stamp).kept = s.kept := by
  unfold State.resvErr
  repeat' (first | with_reducible rfl | assumption | rw [foldl_kept] | rw [foldl_fst_kept] | rw [foldl_snd_kept] | with_reducible refine ite_kept _ _ _ _ ?_ ?_ | split | intro _ _ | simp only [State.kept_mk, pending_kept, fuses_kept, live_kept, tileLive_kept, otp_kept, rollback_kept, debugFuse_kept, kept_eta, State.fault_kept, State.faultThrottled_kept] | rw [apply_ite State.kept])

theorem State.applyHits_kept (s : State) (t : Nat) (c : Core) (xs : List Extent) (hits : List EccHit) : (State.applyHits s t c xs hits).kept = s.kept := by
  unfold State.applyHits
  repeat' (first | with_reducible rfl | assumption | rw [foldl_kept] | rw [foldl_fst_kept] | rw [foldl_snd_kept] | with_reducible refine ite_kept _ _ _ _ ?_ ?_ | split | intro _ _ | simp only [State.kept_mk, pending_kept, fuses_kept, live_kept, tileLive_kept, otp_kept, rollback_kept, debugFuse_kept, kept_eta, State.resvErr_kept, State.memUe_kept, State.memCe_kept] | rw [apply_ite State.kept])

theorem State.setCore_kept (s : State) (t : Nat) (c : Core) : (State.setCore s t c).kept = s.kept := by
  unfold State.setCore
  repeat' (first | with_reducible rfl | assumption | rw [foldl_kept] | rw [foldl_fst_kept] | rw [foldl_snd_kept] | with_reducible refine ite_kept _ _ _ _ ?_ ?_ | split | intro _ _ | simp only [State.kept_mk, pending_kept, fuses_kept, live_kept, tileLive_kept, otp_kept, rollback_kept, debugFuse_kept, kept_eta, State.modTile_kept] | rw [apply_ite State.kept])

theorem State.raiseExc_kept (s : State) (t : Nat) (c : Core) (cause : Nat) : (State.raiseExc s t c cause).kept = s.kept := by
  unfold State.raiseExc
  repeat' (first | with_reducible rfl | assumption | rw [foldl_kept] | rw [foldl_fst_kept] | rw [foldl_snd_kept] | with_reducible refine ite_kept _ _ _ _ ?_ ?_ | split | intro _ _ | simp only [State.kept_mk, pending_kept, fuses_kept, live_kept, tileLive_kept, otp_kept, rollback_kept, debugFuse_kept, kept_eta, State.setReg_kept, State.tileFlag_kept, State.countVoid_kept, State.makeRecord_kept, State.modTile_kept, State.modJob_kept] | rw [apply_ite State.kept])

theorem State.excAt_kept (s : State) (t : Nat) (c : Core) (cause : Nat) : (State.excAt s t c cause).kept = s.kept := by
  unfold State.excAt
  repeat' (first | with_reducible rfl | assumption | rw [foldl_kept] | rw [foldl_fst_kept] | rw [foldl_snd_kept] | with_reducible refine ite_kept _ _ _ _ ?_ ?_ | split | intro _ _ | simp only [State.kept_mk, pending_kept, fuses_kept, live_kept, tileLive_kept, otp_kept, rollback_kept, debugFuse_kept, kept_eta, State.raiseExc_kept, State.mark_kept, State.stopJob_kept] | rw [apply_ite State.kept])

theorem readGate_kept (s : State) (c : Core) (bad : Bool) (f : State → NtRes) (k : Kept) (hs : s.kept = k) (h : ∀ s', s'.kept = k → NtRes.Keeps k (f s')) :
    NtRes.Keeps k (readGate s c bad f) := by
  unfold readGate
  split
  · split
    · exact hs
    · exact h _ (by rw [State.mark_kept, hs])
  · exact h _ hs

theorem State.settle_kept (s : State) (t : Nat) (c : Core) (r : NtRes) (h : NtRes.Keeps s.kept r) : (State.settle s t c r).kept = s.kept := by
  cases r <;> simp only [State.settle, NtRes.Keeps, State.setCore_kept, State.excAt_kept, State.stopJob_kept] at * <;> try assumption
  split
  · rw [State.setCore_kept]; assumption
  · rw [State.excAt_kept]

theorem State.issue_kept (s : State) (t : Fin 512) (g : Issue) (ill : Core → Bool) (f : Core → State → NtRes)
    (h : ∀ c s', s'.kept = s.kept → NtRes.Keeps s.kept (f c s')) : (State.issue s t g ill f).kept = s.kept := by
  have run : ∀ c s', s'.kept = s.kept → ∀ r, NtRes.Keeps s.kept r → (State.settle s' t c r).kept = s.kept := fun c s' e r hr => by
    rw [State.settle_kept _ _ _ _ (by rwa [e]), e]
  have rest : ∀ (c : Core) (s' : State) (a b d : Prop) [Decidable a] [Decidable b] [Decidable d], s'.kept = s.kept →
      (if a then s'.excAt t c 9 else if b then s'.excAt t c 1 else if d then s'.settle t c (.done c s') else s'.settle t c (f c s')).kept = s.kept := by
    intro c s' a b d _ _ _ e
    split
    · rw [State.excAt_kept, e]
    · split
      · rw [State.excAt_kept, e]
      · split
        · exact run _ _ e _ e
        · exact run _ _ e _ (h _ _ e)
  unfold State.issue
  split
  · rfl
  · split
    · rfl
    · refine rest _ _ _ _ _ ?_
      split
      · rfl
      · exact State.memCe_kept _ _ _ _ _
      · exact State.memUe_kept _ _ _ _ _ _

theorem State.issueCore_kept (s : State) (t : Fin 512) (g : Issue) (f : Core → Core) : (State.issueCore s t g f).kept = s.kept :=
  State.issue_kept _ _ _ _ _ fun _ _ h => h

theorem State.inject_kept (s : State) (m : Msg) : (State.inject s m).kept = s.kept := by
  unfold State.inject
  repeat' (first | with_reducible rfl | assumption | rw [foldl_kept] | rw [foldl_fst_kept] | rw [foldl_snd_kept] | with_reducible refine ite_kept _ _ _ _ ?_ ?_ | split | intro _ _ | simp only [State.kept_mk, pending_kept, fuses_kept, live_kept, tileLive_kept, otp_kept, rollback_kept, debugFuse_kept, kept_eta] | rw [apply_ite State.kept])

theorem State.fly_kept (s : State) (t : Nat) (e : Nat) (reads : List Extent) (writes : List Extent) : (State.fly s t e reads writes).kept = s.kept := by
  unfold State.fly
  repeat' (first | with_reducible rfl | assumption | rw [foldl_kept] | rw [foldl_fst_kept] | rw [foldl_snd_kept] | with_reducible refine ite_kept _ _ _ _ ?_ ?_ | split | intro _ _ | simp only [State.kept_mk, pending_kept, fuses_kept, live_kept, tileLive_kept, otp_kept, rollback_kept, debugFuse_kept, kept_eta, State.modTile_kept] | rw [apply_ite State.kept])

theorem State.closeDesc_kept (s : State) (t : Nat) (c : Core) (d : Desc) : (State.closeDesc s t c d).kept = s.kept := by
  unfold State.closeDesc
  repeat' (first | with_reducible rfl | assumption | rw [foldl_kept] | rw [foldl_fst_kept] | rw [foldl_snd_kept] | with_reducible refine ite_kept _ _ _ _ ?_ ?_ | split | intro _ _ | simp only [State.kept_mk, pending_kept, fuses_kept, live_kept, tileLive_kept, otp_kept, rollback_kept, debugFuse_kept, kept_eta, State.inject_kept, State.modTile_kept] | rw [apply_ite State.kept])

theorem State.tileEnded_kept (s : State) (t : Nat) (id : JobId) : (State.tileEnded s t id).kept = s.kept := by
  unfold State.tileEnded
  repeat' (first | with_reducible rfl | assumption | rw [foldl_kept] | rw [foldl_fst_kept] | rw [foldl_snd_kept] | with_reducible refine ite_kept _ _ _ _ ?_ ?_ | split | intro _ _ | simp only [State.kept_mk, pending_kept, fuses_kept, live_kept, tileLive_kept, otp_kept, rollback_kept, debugFuse_kept, kept_eta, State.modTile_kept, State.modJob_kept, State.hostJobOver_kept] | rw [apply_ite State.kept])

theorem State.setDie_kept (s : State) (j : Nat) (d : DieIngress) : (State.setDie s j d).kept = s.kept := by
  unfold State.setDie
  repeat' (first | with_reducible rfl | assumption | rw [foldl_kept] | rw [foldl_fst_kept] | rw [foldl_snd_kept] | with_reducible refine ite_kept _ _ _ _ ?_ ?_ | split | intro _ _ | simp only [State.kept_mk, pending_kept, fuses_kept, live_kept, tileLive_kept, otp_kept, rollback_kept, debugFuse_kept, kept_eta] | rw [apply_ite State.kept])

theorem State.modDie_kept (s : State) (j : Nat) (f : DieIngress → DieIngress) : (State.modDie s j f).kept = s.kept := by
  unfold State.modDie
  repeat' (first | with_reducible rfl | assumption | rw [foldl_kept] | rw [foldl_fst_kept] | rw [foldl_snd_kept] | with_reducible refine ite_kept _ _ _ _ ?_ ?_ | split | intro _ _ | simp only [State.kept_mk, pending_kept, fuses_kept, live_kept, tileLive_kept, otp_kept, rollback_kept, debugFuse_kept, kept_eta, State.setDie_kept] | rw [apply_ite State.kept])

theorem State.logInput_kept (s : State) (die : Nat) (kind : Nat) (outcome : Nat) (flags : Nat) (key : Key) (data : List Byte) : (State.logInput s die kind outcome flags key data).kept = s.kept := by
  unfold State.logInput
  repeat' (first | with_reducible rfl | assumption | rw [foldl_kept] | rw [foldl_fst_kept] | rw [foldl_snd_kept] | with_reducible refine ite_kept _ _ _ _ ?_ ?_ | split | intro _ _ | simp only [State.kept_mk, pending_kept, fuses_kept, live_kept, tileLive_kept, otp_kept, rollback_kept, debugFuse_kept, kept_eta, State.makeRecord_kept] | rw [apply_ite State.kept])

theorem State.setLane_kept (s : State) (j : Nat) (admission : Bool) (l : List MSource) : (State.setLane s j admission l).kept = s.kept := by
  unfold State.setLane
  repeat' (first | with_reducible rfl | assumption | rw [foldl_kept] | rw [foldl_fst_kept] | rw [foldl_snd_kept] | with_reducible refine ite_kept _ _ _ _ ?_ ?_ | split | intro _ _ | simp only [State.kept_mk, pending_kept, fuses_kept, live_kept, tileLive_kept, otp_kept, rollback_kept, debugFuse_kept, kept_eta, State.modDie_kept] | rw [apply_ite State.kept])

theorem State.lateIngress_kept (s : State) (j : Nat) (byte : Nat) (i : Item) : (State.lateIngress s j byte i).kept = s.kept := by
  unfold State.lateIngress
  repeat' (first | with_reducible rfl | assumption | rw [foldl_kept] | rw [foldl_fst_kept] | rw [foldl_snd_kept] | with_reducible refine ite_kept _ _ _ _ ?_ ?_ | split | intro _ _ | simp only [State.kept_mk, pending_kept, fuses_kept, live_kept, tileLive_kept, otp_kept, rollback_kept, debugFuse_kept, kept_eta, State.fault_kept, State.logInput_kept, State.inFlag_kept] | rw [apply_ite State.kept])

theorem State.laneArrive_kept (s : State) (j : Nat) (admission : Bool) (byte : Nat) (i : Item) : (State.laneArrive s j admission byte i).kept = s.kept := by
  unfold State.laneArrive
  repeat' (first | with_reducible rfl | assumption | rw [foldl_kept] | rw [foldl_fst_kept] | rw [foldl_snd_kept] | with_reducible refine ite_kept _ _ _ _ ?_ ?_ | split | intro _ _ | simp only [State.kept_mk, pending_kept, fuses_kept, live_kept, tileLive_kept, otp_kept, rollback_kept, debugFuse_kept, kept_eta, State.lateIngress_kept, State.setLane_kept] | rw [apply_ite State.kept])

theorem State.laneHorizon_kept (s : State) (j : Nat) (admission : Bool) (byte : Nat) (h : Key) : (State.laneHorizon s j admission byte h).kept = s.kept := by
  unfold State.laneHorizon
  repeat' (first | with_reducible rfl | assumption | rw [foldl_kept] | rw [foldl_fst_kept] | rw [foldl_snd_kept] | with_reducible refine ite_kept _ _ _ _ ?_ ?_ | split | intro _ _ | simp only [State.kept_mk, pending_kept, fuses_kept, live_kept, tileLive_kept, otp_kept, rollback_kept, debugFuse_kept, kept_eta, State.setLane_kept] | rw [apply_ite State.kept])

theorem State.deliverItem_kept (s : State) (j : Nat) (i : Item) : (State.deliverItem s j i).kept = s.kept := by
  unfold State.deliverItem
  repeat' (first | with_reducible rfl | assumption | rw [foldl_kept] | rw [foldl_fst_kept] | rw [foldl_snd_kept] | with_reducible refine ite_kept _ _ _ _ ?_ ?_ | split | intro _ _ | simp only [State.kept_mk, pending_kept, fuses_kept, live_kept, tileLive_kept, otp_kept, rollback_kept, debugFuse_kept, kept_eta] | rw [apply_ite State.kept])

theorem State.jumpTo_kept (s : State) (t : Nat) (c : Core) (link : Fin 32) (pc : Int) (k : Kept) (h : s.kept = k) : NtRes.Keeps k (State.jumpTo s t c link pc) := by
  unfold State.jumpTo; split
  · exact h
  · trivial

theorem execAdd_keeps (tile : Fin 512) (g : Issue) (dst : Fin 32) (a : Fin 32) (b : Fin 32) (s : State) : OutcomeKeeps s.kept (execAdd tile g dst a b s) := by
  unfold execAdd
  show State.kept _ = _
  repeat' (first | with_reducible rfl | assumption | rw [foldl_kept] | rw [foldl_fst_kept] | rw [foldl_snd_kept] | with_reducible refine ite_kept _ _ _ _ ?_ ?_ | split | intro _ _ | simp only [State.kept_mk, pending_kept, fuses_kept, live_kept, tileLive_kept, otp_kept, rollback_kept, debugFuse_kept, kept_eta, State.issueCore_kept] | rw [apply_ite State.kept])

theorem execSub_keeps (tile : Fin 512) (g : Issue) (dst : Fin 32) (a : Fin 32) (b : Fin 32) (s : State) : OutcomeKeeps s.kept (execSub tile g dst a b s) := by
  unfold execSub
  show State.kept _ = _
  repeat' (first | with_reducible rfl | assumption | rw [foldl_kept] | rw [foldl_fst_kept] | rw [foldl_snd_kept] | with_reducible refine ite_kept _ _ _ _ ?_ ?_ | split | intro _ _ | simp only [State.kept_mk, pending_kept, fuses_kept, live_kept, tileLive_kept, otp_kept, rollback_kept, debugFuse_kept, kept_eta, State.issueCore_kept] | rw [apply_ite State.kept])

theorem execAnd_keeps (tile : Fin 512) (g : Issue) (dst : Fin 32) (a : Fin 32) (b : Fin 32) (s : State) : OutcomeKeeps s.kept (execAnd tile g dst a b s) := by
  unfold execAnd
  show State.kept _ = _
  repeat' (first | with_reducible rfl | assumption | rw [foldl_kept] | rw [foldl_fst_kept] | rw [foldl_snd_kept] | with_reducible refine ite_kept _ _ _ _ ?_ ?_ | split | intro _ _ | simp only [State.kept_mk, pending_kept, fuses_kept, live_kept, tileLive_kept, otp_kept, rollback_kept, debugFuse_kept, kept_eta, State.issueCore_kept] | rw [apply_ite State.kept])

theorem execOr_keeps (tile : Fin 512) (g : Issue) (dst : Fin 32) (a : Fin 32) (b : Fin 32) (s : State) : OutcomeKeeps s.kept (execOr tile g dst a b s) := by
  unfold execOr
  show State.kept _ = _
  repeat' (first | with_reducible rfl | assumption | rw [foldl_kept] | rw [foldl_fst_kept] | rw [foldl_snd_kept] | with_reducible refine ite_kept _ _ _ _ ?_ ?_ | split | intro _ _ | simp only [State.kept_mk, pending_kept, fuses_kept, live_kept, tileLive_kept, otp_kept, rollback_kept, debugFuse_kept, kept_eta, State.issueCore_kept] | rw [apply_ite State.kept])

theorem execXor_keeps (tile : Fin 512) (g : Issue) (dst : Fin 32) (a : Fin 32) (b : Fin 32) (s : State) : OutcomeKeeps s.kept (execXor tile g dst a b s) := by
  unfold execXor
  show State.kept _ = _
  repeat' (first | with_reducible rfl | assumption | rw [foldl_kept] | rw [foldl_fst_kept] | rw [foldl_snd_kept] | with_reducible refine ite_kept _ _ _ _ ?_ ?_ | split | intro _ _ | simp only [State.kept_mk, pending_kept, fuses_kept, live_kept, tileLive_kept, otp_kept, rollback_kept, debugFuse_kept, kept_eta, State.issueCore_kept] | rw [apply_ite State.kept])

theorem execSll_keeps (tile : Fin 512) (g : Issue) (dst : Fin 32) (a : Fin 32) (b : Fin 32) (s : State) : OutcomeKeeps s.kept (execSll tile g dst a b s) := by
  unfold execSll
  show State.kept _ = _
  repeat' (first | with_reducible rfl | assumption | rw [foldl_kept] | rw [foldl_fst_kept] | rw [foldl_snd_kept] | with_reducible refine ite_kept _ _ _ _ ?_ ?_ | split | intro _ _ | simp only [State.kept_mk, pending_kept, fuses_kept, live_kept, tileLive_kept, otp_kept, rollback_kept, debugFuse_kept, kept_eta, State.issueCore_kept] | rw [apply_ite State.kept])

theorem execSrl_keeps (tile : Fin 512) (g : Issue) (dst : Fin 32) (a : Fin 32) (b : Fin 32) (s : State) : OutcomeKeeps s.kept (execSrl tile g dst a b s) := by
  unfold execSrl
  show State.kept _ = _
  repeat' (first | with_reducible rfl | assumption | rw [foldl_kept] | rw [foldl_fst_kept] | rw [foldl_snd_kept] | with_reducible refine ite_kept _ _ _ _ ?_ ?_ | split | intro _ _ | simp only [State.kept_mk, pending_kept, fuses_kept, live_kept, tileLive_kept, otp_kept, rollback_kept, debugFuse_kept, kept_eta, State.issueCore_kept] | rw [apply_ite State.kept])

theorem execSra_keeps (tile : Fin 512) (g : Issue) (dst : Fin 32) (a : Fin 32) (b : Fin 32) (s : State) : OutcomeKeeps s.kept (execSra tile g dst a b s) := by
  unfold execSra
  show State.kept _ = _
  repeat' (first | with_reducible rfl | assumption | rw [foldl_kept] | rw [foldl_fst_kept] | rw [foldl_snd_kept] | with_reducible refine ite_kept _ _ _ _ ?_ ?_ | split | intro _ _ | simp only [State.kept_mk, pending_kept, fuses_kept, live_kept, tileLive_kept, otp_kept, rollback_kept, debugFuse_kept, kept_eta, State.issueCore_kept] | rw [apply_ite State.kept])

theorem execMul_keeps (tile : Fin 512) (g : Issue) (dst : Fin 32) (a : Fin 32) (b : Fin 32) (s : State) : OutcomeKeeps s.kept (execMul tile g dst a b s) := by
  unfold execMul
  show State.kept _ = _
  repeat' (first | with_reducible rfl | assumption | rw [foldl_kept] | rw [foldl_fst_kept] | rw [foldl_snd_kept] | with_reducible refine ite_kept _ _ _ _ ?_ ?_ | split | intro _ _ | simp only [State.kept_mk, pending_kept, fuses_kept, live_kept, tileLive_kept, otp_kept, rollback_kept, debugFuse_kept, kept_eta, State.issueCore_kept] | rw [apply_ite State.kept])

theorem execMulw_keeps (tile : Fin 512) (g : Issue) (dst : Fin 32) (a : Fin 32) (b : Fin 32) (s : State) : OutcomeKeeps s.kept (execMulw tile g dst a b s) := by
  unfold execMulw
  refine State.issue_kept _ _ _ _ _ fun c s h => ?_
  repeat' (first | with_reducible rfl | trivial | assumption | exact State.jumpTo_kept _ _ _ _ _ _ (by assumption) | refine readGate_kept _ _ _ _ _ ?_ ?_ | refine runVectors_kept _ _ _ _ _ _ _ _ _ _ ?_ | refine State.gsRun_kept _ _ _ _ _ _ _ _ _ ?_ ?_ | refine State.gsDone_kept _ _ _ _ _ _ _ ?_ | exact State.get_kept _ _ _ _ _ _ _ _ _ (by assumption) | refine State.cairnSend_kept _ _ _ _ _ _ _ _ ?_ ?_ | exact State.settleSend_kept _ _ _ _ _ _ _ _ _ _ _ _ _ _ (by assumption) | exact State.emitExtent_kept _ _ _ _ _ _ _ _ (by assumption) | rw [foldl_kept] | split | intro _ _ | simp only [NtRes.keeps_done, NtRes.keeps_jump, NtRes.keeps_raise, NtRes.keeps_wait, NtRes.keeps_hold, NtRes.keeps_stop, NtRes.keeps_left, State.kept_mk, pending_kept, fuses_kept, live_kept, tileLive_kept, otp_kept, rollback_kept, debugFuse_kept, kept_eta, State.issue_kept] | rw [apply_ite State.kept])

theorem execMulwu_keeps (tile : Fin 512) (g : Issue) (dst : Fin 32) (a : Fin 32) (b : Fin 32) (s : State) : OutcomeKeeps s.kept (execMulwu tile g dst a b s) := by
  unfold execMulwu
  refine State.issue_kept _ _ _ _ _ fun c s h => ?_
  repeat' (first | with_reducible rfl | trivial | assumption | exact State.jumpTo_kept _ _ _ _ _ _ (by assumption) | refine readGate_kept _ _ _ _ _ ?_ ?_ | refine runVectors_kept _ _ _ _ _ _ _ _ _ _ ?_ | refine State.gsRun_kept _ _ _ _ _ _ _ _ _ ?_ ?_ | refine State.gsDone_kept _ _ _ _ _ _ _ ?_ | exact State.get_kept _ _ _ _ _ _ _ _ _ (by assumption) | refine State.cairnSend_kept _ _ _ _ _ _ _ _ ?_ ?_ | exact State.settleSend_kept _ _ _ _ _ _ _ _ _ _ _ _ _ _ (by assumption) | exact State.emitExtent_kept _ _ _ _ _ _ _ _ (by assumption) | rw [foldl_kept] | split | intro _ _ | simp only [NtRes.keeps_done, NtRes.keeps_jump, NtRes.keeps_raise, NtRes.keeps_wait, NtRes.keeps_hold, NtRes.keeps_stop, NtRes.keeps_left, State.kept_mk, pending_kept, fuses_kept, live_kept, tileLive_kept, otp_kept, rollback_kept, debugFuse_kept, kept_eta, State.issue_kept] | rw [apply_ite State.kept])

theorem execDiv_keeps (tile : Fin 512) (g : Issue) (dst : Fin 32) (a : Fin 32) (b : Fin 32) (s : State) : OutcomeKeeps s.kept (execDiv tile g dst a b s) := by
  unfold execDiv
  show State.kept _ = _
  repeat' (first | with_reducible rfl | assumption | rw [foldl_kept] | rw [foldl_fst_kept] | rw [foldl_snd_kept] | with_reducible refine ite_kept _ _ _ _ ?_ ?_ | split | intro _ _ | simp only [State.kept_mk, pending_kept, fuses_kept, live_kept, tileLive_kept, otp_kept, rollback_kept, debugFuse_kept, kept_eta, State.issueCore_kept] | rw [apply_ite State.kept])

theorem execDivu_keeps (tile : Fin 512) (g : Issue) (dst : Fin 32) (a : Fin 32) (b : Fin 32) (s : State) : OutcomeKeeps s.kept (execDivu tile g dst a b s) := by
  unfold execDivu
  show State.kept _ = _
  repeat' (first | with_reducible rfl | assumption | rw [foldl_kept] | rw [foldl_fst_kept] | rw [foldl_snd_kept] | with_reducible refine ite_kept _ _ _ _ ?_ ?_ | split | intro _ _ | simp only [State.kept_mk, pending_kept, fuses_kept, live_kept, tileLive_kept, otp_kept, rollback_kept, debugFuse_kept, kept_eta, State.issueCore_kept] | rw [apply_ite State.kept])

theorem execRem_keeps (tile : Fin 512) (g : Issue) (dst : Fin 32) (a : Fin 32) (b : Fin 32) (s : State) : OutcomeKeeps s.kept (execRem tile g dst a b s) := by
  unfold execRem
  show State.kept _ = _
  repeat' (first | with_reducible rfl | assumption | rw [foldl_kept] | rw [foldl_fst_kept] | rw [foldl_snd_kept] | with_reducible refine ite_kept _ _ _ _ ?_ ?_ | split | intro _ _ | simp only [State.kept_mk, pending_kept, fuses_kept, live_kept, tileLive_kept, otp_kept, rollback_kept, debugFuse_kept, kept_eta, State.issueCore_kept] | rw [apply_ite State.kept])

theorem execRemu_keeps (tile : Fin 512) (g : Issue) (dst : Fin 32) (a : Fin 32) (b : Fin 32) (s : State) : OutcomeKeeps s.kept (execRemu tile g dst a b s) := by
  unfold execRemu
  show State.kept _ = _
  repeat' (first | with_reducible rfl | assumption | rw [foldl_kept] | rw [foldl_fst_kept] | rw [foldl_snd_kept] | with_reducible refine ite_kept _ _ _ _ ?_ ?_ | split | intro _ _ | simp only [State.kept_mk, pending_kept, fuses_kept, live_kept, tileLive_kept, otp_kept, rollback_kept, debugFuse_kept, kept_eta, State.issueCore_kept] | rw [apply_ite State.kept])

theorem execMin_keeps (tile : Fin 512) (g : Issue) (dst : Fin 32) (a : Fin 32) (b : Fin 32) (s : State) : OutcomeKeeps s.kept (execMin tile g dst a b s) := by
  unfold execMin
  show State.kept _ = _
  repeat' (first | with_reducible rfl | assumption | rw [foldl_kept] | rw [foldl_fst_kept] | rw [foldl_snd_kept] | with_reducible refine ite_kept _ _ _ _ ?_ ?_ | split | intro _ _ | simp only [State.kept_mk, pending_kept, fuses_kept, live_kept, tileLive_kept, otp_kept, rollback_kept, debugFuse_kept, kept_eta, State.issueCore_kept] | rw [apply_ite State.kept])

theorem execMax_keeps (tile : Fin 512) (g : Issue) (dst : Fin 32) (a : Fin 32) (b : Fin 32) (s : State) : OutcomeKeeps s.kept (execMax tile g dst a b s) := by
  unfold execMax
  show State.kept _ = _
  repeat' (first | with_reducible rfl | assumption | rw [foldl_kept] | rw [foldl_fst_kept] | rw [foldl_snd_kept] | with_reducible refine ite_kept _ _ _ _ ?_ ?_ | split | intro _ _ | simp only [State.kept_mk, pending_kept, fuses_kept, live_kept, tileLive_kept, otp_kept, rollback_kept, debugFuse_kept, kept_eta, State.issueCore_kept] | rw [apply_ite State.kept])

theorem execMinu_keeps (tile : Fin 512) (g : Issue) (dst : Fin 32) (a : Fin 32) (b : Fin 32) (s : State) : OutcomeKeeps s.kept (execMinu tile g dst a b s) := by
  unfold execMinu
  show State.kept _ = _
  repeat' (first | with_reducible rfl | assumption | rw [foldl_kept] | rw [foldl_fst_kept] | rw [foldl_snd_kept] | with_reducible refine ite_kept _ _ _ _ ?_ ?_ | split | intro _ _ | simp only [State.kept_mk, pending_kept, fuses_kept, live_kept, tileLive_kept, otp_kept, rollback_kept, debugFuse_kept, kept_eta, State.issueCore_kept] | rw [apply_ite State.kept])

theorem execMaxu_keeps (tile : Fin 512) (g : Issue) (dst : Fin 32) (a : Fin 32) (b : Fin 32) (s : State) : OutcomeKeeps s.kept (execMaxu tile g dst a b s) := by
  unfold execMaxu
  show State.kept _ = _
  repeat' (first | with_reducible rfl | assumption | rw [foldl_kept] | rw [foldl_fst_kept] | rw [foldl_snd_kept] | with_reducible refine ite_kept _ _ _ _ ?_ ?_ | split | intro _ _ | simp only [State.kept_mk, pending_kept, fuses_kept, live_kept, tileLive_kept, otp_kept, rollback_kept, debugFuse_kept, kept_eta, State.issueCore_kept] | rw [apply_ite State.kept])

theorem execAdds_keeps (tile : Fin 512) (g : Issue) (dst : Fin 32) (a : Fin 32) (b : Fin 32) (s : State) : OutcomeKeeps s.kept (execAdds tile g dst a b s) := by
  unfold execAdds
  show State.kept _ = _
  repeat' (first | with_reducible rfl | assumption | rw [foldl_kept] | rw [foldl_fst_kept] | rw [foldl_snd_kept] | with_reducible refine ite_kept _ _ _ _ ?_ ?_ | split | intro _ _ | simp only [State.kept_mk, pending_kept, fuses_kept, live_kept, tileLive_kept, otp_kept, rollback_kept, debugFuse_kept, kept_eta, State.issueCore_kept] | rw [apply_ite State.kept])

theorem execSubs_keeps (tile : Fin 512) (g : Issue) (dst : Fin 32) (a : Fin 32) (b : Fin 32) (s : State) : OutcomeKeeps s.kept (execSubs tile g dst a b s) := by
  unfold execSubs
  show State.kept _ = _
  repeat' (first | with_reducible rfl | assumption | rw [foldl_kept] | rw [foldl_fst_kept] | rw [foldl_snd_kept] | with_reducible refine ite_kept _ _ _ _ ?_ ?_ | split | intro _ _ | simp only [State.kept_mk, pending_kept, fuses_kept, live_kept, tileLive_kept, otp_kept, rollback_kept, debugFuse_kept, kept_eta, State.issueCore_kept] | rw [apply_ite State.kept])

theorem execAddi_keeps (tile : Fin 512) (g : Issue) (dst : Fin 32) (a : Fin 32) (imm : BitVec 12) (s : State) : OutcomeKeeps s.kept (execAddi tile g dst a imm s) := by
  unfold execAddi
  show State.kept _ = _
  repeat' (first | with_reducible rfl | assumption | rw [foldl_kept] | rw [foldl_fst_kept] | rw [foldl_snd_kept] | with_reducible refine ite_kept _ _ _ _ ?_ ?_ | split | intro _ _ | simp only [State.kept_mk, pending_kept, fuses_kept, live_kept, tileLive_kept, otp_kept, rollback_kept, debugFuse_kept, kept_eta, State.issueCore_kept] | rw [apply_ite State.kept])

theorem execAndi_keeps (tile : Fin 512) (g : Issue) (dst : Fin 32) (a : Fin 32) (imm : BitVec 12) (s : State) : OutcomeKeeps s.kept (execAndi tile g dst a imm s) := by
  unfold execAndi
  show State.kept _ = _
  repeat' (first | with_reducible rfl | assumption | rw [foldl_kept] | rw [foldl_fst_kept] | rw [foldl_snd_kept] | with_reducible refine ite_kept _ _ _ _ ?_ ?_ | split | intro _ _ | simp only [State.kept_mk, pending_kept, fuses_kept, live_kept, tileLive_kept, otp_kept, rollback_kept, debugFuse_kept, kept_eta, State.issueCore_kept] | rw [apply_ite State.kept])

theorem execOri_keeps (tile : Fin 512) (g : Issue) (dst : Fin 32) (a : Fin 32) (imm : BitVec 12) (s : State) : OutcomeKeeps s.kept (execOri tile g dst a imm s) := by
  unfold execOri
  show State.kept _ = _
  repeat' (first | with_reducible rfl | assumption | rw [foldl_kept] | rw [foldl_fst_kept] | rw [foldl_snd_kept] | with_reducible refine ite_kept _ _ _ _ ?_ ?_ | split | intro _ _ | simp only [State.kept_mk, pending_kept, fuses_kept, live_kept, tileLive_kept, otp_kept, rollback_kept, debugFuse_kept, kept_eta, State.issueCore_kept] | rw [apply_ite State.kept])

theorem execXori_keeps (tile : Fin 512) (g : Issue) (dst : Fin 32) (a : Fin 32) (imm : BitVec 12) (s : State) : OutcomeKeeps s.kept (execXori tile g dst a imm s) := by
  unfold execXori
  show State.kept _ = _
  repeat' (first | with_reducible rfl | assumption | rw [foldl_kept] | rw [foldl_fst_kept] | rw [foldl_snd_kept] | with_reducible refine ite_kept _ _ _ _ ?_ ?_ | split | intro _ _ | simp only [State.kept_mk, pending_kept, fuses_kept, live_kept, tileLive_kept, otp_kept, rollback_kept, debugFuse_kept, kept_eta, State.issueCore_kept] | rw [apply_ite State.kept])

theorem execShi_keeps (tile : Fin 512) (g : Issue) (dst : Fin 32) (a : Fin 32) (imm : BitVec 12) (s : State) : OutcomeKeeps s.kept (execShi tile g dst a imm s) := by
  unfold execShi
  refine State.issue_kept _ _ _ _ _ fun c s h => ?_
  repeat' (first | with_reducible rfl | trivial | assumption | exact State.jumpTo_kept _ _ _ _ _ _ (by assumption) | refine readGate_kept _ _ _ _ _ ?_ ?_ | refine runVectors_kept _ _ _ _ _ _ _ _ _ _ ?_ | refine State.gsRun_kept _ _ _ _ _ _ _ _ _ ?_ ?_ | refine State.gsDone_kept _ _ _ _ _ _ _ ?_ | exact State.get_kept _ _ _ _ _ _ _ _ _ (by assumption) | refine State.cairnSend_kept _ _ _ _ _ _ _ _ ?_ ?_ | exact State.settleSend_kept _ _ _ _ _ _ _ _ _ _ _ _ _ _ (by assumption) | exact State.emitExtent_kept _ _ _ _ _ _ _ _ (by assumption) | rw [foldl_kept] | split | intro _ _ | simp only [NtRes.keeps_done, NtRes.keeps_jump, NtRes.keeps_raise, NtRes.keeps_wait, NtRes.keeps_hold, NtRes.keeps_stop, NtRes.keeps_left, State.kept_mk, pending_kept, fuses_kept, live_kept, tileLive_kept, otp_kept, rollback_kept, debugFuse_kept, kept_eta, State.issue_kept] | rw [apply_ite State.kept])

theorem execLui_keeps (tile : Fin 512) (g : Issue) (dst : Fin 32) (imm : BitVec 17) (s : State) : OutcomeKeeps s.kept (execLui tile g dst imm s) := by
  unfold execLui
  show State.kept _ = _
  repeat' (first | with_reducible rfl | assumption | rw [foldl_kept] | rw [foldl_fst_kept] | rw [foldl_snd_kept] | with_reducible refine ite_kept _ _ _ _ ?_ ?_ | split | intro _ _ | simp only [State.kept_mk, pending_kept, fuses_kept, live_kept, tileLive_kept, otp_kept, rollback_kept, debugFuse_kept, kept_eta, State.issueCore_kept] | rw [apply_ite State.kept])

theorem execCmpEq_keeps (tile : Fin 512) (g : Issue) (dst : Fin 8) (a : Fin 32) (b : Fin 32) (s : State) : OutcomeKeeps s.kept (execCmpEq tile g dst a b s) := by
  unfold execCmpEq
  show State.kept _ = _
  repeat' (first | with_reducible rfl | assumption | rw [foldl_kept] | rw [foldl_fst_kept] | rw [foldl_snd_kept] | with_reducible refine ite_kept _ _ _ _ ?_ ?_ | split | intro _ _ | simp only [State.kept_mk, pending_kept, fuses_kept, live_kept, tileLive_kept, otp_kept, rollback_kept, debugFuse_kept, kept_eta, State.issueCore_kept] | rw [apply_ite State.kept])

theorem execCmpNe_keeps (tile : Fin 512) (g : Issue) (dst : Fin 8) (a : Fin 32) (b : Fin 32) (s : State) : OutcomeKeeps s.kept (execCmpNe tile g dst a b s) := by
  unfold execCmpNe
  show State.kept _ = _
  repeat' (first | with_reducible rfl | assumption | rw [foldl_kept] | rw [foldl_fst_kept] | rw [foldl_snd_kept] | with_reducible refine ite_kept _ _ _ _ ?_ ?_ | split | intro _ _ | simp only [State.kept_mk, pending_kept, fuses_kept, live_kept, tileLive_kept, otp_kept, rollback_kept, debugFuse_kept, kept_eta, State.issueCore_kept] | rw [apply_ite State.kept])

theorem execCmpLt_keeps (tile : Fin 512) (g : Issue) (dst : Fin 8) (a : Fin 32) (b : Fin 32) (s : State) : OutcomeKeeps s.kept (execCmpLt tile g dst a b s) := by
  unfold execCmpLt
  show State.kept _ = _
  repeat' (first | with_reducible rfl | assumption | rw [foldl_kept] | rw [foldl_fst_kept] | rw [foldl_snd_kept] | with_reducible refine ite_kept _ _ _ _ ?_ ?_ | split | intro _ _ | simp only [State.kept_mk, pending_kept, fuses_kept, live_kept, tileLive_kept, otp_kept, rollback_kept, debugFuse_kept, kept_eta, State.issueCore_kept] | rw [apply_ite State.kept])

theorem execCmpGe_keeps (tile : Fin 512) (g : Issue) (dst : Fin 8) (a : Fin 32) (b : Fin 32) (s : State) : OutcomeKeeps s.kept (execCmpGe tile g dst a b s) := by
  unfold execCmpGe
  show State.kept _ = _
  repeat' (first | with_reducible rfl | assumption | rw [foldl_kept] | rw [foldl_fst_kept] | rw [foldl_snd_kept] | with_reducible refine ite_kept _ _ _ _ ?_ ?_ | split | intro _ _ | simp only [State.kept_mk, pending_kept, fuses_kept, live_kept, tileLive_kept, otp_kept, rollback_kept, debugFuse_kept, kept_eta, State.issueCore_kept] | rw [apply_ite State.kept])

theorem execCmpLtu_keeps (tile : Fin 512) (g : Issue) (dst : Fin 8) (a : Fin 32) (b : Fin 32) (s : State) : OutcomeKeeps s.kept (execCmpLtu tile g dst a b s) := by
  unfold execCmpLtu
  show State.kept _ = _
  repeat' (first | with_reducible rfl | assumption | rw [foldl_kept] | rw [foldl_fst_kept] | rw [foldl_snd_kept] | with_reducible refine ite_kept _ _ _ _ ?_ ?_ | split | intro _ _ | simp only [State.kept_mk, pending_kept, fuses_kept, live_kept, tileLive_kept, otp_kept, rollback_kept, debugFuse_kept, kept_eta, State.issueCore_kept] | rw [apply_ite State.kept])

theorem execCmpGeu_keeps (tile : Fin 512) (g : Issue) (dst : Fin 8) (a : Fin 32) (b : Fin 32) (s : State) : OutcomeKeeps s.kept (execCmpGeu tile g dst a b s) := by
  unfold execCmpGeu
  show State.kept _ = _
  repeat' (first | with_reducible rfl | assumption | rw [foldl_kept] | rw [foldl_fst_kept] | rw [foldl_snd_kept] | with_reducible refine ite_kept _ _ _ _ ?_ ?_ | split | intro _ _ | simp only [State.kept_mk, pending_kept, fuses_kept, live_kept, tileLive_kept, otp_kept, rollback_kept, debugFuse_kept, kept_eta, State.issueCore_kept] | rw [apply_ite State.kept])

theorem execBr_keeps (tile : Fin 512) (g : Issue) (link : Fin 32) (off : BitVec 17) (s : State) : OutcomeKeeps s.kept (execBr tile g link off s) := by
  unfold execBr
  refine State.issue_kept _ _ _ _ _ fun c s h => ?_
  repeat' (first | with_reducible rfl | trivial | assumption | exact State.jumpTo_kept _ _ _ _ _ _ (by assumption) | refine readGate_kept _ _ _ _ _ ?_ ?_ | refine runVectors_kept _ _ _ _ _ _ _ _ _ _ ?_ | refine State.gsRun_kept _ _ _ _ _ _ _ _ _ ?_ ?_ | refine State.gsDone_kept _ _ _ _ _ _ _ ?_ | exact State.get_kept _ _ _ _ _ _ _ _ _ (by assumption) | refine State.cairnSend_kept _ _ _ _ _ _ _ _ ?_ ?_ | exact State.settleSend_kept _ _ _ _ _ _ _ _ _ _ _ _ _ _ (by assumption) | exact State.emitExtent_kept _ _ _ _ _ _ _ _ (by assumption) | rw [foldl_kept] | split | intro _ _ | simp only [NtRes.keeps_done, NtRes.keeps_jump, NtRes.keeps_raise, NtRes.keeps_wait, NtRes.keeps_hold, NtRes.keeps_stop, NtRes.keeps_left, State.kept_mk, pending_kept, fuses_kept, live_kept, tileLive_kept, otp_kept, rollback_kept, debugFuse_kept, kept_eta, State.issue_kept] | rw [apply_ite State.kept])

theorem execJr_keeps (tile : Fin 512) (g : Issue) (dst : Fin 32) (a : Fin 32) (s : State) : OutcomeKeeps s.kept (execJr tile g dst a s) := by
  unfold execJr
  refine State.issue_kept _ _ _ _ _ fun c s h => ?_
  repeat' (first | with_reducible rfl | trivial | assumption | exact State.jumpTo_kept _ _ _ _ _ _ (by assumption) | refine readGate_kept _ _ _ _ _ ?_ ?_ | refine runVectors_kept _ _ _ _ _ _ _ _ _ _ ?_ | refine State.gsRun_kept _ _ _ _ _ _ _ _ _ ?_ ?_ | refine State.gsDone_kept _ _ _ _ _ _ _ ?_ | exact State.get_kept _ _ _ _ _ _ _ _ _ (by assumption) | refine State.cairnSend_kept _ _ _ _ _ _ _ _ ?_ ?_ | exact State.settleSend_kept _ _ _ _ _ _ _ _ _ _ _ _ _ _ (by assumption) | exact State.emitExtent_kept _ _ _ _ _ _ _ _ (by assumption) | rw [foldl_kept] | split | intro _ _ | simp only [NtRes.keeps_done, NtRes.keeps_jump, NtRes.keeps_raise, NtRes.keeps_wait, NtRes.keeps_hold, NtRes.keeps_stop, NtRes.keeps_left, State.kept_mk, pending_kept, fuses_kept, live_kept, tileLive_kept, otp_kept, rollback_kept, debugFuse_kept, kept_eta, State.issue_kept] | rw [apply_ite State.kept])

theorem execPand_keeps (tile : Fin 512) (g : Issue) (dst : Fin 8) (a : Fin 8) (b : Fin 8) (s : State) : OutcomeKeeps s.kept (execPand tile g dst a b s) := by
  unfold execPand
  show State.kept _ = _
  repeat' (first | with_reducible rfl | assumption | rw [foldl_kept] | rw [foldl_fst_kept] | rw [foldl_snd_kept] | with_reducible refine ite_kept _ _ _ _ ?_ ?_ | split | intro _ _ | simp only [State.kept_mk, pending_kept, fuses_kept, live_kept, tileLive_kept, otp_kept, rollback_kept, debugFuse_kept, kept_eta, State.issueCore_kept] | rw [apply_ite State.kept])

theorem execPor_keeps (tile : Fin 512) (g : Issue) (dst : Fin 8) (a : Fin 8) (b : Fin 8) (s : State) : OutcomeKeeps s.kept (execPor tile g dst a b s) := by
  unfold execPor
  show State.kept _ = _
  repeat' (first | with_reducible rfl | assumption | rw [foldl_kept] | rw [foldl_fst_kept] | rw [foldl_snd_kept] | with_reducible refine ite_kept _ _ _ _ ?_ ?_ | split | intro _ _ | simp only [State.kept_mk, pending_kept, fuses_kept, live_kept, tileLive_kept, otp_kept, rollback_kept, debugFuse_kept, kept_eta, State.issueCore_kept] | rw [apply_ite State.kept])

theorem execPxor_keeps (tile : Fin 512) (g : Issue) (dst : Fin 8) (a : Fin 8) (b : Fin 8) (s : State) : OutcomeKeeps s.kept (execPxor tile g dst a b s) := by
  unfold execPxor
  show State.kept _ = _
  repeat' (first | with_reducible rfl | assumption | rw [foldl_kept] | rw [foldl_fst_kept] | rw [foldl_snd_kept] | with_reducible refine ite_kept _ _ _ _ ?_ ?_ | split | intro _ _ | simp only [State.kept_mk, pending_kept, fuses_kept, live_kept, tileLive_kept, otp_kept, rollback_kept, debugFuse_kept, kept_eta, State.issueCore_kept] | rw [apply_ite State.kept])

theorem execPandn_keeps (tile : Fin 512) (g : Issue) (dst : Fin 8) (a : Fin 8) (b : Fin 8) (s : State) : OutcomeKeeps s.kept (execPandn tile g dst a b s) := by
  unfold execPandn
  show State.kept _ = _
  repeat' (first | with_reducible rfl | assumption | rw [foldl_kept] | rw [foldl_fst_kept] | rw [foldl_snd_kept] | with_reducible refine ite_kept _ _ _ _ ?_ ?_ | split | intro _ _ | simp only [State.kept_mk, pending_kept, fuses_kept, live_kept, tileLive_kept, otp_kept, rollback_kept, debugFuse_kept, kept_eta, State.issueCore_kept] | rw [apply_ite State.kept])

theorem execPnot_keeps (tile : Fin 512) (g : Issue) (dst : Fin 8) (a : Fin 8) (s : State) : OutcomeKeeps s.kept (execPnot tile g dst a s) := by
  unfold execPnot
  show State.kept _ = _
  repeat' (first | with_reducible rfl | assumption | rw [foldl_kept] | rw [foldl_fst_kept] | rw [foldl_snd_kept] | with_reducible refine ite_kept _ _ _ _ ?_ ?_ | split | intro _ _ | simp only [State.kept_mk, pending_kept, fuses_kept, live_kept, tileLive_kept, otp_kept, rollback_kept, debugFuse_kept, kept_eta, State.issueCore_kept] | rw [apply_ite State.kept])

theorem execPfrom_keeps (tile : Fin 512) (g : Issue) (dst : Fin 8) (a : Fin 32) (s : State) : OutcomeKeeps s.kept (execPfrom tile g dst a s) := by
  unfold execPfrom
  show State.kept _ = _
  repeat' (first | with_reducible rfl | assumption | rw [foldl_kept] | rw [foldl_fst_kept] | rw [foldl_snd_kept] | with_reducible refine ite_kept _ _ _ _ ?_ ?_ | split | intro _ _ | simp only [State.kept_mk, pending_kept, fuses_kept, live_kept, tileLive_kept, otp_kept, rollback_kept, debugFuse_kept, kept_eta, State.issueCore_kept] | rw [apply_ite State.kept])

theorem execPto_keeps (tile : Fin 512) (g : Issue) (dst : Fin 32) (a : Fin 8) (s : State) : OutcomeKeeps s.kept (execPto tile g dst a s) := by
  unfold execPto
  show State.kept _ = _
  repeat' (first | with_reducible rfl | assumption | rw [foldl_kept] | rw [foldl_fst_kept] | rw [foldl_snd_kept] | with_reducible refine ite_kept _ _ _ _ ?_ ?_ | split | intro _ _ | simp only [State.kept_mk, pending_kept, fuses_kept, live_kept, tileLive_kept, otp_kept, rollback_kept, debugFuse_kept, kept_eta, State.issueCore_kept] | rw [apply_ite State.kept])

theorem execNop_keeps (tile : Fin 512) (g : Issue) (s : State) : OutcomeKeeps s.kept (execNop tile g s) := by
  unfold execNop
  show State.kept _ = _
  repeat' (first | with_reducible rfl | assumption | rw [foldl_kept] | rw [foldl_fst_kept] | rw [foldl_snd_kept] | with_reducible refine ite_kept _ _ _ _ ?_ ?_ | split | intro _ _ | simp only [State.kept_mk, pending_kept, fuses_kept, live_kept, tileLive_kept, otp_kept, rollback_kept, debugFuse_kept, kept_eta, State.issueCore_kept] | rw [apply_ite State.kept])

theorem execJend_keeps (tile : Fin 512) (g : Issue) (s : State) : OutcomeKeeps s.kept (execJend tile g s) := by
  unfold execJend
  refine State.issue_kept _ _ _ _ _ fun c s h => ?_
  repeat' (first | with_reducible rfl | trivial | assumption | exact State.jumpTo_kept _ _ _ _ _ _ (by assumption) | refine readGate_kept _ _ _ _ _ ?_ ?_ | refine runVectors_kept _ _ _ _ _ _ _ _ _ _ ?_ | refine State.gsRun_kept _ _ _ _ _ _ _ _ _ ?_ ?_ | refine State.gsDone_kept _ _ _ _ _ _ _ ?_ | exact State.get_kept _ _ _ _ _ _ _ _ _ (by assumption) | refine State.cairnSend_kept _ _ _ _ _ _ _ _ ?_ ?_ | exact State.settleSend_kept _ _ _ _ _ _ _ _ _ _ _ _ _ _ (by assumption) | exact State.emitExtent_kept _ _ _ _ _ _ _ _ (by assumption) | rw [foldl_kept] | split | intro _ _ | simp only [NtRes.keeps_done, NtRes.keeps_jump, NtRes.keeps_raise, NtRes.keeps_wait, NtRes.keeps_hold, NtRes.keeps_stop, NtRes.keeps_left, State.kept_mk, pending_kept, fuses_kept, live_kept, tileLive_kept, otp_kept, rollback_kept, debugFuse_kept, kept_eta, State.issue_kept, State.closeDesc_kept, State.inject_kept, State.tileEnded_kept] | rw [apply_ite State.kept])

theorem execFenceEng_keeps (tile : Fin 512) (g : Issue) (s : State) : OutcomeKeeps s.kept (execFenceEng tile g s) := by
  unfold execFenceEng
  refine State.issue_kept _ _ _ _ _ fun c s h => ?_
  repeat' (first | with_reducible rfl | trivial | assumption | exact State.jumpTo_kept _ _ _ _ _ _ (by assumption) | refine readGate_kept _ _ _ _ _ ?_ ?_ | refine runVectors_kept _ _ _ _ _ _ _ _ _ _ ?_ | refine State.gsRun_kept _ _ _ _ _ _ _ _ _ ?_ ?_ | refine State.gsDone_kept _ _ _ _ _ _ _ ?_ | exact State.get_kept _ _ _ _ _ _ _ _ _ (by assumption) | refine State.cairnSend_kept _ _ _ _ _ _ _ _ ?_ ?_ | exact State.settleSend_kept _ _ _ _ _ _ _ _ _ _ _ _ _ _ (by assumption) | exact State.emitExtent_kept _ _ _ _ _ _ _ _ (by assumption) | rw [foldl_kept] | split | intro _ _ | simp only [NtRes.keeps_done, NtRes.keeps_jump, NtRes.keeps_raise, NtRes.keeps_wait, NtRes.keeps_hold, NtRes.keeps_stop, NtRes.keeps_left, State.kept_mk, pending_kept, fuses_kept, live_kept, tileLive_kept, otp_kept, rollback_kept, debugFuse_kept, kept_eta, State.issue_kept] | rw [apply_ite State.kept])

theorem execLd_keeps (tile : Fin 512) (g : Issue) (dst : Fin 32) (xa : Fin 16) (off : BitVec 13) (hits : List EccHit) (s : State) : OutcomeKeeps s.kept (execLd tile g dst xa off hits s) := by
  unfold execLd
  refine State.issue_kept _ _ _ _ _ fun c s h => ?_
  repeat' (first | with_reducible rfl | trivial | assumption | exact State.jumpTo_kept _ _ _ _ _ _ (by assumption) | refine readGate_kept _ _ _ _ _ ?_ ?_ | refine runVectors_kept _ _ _ _ _ _ _ _ _ _ ?_ | refine State.gsRun_kept _ _ _ _ _ _ _ _ _ ?_ ?_ | refine State.gsDone_kept _ _ _ _ _ _ _ ?_ | exact State.get_kept _ _ _ _ _ _ _ _ _ (by assumption) | refine State.cairnSend_kept _ _ _ _ _ _ _ _ ?_ ?_ | exact State.settleSend_kept _ _ _ _ _ _ _ _ _ _ _ _ _ _ (by assumption) | exact State.emitExtent_kept _ _ _ _ _ _ _ _ (by assumption) | rw [foldl_kept] | split | intro _ _ | simp only [NtRes.keeps_done, NtRes.keeps_jump, NtRes.keeps_raise, NtRes.keeps_wait, NtRes.keeps_hold, NtRes.keeps_stop, NtRes.keeps_left, State.kept_mk, pending_kept, fuses_kept, live_kept, tileLive_kept, otp_kept, rollback_kept, debugFuse_kept, kept_eta, State.issue_kept, State.applyHits_kept] | rw [apply_ite State.kept])

theorem execSt_keeps (tile : Fin 512) (g : Issue) (src : Fin 32) (xa : Fin 16) (off : BitVec 13) (s : State) : OutcomeKeeps s.kept (execSt tile g src xa off s) := by
  unfold execSt
  refine State.issue_kept _ _ _ _ _ fun c s h => ?_
  repeat' (first | with_reducible rfl | trivial | assumption | exact State.jumpTo_kept _ _ _ _ _ _ (by assumption) | refine readGate_kept _ _ _ _ _ ?_ ?_ | refine runVectors_kept _ _ _ _ _ _ _ _ _ _ ?_ | refine State.gsRun_kept _ _ _ _ _ _ _ _ _ ?_ ?_ | refine State.gsDone_kept _ _ _ _ _ _ _ ?_ | exact State.get_kept _ _ _ _ _ _ _ _ _ (by assumption) | refine State.cairnSend_kept _ _ _ _ _ _ _ _ ?_ ?_ | exact State.settleSend_kept _ _ _ _ _ _ _ _ _ _ _ _ _ _ (by assumption) | exact State.emitExtent_kept _ _ _ _ _ _ _ _ (by assumption) | rw [foldl_kept] | split | intro _ _ | simp only [NtRes.keeps_done, NtRes.keeps_jump, NtRes.keeps_raise, NtRes.keeps_wait, NtRes.keeps_hold, NtRes.keeps_stop, NtRes.keeps_left, State.kept_mk, pending_kept, fuses_kept, live_kept, tileLive_kept, otp_kept, rollback_kept, debugFuse_kept, kept_eta, State.issue_kept, State.abWrite_kept] | rw [apply_ite State.kept])

theorem execAset_keeps (tile : Fin 512) (g : Issue) (dst : Fin 16) (a : Fin 32) (b : Fin 32) (s : State) : OutcomeKeeps s.kept (execAset tile g dst a b s) := by
  unfold execAset
  show State.kept _ = _
  repeat' (first | with_reducible rfl | assumption | rw [foldl_kept] | rw [foldl_fst_kept] | rw [foldl_snd_kept] | with_reducible refine ite_kept _ _ _ _ ?_ ?_ | split | intro _ _ | simp only [State.kept_mk, pending_kept, fuses_kept, live_kept, tileLive_kept, otp_kept, rollback_kept, debugFuse_kept, kept_eta, State.issueCore_kept] | rw [apply_ite State.kept])

theorem execAmov_keeps (tile : Fin 512) (g : Issue) (dst : Fin 16) (a : Fin 16) (s : State) : OutcomeKeeps s.kept (execAmov tile g dst a s) := by
  unfold execAmov
  show State.kept _ = _
  repeat' (first | with_reducible rfl | assumption | rw [foldl_kept] | rw [foldl_fst_kept] | rw [foldl_snd_kept] | with_reducible refine ite_kept _ _ _ _ ?_ ?_ | split | intro _ _ | simp only [State.kept_mk, pending_kept, fuses_kept, live_kept, tileLive_kept, otp_kept, rollback_kept, debugFuse_kept, kept_eta, State.issueCore_kept] | rw [apply_ite State.kept])

theorem execAadd_keeps (tile : Fin 512) (g : Issue) (dst : Fin 16) (a : Fin 16) (b : Fin 32) (s : State) : OutcomeKeeps s.kept (execAadd tile g dst a b s) := by
  unfold execAadd
  show State.kept _ = _
  repeat' (first | with_reducible rfl | assumption | rw [foldl_kept] | rw [foldl_fst_kept] | rw [foldl_snd_kept] | with_reducible refine ite_kept _ _ _ _ ?_ ?_ | split | intro _ _ | simp only [State.kept_mk, pending_kept, fuses_kept, live_kept, tileLive_kept, otp_kept, rollback_kept, debugFuse_kept, kept_eta, State.issueCore_kept] | rw [apply_ite State.kept])

theorem execAlen_keeps (tile : Fin 512) (g : Issue) (dst : Fin 16) (a : Fin 16) (b : Fin 32) (s : State) : OutcomeKeeps s.kept (execAlen tile g dst a b s) := by
  unfold execAlen
  show State.kept _ = _
  repeat' (first | with_reducible rfl | assumption | rw [foldl_kept] | rw [foldl_fst_kept] | rw [foldl_snd_kept] | with_reducible refine ite_kept _ _ _ _ ?_ ?_ | split | intro _ _ | simp only [State.kept_mk, pending_kept, fuses_kept, live_kept, tileLive_kept, otp_kept, rollback_kept, debugFuse_kept, kept_eta, State.issueCore_kept] | rw [apply_ite State.kept])

theorem execArdlo_keeps (tile : Fin 512) (g : Issue) (dst : Fin 32) (a : Fin 16) (s : State) : OutcomeKeeps s.kept (execArdlo tile g dst a s) := by
  unfold execArdlo
  show State.kept _ = _
  repeat' (first | with_reducible rfl | assumption | rw [foldl_kept] | rw [foldl_fst_kept] | rw [foldl_snd_kept] | with_reducible refine ite_kept _ _ _ _ ?_ ?_ | split | intro _ _ | simp only [State.kept_mk, pending_kept, fuses_kept, live_kept, tileLive_kept, otp_kept, rollback_kept, debugFuse_kept, kept_eta, State.issueCore_kept] | rw [apply_ite State.kept])

theorem execArdhi_keeps (tile : Fin 512) (g : Issue) (dst : Fin 32) (a : Fin 16) (s : State) : OutcomeKeeps s.kept (execArdhi tile g dst a s) := by
  unfold execArdhi
  show State.kept _ = _
  repeat' (first | with_reducible rfl | assumption | rw [foldl_kept] | rw [foldl_fst_kept] | rw [foldl_snd_kept] | with_reducible refine ite_kept _ _ _ _ ?_ ?_ | split | intro _ _ | simp only [State.kept_mk, pending_kept, fuses_kept, live_kept, tileLive_kept, otp_kept, rollback_kept, debugFuse_kept, kept_eta, State.issueCore_kept] | rw [apply_ite State.kept])

theorem execStlo_keeps (tile : Fin 512) (g : Issue) (dst : Fin 32) (s : State) : OutcomeKeeps s.kept (execStlo tile g dst s) := by
  unfold execStlo
  show State.kept _ = _
  repeat' (first | with_reducible rfl | assumption | rw [foldl_kept] | rw [foldl_fst_kept] | rw [foldl_snd_kept] | with_reducible refine ite_kept _ _ _ _ ?_ ?_ | split | intro _ _ | simp only [State.kept_mk, pending_kept, fuses_kept, live_kept, tileLive_kept, otp_kept, rollback_kept, debugFuse_kept, kept_eta, State.issueCore_kept] | rw [apply_ite State.kept])

theorem execSthi_keeps (tile : Fin 512) (g : Issue) (dst : Fin 32) (s : State) : OutcomeKeeps s.kept (execSthi tile g dst s) := by
  unfold execSthi
  show State.kept _ = _
  repeat' (first | with_reducible rfl | assumption | rw [foldl_kept] | rw [foldl_fst_kept] | rw [foldl_snd_kept] | with_reducible refine ite_kept _ _ _ _ ?_ ?_ | split | intro _ _ | simp only [State.kept_mk, pending_kept, fuses_kept, live_kept, tileLive_kept, otp_kept, rollback_kept, debugFuse_kept, kept_eta, State.issueCore_kept] | rw [apply_ite State.kept])

theorem execStjob_keeps (tile : Fin 512) (g : Issue) (dst : Fin 32) (s : State) : OutcomeKeeps s.kept (execStjob tile g dst s) := by
  unfold execStjob
  show State.kept _ = _
  repeat' (first | with_reducible rfl | assumption | rw [foldl_kept] | rw [foldl_fst_kept] | rw [foldl_snd_kept] | with_reducible refine ite_kept _ _ _ _ ?_ ?_ | split | intro _ _ | simp only [State.kept_mk, pending_kept, fuses_kept, live_kept, tileLive_kept, otp_kept, rollback_kept, debugFuse_kept, kept_eta, State.issueCore_kept] | rw [apply_ite State.kept])

theorem execPsel_keeps (tile : Fin 512) (g : Issue) (a : Fin 32) (s : State) : OutcomeKeeps s.kept (execPsel tile g a s) := by
  unfold execPsel
  refine State.issue_kept _ _ _ _ _ fun c s h => ?_
  repeat' (first | with_reducible rfl | trivial | assumption | exact State.jumpTo_kept _ _ _ _ _ _ (by assumption) | refine readGate_kept _ _ _ _ _ ?_ ?_ | refine runVectors_kept _ _ _ _ _ _ _ _ _ _ ?_ | refine State.gsRun_kept _ _ _ _ _ _ _ _ _ ?_ ?_ | refine State.gsDone_kept _ _ _ _ _ _ _ ?_ | exact State.get_kept _ _ _ _ _ _ _ _ _ (by assumption) | refine State.cairnSend_kept _ _ _ _ _ _ _ _ ?_ ?_ | exact State.settleSend_kept _ _ _ _ _ _ _ _ _ _ _ _ _ _ (by assumption) | exact State.emitExtent_kept _ _ _ _ _ _ _ _ (by assumption) | rw [foldl_kept] | split | intro _ _ | simp only [NtRes.keeps_done, NtRes.keeps_jump, NtRes.keeps_raise, NtRes.keeps_wait, NtRes.keeps_hold, NtRes.keeps_stop, NtRes.keeps_left, State.kept_mk, pending_kept, fuses_kept, live_kept, tileLive_kept, otp_kept, rollback_kept, debugFuse_kept, kept_eta, State.issue_kept] | rw [apply_ite State.kept])

theorem execPget_keeps (tile : Fin 512) (g : Issue) (dst : Fin 32) (s : State) : OutcomeKeeps s.kept (execPget tile g dst s) := by
  unfold execPget
  show State.kept _ = _
  repeat' (first | with_reducible rfl | assumption | rw [foldl_kept] | rw [foldl_fst_kept] | rw [foldl_snd_kept] | with_reducible refine ite_kept _ _ _ _ ?_ ?_ | split | intro _ _ | simp only [State.kept_mk, pending_kept, fuses_kept, live_kept, tileLive_kept, otp_kept, rollback_kept, debugFuse_kept, kept_eta, State.issueCore_kept] | rw [apply_ite State.kept])

theorem execEget_keeps (tile : Fin 512) (g : Issue) (dst : Fin 32) (s : State) : OutcomeKeeps s.kept (execEget tile g dst s) := by
  unfold execEget
  show State.kept _ = _
  repeat' (first | with_reducible rfl | assumption | rw [foldl_kept] | rw [foldl_fst_kept] | rw [foldl_snd_kept] | with_reducible refine ite_kept _ _ _ _ ?_ ?_ | split | intro _ _ | simp only [State.kept_mk, pending_kept, fuses_kept, live_kept, tileLive_kept, otp_kept, rollback_kept, debugFuse_kept, kept_eta, State.issueCore_kept] | rw [apply_ite State.kept])

theorem execIklo_keeps (tile : Fin 512) (g : Issue) (dst : Fin 32) (d : Fin 16) (s : State) : OutcomeKeeps s.kept (execIklo tile g dst d s) := by
  unfold execIklo
  show State.kept _ = _
  repeat' (first | with_reducible rfl | assumption | rw [foldl_kept] | rw [foldl_fst_kept] | rw [foldl_snd_kept] | with_reducible refine ite_kept _ _ _ _ ?_ ?_ | split | intro _ _ | simp only [State.kept_mk, pending_kept, fuses_kept, live_kept, tileLive_kept, otp_kept, rollback_kept, debugFuse_kept, kept_eta, State.issueCore_kept] | rw [apply_ite State.kept])

theorem execIkhi_keeps (tile : Fin 512) (g : Issue) (dst : Fin 32) (d : Fin 16) (s : State) : OutcomeKeeps s.kept (execIkhi tile g dst d s) := by
  unfold execIkhi
  show State.kept _ = _
  repeat' (first | with_reducible rfl | assumption | rw [foldl_kept] | rw [foldl_fst_kept] | rw [foldl_snd_kept] | with_reducible refine ite_kept _ _ _ _ ?_ ?_ | split | intro _ _ | simp only [State.kept_mk, pending_kept, fuses_kept, live_kept, tileLive_kept, otp_kept, rollback_kept, debugFuse_kept, kept_eta, State.issueCore_kept] | rw [apply_ite State.kept])

theorem execIkseq_keeps (tile : Fin 512) (g : Issue) (dst : Fin 32) (d : Fin 16) (s : State) : OutcomeKeeps s.kept (execIkseq tile g dst d s) := by
  unfold execIkseq
  show State.kept _ = _
  repeat' (first | with_reducible rfl | assumption | rw [foldl_kept] | rw [foldl_fst_kept] | rw [foldl_snd_kept] | with_reducible refine ite_kept _ _ _ _ ?_ ?_ | split | intro _ _ | simp only [State.kept_mk, pending_kept, fuses_kept, live_kept, tileLive_kept, otp_kept, rollback_kept, debugFuse_kept, kept_eta, State.issueCore_kept] | rw [apply_ite State.kept])

theorem execBankId_keeps (tile : Fin 512) (g : Issue) (dst : Fin 32) (s : State) : OutcomeKeeps s.kept (execBankId tile g dst s) := by
  unfold execBankId
  show State.kept _ = _
  repeat' (first | with_reducible rfl | assumption | rw [foldl_kept] | rw [foldl_fst_kept] | rw [foldl_snd_kept] | with_reducible refine ite_kept _ _ _ _ ?_ ?_ | split | intro _ _ | simp only [State.kept_mk, pending_kept, fuses_kept, live_kept, tileLive_kept, otp_kept, rollback_kept, debugFuse_kept, kept_eta, State.issueCore_kept] | rw [apply_ite State.kept])

theorem execBankOld_keeps (tile : Fin 512) (g : Issue) (dst : Fin 8) (s : State) : OutcomeKeeps s.kept (execBankOld tile g dst s) := by
  unfold execBankOld
  show State.kept _ = _
  repeat' (first | with_reducible rfl | assumption | rw [foldl_kept] | rw [foldl_fst_kept] | rw [foldl_snd_kept] | with_reducible refine ite_kept _ _ _ _ ?_ ?_ | split | intro _ _ | simp only [State.kept_mk, pending_kept, fuses_kept, live_kept, tileLive_kept, otp_kept, rollback_kept, debugFuse_kept, kept_eta, State.issueCore_kept] | rw [apply_ite State.kept])

theorem State.issueVec_kept (s : State) (t : Fin 512) (g : Issue) (f : Core → Core) : (State.issueVec s t g f).kept = s.kept := by
  unfold State.issueVec
  refine State.issue_kept _ _ _ _ _ fun c s h => ?_
  repeat' (first | with_reducible rfl | trivial | assumption | exact State.jumpTo_kept _ _ _ _ _ _ (by assumption) | refine readGate_kept _ _ _ _ _ ?_ ?_ | refine runVectors_kept _ _ _ _ _ _ _ _ _ _ ?_ | refine State.gsRun_kept _ _ _ _ _ _ _ _ _ ?_ ?_ | refine State.gsDone_kept _ _ _ _ _ _ _ ?_ | exact State.get_kept _ _ _ _ _ _ _ _ _ (by assumption) | refine State.cairnSend_kept _ _ _ _ _ _ _ _ ?_ ?_ | exact State.settleSend_kept _ _ _ _ _ _ _ _ _ _ _ _ _ _ (by assumption) | exact State.emitExtent_kept _ _ _ _ _ _ _ _ (by assumption) | rw [foldl_kept] | split | intro _ _ | simp only [NtRes.keeps_done, NtRes.keeps_jump, NtRes.keeps_raise, NtRes.keeps_wait, NtRes.keeps_hold, NtRes.keeps_stop, NtRes.keeps_left, State.kept_mk, pending_kept, fuses_kept, live_kept, tileLive_kept, otp_kept, rollback_kept, debugFuse_kept, kept_eta, State.issue_kept, State.fly_kept] | rw [apply_ite State.kept])

theorem State.vload_kept (s : State) (t : Fin 512) (g : Issue) (vx : Fin 16) (xa : Fin 16) (r : Fin 32) (w : Nat) (hits : List EccHit) : (State.vload s t g vx xa r w hits).kept = s.kept := by
  unfold State.vload
  refine State.issue_kept _ _ _ _ _ fun c s h => ?_
  repeat' (first | with_reducible rfl | trivial | assumption | exact State.jumpTo_kept _ _ _ _ _ _ (by assumption) | refine readGate_kept _ _ _ _ _ ?_ ?_ | refine runVectors_kept _ _ _ _ _ _ _ _ _ _ ?_ | refine State.gsRun_kept _ _ _ _ _ _ _ _ _ ?_ ?_ | refine State.gsDone_kept _ _ _ _ _ _ _ ?_ | exact State.get_kept _ _ _ _ _ _ _ _ _ (by assumption) | refine State.cairnSend_kept _ _ _ _ _ _ _ _ ?_ ?_ | exact State.settleSend_kept _ _ _ _ _ _ _ _ _ _ _ _ _ _ (by assumption) | exact State.emitExtent_kept _ _ _ _ _ _ _ _ (by assumption) | rw [foldl_kept] | split | intro _ _ | simp only [NtRes.keeps_done, NtRes.keeps_jump, NtRes.keeps_raise, NtRes.keeps_wait, NtRes.keeps_hold, NtRes.keeps_stop, NtRes.keeps_left, State.kept_mk, pending_kept, fuses_kept, live_kept, tileLive_kept, otp_kept, rollback_kept, debugFuse_kept, kept_eta, State.issue_kept, State.applyHits_kept, State.fly_kept] | rw [apply_ite State.kept])

theorem State.vstore_kept (s : State) (t : Fin 512) (g : Issue) (vx : Fin 16) (xa : Fin 16) (r : Fin 32) (w : Nat) : (State.vstore s t g vx xa r w).kept = s.kept := by
  unfold State.vstore
  refine State.issue_kept _ _ _ _ _ fun c s h => ?_
  repeat' (first | with_reducible rfl | trivial | assumption | exact State.jumpTo_kept _ _ _ _ _ _ (by assumption) | refine readGate_kept _ _ _ _ _ ?_ ?_ | refine runVectors_kept _ _ _ _ _ _ _ _ _ _ ?_ | refine State.gsRun_kept _ _ _ _ _ _ _ _ _ ?_ ?_ | refine State.gsDone_kept _ _ _ _ _ _ _ ?_ | exact State.get_kept _ _ _ _ _ _ _ _ _ (by assumption) | refine State.cairnSend_kept _ _ _ _ _ _ _ _ ?_ ?_ | exact State.settleSend_kept _ _ _ _ _ _ _ _ _ _ _ _ _ _ (by assumption) | exact State.emitExtent_kept _ _ _ _ _ _ _ _ (by assumption) | rw [foldl_kept] | split | intro _ _ | simp only [NtRes.keeps_done, NtRes.keeps_jump, NtRes.keeps_raise, NtRes.keeps_wait, NtRes.keeps_hold, NtRes.keeps_stop, NtRes.keeps_left, State.kept_mk, pending_kept, fuses_kept, live_kept, tileLive_kept, otp_kept, rollback_kept, debugFuse_kept, kept_eta, State.issue_kept, State.fly_kept, State.abWrite_kept] | rw [apply_ite State.kept])

theorem execFadd_keeps (tile : Fin 512) (g : Issue) (dst : Fin 16) (a : Fin 16) (b : Fin 16) (s : State) : OutcomeKeeps s.kept (execFadd tile g dst a b s) := by
  unfold execFadd
  show State.kept _ = _
  repeat' (first | with_reducible rfl | assumption | rw [foldl_kept] | rw [foldl_fst_kept] | rw [foldl_snd_kept] | with_reducible refine ite_kept _ _ _ _ ?_ ?_ | split | intro _ _ | simp only [State.kept_mk, pending_kept, fuses_kept, live_kept, tileLive_kept, otp_kept, rollback_kept, debugFuse_kept, kept_eta, State.issueVec_kept] | rw [apply_ite State.kept])

theorem execFsub_keeps (tile : Fin 512) (g : Issue) (dst : Fin 16) (a : Fin 16) (b : Fin 16) (s : State) : OutcomeKeeps s.kept (execFsub tile g dst a b s) := by
  unfold execFsub
  show State.kept _ = _
  repeat' (first | with_reducible rfl | assumption | rw [foldl_kept] | rw [foldl_fst_kept] | rw [foldl_snd_kept] | with_reducible refine ite_kept _ _ _ _ ?_ ?_ | split | intro _ _ | simp only [State.kept_mk, pending_kept, fuses_kept, live_kept, tileLive_kept, otp_kept, rollback_kept, debugFuse_kept, kept_eta, State.issueVec_kept] | rw [apply_ite State.kept])

theorem execFmul_keeps (tile : Fin 512) (g : Issue) (dst : Fin 16) (a : Fin 16) (b : Fin 16) (s : State) : OutcomeKeeps s.kept (execFmul tile g dst a b s) := by
  unfold execFmul
  show State.kept _ = _
  repeat' (first | with_reducible rfl | assumption | rw [foldl_kept] | rw [foldl_fst_kept] | rw [foldl_snd_kept] | with_reducible refine ite_kept _ _ _ _ ?_ ?_ | split | intro _ _ | simp only [State.kept_mk, pending_kept, fuses_kept, live_kept, tileLive_kept, otp_kept, rollback_kept, debugFuse_kept, kept_eta, State.issueVec_kept] | rw [apply_ite State.kept])

theorem execFma_keeps (tile : Fin 512) (g : Issue) (dst : Fin 16) (a : Fin 16) (b : Fin 16) (s : State) : OutcomeKeeps s.kept (execFma tile g dst a b s) := by
  unfold execFma
  show State.kept _ = _
  repeat' (first | with_reducible rfl | assumption | rw [foldl_kept] | rw [foldl_fst_kept] | rw [foldl_snd_kept] | with_reducible refine ite_kept _ _ _ _ ?_ ?_ | split | intro _ _ | simp only [State.kept_mk, pending_kept, fuses_kept, live_kept, tileLive_kept, otp_kept, rollback_kept, debugFuse_kept, kept_eta, State.issueVec_kept] | rw [apply_ite State.kept])

theorem execFmin_keeps (tile : Fin 512) (g : Issue) (dst : Fin 16) (a : Fin 16) (b : Fin 16) (s : State) : OutcomeKeeps s.kept (execFmin tile g dst a b s) := by
  unfold execFmin
  show State.kept _ = _
  repeat' (first | with_reducible rfl | assumption | rw [foldl_kept] | rw [foldl_fst_kept] | rw [foldl_snd_kept] | with_reducible refine ite_kept _ _ _ _ ?_ ?_ | split | intro _ _ | simp only [State.kept_mk, pending_kept, fuses_kept, live_kept, tileLive_kept, otp_kept, rollback_kept, debugFuse_kept, kept_eta, State.issueVec_kept] | rw [apply_ite State.kept])

theorem execFmax_keeps (tile : Fin 512) (g : Issue) (dst : Fin 16) (a : Fin 16) (b : Fin 16) (s : State) : OutcomeKeeps s.kept (execFmax tile g dst a b s) := by
  unfold execFmax
  show State.kept _ = _
  repeat' (first | with_reducible rfl | assumption | rw [foldl_kept] | rw [foldl_fst_kept] | rw [foldl_snd_kept] | with_reducible refine ite_kept _ _ _ _ ?_ ?_ | split | intro _ _ | simp only [State.kept_mk, pending_kept, fuses_kept, live_kept, tileLive_kept, otp_kept, rollback_kept, debugFuse_kept, kept_eta, State.issueVec_kept] | rw [apply_ite State.kept])

theorem execFabs_keeps (tile : Fin 512) (g : Issue) (dst : Fin 16) (a : Fin 16) (s : State) : OutcomeKeeps s.kept (execFabs tile g dst a s) := by
  unfold execFabs
  show State.kept _ = _
  repeat' (first | with_reducible rfl | assumption | rw [foldl_kept] | rw [foldl_fst_kept] | rw [foldl_snd_kept] | with_reducible refine ite_kept _ _ _ _ ?_ ?_ | split | intro _ _ | simp only [State.kept_mk, pending_kept, fuses_kept, live_kept, tileLive_kept, otp_kept, rollback_kept, debugFuse_kept, kept_eta, State.issueVec_kept] | rw [apply_ite State.kept])

theorem execFneg_keeps (tile : Fin 512) (g : Issue) (dst : Fin 16) (a : Fin 16) (s : State) : OutcomeKeeps s.kept (execFneg tile g dst a s) := by
  unfold execFneg
  show State.kept _ = _
  repeat' (first | with_reducible rfl | assumption | rw [foldl_kept] | rw [foldl_fst_kept] | rw [foldl_snd_kept] | with_reducible refine ite_kept _ _ _ _ ?_ ?_ | split | intro _ _ | simp only [State.kept_mk, pending_kept, fuses_kept, live_kept, tileLive_kept, otp_kept, rollback_kept, debugFuse_kept, kept_eta, State.issueVec_kept] | rw [apply_ite State.kept])

theorem execCvtF32F16_keeps (tile : Fin 512) (g : Issue) (dst : Fin 16) (a : Fin 16) (s : State) : OutcomeKeeps s.kept (execCvtF32F16 tile g dst a s) := by
  unfold execCvtF32F16
  show State.kept _ = _
  repeat' (first | with_reducible rfl | assumption | rw [foldl_kept] | rw [foldl_fst_kept] | rw [foldl_snd_kept] | with_reducible refine ite_kept _ _ _ _ ?_ ?_ | split | intro _ _ | simp only [State.kept_mk, pending_kept, fuses_kept, live_kept, tileLive_kept, otp_kept, rollback_kept, debugFuse_kept, kept_eta, State.issueVec_kept] | rw [apply_ite State.kept])

theorem execCvtF16F32_keeps (tile : Fin 512) (g : Issue) (dst : Fin 16) (a : Fin 16) (s : State) : OutcomeKeeps s.kept (execCvtF16F32 tile g dst a s) := by
  unfold execCvtF16F32
  show State.kept _ = _
  repeat' (first | with_reducible rfl | assumption | rw [foldl_kept] | rw [foldl_fst_kept] | rw [foldl_snd_kept] | with_reducible refine ite_kept _ _ _ _ ?_ ?_ | split | intro _ _ | simp only [State.kept_mk, pending_kept, fuses_kept, live_kept, tileLive_kept, otp_kept, rollback_kept, debugFuse_kept, kept_eta, State.issueVec_kept] | rw [apply_ite State.kept])

theorem execCvtF32I32_keeps (tile : Fin 512) (g : Issue) (dst : Fin 16) (a : Fin 16) (s : State) : OutcomeKeeps s.kept (execCvtF32I32 tile g dst a s) := by
  unfold execCvtF32I32
  show State.kept _ = _
  repeat' (first | with_reducible rfl | assumption | rw [foldl_kept] | rw [foldl_fst_kept] | rw [foldl_snd_kept] | with_reducible refine ite_kept _ _ _ _ ?_ ?_ | split | intro _ _ | simp only [State.kept_mk, pending_kept, fuses_kept, live_kept, tileLive_kept, otp_kept, rollback_kept, debugFuse_kept, kept_eta, State.issueVec_kept] | rw [apply_ite State.kept])

theorem execCvtI32F32_keeps (tile : Fin 512) (g : Issue) (dst : Fin 16) (a : Fin 16) (s : State) : OutcomeKeeps s.kept (execCvtI32F32 tile g dst a s) := by
  unfold execCvtI32F32
  show State.kept _ = _
  repeat' (first | with_reducible rfl | assumption | rw [foldl_kept] | rw [foldl_fst_kept] | rw [foldl_snd_kept] | with_reducible refine ite_kept _ _ _ _ ?_ ?_ | split | intro _ _ | simp only [State.kept_mk, pending_kept, fuses_kept, live_kept, tileLive_kept, otp_kept, rollback_kept, debugFuse_kept, kept_eta, State.issueVec_kept] | rw [apply_ite State.kept])

theorem execIadd_keeps (tile : Fin 512) (g : Issue) (dst : Fin 16) (a : Fin 16) (b : Fin 16) (s : State) : OutcomeKeeps s.kept (execIadd tile g dst a b s) := by
  unfold execIadd
  show State.kept _ = _
  repeat' (first | with_reducible rfl | assumption | rw [foldl_kept] | rw [foldl_fst_kept] | rw [foldl_snd_kept] | with_reducible refine ite_kept _ _ _ _ ?_ ?_ | split | intro _ _ | simp only [State.kept_mk, pending_kept, fuses_kept, live_kept, tileLive_kept, otp_kept, rollback_kept, debugFuse_kept, kept_eta, State.issueVec_kept] | rw [apply_ite State.kept])

theorem execIsub_keeps (tile : Fin 512) (g : Issue) (dst : Fin 16) (a : Fin 16) (b : Fin 16) (s : State) : OutcomeKeeps s.kept (execIsub tile g dst a b s) := by
  unfold execIsub
  show State.kept _ = _
  repeat' (first | with_reducible rfl | assumption | rw [foldl_kept] | rw [foldl_fst_kept] | rw [foldl_snd_kept] | with_reducible refine ite_kept _ _ _ _ ?_ ?_ | split | intro _ _ | simp only [State.kept_mk, pending_kept, fuses_kept, live_kept, tileLive_kept, otp_kept, rollback_kept, debugFuse_kept, kept_eta, State.issueVec_kept] | rw [apply_ite State.kept])

theorem execImul_keeps (tile : Fin 512) (g : Issue) (dst : Fin 16) (a : Fin 16) (b : Fin 16) (s : State) : OutcomeKeeps s.kept (execImul tile g dst a b s) := by
  unfold execImul
  show State.kept _ = _
  repeat' (first | with_reducible rfl | assumption | rw [foldl_kept] | rw [foldl_fst_kept] | rw [foldl_snd_kept] | with_reducible refine ite_kept _ _ _ _ ?_ ?_ | split | intro _ _ | simp only [State.kept_mk, pending_kept, fuses_kept, live_kept, tileLive_kept, otp_kept, rollback_kept, debugFuse_kept, kept_eta, State.issueVec_kept] | rw [apply_ite State.kept])

theorem execIadds_keeps (tile : Fin 512) (g : Issue) (dst : Fin 16) (a : Fin 16) (b : Fin 16) (s : State) : OutcomeKeeps s.kept (execIadds tile g dst a b s) := by
  unfold execIadds
  show State.kept _ = _
  repeat' (first | with_reducible rfl | assumption | rw [foldl_kept] | rw [foldl_fst_kept] | rw [foldl_snd_kept] | with_reducible refine ite_kept _ _ _ _ ?_ ?_ | split | intro _ _ | simp only [State.kept_mk, pending_kept, fuses_kept, live_kept, tileLive_kept, otp_kept, rollback_kept, debugFuse_kept, kept_eta, State.issueVec_kept] | rw [apply_ite State.kept])

theorem execIsubs_keeps (tile : Fin 512) (g : Issue) (dst : Fin 16) (a : Fin 16) (b : Fin 16) (s : State) : OutcomeKeeps s.kept (execIsubs tile g dst a b s) := by
  unfold execIsubs
  show State.kept _ = _
  repeat' (first | with_reducible rfl | assumption | rw [foldl_kept] | rw [foldl_fst_kept] | rw [foldl_snd_kept] | with_reducible refine ite_kept _ _ _ _ ?_ ?_ | split | intro _ _ | simp only [State.kept_mk, pending_kept, fuses_kept, live_kept, tileLive_kept, otp_kept, rollback_kept, debugFuse_kept, kept_eta, State.issueVec_kept] | rw [apply_ite State.kept])

theorem execImin_keeps (tile : Fin 512) (g : Issue) (dst : Fin 16) (a : Fin 16) (b : Fin 16) (s : State) : OutcomeKeeps s.kept (execImin tile g dst a b s) := by
  unfold execImin
  show State.kept _ = _
  repeat' (first | with_reducible rfl | assumption | rw [foldl_kept] | rw [foldl_fst_kept] | rw [foldl_snd_kept] | with_reducible refine ite_kept _ _ _ _ ?_ ?_ | split | intro _ _ | simp only [State.kept_mk, pending_kept, fuses_kept, live_kept, tileLive_kept, otp_kept, rollback_kept, debugFuse_kept, kept_eta, State.issueVec_kept] | rw [apply_ite State.kept])

theorem execImax_keeps (tile : Fin 512) (g : Issue) (dst : Fin 16) (a : Fin 16) (b : Fin 16) (s : State) : OutcomeKeeps s.kept (execImax tile g dst a b s) := by
  unfold execImax
  show State.kept _ = _
  repeat' (first | with_reducible rfl | assumption | rw [foldl_kept] | rw [foldl_fst_kept] | rw [foldl_snd_kept] | with_reducible refine ite_kept _ _ _ _ ?_ ?_ | split | intro _ _ | simp only [State.kept_mk, pending_kept, fuses_kept, live_kept, tileLive_kept, otp_kept, rollback_kept, debugFuse_kept, kept_eta, State.issueVec_kept] | rw [apply_ite State.kept])

theorem execVand_keeps (tile : Fin 512) (g : Issue) (dst : Fin 16) (a : Fin 16) (b : Fin 16) (s : State) : OutcomeKeeps s.kept (execVand tile g dst a b s) := by
  unfold execVand
  show State.kept _ = _
  repeat' (first | with_reducible rfl | assumption | rw [foldl_kept] | rw [foldl_fst_kept] | rw [foldl_snd_kept] | with_reducible refine ite_kept _ _ _ _ ?_ ?_ | split | intro _ _ | simp only [State.kept_mk, pending_kept, fuses_kept, live_kept, tileLive_kept, otp_kept, rollback_kept, debugFuse_kept, kept_eta, State.issueVec_kept] | rw [apply_ite State.kept])

theorem execVor_keeps (tile : Fin 512) (g : Issue) (dst : Fin 16) (a : Fin 16) (b : Fin 16) (s : State) : OutcomeKeeps s.kept (execVor tile g dst a b s) := by
  unfold execVor
  show State.kept _ = _
  repeat' (first | with_reducible rfl | assumption | rw [foldl_kept] | rw [foldl_fst_kept] | rw [foldl_snd_kept] | with_reducible refine ite_kept _ _ _ _ ?_ ?_ | split | intro _ _ | simp only [State.kept_mk, pending_kept, fuses_kept, live_kept, tileLive_kept, otp_kept, rollback_kept, debugFuse_kept, kept_eta, State.issueVec_kept] | rw [apply_ite State.kept])

theorem execVxor_keeps (tile : Fin 512) (g : Issue) (dst : Fin 16) (a : Fin 16) (b : Fin 16) (s : State) : OutcomeKeeps s.kept (execVxor tile g dst a b s) := by
  unfold execVxor
  show State.kept _ = _
  repeat' (first | with_reducible rfl | assumption | rw [foldl_kept] | rw [foldl_fst_kept] | rw [foldl_snd_kept] | with_reducible refine ite_kept _ _ _ _ ?_ ?_ | split | intro _ _ | simp only [State.kept_mk, pending_kept, fuses_kept, live_kept, tileLive_kept, otp_kept, rollback_kept, debugFuse_kept, kept_eta, State.issueVec_kept] | rw [apply_ite State.kept])

theorem execVsll_keeps (tile : Fin 512) (g : Issue) (dst : Fin 16) (a : Fin 16) (b : Fin 16) (s : State) : OutcomeKeeps s.kept (execVsll tile g dst a b s) := by
  unfold execVsll
  show State.kept _ = _
  repeat' (first | with_reducible rfl | assumption | rw [foldl_kept] | rw [foldl_fst_kept] | rw [foldl_snd_kept] | with_reducible refine ite_kept _ _ _ _ ?_ ?_ | split | intro _ _ | simp only [State.kept_mk, pending_kept, fuses_kept, live_kept, tileLive_kept, otp_kept, rollback_kept, debugFuse_kept, kept_eta, State.issueVec_kept] | rw [apply_ite State.kept])

theorem execVsra_keeps (tile : Fin 512) (g : Issue) (dst : Fin 16) (a : Fin 16) (b : Fin 16) (s : State) : OutcomeKeeps s.kept (execVsra tile g dst a b s) := by
  unfold execVsra
  show State.kept _ = _
  repeat' (first | with_reducible rfl | assumption | rw [foldl_kept] | rw [foldl_fst_kept] | rw [foldl_snd_kept] | with_reducible refine ite_kept _ _ _ _ ?_ ?_ | split | intro _ _ | simp only [State.kept_mk, pending_kept, fuses_kept, live_kept, tileLive_kept, otp_kept, rollback_kept, debugFuse_kept, kept_eta, State.issueVec_kept] | rw [apply_ite State.kept])

theorem execRsum_keeps (tile : Fin 512) (g : Issue) (dst : Fin 16) (a : Fin 16) (s : State) : OutcomeKeeps s.kept (execRsum tile g dst a s) := by
  unfold execRsum
  show State.kept _ = _
  repeat' (first | with_reducible rfl | assumption | rw [foldl_kept] | rw [foldl_fst_kept] | rw [foldl_snd_kept] | with_reducible refine ite_kept _ _ _ _ ?_ ?_ | split | intro _ _ | simp only [State.kept_mk, pending_kept, fuses_kept, live_kept, tileLive_kept, otp_kept, rollback_kept, debugFuse_kept, kept_eta, State.issueVec_kept] | rw [apply_ite State.kept])

theorem execRmax_keeps (tile : Fin 512) (g : Issue) (dst : Fin 16) (a : Fin 16) (s : State) : OutcomeKeeps s.kept (execRmax tile g dst a s) := by
  unfold execRmax
  show State.kept _ = _
  repeat' (first | with_reducible rfl | assumption | rw [foldl_kept] | rw [foldl_fst_kept] | rw [foldl_snd_kept] | with_reducible refine ite_kept _ _ _ _ ?_ ?_ | split | intro _ _ | simp only [State.kept_mk, pending_kept, fuses_kept, live_kept, tileLive_kept, otp_kept, rollback_kept, debugFuse_kept, kept_eta, State.issueVec_kept] | rw [apply_ite State.kept])

theorem execRmin_keeps (tile : Fin 512) (g : Issue) (dst : Fin 16) (a : Fin 16) (s : State) : OutcomeKeeps s.kept (execRmin tile g dst a s) := by
  unfold execRmin
  show State.kept _ = _
  repeat' (first | with_reducible rfl | assumption | rw [foldl_kept] | rw [foldl_fst_kept] | rw [foldl_snd_kept] | with_reducible refine ite_kept _ _ _ _ ?_ ?_ | split | intro _ _ | simp only [State.kept_mk, pending_kept, fuses_kept, live_kept, tileLive_kept, otp_kept, rollback_kept, debugFuse_kept, kept_eta, State.issueVec_kept] | rw [apply_ite State.kept])

theorem execFlt_keeps (tile : Fin 512) (g : Issue) (dst : Fin 16) (a : Fin 16) (b : Fin 16) (s : State) : OutcomeKeeps s.kept (execFlt tile g dst a b s) := by
  unfold execFlt
  show State.kept _ = _
  repeat' (first | with_reducible rfl | assumption | rw [foldl_kept] | rw [foldl_fst_kept] | rw [foldl_snd_kept] | with_reducible refine ite_kept _ _ _ _ ?_ ?_ | split | intro _ _ | simp only [State.kept_mk, pending_kept, fuses_kept, live_kept, tileLive_kept, otp_kept, rollback_kept, debugFuse_kept, kept_eta, State.issueVec_kept] | rw [apply_ite State.kept])

theorem execFeq_keeps (tile : Fin 512) (g : Issue) (dst : Fin 16) (a : Fin 16) (b : Fin 16) (s : State) : OutcomeKeeps s.kept (execFeq tile g dst a b s) := by
  unfold execFeq
  show State.kept _ = _
  repeat' (first | with_reducible rfl | assumption | rw [foldl_kept] | rw [foldl_fst_kept] | rw [foldl_snd_kept] | with_reducible refine ite_kept _ _ _ _ ?_ ?_ | split | intro _ _ | simp only [State.kept_mk, pending_kept, fuses_kept, live_kept, tileLive_kept, otp_kept, rollback_kept, debugFuse_kept, kept_eta, State.issueVec_kept] | rw [apply_ite State.kept])

theorem execIlt_keeps (tile : Fin 512) (g : Issue) (dst : Fin 16) (a : Fin 16) (b : Fin 16) (s : State) : OutcomeKeeps s.kept (execIlt tile g dst a b s) := by
  unfold execIlt
  show State.kept _ = _
  repeat' (first | with_reducible rfl | assumption | rw [foldl_kept] | rw [foldl_fst_kept] | rw [foldl_snd_kept] | with_reducible refine ite_kept _ _ _ _ ?_ ?_ | split | intro _ _ | simp only [State.kept_mk, pending_kept, fuses_kept, live_kept, tileLive_kept, otp_kept, rollback_kept, debugFuse_kept, kept_eta, State.issueVec_kept] | rw [apply_ite State.kept])

theorem execSel_keeps (tile : Fin 512) (g : Issue) (dst : Fin 16) (a : Fin 16) (b : Fin 16) (s : State) : OutcomeKeeps s.kept (execSel tile g dst a b s) := by
  unfold execSel
  show State.kept _ = _
  repeat' (first | with_reducible rfl | assumption | rw [foldl_kept] | rw [foldl_fst_kept] | rw [foldl_snd_kept] | with_reducible refine ite_kept _ _ _ _ ?_ ?_ | split | intro _ _ | simp only [State.kept_mk, pending_kept, fuses_kept, live_kept, tileLive_kept, otp_kept, rollback_kept, debugFuse_kept, kept_eta, State.issueVec_kept] | rw [apply_ite State.kept])

theorem execBcast_keeps (tile : Fin 512) (g : Issue) (dst : Fin 16) (a : Fin 32) (s : State) : OutcomeKeeps s.kept (execBcast tile g dst a s) := by
  unfold execBcast
  show State.kept _ = _
  repeat' (first | with_reducible rfl | assumption | rw [foldl_kept] | rw [foldl_fst_kept] | rw [foldl_snd_kept] | with_reducible refine ite_kept _ _ _ _ ?_ ?_ | split | intro _ _ | simp only [State.kept_mk, pending_kept, fuses_kept, live_kept, tileLive_kept, otp_kept, rollback_kept, debugFuse_kept, kept_eta, State.issueVec_kept] | rw [apply_ite State.kept])

theorem execExtr_keeps (tile : Fin 512) (g : Issue) (dst : Fin 32) (a : Fin 16) (b : Fin 32) (s : State) : OutcomeKeeps s.kept (execExtr tile g dst a b s) := by
  unfold execExtr
  show State.kept _ = _
  repeat' (first | with_reducible rfl | assumption | rw [foldl_kept] | rw [foldl_fst_kept] | rw [foldl_snd_kept] | with_reducible refine ite_kept _ _ _ _ ?_ ?_ | split | intro _ _ | simp only [State.kept_mk, pending_kept, fuses_kept, live_kept, tileLive_kept, otp_kept, rollback_kept, debugFuse_kept, kept_eta, State.issueVec_kept] | rw [apply_ite State.kept])

theorem execInsr_keeps (tile : Fin 512) (g : Issue) (dst : Fin 16) (a : Fin 32) (b : Fin 32) (s : State) : OutcomeKeeps s.kept (execInsr tile g dst a b s) := by
  unfold execInsr
  show State.kept _ = _
  repeat' (first | with_reducible rfl | assumption | rw [foldl_kept] | rw [foldl_fst_kept] | rw [foldl_snd_kept] | with_reducible refine ite_kept _ _ _ _ ?_ ?_ | split | intro _ _ | simp only [State.kept_mk, pending_kept, fuses_kept, live_kept, tileLive_kept, otp_kept, rollback_kept, debugFuse_kept, kept_eta, State.issueVec_kept] | rw [apply_ite State.kept])

theorem execLaneid_keeps (tile : Fin 512) (g : Issue) (dst : Fin 16) (s : State) : OutcomeKeeps s.kept (execLaneid tile g dst s) := by
  unfold execLaneid
  show State.kept _ = _
  repeat' (first | with_reducible rfl | assumption | rw [foldl_kept] | rw [foldl_fst_kept] | rw [foldl_snd_kept] | with_reducible refine ite_kept _ _ _ _ ?_ ?_ | split | intro _ _ | simp only [State.kept_mk, pending_kept, fuses_kept, live_kept, tileLive_kept, otp_kept, rollback_kept, debugFuse_kept, kept_eta, State.issueVec_kept] | rw [apply_ite State.kept])

theorem execVld32_keeps (tile : Fin 512) (g : Issue) (vx : Fin 16) (xa : Fin 16) (c : Fin 32) (hits : List EccHit) (s : State) : OutcomeKeeps s.kept (execVld32 tile g vx xa c hits s) := by
  unfold execVld32
  show State.kept _ = _
  repeat' (first | with_reducible rfl | assumption | rw [foldl_kept] | rw [foldl_fst_kept] | rw [foldl_snd_kept] | with_reducible refine ite_kept _ _ _ _ ?_ ?_ | split | intro _ _ | simp only [State.kept_mk, pending_kept, fuses_kept, live_kept, tileLive_kept, otp_kept, rollback_kept, debugFuse_kept, kept_eta, State.vload_kept] | rw [apply_ite State.kept])

theorem execVld16_keeps (tile : Fin 512) (g : Issue) (vx : Fin 16) (xa : Fin 16) (c : Fin 32) (hits : List EccHit) (s : State) : OutcomeKeeps s.kept (execVld16 tile g vx xa c hits s) := by
  unfold execVld16
  show State.kept _ = _
  repeat' (first | with_reducible rfl | assumption | rw [foldl_kept] | rw [foldl_fst_kept] | rw [foldl_snd_kept] | with_reducible refine ite_kept _ _ _ _ ?_ ?_ | split | intro _ _ | simp only [State.kept_mk, pending_kept, fuses_kept, live_kept, tileLive_kept, otp_kept, rollback_kept, debugFuse_kept, kept_eta, State.vload_kept] | rw [apply_ite State.kept])

theorem execVldu8_keeps (tile : Fin 512) (g : Issue) (vx : Fin 16) (xa : Fin 16) (c : Fin 32) (hits : List EccHit) (s : State) : OutcomeKeeps s.kept (execVldu8 tile g vx xa c hits s) := by
  unfold execVldu8
  show State.kept _ = _
  repeat' (first | with_reducible rfl | assumption | rw [foldl_kept] | rw [foldl_fst_kept] | rw [foldl_snd_kept] | with_reducible refine ite_kept _ _ _ _ ?_ ?_ | split | intro _ _ | simp only [State.kept_mk, pending_kept, fuses_kept, live_kept, tileLive_kept, otp_kept, rollback_kept, debugFuse_kept, kept_eta, State.vload_kept] | rw [apply_ite State.kept])

theorem execVldbc_keeps (tile : Fin 512) (g : Issue) (vx : Fin 16) (xa : Fin 16) (c : Fin 32) (hits : List EccHit) (s : State) : OutcomeKeeps s.kept (execVldbc tile g vx xa c hits s) := by
  unfold execVldbc
  show State.kept _ = _
  repeat' (first | with_reducible rfl | assumption | rw [foldl_kept] | rw [foldl_fst_kept] | rw [foldl_snd_kept] | with_reducible refine ite_kept _ _ _ _ ?_ ?_ | split | intro _ _ | simp only [State.kept_mk, pending_kept, fuses_kept, live_kept, tileLive_kept, otp_kept, rollback_kept, debugFuse_kept, kept_eta, State.vload_kept] | rw [apply_ite State.kept])

theorem execVst32_keeps (tile : Fin 512) (g : Issue) (vx : Fin 16) (xa : Fin 16) (c : Fin 32) (s : State) : OutcomeKeeps s.kept (execVst32 tile g vx xa c s) := by
  unfold execVst32
  show State.kept _ = _
  repeat' (first | with_reducible rfl | assumption | rw [foldl_kept] | rw [foldl_fst_kept] | rw [foldl_snd_kept] | with_reducible refine ite_kept _ _ _ _ ?_ ?_ | split | intro _ _ | simp only [State.kept_mk, pending_kept, fuses_kept, live_kept, tileLive_kept, otp_kept, rollback_kept, debugFuse_kept, kept_eta, State.vstore_kept] | rw [apply_ite State.kept])

theorem execVst16_keeps (tile : Fin 512) (g : Issue) (vx : Fin 16) (xa : Fin 16) (c : Fin 32) (s : State) : OutcomeKeeps s.kept (execVst16 tile g vx xa c s) := by
  unfold execVst16
  show State.kept _ = _
  repeat' (first | with_reducible rfl | assumption | rw [foldl_kept] | rw [foldl_fst_kept] | rw [foldl_snd_kept] | with_reducible refine ite_kept _ _ _ _ ?_ ?_ | split | intro _ _ | simp only [State.kept_mk, pending_kept, fuses_kept, live_kept, tileLive_kept, otp_kept, rollback_kept, debugFuse_kept, kept_eta, State.vstore_kept] | rw [apply_ite State.kept])

theorem execVstu8_keeps (tile : Fin 512) (g : Issue) (vx : Fin 16) (xa : Fin 16) (c : Fin 32) (s : State) : OutcomeKeeps s.kept (execVstu8 tile g vx xa c s) := by
  unfold execVstu8
  show State.kept _ = _
  repeat' (first | with_reducible rfl | assumption | rw [foldl_kept] | rw [foldl_fst_kept] | rw [foldl_snd_kept] | with_reducible refine ite_kept _ _ _ _ ?_ ?_ | split | intro _ _ | simp only [State.kept_mk, pending_kept, fuses_kept, live_kept, tileLive_kept, otp_kept, rollback_kept, debugFuse_kept, kept_eta, State.vstore_kept] | rw [apply_ite State.kept])

theorem execVtab_keeps (tile : Fin 512) (g : Issue) (vx : Fin 16) (xa : Fin 16) (vb : Fin 16) (hits : List EccHit) (s : State) : OutcomeKeeps s.kept (execVtab tile g vx xa vb hits s) := by
  unfold execVtab
  refine State.issue_kept _ _ _ _ _ fun c s h => ?_
  repeat' (first | with_reducible rfl | trivial | assumption | exact State.jumpTo_kept _ _ _ _ _ _ (by assumption) | refine readGate_kept _ _ _ _ _ ?_ ?_ | refine runVectors_kept _ _ _ _ _ _ _ _ _ _ ?_ | refine State.gsRun_kept _ _ _ _ _ _ _ _ _ ?_ ?_ | refine State.gsDone_kept _ _ _ _ _ _ _ ?_ | exact State.get_kept _ _ _ _ _ _ _ _ _ (by assumption) | refine State.cairnSend_kept _ _ _ _ _ _ _ _ ?_ ?_ | exact State.settleSend_kept _ _ _ _ _ _ _ _ _ _ _ _ _ _ (by assumption) | exact State.emitExtent_kept _ _ _ _ _ _ _ _ (by assumption) | rw [foldl_kept] | split | intro _ _ | simp only [NtRes.keeps_done, NtRes.keeps_jump, NtRes.keeps_raise, NtRes.keeps_wait, NtRes.keeps_hold, NtRes.keeps_stop, NtRes.keeps_left, State.kept_mk, pending_kept, fuses_kept, live_kept, tileLive_kept, otp_kept, rollback_kept, debugFuse_kept, kept_eta, State.issue_kept, State.applyHits_kept, State.fly_kept] | rw [apply_ite State.kept])

theorem FacetAcc.finish_kept (x : FacetAcc) (t mode : Nat) (r w : List Extent) (k : Kept) (h : x.s.kept = k) : NtRes.Keeps k (FacetAcc.finish x t mode r w) := by
  show (x.s.fly t 0 r w).kept = k; rw [State.fly_kept, h]

theorem FacetAcc.put_kept (x : FacetAcc) (t : Nat) (b : TileBank) (xd : Fin 16) (v : Nat) (y : NodeVal) (x' : FacetAcc) (h : FacetAcc.put x t b xd v y = some x') :
    x'.s.kept = x.s.kept := by
  unfold FacetAcc.put at h
  dsimp only at h
  split at h
  · cases h; exact State.abWrite_kept x.s _ _ _ _
  · cases h; exact State.abWrite_kept x.s _ _ _ _
  · split at h
    · cases h
    · cases h; exact State.inject_kept x.s _

theorem runVectors_kept (t : Nat) (b : TileBank) (xd : Fin 16) (mode : Nat) (r w : List Extent) (node : Nat → NodeVal ⊕ Nat) (vs : List Nat) (x : FacetAcc) (k : Kept)
    (h : x.s.kept = k) : NtRes.Keeps k (runVectors t b xd mode r w node vs x) := by
  induction vs generalizing x with
  | nil => exact FacetAcc.finish_kept _ _ _ _ _ _ h
  | cons v vs ih =>
    unfold runVectors
    split
    · exact h
    · split
      · exact h
      · rename_i e; exact ih _ (by rw [FacetAcc.put_kept _ _ _ _ _ _ _ e, h])

theorem execFset_keeps (tile : Fin 512) (g : Issue) (sel : Fin 32) (a : Fin 32) (s : State) : OutcomeKeeps s.kept (execFset tile g sel a s) := by
  unfold execFset
  refine State.issue_kept _ _ _ _ _ fun c s h => ?_
  repeat' (first | with_reducible rfl | trivial | assumption | exact State.jumpTo_kept _ _ _ _ _ _ (by assumption) | refine readGate_kept _ _ _ _ _ ?_ ?_ | refine runVectors_kept _ _ _ _ _ _ _ _ _ _ ?_ | refine State.gsRun_kept _ _ _ _ _ _ _ _ _ ?_ ?_ | refine State.gsDone_kept _ _ _ _ _ _ _ ?_ | exact State.get_kept _ _ _ _ _ _ _ _ _ (by assumption) | refine State.cairnSend_kept _ _ _ _ _ _ _ _ ?_ ?_ | exact State.settleSend_kept _ _ _ _ _ _ _ _ _ _ _ _ _ _ (by assumption) | exact State.emitExtent_kept _ _ _ _ _ _ _ _ (by assumption) | rw [foldl_kept] | split | intro _ _ | simp only [NtRes.keeps_done, NtRes.keeps_jump, NtRes.keeps_raise, NtRes.keeps_wait, NtRes.keeps_hold, NtRes.keeps_stop, NtRes.keeps_left, State.kept_mk, pending_kept, fuses_kept, live_kept, tileLive_kept, otp_kept, rollback_kept, debugFuse_kept, kept_eta, State.issue_kept] | rw [apply_ite State.kept])

theorem execFld_keeps (tile : Fin 512) (g : Issue) (xb : Fin 16) (c : Fin 32) (s : State) : OutcomeKeeps s.kept (execFld tile g xb c s) := by
  unfold execFld
  refine State.issue_kept _ _ _ _ _ fun c s h => ?_
  repeat' (first | with_reducible rfl | trivial | assumption | exact State.jumpTo_kept _ _ _ _ _ _ (by assumption) | refine readGate_kept _ _ _ _ _ ?_ ?_ | refine runVectors_kept _ _ _ _ _ _ _ _ _ _ ?_ | refine State.gsRun_kept _ _ _ _ _ _ _ _ _ ?_ ?_ | refine State.gsDone_kept _ _ _ _ _ _ _ ?_ | exact State.get_kept _ _ _ _ _ _ _ _ _ (by assumption) | refine State.cairnSend_kept _ _ _ _ _ _ _ _ ?_ ?_ | exact State.settleSend_kept _ _ _ _ _ _ _ _ _ _ _ _ _ _ (by assumption) | exact State.emitExtent_kept _ _ _ _ _ _ _ _ (by assumption) | rw [foldl_kept] | split | intro _ _ | simp only [NtRes.keeps_done, NtRes.keeps_jump, NtRes.keeps_raise, NtRes.keeps_wait, NtRes.keeps_hold, NtRes.keeps_stop, NtRes.keeps_left, State.kept_mk, pending_kept, fuses_kept, live_kept, tileLive_kept, otp_kept, rollback_kept, debugFuse_kept, kept_eta, State.issue_kept, State.modTile_kept, State.fly_kept] | rw [apply_ite State.kept])

theorem execFmac_keeps (tile : Fin 512) (g : Issue) (xd : Fin 16) (xa : Fin 16) (xb : Fin 16) (c : Fin 32) (hits : List EccHit) (s : State) : OutcomeKeeps s.kept (execFmac tile g xd xa xb c hits s) := by
  unfold execFmac
  refine State.issue_kept _ _ _ _ _ fun c s h => ?_
  repeat' (first | with_reducible rfl | trivial | assumption | exact State.jumpTo_kept _ _ _ _ _ _ (by assumption) | refine readGate_kept _ _ _ _ _ ?_ ?_ | refine runVectors_kept _ _ _ _ _ _ _ _ _ _ ?_ | refine State.gsRun_kept _ _ _ _ _ _ _ _ _ ?_ ?_ | refine State.gsDone_kept _ _ _ _ _ _ _ ?_ | exact State.get_kept _ _ _ _ _ _ _ _ _ (by assumption) | refine State.cairnSend_kept _ _ _ _ _ _ _ _ ?_ ?_ | exact State.settleSend_kept _ _ _ _ _ _ _ _ _ _ _ _ _ _ (by assumption) | exact State.emitExtent_kept _ _ _ _ _ _ _ _ (by assumption) | rw [foldl_kept] | split | intro _ _ | simp only [NtRes.keeps_done, NtRes.keeps_jump, NtRes.keeps_raise, NtRes.keeps_wait, NtRes.keeps_hold, NtRes.keeps_stop, NtRes.keeps_left, State.kept_mk, pending_kept, fuses_kept, live_kept, tileLive_kept, otp_kept, rollback_kept, debugFuse_kept, kept_eta, State.issue_kept, State.applyHits_kept, State.modTile_kept] | rw [apply_ite State.kept])

theorem execFdrn_keeps (tile : Fin 512) (g : Issue) (xd : Fin 16) (xa : Fin 16) (xb : Fin 16) (hits : List EccHit) (s : State) : OutcomeKeeps s.kept (execFdrn tile g xd xa xb hits s) := by
  unfold execFdrn
  refine State.issue_kept _ _ _ _ _ fun c s h => ?_
  repeat' (first | with_reducible rfl | trivial | assumption | exact State.jumpTo_kept _ _ _ _ _ _ (by assumption) | refine readGate_kept _ _ _ _ _ ?_ ?_ | refine runVectors_kept _ _ _ _ _ _ _ _ _ _ ?_ | refine State.gsRun_kept _ _ _ _ _ _ _ _ _ ?_ ?_ | refine State.gsDone_kept _ _ _ _ _ _ _ ?_ | exact State.get_kept _ _ _ _ _ _ _ _ _ (by assumption) | refine State.cairnSend_kept _ _ _ _ _ _ _ _ ?_ ?_ | exact State.settleSend_kept _ _ _ _ _ _ _ _ _ _ _ _ _ _ (by assumption) | exact State.emitExtent_kept _ _ _ _ _ _ _ _ (by assumption) | rw [foldl_kept] | split | intro _ _ | simp only [NtRes.keeps_done, NtRes.keeps_jump, NtRes.keeps_raise, NtRes.keeps_wait, NtRes.keeps_hold, NtRes.keeps_stop, NtRes.keeps_left, State.kept_mk, pending_kept, fuses_kept, live_kept, tileLive_kept, otp_kept, rollback_kept, debugFuse_kept, kept_eta, State.issue_kept, State.applyHits_kept] | rw [apply_ite State.kept])

theorem State.copyRow_kept (s : State) (t : Nat) (c : Core) (srcSpace : Nat) (dstSpace : Nat) (rb : Nat) (r : RowCopy) : (State.copyRow s t c srcSpace dstSpace rb r).kept = s.kept := by
  unfold State.copyRow
  repeat' (first | with_reducible rfl | assumption | rw [foldl_kept] | rw [foldl_fst_kept] | rw [foldl_snd_kept] | with_reducible refine ite_kept _ _ _ _ ?_ ?_ | split | intro _ _ | simp only [State.kept_mk, pending_kept, fuses_kept, live_kept, tileLive_kept, otp_kept, rollback_kept, debugFuse_kept, kept_eta, State.store_kept, State.mark_kept] | rw [apply_ite State.kept])

theorem State.runRows_kept (s : State) (t : Nat) (c : Core) (a b rb : Nat) (l : List (GsStep × Bool)) : (State.runRows s t c a b rb l).1.kept = s.kept := by
  induction l generalizing s with
  | nil => rfl
  | cons e l ih =>
    obtain ⟨st, oor⟩ := e
    have f : ∀ o : Bool, (if o then s.tileFlag t 7 else s).kept = s.kept := fun o => by cases o <;> simp only [State.tileFlag_kept, if_true, Bool.false_eq_true, if_false]
    unfold State.runRows
    dsimp only
    split
    · rw [ih, f]
    · rw [ih, State.copyRow_kept, f]
    · exact f _

theorem State.gsDone_kept (s : State) (t : Nat) (c : Core) (st : Bool) (xs : List Extent) (d : Extent) (k : Kept) (h : s.kept = k) : NtRes.Keeps k (State.gsDone s t c st xs d) := by
  unfold State.gsDone; split
  · exact h
  · show (s.fly t 2 xs [d]).kept = k; rw [State.fly_kept, h]

theorem State.gsRun_kept (s : State) (t : Nat) (c : Core) (d a b : Extent) (hits : List EccHit) (f : State → NtRes) (k : Kept) (h : s.kept = k)
    (hf : ∀ s', s'.kept = k → NtRes.Keeps k (f s')) : NtRes.Keeps k (State.gsRun s t c d a b hits f) := by
  unfold State.gsRun; split
  · trivial
  · exact readGate_kept _ _ _ _ _ (by rw [State.applyHits_kept, h]) hf

theorem execGather_keeps (tile : Fin 512) (g : Issue) (xd : Fin 16) (xa : Fin 16) (xb : Fin 16) (c : Fin 32) (hits : List EccHit) (s : State) : OutcomeKeeps s.kept (execGather tile g xd xa xb c hits s) := by
  unfold execGather
  refine State.issue_kept _ _ _ _ _ fun c s h => ?_
  repeat' (first | with_reducible rfl | trivial | assumption | exact State.jumpTo_kept _ _ _ _ _ _ (by assumption) | refine readGate_kept _ _ _ _ _ ?_ ?_ | refine runVectors_kept _ _ _ _ _ _ _ _ _ _ ?_ | refine State.gsRun_kept _ _ _ _ _ _ _ _ _ ?_ ?_ | refine State.gsDone_kept _ _ _ _ _ _ _ ?_ | exact State.get_kept _ _ _ _ _ _ _ _ _ (by assumption) | refine State.cairnSend_kept _ _ _ _ _ _ _ _ ?_ ?_ | exact State.settleSend_kept _ _ _ _ _ _ _ _ _ _ _ _ _ _ (by assumption) | exact State.emitExtent_kept _ _ _ _ _ _ _ _ (by assumption) | rw [foldl_kept] | split | intro _ _ | simp only [NtRes.keeps_done, NtRes.keeps_jump, NtRes.keeps_raise, NtRes.keeps_wait, NtRes.keeps_hold, NtRes.keeps_stop, NtRes.keeps_left, State.kept_mk, pending_kept, fuses_kept, live_kept, tileLive_kept, otp_kept, rollback_kept, debugFuse_kept, kept_eta, State.issue_kept, State.runRows_kept] | rw [apply_ite State.kept])

theorem execGatherCsr_keeps (tile : Fin 512) (g : Issue) (xd xa xb : Fin 16) (c : Fin 32) (hits : List EccHit) (s : State) :
    OutcomeKeeps s.kept (execGatherCsr tile g xd xa xb c hits s) := by
  have ite : ∀ (k : Kept) (b : Prop) [Decidable b] (u v : NtRes), NtRes.Keeps k u → NtRes.Keeps k v → NtRes.Keeps k (if b then u else v) := by
    intro k b _ u v hu hv; split <;> assumption
  unfold execGatherCsr
  refine State.issue_kept _ _ _ _ _ fun c s' h => ?_
  dsimp only
  split
  · trivial
  · refine State.gsRun_kept _ _ _ _ _ _ _ _ _ h fun s'' e => ?_
    refine ite _ _ _ _ (State.gsDone_kept _ _ _ _ _ _ _ ?_) (State.gsDone_kept _ _ _ _ _ _ _ ?_)
    · rw [State.abWrite_kept, e]
    · rw [State.runRows_kept, State.abWrite_kept, e]

theorem execScatter_keeps (tile : Fin 512) (g : Issue) (xd : Fin 16) (xa : Fin 16) (xb : Fin 16) (c : Fin 32) (hits : List EccHit) (s : State) : OutcomeKeeps s.kept (execScatter tile g xd xa xb c hits s) := by
  unfold execScatter
  refine State.issue_kept _ _ _ _ _ fun c s h => ?_
  repeat' (first | with_reducible rfl | trivial | assumption | exact State.jumpTo_kept _ _ _ _ _ _ (by assumption) | refine readGate_kept _ _ _ _ _ ?_ ?_ | refine runVectors_kept _ _ _ _ _ _ _ _ _ _ ?_ | refine State.gsRun_kept _ _ _ _ _ _ _ _ _ ?_ ?_ | refine State.gsDone_kept _ _ _ _ _ _ _ ?_ | exact State.get_kept _ _ _ _ _ _ _ _ _ (by assumption) | refine State.cairnSend_kept _ _ _ _ _ _ _ _ ?_ ?_ | exact State.settleSend_kept _ _ _ _ _ _ _ _ _ _ _ _ _ _ (by assumption) | exact State.emitExtent_kept _ _ _ _ _ _ _ _ (by assumption) | rw [foldl_kept] | split | intro _ _ | simp only [NtRes.keeps_done, NtRes.keeps_jump, NtRes.keeps_raise, NtRes.keeps_wait, NtRes.keeps_hold, NtRes.keeps_stop, NtRes.keeps_left, State.kept_mk, pending_kept, fuses_kept, live_kept, tileLive_kept, otp_kept, rollback_kept, debugFuse_kept, kept_eta, State.issue_kept, State.runRows_kept] | rw [apply_ite State.kept])

theorem execScatterAcc_keeps (tile : Fin 512) (g : Issue) (xd : Fin 16) (xa : Fin 16) (xb : Fin 16) (c : Fin 32) (hits : List EccHit) (s : State) : OutcomeKeeps s.kept (execScatterAcc tile g xd xa xb c hits s) := by
  unfold execScatterAcc
  refine State.issue_kept _ _ _ _ _ fun c s h => ?_
  repeat' (first | with_reducible rfl | trivial | assumption | exact State.jumpTo_kept _ _ _ _ _ _ (by assumption) | refine readGate_kept _ _ _ _ _ ?_ ?_ | refine runVectors_kept _ _ _ _ _ _ _ _ _ _ ?_ | refine State.gsRun_kept _ _ _ _ _ _ _ _ _ ?_ ?_ | refine State.gsDone_kept _ _ _ _ _ _ _ ?_ | exact State.get_kept _ _ _ _ _ _ _ _ _ (by assumption) | refine State.cairnSend_kept _ _ _ _ _ _ _ _ ?_ ?_ | exact State.settleSend_kept _ _ _ _ _ _ _ _ _ _ _ _ _ _ (by assumption) | exact State.emitExtent_kept _ _ _ _ _ _ _ _ (by assumption) | rw [foldl_kept] | split | intro _ _ | simp only [NtRes.keeps_done, NtRes.keeps_jump, NtRes.keeps_raise, NtRes.keeps_wait, NtRes.keeps_hold, NtRes.keeps_stop, NtRes.keeps_left, State.kept_mk, pending_kept, fuses_kept, live_kept, tileLive_kept, otp_kept, rollback_kept, debugFuse_kept, kept_eta, State.issue_kept, State.abWrite_kept, State.tileFlag_kept] | rw [apply_ite State.kept])

theorem State.dset_kept (s : State) (t : Fin 512) (g : Issue) (d : Fin 16) (f : Core → Desc → Desc) : (State.dset s t g d f).kept = s.kept := by
  unfold State.dset
  refine State.issue_kept _ _ _ _ _ fun c s h => ?_
  repeat' (first | with_reducible rfl | trivial | assumption | exact State.jumpTo_kept _ _ _ _ _ _ (by assumption) | refine readGate_kept _ _ _ _ _ ?_ ?_ | refine runVectors_kept _ _ _ _ _ _ _ _ _ _ ?_ | refine State.gsRun_kept _ _ _ _ _ _ _ _ _ ?_ ?_ | refine State.gsDone_kept _ _ _ _ _ _ _ ?_ | exact State.get_kept _ _ _ _ _ _ _ _ _ (by assumption) | refine State.cairnSend_kept _ _ _ _ _ _ _ _ ?_ ?_ | exact State.settleSend_kept _ _ _ _ _ _ _ _ _ _ _ _ _ _ (by assumption) | exact State.emitExtent_kept _ _ _ _ _ _ _ _ (by assumption) | rw [foldl_kept] | split | intro _ _ | simp only [NtRes.keeps_done, NtRes.keeps_jump, NtRes.keeps_raise, NtRes.keeps_wait, NtRes.keeps_hold, NtRes.keeps_stop, NtRes.keeps_left, State.kept_mk, pending_kept, fuses_kept, live_kept, tileLive_kept, otp_kept, rollback_kept, debugFuse_kept, kept_eta, State.issue_kept] | rw [apply_ite State.kept])

theorem State.takeItem_kept (s : State) (t : Nat) (c : Core) (d : Fin 16) (a b : Fin 32) (pd : Fin 8) (p : InPort) (i : Item) (k : Kept) (h : s.kept = k) :
    NtRes.Keeps k (State.takeItem s t c d a b pd p i) := by
  unfold State.takeItem
  dsimp only
  split
  · trivial
  · exact readGate_kept _ _ _ _ _ h fun s' e => by simp only [NtRes.Keeps, State.mark_kept, State.abWrite_kept, State.modTile_kept, e]

theorem State.get_kept (s : State) (t : Nat) (c : Core) (d : Fin 16) (a b : Fin 32) (pd : Fin 8) (block : Bool) (k : Kept) (h : s.kept = k) :
    NtRes.Keeps k (State.get s t c d a b pd block) := by
  have ite : ∀ (b : Prop) [Decidable b] (u v : NtRes), NtRes.Keeps k u → NtRes.Keeps k v → NtRes.Keeps k (if b then u else v) := by
    intro b _ u v hu hv; split <;> assumption
  have modT : ∀ (f : Tile → Tile), (s.modTile t f).kept = k := fun f => by rw [State.modTile_kept, h]
  unfold State.get
  refine ite _ _ _ h (ite _ _ _ trivial ?_)
  dsimp only
  split
  · trivial
  · refine ite _ _ _ trivial ?_
    split
    · exact State.takeItem_kept _ _ _ _ _ _ _ _ _ _ h
    · exact ite _ _ _ (modT _) (ite _ _ _ trivial h)

theorem execDsetKind_keeps (tile : Fin 512) (g : Issue) (d : Fin 16) (a : Fin 32) (s : State) : OutcomeKeeps s.kept (execDsetKind tile g d a s) := by
  unfold execDsetKind
  refine State.issue_kept _ _ _ _ _ fun c s h => ?_
  repeat' (first | with_reducible rfl | trivial | assumption | exact State.jumpTo_kept _ _ _ _ _ _ (by assumption) | refine readGate_kept _ _ _ _ _ ?_ ?_ | refine runVectors_kept _ _ _ _ _ _ _ _ _ _ ?_ | refine State.gsRun_kept _ _ _ _ _ _ _ _ _ ?_ ?_ | refine State.gsDone_kept _ _ _ _ _ _ _ ?_ | exact State.get_kept _ _ _ _ _ _ _ _ _ (by assumption) | refine State.cairnSend_kept _ _ _ _ _ _ _ _ ?_ ?_ | exact State.settleSend_kept _ _ _ _ _ _ _ _ _ _ _ _ _ _ (by assumption) | exact State.emitExtent_kept _ _ _ _ _ _ _ _ (by assumption) | rw [foldl_kept] | split | intro _ _ | simp only [NtRes.keeps_done, NtRes.keeps_jump, NtRes.keeps_raise, NtRes.keeps_wait, NtRes.keeps_hold, NtRes.keeps_stop, NtRes.keeps_left, State.kept_mk, pending_kept, fuses_kept, live_kept, tileLive_kept, otp_kept, rollback_kept, debugFuse_kept, kept_eta, State.issue_kept] | rw [apply_ite State.kept])

theorem execDsetLoose_keeps (tile : Fin 512) (g : Issue) (d : Fin 16) (a : Fin 32) (s : State) : OutcomeKeeps s.kept (execDsetLoose tile g d a s) := by
  unfold execDsetLoose
  show State.kept _ = _
  repeat' (first | with_reducible rfl | assumption | rw [foldl_kept] | rw [foldl_fst_kept] | rw [foldl_snd_kept] | with_reducible refine ite_kept _ _ _ _ ?_ ?_ | split | intro _ _ | simp only [State.kept_mk, pending_kept, fuses_kept, live_kept, tileLive_kept, otp_kept, rollback_kept, debugFuse_kept, kept_eta, State.dset_kept] | rw [apply_ite State.kept])

theorem execDsetFmt_keeps (tile : Fin 512) (g : Issue) (d : Fin 16) (a : Fin 32) (s : State) : OutcomeKeeps s.kept (execDsetFmt tile g d a s) := by
  unfold execDsetFmt
  show State.kept _ = _
  repeat' (first | with_reducible rfl | assumption | rw [foldl_kept] | rw [foldl_fst_kept] | rw [foldl_snd_kept] | with_reducible refine ite_kept _ _ _ _ ?_ ?_ | split | intro _ _ | simp only [State.kept_mk, pending_kept, fuses_kept, live_kept, tileLive_kept, otp_kept, rollback_kept, debugFuse_kept, kept_eta, State.dset_kept] | rw [apply_ite State.kept])

theorem execDsetSources_keeps (tile : Fin 512) (g : Issue) (d : Fin 16) (a : Fin 32) (s : State) : OutcomeKeeps s.kept (execDsetSources tile g d a s) := by
  unfold execDsetSources
  show State.kept _ = _
  repeat' (first | with_reducible rfl | assumption | rw [foldl_kept] | rw [foldl_fst_kept] | rw [foldl_snd_kept] | with_reducible refine ite_kept _ _ _ _ ?_ ?_ | split | intro _ _ | simp only [State.kept_mk, pending_kept, fuses_kept, live_kept, tileLive_kept, otp_kept, rollback_kept, debugFuse_kept, kept_eta, State.dset_kept] | rw [apply_ite State.kept])

theorem execDsetStream_keeps (tile : Fin 512) (g : Issue) (d : Fin 16) (a : Fin 32) (s : State) : OutcomeKeeps s.kept (execDsetStream tile g d a s) := by
  unfold execDsetStream
  show State.kept _ = _
  repeat' (first | with_reducible rfl | assumption | rw [foldl_kept] | rw [foldl_fst_kept] | rw [foldl_snd_kept] | with_reducible refine ite_kept _ _ _ _ ?_ ?_ | split | intro _ _ | simp only [State.kept_mk, pending_kept, fuses_kept, live_kept, tileLive_kept, otp_kept, rollback_kept, debugFuse_kept, kept_eta, State.dset_kept] | rw [apply_ite State.kept])

theorem execDsetRing_keeps (tile : Fin 512) (g : Issue) (d : Fin 16) (a : Fin 32) (b : Fin 32) (s : State) : OutcomeKeeps s.kept (execDsetRing tile g d a b s) := by
  unfold execDsetRing
  show State.kept _ = _
  repeat' (first | with_reducible rfl | assumption | rw [foldl_kept] | rw [foldl_fst_kept] | rw [foldl_snd_kept] | with_reducible refine ite_kept _ _ _ _ ?_ ?_ | split | intro _ _ | simp only [State.kept_mk, pending_kept, fuses_kept, live_kept, tileLive_kept, otp_kept, rollback_kept, debugFuse_kept, kept_eta, State.dset_kept] | rw [apply_ite State.kept])

theorem execSopenIn_keeps (tile : Fin 512) (g : Issue) (d : Fin 16) (s : State) : OutcomeKeeps s.kept (execSopenIn tile g d s) := by
  unfold execSopenIn
  refine State.issue_kept _ _ _ _ _ fun c s h => ?_
  repeat' (first | with_reducible rfl | trivial | assumption | exact State.jumpTo_kept _ _ _ _ _ _ (by assumption) | refine readGate_kept _ _ _ _ _ ?_ ?_ | refine runVectors_kept _ _ _ _ _ _ _ _ _ _ ?_ | refine State.gsRun_kept _ _ _ _ _ _ _ _ _ ?_ ?_ | refine State.gsDone_kept _ _ _ _ _ _ _ ?_ | exact State.get_kept _ _ _ _ _ _ _ _ _ (by assumption) | refine State.cairnSend_kept _ _ _ _ _ _ _ _ ?_ ?_ | exact State.settleSend_kept _ _ _ _ _ _ _ _ _ _ _ _ _ _ (by assumption) | exact State.emitExtent_kept _ _ _ _ _ _ _ _ (by assumption) | rw [foldl_kept] | split | intro _ _ | simp only [NtRes.keeps_done, NtRes.keeps_jump, NtRes.keeps_raise, NtRes.keeps_wait, NtRes.keeps_hold, NtRes.keeps_stop, NtRes.keeps_left, State.kept_mk, pending_kept, fuses_kept, live_kept, tileLive_kept, otp_kept, rollback_kept, debugFuse_kept, kept_eta, State.issue_kept, State.modTile_kept] | rw [apply_ite State.kept])

theorem execSopenOut_keeps (tile : Fin 512) (g : Issue) (d : Fin 16) (credit : Nat) (s : State) : OutcomeKeeps s.kept (execSopenOut tile g d credit s) := by
  unfold execSopenOut
  refine State.issue_kept _ _ _ _ _ fun c s h => ?_
  repeat' (first | with_reducible rfl | trivial | assumption | exact State.jumpTo_kept _ _ _ _ _ _ (by assumption) | refine readGate_kept _ _ _ _ _ ?_ ?_ | refine runVectors_kept _ _ _ _ _ _ _ _ _ _ ?_ | refine State.gsRun_kept _ _ _ _ _ _ _ _ _ ?_ ?_ | refine State.gsDone_kept _ _ _ _ _ _ _ ?_ | exact State.get_kept _ _ _ _ _ _ _ _ _ (by assumption) | refine State.cairnSend_kept _ _ _ _ _ _ _ _ ?_ ?_ | exact State.settleSend_kept _ _ _ _ _ _ _ _ _ _ _ _ _ _ (by assumption) | exact State.emitExtent_kept _ _ _ _ _ _ _ _ (by assumption) | rw [foldl_kept] | split | intro _ _ | simp only [NtRes.keeps_done, NtRes.keeps_jump, NtRes.keeps_raise, NtRes.keeps_wait, NtRes.keeps_hold, NtRes.keeps_stop, NtRes.keeps_left, State.kept_mk, pending_kept, fuses_kept, live_kept, tileLive_kept, otp_kept, rollback_kept, debugFuse_kept, kept_eta, State.issue_kept] | rw [apply_ite State.kept])

theorem execSclose_keeps (tile : Fin 512) (g : Issue) (d : Fin 16) (s : State) : OutcomeKeeps s.kept (execSclose tile g d s) := by
  unfold execSclose
  refine State.issue_kept _ _ _ _ _ fun c s h => ?_
  repeat' (first | with_reducible rfl | trivial | assumption | exact State.jumpTo_kept _ _ _ _ _ _ (by assumption) | refine readGate_kept _ _ _ _ _ ?_ ?_ | refine runVectors_kept _ _ _ _ _ _ _ _ _ _ ?_ | refine State.gsRun_kept _ _ _ _ _ _ _ _ _ ?_ ?_ | refine State.gsDone_kept _ _ _ _ _ _ _ ?_ | exact State.get_kept _ _ _ _ _ _ _ _ _ (by assumption) | refine State.cairnSend_kept _ _ _ _ _ _ _ _ ?_ ?_ | exact State.settleSend_kept _ _ _ _ _ _ _ _ _ _ _ _ _ _ (by assumption) | exact State.emitExtent_kept _ _ _ _ _ _ _ _ (by assumption) | rw [foldl_kept] | split | intro _ _ | simp only [NtRes.keeps_done, NtRes.keeps_jump, NtRes.keeps_raise, NtRes.keeps_wait, NtRes.keeps_hold, NtRes.keeps_stop, NtRes.keeps_left, State.kept_mk, pending_kept, fuses_kept, live_kept, tileLive_kept, otp_kept, rollback_kept, debugFuse_kept, kept_eta, State.issue_kept, State.closeDesc_kept] | rw [apply_ite State.kept])

theorem execSput_keeps (tile : Fin 512) (g : Issue) (d : Fin 16) (a : Fin 32) (b : Fin 32) (s : State) : OutcomeKeeps s.kept (execSput tile g d a b s) := by
  unfold execSput
  refine State.issue_kept _ _ _ _ _ fun c s h => ?_
  repeat' (first | with_reducible rfl | trivial | assumption | exact State.jumpTo_kept _ _ _ _ _ _ (by assumption) | refine readGate_kept _ _ _ _ _ ?_ ?_ | refine runVectors_kept _ _ _ _ _ _ _ _ _ _ ?_ | refine State.gsRun_kept _ _ _ _ _ _ _ _ _ ?_ ?_ | refine State.gsDone_kept _ _ _ _ _ _ _ ?_ | exact State.get_kept _ _ _ _ _ _ _ _ _ (by assumption) | refine State.cairnSend_kept _ _ _ _ _ _ _ _ ?_ ?_ | exact State.settleSend_kept _ _ _ _ _ _ _ _ _ _ _ _ _ _ (by assumption) | exact State.emitExtent_kept _ _ _ _ _ _ _ _ (by assumption) | rw [foldl_kept] | split | intro _ _ | simp only [NtRes.keeps_done, NtRes.keeps_jump, NtRes.keeps_raise, NtRes.keeps_wait, NtRes.keeps_hold, NtRes.keeps_stop, NtRes.keeps_left, State.kept_mk, pending_kept, fuses_kept, live_kept, tileLive_kept, otp_kept, rollback_kept, debugFuse_kept, kept_eta, State.issue_kept, State.fly_kept, State.inject_kept] | rw [apply_ite State.kept])

theorem execSget_keeps (tile : Fin 512) (g : Issue) (d : Fin 16) (a : Fin 32) (b : Fin 32) (pd : Fin 8) (s : State) : OutcomeKeeps s.kept (execSget tile g d a b pd s) := by
  unfold execSget
  refine State.issue_kept _ _ _ _ _ fun c s h => ?_
  repeat' (first | with_reducible rfl | trivial | assumption | exact State.jumpTo_kept _ _ _ _ _ _ (by assumption) | refine readGate_kept _ _ _ _ _ ?_ ?_ | refine runVectors_kept _ _ _ _ _ _ _ _ _ _ ?_ | refine State.gsRun_kept _ _ _ _ _ _ _ _ _ ?_ ?_ | refine State.gsDone_kept _ _ _ _ _ _ _ ?_ | exact State.get_kept _ _ _ _ _ _ _ _ _ (by assumption) | refine State.cairnSend_kept _ _ _ _ _ _ _ _ ?_ ?_ | exact State.settleSend_kept _ _ _ _ _ _ _ _ _ _ _ _ _ _ (by assumption) | exact State.emitExtent_kept _ _ _ _ _ _ _ _ (by assumption) | rw [foldl_kept] | split | intro _ _ | simp only [NtRes.keeps_done, NtRes.keeps_jump, NtRes.keeps_raise, NtRes.keeps_wait, NtRes.keeps_hold, NtRes.keeps_stop, NtRes.keeps_left, State.kept_mk, pending_kept, fuses_kept, live_kept, tileLive_kept, otp_kept, rollback_kept, debugFuse_kept, kept_eta, State.issue_kept] | rw [apply_ite State.kept])

theorem execShzn_keeps (tile : Fin 512) (g : Issue) (d : Fin 16) (s : State) : OutcomeKeeps s.kept (execShzn tile g d s) := by
  unfold execShzn
  refine State.issue_kept _ _ _ _ _ fun c s h => ?_
  repeat' (first | with_reducible rfl | trivial | assumption | exact State.jumpTo_kept _ _ _ _ _ _ (by assumption) | refine readGate_kept _ _ _ _ _ ?_ ?_ | refine runVectors_kept _ _ _ _ _ _ _ _ _ _ ?_ | refine State.gsRun_kept _ _ _ _ _ _ _ _ _ ?_ ?_ | refine State.gsDone_kept _ _ _ _ _ _ _ ?_ | exact State.get_kept _ _ _ _ _ _ _ _ _ (by assumption) | refine State.cairnSend_kept _ _ _ _ _ _ _ _ ?_ ?_ | exact State.settleSend_kept _ _ _ _ _ _ _ _ _ _ _ _ _ _ (by assumption) | exact State.emitExtent_kept _ _ _ _ _ _ _ _ (by assumption) | rw [foldl_kept] | split | intro _ _ | simp only [NtRes.keeps_done, NtRes.keeps_jump, NtRes.keeps_raise, NtRes.keeps_wait, NtRes.keeps_hold, NtRes.keeps_stop, NtRes.keeps_left, State.kept_mk, pending_kept, fuses_kept, live_kept, tileLive_kept, otp_kept, rollback_kept, debugFuse_kept, kept_eta, State.issue_kept, State.inject_kept] | rw [apply_ite State.kept])

theorem State.cairnSend_kept (s : State) (t : Nat) (c : Core) (n : Nat) (body : List Byte) (bad : Bool) (f : Core → State → Key → NtRes) (k : Kept) (h : s.kept = k)
    (hf : ∀ c' s' key, s'.kept = k → NtRes.Keeps k (f c' s' key)) : NtRes.Keeps k (State.cairnSend s t c n body bad f) := by
  unfold State.cairnSend
  repeat' (first | trivial | exact h | split)
  exact hf _ _ _ (by rw [State.inject_kept, h])

theorem State.cairnQueued_kept (s : State) (t : Fin 512) (g : Issue) (r : Fin 16) (opc : Nat) (op : Core → Nat) (bad : Core → Bool) : (State.cairnQueued s t g r opc op bad).kept = s.kept := by
  unfold State.cairnQueued
  refine State.issue_kept _ _ _ _ _ fun c s' h => ?_
  split
  · trivial
  · exact State.cairnSend_kept _ _ _ _ _ _ _ _ h fun c' s'' key e => by simp only [NtRes.Keeps, State.fly_kept, e]

theorem execCwait_keeps (tile : Fin 512) (g : Issue) (c : Fin 16) (a : Fin 32) (b : Fin 32) (s : State) : OutcomeKeeps s.kept (execCwait tile g c a b s) := by
  unfold execCwait
  refine State.issue_kept _ _ _ _ _ fun c s h => ?_
  repeat' (first | with_reducible rfl | trivial | assumption | exact State.jumpTo_kept _ _ _ _ _ _ (by assumption) | refine readGate_kept _ _ _ _ _ ?_ ?_ | refine runVectors_kept _ _ _ _ _ _ _ _ _ _ ?_ | refine State.gsRun_kept _ _ _ _ _ _ _ _ _ ?_ ?_ | refine State.gsDone_kept _ _ _ _ _ _ _ ?_ | exact State.get_kept _ _ _ _ _ _ _ _ _ (by assumption) | refine State.cairnSend_kept _ _ _ _ _ _ _ _ ?_ ?_ | exact State.settleSend_kept _ _ _ _ _ _ _ _ _ _ _ _ _ _ (by assumption) | exact State.emitExtent_kept _ _ _ _ _ _ _ _ (by assumption) | rw [foldl_kept] | split | intro _ _ | simp only [NtRes.keeps_done, NtRes.keeps_jump, NtRes.keeps_raise, NtRes.keeps_wait, NtRes.keeps_hold, NtRes.keeps_stop, NtRes.keeps_left, State.kept_mk, pending_kept, fuses_kept, live_kept, tileLive_kept, otp_kept, rollback_kept, debugFuse_kept, kept_eta, State.issue_kept] | rw [apply_ite State.kept])

theorem execCpost_keeps (tile : Fin 512) (g : Issue) (c : Fin 16) (s : State) : OutcomeKeeps s.kept (execCpost tile g c s) := by
  unfold execCpost
  show State.kept _ = _
  repeat' (first | with_reducible rfl | assumption | rw [foldl_kept] | rw [foldl_fst_kept] | rw [foldl_snd_kept] | with_reducible refine ite_kept _ _ _ _ ?_ ?_ | split | intro _ _ | simp only [State.kept_mk, pending_kept, fuses_kept, live_kept, tileLive_kept, otp_kept, rollback_kept, debugFuse_kept, kept_eta, State.cairnQueued_kept] | rw [apply_ite State.kept])

theorem execCadd_keeps (tile : Fin 512) (g : Issue) (c : Fin 16) (a : Fin 32) (s : State) : OutcomeKeeps s.kept (execCadd tile g c a s) := by
  unfold execCadd
  show State.kept _ = _
  repeat' (first | with_reducible rfl | assumption | rw [foldl_kept] | rw [foldl_fst_kept] | rw [foldl_snd_kept] | with_reducible refine ite_kept _ _ _ _ ?_ ?_ | split | intro _ _ | simp only [State.kept_mk, pending_kept, fuses_kept, live_kept, tileLive_kept, otp_kept, rollback_kept, debugFuse_kept, kept_eta, State.cairnQueued_kept] | rw [apply_ite State.kept])

theorem execCadds_keeps (tile : Fin 512) (g : Issue) (c : Fin 16) (a : Fin 32) (s : State) : OutcomeKeeps s.kept (execCadds tile g c a s) := by
  unfold execCadds
  show State.kept _ = _
  repeat' (first | with_reducible rfl | assumption | rw [foldl_kept] | rw [foldl_fst_kept] | rw [foldl_snd_kept] | with_reducible refine ite_kept _ _ _ _ ?_ ?_ | split | intro _ _ | simp only [State.kept_mk, pending_kept, fuses_kept, live_kept, tileLive_kept, otp_kept, rollback_kept, debugFuse_kept, kept_eta, State.cairnQueued_kept] | rw [apply_ite State.kept])

theorem execCfence_keeps (tile : Fin 512) (g : Issue) (c : Fin 16) (s : State) : OutcomeKeeps s.kept (execCfence tile g c s) := by
  unfold execCfence
  show State.kept _ = _
  repeat' (first | with_reducible rfl | assumption | rw [foldl_kept] | rw [foldl_fst_kept] | rw [foldl_snd_kept] | with_reducible refine ite_kept _ _ _ _ ?_ ?_ | split | intro _ _ | simp only [State.kept_mk, pending_kept, fuses_kept, live_kept, tileLive_kept, otp_kept, rollback_kept, debugFuse_kept, kept_eta, State.cairnQueued_kept] | rw [apply_ite State.kept])

theorem State.settleSend_kept (s : State) (t : Nat) (c : Core) (slot n opc kind : Nat) (b : Fin 32) (pd : Fin 8) (rerun : Bool) (thr con : Nat) (bad : Bool) (k : Kept) (h : s.kept = k) :
    NtRes.Keeps k (State.settleSend s t c slot n opc kind b pd rerun thr con bad) := by
  unfold State.settleSend
  exact State.cairnSend_kept _ _ _ _ _ _ _ _ h fun _ _ _ e => e

theorem execSettleN_keeps (tile : Fin 512) (g : Issue) (a : Fin 32) (b : Fin 32) (pd : Fin 8) (s : State) : OutcomeKeeps s.kept (execSettleN tile g a b pd s) := by
  unfold execSettleN
  refine State.issue_kept _ _ _ _ _ fun c s h => ?_
  repeat' (first | with_reducible rfl | trivial | assumption | exact State.jumpTo_kept _ _ _ _ _ _ (by assumption) | refine readGate_kept _ _ _ _ _ ?_ ?_ | refine runVectors_kept _ _ _ _ _ _ _ _ _ _ ?_ | refine State.gsRun_kept _ _ _ _ _ _ _ _ _ ?_ ?_ | refine State.gsDone_kept _ _ _ _ _ _ _ ?_ | exact State.get_kept _ _ _ _ _ _ _ _ _ (by assumption) | refine State.cairnSend_kept _ _ _ _ _ _ _ _ ?_ ?_ | exact State.settleSend_kept _ _ _ _ _ _ _ _ _ _ _ _ _ _ (by assumption) | exact State.emitExtent_kept _ _ _ _ _ _ _ _ (by assumption) | rw [foldl_kept] | split | intro _ _ | simp only [NtRes.keeps_done, NtRes.keeps_jump, NtRes.keeps_raise, NtRes.keeps_wait, NtRes.keeps_hold, NtRes.keeps_stop, NtRes.keeps_left, State.kept_mk, pending_kept, fuses_kept, live_kept, tileLive_kept, otp_kept, rollback_kept, debugFuse_kept, kept_eta, State.issue_kept] | rw [apply_ite State.kept])

theorem execSettleW_keeps (tile : Fin 512) (g : Issue) (a : Fin 32) (b : Fin 32) (pd : Fin 8) (s : State) : OutcomeKeeps s.kept (execSettleW tile g a b pd s) := by
  unfold execSettleW
  refine State.issue_kept _ _ _ _ _ fun c s h => ?_
  repeat' (first | with_reducible rfl | trivial | assumption | exact State.jumpTo_kept _ _ _ _ _ _ (by assumption) | refine readGate_kept _ _ _ _ _ ?_ ?_ | refine runVectors_kept _ _ _ _ _ _ _ _ _ _ ?_ | refine State.gsRun_kept _ _ _ _ _ _ _ _ _ ?_ ?_ | refine State.gsDone_kept _ _ _ _ _ _ _ ?_ | exact State.get_kept _ _ _ _ _ _ _ _ _ (by assumption) | refine State.cairnSend_kept _ _ _ _ _ _ _ _ ?_ ?_ | exact State.settleSend_kept _ _ _ _ _ _ _ _ _ _ _ _ _ _ (by assumption) | exact State.emitExtent_kept _ _ _ _ _ _ _ _ (by assumption) | rw [foldl_kept] | split | intro _ _ | simp only [NtRes.keeps_done, NtRes.keeps_jump, NtRes.keeps_raise, NtRes.keeps_wait, NtRes.keeps_hold, NtRes.keeps_stop, NtRes.keeps_left, State.kept_mk, pending_kept, fuses_kept, live_kept, tileLive_kept, otp_kept, rollback_kept, debugFuse_kept, kept_eta, State.issue_kept] | rw [apply_ite State.kept])

theorem State.emitExtent_kept (s : State) (t : Nat) (c : Core) (x : Extent) (dest : Place) (regs : Bool) (wrap : State → List Byte → List Byte) (k : Kept) (h : s.kept = k) :
    NtRes.Keeps k (State.emitExtent s t c x dest regs wrap) := by
  unfold State.emitExtent
  split
  · trivial
  · split
    · exact h
    · exact readGate_kept _ _ _ _ _ h fun s' e => by simp only [NtRes.Keeps, State.fly_kept, State.inject_kept, e]

theorem execAct_keeps (tile : Fin 512) (g : Issue) (xa : Fin 16) (s : State) : OutcomeKeeps s.kept (execAct tile g xa s) := by
  unfold execAct
  refine State.issue_kept _ _ _ _ _ fun c s h => ?_
  repeat' (first | with_reducible rfl | trivial | assumption | exact State.jumpTo_kept _ _ _ _ _ _ (by assumption) | refine readGate_kept _ _ _ _ _ ?_ ?_ | refine runVectors_kept _ _ _ _ _ _ _ _ _ _ ?_ | refine State.gsRun_kept _ _ _ _ _ _ _ _ _ ?_ ?_ | refine State.gsDone_kept _ _ _ _ _ _ _ ?_ | exact State.get_kept _ _ _ _ _ _ _ _ _ (by assumption) | refine State.cairnSend_kept _ _ _ _ _ _ _ _ ?_ ?_ | exact State.settleSend_kept _ _ _ _ _ _ _ _ _ _ _ _ _ _ (by assumption) | exact State.emitExtent_kept _ _ _ _ _ _ _ _ (by assumption) | rw [foldl_kept] | split | intro _ _ | simp only [NtRes.keeps_done, NtRes.keeps_jump, NtRes.keeps_raise, NtRes.keeps_wait, NtRes.keeps_hold, NtRes.keeps_stop, NtRes.keeps_left, State.kept_mk, pending_kept, fuses_kept, live_kept, tileLive_kept, otp_kept, rollback_kept, debugFuse_kept, kept_eta, State.issue_kept] | rw [apply_ite State.kept])

theorem execLog_keeps (tile : Fin 512) (g : Issue) (xa : Fin 16) (c : Fin 32) (s : State) : OutcomeKeeps s.kept (execLog tile g xa c s) := by
  unfold execLog
  refine State.issue_kept _ _ _ _ _ fun c s h => ?_
  repeat' (first | with_reducible rfl | trivial | assumption | exact State.jumpTo_kept _ _ _ _ _ _ (by assumption) | refine readGate_kept _ _ _ _ _ ?_ ?_ | refine runVectors_kept _ _ _ _ _ _ _ _ _ _ ?_ | refine State.gsRun_kept _ _ _ _ _ _ _ _ _ ?_ ?_ | refine State.gsDone_kept _ _ _ _ _ _ _ ?_ | exact State.get_kept _ _ _ _ _ _ _ _ _ (by assumption) | refine State.cairnSend_kept _ _ _ _ _ _ _ _ ?_ ?_ | exact State.settleSend_kept _ _ _ _ _ _ _ _ _ _ _ _ _ _ (by assumption) | exact State.emitExtent_kept _ _ _ _ _ _ _ _ (by assumption) | rw [foldl_kept] | split | intro _ _ | simp only [NtRes.keeps_done, NtRes.keeps_jump, NtRes.keeps_raise, NtRes.keeps_wait, NtRes.keeps_hold, NtRes.keeps_stop, NtRes.keeps_left, State.kept_mk, pending_kept, fuses_kept, live_kept, tileLive_kept, otp_kept, rollback_kept, debugFuse_kept, kept_eta, State.issue_kept] | rw [apply_ite State.kept])

theorem execRdcyc_keeps (tile : Fin 512) (g : Issue) (dst : Fin 32) (cycles : Nat) (s : State) : OutcomeKeeps s.kept (execRdcyc tile g dst cycles s) := by
  unfold execRdcyc
  refine State.issue_kept _ _ _ _ _ fun c s h => ?_
  repeat' (first | with_reducible rfl | trivial | assumption | exact State.jumpTo_kept _ _ _ _ _ _ (by assumption) | refine readGate_kept _ _ _ _ _ ?_ ?_ | refine runVectors_kept _ _ _ _ _ _ _ _ _ _ ?_ | refine State.gsRun_kept _ _ _ _ _ _ _ _ _ ?_ ?_ | refine State.gsDone_kept _ _ _ _ _ _ _ ?_ | exact State.get_kept _ _ _ _ _ _ _ _ _ (by assumption) | refine State.cairnSend_kept _ _ _ _ _ _ _ _ ?_ ?_ | exact State.settleSend_kept _ _ _ _ _ _ _ _ _ _ _ _ _ _ (by assumption) | exact State.emitExtent_kept _ _ _ _ _ _ _ _ (by assumption) | rw [foldl_kept] | split | intro _ _ | simp only [NtRes.keeps_done, NtRes.keeps_jump, NtRes.keeps_raise, NtRes.keeps_wait, NtRes.keeps_hold, NtRes.keeps_stop, NtRes.keeps_left, State.kept_mk, pending_kept, fuses_kept, live_kept, tileLive_kept, otp_kept, rollback_kept, debugFuse_kept, kept_eta, State.issue_kept] | rw [apply_ite State.kept])

theorem execRdst_keeps (tile : Fin 512) (g : Issue) (dst : Fin 32) (s : State) : OutcomeKeeps s.kept (execRdst tile g dst s) := by
  unfold execRdst
  refine State.issue_kept _ _ _ _ _ fun c s h => ?_
  repeat' (first | with_reducible rfl | trivial | assumption | exact State.jumpTo_kept _ _ _ _ _ _ (by assumption) | refine readGate_kept _ _ _ _ _ ?_ ?_ | refine runVectors_kept _ _ _ _ _ _ _ _ _ _ ?_ | refine State.gsRun_kept _ _ _ _ _ _ _ _ _ ?_ ?_ | refine State.gsDone_kept _ _ _ _ _ _ _ ?_ | exact State.get_kept _ _ _ _ _ _ _ _ _ (by assumption) | refine State.cairnSend_kept _ _ _ _ _ _ _ _ ?_ ?_ | exact State.settleSend_kept _ _ _ _ _ _ _ _ _ _ _ _ _ _ (by assumption) | exact State.emitExtent_kept _ _ _ _ _ _ _ _ (by assumption) | rw [foldl_kept] | split | intro _ _ | simp only [NtRes.keeps_done, NtRes.keeps_jump, NtRes.keeps_raise, NtRes.keeps_wait, NtRes.keeps_hold, NtRes.keeps_stop, NtRes.keeps_left, State.kept_mk, pending_kept, fuses_kept, live_kept, tileLive_kept, otp_kept, rollback_kept, debugFuse_kept, kept_eta, State.issue_kept] | rw [apply_ite State.kept])

theorem execSpoll_keeps (tile : Fin 512) (g : Issue) (dst : Fin 32) (d : Fin 16) (s : State) : OutcomeKeeps s.kept (execSpoll tile g dst d s) := by
  unfold execSpoll
  refine State.issue_kept _ _ _ _ _ fun c s h => ?_
  repeat' (first | with_reducible rfl | trivial | assumption | exact State.jumpTo_kept _ _ _ _ _ _ (by assumption) | refine readGate_kept _ _ _ _ _ ?_ ?_ | refine runVectors_kept _ _ _ _ _ _ _ _ _ _ ?_ | refine State.gsRun_kept _ _ _ _ _ _ _ _ _ ?_ ?_ | refine State.gsDone_kept _ _ _ _ _ _ _ ?_ | exact State.get_kept _ _ _ _ _ _ _ _ _ (by assumption) | refine State.cairnSend_kept _ _ _ _ _ _ _ _ ?_ ?_ | exact State.settleSend_kept _ _ _ _ _ _ _ _ _ _ _ _ _ _ (by assumption) | exact State.emitExtent_kept _ _ _ _ _ _ _ _ (by assumption) | rw [foldl_kept] | split | intro _ _ | simp only [NtRes.keeps_done, NtRes.keeps_jump, NtRes.keeps_raise, NtRes.keeps_wait, NtRes.keeps_hold, NtRes.keeps_stop, NtRes.keeps_left, State.kept_mk, pending_kept, fuses_kept, live_kept, tileLive_kept, otp_kept, rollback_kept, debugFuse_kept, kept_eta, State.issue_kept] | rw [apply_ite State.kept])

theorem execSgetnb_keeps (tile : Fin 512) (g : Issue) (pd : Fin 8) (d : Fin 16) (a : Fin 32) (b : Fin 32) (s : State) : OutcomeKeeps s.kept (execSgetnb tile g pd d a b s) := by
  unfold execSgetnb
  refine State.issue_kept _ _ _ _ _ fun c s h => ?_
  repeat' (first | with_reducible rfl | trivial | assumption | exact State.jumpTo_kept _ _ _ _ _ _ (by assumption) | refine readGate_kept _ _ _ _ _ ?_ ?_ | refine runVectors_kept _ _ _ _ _ _ _ _ _ _ ?_ | refine State.gsRun_kept _ _ _ _ _ _ _ _ _ ?_ ?_ | refine State.gsDone_kept _ _ _ _ _ _ _ ?_ | exact State.get_kept _ _ _ _ _ _ _ _ _ (by assumption) | refine State.cairnSend_kept _ _ _ _ _ _ _ _ ?_ ?_ | exact State.settleSend_kept _ _ _ _ _ _ _ _ _ _ _ _ _ _ (by assumption) | exact State.emitExtent_kept _ _ _ _ _ _ _ _ (by assumption) | rw [foldl_kept] | split | intro _ _ | simp only [NtRes.keeps_done, NtRes.keeps_jump, NtRes.keeps_raise, NtRes.keeps_wait, NtRes.keeps_hold, NtRes.keeps_stop, NtRes.keeps_left, State.kept_mk, pending_kept, fuses_kept, live_kept, tileLive_kept, otp_kept, rollback_kept, debugFuse_kept, kept_eta, State.issue_kept] | rw [apply_ite State.kept])

theorem execRdstall_keeps (tile : Fin 512) (g : Issue) (dst : Fin 32) (cycles : Nat) (s : State) : OutcomeKeeps s.kept (execRdstall tile g dst cycles s) := by
  unfold execRdstall
  refine State.issue_kept _ _ _ _ _ fun c s h => ?_
  repeat' (first | with_reducible rfl | trivial | assumption | exact State.jumpTo_kept _ _ _ _ _ _ (by assumption) | refine readGate_kept _ _ _ _ _ ?_ ?_ | refine runVectors_kept _ _ _ _ _ _ _ _ _ _ ?_ | refine State.gsRun_kept _ _ _ _ _ _ _ _ _ ?_ ?_ | refine State.gsDone_kept _ _ _ _ _ _ _ ?_ | exact State.get_kept _ _ _ _ _ _ _ _ _ (by assumption) | refine State.cairnSend_kept _ _ _ _ _ _ _ _ ?_ ?_ | exact State.settleSend_kept _ _ _ _ _ _ _ _ _ _ _ _ _ _ (by assumption) | exact State.emitExtent_kept _ _ _ _ _ _ _ _ (by assumption) | rw [foldl_kept] | split | intro _ _ | simp only [NtRes.keeps_done, NtRes.keeps_jump, NtRes.keeps_raise, NtRes.keeps_wait, NtRes.keeps_hold, NtRes.keeps_stop, NtRes.keeps_left, State.kept_mk, pending_kept, fuses_kept, live_kept, tileLive_kept, otp_kept, rollback_kept, debugFuse_kept, kept_eta, State.issue_kept] | rw [apply_ite State.kept])

theorem State.setRow_kept (s : State) (d : Nat) (r : Row) : (State.setRow s d r).kept = s.kept := by
  unfold State.setRow
  repeat' (first | with_reducible rfl | assumption | rw [foldl_kept] | rw [foldl_fst_kept] | rw [foldl_snd_kept] | with_reducible refine ite_kept _ _ _ _ ?_ ?_ | split | intro _ _ | simp only [State.kept_mk, pending_kept, fuses_kept, live_kept, tileLive_kept, otp_kept, rollback_kept, debugFuse_kept, kept_eta] | rw [apply_ite State.kept])

theorem State.wakeRow_kept (s : State) (d : Nat) : (State.wakeRow s d).kept = s.kept := by
  unfold State.wakeRow
  repeat' (first | with_reducible rfl | assumption | rw [foldl_kept] | rw [foldl_fst_kept] | rw [foldl_snd_kept] | with_reducible refine ite_kept _ _ _ _ ?_ ?_ | split | intro _ _ | simp only [State.kept_mk, pending_kept, fuses_kept, live_kept, tileLive_kept, otp_kept, rollback_kept, debugFuse_kept, kept_eta, State.setRow_kept] | rw [apply_ite State.kept])

theorem State.leeLocked_kept (s : State) (a : Nat) : (State.leeLocked s a).kept = s.kept := by
  unfold State.leeLocked
  repeat' (first | with_reducible rfl | assumption | rw [foldl_kept] | rw [foldl_fst_kept] | rw [foldl_snd_kept] | with_reducible refine ite_kept _ _ _ _ ?_ ?_ | split | intro _ _ | simp only [State.kept_mk, pending_kept, fuses_kept, live_kept, tileLive_kept, otp_kept, rollback_kept, debugFuse_kept, kept_eta, State.fault_kept] | rw [apply_ite State.kept])

theorem State.setLee_kept (s : State) (a : Nat) (mask : Word) (v : Word) : (State.setLee s a mask v).kept = s.kept := by
  unfold State.setLee
  repeat' (first | with_reducible rfl | assumption | rw [foldl_kept] | rw [foldl_fst_kept] | rw [foldl_snd_kept] | with_reducible refine ite_kept _ _ _ _ ?_ ?_ | split | intro _ _ | simp only [State.kept_mk, pending_kept, fuses_kept, live_kept, tileLive_kept, otp_kept, rollback_kept, debugFuse_kept, kept_eta] | rw [apply_ite State.kept])

theorem State.holdWrite_kept (s : State) (a : Nat) (mask : Word) (v : Word) : (State.holdWrite s a mask v).kept = s.kept := by
  unfold State.holdWrite
  repeat' (first | with_reducible rfl | assumption | rw [foldl_kept] | rw [foldl_fst_kept] | rw [foldl_snd_kept] | with_reducible refine ite_kept _ _ _ _ ?_ ?_ | split | intro _ _ | simp only [State.kept_mk, pending_kept, fuses_kept, live_kept, tileLive_kept, otp_kept, rollback_kept, debugFuse_kept, kept_eta] | rw [apply_ite State.kept])

theorem State.leeWrite_kept (s : State) (a : Nat) (mask : Word) (v : Word) : (State.leeWrite s a mask v).kept = s.kept := by
  unfold State.leeWrite
  repeat' (first | with_reducible rfl | assumption | rw [foldl_kept] | rw [foldl_fst_kept] | rw [foldl_snd_kept] | with_reducible refine ite_kept _ _ _ _ ?_ ?_ | split | intro _ _ | simp only [State.kept_mk, pending_kept, fuses_kept, live_kept, tileLive_kept, otp_kept, rollback_kept, debugFuse_kept, kept_eta, State.leeLocked_kept, State.holdWrite_kept, State.setLee_kept] | rw [apply_ite State.kept])

theorem State.modHalf_kept (s : State) (t : Nat) (h : Nat) (f : TileBank → TileBank) : (State.modHalf s t h f).kept = s.kept := by
  unfold State.modHalf
  repeat' (first | with_reducible rfl | assumption | rw [foldl_kept] | rw [foldl_fst_kept] | rw [foldl_snd_kept] | with_reducible refine ite_kept _ _ _ _ ?_ ?_ | split | intro _ _ | simp only [State.kept_mk, pending_kept, fuses_kept, live_kept, tileLive_kept, otp_kept, rollback_kept, debugFuse_kept, kept_eta, State.modTile_kept] | rw [apply_ite State.kept])

theorem State.expectLee_kept (s : State) (t : Nat) : (State.expectLee s t).kept = s.kept := by
  unfold State.expectLee
  repeat' (first | with_reducible rfl | assumption | rw [foldl_kept] | rw [foldl_fst_kept] | rw [foldl_snd_kept] | with_reducible refine ite_kept _ _ _ _ ?_ ?_ | split | intro _ _ | simp only [State.kept_mk, pending_kept, fuses_kept, live_kept, tileLive_kept, otp_kept, rollback_kept, debugFuse_kept, kept_eta] | rw [apply_ite State.kept])

theorem State.cbWord_kept (s : State) (t : Nat) (j : Nat) (v : Word) : (State.cbWord s t j v).kept = s.kept := by
  unfold State.cbWord
  repeat' (first | with_reducible rfl | assumption | rw [foldl_kept] | rw [foldl_fst_kept] | rw [foldl_snd_kept] | with_reducible refine ite_kept _ _ _ _ ?_ ?_ | split | intro _ _ | simp only [State.kept_mk, pending_kept, fuses_kept, live_kept, tileLive_kept, otp_kept, rollback_kept, debugFuse_kept, kept_eta, State.expectLee_kept, State.modHalf_kept] | rw [apply_ite State.kept])

theorem State.releaseTile_kept (s : State) (t : Nat) : (State.releaseTile s t).kept = s.kept := by
  unfold State.releaseTile
  repeat' (first | with_reducible rfl | assumption | rw [foldl_kept] | rw [foldl_fst_kept] | rw [foldl_snd_kept] | with_reducible refine ite_kept _ _ _ _ ?_ ?_ | split | intro _ _ | simp only [State.kept_mk, pending_kept, fuses_kept, live_kept, tileLive_kept, otp_kept, rollback_kept, debugFuse_kept, kept_eta, State.cbWord_kept] | rw [apply_ite State.kept])

theorem State.cbWrite_kept (s : State) (t : Nat) (j : Nat) (v : Word) : (State.cbWrite s t j v).kept = s.kept := by
  unfold State.cbWrite
  repeat' (first | with_reducible rfl | assumption | rw [foldl_kept] | rw [foldl_fst_kept] | rw [foldl_snd_kept] | with_reducible refine ite_kept _ _ _ _ ?_ ?_ | split | intro _ _ | simp only [State.kept_mk, pending_kept, fuses_kept, live_kept, tileLive_kept, otp_kept, rollback_kept, debugFuse_kept, kept_eta, State.leeLocked_kept, State.wakeRow_kept, State.setRow_kept, State.holdWrite_kept, State.cbWord_kept] | rw [apply_ite State.kept])

theorem State.setPair_kept (s : State) (a : Nat) (v : Nat) : (State.setPair s a v).kept = s.kept := by
  unfold State.setPair
  repeat' (first | with_reducible rfl | assumption | rw [foldl_kept] | rw [foldl_fst_kept] | rw [foldl_snd_kept] | with_reducible refine ite_kept _ _ _ _ ?_ ?_ | split | intro _ _ | simp only [State.kept_mk, pending_kept, fuses_kept, live_kept, tileLive_kept, otp_kept, rollback_kept, debugFuse_kept, kept_eta, State.setReg_kept] | rw [apply_ite State.kept])

theorem State.startJob_kept (s : State) (t : Nat) (m : StartMsg) : (State.startJob s t m).kept = s.kept := by
  unfold State.startJob
  repeat' (first | with_reducible rfl | assumption | rw [foldl_kept] | rw [foldl_fst_kept] | rw [foldl_snd_kept] | with_reducible refine ite_kept _ _ _ _ ?_ ?_ | split | intro _ _ | simp only [State.kept_mk, pending_kept, fuses_kept, live_kept, tileLive_kept, otp_kept, rollback_kept, debugFuse_kept, kept_eta, State.modTile_kept, State.mark_kept, State.excAt_kept] | rw [apply_ite State.kept])

theorem execJobStart_keeps (tile : Fin 512) (t : Time) (s : State) : OutcomeKeeps s.kept (execJobStart tile t s) := by
  unfold execJobStart
  show State.kept _ = _
  repeat' (first | with_reducible rfl | assumption | rw [foldl_kept] | rw [foldl_fst_kept] | rw [foldl_snd_kept] | with_reducible refine ite_kept _ _ _ _ ?_ ?_ | split | intro _ _ | simp only [State.kept_mk, pending_kept, fuses_kept, live_kept, tileLive_kept, otp_kept, rollback_kept, debugFuse_kept, kept_eta, State.at_kept, State.startJob_kept] | rw [apply_ite State.kept])

theorem execEngineOpComplete_keeps (tile : Fin 512) (engine : Fin 5) (s : State) : OutcomeKeeps s.kept (execEngineOpComplete tile engine s) := by
  unfold execEngineOpComplete
  show State.kept _ = _
  repeat' (first | with_reducible rfl | assumption | rw [foldl_kept] | rw [foldl_fst_kept] | rw [foldl_snd_kept] | with_reducible refine ite_kept _ _ _ _ ?_ ?_ | split | intro _ _ | simp only [State.kept_mk, pending_kept, fuses_kept, live_kept, tileLive_kept, otp_kept, rollback_kept, debugFuse_kept, kept_eta, State.modTile_kept] | rw [apply_ite State.kept])

theorem execScrubRead_keeps (tile : Fin 512) (hits : List EccHit) (t : Time) (s : State) : OutcomeKeeps s.kept (execScrubRead tile hits t s) := by
  unfold execScrubRead
  show State.kept _ = _
  repeat' (first | with_reducible rfl | assumption | rw [foldl_kept] | rw [foldl_fst_kept] | rw [foldl_snd_kept] | with_reducible refine ite_kept _ _ _ _ ?_ ?_ | split | intro _ _ | simp only [State.kept_mk, pending_kept, fuses_kept, live_kept, tileLive_kept, otp_kept, rollback_kept, debugFuse_kept, kept_eta, State.at_kept, State.memUe_kept, State.memCe_kept, State.modTile_kept, State.setReg_kept] | rw [apply_ite State.kept])

theorem execReservoirPatrol_keeps (stack : Fin 8) (hits : List EccHit) (t : Time) (s : State) : OutcomeKeeps s.kept (execReservoirPatrol stack hits t s) := by
  unfold execReservoirPatrol
  show State.kept _ = _
  repeat' (first | with_reducible rfl | assumption | rw [foldl_kept] | rw [foldl_fst_kept] | rw [foldl_snd_kept] | with_reducible refine ite_kept _ _ _ _ ?_ ?_ | split | intro _ _ | simp only [State.kept_mk, pending_kept, fuses_kept, live_kept, tileLive_kept, otp_kept, rollback_kept, debugFuse_kept, kept_eta, State.at_kept, State.resvErr_kept] | rw [apply_ite State.kept])

theorem execTileCbWrite_keeps (tile : Fin 512) (off : Nat) (value : Word) (t : Time) (s : State) : OutcomeKeeps s.kept (execTileCbWrite tile off value t s) := by
  unfold execTileCbWrite
  show State.kept _ = _
  repeat' (first | with_reducible rfl | assumption | rw [foldl_kept] | rw [foldl_fst_kept] | rw [foldl_snd_kept] | with_reducible refine ite_kept _ _ _ _ ?_ ?_ | split | intro _ _ | simp only [State.kept_mk, pending_kept, fuses_kept, live_kept, tileLive_kept, otp_kept, rollback_kept, debugFuse_kept, kept_eta, State.at_kept, State.absentAccess_kept, State.cbWrite_kept] | rw [apply_ite State.kept])

theorem State.cairnStep_kept (s : State) (k : Nat) (r : ApplyOut) : (State.cairnStep s k r).kept = s.kept := by
  unfold State.cairnStep
  repeat' (first | with_reducible rfl | assumption | rw [foldl_kept] | rw [foldl_fst_kept] | rw [foldl_snd_kept] | with_reducible refine ite_kept _ _ _ _ ?_ ?_ | split | intro _ _ | simp only [State.kept_mk, pending_kept, fuses_kept, live_kept, tileLive_kept, otp_kept, rollback_kept, debugFuse_kept, kept_eta, State.applyOut_kept] | rw [apply_ite State.kept])

theorem State.cairnOp_kept (s : State) (k : Nat) (o : COp) : (State.cairnOp s k o).kept = s.kept := by
  unfold State.cairnOp
  repeat' (first | with_reducible rfl | assumption | rw [foldl_kept] | rw [foldl_fst_kept] | rw [foldl_snd_kept] | with_reducible refine ite_kept _ _ _ _ ?_ ?_ | split | intro _ _ | simp only [State.kept_mk, pending_kept, fuses_kept, live_kept, tileLive_kept, otp_kept, rollback_kept, debugFuse_kept, kept_eta, State.cairnStep_kept] | rw [apply_ite State.kept])

theorem State.cairnClose_kept (s : State) (k : Nat) (id : JobId) (prods : List Nat) : (State.cairnClose s k id prods).kept = s.kept := by
  unfold State.cairnClose
  repeat' (first | with_reducible rfl | assumption | rw [foldl_kept] | rw [foldl_fst_kept] | rw [foldl_snd_kept] | with_reducible refine ite_kept _ _ _ _ ?_ ?_ | split | intro _ _ | simp only [State.kept_mk, pending_kept, fuses_kept, live_kept, tileLive_kept, otp_kept, rollback_kept, debugFuse_kept, kept_eta, State.cairnStep_kept] | rw [apply_ite State.kept])

theorem State.cairnBind_kept (s : State) (k : Nat) (b : Binding) : (State.cairnBind s k b).kept = s.kept := by
  unfold State.cairnBind
  repeat' (first | with_reducible rfl | assumption | rw [foldl_kept] | rw [foldl_fst_kept] | rw [foldl_snd_kept] | with_reducible refine ite_kept _ _ _ _ ?_ ?_ | split | intro _ _ | simp only [State.kept_mk, pending_kept, fuses_kept, live_kept, tileLive_kept, otp_kept, rollback_kept, debugFuse_kept, kept_eta, State.cairnStep_kept] | rw [apply_ite State.kept])

theorem execCairnBindMsg_keeps (die : Fin 4) (job : JobId) (admitted : Bool) (end_ : Time) (ranges : List (Nat × Nat)) (sources : Nat) (s : State) : OutcomeKeeps s.kept (execCairnBindMsg die job admitted end_ ranges sources s) := by
  unfold execCairnBindMsg
  show State.kept _ = _
  repeat' (first | with_reducible rfl | assumption | rw [foldl_kept] | rw [foldl_fst_kept] | rw [foldl_snd_kept] | with_reducible refine ite_kept _ _ _ _ ?_ ?_ | split | intro _ _ | simp only [State.kept_mk, pending_kept, fuses_kept, live_kept, tileLive_kept, otp_kept, rollback_kept, debugFuse_kept, kept_eta, State.cairnBind_kept] | rw [apply_ite State.kept])

theorem execCairnAddMsg_keeps (die : Fin 4) (tile : Fin 512) (key : Key) (cairn : Nat) (operand : Word) (s : State) : OutcomeKeeps s.kept (execCairnAddMsg die tile key cairn operand s) := by
  unfold execCairnAddMsg
  show State.kept _ = _
  repeat' (first | with_reducible rfl | assumption | rw [foldl_kept] | rw [foldl_fst_kept] | rw [foldl_snd_kept] | with_reducible refine ite_kept _ _ _ _ ?_ ?_ | split | intro _ _ | simp only [State.kept_mk, pending_kept, fuses_kept, live_kept, tileLive_kept, otp_kept, rollback_kept, debugFuse_kept, kept_eta, State.cairnOp_kept] | rw [apply_ite State.kept])

theorem execCairnAddsMsg_keeps (die : Fin 4) (tile : Fin 512) (key : Key) (cairn : Nat) (operand : Word) (s : State) : OutcomeKeeps s.kept (execCairnAddsMsg die tile key cairn operand s) := by
  unfold execCairnAddsMsg
  show State.kept _ = _
  repeat' (first | with_reducible rfl | assumption | rw [foldl_kept] | rw [foldl_fst_kept] | rw [foldl_snd_kept] | with_reducible refine ite_kept _ _ _ _ ?_ ?_ | split | intro _ _ | simp only [State.kept_mk, pending_kept, fuses_kept, live_kept, tileLive_kept, otp_kept, rollback_kept, debugFuse_kept, kept_eta, State.cairnOp_kept] | rw [apply_ite State.kept])

theorem execCairnFenceMsg_keeps (die : Fin 4) (tile : Fin 512) (key : Key) (cairn : Nat) (s : State) : OutcomeKeeps s.kept (execCairnFenceMsg die tile key cairn s) := by
  unfold execCairnFenceMsg
  show State.kept _ = _
  repeat' (first | with_reducible rfl | assumption | rw [foldl_kept] | rw [foldl_fst_kept] | rw [foldl_snd_kept] | with_reducible refine ite_kept _ _ _ _ ?_ ?_ | split | intro _ _ | simp only [State.kept_mk, pending_kept, fuses_kept, live_kept, tileLive_kept, otp_kept, rollback_kept, debugFuse_kept, kept_eta, State.cairnOp_kept] | rw [apply_ite State.kept])

theorem execCairnWaitMsg_keeps (die : Fin 4) (tile : Fin 512) (key : Key) (cairn : Nat) (target : Word) (s : State) : OutcomeKeeps s.kept (execCairnWaitMsg die tile key cairn target s) := by
  unfold execCairnWaitMsg
  show State.kept _ = _
  repeat' (first | with_reducible rfl | assumption | rw [foldl_kept] | rw [foldl_fst_kept] | rw [foldl_snd_kept] | with_reducible refine ite_kept _ _ _ _ ?_ ?_ | split | intro _ _ | simp only [State.kept_mk, pending_kept, fuses_kept, live_kept, tileLive_kept, otp_kept, rollback_kept, debugFuse_kept, kept_eta, State.cairnOp_kept] | rw [apply_ite State.kept])

theorem execCairnSettleNMsg_keeps (die : Fin 4) (tile : Fin 512) (key : Key) (cairn : Nat) (count : Word) (contrib : Nat) (rerun : Bool) (threshold : Word) (s : State) : OutcomeKeeps s.kept (execCairnSettleNMsg die tile key cairn count contrib rerun threshold s) := by
  unfold execCairnSettleNMsg
  show State.kept _ = _
  repeat' (first | with_reducible rfl | assumption | rw [foldl_kept] | rw [foldl_fst_kept] | rw [foldl_snd_kept] | with_reducible refine ite_kept _ _ _ _ ?_ ?_ | split | intro _ _ | simp only [State.kept_mk, pending_kept, fuses_kept, live_kept, tileLive_kept, otp_kept, rollback_kept, debugFuse_kept, kept_eta, State.cairnOp_kept] | rw [apply_ite State.kept])

theorem execCairnSettleWMsg_keeps (die : Fin 4) (tile : Fin 512) (key : Key) (cairn : Nat) (count : Word) (contrib : Nat) (s : State) : OutcomeKeeps s.kept (execCairnSettleWMsg die tile key cairn count contrib s) := by
  unfold execCairnSettleWMsg
  show State.kept _ = _
  repeat' (first | with_reducible rfl | assumption | rw [foldl_kept] | rw [foldl_fst_kept] | rw [foldl_snd_kept] | with_reducible refine ite_kept _ _ _ _ ?_ ?_ | split | intro _ _ | simp only [State.kept_mk, pending_kept, fuses_kept, live_kept, tileLive_kept, otp_kept, rollback_kept, debugFuse_kept, kept_eta, State.cairnOp_kept] | rw [apply_ite State.kept])

end Sys2Proof.Machine
end

