-- ==== Sys2Proof/Laws/KeptMore.lean ====
section
/-! SUPPORT. Operations and commands that leave the kept part of a state as it is: actuation, admission, inputs, loader, power, host and registers. -/

namespace Sys2Proof.Machine

set_option linter.unusedSimpArgs false
set_option linter.unusedTactic false
set_option linter.unreachableTactic false

theorem execCairnCloseMsg_keeps (die : Fin 4) (job : JobId) (prods : List Nat) (s : State) : OutcomeKeeps s.kept (execCairnCloseMsg die job prods s) := by
  unfold execCairnCloseMsg
  show State.kept _ = _
  repeat' (first | with_reducible rfl | assumption | rw [foldl_kept] | rw [foldl_fst_kept] | rw [foldl_snd_kept] | with_reducible refine ite_kept _ _ _ _ ?_ ?_ | split | intro _ _ | simp only [State.kept_mk, pending_kept, fuses_kept, live_kept, tileLive_kept, otp_kept, rollback_kept, debugFuse_kept, kept_eta, State.cairnClose_kept] | rw [apply_ite State.kept])

theorem State.cairnEcc_kept (s : State) (k : Nat) (cairn : Nat) (ue : Bool) : (State.cairnEcc s k cairn ue).kept = s.kept := by
  unfold State.cairnEcc
  repeat' (first | with_reducible rfl | assumption | rw [foldl_kept] | rw [foldl_fst_kept] | rw [foldl_snd_kept] | with_reducible refine ite_kept _ _ _ _ ?_ ?_ | split | intro _ _ | simp only [State.kept_mk, pending_kept, fuses_kept, live_kept, tileLive_kept, otp_kept, rollback_kept, debugFuse_kept, kept_eta, State.faultThrottled_kept, State.cairnFlag_kept, State.setApply_kept, State.fault_kept] | rw [apply_ite State.kept])

theorem State.cairnPoisonStop_kept (s : State) (k : Nat) (o : COp) : (State.cairnPoisonStop s k o).kept = s.kept := by
  unfold State.cairnPoisonStop
  repeat' (first | with_reducible rfl | assumption | rw [foldl_kept] | rw [foldl_fst_kept] | rw [foldl_snd_kept] | with_reducible refine ite_kept _ _ _ _ ?_ ?_ | split | intro _ _ | simp only [State.kept_mk, pending_kept, fuses_kept, live_kept, tileLive_kept, otp_kept, rollback_kept, debugFuse_kept, kept_eta, State.stopJob_kept, State.stopAll_kept] | rw [apply_ite State.kept])

theorem execCairnApply_keeps (die : Fin 4) (job : JobId) (hits : List EccHit) (t : Time) (s : State) : OutcomeKeeps s.kept (execCairnApply die job hits t s) := by
  unfold execCairnApply
  show State.kept _ = _
  repeat' (first | with_reducible rfl | assumption | rw [foldl_kept] | rw [foldl_fst_kept] | rw [foldl_snd_kept] | with_reducible refine ite_kept _ _ _ _ ?_ ?_ | split | intro _ _ | simp only [State.kept_mk, pending_kept, fuses_kept, live_kept, tileLive_kept, otp_kept, rollback_kept, debugFuse_kept, kept_eta, State.at_kept, State.cairnStep_kept, State.cairnEcc_kept, State.cairnPoisonStop_kept] | rw [apply_ite State.kept])

theorem State.misfit_kept (s : State) (t : Nat) (c : Core) (slot : Nat) (x : Settled) (wide : Option Nat) (cyc : Nat) : (State.misfit s t c slot x wide cyc).kept = s.kept := by
  unfold State.misfit
  repeat' (first | with_reducible rfl | assumption | rw [foldl_kept] | rw [foldl_fst_kept] | rw [foldl_snd_kept] | with_reducible refine ite_kept _ _ _ _ ?_ ?_ | split | intro _ _ | simp only [State.kept_mk, pending_kept, fuses_kept, live_kept, tileLive_kept, otp_kept, rollback_kept, debugFuse_kept, kept_eta, State.countVoid_kept, State.makeRecord_kept, State.count32_kept] | rw [apply_ite State.kept])

theorem State.settleRecord_kept (s : State) (t : Nat) (c : Core) (w : CairnWait) (result : Word) (decision : Bool) (x : Settled) (cyc : Nat) : (State.settleRecord s t c w result decision x cyc).kept = s.kept := by
  unfold State.settleRecord
  repeat' (first | with_reducible rfl | assumption | rw [foldl_kept] | rw [foldl_fst_kept] | rw [foldl_snd_kept] | with_reducible refine ite_kept _ _ _ _ ?_ ?_ | split | intro _ _ | simp only [State.kept_mk, pending_kept, fuses_kept, live_kept, tileLive_kept, otp_kept, rollback_kept, debugFuse_kept, kept_eta, State.misfit_kept] | rw [apply_ite State.kept])

theorem execCairnReply_keeps (tile : Fin 512) (key : Key) (result : Word) (decision : Bool) (cycles : Nat) (t : Time) (s : State) :
    OutcomeKeeps s.kept (execCairnReply tile key result decision cycles t s) := by
  unfold execCairnReply
  show State.kept _ = _
  dsimp only
  repeat' (first | exact State.at_kept _ _ | split)
  refine (State.settle_kept _ _ _ _ ?_).trans (State.at_kept _ _)
  exact State.settleRecord_kept _ _ _ _ _ _ _ _

theorem State.sendSlip_kept (s : State) (c : Nat) (op : Nat) : (State.sendSlip s c op).kept = s.kept := by
  unfold State.sendSlip
  repeat' (first | with_reducible rfl | assumption | rw [foldl_kept] | rw [foldl_fst_kept] | rw [foldl_snd_kept] | with_reducible refine ite_kept _ _ _ _ ?_ ?_ | split | intro _ _ | simp only [State.kept_mk, pending_kept, fuses_kept, live_kept, tileLive_kept, otp_kept, rollback_kept, debugFuse_kept, kept_eta, State.setPort_kept] | rw [apply_ite State.kept])

theorem State.sendChunks_kept (s : State) (c : Nat) (m : SMap Word) : (State.sendChunks s c m).kept = s.kept := by
  unfold State.sendChunks
  repeat' (first | with_reducible rfl | assumption | rw [foldl_kept] | rw [foldl_fst_kept] | rw [foldl_snd_kept] | with_reducible refine ite_kept _ _ _ _ ?_ ?_ | split | intro _ _ | simp only [State.kept_mk, pending_kept, fuses_kept, live_kept, tileLive_kept, otp_kept, rollback_kept, debugFuse_kept, kept_eta, State.setPort_kept] | rw [apply_ite State.kept])

theorem State.slipReply_kept (s : State) (status : Nat) (reason : Nat) : (State.slipReply s status reason).kept = s.kept := by
  unfold State.slipReply
  repeat' (first | with_reducible rfl | assumption | rw [foldl_kept] | rw [foldl_fst_kept] | rw [foldl_snd_kept] | with_reducible refine ite_kept _ _ _ _ ?_ ?_ | split | intro _ _ | simp only [State.kept_mk, pending_kept, fuses_kept, live_kept, tileLive_kept, otp_kept, rollback_kept, debugFuse_kept, kept_eta, State.hpDone_kept] | rw [apply_ite State.kept])

theorem State.slipCount_kept (s : State) (hi : Bool) : (State.slipCount s hi).kept = s.kept := by
  unfold State.slipCount
  repeat' (first | with_reducible rfl | assumption | rw [foldl_kept] | rw [foldl_fst_kept] | rw [foldl_snd_kept] | with_reducible refine ite_kept _ _ _ _ ?_ ?_ | split | intro _ _ | simp only [State.kept_mk, pending_kept, fuses_kept, live_kept, tileLive_kept, otp_kept, rollback_kept, debugFuse_kept, kept_eta, State.setReg_kept] | rw [apply_ite State.kept])

theorem State.slipAbort_kept (s : State) (reason : Nat) (party : Option Party) : (State.slipAbort s reason party).kept = s.kept := by
  unfold State.slipAbort
  repeat' (first | with_reducible rfl | assumption | rw [foldl_kept] | rw [foldl_fst_kept] | rw [foldl_snd_kept] | with_reducible refine ite_kept _ _ _ _ ?_ ?_ | split | intro _ _ | simp only [State.kept_mk, pending_kept, fuses_kept, live_kept, tileLive_kept, otp_kept, rollback_kept, debugFuse_kept, kept_eta, State.sendSlip_kept, State.setReg_kept, State.slipReply_kept, State.slipCount_kept, State.slipFlag_kept] | rw [apply_ite State.kept])

theorem State.partyGone_kept (s : State) (p : Party) : (State.partyGone s p).kept = s.kept := by
  unfold State.partyGone
  repeat' (first | with_reducible rfl | assumption | rw [foldl_kept] | rw [foldl_fst_kept] | rw [foldl_snd_kept] | with_reducible refine ite_kept _ _ _ _ ?_ ?_ | split | intro _ _ | simp only [State.kept_mk, pending_kept, fuses_kept, live_kept, tileLive_kept, otp_kept, rollback_kept, debugFuse_kept, kept_eta, State.slipAbort_kept] | rw [apply_ite State.kept])

theorem State.slipRequest_kept (s : State) (point : Nat) (deadline : Nat) (expect : Nat) (exclude : Nat) : (State.slipRequest s point deadline expect exclude).kept = s.kept := by
  unfold State.slipRequest
  repeat' (first | with_reducible rfl | assumption | rw [foldl_kept] | rw [foldl_fst_kept] | rw [foldl_snd_kept] | with_reducible refine ite_kept _ _ _ _ ?_ ?_ | split | intro _ _ | simp only [State.kept_mk, pending_kept, fuses_kept, live_kept, tileLive_kept, otp_kept, rollback_kept, debugFuse_kept, kept_eta, State.slipFlag_kept, State.sendChunks_kept, State.sendSlip_kept] | rw [apply_ite State.kept])

theorem execSlipPrepareWrite_keeps (value : Word) (t : Time) (s : State) : OutcomeKeeps s.kept (execSlipPrepareWrite value t s) := by
  unfold execSlipPrepareWrite
  show State.kept _ = _
  repeat' (first | with_reducible rfl | assumption | rw [foldl_kept] | rw [foldl_fst_kept] | rw [foldl_snd_kept] | with_reducible refine ite_kept _ _ _ _ ?_ ?_ | split | intro _ _ | simp only [State.kept_mk, pending_kept, fuses_kept, live_kept, tileLive_kept, otp_kept, rollback_kept, debugFuse_kept, kept_eta, State.setReg_kept, State.at_kept, State.slipRequest_kept] | rw [apply_ite State.kept])

theorem execSlipAbortWrite_keeps (t : Time) (s : State) : OutcomeKeeps s.kept (execSlipAbortWrite t s) := by
  unfold execSlipAbortWrite
  show State.kept _ = _
  repeat' (first | with_reducible rfl | assumption | rw [foldl_kept] | rw [foldl_fst_kept] | rw [foldl_snd_kept] | with_reducible refine ite_kept _ _ _ _ ?_ ?_ | split | intro _ _ | simp only [State.kept_mk, pending_kept, fuses_kept, live_kept, tileLive_kept, otp_kept, rollback_kept, debugFuse_kept, kept_eta, State.at_kept, State.slipAbort_kept, State.slipFlag_kept] | rw [apply_ite State.kept])

theorem execPartyPrepare_keeps (party : Party) (id : Nat) (t : Time) (s : State) : OutcomeKeeps s.kept (execPartyPrepare party id t s) := by
  unfold execPartyPrepare
  show State.kept _ = _
  repeat' (first | with_reducible rfl | assumption | rw [foldl_kept] | rw [foldl_fst_kept] | rw [foldl_snd_kept] | with_reducible refine ite_kept _ _ _ _ ?_ ?_ | split | intro _ _ | simp only [State.kept_mk, pending_kept, fuses_kept, live_kept, tileLive_kept, otp_kept, rollback_kept, debugFuse_kept, kept_eta, State.at_kept, State.wakeRow_kept] | rw [apply_ite State.kept])

theorem State.rwlError_kept (s : State) (bank a : Nat) (ue : Bool) : (State.rwlError s bank a ue).kept = s.kept := by
  unfold State.rwlError
  repeat' (first | with_reducible rfl | assumption | rw [foldl_kept] | rw [foldl_fst_kept] | rw [foldl_snd_kept] | with_reducible refine ite_kept _ _ _ _ ?_ ?_ | split | intro _ _ | simp only [State.kept_mk, pending_kept, fuses_kept, live_kept, tileLive_kept, otp_kept, rollback_kept, debugFuse_kept, kept_eta, State.fault_kept, State.faultThrottled_kept] | rw [apply_ite State.kept])

theorem State.rwlReads_kept (s : State) (bank : Nat) (reads : Nat → Bool) (hits : List EccHit) : (State.rwlReads s bank reads hits).kept = s.kept := by
  unfold State.rwlReads
  repeat' (first | with_reducible rfl | assumption | rw [foldl_kept] | rw [foldl_fst_kept] | rw [foldl_snd_kept] | with_reducible refine ite_kept _ _ _ _ ?_ ?_ | split | intro _ _ | simp only [State.kept_mk, pending_kept, fuses_kept, live_kept, tileLive_kept, otp_kept, rollback_kept, debugFuse_kept, kept_eta, State.rwlError_kept] | rw [apply_ite State.kept])

theorem State.leeReads_kept (s : State) (hits : List EccHit) (p : Party) : (State.leeReads s hits p).kept = s.kept := by
  unfold State.leeReads
  repeat' (first | with_reducible rfl | assumption | rw [foldl_kept] | rw [foldl_fst_kept] | rw [foldl_snd_kept] | with_reducible refine ite_kept _ _ _ _ ?_ ?_ | split | intro _ _ | simp only [State.kept_mk, pending_kept, fuses_kept, live_kept, tileLive_kept, otp_kept, rollback_kept, debugFuse_kept, kept_eta, State.rwlReads_kept, State.memUe_kept, State.memCe_kept] | rw [apply_ite State.kept])

theorem execPartyChecksumDone_keeps (party : Party) (id : Nat) (hits : List EccHit) (t : Time) (s : State) : OutcomeKeeps s.kept (execPartyChecksumDone party id hits t s) := by
  unfold execPartyChecksumDone
  show State.kept _ = _
  repeat' (first | with_reducible rfl | assumption | rw [foldl_kept] | rw [foldl_fst_kept] | rw [foldl_snd_kept] | with_reducible refine ite_kept _ _ _ _ ?_ ?_ | split | intro _ _ | simp only [State.kept_mk, pending_kept, fuses_kept, live_kept, tileLive_kept, otp_kept, rollback_kept, debugFuse_kept, kept_eta, State.at_kept, State.setPair_kept, State.leeReads_kept] | rw [apply_ite State.kept])

theorem State.digestStep_kept (s : State) : (State.digestStep s).kept = s.kept := by
  unfold State.digestStep
  repeat' (first | with_reducible rfl | assumption | rw [foldl_kept] | rw [foldl_fst_kept] | rw [foldl_snd_kept] | with_reducible refine ite_kept _ _ _ _ ?_ ?_ | split | intro _ _ | simp only [State.kept_mk, pending_kept, fuses_kept, live_kept, tileLive_kept, otp_kept, rollback_kept, debugFuse_kept, kept_eta] | rw [apply_ite State.kept])

theorem State.armStep_kept (s : State) : (State.armStep s).kept = s.kept := by
  unfold State.armStep
  repeat' (first | with_reducible rfl | assumption | rw [foldl_kept] | rw [foldl_fst_kept] | rw [foldl_snd_kept] | with_reducible refine ite_kept _ _ _ _ ?_ ?_ | split | intro _ _ | simp only [State.kept_mk, pending_kept, fuses_kept, live_kept, tileLive_kept, otp_kept, rollback_kept, debugFuse_kept, kept_eta, State.sendSlip_kept] | rw [apply_ite State.kept])

theorem State.slipAck_kept (s : State) (p : Party) (sum : Nat) : (State.slipAck s p sum).kept = s.kept := by
  have up : ∀ (u : State) (x : Slip), ({ u with slip := x } : State).kept = u.kept := fun _ _ => rfl
  unfold State.slipAck
  split
  · exact State.slipAbort_kept _ _ _
  · dsimp only
    split
    · refine ite_kept _ _ _ _ ?_ ?_
      · rw [State.slipAbort_kept, State.digestStep_kept]; rfl
      · rw [State.armStep_kept, State.digestStep_kept]; rfl
    · rw [State.armStep_kept]; rfl

theorem execPrepareAck_keeps (party : Party) (id : Nat) (sum : Nat) (t : Time) (s : State) : OutcomeKeeps s.kept (execPrepareAck party id sum t s) := by
  unfold execPrepareAck
  show State.kept _ = _
  repeat' (first | with_reducible rfl | assumption | rw [foldl_kept] | rw [foldl_fst_kept] | rw [foldl_snd_kept] | with_reducible refine ite_kept _ _ _ _ ?_ ?_ | split | intro _ _ | simp only [State.kept_mk, pending_kept, fuses_kept, live_kept, tileLive_kept, otp_kept, rollback_kept, debugFuse_kept, kept_eta, State.at_kept, State.slipAbort_kept, State.slipAck_kept] | rw [apply_ite State.kept])

theorem execPrepareNack_keeps (party : Party) (id : Nat) (reason : Nat) (t : Time) (s : State) : OutcomeKeeps s.kept (execPrepareNack party id reason t s) := by
  unfold execPrepareNack
  show State.kept _ = _
  repeat' (first | with_reducible rfl | assumption | rw [foldl_kept] | rw [foldl_fst_kept] | rw [foldl_snd_kept] | with_reducible refine ite_kept _ _ _ _ ?_ ?_ | split | intro _ _ | simp only [State.kept_mk, pending_kept, fuses_kept, live_kept, tileLive_kept, otp_kept, rollback_kept, debugFuse_kept, kept_eta, State.at_kept, State.slipAbort_kept] | rw [apply_ite State.kept])

theorem execSlipPrepareTimeout_keeps (t : Time) (s : State) : OutcomeKeeps s.kept (execSlipPrepareTimeout t s) := by
  unfold execSlipPrepareTimeout
  show State.kept _ = _
  repeat' (first | with_reducible rfl | assumption | rw [foldl_kept] | rw [foldl_fst_kept] | rw [foldl_snd_kept] | with_reducible refine ite_kept _ _ _ _ ?_ ?_ | split | intro _ _ | simp only [State.kept_mk, pending_kept, fuses_kept, live_kept, tileLive_kept, otp_kept, rollback_kept, debugFuse_kept, kept_eta, State.at_kept, State.slipAbort_kept] | rw [apply_ite State.kept])

theorem execPartyCommit_keeps (party : Party) (id : Nat) (t : Time) (s : State) : OutcomeKeeps s.kept (execPartyCommit party id t s) := by
  unfold execPartyCommit
  show State.kept _ = _
  repeat' (first | with_reducible rfl | assumption | rw [foldl_kept] | rw [foldl_fst_kept] | rw [foldl_snd_kept] | with_reducible refine ite_kept _ _ _ _ ?_ ?_ | split | intro _ _ | simp only [State.kept_mk, pending_kept, fuses_kept, live_kept, tileLive_kept, otp_kept, rollback_kept, debugFuse_kept, kept_eta, State.at_kept, State.modHalf_kept] | rw [apply_ite State.kept])

theorem execCommitAckReceive_keeps (party : Party) (id : Nat) (t : Time) (s : State) : OutcomeKeeps s.kept (execCommitAckReceive party id t s) := by
  unfold execCommitAckReceive
  show State.kept _ = _
  repeat' (first | with_reducible rfl | assumption | rw [foldl_kept] | rw [foldl_fst_kept] | rw [foldl_snd_kept] | with_reducible refine ite_kept _ _ _ _ ?_ ?_ | split | intro _ _ | simp only [State.kept_mk, pending_kept, fuses_kept, live_kept, tileLive_kept, otp_kept, rollback_kept, debugFuse_kept, kept_eta, State.at_kept] | rw [apply_ite State.kept])

theorem execSlipArmTimeout_keeps (t : Time) (s : State) : OutcomeKeeps s.kept (execSlipArmTimeout t s) := by
  unfold execSlipArmTimeout
  show State.kept _ = _
  repeat' (first | with_reducible rfl | assumption | rw [foldl_kept] | rw [foldl_fst_kept] | rw [foldl_snd_kept] | with_reducible refine ite_kept _ _ _ _ ?_ ?_ | split | intro _ _ | simp only [State.kept_mk, pending_kept, fuses_kept, live_kept, tileLive_kept, otp_kept, rollback_kept, debugFuse_kept, kept_eta, State.at_kept, State.slipAbort_kept] | rw [apply_ite State.kept])

theorem execPartyAbort_keeps (party : Party) (id : Nat) (t : Time) (s : State) : OutcomeKeeps s.kept (execPartyAbort party id t s) := by
  unfold execPartyAbort
  show State.kept _ = _
  repeat' (first | with_reducible rfl | assumption | rw [foldl_kept] | rw [foldl_fst_kept] | rw [foldl_snd_kept] | with_reducible refine ite_kept _ _ _ _ ?_ ?_ | split | intro _ _ | simp only [State.kept_mk, pending_kept, fuses_kept, live_kept, tileLive_kept, otp_kept, rollback_kept, debugFuse_kept, kept_eta, State.at_kept] | rw [apply_ite State.kept])

theorem State.noteChip_kept (s : State) (p : Nat) (st : Stamp) : (State.noteChip s p st).kept = s.kept := by
  unfold State.noteChip
  repeat' (first | with_reducible rfl | assumption | rw [foldl_kept] | rw [foldl_fst_kept] | rw [foldl_snd_kept] | with_reducible refine ite_kept _ _ _ _ ?_ ?_ | split | intro _ _ | simp only [State.kept_mk, pending_kept, fuses_kept, live_kept, tileLive_kept, otp_kept, rollback_kept, debugFuse_kept, kept_eta, State.setPort_kept] | rw [apply_ite State.kept])

theorem State.unseat_kept (s : State) (c : Nat) : (State.unseat s c).kept = s.kept := by
  unfold State.unseat
  repeat' (first | with_reducible rfl | assumption | rw [foldl_kept] | rw [foldl_fst_kept] | rw [foldl_snd_kept] | with_reducible refine ite_kept _ _ _ _ ?_ ?_ | split | intro _ _ | simp only [State.kept_mk, pending_kept, fuses_kept, live_kept, tileLive_kept, otp_kept, rollback_kept, debugFuse_kept, kept_eta, State.fault_kept, State.slipFlag_kept, State.noteChip_kept, State.setPort_kept, State.sendChunks_kept] | rw [apply_ite State.kept])

theorem State.tileSlips_kept (s : State) (t : Nat) : (State.tileSlips s t).kept = s.kept := by
  unfold State.tileSlips
  repeat' (first | with_reducible rfl | assumption | rw [foldl_kept] | rw [foldl_fst_kept] | rw [foldl_snd_kept] | with_reducible refine ite_kept _ _ _ _ ?_ ?_ | split | intro _ _ | simp only [State.kept_mk, pending_kept, fuses_kept, live_kept, tileLive_kept, otp_kept, rollback_kept, debugFuse_kept, kept_eta, State.setReg_kept, State.setPair_kept, State.modTile_kept] | rw [apply_ite State.kept])

theorem State.mesaSlips_kept (s : State) (d : Nat) : (State.mesaSlips s d).kept = s.kept := by
  unfold State.mesaSlips
  repeat' (first | with_reducible rfl | assumption | rw [foldl_kept] | rw [foldl_fst_kept] | rw [foldl_snd_kept] | with_reducible refine ite_kept _ _ _ _ ?_ ?_ | split | intro _ _ | simp only [State.kept_mk, pending_kept, fuses_kept, live_kept, tileLive_kept, otp_kept, rollback_kept, debugFuse_kept, kept_eta] | rw [apply_ite State.kept])

theorem execSlipPoint_keeps (t : Time) (s : State) : OutcomeKeeps s.kept (execSlipPoint t s) := by
  unfold execSlipPoint
  show State.kept _ = _
  repeat' (first | with_reducible rfl | assumption | rw [foldl_kept] | rw [foldl_fst_kept] | rw [foldl_snd_kept] | with_reducible refine ite_kept _ _ _ _ ?_ ?_ | split | intro _ _ | simp only [State.kept_mk, pending_kept, fuses_kept, live_kept, tileLive_kept, otp_kept, rollback_kept, debugFuse_kept, kept_eta, State.at_kept, State.tileSlips_kept, State.mesaSlips_kept, State.slipReply_kept, State.slipCount_kept, State.slipFlag_kept, State.unseat_kept] | rw [apply_ite State.kept])

theorem State.reclaim_kept (s : State) (id : JobId) (tiles : List Nat) (unit : Nat) : (State.reclaim s id tiles unit).kept = s.kept := by
  unfold State.reclaim
  repeat' (first | with_reducible rfl | assumption | rw [foldl_kept] | rw [foldl_fst_kept] | rw [foldl_snd_kept] | with_reducible refine ite_kept _ _ _ _ ?_ ?_ | split | intro _ _ | simp only [State.kept_mk, pending_kept, fuses_kept, live_kept, tileLive_kept, otp_kept, rollback_kept, debugFuse_kept, kept_eta, State.tileFlag_kept, State.stopJob_kept] | rw [apply_ite State.kept])

theorem State.retireTile_kept (s : State) (t : Nat) : (State.retireTile s t).kept = s.kept := by
  unfold State.retireTile
  repeat' (first | with_reducible rfl | assumption | rw [foldl_kept] | rw [foldl_fst_kept] | rw [foldl_snd_kept] | with_reducible refine ite_kept _ _ _ _ ?_ ?_ | split | intro _ _ | simp only [State.kept_mk, pending_kept, fuses_kept, live_kept, tileLive_kept, otp_kept, rollback_kept, debugFuse_kept, kept_eta, State.modTile_kept, State.setReg_kept] | rw [apply_ite State.kept])

theorem execTileBankRetireEnd_keeps (tile : Fin 512) (lee : Bool) (t : Time) (s : State) : OutcomeKeeps s.kept (execTileBankRetireEnd tile lee t s) := by
  unfold execTileBankRetireEnd
  show State.kept _ = _
  repeat' (first | with_reducible rfl | assumption | rw [foldl_kept] | rw [foldl_fst_kept] | rw [foldl_snd_kept] | with_reducible refine ite_kept _ _ _ _ ?_ ?_ | split | intro _ _ | simp only [State.kept_mk, pending_kept, fuses_kept, live_kept, tileLive_kept, otp_kept, rollback_kept, debugFuse_kept, kept_eta, State.at_kept, State.retireTile_kept, State.reclaim_kept] | rw [apply_ite State.kept])

theorem execMesaBankRetireEnd_keeps (die : Fin 2) (t : Time) (s : State) : OutcomeKeeps s.kept (execMesaBankRetireEnd die t s) := by
  unfold execMesaBankRetireEnd
  show State.kept _ = _
  repeat' (first | with_reducible rfl | assumption | rw [foldl_kept] | rw [foldl_fst_kept] | rw [foldl_snd_kept] | with_reducible refine ite_kept _ _ _ _ ?_ ?_ | split | intro _ _ | simp only [State.kept_mk, pending_kept, fuses_kept, live_kept, tileLive_kept, otp_kept, rollback_kept, debugFuse_kept, kept_eta, State.at_kept] | rw [apply_ite State.kept])

theorem execSlipReclaimTimeout_keeps (job : JobId) (t : Time) (s : State) : OutcomeKeeps s.kept (execSlipReclaimTimeout job t s) := by
  unfold execSlipReclaimTimeout
  show State.kept _ = _
  repeat' (first | with_reducible rfl | assumption | rw [foldl_kept] | rw [foldl_fst_kept] | rw [foldl_snd_kept] | with_reducible refine ite_kept _ _ _ _ ?_ ?_ | split | intro _ _ | simp only [State.kept_mk, pending_kept, fuses_kept, live_kept, tileLive_kept, otp_kept, rollback_kept, debugFuse_kept, kept_eta, State.at_kept, State.reclaim_kept] | rw [apply_ite State.kept])

theorem State.refreshTile_kept (s : State) (t : Nat) : (State.refreshTile s t).kept = s.kept := by
  unfold State.refreshTile
  repeat' (first | with_reducible rfl | assumption | rw [foldl_kept] | rw [foldl_fst_kept] | rw [foldl_snd_kept] | with_reducible refine ite_kept _ _ _ _ ?_ ?_ | split | intro _ _ | simp only [State.kept_mk, pending_kept, fuses_kept, live_kept, tileLive_kept, otp_kept, rollback_kept, debugFuse_kept, kept_eta, State.modTile_kept, State.releaseTile_kept] | rw [apply_ite State.kept])

theorem State.refreshMesa_kept (s : State) (d : Nat) : (State.refreshMesa s d).kept = s.kept := by
  unfold State.refreshMesa
  repeat' (first | with_reducible rfl | assumption | rw [foldl_kept] | rw [foldl_fst_kept] | rw [foldl_snd_kept] | with_reducible refine ite_kept _ _ _ _ ?_ ?_ | split | intro _ _ | simp only [State.kept_mk, pending_kept, fuses_kept, live_kept, tileLive_kept, otp_kept, rollback_kept, debugFuse_kept, kept_eta, State.setLee_kept] | rw [apply_ite State.kept])

theorem execLeeRefreshDone_keeps (party : Party) (t : Time) (s : State) : OutcomeKeeps s.kept (execLeeRefreshDone party t s) := by
  unfold execLeeRefreshDone
  show State.kept _ = _
  repeat' (first | with_reducible rfl | assumption | rw [foldl_kept] | rw [foldl_fst_kept] | rw [foldl_snd_kept] | with_reducible refine ite_kept _ _ _ _ ?_ ?_ | split | intro _ _ | simp only [State.kept_mk, pending_kept, fuses_kept, live_kept, tileLive_kept, otp_kept, rollback_kept, debugFuse_kept, kept_eta, State.at_kept, State.refreshTile_kept, State.refreshMesa_kept] | rw [apply_ite State.kept])

theorem execLeeChunkRetransmit_keeps (port : Fin 4) (chunk : Fin 32) (t : Time) (s : State) : OutcomeKeeps s.kept (execLeeChunkRetransmit port chunk t s) := by
  unfold execLeeChunkRetransmit
  show State.kept _ = _
  repeat' (first | with_reducible rfl | assumption | rw [foldl_kept] | rw [foldl_fst_kept] | rw [foldl_snd_kept] | with_reducible refine ite_kept _ _ _ _ ?_ ?_ | split | intro _ _ | simp only [State.kept_mk, pending_kept, fuses_kept, live_kept, tileLive_kept, otp_kept, rollback_kept, debugFuse_kept, kept_eta, State.at_kept, State.setPort_kept] | rw [apply_ite State.kept])

theorem State.modCycle_kept (s : State) (id : JobId) (f : Cycle → Cycle) : (State.modCycle s id f).kept = s.kept := by
  unfold State.modCycle
  repeat' (first | with_reducible rfl | assumption | rw [foldl_kept] | rw [foldl_fst_kept] | rw [foldl_snd_kept] | with_reducible refine ite_kept _ _ _ _ ?_ ?_ | split | intro _ _ | simp only [State.kept_mk, pending_kept, fuses_kept, live_kept, tileLive_kept, otp_kept, rollback_kept, debugFuse_kept, kept_eta] | rw [apply_ite State.kept])

theorem State.decision_kept (s : State) (c : Cycle) (n : Nat) (verdict : Nat) (reason : Nat) (ev : List Byte) : (State.decision s c n verdict reason ev).kept = s.kept := by
  unfold State.decision
  repeat' (first | with_reducible rfl | assumption | rw [foldl_kept] | rw [foldl_fst_kept] | rw [foldl_snd_kept] | with_reducible refine ite_kept _ _ _ _ ?_ ?_ | split | intro _ _ | simp only [State.kept_mk, pending_kept, fuses_kept, live_kept, tileLive_kept, otp_kept, rollback_kept, debugFuse_kept, kept_eta, State.countVoid_kept, State.makeRecord_kept, State.count32_kept, State.actFlag_kept] | rw [apply_ite State.kept])

theorem State.sendEvent_kept (s : State) (id : JobId) (die : Nat) (e : ActEvent) : (State.sendEvent s id die e).kept = s.kept := by
  unfold State.sendEvent
  repeat' (first | with_reducible rfl | assumption | rw [foldl_kept] | rw [foldl_fst_kept] | rw [foldl_snd_kept] | with_reducible refine ite_kept _ _ _ _ ?_ ?_ | split | intro _ _ | simp only [State.kept_mk, pending_kept, fuses_kept, live_kept, tileLive_kept, otp_kept, rollback_kept, debugFuse_kept, kept_eta, State.setPort_kept] | rw [apply_ite State.kept])

theorem State.runDefault_kept (s : State) (c : Cycle) (skip : Option Nat) (direct : Bool) : (State.runDefault s c skip direct).kept = s.kept := by
  unfold State.runDefault
  repeat' (first | with_reducible rfl | assumption | rw [foldl_kept] | rw [foldl_fst_kept] | rw [foldl_snd_kept] | with_reducible refine ite_kept _ _ _ _ ?_ ?_ | split | intro _ _ | simp only [State.kept_mk, pending_kept, fuses_kept, live_kept, tileLive_kept, otp_kept, rollback_kept, debugFuse_kept, kept_eta, State.modCycle_kept, State.sendEvent_kept] | rw [apply_ite State.kept])

theorem State.finish_kept (s : State) (id : JobId) (verdict : Nat) (reason : Nat) (skip : Option Nat) (direct : Bool) : (State.finish s id verdict reason skip direct).kept = s.kept := by
  unfold State.finish
  repeat' (first | with_reducible rfl | assumption | rw [foldl_kept] | rw [foldl_fst_kept] | rw [foldl_snd_kept] | with_reducible refine ite_kept _ _ _ _ ?_ ?_ | split | intro _ _ | simp only [State.kept_mk, pending_kept, fuses_kept, live_kept, tileLive_kept, otp_kept, rollback_kept, debugFuse_kept, kept_eta, State.runDefault_kept, State.modCycle_kept, State.decision_kept] | rw [apply_ite State.kept])

theorem State.append_kept (s : State) (id : JobId) (verdict : Nat) (reason : Nat) (ev : ActEvent) (skip : Option Nat) : (State.append s id verdict reason ev skip).kept = s.kept := by
  unfold State.append
  repeat' (first | with_reducible rfl | assumption | rw [foldl_kept] | rw [foldl_fst_kept] | rw [foldl_snd_kept] | with_reducible refine ite_kept _ _ _ _ ?_ ?_ | split | intro _ _ | simp only [State.kept_mk, pending_kept, fuses_kept, live_kept, tileLive_kept, otp_kept, rollback_kept, debugFuse_kept, kept_eta, State.runDefault_kept, State.modCycle_kept, State.decision_kept] | rw [apply_ite State.kept])

theorem State.eventLost_kept (s : State) (e : DflEvent) (verdict : Nat) (reason : Nat) : (State.eventLost s e verdict reason).kept = s.kept := by
  unfold State.eventLost
  repeat' (first | with_reducible rfl | assumption | rw [foldl_kept] | rw [foldl_fst_kept] | rw [foldl_snd_kept] | with_reducible refine ite_kept _ _ _ _ ?_ ?_ | split | intro _ _ | simp only [State.kept_mk, pending_kept, fuses_kept, live_kept, tileLive_kept, otp_kept, rollback_kept, debugFuse_kept, kept_eta, State.modCycle_kept, State.finish_kept, State.append_kept] | rw [apply_ite State.kept])

theorem State.abandon_kept (s : State) (p : Nat) (eid : Nat) : (State.abandon s p eid).kept = s.kept := by
  unfold State.abandon
  repeat' (first | with_reducible rfl | assumption | rw [foldl_kept] | rw [foldl_fst_kept] | rw [foldl_snd_kept] | with_reducible refine ite_kept _ _ _ _ ?_ ?_ | split | intro _ _ | simp only [State.kept_mk, pending_kept, fuses_kept, live_kept, tileLive_kept, otp_kept, rollback_kept, debugFuse_kept, kept_eta, State.setPort_kept, State.eventLost_kept] | rw [apply_ite State.kept])

theorem State.sendOrAbandon_kept (s : State) (c : Cycle) (e : ActEvent) : (State.sendOrAbandon s c e).kept = s.kept := by
  unfold State.sendOrAbandon
  repeat' (first | with_reducible rfl | assumption | rw [foldl_kept] | rw [foldl_fst_kept] | rw [foldl_snd_kept] | with_reducible refine ite_kept _ _ _ _ ?_ ?_ | split | intro _ _ | simp only [State.kept_mk, pending_kept, fuses_kept, live_kept, tileLive_kept, otp_kept, rollback_kept, debugFuse_kept, kept_eta, State.sendEvent_kept, State.abandon_kept] | rw [apply_ite State.kept])

theorem State.bankRun_kept (s : State) : (State.bankRun s).kept = s.kept := by
  unfold State.bankRun
  repeat' (first | with_reducible rfl | assumption | rw [foldl_kept] | rw [foldl_fst_kept] | rw [foldl_snd_kept] | with_reducible refine ite_kept _ _ _ _ ?_ ?_ | split | intro _ _ | simp only [State.kept_mk, pending_kept, fuses_kept, live_kept, tileLive_kept, otp_kept, rollback_kept, debugFuse_kept, kept_eta, State.sendOrAbandon_kept, State.modCycle_kept] | rw [apply_ite State.kept])

theorem State.resolve_kept (s : State) (id : JobId) (verdict : Nat) (reason : Nat) : (State.resolve s id verdict reason).kept = s.kept := by
  unfold State.resolve
  repeat' (first | with_reducible rfl | assumption | rw [foldl_kept] | rw [foldl_fst_kept] | rw [foldl_snd_kept] | with_reducible refine ite_kept _ _ _ _ ?_ ?_ | split | intro _ _ | simp only [State.kept_mk, pending_kept, fuses_kept, live_kept, tileLive_kept, otp_kept, rollback_kept, debugFuse_kept, kept_eta, State.bankRun_kept, State.finish_kept] | rw [apply_ite State.kept])

theorem State.commitIn_kept (s : State) (die : Nat) (key : Key) (void : Nat) (body : List Byte) : (State.commitIn s die key void body).kept = s.kept := by
  unfold State.commitIn
  repeat' (first | with_reducible rfl | assumption | rw [foldl_kept] | rw [foldl_fst_kept] | rw [foldl_snd_kept] | with_reducible refine ite_kept _ _ _ _ ?_ ?_ | split | intro _ _ | simp only [State.kept_mk, pending_kept, fuses_kept, live_kept, tileLive_kept, otp_kept, rollback_kept, debugFuse_kept, kept_eta, State.actFlag_kept, State.modCycle_kept] | rw [apply_ite State.kept])

theorem execCommitReceive_keeps (die : Fin 2) (key : Key) (void : Nat) (body : List Byte) (t : Time) (s : State) : OutcomeKeeps s.kept (execCommitReceive die key void body t s) := by
  unfold execCommitReceive
  show State.kept _ = _
  repeat' (first | with_reducible rfl | assumption | rw [foldl_kept] | rw [foldl_fst_kept] | rw [foldl_snd_kept] | with_reducible refine ite_kept _ _ _ _ ?_ ?_ | split | intro _ _ | simp only [State.kept_mk, pending_kept, fuses_kept, live_kept, tileLive_kept, otp_kept, rollback_kept, debugFuse_kept, kept_eta, State.commitIn_kept, State.at_kept] | rw [apply_ite State.kept])

theorem State.commitCheck_kept (s : State) (c : Cycle) (m : CommitMsg) : (State.commitCheck s c m).kept = s.kept := by
  unfold State.commitCheck
  repeat' (first | with_reducible rfl | assumption | rw [foldl_kept] | rw [foldl_fst_kept] | rw [foldl_snd_kept] | with_reducible refine ite_kept _ _ _ _ ?_ ?_ | split | intro _ _ | simp only [State.kept_mk, pending_kept, fuses_kept, live_kept, tileLive_kept, otp_kept, rollback_kept, debugFuse_kept, kept_eta, State.resolve_kept, State.modCycle_kept, State.bankRun_kept, State.sendOrAbandon_kept] | rw [apply_ite State.kept])

theorem execCommitCheck_keeps (stamp : Stamp) (t : Time) (s : State) : OutcomeKeeps s.kept (execCommitCheck stamp t s) := by
  unfold execCommitCheck
  show State.kept _ = _
  repeat' (first | with_reducible rfl | assumption | rw [foldl_kept] | rw [foldl_fst_kept] | rw [foldl_snd_kept] | with_reducible refine ite_kept _ _ _ _ ?_ ?_ | split | intro _ _ | simp only [State.kept_mk, pending_kept, fuses_kept, live_kept, tileLive_kept, otp_kept, rollback_kept, debugFuse_kept, kept_eta, State.at_kept, State.commitCheck_kept] | rw [apply_ite State.kept])

theorem execDeadlineExpiry_keeps (stamp : Stamp) (t : Time) (s : State) : OutcomeKeeps s.kept (execDeadlineExpiry stamp t s) := by
  unfold execDeadlineExpiry
  show State.kept _ = _
  repeat' (first | with_reducible rfl | assumption | rw [foldl_kept] | rw [foldl_fst_kept] | rw [foldl_snd_kept] | with_reducible refine ite_kept _ _ _ _ ?_ ?_ | split | intro _ _ | simp only [State.kept_mk, pending_kept, fuses_kept, live_kept, tileLive_kept, otp_kept, rollback_kept, debugFuse_kept, kept_eta, State.at_kept, State.resolve_kept] | rw [apply_ite State.kept])

theorem execDflFrameSend_keeps (port : Fin 4) (t : Time) (s : State) : OutcomeKeeps s.kept (execDflFrameSend port t s) := by
  unfold execDflFrameSend
  show State.kept _ = _
  repeat' (first | with_reducible rfl | assumption | rw [foldl_kept] | rw [foldl_fst_kept] | rw [foldl_snd_kept] | with_reducible refine ite_kept _ _ _ _ ?_ ?_ | split | intro _ _ | simp only [State.kept_mk, pending_kept, fuses_kept, live_kept, tileLive_kept, otp_kept, rollback_kept, debugFuse_kept, kept_eta, State.at_kept, State.setPort_kept] | rw [apply_ite State.kept])

theorem execDflTimeTick_keeps (port : Fin 4) (t : Time) (s : State) : OutcomeKeeps s.kept (execDflTimeTick port t s) := by
  unfold execDflTimeTick
  show State.kept _ = _
  repeat' (first | with_reducible rfl | assumption | rw [foldl_kept] | rw [foldl_fst_kept] | rw [foldl_snd_kept] | with_reducible refine ite_kept _ _ _ _ ?_ ?_ | split | intro _ _ | simp only [State.kept_mk, pending_kept, fuses_kept, live_kept, tileLive_kept, otp_kept, rollback_kept, debugFuse_kept, kept_eta, State.at_kept, State.setPort_kept] | rw [apply_ite State.kept])

theorem State.linkDown_kept (s : State) (p : Nat) (at_ : Time) (cond : Nat) : (State.linkDown s p at_ cond).kept = s.kept := by
  unfold State.linkDown
  repeat' (first | with_reducible rfl | assumption | rw [foldl_kept] | rw [foldl_fst_kept] | rw [foldl_snd_kept] | with_reducible refine ite_kept _ _ _ _ ?_ ?_ | split | intro _ _ | simp only [State.kept_mk, pending_kept, fuses_kept, live_kept, tileLive_kept, otp_kept, rollback_kept, debugFuse_kept, kept_eta, State.noteChip_kept, State.setPort_kept, State.fault_kept, State.logInput_kept, State.actFlag_kept, State.partyGone_kept, State.bankRun_kept, State.abandon_kept] | rw [apply_ite State.kept])

theorem execDflFrameDiscard_keeps (port : Fin 4) (t : Time) (s : State) : OutcomeKeeps s.kept (execDflFrameDiscard port t s) := by
  unfold execDflFrameDiscard
  show State.kept _ = _
  repeat' (first | with_reducible rfl | assumption | rw [foldl_kept] | rw [foldl_fst_kept] | rw [foldl_snd_kept] | with_reducible refine ite_kept _ _ _ _ ?_ ?_ | split | intro _ _ | simp only [State.kept_mk, pending_kept, fuses_kept, live_kept, tileLive_kept, otp_kept, rollback_kept, debugFuse_kept, kept_eta, State.at_kept, State.setPort_kept, State.faultThrottled_kept] | rw [apply_ite State.kept])

theorem execDflSilenceTimeout_keeps (port : Fin 4) (t : Time) (s : State) : OutcomeKeeps s.kept (execDflSilenceTimeout port t s) := by
  unfold execDflSilenceTimeout
  show State.kept _ = _
  repeat' (first | with_reducible rfl | assumption | rw [foldl_kept] | rw [foldl_fst_kept] | rw [foldl_snd_kept] | with_reducible refine ite_kept _ _ _ _ ?_ ?_ | split | intro _ _ | simp only [State.kept_mk, pending_kept, fuses_kept, live_kept, tileLive_kept, otp_kept, rollback_kept, debugFuse_kept, kept_eta, State.at_kept, State.linkDown_kept] | rw [apply_ite State.kept])

theorem execDflAlignLossTimeout_keeps (port : Fin 4) (since : Time) (t : Time) (s : State) : OutcomeKeeps s.kept (execDflAlignLossTimeout port since t s) := by
  unfold execDflAlignLossTimeout
  show State.kept _ = _
  repeat' (first | with_reducible rfl | assumption | rw [foldl_kept] | rw [foldl_fst_kept] | rw [foldl_snd_kept] | with_reducible refine ite_kept _ _ _ _ ?_ ?_ | split | intro _ _ | simp only [State.kept_mk, pending_kept, fuses_kept, live_kept, tileLive_kept, otp_kept, rollback_kept, debugFuse_kept, kept_eta, State.at_kept, State.linkDown_kept] | rw [apply_ite State.kept])

theorem execDflDiscardCount_keeps (port : Fin 4) (t : Time) (s : State) : OutcomeKeeps s.kept (execDflDiscardCount port t s) := by
  unfold execDflDiscardCount
  show State.kept _ = _
  repeat' (first | with_reducible rfl | assumption | rw [foldl_kept] | rw [foldl_fst_kept] | rw [foldl_snd_kept] | with_reducible refine ite_kept _ _ _ _ ?_ ?_ | split | intro _ _ | simp only [State.kept_mk, pending_kept, fuses_kept, live_kept, tileLive_kept, otp_kept, rollback_kept, debugFuse_kept, kept_eta, State.at_kept, State.linkDown_kept] | rw [apply_ite State.kept])

theorem State.seat_kept (s : State) (p : Nat) : (State.seat s p).kept = s.kept := by
  unfold State.seat
  repeat' (first | with_reducible rfl | assumption | rw [foldl_kept] | rw [foldl_fst_kept] | rw [foldl_snd_kept] | with_reducible refine ite_kept _ _ _ _ ?_ ?_ | split | intro _ _ | simp only [State.kept_mk, pending_kept, fuses_kept, live_kept, tileLive_kept, otp_kept, rollback_kept, debugFuse_kept, kept_eta, State.setPort_kept, State.noteChip_kept, State.sendReg_kept] | rw [apply_ite State.kept])

theorem State.compare_kept (s : State) (p : Nat) : (State.compare s p).kept = s.kept := by
  unfold State.compare
  repeat' (first | with_reducible rfl | assumption | rw [foldl_kept] | rw [foldl_fst_kept] | rw [foldl_snd_kept] | with_reducible refine ite_kept _ _ _ _ ?_ ?_ | split | intro _ _ | simp only [State.kept_mk, pending_kept, fuses_kept, live_kept, tileLive_kept, otp_kept, rollback_kept, debugFuse_kept, kept_eta, State.seat_kept, State.unseat_kept] | rw [apply_ite State.kept])

theorem execDflLinkUp_keeps (port : Fin 4) (t : Time) (s : State) : OutcomeKeeps s.kept (execDflLinkUp port t s) := by
  unfold execDflLinkUp
  show State.kept _ = _
  repeat' (first | with_reducible rfl | assumption | rw [foldl_kept] | rw [foldl_fst_kept] | rw [foldl_snd_kept] | with_reducible refine ite_kept _ _ _ _ ?_ ?_ | split | intro _ _ | simp only [State.kept_mk, pending_kept, fuses_kept, live_kept, tileLive_kept, otp_kept, rollback_kept, debugFuse_kept, kept_eta, State.at_kept, State.noteChip_kept, State.setPort_kept, State.logInput_kept, State.sendChunks_kept, State.compare_kept] | rw [apply_ite State.kept])

theorem State.validFrame_kept (s : State) (p : Nat) : (State.validFrame s p).kept = s.kept := by
  unfold State.validFrame
  repeat' (first | with_reducible rfl | assumption | rw [foldl_kept] | rw [foldl_fst_kept] | rw [foldl_snd_kept] | with_reducible refine ite_kept _ _ _ _ ?_ ?_ | split | intro _ _ | simp only [State.kept_mk, pending_kept, fuses_kept, live_kept, tileLive_kept, otp_kept, rollback_kept, debugFuse_kept, kept_eta, State.setPort_kept] | rw [apply_ite State.kept])

theorem State.statusFrame_kept (s : State) (p : Nat) (body : List Byte) : (State.statusFrame s p body).kept = s.kept := by
  unfold State.statusFrame
  repeat' (first | with_reducible rfl | assumption | rw [foldl_kept] | rw [foldl_fst_kept] | rw [foldl_snd_kept] | with_reducible refine ite_kept _ _ _ _ ?_ ?_ | split | intro _ _ | simp only [State.kept_mk, pending_kept, fuses_kept, live_kept, tileLive_kept, otp_kept, rollback_kept, debugFuse_kept, kept_eta, State.validFrame_kept, State.setPort_kept] | rw [apply_ite State.kept])

theorem State.chipEvent_kept (s : State) (p : Nat) (st : Stamp) (held : Nat) : (State.chipEvent s p st held).kept = s.kept := by
  unfold State.chipEvent
  repeat' (first | with_reducible rfl | assumption | rw [foldl_kept] | rw [foldl_fst_kept] | rw [foldl_snd_kept] | with_reducible refine ite_kept _ _ _ _ ?_ ?_ | split | intro _ _ | simp only [State.kept_mk, pending_kept, fuses_kept, live_kept, tileLive_kept, otp_kept, rollback_kept, debugFuse_kept, kept_eta, State.noteChip_kept, State.setPort_kept] | rw [apply_ite State.kept])

theorem execStatusEventReceive_keeps (port : Fin 4) (body : List Byte) (t : Time) (s : State) : OutcomeKeeps s.kept (execStatusEventReceive port body t s) := by
  unfold execStatusEventReceive
  show State.kept _ = _
  repeat' (first | with_reducible rfl | assumption | rw [foldl_kept] | rw [foldl_fst_kept] | rw [foldl_snd_kept] | with_reducible refine ite_kept _ _ _ _ ?_ ?_ | split | intro _ _ | simp only [State.kept_mk, pending_kept, fuses_kept, live_kept, tileLive_kept, otp_kept, rollback_kept, debugFuse_kept, kept_eta, State.at_kept, State.statusFrame_kept, State.logInput_kept, State.chipEvent_kept] | rw [apply_ite State.kept])

theorem execStatusPeriodicReceive_keeps (port : Fin 4) (body : List Byte) (t : Time) (s : State) : OutcomeKeeps s.kept (execStatusPeriodicReceive port body t s) := by
  unfold execStatusPeriodicReceive
  show State.kept _ = _
  repeat' (first | with_reducible rfl | assumption | rw [foldl_kept] | rw [foldl_fst_kept] | rw [foldl_snd_kept] | with_reducible refine ite_kept _ _ _ _ ?_ ?_ | split | intro _ _ | simp only [State.kept_mk, pending_kept, fuses_kept, live_kept, tileLive_kept, otp_kept, rollback_kept, debugFuse_kept, kept_eta, State.at_kept, State.statusFrame_kept] | rw [apply_ite State.kept])

theorem execStatusIdentReceive_keeps (port : Fin 4) (body : List Byte) (t : Time) (s : State) : OutcomeKeeps s.kept (execStatusIdentReceive port body t s) := by
  unfold execStatusIdentReceive
  show State.kept _ = _
  repeat' (first | with_reducible rfl | assumption | rw [foldl_kept] | rw [foldl_fst_kept] | rw [foldl_snd_kept] | with_reducible refine ite_kept _ _ _ _ ?_ ?_ | split | intro _ _ | simp only [State.kept_mk, pending_kept, fuses_kept, live_kept, tileLive_kept, otp_kept, rollback_kept, debugFuse_kept, kept_eta, State.at_kept, State.statusFrame_kept, State.setPort_kept, State.noteChip_kept, State.compare_kept] | rw [apply_ite State.kept])

theorem State.replyIn_kept (s : State) (p : Nat) (eid : Nat) (result : Nat) (time : Nat) : (State.replyIn s p eid result time).kept = s.kept := by
  unfold State.replyIn
  repeat' (first | with_reducible rfl | assumption | rw [foldl_kept] | rw [foldl_fst_kept] | rw [foldl_snd_kept] | with_reducible refine ite_kept _ _ _ _ ?_ ?_ | split | intro _ _ | simp only [State.kept_mk, pending_kept, fuses_kept, live_kept, tileLive_kept, otp_kept, rollback_kept, debugFuse_kept, kept_eta, State.setPort_kept, State.logInput_kept, State.finish_kept, State.bankRun_kept, State.eventLost_kept] | rw [apply_ite State.kept])

theorem execReplyReceive_keeps (port : Fin 4) (eid : Nat) (result : Nat) (time : Time) (t : Time) (s : State) : OutcomeKeeps s.kept (execReplyReceive port eid result time t s) := by
  unfold execReplyReceive
  show State.kept _ = _
  repeat' (first | with_reducible rfl | assumption | rw [foldl_kept] | rw [foldl_fst_kept] | rw [foldl_snd_kept] | with_reducible refine ite_kept _ _ _ _ ?_ ?_ | split | intro _ _ | simp only [State.kept_mk, pending_kept, fuses_kept, live_kept, tileLive_kept, otp_kept, rollback_kept, debugFuse_kept, kept_eta, State.at_kept, State.validFrame_kept, State.replyIn_kept] | rw [apply_ite State.kept])

theorem execEventRetransmit_keeps (port : Fin 4) (eid : Nat) (t : Time) (s : State) : OutcomeKeeps s.kept (execEventRetransmit port eid t s) := by
  unfold execEventRetransmit
  show State.kept _ = _
  repeat' (first | with_reducible rfl | assumption | rw [foldl_kept] | rw [foldl_fst_kept] | rw [foldl_snd_kept] | with_reducible refine ite_kept _ _ _ _ ?_ ?_ | split | intro _ _ | simp only [State.kept_mk, pending_kept, fuses_kept, live_kept, tileLive_kept, otp_kept, rollback_kept, debugFuse_kept, kept_eta, State.at_kept, State.setPort_kept] | rw [apply_ite State.kept])

theorem execEventAbandon_keeps (port : Fin 4) (eid : Nat) (t : Time) (s : State) : OutcomeKeeps s.kept (execEventAbandon port eid t s) := by
  unfold execEventAbandon
  show State.kept _ = _
  repeat' (first | with_reducible rfl | assumption | rw [foldl_kept] | rw [foldl_fst_kept] | rw [foldl_snd_kept] | with_reducible refine ite_kept _ _ _ _ ?_ ?_ | split | intro _ _ | simp only [State.kept_mk, pending_kept, fuses_kept, live_kept, tileLive_kept, otp_kept, rollback_kept, debugFuse_kept, kept_eta, State.at_kept, State.bankRun_kept, State.abandon_kept] | rw [apply_ite State.kept])

theorem State.ruleWrite_kept (s : State) (die : Nat) (rule : Nat) (word : Nat) (value : Word) : (State.ruleWrite s die rule word value).kept = s.kept := by
  unfold State.ruleWrite
  repeat' (first | with_reducible rfl | assumption | rw [foldl_kept] | rw [foldl_fst_kept] | rw [foldl_snd_kept] | with_reducible refine ite_kept _ _ _ _ ?_ ?_ | split | intro _ _ | simp only [State.kept_mk, pending_kept, fuses_kept, live_kept, tileLive_kept, otp_kept, rollback_kept, debugFuse_kept, kept_eta, State.absentAccess_kept, State.actFlag_kept, State.leeWrite_kept] | rw [apply_ite State.kept])

theorem execReflexRuleWrite_keeps (die : Fin 2) (rule : Fin 64) (word : Fin 3) (value : Word) (s : State) : OutcomeKeeps s.kept (execReflexRuleWrite die rule word value s) := by
  unfold execReflexRuleWrite
  show State.kept _ = _
  repeat' (first | with_reducible rfl | assumption | rw [foldl_kept] | rw [foldl_fst_kept] | rw [foldl_snd_kept] | with_reducible refine ite_kept _ _ _ _ ?_ ?_ | split | intro _ _ | simp only [State.kept_mk, pending_kept, fuses_kept, live_kept, tileLive_kept, otp_kept, rollback_kept, debugFuse_kept, kept_eta, State.ruleWrite_kept, State.absentAccess_kept] | rw [apply_ite State.kept])

theorem State.launch_kept (s : State) (die : Nat) (rule : Nat) (old : Bool) (falling : Bool) (sentinel : Bool) (stamp : Stamp) (w1 : Word) (w2 : Word) : (State.launch s die rule old falling sentinel stamp w1 w2).kept = s.kept := by
  unfold State.launch
  repeat' (first | with_reducible rfl | assumption | rw [foldl_kept] | rw [foldl_fst_kept] | rw [foldl_snd_kept] | with_reducible refine ite_kept _ _ _ _ ?_ ?_ | split | intro _ _ | simp only [State.kept_mk, pending_kept, fuses_kept, live_kept, tileLive_kept, otp_kept, rollback_kept, debugFuse_kept, kept_eta, State.setPort_kept, State.makeRecord_kept] | rw [apply_ite State.kept])

theorem State.reflex_kept (s : State) (die : Nat) (source : ReflexSource) (falling : Bool) (stamp : Stamp) (levels : Nat) : (State.reflex s die source falling stamp levels).kept = s.kept := by
  unfold State.reflex
  repeat' (first | with_reducible rfl | assumption | rw [foldl_kept] | rw [foldl_fst_kept] | rw [foldl_snd_kept] | with_reducible refine ite_kept _ _ _ _ ?_ ?_ | split | intro _ _ | simp only [State.kept_mk, pending_kept, fuses_kept, live_kept, tileLive_kept, otp_kept, rollback_kept, debugFuse_kept, kept_eta, State.launch_kept] | rw [apply_ite State.kept])

theorem State.takeSentinel_kept (s : State) (source : ReflexSource) (falling : Bool) (stamp : Stamp) : (State.takeSentinel s source falling stamp).kept = s.kept := by
  unfold State.takeSentinel
  repeat' (first | with_reducible rfl | assumption | rw [foldl_kept] | rw [foldl_fst_kept] | rw [foldl_snd_kept] | with_reducible refine ite_kept _ _ _ _ ?_ ?_ | split | intro _ _ | simp only [State.kept_mk, pending_kept, fuses_kept, live_kept, tileLive_kept, otp_kept, rollback_kept, debugFuse_kept, kept_eta] | rw [apply_ite State.kept])

theorem execReflexLaunch_keeps (die : Fin 2) (source : ReflexSource) (falling : Bool) (stamp : Stamp) (levels : Nat) (hits : List EccHit) (t : Time) (s : State) : OutcomeKeeps s.kept (execReflexLaunch die source falling stamp levels hits t s) := by
  unfold execReflexLaunch
  show State.kept _ = _
  repeat' (first | with_reducible rfl | assumption | rw [foldl_kept] | rw [foldl_fst_kept] | rw [foldl_snd_kept] | with_reducible refine ite_kept _ _ _ _ ?_ ?_ | split | intro _ _ | simp only [State.kept_mk, pending_kept, fuses_kept, live_kept, tileLive_kept, otp_kept, rollback_kept, debugFuse_kept, kept_eta, State.at_kept, State.reflex_kept, State.takeSentinel_kept, State.rwlReads_kept] | rw [apply_ite State.kept])

theorem execActRegGo_keeps (port : Fin 4) (write : Bool) (off : Nat) (value : Word) (t : Time) (s : State) : OutcomeKeeps s.kept (execActRegGo port write off value t s) := by
  unfold execActRegGo
  show State.kept _ = _
  repeat' (first | with_reducible rfl | assumption | rw [foldl_kept] | rw [foldl_fst_kept] | rw [foldl_snd_kept] | with_reducible refine ite_kept _ _ _ _ ?_ ?_ | split | intro _ _ | simp only [State.kept_mk, pending_kept, fuses_kept, live_kept, tileLive_kept, otp_kept, rollback_kept, debugFuse_kept, kept_eta, State.at_kept, State.absentAccess_kept, State.setFlag_kept, State.setReg_kept, State.setPort_kept] | rw [apply_ite State.kept])

theorem execRegDataReceive_keeps (port : Fin 4) (tag : Nat) (result : Nat) (off : Nat) (value : Word) (t : Time) (s : State) : OutcomeKeeps s.kept (execRegDataReceive port tag result off value t s) := by
  unfold execRegDataReceive
  show State.kept _ = _
  repeat' (first | with_reducible rfl | assumption | rw [foldl_kept] | rw [foldl_fst_kept] | rw [foldl_snd_kept] | with_reducible refine ite_kept _ _ _ _ ?_ ?_ | split | intro _ _ | simp only [State.kept_mk, pending_kept, fuses_kept, live_kept, tileLive_kept, otp_kept, rollback_kept, debugFuse_kept, kept_eta, State.at_kept, State.validFrame_kept, State.setReg_kept, State.setPort_kept, State.setFlag_kept] | rw [apply_ite State.kept])

theorem execActRegTimeout_keeps (port : Fin 4) (t : Time) (s : State) : OutcomeKeeps s.kept (execActRegTimeout port t s) := by
  unfold execActRegTimeout
  show State.kept _ = _
  repeat' (first | with_reducible rfl | assumption | rw [foldl_kept] | rw [foldl_fst_kept] | rw [foldl_snd_kept] | with_reducible refine ite_kept _ _ _ _ ?_ ?_ | split | intro _ _ | simp only [State.kept_mk, pending_kept, fuses_kept, live_kept, tileLive_kept, otp_kept, rollback_kept, debugFuse_kept, kept_eta, State.at_kept, State.setFlag_kept, State.setPort_kept] | rw [apply_ite State.kept])

theorem State.noteMiss_kept (s : State) (w : Want) : (State.noteMiss s w).kept = s.kept := by
  have fl : ∀ (u : State) (b : Nat), (u.setFlag 0x400000 b).kept = u.kept := fun u b => State.setFlag_kept u _ b
  unfold State.noteMiss
  rw [foldl_kept _ _ _ fun u n => State.setReg_kept u _ _]
  have h1 : ∀ (b : Prop) [Decidable b] (u : State) (n : Nat), u.kept = s.kept → (if b then u else u.setFlag 0x400000 n).kept = s.kept :=
    fun b _ u n h => ite_kept _ _ _ _ h ((fl u n).trans h)
  have h2 : ∀ (b : Prop) [Decidable b] (u : State) (n : Nat), u.kept = s.kept → (if b then u.setFlag 0x400000 n else u).kept = s.kept :=
    fun b _ u n h => ite_kept _ _ _ _ ((fl u n).trans h) h
  dsimp only
  split
  · exact h2 _ _ _ (h1 _ _ _ (h1 _ _ _ (fl _ _)))
  · exact h1 _ _ _ (fl _ _)

theorem State.notePeak_kept (s : State) : (State.notePeak s).kept = s.kept := by
  unfold State.notePeak
  repeat' (first | with_reducible rfl | assumption | rw [foldl_kept] | rw [foldl_fst_kept] | rw [foldl_snd_kept] | with_reducible refine ite_kept _ _ _ _ ?_ ?_ | split | intro _ _ | simp only [State.kept_mk, pending_kept, fuses_kept, live_kept, tileLive_kept, otp_kept, rollback_kept, debugFuse_kept, kept_eta, State.setReg_kept] | rw [apply_ite State.kept])

theorem State.startTiles_kept (s : State) (id : JobId) : (State.startTiles s id).kept = s.kept := by
  unfold State.startTiles
  repeat' (first | with_reducible rfl | assumption | rw [foldl_kept] | rw [foldl_fst_kept] | rw [foldl_snd_kept] | with_reducible refine ite_kept _ _ _ _ ?_ ?_ | split | intro _ _ | simp only [State.kept_mk, pending_kept, fuses_kept, live_kept, tileLive_kept, otp_kept, rollback_kept, debugFuse_kept, kept_eta, State.modJob_kept, State.wakeRow_kept, State.modTile_kept] | rw [apply_ite State.kept])

theorem State.beginJob_kept (s : State) (j : Job) (c : Option Cycle) : (State.beginJob s j c).kept = s.kept := by
  unfold State.beginJob
  repeat' (first | with_reducible rfl | assumption | rw [foldl_kept] | rw [foldl_fst_kept] | rw [foldl_snd_kept] | with_reducible refine ite_kept _ _ _ _ ?_ ?_ | split | intro _ _ | simp only [State.kept_mk, pending_kept, fuses_kept, live_kept, tileLive_kept, otp_kept, rollback_kept, debugFuse_kept, kept_eta, State.notePeak_kept, State.count32_kept, State.setFlag_kept, State.inject_kept, State.startTiles_kept] | rw [apply_ite State.kept])

theorem State.takeEvent_kept (s : State) (die : Fin 2) (st : Stamp) : (State.takeEvent s die st).kept = s.kept := by
  unfold State.takeEvent
  repeat' (first | with_reducible rfl | assumption | rw [foldl_kept] | rw [foldl_fst_kept] | rw [foldl_snd_kept] | with_reducible refine ite_kept _ _ _ _ ?_ ?_ | split | intro _ _ | simp only [State.kept_mk, pending_kept, fuses_kept, live_kept, tileLive_kept, otp_kept, rollback_kept, debugFuse_kept, kept_eta] | rw [apply_ite State.kept])

theorem State.refuseCycle_kept (s : State) (c : Cycle) (reason : Nat) : (State.refuseCycle s c reason).kept = s.kept := by
  unfold State.refuseCycle
  repeat' (first | with_reducible rfl | assumption | rw [foldl_kept] | rw [foldl_fst_kept] | rw [foldl_snd_kept] | with_reducible refine ite_kept _ _ _ _ ?_ ?_ | split | intro _ _ | simp only [State.kept_mk, pending_kept, fuses_kept, live_kept, tileLive_kept, otp_kept, rollback_kept, debugFuse_kept, kept_eta, State.setFlag_kept, State.count32_kept, State.resolve_kept] | rw [apply_ite State.kept])

theorem State.admitCycle_kept (s : State) (die : Nat) (cls : Nat) (st : Stamp) (item : Item) : (State.admitCycle s die cls st item).kept = s.kept := by
  unfold State.admitCycle
  repeat' (first | with_reducible rfl | assumption | rw [foldl_kept] | rw [foldl_fst_kept] | rw [foldl_snd_kept] | with_reducible refine ite_kept _ _ _ _ ?_ ?_ | split | intro _ _ | simp only [State.kept_mk, pending_kept, fuses_kept, live_kept, tileLive_kept, otp_kept, rollback_kept, debugFuse_kept, kept_eta, State.logInput_kept, State.noteMiss_kept, State.beginJob_kept, State.refuseCycle_kept] | rw [apply_ite State.kept])

theorem execCycleAdmission_keeps (die : Fin 2) (stamp : Stamp) (hits : List EccHit) (t : Time) (s : State) : OutcomeKeeps s.kept (execCycleAdmission die stamp hits t s) := by
  unfold execCycleAdmission
  show State.kept _ = _
  repeat' (first | with_reducible rfl | assumption | rw [foldl_kept] | rw [foldl_fst_kept] | rw [foldl_snd_kept] | with_reducible refine ite_kept _ _ _ _ ?_ ?_ | split | intro _ _ | simp only [State.kept_mk, pending_kept, fuses_kept, live_kept, tileLive_kept, otp_kept, rollback_kept, debugFuse_kept, kept_eta, State.at_kept, State.takeEvent_kept, State.admitCycle_kept, State.rwlReads_kept] | rw [apply_ite State.kept])

theorem State.frameResolved_kept (s : State) (st : Stamp) (damaged : Bool) : (State.frameResolved s st damaged).kept = s.kept := by
  unfold State.frameResolved
  repeat' (first | with_reducible rfl | assumption | rw [foldl_kept] | rw [foldl_fst_kept] | rw [foldl_snd_kept] | with_reducible refine ite_kept _ _ _ _ ?_ ?_ | split | intro _ _ | simp only [State.kept_mk, pending_kept, fuses_kept, live_kept, tileLive_kept, otp_kept, rollback_kept, debugFuse_kept, kept_eta, State.modJob_kept, State.startTiles_kept] | rw [apply_ite State.kept])

theorem State.frameGate_kept (s : State) (die : Fin 2) (st : Stamp) : (State.frameGate s die st).kept = s.kept := by
  unfold State.frameGate
  repeat' (first | with_reducible rfl | assumption | rw [foldl_kept] | rw [foldl_fst_kept] | rw [foldl_snd_kept] | with_reducible refine ite_kept _ _ _ _ ?_ ?_ | split | intro _ _ | simp only [State.kept_mk, pending_kept, fuses_kept, live_kept, tileLive_kept, otp_kept, rollback_kept, debugFuse_kept, kept_eta, State.frameResolved_kept] | rw [apply_ite State.kept])

theorem execFrameJobAdmission_keeps (die : Fin 2) (stamp : Stamp) (t : Time) (s : State) : OutcomeKeeps s.kept (execFrameJobAdmission die stamp t s) := by
  unfold execFrameJobAdmission
  show State.kept _ = _
  repeat' (first | with_reducible rfl | assumption | rw [foldl_kept] | rw [foldl_fst_kept] | rw [foldl_snd_kept] | with_reducible refine ite_kept _ _ _ _ ?_ ?_ | split | intro _ _ | simp only [State.kept_mk, pending_kept, fuses_kept, live_kept, tileLive_kept, otp_kept, rollback_kept, debugFuse_kept, kept_eta, State.at_kept, State.takeEvent_kept, State.noteMiss_kept, State.frameGate_kept, State.beginJob_kept, State.count32_kept] | rw [apply_ite State.kept])

theorem State.sendHeader_kept (s : State) (j : Job) (body : List Byte) : (State.sendHeader s j body).kept = s.kept := by
  unfold State.sendHeader
  repeat' (first | with_reducible rfl | assumption | rw [foldl_kept] | rw [foldl_fst_kept] | rw [foldl_snd_kept] | with_reducible refine ite_kept _ _ _ _ ?_ ?_ | split | intro _ _ | simp only [State.kept_mk, pending_kept, fuses_kept, live_kept, tileLive_kept, otp_kept, rollback_kept, debugFuse_kept, kept_eta, State.inject_kept] | rw [apply_ite State.kept])

theorem State.beginHost_kept (s : State) (c : HpCmd) (j : Job) : (State.beginHost s c j).kept = s.kept := by
  unfold State.beginHost
  repeat' (first | with_reducible rfl | assumption | rw [foldl_kept] | rw [foldl_fst_kept] | rw [foldl_snd_kept] | with_reducible refine ite_kept _ _ _ _ ?_ ?_ | split | intro _ _ | simp only [State.kept_mk, pending_kept, fuses_kept, live_kept, tileLive_kept, otp_kept, rollback_kept, debugFuse_kept, kept_eta, State.sendHeader_kept, State.beginJob_kept] | rw [apply_ite State.kept])

theorem execHostJobAdmission_keeps (t : Time) (s : State) : OutcomeKeeps s.kept (execHostJobAdmission t s) := by
  unfold execHostJobAdmission
  show State.kept _ = _
  repeat' (first | with_reducible rfl | assumption | rw [foldl_kept] | rw [foldl_fst_kept] | rw [foldl_snd_kept] | with_reducible refine ite_kept _ _ _ _ ?_ ?_ | split | intro _ _ | simp only [State.kept_mk, pending_kept, fuses_kept, live_kept, tileLive_kept, otp_kept, rollback_kept, debugFuse_kept, kept_eta, State.at_kept, State.logInput_kept, State.noteMiss_kept, State.beginHost_kept, State.hpDone_kept, State.count32_kept] | rw [apply_ite State.kept])

theorem State.closeSet_kept (s : State) (c : Cycle) : (State.closeSet s c).kept = s.kept := by
  unfold State.closeSet
  repeat' (first | with_reducible rfl | assumption | rw [foldl_kept] | rw [foldl_fst_kept] | rw [foldl_snd_kept] | with_reducible refine ite_kept _ _ _ _ ?_ ?_ | split | intro _ _ | simp only [State.kept_mk, pending_kept, fuses_kept, live_kept, tileLive_kept, otp_kept, rollback_kept, debugFuse_kept, kept_eta, State.modCycle_kept, State.mark_kept] | rw [apply_ite State.kept])

theorem execInputSetClosure_keeps (die : Fin 2) (stamp : Stamp) (t : Time) (s : State) : OutcomeKeeps s.kept (execInputSetClosure die stamp t s) := by
  unfold execInputSetClosure
  show State.kept _ = _
  repeat' (first | with_reducible rfl | assumption | rw [foldl_kept] | rw [foldl_fst_kept] | rw [foldl_snd_kept] | with_reducible refine ite_kept _ _ _ _ ?_ ?_ | split | intro _ _ | simp only [State.kept_mk, pending_kept, fuses_kept, live_kept, tileLive_kept, otp_kept, rollback_kept, debugFuse_kept, kept_eta, State.at_kept, State.closeSet_kept] | rw [apply_ite State.kept])

theorem execReservationEnd_keeps (job : JobId) (t : Time) (s : State) : OutcomeKeeps s.kept (execReservationEnd job t s) := by
  unfold execReservationEnd
  show State.kept _ = _
  repeat' (first | with_reducible rfl | assumption | rw [foldl_kept] | rw [foldl_fst_kept] | rw [foldl_snd_kept] | with_reducible refine ite_kept _ _ _ _ ?_ ?_ | split | intro _ _ | simp only [State.kept_mk, pending_kept, fuses_kept, live_kept, tileLive_kept, otp_kept, rollback_kept, debugFuse_kept, kept_eta, State.at_kept, State.modJob_kept, State.stopJob_kept, State.flowFlag_kept] | rw [apply_ite State.kept])

theorem State.portArrive_kept (s : State) (t : Nat) (kind : Nat) (stream : Nat) (src : Nat) (i : Item) : (State.portArrive s t kind stream src i).kept = s.kept := by
  unfold State.portArrive
  repeat' (first | with_reducible rfl | assumption | rw [foldl_kept] | rw [foldl_fst_kept] | rw [foldl_snd_kept] | with_reducible refine ite_kept _ _ _ _ ?_ ?_ | split | intro _ _ | simp only [State.kept_mk, pending_kept, fuses_kept, live_kept, tileLive_kept, otp_kept, rollback_kept, debugFuse_kept, kept_eta, State.modTile_kept] | rw [apply_ite State.kept])

theorem State.portHorizon_kept (s : State) (t : Nat) (kind : Nat) (stream : Nat) (src : Nat) (h : Key) : (State.portHorizon s t kind stream src h).kept = s.kept := by
  unfold State.portHorizon
  repeat' (first | with_reducible rfl | assumption | rw [foldl_kept] | rw [foldl_fst_kept] | rw [foldl_snd_kept] | with_reducible refine ite_kept _ _ _ _ ?_ ?_ | split | intro _ _ | simp only [State.kept_mk, pending_kept, fuses_kept, live_kept, tileLive_kept, otp_kept, rollback_kept, debugFuse_kept, kept_eta, State.modTile_kept] | rw [apply_ite State.kept])

theorem State.portRelease_kept (s : State) (t : Nat) (kind : Nat) (stream : Nat) : (State.portRelease s t kind stream).kept = s.kept := by
  unfold State.portRelease
  repeat' (first | with_reducible rfl | assumption | rw [foldl_kept] | rw [foldl_fst_kept] | rw [foldl_snd_kept] | with_reducible refine ite_kept _ _ _ _ ?_ ?_ | split | intro _ _ | simp only [State.kept_mk, pending_kept, fuses_kept, live_kept, tileLive_kept, otp_kept, rollback_kept, debugFuse_kept, kept_eta, State.stopJob_kept, State.modTile_kept] | rw [apply_ite State.kept])

theorem State.logItem_kept (s : State) (j : Nat) (i : Item) : (State.logItem s j i).kept = s.kept := by
  unfold State.logItem
  repeat' (first | with_reducible rfl | assumption | rw [foldl_kept] | rw [foldl_fst_kept] | rw [foldl_snd_kept] | with_reducible refine ite_kept _ _ _ _ ?_ ?_ | split | intro _ _ | simp only [State.kept_mk, pending_kept, fuses_kept, live_kept, tileLive_kept, otp_kept, rollback_kept, debugFuse_kept, kept_eta, State.logInput_kept] | rw [apply_ite State.kept])

theorem State.laneRelease_kept (s : State) (j : Nat) (admission : Bool) : (State.laneRelease s j admission).kept = s.kept := by
  unfold State.laneRelease
  repeat' (first | with_reducible rfl | assumption | rw [foldl_kept] | rw [foldl_fst_kept] | rw [foldl_snd_kept] | with_reducible refine ite_kept _ _ _ _ ?_ ?_ | split | intro _ _ | simp only [State.kept_mk, pending_kept, fuses_kept, live_kept, tileLive_kept, otp_kept, rollback_kept, debugFuse_kept, kept_eta, State.setLane_kept, State.modDie_kept, State.deliverItem_kept, State.logItem_kept] | rw [apply_ite State.kept])

theorem execMergeItemArrive_keeps (merge : MergeId) (src : Nat) (item : Option Item) (horizon : Key) (t : Time) (s : State) : OutcomeKeeps s.kept (execMergeItemArrive merge src item horizon t s) := by
  unfold execMergeItemArrive
  show State.kept _ = _
  repeat' (first | with_reducible rfl | assumption | rw [foldl_kept] | rw [foldl_fst_kept] | rw [foldl_snd_kept] | with_reducible refine ite_kept _ _ _ _ ?_ ?_ | split | intro _ _ | simp only [State.kept_mk, pending_kept, fuses_kept, live_kept, tileLive_kept, otp_kept, rollback_kept, debugFuse_kept, kept_eta, State.at_kept, State.laneArrive_kept, State.portArrive_kept, State.laneHorizon_kept, State.portHorizon_kept] | rw [apply_ite State.kept])

theorem execMergeRelease_keeps (merge : MergeId) (t : Time) (s : State) : OutcomeKeeps s.kept (execMergeRelease merge t s) := by
  unfold execMergeRelease
  show State.kept _ = _
  repeat' (first | with_reducible rfl | assumption | rw [foldl_kept] | rw [foldl_fst_kept] | rw [foldl_snd_kept] | with_reducible refine ite_kept _ _ _ _ ?_ ?_ | split | intro _ _ | simp only [State.kept_mk, pending_kept, fuses_kept, live_kept, tileLive_kept, otp_kept, rollback_kept, debugFuse_kept, kept_eta, State.at_kept, State.laneRelease_kept, State.portRelease_kept] | rw [apply_ite State.kept])

theorem execHorizonArrive_keeps (merge : MergeId) (src : Nat) (horizon : Key) (s : State) : OutcomeKeeps s.kept (execHorizonArrive merge src horizon s) := by
  unfold execHorizonArrive
  show State.kept _ = _
  repeat' (first | with_reducible rfl | assumption | rw [foldl_kept] | rw [foldl_fst_kept] | rw [foldl_snd_kept] | with_reducible refine ite_kept _ _ _ _ ?_ ?_ | split | intro _ _ | simp only [State.kept_mk, pending_kept, fuses_kept, live_kept, tileLive_kept, otp_kept, rollback_kept, debugFuse_kept, kept_eta, State.laneHorizon_kept, State.portHorizon_kept] | rw [apply_ite State.kept])

theorem execFlitHop_keeps (src : Node) (dst : Node) (s : State) : OutcomeKeeps s.kept (execFlitHop src dst s) := by
  unfold execFlitHop
  show State.kept _ = _
  repeat' (first | with_reducible rfl | assumption | rw [foldl_kept] | rw [foldl_fst_kept] | rw [foldl_snd_kept] | with_reducible refine ite_kept _ _ _ _ ?_ ?_ | split | intro _ _ | simp only [State.kept_mk, pending_kept, fuses_kept, live_kept, tileLive_kept, otp_kept, rollback_kept, debugFuse_kept, kept_eta] | rw [apply_ite State.kept])

theorem execCreditReturn_keeps (src : Node) (dst : Node) (cls : Fin 4) (count : Nat) (s : State) : OutcomeKeeps s.kept (execCreditReturn src dst cls count s) := by
  unfold execCreditReturn
  show State.kept _ = _
  repeat' (first | with_reducible rfl | assumption | rw [foldl_kept] | rw [foldl_fst_kept] | rw [foldl_snd_kept] | with_reducible refine ite_kept _ _ _ _ ?_ ?_ | split | intro _ _ | simp only [State.kept_mk, pending_kept, fuses_kept, live_kept, tileLive_kept, otp_kept, rollback_kept, debugFuse_kept, kept_eta] | rw [apply_ite State.kept])

theorem State.cairnIn_kept (s : State) (k : Nat) (m : Msg) : (State.cairnIn s k m).kept = s.kept := by
  unfold State.cairnIn
  repeat' (first | with_reducible rfl | assumption | rw [foldl_kept] | rw [foldl_fst_kept] | rw [foldl_snd_kept] | with_reducible refine ite_kept _ _ _ _ ?_ ?_ | split | intro _ _ | simp only [State.kept_mk, pending_kept, fuses_kept, live_kept, tileLive_kept, otp_kept, rollback_kept, debugFuse_kept, kept_eta, State.cairnBind_kept, State.cairnClose_kept, State.cairnOp_kept] | rw [apply_ite State.kept])

theorem State.replyAt_kept (s : State) (t : Nat) (m : Msg) : (State.replyAt s t m).kept = s.kept := by
  unfold State.replyAt
  repeat' (first | with_reducible rfl | assumption | rw [foldl_kept] | rw [foldl_fst_kept] | rw [foldl_snd_kept] | with_reducible refine ite_kept _ _ _ _ ?_ ?_ | split | intro _ _ | simp only [State.kept_mk, pending_kept, fuses_kept, live_kept, tileLive_kept, otp_kept, rollback_kept, debugFuse_kept, kept_eta, State.modTile_kept] | rw [apply_ite State.kept])

theorem State.consume_kept (s : State) (m : Msg) : (State.consume s m).kept = s.kept := by
  unfold State.consume
  repeat' (first | with_reducible rfl | assumption | rw [foldl_kept] | rw [foldl_fst_kept] | rw [foldl_snd_kept] | with_reducible refine ite_kept _ _ _ _ ?_ ?_ | split | intro _ _ | simp only [State.kept_mk, pending_kept, fuses_kept, live_kept, tileLive_kept, otp_kept, rollback_kept, debugFuse_kept, kept_eta, State.replyAt_kept, State.portHorizon_kept, State.portArrive_kept, State.cairnIn_kept, State.commitIn_kept, State.countVoid_kept, State.makeRecord_kept] | rw [apply_ite State.kept])

theorem State.sidebandFail_kept (s : State) (m : Msg) (headGood : Bool) : (State.sidebandFail s m headGood).kept = s.kept := by
  unfold State.sidebandFail
  repeat' (first | with_reducible rfl | assumption | rw [foldl_kept] | rw [foldl_fst_kept] | rw [foldl_snd_kept] | with_reducible refine ite_kept _ _ _ _ ?_ ?_ | split | intro _ _ | simp only [State.kept_mk, pending_kept, fuses_kept, live_kept, tileLive_kept, otp_kept, rollback_kept, debugFuse_kept, kept_eta, State.fault_kept, State.mark_kept] | rw [apply_ite State.kept])

theorem execFlitDeliver_keeps (place : Node) (good : Bool) (headGood : Bool) (t : Time) (s : State) : OutcomeKeeps s.kept (execFlitDeliver place good headGood t s) := by
  unfold execFlitDeliver
  show State.kept _ = _
  repeat' (first | with_reducible rfl | assumption | rw [foldl_kept] | rw [foldl_fst_kept] | rw [foldl_snd_kept] | with_reducible refine ite_kept _ _ _ _ ?_ ?_ | split | intro _ _ | simp only [State.kept_mk, pending_kept, fuses_kept, live_kept, tileLive_kept, otp_kept, rollback_kept, debugFuse_kept, kept_eta, State.at_kept, State.consume_kept, State.sidebandFail_kept] | rw [apply_ite State.kept])

theorem execHopWait_keeps (die : Fin 4) (cls : Fin 4) (ns : Nat) (s : State) : OutcomeKeeps s.kept (execHopWait die cls ns s) := by
  unfold execHopWait
  show State.kept _ = _
  repeat' (first | with_reducible rfl | assumption | rw [foldl_kept] | rw [foldl_fst_kept] | rw [foldl_snd_kept] | with_reducible refine ite_kept _ _ _ _ ?_ ?_ | split | intro _ _ | simp only [State.kept_mk, pending_kept, fuses_kept, live_kept, tileLive_kept, otp_kept, rollback_kept, debugFuse_kept, kept_eta, State.flowFlag_kept] | rw [apply_ite State.kept])

theorem execBeWait_keeps (die : Fin 4) (ns : Nat) (s : State) : OutcomeKeeps s.kept (execBeWait die ns s) := by
  unfold execBeWait
  show State.kept _ = _
  repeat' (first | with_reducible rfl | assumption | rw [foldl_kept] | rw [foldl_fst_kept] | rw [foldl_snd_kept] | with_reducible refine ite_kept _ _ _ _ ?_ ?_ | split | intro _ _ | simp only [State.kept_mk, pending_kept, fuses_kept, live_kept, tileLive_kept, otp_kept, rollback_kept, debugFuse_kept, kept_eta, State.flowFlag_kept] | rw [apply_ite State.kept])

theorem State.setTrig_kept (s : State) (j : Fin 2) (n : Fin 32) (x : TrigIn) : (State.setTrig s j n x).kept = s.kept := by
  unfold State.setTrig
  repeat' (first | with_reducible rfl | assumption | rw [foldl_kept] | rw [foldl_fst_kept] | rw [foldl_snd_kept] | with_reducible refine ite_kept _ _ _ _ ?_ ?_ | split | intro _ _ | simp only [State.kept_mk, pending_kept, fuses_kept, live_kept, tileLive_kept, otp_kept, rollback_kept, debugFuse_kept, kept_eta] | rw [apply_ite State.kept])

theorem execTrigEdge_keeps (die : Fin 2) (input : Fin 32) (rising : Bool) (at_ : Time) (s : State) : OutcomeKeeps s.kept (execTrigEdge die input rising at_ s) := by
  unfold execTrigEdge
  show State.kept _ = _
  repeat' (first | with_reducible rfl | assumption | rw [foldl_kept] | rw [foldl_fst_kept] | rw [foldl_snd_kept] | with_reducible refine ite_kept _ _ _ _ ?_ ?_ | split | intro _ _ | simp only [State.kept_mk, pending_kept, fuses_kept, live_kept, tileLive_kept, otp_kept, rollback_kept, debugFuse_kept, kept_eta, State.at_kept, State.inFlag_kept, State.setTrig_kept] | rw [apply_ite State.kept])

theorem execTrigGlitch_keeps (die : Fin 2) (input : Fin 32) (at_ : Time) (s : State) : OutcomeKeeps s.kept (execTrigGlitch die input at_ s) := by
  unfold execTrigGlitch
  show State.kept _ = _
  repeat' (first | with_reducible rfl | assumption | rw [foldl_kept] | rw [foldl_fst_kept] | rw [foldl_snd_kept] | with_reducible refine ite_kept _ _ _ _ ?_ ?_ | split | intro _ _ | simp only [State.kept_mk, pending_kept, fuses_kept, live_kept, tileLive_kept, otp_kept, rollback_kept, debugFuse_kept, kept_eta, State.at_kept, State.inFlag_kept, State.setTrig_kept] | rw [apply_ite State.kept])

theorem execTrigQualify_keeps (die : Fin 2) (input : Fin 32) (t : Time) (s : State) : OutcomeKeeps s.kept (execTrigQualify die input t s) := by
  unfold execTrigQualify
  show State.kept _ = _
  repeat' (first | with_reducible rfl | assumption | rw [foldl_kept] | rw [foldl_fst_kept] | rw [foldl_snd_kept] | with_reducible refine ite_kept _ _ _ _ ?_ ?_ | split | intro _ _ | simp only [State.kept_mk, pending_kept, fuses_kept, live_kept, tileLive_kept, otp_kept, rollback_kept, debugFuse_kept, kept_eta, State.at_kept, State.setTrig_kept, State.laneArrive_kept] | rw [apply_ite State.kept])

theorem execTrigHoldoffEnd_keeps (die : Fin 2) (input : Fin 32) (t : Time) (s : State) : OutcomeKeeps s.kept (execTrigHoldoffEnd die input t s) := by
  unfold execTrigHoldoffEnd
  show State.kept _ = _
  repeat' (first | with_reducible rfl | assumption | rw [foldl_kept] | rw [foldl_fst_kept] | rw [foldl_snd_kept] | with_reducible refine ite_kept _ _ _ _ ?_ ?_ | split | intro _ _ | simp only [State.kept_mk, pending_kept, fuses_kept, live_kept, tileLive_kept, otp_kept, rollback_kept, debugFuse_kept, kept_eta, State.at_kept, State.setTrig_kept] | rw [apply_ite State.kept])

theorem State.setCam_kept (s : State) (j : Fin 2) (n : Nat) (x : Cam) : (State.setCam s j n x).kept = s.kept := by
  unfold State.setCam
  repeat' (first | with_reducible rfl | assumption | rw [foldl_kept] | rw [foldl_fst_kept] | rw [foldl_snd_kept] | with_reducible refine ite_kept _ _ _ _ ?_ ?_ | split | intro _ _ | simp only [State.kept_mk, pending_kept, fuses_kept, live_kept, tileLive_kept, otp_kept, rollback_kept, debugFuse_kept, kept_eta] | rw [apply_ite State.kept])

theorem execCamClockLock_keeps (die : Fin 2) (receiver : Fin 8) (locked : Bool) (s : State) : OutcomeKeeps s.kept (execCamClockLock die receiver locked s) := by
  unfold execCamClockLock
  show State.kept _ = _
  repeat' (first | with_reducible rfl | assumption | rw [foldl_kept] | rw [foldl_fst_kept] | rw [foldl_snd_kept] | with_reducible refine ite_kept _ _ _ _ ?_ ?_ | split | intro _ _ | simp only [State.kept_mk, pending_kept, fuses_kept, live_kept, tileLive_kept, otp_kept, rollback_kept, debugFuse_kept, kept_eta] | rw [apply_ite State.kept])

theorem State.endFrame_kept (s : State) (j : Fin 2) (n : Nat) (damaged : Bool) : (State.endFrame s j n damaged).kept = s.kept := by
  unfold State.endFrame
  repeat' (first | with_reducible rfl | assumption | rw [foldl_kept] | rw [foldl_fst_kept] | rw [foldl_snd_kept] | with_reducible refine ite_kept _ _ _ _ ?_ ?_ | split | intro _ _ | simp only [State.kept_mk, pending_kept, fuses_kept, live_kept, tileLive_kept, otp_kept, rollback_kept, debugFuse_kept, kept_eta, State.setCam_kept, State.inFlag_kept, State.laneArrive_kept, State.frameResolved_kept] | rw [apply_ite State.kept])

theorem State.reclaimSlot_kept (s : State) (j : Fin 2) (n : Nat) (slot : Nat) : (State.reclaimSlot s j n slot).kept = s.kept := by
  unfold State.reclaimSlot
  repeat' (first | with_reducible rfl | assumption | rw [foldl_kept] | rw [foldl_fst_kept] | rw [foldl_snd_kept] | with_reducible refine ite_kept _ _ _ _ ?_ ?_ | split | intro _ _ | simp only [State.kept_mk, pending_kept, fuses_kept, live_kept, tileLive_kept, otp_kept, rollback_kept, debugFuse_kept, kept_eta, State.stopJob_kept, State.inFlag_kept] | rw [apply_ite State.kept])

theorem State.startFrame_kept (s : State) (j : Fin 2) (n : Nat) (t : Time) : (State.startFrame s j n t).kept = s.kept := by
  unfold State.startFrame
  repeat' (first | with_reducible rfl | assumption | rw [foldl_kept] | rw [foldl_fst_kept] | rw [foldl_snd_kept] | with_reducible refine ite_kept _ _ _ _ ?_ ?_ | split | intro _ _ | simp only [State.kept_mk, pending_kept, fuses_kept, live_kept, tileLive_kept, otp_kept, rollback_kept, debugFuse_kept, kept_eta, State.endFrame_kept, State.setCam_kept, State.inFlag_kept, State.reclaimSlot_kept, State.laneArrive_kept] | rw [apply_ite State.kept])

theorem execFrameStart_keeps (die : Fin 2) (receiver : Fin 8) (vc : Nat) (dt : Nat) (at_ : Time) (s : State) : OutcomeKeeps s.kept (execFrameStart die receiver vc dt at_ s) := by
  unfold execFrameStart
  show State.kept _ = _
  repeat' (first | with_reducible rfl | assumption | rw [foldl_kept] | rw [foldl_fst_kept] | rw [foldl_snd_kept] | with_reducible refine ite_kept _ _ _ _ ?_ ?_ | split | intro _ _ | simp only [State.kept_mk, pending_kept, fuses_kept, live_kept, tileLive_kept, otp_kept, rollback_kept, debugFuse_kept, kept_eta, State.at_kept, State.inFlag_kept, State.startFrame_kept] | rw [apply_ite State.kept])

theorem State.storeLine_kept (s : State) (j : Fin 2) (n : Nat) (f : FrameIn) (p : List Byte) : (State.storeLine s j n f p).kept = s.kept := by
  unfold State.storeLine
  repeat' (first | with_reducible rfl | assumption | rw [foldl_kept] | rw [foldl_fst_kept] | rw [foldl_snd_kept] | with_reducible refine ite_kept _ _ _ _ ?_ ?_ | split | intro _ _ | simp only [State.kept_mk, pending_kept, fuses_kept, live_kept, tileLive_kept, otp_kept, rollback_kept, debugFuse_kept, kept_eta, State.resvWrite_kept] | rw [apply_ite State.kept])

theorem State.frameLine_kept (s : State) (j : Fin 2) (n : Nat) (crcOk : Bool) (overflow : Bool) (p : List Byte) : (State.frameLine s j n crcOk overflow p).kept = s.kept := by
  unfold State.frameLine
  repeat' (first | with_reducible rfl | assumption | rw [foldl_kept] | rw [foldl_fst_kept] | rw [foldl_snd_kept] | with_reducible refine ite_kept _ _ _ _ ?_ ?_ | split | intro _ _ | simp only [State.kept_mk, pending_kept, fuses_kept, live_kept, tileLive_kept, otp_kept, rollback_kept, debugFuse_kept, kept_eta, State.endFrame_kept, State.setCam_kept, State.storeLine_kept] | rw [apply_ite State.kept])

theorem execCsiLongPacket_keeps (die : Fin 2) (receiver : Fin 8) (vc : Nat) (dt : Nat) (header : CsiHeader) (crcOk : Bool) (overflow : Bool) (payload : List Byte) (s : State) : OutcomeKeeps s.kept (execCsiLongPacket die receiver vc dt header crcOk overflow payload s) := by
  unfold execCsiLongPacket
  show State.kept _ = _
  repeat' (first | with_reducible rfl | assumption | rw [foldl_kept] | rw [foldl_fst_kept] | rw [foldl_snd_kept] | with_reducible refine ite_kept _ _ _ _ ?_ ?_ | split | intro _ _ | simp only [State.kept_mk, pending_kept, fuses_kept, live_kept, tileLive_kept, otp_kept, rollback_kept, debugFuse_kept, kept_eta, State.setCam_kept, State.inFlag_kept, State.frameLine_kept] | rw [apply_ite State.kept])

theorem execCsiLineShortPacket_keeps (die : Fin 2) (receiver : Fin 8) (vc : Nat) (dt : Nat) (s : State) : OutcomeKeeps s.kept (execCsiLineShortPacket die receiver vc dt s) := by
  unfold execCsiLineShortPacket
  show State.kept _ = _
  repeat' (first | with_reducible rfl | assumption | rw [foldl_kept] | rw [foldl_fst_kept] | rw [foldl_snd_kept] | with_reducible refine ite_kept _ _ _ _ ?_ ?_ | split | intro _ _ | simp only [State.kept_mk, pending_kept, fuses_kept, live_kept, tileLive_kept, otp_kept, rollback_kept, debugFuse_kept, kept_eta] | rw [apply_ite State.kept])

theorem execFrameEnd_keeps (die : Fin 2) (receiver : Fin 8) (vc : Nat) (dt : Nat) (t : Time) (s : State) : OutcomeKeeps s.kept (execFrameEnd die receiver vc dt t s) := by
  unfold execFrameEnd
  show State.kept _ = _
  repeat' (first | with_reducible rfl | assumption | rw [foldl_kept] | rw [foldl_fst_kept] | rw [foldl_snd_kept] | with_reducible refine ite_kept _ _ _ _ ?_ ?_ | split | intro _ _ | simp only [State.kept_mk, pending_kept, fuses_kept, live_kept, tileLive_kept, otp_kept, rollback_kept, debugFuse_kept, kept_eta, State.at_kept, State.inFlag_kept, State.endFrame_kept] | rw [apply_ite State.kept])

theorem execFrameReadoutTimeout_keeps (die : Fin 2) (stream : Fin 24) (t : Time) (s : State) : OutcomeKeeps s.kept (execFrameReadoutTimeout die stream t s) := by
  unfold execFrameReadoutTimeout
  show State.kept _ = _
  repeat' (first | with_reducible rfl | assumption | rw [foldl_kept] | rw [foldl_fst_kept] | rw [foldl_snd_kept] | with_reducible refine ite_kept _ _ _ _ ?_ ?_ | split | intro _ _ | simp only [State.kept_mk, pending_kept, fuses_kept, live_kept, tileLive_kept, otp_kept, rollback_kept, debugFuse_kept, kept_eta, State.at_kept, State.endFrame_kept] | rw [apply_ite State.kept])

theorem State.setTag_kept (s : State) (j : Fin 2) (p : Fin 8) (x : TagPort) : (State.setTag s j p x).kept = s.kept := by
  unfold State.setTag
  repeat' (first | with_reducible rfl | assumption | rw [foldl_kept] | rw [foldl_fst_kept] | rw [foldl_snd_kept] | with_reducible refine ite_kept _ _ _ _ ?_ ?_ | split | intro _ _ | simp only [State.kept_mk, pending_kept, fuses_kept, live_kept, tileLive_kept, otp_kept, rollback_kept, debugFuse_kept, kept_eta] | rw [apply_ite State.kept])

theorem State.tagReject_kept (s : State) (j : Fin 2) (p : Fin 8) : (State.tagReject s j p).kept = s.kept := by
  unfold State.tagReject
  repeat' (first | with_reducible rfl | assumption | rw [foldl_kept] | rw [foldl_fst_kept] | rw [foldl_snd_kept] | with_reducible refine ite_kept _ _ _ _ ?_ ?_ | split | intro _ _ | simp only [State.kept_mk, pending_kept, fuses_kept, live_kept, tileLive_kept, otp_kept, rollback_kept, debugFuse_kept, kept_eta, State.inFlag_kept, State.setTag_kept] | rw [apply_ite State.kept])

theorem execTagRxs_keeps (die : Fin 2) (port : Fin 8) (t : Time) (s : State) : OutcomeKeeps s.kept (execTagRxs die port t s) := by
  unfold execTagRxs
  show State.kept _ = _
  repeat' (first | with_reducible rfl | assumption | rw [foldl_kept] | rw [foldl_fst_kept] | rw [foldl_snd_kept] | with_reducible refine ite_kept _ _ _ _ ?_ ?_ | split | intro _ _ | simp only [State.kept_mk, pending_kept, fuses_kept, live_kept, tileLive_kept, otp_kept, rollback_kept, debugFuse_kept, kept_eta, State.at_kept, State.setTag_kept] | rw [apply_ite State.kept])

theorem execTagFr_keeps (die : Fin 2) (port : Fin 8) (at_ : Time) (s : State) : OutcomeKeeps s.kept (execTagFr die port at_ s) := by
  unfold execTagFr
  show State.kept _ = _
  repeat' (first | with_reducible rfl | assumption | rw [foldl_kept] | rw [foldl_fst_kept] | rw [foldl_snd_kept] | with_reducible refine ite_kept _ _ _ _ ?_ ?_ | split | intro _ _ | simp only [State.kept_mk, pending_kept, fuses_kept, live_kept, tileLive_kept, otp_kept, rollback_kept, debugFuse_kept, kept_eta, State.at_kept, State.tagReject_kept, State.setTag_kept] | rw [apply_ite State.kept])

theorem execTagReadDone_keeps (die : Fin 2) (port : Fin 8) (bytes : List Byte) (t : Time) (s : State) : OutcomeKeeps s.kept (execTagReadDone die port bytes t s) := by
  unfold execTagReadDone
  show State.kept _ = _
  repeat' (first | with_reducible rfl | assumption | rw [foldl_kept] | rw [foldl_fst_kept] | rw [foldl_snd_kept] | with_reducible refine ite_kept _ _ _ _ ?_ ?_ | split | intro _ _ | simp only [State.kept_mk, pending_kept, fuses_kept, live_kept, tileLive_kept, otp_kept, rollback_kept, debugFuse_kept, kept_eta, State.at_kept, State.tagReject_kept, State.setTag_kept, State.laneArrive_kept] | rw [apply_ite State.kept])

theorem execTagRateUpdate_keeps (die : Fin 2) (tag : DWord) (tx : Word) (stamp : Stamp) (s : State) : OutcomeKeeps s.kept (execTagRateUpdate die tag tx stamp s) := by
  unfold execTagRateUpdate
  show State.kept _ = _
  repeat' (first | with_reducible rfl | assumption | rw [foldl_kept] | rw [foldl_fst_kept] | rw [foldl_snd_kept] | with_reducible refine ite_kept _ _ _ _ ?_ ?_ | split | intro _ _ | simp only [State.kept_mk, pending_kept, fuses_kept, live_kept, tileLive_kept, otp_kept, rollback_kept, debugFuse_kept, kept_eta, State.modDie_kept] | rw [apply_ite State.kept])

theorem State.setCan_kept (s : State) (j : Fin 2) (c : Fin 4) (x : Can) : (State.setCan s j c x).kept = s.kept := by
  unfold State.setCan
  repeat' (first | with_reducible rfl | assumption | rw [foldl_kept] | rw [foldl_fst_kept] | rw [foldl_snd_kept] | with_reducible refine ite_kept _ _ _ _ ?_ ?_ | split | intro _ _ | simp only [State.kept_mk, pending_kept, fuses_kept, live_kept, tileLive_kept, otp_kept, rollback_kept, debugFuse_kept, kept_eta] | rw [apply_ite State.kept])

theorem execCanFrameReceive_keeps (die : Fin 2) (ctl : Fin 4) (frame : CanFrame) (at_ : Time) (s : State) : OutcomeKeeps s.kept (execCanFrameReceive die ctl frame at_ s) := by
  unfold execCanFrameReceive
  show State.kept _ = _
  repeat' (first | with_reducible rfl | assumption | rw [foldl_kept] | rw [foldl_fst_kept] | rw [foldl_snd_kept] | with_reducible refine ite_kept _ _ _ _ ?_ ?_ | split | intro _ _ | simp only [State.kept_mk, pending_kept, fuses_kept, live_kept, tileLive_kept, otp_kept, rollback_kept, debugFuse_kept, kept_eta, State.at_kept, State.laneArrive_kept] | rw [apply_ite State.kept])

theorem execCanErrorFrame_keeps (die : Fin 2) (ctl : Fin 4) (tec : Nat) (rec_ : Nat) (s : State) : OutcomeKeeps s.kept (execCanErrorFrame die ctl tec rec_ s) := by
  unfold execCanErrorFrame
  show State.kept _ = _
  repeat' (first | with_reducible rfl | assumption | rw [foldl_kept] | rw [foldl_fst_kept] | rw [foldl_snd_kept] | with_reducible refine ite_kept _ _ _ _ ?_ ?_ | split | intro _ _ | simp only [State.kept_mk, pending_kept, fuses_kept, live_kept, tileLive_kept, otp_kept, rollback_kept, debugFuse_kept, kept_eta, State.inFlag_kept, State.setCan_kept] | rw [apply_ite State.kept])

theorem execCanTransmit_keeps (die : Fin 2) (ctl : Fin 4) (buffer : Fin 4) (s : State) : OutcomeKeeps s.kept (execCanTransmit die ctl buffer s) := by
  unfold execCanTransmit
  show State.kept _ = _
  repeat' (first | with_reducible rfl | assumption | rw [foldl_kept] | rw [foldl_fst_kept] | rw [foldl_snd_kept] | with_reducible refine ite_kept _ _ _ _ ?_ ?_ | split | intro _ _ | simp only [State.kept_mk, pending_kept, fuses_kept, live_kept, tileLive_kept, otp_kept, rollback_kept, debugFuse_kept, kept_eta, State.setCan_kept] | rw [apply_ite State.kept])

theorem execCanInitEnter_keeps (die : Fin 2) (ctl : Fin 4) (s : State) : OutcomeKeeps s.kept (execCanInitEnter die ctl s) := by
  unfold execCanInitEnter
  show State.kept _ = _
  repeat' (first | with_reducible rfl | assumption | rw [foldl_kept] | rw [foldl_fst_kept] | rw [foldl_snd_kept] | with_reducible refine ite_kept _ _ _ _ ?_ ?_ | split | intro _ _ | simp only [State.kept_mk, pending_kept, fuses_kept, live_kept, tileLive_kept, otp_kept, rollback_kept, debugFuse_kept, kept_eta, State.setCan_kept, State.absentAccess_kept] | rw [apply_ite State.kept])

theorem execCanInitLeave_keeps (die : Fin 2) (ctl : Fin 4) (s : State) : OutcomeKeeps s.kept (execCanInitLeave die ctl s) := by
  unfold execCanInitLeave
  show State.kept _ = _
  repeat' (first | with_reducible rfl | assumption | rw [foldl_kept] | rw [foldl_fst_kept] | rw [foldl_snd_kept] | with_reducible refine ite_kept _ _ _ _ ?_ ?_ | split | intro _ _ | simp only [State.kept_mk, pending_kept, fuses_kept, live_kept, tileLive_kept, otp_kept, rollback_kept, debugFuse_kept, kept_eta, State.setCan_kept, State.absentAccess_kept] | rw [apply_ite State.kept])

theorem execEthFrame_keeps (die : Fin 2) (port : Fin 4) (frame : List Byte) (fcsOk : Bool) (at_ : Time) (s : State) : OutcomeKeeps s.kept (execEthFrame die port frame fcsOk at_ s) := by
  unfold execEthFrame
  show State.kept _ = _
  repeat' (first | with_reducible rfl | assumption | rw [foldl_kept] | rw [foldl_fst_kept] | rw [foldl_snd_kept] | with_reducible refine ite_kept _ _ _ _ ?_ ?_ | split | intro _ _ | simp only [State.kept_mk, pending_kept, fuses_kept, live_kept, tileLive_kept, otp_kept, rollback_kept, debugFuse_kept, kept_eta, State.at_kept, State.count32_kept, State.laneArrive_kept] | rw [apply_ite State.kept])

theorem execEthLinkChange_keeps (die : Fin 2) (port : Fin 4) (up : Bool) (s : State) : OutcomeKeeps s.kept (execEthLinkChange die port up s) := by
  unfold execEthLinkChange
  show State.kept _ = _
  repeat' (first | with_reducible rfl | assumption | rw [foldl_kept] | rw [foldl_fst_kept] | rw [foldl_snd_kept] | with_reducible refine ite_kept _ _ _ _ ?_ ?_ | split | intro _ _ | simp only [State.kept_mk, pending_kept, fuses_kept, live_kept, tileLive_kept, otp_kept, rollback_kept, debugFuse_kept, kept_eta] | rw [apply_ite State.kept])

theorem State.setWriter_kept (s : State) (j : Nat) (w : LogWriter) : (State.setWriter s j w).kept = s.kept := by
  unfold State.setWriter
  repeat' (first | with_reducible rfl | assumption | rw [foldl_kept] | rw [foldl_fst_kept] | rw [foldl_snd_kept] | with_reducible refine ite_kept _ _ _ _ ?_ ?_ | split | intro _ _ | simp only [State.kept_mk, pending_kept, fuses_kept, live_kept, tileLive_kept, otp_kept, rollback_kept, debugFuse_kept, kept_eta] | rw [apply_ite State.kept])

theorem State.logLost_kept (s : State) (j : Nat) (n : Nat) : (State.logLost s j n).kept = s.kept := by
  unfold State.logLost
  repeat' (first | with_reducible rfl | assumption | rw [foldl_kept] | rw [foldl_fst_kept] | rw [foldl_snd_kept] | with_reducible refine ite_kept _ _ _ _ ?_ ?_ | split | intro _ _ | simp only [State.kept_mk, pending_kept, fuses_kept, live_kept, tileLive_kept, otp_kept, rollback_kept, debugFuse_kept, kept_eta, State.faultThrottled_kept, State.faultFlag_kept, State.count32_kept] | rw [apply_ite State.kept])

theorem State.logEntry_kept (s : State) (j : Nat) (r : LogRec) (early : Bool) : (State.logEntry s j r early).kept = s.kept := by
  unfold State.logEntry
  repeat' (first | with_reducible rfl | assumption | rw [foldl_kept] | rw [foldl_fst_kept] | rw [foldl_snd_kept] | with_reducible refine ite_kept _ _ _ _ ?_ ?_ | split | intro _ _ | simp only [State.kept_mk, pending_kept, fuses_kept, live_kept, tileLive_kept, otp_kept, rollback_kept, debugFuse_kept, kept_eta, State.count32_kept, State.setWriter_kept, State.logLost_kept] | rw [apply_ite State.kept])

theorem State.logEarly_kept (s : State) (j : Nat) (l : List LogRec) : (State.logEarly s j l).kept = s.kept := by
  induction l generalizing s with
  | nil => exact State.setWriter_kept _ _ _
  | cons r l ih =>
    unfold State.logEarly
    split
    · exact State.setWriter_kept _ _ _
    · rw [ih, State.logEntry_kept]

theorem execLogRecordArrive_keeps (die : Fin 2) (s : State) : OutcomeKeeps s.kept (execLogRecordArrive die s) := by
  unfold execLogRecordArrive
  show State.kept _ = _
  repeat' (first | with_reducible rfl | assumption | rw [foldl_kept] | rw [foldl_fst_kept] | rw [foldl_snd_kept] | with_reducible refine ite_kept _ _ _ _ ?_ ?_ | split | intro _ _ | simp only [State.kept_mk, pending_kept, fuses_kept, live_kept, tileLive_kept, otp_kept, rollback_kept, debugFuse_kept, kept_eta, State.logEntry_kept, State.logEarly_kept] | rw [apply_ite State.kept])

theorem execLogKeyedRelease_keeps (die : Fin 2) (frontier : Key) (s : State) : OutcomeKeeps s.kept (execLogKeyedRelease die frontier s) := by
  unfold execLogKeyedRelease
  show State.kept _ = _
  repeat' (first | with_reducible rfl | assumption | rw [foldl_kept] | rw [foldl_fst_kept] | rw [foldl_snd_kept] | with_reducible refine ite_kept _ _ _ _ ?_ ?_ | split | intro _ _ | simp only [State.kept_mk, pending_kept, fuses_kept, live_kept, tileLive_kept, otp_kept, rollback_kept, debugFuse_kept, kept_eta, State.logEntry_kept, State.setWriter_kept] | rw [apply_ite State.kept])

theorem State.hostWrite_kept (s : State) (a : Nat) (bs : List Byte) : (State.hostWrite s a bs).kept = s.kept := by
  unfold State.hostWrite
  repeat' (first | with_reducible rfl | assumption | rw [foldl_kept] | rw [foldl_fst_kept] | rw [foldl_snd_kept] | with_reducible refine ite_kept _ _ _ _ ?_ ?_ | split | intro _ _ | simp only [State.kept_mk, pending_kept, fuses_kept, live_kept, tileLive_kept, otp_kept, rollback_kept, debugFuse_kept, kept_eta] | rw [apply_ite State.kept])

theorem execLogHostCopy_keeps (die : Fin 2) (s : State) : OutcomeKeeps s.kept (execLogHostCopy die s) := by
  unfold execLogHostCopy
  show State.kept _ = _
  repeat' (first | with_reducible rfl | assumption | rw [foldl_kept] | rw [foldl_fst_kept] | rw [foldl_snd_kept] | with_reducible refine ite_kept _ _ _ _ ?_ ?_ | split | intro _ _ | simp only [State.kept_mk, pending_kept, fuses_kept, live_kept, tileLive_kept, otp_kept, rollback_kept, debugFuse_kept, kept_eta, State.hostWrite_kept, State.setWriter_kept, State.setReg_kept, State.signal_kept] | rw [apply_ite State.kept])

theorem execLogHostHeadWrite_keeps (value : Word) (s : State) : OutcomeKeeps s.kept (execLogHostHeadWrite value s) := by
  unfold execLogHostHeadWrite
  show State.kept _ = _
  repeat' (first | with_reducible rfl | assumption | rw [foldl_kept] | rw [foldl_fst_kept] | rw [foldl_snd_kept] | with_reducible refine ite_kept _ _ _ _ ?_ ?_ | split | intro _ _ | simp only [State.kept_mk, pending_kept, fuses_kept, live_kept, tileLive_kept, otp_kept, rollback_kept, debugFuse_kept, kept_eta, State.setReg_kept] | rw [apply_ite State.kept])

theorem State.stopWhere_kept (s : State) (p : Job → Bool) (reason : Nat) (unit : Nat) : (State.stopWhere s p reason unit).kept = s.kept := by
  unfold State.stopWhere
  repeat' (first | with_reducible rfl | assumption | rw [foldl_kept] | rw [foldl_fst_kept] | rw [foldl_snd_kept] | with_reducible refine ite_kept _ _ _ _ ?_ ?_ | split | intro _ _ | simp only [State.kept_mk, pending_kept, fuses_kept, live_kept, tileLive_kept, otp_kept, rollback_kept, debugFuse_kept, kept_eta, State.stopJob_kept] | rw [apply_ite State.kept])

theorem State.outRecord_kept (s : State) (die : Nat) (kind : Nat) (index : Nat) (detail : Nat) : (State.outRecord s die kind index detail).kept = s.kept := by
  unfold State.outRecord
  repeat' (first | with_reducible rfl | assumption | rw [foldl_kept] | rw [foldl_fst_kept] | rw [foldl_snd_kept] | with_reducible refine ite_kept _ _ _ _ ?_ ?_ | split | intro _ _ | simp only [State.kept_mk, pending_kept, fuses_kept, live_kept, tileLive_kept, otp_kept, rollback_kept, debugFuse_kept, kept_eta, State.fault_kept] | rw [apply_ite State.kept])

theorem State.dropTraffic_kept (s : State) (d : Nat) : (State.dropTraffic s d).kept = s.kept := by
  unfold State.dropTraffic
  repeat' (first | with_reducible rfl | assumption | rw [foldl_kept] | rw [foldl_fst_kept] | rw [foldl_snd_kept] | with_reducible refine ite_kept _ _ _ _ ?_ ?_ | split | intro _ _ | simp only [State.kept_mk, pending_kept, fuses_kept, live_kept, tileLive_kept, otp_kept, rollback_kept, debugFuse_kept, kept_eta] | rw [apply_ite State.kept])

theorem execReservoirRange_keeps (addr : Nat) (loader : Bool) (write : Bool) (t : Time) (s : State) : OutcomeKeeps s.kept (execReservoirRange addr loader write t s) := by
  unfold execReservoirRange
  show State.kept _ = _
  repeat' (first | with_reducible rfl | assumption | rw [foldl_kept] | rw [foldl_fst_kept] | rw [foldl_snd_kept] | with_reducible refine ite_kept _ _ _ _ ?_ ?_ | split | intro _ _ | simp only [State.kept_mk, pending_kept, fuses_kept, live_kept, tileLive_kept, otp_kept, rollback_kept, debugFuse_kept, kept_eta, State.at_kept, State.fault_kept] | rw [apply_ite State.kept])

theorem execSafeClear_keeps (fatal : Bool) (s : State) : OutcomeKeeps s.kept (execSafeClear fatal s) := by
  unfold execSafeClear
  show State.kept _ = _
  repeat' (first | with_reducible rfl | assumption | rw [foldl_kept] | rw [foldl_fst_kept] | rw [foldl_snd_kept] | with_reducible refine ite_kept _ _ _ _ ?_ ?_ | split | intro _ _ | simp only [State.kept_mk, pending_kept, fuses_kept, live_kept, tileLive_kept, otp_kept, rollback_kept, debugFuse_kept, kept_eta] | rw [apply_ite State.kept])

theorem execDelluFlitCrcFail_keeps (link : Fin 11) (flits : Nat) (t : Time) (s : State) : OutcomeKeeps s.kept (execDelluFlitCrcFail link flits t s) := by
  unfold execDelluFlitCrcFail
  show State.kept _ = _
  repeat' (first | with_reducible rfl | assumption | rw [foldl_kept] | rw [foldl_fst_kept] | rw [foldl_snd_kept] | with_reducible refine ite_kept _ _ _ _ ?_ ?_ | split | intro _ _ | simp only [State.kept_mk, pending_kept, fuses_kept, live_kept, tileLive_kept, otp_kept, rollback_kept, debugFuse_kept, kept_eta, State.at_kept, State.faultThrottled_kept] | rw [apply_ite State.kept])

theorem execDelluRetrain_keeps (link : Fin 11) (attempt : Nat) (t : Time) (s : State) : OutcomeKeeps s.kept (execDelluRetrain link attempt t s) := by
  unfold execDelluRetrain
  show State.kept _ = _
  repeat' (first | with_reducible rfl | assumption | rw [foldl_kept] | rw [foldl_fst_kept] | rw [foldl_snd_kept] | with_reducible refine ite_kept _ _ _ _ ?_ ?_ | split | intro _ _ | simp only [State.kept_mk, pending_kept, fuses_kept, live_kept, tileLive_kept, otp_kept, rollback_kept, debugFuse_kept, kept_eta, State.at_kept, State.fault_kept] | rw [apply_ite State.kept])

theorem execDelluRetrainDone_keeps (link : Fin 11) (ok : Bool) (s : State) : OutcomeKeeps s.kept (execDelluRetrainDone link ok s) := by
  unfold execDelluRetrainDone
  show State.kept _ = _
  repeat' (first | with_reducible rfl | assumption | rw [foldl_kept] | rw [foldl_fst_kept] | rw [foldl_snd_kept] | with_reducible refine ite_kept _ _ _ _ ?_ ?_ | split | intro _ _ | simp only [State.kept_mk, pending_kept, fuses_kept, live_kept, tileLive_kept, otp_kept, rollback_kept, debugFuse_kept, kept_eta] | rw [apply_ite State.kept])

theorem State.putChunk_kept (s : State) (h : Nat) (c : Chunk) (bad : Nat → Bool) : (State.putChunk s h c bad).kept = s.kept := by
  unfold State.putChunk
  repeat' (first | with_reducible rfl | assumption | rw [foldl_kept] | rw [foldl_fst_kept] | rw [foldl_snd_kept] | with_reducible refine ite_kept _ _ _ _ ?_ ?_ | split | intro _ _ | simp only [State.kept_mk, pending_kept, fuses_kept, live_kept, tileLive_kept, otp_kept, rollback_kept, debugFuse_kept, kept_eta, State.modHalf_kept] | rw [apply_ite State.kept])

theorem State.zeroLee_kept (s : State) (p : PlaceRec) : (State.zeroLee s p).kept = s.kept := by
  unfold State.zeroLee
  repeat' (first | with_reducible rfl | assumption | rw [foldl_kept] | rw [foldl_fst_kept] | rw [foldl_snd_kept] | with_reducible refine ite_kept _ _ _ _ ?_ ?_ | split | intro _ _ | simp only [State.kept_mk, pending_kept, fuses_kept, live_kept, tileLive_kept, otp_kept, rollback_kept, debugFuse_kept, kept_eta, State.modHalf_kept] | rw [apply_ite State.kept])

theorem State.putStored_kept (s : State) (h : Nat) (i : Image) (x : Nat × Chunk) : (State.putStored s h i x).kept = s.kept := by
  unfold State.putStored
  repeat' (first | with_reducible rfl | assumption | rw [foldl_kept] | rw [foldl_fst_kept] | rw [foldl_snd_kept] | with_reducible refine ite_kept _ _ _ _ ?_ ?_ | split | intro _ _ | simp only [State.kept_mk, pending_kept, fuses_kept, live_kept, tileLive_kept, otp_kept, rollback_kept, debugFuse_kept, kept_eta, State.putChunk_kept] | rw [apply_ite State.kept])

theorem State.readyTile_kept (s : State) (t : Nat) : (State.readyTile s t).kept = s.kept := by
  unfold State.readyTile
  repeat' (first | with_reducible rfl | assumption | rw [foldl_kept] | rw [foldl_fst_kept] | rw [foldl_snd_kept] | with_reducible refine ite_kept _ _ _ _ ?_ ?_ | split | intro _ _ | simp only [State.kept_mk, pending_kept, fuses_kept, live_kept, tileLive_kept, otp_kept, rollback_kept, debugFuse_kept, kept_eta, State.wakeRow_kept, State.retireTile_kept, State.reclaim_kept] | rw [apply_ite State.kept])

theorem State.expectAll_kept (s : State) (l : List Nat) : (State.expectAll s l).kept = s.kept := by
  unfold State.expectAll
  repeat' (first | with_reducible rfl | assumption | rw [foldl_kept] | rw [foldl_fst_kept] | rw [foldl_snd_kept] | with_reducible refine ite_kept _ _ _ _ ?_ ?_ | split | intro _ _ | simp only [State.kept_mk, pending_kept, fuses_kept, live_kept, tileLive_kept, otp_kept, rollback_kept, debugFuse_kept, kept_eta, State.expectLee_kept] | rw [apply_ite State.kept])

theorem State.adminDone_kept (s : State) (c : HpCmd) (status : Nat) (detail : Nat) (result : Nat) : (State.adminDone s c status detail result).kept = s.kept := by
  unfold State.adminDone
  repeat' (first | with_reducible rfl | assumption | rw [foldl_kept] | rw [foldl_fst_kept] | rw [foldl_snd_kept] | with_reducible refine ite_kept _ _ _ _ ?_ ?_ | split | intro _ _ | simp only [State.kept_mk, pending_kept, fuses_kept, live_kept, tileLive_kept, otp_kept, rollback_kept, debugFuse_kept, kept_eta, State.hpDone_kept] | rw [apply_ite State.kept])

theorem State.storeImage_kept (s : State) (d : List Byte) (i : Image) : (State.storeImage s d i).kept = s.kept := by
  unfold State.storeImage
  repeat' (first | with_reducible rfl | assumption | rw [foldl_kept] | rw [foldl_fst_kept] | rw [foldl_snd_kept] | with_reducible refine ite_kept _ _ _ _ ?_ ?_ | split | intro _ _ | simp only [State.kept_mk, pending_kept, fuses_kept, live_kept, tileLive_kept, otp_kept, rollback_kept, debugFuse_kept, kept_eta, State.resvWrite_kept] | rw [apply_ite State.kept])

theorem State.carry_kept (s : State) (k : Nat) : (State.carry s k).kept = s.kept := by
  unfold State.carry
  repeat' (first | with_reducible rfl | assumption | rw [foldl_kept] | rw [foldl_fst_kept] | rw [foldl_snd_kept] | with_reducible refine ite_kept _ _ _ _ ?_ ?_ | split | intro _ _ | simp only [State.kept_mk, pending_kept, fuses_kept, live_kept, tileLive_kept, otp_kept, rollback_kept, debugFuse_kept, kept_eta, State.expectAll_kept, State.zeroLee_kept, State.putStored_kept] | rw [apply_ite State.kept])

theorem State.loadCold_kept (s : State) (d : List Byte) (i : Image) (slot : Nat) : (State.loadCold s d i slot).kept = s.kept := by
  unfold State.loadCold
  repeat' (first | with_reducible rfl | assumption | rw [foldl_kept] | rw [foldl_fst_kept] | rw [foldl_snd_kept] | with_reducible refine ite_kept _ _ _ _ ?_ ?_ | split | intro _ _ | simp only [State.kept_mk, pending_kept, fuses_kept, live_kept, tileLive_kept, otp_kept, rollback_kept, debugFuse_kept, kept_eta, State.storeImage_kept, State.putChunk_kept, State.expectAll_kept] | rw [apply_ite State.kept])

theorem State.loadLee_kept (s : State) (d : List Byte) (i : Image) (slot : Nat) : (State.loadLee s d i slot).kept = s.kept := by
  unfold State.loadLee
  repeat' (first | with_reducible rfl | assumption | rw [foldl_kept] | rw [foldl_fst_kept] | rw [foldl_snd_kept] | with_reducible refine ite_kept _ _ _ _ ?_ ?_ | split | intro _ _ | simp only [State.kept_mk, pending_kept, fuses_kept, live_kept, tileLive_kept, otp_kept, rollback_kept, debugFuse_kept, kept_eta, State.storeImage_kept, State.zeroLee_kept, State.putChunk_kept, State.expectAll_kept, State.carry_kept] | rw [apply_ite State.kept])

theorem execLoadImage_keeps (t : Time) (s : State) : OutcomeKeeps s.kept (execLoadImage t s) := by
  unfold execLoadImage
  show State.kept _ = _
  repeat' (first | with_reducible rfl | assumption | rw [foldl_kept] | rw [foldl_fst_kept] | rw [foldl_snd_kept] | with_reducible refine ite_kept _ _ _ _ ?_ ?_ | split | intro _ _ | simp only [State.kept_mk, pending_kept, fuses_kept, live_kept, tileLive_kept, otp_kept, rollback_kept, debugFuse_kept, kept_eta, State.at_kept, State.adminDone_kept, State.readyTile_kept, State.loadCold_kept, State.loadLee_kept] | rw [apply_ite State.kept])

theorem execUnloadImage_keeps (t : Time) (s : State) : OutcomeKeeps s.kept (execUnloadImage t s) := by
  unfold execUnloadImage
  show State.kept _ = _
  repeat' (first | with_reducible rfl | assumption | rw [foldl_kept] | rw [foldl_fst_kept] | rw [foldl_snd_kept] | with_reducible refine ite_kept _ _ _ _ ?_ ?_ | split | intro _ _ | simp only [State.kept_mk, pending_kept, fuses_kept, live_kept, tileLive_kept, otp_kept, rollback_kept, debugFuse_kept, kept_eta, State.at_kept, State.adminDone_kept, State.readyTile_kept, State.expectAll_kept, State.zeroLee_kept] | rw [apply_ite State.kept])

theorem State.restoreBank_kept (s : State) (t : Nat) (h : Nat) (bed : Bool) (l : List Image) : (State.restoreBank s t h bed l).kept = s.kept := by
  unfold State.restoreBank
  repeat' (first | with_reducible rfl | assumption | rw [foldl_kept] | rw [foldl_fst_kept] | rw [foldl_snd_kept] | with_reducible refine ite_kept _ _ _ _ ?_ ?_ | split | intro _ _ | simp only [State.kept_mk, pending_kept, fuses_kept, live_kept, tileLive_kept, otp_kept, rollback_kept, debugFuse_kept, kept_eta, State.modHalf_kept, State.pwrFlag_kept, State.putStored_kept] | rw [apply_ite State.kept])

theorem State.restoreCrest_kept (s : State) (t : Nat) : (State.restoreCrest s t).kept = s.kept := by
  unfold State.restoreCrest
  repeat' (first | with_reducible rfl | assumption | rw [foldl_kept] | rw [foldl_fst_kept] | rw [foldl_snd_kept] | with_reducible refine ite_kept _ _ _ _ ?_ ?_ | split | intro _ _ | simp only [State.kept_mk, pending_kept, fuses_kept, live_kept, tileLive_kept, otp_kept, rollback_kept, debugFuse_kept, kept_eta, State.restoreBank_kept] | rw [apply_ite State.kept])

theorem State.restoreLee_kept (s : State) (t : Nat) : (State.restoreLee s t).kept = s.kept := by
  unfold State.restoreLee
  repeat' (first | with_reducible rfl | assumption | rw [foldl_kept] | rw [foldl_fst_kept] | rw [foldl_snd_kept] | with_reducible refine ite_kept _ _ _ _ ?_ ?_ | split | intro _ _ | simp only [State.kept_mk, pending_kept, fuses_kept, live_kept, tileLive_kept, otp_kept, rollback_kept, debugFuse_kept, kept_eta, State.restoreBank_kept] | rw [apply_ite State.kept])

theorem State.enterRow_kept (s : State) (d : Nat) (state : Nat) : (State.enterRow s d state).kept = s.kept := by
  unfold State.enterRow
  repeat' (first | with_reducible rfl | assumption | rw [foldl_kept] | rw [foldl_fst_kept] | rw [foldl_snd_kept] | with_reducible refine ite_kept _ _ _ _ ?_ ?_ | split | intro _ _ | simp only [State.kept_mk, pending_kept, fuses_kept, live_kept, tileLive_kept, otp_kept, rollback_kept, debugFuse_kept, kept_eta, State.setRow_kept] | rw [apply_ite State.kept])

theorem execRowEnterA1_keeps (dom : Nat) (t : Time) (s : State) : OutcomeKeeps s.kept (execRowEnterA1 dom t s) := by
  unfold execRowEnterA1
  show State.kept _ = _
  repeat' (first | with_reducible rfl | assumption | rw [foldl_kept] | rw [foldl_fst_kept] | rw [foldl_snd_kept] | with_reducible refine ite_kept _ _ _ _ ?_ ?_ | split | intro _ _ | simp only [State.kept_mk, pending_kept, fuses_kept, live_kept, tileLive_kept, otp_kept, rollback_kept, debugFuse_kept, kept_eta, State.at_kept, State.enterRow_kept] | rw [apply_ite State.kept])

theorem State.dropBuffers_kept (s : State) (d : Nat) : (State.dropBuffers s d).kept = s.kept := by
  unfold State.dropBuffers
  repeat' (first | with_reducible rfl | assumption | rw [foldl_kept] | rw [foldl_fst_kept] | rw [foldl_snd_kept] | with_reducible refine ite_kept _ _ _ _ ?_ ?_ | split | intro _ _ | simp only [State.kept_mk, pending_kept, fuses_kept, live_kept, tileLive_kept, otp_kept, rollback_kept, debugFuse_kept, kept_eta, State.modTile_kept] | rw [apply_ite State.kept])

theorem execRowEnterA2_keeps (dom : Nat) (t : Time) (s : State) : OutcomeKeeps s.kept (execRowEnterA2 dom t s) := by
  unfold execRowEnterA2
  show State.kept _ = _
  repeat' (first | with_reducible rfl | assumption | rw [foldl_kept] | rw [foldl_fst_kept] | rw [foldl_snd_kept] | with_reducible refine ite_kept _ _ _ _ ?_ ?_ | split | intro _ _ | simp only [State.kept_mk, pending_kept, fuses_kept, live_kept, tileLive_kept, otp_kept, rollback_kept, debugFuse_kept, kept_eta, State.at_kept, State.dropBuffers_kept, State.enterRow_kept] | rw [apply_ite State.kept])

theorem State.loseBanks_kept (s : State) (d : Nat) : (State.loseBanks s d).kept = s.kept := by
  unfold State.loseBanks
  repeat' (first | with_reducible rfl | assumption | rw [foldl_kept] | rw [foldl_fst_kept] | rw [foldl_snd_kept] | with_reducible refine ite_kept _ _ _ _ ?_ ?_ | split | intro _ _ | simp only [State.kept_mk, pending_kept, fuses_kept, live_kept, tileLive_kept, otp_kept, rollback_kept, debugFuse_kept, kept_eta, State.modTile_kept] | rw [apply_ite State.kept])

theorem State.rowPassage_kept (s : State) (d : Nat) : (State.rowPassage s d).kept = s.kept := by
  unfold State.rowPassage
  repeat' (first | with_reducible rfl | assumption | rw [foldl_kept] | rw [foldl_fst_kept] | rw [foldl_snd_kept] | with_reducible refine ite_kept _ _ _ _ ?_ ?_ | split | intro _ _ | simp only [State.kept_mk, pending_kept, fuses_kept, live_kept, tileLive_kept, otp_kept, rollback_kept, debugFuse_kept, kept_eta, State.setRow_kept, State.loseBanks_kept, State.dropBuffers_kept, State.enterRow_kept, State.wakeRow_kept] | rw [apply_ite State.kept])

theorem execRowEnterA3_keeps (dom : Nat) (t : Time) (s : State) : OutcomeKeeps s.kept (execRowEnterA3 dom t s) := by
  unfold execRowEnterA3
  show State.kept _ = _
  repeat' (first | with_reducible rfl | assumption | rw [foldl_kept] | rw [foldl_fst_kept] | rw [foldl_snd_kept] | with_reducible refine ite_kept _ _ _ _ ?_ ?_ | split | intro _ _ | simp only [State.kept_mk, pending_kept, fuses_kept, live_kept, tileLive_kept, otp_kept, rollback_kept, debugFuse_kept, kept_eta, State.at_kept, State.rowPassage_kept, State.loseBanks_kept, State.dropBuffers_kept, State.enterRow_kept] | rw [apply_ite State.kept])

theorem execRowWake_keeps (dom : Nat) (t : Time) (s : State) : OutcomeKeeps s.kept (execRowWake dom t s) := by
  unfold execRowWake
  show State.kept _ = _
  repeat' (first | with_reducible rfl | assumption | rw [foldl_kept] | rw [foldl_fst_kept] | rw [foldl_snd_kept] | with_reducible refine ite_kept _ _ _ _ ?_ ?_ | split | intro _ _ | simp only [State.kept_mk, pending_kept, fuses_kept, live_kept, tileLive_kept, otp_kept, rollback_kept, debugFuse_kept, kept_eta, State.at_kept, State.wakeRow_kept] | rw [apply_ite State.kept])

theorem State.setOasis_kept (s : State) (o : Oasis) (x : OasisSt) : (State.setOasis s o x).kept = s.kept := by
  unfold State.setOasis
  repeat' (first | with_reducible rfl | assumption | rw [foldl_kept] | rw [foldl_fst_kept] | rw [foldl_snd_kept] | with_reducible refine ite_kept _ _ _ _ ?_ ?_ | split | intro _ _ | simp only [State.kept_mk, pending_kept, fuses_kept, live_kept, tileLive_kept, otp_kept, rollback_kept, debugFuse_kept, kept_eta] | rw [apply_ite State.kept])

theorem State.overridden_kept (s : State) (o : Oasis) (kind : Nat) (value : Nat) : (State.overridden s o kind value).kept = s.kept := by
  unfold State.overridden
  repeat' (first | with_reducible rfl | assumption | rw [foldl_kept] | rw [foldl_fst_kept] | rw [foldl_snd_kept] | with_reducible refine ite_kept _ _ _ _ ?_ ?_ | split | intro _ _ | simp only [State.kept_mk, pending_kept, fuses_kept, live_kept, tileLive_kept, otp_kept, rollback_kept, debugFuse_kept, kept_eta, State.fault_kept, State.pwrFlag_kept] | rw [apply_ite State.kept])

theorem State.excursion_kept (s : State) (o : Oasis) (kind : Nat) (value : Nat) (out : Bool) : (State.excursion s o kind value out).kept = s.kept := by
  unfold State.excursion
  repeat' (first | with_reducible rfl | assumption | rw [foldl_kept] | rw [foldl_fst_kept] | rw [foldl_snd_kept] | with_reducible refine ite_kept _ _ _ _ ?_ ?_ | split | intro _ _ | simp only [State.kept_mk, pending_kept, fuses_kept, live_kept, tileLive_kept, otp_kept, rollback_kept, debugFuse_kept, kept_eta, State.overridden_kept, State.setOasis_kept] | rw [apply_ite State.kept])

theorem execRowWakeDone_keeps (dom : Nat) (t : Time) (s : State) : OutcomeKeeps s.kept (execRowWakeDone dom t s) := by
  unfold execRowWakeDone
  show State.kept _ = _
  repeat' (first | with_reducible rfl | assumption | rw [foldl_kept] | rw [foldl_fst_kept] | rw [foldl_snd_kept] | with_reducible refine ite_kept _ _ _ _ ?_ ?_ | split | intro _ _ | simp only [State.kept_mk, pending_kept, fuses_kept, live_kept, tileLive_kept, otp_kept, rollback_kept, debugFuse_kept, kept_eta, State.at_kept, State.setRow_kept, State.excursion_kept, State.setOasis_kept] | rw [apply_ite State.kept])

theorem execRowCrestRestored_keeps (dom : Nat) (t : Time) (s : State) : OutcomeKeeps s.kept (execRowCrestRestored dom t s) := by
  unfold execRowCrestRestored
  show State.kept _ = _
  repeat' (first | with_reducible rfl | assumption | rw [foldl_kept] | rw [foldl_fst_kept] | rw [foldl_snd_kept] | with_reducible refine ite_kept _ _ _ _ ?_ ?_ | split | intro _ _ | simp only [State.kept_mk, pending_kept, fuses_kept, live_kept, tileLive_kept, otp_kept, rollback_kept, debugFuse_kept, kept_eta, State.at_kept, State.restoreCrest_kept, State.setRow_kept] | rw [apply_ite State.kept])

theorem execRowLeeRestored_keeps (dom : Nat) (t : Time) (s : State) : OutcomeKeeps s.kept (execRowLeeRestored dom t s) := by
  unfold execRowLeeRestored
  show State.kept _ = _
  repeat' (first | with_reducible rfl | assumption | rw [foldl_kept] | rw [foldl_fst_kept] | rw [foldl_snd_kept] | with_reducible refine ite_kept _ _ _ _ ?_ ?_ | split | intro _ _ | simp only [State.kept_mk, pending_kept, fuses_kept, live_kept, tileLive_kept, otp_kept, rollback_kept, debugFuse_kept, kept_eta, State.at_kept, State.restoreLee_kept, State.setRow_kept, State.releaseTile_kept, State.rowPassage_kept] | rw [apply_ite State.kept])

theorem execWakeLate_keeps (dom : Nat) (t : Time) (s : State) : OutcomeKeeps s.kept (execWakeLate dom t s) := by
  unfold execWakeLate
  show State.kept _ = _
  repeat' (first | with_reducible rfl | assumption | rw [foldl_kept] | rw [foldl_fst_kept] | rw [foldl_snd_kept] | with_reducible refine ite_kept _ _ _ _ ?_ ?_ | split | intro _ _ | simp only [State.kept_mk, pending_kept, fuses_kept, live_kept, tileLive_kept, otp_kept, rollback_kept, debugFuse_kept, kept_eta, State.at_kept, State.fault_kept, State.pwrFlag_kept, State.setRow_kept] | rw [apply_ite State.kept])

theorem execCommonEnterA1_keeps (dom : Nat) (t : Time) (s : State) : OutcomeKeeps s.kept (execCommonEnterA1 dom t s) := by
  unfold execCommonEnterA1
  show State.kept _ = _
  repeat' (first | with_reducible rfl | assumption | rw [foldl_kept] | rw [foldl_fst_kept] | rw [foldl_snd_kept] | with_reducible refine ite_kept _ _ _ _ ?_ ?_ | split | intro _ _ | simp only [State.kept_mk, pending_kept, fuses_kept, live_kept, tileLive_kept, otp_kept, rollback_kept, debugFuse_kept, kept_eta, State.at_kept] | rw [apply_ite State.kept])

theorem execCommonWake_keeps (dom : Nat) (t : Time) (s : State) : OutcomeKeeps s.kept (execCommonWake dom t s) := by
  unfold execCommonWake
  show State.kept _ = _
  repeat' (first | with_reducible rfl | assumption | rw [foldl_kept] | rw [foldl_fst_kept] | rw [foldl_snd_kept] | with_reducible refine ite_kept _ _ _ _ ?_ ?_ | split | intro _ _ | simp only [State.kept_mk, pending_kept, fuses_kept, live_kept, tileLive_kept, otp_kept, rollback_kept, debugFuse_kept, kept_eta, State.at_kept] | rw [apply_ite State.kept])

theorem execFDomainSwitchDone_keeps (dom : Nat) (t : Time) (s : State) : OutcomeKeeps s.kept (execFDomainSwitchDone dom t s) := by
  unfold execFDomainSwitchDone
  show State.kept _ = _
  repeat' (first | with_reducible rfl | assumption | rw [foldl_kept] | rw [foldl_fst_kept] | rw [foldl_snd_kept] | with_reducible refine ite_kept _ _ _ _ ?_ ?_ | split | intro _ _ | simp only [State.kept_mk, pending_kept, fuses_kept, live_kept, tileLive_kept, otp_kept, rollback_kept, debugFuse_kept, kept_eta, State.at_kept, State.modDie_kept] | rw [apply_ite State.kept])

theorem State.idleSoon_kept (s : State) (d : Nat) : (State.idleSoon s d).kept = s.kept := by
  unfold State.idleSoon
  repeat' (first | with_reducible rfl | assumption | rw [foldl_kept] | rw [foldl_fst_kept] | rw [foldl_snd_kept] | with_reducible refine ite_kept _ _ _ _ ?_ ?_ | split | intro _ _ | simp only [State.kept_mk, pending_kept, fuses_kept, live_kept, tileLive_kept, otp_kept, rollback_kept, debugFuse_kept, kept_eta, State.setRow_kept] | rw [apply_ite State.kept])

theorem State.busySoon_kept (s : State) (d : Nat) : (State.busySoon s d).kept = s.kept := by
  unfold State.busySoon
  repeat' (first | with_reducible rfl | assumption | rw [foldl_kept] | rw [foldl_fst_kept] | rw [foldl_snd_kept] | with_reducible refine ite_kept _ _ _ _ ?_ ?_ | split | intro _ _ | simp only [State.kept_mk, pending_kept, fuses_kept, live_kept, tileLive_kept, otp_kept, rollback_kept, debugFuse_kept, kept_eta, State.wakeRow_kept, State.setRow_kept] | rw [apply_ite State.kept])

theorem execHintRegNoChange_keeps (u1 : Nat) (s : State) : OutcomeKeeps s.kept (execHintRegNoChange u1 s) := by
  unfold execHintRegNoChange
  show State.kept _ = _
  repeat' (first | with_reducible rfl | assumption | rw [foldl_kept] | rw [foldl_fst_kept] | rw [foldl_snd_kept] | with_reducible refine ite_kept _ _ _ _ ?_ ?_ | split | intro _ _ | simp only [State.kept_mk, pending_kept, fuses_kept, live_kept, tileLive_kept, otp_kept, rollback_kept, debugFuse_kept, kept_eta] | rw [apply_ite State.kept])

theorem execHintRegIdleSoon_keeps (dom : Nat) (t : Time) (s : State) : OutcomeKeeps s.kept (execHintRegIdleSoon dom t s) := by
  unfold execHintRegIdleSoon
  show State.kept _ = _
  repeat' (first | with_reducible rfl | assumption | rw [foldl_kept] | rw [foldl_fst_kept] | rw [foldl_snd_kept] | with_reducible refine ite_kept _ _ _ _ ?_ ?_ | split | intro _ _ | simp only [State.kept_mk, pending_kept, fuses_kept, live_kept, tileLive_kept, otp_kept, rollback_kept, debugFuse_kept, kept_eta, State.idleSoon_kept, State.at_kept] | rw [apply_ite State.kept])

theorem execHintRegBusySoon_keeps (dom : Nat) (t : Time) (s : State) : OutcomeKeeps s.kept (execHintRegBusySoon dom t s) := by
  unfold execHintRegBusySoon
  show State.kept _ = _
  repeat' (first | with_reducible rfl | assumption | rw [foldl_kept] | rw [foldl_fst_kept] | rw [foldl_snd_kept] | with_reducible refine ite_kept _ _ _ _ ?_ ?_ | split | intro _ _ | simp only [State.kept_mk, pending_kept, fuses_kept, live_kept, tileLive_kept, otp_kept, rollback_kept, debugFuse_kept, kept_eta, State.busySoon_kept, State.at_kept] | rw [apply_ite State.kept])

theorem execBusyHoldEnd_keeps (dom : Nat) (t : Time) (s : State) : OutcomeKeeps s.kept (execBusyHoldEnd dom t s) := by
  unfold execBusyHoldEnd
  show State.kept _ = _
  repeat' (first | with_reducible rfl | assumption | rw [foldl_kept] | rw [foldl_fst_kept] | rw [foldl_snd_kept] | with_reducible refine ite_kept _ _ _ _ ?_ ?_ | split | intro _ _ | simp only [State.kept_mk, pending_kept, fuses_kept, live_kept, tileLive_kept, otp_kept, rollback_kept, debugFuse_kept, kept_eta, State.at_kept, State.setRow_kept] | rw [apply_ite State.kept])

theorem execPwrNoChange_keeps (tile : Fin 512) (g : Issue) (u3 : Fin 32) (s : State) : OutcomeKeeps s.kept (execPwrNoChange tile g u3 s) := by
  unfold execPwrNoChange
  show State.kept _ = _
  repeat' (first | with_reducible rfl | assumption | rw [foldl_kept] | rw [foldl_fst_kept] | rw [foldl_snd_kept] | with_reducible refine ite_kept _ _ _ _ ?_ ?_ | split | intro _ _ | simp only [State.kept_mk, pending_kept, fuses_kept, live_kept, tileLive_kept, otp_kept, rollback_kept, debugFuse_kept, kept_eta, State.issueCore_kept] | rw [apply_ite State.kept])

theorem execPwrIdleSoon_keeps (tile : Fin 512) (g : Issue) (a : Fin 32) (s : State) : OutcomeKeeps s.kept (execPwrIdleSoon tile g a s) := by
  unfold execPwrIdleSoon
  refine State.issue_kept _ _ _ _ _ fun c s h => ?_
  repeat' (first | with_reducible rfl | trivial | assumption | exact State.jumpTo_kept _ _ _ _ _ _ (by assumption) | refine readGate_kept _ _ _ _ _ ?_ ?_ | refine runVectors_kept _ _ _ _ _ _ _ _ _ _ ?_ | refine State.gsRun_kept _ _ _ _ _ _ _ _ _ ?_ ?_ | refine State.gsDone_kept _ _ _ _ _ _ _ ?_ | exact State.get_kept _ _ _ _ _ _ _ _ _ (by assumption) | refine State.cairnSend_kept _ _ _ _ _ _ _ _ ?_ ?_ | exact State.settleSend_kept _ _ _ _ _ _ _ _ _ _ _ _ _ _ (by assumption) | exact State.emitExtent_kept _ _ _ _ _ _ _ _ (by assumption) | rw [foldl_kept] | split | intro _ _ | simp only [NtRes.keeps_done, NtRes.keeps_jump, NtRes.keeps_raise, NtRes.keeps_wait, NtRes.keeps_hold, NtRes.keeps_stop, NtRes.keeps_left, State.kept_mk, pending_kept, fuses_kept, live_kept, tileLive_kept, otp_kept, rollback_kept, debugFuse_kept, kept_eta, State.issue_kept, State.idleSoon_kept] | rw [apply_ite State.kept])

theorem execPwrBusySoon_keeps (tile : Fin 512) (g : Issue) (a : Fin 32) (s : State) : OutcomeKeeps s.kept (execPwrBusySoon tile g a s) := by
  unfold execPwrBusySoon
  refine State.issue_kept _ _ _ _ _ fun c s h => ?_
  repeat' (first | with_reducible rfl | trivial | assumption | exact State.jumpTo_kept _ _ _ _ _ _ (by assumption) | refine readGate_kept _ _ _ _ _ ?_ ?_ | refine runVectors_kept _ _ _ _ _ _ _ _ _ _ ?_ | refine State.gsRun_kept _ _ _ _ _ _ _ _ _ ?_ ?_ | refine State.gsDone_kept _ _ _ _ _ _ _ ?_ | exact State.get_kept _ _ _ _ _ _ _ _ _ (by assumption) | refine State.cairnSend_kept _ _ _ _ _ _ _ _ ?_ ?_ | exact State.settleSend_kept _ _ _ _ _ _ _ _ _ _ _ _ _ _ (by assumption) | exact State.emitExtent_kept _ _ _ _ _ _ _ _ (by assumption) | rw [foldl_kept] | split | intro _ _ | simp only [NtRes.keeps_done, NtRes.keeps_jump, NtRes.keeps_raise, NtRes.keeps_wait, NtRes.keeps_hold, NtRes.keeps_stop, NtRes.keeps_left, State.kept_mk, pending_kept, fuses_kept, live_kept, tileLive_kept, otp_kept, rollback_kept, debugFuse_kept, kept_eta, State.issue_kept, State.busySoon_kept] | rw [apply_ite State.kept])

theorem execTimingAlarm_keeps (oasis : Oasis) (on : Bool) (s : State) : OutcomeKeeps s.kept (execTimingAlarm oasis on s) := by
  unfold execTimingAlarm
  show State.kept _ = _
  repeat' (first | with_reducible rfl | assumption | rw [foldl_kept] | rw [foldl_fst_kept] | rw [foldl_snd_kept] | with_reducible refine ite_kept _ _ _ _ ?_ ?_ | split | intro _ _ | simp only [State.kept_mk, pending_kept, fuses_kept, live_kept, tileLive_kept, otp_kept, rollback_kept, debugFuse_kept, kept_eta, State.setOasis_kept] | rw [apply_ite State.kept])

theorem execAvsWindow_keeps (oasis : Oasis) (alarm : Bool) (margin : Nat) (t : Time) (s : State) : OutcomeKeeps s.kept (execAvsWindow oasis alarm margin t s) := by
  unfold execAvsWindow
  show State.kept _ = _
  repeat' (first | with_reducible rfl | assumption | rw [foldl_kept] | rw [foldl_fst_kept] | rw [foldl_snd_kept] | with_reducible refine ite_kept _ _ _ _ ?_ ?_ | split | intro _ _ | simp only [State.kept_mk, pending_kept, fuses_kept, live_kept, tileLive_kept, otp_kept, rollback_kept, debugFuse_kept, kept_eta, State.at_kept, State.setOasis_kept, State.excursion_kept] | rw [apply_ite State.kept])

theorem execClockChange_keeps (oasis : Oasis) (t : Time) (s : State) : OutcomeKeeps s.kept (execClockChange oasis t s) := by
  unfold execClockChange
  show State.kept _ = _
  repeat' (first | with_reducible rfl | assumption | rw [foldl_kept] | rw [foldl_fst_kept] | rw [foldl_snd_kept] | with_reducible refine ite_kept _ _ _ _ ?_ ?_ | split | intro _ _ | simp only [State.kept_mk, pending_kept, fuses_kept, live_kept, tileLive_kept, otp_kept, rollback_kept, debugFuse_kept, kept_eta, State.at_kept, State.setOasis_kept, State.excursion_kept] | rw [apply_ite State.kept])

theorem State.startDown_kept (s : State) (cause : Nat) : (State.startDown s cause).kept = s.kept := by
  unfold State.startDown
  repeat' (first | with_reducible rfl | assumption | rw [foldl_kept] | rw [foldl_fst_kept] | rw [foldl_snd_kept] | with_reducible refine ite_kept _ _ _ _ ?_ ?_ | split | intro _ _ | simp only [State.kept_mk, pending_kept, fuses_kept, live_kept, tileLive_kept, otp_kept, rollback_kept, debugFuse_kept, kept_eta] | rw [apply_ite State.kept])

theorem State.throttle_kept (s : State) (d : Nat) : (State.throttle s d).kept = s.kept := by
  unfold State.throttle
  repeat' (first | with_reducible rfl | assumption | rw [foldl_kept] | rw [foldl_fst_kept] | rw [foldl_snd_kept] | with_reducible refine ite_kept _ _ _ _ ?_ ?_ | split | intro _ _ | simp only [State.kept_mk, pending_kept, fuses_kept, live_kept, tileLive_kept, otp_kept, rollback_kept, debugFuse_kept, kept_eta, State.setOasis_kept] | rw [apply_ite State.kept])

theorem State.unthrottle_kept (s : State) (d : Nat) : (State.unthrottle s d).kept = s.kept := by
  unfold State.unthrottle
  repeat' (first | with_reducible rfl | assumption | rw [foldl_kept] | rw [foldl_fst_kept] | rw [foldl_snd_kept] | with_reducible refine ite_kept _ _ _ _ ?_ ?_ | split | intro _ _ | simp only [State.kept_mk, pending_kept, fuses_kept, live_kept, tileLive_kept, otp_kept, rollback_kept, debugFuse_kept, kept_eta, State.setOasis_kept] | rw [apply_ite State.kept])

theorem State.senseHeat_kept (s : State) (x : Nat × Int) (warm : Bool) (hot : Bool) : (State.senseHeat s x warm hot).kept = s.kept := by
  unfold State.senseHeat
  repeat' (first | with_reducible rfl | assumption | rw [foldl_kept] | rw [foldl_fst_kept] | rw [foldl_snd_kept] | with_reducible refine ite_kept _ _ _ _ ?_ ?_ | split | intro _ _ | simp only [State.kept_mk, pending_kept, fuses_kept, live_kept, tileLive_kept, otp_kept, rollback_kept, debugFuse_kept, kept_eta, State.pwrFlag_kept, State.throttle_kept, State.overridden_kept, State.unthrottle_kept] | rw [apply_ite State.kept])

theorem State.dwHints_kept (s : State) (old : Bool) : (State.dwHints s old).kept = s.kept := by
  unfold State.dwHints
  repeat' (first | with_reducible rfl | assumption | rw [foldl_kept] | rw [foldl_fst_kept] | rw [foldl_snd_kept] | with_reducible refine ite_kept _ _ _ _ ?_ ?_ | split | intro _ _ | simp only [State.kept_mk, pending_kept, fuses_kept, live_kept, tileLive_kept, otp_kept, rollback_kept, debugFuse_kept, kept_eta, State.busySoon_kept] | rw [apply_ite State.kept])

theorem State.dwChange_kept (s : State) (c : DwChange) : (State.dwChange s c).kept = s.kept := by
  unfold State.dwChange
  repeat' (first | with_reducible rfl | assumption | rw [foldl_kept] | rw [foldl_fst_kept] | rw [foldl_snd_kept] | with_reducible refine ite_kept _ _ _ _ ?_ ?_ | split | intro _ _ | simp only [State.kept_mk, pending_kept, fuses_kept, live_kept, tileLive_kept, otp_kept, rollback_kept, debugFuse_kept, kept_eta, State.makeRecord_kept, State.signal_kept, State.dwHints_kept] | rw [apply_ite State.kept])

theorem State.dwFinish_kept (s : State) (j : DwJob) : (State.dwFinish s j).kept = s.kept := by
  unfold State.dwFinish
  repeat' (first | with_reducible rfl | assumption | rw [foldl_kept] | rw [foldl_fst_kept] | rw [foldl_snd_kept] | with_reducible refine ite_kept _ _ _ _ ?_ ?_ | split | intro _ _ | simp only [State.kept_mk, pending_kept, fuses_kept, live_kept, tileLive_kept, otp_kept, rollback_kept, debugFuse_kept, kept_eta, State.dwFlag_kept, State.dwChange_kept] | rw [apply_ite State.kept])

theorem State.dwSettle_kept (s : State) : (State.dwSettle s).kept = s.kept := by
  unfold State.dwSettle
  repeat' (first | with_reducible rfl | assumption | rw [foldl_kept] | rw [foldl_fst_kept] | rw [foldl_snd_kept] | with_reducible refine ite_kept _ _ _ _ ?_ ?_ | split | intro _ _ | simp only [State.kept_mk, pending_kept, fuses_kept, live_kept, tileLive_kept, otp_kept, rollback_kept, debugFuse_kept, kept_eta, State.dwFinish_kept] | rw [apply_ite State.kept])

theorem State.dwTake_kept (s : State) (j : DwJob) : (State.dwTake s j).kept = s.kept := by
  unfold State.dwTake
  repeat' (first | with_reducible rfl | assumption | rw [foldl_kept] | rw [foldl_fst_kept] | rw [foldl_snd_kept] | with_reducible refine ite_kept _ _ _ _ ?_ ?_ | split | intro _ _ | simp only [State.kept_mk, pending_kept, fuses_kept, live_kept, tileLive_kept, otp_kept, rollback_kept, debugFuse_kept, kept_eta, State.setReg_kept] | rw [apply_ite State.kept])

theorem execDwFrame_keeps (stream : Fin 24) (stamp : Stamp) (width : Nat) (height : Nat) (luma : List Byte) (damaged : Bool) (t : Time) (s : State) : OutcomeKeeps s.kept (execDwFrame stream stamp width height luma damaged t s) := by
  unfold execDwFrame
  show State.kept _ = _
  repeat' (first | with_reducible rfl | assumption | rw [foldl_kept] | rw [foldl_fst_kept] | rw [foldl_snd_kept] | with_reducible refine ite_kept _ _ _ _ ?_ ?_ | split | intro _ _ | simp only [State.kept_mk, pending_kept, fuses_kept, live_kept, tileLive_kept, otp_kept, rollback_kept, debugFuse_kept, kept_eta, State.at_kept, State.dwFlag_kept, State.dwSettle_kept, State.dwTake_kept] | rw [apply_ite State.kept])

theorem execDwFeedGo_keeps (t : Time) (s : State) : OutcomeKeeps s.kept (execDwFeedGo t s) := by
  unfold execDwFeedGo
  show State.kept _ = _
  repeat' (first | with_reducible rfl | assumption | rw [foldl_kept] | rw [foldl_fst_kept] | rw [foldl_snd_kept] | with_reducible refine ite_kept _ _ _ _ ?_ ?_ | split | intro _ _ | simp only [State.kept_mk, pending_kept, fuses_kept, live_kept, tileLive_kept, otp_kept, rollback_kept, debugFuse_kept, kept_eta, State.at_kept, State.absentAccess_kept, State.dwFlag_kept, State.dwTake_kept] | rw [apply_ite State.kept])

theorem execDwInferenceDone_keeps (t : Time) (s : State) : OutcomeKeeps s.kept (execDwInferenceDone t s) := by
  unfold execDwInferenceDone
  show State.kept _ = _
  repeat' (first | with_reducible rfl | assumption | rw [foldl_kept] | rw [foldl_fst_kept] | rw [foldl_snd_kept] | with_reducible refine ite_kept _ _ _ _ ?_ ?_ | split | intro _ _ | simp only [State.kept_mk, pending_kept, fuses_kept, live_kept, tileLive_kept, otp_kept, rollback_kept, debugFuse_kept, kept_eta, State.dwSettle_kept, State.at_kept] | rw [apply_ite State.kept])

theorem execDwEnable_keeps (t : Time) (s : State) : OutcomeKeeps s.kept (execDwEnable t s) := by
  unfold execDwEnable
  show State.kept _ = _
  repeat' (first | with_reducible rfl | assumption | rw [foldl_kept] | rw [foldl_fst_kept] | rw [foldl_snd_kept] | with_reducible refine ite_kept _ _ _ _ ?_ ?_ | split | intro _ _ | simp only [State.kept_mk, pending_kept, fuses_kept, live_kept, tileLive_kept, otp_kept, rollback_kept, debugFuse_kept, kept_eta, State.at_kept, State.absentAccess_kept, State.setReg_kept] | rw [apply_ite State.kept])

theorem execDwDisable_keeps (t : Time) (s : State) : OutcomeKeeps s.kept (execDwDisable t s) := by
  unfold execDwDisable
  show State.kept _ = _
  repeat' (first | with_reducible rfl | assumption | rw [foldl_kept] | rw [foldl_fst_kept] | rw [foldl_snd_kept] | with_reducible refine ite_kept _ _ _ _ ?_ ?_ | split | intro _ _ | simp only [State.kept_mk, pending_kept, fuses_kept, live_kept, tileLive_kept, otp_kept, rollback_kept, debugFuse_kept, kept_eta, State.at_kept, State.absentAccess_kept, State.setReg_kept, State.dwChange_kept] | rw [apply_ite State.kept])

theorem execDwFreeze_keeps (on : Bool) (s : State) : OutcomeKeeps s.kept (execDwFreeze on s) := by
  unfold execDwFreeze
  show State.kept _ = _
  repeat' (first | with_reducible rfl | assumption | rw [foldl_kept] | rw [foldl_fst_kept] | rw [foldl_snd_kept] | with_reducible refine ite_kept _ _ _ _ ?_ ?_ | split | intro _ _ | simp only [State.kept_mk, pending_kept, fuses_kept, live_kept, tileLive_kept, otp_kept, rollback_kept, debugFuse_kept, kept_eta, State.absentAccess_kept, State.setReg_kept] | rw [apply_ite State.kept])

theorem execDwSourceLost_keeps (t : Time) (s : State) : OutcomeKeeps s.kept (execDwSourceLost t s) := by
  unfold execDwSourceLost
  show State.kept _ = _
  repeat' (first | with_reducible rfl | assumption | rw [foldl_kept] | rw [foldl_fst_kept] | rw [foldl_snd_kept] | with_reducible refine ite_kept _ _ _ _ ?_ ?_ | split | intro _ _ | simp only [State.kept_mk, pending_kept, fuses_kept, live_kept, tileLive_kept, otp_kept, rollback_kept, debugFuse_kept, kept_eta, State.at_kept, State.dwFlag_kept, State.dwChange_kept] | rw [apply_ite State.kept])

theorem State.tick_kept (s : State) (t : Time) : (State.tick s t).kept = s.kept := by
  unfold State.tick
  repeat' (first | with_reducible rfl | assumption | rw [foldl_kept] | rw [foldl_fst_kept] | rw [foldl_snd_kept] | with_reducible refine ite_kept _ _ _ _ ?_ ?_ | split | intro _ _ | simp only [State.kept_mk, pending_kept, fuses_kept, live_kept, tileLive_kept, otp_kept, rollback_kept, debugFuse_kept, kept_eta] | rw [apply_ite State.kept])

theorem State.timeFlag_kept (s : State) (b : Nat) : (State.timeFlag s b).kept = s.kept := by
  unfold State.timeFlag
  repeat' (first | with_reducible rfl | assumption | rw [foldl_kept] | rw [foldl_fst_kept] | rw [foldl_snd_kept] | with_reducible refine ite_kept _ _ _ _ ?_ ?_ | split | intro _ _ | simp only [State.kept_mk, pending_kept, fuses_kept, live_kept, tileLive_kept, otp_kept, rollback_kept, debugFuse_kept, kept_eta, State.setFlag_kept, State.signal_kept] | rw [apply_ite State.kept])

theorem State.setServo_kept (s : State) (v : Servo) : (State.setServo s v).kept = s.kept := by
  unfold State.setServo
  repeat' (first | with_reducible rfl | assumption | rw [foldl_kept] | rw [foldl_fst_kept] | rw [foldl_snd_kept] | with_reducible refine ite_kept _ _ _ _ ?_ ?_ | split | intro _ _ | simp only [State.kept_mk, pending_kept, fuses_kept, live_kept, tileLive_kept, otp_kept, rollback_kept, debugFuse_kept, kept_eta, State.timeFlag_kept] | rw [apply_ite State.kept])

theorem State.startTime_kept (s : State) (n : Time) (servo : Servo) (epoch : Nat) : (State.startTime s n servo epoch).kept = s.kept := by
  unfold State.startTime
  repeat' (first | with_reducible rfl | assumption | rw [foldl_kept] | rw [foldl_fst_kept] | rw [foldl_snd_kept] | with_reducible refine ite_kept _ _ _ _ ?_ ?_ | split | intro _ _ | simp only [State.kept_mk, pending_kept, fuses_kept, live_kept, tileLive_kept, otp_kept, rollback_kept, debugFuse_kept, kept_eta] | rw [apply_ite State.kept])

theorem execTimeStart_keeps (s : State) : OutcomeKeeps s.kept (execTimeStart s) := by
  unfold execTimeStart
  show State.kept _ = _
  repeat' (first | with_reducible rfl | assumption | rw [foldl_kept] | rw [foldl_fst_kept] | rw [foldl_snd_kept] | with_reducible refine ite_kept _ _ _ _ ?_ ?_ | split | intro _ _ | simp only [State.kept_mk, pending_kept, fuses_kept, live_kept, tileLive_kept, otp_kept, rollback_kept, debugFuse_kept, kept_eta, State.startTime_kept] | rw [apply_ite State.kept])

theorem execTimeConfigChange_keeps (value : Word) (s : State) : OutcomeKeeps s.kept (execTimeConfigChange value s) := by
  unfold execTimeConfigChange
  show State.kept _ = _
  repeat' (first | with_reducible rfl | assumption | rw [foldl_kept] | rw [foldl_fst_kept] | rw [foldl_snd_kept] | with_reducible refine ite_kept _ _ _ _ ?_ ?_ | split | intro _ _ | simp only [State.kept_mk, pending_kept, fuses_kept, live_kept, tileLive_kept, otp_kept, rollback_kept, debugFuse_kept, kept_eta, State.absentAccess_kept, State.setReg_kept, State.setServo_kept] | rw [apply_ite State.kept])

theorem State.stepRefused_kept (s : State) (n : Int) : (State.stepRefused s n).kept = s.kept := by
  unfold State.stepRefused
  repeat' (first | with_reducible rfl | assumption | rw [foldl_kept] | rw [foldl_fst_kept] | rw [foldl_snd_kept] | with_reducible refine ite_kept _ _ _ _ ?_ ?_ | split | intro _ _ | simp only [State.kept_mk, pending_kept, fuses_kept, live_kept, tileLive_kept, otp_kept, rollback_kept, debugFuse_kept, kept_eta, State.timeFlag_kept] | rw [apply_ite State.kept])

theorem State.servoSync_kept (s : State) (offset : Int) : (State.servoSync s offset).kept = s.kept := by
  unfold State.servoSync
  repeat' (first | with_reducible rfl | assumption | rw [foldl_kept] | rw [foldl_fst_kept] | rw [foldl_snd_kept] | with_reducible refine ite_kept _ _ _ _ ?_ ?_ | split | intro _ _ | simp only [State.kept_mk, pending_kept, fuses_kept, live_kept, tileLive_kept, otp_kept, rollback_kept, debugFuse_kept, kept_eta, State.setServo_kept, State.stepRefused_kept] | rw [apply_ite State.kept])

theorem execPtpSync_keeps (master : Int) (t : Time) (s : State) : OutcomeKeeps s.kept (execPtpSync master t s) := by
  unfold execPtpSync
  show State.kept _ = _
  repeat' (first | with_reducible rfl | assumption | rw [foldl_kept] | rw [foldl_fst_kept] | rw [foldl_snd_kept] | with_reducible refine ite_kept _ _ _ _ ?_ ?_ | split | intro _ _ | simp only [State.kept_mk, pending_kept, fuses_kept, live_kept, tileLive_kept, otp_kept, rollback_kept, debugFuse_kept, kept_eta, State.setReg_kept, State.startTime_kept, State.tick_kept, State.servoSync_kept] | rw [apply_ite State.kept])

theorem execPtpSyncTimeout_keeps (t : Time) (s : State) : OutcomeKeeps s.kept (execPtpSyncTimeout t s) := by
  unfold execPtpSyncTimeout
  show State.kept _ = _
  repeat' (first | with_reducible rfl | assumption | rw [foldl_kept] | rw [foldl_fst_kept] | rw [foldl_snd_kept] | with_reducible refine ite_kept _ _ _ _ ?_ ?_ | split | intro _ _ | simp only [State.kept_mk, pending_kept, fuses_kept, live_kept, tileLive_kept, otp_kept, rollback_kept, debugFuse_kept, kept_eta, State.tick_kept, State.setServo_kept] | rw [apply_ite State.kept])

theorem execPtpAnnounceReceive_keeps (master : List Nat) (t : Time) (s : State) : OutcomeKeeps s.kept (execPtpAnnounceReceive master t s) := by
  unfold execPtpAnnounceReceive
  show State.kept _ = _
  repeat' (first | with_reducible rfl | assumption | rw [foldl_kept] | rw [foldl_fst_kept] | rw [foldl_snd_kept] | with_reducible refine ite_kept _ _ _ _ ?_ ?_ | split | intro _ _ | simp only [State.kept_mk, pending_kept, fuses_kept, live_kept, tileLive_kept, otp_kept, rollback_kept, debugFuse_kept, kept_eta, State.tick_kept] | rw [apply_ite State.kept])

theorem execPtpDelayResponse_keeps (delay : Int) (s : State) : OutcomeKeeps s.kept (execPtpDelayResponse delay s) := by
  unfold execPtpDelayResponse
  show State.kept _ = _
  repeat' (first | with_reducible rfl | assumption | rw [foldl_kept] | rw [foldl_fst_kept] | rw [foldl_snd_kept] | with_reducible refine ite_kept _ _ _ _ ?_ ?_ | split | intro _ _ | simp only [State.kept_mk, pending_kept, fuses_kept, live_kept, tileLive_kept, otp_kept, rollback_kept, debugFuse_kept, kept_eta] | rw [apply_ite State.kept])

theorem execPtpMasterSyncSend_keeps (die : Fin 2) (port : Fin 4) (t : Time) (s : State) : OutcomeKeeps s.kept (execPtpMasterSyncSend die port t s) := by
  unfold execPtpMasterSyncSend
  show State.kept _ = _
  repeat' (first | with_reducible rfl | assumption | rw [foldl_kept] | rw [foldl_fst_kept] | rw [foldl_snd_kept] | with_reducible refine ite_kept _ _ _ _ ?_ ?_ | split | intro _ _ | simp only [State.kept_mk, pending_kept, fuses_kept, live_kept, tileLive_kept, otp_kept, rollback_kept, debugFuse_kept, kept_eta, State.tick_kept] | rw [apply_ite State.kept])

theorem State.stepReply_kept (s : State) (status : Nat) : (State.stepReply s status).kept = s.kept := by
  unfold State.stepReply
  repeat' (first | with_reducible rfl | assumption | rw [foldl_kept] | rw [foldl_fst_kept] | rw [foldl_snd_kept] | with_reducible refine ite_kept _ _ _ _ ?_ ?_ | split | intro _ _ | simp only [State.kept_mk, pending_kept, fuses_kept, live_kept, tileLive_kept, otp_kept, rollback_kept, debugFuse_kept, kept_eta, State.adminDone_kept] | rw [apply_ite State.kept])

theorem execTimeStepApply_keeps (t : Time) (s : State) : OutcomeKeeps s.kept (execTimeStepApply t s) := by
  unfold execTimeStepApply
  show State.kept _ = _
  repeat' (first | with_reducible rfl | assumption | rw [foldl_kept] | rw [foldl_fst_kept] | rw [foldl_snd_kept] | with_reducible refine ite_kept _ _ _ _ ?_ ?_ | split | intro _ _ | simp only [State.kept_mk, pending_kept, fuses_kept, live_kept, tileLive_kept, otp_kept, rollback_kept, debugFuse_kept, kept_eta, State.tick_kept, State.timeFlag_kept, State.stepReply_kept] | rw [apply_ite State.kept])

theorem execTimeStepTimeout_keeps (t : Time) (s : State) : OutcomeKeeps s.kept (execTimeStepTimeout t s) := by
  unfold execTimeStepTimeout
  show State.kept _ = _
  repeat' (first | with_reducible rfl | assumption | rw [foldl_kept] | rw [foldl_fst_kept] | rw [foldl_snd_kept] | with_reducible refine ite_kept _ _ _ _ ?_ ?_ | split | intro _ _ | simp only [State.kept_mk, pending_kept, fuses_kept, live_kept, tileLive_kept, otp_kept, rollback_kept, debugFuse_kept, kept_eta, State.tick_kept, State.stepRefused_kept, State.stepReply_kept] | rw [apply_ite State.kept])

theorem execTimeStep_keeps (t : Time) (s : State) : OutcomeKeeps s.kept (execTimeStep t s) := by
  unfold execTimeStep
  show State.kept _ = _
  repeat' (first | with_reducible rfl | assumption | rw [foldl_kept] | rw [foldl_fst_kept] | rw [foldl_snd_kept] | with_reducible refine ite_kept _ _ _ _ ?_ ?_ | split | intro _ _ | simp only [State.kept_mk, pending_kept, fuses_kept, live_kept, tileLive_kept, otp_kept, rollback_kept, debugFuse_kept, kept_eta, State.tick_kept, State.at_kept, State.adminDone_kept, State.fault_kept, State.stepRefused_kept] | rw [apply_ite State.kept])

theorem execStampEpochNear_keeps (t : Time) (s : State) : OutcomeKeeps s.kept (execStampEpochNear t s) := by
  unfold execStampEpochNear
  show State.kept _ = _
  repeat' (first | with_reducible rfl | assumption | rw [foldl_kept] | rw [foldl_fst_kept] | rw [foldl_snd_kept] | with_reducible refine ite_kept _ _ _ _ ?_ ?_ | split | intro _ _ | simp only [State.kept_mk, pending_kept, fuses_kept, live_kept, tileLive_kept, otp_kept, rollback_kept, debugFuse_kept, kept_eta, State.tick_kept, State.fault_kept, State.timeFlag_kept] | rw [apply_ite State.kept])

theorem execStampLimit_keeps (t : Time) (s : State) : OutcomeKeeps s.kept (execStampLimit t s) := by
  unfold execStampLimit
  show State.kept _ = _
  repeat' (first | with_reducible rfl | assumption | rw [foldl_kept] | rw [foldl_fst_kept] | rw [foldl_snd_kept] | with_reducible refine ite_kept _ _ _ _ ?_ ?_ | split | intro _ _ | simp only [State.kept_mk, pending_kept, fuses_kept, live_kept, tileLive_kept, otp_kept, rollback_kept, debugFuse_kept, kept_eta, State.tick_kept] | rw [apply_ite State.kept])

theorem State.replayTo_kept (s : State) (t : Time) : (State.replayTo s t).kept = s.kept := by
  unfold State.replayTo
  repeat' (first | with_reducible rfl | assumption | rw [foldl_kept] | rw [foldl_fst_kept] | rw [foldl_snd_kept] | with_reducible refine ite_kept _ _ _ _ ?_ ?_ | split | intro _ _ | simp only [State.kept_mk, pending_kept, fuses_kept, live_kept, tileLive_kept, otp_kept, rollback_kept, debugFuse_kept, kept_eta] | rw [apply_ite State.kept])

theorem execReplayStart_keeps (first : Time) (s : State) : OutcomeKeeps s.kept (execReplayStart first s) := by
  unfold execReplayStart
  show State.kept _ = _
  repeat' (first | with_reducible rfl | assumption | rw [foldl_kept] | rw [foldl_fst_kept] | rw [foldl_snd_kept] | with_reducible refine ite_kept _ _ _ _ ?_ ?_ | split | intro _ _ | simp only [State.kept_mk, pending_kept, fuses_kept, live_kept, tileLive_kept, otp_kept, rollback_kept, debugFuse_kept, kept_eta] | rw [apply_ite State.kept])

theorem execReplayEnd_keeps (s : State) : OutcomeKeeps s.kept (execReplayEnd s) := by
  unfold execReplayEnd
  show State.kept _ = _
  repeat' (first | with_reducible rfl | assumption | rw [foldl_kept] | rw [foldl_fst_kept] | rw [foldl_snd_kept] | with_reducible refine ite_kept _ _ _ _ ?_ ?_ | split | intro _ _ | simp only [State.kept_mk, pending_kept, fuses_kept, live_kept, tileLive_kept, otp_kept, rollback_kept, debugFuse_kept, kept_eta, State.setPort_kept, State.noteChip_kept] | rw [apply_ite State.kept])

theorem execReplayClockAdvance_keeps (t : Time) (s : State) : OutcomeKeeps s.kept (execReplayClockAdvance t s) := by
  unfold execReplayClockAdvance
  show State.kept _ = _
  repeat' (first | with_reducible rfl | assumption | rw [foldl_kept] | rw [foldl_fst_kept] | rw [foldl_snd_kept] | with_reducible refine ite_kept _ _ _ _ ?_ ?_ | split | intro _ _ | simp only [State.kept_mk, pending_kept, fuses_kept, live_kept, tileLive_kept, otp_kept, rollback_kept, debugFuse_kept, kept_eta, State.replayTo_kept] | rw [apply_ite State.kept])

theorem State.hpFlag_kept (s : State) (b : Nat) : (State.hpFlag s b).kept = s.kept := by
  unfold State.hpFlag
  repeat' (first | with_reducible rfl | assumption | rw [foldl_kept] | rw [foldl_fst_kept] | rw [foldl_snd_kept] | with_reducible refine ite_kept _ _ _ _ ?_ ?_ | split | intro _ _ | simp only [State.kept_mk, pending_kept, fuses_kept, live_kept, tileLive_kept, otp_kept, rollback_kept, debugFuse_kept, kept_eta, State.setFlag_kept, State.countByte_kept] | rw [apply_ite State.kept])

theorem State.hpDrop_kept (s : State) (n : Nat) : (State.hpDrop s n).kept = s.kept := by
  unfold State.hpDrop
  repeat' (first | with_reducible rfl | assumption | rw [foldl_kept] | rw [foldl_fst_kept] | rw [foldl_snd_kept] | with_reducible refine ite_kept _ _ _ _ ?_ ?_ | split | intro _ _ | simp only [State.kept_mk, pending_kept, fuses_kept, live_kept, tileLive_kept, otp_kept, rollback_kept, debugFuse_kept, kept_eta, State.count32_kept] | rw [apply_ite State.kept])

theorem State.modLink_kept (s : State) (f : HostLink → HostLink) : (State.modLink s f).kept = s.kept := by
  unfold State.modLink
  repeat' (first | with_reducible rfl | assumption | rw [foldl_kept] | rw [foldl_fst_kept] | rw [foldl_snd_kept] | with_reducible refine ite_kept _ _ _ _ ?_ ?_ | split | intro _ _ | simp only [State.kept_mk, pending_kept, fuses_kept, live_kept, tileLive_kept, otp_kept, rollback_kept, debugFuse_kept, kept_eta] | rw [apply_ite State.kept])

theorem State.setQueue_kept (s : State) (q : Nat) (x : HpQueue) : (State.setQueue s q x).kept = s.kept := by
  unfold State.setQueue
  repeat' (first | with_reducible rfl | assumption | rw [foldl_kept] | rw [foldl_fst_kept] | rw [foldl_snd_kept] | with_reducible refine ite_kept _ _ _ _ ?_ ?_ | split | intro _ _ | simp only [State.kept_mk, pending_kept, fuses_kept, live_kept, tileLive_kept, otp_kept, rollback_kept, debugFuse_kept, kept_eta, State.modLink_kept] | rw [apply_ite State.kept])

theorem State.queueErr_kept (s : State) (q : Nat) (code : Nat) : (State.queueErr s q code).kept = s.kept := by
  unfold State.queueErr
  repeat' (first | with_reducible rfl | assumption | rw [foldl_kept] | rw [foldl_fst_kept] | rw [foldl_snd_kept] | with_reducible refine ite_kept _ _ _ _ ?_ ?_ | split | intro _ _ | simp only [State.kept_mk, pending_kept, fuses_kept, live_kept, tileLive_kept, otp_kept, rollback_kept, debugFuse_kept, kept_eta, State.hpFlag_kept, State.setQueue_kept] | rw [apply_ite State.kept])

theorem State.linkReset_kept (s : State) : (State.linkReset s).kept = s.kept := by
  unfold State.linkReset
  repeat' (first | with_reducible rfl | assumption | rw [foldl_kept] | rw [foldl_fst_kept] | rw [foldl_snd_kept] | with_reducible refine ite_kept _ _ _ _ ?_ ?_ | split | intro _ _ | simp only [State.kept_mk, pending_kept, fuses_kept, live_kept, tileLive_kept, otp_kept, rollback_kept, debugFuse_kept, kept_eta, State.hpDrop_kept, State.freeRanges_kept, State.setReg_kept, State.modLink_kept, State.hpFlag_kept] | rw [apply_ite State.kept])

theorem execHostLinkReset_keeps (u1 : Bool) (s : State) : OutcomeKeeps s.kept (execHostLinkReset u1 s) := by
  unfold execHostLinkReset
  show State.kept _ = _
  repeat' (first | with_reducible rfl | assumption | rw [foldl_kept] | rw [foldl_fst_kept] | rw [foldl_snd_kept] | with_reducible refine ite_kept _ _ _ _ ?_ ?_ | split | intro _ _ | simp only [State.kept_mk, pending_kept, fuses_kept, live_kept, tileLive_kept, otp_kept, rollback_kept, debugFuse_kept, kept_eta, State.linkReset_kept] | rw [apply_ite State.kept])

theorem execPowerStateChange_keeps (d3hot : Bool) (t : Time) (s : State) : OutcomeKeeps s.kept (execPowerStateChange d3hot t s) := by
  unfold execPowerStateChange
  show State.kept _ = _
  repeat' (first | with_reducible rfl | assumption | rw [foldl_kept] | rw [foldl_fst_kept] | rw [foldl_snd_kept] | with_reducible refine ite_kept _ _ _ _ ?_ ?_ | split | intro _ _ | simp only [State.kept_mk, pending_kept, fuses_kept, live_kept, tileLive_kept, otp_kept, rollback_kept, debugFuse_kept, kept_eta, State.modLink_kept, State.at_kept] | rw [apply_ite State.kept])

theorem execStageConfigWrite_keeps (value : Word) (s : State) : OutcomeKeeps s.kept (execStageConfigWrite value s) := by
  unfold execStageConfigWrite
  show State.kept _ = _
  repeat' (first | with_reducible rfl | assumption | rw [foldl_kept] | rw [foldl_fst_kept] | rw [foldl_snd_kept] | with_reducible refine ite_kept _ _ _ _ ?_ ?_ | split | intro _ _ | simp only [State.kept_mk, pending_kept, fuses_kept, live_kept, tileLive_kept, otp_kept, rollback_kept, debugFuse_kept, kept_eta, State.hpFlag_kept, State.setReg_kept] | rw [apply_ite State.kept])

theorem State.pruneBusy_kept (s : State) : (State.pruneBusy s).kept = s.kept := by
  unfold State.pruneBusy
  repeat' (first | with_reducible rfl | assumption | rw [foldl_kept] | rw [foldl_fst_kept] | rw [foldl_snd_kept] | with_reducible refine ite_kept _ _ _ _ ?_ ?_ | split | intro _ _ | simp only [State.kept_mk, pending_kept, fuses_kept, live_kept, tileLive_kept, otp_kept, rollback_kept, debugFuse_kept, kept_eta, State.modLink_kept] | rw [apply_ite State.kept])

theorem State.startCmd_kept (s : State) (c : HpCmd) (logged : Option Nat) : (State.startCmd s c logged).kept = s.kept := by
  unfold State.startCmd
  repeat' (first | with_reducible rfl | assumption | rw [foldl_kept] | rw [foldl_fst_kept] | rw [foldl_snd_kept] | with_reducible refine ite_kept _ _ _ _ ?_ ?_ | split | intro _ _ | simp only [State.kept_mk, pending_kept, fuses_kept, live_kept, tileLive_kept, otp_kept, rollback_kept, debugFuse_kept, kept_eta, State.pruneBusy_kept, State.logInput_kept, State.hpDone_kept, State.absentAccess_kept, State.hpFlag_kept, State.modLink_kept] | rw [apply_ite State.kept])

theorem execHp1Doorbell_keeps (value : Word) (t : Time) (s : State) : OutcomeKeeps s.kept (execHp1Doorbell value t s) := by
  unfold execHp1Doorbell
  show State.kept _ = _
  repeat' (first | with_reducible rfl | assumption | rw [foldl_kept] | rw [foldl_fst_kept] | rw [foldl_snd_kept] | with_reducible refine ite_kept _ _ _ _ ?_ ?_ | split | intro _ _ | simp only [State.kept_mk, pending_kept, fuses_kept, live_kept, tileLive_kept, otp_kept, rollback_kept, debugFuse_kept, kept_eta, State.at_kept, State.setFlag_kept, State.startCmd_kept, State.modLink_kept] | rw [apply_ite State.kept])

theorem State.stampGroup_kept (s : State) (q : Nat) : (State.stampGroup s q).kept = s.kept := by
  unfold State.stampGroup
  repeat' (first | with_reducible rfl | assumption | rw [foldl_kept] | rw [foldl_fst_kept] | rw [foldl_snd_kept] | with_reducible refine ite_kept _ _ _ _ ?_ ?_ | split | intro _ _ | simp only [State.kept_mk, pending_kept, fuses_kept, live_kept, tileLive_kept, otp_kept, rollback_kept, debugFuse_kept, kept_eta, State.modLink_kept, State.setQueue_kept] | rw [apply_ite State.kept])

theorem execSqTailDoorbell_keeps (queue : Fin 8) (value : Word) (t : Time) (s : State) : OutcomeKeeps s.kept (execSqTailDoorbell queue value t s) := by
  unfold execSqTailDoorbell
  show State.kept _ = _
  repeat' (first | with_reducible rfl | assumption | rw [foldl_kept] | rw [foldl_fst_kept] | rw [foldl_snd_kept] | with_reducible refine ite_kept _ _ _ _ ?_ ?_ | split | intro _ _ | simp only [State.kept_mk, pending_kept, fuses_kept, live_kept, tileLive_kept, otp_kept, rollback_kept, debugFuse_kept, kept_eta, State.at_kept, State.hpFlag_kept, State.queueErr_kept, State.stampGroup_kept, State.setQueue_kept] | rw [apply_ite State.kept])

theorem execHp2GroupStamp_keeps (queue : Fin 8) (t : Time) (s : State) : OutcomeKeeps s.kept (execHp2GroupStamp queue t s) := by
  unfold execHp2GroupStamp
  show State.kept _ = _
  repeat' (first | with_reducible rfl | assumption | rw [foldl_kept] | rw [foldl_fst_kept] | rw [foldl_snd_kept] | with_reducible refine ite_kept _ _ _ _ ?_ ?_ | split | intro _ _ | simp only [State.kept_mk, pending_kept, fuses_kept, live_kept, tileLive_kept, otp_kept, rollback_kept, debugFuse_kept, kept_eta, State.stampGroup_kept, State.at_kept] | rw [apply_ite State.kept])

theorem execSqEntryFetch_keeps (queue : Fin 8) (data : Option (List Byte)) (t : Time) (s : State) : OutcomeKeeps s.kept (execSqEntryFetch queue data t s) := by
  unfold execSqEntryFetch
  show State.kept _ = _
  repeat' (first | with_reducible rfl | assumption | rw [foldl_kept] | rw [foldl_fst_kept] | rw [foldl_snd_kept] | with_reducible refine ite_kept _ _ _ _ ?_ ?_ | split | intro _ _ | simp only [State.kept_mk, pending_kept, fuses_kept, live_kept, tileLive_kept, otp_kept, rollback_kept, debugFuse_kept, kept_eta, State.at_kept, State.hpDrop_kept, State.hpFlag_kept, State.queueErr_kept, State.setQueue_kept, State.startCmd_kept] | rw [apply_ite State.kept])

theorem execCqHeadDoorbell_keeps (queue : Fin 8) (value : Word) (s : State) : OutcomeKeeps s.kept (execCqHeadDoorbell queue value s) := by
  unfold execCqHeadDoorbell
  show State.kept _ = _
  repeat' (first | with_reducible rfl | assumption | rw [foldl_kept] | rw [foldl_fst_kept] | rw [foldl_snd_kept] | with_reducible refine ite_kept _ _ _ _ ?_ ?_ | split | intro _ _ | simp only [State.kept_mk, pending_kept, fuses_kept, live_kept, tileLive_kept, otp_kept, rollback_kept, debugFuse_kept, kept_eta, State.hpFlag_kept, State.queueErr_kept, State.setQueue_kept] | rw [apply_ite State.kept])

theorem execQueueEnable_keeps (queue : Fin 8) (s : State) : OutcomeKeeps s.kept (execQueueEnable queue s) := by
  unfold execQueueEnable
  show State.kept _ = _
  repeat' (first | with_reducible rfl | assumption | rw [foldl_kept] | rw [foldl_fst_kept] | rw [foldl_snd_kept] | with_reducible refine ite_kept _ _ _ _ ?_ ?_ | split | intro _ _ | simp only [State.kept_mk, pending_kept, fuses_kept, live_kept, tileLive_kept, otp_kept, rollback_kept, debugFuse_kept, kept_eta, State.setQueue_kept] | rw [apply_ite State.kept])

theorem execQueueDisable_keeps (queue : Fin 8) (s : State) : OutcomeKeeps s.kept (execQueueDisable queue s) := by
  unfold execQueueDisable
  show State.kept _ = _
  repeat' (first | with_reducible rfl | assumption | rw [foldl_kept] | rw [foldl_fst_kept] | rw [foldl_snd_kept] | with_reducible refine ite_kept _ _ _ _ ?_ ?_ | split | intro _ _ | simp only [State.kept_mk, pending_kept, fuses_kept, live_kept, tileLive_kept, otp_kept, rollback_kept, debugFuse_kept, kept_eta, State.setQueue_kept] | rw [apply_ite State.kept])

theorem State.takeCmd_kept (s : State) (c : HpCmd) : (State.takeCmd s c).kept = s.kept := by
  unfold State.takeCmd
  repeat' (first | with_reducible rfl | assumption | rw [foldl_kept] | rw [foldl_fst_kept] | rw [foldl_snd_kept] | with_reducible refine ite_kept _ _ _ _ ?_ ?_ | split | intro _ _ | simp only [State.kept_mk, pending_kept, fuses_kept, live_kept, tileLive_kept, otp_kept, rollback_kept, debugFuse_kept, kept_eta, State.modLink_kept] | rw [apply_ite State.kept])

theorem execHpNop_keeps (t : Time) (s : State) : OutcomeKeeps s.kept (execHpNop t s) := by
  unfold execHpNop
  show State.kept _ = _
  repeat' (first | with_reducible rfl | assumption | rw [foldl_kept] | rw [foldl_fst_kept] | rw [foldl_snd_kept] | with_reducible refine ite_kept _ _ _ _ ?_ ?_ | split | intro _ _ | simp only [State.kept_mk, pending_kept, fuses_kept, live_kept, tileLive_kept, otp_kept, rollback_kept, debugFuse_kept, kept_eta, State.at_kept, State.hpDone_kept, State.takeCmd_kept] | rw [apply_ite State.kept])

theorem execStageIn_keeps (t : Time) (s : State) : OutcomeKeeps s.kept (execStageIn t s) := by
  unfold execStageIn
  show State.kept _ = _
  repeat' (first | with_reducible rfl | assumption | rw [foldl_kept] | rw [foldl_fst_kept] | rw [foldl_snd_kept] | with_reducible refine ite_kept _ _ _ _ ?_ ?_ | split | intro _ _ | simp only [State.kept_mk, pending_kept, fuses_kept, live_kept, tileLive_kept, otp_kept, rollback_kept, debugFuse_kept, kept_eta, State.at_kept, State.modLink_kept, State.takeCmd_kept] | rw [apply_ite State.kept])

theorem execStageInComplete_keeps (data : Option (List Byte)) (t : Time) (s : State) : OutcomeKeeps s.kept (execStageInComplete data t s) := by
  unfold execStageInComplete
  show State.kept _ = _
  repeat' (first | with_reducible rfl | assumption | rw [foldl_kept] | rw [foldl_fst_kept] | rw [foldl_snd_kept] | with_reducible refine ite_kept _ _ _ _ ?_ ?_ | split | intro _ _ | simp only [State.kept_mk, pending_kept, fuses_kept, live_kept, tileLive_kept, otp_kept, rollback_kept, debugFuse_kept, kept_eta, State.at_kept, State.modLink_kept, State.hpDone_kept, State.hpFlag_kept, State.resvWrite_kept] | rw [apply_ite State.kept])

theorem execSubmitJob_keeps (t : Time) (s : State) : OutcomeKeeps s.kept (execSubmitJob t s) := by
  unfold execSubmitJob
  show State.kept _ = _
  repeat' (first | with_reducible rfl | assumption | rw [foldl_kept] | rw [foldl_fst_kept] | rw [foldl_snd_kept] | with_reducible refine ite_kept _ _ _ _ ?_ ?_ | split | intro _ _ | simp only [State.kept_mk, pending_kept, fuses_kept, live_kept, tileLive_kept, otp_kept, rollback_kept, debugFuse_kept, kept_eta, State.at_kept, State.takeCmd_kept] | rw [apply_ite State.kept])

theorem execAdminCommandNext_keeps (s : State) : OutcomeKeeps s.kept (execAdminCommandNext s) := by
  unfold execAdminCommandNext
  show State.kept _ = _
  repeat' (first | with_reducible rfl | assumption | rw [foldl_kept] | rw [foldl_fst_kept] | rw [foldl_snd_kept] | with_reducible refine ite_kept _ _ _ _ ?_ ?_ | split | intro _ _ | simp only [State.kept_mk, pending_kept, fuses_kept, live_kept, tileLive_kept, otp_kept, rollback_kept, debugFuse_kept, kept_eta, State.modLink_kept] | rw [apply_ite State.kept])

theorem execSlip_keeps (t : Time) (s : State) : OutcomeKeeps s.kept (execSlip t s) := by
  unfold execSlip
  show State.kept _ = _
  repeat' (first | with_reducible rfl | assumption | rw [foldl_kept] | rw [foldl_fst_kept] | rw [foldl_snd_kept] | with_reducible refine ite_kept _ _ _ _ ?_ ?_ | split | intro _ _ | simp only [State.kept_mk, pending_kept, fuses_kept, live_kept, tileLive_kept, otp_kept, rollback_kept, debugFuse_kept, kept_eta, State.at_kept, State.modLink_kept, State.slipRequest_kept, State.hpDone_kept] | rw [apply_ite State.kept])

theorem execOutputCopyComplete_keeps (ok : Bool) (t : Time) (s : State) : OutcomeKeeps s.kept (execOutputCopyComplete ok t s) := by
  unfold execOutputCopyComplete
  show State.kept _ = _
  repeat' (first | with_reducible rfl | assumption | rw [foldl_kept] | rw [foldl_fst_kept] | rw [foldl_snd_kept] | with_reducible refine ite_kept _ _ _ _ ?_ ?_ | split | intro _ _ | simp only [State.kept_mk, pending_kept, fuses_kept, live_kept, tileLive_kept, otp_kept, rollback_kept, debugFuse_kept, kept_eta, State.at_kept, State.modLink_kept, State.hpDone_kept, State.hostWrite_kept, State.hpFlag_kept] | rw [apply_ite State.kept])

theorem State.postHp1_kept (s : State) (d : HpDone) : (State.postHp1 s d).kept = s.kept := by
  unfold State.postHp1
  repeat' (first | with_reducible rfl | assumption | rw [foldl_kept] | rw [foldl_fst_kept] | rw [foldl_snd_kept] | with_reducible refine ite_kept _ _ _ _ ?_ ?_ | split | intro _ _ | simp only [State.kept_mk, pending_kept, fuses_kept, live_kept, tileLive_kept, otp_kept, rollback_kept, debugFuse_kept, kept_eta, State.setReg_kept, State.setFlag_kept, State.modLink_kept, State.signal_kept] | rw [apply_ite State.kept])

theorem State.postHp2_kept (s : State) (d : HpDone) : (State.postHp2 s d).kept = s.kept := by
  unfold State.postHp2
  repeat' (first | with_reducible rfl | assumption | rw [foldl_kept] | rw [foldl_fst_kept] | rw [foldl_snd_kept] | with_reducible refine ite_kept _ _ _ _ ?_ ?_ | split | intro _ _ | simp only [State.kept_mk, pending_kept, fuses_kept, live_kept, tileLive_kept, otp_kept, rollback_kept, debugFuse_kept, kept_eta, State.hostWrite_kept, State.setQueue_kept, State.signal_kept] | rw [apply_ite State.kept])

theorem execCompletionPost_keeps (t : Time) (s : State) : OutcomeKeeps s.kept (execCompletionPost t s) := by
  unfold execCompletionPost
  show State.kept _ = _
  repeat' (first | with_reducible rfl | assumption | rw [foldl_kept] | rw [foldl_fst_kept] | rw [foldl_snd_kept] | with_reducible refine ite_kept _ _ _ _ ?_ ?_ | split | intro _ _ | simp only [State.kept_mk, pending_kept, fuses_kept, live_kept, tileLive_kept, otp_kept, rollback_kept, debugFuse_kept, kept_eta, State.at_kept, State.modLink_kept, State.postHp1_kept, State.postHp2_kept] | rw [apply_ite State.kept])

theorem State.injectFrame_kept (s : State) (j : Fin 2) (n : Nat) (i : Item) (pixels : List Byte) : (State.injectFrame s j n i pixels).kept = s.kept := by
  unfold State.injectFrame
  repeat' (first | with_reducible rfl | assumption | rw [foldl_kept] | rw [foldl_fst_kept] | rw [foldl_snd_kept] | with_reducible refine ite_kept _ _ _ _ ?_ ?_ | split | intro _ _ | simp only [State.kept_mk, pending_kept, fuses_kept, live_kept, tileLive_kept, otp_kept, rollback_kept, debugFuse_kept, kept_eta, State.setCam_kept, State.resvWrite_kept, State.laneArrive_kept, State.frameResolved_kept] | rw [apply_ite State.kept])

theorem State.injectChip_kept (s : State) (st : Stamp) (data : List Byte) : (State.injectChip s st data).kept = s.kept := by
  unfold State.injectChip
  repeat' (first | with_reducible rfl | assumption | rw [foldl_kept] | rw [foldl_fst_kept] | rw [foldl_snd_kept] | with_reducible refine ite_kept _ _ _ _ ?_ ?_ | split | intro _ _ | simp only [State.kept_mk, pending_kept, fuses_kept, live_kept, tileLive_kept, otp_kept, rollback_kept, debugFuse_kept, kept_eta, State.noteChip_kept, State.setPort_kept, State.chipEvent_kept] | rw [apply_ite State.kept])

theorem State.injectEvent_kept (s : State) (key : Key) (data : List Byte) : (State.injectEvent s key data).kept = s.kept := by
  unfold State.injectEvent
  repeat' (first | with_reducible rfl | assumption | rw [foldl_kept] | rw [foldl_fst_kept] | rw [foldl_snd_kept] | with_reducible refine ite_kept _ _ _ _ ?_ ?_ | split | intro _ _ | simp only [State.kept_mk, pending_kept, fuses_kept, live_kept, tileLive_kept, otp_kept, rollback_kept, debugFuse_kept, kept_eta, State.injectFrame_kept, State.laneArrive_kept, State.injectChip_kept] | rw [apply_ite State.kept])

theorem State.injectReply_kept (s : State) (key : Key) (data : List Byte) : (State.injectReply s key data).kept = s.kept := by
  unfold State.injectReply
  repeat' (first | with_reducible rfl | assumption | rw [foldl_kept] | rw [foldl_fst_kept] | rw [foldl_snd_kept] | with_reducible refine ite_kept _ _ _ _ ?_ ?_ | split | intro _ _ | simp only [State.kept_mk, pending_kept, fuses_kept, live_kept, tileLive_kept, otp_kept, rollback_kept, debugFuse_kept, kept_eta, State.replyIn_kept] | rw [apply_ite State.kept])

theorem execInject_keeps (t : Time) (s : State) : OutcomeKeeps s.kept (execInject t s) := by
  unfold execInject
  show State.kept _ = _
  repeat' (first | with_reducible rfl | assumption | rw [foldl_kept] | rw [foldl_fst_kept] | rw [foldl_snd_kept] | with_reducible refine ite_kept _ _ _ _ ?_ ?_ | split | intro _ _ | simp only [State.kept_mk, pending_kept, fuses_kept, live_kept, tileLive_kept, otp_kept, rollback_kept, debugFuse_kept, kept_eta, State.at_kept, State.takeCmd_kept, State.hpDone_kept, State.modLink_kept, State.replayTo_kept, State.injectEvent_kept, State.startCmd_kept, State.lateIngress_kept, State.injectReply_kept] | rw [apply_ite State.kept])

theorem State.warm_kept (s : State) (cause : Nat) : (State.warm s cause).kept = s.kept := by
  unfold State.warm
  repeat' (first | with_reducible rfl | assumption | rw [foldl_kept] | rw [foldl_fst_kept] | rw [foldl_snd_kept] | with_reducible refine ite_kept _ _ _ _ ?_ ?_ | split | intro _ _ | simp only [State.kept_mk, pending_kept, fuses_kept, live_kept, tileLive_kept, otp_kept, rollback_kept, debugFuse_kept, kept_eta, State.count32_kept, State.linkReset_kept] | rw [apply_ite State.kept])

theorem execResetNRelease_keeps (bscan : Bool) (s : State) : OutcomeKeeps s.kept (execResetNRelease bscan s) := by
  unfold execResetNRelease
  show State.kept _ = _
  repeat' (first | with_reducible rfl | assumption | rw [foldl_kept] | rw [foldl_fst_kept] | rw [foldl_snd_kept] | with_reducible refine ite_kept _ _ _ _ ?_ ?_ | split | intro _ _ | simp only [State.kept_mk, pending_kept, fuses_kept, live_kept, tileLive_kept, otp_kept, rollback_kept, debugFuse_kept, kept_eta, State.modUnit] | rw [apply_ite State.kept])

theorem State.shdnWrite_kept (s : State) (state : Nat) : (State.shdnWrite s state).kept = s.kept := by
  unfold State.shdnWrite
  repeat' (first | with_reducible rfl | assumption | rw [foldl_kept] | rw [foldl_fst_kept] | rw [foldl_snd_kept] | with_reducible refine ite_kept _ _ _ _ ?_ ?_ | split | intro _ _ | simp only [State.kept_mk, pending_kept, fuses_kept, live_kept, tileLive_kept, otp_kept, rollback_kept, debugFuse_kept, kept_eta, State.modUnit] | rw [apply_ite State.kept])

theorem State.shdnRead_kept (s : State) : (State.shdnRead s).kept = s.kept := by
  unfold State.shdnRead
  repeat' (first | with_reducible rfl | assumption | rw [foldl_kept] | rw [foldl_fst_kept] | rw [foldl_snd_kept] | with_reducible refine ite_kept _ _ _ _ ?_ ?_ | split | intro _ _ | simp only [State.kept_mk, pending_kept, fuses_kept, live_kept, tileLive_kept, otp_kept, rollback_kept, debugFuse_kept, kept_eta, State.setFlag_kept, State.shdnWrite_kept, State.modUnit] | rw [apply_ite State.kept])

theorem State.startFw_kept (s : State) (copy : Nat) (bs : List Byte) : (State.startFw s copy bs).kept = s.kept := by
  unfold State.startFw
  repeat' (first | with_reducible rfl | assumption | rw [foldl_kept] | rw [foldl_fst_kept] | rw [foldl_snd_kept] | with_reducible refine ite_kept _ _ _ _ ?_ ?_ | split | intro _ _ | simp only [State.kept_mk, pending_kept, fuses_kept, live_kept, tileLive_kept, otp_kept, rollback_kept, debugFuse_kept, kept_eta, State.modUnit] | rw [apply_ite State.kept])

theorem execFirmwareStart_keeps (s : State) : OutcomeKeeps s.kept (execFirmwareStart s) := by
  unfold execFirmwareStart
  show State.kept _ = _
  repeat' (first | with_reducible rfl | assumption | rw [foldl_kept] | rw [foldl_fst_kept] | rw [foldl_snd_kept] | with_reducible refine ite_kept _ _ _ _ ?_ ?_ | split | intro _ _ | simp only [State.kept_mk, pending_kept, fuses_kept, live_kept, tileLive_kept, otp_kept, rollback_kept, debugFuse_kept, kept_eta, State.setFlag_kept, State.startFw_kept, State.modUnit] | rw [apply_ite State.kept])

theorem execRecover_keeps (s : State) : OutcomeKeeps s.kept (execRecover s) := by
  unfold execRecover
  show State.kept _ = _
  repeat' (first | with_reducible rfl | assumption | rw [foldl_kept] | rw [foldl_fst_kept] | rw [foldl_snd_kept] | with_reducible refine ite_kept _ _ _ _ ?_ ?_ | split | intro _ _ | simp only [State.kept_mk, pending_kept, fuses_kept, live_kept, tileLive_kept, otp_kept, rollback_kept, debugFuse_kept, kept_eta, State.startFw_kept] | rw [apply_ite State.kept])

theorem State.otpDone_kept (s : State) (result : Nat) : (State.otpDone s result).kept = s.kept := by
  unfold State.otpDone
  repeat' (first | with_reducible rfl | assumption | rw [foldl_kept] | rw [foldl_fst_kept] | rw [foldl_snd_kept] | with_reducible refine ite_kept _ _ _ _ ?_ ?_ | split | intro _ _ | simp only [State.kept_mk, pending_kept, fuses_kept, live_kept, tileLive_kept, otp_kept, rollback_kept, debugFuse_kept, kept_eta, State.modUnit] | rw [apply_ite State.kept])

theorem State.bypass_kept (s : State) (tdi : List Bool) : (State.bypass s tdi).kept = s.kept := by
  unfold State.bypass
  repeat' (first | with_reducible rfl | assumption | rw [foldl_kept] | rw [foldl_fst_kept] | rw [foldl_snd_kept] | with_reducible refine ite_kept _ _ _ _ ?_ ?_ | split | intro _ _ | simp only [State.kept_mk, pending_kept, fuses_kept, live_kept, tileLive_kept, otp_kept, rollback_kept, debugFuse_kept, kept_eta, State.modUnit] | rw [apply_ite State.kept])

theorem execJtagBypass_keeps (tdi : List Bool) (s : State) : OutcomeKeeps s.kept (execJtagBypass tdi s) := by
  unfold execJtagBypass
  show State.kept _ = _
  repeat' (first | with_reducible rfl | assumption | rw [foldl_kept] | rw [foldl_fst_kept] | rw [foldl_snd_kept] | with_reducible refine ite_kept _ _ _ _ ?_ ?_ | split | intro _ _ | simp only [State.kept_mk, pending_kept, fuses_kept, live_kept, tileLive_kept, otp_kept, rollback_kept, debugFuse_kept, kept_eta, State.bypass_kept] | rw [apply_ite State.kept])

theorem execJtagIdcode_keeps (s : State) : OutcomeKeeps s.kept (execJtagIdcode s) := by
  unfold execJtagIdcode
  show State.kept _ = _
  repeat' (first | with_reducible rfl | assumption | rw [foldl_kept] | rw [foldl_fst_kept] | rw [foldl_snd_kept] | with_reducible refine ite_kept _ _ _ _ ?_ ?_ | split | intro _ _ | simp only [State.kept_mk, pending_kept, fuses_kept, live_kept, tileLive_kept, otp_kept, rollback_kept, debugFuse_kept, kept_eta, State.modUnit] | rw [apply_ite State.kept])

theorem execJtagSamplePreload_keeps (pins : List Bool) (load : List Bool) (s : State) : OutcomeKeeps s.kept (execJtagSamplePreload pins load s) := by
  unfold execJtagSamplePreload
  show State.kept _ = _
  repeat' (first | with_reducible rfl | assumption | rw [foldl_kept] | rw [foldl_fst_kept] | rw [foldl_snd_kept] | with_reducible refine ite_kept _ _ _ _ ?_ ?_ | split | intro _ _ | simp only [State.kept_mk, pending_kept, fuses_kept, live_kept, tileLive_kept, otp_kept, rollback_kept, debugFuse_kept, kept_eta, State.bypass_kept, State.modUnit] | rw [apply_ite State.kept])

theorem execJtagExtest_keeps (pins : List Bool) (load : List Bool) (s : State) : OutcomeKeeps s.kept (execJtagExtest pins load s) := by
  unfold execJtagExtest
  show State.kept _ = _
  repeat' (first | with_reducible rfl | assumption | rw [foldl_kept] | rw [foldl_fst_kept] | rw [foldl_snd_kept] | with_reducible refine ite_kept _ _ _ _ ?_ ?_ | split | intro _ _ | simp only [State.kept_mk, pending_kept, fuses_kept, live_kept, tileLive_kept, otp_kept, rollback_kept, debugFuse_kept, kept_eta, State.bypass_kept, State.modUnit] | rw [apply_ite State.kept])

theorem execJtagClamp_keeps (s : State) : OutcomeKeeps s.kept (execJtagClamp s) := by
  unfold execJtagClamp
  show State.kept _ = _
  repeat' (first | with_reducible rfl | assumption | rw [foldl_kept] | rw [foldl_fst_kept] | rw [foldl_snd_kept] | with_reducible refine ite_kept _ _ _ _ ?_ ?_ | split | intro _ _ | simp only [State.kept_mk, pending_kept, fuses_kept, live_kept, tileLive_kept, otp_kept, rollback_kept, debugFuse_kept, kept_eta, State.bypass_kept, State.modUnit] | rw [apply_ite State.kept])

theorem execJtagHighz_keeps (s : State) : OutcomeKeeps s.kept (execJtagHighz s) := by
  unfold execJtagHighz
  show State.kept _ = _
  repeat' (first | with_reducible rfl | assumption | rw [foldl_kept] | rw [foldl_fst_kept] | rw [foldl_snd_kept] | with_reducible refine ite_kept _ _ _ _ ?_ ?_ | split | intro _ _ | simp only [State.kept_mk, pending_kept, fuses_kept, live_kept, tileLive_kept, otp_kept, rollback_kept, debugFuse_kept, kept_eta, State.bypass_kept, State.modUnit] | rw [apply_ite State.kept])

theorem execDbgChal_keeps (s : State) : OutcomeKeeps s.kept (execDbgChal s) := by
  unfold execDbgChal
  show State.kept _ = _
  repeat' (first | with_reducible rfl | assumption | rw [foldl_kept] | rw [foldl_fst_kept] | rw [foldl_snd_kept] | with_reducible refine ite_kept _ _ _ _ ?_ ?_ | split | intro _ _ | simp only [State.kept_mk, pending_kept, fuses_kept, live_kept, tileLive_kept, otp_kept, rollback_kept, debugFuse_kept, kept_eta, State.bypass_kept, State.modUnit] | rw [apply_ite State.kept])

theorem execDbgResp_keeps (response : List Byte) (s : State) : OutcomeKeeps s.kept (execDbgResp response s) := by
  unfold execDbgResp
  show State.kept _ = _
  repeat' (first | with_reducible rfl | assumption | rw [foldl_kept] | rw [foldl_fst_kept] | rw [foldl_snd_kept] | with_reducible refine ite_kept _ _ _ _ ?_ ?_ | split | intro _ _ | simp only [State.kept_mk, pending_kept, fuses_kept, live_kept, tileLive_kept, otp_kept, rollback_kept, debugFuse_kept, kept_eta, State.bypass_kept, State.setFlag_kept, State.modUnit] | rw [apply_ite State.kept])

theorem State.debugTile_kept (s : State) (t store addr : Nat) (w : Option Byte) : (State.debugTile s t store addr w).1.kept = s.kept := by
  unfold State.debugTile
  dsimp only
  split <;> cases w <;> first | rfl | exact State.modHalf_kept _ _ _ _ | exact State.modTile_kept _ _ _

theorem execDbgAccess_keeps (op : DebugOp) (t : Time) (s : State) : OutcomeKeeps s.kept (execDbgAccess op t s) := by
  unfold execDbgAccess
  show State.kept _ = _
  dsimp only
  split
  · exact State.at_kept s t
  · split
    · rw [State.bypass_kept, State.at_kept]
    · cases op <;> simp only [State.debugTile_kept, State.resvWrite_kept, State.modUnit, State.kept_mk, pending_kept, fuses_kept, live_kept, tileLive_kept, otp_kept,
        rollback_kept, debugFuse_kept, kept_eta, State.at_kept]

theorem execRelock_keeps (s : State) : OutcomeKeeps s.kept (execRelock s) := by
  unfold execRelock
  show State.kept _ = _
  repeat' (first | with_reducible rfl | assumption | rw [foldl_kept] | rw [foldl_fst_kept] | rw [foldl_snd_kept] | with_reducible refine ite_kept _ _ _ _ ?_ ?_ | split | intro _ _ | simp only [State.kept_mk, pending_kept, fuses_kept, live_kept, tileLive_kept, otp_kept, rollback_kept, debugFuse_kept, kept_eta, State.modUnit] | rw [apply_ite State.kept])

theorem State.askWarm_kept (s : State) (cause : Nat) : (State.askWarm s cause).kept = s.kept := by
  unfold State.askWarm
  repeat' (first | with_reducible rfl | assumption | rw [foldl_kept] | rw [foldl_fst_kept] | rw [foldl_snd_kept] | with_reducible refine ite_kept _ _ _ _ ?_ ?_ | split | intro _ _ | simp only [State.kept_mk, pending_kept, fuses_kept, live_kept, tileLive_kept, otp_kept, rollback_kept, debugFuse_kept, kept_eta, State.setFlag_kept, State.modUnit] | rw [apply_ite State.kept])

theorem execWarmRstNAssert_keeps (us : Nat) (s : State) : OutcomeKeeps s.kept (execWarmRstNAssert us s) := by
  unfold execWarmRstNAssert
  show State.kept _ = _
  repeat' (first | with_reducible rfl | assumption | rw [foldl_kept] | rw [foldl_fst_kept] | rw [foldl_snd_kept] | with_reducible refine ite_kept _ _ _ _ ?_ ?_ | split | intro _ _ | simp only [State.kept_mk, pending_kept, fuses_kept, live_kept, tileLive_kept, otp_kept, rollback_kept, debugFuse_kept, kept_eta, State.askWarm_kept] | rw [apply_ite State.kept])

theorem execWatchdogExpiry_keeps (s : State) : OutcomeKeeps s.kept (execWatchdogExpiry s) := by
  unfold execWatchdogExpiry
  show State.kept _ = _
  repeat' (first | with_reducible rfl | assumption | rw [foldl_kept] | rw [foldl_fst_kept] | rw [foldl_snd_kept] | with_reducible refine ite_kept _ _ _ _ ?_ ?_ | split | intro _ _ | simp only [State.kept_mk, pending_kept, fuses_kept, live_kept, tileLive_kept, otp_kept, rollback_kept, debugFuse_kept, kept_eta, State.askWarm_kept] | rw [apply_ite State.kept])

theorem execRstCtlWarm_keeps (key : Nat) (s : State) : OutcomeKeeps s.kept (execRstCtlWarm key s) := by
  unfold execRstCtlWarm
  show State.kept _ = _
  repeat' (first | with_reducible rfl | assumption | rw [foldl_kept] | rw [foldl_fst_kept] | rw [foldl_snd_kept] | with_reducible refine ite_kept _ _ _ _ ?_ ?_ | split | intro _ _ | simp only [State.kept_mk, pending_kept, fuses_kept, live_kept, tileLive_kept, otp_kept, rollback_kept, debugFuse_kept, kept_eta, State.askWarm_kept] | rw [apply_ite State.kept])

theorem execWarmReset_keeps (s : State) : OutcomeKeeps s.kept (execWarmReset s) := by
  unfold execWarmReset
  show State.kept _ = _
  repeat' (first | with_reducible rfl | assumption | rw [foldl_kept] | rw [foldl_fst_kept] | rw [foldl_snd_kept] | with_reducible refine ite_kept _ _ _ _ ?_ ?_ | split | intro _ _ | simp only [State.kept_mk, pending_kept, fuses_kept, live_kept, tileLive_kept, otp_kept, rollback_kept, debugFuse_kept, kept_eta, State.warm_kept] | rw [apply_ite State.kept])

theorem execRstCtlShutdown_keeps (key : Nat) (t : Time) (s : State) : OutcomeKeeps s.kept (execRstCtlShutdown key t s) := by
  unfold execRstCtlShutdown
  show State.kept _ = _
  repeat' (first | with_reducible rfl | assumption | rw [foldl_kept] | rw [foldl_fst_kept] | rw [foldl_snd_kept] | with_reducible refine ite_kept _ _ _ _ ?_ ?_ | split | intro _ _ | simp only [State.kept_mk, pending_kept, fuses_kept, live_kept, tileLive_kept, otp_kept, rollback_kept, debugFuse_kept, kept_eta, State.at_kept, State.startDown_kept] | rw [apply_ite State.kept])

theorem execRstDomainWrite_keeps (value : Word) (t : Time) (s : State) : OutcomeKeeps s.kept (execRstDomainWrite value t s) := by
  unfold execRstDomainWrite
  show State.kept _ = _
  repeat' (first | with_reducible rfl | assumption | rw [foldl_kept] | rw [foldl_fst_kept] | rw [foldl_snd_kept] | with_reducible refine ite_kept _ _ _ _ ?_ ?_ | split | intro _ _ | simp only [State.kept_mk, pending_kept, fuses_kept, live_kept, tileLive_kept, otp_kept, rollback_kept, debugFuse_kept, kept_eta, State.at_kept, State.setFlag_kept, State.absentAccess_kept, State.setRow_kept, State.rowPassage_kept] | rw [apply_ite State.kept])

theorem execDflHoldSet_keeps (t : Time) (s : State) : OutcomeKeeps s.kept (execDflHoldSet t s) := by
  unfold execDflHoldSet
  show State.kept _ = _
  repeat' (first | with_reducible rfl | assumption | rw [foldl_kept] | rw [foldl_fst_kept] | rw [foldl_snd_kept] | with_reducible refine ite_kept _ _ _ _ ?_ ?_ | split | intro _ _ | simp only [State.kept_mk, pending_kept, fuses_kept, live_kept, tileLive_kept, otp_kept, rollback_kept, debugFuse_kept, kept_eta, State.setReg_kept, State.at_kept, State.linkDown_kept] | rw [apply_ite State.kept])

theorem execDflHoldClear_keeps (s : State) : OutcomeKeeps s.kept (execDflHoldClear s) := by
  unfold execDflHoldClear
  show State.kept _ = _
  repeat' (first | with_reducible rfl | assumption | rw [foldl_kept] | rw [foldl_fst_kept] | rw [foldl_snd_kept] | with_reducible refine ite_kept _ _ _ _ ?_ ?_ | split | intro _ _ | simp only [State.kept_mk, pending_kept, fuses_kept, live_kept, tileLive_kept, otp_kept, rollback_kept, debugFuse_kept, kept_eta, State.setReg_kept] | rw [apply_ite State.kept])

theorem State.dropWork_kept (s : State) : (State.dropWork s).kept = s.kept := by
  unfold State.dropWork
  repeat' (first | with_reducible rfl | assumption | rw [foldl_kept] | rw [foldl_fst_kept] | rw [foldl_snd_kept] | with_reducible refine ite_kept _ _ _ _ ?_ ?_ | split | intro _ _ | simp only [State.kept_mk, pending_kept, fuses_kept, live_kept, tileLive_kept, otp_kept, rollback_kept, debugFuse_kept, kept_eta] | rw [apply_ite State.kept])

theorem State.limpAll_kept (s : State) : (State.limpAll s).kept = s.kept := by
  unfold State.limpAll
  repeat' (first | with_reducible rfl | assumption | rw [foldl_kept] | rw [foldl_fst_kept] | rw [foldl_snd_kept] | with_reducible refine ite_kept _ _ _ _ ?_ ?_ | split | intro _ _ | simp only [State.kept_mk, pending_kept, fuses_kept, live_kept, tileLive_kept, otp_kept, rollback_kept, debugFuse_kept, kept_eta, State.sendReg_kept, State.modUnit] | rw [apply_ite State.kept])

theorem State.downStep_kept (s : State) : (State.downStep s).kept = s.kept := by
  unfold State.downStep
  repeat' (first | with_reducible rfl | assumption | rw [foldl_kept] | rw [foldl_fst_kept] | rw [foldl_snd_kept] | with_reducible refine ite_kept _ _ _ _ ?_ ?_ | split | intro _ _ | simp only [State.kept_mk, pending_kept, fuses_kept, live_kept, tileLive_kept, otp_kept, rollback_kept, debugFuse_kept, kept_eta, State.shdnWrite_kept, State.dropWork_kept, State.linkReset_kept, State.limpAll_kept, State.modUnit] | rw [apply_ite State.kept])

theorem execPowerDownStart_keeps (t : Time) (s : State) : OutcomeKeeps s.kept (execPowerDownStart t s) := by
  unfold execPowerDownStart
  show State.kept _ = _
  repeat' (first | with_reducible rfl | assumption | rw [foldl_kept] | rw [foldl_fst_kept] | rw [foldl_snd_kept] | with_reducible refine ite_kept _ _ _ _ ?_ ?_ | split | intro _ _ | simp only [State.kept_mk, pending_kept, fuses_kept, live_kept, tileLive_kept, otp_kept, rollback_kept, debugFuse_kept, kept_eta, State.at_kept, State.downStep_kept] | rw [apply_ite State.kept])

theorem execPwrFailNFall_keeps (us : Nat) (t : Time) (s : State) : OutcomeKeeps s.kept (execPwrFailNFall us t s) := by
  unfold execPwrFailNFall
  show State.kept _ = _
  repeat' (first | with_reducible rfl | assumption | rw [foldl_kept] | rw [foldl_fst_kept] | rw [foldl_snd_kept] | with_reducible refine ite_kept _ _ _ _ ?_ ?_ | split | intro _ _ | simp only [State.kept_mk, pending_kept, fuses_kept, live_kept, tileLive_kept, otp_kept, rollback_kept, debugFuse_kept, kept_eta, State.at_kept, State.startDown_kept, State.modUnit] | rw [apply_ite State.kept])

theorem execRailCollapse_keeps (rail : Nat) (t : Time) (s : State) : OutcomeKeeps s.kept (execRailCollapse rail t s) := by
  unfold execRailCollapse
  show State.kept _ = _
  repeat' (first | with_reducible rfl | assumption | rw [foldl_kept] | rw [foldl_fst_kept] | rw [foldl_snd_kept] | with_reducible refine ite_kept _ _ _ _ ?_ ?_ | split | intro _ _ | simp only [State.kept_mk, pending_kept, fuses_kept, live_kept, tileLive_kept, otp_kept, rollback_kept, debugFuse_kept, kept_eta, State.at_kept, State.startDown_kept, State.shdnWrite_kept, State.modUnit] | rw [apply_ite State.kept])

theorem answer_kept (s : State) (o : Host.Outcome State Fault Refusal) (h : OutcomeKeeps s.kept o) : (answer s o).kept = s.kept := by
  unfold answer; split
  · exact h
  · rfl

theorem State.plainWrite_kept (s : State) (a : Nat) (v : Word) : (State.plainWrite s a v).kept = s.kept := by
  unfold State.plainWrite
  repeat' (first | with_reducible rfl | assumption | rw [foldl_kept] | rw [foldl_fst_kept] | rw [foldl_snd_kept] | with_reducible refine ite_kept _ _ _ _ ?_ ?_ | split | intro _ _ | simp only [State.kept_mk, pending_kept, fuses_kept, live_kept, tileLive_kept, otp_kept, rollback_kept, debugFuse_kept, kept_eta, State.setReg_kept, State.leeWrite_kept] | rw [apply_ite State.kept])

theorem State.headWrite_kept (s : State) (a : Nat) (v : Word) (t : Time) : (State.headWrite s a v t).kept = s.kept := by
  unfold State.headWrite
  repeat' (first | with_reducible rfl | assumption | rw [foldl_kept] | rw [foldl_fst_kept] | rw [foldl_snd_kept] | rw [answer_kept _ _ (execReplayStart_keeps _ _)] | rw [answer_kept _ _ (execReplayEnd_keeps _)] | rw [answer_kept _ _ (execSlipPrepareWrite_keeps _ _ _)] | rw [answer_kept _ _ (execSlipAbortWrite_keeps _ _)] | with_reducible refine ite_kept _ _ _ _ ?_ ?_ | split | intro _ _ | simp only [State.kept_mk, pending_kept, fuses_kept, live_kept, tileLive_kept, otp_kept, rollback_kept, debugFuse_kept, kept_eta, State.plainWrite_kept, answer_kept, answer_next] | rw [apply_ite State.kept])

theorem State.pwrWrite_kept (s : State) (o : Nat) (v : Word) (t : Time) : (State.pwrWrite s o v t).kept = s.kept := by
  unfold State.pwrWrite
  repeat' (first | with_reducible rfl | assumption | rw [foldl_kept] | rw [foldl_fst_kept] | rw [foldl_snd_kept] | rw [answer_kept _ _ (execHintRegIdleSoon_keeps _ _ _)] | rw [answer_kept _ _ (execHintRegBusySoon_keeps _ _ _)] | rw [answer_kept _ _ (execHintRegNoChange_keeps _ _)] | with_reducible refine ite_kept _ _ _ _ ?_ ?_ | split | intro _ _ | simp only [State.kept_mk, pending_kept, fuses_kept, live_kept, tileLive_kept, otp_kept, rollback_kept, debugFuse_kept, kept_eta, State.plainWrite_kept, answer_kept, answer_next] | rw [apply_ite State.kept])

theorem State.queueWrite_kept (s : State) (q : Fin 8) (w : Nat) (v : Word) : (State.queueWrite s q w v).kept = s.kept := by
  unfold State.queueWrite
  repeat' (first | with_reducible rfl | assumption | rw [foldl_kept] | rw [foldl_fst_kept] | rw [foldl_snd_kept] | rw [answer_kept _ _ (execQueueEnable_keeps _ _)] | rw [answer_kept _ _ (execQueueDisable_keeps _ _)] | with_reducible refine ite_kept _ _ _ _ ?_ ?_ | split | intro _ _ | simp only [State.kept_mk, pending_kept, fuses_kept, live_kept, tileLive_kept, otp_kept, rollback_kept, debugFuse_kept, kept_eta, State.hpFlag_kept, State.plainWrite_kept, answer_kept, answer_next] | rw [apply_ite State.kept])

theorem State.hostWordWrite_kept (s : State) (o : Nat) (v : Word) (t : Time) : (State.hostWordWrite s o v t).kept = s.kept := by
  unfold State.hostWordWrite
  repeat' (first | with_reducible rfl | assumption | rw [foldl_kept] | rw [foldl_fst_kept] | rw [foldl_snd_kept] | rw [answer_kept _ _ (execStageConfigWrite_keeps _ _)] | rw [answer_kept _ _ (execHp1Doorbell_keeps _ _ _)] | with_reducible refine ite_kept _ _ _ _ ?_ ?_ | split | intro _ _ | simp only [State.kept_mk, pending_kept, fuses_kept, live_kept, tileLive_kept, otp_kept, rollback_kept, debugFuse_kept, kept_eta, answer_kept, State.queueWrite_kept, State.plainWrite_kept, answer_next] | rw [apply_ite State.kept])

theorem State.timeWrite_kept (s : State) (o : Nat) (v : Word) : (State.timeWrite s o v).kept = s.kept := by
  unfold State.timeWrite
  repeat' (first | with_reducible rfl | assumption | rw [foldl_kept] | rw [foldl_fst_kept] | rw [foldl_snd_kept] | rw [answer_kept _ _ (execTimeConfigChange_keeps _ _)] | rw [answer_kept _ _ (execTimeStart_keeps _)] | with_reducible refine ite_kept _ _ _ _ ?_ ?_ | split | intro _ _ | simp only [State.kept_mk, pending_kept, fuses_kept, live_kept, tileLive_kept, otp_kept, rollback_kept, debugFuse_kept, kept_eta, answer_kept, State.plainWrite_kept, answer_next] | rw [apply_ite State.kept])

theorem State.faultWrite_kept (s : State) (o : Nat) (v : Word) : (State.faultWrite s o v).kept = s.kept := by
  unfold State.faultWrite
  repeat' (first | with_reducible rfl | assumption | rw [foldl_kept] | rw [foldl_fst_kept] | rw [foldl_snd_kept] | rw [answer_kept _ _ (execSafeClear_keeps _ _)] | rw [answer_kept _ _ (execLogHostHeadWrite_keeps _ _)] | with_reducible refine ite_kept _ _ _ _ ?_ ?_ | split | intro _ _ | simp only [State.kept_mk, pending_kept, fuses_kept, live_kept, tileLive_kept, otp_kept, rollback_kept, debugFuse_kept, kept_eta, State.plainWrite_kept, answer_kept, answer_next] | rw [apply_ite State.kept])

theorem State.dwWrite_kept (s : State) (o : Nat) (v : Word) (t : Time) : (State.dwWrite s o v t).kept = s.kept := by
  unfold State.dwWrite
  repeat' (first | with_reducible rfl | assumption | rw [foldl_kept] | rw [foldl_fst_kept] | rw [foldl_snd_kept] | rw [answer_kept _ _ (execDwFreeze_keeps _ _)] | rw [answer_kept _ _ (execDwEnable_keeps _ _)] | rw [answer_kept _ _ (execDwDisable_keeps _ _)] | rw [answer_kept _ _ (execDwFeedGo_keeps _ _)] | with_reducible refine ite_kept _ _ _ _ ?_ ?_ | split | intro _ _ | simp only [State.kept_mk, pending_kept, fuses_kept, live_kept, tileLive_kept, otp_kept, rollback_kept, debugFuse_kept, kept_eta, answer_kept, State.plainWrite_kept, answer_next] | rw [apply_ite State.kept])

theorem State.cfgRefused_kept (s : State) (j : Nat) : (State.cfgRefused s j).kept = s.kept := by
  unfold State.cfgRefused
  repeat' (first | with_reducible rfl | assumption | rw [foldl_kept] | rw [foldl_fst_kept] | rw [foldl_snd_kept] | with_reducible refine ite_kept _ _ _ _ ?_ ?_ | split | intro _ _ | simp only [State.kept_mk, pending_kept, fuses_kept, live_kept, tileLive_kept, otp_kept, rollback_kept, debugFuse_kept, kept_eta, State.inFlag_kept] | rw [apply_ite State.kept])

theorem State.defaultWrite_kept (s : State) (j : Nat) (a : Nat) (v : Word) : (State.defaultWrite s j a v).kept = s.kept := by
  unfold State.defaultWrite
  repeat' (first | with_reducible rfl | assumption | rw [foldl_kept] | rw [foldl_fst_kept] | rw [foldl_snd_kept] | with_reducible refine ite_kept _ _ _ _ ?_ ?_ | split | intro _ _ | simp only [State.kept_mk, pending_kept, fuses_kept, live_kept, tileLive_kept, otp_kept, rollback_kept, debugFuse_kept, kept_eta, State.absentAccess_kept, State.plainWrite_kept, State.actFlag_kept] | rw [apply_ite State.kept])

theorem State.classWrite_kept (s : State) (j a : Nat) (v : Word) : (State.classWrite s j a v).kept = s.kept := by
  have h : ∀ (b : Prop) [Decidable b] (g : Nat), (if b then s.absentAccess g else s).kept = s.kept := fun b _ g => ite_kept _ _ _ _ (State.absentAccess_kept _ _) rfl
  have h' : ∀ (b : Prop) [Decidable b] (g : Nat), (if b then s else s.absentAccess g).kept = s.kept := fun b _ g => ite_kept _ _ _ _ rfl (State.absentAccess_kept _ _)
  unfold State.classWrite
  dsimp only
  split <;> first | exact State.plainWrite_kept _ _ _ | exact State.defaultWrite_kept _ _ _ _ | (rw [State.plainWrite_kept]; first | exact h _ _ | exact h' _ _)

theorem State.portWrite_kept (s : State) (j : Nat) (a : Nat) (on : Bool) (fixed : Word) (v : Word) : (State.portWrite s j a on fixed v).kept = s.kept := by
  unfold State.portWrite
  repeat' (first | with_reducible rfl | assumption | rw [foldl_kept] | rw [foldl_fst_kept] | rw [foldl_snd_kept] | with_reducible refine ite_kept _ _ _ _ ?_ ?_ | split | intro _ _ | simp only [State.kept_mk, pending_kept, fuses_kept, live_kept, tileLive_kept, otp_kept, rollback_kept, debugFuse_kept, kept_eta, State.cfgRefused_kept, State.plainWrite_kept] | rw [apply_ite State.kept])

theorem State.camWrite_kept (s : State) (j : Fin 2) (o : Nat) (v : Word) : (State.camWrite s j o v).kept = s.kept := by
  unfold State.camWrite
  dsimp only
  refine ite_kept _ _ _ _ (ite_kept _ _ _ _ ?_ ?_) (ite_kept _ _ _ _ (State.portWrite_kept _ _ _ _ _ _)
    (ite_kept _ _ _ _ (State.portWrite_kept _ _ _ _ _ _) (State.plainWrite_kept _ _ _)))
  · rw [State.setCam_kept, State.portWrite_kept]
    exact ite_kept _ _ _ _ (State.endFrame_kept _ _ _ _) rfl
  · rw [State.portWrite_kept]
    exact ite_kept _ _ _ _ (State.endFrame_kept _ _ _ _) rfl

theorem State.tagWrite_kept (s : State) (j : Nat) (o : Nat) (v : Word) : (State.tagWrite s j o v).kept = s.kept := by
  unfold State.tagWrite
  repeat' (first | with_reducible rfl | assumption | rw [foldl_kept] | rw [foldl_fst_kept] | rw [foldl_snd_kept] | with_reducible refine ite_kept _ _ _ _ ?_ ?_ | split | intro _ _ | simp only [State.kept_mk, pending_kept, fuses_kept, live_kept, tileLive_kept, otp_kept, rollback_kept, debugFuse_kept, kept_eta, State.portWrite_kept, State.plainWrite_kept] | rw [apply_ite State.kept])

theorem State.canWrite_kept (s : State) (j : Fin 2) (o : Nat) (v : Word) : (State.canWrite s j o v).kept = s.kept := by
  unfold State.canWrite
  repeat' (first | with_reducible rfl | assumption | rw [foldl_kept] | rw [foldl_fst_kept] | rw [foldl_snd_kept] | rw [answer_kept _ _ (execCanInitEnter_keeps _ _ _)] | rw [answer_kept _ _ (execCanInitLeave_keeps _ _ _)] | with_reducible refine ite_kept _ _ _ _ ?_ ?_ | split | intro _ _ | simp only [State.kept_mk, pending_kept, fuses_kept, live_kept, tileLive_kept, otp_kept, rollback_kept, debugFuse_kept, kept_eta, State.portWrite_kept, State.setCan_kept, answer_kept, State.plainWrite_kept, answer_next] | rw [apply_ite State.kept])

theorem State.actRegWrite_kept (s : State) (j : Fin 2) (o : Nat) (v : Word) (t : Time) : (State.actRegWrite s j o v t).kept = s.kept := by
  unfold State.actRegWrite
  repeat' (first | with_reducible rfl | assumption | rw [foldl_kept] | rw [foldl_fst_kept] | rw [foldl_snd_kept] | rw [answer_kept _ _ (execActRegGo_keeps _ _ _ _ _ _)] | with_reducible refine ite_kept _ _ _ _ ?_ ?_ | split | intro _ _ | simp only [State.kept_mk, pending_kept, fuses_kept, live_kept, tileLive_kept, otp_kept, rollback_kept, debugFuse_kept, kept_eta, answer_kept, State.plainWrite_kept, answer_next] | rw [apply_ite State.kept])

theorem State.mesaWrite_kept (s : State) (j : Fin 2) (o : Nat) (v : Word) (t : Time) : (State.mesaWrite s j o v t).kept = s.kept := by
  unfold State.mesaWrite
  repeat' (first | with_reducible rfl | assumption | rw [foldl_kept] | rw [foldl_fst_kept] | rw [foldl_snd_kept] | rw [answer_kept _ _ (execReflexRuleWrite_keeps _ _ _ _ _)] | with_reducible refine ite_kept _ _ _ _ ?_ ?_ | split | intro _ _ | simp only [State.kept_mk, pending_kept, fuses_kept, live_kept, tileLive_kept, otp_kept, rollback_kept, debugFuse_kept, kept_eta, State.classWrite_kept, answer_kept, State.actRegWrite_kept, State.plainWrite_kept, State.camWrite_kept, State.tagWrite_kept, State.canWrite_kept, State.portWrite_kept, answer_next] | rw [apply_ite State.kept])

theorem State.tileWrite_kept (s : State) (t : Fin 512) (o : Nat) (v : Word) (time : Time) : (State.tileWrite s t o v time).kept = s.kept := by
  unfold State.tileWrite
  repeat' (first | with_reducible rfl | assumption | rw [foldl_kept] | rw [foldl_fst_kept] | rw [foldl_snd_kept] | rw [answer_kept _ _ (execTileCbWrite_keeps _ _ _ _ _)] | with_reducible refine ite_kept _ _ _ _ ?_ ?_ | split | intro _ _ | simp only [State.kept_mk, pending_kept, fuses_kept, live_kept, tileLive_kept, otp_kept, rollback_kept, debugFuse_kept, kept_eta, State.tileFlag_kept, State.plainWrite_kept, answer_kept, answer_next] | rw [apply_ite State.kept])

theorem State.dropLatch_kept (s : State) (a : Nat) : (State.dropLatch s a).kept = s.kept := by
  unfold State.dropLatch
  repeat' (first | with_reducible rfl | assumption | rw [foldl_kept] | rw [foldl_fst_kept] | rw [foldl_snd_kept] | with_reducible refine ite_kept _ _ _ _ ?_ ?_ | split | intro _ _ | simp only [State.kept_mk, pending_kept, fuses_kept, live_kept, tileLive_kept, otp_kept, rollback_kept, debugFuse_kept, kept_eta] | rw [apply_ite State.kept])

theorem State.stageWrite_kept (s : State) (n : Nat) (v : Word) : (State.stageWrite s n v).kept = s.kept := by
  unfold State.stageWrite
  repeat' (first | with_reducible rfl | assumption | rw [foldl_kept] | rw [foldl_fst_kept] | rw [foldl_snd_kept] | with_reducible refine ite_kept _ _ _ _ ?_ ?_ | split | intro _ _ | simp only [State.kept_mk, pending_kept, fuses_kept, live_kept, tileLive_kept, otp_kept, rollback_kept, debugFuse_kept, kept_eta, State.hpFlag_kept] | rw [apply_ite State.kept])

theorem State.msixRelease_kept (s : State) : (State.msixRelease s).kept = s.kept := by
  unfold State.msixRelease
  repeat' (first | with_reducible rfl | assumption | rw [foldl_kept] | rw [foldl_fst_kept] | rw [foldl_snd_kept] | with_reducible refine ite_kept _ _ _ _ ?_ ?_ | split | intro _ _ | simp only [State.kept_mk, pending_kept, fuses_kept, live_kept, tileLive_kept, otp_kept, rollback_kept, debugFuse_kept, kept_eta] | rw [apply_ite State.kept])

theorem State.configWrite_kept (s : State) (a : Nat) (lanes : Word) (v : Word) (t : Time) : (State.configWrite s a lanes v t).kept = s.kept := by
  unfold State.configWrite
  repeat' (first | with_reducible rfl | assumption | rw [foldl_kept] | rw [foldl_fst_kept] | rw [foldl_snd_kept] | rw [answer_kept _ _ (execPowerStateChange_keeps _ _ _)] | rw [answer_kept _ _ (execHostLinkReset_keeps _ _)] | with_reducible refine ite_kept _ _ _ _ ?_ ?_ | split | intro _ _ | simp only [State.kept_mk, pending_kept, fuses_kept, live_kept, tileLive_kept, otp_kept, rollback_kept, debugFuse_kept, kept_eta, State.modLink_kept, answer_kept, State.msixRelease_kept, answer_next] | rw [apply_ite State.kept])

theorem State.bar2Write_kept (s : State) (off : Nat) (v : Word) (t : Time) : (State.bar2Write s off v t).kept = s.kept := by
  unfold State.bar2Write
  repeat' (first | with_reducible rfl | assumption | rw [foldl_kept] | rw [foldl_fst_kept] | rw [foldl_snd_kept] | rw [answer_kept _ _ (execSqTailDoorbell_keeps _ _ _ _)] | rw [answer_kept _ _ (execCqHeadDoorbell_keeps _ _ _)] | with_reducible refine ite_kept _ _ _ _ ?_ ?_ | split | intro _ _ | simp only [State.kept_mk, pending_kept, fuses_kept, live_kept, tileLive_kept, otp_kept, rollback_kept, debugFuse_kept, kept_eta, State.msixRelease_kept, State.modLink_kept, answer_kept, answer_next] | rw [apply_ite State.kept])

theorem execLowWordReadLatch_keeps (off : Nat) (s : State) : OutcomeKeeps s.kept (execLowWordReadLatch off s) := by
  unfold execLowWordReadLatch
  show State.kept _ = _
  repeat' (first | with_reducible rfl | assumption | rw [foldl_kept] | rw [foldl_fst_kept] | rw [foldl_snd_kept] | with_reducible refine ite_kept _ _ _ _ ?_ ?_ | split | intro _ _ | simp only [State.kept_mk, pending_kept, fuses_kept, live_kept, tileLive_kept, otp_kept, rollback_kept, debugFuse_kept, kept_eta, State.absentAccess_kept] | rw [apply_ite State.kept])

theorem execLowWordStage_keeps (off : Nat) (value : Word) (s : State) : OutcomeKeeps s.kept (execLowWordStage off value s) := by
  unfold execLowWordStage
  show State.kept _ = _
  repeat' (first | with_reducible rfl | assumption | rw [foldl_kept] | rw [foldl_fst_kept] | rw [foldl_snd_kept] | with_reducible refine ite_kept _ _ _ _ ?_ ?_ | split | intro _ _ | simp only [State.kept_mk, pending_kept, fuses_kept, live_kept, tileLive_kept, otp_kept, rollback_kept, debugFuse_kept, kept_eta, State.dropLatch_kept, State.absentAccess_kept, State.stageWrite_kept] | rw [apply_ite State.kept])

theorem execAbsentUnitAccess_keeps (off : Nat) (u2 : Bool) (t : Time) (s : State) : OutcomeKeeps s.kept (execAbsentUnitAccess off u2 t s) := by
  unfold execAbsentUnitAccess
  show State.kept _ = _
  repeat' (first | with_reducible rfl | assumption | rw [foldl_kept] | rw [foldl_fst_kept] | rw [foldl_snd_kept] | with_reducible refine ite_kept _ _ _ _ ?_ ?_ | split | intro _ _ | simp only [State.kept_mk, pending_kept, fuses_kept, live_kept, tileLive_kept, otp_kept, rollback_kept, debugFuse_kept, kept_eta, State.at_kept, State.absentAccess_kept] | rw [apply_ite State.kept])

end Sys2Proof.Machine
end

