-- ==== Sys2Proof/Laws/Leads.lean ====
section
/-! SUPPORT. The commands that change the kept part of a state, and how. -/

namespace Sys2Proof.Machine

theorem KeySlot.after_trans (a b c : KeySlot) (h : a.after b) (h' : b.after c) : a.after c := by
  rcases h with rfl | h | ⟨h, h2⟩
  · exact h'
  · exact .inr (.inl h)
  · rcases h' with rfl | h' | ⟨h', h3⟩
    · exact .inr (.inr ⟨h, h2⟩)
    · rw [h2] at h'; cases h'
    · rw [h2] at h'; cases h'

theorem Kept.Leads.of_eq {k k' : Kept} (h : k' = k) : k.Leads k' := by
  subst h; exact ⟨rfl, rfl, id, fun _ => .inl rfl, le_refl _, id⟩

theorem Kept.Leads.trans {a b c : Kept} (h : a.Leads b) (h' : b.Leads c) : a.Leads c :=
  ⟨h'.pending.trans h.pending, h'.fuses.trans h.fuses, fun f => h'.fit (h.fit f), fun n => KeySlot.after_trans _ _ _ (h.otp n) (h'.otp n),
    le_trans h.rollback h'.rollback, fun f => h'.fuse (h.fuse f)⟩

theorem Kept.Leads.of_le {k k' : Kept} (hp : k'.pending = k.pending) (hf : k'.fuses = k.fuses) (ho : k'.otp = k.otp) (hr : k'.rollback = k.rollback) (hd : k'.debugFuse = k.debugFuse)
    (hl : ∃ m, k'.live = k.live &&& m) (ht : ∃ m, k'.tileLive = k.tileLive &&& m) : k.Leads k' := by
  refine ⟨hp, hf, fun f => ?_, fun n => .inl (by rw [ho]), le_of_eq hr.symm, fun h => hd.trans h⟩
  obtain ⟨m, hm⟩ := hl
  obtain ⟨n, hn⟩ := ht
  refine ⟨?_, ?_⟩
  · rw [hm, hf, BitVec.and_assoc, BitVec.and_comm m, ← BitVec.and_assoc, f.1]; simp
  · rw [hn, hf, BitVec.and_assoc, BitVec.and_comm n, ← BitVec.and_assoc, f.2]; simp

theorem foldl_leads {α : Type} (f : State → α → State) (l : List α) (s : State) (h : ∀ (s : State) a, s.kept.Leads (f s a).kept) : s.kept.Leads (l.foldl f s).kept := by
  induction l generalizing s with
  | nil => exact .of_eq rfl
  | cons a l ih => exact (h s a).trans (ih _)

theorem foldl_and_oneBit (l : List Nat) (w : Word) : ∃ m, l.foldl (fun w b => w &&& ~~~oneBit b) w = w &&& m := by
  induction l generalizing w with
  | nil => exact ⟨BitVec.allOnes 32, (BitVec.and_allOnes ..).symm⟩
  | cons b l ih => obtain ⟨m, hm⟩ := ih (w &&& ~~~oneBit b); exact ⟨~~~oneBit b &&& m, by rw [List.foldl_cons, hm, BitVec.and_assoc]⟩

theorem foldl_and_tile (l : List (Fin 512)) (w : BitVec 512) : ∃ m, l.foldl (fun (m : BitVec 512) (t : Fin 512) => m &&& ~~~(BitVec.ofNat 512 (2 ^ t.val))) w = w &&& m := by
  induction l generalizing w with
  | nil => exact ⟨BitVec.allOnes 512, (BitVec.and_allOnes ..).symm⟩
  | cons b l ih => obtain ⟨m, hm⟩ := ih (w &&& ~~~(BitVec.ofNat 512 (2 ^ b.val))); exact ⟨_, by rw [List.foldl_cons, hm, BitVec.and_assoc]⟩

theorem State.clearLive_leads (s : State) (l : List Nat) : s.kept.Leads (s.clearLive l).kept :=
  .of_le rfl rfl rfl rfl rfl (foldl_and_oneBit l s.live) ⟨BitVec.allOnes 512, (BitVec.and_allOnes ..).symm⟩

theorem State.ergOut_leads (s : State) (k r : Nat) : s.kept.Leads (s.ergOut k r).kept := by
  unfold State.ergOut
  split
  · exact .of_eq rfl
  · refine (State.clearLive_leads s [k]).trans (.of_eq ?_)
    rw [State.setApply_kept, State.dropTraffic_kept, foldl_kept _ _ _ fun s t => State.partyGone_kept _ _, State.stopWhere_kept, State.outRecord_kept]

theorem State.tileOut_leads (s : State) (t : Nat) : s.kept.Leads (s.tileOut t).kept := by
  unfold State.tileOut
  refine Kept.Leads.trans (b := State.kept { s with tileLive := s.tileLive &&& ~~~(BitVec.ofNat 512 (1 <<< t)) }) ?_ (.of_eq ?_)
  · exact .of_le rfl rfl rfl rfl rfl ⟨BitVec.allOnes 32, (BitVec.and_allOnes ..).symm⟩ ⟨_, rfl⟩
  · simp only [State.partyGone_kept, State.stopWhere_kept, State.outRecord_kept]

theorem State.stackOut_leads (s : State) (n : Nat) : s.kept.Leads (s.stackOut n).kept := by
  unfold State.stackOut
  refine Kept.Leads.trans (.of_eq (State.fault_kept s (s.serving (s.stackDie n)) none { cls := 0x0031, sev := 3, kind := 4, index := n })) ?_
  refine (State.clearLive_leads _ [4 + n]).trans (.of_eq ?_)
  simp only [State.stopWhere_kept, State.outRecord_kept]

theorem State.mesaOut_leads (s : State) : s.kept.Leads s.mesaOut.kept := by
  unfold State.mesaOut
  split
  · exact .of_eq rfl
  · refine (State.clearLive_leads s [13, 16, 17]).trans (.of_eq ?_)
    simp only [State.dropTraffic_kept, State.partyGone_kept]
    exact State.outRecord_kept _ _ _ _ _

theorem State.trip_leads (s : State) (n : Nat) : s.kept.Leads (s.trip n).kept := by
  unfold State.trip
  split
  · exact .of_eq rfl
  · dsimp only
    split
    · split
      · exact .of_eq rfl
      · refine Kept.Leads.trans (.of_eq ?_) (State.ergOut_leads _ _ _)
        simp only [State.kept_mk, pending_kept, fuses_kept, live_kept, tileLive_kept, otp_kept, rollback_kept, debugFuse_kept, kept_eta, State.fault_kept, State.pwrFlag_kept]
    · split
      · exact .of_eq rfl
      · exact .of_eq (by rw [State.startDown_kept, State.fault_kept, State.pwrFlag_kept])

theorem leads_ite {k : Kept} {b : Prop} [Decidable b] (u v : State) (hu : k.Leads u.kept) (hv : k.Leads v.kept) : k.Leads (if b then u else v).kept := by
  split
  · exact hu
  · exact hv

theorem State.sense_leads (s : State) (x : Nat × Int) : s.kept.Leads (s.sense x).kept := by
  unfold State.sense
  refine leads_ite _ _ (.of_eq rfl) ?_
  exact leads_ite _ _ (Kept.Leads.trans (.of_eq (State.senseHeat_kept ..)) (State.trip_leads _ _)) (.of_eq (State.senseHeat_kept ..))

theorem execThermalSample_leads (temps : List (Nat × Int)) (t : Time) (s : State) : ∀ s', execThermalSample temps t s = .next s' → s.kept.Leads s'.kept := by
  intro s' h; cases h
  exact Kept.Leads.trans (.of_eq (State.at_kept s t)) (foldl_leads _ _ _ State.sense_leads)

theorem execTileFatal_leads (tile : Fin 512) (t : Time) (s : State) : ∀ s', execTileFatal tile t s = .next s' → s.kept.Leads s'.kept := by
  intro s' h; cases h
  refine Kept.Leads.trans (.of_eq (State.at_kept s t)) ?_
  dsimp only
  split
  · exact State.tileOut_leads _ _
  · exact .of_eq rfl

theorem execStackFailed_leads (n : Fin 8) (i : Bool) (t : Time) (s : State) : ∀ s', execStackFailed n i t s = .next s' → s.kept.Leads s'.kept := by
  intro s' h; cases h
  refine Kept.Leads.trans (.of_eq (State.at_kept s t)) ?_
  dsimp only
  split
  · exact State.stackOut_leads _ _
  · exact .of_eq rfl

theorem State.blank_leads (s : State) (p : Phase) (c : Nat) : s.kept.Leads (s.blank p c).kept :=
  .of_le rfl rfl rfl rfl rfl ⟨0, by simp [State.kept, State.blank]⟩ ⟨0, by simp [State.kept, State.blank]⟩

theorem execPowerOn_leads (s : State) : ∀ s', execPowerOn s = .next s' → s.kept.Leads s'.kept := by
  intro s' h; cases h; split
  · exact State.blank_leads _ _ _
  · exact .of_eq rfl

theorem execResetNAssert_leads (us : Nat) (s : State) : ∀ s', execResetNAssert us s = .next s' → s.kept.Leads s'.kept := by
  intro s' h; cases h; split
  · exact State.blank_leads _ _ _
  · exact .of_eq rfl

theorem execRstCtlCold_leads (key : Nat) (s : State) : ∀ s', execRstCtlCold key s = .next s' → s.kept.Leads s'.kept := by
  intro s' h; cases h; split
  · exact State.blank_leads _ _ _
  · exact .of_eq rfl

theorem execVddKeepLoss_leads (s : State) : ∀ s', execVddKeepLoss s = .next s' → s.kept.Leads s'.kept := by
  intro s' h; cases h; exact State.blank_leads _ _ _

theorem execRollbackCommit_leads (s : State) : ∀ s', execRollbackCommit s = .next s' → s.kept.Leads s'.kept := by
  intro s' h; cases h; split
  · exact ⟨rfl, rfl, id, fun _ => .inl rfl, le_max_left _ _, id⟩
  · exact .of_eq rfl

theorem State.otpDone_leads (s : State) (r : Nat) : s.kept.Leads (s.otpDone r).kept := .of_eq rfl

theorem State.key_get (s : State) (n : Fin 14) : s.key n = s.unit.otp[n] := by
  unfold State.key
  simp [List.getD]

theorem State.setKey_leads (s : State) (n : Nat) (k : KeySlot) (h : (s.key n).after k) : s.kept.Leads (s.setKey n k).kept := by
  refine ⟨rfl, rfl, id, fun i => ?_, le_refl _, id⟩
  show (s.unit.otp[i]).after ((s.unit.otp.setIfInBounds n k)[i])
  by_cases e : n = i.val
  · subst e
    rw [State.key_get] at h
    simpa using h
  · left
    simp [e]

theorem execOtpProgram_leads (r : List Byte) (s : State) : ∀ s', execOtpProgram r s = .next s' → s.kept.Leads s'.kept := by
  intro s' h; cases h
  split
  · exact .of_eq rfl
  · split
    · exact .of_eq rfl
    · split
      · exact .of_eq rfl
      · rename_i e
        exact (State.setKey_leads _ _ _ (.inr (.inl (by simpa using e)))).trans (.of_eq rfl)

theorem execOtpRevoke_leads (r : List Byte) (s : State) : ∀ s', execOtpRevoke r s = .next s' → s.kept.Leads s'.kept := by
  intro s' h; cases h
  split
  · exact .of_eq rfl
  · split
    · exact .of_eq rfl
    · rename_i n _
      split
      · exact .of_eq rfl
      · rename_i e
        have v : (s.key n).state = .valid := by
          simp only [KeySlot.good, Bool.not_eq_true', Bool.not_eq_false, Bool.and_eq_true, decide_eq_true_eq] at e
          exact e.1
        split
        · exact .of_eq rfl
        · exact (State.setKey_leads _ _ _ (.inr (.inr ⟨v, rfl⟩))).trans (.of_eq rfl)

theorem execOtpDisableDebug_leads (r : List Byte) (s : State) : ∀ s', execOtpDisableDebug r s = .next s' → s.kept.Leads s'.kept := by
  intro s' h; cases h
  split
  · exact .of_eq rfl
  · exact ⟨rfl, rfl, id, fun _ => .inl rfl, le_refl _, fun _ => rfl⟩

theorem execColdResetEnd_leads (f : List Nat) (d : List (Fin 512)) (s : State) : ∀ s', execColdResetEnd f d s = .next s' → s.kept.Leads s'.kept := by
  intro s' h; cases h
  split
  · exact .of_eq rfl
  · rw [State.shdnRead_kept]
    refine ⟨rfl, rfl, fun _ => ?_, fun _ => .inl rfl, le_refl _, id⟩
    obtain ⟨m, hm⟩ := foldl_and_oneBit (s.failedAt f) s.fuses.allLive
    obtain ⟨n, hn⟩ := foldl_and_tile d (firstTiles (128 * s.fuses.ergCount))
    constructor
    · show List.foldl _ _ _ &&& ~~~s.fuses.allLive = 0
      rw [hm, BitVec.and_assoc, BitVec.and_comm m, ← BitVec.and_assoc, BitVec.and_not_self]; simp
    · show List.foldl _ _ _ &&& ~~~(firstTiles (128 * s.fuses.ergCount)) = 0
      rw [hn, BitVec.and_assoc, BitVec.and_comm n, ← BitVec.and_assoc, BitVec.and_not_self]; simp

theorem execLinkFailed_leads (link : Fin 11) (t : Time) (s : State) : ∀ s', execLinkFailed link t s = .next s' → s.kept.Leads s'.kept := by
  intro s' h; cases h
  refine Kept.Leads.trans (.of_eq (State.at_kept s t)) ?_
  dsimp only
  split
  · exact .of_eq rfl
  · refine Kept.Leads.trans (.of_eq (State.fault_kept (s.at t) 0 none { cls := 0x0022, sev := 3, kind := 5, index := link.val })) ?_
    split
    · exact State.mesaOut_leads _
    · exact State.ergOut_leads _ _ _

theorem answer_leads {k : Kept} (s : State) (o : Host.Outcome State Fault Refusal) (hs : k.Leads s.kept) (h : ∀ s', o = .next s' → s.kept.Leads s'.kept) : k.Leads (answer s o).kept := by
  match o, h with
  | .next s', h => exact hs.trans (h s' rfl)
  | .fault _, _ => exact hs
  | .refused _, _ => exact hs

theorem leads_of_keeps {s : State} {o : Host.Outcome State Fault Refusal} (h : OutcomeKeeps s.kept o) : ∀ s', o = .next s' → s.kept.Leads s'.kept := by
  intro s' e; subst e; exact .of_eq h

theorem leads_of_next (s : State) : ∀ s', (Host.Outcome.next s : Host.Outcome State Fault Refusal) = .next s' → s.kept.Leads s'.kept := by
  intro s' e; cases e; exact .of_eq rfl

theorem State.resetWrite_leads (s : State) (o : Nat) (v : Word) (t : Time) : s.kept.Leads (s.resetWrite o v t).kept := by
  unfold State.resetWrite
  dsimp only
  split
  · refine answer_leads _ _ (.of_eq rfl) ?_
    split
    · exact leads_of_keeps (execRstCtlShutdown_keeps ..)
    · split
      · exact execRstCtlCold_leads _ _
      · split
        · exact leads_of_keeps (execRstCtlWarm_keeps ..)
        · exact leads_of_next _
  · exact answer_leads _ _ (.of_eq rfl) (leads_of_keeps (execRstDomainWrite_keeps ..))
  · have one : s.kept.Leads (answer s (if bit v 0 = true then (if bit (s.reg 0x9018) 0 = true then .next s else execDflHoldSet t s) else execDflHoldClear s)).kept := by
      refine answer_leads _ _ (.of_eq rfl) ?_
      split
      · split
        · exact leads_of_next _
        · exact leads_of_keeps (execDflHoldSet_keeps ..)
      · exact leads_of_keeps (execDflHoldClear_keeps ..)
    generalize answer s (if bit v 0 = true then (if bit (s.reg 0x9018) 0 = true then .next s else execDflHoldSet t s) else execDflHoldClear s) = u at one
    have two : s.kept.Leads (if bit v 1 = true then answer u (execRecover u) else u).kept :=
      leads_ite _ _ (answer_leads _ _ one (leads_of_keeps (execRecover_keeps ..))) one
    generalize (if bit v 1 = true then answer u (execRecover u) else u) = w at two
    exact leads_ite _ _ (answer_leads _ _ two (execRollbackCommit_leads _)) two
  · refine leads_ite _ _ (answer_leads _ _ (.of_eq rfl) ?_) (.of_eq rfl)
    split
    · exact execOtpProgram_leads _ _
    · exact execOtpRevoke_leads _ _
    · exact execOtpDisableDebug_leads _ _
    · intro s' h; cases h; exact State.otpDone_leads _ _
  · exact leads_ite _ _ (answer_leads _ _ (.of_eq rfl) (leads_of_keeps (execRelock_keeps ..))) (.of_eq rfl)
  · exact .of_eq (State.plainWrite_kept ..)

theorem State.wordWrite_leads (s : State) (a : Nat) (v : Word) (t : Time) : s.kept.Leads (s.wordWrite a v t).kept := by
  unfold State.wordWrite
  have e {u : State} (h : u.kept = s.kept) : s.kept.Leads u.kept := .of_eq h
  refine leads_ite _ _ (e (State.headWrite_kept ..)) ?_
  refine leads_ite _ _ (e (State.pwrWrite_kept ..)) ?_
  refine leads_ite _ _ (e rfl) ?_
  refine leads_ite _ _ (e (State.hostWordWrite_kept ..)) ?_
  refine leads_ite _ _ (e (State.timeWrite_kept ..)) ?_
  refine leads_ite _ _ (e (State.faultWrite_kept ..)) ?_
  refine leads_ite _ _ (e (State.dwWrite_kept ..)) ?_
  refine leads_ite _ _ (State.resetWrite_leads ..) ?_
  refine leads_ite _ _ (e rfl) ?_
  refine leads_ite _ _ (leads_ite _ _ (e rfl) (e rfl)) ?_
  refine leads_ite _ _ (e (State.mesaWrite_kept ..)) ?_
  exact leads_ite _ _ (e (State.tileWrite_kept ..)) (e (State.plainWrite_kept ..))

theorem State.wordWrite2_leads (s : State) (n : Nat) (low v : Word) (t : Time) : s.kept.Leads ((s.wordWrite (n - 4) low t).wordWrite n v t).kept :=
  (State.wordWrite_leads _ _ _ _).trans (State.wordWrite_leads _ _ _ _)

theorem State.commitWrite_leads (s : State) (n : Nat) (v : Word) (t : Time) : s.kept.Leads (s.commitWrite n v t).kept := by
  unfold State.commitWrite
  dsimp only
  split
  · exact .of_eq (State.hpFlag_kept ..)
  · exact State.wordWrite2_leads { s with staged := mdel s.staged (n - 4) } _ _ _ _

theorem State.barWrite_leads (s : State) (off : Nat) (v : Word) (t : Time) : s.kept.Leads (s.barWrite off v t).kept := by
  unfold State.barWrite
  dsimp only
  split
  · exact .of_eq rfl
  · refine Kept.Leads.trans (.of_eq (State.dropLatch_kept s (normalOff off))) ?_
    split
    · exact .of_eq (State.absentAccess_kept ..)
    · refine leads_ite _ _ (.of_eq (State.stageWrite_kept ..)) (leads_ite _ _ (State.commitWrite_leads ..) (State.wordWrite_leads ..))

theorem execRegisterWrite_leads (space : Space) (off size : Nat) (value : DWord) (t : Time) (s : State) : ∀ s', execRegisterWrite space off size value t s = .next s' → s.kept.Leads s'.kept := by
  intro s' h; cases h
  refine Kept.Leads.trans (.of_eq (State.at_kept s t)) ?_
  dsimp only
  refine leads_ite _ _ (.of_eq rfl) ?_
  split
  · exact leads_ite _ _ (.of_eq rfl) (.of_eq (State.configWrite_kept ..))
  · exact leads_ite _ _ (State.barWrite_leads ..) (.of_eq (State.hpFlag_kept ..))
  · exact leads_ite _ _ (.of_eq rfl) (leads_ite _ _ (.of_eq (State.bar2Write_kept ..)) (leads_ite _ _ (.of_eq (by rw [State.bar2Write_kept, State.bar2Write_kept])) (.of_eq (State.hpFlag_kept ..))))

theorem execHighWordCommit_leads (off : Nat) (value : Word) (t : Time) (s : State) : ∀ s', execHighWordCommit off value t s = .next s' → s.kept.Leads s'.kept := by
  intro s' h; cases h
  refine Kept.Leads.trans (.of_eq (State.at_kept s t)) ?_
  dsimp only
  refine leads_ite _ _ (.of_eq rfl) ?_
  refine Kept.Leads.trans (.of_eq (State.dropLatch_kept _ (normalOff off))) ?_
  split
  · exact .of_eq (State.absentAccess_kept ..)
  · exact State.commitWrite_leads ..

end Sys2Proof.Machine
end

