-- ==== Sys2Proof/Tests/Slice0.lean ====
section
/-! SUPPORT. Tests on small states: what WellFormed refuses, values from the spec's tables, and for every statement a state and operands that meet its hypotheses. -/

namespace Sys2Proof.Tests

open Sys2Proof Sys2Proof.Machine

set_option Elab.async false

/-- A small running module: two erg dies, every unit live, nothing under way. -/
def base : State :=
  { fuses := Fuses.station, live := Fuses.station.allLive, tileLive := firstTiles 256
    unit := { otp := (Vector.replicate 14 {}).set 8 makerKey }, chips := .replicate 4 {} }

/-- The state a command leaves. -/
def after (s : State) (i : Instr) : State := match exec i s with | .next u => u | _ => s

/-- Operands outside their ranges are refused. -/
theorem test_wf_refuses_1 : ([.registerWrite .bar0 0 3 0 0,
    .lowWordReadLatch 2,
    .lowWordReadLatch (2 ^ 24),
    .lowWordStage 1 0,
    .highWordCommit 6 0 0,
    .absentUnitAccess 3 false 0,
    .absentUnitAccess (2 ^ 24) true 0,
    .coldResetEnd [17, 18] [],
    .rstCtlCold 256,
    .rstCtlWarm 256,
    .rstCtlShutdown 256 0,
    .otpProgram [0],
    .otpRevoke [],
    .otpDisableDebug [0, 0],
    .jtagSamplePreload [true] [],
    .jtagExtest [] [false]] : List Instr).all (fun i => !i.wf) = true := by decide +kernel

/-- Operands outside their ranges are refused. -/
theorem test_wf_refuses_2 : ([.dbgResp [],
    .railCollapse 4 0,
    .sqEntryFetch 0 (some [1]) 0,
    .frameStart 0 0 16 0 0,
    .frameStart 0 0 0 64 0,
    .csiLongPacket 0 0 16 0 .good true false [],
    .csiLongPacket 0 0 0 64 .good true false [],
    .csiLineShortPacket 0 0 16 0,
    .csiLineShortPacket 0 0 0 64,
    .frameEnd 0 0 16 0 0,
    .frameEnd 0 0 0 64 0,
    .tagReadDone 0 0 (List.replicate 131 0) 0,
    .commitReceive 0 0 16 (List.replicate 48 0) 0,
    .commitReceive 0 0 0 [] 0,
    .replyReceive 0 65536 0 0 0,
    .replyReceive 0 0 256 0 0] : List Instr).all (fun i => !i.wf) = true := by decide +kernel

/-- Operands outside their ranges are refused. -/
theorem test_wf_refuses_3 : ([.eventRetransmit 0 65536 0,
    .eventAbandon 0 65536 0,
    .statusEventReceive 0 [] 0,
    .statusPeriodicReceive 0 [] 0,
    .statusIdentReceive 0 [] 0,
    .reflexLaunch 0 (.trigger 0) false 0 (2 ^ 32) [] 0,
    .actRegGo 0 false 4096 0 0,
    .regDataReceive 0 256 0 0 0 0,
    .regDataReceive 0 0 256 0 0 0,
    .regDataReceive 0 0 0 65536 0 0,
    .partyPrepare (.chip 0) 65536 0,
    .partyChecksumDone (.chip 0) 65536 [] 0,
    .prepareAck (.chip 0) 65536 0 0,
    .prepareAck (.chip 0) 0 (2 ^ 64) 0,
    .prepareNack (.chip 0) 65536 0 0,
    .prepareNack (.chip 0) 0 256 0] : List Instr).all (fun i => !i.wf) = true := by decide +kernel

/-- Operands outside their ranges are refused. -/
theorem test_wf_refuses_4 : ([.partyCommit (.chip 0) 65536 0,
    .commitAckReceive (.chip 0) 65536 0,
    .partyAbort (.chip 0) 65536 0,
    .tileCbWrite 0 0x3FC 0 0,
    .tileCbWrite 0 0xC00 0 0,
    .tileCbWrite 0 0x401 0 0,
    .cairnBindMsg 0 ⟨0, 0⟩ true 0 [(2 ^ 18, 1)] 0,
    .cairnAddMsg 0 0 0 (2 ^ 18) 0,
    .cairnAddsMsg 0 0 0 (2 ^ 18) 0,
    .cairnFenceMsg 0 0 0 (2 ^ 18),
    .cairnWaitMsg 0 0 0 (2 ^ 18) 0,
    .cairnSettleNMsg 0 0 0 (2 ^ 18) 0 0 false 0,
    .cairnSettleNMsg 0 0 0 0 0 1024 false 0,
    .cairnSettleWMsg 0 0 0 (2 ^ 18) 0 0,
    .cairnSettleWMsg 0 0 0 0 0 1024,
    .cairnCloseMsg 0 ⟨0, 0⟩ [4096]] : List Instr).all (fun i => !i.wf) = true := by decide +kernel

/-- Operands outside their ranges are refused. -/
theorem test_wf_refuses_5 : ([.rowEnterA1 128 0,
    .rowEnterA2 128 0,
    .rowEnterA3 128 0,
    .rowWake 128 0,
    .rowWakeDone 128 0,
    .rowCrestRestored 128 0,
    .rowLeeRestored 128 0,
    .wakeLate 128 0,
    .commonEnterA1 128 0,
    .commonWake 128 0,
    .fDomainSwitchDone 128 0,
    .hintRegNoChange 128,
    .hintRegIdleSoon 128 0,
    .hintRegBusySoon 128 0,
    .busyHoldEnd 128 0,
    .thermalSample [(83, 40), (84, 40)] 0] : List Instr).all (fun i => !i.wf) = true := by decide +kernel

/-- Operands outside their ranges are refused. -/
theorem test_wf_refuses_6 : ([.dwFrame 0 0 8192 0 [] false 0,
    .dwFrame 0 0 0 8192 [] false 0,
    .dwFrame 0 0 1 1 [] false 0,
    .bzTripClear 0 16 #v[false, false, false, false] 0,
    .bzRegRead 0 256 0 0,
    .bzRegRead 0 0 65536 0,
    .bzRegWrite 0 256 0 0 0,
    .bzRegWrite 0 0 65536 0 0,
    .bzSlipPrepare 0 65536,
    .bzLeeData 0 32 0 (List.replicate 64 0) 0,
    .bzLeeData 0 0 256 (List.replicate 64 0) 0,
    .bzLeeData 0 0 0 [] 0,
    .bzSlipCommit 0 65536 0,
    .bzSlipAbort 0 65536,
    .solCoilUpdate 0 [] 25 0] : List Instr).all (fun i => !i.wf) = true := by decide +kernel

/-- Operands at the ends of their ranges are taken. -/
theorem test_wf_takes : ([.registerWrite .bar0 0 4 0 0,
    .lowWordReadLatch (2 ^ 24 - 4),
    .coldResetEnd [0, 17] [],
    .otpProgram (List.replicate 192 0),
    .dbgResp (List.replicate 69 0),
    .railCollapse 3 0,
    .sqEntryFetch 0 none 0,
    .sqEntryFetch 0 (some (List.replicate 64 0)) 0,
    .frameStart 0 0 15 63 0,
    .tagReadDone 0 0 (List.replicate 130 0) 0,
    .commitReceive 0 0 15 (List.replicate 48 0) 0,
    .tileCbWrite 0 0x400 0 0,
    .tileCbWrite 0 0xBFC 0 0,
    .cairnBindMsg 0 ⟨0, 0⟩ true 0 [(2 ^ 18 - 1, 1)] 0,
    .rowWake 127 0,
    .thermalSample [(83, 40)] 0,
    .bzLeeData 0 31 255 (List.replicate 64 0) 0,
    .solCoilUpdate 0 (List.replicate 12 0) 25 0] : List Instr).all (fun i => i.wf) = true := by decide +kernel

/-! ### Tiles -/

def jobId : JobId := { stamp := 0x1234, job := 7 }

/-- An extent word (R196). -/
def ext (space lo len : Nat) : BitVec 64 := BitVec.ofNat 64 (lo + space * 2 ^ 38 + len * 2 ^ 40)

/-- A core with an extent of each kind: a1 buffer, a2 weight bed, a3 reservoir, a4 the last word of the buffer, a5 a 48-byte body, a6 empty. -/
def core0 : Core :=
  { id := jobId, pc := 0x800
    sreg := ((((((Vector.replicate 32 0).set 1 5).set 2 7).set 3 0x80000000).set 4 0xFFFFFFFF).set 5 64).set 6 0x900
    areg := ((((((Vector.replicate 16 0).set 1 (ext 0 0 2048)).set 2 (ext 2 0 4096)).set 3 (ext 1 0 64)).set 4 (ext 0 0x3FFFC 4)).set 5 (ext 0 0x100 48)).set 6 (ext 0 0x1000 2048) }

def atCore (c : Core) : State := { base with tiles := [(0, { core := some c })] }
def plain : Issue := {}
def coreAfter (c : Core) (i : Instr) : Core := ((after (atCore c) i).tile 0).core.getD { id := { stamp := 0, job := 0 } }

/-- The conditions of an issue, as a Bool. -/
def issuesB (s : State) (t : Fin 512) (g : Issue) (c : Core) : Bool :=
  decide ((s.tile t).core = some c) && decide (c.wait = none) && s.tileOn t && decide (g.ecc ≠ some true) &&
  !anyPoison (((s.fetched t g c).tile t).half (s.bedHalf t c.bank)).imemPoison c.pc 4 && !g.stray && !(g.pn && g.pg == 0) && !(c.p g.pg == g.pn)

theorem issues_of (s : State) (t : Fin 512) (g : Issue) (c : Core) (h : issuesB s t g c = true) : s.Issues t g c := by
  simp only [issuesB, Bool.and_eq_true, Bool.not_eq_true', decide_eq_true_eq] at h
  obtain ⟨⟨⟨⟨⟨⟨⟨h1, h2⟩, h3⟩, h4⟩, h5⟩, h6⟩, h7⟩, h8⟩ := h
  exact ⟨h1, h2, h3, h4, h5, h6, h7, h8⟩

/-- A core at which an instruction completes: of AluResults, ImmediateResults, ComparisonResults, AddressRegisterResults, PredicateAndStampResults and VectorResults. -/
theorem witness_issue : (atCore core0).Issues 0 plain core0 ∧ ((atCore core0).fetched 0 plain core0).More 0 core0 ∧ ((atCore core0).fetched 0 plain core0).queueFull 0 1 = false ∧
    core0.noRoom ((core0.s 1).toNat % 4096) = false := ⟨issues_of _ _ _ _ (by decide +kernel), by show _ < _; decide +kernel, by decide +kernel, by decide +kernel⟩

/-- The same with a guard on p1, a corrected fetch error, and the last word but one of the bank. -/
def core1 : Core := { core0 with preg := (Vector.replicate 8 false).set 1 true, pc := 0x7FF8 }
theorem witness_issue_guarded : (atCore core1).Issues 0 { pg := 1, ecc := some false } core1 ∧ ((atCore core1).fetched 0 { pg := 1, ecc := some false } core1).More 0 core1 :=
  ⟨issues_of _ _ _ _ (by decide +kernel), by show _ < _; decide +kernel⟩

theorem witness_illegal_dst : (31 : Fin 32).val % 2 = 1 ∧ (BitVec.ofNat 12 0xC00).extractLsb' 10 2 = 3 ∧ (BitVec.ofNat 12 0x20).extractLsb' 5 5 ≠ 0 := by decide

/-- LoadAndStoreResults: the last word of the buffer. -/
theorem witness_load_store :
    let f := (atCore core0).fetched 0 plain core0
    let x := extentOf (core0.a 4)
    let e : Extent := { space := x.space, base := 0x3FFFC, len := 4 }
    let r := f.applyHits 0 core0 [e] []
    ((0x3FFFC : Nat) : Int) = x.base + (0 : BitVec 13).toInt ∧ 0x3FFFC % 4 = 0 ∧ x.space = 0 ∧ x.base ≤ 0x3FFFC ∧ 0x3FFFC + 4 ≤ x.base + x.len ∧ x.base + x.len ≤ f.spaceSize 0 x.space ∧
    anyOverlap [e] core0.rings = false ∧ anyOverlap [e] ((f.tile 0).writes ++ (f.tile 0).reads ++ core0.held) = false ∧ r.loadBad 0 core0 x.space 0x3FFFC 4 = false := by decide +kernel

/-- LoadAndStoreResults: a poisoned word of the weight bed, in a job that is no cycle. -/
def poisoned : State := { base with tiles := [(0, { core := some core0, halves := #v[{ wbedPoison := [(0, true)] }, {}] })] }
theorem witness_load_poison :
    let f := poisoned.fetched 0 plain core0
    let x := extentOf (core0.a 2)
    issuesB poisoned 0 plain core0 = true ∧ x.space = 2 ∧ (f.applyHits 0 core0 [{ space := 2, base := 0, len := 4 }] []).loadBad 0 core0 2 0 4 = true ∧ f.isCycle core0.id = false := by decide +kernel

/-- VectorMemoryResults: 256 bytes of the buffer, and a table of 768 bytes in the weight bed. -/
theorem witness_vector_memory :
    let f := (atCore core0).fetched 0 plain core0
    let x := extentOf (core0.a 1)
    let y := extentOf (core0.a 2)
    f.queueFull 0 1 = false ∧ (x.base + (core0.s 5).toNat) % 4 = 0 ∧ x.base % 4 = 0 ∧ x.len % 4 = 0 ∧ x.base + x.len ≤ f.spaceSize 0 x.space ∧ x.space = 0 ∧ x.base + (core0.s 5).toNat + 256 ≤ x.base + x.len ∧
    anyOverlap [{ space := 0, base := 64, len := 256 }] core0.rings = false ∧ anyOverlap [{ space := 0, base := 64, len := 256 }] core0.held = false ∧ f.loadBad 0 core0 0 64 256 = false ∧
    y.space = 2 ∧ y.base % 4 = 0 ∧ y.len % 4 = 0 ∧ 768 ≤ y.len ∧ y.base + y.len ≤ f.wbedSize 0 ∧ (f.applyHits 0 core0 [y] []).loadBad 0 core0 2 y.base 768 = false := by decide +kernel

/-- ControlResults: a branch to itself, a jump, the two kinds of JEND. -/
def busy : State := { base with tiles := [(0, { core := some core0, flight := [{ engine := 0, reads := [], writes := [] }] })] }
theorem witness_control :
    let f := (atCore core0).fetched 0 plain core0
    ((0x800 : Nat) : Int) = core0.pc + 4 * (0 : BitVec 17).toInt ∧ 0x800 % 4 = 0 ∧ 0x800 < f.imemSize 0 ∧ (core0.s 6).toNat % 65536 % 4 = 0 ∧ 0x800 ≤ (core0.s 6).toNat % 65536 ∧ (core0.s 6).toNat % 65536 < f.imemSize 0 ∧
    (f.tile 0).flight = [] ∧ core0.holds = [] ∧ (∀ d ∈ core0.desc.toList, d.state = .openOut → f.unsent 0 d.stream = false) ∧ issuesB busy 0 plain core0 = true ∧ (busy.tile 0).flight ≠ [] := by decide +kernel

/-- FalseGuardSkips: a guard on p2, which is 0, and one on p1 with PN. -/
theorem witness_false_guard : ((atCore core1).tile 0).core = some core1 ∧ core1.wait = none ∧ (atCore core1).tileOn 0 = true ∧
    anyPoison (((atCore core1).tile 0).half ((atCore core1).bedHalf 0 core1.bank)).imemPoison core1.pc 4 = false ∧ core1.p 2 = false ∧ core1.p 1 = true ∧ (2 : Fin 8) ≠ 0 ∧ core1.pc + 4 < (atCore core1).imemSize 0 := by decide +kernel

/-- ExceptionsStopTheTile: a branch below the code and one beyond it, a misaligned jump, a full producer table, the end of the bank, descriptors and spaces. -/
def core2 : Core := { core0 with emits := (List.range 16).map fun p => (p, 1), desc := (Vector.replicate 16 {}).set 1 { state := .openIn }, sreg := (Vector.replicate 32 0).set 1 0x7E }
def coreEnd : Core := { core0 with pc := 0x7FFC }
theorem witness_exceptions : issuesB (atCore core2) 0 plain core2 = true ∧ (core2.pc : Int) + 4 * (BitVec.ofInt 17 (-1)).toInt < 0x800 ∧ ((atCore core2).imemSize 0 : Int) ≤ core2.pc + 4 * (BitVec.ofNat 17 0xFFFF).toInt ∧
    (core2.s 1).toNat % 4 ≠ 0 ∧ core2.profile = false ∧ (extentOf (core2.a 3)).space = 1 ∧ (core2.d 1).state ≠ .closed ∧ (core2.d 0).state = .closed ∧ core2.count ((core2.s 1).toNat % 4096) = none ∧ 16 ≤ core2.emits.length ∧
    issuesB (atCore coreEnd) 0 plain coreEnd = true ∧ (atCore coreEnd).imemSize 0 ≤ coreEnd.pc + 4 := by decide +kernel

/-- FieldWrites. -/
theorem witness_fields : let f := (atCore core0).fetched 0 plain core0
    let b := extentOf (core0.a 1)
    (18 : Fin 32).val ≤ 18 ∧ (core0.d 0).state = .closed ∧ (core0.s 1).toNat % 8 < 6 ∧ f.queueFull 0 0 = false ∧ b.space = 0 ∧ b.base + b.len ≤ f.spaceSize 0 b.space ∧ b.base % 4 = 0 ∧ b.len % 4 = 0 := by decide +kernel

/-- FacetResults, FMAC: DEST 0, 1 and 2 on one vector of one chord. -/
def coreF (dest : Nat) : Core := { core0 with facet := { dest }, desc := (Vector.replicate 16 {}).set 6 { state := .openOut } }
def facetOk (c : Core) : Bool :=
  let s := atCore c
  let f := s.fetched 0 plain c
  let a := extentOf (c.a 1)
  let w := extentOf (c.a 2)
  let q := (f.applyHits 0 c [a, w] []).modTile 0 fun x => { x with plane := none }
  issuesB s 0 plain c && decide (c.pc + 4 < f.imemSize 0) && decide (f.facetCheck 0 c true 6 1 2 0 = none) && !f.facetWaits 0 c (if c.facet.dest = 2 then [] else [extentOf (c.a 6)]) && !c.facetBad && !c.aBad 1 && !c.aBad 2 && !c.aBad 6 &&
  !q.loadBad 0 c w.space w.base (c.facet.nodeN * planeBytes c.facet.wfmt) && (List.range c.facet.vecs).all fun v => !q.loadBad 0 c 0 (a.base + v * 0) (c.facet.nodeN * chordBytes c.facet.afmt)
theorem witness_fmac : facetOk (coreF 0) = true ∧ facetOk (coreF 1) = true ∧ facetOk (coreF 2) = true := by decide +kernel

/-- FacetResults, FDRN: the two children of node 0 of two chords, and a record that is no child. -/
def coreD : Core := { core0 with facet := { dest := 1, total := 32, nodeA := 0, nodeN := 32 }, areg := (((Vector.replicate 16 0).set 1 (ext 0 0 264)).set 2 (ext 0 264 264)).set 6 (ext 0 0x1000 264) }
def drains (left right : Nat × Nat) : State :=
  { base with tiles := [(0, { core := some coreD, abuf := (Mem.puts [] 0 (leBytes 8 (identityWord left.1 left.2))).puts 264 (leBytes 8 (identityWord right.1 right.2)) })] }
def drainOk (s : State) : Bool :=
  let f := s.fetched 0 plain coreD
  issuesB s 0 plain coreD && decide (f.facetCheck 0 coreD false 6 1 2 0 = none) && !f.facetWaits 0 coreD [extentOf (coreD.a 6)] && !coreD.facetBad && !f.loadBad 0 coreD 0 0 264 && !f.loadBad 0 coreD 0 264 264
def pairOf (s : State) : NodeVal ⊕ Nat := combine ((s.tile 0).half 0) coreD.facet false (s.readNode 0 coreD 0) (s.readNode 0 coreD 264)
theorem witness_fdrn : drainOk (drains (0, 16) (16, 16)) = true ∧ (pairOf (drains (0, 16) (16, 16))).isLeft = true ∧ drainOk (drains (0, 16) (0, 16)) = true ∧ (pairOf (drains (0, 16) (0, 16))).isRight = true := by decide +kernel

/-- GatherResults: rows of 4 bytes (the least) and of 1024 (the most), two indices, one of them beyond the table. -/
def coreG (rb : Nat) (len : Nat) : Core :=
  { core0 with sreg := (Vector.replicate 32 0).set 1 (BitVec.ofNat 32 rb), areg := (((Vector.replicate 16 0).set 1 (ext 0 0 len)).set 2 (ext 0 0x10000 8)).set 3 (ext 0 0x20000 (2 * len)) }
def atGather (c : Core) : State := { base with tiles := [(0, { core := some c, abuf := Mem.puts [] 0x10000 [0, 0, 0, 0, 9, 0, 0, 0] })] }
def gatherOk (rb len : Nat) : Bool :=
  let c := coreG rb len
  let s := atGather c
  issuesB s 0 plain c && !s.queueFull 0 2 && decide (4 ≤ (c.s 1).toNat % 2048 ∧ (c.s 1).toNat % 2048 ≤ 1024 ∧ (c.s 1).toNat % 2048 % 4 = 0) && !(c.s 1).getLsbD 11 &&
  ([extentOf (c.a 3), extentOf (c.a 1), extentOf (c.a 2)].all fun x => decide (x.base % 4 = 0 ∧ x.len % 4 = 0 ∧ x.base + x.len ≤ s.spaceSize 0 x.space)) && !anyOverlap [extentOf (c.a 3), extentOf (c.a 1), extentOf (c.a 2)] c.rings &&
  !s.loadBad 0 c 0 0 len && !s.loadBad 0 c 0 0x10000 8 && decide (2 * rb ≤ 2 * len) && decide (ofLe (s.load 0 c 0 0x10004 4) = 9)
theorem witness_gather : gatherOk 4 8 = true ∧ gatherOk 1024 2048 = true := by decide +kernel
/-- A list of one row with its neighbour 0 (GATHER_CSR, N = 1: offsets 0, 1, then the list). -/
def coreL : Core := { coreG 0x1004 8 with areg := (((Vector.replicate 16 0).set 1 (ext 0 0 8)).set 2 (ext 0 0x10000 12)).set 3 (ext 0 0x20000 8) }
def atList : State := { base with tiles := [(0, { core := some coreL, abuf := Mem.puts [] 0x10000 [0, 0, 0, 0, 1, 0, 0, 0, 0, 0, 0, 0] })] }
theorem witness_gather_list : let words := (List.range 3).map fun j => ofLe (atList.load 0 coreL 0 (0x10000 + 4 * j) 4)
    issuesB atList 0 plain coreL = true ∧ (coreL.s 1).toNat / 4096 = 1 ∧ (coreL.s 1).toNat % 2048 = 4 ∧ words = [0, 1, 0] ∧ (∀ p ∈ (words.take 2).zip (words.take 2).tail, p.1 ≤ p.2 ∧ p.2 ≤ (words.drop 2).length) ∧
    4 * 1 + 1 * 4 ≤ (extentOf (coreL.a 3)).len ∧ coreL.facet.srcBase + 3 ≤ 16 * coreL.facet.total ∧ coreL.facetBad = false := by decide +kernel

/-- StreamResults: a closed, an open and an absent descriptor of each kind, with an item of the job waiting. -/
def itemOf (k : Key) : Item := { key := k, void := 0, body := leBytes 64 1, poison := false }
def coreS : Core := { core0 with profile := true, desc := ((((Vector.replicate 16 {}).set 1 { sources := 1, ring := ext 0 0x4000 2112 }).set 2 { state := .openOut, stream := 3 }).set 3 { state := .openIn, stream := 4, ring := ext 0 0x8000 2112 }).set 4 { state := .absent } }
def atStream : State := { base with tiles := [(0, { core := some coreS, ports := [{ kind := 0, stream := 4, sources := 1, released := [itemOf (mkKey jobId 1 0)] }] })] }
theorem witness_streams : issuesB atStream 0 plain coreS = true ∧ atStream.openCheck 0 coreS (coreS.d 1) = none ∧ atStream.portAbsent (atStream.serving 0) 0 0 = false ∧ (coreS.d 1).state = .closed ∧ (coreS.d 2).state = .openOut ∧
    atStream.unsent 0 3 = false ∧ (coreS.d 4).state = .absent ∧ coreS.noRoom coreS.prod = false ∧ coreS.spent = false ∧ atStream.queueFull 0 3 = false ∧ atStream.loadBad 0 coreS 0 0 4 = false ∧ anyOverlap [{ space := 0, base := 0, len := 64 }] coreS.rings = false ∧
    ((atStream.tile 0).port 0 4).released = [itemOf (mkKey jobId 1 0)] ∧ ofJob coreS.id (mkKey jobId 1 0) = true ∧ (itemOf (mkKey jobId 1 0)).copy.length ≤ 64 := by decide +kernel
/-- An absent camera stream: SOPEN of kind 1 on a die without cameras. -/
def noCams : State := { atCore { core0 with desc := (Vector.replicate 16 {}).set 1 { kind := 1, sources := 1, ring := ext 0 0x4000 2112 } } with fuses := { Fuses.station with optV := false } }
theorem witness_stream_absent : let c : Core := { core0 with desc := (Vector.replicate 16 {}).set 1 { kind := 1, sources := 1, ring := ext 0 0x4000 2112 } }
    noCams.openCheck 0 c (c.d 1) = none ∧ noCams.portAbsent (noCams.serving 0) 1 0 = true := by decide +kernel

/-- CairnAndEmitInstructionResults: cairn 0 and the last cairn, slots in OFF, EDGE and WIDE modes, a 48-byte body, profile mode. -/
def coreC : Core := { core0 with profile := true, sreg := ((((Vector.replicate 32 0).set 1 131071).set 2 0).set 3 63).set 4 0x40 }
def atCairn : State := { base with tiles := [(0, { core := some coreC, halves := #v[{ slots := Mem.puts [] (16 * 63 + 2) [1] }, {}] })] }
theorem witness_cairns : issuesB atCairn 0 plain coreC = true ∧ coreC.noRoom coreC.prod = false ∧ coreC.spent = false ∧ (coreC.s 1).toNat % 262144 < 65536 * atCairn.fuses.ergCount ∧ atCairn.ergLive 1 = true ∧ atCairn.queueFull 0 4 = false ∧
    (coreC.s 3).toNat < 64 ∧ ((atCairn.tile 0).half 0).slotMode 63 = 1 ∧ ((atCairn.tile 0).half 0).slotMode 0 = 0 ∧ ((atCairn.tile 0).half 0).slotNum 63 12 4 < 65536 * atCairn.fuses.ergCount ∧
    (extentOf (coreC.a 5)).len = 48 ∧ (coreC.s 4).toNat % 256 = 0x40 ∧ coreC.profile = true ∧ atCairn.queueFull 0 3 = false ∧ atCairn.loadBad 0 coreC 0 0x100 48 = false := by decide +kernel

/-! Values from the tables of 09. -/

theorem test_add_wraps : (coreAfter core0 (.add 0 plain 7 4 1)).s 7 = 4 ∧ (coreAfter core0 (.add 0 plain 7 4 1)).pc = 0x804 := by decide +kernel
theorem test_sub : (coreAfter core0 (.sub 0 plain 7 1 2)).s 7 = 0xFFFFFFFE := by decide +kernel
theorem test_div_overflow : (coreAfter core0 (.div 0 plain 7 3 4)).s 7 = 0x7FFFFFFF ∧ (coreAfter core0 (.rem 0 plain 7 3 4)).s 7 = 0 := by decide +kernel
theorem test_div_zero : (coreAfter core0 (.div 0 plain 7 1 0)).s 7 = 0 ∧ (coreAfter core0 (.remu 0 plain 7 1 0)).s 7 = 0 := by decide +kernel
theorem test_sra : (coreAfter core0 (.sra 0 plain 7 3 1)).s 7 = 0xFC000000 ∧ (coreAfter core0 (.srl 0 plain 7 3 1)).s 7 = 0x04000000 := by decide +kernel
theorem test_adds : (coreAfter core0 (.adds 0 plain 7 3 3)).s 7 = 0x80000000 := by decide +kernel
theorem test_mulw : (coreAfter core0 (.mulw 0 plain 8 3 2)).s 8 = 0x80000000 ∧ (coreAfter core0 (.mulw 0 plain 8 3 2)).s 9 = 0xFFFFFFFC ∧ (coreAfter core0 (.mulwu 0 plain 8 3 2)).s 9 = 3 := by decide +kernel
theorem test_addi : (coreAfter core0 (.addi 0 plain 7 1 0xFFF)).s 7 = 4 ∧ (coreAfter core0 (.ori 0 plain 7 1 0xFFF)).s 7 = 0xFFF := by decide +kernel
theorem test_shi : (coreAfter core0 (.shi 0 plain 7 3 0x81F)).s 7 = 0xFFFFFFFF ∧ (coreAfter core0 (.lui 0 plain 7 1)).s 7 = 0x8000 := by decide +kernel
theorem test_s0 : (coreAfter core0 (.add 0 plain 0 1 2)).s 0 = 0 ∧ (coreAfter core0 (.pand 0 plain 0 1 1)).p 0 = true := by decide +kernel
theorem test_cmp : (coreAfter core0 (.cmpLt 0 plain 3 3 1)).p 3 = true ∧ (coreAfter core0 (.cmpLtu 0 plain 3 3 1)).p 3 = false := by decide +kernel
theorem test_aadd : (coreAfter core0 (.aadd 0 plain 7 1 4)).a 7 = ext 0 (2 ^ 38 - 1) 2048 := by decide +kernel
theorem test_fadd : ((coreAfter { core0 with vx := (Vector.replicate 16 (.replicate 64 0x3FC00000)) } (.fadd 0 plain 1 2 3)).vx[1])[63] = 0x40400000 := by decide +kernel
theorem test_fmul_nan : ((coreAfter { core0 with vx := (Vector.replicate 16 (.replicate 64 0x7F800000)).set 3 (.replicate 64 0) } (.fmul 0 plain 1 2 3)).vx[1])[0] = 0x7FC00000 := by decide +kernel
theorem test_laneid : ((coreAfter core0 (.laneid 0 plain 1)).vx[1])[63] = 63 := by decide +kernel
theorem test_br_back : (coreAfter { core0 with pc := 0x804 } (.br 0 plain 31 0x1FFFF)).pc = 0x800 ∧ (coreAfter { core0 with pc := 0x804 } (.br 0 plain 31 0x1FFFF)).s 31 = 0x808 := by decide +kernel
theorem test_illegal : ((after (atCore core0) (.mulw 0 plain 7 1 2)).tile 0).core = none ∧ (after (atCore core0) (.mulw 0 plain 7 1 2)).reg (tileBase 0 + 0x1C) = 1 := by decide +kernel
theorem test_store : ((after (atCore core0) (.st 0 plain 4 4 0)).tile 0).abuf.byte 0x3FFFF = 0xFF := by decide +kernel

/-! ### Reset, boot, keys, debug, power-down -/

def inPhase (p : Phase) : State := { base with unit := { base.unit with phase := p } }
def unitWith (f : ResetUnit → ResetUnit) : State := { base with unit := f base.unit }

/-- ColdResetResults: each phase the claims name; a mesa die 0 that came up and one that did not; no shutdown record, a running one and a clean one. -/
theorem witness_cold_reset : (inPhase .unpowered).unit.phase = .unpowered ∧ base.unit.phase = .running ∧ base.coldOk = true ∧ (inPhase .inReset).unit.phase = .inReset ∧ (inPhase .bringUp).unit.phase = .bringUp ∧
    12 ∉ [0, 5] ∧ 12 ∈ [12] ∧ (inPhase .bringUp).unit.newest = none := by decide +kernel
theorem witness_cold_reset_record : { firstShdn with state := 3 }.state = 3 ∧
    (unitWith fun u => { u with phase := .bringUp, slotA := some { firstShdn with state := 3, seq := 9 }, slotB := some firstShdn }).unit.newest = some { firstShdn with state := 3, seq := 9 } := by decide +kernel

/-! Signed bytes. Their hash h is a point's first coordinate, the key is that point less the base point, and both halves of the signature are h. -/

def signed (m : List Byte) (h : Nat) : List Byte := m ++ beBytes 32 h ++ beBytes 32 h
def keyed (n : Fin 14) (x y : Nat) (s : State) : State := { s with unit := { s.unit with otp := s.unit.otp.set n { state := .valid, x := x, y := y } } }
def blankKeys : State := unitWith fun u => { u with otp := .replicate 14 {} }
/-- Two firmware images of the least length, 192 bytes, by slots 0 and 1; the second is the newer. -/
def fwImage (slot : Byte) (version h : Nat) : List Byte :=
  signed (leBytes 4 0x57465157 ++ leBytes 2 1 ++ [slot, 0] ++ leBytes 4 version ++ leBytes 4 192 ++ List.replicate 112 0) h
def fwOld : List Byte := fwImage 0 0x10004 69460939074396762418158871497158155579257719781081440243422800344621259568092
def fwNew : List Byte := fwImage 1 0x10010 61394961105582778135371022141070751296461460547909601057636447885134449948624
def fwKeys : State := keyed 8 36645029993935388152669515506905832507062480391020005750794747344158748886692 56920524790373328571425418825283404062609015628868066413924715933584782413324
  (keyed 9 75071089163117499077536032584922480582522623505867529336731144666033734711231 76514909383744796661318124363419859851045988477898204609679757377756598965157 base)

/-- FirmwareResults: copy A alone, copy B newer than A, neither, and an image in the recovery window. -/
theorem witness_firmware : fwKeys.fwValid fwOld = true ∧ fwKeys.fwValid fwNew = true ∧ fwKeys.fwValid [] = false ∧ fwVersionOf fwOld < fwVersionOf fwNew ∧
    fwKeys.unit.phase = .running ∧ fwKeys.unit.fwRunning = false ∧ fwKeys.unit.bootFailed = false := by decide +kernel
def inWindow : State := { fwKeys with unit := { fwKeys.unit with bootFailed := true, recovery := ((fwNew.length / 4 :: List.range (fwNew.length / 4)).tail.map fun k => (0x00200000 + 4 * k, BitVec.ofNat 32 (leAt fwNew (4 * k) 4))).filter fun e => decide (e.2 ≠ 0) } }
theorem witness_recover : inWindow.unit.bootFailed = true ∧ inWindow.windowBytes = fwNew := by decide +kernel

/-- A key request. -/
def keyReq (op kind slot signer : Byte) (key : List Byte) (h : Nat) : List Byte :=
  signed (leBytes 4 0x524B5157 ++ [op, kind, slot, signer] ++ List.replicate 8 0 ++ key ++ List.replicate 48 0) h
def reqProgram : List Byte := keyReq 1 0 7 1 (beBytes 32 p256g.1 ++ beBytes 32 p256g.2) 110891712187270750382610546013932117814801769253038296846307325627833078987505
def reqRevokeFw : List Byte := keyReq 2 1 1 1 (List.replicate 64 0) 51160965773998231537226452968610431956152125745202337837675614284431316795029
def reqRevokeImage : List Byte := keyReq 2 0 7 0 (List.replicate 64 0) 104434996847115591586090900329774528067311932019270385006508925927249363656381
def reqNoDebug : List Byte := keyReq 3 0 0 0 (List.replicate 64 0) 86497610515337007668182444530334292766238337688366621086869949142218963918902
def byProgram : State := keyed 9 83990794914467288732885324182846439283718677796195185503452266564272216869470 98310618429959443619873261890044555383550815269116462117694746179228891519253 blankKeys
def byRevokeFw : State := keyed 9 18379684178818680096532268681270585341725198210412114650561641979462571198612 60348936552127126651228276638285618866637078094489121135358969054137442182774 blankKeys
def byRevokeImage : State := keyed 8 60402178622202990047717361892291207935244067089579021031589187802718880044172 17187483192906161788694201325488477711953635383330334664202436321169071069391 blankKeys
def byNoDebug : State := keyed 8 22870710413499296977970007233627309756514991985268970359612961147439785538111 7205483896264342324427239643836511957535200810427614427723274105149124020856 blankKeys

/-- KeyRequestResults: a request that verifies, for each OP, and one that does not. -/
theorem witness_request_program : byProgram.otpBadSig 1 reqProgram = false ∧ otpIndex (byteAt reqProgram 5) (byteAt reqProgram 6) = some 7 ∧ (byProgram.key 7).state = .empty := by decide +kernel
theorem witness_request_revoke_fw : byRevokeFw.otpBadSig 2 reqRevokeFw = false ∧ otpIndex (byteAt reqRevokeFw 5) (byteAt reqRevokeFw 6) = some 9 ∧ (byRevokeFw.key 9).good = true ∧
    byteAt reqRevokeFw 5 = 1 ∧ ∀ m, m < 4 → (byRevokeFw.key (8 + m)).good = true → 8 + m = 9 := by decide +kernel
theorem witness_request_revoke_image : byRevokeImage.otpBadSig 2 reqRevokeImage = false ∧ otpIndex (byteAt reqRevokeImage 5) (byteAt reqRevokeImage 6) = some 7 ∧ (byRevokeImage.key 7).good = false ∧
    ((keyed 7 p256g.1 p256g.2 byRevokeImage).key 7).good = true ∧ byteAt reqRevokeImage 5 ≠ 1 ∧ (keyed 7 p256g.1 p256g.2 byRevokeImage).key 8 = byRevokeImage.key 8 := by decide +kernel
theorem witness_request_no_debug : byNoDebug.otpBadSig 3 reqNoDebug = false ∧ base.otpBadSig 1 [] = true ∧ base.otpBadSig 2 [] = true ∧ base.otpBadSig 3 [] = true := by decide +kernel
/-- A slot that no KIND has, and a PROGRAM of a slot that is not empty: the same request once the slot holds a key. -/
theorem witness_request_slot : otpIndex 2 2 = none ∧ otpIndex 0 8 = none ∧ otpIndex 1 4 = none ∧ otpIndex 3 0 = none ∧ ((keyed 7 p256g.1 p256g.2 byProgram).key 7).state ≠ .empty ∧
    (keyed 7 p256g.1 p256g.2 byProgram).key 9 = byProgram.key 9 := by decide +kernel

/-- JtagAndDebugResults: boundary-scan mode and not; a response that verifies, with every SCOPE, and one that does not; the fuse blown; the attempts exhausted; unlocked with each SCOPE. -/
def answered : State := let u := blankKeys.unit
  keyed 12 86784654355040348407786993237982472522912321614118225469201874674783889226280 3627671907615404247854621421841026709961269225440938074151580883392230039740 { base with unit := { u with challenge := some (List.replicate 48 0) } }
def response : List Byte := leBytes 4 3 ++ [0] ++ signed [] 39820190854308407844170804784602251287651004462652717681178020124983403938425
theorem witness_jtag : (inPhase .bscan).unit.phase = .bscan ∧ (inPhase .bscan).unit.phase ≠ .unpowered ∧ base.unit.phase ≠ .bscan ∧ base.unit.phase ≠ .unpowered := by decide
theorem witness_response : answered.unit.phase = .running ∧ answered.unit.exhausted = false ∧ answered.responseOk response = true ∧ answered.unit.debugFuse = false ∧ base.responseOk response = false := by decide +kernel
theorem witness_response_fused : let s : State := { answered with unit := { answered.unit with debugFuse := true } }
    s.responseOk response = answered.responseOk response ∧ s.unit.debugFuse = true := ⟨rfl, rfl⟩
theorem witness_debug : (unitWith fun u => { u with exhausted := true }).unit.exhausted = true ∧ base.unit.unlocked = false ∧ (3 : Nat).testBit DebugOp.scan.scope = false ∧ (3 : Nat).testBit 0 = true ∧ (3 : Nat).testBit 1 = true ∧
    (unitWith fun u => { u with unlocked := true, scope := 3 }).unit.unlocked = true := by decide +kernel
/-- The third failed response (the boundary of DebugResults). -/
theorem test_third_failure : (after (unitWith fun u => { u with failed := 2 }) (.dbgResp [])).unit.exhausted = true ∧ (after (unitWith fun u => { u with failed := 1 }) (.dbgResp [])).unit.exhausted = false := by decide +kernel

/-- WarmResetWaits and ResetOfUnitsResults: a request pending while a slip is idle, arming and armed; none pending; another phase; firmware running. -/
def warm (st : SlipSt) : State := { base with unit := { base.unit with warmPending := some 3, fwRunning := true }, slip := { st := st } }
theorem witness_warm : (warm .idle).unit.phase = .running ∧ (warm .idle).unit.warmPending = some 3 ∧ (warm .idle).slip.st ≠ .arming ∧ (warm .idle).slip.st ≠ .armed ∧ (warm .armed).slip.st = .armed ∧ (warm .arming).slip.st = .arming ∧
    (warm .idle).unit.fwRunning = true ∧ base.unit.warmPending = none ∧ (inPhase .powerDown).unit.phase ≠ .running := by decide +kernel

/-- PowerDownResults: the phases, each step of the sequence, an attached chip with its link up and station time live. -/
def attached : State := { base with ports := base.ports.set 0 { attached := true, up := true } }
theorem witness_power_down : attached.unit.phase = .running ∧ (inPhase .waiting).unit.phase ≠ .running ∧ (inPhase .waiting).unit.phase ≠ .powerDown ∧ (inPhase .powerDown).unit.phase = .powerDown ∧
    (∀ k : Fin 8, (unitWith fun u => { u with phase := .powerDown, step := k }).unit.step = k) ∧ (attached.port 0).attached = true ∧ (attached.at 5).replaying = false := by decide +kernel

/-- ResetOfUnitsResults: the last row domain, which idles; one of a die out of service; a domain that may not enter A3; one that is no row; a slip under way; a port up and none. -/
def rowAt (f : Row → Row) : State := base.setRow 31 (f (base.row 31))
theorem witness_domain : isRowDom ((31 : Word).toNat % 128) = true ∧ isRowDom ((127 : Word).toNat % 128) = false ∧ base.ergLive (domDie 31) = true ∧ base.jobs = [] ∧ base.slip.st = .idle ∧ (base.row 31).noA3 = false ∧ base.rowQuiet 31 = true ∧
    ((rowAt fun r => { r with noA3 := true }).row 31).noA3 = true ∧ (warm .armed).slip.st ≠ .idle ∧ ∀ p : Fin 4, (base.port p).up = false := by decide +kernel

/-! ### Registers, host link, time -/

/-- RegisterAccessResults and RegisterPairs: the last word of the map, one beyond it, a unit absent, the absent groups 0 and 12, a slip under way, and a module in reset. -/
def smaller : State := { base with fuses := { Fuses.station with ergCount := 1, stackCount := 2 }, live := 0, ingress := base.ingress }
theorem witness_registers : base.regsUp = true ∧ (inPhase .inReset).regsUp = false ∧ base.leeShut = false ∧ (∀ a ∈ [0x1080, 0x1100, 0x1104, 0x5040], base.leeBusy (leeDie a) = false) ∧ (warm .armed).leeShut = true ∧ (warm .armed).regsUp = true ∧
    (2 ^ 24 - 4) % 4 = 0 ∧ base.absentGroup (normalOff (2 ^ 24 - 4)) = some 3 ∧ smaller.absentGroup (normalOff 0x00D00000) = some 1 ∧ base.absentGroup (normalOff 0x40) = none := by decide +kernel
theorem witness_pairs : isLow64 0x208 = true ∧ base.absentGroup (normalOff 0x208) = none ∧ isLow64 0x20C = false ∧ mget (fun _ => 7) base.staged 0x208 = 7 := by decide +kernel
/-- The staged low word lands with the high word (R12). -/
theorem test_pair_commit : let s := after (after base (.lowWordStage 0x210 0x12340)) (.highWordCommit 0x214 5 0)
    (after base (.lowWordStage 0x210 0x12340)).reg 0x210 = 0 ∧ s.reg 0x210 = 0x12340 ∧ s.reg 0x214 = 5 := by decide +kernel

/-- A module whose firmware runs, with HP1, HP2 and the bus open, and a queue of 16 entries. -/
def hostUp : State :=
  { base with
    unit := { base.unit with fwRunning := true }
    link := { queue := base.link.queue.set 1 { enabled := true, active := true, held := 3 }, busMaster := true }
    power := { fOn := .replicate 8 true }
    regs := [(0x3000, 3), (0x300C, 1), (queueReg 1 0x10, 0x00100010)] }
theorem witness_link : base.link.hp1Busy = none ∧ (∀ q : Fin 8, (base.queue q).enabled = false) ∧ (hostUp.queue 1).enabled = true := by decide +kernel

/-- HostLinkAndQueueResults: the entries as HP1 and HP2 take them in, one of each answer. -/
def entry (opc : Byte) (queue : Nat) (body : List Byte) : HpCmd := { queue, stamp := hostStamp 5 (if queue = 255 then 0 else 1), job := 0, bytes := padTo 64 (opc :: List.replicate 7 0 ++ body) }
def stageIn64 : HpCmd := entry 1 255 (List.replicate 16 0 ++ [64, 0, 0, 0])
theorem witness_entries : (1 : Word).getLsbD 0 = true ∧ hostUp.unit.fwRunning = true ∧ (hostUp.reg 0x3000).getLsbD 0 = true ∧ hostUp.link.hp1Busy = none ∧ base.unit.fwRunning = false ∧
    opcAccepted 255 0xFF = false ∧ opcAccepted 0 2 = false ∧ opcAccepted 255 2 = true ∧ hostUp.replaying = false ∧ opcAccepted 1 7 = true ∧ opcAccepted 255 1 = true ∧
    hostUp.fieldsOk (entry 1 255 []) = false ∧ hostUp.fieldsOk stageIn64 = true ∧ hostUp.namesAbsent stageIn64 = none ∧ hostUp.link.busy = [] := by decide +kernel
/-- An HP1 entry as it stands in the registers, and an HP2 entry to fetch. -/
def fetching : State := { hostUp with link := { hostUp.link with queue := hostUp.link.queue.set 1 { enabled := true, active := true, unfetched := [(hostStamp 5 1, 0, 15)], open_ := 1 } } }
theorem witness_fetch : fetching.dmaOk = true ∧ (fetching.queue 1).stopped = false ∧ (fetching.queue 1).unfetched = [(hostStamp 5 1, 0, 15)] := by decide +kernel

/-- HostLinkAndQueueResults: a group to stamp and none, a tail within the queue and at its size, a queue that is not enabled, one head within what was posted. -/
def posted : State := { hostUp with link := { hostUp.link with queue := hostUp.link.queue.set 1 { enabled := true, active := true, cqUsed := 1, cqTail := 1 } } }
theorem witness_queue : hostUp.groupSize 1 = 3 ∧ hostUp.doorbellErr 1 = 0 ∧ hostUp.doorbellErr 0 ≠ 0 ∧ hostUp.sqSize 1 = 16 ∧ hostUp.cqSize 1 = 16 ∧ (hostUp.queue 1).stopped = false ∧ posted.groupSize 1 = 0 ∧
    (posted.queue 1).cqUsed = 1 ∧ ((1 : Word).toNat % 4096 + 16 - (posted.queue 1).cqHead) % 16 = 1 := by decide +kernel

/-- HostCommandResults: each command at its turn, a STAGE_IN in flight, an admin command, a copy, completions for HP1 and for HP2. -/
def withLink (f : HostLink → HostLink) : State := { hostUp with link := f hostUp.link }
theorem witness_commands : (withLink fun l => { l with fetched := [entry 0 255 []] }).nextCmd 0 = some (entry 0 255 []) ∧ (withLink fun l => { l with fetched := [stageIn64] }).nextCmd 1 = some stageIn64 ∧
    (withLink fun l => { l with fetched := [entry 2 255 []] }).nextCmd 2 = some (entry 2 255 []) ∧ hostUp.nextCmd 0 = none ∧ hostUp.nextCmd 1 = none ∧ hostUp.nextCmd 2 = none ∧ hostUp.dmaOk = true ∧ stageIn64.queue ≠ 256 ∧
    hostUp.link.adminNow = none ∧ (sortBy (fun c : HpCmd => c.key.toNat) (withLink fun l => { l with admin := [entry 3 0 []] }).link.admin).head? = some (entry 3 0 []) ∧
    ([(entry 2 1 [], 0, 64, 1)].find? fun c => decide (c.2.2.2 = 1)) = some (entry 2 1 [], 0, 64, 1) := by decide +kernel
def doneOf (q : Nat) : HpDone := { cmd := entry 0 q [], status := 0, detail := 0, result := 0 }
theorem witness_completions : ((withLink fun l => { l with done := [doneOf 255] }).link.done.find? fun d => hostUp.postable d) = some (doneOf 255) ∧ hostUp.postable (doneOf 1) = true ∧ hostUp.postable (doneOf 0) = false ∧ hostUp.link.done = [] := by decide +kernel

/-! Time. -/

/-- A module whose clock has started, with SOURCE 0 and a slave port, its servo at seven good Syncs. -/
def timed (f : TimeUnit → TimeUnit) : State :=
  { base with
    time := f { running := true, servo := .acquiring, goodSyncs := 7, now := 1000, epoch := 0 }
    regs := [(0x4020, 1000000), (ethBase 0 0, 9)]
    ingress := base.ingress.set 0 { base.ingress[0] with ethUp := (base.ingress[0]).ethUp.set 0 true } }
def stopped (free : Bool) : State := { timed (fun _ => {}) with regs := if free then [(0x4010, 2)] else (timed id).regs }
/-- TimeAndServoResults: held with SOURCE FREE and not, running, locked and one Sync short of it, offsets 500, 501, 100000 and 100001. -/
theorem witness_time : (stopped true).time.runs = false ∧ ((stopped true).reg 0x4010).getLsbD 1 = true ∧ (timed id).time.runs = true ∧ ((timed id).reg 0x4010).getLsbD 1 = false ∧ (timed id).slaveUp = true ∧ (stopped false).slaveUp = true ∧
    (timed id).time.replay = false ∧ (stopped false).time.runs = false ∧ pairVal ((stopped false).reg 0x4008) ((stopped false).reg 0x400C) = 0 ∧ (timed id).time.goodSyncs = 7 ∧ (timed id).time.servo = .acquiring ∧ (timed id).time.step = none ∧
    (1500 : Int) + (timed id).time.pathDelay - (timed id).time.epoch - (max (timed id).time.now 1000 : Nat) = 500 ∧ (100001 : Int).toNat ≤ ((timed id).reg 0x4020).toNat ∧
    (timed fun u => { u with servo := .locked }).time.servo = .locked ∧ (timed fun u => { u with goodSyncs := 6 }).time.goodSyncs < 7 ∧ base.slaveUp = false ∧ (2 : Nat) ≠ 1 ∧ Fuses.station.series ≠ 1 ∧
    (stopped true).time.servo = .stopped ∧ (4 : Word).toNat / 4 % 2 ^ 14 ≠ ((timed id).reg 0x4010).toNat / 4 % 2 ^ 14 := by decide +kernel
theorem witness_series_a : (16 : Word).getLsbD 4 = true ∧ ({ base with fuses := { Fuses.station with series := 1 } }).fuses.series = 1 ∧ (0 : Word).getLsbD 4 = false := by decide
/-- The eighth Sync within 500 ns locks the servo, and one 501 ns away leaves LOCKED (R406). -/
theorem test_servo : (after (timed id) (.ptpSync 1500 1000)).time.servo = .locked ∧ (after (timed fun u => { u with servo := .locked }) (.ptpSync 1501 1000)).time.servo = .acquiring ∧ (after (timed id) (.ptpSync 1501 1000)).time.goodSyncs = 0 := by decide +kernel

/-- PtpAndStepResults: masters that compare better and worse; a port that serves; TIME_STEP back, of 0, at the limit and beyond; a step that waits, is due, and is late; the limits of TIME. -/
def stepCmd (n : Nat) : HpCmd := entry 6 255 (leBytes 8 n)
def stepping (n : Nat) : State := { timed id with link := { (timed id).link with adminNow := some (stepCmd n) } }
theorem witness_step : betterMaster [1, 2] [1, 3] = true ∧ betterMaster [1, 3] [1, 3] = false ∧ (timed fun u => { u with master := some [1, 3] }).time.master = some [1, 3] ∧
    byteAt (stepCmd 0).bytes 0 = 6 ∧ (stepCmd 0).stepBy = 0 ∧ (stepCmd (2 ^ 64 - 1)).stepBy < 0 ∧ (stepCmd 1000000).stepBy = ((timed id).reg 0x4020).toNat ∧ ((timed id).reg 0x4020).toNat < (stepCmd 1000001).stepBy ∧
    (stepping 0).link.adminNow = some (stepCmd 0) ∧ (stepCmd 0).queue ≠ 256 ∧ (stepping 0).time.step = none ∧ (timed fun u => { u with step := some (9, 0, true) }).time.step = some (9, 0, true) ∧
    (timed fun u => { u with now := 2 ^ 57 - 2 ^ 52 }).time.epochNearMade = false ∧ max (timed id).time.now (2 ^ 57) = 2 ^ 57 ∧ (timed id).jobs = [] := by decide +kernel
def boundary : State := { timed id with regs := [(0x4010, 0x10), (ethBase 0 1, 9)], ingress := base.ingress.set 0 { base.ingress[0] with ethUp := (base.ingress[0]).ethUp.set 1 true } }
theorem witness_boundary : (boundary.reg 0x4010).getLsbD 4 = true ∧ boundary.fuses.series ≠ 1 ∧ 1 ≠ (boundary.reg 0x4010).toNat / 32 % 8 ∧ boundary.mesaLive 0 = true ∧ boundary.ethEn 0 1 = true ∧ (boundary.reg (ethBase 0 1)).getLsbD 3 = true ∧
    boundary.ingress[0].ethUp[1] = true ∧ boundary.time.runs = true ∧ (boundary.reg 0x4010).getLsbD 1 = false := by decide +kernel

/-- ReplayResults: a session and none, with a point where the clock holds and without, INJECT outside a session, under a key that does not rise, and of the last kind. -/
def injectCmd : HpCmd := entry 7 1 (leBytes 8 0x10000 ++ leBytes 4 3 ++ [3, 0xFF] ++ List.replicate 2 0 ++ List.replicate 16 0)
def replaying (l : Option Key) : State := { timed (fun u => { u with replay := true }) with link := { base.link with fetched := [injectCmd], lastInject := l } }
theorem witness_replay : (replaying none).time.replay = true ∧ base.time.replay = false ∧ (replaying none).nextCmd 7 = some injectCmd ∧ injectCmd.queue ≠ 256 ∧ 2 < byteAt injectCmd.bytes 0x14 ∧ (replaying none).link.lastInject = none ∧
    (keyOf (BitVec.ofNat 64 (leAt injectCmd.bytes 8 8)) (leAt injectCmd.bytes 0x10 4)).toNat ≤ (keyOf 0x10000 3).toNat ∧ (replaying (some (keyOf 0x10000 3))).link.lastInject = some (keyOf 0x10000 3) ∧
    (replaying none).holdPoints = [] ∧ (∀ p : Fin 4, ((replaying none).port p).events = []) := by decide +kernel

/-! ### Field inputs, merges, mesh, cairns -/

/-- A die that stamps: station time runs and the F domains are on. -/
def seeing (regs : SMap Word) (f : DieIngress → DieIngress) : State :=
  { base with time := { running := true, now := 1000 }, power := { fOn := .replicate 8 true }, regs := regs, ingress := base.ingress.set 0 (f base.ingress[0]) }
/-- TRIG_CFG of input 31: enabled, rising, FILTER 2 (16 ns), HOLDOFF 4, class 3; and of input 0: disabled. -/
def trigWord : Word := BitVec.ofNat 32 (1 + 2 * 8 + 4 * 2 ^ 11 + 3 * 2 ^ 19)
def trigger (x : TrigIn) : State :=
  { seeing [] fun d => { d with trig := d.trig.set 31 x } with crest := [(mesaBase 0 + 0x100000 + 4 * 31, trigWord)], lee := [(mesaBase 0 + 0x100000 + 4 * 31, trigWord)] }

/-- TriggerResults: an input that takes an edge, a candidate at its FILTER time and 1 ns short of it, a holdoff at its end, one that does not stamp. -/
theorem witness_trigger : ((trigger {}).at 1000).stamping 0 3 = true ∧ (((trigger {}).at 1000).trigAt 0 31 1000).getLsbD 0 = true ∧ (((trigger {}).at 1000).trigAt 0 0 1000).getLsbD 0 = false ∧ (base.at 1000).stamping 0 3 = false ∧
    edgeSelected trigWord true = true ∧ edgeSelected trigWord false = false ∧ ((trigger { cand := some (1000, true) }).trigIn 0 31).cand = some (1000, true) ∧ 8 * (trigWord.toNat / 8 % 256) = 16 ∧
    8 * (trigWord.toNat / 2 ^ 11 % 256) = 32 ∧ ((trigger { holdoff := some 1000, inactive := some 1016 }).trigIn 0 31).holdoff = some 1000 ∧ 1000 + 32 ≤ 1032 ∧ 1016 + 16 ≤ 1032 := by decide +kernel

/-- A camera: stream 0 of receiver 0, RAW8, 64 by 2, virtual channel 0. -/
def camera (cur : Option FrameIn) (last : Option Time) : State :=
  seeing [(mesaBase 0 + 0x120000, 0x541), (mesaBase 0 + 0x120004, 0x00020040), (mesaBase 0 + 0x120008, 1), (mesaBase 0 + 0x12000C, 1), (mesaBase 0 + 0x120400, 1), (mesaBase 0 + 0x120800, 1), (mesaBase 0 + 0x120804, 1)]
    fun d => { d with locked := d.locked.set 0 true, cam := d.cam.set 0 { cur := cur, last := last } }
def frame0 (lines : Nat) : FrameIn := { stamp := keyStamp (eventKey 1000 (camByte 0 0)), number := 0, stored := true, lines := lines }
/-- CameraResults: a stream that matches and one that does not; frames at FRAME_MIN, 2 ns short of it, without room; the number of lines met and not; READOUT_MAX at its end. -/
theorem witness_camera : let v := (camera none none).at 1000
    v.rxUp 0 0 = true ∧ v.stamping 0 2 = true ∧ v.camMatch 0 0 0 0 = [0] ∧ v.camMatch 0 0 0 0x2A = [0] ∧ v.camMatch 0 0 1 0 = [] ∧ v.rxUp 0 1 = false ∧ v.camStores 0 0 = true ∧ v.ringFits 0 0 = true ∧
    v.frameMin 0 0 = 10000 ∧ v.readoutMax 0 0 = 1000 ∧ stampTime (frame0 0).stamp = 1000 ∧ (∀ l, (some 1000 : Option Time) = some l → l + v.frameMin 0 0 ≤ 11000) ∧ (10998 : Nat) < 1000 + v.frameMin 0 0 ∧
    ((camera (some (frame0 2)) none).camIn 0 0).cur = some (frame0 2) ∧ (frame0 2).lines = v.camH 0 0 ∧ (frame0 2).stored = true ∧ (frame0 2).damaged = false ∧ (frame0 1).lines ≠ v.camH 0 0 ∧ lineBytes (v.camDt 0 0) (v.camW 0 0) = 64 ∧
    v.jobs = [] ∧ v.replaying = false := by decide +kernel
theorem witness_camera_full : let s := camera none none
    ({ s with regs := s.regs.filter fun e => decide (e.1 ≠ mesaBase 0 + 0x120804) }).ringFits 0 0 = false := by decide +kernel
theorem witness_clock_lock : base.mesaLive 0 = true ∧ base.fuses.optV = true ∧ ((camera none none).reg (rxCtl 0 0)).getLsbD 0 = true ∧ (base.camIn 0 23).cur = none := by decide +kernel

/-- A tag port in each mode, and a frame of the least length that is valid. -/
def tagPort (stream : Bool) (x : TagPort) : State := seeing [(tagBase 0 7, if stream then 3 else 1), (tagBase 0 7 + 4, 0x07FF0000)] fun d => { d with tag := d.tag.set 7 x }
def tagFrame : List Byte := [37] ++ leBytes 2 0xC841 ++ List.replicate 13 0 ++ [0xE7, 1] ++ List.replicate 20 0 ++ [0x80]
theorem witness_tag : let v := (tagPort true {}).at 1000
    v.stamping 0 3 = true ∧ v.tagEn 0 7 = true ∧ v.tagStream 0 7 = true ∧ (tagPort false {}).tagStream 0 7 = false ∧ ((tagPort true { reading := true, fr := some 0x79 }).tagIn 0 7).fr ≠ none ∧ ((tagPort true {}).tagIn 0 7).reading = false ∧
    tagValid (tagFrame.take ((v.reg (tagBase 0 7 + 4)).toNat / 2 ^ 16 % 256)) ((v.reg (tagBase 0 7 + 4)).toNat / 2 ^ 24 % 8) = some 7 ∧ tagValid [] 7 = none ∧ base.fuses.optT = true ∧ ({ Fuses.station with optT := false }).optT = false := by decide +kernel
/-- A frame of one byte less carries no whole payload (R428). -/
theorem test_tag_short : tagValid ([36] ++ tagFrame.tail) 7 = none := by decide +kernel

/-- FieldBusResults: a controller on the bus and off it; a frame with 64 data bytes that filter 0 accepts and one that none does; a filter that matches an Ethernet frame, none, and one that is no PTP. -/
def canFrame (n : Nat) : CanFrame := { ident := 5, ide := false, rtr := false, fdf := false, brs := false, esi := false, data := List.replicate n 0 }
def canState : State := { seeing [(canBase 0 3, 3)] fun d => { d with can := d.can.set 3 { init := false, integrated := true } } with
  crest := [(canBase 0 3 + 0x100, 5), (canBase 0 3 + 0x104, 0x1FFFFFFF)], lee := [(canBase 0 3 + 0x100, 5), (canBase 0 3 + 0x104, 0x1FFFFFFF)] }
theorem witness_can : let v := canState.at 1000
    v.stamping 0 3 = true ∧ canState.canUp 0 3 = true ∧ (canFrame 64).data.length ≤ 64 ∧ v.canFilter 0 3 (v.usesOld 1000) (canFrame 64) = some 0 ∧ v.canFilter 0 3 (v.usesOld 1000) { canFrame 0 with ide := true } = none ∧
    base.canUp 0 3 = false ∧ base.mesaLive 0 = true ∧ ({ base with live := 0 }).mesaLive 0 = false ∧ 64 < (canFrame 65).data.length := by decide +kernel
def ethState : State := { seeing [(ethBase 0 2, 1)] fun d => { d with ethUp := d.ethUp.set 2 true } with crest := [(ethBase 0 2 + 0x5C, 0x08000001)], lee := [(ethBase 0 2 + 0x5C, 0x08000001)] }
def ethFrame0 : List Byte := List.replicate 12 0 ++ [0x08, 0x00] ++ List.replicate 50 0
theorem witness_ethernet : let v := ethState.at 1000
    let b := ethBase 0 2
    let hit (n : Nat) := ethFilter (v.bankWord 0 (v.usesOld 1000) (b + 0x40 + 4 * n)) ((v.bankWord 0 (v.usesOld 1000) b).toNat / 2 ^ 16 % 4096) ethFrame0
    ethState.mesaLive 0 = true ∧ ethState.ethEn 0 2 = true ∧ ethState.ingress[0].ethUp[2] = true ∧ (ethHead ethFrame0).2.1 ≠ 0x8808 ∧ ethFrame0.length ≤ 9216 ∧ v.stamping 0 1 = true ∧ hit 7 = true ∧ (∀ m : Fin 7, hit m = false) ∧ isPtp ethFrame0 = false ∧
    ∀ n : Fin 8, ethFilter (v.bankWord 0 (v.usesOld 1000) (b + 0x40 + 4 * n)) 0 (List.replicate 64 0) = false := by decide +kernel

/-! Merges. -/

def item1 : Item := itemOf (mkKey jobId 1 0)
def laneWith (l : List MSource) : State := seeing [] fun d => { d with adm := l, data := l }
/-- MergeResults at a lane: an item at its source's horizon, one below it, a head below the other frontier, a loose one, nothing to release. -/
theorem witness_lane : let h := (mkKey jobId 1 0)
    ((laneWith []).at 0).laneView 0 true = [] ∧ ((laneWith [{ src := 3, horizon := h, held := [item1] }]).laneView 0 false).find? (fun m => decide (m.src = 3)) = some { src := 3, horizon := h, held := [item1] } ∧
    (itemOf h).key.toNat ≤ h.toNat ∧ (itemOf (mkKey jobId 0 5)).key.toNat < h.toNat ∧ pickSource ((laneWith []).laneView 0 true) = none ∧
    pickSource ((laneWith [{ src := 3, horizon := h, held := [item1] }]).laneView 0 true) = some { src := 3, horizon := h, held := [item1] } ∧
    pickSource ((laneWith [{ src := 3, horizon := h, held := [item1], loose := true }, { src := 4, horizon := h, held := [itemOf 0] }]).laneView 0 true) = some { src := 3, horizon := h, held := [item1], loose := true } := by decide +kernel
def job0 : Job := { id := jobId, kind := 1, die := 0, cls := 0, image := 0, entry := 0, old := false, admitted := true, start := 0, end_ := 9, tiles := [0], share := [], cairns := [], running := [0] }
def port0 (srcs : List MSource) : State := { base with tiles := [(0, { ports := [{ kind := 0, stream := 4, sources := 2, srcs := srcs }] })], jobs := [job0] }
theorem witness_tile_merge : let s := port0 [{ src := 1, horizon := 0, held := [item1] }, { src := 2, horizon := mkKey jobId 2 0 }]
    let p := (s.tile 0).port 0 4
    s.tileOn 0 = true ∧ base.tileOn 511 = false ∧ 0 < p.sources ∧ p.sources ≤ p.srcs.length ∧ tiedKey (p.srcs.filter fun m => !m.loose) = none ∧ pickSource p.srcs = some { src := 1, horizon := 0, held := [item1] } ∧
    ((base.tile 0).port 0 4).sources = 0 := by decide +kernel
theorem witness_tie : let s := port0 [{ src := 1, horizon := 0, held := [item1] }, { src := 2, horizon := 0, held := [item1] }]
    tiedKey (((s.tile 0).port 0 4).srcs.filter fun m => !m.loose) = some item1.key ∧ s.job (keyId item1.key) = some job0 ∧ job0.stopped = none ∧ job0.running ≠ [] := by decide +kernel

/-! Mesh. -/

def msg (dest : Place) (cls : Nat) : Msg := { src := .tile 0, dest := dest, cls := cls, admitted := true, horizon := false, prod := 1, stream := 4, item := item1 }
def hop (place : Node) (m : Msg) : Hop := { place := place, msg := m, here := m.flits, left := m.flits, prev := some (.router 0) }
def flowing (h : Hop) : State := { base with net := { hops := [h] } }
/-- MeshResults: an output with a message and a credit, one without either, a link that retrains, a die whose clocks are stopped; a whole message at its end, for a stream, a horizon, a reply. -/
theorem witness_hop : let h := hop (.router 0) (msg (.tile 5) 2)
    let s := flowing h
    s.linkOf (.router 0) (.router 1) = none ∧ s.power.commonA1.toList.getD (s.nodeDie (.router 0)) false = false ∧ s.pickMsg (.router 0) (.router 1) 2 = some h ∧ (∀ k : Fin 2, s.pickMsg (.router 0) (.router 1) k = none) ∧
    (∀ c : Fin 4, base.pickMsg (.router 0) (.router 1) c = none) ∧ s.linkOf (.ergPort 0 0) (.mesaPort 0 0) = some 0 ∧
    ({ base with power := { commonA1 := .replicate 4 true } }).power.commonA1.toList.getD (s.nodeDie (.router 0)) false = true ∧ (∀ h ∈ base.net.hops, h.place = .tile 5 → h.msg.final = .tile 5 → h.here ≠ h.msg.flits) := by
  refine ⟨by decide, by decide, by decide +kernel, by decide +kernel, by decide +kernel, by decide +kernel, by decide, by decide⟩
theorem witness_deliver : (∀ m ∈ [msg (.tile 5) 2, { msg (.tile 5) 2 with horizon := true }, msg (.tile 5) 1, msg (.stack 0) 3],
      (flowing (hop m.final m)).net.hops.find? (fun h => decide (h.place = m.final ∧ h.msg.final = m.final ∧ h.here = h.msg.flits)) = some (hop m.final m)) ∧
    (∃ c w, ({ base with tiles := [(5, { core := some { core0 with wait := some { die := 0, key := item1.key, kind := 0, sreg := 7, preg := 0, slot := 0 } } })] } : State).tile 5 = { core := some c } ∧ c.wait = some w) ∧
    (port0 []).job (keyId item1.key) = some job0 ∧ base.ergLive 1 = true := by
  refine ⟨by decide +kernel, ⟨_, _, rfl, rfl⟩, by decide +kernel, by decide +kernel⟩

/-! Cairns. -/

def keyA : Key := mkKey jobId 1 0
def bind0 (b : Binding → Binding) : Binding := b { id := jobId, ranges := [(0, 2)], sources := 6, admitted := true, end_ := 9 }
def atApply (u : ApplyUnit) : State := { base with apply := base.apply.set 0 u, jobs := (port0 []).jobs }
/-- CairnResults, messages: an operation that its binding owns (its last cairn, its last source), one outside the ranges, one of no source, none bound, a job that has stopped, a die out of service, a binding that fits. -/
theorem witness_cairn_message : let U := (atApply { binds := [bind0 id] }).applyUnit 0
    let s := atApply { binds := [bind0 id] }
    s.ergLive 0 = true ∧ ({ base with live := 0 }).ergLive 0 = false ∧ s.job (keyId keyA) = some job0 ∧ job0.stopped = none ∧ job0.running ≠ [] ∧ U.binds.find? (fun b => decide (b.id = keyId keyA)) = some (bind0 id) ∧
    (bind0 id).owns 1 = true ∧ (bind0 id).owns 2 = false ∧ (bind0 id).sources.testBit (keyProd (mkKey jobId 2 0)) = true ∧ (bind0 id).sources.testBit (keyProd (mkKey jobId 3 0)) = false ∧ (U.word 1).state ≠ .poisoned ∧
    U.waiting = [] ∧ (∀ b ∈ U.binds, b.finished = false) ∧ (∀ o ∈ (bind0 id).ops ++ (bind0 id).watching, o.key ≠ keyA) ∧ ((bind0 id).setHorizon 1 ((bind0 id).position 1 keyA.toNat)).finished = false ∧
    (U.closeProds (bind0 id) [1]).waiting = [] ∧ (∀ b ∈ (U.closeProds (bind0 id) [1]).binds, b.finished = false) := by decide +kernel
theorem witness_cairn_bind : let U := (atApply {}).applyUnit 0
    U.fits (bind0 id) = true ∧ U.early = [] ∧ U.earlyClose = [] ∧ (U.bind (bind0 id)).waiting = [] ∧ (∀ b ∈ (U.bind (bind0 id)).binds, b.finished = false) ∧ (∀ b ∈ U.binds, b.id ≠ jobId) := by decide +kernel
/-- CairnResults, application: an operation that every other frontier has passed, of each opcode. -/
def op0 (opc : Nat) : COp := { opc := opc, cairn := 1, operand := 0xFFFFFFFF, key := keyA, tile := 0, pos := mkPos keyA.toNat false keyA.toNat }
def bindOp (opc : Nat) : Binding := bind0 fun b => { b with ops := [op0 opc], horizons := [(2, posTop)] }
theorem witness_cairn_apply : ∀ opc ∈ [1, 2, 4, 5, 6], let U := (atApply { binds := [bindOp opc] }).applyUnit 0
    U.binds.find? (fun b => decide (b.id = jobId)) = some (bindOp opc) ∧ (bindOp opc).passed (keyProd (op0 opc).key) (op0 opc).pos = true ∧ (U.word 1).state ≠ .poisoned ∧ (op0 opc).bad = false ∧ U.waiting = [] := by decide +kernel
theorem witness_cairn_none : let U := (atApply {}).applyUnit 0
    U.next jobId = none ∧ U.waiting = [] ∧ U.binds = [] := by decide +kernel
def waiter : Core := { core0 with wait := some { die := 0, key := keyA, kind := 1, sreg := 7, preg := 2, slot := 3 }, holds := [{ slot := 3, extents := [] }] }
theorem witness_cairn_reply : ((atCore waiter).tile 0).core = some waiter ∧ (atCore waiter).More 0 waiter ∧ ((atCore core0).tile 0).core = some core0 ∧ core0.wait = none ∧ (waiter.reply.getD (0, false)).2 = false :=
  ⟨by decide +kernel, by show _ < _; decide +kernel, by decide +kernel, by decide, by decide⟩

/-! ### Tiles' events, admission, actuation -/

/-- A tile with a start message and its entry table: image entry 1 starts at entry-table entry 3 (R292), whose pc is 0x800. -/
def place0 : PlaceRec := { tile := 0, cbMask := 0, wbedOff := 0, wbedLen := 0, imemOff := 0x800, imemLen := 0, entryFirst := 2, entryCount := 2, scaleFirst := 0, scaleCount := 0, misfitMask := 0 }
def bound0 (kind capA : Nat) : EntryBound :=
  { entry := 1, kind := kind, phases := 1, replicas := 1, tileCount := 1, commitNs := 100, totalNs := 1100, phase := [(1000, 0, 0, 0)], share := [], capA := capA, capB := 0, masks := [1] }
def image0 (kind capA : Nat) : Image :=
  { ident := 5, keySlot := 0, profile := false, noLee := false, unbound := false, minLeadUs := 100000, clockMhz := 1000, target := 0, entries := [bound0 kind capA], place := [place0], res := [], cairns := [], len := 0 }
def start0 : StartMsg := { id := jobId, admitted := true, image := 0, entry := 1, key := mkKey jobId 0 0 }
def starting (pc : Nat) : State :=
  { base with
    tiles := [(0, { starts := [start0], halves := (Vector.replicate 2 {}).set 0 { imem := (Mem.puts [] 24 (leBytes 2 pc)).puts 28 [9] } })]
    loader := { crest := (Vector.replicate 4 none).set 0 (some (image0 1 8)) }
    regs := [(tileBase 0 + 4, 3)] }
/-- TileEventResults: a job that starts, an entry at the end of the bank, a tile that is busy. -/
theorem witness_job_start : let s := starting 0x800
    (sortBy (fun m : StartMsg => m.key.toNat) (s.tile 0).starts).head? = some start0 ∧ (s.tile 0).core = none ∧ (s.tile 0).flight = [] ∧ s.tileOn 0 = true ∧ (s.row (rowDom 0)).ready = true ∧ s.cycles = [] ∧
    ((s.at 5).startCore 0 start0).pc = 0x800 ∧ ((starting 0x8000).startCore 0 start0).pc = s.imemSize 0 ∧ (base.tile 511).starts = [] ∧ ((atCore core0).tile 0).core ≠ none := by decide +kernel
theorem test_job_start : ((after (starting 0x800) (.jobStart 0 5)).tile 0).core.map (fun c => (c.pc, c.sreg[1], c.entry)) = some (0x800, 9, 1) := by decide +kernel
/-- The scrubber on, at the last line; a stack in service and out of it; a codebook word at either end of the window; a tile out of service. -/
theorem witness_tile_events : let s := starting 0x800
    (s.reg (tileBase 0 + 4)).getLsbD 1 = true ∧ (({ base with regs := [(tileBase 511 + 4, 1)] } : State).reg (tileBase 511 + 4)).getLsbD 1 = false ∧ base.stackLive 3 = true ∧ base.stackLive 4 = false ∧ base.stackOf 0 = some 0 ∧ base.leeShut = false ∧ base.tileLeeBusy 0 = false ∧
    0x400 % 4 = 0 ∧ 0xBFC % 4 = 0 ∧ ({ base with tileLive := 0 }).tileOn 511 = false := by decide +kernel

/-- AdmissionResults. A bound trigger of class 3 of die 0, a frame of stream 0, a host job, each with its image. -/
def trigStamp : Stamp := keyStamp (eventKey 1000 47)
def admState (kind capA : Nat) (events : List Item) (submits : List HpCmd) : State :=
  { seeing [(mesaBase 0 + 0x120008, 0x00010001), (mesaBase 0 + 0x12000C, 1), (0x1080, 0)] fun d => { d with events := events } with
    crest := mset regReset (mset regReset (mset regReset [] (mesaBase 0 + 0x1C0) (BitVec.ofNat 32 (1 + 8 + 200 * 4096))) (mesaBase 0 + 0x1C0 + 32) 1) (mesaBase 0 + 0x100000 + 4 * 31) trigWord
    loader := { crest := (Vector.replicate 4 none).set 0 (some (image0 kind capA)) }, submits := submits }
def trigItem : Item := { key := eventKey 1000 47 }
theorem witness_cycle : let s := admState 1 8 [trigItem] []
    let v := s.at 1100
    let cls := s.trigClass 0 (stampPort trigStamp) trigStamp
    let w0 := s.classWord 0 cls false 0
    let w := v.cycleWant 0 cls trigStamp false (image0 1 8) (bound0 1 8)
    s.eventAt 0 trigStamp = some trigItem ∧ s.firstRequest trigItem.key = true ∧ stampClass trigStamp < 2 ∧ s.replaying = false ∧ s.usesOld (stampTime trigStamp) = false ∧ cls = 3 ∧ w0.getLsbD 0 = true ∧ s.imageOf false (w0.toNat / 2 % 4) = some (image0 1 8) ∧
    (image0 1 8).bound (w0.toNat / 8 % 256) 1 = some (bound0 1 8) ∧ s.jobs = [] ∧ v.fitting w = some 0 ∧ base.eventAt 0 trigStamp = none := by decide +kernel
/-- A trigger that no class takes, one whose image is gone, one that is not the first request, and a job that does not fit because its replica's tile is taken. -/
theorem witness_cycle_refused : let s := admState 1 8 [trigItem] []
    ({ s with crest := [] }).trigClass 0 31 trigStamp ≥ 16 ∧ ({ s with loader := {} }).imageOf false 0 = none ∧ ({ s with ingress := s.ingress.set 1 { s.ingress[1] with events := [itemOf 0] } }).firstRequest trigItem.key = false ∧
    ({ s with jobs := [{ job0 with reserved := true, end_ := 5000 }] }).fitting (s.cycleWant 0 3 trigStamp false (image0 1 8) (bound0 1 8)) = none := by decide +kernel
def frameStamp : Stamp := keyStamp (eventKey 1000 (camByte 0 0))
def frameItem : Item := { key := eventKey 1000 (camByte 0 0) }
theorem witness_frame_job : let s := admState 2 1 [frameItem] []
    let v := s.at 1100
    let w := v.frameWant 0 (stampPort frameStamp) frameStamp false (0, image0 2 1, bound0 2 1)
    s.eventAt 0 frameStamp = some frameItem ∧ s.firstRequest frameItem.key = true ∧ 2 ≤ stampClass frameStamp ∧ s.frameEntry false 0 (stampPort frameStamp) = some (0, image0 2 1, bound0 2 1) ∧ v.fitting w = some 0 ∧ (s.die 0).arrived = [] ∧
    (admState 1 8 [frameItem] []).frameEntry false 0 (stampPort frameStamp) = none ∧ (s.bankWord 0 false (mesaBase 0 + 0x40)).getLsbD 0 = false ∧ ({ s with logs := { safe := true } }).fitting w = none := by decide +kernel
def hostJob : HpCmd := entry 2 1 ([0, 1, 0, 0] ++ leBytes 4 (2 ^ 31))
theorem witness_host_job : let s := admState 3 0 [] [hostJob]
    let v := s.at 1100
    let w := v.hostWant hostJob false (image0 3 0) (bound0 3 0)
    (sortBy (fun c : HpCmd => c.key.toNat) s.submits).head? = some hostJob ∧ s.firstRequest hostJob.key = true ∧ hostJob.queue ≠ 256 ∧ s.imageOf (s.usesOld (stampTime hostJob.stamp)) hostJob.slot = some (image0 3 0) ∧ (image0 3 0).bound hostJob.entry 3 = some (bound0 3 0) ∧
    v.fitting w = some 0 ∧ ({ s with loader := {} }).imageOf false hostJob.slot = none ∧ ({ s with ingress := s.ingress.set 1 { s.ingress[1] with events := [itemOf 0] } }).firstRequest hostJob.key = false := by decide +kernel

/-- ClosureAndEndResults and ActuationResults: a cycle before and at its closure, its deadline, its commit and each check. -/
def act0 : ActEvent := { action := 1, chip := 0, kind := 0, index := 0, profile := 0, flags := 1, duration := 0, fire := 20000, deadline := 10000, stamp := trigStamp, seq := 0 }
def cycle0 : Cycle := { id := { stamp := trigStamp, job := 0 }, die := 0, cls := 3, admitted := true, old := false, deadline := 10000, dflt := act0, ident := 0, crest := 0, closeAt := 1500 }
def commitKey : Key := mkKey cycle0.id 4095 0
def onBody (fire : Nat) : List Byte := [0x15, 1, 0, 0, 0, 0, 0, 0] ++ List.replicate 8 0 ++ leBytes 8 fire ++ List.replicate 24 0
def commitAt (receipt : Nat) (body : List Byte) : CommitMsg := { receipt := receipt, key := commitKey, void := 0, body := body }
def seated : ChipState := { stamp := 0, up := true, seated := true, attached := true, held := 0 }
def cycling (c : Cycle) : State :=
  { seeing [] id with cycles := [c], ports := base.ports.set 0 { up := true, attached := true, seated := true, history := [seated] }, jobs := [{ job0 with id := c.id, reserved := true, end_ := 9000 }] }
theorem witness_closure : let s := cycling cycle0
    s.cycleAt trigStamp = some cycle0 ∧ (s.at 1500).time.now = cycle0.closeAt ∧ cycle0.closed = false ∧ base.cycleAt trigStamp = none ∧ (s.at 1499).time.now < cycle0.closeAt ∧ s.job cycle0.id = some { job0 with id := cycle0.id, reserved := true, end_ := 9000 } ∧
    (s.at 9000).time.now = 9000 ∧ base.job cycle0.id = none ∧ job0.running ≠ [] ∧ job0.stopped = none := by decide +kernel
theorem witness_commit : (cycling cycle0).cycles.find? (fun c => decide (c.id = keyId commitKey ∧ c.die = 0)) = some cycle0 ∧ keyProd commitKey = 4095 ∧ keyEmit commitKey = 0 ∧ cycle0.verdict = none ∧ cycle0.commit = none ∧ keyProd (mkKey cycle0.id 5 0) ≠ 4095 ∧
    (base.cycles.find? fun c => decide (c.id = keyId commitKey ∧ c.die = 0)) = none := by decide +kernel
/-- Bodies: one that passes, at the least fire time and the greatest, one ns outside each, of no form, of ACTION NONE; a chip that is not seated; a port with 64 events waiting. -/
theorem witness_checks : let c := { cycle0 with commit := some (commitAt 9999 (onBody 16000)) }
    let v := (cycling c).at 5000
    let e (b : List Byte) := eventOf b c.deadline trigStamp (commitKey.toNat % 2 ^ 32)
    v.cycleAt trigStamp = some c ∧ c.checked = false ∧ stampTime trigStamp + 4000 ≤ v.time.now ∧ bodyOk (onBody 16000) = true ∧ bodyOk [] = false ∧ (e (onBody 16000)).fire = c.deadline + 6000 ∧ (e (onBody 15999)).fire < c.deadline + 6000 ∧
    (e (onBody 16000001001)).fire = stampTime trigStamp + 16000000001 ∧ bodyOk (onBody 16000001001) = true ∧ (e (onBody 16000)).action ≠ 0 ∧ bodyOk (0x15 :: List.replicate 47 0) = true ∧ (e (0x15 :: List.replicate 47 0)).action = 0 ∧
    v.chipCheck trigStamp 0 0 0 = none ∧ v.chipCheck trigStamp 1 0 0 = some 8 ∧ (v.port 0).waiting < 64 ∧ (v.port 0).up = true ∧ v.replaying = false ∧
    ({ (v.port 0) with queue := List.replicate 64 { prio := 2, bytes := [] } }).waiting = 64 := by decide +kernel
theorem witness_deadline : (cycling cycle0).cycleAt trigStamp = some cycle0 ∧ cycle0.deadline ≤ ((cycling cycle0).at 10000).time.now ∧ ((cycling cycle0).at 9999).time.now < cycle0.deadline := by decide +kernel

/-! ### DFL ports, the reflex path, slips, loads -/

/-- Port 0 of a module whose station time runs: attached, seated, up, with its link history. -/
def linked (f : DflPort → DflPort) : State :=
  { seeing [(0x9018, 0)] id with ports := base.ports.set 0 (f { up := true, attached := true, seated := true, history := [seated] }) }
def noOptA : State := { base with fuses := { Fuses.station with optA := false }, live := 0 }
def timeTick : List Byte := [0x03, 0] ++ leBytes 4 0 ++ leBytes 8 0
/-- DflResults, the link: what sends and what does not; silence at 1 ms and 1 ns short of it; alignment at 10 µs; 16 discards and 15; 10 locked STATUS frames and 9. -/
theorem witness_dfl_link : let s := linked fun d => { d with queue := [{ prio := 4, bytes := timeTick }], lastValid := 1000 }
    (s.at 1000).dflSends 0 = true ∧ base.dflSends 0 = false ∧ (s.port 0).queue = [{ prio := 4, bytes := timeTick }] ∧ timeTick ≠ [] ∧ s.dflLive 0 = true ∧ noOptA.dflLive 0 = false ∧ (s.port 0).up = true ∧ (base.port 0).up = false ∧
    (s.port 0).lastValid + 1000000 ≤ (s.at 1001000).time.now ∧ (s.at 1000999).time.now < (s.port 0).lastValid + 1000000 ∧ 1000 + 10000 ≤ (s.at 11000).time.now ∧ ((linked fun d => { d with discards := 16 }).port 0).discards = 16 ∧
    ((linked fun d => { d with up := false, lockedRun := 10 }).port 0).lockedRun = 10 ∧ ((linked fun d => { d with up := false, lockedRun := 9 }).port 0).lockedRun < 10 ∧ s.replaying = false ∧ s.slip.st ≠ .preparing := by decide +kernel
def slipping (st : SlipSt) (f : Slip → Slip) : State := { linked id with slip := f { st := st, id := 7, point := 2000000, deadline := 500000, parties := [.tile 0, .mesa 0, .chip 0] } }
theorem witness_dfl_abort : (slipping .preparing id).slip.st = .preparing ∧ Party.chip 0 ∈ (slipping .preparing id).slip.parties := by decide +kernel

/-- DflResults, receipt: a chip that must be compared, with the ledger's checksum and with another; replies to an event, to a chunk, to none; an event due for its second transmission, and one to abandon. -/
def dflEvent : DflEvent := { eid := 5, event := { act0 with flags := 0 }, cycle := cycle0.id, cycleDie := 0, sentAt := 1000, sent := 1 }
def withEvent : State := { linked fun d => { d with events := [dflEvent] } with cycles := [cycle0] }
theorem witness_dfl_receive : let d := withEvent.port 0
    (d.up && (d.compareDue || d.reseat || !d.seated)) = true ∧ ((linked fun d => { d with compareDue := false }).port 0).compareDue = false ∧ d.reseat = false ∧ (d.events.find? fun e => decide (e.eid = 5) && e.open_ 1000) = some dflEvent ∧
    (d.events.find? fun e => decide (e.eid = 6) && e.open_ 1000) = none ∧ withEvent.cycle dflEvent.cycle = some cycle0 ∧ cycle0.verdict = none ∧ dflEvent.event.flags = 0 ∧ (5 : Nat) < 0xF000 ∧
    d.events.find? (fun e => decide (e.eid = 5 ∧ e.scheduled = false ∧ e.sent = 1)) = some dflEvent ∧ dflEvent.sentAt + 1500 = 2500 ∧ (∀ f ∈ d.queue, f.eid ≠ some 5) ∧ d.events.find? (fun e => decide (e.eid = 5 ∧ e.scheduled = false)) = some dflEvent ∧
    dflEvent.event.fire ≤ 18000 + 2000 ∧ 17999 + 2000 < dflEvent.event.fire ∧ withEvent.timeRuns = true := by decide +kernel
theorem crcLsb_lt (p : Nat) (hp : p < 2 ^ 64) (bs : List Byte) : ∀ c, c < 2 ^ 64 → crcLsb p c bs < 2 ^ 64 := by
  have one : ∀ c, c < 2 ^ 64 → crcStepLsb p c < 2 ^ 64 := by
    intro c hc
    have : c >>> 1 < 2 ^ 64 := Nat.lt_of_le_of_lt (Nat.shiftRight_le c 1) hc
    unfold crcStepLsb; split
    · exact Nat.xor_lt_two_pow this hp
    · exact this
  have many : ∀ n c, c < 2 ^ 64 → iter (crcStepLsb p) n c < 2 ^ 64 := by
    intro n; induction n with
    | zero => exact fun _ h => h
    | succ n ih => exact fun c h => ih _ (one c h)
  unfold crcLsb
  induction bs with
  | nil => exact fun _ h => h
  | cons b bs ih => exact fun c h => ih _ (many 8 _ (Nat.xor_lt_two_pow h (by omega)))
theorem ident_matches (m : SMap Word) (c : Nat) : leAt (List.replicate 2 0 ++ leBytes 8 (crc64 (ledgerBytes m c))) 2 8 = crc64 (ledgerBytes m c) := by
  have h : crc64 (ledgerBytes m c) < 2 ^ 64 := Nat.xor_lt_two_pow (crcLsb_lt _ (by decide) _ _ (by decide)) (by decide)
  generalize crc64 (ledgerBytes m c) = n at h ⊢
  simp [leAt, leBytes, ofLe, List.replicate]
  omega
/-- An IDENT frame whose ledger checksum is the port's ledger's. -/
theorem witness_ident : leAt (List.replicate 2 0 ++ leBytes 8 (crc64 (ledgerBytes base.crest 0))) 2 8 = crc64 (ledgerBytes base.crest 0) := ident_matches _ _

/-- ReflexAndChipRegisterResults: a rule that may stand, one for another die's chip, one with a pulse of no length; an edge that fires it, a sentinel change that is presented; a register operation free, pending, of the chip's answer, and due. -/
def ruled : State := let m := mset regReset (mset regReset [] (ruleBase 0 63) (1 + 31 * 4)) (ruleBase 0 63 + 4) 1
  { linked id with lee := m, crest := m }
theorem witness_reflex : ruled.mesaLive 0 = true ∧ (ruled.leeWord (ruleBase 0 63)).getLsbD 0 = true ∧ fld (ruled.leeWord (ruleBase 0 63 + 4)) 4 3 / 2 = 0 ∧ actionFits (fld (ruled.leeWord (ruleBase 0 63 + 4)) 2 0) 0 = true ∧ ruled.slip.st = .idle ∧ ruled.leeBusy 0 = false ∧
    fld (0x10 : Word) 4 3 / 2 ≠ (0 : Fin 2).val ∧ ruled.presented 0 (.trigger 31) false trigStamp = true ∧ ruled.presented 0 (.sentinel 3) false trigStamp = false ∧
    ((List.range 64).filter fun n => ruleFires (ruled.bankWord 0 (ruled.usesOld (stampTime trigStamp)) (ruleBase 0 n)) (.trigger 31) false 0) = [63] ∧ ({ ruled with live := 0 }).mesaLive 0 = false := by decide +kernel
theorem witness_sentinel : ({ ruled with dw := { sentinel := [(3, false, 9)] } }).presented 0 (.sentinel 3) false 9 = true ∧ fld (3 : Word) 2 0 = 3 ∧ fld (0 : Word) 23 0 < 1 := by decide +kernel
def regOp (again : Bool) : RegOp := { write := true, off := 0x20, value := 1, tag := 4, started := 1000, again := again }
theorem witness_chip_register : (ruled.port 0).reg = none ∧ ((linked fun d => { d with reg := some (regOp false) }).port 0).reg = some (regOp false) ∧ ((linked fun d => { d with reg := some (regOp true) }).port 0).reg = some (regOp true) ∧
    (regOp false).started + 10000 ≤ 11000 ∧ 10999 < (regOp false).started + 10000 ∧ ruled.dflLive 0 = true ∧ ((linked fun d => { d with up := false }).port 0).up = false := by decide +kernel

/-! Slips. -/

/-- The instants of a request at their limits: PREPARE deadline 200 µs ahead, slip point 100 µs after it. -/
def asking (point deadline : Nat) : State := { linked id with regs := [(0x208, BitVec.ofNat 32 point), (0x210, BitVec.ofNat 32 deadline)] }
def slipCmd : HpCmd := entry 5 255 (leBytes 8 301000 ++ leBytes 8 201000)
theorem witness_slip_request : (asking 301000 201000).getPair 0x208 = 301000 ∧ (asking 301000 201000).getPair 0x210 = 201000 ∧ ((asking 301000 201000).at 1000).time.now + 200000 = 201000 ∧ (1 : Word).getLsbD 0 = true ∧ (asking 0 0).slip.st = .idle ∧
    (asking 0 0).loading = false ∧ byteAt slipCmd.bytes 0 = 5 ∧ leAt slipCmd.bytes 8 8 = 301000 ∧ leAt slipCmd.bytes 0x10 8 = 201000 ∧ slipCmd.queue ≠ 256 := by decide +kernel
/-- SlipResults, PREPARE: parties that PREPARE has reached and not; answers given; the last ACK, and one that is not the last; NACK; a chunk due. -/
def preparing : State := slipping .preparing fun x => { x with prepared := [.tile 0], acked := [.mesa 0, .chip 0] }
def sum0 : Nat := 77
theorem witness_prepare : let s := preparing
    s.slip.id = 7 ∧ Party.mesa 0 ∈ s.slip.parties ∧ Party.mesa 0 ∉ s.slip.prepared ∧ Party.tile 0 ∈ s.slip.prepared ∧ s.slip.answers = [] ∧ s.partyAwake (.tile 0) = true ∧ (s.at 1000).awaits (.tile 0) 7 = true ∧ (s.at 1000).awaits (.tile 1) 7 = false ∧ s.slip.deadline = 500000 ∧
    (s.at 500000).time.now = s.slip.deadline ∧ (s.tile 0).retiring = none ∧ (s.tile 0).refreshing = false ∧ s.leeEn 0 = true ∧ (s.chips[0]).slipId ≠ 7 := by decide +kernel
def answeredTile : State :=
  { slipping .preparing fun x => { x with prepared := [.tile 0], acked := [.mesa 0, .chip 0], answers := [(.tile 0, 0, sum0)] } with loader := { expect := [(0, sum0)] } }
theorem witness_ack : (Party.tile 0, 0, sum0) ∈ answeredTile.slip.answers ∧ answeredTile.sumWrong (.tile 0) sum0 = false ∧ answeredTile.sumWrong (.tile 0) (sum0 + 1) = true ∧ (answeredTile.slip.parties.all fun q => decide (q ∈ answeredTile.slip.acked ++ [Party.tile 0])) = true := by decide +kernel
theorem witness_ack_mesa : let s := slipping .preparing fun x => { x with prepared := [.mesa 0], answers := [(.mesa 0, 0, 9), (.tile 0, 4, 0)] }
    (s.at 1000).awaits (.mesa 0) 7 = true ∧ (Party.mesa 0, 0, 9) ∈ s.slip.answers ∧ s.slip.expect = 0 ∧ (s.slip.parties.all fun (q : Party) => (match q with | .mesa _ => decide (q ∈ s.slip.acked ++ [.mesa 0]) | _ => true)) = true ∧
    (s.at 1000).awaits (.tile 0) 7 = true ∧ (∃ a ∈ s.slip.answers, a.1 = Party.tile 0 ∧ a.2.1 = 4) ∧ (s.at 1000).awaits (.chip 0) 7 = true ∧ (s.port 0).seated = true ∧ ((linked fun d => { d with seated := false }).port 0).seated = false := by decide +kernel
theorem witness_chunk : let s := linked fun d => { d with chunks := [(31, 1000, 1)] }
    (s.port 0).chunks.find? (fun c => decide (c.1 = 31 ∧ c.2.2 = 1)) = some (31, 1000, 1) ∧ 1000 + 4000 ≤ (s.at 5000).time.now ∧ (s.at 4999).time.now < 1000 + 4000 := by decide +kernel
/-- SlipResults, COMMIT and the slip point: the last COMMIT_ACK and one before it, the arm deadline, the point, a party that ABORT reaches. -/
def arming (acked : List Party) : State := slipping .arming fun x => { x with committed := [.tile 0, .mesa 0], commitAcked := acked }
theorem witness_commit_slip : (arming []).slip.st = .arming ∧ Party.tile 0 ∈ (arming []).slip.parties ∧ Party.tile 0 ∈ (arming []).slip.committed ∧ (∀ q ∈ (arming [.mesa 0, .chip 0]).slip.parties, q = .tile 0 ∨ q ∈ (arming [.mesa 0, .chip 0]).slip.commitAcked) ∧
    (∃ q ∈ (arming []).slip.parties, q ≠ .tile 0 ∧ q ∉ (arming []).slip.commitAcked) ∧ (arming []).slip.point ≤ ((arming []).at 1960000).time.now + 40000 ∧ ((arming []).at 1959999).time.now + 40000 < (arming []).slip.point ∧ (base.slip.st = .idle ∧ base.slip.id = 0) ∧
    (slipping .armed id).slip.st = .armed ∧ (slipping .armed id).slip.point ≤ ((slipping .armed id).at 2000000).time.now ∧ (slipping .armed id).slip.parties.Nodup ∧ ((slipping .armed id).at 1999999).time.now < (slipping .armed id).slip.point ∧
    Party.tile 511 ∉ (slipping .armed id).slip.parties ∧ ((slipping .armed id).port 0).attached = true := by decide +kernel
/-- A retiring half that nothing holds, that a not-admitted job holds, that a reservation holds; mesa die 0's former bank; a refresh that is due. -/
def retired (jobs : List Job) : State :=
  { seeing [] id with tiles := [(0, { retiring := some 5000 })], old := base.old.set 0 (some []), slip := { lastPoint := some 5000 }, jobs := jobs, refreshing := base.refreshing.set 1 true }
theorem witness_retire : let j : Job := { job0 with admitted := false }
    ((retired []).tile 0).retiring = some 5000 ∧ (retired []).holders 0 5000 = [] ∧ (retired []).tileReserved 0 5000 = false ∧ (retired [j]).holders 0 5000 = [j] ∧ (retired [j]).tileReserved 0 5000 = false ∧ j.admitted = false ∧ (retired [j]).job j.id = some j ∧ j.stopped = none ∧
    (retired [{ job0 with reserved := true, end_ := 9000 }]).tileReserved 0 5000 = true ∧ (retired []).old[0] ≠ none ∧ (retired []).slip.lastPoint = some 5000 ∧ j.before 5000 = true ∧ j.running ≠ [] ∧ 5000 + 1000000 ≤ ((retired []).at 1005000).time.now ∧
    base.old[0] = none ∧ (base.tile 0).retiring = none ∧ ({ base with tiles := [(0, { refreshing := true })] } : State).tile 0 = { refreshing := true } ∧ (retired []).refreshing[1] = true ∧ mwf regReset (retired []).crest = true ∧ (retired []).heldWrites = [] := by decide +kernel

/-! Loads. -/

/-- A signed image of 896 bytes for this assembly: one cycle entry, one PLACE record, a reservoir range for the store, one entry-table chunk (R283 to R299). -/
def imageCells : List (Nat × Byte) :=
  [(0, 70), (1, 78), (2, 86), (3, 73), (4, 1), (7, 1), (8, 128), (9, 3), (17, 1), (21, 1), (22, 1), (24, 1), (28, 5), (33, 1), (40, 10), (44, 1), (48, 2), (64, 2), (65, 4), (66, 2), (67, 2), (68, 232), (69, 3), (70, 1), (256, 1), (258, 255), (260, 1), (264, 192), (265, 1), (272, 192), (288, 2), (290, 255), (292, 1), (296, 128), (297, 2), (304, 32), (320, 3)] ++
  [(322, 255), (324, 1), (328, 192), (329, 2), (336, 16), (352, 4), (354, 255), (361, 3), (384, 5), (386, 255), (388, 1), (393, 3), (400, 32), (448, 1), (449, 1), (450, 1), (451, 1), (452, 1), (456, 100), (460, 76), (461, 4), (464, 232), (465, 3), (552, 8), (560, 128), (576, 1), (653, 8), (656, 2), (658, 2), (704, 100), (708, 1), (712, 2), (770, 5), (772, 24), (776, 8), (785, 8), (788, 7)]
def imageBytes : List Byte := (imageCells.foldl (fun (m : Mem) c => m.puts c.1 [c.2]) []).bytes 0 832 ++ signed [] 57568392810208564045056289678338001983944624109333964462936795222955434997678
def loadCmd (mode : Byte) : HpCmd := entry 3 255 ([0, mode, 0, 0] ++ List.replicate 4 0 ++ leBytes 8 64 ++ leBytes 8 896)
def loading (mode : Byte) : State :=
  { keyed 0 20394898949570615654767561153764906246029462080795584557436758605471662615530 15866441782937611461704592241578147389381881646189639004437921360491466841824 base with
    regs := [(0x300C, 1)], link := { adminNow := some (loadCmd mode) }, resv := { mem := Mem.puts [] (base.liveBytes - 2 ^ 20 + 64) imageBytes } }
theorem test_image_form : formatOk imageBytes = true := by decide +kernel
theorem test_image_signature : (loading 0).signCode imageBytes (byteAt imageBytes 0x17) = 0 := by decide +kernel
theorem signCode_unit (s u : State) (h : s.unit = u.unit) (img : List Byte) (k : Nat) : s.signCode img k = u.signCode img k := by 
  have e : s.imageKey k = u.imageKey k := by simp only [State.imageKey, h]
  unfold State.signCode
  rw [e]
theorem test_image_staged : (loading 0).stagedImage (loadCmd 0) = imageBytes := by decide +kernel
/-- LoaderResults: a load that passes every check, COLD and LEE; one with no image; an unload of a slot that holds one and of one that does not; a slip that is open. -/
theorem witness_load : (loading 0).needMask imageBytes false = 0 ∧ (loading 0).selectTarget imageBytes false = some (0, false) ∧ (loading 0).contentCode imageBytes 0 = 0 ∧ (loading 0).placementBad imageBytes 0 0 true = false ∧ (loading 0).leeModeBad imageBytes 0 true = false ∧
    (loading 1).placementBad imageBytes 0 0 false = false ∧ (loading 1).leeModeBad imageBytes 0 false = false ∧ byteAt (loadCmd 0).bytes 0 = 3 ∧ (loadCmd 0).cold = true ∧ (loadCmd 1).cold = false ∧ (loadCmd 0).loadSlot < 4 ∧ (loading 0).slip.st = .idle ∧
    base.tilesReady [0] = true ∧ ({ base with tiles := [(0, { refreshing := true })] }).tilesReady [0] = false ∧ formatOk [] = false := by decide +kernel
theorem witness_load_lee : (loading 1).needMask imageBytes false = 0 ∧ (loading 1).selectTarget imageBytes false = some (0, false) ∧ (loading 1).contentCode imageBytes 0 = 0 := by decide +kernel
theorem witness_load_check : (loading 0).loadCheck imageBytes 0 true false = (0, 0, some (0, false)) ∧ (loading 1).loadCheck imageBytes 0 false false = (0, 0, some (0, false)) := by
  have h := test_image_form
  have k := test_image_signature
  have k' := (signCode_unit (loading 1) (loading 0) rfl imageBytes (byteAt imageBytes 0x17)).trans k
  obtain ⟨a, b, c, d, e, f, g, -⟩ := witness_load
  obtain ⟨a', b', c'⟩ := witness_load_lee
  exact ⟨by simp only [State.loadCheck, h, k, a, b, c, d, e]; rfl, by simp only [State.loadCheck, h, k', a', b', c', f, g]; rfl⟩
/-- A load whose signature does not verify: its key is gone. -/
theorem witness_load_refused : base.signCode imageBytes 0 = 3 ∧ byteAt (entry 4 255 []).bytes 0 = 4 ∧ (entry 4 255 []).loadSlot < 4 ∧ base.loader.lee.toList.getD 0 none = none ∧
    (({ base with loader := { lee := (Vector.replicate 4 none).set 0 (some (image0 1 8)) } } : State).loader.lee.toList.getD 0 none) = some (image0 1 8) ∧ placedTiles (image0 1 8).place = [0] := by decide +kernel

/-! ### Power companions (18 to 20) -/

def settings (ws : List (Nat × Nat)) : Settings := ws.foldl (fun m w => Settings.put m w.1 (BitVec.ofNat 32 w.2)) []
def chipWith (f : Chip → Chip) : State := { base with chips := base.chips.set 0 (f { powered := true }) }
abbrev chip0 (f : Chip → Chip) : Chip := (chipWith f).chips[0]

/-- ChipSupervisorResults. Power-up and its end, ten TIME frames within 20 ns, silence of 2 ms, HOLD_LAST and its end, the limp pins: each at its limit and short of it. -/
theorem witness_chip_supervisor :
    base.chips[0].powered = false ∧ (chip0 id).powered = true ∧ (4000 < 4001) ∧ (3499 < 3500) ∧ (chip0 id).supervisor = .powerup ∧ (chip0 id).powerAt + 100000000 ≤ 100000000 ∧ 99999999 < (chip0 id).powerAt + 100000000 ∧
    (let c := chip0 fun c => { c with timeRun := 9, lastTime := 1000 }
     c.locked = false ∧ ¬ c.lastTime + 2000000 ≤ 2000999 ∧ c.timeRun + 1 = 10 ∧ c.lastTime + 2000000 ≤ 2001000) ∧
    (let c := chip0 fun c => { c with locked := true, supervisor := .run, lastTime := 1000 }
     c.locked = true ∧ c.lastTime + 2000000 ≤ 2001000 ∧ c.supervisor = .run ∧ c.holdLastMs = 0) ∧
    (let c := chip0 fun c => { c with locked := true, supervisor := .run, crest := settings [(0x6A4, 0xFFFE)] }
     c.holdLastMs ≠ 0 ∧ c.holdLastMs ≠ 0xFFFF) ∧ (chip0 fun c => { c with locked := true, supervisor := .limp }).supervisor ≠ .run ∧
    (let c := chip0 fun c => { c with supervisor := .holdLast, lossAt := 7, crest := settings [(0x6A4, 1)] }
     c.supervisor = .holdLast ∧ c.holdLastMs ≠ 0xFFFF ∧ c.lossAt + 1000000 * c.holdLastMs ≤ 1000007 ∧ ¬ c.lossAt + 1000000 * c.holdLastMs ≤ 1000006) ∧
    (let c := chip0 fun c => { c with supervisor := .limp, limpPend := [3, 7] }
     c.supervisor = .limp ∧ ({ c with lh0 := true, lh1 := true } : Chip).limpIndex ≠ c.limpIndex ∧ ({ c with lh0 := false, lh1 := false } : Chip).limpIndex = c.limpIndex ∧
     (3 ∈ c.limpPend ∧ ∀ m ∈ c.limpPend, m / 4 = 3 / 4 → 3 ≤ m) ∧ (7 ∈ c.limpPend ∧ ∀ m ∈ c.limpPend, m / 4 = 7 / 4 → 7 ≤ m) ∧ 11 ∉ c.limpPend) := by decide +kernel
/-- The same: an entry that starts with a peak and one that finds no energy, supply limits, a crank at its longest, a recovery, a trip input, its clearing, RELEASE. -/
theorem witness_chip_supply :
    (let c := chip0 fun c => { c with supervisor := .limp, limpPend := [3], crest := settings [(0x700 + 12, 4 * 2 ^ 24), (0x4A0 + 16, 20), (0x4A4 + 16, 2 * 4096)] }
     let p := solProf c.crest (c.limpByte 15 / 4)
     p.peakI ≠ 0 ∧ c.solTrip 3 = false ∧ c.supplyHeld = false ∧ c.sol[3].phase ≠ .fault ∧ c.sumsOk c.crest (liveWins c.bank[0].windows 5) 3 p (c.solWin 3 p 5) = true ∧ c.energyOk 3 p 0 = true) ∧
    (let c := chip0 fun c => { c with supervisor := .limp, limpPend := [3], crest := settings [(0x700 + 12, 4 * 2 ^ 24), (0x4A0 + 16, 20 + 2 ^ 17), (0x4A4 + 16, 2 * 4096)] }
     c.energyOk 3 (solProf c.crest (c.limpByte 15 / 4)) 0 = false ) ∧
    (chip0 id).overV = false ∧ (37000 < 37001) ∧ (4499 < 4500) ∧ (chip0 id).underV = false ∧ (chip0 fun c => { c with underV := true }).underV = true ∧ (4500 ≤ 4500 ∧ 5999 < 6000 ∧ (chip0 id).crank = false) ∧
    (let c := chip0 fun c => { c with crank := true, crankAt := 3 }
     c.crank = true ∧ c.crankAt + 1000000 * max 1 (min 50 (fld (c.crest.word 0x6A0) 5 0)) ≤ 50000003 ∧ ¬ c.crankAt + 1000000 * max 1 (min 50 (fld (c.crest.word 0x6A0) 5 0)) ≤ 50000002) ∧
    (let c := chip0 fun c => { c with overV := true, supervisor := .limp }
     c.supplyHeld = true ∧ c.supervisor = .limp) ∧ (chip0 fun c => { c with overV := true }).supplyHeld = true ∧
    (let c := chip0 fun c => { c with crest := settings [(0x6B0 + 12, 3 + 2 ^ 8 + 2 ^ 20)], trips := (Vector.replicate 4 false).set 3 true, tripPins := (Vector.replicate 4 false).set 3 true }
     let cfg := c.crest.word (0x6B0 + 4 * (3 : Fin 4).val)
     cfg.getLsbD 0 = true ∧ true = cfg.getLsbD 1 ∧ c.hsTrip 0 = true ∧ ({ c with trips := .replicate 4 false } : Chip).hsTrip 0 = false ∧ ({ c with trips := .replicate 4 false } : Chip).solTrip 0 = false ∧ c.hsUpper 0 = false ∧ c.solTrip 0 = true ∧ c.solTrip 1 = false ∧ (∃ m : Fin 4, (8 : Nat).testBit m.val = true ∧ c.trips[m] = true ∧ c.tripPins[m] = true)) ∧
    (chip0 fun c => { c with locked := true, supervisor := .holdLast }).stateHeld = true ∧ (chip0 fun c => { c with locked := true }).stateHeld = false := by decide +kernel

def bzEvent (kind index action profile : Nat) (dur : Nat := 0) : BzEvent :=
  { id := 5, action := action, index := index, kind := kind, profile := profile, flags := 0, fire := 20000, deadline := 10000, stamp := trigStamp, durationUs := dur }
def sched (e : BzEvent) : BzSched := { ev := e, start := e.fire }

/-- ChipFrameResults. A repeated TAG and a fresh one, a sample that differs and one that was reported, frames to send, a write of the limp store, a retiring bank that an event still uses, chunks, an armed slip point with and without an earlier event, a whole block. -/
theorem witness_chip_frames :
    (chip0 fun c => { c with lastReg := some (255, .regData 0 255 0x20 1) }).lastReg = some (255, .regData 0 255 0x20 1) ∧ (chip0 id).lastReg = none ∧ (0x3FC % 4 = 0 ∧ 0x3FC < 0x400) ∧
    (let c := chip0 fun c => { c with locked := true }
     c.reported ≠ some c.sample) ∧ (let c := chip0 fun c => { c with locked := true }
     (chip0 fun _ => { c with reported := some c.sample }).reported = some (chip0 fun _ => { c with reported := some c.sample }).sample) ∧
    (chip0 fun c => { c with tx := [.regData 0 1 0 0, .reply 5 0 9] }).tx ≠ [] ∧ (chip0 fun c => { c with storeBusy := true }).storeBusy = true ∧
    (let c := chip0 fun c => { c with retiring := some [], slipPoint := 2000000, schedule := [sched (bzEvent 0 0 1 0)] }
     c.retiring ≠ none ∧ stampTime (sched (bzEvent 0 0 1 0)).ev.stamp < c.slipPoint ∧ sched (bzEvent 0 0 1 0) ∈ c.schedule) ∧ (chip0 id).retiring = none ∧
    (let c := chip0 fun c => { c with preparing := true, slipId := 0x1FF }
     c.slipId % 256 = 255 ∧ c.preparing = true ∧ c.slipId ≠ 7) ∧
    (let c := chip0 fun c => { c with armed := some 1000, schedule := [sched (bzEvent 0 0 1 0)] }
     c.armed = some 1000 ∧ 1000 ≤ stampTime (sched (bzEvent 0 0 1 0)).ev.stamp) ∧ (∃ e ∈ (chip0 fun c => { c with armed := some 1001, schedule := [sched (bzEvent 0 0 1 0)] }).schedule, stampTime e.ev.stamp < 1001) ∧
    (let c := chip0 fun c => { c with chunks := List.range 32 }
     c.preparing = false ∧ c.armed = none ∧ c.chunks.length = 32 ∧ c.schedule = []) := by decide +kernel

/-- Channel 0 with EN; profile 1: 4096 in mode M; profile 2: retry mode; profile 3: PWM of 100 µs, compensated. -/
def hsCrest : Settings := settings [(0, 1 + 150 * 2 ^ 8 + 20 * 2 ^ 18 + 3 * 2 ^ 26), (0x0C, 1 + 2 + 20 * 4), (0x40, 1 + 2 + 150 * 2 ^ 8), (0x188, 4096), (0x18C, 2 + 50 * 2 ^ 8), (0x190, 4096), (0x194, 1), (0x198, 1 + 100 * 2 ^ 16), (0x19C, 4 + 8)]
def hsChip (f : HsChan → HsChan) : Chip → Chip := fun c => { c with crest := hsCrest, supervisor := .run, hs := c.hs.set 0 (f c.hs[0]) }
abbrev hs0 (f : HsChan → HsChan) : HsChan := (chip0 (hsChip f)).hs[0]
def fires (e : BzEvent) (f : HsChan → HsChan) : Chip → Chip := fun c => { hsChip f c with schedule := [sched e] }
/-- ChipHighSideResults and ModeMWindow, events: a good one, with the longest pulse; refused ones at the edge; a held channel; a due event; a mode M profile; a REFLEX frame and its copy. -/
theorem witness_hs_events :
    (let c := chip0 (hsChip id)
     let p := hsProf (c.evBank trigStamp) 1
     c.hsEn 0 = true ∧ c.hsUpper 0 = false ∧ hpBad p.1 p.2 = false ∧ c.hsHeld 0 = false ∧ c.supervisor ≠ .powerup ∧ c.hsEn 1 = false ∧ c.hsUpper 3 = true ∧ hpInrush p.2 = 2 ∧ c.hsCheck 3 0 63 16000000 c.crest = 0 ∧ c.hsCheck 3 0 63 16000001 c.crest ≠ 0 ∧
     c.lastReflex ≠ some 9 ∧ hpBad 4097 0 = true ∧ c.hs[0].state ≠ .retryWait ∧ c.hs[0].state ≠ .thermalWait) ∧
    (chip0 (fires (bzEvent 0 0 1 1) id)).dueEvent 0 0 20000 = some (sched (bzEvent 0 0 1 1)) ∧ (chip0 (fires (bzEvent 0 0 1 1) id)).dueEvent 0 0 19999 = none ∧
    (chip0 (fires (bzEvent 0 0 1 1) fun h => { h with state := .fault })).hsHeld 0 = true ∧ (chip0 fun c => { c with lastReflex := some 255 }).lastReflex = some 255 ∧
    (let h := hs0 fun h => { h with act := 4, w0 := 4096, w1 := 2 + 50 * 2 ^ 8, state := .retryWait, waitEnd := 8 }
     h.mEnd = none ∧ hpInrush h.w1 = 2 ∧ h.act = 4 ∧ hpPeriod h.w0 = 0 ∧ 0 < hpDuty h.w0 ∧ h.state = .retryWait ∧ h.waitEnd ≤ 8) := by decide +kernel
/-- The same, periods, limits and checks: each at its limit and short of it. -/
theorem witness_hs_times :
    (let h := hs0 fun h => { h with pulseEnd := some 8 }
     h.pulseEnd = some 8) ∧
    (let h := hs0 fun h => { h with state := .pwm, act := 4, w0 := 1 + 100 * 2 ^ 16, w1 := 4 + 8, on := true, offAt := 50000, period := 254 }
     h.state = .pwm ∧ h.on = true ∧ h.offAt ≤ 50000 ∧ h.offAt < h.periodStart + 1000 * hpPeriod h.w0 ∧ h.periodStart + 1000 * hpPeriod h.w0 = 100000 ∧ hpComp h.w1 = true) ∧
    (let h := hs0 fun h => { h with state := .onDc, act := 1, on := true }
     h.state = .onDc ∧ h.on = true ∧ h.onSince + 10000000 ≤ 10000000 ∧ h.lastOnCheck + 10000000 ≤ 10000000 ∧ (chip0 (hsChip id)).hsLimTime 0 = 1000 ∧ h.onSince + 100000000 ≤ 100000000) ∧
    (hpInrush (hs0 fun h => { h with on := true, w1 := 1, retries := 7 }).w1 = 1 ∧ hpInrush (hs0 fun h => { h with on := true, w1 := 0 }).w1 ≠ 1) ∧ (hs0 fun h => { h with mEnd := some 9 }).mEnd = some 9 ∧
    (let c := chip0 (hsChip id)
     fld (c.hsCfg 0) 29 26 = 3 ∧ c.hsFuse 0 = some (4000, 8000000) ∧ c.hsFuse 6 ≠ none ∧ c.hsClampRating 0 = 120000 ∧ (c.hsDiag 0).getLsbD 1 = true ∧ c.crank = false ∧ c.hsPair 2 = true) ∧
    (chip0 fun c => { c with crest := settings [(4, 0)] }).hsFuse 0 = none ∧
    (let h := hs0 fun h => { h with state := .thermalWait, restarts := 3, olActive := true, olSource := true, latch := 8 }
     h.state = .thermalWait ∧ 3 ≤ h.restarts ∧ h.on = false ∧ h.olActive = true ∧ h.lastOffCheck = none ∧ h.olSource = true ∧ h.offSince + 50000 ≤ 50000 ∧ h.offSince + 200000 ≤ 200000 ∧ h.latch.getLsbD 3 = true) ∧
    (3 * (1300 + 700) < 10 * (max 1301 699 - min 1301 699) ∧ 2000 ≤ 1301 + 699) := by decide +kernel
/-- The wire model at and below 1, and a fuse flag that may not be cleared yet. -/
theorem witness_hs_fuse : max 0 (min 4 ((0 : Rat) + (((4000 : Nat) : Rat) / (4000 : Nat)) ^ 2 * 100 / (8000000 : Nat))) < 1 ∧
    (1 : Rat) ≤ max 0 (min 4 (1 + ((((4000 : Nat) : Rat) / (4000 : Nat)) ^ 2 - 1) * 100 / (8000000 : Nat))) ∧ (1 : Rat) / 2 < (3 / 4 : Rat) := by norm_num
theorem witness_hs_flags : (hs0 fun h => { h with x := 4 / 5 }).latch.getLsbD 3 = false ∧ (8 : Word).getLsbD 3 = true ∧ (hs0 fun h => { h with state := .fault, sts := 8, latch := 8 }).state = .fault ∧ (320 : Int) < (chip0 fun c => (hsChip (fun h => { h with junction := 321 }) c)).hsHot 0 := by decide +kernel

/-- Outputs 0 to 3 with EN; profile 1: 8 A peak, 1 A hold of 10 ms, 1 ms of slack, movement detection; profile 2: hold alone; profile 3: boost. -/
def solCrest : Settings :=
  settings [(0x3E0, 1 + 155 * 2 ^ 8 + 20 * 2 ^ 24), (0x3F0, 1), (0x3EC, 3 + 10 * 2 ^ 8), (0x4B0, 160 + 100 * 2 ^ 8 + 2 ^ 19 + 1000 * 2 ^ 20), (0x4B4, 200 + 1500 * 4096), (0x4B8, 10 + 10000 * 4096), (0x4C0, 100 * 2 ^ 8), (0x4C8, 0),
    (0x4D0, 160 + 2 ^ 17), (0x4D4, 200 + 1500 * 4096), (0x4E0, 0)]
def solChip (f : SolOut → SolOut) : Chip → Chip := fun c => { c with crest := solCrest, supervisor := .run, sol := c.sol.set 0 (f c.sol[0]) }
abbrev sol0 (f : SolOut → SolOut) : SolOut := (chip0 (solChip f)).sol[0]
def starts (e : BzEvent) (f : Chip → Chip) : Chip → Chip := fun c => f { solChip id c with schedule := [sched e] }
/-- ChipSolenoidResults, events: one that is scheduled at its time, one after the peak before it, one that finds no slack, refused ones; due starts with a peak, with hold alone, with neither, without energy, held; REFLEX frames. -/
theorem witness_sol_events :
    (let c := chip0 (solChip id)
     let p := solProf c.crest 1
     c.solEn 0 = true ∧ c.solUpper 0 = false ∧ p.bad = false ∧ c.solHeld 0 = false ∧ c.arbitrate c.crest [] 0 p 20000 1 20000 = some 20000 ∧ c.solCheck 4 0 31 c.crest = 0 ∧ c.solCheck 4 0 32 c.crest ≠ 0 ∧ c.solCheck 4 11 1 c.crest ≠ 0 ∧
     c.arbitrate c.crest [c.solWin 1 p 1400000] 0 p 2020000 2 2020000 = some 3020000 ∧ c.arbitrate c.crest [c.solWin 1 p 1400001] 0 p 2020000 2 2020000 = none ∧ p.peakI ≠ 0 ∧ c.energyOk 0 p 20 = true ∧
     (∀ m : Fin 12, bankOf m = bankOf 0 → c.sol[m].peaking = false) ∧ peakClash [] (c.solWin 0 p 5) = none ∧ c.sumsOk c.crest [] 0 p (c.solWin 0 p 5) = true ∧ c.lastReflex ≠ some 9) ∧
    (chip0 (starts (bzEvent 1 0 4 1) id)).dueEvent 1 0 20000 = some (sched (bzEvent 1 0 4 1)) ∧ (solProf solCrest 2).peakI = 0 ∧ (solProf solCrest 2).holdI ≠ 0 ∧ (solProf solCrest 4).peakI = 0 ∧ (solProf solCrest 4).holdI = 0 ∧
    (chip0 (starts (bzEvent 1 0 4 3) id)).energyOk 0 (solProf solCrest 3) 20 = false ∧ (chip0 (starts (bzEvent 1 0 4 1) fun c => { c with underV := true })).solHeld 0 = true ∧
    (let o : SolOut := { phase := .dwell, reflex := true, w0 := 100 * 2 ^ 8 }
     o.peaking = true ∧ o.reflex = true ∧ o.prof.holdI ≠ 0) ∧ ({ phase := .dwell, reflex := true } : SolOut).prof.holdI = 0 ∧ ({ phase := .hold } : SolOut).running = true := by decide +kernel
def solRun (ph : SolPhase) (f : SolOut → SolOut := id) : SolOut → SolOut := fun o => f { o with phase := ph, w0 := 160 + 100 * 2 ^ 8 + 2 ^ 19, w1 := 200 + 1500 * 4096, w2 := 10 + 10000 * 4096, low := true }
/-- The same, phases: the ends of PEAK_MIN and PEAK_MAX, of the dwell, of a source change, of a chop period with two frozen ones before it, of the hold, of a decay with too much clamp energy, of the rest; outputs without hold and without detection. -/
theorem witness_sol_phases :
    (let o := sol0 (solRun .peak)
     o.phase = .peak ∧ 199999 < o.peakStart + 1000 * o.prof.peakMin ∧ 200000 = o.peakStart + 1000 * o.prof.peakMin ∧ 1499999 < o.peakStart + 1000 * o.prof.peakMax ∧ o.peakStart + 1000 * o.prof.peakMax ≤ 1500000 ∧ o.prof.move = true ∧
     (chip0 (solChip id)).solMdet 0 = 3 + 10 * 2 ^ 8 ∧ 10 * 799 < (chip0 (solChip id)).solPeakMa 0 o.prof) ∧
    (let o := sol0 (solRun .dwell)
     o.phase = .dwell ∧ o.phaseStart + 1000 * o.prof.dwellUs ≤ 100000 ∧ ¬ o.phaseStart + 1000 * o.prof.dwellUs ≤ 99999 ∧ o.prof.holdI ≠ 0) ∧ (sol0 (solRun .dwell fun o => { o with w0 := 160 })).prof.holdI = 0 ∧
    (let c := chip0 fun c => { solChip (solRun .hold fun o => { o with tripPending := true }) c with bank := c.bank.set 0 { source := 2, changeUntil := 5, vsAt := some 9 } }
     c.bank[0].changeUntil ≤ 5 ∧ c.sol[0].tripPending = true ∧ c.bank[0].vsAt = some 9 ∧ c.bank[0].source = 2 ∧ ∀ m : Fin 12, bankOf m = 0 → c.sol[m].peaking = false) ∧
    (let o := sol0 (solRun .hold fun o => { o with frozen := 2, peakSample := some 71, valley := 70 })
     o.phase = .hold ∧ o.low = true ∧ max 71 o.valley - min 71 o.valley ≤ 1 ∧ o.frozen + 1 = 3 ∧ (chip0 (solChip id)).solHoldMa 0 o.prof ≤ 1000 ∧ chopNs solCrest 0 * 9 ≤ 45000 * 10 ∧ o.prof.holdUs ≠ 0 ∧ o.phaseStart + 1000 * o.prof.holdUs ≤ 10000000) ∧
    (let c := chip0 fun c => { solChip (solRun .decay fun o => { o with fast := true }) c with clampInt := true }
     c.sol[0].phase = .decay ∧ c.sol[0].fast = true ∧ c.clampInt = true ∧ 30000 * c.solMult 0 < 30001 ∧ c.sol[0].toFault = false) ∧ (sol0 (solRun .decay fun o => { o with toFault := true })).toFault = true ∧
    (let o := sol0 (solRun .rest fun o => { o with w3 := 255 })
     o.phase = .rest ∧ o.phaseStart + 1000 * o.prof.kinkUs ≤ 2550000 ∧ o.prof.move = true) := by decide +kernel
/-- The same, diagnostics and stores: shorts of an output and of a bank, a coil that is on and one that is not, a probe, an open coil that is due its flag, the boost store at its limits, flags whose cause stands. -/
theorem witness_sol_stores :
    (let c := chip0 (solChip (solRun .hold))
     bankOf 0 = 0 ∧ 20000 * c.solMult 0 ≤ 20000 ∧ c.sol[0].low = true ∧ c.solEn 0 = true ∧ c.solUpper 0 = false ∧ c.solEn 11 = false) ∧
    (let c := chip0 (solChip id)
     (bankCfg c.crest 0).getLsbD 26 = true ∧ ∀ m : Fin 12, bankOf m = 0 → c.sol[m].low = false) ∧
    (let c := chip0 fun c => { solChip (fun o => { o with openSuspect := true }) c with bank := c.bank.set 0 { probing := true, probeFails := 1 } }
     c.bank[0].probing = true ∧ c.bank[0].probeFails = 1 ∧ c.sol[0].openSuspect = true) ∧ (chip0 fun c => { c with bank := c.bank.set 0 { probing := true } }).bank[0].probeFails ≠ 1 ∧
    (let c := chip0 fun c => { solChip (solRun .peak) c with bank := c.bank.set 0 { source := 2 }, ovHold := true, charging := true, vs := 6000 }
     c.bank[0].source = 2 ∧ 29999 < c.vFloor ∧ c.sol[0].phase = .peak ∧ c.ovHold = true ∧ 6000 ≤ c.vs ∧ (c.crest.word 0x3A0).getLsbD 18 = true) ∧ (chip0 id).ovHold = false ∧
    (let c := chip0 (solChip fun o => { o with phase := .fault, sts := 4 + 64, latch := 4 + 64 })
     c.sol[0].phase = .fault ∧ (68 : Word).getLsbD 6 = true ∧ c.sol[0].sts.getLsbD 6 = true ∧ (68 : Word).getLsbD 2 = true ∧ c.sol[0].sts.getLsbD 2 = true ∧ (bankCfg c.crest (bankOf 0).val).getLsbD 26 = true) := by decide +kernel
theorem witness_sol_hot : let c := chip0 (solChip fun o => { o with dt := 136 })
    ((c.tCoilMax 0 : Nat) : Rat) - 20 < c.thetaC 0 := by
  have h : (chip0 (solChip fun o => { o with dt := 136 })).tCoilMax 0 = 155 := by decide +kernel
  show (((chip0 (solChip fun o => { o with dt := 136 })).tCoilMax 0 : Nat) : Rat) - 20 < 0 + 136
  rw [h]; norm_num

/-! ### Power, heat, Dunewatch, logs, faults -/

/-- Row 0 of erg die 0 (domain 16) of a running module with A2 after 10 µs and A3 after 1 ms, in a given state; a host job's entry that uses it where `busy` says so. -/
def rowIn (r : Row) (used : Bool := false) (fOn : Bool := true) : State :=
  { seeing [(0x1008, BitVec.ofNat 32 (1 + 2 ^ 8 + 3 * 2 ^ 16))] id with
    crest := mset regReset [] 0x1080 250
    power := { rows := [(16, r)], fOn := .replicate 8 fOn }
    loader := if used then { crest := (Vector.replicate 4 none).set 0 (some (image0 3 0)) } else {} }
/-- PowerDomainResults: A1, A2 and A3 at their idle times and short of them, a limit that just holds, a passage, a row with work, a slip and a restore. -/
theorem witness_rows :
    (let v := (rowIn {} true).at 2000
     isRowDom 16 = true ∧ v.ergLive 0 = true ∧ (v.row 16).state = 0 ∧ v.rowIdle 16 = true ∧ v.rowLimits [16] ≠ [] ∧ (∀ l ∈ v.rowLimits [16], 250 + v.commonNs 0 ≤ l) ∧ (∀ n ∈ domTiles 16, (v.tile n).core = none ∧ (v.tile n).starts = [] ∧ (v.tile n).flight = [])) ∧
    (let v := (rowIn { state := 1, idleSince := 1000 }).at 11000
     v.rowReserved 16 = false ∧ v.slip.st = .idle ∧ (v.row 16).idleSince + 10000 * fld (v.reg 0x1008) 7 0 ≤ v.time.now ∧ (v.reg 0x1008).getLsbD 16 = true ∧ (v.row 16).busyUntil = none ∧ ∀ l ∈ v.rowLimits [16], 12000 + v.commonNs 0 ≤ l) ∧
    ¬ (1000 + 10000 * fld ((rowIn {}).reg 0x1008) 7 0 ≤ ((rowIn {}).at 10999).time.now) ∧
    (let v := (rowIn { state := 2, idleSince := 1000, busyUntil := some 1001000 }).at 1001000
     (v.row 16).idleSince + 1000000 * fld (v.reg 0x1008) 15 8 ≤ v.time.now ∧ (v.reg 0x1008).getLsbD 17 = true ∧ (v.row 16).noA3 = false ∧ v.loading = false ∧ (v.row 16).busyUntil = some 1001000 ∧ (∀ l ∈ v.rowLimits (v.a3Set 0 ++ [16]), v.a3Latency 0 (v.a3Set 0 ++ [16]) ≤ l) ∧
     (∀ n ∈ domTiles 16, (v.tile n).retiring = none ∧ (v.tile n).refreshing = false)) ∧
    ((rowIn { passage := true }).row 16).passage = true ∧ ((rowIn { idleHint := true }).row 16).idleHint = true ∧
    (let s := { starting 0x800 with power := (rowIn { state := 1 }).power }
     s.rowIdle 16 = false ∧ (s.row 16).state = 1 ∧ (s.row 16).waking = false) ∧ (isRowDom 32 = false ∧ isCommonDom 32 = true ∧ isRowDom 83 = false ∧ isRowDom 82 = true) := by decide +kernel
theorem witness_wakes :
    (let s := { rowIn { state := 3, waking := true, wakeAt := 1000, wakeSet := [16] } with slip := { st := .preparing, id := 7 } }
     s.slip.st = .preparing ∧ 2 ≤ (s.row 16).state ∧ (s.row 16).waking = true ∧ (s.row 16).late = false ∧ (s.row 16).wakeAt + (s.at 21001).countedNs 16 < (s.at 21001).time.now ∧ ¬ (s.row 16).wakeAt + (s.at 21000).countedNs 16 < (s.at 21000).time.now) ∧
    (let s := rowIn { crestDue := true, leeDue := true }
     (s.row 16).crestDue = true ∧ claimedBy s.loader.crest.toList 0 = [] ∧ claimedBy s.loader.lee.toList 0 = [] ∧ 0 ∈ domTiles 16) ∧ (let s := rowIn { leeDue := true }
     (s.row 16).crestDue = false ∧ (s.row 16).leeDue = true ∧ (s.row 16).passage = false ∧ s.leeEn 0 = true) ∧
    (let s := { rowIn {} with power := { rows := (List.range 16).map fun n => (16 + n, { state := 2 }) } }
     isCommonDom 32 = true ∧ (∀ n ∈ List.range 16, 2 ≤ (s.row (16 + n)).state ∧ (s.row (16 + n)).waking = false) ∧ (s.applyUnit 0).binds = [] ∧ (s.applyUnit 0).waiting = [] ∧ s.jobs = [] ∧ s.net.hops = []) ∧ ((rowIn {}).row 16).state < 2 ∧
    (rowIn {}).power.fOn.toList.getD 7 false = true ∧ (rowIn {} false false).power.fOn.toList.getD 0 false = false ∧ (rowIn {} false false).fWanted 0 0 = true ∧ (rowIn {} false false).fWanted 0 2 = false ∧ (rowIn {} false false).fWanted 0 3 = true ∧ ((rowIn { busyUntil := some 9 }).row 16).busyUntil = some 9 := by decide +kernel
/-- A row that a running job reserves. -/
theorem witness_reserved : ((({ rowIn { state := 1 } with jobs := [{ job0 with tiles := [0], reserved := true, start := 1000, end_ := 9000 }] } : State)).at 1000).rowReserved 16 = true := by decide +kernel

/-- VoltageAndHeatResults: an oasis that runs and one whose row is in A2, the top of the voltage, sensors on and off, temperatures at the warning, the limit and the trip and a quarter of a degree below. -/
theorem witness_heat :
    (rowIn {}).oasisOn (.tile 0) = true ∧ (rowIn { state := 2 }).oasisOn (.tile 0) = false ∧ (rowIn {}).oasisOn (.router 0) = true ∧ min 160 (157 + 4) = 160 ∧ fld ((rowIn {}).reg 0x1014) 4 0 + 4 < 31 ∧
    base.sensorOn 67 = false ∧ base.sensorOn 33 = true ∧ base.sensorOn 84 = false ∧ (479 : Int) < 480 ∧ 33 < 68 ∧ base.sensorDom 33 = some 49 ∧ base.sensorDom 0 = some 16 ∧ (domOases 16).Nodup ∧
    (let w := base.reg 0x100C
     acts false (4 * fld w 15 8 : Nat) (fld w 15 8) = true ∧ acts false ((4 * fld w 15 8 : Nat) - 1) (fld w 15 8) = false ∧ acts true ((4 * fld w 15 8 : Nat) - 19) (fld w 15 8) = true ∧ acts true ((4 * fld w 15 8 : Nat) - 20) (fld w 15 8) = false ∧ acts false ((4 * min (fld w 7 0) (fld w 15 8) : Nat)) (min (fld w 7 0) (fld w 15 8)) = true) ∧
    (let s := { base with jobs := [{ job0 with running := [0], tiles := [128] }] }
     ∀ j ∈ s.jobs, s.job j.id = some j ∧ j.stopped = none ∧ j.running ≠ [] ∧ ∃ q ∈ j.tiles, q / 128 = 33 / 17) := by decide +kernel

/-- A Dunewatch that watches stream 0 at 80 × 60. -/
def watching (ctl : Word) (f : Dw → Dw) : State := { seeing [(0x6000, ctl)] id with crest := mset regReset [] 0x6018 0, dw := f {} }
def noDw : State := { base with fuses := { Fuses.station with optD := false } }
def dwImage : DwJob := { image := [0], stamp := trigStamp, feed := false, bankAt := 0 }
/-- DunewatchResults: option D and none, a good frame of just the size, one a column short, one that is due and one that is not, a feed, an inference, a source that is lost and not yet. -/
theorem witness_dunewatch :
    Fuses.station.optD = true ∧ noDw.fuses.optD = false ∧ (watching 1 id).dwOn = true ∧ base.dwOn = false ∧ (watching 1 id).fuses.optV = true ∧ (watching 1 id).replaying = false ∧ (watching 3 id).reg 0x6000 = 3 ∧
    (let s := watching 1 id
     let src := s.dwWord (s.usesOld 1000) 0x10
     src.getLsbD 0 = false ∧ fld src 12 8 = 0 ∧ s.power.fOn[2] = true ∧ fld (s.dwWord false 0x14) 12 0 + 80 * max 1 (fld (s.dwWord false 0x18) 5 0) ≤ 80 ∧ ¬ fld (s.dwWord false 0x14) 12 0 + 80 * max 1 (fld (s.dwWord false 0x18) 5 0) ≤ 79 ∧
     fld (s.dwWord false 0x14) 28 16 + 60 * max 1 (fld (s.dwWord false 0x18) 13 8) ≤ 60 ∧ (s.dwSettle).dw.lastProcessed = none) ∧
    (let s := { watching 1 (fun d => { d with lastProcessed := some trigStamp }) with crest := mset regReset [] 0x6010 (BitVec.ofNat 32 (2 ^ 16)) }
     s.dw.lastProcessed = some trigStamp ∧ s.dw.lost = false ∧ fld (s.dwWord false 0x10) 31 16 = 1 ∧ ¬ stampTime trigStamp + 1000000 * 1 ≤ 1000999 ∧ stampTime trigStamp + 1000000 * 1 ≤ 1001000) ∧
    (let s := { watching 1 id with crest := mset regReset [] 0x6010 1 }
     (s.crestWord 0x6010).getLsbD 0 = true ∧ s.dw.job = none) ∧ (watching 1 fun d => { d with job := some dwImage }).dw.job = some dwImage ∧
    (let s := { watching 1 (fun d => { d with watchFrom := 1000 }) with crest := mset regReset [] 0x601C 500 }
     (s.crestWord 0x6010).getLsbD 0 = false ∧ s.dw.lost = false ∧ s.dw.watchFrom + 1000000 * fld (s.crestWord 0x601C) 15 0 ≤ (s.at 500001000).time.now ∧ ¬ s.dw.watchFrom + 1000000 * fld (s.crestWord 0x601C) 15 0 ≤ (s.at 500000999).time.now) := by decide +kernel

/-- Die 0's log with 1 MiB, a record on its way, a ring and a host ring of 64 bytes. -/
def rec0 (key : Option Key) (n : Nat := 48) : LogRec := { die := 0, key := key, bytes := List.replicate n 1 }
def ent0 : LogEntry := { seq := 0, keyed := false, early := false, lostBefore := false, bytes := List.replicate 16 1 }
def logging (made : List LogRec) (w : LogWriter) (en : Bool := true) (head tail bytes : Nat := 0) : State :=
  { hostUp with
    regs := [(0x5024, 1), (0x5030, if en then 5 else 0), (0x5060, 0x10000), (0x5068, BitVec.ofNat 32 bytes), (0x506C, BitVec.ofNat 32 head), (0x5070, BitVec.ofNat 32 tail)]
    logs := { made := made, writer := base.logs.writer.set 0 w } }
/-- LogResults: a record with a key and without, one to a ring that is full and to one without room at all, a release at its key and before it; a copy that fits at once, one after a filler, one that waits for a byte of room. -/
theorem witness_logs :
    (logging [rec0 none] {}).logs.made.find? (fun r => decide (r.die = 0)) = some (rec0 none) ∧ (logging [] {}).logs.made.find? (fun r => decide (r.die = 0)) = none ∧ (logging [] {}).mesaLive 0 = true ∧ (logging [] {}).logShut = false ∧
    ({ (inPhase .powerDown) with logs := {} }).logShut = true ∧ entryLen (rec0 none).bytes = 64 ∧ (logging [] {}).logRing 0 = 917504 ∧ (logging [] {} false).logRing 0 < 64 ∧ (rec0 (some 9)).key ≠ none ∧ (logging [] {}).logRegion 0 = 131072 ∧
    (let s := logging [] { reorder := [rec0 (some 9)] }
     s.mesaLive 0 = true ∧ ¬ (10 : Key).toNat ≤ (rec0 (some 9)).order ∧ (9 : Key).toNat ≤ (rec0 (some 9)).order) ∧
    (let s := logging [] { ring := [ent0] } true 0 0 64
     s.dmaOk = true ∧ (s.reg 0x5030).getLsbD 2 = true ∧ (s.reg 0x5068).toNat = 64 ∧ entryLen ent0.bytes = 32 ∧ s.logs.writer[0].ring = [ent0] ∧ 0 + 32 ≤ 64) ∧
    (let s := logging [] { ring := [ent0] } true 48 48 64
     (s.reg 0x5070).toNat + entryLen ent0.bytes > 64 ∧ (64 - 48) + 32 ≤ 64) ∧ (31 + 64 - 48) % 64 < (64 - 48) + 32 ∧ (20 + 64 - 52) % 64 < 32 + 12 := by decide +kernel
/-- FaultResults: a link that is there and one that is not, its third attempt, mesa die 1's link, 16 and 15 errors of a tile in a second, 64 and 63 of a stack, the last live address and one beyond, the error flag clear. -/
def erring (tile stack attempt : Nat) : State :=
  { seeing [] id with
    fuses := { Fuses.station with mesaCount := 2 }, live := { Fuses.station with mesaCount := 2 }.allLive, net := { retrain := [(0, attempt), (10, attempt)] }
    logs := { tileUe := List.replicate tile (511, 1000), stackUe := List.replicate stack (3, 1000) }, tileLive := BitVec.allOnes 512, jobs := [{ job0 with tiles := [0] }] }
theorem witness_faults : let s := erring 16 64 3
    s.linkPresent 0 = true ∧ s.linkPresent 9 = false ∧ s.linkPresent 10 = true ∧ s.net.attempt 0 = 3 ∧ (erring 0 0 2).net.attempt 0 + 1 = 3 ∧ (erring 0 0 2).net.attempt 0 < 3 ∧ s.linkErg 0 = 0 ∧ (s.reg 0x5000).getLsbD 0 = false ∧
    (let t := { s with fuses := { s.fuses with ergCount := 4 }, live := { s.fuses with ergCount := 4 }.allLive }
     t.tileOn 511 = true ∧ 16 ≤ (t.logs.tileUe.filter fun e => decide (e.1 = 511 ∧ (t.at 1000000999).time.now < e.2 + 1000000000)).length ∧ ¬ 16 ≤ (t.logs.tileUe.filter fun e => decide (e.1 = 511 ∧ (t.at 1000001000).time.now < e.2 + 1000000000)).length) ∧
    s.stackLive 3 = true ∧ 64 ≤ (s.logs.stackUe.filter fun e => decide (e.1 = 3 ∧ (s.at 2000).time.now < e.2 + 1000000000)).length ∧ (erring 15 63 0).logs.tileUe.length < 16 ∧ (erring 15 63 0).logs.stackUe.length < 64 ∧
    (∀ j ∈ s.jobs, s.job j.id = some j ∧ j.stopped = none ∧ j.running ≠ [] ∧ ∃ q ∈ j.tiles, q / 128 = s.linkErg 0) ∧ s.liveBytes - 1 < s.liveBytes ∧ (s.jobs.map Job.id).Nodup := by decide +kernel

/-! ### The invariants at reset and in use -/

theorem witness_invariants : State.reset.LiveFitted ∧ base.LiveFitted ∧ State.reset.resv.mem.wf = true ∧ ((Mem.puts [] 5 [1, 0, 2])).wf = true := by
  exact ⟨⟨by decide +kernel, by decide +kernel⟩, ⟨by decide +kernel, by decide +kernel⟩, by decide +kernel, by decide +kernel⟩

end Sys2Proof.Tests
end

section
/-! SUPPORT. Register accesses (00 R10 to R16; 02 R53, R54): where a write to a word of BAR0 lands, what an access to an absent unit leaves, and how the halves of a 64-bit register go together. -/

namespace Sys2Proof.Machine

variable (s : State) (t : Time)

/-! ### Station time moves nothing else -/

/-- The time unit as an event at `t` finds it. -/
def TimeUnit.seenAt (u : TimeUnit) : TimeUnit := if u.running && !u.replay then { u with now := max u.now t } else u

/-- An event's time changes the time unit alone. -/
theorem State.at_eq : s.at t = { s with time := s.time.seenAt t } := by
  unfold State.at TimeUnit.seenAt
  split <;> rfl

theorem State.absentPwr_congr {u s : State} (hf : u.fuses = s.fuses) (hl : u.live = s.live) (o : Nat) : u.absentPwr o = s.absentPwr o := by
  unfold State.absentPwr State.stackDie State.ergLive State.mesaLive
  rw [hf, hl]

theorem State.absentMesa_congr {u s : State} (hf : u.fuses = s.fuses) (hl : u.live = s.live) (j o : Nat) : u.absentMesa j o = s.absentMesa j o := by
  unfold State.absentMesa State.mesaLive State.dflLive
  rw [hf, hl]

/-- Which units are absent depends on the assembly and on what is in service (R53). -/
theorem State.absentGroup_congr {u s : State} (hf : u.fuses = s.fuses) (hl : u.live = s.live) (ht : u.tileLive = s.tileLive) (a : Nat) :
    u.absentGroup a = s.absentGroup a := by
  unfold State.absentGroup State.tileOn State.ergLive
  rw [State.absentPwr_congr hf hl, State.absentMesa_congr hf hl, hf, hl, ht]

@[simp] theorem State.at_regs : (s.at t).regs = s.regs := by rw [State.at_eq]
@[simp] theorem State.at_crest : (s.at t).crest = s.crest := by rw [State.at_eq]
@[simp] theorem State.at_lee : (s.at t).lee = s.lee := by rw [State.at_eq]
@[simp] theorem State.at_latch : (s.at t).latch = s.latch := by rw [State.at_eq]
@[simp] theorem State.at_staged : (s.at t).staged = s.staged := by rw [State.at_eq]
@[simp] theorem State.at_logs : (s.at t).logs = s.logs := by rw [State.at_eq]
@[simp] theorem State.at_link : (s.at t).link = s.link := by rw [State.at_eq]
@[simp] theorem State.at_reg (a : Nat) : (s.at t).reg a = s.reg a := by rw [State.at_eq]; rfl
@[simp] theorem State.at_crestWord (a : Nat) : (s.at t).crestWord a = s.crestWord a := by rw [State.at_eq]; rfl
@[simp] theorem State.at_leeWord (a : Nat) : (s.at t).leeWord a = s.leeWord a := by rw [State.at_eq]; rfl
@[simp] theorem State.at_regsUp : (s.at t).regsUp = s.regsUp := by rw [State.at_eq]; rfl
@[simp] theorem State.at_leeShut : (s.at t).leeShut = s.leeShut := by rw [State.at_eq]; rfl
@[simp] theorem State.at_leeBusy (j : Nat) : (s.at t).leeBusy j = s.leeBusy j := by rw [State.at_eq]; rfl
@[simp] theorem State.at_absentGroup (a : Nat) : (s.at t).absentGroup a = s.absentGroup a := by
  rw [State.at_eq]; exact State.absentGroup_congr (u := { s with time := s.time.seenAt t }) (s := s) rfl rfl rfl a

/-! ### Dropping a latched word touches the latch alone (R11) -/

@[simp] theorem State.dropLatch_reg (n a : Nat) : (s.dropLatch n).reg a = s.reg a := rfl
@[simp] theorem State.dropLatch_leeWord (n a : Nat) : (s.dropLatch n).leeWord a = s.leeWord a := rfl
@[simp] theorem State.dropLatch_crestWord (n a : Nat) : (s.dropLatch n).crestWord a = s.crestWord a := rfl
@[simp] theorem State.dropLatch_leeShut (n : Nat) : (s.dropLatch n).leeShut = s.leeShut := rfl
@[simp] theorem State.dropLatch_leeBusy (n j : Nat) : (s.dropLatch n).leeBusy j = s.leeBusy j := rfl
@[simp] theorem State.dropLatch_absentGroup (n a : Nat) : (s.dropLatch n).absentGroup a = s.absentGroup a :=
  State.absentGroup_congr (u := s.dropLatch n) (s := s) rfl rfl rfl a
@[simp] theorem State.dropLatch_staged (n : Nat) : (s.dropLatch n).staged = s.staged := rfl

/-! ### A plain write by field type (R13, R14) -/

/-- What the register word of type `i` holds after a write of `v`: written RW bits, and W1C bits cleared by a 1. -/
def RegInfo.landed (i : RegInfo) (old v : Word) : Word := mergeMask i.rw old v &&& ~~~(v &&& i.w1c)

theorem getLsbD_mergeMask (mask old new : Word) (b : Nat) (hb : b < 32) :
    (mergeMask mask old new).getLsbD b = if mask.getLsbD b then new.getLsbD b else old.getLsbD b := by
  rw [mergeMask, BitVec.getLsbD_or, BitVec.getLsbD_and, BitVec.getLsbD_and, BitVec.getLsbD_not]
  cases mask.getLsbD b <;> simp [hb]

@[simp] theorem mergeMask_self (mask old : Word) : mergeMask mask old old = old := by
  apply BitVec.eq_of_getLsbD_eq
  intro b hb
  rw [getLsbD_mergeMask _ _ _ _ hb, ite_self]

/-- Each bit lands by its type, where no bit is both RW and W1C. -/
theorem RegInfo.getLsbD_landed (i : RegInfo) (old v : Word) (b : Nat) (hb : b < 32) (hi : i.rw &&& i.w1c = 0) :
    (i.landed old v).getLsbD b =
      if i.rw.getLsbD b then v.getLsbD b else if i.w1c.getLsbD b then old.getLsbD b && !v.getLsbD b else old.getLsbD b := by
  have both : (i.rw.getLsbD b && i.w1c.getLsbD b) = false := by
    rw [← BitVec.getLsbD_and, hi]; exact BitVec.getLsbD_zero
  unfold RegInfo.landed
  rw [BitVec.getLsbD_and, getLsbD_mergeMask _ _ _ _ hb, BitVec.getLsbD_not, BitVec.getLsbD_and]
  cases hr : i.rw.getLsbD b <;> cases hw : i.w1c.getLsbD b <;> simp_all

/-- Without W1C bits a write is the merge by the RW mask. -/
theorem RegInfo.landed_of_w1c_zero (i : RegInfo) (old v : Word) (hi : i.w1c = 0) : i.landed old v = mergeMask i.rw old v := by
  have keep : v &&& i.w1c = 0#32 := by rw [hi]; exact BitVec.and_zero
  rw [RegInfo.landed, keep, BitVec.not_zero, BitVec.and_allOnes]

/-- A word with neither type of bit keeps what it holds. -/
theorem RegInfo.landed_of_readOnly (i : RegInfo) (old v : Word) (hr : i.rw = 0) (hw : i.w1c = 0) : i.landed old v = old := by
  apply BitVec.eq_of_getLsbD_eq
  intro b hb
  rw [RegInfo.getLsbD_landed i old v b hb (by rw [hr, hw]; rfl), hr, hw]
  simp

theorem State.plainWrite_eq (a : Nat) (v : Word) :
    s.plainWrite a v =
      if (regInfo a).rwl = 0 then s.setReg a ((regInfo a).landed (s.reg a) v)
      else (s.setReg a ((regInfo a).landed (s.reg a) v)).leeWrite a (regInfo a).rwl v := rfl

/-- A word without RWL bits: the write lands in the register words alone. -/
theorem State.plainWrite_unbanked (a : Nat) (v : Word) (h : (regInfo a).rwl = 0) :
    s.plainWrite a v = s.setReg a ((regInfo a).landed (s.reg a) v) := by
  rw [State.plainWrite_eq, if_pos h]

/-- A word with RWL bits: they go to lee. -/
theorem State.plainWrite_banked (a : Nat) (v : Word) (h : (regInfo a).rwl ≠ 0) :
    s.plainWrite a v = (s.setReg a ((regInfo a).landed (s.reg a) v)).leeWrite a (regInfo a).rwl v := by
  rw [State.plainWrite_eq, if_neg h]

/-! ### Lee (R14, R15) -/

@[simp] theorem State.setReg_leeShut (a : Nat) (v : Word) : (s.setReg a v).leeShut = s.leeShut := rfl
@[simp] theorem State.setReg_leeBusy (a j : Nat) (v : Word) : (s.setReg a v).leeBusy j = s.leeBusy j := rfl
@[simp] theorem State.setReg_leeWord (a x : Nat) (v : Word) : (s.setReg a v).leeWord x = s.leeWord x := rfl

theorem State.leeWrite_free (a : Nat) (mask v : Word) (hs : s.leeShut = false) (hb : s.leeBusy (leeDie a) = false) :
    s.leeWrite a mask v = s.setLee a mask v := by
  simp [State.leeWrite, hs, hb]

theorem State.leeWrite_shut (a : Nat) (mask v : Word) (hs : s.leeShut = true) : s.leeWrite a mask v = s.leeLocked a := by
  simp [State.leeWrite, hs]

theorem State.setLee_leeWord (a x : Nat) (mask v : Word) :
    (s.setLee a mask v).leeWord x = if x = a then mergeMask mask (s.leeWord a) v else s.leeWord x := mget_mset _ _ _ _ _

@[simp] theorem State.setLee_reg (a x : Nat) (mask v : Word) : (s.setLee a mask v).reg x = s.reg x := rfl

/-! ### A fault record of severity INFO (R54, R567, R568) -/

/-- `u` is `s` but for the logs and the host link, with `n` more records on their way. -/
def State.Recorded (s u : State) (n : Nat) : Prop :=
  { u with logs := s.logs, link := s.link } = s ∧ u.logs.made.length = s.logs.made.length + n

theorem State.Recorded.regs {s u : State} {n : Nat} (h : s.Recorded u n) : u.regs = s.regs := (congrArg State.regs h.1 :)
theorem State.Recorded.crest {s u : State} {n : Nat} (h : s.Recorded u n) : u.crest = s.crest := (congrArg State.crest h.1 :)
theorem State.Recorded.lee {s u : State} {n : Nat} (h : s.Recorded u n) : u.lee = s.lee := (congrArg State.lee h.1 :)
theorem State.Recorded.latch {s u : State} {n : Nat} (h : s.Recorded u n) : u.latch = s.latch := (congrArg State.latch h.1 :)

/-- Signalling a vector changes the host link alone. -/
theorem State.signal_recorded (v : Nat) : s.Recorded (s.signal v) 0 := by
  unfold State.signal
  dsimp only
  split_ifs <;> exact ⟨rfl, rfl⟩

/-- A record below severity 2 does not enter the fault store. -/
theorem State.makeRecord_recorded (die sev : Nat) (key : Option Key) (bytes : List Byte) (h : sev < 2) :
    s.Recorded (s.makeRecord die sev key bytes) 1 := by
  unfold State.makeRecord
  simp only [ge_iff_le, if_neg (Nat.not_le.mpr h)]
  split
  · obtain ⟨hl, hm⟩ := State.signal_recorded { s with logs := { s.logs with made := s.logs.made ++ [_] } } (fld (s.reg 0x5008) 10 0)
    exact ⟨congrArg (fun u : State => { u with logs := s.logs }) hl, by rw [hm]; simp⟩
  · exact ⟨rfl, by simp⟩

/-- A fault of severity INFO makes one record, raises no flag and does not enter SAFE. -/
theorem State.fault_recorded (die : Nat) (key : Option Key) (f : FaultInfo) (h : f.sev = 0) : s.Recorded (s.fault die key f) 1 := by
  unfold State.fault
  simp only [h, State.faultSeen, if_true]
  obtain ⟨hl, hm⟩ := State.makeRecord_recorded { s with logs := { s.logs with faultRef := (s.logs.faultRef + 1) % 2 ^ 32 } } die 0 key
    (f.bytes s.replaying s.time.now ((s.logs.faultRef + 1) % 2 ^ 32)) (by decide)
  exact ⟨congrArg (fun u : State => { u with logs := s.logs }) hl, hm⟩

/-- A throttled one makes its record only where it finds its status flag clear. -/
theorem State.faultThrottled_recorded (clear : Bool) (die : Nat) (f : FaultInfo) (h : f.sev = 0) :
    s.Recorded (s.faultThrottled clear die f) (if clear then 1 else 0) := by
  cases clear with
  | true => exact State.fault_recorded s die none f h
  | false => simp only [State.faultThrottled, State.faultSeen, h]; exact ⟨rfl, rfl⟩

/-- A discarded RWL write leaves a record alone (R15). -/
theorem State.leeLocked_recorded (a : Nat) : s.Recorded (s.leeLocked a) 1 := State.fault_recorded s _ none _ rfl

/-- What an access to an absent unit of a group leaves (R53, R54). -/
theorem State.absentAccess_recorded (g : Nat) :
    ((s.count32 0x44 1).setFlag 0x40 g).Recorded (s.absentAccess g) (if (s.reg 0x40).getLsbD g then 0 else 1) := by
  unfold State.absentAccess bit
  cases (s.reg 0x40).getLsbD g with
  | true => exact State.faultThrottled_recorded _ false 0 _ rfl
  | false => exact State.faultThrottled_recorded _ true 0 _ rfl

/-- What an access to an absent unit of group `g` does to each register word. -/
theorem State.absentAccess_reg (g x : Nat) : (s.absentAccess g).reg x =
    if x = 0x40 then s.reg 0x40 ||| oneBit g
    else if x = 0x44 then BitVec.ofNat 32 (min 0xFFFFFFFF ((s.reg 0x44).toNat + 1)) else s.reg x := by
  have words : (s.absentAccess g).reg x = ((s.count32 0x44 1).setFlag 0x40 g).reg x :=
    congrArg (mget regReset · x) (State.absentAccess_recorded s g).regs
  simp [words, State.setFlag, State.count32, State.reg_setReg, satAdd]

/-- It touches the register words, the logs and the host link alone. -/
theorem State.absentAccess_frame (g : Nat) : { s.absentAccess g with regs := s.regs, logs := s.logs, link := s.link } = s :=
  congrArg (fun u : State => { u with regs := s.regs }) (State.absentAccess_recorded s g).1

/-- It is recorded where it finds the group's bit clear. -/
theorem State.absentAccess_made (g : Nat) :
    (s.absentAccess g).logs.made.length = s.logs.made.length + if (s.reg 0x40).getLsbD g then 0 else 1 :=
  (State.absentAccess_recorded s g).2

/-! ### Which write a BAR0 access becomes (R12, R13, R53, R382) -/

theorem exec_registerWrite_down (hs : s.regsUp = false) (space : Space) (off size : Nat) (v : DWord) :
    exec (.registerWrite space off size v t) s = .next (s.at t) := by
  change execRegisterWrite space off size v t s = _
  simp [execRegisterWrite, hs]

theorem exec_registerWrite_misfit (hs : s.regsUp = true) (off size : Nat) (v : DWord) (h : size ≠ 4 ∨ off % 4 ≠ 0) :
    exec (.registerWrite .bar0 off size v t) s = .next ((s.at t).hpFlag 0) := by
  have no : ¬ (size = 4 ∧ off % 4 = 0) := by omega
  change execRegisterWrite .bar0 off size v t s = _
  simp [execRegisterWrite, hs, no]

theorem exec_registerWrite_bar0 (hs : s.regsUp = true) (off : Nat) (v : DWord) (h : off % 4 = 0) :
    exec (.registerWrite .bar0 off 4 v t) s = .next ((s.at t).barWrite off (v.setWidth 32) t) := by
  change execRegisterWrite .bar0 off 4 v t s = _
  simp [execRegisterWrite, hs, h]

theorem State.barWrite_outside (off : Nat) (v : Word) (h : 2 ^ 24 ≤ off) : s.barWrite off v t = s := if_pos h

theorem State.barWrite_absent (off g : Nat) (v : Word) (h : off < 2 ^ 24) (hg : s.absentGroup (normalOff off) = some g) :
    s.barWrite off v t = (s.dropLatch (normalOff off)).absentAccess g := by
  unfold State.barWrite
  rw [if_neg (Nat.not_le.mpr h)]
  dsimp only
  rw [State.dropLatch_absentGroup, hg]

theorem exec_absentUnitAccess_absent (off g : Nat) (w : Bool) (hg : s.absentGroup (normalOff off) = some g) :
    exec (.absentUnitAccess off w t) s = .next ((s.at t).absentAccess g) := by
  change execAbsentUnitAccess off w t s = _
  simp [execAbsentUnitAccess, hg]

theorem exec_absentUnitAccess_present (off : Nat) (w : Bool) (hg : s.absentGroup (normalOff off) = none) :
    exec (.absentUnitAccess off w t) s = .next (s.at t) := by
  change execAbsentUnitAccess off w t s = _
  simp [execAbsentUnitAccess, hg]

/-- A word at its normal offset, of a unit that every assembly has, whose write starts nothing. -/
structure PlainWord (a : Nat) : Prop where
  inMap : a < 2 ^ 24
  aligned : a % 4 = 0
  normal : normalOff a = a
  present : ∀ s : State, s.absentGroup a = none
  plain : ∀ (s : State) (v : Word) (t : Time), s.wordWrite a v t = s.plainWrite a v

/-- Such a word that is neither half of a 64-bit register. -/
structure SingleWord (a : Nat) : Prop extends PlainWord a where
  notLow : (regInfo a).lowOf64 = false
  notHigh : (regInfo (a - 4)).lowOf64 = false

/-- Both halves of a 64-bit RW register that is no queue's base. -/
structure PairWord (n : Nat) : Prop where
  low : PlainWord n
  high : PlainWord (n + 4)
  isLow : (regInfo n).lowOf64 = true
  lowTypes : (regInfo n).rwl = 0 ∧ (regInfo n).w1c = 0
  highTypes : (regInfo (n + 4)).rwl = 0 ∧ (regInfo (n + 4)).w1c = 0
  noQueue : n + 4 < 0x3200 ∨ 0x3400 ≤ n

/-- The words that the two obligations name: single words without RWL bits, single words with them, and the low words of 64-bit registers. -/
def unbankedWords : List Nat := [0x40, 0x80, 0x204, 0x1000, 0x1008, 0x4014, 0x5000, 0x5030, 0x9004, 0x9010, 0x9040]
def bankedWords : List Nat := [0x1080, 0x1100, 0x1104, 0x5040]
def pairWords : List Nat := [0x208, 0x210, 0x4028, 0x5060, 0x9030]

theorem plainWord_of_mem : ∀ a ∈ unbankedWords ++ bankedWords ++ pairWords ++ pairWords.map (· + 4), PlainWord a := by
  intro a ha
  fin_cases ha <;>
    exact { inMap := by decide, aligned := rfl, normal := by decide, present := fun _ => rfl, plain := fun _ _ _ => rfl }

theorem singleWord_of_mem (a : Nat) (ha : a ∈ unbankedWords ++ bankedWords) : SingleWord a :=
  have single : ∀ a ∈ unbankedWords ++ bankedWords, (regInfo a).lowOf64 = false ∧ (regInfo (a - 4)).lowOf64 = false := by decide
  { plainWord_of_mem a (List.mem_append_left _ (List.mem_append_left _ ha)) with notLow := (single a ha).1, notHigh := (single a ha).2 }

theorem pairWord_of_mem (n : Nat) (hn : n ∈ pairWords) : PairWord n :=
  have types : ∀ n ∈ pairWords, (regInfo n).lowOf64 = true ∧ ((regInfo n).rwl = 0 ∧ (regInfo n).w1c = 0) ∧
      ((regInfo (n + 4)).rwl = 0 ∧ (regInfo (n + 4)).w1c = 0) ∧ (n + 4 < 0x3200 ∨ 0x3400 ≤ n) := by decide
  have ⟨isLow, lowTypes, highTypes, noQueue⟩ := types n hn
  { low := plainWord_of_mem n (List.mem_append_left _ (List.mem_append_right _ hn))
    high := plainWord_of_mem (n + 4) (List.mem_append_right _ (List.mem_map_of_mem hn))
    isLow, lowTypes, highTypes, noQueue }

theorem unbankedWords_types : ∀ a ∈ unbankedWords, (regInfo a).rwl = 0 ∧ (regInfo a).rw &&& (regInfo a).w1c = 0 := by decide

theorem bankedWords_types : ∀ a ∈ bankedWords, (regInfo a).rwl ≠ 0 ∧ (regInfo a).rw = 0 ∧ (regInfo a).w1c = 0 := by decide

/-- A 32-bit write to a single word is its plain write. -/
theorem SingleWord.exec_registerWrite {a : Nat} (h : SingleWord a) (hs : s.regsUp = true) (v : Word) :
    exec (.registerWrite .bar0 a 4 (v.setWidth 64) t) s = .next (((s.at t).dropLatch a).plainWrite a v) := by
  rw [exec_registerWrite_bar0 s t hs a _ h.aligned, BitVec.setWidth_setWidth_of_le v (by decide), BitVec.setWidth_eq]
  unfold State.barWrite
  rw [if_neg (Nat.not_le.mpr h.inMap)]
  dsimp only
  rw [h.normal, h.present]
  dsimp only
  rw [if_neg (by simp [h.notLow]), if_neg (by simp [h.notHigh]), h.plain]

/-! ### Writes by field type, and accesses that land nowhere -/

/-- The three cases of a single word: no RWL bit, RWL bits while lee may be written, and RWL bits while lee is locked. -/
theorem registerWriteByFieldType : Claims.RegisterWriteByFieldType := by
  intro s v t hs
  refine ⟨fun a ha => ?_, fun a ha unlocked idle => ?_, fun a ha locked => ?_⟩
  · obtain ⟨bare, apart⟩ := unbankedWords_types a ha
    refine ⟨_, (singleWord_of_mem a (List.mem_append_left _ ha)).exec_registerWrite s t hs v, ?_⟩
    rw [State.plainWrite_unbanked _ _ _ bare]
    refine ⟨fun b hb => ?_, fun x hx => ?_, ?_⟩
    · simpa using RegInfo.getLsbD_landed _ _ v b hb apart
    · simp [State.reg_setReg_ne _ _ _ _ hx]
    · rw [State.at_eq]; rfl
  · obtain ⟨banked, noRw, noW1c⟩ := bankedWords_types a ha
    refine ⟨_, (singleWord_of_mem a (List.mem_append_right _ ha)).exec_registerWrite s t hs v, ?_⟩
    rw [State.plainWrite_banked _ _ _ banked, RegInfo.landed_of_readOnly _ _ _ noRw noW1c,
      State.leeWrite_free _ _ _ _ (by simpa using unlocked) (by simpa using idle)]
    refine ⟨fun b hb => ?_, fun x => ⟨State.at_crestWord s t x, ?_⟩, fun x hx => ?_⟩
    · rw [State.setLee_leeWord, if_pos rfl, getLsbD_mergeMask _ _ _ _ hb]
      simp
    · rw [State.setLee_reg, State.reg_setReg]
      split <;> simp_all
    · rw [State.setLee_leeWord, if_neg hx]
      exact State.at_leeWord s t x
  · obtain ⟨banked, -, -⟩ := bankedWords_types a ha
    refine ⟨_, (singleWord_of_mem a (List.mem_append_right _ ha)).exec_registerWrite s t hs v, ?_⟩
    rw [State.plainWrite_banked _ _ _ banked, State.leeWrite_shut _ _ _ _ (by simpa using locked)]
    exact ⟨(State.leeLocked_recorded _ a).lee.trans (State.at_lee s t), (State.leeLocked_recorded _ a).crest.trans (State.at_crest s t)⟩

/-- What an access to an absent unit of group `g` leaves: the group's bit set, the access counted and, where the bit was clear, recorded (R53, R54). -/
def State.MeetsAbsent (g : Nat) (u : State) : Prop :=
  u.reg 0x40 = s.reg 0x40 ||| oneBit g ∧ u.reg 0x44 = BitVec.ofNat 32 (min 0xFFFFFFFF ((s.reg 0x44).toNat + 1)) ∧
    (∀ x, x ≠ 0x40 → x ≠ 0x44 → u.reg x = s.reg x) ∧ { u with regs := s.regs, latch := s.latch, logs := s.logs, link := s.link } = s.at t ∧
    (u.logs.made.length = s.logs.made.length + if (s.reg 0x40).getLsbD g then 0 else 1)

/-- The access may have dropped a latched word before. -/
theorem State.meetsAbsent_absentAccess (g : Nat) (v : State) (hv : { v with latch := s.latch } = s.at t) : s.MeetsAbsent t g (v.absentAccess g) := by
  have hregs : v.regs = s.regs := (congrArg State.regs hv :).trans (State.at_regs s t)
  have hlogs : v.logs = s.logs := (congrArg State.logs hv :).trans (State.at_logs s t)
  have hlink : v.link = s.link := (congrArg State.link hv :).trans (State.at_link s t)
  have hreg (x : Nat) : v.reg x = s.reg x := congrArg (mget regReset · x) hregs
  refine ⟨?_, ?_, fun x h40 h44 => ?_, ?_, ?_⟩
  · rw [State.absentAccess_reg, if_pos rfl, hreg]
  · rw [State.absentAccess_reg, if_neg (by decide), if_pos rfl, hreg]
  · rw [State.absentAccess_reg, if_neg h40, if_neg h44, hreg]
  · rw [← hregs, ← hlogs, ← hlink, ← hv]
    exact congrArg (fun u : State => { u with latch := s.latch }) (State.absentAccess_frame v g)
  · rw [State.absentAccess_made, hlogs, hreg]

/-- The six cases: registers down, a size or alignment that BAR0 does not take, an offset beyond the map, a write and an access to an absent unit, and an access to one that is there. -/
theorem accessesThatLandNowhere : Claims.AccessesThatLandNowhere := by
  intro s off v t
  refine ⟨fun hs space size => exec_registerWrite_down s t hs space off size v, fun hs size h => exec_registerWrite_misfit s t hs off size v h,
    fun hs ho ha => ?_, fun hs g _ ho ha hg => ?_, fun g w _ hg => ?_, fun w hg => exec_absentUnitAccess_present s t off w hg⟩
  · rw [exec_registerWrite_bar0 s t hs off v ha, State.barWrite_outside _ _ _ _ ho]
  · refine ⟨_, exec_registerWrite_bar0 s t hs off v ha, ?_⟩
    rw [State.barWrite_absent _ _ off g _ ho (by rw [State.at_absentGroup, hg])]
    exact State.meetsAbsent_absentAccess s t g _ (by rw [State.at_eq]; rfl)
  · exact ⟨_, exec_absentUnitAccess_absent s t off g w hg, State.meetsAbsent_absentAccess s t g _ (by rw [State.at_eq]),
      (State.absentAccess_recorded (s.at t) g).latch.trans (State.at_latch s t)⟩

/-- Settles O25: each written bit lands by its field's type, and the other accesses reach no register. -/
theorem registerAccessResults : Obligations.RegisterAccessResults := ⟨registerWriteByFieldType, accessesThatLandNowhere⟩

/-! ### 64-bit registers (R11, R12) -/

theorem mget_mins_same {α : Type} (d : Nat → α) (m : SMap α) (k : Nat) (v : α) : mget d (mins k v m) k = v := by rw [mget_mins, if_pos rfl]

/-- A read of a low word latches its high word and changes nothing else (R11). -/
theorem exec_lowWordReadLatch (hs : s.regsUp = true) (off : Nat) (low : isLow64 off = true) (present : s.absentGroup (normalOff off) = none) :
    exec (.lowWordReadLatch off) s = .next { s with latch := mins off (s.readWord (off + 4)) s.latch } := by
  change execLowWordReadLatch off s = _
  simp [execLowWordReadLatch, hs, low, present]

theorem exec_lowWordReadLatch_other (off : Nat) (other : isLow64 off = false) : exec (.lowWordReadLatch off) s = .next s := by
  change execLowWordReadLatch off s = _
  simp [execLowWordReadLatch, other]

/-- The read of the high word that follows finds the latched value, whatever the register holds by then (R11). -/
theorem State.readHigh_latched (w : State) (off : Nat) (v : Word) (m : SMap Word) (h : w.latch = mins off v m) : w.readHigh (off + 4) = v := by
  rw [State.readHigh, h, Nat.add_sub_cancel, mget_mins_same]

/-- The write of a low word waits (R12). -/
theorem PairWord.exec_lowWordStage {n : Nat} (h : PairWord n) (hs : s.regsUp = true) (v : Word) :
    exec (.lowWordStage n v) s = .next { s.dropLatch n with staged := mins n v s.staged } := by
  have noQueue : ¬ (0x3200 ≤ n ∧ n < 0x3400 ∧ ((s.dropLatch n).queue ((n - 0x3200) / 0x40)).enabled = true) := by have := h.noQueue; omega
  change execLowWordStage n v s = _
  unfold execLowWordStage
  dsimp only
  rw [h.low.normal, if_neg (by simp [hs, h.isLow]), h.low.present]
  dsimp only
  rw [State.stageWrite, if_neg noQueue]
  rfl

/-- The write of the high word: the low word that waits, or else the one the register holds, takes effect with it (R12). -/
theorem PairWord.exec_highWordCommit {n : Nat} (h : PairWord n) (hs : s.regsUp = true) (v : Word) :
    exec (.highWordCommit (n + 4) v t) s =
      .next (({ (s.at t).dropLatch (n + 4) with staged := mdel s.staged n }.setReg n
        (mergeMask (regInfo n).rw (s.reg n) (mget (fun _ => s.reg n) s.staged n))).setReg (n + 4) (mergeMask (regInfo (n + 4)).rw (s.reg (n + 4)) v)) := by
  obtain ⟨lowBare, lowKept⟩ := h.lowTypes
  obtain ⟨highBare, highKept⟩ := h.highTypes
  have noQueue (x : HpQueue) : ¬ (0x3200 ≤ n + 4 ∧ n + 4 < 0x3400 ∧ x.enabled = true) := by have := h.noQueue; omega
  have word (x : Nat) : State.reg { (s.at t).dropLatch (n + 4) with staged := mdel s.staged n } x = s.reg x := State.at_reg s t x
  change execHighWordCommit (n + 4) v t s = _
  unfold execHighWordCommit
  dsimp only
  rw [h.high.normal, if_neg (by simp [hs, h.isLow]), h.high.present]
  dsimp only
  rw [State.commitWrite, if_neg (noQueue _), h.high.plain, Nat.add_sub_cancel, h.low.plain, if_pos lowBare,
    State.plainWrite_unbanked _ _ _ lowBare, State.plainWrite_unbanked _ _ _ highBare,
    RegInfo.landed_of_w1c_zero _ _ _ lowKept, RegInfo.landed_of_w1c_zero _ _ _ highKept, State.reg_setReg_ne _ _ _ _ (by omega),
    State.dropLatch_staged, State.at_staged, State.dropLatch_reg, State.at_reg, word, word]

/-- What it leaves, word by word. -/
theorem PairWord.highWordCommit_results {n : Nat} (h : PairWord n) (hs : s.regsUp = true) (v : Word) :
    ∃ w, exec (.highWordCommit (n + 4) v t) s = .next w ∧
      w.reg n = mergeMask (regInfo n).rw (s.reg n) (mget (fun _ => s.reg n) s.staged n) ∧
      w.reg (n + 4) = mergeMask (regInfo (n + 4)).rw (s.reg (n + 4)) v ∧ (∀ x, x ≠ n → x ≠ n + 4 → w.reg x = s.reg x) ∧
      (∀ d, mget (fun _ => d) w.staged n = d) ∧ { w with regs := s.regs, staged := s.staged, latch := s.latch } = s.at t := by
  refine ⟨_, h.exec_highWordCommit s t hs v, ?_, ?_, fun x hl hh => ?_, fun d => ?_, ?_⟩
  · rw [State.reg_setReg_ne _ _ _ _ (by omega), State.reg_setReg_same]
  · rw [State.reg_setReg_same]
  · rw [State.reg_setReg_ne _ _ _ _ hh, State.reg_setReg_ne _ _ _ _ hl]
    exact State.at_reg s t x
  · exact (mget_mdel _ _ _ _).trans (if_pos rfl)
  · rw [State.at_eq]; rfl

/-- Settles O26: the latch of a read; a staged low word and the commit that brings it in; a commit with no low word staged. -/
theorem registerPairs : Obligations.RegisterPairs := by
  intro s hs
  refine ⟨fun off low present => ?_, fun off other => exec_lowWordReadLatch_other s off other, fun n hn low high t => ⟨?_, fun unstaged => ?_⟩⟩
  · exact ⟨_, exec_lowWordReadLatch s hs off low present, rfl, fun w hw => State.readHigh_latched w off _ _ hw⟩
  · obtain ⟨w, step, lowLands, highLands, others, empty, frame⟩ :=
      (pairWord_of_mem n hn).highWordCommit_results { s.dropLatch n with staged := mins n low s.staged } t hs high
    rw [mget_mins_same] at lowLands
    refine ⟨_, (pairWord_of_mem n hn).exec_lowWordStage s hs low, mget_mins_same _ _ _ _, fun _ => rfl, rfl, w, step, lowLands, highLands, others, empty, ?_⟩
    refine (congrArg (fun x : State => { x with staged := s.staged, latch := s.latch }) frame).trans ?_
    rw [State.at_eq, State.at_eq s]
    rfl
  · obtain ⟨w, step, lowLands, highLands, others, -, -⟩ := (pairWord_of_mem n hn).highWordCommit_results s t hs high
    rw [unstaged, mergeMask_self] at lowLands
    refine ⟨w, step, lowLands, highLands, fun x hx => ?_⟩
    by_cases hl : x = n
    · rw [hl, lowLands]
    · exact others x hl hx

end Sys2Proof.Machine
end

section
/-! SUPPORT. What a report leaves: flags, counters, fault records and the signals they raise touch register words, logs, the host link and the DFL ports alone (21 R567, R581, R585, R587). -/

namespace Sys2Proof.Machine

/-- `u` is `s` but for register words, logs, the host link and the DFL ports. -/
def State.Reported (s u : State) : Prop := { u with regs := s.regs, logs := s.logs, link := s.link, ports := s.ports } = s

variable {s u w : State}

theorem State.Reported.refl (s : State) : s.Reported s := rfl

theorem State.Reported.trans (h : s.Reported u) (h' : u.Reported w) : s.Reported w :=
  (congrArg (fun x : State => { x with regs := s.regs, logs := s.logs, link := s.link, ports := s.ports }) h' :).trans h

theorem State.Reported.ite {b : Prop} [Decidable b] (h : s.Reported u) (h' : s.Reported w) : s.Reported (if b then u else w) := by
  split <;> assumption

theorem State.Reported.fuses (h : s.Reported u) : u.fuses = s.fuses := (congrArg State.fuses h :)
theorem State.Reported.live (h : s.Reported u) : u.live = s.live := (congrArg State.live h :)
theorem State.Reported.crest (h : s.Reported u) : u.crest = s.crest := (congrArg State.crest h :)
theorem State.Reported.crestBad (h : s.Reported u) : u.crestBad = s.crestBad := (congrArg State.crestBad h :)
theorem State.Reported.time (h : s.Reported u) : u.time = s.time := (congrArg State.time h :)
theorem State.Reported.jobs (h : s.Reported u) : u.jobs = s.jobs := (congrArg State.jobs h :)
theorem State.Reported.cycles (h : s.Reported u) : u.cycles = s.cycles := (congrArg State.cycles h :)
theorem State.Reported.submits (h : s.Reported u) : u.submits = s.submits := (congrArg State.submits h :)
theorem State.Reported.ingress (h : s.Reported u) : u.ingress = s.ingress := (congrArg State.ingress h :)
theorem State.Reported.tiles (h : s.Reported u) : u.tiles = s.tiles := (congrArg State.tiles h :)
theorem State.Reported.resv (h : s.Reported u) : u.resv = s.resv := (congrArg State.resv h :)

/-- A chain of reports is one. -/
theorem State.reported_foldl {α : Type} (f : State → α → State) (hf : ∀ (s : State) a, s.Reported (f s a)) (l : List α) (s : State) : s.Reported (l.foldl f s) := by
  induction l generalizing s with
  | nil => exact .refl s
  | cons a l ih => exact (hf s a).trans (ih (f s a))

variable (s)

theorem State.reported_setReg (a : Nat) (v : Word) : s.Reported (s.setReg a v) := rfl
theorem State.reported_setFlag (a b : Nat) : s.Reported (s.setFlag a b) := s.reported_setReg _ _
theorem State.reported_countByte (a n : Nat) : s.Reported (s.countByte a n) := s.reported_setReg _ _
theorem State.reported_count32 (a k : Nat) : s.Reported (s.count32 a k) := s.reported_setReg _ _
theorem State.reported_inFlag (j b : Nat) : s.Reported (s.inFlag j b) := (s.reported_setFlag _ _).trans (State.reported_countByte _ _ _)
theorem State.reported_faultFlag (b : Nat) : s.Reported (s.faultFlag b) := (s.reported_setFlag _ _).trans (State.reported_countByte _ _ _)
theorem State.reported_flowFlag (k b : Nat) : s.Reported (s.flowFlag k b) := s.reported_setFlag _ _
theorem State.reported_gvFlag (b : Nat) : s.Reported (s.gvFlag b) := s.reported_setFlag _ _

theorem State.reported_cairnFlag (k b : Nat) : s.Reported (s.cairnFlag k b) := by
  unfold State.cairnFlag
  split
  · exact (s.reported_setFlag _ _).trans (State.reported_countByte _ _ _)
  · exact s.reported_setFlag _ _

theorem State.reported_cairnFlags (k : Nat) (bs : List Nat) : s.Reported (s.cairnFlags k bs) :=
  State.reported_foldl _ (fun s b => s.reported_cairnFlag k b) bs s

theorem State.reported_countVoid (void : Nat) : s.Reported (s.countVoid void) := by
  have flags : s.Reported ((List.range 4).foldl (fun s b => if void.testBit b then s.gvFlag b else s) s) :=
    State.reported_foldl _ (fun s b => .ite (s.reported_gvFlag b) (.refl s)) _ s
  unfold State.countVoid
  dsimp only
  split
  · exact flags
  · exact flags.trans (State.reported_count32 _ _ _)

theorem State.Recorded.reported {s u : State} {n : Nat} (h : s.Recorded u n) : s.Reported u :=
  (congrArg (fun x : State => { x with regs := s.regs, ports := s.ports }) h.1 :)

theorem State.reported_signal (v : Nat) : s.Reported (s.signal v) := (s.signal_recorded v).reported

/-- The record on its way to its die's log writer. -/
def State.recordSent (die : Nat) (key : Option Key) (bytes : List Byte) (irq : Bool) : State :=
  { s with logs := { s.logs with made := s.logs.made ++ [{ die, key, bytes, irq }] } }

/-- The record in the fault store (R564). -/
def State.recordStored (bytes : List Byte) : State :=
  let i := (s.reg 0x5010).toNat % 64
  { s with logs := { s.logs with store := mset (fun _ => []) s.logs.store i (padTo 48 bytes) } }.setReg 0x5010 (BitVec.ofNat 32 ((i + 1) % 64))

theorem State.makeRecord_eq (die sev : Nat) (key : Option Key) (bytes : List Byte) : s.makeRecord die sev key bytes =
    let irq := bit (s.reg 0x5008) 11 && decide (fld (s.reg 0x5008) 13 12 ≤ sev)
    let copying := bit (s.reg 0x5030) 2
    let u := s.recordSent die key bytes (irq && copying)
    let w := if sev ≥ 2 then u.recordStored bytes else u
    if irq ∧ !copying then w.signal (fld (s.reg 0x5008) 10 0) else w := rfl

theorem State.reported_recordSent (die : Nat) (key : Option Key) (bytes : List Byte) (irq : Bool) : s.Reported (s.recordSent die key bytes irq) := rfl
theorem State.reported_recordStored (bytes : List Byte) : s.Reported (s.recordStored bytes) := rfl

theorem State.reported_makeRecord (die sev : Nat) (key : Option Key) (bytes : List Byte) : s.Reported (s.makeRecord die sev key bytes) := by
  have queued (irq : Bool) :
      s.Reported (if sev ≥ 2 then (s.recordSent die key bytes irq).recordStored bytes else s.recordSent die key bytes irq) :=
    .ite ((s.reported_recordSent die key bytes irq).trans (State.reported_recordStored _ bytes)) (s.reported_recordSent die key bytes irq)
  rw [State.makeRecord_eq]
  exact .ite ((queued _).trans (State.reported_signal _ _)) (queued _)

/-- It is one record more on its way. -/
theorem State.makeRecord_made (die sev : Nat) (key : Option Key) (bytes : List Byte) :
    (s.makeRecord die sev key bytes).logs.made.length = s.logs.made.length + 1 := by
  have signal (u : State) (v : Nat) : (u.signal v).logs.made.length = u.logs.made.length := (u.signal_recorded v).2
  have stored (u : State) : (u.recordStored bytes).logs.made = u.logs.made := rfl
  rw [State.makeRecord_eq]
  dsimp only
  split_ifs <;> simp [State.recordSent, signal, stored]

/-- A report after the logs have changed. -/
theorem State.Reported.of_logs {s u : State} (l : Logs) (h : State.Reported { s with logs := l } u) : s.Reported u :=
  .trans (u := { s with logs := l }) rfl h

theorem State.reported_setPort (p : Nat) (d : DflPort) : s.Reported (s.setPort p d) := rfl

theorem State.reported_sendReg (p off : Nat) (v : Word) : s.Reported (s.sendReg p off v) := .ite (.refl s) (s.reported_setPort _ _)

theorem State.reported_enterLimpAll : s.Reported s.enterLimpAll :=
  State.reported_foldl _ (fun s _ => .ite (s.reported_sendReg _ _ _) (.refl s)) _ s

theorem State.reported_faultSeen (sev : Nat) : s.Reported (s.faultSeen sev) := .ite (.refl s) (s.reported_faultFlag _)

theorem State.reported_enterSafe : s.Reported s.enterSafe := by
  unfold State.enterSafe
  exact .ite (.of_logs _ (.ite (State.reported_enterLimpAll _) (.refl _))) (.refl s)

theorem State.reported_fault (die : Nat) (key : Option Key) (f : FaultInfo) : s.Reported (s.fault die key f) := by
  have seen (l : Logs) (bytes : List Byte) : s.Reported ((State.makeRecord { s with logs := l } die f.sev key bytes).faultSeen f.sev) :=
    .of_logs l ((State.reported_makeRecord _ _ _ _ _).trans (State.reported_faultSeen _ _))
  unfold State.fault
  exact .ite ((seen _ _).trans (State.reported_enterSafe _)) (seen _ _)

theorem State.reported_faultThrottled (clear : Bool) (die : Nat) (f : FaultInfo) : s.Reported (s.faultThrottled clear die f) :=
  .ite (s.reported_fault die none f) (s.reported_faultSeen _)

theorem State.reported_logInput (die kind outcome flags : Nat) (key : Key) (data : List Byte) : s.Reported (s.logInput die kind outcome flags key data) :=
  .ite (.refl s) (s.reported_makeRecord _ _ _ _)

end Sys2Proof.Machine
end

section
/-! SUPPORT. Tag gateways (16 R425 to R432): what a start of a read, a stamped edge, a finished read and an estimate of a rate leave. -/

namespace Sys2Proof.Machine

variable (s : State) (t : Time)

@[simp] theorem State.at_ingress : (s.at t).ingress = s.ingress := by rw [State.at_eq]
@[simp] theorem State.at_tagIn (j : Fin 2) (p : Fin 8) : (s.at t).tagIn j p = s.tagIn j p := by rw [State.at_eq]; rfl
@[simp] theorem State.at_tagEn (j p : Nat) : (s.at t).tagEn j p = s.tagEn j p := by rw [State.at_eq]; rfl
@[simp] theorem State.at_tagStream (j p : Nat) : (s.at t).tagStream j p = s.tagStream j p := by rw [State.at_eq]; rfl
@[simp] theorem State.at_die (j : Nat) : (s.at t).die j = s.die j := by rw [State.at_eq]; rfl

/-- A field of a word by division and remainder. -/
theorem fld_eq (w : Word) (hi lo : Nat) : fld w hi lo = w.toNat / 2 ^ lo % 2 ^ (hi + 1 - lo) := by
  rw [fld, bitsOf, Nat.shiftRight_eq_div_pow]

/-! ### A port of a die -/

@[simp] theorem State.setTag_tagIn (j : Fin 2) (p : Fin 8) (x : TagPort) : (s.setTag j p x).tagIn j p = x := by
  simp [State.setTag, State.tagIn]

@[simp] theorem State.setTag_tagStream (j : Fin 2) (p : Fin 8) (x : TagPort) (j' p' : Nat) : (s.setTag j p x).tagStream j' p' = s.tagStream j' p' := rfl

@[simp] theorem State.inFlag_tagIn (j b : Nat) (j' : Fin 2) (p : Fin 8) : (s.inFlag j b).tagIn j' p = s.tagIn j' p := by
  unfold State.tagIn
  rw [(s.reported_inFlag j b).ingress]

/-- The words of MESA_IN_STS lie below those of the tag ports. -/
theorem State.inFlag_tagStream (j p b : Nat) (hb : b < 16) : (s.inFlag j b).tagStream j p = s.tagStream j p := by
  unfold State.tagStream State.inFlag State.countByte State.setFlag
  rw [State.reg_setReg_ne, State.reg_setReg_ne] <;> unfold tagBase <;> omega

theorem State.tagReject_eq (j : Fin 2) (p : Fin 8) : s.tagReject j p =
    (s.setTag j p { s.tagIn j p with reading := false, fr := none, rejects := min 0xFFFF ((s.tagIn j p).rejects + 1) }).inFlag j 7 := rfl

/-! ### The start of a read, and the stamped edge (R24, R426) -/

/-- The port stamps events and is enabled. -/
def State.tagUp (j : Fin 2) (p : Fin 8) : Bool := s.stamping j 3 && s.tagEn j p

theorem exec_tagRxs (die : Fin 2) (p : Fin 8) : exec (.tagRxs die p t) s =
    .next (if (s.at t).tagUp die p = true ∧ s.tagStream die p = true ∧ (s.tagIn die p).reading = false
      then (s.at t).setTag die p { s.tagIn die p with reading := true, fr := none } else s.at t) := by
  change execTagRxs die p t s = _
  simp [execTagRxs, State.tagUp, and_assoc]

/-- What the edge leaves at a port that is up: an earlier read is rejected, and without the stream mode the new one starts. -/
theorem exec_tagFr (die : Fin 2) (p : Fin 8) : exec (.tagFr die p t) s =
    .next (let v := s.at t
      let x := s.tagIn die p
      let st := keyStamp (eventKey t (3 * 32 + 16 * die.val + 8 + p.val))
      if v.tagUp die p = false then v
      else if x.reading = true ∧ x.fr ≠ none then
        if s.tagStream die p then v.tagReject die p
        else (v.tagReject die p).setTag die p { x with reading := true, fr := some st, rejects := min 0xFFFF (x.rejects + 1) }
      else if s.tagStream die p = true ∧ x.reading = false then v
      else v.setTag die p { x with reading := true, fr := some st }) := by
  change execTagFr die p t s = _
  simp [execTagFr, State.tagUp, Option.isSome_iff_ne_none, State.tagReject_eq, State.inFlag_tagStream, imp_iff_not_or]

/-! ### A finished read (R428, R429, R432) -/

/-- A read that no edge has stamped, or that is not under way, makes nothing. -/
theorem exec_tagReadDone_idle (die : Fin 2) (p : Fin 8) (bs : List Byte) (h : (s.tagIn die p).fr = none ∨ (s.tagIn die p).reading = false) :
    exec (.tagReadDone die p bs t) s = .next (s.at t) := by
  change execTagReadDone die p bs t s = _
  unfold execTagReadDone
  rcases h with h | h
  · simp [h]
  · cases hf : (s.tagIn die p).fr <;> simp [h, hf]

/-- The read is one of a tag that has sent the same sequence number within the last second (R432). -/
def TagPort.again (x : TagPort) (tag seq : Nat) (st : Stamp) : Bool :=
  x.seen.any fun e => decide (e.1 = tag ∧ e.2.1 = seq ∧ stampTime st ≤ stampTime e.2.2 + 1000000000)

/-- What the reader takes of the bytes of a port, and the bit of the status that it checks (R427, R428). -/
def State.tagBytes (die p : Nat) (bs : List Byte) : List Byte := bs.take ((s.reg (tagBase die p + 4)).toNat / 2 ^ 16 % 256)
def State.tagBit (die p : Nat) : Nat := (s.reg (tagBase die p + 4)).toNat / 2 ^ 24 % 8

theorem State.tagBytes_eq (die p : Nat) (bs : List Byte) : bs.take (fld (s.reg (tagBase die p + 4)) 23 16) = s.tagBytes die p bs := by
  rw [fld_eq]; rfl

theorem State.tagBit_eq (die p : Nat) : fld (s.reg (tagBase die p + 4)) 26 24 = s.tagBit die p := fld_eq _ 26 24

/-- A stamped read that is not valid is a reject. -/
theorem exec_tagReadDone_invalid (die : Fin 2) (p : Fin 8) (bs : List Byte) (fr : Stamp) (hf : (s.tagIn die p).fr = some fr)
    (hr : (s.tagIn die p).reading = true) (invalid : tagValid (s.tagBytes die p bs) (s.tagBit die p) = none) :
    exec (.tagReadDone die p bs t) s = .next ((s.at t).tagReject die p) := by
  change execTagReadDone die p bs t s = _
  simp [execTagReadDone, hf, hr, State.tagBytes_eq, State.tagBit_eq, invalid]

/-- A stamped read that is valid becomes a record on the data lane. -/
theorem exec_tagReadDone_valid (die : Fin 2) (p : Fin 8) (bs : List Byte) (fr : Stamp) (src : Nat) (hf : (s.tagIn die p).fr = some fr)
    (hr : (s.tagIn die p).reading = true) (valid : tagValid (s.tagBytes die p bs) (s.tagBit die p) = some src) :
    let x := s.tagIn die p
    let got := s.tagBytes die p bs
    let tag := leAt got (1 + src) 8
    let seq := leAt got (1 + src + 10) 2
    exec (.tagReadDone die p bs t) s =
      .next (((s.at t).setTag die p { x with reading := false, fr := none, events := min 0xFFFF (x.events + 1), seen := ((tag, seq, fr) :: x.seen).take 256 }).laneArrive
        die false (fr.toNat % 256)
        { key := keyOf fr 0
          body := tagRecord got src (s.tagBit die p) die p fr ((s.at t).bankWord die ((s.at t).usesOld (stampTime fr)) (tagBase die p + 0x10)).toNat
            ((s.die die).rateOf tag) (x.again tag seq fr) }) := by
  change execTagReadDone die p bs t s = _
  simp [execTagReadDone, hf, hr, State.tagBytes_eq, State.tagBit_eq, valid, TagPort.again, satAdd, Nat.add_assoc]

theorem tagRecord_length (bs : List Byte) (src bit_ j port : Nat) (st : Stamp) (offset : Nat) (rate : Option Nat) (again : Bool) :
    (tagRecord bs src bit_ j port st offset rate again).length = 32 := by
  simp [tagRecord]

/-! ### The rate of a tag (R430) -/

/-- The estimate is held within 500 ppm of the nominal rate. -/
theorem tagRate_bounds (former ticks time : Nat) : 1999000000 ≤ tagRate former ticks time ∧ tagRate former ticks time ≤ 2001000000 := by
  unfold tagRate
  omega

/-- The entry that a frame of a tag puts into the map cache. -/
def tagEntry (former : Option MapEntry) (tag tx time : Nat) : MapEntry :=
  match former with
  | none => { slot := 0, tag, rate := 0, used := time, pair := some (tx, time) }
  | some x =>
    match x.pair with
    | none => { x with used := time, pair := some (tx, time) }
    | some (tx0, t0) =>
      if time < t0 + 1000000000 then { x with used := time }
      else { x with used := time, pair := some (tx, time), rate := tagRate x.rate ((tx + 2 ^ 32 - tx0) % 2 ^ 32) (time - t0) }

/-- Its rate is the former one, or an estimate within bounds. -/
theorem tagEntry_rate (x : MapEntry) (tag tx time : Nat) :
    (tagEntry (some x) tag tx time).rate = x.rate ∨
      (1999000000 ≤ (tagEntry (some x) tag tx time).rate ∧ (tagEntry (some x) tag tx time).rate ≤ 2001000000) := by
  unfold tagEntry
  dsimp only
  split
  · exact .inl rfl
  · split
    · exact .inl rfl
    · exact .inr (tagRate_bounds _ _ _)

theorem tagEntry_tag (l : List MapEntry) (tag tx time : Nat) : (tagEntry (l.find? fun x => decide (x.tag = tag)) tag tx time).tag = tag := by
  rcases h : l.find? fun x => decide (x.tag = tag) with _ | x
  · rw [h]; rfl
  · have hx : x.tag = tag := by simpa using List.find?_some h
    rw [h]
    unfold tagEntry
    dsimp only
    split
    · exact hx
    · split <;> exact hx

theorem exec_tagRateUpdate (die : Fin 2) (tag : DWord) (tx : Word) (st : Stamp) (live : s.mesaLive die = true) (fitted : s.fuses.optT = true) :
    ∃ time, exec (.tagRateUpdate die tag tx st) s = .next (s.modDie die fun d =>
      { d with cache := cachePut d.cache (tagEntry (d.cache.find? fun x => decide (x.tag = tag.toNat)) tag.toNat tx.toNat time) }) := by
  refine ⟨stampTime st - (s.bankWord die (s.usesOld (stampTime st)) (tagBase die (stampIndex st - 8) + 0x10)).toNat, ?_⟩
  change execTagRateUpdate die tag tx st s = _
  simp only [execTagRateUpdate, live, fitted]
  rfl

/-- Of its own tag a cache holds an entry with the rate that was put. -/
theorem cachePut_rate_of_tag (l : List MapEntry) (e y : MapEntry) (hy : y ∈ cachePut l e) (tag : y.tag = e.tag) : y.rate = e.rate := by
  have absent (hl : y ∈ l) (none_ : l.find? (fun x => decide (x.tag = e.tag)) = none) : y.rate = e.rate :=
    absurd tag (by simpa using List.find?_eq_none.mp none_ y hl)
  have own (k : Nat) (h : y = { e with slot := k }) : y.rate = e.rate := (congrArg MapEntry.rate h :)
  unfold cachePut at hy
  split at hy
  next x _ =>
    obtain ⟨z, -, rfl⟩ := List.mem_map.mp hy
    split
    · rfl
    · next h => rw [if_neg h] at tag; exact absurd tag h
  next none_ =>
    split at hy
    · rcases List.mem_append.mp hy with hl | hl
      · exact absent hl none_
      · exact own _ (List.mem_singleton.mp hl)
    · split at hy
      · rcases List.mem_append.mp hy with hl | hl
        · exact absent (List.mem_of_mem_filter hl) none_
        · exact own _ (List.mem_singleton.mp hl)
      · exact absent hy none_

/-- The first element of a kind that is of a narrower kind is the first of that kind. -/
theorem find?_of_imp {α : Type} (l : List α) (p q : α → Bool) (x : α) (hx : l.find? p = some x) (hq : q x = true) (imp : ∀ y, q y = true → p y = true) :
    l.find? q = some x := by
  obtain ⟨-, before, after, rfl, none_⟩ := List.find?_eq_some_iff_append.mp hx
  refine List.find?_eq_some_iff_append.mpr ⟨hq, before, after, rfl, fun y hy => ?_⟩
  have fails := none_ y hy
  cases h : q y with
  | false => rfl
  | true => rw [imp y h] at fails; exact fails

/-- The rate that a cache holds for a tag once a frame of the tag has put its entry. -/
theorem rateOf_cachePut (d : DieIngress) (tag tx time r : Nat)
    (h : DieIngress.rateOf { d with cache := cachePut d.cache (tagEntry (d.cache.find? fun x => decide (x.tag = tag)) tag tx time) } tag = some r) :
    d.rateOf tag = some r ∨ (1999000000 ≤ r ∧ r ≤ 2001000000) := by
  obtain ⟨y, hy, rfl⟩ := Option.map_eq_some_iff.mp h
  obtain ⟨ytag, yrate⟩ : y.tag = tag ∧ y.rate ≠ 0 := by simpa using List.find?_some hy
  have mem : y ∈ cachePut d.cache (tagEntry (d.cache.find? fun x => decide (x.tag = tag)) tag tx time) := List.mem_of_find?_eq_some hy
  have put := cachePut_rate_of_tag _ _ y mem (ytag.trans (tagEntry_tag _ _ _ _).symm)
  rcases former : d.cache.find? fun x => decide (x.tag = tag) with _ | x
  · rw [former] at put
    exact absurd put yrate
  · rw [former] at put
    rcases tagEntry_rate x tag tx time with same | bounds
    · have xrate : y.rate = x.rate := put.trans same
      have xtag : x.tag = tag := by simpa using List.find?_some former
      have xne : x.rate ≠ 0 := fun h => yrate (xrate.trans h)
      have found : d.cache.find? (fun e => decide (e.tag = tag ∧ e.rate ≠ 0)) = some x :=
        find?_of_imp _ _ _ x former (decide_eq_true ⟨xtag, xne⟩) fun e he => decide_eq_true (of_decide_eq_true he).1
      exact .inl (by rw [DieIngress.rateOf, found, xrate]; rfl)
    · rw [← put] at bounds
      exact .inr bounds

@[simp] theorem State.modDie_die (j : Fin 2) (f : DieIngress → DieIngress) : (s.modDie j f).die j = f (s.die j) := by
  have bound : j.val ≤ 1 := by omega
  simp [State.modDie, State.setDie, State.die, bound]

/-- Settles O34: the reads, stamps, rejects, records and rates of a tag port, each by the equation of its command. -/
theorem tagResults : Obligations.TagResults := by
  intro s die p t v x up st dropped
  have tagUp : v.tagUp die p = true ↔ up := by simp [State.tagUp, up, v]
  have tagDown : v.tagUp die p = false ↔ ¬ up := by rw [← tagUp, Bool.not_eq_true]
  have reject : v.tagReject die p = dropped := by rw [State.tagReject_eq, State.at_tagIn]
  refine ⟨fun hu hs hr => ⟨?_, ?_⟩, fun hu => ⟨?_, ?_⟩, fun h => ?_, fun hu hr hf => ?_, fun hu h hf => ?_, fun h bs => ?_,
    fun fr bs hf hr => ⟨fun h => ?_, fun src h => ?_⟩, fun tag tx st' live fitted => ?_, fun tag tx st' h => ?_⟩
  · rw [exec_tagRxs, if_pos ⟨tagUp.mpr hu, hs, hr⟩]
  · simp [exec_tagFr, v, x, tagUp.mpr hu, hs, hr] 
  · rw [exec_tagRxs, if_neg fun h => hu (tagUp.mp h.1)]
  · simp [exec_tagFr, v, tagDown.mpr hu]
  · rw [exec_tagRxs, if_neg (by rintro ⟨-, hs, hr⟩; simp_all [x])]
  · rw [exec_tagFr]
    dsimp only
    rw [if_neg (by simp [tagUp.mpr hu, v]), if_pos ⟨hr, hf⟩, reject]
  · rw [exec_tagFr]
    dsimp only
    rw [if_neg (by simp [tagUp.mpr hu, v]), if_neg fun ⟨hr, hfr⟩ => hf.elim (fun h => by simp [x, hr] at h) hfr,
      if_neg fun ⟨hs, hr⟩ => h.elim (fun h => by simp [hs] at h) fun h => by simp [x, hr] at h]
  · exact exec_tagReadDone_idle s t die p bs h
  · rw [exec_tagReadDone_invalid s t die p bs fr hf hr h, reject]
  · exact ⟨_, _, exec_tagReadDone_valid s t die p bs fr src hf hr h, rfl, tagRecord_length _ _ _ _ _ _ _ _ _⟩
  · obtain ⟨time, step⟩ := exec_tagRateUpdate s die tag tx st' live fitted
    refine ⟨_, step, rfl, rfl, State.modDie_kept _ _ _, fun r hr => ?_⟩
    rw [State.modDie_die] at hr
    exact rateOf_cachePut _ _ _ _ r hr
  · change execTagRateUpdate die tag tx st' s = _
    rcases h with h | h <;> simp [execTagRateUpdate, h]

end Sys2Proof.Machine
end

section
/-! SUPPORT. Merge points (03 R71 to R75; 04 R108; 05 R139): what an arrival, a horizon and a release leave of a lane and of an input stream. -/

namespace Sys2Proof.Machine

variable (s : State) (t : Time)

@[simp] theorem State.at_tiles : (s.at t).tiles = s.tiles := by rw [State.at_eq]
@[simp] theorem State.at_resv : (s.at t).resv = s.resv := by rw [State.at_eq]
@[simp] theorem State.at_jobs : (s.at t).jobs = s.jobs := by rw [State.at_eq]
@[simp] theorem State.at_job (id : JobId) : (s.at t).job id = s.job id := by rw [State.at_eq]; rfl
@[simp] theorem State.at_tile (n : Nat) : (s.at t).tile n = s.tile n := by rw [State.at_eq]; rfl
@[simp] theorem State.at_tileOn (n : Nat) : (s.at t).tileOn n = s.tileOn n := by rw [State.at_eq]; rfl
@[simp] theorem State.at_lane (j : Nat) (adm : Bool) : (s.at t).lane j adm = s.lane j adm := by rw [State.at_eq]; rfl

/-- What a fold leaves alone if each of its steps does. -/
theorem State.foldl_preserves {α β : Type} (g : State → β) (f : State → α → State) (hf : ∀ (s : State) a, g (f s a) = g s) (l : List α) (s : State) :
    g (l.foldl f s) = g s := by
  induction l generalizing s with
  | nil => rfl
  | cons a l ih => exact (ih (f s a)).trans (hf s a)

/-! ### Sources of a merge -/

@[simp] theorem sourceOf_src (l : List MSource) (k : Nat) : (sourceOf l k).src = k := by
  unfold sourceOf
  cases h : l.find? fun m => decide (m.src = k) with
  | none => rfl
  | some m => simpa using List.find?_some h

/-- Putting a source replaces the one of its number and no other. -/
theorem sourceOf_putSource (l : List MSource) (m : MSource) (k : Nat) : sourceOf (putSource l m) k = if k = m.src then m else sourceOf l k := by
  unfold sourceOf putSource
  split
  next held =>
    have same : ((fun x => decide (x.src = k)) ∘ fun x : MSource => if x.src = m.src then m else x) = fun x => decide (x.src = k) := by
      funext x
      by_cases hx : x.src = m.src <;> simp [hx]
    rw [List.find?_map, same]
    obtain ⟨y, hy, ym⟩ := List.any_eq_true.mp held
    cases found : l.find? fun x => decide (x.src = k) with
    | none =>
      have hk : k ≠ m.src := fun e => List.find?_eq_none.mp found y hy (by rw [e]; exact ym)
      rw [if_neg hk]
      rfl
    | some x =>
      obtain rfl : x.src = k := by simpa using List.find?_some found
      rfl
  next absent =>
    rw [List.find?_append]
    by_cases hk : k = m.src
    · have none_ : l.find? (fun x => decide (x.src = k)) = none := by
        rw [hk]; exact List.find?_eq_none.mpr fun x hx h => absent (List.any_eq_true.mpr ⟨x, hx, h⟩)
      rw [none_]
      simp [hk]
    · have other : ¬ m.src = k := fun e => hk e.symm
      simp [hk, other]

@[simp] theorem sourceOf_putSource_same (l : List MSource) (m : MSource) : sourceOf (putSource l m) m.src = m := by
  rw [sourceOf_putSource, if_pos rfl]

theorem sourceOf_putSource_ne (l : List MSource) (m : MSource) (k : Nat) (h : k ≠ m.src) : sourceOf (putSource l m) k = sourceOf l k := by
  rw [sourceOf_putSource, if_neg h]

/-- A source that a merge picks is loose, or its head lies below every other frontier (R71, R74). -/
theorem head_below_of_pickSource {l : List MSource} {m : MSource} {i : Item} {rest : List Item} (h : pickSource l = some m) (hm : m.held = i :: rest) :
    m.loose = true ∨ ∀ q ∈ l, q.src ≠ m.src → ∀ f, q.frontier = some f → i.key.toNat < f := by
  unfold pickSource at h
  split at h
  · next x hx =>
    obtain rfl : x = m := Option.some.inj h
    have found := List.find?_some hx
    exact .inl (Bool.and_eq_true_iff.mp found).1
  · have found := List.find?_some h
    rw [hm] at found
    refine .inr fun q hq hne f hf => ?_
    have below := List.all_eq_true.mp found q hq
    simpa [hne, hf] using below

/-! ### Lanes -/

theorem State.die_of_ingress {u s : State} (h : u.ingress = s.ingress) (j : Nat) : u.die j = s.die j := by unfold State.die; rw [h]

theorem State.lane_of_ingress {u s : State} (h : u.ingress = s.ingress) (j : Nat) (adm : Bool) : u.lane j adm = s.lane j adm := by
  unfold State.lane; rw [State.die_of_ingress h]

theorem State.setLane_die (j : Fin 2) (adm : Bool) (l : List MSource) :
    (s.setLane j adm l).die j = if adm then { s.die j with adm := l } else { s.die j with data := l } := State.modDie_die s j _

@[simp] theorem State.setLane_lane (j : Fin 2) (adm : Bool) (l : List MSource) : (s.setLane j adm l).lane j adm = l := by
  unfold State.lane; rw [State.setLane_die]; cases adm <;> rfl

@[simp] theorem State.setLane_lane_other (j : Fin 2) (adm : Bool) (l : List MSource) : (s.setLane j adm l).lane j (!adm) = s.lane j (!adm) := by
  unfold State.lane; rw [State.setLane_die]; cases adm <;> rfl

/-- `u` is `s` but for one source of a lane of a die, which holds these items under this horizon. -/
structure State.LanePut (s u : State) (j : Fin 2) (adm : Bool) (src : Nat) (held : List Item) (horizon : Key) : Prop where
  held : (sourceOf (u.lane j adm) src).held = held
  horizon : (sourceOf (u.lane j adm) src).horizon = horizon
  others : ∀ k, k ≠ src → sourceOf (u.lane j adm) k = sourceOf (s.lane j adm) k
  otherLane : u.lane j (!adm) = s.lane j (!adm)
  kept : u.kept = s.kept
  tiles : u.tiles = s.tiles
  resv : u.resv = s.resv
  regs : u.regs = s.regs

theorem State.lanePut (j : Fin 2) (adm : Bool) (m : MSource) (src : Nat) (h : m.src = src) :
    s.LanePut (s.setLane j adm (putSource (s.lane j adm) m)) j adm src m.held m.horizon where
  held := by rw [State.setLane_lane, ← h, sourceOf_putSource_same]
  horizon := by rw [State.setLane_lane, ← h, sourceOf_putSource_same]
  others k hk := by rw [State.setLane_lane, sourceOf_putSource_ne _ _ _ (h ▸ hk)]
  otherLane := State.setLane_lane_other _ _ _ _
  kept := State.setLane_kept _ _ _ _
  tiles := rfl
  resv := rfl
  regs := rfl

/-- The change of one source under its number. -/
theorem State.lanePut_source (j : Fin 2) (adm : Bool) (src : Nat) (held : List Item) (horizon : Key) :
    s.LanePut (s.setLane j adm (putSource (s.lane j adm) { sourceOf (s.lane j adm) src with held, horizon })) j adm src held horizon :=
  s.lanePut j adm _ src (sourceOf_src _ _)

/-- A horizon of a lane never falls. -/
theorem State.laneHorizon_put (j : Fin 2) (adm : Bool) (src : Nat) (h : Key) : ∃ horizon : Key,
    horizon.toNat = max (sourceOf (s.lane j adm) src).horizon.toNat h.toNat ∧
      s.LanePut (s.laneHorizon j adm src h) j adm src (sourceOf (s.lane j adm) src).held horizon := by
  refine ⟨_, ?_, s.lanePut_source j adm src _ (if (sourceOf (s.lane j adm) src).horizon.toNat < h.toNat then h else (sourceOf (s.lane j adm) src).horizon)⟩
  split <;> omega

/-- The horizon of its source has passed an item (R27, R74). -/
def State.Late (j : Nat) (adm : Bool) (src : Nat) (i : Item) : Prop :=
  ∃ m, (s.laneView j adm).find? (fun m => decide (m.src = src)) = some m ∧ m.loose = false ∧ i.key.toNat < m.horizon.toNat

theorem State.laneArrive_late (j : Nat) (adm : Bool) (src : Nat) (i : Item) (h : s.Late j adm src i) :
    s.laneArrive j adm src i = if adm then s else s.lateIngress j src i := by
  obtain ⟨m, found, loose, passed⟩ := h
  simp [State.laneArrive, found, loose, passed]

/-- Any other item is held behind what its source holds (R71). -/
theorem State.laneArrive_put (j : Fin 2) (adm : Bool) (src : Nat) (i : Item) (h : ¬ s.Late j adm src i) :
    s.LanePut (s.laneArrive j adm src i) j adm src ((sourceOf (s.lane j adm) src).held ++ [i]) (sourceOf (s.lane j adm) src).horizon := by
  have eq : s.laneArrive j adm src i =
      s.setLane j adm (putSource (s.lane j adm) { sourceOf (s.lane j adm) src with held := (sourceOf (s.lane j adm) src).held ++ [i] }) := by
    refine if_neg fun late => ?_
    cases found : (s.laneView j adm).find? fun m => decide (m.src = src) with
    | none => simp [found] at late
    | some m => exact h ⟨m, found, by simpa [found] using late⟩
  rw [eq]
  exact s.lanePut_source j adm src _ _

/-- A late ingress is a matter of reports: of one record at least. -/
theorem State.reported_lateIngress (j byte : Nat) (i : Item) : s.Reported (s.lateIngress j byte i) :=
  ((s.reported_fault _ _ _).trans (State.reported_logInput _ _ _ _ _ _ _)).trans (.ite (State.reported_inFlag _ _ _) (.refl _))

theorem State.logInput_made_le (die kind outcome flags : Nat) (key : Key) (data : List Byte) :
    s.logs.made.length ≤ (s.logInput die kind outcome flags key data).logs.made.length := by
  unfold State.logInput
  split
  · exact Nat.le_refl _
  · rw [State.makeRecord_made]
    omega

@[simp] theorem State.setFlag_logs (a b : Nat) : (s.setFlag a b).logs = s.logs := rfl
@[simp] theorem State.countByte_logs (a n : Nat) : (s.countByte a n).logs = s.logs := rfl
@[simp] theorem State.inFlag_logs (j b : Nat) : (s.inFlag j b).logs = s.logs := by
  rw [State.inFlag, State.countByte_logs, State.setFlag_logs]

theorem State.lateIngress_made (j byte : Nat) (i : Item) : s.logs.made.length < (s.lateIngress j byte i).logs.made.length := by
  obtain ⟨f, info, eq⟩ : ∃ f : FaultInfo, f.sev = 0 ∧ s.lateIngress j byte i =
      let u := (s.fault j (some i.key) f).logInput j 2 0xFF 0 i.key i.body
      if (itemKind byte).1 = 2 then u.inFlag j 8 else u := ⟨_, rfl, rfl⟩
  have late := (s.fault_recorded j (some i.key) f info).2
  have excluded := (s.fault j (some i.key) f).logInput_made_le j 2 0xFF 0 i.key i.body
  rw [eq]
  dsimp only
  split
  · rw [State.inFlag_logs]; omega
  · omega

/-! ### Release from a lane (R71, R74, R75, R565) -/

theorem State.reported_logItem (j : Nat) (i : Item) : s.Reported (s.logItem j i) := by
  unfold State.logItem
  dsimp only
  split
  · exact .ite (.refl s) (State.reported_logInput _ _ _ _ _ _ _)
  all_goals exact .ite (State.reported_logInput _ _ _ _ _ _ _) (.refl s)

theorem State.laneRelease_none (j : Nat) (adm : Bool) (h : pickSource (s.laneView j adm) = none) : s.laneRelease j adm = s := by
  simp [State.laneRelease, h]

/-- The head of the source that the merge picks leaves it for admission, or for closures and streams. -/
theorem State.laneRelease_some (j : Nat) (adm : Bool) (m : MSource) (i : Item) (rest : List Item) (h : pickSource (s.laneView j adm) = some m)
    (hm : m.held = i :: rest) :
    s.laneRelease j adm =
      let i := markLoose (s.laneView j adm) i
      let v := s.setLane j adm (putSource (s.lane j adm) { sourceOf (s.lane j adm) m.src with held := rest })
      if adm then v.modDie j fun d => { d with events := d.events ++ [i] }
      else ((v.modDie j fun d => { d with items := d.items ++ [i] }).logItem j i).deliverItem j i := by
  simp [State.laneRelease, h, hm]

end Sys2Proof.Machine
end

section
/-! SUPPORT. The stop of a job (08 R220; 21 R570, R573): its entry among the jobs, and what its tiles keep. -/

namespace Sys2Proof.Machine

variable (s : State)

/-! ### Changes of jobs, and the operations that leave jobs alone -/

theorem State.job_of_jobs {u s : State} (h : u.jobs = s.jobs) (id : JobId) : u.job id = s.job id := by unfold State.job; rw [h]

theorem State.tile_of_tiles {u s : State} (h : u.tiles = s.tiles) (n : Nat) : u.tile n = s.tile n := by unfold State.tile; rw [h]

/-- A change that keeps names reaches the job of its name. -/
theorem State.modJob_job (id : JobId) (f : Job → Job) (hf : ∀ j, (f j).id = j.id) (j : Job) (hj : s.job id = some j) : (s.modJob id f).job id = some (f j) := by
  have jid : j.id = id := by simpa using List.find?_some hj
  have same : ((fun j : Job => decide (j.id = id)) ∘ fun j => if decide (j.id = id) then f j else j) = fun j => decide (j.id = id) := by
    funext j
    by_cases h : j.id = id <;> simp [h, hf]
  rw [State.job] at hj
  rw [State.job, State.modJob, mapIf, List.find?_map, same, hj]
  simp [jid]

theorem State.dropBindings_jobs (id : JobId) : (s.dropBindings id).jobs = s.jobs := by
  unfold State.dropBindings
  exact State.foldl_preserves State.jobs _ (fun u k => (State.reported_cairnFlags _ k _).jobs.trans (State.setApply_jobs _ _ _)) _ s

theorem State.dropBindings_tiles (id : JobId) : (s.dropBindings id).tiles = s.tiles := by
  unfold State.dropBindings
  exact State.foldl_preserves State.tiles _ (fun u k => (State.reported_cairnFlags _ k _).tiles.trans (State.setApply_tiles _ _ _)) _ s

/-- What ends for the host touches the host link alone (R392, R396, R399). -/
theorem State.hpDone_link (c : HpCmd) (status detail result : Nat) : { s.hpDone c status detail result with link := s.link } = s := by
  unfold State.hpDone
  dsimp only
  split <;> rfl

theorem State.hostJobOver_link (id : JobId) : { s.hostJobOver id with link := s.link } = s := by
  unfold State.hostJobOver
  split
  · rfl
  · split
    · exact congrArg (fun u : State => { u with link := s.link }) (State.hpDone_link _ _ _ _ _)
    · rfl

theorem State.hostJobOver_jobs (id : JobId) : (s.hostJobOver id).jobs = s.jobs := (congrArg State.jobs (s.hostJobOver_link id) :)
theorem State.hostJobOver_tiles (id : JobId) : (s.hostJobOver id).tiles = s.tiles := (congrArg State.tiles (s.hostJobOver_link id) :)
theorem State.freeTiles_jobs (id : JobId) : (s.freeTiles id).jobs = s.jobs := rfl

/-! ### The tiles of a job that leaves them -/

/-- A tile once a job has left it: no core, start message or operation of the job. -/
def Tile.left (id : JobId) (x : Tile) : Tile :=
  { x with
    core := (match x.core with | some c => if c.id = id then none else some c | none => none)
    starts := x.starts.filter fun m => decide (m.id ≠ id)
    flight := (match x.core with | some c => if c.id = id then [] else x.flight | none => x.flight) }

/-- The tile of a number, once the tiles without content have gone from a list whose entries all changed by a function. -/
theorem mget_map_filter (f : Tile → Tile) (l : SMap Tile) (n : Nat) (h : f (mget (fun _ => {}) l n) ≠ {}) (none_ : f {} = {}) :
    mget (fun _ => {}) ((l.map fun x => (x.1, f x.2)).filter fun x => decide (x.2 ≠ {})) n = f (mget (fun _ => {}) l n) := by
  induction l with
  | nil => exact none_.symm
  | cons e rest ih =>
    obtain ⟨a, x⟩ := e
    rw [List.map_cons, List.filter_cons]
    by_cases ha : a = n
    · simp only [mget, ha, if_true] at h ⊢
      simp [h, mget]
    · simp only [mget, ha, if_false] at h ⊢
      split
      · rw [mget, if_neg ha]
        exact ih h
      · exact ih h

/-- A tile that holds an input stream keeps its streams when a job leaves it (R219). -/
theorem State.freeTiles_ports (id : JobId) (n : Nat) (h : (s.tile n).ports ≠ []) : ((s.freeTiles id).tile n).ports = (s.tile n).ports :=
  (congrArg Tile.ports (mget_map_filter (Tile.left id) s.tiles n (fun e => h (congrArg Tile.ports e :)) rfl) :)

/-! ### The stop -/

/-- The void mask of a stopped job: DATA_LATE or DATA_LOST as its reason gives (R89). -/
def Job.stopVoid (j : Job) (reason : Nat) : Nat :=
  j.void ||| (if reason = 7 ∨ reason = 8 then 8 else 0) ||| (if reason = 0x0B ∨ reason = 0x0F then 4 else 0)

/-- The record of a stop, its counters and flags. -/
def State.stopReports (j : Job) (id : JobId) (reason : Nat) (key : Key) (detail unit : Nat) : State :=
  let u := (s.makeRecord (s.jobDie j) 2 (some (stopKey id reason key))
    (stopBytes s.replaying (j.stopVoid reason) reason j.entrySlot (stopKey id reason key) detail s.time.now unit)).countVoid (j.stopVoid reason)
  if reason = 2 ∨ reason = 3 ∨ reason = 4 then u.gvFlag 4 else u

/-- A job's entry as stopped, the reports, and its tiles, bindings and cycle. -/
def State.stopEnds (j : Job) (id : JobId) (reason : Nat) (key : Key) (detail unit : Nat) : State :=
  let u := (s.modJob id fun j' => { j' with stopped := some reason, running := [], void := j.stopVoid reason }).stopReports j id reason key detail unit
  let w := (u.freeTiles id).dropBindings id
  { w with cycles := mapIf (fun c => decide (c.id = id)) (fun c => { c with jobStopped := true, void := c.void ||| j.stopVoid reason }) w.cycles }

/-- The job has stopped, or has ended. -/
def Job.isOver (j : Job) : Prop := j.stopped ≠ none ∨ (j.running = [] ∧ j.committed = true)

theorem State.stopJob_none {id : JobId} (h : s.job id = none) (reason : Nat) (key : Key) (detail unit : Nat) : s.stopJob id reason key detail unit = s := by
  simp [State.stopJob, h]

theorem State.stopJob_over {id : JobId} {j : Job} (hj : s.job id = some j) (h : j.isOver) (reason : Nat) (key : Key) (detail unit : Nat) :
    s.stopJob id reason key detail unit = s := by
  rw [State.stopJob, hj]
  exact if_pos h

/-- A stop does this, and what ends for the host. -/
theorem State.stopJob_active {id : JobId} {j : Job} (hj : s.job id = some j) (h : ¬ j.isOver) (reason : Nat) (key : Key) (detail unit : Nat) :
    s.stopJob id reason key detail unit =
      if j.kind = 3 then (s.stopEnds j id reason key detail unit).hostJobOver id else s.stopEnds j id reason key detail unit := by
  rw [State.stopJob, hj]
  exact if_neg h

theorem State.reported_stopReports (j : Job) (id : JobId) (reason : Nat) (key : Key) (detail unit : Nat) :
    s.Reported (s.stopReports j id reason key detail unit) :=
  have record := (s.reported_makeRecord _ _ _ _).trans (State.reported_countVoid _ _)
  .ite (record.trans (State.reported_gvFlag _ _)) record

theorem State.stopEnds_jobs (j : Job) (id : JobId) (reason : Nat) (key : Key) (detail unit : Nat) : (s.stopEnds j id reason key detail unit).jobs =
    (s.modJob id fun j' => { j' with stopped := some reason, running := [], void := j.stopVoid reason }).jobs := by
  rw [State.stopEnds]
  dsimp only
  rw [State.dropBindings_jobs, State.freeTiles_jobs, (State.reported_stopReports _ j id reason key detail unit).jobs]

theorem State.stopJob_jobs {id : JobId} {j : Job} (hj : s.job id = some j) (h : ¬ j.isOver) (reason : Nat) (key : Key)
    (detail unit : Nat) : (s.stopJob id reason key detail unit).jobs =
      (s.modJob id fun j' => { j' with stopped := some reason, running := [], void := j.stopVoid reason }).jobs := by
  rw [s.stopJob_active hj h, ← s.stopEnds_jobs j id reason key detail unit]
  split
  · rw [State.hostJobOver_jobs]
  · rfl

/-- A job that runs stops under its reason, and no tile runs it (R220). -/
theorem State.stopJob_job {id : JobId} {j : Job} (hj : s.job id = some j) (hs : j.stopped = none) (hr : j.running ≠ []) (reason : Nat) (key : Key)
    (detail unit : Nat) :
    (s.stopJob id reason key detail unit).job id = some { j with stopped := some reason, running := [], void := j.stopVoid reason } := by
  rw [State.job_of_jobs (s.stopJob_jobs hj (by simp [Job.isOver, hs, hr]) reason key detail unit)]
  exact s.modJob_job id (fun j' => { j' with stopped := some reason, running := [], void := j.stopVoid reason }) (fun _ => rfl) j hj

theorem State.stopEnds_tiles (j : Job) (id : JobId) (reason : Nat) (key : Key) (detail unit : Nat) :
    (s.stopEnds j id reason key detail unit).tiles = (s.freeTiles id).tiles := by
  rw [State.stopEnds]
  dsimp only
  rw [State.dropBindings_tiles, State.freeTiles, (State.reported_stopReports _ j id reason key detail unit).tiles]
  rfl

/-- The tiles of a job that stops, or has stopped already. -/
theorem State.stopJob_tiles (id : JobId) (reason : Nat) (key : Key) (detail unit : Nat) :
    (s.stopJob id reason key detail unit).tiles = s.tiles ∨ (s.stopJob id reason key detail unit).tiles = (s.freeTiles id).tiles := by
  cases hj : s.job id with
  | none => exact .inl (by rw [s.stopJob_none hj])
  | some j =>
    by_cases h : j.isOver
    · exact .inl (by rw [s.stopJob_over hj h])
    · right
      rw [s.stopJob_active hj h, ← s.stopEnds_tiles j id reason key detail unit]
      split
      · rw [State.hostJobOver_tiles]
      · rfl

/-- A tile that holds an input stream keeps its streams. -/
theorem State.stopJob_ports (id : JobId) (reason : Nat) (key : Key) (detail unit n : Nat) (h : (s.tile n).ports ≠ []) :
    ((s.stopJob id reason key detail unit).tile n).ports = (s.tile n).ports := by
  rcases s.stopJob_tiles id reason key detail unit with tiles | tiles
  · rw [State.tile_of_tiles tiles]
  · rw [State.tile_of_tiles tiles, s.freeTiles_ports id n h]

end Sys2Proof.Machine
end

section
/-! SUPPORT. Releases from the lanes of a die and from the input streams of a tile (03 R71, R72, R74, R75; 05 R139). -/

namespace Sys2Proof.Machine

variable (s : State) (t : Time)

/-! ### A release from a lane -/

/-- What a release leaves: the item with its mark, and the rest of its source. -/
structure State.LaneReleased (s u : State) (j : Fin 2) (adm : Bool) (src : Nat) (rest : List Item) (i : Item) : Prop where
  held : (sourceOf (u.lane j adm) src).held = rest
  others : ∀ k, k ≠ src → sourceOf (u.lane j adm) k = sourceOf (s.lane j adm) k
  otherLane : u.lane j (!adm) = s.lane j (!adm)
  out : if adm then (u.die j).events = (s.die j).events ++ [i] ∧ u.tiles = s.tiles else (u.die j).items = (s.die j).items ++ [i]

theorem State.modDie_lane (j : Fin 2) (adm : Bool) (f : DieIngress → DieIngress) (hd : ∀ d, (f d).data = d.data) (ha : ∀ d, (f d).adm = d.adm) :
    (s.modDie j f).lane j adm = s.lane j adm := by
  simp [State.lane, hd, ha]

theorem State.laneReleased (j : Fin 2) (adm : Bool) (m : MSource) (i : Item) (rest : List Item) (h : pickSource (s.laneView j adm) = some m)
    (hm : m.held = i :: rest) : s.LaneReleased (s.laneRelease j adm) j adm m.src rest (markLoose (s.laneView j adm) i) := by
  rw [s.laneRelease_some j adm m i rest h hm]
  dsimp only
  generalize markLoose (s.laneView j adm) i = i'
  have put := s.lanePut_source j adm m.src rest (sourceOf (s.lane j adm) m.src).horizon
  have events : ((s.setLane j adm (putSource (s.lane j adm) { sourceOf (s.lane j adm) m.src with held := rest })).die j).events = (s.die j).events ∧
      ((s.setLane j adm (putSource (s.lane j adm) { sourceOf (s.lane j adm) m.src with held := rest })).die j).items = (s.die j).items := by
    rw [State.setLane_die]; cases adm <;> exact ⟨rfl, rfl⟩
  generalize s.setLane j adm (putSource (s.lane j adm) { sourceOf (s.lane j adm) m.src with held := rest }) = v at put events
  have lanes (f : DieIngress → DieIngress) (hd : ∀ d, (f d).data = d.data) (ha : ∀ d, (f d).adm = d.adm) (u : State) (hu : u.ingress = (v.modDie j f).ingress)
      (out : if adm then (u.die j).events = (s.die j).events ++ [i'] ∧ u.tiles = s.tiles else (u.die j).items = (s.die j).items ++ [i']) :
      s.LaneReleased u j adm m.src rest i' := by
    have lane (a : Bool) : u.lane j a = v.lane j a := (State.lane_of_ingress hu j a).trans (v.modDie_lane j a f hd ha)
    exact { held := by rw [lane, put.held], others := fun k hk => by rw [lane, put.others k hk], otherLane := by rw [lane, put.otherLane], out }
  cases adm with
  | true => exact lanes (fun d => { d with events := d.events ++ [i'] }) (fun _ => rfl) (fun _ => rfl) _ rfl ⟨by rw [if_pos rfl, State.modDie_die, events.1], put.tiles⟩
  | false =>
    have logged := (State.reported_logItem (v.modDie j fun d => { d with items := d.items ++ [i'] }) j i').ingress
    refine lanes (fun d => { d with items := d.items ++ [i'] }) (fun _ => rfl) (fun _ => rfl) _ logged ?_
    exact (congrArg DieIngress.items (State.die_of_ingress logged j)).trans (by rw [State.modDie_die, events.2])

/-! ### The input streams of a tile -/

theorem Tile.port_kind (x : Tile) (kind stream : Nat) : (x.port kind stream).kind = kind ∧ (x.port kind stream).stream = stream := by
  unfold Tile.port
  cases h : x.ports.find? fun p => decide (p.kind = kind ∧ p.stream = stream) with
  | none => exact ⟨rfl, rfl⟩
  | some p => simpa using List.find?_some h

/-- The stream of a kind and number, once it has been put (R139). -/
theorem Tile.port_setPort (x : Tile) (p : InPort) : (x.setPort p).port p.kind p.stream = p := by
  unfold Tile.setPort Tile.port
  dsimp only
  split
  next held =>
    have same : ((fun q => decide (q.kind = p.kind ∧ q.stream = p.stream)) ∘ fun q : InPort => if q.kind = p.kind ∧ q.stream = p.stream then p else q) =
        fun q => decide (q.kind = p.kind ∧ q.stream = p.stream) := by
      funext q
      by_cases hq : q.kind = p.kind ∧ q.stream = p.stream
      · simp [hq]
      · rw [Function.comp_apply, if_neg hq]
    rw [List.find?_map, same]
    obtain ⟨q, hq, qp⟩ := List.any_eq_true.mp held
    cases found : x.ports.find? fun q => decide (q.kind = p.kind ∧ q.stream = p.stream) with
    | none => exact absurd qp (List.find?_eq_none.mp found q hq)
    | some y =>
      have own : y.kind = p.kind ∧ y.stream = p.stream := by simpa using List.find?_some found
      simp [own]
  next absent =>
    have none_ : x.ports.find? (fun q => decide (q.kind = p.kind ∧ q.stream = p.stream)) = none :=
      List.find?_eq_none.mpr fun q hq h => absent (List.any_eq_true.mpr ⟨q, hq, h⟩)
    rw [List.find?_append, none_]
    simp

theorem Tile.setPort_ports_ne_nil (x : Tile) (p : InPort) : (x.setPort p).ports ≠ [] := by
  unfold Tile.setPort
  dsimp only
  split
  next held =>
    obtain ⟨q, hq, -⟩ := List.any_eq_true.mp held
    exact fun h => List.ne_nil_of_mem hq (List.map_eq_nil_iff.mp h)
  · simp

/-- A stream of tile `n` as changed, every other tile as before. -/
structure State.PortPut (s u : State) (n kind stream : Nat) (p : InPort) : Prop where
  put : (u.tile n).port kind stream = p
  others : ∀ k, k ≠ n → u.tile k = s.tile k
  regs : u.regs = s.regs
  kept : u.kept = s.kept

theorem State.portPut (n kind stream : Nat) (p : InPort) (hk : p.kind = kind) (hs : p.stream = stream) :
    s.PortPut (s.modTile n fun x => x.setPort p) n kind stream p where
  put := by rw [State.tile_modTile, if_pos rfl, ← hk, ← hs, Tile.port_setPort]
  others k h := by rw [State.tile_modTile, if_neg h]
  regs := rfl
  kept := State.modTile_kept _ _ _

/-- A source of an input stream as changed, every other source and every other tile as before. -/
structure State.SourcePut (s u : State) (n kind stream src : Nat) (held : List Item) (horizon : Key) : Prop where
  held : (sourceOf ((u.tile n).port kind stream).srcs src).held = held
  horizon : (sourceOf ((u.tile n).port kind stream).srcs src).horizon = horizon
  otherSources : ∀ k, k ≠ src → sourceOf ((u.tile n).port kind stream).srcs k = sourceOf ((s.tile n).port kind stream).srcs k
  others : ∀ k, k ≠ n → u.tile k = s.tile k
  regs : u.regs = s.regs
  kept : u.kept = s.kept

theorem State.sourcePut (n kind stream src : Nat) (m : MSource) (h : m.src = src) :
    s.SourcePut (s.modTile n fun x => x.setPort { x.port kind stream with srcs := putSource (x.port kind stream).srcs m }) n kind stream src m.held m.horizon := by
  have put : s.PortPut (s.modTile n fun x => x.setPort { x.port kind stream with srcs := putSource (x.port kind stream).srcs m }) n kind stream
      { (s.tile n).port kind stream with srcs := putSource ((s.tile n).port kind stream).srcs m } :=
    s.portPut n kind stream _ (Tile.port_kind _ _ _).1 (Tile.port_kind _ _ _).2
  exact
    { held := by rw [put.put, ← h, sourceOf_putSource_same]
      horizon := by rw [put.put, ← h, sourceOf_putSource_same]
      otherSources := fun k hk => by rw [put.put, sourceOf_putSource_ne _ _ _ (h ▸ hk)]
      others := put.others, regs := put.regs, kept := put.kept }

/-- An item is held behind what its source holds. -/
theorem State.portArrive_put (n kind stream src : Nat) (i : Item) :
    s.SourcePut (s.portArrive n kind stream src i) n kind stream src ((sourceOf ((s.tile n).port kind stream).srcs src).held ++ [i])
      (sourceOf ((s.tile n).port kind stream).srcs src).horizon :=
  s.sourcePut n kind stream src { sourceOf ((s.tile n).port kind stream).srcs src with
    held := (sourceOf ((s.tile n).port kind stream).srcs src).held ++ [i], loose := ((s.tile n).port kind stream).loose } (sourceOf_src _ _)

/-- The newest horizon replaces the one before. -/
theorem State.portHorizon_put (n kind stream src : Nat) (h : Key) :
    s.SourcePut (s.portHorizon n kind stream src h) n kind stream src (sourceOf ((s.tile n).port kind stream).srcs src).held h :=
  s.sourcePut n kind stream src { sourceOf ((s.tile n).port kind stream).srcs src with
    horizon := h, loose := ((s.tile n).port kind stream).loose } (sourceOf_src _ _)

/-- A merge without sources, or whose tight sources have not all begun, releases nothing. -/
theorem State.portRelease_wait (n kind stream : Nat) (h : let p := (s.tile n).port kind stream
    p.sources = 0 ∨ (p.srcs.length < p.sources ∧ p.loose = false)) : s.portRelease n kind stream = s :=
  if_pos (h.imp_right fun ⟨short, tight⟩ => ⟨short, by simp [tight]⟩)

section
variable {s} {n kind stream : Nat} {p : InPort} (hp : (s.tile n).port kind stream = p) (some_ : 0 < p.sources) (begun : p.sources ≤ p.srcs.length)
include hp some_ begun

theorem State.portRelease_begun : ¬ (((s.tile n).port kind stream).sources = 0 ∨
    (((s.tile n).port kind stream).srcs.length < ((s.tile n).port kind stream).sources ∧ (!((s.tile n).port kind stream).loose) = true)) := by
  subst hp
  omega

/-- The head of the source that the merge picks is released with its mark. -/
theorem State.portRelease_pick (untied : tiedKey (p.srcs.filter fun m => !m.loose) = none) {m : MSource} {i : Item} {rest : List Item}
    (pick : pickSource p.srcs = some m) (hm : m.held = i :: rest) :
    s.PortPut (s.portRelease n kind stream) n kind stream
      { p with srcs := putSource p.srcs { m with held := rest }, released := p.released ++ [markLoose p.srcs i] } := by
  have step : s.portRelease n kind stream = s.modTile n fun x => x.setPort
      { p with srcs := putSource p.srcs { m with held := rest }, released := p.released ++ [markLoose p.srcs i] } := by
    rw [State.portRelease]
    dsimp only
    rw [if_neg (State.portRelease_begun hp some_ begun), hp, untied]
    simp [pick, hm]
  rw [step]
  exact s.portPut n kind stream _ (hp ▸ (Tile.port_kind _ _ _).1) (hp ▸ (Tile.port_kind _ _ _).2)

/-- The tied items are dropped, and their job stops (R72). -/
theorem State.portRelease_tied {k : Key} (tied : tiedKey (p.srcs.filter fun m => !m.loose) = some k) : s.portRelease n kind stream =
    (s.modTile n fun x => x.setPort { p with srcs := p.srcs.map fun m => { m with held := m.held.filter fun i => decide (i.key ≠ k) } }).stopJob (keyId k) 2 k 0 n := by
  rw [State.portRelease]
  dsimp only
  rw [if_neg (State.portRelease_begun hp some_ begun), hp, tied]

end

/-! ### The commands at a lane -/

/-- The merge point of a lane. -/
def lanePoint (d : Fin 2) (adm : Bool) : MergeId := if adm then .admission d else .data d

theorem exec_mergeItemArrive_lane (d : Fin 2) (adm : Bool) (src : Nat) (i : Item) (h : Key) :
    exec (.mergeItemArrive (lanePoint d adm) src (some i) h t) s = .next ((s.at t).laneArrive d adm src i) := by cases adm <;> rfl

theorem exec_mergeItemArrive_laneHorizon (d : Fin 2) (adm : Bool) (src : Nat) (h : Key) :
    exec (.mergeItemArrive (lanePoint d adm) src none h t) s = .next ((s.at t).laneHorizon d adm src h) := by cases adm <;> rfl

theorem exec_horizonArrive_lane (d : Fin 2) (adm : Bool) (src : Nat) (h : Key) :
    exec (.horizonArrive (lanePoint d adm) src h) s = .next (s.laneHorizon d adm src h) := by cases adm <;> rfl

theorem exec_mergeRelease_lane (d : Fin 2) (adm : Bool) : exec (.mergeRelease (lanePoint d adm) t) s = .next ((s.at t).laneRelease d adm) := by
  cases adm <;> rfl

end Sys2Proof.Machine
end

section
/-! SUPPORT. Items and horizons at a merge, and its releases (03 R71 to R75; 04 R108; 05 R139): obligation O36. -/

namespace Sys2Proof.Machine

variable (s : State) (t : Time)

/-! ### At a lane -/

/-- What a horizon at a lane leaves, whichever command brings it. -/
theorem State.laneHorizon_results (v : State) (hv : v.lane = s.lane ∧ v.kept = s.kept ∧ v.tiles = s.tiles ∧ v.resv = s.resv ∧ v.regs = s.regs)
    (d : Fin 2) (adm : Bool) (src : Nat) (h : Key) : let u := v.laneHorizon d adm src h
    (sourceOf (u.lane d adm) src).horizon.toNat = max (sourceOf (s.lane d adm) src).horizon.toNat h.toNat ∧
    (sourceOf (u.lane d adm) src).held = (sourceOf (s.lane d adm) src).held ∧
    (u.lane d (!adm) = s.lane d (!adm) ∧ (∀ k, k ≠ src → sourceOf (u.lane d adm) k = sourceOf (s.lane d adm) k) ∧ u.kept = s.kept ∧ u.tiles = s.tiles ∧ u.resv = s.resv) ∧
    u.regs = s.regs := by
  obtain ⟨lane, kept, tiles, resv, regs⟩ := hv
  obtain ⟨horizon, highest, put⟩ := v.laneHorizon_put d adm src h
  rw [lane] at highest put
  refine ⟨by rw [put.horizon, highest], put.held, ⟨put.otherLane.trans (by rw [lane]), fun k hk => ?_, put.kept.trans kept, put.tiles.trans tiles, put.resv.trans resv⟩,
    put.regs.trans regs⟩
  rw [put.others k hk, lane]

theorem State.at_frame : (s.at t).lane = s.lane ∧ (s.at t).kept = s.kept ∧ (s.at t).tiles = s.tiles ∧ (s.at t).resv = s.resv ∧ (s.at t).regs = s.regs :=
  ⟨by funext j adm; simp, s.at_kept t, by simp, by simp, by simp⟩

/-! ### At an input stream of a tile -/

theorem exec_mergeItemArrive_tile (n : Fin 512) (kind stream src : Nat) (i : Item) (h : Key) (on : s.tileOn n = true) :
    exec (.mergeItemArrive (.tile n kind stream) src (some i) h t) s = .next ((s.at t).portArrive n kind stream src i) := by
  change execMergeItemArrive (.tile n kind stream) src (some i) h t s = _
  simp [execMergeItemArrive, on]

theorem exec_mergeItemArrive_tileOff (n : Fin 512) (kind stream src : Nat) (i : Option Item) (h : Key) (off : s.tileOn n = false) :
    exec (.mergeItemArrive (.tile n kind stream) src i h t) s = .next (s.at t) := by
  change execMergeItemArrive (.tile n kind stream) src i h t s = _
  cases i <;> simp [execMergeItemArrive, off]

theorem exec_horizonArrive_tile (n : Fin 512) (kind stream src : Nat) (h : Key) :
    exec (.horizonArrive (.tile n kind stream) src h) s = .next (if s.tileOn n then s.portHorizon n kind stream src h else s) := rfl

theorem exec_mergeRelease_tile (n : Fin 512) (kind stream : Nat) :
    exec (.mergeRelease (.tile n kind stream) t) s = .next ((s.at t).portRelease n kind stream) := rfl

/-- The streams of a tile are all that its input streams depend on. -/
theorem Tile.port_of_ports {x y : Tile} (h : x.ports = y.ports) (kind stream : Nat) : x.port kind stream = y.port kind stream := by
  unfold Tile.port; rw [h]

/-- A tie drops the tied items of the stream and stops their job (R72). -/
theorem State.portRelease_tied_results {n kind stream : Nat} {p : InPort} (hp : (s.tile n).port kind stream = p) (some_ : 0 < p.sources)
    (begun : p.sources ≤ p.srcs.length) {k : Key} (tied : tiedKey (p.srcs.filter fun m => !m.loose) = some k) :
    (∀ m ∈ (((s.portRelease n kind stream).tile n).port kind stream).srcs, ∀ i ∈ m.held, i.key ≠ k) ∧
      ∀ j, s.job (keyId k) = some j → j.stopped = none → j.running ≠ [] →
        ∃ j', (s.portRelease n kind stream).job (keyId k) = some j' ∧ j'.stopped = some 2 ∧ j'.running = [] := by
  let q : InPort := { p with srcs := p.srcs.map fun m => { m with held := m.held.filter fun i => decide (i.key ≠ k) } }
  have own : p.kind = kind ∧ p.stream = stream := hp ▸ Tile.port_kind (s.tile n) kind stream
  have put : s.PortPut (s.modTile n fun x => x.setPort q) n kind stream q :=
    s.portPut n kind stream q own.1 own.2
  have held : ((s.modTile n fun x => x.setPort q).tile n).ports ≠ [] := by
    rw [State.tile_modTile_same]; exact Tile.setPort_ports_ne_nil _ _
  rw [State.portRelease_tied hp some_ begun tied]
  refine ⟨?_, fun j hj running hr => ⟨_, State.stopJob_job (s.modTile n fun x => x.setPort q) hj running hr 2 k 0 n, rfl, rfl⟩⟩
  rw [Tile.port_of_ports (State.stopJob_ports _ (keyId k) 2 k 0 n n held), put.put]
  intro m hm i hi
  obtain ⟨m', -, rfl⟩ := List.mem_map.mp hm
  exact of_decide_eq_true (List.mem_filter.mp hi).2

/-- Settles O36: horizons, items and releases at the two lanes, and at the input streams of a tile. -/
theorem mergeResults : Obligations.MergeResults := by
  intro s d src h t v src_ others point
  have frame := s.at_frame t
  obtain ⟨lane, kept, tiles, resv, regs⟩ := frame
  refine ⟨fun adm => ⟨?_, ?_⟩, fun adm i => ⟨fun hi => ?_, fun m found loose passed => ?_⟩, fun adm none_ => ?_, fun adm m i rest pick hm => ⟨?_, ?_⟩,
    fun tile kind stream => ?_⟩
  · exact ⟨_, exec_mergeItemArrive_laneHorizon s t d adm src h, s.laneHorizon_results v (s.at_frame t) d adm src h⟩
  · exact ⟨_, exec_horizonArrive_lane s d adm src h, s.laneHorizon_results s ⟨rfl, rfl, rfl, rfl, rfl⟩ d adm src h⟩
  · have put := v.laneArrive_put d adm src i fun ⟨m, found, loose, passed⟩ => by
      have := hi m found
      simp only [loose, Bool.false_eq_true, false_or] at this
      omega
    rw [lane] at put
    refine ⟨_, exec_mergeItemArrive_lane s t d adm src i h, put.held, ⟨put.otherLane.trans (by rw [lane]), fun k hk => ?_, put.kept.trans kept, put.tiles.trans tiles,
      put.resv.trans resv⟩, put.regs.trans regs⟩
    exact (put.others k hk).trans (by rw [lane])
  · refine ⟨_, exec_mergeItemArrive_lane s t d adm src i h, ?_⟩
    rw [v.laneArrive_late d adm src i ⟨m, found, loose, passed⟩]
    cases adm with
    | true => exact ⟨by rw [if_pos rfl, lane], by rw [if_pos rfl, lane], tiles, fun h => absurd h (by decide)⟩
    | false =>
      have reports := v.reported_lateIngress d src i
      have same (adm : Bool) : (v.lateIngress d src i).lane d adm = s.lane d adm := (State.lane_of_ingress reports.ingress d adm).trans (by rw [lane])
      exact ⟨same _, same _, reports.tiles.trans tiles, fun _ => by simpa [v] using v.lateIngress_made d src i⟩
  · exact (exec_mergeRelease_lane s t d adm).trans (by rw [State.laneRelease_none _ _ _ none_])
  · exact head_below_of_pickSource pick hm
  · have out := v.laneReleased d adm m i rest pick hm
    refine ⟨_, exec_mergeRelease_lane s t d adm, out.held, fun k hk => (out.others k hk).trans (by rw [lane]), out.otherLane.trans (by rw [lane]), ?_, ?_⟩
    · have := out.out
      simpa [v] using this
    · exact (State.laneRelease_kept _ _ _).trans kept
  · intro p at_
    refine ⟨fun on => ⟨fun i => ?_, ?_⟩, fun off => ⟨fun i => ?_, ?_⟩, fun hp => ?_, fun some_ begun untied m i rest pick hm => ?_, fun some_ begun k tied => ?_⟩
    · have put := v.portArrive_put tile kind stream src i
      rw [State.at_tile] at put
      exact ⟨_, exec_mergeItemArrive_tile s t tile kind stream src i h on, put.held, fun n hn => (put.otherSources n hn).trans (by rw [State.at_tile]),
        fun n hn => (put.others n hn).trans (s.at_tile t n), put.regs.trans regs, put.kept.trans kept⟩
    · have put := s.portHorizon_put tile kind stream src h
      exact ⟨_, (exec_horizonArrive_tile s tile kind stream src h).trans (by rw [if_pos on]), put.horizon, put.held, put.others, put.regs⟩
    · exact exec_mergeItemArrive_tileOff s t tile kind stream src i h off
    · rw [exec_horizonArrive_tile, off]
      rfl
    · rw [exec_mergeRelease_tile, State.portRelease_wait]
      simpa [p] using hp
    · have put := State.portRelease_pick (s := v) (p := p) (by rw [State.at_tile]) some_ begun untied pick hm
      refine ⟨_, exec_mergeRelease_tile s t tile kind stream, ?_, ?_, fun n hn => (put.others n hn).trans (s.at_tile t n), put.regs.trans regs⟩
      · rw [put.put]
      · have own := congrArg MSource.held (sourceOf_putSource_same p.srcs { m with held := rest })
        exact (congrArg (fun q : InPort => (sourceOf q.srcs m.src).held) put.put).trans own
    · have results := State.portRelease_tied_results v (p := p) (by rw [State.at_tile]) some_ begun tied
      exact ⟨_, exec_mergeRelease_tile s t tile kind stream, results.1, fun j hj => results.2 j (by rw [State.at_job]; exact hj)⟩

end Sys2Proof.Machine
end

section
/-! SUPPORT. Sorting by a number: the sorted list holds the same elements, the least one first. -/

namespace Sys2Proof.Machine

variable {α : Type} (key : α → Nat)

theorem insertBy_perm (x : α) (l : List α) : (insertBy key x l).Perm (x :: l) := by
  induction l with
  | nil => exact .refl _
  | cons y ys ih =>
    unfold insertBy
    split
    · exact .refl _
    · exact (List.Perm.cons y ih).trans (.swap x y ys)

theorem insertBy_pairwise (x : α) (l : List α) (h : l.Pairwise fun a b => key a ≤ key b) : (insertBy key x l).Pairwise fun a b => key a ≤ key b := by
  induction l with
  | nil => exact List.pairwise_singleton _ _
  | cons y ys ih =>
    obtain ⟨least, rest⟩ := List.pairwise_cons.mp h
    unfold insertBy
    split
    next lt =>
      refine List.pairwise_cons.mpr ⟨fun z hz => ?_, h⟩
      rcases List.mem_cons.mp hz with rfl | hz
      · omega
      · exact (Nat.le_of_lt lt).trans (least z hz)
    next ge =>
      refine List.pairwise_cons.mpr ⟨fun z hz => ?_, ih rest⟩
      rcases List.mem_cons.mp ((insertBy_perm key x ys).mem_iff.mp hz) with rfl | hz
      · omega
      · exact least z hz

theorem sortBy_perm (l : List α) : (sortBy key l).Perm l := by
  have all (acc : List α) : (l.foldl (fun acc x => insertBy key x acc) acc).Perm (acc ++ l) := by
    induction l generalizing acc with
    | nil => simp
    | cons x l ih => exact (ih _).trans (((insertBy_perm key x acc).append_right l).trans List.perm_middle.symm)
  exact all []

theorem sortBy_pairwise (l : List α) : (sortBy key l).Pairwise fun a b => key a ≤ key b := by
  have all (acc : List α) (h : acc.Pairwise fun a b => key a ≤ key b) :
      (l.foldl (fun acc x => insertBy key x acc) acc).Pairwise fun a b => key a ≤ key b := by
    induction l generalizing acc with
    | nil => exact h
    | cons x l ih => exact ih _ (insertBy_pairwise key x acc h)
  exact all [] .nil

/-- The first of a sorted list is one of its elements, and none has a smaller key. -/
theorem sortBy_head {l : List α} {x : α} (h : (sortBy key l).head? = some x) : x ∈ l ∧ ∀ y ∈ l, key x ≤ key y := by
  obtain ⟨rest, sorted⟩ := List.head?_eq_some_iff.mp h
  have perm := sorted ▸ sortBy_perm key l
  have order := List.pairwise_cons.mp (sorted ▸ sortBy_pairwise key l)
  refine ⟨perm.mem_iff.mp List.mem_cons_self, fun y hy => ?_⟩
  rcases List.mem_cons.mp (perm.mem_iff.mpr hy) with rfl | hy
  · exact Nat.le_refl _
  · exact order.1 y hy

end Sys2Proof.Machine
end

section
/-! SUPPORT. The closure of an input set (01 R22, R23, R26; 17 R452), and the end of a reservation (11 R304): obligation O41. -/

namespace Sys2Proof.Machine

variable (s : State) (t : Time)

@[simp] theorem State.at_cycles : (s.at t).cycles = s.cycles := by rw [State.at_eq]
@[simp] theorem State.at_cycleAt (st : Stamp) : (s.at t).cycleAt st = s.cycleAt st := by rw [State.at_eq]; rfl
@[simp] theorem State.at_tagSet (c : Cycle) : (s.at t).tagSet c = s.tagSet c := by rw [State.at_eq]; rfl
@[simp] theorem State.at_classStreams (c : Cycle) : (s.at t).classStreams c = s.classStreams c := by rw [State.at_eq]; rfl
@[simp] theorem State.at_imageOf (old : Bool) (slot : Nat) : (s.at t).imageOf old slot = s.imageOf old slot := by rw [State.at_eq]; rfl

/-! ### The closure -/

/-- A change that keeps names reaches the cycle of its name. -/
theorem State.modCycle_cycleAt (st : Stamp) (f : Cycle → Cycle) (hf : ∀ c, (f c).id = c.id) (c : Cycle) (hc : s.cycleAt st = some c) :
    (s.modCycle c.id f).cycleAt st = some (f c) := by
  have cid : c.id = { stamp := st, job := 0 } := by simpa using List.find?_some hc
  have same : ((fun c : Cycle => decide (c.id = { stamp := st, job := 0 })) ∘ fun c' => if decide (c'.id = c.id) then f c' else c') =
      fun c => decide (c.id = { stamp := st, job := 0 }) := by
    funext c'
    by_cases h : c'.id = c.id <;> simp [h, hf]
  rw [State.cycleAt] at hc
  rw [State.cycleAt, State.modCycle, mapIf, List.find?_map, same, hc]
  simp

/-- Every stream of a class gives a frame or counts as absent. -/
theorem length_filterMap_add_absent {α : Type} (l : List (Option α)) : (l.filterMap id).length + (l.filter fun f => f.isNone).length = l.length := by
  induction l with
  | nil => rfl
  | cons x l ih =>
    cases x with
    | none =>
      rw [List.filterMap_cons_none rfl, List.filter_cons_of_pos rfl, List.length_cons, List.length_cons]
      omega
    | some a =>
      rw [List.filterMap_cons_some (f := id) rfl, List.filter_cons_of_neg (by simp), List.length_cons, List.length_cons]
      omega

/-- CAP_A of the entry that a cycle's job runs (R303). -/
def State.tagCap (c : Cycle) : Option Nat :=
  match s.job c.id with
  | some j => ((s.imageOf c.old j.image).bind fun i => i.bound j.entry 1).map EntryBound.capA
  | none => none

/-- The tag records of a window, cut to a cap. -/
def cutTags (cap : Option Nat) (all : List Item) : List Item := match cap with | some n => all.take n | none => all

theorem cutTags_eq_take (cap : Option Nat) (all : List Item) : ∃ n, cutTags cap all = all.take n ∧ ∀ k, cap = some k → n = k := by
  cases cap with
  | none => exact ⟨all.length, List.take_length.symm, fun _ h => nomatch h⟩
  | some n => exact ⟨n, rfl, fun k h => Option.some.inj h⟩

/-- A cycle as the closure of its input set leaves it. -/
structure State.Closed (s : State) (c c' : Cycle) : Prop where
  closed : c'.closed = true
  tags : c'.tags = (cutTags (s.tagCap c) (s.tagSet c)).map fun i => i.key
  digest : c'.digest = inputDigest c'.tags c'.frames c'.absent
  frames : c'.frames.length + c'.absent = (s.classStreams c).length
  verdict : c'.verdict = c.verdict
  commit : c'.commit = c.commit
  deadline : c'.deadline = c.deadline

theorem State.closeSet_cycle (st : Stamp) (c : Cycle) (hc : s.cycleAt st = some c) : ∃ c', (s.closeSet c).cycleAt st = some c' ∧ s.Closed c c' := by
  unfold State.closeSet
  refine ⟨_, State.modCycle_cycleAt _ st _ ?_ c hc, ?_⟩
  · exact fun _ => rfl
  refine ⟨rfl, rfl, rfl, ?_, rfl, rfl, rfl⟩
  dsimp only
  rw [(sortBy_perm _ _).length_eq, List.length_map, length_filterMap_add_absent, List.length_map]

theorem exec_inputSetClosure_none (die : Fin 2) (st : Stamp) (h : s.cycleAt st = none) : exec (.inputSetClosure die st t) s = .next (s.at t) := by
  change execInputSetClosure die st t s = _
  simp [execInputSetClosure, h]

theorem exec_inputSetClosure (die : Fin 2) (st : Stamp) (c : Cycle) (h : s.cycleAt st = some c) : exec (.inputSetClosure die st t) s =
    .next (if c.die ≠ die.val ∨ c.closed = true ∨ (s.at t).time.now < c.closeAt then s.at t else (s.at t).closeSet c) := by
  change execInputSetClosure die st t s = _
  simp [execInputSetClosure, h]

/-! ### The end of a reservation -/

theorem exec_reservationEnd_none (id : JobId) (h : s.job id = none) : exec (.reservationEnd id t) s = .next (s.at t) := by
  change execReservationEnd id t s = _
  simp [execReservationEnd, h]

theorem exec_reservationEnd_early (id : JobId) (j : Job) (h : s.job id = some j) (early : (s.at t).time.now < j.end_) :
    exec (.reservationEnd id t) s = .next (s.at t) := by
  change execReservationEnd id t s = _
  simp [execReservationEnd, h, early]

/-- Why a job that still runs stops when its reservation ends (R304). -/
def State.endReason (j : Job) : Nat := if j.excepted then 1 else if s.jobStalled j then 7 else 8

/-- The stop of a job whose reservation has ended, with the flags of dies whose tiles all wait. -/
def State.endStop (id : JobId) (j : Job) : State :=
  (if j.excepted = false ∧ s.jobStalled j = true then j.ergs.foldl (fun s k => s.flowFlag k 5) s else s).stopJob id (s.endReason j) 0 0 j.die

theorem exec_reservationEnd (id : JobId) (j : Job) (h : s.job id = some j) (due : j.end_ ≤ (s.at t).time.now) :
    exec (.reservationEnd id t) s = .next (let u := (s.at t).modJob id fun j => { j with reserved := false }
      if j.running = [] ∨ j.stopped ≠ none then u else u.endStop id j) := by
  change execReservationEnd id t s = _
  have early : ¬ (s.at t).time.now < j.end_ := Nat.not_lt.mpr due
  simp only [execReservationEnd, State.at_job, h, if_neg early, State.endStop, State.endReason, Option.isSome_iff_ne_none]
  cases j.excepted <;> cases State.jobStalled _ j <;> simp

/-- The job as its stop leaves it. -/
theorem State.endStop_job (id : JobId) (j j₀ : Job) (hj : s.job id = some j₀) (hs : j₀.stopped = none) (hr : j₀.running ≠ []) :
    (s.endStop id j).job id = some { j₀ with stopped := some (s.endReason j), running := [], void := j₀.stopVoid (s.endReason j) } := by
  have flags : s.Reported (if j.excepted = false ∧ s.jobStalled j = true then j.ergs.foldl (fun s k => s.flowFlag k 5) s else s) :=
    .ite (State.reported_foldl _ (fun s k => s.reported_flowFlag k 5) _ s) (.refl s)
  exact State.stopJob_job _ ((State.job_of_jobs flags.jobs id).trans hj) hs hr _ _ _ _

/-- A command that keeps the kept part leaves it in its next state. -/
theorem OutcomeKeeps.next {k : Kept} {o : Host.Outcome State Fault Refusal} {u : State} (h : OutcomeKeeps k o) (step : o = .next u) : u.kept = k := by
  rw [step] at h; exact h

/-- Settles O41: the closure and the end of a reservation, each before it is due, and once it is. -/
theorem closureAndEndResults : Obligations.ClosureAndEndResults := by
  intro s die st t v
  refine ⟨exec_inputSetClosure_none s t die st, fun c hc early => ?_, fun c hc die_ open_ due => ?_, exec_reservationEnd_none s t,
    fun id j hj => ⟨exec_reservationEnd_early s t id j hj, fun due => ?_⟩⟩
  · rw [exec_inputSetClosure s t die st c hc, if_pos early]
  · have now : ¬ (c.die ≠ die.val ∨ c.closed = true ∨ v.time.now < c.closeAt) := by
      rw [open_]; simp [die_, due]
    obtain ⟨c', hc', closed⟩ := v.closeSet_cycle st c (by rw [State.at_cycleAt]; exact hc)
    refine ⟨_, c', (exec_inputSetClosure s t die st c hc).trans (by rw [if_neg now]), hc', closed.closed, ?_, closed.digest, ?_, closed.verdict, closed.commit,
      closed.deadline, ?_, ?_, ?_⟩
    · obtain ⟨n, cut, cap⟩ := cutTags_eq_take (v.tagCap c) (v.tagSet c)
      refine ⟨n, by rw [closed.tags, cut, State.at_tagSet], fun j im e hj him he => ?_⟩
      have capped : v.tagCap c = some e.capA := by simp [State.tagCap, v, hj, him, he]
      rw [closed.tags, cut, cap _ capped, List.length_map, List.length_take]
      exact Nat.min_le_left _ _
    · rw [closed.frames, State.at_classStreams]
    · exact s.at_tiles t
    · exact s.at_regs t
    · exact (State.closeSet_kept _ _).trans (s.at_kept t)
  · have step := exec_reservationEnd s t id j hj due
    have ended := State.modJob_job v id (fun j => { j with reserved := false }) (fun _ => rfl) j (by rw [State.at_job]; exact hj)
    have kept := (execReservationEnd_keeps id t s).next step
    dsimp only at step kept
    by_cases idle : j.running = [] ∨ j.stopped ≠ none
    · rw [if_pos idle] at step kept
      exact ⟨_, _, step, ended, rfl, kept, fun _ => ⟨rfl, s.at_tiles t⟩, fun hr hs => absurd idle (by simp [hr, hs])⟩
    · rw [if_neg idle] at step kept
      obtain ⟨hr, hs⟩ : j.running ≠ [] ∧ j.stopped = none := by simpa using idle
      refine ⟨_, _, step, State.endStop_job _ id j _ ended hs hr, rfl, kept, fun h => absurd h idle, fun _ _ => ⟨rfl, rfl⟩⟩

end Sys2Proof.Machine
end

section
/-! SUPPORT. Register words through records, exceptions and memory errors (21 R564, R568, R574, R581). -/

namespace Sys2Proof.Machine

variable (s : State)

theorem State.setFlag_reg_ne (a b x : Nat) (h : x ≠ a) : (s.setFlag a b).reg x = s.reg x := s.reg_setReg_ne _ _ _ h

theorem State.countByte_reg_ne (a n x : Nat) (h : x ≠ a + 4 * (n / 4)) : (s.countByte a n).reg x = s.reg x := s.reg_setReg_ne _ _ _ h

theorem State.count32_reg_ne (a k x : Nat) (h : x ≠ a) : (s.count32 a k).reg x = s.reg x := s.reg_setReg_ne _ _ _ h

theorem State.signal_reg (v x : Nat) : (s.signal v).reg x = s.reg x := congrArg (mget regReset · x) (s.signal_recorded v).regs

/-- A record touches no register word but the index of the fault store. -/
theorem State.makeRecord_reg (die sev : Nat) (key : Option Key) (bytes : List Byte) (x : Nat) (h : x ≠ 0x5010) :
    (s.makeRecord die sev key bytes).reg x = s.reg x := by
  have sent (irq : Bool) : (s.recordSent die key bytes irq).reg x = s.reg x := rfl
  have stored (u : State) : (u.recordStored bytes).reg x = u.reg x := State.reg_setReg_ne _ _ _ _ h
  rw [State.makeRecord_eq]
  dsimp only
  split_ifs <;> simp only [State.signal_reg, stored, sent]

/-- The counters of void masks lie in the words of MESA_GV. -/
theorem State.countVoid_reg (void x : Nat) (h80 : x ≠ 0x80) (h84 : x ≠ 0x84) : (s.countVoid void).reg x = s.reg x := by
  have flags : ((List.range 4).foldl (fun s b => if void.testBit b then s.gvFlag b else s) s).reg x = s.reg x :=
    State.foldl_preserves (fun u => u.reg x) _ (fun u b => by split; exacts [u.setFlag_reg_ne _ _ _ h80, rfl]) _ s
  unfold State.countVoid
  dsimp only
  split
  · exact flags
  · exact (State.count32_reg_ne _ _ _ _ h84).trans flags

@[simp] theorem State.reg_modJob (id : JobId) (f : Job → Job) (x : Nat) : (s.modJob id f).reg x = s.reg x := rfl
@[simp] theorem State.reg_modTile (n : Nat) (f : Tile → Tile) (x : Nat) : (s.modTile n f).reg x = s.reg x := rfl

/-- An exception other than a poisoned fetch leaves the job's other tiles (R575). -/
theorem State.excAt_other (n : Nat) (c : Core) (cause : Nat) (h : cause ≠ 9) : s.excAt n c cause = s.raiseExc n c cause := by
  rw [State.excAt]
  exact if_neg h

/-- A tile that an exception leaves holds no core, and its cause is in its register (R217, R219). -/
theorem State.raiseExc_core (n : Nat) (c : Core) (cause : Nat) : ((s.raiseExc n c cause).tile n).core = none := by
  unfold State.raiseExc
  exact congrArg Tile.core (State.tile_modTile_same _ n fun x => { x with core := none })

/-- The words that a flag of a tile touches: TILE_STS and its counters (R148). -/
theorem State.tileFlag_reg (n b x : Nat) (sts : x ≠ tileBase n + 0x0C) (counter : x ≠ tileBase n + 0x10 + 4 * (b / 4)) : (s.tileFlag n b).reg x = s.reg x :=
  (State.countByte_reg_ne _ _ _ _ counter).trans (s.setFlag_reg_ne _ _ _ sts)

theorem State.raiseExc_cause (n : Nat) (c : Core) (cause : Nat) : (s.raiseExc n c cause).reg (tileBase n + 0x1C) = BitVec.ofNat 32 cause := by
  have high : 0x800000 ≤ tileBase n := by unfold tileBase; omega
  unfold State.raiseExc
  dsimp only
  rw [State.reg_modJob, State.reg_modTile, State.countVoid_reg _ _ _ (by omega) (by omega), State.makeRecord_reg _ _ _ _ _ _ (by omega),
    State.tileFlag_reg _ _ _ _ (by omega) (by omega), State.reg_setReg_ne _ _ _ _ (by omega), State.reg_setReg_same]

end Sys2Proof.Machine
end

section
/-! SUPPORT. Events of a tile (05 R136, R148; 08 R200 to R203, R216; 21 R574): obligation O39. -/

namespace Sys2Proof.Machine

variable (s : State) (t : Time)

@[simp] theorem State.at_imemSize (n : Nat) : (s.at t).imemSize n = s.imemSize n := by rw [State.at_eq]; rfl
@[simp] theorem State.at_tileLeeBusy (n : Nat) : (s.at t).tileLeeBusy n = s.tileLeeBusy n := by rw [State.at_eq]; rfl
@[simp] theorem State.at_leeHalf (n : Nat) : (s.at t).leeHalf n = s.leeHalf n := by rw [State.at_eq]; rfl
@[simp] theorem State.at_crestHalf (n : Nat) : (s.at t).crestHalf n = s.crestHalf n := by rw [State.at_eq]; rfl
@[simp] theorem State.at_row (d : Nat) : (s.at t).row d = s.row d := by rw [State.at_eq]; rfl

/-! ### The start of a job (R200 to R203) -/

/-- The tile is free, and it and its row take jobs. -/
def State.takesJob (n : Nat) : Bool := (s.tile n).core.isNone && decide ((s.tile n).flight = []) && s.tileOn n && (s.row (rowDom n)).ready

/-- The waiting start message with the smallest key. -/
def Tile.firstStart (x : Tile) : Option StartMsg := (sortBy (fun m : StartMsg => m.key.toNat) x.starts).head?

theorem exec_jobStart_none (n : Fin 512) (h : (s.tile n).firstStart = none) : exec (.jobStart n t) s = .next (s.at t) := by
  rw [Tile.firstStart] at h
  change execJobStart n t s = _
  simp [execJobStart, h]

/-- The first message waits for its cycle to close and for the tile. -/
theorem exec_jobStart_some (n : Fin 512) (m : StartMsg) (first : (s.tile n).firstStart = some m) : exec (.jobStart n t) s =
    .next (if (∃ c ∈ s.cycles, c.id = m.id ∧ c.closed = false) ∨ s.takesJob n = false then s.at t else (s.at t).startJob n m) := by
  rw [Tile.firstStart] at first
  change execJobStart n t s = _
  simp only [execJobStart, State.at_tile, first, State.at_cycles, State.at_tileOn, State.at_row]
  refine congrArg Host.Outcome.next (if_congr ?_ rfl rfl)
  exact or_congr (by simp) (by simp [State.takesJob, Bool.and_eq_false_iff, or_assoc, -Bool.and_eq_false_imp])

theorem exec_jobStart_busy (n : Fin 512) (h : s.takesJob n = false) : exec (.jobStart n t) s = .next (s.at t) := by
  cases first : (s.tile n).firstStart with
  | none => exact exec_jobStart_none s t n first
  | some m => rw [exec_jobStart_some s t n m first, if_pos (.inr h)]

theorem exec_jobStart (n : Fin 512) (m : StartMsg) (first : (s.tile n).firstStart = some m) (free : s.takesJob n = true)
    (closed : ∀ c ∈ s.cycles, c.id = m.id → c.closed = true) : exec (.jobStart n t) s = .next ((s.at t).startJob n m) := by
  have go : ¬ ((∃ c ∈ s.cycles, c.id = m.id ∧ c.closed = false) ∨ s.takesJob n = false) := by
    rintro (⟨c, hc, hm, open_⟩ | busy)
    · rw [closed c hc hm] at open_; exact absurd open_ (by decide)
    · rw [free] at busy; exact absurd busy (by decide)
  rw [exec_jobStart_some s t n m first, if_neg go]

/-- The entry pc that a start finds lies in the instruction memory, on a word (R201, R202). -/
def State.entryOk (n : Nat) (c : Core) : Prop := c.pc % 4 = 0 ∧ 0x800 ≤ c.pc ∧ c.pc < s.imemSize n

/-- The tile with its new core, and the mark of a job that is profiled. -/
def State.coreStarted (n : Nat) (m : StartMsg) : State :=
  let u := s.modTile n fun x => { x with core := some (s.startCore n m), starts := x.starts.erase m, abuf := [], abufPoison := [], valid := 0, plane := none }
  if (s.startCore n m).profile then u.mark m.id 2 else u

theorem State.coreStarted_imemSize (n k : Nat) (m : StartMsg) : (s.coreStarted n m).imemSize k = s.imemSize k := by
  unfold State.coreStarted
  dsimp only
  split <;> rfl

theorem State.startJob_eq (n : Nat) (m : StartMsg) : s.startJob n m =
    if (s.startCore n m).pc % 4 ≠ 0 ∨ (s.startCore n m).pc < 0x800 ∨ s.imemSize n ≤ (s.startCore n m).pc
      then (s.coreStarted n m).excAt n (s.startCore n m) 7 else s.coreStarted n m := by
  rw [← s.coreStarted_imemSize n n m]
  rfl

/-- A started tile runs the new core over an empty buffer; the other tiles, the registers and the reservoir are as before. -/
structure State.Started (s u : State) (n : Nat) (m : StartMsg) : Prop where
  core : (u.tile n).core = some (s.startCore n m)
  abuf : (u.tile n).abuf = []
  valid : (u.tile n).valid = 0
  starts : (u.tile n).starts = (s.tile n).starts.erase m
  halves : (u.tile n).halves = (s.tile n).halves
  others : ∀ k, k ≠ n → u.tile k = s.tile k
  regs : u.regs = s.regs
  resv : u.resv = s.resv

theorem State.coreStarted_started (n : Nat) (m : StartMsg) : s.Started (s.coreStarted n m) n m := by
  have tile (k : Nat) : (s.coreStarted n m).tile k = if k = n then
      { s.tile n with core := some (s.startCore n m), starts := (s.tile n).starts.erase m, abuf := [], abufPoison := [], valid := 0, plane := none }
      else s.tile k := by
    refine Eq.trans ?_ (s.tile_modTile n k fun x => { x with
      core := some (s.startCore n m), starts := x.starts.erase m, abuf := [], abufPoison := [], valid := 0, plane := none })
    unfold State.coreStarted
    dsimp only
    split <;> rfl
  have own := tile n
  rw [if_pos rfl] at own
  constructor
  case others => exact fun k hk => by rw [tile, if_neg hk]
  case regs => unfold State.coreStarted; dsimp only; split <;> rfl
  case resv => unfold State.coreStarted; dsimp only; split <;> rfl
  all_goals rw [own]

theorem State.startJob_ok (n : Nat) (m : StartMsg) (h : s.entryOk n (s.startCore n m)) : s.startJob n m = s.coreStarted n m := by
  obtain ⟨aligned, low, high⟩ := h
  rw [State.startJob_eq, if_neg (by omega)]

theorem State.startJob_bad (n : Nat) (m : StartMsg) (h : (s.startCore n m).pc % 4 ≠ 0 ∨ (s.startCore n m).pc < 0x800 ∨ s.imemSize n ≤ (s.startCore n m).pc) :
    s.startJob n m = (s.coreStarted n m).raiseExc n (s.startCore n m) 7 := by
  rw [State.startJob_eq, if_pos h]
  exact State.excAt_other _ n _ 7 (by decide)

/-! ### Engines, the scrubber, the patrol (R136, R216, R574) -/

theorem exec_engineOpComplete (n : Fin 512) (e : Fin 5) : exec (.engineOpComplete n e) s =
    .next (s.modTile n fun x => { x with flight := dropFirst (fun f => decide (f.engine = e.val)) x.flight }) := rfl

/-- The scrubber of a tile that is in service reads lines. -/
def State.scrubs (n : Nat) : Bool := s.tileOn n && (s.reg (tileBase n + 4)).getLsbD 1 && (s.row (rowDom n)).ready

theorem exec_scrubRead_off (n : Fin 512) (hits : List EccHit) (h : s.scrubs n = false) : exec (.scrubRead n hits t) s = .next (s.at t) := by
  change execScrubRead n hits t s = _
  have off : !s.tileOn n ∨ !(s.reg (tileBase n + 4)).getLsbD 1 ∨ !(s.row (rowDom n)).ready := by
    simpa [State.scrubs, Bool.and_eq_false_iff, or_assoc, -Bool.and_eq_false_imp] using h
  simp only [execScrubRead, State.at_tileOn, State.at_reg, State.at_row, bit, if_pos off]

/-- A line without errors. -/
theorem exec_scrubRead_clean (n : Fin 512) (h : s.scrubs n = true) : exec (.scrubRead n [] t) s =
    .next (let u := (s.at t).modTile n fun x => { x with scrub := ((s.tile n).scrub + 1) % 49152 }
      if (s.tile n).scrub = 49151 then u.setReg (tileBase n + 0x34) (s.reg (tileBase n + 0x34) + 1) else u) := by
  change execScrubRead n [] t s = _
  obtain ⟨⟨on, enabled⟩, ready⟩ : (s.tileOn n = true ∧ (s.reg (tileBase n + 4)).getLsbD 1 = true) ∧ (s.row (rowDom n)).ready = true := by
    simpa [State.scrubs] using h
  simp [execScrubRead, bit, on, enabled, ready]

theorem exec_reservoirPatrol_clean (k : Fin 8) : exec (.reservoirPatrol k [] t) s = .next (s.at t) := by
  change execReservoirPatrol k [] t s = _
  simp [execReservoirPatrol]

theorem exec_reservoirPatrol_dead (k : Fin 8) (hits : List EccHit) (h : s.stackLive k = false) : exec (.reservoirPatrol k hits t) s = .next (s.at t) := by
  have dead : (s.at t).stackLive k = false := by rw [State.at_eq]; exact h
  change execReservoirPatrol k hits t s = _
  simp [execReservoirPatrol, dead]

/-- An error that the patrol meets on a live stack. -/
theorem exec_reservoirPatrol_hit (k : Fin 8) (e : EccHit) (live : s.stackLive k = true) (store : e.store = 5) (stack : s.stackOf e.addr = some k.val) :
    exec (.reservoirPatrol k [e] t) s = .next ((s.at t).resvErr ((s.at t).serving ((s.at t).stackDie k)) e.addr e.ue 0) := by
  have live' : (s.at t).stackLive k = true := by rw [State.at_eq]; exact live
  have stack' : (s.at t).stackOf e.addr = some k.val := by rw [State.at_eq]; exact stack
  change execReservoirPatrol k [e] t s = _
  simp [execReservoirPatrol, live', store, stack']

@[simp] theorem State.faultFlag_logs (b : Nat) : (s.faultFlag b).logs = s.logs := by
  rw [State.faultFlag, State.countByte_logs, State.setFlag_logs]

theorem State.faultSeen_logs (sev : Nat) : (s.faultSeen sev).logs = s.logs := by
  unfold State.faultSeen
  split <;> simp

theorem State.enterLimpAll_logs : s.enterLimpAll.logs = s.logs :=
  State.foldl_preserves State.logs _ (fun u p => by unfold State.sendReg; split <;> [split; skip] <;> rfl) _ s

theorem State.enterSafe_made : s.enterSafe.logs.made = s.logs.made := by
  unfold State.enterSafe
  dsimp only
  split_ifs <;> [rw [State.enterLimpAll_logs]; rfl; rfl]

/-- A fault of any severity is one record. -/
theorem State.fault_made (die : Nat) (key : Option Key) (f : FaultInfo) : (s.fault die key f).logs.made.length = s.logs.made.length + 1 := by
  have seen (l : Logs) (bytes : List Byte) : ((State.makeRecord { s with logs := l } die f.sev key bytes).faultSeen f.sev).logs.made.length = l.made.length + 1 := by
    rw [State.faultSeen_logs, State.makeRecord_made]
  unfold State.fault
  dsimp only
  split
  · rw [State.enterSafe_made, seen]
  · exact seen _ _

/-- An uncorrectable error poisons its word and makes one record. -/
theorem State.resvErr_ue (die addr : Nat) (st : Stamp) : let u := s.resvErr die addr true st
    mget clean u.resv.poison (addr / 8) = true ∧ u.resv.mem = s.resv.mem ∧ u.logs.made.length = s.logs.made.length + 1 := by
  unfold State.resvErr
  simp only [if_true]
  rw [(State.reported_fault _ _ _ _).resv, State.fault_made]
  dsimp only
  exact ⟨mget_mset_same _ _ _ _, rfl, rfl⟩

theorem State.faultSeen_corrected : ((s.faultSeen 1).reg 0x5000).getLsbD 0 = true := by
  have word : (s.faultSeen 1).reg 0x5000 = s.reg 0x5000 ||| oneBit 0 :=
    (State.countByte_reg_ne (s.setFlag 0x5000 0) 0x5004 0 0x5000 (by decide)).trans (State.reg_setReg_same _ _ _)
  rw [word, BitVec.getLsbD_or, show (oneBit 0).getLsbD 0 = true from rfl, Bool.or_true]

theorem State.fault_corrected (die : Nat) (key : Option Key) (f : FaultInfo) (h : f.sev = 1) : ((s.fault die key f).reg 0x5000).getLsbD 0 = true := by
  unfold State.fault
  dsimp only
  rw [h, if_neg (by decide)]
  exact State.faultSeen_corrected _

/-- A corrected one raises its flag. -/
theorem State.resvErr_ce (die addr : Nat) (st : Stamp) : let u := s.resvErr die addr false st
    u.resv = s.resv ∧ (u.reg 0x5000).getLsbD 0 = true := by
  unfold State.resvErr
  simp only [Bool.false_eq_true, if_false]
  refine ⟨(s.reported_faultThrottled _ _ _).resv, ?_⟩
  unfold State.faultThrottled
  split
  · exact State.fault_corrected _ _ _ _ rfl
  · exact State.faultSeen_corrected s

/-! ### The codebook window (R148) -/

/-- A stored T13 code depends on its low 13 bits. -/
theorem t13Store_mod (v : Nat) : t13Store (v % 0x2000) = t13Store v := by
  have nan : bitsOf (v % 0x2000) 11 7 = bitsOf v 11 7 := by
    unfold bitsOf
    rw [Nat.shiftRight_eq_div_pow, Nat.shiftRight_eq_div_pow]
    omega
  unfold t13Store
  rw [nan, Nat.mod_mod]

theorem Tile.half_setHalf (x : Tile) (h : Nat) (b : TileBank) : (x.setHalf h b).half h = b := by
  unfold Tile.setHalf Tile.half
  split <;> simp

/-- The other half is as before. -/
theorem Tile.half_setHalf_other (x : Tile) (h k : Nat) (b : TileBank) (hk : h = 0 ↔ k ≠ 0) : (x.setHalf h b).half k = x.half k := by
  unfold Tile.setHalf Tile.half
  split <;> split <;> simp_all

theorem exec_tileCbWrite_off (n : Fin 512) (off : Nat) (w : Word) (h : s.tileOn n = false) :
    exec (.tileCbWrite n off w t) s = .next ((s.at t).absentAccess (n / 128)) := by
  change execTileCbWrite n off w t s = _
  simp [execTileCbWrite, h]

theorem State.ergLive_of_tileOn (n : Nat) (h : s.tileOn n = true) : s.ergLive (n / 128) = true := (Bool.and_eq_true_iff.mp h).2

theorem exec_tileCbWrite (n : Fin 512) (off : Nat) (w : Word) (aligned : off % 4 = 0) (low : 0x400 ≤ off) (high : off < 0xC00) (on : s.tileOn n = true) :
    exec (.tileCbWrite n off w t) s = .next ((s.at t).cbWrite n ((off - 0x400) % 0x400 / 4) w) := by
  have live : (s.at t).ergLive (n / 128) = true := State.ergLive_of_tileOn _ n (by rw [State.at_tileOn]; exact on)
  have inside : ¬ (off % 4 ≠ 0 ∨ off < 0x400 ∨ 0xC00 ≤ off) := by omega
  change execTileCbWrite n off w t s = _
  simp only [execTileCbWrite, live, State.at_tileOn, on, if_neg inside]
  rfl

theorem State.wakeRow_awake (d : Nat) (h : (s.row d).state = 0) : s.wakeRow d = s := if_pos (.inl h)

/-- A write that lee takes: the row is awake, and keeps out of A3 from now on. -/
theorem State.cbWrite_free (n j : Nat) (w : Word) (unlocked : s.leeShut = false) (idle : s.tileLeeBusy n = false) :
    s.cbWrite n j w = (s.setRow (rowDom n) { s.row (rowDom n) with noA3 := true }).cbWord n j w := by
  have row : (s.setRow (rowDom n) { s.row (rowDom n) with noA3 := true }).row (rowDom n) = { s.row (rowDom n) with noA3 := true } := mget_mset_same _ _ _ _
  have ready : (s.row (rowDom n)).ready = true := by
    simp only [State.tileLeeBusy, Bool.or_eq_false_iff, Bool.not_eq_false'] at idle
    exact idle.1.2
  have awake : (s.row (rowDom n)).state = 0 := by
    simp only [Row.ready, Bool.and_eq_true, decide_eq_true_eq] at ready
    exact ready.1.1
  have busy : (s.setRow (rowDom n) { s.row (rowDom n) with noA3 := true }).tileLeeBusy n = false := by
    rw [← idle, State.tileLeeBusy, row]
    rfl
  rw [State.cbWrite, unlocked, if_neg (by decide)]
  dsimp only
  rw [State.wakeRow_awake _ _ (by rw [row]; exact awake), busy]
  rfl

theorem State.crestHalf_lt (n : Nat) : s.crestHalf n < 2 := by
  unfold State.crestHalf
  rw [fld_eq]
  exact Nat.mod_lt _ (by decide)

theorem TileBank.setCb_cb (b : TileBank) (i k v : Nat) : mget (fun _ => 0) (b.setCb i v).cb k = if k = i then t13Store v else mget (fun _ => 0) b.cb k :=
  mget_mset _ _ _ _ _

theorem State.cbWord_tile (n j : Nat) (w : Word) : (s.cbWord n j w).tile n =
    (s.tile n).setHalf (s.leeHalf n) ((((s.tile n).half (s.leeHalf n)).setCb (2 * j) (fld w 12 0)).setCb (2 * j + 1) (fld w 28 16)) :=
  (show ∀ u : State, (u.expectLee n).tile n = u.tile n from fun _ => rfl) _ |>.trans (State.tile_modTile_same _ _ _)

/-- Both codes of a word land in lee, and crest is as before (R148, R151). -/
theorem State.cbWord_half (n j : Nat) (w : Word) : let u := s.cbWord n j w
    mget (fun _ => 0) ((u.tile n).half (s.leeHalf n)).cb (2 * j) = t13Store (w.toNat % 65536) ∧
      mget (fun _ => 0) ((u.tile n).half (s.leeHalf n)).cb (2 * j + 1) = t13Store (w.toNat / 65536) ∧
      (u.tile n).half (s.crestHalf n) = (s.tile n).half (s.crestHalf n) := by
  have low : t13Store (fld w 12 0) = t13Store (w.toNat % 65536) := by
    rw [← t13Store_mod (w.toNat % 65536), Nat.mod_mod_of_dvd _ (by decide), fld_eq]
    simp
  have high : t13Store (fld w 28 16) = t13Store (w.toNat / 65536) := by
    rw [← t13Store_mod (w.toNat / 65536), fld_eq]
    simp
  dsimp only
  rw [State.cbWord_tile, Tile.half_setHalf, TileBank.setCb_cb, TileBank.setCb_cb, TileBank.setCb_cb]
  refine ⟨by rw [if_neg (by omega), if_pos rfl, low], by rw [if_pos rfl, high], Tile.half_setHalf_other _ _ _ _ ?_⟩
  have := s.crestHalf_lt n
  unfold State.leeHalf
  omega

/-- Settles O39: job starts, engine operations, the scrubber, the patrol and the codebook window. -/
theorem tileEventResults : Obligations.TileEventResults := by
  intro s n t v x
  refine ⟨fun h => ?_, fun h => ?_, fun m first core flight on ready closed => ?_, fun e => ?_, fun on enabled ready => ?_, fun hits h => ?_,
    fun k e => ⟨exec_reservoirPatrol_clean s t k, fun live store stack ue => ?_, fun live store stack ce => ?_, exec_reservoirPatrol_dead s t k [e]⟩,
    fun off w aligned low high on unlocked idle => ?_, fun off w h => exec_tileCbWrite_off s t n off w h⟩
  · exact exec_jobStart_none s t n (by rw [Tile.firstStart, h]; rfl)
  · refine exec_jobStart_busy s t n (Bool.eq_false_iff.mpr fun free => ?_)
    obtain ⟨⟨⟨free_, idle⟩, on⟩, ready⟩ : (((s.tile n).core = none ∧ (s.tile n).flight = []) ∧ s.tileOn n = true) ∧ (s.row (rowDom n)).ready = true := by
      simpa [State.takesJob] using free
    simp [x, free_, idle, on, ready] at h
  · have free : s.takesJob n = true := by
      rw [State.takesJob, core, flight, on, ready]; rfl
    intro c
    obtain ⟨waiting, least⟩ := sortBy_head _ first
    have step := exec_jobStart s t n m first free closed
    have kept := (execJobStart_keeps n t s).next step
    have started := v.coreStarted_started n m
    refine ⟨waiting, least, rfl, fun r hr => ?_, rfl, rfl, rfl, fun aligned low high => ?_, fun bad => ?_⟩
    · have other : 1 ≠ r.val := by omega
      simp [c, State.startCore, other]
    · rw [State.startJob_ok v n m ⟨aligned, low, by rwa [State.at_imemSize]⟩] at step kept
      exact ⟨_, step, started.core, started.abuf, started.valid, started.starts.trans (by rw [State.at_tile]), started.halves.trans (by rw [State.at_tile]),
        fun k hk => (started.others k hk).trans (s.at_tile t k), started.regs.trans (s.at_regs t), started.resv.trans (s.at_resv t), kept⟩
    · rw [State.startJob_bad v n m (by rwa [State.at_imemSize])] at step
      exact ⟨_, step, State.raiseExc_core _ _ _ _, State.raiseExc_cause _ _ _ _⟩
  · exact ⟨_, exec_engineOpComplete s n e, by simp [x], fun k hk => by rw [State.tile_modTile, if_neg hk], by simp [x], by simp [x], rfl⟩
  · have scrubs : s.scrubs n = true := by simp [State.scrubs, on, enabled, ready]
    have step := exec_scrubRead_clean s t n scrubs
    dsimp only at step
    have tile (u : State) (hu : u.tiles = (v.modTile n fun x => { x with scrub := ((s.tile n).scrub + 1) % 49152 }).tiles) (k : Nat) :
        u.tile k = if k = n then { s.tile n with scrub := ((s.tile n).scrub + 1) % 49152 } else s.tile k := by
      rw [State.tile_of_tiles hu, State.tile_modTile, State.at_tile, State.at_tile]
    have scrubbed (u : State) (hu : u.tiles = (v.modTile n fun x => { x with scrub := ((s.tile n).scrub + 1) % 49152 }).tiles) :
        (u.tile n).scrub = (x.scrub + 1) % 49152 ∧ (u.tile n).halves = x.halves ∧ (u.tile n).core = x.core ∧ ∀ k, k ≠ n.val → u.tile k = s.tile k := by
      refine ⟨?_, ?_, ?_, fun k hk => by rw [tile u hu, if_neg hk]⟩ <;> rw [tile u hu, if_pos rfl]
    by_cases last : (s.tile n).scrub = 49151
    · rw [if_pos last] at step
      obtain ⟨line, halves, core, others⟩ := scrubbed _ rfl
      refine ⟨_, step, line, halves, core, others, ?_, fun a ha => ?_, State.at_resv s t⟩
      · rw [if_pos last, State.reg_setReg_same]
      · rw [State.reg_setReg_ne _ _ _ _ ha, State.reg_modTile, State.at_reg]
    · rw [if_neg last] at step
      obtain ⟨line, halves, core, others⟩ := scrubbed _ rfl
      exact ⟨_, step, line, halves, core, others, by rw [if_neg last, State.reg_modTile, State.at_reg], fun a _ => by rw [State.reg_modTile, State.at_reg], State.at_resv s t⟩
  · refine exec_scrubRead_off s t n hits (Bool.eq_false_iff.mpr fun scrubs => ?_)
    obtain ⟨⟨on, enabled⟩, ready⟩ : (s.tileOn n = true ∧ (s.reg (tileBase n + 4)).getLsbD 1 = true) ∧ (s.row (rowDom n)).ready = true := by
      simpa [State.scrubs] using scrubs
    simp only [on, enabled, ready, Bool.true_eq_false, or_self] at h
  · have step := exec_reservoirPatrol_hit s t k e live store stack
    rw [ue] at step
    obtain ⟨poisoned, mem, made⟩ := State.resvErr_ue v (v.serving (v.stackDie k)) e.addr 0
    exact ⟨_, step, poisoned, mem.trans (by rw [State.at_resv]), made.trans (by rw [State.at_logs])⟩
  · have step := exec_reservoirPatrol_hit s t k e live store stack
    rw [ce] at step
    obtain ⟨resv, flag⟩ := State.resvErr_ce v (v.serving (v.stackDie k)) e.addr 0
    exact ⟨_, step, resv.trans (s.at_resv t), flag⟩
  · have step := exec_tileCbWrite s t n off w aligned low high on
    have kept := (execTileCbWrite_keeps n off w t s).next step
    intro i
    rw [State.cbWrite_free _ _ _ _ (by rwa [State.at_leeShut]) (by rwa [State.at_tileLeeBusy])] at step kept
    obtain ⟨even, odd, crest⟩ := State.cbWord_half ((s.at t).setRow (rowDom n) { (s.at t).row (rowDom n) with noA3 := true }) n i w
    have lee : State.leeHalf ((s.at t).setRow (rowDom n) { (s.at t).row (rowDom n) with noA3 := true }) n = s.leeHalf n := s.at_leeHalf t n
    have top : State.crestHalf ((s.at t).setRow (rowDom n) { (s.at t).row (rowDom n) with noA3 := true }) n = s.crestHalf n := s.at_crestHalf t n
    rw [lee] at even odd
    rw [top] at crest
    exact ⟨_, step, even, odd, crest.trans (congrArg (fun y : Tile => y.half (s.crestHalf n)) (s.at_tile t n)), kept⟩

end Sys2Proof.Machine
end

section
/-! SUPPORT. What admission asks and what it changes (17 R438 to R442): the tests of a replica, the words that a read finds poisoned, the job that begins. -/

namespace Sys2Proof.Machine

variable (s : State)

/-! ### The tests of R439 -/

/-- What fits: the first allowed replica that is free, once every test holds. -/
theorem State.fitting_eq_some {w : Want} {r : Nat} (h : s.fitting w = some r) : w.replicas.find? (fun r => s.replicaFree w r) = some r ∧
    s.admitShut = false ∧ s.unit.unlocked = false ∧ w.image.unbound = false ∧ w.inTime = true ∧ s.shortLinks w = [] ∧ s.clockOk w r = true ∧ s.budgetOk w = true ∧
    s.tableUsed < 1024 := by
  unfold State.fitting at h
  split at h
  · exact nomatch h
  · next r' found =>
    split at h
    · exact nomatch h
    · next tests =>
      obtain rfl : r' = r := Option.some.inj h
      simp only [not_or, Bool.not_eq_true, Bool.not_eq_false', not_not, not_le] at tests
      exact ⟨found, tests⟩

/-- The first of the allowed replicas that passes a test. -/
theorem Want.replicas_find? {w : Want} {p : Nat → Bool} {r : Nat} (h : w.replicas.find? p = some r) :
    r < w.entry.replicas ∧ w.mask.testBit r = true ∧ p r = true ∧ ∀ q, q < r → w.mask.testBit q = true → p q = false := by
  rw [Want.replicas, List.find?_filter, List.find?_range_eq_some] at h
  obtain ⟨passes, bound, before⟩ := h
  obtain ⟨allowed, free⟩ : w.mask.testBit r = true ∧ p r = true := by simpa using passes
  exact ⟨List.mem_range.mp bound, allowed, free, fun q hq mq => by simpa [mq] using before q hq⟩

/-- A free replica shares no tile with a reservation that overlaps its interval (R302). -/
theorem State.replicaFree_tiles {w : Want} {r : Nat} (h : s.replicaFree w r = true) (j : Job) (hj : j ∈ s.jobs) (held : j.reserved = true) (begins : j.start < w.end_)
    (ends : w.start < j.end_) : ∀ q ∈ j.tiles, q ∉ w.entry.tiles r := by
  unfold State.replicaFree at h
  simp only [Bool.and_eq_true] at h
  obtain ⟨⟨⟨-, tiles⟩, -⟩, -⟩ := h
  have overlaps : j ∈ s.reserved w.start w.end_ := List.mem_filter.mpr ⟨hj, by simp [held, begins, ends]⟩
  simpa using List.all_eq_true.mp tiles j overlaps

/-- What fits has passed every test of R439. -/
theorem State.fitting_tests {w : Want} {r : Nat} (fits : s.fitting w = some r) :
    r < w.entry.replicas ∧ w.mask.testBit r = true ∧ s.replicaFree w r = true ∧ (∀ q, q < r → w.mask.testBit q = true → s.replicaFree w q = false) ∧
      s.timeRuns = true ∧ s.logs.safe = false ∧ s.unit.unlocked = false ∧ w.image.unbound = false ∧ w.inTime = true ∧ s.shortLinks w = [] ∧ s.clockOk w r = true ∧
      s.budgetOk w = true ∧ s.tableUsed < 1024 ∧ ∀ j ∈ s.jobs, j.reserved = true → j.start < w.end_ → w.start < j.end_ → ∀ q ∈ j.tiles, q ∉ w.entry.tiles r := by
  obtain ⟨found, shut, unlocked, unbound, inTime, links, clock, budget, table⟩ := s.fitting_eq_some fits
  obtain ⟨index, allowed, free, before⟩ := Want.replicas_find? found
  obtain ⟨⟨runs, safe⟩, -⟩ : (s.timeRuns = true ∧ s.logs.safe = false) ∧ s.unit.phase = .running := by simpa [State.admitShut] using shut
  exact ⟨index, allowed, free, before, runs, safe, unlocked, unbound, inTime, links, clock, budget, table, s.replicaFree_tiles free⟩

/-! ### Reads of the crest or the retiring bank (R574, R575) -/

/-- `u` is `s` but for reports and the words found poisoned. -/
def State.RwlRead (s u : State) : Prop := { u with regs := s.regs, logs := s.logs, link := s.link, ports := s.ports, crestBad := s.crestBad, leeBad := s.leeBad, oldBad := s.oldBad } = s

variable {s} in
theorem State.Reported.rwlRead {u : State} (h : s.Reported u) : s.RwlRead u :=
  (congrArg (fun x : State => { x with crestBad := s.crestBad, leeBad := s.leeBad, oldBad := s.oldBad }) h :)

variable {s} in
theorem State.RwlRead.trans {u w : State} (h : s.RwlRead u) (h' : u.RwlRead w) : s.RwlRead w :=
  (congrArg (fun x : State => { x with regs := s.regs, logs := s.logs, link := s.link, ports := s.ports, crestBad := s.crestBad, leeBad := s.leeBad, oldBad := s.oldBad }) h' :).trans h

/-- The words of a bank that an error poisons. -/
def State.poisonWord (bank a : Nat) : State :=
  match bank with
  | 0 => { s with crestBad := mset clean s.crestBad a true }
  | 1 => { s with leeBad := mset clean s.leeBad a true }
  | _ => { s with oldBad := mset clean s.oldBad a true }

theorem State.poisonWord_rwlRead (bank a : Nat) : s.RwlRead (s.poisonWord bank a) := by
  unfold State.poisonWord
  split <;> rfl

variable {s} in
theorem State.RwlRead.bankOf {u : State} (h : s.RwlRead u) (j : Nat) (old : Bool) : u.bankOf j old = s.bankOf j old := (congrArg (fun x : State => x.bankOf j old) h :)

/-- The word that work reads is poisoned in the bank that it reads. -/
theorem State.bankBad_eq (j : Nat) (old : Bool) (a : Nat) : s.bankBad j old a = if s.bankOf j old = 2 then mget clean s.oldBad a else mget clean s.crestBad a := by
  have held : s.old.toList.getD j none = s.old[j]?.getD none := by simp [List.getD]
  unfold State.bankBad State.bankOf
  rw [held]
  cases old with
  | false => rfl
  | true =>
    rcases s.old[j]? with _ | _ | m <;> rfl

theorem State.poisonWord_crestBad (bank a : Nat) : (s.poisonWord bank a).crestBad = if bank = 0 then mset clean s.crestBad a true else s.crestBad := by
  rcases bank with _ | _ | bank <;> rfl

theorem State.poisonWord_oldBad (bank a : Nat) : (s.poisonWord bank a).oldBad = if 2 ≤ bank then mset clean s.oldBad a true else s.oldBad := by
  rcases bank with _ | _ | bank
  · rfl
  · rfl
  · exact (if_pos (Nat.le_add_left 2 bank)).symm

/-- A poisoned word stays so, and the word of an error joins it. -/
theorem mget_poison {p : Prop} [Decidable p] (m : SMap Bool) (a x : Nat) (h : mget clean m x = true ∨ p ∧ x = a) :
    mget clean (if p then mset clean m a true else m) x = true := by
  split
  next here =>
    rw [mget_mset]
    split
    · rfl
    next other => exact h.resolve_right fun h => other h.2
  next elsewhere => exact h.resolve_right fun h => elsewhere h.1

theorem State.poisonWord_bad (bank a x : Nat) (j : Nat) (old : Bool) (h : s.bankBad j old x = true ∨ bank = s.bankOf j old ∧ x = a) :
    (s.poisonWord bank a).bankBad j old x = true := by
  rw [State.bankBad_eq] at h
  rw [State.bankBad_eq, (s.poisonWord_rwlRead bank a).bankOf, State.poisonWord_crestBad, State.poisonWord_oldBad]
  by_cases retiring : s.bankOf j old = 2
  · rw [if_pos retiring] at h ⊢
    exact mget_poison _ _ _ (h.imp_right fun ⟨eq, addr⟩ => ⟨by omega, addr⟩)
  · have crest : s.bankOf j old = 0 := by
      unfold State.bankOf at retiring ⊢
      exact if_neg fun h => retiring (if_pos h)
    rw [if_neg retiring] at h ⊢
    exact mget_poison _ _ _ (h.imp_right fun ⟨eq, addr⟩ => ⟨eq.trans crest, addr⟩)

variable {s} in
theorem State.Reported.bankBad {u : State} (h : s.Reported u) (j : Nat) (old : Bool) (a : Nat) : u.bankBad j old a = s.bankBad j old a :=
  (congrArg (fun x : State => x.bankBad j old a) h :)

theorem State.rwlError_ue (bank a : Nat) : s.rwlError bank a true =
    (s.poisonWord bank a).fault (leeDie a) none { cls := 0x0011, sev := 2, kind := 2, index := leeDie a, addr := a, detail := 6 } := by
  unfold State.rwlError
  dsimp only
  rw [if_neg (by decide)]
  rfl

/-- An error found in a word: reports, and with an uncorrectable one the word is poisoned. -/
theorem State.rwlError_reported (bank a : Nat) (ue : Bool) : (if ue then s.poisonWord bank a else s).Reported (s.rwlError bank a ue) := by
  cases ue with
  | false => exact s.reported_faultThrottled _ _ _
  | true =>
    rw [if_pos rfl, State.rwlError_ue]
    exact State.reported_fault _ _ _ _

theorem State.rwlReads_rwlRead (bank : Nat) (reads : Nat → Bool) (hits : List EccHit) : s.RwlRead (s.rwlReads bank reads hits) := by
  unfold State.rwlReads
  induction hits generalizing s with
  | nil => rfl
  | cons e rest ih =>
    rw [List.foldl_cons]
    refine State.RwlRead.trans ?_ (ih _)
    split
    · refine State.RwlRead.trans ?_ (s.rwlError_reported bank e.addr e.ue).rwlRead
      split
      · exact s.poisonWord_rwlRead _ _
      · rfl
    · rfl

/-- A word found poisoned in the bank that work reads is poisoned from then on (R575). -/
theorem State.rwlReads_bad (j : Nat) (old : Bool) (reads : Nat → Bool) (hits : List EccHit) (x : Nat)
    (h : s.bankBad j old x = true ∨ ∃ e ∈ hits, e.store = 6 ∧ e.ue = true ∧ e.addr % 4 = 0 ∧ reads e.addr = true ∧ e.addr = x) :
    (s.rwlReads (s.bankOf j old) reads hits).bankBad j old x = true := by
  unfold State.rwlReads
  generalize bank_eq : s.bankOf j old = bank
  induction hits generalizing s with
  | nil => simpa using h
  | cons e rest ih =>
    rw [List.foldl_cons]
    split
    next read =>
      have error := s.rwlError_reported bank e.addr e.ue
      refine ih _ ?_ ?_
      · by_cases found : s.bankBad j old x = true ∨ e.ue = true ∧ e.addr = x
        · refine .inl (error.bankBad j old x |>.trans ?_)
          split
          next ue => exact s.poisonWord_bad _ _ _ _ _ (found.imp_right fun f => ⟨bank_eq.symm, f.2.symm⟩)
          next ce => exact found.resolve_right fun f => ce f.1
        · obtain ⟨clean_, none_⟩ := not_or.mp found
          obtain ⟨e', mem, store, ue, aligned, inside, addr⟩ := h.resolve_left clean_
          rcases List.mem_cons.mp mem with rfl | mem
          · exact absurd ⟨ue, addr⟩ none_
          · exact .inr ⟨e', mem, store, ue, aligned, inside, addr⟩
      · refine (error.rwlRead.bankOf j old).trans ?_
        split
        · exact ((s.poisonWord_rwlRead _ _).bankOf j old).trans bank_eq
        · exact bank_eq
    next skipped =>
      refine ih s (h.imp_right fun ⟨e', mem, store, ue, aligned, inside, addr⟩ => ?_) bank_eq
      rcases List.mem_cons.mp mem with rfl | mem
      · exact absurd ⟨store, aligned, inside⟩ skipped
      · exact ⟨e', mem, store, ue, aligned, inside, addr⟩

/-- A class with a word found poisoned counts as absent (R575). -/
theorem State.classWord_poisoned (die cls : Nat) (old : Bool) (hits : List EccHit) (k : Nat)
    (h : ∃ e ∈ hits, e.store = 6 ∧ e.ue = true ∧ e.addr % 4 = 0 ∧ classRead die cls e.addr = true) :
    (s.rwlReads (s.bankOf die old) (classRead die cls) hits).classWord die cls old k = 0 := by
  obtain ⟨e, mem, store, ue, aligned, inside⟩ := h
  have bad := s.rwlReads_bad die old (classRead die cls) hits e.addr (.inr ⟨e, mem, store, ue, aligned, inside, rfl⟩)
  obtain ⟨-, low, high⟩ := of_decide_eq_true inside
  unfold State.classWord State.entryWord
  refine if_pos (List.any_eq_true.mpr ⟨(e.addr - (mesaBase die + 0x100 + 0x40 * cls)) / 4, List.mem_range.mpr (by omega), ?_⟩)
  have word : mesaBase die + 0x100 + 0x40 * cls + 4 * ((e.addr - (mesaBase die + 0x100 + 0x40 * cls)) / 4) = e.addr := by
    unfold mesaBase at low ⊢
    omega
  rwa [word]

end Sys2Proof.Machine
end

section
/-! SUPPORT. The job that admission begins (08 R200; 17 R441): its entry, its start messages, the messages and cycles beside it. -/

namespace Sys2Proof.Machine

variable (s : State)

/-! ### Reports of admission -/

/-- The flags of a job that does not fit: its class's reservations, then its replica's clock and the table (17). -/
def State.missBudget (w : Want) : State :=
  let u := s.setFlag 0x400000 0
  if u.budgetOk w then u else u.setFlag 0x400000 3
def State.missReplica (w : Want) : State :=
  match w.replicas.find? fun r => s.replicaFree w r with
  | some r =>
    let u := if s.clockOk w r then s else s.setFlag 0x400000 4
    if 1024 ≤ u.tableUsed ∧ u.clockOk w r ∧ u.budgetOk w ∧ w.inTime ∧ u.shortLinks w = [] then u.setFlag 0x400000 2 else u
  | none => s

theorem State.reported_missBudget (w : Want) : s.Reported (s.missBudget w) :=
  have first := s.reported_setFlag 0x400000 0
  .ite first (first.trans (State.reported_setFlag _ _ _))

theorem State.reported_missReplica (w : Want) : s.Reported (s.missReplica w) := by
  have clock (r : Nat) : s.Reported (if s.clockOk w r then s else s.setFlag 0x400000 4) := .ite (.refl s) (s.reported_setFlag _ _)
  unfold State.missReplica
  split
  · exact .ite ((clock _).trans (State.reported_setFlag _ _ _)) (clock _)
  · exact .refl s

/-- The refusals of links (R119). -/
def State.missLink (n : Nat) : State :=
  s.setReg (linkAcctAddr n) (setFld (s.reg (linkAcctAddr n)) 31 16 (satAdd 0xFFFF (fld (s.reg (linkAcctAddr n)) 31 16) 1))

theorem State.noteMiss_eq (w : Want) : s.noteMiss w =
    let u := (s.missBudget w).missReplica w
    (u.shortLinks w).foldl State.missLink u := rfl

theorem State.reported_noteMiss (w : Want) : s.Reported (s.noteMiss w) := by
  rw [State.noteMiss_eq]
  exact ((s.reported_missBudget w).trans (State.reported_missReplica _ w)).trans (State.reported_foldl _ (fun u n => u.reported_setReg _ _) _ _)

/-- A request that does not fit leaves its flags (17). -/
def State.missNoted (w : Want) : State := if s.replaying ∨ (s.fitting w).isSome then s else s.noteMiss w

theorem State.reported_missNoted (w : Want) : s.Reported (s.missNoted w) := .ite (.refl s) (s.reported_noteMiss w)

/-! ### The tiles of a job that starts -/

/-- The start message of a job for one tile, whose row wakes (R200, R339). -/
def State.startTile (m : StartMsg) (t : Nat) : State := (s.modTile t fun x => { x with starts := x.starts ++ [m] }).wakeRow (rowDom t)

/-- Waking a row changes the power unit alone. -/
theorem State.wakeRow_power (d : Nat) : { s.wakeRow d with power := s.power } = s := by
  unfold State.wakeRow
  dsimp only
  split <;> rfl

theorem State.startTile_unit (m : StartMsg) (t : Nat) : { s.startTile m t with power := s.power, tiles := s.tiles } = s :=
  (congrArg (fun u : State => { u with tiles := s.tiles }) (State.wakeRow_power (s.modTile t fun x => { x with starts := x.starts ++ [m] }) (rowDom t)) :)

theorem State.startTile_starts (m : StartMsg) (t n : Nat) :
    ((s.startTile m t).tile n).starts = if n = t then (s.tile n).starts ++ [m] else (s.tile n).starts := by
  have tiles : (s.startTile m t).tiles = (s.modTile t fun x => { x with starts := x.starts ++ [m] }).tiles := (congrArg State.tiles (State.wakeRow_power _ _) :)
  rw [State.tile_of_tiles tiles, State.tile_modTile]
  split
  next eq => rw [eq]
  next => rfl

/-- A list of tiles gets its start messages: each of them one, and what waited still waits. -/
theorem State.startTile_foldl (m : StartMsg) (l : List Nat) (n : Nat) (m' : StartMsg) (h : m' ∈ (s.tile n).starts ∨ m' = m ∧ n ∈ l) :
    m' ∈ ((l.foldl (fun u t => u.startTile m t) s).tile n).starts := by
  induction l generalizing s with
  | nil => simpa using h
  | cons t rest ih =>
    rw [List.foldl_cons]
    refine ih _ ?_
    rw [State.startTile_starts]
    rcases h with waits | ⟨rfl, mem⟩
    · left
      split
      · exact List.mem_append_left _ waits
      · exact waits
    · rcases List.mem_cons.mp mem with rfl | mem
      · left; simp
      · exact .inr ⟨rfl, mem⟩

/-- The start message of a job (R200). -/
def Job.startMsg (j : Job) : StartMsg := { id := j.id, admitted := j.admitted, image := j.image, entry := j.entry, key := mkKey j.id 0 0 }

theorem State.startTiles_eq {j : Job} (h : s.job j.id = some j) :
    s.startTiles j.id = j.tiles.foldl (fun u t => u.startTile j.startMsg t) (s.modJob j.id fun j => { j with unstarted := false }) := by
  unfold State.startTiles
  rw [h]
  rfl

/-! ### The job that begins -/

/-- The reservation, the binding messages and the pending event, before the tiles start. -/
def State.entered (j : Job) (c : Option Cycle) : State :=
  let u : State := { s with jobs := s.jobs ++ [j] }
  let u := if j.admitted then (u.count32 0x400008 1).notePeak else u.setFlag 0x400000 1
  let u := u.liveErgs.foldl (fun u k => u.inject (u.bindMsg j k)) u
  match c with | some c => { u with cycles := u.cycles ++ [c] } | none => u

theorem State.beginJob_eq (j : Job) (c : Option Cycle) : s.beginJob j c = if j.unstarted then s.entered j c else (s.entered j c).startTiles j.id := by
  cases c <;> rfl

/-- A job that begins is the last of the jobs, its pending event the last of the cycles; beside them registers and messages change. -/
theorem State.entered_eq (j : Job) (c : Option Cycle) :
    ∃ regs net, s.entered j c = { s with jobs := s.jobs ++ [j], cycles := s.cycles ++ c.toList, regs, net } := by
  have bound (u : State) : { u.liveErgs.foldl (fun u k => u.inject (u.bindMsg j k)) u with net := u.net } = u :=
    State.foldl_preserves (fun x : State => { x with net := u.net }) (fun u k => u.inject (u.bindMsg j k)) (fun _ _ => rfl) _ u
  have reserved (u : State) : { (if j.admitted then (u.count32 0x400008 1).notePeak else u.setFlag 0x400000 1) with regs := u.regs } = u := by
    split <;> rfl
  let w : State := { s with jobs := s.jobs ++ [j] }
  let u : State := if j.admitted then (w.count32 0x400008 1).notePeak else w.setFlag 0x400000 1
  let x : State := u.liveErgs.foldl (fun u k => u.inject (u.bindMsg j k)) u
  have first : u = { w with regs := u.regs } := (congrArg (fun y : State => { y with regs := u.regs }) (reserved w) :)
  have second : x = { u with net := x.net } := (congrArg (fun y : State => { y with net := x.net }) (bound u) :)
  have both : x = { w with regs := u.regs, net := x.net } := second.trans (congrArg (fun y : State => { y with net := x.net }) first)
  cases c with
  | none => exact ⟨u.regs, x.net, both.trans (by rw [Option.toList_none, List.append_nil])⟩
  | some c => exact ⟨u.regs, x.net, congrArg (fun y : State => { y with cycles := y.cycles ++ [c] }) both⟩

/-- What has begun: the job the last one, its pending event the last one, a start message for each of its tiles. -/
structure State.Began (s u : State) (j : Job) (c : Option Cycle) : Prop where
  jobs : u.jobs = s.jobs ++ [j]
  cycles : u.cycles = s.cycles ++ c.toList
  starts : ∀ n ∈ j.tiles, j.startMsg ∈ (u.tile n).starts
  ingress : u.ingress = s.ingress
  submits : u.submits = s.submits
  resv : u.resv = s.resv

theorem State.beginJob_began (j : Job) (c : Option Cycle) (started : j.unstarted = false) (fresh : ∀ j' ∈ s.jobs, j'.id ≠ j.id) :
    s.Began (s.beginJob j c) j c := by
  obtain ⟨regs, net, entered⟩ := s.entered_eq j c
  have absent : s.jobs.find? (fun j' => decide (j'.id = j.id)) = none := List.find?_eq_none.mpr fun j' hj => by simpa using fresh j' hj
  have found : (s.entered j c).job j.id = some j := by
    rw [entered, State.job, List.find?_append, absent]
    simp
  have others : s.jobs.map (fun j' => if decide (j'.id = j.id) then { j' with unstarted := false } else j') = s.jobs :=
    (List.map_congr_left fun j' hj => if_neg (by simpa using fresh j' hj)).trans (List.map_id s.jobs)
  rw [State.beginJob_eq, started, if_neg Bool.false_ne_true, State.startTiles_eq _ found]
  have unit (u : State) := State.foldl_preserves (fun x : State => { x with power := u.power, tiles := u.tiles }) (fun x t => x.startTile j.startMsg t)
    (fun x t => congrArg (fun y : State => { y with power := u.power, tiles := u.tiles }) (x.startTile_unit j.startMsg t)) j.tiles u
  have left := unit ((s.entered j c).modJob j.id fun j => { j with unstarted := false })
  refine ⟨(congrArg State.jobs left :).trans ?_, (congrArg State.cycles left :).trans ?_, fun n hn => State.startTile_foldl _ _ _ _ _ (.inr ⟨rfl, hn⟩),
    (congrArg State.ingress left :).trans ?_, (congrArg State.submits left :).trans ?_, (congrArg State.resv left :).trans ?_⟩
  · have same : { j with unstarted := false } = j := by rw [← started]
    rw [State.modJob, entered, mapIf, List.map_append, others]
    simp [same]
  all_goals
    rw [entered]
    rfl

/-- The job of a request that is admitted on a replica (R438, R441). -/
theorem Want.job_admitted (w : Want) (r : Nat) (unstarted : Bool) : let j := w.job r true unstarted none
    j.id = w.id ∧ j.admitted = true ∧ j.reserved = true ∧ j.tiles = w.entry.tiles r ∧ j.start = w.start ∧ j.end_ = w.end_ ∧ j.stopped = none := by
  dsimp only [Want.job]
  exact ⟨rfl, rfl, rfl, rfl, rfl, rfl, rfl⟩

/-- A step that admits a request: one job more, which holds the replica's tiles over the interval; nothing of the reservoir changes (R438, R441). -/
def State.Admitted (s u : State) (w : Want) (r : Nat) : Prop :=
  (∃ j, u.jobs = s.jobs ++ [j] ∧ j.id = w.id ∧ j.admitted = true ∧ j.reserved = true ∧ j.tiles = w.entry.tiles r ∧ j.start = w.start ∧ j.end_ = w.end_ ∧ j.stopped = none) ∧
    u.resv = s.resv ∧ u.kept = s.kept

theorem State.admitted_of_jobs {s u : State} {w : Want} {r : Nat} {unstarted : Bool} (jobs : u.jobs = s.jobs ++ [w.job r true unstarted none]) (resv : u.resv = s.resv)
    (kept : u.kept = s.kept) : s.Admitted u w r := ⟨⟨_, jobs, w.job_admitted r unstarted⟩, resv, kept⟩

end Sys2Proof.Machine
end

section
/-! SUPPORT. A final verdict (01 R29, R35, R40; 17 R449, R455, R459, R510): the default action, the records and the solenoid banks leave the jobs and every verdict that was final. -/

namespace Sys2Proof.Machine

/-- What the work of cycles leaves: the jobs and the lanes, every cycle under its name, every verdict that was final. -/
structure State.CycleRun (s u : State) : Prop where
  jobs : u.jobs = s.jobs
  ingress : u.ingress = s.ingress
  cycle : ∀ id c, s.cycle id = some c → ∃ c', u.cycle id = some c' ∧ c'.admitted = c.admitted ∧ ∀ V, c.verdict = some V → c'.verdict = some V

variable {s u w : State}

theorem State.CycleRun.refl (s : State) : s.CycleRun s := ⟨rfl, rfl, fun _ c hc => ⟨c, hc, rfl, fun _ h => h⟩⟩

theorem State.CycleRun.trans (h : s.CycleRun u) (h' : u.CycleRun w) : s.CycleRun w where
  jobs := h'.jobs.trans h.jobs
  ingress := h'.ingress.trans h.ingress
  cycle id c hc := by
    obtain ⟨c₁, found₁, admitted₁, verdict₁⟩ := h.cycle id c hc
    obtain ⟨c₂, found₂, admitted₂, verdict₂⟩ := h'.cycle id c₁ found₁
    exact ⟨c₂, found₂, admitted₂.trans admitted₁, fun V hV => verdict₂ V (verdict₁ V hV)⟩

theorem State.Reported.cycleRun (h : s.Reported u) : s.CycleRun u where
  jobs := h.jobs
  ingress := h.ingress
  cycle id c hc := ⟨c, (congrArg (fun x : State => x.cycle id) h :).trans hc, rfl, fun _ h => h⟩

variable (s)

/-- A change that keeps names reaches the cycle of its name and no other. -/
theorem State.modCycle_cycle (id id' : JobId) (f : Cycle → Cycle) (hf : ∀ c, (f c).id = c.id) :
    (s.modCycle id f).cycle id' = if id' = id then (s.cycle id').map f else s.cycle id' := by
  have same : ((fun c : Cycle => decide (c.id = id')) ∘ fun c => if decide (c.id = id) then f c else c) = fun c => decide (c.id = id') := by
    funext c
    by_cases h : c.id = id <;> simp [h, hf]
  rw [State.cycle, State.modCycle, mapIf, List.find?_map, same, State.cycle]
  cases found : s.cycles.find? fun c => decide (c.id = id') with
  | none => simp
  | some c =>
    have cid : c.id = id' := by simpa using List.find?_some found
    by_cases h : id' = id <;> simp [cid, h]

/-- A change of a cycle that keeps its name, its admission and its verdict. -/
theorem State.modCycle_run (id : JobId) (f : Cycle → Cycle) (name : ∀ c, (f c).id = c.id) (admitted : ∀ c, (f c).admitted = c.admitted)
    (verdict : ∀ c, (f c).verdict = c.verdict) : s.CycleRun (s.modCycle id f) where
  jobs := rfl
  ingress := rfl
  cycle id' c hc := by
    rw [State.modCycle_cycle _ _ _ _ name, hc]
    split
    · exact ⟨f c, rfl, admitted c, fun V hV => (verdict c).trans hV⟩
    · exact ⟨c, rfl, rfl, fun V hV => hV⟩

theorem State.reported_actFlag (j b : Nat) : s.Reported (s.actFlag j b) := s.reported_setFlag _ _

/-- The flag of a verdict (17). -/
def State.verdictFlagged (die verdict : Nat) : State := match verdictFlag verdict with | some b => s.actFlag die b | none => s

theorem State.reported_verdictFlagged (die verdict : Nat) : s.Reported (s.verdictFlagged die verdict) := by
  unfold State.verdictFlagged
  split
  · exact s.reported_actFlag _ _
  · exact .refl s

theorem State.decision_eq (c : Cycle) (n verdict reason : Nat) (ev : List Byte) : ∃ bytes, s.decision c n verdict reason ev =
    let u := (((s.makeRecord c.die 0 (some (keyOf c.id.stamp (0xFFFFFFF0 + min n 15))) bytes).countVoid (c.void ||| s.voidOf c.id)).count32
      (mesaBase c.die + 0x40010 + 4 * verdict) 1).verdictFlagged c.die verdict
    if reason = 0x0A then u.actFlag c.die 7 else u := ⟨_, rfl⟩

theorem State.reported_decision (c : Cycle) (n verdict reason : Nat) (ev : List Byte) : s.Reported (s.decision c n verdict reason ev) := by
  obtain ⟨bytes, eq⟩ := s.decision_eq c n verdict reason ev
  rw [eq]
  have record := ((s.reported_makeRecord c.die 0 (some (keyOf c.id.stamp (0xFFFFFFF0 + min n 15))) bytes).trans
    (State.reported_countVoid _ (c.void ||| s.voidOf c.id))).trans (State.reported_count32 _ (mesaBase c.die + 0x40010 + 4 * verdict) 1)
  have flagged := record.trans (State.reported_verdictFlagged _ c.die verdict)
  exact .ite (flagged.trans (State.reported_actFlag _ _ _)) flagged

theorem State.sendEvent_run (id : JobId) (die : Nat) (e : ActEvent) : s.CycleRun (s.sendEvent id die e) := (s.reported_setPort _ _).cycleRun

/-- A default action that its cycle sends, or holds for its bank's turn. -/
def State.sendDefault (c : Cycle) (direct : Bool) (e : ActEvent) : State :=
  let u := s.modCycle c.id fun c => { c with dfltSent := true, dflt := e }
  if e.kind = 1 ∧ !direct then u.modCycle c.id fun c => { c with queued := some e } else u.sendEvent c.id c.die e

theorem State.sendDefault_run (c : Cycle) (direct : Bool) (e : ActEvent) : s.CycleRun (s.sendDefault c direct e) := by
  have sent : s.CycleRun (s.modCycle c.id fun c => { c with dfltSent := true, dflt := e }) :=
    s.modCycle_run _ _ (fun _ => rfl) (fun _ => rfl) fun _ => rfl
  unfold State.sendDefault
  dsimp only
  split
  · exact sent.trans (State.modCycle_run _ _ _ (fun _ => rfl) (fun _ => rfl) fun _ => rfl)
  · exact sent.trans (State.sendEvent_run _ _ _ _)

theorem State.runDefault_eq (c : Cycle) (skip : Option Nat) (direct : Bool) : s.runDefault c skip direct =
    if c.dflt.action = 0 ∨ c.dfltSent ∨ c.dfltNotSent then s
    else if skip = some c.dflt.chip ∨ (s.chipCheck c.id.stamp c.dflt.chip c.dflt.kind c.dflt.index).isSome ∨ (!s.replaying ∧ !(s.port c.dflt.chip).up) then
      s.modCycle c.id fun c => { c with dfltNotSent := true }
    else s.sendDefault c direct (if direct ∧ c.dflt.fire < s.time.now + 2000 then { c.dflt with fire := s.time.now + 2000 } else c.dflt) := rfl

theorem State.runDefault_run (c : Cycle) (skip : Option Nat) (direct : Bool) : s.CycleRun (s.runDefault c skip direct) := by
  rw [State.runDefault_eq]
  split
  · exact .refl s
  · split
    · exact s.modCycle_run _ _ (fun _ => rfl) (fun _ => rfl) fun _ => rfl
    · exact s.sendDefault_run _ _ _

/-! ### Verdicts -/

/-- The verdict of a cycle, before its record. -/
def State.verdictSet (id : JobId) (verdict reason : Nat) : State := s.modCycle id fun c => { c with verdict := some (verdict, reason), recorded := true }

/-- The record of a cycle's verdict. -/
def State.verdictRecorded (id : JobId) (verdict reason : Nat) : State :=
  match s.cycle id with
  | none => s
  | some c => s.decision c 0 verdict reason (c.recordEvent verdict)

theorem State.reported_verdictRecorded (id : JobId) (verdict reason : Nat) : s.Reported (s.verdictRecorded id verdict reason) := by
  unfold State.verdictRecorded
  split
  · exact .refl s
  · exact s.reported_decision _ _ _ _ _

theorem State.finish_open {id : JobId} {c : Cycle} (hc : s.cycle id = some c) (open_ : c.verdict = none) (verdict reason : Nat) (skip : Option Nat) (direct : Bool) :
    s.finish id verdict reason skip direct =
      ((if verdict = 1 then s else s.runDefault c skip direct).verdictSet id verdict reason).verdictRecorded id verdict reason := by
  unfold State.finish
  rw [hc]
  dsimp only
  rw [open_]
  rfl

/-- The verdict that becomes final; every other cycle is left as the default action leaves it. -/
theorem State.finish_verdict {id : JobId} {c : Cycle} (hc : s.cycle id = some c) (open_ : c.verdict = none) (verdict reason : Nat) (skip : Option Nat) (direct : Bool) :
    s.CycleRun (s.finish id verdict reason skip direct) ∧
      ∃ c', (s.finish id verdict reason skip direct).cycle id = some c' ∧ c'.admitted = c.admitted ∧ c'.verdict = some (verdict, reason) := by
  have sent : s.CycleRun (if verdict = 1 then s else s.runDefault c skip direct) := by
    split
    · exact .refl s
    · exact s.runDefault_run _ _ _
  rw [s.finish_open hc open_]
  generalize (if verdict = 1 then s else s.runDefault c skip direct) = u at sent ⊢
  have recorded := (u.verdictSet id verdict reason).reported_verdictRecorded id verdict reason
  have set_ (id' : JobId) : (u.verdictSet id verdict reason).cycle id' = _ := u.modCycle_cycle id id' _ fun _ => rfl
  have placed : s.CycleRun (u.verdictSet id verdict reason) := by
    refine ⟨sent.jobs, sent.ingress, fun id' c₀ found => ?_⟩
    obtain ⟨c₁, found₁, admitted₁, verdict₁⟩ := sent.cycle id' c₀ found
    rw [set_]
    split
    next same =>
      obtain rfl : c = c₀ := Option.some.inj (hc.symm.trans (same ▸ found))
      exact ⟨_, congrArg _ found₁, admitted₁, fun V hV => nomatch open_.symm.trans hV⟩
    next other => exact ⟨c₁, found₁, admitted₁, verdict₁⟩
  refine ⟨placed.trans recorded.cycleRun, ?_⟩
  obtain ⟨c₁, found₁, admitted₁, -⟩ := sent.cycle id c hc
  have found : (u.verdictSet id verdict reason).cycle id = some { c₁ with verdict := some (verdict, reason), recorded := true } := by
    rw [set_, if_pos rfl, found₁]
    rfl
  obtain ⟨c₂, found₂, admitted₂, verdict₂⟩ := recorded.cycleRun.cycle id _ found
  exact ⟨c₂, found₂, admitted₂.trans admitted₁, verdict₂ _ rfl⟩

theorem State.finish_run (id : JobId) (verdict reason : Nat) (skip : Option Nat) (direct : Bool) : s.CycleRun (s.finish id verdict reason skip direct) := by
  cases hc : s.cycle id with
  | none =>
    have same : s.finish id verdict reason skip direct = s := by unfold State.finish; rw [hc]
    rw [same]
    exact .refl s
  | some c =>
    cases open_ : c.verdict with
    | none => exact (s.finish_verdict hc open_ verdict reason skip direct).1
    | some V =>
      have same : s.finish id verdict reason skip direct = s := by
        unfold State.finish
        rw [hc]
        exact if_pos (by rw [open_]; rfl)
      rw [same]
      exact .refl s

/-! ### Events that are lost, and the turns of the solenoid banks -/

theorem State.append_run (id : JobId) (verdict reason : Nat) (ev : ActEvent) (skip : Option Nat) : s.CycleRun (s.append id verdict reason ev skip) := by
  unfold State.append
  split
  · exact .refl s
  · next c hc =>
    have sent : s.CycleRun (if ev.flags = 0 then s.runDefault c skip true else s) := by
      split
      · exact s.runDefault_run _ _ _
      · exact .refl s
    have counted (u : State) : u.CycleRun (u.modCycle id fun c => { c with appended := c.appended + 1 }) :=
      u.modCycle_run _ _ (fun _ => rfl) (fun _ => rfl) fun _ => rfl
    dsimp only
    generalize (if ev.flags = 0 then s.runDefault c skip true else s) = u at sent ⊢
    refine (sent.trans (counted u)).trans ?_
    split
    · exact .refl _
    · exact (State.reported_decision _ _ _ _ _ _).cycleRun

theorem State.eventLost_run (e : DflEvent) (verdict reason : Nat) : s.CycleRun (s.eventLost e verdict reason) := by
  have marked : s.CycleRun (if decide (reason = 0x0A) then s.modCycle e.cycle fun c => { c with void := c.void ||| 4 } else s) := by
    split
    · exact s.modCycle_run _ _ (fun _ => rfl) (fun _ => rfl) fun _ => rfl
    · exact .refl s
  unfold State.eventLost
  dsimp only
  generalize (if decide (reason = 0x0A) then s.modCycle e.cycle fun c => { c with void := c.void ||| 4 } else s) = u at marked ⊢
  refine marked.trans ?_
  split
  · exact .refl _
  · split
    · exact State.finish_run _ _ _ _ _ _
    · exact State.append_run _ _ _ _ _ _

theorem State.abandon_run (p eid : Nat) : s.CycleRun (s.abandon p eid) := by
  unfold State.abandon
  dsimp only
  split
  · exact .refl s
  · exact (s.reported_setPort _ _).cycleRun.trans (State.eventLost_run _ _ _ _)

theorem State.sendOrAbandon_run (c : Cycle) (e : ActEvent) : s.CycleRun (s.sendOrAbandon c e) := by
  have sent := s.sendEvent_run c.id c.die e
  unfold State.sendOrAbandon
  dsimp only
  split
  · exact sent
  · split
    · exact sent.trans (State.abandon_run _ _ _)
    · exact sent

/-- A chain of the work of cycles is one. -/
theorem State.cycleRun_foldl {α : Type} (f : State → α → State) (hf : ∀ (s : State) a, s.CycleRun (f s a)) (l : List α) (s : State) : s.CycleRun (l.foldl f s) := by
  induction l generalizing s with
  | nil => exact .refl s
  | cons a l ih => exact (hf s a).trans (ih (f s a))

theorem State.bankRun_run : s.CycleRun s.bankRun := by
  have taken (u : State) (id : JobId) : u.CycleRun (u.modCycle id fun c => { c with queued := none }) :=
    u.modCycle_run _ _ (fun _ => rfl) (fun _ => rfl) fun _ => rfl
  unfold State.bankRun
  refine State.cycleRun_foldl _ (fun u c => ?_) _ s
  split
  · exact (taken u _).trans (State.sendOrAbandon_run _ _ _)
  · exact .refl u

/-- A cycle that is resolved has its verdict; the jobs and the lanes stay as they are (R29, R35). -/
theorem State.resolve_verdict {id : JobId} {c : Cycle} (hc : s.cycle id = some c) (open_ : c.verdict = none) (verdict reason : Nat) :
    s.CycleRun (s.resolve id verdict reason) ∧
      ∃ c', (s.resolve id verdict reason).cycle id = some c' ∧ c'.admitted = c.admitted ∧ c'.verdict = some (verdict, reason) := by
  obtain ⟨run, c₁, found₁, admitted₁, verdict₁⟩ := s.finish_verdict hc open_ verdict reason none false
  have banks := (s.finish id verdict reason none false).bankRun_run
  obtain ⟨c₂, found₂, admitted₂, verdict₂⟩ := banks.cycle id c₁ found₁
  exact ⟨run.trans banks, c₂, found₂, admitted₂.trans admitted₁, verdict₂ _ verdict₁⟩

end Sys2Proof.Machine
end

section
/-! SUPPORT. The requests of cycles (17 R438 to R441): the event taken, the class read, the job begun or the cycle refused. -/

namespace Sys2Proof.Machine

variable (s : State) (t : Time)

@[simp] theorem State.at_eventAt (die : Fin 2) (st : Stamp) : (s.at t).eventAt die st = s.eventAt die st := by rw [State.at_eq]; rfl
@[simp] theorem State.at_firstRequest (k : Key) : (s.at t).firstRequest k = s.firstRequest k := by rw [State.at_eq]; rfl
@[simp] theorem State.at_usesOld (tm : Time) : (s.at t).usesOld tm = s.usesOld tm := by rw [State.at_eq]; rfl
@[simp] theorem State.at_bankOf (j : Nat) (old : Bool) : (s.at t).bankOf j old = s.bankOf j old := by rw [State.at_eq]; rfl
@[simp] theorem State.at_trigClass (die input : Nat) (st : Stamp) : (s.at t).trigClass die input st = s.trigClass die input st := by rw [State.at_eq]; rfl
@[simp] theorem State.at_bankWord (j : Nat) (old : Bool) (a : Nat) : (s.at t).bankWord j old a = s.bankWord j old a := by rw [State.at_eq]; rfl
@[simp] theorem State.at_frameEntry (old : Bool) (die stream : Nat) : (s.at t).frameEntry old die stream = s.frameEntry old die stream := by rw [State.at_eq]; rfl
@[simp] theorem State.at_submits : (s.at t).submits = s.submits := by rw [State.at_eq]

@[simp] theorem State.at_replaying : (s.at t).replaying = s.replaying := by
  rw [State.at_eq]
  unfold State.replaying TimeUnit.seenAt
  dsimp only
  split <;> rfl

/-! ### The event taken -/

/-- The event that admission takes is gone from its lane. -/
theorem State.takeEvent_eventAt (die : Fin 2) (st : Stamp) : (s.takeEvent die st).eventAt die st = none := by
  have events : (s.takeEvent die st).ingress[die].events = s.ingress[die].events.filter fun i => decide (keyStamp i.key ≠ st) := by
    simp [State.takeEvent]
  rw [State.eventAt, events, List.find?_filter]
  exact List.find?_eq_none.mpr fun i _ => by simp

theorem State.eventAt_of_ingress {u s : State} (h : u.ingress = s.ingress) (die : Fin 2) (st : Stamp) : u.eventAt die st = s.eventAt die st := by
  unfold State.eventAt
  rw [h]

/-- It leaves what has reached the data lane. -/
theorem State.takeEvent_arrived (die : Fin 2) (st : Stamp) : ((s.takeEvent die st).die die).arrived = (s.die die).arrived := by
  have held (u : State) : u.die die = u.ingress[die] := by
    have inside : die.val < 2 := die.isLt
    simp [State.die, inside]
  have taken : (s.takeEvent die st).ingress[die] = { s.ingress[die] with events := s.ingress[die].events.filter fun i => decide (keyStamp i.key ≠ st) } := by
    simp [State.takeEvent]
  rw [held, held, taken]
  rfl

/-- A request that fits is admitted, outside replay; another one under a policy without BEST_EFFORT is refused (R441, R442). -/
theorem State.decideJob_fits {w : Want} {r : Nat} (live : s.replaying = false) (fits : s.fitting w = some r) (be : Bool) : s.decideJob w be = .admitted r := by
  simp [State.decideJob, live, fits]

theorem State.decideJob_refused {w : Want} (live : s.replaying = false) (fits : s.fitting w = none) : s.decideJob w false = .refused := by
  simp [State.decideJob, live, fits]

/-! ### Cycles -/

theorem exec_cycleAdmission_none (die : Fin 2) (st : Stamp) (hits : List EccHit) (h : s.eventAt die st = none) :
    exec (.cycleAdmission die st hits t) s = .next (s.at t) := by
  change execCycleAdmission die st hits t s = _
  simp [execCycleAdmission, h]

theorem exec_cycleAdmission_waits (die : Fin 2) (st : Stamp) (hits : List EccHit) (i : Item) (h : s.eventAt die st = some i) (behind : s.firstRequest i.key = false) :
    exec (.cycleAdmission die st hits t) s = .next (s.at t) := by
  change execCycleAdmission die st hits t s = _
  simp [execCycleAdmission, h, behind]

/-- The state in which admission has read the class of a trigger (R574, R575). -/
def State.classSeen (die : Fin 2) (st : Stamp) (hits : List EccHit) : State :=
  (s.at t).rwlReads (s.bankOf die (s.usesOld (stampTime st))) (classRead die (s.trigClass die (stampPort st) st)) hits

section
variable (die : Fin 2) (st : Stamp) (hits : List EccHit)

theorem State.classSeen_rwlRead : (s.at t).RwlRead (s.classSeen t die st hits) := State.rwlReads_rwlRead _ _ _ _
theorem State.classSeen_jobs : (s.classSeen t die st hits).jobs = s.jobs := (congrArg State.jobs (s.classSeen_rwlRead t die st hits) :).trans (s.at_jobs t)
theorem State.classSeen_cycles : (s.classSeen t die st hits).cycles = s.cycles := (congrArg State.cycles (s.classSeen_rwlRead t die st hits) :).trans (s.at_cycles t)
theorem State.classSeen_resv : (s.classSeen t die st hits).resv = s.resv := (congrArg State.resv (s.classSeen_rwlRead t die st hits) :).trans (s.at_resv t)
theorem State.classSeen_replaying : (s.classSeen t die st hits).replaying = s.replaying :=
  (congrArg State.replaying (s.classSeen_rwlRead t die st hits) :).trans (s.at_replaying t)
theorem State.classSeen_timeRuns : (s.classSeen t die st hits).timeRuns = (s.at t).timeRuns := (congrArg State.timeRuns (s.classSeen_rwlRead t die st hits) :)
theorem State.classSeen_usesOld (tm : Time) : (s.classSeen t die st hits).usesOld tm = s.usesOld tm :=
  (congrArg (fun x : State => x.usesOld tm) (s.classSeen_rwlRead t die st hits) :).trans (s.at_usesOld t tm)
theorem State.classSeen_imageOf (old : Bool) (slot : Nat) : (s.classSeen t die st hits).imageOf old slot = s.imageOf old slot :=
  (congrArg (fun x : State => x.imageOf old slot) (s.classSeen_rwlRead t die st hits) :).trans (s.at_imageOf t old slot)

/-- A class with a word found poisoned does not start (R575). -/
theorem State.classSeen_poisoned (h : ∃ e ∈ hits, e.store = 6 ∧ e.ue = true ∧ e.addr % 4 = 0 ∧ classRead die (s.trigClass die (stampPort st) st) e.addr = true) :
    (s.classSeen t die st hits).classWord die (s.trigClass die (stampPort st) st) (s.usesOld (stampTime st)) 0 = 0 := by
  have absent := (s.at t).classWord_poisoned die _ (s.usesOld (stampTime st)) hits 0 h
  rwa [State.at_bankOf] at absent

end

/-- The trigger of the first request: its event goes, and a cycle follows if its input has a class whose word 0 is valid (R20, R28, R438). -/
theorem exec_cycleAdmission (die : Fin 2) (st : Stamp) (hits : List EccHit) (i : Item) (h : s.eventAt die st = some i) (first : s.firstRequest i.key = true)
    (trigger : stampClass st < 2) : exec (.cycleAdmission die st hits t) s =
      .next (if 16 ≤ s.trigClass die (stampPort st) st ∨
          ((s.classSeen t die st hits).classWord die (s.trigClass die (stampPort st) st) (s.usesOld (stampTime st)) 0).getLsbD 0 = false then
        (s.classSeen t die st hits).takeEvent die st
        else ((s.classSeen t die st hits).takeEvent die st).admitCycle die (s.trigClass die (stampPort st) st) st i) := by
  rw [← s.classSeen_usesOld t die st hits]
  change execCycleAdmission die st hits t s = _
  have here : ¬ 2 ≤ stampClass st := by omega
  simp [execCycleAdmission, h, first, here]
  rfl

/-- A cycle that fits begins its job and its pending event, after reports alone (R441). -/
theorem State.admitCycle_admitted (die cls : Nat) (st : Stamp) (item : Item) {old : Bool} (uses : s.usesOld (stampTime st) = old) (live : s.replaying = false) {im : Image} {e : EntryBound} {r : Nat}
    (image : s.imageOf old (fld (s.classWord die cls old 0) 2 1) = some im)
    (entry : im.bound (fld (s.classWord die cls old 0) 10 3) 1 = some e)
    (fits : s.fitting (s.cycleWant die cls st old im e) = some r) : ∃ u, s.Reported u ∧ s.admitCycle die cls st item =
      u.beginJob ((s.cycleWant die cls st old im e).job r true false none)
        (some (u.newCycle die cls st old true im.ident)) := by
  have logged : s.Reported (if s.logsClass st 0 then s.logInput die 0 1 0 item.key item.body else s) := .ite (s.reported_logInput _ _ _ _ _ _) (.refl s)
  refine ⟨_, logged.trans (State.reported_missNoted _ (s.cycleWant die cls st old im e)), ?_⟩
  unfold State.admitCycle
  dsimp only
  rw [uses, image]
  simp only [Option.bind_some, entry, Option.map_some, s.decideJob_fits live fits]
  rfl

/-- A cycle that fits begins its job and its pending event, and takes its event (R439, R441). -/
theorem State.cycle_admitted (die cls : Nat) (st : Stamp) (item : Item) {old : Bool} (uses : s.usesOld (stampTime st) = old) (live : s.replaying = false) {im : Image} {e : EntryBound} {r : Nat}
    (image : s.imageOf old (fld (s.classWord die cls old 0) 2 1) = some im)
    (entry : im.bound (fld (s.classWord die cls old 0) 10 3) 1 = some e)
    (fits : s.fitting (s.cycleWant die cls st old im e) = some r) (fresh : ∀ j ∈ s.jobs, j.id ≠ { stamp := st, job := 0 }) :
    ∃ c, s.Began (s.admitCycle die cls st item) ((s.cycleWant die cls st old im e).job r true false none) (some c) ∧
      c.id = { stamp := st, job := 0 } ∧ c.verdict = none ∧ c.commit = none ∧ c.admitted = true ∧
      c.deadline = stampTime st + 10 * fld (s.classWord die cls old 0) 22 12 := by
  obtain ⟨u, reports, eq⟩ := s.admitCycle_admitted die cls st item uses live image entry fits
  have word : u.classWord die cls old 0 = s.classWord die cls old 0 :=
    (congrArg (fun x : State => x.classWord die cls old 0) reports :)
  have began := u.beginJob_began ((s.cycleWant die cls st old im e).job r true false none)
    (some (u.newCycle die cls st old true im.ident)) rfl (reports.jobs ▸ fresh)
  rw [← eq] at began
  refine ⟨_, ⟨reports.jobs ▸ began.jobs, reports.cycles ▸ began.cycles, began.starts, began.ingress.trans reports.ingress, began.submits.trans reports.submits,
    began.resv.trans reports.resv⟩, rfl, rfl, rfl, rfl, ?_⟩
  rw [← word]
  rfl

/-- A cycle without an image is refused, after reports alone (R29). -/
theorem State.admitCycle_refused (die cls : Nat) (st : Stamp) (item : Item) {old : Bool} (uses : s.usesOld (stampTime st) = old)
    (image : s.imageOf old (fld (s.classWord die cls old 0) 2 1) = none) : ∃ u, s.Reported u ∧
      s.admitCycle die cls st item = u.refuseCycle (u.newCycle die cls st old false 0) (if u.timeRuns then 1 else 2) := by
  have logged : s.Reported (if s.logsClass st 0 then s.logInput die 0 0 0 item.key item.body else s) := .ite (s.reported_logInput _ _ _ _ _ _) (.refl s)
  refine ⟨_, logged, ?_⟩
  unfold State.admitCycle
  dsimp only
  rw [uses, image]
  rfl

/-- A refused cycle is resolved at once: REFUSED, never admitted (R29). -/
theorem State.refuseCycle_verdict (c : Cycle) (reason : Nat) (fresh : ∀ c' ∈ s.cycles, c'.id ≠ c.id) (open_ : c.verdict = none) :
    (s.refuseCycle c reason).jobs = s.jobs ∧ (s.refuseCycle c reason).ingress = s.ingress ∧
      ∃ c' ∈ (s.refuseCycle c reason).cycles, c'.id = c.id ∧ c'.admitted = false ∧ c'.verdict = some (4, reason) := by
  let u : State := (s.count32 0x40000C 1).setFlag 0x400000 0
  let v : State := { u with cycles := u.cycles ++ [{ c with void := 0, admitted := false }] }
  have absent : s.cycles.find? (fun c' => decide (c'.id = c.id)) = none := List.find?_eq_none.mpr fun c' hc => by simpa using fresh c' hc
  have found : v.cycle c.id = some { c with void := 0, admitted := false } := by
    have cycles : v.cycles = s.cycles ++ [{ c with void := 0, admitted := false }] := rfl
    rw [State.cycle, cycles, List.find?_append, absent]
    simp
  obtain ⟨run, c', held, admitted, verdict⟩ := v.resolve_verdict found open_ 4 reason
  exact ⟨run.jobs, run.ingress, c', List.mem_of_find?_eq_some held, by simpa using List.find?_some held, admitted, verdict⟩

theorem exec_cycleAdmission_starts (die : Fin 2) (st : Stamp) (hits : List EccHit) (i : Item) (h : s.eventAt die st = some i) (first : s.firstRequest i.key = true)
    (trigger : stampClass st < 2) {cls : Nat} (bound : s.trigClass die (stampPort st) st = cls) {old : Bool} (uses : s.usesOld (stampTime st) = old)
    {x : State} (seen : s.classSeen t die st hits = x) (cls16 : cls < 16) (valid : (x.classWord die cls old 0).getLsbD 0 = true) :
    exec (.cycleAdmission die st hits t) s = .next ((x.takeEvent die st).admitCycle die cls st i) := by
  have opened : ¬ (16 ≤ cls ∨ (x.classWord die cls old 0).getLsbD 0 = false) := by simp [cls16, valid]
  rw [exec_cycleAdmission s t die st hits i h first trigger, bound, uses, seen, if_neg opened]

/-- A trigger whose class starts and whose request fits: the job and the pending event begin (R439, R441). -/
theorem exec_cycleAdmission_admitted (die : Fin 2) (st : Stamp) (hits : List EccHit) (i : Item) (h : s.eventAt die st = some i) (first : s.firstRequest i.key = true)
    (trigger : stampClass st < 2) (live : s.replaying = false) {cls : Nat} (bound : s.trigClass die (stampPort st) st = cls) {old : Bool} (uses : s.usesOld (stampTime st) = old)
    {x : State} (seen : s.classSeen t die st hits = x) {im : Image} {e : EntryBound} {r : Nat} (cls16 : cls < 16) (valid : (x.classWord die cls old 0).getLsbD 0 = true)
    (image : s.imageOf old ((x.classWord die cls old 0).toNat / 2 % 4) = some im) (entry : im.bound ((x.classWord die cls old 0).toNat / 8 % 256) 1 = some e)
    (fresh : ∀ j ∈ s.jobs, j.id ≠ { stamp := st, job := 0 }) (fits : x.fitting (x.cycleWant die cls st old im e) = some r) :
    ∃ u c, exec (.cycleAdmission die st hits t) s = .next u ∧ s.Admitted u (x.cycleWant die cls st old im e) r ∧ u.cycles = s.cycles ++ [c] ∧
      c.id = { stamp := st, job := 0 } ∧ c.verdict = none ∧ c.commit = none ∧ c.admitted = true ∧
      c.deadline = stampTime st + 10 * ((x.classWord die cls old 0).toNat / 4096 % 2048) ∧
      (∀ n ∈ e.tiles r, ∃ m ∈ (u.tile n).starts, m.id = { stamp := st, job := 0 } ∧ m.entry = e.entry) ∧ u.eventAt die st = none := by
  have step := exec_cycleAdmission_starts s t die st hits i h first trigger bound uses seen cls16 valid
  subst seen
  have jobs := s.classSeen_jobs t die st hits
  have cycles := s.classSeen_cycles t die st hits
  obtain ⟨c, began, cid, verdict, commit, admitted, deadline⟩ := ((s.classSeen t die st hits).takeEvent die st).cycle_admitted die cls st i
    ((s.classSeen_usesOld t die st hits _).trans uses) ((s.classSeen_replaying t die st hits).trans live) (im := im) (e := e)
    (by rw [fld_eq]; exact (s.classSeen_imageOf t die st hits _ _).trans image) (by rw [fld_eq]; exact entry) fits (jobs ▸ fresh)
  obtain ⟨-, -, -, tiles, -⟩ := ((s.classSeen t die st hits).cycleWant die cls st old im e).job_admitted r false
  refine ⟨_, c, step, State.admitted_of_jobs (began.jobs.trans (congrArg (· ++ [_]) jobs)) (began.resv.trans (s.classSeen_resv t die st hits))
      ((execCycleAdmission_keeps die st hits t s).next step),
    began.cycles.trans (congrArg (· ++ [c]) cycles), cid, verdict, commit, admitted, ?_, fun n hn => ⟨_, began.starts n (tiles ▸ hn), rfl, rfl⟩, ?_⟩
  · rw [deadline, fld_eq]
    rfl
  · exact (State.eventAt_of_ingress began.ingress die st).trans (State.takeEvent_eventAt _ die st)

/-- A trigger whose class starts without an image: the cycle is refused and resolved, and leaves no job (R29). -/
theorem exec_cycleAdmission_refused (die : Fin 2) (st : Stamp) (hits : List EccHit) (i : Item) (h : s.eventAt die st = some i) (first : s.firstRequest i.key = true)
    (trigger : stampClass st < 2) {cls : Nat} (bound : s.trigClass die (stampPort st) st = cls) {old : Bool} (uses : s.usesOld (stampTime st) = old)
    {x : State} (seen : s.classSeen t die st hits = x) (cls16 : cls < 16) (valid : (x.classWord die cls old 0).getLsbD 0 = true)
    (image : s.imageOf old ((x.classWord die cls old 0).toNat / 2 % 4) = none) (fresh : ∀ c ∈ s.cycles, c.id ≠ { stamp := st, job := 0 }) :
    ∃ u, exec (.cycleAdmission die st hits t) s = .next u ∧ u.jobs = s.jobs ∧ u.eventAt die st = none ∧
      ∃ c ∈ u.cycles, c.id = { stamp := st, job := 0 } ∧ c.admitted = false ∧ c.verdict = some (4, if (s.at t).timeRuns then 1 else 2) := by
  have step := exec_cycleAdmission_starts s t die st hits i h first trigger bound uses seen cls16 valid
  subst seen
  have jobs := s.classSeen_jobs t die st hits
  have cycles := s.classSeen_cycles t die st hits
  obtain ⟨u, reports, refused⟩ := ((s.classSeen t die st hits).takeEvent die st).admitCycle_refused die cls st i
    ((s.classSeen_usesOld t die st hits _).trans uses) (by rw [fld_eq]; exact (s.classSeen_imageOf t die st hits _ _).trans image)
  obtain ⟨left, lanes, c, mem, cid, admitted, verdict⟩ := u.refuseCycle_verdict (u.newCycle die cls st old false 0) (if u.timeRuns then 1 else 2)
    (by rw [reports.cycles]; exact cycles ▸ fresh) rfl
  rw [refused] at step
  have clock : u.timeRuns = (s.at t).timeRuns := (congrArg State.timeRuns reports :).trans (s.classSeen_timeRuns t die st hits)
  refine ⟨_, step, left.trans (reports.jobs.trans jobs), ?_, c, mem, cid, admitted, verdict.trans (by rw [clock])⟩
  exact (State.eventAt_of_ingress (lanes.trans reports.ingress) die st).trans (State.takeEvent_eventAt _ die st)

end Sys2Proof.Machine
end

section
/-! SUPPORT. The requests of frames and of the host (16 R423; 17 R439 to R442; 14 R399). -/

namespace Sys2Proof.Machine

variable (s : State) (t : Time)

/-! ### Frame jobs -/

theorem exec_frameJobAdmission_none (die : Fin 2) (st : Stamp) (h : s.eventAt die st = none) : exec (.frameJobAdmission die st t) s = .next (s.at t) := by
  change execFrameJobAdmission die st t s = _
  simp [execFrameJobAdmission, h]

theorem exec_frameJobAdmission_waits (die : Fin 2) (st : Stamp) (i : Item) (h : s.eventAt die st = some i) (behind : s.firstRequest i.key = false) :
    exec (.frameJobAdmission die st t) s = .next (s.at t) := by
  change execFrameJobAdmission die st t s = _
  simp [execFrameJobAdmission, h, behind]

/-- A frame that admission takes, with the first entry of its stream. -/
def State.admitFrame (die : Fin 2) (st : Stamp) (old : Bool) (x : Nat × Image × EntryBound) : State :=
  let w := s.frameWant die (stampPort st) st old x
  match s.decideJob w (bit (s.bankWord die old (mesaBase die + 0x40)) (stampPort st)) with
  | .admitted r => ((s.missNoted w).beginJob (w.job r true true none) none).frameGate die st
  | .loose r => ((s.missNoted w).beginJob (w.job r false true none) none).frameGate die st
  | .refused => (s.missNoted w).count32 0x40000C 1

theorem exec_frameJobAdmission (die : Fin 2) (st : Stamp) (i : Item) (h : s.eventAt die st = some i) (first : s.firstRequest i.key = true)
    (frame : 2 ≤ stampClass st) : exec (.frameJobAdmission die st t) s =
      .next (match s.frameEntry (s.usesOld (stampTime st)) die (stampPort st) with
        | none => (s.at t).takeEvent die st
        | some x => ((s.at t).takeEvent die st).admitFrame die st (s.usesOld (stampTime st)) x) := by
  have old : ((s.at t).takeEvent die st).usesOld (stampTime st) = s.usesOld (stampTime st) := s.at_usesOld t _
  have entry : ((s.at t).takeEvent die st).frameEntry (s.usesOld (stampTime st)) die (stampPort st) = s.frameEntry (s.usesOld (stampTime st)) die (stampPort st) :=
    s.at_frameEntry t _ _ _
  have here : ¬ stampClass st < 2 := by omega
  change execFrameJobAdmission die st t s = _
  unfold execFrameJobAdmission
  dsimp only
  rw [State.at_eventAt, h]
  dsimp only
  rw [State.at_firstRequest, first, if_neg (by simp [here]), old, entry]
  cases s.frameEntry (s.usesOld (stampTime st)) die (stampPort st) <;> rfl

/-- A frame that fits begins its job, whose tiles wait for the frame's end, after reports alone (R423, R440). -/
theorem State.admitFrame_admitted (die : Fin 2) (st : Stamp) (old : Bool) (x : Nat × Image × EntryBound) {r : Nat} (live : s.replaying = false)
    (fits : s.fitting (s.frameWant die (stampPort st) st old x) = some r) : ∃ u, s.Reported u ∧
      s.admitFrame die st old x = (u.beginJob ((s.frameWant die (stampPort st) st old x).job r true true none) none).frameGate die st := by
  refine ⟨_, s.reported_missNoted (s.frameWant die (stampPort st) st old x), ?_⟩
  unfold State.admitFrame
  dsimp only
  rw [s.decideJob_fits live fits]

/-- A frame that does not fit, of a stream without BEST_EFFORT, is counted as refused (R440, R442). -/
theorem State.admitFrame_refused (die : Fin 2) (st : Stamp) (old : Bool) (x : Nat × Image × EntryBound) (live : s.replaying = false)
    (fits : s.fitting (s.frameWant die (stampPort st) st old x) = none) (strict : bit (s.bankWord die old (mesaBase die + 0x40)) (stampPort st) = false) :
    s.Reported (s.admitFrame die st old x) := by
  unfold State.admitFrame
  dsimp only
  rw [strict, s.decideJob_refused live fits]
  exact (s.reported_missNoted _).trans (State.reported_count32 _ _ _)

/-- A frame that has not reached the data lane gates nothing (R423). -/
theorem State.frameGate_absent (die : Fin 2) (st : Stamp) (h : ∀ a ∈ (s.die die).arrived, keyStamp a.key ≠ st) : s.frameGate die st = s := by
  have absent : (s.die die).arrived.find? (fun i => decide (keyStamp i.key = st)) = none := List.find?_eq_none.mpr fun i hi => by simpa using h i hi
  unfold State.frameGate
  rw [absent]

/-- A job whose tiles wait for its frame: it is the last of the jobs, and no tile has a message of it (R423). -/
theorem State.beginFrame_waits (j : Job) (die : Fin 2) (st : Stamp) (waits : j.unstarted = true) (early : ∀ a ∈ (s.die die).arrived, keyStamp a.key ≠ st) :
    ((s.beginJob j none).frameGate die st).jobs = s.jobs ++ [j] ∧ ((s.beginJob j none).frameGate die st).tiles = s.tiles ∧
      ((s.beginJob j none).frameGate die st).resv = s.resv := by
  obtain ⟨regs, net, entered⟩ := s.entered_eq j none
  rw [State.beginJob_eq, if_pos waits, entered, State.frameGate_absent { s with jobs := s.jobs ++ [j], cycles := s.cycles ++ none.toList, regs, net } die st early]
  exact ⟨rfl, rfl, rfl⟩

/-- A frame that fits is admitted, and its tiles wait (R423, R440). -/
theorem exec_frameJobAdmission_admitted (die : Fin 2) (st : Stamp) (i : Item) (h : s.eventAt die st = some i) (first : s.firstRequest i.key = true)
    (frame : 2 ≤ stampClass st) (live : s.replaying = false) {x : Nat × Image × EntryBound} {r : Nat} (entry : s.frameEntry (s.usesOld (stampTime st)) die (stampPort st) = some x)
    (fits : (s.at t).fitting ((s.at t).frameWant die (stampPort st) st (s.usesOld (stampTime st)) x) = some r) (early : ∀ a ∈ (s.die die).arrived, keyStamp a.key ≠ st) :
    ∃ u, exec (.frameJobAdmission die st t) s = .next u ∧ s.Admitted u ((s.at t).frameWant die (stampPort st) st (s.usesOld (stampTime st)) x) r ∧
      (∃ j ∈ u.jobs, j.id = { stamp := st, job := 0 } ∧ j.unstarted = true) ∧ u.tiles = s.tiles := by
  have step := exec_frameJobAdmission s t die st i h first frame
  obtain ⟨u, reports, admitted⟩ := ((s.at t).takeEvent die st).admitFrame_admitted die st (s.usesOld (stampTime st)) x ((s.at_replaying t).trans live) fits
  rw [entry] at step
  dsimp only at step
  rw [admitted] at step
  have arrived : (u.die die).arrived = (s.die die).arrived := by
    rw [State.die_of_ingress reports.ingress, State.takeEvent_arrived, State.at_die]
  obtain ⟨begins, tiles, resv⟩ := u.beginFrame_waits (((s.at t).frameWant die (stampPort st) st (s.usesOld (stampTime st)) x).job r true true none) die st rfl (arrived ▸ early)
  have jobs : u.jobs = s.jobs := reports.jobs.trans (s.at_jobs t)
  exact ⟨_, step, State.admitted_of_jobs (begins.trans (congrArg (· ++ [_]) jobs)) (resv.trans (reports.resv.trans (s.at_resv t))) ((execFrameJobAdmission_keeps die st t s).next step),
    ⟨_, begins ▸ List.mem_append_right _ List.mem_cons_self, rfl, rfl⟩, tiles.trans (reports.tiles.trans (s.at_tiles t))⟩

/-- A frame that does not fit leaves no job. -/
theorem exec_frameJobAdmission_refused (die : Fin 2) (st : Stamp) (i : Item) (h : s.eventAt die st = some i) (first : s.firstRequest i.key = true)
    (frame : 2 ≤ stampClass st) (live : s.replaying = false) {x : Nat × Image × EntryBound} (entry : s.frameEntry (s.usesOld (stampTime st)) die (stampPort st) = some x)
    (fits : (s.at t).fitting ((s.at t).frameWant die (stampPort st) st (s.usesOld (stampTime st)) x) = none)
    (strict : (s.bankWord die (s.usesOld (stampTime st)) (mesaBase die + 0x40)).getLsbD (stampPort st) = false) :
    ∃ u, exec (.frameJobAdmission die st t) s = .next u ∧ u.jobs = s.jobs ∧ u.tiles = s.tiles ∧ u.eventAt die st = none := by
  have step := exec_frameJobAdmission s t die st i h first frame
  rw [entry] at step
  rw [← State.at_bankWord s t] at strict
  have refused := ((s.at t).takeEvent die st).admitFrame_refused die st (s.usesOld (stampTime st)) x ((s.at_replaying t).trans live) fits strict
  exact ⟨_, step, refused.jobs.trans (s.at_jobs t), refused.tiles.trans (s.at_tiles t),
    (State.eventAt_of_ingress refused.ingress die st).trans (State.takeEvent_eventAt _ die st)⟩

/-! ### Host jobs -/

theorem exec_hostJobAdmission_none (h : s.submits = []) : exec (.hostJobAdmission t) s = .next (s.at t) := by
  change execHostJobAdmission t s = _
  simp [execHostJobAdmission, h, sortBy]

theorem exec_hostJobAdmission_waits (c : HpCmd) (h : (sortBy (fun c : HpCmd => c.key.toNat) s.submits).head? = some c) (behind : s.firstRequest c.key = false) :
    exec (.hostJobAdmission t) s = .next (s.at t) := by
  change execHostJobAdmission t s = _
  simp [execHostJobAdmission, h, behind]

/-- The submissions that wait, but one. -/
def State.takeSubmit (c : HpCmd) : State := { s with submits := s.submits.erase c }

theorem State.takeSubmit_submits (c : HpCmd) : ((s.at t).takeSubmit c).submits = s.submits.erase c := by rw [State.takeSubmit, State.at_submits]

/-- A submission that admission takes. -/
def State.admitHost (c : HpCmd) : State :=
  let old := s.usesOld (stampTime c.stamp)
  let w := (s.imageOf old c.slot).bind fun i => (i.bound c.entry 3).map fun e => s.hostWant c old i e
  let out := match w with | some w => s.decideJob w (decide (c.policy = 1)) | none => .refused
  let u := s.logInput 0 1 out.code 0 c.key (s.hostLogData c)
  let u := match w with | some w => u.missNoted w | none => u
  match w, out with
  | some w, .admitted r => u.beginHost c (w.job r true false none)
  | some w, .loose r => u.beginHost c (w.job r false false none)
  | _, _ => (u.count32 0x40000C 1).hpDone c 5 0 0

theorem exec_hostJobAdmission (c : HpCmd) (h : (sortBy (fun c : HpCmd => c.key.toNat) s.submits).head? = some c) (first : s.firstRequest c.key = true) :
    exec (.hostJobAdmission t) s = .next (((s.at t).takeSubmit c).admitHost c) := by
  have least : (sortBy (fun c : HpCmd => c.key.toNat) (s.at t).submits).head? = some c := by rw [State.at_submits, h]
  change execHostJobAdmission t s = _
  unfold execHostJobAdmission
  dsimp only
  rw [least]
  dsimp only
  rw [State.at_firstRequest, first, if_neg (by simp)]
  rfl

/-- A submission that fits begins its job behind its header, and its output copy waits (R399). -/
theorem State.admitHost_admitted (c : HpCmd) {old : Bool} (uses : s.usesOld (stampTime c.stamp) = old) (live : s.replaying = false) {im : Image} {e : EntryBound} {r : Nat}
    (image : s.imageOf old c.slot = some im) (entry : im.bound c.entry 3 = some e)
    (fits : s.fitting (s.hostWant c old im e) = some r) : ∃ u, s.Reported u ∧ s.admitHost c =
      u.beginHost c ((s.hostWant c old im e).job r true false none) := by
  refine ⟨_, (s.reported_logInput 0 1 1 0 c.key (s.hostLogData c)).trans (State.reported_missNoted _ (s.hostWant c old im e)), ?_⟩
  unfold State.admitHost
  dsimp only
  rw [uses, image]
  simp only [Option.bind_some, entry, Option.map_some, s.decideJob_fits live fits]
  rfl

/-- A submission without an image is refused. -/
theorem State.admitHost_refused (c : HpCmd) {old : Bool} (uses : s.usesOld (stampTime c.stamp) = old) (image : s.imageOf old c.slot = none) :
    s.admitHost c = ((s.logInput 0 1 0 0 c.key (s.hostLogData c)).count32 0x40000C 1).hpDone c 5 0 0 := by
  unfold State.admitHost
  dsimp only
  rw [uses, image]
  rfl

/-- A record leaves the completions that wait. -/
theorem State.signal_done (v : Nat) : (s.signal v).link.done = s.link.done := by
  unfold State.signal
  dsimp only
  split_ifs <;> rfl

theorem State.logInput_done (die kind outcome flags : Nat) (key : Key) (data : List Byte) : (s.logInput die kind outcome flags key data).link.done = s.link.done := by
  have record (sev : Nat) (key : Option Key) (bytes : List Byte) : (s.makeRecord die sev key bytes).link.done = s.link.done := by
    have stored (u : State) : (u.recordStored bytes).link = u.link := rfl
    have sent (irq : Bool) : (s.recordSent die key bytes irq).link = s.link := rfl
    rw [State.makeRecord_eq]
    dsimp only
    split_ifs <;> simp only [State.signal_done, stored, sent]
  unfold State.logInput
  split
  · rfl
  · exact record _ _ _

/-- The completion of a submission on its queue joins those that wait. -/
theorem State.hpDone_done (c : HpCmd) (status detail result : Nat) (queue : c.queue ≠ 256) :
    (s.hpDone c status detail result).link.done = s.link.done ++ [{ cmd := c, status, detail, result }] := by
  unfold State.hpDone
  dsimp only
  rw [if_neg queue]
  rfl

/-- The header of a host job is messages alone. -/
theorem State.sendHeader_net (j : Job) (body : List Byte) : { s.sendHeader j body with net := s.net } = s := by
  unfold State.sendHeader
  refine State.foldl_preserves (fun x : State => { x with net := s.net }) _ (fun _ _ => ?_) _ s
  rfl

/-- A host job that begins, its output copy behind those that wait (R399). -/
theorem State.beginHost_began (c : HpCmd) (j : Job) (started : j.unstarted = false) (fresh : ∀ j' ∈ s.jobs, j'.id ≠ j.id) :
    (s.beginHost c j).jobs = s.jobs ++ [j] ∧ (s.beginHost c j).submits = s.submits ∧ (s.beginHost c j).resv = s.resv ∧
      ∃ x ∈ (s.beginHost c j).link.copies, x.1 = c := by
  have header := s.sendHeader_net j (s.hostHeader c)
  have jobs : (s.sendHeader j (s.hostHeader c)).jobs = s.jobs := (congrArg State.jobs header :)
  have began := State.beginJob_began (s.sendHeader j (s.hostHeader c)) j none started (jobs ▸ fresh)
  refine ⟨began.jobs.trans (by rw [jobs]), began.submits.trans (congrArg State.submits header :), began.resv.trans (congrArg State.resv header :),
    _, List.mem_append_right _ List.mem_cons_self, rfl⟩

/-- A submission that fits is admitted, and leaves the ones that wait (R399, R439). -/
theorem exec_hostJobAdmission_admitted (c : HpCmd) (h : (sortBy (fun c : HpCmd => c.key.toNat) s.submits).head? = some c) (first : s.firstRequest c.key = true)
    (live : s.replaying = false) {im : Image} {e : EntryBound} {r : Nat} (image : s.imageOf (s.usesOld (stampTime c.stamp)) c.slot = some im) (entry : im.bound c.entry 3 = some e)
    (fits : (s.at t).fitting ((s.at t).hostWant c (s.usesOld (stampTime c.stamp)) im e) = some r) (fresh : ∀ j ∈ s.jobs, j.id ≠ c.id) :
    ∃ u, exec (.hostJobAdmission t) s = .next u ∧ s.Admitted u ((s.at t).hostWant c (s.usesOld (stampTime c.stamp)) im e) r ∧ u.submits = s.submits.erase c ∧
      ∃ x ∈ u.link.copies, x.1 = c := by
  have step := exec_hostJobAdmission s t c h first
  obtain ⟨u, reports, admitted⟩ := ((s.at t).takeSubmit c).admitHost_admitted c (s.at_usesOld t _) ((s.at_replaying t).trans live)
    ((s.at_imageOf t _ _).trans image) entry fits
  rw [admitted] at step
  have jobs : u.jobs = s.jobs := reports.jobs.trans (s.at_jobs t)
  obtain ⟨begins, submits, resv, copy⟩ := u.beginHost_began c (((s.at t).hostWant c (s.usesOld (stampTime c.stamp)) im e).job r true false none) rfl (jobs ▸ fresh)
  exact ⟨_, step, State.admitted_of_jobs (begins.trans (congrArg (· ++ [_]) jobs)) (resv.trans (reports.resv.trans (s.at_resv t))) ((execHostJobAdmission_keeps t s).next step),
    submits.trans (reports.submits.trans (s.takeSubmit_submits t c)), copy⟩

/-- A submission without an image completes at once with status 5 (R391, R399). -/
theorem exec_hostJobAdmission_refused (c : HpCmd) (h : (sortBy (fun c : HpCmd => c.key.toNat) s.submits).head? = some c) (first : s.firstRequest c.key = true)
    (queue : c.queue ≠ 256) (image : s.imageOf (s.usesOld (stampTime c.stamp)) c.slot = none) :
    ∃ u, exec (.hostJobAdmission t) s = .next u ∧ u.jobs = s.jobs ∧ u.submits = s.submits.erase c ∧
      u.link.done = s.link.done ++ [{ cmd := c, status := 5, detail := 0, result := 0 }] := by
  have step := exec_hostJobAdmission s t c h first
  rw [((s.at t).takeSubmit c).admitHost_refused c (s.at_usesOld t _) ((s.at_imageOf t _ _).trans image)] at step
  generalize ((s.at t).takeSubmit c).hostLogData c = data at step
  have logged := ((s.at t).takeSubmit c).reported_logInput 0 1 0 0 c.key data
  have waits := ((s.at t).takeSubmit c).logInput_done 0 1 0 0 c.key data
  generalize ((s.at t).takeSubmit c).logInput 0 1 0 0 c.key data = u at step logged waits
  have ends := State.hpDone_link (u.count32 0x40000C 1) c 5 0 0
  refine ⟨_, step, (congrArg State.jobs ends :).trans (logged.jobs.trans (s.at_jobs t)), (congrArg State.submits ends :).trans (logged.submits.trans (s.takeSubmit_submits t c)), ?_⟩
  rw [State.hpDone_done _ _ _ _ _ queue]
  exact congrArg (· ++ [_]) (waits.trans (congrArg (fun l => l.done) (s.at_link t)))

end Sys2Proof.Machine
end

section
/-! SUPPORT. Admission (17 R438 to R442): obligation O40. -/

namespace Sys2Proof.Machine

/-- Settles O40: the tests of admission, and each kind of request, taken, admitted or refused. -/
theorem admissionResults : Obligations.AdmissionResults := by
  intro s die st hits t v x begun
  refine ⟨fun x _ _ fits => x.fitting_tests fits, fun h => ⟨exec_cycleAdmission_none s t die st hits h, exec_frameJobAdmission_none s t die st h⟩,
    fun i h behind => ⟨exec_cycleAdmission_waits s t die st hits i h behind, exec_frameJobAdmission_waits s t die st i h behind⟩, ?_, ?_,
    exec_hostJobAdmission_none s t, ?_, exec_hostJobAdmission_waits s t⟩
  · intro i h first trigger live old cls w0
    refine ⟨s.classSeen_poisoned t die st hits, fun none_ => ?_, fun closed => ?_,
      fun im e r cls16 valid image entry fresh fits => exec_cycleAdmission_admitted s t die st hits i h first trigger live rfl rfl rfl cls16 valid image entry fresh fits,
      fun cls16 valid image fresh => exec_cycleAdmission_refused s t die st hits i h first trigger rfl rfl rfl cls16 valid image fresh⟩
    · subst none_
      rfl
    · exact (exec_cycleAdmission s t die st hits i h first trigger).trans (congrArg _ (if_pos closed))
  · intro i h first frame live old
    refine ⟨fun entry => ?_, fun y r entry fits fresh early => exec_frameJobAdmission_admitted s t die st i h first frame live entry fits early,
      fun y entry fits strict => exec_frameJobAdmission_refused s t die st i h first frame live entry fits strict⟩
    have step := exec_frameJobAdmission s t die st i h first frame
    rwa [show s.frameEntry (s.usesOld (stampTime st)) die (stampPort st) = none from entry] at step
  · intro c h first live queue old
    exact ⟨exec_hostJobAdmission_refused s t c h first queue,
      fun im e r image entry fits fresh => exec_hostJobAdmission_admitted s t c h first live image entry fits fresh⟩

end Sys2Proof.Machine
end

section
/-! SUPPORT. What every command does to fuses, one-time storage and the units in service (02 R50, R51): obligation O58. -/

namespace Sys2Proof.Machine

theorem Kept.Leads.liveFitted {s u : State} (h : s.kept.Leads u.kept) (fit : s.LiveFitted) : u.LiveFitted := h.fit fit

/-- Every command moves the kept part forward. -/
theorem exec_leads (c : Instr) (s : State) : ∀ u, exec c s = .next u → s.kept.Leads u.kept :=
  match c with
  | .registerWrite .. => execRegisterWrite_leads _ _ _ _ _ _
  | .lowWordReadLatch .. => leads_of_keeps (execLowWordReadLatch_keeps ..)
  | .lowWordStage .. => leads_of_keeps (execLowWordStage_keeps ..)
  | .highWordCommit .. => execHighWordCommit_leads _ _ _ _
  | .absentUnitAccess off write t => leads_of_keeps (execAbsentUnitAccess_keeps off write t s)
  | .powerOn => execPowerOn_leads _
  | .resetNAssert .. => execResetNAssert_leads _ _
  | .resetNRelease .. => leads_of_keeps (execResetNRelease_keeps ..)
  | .coldResetEnd .. => execColdResetEnd_leads _ _ _
  | .firmwareStart => leads_of_keeps (execFirmwareStart_keeps ..)
  | .warmRstNAssert .. => leads_of_keeps (execWarmRstNAssert_keeps ..)
  | .watchdogExpiry => leads_of_keeps (execWatchdogExpiry_keeps ..)
  | .warmReset => leads_of_keeps (execWarmReset_keeps ..)
  | .rstCtlCold .. => execRstCtlCold_leads _ _
  | .rstCtlWarm .. => leads_of_keeps (execRstCtlWarm_keeps ..)
  | .rstCtlShutdown .. => leads_of_keeps (execRstCtlShutdown_keeps ..)
  | .rstDomainWrite .. => leads_of_keeps (execRstDomainWrite_keeps ..)
  | .recover => leads_of_keeps (execRecover_keeps ..)
  | .rollbackCommit => execRollbackCommit_leads _
  | .otpProgram .. => execOtpProgram_leads _ _
  | .otpRevoke .. => execOtpRevoke_leads _ _
  | .otpDisableDebug .. => execOtpDisableDebug_leads _ _
  | .jtagBypass .. => leads_of_keeps (execJtagBypass_keeps ..)
  | .jtagIdcode => leads_of_keeps (execJtagIdcode_keeps ..)
  | .jtagSamplePreload .. => leads_of_keeps (execJtagSamplePreload_keeps ..)
  | .jtagExtest .. => leads_of_keeps (execJtagExtest_keeps ..)
  | .jtagClamp => leads_of_keeps (execJtagClamp_keeps ..)
  | .jtagHighz => leads_of_keeps (execJtagHighz_keeps ..)
  | .dbgChal => leads_of_keeps (execDbgChal_keeps ..)
  | .dbgResp .. => leads_of_keeps (execDbgResp_keeps ..)
  | .dbgAccess .. => leads_of_keeps (execDbgAccess_keeps ..)
  | .relock => leads_of_keeps (execRelock_keeps ..)
  | .dflHoldSet .. => leads_of_keeps (execDflHoldSet_keeps ..)
  | .dflHoldClear => leads_of_keeps (execDflHoldClear_keeps ..)
  | .powerDownStart .. => leads_of_keeps (execPowerDownStart_keeps ..)
  | .pwrFailNFall .. => leads_of_keeps (execPwrFailNFall_keeps ..)
  | .railCollapse .. => leads_of_keeps (execRailCollapse_keeps ..)
  | .hostLinkReset flr => leads_of_keeps (execHostLinkReset_keeps flr s)
  | .powerStateChange .. => leads_of_keeps (execPowerStateChange_keeps ..)
  | .stageConfigWrite .. => leads_of_keeps (execStageConfigWrite_keeps ..)
  | .hp1Doorbell .. => leads_of_keeps (execHp1Doorbell_keeps ..)
  | .sqTailDoorbell .. => leads_of_keeps (execSqTailDoorbell_keeps ..)
  | .hp2GroupStamp .. => leads_of_keeps (execHp2GroupStamp_keeps ..)
  | .sqEntryFetch .. => leads_of_keeps (execSqEntryFetch_keeps ..)
  | .cqHeadDoorbell .. => leads_of_keeps (execCqHeadDoorbell_keeps ..)
  | .queueEnable .. => leads_of_keeps (execQueueEnable_keeps ..)
  | .queueDisable .. => leads_of_keeps (execQueueDisable_keeps ..)
  | .hpNop .. => leads_of_keeps (execHpNop_keeps ..)
  | .stageIn .. => leads_of_keeps (execStageIn_keeps ..)
  | .stageInComplete .. => leads_of_keeps (execStageInComplete_keeps ..)
  | .submitJob .. => leads_of_keeps (execSubmitJob_keeps ..)
  | .loadImage .. => leads_of_keeps (execLoadImage_keeps ..)
  | .unloadImage .. => leads_of_keeps (execUnloadImage_keeps ..)
  | .slip .. => leads_of_keeps (execSlip_keeps ..)
  | .timeStep .. => leads_of_keeps (execTimeStep_keeps ..)
  | .inject .. => leads_of_keeps (execInject_keeps ..)
  | .adminCommandNext => leads_of_keeps (execAdminCommandNext_keeps ..)
  | .outputCopyComplete .. => leads_of_keeps (execOutputCopyComplete_keeps ..)
  | .completionPost .. => leads_of_keeps (execCompletionPost_keeps ..)
  | .timeStart => leads_of_keeps (execTimeStart_keeps ..)
  | .timeConfigChange .. => leads_of_keeps (execTimeConfigChange_keeps ..)
  | .ptpSync .. => leads_of_keeps (execPtpSync_keeps ..)
  | .ptpSyncTimeout .. => leads_of_keeps (execPtpSyncTimeout_keeps ..)
  | .timeStepApply .. => leads_of_keeps (execTimeStepApply_keeps ..)
  | .timeStepTimeout .. => leads_of_keeps (execTimeStepTimeout_keeps ..)
  | .stampEpochNear .. => leads_of_keeps (execStampEpochNear_keeps ..)
  | .stampLimit .. => leads_of_keeps (execStampLimit_keeps ..)
  | .ethFrame .. => leads_of_keeps (execEthFrame_keeps ..)
  | .replayStart .. => leads_of_keeps (execReplayStart_keeps ..)
  | .replayEnd => leads_of_keeps (execReplayEnd_keeps ..)
  | .replayClockAdvance .. => leads_of_keeps (execReplayClockAdvance_keeps ..)
  | .trigEdge .. => leads_of_keeps (execTrigEdge_keeps ..)
  | .trigGlitch .. => leads_of_keeps (execTrigGlitch_keeps ..)
  | .trigQualify .. => leads_of_keeps (execTrigQualify_keeps ..)
  | .trigHoldoffEnd .. => leads_of_keeps (execTrigHoldoffEnd_keeps ..)
  | .camClockLock .. => leads_of_keeps (execCamClockLock_keeps ..)
  | .frameStart .. => leads_of_keeps (execFrameStart_keeps ..)
  | .csiLongPacket .. => leads_of_keeps (execCsiLongPacket_keeps ..)
  | .csiLineShortPacket die receiver vc dt => leads_of_keeps (execCsiLineShortPacket_keeps die receiver vc dt s)
  | .frameEnd .. => leads_of_keeps (execFrameEnd_keeps ..)
  | .frameReadoutTimeout .. => leads_of_keeps (execFrameReadoutTimeout_keeps ..)
  | .tagRxs .. => leads_of_keeps (execTagRxs_keeps ..)
  | .tagFr .. => leads_of_keeps (execTagFr_keeps ..)
  | .tagReadDone .. => leads_of_keeps (execTagReadDone_keeps ..)
  | .tagRateUpdate .. => leads_of_keeps (execTagRateUpdate_keeps ..)
  | .canFrameReceive .. => leads_of_keeps (execCanFrameReceive_keeps ..)
  | .canErrorFrame .. => leads_of_keeps (execCanErrorFrame_keeps ..)
  | .canTransmit .. => leads_of_keeps (execCanTransmit_keeps ..)
  | .canInitEnter .. => leads_of_keeps (execCanInitEnter_keeps ..)
  | .canInitLeave .. => leads_of_keeps (execCanInitLeave_keeps ..)
  | .mergeItemArrive .. => leads_of_keeps (execMergeItemArrive_keeps ..)
  | .mergeRelease .. => leads_of_keeps (execMergeRelease_keeps ..)
  | .cycleAdmission .. => leads_of_keeps (execCycleAdmission_keeps ..)
  | .frameJobAdmission .. => leads_of_keeps (execFrameJobAdmission_keeps ..)
  | .hostJobAdmission .. => leads_of_keeps (execHostJobAdmission_keeps ..)
  | .inputSetClosure .. => leads_of_keeps (execInputSetClosure_keeps ..)
  | .reservationEnd .. => leads_of_keeps (execReservationEnd_keeps ..)
  | .commitReceive .. => leads_of_keeps (execCommitReceive_keeps ..)
  | .commitCheck .. => leads_of_keeps (execCommitCheck_keeps ..)
  | .deadlineExpiry .. => leads_of_keeps (execDeadlineExpiry_keeps ..)
  | .replyReceive .. => leads_of_keeps (execReplyReceive_keeps ..)
  | .eventRetransmit .. => leads_of_keeps (execEventRetransmit_keeps ..)
  | .eventAbandon .. => leads_of_keeps (execEventAbandon_keeps ..)
  | .dflFrameSend .. => leads_of_keeps (execDflFrameSend_keeps ..)
  | .dflTimeTick .. => leads_of_keeps (execDflTimeTick_keeps ..)
  | .dflFrameDiscard .. => leads_of_keeps (execDflFrameDiscard_keeps ..)
  | .dflSilenceTimeout .. => leads_of_keeps (execDflSilenceTimeout_keeps ..)
  | .dflAlignLossTimeout .. => leads_of_keeps (execDflAlignLossTimeout_keeps ..)
  | .dflDiscardCount .. => leads_of_keeps (execDflDiscardCount_keeps ..)
  | .dflLinkUp .. => leads_of_keeps (execDflLinkUp_keeps ..)
  | .statusEventReceive .. => leads_of_keeps (execStatusEventReceive_keeps ..)
  | .statusPeriodicReceive .. => leads_of_keeps (execStatusPeriodicReceive_keeps ..)
  | .statusIdentReceive .. => leads_of_keeps (execStatusIdentReceive_keeps ..)
  | .reflexRuleWrite .. => leads_of_keeps (execReflexRuleWrite_keeps ..)
  | .reflexLaunch .. => leads_of_keeps (execReflexLaunch_keeps ..)
  | .actRegGo .. => leads_of_keeps (execActRegGo_keeps ..)
  | .regDataReceive .. => leads_of_keeps (execRegDataReceive_keeps ..)
  | .actRegTimeout .. => leads_of_keeps (execActRegTimeout_keeps ..)
  | .slipPrepareWrite .. => leads_of_keeps (execSlipPrepareWrite_keeps ..)
  | .slipAbortWrite .. => leads_of_keeps (execSlipAbortWrite_keeps ..)
  | .partyPrepare .. => leads_of_keeps (execPartyPrepare_keeps ..)
  | .partyChecksumDone .. => leads_of_keeps (execPartyChecksumDone_keeps ..)
  | .prepareAck .. => leads_of_keeps (execPrepareAck_keeps ..)
  | .prepareNack .. => leads_of_keeps (execPrepareNack_keeps ..)
  | .slipPrepareTimeout .. => leads_of_keeps (execSlipPrepareTimeout_keeps ..)
  | .partyCommit .. => leads_of_keeps (execPartyCommit_keeps ..)
  | .commitAckReceive .. => leads_of_keeps (execCommitAckReceive_keeps ..)
  | .slipArmTimeout .. => leads_of_keeps (execSlipArmTimeout_keeps ..)
  | .partyAbort .. => leads_of_keeps (execPartyAbort_keeps ..)
  | .slipPoint .. => leads_of_keeps (execSlipPoint_keeps ..)
  | .tileBankRetireEnd .. => leads_of_keeps (execTileBankRetireEnd_keeps ..)
  | .mesaBankRetireEnd .. => leads_of_keeps (execMesaBankRetireEnd_keeps ..)
  | .slipReclaimTimeout .. => leads_of_keeps (execSlipReclaimTimeout_keeps ..)
  | .leeRefreshDone .. => leads_of_keeps (execLeeRefreshDone_keeps ..)
  | .leeChunkRetransmit .. => leads_of_keeps (execLeeChunkRetransmit_keeps ..)
  | .jobStart .. => leads_of_keeps (execJobStart_keeps ..)
  | .engineOpComplete .. => leads_of_keeps (execEngineOpComplete_keeps ..)
  | .scrubRead .. => leads_of_keeps (execScrubRead_keeps ..)
  | .reservoirPatrol .. => leads_of_keeps (execReservoirPatrol_keeps ..)
  | .tileCbWrite .. => leads_of_keeps (execTileCbWrite_keeps ..)
  | .flitHop .. => leads_of_keeps (execFlitHop_keeps ..)
  | .creditReturn .. => leads_of_keeps (execCreditReturn_keeps ..)
  | .horizonArrive .. => leads_of_keeps (execHorizonArrive_keeps ..)
  | .flitDeliver .. => leads_of_keeps (execFlitDeliver_keeps ..)
  | .hopWait .. => leads_of_keeps (execHopWait_keeps ..)
  | .beWait .. => leads_of_keeps (execBeWait_keeps ..)
  | .cairnBindMsg .. => leads_of_keeps (execCairnBindMsg_keeps ..)
  | .cairnAddMsg .. => leads_of_keeps (execCairnAddMsg_keeps ..)
  | .cairnAddsMsg .. => leads_of_keeps (execCairnAddsMsg_keeps ..)
  | .cairnFenceMsg .. => leads_of_keeps (execCairnFenceMsg_keeps ..)
  | .cairnWaitMsg .. => leads_of_keeps (execCairnWaitMsg_keeps ..)
  | .cairnSettleNMsg .. => leads_of_keeps (execCairnSettleNMsg_keeps ..)
  | .cairnSettleWMsg .. => leads_of_keeps (execCairnSettleWMsg_keeps ..)
  | .cairnCloseMsg .. => leads_of_keeps (execCairnCloseMsg_keeps ..)
  | .cairnApply .. => leads_of_keeps (execCairnApply_keeps ..)
  | .cairnReply .. => leads_of_keeps (execCairnReply_keeps ..)
  | .rowEnterA1 .. => leads_of_keeps (execRowEnterA1_keeps ..)
  | .rowEnterA2 .. => leads_of_keeps (execRowEnterA2_keeps ..)
  | .rowEnterA3 .. => leads_of_keeps (execRowEnterA3_keeps ..)
  | .rowWake .. => leads_of_keeps (execRowWake_keeps ..)
  | .rowWakeDone .. => leads_of_keeps (execRowWakeDone_keeps ..)
  | .rowCrestRestored .. => leads_of_keeps (execRowCrestRestored_keeps ..)
  | .rowLeeRestored .. => leads_of_keeps (execRowLeeRestored_keeps ..)
  | .wakeLate .. => leads_of_keeps (execWakeLate_keeps ..)
  | .commonEnterA1 .. => leads_of_keeps (execCommonEnterA1_keeps ..)
  | .commonWake .. => leads_of_keeps (execCommonWake_keeps ..)
  | .fDomainSwitchDone .. => leads_of_keeps (execFDomainSwitchDone_keeps ..)
  | .hintRegNoChange dom => leads_of_keeps (execHintRegNoChange_keeps dom s)
  | .hintRegIdleSoon .. => leads_of_keeps (execHintRegIdleSoon_keeps ..)
  | .hintRegBusySoon .. => leads_of_keeps (execHintRegBusySoon_keeps ..)
  | .busyHoldEnd .. => leads_of_keeps (execBusyHoldEnd_keeps ..)
  | .timingAlarm .. => leads_of_keeps (execTimingAlarm_keeps ..)
  | .avsWindow .. => leads_of_keeps (execAvsWindow_keeps ..)
  | .clockChange .. => leads_of_keeps (execClockChange_keeps ..)
  | .thermalSample .. => execThermalSample_leads _ _ _
  | .dwEnable .. => leads_of_keeps (execDwEnable_keeps ..)
  | .dwDisable .. => leads_of_keeps (execDwDisable_keeps ..)
  | .dwFreeze .. => leads_of_keeps (execDwFreeze_keeps ..)
  | .dwFrame .. => leads_of_keeps (execDwFrame_keeps ..)
  | .dwFeedGo .. => leads_of_keeps (execDwFeedGo_keeps ..)
  | .dwInferenceDone .. => leads_of_keeps (execDwInferenceDone_keeps ..)
  | .dwSourceLost .. => leads_of_keeps (execDwSourceLost_keeps ..)
  | .logRecordArrive .. => leads_of_keeps (execLogRecordArrive_keeps ..)
  | .logKeyedRelease .. => leads_of_keeps (execLogKeyedRelease_keeps ..)
  | .logHostCopy .. => leads_of_keeps (execLogHostCopy_keeps ..)
  | .logHostHeadWrite .. => leads_of_keeps (execLogHostHeadWrite_keeps ..)
  | .reservoirRange addr loader write t => leads_of_keeps (execReservoirRange_keeps addr loader write t s)
  | .stackFailed .. => execStackFailed_leads _ _ _ _
  | .tileFatal .. => execTileFatal_leads _ _ _
  | .safeClear .. => leads_of_keeps (execSafeClear_keeps ..)
  | .delluFlitCrcFail .. => leads_of_keeps (execDelluFlitCrcFail_keeps ..)
  | .delluRetrain .. => leads_of_keeps (execDelluRetrain_keeps ..)
  | .delluRetrainDone .. => leads_of_keeps (execDelluRetrainDone_keeps ..)
  | .linkFailed .. => execLinkFailed_leads _ _ _
  | .add .. => leads_of_keeps (execAdd_keeps ..)
  | .sub .. => leads_of_keeps (execSub_keeps ..)
  | .and_ .. => leads_of_keeps (execAnd_keeps ..)
  | .or_ .. => leads_of_keeps (execOr_keeps ..)
  | .xor_ .. => leads_of_keeps (execXor_keeps ..)
  | .sll .. => leads_of_keeps (execSll_keeps ..)
  | .srl .. => leads_of_keeps (execSrl_keeps ..)
  | .sra .. => leads_of_keeps (execSra_keeps ..)
  | .mul .. => leads_of_keeps (execMul_keeps ..)
  | .mulw .. => leads_of_keeps (execMulw_keeps ..)
  | .mulwu .. => leads_of_keeps (execMulwu_keeps ..)
  | .div .. => leads_of_keeps (execDiv_keeps ..)
  | .divu .. => leads_of_keeps (execDivu_keeps ..)
  | .rem .. => leads_of_keeps (execRem_keeps ..)
  | .remu .. => leads_of_keeps (execRemu_keeps ..)
  | .min .. => leads_of_keeps (execMin_keeps ..)
  | .max .. => leads_of_keeps (execMax_keeps ..)
  | .minu .. => leads_of_keeps (execMinu_keeps ..)
  | .maxu .. => leads_of_keeps (execMaxu_keeps ..)
  | .adds .. => leads_of_keeps (execAdds_keeps ..)
  | .subs .. => leads_of_keeps (execSubs_keeps ..)
  | .addi .. => leads_of_keeps (execAddi_keeps ..)
  | .andi .. => leads_of_keeps (execAndi_keeps ..)
  | .ori .. => leads_of_keeps (execOri_keeps ..)
  | .xori .. => leads_of_keeps (execXori_keeps ..)
  | .shi .. => leads_of_keeps (execShi_keeps ..)
  | .lui .. => leads_of_keeps (execLui_keeps ..)
  | .cmpEq .. => leads_of_keeps (execCmpEq_keeps ..)
  | .cmpNe .. => leads_of_keeps (execCmpNe_keeps ..)
  | .cmpLt .. => leads_of_keeps (execCmpLt_keeps ..)
  | .cmpGe .. => leads_of_keeps (execCmpGe_keeps ..)
  | .cmpLtu .. => leads_of_keeps (execCmpLtu_keeps ..)
  | .cmpGeu .. => leads_of_keeps (execCmpGeu_keeps ..)
  | .br .. => leads_of_keeps (execBr_keeps ..)
  | .jr .. => leads_of_keeps (execJr_keeps ..)
  | .pand .. => leads_of_keeps (execPand_keeps ..)
  | .por .. => leads_of_keeps (execPor_keeps ..)
  | .pxor .. => leads_of_keeps (execPxor_keeps ..)
  | .pandn .. => leads_of_keeps (execPandn_keeps ..)
  | .pnot .. => leads_of_keeps (execPnot_keeps ..)
  | .pfrom .. => leads_of_keeps (execPfrom_keeps ..)
  | .pto .. => leads_of_keeps (execPto_keeps ..)
  | .nop .. => leads_of_keeps (execNop_keeps ..)
  | .jend .. => leads_of_keeps (execJend_keeps ..)
  | .fenceEng .. => leads_of_keeps (execFenceEng_keeps ..)
  | .ld .. => leads_of_keeps (execLd_keeps ..)
  | .st .. => leads_of_keeps (execSt_keeps ..)
  | .aset .. => leads_of_keeps (execAset_keeps ..)
  | .amov .. => leads_of_keeps (execAmov_keeps ..)
  | .aadd .. => leads_of_keeps (execAadd_keeps ..)
  | .alen .. => leads_of_keeps (execAlen_keeps ..)
  | .ardlo .. => leads_of_keeps (execArdlo_keeps ..)
  | .ardhi .. => leads_of_keeps (execArdhi_keeps ..)
  | .dsetKind .. => leads_of_keeps (execDsetKind_keeps ..)
  | .dsetLoose .. => leads_of_keeps (execDsetLoose_keeps ..)
  | .dsetFmt .. => leads_of_keeps (execDsetFmt_keeps ..)
  | .dsetSources .. => leads_of_keeps (execDsetSources_keeps ..)
  | .dsetStream .. => leads_of_keeps (execDsetStream_keeps ..)
  | .dsetRing .. => leads_of_keeps (execDsetRing_keeps ..)
  | .fset .. => leads_of_keeps (execFset_keeps ..)
  | .fld t g xb c => leads_of_keeps (execFld_keeps t g xb c s)
  | .fmac .. => leads_of_keeps (execFmac_keeps ..)
  | .fdrn .. => leads_of_keeps (execFdrn_keeps ..)
  | .fadd .. => leads_of_keeps (execFadd_keeps ..)
  | .fsub .. => leads_of_keeps (execFsub_keeps ..)
  | .fmul .. => leads_of_keeps (execFmul_keeps ..)
  | .fma .. => leads_of_keeps (execFma_keeps ..)
  | .fmin .. => leads_of_keeps (execFmin_keeps ..)
  | .fmax .. => leads_of_keeps (execFmax_keeps ..)
  | .fabs .. => leads_of_keeps (execFabs_keeps ..)
  | .fneg .. => leads_of_keeps (execFneg_keeps ..)
  | .cvtF32F16 .. => leads_of_keeps (execCvtF32F16_keeps ..)
  | .cvtF16F32 .. => leads_of_keeps (execCvtF16F32_keeps ..)
  | .cvtF32I32 .. => leads_of_keeps (execCvtF32I32_keeps ..)
  | .cvtI32F32 .. => leads_of_keeps (execCvtI32F32_keeps ..)
  | .iadd .. => leads_of_keeps (execIadd_keeps ..)
  | .isub .. => leads_of_keeps (execIsub_keeps ..)
  | .imul .. => leads_of_keeps (execImul_keeps ..)
  | .iadds .. => leads_of_keeps (execIadds_keeps ..)
  | .isubs .. => leads_of_keeps (execIsubs_keeps ..)
  | .imin .. => leads_of_keeps (execImin_keeps ..)
  | .imax .. => leads_of_keeps (execImax_keeps ..)
  | .vand .. => leads_of_keeps (execVand_keeps ..)
  | .vor .. => leads_of_keeps (execVor_keeps ..)
  | .vxor .. => leads_of_keeps (execVxor_keeps ..)
  | .vsll .. => leads_of_keeps (execVsll_keeps ..)
  | .vsra .. => leads_of_keeps (execVsra_keeps ..)
  | .rsum .. => leads_of_keeps (execRsum_keeps ..)
  | .rmax .. => leads_of_keeps (execRmax_keeps ..)
  | .rmin .. => leads_of_keeps (execRmin_keeps ..)
  | .flt .. => leads_of_keeps (execFlt_keeps ..)
  | .feq .. => leads_of_keeps (execFeq_keeps ..)
  | .ilt .. => leads_of_keeps (execIlt_keeps ..)
  | .sel .. => leads_of_keeps (execSel_keeps ..)
  | .bcast .. => leads_of_keeps (execBcast_keeps ..)
  | .extr .. => leads_of_keeps (execExtr_keeps ..)
  | .insr .. => leads_of_keeps (execInsr_keeps ..)
  | .laneid .. => leads_of_keeps (execLaneid_keeps ..)
  | .vld32 .. => leads_of_keeps (execVld32_keeps ..)
  | .vld16 .. => leads_of_keeps (execVld16_keeps ..)
  | .vldu8 .. => leads_of_keeps (execVldu8_keeps ..)
  | .vldbc .. => leads_of_keeps (execVldbc_keeps ..)
  | .vst32 .. => leads_of_keeps (execVst32_keeps ..)
  | .vst16 .. => leads_of_keeps (execVst16_keeps ..)
  | .vstu8 .. => leads_of_keeps (execVstu8_keeps ..)
  | .vtab .. => leads_of_keeps (execVtab_keeps ..)
  | .gather .. => leads_of_keeps (execGather_keeps ..)
  | .gatherCsr .. => leads_of_keeps (execGatherCsr_keeps ..)
  | .scatter .. => leads_of_keeps (execScatter_keeps ..)
  | .scatterAcc .. => leads_of_keeps (execScatterAcc_keeps ..)
  | .sopenIn .. => leads_of_keeps (execSopenIn_keeps ..)
  | .sopenOut .. => leads_of_keeps (execSopenOut_keeps ..)
  | .sclose .. => leads_of_keeps (execSclose_keeps ..)
  | .sput .. => leads_of_keeps (execSput_keeps ..)
  | .sget .. => leads_of_keeps (execSget_keeps ..)
  | .shzn .. => leads_of_keeps (execShzn_keeps ..)
  | .cwait .. => leads_of_keeps (execCwait_keeps ..)
  | .cpost .. => leads_of_keeps (execCpost_keeps ..)
  | .cadd .. => leads_of_keeps (execCadd_keeps ..)
  | .cadds .. => leads_of_keeps (execCadds_keeps ..)
  | .cfence .. => leads_of_keeps (execCfence_keeps ..)
  | .settleN .. => leads_of_keeps (execSettleN_keeps ..)
  | .settleW .. => leads_of_keeps (execSettleW_keeps ..)
  | .stlo .. => leads_of_keeps (execStlo_keeps ..)
  | .sthi .. => leads_of_keeps (execSthi_keeps ..)
  | .stjob .. => leads_of_keeps (execStjob_keeps ..)
  | .psel .. => leads_of_keeps (execPsel_keeps ..)
  | .pget .. => leads_of_keeps (execPget_keeps ..)
  | .eget .. => leads_of_keeps (execEget_keeps ..)
  | .iklo .. => leads_of_keeps (execIklo_keeps ..)
  | .ikhi .. => leads_of_keeps (execIkhi_keeps ..)
  | .ikseq .. => leads_of_keeps (execIkseq_keeps ..)
  | .act .. => leads_of_keeps (execAct_keeps ..)
  | .log .. => leads_of_keeps (execLog_keeps ..)
  | .pwrNoChange t g a => leads_of_keeps (execPwrNoChange_keeps t g a s)
  | .pwrIdleSoon .. => leads_of_keeps (execPwrIdleSoon_keeps ..)
  | .pwrBusySoon .. => leads_of_keeps (execPwrBusySoon_keeps ..)
  | .bankId .. => leads_of_keeps (execBankId_keeps ..)
  | .bankOld .. => leads_of_keeps (execBankOld_keeps ..)
  | .rdcyc .. => leads_of_keeps (execRdcyc_keeps ..)
  | .rdst .. => leads_of_keeps (execRdst_keeps ..)
  | .spoll .. => leads_of_keeps (execSpoll_keeps ..)
  | .sgetnb .. => leads_of_keeps (execSgetnb_keeps ..)
  | .rdstall .. => leads_of_keeps (execRdstall_keeps ..)
  | .bzPowerUp .. => leads_of_keeps (execBzPowerUp_keeps ..)
  | .bzPowerupTimeout .. => leads_of_keeps (execBzPowerupTimeout_keeps ..)
  | .bzLogicReset .. => leads_of_keeps (execBzLogicReset_keeps ..)
  | .bzTimeFrame .. => leads_of_keeps (execBzTimeFrame_keeps ..)
  | .bzHeartbeatLoss .. => leads_of_keeps (execBzHeartbeatLoss_keeps ..)
  | .bzHoldLastEnd .. => leads_of_keeps (execBzHoldLastEnd_keeps ..)
  | .bzLimpPinChange .. => leads_of_keeps (execBzLimpPinChange_keeps ..)
  | .bzLimpEntryStart .. => leads_of_keeps (execBzLimpEntryStart_keeps ..)
  | .bzOvervolt .. => leads_of_keeps (execBzOvervolt_keeps ..)
  | .bzUndervolt .. => leads_of_keeps (execBzUndervolt_keeps ..)
  | .bzCrankEnter .. => leads_of_keeps (execBzCrankEnter_keeps ..)
  | .bzCrankEnd .. => leads_of_keeps (execBzCrankEnd_keeps ..)
  | .bzCrankTimeout .. => leads_of_keeps (execBzCrankTimeout_keeps ..)
  | .bzSupplyRecover .. => leads_of_keeps (execBzSupplyRecover_keeps ..)
  | .vsSample .. => leads_of_keeps (execVsSample_keeps ..)
  | .bzTrip .. => leads_of_keeps (execBzTrip_keeps ..)
  | .bzTripClear .. => leads_of_keeps (execBzTripClear_keeps ..)
  | .bzRelease .. => leads_of_keeps (execBzRelease_keeps ..)
  | .bzEnterLimp .. => leads_of_keeps (execBzEnterLimp_keeps ..)
  | .bzRegRead .. => leads_of_keeps (execBzRegRead_keeps ..)
  | .bzRegWrite .. => leads_of_keeps (execBzRegWrite_keeps ..)
  | .bzStatusSample .. => leads_of_keeps (execBzStatusSample_keeps ..)
  | .bzPeriodicStatus .. => leads_of_keeps (execBzPeriodicStatus_keeps ..)
  | .bzIdentStatus .. => leads_of_keeps (execBzIdentStatus_keeps ..)
  | .bzFrameSend .. => leads_of_keeps (execBzFrameSend_keeps ..)
  | .bzLimpStoreDone .. => leads_of_keeps (execBzLimpStoreDone_keeps ..)
  | .bzSlipPrepare .. => leads_of_keeps (execBzSlipPrepare_keeps ..)
  | .bzLeeData .. => leads_of_keeps (execBzLeeData_keeps ..)
  | .bzSlipCommit .. => leads_of_keeps (execBzSlipCommit_keeps ..)
  | .bzSlipAbort .. => leads_of_keeps (execBzSlipAbort_keeps ..)
  | .bzSlipPoint .. => leads_of_keeps (execBzSlipPoint_keeps ..)
  | .bzReseatSwitch .. => leads_of_keeps (execBzReseatSwitch_keeps ..)
  | .bzHsEventReceive .. => leads_of_keeps (execBzHsEventReceive_keeps ..)
  | .bzSolEventReceive .. => leads_of_keeps (execBzSolEventReceive_keeps ..)
  | .bzReflexReceive .. => leads_of_keeps (execBzReflexReceive_keeps ..)
  | .bzHsEventFire .. => leads_of_keeps (execBzHsEventFire_keeps ..)
  | .hsPulseEnd .. => leads_of_keeps (execHsPulseEnd_keeps ..)
  | .hsPwmPeriod .. => leads_of_keeps (execHsPwmPeriod_keeps ..)
  | .hsPwmOffEdge .. => leads_of_keeps (execHsPwmOffEdge_keeps ..)
  | .hsDcOlCheck .. => leads_of_keeps (execHsDcOlCheck_keeps ..)
  | .hsOverload .. => leads_of_keeps (execHsOverload_keeps ..)
  | .hsRetryEnd .. => leads_of_keeps (execHsRetryEnd_keeps ..)
  | .hsRetryReset .. => leads_of_keeps (execHsRetryReset_keeps ..)
  | .hsMWindowEnd .. => leads_of_keeps (execHsMWindowEnd_keeps ..)
  | .hsThermalShutdown .. => leads_of_keeps (execHsThermalShutdown_keeps ..)
  | .hsThermalRestart .. => leads_of_keeps (execHsThermalRestart_keeps ..)
  | .hsFuseUpdate .. => leads_of_keeps (execHsFuseUpdate_keeps ..)
  | .hsCompUpdate .. => leads_of_keeps (execHsCompUpdate_keeps ..)
  | .hsClampEnd .. => leads_of_keeps (execHsClampEnd_keeps ..)
  | .hsOlOffSourceOn .. => leads_of_keeps (execHsOlOffSourceOn_keeps ..)
  | .hsOlOffSample .. => leads_of_keeps (execHsOlOffSample_keeps ..)
  | .hsPairImbalance .. => leads_of_keeps (execHsPairImbalance_keeps ..)
  | .hsFlagClear .. => leads_of_keeps (execHsFlagClear_keeps ..)
  | .bzSolEventStart .. => leads_of_keeps (execBzSolEventStart_keeps ..)
  | .solPeakReached .. => leads_of_keeps (execSolPeakReached_keeps ..)
  | .solPeakTimeout .. => leads_of_keeps (execSolPeakTimeout_keeps ..)
  | .solDwellEnd .. => leads_of_keeps (execSolDwellEnd_keeps ..)
  | .solSourceSwitch .. => leads_of_keeps (execSolSourceSwitch_keeps ..)
  | .solChopPeriod .. => leads_of_keeps (execSolChopPeriod_keeps ..)
  | .solHoldEnd .. => leads_of_keeps (execSolHoldEnd_keeps ..)
  | .solDecayEnd .. => leads_of_keeps (execSolDecayEnd_keeps ..)
  | .solRestEnd .. => leads_of_keeps (execSolRestEnd_keeps ..)
  | .solShort .. => leads_of_keeps (execSolShort_keeps ..)
  | .solCoilUpdate .. => leads_of_keeps (execSolCoilUpdate_keeps ..)
  | .solProbe .. => leads_of_keeps (execSolProbe_keeps ..)
  | .solProbeDone .. => leads_of_keeps (execSolProbeDone_keeps ..)
  | .bstMeasure .. => leads_of_keeps (execBstMeasure_keeps ..)
  | .solFlagClear .. => leads_of_keeps (execSolFlagClear_keeps ..)
  | .solRelearn .. => leads_of_keeps (execSolRelearn_keeps ..)
  | .vddKeepLoss => execVddKeepLoss_leads _
  | .ethLinkChange .. => leads_of_keeps (execEthLinkChange_keeps ..)
  | .ptpAnnounceReceive .. => leads_of_keeps (execPtpAnnounceReceive_keeps ..)
  | .ptpDelayResponse .. => leads_of_keeps (execPtpDelayResponse_keeps ..)
  | .ptpMasterSyncSend .. => leads_of_keeps (execPtpMasterSyncSend_keeps ..)
  | .bzDflFrameDiscard .. => leads_of_keeps (execBzDflFrameDiscard_keeps ..)
  | .solChopOff .. => leads_of_keeps (execSolChopOff_keeps ..)

/-- Settles O58: a step runs one command on the state with the queue's rest, or idles. -/
theorem liveUnitsAreFitted : Obligations.LiveUnitsAreFitted := by
  intro s u fit ran
  unfold step at ran
  split at ran
  next => cases ran; exact fit
  next c rest _ => exact (exec_leads c { s with pending := rest } u ran).liveFitted fit

end Sys2Proof.Machine
end

section
/-! SUPPORT. The state of reset (02 R50, R51; 15 R404; 22 R593, R601): obligation O60. -/

namespace Sys2Proof.Machine

/-- Units and tiles all in service are fitted (R50, R51). -/
theorem State.liveFitted_of_all (s : State) (live : s.live = s.fuses.allLive) (tiles : s.tileLive = s.fuses.allTiles) : s.LiveFitted :=
  ⟨by rw [live, BitVec.and_not_self], by rw [tiles, BitVec.and_not_self]⟩

theorem reset_chips (n : Fin 4) : State.reset.chips[n] = {} := Vector.getElem_replicate _

/-- Settles O60: each field as the definition of the state of reset gives it. -/
theorem resetState : Obligations.ResetState :=
  ⟨rfl, rfl, rfl, State.liveFitted_of_all _ rfl rfl, rfl, rfl, rfl, rfl, rfl, reset_resv_wf, fun _ => rfl, rfl, rfl, rfl, rfl, rfl,
    fun n => congrArg Chip.powered (reset_chips n)⟩

end Sys2Proof.Machine
end

section
/-! SUPPORT. What leaves the reservoir alone, operation by operation (05, 06): obligation O59. -/

namespace Sys2Proof.Machine
variable (s : State)
@[simp] theorem State.ite_resv (b : Prop) [Decidable b] (u v : State) : (if b then u else v).resv = if b then u.resv else v.resv := apply_ite _ _ _ _

@[simp] theorem State.foldl_resv {α : Type} (f : State → α → State) (l : List α) (s : State) (h : ∀ (s : State) a, (f s a).resv = s.resv) : (l.foldl f s).resv = s.resv :=
  State.foldl_preserves State.resv f h l s

/-! ### Ops -/

@[simp] theorem State.setFlag_resv (a b : Nat) : (s.setFlag a b).resv = s.resv := (s.reported_setFlag _ _).resv
@[simp] theorem State.countByte_resv (a n : Nat) : (s.countByte a n).resv = s.resv := (s.reported_countByte _ _).resv
@[simp] theorem State.count32_resv (a k : Nat) : (s.count32 a k).resv = s.resv := (s.reported_count32 _ _).resv
@[simp] theorem State.tileFlag_resv (t b : Nat) : (s.tileFlag t b).resv = s.resv := by rfl
@[simp] theorem State.cairnFlag_resv (k b : Nat) : (s.cairnFlag k b).resv = s.resv := (s.reported_cairnFlag _ _).resv
@[simp] theorem State.flowFlag_resv (k b : Nat) : (s.flowFlag k b).resv = s.resv := (s.reported_flowFlag _ _).resv
@[simp] theorem State.gvFlag_resv (b : Nat) : (s.gvFlag b).resv = s.resv := (s.reported_gvFlag _).resv
@[simp] theorem State.faultFlag_resv (b : Nat) : (s.faultFlag b).resv = s.resv := (s.reported_faultFlag _).resv
@[simp] theorem State.inFlag_resv (j b : Nat) : (s.inFlag j b).resv = s.resv := (s.reported_inFlag _ _).resv
@[simp] theorem State.pwrFlag_resv (b : Nat) : (s.pwrFlag b).resv = s.resv := by simp [State.pwrFlag]
@[simp] theorem State.dwFlag_resv (b : Nat) : (s.dwFlag b).resv = s.resv := by rfl
@[simp] theorem State.actFlag_resv (j b : Nat) : (s.actFlag j b).resv = s.resv := (s.reported_actFlag _ _).resv
@[simp] theorem State.slipFlag_resv (b : Nat) : (s.slipFlag b).resv = s.resv := by rfl
@[simp] theorem State.signal_resv (v : Nat) : (s.signal v).resv = s.resv := (s.reported_signal _).resv
@[simp] theorem State.sendReg_resv (p off : Nat) (v : Word) : (s.sendReg p off v).resv = s.resv := (s.reported_sendReg _ _ _).resv
@[simp] theorem State.makeRecord_resv (die sev : Nat) (key : Option Key) (bytes : List Byte) : (s.makeRecord die sev key bytes).resv = s.resv := (s.reported_makeRecord _ _ _ _).resv
@[simp] theorem State.fault_resv (die : Nat) (key : Option Key) (f : FaultInfo) : (s.fault die key f).resv = s.resv := (s.reported_fault _ _ _).resv
@[simp] theorem State.faultThrottled_resv (clear : Bool) (die : Nat) (f : FaultInfo) : (s.faultThrottled clear die f).resv = s.resv := (s.reported_faultThrottled _ _ _).resv
@[simp] theorem State.absentAccess_resv (group : Nat) : (s.absentAccess group).resv = s.resv := by simp [State.absentAccess]
@[simp] theorem State.countVoid_resv (void : Nat) : (s.countVoid void).resv = s.resv := (s.reported_countVoid _).resv
@[simp] theorem State.mark_resv (id : JobId) (m : Nat) : (s.mark id m).resv = s.resv := by rfl
@[simp] theorem State.cairnFlags_resv (k : Nat) (bs : List Nat) : (s.cairnFlags k bs).resv = s.resv := (s.reported_cairnFlags _ _).resv
@[simp] theorem State.sendReplies_resv (k : Nat) (rs : List (Nat × Key × Nat × Bool)) : (s.sendReplies k rs).resv = s.resv := by simp [State.sendReplies]
@[simp] theorem State.dropBindings_resv (id : JobId) : (s.dropBindings id).resv = s.resv := by simp [State.dropBindings]
@[simp] theorem State.freeTiles_resv (id : JobId) : (s.freeTiles id).resv = s.resv := by rfl
@[simp] theorem State.freeRanges_resv (p : StageRange → Bool) : (s.freeRanges p).resv = s.resv := by rfl
@[simp] theorem State.hpDone_resv (c : HpCmd) (status detail result : Nat) : (s.hpDone c status detail result).resv = s.resv := by simp [State.hpDone]
@[simp] theorem State.hostJobOver_resv (id : JobId) : (s.hostJobOver id).resv = s.resv := by
  unfold State.hostJobOver
  split <;> simp
@[simp] theorem State.stopJob_resv (id : JobId) (reason : Nat) (key : Key) (detail unit : Nat) : (s.stopJob id reason key detail unit).resv = s.resv := by
  unfold State.stopJob
  split <;> simp
@[simp] theorem State.stopAll_resv (k : Nat) (l : List (JobId × Nat × Key × Nat)) : (s.stopAll k l).resv = s.resv := by simp [State.stopAll]
@[simp] theorem State.applyOut_resv (k : Nat) (r : ApplyOut) : (s.applyOut k r).resv = s.resv := by simp [State.applyOut]

/-! ### NtCore -/

@[simp] theorem State.memCe_resv (t store addr : Nat) (stamp : Stamp) : (s.memCe t store addr stamp).resv = s.resv := by
  unfold State.memCe
  split <;> simp
@[simp] theorem State.memUe_resv (t h store addr : Nat) (stamp : Stamp) : (s.memUe t h store addr stamp).resv = s.resv := by
  unfold State.memUe
  exact (State.fault_resv _ _ _ _).trans rfl
@[simp] theorem State.raiseExc_resv (t : Nat) (c : Core) (cause : Nat) : (s.raiseExc t c cause).resv = s.resv := by simp [State.raiseExc]
@[simp] theorem State.excAt_resv (t : Nat) (c : Core) (cause : Nat) : (s.excAt t c cause).resv = s.resv := by simp [State.excAt]

/-! ### NtPort -/

@[simp] theorem State.inject_resv (m : Msg) : (s.inject m).resv = s.resv := by rfl
@[simp] theorem State.closeDesc_resv (t : Nat) (c : Core) (d : Desc) : (s.closeDesc t c d).resv = s.resv := by
  unfold State.closeDesc
  split <;> simp
@[simp] theorem State.tileEnded_resv (t : Nat) (id : JobId) : (s.tileEnded t id).resv = s.resv := by
  unfold State.tileEnded
  dsimp only
  split <;> simp

/-! ### Lanes -/

@[simp] theorem State.modDie_resv (j : Nat) (f : DieIngress → DieIngress) : (s.modDie j f).resv = s.resv := by rfl
@[simp] theorem State.logInput_resv (die kind outcome flags : Nat) (key : Key) (data : List Byte) : (s.logInput die kind outcome flags key data).resv = s.resv := (s.reported_logInput _ _ _ _ _ _).resv
@[simp] theorem State.setLane_resv (j : Nat) (admission : Bool) (l : List MSource) : (s.setLane j admission l).resv = s.resv := by rfl
@[simp] theorem State.lateIngress_resv (j byte : Nat) (i : Item) : (s.lateIngress j byte i).resv = s.resv := (s.reported_lateIngress _ _ _).resv
@[simp] theorem State.laneArrive_resv (j : Nat) (admission : Bool) (byte : Nat) (i : Item) : (s.laneArrive j admission byte i).resv = s.resv := by simp [State.laneArrive]
@[simp] theorem State.laneHorizon_resv (j : Nat) (admission : Bool) (byte : Nat) (h : Key) : (s.laneHorizon j admission byte h).resv = s.resv := by rfl
@[simp] theorem State.deliverItem_resv (j : Nat) (i : Item) : (s.deliverItem j i).resv = s.resv := by rfl

/-! ### Lee -/

@[simp] theorem State.setRow_resv (d : Nat) (r : Row) : (s.setRow d r).resv = s.resv := by rfl
@[simp] theorem State.wakeRow_resv (d : Nat) : (s.wakeRow d).resv = s.resv := by simp [State.wakeRow]
@[simp] theorem State.leeLocked_resv (a : Nat) : (s.leeLocked a).resv = s.resv := by simp [State.leeLocked]
@[simp] theorem State.setLee_resv (a : Nat) (mask v : Word) : (s.setLee a mask v).resv = s.resv := by rfl
@[simp] theorem State.rwlError_resv (bank a : Nat) (ue : Bool) : (s.rwlError bank a ue).resv = s.resv := by
  unfold State.rwlError
  dsimp only
  split
  · simp
  · split <;> simp
@[simp] theorem State.rwlReads_resv (bank : Nat) (reads : Nat → Bool) (hits : List EccHit) : (s.rwlReads bank reads hits).resv = s.resv := by simp [State.rwlReads]
@[simp] theorem State.holdWrite_resv (a : Nat) (mask v : Word) : (s.holdWrite a mask v).resv = s.resv := by simp [State.holdWrite]
@[simp] theorem State.leeWrite_resv (a : Nat) (mask v : Word) : (s.leeWrite a mask v).resv = s.resv := by simp [State.leeWrite]
@[simp] theorem State.modHalf_resv (t h : Nat) (f : TileBank → TileBank) : (s.modHalf t h f).resv = s.resv := by rfl
@[simp] theorem State.expectLee_resv (t : Nat) : (s.expectLee t).resv = s.resv := by rfl
@[simp] theorem State.cbWord_resv (t j : Nat) (v : Word) : (s.cbWord t j v).resv = s.resv := by rfl
@[simp] theorem State.releaseTile_resv (t : Nat) : (s.releaseTile t).resv = s.resv := by simp [State.releaseTile]
@[simp] theorem State.cbWrite_resv (t j : Nat) (v : Word) : (s.cbWrite t j v).resv = s.resv := by simp [State.cbWrite]
@[simp] theorem State.setPair_resv (a v : Nat) : (s.setPair a v).resv = s.resv := by rfl

/-! ### Slip -/

@[simp] theorem State.sendSlip_resv (c op : Nat) : (s.sendSlip c op).resv = s.resv := by rfl
@[simp] theorem State.sendChunks_resv (c : Nat) (m : SMap Word) : (s.sendChunks c m).resv = s.resv := by
  unfold State.sendChunks
  refine (State.foldl_resv _ _ _ fun s k => ?_).trans ?_ <;> rfl
@[simp] theorem State.slipReply_resv (status reason : Nat) : (s.slipReply status reason).resv = s.resv := by
  unfold State.slipReply
  split <;> simp
@[simp] theorem State.slipCount_resv (hi : Bool) : (s.slipCount hi).resv = s.resv := by rfl
@[simp] theorem State.slipAbort_resv (reason : Nat) (party : Option Party) : (s.slipAbort reason party).resv = s.resv := by
  unfold State.slipAbort
  split <;> simp
@[simp] theorem State.partyGone_resv (p : Party) : (s.partyGone p).resv = s.resv := by simp [State.partyGone]
@[simp] theorem State.slipRequest_resv (point deadline expect exclude : Nat) : (s.slipRequest point deadline expect exclude).resv = s.resv := by simp [State.slipRequest]
@[simp] theorem State.digestStep_resv : (s.digestStep).resv = s.resv := by simp [State.digestStep]
@[simp] theorem State.armStep_resv : (s.armStep).resv = s.resv := by simp [State.armStep]
@[simp] theorem State.slipAck_resv (p : Party) (sum : Nat) : (s.slipAck p sum).resv = s.resv := by
  unfold State.slipAck
  dsimp only
  split
  · simp
  · split <;> simp
@[simp] theorem State.noteChip_resv (p : Nat) (st : Stamp) : (s.noteChip p st).resv = s.resv := by simp [State.noteChip]
@[simp] theorem State.unseat_resv (c : Nat) : (s.unseat c).resv = s.resv := by simp [State.unseat]
@[simp] theorem State.tileSlips_resv (t : Nat) : (s.tileSlips t).resv = s.resv := by
  unfold State.tileSlips
  dsimp only
  rw [State.modTile_resv, State.setPair_resv, State.setReg_resv]
@[simp] theorem State.mesaSlips_resv (d : Nat) : (s.mesaSlips d).resv = s.resv := by rfl
@[simp] theorem State.reclaim_resv (id : JobId) (tiles : List Nat) (unit : Nat) : (s.reclaim id tiles unit).resv = s.resv := by simp [State.reclaim]
@[simp] theorem State.retireTile_resv (t : Nat) : (s.retireTile t).resv = s.resv := by rfl
@[simp] theorem State.refreshTile_resv (t : Nat) : (s.refreshTile t).resv = s.resv := by simp [State.refreshTile]
@[simp] theorem State.refreshMesa_resv (d : Nat) : (s.refreshMesa d).resv = s.resv := by simp [State.refreshMesa]

/-! ### Actuation -/

@[simp] theorem State.modCycle_resv (id : JobId) (f : Cycle → Cycle) : (s.modCycle id f).resv = s.resv := by rfl
@[simp] theorem State.decision_resv (c : Cycle) (n verdict reason : Nat) (ev : List Byte) : (s.decision c n verdict reason ev).resv = s.resv := (s.reported_decision _ _ _ _ _).resv
@[simp] theorem State.sendEvent_resv (id : JobId) (die : Nat) (e : ActEvent) : (s.sendEvent id die e).resv = s.resv := by rfl
@[simp] theorem State.runDefault_resv (c : Cycle) (skip : Option Nat) (direct : Bool) : (s.runDefault c skip direct).resv = s.resv := by simp [State.runDefault]
@[simp] theorem State.finish_resv (id : JobId) (verdict reason : Nat) (skip : Option Nat) (direct : Bool) : (s.finish id verdict reason skip direct).resv = s.resv := by
  unfold State.finish
  split
  · rfl
  · dsimp only
    split
    · rfl
    · split <;> simp
@[simp] theorem State.append_resv (id : JobId) (verdict reason : Nat) (ev : ActEvent) (skip : Option Nat) : (s.append id verdict reason ev skip).resv = s.resv := by
  unfold State.append
  split
  · rfl
  · dsimp only
    split <;> simp
@[simp] theorem State.eventLost_resv (e : DflEvent) (verdict reason : Nat) : (s.eventLost e verdict reason).resv = s.resv := by
  unfold State.eventLost
  dsimp only
  split <;> simp
@[simp] theorem State.abandon_resv (p eid : Nat) : (s.abandon p eid).resv = s.resv := by
  unfold State.abandon
  dsimp only
  split <;> simp
@[simp] theorem State.sendOrAbandon_resv (c : Cycle) (e : ActEvent) : (s.sendOrAbandon c e).resv = s.resv := by
  unfold State.sendOrAbandon
  dsimp only
  split
  · simp
  · split <;> simp
@[simp] theorem State.bankRun_resv : (s.bankRun).resv = s.resv := by
  refine State.foldl_resv _ _ _ fun s c => ?_
  split <;> simp
@[simp] theorem State.resolve_resv (id : JobId) (verdict reason : Nat) : (s.resolve id verdict reason).resv = s.resv := by simp [State.resolve]
@[simp] theorem State.commitIn_resv (die : Nat) (key : Key) (void : Nat) (body : List Byte) : (s.commitIn die key void body).resv = s.resv := by
  unfold State.commitIn
  split <;> simp
@[simp] theorem State.commitCheck_resv (c : Cycle) (m : CommitMsg) : (s.commitCheck c m).resv = s.resv := by
  unfold State.commitCheck
  dsimp only
  split <;> simp

/-! ### Dfl -/

@[simp] theorem State.linkDown_resv (p : Nat) (at_ : Time) (cond : Nat) : (s.linkDown p at_ cond).resv = s.resv := by simp [State.linkDown]
@[simp] theorem State.seat_resv (p : Nat) : (s.seat p).resv = s.resv := by
  unfold State.seat
  dsimp only
  split_ifs <;> simp
@[simp] theorem State.compare_resv (p : Nat) : (s.compare p).resv = s.resv := by
  unfold State.compare
  dsimp only
  split <;> simp
@[simp] theorem State.validFrame_resv (p : Nat) : (s.validFrame p).resv = s.resv := by rfl
@[simp] theorem State.statusFrame_resv (p : Nat) (body : List Byte) : (s.statusFrame p body).resv = s.resv := by rfl
@[simp] theorem State.chipEvent_resv (p : Nat) (st : Stamp) (held : Nat) : (s.chipEvent p st held).resv = s.resv := by simp [State.chipEvent]
@[simp] theorem State.replyIn_resv (p eid result time : Nat) : (s.replyIn p eid result time).resv = s.resv := by
  unfold State.replyIn
  dsimp only
  split
  · simp
  · split <;> simp
@[simp] theorem State.ruleWrite_resv (die rule word : Nat) (value : Word) : (s.ruleWrite die rule word value).resv = s.resv := by simp [State.ruleWrite]
@[simp] theorem State.launch_resv (die rule : Nat) (old falling sentinel : Bool) (stamp : Stamp) (w1 w2 : Word) : (s.launch die rule old falling sentinel stamp w1 w2).resv = s.resv := by simp [State.launch]
@[simp] theorem State.reflex_resv (die : Nat) (source : ReflexSource) (falling : Bool) (stamp : Stamp) (levels : Nat) : (s.reflex die source falling stamp levels).resv = s.resv := by simp [State.reflex]
@[simp] theorem State.takeSentinel_resv (source : ReflexSource) (falling : Bool) (stamp : Stamp) : (s.takeSentinel source falling stamp).resv = s.resv := by
  unfold State.takeSentinel
  split <;> rfl

/-! ### TileRows -/

@[simp] theorem State.startJob_resv (t : Nat) (m : StartMsg) : (s.startJob t m).resv = s.resv := by simp [State.startJob]

/-! ### Admission -/

@[simp] theorem State.noteMiss_resv (w : Want) : (s.noteMiss w).resv = s.resv := (s.reported_noteMiss w).resv
@[simp] theorem State.notePeak_resv : (s.notePeak).resv = s.resv := by rfl
@[simp] theorem State.startTiles_resv (id : JobId) : (s.startTiles id).resv = s.resv := by
  unfold State.startTiles
  split <;> simp
@[simp] theorem State.beginJob_resv (j : Job) (c : Option Cycle) : (s.beginJob j c).resv = s.resv := by
  unfold State.beginJob
  dsimp only
  split <;> split <;> simp
@[simp] theorem State.takeEvent_resv (die : Fin 2) (st : Stamp) : (s.takeEvent die st).resv = s.resv := by rfl
@[simp] theorem State.refuseCycle_resv (c : Cycle) (reason : Nat) : (s.refuseCycle c reason).resv = s.resv := by simp [State.refuseCycle]
@[simp] theorem State.admitCycle_resv (die cls : Nat) (st : Stamp) (item : Item) : (s.admitCycle die cls st item).resv = s.resv := by
  unfold State.admitCycle
  extract_lets old w0 image ident want out logged noted
  have logged_resv : logged.resv = s.resv := by simp [logged]
  have noted_resv : noted.resv = s.resv := by
    clear_value want logged
    unfold noted
    split <;> simp [logged_resv]
  clear_value noted out want
  split <;> simp [noted_resv]
@[simp] theorem State.frameResolved_resv (st : Stamp) (damaged : Bool) : (s.frameResolved st damaged).resv = s.resv := by
  unfold State.frameResolved
  dsimp only
  split <;> simp
@[simp] theorem State.frameGate_resv (die : Fin 2) (st : Stamp) : (s.frameGate die st).resv = s.resv := by
  unfold State.frameGate
  split <;> simp
@[simp] theorem State.sendHeader_resv (j : Job) (body : List Byte) : (s.sendHeader j body).resv = s.resv := by simp [State.sendHeader]
@[simp] theorem State.beginHost_resv (c : HpCmd) (j : Job) : (s.beginHost c j).resv = s.resv := by simp [State.beginHost]
@[simp] theorem State.closeSet_resv (c : Cycle) : (s.closeSet c).resv = s.resv := by rfl

/-! ### BzRows -/

@[simp] theorem State.onLive_resv (n : Fin 4) (f : Chip → Chip) : (s.onLive n f).resv = s.resv := by simp [State.onLive]

/-! ### NtStream -/

/-! ### CairnRows -/

@[simp] theorem State.cairnStep_resv (k : Nat) (r : ApplyOut) : (s.cairnStep k r).resv = s.resv := by simp [State.cairnStep]
@[simp] theorem State.cairnOp_resv (k : Nat) (o : COp) : (s.cairnOp k o).resv = s.resv := by simp [State.cairnOp]
@[simp] theorem State.cairnClose_resv (k : Nat) (id : JobId) (prods : List Nat) : (s.cairnClose k id prods).resv = s.resv := by simp [State.cairnClose]
@[simp] theorem State.cairnBind_resv (k : Nat) (b : Binding) : (s.cairnBind k b).resv = s.resv := by simp [State.cairnBind]
@[simp] theorem State.cairnEcc_resv (k cairn : Nat) (ue : Bool) : (s.cairnEcc k cairn ue).resv = s.resv := by simp [State.cairnEcc]
@[simp] theorem State.cairnPoisonStop_resv (k : Nat) (o : COp) : (s.cairnPoisonStop k o).resv = s.resv := by simp [State.cairnPoisonStop]
@[simp] theorem State.misfit_resv (t : Nat) (c : Core) (slot : Nat) (x : Settled) (wide : Option Nat) (cyc : Nat) : (s.misfit t c slot x wide cyc).resv = s.resv := by simp [State.misfit]
@[simp] theorem State.settleRecord_resv (t : Nat) (c : Core) (w : CairnWait) (result : Word) (decision : Bool) (x : Settled) (cyc : Nat) : (s.settleRecord t c w result decision x cyc).resv = s.resv := by
  unfold State.settleRecord
  split
  · simp
  · split
    · split <;> simp
    · rfl

/-! ### Flow -/

@[simp] theorem State.portArrive_resv (t kind stream src : Nat) (i : Item) : (s.portArrive t kind stream src i).resv = s.resv := by rfl
@[simp] theorem State.portHorizon_resv (t kind stream src : Nat) (h : Key) : (s.portHorizon t kind stream src h).resv = s.resv := by rfl
@[simp] theorem State.portRelease_resv (t kind stream : Nat) : (s.portRelease t kind stream).resv = s.resv := by
  unfold State.portRelease
  dsimp only
  split
  · rfl
  · split
    · simp
    · split
      · rfl
      · split <;> simp
@[simp] theorem State.logItem_resv (j : Nat) (i : Item) : (s.logItem j i).resv = s.resv := (s.reported_logItem _ _).resv
@[simp] theorem State.laneRelease_resv (j : Nat) (admission : Bool) : (s.laneRelease j admission).resv = s.resv := by
  unfold State.laneRelease
  dsimp only
  split
  · rfl
  · split <;> simp
@[simp] theorem State.cairnIn_resv (k : Nat) (m : Msg) : (s.cairnIn k m).resv = s.resv := by
  unfold State.cairnIn
  dsimp only
  split <;> simp
@[simp] theorem State.replyAt_resv (t : Nat) (m : Msg) : (s.replyAt t m).resv = s.resv := by rfl
@[simp] theorem State.consume_resv (m : Msg) : (s.consume m).resv = s.resv := by
  unfold State.consume
  split <;> simp
@[simp] theorem State.sidebandFail_resv (m : Msg) (headGood : Bool) : (s.sidebandFail m headGood).resv = s.resv := by simp [State.sidebandFail]

/-! ### Ingress -/

@[simp] theorem State.setTrig_resv (j : Fin 2) (n : Fin 32) (x : TrigIn) : (s.setTrig j n x).resv = s.resv := by rfl
@[simp] theorem State.setCam_resv (j : Fin 2) (n : Nat) (x : Cam) : (s.setCam j n x).resv = s.resv := by rfl
@[simp] theorem State.endFrame_resv (j : Fin 2) (n : Nat) (damaged : Bool) : (s.endFrame j n damaged).resv = s.resv := by
  unfold State.endFrame
  dsimp only
  split <;> simp
@[simp] theorem State.reclaimSlot_resv (j : Fin 2) (n slot : Nat) : (s.reclaimSlot j n slot).resv = s.resv := by simp [State.reclaimSlot]
@[simp] theorem State.startFrame_resv (j : Fin 2) (n : Nat) (t : Time) : (s.startFrame j n t).resv = s.resv := by simp [State.startFrame]
@[simp] theorem State.setTag_resv (j : Fin 2) (p : Fin 8) (x : TagPort) : (s.setTag j p x).resv = s.resv := by rfl
@[simp] theorem State.tagReject_resv (j : Fin 2) (p : Fin 8) : (s.tagReject j p).resv = s.resv := by simp [State.tagReject]
@[simp] theorem State.setCan_resv (j : Fin 2) (c : Fin 4) (x : Can) : (s.setCan j c x).resv = s.resv := by rfl

/-! ### Faults -/

@[simp] theorem State.setWriter_resv (j : Nat) (w : LogWriter) : (s.setWriter j w).resv = s.resv := by rfl
@[simp] theorem State.logLost_resv (j n : Nat) : (s.logLost j n).resv = s.resv := by simp [State.logLost]
@[simp] theorem State.logEntry_resv (j : Nat) (r : LogRec) (early : Bool) : (s.logEntry j r early).resv = s.resv := by simp [State.logEntry]
@[simp] theorem State.stopWhere_resv (p : Job → Bool) (reason unit : Nat) : (s.stopWhere p reason unit).resv = s.resv := by simp [State.stopWhere]
@[simp] theorem State.outRecord_resv (die kind index detail : Nat) : (s.outRecord die kind index detail).resv = s.resv := by simp [State.outRecord]
@[simp] theorem State.clearLive_resv (bits : List Nat) : (s.clearLive bits).resv = s.resv := by rfl
@[simp] theorem State.dropTraffic_resv (d : Nat) : (s.dropTraffic d).resv = s.resv := by rfl
@[simp] theorem State.ergOut_resv (k reason : Nat) : (s.ergOut k reason).resv = s.resv := by simp [State.ergOut]
@[simp] theorem State.tileOut_resv (t : Nat) : (s.tileOut t).resv = s.resv := by simp [State.tileOut]
@[simp] theorem State.stackOut_resv (n : Nat) : (s.stackOut n).resv = s.resv := by simp [State.stackOut]
@[simp] theorem State.mesaOut_resv : (s.mesaOut).resv = s.resv := by simp [State.mesaOut]

/-! ### Loader -/

@[simp] theorem State.putChunk_resv (h : Nat) (c : Chunk) (bad : Nat → Bool) : (s.putChunk h c bad).resv = s.resv := by simp [State.putChunk]
@[simp] theorem State.zeroLee_resv (p : PlaceRec) : (s.zeroLee p).resv = s.resv := by simp [State.zeroLee]
@[simp] theorem State.putStored_resv (h : Nat) (i : Image) (x : Nat × Chunk) : (s.putStored h i x).resv = s.resv := by simp [State.putStored]
@[simp] theorem State.readyTile_resv (t : Nat) : (s.readyTile t).resv = s.resv := by
  unfold State.readyTile
  dsimp only
  split <;> simp
@[simp] theorem State.expectAll_resv (l : List Nat) : (s.expectAll l).resv = s.resv := by simp [State.expectAll]
@[simp] theorem State.adminDone_resv (c : HpCmd) (status detail result : Nat) : (s.adminDone c status detail result).resv = s.resv := by simp [State.adminDone]
@[simp] theorem State.carry_resv (k : Nat) : (s.carry k).resv = s.resv := by
  unfold State.carry
  split <;> simp
@[simp] theorem State.restoreBank_resv (t h : Nat) (bed : Bool) (l : List Image) : (s.restoreBank t h bed l).resv = s.resv := by simp [State.restoreBank]
@[simp] theorem State.restoreCrest_resv (t : Nat) : (s.restoreCrest t).resv = s.resv := by simp [State.restoreCrest]
@[simp] theorem State.restoreLee_resv (t : Nat) : (s.restoreLee t).resv = s.resv := by simp [State.restoreLee]

/-! ### Power -/

@[simp] theorem State.enterRow_resv (d state : Nat) : (s.enterRow d state).resv = s.resv := by rfl
@[simp] theorem State.dropBuffers_resv (d : Nat) : (s.dropBuffers d).resv = s.resv := by
  refine State.foldl_resv _ _ _ fun s t => ?_
  rfl
@[simp] theorem State.loseBanks_resv (d : Nat) : (s.loseBanks d).resv = s.resv := by
  refine State.foldl_resv _ _ _ fun s t => ?_
  rfl
@[simp] theorem State.rowPassage_resv (d : Nat) : (s.rowPassage d).resv = s.resv := by simp [State.rowPassage]
@[simp] theorem State.setOasis_resv (o : Oasis) (x : OasisSt) : (s.setOasis o x).resv = s.resv := by rfl
@[simp] theorem State.overridden_resv (o : Oasis) (kind value : Nat) : (s.overridden o kind value).resv = s.resv := by simp [State.overridden]
@[simp] theorem State.excursion_resv (o : Oasis) (kind value : Nat) (out : Bool) : (s.excursion o kind value out).resv = s.resv := by simp [State.excursion]
@[simp] theorem State.idleSoon_resv (d : Nat) : (s.idleSoon d).resv = s.resv := by simp [State.idleSoon]
@[simp] theorem State.busySoon_resv (d : Nat) : (s.busySoon d).resv = s.resv := by simp [State.busySoon]
@[simp] theorem State.startDown_resv (cause : Nat) : (s.startDown cause).resv = s.resv := by simp [State.startDown]
@[simp] theorem State.trip_resv (n : Nat) : (s.trip n).resv = s.resv := by
  unfold State.trip
  split <;> simp
@[simp] theorem State.throttle_resv (d : Nat) : (s.throttle d).resv = s.resv := by simp [State.throttle]
@[simp] theorem State.unthrottle_resv (d : Nat) : (s.unthrottle d).resv = s.resv := by simp [State.unthrottle]
@[simp] theorem State.senseHeat_resv (x : Nat × Int) (warm hot : Bool) : (s.senseHeat x warm hot).resv = s.resv := by
  unfold State.senseHeat
  extract_lets n wasWarm wasHot put power noted warmed
  have warmed_resv : warmed.resv = s.resv := by simp [warmed, noted]
  clear_value warmed
  split
  · exact warmed_resv
  · dsimp only
    split
    · split
      · simp [warmed_resv]
      · split <;> simp [warmed_resv]
    · simp [warmed_resv]
@[simp] theorem State.sense_resv (x : Nat × Int) : (s.sense x).resv = s.resv := by simp [State.sense]

/-! ### Dunewatch -/

@[simp] theorem State.dwHints_resv (old : Bool) : (s.dwHints old).resv = s.resv := by simp [State.dwHints]
@[simp] theorem State.dwChange_resv (c : DwChange) : (s.dwChange c).resv = s.resv := by simp [State.dwChange]
@[simp] theorem State.dwFinish_resv (j : DwJob) : (s.dwFinish j).resv = s.resv := by
  unfold State.dwFinish
  dsimp only
  refine (State.foldl_resv _ _ _ fun s k => ?_).trans ?_
  · split <;> simp
  · simp
@[simp] theorem State.dwSettle_resv : (s.dwSettle).resv = s.resv := by
  unfold State.dwSettle
  split <;> simp
@[simp] theorem State.dwTake_resv (j : DwJob) : (s.dwTake j).resv = s.resv := by rfl

/-! ### TimeUnit -/

@[simp] theorem State.tick_resv (t : Time) : (s.tick t).resv = s.resv := by simp [State.tick]
@[simp] theorem State.timeFlag_resv (b : Nat) : (s.timeFlag b).resv = s.resv := by simp [State.timeFlag]
@[simp] theorem State.setServo_resv (v : Servo) : (s.setServo v).resv = s.resv := by simp [State.setServo]
@[simp] theorem State.startTime_resv (n : Time) (servo : Servo) (epoch : Nat) : (s.startTime n servo epoch).resv = s.resv := by rfl
@[simp] theorem State.stepRefused_resv (n : Int) : (s.stepRefused n).resv = s.resv := by simp [State.stepRefused]
@[simp] theorem State.servoSync_resv (offset : Int) : (s.servoSync offset).resv = s.resv := by simp [State.servoSync]
@[simp] theorem State.stepReply_resv (status : Nat) : (s.stepReply status).resv = s.resv := by
  unfold State.stepReply
  split <;> simp
@[simp] theorem State.replayTo_resv (t : Time) : (s.replayTo t).resv = s.resv := by rfl

/-! ### HostLink -/

@[simp] theorem State.hpFlag_resv (b : Nat) : (s.hpFlag b).resv = s.resv := by simp [State.hpFlag]
@[simp] theorem State.hpDrop_resv (n : Nat) : (s.hpDrop n).resv = s.resv := by rfl
@[simp] theorem State.modLink_resv (f : HostLink → HostLink) : (s.modLink f).resv = s.resv := by rfl
@[simp] theorem State.setQueue_resv (q : Nat) (x : HpQueue) : (s.setQueue q x).resv = s.resv := by rfl
@[simp] theorem State.queueErr_resv (q code : Nat) : (s.queueErr q code).resv = s.resv := by rfl
@[simp] theorem State.linkReset_resv : (s.linkReset).resv = s.resv := by
  have words (s : State) : ((List.range 27).foldl (fun s k => s.setReg (0x3100 + 4 * k) 0#32) s).resv = s.resv := by
    refine State.foldl_resv _ _ _ fun s k => ?_
    rfl
  simp [State.linkReset, words]
@[simp] theorem State.pruneBusy_resv : (s.pruneBusy).resv = s.resv := by simp [State.pruneBusy]
@[simp] theorem State.startCmd_resv (c : HpCmd) (logged : Option Nat) : (s.startCmd c logged).resv = s.resv := by simp [State.startCmd]
@[simp] theorem State.stampGroup_resv (q : Nat) : (s.stampGroup q).resv = s.resv := by simp [State.stampGroup]
@[simp] theorem State.takeCmd_resv (c : HpCmd) : (s.takeCmd c).resv = s.resv := by rfl
@[simp] theorem State.postHp1_resv (d : HpDone) : (s.postHp1 d).resv = s.resv := by
  have words (s : State) (e : List Byte) : ((List.range 8).foldl (fun s k => s.setReg (0x3140 + 4 * k) (BitVec.ofNat 32 (leAt e (4 * k) 4))) s).resv = s.resv := by
    refine State.foldl_resv _ _ _ fun s k => ?_
    rfl
  simp [State.postHp1, words]
@[simp] theorem State.postHp2_resv (d : HpDone) : (s.postHp2 d).resv = s.resv := by simp [State.postHp2]
@[simp] theorem State.injectChip_resv (st : Stamp) (data : List Byte) : (s.injectChip st data).resv = s.resv := by rfl
@[simp] theorem State.injectReply_resv (key : Key) (data : List Byte) : (s.injectReply key data).resv = s.resv := by
  unfold State.injectReply
  dsimp only
  split <;> simp

/-! ### NtVector -/

/-! ### Reset -/

@[simp] theorem State.modUnit_resv (f : ResetUnit → ResetUnit) : (s.modUnit f).resv = s.resv := by rfl
@[simp] theorem State.warm_resv (cause : Nat) : (s.warm cause).resv = s.resv := by simp [State.warm]
@[simp] theorem State.shdnWrite_resv (state : Nat) : (s.shdnWrite state).resv = s.resv := by rfl
@[simp] theorem State.shdnRead_resv : (s.shdnRead).resv = s.resv := by
  unfold State.shdnRead
  dsimp only
  split <;> simp
@[simp] theorem State.startFw_resv (copy : Nat) (bs : List Byte) : (s.startFw copy bs).resv = s.resv := by rfl
@[simp] theorem State.otpDone_resv (result : Nat) : (s.otpDone result).resv = s.resv := by rfl
@[simp] theorem State.setKey_resv (n : Nat) (k : KeySlot) : (s.setKey n k).resv = s.resv := by rfl
@[simp] theorem State.bypass_resv (tdi : List Bool) : (s.bypass tdi).resv = s.resv := by rfl
@[simp] theorem State.askWarm_resv (cause : Nat) : (s.askWarm cause).resv = s.resv := by simp [State.askWarm]
@[simp] theorem State.dropWork_resv : (s.dropWork).resv = s.resv := by rfl
@[simp] theorem State.limpAll_resv : (s.limpAll).resv = s.resv := by simp [State.limpAll]
@[simp] theorem State.downStep_resv : (s.downStep).resv = s.resv := by
  unfold State.downStep
  split <;> simp

/-! ### Register -/

@[simp] theorem State.plainWrite_resv (a : Nat) (v : Word) : (s.plainWrite a v).resv = s.resv := by simp [State.plainWrite]
@[simp] theorem State.cfgRefused_resv (j : Nat) : (s.cfgRefused j).resv = s.resv := by simp [State.cfgRefused]
@[simp] theorem State.defaultWrite_resv (j a : Nat) (v : Word) : (s.defaultWrite j a v).resv = s.resv := by simp [State.defaultWrite]
@[simp] theorem State.classWrite_resv (j a : Nat) (v : Word) : (s.classWrite j a v).resv = s.resv := by
  unfold State.classWrite
  split <;> simp
@[simp] theorem State.portWrite_resv (j a : Nat) (on : Bool) (fixed v : Word) : (s.portWrite j a on fixed v).resv = s.resv := by simp [State.portWrite]
@[simp] theorem State.camWrite_resv (j : Fin 2) (o : Nat) (v : Word) : (s.camWrite j o v).resv = s.resv := by simp [State.camWrite]
@[simp] theorem State.tagWrite_resv (j : Nat) (o : Nat) (v : Word) : (s.tagWrite j o v).resv = s.resv := by
  unfold State.tagWrite
  split <;> simp
@[simp] theorem State.dropLatch_resv (a : Nat) : (s.dropLatch a).resv = s.resv := by rfl
@[simp] theorem State.stageWrite_resv (n : Nat) (v : Word) : (s.stageWrite n v).resv = s.resv := by simp [State.stageWrite]
@[simp] theorem State.msixRelease_resv : (s.msixRelease).resv = s.resv := by rfl

end Sys2Proof.Machine
end

section
/-! SUPPORT. The form of the reservoir's memory under stores, errors and instructions (05, 07, 09; log 3): obligation O59. -/

namespace Sys2Proof.Machine

variable {s : State}

/-- The memory of the reservoir is in its canonical form. -/
abbrev State.Canonical (s : State) : Prop := s.resv.mem.wf = true

theorem State.canonical_of_mem {s u : State} (h : u.resv.mem = s.resv.mem) (hs : s.Canonical) : u.Canonical := (congrArg Mem.wf h).trans hs

theorem State.canonical_of_resv {s u : State} (h : u.resv = s.resv) (hs : s.Canonical) : u.Canonical := State.canonical_of_mem (congrArg Reservoir.mem h) hs

theorem State.canonical_ite {b : Prop} [Decidable b] {u v : State} (hu : u.Canonical) (hv : v.Canonical) : (if b then u else v).Canonical := by
  split <;> assumption

theorem State.canonical_foldl {α : Type} (f : State → α → State) (hf : ∀ (s : State) a, s.Canonical → (f s a).Canonical) (l : List α) {s : State} (hs : s.Canonical) :
    (l.foldl f s).Canonical := by
  induction l generalizing s with
  | nil => exact hs
  | cons a l ih => exact ih (hf s a hs)

/-! ### Writes into the reservoir, and errors found in it (R574, R584) -/

theorem Reservoir.write_wf (r : Reservoir) (base : Nat) (bs : List Byte) (bad : Nat → Bool) (void : Nat) (h : r.mem.wf = true) : (r.write base bs bad void).mem.wf = true :=
  Mem.wf_puts _ _ _ h

theorem State.resvWrite_canonical (base : Nat) (bs : List Byte) (bad : Nat → Bool) (void : Nat) (h : s.Canonical) : (s.resvWrite base bs bad void).Canonical := by
  unfold State.resvWrite
  extract_lets cut first
  have first_ok : first.Canonical := State.canonical_ite h (Reservoir.write_wf _ _ _ _ _ h)
  exact State.canonical_ite first_ok (Reservoir.write_wf _ _ _ _ _ first_ok)

theorem State.store_canonical (t : Nat) (c : Core) (space base : Nat) (bs : List Byte) (bad : Nat → Bool) (h : s.Canonical) : (s.store t c space base bs bad).Canonical :=
  State.canonical_ite (State.resvWrite_canonical _ _ _ _ h) h

@[simp] theorem State.resvErr_mem (s : State) (die addr : Nat) (ue : Bool) (stamp : Stamp) : (s.resvErr die addr ue stamp).resv.mem = s.resv.mem := by
  cases ue with
  | false => rw [(s.resvErr_ce die addr stamp).1]
  | true => exact (s.resvErr_ue die addr stamp).2.1

@[simp] theorem State.applyHits_mem (s : State) (t : Nat) (c : Core) (xs : List Extent) (hits : List EccHit) : (s.applyHits t c xs hits).resv.mem = s.resv.mem := by
  refine State.foldl_preserves (fun u => u.resv.mem) _ (fun u e => ?_) hits s
  split
  · split
    · exact State.resvErr_mem _ _ _ _ _
    · simp
  · rfl

/-! ### What an instruction leaves -/

/-- Every state that an instruction's result carries is canonical. -/
def NtRes.Canonical : NtRes → Prop
  | .done _ u => u.Canonical
  | .jump _ u _ => u.Canonical
  | .raise _ => True
  | .wait => True
  | .hold _ u => u.Canonical
  | .stop u _ _ _ => u.Canonical
  | .left u => u.Canonical

theorem NtRes.canonical_ite {b : Prop} [Decidable b] {r r' : NtRes} (h : r.Canonical) (h' : r'.Canonical) : (if b then r else r').Canonical := by
  split <;> assumption

theorem State.settle_canonical (t : Nat) (c : Core) {r : NtRes} (hs : s.Canonical) (hr : r.Canonical) : (s.settle t c r).Canonical := by
  have exc (cause : Nat) : (s.excAt t c cause).Canonical := State.canonical_of_resv (State.excAt_resv ..) hs
  cases r with
  | done k u => exact State.canonical_ite hr (exc _)
  | raise cause => exact exc _
  | stop u reason key detail => exact State.canonical_of_resv (State.stopJob_resv ..) hr
  | jump k u pc => exact hr
  | wait => exact hs
  | hold k u => exact hr
  | left u => exact hr

/-- An instruction that issues leaves the form as its meaning leaves it. -/
theorem State.issue_canonical (t : Fin 512) (g : Issue) (illegal : Core → Bool) (f : Core → State → NtRes) (hs : s.Canonical)
    (hf : ∀ c (u : State), u.Canonical → (f c u).Canonical) : (s.issue t g illegal f).Canonical := by
  have exc {u : State} (hu : u.Canonical) (c : Core) (cause : Nat) : (u.excAt t c cause).Canonical := State.canonical_of_resv (State.excAt_resv ..) hu
  unfold State.issue
  split
  · exact hs
  next c _ =>
    refine State.canonical_ite hs ?_
    extract_lets h fetched
    have hu : fetched.Canonical := by
      unfold fetched
      split
      · exact hs
      · exact State.canonical_of_resv (State.memCe_resv ..) hs
      · exact State.canonical_of_resv (State.memUe_resv ..) hs
    refine State.canonical_ite (exc hu c 9) (State.canonical_ite (exc hu c 1) (State.canonical_ite ?_ ?_))
    · exact State.settle_canonical t c hu hu
    · exact State.settle_canonical t c hu (hf c _ hu)

/-- An instruction that only changes its core. -/
theorem State.issueCore_canonical (t : Fin 512) (g : Issue) (f : Core → Core) (hs : s.Canonical) : (s.issueCore t g f).Canonical :=
  State.issue_canonical t g anyEnc _ hs fun _ _ hu => hu

theorem readGate_canonical (c : Core) (bad : Bool) (k : State → NtRes) (hs : s.Canonical) (hk : ∀ u : State, u.Canonical → (k u).Canonical) : (readGate s c bad k).Canonical :=
  NtRes.canonical_ite (NtRes.canonical_ite hs (hk _ hs)) (hk _ hs)

theorem State.cairnSend_canonical (t : Nat) (c : Core) (cairn : Nat) (body : List Byte) (bad : Bool) (k : Core → State → Key → NtRes) (hs : s.Canonical)
    (hk : ∀ c (u : State) key, u.Canonical → (k c u key).Canonical) : (s.cairnSend t c cairn body bad k).Canonical :=
  NtRes.canonical_ite trivial (NtRes.canonical_ite trivial (NtRes.canonical_ite hs (NtRes.canonical_ite hs (hk _ _ _ hs))))

theorem State.dset_canonical (t : Fin 512) (g : Issue) (d : Fin 16) (f : Core → Desc → Desc) (hs : s.Canonical) : (s.dset t g d f).Canonical :=
  State.issue_canonical t g anyEnc _ hs fun _ _ hu => NtRes.canonical_ite trivial hu

theorem State.cairnQueued_canonical (t : Fin 512) (g : Issue) (r : Fin 16) (opc : Nat) (operand : Core → Nat) (bad : Core → Bool) (hs : s.Canonical) :
    (s.cairnQueued t g r opc operand bad).Canonical :=
  State.issue_canonical t g anyEnc _ hs fun _ _ hu => NtRes.canonical_ite trivial (State.cairnSend_canonical _ _ _ _ _ _ hu fun _ _ _ h => h)

theorem State.settleSend_canonical (t : Nat) (c : Core) (slot cairn opc kind : Nat) (b : Fin 32) (pd : Fin 8) (rerun : Bool) (threshold contrib : Nat) (bad : Bool) (hs : s.Canonical) :
    (s.settleSend t c slot cairn opc kind b pd rerun threshold contrib bad).Canonical := by
  unfold State.settleSend
  exact State.cairnSend_canonical _ _ _ _ _ _ hs fun _ _ _ h => h

theorem State.jumpTo_canonical (t : Nat) (c : Core) (link : Fin 32) (pc : Int) (hs : s.Canonical) : (s.jumpTo t c link pc).Canonical := NtRes.canonical_ite hs trivial

theorem State.takeItem_canonical (t : Nat) (c : Core) (d : Fin 16) (a b : Fin 32) (pd : Fin 8) (p : InPort) (i : Item) (hs : s.Canonical) : (s.takeItem t c d a b pd p i).Canonical :=
  NtRes.canonical_ite trivial (readGate_canonical _ _ _ hs fun _ hu => hu)

theorem State.get_canonical (t : Nat) (c : Core) (d : Fin 16) (a b : Fin 32) (pd : Fin 8) (block : Bool) (hs : s.Canonical) : (s.get t c d a b pd block).Canonical := by
  unfold State.get
  refine NtRes.canonical_ite hs (NtRes.canonical_ite trivial ?_)
  dsimp only
  split
  · trivial
  · refine NtRes.canonical_ite trivial ?_
    split
    · exact State.takeItem_canonical _ _ _ _ _ _ _ _ hs
    · exact NtRes.canonical_ite hs (NtRes.canonical_ite trivial hs)

theorem State.emitExtent_canonical (t : Nat) (c : Core) (x : Extent) (dest : Place) (regs : Bool) (wrap : State → List Byte → List Byte) (hs : s.Canonical) :
    (s.emitExtent t c x dest regs wrap).Canonical :=
  NtRes.canonical_ite trivial (NtRes.canonical_ite hs (readGate_canonical _ _ _ hs fun _ hu => hu))

/-! ### Vector, facet, gather and scatter -/

theorem State.issueVec_canonical (t : Fin 512) (g : Issue) (f : Core → Core) (hs : s.Canonical) : (s.issueVec t g f).Canonical :=
  State.issue_canonical t g anyEnc _ hs fun _ _ hu => NtRes.canonical_ite trivial hu

theorem State.vload_canonical (t : Fin 512) (g : Issue) (vx xa : Fin 16) (r : Fin 32) (w : Nat) (hits : List EccHit) (hs : s.Canonical) : (s.vload t g vx xa r w hits).Canonical := by
  refine State.issue_canonical t g anyEnc _ hs fun c u hu => ?_
  dsimp only
  split
  · trivial
  · exact NtRes.canonical_ite trivial (readGate_canonical _ _ _ (State.canonical_of_mem (State.applyHits_mem ..) hu) fun _ h => h)

theorem State.vstore_canonical (t : Fin 512) (g : Issue) (vx xa : Fin 16) (r : Fin 32) (w : Nat) (hs : s.Canonical) : (s.vstore t g vx xa r w).Canonical := by
  refine State.issue_canonical t g anyEnc _ hs fun c u hu => ?_
  dsimp only
  split
  · trivial
  · exact NtRes.canonical_ite trivial hu

theorem FacetAcc.put_canonical {x y : FacetAcc} (t : Nat) (b : TileBank) (xd : Fin 16) (v : Nat) (n : NodeVal) (put : x.put t b xd v n = some y) (hx : x.s.Canonical) : y.s.Canonical := by
  unfold FacetAcc.put at put
  dsimp only at put
  split at put
  · cases put
    exact hx
  · cases put
    exact hx
  · split at put
    · cases put
    · cases put
      exact hx

theorem runVectors_canonical (t : Nat) (b : TileBank) (xd : Fin 16) (mode : Nat) (reads writes : List Extent) (node : Nat → NodeVal ⊕ Nat) (vs : List Nat) {x : FacetAcc} (hx : x.s.Canonical) :
    (runVectors t b xd mode reads writes node vs x).Canonical := by
  induction vs generalizing x with
  | nil => exact hx
  | cons v vs ih =>
    unfold runVectors
    split
    · exact hx
    · split
      · exact hx
      next put => exact ih (FacetAcc.put_canonical t b xd v _ put hx)

theorem State.copyRow_canonical (t : Nat) (c : Core) (srcSpace dstSpace rb : Nat) (r : RowCopy) (hs : s.Canonical) : (s.copyRow t c srcSpace dstSpace rb r).Canonical := by
  unfold State.copyRow
  split
  · exact State.store_canonical _ _ _ _ _ _ hs
  · exact State.store_canonical _ _ _ _ _ _ (State.canonical_ite hs hs)

theorem State.runRows_canonical (t : Nat) (c : Core) (srcSpace dstSpace rb : Nat) (l : List (GsStep × Bool)) (hs : s.Canonical) : (s.runRows t c srcSpace dstSpace rb l).1.Canonical := by
  induction l generalizing s with
  | nil => exact hs
  | cons x rest ih =>
    obtain ⟨step, oor⟩ := x
    have flagged : (if oor then s.tileFlag t 7 else s).Canonical := State.canonical_ite hs hs
    unfold State.runRows
    cases step with
    | skip => exact ih flagged
    | copy r => exact ih (State.copyRow_canonical _ _ _ _ _ _ flagged)
    | stop => exact flagged

theorem State.gsDone_canonical (t : Nat) (c : Core) (stopped : Bool) (xs : List Extent) (xd : Extent) (hs : s.Canonical) : (s.gsDone t c stopped xs xd).Canonical :=
  NtRes.canonical_ite hs hs

theorem State.gsRun_canonical (t : Nat) (c : Core) (xd xa xb : Extent) (hits : List EccHit) (k : State → NtRes) (hs : s.Canonical)
    (hk : ∀ u : State, u.Canonical → (k u).Canonical) : (s.gsRun t c xd xa xb hits k).Canonical :=
  NtRes.canonical_ite trivial (readGate_canonical _ _ _ (State.canonical_of_mem (State.applyHits_mem ..) hs) hk)

end Sys2Proof.Machine
end

section
/-! SUPPORT. The form of the reservoir's memory under camera lines, injected events and images (13, 16, 22): obligation O59. -/

namespace Sys2Proof.Machine

variable {s : State}

/-! ### Cameras, injection, images -/

theorem State.storeLine_canonical (j : Fin 2) (n : Nat) (f : FrameIn) (p : List Byte) (hs : s.Canonical) : (s.storeLine j n f p).Canonical := by
  have rows (l : List (List Byte)) (r : Nat × State) (hr : r.2.Canonical) (h : Nat) : (l.foldl (fun (r : Nat × State) row =>
      let pitch := roundUp row.length 64
      (r.1 + pitch * h, r.2.resvWrite (r.1 + pitch * f.lines) row (fun _ => false) 0)) r).2.Canonical := by
    induction l generalizing r with
    | nil => exact hr
    | cons row l ih => exact ih _ (State.resvWrite_canonical _ _ _ _ hr)
  exact State.canonical_ite hs (rows _ _ hs _)

theorem State.frameLine_canonical (j : Fin 2) (n : Nat) (crcOk overflow : Bool) (p : List Byte) (hs : s.Canonical) : (s.frameLine j n crcOk overflow p).Canonical := by
  unfold State.frameLine
  dsimp only
  split
  · exact hs
  · refine State.canonical_ite hs (State.canonical_ite (State.canonical_of_resv (State.endFrame_resv ..) hs) ?_)
    exact State.canonical_of_resv (State.setCam_resv ..) (State.storeLine_canonical _ _ _ _ hs)

theorem State.injectFrame_canonical (j : Fin 2) (n : Nat) (i : Item) (pixels : List Byte) (hs : s.Canonical) : (s.injectFrame j n i pixels).Canonical := by
  unfold State.injectFrame
  extract_lets x number numbered stored first second
  have stored_ok : stored.Canonical := State.resvWrite_canonical _ _ _ _ hs
  exact State.canonical_of_resv (by simp [first, second]) stored_ok

theorem State.injectEvent_canonical (key : Key) (data : List Byte) (hs : s.Canonical) : (s.injectEvent key data).Canonical := by
  unfold State.injectEvent
  dsimp only
  split
  · exact State.injectFrame_canonical _ _ _ _ hs
  all_goals exact State.canonical_of_resv (by simp) hs

theorem State.storeImage_canonical (d : List Byte) (i : Image) (hs : s.Canonical) : (s.storeImage d i).Canonical := by
  have ranges (l : List ResRec) (x : State × List Byte) (hx : x.1.Canonical) : (l.foldl (fun (x : State × List Byte) r =>
      (x.1.resvWrite (r.base * 2 ^ 20) (x.2.take (r.len * 2 ^ 20)) clean 0, x.2.drop (r.len * 2 ^ 20))) x).1.Canonical := by
    induction l generalizing x with
    | nil => exact hx
    | cons r l ih => exact ih _ (State.resvWrite_canonical _ _ _ _ hx)
  exact ranges _ _ (State.resvWrite_canonical _ _ _ _ hs)

theorem State.loadCold_canonical (d : List Byte) (i : Image) (slot : Nat) (hs : s.Canonical) : (s.loadCold d i slot).Canonical :=
  State.canonical_of_resv (by simp [State.loadCold]) (State.storeImage_canonical d i hs)

theorem State.loadLee_canonical (d : List Byte) (i : Image) (slot : Nat) (hs : s.Canonical) : (s.loadLee d i slot).Canonical :=
  State.canonical_of_resv (by simp [State.loadLee]) (State.storeImage_canonical d i hs)

/-! ### Resets -/

theorem State.blank_canonical (s : State) (p : Phase) (cause : Nat) : (s.blank p cause).Canonical := rfl

/-! ### Commands -/

/-- The next state of an outcome is canonical. -/
def OutcomeCanonical : Host.Outcome State Fault Refusal → Prop
  | .next u => u.Canonical
  | .fault _ => True
  | .refused _ => True

theorem OutcomeCanonical.of_resv {u : State} (hs : s.Canonical) (h : u.resv = s.resv) : OutcomeCanonical (.next u) := State.canonical_of_resv h hs

theorem answer_canonical {o : Host.Outcome State Fault Refusal} (hs : s.Canonical) (ho : OutcomeCanonical o) : (answer s o).Canonical := by
  cases o with
  | next u => exact ho
  | fault _ => exact hs
  | refused _ => exact hs

end Sys2Proof.Machine
end

section
/-! SUPPORT. The form of the reservoir's memory under the instructions (08, 09, 10): obligation O59. -/

namespace Sys2Proof.Machine

variable {s : State}

/-! ### Instructions -/

/-- An instruction that faults on the first cause of a list and otherwise does `r`. -/
theorem NtRes.canonical_firstCause {o : Option Nat} {r : NtRes} (h : r.Canonical) : (match o with | some e => NtRes.raise e | none => r).Canonical := by
  cases o with
  | none => exact h
  | some e => trivial

/-- An instruction that only writes registers of its core. -/
theorem State.issue_done_canonical (t : Fin 512) (g : Issue) (illegal : Core → Bool) (f : Core → State → Core) (hs : s.Canonical) :
    (s.issue t g illegal fun c u => .done (f c u) u).Canonical :=
  State.issue_canonical t g illegal _ hs fun _ _ hu => hu

theorem execJend_canonical (tile : Fin 512) (g : Issue) (hs : s.Canonical) : OutcomeCanonical (execJend tile g s) := by
  refine State.issue_canonical _ _ _ _ hs fun c u hu => NtRes.canonical_ite trivial ?_
  have closed := State.foldl_resv (fun s d => s.closeDesc tile c d) c.desc.toList u fun _ _ => State.closeDesc_resv ..
  exact State.canonical_of_resv (by simp [-Vector.foldl_toList, closed]) hu

theorem execLd_canonical (tile : Fin 512) (g : Issue) (dst : Fin 32) (xa : Fin 16) (off : BitVec 13) (hits : List EccHit) (hs : s.Canonical) :
    OutcomeCanonical (execLd tile g dst xa off hits s) := by
  refine State.issue_canonical _ _ _ _ hs fun c u hu => NtRes.canonical_firstCause (NtRes.canonical_ite trivial ?_)
  exact readGate_canonical _ _ _ (State.canonical_of_mem (State.applyHits_mem ..) hu) fun _ h => h

theorem execSt_canonical (tile : Fin 512) (g : Issue) (src : Fin 32) (xa : Fin 16) (off : BitVec 13) (hs : s.Canonical) :
    OutcomeCanonical (execSt tile g src xa off s) :=
  State.issue_canonical _ _ _ _ hs fun _ _ hu => NtRes.canonical_firstCause (NtRes.canonical_ite trivial hu)

theorem execFld_canonical (tile : Fin 512) (g : Issue) (xb : Fin 16) (c : Fin 32) (hs : s.Canonical) : OutcomeCanonical (execFld tile g xb c s) :=
  State.issue_canonical _ _ _ _ hs fun _ _ hu => NtRes.canonical_firstCause (NtRes.canonical_ite trivial hu)

theorem execFmac_canonical (tile : Fin 512) (g : Issue) (xd xa xb : Fin 16) (c : Fin 32) (hits : List EccHit) (hs : s.Canonical) :
    OutcomeCanonical (execFmac tile g xd xa xb c hits s) := by
  refine State.issue_canonical _ _ _ _ hs fun k u hu => NtRes.canonical_firstCause (NtRes.canonical_ite trivial ?_)
  exact readGate_canonical _ _ _ (State.canonical_of_mem (State.applyHits_mem ..) hu) fun _ h => runVectors_canonical _ _ _ _ _ _ _ _ h

theorem execFdrn_canonical (tile : Fin 512) (g : Issue) (xd xa xb : Fin 16) (hits : List EccHit) (hs : s.Canonical) :
    OutcomeCanonical (execFdrn tile g xd xa xb hits s) := by
  refine State.issue_canonical _ _ _ _ hs fun k u hu => NtRes.canonical_firstCause (NtRes.canonical_ite trivial ?_)
  exact readGate_canonical _ _ _ (State.canonical_of_mem (State.applyHits_mem ..) hu) fun _ h => runVectors_canonical _ _ _ _ _ _ _ _ h

theorem execVtab_canonical (tile : Fin 512) (g : Issue) (vx xa vb : Fin 16) (hits : List EccHit) (hs : s.Canonical) :
    OutcomeCanonical (execVtab tile g vx xa vb hits s) := by
  refine State.issue_canonical _ _ _ _ hs fun c u hu => NtRes.canonical_firstCause (NtRes.canonical_ite trivial ?_)
  exact readGate_canonical _ _ _ (State.canonical_of_mem (State.applyHits_mem ..) hu) fun _ h => h

theorem execGather_canonical (tile : Fin 512) (g : Issue) (xd xa xb : Fin 16) (c : Fin 32) (hits : List EccHit) (hs : s.Canonical) :
    OutcomeCanonical (execGather tile g xd xa xb c hits s) :=
  State.issue_canonical _ _ _ _ hs fun _ _ hu => NtRes.canonical_firstCause <| State.gsRun_canonical _ _ _ _ _ _ _ hu fun _ hv =>
    State.gsDone_canonical _ _ _ _ _ (State.runRows_canonical _ _ _ _ _ _ hv)

theorem execGatherCsr_canonical (tile : Fin 512) (g : Issue) (xd xa xb : Fin 16) (c : Fin 32) (hits : List EccHit) (hs : s.Canonical) :
    OutcomeCanonical (execGatherCsr tile g xd xa xb c hits s) :=
  State.issue_canonical _ _ _ _ hs fun _ _ hu => NtRes.canonical_firstCause <| State.gsRun_canonical _ _ _ _ _ _ _ hu fun _ hv =>
    NtRes.canonical_ite (State.gsDone_canonical _ _ _ _ _ hv) (State.gsDone_canonical _ _ _ _ _ (State.runRows_canonical _ _ _ _ _ _ hv))

theorem execScatter_canonical (tile : Fin 512) (g : Issue) (xd xa xb : Fin 16) (c : Fin 32) (hits : List EccHit) (hs : s.Canonical) :
    OutcomeCanonical (execScatter tile g xd xa xb c hits s) :=
  State.issue_canonical _ _ _ _ hs fun _ _ hu => NtRes.canonical_firstCause <| State.gsRun_canonical _ _ _ _ _ _ _ hu fun _ hv =>
    State.gsDone_canonical _ _ _ _ _ (State.runRows_canonical _ _ _ _ _ _ hv)

theorem execScatterAcc_canonical (tile : Fin 512) (g : Issue) (xd xa xb : Fin 16) (c : Fin 32) (hits : List EccHit) (hs : s.Canonical) :
    OutcomeCanonical (execScatterAcc tile g xd xa xb c hits s) := by
  refine State.issue_canonical _ _ _ _ hs fun k u hu => NtRes.canonical_firstCause <| State.gsRun_canonical _ _ _ _ _ _ _ hu fun v hv => ?_
  exact NtRes.canonical_ite (State.gsDone_canonical _ _ _ _ _ hv) (State.gsDone_canonical _ _ _ _ _ (State.canonical_of_resv (by simp) hv))

theorem execSopenIn_canonical (tile : Fin 512) (g : Issue) (d : Fin 16) (hs : s.Canonical) : OutcomeCanonical (execSopenIn tile g d s) :=
  State.issue_canonical _ _ _ _ hs fun _ _ hu => NtRes.canonical_firstCause (NtRes.canonical_ite hu hu)

theorem execSclose_canonical (tile : Fin 512) (g : Issue) (d : Fin 16) (hs : s.Canonical) : OutcomeCanonical (execSclose tile g d s) :=
  State.issue_canonical _ _ _ _ hs fun _ _ hu => NtRes.canonical_ite trivial (NtRes.canonical_ite trivial (State.canonical_of_resv (State.closeDesc_resv ..) hu))

theorem execSput_canonical (tile : Fin 512) (g : Issue) (d : Fin 16) (a b : Fin 32) (hs : s.Canonical) : OutcomeCanonical (execSput tile g d a b s) :=
  State.issue_canonical _ _ _ _ hs fun _ _ hu => NtRes.canonical_firstCause <| NtRes.canonical_ite trivial <| NtRes.canonical_ite hu <|
    readGate_canonical _ _ _ hu fun _ h => h

theorem execSettleN_canonical (tile : Fin 512) (g : Issue) (a b : Fin 32) (pd : Fin 8) (hs : s.Canonical) : OutcomeCanonical (execSettleN tile g a b pd s) :=
  State.issue_canonical _ _ _ _ hs fun _ _ hu => NtRes.canonical_ite trivial <| NtRes.canonical_ite hu <| NtRes.canonical_ite hu <|
    State.settleSend_canonical _ _ _ _ _ _ _ _ _ _ _ _ hu

theorem execSettleW_canonical (tile : Fin 512) (g : Issue) (a b : Fin 32) (pd : Fin 8) (hs : s.Canonical) : OutcomeCanonical (execSettleW tile g a b pd s) :=
  State.issue_canonical _ _ _ _ hs fun _ _ hu => NtRes.canonical_ite trivial <| NtRes.canonical_ite trivial <|
    State.settleSend_canonical _ _ _ _ _ _ _ _ _ _ _ _ hu

theorem execAct_canonical (tile : Fin 512) (g : Issue) (xa : Fin 16) (hs : s.Canonical) : OutcomeCanonical (execAct tile g xa s) :=
  State.issue_canonical _ _ _ _ hs fun _ _ hu => NtRes.canonical_firstCause (State.emitExtent_canonical _ _ _ _ _ _ hu)

theorem execLog_canonical (tile : Fin 512) (g : Issue) (xa : Fin 16) (c : Fin 32) (hs : s.Canonical) : OutcomeCanonical (execLog tile g xa c s) :=
  State.issue_canonical _ _ _ _ hs fun _ _ hu => NtRes.canonical_firstCause (State.emitExtent_canonical _ _ _ _ _ _ hu)

theorem execCairnReply_canonical (tile : Fin 512) (key : Key) (result : Word) (decision : Bool) (cycles : Nat) (t : Time) (hs : s.Canonical) :
    OutcomeCanonical (execCairnReply tile key result decision cycles t s) := by
  have here : (s.at t).Canonical := State.canonical_of_resv (State.at_resv ..) hs
  unfold execCairnReply
  dsimp only [OutcomeCanonical]
  split
  · exact here
  · split
    · exact here
    · exact State.canonical_ite here (State.settle_canonical _ _ here (State.canonical_of_resv (State.settleRecord_resv ..) here))

end Sys2Proof.Machine
end

section
/-! SUPPORT. Register writes that leave the reservoir alone (02, 03): obligation O59. -/

namespace Sys2Proof.Machine

variable (s : State)

/-! ### Register writes that reach no memory (02, R11 to R14) -/

@[simp] theorem answer_ite (b : Prop) [Decidable b] (o o' : Host.Outcome State Fault Refusal) : answer s (if b then o else o') = if b then answer s o else answer s o' := apply_ite _ _ _ _

theorem State.resv_ite {b : Prop} [Decidable b] {u v : State} {r : Reservoir} (hu : u.resv = r) (hv : v.resv = r) : (if b then u else v).resv = r := by
  split <;> assumption

theorem answer_execSlipAbortWrite_resv (u : State) (t : Time) : (answer u (execSlipAbortWrite t s)).resv = s.resv := by
  rw [execSlipAbortWrite, answer_next]
  dsimp only
  split <;> simp

theorem answer_execActRegGo_resv (u : State) (port : Fin 4) (write : Bool) (off : Nat) (value : Word) (t : Time) : (answer u (execActRegGo port write off value t s)).resv = s.resv := by
  unfold execActRegGo
  rw [answer_next]
  extract_lets w a d x tag y
  have h : w.resv = s.resv := State.at_resv ..
  have hx : x.resv = s.resv := (State.setReg_resv ..).trans ((State.setReg_resv ..).trans h)
  clear_value w a x
  refine State.resv_ite ((State.absentAccess_resv ..).trans h) (State.resv_ite ((State.setFlag_resv ..).trans h) ?_)
  exact State.resv_ite ((State.setFlag_resv ..).trans hx) ((State.setPort_resv ..).trans hx)

@[simp] theorem State.headWrite_resv (a : Nat) (v : Word) (t : Time) : (s.headWrite a v t).resv = s.resv := by
  simp [State.headWrite, answer_next, execReplayStart, execReplayEnd, execSlipPrepareWrite, answer_execSlipAbortWrite_resv]
@[simp] theorem State.pwrWrite_resv (o : Nat) (v : Word) (t : Time) : (s.pwrWrite o v t).resv = s.resv := by
  unfold State.pwrWrite
  split
  · simp
  · split
    · split <;> simp [answer_next, execHintRegIdleSoon, execHintRegBusySoon, execHintRegNoChange]
    · simp
@[simp] theorem State.queueWrite_resv (q : Fin 8) (w : Nat) (v : Word) : (s.queueWrite q w v).resv = s.resv := by
  simp [State.queueWrite, answer_next, execQueueEnable, execQueueDisable]
@[simp] theorem State.hostWordWrite_resv (o : Nat) (v : Word) (t : Time) : (s.hostWordWrite o v t).resv = s.resv := by
  simp [State.hostWordWrite, answer_next, execStageConfigWrite, execHp1Doorbell]
@[simp] theorem State.timeWrite_resv (o : Nat) (v : Word) : (s.timeWrite o v).resv = s.resv := by
  simp [State.timeWrite, answer_next, execTimeConfigChange, execTimeStart]
@[simp] theorem State.faultWrite_resv (o : Nat) (v : Word) : (s.faultWrite o v).resv = s.resv := by
  simp [State.faultWrite, answer_next, execSafeClear, execLogHostHeadWrite]
@[simp] theorem State.dwWrite_resv (o : Nat) (v : Word) (t : Time) : (s.dwWrite o v t).resv = s.resv := by
  simp [State.dwWrite, answer_next, execDwFreeze, execDwEnable, execDwDisable, execDwFeedGo]
@[simp] theorem State.canWrite_resv (j : Fin 2) (o : Nat) (v : Word) : (s.canWrite j o v).resv = s.resv := by
  unfold State.canWrite
  dsimp only
  split <;> simp [answer_next, execCanInitEnter, execCanInitLeave]
@[simp] theorem State.actRegWrite_resv (j : Fin 2) (o : Nat) (v : Word) (t : Time) : (s.actRegWrite j o v t).resv = s.resv := by
  unfold State.actRegWrite
  extract_lets a p
  rw [State.ite_resv, answer_execActRegGo_resv, State.plainWrite_resv, ite_self]
@[simp] theorem State.mesaWrite_resv (j : Fin 2) (o : Nat) (v : Word) (t : Time) : (s.mesaWrite j o v t).resv = s.resv := by
  simp [State.mesaWrite, answer_next, execReflexRuleWrite]
@[simp] theorem State.tileWrite_resv (t : Fin 512) (o : Nat) (v : Word) (time : Time) : (s.tileWrite t o v time).resv = s.resv := by
  simp [State.tileWrite, answer_next, execTileCbWrite]
@[simp] theorem State.configWrite_resv (a : Nat) (lanes v : Word) (t : Time) : (s.configWrite a lanes v t).resv = s.resv := by
  unfold State.configWrite
  dsimp only
  split <;> simp [answer_next, execPowerStateChange, execHostLinkReset]
@[simp] theorem State.bar2Write_resv (off : Nat) (v : Word) (t : Time) : (s.bar2Write off v t).resv = s.resv := by
  simp [State.bar2Write, answer_next, execSqTailDoorbell, execCqHeadDoorbell]

end Sys2Proof.Machine
end

section
/-! SUPPORT. The form of the reservoir's memory under the other commands: obligation O59. -/

namespace Sys2Proof.Machine

variable {s : State}

/-! ### Register writes that may reset the module or program its fuses (02, 22) -/

theorem execOtpProgram_resv (request : List Byte) : (answer s (execOtpProgram request s)).resv = s.resv := by
  rw [execOtpProgram, answer_next, State.ite_resv]
  split
  · simp
  · split <;> simp

theorem execOtpRevoke_resv (request : List Byte) : (answer s (execOtpRevoke request s)).resv = s.resv := by
  rw [execOtpRevoke, answer_next, State.ite_resv]
  split
  · simp
  · split <;> simp

theorem execRstCtlCold_canonical (key : Nat) (hs : s.Canonical) : OutcomeCanonical (execRstCtlCold key s) :=
  State.canonical_ite (State.blank_canonical ..) hs

theorem State.resetWrite_canonical (o : Nat) (v : Word) (t : Time) (hs : s.Canonical) : (s.resetWrite o v t).Canonical := by
  unfold State.resetWrite
  extract_lets key
  split
  · refine answer_canonical hs ?_
    split
    · exact .of_resv hs (by simp)
    · split
      · exact execRstCtlCold_canonical _ hs
      · split
        · exact .of_resv hs (by simp)
        · exact hs
  · exact State.canonical_of_resv (by simp [execRstDomainWrite, answer_next]) hs
  · have held : (answer s (if bit v 0 then (if bit (s.reg 0x9018) 0 then .next s else execDflHoldSet t s) else execDflHoldClear s)).Canonical :=
      State.canonical_of_resv (by simp [execDflHoldSet, execDflHoldClear, answer_next]) hs
    have recovered {u : State} (hu : u.Canonical) : (answer u (execRecover u)).Canonical := State.canonical_of_resv (by simp [execRecover, answer_next]) hu
    have committed {u : State} (hu : u.Canonical) : (answer u (execRollbackCommit u)).Canonical := State.canonical_of_resv (by simp [execRollbackCommit, answer_next]) hu
    have second := State.canonical_ite (b := bit v 1 = true) (recovered held) held
    exact State.canonical_ite (committed second) second
  · refine State.canonical_of_resv ?_ hs
    split
    · split <;> simp [execOtpProgram_resv, execOtpRevoke_resv, execOtpDisableDebug, answer_next]
    · rfl
  · exact State.canonical_of_resv (by simp [execRelock, answer_next]) hs
  · exact State.canonical_of_resv (by simp) hs

theorem State.wordWrite_canonical (a : Nat) (v : Word) (t : Time) (hs : s.Canonical) : (s.wordWrite a v t).Canonical := by
  have leaves {u : State} (h : u.resv = s.resv) : u.Canonical := State.canonical_of_resv h hs
  unfold State.wordWrite
  refine State.canonical_ite (leaves (State.headWrite_resv ..)) <| State.canonical_ite (leaves (State.pwrWrite_resv ..)) <| State.canonical_ite hs <|
    State.canonical_ite (leaves (State.hostWordWrite_resv ..)) <| State.canonical_ite (leaves (State.timeWrite_resv ..)) <|
    State.canonical_ite (leaves (State.faultWrite_resv ..)) <| State.canonical_ite (leaves (State.dwWrite_resv ..)) <|
    State.canonical_ite (State.resetWrite_canonical _ _ _ hs) <| State.canonical_ite hs <| State.canonical_ite ?_ <|
    State.canonical_ite (leaves (State.mesaWrite_resv ..)) <| State.canonical_ite (leaves (State.tileWrite_resv ..)) (leaves (State.plainWrite_resv ..))
  exact State.canonical_ite hs hs

theorem State.commitWrite_canonical (n : Nat) (v : Word) (t : Time) (hs : s.Canonical) : (s.commitWrite n v t).Canonical :=
  State.canonical_ite (State.canonical_of_resv (State.hpFlag_resv ..) hs) (State.wordWrite_canonical _ _ _ (State.wordWrite_canonical _ _ _ hs))

theorem State.barWrite_canonical (off : Nat) (v : Word) (t : Time) (hs : s.Canonical) : (s.barWrite off v t).Canonical := by
  have dropped : (s.dropLatch (normalOff off)).Canonical := State.canonical_of_resv (State.dropLatch_resv ..) hs
  unfold State.barWrite
  refine State.canonical_ite hs ?_
  dsimp only
  split
  · exact State.canonical_of_resv (State.absentAccess_resv ..) dropped
  · refine State.canonical_ite (State.canonical_of_resv (State.stageWrite_resv ..) dropped) (State.canonical_ite ?_ ?_)
    · exact State.commitWrite_canonical _ _ _ dropped
    · exact State.wordWrite_canonical _ _ _ dropped

/-! ### Commands that store into the reservoir, or that need a case split -/

theorem State.at_canonical (t : Time) (hs : s.Canonical) : (s.at t).Canonical := State.canonical_of_resv (State.at_resv ..) hs

theorem execRegisterWrite_canonical (space : Space) (off size : Nat) (value : DWord) (t : Time) (hs : s.Canonical) : OutcomeCanonical (execRegisterWrite space off size value t s) := by
  have here := State.at_canonical t hs
  have leaves {u : State} (h : u.resv = (s.at t).resv) : u.Canonical := State.canonical_of_resv h here
  refine State.canonical_ite here ?_
  split
  · exact State.canonical_ite here (leaves (State.configWrite_resv ..))
  · exact State.canonical_ite (State.barWrite_canonical _ _ _ here) (leaves (State.hpFlag_resv ..))
  · refine State.canonical_ite here (State.canonical_ite (leaves (State.bar2Write_resv ..)) (State.canonical_ite (leaves ?_) (leaves (State.hpFlag_resv ..))))
    rw [State.bar2Write_resv, State.bar2Write_resv]

theorem execHighWordCommit_canonical (off : Nat) (value : Word) (t : Time) (hs : s.Canonical) : OutcomeCanonical (execHighWordCommit off value t s) := by
  have here := State.at_canonical t hs
  have dropped : ((s.at t).dropLatch (normalOff off)).Canonical := State.canonical_of_resv (State.dropLatch_resv ..) here
  refine State.canonical_ite here ?_
  dsimp only
  split
  · exact State.canonical_of_resv (State.absentAccess_resv ..) dropped
  · exact State.commitWrite_canonical _ _ _ dropped

theorem execColdResetEnd_canonical (failed : List Nat) (deadTiles : List (Fin 512)) (hs : s.Canonical) : OutcomeCanonical (execColdResetEnd failed deadTiles s) := by
  unfold execColdResetEnd
  refine State.canonical_ite hs ?_
  extract_lets gone live tiles resv power raised running
  clear_value gone live tiles power
  have same : running.resv.mem = s.resv.mem := rfl
  exact State.canonical_of_mem ((congrArg Reservoir.mem (State.shdnRead_resv running)).trans same) hs

theorem State.debugTile_resv (s : State) (t store addr : Nat) (w : Option Byte) : (s.debugTile t store addr w).1.resv = s.resv := by
  unfold State.debugTile
  cases w <;> (dsimp only; split <;> rfl)

theorem execDbgAccess_canonical (op : DebugOp) (t : Time) (hs : s.Canonical) : OutcomeCanonical (execDbgAccess op t s) := by
  have here := State.at_canonical t hs
  have unit {u : State} (f : _) (hu : u.Canonical) : (u.modUnit f).Canonical := State.canonical_of_resv (State.modUnit_resv ..) hu
  refine State.canonical_ite here (State.canonical_ite (State.canonical_of_resv (State.bypass_resv ..) here) ?_)
  dsimp only
  cases op with
  | writeReservoir addr v => exact State.resvWrite_canonical _ _ _ _ (unit _ here)
  | writeTile tile store addr v => exact State.canonical_of_resv (State.debugTile_resv ..) (unit _ here)
  | stepCore => exact unit _ here
  | haltCore | resumeCore | readTile | readReservoir => exact unit _ (unit _ here)
  | scan => exact State.canonical_of_resv (by simp only [State.modUnit_resv]) here

theorem execStageInComplete_canonical (data : Option (List Byte)) (t : Time) (hs : s.Canonical) : OutcomeCanonical (execStageInComplete data t s) := by
  have here := State.at_canonical t hs
  refine State.canonical_ite here ?_
  dsimp only
  split
  · exact here
  · cases data with
    | none => exact State.canonical_of_resv (by simp) here
    | some bs => exact State.canonical_of_resv (State.hpDone_resv ..) (State.resvWrite_canonical _ _ _ _ here)

theorem execLoadImage_canonical (t : Time) (hs : s.Canonical) : OutcomeCanonical (execLoadImage t s) := by
  have here := State.at_canonical t hs
  have done {u : State} (c : HpCmd) (status detail result : Nat) (hu : u.Canonical) : (u.adminDone c status detail result).Canonical :=
    State.canonical_of_resv (State.adminDone_resv ..) hu
  unfold execLoadImage
  dsimp only [OutcomeCanonical]
  split
  · exact here
  · refine State.canonical_ite here (State.canonical_ite (done _ _ _ _ here) ?_)
    split
    · exact here
    · have ready (l : List Nat) : (l.foldl (fun s t => s.readyTile t) (s.at t)).Canonical := State.canonical_foldl _ (fun _ _ h => State.canonical_of_resv (State.readyTile_resv ..) h) l here
      exact State.canonical_ite (ready _) (done _ _ _ _ (State.canonical_ite (State.loadCold_canonical _ _ _ (ready _)) (State.loadLee_canonical _ _ _ (ready _))))

theorem execInject_canonical (t : Time) (hs : s.Canonical) : OutcomeCanonical (execInject t s) := by
  have here := State.at_canonical t hs
  unfold execInject
  dsimp only [OutcomeCanonical]
  split
  · exact here
  next c _ =>
    have taken : ((s.at t).takeCmd c).Canonical := State.canonical_of_resv (State.takeCmd_resv ..) here
    have done {u : State} (status detail result : Nat) (hu : u.Canonical) : (u.hpDone c status detail result).Canonical :=
      State.canonical_of_resv (State.hpDone_resv ..) hu
    refine State.canonical_ite (done _ _ _ taken) (State.canonical_ite (done _ _ _ taken) (done _ _ _ ?_))
    split
    · exact State.injectEvent_canonical _ _ taken
    all_goals exact State.canonical_of_resv (by simp) taken

theorem execCsiLongPacket_canonical (die : Fin 2) (receiver : Fin 8) (vc dt : Nat) (header : CsiHeader) (crcOk overflow : Bool) (payload : List Byte) (hs : s.Canonical) :
    OutcomeCanonical (execCsiLongPacket die receiver vc dt header crcOk overflow payload s) := by
  refine State.canonical_ite hs ?_
  split
  · exact State.canonical_of_resv (by simp) hs
  · split
    · exact State.canonical_of_resv (State.inFlag_resv ..) hs
    · exact State.canonical_foldl _ (fun _ _ h => State.frameLine_canonical _ _ _ _ _ h) _ hs

theorem execReservoirPatrol_canonical (stack : Fin 8) (hits : List EccHit) (t : Time) (hs : s.Canonical) : OutcomeCanonical (execReservoirPatrol stack hits t s) := by
  have here := State.at_canonical t hs
  refine State.canonical_ite here (State.canonical_foldl _ (fun u e hu => ?_) _ here)
  exact State.canonical_ite (State.canonical_of_mem (State.resvErr_mem ..) hu) hu

theorem execFrameEnd_canonical (die : Fin 2) (receiver : Fin 8) (vc dt : Nat) (t : Time) (hs : s.Canonical) : OutcomeCanonical (execFrameEnd die receiver vc dt t s) := by
  have here := State.at_canonical t hs
  refine State.canonical_ite here ?_
  split
  · exact State.canonical_of_resv (State.inFlag_resv ..) here
  · refine State.canonical_foldl _ (fun u n hu => ?_) _ here
    split
    · exact hu
    · exact State.canonical_of_resv (State.endFrame_resv ..) hu

theorem State.leeReads_resv (s : State) (hits : List EccHit) (party : Party) : (s.leeReads hits party).resv = s.resv := by
  cases party <;> simp [State.leeReads]

theorem execPartyChecksumDone_canonical (party : Party) (id : Nat) (hits : List EccHit) (t : Time) (hs : s.Canonical) : OutcomeCanonical (execPartyChecksumDone party id hits t s) := by
  have here := State.at_canonical t hs
  unfold execPartyChecksumDone
  dsimp only [OutcomeCanonical]
  cases party with
  | chip c =>
    dsimp only
    split
    · exact State.canonical_ite here here
    · exact here
  | tile u => exact State.canonical_ite here (State.canonical_of_resv (State.leeReads_resv ..) here)
  | mesa d => exact State.canonical_ite here (State.canonical_of_resv (State.leeReads_resv ..) here)

theorem execRowWakeDone_canonical (dom : Nat) (t : Time) (hs : s.Canonical) : OutcomeCanonical (execRowWakeDone dom t s) := by
  have here := State.at_canonical t hs
  have woken (r : _) : ((s.at t).setRow dom r).Canonical := State.canonical_of_resv (State.setRow_resv ..) here
  refine State.canonical_ite here (State.canonical_ite (woken _) (State.canonical_foldl _ (fun u n hu => ?_) _ (woken _)))
  split
  · exact State.canonical_of_resv (by simp) hu
  · exact hu

theorem execSlipPoint_canonical (t : Time) (hs : s.Canonical) : OutcomeCanonical (execSlipPoint t s) := by
  have here := State.at_canonical t hs
  refine State.canonical_ite here ?_
  have slipped (l : List Party) : (l.foldl (fun s p => match p with | .tile u => s.tileSlips u | .mesa d => s.mesaSlips d | .chip _ => s) (s.at t)).Canonical := by
    refine State.canonical_foldl _ (fun u p hu => ?_) l here
    cases p with
    | chip c => exact hu
    | tile u => exact State.canonical_of_resv (State.tileSlips_resv ..) hu
    | mesa d => exact State.canonical_of_resv (State.mesaSlips_resv ..) hu
  refine State.canonical_of_resv (State.foldl_resv _ _ _ fun _ _ => State.unseat_resv ..) ?_
  exact State.canonical_of_resv (State.slipReply_resv ..) (slipped _)

theorem State.logEarly_resv (s : State) (j : Nat) (l : List LogRec) : (s.logEarly j l).resv = s.resv := by
  induction l generalizing s with
  | nil => rfl
  | cons r l ih =>
    unfold State.logEarly
    exact State.resv_ite (State.setWriter_resv ..) ((ih _).trans (State.logEntry_resv ..))

theorem execLogRecordArrive_canonical (die : Fin 2) (hs : s.Canonical) : OutcomeCanonical (execLogRecordArrive die s) := by
  unfold execLogRecordArrive
  dsimp only [OutcomeCanonical]
  split
  · exact hs
  · refine State.canonical_ite hs (State.canonical_ite ?_ ?_)
    · exact State.canonical_of_resv (State.logEntry_resv ..) hs
    · exact State.canonical_of_resv (State.logEarly_resv ..) hs

theorem execPtpSync_canonical (master : Int) (t : Time) (hs : s.Canonical) : OutcomeCanonical (execPtpSync master t s) := by
  unfold execPtpSync
  refine State.canonical_ite hs ?_
  extract_lets ptp set epoch dated started time
  refine State.canonical_ite ?_ (State.canonical_of_resv ((State.servoSync_resv ..).trans (State.tick_resv ..)) hs)
  have dated_resv : dated.resv = s.resv := (State.setReg_resv ..).trans (State.setReg_resv ..)
  have started_resv : started.resv = dated.resv := State.startTime_resv ..
  clear_value time dated started
  refine State.canonical_ite (State.canonical_of_resv dated_resv hs) ?_
  exact State.canonical_of_resv (started_resv.trans dated_resv) hs

end Sys2Proof.Machine
end

section
/-! SUPPORT. Every command keeps the form of the reservoir's memory (log 3): obligation O59. -/

namespace Sys2Proof.Machine
variable {s : State}

/-- Every command leaves the reservoir in its form: one arm for each way to see it. -/
theorem exec_canonical (c : Instr) (hs : s.Canonical) : OutcomeCanonical (exec c s) :=
  match c with
  | .lowWordReadLatch .. | .lowWordStage .. | .sqEntryFetch .. | .unloadImage .. | .outputCopyComplete .. | .ethFrame .. | .frameStart ..
  | .tagReadDone .. | .canFrameReceive .. | .frameJobAdmission .. | .hostJobAdmission .. | .commitCheck .. | .regDataReceive .. | .flitHop ..
  | .cairnApply .. =>
    .of_resv hs <| by
      dsimp only
      (repeat' split) <;> simp
  | .absentUnitAccess .. | .hpNop .. | .stageIn .. | .submitJob .. | .slip .. | .timeStep .. | .completionPost .. | .timeStepApply ..
  | .timeStepTimeout .. | .trigGlitch .. | .trigQualify .. | .trigHoldoffEnd .. | .frameReadoutTimeout .. | .cycleAdmission .. | .inputSetClosure ..
  | .reservationEnd .. | .deadlineExpiry .. | .eventRetransmit .. | .eventAbandon .. | .actRegTimeout .. | .slipAbortWrite .. | .tileBankRetireEnd ..
  | .mesaBankRetireEnd .. | .slipReclaimTimeout .. | .leeChunkRetransmit .. | .jobStart .. | .flitDeliver .. | .busyHoldEnd .. | .logKeyedRelease ..
  | .logHostCopy .. =>
    .of_resv hs <| by
      dsimp only
      split <;> simp
  | .powerOn .. | .resetNAssert .. =>
    State.canonical_ite (State.blank_canonical ..) hs
  | .resetNRelease .. | .firmwareStart .. | .warmRstNAssert .. | .watchdogExpiry .. | .rstCtlWarm .. | .rstCtlShutdown .. | .rstDomainWrite ..
  | .recover .. | .rollbackCommit .. | .otpDisableDebug .. | .jtagBypass .. | .jtagIdcode .. | .jtagSamplePreload .. | .jtagExtest .. | .jtagClamp ..
  | .jtagHighz .. | .dbgChal .. | .dbgResp .. | .relock .. | .dflHoldSet .. | .dflHoldClear .. | .powerDownStart .. | .pwrFailNFall ..
  | .railCollapse .. | .hostLinkReset .. | .powerStateChange .. | .stageConfigWrite .. | .hp1Doorbell .. | .sqTailDoorbell .. | .hp2GroupStamp ..
  | .cqHeadDoorbell .. | .queueEnable .. | .queueDisable .. | .timeStart .. | .timeConfigChange .. | .ptpSyncTimeout .. | .stampEpochNear ..
  | .stampLimit .. | .replayStart .. | .replayEnd .. | .replayClockAdvance .. | .trigEdge .. | .camClockLock .. | .csiLineShortPacket .. | .tagRxs ..
  | .tagFr .. | .tagRateUpdate .. | .canErrorFrame .. | .canTransmit .. | .canInitEnter .. | .canInitLeave .. | .commitReceive .. | .replyReceive ..
  | .dflFrameSend .. | .dflTimeTick .. | .dflFrameDiscard .. | .dflSilenceTimeout .. | .dflAlignLossTimeout .. | .dflDiscardCount .. | .dflLinkUp ..
  | .statusEventReceive .. | .statusPeriodicReceive .. | .statusIdentReceive .. | .reflexRuleWrite .. | .reflexLaunch .. | .slipPrepareWrite ..
  | .slipPrepareTimeout .. | .commitAckReceive .. | .slipArmTimeout .. | .partyAbort .. | .engineOpComplete .. | .scrubRead .. | .tileCbWrite ..
  | .creditReturn .. | .hopWait .. | .beWait .. | .cairnBindMsg .. | .cairnAddMsg .. | .cairnAddsMsg .. | .cairnFenceMsg .. | .cairnWaitMsg ..
  | .cairnSettleNMsg .. | .cairnSettleWMsg .. | .cairnCloseMsg .. | .rowEnterA1 .. | .rowEnterA2 .. | .rowEnterA3 .. | .rowWake ..
  | .rowCrestRestored .. | .rowLeeRestored .. | .wakeLate .. | .commonEnterA1 .. | .commonWake .. | .fDomainSwitchDone .. | .hintRegNoChange ..
  | .hintRegIdleSoon .. | .hintRegBusySoon .. | .timingAlarm .. | .thermalSample .. | .dwEnable .. | .dwDisable .. | .dwFreeze .. | .dwFrame ..
  | .dwFeedGo .. | .dwInferenceDone .. | .dwSourceLost .. | .logHostHeadWrite .. | .reservoirRange .. | .stackFailed .. | .tileFatal ..
  | .safeClear .. | .delluFlitCrcFail .. | .delluRetrain .. | .delluRetrainDone .. | .linkFailed .. | .ethLinkChange .. | .ptpAnnounceReceive ..
  | .ptpDelayResponse .. | .ptpMasterSyncSend .. =>
    .of_resv hs (by simp)
  | .warmReset .. | .mergeItemArrive .. | .mergeRelease .. | .partyPrepare .. | .prepareAck .. | .prepareNack .. | .partyCommit ..
  | .leeRefreshDone .. | .horizonArrive .. | .avsWindow .. | .clockChange .. =>
    .of_resv hs <| by split <;> simp
  | .otpProgram .. =>
    .of_resv hs (execOtpProgram_resv ..)
  | .otpRevoke .. =>
    .of_resv hs (execOtpRevoke_resv ..)
  | .adminCommandNext .. =>
    .of_resv hs (by (repeat' split) <;> simp)
  | .actRegGo .. =>
    .of_resv hs (answer_execActRegGo_resv _ s ..)
  | .add .. | .sub .. | .and_ .. | .or_ .. | .xor_ .. | .sll .. | .srl .. | .sra .. | .mul .. | .div .. | .divu .. | .rem .. | .remu .. | .min ..
  | .max .. | .minu .. | .maxu .. | .adds .. | .subs .. | .addi .. | .andi .. | .ori .. | .xori .. | .lui .. | .cmpEq .. | .cmpNe .. | .cmpLt ..
  | .cmpGe .. | .cmpLtu .. | .cmpGeu .. | .pand .. | .por .. | .pxor .. | .pandn .. | .pnot .. | .pfrom .. | .pto .. | .nop .. | .aset .. | .amov ..
  | .aadd .. | .alen .. | .ardlo .. | .ardhi .. | .stlo .. | .sthi .. | .stjob .. | .pget .. | .eget .. | .iklo .. | .ikhi .. | .ikseq ..
  | .pwrNoChange .. | .bankId .. | .bankOld .. =>
    State.issueCore_canonical _ _ _ hs
  | .mulw .. | .mulwu .. | .shi .. | .fset .. | .rdcyc .. | .rdst .. | .spoll .. | .rdstall .. =>
    State.issue_done_canonical _ _ _ _ hs
  | .br .. | .jr .. =>
    State.issue_canonical _ _ _ _ hs fun _ _ hu => State.jumpTo_canonical _ _ _ _ hu
  | .fenceEng .. | .psel .. =>
    State.issue_canonical _ _ _ _ hs fun _ _ hu => NtRes.canonical_ite trivial hu
  | .dsetKind .. | .sopenOut .. | .shzn .. =>
    State.issue_canonical _ _ _ _ hs fun _ _ hu => NtRes.canonical_firstCause hu
  | .dsetLoose .. | .dsetFmt .. | .dsetSources .. | .dsetStream .. | .dsetRing .. =>
    State.dset_canonical _ _ _ _ hs
  | .fadd .. | .fsub .. | .fmul .. | .fma .. | .fmin .. | .fmax .. | .fabs .. | .fneg .. | .cvtF32F16 .. | .cvtF16F32 .. | .cvtF32I32 ..
  | .cvtI32F32 .. | .iadd .. | .isub .. | .imul .. | .iadds .. | .isubs .. | .imin .. | .imax .. | .vand .. | .vor .. | .vxor .. | .vsll .. | .vsra ..
  | .rsum .. | .rmax .. | .rmin .. | .flt .. | .feq .. | .ilt .. | .sel .. | .bcast .. | .extr .. | .insr .. | .laneid .. =>
    State.issueVec_canonical _ _ _ hs
  | .vld32 .. | .vld16 .. | .vldu8 .. | .vldbc .. =>
    State.vload_canonical _ _ _ _ _ _ _ hs
  | .vst32 .. | .vst16 .. | .vstu8 .. =>
    State.vstore_canonical _ _ _ _ _ _ hs
  | .sget .. | .sgetnb .. =>
    State.issue_canonical _ _ _ _ hs fun _ _ hu => State.get_canonical _ _ _ _ _ _ _ hu
  | .cwait .. =>
    State.issue_canonical _ _ _ _ hs fun _ _ hu => State.cairnSend_canonical _ _ _ _ _ _ hu fun _ _ _ h => h
  | .cpost .. | .cadd .. | .cadds .. | .cfence .. =>
    State.cairnQueued_canonical _ _ _ _ _ _ hs
  | .pwrIdleSoon .. =>
    State.issue_canonical _ _ _ _ hs fun _ _ hu => State.canonical_of_resv (State.idleSoon_resv ..) hu
  | .pwrBusySoon .. =>
    State.issue_canonical _ _ _ _ hs fun _ _ hu => State.canonical_of_resv (State.busySoon_resv ..) hu
  | .bzPowerUp .. | .bzLogicReset .. =>
    .of_resv hs (State.onChip_resv ..)
  | .bzPowerupTimeout .. | .bzTimeFrame .. | .bzHeartbeatLoss .. | .bzHoldLastEnd .. | .bzLimpPinChange .. | .bzLimpEntryStart .. | .bzOvervolt ..
  | .bzUndervolt .. | .bzCrankEnter .. | .bzCrankEnd .. | .bzCrankTimeout .. | .bzSupplyRecover .. | .vsSample .. | .bzTrip .. | .bzTripClear ..
  | .bzRelease .. | .bzEnterLimp .. | .bzRegRead .. | .bzRegWrite .. | .bzStatusSample .. | .bzPeriodicStatus .. | .bzIdentStatus .. | .bzFrameSend ..
  | .bzLimpStoreDone .. | .bzSlipPrepare .. | .bzLeeData .. | .bzSlipCommit .. | .bzSlipAbort .. | .bzSlipPoint .. | .bzReseatSwitch ..
  | .bzHsEventReceive .. | .bzSolEventReceive .. | .bzReflexReceive .. | .bzHsEventFire .. | .hsPulseEnd .. | .hsPwmPeriod .. | .hsPwmOffEdge ..
  | .hsDcOlCheck .. | .hsOverload .. | .hsRetryEnd .. | .hsRetryReset .. | .hsMWindowEnd .. | .hsThermalShutdown .. | .hsThermalRestart ..
  | .hsFuseUpdate .. | .hsCompUpdate .. | .hsClampEnd .. | .hsOlOffSourceOn .. | .hsOlOffSample .. | .hsPairImbalance .. | .hsFlagClear ..
  | .bzSolEventStart .. | .solPeakReached .. | .solPeakTimeout .. | .solDwellEnd .. | .solSourceSwitch .. | .solChopPeriod .. | .solHoldEnd ..
  | .solDecayEnd .. | .solRestEnd .. | .solShort .. | .solCoilUpdate .. | .solProbe .. | .solProbeDone .. | .bstMeasure .. | .solFlagClear ..
  | .solRelearn .. | .bzDflFrameDiscard .. | .solChopOff .. =>
    .of_resv hs (State.onLive_resv ..)
  | .vddKeepLoss .. =>
    State.blank_canonical ..
  | .registerWrite .. => execRegisterWrite_canonical _ _ _ _ _ hs
  | .highWordCommit .. => execHighWordCommit_canonical _ _ _ hs
  | .coldResetEnd .. => execColdResetEnd_canonical _ _ hs
  | .rstCtlCold .. => execRstCtlCold_canonical _ hs
  | .dbgAccess .. => execDbgAccess_canonical _ _ hs
  | .stageInComplete .. => execStageInComplete_canonical _ _ hs
  | .loadImage .. => execLoadImage_canonical _ hs
  | .inject .. => execInject_canonical _ hs
  | .ptpSync .. => execPtpSync_canonical _ _ hs
  | .csiLongPacket .. => execCsiLongPacket_canonical _ _ _ _ _ _ _ _ hs
  | .frameEnd .. => execFrameEnd_canonical _ _ _ _ _ hs
  | .partyChecksumDone .. => execPartyChecksumDone_canonical _ _ _ _ hs
  | .slipPoint .. => execSlipPoint_canonical _ hs
  | .reservoirPatrol .. => execReservoirPatrol_canonical _ _ _ hs
  | .cairnReply .. => execCairnReply_canonical _ _ _ _ _ _ hs
  | .rowWakeDone .. => execRowWakeDone_canonical _ _ hs
  | .logRecordArrive .. => execLogRecordArrive_canonical _ hs
  | .jend .. => execJend_canonical _ _ hs
  | .ld .. => execLd_canonical _ _ _ _ _ _ hs
  | .st .. => execSt_canonical _ _ _ _ _ hs
  | .fld _ _ _ c => execFld_canonical _ _ _ c hs
  | .fmac .. => execFmac_canonical _ _ _ _ _ _ _ hs
  | .fdrn .. => execFdrn_canonical _ _ _ _ _ _ hs
  | .vtab .. => execVtab_canonical _ _ _ _ _ _ hs
  | .gather .. => execGather_canonical _ _ _ _ _ _ _ hs
  | .gatherCsr .. => execGatherCsr_canonical _ _ _ _ _ _ _ hs
  | .scatter .. => execScatter_canonical _ _ _ _ _ _ _ hs
  | .scatterAcc .. => execScatterAcc_canonical _ _ _ _ _ _ _ hs
  | .sopenIn .. => execSopenIn_canonical _ _ _ hs
  | .sclose .. => execSclose_canonical _ _ _ hs
  | .sput .. => execSput_canonical _ _ _ _ _ hs
  | .settleN .. => execSettleN_canonical _ _ _ _ _ hs
  | .settleW .. => execSettleW_canonical _ _ _ _ _ hs
  | .act .. => execAct_canonical _ _ _ hs
  | .log .. => execLog_canonical _ _ _ _ hs

/-- Settles O59: only `resvWrite` and the resets store into the reservoir, and both leave the form; every other command leaves its memory alone. -/
theorem reservoirStaysCanonical : Obligations.ReservoirStaysCanonical := by
  intro s u form ran
  unfold step at ran
  split at ran
  · cases ran
    exact form
  next c rest _ =>
    have kept := exec_canonical c (s := { s with pending := rest }) form
    rw [ran] at kept
    exact kept

end Sys2Proof.Machine
end

section
/-! SUPPORT. Cold reset, bring-up and the shutdown area (02 R50, R51; 22 R588 to R608): obligation O18. -/

namespace Sys2Proof.Machine

/-! ### What a cold reset leaves (R588, R592, R600) -/

theorem State.blank_cleared (s : State) (phase : Phase) (cause : Nat) : s.Cleared (s.blank phase cause) phase cause where
  phase := rfl
  lastCause := rfl
  words := ⟨rfl, rfl, rfl, rfl, rfl⟩
  units := ⟨rfl, rfl, rfl, rfl, rfl, rfl, rfl, rfl, rfl⟩
  work := ⟨rfl, rfl, rfl⟩
  lock := ⟨rfl, rfl, rfl, rfl, rfl⟩
  stays := ⟨rfl, rfl, rfl, rfl, rfl, rfl, rfl, rfl, rfl, rfl⟩

theorem coldResetClears : Sys2Proof.Claims.ColdResetClears := by
  intro s
  have goes {p : Prop} [Decidable p] {u v : State} (h : p) : (Host.Outcome.next (if p then u else v) : Host.Outcome State Fault Refusal) = .next u := by rw [if_pos h]
  have stays {p : Prop} [Decidable p] {u v : State} (h : ¬ p) : (Host.Outcome.next (if p then u else v) : Host.Outcome State Fault Refusal) = .next v := by rw [if_neg h]
  refine ⟨?powerOn, ?powered, ?resetN, ?short, ?release, ?free, ?cold, ?badKey, ?keepLoss⟩
  case powerOn => exact fun off => ⟨_, goes off, s.blank_cleared ..⟩
  case powered => exact fun on => stays on
  case resetN => exact fun us long ok => ⟨_, goes ⟨long, ok⟩, s.blank_cleared ..⟩
  case short => exact fun us short => stays fun h => absurd h.1 (Nat.not_le.mpr short)
  case release => exact fun scan held => goes held
  case free => exact fun scan free => stays free
  case cold => exact fun running => ⟨_, goes ⟨rfl, running⟩, s.blank_cleared ..⟩
  case badKey => exact fun key wrong => stays fun h => wrong h.1
  case keepLoss => exact ⟨_, rfl, s.blank_cleared ..⟩

/-! ### Units out of service after bring-up (R50, R51; log 46) -/

theorem getLsbD_oneBit (b n : Nat) (h : n < 32) : (oneBit b).getLsbD n = decide (n = b) := by
  rw [oneBit, BitVec.getLsbD_ofNat, Nat.one_shiftLeft, Nat.testBit_two_pow, decide_eq_true h, Bool.true_and, decide_eq_decide.mpr eq_comm]

theorem getLsbD_foldl_clear (l : List Nat) (w : Word) (n : Nat) (h : n < 32) :
    (l.foldl (fun w b => w &&& ~~~oneBit b) w).getLsbD n = (w.getLsbD n && !l.contains n) := by
  induction l generalizing w with
  | nil => rw [List.foldl_nil, List.contains_nil, Bool.not_false, Bool.and_true]
  | cons b l ih =>
    rw [List.foldl_cons, ih, BitVec.getLsbD_and, BitVec.getLsbD_not, getLsbD_oneBit b n h, decide_eq_true h, List.contains_cons, Bool.true_and, Bool.and_assoc,
      Bool.not_or, beq_eq_decide]

theorem getLsbD_foldl_dead (l : List (Fin 512)) (m : BitVec 512) (t : Fin 512) :
    (l.foldl (fun (m : BitVec 512) (t : Fin 512) => m &&& ~~~(BitVec.ofNat 512 (2 ^ t.val))) m).getLsbD t.val = (m.getLsbD t.val && !l.contains t) := by
  induction l generalizing m with
  | nil => rw [List.foldl_nil, List.contains_nil, Bool.not_false, Bool.and_true]
  | cons b l ih =>
    rw [List.foldl_cons, ih, BitVec.getLsbD_and, BitVec.getLsbD_not, BitVec.getLsbD_ofNat, Nat.testBit_two_pow, decide_eq_true t.isLt, List.contains_cons,
      Bool.true_and, Bool.true_and, Bool.and_assoc, Bool.not_or, beq_eq_decide, decide_eq_decide.mpr (Fin.ext_iff.symm.trans eq_comm)]

theorem getLsbD_firstTiles (n : Nat) (t : Fin 512) : (firstTiles n).getLsbD t.val = decide (t.val < n) := by
  rw [firstTiles, BitVec.getLsbD_ofNat, Nat.testBit_two_pow_sub_one, decide_eq_true t.isLt, Bool.true_and]

/-! ### The shutdown area at bring-up (R606, R608) -/

/-- Sequence number of the next shutdown record. -/
def ResetUnit.nextSeq (u : ResetUnit) : Nat := match u.newest with | some old => (old.seq + 1) % 2 ^ 32 | none => 1

theorem State.shdnWrite_slot (s : State) (state : Nat) :
    ∃ r : ShdnRec, r.state = state ∧ r.live = s.live ∧ r.faultRef = s.logs.faultRef ∧ r.seq = s.unit.nextSeq ∧
      ((s.shdnWrite state = s.modUnit (fun u => { u with slotA := some r }) ∧ ∀ old, s.unit.newest = some old → s.unit.slotB = some old) ∨
       (s.shdnWrite state = s.modUnit (fun u => { u with slotB := some r }) ∧ ∀ old, s.unit.newest = some old → s.unit.slotA = some old)) := by
  unfold State.shdnWrite
  extract_lets u seq run r toB
  refine ⟨r, rfl, rfl, rfl, rfl, ?_⟩
  unfold ResetUnit.newest
  cases ha : s.unit.slotA with
  | none => exact .inl ⟨by simp [toB, u, ha], fun old h => h⟩
  | some a =>
    cases hb : s.unit.slotB with
    | none => exact .inr ⟨by simp [toB, u, ha, hb], fun old h => h⟩
    | some b =>
      by_cases newer : a.seq < b.seq
      · exact .inl ⟨by simp [toB, u, ha, hb, Nat.not_le.mpr newer], fun old h => by simpa [newer] using h⟩
      · exact .inr ⟨by simp [toB, u, ha, hb, Nat.not_lt.mp newer], fun old h => by simpa [newer] using h⟩

/-- The newest shutdown record says that the module went down cleanly (R608). -/
def ResetUnit.wentClean (u : ResetUnit) : Bool := match u.newest with | some r => decide (r.state = 3) | none => false

theorem ResetUnit.wentClean_iff (u : ResetUnit) : u.wentClean = true ↔ ∃ r, u.newest = some r ∧ r.state = 3 := by
  unfold ResetUnit.wentClean
  cases u.newest <;> simp

/-- The newest record is shown, and UNCLEAN is set unless that record is CLEAN. -/
def State.showNewest (s : State) : State :=
  let shown := s.modUnit fun u => { u with shown := s.unit.newest }
  if s.unit.wentClean then shown else shown.setFlag 0x9010 8

theorem State.shdnRead_eq (s : State) : s.shdnRead = s.showNewest.shdnWrite 1 := by
  unfold State.shdnRead State.showNewest ResetUnit.wentClean
  cases s.unit.newest with
  | none => rfl
  | some r => by_cases clean : r.state = 3 <;> simp [clean]

/-- Only the record shown and the flag register differ. -/
theorem State.showNewest_eq (s : State) : ∃ regs, s.showNewest = { s with regs := regs, unit := { s.unit with shown := s.unit.newest } } := by
  unfold State.showNewest
  split
  · exact ⟨_, rfl⟩
  · exact ⟨_, rfl⟩

theorem State.showNewest_reg (s : State) : s.showNewest.reg 0x9010 = if s.unit.wentClean then s.reg 0x9010 else s.reg 0x9010 ||| oneBit 8 := by
  unfold State.showNewest
  split
  · rfl
  · exact State.reg_setReg ..

/-- SHUTDOWN_RECORD_READ shows the newest record, flags it, and writes a RUNNING record into the slot that does not hold it; nothing else changes. -/
theorem State.shdnRead_result (s : State) : ∃ regs a b, ∃ r : ShdnRec,
    s.shdnRead = { s with regs := regs, unit := { s.unit with shown := s.unit.newest, slotA := a, slotB := b } } ∧
    mget regReset regs 0x9010 = (if s.unit.wentClean then s.reg 0x9010 else s.reg 0x9010 ||| oneBit 8) ∧
    r.state = 1 ∧ r.live = s.live ∧ r.faultRef = s.logs.faultRef ∧ r.seq = s.unit.nextSeq ∧
    ((a = some r ∧ b = s.unit.slotB) ∨ (b = some r ∧ a = s.unit.slotA)) ∧ (∀ old, s.unit.newest = some old → a = some old ∨ b = some old) := by
  obtain ⟨regs, shown⟩ := s.showNewest_eq
  obtain ⟨r, state, live, fault, seq, written⟩ := s.showNewest.shdnWrite_slot 1
  have reg := s.showNewest_reg
  rw [s.shdnRead_eq]
  rw [shown] at live fault seq written reg ⊢
  obtain ⟨slot, other⟩ | ⟨slot, other⟩ := written
  · exact ⟨regs, some r, s.unit.slotB, r, slot, reg, state, live, fault, seq, .inl ⟨rfl, rfl⟩, fun old h => .inr (other old h)⟩
  · exact ⟨regs, s.unit.slotA, some r, r, slot, reg, state, live, fault, seq, .inr ⟨rfl, rfl⟩, fun old h => .inl (other old h)⟩

/-! ### COLD_RESET_END (R50, R51, R593) -/

/-- The units that came up are in service; the shutdown area is still to be read. -/
def State.raised (s : State) (failed : List Nat) (dead : List (Fin 512)) : State :=
  let failed := s.failedAt failed
  let live := failed.foldl (fun (w : Word) b => w &&& ~~~(oneBit b)) s.fuses.allLive
  let tiles := dead.foldl (fun (m : BitVec 512) (t : Fin 512) => m &&& ~~~(BitVec.ofNat 512 (2 ^ t.val))) (firstTiles (128 * s.fuses.ergCount))
  let missing := (List.range s.fuses.stackCount).filter fun n => failed.contains (4 + n)
  { s with live, tileLive := tiles, resv := { s.resv with missing }, power := { s.power with fOn := startF (bit live 13) }, unit := { s.unit with phase := .running } }

theorem execColdResetEnd_raised (s : State) (failed : List Nat) (dead : List (Fin 512)) (up : s.unit.phase = .bringUp) (first : 12 ∉ failed) :
    exec (.coldResetEnd failed dead) s = .next (s.raised failed dead).shdnRead :=
  congrArg Host.Outcome.next (if_neg (not_or.mpr ⟨not_not.mpr up, first⟩))

theorem State.mem_missing_raised (s : State) (failed : List Nat) (dead : List (Fin 512)) (n : Nat) :
    n ∈ (s.raised failed dead).resv.missing ↔ n < s.fuses.stackCount ∧ 4 + n ∈ s.failedAt failed := by
  show n ∈ (List.range s.fuses.stackCount).filter (fun n => (s.failedAt failed).contains (4 + n)) ↔ _
  rw [List.mem_filter, List.mem_range, List.contains_iff_mem]

theorem bringUpEnds : Sys2Proof.Claims.BringUpEnds := by
  intro s failed dead
  refine ⟨fun up first => ⟨_, execColdResetEnd_raised s failed dead up first, ?_⟩, fun h => congrArg Host.Outcome.next (if_pos h)⟩
  obtain ⟨regs, a, b, r, read, flag, state, live, fault, seq, slots, old⟩ := (s.raised failed dead).shdnRead_result
  have units (n : Nat) (h : n < 32) := getLsbD_foldl_clear (s.failedAt failed) s.fuses.allLive n h
  have tiles (t : Fin 512) : (s.raised failed dead).tileLive.getLsbD t.val = (decide (t.val < 128 * s.fuses.ergCount) && !dead.contains t) :=
    (getLsbD_foldl_dead dead _ t).trans (by rw [getLsbD_firstTiles])
  have unclean : mget regReset regs 0x9010 = if (∃ r, s.unit.newest = some r ∧ r.state = 3) then s.reg 0x9010 else s.reg 0x9010 ||| oneBit 8 :=
    flag.trans (if_congr s.unit.wentClean_iff rfl rfl)
  rw [read]
  exact ⟨rfl, units, tiles, rfl, unclean, ⟨r, state, live, fault, seq, slots, old⟩, rfl, rfl, rfl, rfl, rfl, rfl, rfl,
    s.mem_missing_raised failed dead, rfl, rfl⟩

/-- Settles O18: the state that each cold reset leaves, and how bring-up ends. -/
theorem coldResetResults : Obligations.ColdResetResults := ⟨coldResetClears, bringUpEnds⟩

end Sys2Proof.Machine
end

section
/-! SUPPORT. Station time and its servo (02 R45; 03 R66; 15 R404 to R406): obligation O29. -/

namespace Sys2Proof.Machine

section
variable (s : State)

/-! ### The status flags and the servo's state -/

theorem State.timeFlag_time (b : Nat) : (s.timeFlag b).time = s.time := by
  unfold State.timeFlag
  dsimp only
  split
  · exact (State.reported_signal ..).time
  · rfl

theorem State.timeFlag_reg (b x : Nat) (h : x ≠ 0x4014) : (s.timeFlag b).reg x = s.reg x := by
  unfold State.timeFlag
  dsimp only
  split
  · rw [State.signal_reg, State.setFlag_reg_ne _ _ _ _ h]
  · exact State.setFlag_reg_ne _ _ _ _ h

theorem State.setServo_time (v : Servo) : (s.setServo v).time = { s.time with servo := v, goodSyncs := 0 } := by
  unfold State.setServo
  dsimp only
  split
  · exact State.timeFlag_time ..
  · rfl

theorem State.setServo_reg (v : Servo) (x : Nat) (h : x ≠ 0x4014) : (s.setServo v).reg x = s.reg x := by
  unfold State.setServo
  dsimp only
  split
  · exact State.timeFlag_reg _ _ _ h
  · rfl

/-! ### One Sync (R406) -/

/-- Syncs in a row within 500 ns, after one with this offset. -/
def TimeUnit.goodAfter (u : TimeUnit) (offset : Int) : Nat := if offset.natAbs ≤ 500 then u.goodSyncs + 1 else 0

/-- The servo's state after a Sync with this offset. -/
def TimeUnit.servoAfter (u : TimeUnit) (offset : Int) : Servo :=
  if 8 ≤ u.goodAfter offset then .locked else if u.servo = .locked ∧ 500 < offset.natAbs then .acquiring else u.servo

/-- The frequency correction after a Sync with this offset. -/
def TimeUnit.freqAfter (u : TimeUnit) (offset : Int) : Int := max (-250000) (min 250000 (Config.servoFreq u.freq offset))

/-- The time unit once the servo has measured an offset, before it is stepped or slewed away. -/
def TimeUnit.measured (u : TimeUnit) (offset : Int) : TimeUnit :=
  { u with lastSync := u.clock, offset, freq := u.freqAfter offset, goodSyncs := u.goodAfter offset, servo := u.servoAfter offset }

theorem TimeUnit.freqAfter_bounds (u : TimeUnit) (offset : Int) : -250000 ≤ u.freqAfter offset ∧ u.freqAfter offset ≤ 250000 := by
  unfold TimeUnit.freqAfter
  omega

theorem TimeUnit.servoAfter_locked (u : TimeUnit) (offset : Int) (near : offset.natAbs ≤ 500) (run : 7 ≤ u.goodSyncs) : u.servoAfter offset = .locked := by
  unfold TimeUnit.servoAfter TimeUnit.goodAfter
  rw [if_pos near, if_pos (by omega)]

theorem TimeUnit.servoAfter_lost (u : TimeUnit) (offset : Int) (far : 500 < offset.natAbs) (locked : u.servo = .locked) : u.servoAfter offset = .acquiring := by
  unfold TimeUnit.servoAfter TimeUnit.goodAfter
  rw [if_neg (Nat.not_le.mpr far), if_neg (by decide), if_pos ⟨locked, far⟩]

theorem TimeUnit.servoAfter_same (u : TimeUnit) (offset : Int) (unlocked : u.servo ≠ .locked) (run : u.goodSyncs < 7) : u.servoAfter offset = u.servo := by
  have few : ¬ 8 ≤ u.goodAfter offset := by
    unfold TimeUnit.goodAfter
    split <;> omega
  rw [TimeUnit.servoAfter, if_neg few, if_neg fun h => unlocked h.1]

theorem State.stepRefused_time (n : Int) : (s.stepRefused n).time = { s.time with step := none, slew := n } := State.timeFlag_time ..

/-- The state of the servo once it has measured an offset. -/
def State.servoMeasured (offset : Int) : State :=
  let good := decide (offset.natAbs ≤ 500)
  let n := if good then s.time.goodSyncs + 1 else 0
  let freq := max (-250000) (min 250000 (Config.servoFreq s.time.freq offset))
  let s := { s with time := { s.time with lastSync := s.time.clock, offset, freq, goodSyncs := n } }
  if 8 ≤ n then { s with time := { s.time with servo := .locked } }
  else if s.time.servo = .locked ∧ !good then s.setServo .acquiring else s

theorem State.servoSync_eq (offset : Int) : s.servoSync offset =
    let w := s.servoMeasured offset
    if (100000 : Int) < offset ∧ w.time.step.isNone then
      if offset.toNat ≤ (w.reg 0x4020).toNat then { w with time := { w.time with step := some (offset.toNat, w.time.clock, false) } }
      else w.stepRefused offset
    else { w with time := { w.time with slew := offset } } := rfl

theorem State.servoMeasured_reg (offset : Int) (x : Nat) (h : x ≠ 0x4014) : (s.servoMeasured offset).reg x = s.reg x := by
  unfold State.servoMeasured
  extract_lets good n freq time w
  split
  · rfl
  · split
    · exact State.setServo_reg _ _ _ h
    · rfl

theorem State.servoMeasured_time (offset : Int) : (s.servoMeasured offset).time = s.time.measured offset := by
  unfold State.servoMeasured TimeUnit.measured TimeUnit.servoAfter TimeUnit.goodAfter TimeUnit.freqAfter
  by_cases near : offset.natAbs ≤ 500
  · by_cases run : 8 ≤ s.time.goodSyncs + 1 <;> simp [near, run, Nat.not_lt.mpr near]
  · by_cases locked : s.time.servo = .locked <;> simp [near, locked, State.setServo_time, Nat.not_le.mp near]

/-- What a Sync does with the offset it measured: the time unit keeps the rest of the measurement. -/
theorem State.servoSync_time (offset : Int) : ∃ slew step, (s.servoSync offset).time = { s.time.measured offset with slew := slew, step := step } ∧
    (100000 < offset → s.time.step = none → offset.toNat ≤ (s.reg 0x4020).toNat → ∃ r, step = some (offset.toNat, r, false)) ∧
    (offset ≤ 100000 → slew = offset ∧ step = s.time.step) := by
  rw [State.servoSync_eq]
  dsimp only
  rw [State.servoMeasured_reg _ _ _ (by decide), s.servoMeasured_time]
  by_cases large : 100000 < offset
  · cases pending : s.time.step with
    | some p =>
      rw [if_neg fun h => by simp [TimeUnit.measured, pending] at h]
      exact ⟨offset, s.time.step, rfl, (fun _ idle _ => nomatch idle), fun small => absurd large (by omega)⟩
    | none =>
      rw [if_pos ⟨large, by simp [TimeUnit.measured, pending]⟩]
      split
      next => exact ⟨_, _, rfl, fun _ _ _ => ⟨_, rfl⟩, fun small => absurd large (by omega)⟩
      next big => exact ⟨offset, none, (State.stepRefused_time ..).trans (by rw [s.servoMeasured_time]), fun _ _ fits => absurd fits big, fun small => absurd large (by omega)⟩
  · rw [if_neg fun h => large h.1]
    exact ⟨offset, s.time.step, rfl, fun h => absurd h large, fun _ => ⟨rfl, rfl⟩⟩

/-! ### The counter (R66, R404) -/

theorem State.at_clock (w : Time) : (s.at w).time.running = s.time.running ∧ s.time.now ≤ (s.at w).time.now ∧ (s.time.running = false → s.at w = s) := by
  rw [State.at_eq]
  unfold TimeUnit.seenAt
  split
  next h => exact ⟨rfl, le_max_left .., fun off => by rw [off] at h; cases h⟩
  next h => exact ⟨rfl, le_refl _, fun _ => rfl⟩

theorem TimeUnit.clock_live (u : TimeUnit) (live : u.replay = false) : u.clock = u.now := if_neg (Bool.eq_false_iff.mp live)

theorem TimeUnit.setClock_live (u : TimeUnit) (n : Time) (live : u.replay = false) : u.setClock n = { u with now := n } := if_neg (Bool.eq_false_iff.mp live)

/-- Outside a replay a running counter takes an event's time if that is later. -/
theorem State.tick_time (t : Time) (live : s.time.replay = false) (runs : s.time.runs = true) : (s.tick t).time = { s.time with now := max s.time.now t } := by
  rw [State.tick, if_pos runs, s.time.clock_live live, s.time.setClock_live _ live]

theorem TimeUnit.setClock_keeps (u : TimeUnit) (n : Time) : (u.setClock n).runs = u.runs ∧ (u.setClock n).servo = u.servo ∧ (u.setClock n).freq = u.freq := by
  unfold TimeUnit.setClock
  split
  · exact ⟨rfl, rfl, rfl⟩
  · exact ⟨rfl, rfl, rfl⟩

/-- An event's time moves the counter alone. -/
theorem State.tick_keeps (t : Time) : (s.tick t).time.runs = s.time.runs ∧ (s.tick t).time.servo = s.time.servo ∧ (s.tick t).time.freq = s.time.freq := by
  unfold State.tick
  split
  · exact s.time.setClock_keeps _
  · exact ⟨rfl, rfl, rfl⟩

theorem State.tick_reg (t : Time) (x : Nat) : (s.tick t).reg x = s.reg x := by
  unfold State.tick
  split <;> rfl

/-- Outside a replay the counter that is started is station time. -/
theorem State.startTime_live (n : Time) (servo : Servo) (epoch : Nat) (live : s.time.replay = false) :
    s.startTime n servo epoch = { s with time := { s.time with now := n, servo := servo, epoch := epoch, goodSyncs := 0, running := true } } := by
  unfold State.startTime
  rw [s.time.setClock_live n live]
  dsimp only
  rw [if_neg (Bool.eq_false_iff.mp live)]

/-! ### Commands -/

/-- A configuration write that is taken stores the word without START, and sends a servo that runs back to ACQUIRING when a field changed. -/
theorem execTimeConfigChange_taken (value : Word) (ok : value.getLsbD 4 = false ∨ s.fuses.series ≠ 1) : ∃ u, exec (.timeConfigChange value) s = .next u ∧
    u.reg 0x4010 = value &&& 0x0FFFFFFE ∧ (∀ x, x ≠ 0x4010 → x ≠ 0x4014 → u.reg x = s.reg x) ∧
    u.time = if fld value 15 2 ≠ fld s.timeCtl 15 2 ∧ s.time.servo ≠ .stopped then { s.time with servo := .acquiring, goodSyncs := 0 } else s.time := by
  have taken : ¬ (bit value 4 = true ∧ s.fuses.series = 1) := fun h => ok.elim (fun off => absurd (h.1.symm.trans off) (by decide)) fun revB => revB h.2
  refine ⟨_, congrArg Host.Outcome.next (if_neg taken), ?_⟩
  dsimp only
  split
  next restart =>
    have flags : fld value 15 2 ≠ fld s.timeCtl 15 2 ∧ s.time.servo ≠ .stopped := ⟨of_decide_eq_true restart.1, restart.2⟩
    refine ⟨?_, fun x ctl sts => ?_, ?_⟩
    · rw [State.setServo_reg _ _ _ (by decide), State.reg_setReg_same]
    · rw [State.setServo_reg _ _ _ sts, State.reg_setReg_ne _ _ _ _ ctl]
    · rw [if_pos flags, State.setServo_time, State.setReg_time]
  next stays =>
    refine ⟨State.reg_setReg_same .., fun x ctl _ => State.reg_setReg_ne _ _ _ _ ctl, ?_⟩
    rw [if_neg fun h => stays ⟨decide_eq_true h.1, h.2⟩, State.setReg_time]

/-- The epoch of the first Sync: the one written, or the whole second of the master's time. -/
def State.syncEpoch (s : State) (ptp : Int) : Nat :=
  let set := pairVal (s.reg 0x4008) (s.reg 0x400C)
  if set = 0 then ptp.toNat / 1000000000 * 1000000000 else set

theorem State.sync_accepted (disciplined : (s.reg 0x4010).getLsbD 1 = false) (up : s.slaveUp = true) : ¬ (bit s.timeCtl 1 = true ∨ (!s.slaveUp) = true) := by
  rw [up, bit, State.timeCtl, disciplined]
  decide

/-- The first Sync: the epoch is set, and station time starts unless it lies ahead. -/
def State.firstSync (s : State) (ptp : Int) (epoch : Nat) : State :=
  let s := (s.setReg 0x4008 (loWord epoch)).setReg 0x400C (hiWord epoch)
  if ptp < (epoch : Int) then s
  else
    let s := s.startTime (ptp.toNat - epoch) .acquiring epoch
    { s with time := { s.time with lastSync := s.time.clock, freq := 0, offset := 0 } }

theorem State.firstSync_time (ptp : Int) (epoch : Nat) (live : s.time.replay = false) (reached : (epoch : Int) ≤ ptp) : (s.firstSync ptp epoch).time =
    { s.time with now := ptp.toNat - epoch, servo := .acquiring, epoch := epoch, goodSyncs := 0, running := true, lastSync := ptp.toNat - epoch, freq := 0, offset := 0 } := by
  have clock : TimeUnit.clock { s.time with now := ptp.toNat - epoch, servo := .acquiring, epoch := epoch, goodSyncs := 0, running := true } = ptp.toNat - epoch :=
    TimeUnit.clock_live _ live
  unfold State.firstSync
  have started := ((s.setReg 0x4008 (loWord epoch)).setReg 0x400C (hiWord epoch)).startTime_live (ptp.toNat - epoch) .acquiring epoch live
  dsimp only
  rw [if_neg (Int.not_lt.mpr reached), started]
  dsimp only [State.setReg_time]
  rw [clock]

theorem State.firstSync_reg (ptp : Int) (epoch x : Nat) (lo : x ≠ 0x4008) (hi : x ≠ 0x400C) : (s.firstSync ptp epoch).reg x = s.reg x := by
  have dated : ((s.setReg 0x4008 (loWord epoch)).setReg 0x400C (hiWord epoch)).reg x = s.reg x := by
    rw [State.reg_setReg_ne _ _ _ _ hi, State.reg_setReg_ne _ _ _ _ lo]
  unfold State.firstSync
  dsimp only
  split
  · exact dated
  · exact dated

/-- Before station time runs, an accepted Sync is the first one. -/
theorem execPtpSync_first (master : Int) (t : Time) (disciplined : (s.reg 0x4010).getLsbD 1 = false) (up : s.slaveUp = true) (held : s.time.runs = false) :
    exec (.ptpSync master t) s = .next (s.firstSync (master + s.time.pathDelay) (s.syncEpoch (master + s.time.pathDelay))) :=
  congrArg Host.Outcome.next ((if_neg (s.sync_accepted disciplined up)).trans (if_pos (by rw [held]; rfl)))

/-- A first Sync at or after the epoch starts station time there. -/
theorem execPtpSync_started (master : Int) (t : Time) (disciplined : (s.reg 0x4010).getLsbD 1 = false) (up : s.slaveUp = true) (live : s.time.replay = false)
    (held : s.time.runs = false) (reached : (s.syncEpoch (master + s.time.pathDelay) : Int) ≤ master + s.time.pathDelay) :
    ∃ u, exec (.ptpSync master t) s = .next u ∧ u.time.running = true ∧ u.time.servo = .acquiring ∧
      u.time.now = (master + s.time.pathDelay).toNat - s.syncEpoch (master + s.time.pathDelay) ∧ u.time.epoch = s.syncEpoch (master + s.time.pathDelay) ∧
      (∀ x, x ≠ 0x4008 → x ≠ 0x400C → u.reg x = s.reg x) ∧ u.kept = s.kept := by
  have ran := execPtpSync_first s master t disciplined up held
  refine ⟨_, ran, ?_⟩
  rw [s.firstSync_time _ _ live reached]
  exact ⟨rfl, rfl, rfl, rfl, fun x lo hi => s.firstSync_reg _ _ x lo hi, (execPtpSync_keeps master t s).next ran⟩

/-- While station time runs, a Sync is measured by the servo. -/
theorem execPtpSync_measures (master : Int) (t : Time) (disciplined : (s.reg 0x4010).getLsbD 1 = false) (up : s.slaveUp = true) (runs : s.time.runs = true) :
    exec (.ptpSync master t) s = .next ((s.tick t).servoSync (master + s.time.pathDelay - ((s.tick t).time.epoch : Int) - ((s.tick t).time.clock : Int))) :=
  congrArg Host.Outcome.next ((if_neg (s.sync_accepted disciplined up)).trans (if_neg (by rw [runs]; decide)))

/-- When Syncs stop, a servo that runs goes to HOLDOVER. -/
theorem execPtpSyncTimeout_holdover (t : Time) (disciplined : (s.reg 0x4010).getLsbD 1 = false) (runs : s.time.runs = true) (servo : s.time.servo ≠ .stopped) :
    ∃ u, exec (.ptpSyncTimeout t) s = .next u ∧ u.time.servo = .holdover ∧ u.time.freq = s.time.freq := by
  obtain ⟨runs_t, servo_t, freq_t⟩ := s.tick_keeps t
  have taken : ¬ (bit (s.tick t).timeCtl 1 = true ∨ (!(s.tick t).time.runs) = true ∨ (s.tick t).time.servo = .stopped) := by
    rw [bit, State.timeCtl, s.tick_reg, disciplined, runs_t, runs, servo_t]
    simpa using servo
  refine ⟨_, congrArg Host.Outcome.next (if_neg taken), ?_⟩
  rw [State.setServo_time]
  exact ⟨rfl, freq_t⟩

/-- A Sync that is measured moves the counter to its time, and sets the servo, the correction and the step. -/
theorem execPtpSync_measured (master : Int) (t : Time) (disciplined : (s.reg 0x4010).getLsbD 1 = false) (up : s.slaveUp = true) (live : s.time.replay = false) (runs : s.time.runs = true) :
    let offset := master + s.time.pathDelay - s.time.epoch - (max s.time.now t : Nat)
    ∃ u slew step, exec (.ptpSync master t) s = .next u ∧ u.time = { TimeUnit.measured { s.time with now := max s.time.now t } offset with slew := slew, step := step } ∧
      (100000 < offset → s.time.step = none → offset.toNat ≤ (s.reg 0x4020).toNat → ∃ r, step = some (offset.toNat, r, false)) ∧
      (offset ≤ 100000 → slew = offset ∧ step = s.time.step) := by
  intro offset
  have now := s.tick_time t live runs
  have seen : master + s.time.pathDelay - ((s.tick t).time.epoch : Int) - ((s.tick t).time.clock : Int) = offset := by
    rw [now, TimeUnit.clock_live { s.time with now := max s.time.now t } live]
  obtain ⟨slew, step, time, far, near⟩ := (s.tick t).servoSync_time offset
  rw [now] at time far near
  rw [s.tick_reg] at far
  exact ⟨_, slew, step, (execPtpSync_measures s master t disciplined up runs).trans (by rw [seen]), time, far, near⟩

end

/-- Settles O29: the counter, its start, and the servo's measurement of a Sync, command by command. -/
theorem timeAndServoResults : Obligations.TimeAndServoResults := by
  intro s t held free
  have runs (h : ¬ held) : s.time.runs = true := Bool.eq_true_of_not_eq_false h
  refine ⟨fun w => s.at_clock w, ?start, ?notStarted, ?refused, ?config, ?sync, ?ignored, ?holdover⟩
  case start =>
    intro stopped src live
    have waits : ¬ (s.time.runs = true ∨ (!bit s.timeCtl 1) = true) := by
      rw [stopped, bit, State.timeCtl, show (s.reg 0x4010).getLsbD 1 = true from src]
      decide
    exact congrArg Host.Outcome.next ((if_neg waits).trans (s.startTime_live _ _ _ live))
  case notStarted =>
    intro h
    refine congrArg Host.Outcome.next (if_pos (h.imp runs fun src => ?_))
    rw [bit, State.timeCtl, show (s.reg 0x4010).getLsbD 1 = false from src]
    rfl
  case refused => exact fun value bc revA => congrArg Host.Outcome.next (if_pos ⟨bc, revA⟩)
  case config =>
    intro value ok
    obtain ⟨u, ran, ctl, regs, time⟩ := execTimeConfigChange_taken s value ok
    rw [fld_eq, fld_eq] at time
    refine ⟨u, ran, ctl, regs, ?_, fun stopped => ?_, fun same => ?_, fun servo changed => ?_⟩
    · rw [time]
      split <;> rfl
    · rw [time, if_neg fun h => h.2 stopped]
    · rw [time, if_neg fun h => h.1 same]
    · rw [time, if_pos ⟨changed, servo⟩]
  case sync =>
    intro disciplined up live master
    refine ⟨fun stopped => ?_, fun running => ?_, _, congrArg Host.Outcome.next (if_neg (s.sync_accepted disciplined up)), rfl⟩
    · exact fun reached => execPtpSync_started s master t disciplined up live stopped reached
    · intro offset
      obtain ⟨u, slew, step, ran, time, far, near⟩ := execPtpSync_measured s master t disciplined up live (runs running)
      refine ⟨u, ran, ?_⟩
      rw [time]
      obtain ⟨low, high⟩ := s.time.freqAfter_bounds offset
      exact ⟨rfl, low, high, rfl, rfl, s.time.servoAfter_locked offset, s.time.servoAfter_lost offset, s.time.servoAfter_same offset, far, near⟩
  case ignored =>
    intro h master
    have shut : bit s.timeCtl 1 = true ∨ (!s.slaveUp) = true := h.imp id fun down => by rw [down]; rfl
    exact ⟨congrArg Host.Outcome.next (if_pos shut), congrArg Host.Outcome.next (if_pos shut)⟩
  case holdover =>
    intro disciplined running servo
    obtain ⟨u, ran, goes, freq⟩ := execPtpSyncTimeout_holdover s t disciplined (runs running) servo
    exact ⟨u, ran, goes, freq, (execPtpSyncTimeout_keeps t s).next ran⟩

end Sys2Proof.Machine
end

section
/-! SUPPORT. The reflex path and register operations at a chip (02 R55; 17 R460 to R463; 20 R549, R550): obligation O44. -/

namespace Sys2Proof.Machine

section
variable (s : State)

/-! ### The DFL ports -/

theorem State.port_setPort_same (p : Fin 4) (d : DflPort) : (s.setPort p d).port p = d := by
  simp [State.port, State.setPort]

theorem State.port_setPort_ne (p : Nat) (q : Fin 4) (d : DflPort) (h : q.val ≠ p) : (s.setPort p d).port q = s.port q := by
  simp [State.port, State.setPort, Ne.symm h]

@[simp] theorem State.at_port (t : Time) (q : Nat) : (s.at t).port q = s.port q := by rw [State.at_eq]; rfl
@[simp] theorem State.at_dflLive (t : Time) (q : Nat) : (s.at t).dflLive q = s.dflLive q := by rw [State.at_eq]; rfl
@[simp] theorem State.at_mesaLive (t : Time) (j : Nat) : (s.at t).mesaLive j = s.mesaLive j := by rw [State.at_eq]; rfl
@[simp] theorem State.at_presented (t : Time) (die : Nat) (src : ReflexSource) (falling : Bool) (st : Stamp) : (s.at t).presented die src falling st = s.presented die src falling st := by
  rw [State.at_eq]; rfl

theorem DflPort.queueFrame_length (d : DflPort) (f : DflFrame) : (d.queueFrame f).queue.length = d.queue.length + 1 := (insertBy_perm DflFrame.prio f d.queue).length_eq

/-- A record reaches no port. -/
theorem State.makeRecord_ports (die sev : Nat) (key : Option Key) (bytes : List Byte) : (s.makeRecord die sev key bytes).ports = s.ports := by
  have signal (u : State) (v : Nat) : (u.signal v).ports = u.ports := (congrArg State.ports (u.signal_recorded v).1 :)
  have sent (irq : Bool) : (s.recordSent die key bytes irq).ports = s.ports := rfl
  have stored (u : State) : (u.recordStored bytes).ports = u.ports := rfl
  rw [State.makeRecord_eq]
  dsimp only
  split_ifs <;> simp only [signal, stored, sent]

/-! ### Reads of the rules (R574, R575) -/

/-- No port and no word that the reflex path reads differs. -/
def State.Quiet (s u : State) : Prop := u.ports = s.ports ∧ u.reg 0x9018 = s.reg 0x9018

theorem State.Quiet.trans {s u w : State} (h : s.Quiet u) (h' : u.Quiet w) : s.Quiet w := ⟨h'.1.trans h.1, h'.2.trans h.2⟩

theorem State.faultSeen_quiet (sev : Nat) (known : sev < 4) : s.Quiet (s.faultSeen sev) := by
  unfold State.faultSeen
  split
  · exact ⟨rfl, rfl⟩
  · refine ⟨rfl, ?_⟩
    rw [State.faultFlag, State.countByte_reg_ne _ _ _ _ (by omega), State.setFlag_reg_ne _ _ _ _ (by decide)]

/-- A fault that does not call for SAFE (R585). -/
theorem State.fault_quiet (die : Nat) (key : Option Key) (f : FaultInfo) (mild : f.sev < 3) : s.Quiet (s.fault die key f) := by
  have made (l : Logs) (bytes : List Byte) : s.Quiet (State.makeRecord { s with logs := l } die f.sev key bytes) :=
    ⟨State.makeRecord_ports _ _ _ _ _, State.makeRecord_reg _ _ _ _ _ _ (by decide)⟩
  unfold State.fault
  dsimp only
  rw [if_neg (Nat.ne_of_lt mild)]
  exact (made _ _).trans (State.faultSeen_quiet _ _ (by omega))

theorem State.rwlError_quiet (bank a : Nat) (ue : Bool) : s.Quiet (s.rwlError bank a ue) := by
  cases ue with
  | true =>
    have poisoned : s.Quiet (s.poisonWord bank a) := by
      unfold State.poisonWord
      split <;> exact ⟨rfl, rfl⟩
    rw [State.rwlError_ue]
    exact poisoned.trans (State.fault_quiet _ _ _ _ (Nat.lt_succ_self 2))
  | false =>
    unfold State.rwlError State.faultThrottled
    dsimp only
    split
    · split
      · exact State.fault_quiet _ _ _ _ (Nat.lt_of_sub_eq_succ rfl)
      · exact State.faultSeen_quiet _ _ (by decide)
    next h => exact absurd rfl h

theorem State.rwlReads_quiet (bank : Nat) (reads : Nat → Bool) (hits : List EccHit) : s.Quiet (s.rwlReads bank reads hits) := by
  unfold State.rwlReads
  induction hits generalizing s with
  | nil => exact ⟨rfl, rfl⟩
  | cons e rest ih =>
    rw [List.foldl_cons]
    refine State.Quiet.trans ?_ (ih _)
    split
    · exact s.rwlError_quiet _ _ _
    · exact ⟨rfl, rfl⟩

/-- A rule with a word found poisoned reads as zero, so that it is not enabled (R575). -/
theorem State.rule_poisoned (die n k : Nat) (old : Bool) (hits : List EccHit) (inside : n < 64)
    (h : ∃ e ∈ hits, e.store = 6 ∧ e.ue = true ∧ ∃ k, k < 3 ∧ e.addr = ruleBase die n + 4 * k) :
    (s.rwlReads (s.bankOf die old) (rulesRead die) hits).entryWord die old (ruleBase die n) 3 k = 0 := by
  obtain ⟨e, mem, store, ue, i, word, addr⟩ := h
  have aligned : e.addr % 4 = 0 := by
    rw [addr, ruleBase, mesaBase]
    omega
  have read : rulesRead die e.addr = true := by
    rw [addr]
    unfold rulesRead ruleBase
    exact decide_eq_true (by omega)
  have bad := s.rwlReads_bad die old (rulesRead die) hits e.addr (.inr ⟨e, mem, store, ue, aligned, read, rfl⟩)
  unfold State.entryWord
  exact if_pos (List.any_eq_true.mpr ⟨i, List.mem_range.mpr word, by rwa [← addr]⟩)

theorem ruleFires_zero (src : ReflexSource) (falling : Bool) (levels : Nat) : ruleFires 0 src falling levels = false := by
  have disabled : bit (0 : Word) 0 = false := rfl
  unfold ruleFires
  simp only [disabled, Bool.false_and]

/-! ### Launches (R460, R462, R463) -/

/-- `u` is `s` after launches on these ports: one record each, one frame each on a port that sends, no register word touched. -/
structure State.Launched (s u : State) (on : List Nat) : Prop where
  reported : s.Reported u
  regs : u.regs = s.regs
  made : u.logs.made.length = s.logs.made.length + on.length
  up : ∀ q : Fin 4, (u.port q).up = (s.port q).up
  queue : ∀ q : Fin 4, (u.port q).queue.length = (s.port q).queue.length +
    if (s.port q).up = true ∧ s.dflSends q = true then (on.filter fun p => decide (p = q.val)).length else 0

theorem State.Launched.refl : s.Launched s [] where
  reported := .refl s
  regs := rfl
  made := rfl
  up _ := rfl
  queue _ := by simp

theorem State.dflSends_congr {s u : State} (h : s.Reported u) (hold : u.reg 0x9018 = s.reg 0x9018) (q : Nat) : u.dflSends q = s.dflSends q := by
  unfold State.dflSends State.dflLive State.replaying
  rw [hold, h.live, h.time]

theorem State.Launched.trans {s u w : State} {on on' : List Nat} (h : s.Launched u on) (h' : u.Launched w on') : s.Launched w (on ++ on') where
  reported := h.reported.trans h'.reported
  regs := h'.regs.trans h.regs
  made := by rw [h'.made, h.made, List.length_append, Nat.add_assoc]
  up q := (h'.up q).trans (h.up q)
  queue q := by
    rw [h'.queue, h.queue, h.up, State.dflSends_congr h.reported (congrArg (mget regReset · 0x9018) h.regs), List.filter_append, List.length_append]
    split <;> omega

/-- The frame of a launch, on a port that sends. -/
theorem State.frame_launched (p : Nat) (f : DflFrame) (u : State) (sent : u = if (s.port p).up ∧ s.dflSends p then s.setPort p ((s.port p).queueFrame f) else s) (q : Fin 4) :
    (u.port q).up = (s.port q).up ∧ (u.port q).queue.length = (s.port q).queue.length +
      if (s.port q).up = true ∧ s.dflSends q = true then ([p].filter fun p => decide (p = q.val)).length else 0 := by
  by_cases here : p = q.val
  · subst here
    by_cases sends : (s.port q).up = true ∧ s.dflSends q = true
    · rw [sent, if_pos sends, if_pos sends, State.port_setPort_same, DflPort.queueFrame_length]
      exact ⟨rfl, by simp⟩
    · rw [sent, if_neg sends, if_neg sends]
      exact ⟨rfl, rfl⟩
  · have other : u.port q = s.port q := by
      rw [sent]
      split
      · exact State.port_setPort_ne _ _ _ _ (Ne.symm here)
      · rfl
    simp [other, here]

theorem State.launch_launched (die rule : Nat) (old falling sentinel : Bool) (st : Stamp) (w1 w2 : Word) :
    s.Launched (s.launch die rule old falling sentinel st w1 w2) [fld w1 4 3] := by
  unfold State.launch
  extract_lets b p d sent
  have reported : s.Reported sent := .ite (s.reported_setPort _ _) (.refl s)
  have logs : sent.logs = s.logs := by
    unfold sent
    split <;> rfl
  have regs : sent.regs = s.regs := by
    unfold sent
    split <;> rfl
  have frame := s.frame_launched p _ sent rfl
  clear_value sent
  have port (bytes : List Byte) (q : Nat) : (sent.makeRecord die 0 none bytes).port q = sent.port q :=
    congrArg (fun v : Vector DflPort 4 => v.toList.getD q {}) (sent.makeRecord_ports die 0 none bytes)
  have recorded (bytes : List Byte) := sent.makeRecord_recorded die 0 none bytes (by decide)
  constructor
  · exact reported.trans (State.reported_makeRecord ..)
  · exact (recorded _).regs.trans regs
  · rw [(recorded _).2, logs, List.length_singleton]
  · exact fun q => (congrArg DflPort.up (port _ q)).trans (frame q).1
  · exact fun q => (congrArg (fun d : DflPort => d.queue.length) (port _ q)).trans (frame q).2

/-- A rule of a die fires for a source event, as the bank that the event selects has it. -/
def State.ruleFiring (s : State) (die : Nat) (old : Bool) (src : ReflexSource) (falling : Bool) (levels n : Nat) : Bool :=
  ruleFires (s.entryWord die old (ruleBase die n) 3 0) src falling levels

/-- The port that a rule's frame goes to. -/
def State.rulePort (s : State) (die : Nat) (old : Bool) (n : Nat) : Nat := fld (s.entryWord die old (ruleBase die n) 3 1) 4 3

/-- One rule's turn: it launches if it fires. -/
def State.ruleTurn (die : Nat) (old falling sentinel : Bool) (src : ReflexSource) (st : Stamp) (levels : Nat) (s : State) (n : Nat) : State :=
  if s.ruleFiring die old src falling levels n then
    s.launch die n old falling sentinel st (s.entryWord die old (ruleBase die n) 3 1) (s.entryWord die old (ruleBase die n) 3 2)
  else s

theorem State.Reported.entryWord {s u : State} (h : s.Reported u) (die : Nat) (old : Bool) (a n k : Nat) : u.entryWord die old a n k = s.entryWord die old a n k :=
  (congrArg (fun x : State => x.entryWord die old a n k) h :)

/-- Launches change no rule, so each rule fires as the first state has it. -/
theorem State.ruleTurns_launched (die : Nat) (old falling sentinel : Bool) (src : ReflexSource) (st : Stamp) (levels : Nat) (l : List Nat) :
    s.Launched (l.foldl (State.ruleTurn die old falling sentinel src st levels) s) ((l.filter (s.ruleFiring die old src falling levels)).map (s.rulePort die old)) := by
  induction l generalizing s with
  | nil => exact .refl s
  | cons n l ih =>
    rw [List.foldl_cons, State.ruleTurn]
    by_cases fires : s.ruleFiring die old src falling levels n = true
    · have first := s.launch_launched die n old falling sentinel st (s.entryWord die old (ruleBase die n) 3 1) (s.entryWord die old (ruleBase die n) 3 2)
      rw [if_pos fires, List.filter_cons_of_pos fires, List.map_cons]
      generalize s.launch die n old falling sentinel st _ _ = u at first
      have firing : u.ruleFiring die old src falling levels = s.ruleFiring die old src falling levels := funext fun n => by
        rw [State.ruleFiring, first.reported.entryWord]; rfl
      have port : u.rulePort die old = s.rulePort die old := funext fun n => by
        rw [State.rulePort, first.reported.entryWord]; rfl
      have rest := ih u
      rw [firing, port] at rest
      exact first.trans rest
    · rw [if_neg fires, List.filter_cons_of_neg fires]
      exact ih s

/-- The reflex logic gives each rule its turn, under the bank of the event's stamp. -/
theorem State.reflex_launched (die : Nat) (src : ReflexSource) (falling : Bool) (st : Stamp) (levels : Nat) :
    let old := decide (st ≠ 0) && s.usesOld (stampTime st)
    s.Launched (s.reflex die src falling st levels) (((List.range 64).filter (s.ruleFiring die old src falling levels)).map (s.rulePort die old)) :=
  s.ruleTurns_launched die _ falling _ src st levels _

/-! ### REFLEX_LAUNCH -/

/-- Taking a presented change touches Dunewatch alone. -/
theorem State.takeSentinel_frame (src : ReflexSource) (falling : Bool) (st : Stamp) : { s.takeSentinel src falling st with dw := s.dw } = s := by
  cases src <;> rfl

theorem State.takeSentinel_launched {u : State} {on : List Nat} (src : ReflexSource) (falling : Bool) (st : Stamp) (h : (s.takeSentinel src falling st).Launched u on) :
    u.regs = s.regs ∧ u.logs.made.length = s.logs.made.length + on.length ∧ (∀ q : Fin 4, (u.port q).queue.length = (s.port q).queue.length +
      if (s.port q).up = true ∧ s.dflSends q = true then (on.filter fun p => decide (p = q.val)).length else 0) ∧
    u.tiles = s.tiles ∧ u.jobs = s.jobs ∧ u.cycles = s.cycles ∧ u.resv = s.resv := by
  have frame := s.takeSentinel_frame src falling st
  have logs : (s.takeSentinel src falling st).logs = s.logs := (congrArg State.logs frame :)
  have port (q : Nat) : (s.takeSentinel src falling st).port q = s.port q := (congrArg (fun x : State => x.port q) frame :)
  have sends (q : Nat) : (s.takeSentinel src falling st).dflSends q = s.dflSends q := (congrArg (fun x : State => x.dflSends q) frame :)
  refine ⟨h.regs.trans (congrArg State.regs frame :), by rw [h.made, logs], fun q => by rw [h.queue, port, sends], ?_⟩
  exact ⟨h.reported.tiles.trans (congrArg State.tiles frame :), h.reported.jobs.trans (congrArg State.jobs frame :),
    h.reported.cycles.trans (congrArg State.cycles frame :), h.reported.resv.trans (congrArg State.resv frame :)⟩

/-- The state in which the reflex logic has read the rules of a die. -/
def State.rulesSeen (die : Nat) (st : Stamp) (hits : List EccHit) : State :=
  s.rwlReads (s.bankOf die (decide (st ≠ 0) && s.usesOld (stampTime st))) (rulesRead die) hits

/-- A source event that is due: every enabled rule of it launches. -/
theorem State.rulesSeen_reflex (die : Nat) (src : ReflexSource) (falling : Bool) (st : Stamp) (levels : Nat) (hits : List EccHit) :
    let old := decide (st ≠ 0) && s.usesOld (stampTime st)
    let read := s.rulesSeen die st hits
    (read.takeSentinel src falling st).Launched ((read.takeSentinel src falling st).reflex die src falling st levels)
      (((List.range 64).filter (read.ruleFiring die old src falling levels)).map (read.rulePort die old)) := by
  intro old read
  have launched := (read.takeSentinel src falling st).reflex_launched die src falling st levels
  have frame := read.takeSentinel_frame src falling st
  have bank : (read.takeSentinel src falling st).usesOld (stampTime st) = s.usesOld (stampTime st) :=
    (congrArg (fun x : State => x.usesOld (stampTime st)) frame :).trans (congrArg (fun x : State => x.usesOld (stampTime st)) (s.rwlReads_rwlRead _ _ _) :)
  have firing : (read.takeSentinel src falling st).ruleFiring die old src falling levels = read.ruleFiring die old src falling levels :=
    (congrArg (fun x : State => x.ruleFiring die old src falling levels) frame :)
  have port : (read.takeSentinel src falling st).rulePort die old = read.rulePort die old := (congrArg (fun x : State => x.rulePort die old) frame :)
  dsimp only at launched
  rw [bank] at launched
  rwa [← firing, ← port]

theorem execReflexLaunch_idle (die : Fin 2) (src : ReflexSource) (falling : Bool) (st : Stamp) (levels : Nat) (hits : List EccHit) (t : Time)
    (h : s.replaying = true ∨ s.mesaLive die = false ∨ s.presented die src falling st = false) :
    exec (.reflexLaunch die src falling st levels hits t) s = .next (s.at t) := by
  refine congrArg Host.Outcome.next (if_pos ?_)
  rw [s.at_replaying, s.at_mesaLive, s.at_presented, Bool.not_eq_true', Bool.not_eq_true']
  exact h

theorem execReflexLaunch_due (die : Fin 2) (src : ReflexSource) (falling : Bool) (st : Stamp) (levels : Nat) (hits : List EccHit) (t : Time)
    (live : s.replaying = false) (on : s.mesaLive die = true) (due : s.presented die src falling st = true) :
    exec (.reflexLaunch die src falling st levels hits t) s = .next ((((s.at t).rulesSeen die st hits).takeSentinel src falling st).reflex die src falling st levels) := by
  refine congrArg Host.Outcome.next (if_neg ?_)
  rw [s.at_replaying, s.at_mesaLive, s.at_presented, live, on, due]
  decide

/-! ### REFLEX_RULE_WRITE (R461) -/

theorem State.reported_absentAccess (g : Nat) : s.Reported (s.absentAccess g) := (congrArg (fun u : State => { u with ports := s.ports }) (s.absentAccess_frame g) :)

/-- Bit `b` of a flag word is set once its event has come. -/
theorem getLsbD_or_oneBit (w : Word) (b : Nat) (h : b < 32) : (w ||| oneBit b).getLsbD b = true := by
  rw [BitVec.getLsbD_or, oneBit, BitVec.getLsbD_ofNat, Nat.one_shiftLeft, Nat.testBit_two_pow_self, decide_eq_true h, Bool.true_and, Bool.or_true]

theorem State.setFlag_bit (a b : Nat) (h : b < 32) : ((s.setFlag a b).reg a).getLsbD b = true := by
  rw [State.setFlag, State.reg_setReg_same, getLsbD_or_oneBit _ _ h]

theorem leeDie_rule (die : Fin 2) (rule : Fin 64) (word : Fin 3) : leeDie (ruleBase die rule + 4 * word) = die := by
  unfold leeDie ruleBase mesaBase
  rw [if_neg (by omega)]
  omega

/-- The words of a rule once one of them has been written. -/
def State.ruleAfter (s : State) (die rule word : Nat) (value : Word) (i : Nat) : Word :=
  if i = word then value &&& (regInfo (ruleBase die rule + 4 * i)).rwl else s.leeWord (ruleBase die rule + 4 * i)

theorem State.ruleWrite_eq (die rule word : Nat) (value : Word) :
    let w := s.ruleAfter die rule word value
    let a := ruleBase die rule + 4 * word
    s.ruleWrite die rule word value =
      if bit (w 0) 0 ∧ !s.fuses.optA then (s.actFlag die 6).absentAccess (10 + die)
      else if bit (w 0) 0 ∧ ruleBad s die (w 0) (w 1) (w 2) then s.actFlag die 6
      else s.leeWrite a (regInfo a).rwl value := rfl

theorem ruleBad_iff (die : Fin 2) (w0 w1 w2 : Word) : ruleBad s die w0 w1 w2 = true ↔
    fld w1 4 3 / 2 ≠ die.val ∨ (w0.getLsbD 1 = true ∧ (die = 1 ∨ s.fuses.optD = false)) ∨ actionFits (fld w1 2 0) (fld w1 5 5) = false ∨
      (fld w1 2 0 = 3 ∧ (fld w2 23 0 < 1 ∨ 16000000 < fld w2 23 0)) := by
  have second : die.val = 1 ↔ die = 1 := (Fin.ext_iff (b := 1)).symm
  unfold ruleBad bit
  simp only [Bool.or_eq_true, Bool.and_eq_true, decide_eq_true_eq, Bool.not_eq_true', second, or_assoc]

/-- A rule that must not be enabled is not written: the write is flagged. -/
theorem State.ruleWrite_forbidden (die : Fin 2) (rule : Fin 64) (word : Fin 3) (value : Word) (enabled : (s.ruleAfter die rule word value 0).getLsbD 0 = true)
    (h : s.fuses.optA = false ∨ ruleBad s die (s.ruleAfter die rule word value 0) (s.ruleAfter die rule word value 1) (s.ruleAfter die rule word value 2) = true) :
    s.Reported (s.ruleWrite die rule word value) ∧ ((s.ruleWrite die rule word value).reg (mesaBase die + 0x40000)).getLsbD 6 = true := by
  have flagged : ((s.actFlag die 6).reg (mesaBase die + 0x40000)).getLsbD 6 = true := s.setFlag_bit _ _ (by decide)
  rw [State.ruleWrite_eq]
  by_cases optA : s.fuses.optA = false
  · rw [if_pos ⟨enabled, by rw [optA]; rfl⟩, State.absentAccess_reg, if_neg (by unfold mesaBase; omega), if_neg (by unfold mesaBase; omega)]
    exact ⟨(s.reported_actFlag _ _).trans (State.reported_absentAccess _ _), flagged⟩
  · rw [if_neg fun h => optA (by simpa using h.2), if_pos ⟨enabled, h.resolve_left optA⟩]
    exact ⟨s.reported_actFlag _ _, flagged⟩

/-- Any other write goes to lee, while no slip is prepared and lee is not busy. -/
theorem State.ruleWrite_allowed (die : Fin 2) (rule : Fin 64) (word : Fin 3) (value : Word)
    (h : (s.ruleAfter die rule word value 0).getLsbD 0 = true →
      s.fuses.optA = true ∧ ¬ ruleBad s die (s.ruleAfter die rule word value 0) (s.ruleAfter die rule word value 1) (s.ruleAfter die rule word value 2) = true)
    (idle : s.slip.st = .idle) (free : s.leeBusy die = false) :
    s.ruleWrite die rule word value = s.setLee (ruleBase die rule + 4 * word) (regInfo (ruleBase die rule + 4 * word)).rwl value := by
  rw [State.ruleWrite_eq, if_neg fun bad => absurd bad.2 (by rw [(h bad.1).1]; decide), if_neg fun bad => (h bad.1).2 bad.2]
  exact s.leeWrite_free _ _ _ (decide_eq_false (not_not.mpr idle)) (by rw [leeDie_rule]; exact free)

/-! ### Register operations of a port (R549, R550) -/

/-- A report or a change of a DFL port leaves the work of the module alone. -/
theorem State.at_reported {s u : State} {t : Time} (h : (s.at t).Reported u) : u.tiles = s.tiles ∧ u.jobs = s.jobs ∧ u.cycles = s.cycles ∧ u.resv = s.resv :=
  ⟨h.tiles.trans (s.at_tiles t), h.jobs.trans (s.at_jobs t), h.cycles.trans (s.at_cycles t), h.resv.trans (s.at_resv t)⟩

/-- The command and data registers of a port hold an operation. -/
def State.regSet (s : State) (p : Nat) (write : Bool) (off : Nat) (value : Word) : State :=
  (s.setReg (actRegBase p) (BitVec.ofNat 32 (2 * b2n write + off % 4096 * 2 ^ 16))).setReg (actRegBase p + 4) value

/-- A port with an operation under way, under its next TAG. -/
def DflPort.regStarted (d : DflPort) (write : Bool) (off : Nat) (value : Word) (now : Time) : DflPort :=
  { d with nextTag := (d.nextTag + 1) % 256, reg := some { write, off := off % 4096, value, tag := (d.nextTag + 1) % 256, started := now } }

theorem State.regSet_reg (p : Nat) (write : Bool) (off : Nat) (value : Word) (x : Nat) : (s.regSet p write off value).reg x =
    if x = actRegBase p + 4 then value else if x = actRegBase p then BitVec.ofNat 32 ((if write then 2 else 0) + off % 4096 * 65536) else s.reg x := by
  have command : 2 * b2n write + off % 4096 * 2 ^ 16 = (if write then 2 else 0) + off % 4096 * 65536 := by cases write <;> rfl
  rw [State.regSet, State.reg_setReg, State.reg_setReg, command]

theorem State.regSet_reported (p : Nat) (write : Bool) (off : Nat) (value : Word) : s.Reported (s.regSet p write off value) :=
  (s.reported_setReg _ _).trans (State.reported_setReg _ _ _)

theorem State.regSet_ports (p : Nat) (write : Bool) (off : Nat) (value : Word) : (s.regSet p write off value).ports = s.ports :=
  (State.setReg_ports _ _ _).trans (s.setReg_ports _ _)

theorem execActRegGo_eq (p : Fin 4) (write : Bool) (off : Nat) (value : Word) (t : Time) : exec (.actRegGo p write off value t) s = .next (
    let v := s.at t
    let w := v.regSet p write off value
    if !v.dflLive p then v.absentAccess (10 + p / 2)
    else if (v.port p).reg.isSome then v.setFlag (actRegBase p + 0xC) 2
    else if !(v.port p).up ∧ !w.replaying then w.setFlag (actRegBase p + 0xC) 2
    else
      let d := (v.port p).regStarted write off value w.time.now
      w.setPort p (if w.replaying then d
        else d.queueFrame { prio := 5, bytes := regBytes write (((v.port p).nextTag + 1) % 256) (off % 4096) (if write then value else 0) })) := rfl

theorem execActRegGo_absent (p : Fin 4) (write : Bool) (off : Nat) (value : Word) (t : Time) (dead : s.dflLive p = false) :
    exec (.actRegGo p write off value t) s = .next ((s.at t).absentAccess (10 + p / 2)) := by
  rw [execActRegGo_eq]
  dsimp only
  rw [if_pos (by rw [s.at_dflLive, dead]; rfl)]

theorem execActRegGo_busy (p : Fin 4) (write : Bool) (off : Nat) (value : Word) (t : Time) (live : s.dflLive p = true) (busy : (s.port p).reg ≠ none) :
    exec (.actRegGo p write off value t) s = .next ((s.at t).setFlag (actRegBase p + 0xC) 2) := by
  rw [execActRegGo_eq]
  dsimp only
  rw [if_neg (by rw [s.at_dflLive, live]; decide), if_pos (by rw [s.at_port]; exact Option.isSome_iff_ne_none.mpr busy)]

/-- A port that is down outside a replay takes no operation: it is flagged. -/
theorem execActRegGo_down (p : Fin 4) (write : Bool) (off : Nat) (value : Word) (t : Time) (live : s.dflLive p = true) (idle : (s.port p).reg = none)
    (down : (s.port p).up = false) (real : s.replaying = false) :
    exec (.actRegGo p write off value t) s = .next (((s.at t).regSet p write off value).setFlag (actRegBase p + 0xC) 2) := by
  have time : ((s.at t).regSet p write off value).replaying = false := (congrArg TimeUnit.replay (State.regSet_reported ..).time).trans ((s.at_replaying t).trans real)
  rw [execActRegGo_eq]
  dsimp only
  rw [if_neg (by rw [s.at_dflLive, live]; decide), if_neg (by rw [s.at_port, idle]; decide), if_pos (by rw [s.at_port, down, time]; decide)]

/-- What a port becomes that starts an operation: in replay no frame is queued. -/
def DflPort.regSent (d : DflPort) (replaying write : Bool) (off : Nat) (value : Word) (now : Time) : DflPort :=
  if replaying then d.regStarted write off value now
  else (d.regStarted write off value now).queueFrame { prio := 5, bytes := regBytes write ((d.nextTag + 1) % 256) (off % 4096) (if write then value else 0) }

theorem execActRegGo_starts (p : Fin 4) (write : Bool) (off : Nat) (value : Word) (t : Time) (live : s.dflLive p = true) (idle : (s.port p).reg = none)
    (up : (s.port p).up = true ∨ s.replaying = true) :
    exec (.actRegGo p write off value t) s =
      .next (((s.at t).regSet p write off value).setPort p ((s.port p).regSent s.replaying write off value (s.at t).time.now)) := by
  have time : ((s.at t).regSet p write off value).time = (s.at t).time := (State.regSet_reported ..).time
  have replay : ((s.at t).regSet p write off value).replaying = s.replaying := (congrArg TimeUnit.replay time).trans (s.at_replaying t)
  rw [execActRegGo_eq]
  dsimp only
  rw [if_neg (by rw [s.at_dflLive, live]; decide), if_neg (by rw [s.at_port, idle]; decide), if_neg, replay, s.at_port, time]
  · rfl
  · rw [s.at_port, replay]
    rcases up with up | up <;> simp [up]

theorem DflPort.regSent_reg (d : DflPort) (replaying write : Bool) (off : Nat) (value : Word) (now : Time) :
    (d.regSent replaying write off value now).reg = some { write, off := off % 4096, value, tag := (d.nextTag + 1) % 256, started := now } := by
  unfold DflPort.regSent
  split <;> rfl

theorem DflPort.regSent_queue (d : DflPort) (replaying write : Bool) (off : Nat) (value : Word) (now : Time) :
    (d.regSent replaying write off value now).queue.length = d.queue.length + if replaying then 0 else 1 := by
  unfold DflPort.regSent
  split
  · rfl
  · exact DflPort.queueFrame_length _ _

/-! ### REG_DATA_RECEIVE -/

/-- A chip's answer to the power-down sequence is noted (R606). -/
def State.limpNoted (s : State) (p tag : Nat) : State :=
  if s.unit.limpTags.contains (p, tag) then { s with unit := { s.unit with limpAnswered := s.unit.limpAnswered ||| 2 ^ p } } else s

theorem State.limpNoted_frame (p tag : Nat) : { s.limpNoted p tag with unit := s.unit } = s := by
  unfold State.limpNoted
  split <;> rfl

/-- An operation ends with its data. -/
def State.regEnded (s : State) (p result : Nat) (value : Word) (d : DflPort) : State :=
  let u := ((s.setPort p { d with reg := none, regResult := some (result, value) }).setReg (actRegBase p + 8) value).setFlag (actRegBase p + 0xC) 1
  if result = 0 then u else u.setFlag (actRegBase p + 0xC) 2

/-- The state in which a port has received a register frame. -/
def State.regHeard (s : State) (p : Fin 4) (tag : Nat) (t : Time) : State := ((s.at t).validFrame p).limpNoted p tag

/-- The port that has received a valid frame. -/
def State.portHeard (s : State) (p : Fin 4) (t : Time) : DflPort := { s.port p with lastValid := (s.at t).time.now, discards := 0 }

theorem State.validFrame_port (p : Fin 4) (t : Time) : ((s.at t).validFrame p).port p = s.portHeard p t := by
  rw [State.validFrame, State.port_setPort_same, s.at_port]
  rfl

theorem execRegDataReceive_absent (p : Fin 4) (tag result off : Nat) (value : Word) (t : Time) (dead : s.dflLive p = false) :
    exec (.regDataReceive p tag result off value t) s = .next (s.at t) :=
  congrArg Host.Outcome.next (if_pos (by rw [s.at_dflLive, dead]; rfl))

theorem execRegDataReceive_idle (p : Fin 4) (tag result off : Nat) (value : Word) (t : Time) (live : s.dflLive p = true) (idle : (s.port p).reg = none) :
    exec (.regDataReceive p tag result off value t) s = .next (s.regHeard p tag t) := by
  have heard : (((s.at t).validFrame p).port p).reg = none := (congrArg DflPort.reg (s.validFrame_port p t)).trans idle
  show execRegDataReceive p tag result off value t s = _
  unfold execRegDataReceive
  dsimp only
  rw [if_neg (by rw [s.at_dflLive, live]; decide), heard]
  rfl

theorem execRegDataReceive_other (p : Fin 4) (tag result off : Nat) (value : Word) (t : Time) (x : RegOp) (live : s.dflLive p = true) (busy : (s.port p).reg = some x)
    (other : x.tag ≠ tag ∨ x.off ≠ off) : exec (.regDataReceive p tag result off value t) s = .next (s.regHeard p tag t) := by
  have heard : (((s.at t).validFrame p).port p).reg = some x := (congrArg DflPort.reg (s.validFrame_port p t)).trans busy
  show execRegDataReceive p tag result off value t s = _
  unfold execRegDataReceive
  dsimp only
  rw [if_neg (by rw [s.at_dflLive, live]; decide), heard]
  dsimp only
  rw [if_pos other]
  rfl

theorem execRegDataReceive_ends (p : Fin 4) (tag result off : Nat) (value : Word) (t : Time) (x : RegOp) (live : s.dflLive p = true) (busy : (s.port p).reg = some x)
    (same : x.tag = tag ∧ x.off = off) :
    exec (.regDataReceive p tag result off value t) s = .next ((s.regHeard p tag t).regEnded p result value (s.portHeard p t)) := by
  have heard : (((s.at t).validFrame p).port p).reg = some x := (congrArg DflPort.reg (s.validFrame_port p t)).trans busy
  show execRegDataReceive p tag result off value t s = _
  unfold execRegDataReceive
  dsimp only
  rw [if_neg (by rw [s.at_dflLive, live]; decide), heard]
  dsimp only
  rw [if_neg (by rw [same.1, same.2]; simp), s.validFrame_port]
  rfl

/-- A register frame that is heard changes its port and what the power-down sequence notes. -/
theorem State.regHeard_frame (p : Fin 4) (tag : Nat) (t : Time) : { s.regHeard p tag t with ports := (s.at t).ports, unit := (s.at t).unit } = s.at t :=
  (congrArg (fun u : State => { u with ports := (s.at t).ports }) (State.limpNoted_frame _ _ _) :)

theorem State.regHeard_port (p : Fin 4) (tag : Nat) (t : Time) : (s.regHeard p tag t).port p = s.portHeard p t :=
  (congrArg (fun u : State => u.port p) (State.limpNoted_frame _ _ _) :).trans (s.validFrame_port p t)

theorem State.regHeard_port_ne (p q : Fin 4) (tag : Nat) (t : Time) (h : q ≠ p) : (s.regHeard p tag t).port q = s.port q := by
  refine (congrArg (fun u : State => u.port q) (State.limpNoted_frame _ _ _) :).trans ?_
  rw [State.validFrame, State.port_setPort_ne _ _ _ _ (Fin.val_ne_of_ne h), s.at_port]

/-- The end of an operation touches its port and its port's registers. -/
theorem State.regEnded_reported (p result : Nat) (value : Word) (d : DflPort) : s.Reported (s.regEnded p result value d) := by
  have ended := ((s.reported_setPort p { d with reg := none, regResult := some (result, value) }).trans (State.reported_setReg _ (actRegBase p + 8) value)).trans
    (State.reported_setFlag _ (actRegBase p + 0xC) 1)
  exact .ite ended (ended.trans (State.reported_setFlag _ _ _))

theorem State.setPort_word (p : Nat) (d : DflPort) (x : Nat) : (s.setPort p d).reg x = s.reg x := rfl

theorem State.setFlag_port (a b q : Nat) : (s.setFlag a b).port q = s.port q := congrArg (fun v : Vector DflPort 4 => v.toList.getD q {}) (s.setReg_ports _ _)

theorem State.regEnded_port (p : Nat) (q : Fin 4) (result : Nat) (value : Word) (d : DflPort) :
    (s.regEnded p result value d).port q = (s.setPort p { d with reg := none, regResult := some (result, value) }).port q := by
  unfold State.regEnded
  generalize s.setPort p { d with reg := none, regResult := some (result, value) } = u
  have ended : ((u.setReg (actRegBase p + 8) value).setFlag (actRegBase p + 0xC) 1).port q = u.port q :=
    (State.setFlag_port _ _ _ _).trans (congrArg (fun v : Vector DflPort 4 => v.toList.getD q {}) (u.setReg_ports _ _))
  dsimp only
  split
  · exact ended
  · exact (State.setFlag_port _ _ _ _).trans ended

theorem State.regEnded_reg (p result : Nat) (value : Word) (d : DflPort) :
    (s.regEnded p result value d).reg (actRegBase p + 8) = value ∧ ((s.regEnded p result value d).reg (actRegBase p + 0xC)).getLsbD 1 = true ∧
      (result ≠ 0 → ((s.regEnded p result value d).reg (actRegBase p + 0xC)).getLsbD 2 = true) := by
  unfold State.regEnded
  generalize actRegBase p = r
  extract_lets u
  have data : u.reg (r + 8) = value := by
    rw [State.setFlag_reg_ne _ _ _ _ (by omega), State.reg_setReg_same]
  have done : (u.reg (r + 0xC)).getLsbD 1 = true := State.setFlag_bit _ _ _ (by decide)
  clear_value u
  split
  next zero => exact ⟨data, done, fun h => absurd zero h⟩
  next error =>
    refine ⟨by rw [State.setFlag_reg_ne _ _ _ _ (by omega), data], ?_, fun _ => State.setFlag_bit _ _ _ (by decide)⟩
    rw [State.setFlag, State.reg_setReg_same, BitVec.getLsbD_or, done, Bool.true_or]

/-! ### ACT_REG_TIMEOUT -/

/-- The port once its operation has gone out a second time. -/
def DflPort.regAgain (d : DflPort) (silent : Bool) (r : RegOp) (now : Time) : DflPort :=
  let d := { d with reg := some { r with again := true, started := now } }
  if silent then d else d.queueFrame { prio := 5, bytes := regBytes r.write r.tag r.off (if r.write then r.value else 0) }

theorem execActRegTimeout_idle (p : Fin 4) (t : Time) (idle : (s.port p).reg = none) : exec (.actRegTimeout p t) s = .next (s.at t) := by
  show execActRegTimeout p t s = _
  unfold execActRegTimeout
  dsimp only
  rw [s.at_port, idle]

theorem execActRegTimeout_early (p : Fin 4) (t : Time) (x : RegOp) (busy : (s.port p).reg = some x) (early : (s.at t).time.now < x.started + 10000) :
    exec (.actRegTimeout p t) s = .next (s.at t) := by
  show execActRegTimeout p t s = _
  unfold execActRegTimeout
  dsimp only
  rw [s.at_port, busy]
  dsimp only
  rw [if_pos early]

theorem execActRegTimeout_ends (p : Fin 4) (t : Time) (x : RegOp) (busy : (s.port p).reg = some x) (due : x.started + 10000 ≤ (s.at t).time.now) (again : x.again = true) :
    exec (.actRegTimeout p t) s = .next (((s.at t).setPort p { s.port p with reg := none }).setFlag (actRegBase p + 0xC) 3) := by
  show execActRegTimeout p t s = _
  unfold execActRegTimeout
  dsimp only
  rw [s.at_port, busy]
  dsimp only
  rw [if_neg (Nat.not_lt.mpr due), if_pos again]

theorem execActRegTimeout_again (p : Fin 4) (t : Time) (x : RegOp) (busy : (s.port p).reg = some x) (due : x.started + 10000 ≤ (s.at t).time.now) (first : x.again = false) :
    exec (.actRegTimeout p t) s = .next ((s.at t).setPort p ((s.port p).regAgain (s.replaying || !(s.port p).up) x (s.at t).time.now)) := by
  show execActRegTimeout p t s = _
  unfold execActRegTimeout
  dsimp only
  rw [s.at_port, busy]
  dsimp only
  rw [if_neg (Nat.not_lt.mpr due), if_neg (by rw [first]; decide), s.at_replaying]
  simp only [DflPort.regAgain, Bool.or_eq_true]

theorem DflPort.regAgain_reg (d : DflPort) (silent : Bool) (r : RegOp) (now : Time) : (d.regAgain silent r now).reg = some { r with again := true, started := now } := by
  unfold DflPort.regAgain
  dsimp only
  split <;> rfl

theorem DflPort.regAgain_queue (d : DflPort) (silent : Bool) (r : RegOp) (now : Time) :
    (d.regAgain silent r now).queue.length = d.queue.length + if silent then 0 else 1 := by
  unfold DflPort.regAgain
  dsimp only
  split
  · rfl
  · exact DflPort.queueFrame_length _ _

/-! ### What the obligation asks of each command -/

theorem State.setLee_frame (a : Nat) (mask v : Word) : { s.setLee a mask v with lee := s.lee, leeBad := s.leeBad } = s := rfl

/-- The reports of one command leave the work of the module alone. -/
theorem State.Reported.tame {s u : State} (h : s.Reported u) : u.tiles = s.tiles ∧ u.jobs = s.jobs ∧ u.cycles = s.cycles ∧ u.resv = s.resv :=
  ⟨h.tiles, h.jobs, h.cycles, h.resv⟩

/-- Reading the rules changes no port, and not whether a port sends. -/
theorem State.rulesSeen_ports (die : Nat) (st : Stamp) (hits : List EccHit) (q : Nat) :
    (s.rulesSeen die st hits).port q = s.port q ∧ (s.rulesSeen die st hits).dflSends q = s.dflSends q := by
  obtain ⟨ports, hold⟩ := s.rwlReads_quiet (s.bankOf die (decide (st ≠ 0) && s.usesOld (stampTime st))) (rulesRead die) hits
  have read := s.rwlReads_rwlRead (s.bankOf die (decide (st ≠ 0) && s.usesOld (stampTime st))) (rulesRead die) hits
  have live : (s.rulesSeen die st hits).live = s.live := (congrArg State.live read :)
  have time : (s.rulesSeen die st hits).time = s.time := (congrArg State.time read :)
  refine ⟨congrArg (fun v : Vector DflPort 4 => v.toList.getD q {}) ports, ?_⟩
  unfold State.dflSends State.dflLive State.replaying
  rw [live, time]
  exact congrArg (fun w : Word => decide (q < 4) && bit s.live (14 + q) && !bit w 0 && s.time.running && !s.time.replay) hold

/-- A source event that is due: its launches, as the rules that were read have them. -/
theorem execReflexLaunch_launches (die : Fin 2) (src : ReflexSource) (falling : Bool) (st : Stamp) (levels : Nat) (hits : List EccHit) (t : Time)
    (live : s.replaying = false) (on : s.mesaLive die = true) (due : s.presented die src falling st = true) :
    let old := decide (st ≠ 0) && s.usesOld (stampTime st)
    let read := (s.at t).rwlReads (s.bankOf die old) (rulesRead die) hits
    let firing := (List.range 64).filter (read.ruleFiring die old src falling levels)
    ∃ u, exec (.reflexLaunch die src falling st levels hits t) s = .next u ∧ u.regs = read.regs ∧ u.logs.made.length = read.logs.made.length + firing.length ∧
      (∀ q : Fin 4, (u.port q).queue.length = (s.port q).queue.length +
        if (s.port q).up = true ∧ (s.at t).dflSends q = true then (firing.filter fun n => decide (read.rulePort die old n = q.val)).length else 0) ∧
      (u.tiles = s.tiles ∧ u.jobs = s.jobs ∧ u.cycles = s.cycles ∧ u.resv = s.resv) := by
  intro old read firing
  have seen : (s.at t).rulesSeen die st hits = read := by rw [State.rulesSeen, s.at_usesOld, s.at_bankOf]
  have launched := (s.at t).rulesSeen_reflex die src falling st levels hits
  dsimp only at launched
  rw [seen, s.at_usesOld] at launched
  obtain ⟨regs, made, queue, tiles, jobs, cycles, resv⟩ := State.takeSentinel_launched _ _ _ _ launched
  have frame : (s.at t).RwlRead read := State.rwlReads_rwlRead ..
  refine ⟨_, (execReflexLaunch_due s die src falling st levels hits t live on due).trans (by rw [seen]), regs, ?_, fun q => ?_, ?_⟩
  · rw [made, List.length_map]
  · obtain ⟨port, sends⟩ := (s.at t).rulesSeen_ports die st hits q
    rw [seen] at port sends
    rw [queue, port, sends, s.at_port, List.filter_map, List.length_map]
    rfl
  · exact ⟨tiles.trans ((congrArg State.tiles frame :).trans (s.at_tiles t)), jobs.trans ((congrArg State.jobs frame :).trans (s.at_jobs t)),
      cycles.trans ((congrArg State.cycles frame :).trans (s.at_cycles t)), resv.trans ((congrArg State.resv frame :).trans (s.at_resv t))⟩

/-- An operation that is taken. -/
theorem execActRegGo_taken (p : Fin 4) (write : Bool) (off : Nat) (value : Word) (t : Time) (live : s.dflLive p = true) (idle : (s.port p).reg = none) :
    ∃ u, exec (.actRegGo p write off value t) s = .next u ∧ u.reg (actRegBase p + 4) = value ∧
      u.reg (actRegBase p) = BitVec.ofNat 32 ((if write then 2 else 0) + off % 4096 * 65536) ∧ (s.at t).Reported u ∧ (∀ q : Fin 4, q ≠ p → u.port q = s.port q) ∧
      ((s.port p).up = false → s.replaying = false → (u.reg (actRegBase p + 0xC)).getLsbD 2 = true ∧ u.port p = s.port p) ∧
      ((s.port p).up = true ∨ s.replaying = true →
        (u.port p).reg = some { write, off := off % 4096, value, tag := ((s.port p).nextTag + 1) % 256, started := (s.at t).time.now } ∧
        (u.port p).queue.length = (s.port p).queue.length + if s.replaying then 0 else 1) := by
  have set := (s.at t).regSet_reported p write off value
  have port (q : Nat) : ((s.at t).regSet p write off value).port q = s.port q :=
    (congrArg (fun v : Vector DflPort 4 => v.toList.getD q {}) (State.regSet_ports _ _ _ _ _)).trans (s.at_port t q)
  have data : ((s.at t).regSet p write off value).reg (actRegBase p + 4) = value := by rw [State.regSet_reg, if_pos rfl]
  have command : ((s.at t).regSet p write off value).reg (actRegBase p) = BitVec.ofNat 32 ((if write then 2 else 0) + off % 4096 * 65536) := by
    rw [State.regSet_reg, if_neg (by omega), if_pos rfl]
  by_cases up : (s.port p).up = true ∨ s.replaying = true
  · refine ⟨_, execActRegGo_starts s p write off value t live idle up, (State.setPort_word ..).trans data, (State.setPort_word ..).trans command, set.trans (State.reported_setPort _ _ _), fun q other => ?_, fun down real => ?_, fun _ => ?_⟩
    · rw [State.port_setPort_ne _ _ _ _ (Fin.val_ne_of_ne other), port]
    · exact absurd up (by simp [down, real])
    · rw [State.port_setPort_same]
      exact ⟨DflPort.regSent_reg .., DflPort.regSent_queue ..⟩
  · obtain ⟨down, real⟩ := not_or.mp up
    refine ⟨_, execActRegGo_down s p write off value t live idle (Bool.eq_false_iff.mpr down) (Bool.eq_false_iff.mpr real), ?_, ?_,
      set.trans (State.reported_setFlag _ _ _), fun q _ => (State.setFlag_port _ _ _ _).trans (port q), fun _ _ => ?_, fun h => absurd h up⟩
    · rw [State.setFlag_reg_ne _ _ _ _ (by omega), data]
    · rw [State.setFlag_reg_ne _ _ _ _ (by omega), command]
    · exact ⟨State.setFlag_bit _ _ _ (by decide), (State.setFlag_port _ _ _ _).trans (port p)⟩

/-- A register frame that is heard: the port is fresh, and the operation with its TAG and address ends. -/
theorem execRegDataReceive_heard (p : Fin 4) (tag result off : Nat) (value : Word) (t : Time) (live : s.dflLive p = true) :
    ∃ u, exec (.regDataReceive p tag result off value t) s = .next u ∧ (u.port p).lastValid = (s.at t).time.now ∧ (u.port p).discards = 0 ∧
      (u.tiles = s.tiles ∧ u.jobs = s.jobs ∧ u.cycles = s.cycles ∧ u.resv = s.resv) ∧ (∀ q : Fin 4, q ≠ p → u.port q = s.port q) ∧
      (∀ x, (s.port p).reg = some x → x.tag = tag → x.off = off → (u.port p).reg = none ∧ (u.port p).regResult = some (result, value) ∧
        u.reg (actRegBase p + 8) = value ∧ (u.reg (actRegBase p + 0xC)).getLsbD 1 = true ∧ (result ≠ 0 → (u.reg (actRegBase p + 0xC)).getLsbD 2 = true)) ∧
      (∀ x, (s.port p).reg = some x → x.tag ≠ tag ∨ x.off ≠ off → (u.port p).reg = some x ∧ u.regs = s.regs) := by
  have frame := s.regHeard_frame p tag t
  have regs : (s.regHeard p tag t).regs = s.regs := (congrArg State.regs frame :).trans (s.at_regs t)
  have work : (s.regHeard p tag t).tiles = s.tiles ∧ (s.regHeard p tag t).jobs = s.jobs ∧ (s.regHeard p tag t).cycles = s.cycles ∧ (s.regHeard p tag t).resv = s.resv :=
    ⟨(congrArg State.tiles frame :).trans (s.at_tiles t), (congrArg State.jobs frame :).trans (s.at_jobs t),
      (congrArg State.cycles frame :).trans (s.at_cycles t), (congrArg State.resv frame :).trans (s.at_resv t)⟩
  have other (q : Fin 4) (h : q ≠ p) := s.regHeard_port_ne p q tag t h
  have here := s.regHeard_port p tag t
  cases busy : (s.port p).reg with
  | none =>
    refine ⟨_, execRegDataReceive_idle s p tag result off value t live busy, ?_, ?_, work, other, nofun, nofun⟩
    · rw [here]; rfl
    · rw [here]; rfl
  | some x =>
    by_cases same : x.tag = tag ∧ x.off = off
    · have ended := (s.regHeard p tag t).regEnded_reported p result value (s.portHeard p t)
      have port (q : Fin 4) := (s.regHeard p tag t).regEnded_port p q result value (s.portHeard p t)
      have words := (s.regHeard p tag t).regEnded_reg p result value (s.portHeard p t)
      refine ⟨_, execRegDataReceive_ends s p tag result off value t x live busy same, ?_, ?_, ?_, fun q h => ?_, fun y _ _ _ => ?_, fun y found differs => ?_⟩
      · rw [port, State.port_setPort_same]; rfl
      · rw [port, State.port_setPort_same]; rfl
      · obtain ⟨tiles, jobs, cycles, resv⟩ := work
        exact ⟨ended.tiles.trans tiles, ended.jobs.trans jobs, ended.cycles.trans cycles, ended.resv.trans resv⟩
      · rw [port, State.port_setPort_ne _ _ _ _ (Fin.val_ne_of_ne h), other q h]
      · rw [port, State.port_setPort_same]
        exact ⟨rfl, rfl, words⟩
      · cases found
        exact absurd differs (by simp [same])
    · have differs : x.tag ≠ tag ∨ x.off ≠ off := not_and_or.mp same
      refine ⟨_, execRegDataReceive_other s p tag result off value t x live busy differs, ?_, ?_, work, other, fun y found tag off => ?_, fun y found _ => ?_⟩
      · rw [here]; rfl
      · rw [here]; rfl
      · cases found
        exact absurd ⟨tag, off⟩ same
      · cases found
        exact ⟨by rw [here]; exact busy, regs⟩

end

/-- Settles O44: rule writes, launches, and the operations of a port's register window, command by command. -/
theorem reflexAndChipRegisterResults : Obligations.ReflexAndChipRegisterResults := by
  intro s die rule word value src falling write st levels tag result off hits p t v d a w forbidden old read firing r tame
  have bad : ruleBad s die (w 0) (w 1) (w 2) = true ↔ forbidden := ruleBad_iff ..
  refine ⟨?ruleAbsent, ?ruleForbidden, ?ruleAllowed, ?launchIdle, ?launch, ?portAbsent, ?go, ?data, ?timeoutIdle, ?timeout⟩
  case ruleAbsent => exact fun dead => congrArg Host.Outcome.next (if_neg (by rw [dead]; decide))
  case ruleForbidden =>
    intro on enabled h
    have ran : exec (.reflexRuleWrite die rule word value) s = .next (s.ruleWrite die rule word value) := congrArg Host.Outcome.next (if_pos on)
    obtain ⟨reported, flag⟩ := s.ruleWrite_forbidden die rule word value enabled (h.imp_right bad.mpr)
    obtain ⟨tiles, jobs, cycles, resv⟩ := reported.tame
    exact ⟨_, ran, (congrArg State.lee reported :), reported.crest, flag, tiles, jobs, cycles, resv, (execReflexRuleWrite_keeps die rule word value s).next ran⟩
  case ruleAllowed =>
    intro on h idle free
    have written := s.ruleWrite_allowed die rule word value (fun enabled => (h enabled).imp_right fun no yes => no (bad.mp yes)) idle free
    refine ⟨_, (congrArg Host.Outcome.next (if_pos on) :).trans (congrArg Host.Outcome.next written), ?_, fun n other => ?_, s.setLee_frame ..⟩
    · rw [State.setLee_leeWord, if_pos rfl]
    · rw [State.setLee_leeWord, if_neg other]
  case launchIdle => exact fun h => execReflexLaunch_idle s die src falling st levels hits t h
  case launch =>
    intro live on due
    obtain ⟨u, ran, regs, made, queue, tiles, jobs, cycles, resv⟩ := execReflexLaunch_launches s die src falling st levels hits t live on due
    refine ⟨u, ran, made, fun none => by unfold read; rw [none]; rfl, fun n inside found fires => ?_, queue,
      ⟨tiles, jobs, cycles, resv, (execReflexLaunch_keeps die src falling st levels hits t s).next ran⟩, regs⟩
    have zero : read.entryWord die old (ruleBase die n) 3 0 = 0 := by
      have poisoned := v.rule_poisoned die n 0 old hits inside found
      rwa [s.at_bankOf] at poisoned
    have fired := (List.mem_filter.mp fires).2
    rw [zero, ruleFires_zero] at fired
    cases fired
  case portAbsent => exact fun dead => ⟨execActRegGo_absent s p write off value t dead, execRegDataReceive_absent s p tag result off value t dead⟩
  case go =>
    intro live
    refine ⟨fun busy => execActRegGo_busy s p write off value t live busy, fun idle => ?_⟩
    obtain ⟨u, ran, data, command, reported, others, down, starts⟩ := execActRegGo_taken s p write off value t live idle
    obtain ⟨tiles, jobs, cycles, resv⟩ := State.at_reported reported
    exact ⟨u, ran, data, command, ⟨tiles, jobs, cycles, resv, (execActRegGo_keeps p write off value t s).next ran⟩, others, down, starts⟩
  case data =>
    intro live
    obtain ⟨u, ran, valid, discards, ⟨tiles, jobs, cycles, resv⟩, others, ends, stays⟩ := execRegDataReceive_heard s p tag result off value t live
    exact ⟨u, ran, valid, discards, ⟨tiles, jobs, cycles, resv, (execRegDataReceive_keeps p tag result off value t s).next ran⟩, others, ends, stays⟩
  case timeoutIdle => exact fun idle => execActRegTimeout_idle s p t idle
  case timeout =>
    intro x busy
    refine ⟨fun early => execActRegTimeout_early s p t x busy early, fun due again => ?_, fun due first => ?_⟩
    · have ran := execActRegTimeout_ends s p t x busy due again
      obtain ⟨tiles, jobs, cycles, resv⟩ := State.at_reported ((State.reported_setPort (s.at t) p { s.port p with reg := none }).trans (State.reported_setFlag _ (actRegBase p + 0xC) 3))
      refine ⟨_, ran, ?_, State.setFlag_bit _ _ _ (by decide), tiles, jobs, cycles, resv, (execActRegTimeout_keeps p t s).next ran⟩
      rw [State.setFlag_port, State.port_setPort_same]
    · have ran := execActRegTimeout_again s p t x busy due first
      obtain ⟨tiles, jobs, cycles, resv⟩ := State.at_reported (State.reported_setPort (s.at t) p ((s.port p).regAgain (s.replaying || !(s.port p).up) x (s.at t).time.now))
      refine ⟨_, ran, ?_, s.at_regs t, ⟨tiles, jobs, cycles, resv, (execActRegTimeout_keeps p t s).next ran⟩, ?_⟩
      · rw [State.port_setPort_same, DflPort.regAgain_reg]
      · rw [State.port_setPort_same, DflPort.regAgain_queue]
        cases s.replaying <;> cases (s.port p).up <;> rfl

end Sys2Proof.Machine
end

section
/-! SUPPORT. Every command has a next state (04 R117; 21 R586): obligation O56. -/

namespace Sys2Proof.Machine

/-- No arm of the dispatch answers a fault or a refusal. -/
theorem exec_completes (c : Instr) (s : State) : ∃ u, exec c s = .next u := by
  cases c
  all_goals exact ⟨_, rfl⟩

/-- Settles O56: the next state of a command leads on from the state before, and so keeps its queue. -/
theorem everyCommandCompletes : Obligations.EveryCommandCompletes := by
  intro c s
  obtain ⟨u, ran⟩ := exec_completes c s
  exact ⟨u, ran, (exec_leads c s u ran).pending⟩

end Sys2Proof.Machine
end

section
/-! SUPPORT. The vector unit (03 R79; 05 R141; 09 R240): obligation O7. -/

namespace Sys2Proof.Machine

/-! ### The issue of a lane operation -/

section
variable (s : State) (t : Fin 512) (g : Issue) (c : Core)

/-- A lane operation that issues with room in the vector queue takes a place there and completes (R213, R216). -/
theorem State.issueVec_runs (f : Core → Core) (issues : s.Issues t g c) (more : (s.fetched t g c).More t c)
    (room : (s.fetched t g c).queueFull t 1 = false) :
    s.issueVec t g f = ((s.fetched t g c).fly t 1 [] []).setCore t (c.retire (f c)) := by
  rw [State.issueVec, State.issue_runs s t g c anyEnc _ issues rfl, room]
  exact State.settle_done _ _ t c _ more

end

/-- A form of the table that works lane by lane on two registers. -/
def LanePair (i : Fin 512 → Issue → Fin 16 → Fin 16 → Fin 16 → Instr) (f : Word → Word → Word) : Prop :=
  ∀ (s : State) (t : Fin 512) (g : Issue) (dst a b : Fin 16), exec (i t g dst a b) s = .next (s.issueVec t g fun c => c.map2 dst a b f)

/-- A form of the table that works lane by lane on one register. -/
def LaneSingle (i : Fin 512 → Issue → Fin 16 → Fin 16 → Instr) (f : Word → Word) : Prop :=
  ∀ (s : State) (t : Fin 512) (g : Issue) (dst a : Fin 16), exec (i t g dst a) s = .next (s.issueVec t g fun c => c.map1 dst a f)

theorem LanePair.congr {i : Fin 512 → Issue → Fin 16 → Fin 16 → Fin 16 → Instr} {f f' : Word → Word → Word} (h : LanePair i f)
    (same : ∀ a b, f a b = f' a b) : LanePair i f' := by
  have : f = f' := funext fun a => funext fun b => same a b
  exact this ▸ h

theorem LaneSingle.congr {i : Fin 512 → Issue → Fin 16 → Fin 16 → Instr} {f f' : Word → Word} (h : LaneSingle i f)
    (same : ∀ a, f a = f' a) : LaneSingle i f' := by
  have : f = f' := funext same
  exact this ▸ h

/-! ### The lane functions as the table gives them -/

theorem minSigned_eq (a b : Word) : (if a.toInt ≤ b.toInt then a else b) = if a.slt b then a else b := by
  rcases lt_trichotomy a.toInt b.toInt with h | h | h
  · simp [BitVec.slt, h, h.le]
  · simp [BitVec.toInt_inj.mp h]
  · simp [BitVec.slt, h.not_ge, h.not_gt]

theorem maxSigned_eq (a b : Word) : (if b.toInt ≤ a.toInt then a else b) = if a.slt b then b else a := by
  rcases lt_or_ge a.toInt b.toInt with h | h
  · simp [BitVec.slt, h, h.not_ge]
  · simp [BitVec.slt, h, h.not_gt]

theorem satW_eq (v : Int) : satW v = BitVec.ofInt 32 (max (-2147483648) (min 2147483647 v)) := by
  have : sat32 v = max (-2147483648) (min 2147483647 v) := by
    unfold sat32
    omega
  rw [satW, this]

theorem shamt_eq (b : Word) : shamt b = b.toNat % 32 := by
  rw [shamt, fld_eq]
  norm_num

/-- A word is a NaN by its exponent and fraction alone (R152). -/
theorem isNan32_eq (w : Word) : isNan32 w = decide (0x7F800000 < w.toNat % 2 ^ 31) := by
  rw [isNan32, v32, FFmt.decode, decide_eq_decide]
  show (if 0x7F800000 < w.toNat % 2 ^ 31 then FVal.nan else _) = FVal.nan ↔ _
  split
  next big => simpa using big
  next small =>
    refine iff_of_false ?_ small
    dsimp only
    split
    · simp
    · split <;> simp

theorem isNan32_abs (w : Word) : isNan32 (w &&& 0x7FFFFFFF) = isNan32 w := by
  have mag : (w &&& 0x7FFFFFFF).toNat = w.toNat % 2 ^ 31 := Nat.and_two_pow_sub_one_eq_mod w.toNat 31
  rw [isNan32_eq, isNan32_eq, mag, Nat.mod_mod]

theorem isNan32_flip (w : Word) : isNan32 (w ^^^ 0x80000000) = isNan32 w := by
  have mag : (w ^^^ 0x80000000).toNat % 2 ^ 31 = w.toNat % 2 ^ 31 := by
    rw [BitVec.toNat_xor, Nat.xor_mod_two_pow]
    exact Nat.xor_zero _
  rw [isNan32_eq, isNan32_eq, mag]

theorem LanePair.runs {i : Fin 512 → Issue → Fin 16 → Fin 16 → Fin 16 → Instr} {f : Word → Word → Word} (h : LanePair i f)
    (s : State) (t : Fin 512) (g : Issue) (c : Core) (dst a b : Fin 16) (issues : s.Issues t g c) (more : (s.fetched t g c).More t c)
    (room : (s.fetched t g c).queueFull t 1 = false) :
    exec (i t g dst a b) s = .next (((s.fetched t g c).fly t 1 [] []).setCore t
      (c.retire (c.setLanes dst (fun k => f (c.lane a k) (c.lane b k)) fun k => c.laneBad a k || c.laneBad b k))) := by
  rw [h s t g dst a b, s.issueVec_runs t g c _ issues more room]
  rfl

theorem vectorPairResults : Sys2Proof.Claims.VectorPairResults := by
  intro op mem
  refine LanePair.runs ?_
  revert op
  simp only [List.forall_mem_cons, List.not_mem_nil, false_implies, implies_true, and_true]
  refine ⟨?fadd, ?fsub, ?fmul, ?fmin, ?fmax, ?iadd, ?isub, ?imul, ?iadds, ?isubs, ?imin, ?imax, ?vand, ?vor, ?vxor, ?vsll, ?vsra, ?flt, ?feq, ?ilt⟩
  case iadds => exact LanePair.congr (fun _ _ _ _ _ _ => rfl) fun a b => satW_eq (a.toInt + b.toInt)
  case isubs => exact LanePair.congr (fun _ _ _ _ _ _ => rfl) fun a b => satW_eq (a.toInt - b.toInt)
  case imin => exact LanePair.congr (fun _ _ _ _ _ _ => rfl) minSigned_eq
  case imax => exact LanePair.congr (fun _ _ _ _ _ _ => rfl) maxSigned_eq
  case vsll => exact LanePair.congr (fun _ _ _ _ _ _ => rfl) fun a b => congrArg (a <<< ·) (shamt_eq b)
  case vsra => exact LanePair.congr (fun _ _ _ _ _ _ => rfl) fun a b => congrArg a.sshiftRight (shamt_eq b)
  all_goals exact fun _ _ _ _ _ _ => rfl

/-! ### Reductions, selections and moves -/

/-- A reduction by the lanes that it fills (R79). -/
theorem Core.reduce_one (c : Core) (dst a : Fin 16) (v : Word) :
    c.reduce dst a v 0 false = c.setLanes dst (fun k => if k = 0 then v else 0) fun k => (List.range 64).any (c.laneBad a) && decide (k = 0) := by
  have lane (k : Fin 64) : (if k.val = 0 then v else if k.val = 1 then 0 else 0) = if k = 0 then v else (0 : Word) := by
    rw [ite_self]
    exact if_congr (Fin.val_eq_zero_iff) rfl rfl
  simp only [Core.reduce, lane, Bool.false_eq_true, false_and, or_false]

theorem Core.reduce_two (c : Core) (dst a : Fin 16) (v w : Word) :
    c.reduce dst a v w true = c.setLanes dst (fun k => if k = 0 then v else if k = 1 then w else 0)
      fun k => (List.range 64).any (c.laneBad a) && decide (k ≤ 1) := by
  have lane (k : Fin 64) : (if k.val = 0 then v else if k.val = 1 then w else 0) = if k = 0 then v else if k = 1 then w else 0 :=
    if_congr Fin.val_eq_zero_iff rfl (if_congr (Fin.ext_iff (b := (1 : Fin 64))).symm rfl rfl)
  have low (k : Nat) : (k = 0 ∨ k = 1) = (k ≤ 1) := propext Nat.le_one_iff_eq_zero_or_eq_one.symm
  simp only [Core.reduce, lane, true_and, low]

theorem laneIx_eq (w : Word) (k : Fin 64) (h : k.val = w.toNat % 64) : laneIx w = k := by
  refine Fin.ext ?_
  show fld w 5 0 = k.val
  rw [fld_eq, h]
  norm_num

theorem vectorOtherResults : Sys2Proof.Claims.VectorOtherResults := by
  intro s t g c issues more room toV
  have runs (i : Instr) (f : Core → Core) (ran : exec i s = .next (s.issueVec t g f)) :
      exec i s = .next (((s.fetched t g c).fly t 1 [] []).setCore t (c.retire (f c))) := by
    rw [ran, s.issueVec_runs t g c f issues more room]
  refine ⟨?single, ?triple, ?reduction, ?bcast, ?laneid, ?insr, ?extr⟩
  case single =>
    intro op mem dst a
    have single : LaneSingle op.1 op.2 := by
      revert op
      simp only [List.forall_mem_cons, List.not_mem_nil, false_implies, implies_true, and_true]
      refine ⟨?fabs, ?fneg, ?widen, ?narrow, ?ofInt, ?toInt⟩
      case fabs => exact LaneSingle.congr (fun _ _ _ _ _ => rfl) fun a => by rw [canon32, isNan32_abs]
      case fneg => exact LaneSingle.congr (fun _ _ _ _ _ => rfl) fun a => by rw [canon32, isNan32_flip]
      case widen => exact LaneSingle.congr (fun _ _ _ _ _ => rfl) fun a => by rw [fld_eq]; norm_num
      all_goals exact fun _ _ _ _ _ => rfl
    exact runs _ _ (single s t g dst a)
  case triple =>
    refine fun dst a b => ⟨runs _ (fun c => c.map3 dst a b ffma32) rfl, ?_⟩
    have swap (x y z : Word) : (if z ≠ 0 then x else y) = if z = 0 then y else x := ite_not _ _ _
    have sel := runs (.sel t g dst a b) _ rfl
    simp only [Core.map3, swap] at sel
    exact sel
  case reduction =>
    intro dst a any
    refine ⟨?_, ?_, ?_⟩
    · have ran := runs (.rsum t g dst a) _ rfl
      rwa [Core.reduce_one] at ran
    · have ran := runs (.rmax t g dst a) _ rfl
      rwa [Core.reduce_two] at ran
    · have ran := runs (.rmin t g dst a) _ rfl
      rwa [Core.reduce_two] at ran
  case bcast => exact fun dst a => runs (.bcast t g dst a) (fun c => c.setLanes dst (fun _ => c.s a) fun _ => c.sBad a) rfl
  case laneid => exact fun dst => runs (.laneid t g dst) (fun c => c.setLanes dst (fun k => BitVec.ofNat 32 k.val) fun _ => false) rfl
  case insr =>
    intro dst a b
    have ran := runs (.insr t g dst a b) _ rfl
    have index : (laneIx (c.s b)).val = (c.s b).toNat % 64 := congrArg Fin.val (laneIx_eq (c.s b) ⟨(c.s b).toNat % 64, Nat.mod_lt _ (by decide)⟩ rfl)
    simp only [Fin.ext_iff, index] at ran
    exact ran
  case extr =>
    intro dst a b k named
    have ran := runs (.extr t g dst a b) _ rfl
    rwa [laneIx_eq (c.s b) k named] at ran

/-- Settles O7, by the form that each operation has in the model and the equations of its lane function. -/
theorem vectorResults : Obligations.VectorResults := ⟨vectorPairResults, vectorOtherResults⟩

end Sys2Proof.Machine
end

section
/-! SUPPORT. The gather engine (05 R143 to R146; 09 R242 to R244): obligation O15. -/

namespace Sys2Proof.Machine

/-! ### Checks and reads that pass -/

/-- Checks of which none finds anything name no cause. -/
theorem firstCause_eq_none {l : List (Nat × Bool)} (pass : ∀ x ∈ l, x.2 = false) : firstCause l = none := by
  have : l.filter (fun x => x.2) = [] := List.filter_eq_nil_iff.mpr fun x mem => by simp [pass x mem]
  rw [firstCause, this]
  rfl

/-- The checks of an extent in one of its spaces, aligned and in range, find nothing (R196). -/
theorem State.extentChecks_pass (s : State) (t : Nat) (spaces : List Nat) (x : Extent) (known : x.space ≤ 2) (allowed : spaces.contains x.space = true)
    (aligned : x.base % 4 = 0 ∧ x.len % 4 = 0) (inside : x.base + x.len ≤ s.spaceSize t x.space) :
    ∀ y ∈ s.extentChecks t spaces x, y.2 = false := by
  have : x.space ≠ 3 := by omega
  simp [State.extentChecks, State.inSpace, this, List.contains_iff_mem.mp allowed, aligned, inside]

/-! ### The shared part of the four operations -/

/-- What the four operations share: `f` has room for the operation, whose extents `d`, `a` and `b` are aligned, in range, outside rings and holds and whose rows have a legal size, and what it reads is clean in `q` (R196, R242). -/
structure State.GsFits (f q : State) (t : Fin 512) (c : Core) (d a b : Extent) (w : Word) : Prop where
  room : f.queueFull t 2 = false
  held : anyOverlap [d] c.held = false
  low : 4 ≤ gsRow w
  high : gsRow w ≤ 1024
  words : gsRow w % 4 = 0
  rings : anyOverlap [d, a, b] c.rings = false
  inside : ∀ x ∈ [d, a, b], x.base % 4 = 0 ∧ x.len % 4 = 0 ∧ x.base + x.len ≤ f.spaceSize t x.space
  cleanA : q.loadBad t c a.space a.base a.len = false
  cleanB : q.loadBad t c 0 b.base b.len = false

section
variable {f q : State} {t : Fin 512} {c : Core} {d a b : Extent} {w : Word}

/-- Where an operation's own checks pass, no exception is raised. -/
theorem State.GsFits.checks (fits : f.GsFits q t c d a b w) (own : List (Nat × Bool)) (dsp asp : List Nat) (pass : ∀ x ∈ own, x.2 = false)
    (dSpace : d.space ≤ 2 ∧ dsp.contains d.space = true) (aSpace : a.space ≤ 2 ∧ asp.contains a.space = true) (bSpace : b.space = 0) :
    firstCause (own ++ f.gsCheck t c d a b w dsp asp) = none := by
  have inside := fits.inside
  simp only [List.forall_mem_cons, List.not_mem_nil, false_implies, implies_true, and_true] at inside
  obtain ⟨⟨dBase, dLen, dIn⟩, ⟨aBase, aLen, aIn⟩, ⟨bBase, bLen, bIn⟩⟩ := inside
  have row : ¬(gsRow w < 4 ∨ gsRow w > 1024 ∨ gsRow w % 4 ≠ 0) := by
    have := fits.low
    have := fits.high
    have := fits.words
    omega
  refine firstCause_eq_none ?_
  simp only [State.gsCheck, List.forall_mem_append, List.forall_mem_cons, List.not_mem_nil, false_implies, implies_true, and_true]
  exact ⟨pass, ⟨⟨⟨decide_eq_false row, fits.rings⟩, f.extentChecks_pass t dsp d dSpace.1 dSpace.2 ⟨dBase, dLen⟩ dIn⟩,
    f.extentChecks_pass t asp a aSpace.1 aSpace.2 ⟨aBase, aLen⟩ aIn⟩, f.extentChecks_pass t [0] b (by omega) (by simp [bSpace]) ⟨bBase, bLen⟩ bIn⟩

/-- An operation that fits runs on the state that its reads leave. -/
theorem State.GsFits.gsRun {hits : List EccHit} (fits : f.GsFits q t c d a b w) (reads : f.applyHits t c [a, b] hits = q) (k : State → NtRes) :
    f.gsRun t c d a b hits k = k q := by
  rw [State.gsRun, fits.room, fits.held]
  simp only [reads, fits.cleanA, fits.cleanB]
  rfl

end

/-! ### Index lists -/

/-- The indices that an index extent holds; an empty one stands for all rows in order (R243). -/
def State.indices (q : State) (t : Nat) (c : Core) (b : Extent) (rows : Nat) : List Nat :=
  if b.len = 0 then List.range rows else (List.range (b.len / 4)).map fun j => ofLe (q.load t c 0 (b.base + 4 * j) 4)

theorem State.length_indices (q : State) (t : Nat) (c : Core) (a b : Extent) (rb : Nat) :
    (q.indices t c b (a.len / rb)).length = gsCount a b rb := by
  unfold State.indices gsCount
  split
  · exact List.length_range
  · rw [List.length_map, List.length_range]

/-- Indices that are read clean carry no poison. -/
theorem State.indexList_clean (q : State) (t : Nat) (c : Core) (b : Extent) (rows : Nat)
    (clean : ∀ j, j < b.len / 4 → q.loadBad t c 0 (b.base + 4 * j) 4 = false) :
    q.indexList t c b rows = (q.indices t c b rows).map fun i => (i, false) := by
  unfold State.indexList State.indices
  split
  · rfl
  · rw [List.map_map]
    exact List.map_congr_left fun j mem => congrArg (Prod.mk _) (clean j (List.mem_range.mp mem))

theorem zipIdx_map_pair (l : List Nat) : (l.map fun i => (i, false)).zipIdx = l.zipIdx.map fun x => ((x.1, false), x.2) :=
  List.zipIdx_map ..

/-! ### Rows in list order -/

/-- What one step of an operation leaves. -/
def State.rowStep (s : State) (t : Nat) (c : Core) (sp dp rb : Nat) (x : GsStep × Bool) : State :=
  match x.1 with
  | .copy r => (if x.2 then s.tileFlag t 7 else s).copyRow t c sp dp rb r
  | _ => if x.2 then s.tileFlag t 7 else s

/-- Steps of which none stops the job are all made, in list order (R144, R145). -/
theorem State.runRows_unstopped (t : Nat) (c : Core) (sp dp rb : Nat) (l : List (GsStep × Bool)) :
    ∀ s : State, (∀ x ∈ l, x.1 ≠ .stop) → s.runRows t c sp dp rb l = (l.foldl (fun u x => u.rowStep t c sp dp rb x) s, false) := by
  induction l with
  | nil => exact fun _ _ => rfl
  | cons x l ih =>
    intro s goes
    obtain ⟨step, flagged⟩ := x
    have rest := fun u : State => ih u fun y mem => goes y (List.mem_cons_of_mem _ mem)
    cases step with
    | skip => exact rest _
    | copy r => exact rest _
    | stop => exact absurd rfl (goes _ List.mem_cons_self)

/-- The steps of numbered indices, one kind for a row of the table, another kind for an index beyond it, which stops the job under FAULT. -/
theorem State.runRows_named {s : State} {t : Nat} {c : Core} {sp dp rb rows : Nat} {fault : Bool} {l : List (Nat × Nat)} {near far : Nat × Nat → GsStep × Bool}
    (nearGoes : ∀ x, (near x).1 ≠ .stop) (farGoes : ∀ x, (far x).1 ≠ .stop) (named : fault = false ∨ ∀ x ∈ l, x.1 < rows) :
    s.runRows t c sp dp rb (l.map fun x => if x.1 < rows then near x else if fault = true then (.stop, false) else far x) =
      (l.foldl (fun u x => if x.1 < rows then u.rowStep t c sp dp rb (near x) else u.rowStep t c sp dp rb (far x)) s, false) := by
  have steps : (l.map fun x => if x.1 < rows then near x else if fault = true then (.stop, false) else far x) = l.map fun x => if x.1 < rows then near x else far x := by
    refine List.map_congr_left fun x mem => if_ctx_congr Iff.rfl (fun _ => rfl) fun beyond => ?_
    obtain zero | inside := named
    · simp [zero]
    · exact absurd (inside x mem) beyond
  have goes : ∀ y ∈ l.map (fun x => if x.1 < rows then near x else far x), y.1 ≠ .stop := by
    intro y mem
    obtain ⟨x, -, rfl⟩ := List.mem_map.mp mem
    split
    · exact nearGoes x
    · exact farGoes x
  rw [steps, State.runRows_unstopped _ _ _ _ _ _ _ goes, List.foldl_map]
  simp only [apply_ite]

/-! ### GATHER and SCATTER (R143 to R145, R242, R243) -/

theorem gsRow_eq (w : Word) : gsRow w = w.toNat % 2048 := by
  rw [gsRow, fld_eq]
  norm_num

section
variable {s f q : State} {t : Fin 512} {g : Issue} {c : Core} {xd xa xb : Fin 16} {r : Fin 32} {hits : List EccHit} {d a b : Extent} {w : Word}

theorem execGather_runs (issues : s.Issues t g c) (more : (s.fetched t g c).More t c) (hf : s.fetched t g c = f) (hd : extentOf (c.a xd) = d)
    (ha : extentOf (c.a xa) = a) (hb : extentOf (c.a xb) = b) (hw : c.s r = w) (hq : f.applyHits t c [a, b] hits = q)
    (fits : f.GsFits q t c d a b w) (regs : (c.aBad xd || c.aBad xa || c.aBad xb || c.sBad r) = false)
    (aSpace : a.space ≤ 2) (dSpace : d.space = 0) (bSpace : b.space = 0)
    (clean : ∀ j, j < b.len / 4 → q.loadBad t c 0 (b.base + 4 * j) 4 = false)
    (room : (q.indices t c b (a.len / gsRow w)).length * gsRow w ≤ d.len)
    (named : gsFault w = false ∨ ∀ i ∈ q.indices t c b (a.len / gsRow w), i < a.len / gsRow w) :
    exec (.gather t g xd xa xb r hits) s = .next ((((q.indices t c b (a.len / gsRow w)).zipIdx.foldl (fun u x =>
      if x.1 < a.len / gsRow w then u.copyRow t c a.space 0 (gsRow w) { src := some (a.base + x.1 * gsRow w), dst := d.base + x.2 * gsRow w, bad := false }
      else (u.tileFlag t 7).copyRow t c a.space 0 (gsRow w) { src := none, dst := d.base + x.2 * gsRow w, bad := false }) q).fly t 2 [a, b] [d]).setCore t (c.retire c)) := by
  rw [State.length_indices] at room
  have checks := fits.checks [(4, decide (d.len < gsCount a b (gsRow w) * gsRow w))] [0] [0, 1, 2] (by simpa using room) (by simp [dSpace]) ⟨aSpace, by simp; omega⟩ bSpace
  rw [List.singleton_append] at checks
  rw [show exec (.gather t g xd xa xb r hits) s = .next (s.issue t g anyEnc _) from rfl, State.issue_runs s t g c anyEnc _ issues rfl]
  simp only [hf, hd, ha, hb, hw, checks, fits.gsRun hq, regs, Bool.or_false, State.indexList_clean _ _ _ _ _ clean, zipIdx_map_pair, List.map_map, Function.comp_def]
  rw [State.runRows_named ?near ?far (named.imp_right fun inside x mem => inside _ (List.fst_mem_of_mem_zipIdx mem))]
  · exact congrArg _ (State.settle_done _ _ t c c (hf ▸ more))
  all_goals exact fun _ => GsStep.noConfusion

theorem execScatter_runs (issues : s.Issues t g c) (more : (s.fetched t g c).More t c) (hf : s.fetched t g c = f) (hd : extentOf (c.a xd) = d)
    (ha : extentOf (c.a xa) = a) (hb : extentOf (c.a xb) = b) (hw : c.s r = w) (hq : f.applyHits t c [a, b] hits = q)
    (fits : f.GsFits q t c d a b w) (regs : (c.aBad xd || c.aBad xa || c.aBad xb || c.sBad r) = false)
    (aSpace : a.space = 0) (dSpace : d.space ≤ 1) (bSpace : b.space = 0)
    (clean : ∀ j, j < b.len / 4 → q.loadBad t c 0 (b.base + 4 * j) 4 = false)
    (room : (q.indices t c b (a.len / gsRow w)).length * gsRow w ≤ d.len ∧ (q.indices t c b (a.len / gsRow w)).length * gsRow w ≤ a.len)
    (named : gsFault w = false ∨ ∀ i ∈ q.indices t c b (a.len / gsRow w), i < d.len / gsRow w) :
    exec (.scatter t g xd xa xb r hits) s = .next ((((q.indices t c b (a.len / gsRow w)).zipIdx.foldl (fun u x =>
      if x.1 < d.len / gsRow w then u.copyRow t c 0 d.space (gsRow w) { src := some (a.base + x.2 * gsRow w), dst := d.base + x.1 * gsRow w, bad := false }
      else u.tileFlag t 7) q).fly t 2 [a, b] [d]).setCore t (c.retire c)) := by
  rw [State.length_indices] at room
  have checks := fits.checks [(4, decide (d.len < gsCount a b (gsRow w) * gsRow w ∨ a.len < gsCount a b (gsRow w) * gsRow w))] [0, 1] [0]
    (by simpa using room) ⟨by omega, by simp; omega⟩ (by simp [aSpace]) bSpace
  rw [List.singleton_append] at checks
  rw [show exec (.scatter t g xd xa xb r hits) s = .next (s.issue t g anyEnc _) from rfl, State.issue_runs s t g c anyEnc _ issues rfl]
  simp only [hf, hd, ha, hb, hw, checks, fits.gsRun hq, regs, Bool.or_false, State.indexList_clean _ _ _ _ _ clean, zipIdx_map_pair, List.map_map, Function.comp_def]
  rw [State.runRows_named ?near ?far (named.imp_right fun inside x mem => inside _ (List.fst_mem_of_mem_zipIdx mem))]
  · exact congrArg _ (State.settle_done _ _ t c c (hf ▸ more))
  all_goals exact fun _ => GsStep.noConfusion

end

theorem rowCopyResults : Sys2Proof.Claims.RowCopyResults := by
  intro s t g c xd xa xb r hits issues more f d a b rb fault q index copy zero room held low high words rings inside cleanA cleanB
    badD badA badB badS bSpace
  have rb_eq : gsRow (c.s r) = rb := gsRow_eq _
  have fits : f.GsFits q t c d a b (c.s r) :=
    ⟨room, held, rb_eq ▸ low, rb_eq ▸ high, rb_eq ▸ words, rings, inside, cleanA, cleanB⟩
  have regs : (c.aBad xd || c.aBad xa || c.aBad xb || c.sBad r) = false := by rw [badD, badA, badB, badS]; rfl
  constructor
  · intro aSpace dSpace fit named clean
    have ran := execGather_runs issues more rfl rfl rfl rfl rfl rfl fits regs aSpace dSpace bSpace clean
    rw [rb_eq] at ran
    exact ran fit named
  · intro aSpace dSpace fitD fitA named clean
    have ran := execScatter_runs issues more rfl rfl rfl rfl rfl rfl fits regs aSpace dSpace bSpace clean
    rw [rb_eq] at ran
    exact ran ⟨fitD, fitA⟩ named

/-! ### GATHER_CSR (R244) -/

theorem gsNodes_eq (w : Word) : gsNodes w = w.toNat / 4096 := by
  rw [gsNodes, fld_eq]
  have := w.isLt
  omega

/-- The words of an index extent that is not empty. -/
theorem State.indices_words (q : State) (t : Nat) (c : Core) (b : Extent) (rows : Nat) (some : 0 < b.len) :
    q.indices t c b rows = (List.range (b.len / 4)).map fun j => ofLe (q.load t c 0 (b.base + 4 * j) 4) := if_neg some.ne'

/-- Offsets that never decrease and stay within the list give the neighbour counts. -/
theorem csrCheck_rising (limit : Nat) (l : List Nat) (rising : ∀ p ∈ l.zip l.tail, p.1 ≤ p.2 ∧ p.2 ≤ limit) :
    csrCheck limit l = ((l.zip l.tail).map fun p => p.2 - p.1, false) := by
  induction l with
  | nil => rfl
  | cons x l ih =>
    cases l with
    | nil => rfl
    | cons y l =>
      simp only [List.tail_cons, List.zip_cons_cons, List.forall_mem_cons] at rising ih ⊢
      rw [csrCheck, if_pos rising.1, ih rising.2]
      rfl

section
variable {s f q : State} {t : Fin 512} {g : Issue} {c : Core} {xd xa xb : Fin 16} {r : Fin 32} {hits : List EccHit} {d a b : Extent} {w : Word} {words : List Nat}

theorem execGatherCsr_runs (issues : s.Issues t g c) (more : (s.fetched t g c).More t c) (hf : s.fetched t g c = f) (hd : extentOf (c.a xd) = d)
    (ha : extentOf (c.a xa) = a) (hb : extentOf (c.a xb) = b) (hw : c.s r = w) (hq : f.applyHits t c [a, b] hits = q)
    (fits : f.GsFits q t c d a b w) (regs : (c.aBad xd || c.aBad xa || c.aBad xb || c.sBad r) = false)
    (aSpace : a.space ≤ 2) (dSpace : d.space = 0) (bSpace : b.space = 0) (hWords : q.indices t c b 0 = words)
    (clean : ∀ j, j < b.len / 4 → q.loadBad t c 0 (b.base + 4 * j) 4 = false)
    {n : Nat} {offs list counts named : List Nat} (hn : gsNodes w = n) (hOffs : words.take (n + 1) = offs) (hList : words.drop (n + 1) = list)
    (hCounts : ((offs.zip offs.tail).map fun p => p.2 - p.1) = counts) (hNamed : (list.drop (offs.headD 0)).take counts.sum = named)
    (fitB : 4 * (n + 1) ≤ b.len) (fitD : 4 * n + named.length * gsRow w ≤ d.len) (rising : ∀ p ∈ offs.zip offs.tail, p.1 ≤ p.2 ∧ p.2 ≤ list.length)
    (inside : gsFault w = false ∨ ∀ i ∈ named, i < a.len / gsRow w) :
    exec (.gatherCsr t g xd xa xb r hits) s = .next (((named.zipIdx.foldl (fun u x =>
      if x.1 < a.len / gsRow w then u.copyRow t c a.space 0 (gsRow w) { src := some (a.base + x.1 * gsRow w), dst := d.base + 4 * n + x.2 * gsRow w, bad := false }
      else (u.tileFlag t 7).copyRow t c a.space 0 (gsRow w) { src := none, dst := d.base + 4 * n + x.2 * gsRow w, bad := false })
      (q.abWrite t d.base (counts.flatMap fun x => leBytes 4 x) fun _ => false)).fly t 2 [a, b] [d]).setCore t (c.retire c)) := by
  have checks := fits.checks [(4, decide (b.len < 4 * (n + 1) ∨ d.len < 4 * n))] [0] [0, 1, 2] (by simp; omega) (by simp [dSpace]) ⟨aSpace, by simp; omega⟩ bSpace
  rw [List.singleton_append] at checks
  rw [show exec (.gatherCsr t g xd xa xb r hits) s = .next (s.issue t g anyEnc _) from rfl, State.issue_runs s t g c anyEnc _ issues rfl]
  have values (l : List Nat) : (l.map fun i => (i, false)).map (fun x => x.1) = l := by rw [List.map_map]; exact List.map_id l
  have unpoisoned (l : List Nat) : ((l.map fun i => (i, false)).any fun x => x.2) = false := by simp
  have noOverflow (x : Nat × Nat) (mem : x ∈ named.zipIdx) : ¬ d.base + 4 * n + x.2 * gsRow w + gsRow w > d.base + d.len := by
    have := List.snd_lt_of_mem_zipIdx mem
    have : (x.2 + 1) * gsRow w ≤ named.length * gsRow w := Nat.mul_le_mul_right _ (by omega)
    rw [Nat.add_mul, Nat.one_mul] at this
    omega
  simp only [hf, hd, ha, hb, hw, hn, checks, fits.gsRun hq, regs, State.indexList_clean _ _ _ _ _ clean, hWords, ← List.map_take, ← List.map_drop, hOffs, hList,
    values, unpoisoned, List.length_map, csrCheck_rising _ _ rising, hCounts, ← List.sum_eq_foldl_nat, hNamed, zipIdx_map_pair, List.map_map, Function.comp_def, Bool.or_false,
    Bool.false_eq_true, if_false]
  rw [List.map_congr_left fun x mem => if_neg (noOverflow x mem),
    State.runRows_named ?near ?far (inside.imp_right fun inside x mem => inside _ (List.fst_mem_of_mem_zipIdx mem))]
  · exact congrArg _ (State.settle_done _ _ t c c (hf ▸ more))
  all_goals exact fun _ => GsStep.noConfusion

end

/-! ### SCATTER_ACC (R79, R146) -/

/-- Every index beyond the table counts once. -/
theorem foldl_flags (u : State) (t : Nat) (rows : Nat) (l : List Nat) (k : Nat) :
    ((l.zipIdx k).filter fun x => decide (rows ≤ x.1)).foldl (fun u _ => u.tileFlag t 7) u = (l.filter fun i => decide (rows ≤ i)).foldl (fun u _ => u.tileFlag t 7) u := by
  induction l generalizing u k with
  | nil => rfl
  | cons i l ih =>
    rw [List.zipIdx_cons, List.filter_cons, List.filter_cons]
    split
    · exact ih _ _
    · exact ih _ _

section
variable {s f q : State} {t : Fin 512} {g : Issue} {c : Core} {xd xa xb : Fin 16} {r : Fin 32} {hits : List EccHit} {d a b : Extent} {w : Word} {words : List Nat}

/-- The word that SCATTER_ACC leaves at column `e` of a row: the tree over the contributions that name the row (R146). -/
def State.accWord (q : State) (t : Nat) (c : Core) (a : Extent) (rb : Nat) (words : List Nat) (row e : Nat) : Word :=
  (accTree 64 ((words.zipIdx.filter fun x => decide (x.1 = row)).map fun x =>
    (c.facet.srcBase + x.2, (BitVec.ofNat 32 (ofLe (q.load t c 0 (a.base + x.2 * rb + 4 * e) 4)) : Word))) 0 c.facet.total).getD 0

/-- A word of XD that SCATTER_ACC poisons: a contribution that names its row is poisoned (R575). -/
def State.accBad (q : State) (t : Nat) (c : Core) (a : Extent) (rb : Nat) (words : List Nat) (row e : Nat) : Bool :=
  words.zipIdx.any fun x => decide (x.1 = row) && q.loadBad t c 0 (a.base + x.2 * rb + 4 * e) 4

theorem State.accBad_clean (q : State) (t : Nat) (c : Core) (a : Extent) (rb : Nat) (words : List Nat) (row e : Nat)
    (clean : ∀ j, j < words.length → q.loadBad t c 0 (a.base + j * rb + 4 * e) 4 = false) : q.accBad t c a rb words row e = false := by
  refine List.any_eq_false.mpr fun x mem => ?_
  rw [clean x.2 (List.snd_lt_of_mem_zipIdx mem), Bool.and_false]
  exact Bool.false_ne_true

theorem execScatterAcc_runs (issues : s.Issues t g c) (more : (s.fetched t g c).More t c) (hf : s.fetched t g c = f) (hd : extentOf (c.a xd) = d)
    (ha : extentOf (c.a xa) = a) (hb : extentOf (c.a xb) = b) (hw : c.s r = w) (hq : f.applyHits t c [a, b] hits = q)
    (fits : f.GsFits q t c d a b w) (regs : (c.aBad xd || c.aBad xa || c.aBad xb || c.sBad r || c.facetBad) = false)
    (aSpace : a.space = 0) (dSpace : d.space = 0) (bSpace : b.space = 0) (hWords : q.indices t c b (a.len / gsRow w) = words)
    (clean : ∀ j, j < b.len / 4 → q.loadBad t c 0 (b.base + 4 * j) 4 = false)
    (fitA : words.length * gsRow w ≤ a.len) (places : c.facet.srcBase + words.length ≤ 16 * c.facet.total)
    (named : gsFault w = false ∨ words.filter (fun i => decide (d.len / gsRow w ≤ i)) = []) :
    exec (.scatterAcc t g xd xa xb r hits) s = .next (((((words.filter fun i => decide (d.len / gsRow w ≤ i)).foldl (fun u _ => u.tileFlag t 7) q).abWrite t d.base
      ((List.range (d.len / gsRow w)).flatMap fun row => (List.range (gsRow w / 4)).flatMap fun e => leBytes 4 (q.accWord t c a (gsRow w) words row e).toNat)
      fun i => q.accBad t c a (gsRow w) words (i / gsRow w) (i % gsRow w / 4)).fly t 2 [a, b] [d]).setCore t (c.retire c)) := by
  have count := q.length_indices t c a b (gsRow w)
  rw [hWords] at count
  have checks := fits.checks [(4, decide (a.len < gsCount a b (gsRow w) * gsRow w)), (2, decide (c.facet.srcBase + gsCount a b (gsRow w) > 16 * c.facet.total))] [0] [0]
    (by rw [← count]; simp; omega) (by simp [dSpace]) (by simp [aSpace]) bSpace
  rw [show exec (.scatterAcc t g xd xa xb r hits) s = .next (s.issue t g anyEnc _) from rfl, State.issue_runs s t g c anyEnc _ issues rfl]
  have goes : ¬ (gsFault w = true ∧ (words.zipIdx.any fun x => decide (d.len / gsRow w ≤ x.1)) = true) := by
    rintro ⟨fault, found⟩
    obtain ⟨x, mem, far⟩ := List.any_eq_true.mp found
    obtain zero | none := named
    · rw [zero] at fault; cases fault
    · have := List.filter_eq_nil_iff.mp none x.1 (List.fst_mem_of_mem_zipIdx mem)
      exact this far
  simp only [hf, hd, ha, hb, hw, checks, fits.gsRun hq, regs, State.indexList_clean _ _ _ _ _ clean, hWords, zipIdx_map_pair, List.any_map, List.filter_map, List.map_map,
    List.foldl_map, Function.comp_def, Bool.false_or, if_neg goes, foldl_flags]
  exact congrArg _ (State.settle_done _ _ t c c (hf ▸ more))

end

theorem gatherListResults : Sys2Proof.Claims.GatherListResults := by
  intro s t g c xd xa xb r hits issues more f d a b rb fault n q words room held low high whole rings inside cleanA cleanB
    badD badA badB badS bSpace dSpace some clean
  have rb_eq : gsRow (c.s r) = rb := gsRow_eq _
  have fits : f.GsFits q t c d a b (c.s r) :=
    ⟨room, held, rb_eq ▸ low, rb_eq ▸ high, rb_eq ▸ whole, rings, inside, cleanA, cleanB⟩
  have regs : (c.aBad xd || c.aBad xa || c.aBad xb || c.sBad r) = false := by rw [badD, badA, badB, badS]; rfl
  have indices (rows : Nat) : q.indices t c b rows = words := q.indices_words t c b rows some
  constructor
  · intro offs list counts named aSpace fitB fitD rising near
    have ran := execGatherCsr_runs issues more rfl rfl rfl rfl rfl rfl fits regs aSpace dSpace bSpace (indices 0) clean (gsNodes_eq _) rfl rfl rfl rfl
    rw [rb_eq] at ran
    exact ran fitB fitD rising near
  · intro rows sent word sum late aSpace fitA places facet none cleanRows
    have ran := execScatterAcc_runs issues more rfl rfl rfl rfl rfl rfl fits (by rw [regs, facet]; rfl) aSpace dSpace bSpace (indices _) clean
    rw [rb_eq] at ran
    refine ⟨fun i => q.accBad t c a rb words (i / rb) (i % rb / 4), fun i _ => ?_, ran fitA places none⟩
    refine q.accBad_clean t c a rb words _ _ fun j near => cleanRows j _ near ?_
    have := Nat.mod_lt i (show 0 < rb by omega)
    omega

/-- Settles O15, by the rows that each operation copies, in list order. -/
theorem gatherResults : Obligations.GatherResults := ⟨rowCopyResults, gatherListResults⟩

end Sys2Proof.Machine
end

section
/-! SUPPORT. The stream instructions (03 R73; 05 R139; 08 R197, R199; 09 R245 to R250): obligation O16. -/

namespace Sys2Proof.Machine

/-! ### An instruction that completes, and what it leaves of a tile -/

/-- An instruction that issues and whose meaning ends leaves that state with its core retired (R202). -/
theorem exec_done {s u : State} {t : Fin 512} {g : Issue} {c k : Core} {i : Instr} {illegal : Core → Bool} {F : Core → State → NtRes}
    (issues : s.Issues t g c) (more : (s.fetched t g c).More t c) (form : exec i s = .next (s.issue t g illegal F)) (legal : illegal c = false)
    (done : F c (s.fetched t g c) = .done k u) : exec i s = .next (u.setCore t (c.retire k)) := by
  rw [form, State.issue_runs s t g c illegal F issues legal, done, State.settle_done _ _ t c k more]

theorem State.tile_setCore (s : State) (t : Nat) (c : Core) : (s.setCore t c).tile t = { s.tile t with core := some c } := s.tile_modTile_same t _

theorem State.setCore_port (s : State) (t : Nat) (c : Core) (kind stream : Nat) : ((s.setCore t c).tile t).port kind stream = (s.tile t).port kind stream :=
  Tile.port_of_ports (by rw [State.tile_setCore]) kind stream

theorem State.setCore_abuf (s : State) (t : Nat) (c : Core) : ((s.setCore t c).tile t).abuf = (s.tile t).abuf := by rw [State.tile_setCore]

/-- A change of one tile, then of its core, leaves every other tile. -/
theorem State.setCore_modTile_ne (s : State) (t n : Nat) (f : Tile → Tile) (c : Core) (h : n ≠ t) : ((s.modTile t f).setCore t c).tile n = s.tile n := by
  rw [State.setCore_tile_ne _ _ _ _ h, State.tile_modTile, if_neg h]

/-- The stream `p` put under its own kind and number. -/
theorem Tile.port_setPort_of (x : Tile) {p : InPort} {kind stream : Nat} (hk : p.kind = kind) (hs : p.stream = stream) : (x.setPort p).port kind stream = p := by
  subst hk hs
  exact x.port_setPort p

/-! ### EMIT counts (R199) -/

theorem Core.setCount_count (c : Core) (p n : Nat) : (c.setCount p n).count p = some n := by
  have found : (c.setCount p n).emits.find? (fun e => decide (e.1 = p)) = some (p, n) := by
    unfold Core.setCount
    cases counted : c.emits.find? (fun e => decide (e.1 = p)) with
    | none => simp [Core.count, counted, List.find?_append]
    | some e =>
      have same : ((fun e : Nat × Nat => decide (e.1 = p)) ∘ fun e => if e.1 = p then (p, n) else e) = fun e => decide (e.1 = p) := by
        funext e
        by_cases h : e.1 = p <;> simp [h]
      have own : e.1 = p := by simpa using List.find?_some counted
      simp only [Core.count, counted, Option.map_some]
      rw [List.find?_map, same, counted]
      simp [own]
  rw [Core.count, found]
  rfl

/-! ### Void masks (R89) -/

theorem State.mark_tile (s : State) (id : JobId) (m n : Nat) : (s.mark id m).tile n = s.tile n := rfl

theorem State.mark_net (s : State) (id : JobId) (m : Nat) : (s.mark id m).net = s.net := rfl

theorem State.mark_regs (s : State) (id : JobId) (m : Nat) : (s.mark id m).regs = s.regs := rfl

/-- Marks join the mask of a job that is there; a job that is gone has none. -/
theorem State.voidOf_mark (s : State) (id : JobId) (m : Nat) :
    (s.mark id m).voidOf id = if (s.job id).isSome then s.voidOf id ||| m else 0 := by
  cases found : s.job id with
  | some j => simp [State.voidOf, State.mark, s.modJob_job id (fun j => { j with void := j.void ||| m }) (fun _ => rfl) j found, found]
  | none =>
    have others (j : Job) (mem : j ∈ s.jobs) : ¬ decide (j.id = id) = true := List.find?_eq_none.mp found j mem
    have jobs : (s.mark id m).jobs = s.jobs :=
      (List.map_congr_left fun j mem => if_neg (others j mem)).trans (List.map_id s.jobs)
    simp [State.voidOf, State.job_of_jobs jobs, found]

/-! ### Rounded bodies (R245) -/

theorem le_roundUp (n m : Nat) (pos : 0 < m) : n ≤ roundUp n m := by
  have := Nat.div_add_mod (n + m - 1) m
  have := Nat.mod_lt (n + m - 1) pos
  rw [roundUp, Nat.mul_comm]
  omega

theorem padTo_take (n : Nat) (bs : List Byte) (h : bs.length ≤ n) : (padTo n bs).take bs.length = bs := by
  rw [padTo, List.take_take, Nat.min_eq_left h]
  simp

/-! ### SOPEN, SCLOSE and SHZN (R73, R247, R250) -/

/-- The stream that SOPEN.IN opens: its sources as the descriptor says, and what has been released on it (R247). -/
def State.openedPort (f : State) (t : Nat) (c : Core) (e : Desc) : InPort :=
  let p := (f.tile t).port e.kind e.stream
  { p with
    sources := if e.kind = 0 then e.sources else 1
    loose := e.loose, srcs := p.srcs.map fun m => { m with loose := e.loose }
    released := if e.kind = 0 then p.released else f.portItems (f.serving (t / 128)) e.kind e.stream c.id }

section
variable {s : State} {t : Fin 512} {g : Issue} {c : Core}

theorem execSopenIn_opens (d : Fin 16) (issues : s.Issues t g c) (more : (s.fetched t g c).More t c) (checked : (s.fetched t g c).openCheck t c (c.d d) = none)
    (there : (s.fetched t g c).portAbsent ((s.fetched t g c).serving (t.val / 128)) (c.d d).kind (c.d d).stream = false) :
    exec (.sopenIn t g d) s = .next (((s.fetched t g c).modTile t fun x => x.setPort ((s.fetched t g c).openedPort t c (c.d d))).setCore t
      (c.retire (c.setD d { c.d d with state := .openIn, credit := (extentOf (c.d d).ring).len / 64 }))) := by
  refine exec_done issues more rfl rfl ?_
  simp only [checked, there]
  rfl

theorem execSopenIn_absent (d : Fin 16) (issues : s.Issues t g c) (more : (s.fetched t g c).More t c) (checked : (s.fetched t g c).openCheck t c (c.d d) = none)
    (away : (s.fetched t g c).portAbsent ((s.fetched t g c).serving (t.val / 128)) (c.d d).kind (c.d d).stream = true) :
    exec (.sopenIn t g d) s = .next ((s.fetched t g c).setCore t (c.retire (c.setD d { c.d d with state := .absent }))) := by
  refine exec_done issues more rfl rfl ?_
  simp only [checked, away]
  rfl

theorem execSopenOut_opens (d : Fin 16) (credit : Nat) (issues : s.Issues t g c) (more : (s.fetched t g c).More t c) (closed : (c.d d).state = .closed)
    (internal : (c.d d).kind = 0) :
    exec (.sopenOut t g d credit) s = .next ((s.fetched t g c).setCore t (c.retire (c.setD d { c.d d with state := .openOut, credit := credit, used := [] }))) := by
  refine exec_done issues more rfl rfl ?_
  simp only [closed, internal]
  rfl

/-- SCLOSE of a descriptor that is not closed, and none of whose items waits at the tile. -/
theorem execSclose_closes (d : Fin 16) (issues : s.Issues t g c) (more : (s.fetched t g c).More t c) (opened : (c.d d).state ≠ .closed)
    (sent : (c.d d).state = .openOut → (s.fetched t g c).unsent t (c.d d).stream = false) :
    exec (.sclose t g d) s = .next (((s.fetched t g c).closeDesc t c (c.d d)).setCore t (c.retire (c.setD d { c.d d with state := .closed, credit := 0 }))) := by
  refine exec_done issues more rfl rfl ?_
  have free : ¬ ((c.d d).state = .openOut ∧ (s.fetched t g c).unsent t (c.d d).stream = true) := by
    rintro ⟨out, waits⟩
    rw [sent out] at waits
    cases waits
  simp only [if_neg opened, if_neg free]

/-- Closing an output descriptor sends the job's last HORIZON under at least one producer (R73). -/
theorem State.closeDesc_horizon (f : State) (t : Nat) (c : Core) (e : Desc) (out : e.state = .openOut) :
    ∃ h ∈ (f.closeDesc t c e).net.hops, h.msg.horizon = true ∧ h.msg.dest = ringDest e.ring ∧ h.msg.stream = e.stream ∧
      h.msg.item.key = BitVec.ofNat 96 (lastKey c.id) := by
  have sends (l : List Nat) (some : l ≠ []) : ∀ u : State, ∃ h ∈ (l.foldl (fun s p => s.inject (c.horizonMsg t e p (BitVec.ofNat 96 (lastKey c.id)))) u).net.hops,
      h.msg.horizon = true ∧ h.msg.dest = ringDest e.ring ∧ h.msg.stream = e.stream ∧ h.msg.item.key = BitVec.ofNat 96 (lastKey c.id) := by
    intro u
    obtain ⟨front, last, rfl⟩ := List.eq_nil_or_concat l |>.resolve_left some
    rw [List.concat_eq_append, List.foldl_append]
    exact ⟨_, List.mem_append_right _ (List.mem_singleton.mpr rfl), rfl, rfl, rfl, rfl⟩
  unfold State.closeDesc
  rw [out]
  refine sends _ ?_ f
  split
  · exact List.cons_ne_nil _ _
  · assumption

theorem execShzn_sends (d : Fin 16) (issues : s.Issues t g c) (more : (s.fetched t g c).More t c) (out : (c.d d).state = .openOut) (room : c.noRoom c.prod = false) :
    exec (.shzn t g d) s = .next (((s.fetched t g c).inject (c.horizonMsg t (c.d d) c.prod c.nextKey)).setCore t
      (c.retire (c.setCount c.prod ((c.count c.prod).getD 0)))) := by
  refine exec_done issues more rfl rfl ?_
  simp only [out, room]
  rfl

/-! ### SPUT (R199, R245, R248) -/

/-- The message of SPUT of a clean extent. -/
def State.putMsg (f : State) (t : Nat) (c : Core) (e : Desc) (base len : Nat) (poison : Bool) : Msg :=
  c.msg t (ringDest e.ring) 2 e.stream
    { key := c.nextKey, void := f.voidOf c.id, poison, body := padTo (roundUp len 64) (f.load t c 0 base len) }

/-- The producers that have sent on an output stream, with the current one. -/
def Desc.usedWith (e : Desc) (prod : Nat) : List Nat := if e.used.contains prod then e.used else e.used ++ [prod]

theorem execSput_sends (d : Fin 16) (a b : Fin 32) (issues : s.Issues t g c) (more : (s.fetched t g c).More t c) (out : (c.d d).state = .openOut)
    (low : 4 ≤ (c.s b).toNat) (high : (c.s b).toNat ≤ 2048) (whole : (c.s b).toNat % 4 = 0) (aligned : (c.s a).toNat % 4 = 0)
    (inside : (c.s a).toNat + (c.s b).toNat ≤ 0x40000) (rings : anyOverlap [{ space := 0, base := (c.s a).toNat, len := (c.s b).toNat }] c.rings = false)
    (room : c.noRoom c.prod = false) (left : c.spent = false) (queue : (s.fetched t g c).queueFull t 3 = false)
    (clean : (s.fetched t g c).loadBad t c 0 (c.s a).toNat (c.s b).toNat = false) :
    exec (.sput t g d a b) s = .next ((((s.fetched t g c).inject ((s.fetched t g c).putMsg t c (c.d d) (c.s a).toNat (c.s b).toNat (c.sBad a || c.sBad b))).fly t 3
      [{ space := 0, base := (c.s a).toNat, len := (c.s b).toNat }] []).setCore t (c.retire (c.emitted.setD d { c.d d with used := (c.d d).usedWith c.prod }))) := by
  have size : ¬ ((c.s b).toNat < 4 ∨ 2048 < (c.s b).toNat ∨ (c.s b).toNat % 4 ≠ 0) := by omega
  have checks : firstCause [(6, decide ((c.d d).state ≠ .openOut)), (2, decide ((c.s b).toNat < 4 ∨ 2048 < (c.s b).toNat ∨ (c.s b).toNat % 4 ≠ 0)),
      (5, decide ((c.s a).toNat % 4 ≠ 0)), (4, !(s.fetched t g c).inSpace t { space := 0, base := (c.s a).toNat, len := (c.s b).toNat }),
      (3, anyOverlap [{ space := 0, base := (c.s a).toNat, len := (c.s b).toNat }] c.rings), (8, c.noRoom c.prod)] = none :=
    firstCause_eq_none (by simp [out, size, aligned, inside, rings, room, State.inSpace, State.spaceSize])
  refine exec_done issues more rfl rfl ?_
  simp only [checks, queue, left, clean]
  rfl

/-! ### SGET and SGETNB (R225, R249) -/

/-- The first item released on an internal stream, when it is the job's, is the one that SGET finds. -/
theorem InPort.head_own (p : InPort) (id : JobId) (i : Item) (rest : List Item) (internal : p.kind = 0) (first : p.released = i :: rest) (own : ofJob id i.key = true) :
    p.head id = (p, some i) := by
  have begun : ¬ i.key.toNat < firstKey id := by
    rw [ofJob, decide_eq_true_eq] at own
    omega
  obtain ⟨kind, stream, sources, loose, srcs, released⟩ := p
  cases internal
  cases first
  simp [InPort.head, begun, own]

/-- What SGET leaves when it takes the item `i`, the first of `released`: the stream, the buffer, the job's mask (R249). -/
def State.taken (f : State) (t : Nat) (c : Core) (stream base : Nat) (i : Item) (rest : List Item) (bad : Bool) : State :=
  ((f.modTile t fun x => x.setPort { (f.tile t).port 0 stream with released := rest }).abWrite t base i.copy fun _ => bad).mark c.id i.void

theorem State.get_takes (f : State) (t : Nat) (c : Core) (d : Fin 16) (a b : Fin 32) (pd : Fin 8) (block : Bool) (i : Item) (rest : List Item)
    (opened : (c.d d).state = .openIn) (internal : (c.d d).kind = 0) (aligned : (c.s a).toNat % 4 = 0) (inside : (c.s a).toNat + (c.s b).toNat ≤ 0x40000)
    (rings : anyOverlap [{ space := 0, base := (c.s a).toNat, len := (c.s b).toNat }] c.rings = false)
    (free : anyOverlap [{ space := 0, base := (c.s a).toNat, len := (c.s b).toNat }] (c.held ++ (f.tile t).reads ++ (f.tile t).writes) = false)
    (first : ((f.tile t).port 0 (c.d d).stream).released = i :: rest) (own : ofJob c.id i.key = true) (fits : i.copy.length ≤ (c.s b).toNat) (clean : i.poison = false) :
    f.get t c d a b pd block = .done (((c.setD d { c.d d with last := some i.key }).setP pd true false).setS b (BitVec.ofNat 32 i.copy.length) false)
      (f.taken t c (c.d d).stream (c.s a).toNat i rest (c.sBad a || c.sBad b)) := by
  have checks : firstCause [(5, decide ((c.s a).toNat % 4 ≠ 0)), (4, !f.inSpace t { space := 0, base := (c.s a).toNat, len := (c.s b).toNat }),
      (3, anyOverlap [{ space := 0, base := (c.s a).toNat, len := (c.s b).toNat }] c.rings)] = none :=
    firstCause_eq_none (by simp [aligned, inside, rings, State.inSpace, State.spaceSize])
  have found := ((f.tile t).port 0 (c.d d).stream).head_own c.id i rest (Tile.port_kind _ _ _).1 first own
  have length : ¬ i.copy.length > (c.s b).toNat := Nat.not_lt.mpr fits
  have absent : ¬ (c.d d).state = .absent := by simp [opened]
  have takes : f.get t c d a b pd block = f.takeItem t c d a b pd ((f.tile t).port 0 (c.d d).stream) i := by
    simp only [State.get, if_neg absent, if_neg (not_not.mpr opened), checks, free, internal, found]
    rfl
  rw [takes, State.takeItem]
  simp only [if_neg length, clean, Bool.false_or, first, List.drop_one, List.tail_cons]
  rfl

/-- What is left of the tile, the job and everything else when SGET has taken an item. -/
theorem State.taken_effect (f : State) (t : Nat) (c k : Core) (stream base : Nat) (i : Item) (rest : List Item) (bad : Bool) :
    let u := (f.taken t c stream base i rest bad).setCore t k
    (u.tile t).core = some k ∧ ((u.tile t).port 0 stream).released = rest ∧
      (∀ m, base + i.copy.length ≤ m ∨ m < base → (u.tile t).abuf.byte m = (f.tile t).abuf.byte m) ∧
      (∀ m, m < i.copy.length → (u.tile t).abuf.byte (base + m) = i.copy.getD m 0) ∧
      u.voidOf c.id = (if (f.job c.id).isSome then f.voidOf c.id ||| i.void else 0) ∧
      (∀ n, n ≠ t → u.tile n = f.tile n) ∧ u.net = f.net ∧ u.resv = f.resv ∧ u.regs = f.regs ∧ u.kept = f.kept := by
  intro u
  let x := (f.tile t).setPort { (f.tile t).port 0 stream with released := rest }
  have tile : (f.taken t c stream base i rest bad).tile t = x.abWrite base i.copy fun _ => bad := by
    rw [State.taken, State.mark_tile, State.abWrite, State.tile_modTile_same, State.tile_modTile_same]
  have ports : (u.tile t).port 0 stream = x.port 0 stream := by
    rw [State.setCore_port]
    exact Tile.port_of_ports (by rw [tile]; rfl) 0 stream
  have abuf : (u.tile t).abuf = (f.tile t).abuf.puts base i.copy := by
    rw [State.setCore_abuf, tile]
    rfl
  refine ⟨State.setCore_core _ _ _, ?port, ?outside, ?inside, ?void, ?others, ?net, ?resv, ?regs, ?kept⟩
  case port =>
    rw [ports]
    exact congrArg InPort.released ((f.tile t).port_setPort_of (p := { (f.tile t).port 0 stream with released := rest }) (Tile.port_kind _ 0 stream).1 (Tile.port_kind _ 0 stream).2)
  case outside =>
    intro m out
    rw [abuf, Mem.byte_puts_out _ _ _ _ out.symm]
  case inside =>
    intro m within
    rw [abuf, Mem.byte_puts, if_pos (by omega), Nat.add_sub_cancel_left]
  case void => exact State.voidOf_mark _ c.id i.void
  case net => rw [State.setCore_net, State.taken, State.mark_net, State.abWrite_net, State.modTile_net]
  case resv => rw [State.setCore_resv, State.taken, State.mark_resv, State.abWrite_resv, State.modTile_resv]
  case regs => rw [State.setCore_regs, State.taken, State.mark_regs, State.abWrite_regs, State.modTile_regs]
  case kept => rw [State.setCore_kept, State.taken, State.mark_kept, State.abWrite_kept, State.modTile_kept]
  case others =>
    intro n other
    rw [State.setCore_tile_ne _ _ _ _ other, State.taken, State.mark_tile, State.abWrite, State.tile_modTile, if_neg other, State.tile_modTile, if_neg other]

end

/-- Settles O16, instruction by instruction: the state that each leaves, read by the rules of tiles, streams and messages. -/
theorem streamResults : Obligations.StreamResults := by
  intro s t g c d issues more f e ring
  refine ⟨?openIn, ?openAbsent, ?openOut, ?closeAbsent, ?closeOut, ?horizon, ?put, ?get, ?poll⟩
  case openIn =>
    intro checked there
    refine ⟨_, execSopenIn_opens d issues more checked there, State.setCore_core _ _ _, fun internal => ?_, ?_, fun n => State.setCore_modTile_ne _ _ n _ _, rfl, rfl, ?_⟩
    · have stream : ((f.modTile t fun x => x.setPort (f.openedPort t c e)).tile t).port 0 e.stream = f.openedPort t c e := by
        rw [State.tile_modTile_same]
        exact Tile.port_setPort_of _ ((Tile.port_kind _ _ _).1.trans internal) (Tile.port_kind _ _ _).2
      rw [State.setCore_port, stream]
      refine ⟨if_pos internal, (if_pos internal).trans ?_⟩
      rw [internal]
    · rw [State.setCore_abuf, State.tile_modTile_same]
      rfl
    · rw [State.setCore_kept, State.modTile_kept]
  case openAbsent => exact execSopenIn_absent d issues more
  case openOut => exact fun credit => execSopenOut_opens d credit issues more
  case closeAbsent =>
    intro absent
    have state : (c.d d).state = .absent := absent
    have ran := execSclose_closes d issues more (by simp [state]) (by simp [state])
    rwa [State.closeDesc, state] at ran
  case closeOut =>
    intro out sent
    have state : (c.d d).state = .openOut := out
    refine ⟨_, execSclose_closes d issues more (by simp [state]) fun _ => sent, State.setCore_core _ _ _, ?_⟩
    exact State.closeDesc_horizon f t c e out
  case horizon => exact fun out room => execShzn_sends d issues more out room
  case put =>
    intro a b x out low high whole aligned inside rings room left queue clean
    have ran := execSput_sends d a b issues more out low high whole aligned inside rings room left queue clean
    have length : (f.load t c 0 x.base x.len).length = x.len := Mem.length_bytes _ _ _
    let m := f.putMsg t c e x.base x.len (c.sBad a || c.sBad b)
    refine ⟨_, _, { place := nodeOf m.src, msg := m, here := m.flits, left := m.flits }, ran, State.setCore_core _ _ _, ?count, ?sreg, ?preg, ?areg, ?sent, ?dest, ?cls, ?onStream, ?key, ?body, ?length, ?abuf, ?resv, ?regs, ?kept⟩
    case sreg => rfl
    case preg => rfl
    case areg => rfl
    case sent => rfl
    case dest => rfl
    case cls => rfl
    case onStream => rfl
    case key => rfl
    case resv => rw [State.setCore_resv, State.fly, State.modTile_resv, State.inject_resv]
    case regs =>
      rw [State.setCore_regs, State.fly, State.modTile_regs]
      rfl
    case count => exact Core.setCount_count c c.prod _
    case length => exact padTo_length _ _
    case body =>
      have body := padTo_take (roundUp x.len 64) (f.load t c 0 x.base x.len) (by rw [length]; exact le_roundUp _ _ (by decide))
      rwa [length] at body
    case abuf =>
      rw [State.setCore_abuf, State.fly, State.tile_modTile_same]
      rfl
    case kept => rw [State.setCore_kept, State.fly_kept, State.inject_kept]
  case get =>
    intro a b pd i rest x opened internal aligned inside rings free first own fits clean got
    have taken (block : Bool) := f.get_takes t c d a b pd block i rest opened internal aligned inside rings free first own fits clean
    refine ⟨⟨_, exec_done issues more rfl rfl (taken true), State.taken_effect f t c _ _ _ i rest _⟩, fun profile => ?_⟩
    exact ⟨_, exec_done issues more rfl (by rw [notProfile, profile]; rfl) (taken false), State.taken_effect f t c _ _ _ i rest _⟩
  case poll =>
    intro dst profile opened
    refine exec_done issues more rfl (by rw [notProfile, profile]; rfl) ?_
    exact congrArg (fun v => NtRes.done (c.setS dst v false) f) (if_pos opened)

end Sys2Proof.Machine
end

section
/-! SUPPORT. The master election and the steps of the counter (03 R66, R67; 15 R405, R407): obligation O30. -/

namespace Sys2Proof.Machine

section
variable (s : State) (t : Time)

/-! ### The counter that an event finds -/

/-- An event's time moves the time unit alone. -/
theorem State.tick_only : { s.tick t with time := s.time } = s := by
  unfold State.tick
  split <;> rfl

theorem State.tick_link : (s.tick t).link = s.link := (congrArg State.link (s.tick_only t) :)
theorem State.tick_jobs : (s.tick t).jobs = s.jobs := (congrArg State.jobs (s.tick_only t) :)
theorem State.tick_logs : (s.tick t).logs = s.logs := (congrArg State.logs (s.tick_only t) :)

theorem State.tick_masters : (s.tick t).time.master = s.time.master ∧ (s.tick t).time.syncsSent = s.time.syncsSent := by
  unfold State.tick TimeUnit.setClock
  split_ifs <;> exact ⟨rfl, rfl⟩

theorem State.tick_eq (live : s.time.replay = false) (runs : s.time.runs = true) : s.tick t = { s with time := { s.time with now := max s.time.now t } } := by
  rw [State.tick, if_pos runs, s.time.clock_live live, s.time.setClock_live _ live]

/-- The counter moves once, however often a row looks at its time. -/
theorem State.at_tick (live : s.time.replay = false) (runs : s.time.runs = true) : (s.at t).tick t = s.tick t := by
  have running : s.time.running = true := (if_neg (Bool.eq_false_iff.mp live) : s.time.runs = s.time.running) ▸ runs
  have seen : s.at t = { s with time := { s.time with now := max s.time.now t } } := if_pos (by rw [running, live]; rfl)
  rw [seen, s.tick_eq t live runs, State.tick_eq { s with time := { s.time with now := max s.time.now t } } t live runs]
  dsimp only
  rw [max_assoc, max_self]

/-! ### The master followed (R405) -/

/-- The time unit after a master's data set: the master followed, and when it was last heard. -/
def TimeUnit.heard (u : TimeUnit) (m : List Nat) (take : Bool) : TimeUnit :=
  { u with lastAnnounce := if take ∨ u.master = some m then u.clock else u.lastAnnounce, master := if take then some m else u.master }

theorem TimeUnit.heard_followed (u : TimeUnit) (m : List Nat) : u.heard m true = { u with lastAnnounce := u.clock, master := some m } := by
  simp only [TimeUnit.heard, true_or, if_true]

theorem TimeUnit.heard_passed (u : TimeUnit) (m : List Nat) : (u.heard m false).master = u.master := rfl

theorem execPtpAnnounceReceive_heard (m : List Nat) (disciplined : (s.reg 0x4010).getLsbD 1 = false) (up : s.slaveUp = true) :
    exec (.ptpAnnounceReceive m t) s = .next { s.tick t with time := (s.tick t).time.heard m (match (s.tick t).time.master with | none => true | some old => betterMaster m old) } := by
  have up_t : (s.tick t).slaveUp = true := by
    have same : (s.tick t).slaveUp = s.slaveUp := by
      unfold State.tick
      split <;> rfl
    rw [same, up]
  have disciplined_t : ((s.tick t).reg 0x4010).getLsbD 1 = false := by rw [s.tick_reg, disciplined]
  exact congrArg Host.Outcome.next (if_neg ((s.tick t).sync_accepted disciplined_t up_t))

/-! ### Sync of a boundary clock (R405) -/

/-- A boundary clock serves a port: its die has revision B, the port is not the slave's, is in service, enabled for PTP, and its link is up. -/
def State.servesPort (s : State) (die : Fin 2) (port : Fin 4) : Prop :=
  (s.reg 0x4010).getLsbD 4 = true ∧ s.fuses.series ≠ 1 ∧ 4 * die.val + port.val ≠ (s.reg 0x4010).toNat / 32 % 8 ∧ s.mesaLive die = true ∧ s.ethEn die port = true ∧
    (s.reg (ethBase die port)).getLsbD 3 = true ∧ s.ingress[die].ethUp[port] = true

/-- Syncs sent on a port. -/
def TimeUnit.syncs (u : TimeUnit) (n : Nat) : Nat := match u.syncsSent.find? fun e => decide (e.1 = n) with | some e => e.2 | none => 0

/-- The time unit once a Sync has been sent on a port. -/
def TimeUnit.sentSync (u : TimeUnit) (n : Nat) : TimeUnit :=
  { u with syncsSent := (u.syncsSent.filter fun (e : Nat × Nat) => decide (e.1 ≠ n)) ++ [(n, u.syncs n + 1)] }

theorem TimeUnit.syncs_sentSync (u : TimeUnit) (n : Nat) : (u.sentSync n).syncs n = u.syncs n + 1 := by
  have others : (u.syncsSent.filter fun (e : Nat × Nat) => decide (e.1 ≠ n)).find? (fun e => decide (e.1 = n)) = none :=
    List.find?_eq_none.mpr fun e mem => by simpa using (List.mem_filter.mp mem).2
  have found : (u.sentSync n).syncsSent.find? (fun e => decide (e.1 = n)) = some (n, u.syncs n + 1) := by
    rw [TimeUnit.sentSync, List.find?_append, others]
    simp
  rw [TimeUnit.syncs, found]

theorem State.tick_servesPort (die : Fin 2) (port : Fin 4) : (s.tick t).servesPort die port = s.servesPort die port := by
  unfold State.tick
  split <;> rfl

/-- While station time runs, a Sync goes out on a port exactly when the clock serves it. -/
theorem execPtpMasterSyncSend_sends (die : Fin 2) (port : Fin 4) (disciplined : (s.reg 0x4010).getLsbD 1 = false) (runs : s.time.runs = true) :
    (s.servesPort die port → exec (.ptpMasterSyncSend die port t) s = .next { s.tick t with time := (s.tick t).time.sentSync (4 * die.val + port.val) }) ∧
    (¬ s.servesPort die port → exec (.ptpMasterSyncSend die port t) s = .next (s.tick t)) := by
  rw [← s.tick_servesPort t]
  have ctl : bit (s.tick t).timeCtl 1 = false := by rw [bit, State.timeCtl, s.tick_reg, disciplined]
  have slave : fld (s.tick t).timeCtl 7 5 = ((s.tick t).reg 0x4010).toNat / 32 % 8 := fld_eq _ 7 5
  have on : (s.tick t).time.runs = true := (s.tick_keeps t).1.trans runs
  constructor
  · rintro ⟨clock, series, other, live, enabled, ptp, up⟩
    refine congrArg Host.Outcome.next (if_neg ?_)
    rw [ctl, slave, on, live, enabled, show bit (s.tick t).timeCtl 4 = true from clock, show bit ((s.tick t).reg (ethBase die port)) 3 = true from ptp, up]
    simpa using ⟨series, other⟩
  · intro unserved
    refine congrArg Host.Outcome.next (if_pos ?_)
    by_contra serves
    simp only [not_or, Bool.not_eq_true', Bool.not_eq_false, slave] at serves
    obtain ⟨-, clock, series, other, -, live, enabled, ptp, up⟩ := serves
    exact unserved ⟨clock, series, other, live, enabled, ptp, up⟩

end

section
variable (s : State) (t : Time)

/-! ### Flags and answers of the time unit (R384, R396) -/

theorem State.timeFlag_reported (b : Nat) : s.Reported (s.timeFlag b) := by
  unfold State.timeFlag
  exact .ite ((s.reported_setFlag _ _).trans (State.reported_signal _ _)) (s.reported_setFlag _ _)

theorem State.timeFlag_bit (b : Nat) (h : b < 32) : ((s.timeFlag b).reg 0x4014).getLsbD b = true := by
  unfold State.timeFlag
  dsimp only
  split
  · rw [State.signal_reg, State.setFlag_bit _ _ _ h]
  · exact State.setFlag_bit _ _ _ h

theorem State.timeFlag_made (b : Nat) : (s.timeFlag b).logs.made.length = s.logs.made.length := by
  unfold State.timeFlag
  dsimp only
  split
  · exact (State.signal_recorded _ _).2
  · rfl

theorem State.stepRefused_flag (n : Int) : ((s.stepRefused n).reg 0x4014).getLsbD 4 = true := State.timeFlag_bit _ 4 (by decide)

/-- The answer of an admin command touches the host link alone. -/
theorem State.adminDone_only (c : HpCmd) (status detail result : Nat) : { s.adminDone c status detail result with link := s.link } = s :=
  (congrArg (fun u : State => { u with link := s.link }) (State.hpDone_link { s with link := { s.link with adminNow := none } } c status detail result) :)

/-- The admin command that ran has gone, and its completion waits. -/
theorem State.adminDone_link (c : HpCmd) (status detail result : Nat) (queue : c.queue ≠ 256) : (s.adminDone c status detail result).link.adminNow = none ∧
    ∃ d ∈ (s.adminDone c status detail result).link.done, d.cmd = c ∧ d.status = status := by
  constructor
  · unfold State.adminDone State.hpDone
    dsimp only
    rw [if_neg queue]
    rfl
  · rw [State.adminDone, State.hpDone_done _ _ _ _ _ queue]
    exact ⟨_, List.mem_append_right _ (List.mem_singleton.mpr rfl), rfl, rfl⟩

theorem State.stepReply_only (status : Nat) : { s.stepReply status with link := s.link } = s := by
  unfold State.stepReply
  split
  · rfl
  · exact (congrArg (fun u : State => { u with link := s.link }) (State.adminDone_only { s with link := { s.link with stepCmd := none } } _ status 0 0) :)

/-! ### The command TIME_STEP (R66, R407) -/

section
variable (c : HpCmd)

/-- What TIME_STEP leaves of the state that its row finds, where the servo has no step pending. -/
def State.stepAsked (w : State) (c : HpCmd) : State :=
  if c.stepBy = 0 then w.adminDone c 0 0 0
  else if c.stepBy < 0 then (w.fault 0 none { cls := 0x0004, sev := 0, kind := 6, index := 0, detail := toTwos 32 c.stepBy }).adminDone c 4 0 0
  else if ((w.reg 0x4020).toNat : Int) < c.stepBy then (w.stepRefused c.stepBy).adminDone c 4 0 0
  else { w with
    time := { w.time with step := some (c.stepBy.toNat, w.time.clock, true) }
    link := { w.link with stepCmd := some c } }

theorem execTimeStep_asked (live : s.time.replay = false) (runs : s.time.runs = true) (current : s.link.adminNow = some c) (op : byteAt c.bytes 0 = 6)
    (idle : s.time.step = none) : exec (.timeStep t) s = .next ((s.tick t).stepAsked c) := by
  have taken : ¬ (byteAt c.bytes 0 ≠ 6 ∨ (s.tick t).time.step.isSome = true) := by
    rw [s.tick_time t live runs, idle, op]
    simp
  have on : (s.tick t).time.runs = true := (s.tick_keeps t).1.trans runs
  rw [show exec (.timeStep t) s = execTimeStep t s from rfl, execTimeStep, s.at_tick t live runs, State.stepAsked]
  simp only [s.tick_link, current, if_neg taken, on, Bool.not_true, Bool.false_eq_true, false_or]

/-- What the claims say of TIME_STEP, for a state `w` whose counter the row has moved. -/
theorem State.stepAsked_results (w : State) (live : w.time.replay = false) (idle : w.time.step = none) (queue : c.queue ≠ 256) (current : w.link.adminNow = some c) :
    (w.stepAsked c).time.now = w.time.now ∧
    (c.stepBy = 0 → (w.stepAsked c).link.adminNow = none ∧ (w.stepAsked c).time.step = none ∧ ∃ d ∈ (w.stepAsked c).link.done, d.cmd = c ∧ d.status = 0) ∧
    (c.stepBy < 0 → (w.stepAsked c).link.adminNow = none ∧ (w.stepAsked c).time.step = none ∧ (w.stepAsked c).logs.made.length = w.logs.made.length + 1 ∧
      ∃ d ∈ (w.stepAsked c).link.done, d.cmd = c ∧ d.status = 4) ∧
    (0 < c.stepBy → c.stepBy ≤ (w.reg 0x4020).toNat → (w.stepAsked c).time.step = some (c.stepBy.toNat, w.time.now, true) ∧ (w.stepAsked c).link.adminNow = some c ∧
      (w.stepAsked c).link.stepCmd = some c) ∧
    ((w.reg 0x4020).toNat < c.stepBy → (w.stepAsked c).link.adminNow = none ∧ (w.stepAsked c).time.step = none ∧ (w.stepAsked c).time.slew = c.stepBy ∧
      ((w.stepAsked c).reg 0x4014).getLsbD 4 = true ∧ ∃ d ∈ (w.stepAsked c).link.done, d.cmd = c ∧ d.status = 4) := by
  have answered (u : State) (status : Nat) := u.adminDone_only c status 0 0
  have linked (u : State) (status : Nat) := u.adminDone_link c status 0 0 queue
  by_cases zero : c.stepBy = 0
  · have left : w.stepAsked c = w.adminDone c 0 0 0 := if_pos zero
    have time : (w.adminDone c 0 0 0).time = w.time := (congrArg State.time (answered w 0) :)
    rw [left, time]
    exact ⟨rfl, fun _ => ⟨(linked w 0).1, idle, (linked w 0).2⟩, fun _ => by omega, fun _ => by omega, fun _ => by omega⟩
  by_cases back : c.stepBy < 0
  · let v := w.fault 0 none { cls := 0x0004, sev := 0, kind := 6, index := 0, detail := toTwos 32 c.stepBy }
    have left : w.stepAsked c = v.adminDone c 4 0 0 := (if_neg zero).trans (if_pos back)
    have time : (v.adminDone c 4 0 0).time = w.time := (congrArg State.time (answered v 4) :).trans (w.reported_fault _ _ _).time
    have logs : (v.adminDone c 4 0 0).logs = v.logs := (congrArg State.logs (answered v 4) :)
    rw [left, time, logs]
    exact ⟨rfl, fun _ => by omega, fun _ => ⟨(linked v 4).1, idle, w.fault_made _ _ _, (linked v 4).2⟩, fun _ => by omega, fun _ => by omega⟩
  by_cases large : ((w.reg 0x4020).toNat : Int) < c.stepBy
  · let v := w.stepRefused c.stepBy
    have left : w.stepAsked c = v.adminDone c 4 0 0 := (if_neg zero).trans ((if_neg back).trans (if_pos large))
    have time : (v.adminDone c 4 0 0).time = { w.time with step := none, slew := c.stepBy } := (congrArg State.time (answered v 4) :).trans (w.stepRefused_time _)
    have flag : ((v.adminDone c 4 0 0).reg 0x4014).getLsbD 4 = true := by
      rw [State.reg, show (v.adminDone c 4 0 0).regs = v.regs from (congrArg State.regs (answered v 4) :)]
      exact w.stepRefused_flag _
    rw [left, time]
    exact ⟨rfl, fun _ => by omega, fun _ => by omega, fun _ _ => by omega, fun _ => ⟨(linked v 4).1, rfl, rfl, flag, (linked v 4).2⟩⟩
  · have left : w.stepAsked c = { w with time := { w.time with step := some (c.stepBy.toNat, w.time.clock, true) }, link := { w.link with stepCmd := some c } } :=
      (if_neg zero).trans ((if_neg back).trans (if_neg large))
    rw [left, w.time.clock_live live]
    exact ⟨rfl, fun _ => by omega, fun _ => by omega, fun _ _ => ⟨rfl, current, rfl⟩, fun h => absurd h large⟩

end

/-! ### Pending steps (R407) -/

/-- A step's outcome, answered where a command asked for it. -/
def State.answered (w : State) (cmd : Bool) (status : Nat) : State := if cmd then w.stepReply status else w

theorem State.answered_only (w : State) (cmd : Bool) (status : Nat) : { w.answered cmd status with link := w.link } = w := by
  unfold State.answered
  split
  · exact w.stepReply_only status
  · rfl

theorem State.answered_time (w : State) (cmd : Bool) (status : Nat) : (w.answered cmd status).time = w.time := (congrArg State.time (w.answered_only cmd status) :)
theorem State.answered_jobs (w : State) (cmd : Bool) (status : Nat) : (w.answered cmd status).jobs = w.jobs := (congrArg State.jobs (w.answered_only cmd status) :)
theorem State.answered_regs (w : State) (cmd : Bool) (status : Nat) : (w.answered cmd status).regs = w.regs := (congrArg State.regs (w.answered_only cmd status) :)

/-- The state with a step of the counter made. -/
def State.stepped (w : State) (n : Nat) : State := ({ w with time := { w.time.setClock (w.time.clock + n) with step := none } }).timeFlag 3

variable {n req : Nat} {cmd : Bool}

theorem execTimeStepApply_pending (pending : s.time.step = some (n, req, cmd)) (live : s.time.replay = false) (runs : s.time.runs = true) :
    exec (.timeStepApply t) s = .next (if req + 10000000 < max s.time.now t ∨ (s.tick t).reservationNow = true then s.tick t else ((s.tick t).stepped n).answered cmd 0) := by
  have time := s.tick_time t live runs
  have clock : (s.tick t).time.clock = max s.time.now t := by rw [time]; exact TimeUnit.clock_live _ live
  have step : (s.tick t).time.step = some (n, req, cmd) := by rw [time]; exact pending
  rw [show exec (.timeStepApply t) s = execTimeStepApply t s from rfl, execTimeStepApply]
  dsimp only
  rw [step, ← clock]
  rfl

theorem execTimeStepTimeout_pending (pending : s.time.step = some (n, req, cmd)) (live : s.time.replay = false) (runs : s.time.runs = true) :
    exec (.timeStepTimeout t) s = .next (if max s.time.now t < req + 10000000 then s.tick t else ((s.tick t).stepRefused n).answered cmd 4) := by
  have time := s.tick_time t live runs
  have clock : (s.tick t).time.clock = max s.time.now t := by rw [time]; exact TimeUnit.clock_live _ live
  have step : (s.tick t).time.step = some (n, req, cmd) := by rw [time]; exact pending
  rw [show exec (.timeStepTimeout t) s = execTimeStepTimeout t s from rfl, execTimeStepTimeout]
  dsimp only
  rw [step, ← clock]
  rfl

/-- Where every reservation is over or ahead at the moment, none is current. -/
theorem State.reservationNow_none (w : State) (free : ∀ j ∈ w.jobs, j.reserved = true → w.time.now < j.start ∨ j.end_ ≤ w.time.now) : w.reservationNow = false := by
  refine List.any_eq_false.mpr fun j mem current => ?_
  rw [Bool.and_eq_true, decide_eq_true_eq] at current
  obtain ⟨reserved, begun, open_⟩ := current
  exact (free j mem reserved).elim begun.not_gt open_.not_ge

/-! ### The limits of TIME (R67) -/

theorem execStampEpochNear_warns (near : 2 ^ 57 - 2 ^ 52 ≤ (s.tick t).time.clock) (first : (s.tick t).time.epochNearMade = false) :
    exec (.stampEpochNear t) s = .next ((State.timeFlag { s.tick t with time := { (s.tick t).time with epochNearMade := true } } 6).fault 0 none { cls := 0x0005, sev := 0, kind := 6, index := 0 }) :=
  congrArg Host.Outcome.next (if_neg (by rw [first]; simpa using near))

theorem execStampEpochNear_early (early : (s.tick t).time.clock < 2 ^ 57 - 2 ^ 52) : exec (.stampEpochNear t) s = .next (s.tick t) :=
  congrArg Host.Outcome.next (if_pos (.inl early))

theorem execStampLimit_early (early : (s.tick t).time.clock < 2 ^ 57) : exec (.stampLimit t) s = .next (s.tick t) :=
  congrArg Host.Outcome.next (if_pos early)

theorem execStampLimit_stops (live : s.time.replay = false) (runs : s.time.runs = true) (reached : 2 ^ 57 ≤ max s.time.now t) :
    exec (.stampLimit t) s = .next { s with time := { s.time with now := max s.time.now t, limit := true } } := by
  have tick := s.tick_eq t live runs
  have clock : (s.tick t).time.clock = max s.time.now t := by rw [tick]; exact TimeUnit.clock_live _ live
  refine (congrArg Host.Outcome.next (if_neg (Nat.not_lt.mpr (clock ▸ reached)))).trans ?_
  rw [tick, if_neg (Bool.eq_false_iff.mp live)]

end

theorem ptpMasterResults : Sys2Proof.Claims.PtpMasterResults := by
  intro s t runs disciplined
  refine ⟨fun up m => ⟨?stays, ?follows⟩, fun die port => ?sync⟩
  case stays =>
    intro old followed worse
    have heard := execPtpAnnounceReceive_heard s t m disciplined up
    rw [(s.tick_masters t).1, followed] at heard
    simp only [worse] at heard
    exact ⟨_, heard, (TimeUnit.heard_passed _ m).trans ((s.tick_masters t).1.trans followed), s.tick_only t⟩
  case follows =>
    intro better
    have take : (match (s.tick t).time.master with | none => true | some old => betterMaster m old) = true := by
      rw [(s.tick_masters t).1]
      cases followed : s.time.master with
      | none => rfl
      | some old => exact better old followed
    have heard := execPtpAnnounceReceive_heard s t m disciplined up
    rw [take, TimeUnit.heard_followed] at heard
    exact ⟨_, heard, rfl, rfl, s.tick_only t⟩
  case sync =>
    obtain ⟨serves, unserved⟩ := execPtpMasterSyncSend_sends s t die port disciplined runs
    have before : (s.tick t).time.syncs (4 * die.val + port.val) = s.time.syncs (4 * die.val + port.val) := by
      rw [TimeUnit.syncs, (s.tick_masters t).2]
      rfl
    by_cases h : s.servesPort die port
    · exact ⟨_, serves h, s.tick_only t, fun _ => (TimeUnit.syncs_sentSync _ _).trans (congrArg (· + 1) before), fun no => absurd h no⟩
    · exact ⟨_, unserved h, s.tick_only t, fun yes => absurd yes h, fun _ => before⟩

theorem timeStepResults : Sys2Proof.Claims.TimeStepResults := by
  intro s t runs live now
  have time : (s.tick t).time = { s.time with now := now } := s.tick_time t live runs
  have clock : (s.tick t).time.clock = now := by rw [time]; exact TimeUnit.clock_live _ live
  refine ⟨?command, ?pending, ?near, ?notNear, ?limit, ?notLimit⟩
  case command =>
    intro c current op idle queue
    have ran := execTimeStep_asked s t c live runs current op idle
    obtain ⟨moved, zero, back, queued, refused⟩ := State.stepAsked_results c (s.tick t) (by rw [time]; exact live) (by rw [time]; exact idle) queue (by rw [s.tick_link, current])
    rw [s.tick_logs] at back
    rw [s.tick_reg, time] at queued
    rw [s.tick_reg] at refused
    exact ⟨_, ran, moved.trans (by rw [time]), (execTimeStep_keeps t s).next ran, zero, back, queued, refused⟩
  case pending =>
    intro n req cmd pending
    have apply := execTimeStepApply_pending s t pending live runs
    have timeout := execTimeStepTimeout_pending s t pending live runs
    refine ⟨fun within free => ?_, fun late => ?_, fun late => ?_, fun early => timeout.trans (by rw [if_pos early])⟩
    · have idle : (s.tick t).reservationNow = false := by
        refine State.reservationNow_none _ ?_
        rw [s.tick_jobs, time]
        exact free
      rw [if_neg (not_or.mpr ⟨Nat.not_lt.mpr within, Bool.eq_false_iff.mp idle⟩)] at apply
      have stepped : ((s.tick t).stepped n).time = { s.time with now := now + n, step := none } := by
        rw [State.stepped, State.timeFlag_time, clock, time]
        exact congrArg (fun u : TimeUnit => { u with step := none }) (TimeUnit.setClock_live { s.time with now := now } _ live)
      refine ⟨_, apply, ?_, ?_, ?_, (execTimeStepApply_keeps t s).next apply, ?_⟩
      · rw [State.answered_time, stepped]
      · rw [State.answered_time, stepped]
      · rw [State.reg, State.answered_regs]
        exact State.timeFlag_bit _ 3 (by decide)
      · rw [State.answered_jobs, State.stepped, (State.timeFlag_reported _ _).jobs]
        exact s.tick_jobs t
    · exact ⟨_, apply.trans (by rw [if_pos (.inl late)]), by rw [time], by rw [time]⟩
    · rw [if_neg (Nat.not_lt.mpr late)] at timeout
      refine ⟨_, timeout, ?_, ?_, ?_, ?_⟩
      · rw [State.answered_time, State.stepRefused_time, time]
      · rw [State.answered_time, State.stepRefused_time]
      · rw [State.answered_time, State.stepRefused_time]
      · rw [State.reg, State.answered_regs]
        exact State.stepRefused_flag _ _
  case near =>
    intro near first
    have ran := execStampEpochNear_warns s t (clock ▸ near) (by rw [time]; exact first)
    refine ⟨_, ran, ?_, ?_, ?_⟩
    · rw [(State.reported_fault _ _ _ _).time, State.timeFlag_time]
    · rw [State.reg, (State.fault_recorded _ _ _ _ rfl).regs]
      exact State.timeFlag_bit _ 6 (by decide)
    · rw [State.fault_made, State.timeFlag_made]
      exact congrArg (fun l : Logs => l.made.length + 1) (s.tick_logs t)
  case notNear => exact fun early => execStampEpochNear_early s t (clock ▸ early)
  case limit =>
    intro reached
    refine ⟨_, execStampLimit_stops s t live runs reached, rfl, ?_, rfl⟩
    exact Bool.and_false _
  case notLimit => exact fun early => execStampLimit_early s t (clock ▸ early)

/-- Settles O30: the master by its data set, the steps by the state of the counter that each row finds. -/
theorem ptpAndStepResults : Obligations.PtpAndStepResults := ⟨ptpMasterResults, timeStepResults⟩

end Sys2Proof.Machine
end

section
/-! SUPPORT. Replay: station time set aside and given back, the clock that the log moves, injected events (03 R93, R94; 15 R401): obligation O31. -/

namespace Sys2Proof.Machine

section
variable (s : State)

/-! ### Chips' states at the end of a replay (R94; log 57) -/

theorem State.port_fin (n : Fin 4) : s.port n = s.ports[n] := by
  simp [State.port, List.getD]

/-- A port at the end of a replay: its log is gone, and its present state is noted under a stamp. -/
def DflPort.replayed (d : DflPort) (st : Stamp) : DflPort :=
  { d with logged := [], history := d.history ++ [{ stamp := st, up := d.up, seated := d.seated, attached := d.attached, held := d.held }] }

/-- Outside a replay a chip's present state is noted. -/
theorem State.noteChip_live (p : Nat) (st : Stamp) (live : s.time.replay = false) : s.noteChip p st = s.setPort p
    { s.port p with history := (s.port p).history ++ [{ stamp := st, up := (s.port p).up, seated := (s.port p).seated, attached := (s.port p).attached, held := (s.port p).held }] } :=
  if_neg (Bool.eq_false_iff.mp live)

/-- The end of a replay at one port. -/
def State.endLog (s : State) (p : Nat) : State := (s.setPort p { s.port p with logged := [] }).noteChip p (chipStamp p s.time.now)

theorem State.endLog_only (p : Nat) : { s.endLog p with ports := s.ports } = s := by
  unfold State.endLog State.noteChip
  dsimp only
  split <;> rfl

theorem State.endLog_time (p : Nat) : (s.endLog p).time = s.time := (congrArg State.time (s.endLog_only p) :)

theorem State.endLog_port (p q : Fin 4) (live : s.time.replay = false) :
    (s.endLog p).port q = if q = p then (s.port p).replayed (chipStamp p s.time.now) else s.port q := by
  rw [State.endLog, State.noteChip_live (s.setPort p _) p _ live]
  split
  next same =>
    rw [same, State.port_setPort_same, State.port_setPort_same]
    rfl
  next other => rw [State.port_setPort_ne _ _ _ _ (Fin.val_ne_of_ne other), State.port_setPort_ne _ _ _ _ (Fin.val_ne_of_ne other)]

/-- The ports of a list, each once: those are at their replay's end, the others and everything else as before. -/
theorem State.endLogs (l : List (Fin 4)) (once : l.Nodup) (u : State) (live : u.time.replay = false) :
    { l.foldl (fun (s : State) (p : Fin 4) => s.endLog p) u with ports := u.ports } = u ∧
      ∀ q : Fin 4, (l.foldl (fun (s : State) (p : Fin 4) => s.endLog p) u).port q = if q ∈ l then (u.port q).replayed (chipStamp q u.time.now) else u.port q := by
  induction l generalizing u with
  | nil => exact ⟨rfl, fun q => (if_neg List.not_mem_nil).symm⟩
  | cons p l ih =>
    obtain ⟨new, rest⟩ := List.nodup_cons.mp once
    obtain ⟨only, ports⟩ := ih rest (u.endLog p) ((congrArg TimeUnit.replay (u.endLog_time p)).trans live)
    rw [u.endLog_time] at ports
    refine ⟨(congrArg (fun x : State => { x with ports := u.ports }) only :).trans (u.endLog_only p), fun q => ?_⟩
    rw [List.foldl_cons, ports q, u.endLog_port p q live]
    by_cases first : q = p
    · subst first
      rw [if_neg new, if_pos rfl, if_pos List.mem_cons_self]
    · rw [if_neg first]; simp only [List.mem_cons, first, false_or]

/-! ### The start and the end of a session (R93, R94) -/

/-- The time unit with live station time set aside, and the replay clock at the first logged stamp. -/
def TimeUnit.setAside (u : TimeUnit) (first : Time) : TimeUnit :=
  { u with replay := true, live := u.now, liveRunning := u.running, liveLimit := u.limit, now := first, running := true, limit := false }

/-- The time unit with live station time given back. -/
def TimeUnit.givenBack (u : TimeUnit) : TimeUnit :=
  { u with replay := false, now := u.live, running := u.liveRunning, limit := u.liveLimit, live := 0, liveRunning := false, liveLimit := false }

theorem execReplayStart_opens (first : Time) (live : s.time.replay = false) : exec (.replayStart first) s =
    .next { s with time := s.time.setAside first, link := { s.link with lastInject := none, admits := [] }, ports := s.ports.map DflPort.startLog } :=
  congrArg Host.Outcome.next (if_neg (Bool.eq_false_iff.mp live))

theorem execReplayEnd_closes (replay : s.time.replay = true) : ∃ e, exec .replayEnd s = .next e ∧ e.time = s.time.givenBack ∧ { e with time := s.time, ports := s.ports } = s ∧
    ∀ p : Fin 4, e.ports[p] = s.ports[p].replayed (chipStamp p s.time.live) := by
  have ran : exec .replayEnd s = .next ((List.finRange 4).foldl (fun (s : State) (p : Fin 4) => s.endLog p) { s with time := s.time.givenBack }) :=
    congrArg Host.Outcome.next (if_neg (by rw [replay]; decide))
  obtain ⟨only, ports⟩ := State.endLogs (List.finRange 4) (List.nodup_finRange 4) { s with time := s.time.givenBack } rfl
  refine ⟨_, ran, (congrArg State.time only :), (congrArg (fun x : State => { x with time := s.time }) only :), fun p => ?_⟩
  rw [← State.port_fin, ports p, if_pos (List.mem_finRange p)]
  exact congrArg (DflPort.replayed · _) (s.port_fin p)

/-! ### The replay clock (R93) -/

/-- The clock goes to the nearest of the points where it holds, if that lies before the event's time. -/
theorem foldl_min_le (l : List Time) (t : Time) : l.foldl min t ≤ t ∧ ∀ p ∈ l, l.foldl min t ≤ p := by
  induction l generalizing t with
  | nil => exact ⟨le_refl t, fun _ mem => absurd mem List.not_mem_nil⟩
  | cons a l ih =>
    obtain ⟨start, points⟩ := ih (min t a)
    rw [List.foldl_cons]
    exact ⟨start.trans (min_le_left t a), List.forall_mem_cons.mpr ⟨start.trans (min_le_right t a), points⟩⟩

theorem foldl_min_eq (l : List Time) (t : Time) (past : ∀ p ∈ l, t ≤ p) : l.foldl min t = t := by
  induction l with
  | nil => rfl
  | cons a l ih =>
    obtain ⟨here, rest⟩ := List.forall_mem_cons.mp past
    rw [List.foldl_cons, min_eq_left here, ih rest]

theorem execReplayClockAdvance_moves (t : Time) (replay : s.time.replay = true) : exec (.replayClockAdvance t) s = .next (s.replayTo t) :=
  congrArg Host.Outcome.next (if_pos replay)

theorem State.at_replay (t : Time) (replay : s.time.replay = true) : s.at t = s :=
  if_neg (by rw [replay, Bool.not_true, Bool.and_false]; decide)

/-! ### Injected events (R93, R401) -/

/-- The key of an injected event, and its data. -/
def HpCmd.injectKey (c : HpCmd) : Key := keyOf (BitVec.ofNat 64 (leAt c.bytes 8 8)) (leAt c.bytes 0x10 4)
def State.injectData (s : State) (c : HpCmd) : List Byte := s.resv.mem.bytes (s.stageBase + leAt c.bytes 0x18 8) (leAt c.bytes 0x20 4)

/-- The waiting list is without the command, and a completion with the status waits for it. -/
def State.answersTo (s u : State) (c : HpCmd) (status : Nat) : Prop :=
  u.link.fetched = s.link.fetched.erase c ∧ ∃ d ∈ u.link.done, d.cmd = c ∧ d.status = status

theorem State.hpDone_fetched (c : HpCmd) (status detail result : Nat) : (s.hpDone c status detail result).link.fetched = s.link.fetched := by
  unfold State.hpDone
  dsimp only
  split <;> rfl

theorem State.hpDone_lastInject (c : HpCmd) (status detail result : Nat) : (s.hpDone c status detail result).link.lastInject = s.link.lastInject ∧
    (s.hpDone c status detail result).link.admits = s.link.admits := by
  unfold State.hpDone
  dsimp only
  split <;> exact ⟨rfl, rfl⟩

/-- A command is answered on the state `u` that it has left the waiting list of. -/
theorem State.hpDone_answers (u : State) (c : HpCmd) (status : Nat) (queue : c.queue ≠ 256) (taken : u.link.fetched = s.link.fetched.erase c) :
    s.answersTo (u.hpDone c status 0 0) c status := by
  refine ⟨(u.hpDone_fetched c status 0 0).trans taken, ?_⟩
  rw [State.hpDone_done _ _ _ _ _ queue]
  exact ⟨_, List.mem_append_right _ (List.mem_singleton.mpr rfl), rfl, rfl⟩

variable (c : HpCmd) (t : Time)

theorem execInject_outside (next : s.nextCmd 7 = some c) (live : s.time.replay = false) : exec (.inject t) s = .next (((s.at t).takeCmd c).hpDone c 9 0 0) := by
  have next_t : (s.at t).nextCmd 7 = some c := by
    rw [State.nextCmd, State.at_link]
    exact next
  have live_t : ((s.at t).takeCmd c).replaying = false := (s.at_replaying t).trans live
  rw [show exec (.inject t) s = execInject t s from rfl, execInject]
  simp only [next_t, live_t, Bool.not_false, if_true]

/-- The last injected key stands in the way of a key that does not rise. -/
def State.keyRises (s : State) (key : Key) : Bool := !(match s.link.lastInject with | some l => decide (key.toNat ≤ l.toNat) | none => false)

theorem execInject_stale (next : s.nextCmd 7 = some c) (replay : s.time.replay = true) (stale : s.keyRises c.injectKey = false) :
    exec (.inject t) s = .next ((s.takeCmd c).hpDone c 3 0 0) := by
  have replay_t : (s.takeCmd c).replaying = true := replay
  rw [State.keyRises, Bool.not_eq_false'] at stale
  rw [show exec (.inject t) s = execInject t s from rfl, execInject, s.at_replay t replay]
  simp only [next, replay_t, Bool.not_true, Bool.false_eq_true, if_false]
  exact congrArg Host.Outcome.next (if_pos stale)

/-- The session with an event's key and outcome noted, and the clock moved to its stamp. -/
def State.keyed (s : State) (c : HpCmd) : State :=
  ((s.takeCmd c).modLink fun l => { l with lastInject := some c.injectKey, admits := l.admits ++ [(c.injectKey, byteAt c.bytes 0x15)] }).replayTo (stampTime (keyStamp c.injectKey))

theorem execInject_reply (next : s.nextCmd 7 = some c) (replay : s.time.replay = true) (rises : s.keyRises c.injectKey = true) (kind : 2 < byteAt c.bytes 0x14) :
    exec (.inject t) s = .next (((s.keyed c).injectReply c.injectKey (s.injectData c)).hpDone c 0 0 0) := by
  have replay_t : (s.takeCmd c).replaying = true := replay
  rw [State.keyRises, Bool.not_eq_true'] at rises
  rw [show exec (.inject t) s = execInject t s from rfl, execInject, s.at_replay t replay]
  simp only [next, replay_t, Bool.not_true, Bool.false_eq_true, if_false]
  refine congrArg Host.Outcome.next ((if_neg (Bool.eq_false_iff.mp rises)).trans ?_)
  obtain ⟨k, hk⟩ : ∃ k, byteAt c.bytes 0x14 = k + 3 := ⟨byteAt c.bytes 0x14 - 3, by omega⟩
  simp only [hk]
  rfl

/-- A logged reply whose event no port holds changes nothing. -/
theorem State.injectReply_unheld (key : Key) (data : List Byte) (unheld : ∀ p, p < 4 → ∀ e ∈ (s.port p).events, e.eid ≠ leAt data 0 2) :
    s.injectReply key data = s := by
  have none_ : (List.range 4).find? (fun p => (s.port p).events.any fun e => decide (e.eid = leAt data 0 2 ∧ keyOf e.event.stamp e.event.seq = key)) = none := by
    refine List.find?_eq_none.mpr fun p mem found => ?_
    obtain ⟨e, he, same⟩ := List.any_eq_true.mp found
    exact unheld p (List.mem_range.mp mem) e he (of_decide_eq_true same).1
  rw [State.injectReply]
  simp only [none_]

theorem State.replayTo_now : s.time.now ≤ (s.replayTo t).time.now := le_max_left _ _

end

/-- Settles O31: the time unit and the ports at both ends of a session, the points where its clock holds, and the answers of an injected event. -/
theorem replayResults : Obligations.ReplayResults := by
  intro s state
  refine ⟨?opens, ?lasts, ?closed, ?inject⟩
  case opens =>
    intro live first
    refine ⟨_, execReplayStart_opens s first live, rfl, rfl, rfl, rfl, rfl, fun p => Vector.getElem_map _ _, fun w replay now running limit => ?_⟩
    obtain ⟨e, ran, time, only, ports⟩ := execReplayEnd_closes w replay
    refine ⟨e, ran, ?_, ?_, ?_, ?_, only, fun p => ?_⟩
    · rw [time]; rfl
    · rw [time]; exact now
    · rw [time]; exact running
    · rw [time]; exact limit
    · rw [ports p, show w.time.live = s.time.now from now]
      rfl
  case lasts =>
    intro replay
    refine ⟨fun first => congrArg Host.Outcome.next (if_pos replay), fun t => s.at_replay t replay, fun t => ?_⟩
    obtain ⟨within, points⟩ := foldl_min_le s.holdPoints t
    refine ⟨_, execReplayClockAdvance_moves s t replay, s.replayTo_now t, fun past => max_eq_left (within.trans past), fun p mem => ?_, fun free => ?_, rfl⟩
    · exact (max_comm _ _).trans_le (max_le_max (points p mem) le_rfl)
    · exact congrArg (max s.time.now) (foldl_min_eq s.holdPoints t free)
  case closed => exact fun live => ⟨congrArg Host.Outcome.next (if_pos (by rw [live]; rfl)), fun t => congrArg Host.Outcome.next (if_neg (Bool.eq_false_iff.mp live))⟩
  case inject =>
    intro c t next queue key answers
    refine ⟨fun live => ?outside, fun l replay last stale => ?stale, fun replay rises kind unheld => ?taken⟩
    case outside =>
      refine ⟨_, execInject_outside s c t next live, s.hpDone_answers _ c 9 queue ?_, ?_⟩
      · exact congrArg (fun l : HostLink => l.fetched.erase c) (s.at_link t)
      · have only := State.hpDone_link ((s.at t).takeCmd c) c 9 0 0
        rw [← s.at_link t]
        exact (congrArg (fun x : State => { x with link := (s.at t).link }) only :)
    case stale =>
      have same : s.keyRises c.injectKey = false := by
        rw [State.keyRises, last, Bool.not_eq_false', decide_eq_true_eq]
        exact stale
      refine ⟨_, execInject_stale s c t next replay same, s.hpDone_answers _ c 3 queue rfl, ?_⟩
      exact (congrArg (fun x : State => { x with link := s.link }) (State.hpDone_link (s.takeCmd c) c 3 0 0) :)
    case taken =>
      have higher : s.keyRises c.injectKey = true := by
        rw [State.keyRises, Bool.not_eq_true']
        cases last : s.link.lastInject with
        | none => rfl
        | some l => exact decide_eq_false (Nat.not_le.mpr (rises l last))
      have ran := execInject_reply s c t next replay higher kind
      rw [State.injectReply_unheld (s.keyed c) _ (s.injectData c) unheld] at ran
      have only := State.hpDone_link (s.keyed c) c 0 0 0
      obtain ⟨lastInject, admits⟩ := (s.keyed c).hpDone_lastInject c 0 0 0
      refine ⟨_, ran, s.hpDone_answers _ c 0 queue rfl, lastInject, admits, ?_, ?_, (execInject_keeps t s).next ran⟩
      · rw [show ((s.keyed c).hpDone c 0 0 0).time = (s.keyed c).time from (congrArg State.time only :)]
        exact State.replayTo_now ((s.takeCmd c).modLink _) _
      · exact (congrArg State.ports only :)

end Sys2Proof.Machine
end

section
/-! SUPPORT. Trigger inputs (16 R412 to R415): what each of their events does, by the input's candidate and its holdoff: obligation O32. -/

namespace Sys2Proof.Machine

section
variable (s : State) (die : Fin 2) (n : Fin 32) (t : Time)

@[simp] theorem State.at_trigIn : (s.at t).trigIn die n = s.trigIn die n := by rw [State.at_eq]; rfl

/-! ### The fields of MESA_TRIG_CFG -/

theorem trigCfg_filter (cfg : Word) : fld cfg 10 3 = cfg.toNat / 8 % 256 := fld_eq cfg 10 3

theorem trigCfg_holdoff (cfg : Word) : fld cfg 18 11 = cfg.toNat / 2 ^ 11 % 256 := fld_eq cfg 18 11

theorem trigCfg_edge (cfg : Word) : fld cfg 2 1 = cfg.toNat / 2 % 4 := fld_eq cfg 2 1

theorem trigCfg_class (cfg : Word) : fld cfg 23 19 = cfg.toNat / 2 ^ 19 % 32 := fld_eq cfg 23 19

/-! ### An edge (R413, R414) -/

/-- The port stamps no event, or the input is not enabled. -/
def State.trigDeaf : Prop := (s.at t).stamping die 3 = false ∨ ((s.at t).trigAt die n t).getLsbD 0 = false

theorem exec_trigEdge_deaf (rising : Bool) (deaf : s.trigDeaf die n t) : exec (.trigEdge die n rising t) s = .next (s.at t) := by
  refine congrArg Host.Outcome.next (if_pos ?_)
  simpa [bit, State.trigDeaf] using deaf

/-- An edge at an input that hears it. -/
theorem exec_trigEdge_heard (rising : Bool) (stamps : (s.at t).stamping die 3 = true) (enabled : ((s.at t).trigAt die n t).getLsbD 0 = true) :
    exec (.trigEdge die n rising t) s = .next (if ((s.at t).trigIn die n).holdoff.isSome then
        ((s.at t).setTrig die n { (s.at t).trigIn die n with
          inactive := if rising = inactiveHigh ((s.at t).trigAt die n t) ((s.at t).trigIn die n).lastRising then some t else none }).inFlag die 1
      else if ((s.at t).trigIn die n).cand.isSome ∨ !edgeSelected ((s.at t).trigAt die n t) rising then s.at t
      else (s.at t).setTrig die n { (s.at t).trigIn die n with cand := some (t, rising) }) :=
  congrArg Host.Outcome.next (if_neg (by simp [bit, stamps, enabled]))

/-! ### The end of a candidate (R413, R415) -/

theorem exec_trigGlitch_def : exec (.trigGlitch die n t) s = execTrigGlitch die n t s := rfl

theorem exec_trigQualify_def : exec (.trigQualify die n t) s = execTrigQualify die n t s := rfl

theorem exec_trigHoldoffEnd_def : exec (.trigHoldoffEnd die n t) s = execTrigHoldoffEnd die n t s := rfl

theorem exec_trigGlitch_none (idle : (s.trigIn die n).cand = none) : exec (.trigGlitch die n t) s = .next (s.at t) := by
  simp [exec_trigGlitch_def, execTrigGlitch, idle]

theorem exec_trigGlitch_some {e : Time} {r : Bool} (cand : (s.trigIn die n).cand = some (e, r)) : exec (.trigGlitch die n t) s = .next
    (if t < e + 8 * fld ((s.at t).trigAt die n e) 10 3 then ((s.at t).setTrig die n { s.trigIn die n with cand := none }).inFlag die 0 else s.at t) := by
  simp [exec_trigGlitch_def, execTrigGlitch, cand]

theorem exec_trigQualify_none (idle : (s.trigIn die n).cand = none) : exec (.trigQualify die n t) s = .next (s.at t) := by
  simp [exec_trigQualify_def, execTrigQualify, idle]

/-- A candidate that has not lasted its FILTER time is not stamped. -/
theorem exec_trigQualify_early {e : Time} {r : Bool} (cand : (s.trigIn die n).cand = some (e, r))
    (early : t < e + 8 * fld ((s.at t).trigAt die n e) 10 3) : exec (.trigQualify die n t) s = .next (s.at t) := by
  simp [exec_trigQualify_def, execTrigQualify, cand, early]

/-- The input after a qualified edge: in holdoff from the edge's time. -/
def TrigIn.qualified (x : TrigIn) (cfg : Word) (e : Time) (r : Bool) : TrigIn :=
  { x with cand := none, holdoff := some e, lastRising := r, inactive := if fld cfg 2 1 = 2 then some e else none }

/-- The event of a qualified edge. -/
def trigItem (cfg : Word) (byte : Nat) (e : Time) (r : Bool) : Item := { key := eventKey e byte, body := trigBody n r (fld cfg 10 3) }

/-- A candidate that has lasted is stamped with the time of its edge, and enters the lanes that the input feeds. -/
theorem exec_trigQualify_lasted {e : Time} {r : Bool} (cand : (s.trigIn die n).cand = some (e, r)) (stamps : (s.at t).stamping die 3 = true)
    (lasted : e + 8 * fld ((s.at t).trigAt die n e) 10 3 ≤ t) :
    let cfg := (s.at t).trigAt die n e
    let byte := n.val / 16 * 32 + 16 * die.val + n.val % 16
    let u := (s.at t).setTrig die n ((s.trigIn die n).qualified cfg e r)
    exec (.trigQualify die n t) s = .next ((if fld cfg 23 19 < 16 then u.laneArrive die true byte (trigItem n cfg byte e r) else u).laneArrive die false byte (trigItem n cfg byte e r)) := by
  simp [exec_trigQualify_def, execTrigQualify, cand, stamps, Nat.not_lt.mpr lasted, TrigIn.qualified, trigItem]

/-! ### The end of a holdoff (R414) -/

theorem exec_trigHoldoffEnd_some {e i : Time} (held : (s.trigIn die n).holdoff = some e) (quiet : (s.trigIn die n).inactive = some i) :
    exec (.trigHoldoffEnd die n t) s = .next
      (if e + 8 * fld ((s.at t).trigAt die n e) 18 11 ≤ t ∧ i + 8 * fld ((s.at t).trigAt die n e) 10 3 ≤ t then
        (s.at t).setTrig die n { s.trigIn die n with holdoff := none, inactive := none } else s.at t) := by
  simp [exec_trigHoldoffEnd_def, execTrigHoldoffEnd, held, quiet]

theorem exec_trigHoldoffEnd_none (lacks : (s.trigIn die n).holdoff = none ∨ (s.trigIn die n).inactive = none) :
    exec (.trigHoldoffEnd die n t) s = .next (s.at t) := by
  rcases lacks with free | active
  · simp [exec_trigHoldoffEnd_def, execTrigHoldoffEnd, free]
  · cases held : (s.trigIn die n).holdoff <;> simp [exec_trigHoldoffEnd_def, execTrigHoldoffEnd, held, active]

end

/-- Settles O32: an input's events by cases on whether it is heard, on its holdoff and its candidate, and on the times of its configuration. -/
theorem triggerResults : Obligations.TriggerResults := by
  intro s die n t v x only
  refine ⟨fun rising deaf => exec_trigEdge_deaf s die n t rising deaf, fun rising stamps enabled => ⟨fun free idle selected => ?_, fun free unfit => ?_, fun held => ?_⟩,
    fun idle => ⟨exec_trigGlitch_none s die n t idle, exec_trigQualify_none s die n t idle⟩,
    fun e r cand => ⟨fun early => ⟨⟨_, ?_, rfl⟩, exec_trigQualify_early s die n t cand (by rwa [trigCfg_filter])⟩, fun lasted => ?_, fun lasted stamps => ?_⟩,
    fun e i held quiet => ⟨fun elapsed inactive => ⟨_, ?_, rfl⟩, fun short => ?_⟩, exec_trigHoldoffEnd_none s die n t⟩
  · refine ⟨_, ?_, rfl⟩
    rw [exec_trigEdge_heard s die n t rising stamps enabled, State.at_trigIn]
    simp [x, v, free, idle, selected]
  · rw [exec_trigEdge_heard s die n t rising stamps enabled, State.at_trigIn]
    have unfit' : (s.trigIn die n).cand.isSome = true ∨ (!edgeSelected ((s.at t).trigAt die n t) rising) = true := by
      rcases unfit with busy | unselected
      · exact .inl (Option.isSome_iff_ne_none.mpr busy)
      · exact .inr (by simp [v, unselected])
    rw [if_neg (by simp [x, free]), if_pos unfit']
  · refine ⟨_, ?_, rfl⟩
    rw [exec_trigEdge_heard s die n t rising stamps enabled, State.at_trigIn, if_pos (Option.isSome_iff_ne_none.mpr held)]
  · rw [exec_trigGlitch_some s die n t cand, if_pos (by rwa [trigCfg_filter])]
  · rw [exec_trigGlitch_some s die n t cand, if_neg (by rw [trigCfg_filter]; exact Nat.not_lt.mpr lasted)]
  · refine ⟨_, _, trigItem n (v.trigAt die n e) (n.val / 16 * 32 + 16 * die.val + n.val % 16) e r, rfl, rfl, rfl, congrArg (trigBody n r) (trigCfg_filter _), rfl, ?_⟩
    rw [exec_trigQualify_lasted s die n t cand stamps (by rwa [trigCfg_filter]), TrigIn.qualified, trigCfg_edge, trigCfg_class]
    split <;> rfl
  · rw [exec_trigHoldoffEnd_some s die n t held quiet, if_pos (by rw [trigCfg_filter, trigCfg_holdoff]; exact ⟨elapsed, inactive⟩)]
  · rw [exec_trigHoldoffEnd_some s die n t held quiet, if_neg (by rw [trigCfg_filter, trigCfg_holdoff]; exact fun ends => short.elim (Nat.not_lt.mpr ends.1) (Nat.not_lt.mpr ends.2))]

end Sys2Proof.Machine
end

section
/-! SUPPORT. A link that goes down in replay (17 R447; 03 R93; log 37): what the banks' turn still does to the port: obligation O43. -/

namespace Sys2Proof.Machine

/-- DFL_DISCARD_COUNT with 16 frames discarded in a row on a link that is up. -/
theorem exec_dflDiscardCount_down (s : State) (p : Fin 4) (t : Time) (up : ((s.at t).port p).up = true) (many : 16 ≤ ((s.at t).port p).discards) :
    exec (.dflDiscardCount p t) s = .next ((s.at t).linkDown p (s.at t).time.now 2) :=
  congrArg Host.Outcome.next (if_pos ⟨up, many⟩)

/-- A solenoid event of chip 0 that its cycle has decided and its bank has not yet sent (R510). -/
def bankEvent : ActEvent := { action := 1, chip := 0, kind := 1, index := 0, profile := 0, flags := 0, duration := 0, fire := 20000, deadline := 10000, stamp := 0, seq := 0 }

/-- The event's cycle: checked, so no cycle is undecided and the bank's turn has come. -/
def bankCycle : Cycle :=
  { id := { stamp := 0, job := 0 }, die := 0, cls := 3, admitted := true, old := false, deadline := 10000, dflt := bankEvent, ident := 0, crest := 0,
    closeAt := 1500, checked := true, event := some bankEvent, queued := some bankEvent }

/-- A replay in which the event waits, and port 0 is up without events, with 16 frames discarded in a row. -/
def replayWaiting : State :=
  { State.reset with time := { replay := true }, cycles := [bankCycle], ports := State.reset.ports.set 0 { up := true, discards := 16 } }

/-- The waiting event enters the port's list as the link goes down: its bank's turn is run in replay too. -/
theorem replayWaiting_linkDown_events : ((replayWaiting.linkDown 0 replayWaiting.time.now 2).port 0).events.map DflEvent.event = [bankEvent] := by
  decide +kernel

/-- Refutes O43: the link claim says that in replay a link that goes down leaves the port's events as they are. At `replayWaiting` the bank's turn that
ends the change of state (R510) sends the waiting event, and in replay it stays in the port's list (log 37); the claim's hypotheses do not exclude it. -/
theorem not_dflResults : ¬ Obligations.DflResults := by
  intro ⟨link, _⟩
  obtain ⟨_, _, _, _, _, _, _, _, _, _, _, counted, _⟩ := link replayWaiting 0 0 0
  obtain ⟨u, ran, _, _, _, _, _, replayed, _⟩ := counted rfl (Nat.le_refl 16)
  have down : exec (.dflDiscardCount 0 0) replayWaiting = .next (replayWaiting.linkDown 0 replayWaiting.time.now 2) :=
    exec_dflDiscardCount_down replayWaiting 0 0 rfl (Nat.le_refl 16)
  obtain rfl : u = replayWaiting.linkDown 0 replayWaiting.time.now 2 := Host.Outcome.next.inj (ran.symm.trans down)
  have kept : ((replayWaiting.linkDown 0 replayWaiting.time.now 2).port 0).events = [] := (replayed rfl).2
  have sent := replayWaiting_linkDown_events
  rw [kept] at sent
  exact List.cons_ne_nil _ _ sent.symm

end Sys2Proof.Machine
end

section
/-! SUPPORT. Hops of the mesh and the links (04 R103, R106, R107, R114): the credits in use, the choice of an output, the flit that it forwards. -/

namespace Sys2Proof.Machine

/-! ### Credits in use -/

/-- The entry of an output and a class among the credits in use. -/
def creditsOf (a b : Node) (c : Nat) (e : Node × Node × Nat × Nat) : Bool := decide (e.1 = a ∧ e.2.1 = b ∧ e.2.2.1 = c)

section
variable (n : Net) (a b : Node) (c k : Nat)

/-- An output without an entry uses no credit. -/
theorem Net.used_eq : n.used a b c = ((n.hopUsed.find? (creditsOf a b c)).map fun e => e.2.2.2).getD 0 := by
  unfold Net.used creditsOf
  cases n.hopUsed.find? fun e => decide (e.1 = a ∧ e.2.1 = b ∧ e.2.2.1 = c) <;> rfl

theorem Net.setUsed_hopUsed :
    (n.setUsed a b c k).hopUsed = (n.hopUsed.filter fun e => !creditsOf a b c e) ++ if k = 0 then [] else [(a, b, c, k)] := by
  have rest : (n.hopUsed.filter fun e => !creditsOf a b c e) = n.hopUsed.filter fun e => decide ¬(e.1 = a ∧ e.2.1 = b ∧ e.2.2.1 = c) :=
    congrArg (fun p => n.hopUsed.filter p) (funext fun e => (decide_not (p := e.1 = a ∧ e.2.1 = b ∧ e.2.2.1 = c)).symm)
  rw [rest, Net.setUsed]
  by_cases free : k = 0 <;> simp [free]

theorem Net.used_setUsed_same : (n.setUsed a b c k).used a b c = k := by
  have gone : (n.hopUsed.filter fun e => !creditsOf a b c e).find? (creditsOf a b c) = none :=
    List.find?_eq_none.mpr fun e mem => by simpa using (List.mem_filter.mp mem).2
  rw [Net.used_eq, Net.setUsed_hopUsed, List.find?_append, gone]
  by_cases free : k = 0 <;> simp [free, creditsOf]

theorem Net.used_setUsed_ne (a' b' : Node) (c' : Nat) (h : (a', b', c') ≠ (a, b, c)) : (n.setUsed a b c k).used a' b' c' = n.used a' b' c' := by
  have other (e : Node × Node × Nat × Nat) (own : creditsOf a' b' c' e = true) : creditsOf a b c e = false := by
    obtain ⟨rfl, rfl, rfl⟩ := of_decide_eq_true own
    exact decide_eq_false fun ⟨ha, hb, hc⟩ => h (by rw [ha, hb, hc])
  have rest : (n.hopUsed.filter fun e => !creditsOf a b c e).find? (creditsOf a' b' c') = n.hopUsed.find? (creditsOf a' b' c') := by
    rw [List.find?_filter]
    refine congrArg (fun p => n.hopUsed.find? p) (funext fun e => ?_)
    cases own : creditsOf a' b' c' e with
    | false => simp
    | true => simp [other e own]
  have new : creditsOf a' b' c' (a, b, c, k) = false := decide_eq_false fun ⟨ha, hb, hc⟩ => h (by rw [← ha, ← hb, ← hc])
  rw [Net.used_eq, Net.used_eq, Net.setUsed_hopUsed, List.find?_append, rest]
  by_cases free : k = 0 <;> simp [free, new]

end

section
variable (s : State) (a b : Node)

/-! ### The choice of an output (R103, R114) -/

theorem firstMsg_mem {l : List Hop} {h : Hop} (first : firstMsg l = some h) : h ∈ l := by
  induction l generalizing h with
  | nil => cases first
  | cons x rest ih =>
    unfold firstMsg at first
    split at first
    · cases first; exact List.mem_cons_self
    · next y rests =>
      obtain rfl := Option.some.inj first
      split
      · exact List.mem_cons_of_mem _ (ih rests)
      · exact List.mem_cons_self

/-- A message of its class that stands at the output's node is picked only with a credit. -/
theorem State.pickMsg_some {c : Nat} {h : Hop} (picked : s.pickMsg a b c = some h) :
    h.msg.cls = c ∧ h.place = a ∧ s.net.used a b c < hopDepth (s.linkOf a b) c := by
  unfold State.pickMsg at picked
  dsimp only at picked
  split at picked
  · cases picked
  next credit =>
    suffices here : h ∈ s.net.hops.filter fun h => decide (h.place = a ∧ h.msg.cls = c) && decide (s.nextHop a h.msg = some b) by
      have fits := (List.mem_filter.mp here).2
      simp only [Bool.and_eq_true, decide_eq_true_eq] at fits
      exact ⟨fits.1.2, fits.1.1, Nat.lt_of_not_le credit⟩
    split at picked
    · next x begun =>
      split at picked
      · cases picked
      · cases picked; exact List.mem_of_find?_eq_some begun
    · exact List.mem_of_mem_filter (firstMsg_mem picked)

/-- The least number below `n` that has a value gives it. -/
theorem findSome?_range_least {α : Type} (f : Nat → Option α) {n c : Nat} {x : α} (below : c < n) (value : f c = some x) (least : ∀ k, k < c → f k = none) :
    (List.range n).findSome? f = some x := by
  obtain ⟨m, rfl⟩ := Nat.exists_eq_add_of_lt below
  have none_ : (List.range c).findSome? f = none := List.findSome?_eq_none_iff.mpr fun k hk => least k (List.mem_range.mp hk)
  rw [Nat.add_assoc, Nat.add_comm m, ← Nat.add_assoc, List.range_add, List.range_succ, List.findSome?_append, List.findSome?_append, none_]
  simp [value]

/-! ### FLIT_HOP and CREDIT_RETURN -/

/-- The output's link retrains, or the clocks of its die are stopped (R342, R578). -/
def State.HopStopped : Prop :=
  (∃ n, s.linkOf a b = some n ∧ ∃ e ∈ s.net.retrain, e.1 = n) ∨ s.power.commonA1.toList.getD (s.nodeDie a) false = true

/-- The state once the output has forwarded a flit of `h` and taken a credit. -/
def State.flitSent (h : Hop) : State :=
  { s with net := ({ s.net with hops := landFlit a b h.msg (takeFlit h s.net.hops) }).setUsed a b h.msg.cls (s.net.used a b h.msg.cls + 1) }

theorem exec_flitHop_stopped (stopped : s.HopStopped a b) : exec (.flitHop a b) s = .next s := by
  change execFlitHop a b s = _
  rw [execFlitHop, if_pos]
  obtain ⟨n, link, e, mem, retrains⟩ | clocks := stopped
  · rw [link]
    exact (Bool.or_eq_true _ _).mpr (.inl (List.any_eq_true.mpr ⟨e, mem, decide_eq_true retrains⟩))
  · rw [clocks, Bool.or_true]

theorem exec_flitHop_running (runs : ¬ s.HopStopped a b) :
    exec (.flitHop a b) s = .next (((List.range 4).findSome? (s.pickMsg a b)).elim s (s.flitSent a b)) := by
  change execFlitHop a b s = _
  rw [execFlitHop, if_neg]
  · cases (List.range 4).findSome? (s.pickMsg a b) <;> rfl
  · rw [Bool.or_eq_true]
    refine fun stopped => runs (stopped.imp (fun retrains => ?_) id)
    cases link : s.linkOf a b with
    | none => rw [link] at retrains; cases retrains
    | some n =>
      rw [link] at retrains
      obtain ⟨e, mem, same⟩ := List.any_eq_true.mp retrains
      exact ⟨n, rfl, e, mem, of_decide_eq_true same⟩

theorem exec_flitHop_idle (idle : ∀ c, c < 4 → s.pickMsg a b c = none) : exec (.flitHop a b) s = .next s := by
  by_cases stopped : s.HopStopped a b
  · exact exec_flitHop_stopped s a b stopped
  · rw [exec_flitHop_running s a b stopped, List.findSome?_eq_none_iff.mpr fun c hc => idle c (List.mem_range.mp hc)]
    rfl

theorem exec_flitHop_lowest {c : Nat} {h : Hop} (runs : ¬ s.HopStopped a b) (hc : c < 4) (picked : s.pickMsg a b c = some h)
    (lowest : ∀ k, k < c → s.pickMsg a b k = none) : exec (.flitHop a b) s = .next (s.flitSent a b h) := by
  rw [exec_flitHop_running s a b runs, findSome?_range_least _ hc picked lowest]
  rfl

theorem exec_creditReturn (c : Fin 4) (n : Nat) :
    exec (.creditReturn a b c n) s = .next { s with net := s.net.setUsed a b c (s.net.used a b c - min n (s.net.used a b c - s.net.waiting a b c)) } := rfl

end

end Sys2Proof.Machine
end

section
/-! SUPPORT. Delivery of messages (04 R97, R105, R114, R120; 21 R579): what a message that ends, and one that is discarded, leave: obligation O37. -/

namespace Sys2Proof.Machine

section
variable (s : State)

/-! ### What a delivered message does -/

section
variable {m : Msg} {n : Nat} (dest : m.dest = .tile n)
include dest

theorem State.consume_reply (reply : m.cls = 1) : s.consume m = s.replyAt n m := by simp [State.consume, dest, reply]

theorem State.consume_item (stream : m.cls ≠ 1) (item : m.horizon = false) : s.consume m = s.portArrive n 0 m.stream m.prod m.item := by
  simp [State.consume, dest, stream, item]

theorem State.consume_horizon (stream : m.cls ≠ 1) (horizon : m.horizon = true) : s.consume m = s.portHorizon n 0 m.stream m.prod m.item.key := by
  simp [State.consume, dest, stream, horizon]

end

/-- A reply reaches the router's register of the core that waits for its key (R97, R273). -/
theorem State.replyAt_core (n : Nat) (m : Msg) {c : Core} {w : CairnWait} (core : (s.tile n).core = some c) (waits : c.wait = some w) :
    ((s.replyAt n m).tile n).core =
      some (if w.key = m.item.key then { c with reply := some (leAt m.item.body 4 4, decide (byteAt m.item.body 8 = 1)) } else c) := by
  rw [State.replyAt, State.tile_modTile_same]
  simp [core, waits]

theorem State.Reported.net {s u : State} (h : s.Reported u) : u.net = s.net := (congrArg State.net h :)

theorem State.commitIn_net (die : Nat) (key : Key) (void : Nat) (body : List Byte) : (s.commitIn die key void body).net = s.net := by
  unfold State.commitIn
  split
  · exact (s.reported_actFlag _ _).net
  · split
    · split <;> rfl
    · exact (State.reported_actFlag _ _ _).net

/-- Only a message to an apply unit, whose replies enter the mesh (R273), sends another. -/
theorem State.consume_net (m : Msg) (other : ∀ k, m.dest ≠ .apply k) : (s.consume m).net = s.net := by
  unfold State.consume
  split
  · split
    · rfl
    · split <;> rfl
  · next k unit => exact absurd unit (other k)
  · exact s.commitIn_net _ _ _ _
  · exact ((s.reported_makeRecord _ _ _ _).trans (State.reported_countVoid _ _)).net
  · rfl
  · rfl

/-! ### What a discarded message does (R579) -/

/-- Marks on jobs change the jobs alone. -/
theorem State.foldl_mark_jobs (l : List JobId) (k : Nat) : { l.foldl (fun s id => s.mark id k) s with jobs := s.jobs } = s :=
  State.foldl_preserves (fun u : State => { u with jobs := s.jobs }) (fun s id => s.mark id k) (fun _ _ => rfl) l s

/-- A record, and marks. -/
theorem State.sidebandFail_eq (m : Msg) (head : Bool) :
    ∃ die f l, s.sidebandFail m head = List.foldl (fun s id => s.mark id 4) (s.fault die none f) l := ⟨_, _, _, rfl⟩

/-- One record, no tile changed, nothing sent. -/
theorem State.sidebandFail_frame (m : Msg) (head : Bool) : let u := s.sidebandFail m head
    u.tiles = s.tiles ∧ u.net = s.net ∧ u.logs.made.length = s.logs.made.length + 1 := by
  obtain ⟨die, f, l, fails⟩ := s.sidebandFail_eq m head
  have report := s.reported_fault die none f
  have marks := State.foldl_mark_jobs (s.fault die none f) l 4
  rw [fails]
  exact ⟨(congrArg State.tiles marks :).trans report.tiles, (congrArg State.net marks :).trans report.net,
    (congrArg (fun u : State => u.logs.made.length) marks :).trans (s.fault_made _ _ _)⟩

/-- With a header that is whole, the job that its key names is marked. -/
theorem State.sidebandFail_job (m : Msg) {j : Job} (found : s.job (keyId m.item.key) = some j) :
    (s.sidebandFail m true).job (keyId m.item.key) = some { j with void := j.void ||| 4 } :=
  State.modJob_job _ _ (fun j => { j with void := j.void ||| 4 }) (fun _ => rfl) j ((State.job_of_jobs (s.reported_fault _ _ _).jobs _).trans found)

/-! ### FLIT_DELIVER -/

/-- A message leaves the mesh. -/
def State.takeHop (h : Hop) : State := { s with net := { s.net with hops := s.net.hops.erase h } }

/-- The first message that stands whole at its end (R105). -/
def State.wholeAt (a : Node) : Option Hop := s.net.hops.find? fun h => decide (h.place = a ∧ h.msg.final = a ∧ h.here = h.msg.flits)

variable (a : Node) (t : Time)

@[simp] theorem State.at_net : (s.at t).net = s.net := by rw [State.at_eq]

@[simp] theorem State.at_wholeAt : (s.at t).wholeAt a = s.wholeAt a := by rw [State.wholeAt, State.at_net, State.wholeAt]

theorem State.wholeAt_eq_none (none_ : ∀ h ∈ s.net.hops, h.place = a → h.msg.final = a → h.here ≠ h.msg.flits) : s.wholeAt a = none :=
  List.find?_eq_none.mpr fun h mem whole => by
    obtain ⟨place, final, here⟩ := of_decide_eq_true whole
    exact none_ h mem place final here

theorem exec_flitDeliver (good head : Bool) :
    exec (.flitDeliver a good head t) s = .next ((s.wholeAt a).elim (s.at t) fun h =>
      if good then ((s.at t).takeHop h).consume h.msg else ((s.at t).takeHop h).sidebandFail h.msg head) := by
  rw [← s.at_wholeAt a t]
  change execFlitDeliver a good head t s = _
  unfold execFlitDeliver State.wholeAt
  dsimp only
  cases (s.at t).net.hops.find? fun h => decide (h.place = a ∧ h.msg.final = a ∧ h.here = h.msg.flits) <;> rfl

theorem exec_flitDeliver_none (good head : Bool) (none_ : ∀ h ∈ s.net.hops, h.place = a → h.msg.final = a → h.here ≠ h.msg.flits) :
    exec (.flitDeliver a good head t) s = .next (s.at t) := by
  rw [exec_flitDeliver, s.wholeAt_eq_none a none_]
  rfl

section
variable {h : Hop} (whole : s.wholeAt a = some h) (head : Bool)
include whole

theorem exec_flitDeliver_good : exec (.flitDeliver a true head t) s = .next (((s.at t).takeHop h).consume h.msg) := by
  rw [exec_flitDeliver, whole]
  rfl

theorem exec_flitDeliver_bad : exec (.flitDeliver a false head t) s = .next (((s.at t).takeHop h).sidebandFail h.msg head) := by
  rw [exec_flitDeliver, whole]
  rfl

end

/-! ### HOP_WAIT and BE_WAIT (R120) -/

theorem exec_hopWait (k c : Fin 4) (ns : Nat) : exec (.hopWait k c ns) s = .next (if s.ergLive k = true ∧ 1000 < ns then s.flowFlag k c else s) := rfl

theorem exec_beWait (k : Fin 4) (ns : Nat) : exec (.beWait k ns) s = .next (if s.ergLive k = true ∧ 100000 < ns then s.flowFlag k 4 else s) := rfl

end

/-- Settles O37: an output by whether it stands still and by the lowest class it can serve; a delivery by whether a message stands whole, by its CHECK and
by its destination. -/
theorem meshResults : Obligations.MeshResults := by
  intro s a b t stopped
  refine ⟨exec_flitHop_stopped s a b, exec_flitHop_idle s a b, fun c h runs hc picked lowest => ?_, fun c n => ?_, exec_flitDeliver_none s a t,
    fun h whole => ⟨fun head => ?_, fun head => ?_⟩, fun k c ns => ⟨exec_hopWait s k c ns, exec_beWait s k ns⟩⟩
  · obtain ⟨rfl, place, credit⟩ := s.pickMsg_some a b picked
    exact ⟨rfl, place, credit, _, exec_flitHop_lowest s a b runs hc picked lowest, rfl, Net.used_setUsed_same _ _ _ _ _,
      fun a' b' c' ne => Net.used_setUsed_ne _ _ _ _ _ a' b' c' ne, rfl⟩
  · exact ⟨_, exec_creditReturn s a b c n, Net.used_setUsed_same _ _ _ _ _, fun a' b' c' ne => Net.used_setUsed_ne _ _ _ _ _ a' b' c' ne, rfl, rfl⟩
  · let v := (s.at t).takeHop h
    have tile (n : Nat) : v.tile n = s.tile n := s.at_tile t n
    have hops : v.net.hops = s.net.hops.erase h := congrArg (fun n : Net => n.hops.erase h) (s.at_net t)
    refine ⟨_, exec_flitDeliver_good s a t whole head, fun other => (congrArg Net.hops (v.consume_net h.msg other)).trans hops,
      (v.consume_kept h.msg).trans (s.at_kept t), fun n dest stream item => ?_, fun n dest stream horizon => ?_, fun n c w dest reply core waits => ?_⟩
    · have put := v.portArrive_put n 0 h.msg.stream h.msg.prod h.msg.item
      rw [v.consume_item dest stream item]
      exact ⟨by rw [put.held, tile], fun k hk => (put.others k hk).trans (tile k)⟩
    · have put := v.portHorizon_put n 0 h.msg.stream h.msg.prod h.msg.item.key
      rw [v.consume_horizon dest stream horizon]
      exact ⟨put.horizon, by rw [put.held, tile]⟩
    · rw [v.consume_reply dest reply]
      exact v.replyAt_core n h.msg ((congrArg Tile.core (tile n)).trans core) waits
  · let v := (s.at t).takeHop h
    obtain ⟨tiles, net, made⟩ := v.sidebandFail_frame h.msg head
    refine ⟨_, exec_flitDeliver_bad s a t whole head, tiles.trans (s.at_tiles t), ?_, ?_, ?_⟩
    · exact (congrArg Net.hops net).trans (congrArg (fun n : Net => n.hops.erase h) (s.at_net t))
    · exact made.trans (congrArg (fun l : Logs => l.made.length + 1) (s.at_logs t))
    · rintro rfl j found
      exact ⟨_, v.sidebandFail_job h.msg ((s.at_job t _).trans found), rfl⟩

end Sys2Proof.Machine
end

section
/-! SUPPORT. Scalar loads and stores (05 R138, R180; 08 R196, R213, R215): obligation O8. -/

namespace Sys2Proof.Machine

/-! ### Writes into the activation buffer (R203) -/

@[simp] theorem State.tile_abWrite (s : State) (t off : Nat) (bs : List Byte) (bad : Nat → Bool) : (s.abWrite t off bs bad).tile t = (s.tile t).abWrite off bs bad :=
  s.tile_modTile_same t _

theorem Tile.abWrite_byte (x : Tile) (off n : Nat) (bs : List Byte) (bad : Nat → Bool) :
    (x.abWrite off bs bad).abuf.byte n = if off ≤ n ∧ n < off + bs.length then bs.getD (n - off) 0 else x.abuf.byte n := Mem.byte_puts _ _ _ _

@[simp] theorem Tile.abWrite_flight (x : Tile) (off : Nat) (bs : List Byte) (bad : Nat → Bool) : (x.abWrite off bs bad).flight = x.flight := rfl
@[simp] theorem Tile.abWrite_ports (x : Tile) (off : Nat) (bs : List Byte) (bad : Nat → Bool) : (x.abWrite off bs bad).ports = x.ports := rfl
@[simp] theorem Tile.abWrite_halves (x : Tile) (off : Nat) (bs : List Byte) (bad : Nat → Bool) : (x.abWrite off bs bad).halves = x.halves := rfl

/-- Byte `i` of a word, least significant first. -/
theorem wordByte_eq (w : Word) (i : Nat) : BitVec.ofNat 8 (w.toNat / 256 ^ i) = w.extractLsb' (8 * i) 8 := by
  refine BitVec.eq_of_toNat_eq ?_
  rw [BitVec.extractLsb'_toNat, BitVec.toNat_ofNat, Nat.shiftRight_eq_div_pow, Nat.pow_mul]

/-! ### Checks (R215) -/

/-- An access to the activation buffer, or a load from the weight bed, is no store to the weight bed (R196). -/
theorem bedStore_false {space : Nat} {store : Bool} (allowed : space = 0 ∨ space = 2 ∧ store = false) : (store && space == 2) = false := by
  obtain slab | ⟨-, load⟩ := allowed
  · rw [slab]; exact Bool.and_false _
  · rw [load]; exact Bool.false_and _

/-- A scalar access to an aligned word of its extent, in a space that it may touch and outside every open ring, raises nothing. -/
theorem State.memCheck_pass {s : State} {t : Nat} {c : Core} {xa : Fin 16} {off : BitVec 13} {store : Bool} {x : Extent} {a : Nat} (hx : extentOf (c.a xa) = x)
    (addr : c.memAddr xa off = a) (aligned : a % 4 = 0) (space : x.space = 0 ∨ x.space = 2 ∧ store = false) (low : x.base ≤ a) (high : a + 4 ≤ x.base + x.len)
    (inside : x.base + x.len ≤ s.spaceSize t x.space) (rings : anyOverlap [{ space := x.space, base := a, len := 4 }] c.rings = false) :
    s.memCheck t c xa off store = none := by
  have fits : ((x.base : Int) ≤ a ∧ (a : Int) + 4 ≤ (x.base + x.len : Nat)) := by omega
  have legal : ¬ (x.space = 1 ∨ x.space = 3) := by omega
  refine firstCause_eq_none ?_
  simp only [hx, addr, Int.toNat_natCast, List.forall_mem_cons, List.not_mem_nil, false_implies, implies_true, and_true]
  refine ⟨decide_eq_false legal, ?_, ?_, decide_eq_false ?_⟩
  · rw [bedStore_false space, rings]; rfl
  · simp only [decide_eq_true fits, State.inSpace, decide_eq_true inside, Bool.and_self, Bool.not_true, Bool.and_false]
  · omega

/-! ### LD and ST -/

section
variable {s f q : State} {t : Fin 512} {g : Issue} {c : Core} {xa : Fin 16} {off : BitVec 13} {x : Extent} {a : Nat}

theorem execLd_runs (dst : Fin 32) {hits : List EccHit} {bad : Bool} (issues : s.Issues t g c) (more : (s.fetched t g c).More t c) (hf : s.fetched t g c = f)
    (hx : extentOf (c.a xa) = x) (addr : c.memAddr xa off = a) (checked : f.memCheck t c xa off false = none)
    (free : anyOverlap [{ space := x.space, base := a, len := 4 }] (f.tile t).writes = false)
    (hq : f.applyHits t c [{ space := x.space, base := a, len := 4 }] hits = q) (hBad : q.loadBad t c x.space a 4 = bad) (runsOn : bad = false ∨ q.isCycle c.id = false) :
    exec (.ld t g dst xa off hits) s = .next ((if bad then q.mark c.id 4 else q).setCore t
      (c.retire (c.setS dst (BitVec.ofNat 32 (ofLe (q.load t c x.space a 4))) (bad || c.aBad xa)))) := by
  refine exec_done issues more rfl rfl ?_
  simp only [hf, hx, addr, checked, free, Int.toNat_natCast, hq, hBad]
  cases bad with
  | false => rfl
  | true =>
    have goesOn : q.isCycle c.id = false := runsOn.resolve_left Bool.true_eq_false_eq_False
    rw [readGate, goesOn]
    rfl

theorem execSt_runs (src : Fin 32) (issues : s.Issues t g c) (more : (s.fetched t g c).More t c) (hf : s.fetched t g c = f)
    (addr : c.memAddr xa off = a) (checked : f.memCheck t c xa off true = none)
    (free : anyOverlap [{ space := 0, base := a, len := 4 }] ((f.tile t).writes ++ (f.tile t).reads ++ c.held) = false) :
    exec (.st t g src xa off) s = .next ((f.abWrite t a (leBytes 4 (c.s src).toNat) fun _ => c.sBad src || c.aBad xa).setCore t (c.retire c)) := by
  refine exec_done issues more rfl rfl ?_
  simp only [hf, addr, checked, free, Int.toNat_natCast]
  rfl

end

theorem loadResult : Sys2Proof.Claims.LoadResult := by
  intro s t g c dst xa off hits a issues more f x e r bad addr aligned space low high inside rings free runsOn
  have checked : f.memCheck t c xa off false = none :=
    State.memCheck_pass rfl addr.symm aligned (space.imp_right fun bed => ⟨bed, rfl⟩) low high inside rings
  exact execLd_runs dst issues more rfl rfl addr.symm checked free rfl rfl runsOn

theorem storeResult : Sys2Proof.Claims.StoreResult := by
  intro s t g c src xa off a issues more f x e addr aligned slab low high inside rings free
  have slabE : e = { space := 0, base := a, len := 4 } := congrArg (Extent.mk · a 4) slab
  have checked : f.memCheck t c xa off true = none :=
    State.memCheck_pass rfl addr.symm aligned (.inl slab) low high (slab ▸ inside) rings
  have ran := execSt_runs (f := f) src issues more rfl addr.symm checked (slabE ▸ free)
  refine ⟨_, ran, State.setCore_core _ _ _, fun n => ?_, by simp [State.tile_setCore],
    by simp [State.tile_setCore], by simp [State.tile_setCore], fun n other => State.setCore_modTile_ne _ _ _ _ _ other, rfl, rfl, rfl, rfl, rfl, rfl⟩
  rw [State.setCore_abuf, State.tile_abWrite, Tile.abWrite_byte, leBytes_length]
  refine if_ctx_congr Iff.rfl (fun near => ?_) fun _ => rfl
  rw [leBytes_getD _ _ _ (by omega), wordByte_eq]

/-- Settles O8, by the checks that the access passes and what it then reads or writes. -/
theorem loadAndStoreResults : Obligations.LoadAndStoreResults := ⟨loadResult, storeResult⟩

end Sys2Proof.Machine
end

section
/-! SUPPORT. Vector loads, stores and function tables (05 R138, R139, R142, R180; 08 R196, R213; 09 R241): obligation O9. -/

namespace Sys2Proof.Machine

/-! ### Operations in flight (R138) -/

@[simp] theorem State.tile_fly (s : State) (t e : Nat) (reads writes : List Extent) :
    (s.fly t e reads writes).tile t = { s.tile t with flight := (s.tile t).flight ++ [{ engine := e, reads, writes }] } := s.tile_modTile_same t _

@[simp] theorem State.fly_resv (s : State) (t e : Nat) (reads writes : List Extent) : (s.fly t e reads writes).resv = s.resv := rfl
@[simp] theorem State.fly_regs (s : State) (t e : Nat) (reads writes : List Extent) : (s.fly t e reads writes).regs = s.regs := rfl

/-- An operation taken into flight and its core retired leave every other tile. -/
theorem State.fly_setCore_tile_ne (s : State) (t n e : Nat) (reads writes : List Extent) (c : Core) (h : n ≠ t) : ((s.fly t e reads writes).setCore t c).tile n = s.tile n :=
  s.setCore_modTile_ne t n _ c h

/-! ### Lanes -/

theorem Core.lane_setLanes_same (c : Core) (r : Fin 16) (v : Fin 64 → Word) (bad : Nat → Bool) (k : Fin 64) : (c.setLanes r v bad).lane r k = v k := by
  simp [Core.lane, Core.setLanes]

theorem Core.lane_setLanes_ne (c : Core) (r q : Fin 16) (v : Fin 64 → Word) (bad : Nat → Bool) (k : Fin 64) (h : q ≠ r) : (c.setLanes r v bad).lane q k = c.lane q k := by
  have : r.val ≠ q.val := fun same => h (Fin.ext same.symm)
  simp [Core.lane, Core.setLanes, this]

theorem length_flatMap_const {α : Type} (f : α → List Byte) {w : Nat} (size : ∀ a, (f a).length = w) (l : List α) : (l.flatMap f).length = l.length * w := by
  simp [List.length_flatMap, size]

/-- Byte `i` of item `k`, where every item is spelled in `w` bytes. -/
theorem getD_flatMap_const {α : Type} (f : α → List Byte) {w : Nat} (size : ∀ a, (f a).length = w) (l : List α) (k i : Nat) (hk : k < l.length) (hi : i < w) :
    (l.flatMap f).getD (w * k + i) 0 = (f l[k]).getD i 0 := by
  induction l generalizing k with
  | nil => exact absurd hk (Nat.not_lt_zero k)
  | cons a l ih =>
    rw [List.flatMap_cons]
    cases k with
    | zero =>
      rw [Nat.mul_zero, Nat.zero_add]
      exact List.getD_append _ _ _ _ (size a ▸ hi)
    | succ k =>
      have step : w * (k + 1) + i = (f a).length + (w * k + i) := by rw [size a]; ring
      rw [step, List.getD_append_right _ _ _ _ (Nat.le_add_right _ _), Nat.add_sub_cancel_left]
      exact ih k (Nat.lt_of_succ_lt_succ hk)

/-- The bytes that a vector store writes: the low `w` of each lane, in order (R241). -/
def Core.laneBytes (c : Core) (r : Fin 16) (w : Nat) : List Byte := (c.lanes r).flatMap fun v => leBytes w v.toNat

@[simp] theorem Core.length_laneBytes (c : Core) (r : Fin 16) (w : Nat) : (c.laneBytes r w).length = 64 * w := by
  have lanes : (c.lanes r).length = 64 := Vector.length_toList
  rw [Core.laneBytes, length_flatMap_const (fun v : Word => leBytes w v.toNat) fun v => leBytes_length w v.toNat, lanes]

theorem Core.laneBytes_getD (c : Core) (r : Fin 16) (w : Nat) (k : Fin 64) (i : Nat) (hi : i < w) :
    (c.laneBytes r w).getD (w * k.val + i) 0 = (c.lane r k).extractLsb' (8 * i) 8 := by
  have near : k.val < (c.lanes r).length := by simp [Core.lanes]
  have lane : (c.lanes r)[k.val] = c.lane r k := by simp [Core.lanes, Core.lane]
  rw [Core.laneBytes, getD_flatMap_const (fun v : Word => leBytes w v.toNat) (fun v => leBytes_length w v.toNat) _ _ _ near hi, lane, leBytes_getD _ _ _ hi, wordByte_eq]

/-- Byte `i` of lane `k` lies among the bytes of the 64 lanes. -/
theorem laneByte_lt {w i : Nat} (k : Fin 64) (hi : i < w) : w * k.val + i < 64 * w := by
  have := Nat.mul_le_mul_left w (Nat.succ_le_of_lt k.isLt)
  rw [Nat.mul_succ] at this
  omega

/-! ### Vector loads and stores (R241) -/

section
variable {s f q : State} {t : Fin 512} {g : Issue} {c : Core} {xa : Fin 16} {r : Fin 32} {x : Extent} {a w n : Nat}

/-- A vector access to an aligned part of its extent, in a space that it may touch and outside every open ring, raises nothing. -/
theorem State.vecCheck_pass {store : Bool} (hx : extentOf (c.a xa) = x) (addr : c.vecAddr xa r = a) (aligned : a % 4 = 0) (words : x.base % 4 = 0 ∧ x.len % 4 = 0)
    (space : x.space = 0 ∨ x.space = 2 ∧ store = false) (high : a + n ≤ x.base + x.len) (inside : x.base + x.len ≤ s.spaceSize t x.space)
    (rings : anyOverlap [{ space := x.space, base := a, len := n }] c.rings = false) : s.vecCheck t c xa r n store = none := by
  have legal : [0, 2].contains x.space = true := by
    obtain slab | ⟨bed, -⟩ := space
    · simp [slab]
    · simp [bed]
  refine firstCause_eq_none ?_
  simp only [hx, addr, List.forall_mem_append, List.forall_mem_cons, List.not_mem_nil, false_implies, implies_true, and_true]
  refine ⟨⟨bedStore_false space, rings, ?_, decide_eq_false (not_not_intro aligned)⟩, s.extentChecks_pass t [0, 2] x (by omega) legal words inside⟩
  rw [decide_eq_false (not_lt.mpr high), Bool.and_false]

theorem State.vload_runs (vx : Fin 16) {lw : Nat} {hits : List EccHit} (hn : (if w = 0 then 4 else 64 * w) = n) (hlw : (if w = 0 then 4 else w) = lw)
    (issues : s.Issues t g c) (more : (s.fetched t g c).More t c) (hf : s.fetched t g c = f) (hx : extentOf (c.a xa) = x) (addr : c.vecAddr xa r = a)
    (checked : f.vecCheck t c xa r n false = none) (room : f.queueFull t 1 = false) (hq : f.applyHits t c [{ space := x.space, base := a, len := n }] hits = q)
    (clean : q.loadBad t c x.space a n = false) :
    s.vload t g vx xa r w hits = ((q.fly t 1 [{ space := x.space, base := a, len := n }] []).setCore t (c.retire (c.setLanes vx
      (fun k => BitVec.ofNat 32 (leAt (q.load t c x.space a n) (k.val * w) lw))
      fun k => (c.aBad xa || c.sBad r) || q.loadBad t c x.space (a + k * w) lw))) := by
  have place (k : Nat) : (if w = 0 then 0 else k * w) = k * w := by
    split
    next none => rw [none, Nat.mul_zero]
    next => rfl
  rw [State.vload, State.issue_runs s t g c anyEnc _ issues rfl]
  simp only [hf, hx, addr, hn, hlw, place, checked, room, hq, clean]
  exact State.settle_done _ _ t c _ (hf ▸ more)

theorem State.vstore_runs (vx : Fin 16) (issues : s.Issues t g c) (more : (s.fetched t g c).More t c) (hf : s.fetched t g c = f) (addr : c.vecAddr xa r = a)
    (checked : f.vecCheck t c xa r (64 * w) true = none) (room : f.queueFull t 1 = false) (free : anyOverlap [{ space := 0, base := a, len := 64 * w }] c.held = false) :
    s.vstore t g vx xa r w = ((f.abWrite t a (c.laneBytes vx w) fun i => (c.aBad xa || c.sBad r) || c.laneBad vx (i / w)).fly t 1 []
      [{ space := 0, base := a, len := 64 * w }]).setCore t (c.retire c) := by
  rw [State.vstore, State.issue_runs s t g c anyEnc _ issues rfl]
  simp only [hf, addr, checked, room, free]
  exact State.settle_done _ _ t c _ (hf ▸ more)

end

/-- The activation buffer after a vector store has completed: the bytes of the lanes, and every other byte as before. -/
theorem State.vstored_byte (s : State) (t e : Nat) (c k : Core) (r : Fin 16) (w a n : Nat) (bad : Nat → Bool) (reads writes : List Extent) :
    ((((s.abWrite t a (c.laneBytes r w) bad).fly t e reads writes).setCore t k).tile t).abuf.byte n =
      if a ≤ n ∧ n < a + 64 * w then (c.laneBytes r w).getD (n - a) 0 else (s.tile t).abuf.byte n := by
  rw [State.setCore_abuf, State.tile_fly, State.tile_abWrite]
  dsimp only
  rw [Tile.abWrite_byte, Core.length_laneBytes]

theorem vectorTransferResults : Sys2Proof.Claims.VectorTransferResults := by
  intro s t g c vx xa r issues more room f x a aligned base len inside
  constructor
  · have load (i : List EccHit → Instr) (w n lw : Nat) (form : ∀ hits, exec (i hits) s = .next (s.vload t g vx xa r w hits)) (hn : (if w = 0 then 4 else 64 * w) = n)
        (hlw : (if w = 0 then 4 else w) = lw) (hits : List EccHit) (space : x.space = 0 ∨ x.space = 2) (high : a + n ≤ x.base + x.len)
        (rings : anyOverlap [{ space := x.space, base := a, len := n }] c.rings = false)
        (clean : (f.applyHits t c [{ space := x.space, base := a, len := n }] hits).loadBad t c x.space a n = false) :=
      have checked : f.vecCheck t c xa r n false = none :=
        State.vecCheck_pass rfl rfl aligned ⟨base, len⟩ (space.imp_right fun bed => ⟨bed, rfl⟩) high inside rings
      (form hits).trans (congrArg _ (State.vload_runs vx hn hlw issues more rfl rfl rfl checked room rfl clean))
    simp only [List.forall_mem_cons, List.not_mem_nil, false_implies, implies_true, and_true]
    exact ⟨load _ 4 _ _ (fun _ => rfl) rfl rfl, load _ 2 _ _ (fun _ => rfl) rfl rfl, load _ 1 _ _ (fun _ => rfl) rfl rfl, load _ 0 _ _ (fun _ => rfl) rfl rfl⟩
  · intro op mem
    have form : exec (op.1 t g vx xa r) s = .next (s.vstore t g vx xa r op.2) := by
      revert op
      simp only [List.forall_mem_cons, List.not_mem_nil, false_implies, implies_true, and_true]
      exact ⟨rfl, rfl, rfl⟩
    intro e slab high rings free
    have checked : f.vecCheck t c xa r (64 * op.2) true = none :=
      State.vecCheck_pass rfl rfl aligned ⟨base, len⟩ (.inl slab) high inside (slab ▸ rings)
    have ran := State.vstore_runs (f := f) (a := a) vx issues more rfl rfl checked room free
    refine ⟨_, form.trans (congrArg _ ran), State.setCore_core _ _ _, by simp [State.tile_setCore, e], fun k i hi => ?_, fun n out => ?_, ?_, fun n other => ?_, ?_, ?_, ?_⟩
    · have near := laneByte_lt k hi
      rw [State.vstored_byte, if_pos (by omega), Nat.add_assoc, Nat.add_sub_cancel_left, Core.laneBytes_getD _ _ _ _ _ hi]
    · rw [State.vstored_byte, if_neg (by omega)]
    · simp [State.tile_setCore]
    · rw [State.fly_setCore_tile_ne _ _ _ _ _ _ _ other, State.abWrite, State.tile_modTile, if_neg other]
    · rw [State.setCore_resv, State.fly_resv, State.abWrite_resv]
    · rw [State.setCore_regs, State.fly_regs, State.abWrite_regs]
    · rw [State.setCore_kept, State.fly_kept, State.abWrite_kept]

/-! ### Function tables (R142, R241) -/

theorem tableEval_eq (tab : List Word) (v : Word) : tableEval tab v = if isNan32 v then nan32 else
    let n := ((tab.take 63).filter fun b => flt32 b v || feq32 b v).length
    ffma32 (nth 0 tab (64 + 2 * n + 1)) v (nth 0 tab (64 + 2 * n)) := by
  have notAbove (b : Word) : (flt32 b v || feq32 b v) = (match (v32 b).cmp (v32 v) with | some d => decide (d ≤ 0) | none => false) := by
    unfold flt32 feq32
    cases (v32 b).cmp (v32 v) with
    | none => rfl
    | some d => exact (Bool.decide_or _ _).symm.trans (decide_eq_decide.mpr le_iff_lt_or_eq.symm)
  simp only [notAbove]
  rfl

/-- Word `i` of a table. -/
def tableWord (bs : List Byte) (i : Nat) : Word := BitVec.ofNat 32 (leAt bs (4 * i) 4)

theorem nth_tableWords (bs : List Byte) (i : Nat) (h : i < 192) : nth 0 (tableWords bs) i = tableWord bs i := by
  simp [nth, tableWords, tableWord, List.getD, h]

theorem take_tableWords (bs : List Byte) : (tableWords bs).take 63 = (List.range 63).map (tableWord bs) := by
  rw [tableWords, ← List.map_take, List.take_range]
  rfl

/-- The segment of a value: how many breakpoints are not above it (R142). -/
def tableSegment (bs : List Byte) (v : Word) : Nat := ((List.range 63).filter fun i => flt32 (tableWord bs i) v || feq32 (tableWord bs i) v).length

theorem tableEval_number (bs : List Byte) (v : Word) (number : isNan32 v = false) :
    tableEval (tableWords bs) v = ffma32 (tableWord bs (64 + 2 * tableSegment bs v + 1)) v (tableWord bs (64 + 2 * tableSegment bs v)) := by
  have few : tableSegment bs v ≤ 63 := (List.length_filter_le _ _).trans_eq List.length_range
  have count : ((List.map (tableWord bs) (List.range 63)).filter fun b => flt32 b v || feq32 b v).length = tableSegment bs v := by
    rw [List.filter_map, List.length_map]
    rfl
  rw [tableEval_eq, number, take_tableWords, count]
  dsimp only
  rw [nth_tableWords _ _ (by omega), nth_tableWords _ _ (by omega)]
  rfl

theorem tableEval_nan (tab : List Word) (v : Word) (nan : isNan32 v = true) : tableEval tab v = nan32 := by
  rw [tableEval_eq, nan]
  rfl

theorem execVtab_runs {s f q : State} {t : Fin 512} {g : Issue} {c : Core} (vx : Fin 16) {xa : Fin 16} (vb : Fin 16) {hits : List EccHit} {x : Extent}
    (issues : s.Issues t g c) (more : (s.fetched t g c).More t c) (hf : s.fetched t g c = f) (hx : extentOf (c.a xa) = x)
    (checked : firstCause ((4, decide (x.len < 768)) :: f.extentChecks t [2] x) = none) (room : f.queueFull t 1 = false)
    (hq : f.applyHits t c [x] hits = q) (clean : q.loadBad t c 2 x.base 768 = false) :
    ∃ bad, exec (.vtab t g vx xa vb hits) s = .next ((q.fly t 1 [x] []).setCore t
      (c.retire (c.setLanes vx (fun k => tableEval (tableWords (q.load t c 2 x.base 768)) (c.lane vb k)) bad))) := by
  rw [show exec (.vtab t g vx xa vb hits) s = .next (s.issue t g anyEnc _) from rfl, State.issue_runs s t g c anyEnc _ issues rfl]
  simp only [hf, hx, checked, room, hq, clean]
  exact ⟨_, congrArg _ (State.settle_done _ _ t c _ (hf ▸ more))⟩

theorem functionTableResult : Sys2Proof.Claims.FunctionTableResult := by
  intro s t g c vx xa vb hits issues more room f x q w bed base len long inside clean
  have checked : firstCause ((4, decide (x.len < 768)) :: f.extentChecks t [2] x) = none := by
    refine firstCause_eq_none (List.forall_mem_cons.mpr ⟨decide_eq_false (not_lt.mpr long), ?_⟩)
    exact f.extentChecks_pass t [2] x bed.le (by simp [bed]) ⟨base, len⟩ (by rw [bed]; exact inside)
  obtain ⟨bad, ran⟩ := execVtab_runs (f := f) (q := q) (x := x) vx vb issues more rfl rfl checked room rfl clean
  have lane (l : Fin 64) (v : Fin 64 → Word) (value : Word) (h : v l = value) : (c.setLanes vx v bad).lane vx l = value :=
    (c.lane_setLanes_same vx v bad l).trans h
  exact ⟨_, _, ran, State.setCore_core _ _ _, by simp [State.tile_setCore], fun l nan => lane l _ _ (tableEval_nan _ _ nan),
    fun l number => lane l _ _ (tableEval_number _ _ number), fun r other l => c.lane_setLanes_ne vx r _ bad l other, rfl, rfl, rfl,
    by rw [State.setCore_abuf, State.tile_fly], rfl,
    by rw [State.setCore_kept, State.fly_kept, State.applyHits_kept]⟩

/-- Settles O9, by the checks that the access passes, the bytes of the lanes, and the segment of the table that each lane takes. -/
theorem vectorMemoryResults : Obligations.VectorMemoryResults := ⟨vectorTransferResults, functionTableResult⟩

end Sys2Proof.Machine
end

section
/-! SUPPORT. Instructions that change their core alone: registers, predicates, stamps, keys and producers (08 R195, R199, R206; 09 R232, R253, R256): obligations O5 and O6. -/

namespace Sys2Proof.Machine

/-! ### Registers (R195, R206) -/

theorem Core.p_setS (c : Core) (dst : Fin 32) (r : Fin 8) (v : Word) (bad : Bool) : (c.setS dst v bad).p r = c.p r := by
  simp only [Core.p, Core.setS_preg]

theorem Core.a_setS (c : Core) (dst : Fin 32) (r : Fin 16) (v : Word) (bad : Bool) : (c.setS dst v bad).a r = c.a r := by
  simp only [Core.a, Core.setS_areg]

/-- Settles O6, by the read-after-write rules of the three register files. -/
theorem hardwiredRegisters : Obligations.HardwiredRegisters := fun c bad =>
  ⟨fun dst r v => c.s_setS dst r v bad, fun dst r v => c.p_setP dst r v bad, fun dst r v => c.a_setA dst r v bad, fun dst r v => c.p_setS dst r v bad,
    fun dst r v => ⟨c.a_setS dst r v bad, c.setS_vx dst v bad, c.setS_desc dst v bad⟩⟩

/-! ### The producer table (R199) -/

theorem Core.setCount_count_ne (c : Core) (p n q : Nat) (other : q ≠ p) : (c.setCount p n).count q = c.count q := by
  unfold Core.setCount
  cases known : c.count p with
  | none => simp [Core.count, List.find?_append, other.symm]
  | some m =>
    have same : ((fun e : Nat × Nat => decide (e.1 = q)) ∘ fun e => if e.1 = p then (p, n) else e) = fun e => decide (e.1 = q) := by
      funext e
      by_cases h : e.1 = p <;> simp [h]
    dsimp only [Core.count]
    rw [List.find?_map, same]
    cases found : c.emits.find? fun e => decide (e.1 = q) with
    | none => rfl
    | some e =>
      have own : e.1 = q := by simpa using List.find?_some found
      simp [own, other]

/-- The core once PSEL has selected producer `p`: a new producer enters the table with count 0 (R199). -/
def Core.selected (c : Core) (p : Nat) : Core := { c.setCount p ((c.count p).getD 0) with prod := p }

theorem Core.selected_count (c : Core) (p q : Nat) : (c.selected p).count q = if q = p then some ((c.count q).getD 0) else c.count q := by
  split
  next same => rw [same]; exact c.setCount_count p _
  next other => exact c.setCount_count_ne p _ q other

/-! ### The fetch (R574) -/

theorem State.reported_tileFlag (s : State) (t b : Nat) : s.Reported (s.tileFlag t b) := (s.reported_setFlag _ _).trans (State.reported_countByte _ _ _)

/-- A corrected error of a fetch is flagged and recorded, and nothing else. -/
theorem State.reported_fetched (s : State) (t : Nat) (g : Issue) (c : Core) : s.Reported (s.fetched t g c) := by
  unfold State.fetched
  split
  · exact s.reported_faultThrottled _ _ _
  · exact .refl s

/-! ### PredicateAndStampResults -/

section
variable {s : State} {t : Fin 512} {g : Issue} {c : Core}

/-- An instruction that only changes the core completes with its change (R202). -/
theorem exec_core {i : Instr} {f : Core → Core} {k : Core} (issues : s.Issues t g c) (more : (s.fetched t g c).More t c)
    (form : exec i s = .next (s.issueCore t g f)) (done : f c = k) : exec i s = .next ((s.fetched t g c).setCore t (c.retire k)) := by
  rw [form, State.issueCore_runs s t g c f issues more, done]

theorem execPsel_selects (a : Fin 32) (issues : s.Issues t g c) (more : (s.fetched t g c).More t c) (room : c.noRoom ((c.s a).toNat % 4096) = false) :
    exec (.psel t g a) s = .next ((s.fetched t g c).setCore t (c.retire (c.selected ((c.s a).toNat % 4096)))) := by
  have named : fld (c.s a) 11 0 = (c.s a).toNat % 4096 := by rw [fld_eq]; norm_num
  refine exec_done issues more rfl rfl ?_
  simp only [named, room]
  rfl

end

theorem predicateResults : Sys2Proof.Claims.PredicateResults := by
  constructor
  · intro op mem s t g c dst a b issues more
    have form : exec (op.1 t g dst a b) s = .next (s.issueCore t g fun c => c.plogic dst a b op.2) := by
      revert op
      simp only [List.forall_mem_cons, List.not_mem_nil, false_implies, implies_true, and_true]
      exact ⟨rfl, rfl, rfl, rfl⟩
    exact exec_core issues more form rfl
  · intro s t g c issues more
    refine ⟨fun dst a => exec_core issues more rfl rfl, fun dst a => ?pfrom, fun dst a => ?pto, exec_core issues more rfl rfl⟩
    case pfrom => exact exec_core issues more rfl (congrArg (c.setP dst · (c.sBad a)) decide_not.symm)
    case pto =>
      have value : BitVec.ofNat 32 (b2n (c.p a)) = if c.p a then 1 else 0 := by cases c.p a <;> rfl
      exact exec_core issues more rfl (congrArg (c.setS dst · (c.pBad a)) value)

theorem stampAndProducerResults : Sys2Proof.Claims.StampAndProducerResults := by
  intro s t g c issues more f toS
  have done {i : Instr} {F : Core → Core} {k : Core} (form : exec i s = .next (s.issueCore t g F)) (after : F c = k) : exec i s = .next (f.setCore t (c.retire k)) :=
    exec_core issues more form after
  have bankDigest (dst : Fin 32) : exec (.bankId t g dst) s = .next (f.setCore t (c.retire (c.setS dst (BitVec.ofNat 32 ((f.tile t).half c.bank).digest) false))) := by
    rw [State.tile_of_tiles (s.reported_fetched t g c).tiles]
    exact done rfl rfl
  refine ⟨fun dst => ⟨done rfl rfl, done rfl rfl, done rfl rfl, done rfl rfl, done rfl rfl, bankDigest dst⟩,
    fun dst d => ⟨done rfl rfl, done rfl rfl, done rfl rfl⟩, fun dst => done rfl rfl, fun a room => ?_⟩
  exact ⟨c.selected _, execPsel_selects a issues more room, rfl, c.selected_count _, rfl, rfl, rfl, rfl, rfl, rfl⟩

/-- Settles O5, by the change that each instruction makes to its core, and the counts that PSEL leaves. -/
theorem predicateAndStampResults : Obligations.PredicateAndStampResults := ⟨predicateResults, stampAndProducerResults⟩

end Sys2Proof.Machine
end

section
/-! SUPPORT. FSET, DSET and FLD (08 R198; 09 R236, R246): obligation O13. -/

namespace Sys2Proof.Machine

section
variable {s : State} {t : Fin 512} {g : Issue} {c : Core}

/-- The core once FSET has written the field of selector `sel` (R198, R236). -/
def Core.fset (c : Core) (sel a : Fin 32) : Core :=
  { c with facet := c.facet.setField sel.val (c.s a).toNat, regPoison := mset clean c.regPoison (96 + sel.val) (c.sBad a) }

theorem execFset_sets (sel a : Fin 32) (known : sel.val ≤ 18) (issues : s.Issues t g c) (more : (s.fetched t g c).More t c) :
    exec (.fset t g sel a) s = .next ((s.fetched t g c).setCore t (c.retire (c.fset sel a))) :=
  exec_done issues more rfl (decide_eq_false (not_lt.mpr known)) rfl

/-- DSET of a CLOSED descriptor (R246). -/
theorem exec_dset {i : Instr} {d : Fin 16} {F : Core → Desc → Desc} {e : Desc} (issues : s.Issues t g c) (more : (s.fetched t g c).More t c)
    (closed : (c.d d).state = .closed) (form : exec i s = .next (s.dset t g d F)) (field : F c (c.d d) = e) :
    exec i s = .next ((s.fetched t g c).setCore t (c.retire (c.setD d e))) :=
  exec_done issues more form rfl ((if_neg (not_not.mpr closed)).trans (by rw [field]))

theorem execDsetKind_sets (d : Fin 16) (a : Fin 32) (issues : s.Issues t g c) (more : (s.fetched t g c).More t c) (closed : (c.d d).state = .closed)
    (known : fld (c.s a) 2 0 < 6) :
    exec (.dsetKind t g d a) s = .next ((s.fetched t g c).setCore t (c.retire (c.setD d { c.d d with kind := fld (c.s a) 2 0 }))) := by
  have checks : firstCause [(6, decide ((c.d d).state ≠ .closed)), (2, decide (6 ≤ fld (c.s a) 2 0))] = none :=
    firstCause_eq_none (by simp [closed, known])
  refine exec_done issues more rfl rfl ?_
  simp only [checks]

/-- FLD of a legal extent, with room in the queue of the facet (R126, R236). -/
theorem execFld_loads (xb : Fin 16) (r : Fin 32) (issues : s.Issues t g c) (more : (s.fetched t g c).More t c)
    (checked : firstCause ((s.fetched t g c).extentChecks t [0, 2] (extentOf (c.a xb))) = none) (room : (s.fetched t g c).queueFull t 0 = false) :
    exec (.fld t g xb r) s = .next ((((s.fetched t g c).fly t 0 [extentOf (c.a xb)] []).modTile t fun x =>
      { x with plane := some (c.a xb, c.facet.nodeA, c.facet.nodeN) }).setCore t (c.retire c)) := by
  refine exec_done issues more rfl rfl ?_
  simp only [checked, room]
  rfl

end

/-- Settles O13, by the field that each selector names, the width of each descriptor field, and the operation that FLD puts in flight. -/
theorem fieldWrites : Obligations.FieldWrites := by
  intro s t g c issues more f
  refine ⟨?fset, ?dset, ?fld⟩
  case fset =>
    intro sel a known
    refine ⟨c.fset sel a, execFset_sets sel a known issues more, ?_, rfl, rfl, rfl, rfl, rfl, rfl, rfl⟩
    have word : (c.s a).toNat % 2 ^ 32 = (c.s a).toNat := Nat.mod_eq_of_lt (c.s a).isLt
    simp only [Core.fset, Facet.setField, word] <;> rfl
  case dset =>
    intro d a b closed into
    have field (n : Nat) : fld (c.s a) n 0 = (c.s a).toNat % 2 ^ (n + 1) := by
      rw [fld_eq, Nat.pow_zero, Nat.div_one, Nat.sub_zero]
    have sets {i : Instr} {F : Core → Desc → Desc} {e : Desc} (form : exec i s = .next (s.dset t g d F)) (after : F c (c.d d) = e) : into i e :=
      exec_dset issues more closed form after
    refine ⟨fun known => ?_, sets rfl rfl, sets rfl (congrArg (fun v => { c.d d with fmt := v }) (field 2)),
      sets rfl (congrArg (fun v => { c.d d with sources := v }) (field 6)), sets rfl (congrArg (fun v => { c.d d with stream := v }) (field 15)), sets rfl rfl⟩
    have ran := execDsetKind_sets d a issues more closed (by rw [field]; exact known)
    rwa [field] at ran
  case fld =>
    intro xb r b room space inside base len
    have checked : firstCause (f.extentChecks t [0, 2] b) = none :=
      firstCause_eq_none (f.extentChecks_pass t [0, 2] b (by omega) (by simpa using space) ⟨base, len⟩ inside)
    refine ⟨_, execFld_loads xb r issues more checked room, State.setCore_core _ _ _, ?abuf, ?halves, ?plane, ?flight, ?others, ?resv, ?regs, ?net, ?kept⟩
    case others =>
      intro n other
      rw [State.setCore_modTile_ne _ _ _ _ _ other, State.fly, State.tile_modTile, if_neg other]
    case resv => rw [State.setCore_resv, State.modTile_resv, State.fly_resv]
    case regs => rw [State.setCore_regs, State.modTile_regs, State.fly_regs]
    case net => rw [State.setCore_net, State.modTile_net, State.fly, State.modTile_net]
    case kept => rw [State.setCore_kept, State.modTile_kept, State.fly_kept]
    all_goals rw [State.tile_setCore, State.tile_modTile_same, State.tile_fly]

end Sys2Proof.Machine
end

section
/-! SUPPORT. Instructions that a false guard skips (08 R206, R211): obligation O11. -/

namespace Sys2Proof.Machine

/-- Settles O11: the guard is read before the meaning of the instruction, whatever its form (R206, R211). -/
theorem falseGuardSkips : Obligations.FalseGuardSkips := by
  intro s t g c core free on noError clean plain named unequal more skip
  have skips {i : Instr} {F : Core → State → NtRes} (form : exec i s = .next (s.issue t g anyEnc F)) : skip i := by
    show exec i s = _
    rw [form, State.issue_skips s t g c anyEnc F core free on noError clean plain named unequal more rfl]
  exact ⟨fun _ _ _ => ⟨skips rfl, skips rfl, skips rfl⟩, fun _ _ _ => skips rfl, fun _ _ => skips rfl, fun _ _ _ => skips rfl,
    fun _ _ => skips rfl, fun _ _ => skips rfl, skips rfl, skips rfl, skips rfl,
    fun _ _ _ _ => skips rfl, fun _ _ _ => skips rfl,
    fun _ _ _ => skips rfl, fun _ => skips rfl,
    fun _ _ => skips rfl, fun _ _ => skips rfl, fun _ _ _ _ _ => skips rfl,
    fun _ _ _ _ => skips rfl, fun _ _ _ => skips rfl, fun _ _ _ _ => skips rfl,
    fun _ _ _ => skips rfl, fun _ _ _ _ => skips rfl,
    fun _ _ _ _ _ => ⟨skips rfl, skips rfl, skips rfl⟩,
    fun _ => ⟨skips rfl, skips rfl, skips rfl⟩, fun _ _ _ => skips rfl, fun _ _ _ _ => skips rfl,
    fun _ _ _ => skips rfl, fun _ => skips rfl, fun _ _ _ => ⟨skips rfl, skips rfl⟩,
    fun _ => skips rfl, fun _ _ => skips rfl, fun _ => skips rfl⟩

end Sys2Proof.Machine
end

section
/-! SUPPORT. Exceptions (08 R210, R211, R215 to R219; 09 R229, R230, R246, R250; 21 R572): obligation O12. -/

namespace Sys2Proof.Machine

/-! ### What an exception leaves (R217 to R219, R572) -/

section
variable (s : State) (t : Nat) (c : Core) (cause : Nat)

/-- The report of an exception: its cause and pc, the flag of the tile, the record (R217, R572). -/
def State.excReport : State :=
  let u := ((s.setReg (tileBase t + 0x1C) (BitVec.ofNat 32 cause)).setReg (tileBase t + 0x20) (BitVec.ofNat 32 (c.pc % 65536))).tileFlag t 5
  (u.makeRecord (u.serving (t / 128)) 2 (some c.nextKey)
    (excBytes u.replaying (u.voidOf c.id) cause c.pc c.entrySlot c.nextKey (u.imemWord t c c.pc) u.time.now t)).countVoid (u.voidOf c.id)

/-- After its report an exception takes the tile off the job, and marks the job (R219). -/
theorem State.raiseExc_eq : s.raiseExc t c cause =
    ((s.excReport t c cause).modTile t fun x => { x with core := none }).modJob c.id fun j => { j with excepted := true } := rfl

theorem State.reported_excReport : s.Reported (s.excReport t c cause) :=
  (s.reported_setReg _ _).trans ((State.reported_setReg _ _ _).trans ((State.reported_tileFlag _ _ _).trans
    ((State.reported_makeRecord _ _ _ _ _).trans (State.reported_countVoid _ _))))

theorem State.countVoid_logs (void : Nat) : (s.countVoid void).logs = s.logs := by
  have flags : ((List.range 4).foldl (fun s b => if void.testBit b then s.gvFlag b else s) s).logs = s.logs :=
    State.foldl_preserves State.logs _ (fun u b => by split <;> rfl) _ s
  unfold State.countVoid
  dsimp only
  split <;> exact flags

theorem State.excReport_made : (s.excReport t c cause).logs.made.length = s.logs.made.length + 1 := by
  unfold State.excReport
  dsimp only
  rw [State.countVoid_logs, State.makeRecord_made]
  rfl

/-- A word of the tile but for its flags and counters, after the report of an exception. -/
theorem State.excReport_reg (x : Nat) (high : 0x800000 ≤ x) : (s.excReport t c cause).reg x =
    (((s.setReg (tileBase t + 0x1C) (BitVec.ofNat 32 cause)).setReg (tileBase t + 0x20) (BitVec.ofNat 32 (c.pc % 65536))).tileFlag t 5).reg x := by
  unfold State.excReport
  dsimp only
  rw [State.countVoid_reg _ _ _ (by omega) (by omega), State.makeRecord_reg _ _ _ _ _ _ (by omega)]

theorem State.raiseExc_pc : (s.raiseExc t c cause).reg (tileBase t + 0x20) = BitVec.ofNat 32 (c.pc % 65536) := by
  rw [State.raiseExc_eq, State.reg_modJob, State.reg_modTile, State.excReport_reg _ _ _ _ _ (by unfold tileBase; omega),
    State.tileFlag_reg _ _ _ _ (by omega) (by omega), State.reg_setReg_same]

theorem State.raiseExc_flag : ((s.raiseExc t c cause).reg (tileBase t + 0x0C)).getLsbD 5 = true := by
  rw [State.raiseExc_eq, State.reg_modJob, State.reg_modTile, State.excReport_reg _ _ _ _ _ (by unfold tileBase; omega), State.tileFlag,
    State.countByte_reg_ne _ _ _ _ (by omega), State.setFlag, State.reg_setReg_same]
  exact getLsbD_or_oneBit _ 5 (by decide)

theorem State.raiseExc_tile : (s.raiseExc t c cause).tile t = { s.tile t with core := none } := by
  rw [State.raiseExc_eq, State.tile_of_tiles (State.modJob_tiles _ _ _), State.tile_modTile_same, State.tile_of_tiles (s.reported_excReport t c cause).tiles]

theorem State.raiseExc_tile_ne (n : Nat) (other : n ≠ t) : (s.raiseExc t c cause).tile n = s.tile n := by
  rw [State.raiseExc_eq, State.tile_of_tiles (State.modJob_tiles _ _ _), State.tile_modTile, if_neg other,
    State.tile_of_tiles (s.reported_excReport t c cause).tiles]

theorem State.raiseExc_net : (s.raiseExc t c cause).net = s.net := by
  rw [State.raiseExc_eq, State.modJob_net, State.modTile_net, (s.reported_excReport t c cause).net]

theorem State.raiseExc_made : (s.raiseExc t c cause).logs.made.length = s.logs.made.length + 1 := by
  rw [State.raiseExc_eq, State.modJob_logs, State.modTile_logs, State.excReport_made]

theorem State.raiseExc_job (j : Job) (known : s.job c.id = some j) : (s.raiseExc t c cause).job c.id = some { j with excepted := true } := by
  rw [State.raiseExc_eq]
  refine State.modJob_job _ c.id (fun j => { j with excepted := true }) (fun _ => rfl) j ?_
  rw [State.job_of_jobs (State.modTile_jobs _ _ _), State.job_of_jobs (s.reported_excReport t c cause).jobs, known]

end

/-! ### Instructions that raise an exception (R210, R211, R217) -/

section
variable {s : State} {t : Fin 512} {g : Issue} {c : Core} {i : Instr} {illegal : Core → Bool} {F : Core → State → NtRes}

theorem exec_raises {cause : Nat} (issues : s.Issues t g c) (form : exec i s = .next (s.issue t g illegal F)) (legal : illegal c = false)
    (raised : F c (s.fetched t g c) = .raise cause) (clean : cause ≠ 9) : exec i s = .next ((s.fetched t g c).raiseExc t c cause) := by
  rw [form, State.issue_runs s t g c illegal F issues legal, raised]
  exact congrArg _ (State.excAt_other _ t c cause clean)

theorem exec_illegal (issues : s.Issues t g c) (form : exec i s = .next (s.issue t g illegal F)) (bad : illegal c = true) :
    exec i s = .next ((s.fetched t g c).raiseExc t c 1) := by
  rw [form, State.issue_illegal s t g c illegal F issues bad, State.excAt_other _ _ _ _ (by decide)]

/-- An instruction that completes at the last word of the bank runs past it (R210). -/
theorem exec_past_end {k : Core} {u : State} (issues : s.Issues t g c) (form : exec i s = .next (s.issue t g illegal F)) (legal : illegal c = false)
    (done : F c (s.fetched t g c) = .done k u) (last : (s.fetched t g c).imemSize t ≤ c.pc + 4) :
    exec i s = .next ((s.fetched t g c).raiseExc t c 7) := by
  rw [form, State.issue_runs s t g c illegal F issues legal, done]
  exact congrArg _ ((if_neg (not_lt.mpr last)).trans (State.excAt_other _ t c 7 (by decide)))

end

/-- The lower of a cause and the lowest one before it. -/
def lowerCause : Option Nat → Nat → Option Nat
  | none, n => some n
  | some m, n => some (min n m)

theorem firstCause_eq (l : List (Nat × Bool)) : firstCause l = ((l.filter (·.2)).map (·.1)).foldl lowerCause none := by
  unfold firstCause
  congr 1
  funext a n
  cases a <;> rfl

theorem foldl_lowerCause (n : Nat) (l : List Nat) (least : ∀ m ∈ l, n ≤ m) : l.foldl lowerCause (some n) = some n := by
  induction l with
  | nil => rfl
  | cons m l ih =>
    obtain ⟨low, rest⟩ := List.forall_mem_cons.mp least
    rw [List.foldl_cons, lowerCause, Nat.min_eq_right low]
    exact ih rest

/-- A check that holds gives its cause when no other has a lower one (log 25). -/
theorem firstCause_cons_true (n : Nat) (l : List (Nat × Bool)) (least : ∀ x ∈ l, n ≤ x.1) : firstCause ((n, true) :: l) = some n := by
  rw [firstCause_eq]
  refine foldl_lowerCause n _ fun m mem => ?_
  obtain ⟨x, found, rfl⟩ := List.mem_map.mp mem
  exact least x (List.mem_of_mem_filter found)

/-- A scalar access to the reservoir or to no space at all raises OPERAND (R215). -/
theorem State.memCheck_space (s : State) (t : Nat) (c : Core) (xa : Fin 16) (off : BitVec 13) (store : Bool)
    (space : (extentOf (c.a xa)).space = 1 ∨ (extentOf (c.a xa)).space = 3) : s.memCheck t c xa off store = some 2 := by
  unfold State.memCheck
  dsimp only
  rw [decide_eq_true space]
  exact firstCause_cons_true 2 _ (by simp)

/-- A target outside the code, or not on a word, is no target (R210). -/
theorem State.jumpTo_raises (s : State) (t : Nat) (c : Core) (link : Fin 32) (pc : Int) (out : pc < 0x800 ∨ (s.imemSize t : Int) ≤ pc ∨ pc % 4 ≠ 0) :
    s.jumpTo t c link pc = .raise 7 := by
  refine if_neg ?_
  rintro ⟨pos, ok⟩
  simp only [State.jumpOk, decide_eq_true_eq] at ok
  omega

theorem badPair_of (dst : Fin 32) (c : Core) (bad : dst.val % 2 = 1 ∨ dst = 0) : badPair dst c = true := by
  refine decide_eq_true (bad.imp_right fun zero => ?_)
  rw [zero]
  decide

theorem badShi_of (i : BitVec 12) (c : Core) (bad : i.extractLsb' 10 2 = 3 ∨ i.extractLsb' 5 5 ≠ 0) : badShi i c = true := by
  have kind : (i.extractLsb' 10 2).toNat = bitsOf i.toNat 11 10 := BitVec.extractLsb'_toNat ..
  have rest : (i.extractLsb' 5 5).toNat = bitsOf i.toNat 9 5 := BitVec.extractLsb'_toNat ..
  refine decide_eq_true (bad.imp (fun three => ?_) fun some none => some ?_)
  · rw [← kind, three]
    rfl
  · exact BitVec.eq_of_toNat_eq (rest.trans none)

/-- Settles O12: each instruction raises its cause, and an exception leaves what R217 to R219 say. -/
theorem exceptionsStopTheTile : Obligations.ExceptionsStopTheTile := by
  intro s t g c issues noError raises
  have still : s.fetched t g c = s := by rw [State.fetched, noError]
  have stops {i : Instr} {cause : Nat} (ran : exec i s = .next ((s.fetched t g c).raiseExc t c cause)) : raises i cause := by
    rw [still] at ran
    have tile := s.raiseExc_tile t c cause
    exact ⟨_, ran, s.raiseExc_core t c cause, s.raiseExc_cause t c cause, s.raiseExc_pc t c cause, s.raiseExc_flag t c cause, s.raiseExc_tile_ne t c cause,
      (congrArg Tile.abuf tile :), (congrArg Tile.flight tile :), s.raiseExc_resv t c cause, s.raiseExc_net t c cause, s.raiseExc_made t c cause,
      fun j known => ⟨_, s.raiseExc_job t c cause j known, rfl, rfl⟩, s.raiseExc_kept t c cause⟩
  have noTarget (pc : Int) (link : Fin 32) (out : pc < 0x800 ∨ (s.imemSize t : Int) ≤ pc ∨ pc % 4 ≠ 0) :
      (s.fetched t g c).jumpTo t c link pc = .raise 7 := State.jumpTo_raises _ t c link pc (by rw [still]; exact out)
  refine ⟨?br, ?jr, ?mulw, ?shi, ?profile, ?space, ?opened, ?closed, ?psel, ?last⟩
  case br => exact fun link off out => stops (exec_raises issues rfl rfl (noTarget _ link (out.imp_right .inl)) (by decide))
  case jr =>
    intro dst a odd
    have target : fld (c.s a) 15 0 = (c.s a).toNat % 65536 := by rw [fld_eq]; norm_num
    exact stops (exec_raises issues rfl rfl (noTarget _ dst (.inr (.inr (by rw [target]; omega)))) (by decide))
  case mulw =>
    intro dst a b bad
    exact ⟨stops (exec_illegal issues rfl (badPair_of dst c bad)), stops (exec_illegal issues rfl (badPair_of dst c bad))⟩
  case shi => exact fun dst a i bad => stops (exec_illegal issues rfl (badShi_of i c bad))
  case profile =>
    intro dst cycles off
    have barred (pair : Bool) (n : Nat) : notProfile pair n c = true := by rw [notProfile, off]; rfl
    exact ⟨stops (exec_illegal issues rfl (barred _ _)), stops (exec_illegal issues rfl (barred _ _)), stops (exec_illegal issues rfl (barred _ _))⟩
  case space =>
    intro dst xa off hits space
    have check (store : Bool) := (s.fetched t g c).memCheck_space t c xa off store space
    exact ⟨stops (exec_raises issues rfl rfl (by simp only [check]) (by decide)), stops (exec_raises issues rfl rfl (by simp only [check]) (by decide))⟩
  case opened => exact fun d a opened => stops (exec_raises issues rfl rfl (if_pos opened) (by decide))
  case closed => exact fun d closed => stops (exec_raises issues rfl rfl (if_pos closed) (by decide))
  case psel =>
    intro a new full
    have named : fld (c.s a) 11 0 = (c.s a).toNat % 4096 := by rw [fld_eq]; norm_num
    have noRoom : c.noRoom (fld (c.s a) 11 0) = true := by simp [named, Core.noRoom, new, full]
    exact stops (exec_raises issues rfl rfl (if_pos noRoom) (by decide))
  case last => exact fun last => stops (exec_past_end issues rfl rfl rfl (by rw [still]; exact last))

end Sys2Proof.Machine
end

section
/-! SUPPORT. Branches, jumps, fences and the end of a job on a tile (08 R204, R208, R210, R213; 09 R232; 10 R269, R270): obligation O10. -/

namespace Sys2Proof.Machine

/-! ### Branches and fences (R208, R210, R213) -/

theorem State.jumpTo_inside (s : State) (t : Nat) (c : Core) (link : Fin 32) (pc : Nat) (aligned : pc % 4 = 0) (low : 0x800 ≤ pc) (high : pc < s.imemSize t) :
    s.jumpTo t c link pc = .jump (c.setS link (BitVec.ofNat 32 (c.pc + 4)) false) s pc :=
  if_pos ⟨Int.natCast_nonneg pc, decide_eq_true ⟨aligned, low, high⟩⟩

section
variable {s : State} {t : Fin 512} {g : Issue} {c : Core} {i : Instr} {F : Core → State → NtRes}

theorem exec_jumps {k : Core} {u : State} {pc : Nat} (issues : s.Issues t g c) (form : exec i s = .next (s.issue t g anyEnc F))
    (jumps : F c (s.fetched t g c) = .jump k u pc) : exec i s = .next (u.setCore t { k with pc := pc, blocked := false }) := by
  rw [form, State.issue_runs s t g c anyEnc F issues rfl, jumps]
  rfl

theorem exec_waits (issues : s.Issues t g c) (form : exec i s = .next (s.issue t g anyEnc F)) (waits : F c (s.fetched t g c) = .wait) :
    exec i s = .next ((s.fetched t g c).setCore t { c with blocked := true }) := by
  rw [form, State.issue_runs s t g c anyEnc F issues rfl, waits]
  rfl

end

theorem branchResults : Sys2Proof.Claims.BranchResults := by
  intro s t g c issues f
  refine ⟨?br, ?jr, ?fence, ?busy⟩
  case br =>
    intro link off pc target aligned low high
    have jumps := f.jumpTo_inside t c link pc aligned low high
    rw [target] at jumps
    exact exec_jumps issues rfl jumps
  case jr =>
    intro dst a pc aligned low high
    have target : pc = fld (c.s a) 15 0 := by rw [fld_eq]; norm_num [pc]
    have jumps := f.jumpTo_inside t c dst pc aligned low high
    rw [target] at jumps
    rw [target]
    exact exec_jumps issues rfl jumps
  case fence => exact fun idle more => exec_done issues more rfl rfl (if_neg (not_not.mpr idle))
  case busy => exact fun busy => exec_waits issues rfl (if_pos busy)

/-! ### Messages (R269, R270) -/

/-- The hop that a message enters the network with (R102, R110). -/
def Msg.hop (m : Msg) : Hop := { place := nodeOf m.src, msg := m, here := m.flits, left := m.flits }

theorem State.inject_hops (s : State) (m : Msg) : (s.inject m).net.hops = s.net.hops ++ [m.hop] := rfl

/-- A message stays on its way while others are sent. -/
theorem State.foldl_inject_hops {α : Type} (m : State → α → Msg) (l : List α) (s : State) {h : Hop} (mem : h ∈ s.net.hops) :
    h ∈ (l.foldl (fun s a => s.inject (m s a)) s).net.hops := by
  induction l generalizing s with
  | nil => exact mem
  | cons a l ih => exact ih (s.inject (m s a)) (List.mem_append_left _ mem)

/-- Each of a list of messages is sent, in a state that the ones before it have left. -/
theorem State.foldl_inject_sends {α : Type} (m : State → α → Msg) (l : List α) (s : State) {a : α} (mem : a ∈ l) :
    ∃ u : State, (m u a).hop ∈ (l.foldl (fun s a => s.inject (m s a)) s).net.hops := by
  induction l generalizing s with
  | nil => cases mem
  | cons b l ih =>
    cases mem with
    | head => exact ⟨s, State.foldl_inject_hops m l _ (List.mem_append_right _ (List.mem_singleton.mpr rfl))⟩
    | tail _ later => exact ih (s.inject (m s b)) later

/-! ### Closing descriptors (R250) -/

/-- `u` is `s` but for the network and the tiles. -/
def State.Closing (s u : State) : Prop := { u with net := s.net, tiles := s.tiles } = s

section
variable {s u w : State}

theorem State.Closing.refl (s : State) : s.Closing s := rfl

theorem State.Closing.trans (h : s.Closing u) (h' : u.Closing w) : s.Closing w :=
  (congrArg (fun x : State => { x with net := s.net, tiles := s.tiles }) h' :).trans h

theorem State.Closing.live (h : s.Closing u) : u.live = s.live := (congrArg State.live h :)
theorem State.Closing.jobs (h : s.Closing u) : u.jobs = s.jobs := (congrArg State.jobs h :)
theorem State.Closing.regs (h : s.Closing u) : u.regs = s.regs := (congrArg State.regs h :)
theorem State.Closing.resv (h : s.Closing u) : u.resv = s.resv := (congrArg State.resv h :)
theorem State.Closing.kept (h : s.Closing u) : u.kept = s.kept := (congrArg State.kept h :)

theorem State.closing_foldl {α : Type} (f : State → α → State) (hf : ∀ (s : State) a, s.Closing (f s a)) (l : List α) (s : State) : s.Closing (l.foldl f s) := by
  induction l generalizing s with
  | nil => exact .refl s
  | cons a l ih => exact (hf s a).trans (ih (f s a))

end

section
variable (s : State) (t : Nat) (c : Core)

theorem State.closing_inject (m : Msg) : s.Closing (s.inject m) := rfl
theorem State.closing_modTile (f : Tile → Tile) : s.Closing (s.modTile t f) := rfl
theorem State.inject_tiles (m : Msg) : (s.inject m).tiles = s.tiles := rfl

theorem State.closeDesc_closing (d : Desc) : s.Closing (s.closeDesc t c d) := by
  unfold State.closeDesc
  split
  · exact State.closing_foldl _ (fun u _ => u.closing_inject _) _ s
  · exact s.closing_modTile t _
  all_goals exact .refl s

/-- Closing an output descriptor leaves every tile. -/
theorem State.closeDesc_out (d : Desc) (out : d.state = .openOut) : (s.closeDesc t c d).tiles = s.tiles := by
  unfold State.closeDesc
  rw [out]
  exact State.foldl_preserves State.tiles _ (fun u _ => u.inject_tiles _) _ s

/-- Closing an input descriptor discards at its stream (R250). -/
theorem State.closeDesc_in (d : Desc) (opened : d.state = .openIn) :
    s.closeDesc t c d = s.modTile t fun x => x.setPort ((x.port d.kind d.stream).discard c.id) := by
  unfold State.closeDesc
  rw [opened]

theorem State.closeDesc_idle (d : Desc) (idle : d.state = .absent ∨ d.state = .closed) : s.closeDesc t c d = s := by
  unfold State.closeDesc
  obtain state | state := idle <;> rw [state]

/-- Closing a descriptor touches no other tile, and of its own the input streams alone. -/
theorem State.closeDesc_tile (d : Desc) (n : Nat) :
    ∃ ports, (s.closeDesc t c d).tile n = { s.tile n with ports := ports } ∧ (n ≠ t → ports = (s.tile n).ports) := by
  cases state : d.state with
  | openOut => exact ⟨_, State.tile_of_tiles (s.closeDesc_out t c d state) n, fun _ => rfl⟩
  | openIn =>
    rw [s.closeDesc_in t c d state, State.tile_modTile]
    split
    next same => exact ⟨_, by rw [same]; rfl, fun other => absurd same other⟩
    next => exact ⟨_, rfl, fun _ => rfl⟩
  | absent => exact ⟨_, by rw [s.closeDesc_idle t c d (.inl state)], fun _ => rfl⟩
  | closed => exact ⟨_, by rw [s.closeDesc_idle t c d (.inr state)], fun _ => rfl⟩

/-- The state once JEND has closed every descriptor of its core (R204). -/
def State.descsClosed : State := c.desc.toList.foldl (fun s d => s.closeDesc t c d) s

theorem State.descsClosed_closing : s.Closing (s.descsClosed t c) := State.closing_foldl _ (fun u d => u.closeDesc_closing t c d) _ s

theorem State.descsClosed_tile_ne (n : Nat) (other : n ≠ t) : (s.descsClosed t c).tile n = s.tile n := by
  refine State.foldl_preserves (fun u => u.tile n) _ (fun u d => ?_) _ s
  obtain ⟨ports, tile, same⟩ := u.closeDesc_tile t c d n
  rw [tile, same other]

theorem State.descsClosed_stores : ((s.descsClosed t c).tile t).abuf = (s.tile t).abuf ∧ ((s.descsClosed t c).tile t).halves = (s.tile t).halves := by
  refine Prod.mk.inj (State.foldl_preserves (fun u => ((u.tile t).abuf, (u.tile t).halves)) _ (fun u d => ?_) _ s)
  obtain ⟨ports, tile, -⟩ := u.closeDesc_tile t c d t
  rw [tile]

/-! ### The end of a job on a tile (R204) -/

/-- The state once a CLOSE is on its way to the apply unit of every live die (R269, R270). -/
def State.closesSent : State := s.liveErgs.foldl (fun s k => s.inject (c.closeMsg t k (s.voidOf c.id))) s

theorem State.closesSent_closing : s.Closing (s.closesSent t c) := State.closing_foldl _ (fun u _ => u.closing_inject _) _ s

theorem State.closesSent_tiles : (s.closesSent t c).tiles = s.tiles := State.foldl_preserves State.tiles _ (fun u _ => u.inject_tiles _) _ s

theorem State.closesSent_hop (k : Nat) (live : k ∈ s.liveErgs) :
    ∃ h ∈ (s.closesSent t c).net.hops, h.msg.src = .tile t ∧ h.msg.dest = .apply k ∧ h.msg.cls = 1 ∧ h.msg.item.body = leBytes 64 7 := by
  obtain ⟨u, sent⟩ := State.foldl_inject_sends (fun s k => c.closeMsg t k (s.voidOf c.id)) s.liveErgs s live
  exact ⟨_, sent, rfl, rfl, rfl, rfl⟩

/-- A job's entry once tile `t` has left it (R23, R204). -/
def Job.without (j : Job) (t : Nat) : Job :=
  let rest := j.running.filter fun u => decide (u ≠ t)
  { j with running := rest, committed := j.committed || (decide (rest = []) && decide (j.stopped = none)) }

/-- The tile and the job, once the job has left the tile (R23, R204). -/
def State.tileLeft (id : JobId) : State := (s.modTile t fun x => { x with core := none }).modJob id fun j => j.without t

theorem State.tileEnded_eq (id : JobId) : s.tileEnded t id =
    match (s.tileLeft t id).job id with
    | some j => if j.committed ∧ j.kind = 3 then (s.tileLeft t id).hostJobOver id else s.tileLeft t id
    | none => s.tileLeft t id := rfl

/-- What the end of a host job adds goes to the host link alone (R399). -/
theorem State.tileEnded_link (id : JobId) : { s.tileEnded t id with link := (s.tileLeft t id).link } = s.tileLeft t id := by
  rw [State.tileEnded_eq]
  split
  · split
    · exact State.hostJobOver_link _ id
    · rfl
  · rfl

theorem State.tileEnded_tiles (id : JobId) : (s.tileEnded t id).tiles = (s.modTile t fun x => { x with core := none }).tiles :=
  (congrArg State.tiles (s.tileEnded_link t id) :)

theorem State.tileEnded_net (id : JobId) : (s.tileEnded t id).net = s.net := (congrArg State.net (s.tileEnded_link t id) :)

theorem State.tileEnded_regs (id : JobId) : (s.tileEnded t id).regs = s.regs := (congrArg State.regs (s.tileEnded_link t id) :)

theorem State.tileEnded_jobs (id : JobId) : (s.tileEnded t id).jobs = (s.modJob id fun j => j.without t).jobs :=
  (congrArg State.jobs (s.tileEnded_link t id) :)

/-- What JEND leaves of the state in which it ends (R204). -/
def State.jobLeft : State := ((s.descsClosed t c).closesSent t c).tileEnded t c.id

theorem State.jobLeft_closing : s.Closing ((s.descsClosed t c).closesSent t c) := (s.descsClosed_closing t c).trans (State.closesSent_closing _ t c)

theorem State.jobLeft_tile : (s.jobLeft t c).tile t = { (s.descsClosed t c).tile t with core := none } := by
  rw [State.jobLeft, State.tile_of_tiles (State.tileEnded_tiles _ _ _), State.tile_modTile_same, State.tile_of_tiles (State.closesSent_tiles _ _ _)]

theorem State.jobLeft_tile_ne (n : Nat) (other : n ≠ t) : (s.jobLeft t c).tile n = s.tile n := by
  rw [State.jobLeft, State.tile_of_tiles (State.tileEnded_tiles _ _ _), State.tile_modTile, if_neg other,
    State.tile_of_tiles (State.closesSent_tiles _ _ _), State.descsClosed_tile_ne _ _ _ _ other]

theorem State.jobLeft_job (j : Job) (known : s.job c.id = some j) : (s.jobLeft t c).job c.id = some (j.without t) := by
  rw [State.jobLeft, State.job_of_jobs (State.tileEnded_jobs _ _ _)]
  refine State.modJob_job _ c.id (fun j => j.without t) (fun _ => rfl) j ?_
  rw [State.job_of_jobs (s.jobLeft_closing t c).jobs, known]

theorem State.jobLeft_hop (k : Nat) (live : k ∈ s.liveErgs) :
    ∃ h ∈ (s.jobLeft t c).net.hops, h.msg.src = .tile t ∧ h.msg.dest = .apply k ∧ h.msg.cls = 1 ∧ h.msg.item.body = leBytes 64 7 := by
  have same : (s.descsClosed t c).liveErgs = s.liveErgs := by simp only [State.liveErgs, State.ergLive, (s.descsClosed_closing t c).live]
  rw [State.jobLeft, State.tileEnded_net]
  exact State.closesSent_hop _ t c k (same ▸ live)

end

theorem execJend_leaves {s : State} {t : Fin 512} {g : Issue} {c : Core} (issues : s.Issues t g c) (idle : ((s.fetched t g c).tile t).flight = [])
    (free : c.holds = []) (sent : ∀ d ∈ c.desc.toList, d.state = .openOut → (s.fetched t g c).unsent t d.stream = false) :
    exec (.jend t g) s = .next ((s.fetched t g c).jobLeft t c) := by
  have noItem : (c.desc.toList.any fun d => d.state == .openOut && (s.fetched t g c).unsent t d.stream) = false := by
    rw [List.any_eq_false]
    intro d mem waits
    obtain ⟨out, left⟩ := (Bool.and_eq_true _ _).mp waits
    exact Bool.false_ne_true ((sent d mem (beq_iff_eq.mp out)).symm.trans left)
  rw [show exec (.jend t g) s = .next (s.issue t g anyEnc _) from rfl, State.issue_runs s t g c anyEnc _ issues rfl]
  simp only [idle, free, noItem]
  rfl

theorem jobEndLeavesTile : Sys2Proof.Claims.JobEndLeavesTile := by
  intro s t g c issues f
  refine ⟨fun idle free sent => ⟨_, execJend_leaves issues idle free sent, ?core, ?abuf, ?halves, f.jobLeft_tile_ne t c, f.jobLeft_hop t c, ?job, ?regs, ?resv, ?kept⟩, ?waits⟩
  case core => rw [State.jobLeft_tile]
  case abuf => rw [State.jobLeft_tile]; exact (f.descsClosed_stores t c).1
  case halves => rw [State.jobLeft_tile]; exact (f.descsClosed_stores t c).2
  case job => exact fun j known => ⟨_, f.jobLeft_job t c j known, by simp [Job.without], rfl⟩
  case regs => exact (State.tileEnded_regs _ _ _).trans (f.jobLeft_closing t c).regs
  case resv => exact (State.tileEnded_resv _ _ _).trans (f.jobLeft_closing t c).resv
  case kept => exact (State.tileEnded_kept _ _ _).trans (f.jobLeft_closing t c).kept
  case waits => exact fun busy => exec_waits issues rfl (if_pos (busy.imp_right .inl))

/-- Settles O10, by the target that a branch names, and by what JEND closes, sends and leaves. -/
theorem controlResults : Obligations.ControlResults := ⟨branchResults, jobEndLeavesTile⟩

end Sys2Proof.Machine
end

section
/-! SUPPORT. ALU, immediate, comparison and extent instructions (09 R229 to R231, R233): obligations O1 to O4. -/

namespace Sys2Proof.Machine

/-! ### Values of the table (R229) -/

theorem sdivN_eq (a b : Word) :
    sdivN a b = if b = 0 then 0 else if a = 0x80000000 ∧ b = 0xFFFFFFFF then 0x7FFFFFFF else a.sdiv b := by
  have quotient : BitVec.ofInt 32 (Int.tdiv a.toInt b.toInt) = a.sdiv b := BitVec.eq_of_toInt_eq (by rw [BitVec.toInt_ofInt, BitVec.toInt_sdiv])
  rw [sdivN, quotient]

theorem sremN_eq (a b : Word) :
    sremN a b = if b = 0 then 0 else if a = 0x80000000 ∧ b = 0xFFFFFFFF then 0 else a.srem b := by
  rw [sremN, ← BitVec.toInt_srem, BitVec.ofInt_toInt]

theorem udivN_eq (a b : Word) : udivN a b = if b = 0 then 0 else a / b := by
  rw [udivN, BitVec.udiv_def]

theorem uremN_eq (a b : Word) : uremN a b = if b = 0 then 0 else a % b := by
  rw [uremN, BitVec.umod_def]

theorem minUnsigned_eq (a b : Word) : (if a.toNat ≤ b.toNat then a else b) = if a < b then a else b := by
  rcases lt_trichotomy a.toNat b.toNat with h | h | h
  · simp [BitVec.lt_def, h, h.le]
  · simp [BitVec.toNat_inj.mp h]
  · simp [BitVec.lt_def, h.not_ge, h.not_gt]

theorem maxUnsigned_eq (a b : Word) : (if b.toNat ≤ a.toNat then a else b) = if a < b then b else a := by
  rcases lt_or_ge a.toNat b.toNat with h | h
  · simp [BitVec.lt_def, h, h.not_ge]
  · simp [BitVec.lt_def, h, h.not_gt]

/-! ### ALU instructions -/

/-- A form of the table that computes a scalar register from two others. -/
def AluPair (i : Fin 512 → Issue → Fin 32 → Fin 32 → Fin 32 → Instr) (f : Word → Word → Word) : Prop :=
  ∀ (s : State) (t : Fin 512) (g : Issue) (dst a b : Fin 32), exec (i t g dst a b) s = .next (s.issueCore t g fun c => c.alu dst a b f)

theorem AluPair.congr {i : Fin 512 → Issue → Fin 32 → Fin 32 → Fin 32 → Instr} {f f' : Word → Word → Word} (h : AluPair i f)
    (same : ∀ a b, f a b = f' a b) : AluPair i f' := by
  have : f = f' := funext fun a => funext fun b => same a b
  exact this ▸ h

theorem AluPair.runs {i : Fin 512 → Issue → Fin 32 → Fin 32 → Fin 32 → Instr} {f : Word → Word → Word} (h : AluPair i f)
    (s : State) (t : Fin 512) (g : Issue) (c : Core) (dst a b : Fin 32) (issues : s.Issues t g c) (more : (s.fetched t g c).More t c) :
    exec (i t g dst a b) s = .next ((s.fetched t g c).setCore t (c.retire (c.setS dst (f (c.s a) (c.s b)) (c.sBad a || c.sBad b)))) :=
  exec_core issues more (h s t g dst a b) rfl

section
variable {s : State} {t : Fin 512} {g : Issue} {c : Core}

/-- An illegal encoding stops the tile with cause 1 and leaves its buffer (R211, R217, R219). -/
theorem exec_illegal_leaves {i : Instr} {illegal : Core → Bool} {F : Core → State → NtRes} (issues : s.Issues t g c)
    (form : exec i s = .next (s.issue t g illegal F)) (bad : illegal c = true) :
    ∃ u, exec i s = .next u ∧ (u.tile t).core = none ∧ u.reg (tileBase t + 0x1C) = 1 ∧ (u.tile t).abuf = (s.tile t).abuf :=
  ⟨_, exec_illegal issues form bad, State.raiseExc_core _ t c 1, State.raiseExc_cause _ t c 1, by
    rw [State.raiseExc_tile, State.tile_of_tiles (s.reported_fetched t g c).tiles]⟩

/-! ### MULW and MULWU: a product in an even pair -/

/-- The even register s2 to s30 of a pair. -/
def pairLo (k : Fin 15) : Fin 32 := ⟨2 * k.val + 2, by omega⟩

theorem nextReg_pairLo (k : Fin 15) : nextReg (pairLo k) = ⟨2 * k.val + 3, by omega⟩ :=
  dif_pos (by simp only [pairLo]; omega)

theorem badPair_pairLo (k : Fin 15) (c : Core) : badPair (pairLo k) c = false :=
  decide_eq_false (by simp only [pairLo]; omega)

theorem Core.setPair_pairLo (c : Core) (k : Fin 15) (v : BitVec 64) (bad : Bool) :
    c.setPair (pairLo k) v.toNat bad = (c.setS (pairLo k) (v.extractLsb' 0 32) bad).setS ⟨2 * k.val + 3, by omega⟩ (v.extractLsb' 32 32) bad := by
  rw [Core.setPair, nextReg_pairLo]
  rfl

theorem signedProduct_eq (x y : Word) : ((x.toInt * y.toInt) % 2 ^ 64).toNat = (x.signExtend 64 * y.signExtend 64).toNat := by
  rw [BitVec.signExtend, BitVec.signExtend, ← BitVec.ofInt_mul, BitVec.toNat_ofInt]
  rfl

theorem unsignedProduct_eq (x y : Word) : x.toNat * y.toNat = (x.zeroExtend 64 * y.zeroExtend 64).toNat := by
  have fits : x.toNat * y.toNat < 2 ^ 64 := (Nat.mul_lt_mul'' x.isLt y.isLt).trans_eq (by norm_num)
  rw [BitVec.toNat_mul, BitVec.toNat_setWidth_of_le (by decide), BitVec.toNat_setWidth_of_le (by decide), Nat.mod_eq_of_lt fits]

/-- The core once a 64-bit product is in pair `k`, poisoned when an operand is (R229). -/
def Core.product (c : Core) (k : Fin 15) (a b : Fin 32) (v : BitVec 64) : Core :=
  (c.setS (pairLo k) (v.extractLsb' 0 32) (c.sBad a || c.sBad b)).setS ⟨2 * k.val + 3, by omega⟩ (v.extractLsb' 32 32) (c.sBad a || c.sBad b)

theorem execMulw_multiplies (k : Fin 15) (a b : Fin 32) (issues : s.Issues t g c) (more : (s.fetched t g c).More t c) :
    exec (.mulw t g (pairLo k) a b) s = .next ((s.fetched t g c).setCore t
      (c.retire (c.product k a b ((c.s a).signExtend 64 * (c.s b).signExtend 64)))) :=
  exec_done issues more rfl (badPair_pairLo k c) (by rw [signedProduct_eq, Core.setPair_pairLo, Core.product])

theorem execMulwu_multiplies (k : Fin 15) (a b : Fin 32) (issues : s.Issues t g c) (more : (s.fetched t g c).More t c) :
    exec (.mulwu t g (pairLo k) a b) s = .next ((s.fetched t g c).setCore t
      (c.retire (c.product k a b ((c.s a).zeroExtend 64 * (c.s b).zeroExtend 64)))) :=
  exec_done issues more rfl (badPair_pairLo k c) (by rw [unsignedProduct_eq, Core.setPair_pairLo, Core.product])

end

/-- Settles O1, by the value that each form computes, the product that a pair holds, and the pairs that are illegal. -/
theorem aluResults : Obligations.AluResults := by
  refine ⟨fun op mem => AluPair.runs ?table, fun s t g c k a b issues more => ?product,
    fun s t g c dst a b issues bad => ?illegal⟩
  case table =>
    revert op
    simp only [List.forall_mem_cons, List.not_mem_nil, false_implies, implies_true, and_true]
    refine ⟨?add, ?sub, ?and, ?or, ?xor, ?sll, ?srl, ?sra, ?mul, ?div, ?divu, ?rem, ?remu, ?min, ?max, ?minu, ?maxu, ?adds, ?subs⟩
    case sll => exact AluPair.congr (fun _ _ _ _ _ _ => rfl) fun a b => congrArg (a <<< ·) (shamt_eq b)
    case srl => exact AluPair.congr (fun _ _ _ _ _ _ => rfl) fun a b => congrArg (a >>> ·) (shamt_eq b)
    case sra => exact AluPair.congr (fun _ _ _ _ _ _ => rfl) fun a b => congrArg a.sshiftRight (shamt_eq b)
    case div => exact AluPair.congr (fun _ _ _ _ _ _ => rfl) sdivN_eq
    case divu => exact AluPair.congr (fun _ _ _ _ _ _ => rfl) udivN_eq
    case rem => exact AluPair.congr (fun _ _ _ _ _ _ => rfl) sremN_eq
    case remu => exact AluPair.congr (fun _ _ _ _ _ _ => rfl) uremN_eq
    case min => exact AluPair.congr (fun _ _ _ _ _ _ => rfl) minSigned_eq
    case max => exact AluPair.congr (fun _ _ _ _ _ _ => rfl) maxSigned_eq
    case minu => exact AluPair.congr (fun _ _ _ _ _ _ => rfl) minUnsigned_eq
    case maxu => exact AluPair.congr (fun _ _ _ _ _ _ => rfl) maxUnsigned_eq
    case adds => exact AluPair.congr (fun _ _ _ _ _ _ => rfl) fun a b => satW_eq (a.toInt + b.toInt)
    case subs => exact AluPair.congr (fun _ _ _ _ _ _ => rfl) fun a b => satW_eq (a.toInt - b.toInt)
    all_goals exact fun _ _ _ _ _ _ => rfl
  case product =>
    exact ⟨execMulw_multiplies k a b issues more, execMulwu_multiplies k a b issues more⟩
  case illegal =>
    exact ⟨exec_illegal_leaves issues rfl (badPair_of dst c bad), exec_illegal_leaves issues rfl (badPair_of dst c bad)⟩

/-! ### Immediates (R208, R230) -/

/-- The IMM12 of SHI with kind `k` and amount `n`. -/
def shiImm (k : BitVec 2) (n : BitVec 5) : BitVec 12 := k ++ (0 : BitVec 5) ++ n

theorem shiImm_toNat (k : BitVec 2) (n : BitVec 5) : (shiImm k n).toNat = k.toNat * 1024 + n.toNat := by
  rw [shiImm, BitVec.toNat_append, BitVec.toNat_append, ← Nat.shiftLeft_add_eq_or_of_lt n.isLt, Nat.shiftLeft_eq, Nat.shiftLeft_eq]
  show (k.toNat * 2 ^ 5 ||| 0) * 2 ^ 5 + n.toNat = _
  rw [Nat.or_zero]
  omega

theorem shiImm_kind (k : BitVec 2) (n : BitVec 5) : bitsOf (shiImm k n).toNat 11 10 = k.toNat := by
  rw [shiImm_toNat, bitsOf, Nat.shiftRight_eq_div_pow]
  omega

theorem shiImm_reserved (k : BitVec 2) (n : BitVec 5) : bitsOf (shiImm k n).toNat 9 5 = 0 := by
  rw [shiImm_toNat, bitsOf, Nat.shiftRight_eq_div_pow]
  omega

theorem shiImm_amount (k : BitVec 2) (n : BitVec 5) : bitsOf (shiImm k n).toNat 4 0 = n.toNat := by
  rw [shiImm_toNat, bitsOf, Nat.shiftRight_eq_div_pow]
  omega

theorem badShi_shiImm (k : BitVec 2) (n : BitVec 5) (c : Core) (legal : k.toNat ≠ 3) : badShi (shiImm k n) c = false := by
  refine decide_eq_false ?_
  rw [shiImm_kind, shiImm_reserved]
  exact not_or.mpr ⟨legal, not_not.mpr rfl⟩

theorem shiOp_left (n : BitVec 5) (x : Word) : shiOp (shiImm 0 n) x = x <<< n.toNat := by
  simp only [shiOp, shiImm_kind, shiImm_amount] <;> rfl

theorem shiOp_right (n : BitVec 5) (x : Word) : shiOp (shiImm 1 n) x = x >>> n.toNat := by
  simp only [shiOp, shiImm_kind, shiImm_amount] <;> rfl

theorem shiOp_arithmetic (n : BitVec 5) (x : Word) : shiOp (shiImm 2 n) x = x.sshiftRight n.toNat := by
  simp only [shiOp, shiImm_kind, shiImm_amount] <;> rfl

theorem luiValue_eq (i : BitVec 17) : i.zeroExtend 32 <<< 15 = i ++ (0 : BitVec 15) := by
  refine BitVec.eq_of_toNat_eq ?_
  rw [BitVec.toNat_append, BitVec.toNat_shiftLeft, BitVec.toNat_setWidth_of_le (by decide)]
  show _ = i.toNat <<< 15 ||| 0
  rw [Nat.or_zero, Nat.shiftLeft_eq]
  omega

section
variable {s : State} {t : Fin 512} {g : Issue} {c : Core}

theorem execShi_shifts {k : BitVec 2} {n : BitVec 5} {a : Fin 32} {v : Word} (dst : Fin 32) (issues : s.Issues t g c) (more : (s.fetched t g c).More t c)
    (legal : k.toNat ≠ 3) (shift : shiOp (shiImm k n) (c.s a) = v) :
    exec (.shi t g dst a (shiImm k n)) s = .next ((s.fetched t g c).setCore t (c.retire (c.setS dst v (c.sBad a)))) :=
  exec_done issues more rfl (badShi_shiImm k n c legal) (by rw [Core.imm, shift])

end

/-- Settles O2, by the fields of a shift's immediate, and the encodings that are illegal. -/
theorem immediateResults : Obligations.ImmediateResults := by
  refine ⟨fun op mem s t g c dst a i issues more => ?logic, fun s t g c dst a n issues more => ?shi, fun s t g c dst i issues more => ?lui,
    fun s t g c dst a i issues bad => exec_illegal_leaves issues rfl (badShi_of i c bad)⟩
  case logic =>
    have form : exec (op.1 t g dst a i) s = .next (s.issueCore t g fun c => c.imm dst a (op.2 · i)) := by
      revert op
      simp only [List.forall_mem_cons, List.not_mem_nil, false_implies, implies_true, and_true]
      exact ⟨rfl, rfl, rfl, rfl⟩
    exact exec_core issues more form rfl
  case shi =>
    exact ⟨execShi_shifts dst issues more (by decide) (shiOp_left n _), execShi_shifts dst issues more (by decide) (shiOp_right n _),
      execShi_shifts dst issues more (by decide) (shiOp_arithmetic n _)⟩
  case lui => exact exec_core issues more rfl (congrArg (c.setS dst · false) (luiValue_eq i))

/-! ### Comparisons (R231) -/

theorem geSigned_eq (a b : Word) : decide (b.toInt ≤ a.toInt) = !a.slt b :=
  (decide_eq_decide.mpr not_lt.symm).trans decide_not

theorem geUnsigned_eq (a b : Word) : decide (b.toNat ≤ a.toNat) = !a.ult b :=
  (decide_eq_decide.mpr not_lt.symm).trans decide_not

/-- Settles O3, by the comparison that each form makes. -/
theorem comparisonResults : Obligations.ComparisonResults := by
  intro op mem s t g c dst a b issues more
  have form : exec (op.1 t g dst a b) s = .next (s.issueCore t g fun c => c.cmp dst a b op.2) := by
    have ge : (fun a b : Word => decide (b.toInt ≤ a.toInt)) = fun a b => !a.slt b := funext₂ geSigned_eq
    have geu : (fun a b : Word => decide (b.toNat ≤ a.toNat)) = fun a b => !a.ult b := funext₂ geUnsigned_eq
    revert op
    simp only [List.forall_mem_cons, List.not_mem_nil, false_implies, implies_true, and_true, ← ge, ← geu]
    exact ⟨rfl, rfl, rfl, rfl, rfl, rfl⟩
  exact exec_core issues more form rfl

/-! ### Extents (R233) -/

/-- Settles O4, by the change that each instruction makes to its core. -/
theorem addressRegisterResults : Obligations.AddressRegisterResults := by
  intro s t g c issues more f toS toA
  have done {i : Instr} {F : Core → Core} {k : Core} (form : exec i s = .next (s.issueCore t g F)) (after : F c = k) : exec i s = .next (f.setCore t (c.retire k)) :=
    exec_core issues more form after
  exact ⟨fun _ _ _ => done rfl rfl, fun _ _ => done rfl rfl, fun _ _ _ => done rfl rfl, fun _ _ _ => done rfl rfl,
    fun _ _ => ⟨done rfl rfl, done rfl rfl⟩⟩

end Sys2Proof.Machine
end

section
/-! SUPPORT. Loads and unloads (11 R290, R291, R296, R297; 15 R390, R398, R400): obligation O46. -/

namespace Sys2Proof.Machine

variable (s : State)

/-! ### What making a tile ready leaves to the loader (R133, R339) -/

/-- The images of the loader, and the admin command that runs. -/
def State.adminPart (s : State) : Loader × Option HpCmd := (s.loader, s.link.adminNow)

variable {s} in
theorem State.adminPart_of {u : State} (loader : u.loader = s.loader) (now : u.link.adminNow = s.link.adminNow) : u.adminPart = s.adminPart := by
  rw [State.adminPart, loader, now, State.adminPart]

theorem State.setReg_adminPart (a : Nat) (v : Word) : (s.setReg a v).adminPart = s.adminPart := State.adminPart_of rfl rfl
theorem State.setFlag_adminPart (a b : Nat) : (s.setFlag a b).adminPart = s.adminPart := s.setReg_adminPart _ _
theorem State.countByte_adminPart (a n : Nat) : (s.countByte a n).adminPart = s.adminPart := s.setReg_adminPart _ _
theorem State.gvFlag_adminPart (b : Nat) : (s.gvFlag b).adminPart = s.adminPart := s.setFlag_adminPart _ _
theorem State.tileFlag_adminPart (t b : Nat) : (s.tileFlag t b).adminPart = s.adminPart := (State.countByte_adminPart _ _ _).trans (s.setFlag_adminPart _ _)

theorem State.signal_adminPart (v : Nat) : (s.signal v).adminPart = s.adminPart := by
  unfold State.signal
  dsimp only
  split_ifs <;> rfl

theorem State.makeRecord_adminPart (die sev : Nat) (key : Option Key) (bytes : List Byte) : (s.makeRecord die sev key bytes).adminPart = s.adminPart := by
  have stored (u : State) : (u.recordStored bytes).adminPart = u.adminPart := State.adminPart_of rfl rfl
  have sent (irq : Bool) : (s.recordSent die key bytes irq).adminPart = s.adminPart := State.adminPart_of rfl rfl
  rw [State.makeRecord_eq]
  dsimp only
  split_ifs <;> simp only [State.signal_adminPart, stored, sent]

theorem State.countVoid_adminPart (void : Nat) : (s.countVoid void).adminPart = s.adminPart := by
  have flags : ((List.range 4).foldl (fun s b => if void.testBit b then s.gvFlag b else s) s).adminPart = s.adminPart :=
    State.foldl_preserves State.adminPart _ (fun u b => by split; exacts [u.gvFlag_adminPart b, rfl]) _ s
  unfold State.countVoid
  dsimp only
  split_ifs
  · exact flags
  · exact (State.setReg_adminPart _ _ _).trans flags

theorem State.cairnFlag_adminPart (k b : Nat) : (s.cairnFlag k b).adminPart = s.adminPart := by
  unfold State.cairnFlag
  dsimp only
  split
  · exact (State.countByte_adminPart _ _ _).trans (s.setFlag_adminPart _ _)
  · exact s.setFlag_adminPart _ _

theorem State.cairnFlags_adminPart (k : Nat) (bs : List Nat) : (s.cairnFlags k bs).adminPart = s.adminPart :=
  State.foldl_preserves State.adminPart _ (fun u b => u.cairnFlag_adminPart k b) bs s

theorem State.dropBindings_adminPart (id : JobId) : (s.dropBindings id).adminPart = s.adminPart := by
  have put (u : State) (k : Nat) (x : ApplyUnit) : (u.setApply k x).adminPart = u.adminPart := State.adminPart_of rfl rfl
  unfold State.dropBindings
  exact State.foldl_preserves State.adminPart _ (fun u k => (State.cairnFlags_adminPart _ k _).trans (put u k _)) _ s

theorem State.hpDone_adminPart (c : HpCmd) (status detail result : Nat) : (s.hpDone c status detail result).adminPart = s.adminPart := by
  unfold State.hpDone
  dsimp only
  split <;> rfl

theorem State.hostJobOver_adminPart (id : JobId) : (s.hostJobOver id).adminPart = s.adminPart := by
  unfold State.hostJobOver
  split
  · rfl
  · split
    · exact State.hpDone_adminPart _ _ _ _ _
    · rfl

theorem State.stopReports_adminPart (j : Job) (id : JobId) (reason : Nat) (key : Key) (detail unit : Nat) :
    (s.stopReports j id reason key detail unit).adminPart = s.adminPart := by
  have record : ((s.makeRecord (s.jobDie j) 2 (some (stopKey id reason key))
      (stopBytes s.replaying (j.stopVoid reason) reason j.entrySlot (stopKey id reason key) detail s.time.now unit)).countVoid (j.stopVoid reason)).adminPart = s.adminPart :=
    (State.countVoid_adminPart _ _).trans (s.makeRecord_adminPart _ _ _ _)
  unfold State.stopReports
  dsimp only
  split
  · exact record
  · exact record

theorem State.stopEnds_adminPart (j : Job) (id : JobId) (reason : Nat) (key : Key) (detail unit : Nat) :
    (s.stopEnds j id reason key detail unit).adminPart = s.adminPart := by
  have freed (u : State) : (u.freeTiles id).adminPart = u.adminPart := State.adminPart_of rfl rfl
  have cycled (u : State) (l : List Cycle) : ({ u with cycles := l } : State).adminPart = u.adminPart := State.adminPart_of rfl rfl
  have stopped (f : Job → Job) : (s.modJob id f).adminPart = s.adminPart := State.adminPart_of rfl rfl
  rw [State.stopEnds, cycled, State.dropBindings_adminPart, freed, State.stopReports_adminPart, stopped]

theorem State.stopJob_adminPart (id : JobId) (reason : Nat) (key : Key) (detail unit : Nat) : (s.stopJob id reason key detail unit).adminPart = s.adminPart := by
  cases hj : s.job id with
  | none => rw [s.stopJob_none hj]
  | some j =>
    by_cases ended : j.isOver
    · rw [s.stopJob_over hj ended]
    · rw [s.stopJob_active hj ended]
      split
      · rw [State.hostJobOver_adminPart, State.stopEnds_adminPart]
      · rw [State.stopEnds_adminPart]

theorem State.reclaim_adminPart (id : JobId) (tiles : List Nat) (unit : Nat) : (s.reclaim id tiles unit).adminPart = s.adminPart :=
  have flags : (tiles.foldl (fun s t => s.tileFlag t 6) s).adminPart = s.adminPart :=
    State.foldl_preserves State.adminPart _ (fun u t => u.tileFlag_adminPart t 6) tiles s
  (State.stopJob_adminPart _ _ _ _ _ _).trans flags

/-- A wake request moves the power control alone (R339). -/
theorem State.wakeRow_eq (d : Nat) : ∃ p, s.wakeRow d = { s with power := p } := by
  unfold State.wakeRow
  dsimp only
  split
  · exact ⟨s.power, rfl⟩
  · exact ⟨_, rfl⟩

/-- Not-admitted jobs that hold a retiring half stop, and the half becomes lee (R133). -/
def State.reclaimTile (t : Nat) (p : Time) : State := ((s.holders t p).foldl (fun s j => s.reclaim j.id [t] t) s).retireTile t

/-- What making a tile ready can do: its row wakes; a half that no reservation and no admitted job holds is reclaimed. -/
theorem State.readyTile_cases (t : Nat) : s.readyTile t = s.wakeRow (rowDom t) ∨ ∃ p, s.readyTile t = (s.wakeRow (rowDom t)).reclaimTile t p := by
  unfold State.readyTile
  dsimp only
  split
  · exact .inl rfl
  · rename_i p _
    split
    · exact .inl rfl
    · exact .inr ⟨p, rfl⟩

theorem State.wakeRow_adminPart (d : Nat) : (s.wakeRow d).adminPart = s.adminPart := by
  obtain ⟨p, wakes⟩ := s.wakeRow_eq d
  rw [wakes]
  rfl

theorem State.retireTile_adminPart (t : Nat) : (s.retireTile t).adminPart = s.adminPart := State.adminPart_of rfl rfl

theorem State.reclaimTile_adminPart (t : Nat) (p : Time) : (s.reclaimTile t p).adminPart = s.adminPart :=
  (State.retireTile_adminPart _ t).trans (State.foldl_preserves State.adminPart _ (fun u (j : Job) => u.reclaim_adminPart j.id [t] t) (s.holders t p) s)

theorem State.readyTile_adminPart (t : Nat) : (s.readyTile t).adminPart = s.adminPart := by
  rcases s.readyTile_cases t with wakes | ⟨p, reclaims⟩
  · rw [wakes, State.wakeRow_adminPart]
  · rw [reclaims, State.reclaimTile_adminPart, State.wakeRow_adminPart]

/-- The tiles of a load or an unload, made ready one after the other. -/
def State.readyAll (l : List Nat) : State := l.foldl (fun s t => s.readyTile t) s

theorem State.readyAll_adminPart (l : List Nat) : (s.readyAll l).adminPart = s.adminPart :=
  State.foldl_preserves State.adminPart _ State.readyTile_adminPart l s

theorem State.readyAll_resv (l : List Nat) : (s.readyAll l).resv = s.resv :=
  State.foldl_preserves State.resv _ (fun u t => u.readyTile_resv t) l s

/-! ### Tiles that are ready: their rows were woken, and nothing else was done (R133, R291) -/

theorem State.freeTiles_refreshing (id : JobId) (n : Nat) (h : (s.tile n).refreshing = true) : ((s.freeTiles id).tile n).refreshing = true := by
  have listed : Tile.left id (s.tile n) ≠ {} := fun e => absurd (h.symm.trans (congrArg Tile.refreshing e :)) (by decide)
  exact (congrArg Tile.refreshing (mget_map_filter (Tile.left id) s.tiles n listed rfl)).trans h

theorem State.reclaim_refreshing (id : JobId) (tiles : List Nat) (unit n : Nat) (h : (s.tile n).refreshing = true) :
    ((s.reclaim id tiles unit).tile n).refreshing = true := by
  have flagged : (tiles.foldl (fun s t => s.tileFlag t 6) s).tiles = s.tiles := 
    State.foldl_preserves State.tiles (fun s t => s.tileFlag t 6) (fun _ _ => rfl) tiles s
  have still := (congrArg Tile.refreshing (State.tile_of_tiles flagged n)).trans h
  unfold State.reclaim
  dsimp only
  rcases State.stopJob_tiles (tiles.foldl (fun s t => s.tileFlag t 6) s) id 0x0A 0 0 unit with same | freed
  · rw [State.tile_of_tiles same, still]
  · rw [State.tile_of_tiles freed, State.freeTiles_refreshing _ id n still]

theorem State.foldl_reclaim_refreshing (t n : Nat) (l : List Job) (s : State) (h : (s.tile n).refreshing = true) :
    ((l.foldl (fun s j => s.reclaim j.id [t] t) s).tile n).refreshing = true := by
  induction l generalizing s with
  | nil => exact h
  | cons j l ih => exact ih _ (s.reclaim_refreshing j.id [t] t n h)

theorem State.retireTile_tile (t n : Nat) : (s.retireTile t).tile n = if n = t then { s.tile t with retiring := none, refreshing := true } else s.tile n :=
  State.tile_modTile _ _ _ _

theorem State.wakeRow_tile (d n : Nat) : (s.wakeRow d).tile n = s.tile n := by
  obtain ⟨p, wakes⟩ := s.wakeRow_eq d
  rw [wakes]
  rfl

/-- A refresh under way goes on while tiles are made ready. -/
theorem State.readyTile_refreshing (t n : Nat) (h : (s.tile n).refreshing = true) : ((s.readyTile t).tile n).refreshing = true := by
  have woken : ((s.wakeRow (rowDom t)).tile n).refreshing = true := by rw [State.wakeRow_tile, h]
  rcases s.readyTile_cases t with wakes | ⟨p, reclaims⟩
  · rw [wakes, woken]
  · rw [reclaims, State.reclaimTile, State.retireTile_tile]
    split
    · rfl
    · exact State.foldl_reclaim_refreshing t n _ _ woken

theorem State.readyAll_refreshing (n : Nat) (l : List Nat) (s : State) (h : (s.tile n).refreshing = true) : ((s.readyAll l).tile n).refreshing = true := by
  induction l generalizing s with
  | nil => exact h
  | cons t l ih => exact ih _ (s.readyTile_refreshing t n h)

theorem State.reclaimTile_refreshing (t : Nat) (p : Time) : ((s.reclaimTile t p).tile t).refreshing = true := by
  rw [State.reclaimTile, State.retireTile_tile, if_pos rfl]

/-- Where no tile is being refreshed in the end, no half was reclaimed on the way: the rows of the tiles were woken. -/
theorem State.readyAll_wakes (l : List Nat) (s : State) (free : ∀ t ∈ l, ((s.readyAll l).tile t).refreshing = false) : ∃ p, s.readyAll l = { s with power := p } := by
  induction l generalizing s with
  | nil => exact ⟨s.power, rfl⟩
  | cons t l ih =>
    have first : s.readyTile t = s.wakeRow (rowDom t) := by
      refine (s.readyTile_cases t).resolve_right fun ⟨p, reclaims⟩ => ?_
      have busy : ((s.readyTile t).tile t).refreshing = true := by rw [reclaims, State.reclaimTile_refreshing]
      exact absurd ((State.readyAll_refreshing t l _ busy).symm.trans (free t List.mem_cons_self)) (by decide)
    obtain ⟨p, wakes⟩ := s.wakeRow_eq (rowDom t)
    obtain ⟨q, rest⟩ := ih (s.readyTile t) fun n hn => free n (List.mem_cons_of_mem _ hn)
    exact ⟨q, rest.trans (by rw [first, wakes])⟩

theorem State.not_refreshing_of_tilesReady {l : List Nat} (h : s.tilesReady l = true) (t : Nat) (ht : t ∈ l) : (s.tile t).refreshing = false := by
  have free := List.all_eq_true.mp h t ht
  unfold State.tileLeeBusy at free
  cases busy : (s.tile t).refreshing
  · rfl
  · simp [busy] at free

theorem State.readyAll_ready {l : List Nat} (h : (s.readyAll l).tilesReady l = true) : ∃ p, s.readyAll l = { s with power := p } :=
  State.readyAll_wakes l s (State.not_refreshing_of_tilesReady _ h)

/-! ### The image store (R293, R307) -/

/-- A write into the reservoir touches it alone, and the power control has no part in it (R584). -/
theorem State.resvWrite_power (p : Power) (base : Nat) (bs : List Byte) (bad : Nat → Bool) (void : Nat) :
    ({ s with power := p } : State).resvWrite base bs bad void = { s.resvWrite base bs bad void with power := p } := by
  have dead (r : Reservoir) (a : Nat) : ({ s with power := p, resv := r } : State).stackDead a = ({ s with resv := r } : State).stackDead a := rfl
  have here := dead s.resv base
  unfold State.resvWrite
  dsimp only at here ⊢
  rw [here]
  split
  · rw [dead s.resv]
    split <;> rfl
  · rw [dead]
    split <;> rfl

/-- `u` is `s` but for the reservoir. -/
def State.Stored (s u : State) : Prop := { u with resv := s.resv } = s

variable {s} in
theorem State.Stored.trans {u w : State} (h : s.Stored u) (h' : u.Stored w) : s.Stored w := (congrArg (fun x : State => { x with resv := s.resv }) h' :).trans h

theorem State.stored_resvWrite (base : Nat) (bs : List Byte) (bad : Nat → Bool) (void : Nat) : s.Stored (s.resvWrite base bs bad void) := by
  unfold State.resvWrite
  dsimp only
  split_ifs <;> rfl

/-- The next spill range takes its part of the SPILL bytes (R307). -/
def State.spillWrite (x : State × List Byte) (r : ResRec) : State × List Byte :=
  (x.1.resvWrite (r.base * 2 ^ 20) (x.2.take (r.len * 2 ^ 20)) clean 0, x.2.drop (r.len * 2 ^ 20))

theorem State.storeImage_eq (d : List Byte) (i : Image) : ∃ spill, ∀ s : State,
    s.storeImage d i = ((i.res.filter fun r => decide (r.use = 1)).foldl State.spillWrite (s.resvWrite i.store d clean 0, spill)).1 := by
  unfold State.storeImage State.spillWrite
  exact ⟨_, fun _ => rfl⟩

theorem State.foldl_spillWrite_power (p : Power) (l : List ResRec) (u : State) (bs : List Byte) :
    (l.foldl State.spillWrite ({ u with power := p }, bs)).1 = { (l.foldl State.spillWrite (u, bs)).1 with power := p } := by
  induction l generalizing u bs with
  | nil => rfl
  | cons r l ih =>
    rw [List.foldl_cons, List.foldl_cons, State.spillWrite, State.spillWrite, State.resvWrite_power]
    exact ih _ _

theorem State.storeImage_power (p : Power) (d : List Byte) (i : Image) : ({ s with power := p } : State).storeImage d i = { s.storeImage d i with power := p } := by
  obtain ⟨spill, stores⟩ := State.storeImage_eq d i
  rw [stores, stores, State.resvWrite_power, State.foldl_spillWrite_power]

theorem State.stored_spillWrites (l : List ResRec) (x : State × List Byte) : x.1.Stored (l.foldl State.spillWrite x).1 := by
  induction l generalizing x with
  | nil => exact rfl
  | cons r l ih => exact (State.stored_resvWrite x.1 _ _ _ _ : x.1.Stored (State.spillWrite x r).1).trans (ih _)

theorem State.stored_storeImage (d : List Byte) (i : Image) : s.Stored (s.storeImage d i) := by
  obtain ⟨spill, stores⟩ := State.storeImage_eq d i
  rw [stores]
  exact (s.stored_resvWrite _ _ _ _).trans (State.stored_spillWrites _ (s.resvWrite i.store d clean 0, spill))

/-! ### Writes into the banks of tiles (R294, R296, R297) -/

/-- `u` is `s` but for the banks of tiles, and the checksums that the loader expects of them. -/
def State.Banked (s u : State) : Prop := { u with tiles := s.tiles, loader := { u.loader with expect := s.loader.expect } } = s

section
variable {s} {u w : State}

theorem State.Banked.refl (s : State) : s.Banked s := rfl

theorem State.Banked.trans (h : s.Banked u) (h' : u.Banked w) : s.Banked w :=
  (congrArg (fun x : State => { x with tiles := s.tiles, loader := { x.loader with expect := s.loader.expect } }) h' :).trans h

theorem State.Banked.regs (h : s.Banked u) : u.regs = s.regs := (congrArg State.regs h :)
theorem State.Banked.resv (h : s.Banked u) : u.resv = s.resv := (congrArg State.resv h :)
theorem State.Banked.words (h : s.Banked u) : u.crest = s.crest := (congrArg State.crest h :)
theorem State.Banked.slip (h : s.Banked u) : u.slip = s.slip := (congrArg State.slip h :)
theorem State.Banked.images (h : s.Banked u) : u.loader.crest = s.loader.crest := (congrArg (fun x : State => x.loader.crest) h :)
theorem State.Banked.lee (h : s.Banked u) : u.loader.lee = s.loader.lee := (congrArg (fun x : State => x.loader.lee) h :)

theorem State.banked_foldl {α : Type} (f : State → α → State) (hf : ∀ (s : State) a, s.Banked (f s a)) (l : List α) (s : State) : s.Banked (l.foldl f s) := by
  induction l generalizing s with
  | nil => exact .refl s
  | cons a l ih => exact (hf s a).trans (ih (f s a))

end

theorem State.banked_modHalf (t h : Nat) (f : TileBank → TileBank) : s.Banked (s.modHalf t h f) := rfl
theorem State.banked_expectAll (l : List Nat) : s.Banked (s.expectAll l) := State.banked_foldl State.expectLee (fun _ _ => rfl) l s

theorem State.banked_zeroLee (p : PlaceRec) : s.Banked (s.zeroLee p) := by
  unfold State.zeroLee
  dsimp only
  split
  · exact (s.banked_modHalf _ _ _).trans (State.banked_modHalf _ _ _ _)
  · exact s.banked_modHalf _ _ _

theorem State.banked_putChunk (h : Nat) (c : Chunk) (bad : Nat → Bool) : s.Banked (s.putChunk h c bad) := by
  unfold State.putChunk
  split <;> exact s.banked_modHalf _ _ _

/-- A chunk reaches its tile alone. -/
theorem State.putChunk_tile_ne (h : Nat) (c : Chunk) (bad : Nat → Bool) (n : Nat) (other : n ≠ c.tile) : (s.putChunk h c bad).tile n = s.tile n := by
  unfold State.putChunk State.modHalf
  split <;> rw [State.tile_modTile, if_neg other]

/-! ### What crest holds (R131, R297) -/

/-- `u` has the crest of `s`: its banked words, its images, the slip and which half is crest, and the crest half of each tile that has two banks. -/
structure State.CrestKept (s u : State) : Prop where
  regs : u.regs = s.regs
  words : u.crest = s.crest
  slip : u.slip = s.slip
  images : u.loader.crest = s.loader.crest
  bank : ∀ n, s.leeEn n = true → (u.tile n).half (s.crestHalf n) = (s.tile n).half (s.crestHalf n)

section
variable {s} {u w : State}

theorem State.leeEn_of_regs (h : u.regs = s.regs) (n : Nat) : u.leeEn n = s.leeEn n := by unfold State.leeEn State.reg; rw [h]
theorem State.crestHalf_of_regs (h : u.regs = s.regs) (n : Nat) : u.crestHalf n = s.crestHalf n := by unfold State.crestHalf State.reg; rw [h]

theorem State.CrestKept.refl (s : State) : s.CrestKept s := ⟨rfl, rfl, rfl, rfl, fun _ _ => rfl⟩

theorem State.CrestKept.trans (h : s.CrestKept u) (h' : u.CrestKept w) : s.CrestKept w where
  regs := h'.regs.trans h.regs
  words := h'.words.trans h.words
  slip := h'.slip.trans h.slip
  images := h'.images.trans h.images
  bank n two := by
    have later := h'.bank n ((State.leeEn_of_regs h.regs n).trans two)
    rw [State.crestHalf_of_regs h.regs] at later
    exact later.trans (h.bank n two)

theorem State.crestKept_foldl {α : Type} (f : State → α → State) (hf : ∀ (s : State) a, s.CrestKept (f s a)) (l : List α) (s : State) : s.CrestKept (l.foldl f s) := by
  induction l generalizing s with
  | nil => exact .refl s
  | cons a l ih => exact (hf s a).trans (ih (f s a))

/-- A change of banks keeps crest, if it keeps the crest halves. -/
theorem State.Banked.crestKept (h : s.Banked u) (bank : ∀ n, s.leeEn n = true → (u.tile n).half (s.crestHalf n) = (s.tile n).half (s.crestHalf n)) : s.CrestKept u :=
  ⟨h.regs, h.words, h.slip, h.images, bank⟩

/-- So does one that leaves the tiles alone. -/
theorem State.Banked.crestKept_of_tiles (h : s.Banked u) (tiles : u.tiles = s.tiles) : s.CrestKept u :=
  h.crestKept fun n _ => by rw [State.tile_of_tiles tiles]

end

/-- A change of the lee half of a tile is none of a crest half; with one bank for both it may be any half. -/
theorem State.crestKept_modHalf (t h : Nat) (f : TileBank → TileBank) (lee : s.leeEn t = true → h = s.leeHalf t) : s.CrestKept (s.modHalf t h f) := by
  refine (s.banked_modHalf t h f).crestKept fun n two => ?_
  unfold State.modHalf
  rw [State.tile_modTile]
  split
  · rename_i same
    subst same
    refine Tile.half_setHalf_other _ _ _ _ ?_
    have bit := s.crestHalf_lt n
    rw [lee two, State.leeHalf]
    omega
  · rfl

theorem State.leeHalf_of_regs {u s : State} (h : u.regs = s.regs) (n : Nat) : u.leeHalf n = s.leeHalf n := by
  rw [State.leeHalf, State.crestHalf_of_regs h, State.leeHalf]

theorem State.crestKept_zeroLee (p : PlaceRec) : s.CrestKept (s.zeroLee p) := by
  have tables (u : State) (same : u.regs = s.regs) : u.CrestKept (u.modHalf p.tile (s.leeHalf p.tile) fun b => b.zeroTables p) :=
    u.crestKept_modHalf _ _ _ fun _ => (State.leeHalf_of_regs same p.tile).symm
  unfold State.zeroLee
  dsimp only
  split
  · exact (s.crestKept_modHalf _ _ _ fun _ => rfl).trans (tables _ rfl)
  · exact tables s rfl

/-- A chunk for lee keeps crest. -/
theorem State.crestKept_putChunk (c : Chunk) (bad : Nat → Bool) : s.CrestKept (s.putChunk (s.leeHalf c.tile) c bad) := by
  unfold State.putChunk
  split
  · exact s.crestKept_modHalf _ _ _ fun two => by rw [State.bedHalf, if_pos two]
  · exact s.crestKept_modHalf _ _ _ fun _ => rfl

theorem State.expectAll_tiles (l : List Nat) : (s.expectAll l).tiles = s.tiles := State.foldl_preserves State.tiles State.expectLee (fun _ _ => rfl) l s

theorem State.crestKept_expectAll (l : List Nat) : s.CrestKept (s.expectAll l) := (s.banked_expectAll l).crestKept_of_tiles (s.expectAll_tiles l)

/-- The loader notes what lee holds, and which slots have changed since the last slip. -/
def State.noteLee (lee : Vector (Option Image) 4) (changed : Vector Bool 4) : State := { s with loader := { s.loader with lee, changed } }

theorem State.crestKept_noteLee (lee : Vector (Option Image) 4) (changed : Vector Bool 4) : s.CrestKept (s.noteLee lee changed) :=
  ⟨rfl, rfl, rfl, rfl, fun _ _ => rfl⟩

/-! ### The carry of a slot (R297) -/

theorem State.crestKept_putStored (i : Image) (x : Nat × Chunk) : s.CrestKept (s.putStored (s.leeHalf x.2.tile) i x) := s.crestKept_putChunk x.2 _
theorem State.banked_putStored (h : Nat) (i : Image) (x : Nat × Chunk) : s.Banked (s.putStored h i x) := s.banked_putChunk _ _ _

/-- The claims of an image in lee, zeroed, and the checksums that follow. -/
def State.emptied (l : List PlaceRec) (ts : List Nat) : State := (l.foldl (fun s p => s.zeroLee p) s).expectAll ts

/-- The chunks of an image's store in lee, and the checksums that follow. -/
def State.carried (i : Image) : State := ((s.storeChunks i).foldl (fun s x => s.putStored (s.leeHalf x.2.tile) i x) s).expectAll (placedTiles i.place)

theorem State.banked_emptied (l : List PlaceRec) (ts : List Nat) : s.Banked (s.emptied l ts) :=
  (State.banked_foldl _ State.banked_zeroLee l s).trans (State.banked_expectAll _ _)

theorem State.crestKept_emptied (l : List PlaceRec) (ts : List Nat) : s.CrestKept (s.emptied l ts) :=
  (State.crestKept_foldl _ State.crestKept_zeroLee l s).trans (State.crestKept_expectAll _ _)

theorem State.banked_carried (i : Image) : s.Banked (s.carried i) :=
  (State.banked_foldl _ (fun u x => u.banked_putStored _ i x) _ s).trans (State.banked_expectAll _ _)

theorem State.crestKept_carried (i : Image) : s.CrestKept (s.carried i) :=
  (State.crestKept_foldl _ (fun u x => u.crestKept_putStored i x) (s.storeChunks i) s).trans (State.crestKept_expectAll _ _)

/-- What a carry can do: nothing; empty the slot in lee; fill it from the store. -/
theorem State.carry_cases (k : Nat) : s.carry k = s ∨ ∃ u i changed, s.Banked u ∧ s.CrestKept u ∧ s.carry k = u.noteLee (u.loader.lee.setIfInBounds k i) changed := by
  unfold State.carry
  split
  · exact .inl rfl
  · rename_i i _
    split
    · exact .inl rfl
    · split
      · exact .inr ⟨s.emptied i.place (placedTiles i.place), none, _, s.banked_emptied _ _, s.crestKept_emptied _ _, rfl⟩
      · exact .inr ⟨s.carried i, some i, _, s.banked_carried i, s.crestKept_carried i, rfl⟩

theorem State.crestKept_carry (k : Nat) : s.CrestKept (s.carry k) := by
  rcases s.carry_cases k with same | ⟨u, i, changed, -, kept, moved⟩
  · rw [same]; exact .refl s
  · rw [moved]; exact kept.trans (u.crestKept_noteLee _ _)

theorem getD_setIfInBounds_ne {α : Type} (v : Vector α 4) (k n : Nat) (x d : α) (other : n ≠ k) : (v.setIfInBounds k x).toList.getD n d = v.toList.getD n d := by
  simp [List.getD, List.getElem?_set_ne (Ne.symm other)]

theorem getD_setIfInBounds_same {α : Type} (v : Vector α 4) (k : Nat) (x d : α) (h : k < 4) : (v.setIfInBounds k x).toList.getD k d = x := by
  simp [List.getD, h]

/-- A carry leaves the other slots as they are. -/
theorem State.carry_lee_ne (k n : Nat) (other : n ≠ k) : (s.carry k).loader.lee.toList.getD n none = s.loader.lee.toList.getD n none := by
  rcases s.carry_cases k with same | ⟨u, i, changed, banked, -, moved⟩
  · rw [same]
  · rw [moved, ← banked.lee]
    exact getD_setIfInBounds_ne _ _ _ _ _ other

theorem State.foldl_carry_lee (n : Nat) (l : List Nat) (other : ∀ k ∈ l, n ≠ k) (s : State) :
    (l.foldl (fun s k => s.carry k) s).loader.lee.toList.getD n none = s.loader.lee.toList.getD n none := by
  induction l generalizing s with
  | nil => rfl
  | cons k l ih => exact (ih (fun j hj => other j (List.mem_cons_of_mem _ hj)) _).trans (s.carry_lee_ne k n (other k List.mem_cons_self))

/-! ### Loads and unloads (R296, R297) -/

theorem State.storeImage_loader (d : List Byte) (i : Image) : (s.storeImage d i).loader = s.loader := (congrArg State.loader (s.stored_storeImage d i) :)
theorem State.storeImage_tiles (d : List Byte) (i : Image) : (s.storeImage d i).tiles = s.tiles := (congrArg State.tiles (s.stored_storeImage d i) :)

/-- What a write of the image's store leaves: it is no part of what crest or lee hold. -/
theorem State.crestKept_storeImage (d : List Byte) (i : Image) : s.CrestKept (s.storeImage d i) where
  regs := (congrArg State.regs (s.stored_storeImage d i) :)
  words := (congrArg State.crest (s.stored_storeImage d i) :)
  slip := (congrArg State.slip (s.stored_storeImage d i) :)
  images := congrArg Loader.crest (s.storeImage_loader d i)
  bank n _ := by rw [State.tile_of_tiles (s.storeImage_tiles d i)]

section
variable (d : List Byte) (i : Image) (slot : Nat)

/-- The chunks of an image, in crest and in lee. -/
def State.bothWritten : State := (chunksOf d i.target).foldl (fun s c => (s.putChunk (s.crestHalf c.tile) c clean).putChunk (s.leeHalf c.tile) c clean) s

/-- The chunks of an image, in lee. -/
def State.leeWritten : State := (chunksOf d i.target).foldl (fun s c => s.putChunk (s.leeHalf c.tile) c clean) s

/-- What lee holds for a slot. -/
def State.leePlaces : List PlaceRec := match s.loader.lee.toList.getD slot none with | some o => o.place | none => []

/-- Lee with the new image in its slot, before the other slots are carried. -/
def State.leeFilled : State :=
  let u := ((((s.leePlaces slot ++ i.place).foldl (fun s p => s.zeroLee p) (s.storeImage d i)).leeWritten d i).expectAll (placedTiles (s.leePlaces slot ++ i.place)))
  u.noteLee (u.loader.lee.setIfInBounds slot (some i)) (u.loader.changed.setIfInBounds slot true)

theorem State.loadLee_eq : s.loadLee d i slot = ((List.range 4).filter fun k => k != slot).foldl (fun s k => s.carry k) (s.leeFilled d i slot) := rfl

theorem State.crestKept_leeFilled : s.CrestKept (s.leeFilled d i slot) :=
  have zeroed := (s.crestKept_storeImage d i).trans (State.crestKept_foldl _ State.crestKept_zeroLee (s.leePlaces slot ++ i.place) _)
  have written := zeroed.trans (State.crestKept_foldl _ (fun u c => u.crestKept_putChunk c clean) (chunksOf d i.target) _)
  (written.trans (State.crestKept_expectAll _ _)).trans (State.crestKept_noteLee _ _ _)

/-- A load into lee keeps crest (R297). -/
theorem State.crestKept_loadLee : s.CrestKept (s.loadLee d i slot) := by
  rw [State.loadLee_eq]
  exact (s.crestKept_leeFilled d i slot).trans (State.crestKept_foldl _ State.crestKept_carry _ _)

/-- The slot of the load holds the image in lee, whatever is carried beside it. -/
theorem State.loadLee_slot (h : slot < 4) : (s.loadLee d i slot).loader.lee.toList.getD slot none = some i := by
  rw [State.loadLee_eq, State.foldl_carry_lee]
  · exact getD_setIfInBounds_same _ _ _ _ h
  · intro k hk
    exact (bne_iff_ne.mp (List.mem_filter.mp hk).2).symm

theorem State.loadCold_eq : s.loadCold d i slot =
    let u := ((s.storeImage d i).bothWritten d i).expectAll (placedTiles i.place)
    { u with loader := { u.loader with
      crest := u.loader.crest.setIfInBounds slot (some i), lee := u.loader.lee.setIfInBounds slot (some i), changed := u.loader.changed.setIfInBounds slot true } } := rfl

theorem State.banked_bothWritten : s.Banked (s.bothWritten d i) :=
  State.banked_foldl _ (fun u c => (u.banked_putChunk _ c clean).trans (State.banked_putChunk _ _ c clean)) _ s

theorem State.coldBanks_banked : (s.storeImage d i).Banked (((s.storeImage d i).bothWritten d i).expectAll (placedTiles i.place)) :=
  (State.banked_bothWritten _ d i).trans (State.banked_expectAll _ _)

/-- A COLD load stores the image and notes it in crest and in lee (R296). -/
theorem State.loadCold_loader : (s.loadCold d i slot).resv = (s.storeImage d i).resv ∧ (s.loadCold d i slot).loader.crest = s.loader.crest.setIfInBounds slot (some i) ∧
    (s.loadCold d i slot).loader.lee = s.loader.lee.setIfInBounds slot (some i) := by
  have banked := s.coldBanks_banked d i
  rw [← s.storeImage_loader d i, ← banked.images, ← banked.lee, ← banked.resv]
  exact ⟨rfl, rfl, rfl⟩

theorem State.foldl_putBoth_tile (n : Nat) (l : List Chunk) (other : ∀ c ∈ l, n ≠ c.tile) (s : State) :
    (l.foldl (fun s c => (s.putChunk (s.crestHalf c.tile) c clean).putChunk (s.leeHalf c.tile) c clean) s).tile n = s.tile n := by
  induction l generalizing s with
  | nil => rfl
  | cons c l ih =>
    have here := other c List.mem_cons_self
    rw [List.foldl_cons, ih fun e he => other e (List.mem_cons_of_mem _ he), State.putChunk_tile_ne _ _ _ _ _ here, State.putChunk_tile_ne _ _ _ _ _ here]

/-- A COLD load leaves the tiles without a chunk of the image as they are. -/
theorem State.loadCold_tile (n : Nat) (other : ∀ c ∈ chunksOf d i.target, n ≠ c.tile) : (s.loadCold d i slot).tile n = s.tile n := by
  have written := State.foldl_putBoth_tile n _ other (s.storeImage d i)
  have summed := State.tile_of_tiles (State.expectAll_tiles ((s.storeImage d i).bothWritten d i) (placedTiles i.place)) n
  rw [State.loadCold_eq]
  exact (summed.trans written).trans (State.tile_of_tiles (s.storeImage_tiles d i) n)

end

/-! ### The checks (R290, R400) -/

section
variable {s} (d : List Byte) (slot : Nat) (cold unbound : Bool)

theorem State.loadCheck_format (h : formatOk d = false) : s.loadCheck d slot cold unbound = (1, 0, none) := by
  rw [State.loadCheck, h]
  rfl

theorem State.loadCheck_sign (format : formatOk d = true) (h : s.signCode d (byteAt d 0x17) ≠ 0) :
    s.loadCheck d slot cold unbound = (s.signCode d (byteAt d 0x17), 0, none) := by
  rw [State.loadCheck, format, if_neg (by decide)]
  dsimp only
  rw [if_pos h]

/-- An image that passes the checks is placed well (R292, R293, R295, R296). -/
theorem State.loadCheck_placed {k : Nat} {un : Bool} (h : s.loadCheck d slot cold unbound = (0, 0, some (k, un))) : s.placementBad d k slot cold = false := by
  unfold State.loadCheck at h
  dsimp only at h
  split at h
  · simp at h
  · split at h
    · rename_i sign
      exact absurd (congrArg Prod.fst h) sign
    · split at h
      · rename_i mask
        exact absurd (congrArg (fun x => x.2.1) h) mask
      · split at h
        · simp at h
        · rename_i j u _
          obtain ⟨code, -, target⟩ : _ ∧ _ ∧ _ := by simpa only [Prod.mk.injEq, Option.some.injEq] using h
          obtain ⟨rfl, rfl⟩ := target
          cases bad : s.placementBad d j slot cold
          · rfl
          · rw [bad] at code
            split at code
            · contradiction
            · simp at code

/-- The chunks of a well placed image lie on tiles that it claims (R294). -/
theorem State.placed_chunk {k : Nat} (h : s.placementBad d k slot cold = false) (un : Bool) {c : Chunk} (hc : c ∈ chunksOf d k) :
    c.tile ∈ placedTiles (imageOfBytes d k un).place := by
  simp only [State.placementBad, Bool.or_eq_false_iff] at h
  obtain ⟨⟨⟨⟨⟨-, inside⟩, -⟩, -⟩, -⟩, -⟩ := h
  have claimed := List.any_eq_false.mp inside c hc
  simp only [Bool.not_eq_true, Bool.not_eq_false', List.any_eq_true, chunkIn, Bool.and_eq_true, decide_eq_true_eq] at claimed
  obtain ⟨p, hp, same, -⟩ := claimed
  exact List.mem_eraseDups.mpr (List.mem_map.mpr ⟨p, hp, same⟩)

end

/-! ### The two commands, case by case (R289, R291, R398) -/

section
variable {s} {c : HpCmd} (t : Time)

theorem State.at_stagedImage (c : HpCmd) : (s.at t).stagedImage c = s.stagedImage c := by rw [State.at_eq]; rfl
theorem State.at_loadTiles (i : Image) (slot : Nat) (cold : Bool) : (s.at t).loadTiles i slot cold = s.loadTiles i slot cold := by rw [State.at_eq]; rfl
theorem State.at_loader : (s.at t).loader = s.loader := by rw [State.at_eq]
theorem State.at_slip : (s.at t).slip = s.slip := by rw [State.at_eq]
theorem State.at_loadCheck (d : List Byte) (slot : Nat) (cold unbound : Bool) : (s.at t).loadCheck d slot cold unbound = s.loadCheck d slot cold unbound := by
  rw [State.at_eq]; rfl

theorem execLoadImage_waits (h : (∀ x, s.link.adminNow = some x → byteAt x.bytes 0 ≠ 3) ∨ s.slip.st ≠ .idle) : exec (.loadImage t) s = .next (s.at t) := by
  show execLoadImage t s = _
  unfold execLoadImage
  dsimp only
  rw [State.at_link, State.at_slip]
  cases current : s.link.adminNow with
  | none => rfl
  | some x =>
    dsimp only
    rw [if_pos (h.imp_left fun other => other x current)]

theorem execUnloadImage_waits (h : (∀ x, s.link.adminNow = some x → byteAt x.bytes 0 ≠ 4) ∨ s.slip.st ≠ .idle) : exec (.unloadImage t) s = .next (s.at t) := by
  show execUnloadImage t s = _
  unfold execUnloadImage
  dsimp only
  rw [State.at_link, State.at_slip]
  cases current : s.link.adminNow with
  | none => rfl
  | some x =>
    dsimp only
    rw [if_pos (h.imp_left fun other => other x current)]

section
variable (current : s.link.adminNow = some c) (idle : s.slip.st = .idle)
include current idle

/-- A load that fails a check ends with its code. -/
theorem execLoadImage_fails (op : byteAt c.bytes 0 = 3) (bad : (s.loadCheck (s.stagedImage c) c.loadSlot c.cold c.allowUnbound).1 ≠ 0) :
    let chk := s.loadCheck (s.stagedImage c) c.loadSlot c.cold c.allowUnbound
    exec (.loadImage t) s = .next ((s.at t).adminDone c 4 (loadDetail chk.1 chk.2.1 chk.2.2) (leAt (imgDigest (s.stagedImage c)) 0 8)) := by
  show execLoadImage t s = _
  unfold execLoadImage
  dsimp only
  rw [State.at_link, current, State.at_slip]
  dsimp only
  rw [if_neg (by simp [op, idle]), State.at_stagedImage, State.at_loadCheck, if_pos bad]

/-- A load that passes the checks makes its tiles ready, and is done once they are (R291). -/
theorem execLoadImage_passes (op : byteAt c.bytes 0 = 3) {k : Nat} {un : Bool}
    (passes : s.loadCheck (s.stagedImage c) c.loadSlot c.cold c.allowUnbound = (0, 0, some (k, un))) :
    let d := s.stagedImage c
    let i := imageOfBytes d k un
    let ts := s.loadTiles i c.loadSlot c.cold
    let w := (s.at t).readyAll ts
    exec (.loadImage t) s = .next (if !w.tilesReady ts then w else
      (if c.cold then w.loadCold d i c.loadSlot else w.loadLee d i c.loadSlot).adminDone c 0 (k * 2 ^ 24) (leAt (imgDigest d) 0 8)) := by
  have detail : loadDetail 0 0 (some (k, un)) = k * 2 ^ 24 := by
    unfold loadDetail
    dsimp only
    rw [Nat.zero_mul, Nat.add_zero, Nat.zero_add]
  show execLoadImage t s = _
  unfold execLoadImage
  dsimp only
  rw [State.at_link, current, State.at_slip]
  dsimp only
  rw [if_neg (by simp [op, idle]), State.at_stagedImage, State.at_loadCheck, passes]
  dsimp only
  rw [if_neg (by decide), State.at_loadTiles, detail]
  rfl

theorem execUnloadImage_none (op : byteAt c.bytes 0 = 4) (free : s.loader.lee.toList.getD c.loadSlot none = none) :
    exec (.unloadImage t) s = .next ((s.at t).adminDone c 0 0 0) := by
  show execUnloadImage t s = _
  unfold execUnloadImage
  dsimp only
  rw [State.at_link, current, State.at_slip]
  dsimp only
  rw [if_neg (by simp [op, idle]), State.at_loader, free]

/-- The state once an unload has emptied a slot in lee. -/
theorem execUnloadImage_some (op : byteAt c.bytes 0 = 4) {i : Image} (held : s.loader.lee.toList.getD c.loadSlot none = some i) :
    let ts := placedTiles i.place
    let w := (s.at t).readyAll ts
    let u := w.emptied i.place ts
    exec (.unloadImage t) s = .next (if !w.tilesReady ts then w else
      (u.noteLee (u.loader.lee.setIfInBounds c.loadSlot none) (u.loader.changed.setIfInBounds c.loadSlot true)).adminDone c 0 0 0) := by
  show execUnloadImage t s = _
  unfold execUnloadImage
  dsimp only
  rw [State.at_link, current, State.at_slip]
  dsimp only
  rw [if_neg (by simp [op, idle]), State.at_loader, held]
  rfl

end
end

/-! ### What the obligation asks of each command -/

section
variable {s} {c : HpCmd} (t : Time)

theorem State.crestKept_power (u : State) (p : Power) : u.CrestKept { u with power := p } := ⟨rfl, rfl, rfl, rfl, fun _ _ => rfl⟩

theorem State.crestKept_at : s.CrestKept (s.at t) := by
  rw [State.at_eq]
  exact ⟨rfl, rfl, rfl, rfl, fun _ _ => rfl⟩

theorem State.crestKept_adminDone (u : State) (c : HpCmd) (status detail result : Nat) : u.CrestKept (u.adminDone c status detail result) := by
  have only := u.adminDone_only c status detail result
  have tiles : (u.adminDone c status detail result).tiles = u.tiles := (congrArg State.tiles only :)
  exact ⟨(congrArg State.regs only :), (congrArg State.crest only :), (congrArg State.slip only :), (congrArg (fun x : State => x.loader.crest) only :),
    fun n _ => by rw [State.tile_of_tiles tiles]⟩

/-- The admin command has its completion, and the executor is free (R390, R398). -/
theorem State.adminDone_ended (u : State) (c : HpCmd) (status detail result : Nat) : (u.adminDone c status detail result).link.adminNow = none ∧
    (c.queue ≠ 256 → { cmd := c, status, detail, result } ∈ (u.adminDone c status detail result).link.done) := by
  constructor
  · exact congrArg Prod.snd (State.hpDone_adminPart { u with link := { u.link with adminNow := none } } c status detail result)
  · intro queue
    rw [State.adminDone, State.hpDone_done _ _ _ _ _ queue]
    exact List.mem_append_right _ (List.mem_singleton.mpr rfl)

/-- A command whose tiles are not ready waits on (R291). -/
theorem State.readyAll_waits (current : s.link.adminNow = some c) (l : List Nat) :
    ((s.at t).readyAll l).link.adminNow = some c ∧ ((s.at t).readyAll l).loader = s.loader ∧ ((s.at t).readyAll l).resv = s.resv := by
  have part := (s.at t).readyAll_adminPart l
  refine ⟨(congrArg Prod.snd part).trans ?_, (congrArg Prod.fst part).trans (State.at_loader t), ((s.at t).readyAll_resv l).trans (s.at_resv t)⟩
  rw [← current]
  exact congrArg HostLink.adminNow (s.at_link t)

/-- The completion that a command ended with, as the obligation reads it. -/
def State.Ended (s u : State) (c : HpCmd) (status detail result : Nat) : Prop :=
  u.link.adminNow = none ∧ (c.queue ≠ 256 → { cmd := c, status, detail, result } ∈ u.link.done) ∧ u.kept = s.kept

theorem State.ended_adminDone {u : State} {status detail result : Nat} {o : Host.Outcome State Fault Refusal} (keeps : OutcomeKeeps s.kept o)
    (ran : o = .next (u.adminDone c status detail result)) : s.Ended (u.adminDone c status detail result) c status detail result :=
  have done := u.adminDone_ended c status detail result
  ⟨done.1, done.2, keeps.next ran⟩

/-- What the obligation asks of a state that keeps crest. -/
theorem State.CrestKept.claim {u : State} (h : s.CrestKept u) : u.loader.crest = s.loader.crest ∧ u.crest = s.crest ∧ u.slip = s.slip ∧
    ∀ n, u.crestHalf n = s.crestHalf n ∧ (s.leeEn n = true → (u.tile n).half (s.crestHalf n) = (s.tile n).half (s.crestHalf n)) :=
  ⟨h.images, h.words, h.slip, fun n => ⟨State.crestHalf_of_regs h.regs n, h.bank n⟩⟩

/-- Tiles made ready and found ready keep crest. -/
theorem State.readyAll_ready_at {l : List Nat} (ready : ((s.at t).readyAll l).tilesReady l = true) :
    (∃ p, (s.at t).readyAll l = { s.at t with power := p }) ∧ s.CrestKept ((s.at t).readyAll l) := by
  obtain ⟨p, woken⟩ := (s.at t).readyAll_ready ready
  exact ⟨⟨p, woken⟩, woken ▸ (State.crestKept_at t).trans (State.crestKept_power _ p)⟩

/-- A failed load touches the host link alone (R290). -/
theorem State.adminDone_at_frame (c : HpCmd) (status detail result : Nat) : let u := (s.at t).adminDone c status detail result
    u.loader = s.loader ∧ u.tiles = s.tiles ∧ u.resv = s.resv ∧ u.jobs = s.jobs ∧ u.regs = s.regs := by
  have only := (s.at t).adminDone_only c status detail result
  exact ⟨(congrArg State.loader only :).trans (State.at_loader t), (congrArg State.tiles only :).trans (s.at_tiles t), (congrArg State.resv only :).trans (s.at_resv t),
    (congrArg State.jobs only :).trans (s.at_jobs t), (congrArg State.regs only :).trans (s.at_regs t)⟩

section
variable (current : s.link.adminNow = some c) (idle : s.slip.st = .idle) (op : byteAt c.bytes 0 = 3) {k : Nat} {un : Bool}
  (passes : s.loadCheck (s.stagedImage c) c.loadSlot c.cold c.allowUnbound = (0, 0, some (k, un)))
include current idle op passes

theorem execLoadImage_busy_results :
    let ts := s.loadTiles (imageOfBytes (s.stagedImage c) k un) c.loadSlot c.cold
    let w := (s.at t).readyAll ts
    w.tilesReady ts = false → ∃ u, exec (.loadImage t) s = .next u ∧ u.link.adminNow = some c ∧ u.loader = s.loader ∧ u.resv = s.resv := by
  intro ts w busy
  have ran := execLoadImage_passes t current idle op passes
  exact ⟨w, ran.trans (congrArg _ (if_pos (congrArg not busy))), State.readyAll_waits t current ts⟩

theorem execLoadImage_ready :
    let d := s.stagedImage c
    let i := imageOfBytes d k un
    let ts := s.loadTiles i c.loadSlot c.cold
    let w := (s.at t).readyAll ts
    w.tilesReady ts = true →
      exec (.loadImage t) s = .next ((if c.cold then w.loadCold d i c.loadSlot else w.loadLee d i c.loadSlot).adminDone c 0 (k * 2 ^ 24) (leAt (imgDigest d) 0 8)) := by
  intro d i ts w ready
  exact (execLoadImage_passes t current idle op passes).trans (congrArg _ (if_neg (by rw [ready]; decide)))

/-- COLD (R296). -/
theorem execLoadImage_cold_results (cold : c.cold = true) :
    let d := s.stagedImage c
    let i := imageOfBytes d k un
    let ts := s.loadTiles i c.loadSlot c.cold
    let w := (s.at t).readyAll ts
    w.tilesReady ts = true → ∃ u, exec (.loadImage t) s = .next u ∧ s.Ended u c 0 (k * 2 ^ 24) (leAt (imgDigest d) 0 8) ∧ u.resv = ((s.at t).storeImage d i).resv ∧
      u.loader.crest = s.loader.crest.setIfInBounds c.loadSlot (some i) ∧ u.loader.lee = s.loader.lee.setIfInBounds c.loadSlot (some i) ∧
      ∀ n, n ∉ placedTiles i.place → (u.tile n).halves = (s.tile n).halves := by
  intro d i ts w ready
  have ran := execLoadImage_ready t current idle op passes ready
  rw [if_pos cold] at ran
  obtain ⟨⟨p, woken⟩, -⟩ := State.readyAll_ready_at t ready
  have only := (w.loadCold d i c.loadSlot).adminDone_only c 0 (k * 2 ^ 24) (leAt (imgDigest d) 0 8)
  obtain ⟨resv, crest, lee⟩ := w.loadCold_loader d i c.loadSlot
  have loader : w.loader = s.loader := (congrArg State.loader woken).trans (State.at_loader t)
  refine ⟨_, ran, State.ended_adminDone (execLoadImage_keeps t s) ran, ?_, ?_, ?_, fun n outside => ?_⟩
  · rw [State.adminDone_resv, resv, show w = _ from woken, State.storeImage_power]
  · rw [← loader, ← crest]
    exact (congrArg (fun x : State => x.loader.crest) only :)
  · rw [← loader, ← lee]
    exact (congrArg (fun x : State => x.loader.lee) only :)
  · have away (x : Chunk) (hx : x ∈ chunksOf d i.target) : n ≠ x.tile := fun e =>
      outside (e ▸ State.placed_chunk _ _ _ (State.loadCheck_placed _ _ _ _ passes) un hx)
    have kept := w.loadCold_tile d i c.loadSlot n away
    have tiles : ((w.loadCold d i c.loadSlot).adminDone c 0 (k * 2 ^ 24) (leAt (imgDigest d) 0 8)).tiles = (w.loadCold d i c.loadSlot).tiles := (congrArg State.tiles only :)
    have same : w.tile n = s.tile n := (congrArg (fun x : State => x.tile n) woken).trans (s.at_tile t n)
    rw [State.tile_of_tiles tiles, kept, same]

/-- LEE (R297). -/
theorem execLoadImage_lee_results (warm : c.cold = false) (small : c.loadSlot < 4) :
    let d := s.stagedImage c
    let i := imageOfBytes d k un
    let ts := s.loadTiles i c.loadSlot c.cold
    let w := (s.at t).readyAll ts
    w.tilesReady ts = true → ∃ u, exec (.loadImage t) s = .next u ∧ s.Ended u c 0 (k * 2 ^ 24) (leAt (imgDigest d) 0 8) ∧ s.CrestKept u ∧
      u.loader.lee.toList.getD c.loadSlot none = some i := by
  intro d i ts w ready
  have ran := execLoadImage_ready t current idle op passes ready
  rw [if_neg (by rw [warm]; decide)] at ran
  have woken := (State.readyAll_ready_at t ready).2
  have only := (w.loadLee d i c.loadSlot).adminDone_only c 0 (k * 2 ^ 24) (leAt (imgDigest d) 0 8)
  refine ⟨_, ran, State.ended_adminDone (execLoadImage_keeps t s) ran,
    (woken.trans (w.crestKept_loadLee d i c.loadSlot)).trans (State.crestKept_adminDone _ _ _ _ _), ?_⟩
  rw [← w.loadLee_slot d i c.loadSlot small]
  exact (congrArg (fun x : State => x.loader.lee.toList.getD c.loadSlot none) only :)

end

section
variable (current : s.link.adminNow = some c) (idle : s.slip.st = .idle) (op : byteAt c.bytes 0 = 4) {i : Image} (held : s.loader.lee.toList.getD c.loadSlot none = some i)
include current idle op held

theorem execUnloadImage_busy_results :
    let ts := placedTiles i.place
    let w := (s.at t).readyAll ts
    w.tilesReady ts = false → ∃ u, exec (.unloadImage t) s = .next u ∧ u.link.adminNow = some c ∧ u.loader = s.loader ∧ u.resv = s.resv := by
  intro ts w busy
  have ran := execUnloadImage_some t current idle op held
  exact ⟨w, ran.trans (congrArg _ (if_pos (congrArg not busy))), State.readyAll_waits t current ts⟩

/-- An unload of a slot that holds an image (R297). -/
theorem execUnloadImage_ready_results :
    let ts := placedTiles i.place
    let w := (s.at t).readyAll ts
    w.tilesReady ts = true → ∃ u, exec (.unloadImage t) s = .next u ∧ s.Ended u c 0 0 0 ∧ s.CrestKept u ∧
      u.loader.lee = s.loader.lee.setIfInBounds c.loadSlot none ∧ u.resv = s.resv := by
  intro ts w ready
  have ran := (execUnloadImage_some t current idle op held).trans (congrArg _ (if_neg (by rw [ready]; decide)))
  obtain ⟨⟨p, woken⟩, kept⟩ := State.readyAll_ready_at t ready
  have loader : w.loader = s.loader := (congrArg State.loader woken).trans (State.at_loader t)
  have banked := w.banked_emptied i.place ts
  refine ⟨_, ran, State.ended_adminDone (execUnloadImage_keeps t s) ran,
    ((kept.trans (w.crestKept_emptied i.place ts)).trans (State.crestKept_noteLee _ _ _)).trans (State.crestKept_adminDone _ _ _ _ _), ?_, ?_⟩
  · rw [← loader, ← banked.lee]
    exact (congrArg (fun x : State => x.loader.lee) (State.adminDone_only _ c 0 0 0) :)
  · rw [State.adminDone_resv]
    exact banked.resv.trans (((s.at t).readyAll_resv ts).trans (s.at_resv t))

end
end

/-- Settles O46: a load by its checks, and a load or an unload by whether its tiles are ready; ready tiles have had their rows woken and nothing else done to them. -/
theorem loaderResults : Obligations.LoaderResults := by
  intro s c t v slot d chk ident ended crestKept
  refine ⟨execLoadImage_waits t, execUnloadImage_waits t, fun current op idle => ⟨fun bad => ?format, fun good bad => ?sign, fun bad => ?fails, fun k un passes small => ?passes⟩,
    fun current op idle small => ⟨fun free => ?empty, fun i held => ?unloads⟩⟩
  case format => exact State.loadCheck_format d slot c.cold c.allowUnbound bad
  case sign => exact State.loadCheck_sign d slot c.cold c.allowUnbound good bad
  case fails =>
    have ran := execLoadImage_fails t current idle op bad
    exact ⟨_, ran, State.ended_adminDone (execLoadImage_keeps t s) ran, State.adminDone_at_frame t c 4 _ ident⟩
  case passes =>
    refine ⟨execLoadImage_busy_results t current idle op passes, fun ready cold => execLoadImage_cold_results t current idle op passes cold ready, fun ready warm => ?_⟩
    obtain ⟨u, ran, done, kept, held⟩ := execLoadImage_lee_results t current idle op passes warm small ready
    exact ⟨u, ran, done, kept.claim, held⟩
  case empty =>
    have ran := execUnloadImage_none t current idle op free
    obtain ⟨loader, tiles, resv, -⟩ := State.adminDone_at_frame (s := s) t c 0 0 0
    exact ⟨_, ran, State.ended_adminDone (execUnloadImage_keeps t s) ran, loader, tiles, resv⟩
  case unloads =>
    refine ⟨execUnloadImage_busy_results t current idle op held, fun ready => ?_⟩
    obtain ⟨u, ran, done, kept, lee, resv⟩ := execUnloadImage_ready_results t current idle op held ready
    exact ⟨u, ran, done, kept.claim, lee, resv⟩

end Sys2Proof.Machine
end

section
/-! SUPPORT. Requests for a warm reset (12 R332; 22 R588, R590): obligation O22. -/

namespace Sys2Proof.Machine

variable {s : State}

/-- A request while the module runs: the first cause stays, and WARM_DEFERRED is set when a slip makes the reset wait. -/
theorem State.askWarm_running (running : s.unit.phase = .running) (cause : Nat) :
    let v := s.modUnit fun u => { u with warmPending := some (u.warmPending.getD cause) }
    s.askWarm cause = if s.slip.st = .arming ∨ s.slip.st = .armed then v.setFlag 0x9004 8 else v :=
  if_neg (not_not.mpr running)

theorem State.askWarm_stopped (stopped : s.unit.phase ≠ .running) (cause : Nat) : s.askWarm cause = s := if_pos stopped

/-- What a request leaves: the pending cause, and the one flag. -/
theorem State.askWarm_result (running : s.unit.phase = .running) (cause : Nat) :
    (s.askWarm cause).unit = { s.unit with warmPending := some (s.unit.warmPending.getD cause) } ∧
    (s.askWarm cause).reg 0x9004 = (if s.slip.st = .arming ∨ s.slip.st = .armed then s.reg 0x9004 ||| oneBit 8 else s.reg 0x9004) ∧
    (∀ a, a ≠ 0x9004 → (s.askWarm cause).reg a = s.reg a) ∧ { s.askWarm cause with unit := s.unit, regs := s.regs } = s := by
  rw [State.askWarm_running running]
  split
  · exact ⟨rfl, State.reg_setReg_same .., fun a other => State.setFlag_reg_ne _ _ _ _ other, rfl⟩
  · exact ⟨rfl, rfl, fun _ _ => rfl, rfl⟩

/-- No warm reset takes place unless the module runs, nor while a slip is ARMING or ARMED. -/
theorem execWarmReset_waits (h : s.unit.phase ≠ .running ∨ s.slip.st = .arming ∨ s.slip.st = .armed) : execWarmReset s = .next s := by
  unfold execWarmReset
  cases s.unit.warmPending with
  | none => rfl
  | some cause => exact congrArg _ (if_pos h)

theorem execWarmReset_goes {cause : Nat} (running : s.unit.phase = .running) (pending : s.unit.warmPending = some cause)
    (notArming : s.slip.st ≠ .arming) (notArmed : s.slip.st ≠ .armed) : execWarmReset s = .next (s.warm cause) := by
  simp [execWarmReset, running, pending, notArming, notArmed]

/-- Settles O22: a request while the module runs is noted and deferred by a slip under way; in every other phase nothing happens. -/
theorem warmResetWaits : Obligations.WarmResetWaits := by
  intro s asked
  refine ⟨fun running => ⟨?pin, ?watchdog, ?register, ?waits, ?goes⟩, fun stopped => ?stopped⟩
  case pin => exact fun us long => ⟨_, congrArg Host.Outcome.next (if_pos long), State.askWarm_result running 3⟩
  case watchdog => exact fun fw => ⟨_, congrArg Host.Outcome.next (if_pos fw), State.askWarm_result running 5⟩
  case register => exact ⟨_, rfl, State.askWarm_result running 4⟩
  case waits => exact fun _ _ slip => execWarmReset_waits (.inr slip)
  case goes => exact fun cause pending notArming notArmed => ⟨_, execWarmReset_goes running pending notArming notArmed, rfl, rfl, rfl, rfl⟩
  case stopped =>
    have ignored (p : Prop) [Decidable p] (cause : Nat) : (Host.Outcome.next (if p then s.askWarm cause else s) : Host.Outcome State Fault Refusal) = .next s := by
      rw [State.askWarm_stopped stopped, ite_self]
    exact ⟨fun us => ignored _ 3, ignored _ 5, fun key => ignored _ 4, execWarmReset_waits (.inl stopped)⟩

end Sys2Proof.Machine
end

section
/-! SUPPORT. What the channels and the solenoid outputs of a BZ31 change: only themselves, their banks, and the limp entries that wait (18, 19; 20 R541 to R546). -/

namespace Sys2Proof.Machine

/-- A chip without its channels, outputs, banks and waiting limp entries: everything that no operation of a channel or an output moves. -/
def Chip.sansOutputs (c : Chip) : Chip := { c with hs := .replicate 12 {}, sol := .replicate 12 {}, bank := .replicate 3 {}, limpPend := [] }

variable (c : Chip)

/-- What a fold leaves of a chip if each of its steps does. -/
theorem Chip.foldl_preserves {α β : Type} (g : Chip → β) (f : Chip → α → Chip) (step : ∀ c a, g (f c a) = g c) (l : List α) : g (l.foldl f c) = g c := by
  induction l generalizing c with
  | nil => rfl
  | cons a l ih => exact (ih (f c a)).trans (step c a)

/-! ### One channel, one output, one bank -/

@[simp] theorem Chip.hsSet_sansOutputs (n : Fin 12) (h : HsChan) : (c.hsSet n h).sansOutputs = c.sansOutputs := rfl
@[simp] theorem Chip.solSet_sansOutputs (n : Fin 12) (o : SolOut) : (c.solSet n o).sansOutputs = c.sansOutputs := rfl
@[simp] theorem Chip.bankSet_sansOutputs (b : Fin 3) (k : SolBank) : (c.bankSet b k).sansOutputs = c.sansOutputs := rfl
@[simp] theorem Chip.limpPend_sansOutputs (l : List Nat) : { c with limpPend := l }.sansOutputs = c.sansOutputs := rfl

/-! ### High-side channels (R467, R480, R493, R541) -/

@[simp] theorem Chip.hsCommand_sansOutputs (n : Fin 12) (act : Nat) (w0 w1 : Word) (dur : Nat) (t : Time) :
    (c.hsCommand n act w0 w1 dur t).sansOutputs = c.sansOutputs := by
  unfold Chip.hsCommand
  dsimp only
  split <;> rfl

@[simp] theorem Chip.hsEnd_sansOutputs (n : Fin 12) (t : Time) : (c.hsEnd n t).sansOutputs = c.sansOutputs := rfl
@[simp] theorem Chip.hsFault_sansOutputs (n : Fin 12) (f : Nat) (t : Time) : (c.hsFault n f t).sansOutputs = c.sansOutputs := rfl

@[simp] theorem Chip.hsFuseTrip_sansOutputs (n : Fin 12) (t : Time) : (c.hsFuseTrip n t).sansOutputs = c.sansOutputs := by
  unfold Chip.hsFuseTrip
  dsimp only
  split <;> simp

@[simp] theorem Chip.hsTakeLimp_sansOutputs (n : Fin 12) (t : Time) : (c.hsTakeLimp n t).sansOutputs = c.sansOutputs := by
  unfold Chip.hsTakeLimp
  dsimp only
  split
  · rfl
  · split
    · rfl
    · simp
    · split <;> simp
    · split <;> simp

@[simp] theorem Chip.hsClear_sansOutputs (n : Fin 12) (mask : Word) (t : Time) : (c.hsClear n mask t).sansOutputs = c.sansOutputs := by
  unfold Chip.hsClear
  extract_lets
  split
  · split
    exacts [Chip.hsTakeLimp_sansOutputs _ n t, rfl]
  · rfl

/-! ### Solenoid outputs (R502, R517, R520, R529, R542) -/

@[simp] theorem Chip.bankRest_sansOutputs (b : Fin 3) : (c.bankRest b).sansOutputs = c.sansOutputs := by
  unfold Chip.bankRest
  split <;> rfl

@[simp] theorem Chip.solDecay_sansOutputs (n : Fin 12) (fast toFault : Bool) (t : Time) : (c.solDecay n fast toFault t).sansOutputs = c.sansOutputs := by
  unfold Chip.solDecay
  rw [Chip.bankRest_sansOutputs]
  split_ifs <;> rfl

@[simp] theorem Chip.solFault_sansOutputs (n : Fin 12) (f : Nat) (t : Time) : (c.solFault n f t).sansOutputs = c.sansOutputs := by simp [Chip.solFault]
@[simp] theorem Chip.solEnd_sansOutputs (n : Fin 12) (t : Time) : (c.solEnd n t).sansOutputs = c.sansOutputs := c.solDecay_sansOutputs n true false t

@[simp] theorem Chip.solBegin_sansOutputs (n : Fin 12) (p : SolProf) (reflex : Bool) (t : Time) : (c.solBegin n p reflex t).sansOutputs = c.sansOutputs := by
  unfold Chip.solBegin
  dsimp only
  split_ifs <;> simp

@[simp] theorem Chip.limpStart_sansOutputs (n : Fin 12) (p : SolProf) (t : Time) : (c.limpStart n p t).sansOutputs = c.sansOutputs := by
  unfold Chip.limpStart
  dsimp only
  split <;> simp

@[simp] theorem Chip.solTakeLimp_sansOutputs (n : Fin 12) (entry : Nat) (t : Time) : (c.solTakeLimp n entry t).sansOutputs = c.sansOutputs := by
  unfold Chip.solTakeLimp
  dsimp only
  split
  · rfl
  · split
    · rfl
    · split_ifs <;> simp
    · simp

@[simp] theorem Chip.solClear_sansOutputs (n : Fin 12) (mask : Word) (fails : Bool) (entry : Nat) (t : Time) :
    (c.solClear n mask fails entry t).sansOutputs = c.sansOutputs := by
  unfold Chip.solClear
  extract_lets
  split
  · split
    exacts [Chip.solTakeLimp_sansOutputs _ n entry t, rfl]
  · split
    · split
      exacts [Chip.solTakeLimp_sansOutputs _ n entry t, rfl]
    · rfl

@[simp] theorem Chip.coilCheck_sansOutputs (n : Fin 12) (t : Time) : (c.coilCheck n t).sansOutputs = c.sansOutputs := by
  unfold Chip.coilCheck
  dsimp only
  split <;> simp

@[simp] theorem Chip.solTripAct_sansOutputs (n : Fin 12) (t : Time) : (c.solTripAct n t).sansOutputs = c.sansOutputs := by
  unfold Chip.solTripAct
  dsimp only
  split <;> simp

@[simp] theorem Chip.relearn_sansOutputs (mask : Word) : (c.relearn mask).sansOutputs = c.sansOutputs :=
  c.foldl_preserves Chip.sansOutputs _ (fun a n => by split <;> rfl) _

/-! ### All of them: limp, trips, the switch of the settings (R313, R466, R499, R541, R545) -/

@[simp] theorem Chip.takeLimp_sansOutputs (t : Time) : (c.takeLimp t).sansOutputs = c.sansOutputs :=
  (Chip.foldl_preserves _ Chip.sansOutputs _ (fun a n => a.solTakeLimp_sansOutputs n _ t) _).trans
    (Chip.foldl_preserves _ Chip.sansOutputs _ (fun a n => a.hsTakeLimp_sansOutputs n t) _)

@[simp] theorem Chip.tripAct_sansOutputs (old : Chip) (t : Time) : (c.tripAct old t).sansOutputs = c.sansOutputs :=
  (Chip.foldl_preserves _ Chip.sansOutputs _ (fun a n => by split <;> simp) _).trans
    (Chip.foldl_preserves _ Chip.sansOutputs _ (fun a n => by split <;> simp) _)

@[simp] theorem Chip.pairChange_sansOutputs (old : Settings) (t : Time) : (c.pairChange old t).sansOutputs = c.sansOutputs :=
  (Chip.foldl_preserves _ Chip.sansOutputs _ (fun a n => by extract_lets; split <;> simp) _).trans
    (Chip.foldl_preserves _ Chip.sansOutputs _ (fun a n => by dsimp only; split <;> simp) _)

@[simp] theorem Chip.mdetChange_sansOutputs (old : Settings) : (c.mdetChange old).sansOutputs = c.sansOutputs :=
  c.foldl_preserves Chip.sansOutputs _ (fun a n => by dsimp only; split <;> simp) _

/-- The switch puts lee in crest and moves the outputs, nothing else. -/
theorem Chip.switch_sansOutputs (t : Time) : (c.switch t).sansOutputs = { c with crest := c.lee }.sansOutputs := by
  have coils (a : Chip) : ((List.finRange 12).foldl (fun a (n : Fin 12) => if a.solEn n && !a.solUpper n then a.coilCheck n t else a) a).sansOutputs = a.sansOutputs :=
    a.foldl_preserves Chip.sansOutputs _ (fun a n => by split <;> simp) _
  have fuses (a : Chip) : ((List.finRange 12).foldl (fun a n => a.hsFuseTrip n t) a).sansOutputs = a.sansOutputs :=
    a.foldl_preserves Chip.sansOutputs _ (fun a n => a.hsFuseTrip_sansOutputs n t) _
  unfold Chip.switch
  dsimp only
  split
  · rw [Chip.takeLimp_sansOutputs, coils, fuses, Chip.tripAct_sansOutputs, Chip.mdetChange_sansOutputs, Chip.pairChange_sansOutputs]
  · rw [coils, fuses, Chip.tripAct_sansOutputs, Chip.mdetChange_sansOutputs, Chip.pairChange_sansOutputs]

/-! ### Register writes (R495, R531, R543, R546, R557) -/

/-- A chip without its outputs, its supervisor state, its latched trips and its flags: everything that no register write moves. -/
def Chip.sansControl (c : Chip) : Chip := { c.sansOutputs with supervisor := .powerup, trips := .replicate 4 false, sts := 0, cnt := 0, bstSts := 0 }

variable {c} in
theorem Chip.sansControl_of {x : Chip} (h : x.sansOutputs = c.sansOutputs) : x.sansControl = c.sansControl := by
  rw [Chip.sansControl, h, Chip.sansControl]

theorem Chip.tripClear_sansControl (mask : Nat) (t : Time) : (c.tripClear mask t).sansControl = c.sansControl := by
  have latches : ((List.finRange 4).foldl (fun (a : Chip) (k : Fin 4) =>
      if mask.testBit k.val && a.trips[k] then if a.tripPins[k] then a.flag 21 else { a with trips := a.trips.set k false } else a) c).sansControl = c.sansControl :=
    c.foldl_preserves Chip.sansControl _ (fun a k => by split_ifs <;> rfl) _
  have channels (a : Chip) : ((List.finRange 12).foldl (fun a n => if c.hsTrip n.val && !a.hsTrip n.val then a.hsTakeLimp n t else a) a).sansOutputs = a.sansOutputs :=
    a.foldl_preserves Chip.sansOutputs _ (fun a n => by split <;> simp) _
  have outputs (a : Chip) : ((List.finRange 12).foldl (fun a n => if c.solTrip n.val && !a.solTrip n.val then a.solTakeLimp n (a.limpByte (12 + n.val)) t else a) a).sansOutputs = a.sansOutputs :=
    a.foldl_preserves Chip.sansOutputs _ (fun a n => by split <;> simp) _
  unfold Chip.tripClear
  dsimp only
  split
  · exact (Chip.sansControl_of ((outputs _).trans (channels _))).trans latches
  · exact latches

theorem Chip.enterLimp_sansControl (t : Time) : (c.enterLimp t).sansControl = c.sansControl := by
  unfold Chip.enterLimp
  split
  · rfl
  · exact (Chip.sansControl_of (Chip.takeLimp_sansOutputs _ t)).trans rfl

theorem Chip.release_sansControl : c.release.sansControl = c.sansControl := by
  unfold Chip.release
  split <;> rfl

theorem Chip.regWrite_sansControl (off : Nat) (data : Word) (t : Time) : (c.regWrite off data t).sansControl = c.sansControl := by
  have ctl : (if bit data 0 then c.release else c).sansControl = c.sansControl := by
    split
    exacts [c.release_sansControl, rfl]
  unfold Chip.regWrite
  split
  case isTrue => rfl
  split
  case isTrue => exact c.tripClear_sansControl _ t
  split
  case isTrue =>
    dsimp only
    split
    exacts [(Chip.enterLimp_sansControl _ t).trans ctl, ctl]
  split
  case isTrue =>
    split
    exacts [Chip.sansControl_of (c.hsClear_sansOutputs _ data t), rfl]
  split
  case isTrue =>
    split
    exacts [Chip.sansControl_of (c.solClear_sansOutputs _ data _ _ t), rfl]
  split
  case isTrue => rfl
  split
  case isTrue => exact Chip.sansControl_of (c.relearn_sansOutputs data)
  case isFalse => rfl

/-- ENTER_LIMP leaves the chip in LIMP. -/
theorem Chip.enterLimp_supervisor (t : Time) : (c.enterLimp t).supervisor = .limp := by
  unfold Chip.enterLimp
  split
  · assumption
  · exact congrArg Chip.supervisor (Chip.takeLimp_sansOutputs _ t)

end Sys2Proof.Machine
end

section
/-! SUPPORT. The frames of a BZ31, its limp store, and its settings banks through a slip (12 R320 to R328; 17 R454 to R458; 20 R547 to R552). -/

namespace Sys2Proof.Machine

variable (c : Chip)

/-! ### Register frames (R549) -/

/-- The answer to a register frame: it is sent, and kept for a repeated TAG. -/
def Chip.answer (c : Chip) (tag : Nat) (f : BzFrame) : Chip := { c.send f with lastReg := some (tag, f) }

theorem Chip.answer_supervisor (tag : Nat) (f : BzFrame) : (c.answer tag f).supervisor = c.supervisor := rfl

theorem Chip.answer_frame (tag : Nat) (f : BzFrame) : { c.answer tag f with tx := c.tx, lastReg := c.lastReg } = c := by
  cases c
  rfl

section
variable {c : Chip} {write : Bool} {tag off : Nat} {data : Word} {t : Time}

/-- Inside the register space every word reads. -/
theorem Chip.regRead_inside (aligned : off % 4 = 0) (inside : off < 0x400) : ∃ v, c.regRead off = some v := by
  have word {p : Prop} [Decidable p] {a b : Option Word} (here : a.isSome = true) (there : b.isSome = true) : (if p then a else b).isSome = true := by
    split
    exacts [here, there]
  refine Option.isSome_iff_exists.mp ?_
  unfold Chip.regRead
  rw [if_neg (not_not.mpr aligned)]
  refine word rfl (word rfl (word rfl (word rfl (word rfl (word rfl (word ?channel (word ?output (word ?bank (word rfl (word rfl (word ?baseline ?rest)))))))))))
  case channel | output =>
    split
    · rfl
    · split <;> rfl
  case bank => dsimp only; split <;> rfl
  case baseline => split <;> rfl
  case rest =>
    rw [if_pos inside]
    rfl

theorem Chip.regRead_outside (out : off % 4 ≠ 0 ∨ 0x400 ≤ off) : c.regRead off = none := by
  by_cases aligned : off % 4 = 0
  · simp (disch := omega) only [Chip.regRead, if_neg, Bool.and_eq_true, decide_eq_true_eq]
  · rw [Chip.regRead, if_pos aligned]

theorem Chip.reg_repeated {f : BzFrame} (last : c.lastReg = some (tag, f)) : c.reg write tag off data t = c.send f := by
  simp [Chip.reg, last]

/-- A fresh TAG executes. -/
theorem Chip.reg_fresh (fresh : ∀ g f, c.lastReg = some (g, f) → g ≠ tag) : c.reg write tag off data t = Chip.reg.go c write tag off data t := by
  unfold Chip.reg
  split
  · exact if_neg (fresh _ _ ‹_›)
  · rfl

theorem Chip.reg_outside (fresh : ∀ g f, c.lastReg = some (g, f) → g ≠ tag) (out : off % 4 ≠ 0 ∨ 0x400 ≤ off) :
    c.reg write tag off data t = c.answer tag (.regData 1 tag off 0) := by
  simp [Chip.reg_fresh fresh, Chip.reg.go, Chip.regRead_outside out, Chip.answer]

theorem Chip.reg_read (fresh : ∀ g f, c.lastReg = some (g, f) → g ≠ tag) {v : Word} (read : c.regRead off = some v) :
    c.reg false tag off data t = c.answer tag (.regData 0 tag off v) := by
  simp [Chip.reg_fresh fresh, Chip.reg.go, read, Chip.answer]

theorem Chip.reg_write (fresh : ∀ g f, c.lastReg = some (g, f) → g ≠ tag) {v : Word} (read : c.regRead off = some v) :
    c.reg true tag off data t = (c.regWrite off data t).answer tag (.regData 0 tag off (((c.regWrite off data t).regRead off).getD 0)) := by
  simp [Chip.reg_fresh fresh, Chip.reg.go, read, Chip.answer]

/-- The read-only words of the register space (R495, R531, R557). -/
theorem Chip.regWrite_readOnly (readOnly : off = 0 ∨ off = 8 ∨ off = 0x14 ∨ off = 0x344 ∨ (0x300 ≤ off ∧ off < 0x330) ∨ (0x380 ≤ off ∧ off < 0x3B0)) :
    c.regWrite off data t = c := by
  simp (disch := omega) only [Chip.regWrite, if_neg]

theorem Chip.regWrite_chipFlags : c.regWrite 0x004 data t = { c with sts := c.sts &&& ~~~data } := if_pos rfl

theorem Chip.regWrite_storeFlags : c.regWrite 0x340 data t = { c with bstSts := c.bstSts &&& ~~~data } := by
  simp (disch := omega) only [Chip.regWrite, if_neg, if_true]

theorem Chip.regWrite_control : c.regWrite 0x010 data t =
    let released := if data.getLsbD 0 then c.release else c
    if data.getLsbD 1 then released.enterLimp t else released := rfl

theorem Chip.regWrite_limp (enter : data.getLsbD 1 = true) : (c.regWrite 0x010 data t).supervisor = .limp := by
  rw [Chip.regWrite_control]
  exact (congrArg Chip.supervisor (if_pos enter)).trans (Chip.enterLimp_supervisor _ t)

theorem Chip.regWrite_release (release : data.getLsbD 0 = true) (stay : data.getLsbD 1 = false) (locked : c.locked = true) (held : c.stateHeld = true) :
    (c.regWrite 0x010 data t).supervisor = .run := by
  simp only [Chip.regWrite_control, release, stay, Chip.release, locked, held, if_true, Bool.and_self, Bool.false_eq_true, if_false]

/-! ### Status frames, and the order of sending (R454, R547, R548) -/

theorem Chip.statusSample_changed (powered : c.powered = true) (locked : c.locked = true) (changed : c.reported ≠ some c.sample) :
    c.statusSample t = c.sendStatusEvent (t / 1000 * 1000) := by
  simp [Chip.statusSample, powered, locked, changed]

theorem Chip.statusSample_same (same : c.locked = false ∨ c.reported = some c.sample) : c.statusSample t = c := by
  unfold Chip.statusSample
  obtain unlocked | reported := same
  · simp [unlocked]
  · simp [reported]

end

theorem Chip.sendIdent_length : c.sendIdent.tx.length = c.tx.length + 1 := List.length_append

/-- The better of two frames, the first when neither is better. -/
def betterFrame (key : BzFrame → Nat) (b g : BzFrame) : BzFrame := if key g < key b then g else b

theorem betterFrame_le (key : BzFrame → Nat) (b g : BzFrame) : key (betterFrame key b g) ≤ key b ∧ key (betterFrame key b g) ≤ key g := by
  unfold betterFrame
  split <;> omega

/-- The best of a queue is in it, and none is better. -/
theorem foldl_betterFrame (key : BzFrame → Nat) (fs : List BzFrame) (f : BzFrame) :
    fs.foldl (betterFrame key) f ∈ f :: fs ∧ ∀ g ∈ f :: fs, key (fs.foldl (betterFrame key) f) ≤ key g := by
  induction fs generalizing f with
  | nil => simp
  | cons g fs ih =>
    obtain ⟨mem, least⟩ := ih (betterFrame key f g)
    obtain ⟨lef, leg⟩ := betterFrame_le key f g
    have low := least _ List.mem_cons_self
    refine ⟨?_, fun h hh => ?_⟩
    · have : betterFrame key f g = g ∨ betterFrame key f g = f := ite_eq_or_eq ..
      grind
    · obtain rfl | rfl | rest := by simpa using hh
      · exact low.trans lef
      · exact low.trans leg
      · exact least h (List.mem_cons_of_mem _ rest)

/-- The frame that leaves is a best one of the queue. -/
theorem Chip.frameSend_best (queued : c.tx ≠ []) : ∃ f ∈ c.tx, (∀ g ∈ c.tx, f.prio ≤ g.prio) ∧
    c.frameSend = { c with tx := c.tx.erase f, wire := c.wire ++ [f.bytes c.lseq], lseq := (c.lseq + 1) % 256 } := by
  obtain ⟨f, fs, queue⟩ := List.exists_cons_of_ne_nil queued
  obtain ⟨mem, least⟩ := foldl_betterFrame BzFrame.prio fs f
  refine ⟨_, queue ▸ mem, queue ▸ least, ?_⟩
  unfold Chip.frameSend
  rw [queue]
  rfl

/-! ### The limp store (R552) -/

/-- The sequence count that the next copy of the limp store takes. -/
def Chip.nextCopy (c : Chip) : Nat := (c.storeNewest.map (·.1)).getD 0 + 1

section
variable {c : Chip}

/-- The next copy is newer than both copies that are there. -/
theorem Chip.lt_nextCopy {x : Nat × Settings} (held : c.storeA = some x ∨ c.storeB = some x) : x.1 < c.nextCopy := by
  unfold Chip.nextCopy Chip.storeNewest
  grind

theorem Chip.storeNewest_of_storeA {copy : Nat × Settings} (busy : Bool) (newer : ∀ b, c.storeB = some b → b.1 < copy.1) :
    { c with storeBusy := busy, storeA := some copy }.storeNewest = some copy := by
  unfold Chip.storeNewest
  cases held : c.storeB with
  | none => rfl
  | some b => exact if_pos (newer b held)

theorem Chip.storeNewest_of_storeB {copy : Nat × Settings} (busy : Bool) (newer : ∀ a, c.storeA = some a → a.1 < copy.1) :
    { c with storeBusy := busy, storeB := some copy }.storeNewest = some copy := by
  unfold Chip.storeNewest
  cases held : c.storeA with
  | none => rfl
  | some a => exact if_neg (Nat.lt_asymm (newer a held))

/-- A write that succeeds puts the copy into one of the two places. -/
theorem Chip.storeDone_writes (busy : c.storeBusy = true) :
    c.storeDone true = { c with storeBusy := false, storeA := some (c.nextCopy, limpSection c.crest) } ∨
    c.storeDone true = { c with storeBusy := false, storeB := some (c.nextCopy, limpSection c.crest) } := by
  unfold Chip.storeDone
  rw [if_pos busy, if_pos rfl]
  dsimp only
  split
  · exact .inl rfl
  · exact .inr rfl
  · split
    exacts [.inr rfl, .inl rfl]

/-- The copy that a write leaves is the newest one; the other place keeps its own. -/
theorem Chip.storeDone_good (busy : c.storeBusy = true) :
    (c.storeDone true).storeBusy = false ∧ (c.storeDone true).storeNewest = some (c.nextCopy, limpSection c.crest) ∧
    ((c.storeDone true).storeA = c.storeA ∨ (c.storeDone true).storeB = c.storeB) ∧
    { c.storeDone true with storeBusy := true, storeA := c.storeA, storeB := c.storeB } = c := by
  have rest : { c with storeBusy := true } = c := by rw [← busy]
  obtain written | written := Chip.storeDone_writes busy
  · rw [written]
    exact ⟨rfl, Chip.storeNewest_of_storeA false fun b held => Chip.lt_nextCopy (.inr held), .inr rfl, rest⟩
  · rw [written]
    exact ⟨rfl, Chip.storeNewest_of_storeB false fun a held => Chip.lt_nextCopy (.inl held), .inl rfl, rest⟩

end

variable {c} in
theorem Chip.storeDone_bad (busy : c.storeBusy = true) : c.storeDone false = { c with storeBusy := false, sts := c.sts ||| oneBit 19 } := by
  simp [Chip.storeDone, busy, Chip.flag, chipCntByte]

/-! ### The settings banks (R320, R324, R327, R328) -/

/-- An event that was stamped before the slip point is still scheduled. -/
theorem Chip.oldScheduled_iff : c.oldScheduled = true ↔ ∃ e ∈ c.schedule, stampTime e.ev.stamp < c.slipPoint := by
  simp [Chip.oldScheduled, stampTime, Nat.mul_comm]

variable {c}

theorem Chip.retireBank_used (used : ∃ e ∈ c.schedule, stampTime e.ev.stamp < c.slipPoint) : c.retireBank = c := by
  simp [Chip.retireBank, c.oldScheduled_iff.mpr used]

theorem Chip.retireBank_unused (unused : ¬ ∃ e ∈ c.schedule, stampTime e.ev.stamp < c.slipPoint) :
    c.retireBank = { c with retiring := none, lee := if c.retiring = none then c.lee else c.crest } := by
  have noneOld : c.oldScheduled = false := Bool.eq_false_iff.mpr fun old => unused (c.oldScheduled_iff.mp old)
  unfold Chip.retireBank
  cases held : c.retiring with
  | none => simp [← held]
  | some old => simp [noneOld]

theorem Chip.retireBank_none (free : c.retiring = none) : c.retireBank = c := by
  simp [Chip.retireBank, free]

theorem Chip.slipPrepare_kept (id : Nat) (held : c.retiring ≠ none) (used : ∃ e ∈ c.schedule, stampTime e.ev.stamp < c.slipPoint) :
    c.slipPrepare id = c.send (.slipAck 2 0x06 id 0) := by
  simp [Chip.slipPrepare, Chip.retireBank_used used, Option.isSome_iff_ne_none, held]

theorem Chip.slipPrepare_opens (id : Nat) (free : ¬ (c.retiring ≠ none ∧ ∃ e ∈ c.schedule, stampTime e.ev.stamp < c.slipPoint)) :
    c.slipPrepare id = { c with preparing := true, slipId := id, chunks := [], armed := none, retiring := none, lee := if c.retiring = none then c.lee else c.crest } := by
  have retired : c.retireBank = { c with retiring := none, lee := if c.retiring = none then c.lee else c.crest } := by
    by_cases empty : c.retiring = none
    · rw [Chip.retireBank_none empty, if_pos empty, ← empty]
    · exact Chip.retireBank_unused fun used => free ⟨empty, used⟩
  simp [Chip.slipPrepare, retired]

/-! ### Chunks of the ledger block (R458) -/

theorem Settings.word_put (b : Settings) (k a : Nat) (w : Word) : (b.put k w).word a = if a = k then w else b.word a := mget_mset _ _ _ _ _

/-- Words `base + 4 i` written from `g`, for each `i` of a list. -/
def Settings.putWords (b : Settings) (base : Nat) (g : Nat → Word) (l : List Nat) : Settings := l.foldl (fun b i => b.put (base + 4 * i) (g i)) b

theorem Settings.word_putWords_out (base : Nat) (g : Nat → Word) (l : List Nat) (b : Settings) (a : Nat) (out : ∀ i ∈ l, a ≠ base + 4 * i) :
    (b.putWords base g l).word a = b.word a := by
  induction l generalizing b with
  | nil => rfl
  | cons i l ih =>
    refine (ih _ fun j mem => out j (List.mem_cons_of_mem _ mem)).trans ?_
    rw [Settings.word_put, if_neg (out i List.mem_cons_self)]

theorem Settings.word_putWords_in (base : Nat) (g : Nat → Word) (l : List Nat) (b : Settings) (i : Nat) (mem : i ∈ l) :
    (b.putWords base g l).word (base + 4 * i) = g i := by
  induction l generalizing b with
  | nil => cases mem
  | cons j l ih =>
    by_cases later : i ∈ l
    · exact ih _ later
    · obtain rfl : i = j := (List.mem_cons.mp mem).resolve_right later
      refine (Settings.word_putWords_out base g l _ _ fun k hk same => later ?_).trans ?_
      · obtain rfl : i = k := by omega
        exact hk
      · rw [Settings.word_put, if_pos rfl]

theorem Settings.putChunk_eq (b : Settings) (chunk : Nat) (bytes : List Byte) :
    b.putChunk chunk bytes = b.putWords (64 * chunk) (fun i => BitVec.ofNat 32 (leAt bytes (4 * i) 4)) (List.range 16) := by
  rw [Nat.mul_comm]
  rfl

theorem Settings.word_putChunk (b : Settings) (chunk : Nat) (bytes : List Byte) (i : Nat) (h : i < 16) :
    (b.putChunk chunk bytes).word (64 * chunk + 4 * i) = BitVec.ofNat 32 (leAt bytes (4 * i) 4) := by
  rw [Settings.putChunk_eq]
  exact Settings.word_putWords_in _ _ _ _ _ (List.mem_range.mpr h)

theorem Settings.word_putChunk_out (b : Settings) (chunk : Nat) (bytes : List Byte) (a : Nat) (out : a < 64 * chunk ∨ 64 * chunk + 64 ≤ a) :
    (b.putChunk chunk bytes).word a = b.word a := by
  rw [Settings.putChunk_eq]
  refine Settings.word_putWords_out _ _ _ _ _ fun i mem => ?_
  have := List.mem_range.mp mem
  omega

theorem Chip.leeData_lands {chunk id8 : Nat} (bytes : List Byte) (t : Time) (small : chunk < 32) (ours : c.preparing = false ∨ c.slipId % 256 = id8) :
    c.leeData chunk id8 bytes t = { c with
      lee := c.lee.putChunk chunk bytes, chunks := if c.chunks.contains chunk then c.chunks else c.chunks ++ [chunk], tx := c.tx ++ [.reply (0xF000 + chunk) 0 t] } :=
  if_pos ⟨small, ours⟩

theorem mem_addChunk (l : List Nat) (k m : Nat) : m ∈ (if l.contains k then l else l ++ [k]) ↔ m = k ∨ m ∈ l := by
  split
  case isTrue old =>
    have := List.contains_iff_mem.mp old
    grind
  case isFalse => simp [or_comm]

/-! ### The slip point and the switch after reseating (R324, R327, R328, R552) -/

/-- The chip right after the switch at the slip point `p`: the former crest is the retiring bank. -/
def Chip.switchedAt (c : Chip) (p t : Time) : Chip :=
  { { c with armed := none, preparing := false, chunks := [], slipPoint := p }.switch t with retiring := some c.crest }

theorem Chip.switchedAt_sansOutputs (p t : Time) : (c.switchedAt p t).sansOutputs =
    { c with armed := none, preparing := false, chunks := [], slipPoint := p, crest := c.lee, retiring := some c.crest }.sansOutputs :=
  congrArg (fun x : Chip => { x with retiring := some c.crest }) (Chip.switch_sansOutputs { c with armed := none, preparing := false, chunks := [], slipPoint := p } t)

/-- The chip at the slip point: a changed limp section waits for the limp store. -/
def Chip.slipped (c : Chip) (p t : Time) : Chip :=
  { c.switchedAt p t with storeBusy := c.storeBusy || decide (limpSection c.crest ≠ limpSection c.lee) }

theorem Chip.slipped_sansOutputs (p t : Time) : (c.slipped p t).sansOutputs =
    { c with armed := none, preparing := false, chunks := [], slipPoint := p, crest := c.lee, retiring := some c.crest,
             storeBusy := c.storeBusy || decide (limpSection c.crest ≠ limpSection c.lee) }.sansOutputs :=
  congrArg (fun x : Chip => { x with storeBusy := c.storeBusy || decide (limpSection c.crest ≠ limpSection c.lee) }) (c.switchedAt_sansOutputs p t)

theorem Chip.storeBusy_ite (a : Chip) (p : Prop) [Decidable p] : (if p then { a with storeBusy := true } else a) = { a with storeBusy := a.storeBusy || decide p } := by
  by_cases h : p
  · rw [if_pos h, decide_eq_true h, Bool.or_true]
  · rw [if_neg h, decide_eq_false h, Bool.or_false]

theorem Chip.slipPointAct_due {p t : Time} (armed : c.armed = some p) (due : p ≤ t) : c.slipPointAct t = (c.slipped p t).retireBank.sendIdent := by
  have acts : c.slipPointAct t =
      (if limpSection c.crest ≠ limpSection (c.switchedAt p t).crest then { c.switchedAt p t with storeBusy := true } else c.switchedAt p t).retireBank.sendIdent := by
    unfold Chip.slipPointAct
    rw [armed]
    exact if_pos due
  have crest : (c.switchedAt p t).crest = c.lee := (congrArg Chip.crest (c.switchedAt_sansOutputs p t) :)
  have busy : (c.switchedAt p t).storeBusy = c.storeBusy := (congrArg Chip.storeBusy (c.switchedAt_sansOutputs p t) :)
  rw [acts, crest, Chip.storeBusy_ite, busy]
  rfl

theorem Chip.slipPointAct_waits {t : Time} (waits : c.armed = none ∨ ∃ p, c.armed = some p ∧ t < p) : c.slipPointAct t = c := by
  unfold Chip.slipPointAct
  obtain unarmed | ⟨p, armed, early⟩ := waits
  · simp [unarmed]
  · simp [armed, Nat.not_le.mpr early]

/-- At its slip point the chip switches and identifies itself; the former crest stays for the events that were stamped before. -/
theorem Chip.slipPointAct_result {p t : Time} (armed : c.armed = some p) (due : p ≤ t) : ∃ (x : Chip) (r : Option Settings), c.slipPointAct t = x.sendIdent ∧
    x.sansOutputs = { c with armed := none, preparing := false, chunks := [], slipPoint := p, crest := c.lee, retiring := r,
                             storeBusy := c.storeBusy || decide (limpSection c.crest ≠ limpSection c.lee) }.sansOutputs ∧
    ((∃ e ∈ c.schedule, stampTime e.ev.stamp < p) → r = some c.crest) ∧ ((∀ e ∈ c.schedule, p ≤ stampTime e.ev.stamp) → r = none) := by
  have frame := c.slipped_sansOutputs p t
  have schedule : (c.slipped p t).schedule = c.schedule := (congrArg Chip.schedule frame :)
  have point : (c.slipped p t).slipPoint = p := (congrArg Chip.slipPoint frame :)
  by_cases used : ∃ e ∈ c.schedule, stampTime e.ev.stamp < p
  · refine ⟨_, some c.crest, Chip.slipPointAct_due armed due, ?_, fun _ => rfl, fun unused => ?_⟩
    · rw [Chip.retireBank_used (by rwa [schedule, point]), frame]
    · obtain ⟨e, mem, before⟩ := used
      exact absurd before (Nat.not_lt.mpr (unused e mem))
  · have crest : (c.slipped p t).crest = c.lee := (congrArg Chip.crest frame :)
    have lee : (c.slipped p t).lee = c.lee := (congrArg Chip.lee frame :)
    refine ⟨_, none, Chip.slipPointAct_due armed due, ?_, fun old => absurd old used, fun _ => rfl⟩
    rw [Chip.retireBank_unused (by rwa [schedule, point]), crest, lee, ite_self]
    exact congrArg (fun x : Chip => { x with retiring := none, crest := c.lee, lee := c.lee }) frame

/-- A chip whose whole ledger block arrived with no event scheduled switches and identifies itself. -/
theorem Chip.reseatSwitch_whole (t : Time) (whole : c.preparing = false ∧ c.armed = none ∧ c.chunks.length = 32 ∧ c.schedule = []) :
    ∃ x : Chip, c.reseatSwitch t = x.sendIdent ∧ x.sansOutputs = { c with chunks := [], retiring := none, crest := c.lee }.sansOutputs :=
  ⟨_, if_pos whole, Chip.switch_sansOutputs _ t⟩

end Sys2Proof.Machine
end

section
/-! SUPPORT. A BZ31's register frames, status, settings banks and slip (12 R320 to R328; 17 R454, R458; 20 R547 to R552): obligation O51. -/

namespace Sys2Proof.Machine

/-- A command that finds nothing to do at its chip changes nothing. -/
theorem State.onLive_same (s : State) (n : Fin 4) (f : Chip → Chip) (h : f s.chips[n] = s.chips[n]) : s.onLive n f = s := by
  have same : s.onChip n f = s := by
    unfold State.onChip
    rw [h]
    simp
  unfold State.onLive
  rw [same, ite_self]

/-- Settles O51: frame by frame, and command by command of a slip, by what the chip's operation of that name does. -/
theorem chipFrameResults : Obligations.ChipFrameResults := by
  intro s n tag off id chunk id8 data bytes point t ok c goes fresh answers kept
  refine ⟨fun dead => ?dead, fun on => ?_⟩
  case dead =>
    have stays (f : Chip → Chip) : (Host.Outcome.next (s.onLive n f) : Host.Outcome State Fault Refusal) = .next s := congrArg _ (s.onLive_off n f dead)
    exact ⟨stays _, stays _, stays _, stays _, stays _, stays _, stays _, stays _, stays _, stays _, stays _, stays _, stays _, stays _⟩
  have moves {f : Chip → Chip} {p : Chip → Prop} (h : p (f c)) : s.ChipGoes n (.next (s.onLive n f)) p := s.onLive_goes n f p on h
  have stays {f : Chip → Chip} (h : f c = c) : (Host.Outcome.next (s.onLive n f) : Host.Outcome State Fault Refusal) = .next s := congrArg _ (s.onLive_same n f h)
  clear_value c
  refine ⟨?repeated, ?outside, ?inside, ?changed, ?same, moves rfl, moves rfl, ?idle, ?best, ?noWrite, ?written, ?failed, ?nack, ?opens, ?lands, ?ignored,
    ?commits, ?noCommit, ?aborts, ?noAbort, ?waits, ?switches, ⟨?noReseat, ?reseats⟩, ?noRun, ?run⟩
  case repeated => exact fun f last => ⟨moves (Chip.reg_repeated last), moves (Chip.reg_repeated last)⟩
  case outside =>
    refine fun new out => ⟨moves ?_, moves ?_⟩
    · rw [Chip.reg_outside new out]
      exact ⟨⟨rfl, rfl⟩, c.answer_frame tag _⟩
    · rw [Chip.reg_outside new out]
      exact ⟨⟨rfl, rfl⟩, c.answer_frame tag _⟩
  case inside =>
    intro new aligned small
    obtain ⟨v, read⟩ := Chip.regRead_inside (c := c) aligned small
    refine ⟨⟨v, read, moves ?_⟩, moves ?_⟩
    · rw [Chip.reg_read new read]
      exact ⟨⟨rfl, rfl⟩, c.answer_frame tag _⟩
    · rw [Chip.reg_write new read]
      have frame := c.regWrite_sansControl off data t
      refine ⟨⟨_, congrArg (· ++ [_]) (congrArg Chip.tx frame :), rfl⟩, (congrArg Chip.crest frame :), (congrArg Chip.schedule frame :), ?chipFlags, ?storeFlags, ?limp, ?release, ?readOnly⟩
      case chipFlags =>
        rintro rfl
        rw [Chip.regWrite_chipFlags]
        exact ⟨rfl, rfl, rfl⟩
      case storeFlags =>
        rintro rfl
        rw [Chip.regWrite_storeFlags]
        exact ⟨rfl, rfl, rfl⟩
      case limp =>
        rintro rfl enter
        exact (Chip.answer_supervisor _ tag _).trans (Chip.regWrite_limp enter)
      case release =>
        rintro rfl release stay locked held
        exact (Chip.answer_supervisor _ tag _).trans (Chip.regWrite_release release stay locked held)
      case readOnly =>
        intro readOnly
        rw [Chip.regWrite_readOnly readOnly]
        exact c.answer_frame tag _
  case changed => exact fun locked new => moves (Chip.statusSample_changed on locked new)
  case same => exact fun h => stays (Chip.statusSample_same h)
  case idle => exact fun empty => stays (by simp [Chip.frameSend, takeBest, empty])
  case best => exact fun queued => moves (Chip.frameSend_best _ queued)
  case noWrite => exact fun free => stays (by simp [Chip.storeDone, free])
  case written =>
    rintro busy rfl
    obtain ⟨done, newest, place, rest⟩ := Chip.storeDone_good busy
    refine moves ⟨done, newest.trans ?_, place, rest⟩
    unfold Chip.nextCopy
    rcases c.storeNewest with _ | y <;> rfl
  case failed =>
    rintro busy rfl
    exact moves (Chip.storeDone_bad busy)
  case nack => exact fun ⟨held, used⟩ => moves (Chip.slipPrepare_kept id held used)
  case opens => exact fun free => moves (Chip.slipPrepare_opens id free)
  case lands =>
    refine fun small ours => moves ?_
    rw [Chip.leeData_lands bytes t small ours]
    exact ⟨rfl, mem_addChunk c.chunks chunk, rfl, c.lee.word_putChunk chunk bytes, c.lee.word_putChunk_out chunk bytes⟩
  case ignored =>
    refine fun foreign => stays (if_neg fun ⟨small, ours⟩ => ?_)
    obtain big | ⟨preparing, other⟩ := foreign
    · exact Nat.not_lt.mpr big small
    · exact ours.elim (fun closed => Bool.false_ne_true (closed.symm.trans preparing)) other
  case commits => exact fun preparing same => moves (if_pos ⟨preparing, same⟩)
  case noCommit => exact fun h => stays (if_neg fun ⟨preparing, same⟩ => h.elim (fun closed => Bool.false_ne_true (closed.symm.trans preparing)) (· same))
  case aborts => exact fun same => moves (if_pos same)
  case noAbort => exact fun other => stays (if_neg other)
  case waits => exact fun h => stays (Chip.slipPointAct_waits h)
  case switches =>
    intro p armed due
    obtain ⟨x, r, acts, frame, used, unused⟩ := Chip.slipPointAct_result armed due
    refine moves ?_
    rw [acts]
    exact ⟨(congrArg Chip.crest frame :), (congrArg Chip.lee frame :), (congrArg Chip.slipPoint frame :), (congrArg Chip.armed frame :), (congrArg Chip.preparing frame :),
      (congrArg Chip.chunks frame :), (congrArg Chip.schedule frame :), (congrArg Chip.supervisor frame :), fun h => (congrArg Chip.retiring frame :).trans (used h),
      fun h => (congrArg Chip.retiring frame :).trans (unused h), (congrArg Chip.storeBusy frame :), x.sendIdent_length.trans (congrArg (·.tx.length + 1) frame :)⟩
  case noReseat => exact fun part => stays (if_neg part)
  case reseats =>
    rintro ⟨closed, unarmed, full, empty⟩
    obtain ⟨x, acts, frame⟩ := Chip.reseatSwitch_whole t ⟨closed, unarmed, full, empty⟩
    refine moves ?_
    rw [acts]
    exact ⟨(congrArg Chip.crest frame :), (congrArg Chip.lee frame :), (congrArg Chip.retiring frame :), (congrArg Chip.chunks frame :),
      (congrArg Chip.schedule frame :).trans empty, (congrArg Chip.supervisor frame :), x.sendIdent_length.trans (congrArg (·.tx.length + 1) frame :)⟩
  case noRun => exact fun locked => stays (if_pos locked)
  case run => exact fun free => moves (by simp [Chip.frameDiscard, free])

end Sys2Proof.Machine
end

section
/-! SUPPORT. CAN controllers and Ethernet ports (15 R402, R403, R410; 16 R433 to R436): obligation O35. -/

namespace Sys2Proof.Machine

variable (s : State) (t : Time) (die : Fin 2) (k : Fin 4)

@[simp] theorem State.at_canUp : (s.at t).canUp die k = s.canUp die k := by rw [State.at_eq]; rfl
@[simp] theorem State.at_ethEn (j p : Nat) : (s.at t).ethEn j p = s.ethEn j p := by rw [State.at_eq]; rfl

/-! ### CAN controllers (R433 to R436) -/

/-- A frame that finds the die or the controller out of work, or that is no frame of CAN, is lost. -/
theorem exec_canFrameReceive_lost (f : CanFrame) (lost : (s.at t).stamping die 3 = false ∨ s.canUp die k = false ∨ 64 < f.data.length) :
    exec (.canFrameReceive die k f t) s = .next (s.at t) := by
  refine congrArg Host.Outcome.next (if_pos ?_)
  rw [State.at_canUp]
  obtain still | off | long := lost
  · exact .inl (by rw [still]; rfl)
  · exact .inr (.inl (by rw [off]; rfl))
  · exact .inr (.inr (.inl long))

/-- Any other frame is looked up in the acceptance filters of the bank that its time selects. -/
theorem exec_canFrameReceive_heard (f : CanFrame) (stamps : (s.at t).stamping die 3 = true) (up : s.canUp die k = true) (short : f.data.length ≤ 64)
    (fd : f.fdf = true → (s.reg (canBase die k)).getLsbD 1 = true) :
    exec (.canFrameReceive die k f t) s = .next (match (s.at t).canFilter die k ((s.at t).usesOld t) f with
      | none => s.at t
      | some n => (s.at t).laneArrive die false (4 * 32 + 16 * die.val + k.val) { key := eventKey t (4 * 32 + 16 * die.val + k.val), body := canBody f n }) := by
  refine congrArg Host.Outcome.next (if_neg ?_)
  rw [stamps, State.at_canUp, up, State.at_reg, bit]
  rintro (no | no | long | ⟨flexible, classic⟩)
  · cases no
  · cases no
  · exact absurd short (Nat.not_le.mpr long)
  · rw [fd flexible] at classic
    cases classic

/-- The error counters after an error frame; a controller above 255 transmit errors is bus-off (R436). -/
theorem exec_canErrorFrame_up (tec rec_ : Nat) (up : s.canUp die k = true) : exec (.canErrorFrame die k tec rec_) s = .next (
    let off := decide (255 < tec)
    let u := (s.setCan die k { s.canIn die k with tec := tec, rec_ := rec_, busOff := off, integrated := !off }).inFlag die 9
    if off then u.inFlag die 10 else u) :=
  congrArg Host.Outcome.next (if_neg (by rw [up]; decide))

/-! ### Ethernet (R402, R403) -/

/-- The port takes frames: the die is in service, the port enabled and its link up, and the frame is no flow control. -/
def State.ethTakes (frame : List Byte) : Prop :=
  s.mesaLive die = true ∧ s.ethEn die k = true ∧ s.ingress[die].ethUp[k] = true ∧ (ethHead frame).2.1 ≠ 0x8808

/-- Filter `n` of the port, in the bank that the frame's time selects, matches. -/
def State.ethMatches (frame : List Byte) (n : Nat) : Bool :=
  let b := ethBase die k
  ethFilter (s.bankWord die (s.usesOld t) (b + 0x40 + 4 * n)) (fld (s.bankWord die (s.usesOld t) b) 27 16) frame

/-- What becomes of a whole frame: an event under the lowest filter that matches, a PTP frame for the PTP unit, or a dropped frame. -/
def State.ethWhole (frame : List Byte) : State :=
  match (List.range 8).find? fun n => s.ethMatches t die k frame n with
  | some n =>
    let byte := 4 * 32 + 16 * die.val + 4 + k.val
    if s.stamping die 1 then s.laneArrive die false byte { key := eventKey t byte, body := ethBody n frame } else s
  | none => if isPtp frame && bit (s.reg (ethBase die k)) 3 then s else s.count32 (ethBase die k + 8) 1

theorem exec_ethFrame_eq (frame : List Byte) (ok : Bool) : exec (.ethFrame die k frame ok t) s = .next (
    if !(s.at t).mesaLive die ∨ !(s.at t).ethEn die k ∨ !(s.at t).ingress[die].ethUp[k] ∨ (ethHead frame).2.1 = 0x8808 then s.at t
    else if !ok ∨ 9216 < frame.length then (s.at t).count32 (ethBase die k + 8) 1
    else (s.at t).ethWhole t die k frame) := rfl

variable {s t die k} {frame : List Byte} {ok : Bool}

theorem exec_ethFrame_idle (idle : ¬ s.ethTakes die k frame) : exec (.ethFrame die k frame ok t) s = .next (s.at t) := by
  rw [exec_ethFrame_eq, State.at_mesaLive, State.at_ethEn, State.at_ingress]
  refine congrArg Host.Outcome.next (if_pos ?_)
  by_contra takes
  simp only [not_or, Bool.not_eq_true', Bool.not_eq_false] at takes
  exact idle takes

theorem exec_ethFrame_taken (takes : s.ethTakes die k frame) : exec (.ethFrame die k frame ok t) s = .next (
    if ok = false ∨ 9216 < frame.length then (s.at t).count32 (ethBase die k + 8) 1 else (s.at t).ethWhole t die k frame) := by
  obtain ⟨live, enabled, up, data⟩ := takes
  rw [exec_ethFrame_eq, State.at_mesaLive, State.at_ethEn, State.at_ingress, live, enabled, up]
  simp [data]

theorem exec_ethFrame_whole (takes : s.ethTakes die k frame) (sound : ok = true) (short : frame.length ≤ 9216) :
    exec (.ethFrame die k frame ok t) s = .next ((s.at t).ethWhole t die k frame) := by
  rw [exec_ethFrame_taken takes, if_neg]
  simp [sound, short]

/-- A frame that no filter matches and that is no frame of the PTP unit is counted. -/
theorem State.ethWhole_unmatched (unmatched : ∀ n, n < 8 → ¬ s.ethMatches t die k frame n = true) (plain : isPtp frame = false ∨ (s.reg (ethBase die k)).getLsbD 3 = false) :
    s.ethWhole t die k frame = s.count32 (ethBase die k + 8) 1 := by
  have none_ : (List.range 8).find? (fun n => s.ethMatches t die k frame n) = none :=
    List.find?_eq_none.mpr fun n mem => unmatched n (List.mem_range.mp mem)
  rw [State.ethWhole, none_]
  refine if_neg ?_
  obtain plain | off := plain
  · simp [plain]
  · rw [bit, off, Bool.and_false]
    decide

/-- The lowest filter that matches gives the event its number. -/
theorem State.ethWhole_matched {n : Nat} (small : n < 8) (hit : s.ethMatches t die k frame n = true) (lowest : ∀ m, m < n → ¬ s.ethMatches t die k frame m = true)
    (stamps : s.stamping die 1 = true) : s.ethWhole t die k frame =
      s.laneArrive die false (4 * 32 + 16 * die.val + 4 + k.val) { key := eventKey t (4 * 32 + 16 * die.val + 4 + k.val), body := ethBody n frame } := by
  have found : (List.range 8).find? (fun n => s.ethMatches t die k frame n) = some n :=
    List.find?_range_eq_some.mpr ⟨hit, List.mem_range.mpr small, fun m before => by simpa using lowest m before⟩
  rw [State.ethWhole, found]
  exact if_pos stamps

/-- Settles O35: frame by frame, by what a controller's filters and a port's filters make of it. -/
theorem fieldBusResults : Obligations.FieldBusResults := by
  intro s die k t v c up
  refine ⟨?received, ?lost, ?error, ?transmit, ?off, ?init, ?absent, ?ethernet⟩
  case received =>
    intro f stamps on short fd
    have heard := exec_canFrameReceive_heard s t die k f stamps on short fd
    refine ⟨fun unaccepted => ?_, fun n accepted => ?_⟩
    · rw [heard, unaccepted]
    · rw [heard, accepted]
  case lost => exact fun f lost => exec_canFrameReceive_lost s t die k f (lost.imp_right (Or.imp_left Bool.eq_false_iff.mpr))
  case error =>
    intro tec rec_ on
    rw [exec_canErrorFrame_up s die k tec rec_ on]
    refine ⟨fun few => ?_, fun many => ?_⟩
    · rw [decide_eq_false (Nat.not_lt.mpr few)]; rfl
    · rw [decide_eq_true many]; rfl
  case transmit =>
    intro b on
    refine ⟨s.canBuffer die k b, congrArg Host.Outcome.next (if_neg (by rw [on]; decide)), by simp [State.canBuffer], fun i small => ?_⟩
    simp [State.canBuffer, small]
  case off =>
    intro off
    have idle : (!s.canUp die k) = true := by rw [Bool.eq_false_iff.mpr off]; rfl
    exact ⟨fun tec rec_ => congrArg Host.Outcome.next (if_pos idle), fun b => congrArg Host.Outcome.next (if_pos idle)⟩
  case init => exact fun live => ⟨congrArg Host.Outcome.next (if_pos live), congrArg Host.Outcome.next (if_pos live), fun b => congrArg Host.Outcome.next (if_pos live)⟩
  case absent =>
    intro dead
    have dead := Bool.eq_false_iff.mp dead
    exact ⟨congrArg Host.Outcome.next (if_neg dead), congrArg Host.Outcome.next (if_neg dead), fun b => congrArg Host.Outcome.next (if_neg dead)⟩
  case ethernet =>
    intro frame ok b live matches_ byte
    have hits (n : Nat) : matches_ n ↔ v.ethMatches t die k frame n = true := by
      rw [State.ethMatches]
      simp only [fld_eq]
      rfl
    simp only [hits]
    refine ⟨exec_ethFrame_idle, fun takes bad => ?_, fun takes sound short unmatched plain => ?_, fun n small takes sound short hit lowest stamps => ?_⟩
    · rw [exec_ethFrame_taken takes, if_pos bad]
    · rw [exec_ethFrame_whole takes sound short, State.ethWhole_unmatched unmatched (by rwa [State.at_reg])]
    · rw [exec_ethFrame_whole takes sound short, State.ethWhole_matched small hit lowest stamps]

end Sys2Proof.Machine
end

section
/-! SUPPORT. What stands in the host link (15): queues, lists of commands, and what a signalled vector, a flag or a completion leaves of it. -/

namespace Sys2Proof.Machine

variable (s : State) (t : Time)

/-! ### What an event's time leaves -/

@[simp] theorem State.at_queue (q : Nat) : (s.at t).queue q = s.queue q := by rw [State.queue, State.at_link]; rfl
@[simp] theorem State.at_sqSize (q : Nat) : (s.at t).sqSize q = s.sqSize q := by rw [State.sqSize, State.at_reg]; rfl
@[simp] theorem State.at_cqSize (q : Nat) : (s.at t).cqSize q = s.cqSize q := by rw [State.cqSize, State.at_reg]; rfl
@[simp] theorem State.at_dmaOk : (s.at t).dmaOk = s.dmaOk := by rw [State.at_eq]; rfl
@[simp] theorem State.at_unit : (s.at t).unit = s.unit := by rw [State.at_eq]
@[simp] theorem State.at_doorbellErr (q : Nat) : (s.at t).doorbellErr q = s.doorbellErr q := by
  rw [State.doorbellErr, State.at_queue, State.at_reg, State.at_link]; rfl
@[simp] theorem State.at_groupSize (q : Nat) : (s.at t).groupSize q = s.groupSize q := by
  rw [State.groupSize, State.at_queue, State.at_cqSize]; rfl

/-- The host link changes after an event's time as it changes before. -/
theorem State.at_modLink (f : HostLink → HostLink) : (s.at t).modLink f = { s.at t with link := f s.link } := by rw [State.modLink, State.at_link]

/-! ### Queues (R394) -/

variable {s}

theorem State.queue_setQueue_same (q : Fin 8) (x : HpQueue) : (s.setQueue q x).queue q = x := by
  simp [State.setQueue, State.queue, State.modLink, List.getD]

theorem State.queue_setQueue_ne (q p : Fin 8) (x : HpQueue) (other : p ≠ q) : (s.setQueue q x).queue p = s.queue p := by
  simp [State.setQueue, State.queue, State.modLink, List.getD, List.getElem_set_ne (Fin.val_ne_of_ne other.symm)]

/-- `u` is `s` to the host's other queues, to the registers and to what never goes back, and queue `q` is `x`. -/
def State.OnlyQueue (s u : State) (q : Fin 8) (x : HpQueue) : Prop :=
  u.queue q = x ∧ (∀ p : Fin 8, p ≠ q → u.queue p = s.queue p) ∧ u.regs = s.regs ∧ u.kept = s.kept

theorem State.onlyQueue_setQueue (q : Fin 8) (x : HpQueue) : s.OnlyQueue (s.setQueue q x) q x :=
  ⟨State.queue_setQueue_same q x, fun p other => State.queue_setQueue_ne q p x other, rfl, State.setQueue_kept _ _ _⟩

theorem State.OnlyQueue.of_at {t : Time} {u : State} {q : Fin 8} {x : HpQueue} (h : (s.at t).OnlyQueue u q x) : s.OnlyQueue u q x := by
  obtain ⟨same, others, regs, kept⟩ := h
  exact ⟨same, fun p other => (others p other).trans (s.at_queue t p), regs.trans (s.at_regs t), kept.trans (s.at_kept t)⟩

@[simp] theorem State.hpDrop_queue (n q : Nat) : (s.hpDrop n).queue q = s.queue q := rfl

@[simp] theorem State.hpFlag_queue (b q : Nat) : (s.hpFlag b).queue q = s.queue q := by
  unfold State.hpFlag
  dsimp only
  split <;> rfl

/-- A queue is enabled in the list of all queues where it is enabled by its number. -/
theorem State.any_enabled : s.link.queue.toList.any (fun x => x.enabled) = true ↔ ∃ q, (s.queue q).enabled = true := by
  rw [List.any_eq_true]
  constructor
  · rintro ⟨x, mem, on⟩
    obtain ⟨q, inside, rfl⟩ := List.mem_iff_getElem.mp mem
    exact ⟨q, by rwa [State.queue, List.getD_eq_getElem _ _ inside]⟩
  · rintro ⟨q, on⟩
    by_cases inside : q < s.link.queue.toList.length
    · rw [State.queue, List.getD_eq_getElem _ _ inside] at on
      exact ⟨_, List.getElem_mem inside, on⟩
    · rw [State.queue, List.getD_eq_default _ _ (Nat.le_of_not_lt inside)] at on
      cases on

/-! ### A signalled vector (R384) -/

/-- `l'` is `l` but for what signalling a vector leaves. -/
def HostLink.Signalled (l l' : HostLink) : Prop := { l' with pme := l.pme, msixPending := l.msixPending, msixSent := l.msixSent } = l

section
variable {l l' : HostLink}

theorem HostLink.Signalled.refl (l : HostLink) : l.Signalled l := rfl
theorem HostLink.Signalled.done (h : l.Signalled l') : l'.done = l.done := (congrArg HostLink.done h :)
theorem HostLink.Signalled.fetched (h : l.Signalled l') : l'.fetched = l.fetched := (congrArg HostLink.fetched h :)
theorem HostLink.Signalled.admin (h : l.Signalled l') : l'.admin = l.admin := (congrArg HostLink.admin h :)
theorem HostLink.Signalled.writes (h : l.Signalled l') : l'.writes = l.writes := (congrArg HostLink.writes h :)
theorem HostLink.Signalled.queue (h : l.Signalled l') : l'.queue = l.queue := (congrArg HostLink.queue h :)
theorem HostLink.Signalled.hp1Busy (h : l.Signalled l') : l'.hp1Busy = l.hp1Busy := (congrArg HostLink.hp1Busy h :)

end

theorem State.signal_signalled (v : Nat) : s.link.Signalled (s.signal v).link := by
  unfold State.signal
  dsimp only
  split_ifs <;> rfl

theorem State.makeRecord_signalled (die sev : Nat) (key : Option Key) (bytes : List Byte) : s.link.Signalled (s.makeRecord die sev key bytes).link := by
  have queued (irq : Bool) : (if sev ≥ 2 then (s.recordSent die key bytes irq).recordStored bytes else s.recordSent die key bytes irq).link = s.link := by
    split <;> rfl
  rw [State.makeRecord_eq]
  dsimp only
  split
  · rw [← queued]
    exact State.signal_signalled _
  · rw [queued]
    exact .refl _

theorem State.logInput_signalled (die kind outcome flags : Nat) (key : Key) (data : List Byte) : s.link.Signalled (s.logInput die kind outcome flags key data).link := by
  unfold State.logInput
  split
  · exact .refl _
  · exact State.makeRecord_signalled _ _ _ _

/-! ### Register words in a row -/

/-- Words written one behind the other, each with its value. -/
theorem State.reg_setWords (a : Nat) (f : Nat → Word) (n x : Nat) :
    ((List.range n).foldl (fun s k => s.setReg (a + 4 * k) (f k)) s).reg x = if x % 4 = a % 4 ∧ a ≤ x ∧ x < a + 4 * n then f ((x - a) / 4) else s.reg x := by
  induction n with
  | zero => rw [if_neg (by omega)]; rfl
  | succ n ih =>
    rw [List.range_succ, List.foldl_concat, State.reg_setReg, ih]
    by_cases last : x = a + 4 * n
    · subst last
      rw [if_pos rfl, if_pos (by omega), Nat.add_sub_cancel_left, Nat.mul_div_cancel_left _ (by decide)]
    · rw [if_neg last]
      congr 1
      apply propext
      omega

end Sys2Proof.Machine
end

section
/-! SUPPORT. The link to the host and its queues (15 R380 to R386, R394 to R397): obligation O27. -/

namespace Sys2Proof.Machine

variable {s : State} {t : Time}

/-! ### The host-link reset (R380) -/

/-- The state without the host link, the register words and the submissions. -/
def State.sansHost (s : State) : State := { s with link := {}, regs := [], submits := [] }

/-- Ranges of copies that are due become free in the host link alone. -/
theorem State.freeAll_keeps {α β : Type} (g : State → β) (p : α → StageRange → Bool) (hg : ∀ (s : State) q, g (s.freeRanges q) = g s) (l : List α) :
    g (l.foldl (fun s c => s.freeRanges (p c)) s) = g s :=
  State.foldl_preserves g _ (fun s _ => hg s _) l s

/-- The reset touches the host link, the registers and the submissions alone. -/
theorem State.linkReset_only : { s.linkReset with link := s.link, regs := s.regs, submits := s.submits } = s := by
  have same : s.linkReset.sansHost = s.sansHost := by
    unfold State.linkReset
    extract_lets l entries copies dropped due freed cleared orphaned reset
    have words : cleared.sansHost = freed.sansHost := State.foldl_preserves State.sansHost _ (by intros; rfl) _ _
    have ranges : freed.sansHost = dropped.sansHost := State.freeAll_keeps State.sansHost _ (fun _ _ => rfl) _
    clear_value cleared freed
    exact words.trans ranges
  generalize s.linkReset = u at same ⊢
  exact (congrArg (fun x : State => { x with link := s.link, regs := s.regs, submits := s.submits }) same :)

theorem State.linkReset_writes : s.linkReset.link.writes = s.link.writes := by
  unfold State.linkReset
  extract_lets l entries copies dropped due freed cleared orphaned reset
  have words : cleared.link.writes = freed.link.writes := State.foldl_preserves (fun u => u.link.writes) _ (by intros; rfl) _ _
  have ranges : freed.link.writes = dropped.link.writes := State.freeAll_keeps (fun u => u.link.writes) _ (fun _ _ => rfl) _
  clear_value cleared freed
  exact words.trans ranges

theorem State.linkReset_queue (q : Nat) : s.linkReset.queue q = {} := by
  show (Vector.replicate 8 ({} : HpQueue)).toList.getD q {} = {}
  rw [Vector.toList_replicate, List.getD, List.getElem?_replicate]
  split <;> rfl

/-- The words of HP1 are cleared, the dropped entries counted, and LINK_RESET is set. -/
theorem State.linkReset_reg : ∃ n, ∀ x, s.linkReset.reg x =
    if x = 0x3004 then s.reg 0x3004 ||| oneBit 4
    else if x % 4 = 0 ∧ 0x3100 ≤ x ∧ x < 0x316C then 0
    else if x = 0x3010 then BitVec.ofNat 32 (satAdd 0xFFFFFFFF (s.reg 0x3010).toNat n) else s.reg x := by
  unfold State.linkReset
  extract_lets l entries copies dropped due freed cleared orphaned reset
  refine ⟨entries + copies + (l.owed s.submits).length + l.done.length, fun x => ?_⟩
  have words (x : Nat) : cleared.reg x = if x % 4 = 0x3100 % 4 ∧ 0x3100 ≤ x ∧ x < 0x3100 + 4 * 27 then 0 else freed.reg x :=
    State.reg_setWords 0x3100 (fun _ => 0) 27 x
  have ranges : freed.regs = dropped.regs := State.freeAll_keeps State.regs _ (fun _ _ => rfl) _
  clear_value cleared freed
  have flag : (reset.hpFlag 4).reg x = if x = 0x3004 then cleared.reg 0x3004 ||| oneBit 4 else cleared.reg x := State.reg_setReg _ _ _ _
  have before (x : Nat) : freed.reg x = dropped.reg x := congrArg (mget regReset · x) ranges
  rw [flag, words, words, before, before]
  simp only [dropped, State.hpDrop, State.count32, State.reg_setReg]
  rfl

theorem State.linkReset_counts : (s.reg 0x3010).toNat ≤ (s.linkReset.reg 0x3010).toNat := by
  obtain ⟨n, words⟩ := s.linkReset_reg
  have small := (s.reg 0x3010).isLt
  rw [words, if_neg (by decide), if_neg (by decide), if_pos rfl, BitVec.toNat_ofNat, satAdd]
  omega

/-! ### Queues (R394 to R397) -/

/-- The TIME of a group is not before its arrival, and rises (R395). -/
theorem le_groupTime (now : Time) (last : Option Nat) : now / 2 ≤ groupTime now last := by
  cases last with
  | none => exact le_rfl
  | some l => exact le_max_left _ _

theorem lt_groupTime (now l : Nat) : l < groupTime now (some l) := Nat.lt_of_succ_le (le_max_right _ _)

theorem State.groupSize_le (q : Nat) :
    s.groupSize q ≤ 16 ∧ s.groupSize q ≤ (s.queue q).held ∧ s.groupSize q ≤ s.cqSize q - (s.queue q).cqUsed - (s.queue q).open_ := by
  simp only [State.groupSize]
  omega

/-- A queue with no entry to stamp, or that does not stamp, stays. -/
theorem State.stampGroup_idle {q : Nat} (idle : s.groupSize q = 0 ∨ (s.queue q).enabled = false ∨ (s.queue q).stopped = true) : s.stampGroup q = s :=
  if_pos (idle.imp_right (Or.imp_left fun off => by rw [off]; rfl))

/-- A group is stamped under one TIME, in the order of the submission queue. -/
theorem State.stampGroup_stamps {q : Fin 8} (some_ : 0 < s.groupSize q) (on : (s.queue q).enabled = true) (runs : (s.queue q).stopped = false) :
    let tm := groupTime s.time.now s.link.lastTime1
    ∃ new, (s.stampGroup q).link.lastTime1 = some tm ∧ new.length = s.groupSize q ∧ (∀ k, k < s.groupSize q → ∃ i, new[k]? = some (hostStamp tm 1, k, i)) ∧
      s.OnlyQueue (s.stampGroup q) q { s.queue q with
        held := (s.queue q).held - s.groupSize q, unfetched := (s.queue q).unfetched ++ new, open_ := (s.queue q).open_ + s.groupSize q } := by
  have busy : ¬ (s.groupSize q = 0 ∨ (!(s.queue q).enabled) = true ∨ (s.queue q).stopped = true) := by
    simp [on, runs, Nat.ne_of_gt some_]
  unfold State.stampGroup
  extract_lets tm x n size first new
  rw [if_neg busy]
  refine ⟨new, rfl, by simp [new, n], fun k small => ⟨(first + k) % size, by simp [new, n, small]⟩, ?_⟩
  exact State.onlyQueue_setQueue q _

/-- The tail that a doorbell writes lets the next group be stamped. -/
theorem exec_sqTailDoorbell_taken {q : Fin 8} {value : Word} (runs : s.unit.fwRunning = true) (right : s.doorbellErr q = 0) (inside : value.toNat % 4096 < s.sqSize q) :
    exec (.sqTailDoorbell q value t) s = exec (.hp2GroupStamp q t) (s.setQueue q { s.queue q with
      sqTail := value.toNat % 4096, held := (s.queue q).held + (value.toNat % 4096 + s.sqSize q - (s.queue q).sqTail) % s.sqSize q }) := by
  refine congrArg Host.Outcome.next ?_
  have late (x : HpQueue) : (s.setQueue q x).at t = (s.at t).setQueue q x := by
    rw [State.at_eq, State.at_eq]
    rfl
  rw [late]
  simp [runs, right, inside, fld_eq]

theorem exec_sqTailDoorbell_beyond {q : Fin 8} {value : Word} (runs : s.unit.fwRunning = true) (right : s.doorbellErr q = 0) (beyond : s.sqSize q ≤ value.toNat % 4096) :
    exec (.sqTailDoorbell q value t) s = .next (((s.at t).setQueue q { s.queue q with err := 1 }).hpFlag 1) := by
  refine congrArg Host.Outcome.next ?_
  simp [runs, right, beyond, fld_eq, State.queueErr]

theorem exec_sqTailDoorbell_wrong {q : Fin 8} {value : Word} (runs : s.unit.fwRunning = true) (wrong : s.doorbellErr q ≠ 0) :
    exec (.sqTailDoorbell q value t) s = .next (((s.at t).setQueue q { s.queue q with err := s.doorbellErr q }).hpFlag 1) := by
  refine congrArg Host.Outcome.next ?_
  simp [runs, wrong, State.queueErr]

theorem exec_cqHeadDoorbell_wrong {q : Fin 8} {value : Word} (runs : s.unit.fwRunning = true) (wrong : s.doorbellErr q ≠ 0) :
    exec (.cqHeadDoorbell q value) s = .next ((s.setQueue q { s.queue q with err := s.doorbellErr q }).hpFlag 1) := by
  refine congrArg Host.Outcome.next ?_
  simp [runs, wrong, State.queueErr]

/-- The head that a doorbell writes frees the slots before it. -/
theorem exec_cqHeadDoorbell_taken {q : Fin 8} {value : Word} (runs : s.unit.fwRunning = true) (right : s.doorbellErr q = 0) (inside : value.toNat % 4096 < s.cqSize q)
    (posted : (value.toNat % 4096 + s.cqSize q - (s.queue q).cqHead) % s.cqSize q ≤ (s.queue q).cqUsed) :
    exec (.cqHeadDoorbell q value) s = .next (s.setQueue q { s.queue q with
      cqHead := value.toNat % 4096, cqUsed := (s.queue q).cqUsed - (value.toNat % 4096 + s.cqSize q - (s.queue q).cqHead) % s.cqSize q }) := by
  refine congrArg Host.Outcome.next ?_
  have size : max 1 (s.cqSize q) = s.cqSize q := max_eq_right (Nat.one_le_of_lt inside)
  simp [runs, right, inside, posted, size, fld_eq]

/-! ### Entries (R389, R391 to R393, R398) -/

theorem State.reported_modLink (f : HostLink → HostLink) : s.Reported (s.modLink f) := rfl
theorem State.reported_hpDone (c : HpCmd) (status detail result : Nat) : s.Reported (s.hpDone c status detail result) :=
  (congrArg (fun u : State => { u with regs := s.regs, logs := s.logs, ports := s.ports }) (s.hpDone_link c status detail result) :)
theorem State.reported_hpFlag (b : Nat) : s.Reported (s.hpFlag b) := by
  unfold State.hpFlag
  exact .ite ((s.reported_setFlag _ _).trans (State.reported_countByte _ _ _)) (s.reported_setFlag _ _)

/-- Forgetting released ranges leaves some of those that are busy, and nothing else changes. -/
theorem State.pruneBusy_eq : ∃ busy ⊆ s.link.busy, s.pruneBusy = s.modLink fun l => { l with busy := busy } := by
  unfold State.pruneBusy
  split
  · exact ⟨s.link.busy, List.Subset.refl _, rfl⟩
  · exact ⟨_, List.filter_subset_self _, rfl⟩

theorem State.reported_pruneBusy : s.Reported s.pruneBusy := by
  obtain ⟨busy, -, pruned⟩ := s.pruneBusy_eq
  rw [pruned]
  exact s.reported_modLink _

/-- An entry is reported, and what becomes of it stands in the host link. -/
theorem State.reported_startCmd (c : HpCmd) (logged : Option Nat) : s.Reported (s.startCmd c logged) := by
  have noted (u : State) (outcome : Nat) := u.reported_logInput 0 1 outcome 0 c.key (padTo 64 c.bytes)
  refine s.reported_pruneBusy.trans ?_
  refine .ite ((noted _ _).trans (State.reported_hpDone _ _ _ _)) <| .ite ((noted _ _).trans (State.reported_hpDone _ _ _ _)) <|
    .ite ((noted _ _).trans (State.reported_hpDone _ _ _ _)) <| .ite (((noted _ _).trans (State.reported_absentAccess _ _)).trans (State.reported_hpDone _ _ _ _)) <|
    .ite (((noted _ _).trans (State.reported_hpFlag _)).trans (State.reported_hpDone _ _ _ _)) ?_
  exact (State.Reported.ite (.refl _) (noted _ _)).trans (State.reported_modLink _)

/-- What becomes of the entry `c` that the state `s` takes in, in the host link of `u`. -/
def State.Dispatches (s : State) (c : HpCmd) (u : State) : Prop :=
  let opc := byteAt c.bytes 0
  let mode := (opc = 2 ∧ s.replaying = true) ∨ (opc = 7 ∧ s.replaying = false)
  let completes (status : Nat) : Prop := (∃ d ∈ u.link.done, d.cmd = c ∧ d.status = status) ∧ u.link.fetched = s.link.fetched ∧ u.link.admin = s.link.admin
  (opcAccepted c.queue opc = false → completes 2) ∧
  (opcAccepted c.queue opc = true → mode → completes 9) ∧
  (opcAccepted c.queue opc = true → ¬ mode → s.fieldsOk c = false → completes 3) ∧
  (opcAccepted c.queue opc = true → ¬ mode → s.fieldsOk c = true → s.namesAbsent c = none →
    (∀ b ∈ s.link.busy, ∀ r ∈ c.ranges, stageMeets r.1 r.2 b.off b.len = false) → u.link.done = s.link.done ∧
    (if 3 ≤ opc ∧ opc ≤ 6 then u.link.admin = s.link.admin ++ [c] ∧ u.link.fetched = s.link.fetched
     else u.link.fetched = s.link.fetched ++ [c] ∧ u.link.admin = s.link.admin))

theorem State.hpDone_admin (c : HpCmd) (status detail result : Nat) : (s.hpDone c status detail result).link.admin = s.link.admin := by
  unfold State.hpDone
  dsimp only
  split <;> rfl

/-- A logged entry completes at once: no list of waiting commands holds it. -/
theorem State.entry_completes (c : HpCmd) (status : Nat) (owed : c.queue ≠ 256) {u : State} (ended : u = (s.logInput 0 1 0xFF 0 c.key (padTo 64 c.bytes)).hpDone c status 0 0) :
    (∃ d ∈ u.link.done, d.cmd = c ∧ d.status = status) ∧ u.link.fetched = s.link.fetched ∧ u.link.admin = s.link.admin := by
  have logged := s.logInput_signalled 0 1 0xFF 0 c.key (padTo 64 c.bytes)
  subst ended
  refine ⟨?_, (State.hpDone_fetched _ _ _ _ _).trans logged.fetched, (State.hpDone_admin _ _ _ _).trans logged.admin⟩
  rw [State.hpDone_done _ _ _ _ _ owed]
  exact ⟨_, List.mem_append_right _ (List.mem_singleton.mpr rfl), rfl, rfl⟩

/-- An entry whose ranges meet no busy one waits for nothing. -/
theorem State.stageBusy_free (c : HpCmd) (free : ∀ b ∈ s.link.busy, ∀ r ∈ c.ranges, stageMeets r.1 r.2 b.off b.len = false) : s.stageBusy c = false := by
  refine List.any_eq_false.mpr fun r range => ?_
  rw [Bool.not_eq_true]
  refine List.any_eq_false.mpr fun b busy => ?_
  simp [free b busy r range]

theorem State.startCmd_dispatches (c : HpCmd) (owed : c.queue ≠ 256) : s.Dispatches c (s.startCmd c none) := by
  obtain ⟨busy, kept, pruned⟩ := s.pruneBusy_eq
  unfold State.startCmd
  rw [pruned]
  generalize hw : s.modLink (fun l => { l with busy := busy }) = w
  have fields : w.fieldsOk c = s.fieldsOk c := by subst hw; rfl
  have absent : w.namesAbsent c = s.namesAbsent c := by subst hw; rfl
  have replays : w.replaying = s.replaying := by subst hw; rfl
  have fetched : w.link.fetched = s.link.fetched := by subst hw; rfl
  have admin : w.link.admin = s.link.admin := by subst hw; rfl
  have done : w.link.done = s.link.done := by subst hw; rfl
  have ranges : w.link.busy = busy := by subst hw; rfl
  unfold State.Dispatches
  dsimp only
  rw [← fields, ← absent, ← replays, ← fetched, ← admin, ← done]
  refine ⟨fun no => ?_, fun yes mode => ?_, fun yes mode bad => ?_, fun yes mode good fitted free => ?_⟩
  · exact w.entry_completes c 2 owed (if_pos (by rw [no]; rfl))
  · refine w.entry_completes c 9 owed ((if_neg (by rw [yes]; decide)).trans (if_pos ?_))
    simpa using mode
  · refine w.entry_completes c 3 owed ((if_neg (by rw [yes]; decide)).trans ((if_neg ?_).trans (if_pos (by rw [bad]; rfl))))
    simpa using mode
  · have unbusy : w.stageBusy c = false := w.stageBusy_free c fun b mem => free b (kept (ranges ▸ mem))
    have other : ¬ ((byteAt c.bytes 0 = 2 ∧ w.replaying = true ∧ (none : Option Nat).isNone = true) ∨ (byteAt c.bytes 0 = 7 ∧ (!w.replaying) = true)) := by simpa using mode
    rw [if_neg (by rw [yes]; decide), if_neg other, if_neg (by rw [good]; decide), if_neg (by rw [fitted]; decide), if_neg (by rw [unbusy]; decide)]
    have logged : w.link.Signalled (if byteAt c.bytes 0 = 2 then w else w.logInput 0 1 0xFF 0 c.key (padTo 64 c.bytes)).link := by
      split
      · exact .refl _
      · exact w.logInput_signalled _ _ _ _ _ _
    refine ⟨logged.done, ?_⟩
    simp only [State.modLink, logged.fetched, logged.admin]
    split <;> exact ⟨rfl, rfl⟩

/-- An entry taken into the host link that `f` leaves of the one at its time. -/
theorem State.startCmd_begins (f : HostLink → HostLink) (c : HpCmd) (owed : c.queue ≠ 256)
    (same : ∀ l, (f l).fetched = l.fetched ∧ (f l).admin = l.admin ∧ (f l).done = l.done ∧ (f l).busy = l.busy) :
    let u := ((s.at t).modLink f).startCmd c none
    u.kept = s.kept ∧ u.resv = s.resv ∧ u.jobs = s.jobs ∧ u.net = s.net ∧ (s.at t).Dispatches c u := by
  intro u
  have told : (s.at t).Reported u := (State.reported_modLink f).trans (State.reported_startCmd c none)
  refine ⟨?_, told.resv.trans (s.at_resv t), told.jobs.trans (s.at_jobs t), (congrArg State.net told :).trans (s.at_net t), ?_⟩
  · rw [State.startCmd_kept, State.modLink_kept, State.at_kept]
  · have became := State.startCmd_dispatches (s := (s.at t).modLink f) c owed
    obtain ⟨fetched, admin, done, busy⟩ := same (s.at t).link
    unfold State.Dispatches at became ⊢
    rw [State.modLink] at became
    dsimp only at became ⊢
    rw [fetched, admin, done, busy] at became
    exact became

/-- HP1 takes in the entry in its registers. -/
theorem exec_hp1Doorbell_taken {value : Word} (rings : value.getLsbD 0 = true) (runs : s.unit.fwRunning = true) (enabled : (s.reg 0x3000).getLsbD 0 = true)
    (idle : s.link.hp1Busy = none) (c : HpCmd)
    (entry : c = { queue := 255, stamp := hostStamp (groupTime (s.at t).time.now s.link.lastTime0) 0, job := 0, bytes := (List.range 16).flatMap fun k => leBytes 4 (s.reg (0x3100 + 4 * k)).toNat }) :
    exec (.hp1Doorbell value t) s = .next (((s.at t).modLink fun l => { l with lastTime0 := some (groupTime (s.at t).time.now s.link.lastTime0), hp1Busy := some c }).startCmd c none) := by
  subst entry
  refine congrArg Host.Outcome.next ((if_neg ?_).trans ((if_neg ?_).trans ?_))
  · rw [bit, rings]; decide
  · rw [State.at_unit, State.at_reg, State.at_link, bit, runs, enabled, idle]; decide
  · simp only [State.at_link, State.at_reg]

theorem exec_hp1Doorbell_rejected {value : Word} (rings : value.getLsbD 0 = true) (shut : s.unit.fwRunning = false ∨ (s.reg 0x3000).getLsbD 0 = false ∨ s.link.hp1Busy ≠ none) :
    exec (.hp1Doorbell value t) s = .next ((s.at t).setFlag 0x3164 2) := by
  refine congrArg Host.Outcome.next ((if_neg ?_).trans (if_pos ?_))
  · rw [bit, rings]; decide
  · rw [State.at_unit, State.at_reg, State.at_link, bit]
    refine shut.imp (fun off => by rw [off]; rfl) (Or.imp (fun off => by rw [off]; rfl) Option.isSome_iff_ne_none.mpr)

/-- A fetched entry of HP2 is taken in under its stamp. -/
theorem exec_sqEntryFetch_taken {q : Fin 8} {bs : List Byte} {st : Stamp} {job i : Nat} {rest : List (Stamp × Nat × Nat)} (reads : s.dmaOk = true)
    (runs : (s.queue q).stopped = false) (next : (s.queue q).unfetched = (st, job, i) :: rest) :
    exec (.sqEntryFetch q (some bs) t) s = .next (((s.at t).setQueue q { s.queue q with unfetched := rest, sqHead := (i + 1) % max 1 (s.sqSize q) }).startCmd
      { queue := q, stamp := st, job := job, bytes := padTo 64 bs } none) := by
  refine congrArg Host.Outcome.next ?_
  simp [reads, runs, next]

/-- A failed read stops the queue, and its stamped entries are dropped. -/
theorem exec_sqEntryFetch_fails {q : Fin 8} (reads : s.dmaOk = true) (runs : (s.queue q).stopped = false) (stamped : (s.queue q).unfetched ≠ []) :
    exec (.sqEntryFetch q none t) s = .next (((((s.at t).setQueue q { s.queue q with
      unfetched := [], stopped := true, open_ := (s.queue q).open_ - (s.queue q).unfetched.length }).queueErr q 3).hpFlag 2).hpDrop (s.queue q).unfetched.length) := by
  refine congrArg Host.Outcome.next ?_
  simp [reads, runs]

theorem hostLinkResults : Sys2Proof.Claims.HostLinkResults := by
  intro s t
  refine ⟨fun flr => ?reset, fun d3 => congrArg Host.Outcome.next (s.at_modLink t _), fun value idle off => ?stage, fun value used => ?refused⟩
  case reset =>
    obtain ⟨n, words⟩ := s.linkReset_reg
    refine ⟨s.linkReset, rfl, rfl, rfl, rfl, rfl, rfl, rfl, rfl, rfl, s.linkReset_writes, fun q => State.linkReset_queue q, fun k small => ?_, ?_, s.linkReset_counts,
      fun x out => ?_, s.linkReset_only⟩
    · rw [words, if_neg (by omega), if_pos (by omega)]
    · rw [words, if_pos rfl, getLsbD_or_oneBit _ _ (by decide)]
    · rw [words, if_neg (by omega), if_neg (by omega), if_neg (by omega)]
  case stage =>
    have free : ¬ (s.link.hp1Busy.isSome = true ∨ s.link.queue.toList.any (fun q => q.enabled) = true) := by
      rw [idle, State.any_enabled]
      rintro (no | ⟨q, on⟩)
      · cases no
      · rw [off q] at on
        cases on
    rw [show value.toNat % 8192 = fld value 12 0 by simp [fld_eq]]
    exact congrArg Host.Outcome.next (if_neg free)
  case refused =>
    refine congrArg Host.Outcome.next (if_pos ?_)
    rw [Option.isSome_iff_ne_none]
    exact used.imp_right State.any_enabled.mpr

theorem hostEntriesDispatched : Sys2Proof.Claims.HostEntriesDispatched := by
  intro s t v begins
  refine ⟨fun value rings runs enabled idle => ?hp1, fun value rings shut => exec_hp1Doorbell_rejected rings shut, fun q bs st job i rest reads runs next => ?hp2,
    fun q reads runs stamped => ?fails⟩
  case hp1 =>
    refine ⟨_, exec_hp1Doorbell_taken rings runs enabled idle _ rfl, ?_⟩
    rw [← s.at_link t]
    exact State.startCmd_begins _ _ (by simp) fun l => ⟨rfl, rfl, rfl, rfl⟩
  case hp2 =>
    refine ⟨_, exec_sqEntryFetch_taken reads runs next, ?_⟩
    rw [← s.at_link t]
    exact State.startCmd_begins _ _ (by simp; omega) fun l => ⟨rfl, rfl, rfl, rfl⟩
  case fails =>
    refine ⟨_, exec_sqEntryFetch_fails reads runs stamped, ?_⟩
    simp only [State.hpDrop_queue, State.hpFlag_queue, State.queueErr, State.queue_setQueue_same, true_and]
    refine ⟨fun p other => ?_, ?_⟩
    · rw [State.queue_setQueue_ne _ _ _ other, State.queue_setQueue_ne _ _ _ other, State.at_queue]
    · rw [State.hpDrop_kept, State.hpFlag_kept, State.hpFlag_kept, State.setQueue_kept, State.setQueue_kept, State.at_kept]

theorem queueResults : Sys2Proof.Claims.QueueResults := by
  intro s q t x only
  refine ⟨fun off => ?enables, fun on => congrArg Host.Outcome.next (if_pos on), ⟨_, rfl, State.onlyQueue_setQueue q _⟩, ⟨s.groupSize_le q, fun some_ on runs => ?stamps, fun idle => ?idle⟩,
    fun value => ⟨exec_sqTailDoorbell_taken, exec_sqTailDoorbell_beyond, fun runs wrong => ⟨exec_sqTailDoorbell_wrong runs wrong, exec_cqHeadDoorbell_wrong runs wrong⟩,
      fun runs right inside posted => ⟨_, exec_cqHeadDoorbell_taken runs right inside posted, State.onlyQueue_setQueue q _⟩, fun off => ⟨?head, ?tail⟩⟩⟩
  case enables => exact ⟨_, congrArg Host.Outcome.next (if_neg (Bool.eq_false_iff.mp off)), State.onlyQueue_setQueue q _⟩
  case stamps =>
    obtain ⟨new, time, length, group, changed⟩ := State.stampGroup_stamps (s := s.at t) (by rwa [State.at_groupSize]) (by rwa [State.at_queue]) (by rwa [State.at_queue])
    rw [State.at_groupSize] at length group changed
    rw [State.at_queue] at changed
    refine ⟨_, rfl, _, new, time, le_groupTime _ _, fun l last => ?_, changed.of_at, length, group⟩
    rw [State.at_link, last]
    exact lt_groupTime _ _
  case idle =>
    refine congrArg Host.Outcome.next (State.stampGroup_idle ?_)
    rwa [State.at_groupSize, State.at_queue]
  case head => exact congrArg Host.Outcome.next (if_pos (by rw [off]; rfl))
  case tail => exact congrArg Host.Outcome.next (if_pos (by rw [State.at_unit, off]; rfl))

/-- Settles O27: the reset and the settings of the link, what becomes of an entry, and the doorbells of a queue. -/
theorem hostLinkAndQueueResults : Obligations.HostLinkAndQueueResults := ⟨hostLinkResults, hostEntriesDispatched, queueResults⟩

end Sys2Proof.Machine
end

section
/-! SUPPORT. The commands of the host and their completions (15 R387 to R399): obligation O28. -/

namespace Sys2Proof.Machine

variable {s : State} {t : Time} {c : HpCmd}

@[simp] theorem State.at_nextCmd (opc : Nat) : (s.at t).nextCmd opc = s.nextCmd opc := by rw [State.nextCmd, State.at_link]; rfl
@[simp] theorem State.at_postable (d : HpDone) : (s.at t).postable d = s.postable d := by
  rw [State.postable, State.at_dmaOk, State.at_queue, State.at_cqSize]; rfl
@[simp] theorem State.at_hostResult (id : JobId) : (s.at t).hostResult id = s.hostResult id := by rw [State.hostResult, State.at_job]; rfl

/-! ### Commands at their turn (R389, R398, R399) -/

theorem exec_hpNop_next (next : s.nextCmd 0 = some c) : exec (.hpNop t) s = .next (((s.at t).takeCmd c).hpDone c 0 0 0) := by
  refine congrArg Host.Outcome.next ?_
  simp only [State.at_nextCmd, next]

theorem exec_stageIn_next (next : s.nextCmd 1 = some c) : exec (.stageIn t) s =
    .next { s.at t with link := { s.link with fetched := s.link.fetched.erase c, staging := s.link.staging ++ [c] } } := by
  refine congrArg Host.Outcome.next ?_
  simp only [State.at_nextCmd, next, State.takeCmd, State.at_modLink]
  rfl

theorem exec_submitJob_next (next : s.nextCmd 2 = some c) : exec (.submitJob t) s =
    .next { s.at t with link := { s.link with fetched := s.link.fetched.erase c }, submits := s.submits ++ [c] } := by
  refine congrArg Host.Outcome.next ?_
  simp only [State.at_nextCmd, next, State.takeCmd, State.at_modLink, State.at_submits]

theorem exec_adminCommandNext_next (idle : s.link.adminNow = none) (next : (sortBy (fun c : HpCmd => c.key.toNat) s.link.admin).head? = some c) :
    exec .adminCommandNext s = .next { s with link := { s.link with adminNow := some c, admin := s.link.admin.erase c } } := by
  refine congrArg Host.Outcome.next ((if_neg (by rw [idle]; decide)).trans ?_)
  simp only [next]
  rfl

/-! ### The staging area (R387, R391, R396) -/

/-- A write into the reservoir has no part in station time and the host link. -/
theorem State.resvWrite_host (m : TimeUnit) (l : HostLink) (base : Nat) (bs : List Byte) (bad : Nat → Bool) (void : Nat) :
    ({ s with time := m, link := l } : State).resvWrite base bs bad void = { s.resvWrite base bs bad void with time := m, link := l } := by
  have dead (r : Reservoir) (a : Nat) : ({ s with time := m, link := l, resv := r } : State).stackDead a = ({ s with resv := r } : State).stackDead a := rfl
  have here := dead s.resv base
  unfold State.resvWrite
  dsimp only at here ⊢
  rw [here]
  split
  · rw [dead s.resv]
    split <;> rfl
  · rw [dead]
    split <;> rfl

/-- It touches the reservoir alone. -/
theorem State.resvWrite_only (base : Nat) (bs : List Byte) (bad : Nat → Bool) (void : Nat) : { s.resvWrite base bs bad void with resv := s.resv } = s := by
  unfold State.resvWrite
  dsimp only
  split_ifs <;> rfl

/-- The state once the oldest read has left the list of reads. -/
def State.readEnds (s : State) (t : Time) (rest : List HpCmd) : State := (s.at t).modLink fun l => { l with staging := rest }

/-- The bytes of a read in the staging area. -/
def State.readLands (s : State) (t : Time) (c : HpCmd) (rest : List HpCmd) (bs : List Byte) : State :=
  (s.readEnds t rest).resvWrite (s.stageBase + leAt c.bytes 0x10 8) (padTo (leAt c.bytes 0x18 4) bs) clean 0

theorem State.readEnds_eq (rest : List HpCmd) : s.readEnds t rest = { s with time := s.time.seenAt t, link := { s.link with staging := rest } } := by
  rw [State.readEnds, State.at_modLink, State.at_eq]

/-- The bytes are those that a write at the moment of the event would leave, and nothing else changes. -/
theorem State.readLands_eq (rest : List HpCmd) (bs : List Byte) : s.readLands t c rest bs =
    { s.readEnds t rest with resv := (s.resvWrite (s.stageBase + leAt c.bytes 0x10 8) (padTo (leAt c.bytes 0x18 4) bs) clean 0).resv } := by
  rw [State.readLands, State.readEnds_eq, State.resvWrite_host]
  generalize landed : s.resvWrite _ _ _ _ = w
  have only : { w with resv := s.resv } = s := landed ▸ State.resvWrite_only _ _ _ _
  exact (congrArg (fun x : State => { x with time := s.time.seenAt t, link := { s.link with staging := rest }, resv := w.resv }) only :)

theorem exec_stageInComplete_lands {rest : List HpCmd} (reads : s.dmaOk = true) (next : s.link.staging = c :: rest) (bs : List Byte) :
    exec (.stageInComplete (some bs) t) s = .next ((s.readLands t c rest bs).hpDone c 0 0 0) := by
  have base : (s.readEnds t rest).stageBase = s.stageBase := by rw [State.readEnds_eq]; rfl
  refine congrArg Host.Outcome.next ?_
  simp only [State.at_dmaOk, State.at_link, reads, next, State.readLands, ← base]
  rfl

theorem exec_stageInComplete_fails {rest : List HpCmd} (reads : s.dmaOk = true) (next : s.link.staging = c :: rest) :
    exec (.stageInComplete none t) s = .next (((s.readEnds t rest).hpFlag 2).hpDone c 8 0 0) := by
  refine congrArg Host.Outcome.next ?_
  simp only [State.at_dmaOk, State.at_link, reads, next]
  rfl

/-! ### Output copies (R387, R391, R399) -/

/-- The state once the copies of a job have left the list of copies. -/
def State.copyEnds (s : State) (t : Time) (c : HpCmd) : State := (s.at t).modLink fun l => { l with copies := l.copies.filter fun x => !copyOf c.id x }

theorem State.copyEnds_eq : s.copyEnds t c = { s with time := s.time.seenAt t, link := { s.link with copies := s.link.copies.filter fun x => !copyOf c.id x } } := by
  rw [State.copyEnds, State.at_modLink, State.at_eq]

theorem exec_outputCopyComplete_done {a n : Nat} (reads : s.dmaOk = true) (next : s.link.copies.find? (fun c => decide (c.2.2.2 = 1)) = some (c, a, n, 1)) :
    exec (.outputCopyComplete true t) s = .next (((s.copyEnds t c).hostWrite (leAt c.bytes 0x28 8) (s.resv.mem.bytes a n)).hpDone c (s.hostResult c.id).1 (s.hostResult c.id).2 n) := by
  have result : (s.copyEnds t c).hostResult c.id = s.hostResult c.id := State.at_hostResult c.id
  have mem : (s.copyEnds t c).resv = s.resv := s.at_resv t
  refine congrArg Host.Outcome.next ?_
  simp only [State.at_dmaOk, State.at_link, reads, next, ← result, ← mem]
  rfl

theorem exec_outputCopyComplete_fails {a n : Nat} (reads : s.dmaOk = true) (next : s.link.copies.find? (fun c => decide (c.2.2.2 = 1)) = some (c, a, n, 1)) :
    exec (.outputCopyComplete false t) s = .next (((s.copyEnds t c).hpFlag 2).hpDone c 8 (s.hostResult c.id).2 0) := by
  have result : (s.copyEnds t c).hostResult c.id = s.hostResult c.id := State.at_hostResult c.id
  refine congrArg Host.Outcome.next ?_
  simp only [State.at_dmaOk, State.at_link, reads, next, ← result]
  rfl

/-! ### What a completion leaves -/

theorem State.hpDone_staging (status detail result : Nat) : (s.hpDone c status detail result).link.staging = s.link.staging := by
  unfold State.hpDone
  dsimp only
  split <;> rfl

theorem State.hpDone_writes (status detail result : Nat) : (s.hpDone c status detail result).link.writes = s.link.writes := by
  unfold State.hpDone
  dsimp only
  split <;> rfl

/-- With the host link put back, a completion leaves nothing. -/
theorem State.hpDone_with_link (status detail result : Nat) (l : HostLink) : { s.hpDone c status detail result with link := l } = { s with link := l } :=
  (congrArg (fun u : State => { u with link := l }) (s.hpDone_link c status detail result) :)

theorem State.hpFlag_link (b : Nat) : (s.hpFlag b).link = s.link := by
  unfold State.hpFlag
  dsimp only
  split <;> rfl

theorem State.hpFlag_with_regs (b : Nat) (r : SMap Word) : { s.hpFlag b with regs := r } = { s with regs := r } := by
  unfold State.hpFlag
  dsimp only
  split <;> rfl

/-- With the host link and the registers put back, a flag and a completion leave nothing. -/
theorem State.hpFlag_hpDone_only (b status detail result : Nat) (l : HostLink) (r : SMap Word) :
    { (s.hpFlag b).hpDone c status detail result with link := l, regs := r } = { s with link := l, regs := r } :=
  (congrArg (fun u : State => { u with regs := r }) ((s.hpFlag b).hpDone_with_link status detail result l) :).trans
    (congrArg (fun u : State => { u with link := l }) (s.hpFlag_with_regs b r) :)

theorem State.hpDone_regs (status detail result : Nat) : (s.hpDone c status detail result).regs = s.regs := (congrArg State.regs (s.hpDone_link c status detail result) :)

/-- With the host link put back, what the host link has undergone leaves nothing but the event's time. -/
theorem State.at_with_link : { s.at t with link := s.link } = s.at t := by
  rw [← s.at_link t]

/-! ### Posting (R390, R393, R396) -/

theorem State.signalled_ite (b : Prop) [Decidable b] (v : Nat) : s.link.Signalled (if b then s.signal v else s).link := by
  split
  · exact State.signal_signalled _
  · exact .refl _

/-- A completion of HP1 ends its command; a vector may be signalled. -/
theorem State.postHp1_signalled (d : HpDone) : (s.modLink fun l => { l with hp1Busy := none }).link.Signalled (s.postHp1 d).link := by
  unfold State.postHp1
  extract_lets e written ended w
  have link : ended.link = (s.modLink fun l => { l with hp1Busy := none }).link :=
    (congrArg (fun l : HostLink => { l with hp1Busy := none }) (State.foldl_preserves State.link _ (by intros; rfl) _ _ : written.link = s.link) :)
  rw [← link]
  exact State.signalled_ite _ _

/-- Its entry stands in the response registers, with its flag. -/
theorem State.postHp1_reg (d : HpDone) (x : Nat) : (s.postHp1 d).reg x =
    if x = 0x3164 then s.reg 0x3164 ||| oneBit 1
    else if x % 4 = 0 ∧ 0x3140 ≤ x ∧ x < 0x3160 then BitVec.ofNat 32 (leAt (d.entry false 0) (4 * ((x - 0x3140) / 4)) 4) else s.reg x := by
  unfold State.postHp1
  extract_lets e written ended w
  have words (x : Nat) : written.reg x = if x % 4 = 0x3140 % 4 ∧ 0x3140 ≤ x ∧ x < 0x3140 + 4 * 8 then BitVec.ofNat 32 (leAt e (4 * ((x - 0x3140) / 4)) 4) else s.reg x :=
    State.reg_setWords 0x3140 (fun k => BitVec.ofNat 32 (leAt e (4 * k) 4)) 8 x
  clear_value written
  have flag : ended.reg x = if x = 0x3164 then written.reg 0x3164 ||| oneBit 1 else written.reg x := State.reg_setReg _ _ _ _
  have told : (if bit w 16 then ended.signal (fld w 10 0) else ended).regs = ended.regs := by
    split
    · exact (State.signal_recorded _ _).regs
    · rfl
  rw [State.reg, told]
  refine flag.trans ?_
  rw [words, words]
  rfl

/-- A completion of an HP2 queue is written at its tail, and takes a slot; a vector may be signalled. -/
theorem State.postHp2_signalled (d : HpDone) :
    let x := s.queue d.cmd.queue
    let tail := (x.cqTail + 1) % max 1 (s.cqSize d.cmd.queue)
    ((s.hostWrite (s.cqBase d.cmd.queue + 32 * x.cqTail) (d.entry x.phase x.sqHead)).setQueue d.cmd.queue { x with
      cqTail := tail, phase := if tail = 0 then !x.phase else x.phase, cqUsed := x.cqUsed + 1, open_ := x.open_ - 1
      active := x.enabled || decide (1 < x.open_) }).link.Signalled (s.postHp2 d).link := by
  exact State.signalled_ite _ _

theorem State.queue_of_link {u : State} (same : u.link.queue = s.link.queue) (q : Nat) : u.queue q = s.queue q := congrArg (fun v : Vector HpQueue 8 => v.toList.getD q {}) same

theorem State.postHp2_done (d : HpDone) : (s.postHp2 d).link.done = s.link.done := (s.postHp2_signalled d).done

/-- The entry stands at the tail, which moves on by one slot. -/
theorem State.postHp2_posts {d : HpDone} {q : Fin 8} (here : d.cmd.queue = q) (room : 1 ≤ s.cqSize q) :
    (s.postHp2 d).link.writes = s.link.writes ++ [(s.cqBase q + 32 * (s.queue q).cqTail, d.entry (s.queue q).phase (s.queue q).sqHead)] ∧
    ((s.postHp2 d).queue q).cqUsed = (s.queue q).cqUsed + 1 ∧ ((s.postHp2 d).queue q).cqTail = ((s.queue q).cqTail + 1) % s.cqSize q := by
  have told := s.postHp2_signalled d
  rw [here] at told
  refine ⟨told.writes, ?_⟩
  rw [State.queue_of_link told.queue, State.queue_setQueue_same, max_eq_right room]
  exact ⟨rfl, rfl⟩

/-- The state without the completion that is posted. -/
def State.unposted (s : State) (t : Time) (d : HpDone) : State := (s.at t).modLink fun l => { l with done := l.done.erase d }

theorem exec_completionPost_next {d : HpDone} (next : s.link.done.find? (fun d => s.postable d) = some d) :
    exec (.completionPost t) s = .next (if d.cmd.queue = 255 then (s.unposted t d).postHp1 d else (s.unposted t d).postHp2 d) := by
  refine congrArg Host.Outcome.next ?_
  simp only [State.at_link, State.at_postable, next]
  rfl

theorem exec_completionPost_none (none_ : ∀ d ∈ s.link.done, s.postable d = false) : exec (.completionPost t) s = .next (s.at t) := by
  have next : s.link.done.find? (fun d => s.postable d) = none := List.find?_eq_none.mpr fun d mem => by rw [none_ d mem]; decide
  refine congrArg Host.Outcome.next ?_
  simp only [State.at_link, State.at_postable, next]

theorem State.unposted_done (d : HpDone) : (s.unposted t d).link.done = s.link.done.erase d := congrArg (fun l : HostLink => l.done.erase d) (s.at_link t)
theorem State.unposted_writes (d : HpDone) : (s.unposted t d).link.writes = s.link.writes := (congrArg HostLink.writes (s.at_link t) :)
theorem State.unposted_queue (d : HpDone) (q : Nat) : (s.unposted t d).queue q = s.queue q := s.at_queue t q
theorem State.unposted_cqSize (d : HpDone) (q : Nat) : (s.unposted t d).cqSize q = s.cqSize q := s.at_cqSize t q
theorem State.unposted_cqBase (d : HpDone) (q : Nat) : (s.unposted t d).cqBase q = s.cqBase q := by
  show (s.at t).cqBase q = s.cqBase q
  rw [State.cqBase, State.at_reg, State.at_reg, State.cqBase]

/-- Settles O28: command by command, by what its turn leaves of the state at the event's time. -/
theorem hostCommandResults : Obligations.HostCommandResults := by
  intro s t c v link
  refine ⟨fun next owed => ?nop, exec_stageIn_next, exec_submitJob_next, fun none_ => ?noNop, fun none_ => ?noStage, fun none_ => ?noSubmit, fun rest reads next owed => ⟨fun bs => ?lands, ?fails⟩,
    exec_adminCommandNext_next, fun busy => congrArg Host.Outcome.next (if_pos (Option.isSome_iff_ne_none.mpr busy)), fun a n reads next owed => ⟨?copied, ?uncopied⟩,
    fun d next => ?posts, exec_completionPost_none⟩
  case nop =>
    refine ⟨_, exec_hpNop_next next, ?_, ?_, ?_⟩
    · rw [State.hpDone_fetched, State.takeCmd, State.at_modLink]
    · rw [State.hpDone_done _ _ _ _ _ owed, State.takeCmd, State.at_modLink]
    · rw [State.hpDone_with_link]
      exact State.at_with_link
  case noNop | noStage | noSubmit =>
    refine congrArg Host.Outcome.next ?_
    simp only [State.at_nextCmd, none_]
    rfl
  case lands =>
    refine ⟨_, exec_stageInComplete_lands reads next bs, ?_, ?_, ?_, ?_, ?_⟩
    · rw [State.hpDone_staging, State.readLands_eq]; rfl
    · rw [State.hpDone_done _ _ _ _ _ owed, State.readLands_eq, State.readEnds_eq]
    · rw [State.hpDone_regs, State.readLands_eq, State.readEnds_eq]
    · rw [State.hpDone_resv, State.readLands_eq]
    · refine (congrArg (fun u : State => { u with resv := s.resv }) (State.hpDone_with_link 0 0 0 s.link) :).trans ?_
      rw [State.readLands_eq, State.readEnds_eq]
      exact (s.at_eq t).symm
  case fails =>
    refine ⟨_, exec_stageInComplete_fails reads next, ?_, ?_, ?_, ?_⟩
    · rw [State.hpDone_staging, State.hpFlag_link]; rfl
    · rw [State.hpDone_done _ _ _ _ _ owed, State.hpFlag_link, State.readEnds_eq]
    · rw [State.hpDone_resv, State.hpFlag_resv, State.readEnds_eq]
    · rw [State.hpFlag_hpDone_only, State.readEnds_eq]
      exact (s.at_eq t).symm
  case copied =>
    refine ⟨_, exec_outputCopyComplete_done reads next, ?_, ?_, ?_⟩
    · rw [State.hpDone_writes, State.copyEnds_eq]; rfl
    · rw [State.hpDone_done _ _ _ _ _ owed, State.copyEnds_eq]; rfl
    · rw [State.hpDone_with_link, State.copyEnds_eq]
      exact (s.at_eq t).symm
  case uncopied =>
    refine ⟨_, exec_outputCopyComplete_fails reads next, ?_, ?_, ?_⟩
    · rw [State.hpDone_writes, State.hpFlag_link, State.copyEnds_eq]
    · rw [State.hpDone_done _ _ _ _ _ owed, State.hpFlag_link, State.copyEnds_eq]
    · rw [State.hpFlag_hpDone_only, State.copyEnds_eq]
      exact (s.at_eq t).symm
  case posts =>
    have kept (u : State) (ran : exec (.completionPost t) s = .next u) : u.kept = s.kept := (execCompletionPost_keeps t s).next ran
    have ran := exec_completionPost_next (t := t) next
    by_cases hp1 : d.cmd.queue = 255
    · rw [if_pos hp1] at ran
      have told := (s.unposted t d).postHp1_signalled d
      refine ⟨_, ran, told.done.trans (s.unposted_done d), kept _ ran, fun _ => ⟨told.hp1Busy, ?_, told.writes.trans (s.unposted_writes d), fun k small => ?_⟩, fun hp2 => by omega⟩
      · rw [State.postHp1_reg, if_pos rfl, getLsbD_or_oneBit _ _ (by decide)]
      · rw [State.postHp1_reg, if_neg (by omega), if_pos (by omega), Nat.add_sub_cancel_left, Nat.mul_div_cancel_left _ (by decide)]
    · rw [if_neg hp1] at ran
      refine ⟨_, ran, (State.postHp2_done d).trans (s.unposted_done d), kept _ ran, fun yes => absurd yes hp1, fun hp2 => ?_⟩
      have room : 1 ≤ s.cqSize d.cmd.queue := by
        have postable : s.postable d = true := List.find?_some next
        simp only [State.postable, hp1, decide_false, Bool.false_or, Bool.and_eq_true, decide_eq_true_eq] at postable
        exact Nat.one_le_of_lt postable.2
      obtain ⟨q, here⟩ : ∃ q : Fin 8, d.cmd.queue = q := ⟨⟨d.cmd.queue, hp2⟩, rfl⟩
      rw [here] at room ⊢
      rw [← s.unposted_writes (t := t) d, ← s.unposted_queue (t := t) d, ← s.unposted_cqSize (t := t) d, ← s.unposted_cqBase (t := t) d]
      exact State.postHp2_posts here (room.trans_eq (s.unposted_cqSize d q).symm)

end Sys2Proof.Machine
end

section
/-! SUPPORT. A step takes the command at the front of the queue (log 2): obligation O55. -/

namespace Sys2Proof.Machine

/-- Settles O55: by the form of the queue, which is all that the step reads. -/
theorem stepTakesTheFront : Obligations.StepTakesTheFront := by
  refine ⟨fun s c => rfl, fun s c rest front => ?_, fun s empty => ?_⟩
  · rw [step, front]
  · rw [step, empty]

end Sys2Proof.Machine
end

section
/-! SUPPORT. Firmware start, recovery and the commit of the rollback count (22 R595 to R598): obligation O19. -/

namespace Sys2Proof.Machine

/-- `u` is `s` but for the two flags of copies that are not valid, bits 9 and 10 of the boot status (R597). -/
structure State.CopyFlagged (s u : State) : Prop where
  rest : { u with regs := s.regs } = s
  others : ∀ x, x ≠ 0x9010 → u.reg x = s.reg x
  flags : u.reg 0x9010 &&& ~~~0x600 = s.reg 0x9010 &&& ~~~0x600

theorem State.CopyFlagged.refl (s : State) : s.CopyFlagged s := ⟨rfl, fun _ _ => rfl, rfl⟩

theorem State.CopyFlagged.unit {s u : State} (h : s.CopyFlagged u) : u.unit = s.unit := (congrArg State.unit h.rest : _)

/-- One more of the two flags. -/
theorem State.CopyFlagged.setFlag {s u : State} (h : s.CopyFlagged u) (b : Nat) (copy : oneBit b &&& ~~~0x600 = 0#32) : s.CopyFlagged (u.setFlag 0x9010 b) where
  rest := h.rest
  others x other := (u.reg_setReg_ne _ _ _ other).trans (h.others x other)
  flags := by rw [State.setFlag, State.reg_setReg_same, BitVec.and_or_distrib_right, copy, BitVec.or_zero, h.flags]

/-- The state with a flag for each copy that FIRMWARE_START has read and found not valid (R597). -/
def State.copiesRead (s : State) (readB : Bool) : State :=
  let s' := if s.fwValid s.unit.flashA then s else s.setFlag 0x9010 9
  if readB && !(readB && s.fwValid s.unit.flashB) then s'.setFlag 0x9010 10 else s'

theorem State.copiesRead_flagged (s : State) (readB : Bool) : s.CopyFlagged (s.copiesRead readB) := by
  have first : s.CopyFlagged (if s.fwValid s.unit.flashA then s else s.setFlag 0x9010 9) := by
    split
    · exact .refl s
    · exact (State.CopyFlagged.refl s).setFlag 9 (by decide)
  rw [State.copiesRead]
  split
  · exact first.setFlag 10 (by decide)
  · exact first

/-- Copy B is read when copy A is not valid or older (R597). -/
def State.readsB (s : State) : Bool := !s.fwValid s.unit.flashA || decide (fwVersionOf s.unit.flashA < fwVersionOf s.unit.flashB)

/-- What FIRMWARE_START leaves of the reset unit (R597, R598). -/
def State.bootUnit (s : State) : ResetUnit :=
  if s.readsB && s.fwValid s.unit.flashB && s.readsB then { s.unit with fwCopy := 1, fwRunning := true, bootFailed := false, fwVersion := fwVersionOf s.unit.flashB }
  else if s.fwValid s.unit.flashA then { s.unit with fwCopy := 0, fwRunning := true, bootFailed := false, fwVersion := fwVersionOf s.unit.flashA }
  else { s.unit with bootFailed := true }

theorem State.startFw_of_unit {s v : State} (same : v.unit = s.unit) (copy : Nat) (bs : List Byte) :
    v.startFw copy bs = { v with unit := { s.unit with fwCopy := copy, fwRunning := true, bootFailed := false, fwVersion := fwVersionOf bs } } := by
  rw [← same]; rfl

theorem State.bootFails_of_unit {s v : State} (same : v.unit = s.unit) :
    v.modUnit (fun u => { u with bootFailed := true }) = { v with unit := { s.unit with bootFailed := true } } := by
  rw [← same]; rfl

theorem execFirmwareStart_boots (s : State) (up : s.unit.phase = .running) (halted : s.unit.fwRunning = false) (fresh : s.unit.bootFailed = false) :
    exec .firmwareStart s = .next { s.copiesRead s.readsB with unit := s.bootUnit } := by
  have same : (s.copiesRead s.readsB).unit = s.unit := (s.copiesRead_flagged s.readsB).unit
  have ready : ¬ (s.unit.phase ≠ .running ∨ s.unit.fwRunning = true ∨ s.unit.bootFailed = true) := by simp [up, halted, fresh]
  refine (congrArg Host.Outcome.next (if_neg ready)).trans (congrArg Host.Outcome.next ?_)
  by_cases startB : (s.readsB && s.fwValid s.unit.flashB && s.readsB) = true
  · rw [State.bootUnit, if_pos startB]
    exact (if_pos startB).trans (State.startFw_of_unit same 1 _)
  · rw [State.bootUnit, if_neg startB]
    refine (if_neg startB).trans ?_
    by_cases startA : s.fwValid s.unit.flashA = true
    · exact (if_pos startA).trans ((State.startFw_of_unit same 0 _).trans (by rw [if_pos startA]))
    · exact (if_neg startA).trans ((State.bootFails_of_unit same).trans (by rw [if_neg startA]))

/-- Settles O19: FIRMWARE_START flags the copies it finds not valid and leaves the unit of `bootUnit`; the other two commands change the unit alone. -/
theorem firmwareResults : Obligations.FirmwareResults := by
  intro s
  refine ⟨fun up halted fresh => ?start, fun h => congrArg Host.Outcome.next (if_pos h), fun failed valid => congrArg Host.Outcome.next (if_pos ⟨failed, valid⟩),
    fun h => congrArg Host.Outcome.next (if_neg ?stays), ?commit⟩
  case start =>
    have boots := execFirmwareStart_boots s up halted fresh
    obtain ⟨rest, others, flags⟩ := s.copiesRead_flagged s.readsB
    refine ⟨fun a newer => ⟨_, boots, ?_⟩, fun b newer => ⟨_, boots, ?_⟩, fun a b => ⟨_, boots, ?_⟩, ⟨_, boots, ?_, others, flags⟩⟩
    · have skipped : (s.readsB && s.fwValid s.unit.flashB) = false := by
        cases b : s.fwValid s.unit.flashB with
        | false => exact Bool.and_false _
        | true => simp [State.readsB, a, newer b]
      simp [State.bootUnit, skipped, a]
    · have read : s.readsB = true := by
        cases a : s.fwValid s.unit.flashA with
        | false => simp [State.readsB, a]
        | true => simp [State.readsB, newer a]
      simp [State.bootUnit, read, b]
    · simp [State.bootUnit, a, b]
    · exact congrArg (fun u : State => { u with unit := s.unit }) rest
  case stays =>
    rintro ⟨failed, valid⟩
    obtain booted | bad := h
    · exact Bool.false_ne_true (booted.symm.trans failed)
    · exact Bool.false_ne_true (bad.symm.trans valid)
  case commit =>
    cases running : s.unit.fwRunning with
    | false =>
      have idle : exec .rollbackCommit s = .next s := congrArg Host.Outcome.next (if_neg (by simp [running]))
      exact ⟨s, idle, le_rfl, fun no => absurd no Bool.false_ne_true, fun _ => rfl, rfl⟩
    | true =>
      have raised : exec .rollbackCommit s = .next (s.modUnit fun u => { u with rollback := max u.rollback (min 64 (u.fwVersion / 2 ^ 16)) }) :=
        congrArg Host.Outcome.next (if_pos running)
      exact ⟨_, raised, Nat.le_max_left .., fun _ => rfl, fun no => absurd no Bool.true_eq_false.mp, rfl⟩

end Sys2Proof.Machine
end

section
/-! SUPPORT. Key requests (22 R595, R599, R601): obligation O20. -/

namespace Sys2Proof.Machine

theorem otpIndex_lt {kind slot n : Nat} (h : otpIndex kind slot = some n) : n < 14 := by
  unfold otpIndex at h
  split at h
  case h_4 => exact absurd h (by simp)
  all_goals
    split at h
    · exact (Option.some.inj h) ▸ (by omega)
    · exact absurd h (by simp)

theorem otpIndex_firmware {slot n : Nat} (h : otpIndex 1 slot = some n) : ∃ m, m < 4 ∧ n = 8 + m := by
  by_cases small : slot < 4
  · exact ⟨slot, small, by simpa [otpIndex, small, eq_comm] using h⟩
  · exact absurd h (by simp [otpIndex, small])

theorem State.key_setKey_same (s : State) {n : Nat} (k : KeySlot) (h : n < 14) : (s.setKey n k).key n = k := by
  simp [State.setKey, State.key, State.modUnit, h]

theorem State.key_setKey_ne (s : State) {n m : Nat} (k : KeySlot) (h : m ≠ n) : (s.setKey n k).key m = s.key m := by
  simp [State.setKey, State.key, State.modUnit, List.getElem?_set_ne h.symm]

/-- The firmware slots that verify are one slot alone. -/
theorem good_slots_one_iff (good : Nat → Bool) {slot : Nat} (small : slot < 4) (here : good slot = true) :
    ((List.range 4).filter good).length = 1 ↔ ∀ m, m < 4 → good m = true → m = slot := by
  have listed (m : Nat) : m ∈ (List.range 4).filter good ↔ m < 4 ∧ good m = true := by rw [List.mem_filter, List.mem_range]
  constructor
  · intro one m lt ok
    obtain ⟨a, only⟩ := List.length_eq_one_iff.mp one
    have self := (listed slot).mpr ⟨small, here⟩
    have other := (listed m).mpr ⟨lt, ok⟩
    rw [only, List.mem_singleton] at self other
    exact other.trans self.symm
  · intro only
    have within : (List.range 4).filter good ⊆ [slot] := fun m h => List.mem_singleton.mpr (only m ((listed m).mp h).1 ((listed m).mp h).2)
    have most := (List.nodup_range.filter good).subperm within |>.length_le
    have least := List.length_pos_of_mem ((listed slot).mpr ⟨small, here⟩)
    exact le_antisymm most least

section
variable (s : State) (r : List Byte)

/-! ### OTP_PROGRAM -/

theorem execOtpProgram_slot (signed : s.otpBadSig 1 r = false) (h : ∀ n, otpIndex (byteAt r 5) (byteAt r 6) = some n → (s.key n).state ≠ .empty) :
    exec (.otpProgram r) s = .next (s.otpDone 2) := by
  show execOtpProgram r s = _
  rw [execOtpProgram, signed]
  cases found : otpIndex (byteAt r 5) (byteAt r 6) with
  | none => rfl
  | some n => exact congrArg Host.Outcome.next (if_pos (h n found))

theorem execOtpProgram_writes {n : Nat} (signed : s.otpBadSig 1 r = false) (found : otpIndex (byteAt r 5) (byteAt r 6) = some n) (empty : (s.key n).state = .empty) :
    exec (.otpProgram r) s = .next ((s.setKey n { state := .valid, x := ofBe ((r.drop 16).take 32), y := ofBe ((r.drop 48).take 32) }).otpDone 0) := by
  show execOtpProgram r s = _
  rw [execOtpProgram, signed, found]
  exact congrArg Host.Outcome.next (if_neg (not_not.mpr empty))

/-! ### OTP_REVOKE -/

/-- The request names the only firmware slot that verifies (R599). -/
def State.lastFirmwareKey (s : State) (r : List Byte) : Prop := byteAt r 5 = 1 ∧ ((List.range 4).filter fun k => (s.key (8 + k)).good).length = 1

theorem execOtpRevoke_slot (signed : s.otpBadSig 2 r = false) (h : ∀ n, otpIndex (byteAt r 5) (byteAt r 6) = some n → (s.key n).good = false) :
    exec (.otpRevoke r) s = .next (s.otpDone 2) := by
  show execOtpRevoke r s = _
  rw [execOtpRevoke, signed]
  cases found : otpIndex (byteAt r 5) (byteAt r 6) with
  | none => rfl
  | some n => simp [h n found]

theorem execOtpRevoke_last {n : Nat} (signed : s.otpBadSig 2 r = false) (found : otpIndex (byteAt r 5) (byteAt r 6) = some n) (good : (s.key n).good = true)
    (last : s.lastFirmwareKey r) : exec (.otpRevoke r) s = .next (s.otpDone 3) := by
  show execOtpRevoke r s = _
  rw [execOtpRevoke, signed, found]
  simp only [good]
  exact congrArg Host.Outcome.next (if_pos last)

theorem execOtpRevoke_revokes {n : Nat} (signed : s.otpBadSig 2 r = false) (found : otpIndex (byteAt r 5) (byteAt r 6) = some n) (good : (s.key n).good = true)
    (spare : ¬ s.lastFirmwareKey r) : exec (.otpRevoke r) s = .next ((s.setKey n { s.key n with state := .revoked }).otpDone 0) := by
  show execOtpRevoke r s = _
  rw [execOtpRevoke, signed, found]
  simp only [good]
  exact congrArg Host.Outcome.next (if_neg spare)

theorem State.lastFirmwareKey_iff {n : Nat} (found : otpIndex (byteAt r 5) (byteAt r 6) = some n) (good : (s.key n).good = true) :
    s.lastFirmwareKey r ↔ byteAt r 5 = 1 ∧ ∀ m, m < 4 → (s.key (8 + m)).good = true → 8 + m = n := by
  refine and_congr_right fun firmware => ?_
  obtain ⟨slot, small, rfl⟩ := otpIndex_firmware (firmware ▸ found)
  rw [good_slots_one_iff (fun k => (s.key (8 + k)).good) small good]
  simp only [Nat.add_left_cancel_iff]

end

/-- Settles O20, request by request. -/
theorem keyRequestResults : Obligations.KeyRequestResults := by
  intro s r
  have badSig {u v : State} {b : Bool} (h : b = true) : (Host.Outcome.next (if b then u else v) : Host.Outcome State Fault Refusal) = .next u :=
    congrArg Host.Outcome.next (if_pos h)
  refine ⟨badSig, badSig, badSig, execOtpProgram_slot s r, execOtpRevoke_slot s r, ?program, ?revoke, ?disable⟩
  case program =>
    intro n signed found empty
    exact ⟨_, execOtpProgram_writes s r signed found empty, s.key_setKey_same _ (otpIndex_lt found), fun m => s.key_setKey_ne _, rfl⟩
  case revoke =>
    intro n signed found good
    refine ⟨fun firmware only => execOtpRevoke_last s r signed found good ((s.lastFirmwareKey_iff r found good).mpr ⟨firmware, only⟩), fun spare => ?_⟩
    have more : ¬ s.lastFirmwareKey r := by
      rw [s.lastFirmwareKey_iff r found good]
      rintro ⟨firmware, only⟩
      obtain other | ⟨m, lt, ne, ok⟩ := spare
      · exact other firmware
      · exact ne (only m lt ok)
    exact ⟨_, execOtpRevoke_revokes s r signed found good more, s.key_setKey_same _ (otpIndex_lt found), fun m => s.key_setKey_ne _, rfl⟩
  case disable =>
    intro signed
    exact congrArg Host.Outcome.next (if_neg (by simp [signed]))

end Sys2Proof.Machine
end

section
/-! SUPPORT. Boundary scan, and the debug lock (22 R600 to R602): obligation O21. -/

namespace Sys2Proof.Machine

variable (s : State)

theorem State.tapOn_of_powered (h : s.unit.phase ≠ .unpowered) : s.tapOn = true := decide_eq_true h

/-! ### The boundary-scan instructions (R600) -/

/-- An instruction of the port without power comes to its powered meaning when there is power. -/
theorem ite_tapOn {α : Type} (u v : α) (h : s.unit.phase ≠ .unpowered) : (if !s.tapOn then u else v) = v := by
  rw [s.tapOn_of_powered h]; rfl

theorem jtagResults : Sys2Proof.Claims.JtagResults := by
  intro s powered
  have on {u v : State} : (if !s.tapOn then u else v) = v := ite_tapOn s u v powered
  refine ⟨fun tdi => congrArg Host.Outcome.next (if_pos (s.tapOn_of_powered powered)), congrArg Host.Outcome.next on, fun scan pins load => ?scan, fun plain pins load => ?plain⟩
  case scan =>
    have mode : s.scanMode = true := decide_eq_true scan
    have runs {u v : State} : (if !s.tapOn then s else if !s.scanMode then u else v) = v := on.trans (by rw [mode]; rfl)
    exact ⟨congrArg _ runs, congrArg _ runs, congrArg _ runs, congrArg _ runs⟩
  case plain =>
    have mode : s.scanMode = false := decide_eq_false plain
    have runs {u v : State} : (if !s.tapOn then s else if !s.scanMode then u else v) = u := on.trans (by rw [mode]; rfl)
    exact ⟨congrArg _ runs, congrArg _ runs, congrArg _ runs, congrArg _ runs⟩

/-! ### The debug lock (R601, R602) -/

/-- The challenge that the next DBG_CHAL gives (R601). -/
def State.nextChallenge : List Byte := (List.range 32).map (fun k => Config.nonceByte s.unit.nonces k) ++ leBytes 8 s.fuses.serial ++ leBytes 8 0

theorem State.nextChallenge_length : s.nextChallenge.length = 48 := by simp [State.nextChallenge]

theorem State.nextChallenge_tail : s.nextChallenge.drop 32 = leBytes 8 s.fuses.serial ++ leBytes 8 0 := by
  rw [State.nextChallenge, List.append_assoc]
  exact List.drop_left' (by simp)

theorem State.at_bypass (t : Time) (tdi : List Bool) : (s.bypass tdi).at t = (s.at t).bypass tdi := by rw [State.at_eq, State.at_eq]; rfl

/-- A response has used up the challenge (R601). -/
def State.challengeUsed : State := s.modUnit fun u => { u with ir := .dbgResp, challenge := none }

section
variable {s : State} (powered : s.unit.phase ≠ .unpowered) (plain : s.unit.phase ≠ .bscan)
include powered plain

theorem debug_not_scanning {u v : State} : (if !s.tapOn ∨ s.scanMode then u else v) = v := by
  refine if_neg ?_
  rw [s.tapOn_of_powered powered, show s.scanMode = false from decide_eq_false plain]
  decide

theorem debug_attempts_left (left : s.unit.exhausted = false) {u v w : State} : (if !s.tapOn ∨ s.scanMode then u else if s.unit.exhausted then v else w) = w :=
  (debug_not_scanning powered plain).trans (if_neg (by simp [left]))

theorem debug_exhausted (out : s.unit.exhausted = true) {u v w : State} : (if !s.tapOn ∨ s.scanMode then u else if s.unit.exhausted then v else w) = v :=
  (debug_not_scanning powered plain).trans (if_pos out)

/-- DBG_RESP with attempts left (R601, R602). -/
theorem execDbgResp_eq (left : s.unit.exhausted = false) (r : List Byte) :
    exec (.dbgResp r) s = .next (if s.responseOk r then
        if s.unit.debugFuse then s.challengeUsed else (s.challengeUsed.modUnit fun u => { u with unlocked := true, scope := leAt r 0 4 }).setFlag 0x9040 16
      else s.challengeUsed.modUnit fun u => { u with failed := u.failed + 1, exhausted := decide (3 ≤ u.failed + 1) }) :=
  congrArg Host.Outcome.next (debug_attempts_left powered plain left)

/-- DBG_ACCESS outside the granted scope (R600, R601). -/
theorem execDbgAccess_barred (op : DebugOp) (t : Time) (barred : s.unit.unlocked = false ∨ s.unit.scope.testBit op.scope = false) :
    exec (.dbgAccess op t) s = .next ((s.at t).bypass []) := by
  have same := s.at_unit t
  refine congrArg Host.Outcome.next ((debug_not_scanning (s := s.at t) (same ▸ powered) (same ▸ plain)).trans (if_pos ?_))
  rw [same]
  exact barred.imp_left fun locked => by simp [locked]

/-- DBG_ACCESS within the granted scope (R601). -/
theorem dbgAccess_granted {op : DebugOp} (t : Time) (unlocked : s.unit.unlocked = true) (granted : s.unit.scope.testBit op.scope = true) {u v w : State} :
    (if !(s.at t).tapOn ∨ (s.at t).scanMode then u else if !(s.at t).unit.unlocked ∨ (s.at t).unit.scope.testBit op.scope = false then v else w) = w := by
  have same := s.at_unit t
  refine (debug_not_scanning (s := s.at t) (same ▸ powered) (same ▸ plain)).trans (if_neg ?_)
  rw [same, unlocked, granted]
  decide

end

theorem debugResults : Sys2Proof.Claims.DebugResults := by
  intro s r powered plain
  refine ⟨fun left => ?challenge, fun out => ?exhausted, fun left ok whole => ?unlocks, fun left ok blown => ?blown, fun left wrong => ?fails, rfl, fun op t barred => ?barred,
    fun t unlocked granted => ?core, fun t addr unlocked granted => ?reservoir⟩
  case challenge =>
    exact ⟨s.nextChallenge, congrArg Host.Outcome.next (debug_attempts_left powered plain left), s.nextChallenge_length, s.nextChallenge_tail⟩
  case exhausted =>
    exact ⟨congrArg Host.Outcome.next (debug_exhausted powered plain out), congrArg Host.Outcome.next (debug_exhausted powered plain out)⟩
  case unlocks =>
    have ran := execDbgResp_eq powered plain left r
    rw [if_pos ok, if_neg (by simp [whole])] at ran
    exact ⟨_, ran, rfl, State.reg_setReg_same .., fun a other => State.reg_setReg_ne _ _ _ _ other, rfl⟩
  case blown =>
    have ran := execDbgResp_eq powered plain left r
    rwa [if_pos ok, if_pos blown] at ran
  case fails =>
    have ran := execDbgResp_eq powered plain left r
    rwa [if_neg (by simp [wrong])] at ran
  case barred =>
    exact (execDbgAccess_barred powered plain op t barred).trans (congrArg Host.Outcome.next (s.at_bypass t []).symm)
  case core =>
    refine ⟨⟨_, congrArg Host.Outcome.next (dbgAccess_granted powered plain (op := .haltCore) t unlocked granted), ?_⟩,
      ⟨_, congrArg Host.Outcome.next (dbgAccess_granted powered plain (op := .resumeCore) t unlocked granted), ?_⟩⟩
    · simp only [State.modUnit, State.at_unit]
    · simp only [State.modUnit, State.at_unit]
  case reservoir =>
    refine (congrArg Host.Outcome.next (dbgAccess_granted powered plain (op := .readReservoir addr) t unlocked granted)).trans ?_
    simp only [State.modUnit, State.at_unit, State.at_resv]

/-- Settles O21: the boundary-scan instructions, and the debug lock. -/
theorem jtagAndDebugResults : Obligations.JtagAndDebugResults := ⟨jtagResults, debugResults⟩

end Sys2Proof.Machine
end

section
/-! SUPPORT. The high-side channels of a BZ31 (18 R464 to R493): what starting a command, a fault, and a pick from the schedule come to. -/

namespace Sys2Proof.Machine

/-! ### Commands at a chip that change one channel -/

section
variable {s : State} {n : Fin 4} {k : Fin 12} {f : Chip → Chip}

theorem State.onLive_stays (h : f s.chips[n] = s.chips[n]) : (Host.Outcome.next (s.onLive n f) : Host.Outcome State Fault Refusal) = .next s :=
  congrArg Host.Outcome.next (s.onLive_same n f h)

theorem State.onLive_hsGoes {h : HsChan} {p : HsChan → Prop} (on : s.chips[n].powered = true) (turns : f s.chips[n] = s.chips[n].hsSet k h) (hp : p h) :
    s.ChipGoes n (.next (s.onLive n f)) fun x => s.chips[n].HsGoes x k p :=
  s.onLive_goes n f _ on ⟨h, turns, hp⟩

end

@[simp] theorem Chip.hs_hsSet_same (c : Chip) (k : Fin 12) (h : HsChan) : (c.hsSet k h).hs[k] = h := by simp [Chip.hsSet]

theorem Chip.hs_hsSet_ne (c : Chip) {k m : Fin 12} (h : HsChan) (ne : m ≠ k) : (c.hsSet k h).hs[m] = c.hs[m] := by
  have : k.val ≠ m.val := fun e => ne (Fin.ext e.symm)
  simp [Chip.hsSet, this]

@[simp] theorem Chip.hsSet_hsSet (c : Chip) (k : Fin 12) (h h' : HsChan) : (c.hsSet k h).hsSet k h' = c.hsSet k h' := by simp [Chip.hsSet]

@[simp] theorem Chip.hsSet_self (c : Chip) (k : Fin 12) : c.hsSet k c.hs[k] = c := by simp [Chip.hsSet]

/-! ### Clears of flags (R493, R529) -/

theorem getLsbD_andNot (w eff : Word) (f : Nat) : (w &&& ~~~eff).getLsbD f = (w.getLsbD f && !eff.getLsbD f) := by
  rw [BitVec.getLsbD_and, BitVec.getLsbD_not]
  by_cases small : f < 32
  · rw [decide_eq_true small, Bool.true_and]
  · rw [BitVec.getLsbD_of_ge w f (Nat.not_lt.mp small), Bool.false_and, Bool.false_and]

/-- A flag that a refused clear sets stands beside what the clear leaves. -/
theorem getLsbD_andNot_or_oneBit (w eff : Word) {r f : Nat} (other : f ≠ r) : ((w &&& ~~~eff) ||| oneBit r).getLsbD f = (w.getLsbD f && !eff.getLsbD f) := by
  rw [BitVec.getLsbD_or, getLsbD_andNot]
  by_cases small : f < 32
  · rw [getLsbD_oneBit r f small, decide_eq_false other, Bool.or_false]
  · rw [BitVec.getLsbD_of_ge (oneBit r) f (Nat.not_lt.mp small), Bool.or_false]

/-- The flags that a write of `mask` takes away: those below `top`, but for flag `i` where `a` keeps it and flag `j` where `b` does. -/
def flagsCleared (mask : Word) (top i j : Nat) (a b : Bool) : Word :=
  mask &&& BitVec.ofNat 32 (2 ^ top - 1) &&& ~~~((if a then oneBit i else 0) ||| (if b then oneBit j else 0))

section
variable {mask : Word} {top i j f : Nat} {a b : Bool}

theorem flagsCleared_bit : (flagsCleared mask top i j a b).getLsbD f = (mask.getLsbD f && decide (f < top) && !(a && decide (f = i) || b && decide (f = j))) := by
  rw [flagsCleared, getLsbD_andNot, BitVec.getLsbD_and, BitVec.getLsbD_or]
  by_cases small : f < 32
  · have low : (BitVec.ofNat 32 (2 ^ top - 1)).getLsbD f = decide (f < top) := by
      rw [BitVec.getLsbD_ofNat, Nat.testBit_two_pow_sub_one, decide_eq_true small, Bool.true_and]
    have kept (b : Bool) (i : Nat) : (if b then oneBit i else 0).getLsbD f = (b && decide (f = i)) := by
      cases b
      · exact BitVec.getLsbD_zero
      · exact getLsbD_oneBit i f small
    rw [low, kept, kept]
  · rw [BitVec.getLsbD_of_ge mask f (Nat.not_lt.mp small)]
    rfl

theorem flagsCleared_clears (small : f < top) (asked : mask.getLsbD f = true) (first : ¬ (f = i ∧ a = true)) (second : ¬ (f = j ∧ b = true)) : (flagsCleared mask top i j a b).getLsbD f = true := by
  rw [flagsCleared_bit, asked, decide_eq_true small, Bool.true_and, Bool.true_and, Bool.not_eq_true', Bool.or_eq_false_iff, Bool.and_eq_false_iff, Bool.and_eq_false_iff,
    decide_eq_false_iff_not, decide_eq_false_iff_not, ← Bool.not_eq_true, ← Bool.not_eq_true]
  exact ⟨by tauto, by tauto⟩

theorem flagsCleared_spares (spared : mask.getLsbD f = false ∨ top ≤ f ∨ (f = i ∧ a = true) ∨ (f = j ∧ b = true)) : (flagsCleared mask top i j a b).getLsbD f = false := by
  rw [flagsCleared_bit]
  obtain unasked | large | ⟨rfl, first⟩ | ⟨rfl, second⟩ := spared
  · rw [unasked]; rfl
  · rw [decide_eq_false (Nat.not_lt.mpr large), Bool.and_false, Bool.false_and]
  · rw [first]; simp
  · rw [second]; simp

end

/-! ### A switch that turns on or off (R467, R472, R474, R476, R488) -/

/-- A channel without what its switch and its PWM periods move. -/
def HsChan.sansSwitch (h : HsChan) : HsChan :=
  { h with state := .off, on := false, period := 0, periodStart := 0, offAt := 0, duty := 0, nextDuty := 0, onSince := 0, limUs := 0, mEnd := none, olSource := false, olActive := false, offSince := 0 }

section
variable (h : HsChan) (t : Time)

variable {h} in
/-- The switch moves neither the command of its channel nor its flags and counts. -/
theorem HsChan.same_command {x : HsChan} (e : x.sansSwitch = h.sansSwitch) :
    (x.act = h.act ∧ x.w0 = h.w0 ∧ x.w1 = h.w1 ∧ x.pulseEnd = h.pulseEnd) ∧ (x.retries = h.retries ∧ x.restarts = h.restarts) ∧
    (x.sts = h.sts ∧ x.latch = h.latch ∧ x.cnt = h.cnt) ∧ x.x = h.x ∧ x.junction = h.junction ∧ x.ol = h.ol :=
  have via {β : Type} (g : HsChan → β) : g x.sansSwitch = g h.sansSwitch := congrArg g e
  ⟨⟨via HsChan.act, via HsChan.w0, via HsChan.w1, via HsChan.pulseEnd⟩, ⟨via HsChan.retries, via HsChan.restarts⟩, ⟨via HsChan.sts, via HsChan.latch, via HsChan.cnt⟩,
    via HsChan.x, via HsChan.junction, via HsChan.ol⟩

@[simp] theorem HsChan.turnOff_sansSwitch : (h.turnOff t).sansSwitch = h.sansSwitch := rfl
@[simp] theorem HsChan.turnOn_sansSwitch : (h.turnOn t).sansSwitch = h.sansSwitch := rfl
@[simp] theorem HsChan.turnOff_on : (h.turnOff t).on = false := rfl
@[simp] theorem HsChan.turnOn_on : (h.turnOn t).on = true := rfl

theorem HsChan.startPeriod_cases (k d : Nat) : let width := onTimeNs d (hpPeriod h.w0) (hpStretch h.w1) k
    let h1 := { h with period := k, periodStart := t, offAt := t + width, duty := d, nextDuty := d }
    (width = 0 ∧ h.startPeriod k d t = h1.turnOff t) ∨ (width ≠ 0 ∧ h.startPeriod k d t = h1.turnOn t) := by
  intro width h1
  by_cases dark : width = 0
  · exact .inl ⟨dark, if_pos dark⟩
  · exact .inr ⟨dark, if_neg dark⟩

@[simp] theorem HsChan.startPeriod_sansSwitch (k d : Nat) : (h.startPeriod k d t).sansSwitch = h.sansSwitch := by
  obtain ⟨-, e⟩ | ⟨-, e⟩ := h.startPeriod_cases t k d
  · rw [e]; rfl
  · rw [e]; rfl

theorem HsChan.startPeriod_on (k d : Nat) : (h.startPeriod k d t).on = decide (onTimeNs d (hpPeriod h.w0) (hpStretch h.w1) k ≠ 0) := by
  obtain ⟨dark, e⟩ | ⟨lit, e⟩ := h.startPeriod_cases t k d
  · rw [e]; simp [dark]
  · rw [e]; simp [lit]

/-- What a period holds, on or off (R472). -/
theorem HsChan.startPeriod_period (k d : Nat) : let x := h.startPeriod k d t
    x.state = h.state ∧ x.period = k ∧ x.periodStart = t ∧ x.duty = d ∧ x.offAt = t + onTimeNs d (hpPeriod h.w0) (hpStretch h.w1) k := by
  obtain ⟨-, e⟩ | ⟨-, e⟩ := h.startPeriod_cases t k d
  · rw [e]; exact ⟨rfl, rfl, rfl, rfl, rfl⟩
  · rw [e]; exact ⟨rfl, rfl, rfl, rfl, rfl⟩

/-! ### The start of a command (R467, R472, R491) -/

/-- The command holds its channel on under DC. -/
def HsChan.isDc : Prop := h.act = 1 ∨ h.act = 3 ∨ (h.act = 4 ∧ hpPeriod h.w0 = 0 ∧ 0 < hpDuty h.w0)

/-- The command runs in PWM periods. -/
def HsChan.isPwm : Prop := h.act = 4 ∧ hpPeriod h.w0 ≠ 0

theorem HsChan.start_dc {h : HsChan} (dc : h.isDc) (d : Nat) : h.start d t = { h.turnOn t with state := .onDc, onSince := t } := by
  unfold HsChan.start
  obtain act | act | ⟨act, flat, duty⟩ := dc
  · rw [act]; rfl
  · rw [act]; rfl
  · rw [act]; exact (if_pos flat).trans (if_pos duty)

theorem HsChan.start_pwm {h : HsChan} (pwm : h.isPwm) (d : Nat) : h.start d t = { h.startPeriod 0 d t with state := .pwm, onSince := t } := by
  unfold HsChan.start
  rw [pwm.1]
  exact if_neg pwm.2

theorem HsChan.start_off {h : HsChan} (dc : ¬ h.isDc) (pwm : ¬ h.isPwm) (d : Nat) : h.start d t = { h.turnOff t with state := .off } := by
  unfold HsChan.start
  split
  · exact absurd (.inl ‹_›) dc
  · exact absurd (.inr (.inl ‹_›)) dc
  · rename_i act
    by_cases flat : hpPeriod h.w0 = 0
    · exact (if_pos flat).trans (if_neg fun duty => dc (.inr (.inr ⟨act, flat, duty⟩)))
    · exact absurd ⟨act, flat⟩ pwm
  · rfl

theorem HsChan.isDc_not_isPwm {h : HsChan} (dc : h.isDc) : ¬ h.isPwm := by
  rintro ⟨act, period⟩
  obtain one | three | ⟨-, flat, -⟩ := dc
  · omega
  · omega
  · exact period flat

@[simp] theorem HsChan.start_sansSwitch (d : Nat) : (h.start d t).sansSwitch = h.sansSwitch := by
  by_cases dc : h.isDc
  · rw [HsChan.start_dc t dc]; rfl
  · by_cases pwm : h.isPwm
    · rw [HsChan.start_pwm t pwm]; exact h.startPeriod_sansSwitch t 0 d
    · rw [HsChan.start_off t dc pwm]; rfl

theorem HsChan.start_runs (d : Nat) : (h.start d t).Runs d t := by
  obtain ⟨⟨act, w0, w1, -⟩, -⟩ := HsChan.same_command (h.start_sansSwitch t d)
  unfold HsChan.Runs
  rw [act, w0, w1]
  refine ⟨fun dc => ?_, fun idle => ?_, fun four period => ?_⟩
  · rw [HsChan.start_dc t dc]; exact ⟨rfl, rfl, rfl⟩
  · have dc : ¬ h.isDc := by
      rintro (one | three | ⟨four, -, duty⟩)
      · omega
      · omega
      · omega
    have pwm : ¬ h.isPwm := by
      rintro ⟨four, period⟩
      obtain two | ⟨-, flat, -⟩ := idle
      · omega
      · exact period flat
    rw [HsChan.start_off t dc pwm]; exact ⟨rfl, rfl⟩
  · rw [HsChan.start_pwm t ⟨four, period⟩]
    obtain ⟨-, number, start, duty, ends⟩ := h.startPeriod_period t 0 d
    exact ⟨rfl, number, start, duty, ends, h.startPeriod_on t 0 d⟩

/-! ### A fault (R491, R492) -/

/-- The channel in the fault hold by flag `f`. -/
def HsChan.fail (h : HsChan) (f : Nat) (t : Time) : HsChan := { (h.turnOff t).flag f with act := 2, pulseEnd := none, state := .fault, latch := h.latch ||| oneBit f }

theorem HsChan.fail_faulted {f : Nat} (small : f < 32) : (h.fail f t).Faulted f :=
  ⟨rfl, rfl, rfl, rfl, getLsbD_or_oneBit _ _ small, getLsbD_or_oneBit _ _ small⟩

end

theorem Chip.hsFault_eq (c : Chip) (k : Fin 12) (f : Nat) (t : Time) : c.hsFault k f t = c.hsSet k (c.hs[k].fail f t) := rfl

@[simp] theorem Chip.hsFault_hsSet (c : Chip) (k : Fin 12) (h : HsChan) (f : Nat) (t : Time) : (c.hsSet k h).hsFault k f t = c.hsSet k (h.fail f t) := by
  rw [Chip.hsFault_eq, Chip.hs_hsSet_same, Chip.hsSet_hsSet]

/-! ### A command that takes effect (R467, R491) -/

/-- The channel with a new command that is still to start. -/
def HsChan.given (h : HsChan) (act : Nat) (w0 w1 : Word) (durUs : Nat) (duty : Nat) (t : Time) : HsChan :=
  { h with act := act, w0 := w0, w1 := w1, pulseEnd := if act = 3 then some (t + durUs * 1000) else none, retries := 0, restarts := 0, mEnd := none, nextDuty := duty }

theorem Chip.hsCommand_waits (c : Chip) (k : Fin 12) (act : Nat) (w0 w1 : Word) (durUs : Nat) (t : Time) (wait : c.hs[k].state = .retryWait ∨ c.hs[k].state = .thermalWait) :
    c.hsCommand k act w0 w1 durUs t = c.hsSet k (c.hs[k].given act w0 w1 durUs (c.dutyOf w0 w1) t) := if_pos wait

theorem Chip.hsCommand_starts (c : Chip) (k : Fin 12) (act : Nat) (w0 w1 : Word) (durUs : Nat) (t : Time) (wait : ¬ (c.hs[k].state = .retryWait ∨ c.hs[k].state = .thermalWait)) :
    c.hsCommand k act w0 w1 durUs t = c.hsSet k ((c.hs[k].given act w0 w1 durUs (c.dutyOf w0 w1) t).start (c.dutyOf w0 w1) t) := if_neg wait

theorem Chip.hsCommand_takes (c : Chip) (k : Fin 12) (act : Nat) (w0 w1 : Word) (durUs : Nat) (t : Time) :
    ∃ x, c.hsCommand k act w0 w1 durUs t = c.hsSet k x ∧ c.hs[k].Takes x act w0 w1 (c.dutyOf w0 w1) durUs t := by
  have pulse : (if act = 3 then some (t + durUs * 1000) else none) = if act = 3 then some (t + 1000 * durUs) else none := by rw [Nat.mul_comm]
  by_cases wait : c.hs[k].state = .retryWait ∨ c.hs[k].state = .thermalWait
  · refine ⟨_, c.hsCommand_waits k act w0 w1 durUs t wait, rfl, rfl, rfl, pulse, rfl, rfl, rfl, rfl, rfl, rfl, rfl, fun _ => ⟨rfl, rfl⟩, fun retry thermal => ?_⟩
    exact absurd wait (not_or.mpr ⟨retry, thermal⟩)
  · obtain ⟨⟨isAct, isW0, isW1, pulseEnd⟩, ⟨retries, restarts⟩, ⟨sts, latch, cnt⟩, x, junction, -⟩ :=
      HsChan.same_command ((c.hs[k].given act w0 w1 durUs (c.dutyOf w0 w1) t).start_sansSwitch t (c.dutyOf w0 w1))
    exact ⟨_, c.hsCommand_starts k act w0 w1 durUs t wait, isAct, isW0, isW1, pulseEnd.trans pulse, retries, restarts, sts, latch, cnt, x, junction,
      fun waits => absurd waits wait, fun _ _ => HsChan.start_runs _ t _⟩

/-- The verdict of a receipt check, by its three questions: the shape, the output's settings, the hold (R468, R501). -/
theorem receipt_verdict {bad held shape : Prop} [Decidable shape] {off holds : Bool} (isBad : bad ↔ shape ∨ off = true) (isHeld : held ↔ holds = true) :
    let r := if shape then 4 else if off then 4 else if holds then 3 else 0
    (bad → r = 4) ∧ (¬ bad → held → r = 3) ∧ (¬ bad → ¬ held → r = 0) := by
  refine ⟨fun bad => ?_, fun good held => ?_, fun good free => ?_⟩
  · by_cases malformed : shape
    · exact if_pos malformed
    · exact (if_neg malformed).trans (if_pos ((isBad.mp bad).resolve_left malformed))
  · obtain ⟨formed, on⟩ := not_or.mp (isBad.not.mp good)
    exact (if_neg formed).trans ((if_neg on).trans (if_pos (isHeld.mp held)))
  · obtain ⟨formed, on⟩ := not_or.mp (isBad.not.mp good)
    exact (if_neg formed).trans ((if_neg on).trans (if_neg (isHeld.not.mp free)))

/-! ### The next event of an output (R469) -/

/-- Of two events that are due, the one that the chip takes first. -/
def BzSched.earlier (b : Option BzSched) (e : BzSched) : Option BzSched :=
  match b with
  | none => some e
  | some f => if e.start < f.start ∨ (e.start = f.start ∧ e.ev.stamp.toNat < f.ev.stamp.toNat) then some e else some f

theorem BzSched.earlier_le (b : Option BzSched) (e : BzSched) : ∃ q, BzSched.earlier b e = some q ∧ q.start ≤ e.start ∧ (∀ f, b = some f → q.start ≤ f.start) ∧ (q = e ∨ b = some q) := by
  cases b with
  | none => exact ⟨e, rfl, le_rfl, fun f none => (Option.some_ne_none f none.symm).elim, .inl rfl⟩
  | some f =>
    by_cases sooner : e.start < f.start ∨ (e.start = f.start ∧ e.ev.stamp.toNat < f.ev.stamp.toNat)
    · refine ⟨e, if_pos sooner, le_rfl, fun g same => ?_, .inl rfl⟩
      obtain rfl := Option.some.inj same
      exact sooner.elim Nat.le_of_lt fun tie => tie.1.le
    · refine ⟨f, if_neg sooner, Nat.not_lt.mp fun lt => sooner (.inl lt), fun g same => ?_, .inr rfl⟩
      exact (Option.some.inj same) ▸ le_rfl

theorem BzSched.foldl_earlier (l : List BzSched) (b : Option BzSched) (q : BzSched) (h : l.foldl BzSched.earlier b = some q) :
    (q ∈ l ∨ b = some q) ∧ (∀ e ∈ l, q.start ≤ e.start) ∧ (∀ f, b = some f → q.start ≤ f.start) := by
  induction l generalizing b with
  | nil => exact ⟨.inr h, fun e no => absurd no List.not_mem_nil, fun f hf => by rw [Option.some.inj (hf.symm.trans h)]⟩
  | cons e l ih =>
    obtain ⟨p, first, pe, pb, from_⟩ := BzSched.earlier_le b e
    obtain ⟨mem, least, le⟩ := ih _ h
    have qp := le p first
    refine ⟨?_, fun f hf => ?_, fun f hf => qp.trans (pb f hf)⟩
    · obtain mem | same := mem
      · exact .inl (List.mem_cons_of_mem _ mem)
      · obtain rfl := Option.some.inj (first.symm.trans same)
        exact from_.imp_left fun here => List.mem_cons.mpr (.inl here)
    · obtain rfl | hf := List.mem_cons.mp hf
      · exact qp.trans pe
      · exact least f hf

/-- The events of an output that are due at `t`. -/
def Chip.duesOf (c : Chip) (kind : Nat) (n : Fin 12) (t : Time) : List BzSched := c.schedule.filter fun e => e.ev.kind == kind && e.ev.index == n.val && decide (e.start ≤ t)

theorem Chip.mem_duesOf {c : Chip} {kind : Nat} {n : Fin 12} {t : Time} {e : BzSched} : e ∈ c.duesOf kind n t ↔ e ∈ c.schedule ∧ e.ev.kind = kind ∧ e.ev.index = n.val ∧ e.start ≤ t := by
  rw [Chip.duesOf, List.mem_filter]
  simp [and_assoc]

theorem Chip.dueEvent_eq (c : Chip) (kind : Nat) (n : Fin 12) (t : Time) : c.dueEvent kind n t = (c.duesOf kind n t).foldl BzSched.earlier none := rfl

theorem Chip.dueEvent_none {c : Chip} {kind : Nat} {n : Fin 12} {t : Time} (h : ∀ q ∈ c.schedule, q.ev.kind = kind → q.ev.index = n.val → t < q.start) : c.dueEvent kind n t = none := by
  have empty : c.duesOf kind n t = [] := List.eq_nil_iff_forall_not_mem.mpr fun q mem => by
    obtain ⟨there, kind, index, due⟩ := Chip.mem_duesOf.mp mem
    exact absurd due (Nat.not_le.mpr (h q there kind index))
  rw [Chip.dueEvent_eq, empty]; rfl

theorem Chip.dueEvent_some {c : Chip} {kind : Nat} {n : Fin 12} {t : Time} {q : BzSched} (h : c.dueEvent kind n t = some q) :
    q ∈ c.schedule ∧ q.ev.kind = kind ∧ q.ev.index = n.val ∧ q.start ≤ t ∧ ∀ r ∈ c.schedule, r.ev.kind = kind → r.ev.index = n.val → q.start ≤ r.start := by
  obtain ⟨mem, least, -⟩ := BzSched.foldl_earlier _ none q h
  obtain ⟨there, isKind, index, due⟩ := Chip.mem_duesOf.mp (mem.resolve_right fun no => Option.some_ne_none q no.symm)
  refine ⟨there, isKind, index, due, fun r hr kr ir => ?_⟩
  by_cases soon : r.start ≤ t
  · exact least r (Chip.mem_duesOf.mpr ⟨hr, kr, ir, soon⟩)
  · exact due.trans (Nat.not_le.mp soon).le

theorem Chip.retireBank_eq (c : Chip) : c.retireBank = { c with retiring := c.retireBank.retiring, lee := c.retireBank.lee } := by
  unfold Chip.retireBank
  split <;> rfl

theorem Chip.retireBank_retiring (c : Chip) : c.retireBank.retiring = c.retiring ∨ c.retireBank.retiring = none := by
  unfold Chip.retireBank
  split
  · exact .inr rfl
  · exact .inl rfl

end Sys2Proof.Machine
end

section
/-! SUPPORT. The mode M window of a high-side channel (18 R474, R476): obligation O54. -/

namespace Sys2Proof.Machine

/-! ### Limits (R464, R474, R494) -/

section
variable {c x : Chip} (crest : x.crest = c.crest) (n : Nat)
include crest

theorem Chip.hsIlim_of_crest : x.hsIlim n = c.hsIlim n := by unfold Chip.hsIlim Chip.hsCfg Chip.hsPair; rw [crest]
theorem Chip.hsCeiling_of_crest : x.hsCeiling n = c.hsCeiling n := by unfold Chip.hsCeiling Chip.hsPair; rw [crest]
theorem Chip.hsLimTime_of_crest : x.hsLimTime n = c.hsLimTime n := by unfold Chip.hsLimTime Chip.hsCfg; rw [crest]

end

/-! ### A channel in its mode M window -/

/-- A mode M command whose window has opened and lasts until `till`. -/
structure HsChan.MOpen (h : HsChan) (till : Time) : Prop where
  window : h.mEnd = some till
  mode : hpInrush h.w1 = 2

/-- A mode M command that turns its channel on as it starts (R472, R476). -/
def HsChan.StartsM (h : HsChan) (duty : Nat) : Prop :=
  hpInrush h.w1 = 2 ∧ (h.act = 1 ∨ h.act = 3 ∨ (h.act = 4 ∧ hpPeriod h.w0 = 0 ∧ 0 < hpDuty h.w0) ∨
    (h.act = 4 ∧ hpPeriod h.w0 ≠ 0 ∧ onTimeNs duty (hpPeriod h.w0) (hpStretch h.w1) 0 ≠ 0))

theorem HsChan.turnOn_opens {h : HsChan} (mode : hpInrush h.w1 = 2) (shut : h.mEnd = none) (t : Time) : (h.turnOn t).MOpen (t + 1000000 * hpMTime h.w1) where
  window := (if_pos ⟨mode, shut⟩).trans (by rw [Nat.mul_comm])
  mode := mode

theorem HsChan.start_opens {h : HsChan} {d : Nat} (starts : h.StartsM d) (shut : h.mEnd = none) (t : Time) :
    (h.start d t).MOpen (t + 1000000 * hpMTime h.w1) ∧ (h.start d t).on = true := by
  have opens := HsChan.turnOn_opens starts.1 shut t
  have dc (dc : h.isDc) : (h.start d t).MOpen (t + 1000000 * hpMTime h.w1) ∧ (h.start d t).on = true := by
    rw [HsChan.start_dc t dc]
    exact ⟨⟨opens.window, opens.mode⟩, rfl⟩
  obtain ⟨mode, one | three | flat | ⟨four, period, lit⟩⟩ := starts
  · exact dc (.inl one)
  · exact dc (.inr (.inl three))
  · exact dc (.inr (.inr flat))
  · rw [HsChan.start_pwm t ⟨four, period⟩]
    obtain ⟨dark, -⟩ | ⟨-, e⟩ := h.startPeriod_cases t 0 d
    · exact absurd dark lit
    · rw [e]
      exact ⟨⟨opens.window, mode⟩, rfl⟩

/-- Later edges do not open the window again (R476). -/
theorem HsChan.MOpen.startPeriod {h : HsChan} {till : Time} (m : h.MOpen till) (k d : Nat) (t : Time) : (h.startPeriod k d t).MOpen till := by
  have opened : ¬ (hpInrush h.w1 = 2 ∧ h.mEnd = none) := fun no => Option.some_ne_none till (m.window.symm.trans no.2)
  obtain ⟨-, e⟩ | ⟨-, e⟩ := h.startPeriod_cases t k d
  · rw [e]; exact ⟨m.window, m.mode⟩
  · rw [e]; exact ⟨(if_neg opened).trans m.window, m.mode⟩

/-! ### The channel's chip -/

section
variable {c x : Chip} {k : Fin 12} {till : Time} (crest : x.crest = c.crest) (m : x.hs[k].MOpen till)
include crest m

/-- Within the window the limit is three times ILIM, up to the ceiling; after it, ILIM (R476). -/
theorem Chip.hsLimit_of_open (t : Time) : x.hsLimit k t = if t < till then min (3 * c.hsIlim k.val) (c.hsCeiling k.val) else c.hsIlim k.val := by
  unfold Chip.hsLimit
  rw [m.window, Chip.hsIlim_of_crest crest, Chip.hsCeiling_of_crest crest]
  simp only [m.mode, true_and]

theorem Chip.hsPeriod_open (t : Time) : (x.hsPeriod k t).crest = c.crest ∧ ((x.hsPeriod k t).hs[k]).MOpen till := by
  unfold Chip.hsPeriod
  dsimp only
  split
  · exact ⟨crest, by rw [Chip.hs_hsSet_same]; exact m.startPeriod _ _ _⟩
  · exact ⟨crest, m⟩

/-- An overload of LIM_TIME ends in the fault hold: mode M does not retry (R474, R476). -/
theorem Chip.hsOverload_open {lim : Nat} (on : x.hs[k].on = true) (long : c.hsLimTime k.val ≤ lim) (t : Time) : ((x.hsOverload k lim t).hs[k]).Faulted 0 := by
  have fails : x.hsOverload k lim t = x.hsSet k (({ x.hs[k] with limUs := lim } : HsChan).fail 0 t) := by
    refine (if_pos ⟨on, (Chip.hsLimTime_of_crest crest k.val).trans_le long⟩).trans ((if_neg ?_).trans (Chip.hsFault_hsSet ..))
    rintro ⟨one, -⟩
    exact absurd (m.mode.symm.trans one) (by decide)
  rw [fails, Chip.hs_hsSet_same]
  exact HsChan.fail_faulted _ t (by decide)

omit m in
theorem Chip.hsOverload_short {lim : Nat} (on : x.hs[k].on = true) (short : lim < c.hsLimTime k.val) (t : Time) : ((x.hsOverload k lim t).hs[k]).on = true := by
  have stays : x.hsOverload k lim t = x.hsSet k { x.hs[k] with limUs := lim } := if_neg fun ends => by
    have := (Chip.hsLimTime_of_crest crest k.val).symm.trans_le ends.2
    omega
  rw [stays, Chip.hs_hsSet_same]
  exact on

/-- At the end of the window the limit is ILIM and the overload timer starts anew (R476). -/
theorem Chip.hsMEnd_open {t : Time} (past : till ≤ t) : let y := x.hsMEnd k t
    (y.hs[k]).limUs = 0 ∧ (y.hs[k]).on = x.hs[k].on ∧ ∀ t', y.hsLimit k t' = c.hsIlim k.val := by
  have ends : x.hsMEnd k t = x.hsSet k { x.hs[k] with mEnd := some 0, limUs := 0 } := by
    unfold Chip.hsMEnd
    rw [m.window]
    exact if_pos past
  rw [ends]
  refine ⟨by rw [Chip.hs_hsSet_same], by rw [Chip.hs_hsSet_same], fun t' => ?_⟩
  unfold Chip.hsLimit
  rw [Chip.hs_hsSet_same]
  exact (if_neg fun within => absurd within.2 (Nat.not_lt_zero t')).trans (Chip.hsIlim_of_crest crest k.val)

end

/-- A command at chip `n` that leaves a mode M window open on channel `k` until `till`. -/
structure State.OpensM (s : State) (n : Fin 4) (k : Fin 12) (f : Chip → Chip) (till : Time) : Prop where
  powered : (f s.chips[n]).powered = true
  crest : (f s.chips[n]).crest = s.chips[n].crest
  opens : ((f s.chips[n]).hs[k]).MOpen till
  on : ((f s.chips[n]).hs[k]).on = true

/-- Settles O54: the first on edge of the command opens the window, and each command in it reads the window as open. -/
theorem modeMWindow : Obligations.ModeMWindow := by
  intro s n k t c h wide opens goesOn powered
  have opened {f : Chip → Chip} {r : Host.Outcome State Fault Refusal} {time : Nat} (ran : r = .next (s.onLive n f)) (m : s.OpensM n k f (t + 1000000 * time)) : opens r time := by
    have live {u : State} {g : Chip → Chip} (on : u.chips[n].powered = true) : (u.onLive n g).chips[n] = g u.chips[n] := by rw [u.onLive_on n g on, u.onChip_same]
    have here : (s.onLive n f).chips[n] = f s.chips[n] := live powered
    have crest : (s.onLive n f).chips[n].crest = c.crest := (congrArg Chip.crest here).trans m.crest
    have lit : ((s.onLive n f).chips[n].hs[k]).on = true := by rw [here]; exact m.on
    have open_ : ((s.onLive n f).chips[n].hs[k]).MOpen (t + 1000000 * time) := by rw [here]; exact m.opens
    have power : (s.onLive n f).chips[n].powered = true := (congrArg Chip.powered here).trans m.powered
    refine ⟨_, ran, Chip.hsLimit_of_open crest open_, fun t' => ⟨_, rfl, ?_⟩, fun lim t' long => ⟨_, rfl, ?_⟩, fun lim t' short => ⟨_, rfl, ?_⟩, fun t' past => ⟨_, rfl, ?_⟩⟩
    · obtain ⟨crest', open'⟩ := Chip.hsPeriod_open crest open_ t'
      intro t''
      rw [live power]
      exact Chip.hsLimit_of_open crest' open' t''
    · rw [live power]; exact Chip.hsOverload_open crest open_ lit long t'
    · rw [live power]; exact Chip.hsOverload_short crest lit short t'
    · obtain ⟨timer, still, limit⟩ := Chip.hsMEnd_open crest open_ past
      rw [live power]
      exact ⟨timer, still.trans lit, fun t'' _ => limit t''⟩
  have restarts {f : Chip → Chip} {x : HsChan} {r : Host.Outcome State Fault Refusal} (ran : r = .next (s.onLive n f)) (shut : x.mEnd = none) (w1 : x.w1 = h.w1)
      (starts : x.StartsM (c.dutyOf h.w0 h.w1)) (turns : f c = c.hsSet k (x.start (c.dutyOf h.w0 h.w1) t)) : opens r (hpMTime h.w1) := by
    obtain ⟨open_, lit⟩ := HsChan.start_opens starts shut t
    rw [w1] at open_
    refine opened ran ⟨?_, ?_, ?_, ?_⟩
    · rw [turns]; exact powered
    · rw [turns]; rfl
    · rw [turns, Chip.hs_hsSet_same]; exact open_
    · rw [turns, Chip.hs_hsSet_same]; exact lit
  refine ⟨fun q due held upper retry thermal goes => ?fire, fun shut goes j cool => ⟨fun retry past => ?retry, fun thermal => ?thermal⟩⟩
  case fire =>
    let p := hsProf (c.evBank q.ev.stamp) q.ev.profile
    refine opened rfl ?_
    have turns : c.hsFire k t = ((c.unschedule q).hsSet k ((h.given q.ev.action p.1 p.2 q.ev.durationUs (c.dutyOf p.1 p.2) t).start (c.dutyOf p.1 p.2) t)).retireBank := by
      unfold Chip.hsFire
      rw [due]
      simp only [held, upper, Bool.or_self, Bool.false_eq_true, if_false]
      exact congrArg Chip.retireBank ((c.unschedule q).hsCommand_starts k _ _ _ _ t (not_or.mpr ⟨retry, thermal⟩))
    obtain ⟨open_, lit⟩ := HsChan.start_opens (h := h.given q.ev.action p.1 p.2 q.ev.durationUs (c.dutyOf p.1 p.2) t) goes rfl t
    refine ⟨?_, ?_, ?_, ?_⟩
    · rw [turns, Chip.retireBank_eq]; exact powered
    · rw [turns, Chip.retireBank_eq]; rfl
    · rw [turns, Chip.retireBank_eq]; dsimp only; rw [Chip.hs_hsSet_same]; exact open_
    · rw [turns, Chip.retireBank_eq]; dsimp only; rw [Chip.hs_hsSet_same]; exact lit
  case retry => exact restarts (f := fun c => c.hsRetryEnd k j t) (x := { h with junction := j }) rfl shut rfl goes (if_pos ⟨retry, past, cool⟩)
  case thermal => exact restarts (f := fun c => c.hsThermalRestart k j t) (x := { h with junction := j, restarts := h.restarts + 1 }) rfl shut rfl goes (if_pos ⟨thermal, cool⟩)

end Sys2Proof.Machine
end

section
/-! SUPPORT. A BZ31's protected high-side channels (18 R464 to R493): obligation O52. -/

namespace Sys2Proof.Machine

section
variable (c : Chip) (k : Fin 12) (t : Time)

/-! ### Events and reflexes (R456, R465, R468, R469) -/

/-- An event that is refused as BAD (R468). -/
def Chip.hsBadEvent (c : Chip) (ev : BzEvent) : Prop :=
  12 ≤ ev.index ∨ ev.action = 0 ∨ 4 < ev.action ∨ 63 < ev.profile ∨ (ev.action = 3 ∧ (ev.durationUs = 0 ∨ 16000000 < ev.durationUs)) ∨ c.hsEn ev.index = false ∨ c.hsUpper ev.index = true ∨
    hpBad (hsProf (c.evBank ev.stamp) ev.profile).1 (hsProf (c.evBank ev.stamp) ev.profile).2 = true

/-- A channel that takes no event now (R468). -/
def Chip.hsHolds (c : Chip) (index : Nat) : Prop := c.supervisor = .powerup ∨ ∃ m : Fin 12, m.val = index ∧ c.hsHeld m = true

theorem idx12_of_lt {i : Nat} (h : i < 12) : idx12 i = some ⟨i, h⟩ := dif_pos h
theorem idx12_of_ge {i : Nat} (h : 12 ≤ i) : idx12 i = none := dif_neg (Nat.not_lt.mpr h)
@[simp] theorem idx12_val (k : Fin 12) : idx12 k.val = some k := dif_pos k.isLt

theorem Chip.hsCheck_event (ev : BzEvent) : let r := c.hsCheck ev.action ev.index ev.profile ev.durationUs (c.evBank ev.stamp)
    (c.hsBadEvent ev → r = 4) ∧ (¬ c.hsBadEvent ev → c.hsHolds ev.index → r = 3) ∧ (¬ c.hsBadEvent ev → ¬ c.hsHolds ev.index → r = 0) := by
  by_cases inside : ev.index < 12
  · have shown : c.hsBadEvent ev ↔ (ev.action = 0 ∨ ev.action > 4 ∨ ev.profile > 63 ∨ (ev.action = 3 ∧ (ev.durationUs = 0 ∨ ev.durationUs > 16000000))) ∨
        (!c.hsEn ev.index || c.hsUpper ev.index || hpBad (hsProf (c.evBank ev.stamp) ev.profile).1 (hsProf (c.evBank ev.stamp) ev.profile).2) = true := by
      unfold Chip.hsBadEvent
      rw [Bool.or_eq_true, Bool.or_eq_true, Bool.not_eq_true']
      constructor
      · rintro (out | h) <;> [omega; tauto]
      · tauto
    have holds : c.hsHolds ev.index ↔ (c.hsHeld ⟨ev.index, inside⟩ || c.supervisor == .powerup) = true := by
      rw [Bool.or_eq_true, beq_iff_eq, or_comm]
      exact or_congr_right ⟨fun ⟨m, e, h⟩ => (Fin.ext e : m = ⟨ev.index, inside⟩) ▸ h, fun h => ⟨_, rfl, h⟩⟩
    unfold Chip.hsCheck
    rw [idx12_of_lt inside]
    exact receipt_verdict shown holds
  · have outside : 12 ≤ ev.index := Nat.not_lt.mp inside
    unfold Chip.hsCheck
    rw [idx12_of_ge outside]
    exact ⟨fun _ => rfl, fun good => absurd (.inl outside) good, fun good => absurd (.inl outside) good⟩

theorem Chip.hsReceive_refused (ev : BzEvent) {r : Nat} (refused : c.hsCheck ev.action ev.index ev.profile ev.durationUs (c.evBank ev.stamp) = r) (some_ : r ≠ 0) :
    c.hsReceive ev t = c.reply ev.id r t := by
  unfold Chip.hsReceive
  rw [refused]
  split
  · exact absurd rfl some_
  · rfl

theorem Chip.hsReceive_scheduled (ev : BzEvent) (passed : c.hsCheck ev.action ev.index ev.profile ev.durationUs (c.evBank ev.stamp) = 0) :
    c.hsReceive ev t = { c with schedule := c.schedule ++ [⟨ev, ev.fire⟩], tx := c.tx ++ [.reply ev.id 0 t] } := by
  unfold Chip.hsReceive
  rw [passed]
  rfl

/-- A due event is suppressed or takes effect; either way it leaves the schedule, and the bank it may have been waiting for retires (R327, R468, R469). -/
theorem Chip.hsFire_due {q : BzSched} (due : c.dueEvent 0 k t = some q) :
    ∃ h, c.hsFire k t = ((c.unschedule q).hsSet k h).retireBank ∧ (c.hsHeld k = true ∨ c.hsUpper k.val = true → h = c.hs[k].flag 10) ∧
      (c.hsHeld k = false → c.hsUpper k.val = false → let p := hsProf (c.evBank q.ev.stamp) q.ev.profile
        c.hs[k].Takes h q.ev.action p.1 p.2 (c.dutyOf p.1 p.2) q.ev.durationUs t) := by
  unfold Chip.hsFire
  rw [due]
  by_cases held : c.hsHeld k = true ∨ c.hsUpper k.val = true
  · have barred : (c.hsHeld k || c.hsUpper k.val) = true := by simpa using held
    refine ⟨c.hs[k].flag 10, ?_, fun _ => rfl, fun free lower => absurd held (by simp [free, lower])⟩
    simp only [barred, if_true]
    rfl
  · have free : (c.hsHeld k || c.hsUpper k.val) = false := by simpa using held
    obtain ⟨h, command, takes⟩ := (c.unschedule q).hsCommand_takes k q.ev.action (hsProf (c.evBank q.ev.stamp) q.ev.profile).1 (hsProf (c.evBank q.ev.stamp) q.ev.profile).2 q.ev.durationUs t
    refine ⟨h, ?_, fun h => absurd h held, fun _ _ => takes⟩
    simp only [free, Bool.false_eq_true, if_false]
    rw [command]

theorem Chip.hsReflex_outside (rf : BzReflex) (h : 12 ≤ rf.index) : c.hsReflex rf t = c := by
  unfold Chip.hsReflex
  rw [idx12_of_ge h]

theorem Chip.hsReflex_refused (rf : BzReflex) (index : rf.index = k.val) (bad : c.hsCheck rf.action k.val rf.profile rf.durationUs c.crest ≠ 0) :
    c.hsReflex rf t = c.hsSet k (c.hs[k].flag 10) := by
  unfold Chip.hsReflex
  rw [index, idx12_val]
  dsimp only
  split
  · exact absurd ‹_› bad
  · rfl

theorem Chip.hsReflex_takes (rf : BzReflex) (index : rf.index = k.val) (passed : c.hsCheck rf.action k.val rf.profile rf.durationUs c.crest = 0) :
    let p := hsProf c.crest rf.profile
    ∃ h, c.hsReflex rf t = c.hsSet k h ∧ c.hs[k].Takes h rf.action p.1 p.2 (c.dutyOf p.1 p.2) rf.durationUs t := by
  unfold Chip.hsReflex
  rw [index, idx12_val]
  dsimp only
  rw [passed]
  exact c.hsCommand_takes k _ _ _ _ t

/-! ### Checks (R486, R489) -/

theorem HsChan.flag_keeps (h : HsChan) (f : Nat) : h.flag f = { h with sts := h.sts ||| oneBit f, cnt := (h.flag f).cnt } := rfl

/-- One more OPEN assessment of a kind. -/
def HsChan.openRun (h : HsChan) (onKind : Bool) : HsChan :=
  if onKind then { h with olOnRun := h.olOnRun + 1, olOffRun := 0 } else { h with olOffRun := h.olOffRun + 1, olOnRun := 0 }

theorem HsChan.openRun_eq (h : HsChan) (onKind : Bool) : let run := if onKind then h.olOnRun else h.olOffRun
    h.openRun onKind = { h with olOnRun := if onKind then run + 1 else 0, olOffRun := if onKind then 0 else run + 1 } := by
  cases onKind <;> rfl

/-- An OPEN assessment (R489). -/
theorem HsChan.assess_open (h : HsChan) (count : Nat) (onKind : Bool) : let run := if onKind then h.olOnRun else h.olOffRun
    (h.ol ≠ 2 → count ≤ run + 1 → h.assess count onKind (some true) = { h.openRun onKind with ol := 2 }.flag (if onKind then 4 else 5)) ∧
    (h.ol = 2 ∨ run + 1 < count → h.assess count onKind (some true) = h.openRun onKind) := by
  have ol : (h.openRun onKind).ol = h.ol := by rw [h.openRun_eq]
  have runs : (if onKind then (h.openRun onKind).olOnRun else (h.openRun onKind).olOffRun) = (if onKind then h.olOnRun else h.olOffRun) + 1 := by
    cases onKind <;> rfl
  refine ⟨fun closed enough => if_pos ⟨fun e => closed (ol.symm.trans e), enough.trans_eq runs.symm⟩, fun stays => if_neg fun ⟨closed, enough⟩ => ?_⟩
  obtain already | few := stays
  · exact closed (ol.trans already)
  · exact absurd (enough.trans_eq runs) (Nat.not_le.mpr few)

/-- A channel without its open-load state. -/
def HsChan.sansOl (h : HsChan) : HsChan := { h with ol := 0, olOnRun := 0, olOffRun := 0, sts := 0, cnt := 0 }

theorem HsChan.openRun_sansOl (h : HsChan) (onKind : Bool) : (h.openRun onKind).sansOl = h.sansOl := by rw [h.openRun_eq]; rfl

theorem HsChan.assess_sansOl (h : HsChan) (count : Nat) (onKind : Bool) (r : Option Bool) : (h.assess count onKind r).sansOl = h.sansOl := by
  obtain _ | _ | _ := r
  · rfl
  · rfl
  · obtain ⟨opens, stays⟩ := h.assess_open count onKind
    by_cases told : h.ol ≠ 2 ∧ count ≤ (if onKind then h.olOnRun else h.olOffRun) + 1
    · rw [opens told.1 told.2]; exact h.openRun_sansOl onKind
    · rw [stays (by omega)]; exact h.openRun_sansOl onKind

theorem HsChan.assess_assessed (h : HsChan) (count : Nat) (onKind : Bool) (r : Option Bool) : h.Assessed (h.assess count onKind r) onKind count r := by
  obtain _ | _ | _ := r
  · exact ⟨fun _ => ⟨rfl, rfl, rfl, rfl⟩, fun no => by simp at no, fun no => by simp at no⟩
  · exact ⟨fun no => by simp at no, fun _ => ⟨rfl, rfl, rfl, rfl⟩, fun no => by simp at no⟩
  · obtain ⟨opens, stays⟩ := h.assess_open count onKind
    have run := h.openRun_eq onKind
    refine ⟨fun no => by simp at no, fun no => by simp at no, fun _ => ⟨?_, ?_, fun closed enough => ?_, fun still => ?_⟩⟩
    · by_cases told : h.ol ≠ 2 ∧ count ≤ (if onKind then h.olOnRun else h.olOffRun) + 1
      · rw [opens told.1 told.2, run]; rfl
      · rw [stays (by omega), run]
    · by_cases told : h.ol ≠ 2 ∧ count ≤ (if onKind then h.olOnRun else h.olOffRun) + 1
      · rw [opens told.1 told.2, run]; rfl
      · rw [stays (by omega), run]
    · rw [opens closed enough]
      cases onKind with
      | false => exact ⟨rfl, getLsbD_or_oneBit _ 5 (by decide)⟩
      | true => exact ⟨rfl, getLsbD_or_oneBit _ 4 (by decide)⟩
    · rw [stays still, run]; exact ⟨rfl, rfl⟩

/-! ### Clears of flags (R491, R493, R541) -/

theorem Chip.hsTakeLimp_turns : ∃ x, c.hsTakeLimp k t = c.hsSet k x ∧ x.sts = c.hs[k].sts ∧ x.latch = c.hs[k].latch := by
  have keeps : ∃ x, c = c.hsSet k x ∧ x.sts = c.hs[k].sts ∧ x.latch = c.hs[k].latch := ⟨_, (c.hsSet_self k).symm, rfl, rfl⟩
  have takes (act : Nat) (w0 w1 : Word) : ∃ x, c.hsCommand k act w0 w1 0 t = c.hsSet k x ∧ x.sts = c.hs[k].sts ∧ x.latch = c.hs[k].latch := by
    obtain ⟨x, e, -, -, -, -, -, -, sts, latch, -⟩ := c.hsCommand_takes k act w0 w1 0 t
    exact ⟨x, e, sts, latch⟩
  unfold Chip.hsTakeLimp
  dsimp only
  split
  · exact keeps
  · split
    · exact keeps
    · exact takes _ _ _
    · split
      · exact takes _ _ _
      · exact takes _ _ _
    · split
      · exact takes _ _ _
      · exact takes _ _ _

/-- A channel after a clear of the flags `eff`, which refused others or not (R493). -/
def HsChan.cleared (h : HsChan) (eff : Word) (refused : Bool) : HsChan :=
  let h1 := { h with sts := h.sts &&& ~~~eff, latch := h.latch &&& ~~~eff }
  if refused then h1.flag 9 else h1

theorem HsChan.cleared_eq (h : HsChan) (eff : Word) (refused : Bool) :
    h.cleared eff refused = { h with sts := (h.cleared eff refused).sts, latch := h.latch &&& ~~~eff, cnt := (h.cleared eff refused).cnt } := by
  cases refused <;> rfl

theorem HsChan.cleared_sts (h : HsChan) (eff : Word) (refused : Bool) {f : Nat} (other : f ≠ 9) : (h.cleared eff refused).sts.getLsbD f = (h.sts.getLsbD f && !eff.getLsbD f) := by
  cases refused with
  | false => exact getLsbD_andNot h.sts eff f
  | true => exact getLsbD_andNot_or_oneBit h.sts eff other

/-- The flags that a clear asks for and that stay: the fuse flag above half, the thermal flag above 160 °C (R493). -/
def Chip.hsKeeps (c : Chip) (k : Fin 12) (mask : Word) : Bool × Bool :=
  (bit mask 3 && bit c.hs[k].sts 3 && decide ((1 : Rat) / 2 < c.hs[k].x), bit mask 2 && bit c.hs[k].sts 2 && decide (320 < c.hsHot k))

/-- The flags that a clear takes away. -/
def Chip.hsEffect (c : Chip) (k : Fin 12) (mask : Word) : Word := flagsCleared mask 11 3 2 (c.hsKeeps k mask).1 (c.hsKeeps k mask).2

/-- The clear of flags that a write asks for, bit by bit (R493). -/
theorem Chip.hsClear_bits (mask : Word) {x : HsChan} (sts : x.sts = (c.hs[k].cleared (c.hsEffect k mask) ((c.hsKeeps k mask).1 || (c.hsKeeps k mask).2)).sts)
    (latch : x.latch = (c.hs[k].cleared (c.hsEffect k mask) ((c.hsKeeps k mask).1 || (c.hsKeeps k mask).2)).latch) (f : Nat) :
    (f ≠ 9 → x.sts.getLsbD f = (c.hs[k].sts.getLsbD f && !(c.hsEffect k mask).getLsbD f)) ∧ x.latch.getLsbD f = (c.hs[k].latch.getLsbD f && !(c.hsEffect k mask).getLsbD f) := by
  rw [sts, latch]
  refine ⟨fun other => HsChan.cleared_sts _ _ _ other, ?_⟩
  rw [HsChan.cleared_eq]
  exact getLsbD_andNot ..

theorem Chip.hsClear_result (mask : Word) : let h2 := c.hs[k].cleared (c.hsEffect k mask) ((c.hsKeeps k mask).1 || (c.hsKeeps k mask).2)
    ∃ x, c.hsClear k mask t = c.hsSet k x ∧ x.sts = h2.sts ∧ x.latch = h2.latch ∧ (¬ (c.hs[k].state = .fault ∧ h2.latch = 0) → x = h2) ∧
      (c.hs[k].state = .fault → h2.latch = 0 → c.supervisor ≠ .limp → x = { h2 with state := .off, act := 2 }) := by
  intro h2
  by_cases leaves : c.hs[k].state = .fault ∧ h2.latch = 0
  · have ran : c.hsClear k mask t = if c.supervisor = .limp then (c.hsSet k { h2 with state := .off, act := 2 }).hsTakeLimp k t else c.hsSet k { h2 with state := .off, act := 2 } :=
      if_pos leaves
    by_cases limp : c.supervisor = .limp
    · obtain ⟨x, takes, sts, latch⟩ := (c.hsSet k { h2 with state := .off, act := 2 }).hsTakeLimp_turns k t
      rw [Chip.hs_hsSet_same] at sts latch
      rw [Chip.hsSet_hsSet] at takes
      exact ⟨x, ran.trans ((if_pos limp).trans takes), sts, latch, fun no => absurd leaves no, fun _ _ no => absurd limp no⟩
    · exact ⟨_, ran.trans (if_neg limp), rfl, rfl, fun no => absurd leaves no, fun _ _ _ => rfl⟩
  · exact ⟨h2, if_neg leaves, rfl, rfl, fun _ => rfl, fun fault latch => absurd ⟨fault, latch⟩ leaves⟩

section
variable (mask : Word)

theorem Chip.hsKeeps_fuse : (c.hsKeeps k mask).1 = true ↔ mask.getLsbD 3 = true ∧ c.hs[k].sts.getLsbD 3 = true ∧ (1 : Rat) / 2 < c.hs[k].x := by
  rw [Chip.hsKeeps, Bool.and_eq_true, Bool.and_eq_true, decide_eq_true_iff, and_assoc]
  rfl

theorem Chip.hsKeeps_heat : (c.hsKeeps k mask).2 = true ↔ mask.getLsbD 2 = true ∧ c.hs[k].sts.getLsbD 2 = true ∧ 320 < c.hsHot k := by
  rw [Chip.hsKeeps, Bool.and_eq_true, Bool.and_eq_true, decide_eq_true_iff, and_assoc]
  rfl

/-- A clear, flag by flag, and where it leaves the channel (R491, R493). -/
theorem Chip.hsClear_clears : let h := c.hs[k]
    let fuse := mask.getLsbD 3 = true ∧ h.sts.getLsbD 3 = true ∧ (1 : Rat) / 2 < h.x
    let heat := mask.getLsbD 2 = true ∧ h.sts.getLsbD 2 = true ∧ 320 < c.hsHot k
    ∃ x, c.hsClear k mask t = c.hsSet k x ∧
      (∀ f, f < 11 → mask.getLsbD f = true → ¬ (f = 3 ∧ fuse) → ¬ (f = 2 ∧ heat) → (f ≠ 9 → x.sts.getLsbD f = false) ∧ x.latch.getLsbD f = false) ∧
      (∀ f, mask.getLsbD f = false ∨ 11 ≤ f ∨ (f = 3 ∧ fuse) ∨ (f = 2 ∧ heat) → (f ≠ 9 → x.sts.getLsbD f = h.sts.getLsbD f) ∧ x.latch.getLsbD f = h.latch.getLsbD f) ∧
      (fuse ∨ heat → x.sts.getLsbD 9 = true) ∧ (h.state ≠ .fault → x.state = h.state ∧ x.on = h.on ∧ x.act = h.act) ∧ (h.state = .fault → x.latch ≠ 0 → x.state = .fault) ∧
      (h.state = .fault → x.latch = 0 → c.supervisor ≠ .limp → x.state = .off ∧ x.act = 2) := by
  intro h fuse heat
  obtain ⟨x, ran, sts, latch, keeps, leaves⟩ := c.hsClear_result k t mask
  have bits := c.hsClear_bits k mask sts latch
  have rest := HsChan.cleared_eq h (c.hsEffect k mask) ((c.hsKeeps k mask).1 || (c.hsKeeps k mask).2)
  have isFuse : (c.hsKeeps k mask).1 = true ↔ fuse := c.hsKeeps_fuse k mask
  have isHeat : (c.hsKeeps k mask).2 = true ↔ heat := c.hsKeeps_heat k mask
  refine ⟨x, ran, fun f small asked noFuse noHeat => ?_, fun f spared => ?_, fun refused => ?_, fun free => ?_, fun fault stays => ?_, fun fault clean active => ?_⟩
  · have gone : (c.hsEffect k mask).getLsbD f = true := flagsCleared_clears small asked (by rwa [isFuse]) (by rwa [isHeat])
    obtain ⟨bitS, bitL⟩ := bits f
    rw [gone, Bool.not_true, Bool.and_false] at bitS bitL
    exact ⟨bitS, bitL⟩
  · have kept : (c.hsEffect k mask).getLsbD f = false := flagsCleared_spares (by rw [isFuse, isHeat]; exact spared)
    obtain ⟨bitS, bitL⟩ := bits f
    rw [kept, Bool.not_false, Bool.and_true] at bitS bitL
    exact ⟨bitS, bitL⟩
  · have told : ((c.hsKeeps k mask).1 || (c.hsKeeps k mask).2) = true := by rw [Bool.or_eq_true, isFuse, isHeat]; exact refused
    rw [sts, told]
    exact getLsbD_or_oneBit _ 9 (by decide)
  · rw [keeps fun both => free both.1, rest]
    exact ⟨rfl, rfl, rfl⟩
  · rw [keeps fun both => stays (latch.trans both.2), rest]
    exact fault
  · rw [leaves fault (latch.symm.trans clean) active]
    exact ⟨rfl, rfl⟩

end

/-! ### Pulses and PWM periods (R467, R472, R486) -/

theorem Chip.hsFire_early (later : ∀ q ∈ c.schedule, q.ev.kind = 0 → q.ev.index = k.val → t < q.start) : c.hsFire k t = c := by
  unfold Chip.hsFire
  rw [Chip.dueEvent_none later]

theorem Chip.hsPulseEnd_runs (runs : c.hs[k].pulseEnd = none ∨ ∃ e, c.hs[k].pulseEnd = some e ∧ t < e) : c.hsPulseEnd k t = c := by
  unfold Chip.hsPulseEnd
  obtain always | ⟨e, set, later⟩ := runs
  · rw [always]
  · rw [set]; exact if_neg (Nat.not_le.mpr later)

theorem Chip.hsPulseEnd_ends {e : Time} (set : c.hs[k].pulseEnd = some e) (ends : e ≤ t) : c.hsPulseEnd k t = c.hsCommand k 2 c.hs[k].w0 c.hs[k].w1 0 t := by
  unfold Chip.hsPulseEnd
  rw [set]
  exact if_pos ends

theorem Chip.hsPeriod_next (pwm : c.hs[k].state = .pwm) (due : c.hs[k].periodStart + 1000 * hpPeriod c.hs[k].w0 ≤ t) :
    let h := c.hs[k]
    let next := h.periodStart + 1000 * hpPeriod h.w0
    let width := onTimeNs h.nextDuty (hpPeriod h.w0) (hpStretch h.w1) (h.period + 1)
    ∃ x, c.hsPeriod k t = c.hsSet k x ∧ x.state = .pwm ∧ x.period = h.period + 1 ∧ x.periodStart = next ∧ x.duty = h.nextDuty ∧ x.offAt = next + width ∧ x.on = decide (width ≠ 0) ∧
      x.act = h.act ∧ x.w0 = h.w0 ∧ x.w1 = h.w1 ∧ x.sts = h.sts ∧ x.x = h.x ∧ x.ol = h.ol := by
  intro h next width
  obtain ⟨state, number, start, duty, ends⟩ := h.startPeriod_period next (h.period + 1) h.nextDuty
  obtain ⟨⟨act, w0, w1, -⟩, -, ⟨sts, -, -⟩, x, -, ol⟩ := HsChan.same_command (h.startPeriod_sansSwitch next (h.period + 1) h.nextDuty)
  exact ⟨_, if_pos ⟨pwm, due⟩, state.trans pwm, number, start, duty, ends, h.startPeriod_on .., act, w0, w1, sts, x, ol⟩

/-- What an assessment leaves alone. -/
theorem HsChan.assess_keeps (h : HsChan) (count : Nat) (onKind : Bool) (r : Option Bool) : let x := h.assess count onKind r
    x.state = h.state ∧ x.on = h.on ∧ x.act = h.act ∧ x.w0 = h.w0 ∧ x.w1 = h.w1 ∧ x.x = h.x :=
  have same {β : Type} (g : HsChan → β) : g (h.assess count onKind r).sansOl = g h.sansOl := congrArg g (h.assess_sansOl count onKind r)
  ⟨same HsChan.state, same HsChan.on, same HsChan.act, same HsChan.w0, same HsChan.w1, same HsChan.x⟩

theorem Chip.hsOffEdge_acts (ma : Nat) (pwm : c.hs[k].state = .pwm) (on : c.hs[k].on = true) (late : c.hs[k].offAt ≤ t)
    (inside : c.hs[k].offAt < c.hs[k].periodStart + 1000 * hpPeriod c.hs[k].w0) :
    let h := c.hs[k]
    let r := c.olOnResult k (h.offAt - h.periodStart) ma
    ∃ x, c.hsOffEdge k ma t = c.hsSet k x ∧ x.state = .pwm ∧ (x.on = false ∧ x.limUs = 0 ∧ x.act = h.act ∧ x.w0 = h.w0 ∧ x.w1 = h.w1 ∧ x.x = h.x) ∧ x.offSince = h.offAt ∧ x.olActive = true ∧
      h.Assessed x true (c.olCount k.val) r := by
  intro h r
  obtain ⟨state, lit, act, w0, w1, x⟩ := h.assess_keeps (c.olCount k.val) true r
  have on' := lit.trans on
  exact ⟨_, if_pos ⟨pwm, on, late, inside⟩, state.trans pwm, ⟨rfl, rfl, act, w0, w1, x⟩, if_pos on', congrArg (· || _) on', h.assess_assessed ..⟩

theorem Chip.hsDcCheck_acts (ma : Nat) (due : (c.hs[k].state = .onDc ∨ (c.hs[k].state = .pwm ∧ c.hs[k].periodStart + 1000 * hpPeriod c.hs[k].w0 ≤ c.hs[k].offAt)) ∧
      c.hs[k].on = true ∧ c.hs[k].onSince + 10000000 ≤ t ∧ c.hs[k].lastOnCheck + 10000000 ≤ t) :
    ∃ x, c.hsDcCheck k ma t = c.hsSet k x ∧ x.state = c.hs[k].state ∧ x.on = true ∧ x.lastOnCheck = t ∧ c.hs[k].Assessed x true (c.olCount k.val) (c.olOnResult k 50000 ma) := by
  obtain ⟨state, lit, -⟩ := c.hs[k].assess_keeps (c.olCount k.val) true (c.olOnResult k 50000 ma)
  exact ⟨_, if_pos due, state, lit.trans due.2.1, rfl, HsChan.assess_assessed ..⟩

theorem Chip.hsOlSample_acts (mv : Nat) (source : c.hs[k].olSource = true) (late : c.hs[k].offSince + 200000 ≤ t) :
    let r := if c.crank then none else some (decide (c.olOffTh k.val < mv))
    ∃ x, c.hsOlSample k mv t = c.hsSet k x ∧ x.olSource = false ∧ x.state = c.hs[k].state ∧ x.on = c.hs[k].on ∧ c.hs[k].Assessed x false (c.olCount k.val) r := by
  intro r
  obtain ⟨state, lit, -⟩ := c.hs[k].assess_keeps (c.olCount k.val) false r
  exact ⟨_, if_pos ⟨source, late⟩, rfl, state, lit, HsChan.assess_assessed ..⟩

/-! ### Overloads and their retries (R474, R475, R477) -/

theorem Chip.hsOverload_none (lim : Nat) (no : c.hs[k].on = false ∨ lim < c.hsLimTime k.val) : c.hsOverload k lim t = c.hsSet k { c.hs[k] with limUs := lim } := by
  refine if_neg fun ⟨on, long⟩ => ?_
  obtain dark | short := no
  · exact absurd (on.symm.trans dark) (by decide)
  · exact absurd long (Nat.not_le.mpr short)

theorem Chip.hsOverload_retries (lim : Nat) (on : c.hs[k].on = true) (long : c.hsLimTime k.val ≤ lim) (mode : hpInrush c.hs[k].w1 = 1) (few : c.hs[k].retries < 8) :
    c.hsOverload k lim t = c.hsSet k { (({ c.hs[k] with limUs := lim } : HsChan).turnOff t).flag 0 with state := .retryWait, waitEnd := t + 2000000, retries := c.hs[k].retries + 1 } :=
  (if_pos ⟨on, long⟩).trans (if_pos ⟨mode, few⟩)

theorem Chip.hsOverload_fails (lim : Nat) (on : c.hs[k].on = true) (long : c.hsLimTime k.val ≤ lim) (last : hpInrush c.hs[k].w1 ≠ 1 ∨ 8 ≤ c.hs[k].retries) :
    c.hsOverload k lim t = c.hsSet k (({ c.hs[k] with limUs := lim } : HsChan).fail 0 t) := by
  refine (if_pos ⟨on, long⟩).trans ((if_neg fun ⟨mode, few⟩ => ?_).trans (Chip.hsFault_hsSet ..))
  obtain other | many := last
  · exact other mode
  · exact absurd few (Nat.not_lt.mpr many)

theorem Chip.hsRetryEnd_starts {j : Int} (back : c.hs[k].state = .retryWait ∧ c.hs[k].waitEnd ≤ t ∧ j ≤ 320) :
    let h := c.hs[k]
    ∃ x, c.hsRetryEnd k j t = c.hsSet k x ∧ x.Runs (c.dutyOf h.w0 h.w1) t ∧ x.act = h.act ∧ x.w0 = h.w0 ∧ x.w1 = h.w1 ∧ x.retries = h.retries ∧ x.junction = j ∧ x.sts = h.sts := by
  intro h
  obtain ⟨⟨act, w0, w1, -⟩, ⟨retries, -⟩, ⟨sts, -, -⟩, -, junction, -⟩ := HsChan.same_command (({ h with junction := j } : HsChan).start_sansSwitch t (c.dutyOf h.w0 h.w1))
  exact ⟨_, if_pos back, HsChan.start_runs _ t _, act, w0, w1, retries, junction, sts⟩

theorem Chip.hsThermalRestart_starts {j : Int} (wait : c.hs[k].state = .thermalWait) (cool : j ≤ 320) :
    let h := c.hs[k]
    ∃ x, c.hsThermalRestart k j t = c.hsSet k x ∧ x.Runs (c.dutyOf h.w0 h.w1) t ∧ x.act = h.act ∧ x.restarts = h.restarts + 1 ∧ x.junction = j ∧ x.sts = h.sts := by
  intro h
  obtain ⟨⟨act, -⟩, ⟨-, restarts⟩, ⟨sts, -, -⟩, -, junction, -⟩ :=
    HsChan.same_command (({ h with junction := j, restarts := h.restarts + 1 } : HsChan).start_sansSwitch t (c.dutyOf h.w0 h.w1))
  exact ⟨_, if_pos ⟨wait, cool⟩, HsChan.start_runs _ t _, act, restarts, junction, sts⟩

theorem HsChan.fail_keeps_flag (h : HsChan) (f : Nat) (t : Time) {b : Nat} (told : h.sts.getLsbD b = true) : (h.fail f t).sts.getLsbD b = true := by
  show (h.sts ||| oneBit f).getLsbD b = true
  rw [BitVec.getLsbD_or, told, Bool.true_or]

/-- The channel with its junction read at 175 °C or above: the flag is set (R477). -/
def HsChan.hot (h : HsChan) (j : Int) : HsChan := ({ h with junction := j } : HsChan).flag 1

section
variable {j : Int} (above : 350 ≤ j)
include above

theorem Chip.hsThermal_held (held : c.hs[k].state = .fault) : c.hsThermal k j t = c.hsSet k (c.hs[k].hot j) :=
  (if_pos above).trans (if_pos held)

theorem Chip.hsThermal_fails (free : c.hs[k].state ≠ .fault) (most : fld (c.hsCfg k) 29 26 ≤ c.hs[k].restarts) : c.hsThermal k j t = c.hsSet k ((c.hs[k].hot j).fail 2 t) :=
  (if_pos above).trans ((if_neg free).trans ((if_pos most).trans (Chip.hsFault_hsSet ..)))

theorem Chip.hsThermal_waits (runs : c.hs[k].state = .onDc ∨ c.hs[k].state = .pwm) (more : c.hs[k].restarts < fld (c.hsCfg k) 29 26) :
    c.hsThermal k j t = c.hsSet k { (c.hs[k].hot j).turnOff t with state := .thermalWait } := by
  have free : c.hs[k].state ≠ .fault := by obtain e | e := runs <;> rw [e] <;> decide
  exact (if_pos above).trans ((if_neg free).trans ((if_neg (Nat.not_le.mpr more)).trans (if_pos runs)))

theorem Chip.hsThermal_tells (rests : c.hs[k].state = .off ∨ c.hs[k].state = .retryWait ∨ c.hs[k].state = .thermalWait) (more : c.hs[k].restarts < fld (c.hsCfg k) 29 26) :
    c.hsThermal k j t = c.hsSet k (c.hs[k].hot j) := by
  have still : c.hs[k].state ≠ .fault ∧ ¬ (c.hs[k].state = .onDc ∨ c.hs[k].state = .pwm) := by obtain e | e | e := rests <;> rw [e] <;> decide
  exact (if_pos above).trans ((if_neg still.1).trans ((if_neg (Nat.not_le.mpr more)).trans (if_neg still.2)))

end

/-! ### The mode M window, the junction, the wire model (R476, R477, R478, R480) -/

theorem Chip.hsMEnd_runs (runs : c.hs[k].mEnd = none ∨ ∃ e, c.hs[k].mEnd = some e ∧ t < e) : c.hsMEnd k t = c := by
  unfold Chip.hsMEnd
  obtain shut | ⟨e, set, later⟩ := runs
  · rw [shut]
  · rw [set]; exact if_neg (Nat.not_le.mpr later)

theorem Chip.hsMEnd_ends {e : Time} (set : c.hs[k].mEnd = some e) (ends : e ≤ t) : c.hsMEnd k t = c.hsSet k { c.hs[k] with mEnd := some 0, limUs := 0 } := by
  unfold Chip.hsMEnd
  rw [set]
  exact if_pos ends

theorem Chip.hsLimit_of_ended {x : Chip} (crest : x.crest = c.crest) (ended : x.hs[k].mEnd = some 0) : x.hsLimit k t = c.hsIlim k.val := by
  unfold Chip.hsLimit
  rw [ended]
  exact (if_neg fun within => absurd within.2 (Nat.not_lt_zero t)).trans (Chip.hsIlim_of_crest crest k.val)

theorem Chip.hsFuseUpdate_off (ma : Nat) (unset : c.hsFuse k.val = none) : c.hsFuseUpdate k ma t = c.hsSet k { c.hs[k] with current := ma } := by
  unfold Chip.hsFuseUpdate
  rw [unset]

/-- One step of the wire model, and the trip it may lead to (R478, R480). -/
theorem Chip.hsFuseUpdate_on (ma : Nat) {i tau : Nat} (set : c.hsFuse k.val = some (i, tau)) : let v := max 0 (min 4 (c.hs[k].x + (((ma : Rat) / i) ^ 2 - c.hs[k].x) * 100 / tau))
    let h := { c.hs[k] with current := ma, x := v }
    (v < 1 ∨ c.hs[k].latch.getLsbD 3 = true → c.hsFuseUpdate k ma t = c.hsSet k h) ∧
    (1 ≤ v → c.hs[k].latch.getLsbD 3 = false → c.hsFuseUpdate k ma t = c.hsSet k (h.fail 3 t)) := by
  intro v h
  have steps : c.hsFuseUpdate k ma t = (c.hsSet k h).hsFuseTrip k t := by
    unfold Chip.hsFuseUpdate
    rw [set]
    rfl
  have fuse : ((c.hsSet k h).hsFuse k.val).isSome = true := (congrArg Option.isSome set : _)
  rw [steps]
  unfold Chip.hsFuseTrip
  rw [Chip.hs_hsSet_same]
  refine ⟨fun low => if_neg fun ⟨_, one, fresh⟩ => ?_, fun one fresh => (if_pos ⟨fuse, one, fresh⟩).trans (Chip.hsFault_hsSet ..)⟩
  obtain below | latched := low
  · exact absurd one (Rat.not_le.mpr below)
  · exact absurd (latched.symm.trans fresh) (by decide)

theorem Chip.hsClampEnd_fails (uj : Nat) (dark : c.hs[k].on = false) (high : c.hsClampRating k.val < uj) :
    c.hsClampEnd k uj t = c.hsSet k (({ c.hs[k] with offSince := t, olActive := true } : HsChan).fail 7 t) :=
  (if_neg (Bool.eq_false_iff.mp dark)).trans ((if_pos high).trans (Chip.hsFault_hsSet ..))

/-! ### The off-state check (R488) -/

/-- The off-state check is due. -/
def Chip.olSourceDue (c : Chip) (k : Fin 12) (t : Time) : Prop :=
  (c.hsDiag k.val).getLsbD 1 = true ∧ c.hs[k].on = false ∧ c.hs[k].olActive = true ∧ c.hs[k].offSince + 50000 ≤ t ∧ (∀ e, c.hs[k].lastOffCheck = some e → e + 10000000 ≤ t) ∧ c.crank = false

theorem Chip.hsOlSource_result (mv : Nat) : let h1 := { c.hs[k] with lastOffCheck := some t, olActive := false }
    (¬ c.olSourceDue k t → c.hsOlSource k mv t = c) ∧
    (c.olSourceDue k t → c.hsOlSource k mv t = if c.olOffTh k.val < mv then c.hsSet k (h1.flag 6) else c.hsSet k { h1 with olSource := true }) := by
  intro h1
  let due : Bool := match c.hs[k].lastOffCheck with
    | none => true
    | some p => decide (p + 10000000 ≤ t)
  have isDue : due = true ↔ ∀ e, c.hs[k].lastOffCheck = some e → e + 10000000 ≤ t := by
    dsimp only [due]
    cases c.hs[k].lastOffCheck with
    | none => simp
    | some p => simp
  have asked : c.olSourceDue k t ↔ bit (c.hsDiag k) 1 = true ∧ (!c.hs[k].on) = true ∧ c.hs[k].olActive = true ∧ c.hs[k].offSince + 50000 ≤ t ∧ due = true ∧ (!c.crank) = true := by
    unfold Chip.olSourceDue
    rw [isDue, Bool.not_eq_true', Bool.not_eq_true']
    rfl
  exact ⟨fun no => if_neg (asked.not.mp no), fun yes => if_pos (asked.mp yes)⟩

end

/-- Settles O52: command by command, by what the chip's operation of that name does to its channel. -/
theorem chipHighSideResults : Obligations.ChipHighSideResults := by
  intro s n k ev rf ma mb lim uj mv us j mask t c h goes one off
  refine ⟨fun dark => ?dark, fun powered => ?powered⟩
  case dark =>
    have idle (f : Chip → Chip) : (Host.Outcome.next (s.onLive n f) : Host.Outcome State Fault Refusal) = .next s := congrArg _ (s.onLive_off n f dark)
    exact ⟨idle _, idle _, idle _, idle _, idle _, idle _, idle _, idle _, idle _, idle _, idle _, idle _, idle _, idle _, idle _, idle _, idle _, idle _, idle _, idle _⟩
  have stays {f : Chip → Chip} (e : f c = c) : (Host.Outcome.next (s.onLive n f) : Host.Outcome State Fault Refusal) = .next s := State.onLive_stays e
  have sends {f : Chip → Chip} {p : Chip → Prop} (hp : p (f c)) : goes (.next (s.onLive n f)) p := s.onLive_goes n f p powered hp
  have turns {f : Chip → Chip} {x : HsChan} {p : HsChan → Prop} (e : f c = c.hsSet k x) (hp : p x) : one (.next (s.onLive n f)) p := State.onLive_hsGoes powered e hp
  have gets {f : Chip → Chip} {p : HsChan → Prop} (h : ∃ x, f c = c.hsSet k x ∧ p x) : one (.next (s.onLive n f)) p := h.elim fun x hx => turns hx.1 hx.2
  refine ⟨?receive, fun later => stays (c.hsFire_early k t later), ?fire, ?second, ?reflex, fun runs => stays (c.hsPulseEnd_runs k t runs), ?pulseEnds,
    ⟨?noPeriod, fun pwm due => gets (c.hsPeriod_next k t pwm due), ?noEdge, fun pwm on late inside => gets (c.hsOffEdge_acts k t ma pwm on late inside), ?noCheck, ?check⟩, ?noOverload, ?retries, ?overload,
    ⟨?waits, ?retried⟩, ⟨?noReset, ?reset⟩, fun runs => stays (c.hsMEnd_runs k t runs), ?windowEnds, ?cool, ?hot, ?noRestart, ?restart, fun unset => turns (c.hsFuseUpdate_off k t ma unset) rfl, ?fuse, ?noComp, ?comp, ?lit, ?clampLow, ?clampHigh,
    ⟨?noSource, ?source, ?shorted⟩, ?noSample, ?sample, ⟨?even, ?uneven⟩, ?clear⟩
  case receive =>
    obtain ⟨bad, held, free⟩ := c.hsCheck_event ev
    exact ⟨fun h => sends (c.hsReceive_refused t ev (bad h) (by decide)), fun good h => sends (c.hsReceive_refused t ev (held good h) (by decide)),
      fun good h => sends (c.hsReceive_scheduled t ev (free good h))⟩
  case fire =>
    intro q due
    obtain ⟨there, kind, index, start, least⟩ := Chip.dueEvent_some due
    refine ⟨there, kind, index, start, least, sends ?_⟩
    obtain ⟨x, fired, suppressed, takes⟩ := c.hsFire_due k t due
    show (c.hsFire k t).schedule = _ ∧ _
    rw [fired, Chip.retireBank_eq]
    refine ⟨rfl, rfl, rfl, rfl, Chip.retireBank_retiring _, fun m other => Chip.hs_hsSet_ne _ x other, fun held => ?_, fun free lower => ?_⟩
    · exact (Chip.hs_hsSet_same ..).trans (suppressed held)
    · exact (Chip.hs_hsSet_same (c.unschedule q) k x).symm ▸ takes free lower
  case second => exact fun repeated => sends (if_pos repeated)
  case reflex =>
    intro fresh kind c1 p
    have first : c.reflexReceive rf t = c1.hsReflex rf t := (if_neg fresh).trans (if_pos kind)
    refine ⟨fun outside => sends (first.trans (c1.hsReflex_outside t rf outside)), fun index bad => sends ⟨_, first.trans (c1.hsReflex_refused k t rf index bad), rfl⟩, fun index passed => ?_⟩
    obtain ⟨x, e, takes⟩ := c1.hsReflex_takes k t rf index passed
    exact sends ⟨x, first.trans e, takes⟩
  case pulseEnds =>
    intro e set ends
    obtain ⟨x, command, takes⟩ := c.hsCommand_takes k 2 h.w0 h.w1 0 t
    exact turns ((c.hsPulseEnd_ends k t set ends).trans command) takes
  case noPeriod => exact fun no => stays (if_neg fun due => no.elim (fun other => other due.1) fun early => absurd due.2 (Nat.not_le.mpr early))
  case noEdge => exact fun no => stays (if_neg fun ⟨pwm, on, late, inside⟩ => by
    obtain other | dark | early | whole := no
    exacts [other pwm, absurd (on.symm.trans dark) (by decide), absurd late (Nat.not_le.mpr early), absurd inside (Nat.not_lt.mpr whole)])
  case noCheck => exact fun no => stays (if_neg no)
  case check => exact fun due => gets (c.hsDcCheck_acts k t ma due)
  case noOverload => exact fun no => turns (c.hsOverload_none k t lim no) rfl
  case retries => exact fun on long mode few => turns (c.hsOverload_retries k t lim on long mode few) ⟨rfl, ⟨rfl, rfl, rfl, rfl, rfl, rfl⟩, rfl, rfl, rfl, rfl⟩
  case overload => exact fun on long last => turns (c.hsOverload_fails k t lim on long last) (HsChan.fail_faulted _ t (by decide))
  case waits => exact fun no => turns (if_neg no) rfl
  case retried => exact fun back => gets (c.hsRetryEnd_starts k t back)
  case noReset => exact fun no => stays (if_neg no)
  case reset => exact fun calm => turns (if_pos calm) rfl
  case windowEnds =>
    intro e set ends
    have ran := c.hsMEnd_ends k t set ends
    refine ⟨turns ran ⟨rfl, rfl, rfl, rfl, rfl⟩, _, rfl, fun t' _ => ?_⟩
    have here : (s.onLive n fun c => c.hsMEnd k t).chips[n] = c.hsMEnd k t := by rw [s.onLive_on n _ powered, s.onChip_same]
    rw [here, ran]
    exact c.hsLimit_of_ended k t' rfl (congrArg HsChan.mEnd (c.hs_hsSet_same k _))
  case cool => exact fun below => turns (if_neg (Int.not_le.mpr below)) rfl
  case hot =>
    intro above most
    exact ⟨fun held => turns (c.hsThermal_held k t above held) ⟨held, rfl, rfl, rfl⟩,
      fun free last => turns (c.hsThermal_fails k t above free last) ⟨HsChan.fail_faulted _ t (by decide), HsChan.fail_keeps_flag _ 2 t (getLsbD_or_oneBit _ 1 (by decide)), rfl⟩,
      fun runs more => turns (c.hsThermal_waits k t above runs more) ⟨rfl, ⟨rfl, rfl, rfl, rfl, rfl, rfl⟩, rfl, rfl, rfl⟩,
      fun rests more => turns (c.hsThermal_tells k t above rests more) ⟨rfl, rfl, rfl, rfl⟩⟩
  case noRestart => exact fun no => turns (if_neg fun ⟨wait, cool⟩ => no.elim (fun other => other wait) fun hot => absurd cool (Int.not_le.mpr hot)) rfl
  case restart => exact fun wait cool => gets (c.hsThermalRestart_starts k t wait cool)
  case fuse =>
    intro i tau set v
    obtain ⟨holds, trips⟩ := c.hsFuseUpdate_on k t ma set
    exact ⟨fun low => turns (holds low) rfl, fun one fresh => turns (trips one fresh) ⟨HsChan.fail_faulted _ t (by decide), rfl, rfl⟩⟩
  case noComp => exact fun no => stays (if_neg fun ⟨pwm, comp⟩ => no.elim (fun other => other pwm) fun plain => absurd (comp.symm.trans plain) (by decide))
  case comp => exact fun pwm comp => turns (if_pos ⟨pwm, comp⟩) rfl
  case lit => exact fun on => stays (if_pos on)
  case clampLow => exact fun dark low => turns ((if_neg (Bool.eq_false_iff.mp dark)).trans (if_neg (Nat.not_lt.mpr low))) rfl
  case clampHigh => exact fun dark high => turns (c.hsClampEnd_fails k t uj dark high) (HsChan.fail_faulted _ t (by decide))
  case noSource => exact fun no => stays ((c.hsOlSource_result k t mv).1 no)
  case source => exact fun due low => turns (((c.hsOlSource_result k t mv).2 due).trans (if_neg (Nat.not_lt.mpr low))) rfl
  case shorted => exact fun due high => turns (((c.hsOlSource_result k t mv).2 due).trans (if_pos high)) ⟨rfl, rfl, rfl, rfl, rfl, rfl⟩
  case noSample => exact fun no => stays (if_neg fun ⟨source, late⟩ => no.elim (fun off => absurd (source.symm.trans off) (by decide)) fun early => absurd late (Nat.not_le.mpr early))
  case sample => exact fun source late => gets (c.hsOlSample_acts k t mv source late)
  case even => exact fun no => stays (if_neg no)
  case uneven => exact fun yes => turns (if_pos yes) (HsChan.fail_faulted _ t (by decide))
  case clear =>
    obtain ⟨x, ran, flags⟩ := (c.hsSet k { h with junction := j }).hsClear_clears k t mask
    rw [Chip.hs_hsSet_same] at flags
    exact turns (ran.trans (c.hsSet_hsSet k _ x)) flags

end Sys2Proof.Machine
end

section
/-! SUPPORT. The solenoid outputs of a BZ31 (19 R496 to R531): what an operation of one output leaves alone, how a current decays, how a phase begins. -/

namespace Sys2Proof.Machine

/-! ### Reads after writes -/

section
variable (c : Chip)

@[simp] theorem Chip.sol_solSet_same (n : Fin 12) (o : SolOut) : (c.solSet n o).sol[n] = o := by simp [Chip.solSet]
@[simp] theorem Chip.bank_bankSet_same (b : Fin 3) (k : SolBank) : (c.bankSet b k).bank[b] = k := by simp [Chip.bankSet]
@[simp] theorem Chip.solSet_solSet (n : Fin 12) (o o' : SolOut) : (c.solSet n o).solSet n o' = c.solSet n o' := by simp [Chip.solSet]
@[simp] theorem Chip.bankSet_bankSet (b : Fin 3) (k k' : SolBank) : (c.bankSet b k).bankSet b k' = c.bankSet b k' := by simp [Chip.bankSet]
@[simp] theorem Chip.solSet_self (n : Fin 12) : c.solSet n c.sol[n] = c := by simp [Chip.solSet]
@[simp] theorem Chip.bankSet_self (b : Fin 3) : c.bankSet b c.bank[b] = c := by simp [Chip.bankSet]

theorem Chip.sol_solSet_ne {n m : Fin 12} (o : SolOut) (ne : m ≠ n) : (c.solSet n o).sol[m] = c.sol[m] := by
  have : n.val ≠ m.val := fun e => ne (Fin.ext e.symm)
  simp [Chip.solSet, this]

theorem Chip.bank_bankSet_ne {b m : Fin 3} (k : SolBank) (ne : m ≠ b) : (c.bankSet b k).bank[m] = c.bank[m] := by
  have : b.val ≠ m.val := fun e => ne (Fin.ext e.symm)
  simp [Chip.bankSet, this]

end

/-! ### Operations of one output -/

/-- A chip without its solenoid outputs and banks: everything that no operation of an output moves, but for the limp entries that wait. -/
def Chip.sansSol (c : Chip) : Chip := { c with sol := .replicate 12 {}, bank := .replicate 3 {}, limpPend := [] }

/-- `x` is `c` but for output `n`, its bank, and the limp entries that wait. -/
structure Chip.SolActs (c x : Chip) (n : Fin 12) : Prop where
  rest : x.sansSol = c.sansSol
  outs : ∀ m : Fin 12, m ≠ n → x.sol[m] = c.sol[m]
  banks : ∀ m : Fin 3, m ≠ bankOf n → x.bank[m] = c.bank[m]

namespace Chip.SolActs
variable {c x y : Chip} {n : Fin 12}

theorem refl (c : Chip) (n : Fin 12) : c.SolActs c n := ⟨rfl, fun _ _ => rfl, fun _ _ => rfl⟩

theorem trans (h : c.SolActs x n) (h' : x.SolActs y n) : c.SolActs y n :=
  ⟨h'.rest.trans h.rest, fun m ne => (h'.outs m ne).trans (h.outs m ne), fun m ne => (h'.banks m ne).trans (h.banks m ne)⟩

theorem solSet (h : c.SolActs x n) (o : SolOut) : c.SolActs (x.solSet n o) n := h.trans ⟨rfl, fun _ ne => x.sol_solSet_ne o ne, fun _ _ => rfl⟩

theorem bankSet (h : c.SolActs x n) (k : SolBank) : c.SolActs (x.bankSet (bankOf n) k) n := h.trans ⟨rfl, fun _ _ => rfl, fun _ ne => x.bank_bankSet_ne k ne⟩

theorem limpPend (h : c.SolActs x n) (l : List Nat) : c.SolActs { x with limpPend := l } n := h.trans ⟨rfl, fun _ _ => rfl, fun _ _ => rfl⟩

/-- What else of a chip stays. -/
theorem fields (h : c.SolActs x n) : x.hs = c.hs ∧ x.schedule = c.schedule ∧ x.crest = c.crest ∧ x.tx = c.tx ∧ x.vBst = c.vBst :=
  have via {β : Type} (g : Chip → β) : g x.sansSol = g c.sansSol := congrArg g h.rest
  ⟨via Chip.hs, via Chip.schedule, via Chip.crest, via Chip.tx, via Chip.vBst⟩

end Chip.SolActs

/-! ### A decay (R502, R527) -/

/-- An output whose current is left to decay (R502); one without current goes straight on. -/
def SolOut.decays (o : SolOut) (fast toFault : Bool) (t : Time) : SolOut :=
  let o1 := { o with low := false, toFault := toFault, reflex := false, tripPending := false }
  if o.running then { o1 with phase := .decay, fast := fast, phaseStart := t, dipVerdict := if o.phase = .peak then 0 else o.dipVerdict }
  else if o.phase = .decay then { o1 with fast := o.fast || fast, toFault := o.toFault || toFault }
  else if toFault then { o1 with phase := .fault, toFault := false, kinkVerdict := if o.phase = .rest then 0 else o.kinkVerdict }
  else { o1 with toFault := false }

section
variable (o : SolOut) (fast toFault : Bool) (t : Time)

theorem SolOut.decays_running {o : SolOut} (running : o.running = true) : o.decays fast toFault t =
    { o with low := false, toFault := toFault, reflex := false, tripPending := false, phase := .decay, fast := fast, phaseStart := t, dipVerdict := if o.phase = .peak then 0 else o.dipVerdict } :=
  if_pos running

theorem SolOut.decays_decaying {o : SolOut} (running : ¬ o.running = true) (decay : o.phase = .decay) : o.decays fast toFault t =
    { o with low := false, reflex := false, tripPending := false, fast := o.fast || fast, toFault := o.toFault || toFault } :=
  (if_neg running).trans (if_pos decay)

theorem SolOut.decays_holding {o : SolOut} (running : ¬ o.running = true) (decay : o.phase ≠ .decay) : o.decays fast true t =
    { o with low := false, reflex := false, tripPending := false, phase := .fault, toFault := false, kinkVerdict := if o.phase = .rest then 0 else o.kinkVerdict } :=
  (if_neg running).trans ((if_neg decay).trans (if_pos rfl))

theorem SolOut.decays_still {o : SolOut} (running : ¬ o.running = true) (decay : o.phase ≠ .decay) : o.decays fast false t =
    { o with low := false, reflex := false, tripPending := false, toFault := false } :=
  (if_neg running).trans ((if_neg decay).trans (if_neg Bool.false_ne_true))

/-- What a decay moves of an output is its phase, its switches and its verdicts; its flags, its profile and its models stay. -/
theorem SolOut.decays_keeps : let x := o.decays fast toFault t
    (x.low = false ∧ x.reflex = false ∧ x.tripPending = false) ∧ (x.sts = o.sts ∧ x.latch = o.latch ∧ x.cnt = o.cnt) ∧ x.prof = o.prof ∧ x.dt = o.dt ∧ x.warm = o.warm := by
  by_cases running : o.running = true
  · rw [SolOut.decays_running fast toFault t running]; exact ⟨⟨rfl, rfl, rfl⟩, ⟨rfl, rfl, rfl⟩, rfl, rfl, rfl⟩
  by_cases decay : o.phase = .decay
  · rw [SolOut.decays_decaying fast toFault t running decay]; exact ⟨⟨rfl, rfl, rfl⟩, ⟨rfl, rfl, rfl⟩, rfl, rfl, rfl⟩
  cases toFault with
  | true => rw [SolOut.decays_holding fast t running decay]; exact ⟨⟨rfl, rfl, rfl⟩, ⟨rfl, rfl, rfl⟩, rfl, rfl, rfl⟩
  | false => rw [SolOut.decays_still fast t running decay]; exact ⟨⟨rfl, rfl, rfl⟩, ⟨rfl, rfl, rfl⟩, rfl, rfl, rfl⟩

theorem SolOut.decays_toFault {o : SolOut} (heals : o.toFault = false) : (o.decays fast false t).toFault = false := by
  by_cases running : o.running = true
  · rw [SolOut.decays_running fast false t running]
  by_cases decay : o.phase = .decay
  · rw [SolOut.decays_decaying fast false t running decay]
    exact congrArg (· || false) heals
  · rw [SolOut.decays_still fast t running decay]

theorem SolOut.still_not_running {o : SolOut} (still : o.phase = .idle ∨ o.phase = .rest) : ¬ o.running = true ∧ o.phase ≠ .decay := by
  unfold SolOut.running SolOut.peaking
  obtain e | e := still <;> rw [e] <;> decide

theorem SolOut.decays_fault {o : SolOut} (still : o.phase = .idle ∨ o.phase = .rest) : (o.decays fast true t).phase = .fault := by
  obtain ⟨running, decay⟩ := SolOut.still_not_running still
  rw [SolOut.decays_holding fast t running decay]

end

section
variable (c : Chip) (n : Fin 12) (t : Time)

/-- A bank whose high-side may turn off moves its source alone (R502). -/
theorem Chip.bankRest_eq (b : Fin 3) : ∃ src vs, c.bankRest b = c.bankSet b { c.bank[b] with source := src, vsAt := vs } := by
  unfold Chip.bankRest
  split
  · exact ⟨c.bank[b].source, c.bank[b].vsAt, (c.bankSet_self b).symm⟩
  · exact ⟨0, none, rfl⟩

/-- Before its bank rests, a decaying output moves itself and the time at which its bank returns to VS. -/
theorem Chip.solDecay_rests (fast toFault : Bool) : ∃ vs, c.solDecay n fast toFault t =
    Chip.bankRest ((c.solSet n (c.sol[n].decays fast toFault t)).bankSet (bankOf n) { c.bank[bankOf n] with vsAt := vs }) (bankOf n) := by
  have plain (o : SolOut) : c.solSet n o = (c.solSet n o).bankSet (bankOf n) { c.bank[bankOf n] with vsAt := c.bank[bankOf n].vsAt } := ((c.solSet n o).bankSet_self (bankOf n)).symm
  have rests {x y : Chip} (e : x = y) : x.bankRest (bankOf n) = y.bankRest (bankOf n) := congrArg (Chip.bankRest · _) e
  by_cases running : c.sol[n].running = true
  · rw [SolOut.decays_running fast toFault t running]
    by_cases peaking : c.sol[n].peaking = true
    · exact ⟨_, rests ((if_pos running).trans (if_pos peaking))⟩
    · exact ⟨_, rests ((if_pos running).trans ((if_neg peaking).trans (plain _)))⟩
  by_cases decay : c.sol[n].phase = .decay
  · rw [SolOut.decays_decaying fast toFault t running decay]
    exact ⟨_, rests ((if_neg running).trans ((if_pos decay).trans (plain _)))⟩
  cases toFault with
  | true =>
    rw [SolOut.decays_holding fast t running decay]
    exact ⟨_, rests ((if_neg running).trans ((if_neg decay).trans ((if_pos rfl).trans (plain _))))⟩
  | false =>
    rw [SolOut.decays_still fast t running decay]
    exact ⟨_, rests ((if_neg running).trans ((if_neg decay).trans ((if_neg Bool.false_ne_true).trans (plain _))))⟩

theorem Chip.solDecay_eq (fast toFault : Bool) : ∃ src vs, c.solDecay n fast toFault t =
    (c.solSet n (c.sol[n].decays fast toFault t)).bankSet (bankOf n) { c.bank[bankOf n] with source := src, vsAt := vs } := by
  obtain ⟨vs, e⟩ := c.solDecay_rests n t fast toFault
  obtain ⟨src, vs', e'⟩ := ((c.solSet n (c.sol[n].decays fast toFault t)).bankSet (bankOf n) { c.bank[bankOf n] with vsAt := vs }).bankRest_eq (bankOf n)
  rw [Chip.bank_bankSet_same, Chip.bankSet_bankSet] at e'
  exact ⟨src, vs', e.trans e'⟩

theorem Chip.solDecay_acts (fast toFault : Bool) : c.SolActs (c.solDecay n fast toFault t) n := by
  obtain ⟨src, vs, e⟩ := c.solDecay_eq n t fast toFault
  rw [e]
  exact ((Chip.SolActs.refl c n).solSet _).bankSet _

@[simp] theorem Chip.solDecay_sol (fast toFault : Bool) : (c.solDecay n fast toFault t).sol[n] = c.sol[n].decays fast toFault t := by
  obtain ⟨src, vs, e⟩ := c.solDecay_eq n t fast toFault
  rw [e]
  exact Chip.sol_solSet_same ..

/-! ### A fault (R527, R528) -/

/-- An output that a latching diagnostic sends toward the fault hold. -/
def SolOut.fails (o : SolOut) (f : Nat) (t : Time) : SolOut := ({ o.flag f with latch := o.latch ||| oneBit f } : SolOut).decays true true t

theorem Chip.solFault_acts (f : Nat) : c.SolActs (c.solFault n f t) n :=
  ((Chip.SolActs.refl c n).solSet _).trans (Chip.solDecay_acts ..)

@[simp] theorem Chip.solFault_sol (f : Nat) : (c.solFault n f t).sol[n] = c.sol[n].fails f t := by
  rw [Chip.solFault, Chip.solDecay_sol, Chip.sol_solSet_same]
  rfl

/-- A fault moves the source of its bank alone. -/
theorem Chip.solFault_bank (f : Nat) : ∃ src vs, (c.solFault n f t).bank[bankOf n] = { c.bank[bankOf n] with source := src, vsAt := vs } := by
  obtain ⟨src, vs, e⟩ := (c.solSet n { c.sol[n].flag f with latch := c.sol[n].latch ||| oneBit f }).solDecay_eq n t true true
  exact ⟨src, vs, by rw [Chip.solFault, e, Chip.bank_bankSet_same]; rfl⟩

theorem SolOut.fails_keeps (o : SolOut) (f : Nat) : let x := o.fails f t
    x.low = false ∧ x.sts = o.sts ||| oneBit f ∧ x.latch = o.latch ||| oneBit f ∧ x.dt = o.dt ∧ x.warm = o.warm := by
  obtain ⟨⟨low, -, -⟩, ⟨sts, latch, -⟩, -, dt, warm⟩ := ({ o.flag f with latch := o.latch ||| oneBit f } : SolOut).decays_keeps true true t
  exact ⟨low, sts, latch, dt, warm⟩

theorem SolOut.fails_failing {o : SolOut} {f : Nat} (small : f < 32) (running : o.running = true) : (o.fails f t).Failing f := by
  unfold SolOut.fails
  rw [SolOut.decays_running _ _ _ (o := { o.flag f with latch := o.latch ||| oneBit f }) running]
  exact ⟨rfl, rfl, rfl, rfl, getLsbD_or_oneBit _ _ small, getLsbD_or_oneBit _ _ small⟩

theorem SolOut.fails_fault {o : SolOut} (f : Nat) (still : o.phase = .idle ∨ o.phase = .rest) : (o.fails f t).phase = .fault := SolOut.decays_fault true t still

end

/-! ### The start of a profile (R502, R505) -/

/-- An output that takes a profile, before its first phase. -/
def SolOut.begun (o : SolOut) (p : SolProf) (reflex : Bool) (t : Time) : SolOut :=
  { o with
    w0 := p.w0, w1 := p.w1, w2 := p.w2, w3 := p.w3, phaseStart := t, reflex := reflex, openSuspect := false
    frozen := 0, peakSample := none, toFault := false
    dipVerdict := if o.phase = SolPhase.peak then 0 else o.dipVerdict
    kinkVerdict := if o.phase = SolPhase.rest ∨ o.phase = SolPhase.decay then 0 else o.kinkVerdict }

section
variable (c : Chip) (n : Fin 12) {p : SolProf} (reflex : Bool) (t : Time)

theorem Chip.solBegin_peak (peak : p.peakI ≠ 0) : c.solBegin n p reflex t = (c.solSet n { c.sol[n].begun p reflex t with phase := .peak, peakStart := t, low := true }).bankSet (bankOf n)
    { c.bank[bankOf n].noProbe.toSource (if p.boost then 2 else 1) t with vsAt := none } := if_pos peak

theorem Chip.solBegin_hold (peak : p.peakI = 0) (hold : p.holdI ≠ 0) : c.solBegin n p reflex t = (c.solSet n { c.sol[n].begun p reflex t with phase := .hold, low := true }).bankSet (bankOf n)
    (let k := c.bank[bankOf n].noProbe; if k.source = 0 then k.toSource 1 t else if c.sol[n].peaking then { k with vsAt := some (t + 20000) } else k) :=
  (if_neg (not_not.mpr peak)).trans (if_pos hold)

theorem Chip.solBegin_idle (peak : p.peakI = 0) (hold : p.holdI = 0) (idle : c.sol[n].phase = .idle) :
    c.solBegin n p reflex t = c.solSet n { c.sol[n].begun p reflex t with phase := .idle } :=
  (if_neg (not_not.mpr peak)).trans ((if_neg (not_not.mpr hold)).trans (if_pos idle))

theorem Chip.solBegin_decay (peak : p.peakI = 0) (hold : p.holdI = 0) (decay : c.sol[n].phase = .decay) :
    c.solBegin n p reflex t = c.solSet n { c.sol[n].begun p reflex t with fast := p.fastEnd } :=
  (if_neg (not_not.mpr peak)).trans ((if_neg (not_not.mpr hold)).trans ((if_neg (by rw [decay]; decide)).trans (if_pos decay)))

theorem Chip.solBegin_ends (peak : p.peakI = 0) (hold : p.holdI = 0) (idle : c.sol[n].phase ≠ .idle) (decay : c.sol[n].phase ≠ .decay) :
    c.solBegin n p reflex t = (c.solSet n { c.sol[n].begun p reflex t with phase := if c.sol[n].phase = SolPhase.rest then .hold else c.sol[n].phase }).solDecay n p.fastEnd false t :=
  (if_neg (not_not.mpr peak)).trans ((if_neg (not_not.mpr hold)).trans ((if_neg idle).trans (if_neg decay)))

/-- A profile's start acts on its output, whose flags it leaves and whose way to a fault it ends. -/
theorem Chip.solBegin_keeps (p : SolProf) : let x := c.solBegin n p reflex t
    c.SolActs x n ∧ (x.sol[n]).sts = c.sol[n].sts ∧ (x.sol[n]).latch = c.sol[n].latch ∧ (x.sol[n]).toFault = false := by
  have set (o : SolOut) (sts : o.sts = c.sol[n].sts) (latch : o.latch = c.sol[n].latch) (heals : o.toFault = false) :
      c.SolActs (c.solSet n o) n ∧ ((c.solSet n o).sol[n]).sts = c.sol[n].sts ∧ ((c.solSet n o).sol[n]).latch = c.sol[n].latch ∧ ((c.solSet n o).sol[n]).toFault = false := by
    rw [Chip.sol_solSet_same]
    exact ⟨(Chip.SolActs.refl c n).solSet o, sts, latch, heals⟩
  have banked (o : SolOut) (k : SolBank) (sts : o.sts = c.sol[n].sts) (latch : o.latch = c.sol[n].latch) (heals : o.toFault = false) := (set o sts latch heals).imp (·.bankSet k) id
  by_cases peak : p.peakI ≠ 0
  · rw [c.solBegin_peak n reflex t peak]; exact banked _ _ rfl rfl rfl
  rw [not_not] at peak
  by_cases hold : p.holdI ≠ 0
  · rw [c.solBegin_hold n reflex t peak hold]; exact banked _ _ rfl rfl rfl
  rw [not_not] at hold
  by_cases idle : c.sol[n].phase = .idle
  · rw [c.solBegin_idle n reflex t peak hold idle]; exact set _ rfl rfl rfl
  by_cases decay : c.sol[n].phase = .decay
  · rw [c.solBegin_decay n reflex t peak hold decay]; exact set _ rfl rfl rfl
  rw [c.solBegin_ends n reflex t peak hold idle decay]
  dsimp only
  rw [Chip.solDecay_sol, Chip.sol_solSet_same]
  obtain ⟨-, ⟨sts, latch, -⟩, -⟩ := SolOut.decays_keeps { c.sol[n].begun p reflex t with phase := if c.sol[n].phase = SolPhase.rest then .hold else c.sol[n].phase } p.fastEnd false t
  exact ⟨((Chip.SolActs.refl c n).solSet _).trans (Chip.solDecay_acts ..), sts, latch, SolOut.decays_toFault _ _ rfl⟩

end

/-! ### All outputs in turn -/

/-- `x` is `c` but for the outputs, bank `b`, and the limp entries that wait. -/
structure Chip.BankActs (c x : Chip) (b : Fin 3) : Prop where
  rest : x.sansSol = c.sansSol
  banks : ∀ m : Fin 3, m ≠ b → x.bank[m] = c.bank[m]

namespace Chip.BankActs
variable {c x y : Chip} {b : Fin 3}

theorem refl (c : Chip) (b : Fin 3) : c.BankActs c b := ⟨rfl, fun _ _ => rfl⟩

theorem trans (h : c.BankActs x b) (h' : x.BankActs y b) : c.BankActs y b := ⟨h'.rest.trans h.rest, fun m ne => (h'.banks m ne).trans (h.banks m ne)⟩

theorem bankSet (h : c.BankActs x b) (k : SolBank) : c.BankActs (x.bankSet b k) b := h.trans ⟨rfl, fun _ ne => x.bank_bankSet_ne k ne⟩

/-- What else of a chip stays. -/
theorem fields (h : c.BankActs x b) : x.hs = c.hs ∧ x.schedule = c.schedule ∧ x.crest = c.crest ∧ x.tx = c.tx ∧ x.vBst = c.vBst :=
  have via {β : Type} (g : Chip → β) : g x.sansSol = g c.sansSol := congrArg g h.rest
  ⟨via Chip.hs, via Chip.schedule, via Chip.crest, via Chip.tx, via Chip.vBst⟩

/-- Steps that act on the bank alone act on it alone together. -/
theorem foldl {β : Type} (f : Chip → β → Chip) (step : ∀ (a : Chip) m, a.BankActs (f a m) b) (l : List β) (c : Chip) : c.BankActs (l.foldl f c) b := by
  induction l generalizing c with
  | nil => exact refl c b
  | cons m l ih => exact (step c m).trans (ih (f c m))

end Chip.BankActs

/-- An operation of an output acts on its bank. -/
theorem Chip.SolActs.onBank {c x : Chip} {n : Fin 12} (h : c.SolActs x n) : c.BankActs x (bankOf n) := ⟨h.rest, h.banks⟩

section
variable {β ι δ : Type} (rest : Chip → β) (get : Chip → ι → δ) (f : Chip → ι → Chip) (q : ι → δ → δ → Prop) (c : Chip)

/-- An operation that goes through some parts of the chip and acts on each one alone, by what the rest says, leaves each as its own step does. -/
theorem Chip.foldl_each (frame : ∀ a m, rest (f a m) = rest a) (outs : ∀ a m m', m' ≠ m → get (f a m) m' = get a m') (own : ∀ a m, rest a = rest c → q m (get a m) (get (f a m) m))
    {l : List ι} (once : l.Nodup) {m : ι} (mem : m ∈ l) : q m (get c m) (get (l.foldl f c) m) := by
  have run (l : List ι) (once : l.Nodup) (a : Chip) (same : rest a = rest c) : (m ∉ l → get (l.foldl f a) m = get a m) ∧ (m ∈ l → q m (get a m) (get (l.foldl f a) m)) := by
    induction l generalizing a with
    | nil => exact ⟨fun _ => rfl, fun no => absurd no List.not_mem_nil⟩
    | cons n l ih =>
      obtain ⟨fresh, once⟩ := List.nodup_cons.mp once
      obtain ⟨out, inside⟩ := ih once (f a n) ((frame a n).trans same)
      refine ⟨fun no => ?_, fun yes => ?_⟩
      · obtain ⟨ne, no⟩ := not_or.mp (List.mem_cons.not.mp no)
        exact (out no).trans (outs a n m ne)
      · by_cases here : m = n
        · subst here
          exact out fresh ▸ own a m same
        · have later := inside ((List.mem_cons.mp yes).resolve_left here)
          rw [outs a n m here] at later
          exact later
  exact (run l once c rfl).2 mem

end

/-- The same for the outputs. -/
theorem Chip.foldl_outputs {β : Type} (rest : Chip → β) (f : Chip → Fin 12 → Chip) (q : Fin 12 → SolOut → SolOut → Prop) (c : Chip)
    (frame : ∀ a m, rest (f a m) = rest a) (outs : ∀ a m m', m' ≠ m → (f a m).sol[m'] = a.sol[m']) (own : ∀ a m, rest a = rest c → q m a.sol[m] (f a m).sol[m]) (m : Fin 12) :
    q m c.sol[m] ((List.finRange 12).foldl f c).sol[m] :=
  Chip.foldl_each rest (fun a m => a.sol[m]) f q c frame outs own (List.nodup_finRange 12) (List.mem_finRange m)

end Sys2Proof.Machine
end

section
/-! SUPPORT. The phases of a BZ31's solenoid outputs (19 R502 to R504, R518 to R522, R526, R527): obligation O53. -/

namespace Sys2Proof.Machine

/-! ### Commands at a chip that act on one output -/

section
variable {s : State} {n : Fin 4} {k : Fin 12} {f : Chip → Chip}

theorem State.onLive_solGoes {o : SolOut} {p : SolOut → Prop} (on : s.chips[n].powered = true) (turns : f s.chips[n] = s.chips[n].solSet k o) (hp : p o) :
    s.ChipGoes n (.next (s.onLive n f)) fun x => s.chips[n].SolGoes x k p :=
  s.onLive_goes n f _ on ⟨o, turns, hp⟩

end

theorem SolOut.running_of_phase {o : SolOut} (h : o.phase = .peak ∨ o.phase = .dwell ∨ o.phase = .hold) : o.running = true := by
  unfold SolOut.running SolOut.peaking
  obtain e | e | e := h <;> rw [e] <;> rfl

/-! ### The movement searches (R518 to R521) -/

theorem SolOut.flag_sts (o : SolOut) {f : Nat} (small : f < 32) : (o.flag f).sts.getLsbD f = true := getLsbD_or_oneBit _ _ small

/-- A search result enters its baseline as R520 and R521 say, and sets the flag of its verdict. -/
theorem Baseline.take_took (b : Baseline) (tolUs : Nat) (r : Option Nat) (o : SolOut) :
    b.Took (b.take tolUs r).1 tolUs r (b.take tolUs r).2.1 (o.flagOpt (b.take tolUs r).2.2).sts := by
  have absent {m : Nat} {p : Prop} (h : r = some m) (none : r = none) : p := absurd (h.symm.trans none) (Option.some_ne_none m)
  have apart {p : Prop} (l : b.learning = true) (l' : b.learning = false) : p := absurd (l.symm.trans l') (by decide)
  cases r with
  | none =>
    refine ⟨fun m h => absent h rfl, fun m h => absent h rfl, fun m h => absent h rfl, fun _ made => ?_, fun _ learns => ?_⟩
    · have e : b.take tolUs none = (b, 2, some 8) := if_neg (Bool.eq_false_iff.mp made)
      rw [e]
      exact ⟨rfl, rfl, o.flag_sts (by decide)⟩
    · by_cases last : b.fails + 1 = 32
      · have e : b.take tolUs none = ({ b with fails := 0 }, 0, some 10) := (if_pos learns).trans (if_pos last)
        rw [e, if_pos last]
        exact ⟨rfl, rfl, fun _ => o.flag_sts (by decide)⟩
      · have e : b.take tolUs none = ({ b with fails := b.fails + 1 }, 0, none) := (if_pos learns).trans (if_neg last)
        rw [e, if_neg last]
        exact ⟨rfl, rfl, fun h => absurd h last⟩
  | some m =>
    have same {m' : Nat} (h : some m = some m') : m' = m := (Option.some.inj h).symm
    refine ⟨fun m' h learns => ?_, fun m' h made near => ?_, fun m' h made far => ?_, fun no => absent rfl no, fun no => absent rfl no⟩
    · rw [same h]
      by_cases whole : b.found + 1 = 8
      · have e : b.take tolUs (some m) = ({ b with sum := b.sum + m, found := b.found + 1, fails := 0, learning := false, base := (b.sum + m + 4) / 8 }, 0, none) := (if_pos learns).trans (if_pos whole)
        rw [e]
        exact ⟨rfl, rfl, rfl, rfl, fun _ => ⟨rfl, rfl⟩, fun no => absurd whole no⟩
      · have e : b.take tolUs (some m) = ({ b with sum := b.sum + m, found := b.found + 1, fails := 0 }, 0, none) := (if_pos learns).trans (if_neg whole)
        rw [e]
        exact ⟨rfl, rfl, rfl, rfl, fun h => absurd h whole, fun _ => learns⟩
    · rw [same h] at near ⊢
      have e : b.take tolUs (some m) = ({ b with base := ((b.base : Int) + ((m : Int) - b.base).tdiv 16).toNat }, 1, none) := (if_neg (Bool.eq_false_iff.mp made)).trans (if_pos near)
      rw [e]
      exact ⟨rfl, rfl⟩
    · rw [same h] at far
      have e : b.take tolUs (some m) = (b, 3, some 9) := (if_neg (Bool.eq_false_iff.mp made)).trans (if_neg (Nat.not_le.mpr far))
      rw [e]
      exact ⟨rfl, rfl, o.flag_sts (by decide)⟩

/-- An optional flag moves the flags and their counts alone. -/
theorem SolOut.flagOpt_eq (o : SolOut) (f : Option Nat) : o.flagOpt f = { o with sts := (o.flagOpt f).sts, cnt := (o.flagOpt f).cnt } := by
  cases f <;> rfl

section
variable (c : Chip) (k : Fin 12) (t : Time)

/-- The dip search is on for the profile that runs (R518). -/
def Chip.dipsOn : Prop := c.sol[k].prof.move = true ∧ (c.solMdet k.val).getLsbD 0 = true

theorem Chip.solDip_off (samples : List Nat) (off : c.sol[k].prof.move = false ∨ (c.solMdet k.val).getLsbD 0 = false) : c.solDip k samples = { c.sol[k] with dipVerdict := 0 } :=
  if_neg fun on => by
    obtain ⟨move, search⟩ := Bool.and_eq_true_iff.mp on
    exact off.elim (fun h => absurd (move.symm.trans h) (by decide)) fun h => absurd (search.symm.trans h) (by decide)

theorem Chip.solDip_on (samples : List Nat) (move : c.sol[k].prof.move = true) (search : (c.solMdet k.val).getLsbD 0 = true) :
    let r := dipSearch (10 * clampTo 1 255 (fld (c.solMdet k.val) 15 8)) samples
    let q := c.sol[k].dip.take (c.moveTolUs k.val) r
    c.solDip k samples = ({ c.sol[k] with dip := q.1, dipVerdict := q.2.1, tDip := r.getD 0 } : SolOut).flagOpt q.2.2 :=
  if_pos (Bool.and_eq_true_iff.mpr ⟨move, search⟩)

theorem Chip.solDip_keeps (samples : List Nat) : let x := c.solDip k samples
    x.low = c.sol[k].low ∧ x.kink = c.sol[k].kink ∧ x.latch = c.sol[k].latch := by
  by_cases on : c.sol[k].prof.move = true ∧ (c.solMdet k.val).getLsbD 0 = true
  · rw [c.solDip_on k samples on.1 on.2, SolOut.flagOpt_eq]; exact ⟨rfl, rfl, rfl⟩
  · have off : c.sol[k].prof.move = false ∨ (c.solMdet k.val).getLsbD 0 = false := (not_and_or.mp on).imp Bool.eq_false_iff.mpr Bool.eq_false_iff.mpr
    rw [c.solDip_off k samples off]; exact ⟨rfl, rfl, rfl⟩

theorem Chip.solDip_took (samples : List Nat) (move : c.sol[k].prof.move = true) (search : (c.solMdet k.val).getLsbD 0 = true) : let x := c.solDip k samples
    c.sol[k].dip.Took x.dip (c.moveTolUs k.val) (dipSearch (10 * clampTo 1 255 (fld (c.solMdet k.val) 15 8)) samples) x.dipVerdict x.sts := by
  have took := c.sol[k].dip.take_took (c.moveTolUs k.val) (dipSearch (10 * clampTo 1 255 (fld (c.solMdet k.val) 15 8)) samples)
  rw [c.solDip_on k samples move search, SolOut.flagOpt_eq]
  exact took _

/-- The rest's end of an output (R502, R519). -/
theorem Chip.solRestEnd_ends (volts : List Int) (due : c.sol[k].phase = .rest ∧ c.sol[k].phaseStart + 1000 * c.sol[k].prof.kinkUs ≤ t) : let o := c.sol[k]
    ∃ x, c.solRestEnd k volts t = c.solSet k x ∧ x.phase = .idle ∧ x.dip = o.dip ∧ x.latch = o.latch ∧
      (o.prof.move = false ∨ (c.solMdet k.val).getLsbD 1 = false → x.kink = o.kink ∧ x.kinkVerdict = 0 ∧ x.sts = o.sts) ∧
      (o.prof.move = true → (c.solMdet k.val).getLsbD 1 = true →
        o.kink.Took x.kink (c.moveTolUs k.val) (kinkSearch (10 * clampTo 1 255 (fld (c.solMdet k.val) 23 16)) o.prof.kinkUs volts) x.kinkVerdict x.sts) := by
  intro o
  by_cases on : o.prof.move = true ∧ (c.solMdet k.val).getLsbD 1 = true
  · have search : (o.prof.move && bit (c.solMdet k.val) 1) = true := Bool.and_eq_true_iff.mpr on
    let r := kinkSearch (10 * clampTo 1 255 (fld (c.solMdet k.val) 23 16)) o.prof.kinkUs volts
    have took := o.kink.take_took (c.moveTolUs k.val) r
    let q := o.kink.take (c.moveTolUs k.val) r
    have ran : c.solRestEnd k volts t = c.solSet k (({ o with phase := .idle, kink := q.1, kinkVerdict := q.2.1, tKink := r.getD 0 } : SolOut).flagOpt q.2.2) := (if_pos due).trans (if_pos search)
    rw [SolOut.flagOpt_eq] at ran
    refine ⟨_, ran, rfl, rfl, rfl, fun off => ?_, fun _ _ => took _⟩
    exact off.elim (fun h => absurd (on.1.symm.trans h) (by decide)) fun h => absurd (on.2.symm.trans h) (by decide)
  · have none : ¬ (o.prof.move && bit (c.solMdet k.val) 1) = true := fun h => on (Bool.and_eq_true_iff.mp h)
    exact ⟨{ o with phase := .idle, kinkVerdict := 0 }, (if_pos due).trans (if_neg none), rfl, rfl, rfl, fun _ => ⟨rfl, rfl, rfl⟩, fun move search => absurd ⟨move, search⟩ on⟩

end

/-! ### Phases -/

section
variable {c : Chip} {k : Fin 12} {t : Time}

/-- What an operation of output `k` leaves alone, in the words of the claim. -/
theorem Chip.SolActs.stands {x : Chip} (h : c.SolActs x k) :
    (∀ m : Fin 12, m ≠ k → x.sol[m] = c.sol[m]) ∧ (∀ m : Fin 3, m ≠ bankOf k → x.bank[m] = c.bank[m]) ∧ x.hs = c.hs ∧ x.schedule = c.schedule ∧ x.crest = c.crest ∧ x.tx = c.tx ∧ x.vBst = c.vBst :=
  ⟨h.outs, h.banks, h.fields⟩

theorem Chip.solFault_failing {f : Nat} (small : f < 32) (running : c.sol[k].running = true) : (c.solFault k f t).sol[k].Failing f :=
  (Chip.solFault_sol ..).symm ▸ SolOut.fails_failing t small running

/-- A running output whose phase ends with its profile's decay (R502). -/
theorem Chip.solDecay_fades (running : c.sol[k].running = true) (fast : Bool) : let x := (c.solDecay k fast false t).sol[k]
    x.phase = .decay ∧ x.fast = fast ∧ x.low = false ∧ x.toFault = false ∧ x.phaseStart = t ∧ x.sts = c.sol[k].sts := by
  dsimp only
  rw [Chip.solDecay_sol, SolOut.decays_running fast false t running]
  exact ⟨rfl, rfl, rfl, rfl, rfl, rfl⟩

/-- A peak that never reaches its current (R503, R524). -/
theorem Chip.solPeakTimeout_late (ma : Nat) (late : c.sol[k].phase = .peak ∧ c.sol[k].peakStart + 1000 * c.sol[k].prof.peakMax ≤ t) : let x := c.solPeakTimeout k ma t
    c.SolActs x k ∧ (x.sol[k]).Failing 0 ∧ (x.sol[k]).openSuspect = decide (10 * ma < c.solPeakMa k.val c.sol[k].prof) := by
  have ran : c.solPeakTimeout k ma t = (c.solFault k 0 t).solSet k { (c.solFault k 0 t).sol[k] with openSuspect := decide (10 * ma < c.solPeakMa k.val c.sol[k].prof) } := if_pos late
  have failing : (c.solFault k 0 t).sol[k].Failing 0 := Chip.solFault_failing (by decide) (SolOut.running_of_phase (.inl late.1))
  dsimp only
  rw [ran, Chip.sol_solSet_same]
  exact ⟨(Chip.solFault_acts c k t 0).solSet _, failing, rfl⟩

/-- A converter that does not move for three chop periods (R522). -/
theorem Chip.solChop_stalls {frozen : Nat} (mv : Nat) (hold : c.sol[k].phase = .hold)
    (is : frozen = match c.sol[k].peakSample with | none => c.sol[k].frozen | some v => if max v c.sol[k].valley - min v c.sol[k].valley ≤ 1 then c.sol[k].frozen + 1 else 0) (stalls : 3 ≤ frozen) :
    let x := c.solChop k mv t
    c.SolActs x k ∧ (x.sol[k]).Failing 1 := by
  subst is
  have ran : c.solChop k mv t = Chip.solFault _ k 1 t := (if_pos hold).trans (if_pos stalls)
  dsimp only
  rw [ran]
  exact ⟨((Chip.SolActs.refl c k).solSet _).trans (Chip.solFault_acts ..),
    Chip.solFault_failing (by decide) (by rw [Chip.sol_solSet_same]; exact SolOut.running_of_phase (.inr (.inr hold)))⟩

end

/-! ### The source of a bank (R502, R545) -/

section
variable (c : Chip) (b : Fin 3) (t : Time)

theorem bankOf_eq_iff (m : Fin 12) : bankOf m = b ↔ m.val / 4 = b.val := Fin.ext_iff

/-- The outputs of bank `b` whose trip waits for the end of its dead time (R545). -/
def Chip.tripEnds (m : Fin 12) : Prop := bankOf m = b ∧ c.sol[m].tripPending = true

/-- Every trip that waits takes effect. -/
def Chip.endTrips : Chip := (List.finRange 12).foldl (fun a (m : Fin 12) => if m.val / 4 = b.val ∧ a.sol[m].tripPending then a.solEnd m t else a) c

/-- A bank goes back to VS (R502). -/
def Chip.sourceBack : Prop := ∃ v, c.bank[b].vsAt = some v ∧ v ≤ t ∧ c.bank[b].source = 2 ∧ ∀ m : Fin 12, bankOf m = b → c.sol[m].peaking = false

/-- The return of a bank to VS, when due. -/
def Chip.toVs : Chip :=
  match c.bank[b].vsAt with
  | some v =>
    if v ≤ t && !((List.finRange 12).any fun m => m.val / 4 == b.val && c.sol[m].peaking) && c.bank[b].source == 2 then
      c.bankSet b { (c.bank[b].toSource 1 t) with vsAt := none }
    else c
  | none => c

theorem Chip.solSource_eq : c.solSource b t = (if c.bank[b].changeUntil ≤ t then c.endTrips b t else c).toVs b t := rfl

theorem Chip.no_peaking : (!((List.finRange 12).any fun m => m.val / 4 == b.val && c.sol[m].peaking)) = true ↔ ∀ m : Fin 12, bankOf m = b → c.sol[m].peaking = false := by
  simp [bankOf_eq_iff]

theorem Chip.toVs_back (back : c.sourceBack b t) : c.toVs b t = c.bankSet b { c.bank[b] with source := 1, changeUntil := t + 2000, vsAt := none } := by
  obtain ⟨v, set, due, boost, calm⟩ := back
  have goes : (decide (v ≤ t) && !((List.finRange 12).any fun m => m.val / 4 == b.val && c.sol[m].peaking) && c.bank[b].source == 2) = true := by
    rw [Bool.and_eq_true, Bool.and_eq_true, c.no_peaking b, boost]
    exact ⟨⟨decide_eq_true due, calm⟩, rfl⟩
  have turned : c.bank[b].toSource 1 t = { c.bank[b] with source := 1, changeUntil := t + 2000 } := if_neg (by rw [boost]; decide)
  unfold Chip.toVs
  rw [set]
  exact (if_pos goes).trans (by rw [turned])

theorem Chip.toVs_stays (stays : ¬ c.sourceBack b t) : c.toVs b t = c := by
  unfold Chip.toVs
  split
  · rename_i v set
    refine if_neg fun goes => stays ?_
    rw [Bool.and_eq_true, Bool.and_eq_true, c.no_peaking b] at goes
    obtain ⟨⟨due, calm⟩, boost⟩ := goes
    exact ⟨v, set, of_decide_eq_true due, eq_of_beq boost, calm⟩
  · rfl

/-- The return to VS acts on its bank alone. -/
theorem Chip.toVs_bank : ∃ q, c.toVs b t = c.bankSet b q := by
  by_cases back : c.sourceBack b t
  · exact ⟨_, c.toVs_back b t back⟩
  · exact ⟨_, (c.toVs_stays b t back).trans (c.bankSet_self b).symm⟩

theorem Chip.endTrips_none (no : ∀ m, ¬ c.tripEnds b m) : c.endTrips b t = c :=
  List.foldl_fixed' (fun m => if_neg fun h => no m ⟨(bankOf_eq_iff b m).mpr h.1, h.2⟩) _

theorem Chip.endTrips_acts : c.BankActs (c.endTrips b t) b := by
  refine Chip.BankActs.foldl _ (fun a m => ?_) _ c
  by_cases ends : m.val / 4 = b.val ∧ a.sol[m].tripPending = true
  · rw [if_pos ends, ← (bankOf_eq_iff b m).mpr ends.1]
    exact (Chip.solDecay_acts a m t true false).onBank
  · rw [if_neg ends]
    exact Chip.BankActs.refl a b

theorem Chip.endTrips_sol (m : Fin 12) : (c.tripEnds b m → (c.endTrips b t).sol[m] = c.sol[m].decays true false t) ∧ (¬ c.tripEnds b m → (c.endTrips b t).sol[m] = c.sol[m]) := by
  refine Chip.foldl_outputs (fun _ => ()) _ (fun m o x => (bankOf m = b ∧ o.tripPending = true → x = o.decays true false t) ∧ (¬ (bankOf m = b ∧ o.tripPending = true) → x = o)) c
    (fun _ _ => rfl) (fun a m m' ne => ?_) (fun a m _ => ?_) m
  · split
    · exact (Chip.solDecay_acts a m t true false).outs m' ne
    · rfl
  · rw [bankOf_eq_iff]
    refine ⟨fun ends => ?_, fun no => ?_⟩
    · rw [if_pos ends]; exact a.solDecay_sol m t true false
    · rw [if_neg no]

/-- A bank whose dead time is over ends the trips that waited for it (R545). -/
theorem Chip.solSource_ends (later : c.bank[b].changeUntil ≤ t) : let x := c.solSource b t
    c.BankActs x b ∧ ∀ m : Fin 12, (c.tripEnds b m → (x.sol[m]) = c.sol[m].decays true false t) ∧ (¬ c.tripEnds b m → x.sol[m] = c.sol[m]) := by
  obtain ⟨q, back⟩ := (c.endTrips b t).toVs_bank b t
  have ran : c.solSource b t = (c.endTrips b t).bankSet b q := (c.solSource_eq b t).trans (by rw [if_pos later, back])
  dsimp only
  rw [ran]
  exact ⟨(c.endTrips_acts b t).bankSet q, c.endTrips_sol b t⟩

/-- Before that, or without such trips, it at most goes back to VS. -/
theorem Chip.solSource_quiet (quiet : t < c.bank[b].changeUntil ∨ ∀ m, ¬ c.tripEnds b m) : c.solSource b t = c.toVs b t := by
  rw [Chip.solSource_eq]
  obtain early | no := quiet
  · rw [if_neg (Nat.not_le.mpr early)]
  · rw [c.endTrips_none b t no, ite_self]

end

/-- What becomes of an output whose trip waited. -/
theorem SolOut.decays_tripped (o : SolOut) (t : Time) : let x := o.decays true false t
    x.tripPending = false ∧ x.low = false ∧ (o.running = true → x.phase = .decay ∧ x.fast = true) := by
  obtain ⟨⟨low, -, trip⟩, -⟩ := o.decays_keeps true false t
  exact ⟨trip, low, fun running => by rw [SolOut.decays_running _ _ _ running]; exact ⟨rfl, rfl⟩⟩

/-- The phases of a solenoid output, command by command (19 R502 to R504, R518 to R522, R526, R527). -/
theorem solenoidPhases_hold : Sys2Proof.Claims.SolenoidPhases := by
  intro s n k b ev rf samples i2 volts ma uj mv on who j mask t c o goes one rest fades powered
  have stays {f : Chip → Chip} (e : f c = c) : (Host.Outcome.next (s.onLive n f) : Host.Outcome State Fault Refusal) = .next s := State.onLive_stays e
  have sends {f : Chip → Chip} {p : Chip → Prop} (hp : p (f c)) : goes (.next (s.onLive n f)) p := s.onLive_goes n f p powered hp
  have sent {f : Chip → Chip} {x : Chip} {p : Chip → Prop} (e : f c = x) (hp : p x) : goes (.next (s.onLive n f)) p := sends (f := f) (p := p) (e.symm ▸ hp)
  have turns {f : Chip → Chip} {x : SolOut} {p : SolOut → Prop} (e : f c = c.solSet k x) (hp : p x) : one (.next (s.onLive n f)) p := State.onLive_solGoes powered e hp
  have faults {f : Chip → Chip} {fl : Nat} (small : fl < 32) (running : o.running = true) (e : f c = c.solFault k fl t) : goes (.next (s.onLive n f)) fun x => rest x ∧ (x.sol[k]).Failing fl :=
    sent e ⟨(Chip.solFault_acts c k t fl).stands, Chip.solFault_failing small running⟩
  have ends {f : Chip → Chip} (running : o.running = true) (e : f c = c.solDecay k o.prof.fastEnd false t) : goes (.next (s.onLive n f)) fun x => rest x ∧ fades x.sol[k] :=
    sent e ⟨(c.solDecay_acts k t _ false).stands, Chip.solDecay_fades running _⟩
  refine ⟨⟨fun no => stays (if_neg no), ?early, ?reached⟩, ⟨fun no => stays (if_neg no), ?late⟩, ⟨fun no => stays (if_neg no), ?pulseEnds, ?dwellEnds⟩, ⟨?quiet, ?trips⟩,
    ⟨fun other => stays (if_neg other), ?stalls, ?chops⟩, ⟨fun no => stays (if_neg no), fun yes => turns (if_pos yes) rfl⟩, ⟨fun no => stays (if_neg no), ?holdEnds⟩,
    ⟨fun no => stays (if_neg no), ?much, ?toFault, ?rests⟩, ⟨fun no => stays (if_neg no), ?restEnds⟩⟩
  case early => exact fun due fast => faults (by decide) (SolOut.running_of_phase (.inl due.1)) ((if_pos due).trans (if_pos fast))
  case reached =>
    intro due slow
    obtain ⟨low, kink, latch⟩ := c.solDip_keeps k samples
    exact turns ((if_pos due).trans (if_neg slow)) ⟨rfl, rfl, rfl, low, kink, latch, fun off => by rw [c.solDip_off k samples off]; exact ⟨rfl, rfl, rfl⟩, c.solDip_took k samples⟩
  case late =>
    intro late
    obtain ⟨acts, failing, suspect⟩ := Chip.solPeakTimeout_late ma late
    exact sends ⟨acts.stands, failing, suspect⟩
  case pulseEnds => exact fun due pulse => ends (SolOut.running_of_phase (.inr (.inl due.1))) ((if_pos due).trans (if_pos pulse))
  case dwellEnds => exact fun due hold => sends ((if_pos due).trans (if_neg hold))
  case quiet =>
    intro quiet
    have ran := c.solSource_quiet b t quiet
    exact ⟨fun no => stays (ran.trans (c.toVs_stays b t no)), fun back => sends (ran.trans (c.toVs_back b t back))⟩
  case trips =>
    intro later _
    obtain ⟨acts, outs⟩ := c.solSource_ends b t later
    obtain ⟨hs, schedule, -⟩ := acts.fields
    refine sends ⟨fun m ends => ?_, fun m no => (outs m).2 no, acts.banks, hs, schedule⟩
    rw [(outs m).1 ends]
    exact SolOut.decays_tripped _ t
  case stalls =>
    intro hold stalled
    obtain ⟨acts, failing⟩ := Chip.solChop_stalls mv hold rfl stalled
    exact sends ⟨acts.stands, failing⟩
  case chops => exact fun hold moves => sends ((if_pos hold).trans (if_neg (Nat.not_le.mpr moves)))
  case holdEnds => exact fun due => ends (SolOut.running_of_phase (.inr (.inr due.1))) (if_pos due)
  case much => exact fun due much => turns ((if_pos due).trans (if_pos much)) ⟨rfl, rfl, rfl, rfl⟩
  case toFault => exact fun due less fault => turns ((if_pos due).trans ((if_neg less).trans (if_pos fault))) rfl
  case rests => exact fun due less fault => turns ((if_pos due).trans ((if_neg less).trans (if_neg (Bool.eq_false_iff.mp fault)))) rfl
  case restEnds =>
    intro due
    obtain ⟨x, ran, idle⟩ := c.solRestEnd_ends k t volts due
    exact turns ran idle

end Sys2Proof.Machine
end

section
/-! SUPPORT. Shorts and the coil model of a BZ31's solenoid outputs (19 R515, R517, R525): obligation O53. -/

namespace Sys2Proof.Machine

/-! ### Shorts (R525) -/

/-- An output that a short shuts off. -/
def SolOut.shorted (o : SolOut) : SolOut :=
  { o.flag 4 with latch := o.latch ||| oneBit 4, low := false, phase := .fault, toFault := false, reflex := false, dipVerdict := if o.phase = SolPhase.peak then 0 else o.dipVerdict, kinkVerdict := 0 }

/-- What a short leaves in its output. -/
theorem SolOut.shorted_shut {o x : SolOut} (is : x = o.shorted) : x.phase = .fault ∧ x.low = false ∧ x.sts = o.sts ||| oneBit 4 ∧ x.latch = o.latch ||| oneBit 4 := by
  subst is
  exact ⟨rfl, rfl, rfl, rfl⟩

section
variable (c : Chip) (b : Fin 3) (k : Fin 12) (t : Time)

theorem Chip.solShortOne_rests : c.solShortOne k = (c.solSet k c.sol[k].shorted).bankRest (bankOf k) := rfl

theorem Chip.solShortOne_acts : c.SolActs (c.solShortOne k) k := by
  obtain ⟨src, vs, e⟩ := (c.solSet k c.sol[k].shorted).bankRest_eq (bankOf k)
  rw [Chip.solShortOne_rests, e]
  exact ((Chip.SolActs.refl c k).solSet _).bankSet _

theorem Chip.solShortOne_sol : (c.solShortOne k).sol[k] = c.sol[k].shorted := by
  obtain ⟨src, vs, e⟩ := (c.solSet k c.sol[k].shorted).bankRest_eq (bankOf k)
  rw [Chip.solShortOne_rests, e]
  exact Chip.sol_solSet_same ..

/-- The output that stands for one carries the same pair in the same bank (R499). -/
theorem Chip.solRep_pair : bankOf (c.solRep k) = bankOf k ∧ c.solMult (c.solRep k).val = c.solMult k.val := by
  by_cases upper : c.solUpper k.val = true
  · have odd : k.val % 2 = 1 := of_decide_eq_true (Bool.and_eq_true_iff.mp upper).1
    have rep : (c.solRep k).val = k.val - 1 := congrArg Fin.val (if_pos upper : c.solRep k = _)
    have bank : (k.val - 1) / 4 = k.val / 4 := by omega
    have half : (k.val - 1) % 4 < 2 ↔ k.val % 4 < 2 := by omega
    refine ⟨Fin.ext (by show (c.solRep k).val / 4 = k.val / 4; rw [rep, bank]), ?_⟩
    unfold Chip.solMult Chip.solPair
    rw [rep, bank]
    simp only [half]
  · rw [show c.solRep k = k from if_neg upper]
    exact ⟨rfl, rfl⟩

/-- The outputs that a short of the bank, or of output `who`, hits (R499, R525). -/
def Chip.shortHits (who : Option (Fin 12)) (ma : Nat) (m : Fin 12) : Prop :=
  bankOf m = b ∧ ((∃ q, who = some q ∧ c.solRep q = m) ∧ 20000 * c.solMult m.val ≤ ma ∨ who = none ∧ 30000 ≤ ma ∧ c.sol[m].low = true)

/-- What a short does to the chip. -/
def Chip.Shorted (x : Chip) (who : Option (Fin 12)) (ma : Nat) : Prop :=
  (∀ m, c.shortHits b who ma m → x.sol[m] = c.sol[m].shorted) ∧ (∀ m, ¬ c.shortHits b who ma m → x.sol[m] = c.sol[m]) ∧ c.BankActs x b ∧ (who = none → 30000 ≤ ma → (x.bank[b]).source = 0)

theorem Chip.solShort_unhit (who : Option (Fin 12)) (ma : Nat) (none_ : ∀ m, ¬ c.shortHits b who ma m) (named : who = none → ma < 30000) : c.Shorted b c who ma :=
  ⟨fun m hit => absurd hit (none_ m), fun _ _ => rfl, Chip.BankActs.refl c b, fun no high => absurd high (Nat.not_le.mpr (named no))⟩

/-- A short of one output (R499). -/
theorem Chip.solShort_output (q : Fin 12) (ma : Nat) : c.Shorted b (c.solShort b (some q) ma) (some q) ma := by
  obtain ⟨bank, mult⟩ := c.solRep_pair q
  have only (m : Fin 12) : c.shortHits b (some q) ma m ↔ m = c.solRep q ∧ q.val / 4 = b.val ∧ 20000 * c.solMult q.val ≤ ma := by
    refine ⟨fun ⟨here, hit⟩ => ?_, fun ⟨is, here, high⟩ => ?_⟩
    · obtain ⟨⟨q', same, rep⟩, high⟩ := hit.resolve_right fun no => absurd no.1 (Option.some_ne_none q)
      obtain rfl := Option.some.inj same
      subst rep
      exact ⟨rfl, (bankOf_eq_iff b q).mp (bank.symm.trans here), mult ▸ high⟩
    · subst is
      exact ⟨bank.trans ((bankOf_eq_iff b q).mpr here), .inl ⟨⟨q, rfl, rfl⟩, mult.symm ▸ high⟩⟩
  by_cases high : q.val / 4 = b.val ∧ 20000 * c.solMult q.val ≤ ma
  · have ran : c.solShort b (some q) ma = c.solShortOne (c.solRep q) := if_pos high
    have acts := c.solShortOne_acts (c.solRep q)
    rw [ran]
    refine ⟨fun m hit => ?_, fun m miss => acts.outs m fun is => miss ((only m).mpr ⟨is, high⟩), ?_, fun no => absurd no (Option.some_ne_none q)⟩
    · obtain ⟨rfl, -⟩ := (only m).mp hit
      exact c.solShortOne_sol _
    · have onBank := acts.onBank
      rw [bank, (bankOf_eq_iff b q).mpr high.1] at onBank
      exact onBank
  · rw [show c.solShort b (some q) ma = c from if_neg high]
    exact c.solShort_unhit b (some q) ma (fun m hit => high ((only m).mp hit).2) fun no => absurd no (Option.some_ne_none q)

/-- Every conducting output of a bank shuts off. -/
def Chip.shutBank : Chip := (List.finRange 12).foldl (fun a (m : Fin 12) => if m.val / 4 = b.val then (if a.sol[m].low then a.solShortOne m else a) else a) c

theorem Chip.shutBank_acts : c.BankActs (c.shutBank b) b := by
  refine Chip.BankActs.foldl _ (fun a m => ?_) _ c
  by_cases here : m.val / 4 = b.val
  · rw [if_pos here]
    by_cases low : a.sol[m].low = true
    · rw [if_pos low, ← (bankOf_eq_iff b m).mpr here]
      exact (a.solShortOne_acts m).onBank
    · rw [if_neg low]; exact Chip.BankActs.refl a b
  · rw [if_neg here]; exact Chip.BankActs.refl a b

theorem Chip.shutBank_sol (m : Fin 12) : (bankOf m = b ∧ c.sol[m].low = true → (c.shutBank b).sol[m] = c.sol[m].shorted) ∧ (¬ (bankOf m = b ∧ c.sol[m].low = true) → (c.shutBank b).sol[m] = c.sol[m]) := by
  refine Chip.foldl_outputs (fun _ => ()) _ (fun m o x => (bankOf m = b ∧ o.low = true → x = o.shorted) ∧ (¬ (bankOf m = b ∧ o.low = true) → x = o)) c
    (fun _ _ => rfl) (fun a m m' ne => ?_) (fun a m _ => ?_) m
  · split
    · split
      · exact (a.solShortOne_acts m).outs m' ne
      · rfl
    · rfl
  · rw [bankOf_eq_iff]
    refine ⟨fun ⟨here, low⟩ => ?_, fun miss => ?_⟩
    · rw [if_pos here, if_pos low]; exact a.solShortOne_sol m
    · by_cases here : m.val / 4 = b.val
      · rw [if_pos here, if_neg fun low => miss ⟨here, low⟩]
      · rw [if_neg here]

/-- A short of the bank's high side. -/
theorem Chip.solShort_bank (ma : Nat) : c.Shorted b (c.solShort b none ma) none ma := by
  have hits (high : 30000 ≤ ma) (m : Fin 12) : c.shortHits b none ma m ↔ bankOf m = b ∧ c.sol[m].low = true :=
    and_congr_right fun _ => ⟨fun hit => (hit.resolve_left fun ⟨⟨q, no, _⟩, _⟩ => Option.some_ne_none q no.symm).2.2, fun low => .inr ⟨rfl, high, low⟩⟩
  by_cases high : 30000 ≤ ma
  · have ran : c.solShort b none ma = (c.shutBank b).bankSet b { (c.shutBank b).bank[b] with source := 0, vsAt := none } := if_pos high
    rw [ran]
    refine ⟨fun m hit => (c.shutBank_sol b m).1 ((hits high m).mp hit), fun m miss => (c.shutBank_sol b m).2 fun hit => miss ((hits high m).mpr hit), (c.shutBank_acts b).bankSet _, fun _ _ => ?_⟩
    rw [Chip.bank_bankSet_same]
  · rw [show c.solShort b none ma = c from if_neg high]
    refine c.solShort_unhit b none ma (fun m hit => ?_) fun _ => Nat.not_le.mp high
    exact hit.2.elim (fun ⟨⟨q, no, _⟩, _⟩ => Option.some_ne_none q no.symm) fun h => high h.2.1

theorem Chip.solShort_shorted (who : Option (Fin 12)) (ma : Nat) : c.Shorted b (c.solShort b who ma) who ma := by
  cases who with
  | none => exact c.solShort_bank b ma
  | some q => exact c.solShort_output b q ma

end

/-! ### The coil model (R515, R517) -/

section
variable (o : SolOut) (top amb dt : Rat) (t : Time)

/-- An output with a new coil estimate, and its warning (R517). -/
def SolOut.warmed : SolOut :=
  let o1 := { o with dt := dt }
  { (if decide (top - 15 ≤ amb + dt) && !o.warm then o1.flag 5 else o1) with warm := decide (top - 15 ≤ amb + dt) }

theorem SolOut.warmed_warns (warm : top - 15 ≤ amb + dt) (cool : o.warm = false) : o.warmed top amb dt = { ({ o with dt := dt } : SolOut).flag 5 with warm := decide (top - 15 ≤ amb + dt) } :=
  congrArg (fun x : SolOut => { x with warm := decide (top - 15 ≤ amb + dt) }) (if_pos (by rw [cool, decide_eq_true warm]; rfl))

theorem SolOut.warmed_quiet (quiet : ¬ (top - 15 ≤ amb + dt ∧ o.warm = false)) : o.warmed top amb dt = { o with dt := dt, warm := decide (top - 15 ≤ amb + dt) } :=
  congrArg (fun x : SolOut => { x with warm := decide (top - 15 ≤ amb + dt) }) (if_neg (by simpa using quiet))

/-- An output with a new coil estimate, its warning, and its fault (R517). -/
def SolOut.heated : SolOut := if top ≤ amb + dt ∧ o.latch.getLsbD 6 = false then (o.warmed top amb dt).fails 6 t else o.warmed top amb dt

theorem SolOut.warmed_keeps : let x := o.warmed top amb dt
    x.dt = dt ∧ x.warm = decide (top - 15 ≤ amb + dt) ∧ x.phase = o.phase ∧ x.low = o.low ∧ x.latch = o.latch := by
  by_cases warns : top - 15 ≤ amb + dt ∧ o.warm = false
  · rw [o.warmed_warns top amb dt warns.1 warns.2]; exact ⟨rfl, rfl, rfl, rfl, rfl⟩
  · rw [o.warmed_quiet top amb dt warns]; exact ⟨rfl, rfl, rfl, rfl, rfl⟩

theorem SolOut.warmed_sts (warm : top - 15 ≤ amb + dt) (cool : o.warm = false) : (o.warmed top amb dt).sts.getLsbD 5 = true := by
  rw [o.warmed_warns top amb dt warm cool]
  exact SolOut.flag_sts { o with dt := dt } (by decide)

/-- What a new coil estimate does to its output. -/
def SolOut.Heated (x : SolOut) : Prop :=
  x.dt = dt ∧ x.warm = decide (top - 15 ≤ amb + dt) ∧ (top - 15 ≤ amb + dt → o.warm = false → x.sts.getLsbD 5 = true) ∧
  (amb + dt < top ∨ o.latch.getLsbD 6 = true → x.phase = o.phase ∧ x.low = o.low ∧ x.latch = o.latch) ∧
  (top ≤ amb + dt → o.latch.getLsbD 6 = false → x.sts.getLsbD 6 = true ∧ x.latch.getLsbD 6 = true ∧ x.low = false ∧ (o.running = true → x.Failing 6) ∧ (o.phase = .idle ∨ o.phase = .rest → x.phase = .fault))

theorem SolOut.heated_heated : o.Heated top amb dt (o.heated top amb dt t) := by
  obtain ⟨rise, warm, phase, low, latch⟩ := o.warmed_keeps top amb dt
  unfold SolOut.heated
  by_cases hot : top ≤ amb + dt ∧ o.latch.getLsbD 6 = false
  · rw [if_pos hot]
    obtain ⟨off, sts, latch', rise', warm'⟩ := SolOut.fails_keeps t (o.warmed top amb dt) 6
    refine ⟨rise'.trans rise, warm'.trans warm, fun warm cool => ?_, fun no => ?_, fun _ _ => ⟨?_, ?_, off, fun running => ?_, fun still => ?_⟩⟩
    · rw [sts, BitVec.getLsbD_or, o.warmed_sts top amb dt warm cool, Bool.true_or]
    · exact no.elim (fun cold => absurd hot.1 (not_le.mpr cold)) fun held => absurd (held.symm.trans hot.2) (by decide)
    · rw [sts]; exact getLsbD_or_oneBit _ _ (by decide)
    · rw [latch']; exact getLsbD_or_oneBit _ _ (by decide)
    · refine SolOut.fails_failing t (by decide) ?_
      unfold SolOut.running SolOut.peaking at running ⊢
      rw [phase]; exact running
    · exact SolOut.fails_fault t 6 (phase ▸ still)
  · rw [if_neg hot]
    exact ⟨rise, warm, o.warmed_sts top amb dt, fun _ => ⟨phase, low, latch⟩, fun above free => absurd ⟨above, free⟩ hot⟩

end

section
variable (c : Chip) (k : Fin 12) (t : Time)

/-- The rise of a coil over the ambient after one update (R515). -/
def Chip.coilRise (i2 : List Nat) : Rat :=
  let w := c.crest.word (0x3E4 + 0x10 * k.val)
  let tau := clampTo 1 6000 (fld (c.crest.word (0x3E8 + 0x10 * k.val)) 15 0)
  coilStep c.sol[k].dt (c.thetaC k) (i2.getD k.val 0) (max 10 (fld w 15 0)) (max 1 (fld w 31 16)) tau

/-- The coil model's step at one output. -/
def Chip.coilOne (i2 : List Nat) : Chip :=
  if c.solEn k.val && !c.solUpper k.val then (c.solSet k { c.sol[k] with dt := c.coilRise k i2 }).coilCheck k t else c

theorem Chip.coilCheck_set (dt : Rat) : let x := (c.solSet k { c.sol[k] with dt := dt }).coilCheck k t
    c.SolActs x k ∧ x.sol[k] = c.sol[k].heated (c.tCoilMax k.val : Rat) c.thetaAmb dt t := by
  let c1 := c.solSet k { c.sol[k] with dt := dt }
  have here : c1.sol[k] = { c.sol[k] with dt := dt } := c.sol_solSet_same k _
  have theta : c1.thetaC k = c.thetaAmb + dt := congrArg (c.thetaAmb + SolOut.dt ·) here
  have warms : c1.coilCheck k t = if (c.tCoilMax k.val : Rat) ≤ c.thetaAmb + dt ∧ bit c.sol[k].latch 6 = false
      then (c.solSet k (c.sol[k].warmed (c.tCoilMax k.val) c.thetaAmb dt)).solFault k 6 t else c.solSet k (c.sol[k].warmed (c.tCoilMax k.val) c.thetaAmb dt) := by
    unfold Chip.coilCheck
    rw [theta]
    simp only [here]
    rw [show c1.solSet k = c.solSet k from funext fun o => c.solSet_solSet k _ o]
    rfl
  show c.SolActs (c1.coilCheck k t) k ∧ (c1.coilCheck k t).sol[k] = _
  rw [warms]
  by_cases hot : (c.tCoilMax k.val : Rat) ≤ c.thetaAmb + dt ∧ bit c.sol[k].latch 6 = false
  · rw [if_pos hot, Chip.solFault_sol, Chip.sol_solSet_same]
    exact ⟨((Chip.SolActs.refl c k).solSet _).trans (Chip.solFault_acts ..), (if_pos hot).symm⟩
  · rw [if_neg hot, Chip.sol_solSet_same]
    exact ⟨(Chip.SolActs.refl c k).solSet _, (if_neg hot).symm⟩

theorem Chip.coilOne_acts (i2 : List Nat) : c.SolActs (c.coilOne k t i2) k := by
  unfold Chip.coilOne
  split
  · exact (c.coilCheck_set k t _).1
  · exact Chip.SolActs.refl c k

/-- Every output that is enabled, and is not the upper one of a pair, takes its new estimate; the others stay. -/
theorem Chip.coilUpdate_outputs (i2 : List Nat) (j : Int) (m : Fin 12) :
    let c0 := { c with logicTemp := j, thetaAmb := c.thetaAmb + ((j : Rat) - 5 - c.thetaAmb) / 10000 }
    ((c.solEn m.val && !c.solUpper m.val) = true → (c.coilUpdate i2 j t).sol[m] = c.sol[m].heated (c.tCoilMax m.val : Rat) c0.thetaAmb (c0.coilRise m i2) t) ∧
    ((c.solEn m.val && !c.solUpper m.val) = false → (c.coilUpdate i2 j t).sol[m] = c.sol[m]) := by
  intro c0
  have ran : c.coilUpdate i2 j t = (List.finRange 12).foldl (fun a n => a.coilOne n t i2) c0 := rfl
  rw [ran]
  refine Chip.foldl_outputs Chip.sansSol (fun a n => a.coilOne n t i2)
    (fun m o x => ((c.solEn m.val && !c.solUpper m.val) = true → x = o.heated (c.tCoilMax m.val : Rat) c0.thetaAmb ((c0.solSet m o).coilRise m i2) t) ∧ ((c.solEn m.val && !c.solUpper m.val) = false → x = o))
    c0 (fun a m => (a.coilOne_acts m t i2).rest) (fun a m m' ne => (a.coilOne_acts m t i2).outs m' ne) (fun a m same => ?_) m |>.imp (fun h on => ?_) id
  · have via {β : Type} (g : Chip → β) : g a.sansSol = g c0.sansSol := congrArg g same
    have works : (a.solEn m.val && !a.solUpper m.val) = (c.solEn m.val && !c.solUpper m.val) := via fun x => x.solEn m.val && !x.solUpper m.val
    have top : (a.tCoilMax m.val : Rat) = c.tCoilMax m.val := via fun x => (x.tCoilMax m.val : Rat)
    have amb : a.thetaAmb = c0.thetaAmb := via Chip.thetaAmb
    have rise : a.coilRise m i2 = (c0.solSet m a.sol[m]).coilRise m i2 := by
      unfold Chip.coilRise Chip.thetaC
      rw [Chip.sol_solSet_same, amb, show a.crest = c0.crest from via Chip.crest]
      rfl
    refine ⟨fun on => ?_, fun off => congrArg (·.sol[m]) (if_neg (Bool.eq_false_iff.mp (works.trans off)) : a.coilOne m t i2 = a)⟩
    have stepped : a.coilOne m t i2 = (a.solSet m { a.sol[m] with dt := a.coilRise m i2 }).coilCheck m t := if_pos (works.trans on)
    rw [stepped, (a.coilCheck_set m t _).2, top, amb, rise]
  · have back : c0.solSet m c0.sol[m] = c0 := c0.solSet_self m
    rw [back] at h
    exact h on

theorem Chip.coilUpdate_frame (i2 : List Nat) (j : Int) : let amb := c.thetaAmb + ((j : Rat) - 5 - c.thetaAmb) / 10000
    (c.coilUpdate i2 j t).sansSol = ({ c with logicTemp := j, thetaAmb := amb } : Chip).sansSol := by
  intro amb
  have ran : c.coilUpdate i2 j t = (List.finRange 12).foldl (fun a n => a.coilOne n t i2) { c with logicTemp := j, thetaAmb := amb } := rfl
  rw [ran]
  exact Chip.foldl_preserves _ Chip.sansSol (fun a (n : Fin 12) => a.coilOne n t i2) (fun a n => (a.coilOne_acts n t i2).rest) (List.finRange 12)

end

/-- Shorts and the coil model (19 R515, R517, R525). -/
theorem solenoidDiagnostics_hold : Sys2Proof.Claims.SolenoidDiagnostics := by
  intro s n k b ev rf samples i2 volts ma uj mv on who j mask t c o goes one rest fades powered
  have sends {f : Chip → Chip} {p : Chip → Prop} (hp : p (f c)) : goes (.next (s.onLive n f)) p := s.onLive_goes n f p powered hp
  refine ⟨sends ?short, sends ?coil⟩
  case short =>
    obtain ⟨shut, rest, acts, source⟩ := c.solShort_shorted b who ma
    obtain ⟨hs, schedule, -⟩ := acts.fields
    exact ⟨fun m hit => SolOut.shorted_shut (shut m hit), rest, acts.banks, hs, schedule, source⟩
  case coil =>
    have frame := c.coilUpdate_frame t i2 j
    have via {β : Type} (g : Chip → β) : g (c.coilUpdate i2 j t).sansSol = _ := congrArg g frame
    refine ⟨via Chip.logicTemp, via Chip.thetaAmb, via Chip.hs, via Chip.schedule, fun m off => ?_, fun m enabled lower => ?_⟩
    · refine (c.coilUpdate_outputs t i2 j m).2 ?_
      obtain off | upper := off
      · rw [off]; rfl
      · rw [upper]; simp
    · have heated := (c.coilUpdate_outputs t i2 j m).1 (by rw [enabled, lower]; rfl)
      show SolOut.Heated _ _ _ _ ((c.coilUpdate i2 j t).sol[m])
      rw [heated]
      exact SolOut.heated_heated ..

end Sys2Proof.Machine
end

section
/-! SUPPORT. The continuity probe, the boost store and the clears of a BZ31's solenoid banks (19 R506, R509, R520, R523, R524, R528, R529): obligation O53. -/

namespace Sys2Proof.Machine

section
variable (c : Chip) (b : Fin 3) (k : Fin 12) (t : Time)

/-! ### The continuity probe (R523, R524) -/

theorem Chip.solProbe_runs : ((bankCfg c.crest b.val).getLsbD 26 = true ∧ ∀ m : Fin 12, bankOf m = b → c.sol[m].low = false) ↔
    (bit (bankCfg c.crest b.val) 26 && !((List.finRange 12).any fun m => m.val / 4 == b.val && c.sol[m].low)) = true := by
  rw [Bool.and_eq_true]
  refine and_congr_right fun _ => ?_
  simp [bankOf_eq_iff]

/-- An output that a passing probe finds open. -/
def SolOut.opened (o : SolOut) : SolOut := { o.flag 3 with latch := o.latch ||| oneBit 3, openSuspect := false }

theorem SolOut.opened_flags {o x : SolOut} (is : x = o.opened) : x.sts = o.sts ||| oneBit 3 ∧ x.latch = o.latch ||| oneBit 3 ∧ x.openSuspect = false ∧ x.phase = o.phase := by
  subst is
  exact ⟨rfl, rfl, rfl, rfl⟩

theorem Chip.openCoil_frame : (c.openCoil b).bank = c.bank ∧ (c.openCoil b).hs = c.hs := by
  have whole : ((c.openCoil b).bank, (c.openCoil b).hs) = (c.bank, c.hs) :=
    Chip.foldl_preserves c (fun x => (x.bank, x.hs)) _ (fun a m => by dsimp only; split <;> rfl) (List.finRange 12)
  exact Prod.mk.inj whole

theorem Chip.openCoil_sol (m : Fin 12) : (bankOf m = b ∧ c.sol[m].openSuspect = true → (c.openCoil b).sol[m] = c.sol[m].opened) ∧ (¬ (bankOf m = b ∧ c.sol[m].openSuspect = true) → (c.openCoil b).sol[m] = c.sol[m]) := by
  refine Chip.foldl_outputs (fun _ => ()) _ (fun m o x => (bankOf m = b ∧ o.openSuspect = true → x = o.opened) ∧ (¬ (bankOf m = b ∧ o.openSuspect = true) → x = o)) c
    (fun _ _ => rfl) (fun a m m' ne => ?_) (fun a m _ => ?_) m
  · dsimp only
    split
    · exact a.sol_solSet_ne _ ne
    · rfl
  · rw [bankOf_eq_iff]
    refine ⟨fun yes => ?_, fun no => ?_⟩
    · dsimp only
      rw [if_pos yes]
      exact a.sol_solSet_same m _
    · dsimp only
      rw [if_neg no]

theorem Chip.noSuspect_frame : (c.noSuspect b).sansSol = c.sansSol ∧ (c.noSuspect b).bank = c.bank := by
  have whole : ((c.noSuspect b).sansSol, (c.noSuspect b).bank) = (c.sansSol, c.bank) :=
    Chip.foldl_preserves c (fun x => (x.sansSol, x.bank)) _ (fun a m => by split <;> rfl) (List.finRange 12)
  exact Prod.mk.inj whole

theorem Chip.noSuspect_sol (m : Fin 12) : (c.noSuspect b).sol[m] = if bankOf m = b then { c.sol[m] with openSuspect := false } else c.sol[m] := by
  refine Chip.foldl_outputs (fun _ => ()) _ (fun m o x => x = if bankOf m = b then { o with openSuspect := false } else o) c (fun _ _ => rfl) (fun a m m' ne => ?_) (fun a m _ => ?_) m
  · split
    · exact a.sol_solSet_ne _ ne
    · rfl
  · have asks := bankOf_eq_iff b m
    by_cases here : m.val / 4 = b.val
    · rw [if_pos (asks.mpr here), if_pos here]; exact a.sol_solSet_same m _
    · rw [if_neg (asks.not.mpr here), if_neg here]

/-- The outputs that two failed probes put into the fault hold (R499, R523). -/
theorem Chip.senseOpen_acts : c.BankActs (c.senseOpen b t) b := by
  refine Chip.BankActs.foldl _ (fun a m => ?_) _ c
  by_cases hit : m.val / 4 = b.val ∧ c.solUpper m.val = false
  · rw [if_pos hit, ← (bankOf_eq_iff b m).mpr hit.1]
    exact (Chip.solFault_acts a m t 2).onBank
  · rw [if_neg hit]; exact Chip.BankActs.refl a b

theorem Chip.senseOpen_sol (m : Fin 12) : (bankOf m = b ∧ c.solUpper m.val = false → (c.senseOpen b t).sol[m] = c.sol[m].fails 2 t) ∧ (bankOf m ≠ b → (c.senseOpen b t).sol[m] = c.sol[m]) := by
  refine Chip.foldl_outputs (fun _ => ()) _ (fun m o x => (bankOf m = b ∧ c.solUpper m.val = false → x = o.fails 2 t) ∧ (bankOf m ≠ b → x = o)) c (fun _ _ => rfl) (fun a m m' ne => ?_) (fun a m _ => ?_) m
  · split
    · exact (Chip.solFault_acts a m t 2).outs m' ne
    · rfl
  · rw [ne_eq, bankOf_eq_iff]
    exact ⟨fun yes => by rw [if_pos yes]; exact Chip.solFault_sol .., fun no => by rw [if_neg fun yes => no yes.1]⟩

/-- A fault does not end a probe. -/
theorem Chip.senseOpen_bank : ∃ src vs, (c.senseOpen b t).bank[b] = { c.bank[b] with source := src, vsAt := vs } := by
  have kept : ({ (c.senseOpen b t).bank[b] with source := 0, vsAt := none } : SolBank) = { c.bank[b] with source := 0, vsAt := none } :=
    Chip.foldl_preserves c (fun x => ({ x.bank[b] with source := 0, vsAt := none } : SolBank)) _ (fun a m => by
      by_cases hit : m.val / 4 = b.val ∧ c.solUpper m.val = false
      · rw [if_pos hit, ← (bankOf_eq_iff b m).mpr hit.1]
        obtain ⟨src, vs, e⟩ := Chip.solFault_bank a m t 2
        rw [e]
      · rw [if_neg hit]) (List.finRange 12)
  refine ⟨(c.senseOpen b t).bank[b].source, (c.senseOpen b t).bank[b].vsAt, ?_⟩
  exact (congrArg (fun q : SolBank => { q with source := (c.senseOpen b t).bank[b].source, vsAt := (c.senseOpen b t).bank[b].vsAt }) kept : _)

theorem Chip.probeDone_passes (mv : Nat) (probing : c.bank[b].probing = true) (low : mv ≤ 300) :
    c.probeDone b mv t = (c.bankSet b { c.bank[b] with probing := false, probeFails := 0, probeFailed := false, probeExists := true }).openCoil b :=
  (if_pos probing).trans (if_neg (Nat.not_lt.mpr low))

/-- The bank after a failed probe, with no suspicion left. -/
def Chip.probeFailing : Chip := (c.bankSet b { c.bank[b] with probing := false, probeFails := c.bank[b].probeFails + 1, probeFailed := true, probeExists := true }).noSuspect b

theorem Chip.probeDone_fails (mv : Nat) (probing : c.bank[b].probing = true) (high : 300 < mv) :
    c.probeDone b mv t = if 1 ≤ c.bank[b].probeFails then (c.probeFailing b).senseOpen b t else c.probeFailing b :=
  (if_pos probing).trans (if_pos high)

theorem Chip.probeFailing_frame : (c.probeFailing b).sansSol = c.sansSol ∧
    (c.probeFailing b).bank = c.bank.set b { c.bank[b] with probing := false, probeFails := c.bank[b].probeFails + 1, probeFailed := true, probeExists := true } :=
  Chip.noSuspect_frame (c.bankSet b _) b

theorem Chip.probeFailing_sol (m : Fin 12) : (c.probeFailing b).sol[m] = if bankOf m = b then { c.sol[m] with openSuspect := false } else c.sol[m] :=
  Chip.noSuspect_sol (c.bankSet b _) b m

/-- A fault sets its flag, turns the output off, and leads it to the fault hold (R527). -/
theorem SolOut.fails_leads {o x : SolOut} {f : Nat} (small : f < 32) (is : x = o.fails f t) : x.sts = o.sts ||| oneBit f ∧ x.latch = o.latch ||| oneBit f ∧ x.low = false ∧
    (o.running = true → x.Failing f) ∧ (o.phase = .idle ∨ o.phase = .rest → x.phase = .fault) := by
  subst is
  obtain ⟨low, sts, latch, -⟩ := SolOut.fails_keeps t o f
  exact ⟨sts, latch, low, SolOut.fails_failing t small, SolOut.fails_fault t f⟩

/-- The second failed probe in a row (R523). -/
theorem Chip.probeDone_again (mv : Nat) (probing : c.bank[b].probing = true) (high : 300 < mv) (again : c.bank[b].probeFails ≠ 0) : let x := c.probeDone b mv t
    (x.bank[b]).probing = false ∧ (x.bank[b]).probeFails = c.bank[b].probeFails + 1 ∧ (x.bank[b]).probeFailed = true ∧ x.hs = c.hs ∧
    ∀ m : Fin 12, (bankOf m = b → c.solUpper m.val = false → x.sol[m] = SolOut.fails { c.sol[m] with openSuspect := false } 2 t) ∧ (bankOf m ≠ b → x.sol[m] = c.sol[m]) := by
  have ran : c.probeDone b mv t = (c.probeFailing b).senseOpen b t := (c.probeDone_fails b t mv probing high).trans (if_pos (Nat.pos_of_ne_zero again))
  obtain ⟨src, vs, bank⟩ := (c.probeFailing b).senseOpen_bank b t
  obtain ⟨frame, banks⟩ := c.probeFailing_frame b
  have crest : (c.probeFailing b).crest = c.crest := (congrArg Chip.crest frame : _)
  have hs : (c.probeFailing b).hs = c.hs := (congrArg Chip.hs frame : _)
  have here : (c.probeFailing b).bank[b] = { c.bank[b] with probing := false, probeFails := c.bank[b].probeFails + 1, probeFailed := true, probeExists := true } := by simp [banks]
  dsimp only
  rw [ran, bank, here]
  refine ⟨rfl, rfl, rfl, ((c.probeFailing b).senseOpen_acts b t).fields.1.trans hs, fun m => ⟨fun inside lower => ?_, fun outside => ?_⟩⟩
  · have lower' : (c.probeFailing b).solUpper m.val = false := by
      unfold Chip.solUpper Chip.solPair
      rw [crest]
      exact lower
    rw [((c.probeFailing b).senseOpen_sol b t m).1 ⟨inside, lower'⟩, c.probeFailing_sol b m, if_pos inside]
  · rw [((c.probeFailing b).senseOpen_sol b t m).2 outside, c.probeFailing_sol b m, if_neg outside]

end

/-! ### The boost store (R506, R509, R528) -/

section
variable (c : Chip) (mv : Nat) (b : Fin 3) (t : Time)

/-- Bank `m` drives a peak from a store that is too low (R509). -/
def Chip.drained (m : Fin 3) : Prop := c.bank[m].source = 2 ∧ mv < c.vFloor ∧ ∃ q : Fin 12, bankOf q = m ∧ c.sol[q].phase = .peak

/-- A drained bank goes to VS with BOOST_LOW. -/
def Chip.drainOne : Chip :=
  if c.bank[b].source = 2 ∧ mv < c.vFloor ∧ ((List.finRange 12).any fun m => m.val / 4 == b.val && c.sol[m].phase == .peak) then
    { c.bankSet b (c.bank[b].toSource 1 t) with bstSts := c.bstSts ||| oneBit 17 }
  else c

theorem Chip.drainOne_asks : (c.bank[b].source = 2 ∧ mv < c.vFloor ∧ ((List.finRange 12).any fun m => m.val / 4 == b.val && c.sol[m].phase == .peak) = true) ↔ c.drained mv b := by
  unfold Chip.drained
  simp [bankOf_eq_iff]

theorem Chip.drainOne_drained (low : c.drained mv b) : c.drainOne mv b t = { c.bankSet b { c.bank[b] with source := 1, changeUntil := t + 2000 } with bstSts := c.bstSts ||| oneBit 17 } := by
  have turned : c.bank[b].toSource 1 t = { c.bank[b] with source := 1, changeUntil := t + 2000 } := if_neg (by rw [low.1]; decide)
  exact (if_pos ((c.drainOne_asks mv b).mpr low)).trans (by rw [turned])

theorem Chip.drainOne_stays (high : ¬ c.drained mv b) : c.drainOne mv b t = c := if_neg ((c.drainOne_asks mv b).not.mpr high)

/-- A chip without its banks and the flags of its store. -/
def Chip.sansBanks (c : Chip) : Chip := { c with bank := .replicate 3 {}, bstSts := 0 }

theorem Chip.drainOne_frame : (c.drainOne mv b t).sansBanks = c.sansBanks := by
  by_cases low : c.drained mv b
  · rw [c.drainOne_drained mv b t low]; rfl
  · rw [c.drainOne_stays mv b t low]

/-- Every drained bank. -/
def Chip.drainAll : Chip := (List.finRange 3).foldl (fun a b => a.drainOne mv b t) c

theorem Chip.drainAll_frame : (c.drainAll mv t).sansBanks = c.sansBanks := Chip.foldl_preserves c Chip.sansBanks _ (fun a b => a.drainOne_frame mv b t) _

theorem Chip.drainAll_bank (m : Fin 3) : (c.drained mv m → (c.drainAll mv t).bank[m] = { c.bank[m] with source := 1, changeUntil := t + 2000 }) ∧ (¬ c.drained mv m → (c.drainAll mv t).bank[m] = c.bank[m]) := by
  let low (m : Fin 3) (q : SolBank) : Prop := q.source = 2 ∧ mv < c.vFloor ∧ ∃ q : Fin 12, bankOf q = m ∧ c.sol[q].phase = .peak
  refine Chip.foldl_each Chip.sansBanks (fun a m => a.bank[m]) (fun a b => a.drainOne mv b t) (fun m q x => (low m q → x = { q with source := 1, changeUntil := t + 2000 }) ∧ (¬ low m q → x = q)) c
    (fun a m => a.drainOne_frame mv m t) (fun a m m' ne => ?_) (fun a m same => ?_) (List.nodup_finRange 3) (List.mem_finRange m)
  · by_cases drained : a.drained mv m
    · rw [a.drainOne_drained mv m t drained]; exact a.bank_bankSet_ne _ ne
    · rw [a.drainOne_stays mv m t drained]
  · have via {β : Type} (g : Chip → β) : g a.sansBanks = g c.sansBanks := congrArg g same
    have asks : low m a.bank[m] ↔ a.drained mv m := by
      dsimp only [low]
      rw [Chip.drained, show a.vFloor = c.vFloor from via Chip.vFloor, show a.sol = c.sol from via Chip.sol]
    rw [asks]
    exact ⟨fun drained => by rw [a.drainOne_drained mv m t drained]; exact a.bank_bankSet_same m _, fun high => by rw [a.drainOne_stays mv m t high]⟩

theorem Chip.drainAll_none (high : ∀ m, ¬ c.drained mv m) : c.drainAll mv t = c := List.foldl_fixed' (fun m => c.drainOne_stays mv m t (high m)) _

/-- As long as no bank was drained the banks stay, and from the first one on BOOST_LOW stands. -/
theorem Chip.drainAll_told : (c.drainAll mv t).bank = c.bank ∨ (c.drainAll mv t).bstSts.getLsbD 17 = true := by
  have run (l : List (Fin 3)) (a : Chip) (told : a.bank = c.bank ∨ a.bstSts.getLsbD 17 = true) : (l.foldl (fun a b => a.drainOne mv b t) a).bank = c.bank ∨ (l.foldl (fun a b => a.drainOne mv b t) a).bstSts.getLsbD 17 = true := by
    induction l generalizing a with
    | nil => exact told
    | cons m l ih =>
      refine ih (a.drainOne mv m t) ?_
      by_cases drained : a.drained mv m
      · rw [a.drainOne_drained mv m t drained]; exact .inr (getLsbD_or_oneBit _ _ (by decide))
      · rw [a.drainOne_stays mv m t drained]; exact told
  exact run _ c (.inl rfl)

theorem Chip.drainAll_flag (low : ∃ m, c.drained mv m) : (c.drainAll mv t).bstSts.getLsbD 17 = true := by
  obtain ⟨m, drained⟩ := low
  refine (c.drainAll_told mv t).resolve_left fun same => ?_
  have turned := (c.drainAll_bank mv t m).1 drained
  rw [same] at turned
  have vs : (1 : Nat) = c.bank[m].source := (congrArg SolBank.source turned).symm
  exact absurd (vs.trans drained.1) (by decide)

/-- The chip with a new measure of its store, before its banks look at it (R506, R528). -/
def Chip.measured : Chip :=
  let stopped := if 50000 < mv then true else if mv ≤ 47500 then false else c.bstStopped
  let ovHold := decide (54000 < mv) || (c.ovHold && decide (50000 ≤ mv))
  { c with
    vBst := mv, bstStopped := stopped
    charging := (bit (c.crest.word 0x3A0) 18 && !stopped && !c.crank && (if c.charging then decide (6000 ≤ c.vs) else decide (8000 ≤ c.vs))) && !ovHold
    ovHold := ovHold, clampInt := ovHold || decide (52000 ≤ mv)
    bstSts := if decide (54000 < mv) && !c.ovHold then c.bstSts ||| oneBit 18 else c.bstSts }

theorem Chip.bstMeasure_eq : c.bstMeasure mv t = (c.measured mv).drainAll mv t := rfl

end

end Sys2Proof.Machine
end

section
/-! SUPPORT. The clears of a BZ31's solenoid flags, and what relearning does (19 R506, R509, R520, R523, R528, R529): obligation O53. -/

namespace Sys2Proof.Machine

section
variable (c : Chip) (k : Fin 12) (t : Time)

/-! ### The measure of the store (R506, R509, R528) -/

variable {c} in
theorem Chip.sansBanks_fields {x : Chip} (e : x.sansBanks = c.sansBanks) :
    (x.vBst = c.vBst ∧ x.bstStopped = c.bstStopped ∧ x.ovHold = c.ovHold ∧ x.clampInt = c.clampInt ∧ x.charging = c.charging) ∧ x.sol = c.sol ∧ x.hs = c.hs ∧ x.schedule = c.schedule ∧ x.crest = c.crest :=
  have via {β : Type} (g : Chip → β) : g x.sansBanks = g c.sansBanks := congrArg g e
  ⟨⟨via Chip.vBst, via Chip.bstStopped, via Chip.ovHold, via Chip.clampInt, via Chip.charging⟩, via Chip.sol, via Chip.hs, via Chip.schedule, via Chip.crest⟩

/-- The overvoltage hold (R528). -/
theorem Chip.measured_ovHold (mv : Nat) : (c.measured mv).ovHold = decide (54000 < mv ∨ (c.ovHold = true ∧ 50000 ≤ mv)) := by
  have is : (c.measured mv).ovHold = (decide (54000 < mv) || (c.ovHold && decide (50000 ≤ mv))) := rfl
  rw [is, Bool.eq_iff_iff]
  simp

theorem Chip.measured_clampInt (mv : Nat) : (c.measured mv).clampInt = decide ((54000 < mv ∨ (c.ovHold = true ∧ 50000 ≤ mv)) ∨ 52000 ≤ mv) := by
  have is : (c.measured mv).clampInt = ((c.measured mv).ovHold || decide (52000 ≤ mv)) := rfl
  rw [is, c.measured_ovHold, Bool.eq_iff_iff]
  simp

/-- The charger runs (R506). -/
theorem Chip.measured_charging (mv : Nat) : (c.measured mv).charging =
    decide ((c.crest.word 0x3A0).getLsbD 18 = true ∧ (c.measured mv).bstStopped = false ∧ c.crank = false ∧ (if c.charging then 6000 else 8000) ≤ c.vs ∧ ¬ (54000 < mv ∨ (c.ovHold = true ∧ 50000 ≤ mv))) := by
  have is : (c.measured mv).charging = ((bit (c.crest.word 0x3A0) 18 && !(c.measured mv).bstStopped && !c.crank && (if c.charging then decide (6000 ≤ c.vs) else decide (8000 ≤ c.vs))) && !(c.measured mv).ovHold) := rfl
  have level : (if c.charging then decide (6000 ≤ c.vs) else decide (8000 ≤ c.vs)) = decide ((if c.charging then 6000 else 8000) ≤ c.vs) := by cases c.charging <;> rfl
  rw [is, c.measured_ovHold, level, Bool.eq_iff_iff]
  simp [bit, and_assoc]

/-- Whether a bank is drained does not change with the measure's other marks. -/
theorem Chip.measured_drained (mv : Nat) (m : Fin 3) : (c.measured mv).drained mv m ↔ c.drained mv m := Iff.rfl

theorem Chip.measured_flags (mv : Nat) : (54000 < mv → c.ovHold = false → (c.measured mv).bstSts.getLsbD 18 = true) ∧ (mv ≤ 54000 → (c.measured mv).bstSts = c.bstSts) := by
  refine ⟨fun high fresh => ?_, fun low => if_neg (by rw [decide_eq_false (Nat.not_lt.mpr low), Bool.false_and]; decide)⟩
  have told : (c.measured mv).bstSts = c.bstSts ||| oneBit 18 := if_pos (by rw [decide_eq_true high, fresh]; rfl)
  rw [told]
  exact getLsbD_or_oneBit _ _ (by decide)

/-- The drains only add BOOST_LOW to the flags of the store. -/
theorem Chip.drainAll_keeps_flag (mv f : Nat) (set : c.bstSts.getLsbD f = true) : (c.drainAll mv t).bstSts.getLsbD f = true := by
  have run (l : List (Fin 3)) (a : Chip) (set : a.bstSts.getLsbD f = true) : (l.foldl (fun a b => a.drainOne mv b t) a).bstSts.getLsbD f = true := by
    induction l generalizing a with
    | nil => exact set
    | cons m l ih =>
      refine ih (a.drainOne mv m t) ?_
      by_cases drained : a.drained mv m
      · rw [a.drainOne_drained mv m t drained]
        show (a.bstSts ||| oneBit 17).getLsbD f = true
        rw [BitVec.getLsbD_or, set, Bool.true_or]
      · rw [a.drainOne_stays mv m t drained]; exact set
  exact run _ c set

/-! ### Relearning (R520) -/

theorem Chip.relearn_frame (mask : Word) : { c.relearn mask with sol := c.sol } = c :=
  Chip.foldl_preserves c (fun x : Chip => { x with sol := c.sol }) _ (fun a m => by split <;> rfl) (List.finRange 12)

theorem Chip.relearn_sol (mask : Word) (m : Fin 12) : (c.relearn mask).sol[m] = if mask.getLsbD m.val then { c.sol[m] with dip := {}, kink := {} } else c.sol[m] := by
  refine Chip.foldl_outputs (fun _ => ()) _ (fun m o x => x = if mask.getLsbD m.val then { o with dip := {}, kink := {} } else o) c (fun _ _ => rfl) (fun a m m' ne => ?_) (fun a m _ => ?_) m
  · split
    · exact a.sol_solSet_ne _ ne
    · rfl
  · by_cases named : mask.getLsbD m.val = true
    · rw [if_pos named, if_pos (show bit mask m.val = true from named)]; exact a.sol_solSet_same m _
    · rw [if_neg named, if_neg (show ¬ bit mask m.val = true from named)]

/-! ### Clears (R529) -/

/-- An operation of output `k` that leaves its flags, and puts it on no way to the fault hold. -/
structure Chip.SolMild (c x : Chip) (k : Fin 12) : Prop where
  acts : c.SolActs x k
  sts : (x.sol[k]).sts = c.sol[k].sts
  latch : (x.sol[k]).latch = c.sol[k].latch
  heals : c.sol[k].toFault = false → (x.sol[k]).toFault = false

variable {c k t} in
theorem Chip.SolMild.trans {x y : Chip} (h : c.SolMild x k) (h' : x.SolMild y k) : c.SolMild y k :=
  ⟨h.acts.trans h'.acts, h'.sts.trans h.sts, h'.latch.trans h.latch, fun whole => h'.heals (h.heals whole)⟩

theorem Chip.SolMild.refl : c.SolMild c k := ⟨Chip.SolActs.refl c k, rfl, rfl, id⟩

theorem Chip.limpPend_mild (l : List Nat) : c.SolMild { c with limpPend := l } k := ⟨(Chip.SolActs.refl c k).limpPend l, rfl, rfl, id⟩

theorem Chip.bankSet_mild (q : SolBank) : c.SolMild (c.bankSet (bankOf k) q) k := ⟨(Chip.SolActs.refl c k).bankSet q, rfl, rfl, id⟩

theorem Chip.solDecay_mild (fast : Bool) : c.SolMild (c.solDecay k fast false t) k := by
  obtain ⟨-, ⟨sts, latch, -⟩, -⟩ := c.sol[k].decays_keeps fast false t
  have turned := c.solDecay_sol k t fast false
  exact ⟨c.solDecay_acts k t fast false, turned ▸ sts, turned ▸ latch, fun whole => turned ▸ SolOut.decays_toFault fast t whole⟩

theorem Chip.solBegin_mild (p : SolProf) (reflex : Bool) : c.SolMild (c.solBegin k p reflex t) k := by
  obtain ⟨acts, sts, latch, heals⟩ := c.solBegin_keeps k reflex t p
  exact ⟨acts, sts, latch, fun _ => heals⟩

theorem Chip.limpStart_mild (p : SolProf) : c.SolMild (c.limpStart k p t) k := by
  unfold Chip.limpStart
  dsimp only
  split
  · exact (Chip.bankSet_mild c k _).trans (Chip.solBegin_mild _ k t p false)
  · exact c.solDecay_mild k t _

theorem Chip.solTakeLimp_mild (entry : Nat) : c.SolMild (c.solTakeLimp k entry t) k := by
  have waits := c.limpPend_mild k (c.limpPend.filter (· != k.val))
  have ends := waits.trans (Chip.solDecay_mild { c with limpPend := c.limpPend.filter (· != k.val) } k t c.sol[k].prof.fastEnd)
  unfold Chip.solTakeLimp
  dsimp only
  split
  · exact waits
  · split
    · exact waits
    · split
      · exact ends
      · split
        · exact waits.trans (Chip.limpPend_mild _ k _)
        · split
          · exact waits.trans (Chip.limpStart_mild _ k t _)
          · exact waits.trans (Chip.solBegin_mild _ k t _ false)
    · exact ends

/-- An output after a clear of the flags `eff`, which refused others or not (R529). -/
def SolOut.cleared (o : SolOut) (eff : Word) (refused : Bool) : SolOut :=
  let o1 := { o with sts := o.sts &&& ~~~eff, latch := o.latch &&& ~~~eff }
  if refused then o1.flag 14 else o1

theorem SolOut.cleared_eq (o : SolOut) (eff : Word) (refused : Bool) :
    o.cleared eff refused = { o with sts := (o.cleared eff refused).sts, latch := o.latch &&& ~~~eff, cnt := (o.cleared eff refused).cnt } := by
  cases refused <;> rfl

theorem SolOut.cleared_sts (o : SolOut) (eff : Word) (refused : Bool) {f : Nat} (other : f ≠ 14) : (o.cleared eff refused).sts.getLsbD f = (o.sts.getLsbD f && !eff.getLsbD f) := by
  cases refused with
  | false => exact getLsbD_andNot o.sts eff f
  | true => exact getLsbD_andNot_or_oneBit o.sts eff other

/-- The flags that a clear asks for and that stay: COIL_HOT near its limit, SENSE_OPEN while its probe fails (R529). -/
def Chip.solKeeps (mask : Word) (fails : Bool) : Bool × Bool :=
  (bit mask 6 && bit c.sol[k].sts 6 && decide ((c.tCoilMax k.val : Rat) - 20 < c.thetaC k), bit mask 2 && bit c.sol[k].sts 2 && fails)

/-- The flags that a clear takes away. -/
def Chip.solEffect (mask : Word) (fails : Bool) : Word := flagsCleared mask 15 6 2 (c.solKeeps k mask fails).1 (c.solKeeps k mask fails).2

/-- The output after a clear, before it leaves the fault hold. -/
def Chip.solCleared (mask : Word) (fails : Bool) : SolOut := c.sol[k].cleared (c.solEffect k mask fails) ((c.solKeeps k mask fails).1 || (c.solKeeps k mask fails).2)

/-- An output that a clear moved, after the limp entry that it may then take. -/
def Chip.limpAfter (o : SolOut) (entry : Nat) : Chip := if c.supervisor = .limp then (c.solSet k o).solTakeLimp k entry t else c.solSet k o

theorem Chip.limpAfter_keeps (o : SolOut) (entry : Nat) : let x := c.limpAfter k t o entry
    c.SolActs x k ∧ (x.sol[k]).sts = o.sts ∧ (x.sol[k]).latch = o.latch ∧ (o.toFault = false → (x.sol[k]).toFault = false) := by
  have set : (c.solSet k o).sol[k] = o := c.sol_solSet_same k o
  unfold Chip.limpAfter
  by_cases limp : c.supervisor = .limp
  · rw [if_pos limp]
    obtain ⟨acts, sts, latch, heals⟩ := (c.solSet k o).solTakeLimp_mild k t entry
    rw [set] at sts latch heals
    exact ⟨((Chip.SolActs.refl c k).solSet o).trans acts, sts, latch, heals⟩
  · rw [if_neg limp]
    dsimp only
    rw [set]
    exact ⟨(Chip.SolActs.refl c k).solSet o, rfl, rfl, id⟩

section
variable (mask : Word) (fails : Bool) (entry : Nat)

theorem Chip.solClear_leaves (leaves : c.sol[k].phase = .fault ∧ (c.solCleared k mask fails).latch = 0) :
    c.solClear k mask fails entry t = c.limpAfter k t { c.solCleared k mask fails with phase := .idle } entry := if_pos leaves

theorem Chip.solClear_heals (held : ¬ (c.sol[k].phase = .fault ∧ (c.solCleared k mask fails).latch = 0)) (heals : c.sol[k].toFault = true ∧ (c.solCleared k mask fails).latch = 0) :
    c.solClear k mask fails entry t = c.limpAfter k t { c.solCleared k mask fails with toFault := false } entry := (if_neg held).trans (if_pos heals)

theorem Chip.solClear_stays (held : ¬ (c.sol[k].phase = .fault ∧ (c.solCleared k mask fails).latch = 0)) (fails_ : ¬ (c.sol[k].toFault = true ∧ (c.solCleared k mask fails).latch = 0)) :
    c.solClear k mask fails entry t = c.solSet k (c.solCleared k mask fails) := (if_neg held).trans (if_neg fails_)

/-- A clear's flags, and where it leaves the output (R527, R529). -/
theorem Chip.solClear_result : let o := c.sol[k]
    let o2 := c.solCleared k mask fails
    let x := c.solClear k mask fails entry t
    c.SolActs x k ∧ (x.sol[k]).sts = o2.sts ∧ (x.sol[k]).latch = o2.latch ∧
      (¬ (o.phase = .fault ∧ o2.latch = 0) → ¬ (o.toFault = true ∧ o2.latch = 0) → x.sol[k] = o2) ∧ (o.phase = .fault → o2.latch ≠ 0 → x.sol[k] = o2) ∧
      (o.phase = .fault → o2.latch = 0 → c.supervisor ≠ .limp → (x.sol[k]).phase = .idle) ∧ (o.phase ≠ .fault → o.toFault = true → o2.latch = 0 → (x.sol[k]).toFault = false) := by
  intro o o2
  have latched {p q : Prop} (h : ¬ p) (no : q ∧ p) : False := h no.2
  by_cases leaves : o.phase = .fault ∧ o2.latch = 0
  · obtain ⟨acts, sts, latch, -⟩ := c.limpAfter_keeps k t { o2 with phase := .idle } entry
    rw [c.solClear_leaves k t mask fails entry leaves]
    refine ⟨acts, sts, latch, fun no _ => absurd leaves no, fun _ stays => absurd leaves.2 stays, fun _ _ active => ?_, fun free => absurd leaves.1 free⟩
    have set : c.limpAfter k t { o2 with phase := .idle } entry = c.solSet k { o2 with phase := .idle } := if_neg active
    rw [set, Chip.sol_solSet_same]
  · by_cases heals : o.toFault = true ∧ o2.latch = 0
    · obtain ⟨acts, sts, latch, healed⟩ := c.limpAfter_keeps k t { o2 with toFault := false } entry
      rw [c.solClear_heals k t mask fails entry leaves heals]
      exact ⟨acts, sts, latch, fun _ no => absurd heals no, fun _ stays => absurd heals.2 stays, fun fault clean => absurd ⟨fault, clean⟩ leaves, fun _ _ _ => healed rfl⟩
    · rw [c.solClear_stays k t mask fails entry leaves heals]
      dsimp only
      rw [Chip.sol_solSet_same]
      exact ⟨(Chip.SolActs.refl c k).solSet _, rfl, rfl, fun _ _ => rfl, fun _ _ => rfl, fun fault clean => absurd ⟨fault, clean⟩ leaves, fun _ hold clean => absurd ⟨hold, clean⟩ heals⟩

theorem Chip.solKeeps_hot : (c.solKeeps k mask fails).1 = true ↔ mask.getLsbD 6 = true ∧ c.sol[k].sts.getLsbD 6 = true ∧ (c.tCoilMax k.val : Rat) - 20 < c.thetaC k := by
  rw [Chip.solKeeps, Bool.and_eq_true, Bool.and_eq_true, decide_eq_true_iff, and_assoc]
  rfl

theorem Chip.solKeeps_open : (c.solKeeps k mask fails).2 = true ↔ mask.getLsbD 2 = true ∧ c.sol[k].sts.getLsbD 2 = true ∧ fails = true := by
  rw [Chip.solKeeps, Bool.and_eq_true, Bool.and_eq_true, and_assoc]
  rfl

/-- A clear, flag by flag, and where it leaves the output (R527, R529). -/
theorem Chip.solClear_clears : let o := c.sol[k]
    let hot := mask.getLsbD 6 = true ∧ o.sts.getLsbD 6 = true ∧ (c.tCoilMax k.val : Rat) - 20 < c.thetaC k
    let gap := mask.getLsbD 2 = true ∧ o.sts.getLsbD 2 = true ∧ fails = true
    let x := c.solClear k mask fails entry t
    c.SolActs x k ∧
      (∀ f, f < 15 → mask.getLsbD f = true → ¬ (f = 6 ∧ hot) → ¬ (f = 2 ∧ gap) → (f ≠ 14 → (x.sol[k]).sts.getLsbD f = false) ∧ (x.sol[k]).latch.getLsbD f = false) ∧
      (∀ f, mask.getLsbD f = false ∨ 15 ≤ f ∨ (f = 6 ∧ hot) ∨ (f = 2 ∧ gap) → (f ≠ 14 → (x.sol[k]).sts.getLsbD f = o.sts.getLsbD f) ∧ (x.sol[k]).latch.getLsbD f = o.latch.getLsbD f) ∧
      (hot ∨ gap → (x.sol[k]).sts.getLsbD 14 = true) ∧ (o.phase ≠ .fault → o.toFault = false → (x.sol[k]).phase = o.phase ∧ (x.sol[k]).low = o.low) ∧
      (o.phase = .fault → (x.sol[k]).latch ≠ 0 → (x.sol[k]).phase = .fault) ∧
      (o.phase = .fault → (x.sol[k]).latch = 0 → c.supervisor ≠ .limp → (x.sol[k]).phase = .idle) ∧ (o.phase ≠ .fault → o.toFault = true → (x.sol[k]).latch = 0 → (x.sol[k]).toFault = false) := by
  intro o hot gap x
  obtain ⟨acts, sts, latch, keeps, stays, leaves, heals⟩ := c.solClear_result k t mask fails entry
  have rest := SolOut.cleared_eq o (c.solEffect k mask fails) ((c.solKeeps k mask fails).1 || (c.solKeeps k mask fails).2)
  have isHot : (c.solKeeps k mask fails).1 = true ↔ hot := c.solKeeps_hot k mask fails
  have isGap : (c.solKeeps k mask fails).2 = true ↔ gap := c.solKeeps_open k mask fails
  have bits (f : Nat) : (f ≠ 14 → (x.sol[k]).sts.getLsbD f = (o.sts.getLsbD f && !(c.solEffect k mask fails).getLsbD f)) ∧ (x.sol[k]).latch.getLsbD f = (o.latch.getLsbD f && !(c.solEffect k mask fails).getLsbD f) := by
    refine ⟨fun other => ?_, ?_⟩
    · rw [sts]; exact SolOut.cleared_sts _ _ _ other
    · rw [latch, Chip.solCleared, rest]; exact getLsbD_andNot ..
  have whole (h : x.sol[k] = c.solCleared k mask fails) : (x.sol[k]).phase = o.phase ∧ (x.sol[k]).low = o.low := by
    rw [h, Chip.solCleared, rest]
    exact ⟨rfl, rfl⟩
  refine ⟨acts, fun f small asked noHot noGap => ?_, fun f spared => ?_, fun refused => ?_, fun free unheld => ?_, fun fault held => ?_, fun fault clean => leaves fault (latch.symm.trans clean), fun free hold clean => heals free hold (latch.symm.trans clean)⟩
  · have gone : (c.solEffect k mask fails).getLsbD f = true := flagsCleared_clears small asked (by rwa [isHot]) (by rwa [isGap])
    obtain ⟨bitS, bitL⟩ := bits f
    rw [gone, Bool.not_true, Bool.and_false] at bitS bitL
    exact ⟨bitS, bitL⟩
  · have kept : (c.solEffect k mask fails).getLsbD f = false := flagsCleared_spares (by rw [isHot, isGap]; exact spared)
    obtain ⟨bitS, bitL⟩ := bits f
    rw [kept, Bool.not_false, Bool.and_true] at bitS bitL
    exact ⟨bitS, bitL⟩
  · have told : ((c.solKeeps k mask fails).1 || (c.solKeeps k mask fails).2) = true := by rw [Bool.or_eq_true, isHot, isGap]; exact refused
    rw [sts, Chip.solCleared, told]
    exact getLsbD_or_oneBit _ 14 (by decide)
  · exact whole (keeps (fun both => free both.1) fun both => absurd (both.1.symm.trans unheld) (by decide))
  · exact (whole (stays fault fun clean => held (latch.trans clean))).1.trans fault

/-- The probe at a clear moves its bank alone (R523). -/
theorem Chip.clearProbe_bank : ∃ q, c.clearProbe k mask fails = c.bankSet (bankOf k) q := by
  unfold Chip.clearProbe
  dsimp only
  split
  · exact ⟨_, rfl⟩
  · exact ⟨_, (c.bankSet_self _).symm⟩

end

end

/-- The continuity probe, the boost store, relearning, and the clearing of flags (19 R506, R509, R520, R523, R524, R528, R529). -/
theorem solenoidStores_hold : Sys2Proof.Claims.SolenoidStores := by
  intro s n k b ev rf samples i2 volts ma uj mv on who j mask t c o goes one rest fades powered
  have stays {f : Chip → Chip} (e : f c = c) : (Host.Outcome.next (s.onLive n f) : Host.Outcome State Fault Refusal) = .next s := State.onLive_stays e
  have sends {f : Chip → Chip} {p : Chip → Prop} (hp : p (f c)) : goes (.next (s.onLive n f)) p := s.onLive_goes n f p powered hp
  have sent {f : Chip → Chip} {x : Chip} {p : Chip → Prop} (e : f c = x) (hp : p x) : goes (.next (s.onLive n f)) p := sends (f := f) (p := p) (e.symm ▸ hp)
  refine ⟨⟨fun no => stays (if_neg ((c.solProbe_runs b).not.mp no)), fun runs => sends (if_pos ((c.solProbe_runs b).mp runs))⟩, ⟨?idle, ?passes, ?first, ?again⟩, ?measure, ?relearn, ?clear⟩
  case idle => exact fun idle => stays (if_neg (Bool.eq_false_iff.mp idle))
  case passes =>
    intro probing low
    obtain ⟨bank, hs⟩ := Chip.openCoil_frame (c.bankSet b { c.bank[b] with probing := false, probeFails := 0, probeFailed := false, probeExists := true }) b
    refine sent (c.probeDone_passes b t mv probing low) ⟨bank, hs, fun m => ?_⟩
    obtain ⟨opens, keeps⟩ := Chip.openCoil_sol (c.bankSet b { c.bank[b] with probing := false, probeFails := 0, probeFailed := false, probeExists := true }) b m
    exact ⟨fun hit => SolOut.opened_flags (opens hit), fun miss => keeps fun hit => miss.elim (fun out => out hit.1) fun no => absurd (hit.2.symm.trans no) (by decide)⟩
  case first =>
    intro probing high fresh
    obtain ⟨frame, banks⟩ := c.probeFailing_frame b
    rw [fresh] at banks
    exact sent ((c.probeDone_fails b t mv probing high).trans (if_neg (by rw [fresh]; decide))) ⟨banks, (congrArg Chip.hs frame : _), c.probeFailing_sol b⟩
  case again =>
    intro probing high again
    obtain ⟨idle, count, failed, hs, outs⟩ := c.probeDone_again b t mv probing high again
    exact sends ⟨idle, count, failed, hs, fun m => ⟨fun inside lower => SolOut.fails_leads (o := { c.sol[m] with openSuspect := false }) t (by decide) ((outs m).1 inside lower), (outs m).2⟩⟩
  case measure =>
    obtain ⟨⟨vBst, full, hold, clamp, charging⟩, sol, hs, schedule, crest⟩ := Chip.sansBanks_fields ((c.measured mv).drainAll_frame mv t)
    obtain ⟨high, low⟩ := c.measured_flags mv
    exact sent (c.bstMeasure_eq mv t) ⟨vBst, full, sol, hs, schedule, crest, hold.trans (c.measured_ovHold mv), clamp.trans (c.measured_clampInt mv), charging.trans (c.measured_charging mv), fun over_ fresh => (c.measured mv).drainAll_keeps_flag t mv 18 (high over_ fresh), fun drained => (c.measured mv).drainAll_flag mv t drained,
      fun none_ inside => (congrArg Chip.bstSts ((c.measured mv).drainAll_none mv t none_)).trans (low inside), fun m drained => ((c.measured mv).drainAll_bank mv t m).1 drained, fun m full => ((c.measured mv).drainAll_bank mv t m).2 full⟩
  case relearn => exact sends ⟨c.relearn_frame mask, c.relearn_sol mask⟩
  case clear =>
    intro hot gap
    obtain ⟨q, probed⟩ := c.clearProbe_bank k mask (decide (300 < mv))
    obtain ⟨acts, clears, spares, told, free, held, leaves, heals⟩ := (c.bankSet (bankOf k) q).solClear_clears k t mask (bit (bankCfg c.crest (bankOf k).val) 26 && decide (300 < mv)) (c.limpByte (12 + k.val))
    obtain ⟨hs, schedule, crest, -⟩ := acts.fields
    have fails : (bit (bankCfg c.crest (bankOf k).val) 26 && decide (300 < mv)) = true ↔ (bankCfg c.crest (bankOf k).val).getLsbD 26 = true ∧ 300 < mv := by
      rw [Bool.and_eq_true, decide_eq_true_iff]
      rfl
    rw [fails] at clears spares told
    refine sent (congrArg (fun x : Chip => x.solClear k mask (bit (bankCfg c.crest (bankOf k).val) 26 && decide (300 < mv)) (c.limpByte (12 + k.val)) t) probed) ?_
    exact ⟨acts.outs, hs, schedule, crest, clears, spares, told, free, held, leaves, heals⟩

end Sys2Proof.Machine
end

section
/-! SUPPORT. The events of a BZ31's solenoid outputs (19 R501, R505, R508, R511 to R514): obligation O53. -/

namespace Sys2Proof.Machine

/-! ### Receipt checks (R501) -/

section
variable (c : Chip) (k : Fin 12) (t : Time)

/-- An event that is refused as BAD (R501). -/
def Chip.solBadEvent (ev : BzEvent) : Prop :=
  12 ≤ ev.index ∨ ev.action ≠ 4 ∨ 32 ≤ ev.profile ∨ (solProf (c.evBank ev.stamp) ev.profile).bad = true ∨ c.solEn ev.index = false ∨ c.solUpper ev.index = true

/-- An output that takes no event now (R501). -/
def Chip.solHolds (index : Nat) : Prop := c.supervisor = .powerup ∨ ∃ m : Fin 12, m.val = index ∧ c.solHeld m = true

theorem Chip.solCheck_event (ev : BzEvent) : let r := c.solCheck ev.action ev.index ev.profile (c.evBank ev.stamp)
    (c.solBadEvent ev → r = 4) ∧ (¬ c.solBadEvent ev → c.solHolds ev.index → r = 3) ∧ (¬ c.solBadEvent ev → ¬ c.solHolds ev.index → r = 0) := by
  by_cases inside : ev.index < 12
  · have shown : c.solBadEvent ev ↔ (ev.action ≠ 4 ∨ 32 ≤ ev.profile) ∨ ((solProf (c.evBank ev.stamp) ev.profile).bad || !c.solEn ev.index || c.solUpper ev.index) = true := by
      rw [Bool.or_eq_true, Bool.or_eq_true, Bool.not_eq_true', Chip.solBadEvent]
      have : ¬ 12 ≤ ev.index := Nat.not_le.mpr inside
      tauto
    have holds : c.solHolds ev.index ↔ (c.solHeld ⟨ev.index, inside⟩ || c.supervisor == .powerup) = true := by
      rw [Bool.or_eq_true, beq_iff_eq, or_comm]
      exact or_congr_right ⟨fun ⟨m, e, h⟩ => (Fin.ext e : m = ⟨ev.index, inside⟩) ▸ h, fun h => ⟨_, rfl, h⟩⟩
    unfold Chip.solCheck
    rw [idx12_of_lt inside]
    exact receipt_verdict shown holds
  · have outside : 12 ≤ ev.index := Nat.not_lt.mp inside
    unfold Chip.solCheck
    rw [idx12_of_ge outside]
    exact ⟨fun _ => rfl, fun good => absurd (.inl outside) good, fun good => absurd (.inl outside) good⟩

theorem Chip.solReceive_refused (ev : BzEvent) {r : Nat} (refused : c.solCheck ev.action ev.index ev.profile (c.evBank ev.stamp) = r) (some_ : r ≠ 0) :
    c.solReceive ev t = c.reply ev.id r t := by
  unfold Chip.solReceive
  dsimp only
  rw [refused]
  split
  · exact absurd rfl some_
  · rfl

/-! ### Overlap arbitration (R511, R512) -/

section
variable {c} {x : Chip}

theorem Chip.solMult_of_crest (same : x.crest = c.crest) (n : Nat) : x.solMult n = c.solMult n := by
  unfold Chip.solMult Chip.solPair
  rw [same]

theorem Chip.solWin_of_crest (same : x.crest = c.crest) (n : Nat) (p : SolProf) (s : Time) : x.solWin n p s = c.solWin n p s := by
  unfold Chip.solWin Chip.solHoldMa
  rw [Chip.solMult_of_crest same]

theorem Chip.sumsOk_of_crest (same : x.crest = c.crest) (cfg : Settings) (ws : List SolWin) (n : Fin 12) (p : SolProf) (w : SolWin) : x.sumsOk cfg ws n p w = c.sumsOk cfg ws n p w := by
  unfold Chip.sumsOk Chip.solPeakMa
  rw [Chip.solMult_of_crest same]

/-- The arbitration sees of the chip its crest alone. -/
theorem Chip.arbitrate_of_crest (same : x.crest = c.crest) (cfg : Settings) (ws : List SolWin) (n : Fin 12) (p : SolProf) (fire : Time) (fuel : Nat) (s : Time) :
    x.arbitrate cfg ws n p fire fuel s = c.arbitrate cfg ws n p fire fuel s := by
  induction fuel generalizing s with
  | zero => rfl
  | succ fuel ih =>
    unfold Chip.arbitrate
    rw [Chip.solWin_of_crest same]
    dsimp only
    rw [Chip.sumsOk_of_crest same]
    split
    · exact ih _
    · rfl

end

/-- The later of two ends of peak windows. -/
def laterEnd (b : Option Time) (e : Time) : Option Time :=
  match b with
  | none => some e
  | some x => some (max x e)

/-- The latest of some ends lies beyond what each of them lies beyond. -/
theorem foldl_laterEnd_gt (s : Time) (ends : List Time) (b : Option Time) (inside : ∀ e ∈ ends, s < e) (start : ∀ x, b = some x → s < x) (e : Time) (last : ends.foldl laterEnd b = some e) : s < e := by
  induction ends generalizing b with
  | nil => exact start e last
  | cons v ends ih =>
    refine ih (laterEnd b v) (fun e he => inside e (List.mem_cons_of_mem _ he)) (fun x hx => ?_) last
    have here := inside v List.mem_cons_self
    cases b with
    | none => exact Option.some.inj hx ▸ here
    | some y => exact Option.some.inj hx ▸ lt_max_of_lt_right here

/-- A clash ends after the start of the window that it meets (R512). -/
theorem peakClash_gt {ws : List SolWin} {w : SolWin} {e : Time} (clash : peakClash ws w = some e) : w.start < e := by
  unfold peakClash at clash
  split at clash
  · exact absurd clash.symm (Option.some_ne_none e)
  · refine foldl_laterEnd_gt w.start _ none (fun v hv => ?_) (fun x no => absurd no.symm (Option.some_ne_none x)) e clash
    obtain ⟨u, -, meets⟩ := List.mem_filterMap.mp hv
    split at meets
    · exact absurd meets.symm (Option.some_ne_none v)
    · split at meets
      · rename_i hits
        obtain rfl := Option.some.inj meets
        exact of_decide_eq_true (Bool.and_eq_true_iff.mp hits).1
      · exact absurd meets.symm (Option.some_ne_none v)

/-- What the arbitration gives is a start within the slack, without a clash, whose sums are within the limits (R512). -/
theorem Chip.arbitrate_some {cfg : Settings} {ws : List SolWin} {n : Fin 12} {p : SolProf} {fire st : Time} (fuel : Nat) (s : Time) (later : fire ≤ s)
    (gives : c.arbitrate cfg ws n p fire fuel s = some st) :
    fire ≤ st ∧ st ≤ fire + 1000 * p.slackUs ∧ peakClash ws (c.solWin n p st) = none ∧ c.sumsOk cfg ws n p (c.solWin n p st) = true := by
  induction fuel generalizing s with
  | zero => exact absurd gives.symm (Option.some_ne_none st)
  | succ fuel ih =>
    unfold Chip.arbitrate at gives
    dsimp only at gives
    split at gives
    · rename_i e clash
      exact ih e (later.trans (peakClash_gt clash : s < e).le) gives
    · rename_i free
      split at gives
      · rename_i passes
        obtain ⟨sums, slack⟩ := Bool.and_eq_true_iff.mp passes
        obtain rfl := Option.some.inj gives
        exact ⟨later, Nat.sub_le_iff_le_add'.mp (of_decide_eq_true slack), free, sums⟩
      · exact absurd gives.symm (Option.some_ne_none st)

/-- What the arbitration's result makes of an event that passed its checks: OVERLAP, or a place in the schedule and its windows (R512, R513). -/
def Chip.solAnswer (p : SolProf) (ev : BzEvent) : Option Time → Chip
  | none => (c.bankCount (bankOf k) 0).reply ev.id 1 t
  | some st =>
    let c2 := { c with schedule := c.schedule ++ [BzSched.mk ev st] }
    let c3 := c2.bankSet (bankOf k) { c2.bank[bankOf k] with windows := c2.bank[bankOf k].windows ++ [c2.solWin k p st] }
    (if ev.fire < st then c3.bankCount (bankOf k) 1 else c3).reply ev.id 0 t

theorem Chip.solReceive_answers (ev : BzEvent) (index : ev.index = k.val) (passed : c.solCheck ev.action ev.index ev.profile (c.evBank ev.stamp) = 0) :
    let p := solProf (c.evBank ev.stamp) ev.profile
    let ws := liveWins c.bank[bankOf k].windows t
    c.solReceive ev t = (c.bankSet (bankOf k) { c.bank[bankOf k] with windows := ws }).solAnswer k t p ev (c.arbitrate (c.evBank ev.stamp) ws k p ev.fire (ws.length + 1) ev.fire) := by
  intro p ws
  rw [← Chip.arbitrate_of_crest (x := c.bankSet (bankOf k) { c.bank[bankOf k] with windows := ws }) (c := c) rfl]
  unfold Chip.solReceive
  dsimp only
  rw [passed, index, idx12_val]
  rfl

/-- An event that passes its checks, by its arbitration. -/
theorem Chip.solReceive_passed (ev : BzEvent) (index : ev.index = k.val) (passed : c.solCheck ev.action ev.index ev.profile (c.evBank ev.stamp) = 0) :
    let p := solProf (c.evBank ev.stamp) ev.profile
    let ws := liveWins c.bank[bankOf k].windows t
    let cnt := c.bank[bankOf k].cnt
    let start := c.arbitrate (c.evBank ev.stamp) ws k p ev.fire (ws.length + 1) ev.fire
    (start = none → c.solReceive ev t = { c.bankSet (bankOf k) { c.bank[bankOf k] with windows := ws, cnt := satByte cnt 0 1 } with tx := c.tx ++ [.reply ev.id 1 t] }) ∧
    (∀ at_, start = some at_ → c.solReceive ev t =
      { c.bankSet (bankOf k) { c.bank[bankOf k] with windows := ws ++ [c.solWin k p at_], cnt := if ev.fire < at_ then satByte cnt 1 1 else cnt } with schedule := c.schedule ++ [{ ev := ev, start := at_ }], tx := c.tx ++ [.reply ev.id 0 t] }) := by
  intro p ws cnt start
  let c1 := c.bankSet (bankOf k) { c.bank[bankOf k] with windows := ws }
  have opens : c.solReceive ev t = c1.solAnswer k t p ev start := c.solReceive_answers k t ev index passed
  have here : c1.bank[bankOf k] = { c.bank[bankOf k] with windows := ws } := c.bank_bankSet_same _ _
  refine ⟨fun none_ => ?_, fun at_ some_ => ?_⟩
  · rw [opens, none_]
    unfold Chip.solAnswer
    rw [Chip.bankCount, here, Chip.bankSet_bankSet]
    rfl
  · rw [opens, some_]
    let c2 := { c1 with schedule := c1.schedule ++ [BzSched.mk ev at_] }
    have stored : c2.bankSet (bankOf k) { c2.bank[bankOf k] with windows := c2.bank[bankOf k].windows ++ [c2.solWin k p at_] } =
        c2.bankSet (bankOf k) { c.bank[bankOf k] with windows := ws ++ [c.solWin k p at_] } := by
      rw [show c2.bank[bankOf k] = _ from here, Chip.solWin_of_crest (x := c2) (c := c) rfl]
    unfold Chip.solAnswer
    dsimp only
    rw [stored]
    by_cases late : ev.fire < at_
    · rw [if_pos late, if_pos late, Chip.bankCount, Chip.bank_bankSet_same, Chip.bankSet_bankSet]
      simp [c2, c1, Chip.bankSet, Chip.reply, Chip.send, cnt]
    · rw [if_neg late, if_neg late]
      simp [c2, c1, Chip.bankSet, Chip.reply, Chip.send, cnt]

end

end Sys2Proof.Machine
end

section
/-! SUPPORT. The starts and reflexes of a BZ31's solenoid outputs (19 R501, R505, R508, R514): obligation O53. -/

namespace Sys2Proof.Machine

section
variable (c : Chip) (k : Fin 12) (t : Time)

/-! ### Outputs that give way to a peak (R514) -/

/-- A REFLEX output in its peak, in the bank of output `k`, gives way to a scheduled peak there. -/
def Chip.yields (o : SolOut) (m : Fin 12) : Prop := m.val / 4 = k.val / 4 ∧ m ≠ k ∧ o.reflex = true ∧ o.peaking = true

theorem Chip.reflexYield_acts : c.BankActs (c.reflexYield k t) (bankOf k) := by
  refine Chip.BankActs.foldl _ (fun a m => ?_) _ c
  dsimp only
  split
  · rename_i gives
    have here : bankOf m = bankOf k := Fin.ext gives.1
    split
    · exact here ▸ ((Chip.SolActs.refl a m).solSet _).onBank
    · exact here ▸ (Chip.solDecay_acts a m t _ false).onBank
  · exact Chip.BankActs.refl a _

theorem SolOut.running_of_peaking {o : SolOut} (peaking : o.peaking = true) : o.running = true := by
  unfold SolOut.running
  rw [peaking, Bool.true_or]

theorem Chip.reflexYield_sol (m : Fin 12) :
    (Chip.yields k c.sol[m] m → ((c.reflexYield k t).sol[m]).phase = if c.sol[m].prof.holdI ≠ 0 then .hold else .decay) ∧ (¬ Chip.yields k c.sol[m] m → (c.reflexYield k t).sol[m] = c.sol[m]) := by
  refine Chip.foldl_outputs (fun _ => ()) _ (fun m o x => (Chip.yields k o m → x.phase = if o.prof.holdI ≠ 0 then .hold else .decay) ∧ (¬ Chip.yields k o m → x = o)) c (fun _ _ => rfl)
    (fun a m m' ne => ?_) (fun a m _ => ?_) m
  · dsimp only
    split
    · split
      · exact a.sol_solSet_ne _ ne
      · exact (Chip.solDecay_acts a m t _ false).outs m' ne
    · rfl
  · refine ⟨fun gives => ?_, fun no => ?_⟩
    · unfold Chip.yields at gives
      dsimp only
      rw [if_pos gives]
      by_cases hold : a.sol[m].prof.holdI ≠ 0
      · rw [if_pos hold, if_pos hold, Chip.sol_solSet_same]
      · rw [if_neg hold, if_neg hold, Chip.solDecay_sol, SolOut.decays_running _ _ _ (SolOut.running_of_peaking gives.2.2.2)]
    · unfold Chip.yields at no
      dsimp only
      rw [if_neg no]

/-! ### The first phase (R502, R505) -/

/-- A profile with a peak (R502). -/
theorem Chip.solBegin_peaks {p : SolProf} (peak : p.peakI ≠ 0) (reflex : Bool) : let x := c.solBegin k p reflex t
    (x.sol[k]).phase = .peak ∧ (x.sol[k]).low = true ∧ (x.sol[k]).prof = p ∧ (x.sol[k]).peakStart = t ∧ (x.sol[k]).reflex = reflex ∧ (x.bank[bankOf k]).source = (if p.boost then 2 else 1) := by
  have out : ((c.solBegin k p reflex t).sol[k]) = { c.sol[k].begun p reflex t with phase := .peak, peakStart := t, low := true } := by
    rw [c.solBegin_peak k reflex t peak]
    exact c.sol_solSet_same k _
  have bank : (c.solBegin k p reflex t).bank[bankOf k] = { c.bank[bankOf k].noProbe.toSource (if p.boost then 2 else 1) t with vsAt := none } := by
    rw [c.solBegin_peak k reflex t peak, Chip.bank_bankSet_same]
  have turned (q : SolBank) (src : Nat) : (q.toSource src t).source = src := by
    unfold SolBank.toSource
    split
    · assumption
    · rfl
  dsimp only
  rw [out, bank]
  exact ⟨rfl, rfl, rfl, rfl, rfl, turned _ _⟩

/-- A profile that begins with its hold (R505). -/
theorem Chip.solBegin_holds {p : SolProf} (peak : p.peakI = 0) (hold : p.holdI ≠ 0) (reflex : Bool) : let x := c.solBegin k p reflex t
    (x.sol[k]).phase = .hold ∧ (x.sol[k]).low = true ∧ (x.sol[k]).prof = p ∧ (x.sol[k]).phaseStart = t ∧ (x.bank[bankOf k]).source ≠ 0 := by
  have out : ((c.solBegin k p reflex t).sol[k]) = { c.sol[k].begun p reflex t with phase := .hold, low := true } := by
    rw [c.solBegin_hold k reflex t peak hold]
    exact c.sol_solSet_same k _
  have fed : ((c.solBegin k p reflex t).bank[bankOf k]).source ≠ 0 := by
    rw [c.solBegin_hold k reflex t peak hold, Chip.bank_bankSet_same]
    dsimp only
    split
    · rename_i dark
      rw [show c.bank[bankOf k].noProbe.toSource 1 t = { c.bank[bankOf k].noProbe with source := 1, changeUntil := t + 2000 } from if_neg (by rw [dark]; decide)]
      exact Nat.one_ne_zero
    · split <;> assumption
  dsimp only
  rw [out]
  exact ⟨rfl, rfl, rfl, rfl, fed⟩

/-- A profile with no current ends what its output runs (R505). -/
theorem Chip.solBegin_stops {p : SolProf} (peak : p.peakI = 0) (hold : p.holdI = 0) (running : c.sol[k].running = true) (reflex : Bool) : let x := c.solBegin k p reflex t
    (x.sol[k]).phase = .decay ∧ (x.sol[k]).fast = p.fastEnd ∧ (x.sol[k]).low = false ∧ (x.sol[k]).prof = p := by
  have idle : c.sol[k].phase ≠ .idle := fun e => (SolOut.still_not_running (.inl e)).1 running
  have rests : c.sol[k].phase ≠ .rest := fun e => (SolOut.still_not_running (.inr e)).1 running
  have decay : c.sol[k].phase ≠ .decay := fun e => by
    unfold SolOut.running SolOut.peaking at running
    rw [e] at running
    exact absurd running (by decide)
  let o := { c.sol[k].begun p reflex t with phase := if c.sol[k].phase = SolPhase.rest then .hold else c.sol[k].phase }
  have still : o.running = true := by
    show ((if c.sol[k].phase = SolPhase.rest then SolPhase.hold else c.sol[k].phase) == .peak || (if c.sol[k].phase = SolPhase.rest then SolPhase.hold else c.sol[k].phase) == .dwell ||
      (if c.sol[k].phase = SolPhase.rest then SolPhase.hold else c.sol[k].phase) == .hold) = true
    rw [if_neg rests]
    exact running
  have out : ((c.solBegin k p reflex t).sol[k]) = o.decays p.fastEnd false t := by
    rw [c.solBegin_ends k reflex t peak hold idle decay, Chip.solDecay_sol, Chip.sol_solSet_same]
  dsimp only
  rw [out, SolOut.decays_running _ _ _ still]
  exact ⟨rfl, rfl, rfl, rfl⟩

/-! ### The start of an event (R501, R508) -/

end

/-- A start takes its event from the schedule; a chip with an older bank may then retire it (R327). -/
theorem Chip.solStart_due {c : Chip} {k : Fin 12} {t : Time} {q : BzSched} (due : c.dueEvent 1 k t = some q) :
    let p := solProf (c.evBank q.ev.stamp) q.ev.profile
    let us := q.start / 1000
    let c1 := c.unschedule q
    c.solStart k t = Chip.retireBank (if c.solHeld k || c.solUpper k then c1.solSet k (c1.sol[k].flag 13)
      else if p.peakI ≠ 0 ∧ c.energyOk k p us = false then c1.boostRefuse k p q.ev.id us t
      else if p.peakI ≠ 0 then (c1.reflexYield k t).solBegin k p false t
      else c1.solBegin k p false t) := by
  unfold Chip.solStart
  rw [due]

section
variable {c : Chip} {k : Fin 12} {t : Time} {q : BzSched} (due : c.dueEvent 1 k t = some q)

/-- The retirement of an older bank leaves these. -/
theorem Chip.retireBank_fields (y : Chip) : y.retireBank.schedule = y.schedule ∧ y.retireBank.crest = y.crest ∧ y.retireBank.hs = y.hs ∧ y.retireBank.tx = y.tx ∧ y.retireBank.sol = y.sol ∧ y.retireBank.bank = y.bank := by
  rw [Chip.retireBank_eq]
  exact ⟨rfl, rfl, rfl, rfl, rfl, rfl⟩

theorem Chip.boostRefuse_fields (c : Chip) (k : Fin 12) (t : Time) (p : SolProf) (id us : Nat) : let y := c.boostRefuse k p id us t
    y.schedule = c.schedule ∧ y.crest = c.crest ∧ y.hs = c.hs ∧ y.tx = c.tx ++ [.reply id 2 t] ∧ y.sol = (c.solSet k { c.sol[k].flag 11 with dipVerdict := 0, kinkVerdict := 0 }).sol ∧
    y.bank = (c.bankSet (bankOf k) { c.bank[bankOf k] with cnt := satByte c.bank[bankOf k].cnt 3 1 }).bank := ⟨rfl, rfl, rfl, rfl, rfl, rfl⟩

/-- What every start leaves alone, but for the event that it takes from the schedule. -/
def Chip.Starts (c x : Chip) (k : Fin 12) (q : BzSched) : Prop := x.schedule = c.schedule.erase q ∧ x.crest = c.crest ∧ x.hs = c.hs ∧ ∀ m : Fin 3, m ≠ bankOf k → x.bank[m] = c.bank[m]

/-- An operation of the bank, and the retirement after it, start as `Starts` says. -/
theorem Chip.BankActs.starts {y : Chip} (acts : (c.unschedule q).BankActs y (bankOf k)) : c.Starts y.retireBank k q ∧ y.retireBank.tx = c.tx ∧ y.retireBank.sol = y.sol ∧ y.retireBank.bank = y.bank := by
  obtain ⟨hs, schedule, crest, tx, -⟩ := acts.fields
  obtain ⟨schedule', crest', hs', tx', sol, bank⟩ := y.retireBank_fields
  exact ⟨⟨schedule'.trans schedule, crest'.trans crest, hs'.trans hs, fun m ne => bank.symm ▸ acts.banks m ne⟩, tx'.trans tx, sol, bank⟩

include due

/-- A start at an output that is held, or is the upper one of a pair (R501). -/
theorem Chip.solStart_held (held : c.solHeld k = true ∨ c.solUpper k.val = true) : let x := c.solStart k t
    c.Starts x k q ∧ x.sol[k] = c.sol[k].flag 13 ∧ x.tx = c.tx ∧ x.bank = c.bank ∧ ∀ m : Fin 12, m ≠ k → x.sol[m] = c.sol[m] := by
  have ran : c.solStart k t = ((c.unschedule q).solSet k (c.sol[k].flag 13)).retireBank :=
    (Chip.solStart_due due).trans (congrArg Chip.retireBank (if_pos (Bool.or_eq_true_iff.mpr held)))
  obtain ⟨starts, tx, sol, bank⟩ := Chip.BankActs.starts ((Chip.SolActs.refl (c.unschedule q) k).solSet (c.sol[k].flag 13)).onBank
  dsimp only
  rw [ran]
  simp only [sol, bank]
  exact ⟨starts, Chip.sol_solSet_same .., tx, rfl, fun m ne => Chip.sol_solSet_ne (c.unschedule q) _ ne⟩

variable (free : ¬ (c.solHeld k = true ∨ c.solUpper k.val = true))
include free

/-- A peak that the store cannot feed (R508). -/
theorem Chip.solStart_refused (peak : (solProf (c.evBank q.ev.stamp) q.ev.profile).peakI ≠ 0) (poor : c.energyOk k (solProf (c.evBank q.ev.stamp) q.ev.profile) (q.start / 1000) = false) :
    let x := c.solStart k t
    c.Starts x k q ∧ x.sol[k] = { c.sol[k].flag 11 with dipVerdict := 0, kinkVerdict := 0 } ∧ x.tx = c.tx ++ [.reply q.ev.id 2 t] ∧
      x.bank[bankOf k].cnt = satByte c.bank[bankOf k].cnt 3 1 ∧ ∀ m : Fin 12, m ≠ k → x.sol[m] = c.sol[m] := by
  have ran : c.solStart k t = ((c.unschedule q).boostRefuse k (solProf (c.evBank q.ev.stamp) q.ev.profile) q.ev.id (q.start / 1000) t).retireBank :=
    (Chip.solStart_due due).trans (congrArg Chip.retireBank ((if_neg fun h => free (Bool.or_eq_true_iff.mp h)).trans (if_pos ⟨peak, poor⟩)))
  obtain ⟨schedule, crest, hs, tx, sol, bank⟩ := ((c.unschedule q).boostRefuse k (solProf (c.evBank q.ev.stamp) q.ev.profile) q.ev.id (q.start / 1000) t).retireBank_fields
  obtain ⟨refS, refC, refH, refT, refSol, refBank⟩ := (c.unschedule q).boostRefuse_fields k t (solProf (c.evBank q.ev.stamp) q.ev.profile) q.ev.id (q.start / 1000)
  rw [← ran] at schedule crest hs tx sol bank
  have out : (c.solStart k t).sol = (c.solSet k { c.sol[k].flag 11 with dipVerdict := 0, kinkVerdict := 0 }).sol := sol.trans refSol
  have stored : (c.solStart k t).bank = (c.bankSet (bankOf k) { c.bank[bankOf k] with cnt := satByte c.bank[bankOf k].cnt 3 1 }).bank := bank.trans refBank
  dsimp only
  refine ⟨⟨schedule.trans refS, crest.trans refC, hs.trans refH, fun m ne => ?_⟩, ?_, tx.trans refT, ?_, fun m ne => ?_⟩
  · rw [stored, c.bank_bankSet_ne _ ne]
  · rw [out, Chip.sol_solSet_same]
  · rw [stored, Chip.bank_bankSet_same]
  · rw [out, c.sol_solSet_ne _ ne]

/-- A peak that the store can feed (R502, R508, R514). -/
theorem Chip.solStart_peaks (peak : (solProf (c.evBank q.ev.stamp) q.ev.profile).peakI ≠ 0) (fed : c.energyOk k (solProf (c.evBank q.ev.stamp) q.ev.profile) (q.start / 1000) = true) :
    let p := solProf (c.evBank q.ev.stamp) q.ev.profile
    let x := c.solStart k t
    c.Starts x k q ∧ x.tx = c.tx ∧ ((x.sol[k]).phase = .peak ∧ (x.sol[k]).low = true ∧ (x.sol[k]).prof = p ∧ (x.sol[k]).peakStart = t ∧ (x.sol[k]).reflex = false ∧ (x.bank[bankOf k]).source = (if p.boost then 2 else 1)) ∧
      ∀ m : Fin 12, m ≠ k → (bankOf m = bankOf k ∧ c.sol[m].reflex = true ∧ c.sol[m].peaking = true → (x.sol[m]).phase = if c.sol[m].prof.holdI ≠ 0 then .hold else .decay) ∧
        (¬ (bankOf m = bankOf k ∧ c.sol[m].reflex = true ∧ c.sol[m].peaking = true) → x.sol[m] = c.sol[m]) := by
  intro p
  let y := (c.unschedule q).reflexYield k t
  have ran : c.solStart k t = (y.solBegin k p false t).retireBank :=
    (Chip.solStart_due due).trans (congrArg Chip.retireBank ((if_neg fun h => free (Bool.or_eq_true_iff.mp h)).trans ((if_neg fun h => absurd (fed.symm.trans h.2) (by decide)).trans (if_pos peak))))
  have begins := (y.solBegin_keeps k false t p).1
  obtain ⟨starts, tx, sol, bank⟩ := Chip.BankActs.starts (((c.unschedule q).reflexYield_acts k t).trans begins.onBank)
  dsimp only
  rw [ran]
  simp only [sol, bank]
  refine ⟨starts, tx, y.solBegin_peaks k t peak false, fun m ne => ?_⟩
  obtain ⟨gives, stays⟩ := (c.unschedule q).reflexYield_sol k t m
  rw [begins.outs m ne]
  refine ⟨fun ⟨here, reflex, peaking⟩ => gives ⟨congrArg Fin.val here, ne, reflex, peaking⟩, fun no => stays fun ⟨here, _, reflex, peaking⟩ => no ⟨Fin.ext here, reflex, peaking⟩⟩

/-- A profile without a peak (R505). -/
theorem Chip.solStart_plain (flat : (solProf (c.evBank q.ev.stamp) q.ev.profile).peakI = 0) : let p := solProf (c.evBank q.ev.stamp) q.ev.profile
    let x := c.solStart k t
    c.Starts x k q ∧ (∀ m : Fin 12, m ≠ k → x.sol[m] = c.sol[m]) ∧
      (p.holdI ≠ 0 → (x.sol[k]).phase = .hold ∧ (x.sol[k]).low = true ∧ (x.sol[k]).prof = p ∧ (x.sol[k]).phaseStart = t ∧ (x.bank[bankOf k]).source ≠ 0) ∧
      (p.holdI = 0 → c.sol[k].running = true → (x.sol[k]).phase = .decay ∧ (x.sol[k]).fast = p.fastEnd ∧ (x.sol[k]).low = false ∧ (x.sol[k]).prof = p) := by
  intro p
  have ran : c.solStart k t = ((c.unschedule q).solBegin k p false t).retireBank :=
    (Chip.solStart_due due).trans (congrArg Chip.retireBank ((if_neg fun h => free (Bool.or_eq_true_iff.mp h)).trans ((if_neg fun h => h.1 flat).trans (if_neg (not_not.mpr flat)))))
  have begins := ((c.unschedule q).solBegin_keeps k false t p).1
  obtain ⟨starts, -, sol, bank⟩ := Chip.BankActs.starts begins.onBank
  dsimp only
  rw [ran]
  simp only [sol, bank]
  exact ⟨starts, fun m ne => begins.outs m ne, fun hold => (c.unschedule q).solBegin_holds k t flat hold false, fun hold running => (c.unschedule q).solBegin_stops k t flat hold running false⟩

end

/-! ### Reflexes (R514) -/

section
variable (c : Chip) (k : Fin 12) (t : Time) (rf : BzReflex)

theorem Chip.solReflex_outside (outside : 12 ≤ rf.index) : c.solReflex rf t = c := by
  unfold Chip.solReflex
  rw [idx12_of_ge outside]

theorem Chip.solReflex_refused (index : rf.index = k.val) (bad : c.solCheck rf.action k.val rf.profile c.crest ≠ 0) : c.solReflex rf t = c.solSet k (c.sol[k].flag 13) := by
  unfold Chip.solReflex
  rw [index, idx12_val]
  dsimp only
  split
  · exact absurd ‹_› bad
  · rfl

/-- The bank and the store have room for a reflex (R514). -/
def Chip.reflexRoom (p : SolProf) : Prop :=
  (∀ m : Fin 12, bankOf m = bankOf k → c.sol[m].peaking = false) ∧ peakClash (liveWins c.bank[bankOf k].windows t) (c.solWin k p t) = none ∧
  c.sumsOk c.crest (liveWins c.bank[bankOf k].windows t) k p (c.solWin k p t) = true ∧ (p.peakI = 0 ∨ c.energyOk k p (t / 1000) = true)

theorem Chip.solReflex_passed (index : rf.index = k.val) (passed : c.solCheck rf.action k.val rf.profile c.crest = 0) : let p := solProf c.crest rf.profile
    (c.reflexRoom k t p → c.solReflex rf t = c.solBegin k p true t) ∧ (¬ c.reflexRoom k t p → c.solReflex rf t = (c.solSet k (c.sol[k].flag 12)).bankCount (bankOf k) 2) := by
  intro p
  have asks : c.reflexRoom k t p ↔ (!((List.finRange 12).any fun m => m.val / 4 == (bankOf k).val && c.sol[m].peaking) && (peakClash (liveWins c.bank[bankOf k].windows t) (c.solWin k p t)).isNone &&
      c.sumsOk c.crest (liveWins c.bank[bankOf k].windows t) k p (c.solWin k p t) && (p.peakI == 0 || c.energyOk k p (t / 1000))) = true := by
    rw [Bool.and_eq_true, Bool.and_eq_true, Bool.and_eq_true, c.no_peaking (bankOf k), Option.isNone_iff_eq_none, Bool.or_eq_true, beq_iff_eq, and_assoc, and_assoc]
    rfl
  have opens : c.solReflex rf t = if (!((List.finRange 12).any fun m => m.val / 4 == (bankOf k).val && c.sol[m].peaking) && (peakClash (liveWins c.bank[bankOf k].windows t) (c.solWin k p t)).isNone &&
      c.sumsOk c.crest (liveWins c.bank[bankOf k].windows t) k p (c.solWin k p t) && (p.peakI == 0 || c.energyOk k p (t / 1000))) = true then c.solBegin k p true t
      else (c.solSet k (c.sol[k].flag 12)).bankCount (bankOf k) 2 := by
    unfold Chip.solReflex
    rw [index, idx12_val]
    dsimp only
    rw [passed]
    rfl
  exact ⟨fun room => opens.trans (if_pos (asks.mp room)), fun no => opens.trans (if_neg (asks.not.mp no))⟩

end

/-- The events, starts and reflexes of a solenoid output (19 R501, R505, R508, R511 to R514). -/
theorem solenoidEvents_hold : Sys2Proof.Claims.SolenoidEvents := by
  intro s n k b ev rf samples i2 volts ma uj mv on who j mask t c o goes one rest fades
  refine ⟨fun dark => ?dark, fun powered => ?powered⟩
  case dark =>
    have idle (f : Chip → Chip) : (Host.Outcome.next (s.onLive n f) : Host.Outcome State Fault Refusal) = .next s := congrArg _ (s.onLive_off n f dark)
    exact ⟨idle _, idle _, idle _, idle _, idle _, idle _, idle _, idle _, idle _, idle _, idle _, idle _, idle _, idle _, idle _, idle _, idle _, idle _⟩
  have stays {f : Chip → Chip} (e : f c = c) : (Host.Outcome.next (s.onLive n f) : Host.Outcome State Fault Refusal) = .next s := State.onLive_stays e
  have sends {f : Chip → Chip} {p : Chip → Prop} (hp : p (f c)) : goes (.next (s.onLive n f)) p := s.onLive_goes n f p powered hp
  have sent {f : Chip → Chip} {x : Chip} {p : Chip → Prop} (e : f c = x) (hp : p x) : goes (.next (s.onLive n f)) p := sends (f := f) (p := p) (e.symm ▸ hp)
  refine ⟨?receive, ?early, ?start, ?reflex⟩
  case receive =>
    obtain ⟨bad, held, free⟩ := c.solCheck_event ev
    refine ⟨fun h => sends (c.solReceive_refused t ev (bad h) (by decide)), fun good h => sends (c.solReceive_refused t ev (held good h) (by decide)), fun good clear index => ?_⟩
    obtain ⟨clashes, gives⟩ := c.solReceive_passed k t ev index (free good clear)
    refine ⟨fun none_ => sends (clashes none_), fun at_ some_ => ?_⟩
    obtain ⟨from_, slack, clear, sums⟩ := c.arbitrate_some _ ev.fire le_rfl some_
    exact ⟨from_, slack, clear, sums, sends (gives at_ some_)⟩
  case early =>
    intro later
    refine stays ?_
    unfold Chip.solStart
    rw [Chip.dueEvent_none later]
  case start =>
    intro q due p held us
    by_cases barred : held
    · obtain ⟨⟨schedule, crest, hs, banks⟩, out, tx, bank, others⟩ := Chip.solStart_held due barred
      exact sends ⟨schedule, crest, hs, banks, fun _ => ⟨out, tx, bank⟩, fun free => absurd barred free, fun free => absurd barred free, fun m ne _ => others m ne, fun _ _ free => absurd barred free,
        fun free => absurd barred free, fun free => absurd barred free⟩
    by_cases peak : p.peakI ≠ 0
    · have flat {r : Prop} (no : p.peakI = 0) : r := absurd no peak
      cases fed : c.energyOk k p us with
      | false =>
        obtain ⟨⟨schedule, crest, hs, banks⟩, out, tx, count, others⟩ := Chip.solStart_refused due barred peak fed
        exact sends ⟨schedule, crest, hs, banks, fun no => absurd no barred, fun _ _ _ => ⟨out, tx, count⟩, fun _ _ yes => absurd yes (by decide), fun m ne _ => others m ne,
          fun _ _ _ _ yes => absurd yes (by decide), fun _ no => flat no, fun _ no => flat no⟩
      | true =>
        obtain ⟨⟨schedule, crest, hs, banks⟩, tx, ⟨phase, low, prof, start, reflex, source⟩, others⟩ := Chip.solStart_peaks due barred peak fed
        refine sends ⟨schedule, crest, hs, banks, fun no => absurd no barred, fun _ _ no => absurd no (by decide), fun _ _ _ => ⟨tx, phase, low, prof, start, reflex, source⟩, fun m ne out => ?_,
          fun m ne _ _ _ here reflex peaking => (others m ne).1 ⟨here, reflex, peaking⟩, fun _ no => flat no, fun _ no => flat no⟩
        refine (others m ne).2 fun ⟨here, reflex, peaking⟩ => ?_
        obtain no | no | no | no | no | no := out
        exacts [barred no, peak no, absurd no (by decide), no here, absurd (reflex.symm.trans no) (by decide), absurd (peaking.symm.trans no) (by decide)]
    · rw [not_not] at peak
      obtain ⟨⟨schedule, crest, hs, banks⟩, others, holds, stops⟩ := Chip.solStart_plain due barred peak
      exact sends ⟨schedule, crest, hs, banks, fun no => absurd no barred, fun _ no => absurd peak no, fun _ no => absurd peak no, fun m ne _ => others m ne, fun _ _ _ no => absurd peak no,
        fun _ _ hold => holds hold, fun _ _ hold running => stops hold running⟩
  case reflex =>
    intro fresh kind c1 p ws w room pass
    have first : c.reflexReceive rf t = c1.solReflex rf t := (if_neg fresh).trans (if_neg kind)
    refine ⟨fun outside => sends (first.trans (c1.solReflex_outside t rf outside)), fun index bad => sends ⟨_, first.trans (c1.solReflex_refused k t rf index bad), rfl⟩, fun index passed full => ?full, fun index passed free peak => ?free⟩
    case full =>
      have acts : c1.SolActs ((c1.solSet k (o.flag 12)).bankSet (bankOf k) { c.bank[bankOf k] with cnt := satByte c.bank[bankOf k].cnt 2 1 }) k := ((Chip.SolActs.refl c1 k).solSet _).bankSet _
      refine sent (first.trans ((c1.solReflex_passed k t rf index passed).2 full)) ⟨acts.stands, Chip.sol_solSet_same c1 k _, ?_⟩
      exact Chip.bank_bankSet_same (c1.solSet k (o.flag 12)) (bankOf k) _
    case free =>
      obtain ⟨acts, -⟩ := c1.solBegin_keeps k true t p
      obtain ⟨phase, low, prof, start, reflex, -⟩ := c1.solBegin_peaks k t peak true
      exact sent (first.trans ((c1.solReflex_passed k t rf index passed).1 free)) ⟨acts.stands, phase, low, prof, reflex, start⟩

/-- Settles O53: an output's events, its phases, its diagnostics, and the stores beside it. -/
theorem chipSolenoidResults : Obligations.ChipSolenoidResults := ⟨solenoidEvents_hold, solenoidPhases_hold, solenoidDiagnostics_hold, solenoidStores_hold⟩

end Sys2Proof.Machine
end

section
/-! SUPPORT. Camera streams (16 R416 to R424): obligation O33. -/

namespace Sys2Proof.Machine

/-! ### Streams and what an event's time leaves of them -/

section
variable (s : State) (die : Fin 2) (r : Fin 8) (t : Time)

@[simp] theorem State.at_camIn (n : Nat) : (s.at t).camIn die n = s.camIn die n := by rw [State.at_eq]; rfl
@[simp] theorem State.at_rxUp : (s.at t).rxUp die r = s.rxUp die r := by rw [State.at_eq]; rfl
@[simp] theorem State.at_camMatch (vc dt : Nat) : (s.at t).camMatch die r vc dt = s.camMatch die r vc dt := by rw [State.at_eq]; rfl
variable {s} in
theorem State.stamping_not_replaying {j f : Nat} (stamps : s.stamping j f = true) : s.replaying = false := by
  unfold State.stamping at stamps
  simp only [Bool.and_eq_true, Bool.not_eq_true'] at stamps
  exact stamps.1.2

/-- A stream's replacement is what the stream then reads. -/
theorem State.camIn_setCam {n m : Nat} (inside : n < 24) (x : Cam) : (s.setCam die n x).camIn die m = if m = n then x else s.camIn die m := by
  unfold State.camIn State.setCam
  by_cases here : m = n
  · subst here; simp [inside]
  · have apart : n ≠ m := Ne.symm here
    simp [here, List.getD, apart]

/-- What a stream's replacement leaves: everything but the stream. -/
theorem State.setCam_setCam (n : Nat) (x y : Cam) : (s.setCam die n x).setCam die n y = s.setCam die n y := by
  unfold State.setCam
  simp

/-! ### Which packets a receiver takes (R416, R417) -/

/-- A frame start that is heard. -/
theorem State.frameStart_heard (vc dt : Nat) (up : (s.at t).rxUp die r = true) (stamps : (s.at t).stamping die 2 = true) :
    execFrameStart die r vc dt t s = .next (match (s.at t).camMatch die r vc dt with
      | [] => (s.at t).inFlag die 4
      | ns => ns.foldl (fun u n => u.startFrame die n t) (s.at t)) := by
  have heard : ¬ ((!(s.at t).rxUp die r) = true ∨ (!(s.at t).stamping die 2) = true) := by rw [up, stamps]; decide
  exact congrArg Host.Outcome.next (if_neg heard)

theorem State.frameStart_one (vc dt n : Nat) (up : (s.at t).rxUp die r = true) (stamps : (s.at t).stamping die 2 = true) (one : (s.at t).camMatch die r vc dt = [n]) :
    execFrameStart die r vc dt t s = .next ((s.at t).startFrame die n t) := by
  rw [State.frameStart_heard s die r t vc dt up stamps, one]
  rfl

/-- The end of a stream's frame, as its receiver hears it. -/
def State.frameEndOn (n : Nat) : State :=
  match (s.camIn die n).cur with
  | none => s
  | some f => s.endFrame die n (decide (f.lines ≠ s.camH die n))

theorem State.frameEnd_heard (vc dt : Nat) (up : (s.at t).rxUp die r = true) (live : (s.at t).replaying = false) :
    execFrameEnd die r vc dt t s = .next (match (s.at t).camMatch die r vc dt with
      | [] => (s.at t).inFlag die 4
      | ns => ns.foldl (fun u n => u.frameEndOn die n) (s.at t)) := by
  have heard : ¬ ((!(s.at t).rxUp die r) = true ∨ (s.at t).replaying = true) := by rw [up, live]; decide
  exact congrArg Host.Outcome.next (if_neg heard)

theorem State.frameEnd_one (vc dt n : Nat) (up : (s.at t).rxUp die r = true) (live : (s.at t).replaying = false) (one : (s.at t).camMatch die r vc dt = [n]) :
    execFrameEnd die r vc dt t s = .next ((s.at t).frameEndOn die n) := by
  rw [State.frameEnd_heard s die r t vc dt up live, one]
  rfl

/-- The end of a frame that takes too long (R418). -/
def State.readoutEnd (n : Nat) : State :=
  match (s.camIn die n).cur with
  | none => s
  | some f => if stampTime f.stamp + s.readoutMax die n ≤ s.time.now then s.endFrame die n true else s

theorem State.readoutTimeout_hears (n : Fin 24) : execFrameReadoutTimeout die n t s = .next ((s.at t).readoutEnd die n) := rfl

theorem State.longPacket_good (vc dt : Nat) (c o : Bool) (p : List Byte) (up : s.rxUp die r = true) (live : s.replaying = false) :
    execCsiLongPacket die r vc dt .good c o p s = .next (match s.camMatch die r vc dt with
      | [] => s.inFlag die 4
      | ns => ns.foldl (fun u n => u.frameLine die n c o p) s) := by
  have heard : ¬ ((!s.rxUp die r) = true ∨ s.replaying = true) := by rw [up, live]; decide
  exact congrArg Host.Outcome.next (if_neg heard)

theorem State.longPacket_one (vc dt n : Nat) (c o : Bool) (p : List Byte) (up : s.rxUp die r = true) (live : s.replaying = false) (one : s.camMatch die r vc dt = [n]) :
    execCsiLongPacket die r vc dt .good c o p s = .next (s.frameLine die n c o p) := by
  rw [State.longPacket_good s die r vc dt c o p up live, one]
  rfl

/-! ### A packet whose header cannot be told (R418) -/

/-- The frame of a stream, if there is one, is damaged. -/
def State.damage (n : Nat) : State := s.setCam die n { s.camIn die n with cur := (s.camIn die n).cur.map fun f => { f with damaged := true } }

theorem State.longPacket_bad (vc dt : Nat) (c o : Bool) (p : List Byte) (up : s.rxUp die r = true) (live : s.replaying = false) :
    execCsiLongPacket die r vc dt .bad c o p s = .next (((s.damage die (3 * r.val)).damage die (3 * r.val + 1)).damage die (3 * r.val + 2)) := by
  have heard : ¬ ((!s.rxUp die r) = true ∨ s.replaying = true) := by rw [up, live]; decide
  exact congrArg Host.Outcome.next (if_neg heard)

theorem State.damage_same {n : Nat} (inside : n < 24) : ((s.damage die n).camIn die n).cur = (s.camIn die n).cur.map fun f => { f with damaged := true } := by
  unfold State.damage
  rw [s.camIn_setCam die inside, if_pos rfl]

theorem State.damage_other {n m : Nat} (inside : n < 24) (other : m ≠ n) : (s.damage die n).camIn die m = s.camIn die m := by
  unfold State.damage
  rw [s.camIn_setCam die inside, if_neg other]

/-! ### The start of a frame (R418, R419, R421) -/

/-- No job of a frame is there to be stopped (R422). -/
theorem State.reclaimSlot_none (n slot : Nat) (none_ : ∀ j ∈ s.jobs, j.kind ≠ 2) : s.reclaimSlot die n slot = s := by
  unfold State.reclaimSlot
  have empty (f : Job → Prop) [DecidablePred f] : (s.jobs.filter fun x => decide (x.kind = 2 ∧ f x)) = [] :=
    List.filter_eq_nil_iff.mpr fun x mem yes => none_ x mem (of_decide_eq_true yes).1
  exact congrArg (List.foldl _ s) (empty _)

section
variable {s die}
variable {n : Nat} (idle : (s.camIn die n).cur = none)
include idle

theorem State.endFrame_idle (damaged : Bool) : s.endFrame die n damaged = s := by
  unfold State.endFrame
  dsimp only
  rw [idle]

variable (stores : s.camStores die n = true)
include stores

/-- A frame that is skipped whole: its stamp holds the stream until it ends. -/
def State.skipFrame (s : State) (die : Fin 2) (n : Nat) (t : Time) : State :=
  s.setCam die n { s.camIn die n with cur := some { stamp := keyStamp (eventKey t (camByte die n)), number := 0, stored := false } }

/-- A frame too soon after the last one (R419). -/
def State.camSoon (s : State) (die : Fin 2) (n : Nat) (t : Time) : Prop := ∃ l, (s.camIn die n).last = some l ∧ stampTime (keyStamp (eventKey t (camByte die n))) < l + s.frameMin die n

theorem State.startFrame_noRoom (full : s.ringFits die n = false) : s.startFrame die n t = (s.skipFrame die n t).inFlag die 5 := by
  unfold State.startFrame
  rw [State.endFrame_idle idle]
  simp [stores, full, State.skipFrame]

theorem State.startFrame_soon (fits : s.ringFits die n = true) (soon : s.camSoon die n t) : s.startFrame die n t = (s.skipFrame die n t).inFlag die 3 := by
  obtain ⟨l, last, early⟩ := soon
  unfold State.startFrame
  rw [State.endFrame_idle idle]
  simp [stores, fits, last, early, State.skipFrame]

theorem State.startFrame_stored (fits : s.ringFits die n = true) (late : ¬ s.camSoon die n t) (none_ : ∀ j ∈ s.jobs, j.kind ≠ 2) : let x := s.camIn die n
    let st := keyStamp (eventKey t (camByte die n))
    s.startFrame die n t = (s.setCam die n { x with cur := some { stamp := st, number := x.frames, stored := true }, last := some (stampTime st), frames := (x.frames + 1) % 2 ^ 32, slots := x.slots ++ [(x.frames % s.camSlots die n, st)] }).laneArrive
      die true (camByte die n) { key := eventKey t (camByte die n) } := by
  unfold State.startFrame
  rw [State.endFrame_idle idle]
  dsimp only
  rw [State.reclaimSlot_none s die n _ none_]
  cases last : (s.camIn die n).last with
  | none => simp [stores, fits]
  | some l =>
    have later : ¬ stampTime (keyStamp (eventKey t (camByte die n))) < l + s.frameMin die n := fun early => late ⟨l, last, early⟩
    simp [stores, fits, later]

end

end

/-! ### Lines and the end of a frame (R418, R420, R423, R424) -/

section
variable {s : State} {die : Fin 2} {n : Nat} {f : FrameIn} (open_ : (s.camIn die n).cur = some f)
include open_

theorem State.frameEndOn_open : s.frameEndOn die n = s.endFrame die n (decide (f.lines ≠ s.camH die n)) := by
  unfold State.frameEndOn
  rw [open_]

variable (stored : f.stored = true)
include stored

/-- A line of the stream's length, whole. -/
theorem State.frameLine_stores (p : List Byte) (whole : p.length = lineBytes (s.camDt die n) (s.camW die n)) :
    s.frameLine die n true false p = (s.storeLine die n f p).setCam die n { s.camIn die n with cur := some { f with lines := f.lines + 1 } } := by
  unfold State.frameLine
  dsimp only
  rw [open_]
  simp [stored, whole]

/-- A line with an error (R418). -/
theorem State.frameLine_ends (c o : Bool) (p : List Byte) (bad : o = true ∨ c = false ∨ p.length ≠ lineBytes (s.camDt die n) (s.camW die n)) : s.frameLine die n c o p = s.endFrame die n true := by
  have damaged : o = true ∨ (!c) = true ∨ p.length ≠ lineBytes (s.camDt die n) (s.camW die n) := by simpa using bad
  unfold State.frameLine
  dsimp only
  rw [open_]
  simp only [stored, Bool.not_true, Bool.false_eq_true, if_false]
  exact if_pos damaged

/-- A whole frame becomes an item of the data lane (R423, R424). -/
theorem State.endFrame_whole (whole : f.damaged = false) : s.endFrame die n false =
    ((s.setCam die n { s.camIn die n with cur := none }).laneArrive die false (camByte die n) { key := keyOf f.stamp 0, body := s.frameBody die n f }).frameResolved f.stamp false := by
  obtain ⟨stamp, number, kept, lines, damaged⟩ := f
  obtain rfl : damaged = false := whole
  obtain rfl : kept = true := stored
  unfold State.endFrame
  dsimp only
  rw [open_]
  rfl

end

/-- Settles O33: a packet reaches at most one stream, and each is what the stream's operation of that name does. -/
theorem cameraResults : Obligations.CameraResults := by
  intro s die r vc dt t v
  have up_ : v.rxUp die r = s.rxUp die r := s.at_rxUp die r t
  have match_ : v.camMatch die r vc dt = s.camMatch die r vc dt := s.at_camMatch die r t vc dt
  have live_ (stamps : v.stamping die 2 = true) : s.replaying = false := (s.at_replaying t).symm.trans (State.stamping_not_replaying stamps)
  refine ⟨fun locked => ?lock, rfl, fun down => ?down, fun up stamps no => ?unmatched, fun c o p up live => ?bad, fun n inside up stamps one => ?one, fun n f open_ => ?timeout, fun n idle => ?noTimeout⟩
  case lock =>
    have asks : ((!s.mesaLive die) = true ∨ (!s.fuses.optV) = true ∨ (!bit (s.reg (rxCtl die r)) 0) = true) ↔ ¬ (s.mesaLive die = true ∧ s.fuses.optV = true ∧ (s.reg (rxCtl die r)).getLsbD 0 = true) := by
      simp [bit, imp_iff_not_or]
    exact congrArg Host.Outcome.next ((if_congr asks rfl rfl).trans (ite_not _ _ _))
  case down =>
    have deaf : (!v.rxUp die r) = true := by rw [down]; rfl
    have deaf' : (!s.rxUp die r) = true := by rw [← up_]; exact deaf
    exact ⟨congrArg Host.Outcome.next (if_pos (.inl deaf)), congrArg Host.Outcome.next (if_pos (.inl deaf)), fun h c o p => congrArg Host.Outcome.next (if_pos (.inl deaf'))⟩
  case unmatched =>
    have no' : s.camMatch die r vc dt = [] := match_.symm.trans no
    refine ⟨(s.frameStart_heard die r t vc dt up stamps).trans ?_, (s.frameEnd_heard die r t vc dt up (State.stamping_not_replaying stamps)).trans ?_,
      fun c o p => (s.longPacket_good die r vc dt c o p (up_.symm.trans up) (live_ stamps)).trans ?_⟩
    · rw [show (s.at t).camMatch die r vc dt = [] from no]
    · rw [show (s.at t).camMatch die r vc dt = [] from no]
    · rw [no']
  case bad =>
    refine ⟨_, s.longPacket_bad die r vc dt c o p up live, rfl, rfl, fun k => ?_⟩
    have small := r.isLt
    obtain ⟨k, hk⟩ := k
    obtain rfl | rfl | rfl : k = 0 ∨ k = 1 ∨ k = 2 := by omega
    · rw [State.damage_other _ _ (by omega) (by simp), State.damage_other _ _ (by omega) (by simp)]
      exact s.damage_same die (by omega)
    · rw [State.damage_other _ _ (by omega) (by simp), State.damage_same _ _ (by omega), State.damage_other _ _ (by omega) (by simp)]
    · rw [State.damage_same _ _ (by omega), State.damage_other _ _ (by omega) (by simp), State.damage_other _ _ (by omega) (by simp)]
  case one =>
    intro x st
    have seen : v.camIn die n = x := s.at_camIn die t n
    have one' : s.camMatch die r vc dt = [n] := match_.symm.trans one
    have up' := up_.symm.trans up
    have starts := s.frameStart_one die r t vc dt n up stamps one
    have ends := s.frameEnd_one die r t vc dt n up (State.stamping_not_replaying stamps) one
    have line (c o : Bool) (p : List Byte) := s.longPacket_one die r vc dt n c o p up' (live_ stamps) one'
    refine ⟨fun idle stores => ⟨fun full => ?noRoom, fun fits soon => ?soon, fun fits late none_ => ?stored⟩, fun f open_ stored => ⟨fun p whole => ?line, fun p other => ?short, fun o p bad => ?error, fun fine whole => ?whole, fun other => ?lines⟩⟩
    case noRoom =>
      exact ⟨v.skipFrame die n t, starts.trans (congrArg Host.Outcome.next (State.startFrame_noRoom t (seen.symm ▸ idle) stores full)), by rw [State.skipFrame, seen]⟩
    case soon =>
      exact ⟨v.skipFrame die n t, starts.trans (congrArg Host.Outcome.next (State.startFrame_soon t (seen.symm ▸ idle) stores fits (soon.imp fun l early => early.imp_left fun last => seen.symm ▸ last))), by rw [State.skipFrame, seen]⟩
    case stored =>
      have ran := State.startFrame_stored t (seen.symm ▸ idle) stores fits (fun ⟨l, last, early⟩ => absurd (late l (seen ▸ last)) (Nat.not_le.mpr early)) ((s.at_jobs t).symm ▸ none_)
      exact ⟨_, starts.trans (congrArg Host.Outcome.next ran), by rw [seen]⟩
    case line => exact (line true false p).trans (congrArg Host.Outcome.next (State.frameLine_stores open_ stored p whole))
    case short => exact (line true false p).trans (congrArg Host.Outcome.next (State.frameLine_ends open_ stored true false p (.inr (.inr other))))
    case error =>
      exact ⟨(line true o p).trans (congrArg Host.Outcome.next (State.frameLine_ends open_ stored true o p (.inl bad))), (line false false p).trans (congrArg Host.Outcome.next (State.frameLine_ends open_ stored false false p (.inr (.inl rfl))))⟩
    case whole =>
      have here : (v.camIn die n).cur = some f := (congrArg Cam.cur seen).trans open_
      refine ⟨_, ends.trans (congrArg Host.Outcome.next ((State.frameEndOn_open here).trans ?_)), by rw [← seen]⟩
      rw [show decide (f.lines ≠ v.camH die n) = false from decide_eq_false (not_not.mpr whole)]
      exact State.endFrame_whole here stored fine
    case lines =>
      have here : (v.camIn die n).cur = some f := (congrArg Cam.cur seen).trans open_
      refine ends.trans (congrArg Host.Outcome.next ((State.frameEndOn_open here).trans ?_))
      rw [decide_eq_true other]
  case timeout =>
    have here : (v.camIn die n).cur = some f := (congrArg Cam.cur (s.at_camIn die t n)).trans open_
    exact (s.readoutTimeout_hears die t n).trans (congrArg Host.Outcome.next (by unfold State.readoutEnd; rw [here]))
  case noTimeout =>
    have none_ : (v.camIn die n).cur = none := (congrArg Cam.cur (s.at_camIn die t n)).trans idle
    exact (s.readoutTimeout_hears die t n).trans (congrArg Host.Outcome.next (by unfold State.readoutEnd; rw [none_]))

end Sys2Proof.Machine
end

section
/-! SUPPORT. Messages at a cairn apply unit (10 R263 to R271): obligation O38. -/

namespace Sys2Proof.Machine

/-! ### An apply unit's place in the state -/

section
variable (s : State) (k : Fin 4) (u w : ApplyUnit)

@[simp] theorem State.applyUnit_setApply : (s.setApply k u).applyUnit k = u := by
  have inside : k.val < s.apply.toList.length := by simp
  simp [State.applyUnit, State.setApply]

@[simp] theorem State.setApply_setApply : (s.setApply k u).setApply k w = s.setApply k w := by
  unfold State.setApply
  simp

@[simp] theorem State.setApply_self : s.setApply k (s.applyUnit k) = s := by
  have same : s.apply.setIfInBounds k (s.applyUnit k) = s.apply := by
    apply Vector.ext
    intro i hi
    by_cases here : k.val = i
    · subst here
      simp [State.applyUnit]
    · simp [here]
  unfold State.setApply
  rw [same]

theorem State.applyOut_quiet : s.applyOut k { unit := u } = s.setApply k u := rfl

theorem State.at_applyUnit (t : Time) (n : Nat) : (s.at t).applyUnit n = s.applyUnit n := by rw [State.at_eq]; rfl

end

/-! ### A unit in which nothing waits and nothing is finished (R264, R265) -/

/-- No binding of the unit waits or is finished. -/
def ApplyUnit.Steady (u : ApplyUnit) : Prop := u.waiting = [] ∧ ∀ b ∈ u.binds, b.finished = false

theorem ApplyUnit.settleBinds_steady {u : ApplyUnit} (steady : u.Steady) : u.settleBinds = { unit := u } := by
  have done_ : u.binds.filter Binding.finished = [] := List.filter_eq_nil_iff.mpr fun b mem => Bool.eq_false_iff.mp (steady.2 b mem)
  unfold ApplyUnit.settleBinds ApplyUnit.wakeWaiting
  rw [done_, List.foldl_nil, steady.1]
  rfl

/-- A step that asks for nothing, and leaves a steady unit, leaves that unit. -/
theorem State.cairnStep_steady (s : State) (k : Fin 4) {u : ApplyUnit} (steady : u.Steady) : s.cairnStep k { unit := u } = s.setApply k u := by
  unfold State.cairnStep
  dsimp only
  rw [State.applyOut_quiet, State.applyUnit_setApply, ApplyUnit.settleBinds_steady steady, State.applyOut_quiet, State.setApply_setApply]

/-! ### Messages that are discarded, and those that arrive (R264, R267) -/

/-- The die is out of service, or the job has stopped. -/
def State.cairnGone (s : State) (k : Fin 4) (id : JobId) : Prop := s.ergLive k = false ∨ ∃ x, s.job id = some x ∧ x.stopped ≠ none

section
variable {s : State} {k : Fin 4} {id : JobId}

theorem State.cairnGone_iff : s.cairnGone k id ↔ (!s.ergLive k || s.jobGone id) = true := by
  rw [Bool.or_eq_true, Bool.not_eq_true']
  refine or_congr_right ?_
  unfold State.jobGone
  cases found : s.job id with
  | none => simp
  | some j => simp [Option.isSome_iff_ne_none]

theorem State.cairnOp_gone {o : COp} (gone : s.cairnGone k (keyId o.key)) : s.cairnOp k o = s := if_pos (State.cairnGone_iff.mp gone)
theorem State.cairnClose_gone (gone : s.cairnGone k id) (prods : List Nat) : s.cairnClose k id prods = s := if_pos (State.cairnGone_iff.mp gone)
theorem State.cairnBind_gone {b : Binding} (gone : s.cairnGone k b.id) : s.cairnBind k b = s := if_pos (State.cairnGone_iff.mp gone)
theorem State.cairnOp_arrives {o : COp} (here : ¬ s.cairnGone k (keyId o.key)) : s.cairnOp k o = s.cairnStep k ((s.applyUnit k).arrive o) := if_neg (State.cairnGone_iff.not.mp here)
theorem State.cairnClose_arrives (here : ¬ s.cairnGone k id) (prods : List Nat) : s.cairnClose k id prods = s.cairnStep k { unit := (s.applyUnit k).close id prods } := if_neg (State.cairnGone_iff.not.mp here)
theorem State.cairnBind_arrives {b : Binding} (here : ¬ s.cairnGone k b.id) : s.cairnBind k b = s.cairnStep k ((s.applyUnit k).bindMsg b) := if_neg (State.cairnGone_iff.not.mp here)

end

/-! ### An operation at the unit (R267, R269) -/

section
variable {u : ApplyUnit} {id : JobId} {o : COp} {b : Binding}

theorem ApplyUnit.find_none (unbound : ∀ b ∈ u.binds, b.id ≠ id) : u.binds.find? (fun b => decide (b.id = id)) = none :=
  List.find?_eq_none.mpr fun b mem => by simpa using unbound b mem

theorem ApplyUnit.find_id (found : u.binds.find? (fun b => decide (b.id = id)) = some b) : b.id = id := of_decide_eq_true (List.find?_some (p := fun b : Binding => decide (b.id = id)) found)

theorem ApplyUnit.arrive_early (unbound : ∀ b ∈ u.binds, b.id ≠ keyId o.key) : u.arrive o = { unit := { u with early := u.early ++ [o] } } := by
  unfold ApplyUnit.arrive
  rw [ApplyUnit.find_none unbound]

theorem ApplyUnit.arrive_bound (found : u.binds.find? (fun b => decide (b.id = keyId o.key)) = some b) : u.arrive o = u.admitOp b o := by
  unfold ApplyUnit.arrive
  rw [found]

theorem ApplyUnit.close_early (unbound : ∀ b ∈ u.binds, b.id ≠ id) (prods : List Nat) : u.close id prods = { u with earlyClose := u.earlyClose ++ [(id, prods)] } := by
  unfold ApplyUnit.close
  rw [ApplyUnit.find_none unbound]

theorem ApplyUnit.close_bound (found : u.binds.find? (fun b => decide (b.id = id)) = some b) (prods : List Nat) : u.close id prods = u.closeProds b prods := by
  unfold ApplyUnit.close
  rw [found]

theorem ApplyUnit.admitOp_outside (out : b.owns o.cairn = false) : u.admitOp b o = { unit := u, stops := [(b.id, 0x09, o.key, o.cairn)], flags := [2] } :=
  if_pos (by rw [out]; rfl)

theorem ApplyUnit.admitOp_stranger (owns : b.owns o.cairn = true) (stranger : b.sources.testBit (keyProd o.key) = false) :
    u.admitOp b o = { unit := u, stops := [(b.id, 0x0A, o.key, o.cairn)], flags := [3] } :=
  (if_neg (by rw [owns]; decide)).trans (if_pos (by rw [stranger]; rfl))

section
variable (owns : b.owns o.cairn = true) (source : b.sources.testBit (keyProd o.key) = true) (clean : (u.word o.cairn).state ≠ .poisoned)
include owns source clean

theorem ApplyUnit.admitOp_fence (fence : o.opc = 3) : u.admitOp b o = { unit := u.setBind (b.setHorizon (keyProd o.key) (b.position (keyProd o.key) o.key.toNat)) } :=
  (if_neg (by rw [owns]; decide)).trans ((if_neg (by rw [source]; decide)).trans ((if_neg clean).trans (if_pos fence)))

/-- An operation that its binding takes is held at its position (R271). -/
theorem ApplyUnit.admitOp_held (op : o.opc ≠ 3) (fresh : ∀ x ∈ b.ops ++ b.watching, x.key ≠ o.key) :
    u.admitOp b o = { unit := u.setBind { b with ops := insertBy COp.pos { o with pos := b.position (keyProd o.key) o.key.toNat } b.ops } } := by
  have new : (b.ops ++ b.watching).find? (fun x => decide (x.key = o.key)) = none := List.find?_eq_none.mpr fun x mem => by simpa using fresh x mem
  refine (if_neg (by rw [owns]; decide)).trans ((if_neg (by rw [source]; decide)).trans ((if_neg clean).trans ((if_neg op).trans ?_)))
  rw [new]

end

/-- A unit stays steady where one of its bindings is replaced by an unfinished one. -/
theorem ApplyUnit.setBind_steady (steady : u.Steady) {b' : Binding} (open_ : b'.finished = false) : (u.setBind b').Steady := by
  refine ⟨steady.1, fun x mem => ?_⟩
  obtain ⟨y, there, rfl⟩ := List.mem_map.mp mem
  split
  · exact open_
  · exact steady.2 y there

theorem insertBy_ne_nil {α : Type} (key : α → Nat) (x : α) (l : List α) : insertBy key x l ≠ [] := by
  cases l with
  | nil => exact List.cons_ne_nil _ _
  | cons y ys =>
    unfold insertBy
    split <;> exact List.cons_ne_nil _ _

theorem Binding.finished_of_ops (b : Binding) (held : b.ops ≠ []) : b.finished = false := by
  unfold Binding.finished
  rw [decide_eq_false held]
  rfl

/-- A horizon that is set is read, and the others stay. -/
theorem Binding.horizon_setHorizon (b : Binding) (p q pos : Nat) : (b.setHorizon p pos).horizon q = if q = p then pos else b.horizon q := by
  unfold Binding.horizon Binding.setHorizon
  dsimp only
  rw [List.find?_cons]
  by_cases same : q = p
  · subst same; simp
  · have apart : ¬ p = q := fun e => same e.symm
    have others : (b.horizons.filter fun x => decide (x.1 ≠ p)).find? (fun x => decide (x.1 = q)) = b.horizons.find? fun x => decide (x.1 = q) := by
      rw [List.find?_filter]
      congr 1
      funext x
      by_cases e : x.1 = q
      · simp [e, same]
      · simp [e]
    simp only [apart, decide_false, same, if_false, others]

/-- The frontiers that a CLOSE names move beyond the job (R269). -/
theorem Binding.closed_horizon (b : Binding) (prods : List Nat) (p : Nat) (named : p ∈ prods ∨ b.horizon p = posTop) :
    (prods.foldl (fun (b : Binding) p => b.setHorizon p posTop) b).horizon p = posTop := by
  induction prods generalizing b with
  | nil => exact named.resolve_left List.not_mem_nil
  | cons q rest ih =>
    refine ih _ ?_
    by_cases here : p = q
    · exact .inr ((b.horizon_setHorizon q p posTop).trans (if_pos here))
    · exact named.imp (fun mem => (List.mem_cons.mp mem).resolve_left here) fun top => (b.horizon_setHorizon q p posTop).trans ((if_neg here).trans top)

end

/-! ### The stop of a job by its unit (R220, R267) -/

section
variable (s : State) {id : JobId} {j : Job}

theorem State.modJob_other (id' : JobId) (f : Job → Job) (hf : ∀ j, (f j).id = j.id) (other : id' ≠ id) : (s.modJob id' f).job id = s.job id := by
  unfold State.job State.modJob mapIf
  rw [List.find?_map]
  have same : ((fun j : Job => decide (j.id = id)) ∘ fun j => if decide (j.id = id') then f j else j) = fun j => decide (j.id = id) := by
    funext x
    by_cases h : x.id = id' <;> simp [h, hf]
  rw [same]
  cases found : s.jobs.find? (fun j => decide (j.id = id)) with
  | none => rfl
  | some x =>
    have is : x.id = id := of_decide_eq_true (List.find?_some (p := fun j : Job => decide (j.id = id)) found)
    have ne : ¬ x.id = id' := fun e => other (e.symm.trans is)
    simp [ne]

/-- A job that has stopped stays so, whatever else stops. -/
theorem State.stopJob_stopped (here : s.job id = some j) (over_ : j.stopped ≠ none) (id' : JobId) (reason : Nat) (key : Key) (detail unit : Nat) : (s.stopJob id' reason key detail unit).job id = some j := by
  by_cases same : id' = id
  · subst same
    rw [s.stopJob_over here (.inl over_)]
    exact here
  · cases found : s.job id' with
    | none => rw [s.stopJob_none found]; exact here
    | some x =>
      by_cases ended : x.isOver
      · rw [s.stopJob_over found ended]; exact here
      · rw [State.job_of_jobs (s.stopJob_jobs found ended reason key detail unit)]
        exact (s.modJob_other id' (fun j' => { j' with stopped := some reason, running := [], void := x.stopVoid reason }) (fun _ => rfl) same).trans here

theorem State.stopAll_stopped (here : s.job id = some j) (over_ : j.stopped ≠ none) (k : Nat) (l : List (JobId × Nat × Key × Nat)) : (s.stopAll k l).job id = some j := by
  unfold State.stopAll
  induction l generalizing s with
  | nil => exact here
  | cons x l ih =>
    refine ih _ ?_
    dsimp only
    split
    · exact (State.job_of_jobs (s.dropBindings_jobs x.1) id).trans here
    · exact s.stopJob_stopped here over_ _ _ _ _ _

theorem State.sendReplies_net (k : Nat) (rs : List (Nat × Key × Nat × Bool)) : { s.sendReplies k rs with net := s.net } = s := by
  unfold State.sendReplies
  exact State.foldl_preserves (fun u : State => { u with net := s.net }) (fun u r => { u with net := { u.net with hops := u.net.hops ++ [_] } }) (fun _ _ => rfl) rs s

/-- The part of a step before its stops leaves the jobs. -/
theorem State.asked_jobs (k : Nat) (r : ApplyOut) : (((s.setApply k r.unit).cairnFlags k r.flags).sendReplies k r.replies).jobs = s.jobs :=
  (congrArg State.jobs (State.sendReplies_net ((s.setApply k r.unit).cairnFlags k r.flags) k r.replies) :).trans ((State.reported_cairnFlags _ k r.flags).jobs.trans (s.setApply_jobs k r.unit))

theorem State.applyOut_stopped (here : s.job id = some j) (over_ : j.stopped ≠ none) (k : Nat) (r : ApplyOut) : (s.applyOut k r).job id = some j :=
  State.stopAll_stopped _ ((State.job_of_jobs (s.asked_jobs k r) id).trans here) over_ k r.stops

/-- An operation that its unit stops its job for (R267). -/
theorem State.cairnStep_stops (here : s.job id = some j) (runs : j.stopped = none) (tiles : j.running ≠ []) (k : Fin 4) {r : ApplyOut} {reason : Nat} {key : Key} {detail : Nat} (stops : r.stops = [(id, reason, key, detail)]) :
    ∃ j', (s.cairnStep k r).job id = some j' ∧ j'.stopped = some reason := by
  have before := (State.job_of_jobs (s.asked_jobs k r) id).trans here
  have first : (s.applyOut k r).job id = some { j with stopped := some reason, running := [], void := j.stopVoid reason } := by
    unfold State.applyOut State.stopAll
    rw [stops, List.foldl_cons, List.foldl_nil, if_neg (by rw [before]; simp)]
    exact State.stopJob_job _ before runs tiles reason key detail k
  exact ⟨_, State.applyOut_stopped _ first (Option.some_ne_none reason) k _, rfl⟩

end

/-! ### A binding that takes effect (R263) -/

section
variable (u : ApplyUnit)

theorem ApplyUnit.word_setWord (c n : Nat) (w : Cairn) : (u.setWord c w).word n = if n % 65536 = c % 65536 then w else u.word n := mget_mset _ _ _ _ _

theorem ApplyUnit.setAll_word (w : Cairn) (cs : List Nat) (n : Nat) :
    ((∃ c ∈ cs, n % 65536 = c % 65536) → (cs.foldl (fun u c => ApplyUnit.setWord u c w) u).word n = w) ∧
    ((∀ c ∈ cs, n % 65536 ≠ c % 65536) → (cs.foldl (fun u c => ApplyUnit.setWord u c w) u).word n = u.word n) := by
  induction cs generalizing u with
  | nil => exact ⟨fun ⟨c, mem, _⟩ => absurd mem List.not_mem_nil, fun _ => rfl⟩
  | cons c cs ih =>
    obtain ⟨inside, outside⟩ := ih (u.setWord c w)
    refine ⟨fun ⟨x, mem, same⟩ => ?_, fun apart => ?_⟩
    · by_cases later : ∃ y ∈ cs, n % 65536 = y % 65536
      · exact inside later
      · have only : x = c := (List.mem_cons.mp mem).resolve_right fun rest => later ⟨x, rest, same⟩
        refine (outside fun y hy e => later ⟨y, hy, e⟩).trans ?_
        rw [ApplyUnit.word_setWord, if_pos (only ▸ same)]
    · rw [List.forall_mem_cons] at apart
      exact (outside apart.2).trans ((u.word_setWord c n w).trans (if_neg apart.1))

variable {u} {b : Binding}

/-- Every cairn of the binding is bound at zero, and no other word changes. -/
theorem ApplyUnit.bind_words : (∀ c ∈ b.cairns, (u.bind b).word c = { state := .bound, bind := u.freeIdx }) ∧ ∀ c, (∀ x ∈ b.cairns, x % 65536 ≠ c % 65536) → (u.bind b).word c = u.word c :=
  ⟨fun c mem => (u.setAll_word _ b.cairns c).1 ⟨c, mem, rfl⟩, fun c apart => (u.setAll_word _ b.cairns c).2 fun x mem => (apart x mem).symm⟩

theorem ApplyUnit.setAll_early (w : Cairn) (cs : List Nat) : (cs.foldl (fun u c => ApplyUnit.setWord u c w) u).early = u.early ∧ (cs.foldl (fun u c => ApplyUnit.setWord u c w) u).earlyClose = u.earlyClose := by
  induction cs generalizing u with
  | nil => exact ⟨rfl, rfl⟩
  | cons c cs ih => exact ih (u := u.setWord c w)

/-- A binding message that fits a unit in which nothing came early. -/
theorem ApplyUnit.bindMsg_fits (fits : u.fits b = true) (early : u.early = []) (closes : u.earlyClose = []) : u.bindMsg b = { unit := u.bind b } := by
  obtain ⟨ops, ends⟩ := ApplyUnit.setAll_early (u := u) { state := .bound, bind := u.freeIdx } b.cairns
  have noOps : (u.bind b).early = [] := ops.trans early
  have noCloses : (u.bind b).earlyClose = [] := ends.trans closes
  have none_ : (u.bind b).takeEarly b.id = { unit := { u.bind b with early := [], earlyClose := [] } } := by
    unfold ApplyUnit.takeEarly
    rw [noOps, noCloses]
    rfl
  have same : ({ u.bind b with early := [], earlyClose := [] } : ApplyUnit) = u.bind b := by
    rw [← noOps]
    conv_lhs => rw [← noCloses]
  exact (if_pos fits).trans (none_.trans (congrArg (fun x => ({ unit := x } : ApplyOut)) same))

end

end Sys2Proof.Machine
end

section
/-! SUPPORT. The application of cairn operations and the replies to tiles (04 R97, 07 R178, 10 R271 to R278): obligation O38. -/

namespace Sys2Proof.Machine

/-! ### What a finished binding leaves of the unit's words (R264) -/

/-- The unit `w` holds the counts of `u`, whatever it frees. -/
def ApplyUnit.SameCounts (u w : ApplyUnit) : Prop := ∀ n, (w.word n).count = (u.word n).count ∧ (w.word n).ops = (u.word n).ops

section
variable {u v w : ApplyUnit}

theorem ApplyUnit.SameCounts.refl (u : ApplyUnit) : u.SameCounts u := fun _ => ⟨rfl, rfl⟩

theorem ApplyUnit.SameCounts.trans (h : u.SameCounts v) (h' : v.SameCounts w) : u.SameCounts w := fun n => ⟨(h' n).1.trans (h n).1, (h' n).2.trans (h n).2⟩

theorem ApplyUnit.SameCounts.foldl {α : Type} (f : ApplyUnit → α → ApplyUnit) (step : ∀ (u : ApplyUnit) a, u.SameCounts (f u a)) (l : List α) (u : ApplyUnit) : u.SameCounts (l.foldl f u) := by
  induction l generalizing u with
  | nil => exact .refl u
  | cons a l ih => exact (step u a).trans (ih (f u a))

variable (u)

theorem ApplyUnit.freeCairns_counts (b : Binding) : u.SameCounts (u.freeCairns b) := by
  refine ApplyUnit.SameCounts.foldl _ (fun u c n => ?_) b.cairns u
  rw [ApplyUnit.word_setWord]
  by_cases here : n % 65536 = c % 65536
  · have same : u.word n = u.word c := congrArg (mget (fun _ => ({} : Cairn)) u.table) here
    rw [if_pos here, same]
    exact ⟨rfl, rfl⟩
  · rw [if_neg here]
    exact ⟨rfl, rfl⟩

theorem ApplyUnit.drop_counts (id : JobId) : u.SameCounts (u.drop id) := ApplyUnit.SameCounts.foldl _ ApplyUnit.freeCairns_counts _ u

theorem ApplyUnit.freeCairns_waiting (b : Binding) : (u.freeCairns b).waiting = u.waiting := by
  unfold ApplyUnit.freeCairns
  induction b.cairns generalizing u with
  | nil => rfl
  | cons c cs ih => exact (ih (u.setWord c { u.word c with state := .free, bind := 0 }) :)

theorem ApplyUnit.drop_waiting (id : JobId) (none_ : u.waiting = []) : (u.drop id).waiting = [] := by
  have freed (l : List Binding) : (l.foldl ApplyUnit.freeCairns u).waiting = [] := by
    induction l generalizing u with
    | nil => exact none_
    | cons b l ih => exact ih _ ((u.freeCairns_waiting b).trans none_)
  unfold ApplyUnit.drop
  dsimp only
  rw [freed]
  rfl

/-- What is finished goes, and with nothing waiting no more comes of it. -/
theorem ApplyUnit.settleBinds_counts (none_ : u.waiting = []) : ∃ w, u.settleBinds = { unit := w } ∧ u.SameCounts w := by
  have dropped (l : List Binding) (w : ApplyUnit) (none_ : w.waiting = []) : (l.foldl (fun w (b : Binding) => ApplyUnit.drop w b.id) w).waiting = [] := by
    induction l generalizing w with
    | nil => exact none_
    | cons b l ih => exact ih _ (w.drop_waiting b.id none_)
  refine ⟨(u.binds.filter Binding.finished).foldl (fun u b => u.drop b.id) u, ?_, ApplyUnit.SameCounts.foldl _ (fun u (b : Binding) => u.drop_counts b.id) _ u⟩
  unfold ApplyUnit.settleBinds ApplyUnit.wakeWaiting
  rw [dropped _ u none_]
  rfl

end

/-- A step that stops no job leaves its unit's counts as it asked for them. -/
theorem State.cairnStep_counts (s : State) (k : Fin 4) {r : ApplyOut} (stops : r.stops = []) (none_ : r.unit.waiting = []) : r.unit.SameCounts ((s.cairnStep k r).applyUnit k) := by
  have asked : ((s.applyOut k r).applyUnit k) = r.unit := by
    unfold State.applyOut State.stopAll
    rw [stops, List.foldl_nil]
    have net : (((s.setApply k r.unit).cairnFlags k r.flags).sendReplies k r.replies).apply = ((s.setApply k r.unit).cairnFlags k r.flags).apply := (congrArg State.apply (State.sendReplies_net _ k r.replies) :)
    have flags : ((s.setApply k r.unit).cairnFlags k r.flags).apply = (s.setApply k r.unit).apply := (congrArg State.apply (State.reported_cairnFlags (s.setApply k r.unit) k r.flags) :)
    have same : (((s.setApply k r.unit).cairnFlags k r.flags).sendReplies k r.replies).applyUnit k = (s.setApply k r.unit).applyUnit k := by
      unfold State.applyUnit
      rw [net, flags]
    rw [same, State.applyUnit_setApply]
  obtain ⟨w, settles, counts⟩ := r.unit.settleBinds_counts none_
  unfold State.cairnStep
  dsimp only
  rw [asked, settles, State.applyOut_quiet, State.applyUnit_setApply]
  exact counts

/-! ### The operation at the smallest position (R271 to R275) -/

theorem ApplyUnit.word_setBind (u : ApplyUnit) (b : Binding) (n : Nat) : (u.setBind b).word n = u.word n := rfl

/-- What a count-changing operation does to its word (R269, R278). -/
theorem COp.change_counts (o : COp) (c : Cairn) : let x := (o.change c).1
    (o.opc = 1 → x.count = (c.count + o.operand) % 2 ^ 32) ∧ (o.opc ≠ 1 → x.count = min 0xFFFFFFFF (c.count + o.operand)) ∧ x.ops = min 1023 (c.ops + 1) := by
  dsimp only
  by_cases add : o.opc = 1 <;> by_cases above : c.count + o.operand > 0xFFFFFFFF
  · have e : (o.change c).1.count = (c.count + o.operand) % 2 ^ 32 ∧ (o.change c).1.ops = min 1023 (c.ops + 1) := by simp [COp.change, add, above]
    exact ⟨fun _ => e.1, fun no => absurd add no, e.2⟩
  · have e : (o.change c).1.count = c.count + o.operand ∧ (o.change c).1.ops = min 1023 (c.ops + 1) := by simp [COp.change, add, above]
    exact ⟨fun _ => by rw [e.1]; omega, fun no => absurd add no, e.2⟩
  · have e : (o.change c).1.count = 0xFFFFFFFF ∧ (o.change c).1.ops = min 1023 (c.ops + 1) := by simp [COp.change, add, above]
    exact ⟨fun yes => absurd yes add, fun _ => by rw [e.1]; omega, e.2⟩
  · have e : (o.change c).1.count = c.count + o.operand ∧ (o.change c).1.ops = min 1023 (c.ops + 1) := by simp [COp.change, add, above]
    exact ⟨fun yes => absurd yes add, fun _ => by rw [e.1]; omega, e.2⟩

section
variable {u : ApplyUnit} {id : JobId} {b : Binding} {o : COp} {rest : List COp}
  (found : u.binds.find? (fun b => decide (b.id = id)) = some b) (ops : b.ops = o :: rest) (passed : b.passed (keyProd o.key) o.pos = true)
include found ops passed

theorem ApplyUnit.next_passed : u.next id = some o := by
  unfold ApplyUnit.next
  rw [found]
  simp [ops, passed]

/-- The operation of a binding that the others have passed. -/
theorem ApplyUnit.applyNext_wait (opc : o.opc = 4) : (u.applyNext id).stops = [] ∧ (u.applyNext id).unit.waiting = u.waiting ∧ ∀ n, (u.applyNext id).unit.word n = u.word n := by
  unfold ApplyUnit.applyNext
  rw [found]
  dsimp only
  rw [ops]
  simp only [passed, Bool.not_true, Bool.false_eq_true, if_false, opc, if_true]
  split
  · exact ⟨rfl, rfl, fun _ => rfl⟩
  · exact ⟨rfl, rfl, fun _ => rfl⟩

theorem ApplyUnit.applyNext_counts (opc : o.opc ≠ 4) (good : o.bad = false) :
    (u.applyNext id).stops = [] ∧ (u.applyNext id).unit.waiting = u.waiting ∧ ∀ n, (u.applyNext id).unit.word n = if n % 65536 = o.cairn % 65536 then (o.change (u.word o.cairn)).1 else u.word n := by
  have form : ∃ b' rs fl, u.applyNext id = { unit := (({ u with opsApplied := (u.opsApplied + 1) % 2 ^ 64 } : ApplyUnit).setWord o.cairn (o.change (u.word o.cairn)).1).setBind b', replies := rs, flags := fl } := by
    unfold ApplyUnit.applyNext
    rw [found]
    dsimp only
    rw [ops]
    exact ⟨_, _, _, (if_neg (by rw [passed]; decide)).trans ((if_neg opc).trans (if_neg (Bool.eq_false_iff.mp good)))⟩
  obtain ⟨b', rs, fl, e⟩ := form
  rw [e]
  exact ⟨rfl, rfl, fun n => ApplyUnit.word_setWord { u with opsApplied := (u.opsApplied + 1) % 2 ^ 64 } o.cairn n _⟩

end

section
variable (s : State) (k : Fin 4) (job : JobId) (hits : List EccHit) (t : Time)

theorem State.at_ergLive (n : Nat) : (s.at t).ergLive n = s.ergLive n := by rw [State.at_eq]; rfl

theorem State.cairnApply_off (off : s.ergLive k = false) : execCairnApply k job hits t s = .next (s.at t) := by
  have dead : (!(s.at t).ergLive k) = true := by rw [s.at_ergLive t k, off]; rfl
  exact congrArg Host.Outcome.next (if_pos dead)

/-- What an operation of the application does where it finds no error. -/
theorem State.cairnApply_live (live : s.ergLive k = true) : execCairnApply k job [] t s = .next (match (s.applyUnit k).next job with
    | none => (s.at t).cairnStep k { unit := s.applyUnit k }
    | some o => if ((s.applyUnit k).word o.cairn).state = .poisoned then (s.at t).cairnPoisonStop k o else (s.at t).cairnStep k ((s.applyUnit k).applyNext job)) := by
  have up : ¬ (!(s.at t).ergLive k) = true := by rw [s.at_ergLive t k, live]; decide
  rw [← s.at_applyUnit t k]
  exact congrArg Host.Outcome.next (if_neg up)

/-- With no operation to apply, errors in the words do not matter. -/
theorem State.cairnApply_idle (live : s.ergLive k = true) (steady : (s.applyUnit k).Steady) (idle : (s.applyUnit k).next job = none) : execCairnApply k job hits t s = .next (s.at t) := by
  have up : ¬ (!(s.at t).ergLive k) = true := by rw [s.at_ergLive t k, live]; decide
  have quiet : ((s.at t).applyUnit k).next job = none := by rw [s.at_applyUnit]; exact idle
  refine congrArg Host.Outcome.next ((if_neg up).trans ?_)
  rw [quiet, s.at_applyUnit]
  dsimp only
  rw [State.cairnStep_steady (s.at t) k steady, ← s.at_applyUnit t k, State.setApply_self]

end

/-- `w` is the unit `u` once the operation `o` has changed its word (R271, R278). -/
def ApplyUnit.Applied (u w : ApplyUnit) (o : COp) : Prop :=
  let c := u.word o.cairn
  let c' := w.word o.cairn
  (∀ n, n % 65536 ≠ o.cairn % 65536 → (w.word n).count = (u.word n).count ∧ (w.word n).ops = (u.word n).ops) ∧
  (o.opc = 4 → c'.count = c.count ∧ c'.ops = c.ops) ∧ (o.opc = 1 → c'.count = (c.count + o.operand) % 2 ^ 32) ∧
  (o.opc = 2 ∨ 5 ≤ o.opc → c'.count = min 0xFFFFFFFF (c.count + o.operand)) ∧ (o.opc ≠ 4 → c'.ops = min 1023 (c.ops + 1))

theorem ApplyUnit.Applied.of_counts {u v w : ApplyUnit} {o : COp} (h : u.Applied v o) (same : v.SameCounts w) : u.Applied w o := by
  obtain ⟨others, waits, add, top, number⟩ := h
  obtain ⟨count, ops⟩ := same o.cairn
  exact ⟨fun n apart => ⟨(same n).1.trans (others n apart).1, (same n).2.trans (others n apart).2⟩, fun wait => ⟨count.trans (waits wait).1, ops.trans (waits wait).2⟩,
    fun one => count.trans (add one), fun more => count.trans (top more), fun change => ops.trans (number change)⟩

/-- What the unit's step asks for. -/
theorem ApplyUnit.applyNext_applied {u : ApplyUnit} {id : JobId} {b : Binding} {o : COp} {rest : List COp} (found : u.binds.find? (fun b => decide (b.id = id)) = some b) (ops : b.ops = o :: rest)
    (passed : b.passed (keyProd o.key) o.pos = true) (good : o.bad = false) (none_ : u.waiting = []) : (u.applyNext id).stops = [] ∧ (u.applyNext id).unit.waiting = [] ∧ u.Applied (u.applyNext id).unit o := by
  by_cases wait : o.opc = 4
  · obtain ⟨stops, waiting, words⟩ := ApplyUnit.applyNext_wait found ops passed wait
    refine ⟨stops, waiting.trans none_, fun n _ => ?_, fun _ => ?_, fun one => by omega, fun more => by omega, fun no => absurd wait no⟩
    · rw [words n]; exact ⟨rfl, rfl⟩
    · rw [words o.cairn]; exact ⟨rfl, rfl⟩
  · obtain ⟨stops, waiting, words⟩ := ApplyUnit.applyNext_counts found ops passed wait good
    obtain ⟨add, top, number⟩ := o.change_counts (u.word o.cairn)
    have here : (u.applyNext id).unit.word o.cairn = (o.change (u.word o.cairn)).1 := (words o.cairn).trans (if_pos rfl)
    refine ⟨stops, waiting.trans none_, fun n apart => ?_, fun yes => absurd yes wait, fun one => ?_, fun more => ?_, fun _ => ?_⟩
    · rw [words n, if_neg apart]; exact ⟨rfl, rfl⟩
    · rw [here]; exact add one
    · rw [here]; exact top (by omega)
    · rw [here]; exact number

/-- CAIRN_APPLY of an operation that the others have passed. -/
theorem State.cairnApply_applies (s : State) (k : Fin 4) (job : JobId) (t : Time) {b : Binding} {o : COp} {rest : List COp} (live : s.ergLive k = true) (none_ : (s.applyUnit k).waiting = [])
    (found : (s.applyUnit k).binds.find? (fun b => decide (b.id = job)) = some b) (ops : b.ops = o :: rest) (passed : b.passed (keyProd o.key) o.pos = true)
    (clean : ((s.applyUnit k).word o.cairn).state ≠ .poisoned) (good : o.bad = false) :
    ∃ u, execCairnApply k job [] t s = .next u ∧ u.kept = s.kept ∧ (s.applyUnit k).Applied (u.applyUnit k) o := by
  obtain ⟨stops, waiting, applied⟩ := ApplyUnit.applyNext_applied found ops passed good none_
  refine ⟨(s.at t).cairnStep k ((s.applyUnit k).applyNext job), ?_, (State.cairnStep_kept ..).trans (s.at_kept t), applied.of_counts (State.cairnStep_counts _ k stops waiting)⟩
  rw [s.cairnApply_live k job t live, ApplyUnit.next_passed found ops passed]
  exact congrArg Host.Outcome.next (if_neg clean)

/-! ### Replies (R97, R178, R251, R252) -/

section
variable (s : State) (t : Time) (n : Fin 512)

/-- The records of a settle are reports. -/
theorem State.reported_misfit (tile : Nat) (c : Core) (slot : Nat) (x : Settled) (wide : Option Nat) (cyc : Nat) : s.Reported (s.misfit tile c slot x wide cyc) := by
  have base (u : State) (h : s.Reported u) : s.Reported (if wide.isSome then (u.count32 misfitRecordsAddr 1).count32 misfitRerunsAddr 1 else u.count32 misfitRecordsAddr 1) :=
    have one := h.trans (u.reported_count32 misfitRecordsAddr 1)
    .ite (one.trans (State.reported_count32 _ _ _)) one
  unfold State.misfit
  dsimp only
  split
  · exact .refl s
  · exact base _ ((s.reported_makeRecord _ _ _ _).trans (State.reported_countVoid _ _))

theorem State.reported_settleRecord (tile : Nat) (c : Core) (w : CairnWait) (result : Word) (decision : Bool) (x : Settled) (cyc : Nat) : s.Reported (s.settleRecord tile c w result decision x cyc) := by
  unfold State.settleRecord
  split
  · exact .ite (s.reported_misfit _ _ _ _ _ _) (.refl s)
  · split
    · split
      · exact s.reported_misfit _ _ _ _ _ _
      · exact .refl s
    · exact .refl s

/-- A wait that ends gives its result, and a settle that decides nothing gives up the slot's holds. -/
theorem Core.replied_results (c : Core) (w : CairnWait) (r : Word) (d : Bool) (x : Settled) : let y := c.replied w r d x
    y.wait = none ∧ y.reply = none ∧ y.sreg = (c.setS (Fin.ofNat 32 w.sreg) r false).sreg ∧
    (w.kind = 1 → y.preg = (c.setP (Fin.ofNat 8 w.preg) d false).preg ∧ (d = false → ∀ h ∈ y.holds, h.slot ≠ w.slot)) := by
  have sreg (c c' : Core) (same : c.sreg = c'.sreg) : (c.setS (Fin.ofNat 32 w.sreg) r false).sreg = (c'.setS (Fin.ofNat 32 w.sreg) r false).sreg := by
    unfold Core.setS
    split
    · exact same
    · exact congrArg (fun v => v.set (Fin.ofNat 32 w.sreg) r) same
  have preg (c c' : Core) (same : c.preg = c'.preg) : (c.setP (Fin.ofNat 8 w.preg) d false).preg = (c'.setP (Fin.ofNat 8 w.preg) d false).preg := by
    unfold Core.setP
    split
    · exact same
    · exact congrArg (fun v => v.set (Fin.ofNat 8 w.preg) d) same
  unfold Core.replied
  dsimp only
  split
  · rename_i kind
    exact ⟨by simp, by simp, sreg _ _ rfl, fun one => absurd (one.symm.trans kind) (by decide)⟩
  · rename_i kind
    have taken : ((({ c with wait := none, reply := none } : Core).setS (Fin.ofNat 32 w.sreg) r false).setP (Fin.ofNat 8 w.preg) d false).preg = (c.setP (Fin.ofNat 8 w.preg) d false).preg := preg _ _ (by simp)
    cases d with
    | true => exact ⟨by simp, by simp, (Core.setP_sreg ..).trans (sreg { c with wait := none, reply := none } c rfl), fun _ => ⟨taken, fun no => absurd no (by decide)⟩⟩
    | false => exact ⟨by simp, by simp, (Core.setP_sreg ..).trans (sreg { c with wait := none, reply := none } c rfl), fun _ => ⟨taken, fun _ h mem => of_decide_eq_true (List.mem_filter.mp mem).2⟩⟩
  · rename_i zero one
    exact ⟨by simp, by simp, (Core.setP_sreg ..).trans (sreg { c with wait := none, reply := none } c rfl), fun yes => absurd yes one⟩

end

/-! ### The claims -/

section
variable (s : State) (k : Fin 4) (tile : Fin 512) (key : Key) (cairn : Nat) (w : Word) (n : Nat) (rerun : Bool) (thr : Word)

/-- The operation of a message. -/
def messageOp (tile : Nat) (key : Key) (cairn opc contrib : Nat) (rerun : Bool) (thr operand : Nat) : COp :=
  { opc := opc, cairn := cairn, operand := operand, contrib := contrib, rerun := rerun, threshold := thr, key := key, tile := tile }

/-- The messages that carry a word, with their operations. -/
def cairnMsgs : List (Instr × COp) :=
  let op := messageOp tile key cairn
  [(.cairnAddMsg k tile key cairn w, op 1 0 false 0 w.toNat), (.cairnAddsMsg k tile key cairn w, op 2 0 false 0 w.toNat), (.cairnWaitMsg k tile key cairn w, op 4 0 false 0 w.toNat),
    (.cairnSettleNMsg k tile key cairn w n rerun thr, op 5 (n % 1024) rerun thr.toNat w.toNat), (.cairnSettleWMsg k tile key cairn w n, op 6 (n % 1024) false 0 w.toNat)]

/-- Such a message brings its operation to the unit. -/
theorem cairnMsgs_exec {m : Instr × COp} (mem : m ∈ cairnMsgs k tile key cairn w n rerun thr) : exec m.1 s = .next (s.cairnOp k m.2) ∧ m.2.key = key ∧ m.2.cairn = cairn ∧ m.2.opc ≠ 3 := by
  unfold cairnMsgs at mem
  simp only [List.mem_cons, List.not_mem_nil, or_false] at mem
  obtain rfl | rfl | rfl | rfl | rfl := mem
  · exact ⟨rfl, rfl, rfl, show (1 : Nat) ≠ 3 by decide⟩
  · exact ⟨rfl, rfl, rfl, show (2 : Nat) ≠ 3 by decide⟩
  · exact ⟨rfl, rfl, rfl, show (4 : Nat) ≠ 3 by decide⟩
  · exact ⟨rfl, rfl, rfl, show (5 : Nat) ≠ 3 by decide⟩
  · exact ⟨rfl, rfl, rfl, show (6 : Nat) ≠ 3 by decide⟩

end

/-- The messages at an apply unit, by what the unit does with the operation that each brings (10 R263 to R271). -/
theorem cairnMessageResults_hold : Sys2Proof.Claims.CairnMessageResults := by
  intro s k tile key cairn w n rerun thr U id op msgs gone steady stops
  have each {m : Instr × COp} (mem : m ∈ msgs) : exec m.1 s = .next (s.cairnOp k m.2) ∧ m.2.key = key ∧ m.2.cairn = cairn ∧ m.2.opc ≠ 3 := cairnMsgs_exec s k tile key cairn w n rerun thr mem
  have lost {o : COp} (off : gone id) (is : o.key = key) : s.cairnOp k o = s := State.cairnOp_gone (by rw [is]; exact off)
  have arrives {o : COp} (here : ¬ gone id) (is : o.key = key) : s.cairnOp k o = s.cairnStep k (U.arrive o) := State.cairnOp_arrives (by rw [is]; exact here)
  have sits {o : COp} {V : ApplyUnit} (here : ¬ gone id) (is : o.key = key) (arrive : U.arrive o = { unit := V }) (quiet : V.Steady) : Host.Outcome.next (s.cairnOp k o) = (.next (s.setApply k V) : Host.Outcome State Fault Refusal) := by
    rw [arrives here is, arrive, State.cairnStep_steady s k quiet]
  refine ⟨fun m mem off => ?_, fun off => ⟨?_, fun prods => ?_⟩, fun adm e ranges sources off => ?_, fun here unbound quiet => ⟨fun m mem => ?_, ?_, fun prods => ?_⟩, fun b here found => ⟨?outside, ?stranger, ?held, fun prods quiet => ⟨?_, ?_⟩⟩,
    fun adm e ranges sources => ?bind⟩
  · obtain ⟨ran, is, -⟩ := each mem
    rw [ran, lost off is]
  · exact congrArg Host.Outcome.next (lost off rfl)
  · exact congrArg Host.Outcome.next (State.cairnClose_gone off prods)
  · exact congrArg Host.Outcome.next (State.cairnBind_gone off)
  · obtain ⟨ran, is, -⟩ := each mem
    exact ran.trans (sits here is (ApplyUnit.arrive_early (by rw [is]; exact unbound)) quiet)
  · exact sits here rfl (ApplyUnit.arrive_early unbound) quiet
  · refine congrArg Host.Outcome.next ((State.cairnClose_arrives here prods).trans ?_)
    rw [ApplyUnit.close_early unbound prods]
    exact State.cairnStep_steady s k quiet
  case outside =>
    intro out
    have stopped {o : COp} (is : o.key = key) (at_ : o.cairn = cairn) : ∀ j, s.job id = some j → j.stopped = none → j.running ≠ [] → ∃ j', (s.cairnOp k o).job id = some j' ∧ j'.stopped = some 9 := by
      intro j known runs tiles
      have asks : U.arrive o = { unit := U, stops := [(b.id, 9, o.key, o.cairn)], flags := [2] } := (ApplyUnit.arrive_bound (by rw [is]; exact found)).trans (ApplyUnit.admitOp_outside (by rw [at_]; exact out))
      rw [arrives here is, asks]
      exact s.cairnStep_stops known runs tiles k (by rw [ApplyUnit.find_id found])
    refine ⟨fun m mem => ?_, _, rfl, State.cairnOp_kept .., stopped rfl rfl⟩
    obtain ⟨ran, is, at_, -⟩ := each mem
    exact ⟨_, ran, State.cairnOp_kept .., stopped is at_⟩
  case stranger =>
    intro owns out
    have stopped {o : COp} (is : o.key = key) (at_ : o.cairn = cairn) : ∀ j, s.job id = some j → j.stopped = none → j.running ≠ [] → ∃ j', (s.cairnOp k o).job id = some j' ∧ j'.stopped = some 10 := by
      intro j known runs tiles
      have asks : U.arrive o = { unit := U, stops := [(b.id, 10, o.key, o.cairn)], flags := [3] } :=
        (ApplyUnit.arrive_bound (by rw [is]; exact found)).trans (ApplyUnit.admitOp_stranger (by rw [at_]; exact owns) (by rw [is]; exact out))
      rw [arrives here is, asks]
      exact s.cairnStep_stops known runs tiles k (by rw [ApplyUnit.find_id found])
    refine ⟨fun m mem => ?_, _, rfl, State.cairnOp_kept .., stopped rfl rfl⟩
    obtain ⟨ran, is, at_, -⟩ := each mem
    exact ⟨_, ran, State.cairnOp_kept .., stopped is at_⟩
  case held =>
    intro owns source clean quiet
    refine ⟨fun fresh m mem => ?_, fun open_ => ?_⟩
    · obtain ⟨ran, is, at_, fence⟩ := each mem
      have held : U.arrive m.2 = { unit := U.setBind { b with ops := insertBy COp.pos { m.2 with pos := b.position (keyProd m.2.key) m.2.key.toNat } b.ops } } :=
        (ApplyUnit.arrive_bound (by rw [is]; exact found)).trans (ApplyUnit.admitOp_held (by rw [at_]; exact owns) (by rw [is]; exact source) (by rw [at_]; exact clean) fence (by rw [is]; exact fresh))
      rw [is] at held
      exact ran.trans (sits here is held (ApplyUnit.setBind_steady quiet (Binding.finished_of_ops _ (insertBy_ne_nil _ _ _))))
    · have moves : U.arrive (op 3 0 false 0 0) = { unit := U.setBind (b.setHorizon (keyProd key) (b.position (keyProd key) key.toNat)) } :=
        (ApplyUnit.arrive_bound (o := op 3 0 false 0 0) found).trans (ApplyUnit.admitOp_fence (o := op 3 0 false 0 0) owns source clean rfl)
      exact sits here rfl moves (ApplyUnit.setBind_steady quiet open_)
  · refine congrArg Host.Outcome.next ((State.cairnClose_arrives here prods).trans ?_)
    rw [ApplyUnit.close_bound found prods]
    exact State.cairnStep_steady s k quiet
  · exact fun p mem => b.closed_horizon prods p (.inl mem)
  case bind =>
    intro b here fits early closes quiet
    obtain ⟨bound, others⟩ := ApplyUnit.bind_words (u := U) (b := b)
    refine ⟨_, congrArg Host.Outcome.next ((State.cairnBind_arrives (b := b) here).trans ?_), rfl, bound, others⟩
    rw [ApplyUnit.bindMsg_fits fits early closes]
    exact State.cairnStep_steady s k quiet

section
variable (s : State) (tile : Fin 512) (key : Key) (result : Word) (d : Bool) (cyc : Nat) (t : Time)

/-- The tile waits for no reply under the key. -/
theorem State.cairnReply_unawaited (waits : ∀ c, (s.tile tile).core = some c → ∀ w, c.wait = some w → w.key ≠ key) : execCairnReply tile key result d cyc t s = .next (s.at t) := by
  unfold execCairnReply
  dsimp only
  rw [s.at_tile t tile]
  cases known : (s.tile tile).core with
  | none => rfl
  | some c =>
    dsimp only
    cases wait : c.wait with
    | none => rfl
    | some w => exact congrArg Host.Outcome.next (if_pos (waits c known w wait))

/-- The reply that the tile waits for ends its wait, and the core goes on. -/
theorem State.cairnReply_awaited {c : Core} {w : CairnWait} (known : (s.tile tile).core = some c) (wait : c.wait = some w) (is : w.key = key) (more : s.More tile c) :
    let held := c.reply.getD (result.toNat, d)
    ∃ x u, (s.at t).Reported u ∧ execCairnReply tile key result d cyc t s = .next (u.setCore tile (c.retire (c.replied w (BitVec.ofNat 32 held.1) held.2 x))) := by
  intro held
  have more' : (s.at t).More tile c := by
    rw [State.at_eq]
    exact more
  let x : Settled := { slot := w.slot, key := key, count := (BitVec.ofNat 32 held.1).toNat, time := (s.at t).time.now, rerun := held.2, sat := (((s.at t).applyUnit w.die).word ((((s.at t).tile tile).half c.bank).slotNum w.slot 12 4)).saturated }
  refine ⟨x, _, State.reported_settleRecord (s.at t) tile c w (BitVec.ofNat 32 held.1) held.2 x cyc, ?_⟩
  rw [← State.settle_done (s.at t) _ tile c _ more']
  unfold execCairnReply
  dsimp only
  rw [show ((s.at t).tile tile).core = some c from (congrArg Tile.core (s.at_tile t tile)).trans known]
  dsimp only
  rw [wait]
  exact congrArg Host.Outcome.next (if_neg (not_not.mpr is))

end

/-- The application of operations and the replies (04 R97, 07 R178, 10 R271 to R278). -/
theorem cairnApplyAndReplyResults_hold : Sys2Proof.Claims.CairnApplyAndReplyResults := by
  intro s k job t v U
  refine ⟨fun off hits => s.cairnApply_off k job hits t off, fun live none_ open_ idle hits => s.cairnApply_idle k job hits t live ⟨none_, open_⟩ idle,
    fun b o rest live none_ found ops passed clean good => s.cairnApply_applies k job t live none_ found ops passed clean good,
    fun tile key result d cyc => ⟨fun waits => s.cairnReply_unawaited tile key result d cyc t waits, fun c w known wait is more => ?reply⟩⟩
  intro r
  obtain ⟨x, u, reports, ran⟩ := s.cairnReply_awaited tile key result d cyc t known wait is more
  obtain ⟨waits, reply, sreg, settle⟩ := Core.replied_results c w r (c.reply.getD (result.toNat, d)).2 x
  have tiles (n : Nat) : u.tile n = s.tile n := (State.tile_of_tiles reports.tiles n).trans (s.at_tile t n)
  exact ⟨_, _, ran, State.setCore_core .., waits, reply, rfl, sreg, fun n other => (State.setCore_tile_ne u tile n _ other).trans (tiles n),
    (State.setCore_kept ..).trans ((congrArg State.kept reports :).trans (s.at_kept t)), settle⟩

/-- Settles O38: messages at the unit, then their application and the replies. -/
theorem cairnResults : Obligations.CairnResults := ⟨cairnMessageResults_hold, cairnApplyAndReplyResults_hold⟩

end Sys2Proof.Machine
end

section
/-! SUPPORT. What a change of a Dunewatch output leaves, and the outputs after one change of each (14 R368, R370, R372, R373), for obligation O48. -/

namespace Sys2Proof.Machine

variable {s u w : State}

/-! ### What a change touches -/

/-- `u` is `s` but for logs, the host link, the power control, the count of free choices, the levels and counters of Dunewatch's outputs and the changes presented to the reflex logic. -/
def State.OutputsOnly (s u : State) : Prop :=
  { u with logs := s.logs, link := s.link, power := s.power, free := s.free, dw := { u.dw with out := s.dw.out, sentinel := s.dw.sentinel } } = s

theorem State.OutputsOnly.refl (s : State) : s.OutputsOnly s := rfl

theorem State.OutputsOnly.trans (h : s.OutputsOnly u) (h' : u.OutputsOnly w) : s.OutputsOnly w :=
  (congrArg (fun x : State => { x with logs := s.logs, link := s.link, power := s.power, free := s.free, dw := { x.dw with out := s.dw.out, sentinel := s.dw.sentinel } }) h' :).trans h

theorem State.OutputsOnly.regs (h : s.OutputsOnly u) : u.regs = s.regs := (congrArg State.regs h :)
theorem State.OutputsOnly.reg (h : s.OutputsOnly u) (a : Nat) : u.reg a = s.reg a := (congrArg (fun x : State => x.reg a) h :)
theorem State.OutputsOnly.tiles (h : s.OutputsOnly u) : u.tiles = s.tiles := (congrArg State.tiles h :)
theorem State.OutputsOnly.jobs (h : s.OutputsOnly u) : u.jobs = s.jobs := (congrArg State.jobs h :)
theorem State.OutputsOnly.fuses (h : s.OutputsOnly u) : u.fuses = s.fuses := (congrArg State.fuses h :)
theorem State.OutputsOnly.replaying (h : s.OutputsOnly u) : u.replaying = s.replaying := (congrArg State.replaying h :)
theorem State.OutputsOnly.dwOn (h : s.OutputsOnly u) : u.dwOn = s.dwOn := (congrArg State.dwOn h :)
theorem State.OutputsOnly.dwWord (h : s.OutputsOnly u) (old : Bool) (off : Nat) : u.dwWord old off = s.dwWord old off := (congrArg (fun x : State => x.dwWord old off) h :)

/-- The other fields of Dunewatch are as before. -/
theorem State.OutputsOnly.dw (h : s.OutputsOnly u) : { u.dw with out := s.dw.out, sentinel := s.dw.sentinel } = s.dw := (congrArg State.dw h :)

/-- `u` is `s` but for logs, the host link and the power control. -/
def State.Noted (s u : State) : Prop := { u with logs := s.logs, link := s.link, power := s.power } = s

theorem State.Noted.trans (h : s.Noted u) (h' : u.Noted w) : s.Noted w :=
  (congrArg (fun x : State => { x with logs := s.logs, link := s.link, power := s.power }) h' :).trans h

theorem State.Noted.ite {b : Prop} [Decidable b] (h : s.Noted u) (h' : s.Noted w) : s.Noted (if b then u else w) := by
  split <;> assumption

theorem State.Noted.dw (h : s.Noted u) : u.dw = s.dw := (congrArg State.dw h :)

theorem State.Recorded.noted {n : Nat} (h : s.Recorded u n) : s.Noted u := (congrArg (fun x : State => { x with power := s.power }) h.1 :)

theorem State.busySoon_noted (s : State) (d : Nat) : s.Noted (s.busySoon d) := by
  unfold State.busySoon State.wakeRow
  dsimp only
  split_ifs <;> rfl

theorem State.dwHints_noted (s : State) (old : Bool) : s.Noted (s.dwHints old) := by
  have fold (l : List Nat) (f : Nat → Nat) : s.Noted (l.foldl (fun s n => s.busySoon (f n)) s) := by
    induction l generalizing s with
    | nil => rfl
    | cons n l ih => exact (s.busySoon_noted _).trans (ih _)
  exact fold _ _

/-! ### One change of an output (R370, R373) -/

/-- The output's level after the change; a pulse leaves it. -/
def State.levelled (s : State) (c : DwChange) : State :=
  if c.pulse then s else { s with dw := { s.dw with out := s.dw.out.setIfInBounds c.k { s.dw.out.toList.getD c.k {} with level := c.assert } } }

/-- The change presented to the reflex logic, not in replay. -/
def State.outputPresented (s : State) (c : DwChange) : State :=
  if s.replaying then s else { s with dw := { s.dw with sentinel := s.dw.sentinel ++ [(c.k, !(c.assert || c.pulse), c.stamp)] } }

/-- The change's record, interrupt and hints, as the output's word `word` asks for them. -/
def State.changeNoted (s : State) (c : DwChange) (word : Word) : State :=
  let s := if bit word 6 then s.makeRecord 0 0 none (s.dwRecord c) else s
  let s := if bit word 4 && (c.assert || c.pulse) then s.signal (fld (s.reg 0x6020) 10 0) else s
  if bit word 5 && (c.assert || c.pulse) then s.dwHints c.old else s

theorem State.dwChange_eq (s : State) (c : DwChange) :
    s.dwChange c = ((s.levelled c).outputPresented c).changeNoted c (s.dwWord c.old (0x40 + 4 * c.k)) := rfl

theorem State.changeNoted_noted (s : State) (c : DwChange) (word : Word) : s.Noted (s.changeNoted c word) := by
  have record : s.Noted (if bit word 6 then s.makeRecord 0 0 none (s.dwRecord c) else s) := .ite (s.makeRecord_recorded 0 0 none _ (by decide)).noted rfl
  have signal (x : State) (v : Nat) (b : Bool) : x.Noted (if b then x.signal v else x) := .ite (x.signal_recorded v).noted rfl
  have hints (x : State) (b : Bool) : x.Noted (if b then x.dwHints c.old else x) := .ite (x.dwHints_noted _) rfl
  exact (record.trans (signal _ _ _)).trans (hints _ _)

theorem State.outputPresented_sentinel (s : State) (c : DwChange) (live : s.replaying = false) :
    (s.outputPresented c).dw.sentinel = s.dw.sentinel ++ [(c.k, !(c.assert || c.pulse), c.stamp)] := by
  unfold State.outputPresented
  rw [live]
  rfl

theorem State.dwChange_outputsOnly (s : State) (c : DwChange) : s.OutputsOnly (s.dwChange c) := by
  have level : s.OutputsOnly (s.levelled c) := by unfold State.levelled; split <;> rfl
  have present (x : State) : x.OutputsOnly (x.outputPresented c) := by unfold State.outputPresented; split <;> rfl
  have note (x : State) (word : Word) : x.OutputsOnly (x.changeNoted c word) :=
    (congrArg (fun y : State => { y with free := x.free, dw := { y.dw with out := x.dw.out, sentinel := x.dw.sentinel } }) (x.changeNoted_noted c word) :)
  exact (level.trans (present _)).trans (note _ _)

theorem State.outputPresented_out (s : State) (c : DwChange) : (s.outputPresented c).dw.out = s.dw.out := by
  unfold State.outputPresented
  split <;> rfl

theorem State.dwChange_out (s : State) (c : DwChange) : (s.dwChange c).dw.out = (s.levelled c).dw.out :=
  (congrArg Dw.out (State.changeNoted_noted _ c _).dw).trans (State.outputPresented_out _ c)

/-- A pulse leaves the outputs. -/
theorem State.dwChange_out_pulse {c : DwChange} (pulse : c.pulse = true) : (s.dwChange c).dw.out = s.dw.out := by
  rw [State.dwChange_out, State.levelled, if_pos pulse]

/-- Any other change gives its output its level. -/
theorem State.dwChange_out_level {c : DwChange} (lasting : c.pulse = false) :
    (s.dwChange c).dw.out = s.dw.out.setIfInBounds c.k { s.dw.out.toList.getD c.k {} with level := c.assert } := by
  rw [State.dwChange_out, State.levelled, lasting]
  rfl

/-- Outside replay a change presents one entry. -/
theorem State.dwChange_sentinel (c : DwChange) (live : s.replaying = false) : (s.dwChange c).dw.sentinel.length = s.dw.sentinel.length + 1 := by
  have kept : (s.levelled c).replaying = s.replaying ∧ (s.levelled c).dw.sentinel = s.dw.sentinel := by unfold State.levelled; split <;> exact ⟨rfl, rfl⟩
  rw [State.dwChange_eq, (State.changeNoted_noted _ c _).dw, State.outputPresented_sentinel _ c (kept.1.trans live), kept.2, List.length_append]
  rfl

/-! ### A change of each output in turn -/

theorem setIfInBounds_getD_self (v : Vector DwOut 4) (k : Nat) : v.setIfInBounds k (v.toList.getD k {}) = v := by
  ext n hn : 1
  by_cases h : n = k
  · subst h
    simp [hn]
  · simp [Ne.symm h]

theorem getD_toList_fin (v : Vector DwOut 4) (k : Fin 4) : v.toList.getD k {} = v[k] := by
  simp [List.getD_eq_getElem?_getD]

/-- Each step gives its own output a new value that depends on its old one alone, and touches nothing else. -/
def State.OutputSteps (s : State) (f : State → Nat → State) (g : Nat → DwOut → DwOut) : Prop :=
  ∀ u k, k < 4 → s.OutputsOnly u → u.OutputsOnly (f u k) ∧ (f u k).dw.out = u.dw.out.setIfInBounds k (g k (u.dw.out.toList.getD k {}))

variable {f : State → Nat → State} {g : Nat → DwOut → DwOut}

/-- After the steps of the outputs below `n`, those have their new values and the others their old ones. -/
theorem State.OutputSteps.upTo (steps : s.OutputSteps f g) (n : Nat) (hn : n ≤ 4) :
    s.OutputsOnly ((List.range n).foldl f s) ∧
      ∀ k < 4, ((List.range n).foldl f s).dw.out.toList.getD k {} = if k < n then g k (s.dw.out.toList.getD k {}) else s.dw.out.toList.getD k {} := by
  induction n with
  | zero => exact ⟨.refl s, fun k _ => rfl⟩
  | succ n ih =>
    obtain ⟨only, outs⟩ := ih (by omega)
    obtain ⟨only', set⟩ := steps _ n hn only
    rw [List.range_succ, List.foldl_append, List.foldl_cons, List.foldl_nil]
    refine ⟨only.trans only', fun k hk => ?_⟩
    rw [set]
    by_cases same : k = n
    · subst same
      rw [getD_setIfInBounds_same _ _ _ _ hk, outs k hk, if_neg (Nat.lt_irrefl k), if_pos (Nat.lt_succ_self k)]
    · rw [getD_setIfInBounds_ne _ _ _ _ _ same, outs k hk]
      exact if_congr (by omega) rfl rfl

/-- After a step of each output, each has its new value. -/
theorem State.OutputSteps.out (steps : s.OutputSteps f g) (k : Fin 4) : ((List.range 4).foldl f s).dw.out[k] = g k s.dw.out[k] := by
  have out := (steps.upTo 4 (by decide)).2 k k.isLt
  rwa [if_pos k.isLt, getD_toList_fin, getD_toList_fin] at out

/-- When the step of an output presents an entry exactly if `p` holds of the output, as many entries are presented as there are such outputs. -/
theorem State.OutputSteps.sentinel (steps : s.OutputSteps f g) (p : DwOut → Bool)
    (presents : ∀ u k, s.OutputsOnly u → (f u k).dw.sentinel.length = u.dw.sentinel.length + if p (u.dw.out.toList.getD k {}) then 1 else 0) (n : Nat) (hn : n ≤ 4) :
    ((List.range n).foldl f s).dw.sentinel.length = s.dw.sentinel.length + ((List.range n).filter fun k => p (s.dw.out.toList.getD k {})).length := by
  induction n with
  | zero => rfl
  | succ n ih =>
    obtain ⟨only, outs⟩ := steps.upTo n (by omega)
    have own := outs n hn
    rw [if_neg (Nat.lt_irrefl n)] at own
    rw [List.range_succ, List.foldl_append, List.foldl_cons, List.foldl_nil, presents _ n only, own, ih (by omega), List.filter_append, List.length_append, Nat.add_assoc]
    cases value : p (s.dw.out.toList.getD n {})
    · rw [List.filter_cons_of_neg (by rw [value]; decide)]
      rfl
    · rw [List.filter_cons_of_pos (p := fun k => p (s.dw.out.toList.getD k {})) value]
      rfl

end Sys2Proof.Machine
end

section
/-! SUPPORT. The Dunewatch commands that switch, arm, feed and watch the source (14 R361 to R364, R369, R372, R377), for obligation O48. -/

namespace Sys2Proof.Machine

variable (s : State) (t : Time)

@[simp] theorem State.at_dwOn : (s.at t).dwOn = s.dwOn := by rw [State.at_eq]; rfl
@[simp] theorem State.at_dwWord (old : Bool) (off : Nat) : (s.at t).dwWord old off = s.dwWord old off := by rw [State.at_eq]; rfl
@[simp] theorem State.at_optD : (s.at t).fuses.optD = s.fuses.optD := by rw [State.at_eq]
@[simp] theorem State.at_dw : (s.at t).dw = s.dw := by rw [State.at_eq]

/-- `u` has the tiles, jobs, reservoir and banks of `s`, and what is kept. -/
def State.Tame (s u : State) : Prop := u.tiles = s.tiles ∧ u.jobs = s.jobs ∧ u.resv = s.resv ∧ u.crest = s.crest ∧ u.kept = s.kept

theorem State.tame_at : s.Tame (s.at t) := ⟨by rw [State.at_eq], by rw [State.at_eq], by rw [State.at_eq], by rw [State.at_eq], s.at_kept t⟩

/-- Register words and Dunewatch's own fields. -/
theorem State.Tame.touched {s u w : State} (h : s.Tame u) (same : { w with regs := u.regs, dw := u.dw } = u) : s.Tame w := by
  have tiles : w.tiles = u.tiles := (congrArg State.tiles same :)
  have jobs : w.jobs = u.jobs := (congrArg State.jobs same :)
  have resv : w.resv = u.resv := (congrArg State.resv same :)
  have crest : w.crest = u.crest := (congrArg State.crest same :)
  have kept : w.kept = u.kept := (congrArg State.kept same :)
  rwa [State.Tame, tiles, jobs, resv, crest, kept]

/-! ### DW_ENABLE and DW_FREEZE -/

/-- Dunewatch just enabled. -/
def State.dwEnabled (s : State) : State :=
  let u := s.setReg 0x6000 (s.reg 0x6000 ||| oneBit 0)
  { u with dw := { u.dw with
      job := none, prev := none, hist := [], out := .replicate 4 {}, lastProcessed := none, lastGood := none
      watchFrom := s.time.now, lost := false, seq := 0 } }

theorem exec_dwEnable_absent (absent : s.fuses.optD = false) : exec (.dwEnable t) s = .next ((s.at t).absentAccess 9) :=
  congrArg Host.Outcome.next (if_pos (by rw [State.at_optD, absent]; rfl))

theorem exec_dwEnable_on (fitted : s.fuses.optD = true) (on : s.dwOn = true) : exec (.dwEnable t) s = .next (s.at t) :=
  congrArg Host.Outcome.next ((if_neg (by rw [State.at_optD, fitted]; decide)).trans (if_pos (by rw [State.at_dwOn, on])))

theorem exec_dwEnable_off (fitted : s.fuses.optD = true) (off : s.dwOn = false) : exec (.dwEnable t) s = .next (s.at t).dwEnabled :=
  congrArg Host.Outcome.next ((if_neg (by rw [State.at_optD, fitted]; decide)).trans (if_neg (by rw [State.at_dwOn, off]; decide)))

theorem State.dwEnabled_dwOn (fitted : s.fuses.optD = true) : s.dwEnabled.dwOn = true := by
  have bit : ((s.setReg 0x6000 (s.reg 0x6000 ||| oneBit 0)).reg 0x6000).getLsbD 0 = true := by rw [State.reg_setReg_same, getLsbD_or_oneBit _ _ (by decide)]
  exact (congrArg (· && _) fitted).trans bit

theorem State.dwEnabled_reg (a : Nat) (other : a ≠ 0x6000) : s.dwEnabled.reg a = s.reg a := s.reg_setReg_ne 0x6000 a _ other

theorem exec_dwFreeze_absent (on : Bool) (absent : s.fuses.optD = false) : exec (.dwFreeze on) s = .next (s.absentAccess 9) :=
  congrArg Host.Outcome.next (if_pos (by rw [absent]; rfl))

theorem exec_dwFreeze_same {on : Bool} (fitted : s.fuses.optD = true) (same : on = (s.reg 0x6000).getLsbD 1) : exec (.dwFreeze on) s = .next s :=
  congrArg Host.Outcome.next ((if_neg (by rw [fitted]; decide)).trans (if_pos same))

/-- FREEZE written. -/
def State.dwFrozen (s : State) (on : Bool) : State :=
  let u := s.setReg 0x6000 (if on then s.reg 0x6000 ||| oneBit 1 else s.reg 0x6000 &&& ~~~(oneBit 1))
  { u with dw := { u.dw with captured := false } }

theorem exec_dwFreeze_other {on : Bool} (fitted : s.fuses.optD = true) (other : on ≠ (s.reg 0x6000).getLsbD 1) : exec (.dwFreeze on) s = .next (s.dwFrozen on) :=
  congrArg Host.Outcome.next ((if_neg (by rw [fitted]; decide)).trans (if_neg other))

theorem State.dwFrozen_reg (on : Bool) (a : Nat) (other : a ≠ 0x6000) : (s.dwFrozen on).reg a = s.reg a := s.reg_setReg_ne 0x6000 a _ other

/-- A bit set or cleared, and another bit of the word. -/
theorem getLsbD_oneBit_written (w : Word) (on : Bool) (n k : Nat) (h : n < 32) :
    (if on then w ||| oneBit n else w &&& ~~~(oneBit n)).getLsbD k = if k = n then on else w.getLsbD k := by
  have one : (oneBit n).getLsbD k = decide (k = n) := by
    rw [oneBit, BitVec.getLsbD_ofNat, Nat.one_shiftLeft, Nat.testBit_two_pow]
    by_cases same : k = n
    · simp [same, h]
    · simp [same, Ne.symm same]
  by_cases same : k = n
  · subst same
    rw [decide_eq_true rfl] at one
    cases on <;> simp [one]
  · rw [decide_eq_false same] at one
    cases on
    · have top : k ≥ 32 → w.getLsbD k = false := w.getLsbD_of_ge k
      rw [if_neg Bool.false_ne_true, if_neg same, BitVec.getLsbD_and, BitVec.getLsbD_not, one, Bool.not_false, Bool.and_true]
      by_cases low : k < 32
      · rw [decide_eq_true low, Bool.and_true]
      · rw [decide_eq_false low, top (Nat.le_of_not_lt low), Bool.false_and]
    · simp [one, same]

theorem State.dwFrozen_bit (on : Bool) (k : Nat) : ((s.dwFrozen on).reg 0x6000).getLsbD k = if k = 1 then on else (s.reg 0x6000).getLsbD k := by
  have word : (s.dwFrozen on).reg 0x6000 = if on then s.reg 0x6000 ||| oneBit 1 else s.reg 0x6000 &&& ~~~(oneBit 1) := s.reg_setReg_same _ _
  rw [word, getLsbD_oneBit_written _ _ _ _ (by decide)]

theorem State.dwFrozen_dwOn (on : Bool) : (s.dwFrozen on).dwOn = s.dwOn := congrArg (s.fuses.optD && ·) ((s.dwFrozen_bit on 0).trans (if_neg (by decide)))

/-! ### DW_FEED_GO -/

theorem exec_dwFeedGo_absent (absent : s.fuses.optD = false) : exec (.dwFeedGo t) s = .next ((s.at t).absentAccess 9) :=
  congrArg Host.Outcome.next (if_pos (by rw [State.at_optD, absent]; rfl))

theorem exec_dwFeedGo_refused (fitted : s.fuses.optD = true) (shut : s.dwOn = false ∨ (s.bankWord 0 false 0x6010).getLsbD 0 = false ∨ s.dw.job ≠ none) :
    exec (.dwFeedGo t) s = .next ((s.at t).dwFlag 2) := by
  refine congrArg Host.Outcome.next ((if_neg (by rw [State.at_optD, fitted]; decide)).trans (if_pos ?_))
  rw [State.at_dwOn, State.at_bankWord, State.at_dw]
  exact shut.imp (by simp) (Or.imp (by simp [bit]) (by simp [Option.isSome_iff_ne_none]))

/-- The job of the frame in the DW_FEED window. -/
def State.feedJob (s : State) (now : Time) : DwJob := { image := (s.dw.feed.bytes 0 4800).map BitVec.toNat, stamp := 0, feed := true, bankAt := now }

theorem exec_dwFeedGo_taken (on : s.dwOn = true) (host : (s.bankWord 0 false 0x6010).getLsbD 0 = true) (free : s.dw.job = none) :
    exec (.dwFeedGo t) s = .next ((s.at t).dwTake ((s.at t).feedJob (s.at t).time.now)) := by
  have fitted : s.fuses.optD = true := (Bool.and_eq_true _ _ ▸ on).1
  refine congrArg Host.Outcome.next ((if_neg (by rw [State.at_optD, fitted]; decide)).trans (if_neg ?_))
  rw [State.at_dwOn, State.at_bankWord, State.at_dw, on, free]
  simp [bit, host]

theorem State.dwTake_counted (j : DwJob) : (s.dwTake j).reg 0x600C = s.reg 0x600C + 1 := s.reg_setReg_same _ _

/-! ### DW_DISABLE -/

/-- Dunewatch off, before its outputs are deasserted. -/
def State.dwStopped (s : State) : State :=
  let u := s.setReg 0x6000 (s.reg 0x6000 &&& ~~~(oneBit 0))
  { u with dw := { u.dw with job := none, prev := none, hist := [], lost := false } }

/-- Output `k` deasserted, if it is asserted. -/
def State.dwDeassert (s : State) (k : Nat) : State :=
  if (s.dw.out.toList.getD k {}).level then
    let s' := s.dwChange { k, cls := fld (s.dwWord false (0x40 + 4 * k)) 2 0, assert := false, pulse := false, lost := false, feed := false
                           score := s.dwOpen 0, stamp := BitVec.ofNat 64 (s.dwOpen 1), margin := s.dwOpen 2, old := false }
    { s' with free := s.free + 1 }
  else s

theorem exec_dwDisable_absent (absent : s.fuses.optD = false) : exec (.dwDisable t) s = .next ((s.at t).absentAccess 9) :=
  congrArg Host.Outcome.next (if_pos (by rw [State.at_optD, absent]; rfl))

theorem exec_dwDisable_off (fitted : s.fuses.optD = true) (off : s.dwOn = false) : exec (.dwDisable t) s = .next (s.at t) :=
  congrArg Host.Outcome.next ((if_neg (by rw [State.at_optD, fitted]; decide)).trans (if_pos (by rw [State.at_dwOn, off]; rfl)))

theorem exec_dwDisable_on (on : s.dwOn = true) : exec (.dwDisable t) s = .next ((List.range 4).foldl State.dwDeassert (s.at t).dwStopped) := by
  have fitted : s.fuses.optD = true := (Bool.and_eq_true _ _ ▸ on).1
  exact congrArg Host.Outcome.next ((if_neg (by rw [State.at_optD, fitted]; decide)).trans (if_neg (by rw [State.at_dwOn, on]; decide)))

theorem State.dwStopped_dwOn : s.dwStopped.dwOn = false := by
  have bit : ((s.setReg 0x6000 (s.reg 0x6000 &&& ~~~(oneBit 0))).reg 0x6000).getLsbD 0 = false := by
    rw [State.reg_setReg_same]
    exact getLsbD_oneBit_written (s.reg 0x6000) false 0 0 (by decide)
  exact (congrArg (s.fuses.optD && ·) bit).trans (Bool.and_false _)

theorem State.dwDeassert_steps : s.OutputSteps State.dwDeassert fun _ o => { o with level := false } := by
  intro u k hk _
  unfold State.dwDeassert
  split
  · refine ⟨(u.dwChange_outputsOnly _).trans rfl, ?_⟩
    exact u.dwChange_out_level rfl
  · next low =>
    refine ⟨.refl u, ?_⟩
    have same (o : DwOut) (h : ¬ o.level = true) : { o with level := false } = o := by
      rw [← Bool.eq_false_iff.mpr h]
    exact (setIfInBounds_getD_self _ _).symm.trans (congrArg (u.dw.out.setIfInBounds k) (same _ low).symm)

theorem State.dwDeassert_presents (live : s.replaying = false) (k : Nat) :
    (s.dwDeassert k).dw.sentinel.length = s.dw.sentinel.length + if (s.dw.out.toList.getD k {}).level then 1 else 0 := by
  unfold State.dwDeassert
  split
  · exact s.dwChange_sentinel _ live
  · rfl

/-! ### DW_SOURCE_LOST -/

/-- The source is lost, before the outputs go to their LOST_STATE. -/
def State.dwLostSource (s : State) : State :=
  let u := s.dwFlag 0
  { u with dw := { u.dw with lost := true, prev := none, hist := [] } }

/-- Output `k` goes to its LOST_STATE, if it is enabled and not there. -/
def State.dwLose (s : State) (k : Nat) : State :=
  let w := s.dwWord false (0x40 + 4 * k)
  if fld w 2 0 = 0 ∨ (s.dw.out.toList.getD k {}).level = bit w 3 then s else
  let s' := s.dwChange { k, cls := fld w 2 0, assert := bit w 3, pulse := false, lost := true, feed := false, score := 0
                         stamp := match s.dw.lastGood with | some st => st | none => BitVec.ofNat 64 (s.dwOpen 1)
                         margin := s.dwOpen 2, old := false }
  { s' with free := s.free + 1 }

/-- The source is lost: what R372 asks before the command takes effect. -/
def State.sourceGone (s : State) (now : Time) : Prop :=
  s.dwOn = true ∧ (s.bankWord 0 false 0x6010).getLsbD 0 = false ∧ s.replaying = false ∧ s.dw.lost = false ∧
    s.dw.watchFrom + 1000000 * fld (s.bankWord 0 false 0x601C) 15 0 ≤ now

theorem State.sourceGone_iff (now : Time) :
    (!s.dwOn ∨ bit (s.bankWord 0 false 0x6010) 0 ∨ s.replaying ∨ s.dw.lost ∨ now < s.dw.watchFrom + 1000000 * fld (s.bankWord 0 false 0x601C) 15 0) ↔ ¬ s.sourceGone now := by
  unfold State.sourceGone bit
  cases s.dwOn <;> cases (s.bankWord 0 false 0x6010).getLsbD 0 <;> cases s.replaying <;> cases s.dw.lost <;> simp

theorem exec_dwSourceLost_not (there : ¬ s.sourceGone (s.at t).time.now) : exec (.dwSourceLost t) s = .next (s.at t) := by
  refine congrArg Host.Outcome.next (if_pos ?_)
  rw [State.at_dwOn, State.at_bankWord, State.at_bankWord, State.at_replaying, State.at_dw]
  exact (s.sourceGone_iff _).mpr there

theorem exec_dwSourceLost_gone (gone : s.sourceGone (s.at t).time.now) :
    exec (.dwSourceLost t) s = .next ((List.range 4).foldl State.dwLose (s.at t).dwLostSource) := by
  refine congrArg Host.Outcome.next (if_neg ?_)
  rw [State.at_dwOn, State.at_bankWord, State.at_bankWord, State.at_replaying, State.at_dw]
  exact fun holds => (s.sourceGone_iff _).mp holds gone

/-- An output after the source is lost, by its word. -/
def DwOut.lost (o : DwOut) (w : Word) : DwOut := if fld w 2 0 = 0 ∨ o.level = bit w 3 then o else { o with level := bit w 3 }

theorem DwOut.lost_level (o : DwOut) (w : Word) : (o.lost w).level = if fld w 2 0 = 0 then o.level else w.getLsbD 3 := by
  unfold DwOut.lost
  by_cases off : fld w 2 0 = 0
  · rw [if_pos (.inl off), if_pos off]
  · rw [if_neg off]
    split
    · next h => exact h.resolve_left off
    · rfl

theorem State.dwLose_steps : s.OutputSteps State.dwLose fun k o => o.lost (s.dwWord false (0x40 + 4 * k)) := by
  intro u k hk only
  have word := only.dwWord false (0x40 + 4 * k)
  unfold State.dwLose DwOut.lost
  dsimp only
  rw [word]
  split
  · exact ⟨.refl u, (setIfInBounds_getD_self _ _).symm⟩
  · exact ⟨(u.dwChange_outputsOnly _).trans rfl, u.dwChange_out_level rfl⟩

theorem State.dwFlag_bit (b : Nat) (h : b < 32) : ((s.dwFlag b).reg 0x6004).getLsbD b = true := by
  unfold State.dwFlag State.countByte
  rw [State.reg_setReg_ne _ _ _ _ (by omega), s.setFlag_bit _ _ h]

end Sys2Proof.Machine
end

section
/-! SUPPORT. Dunewatch's frames and its inference: the decimated image, the last layer, and what the outputs become (14 R362 to R368, R370, R377), for obligation O48. -/

namespace Sys2Proof.Machine

/-! ### The decimated image (R363) -/

/-- Entry `b` of row `a` of a table laid out row by row. -/
theorem getElem?_flatMap_rows {α : Type} (f : Nat → Nat → α) (n m a b : Nat) (ha : a < m) (hb : b < n) :
    ((List.range n).flatMap fun v => (List.range m).map (f v))[m * b + a]? = some (f b a) := by
  have len (k : Nat) : ((List.range k).flatMap fun v => (List.range m).map (f v)).length = m * k := by
    simp [List.length_flatMap, Nat.mul_comm]
  induction n with
  | zero => omega
  | succ n ih =>
    rw [List.range_succ, List.flatMap_append]
    by_cases last : b = n
    · subst last
      rw [List.getElem?_append_right (by rw [len]; omega), len, Nat.add_sub_cancel_left]
      simp [ha]
    · have below : m * b + a < m * n := by nlinarith [show b + 1 ≤ n by omega]
      rw [List.getElem?_append_left (by rw [len]; exact below), ih (by omega)]

/-- The sum of a stretch of bytes, entry by entry. -/
theorem foldl_drop_take (l : List Byte) (p k n : Nat) :
    ((l.drop p).take k).foldl (fun (n : Nat) (b : Byte) => n + b.toNat) n = n + (List.range k).foldl (fun m i => m + (l.getD (p + i) 0).toNat) 0 := by
  induction k with
  | zero => rfl
  | succ k ih =>
    rw [List.take_add_one, List.foldl_append, ih, List.range_succ, List.foldl_append, List.getElem?_drop, List.foldl_cons, List.foldl_nil, List.getD_eq_getElem?_getD, ← Nat.add_assoc]
    cases l[p + k]? <;> rfl

theorem length_decimate (luma : List Byte) (width x0 y0 sx sy : Nat) : (decimate luma width x0 y0 sx sy).length = 4800 := by
  unfold decimate
  simp [List.length_flatMap]

theorem decimate_getD (luma : List Byte) (width x0 y0 sx sy a b : Nat) (ha : a < 80) (hb : b < 60) :
    (decimate luma width x0 y0 sx sy).getD (80 * b + a) 0 =
      ((List.range sy).foldl (fun n j => n + (List.range sx).foldl (fun m i => m + (luma.getD ((y0 + sy * b + j) * width + x0 + sx * a + i) 0).toNat) 0) 0 + sx * sy / 2) / (sx * sy) := by
  unfold decimate
  rw [List.getD_eq_getElem?_getD, getElem?_flatMap_rows _ _ _ _ _ ha hb, Option.getD_some]
  unfold dwPixel
  simp only [foldl_drop_take, Nat.add_assoc]

/-! ### The largest score (R367) -/

/-- The search for the largest score, over the first `n` classes: the largest value of `f` and the lowest place where it stands. -/
theorem largest_foldl (f : Nat → Int) (n : Nat) :
    let b := (List.range n).foldl (fun (b : Int × Nat) i => if b.1 < f i then (f i, i) else b) (f 0, 0)
    b.1 = f b.2 ∧ b.2 < max 1 n ∧ (∀ c < n, f c ≤ b.1) ∧ ∀ c < b.2, f c < b.1 := by
  induction n with
  | zero => exact ⟨rfl, by simp, by simp, by simp⟩
  | succ n ih =>
    rw [List.range_succ, List.foldl_append, List.foldl_cons, List.foldl_nil]
    generalize (List.range n).foldl (fun (b : Int × Nat) i => if b.1 < f i then (f i, i) else b) (f 0, 0) = b at ih ⊢
    obtain ⟨value, place, most, first⟩ := ih
    dsimp only
    split
    · next more =>
      refine ⟨rfl, by simp, fun c hc => ?_, fun c hc => ?_⟩
      · rcases Nat.lt_succ_iff_lt_or_eq.mp hc with h | rfl
        · exact (most c h).trans more.le
        · exact le_rfl
      · exact (most c hc).trans_lt more
    · next less =>
      refine ⟨value, by omega, fun c hc => ?_, first⟩
      rcases Nat.lt_succ_iff_lt_or_eq.mp hc with h | rfl
      · exact most c h
      · exact not_lt.mp less

theorem zipIdx_map_range (f : Nat → Int) (n : Nat) : ((List.range n).map f).zipIdx = (List.range n).map fun i => (f i, i) := by
  refine List.ext_getElem? fun i => ?_
  by_cases h : i < n <;> simp [h]

/-- The top class of eight has the largest score, and those before it have less. -/
theorem dwTop_largest (f : Nat → Int) :
    let scores := (List.range 8).map f
    dwTop scores < 8 ∧ (∀ c, c < 8 → scores.getD c 0 ≤ scores.getD (dwTop scores) 0) ∧ ∀ c, c < dwTop scores → scores.getD c 0 < scores.getD (dwTop scores) 0 := by
  intro scores
  have score (c : Nat) (h : c < 8) : scores.getD c 0 = f c := by simp [scores, List.getD_eq_getElem?_getD, h]
  have top : dwTop scores = ((List.range 8).foldl (fun (b : Int × Nat) i => if b.1 < f i then (f i, i) else b) (f 0, 0)).2 := by
    unfold dwTop
    rw [zipIdx_map_range, List.foldl_map, score 0 (by decide)]
  obtain ⟨value, place, most, first⟩ := largest_foldl f 8
  rw [← top] at value place first
  rw [value] at most first
  have small : dwTop scores < 8 := place
  refine ⟨small, fun c hc => ?_, fun c hc => ?_⟩
  · rw [score c hc, score _ small]
    exact most c hc
  · rw [score c (hc.trans small), score _ small]
    exact first c hc

/-! ### DW_INFERENCE_DONE (R365 to R371) -/

variable (s : State) (j : DwJob) (t : Time)

/-- The bank that an inference reads. -/
def State.dwBank (s : State) (j : DwJob) : Bool := if j.feed then s.usesOld j.bankAt else s.usesOld (stampTime j.stamp)

/-- The embeddings of the last four processed frames, with that of the job's image. -/
def State.dwHist (s : State) (j : DwJob) : List (List Nat) :=
  (((List.range 64).map fun n => (Config.dwFeature j.image (dwDiff j.image s.dw.prev) n).toNat) :: s.dw.hist).take 4

/-- The scores of the eight classes. -/
def State.dwScores (s : State) (j : DwJob) : List Int := (List.range 8).map fun c => s.dwScore (s.dwBank j) (dwInput (s.dwHist j)) c

/-- FREEZE waits for a capture. -/
def State.dwCaptures (s : State) : Bool := bit (s.reg 0x6000) 1 && !s.dw.captured

/-- The frame's scores are in, and its outputs not yet driven. -/
def State.dwScored (s : State) (j : DwJob) : State :=
  let scores := s.dwScores j
  let s' := { s with dw := { s.dw with
    job := none, prev := some j.image, hist := s.dwHist j, top := dwTop scores, det := s.dwDetect (s.dwBank j) scores, score := scores.getD (dwTop scores) 0
    embed := if s.dwCaptures then dwInput (s.dwHist j) else s.dw.embed
    captured := s.dw.captured || s.dwCaptures
    lastStamp := if j.feed then s.dw.lastStamp else j.stamp } }
  if s.dwCaptures then s'.dwFlag 3 else s'

/-- Output `k` after the frame of `j`, of which class `d` is detected with these scores. -/
def State.dwDrive (j : DwJob) (old : Bool) (d : Nat) (scores : List Int) (s : State) (k : Nat) : State :=
  let cls := fld (s.dwWord old (0x40 + 4 * k)) 2 0
  let r := (s.dw.out.toList.getD k {}).frame cls d (s.dwWord old (0x80 + 4 * cls))
  let s := { s with dw := { s.dw with out := s.dw.out.setIfInBounds k r.1 } }
  match r.2 with
  | none => s
  | some up =>
    s.dwChange { k, cls, assert := up && decide (cls < 4), pulse := decide (4 ≤ cls), lost := false, feed := j.feed
                 score := toTwos 32 (scores.getD (dwTop scores) 0), stamp := if j.feed then 0 else j.stamp, margin := toTwos 32 (dwMargin scores), old }

theorem State.dwFinish_eq : s.dwFinish j = (List.range 4).foldl (State.dwDrive j (s.dwBank j) (s.dwDetect (s.dwBank j) (s.dwScores j)) (s.dwScores j)) (s.dwScored j) := rfl

/-- An output after a processed frame: its counters, and the level that its change gives it. -/
def DwOut.driven (o : DwOut) (cls d : Nat) (hyst : Word) : DwOut :=
  match (o.frame cls d hyst).2 with
  | none => (o.frame cls d hyst).1
  | some up => if 4 ≤ cls then (o.frame cls d hyst).1 else { (o.frame cls d hyst).1 with level := up && decide (cls < 4) }

theorem DwOut.driven_off (o : DwOut) (d : Nat) (hyst : Word) : o.driven 0 d hyst = o := rfl

/-- An output that follows a class: how long it has been there or away, and its level by the two thresholds. -/
theorem DwOut.driven_class (o : DwOut) (cls d : Nat) (hyst : Word) (low : 1 ≤ cls) (high : cls < 4) :
    (o.driven cls d hyst).on = (if d = cls then o.on + 1 else 0) ∧ (o.driven cls d hyst).off = (if d = cls then 0 else o.off + 1) ∧
      (o.driven cls d hyst).level = if o.level then decide ((o.driven cls d hyst).off < max 1 (fld hyst 7 4)) else decide (max 1 (fld hyst 3 0) ≤ (o.driven cls d hyst).on) := by
  have frame : o.frame cls d hyst =
      (let o' := if d = cls then { o with on := o.on + 1, off := 0 } else { o with on := 0, off := o.off + 1 }
       (o', if !o'.level ∧ max 1 (fld hyst 3 0) ≤ o'.on then some true else if o'.level ∧ max 1 (fld hyst 7 4) ≤ o'.off then some false else none)) := by
    unfold DwOut.frame
    rw [if_neg (by omega), if_pos high]
  have counted : (if d = cls then { o with on := o.on + 1, off := 0 } else { o with on := 0, off := o.off + 1 } : DwOut) =
      { o with on := if d = cls then o.on + 1 else 0, off := if d = cls then 0 else o.off + 1 } := by
    split <;> rfl
  unfold DwOut.driven
  simp only [frame, counted, if_neg (Nat.not_le.mpr high), decide_eq_true high, Bool.and_true]
  generalize (if d = cls then o.on + 1 else 0) = n
  generalize (if d = cls then 0 else o.off + 1) = m
  cases o.level
  · by_cases up : max 1 (fld hyst 3 0) ≤ n
    · simp [up]
    · simp [up]
  · by_cases down : max 1 (fld hyst 7 4) ≤ m
    · simp [down, Nat.not_lt.mpr down]
    · simp [down, Nat.lt_of_not_le down]

/-- An output that follows a gesture pulses: its level stays. -/
theorem DwOut.driven_gesture (o : DwOut) (cls d : Nat) (hyst : Word) (high : 4 ≤ cls) : (o.driven cls d hyst).level = o.level := by
  have level : (o.frame cls d hyst).1.level = o.level := by
    unfold DwOut.frame
    rw [if_neg (by omega), if_neg (by omega)]
    split <;> rfl
  unfold DwOut.driven
  split
  · exact level
  · rw [if_pos high, level]

theorem State.dwDrive_steps (old : Bool) (d : Nat) (scores : List Int) : s.OutputSteps (State.dwDrive j old d scores) fun k o =>
    let cls := fld (s.dwWord old (0x40 + 4 * k)) 2 0
    o.driven cls d (s.dwWord old (0x80 + 4 * cls)) := by
  intro u k hk only
  unfold State.dwDrive DwOut.driven
  dsimp only
  rw [only.dwWord, only.dwWord]
  generalize fld (s.dwWord old (0x40 + 4 * k)) 2 0 = cls
  generalize (u.dw.out.toList.getD k {}).frame cls d (s.dwWord old (0x80 + 4 * cls)) = r
  cases r.2 with
  | none => exact ⟨rfl, rfl⟩
  | some up =>
    refine ⟨.trans (u := { u with dw := { u.dw with out := u.dw.out.setIfInBounds k r.1 } }) rfl (State.dwChange_outputsOnly _ _), ?_⟩
    by_cases gesture : 4 ≤ cls
    · refine (State.dwChange_out_pulse (decide_eq_true gesture)).trans ?_
      dsimp only
      rw [if_pos gesture]
    · refine (State.dwChange_out_level (decide_eq_false gesture)).trans ?_
      dsimp only
      rw [if_neg gesture, getD_setIfInBounds_same _ _ _ _ hk, Vector.setIfInBounds_setIfInBounds]

/-- What the inference leaves of the rest. -/
theorem State.dwFinish_outputsOnly : (s.dwScored j).OutputsOnly (s.dwFinish j) := by
  rw [State.dwFinish_eq]
  exact (((s.dwScored j).dwDrive_steps j _ _ _).upTo 4 (by decide)).1

end Sys2Proof.Machine
end

section
/-! SUPPORT. Dunewatch's frames as they arrive, and its commands together (14 R361 to R373, R377), for obligation O48. -/

namespace Sys2Proof.Machine

variable (s : State) (j : DwJob) (t : Time)

/-! ### What an inference leaves -/

/-- Dunewatch's own fields when the scores are in. -/
def State.dwAfter (s : State) (j : DwJob) : Dw :=
  { s.dw with
    job := none, prev := some j.image, hist := s.dwHist j, top := dwTop (s.dwScores j), det := s.dwDetect (s.dwBank j) (s.dwScores j)
    score := (s.dwScores j).getD (dwTop (s.dwScores j)) 0
    embed := if s.dwCaptures then dwInput (s.dwHist j) else s.dw.embed
    captured := s.dw.captured || s.dwCaptures
    lastStamp := if j.feed then s.dw.lastStamp else j.stamp }

theorem State.dwScored_dw : (s.dwScored j).dw = s.dwAfter j :=
  (apply_ite State.dw (s.dwCaptures = true) _ _).trans (ite_self (s.dwAfter j))

/-- The scores are in: register words and Dunewatch's fields have changed. -/
theorem State.dwScored_frame : { s.dwScored j with regs := s.regs, dw := s.dw } = s := by
  unfold State.dwScored
  dsimp only
  split <;> rfl

theorem State.dwFinish_tiles : (s.dwFinish j).tiles = s.tiles := (s.dwFinish_outputsOnly j).tiles.trans (congrArg State.tiles (s.dwScored_frame j) :)
theorem State.dwFinish_jobs : (s.dwFinish j).jobs = s.jobs := (s.dwFinish_outputsOnly j).jobs.trans (congrArg State.jobs (s.dwScored_frame j) :)
theorem State.dwScored_dwWord (old : Bool) (off : Nat) : (s.dwScored j).dwWord old off = s.dwWord old off := (congrArg (fun x : State => x.dwWord old off) (s.dwScored_frame j) :)

/-- But for the outputs and what they present, Dunewatch is as the scores leave it. -/
theorem State.dwFinish_dw : { (s.dwFinish j).dw with out := s.dw.out, sentinel := s.dw.sentinel } = s.dwAfter j := by
  have only := (s.dwFinish_outputsOnly j).dw
  rw [State.dwScored_dw] at only
  exact only

theorem State.dwFinish_job : (s.dwFinish j).dw.job = none := (congrArg Dw.job (s.dwFinish_dw j) :)
theorem State.dwFinish_det : (s.dwFinish j).dw.det = s.dwDetect (s.dwBank j) (s.dwScores j) := (congrArg Dw.det (s.dwFinish_dw j) :)
theorem State.dwFinish_embed : (s.dwFinish j).dw.embed = if s.dwCaptures then dwInput (s.dwHist j) else s.dw.embed := (congrArg Dw.embed (s.dwFinish_dw j) :)
theorem State.dwFinish_captured : (s.dwFinish j).dw.captured = (s.dw.captured || s.dwCaptures) := (congrArg Dw.captured (s.dwFinish_dw j) :)

/-- A capture raises its flag (R377). -/
theorem State.dwFinish_flag (captures : s.dwCaptures = true) : ((s.dwFinish j).reg 0x6004).getLsbD 3 = true := by
  rw [(s.dwFinish_outputsOnly j).reg]
  unfold State.dwScored
  dsimp only
  rw [if_pos captures]
  exact State.dwFlag_bit _ 3 (by decide)

/-- Each output after the inference. -/
theorem State.dwFinish_out (k : Fin 4) :
    (s.dwFinish j).dw.out[k] =
      (s.dw.out[k]).driven (fld (s.dwWord (s.dwBank j) (0x40 + 4 * k)) 2 0) (s.dwFinish j).dw.det (s.dwWord (s.dwBank j) (0x80 + 4 * fld (s.dwWord (s.dwBank j) (0x40 + 4 * k)) 2 0)) := by
  have out := ((s.dwScored j).dwDrive_steps j (s.dwBank j) (s.dwDetect (s.dwBank j) (s.dwScores j)) (s.dwScores j)).out k
  rw [← State.dwFinish_eq] at out
  dsimp only at out
  rw [State.dwScored_dwWord, State.dwScored_dwWord, State.dwScored_dw] at out
  rw [State.dwFinish_det]
  exact out

/-! ### DW_FRAME (R361 to R364) -/

/-- Dunewatch listens to the frame's stream. -/
def State.dwHears (s : State) (stream : Fin 24) (st : Stamp) : Prop :=
  let src := s.dwWord (s.usesOld (stampTime st)) 0x10
  s.dwOn = true ∧ s.fuses.optV = true ∧ s.replaying = false ∧ src.getLsbD 0 = false ∧ fld src 12 8 = stream.val ∧ s.power.fOn[2] = true

/-- The frame is undamaged and covers the region. -/
def State.dwCovers (s : State) (st : Stamp) (width height : Nat) (damaged : Bool) : Prop :=
  let old := s.usesOld (stampTime st)
  damaged = false ∧ fld (s.dwWord old 0x14) 12 0 + 80 * max 1 (fld (s.dwWord old 0x18) 5 0) ≤ width ∧
    fld (s.dwWord old 0x14) 28 16 + 60 * max 1 (fld (s.dwWord old 0x18) 13 8) ≤ height

/-- The frame is far enough from the last one processed (R364). -/
def State.dwDue (x : State) (src : Word) (st : Stamp) : Bool :=
  match x.dw.lastProcessed with
  | none => true
  | some p => x.dw.lost || decide (stampTime p + 1000000 * fld src 31 16 ≤ stampTime st)

/-- A good frame has come. -/
def State.dwWatched (x : State) (st : Stamp) : State :=
  { x with dw := { x.dw with lost := false, lastGood := some st, watchFrom := stampTime st } }

/-- The job of a frame, its region and steps taken from the bank's words. -/
def State.frameJob (s : State) (st : Stamp) (width : Nat) (luma : List Byte) : DwJob :=
  let xy := s.dwWord (s.usesOld (stampTime st)) 0x14
  let step := s.dwWord (s.usesOld (stampTime st)) 0x18
  { image := decimate luma width (fld xy 12 0) (fld xy 28 16) (dwStep step).1 (dwStep step).2, stamp := st, feed := false, bankAt := stampTime st }

/-- The frame is processed. -/
def State.dwProcessed (x : State) (st : Stamp) (j : DwJob) : State :=
  ({ x.dwWatched st with dw := { (x.dwWatched st).dw with lastProcessed := some st } }).dwTake j

variable {stream : Fin 24} {st : Stamp} {width height : Nat} {luma : List Byte} {damaged : Bool}

theorem State.dwHears_iff (stream : Fin 24) (st : Stamp) : (!s.dwOn ∨ !s.fuses.optV ∨ s.replaying ∨ bit (s.dwWord (s.usesOld (stampTime st)) 0x10) 0 ∨
    fld (s.dwWord (s.usesOld (stampTime st)) 0x10) 12 8 ≠ stream.val ∨ s.power.fOn[2] = false) ↔ ¬ s.dwHears stream st := by
  unfold State.dwHears bit
  simp only [Bool.not_eq_true', not_and_or, Bool.not_eq_true, Bool.not_eq_false, ne_eq]

theorem State.dwCovers_iff : (!dwGood (s.dwWord (s.usesOld (stampTime st)) 0x14) (s.dwWord (s.usesOld (stampTime st)) 0x18) width height damaged) = true ↔ ¬ s.dwCovers st width height damaged := by
  unfold dwGood State.dwCovers dwStep
  simp only [Bool.not_eq_true', Bool.and_eq_false_iff, Bool.not_eq_false', decide_eq_false_iff_not, not_and_or, Bool.not_eq_false]

theorem State.at_dwHears : (s.at t).dwHears stream st ↔ s.dwHears stream st := by
  have live := s.at_replaying t
  unfold State.dwHears
  rw [live, State.at_eq]
  rfl

theorem State.at_dwCovers : (s.at t).dwCovers st width height damaged ↔ s.dwCovers st width height damaged := by rw [State.at_eq]; rfl
theorem State.at_frameJob : (s.at t).frameJob st width luma = s.frameJob st width luma := by rw [State.at_eq]; rfl

theorem exec_dwFrame_unheard (deaf : ¬ s.dwHears stream st) : exec (.dwFrame stream st width height luma damaged t) s = .next (s.at t) :=
  congrArg Host.Outcome.next (if_pos (((s.at t).dwHears_iff stream st).mpr fun hears => deaf ((s.at_dwHears t).mp hears)))

theorem exec_dwFrame_bad (hears : s.dwHears stream st) (bad : ¬ s.dwCovers st width height damaged) :
    exec (.dwFrame stream st width height luma damaged t) s = .next ((s.at t).dwFlag 1) :=
  congrArg Host.Outcome.next ((if_neg fun no => ((s.at t).dwHears_iff stream st).mp no ((s.at_dwHears t).mpr hears)).trans
    (if_pos ((s.at t).dwCovers_iff.mpr fun covers => bad ((s.at_dwCovers t).mp covers))))

/-- A good frame that Dunewatch hears. -/
theorem exec_dwFrame_good (hears : s.dwHears stream st) (good : s.dwCovers st width height damaged) :
    exec (.dwFrame stream st width height luma damaged t) s =
      .next (if !(s.at t).dwSettle.dwDue (s.dwWord (s.usesOld (stampTime st)) 0x10) st then (s.at t).dwSettle.dwWatched st
        else (s.at t).dwSettle.dwProcessed st (s.frameJob st width luma)) := by
  rw [← State.at_frameJob s t, ← State.at_usesOld s t, ← State.at_dwWord s t]
  exact congrArg Host.Outcome.next ((if_neg fun no => ((s.at t).dwHears_iff stream st).mp no ((s.at_dwHears t).mpr hears)).trans
    (if_neg fun no => (s.at t).dwCovers_iff.mp no ((s.at_dwCovers t).mpr good)))

theorem State.dwSettle_job : s.dwSettle.dw.job = none := by
  unfold State.dwSettle
  split
  · exact s.dwFinish_job _
  · assumption

theorem exec_dwInferenceDone_none (idle : s.dw.job = none) : exec (.dwInferenceDone t) s = .next (s.at t) := by
  refine congrArg Host.Outcome.next ?_
  unfold State.dwSettle
  rw [State.at_dw, idle]

theorem exec_dwInferenceDone_some (open_ : s.dw.job = some j) : exec (.dwInferenceDone t) s = .next ((s.at t).dwFinish j) := by
  refine congrArg Host.Outcome.next ?_
  unfold State.dwSettle
  rw [State.at_dw, open_]

/-! ### The obligation's parts -/

/-- DW_DISABLE on a running Dunewatch. -/
theorem State.dwDisable_results (u : State) (same : u = (List.range 4).foldl State.dwDeassert s.dwStopped) :
    u.dwOn = false ∧ u.dw.job = none ∧ u.dw.prev = none ∧ u.dw.hist = [] ∧ (∀ k : Fin 4, (u.dw.out[k]).level = false) ∧ u.tiles = s.tiles ∧ u.jobs = s.jobs ∧
      (s.replaying = false → u.dw.sentinel.length = s.dw.sentinel.length + ((List.range 4).filter fun k => (s.dw.out.toList.getD k {}).level).length) := by
  have steps := s.dwStopped.dwDeassert_steps
  have only := (steps.upTo 4 (by decide)).1
  rw [← same] at only
  refine ⟨only.dwOn.trans s.dwStopped_dwOn, (congrArg Dw.job only.dw :), (congrArg Dw.prev only.dw :), (congrArg Dw.hist only.dw :), fun k => ?_, only.tiles, only.jobs, fun live => ?_⟩
  · rw [same, steps.out k]
  · rw [same]
    exact steps.sentinel DwOut.level (fun v k only => v.dwDeassert_presents (only.replaying.trans live) k) 4 (by decide)

/-- DW_SOURCE_LOST on a silent source. -/
theorem State.dwLost_results (u : State) (same : u = (List.range 4).foldl State.dwLose s.dwLostSource) :
    u.dw.lost = true ∧ u.dw.hist = [] ∧ u.dw.prev = none ∧ (u.reg 0x6004).getLsbD 0 = true ∧ u.tiles = s.tiles ∧ u.jobs = s.jobs ∧
      ∀ k : Fin 4, (u.dw.out[k]).level = if fld (s.dwWord false (0x40 + 4 * k)) 2 0 = 0 then (s.dw.out[k]).level else (s.dwWord false (0x40 + 4 * k)).getLsbD 3 := by
  have steps := s.dwLostSource.dwLose_steps
  have only := (steps.upTo 4 (by decide)).1
  rw [← same] at only
  refine ⟨(congrArg Dw.lost only.dw :), (congrArg Dw.hist only.dw :), (congrArg Dw.prev only.dw :), ?_, only.tiles, only.jobs, fun k => ?_⟩
  · rw [only.reg]
    exact s.dwFlag_bit 0 (by decide)
  · rw [same, steps.out k]
    exact DwOut.lost_level _ _

/-- The end of an inference. -/
theorem State.dwFinish_results :
    let u := s.dwFinish j
    let bank := s.dwBank j
    let scores := s.dwScores j
    let top := dwTop scores
    u.dw.job = none ∧ u.dw.prev = some j.image ∧ u.dw.hist = s.dwHist j ∧ u.dw.top = top ∧ top < 8 ∧ (∀ c, c < 8 → scores.getD c 0 ≤ scores.getD top 0) ∧ (∀ c, c < top → scores.getD c 0 < scores.getD top 0) ∧
      u.dw.det = (if 0 < top ∧ toSigned 32 (s.dwWord bank (0x60 + 4 * top)).toNat ≤ scores.getD top 0 then top else 0) ∧ u.dw.score = scores.getD top 0 ∧
      ((s.reg 0x6000).getLsbD 1 = true → s.dw.captured = false → u.dw.embed = dwInput (s.dwHist j) ∧ u.dw.captured = true ∧ (u.reg 0x6004).getLsbD 3 = true) ∧
      ((s.reg 0x6000).getLsbD 1 = false ∨ s.dw.captured = true → u.dw.embed = s.dw.embed ∧ u.dw.captured = s.dw.captured) ∧
      (∀ k : Fin 4, let o := s.dw.out[k]
        let cls := fld (s.dwWord bank (0x40 + 4 * k)) 2 0
        let hyst := s.dwWord bank (0x80 + 4 * cls)
        (cls = 0 → u.dw.out[k] = o) ∧
        (1 ≤ cls → cls < 4 → (u.dw.out[k]).on = (if u.dw.det = cls then o.on + 1 else 0) ∧ (u.dw.out[k]).off = (if u.dw.det = cls then 0 else o.off + 1) ∧
          (u.dw.out[k]).level = (if o.level then decide ((u.dw.out[k]).off < max 1 (fld hyst 7 4)) else decide (max 1 (fld hyst 3 0) ≤ (u.dw.out[k]).on))) ∧
        (4 ≤ cls → (u.dw.out[k]).level = o.level)) ∧ u.tiles = s.tiles ∧ u.jobs = s.jobs := by
  intro u bank scores top
  obtain ⟨small, most, first⟩ := dwTop_largest fun c => s.dwScore (s.dwBank j) (dwInput (s.dwHist j)) c
  have dw := s.dwFinish_dw j
  refine ⟨s.dwFinish_job j, (congrArg Dw.prev dw :), (congrArg Dw.hist dw :), (congrArg Dw.top dw :), small, most, first, s.dwFinish_det j, (congrArg Dw.score dw :), fun armed free => ?_, fun shut => ?_, fun k => ?_,
    s.dwFinish_tiles j, s.dwFinish_jobs j⟩
  · have captures : s.dwCaptures = true := by unfold State.dwCaptures bit; rw [armed, free]; rfl
    exact ⟨(s.dwFinish_embed j).trans (if_pos captures), by rw [s.dwFinish_captured j, captures, Bool.or_true], s.dwFinish_flag j captures⟩
  · have captures : s.dwCaptures = false := by unfold State.dwCaptures bit; obtain h | h := shut <;> rw [h] <;> simp only [Bool.false_and, Bool.not_true, Bool.and_false]
    exact ⟨(s.dwFinish_embed j).trans (if_neg (by rw [captures]; decide)), by rw [s.dwFinish_captured j, captures, Bool.or_false]⟩
  · have out := s.dwFinish_out j k
    intro o cls hyst
    change u.dw.out[k] = o.driven cls u.dw.det hyst at out
    rw [out]
    exact ⟨fun none_ => by rw [none_]; exact o.driven_off _ _, fun low high => o.driven_class cls u.dw.det hyst low high, fun high => o.driven_gesture cls u.dw.det hyst high⟩

/-- Settles O48: each command by its own branches; the outputs follow from one change of each in turn, none of which touches another output. -/
theorem dunewatchResults : Obligations.DunewatchResults := by
  unfold Obligations.DunewatchResults
  intro s stream st width height luma damaged on t v tame old src xy step sx sy heard good x due pixel
  refine ⟨fun absent => ⟨exec_dwEnable_absent s t absent, exec_dwDisable_absent s t absent, exec_dwFreeze_absent s on absent, exec_dwFeedGo_absent s t absent⟩, fun fitted => ⟨exec_dwEnable_on s t fitted, ?off, ?disable, exec_dwFreeze_same s fitted, ?freeze, exec_dwFeedGo_refused s t fitted, ?feed⟩,
    exec_dwFrame_unheard s t, exec_dwFrame_bad s t, ?early, ?taken, exec_dwInferenceDone_none s t, ?done, ?_⟩
  case off =>
    refine fun off => ⟨⟨_, exec_dwEnable_off s t fitted off, ?_, rfl, rfl, rfl, rfl, rfl, rfl, ?_, fun k => ?_, fun a other => ?_, (s.tame_at t).touched rfl⟩, exec_dwDisable_off s t fitted off⟩
    · exact State.dwEnabled_dwOn _ ((s.at_optD t).trans fitted)
    · exact (congrArg Dw.embed (s.at_dw t) :)
    · exact Vector.getElem_replicate _
    · exact (State.dwEnabled_reg _ a other).trans (s.at_reg t a)
  case disable =>
    intro on_
    have exec_ := exec_dwDisable_on s t on_
    obtain ⟨off, job, prev, hist, low, tiles, jobs, sentinel⟩ := (s.at t).dwDisable_results _ rfl
    rw [State.at_replaying, State.at_dw] at sentinel
    exact ⟨_, exec_, off, job, prev, hist, low, tiles.trans (s.tame_at t).1, jobs.trans (s.tame_at t).2.1, (execDwDisable_keeps t s).next exec_, sentinel⟩
  case freeze =>
    intro other
    exact ⟨_, exec_dwFreeze_other s fitted other, (s.dwFrozen_bit on 1).trans (if_pos rfl), s.dwFrozen_dwOn on, rfl, rfl, s.dwFrozen_reg on, State.Tame.touched (u := s) ⟨rfl, rfl, rfl, rfl, rfl⟩ rfl⟩
  case feed =>
    intro on_ host free
    refine ⟨_, exec_dwFeedGo_taken s t on_ host free, ?_, ?_, ?_, (s.tame_at t).touched rfl⟩
    · exact ((s.at t).dwTake_counted _).trans (by rw [State.at_reg])
    · exact (congrArg (fun d : Dw => (d.seq + 1) % 2 ^ 32) (s.at_dw t) :)
    · exact (congrArg (fun d : Dw => some ({ image := (d.feed.bytes 0 4800).map BitVec.toNat, stamp := 0, feed := true, bankAt := v.time.now } : DwJob)) (s.at_dw t) :)
  case early =>
    intro hears covers early
    have exec_ := (exec_dwFrame_good (luma := luma) s t hears covers).trans (congrArg Host.Outcome.next (if_pos (show (!due) = true by rw [early]; rfl)))
    exact ⟨_, exec_, (s.at t).dwSettle_job, rfl, rfl, rfl, rfl, (execDwFrame_keeps stream st width height luma damaged t s).next exec_⟩
  case taken =>
    intro hears covers late
    have exec_ := (exec_dwFrame_good (luma := luma) s t hears covers).trans (congrArg Host.Outcome.next (if_neg (show ¬ (!due) = true by rw [late]; decide)))
    exact ⟨_, _, exec_, rfl, rfl, rfl, length_decimate _ _ _ _ _ _, decimate_getD _ _ _ _ _ _, rfl, rfl, rfl, State.dwTake_counted _ _, rfl, (execDwFrame_keeps stream st width height luma damaged t s).next exec_⟩
  case done =>
    intro j open_ bank f hist scores top
    have exec_ := exec_dwInferenceDone_some s j t open_
    have results := (s.at t).dwFinish_results j
    rw [State.at_eq] at results exec_
    obtain ⟨job, prev, history, top_, small, most, first, det, score, armed, shut, outs, tiles, jobs⟩ := results
    exact ⟨_, exec_, job, prev, history, top_, small, most, first, det, score, armed, shut, outs, tiles, jobs, (execDwInferenceDone_keeps t s).next exec_⟩
  case _ =>
    intro lost
    refine ⟨exec_dwSourceLost_not s t, fun gone => ?_⟩
    have exec_ := exec_dwSourceLost_gone s t gone
    obtain ⟨lost_, hist, prev, flag, tiles, jobs, outs⟩ := (s.at t).dwLost_results _ rfl
    simp only [State.at_dwWord, State.at_dw] at outs
    exact ⟨_, exec_, lost_, hist, prev, flag, tiles.trans (s.tame_at t).1, jobs.trans (s.tame_at t).2.1, (execDwSourceLost_keeps t s).next exec_, outs⟩

end Sys2Proof.Machine
end

section
/-! SUPPORT. What a fault leaves, and the log writers: how a record enters a ring, leaves the reorder region and reaches the host (21 R560 to R563, R567, R585, R587), for obligation O49. -/

namespace Sys2Proof.Machine

/-! ### Faults -/

variable (s : State)

theorem State.signal_logs (v : Nat) : (s.signal v).logs = s.logs := by
  unfold State.signal
  dsimp only
  split_ifs <;> rfl

/-- A record leaves the log writers and SAFE. -/
theorem State.makeRecord_writer_safe (die sev : Nat) (key : Option Key) (bytes : List Byte) :
    (s.makeRecord die sev key bytes).logs.writer = s.logs.writer ∧ (s.makeRecord die sev key bytes).logs.safe = s.logs.safe := by
  have sent (irq : Bool) : (s.recordSent die key bytes irq).logs.writer = s.logs.writer ∧ (s.recordSent die key bytes irq).logs.safe = s.logs.safe := ⟨rfl, rfl⟩
  have stored (u : State) : (u.recordStored bytes).logs.writer = u.logs.writer ∧ (u.recordStored bytes).logs.safe = u.logs.safe := ⟨rfl, rfl⟩
  rw [State.makeRecord_eq]
  dsimp only
  split_ifs <;> simp only [State.signal_logs, stored, sent, and_self]

/-- A fault leaves the log writers. -/
theorem State.fault_writer (die : Nat) (key : Option Key) (f : FaultInfo) : (s.fault die key f).logs.writer = s.logs.writer := by
  have seen (l : Logs) (bytes : List Byte) : ((State.makeRecord { s with logs := l } die f.sev key bytes).faultSeen f.sev).logs.writer = l.writer := by
    rw [State.faultSeen_logs]
    exact (State.makeRecord_writer_safe _ _ _ _ _).1
  have safe (u : State) : u.enterSafe.logs.writer = u.logs.writer := by
    unfold State.enterSafe
    dsimp only
    split_ifs <;> [rw [State.enterLimpAll_logs]; rfl; rfl]
  unfold State.fault
  dsimp only
  split
  · rw [safe, seen]
  · exact seen _ _

theorem State.faultThrottled_writer (clear : Bool) (die : Nat) (f : FaultInfo) : (s.faultThrottled clear die f).logs.writer = s.logs.writer := by
  unfold State.faultThrottled
  split
  · exact s.fault_writer _ _ _
  · rw [State.faultSeen_logs]

/-- SAFE touches no register word of the module (R585). -/
theorem State.enterSafe_reg (a : Nat) : s.enterSafe.reg a = s.reg a := by
  have limp (u : State) : u.enterLimpAll.reg a = u.reg a :=
    State.foldl_preserves (fun u : State => u.reg a) _ (fun u p => by unfold State.sendReg; split <;> [split; skip] <;> rfl) _ u
  unfold State.enterSafe
  dsimp only
  split_ifs <;> [rw [limp]; skip; skip] <;> rfl

/-- The words of the status flags, their counters and the fault store's next slot are the only ones that a fault changes. -/
def faultWord (a : Nat) : Bool := decide (a = 0x5000 ∨ a = 0x5004 ∨ a = 0x5010)

variable {a : Nat} (other : faultWord a = false)
include other

theorem State.faultFlag_reg (b : Nat) (small : b < 4) : (s.faultFlag b).reg a = s.reg a := by
  have ne := of_decide_eq_false other
  unfold State.faultFlag
  rw [State.countByte_reg_ne _ _ _ _ (by omega), State.setFlag_reg_ne _ _ _ _ (by omega)]

theorem State.faultSeen_reg (sev : Nat) (known : sev < 5) : (s.faultSeen sev).reg a = s.reg a := by
  unfold State.faultSeen
  split
  · rfl
  · exact s.faultFlag_reg other _ (by omega)

theorem State.fault_reg (die : Nat) (key : Option Key) (f : FaultInfo) (known : f.sev < 5) : (s.fault die key f).reg a = s.reg a := by
  have seen (l : Logs) (bytes : List Byte) : ((State.makeRecord { s with logs := l } die f.sev key bytes).faultSeen f.sev).reg a = s.reg a := by
    rw [State.faultSeen_reg _ other _ known, State.makeRecord_reg _ _ _ _ _ _ (fun e => of_decide_eq_false other (.inr (.inr e)))]
    rfl
  unfold State.fault
  dsimp only
  split
  · rw [State.enterSafe_reg, seen]
  · exact seen _ _

theorem State.faultThrottled_reg (clear : Bool) (die : Nat) (f : FaultInfo) (known : f.sev < 5) : (s.faultThrottled clear die f).reg a = s.reg a := by
  unfold State.faultThrottled
  split
  · exact s.fault_reg other _ _ _ known
  · exact s.faultSeen_reg other _ known

omit other

/-! ### Entries that go, and what stays (R561) -/

/-- Bytes of a run of entries. -/
def ringSize (l : List LogEntry) : Nat := (l.map fun e => entryLen e.bytes).sum

theorem foldl_lengths {α : Type} (len : α → Nat) (l : List α) (n : Nat) : l.foldl (fun n x => n + len x) n = (l.map len).sum + n := by
  induction l generalizing n with
  | nil => exact (Nat.zero_add n).symm
  | cons x l ih =>
    rw [List.foldl_cons, ih, List.map_cons, List.sum_cons]
    omega

/-- The oldest entries go until the rest leaves room, and no more of them. -/
theorem makeRoom_spec (cap need : Nat) (fits : need ≤ cap) (ring : List LogEntry) : ∃ lost, ring = lost ++ makeRoom cap need ring ∧ ringSize (makeRoom cap need ring) + need ≤ cap ∧
    ∀ e rest, lost = rest ++ [e] → cap < ringSize (e :: makeRoom cap need ring) + need := by
  induction ring with
  | nil => exact ⟨[], rfl, by rw [makeRoom, ringSize, List.map_nil, List.sum_nil]; omega, fun e rest h => by simp at h⟩
  | cons x ring ih =>
    obtain ⟨lost, all, room, last⟩ := ih
    rw [makeRoom, foldl_lengths fun x : LogEntry => entryLen x.bytes]
    split
    · next enough => exact ⟨[], rfl, enough, fun e rest h => by simp at h⟩
    · next over_ =>
      refine ⟨x :: lost, congrArg (x :: ·) all, room, fun e rest h => ?_⟩
      cases rest with
      | nil =>
        obtain ⟨rfl, none_⟩ := List.cons.inj h
        subst none_
        rw [List.nil_append] at all
        rw [← all]
        exact Nat.lt_of_not_le over_
      | cons y rest => exact last e rest (List.cons.inj h).2

/-! ### A record that enters the ring (R561, R562) -/

variable (die : Nat)

theorem getD_setIfInBounds_two_same {α : Type} (v : Vector α 2) (k : Nat) (x d : α) (h : k < 2) : (v.setIfInBounds k x).toList.getD k d = x := by
  simp [List.getD_eq_getElem?_getD, h]

theorem getD_setIfInBounds_two_ne {α : Type} (v : Vector α 2) (k n : Nat) (x d : α) (ne : n ≠ k) : (v.setIfInBounds k x).toList.getD n d = v.toList.getD n d := by
  simp [List.getD_eq_getElem?_getD, ne.symm]

theorem State.setWriter_writer (w : LogWriter) (h : die < 2) : (s.setWriter die w).writer die = w := getD_setIfInBounds_two_same _ _ _ _ h
theorem State.setWriter_writer_ne (w : LogWriter) (e : Nat) (ne : e ≠ die) : (s.setWriter die w).writer e = s.writer e := getD_setIfInBounds_two_ne _ _ _ _ _ ne

/-- `u` is `s` but for what a report touches, with the other dies' log writers and all log areas as they were. -/
structure State.LogsOnly (die : Nat) (s u : State) : Prop where
  report : s.Reported u
  writer : ∀ e, e ≠ die → u.writer e = s.writer e
  area : ∀ j < 2, u.logArea j = s.logArea j

variable {die} {s}

theorem State.LogsOnly.trans {u w : State} (h : State.LogsOnly die s u) (h' : State.LogsOnly die u w) : State.LogsOnly die s w :=
  ⟨h.report.trans h'.report, fun e ne => (h'.writer e ne).trans (h.writer e ne), fun j small => (h'.area j small).trans (h.area j small)⟩

theorem State.logArea_of_reg {u : State} (same : ∀ a, faultWord a = false → a ≠ 0x5074 → u.reg a = s.reg a) (j : Nat) (small : j < 2) : u.logArea j = s.logArea j := by
  unfold State.logArea
  rw [same 0x5030 (by decide) (by decide), same (0x5024 + 8 * j) (decide_eq_false (by omega)) (by omega)]

variable (die) (s)

theorem State.setWriter_logsOnly (w : LogWriter) : State.LogsOnly die s (s.setWriter die w) :=
  ⟨rfl, fun e ne => s.setWriter_writer_ne die w e ne, fun _ _ => rfl⟩

theorem State.count32_logs (a k : Nat) : (s.count32 a k).logs = s.logs := rfl

theorem State.logLost_writer (n e : Nat) : (s.logLost die n).writer e = s.writer e := by
  unfold State.logLost
  split
  · rfl
  · unfold State.writer
    dsimp only
    rw [State.faultThrottled_writer, State.faultFlag_logs, State.count32_logs]

theorem State.logLost_logsOnly (n : Nat) : State.LogsOnly die s (s.logLost die n) := by
  refine ⟨?_, fun e _ => s.logLost_writer die n e, State.logArea_of_reg fun a other ne => ?_⟩
  · unfold State.logLost
    exact .ite (.refl s) (((s.reported_count32 _ _).trans (State.reported_faultFlag _ _)).trans (State.reported_faultThrottled _ _ _ _))
  · unfold State.logLost
    split
    · rfl
    · dsimp only
      rw [State.faultThrottled_reg _ other _ _ _ (show (2 : Nat) < 5 by decide), State.faultFlag_reg _ other _ (by decide), State.count32_reg_ne _ _ _ _ ne]

/-- The ring once a record has entered it: the entry behind those that stay. -/
def LogWriter.entered (w : LogWriter) (cap : Nat) (r : LogRec) (early : Bool) : LogWriter :=
  let ring := makeRoom cap (entryLen r.bytes) w.ring
  { w with
    ring := ring ++ [{ seq := w.seq, keyed := r.key.isSome, early, lostBefore := w.lostBefore || decide (0 < w.ring.length - ring.length), bytes := r.bytes, irq := r.irq }]
    seq := (w.seq + 1) % 2 ^ 64, lostBefore := false }

variable (r : LogRec) (early : Bool)

theorem State.logEntry_refused (large : s.logRing die < entryLen r.bytes) :
    s.logEntry die r early = (s.setWriter die { s.writer die with lostBefore := true }).count32 0x5074 1 := if_pos large

theorem State.logEntry_entered (fits : entryLen r.bytes ≤ s.logRing die) :
    s.logEntry die r early = (s.setWriter die ((s.writer die).entered (s.logRing die) r early)).logLost die
      ((s.writer die).ring.length - (makeRoom (s.logRing die) (entryLen r.bytes) (s.writer die).ring).length) := if_neg (Nat.not_lt.mpr fits)

theorem State.logEntry_logsOnly : State.LogsOnly die s (s.logEntry die r early) := by
  by_cases large : s.logRing die < entryLen r.bytes
  · rw [s.logEntry_refused die r early large]
    exact (s.setWriter_logsOnly die _).trans ⟨State.reported_count32 _ _ _, fun _ _ => rfl, State.logArea_of_reg fun a _ ne => State.count32_reg_ne _ _ _ _ ne⟩
  · rw [s.logEntry_entered die r early (Nat.not_lt.mp large)]
    exact (s.setWriter_logsOnly die _).trans (State.logLost_logsOnly _ die _)

theorem State.logEntry_reorder (h : die < 2) : ((s.logEntry die r early).writer die).reorder = (s.writer die).reorder := by
  by_cases large : s.logRing die < entryLen r.bytes
  · rw [s.logEntry_refused die r early large]
    exact (congrArg LogWriter.reorder (s.setWriter_writer die { s.writer die with lostBefore := true } h) :)
  · rw [s.logEntry_entered die r early (Nat.not_lt.mp large), State.logLost_writer, State.setWriter_writer _ _ _ h]
    rfl

/-- What R562 says of an entry that has entered behind `kept`. -/
def LogWriter.Entered (w w' : LogWriter) (r : LogRec) (early : Bool) (kept : List LogEntry) : Prop :=
  ∃ e, w'.ring = kept ++ [e] ∧ e.seq = w.seq ∧ e.bytes = r.bytes ∧ e.keyed = r.key.isSome ∧ e.early = early ∧
    e.lostBefore = (w.lostBefore || decide (kept.length < w.ring.length)) ∧ w'.seq = (w.seq + 1) % 2 ^ 64 ∧ w'.lostBefore = false

/-- A record that fits enters: the oldest entries that are in its way go, and it says so. -/
theorem State.logEntry_spec (h : die < 2) (fits : entryLen r.bytes ≤ s.logRing die) : ∃ kept lost, (s.writer die).ring = lost ++ kept ∧ ringSize kept + entryLen r.bytes ≤ s.logRing die ∧
    (∀ e rest, lost = rest ++ [e] → s.logRing die < ringSize (e :: kept) + entryLen r.bytes) ∧ (s.writer die).Entered ((s.logEntry die r early).writer die) r early kept := by
  obtain ⟨lost, all, room, last⟩ := makeRoom_spec (s.logRing die) (entryLen r.bytes) fits (s.writer die).ring
  refine ⟨_, lost, all, room, last, ?_⟩
  rw [s.logEntry_entered die r early fits, State.logLost_writer, State.setWriter_writer _ _ _ h]
  exact ⟨_, rfl, rfl, rfl, rfl, rfl, congrArg (_ || ·) (decide_eq_decide.mpr Nat.sub_pos_iff_lt), rfl, rfl⟩

/-- One that does not fit is lost (log 47). -/
theorem State.logEntry_lost (h : die < 2) (large : s.logRing die < entryLen r.bytes) :
    let u := s.logEntry die r early
    (u.writer die).ring = (s.writer die).ring ∧ (u.writer die).lostBefore = true ∧ (u.writer die).seq = (s.writer die).seq ∧ (u.reg 0x5074).toNat = min 0xFFFFFFFF ((s.reg 0x5074).toNat + 1) := by
  have counted : ((s.setWriter die { s.writer die with lostBefore := true }).count32 0x5074 1).reg 0x5074 = BitVec.ofNat 32 (satAdd 0xFFFFFFFF (s.reg 0x5074).toNat 1) := State.reg_setReg_same _ _ _
  have held (w : LogWriter) : ((s.setWriter die w).count32 0x5074 1).writer die = w := s.setWriter_writer die w h
  dsimp only
  rw [s.logEntry_refused die r early large, held, counted, BitVec.toNat_ofNat, satAdd]
  exact ⟨rfl, rfl, rfl, Nat.mod_eq_of_lt (by omega)⟩

/-! ### The reorder region (R560) -/

/-- Bytes that records take as entries. -/
def recSize (l : List LogRec) : Nat := (l.map fun x => entryLen x.bytes).sum

theorem State.logEarly_fits (l : List LogRec) (fits : recSize l ≤ s.logRegion die) : s.logEarly die l = s.setWriter die { s.writer die with reorder := l } := by
  cases l with
  | nil => rfl
  | cons r rest =>
    rw [State.logEarly, foldl_lengths fun x : LogRec => entryLen x.bytes]
    exact if_pos fits

/-- The smallest-keyed records leave until the region holds the rest; nothing else changes. -/
theorem State.logEarly_spec (h : die < 2) (l : List LogRec) (s : State) :
    State.LogsOnly die s (s.logEarly die l) ∧ ∃ gone, l = gone ++ ((s.logEarly die l).writer die).reorder ∧ recSize ((s.logEarly die l).writer die).reorder ≤ s.logRegion die := by
  by_cases fits : recSize l ≤ s.logRegion die
  · rw [s.logEarly_fits die l fits, s.setWriter_writer die _ h]
    exact ⟨s.setWriter_logsOnly die _, [], rfl, fits⟩
  · induction l generalizing s with
    | nil => exact absurd (Nat.zero_le _) fits
    | cons r rest ih =>
      have step : s.logEarly die (r :: rest) = (s.logEntry die r true).logEarly die rest := by
        rw [State.logEarly, foldl_lengths fun x : LogRec => entryLen x.bytes]
        exact if_neg fits
      have only := s.logEntry_logsOnly die r true
      have region : (s.logEntry die r true).logRegion die = s.logRegion die := congrArg (· / 8) (only.area die h)
      rw [step]
      by_cases enough : recSize rest ≤ (s.logEntry die r true).logRegion die
      · rw [State.logEarly_fits _ die rest enough, State.setWriter_writer _ die _ h]
        exact ⟨only.trans (State.setWriter_logsOnly _ die _), [r], rfl, region ▸ enough⟩
      · obtain ⟨only', gone, all, room⟩ := ih _ enough
        exact ⟨only.trans only', r :: gone, congrArg (r :: ·) all, region ▸ room⟩

end Sys2Proof.Machine
end

section
/-! SUPPORT. The commands of the log writers and of the host ring (21 R560 to R563), for obligation O49. -/

namespace Sys2Proof.Machine

variable (s : State) (die : Fin 2)

/-- What a log command leaves: the other writer, tiles, jobs and the reservoir. -/
def State.LogOthers (s u : State) (die : Fin 2) : Prop :=
  (∀ e : Fin 2, e ≠ die → u.writer e = s.writer e) ∧ u.tiles = s.tiles ∧ u.jobs = s.jobs ∧ u.resv = s.resv

theorem State.LogsOnly.others {s u : State} {die : Fin 2} (h : State.LogsOnly die s u) : s.LogOthers u die :=
  ⟨fun e ne => h.writer e fun same => ne (Fin.ext same), h.report.tiles, h.report.jobs, h.report.resv⟩

/-! ### LOG_RECORD_ARRIVE -/

/-- The records on their way, without the die's first. -/
def State.outgone (s : State) (die : Nat) : State := { s with logs := { s.logs with made := dropFirst (fun r => decide (r.die = die)) s.logs.made } }

theorem dropFirst_length {α : Type} (p : α → Bool) (l : List α) (x : α) (found : l.find? p = some x) : (dropFirst p l).length + 1 = l.length := by
  induction l with
  | nil => cases found
  | cons y l ih =>
    rw [dropFirst]
    cases holds : p y with
    | true => rfl
    | false =>
      rw [List.find?_cons_of_neg (by rw [holds]; decide)] at found
      exact congrArg (· + 1) (ih found)

variable {s} {die} {r : LogRec}

theorem exec_logRecordArrive_none (first : s.logs.made.find? (fun r => decide (r.die = die.val)) = none) : exec (.logRecordArrive die) s = .next s := by
  show execLogRecordArrive die s = _
  unfold execLogRecordArrive
  rw [first]

/-- The first record of the die goes where it belongs. -/
def State.recordArrives (s : State) (die : Nat) (r : LogRec) : State :=
  let u := s.outgone die
  if !u.mesaLive die ∨ u.logShut then u
  else if r.key.isNone then u.logEntry die r false
  else u.logEarly die (insertBy LogRec.order r (u.writer die).reorder)

theorem exec_logRecordArrive_some (first : s.logs.made.find? (fun r => decide (r.die = die.val)) = some r) :
    exec (.logRecordArrive die) s = .next (s.recordArrives die r) := by
  show execLogRecordArrive die s = _
  unfold execLogRecordArrive
  rw [first]
  rfl

theorem State.outgone_logsOnly (d : Nat) : State.LogsOnly d s (s.outgone d) := ⟨rfl, fun _ _ => rfl, fun _ _ => rfl⟩

theorem State.recordArrives_shut (shut : s.mesaLive die = false ∨ s.logShut = true) : s.recordArrives die r = s.outgone die :=
  if_pos (shut.imp (fun h => (congrArg not h :)) id)

theorem State.outgone_runs (live : s.mesaLive die = true) (open_ : s.logShut = false) : ¬ ((!(s.outgone die).mesaLive die) = true ∨ (s.outgone die).logShut = true) := by
  have live' : (s.outgone die).mesaLive die = true := live
  have open' : (s.outgone die).logShut = false := open_
  rw [live', open']
  decide

theorem State.recordArrives_plain (live : s.mesaLive die = true) (open_ : s.logShut = false) (plain : r.key = none) :
    s.recordArrives die r = (s.outgone die).logEntry die r false :=
  (if_neg (State.outgone_runs live open_)).trans (if_pos (by rw [plain]; rfl))

theorem State.recordArrives_keyed (live : s.mesaLive die = true) (open_ : s.logShut = false) (keyed : r.key ≠ none) :
    s.recordArrives die r = (s.outgone die).logEarly die (insertBy LogRec.order r (s.writer die).reorder) :=
  (if_neg (State.outgone_runs live open_)).trans (if_neg (by rw [Option.isNone_iff_eq_none]; exact keyed))

theorem State.recordArrives_logsOnly : State.LogsOnly die s (s.recordArrives die r) := by
  have outgone := s.outgone_logsOnly die
  unfold State.recordArrives
  dsimp only
  split_ifs
  · exact outgone
  · exact outgone.trans (State.logEntry_logsOnly _ _ _ _)
  · exact outgone.trans (State.logEarly_spec _ die.isLt _ _).1

/-! ### LOG_KEYED_RELEASE -/

theorem exec_logKeyedRelease_none (frontier : Key) (empty : (s.writer die).reorder = []) : exec (.logKeyedRelease die frontier) s = .next s := by
  show execLogKeyedRelease die frontier s = _
  unfold execLogKeyedRelease
  dsimp only
  rw [empty]

theorem exec_logKeyedRelease_some {rest : List LogRec} (frontier : Key) (held : (s.writer die).reorder = r :: rest) :
    exec (.logKeyedRelease die frontier) s =
      .next (if !s.mesaLive die ∨ frontier.toNat ≤ r.order then s else (s.setWriter die { s.writer die with reorder := rest }).logEntry die r false) := by
  show execLogKeyedRelease die frontier s = _
  unfold execLogKeyedRelease
  dsimp only
  rw [held]

/-! ### LOG_HOST_COPY -/

/-- The host ring takes entries. -/
def State.hostReady (s : State) (die : Nat) : Prop := s.mesaLive die = true ∧ s.dmaOk = true ∧ (s.reg 0x5030).getLsbD 2 = true ∧ (s.reg 0x5068).toNat ≠ 0

theorem State.hostReady_iff : (!s.mesaLive die ∨ !s.dmaOk ∨ !bit (s.reg 0x5030) 2 ∨ (s.reg 0x5068).toNat = 0) ↔ ¬ s.hostReady die := by
  unfold State.hostReady bit
  simp only [Bool.not_eq_true', not_and_or, Bool.not_eq_true, ne_eq, not_not]

/-- An entry of the die in the host ring, behind a filler of `fill` bytes. -/
def State.copied (s : State) (die fill : Nat) (e : LogEntry) (rest : List LogEntry) : State :=
  let tail := (s.reg 0x5070).toNat
  let base := s.getPair 0x5060
  let u := if fill = 0 then s else s.hostWrite (base + tail) (fillerEntry fill)
  let at0 := if fill = 0 then tail else 0
  let u := (u.hostWrite (base + at0) (e.image die)).setWriter die { s.writer die with ring := rest }
  let u := u.setReg 0x5070 (BitVec.ofNat 32 ((at0 + entryLen e.bytes) % (s.reg 0x5068).toNat))
  if e.irq then u.signal (fld (u.reg 0x5008) 10 0) else u

theorem exec_logHostCopy_idle (idle : (s.writer die).ring = [] ∨ ¬ s.hostReady die) : exec (.logHostCopy die) s = .next s := by
  show execLogHostCopy die s = _
  unfold execLogHostCopy
  dsimp only
  cases ring : (s.writer die).ring with
  | nil => rfl
  | cons e rest => exact congrArg Host.Outcome.next (if_pos (State.hostReady_iff.mpr (idle.resolve_left (by rw [ring]; exact List.cons_ne_nil e rest))))

theorem exec_logHostCopy_ready {e : LogEntry} {rest : List LogEntry} (ring : (s.writer die).ring = e :: rest) (ready : s.hostReady die) :
    let bytes := (s.reg 0x5068).toNat
    let tail := (s.reg 0x5070).toNat
    let free := if (s.reg 0x506C).toNat = tail then bytes else ((s.reg 0x506C).toNat + bytes - tail) % bytes
    let fill := if tail + entryLen e.bytes > bytes then bytes - tail else 0
    exec (.logHostCopy die) s = .next (if free < fill + entryLen e.bytes then s else s.copied die fill e rest) := by
  show execLogHostCopy die s = _
  unfold execLogHostCopy
  dsimp only
  rw [ring]
  exact congrArg Host.Outcome.next (if_neg fun no => State.hostReady_iff.mp no ready)

theorem State.writer_signal (v e : Nat) : (s.signal v).writer e = s.writer e := by unfold State.writer; rw [State.signal_logs]

theorem signal_writes (v : Nat) : (s.signal v).link.writes = s.link.writes := by
  unfold State.signal
  dsimp only
  split_ifs <;> rfl

/-- `x` has the die's ring at `rest`, some more writes to the host and a tail; the other writer, tiles, jobs and the reservoir are those of `s`. -/
def State.CopiedAs (s x : State) (die : Fin 2) (rest : List LogEntry) (writes : List (Nat × List Byte)) (tail : Word) : Prop :=
  x.writer die = { s.writer die with ring := rest } ∧ s.LogOthers x die ∧ x.link.writes = s.link.writes ++ writes ∧ x.reg 0x5070 = tail

theorem State.CopiedAs.signal {x : State} {rest : List LogEntry} {writes : List (Nat × List Byte)} {tail : Word} (h : s.CopiedAs x die rest writes tail) (b : Bool) (v : Nat) :
    s.CopiedAs (if b then x.signal v else x) die rest writes tail := by
  obtain ⟨writer, ⟨others, tiles, jobs, resv⟩, sent, word⟩ := h
  have report := x.reported_signal v
  cases b with
  | false => exact ⟨writer, ⟨others, tiles, jobs, resv⟩, sent, word⟩
  | true => exact ⟨(State.writer_signal v die).trans writer, ⟨fun e ne => (State.writer_signal v e).trans (others e ne), report.tiles.trans tiles, report.jobs.trans jobs, report.resv.trans resv⟩,
      (signal_writes v).trans sent, (x.signal_reg v _).trans word⟩

/-- What has gone to the host, then the ring and its tail. -/
theorem State.copiedAs_of_writes (x : State) (same : { x with link := s.link } = s) (rest : List LogEntry) (writes : List (Nat × List Byte)) (sent : x.link.writes = s.link.writes ++ writes) (tail : Word) :
    s.CopiedAs ((x.setWriter die { s.writer die with ring := rest }).setReg 0x5070 tail) die rest writes tail := by
  have logs : x.logs = s.logs := (congrArg State.logs same :)
  refine ⟨State.setWriter_writer _ die _ die.isLt, ⟨fun n ne => ?_, (congrArg State.tiles same :), (congrArg State.jobs same :), (congrArg State.resv same :)⟩, sent, State.reg_setReg_same _ _ _⟩
  refine (State.setWriter_writer_ne x die _ n fun same => ne (Fin.ext same)).trans ?_
  unfold State.writer
  rw [logs]

theorem State.CopiedAs.shape {x : State} {rest : List LogEntry} {writes : List (Nat × List Byte)} {tail : Word} (h : s.CopiedAs x die rest writes tail) :
    (x.writer die).ring = rest ∧ (x.writer die).seq = (s.writer die).seq ∧ s.LogOthers x die :=
  ⟨(congrArg LogWriter.ring h.1 :), (congrArg LogWriter.seq h.1 :), h.2.1⟩

/-- An entry in the host ring, with and without a filler. -/
theorem State.copied_results (fill : Nat) (e : LogEntry) (rest : List LogEntry) :
    let base := s.getPair 0x5060
    let tail := (s.reg 0x5070).toNat
    let bytes := (s.reg 0x5068).toNat
    let u := s.copied die fill e rest
    (fill = 0 → s.CopiedAs u die rest [(base + tail, e.image die)] (BitVec.ofNat 32 ((tail + entryLen e.bytes) % bytes))) ∧
      (fill ≠ 0 → s.CopiedAs u die rest [(base + tail, fillerEntry fill), (base, e.image die)] (BitVec.ofNat 32 (entryLen e.bytes % bytes))) := by
  dsimp only
  refine ⟨fun none_ => ?_, fun some_ => ?_⟩
  · unfold State.copied
    dsimp only
    rw [if_pos none_, if_pos none_]
    exact (State.copiedAs_of_writes (s.hostWrite _ _) rfl rest _ rfl _).signal _ _
  · unfold State.copied
    dsimp only
    rw [if_neg some_, if_neg some_, Nat.zero_add, Nat.add_zero]
    exact (State.copiedAs_of_writes ((s.hostWrite _ _).hostWrite _ _) rfl rest _ (List.append_assoc _ _ _) _).signal _ _

/-! ### The obligation's parts -/

/-- LOG_RECORD_ARRIVE, by where the record goes. -/
theorem State.recordArrives_results (first : s.logs.made.find? (fun r => decide (r.die = die.val)) = some r) :
    let u := s.recordArrives die r
    let w := s.writer die
    let l := insertBy LogRec.order r w.reorder
    (s.mesaLive die = false ∨ s.logShut = true → u.writer die = w ∧ u.logs.made.length + 1 = s.logs.made.length) ∧
    (s.mesaLive die = true → s.logShut = false → r.key = none → entryLen r.bytes ≤ s.logRing die → ∃ kept lost, w.ring = lost ++ kept ∧ ringSize kept + entryLen r.bytes ≤ s.logRing die ∧
      (∀ e rest, lost = rest ++ [e] → s.logRing die < ringSize (e :: kept) + entryLen r.bytes) ∧ w.Entered (u.writer die) r false kept ∧ (u.writer die).reorder = w.reorder) ∧
    (s.mesaLive die = true → s.logShut = false → r.key = none → s.logRing die < entryLen r.bytes → (u.writer die).ring = w.ring ∧ (u.writer die).lostBefore = true ∧ (u.writer die).seq = w.seq ∧ (u.reg 0x5074).toNat = min 0xFFFFFFFF ((s.reg 0x5074).toNat + 1)) ∧
    (s.mesaLive die = true → s.logShut = false → r.key ≠ none →
      (recSize l ≤ s.logRegion die → (u.writer die).reorder = l ∧ (u.writer die).ring = w.ring ∧ u.logs.made.length + 1 = s.logs.made.length) ∧
      (∃ gone, l = gone ++ (u.writer die).reorder ∧ recSize (u.writer die).reorder ≤ s.logRegion die)) := by
  have less := dropFirst_length _ _ _ first
  refine ⟨fun shut => ?_, fun live open_ plain fits => ?_, fun live open_ plain large => ?_, fun live open_ keyed => ⟨fun fits => ?_, ?_⟩⟩
  · rw [State.recordArrives_shut shut]
    exact ⟨rfl, less⟩
  · rw [State.recordArrives_plain live open_ plain]
    obtain ⟨kept, lost, all, room, last, entered⟩ := (s.outgone die).logEntry_spec die r false die.isLt fits
    exact ⟨kept, lost, all, room, last, entered, (s.outgone die).logEntry_reorder die r false die.isLt⟩
  · rw [State.recordArrives_plain live open_ plain]
    exact (s.outgone die).logEntry_lost die r false die.isLt large
  · rw [State.recordArrives_keyed live open_ keyed, State.logEarly_fits (s.outgone die) die _ fits]
    have writer := (s.outgone die).setWriter_writer die { (s.outgone die).writer die with reorder := insertBy LogRec.order r (s.writer die).reorder } die.isLt
    exact ⟨(congrArg LogWriter.reorder writer :), (congrArg LogWriter.ring writer :), less⟩
  · rw [State.recordArrives_keyed live open_ keyed]
    exact (State.logEarly_spec die die.isLt _ (s.outgone die)).2

/-- The log writers' part of O49. -/
theorem logResults : Claims.LogResults := by
  intro s die frontier value w other first entered size
  refine ⟨exec_logRecordArrive_none, fun r found => ?arrive, exec_logKeyedRelease_none frontier, fun r rest held => ⟨fun waits => ?_, fun live due => ?release⟩, ?copy, ⟨_, rfl, s.reg_setReg_same _ _, fun a ne => s.reg_setReg_ne _ _ _ ne, rfl⟩⟩
  case arrive =>
    have exec_ := exec_logRecordArrive_some found
    obtain ⟨others, tiles, jobs, resv⟩ := (s.recordArrives_logsOnly (die := die) (r := r)).others
    exact ⟨_, exec_, ⟨others, tiles, jobs, resv, (execLogRecordArrive_keeps die s).next exec_⟩, State.recordArrives_results found⟩
  case _ => exact (exec_logKeyedRelease_some frontier held).trans (congrArg Host.Outcome.next (if_pos (waits.imp (fun h => by rw [h]; rfl) id)))
  case release =>
    have exec_ := (exec_logKeyedRelease_some frontier held).trans (congrArg Host.Outcome.next (if_neg (show ¬ ((!s.mesaLive die) = true ∨ frontier.toNat ≤ r.order) by
      rw [live]
      exact not_or.mpr ⟨by decide, Nat.not_le.mpr due⟩)))
    have writer := s.setWriter_writer die { s.writer die with reorder := rest } die.isLt
    obtain ⟨others, tiles, jobs, resv⟩ := ((s.setWriter_logsOnly die _).trans (State.logEntry_logsOnly _ die r false)).others
    refine ⟨_, exec_, ?_, ⟨others, tiles, jobs, resv, (execLogKeyedRelease_keeps die frontier s).next exec_⟩, fun fits => ?_⟩
    · rw [State.logEntry_reorder _ _ _ _ die.isLt, writer]
    · obtain ⟨kept, lost, all, room, -, entered⟩ := (s.setWriter die { s.writer die with reorder := rest }).logEntry_spec die r false die.isLt fits
      rw [writer] at all entered
      exact ⟨kept, lost, all, room, entered⟩
  case copy =>
    refine ⟨exec_logHostCopy_idle, fun e rest ring ready => ⟨fun full => ?_, fun fits => ?_⟩⟩
    · exact (exec_logHostCopy_ready ring ready).trans (congrArg Host.Outcome.next (if_pos full))
    · have exec_ := (exec_logHostCopy_ready ring ready).trans (congrArg Host.Outcome.next (if_neg (Nat.not_lt.mpr fits)))
      have kept := (execLogHostCopy_keeps die s).next exec_
      generalize (if (s.reg 0x5070).toNat + entryLen e.bytes > (s.reg 0x5068).toNat then (s.reg 0x5068).toNat - (s.reg 0x5070).toNat else 0) = fill at exec_ kept ⊢
      obtain ⟨plain, filled⟩ := State.copied_results (s := s) (die := die) fill e rest
      obtain ⟨ring', seq, others, tiles, jobs, resv⟩ := (em (fill = 0)).elim (fun none_ => (plain none_).shape) fun some_ => (filled some_).shape
      exact ⟨_, exec_, ring', seq, ⟨others, tiles, jobs, resv, kept⟩, fun none_ => (plain none_).2.2, fun some_ => (filled some_).2.2⟩

end Sys2Proof.Machine
end

section
/-! SUPPORT. Units that leave service: the jobs that stop, the slip they leave, and SAFE (21 R576, R578, R584, R585), for obligation O49. -/

namespace Sys2Proof.Machine

variable {s u w : State}

/-! ### What a stop and a lost party touch -/

/-- `u` is `s` but for register words, logs, the host link, ports, jobs, tiles, apply units, cycles and the slip; SAFE is as it was, and no record has gone. -/
structure State.Struck (s u : State) : Prop where
  frame : { u with regs := s.regs, logs := s.logs, link := s.link, ports := s.ports, jobs := s.jobs, tiles := s.tiles, apply := s.apply, cycles := s.cycles, slip := s.slip } = s
  safe : u.logs.safe = s.logs.safe
  made : s.logs.made.length ≤ u.logs.made.length

theorem State.Struck.refl (s : State) : s.Struck s := ⟨rfl, rfl, le_rfl⟩

theorem State.Struck.trans (h : s.Struck u) (h' : u.Struck w) : s.Struck w :=
  ⟨(congrArg (fun x : State => { x with regs := s.regs, logs := s.logs, link := s.link, ports := s.ports, jobs := s.jobs, tiles := s.tiles, apply := s.apply, cycles := s.cycles, slip := s.slip }) h'.frame :).trans h.frame,
    h'.safe.trans h.safe, h.made.trans h'.made⟩

/-- A change that leaves the logs. -/
theorem State.Struck.of_logs (frame : { u with regs := s.regs, link := s.link, ports := s.ports, jobs := s.jobs, tiles := s.tiles, apply := s.apply, cycles := s.cycles, slip := s.slip } = s) : s.Struck u :=
  have logs : u.logs = s.logs := (congrArg State.logs frame :)
  ⟨(congrArg (fun x : State => { x with logs := s.logs }) frame :), congrArg Logs.safe logs, (congrArg (fun l : Logs => l.made.length) logs).ge⟩

/-- A report that leaves the logs. -/
theorem State.Struck.of_report (report : s.Reported u) (logs : u.logs = s.logs) : s.Struck u :=
  ⟨(congrArg (fun x : State => { x with jobs := s.jobs, tiles := s.tiles, apply := s.apply, cycles := s.cycles, slip := s.slip }) report :), congrArg Logs.safe logs, (congrArg (fun l : Logs => l.made.length) logs).ge⟩

theorem State.Struck.foldl {α : Type} (f : State → α → State) (step : ∀ (s : State) a, s.Struck (f s a)) (l : List α) (s : State) : s.Struck (l.foldl f s) := by
  induction l generalizing s with
  | nil => exact .refl s
  | cons a l ih => exact (step s a).trans (ih (f s a))

theorem State.Struck.live (h : s.Struck u) : u.live = s.live := (congrArg State.live h.frame :)
theorem State.Struck.tileLive (h : s.Struck u) : u.tileLive = s.tileLive := (congrArg State.tileLive h.frame :)

variable (s)

theorem State.cairnFlags_struck (k : Nat) (bs : List Nat) : s.Struck (s.cairnFlags k bs) := by
  refine .foldl _ (fun u b => .of_report (u.reported_cairnFlag k b) ?_) bs s
  unfold State.cairnFlag
  split
  · rw [State.countByte_logs, State.setFlag_logs]
  · rw [State.setFlag_logs]

theorem State.dropBindings_struck (id : JobId) : s.Struck (s.dropBindings id) :=
  .foldl _ (fun u k => (State.Struck.of_logs (s := u) (u := u.setApply k ((u.applyUnit k).drop id).wakeWaiting.unit) rfl).trans (State.cairnFlags_struck _ k _)) _ s

theorem State.stopReports_struck (j : Job) (id : JobId) (reason : Nat) (key : Key) (detail unit : Nat) : s.Struck (s.stopReports j id reason key detail unit) := by
  have counted (bytes : List Byte) (k : Option Key) (void : Nat) : s.Struck ((s.makeRecord (s.jobDie j) 2 k bytes).countVoid void) := by
    have report := (s.reported_makeRecord (s.jobDie j) 2 k bytes).trans (State.reported_countVoid _ void)
    refine ⟨(congrArg (fun x : State => { x with jobs := s.jobs, tiles := s.tiles, apply := s.apply, cycles := s.cycles, slip := s.slip }) report :), ?_, ?_⟩
    · rw [State.countVoid_logs]
      exact (State.makeRecord_writer_safe _ _ _ _ _).2
    · rw [State.countVoid_logs, State.makeRecord_made]
      exact Nat.le_succ _
  unfold State.stopReports
  dsimp only
  split
  · exact (counted _ _ _).trans (.of_logs rfl)
  · exact counted _ _ _

theorem State.stopJob_struck (id : JobId) (reason : Nat) (key : Key) (detail unit : Nat) : s.Struck (s.stopJob id reason key detail unit) := by
  have ends (j : Job) : s.Struck (s.stopEnds j id reason key detail unit) := by
    have entry : s.Struck (s.modJob id fun j' => { j' with stopped := some reason, running := [], void := j.stopVoid reason }) := .of_logs rfl
    have freed (x : State) : x.Struck (x.freeTiles id) := .of_logs rfl
    have cycled (x : State) (l : List Cycle) : x.Struck { x with cycles := l } := .of_logs rfl
    exact (((entry.trans (State.stopReports_struck _ _ _ _ _ _ _)).trans (freed _)).trans (State.dropBindings_struck _ _)).trans (cycled _ _)
  have over_ (x : State) : x.Struck (x.hostJobOver id) :=
    .of_logs (congrArg (fun y : State => { y with regs := x.regs, ports := x.ports, jobs := x.jobs, tiles := x.tiles, apply := x.apply, cycles := x.cycles, slip := x.slip }) (x.hostJobOver_link id) :)
  cases here : s.job id with
  | none =>
    rw [s.stopJob_none here]
    exact .refl s
  | some j =>
    by_cases ended : j.isOver
    · rw [s.stopJob_over here ended]
      exact .refl s
    · rw [s.stopJob_active here ended]
      split
      · exact (ends j).trans (over_ _)
      · exact ends j

/-- An abort of the slip touches register words, the host link, ports and the slip. -/
theorem State.partyGone_frame (p : Party) : { s.partyGone p with regs := s.regs, link := s.link, ports := s.ports, slip := s.slip } = s := by
  have sent (c op : Nat) (x : State) : { x.sendSlip c op with ports := s.ports } = { x with ports := s.ports } := by
    unfold State.sendSlip
    dsimp only
    split <;> rfl
  have replied (x : State) (status reason : Nat) : { x.slipReply status reason with link := s.link } = { x with link := s.link } := by
    unfold State.slipReply
    split
    · rfl
    · exact (congrArg (fun y : State => { y with link := s.link }) (State.hpDone_link _ _ _ _ _) :)
  have frames : { s.slip.chips.foldl (fun s c => s.sendSlip c 3) s with ports := s.ports } = { s with ports := s.ports } :=
    State.foldl_preserves (fun x : State => { x with ports := s.ports }) _ (fun x c => sent c 3 x) _ s
  unfold State.partyGone State.slipAbort
  split
  · exact (congrArg (fun y : State => { y with regs := s.regs, ports := s.ports, slip := s.slip }) (replied _ _ _) :).trans (congrArg (fun y : State => { y with regs := s.regs, link := s.link, slip := s.slip }) frames :)
  · rfl

theorem State.partyGone_struck (p : Party) : s.Struck (s.partyGone p) := .of_logs (congrArg (fun x : State => { x with jobs := s.jobs, tiles := s.tiles, apply := s.apply, cycles := s.cycles }) (s.partyGone_frame p) :)
theorem State.partyGone_jobs (p : Party) : (s.partyGone p).jobs = s.jobs := (congrArg State.jobs (s.partyGone_frame p) :)

/-! ### The jobs that stop -/

variable {id : JobId} {j : Job}

theorem State.stopJob_job_other (id' : JobId) (reason : Nat) (key : Key) (detail unit : Nat) (other : id' ≠ id) : (s.stopJob id' reason key detail unit).job id = s.job id := by
  cases found : s.job id' with
  | none => rw [s.stopJob_none found]
  | some x =>
    by_cases ended : x.isOver
    · rw [s.stopJob_over found ended]
    · rw [State.job_of_jobs (s.stopJob_jobs found ended reason key detail unit)]
      exact s.modJob_other id' (fun j' => { j' with stopped := some reason, running := [], void := x.stopVoid reason }) (fun _ => rfl) other

theorem State.stopJob_mem_other (id' : JobId) (reason : Nat) (key : Key) (detail unit : Nat) (other : j.id ≠ id') (here : j ∈ s.jobs) : j ∈ (s.stopJob id' reason key detail unit).jobs := by
  cases found : s.job id' with
  | none => rwa [s.stopJob_none found]
  | some x =>
    by_cases ended : x.isOver
    · rwa [s.stopJob_over found ended]
    · rw [s.stopJob_jobs found ended reason key detail unit, State.modJob, mapIf]
      exact List.mem_map.mpr ⟨j, here, if_neg (by rw [decide_eq_true_eq]; exact other)⟩

/-- Stops, one job after the other. -/
def State.stopEach (s : State) (l : List Job) (reason unit : Nat) : State := l.foldl (fun s j => s.stopJob j.id reason 0 0 unit) s

theorem State.stopEach_stopped (l : List Job) (reason unit : Nat) (here : s.job id = some j) (over_ : j.stopped ≠ none) : (s.stopEach l reason unit).job id = some j := by
  induction l generalizing s with
  | nil => exact here
  | cons x l ih => exact ih _ (s.stopJob_stopped here over_ _ _ _ _ _)

/-- A job that runs and whose name is among those that stop has stopped. -/
theorem State.stopEach_job (l : List Job) (reason unit : Nat) (here : s.job id = some j) (runs : j.stopped = none) (tiles : j.running ≠ []) (named : ∃ x ∈ l, x.id = id) :
    ∃ j', (s.stopEach l reason unit).job id = some j' ∧ j'.stopped = some reason ∧ j'.running = [] := by
  induction l generalizing s with
  | nil => simp at named
  | cons x l ih =>
    by_cases same : x.id = id
    · have stop := s.stopJob_job here runs tiles reason 0 0 unit
      rw [← same] at stop ⊢
      exact ⟨_, State.stopEach_stopped _ l reason unit stop (by simp), rfl, rfl⟩
    · refine ih (s.stopJob x.id reason 0 0 unit) ((s.stopJob_job_other x.id reason 0 0 unit same).trans here) ?_
      obtain ⟨y, at_, name⟩ := named
      exact ⟨y, (List.mem_cons.mp at_).resolve_left fun e => same (e ▸ name), name⟩

/-- A job of another name stays. -/
theorem State.stopEach_mem (l : List Job) (reason unit : Nat) (here : j ∈ s.jobs) (others : ∀ x ∈ l, j.id ≠ x.id) : j ∈ (s.stopEach l reason unit).jobs := by
  induction l generalizing s with
  | nil => exact here
  | cons x l ih => exact ih _ (s.stopJob_mem_other x.id reason 0 0 unit (others x (.head l)) here) fun y at_ => others y (.tail x at_)

/-- Every running job of a kind stops under a reason, and with distinct names no other job changes. -/
def State.Stops (s u : State) (uses : Job → Prop) (reason : Nat) : Prop :=
  (∀ j, s.job j.id = some j → uses j → j.stopped = none → j.running ≠ [] → ∃ j', u.job j.id = some j' ∧ j'.stopped = some reason ∧ j'.running = []) ∧
    ((s.jobs.map Job.id).Nodup → ∀ j ∈ s.jobs, ¬ uses j → j ∈ u.jobs)

variable {s}

theorem State.stopWhere_stops (same : u.jobs = s.jobs) (uses : Job → Prop) (p : Job → Bool) (agree : ∀ j, p j = true ↔ uses j) (reason unit : Nat) :
    s.Stops (u.stopWhere p reason unit) uses reason := by
  refine ⟨fun j here used runs tiles => ?_, fun distinct j at_ unused => ?_⟩
  · have member : j ∈ u.jobs := same ▸ List.mem_of_find?_eq_some here
    have open_ : j ∈ u.openJobs := List.mem_filter.mpr ⟨member, by simp [runs, tiles]⟩
    exact u.stopEach_job _ reason unit ((State.job_of_jobs same j.id).trans here) runs tiles ⟨j, List.mem_filter.mpr ⟨open_, (agree j).mpr used⟩, rfl⟩
  · refine u.stopEach_mem _ reason unit (same ▸ at_) fun x among e => unused ?_
    obtain ⟨open_, used⟩ := List.mem_filter.mp among
    have member : x ∈ s.jobs := same ▸ (List.mem_filter.mp open_).1
    exact (List.inj_on_of_nodup_map distinct at_ member e) ▸ (agree x).mp used

theorem State.stopWhere_struck (s : State) (p : Job → Bool) (reason unit : Nat) : s.Struck (s.stopWhere p reason unit) :=
  .foldl (fun s (j : Job) => s.stopJob j.id reason 0 0 unit) (fun x j => x.stopJob_struck j.id reason 0 0 unit) _ s

theorem State.Stops.of_jobs {uses : Job → Prop} {reason : Nat} (h : s.Stops u uses reason) (same : w.jobs = u.jobs) : s.Stops w uses reason :=
  ⟨fun j here used runs tiles => by rw [State.job_of_jobs same]; exact h.1 j here used runs tiles, fun distinct j at_ unused => same ▸ h.2 distinct j at_ unused⟩

/-! ### Fault records (R567, R585, R587) -/

variable (s)

/-- The safe state after a FATAL fault. -/
def State.safeAfter (s : State) : Bool := s.logs.safe || (s.reg 0x5008).getLsbD 16

theorem State.enterSafe_safe : s.enterSafe.logs.safe = s.safeAfter := by
  unfold State.enterSafe State.safeAfter bit
  dsimp only
  cases h : (s.reg 0x5008).getLsbD 16 with
  | false => rw [if_neg Bool.false_ne_true, Bool.or_false]
  | true =>
    rw [if_pos rfl, Bool.or_true]
    split
    · rw [State.enterLimpAll_logs]
    · rfl

/-- A FATAL fault sets SAFE where MESA_FAULT_CTL asks for it. -/
theorem State.fault_safe (die : Nat) (key : Option Key) (f : FaultInfo) (fatal : f.sev = 3) : (s.fault die key f).logs.safe = s.safeAfter := by
  have seen (l : Logs) (bytes : List Byte) (same : l.safe = s.logs.safe) : ((State.makeRecord { s with logs := l } die f.sev key bytes).faultSeen f.sev).safeAfter = s.safeAfter := by
    unfold State.safeAfter
    rw [State.faultSeen_logs, (State.makeRecord_writer_safe _ _ _ _ _).2, State.faultSeen_reg _ (by decide) _ (by omega), State.makeRecord_reg _ _ _ _ _ _ (by decide)]
    exact congrArg (· || _) same
  unfold State.fault
  dsimp only
  rw [if_pos fatal, State.enterSafe_safe]
  exact seen _ _ rfl

theorem State.fault_safeAfter (die : Nat) (key : Option Key) (f : FaultInfo) (fatal : f.sev = 3) : (s.fault die key f).safeAfter = s.safeAfter := by
  have reg : (s.fault die key f).reg 0x5008 = s.reg 0x5008 := s.fault_reg (by decide) die key f (by omega)
  rw [State.safeAfter, s.fault_safe die key f fatal, reg, State.safeAfter, Bool.or_assoc, Bool.or_self]

/-- A fault raises its severity's flag. -/
theorem State.faultSeen_bit (sev : Nat) (some_ : 0 < sev) (known : sev < 5) : ((s.faultSeen sev).reg 0x5000).getLsbD (sev - 1) = true := by
  unfold State.faultSeen State.faultFlag
  rw [if_neg (by omega), State.countByte_reg_ne _ _ _ _ (by omega), s.setFlag_bit _ _ (by omega)]

theorem State.fault_bit (die : Nat) (key : Option Key) (f : FaultInfo) (some_ : 0 < f.sev) (known : f.sev < 5) : ((s.fault die key f).reg 0x5000).getLsbD (f.sev - 1) = true := by
  unfold State.fault
  dsimp only
  split
  · rw [State.enterSafe_reg]
    exact State.faultSeen_bit _ _ some_ known
  · exact State.faultSeen_bit _ _ some_ known

/-! ### Units of the live mask (R50) -/

theorem getLsbD_clear_oneBit (x : Word) (b n : Nat) (h : b < 32) : (x &&& ~~~oneBit b).getLsbD n = (x.getLsbD n && decide (n ≠ b)) := by
  have written := getLsbD_oneBit_written x false b n h
  rw [if_neg Bool.false_ne_true] at written
  rw [written]
  by_cases same : n = b
  · rw [if_pos same, decide_eq_false (not_not.mpr same), Bool.and_false]
  · rw [if_neg same, decide_eq_true same, Bool.and_true]

theorem State.clearLive_one (b n : Nat) (h : b < 32) : (s.clearLive [b]).live.getLsbD n = (s.live.getLsbD n && decide (n ≠ b)) := getLsbD_clear_oneBit _ _ _ h

end Sys2Proof.Machine
end

section
/-! SUPPORT. Units out of service, links and the commands that report them (21 R50, R51, R576 to R578, R581, R584, R585), for obligation O49. -/

namespace Sys2Proof.Machine

variable (s : State)

/-! ### An erg die leaves service (R584) -/

/-- The die is out of the live mask, and recorded. -/
def State.ergCleared (s : State) (k : Nat) : State := (s.clearLive [k]).outRecord (s.serving k) 1 k k

theorem State.ergOut_eq (k reason : Nat) (on : s.ergLive k = true) :
    s.ergOut k reason = (((List.range 128).foldl (fun s t => s.partyGone (.tile (128 * k + t)))
      ((s.ergCleared k).stopWhere (fun j => (s.ergCleared k).usesErg j k) reason (128 * k))).dropTraffic k).setApply k {} := if_neg (by rw [on]; decide)

/-- What is left of its traffic and of its apply unit. -/
theorem State.dieEmptied_rest (x : State) (k : Nat) :
    ((x.dropTraffic k).setApply k {}).live = x.live ∧ ((x.dropTraffic k).setApply k {}).logs = x.logs ∧ ((x.dropTraffic k).setApply k {}).jobs = x.jobs := ⟨rfl, rfl, rfl⟩

theorem State.partiesGone_struck (f : Nat → Party) (l : List Nat) : s.Struck (l.foldl (fun s t => s.partyGone (f t)) s) := .foldl _ (fun x t => x.partyGone_struck (f t)) l s

theorem State.partiesGone_jobs (f : Nat → Party) (l : List Nat) : (l.foldl (fun s t => s.partyGone (f t)) s).jobs = s.jobs :=
  State.foldl_preserves State.jobs (fun s t => s.partyGone (f t)) (fun x t => x.partyGone_jobs (f t)) l s

/-- The stops and the slip of a die that leaves service. -/
theorem State.ergStopped_struck (k reason : Nat) : (s.ergCleared k).Struck ((List.range 128).foldl (fun s t => s.partyGone (.tile (128 * k + t)))
      ((s.ergCleared k).stopWhere (fun j => (s.ergCleared k).usesErg j k) reason (128 * k))) :=
  (State.stopWhere_struck _ _ _ _).trans (State.partiesGone_struck _ (fun t => .tile (128 * k + t)) _)

theorem State.outRecord_reported (die kind index detail : Nat) : s.Reported (s.outRecord die kind index detail) := s.reported_fault _ _ _

theorem State.ergOut_live (k reason n : Nat) (on : s.ergLive k = true) : (s.ergOut k reason).ergLive n = (s.ergLive n && decide (n ≠ k)) := by
  have small : k < 4 := of_decide_eq_true (Bool.and_eq_true _ _ ▸ on).1
  have live : (s.ergOut k reason).live = (s.clearLive [k]).live := by
    rw [s.ergOut_eq k reason on, (State.dieEmptied_rest _ k).1]
    exact (s.ergStopped_struck k reason).live.trans (State.outRecord_reported _ _ _ _ _).live
  unfold State.ergLive bit
  rw [live, s.clearLive_one k n (by omega), Bool.and_assoc]

theorem State.ergOut_safe (k reason : Nat) (on : s.ergLive k = true) : (s.ergOut k reason).logs.safe = s.safeAfter := by
  rw [s.ergOut_eq k reason on, (State.dieEmptied_rest _ k).2.1]
  exact (s.ergStopped_struck k reason).safe.trans (State.fault_safe _ _ _ _ rfl)

theorem State.ergOut_made (k reason : Nat) (on : s.ergLive k = true) : s.logs.made.length + 1 ≤ (s.ergOut k reason).logs.made.length := by
  have made : (s.ergCleared k).logs.made.length = s.logs.made.length + 1 := State.fault_made _ _ _ _
  rw [s.ergOut_eq k reason on, (State.dieEmptied_rest _ k).2.1, ← made]
  exact (s.ergStopped_struck k reason).made

/-- Every running job with a tile on the die stops. -/
theorem State.ergOut_stops {base : State} (same : s.jobs = base.jobs) (k reason : Nat) (on : s.ergLive k = true) (j : Job) (here : base.job j.id = some j) (tile : ∃ q ∈ j.tiles, q / 128 = k)
    (runs : j.stopped = none) (tiles : j.running ≠ []) : ∃ j', (s.ergOut k reason).job j.id = some j' ∧ j'.stopped = some reason ∧ j'.running = [] := by
  have jobs : (s.ergCleared k).jobs = base.jobs := (State.outRecord_reported _ _ _ _ _).jobs.trans same
  have used : (s.ergCleared k).usesErg j k = true := by
    obtain ⟨q, at_, die⟩ := tile
    unfold State.usesErg
    rw [List.any_eq_true.mpr ⟨q, at_, decide_eq_true die⟩, Bool.true_or, Bool.true_or]
  have stops := State.stopWhere_stops jobs (fun j => (s.ergCleared k).usesErg j k = true) (fun j => (s.ergCleared k).usesErg j k) (fun _ => Iff.rfl) reason (128 * k)
  rw [s.ergOut_eq k reason on, State.job_of_jobs (State.dieEmptied_rest _ k).2.2]
  exact (stops.of_jobs (State.partiesGone_jobs _ (fun t => .tile (128 * k + t)) _)).1 j here used runs tiles

/-! ### A tile, a stack and mesa die 1 leave service (R51, R576, R584) -/

/-- The tile is out of the live mask, and recorded. -/
def State.tileCleared (s : State) (t : Nat) : State :=
  let u := { s with tileLive := s.tileLive &&& ~~~(BitVec.ofNat 512 (1 <<< t)) }
  u.outRecord (u.serving (t / 128)) 0 t (0x8000 + t)

theorem State.tileOut_eq (t : Nat) : s.tileOut t = ((s.tileCleared t).stopWhere (fun j => decide (t ∈ j.tiles)) 0x10 t).partyGone (.tile t) := rfl

theorem State.tileOut_struck (t : Nat) : (s.tileCleared t).Struck (s.tileOut t) := (State.stopWhere_struck _ _ _ _).trans (State.partyGone_struck _ _)

theorem State.tileOut_tileLive (t n : Nat) (h : n < 512) : (s.tileOut t).tileLive.getLsbD n = (s.tileLive.getLsbD n && decide (n ≠ t)) := by
  have live : (s.tileOut t).tileLive = s.tileLive &&& ~~~(BitVec.ofNat 512 (1 <<< t)) :=
    (s.tileOut_struck t).tileLive.trans (congrArg State.tileLive (State.outRecord_reported _ _ _ _ _) :)
  rw [live, BitVec.getLsbD_and, BitVec.getLsbD_not, BitVec.getLsbD_ofNat, decide_eq_true h, Nat.one_shiftLeft, Nat.testBit_two_pow]
  simp [eq_comm]

/-- The stack is out of the live mask, and recorded. -/
def State.stackCleared (s : State) (n : Nat) : State :=
  let die := s.serving (s.stackDie n)
  let u := s.fault die none { cls := 0x0031, sev := 3, kind := 4, index := n }
  (u.clearLive [4 + n]).outRecord die 4 n (4 + n)

theorem State.stackOut_eq (n : Nat) : s.stackOut n = (s.stackCleared n).stopWhere (fun j => (s.stackCleared n).usesStack j n) 0x10 n := rfl

theorem State.stackOut_struck (n : Nat) : (s.stackCleared n).Struck (s.stackOut n) := State.stopWhere_struck _ _ _ _

theorem State.stackCleared_live (n : Nat) : (s.stackCleared n).live = (s.clearLive [4 + n]).live :=
  (State.outRecord_reported _ _ _ _ _).live.trans (congrArg (fun w : Word => [4 + n].foldl (fun w b => w &&& ~~~oneBit b) w) (s.reported_fault _ _ _).live)

theorem State.stackCleared_reported (n : Nat) : { s.stackCleared n with regs := s.regs, logs := s.logs, link := s.link, ports := s.ports, live := s.live } = s :=
  (congrArg (fun x : State => { x with regs := s.regs, logs := s.logs, link := s.link, ports := s.ports, live := s.live }) (State.outRecord_reported _ _ _ _ _) :).trans
    (congrArg (fun x : State => { x with live := s.live }) (s.reported_fault _ _ _) :)

theorem State.stackCleared_usesStack (n m : Nat) (j : Job) : (s.stackCleared n).usesStack j m = s.usesStack j m := (congrArg (fun x : State => x.usesStack j m) (s.stackCleared_reported n) :)

theorem State.stackOut_safe (n : Nat) : (s.stackOut n).logs.safe = s.safeAfter :=
  (s.stackOut_struck n).safe.trans ((State.fault_safe _ _ _ _ rfl).trans (s.fault_safeAfter _ _ _ rfl))

/-- Mesa die 1 is out of the live mask, recorded, and what it held is lost. -/
def State.mesaCleared (s : State) : State :=
  let s := (s.clearLive [13, 16, 17]).outRecord 0 2 1 13
  { s with
    cycles := s.cycles.filter fun c => decide (c.die ≠ 1)
    ingress := s.ingress.set 1 {}
    ports := (s.ports.set 2 {}).set 3 {}
    logs := { s.logs with writer := s.logs.writer.set 1 {}, made := s.logs.made.filter fun r => decide (r.die ≠ 1) }
    power := { s.power with fOn := Vector.ofFn fun n => s.power.fOn[n] && decide (n.val < 4) } }

theorem State.mesaOut_eq (on : s.mesaLive 1 = true) : s.mesaOut = (((s.mesaCleared.partyGone (.mesa 1)).partyGone (.chip 2)).partyGone (.chip 3)).dropTraffic 5 := if_neg (by rw [on]; decide)

/-- What the slip and the traffic leave of it. -/
theorem State.mesaOut_frame (on : s.mesaLive 1 = true) : { s.mesaOut with regs := s.mesaCleared.regs, link := s.mesaCleared.link, ports := s.mesaCleared.ports, slip := s.mesaCleared.slip, net := s.mesaCleared.net } = s.mesaCleared := by
  have gone (x y : State) (p : Party) (h : { x with regs := y.regs, link := y.link, ports := y.ports, slip := y.slip } = y) : { x.partyGone p with regs := y.regs, link := y.link, ports := y.ports, slip := y.slip } = y :=
    (congrArg (fun z : State => { z with regs := y.regs, link := y.link, ports := y.ports, slip := y.slip }) (x.partyGone_frame p) :).trans h
  rw [s.mesaOut_eq on]
  exact (congrArg (fun z : State => { z with net := s.mesaCleared.net }) (gone _ _ (.chip 3) (gone _ _ (.chip 2) (gone s.mesaCleared s.mesaCleared (.mesa 1) rfl))) :)

theorem State.mesaOut_live (on : s.mesaLive 1 = true) (n : Nat) : s.mesaOut.live.getLsbD n = (s.live.getLsbD n && decide (n ≠ 13) && decide (n ≠ 16) && decide (n ≠ 17)) := by
  have live : s.mesaOut.live = ((s.live &&& ~~~oneBit 13) &&& ~~~oneBit 16) &&& ~~~oneBit 17 :=
    (congrArg State.live (s.mesaOut_frame on) :).trans (State.outRecord_reported _ _ _ _ _).live
  rw [live, getLsbD_clear_oneBit _ _ _ (by decide), getLsbD_clear_oneBit _ _ _ (by decide), getLsbD_clear_oneBit _ _ _ (by decide)]

theorem State.mesaOut_safe (on : s.mesaLive 1 = true) : s.mesaOut.logs.safe = s.safeAfter :=
  (congrArg (fun x : State => x.logs.safe) (s.mesaOut_frame on) :).trans (State.fault_safe _ _ _ _ rfl)

theorem State.mesaOut_lost (on : s.mesaLive 1 = true) : (∀ c ∈ s.mesaOut.cycles, c.die ≠ 1) ∧ s.mesaOut.die 1 = {} := by
  have cycles : s.mesaOut.cycles = s.mesaCleared.cycles := (congrArg State.cycles (s.mesaOut_frame on) :)
  have ingress : s.mesaOut.ingress = s.mesaCleared.ingress := (congrArg State.ingress (s.mesaOut_frame on) :)
  refine ⟨fun c among => ?_, ?_⟩
  · rw [cycles] at among
    exact of_decide_eq_true (List.mem_filter.mp among).2
  · unfold State.die
    rw [ingress]
    simp [State.mesaCleared]

/-! ### Links (R578) -/

theorem Net.attempt_set (n : Net) (link attempt m : Nat) :
    ({ n with retrain := (n.retrain.filter fun (e : Nat × Nat) => decide (e.1 ≠ link)) ++ [(link, attempt)] } : Net).attempt m = if m = link then attempt else n.attempt m := by
  unfold Net.attempt
  dsimp only
  rw [List.find?_append, List.find?_filter]
  by_cases same : m = link
  · subst same
    have gone : n.retrain.find? (fun e => decide (decide (e.1 ≠ m) = true ∧ decide (e.1 = m) = true)) = none := by simp
    rw [gone, if_pos rfl, Option.none_or, List.find?_cons_of_pos (by simp)]
  · have kept : (fun e : Nat × Nat => decide (decide (e.1 ≠ link) = true ∧ decide (e.1 = m) = true)) = fun e => decide (e.1 = m) := by
      funext e
      by_cases h : e.1 = m <;> simp [h, same]
    rw [kept, if_neg same, List.find?_cons_of_neg (by simp [Ne.symm same]), List.find?_nil, Option.or_none]

theorem Net.attempt_clear (n : Net) (link m : Nat) :
    ({ n with retrain := n.retrain.filter fun (e : Nat × Nat) => decide (e.1 ≠ link) } : Net).attempt m = if m = link then 0 else n.attempt m := by
  unfold Net.attempt
  dsimp only
  rw [List.find?_filter]
  by_cases same : m = link
  · subst same
    have gone : n.retrain.find? (fun e => decide (decide (e.1 ≠ m) = true ∧ decide (e.1 = m) = true)) = none := by simp
    rw [gone, if_pos rfl]
  · have kept : (fun e : Nat × Nat => decide (decide (e.1 ≠ link) = true ∧ decide (e.1 = m) = true)) = fun e => decide (e.1 = m) := by
      funext e
      by_cases h : e.1 = m <;> simp [h, same]
    rw [kept, if_neg same]

/-- A link that is there joins an erg die in service, the one that its failure takes out. -/
theorem State.linkErg_live (link : Fin 11) (present : s.linkPresent link = true) (ne : link.val ≠ 10) : s.ergLive (s.linkErg link) = true := by
  obtain ⟨n, hn⟩ := link
  unfold State.linkPresent at present
  unfold State.linkErg
  dsimp only at present ne ⊢
  by_cases own : n < 4
  · rw [if_pos own] at present ⊢
    exact (Bool.and_eq_true _ _ ▸ present).1
  · rw [if_neg own, if_neg ne] at present
    rw [if_neg own]
    by_cases two : s.fuses.ergCount = 2
    · rw [if_pos two] at present ⊢
      exact (Bool.and_eq_true _ _ ▸ present).2
    · rw [if_neg two] at present ⊢
      have pair := (Bool.and_eq_true _ _ ▸ present).2
      obtain rfl | rfl | rfl | rfl | rfl | rfl : n = 4 ∨ n = 5 ∨ n = 6 ∨ n = 7 ∨ n = 8 ∨ n = 9 := by omega
      all_goals exact (Bool.and_eq_true _ _ ▸ pair).2

/-- The link between the mesa dies joins both. -/
theorem State.linkPresent_mesa (link : Fin 11) (present : s.linkPresent link = true) (ten : link.val = 10) : s.mesaLive 0 = true ∧ s.mesaLive 1 = true := by
  unfold State.linkPresent at present
  dsimp only at present
  rw [if_neg (by omega), if_pos ten] at present
  exact Bool.and_eq_true _ _ ▸ present

end Sys2Proof.Machine
end

section
/-! SUPPORT. The commands of links, failing units and SAFE (21 R567, R568, R576 to R578, R581, R584, R585): obligation O49. -/

namespace Sys2Proof.Machine

variable (s : State) (t : Time)

@[simp] theorem State.at_linkPresent (n : Nat) : (s.at t).linkPresent n = s.linkPresent n := by rw [State.at_eq]; rfl
@[simp] theorem State.at_linkErg (n : Nat) : (s.at t).linkErg n = s.linkErg n := by rw [State.at_eq]; rfl
@[simp] theorem State.at_tileLive : (s.at t).tileLive = s.tileLive := by rw [State.at_eq]
@[simp] theorem State.at_stackLive (n : Nat) : (s.at t).stackLive n = s.stackLive n := by rw [State.at_eq]; rfl
@[simp] theorem State.at_usesStack (j : Job) (n : Nat) : (s.at t).usesStack j n = s.usesStack j n := by rw [State.at_eq]; rfl
@[simp] theorem State.at_liveBytes : (s.at t).liveBytes = s.liveBytes := by rw [State.at_eq]; rfl
theorem State.at_safeAfter : (s.at t).safeAfter = s.safeAfter := by rw [State.at_eq]; rfl

/-- `u` has `n` records more, with the corrected-error flag up, and the same work. -/
def State.Flagged (s u : State) (n : Nat) : Prop :=
  u.logs.made.length = s.logs.made.length + n ∧ (u.reg 0x5000).getLsbD 0 = true ∧ u.tiles = s.tiles ∧ u.jobs = s.jobs ∧ u.live = s.live ∧ u.kept = s.kept

/-- What a report keeps of the state before the time of the command. -/
theorem State.Reported.work {u : State} (h : (s.at t).Reported u) : u.tiles = s.tiles ∧ u.jobs = s.jobs ∧ u.live = s.live ∧ u.resv = s.resv ∧ u.net = s.net ∧ u.tileLive = s.tileLive := by
  rw [State.at_eq] at h
  exact ⟨(congrArg State.tiles h :), (congrArg State.jobs h :), (congrArg State.live h :), (congrArg State.resv h :), (congrArg State.net h :), (congrArg State.tileLive h :)⟩

theorem State.at_made : (s.at t).logs.made.length = s.logs.made.length := by rw [State.at_logs]

/-! ### Links -/

variable (link : Fin 11)

/-- A flit that fails its check is recorded when the flag was clear. -/
theorem crcFail_results (flits : Nat) (present : s.linkPresent link = true) : ∃ u, exec (.delluFlitCrcFail link flits t) s = .next u ∧ u.net = s.net ∧
    ((s.reg 0x5000).getLsbD 0 = false → s.Flagged u 1) ∧ (¬ (s.reg 0x5000).getLsbD 0 = false → s.Flagged u 0) := by
  have exec_ : exec (.delluFlitCrcFail link flits t) s =
      .next ((s.at t).faultThrottled (!bit ((s.at t).reg 0x5000) 0) 0 { cls := 0x0020, sev := 1, kind := 5, index := link, detail := flits }) :=
    congrArg Host.Outcome.next (if_neg (by rw [State.at_linkPresent, present]; decide))
  have kept := (execDelluFlitCrcFail_keeps link flits t s).next exec_
  obtain ⟨tiles, jobs, live, -, net, -⟩ := ((s.at t).reported_faultThrottled (!bit ((s.at t).reg 0x5000) 0) 0 { cls := 0x0020, sev := 1, kind := 5, index := link, detail := flits }).work
  refine ⟨_, exec_, net, fun clear => ⟨?_, ?_, tiles, jobs, live, kept⟩, fun set => ⟨?_, ?_, tiles, jobs, live, kept⟩⟩ <;>
    rw [State.faultThrottled, State.at_reg, bit]
  · rw [clear, if_pos (by decide), State.fault_made, State.at_made]
  · rw [clear, if_pos (by decide)]
    exact State.fault_corrected _ _ _ _ rfl
  · rw [(Bool.not_eq_false _).mp set, if_neg (by decide), State.faultSeen_logs, State.at_made]
    rfl
  · rw [(Bool.not_eq_false _).mp set, if_neg (by decide)]
    exact (s.at t).faultSeen_corrected

/-- The link's attempt is counted. -/
def State.retrained (s : State) (link attempt : Nat) : State :=
  { s with net := { s.net with retrain := (s.net.retrain.filter fun (e : Nat × Nat) => decide (e.1 ≠ link)) ++ [(link, attempt)] } }

/-- A retrain that counts. -/
theorem retrain_results (attempt : Nat) (present : s.linkPresent link = true) (next : attempt = s.net.attempt link + 1) (few : attempt ≤ 3) :
    ∃ u, exec (.delluRetrain link attempt t) s = .next u ∧ u.net.attempt link = attempt ∧ (∀ n, n ≠ link.val → u.net.attempt n = s.net.attempt n) ∧
      u.net.hops = s.net.hops ∧ u.net.hopUsed = s.net.hopUsed ∧ u.logs.made.length = s.logs.made.length + 1 ∧ u.tiles = s.tiles ∧ u.jobs = s.jobs ∧ u.kept = s.kept := by
  have exec_ : exec (.delluRetrain link attempt t) s = .next (((s.at t).retrained link attempt).fault 0 none { cls := 0x0021, sev := 2, kind := 5, index := link, detail := attempt }) :=
    congrArg Host.Outcome.next (if_neg (by rw [State.at_linkPresent, State.at_net, present]; rintro (h | h | h) <;> [exact absurd h (by decide); exact h next; omega]))
  have report := ((s.at t).retrained link attempt).reported_fault 0 none { cls := 0x0021, sev := 2, kind := 5, index := link, detail := attempt }
  have net := (congrArg State.net report :)
  have old := s.at_net t
  have attempts (m : Nat) : ((s.at t).retrained link attempt).net.attempt m = if m = link.val then attempt else s.net.attempt m :=
    ((s.at t).net.attempt_set link attempt m).trans (by rw [old])
  refine ⟨_, exec_, ?_, fun n ne => ?_, (congrArg Net.hops net :).trans (congrArg Net.hops old :), (congrArg Net.hopUsed net :).trans (congrArg Net.hopUsed old :), ?_,
    report.tiles.trans (s.tame_at t).1, report.jobs.trans (s.tame_at t).2.1, (execDelluRetrain_keeps link attempt t s).next exec_⟩
  · exact (congrArg (fun n : Net => n.attempt link) net :).trans ((attempts link).trans (if_pos rfl))
  · exact (congrArg (fun m : Net => m.attempt n) net :).trans ((attempts n).trans (if_neg ne))
  · rw [State.fault_made]
    exact congrArg (· + 1) (s.at_made t)

theorem exec_linkFailed (present : s.linkPresent link = true) (failed : 3 ≤ s.net.attempt link) :
    exec (.linkFailed link t) s = .next (let x := (s.at t).fault 0 none { cls := 0x0022, sev := 3, kind := 5, index := link }
      if link.val = 10 then x.mesaOut else x.ergOut (x.linkErg link) 0x10) :=
  congrArg Host.Outcome.next (if_neg (by rw [State.at_linkPresent, State.at_net, present]; rintro (h | h) <;> [exact absurd h (by decide); omega]))

/-- A failed link to an erg die. -/
theorem linkFailed_erg (present : s.linkPresent link = true) (failed : 3 ≤ s.net.attempt link) (ne : link.val ≠ 10) :
    ∃ u, exec (.linkFailed link t) s = .next u ∧ u.ergLive (s.linkErg link) = false ∧ (∀ n, n ≠ s.linkErg link → u.ergLive n = s.ergLive n) ∧ u.logs.safe = s.safeAfter ∧
      (∀ j, s.job j.id = some j → (∃ q ∈ j.tiles, q / 128 = s.linkErg link) → j.stopped = none → j.running ≠ [] → ∃ j', u.job j.id = some j' ∧ j'.stopped = some 0x10) ∧ s.logs.made.length + 2 ≤ u.logs.made.length := by
  have exec_ := (exec_linkFailed s t link present failed).trans (congrArg Host.Outcome.next (if_neg ne))
  have report := (s.at t).reported_fault 0 none { cls := 0x0022, sev := 3, kind := 5, index := link }
  have made := (s.at t).fault_made 0 none { cls := 0x0022, sev := 3, kind := 5, index := link }
  have safe := (s.at t).fault_safeAfter 0 none { cls := 0x0022, sev := 3, kind := 5, index := link } rfl
  generalize (s.at t).fault 0 none { cls := 0x0022, sev := 3, kind := 5, index := link } = x at exec_ report made safe
  have live (n : Nat) : x.ergLive n = s.ergLive n := (congrArg (fun y : State => y.ergLive n) report :).trans (s.at_ergLive t n)
  have erg : x.linkErg link = s.linkErg link := (congrArg (fun y : State => y.linkErg link) report :).trans (s.at_linkErg t link)
  rw [erg] at exec_
  have on : x.ergLive (s.linkErg link) = true := (live _).trans (s.linkErg_live link present ne)
  refine ⟨_, exec_, ?_, fun n other => ?_, ?_, fun j here tile runs tiles => ?_, ?_⟩
  · rw [State.ergOut_live _ _ _ _ on, decide_eq_false (not_not.mpr rfl), Bool.and_false]
  · rw [State.ergOut_live _ _ _ _ on, decide_eq_true other, Bool.and_true, live]
  · rw [State.ergOut_safe _ _ _ on, safe, State.at_safeAfter]
  · obtain ⟨j', at_, stopped, -⟩ := State.ergOut_stops x (report.jobs.trans (s.tame_at t).2.1) _ 0x10 on j here tile runs tiles
    exact ⟨j', at_, stopped⟩
  · have more := State.ergOut_made x (s.linkErg link) 0x10 on
    rw [made, State.at_made] at more
    exact more

/-- A failed link between the mesa dies. -/
theorem linkFailed_mesa (present : s.linkPresent link = true) (failed : 3 ≤ s.net.attempt link) (ten : link.val = 10) :
    ∃ u, exec (.linkFailed link t) s = .next u ∧ u.mesaLive 1 = false ∧ u.mesaLive 0 = true ∧ (∀ c, c < 4 → u.dflLive c = (s.dflLive c && decide (c < 2))) ∧ (∀ c ∈ u.cycles, c.die ≠ 1) ∧ u.die 1 = {} ∧ u.logs.safe = s.safeAfter := by
  have exec_ := (exec_linkFailed s t link present failed).trans (congrArg Host.Outcome.next (if_pos ten))
  have report := (s.at t).reported_fault 0 none { cls := 0x0022, sev := 3, kind := 5, index := link }
  have safe := (s.at t).fault_safeAfter 0 none { cls := 0x0022, sev := 3, kind := 5, index := link } rfl
  generalize (s.at t).fault 0 none { cls := 0x0022, sev := 3, kind := 5, index := link } = x at exec_ report safe
  obtain ⟨zero, one⟩ := s.linkPresent_mesa link present ten
  have live : x.live = s.live := report.live.trans (by rw [State.at_eq])
  have on : x.mesaLive 1 = true := (congrArg (fun y : State => y.mesaLive 1) report :).trans ((s.at_mesaLive t 1).trans one)
  have bits := x.mesaOut_live on
  rw [live] at bits
  obtain ⟨cycles, die⟩ := x.mesaOut_lost on
  refine ⟨_, exec_, ?_, ?_, fun c small => ?_, cycles, die, ?_⟩
  · unfold State.mesaLive bit
    rw [bits, decide_eq_false (not_not.mpr rfl)]
    simp
  · have up : s.live.getLsbD 12 = true := ((Bool.and_eq_true _ _).mp zero).2
    unfold State.mesaLive bit
    rw [bits, up]
    decide
  · unfold State.dflLive bit
    rw [bits]
    obtain rfl | rfl | rfl | rfl : c = 0 ∨ c = 1 ∨ c = 2 ∨ c = 3 := by omega
    all_goals simp
  · rw [x.mesaOut_safe on, safe, State.at_safeAfter]

/-! ### Tiles and stacks -/

/-- A tile with its errors leaves service. -/
theorem tileFatal_results (tile : Fin 512) (bad : s.tileOn tile = true ∧ 16 ≤ (s.logs.tileUe.filter fun e => decide (e.1 = tile.val ∧ (s.at t).time.now < e.2 + 1000000000)).length) :
    ∃ u, exec (.tileFatal tile t) s = .next u ∧ u.tileOn tile = false ∧ (∀ n, n < 512 → n ≠ tile.val → u.tileLive.getLsbD n = s.tileLive.getLsbD n) ∧ u.live = s.live ∧ u.logs.safe = s.safeAfter ∧
      s.Stops u (fun j => tile.val ∈ j.tiles) 0x10 := by
  have exec_ : exec (.tileFatal tile t) s = .next ((s.at t).tileOut tile) := congrArg Host.Outcome.next (if_pos (by rw [State.at_tileOn, State.at_logs]; exact bad))
  have struck := (s.at t).tileOut_struck tile
  have live := (s.at t).tileOut_tileLive tile
  have report : (s.at t).Reported { (s.at t).tileCleared tile with tileLive := (s.at t).tileLive } :=
    (congrArg (fun x : State => { x with tileLive := (s.at t).tileLive }) (State.outRecord_reported _ _ _ _ _) :)
  refine ⟨_, exec_, ?_, fun n small ne => ?_, ?_, ?_, ?_⟩
  · unfold State.tileOn
    rw [live tile tile.isLt, decide_eq_false (not_not.mpr rfl)]
    simp
  · rw [live n small, decide_eq_true ne, Bool.and_true, State.at_tileLive]
  · exact struck.live.trans (report.live.trans (by rw [State.at_eq]))
  · exact struck.safe.trans ((State.fault_safe _ _ _ _ rfl).trans (s.at_safeAfter t))
  · have jobs : ((s.at t).tileCleared tile).jobs = s.jobs := report.jobs.trans (s.tame_at t).2.1
    exact (State.stopWhere_stops jobs (fun j => tile.val ∈ j.tiles) (fun j => decide (tile.val ∈ j.tiles)) (fun _ => decide_eq_true_iff) 0x10 tile.val).of_jobs (State.partyGone_jobs _ _)

/-- A stack with its errors leaves service. -/
theorem stackFailed_results (stack : Fin 8) (interface : Bool) (bad : s.stackLive stack = true ∧ (interface = true ∨ 64 ≤ (s.logs.stackUe.filter fun e => decide (e.1 = stack.val ∧ (s.at t).time.now < e.2 + 1000000000)).length)) :
    ∃ u, exec (.stackFailed stack interface t) s = .next u ∧ u.stackLive stack = false ∧ (∀ n, n < 8 → n ≠ stack.val → u.stackLive n = s.stackLive n) ∧ u.tileLive = s.tileLive ∧ u.logs.safe = s.safeAfter ∧
      s.Stops u (fun j => s.usesStack j stack = true) 0x10 := by
  have exec_ : exec (.stackFailed stack interface t) s = .next ((s.at t).stackOut stack) := congrArg Host.Outcome.next (if_pos (by rw [State.at_stackLive, State.at_logs]; exact bad))
  have struck := (s.at t).stackOut_struck stack
  have frame := (s.at t).stackCleared_reported stack
  have live (n : Nat) : ((s.at t).stackOut stack).stackLive n = (s.stackLive n && decide (n ≠ stack.val)) := by
    have same : (s.at t).live = s.live := by rw [State.at_eq]
    unfold State.stackLive bit
    rw [struck.live, State.stackCleared_live, State.clearLive_one _ _ _ (by omega), same, Bool.and_assoc, decide_eq_decide.mpr (show 4 + n ≠ 4 + stack.val ↔ n ≠ stack.val by omega)]
  refine ⟨_, exec_, ?_, fun n _ ne => ?_, ?_, ?_, ?_⟩
  · rw [live, decide_eq_false (not_not.mpr rfl), Bool.and_false]
  · rw [live, decide_eq_true ne, Bool.and_true]
  · exact struck.tileLive.trans ((congrArg State.tileLive frame :).trans (s.at_tileLive t))
  · rw [State.stackOut_safe, State.at_safeAfter]
  · have jobs : ((s.at t).stackCleared stack).jobs = s.jobs := (congrArg State.jobs frame :).trans (s.tame_at t).2.1
    refine State.stopWhere_stops jobs (fun j => s.usesStack j stack = true) (fun j => ((s.at t).stackCleared stack).usesStack j stack) (fun j => ?_) 0x10 stack.val
    rw [State.stackCleared_usesStack, State.at_usesStack]

/-- The links', units' and SAFE's part of O49. -/
theorem faultResults : Claims.FaultResults := by
  intro s tile stack link interface loader write fatal ok addr flits attempt t v clear safe stops onTile recorded
  refine ⟨fun absent => ⟨?_, ?_, ?_⟩, fun present => ⟨crcFail_results s t link flits present, fun not_ => ?_, retrain_results s t link attempt present, fun few => ?_, linkFailed_erg s t link present, linkFailed_mesa s t link present⟩,
    rfl, ?done, ⟨fun fine => ?_, tileFatal_results s t tile⟩, ⟨fun fine => ?_, stackFailed_results s t stack interface⟩, fun below => ?_, fun above => ?range, rfl⟩
  case done =>
    have set := s.net.attempt_clear link
    exact ⟨_, rfl, (set link).trans (if_pos rfl), fun n ne => (set n).trans (if_neg ne), rfl, rfl⟩
  case range =>
    have exec_ : exec (.reservoirRange addr loader write t) s = .next (v.fault 0 none { cls := 0x0012, sev := 2, kind := 4, index := addr / 2 ^ 34 % 65536, addr, detail := b2n loader }) :=
      congrArg Host.Outcome.next (if_neg (by rw [State.at_liveBytes]; exact Nat.not_lt.mpr above))
    obtain ⟨tiles, jobs, -, resv, -⟩ := (v.reported_fault 0 none { cls := 0x0012, sev := 2, kind := 4, index := addr / 2 ^ 34 % 65536, addr, detail := b2n loader }).work
    exact ⟨_, exec_, v.fault_bit _ _ _ (show 0 < 2 by decide) (show 2 < 5 by decide), (v.fault_made _ _ _).trans (congrArg (· + 1) (s.at_made t)), resv, tiles, jobs, (execReservoirRange_keeps addr loader write t s).next exec_⟩
  · exact congrArg Host.Outcome.next (if_pos (by rw [State.at_linkPresent, absent]; rfl))
  · exact congrArg Host.Outcome.next (if_pos (by rw [State.at_linkPresent, absent]; exact .inl rfl))
  · exact congrArg Host.Outcome.next (if_pos (by rw [State.at_linkPresent, absent]; exact .inl rfl))
  · exact congrArg Host.Outcome.next (if_pos (by rw [State.at_net]; exact .inr not_))
  · exact congrArg Host.Outcome.next (if_pos (by rw [State.at_net]; exact .inr few))
  · exact congrArg Host.Outcome.next (if_neg (by rw [State.at_tileOn, State.at_logs]; exact fine))
  · exact congrArg Host.Outcome.next (if_neg (by rw [State.at_stackLive, State.at_logs]; exact fine))
  · exact congrArg Host.Outcome.next (if_pos (by rw [State.at_liveBytes]; exact below))

/-- Settles O49: the log writers' commands, and the commands of links and failing units. -/
theorem logAndFaultResults : Obligations.LogAndFaultResults := ⟨logResults, faultResults⟩

end Sys2Proof.Machine
end

section
/-! SUPPORT. Rows: their states, the tiles they empty, their wakes and hints (13 R337 to R339, R341, R345, R347, R348), for obligation O47. -/

namespace Sys2Proof.Machine

variable {s u w : State}

/-! ### A row of the power control -/

/-- Row `d` of `u` is `x`; the other rows, the common and F domains and the jobs are those of `s`. -/
def State.RowIs (s u : State) (d : Nat) (x : Row) : Prop :=
  u.row d = x ∧ (∀ e, e ≠ d → u.row e = s.row e) ∧ u.power.commonA1 = s.power.commonA1 ∧ u.power.fOn = s.power.fOn ∧ u.jobs = s.jobs

theorem State.RowIs.trans {d : Nat} {x y : Row} (h : s.RowIs u d x) (h' : u.RowIs w d y) : s.RowIs w d y := by
  obtain ⟨-, others, common, fOn, jobs⟩ := h
  obtain ⟨own, others', common', fOn', jobs'⟩ := h'
  exact ⟨own, fun e ne => (others' e ne).trans (others e ne), common'.trans common, fOn'.trans fOn, jobs'.trans jobs⟩

/-- What leaves the power control and the jobs leaves the row. -/
theorem State.RowIs.kept {d : Nat} {x : Row} (h : s.RowIs u d x) (power : w.power = u.power) (jobs : w.jobs = u.jobs) : s.RowIs w d x := by
  unfold State.RowIs State.row at h ⊢
  rwa [power, jobs]

variable (s) (d : Nat)

theorem State.setRow_row (x : Row) (e : Nat) : (s.setRow d x).row e = if e = d then x else s.row e := mget_mset _ _ _ _ _
theorem State.setRow_is (x : Row) : s.RowIs (s.setRow d x) d x := ⟨(s.setRow_row d x d).trans (if_pos rfl), fun e ne => (s.setRow_row d x e).trans (if_neg ne), rfl, rfl, rfl⟩

/-- A row as it enters a state. -/
def Row.entered (r : Row) (state : Nat) (now : Time) : Row := { r with state, idleHint := false, idleSince := if r.state = 0 then now else r.idleSince }

theorem State.enterRow_is (state : Nat) : s.RowIs (s.enterRow d state) d ((s.row d).entered state s.time.now) := s.setRow_is d _

theorem Row.entered_deeper (r : Row) (state : Nat) (now : Time) (deep : r.state ≠ 0) : r.entered state now = { r with state, idleHint := false } := by
  unfold Row.entered
  rw [if_neg deep]

/-! ### Tiles that change together -/

theorem State.foldl_modTile_tile (f : Tile → Tile) (twice : ∀ x, f (f x) = f x) (l : List Nat) (s : State) (n : Nat) :
    (l.foldl (fun s t => s.modTile t f) s).tile n = if n ∈ l then f (s.tile n) else s.tile n := by
  induction l generalizing s with
  | nil => rfl
  | cons a l ih =>
    rw [List.foldl_cons, ih, State.tile_modTile]
    by_cases same : n = a
    · subst same
      rw [if_pos rfl, if_pos List.mem_cons_self, twice, ite_self]
    · rw [if_neg same]
      exact if_congr (by rw [List.mem_cons, or_iff_right same]) rfl rfl

/-- `u` is `s` but for its tiles. -/
def State.TilesOnly (s u : State) : Prop := { u with tiles := s.tiles } = s

theorem State.TilesOnly.power {s u : State} (h : s.TilesOnly u) : u.power = s.power := (congrArg State.power h :)
theorem State.TilesOnly.jobs {s u : State} (h : s.TilesOnly u) : u.jobs = s.jobs := (congrArg State.jobs h :)
theorem State.TilesOnly.regs {s u : State} (h : s.TilesOnly u) : u.regs = s.regs := (congrArg State.regs h :)
theorem State.TilesOnly.resv {s u : State} (h : s.TilesOnly u) : u.resv = s.resv := (congrArg State.resv h :)

theorem State.foldl_modTile_rest (f : Tile → Tile) (l : List Nat) (s : State) : s.TilesOnly (l.foldl (fun s t => s.modTile t f) s) :=
  (State.foldl_preserves (fun x : State => { x with tiles := s.tiles }) (fun s t => s.modTile t f) (fun _ _ => rfl) l s :)

/-- A tile without what its logic held, and one that has lost both banks. -/
def Tile.dropped (x : Tile) : Tile := { x with abuf := [], abufPoison := [], valid := 0, plane := none }
def Tile.bankless (x : Tile) : Tile := { x with halves := #v[x.halves[0].lost, x.halves[1].lost] }

theorem State.dropBuffers_tile (n : Nat) : (s.dropBuffers d).tile n = if n ∈ domTiles d then (s.tile n).dropped else s.tile n :=
  State.foldl_modTile_tile Tile.dropped (fun _ => rfl) (domTiles d) s n

theorem State.loseBanks_tile (n : Nat) : (s.loseBanks d).tile n = if n ∈ domTiles d then (s.tile n).bankless else s.tile n :=
  State.foldl_modTile_tile Tile.bankless (fun _ => rfl) (domTiles d) s n

theorem State.dropBuffers_rest : s.TilesOnly (s.dropBuffers d) := State.foldl_modTile_rest Tile.dropped (domTiles d) s
theorem State.loseBanks_rest : s.TilesOnly (s.loseBanks d) := State.foldl_modTile_rest Tile.bankless (domTiles d) s

theorem Tile.bankless_half (x : Tile) (h : Nat) : x.bankless.half h = { digest := (x.half h).digest } := by
  unfold Tile.half
  split <;> rfl

/-! ### When a row may go deeper (R338, R341, R345, R348) -/

/-- The row is there, holds its contents, and runs nothing. -/
def State.RowAtRest (s : State) (d : Nat) : Prop :=
  isRowDom d = true ∧ s.ergLive (domDie d) = true ∧ (s.row d).waking = false ∧ (s.row d).crestDue = false ∧ (s.row d).leeDue = false ∧
    ∀ n ∈ domTiles d, (s.tile n).core = none ∧ (s.tile n).starts = [] ∧ (s.tile n).flight = []

theorem State.rowQuiet_iff : s.rowQuiet d = true ↔ s.RowAtRest d := by
  unfold State.rowQuiet State.rowIdle State.RowAtRest
  simp only [Bool.and_eq_true, Bool.not_eq_true', List.all_eq_true, Option.isNone_iff_eq_none, decide_eq_true_eq, and_assoc]

/-- Nothing asks for the row, and it has been idle long enough. -/
def State.Deep (s : State) (d idle : Nat) : Prop :=
  s.rowReserved d = false ∧ s.slip.st = .idle ∧ ((s.row d).idleHint = true ∨ (s.row d).idleSince + idle ≤ s.time.now) ∧ ∀ b, (s.row d).busyUntil = some b → b ≤ s.time.now

theorem State.rowDeep_iff (idle : Nat) (below : 1 ≤ (s.row d).state) : s.rowDeep d idle = true ↔ s.Deep d idle := by
  unfold State.rowDeep State.Deep
  dsimp only
  cases (s.row d).busyUntil <;> simp [below, and_assoc]

/-- Every wake limit of some rows holds for an exit latency. -/
def State.Fits (s : State) (rows : List Nat) (ns : Nat) : Prop := ∀ l ∈ s.rowLimits rows, ns ≤ l

theorem State.latencyOk_iff (rows : List Nat) (ns : Nat) : s.latencyOk rows ns = true ↔ s.Fits rows ns := by
  unfold State.latencyOk State.Fits
  simp only [List.all_eq_true, decide_eq_true_eq]

/-- No bank of the row's tiles changes, and nothing is loaded. -/
def State.Still (s : State) (d : Nat) : Prop := (∀ n ∈ domTiles d, (s.tile n).retiring = none ∧ (s.tile n).refreshing = false) ∧ s.loading = false

theorem State.rowSteady_iff : s.rowSteady d = true ↔ s.Still d := by
  unfold State.rowSteady State.Still
  simp only [Bool.and_eq_true, Bool.not_eq_true', List.all_eq_true, Option.isNone_iff_eq_none]

/-- A row may enter A1, A2, A3, or the passage into A3 that MESA_RST_DOMAIN asks for. -/
def State.MayA1 (s : State) (d : Nat) : Prop := s.RowAtRest d ∧ (s.row d).state = 0 ∧ s.Fits [d] (250 + s.commonNs (domDie d))
def State.MayA2 (s : State) (d : Nat) : Prop :=
  s.RowAtRest d ∧ (s.row d).state = 1 ∧ (s.reg 0x1008).getLsbD 16 = true ∧ s.Deep d (10000 * fld (s.reg 0x1008) 7 0) ∧ s.Fits [d] (12000 + s.commonNs (domDie d))
def State.MayA3 (s : State) (d : Nat) : Prop :=
  s.RowAtRest d ∧ ((s.row d).state = 1 ∨ (s.row d).state = 2) ∧ (s.reg 0x1008).getLsbD 17 = true ∧ (s.row d).noA3 = false ∧ s.Still d ∧ s.Deep d (1000000 * fld (s.reg 0x1008) 15 8) ∧
    s.Fits (s.a3Set (domDie d) ++ [d]) (s.a3Latency (domDie d) (s.a3Set (domDie d) ++ [d]))
def State.Passes (s : State) (d : Nat) : Prop := (s.row d).passage = true ∧ s.RowAtRest d ∧ s.Still d

theorem State.mayA1_iff : (s.rowQuiet d = true ∧ (s.row d).state = 0 ∧ s.latencyOk [d] (s.exitNs d 1) = true) ↔ s.MayA1 d := by
  rw [State.rowQuiet_iff, State.latencyOk_iff]
  rfl

theorem State.mayA2_iff : (s.rowQuiet d = true ∧ (s.row d).state = 1 ∧ bit (s.reg 0x1008) 16 = true ∧ s.rowDeep d (10000 * fld (s.reg 0x1008) 7 0) = true ∧ s.latencyOk [d] (s.exitNs d 2) = true) ↔ s.MayA2 d := by
  rw [State.rowQuiet_iff, State.latencyOk_iff]
  exact and_congr_right fun _ => and_congr_right fun one => and_congr_right fun _ => and_congr_left fun _ => s.rowDeep_iff d _ (Nat.le_of_eq one.symm)

theorem State.mayA3_iff : (s.rowQuiet d = true ∧ ((s.row d).state = 1 ∨ (s.row d).state = 2) ∧ bit (s.reg 0x1008) 17 = true ∧ (!(s.row d).noA3) = true ∧ s.rowSteady d = true ∧
    s.rowDeep d (1000000 * fld (s.reg 0x1008) 15 8) = true ∧ s.latencyOk (s.a3Set (domDie d) ++ [d]) (s.a3Latency (domDie d) (s.a3Set (domDie d) ++ [d])) = true) ↔ s.MayA3 d := by
  rw [State.rowQuiet_iff, State.latencyOk_iff, State.rowSteady_iff, Bool.not_eq_true']
  exact and_congr_right fun _ => and_congr_right fun deep => and_congr_right fun _ => and_congr_right fun _ => and_congr_right fun _ => and_congr_left fun _ => s.rowDeep_iff d _ (by omega)

theorem State.passes_iff : ((s.row d).passage = true ∧ s.rowQuiet d = true ∧ s.rowSteady d = true) ↔ s.Passes d := by
  rw [State.rowQuiet_iff, State.rowSteady_iff]
  rfl

/-! ### What entering a state does -/

/-- The row's tiles have lost their buffers; the others, the words and the reservoir are as before. -/
def State.Dropped (s u : State) (d : Nat) : Prop :=
  (∀ n ∈ domTiles d, (u.tile n).abuf = [] ∧ (u.tile n).valid = 0 ∧ (u.tile n).plane = none ∧ (u.tile n).ports = (s.tile n).ports) ∧ (∀ n, n ∉ domTiles d → u.tile n = s.tile n) ∧ u.regs = s.regs ∧ u.resv = s.resv

/-- Both banks of the row's tiles are empty, but for their digests. -/
def State.Emptied (s u : State) (d : Nat) : Prop := ∀ n ∈ domTiles d, ∀ h, (u.tile n).half h = { digest := ((s.tile n).half h).digest }

/-- The row in a state, its buffers dropped. -/
theorem State.enterRow_dropped (state : Nat) :
    s.RowIs ((s.enterRow d state).dropBuffers d) d ((s.row d).entered state s.time.now) ∧ s.Dropped ((s.enterRow d state).dropBuffers d) d ∧
      ∀ n ∈ domTiles d, (((s.enterRow d state).dropBuffers d).tile n).halves = (s.tile n).halves := by
  have rest := (s.enterRow d state).dropBuffers_rest d
  have tile (n : Nat) : ((s.enterRow d state).dropBuffers d).tile n = if n ∈ domTiles d then (s.tile n).dropped else s.tile n := State.dropBuffers_tile _ d n
  refine ⟨(s.enterRow_is d state).kept rest.power rest.jobs, ⟨fun n own => ?_, fun n other => ?_, rest.regs, rest.resv⟩, fun n own => ?_⟩
  · rw [tile, if_pos own]
    exact ⟨rfl, rfl, rfl, rfl⟩
  · rw [tile, if_neg other]
  · rw [tile, if_pos own]
    rfl

variable {s} {d} in
/-- Then its banks are lost too. -/
theorem State.Dropped.lost {x : State} {r : Row} (is : s.RowIs x d r) (dropped : s.Dropped x d) (halves : ∀ n ∈ domTiles d, (x.tile n).halves = (s.tile n).halves) :
    s.RowIs (x.loseBanks d) d r ∧ s.Dropped (x.loseBanks d) d ∧ s.Emptied (x.loseBanks d) d := by
  have rest := x.loseBanks_rest d
  have tile := x.loseBanks_tile d
  obtain ⟨own, other, regs, resv⟩ := dropped
  refine ⟨is.kept rest.power rest.jobs, ⟨fun n among => ?_, fun n among => ?_, rest.regs.trans regs, rest.resv.trans resv⟩, fun n among h => ?_⟩
  · rw [tile, if_pos among]
    exact own n among
  · rw [tile, if_neg among]
    exact other n among
  · rw [tile, if_pos among, Tile.bankless_half]
    unfold Tile.half
    rw [halves n among]

/-- The row in A3, buffers and banks lost. -/
theorem State.enterA3_lost : s.RowIs (((s.enterRow d 3).dropBuffers d).loseBanks d) d ((s.row d).entered 3 s.time.now) ∧
    s.Dropped (((s.enterRow d 3).dropBuffers d).loseBanks d) d ∧ s.Emptied (((s.enterRow d 3).dropBuffers d).loseBanks d) d := by
  obtain ⟨is, dropped, halves⟩ := s.enterRow_dropped d 3
  exact dropped.lost is halves

theorem State.wakeRow_asleep (deep : (s.row d).state ≠ 0) (still : (s.row d).waking = false) : s.wakeRow d = s.setRow d { s.row d with
    waking := true, wakeAt := s.time.now, late := false, wakeSet := if (s.row d).state = 3 then s.a3Set (domDie d) else []
    wakeCommon := s.power.commonA1.toList.getD (domDie d) false } := if_neg (by rw [still]; simp [deep])

variable {s} {d} in
/-- A wake request changes no tile, word or byte of the reservoir. -/
theorem State.Dropped.woken {x : State} (h : s.Dropped x d) : s.Dropped (x.wakeRow d) d := by
  obtain ⟨p, wakes⟩ := x.wakeRow_eq d
  rw [wakes]
  exact h

variable {s} {d} in
theorem State.Emptied.woken {x : State} (h : s.Emptied x d) : s.Emptied (x.wakeRow d) d := by
  obtain ⟨p, wakes⟩ := x.wakeRow_eq d
  rw [wakes]
  exact h

/-- A row in A3 that wakes. -/
theorem State.wakeRow_lost {x : State} (deep : (x.row d).state = 3) (still : (x.row d).waking = false) :
    ((x.wakeRow d).row d).state = 3 ∧ ((x.wakeRow d).row d).passage = (x.row d).passage ∧ ((x.wakeRow d).row d).waking = true := by
  rw [x.wakeRow_asleep d (by rw [deep]; decide) still, State.setRow_row, if_pos rfl]
  exact ⟨deep, rfl, rfl⟩

/-- The passage into A3 wakes the row at once. -/
theorem State.rowPassage_results (quiet : s.RowAtRest d) :
    ((s.rowPassage d).row d).state = 3 ∧ ((s.rowPassage d).row d).passage = false ∧ ((s.rowPassage d).row d).waking = true ∧ s.Dropped (s.rowPassage d) d ∧ s.Emptied (s.rowPassage d) d := by
  obtain ⟨-, -, still, -⟩ := quiet
  have own : (s.setRow d { s.row d with passage := false }).row d = { s.row d with passage := false } := (s.setRow_row d _ d).trans (if_pos rfl)
  obtain ⟨⟨is, -⟩, dropped, emptied⟩ := (s.setRow d { s.row d with passage := false }).enterA3_lost d
  rw [own] at is
  obtain ⟨state, passage, waking⟩ := State.wakeRow_lost d (congrArg Row.state is) ((congrArg Row.waking is).trans still)
  exact ⟨state, passage.trans (congrArg Row.passage is), waking, dropped.woken, emptied.woken⟩

end Sys2Proof.Machine
end

section
/-! SUPPORT. Oases: their states after a change, an excursion and a window (13 R350 to R355), for obligation O47. -/

namespace Sys2Proof.Machine

variable {s u w : State}

/-! ### What adapting an oasis touches -/

/-- `u` is `s` but for the oases, register words, logs, the host link and ports. -/
def State.Adapted (s u : State) : Prop :=
  { u with regs := s.regs, logs := s.logs, link := s.link, ports := s.ports, power := { u.power with tileOasis := s.power.tileOasis, routerOasis := s.power.routerOasis } } = s

theorem State.Adapted.refl (s : State) : s.Adapted s := rfl

theorem State.Adapted.trans (h : s.Adapted u) (h' : u.Adapted w) : s.Adapted w :=
  (congrArg (fun x : State => { x with regs := s.regs, logs := s.logs, link := s.link, ports := s.ports, power := { x.power with tileOasis := s.power.tileOasis, routerOasis := s.power.routerOasis } }) h' :).trans h

theorem State.Adapted.ite {b : Prop} [Decidable b] (h : s.Adapted u) (h' : s.Adapted w) : s.Adapted (if b then u else w) := by split <;> assumption

theorem State.Adapted.foldl {α : Type} (f : State → α → State) (step : ∀ (s : State) a, s.Adapted (f s a)) (l : List α) (s : State) : s.Adapted (l.foldl f s) := by
  induction l generalizing s with
  | nil => exact .refl s
  | cons a l ih => exact (step s a).trans (ih (f s a))

theorem State.Reported.adapted (h : s.Reported u) : s.Adapted u :=
  (congrArg (fun x : State => { x with power := { x.power with tileOasis := s.power.tileOasis, routerOasis := s.power.routerOasis } }) h :)

theorem State.Adapted.rows (h : s.Adapted u) : u.power.rows = s.power.rows := (congrArg (fun x : State => x.power.rows) h :)
theorem State.Adapted.commonA1 (h : s.Adapted u) : u.power.commonA1 = s.power.commonA1 := (congrArg (fun x : State => x.power.commonA1) h :)
theorem State.Adapted.fOn (h : s.Adapted u) : u.power.fOn = s.power.fOn := (congrArg (fun x : State => x.power.fOn) h :)
theorem State.Adapted.temps (h : s.Adapted u) : u.power.temps = s.power.temps := (congrArg (fun x : State => x.power.temps) h :)
theorem State.Adapted.warm (h : s.Adapted u) : u.power.warm = s.power.warm := (congrArg (fun x : State => x.power.warm) h :)
theorem State.Adapted.hot (h : s.Adapted u) : u.power.hot = s.power.hot := (congrArg (fun x : State => x.power.hot) h :)
theorem State.Adapted.tiles (h : s.Adapted u) : u.tiles = s.tiles := (congrArg State.tiles h :)
theorem State.Adapted.jobs (h : s.Adapted u) : u.jobs = s.jobs := (congrArg State.jobs h :)
theorem State.Adapted.live (h : s.Adapted u) : u.live = s.live := (congrArg State.live h :)
theorem State.Adapted.time (h : s.Adapted u) : u.time = s.time := (congrArg State.time h :)
theorem State.Adapted.vmin (h : s.Adapted u) (d : Nat) : u.vmin d = s.vmin d := (congrArg (fun x : State => x.vmin d) h :)
theorem State.Adapted.vmax (h : s.Adapted u) (d : Nat) : u.vmax d = s.vmax d := (congrArg (fun x : State => x.vmax d) h :)
theorem State.Adapted.oasisStart (h : s.Adapted u) (o : Oasis) : u.oasisStart o = s.oasisStart o := (congrArg (fun x : State => x.oasisStart o) h :)

theorem State.Adapted.row (h : s.Adapted u) (d : Nat) : u.row d = s.row d := congrArg (fun m => mget (fun _ => ({} : Row)) m d) h.rows

/-! ### The state of an oasis -/

theorem find?_mins {α : Type} (k n : Nat) (v : α) (m : SMap α) : (mins k v m).find? (fun e => decide (e.1 = n)) = if n = k then some (k, v) else m.find? fun e => decide (e.1 = n) := by
  have own (l : SMap α) : ((k, v) :: l).find? (fun e => decide (e.1 = n)) = if n = k then some (k, v) else l.find? fun e => decide (e.1 = n) := by
    by_cases same : k = n
    · rw [List.find?_cons_of_pos (by rw [decide_eq_true_eq]; exact same), if_pos same.symm]
    · rw [List.find?_cons_of_neg (by rw [decide_eq_true_eq]; exact same), if_neg fun e => same e.symm]
  induction m with
  | nil => exact own []
  | cons e m ih =>
    obtain ⟨j, w⟩ := e
    rw [mins]
    split
    · exact own _
    · split
      · next same =>
        subst same
        rw [own]
        by_cases here : n = k
        · rw [if_pos here, if_pos here]
        · rw [if_neg here, if_neg here, List.find?_cons_of_neg (by rw [decide_eq_true_eq]; exact fun e => here e.symm)]
      · next other =>
        by_cases here : j = n
        · rw [List.find?_cons_of_pos (by rw [decide_eq_true_eq]; exact here), List.find?_cons_of_pos (by rw [decide_eq_true_eq]; exact here), if_neg (by omega)]
        · rw [List.find?_cons_of_neg (by rw [decide_eq_true_eq]; exact here), ih, List.find?_cons_of_neg (by rw [decide_eq_true_eq]; exact here)]

variable (s) (o : Oasis)

/-- The entry of an oasis in the power control. -/
def State.oasisEntry (s : State) : Oasis → Option (Nat × OasisSt)
  | .tile t => s.power.tileOasis.find? fun e => decide (e.1 = t.val)
  | .router t => s.power.routerOasis.find? fun e => decide (e.1 = t.val)

theorem State.oasis_eq : s.oasis o = match s.oasisEntry o with | some e => e.2 | none => s.oasisStart o := by
  cases o <;> rfl

theorem State.setOasis_adapted (x : OasisSt) : s.Adapted (s.setOasis o x) := by
  cases o <;> rfl

theorem State.oasisEntry_setOasis (x : OasisSt) (p : Oasis) : (s.setOasis o x).oasisEntry p = if p = o then some ((match o with | .tile t => t.val | .router t => t.val), x) else s.oasisEntry p := by
  cases o with
  | tile t =>
    cases p with
    | tile n => exact (find?_mins t n x _).trans (if_congr (by rw [Oasis.tile.injEq, Fin.ext_iff]) rfl rfl)
    | router n => rw [if_neg (by simp)]; rfl
  | router t =>
    cases p with
    | tile n => rw [if_neg (by simp)]; rfl
    | router n => exact (find?_mins t n x _).trans (if_congr (by rw [Oasis.router.injEq, Fin.ext_iff]) rfl rfl)

/-- An oasis reads what was set, and the others what they were. -/
theorem State.setOasis_oasis (x : OasisSt) (p : Oasis) : (s.setOasis o x).oasis p = if p = o then x else s.oasis p := by
  rw [State.oasis_eq, State.oasisEntry_setOasis]
  by_cases same : p = o
  · rw [if_pos same, if_pos same]
  · rw [if_neg same, if_neg same, (s.setOasis_adapted o x).oasisStart, s.oasis_eq]

theorem State.setOasis_own (x : OasisSt) : (s.setOasis o x).oasis o = x := (s.setOasis_oasis o x o).trans (if_pos rfl)
theorem State.setOasis_other (x : OasisSt) (p : Oasis) (ne : p ≠ o) : (s.setOasis o x).oasis p = s.oasis p := (s.setOasis_oasis o x p).trans (if_neg ne)

variable {s} in
theorem State.Reported.oasis (h : s.Reported u) (p : Oasis) : u.oasis p = s.oasis p := (congrArg (fun x : State => x.oasis p) h :)

/-! ### Excursions (R355) -/

theorem State.reported_pwrFlag (b : Nat) : s.Reported (s.pwrFlag b) := .ite ((s.reported_setFlag _ _).trans (State.reported_countByte _ _ _)) (s.reported_setFlag _ _)
theorem State.reported_overridden (kind value : Nat) : s.Reported (s.overridden o kind value) := (s.reported_pwrFlag 0).trans (State.reported_fault _ _ _ _)

/-- Words of the power control that its flags leave. -/
theorem State.pwrFlag_reg (b a : Nat) (flags : a ≠ 0x1000) (counts : a ≠ 0x1004) : (s.pwrFlag b).reg a = s.reg a := by
  unfold State.pwrFlag
  dsimp only
  split
  · rw [State.countByte_reg_ne _ _ _ _ (by omega), State.setFlag_reg_ne _ _ _ _ flags]
  · exact s.setFlag_reg_ne _ _ _ flags

theorem State.overridden_reg (kind value a : Nat) (flags : a ≠ 0x1000) (counts : a ≠ 0x1004) : (s.overridden o kind value).reg a = s.reg a := by
  have info (f : FaultInfo) (mild : f.sev = 0) (k : Nat) : ((s.pwrFlag 0).fault k none f).reg a = (s.pwrFlag 0).reg a :=
    congrArg (mget regReset · a) (State.fault_recorded _ k none f mild).regs
  unfold State.overridden
  dsimp only
  rw [info _ (by cases o <;> rfl), s.pwrFlag_reg 0 a flags counts]

theorem State.excursion_adapted (kind value : Nat) (out : Bool) : s.Adapted (s.excursion o kind value out) := by
  unfold State.excursion
  dsimp only
  split
  · split
    · exact .refl s
    · exact (s.setOasis_adapted o _).trans (State.reported_overridden _ o kind value).adapted
  · exact .ite (s.setOasis_adapted o _) (.refl s)

theorem State.excursion_reg (kind value : Nat) (out : Bool) (a : Nat) (flags : a ≠ 0x1000) (counts : a ≠ 0x1004) : (s.excursion o kind value out).reg a = s.reg a := by
  unfold State.excursion
  dsimp only
  split
  · split
    · rfl
    · exact (State.overridden_reg _ o kind value a flags counts).trans rfl
  · split <;> rfl

/-- An excursion notes itself in its oasis, and changes nothing else of any. -/
theorem State.excursion_oasis (kind value : Nat) (out : Bool) : (∃ l, (s.excursion o kind value out).oasis o = { s.oasis o with excursions := l }) ∧ ∀ p, p ≠ o → (s.excursion o kind value out).oasis p = s.oasis p := by
  have same : ∃ l, s.oasis o = { s.oasis o with excursions := l } := ⟨_, rfl⟩
  have put (l : List Nat) : (s.setOasis o { s.oasis o with excursions := l }).oasis o = { s.oasis o with excursions := l } := s.setOasis_own o _
  have other (l : List Nat) (p : Oasis) (ne : p ≠ o) : (s.setOasis o { s.oasis o with excursions := l }).oasis p = s.oasis p := s.setOasis_other o _ p ne
  unfold State.excursion
  dsimp only
  split
  · split
    · exact ⟨same, fun _ _ => rfl⟩
    · have report (l : List Nat) := State.reported_overridden (s.setOasis o { s.oasis o with excursions := l }) o kind value
      exact ⟨⟨_, ((report _).oasis o).trans (put _)⟩, fun p ne => ((report _).oasis p).trans (other _ p ne)⟩
  · split
    · exact ⟨⟨_, put _⟩, fun p ne => other _ p ne⟩
    · exact ⟨same, fun _ _ => rfl⟩

end Sys2Proof.Machine
end

section
/-! SUPPORT. The restores of a row out of A3, and the writes held for it (13 R326, R340), for obligation O47. -/

namespace Sys2Proof.Machine

variable {s u w : State}

/-! ### What a restore touches -/

/-- `u` is `s` but for tiles that meet a test, the word of PWR_STS, held writes and expected checksums. -/
structure State.Refilled (s u : State) (touched : Nat → Prop) : Prop where
  frame : { u with regs := s.regs, tiles := s.tiles, heldWrites := s.heldWrites, loader := { u.loader with expect := s.loader.expect } } = s
  words : ∀ a, a ≠ 0x1000 → u.reg a = s.reg a
  others : ∀ n, ¬ touched n → u.tile n = s.tile n

variable {p q : Nat → Prop}

theorem State.Refilled.refl (s : State) (p : Nat → Prop) : s.Refilled s p := ⟨rfl, fun _ _ => rfl, fun _ _ => rfl⟩

theorem State.Refilled.trans (h : s.Refilled u p) (h' : u.Refilled w p) : s.Refilled w p :=
  ⟨(congrArg (fun x : State => { x with regs := s.regs, tiles := s.tiles, heldWrites := s.heldWrites, loader := { x.loader with expect := s.loader.expect } }) h'.frame :).trans h.frame,
    fun a ne => (h'.words a ne).trans (h.words a ne), fun n not_ => (h'.others n not_).trans (h.others n not_)⟩

theorem State.Refilled.mono (h : s.Refilled u p) (wider : ∀ n, p n → q n) : s.Refilled u q := ⟨h.frame, h.words, fun n not_ => h.others n fun own => not_ (wider n own)⟩

theorem State.Refilled.power (h : s.Refilled u p) : u.power = s.power := (congrArg State.power h.frame :)
theorem State.Refilled.jobs (h : s.Refilled u p) : u.jobs = s.jobs := (congrArg State.jobs h.frame :)
theorem State.Refilled.resv (h : s.Refilled u p) : u.resv = s.resv := (congrArg State.resv h.frame :)
theorem State.Refilled.crest (h : s.Refilled u p) : u.loader.crest = s.loader.crest := (congrArg (fun x : State => x.loader.crest) h.frame :)
theorem State.Refilled.lee (h : s.Refilled u p) : u.loader.lee = s.loader.lee := (congrArg (fun x : State => x.loader.lee) h.frame :)

theorem State.Refilled.leeEn (h : s.Refilled u p) (n : Nat) : u.leeEn n = s.leeEn n := by
  unfold State.leeEn tileBase
  rw [h.words _ (by omega)]

theorem State.Refilled.crestHalf (h : s.Refilled u p) (n : Nat) : u.crestHalf n = s.crestHalf n := by
  unfold State.crestHalf tileBase
  rw [h.words _ (by omega)]

theorem State.Refilled.leeHalf (h : s.Refilled u p) (n : Nat) : u.leeHalf n = s.leeHalf n := congrArg (1 - ·) (h.crestHalf n)

/-- Every digest stays. -/
def State.DigestsKept (s u : State) : Prop := ∀ n h, ((u.tile n).half h).digest = ((s.tile n).half h).digest

theorem State.DigestsKept.trans (h : s.DigestsKept u) (h' : u.DigestsKept w) : s.DigestsKept w := fun n k => (h' n k).trans (h n k)

/-- Where two banks are there, crest stays. -/
def State.CrestBanks (s u : State) : Prop := ∀ n, s.leeEn n = true → (u.tile n).half (s.crestHalf n) = (s.tile n).half (s.crestHalf n)

theorem State.CrestBanks.trans (h : s.CrestBanks u) (same : s.Refilled u p) (h' : u.CrestBanks w) : s.CrestBanks w := fun n two => by
  have later := h' n ((same.leeEn n).trans two)
  rw [same.crestHalf] at later
  exact later.trans (h n two)

/-! ### Writes into one bank -/

theorem Tile.half_setHalf_iff (x : Tile) (h k : Nat) (b : TileBank) : (x.setHalf h b).half k = if (h = 0 ↔ k = 0) then b else x.half k := by
  unfold Tile.setHalf Tile.half
  by_cases zero : h = 0
  · by_cases none_ : k = 0 <;> simp [zero, none_]
  · by_cases none_ : k = 0 <;> simp [zero, none_]

variable (s)

theorem State.modHalf_refilled (t h : Nat) (f : TileBank → TileBank) : s.Refilled (s.modHalf t h f) (· = t) :=
  ⟨rfl, fun _ _ => rfl, fun n ne => (s.tile_modTile t n _).trans (if_neg ne)⟩

theorem State.modHalf_digests (t h : Nat) (f : TileBank → TileBank) (keeps : ∀ b, (f b).digest = b.digest) : s.DigestsKept (s.modHalf t h f) := by
  intro n k
  unfold State.modHalf
  rw [State.tile_modTile]
  split
  · next same =>
    subst same
    rw [Tile.half_setHalf_iff]
    split
    · next alike =>
      have half : (s.tile n).half h = (s.tile n).half k := by
        unfold Tile.half
        exact if_congr alike rfl rfl
      rw [keeps, half]
    · rfl
  · rfl

theorem TileBank.putBed_digest (b : TileBank) (c : Chunk) (bad : Nat → Bool) : (b.putBed c bad).digest = b.digest := by
  unfold TileBank.putBed
  split <;> rfl

theorem TileBank.putTable_digest (b : TileBank) (c : Chunk) : (b.putTable c).digest = b.digest := by
  have codes (l : List Nat) (f g : Nat → Nat) (b : TileBank) : (l.foldl (fun (b : TileBank) i => b.setCb (f i) (g i)) b).digest = b.digest := by
    induction l generalizing b with
    | nil => rfl
    | cons i l ih => exact ih _
  unfold TileBank.putTable
  split
  · exact codes _ _ _ b
  · rfl
  · rfl

/-- Writes into banks of tile `t`: the digests stay, and with `lee` so does crest. -/
def State.BankWrite (s u : State) (t : Nat) (lee : Bool) : Prop := s.Refilled u (· = t) ∧ s.DigestsKept u ∧ (lee = true → s.CrestBanks u)

theorem State.BankWrite.refl (s : State) (t : Nat) (lee : Bool) : s.BankWrite s t lee := ⟨.refl s _, fun _ _ => rfl, fun _ _ _ => rfl⟩

variable {s} in
theorem State.BankWrite.trans {t : Nat} {lee : Bool} (h : s.BankWrite u t lee) (h' : u.BankWrite w t lee) : s.BankWrite w t lee :=
  ⟨h.1.trans h'.1, h.2.1.trans h'.2.1, fun on => (h.2.2 on).trans h.1 (h'.2.2 on)⟩

/-- A chain of writes, each into the half that the first would write. -/
theorem State.BankWrite.foldl {α : Type} {t : Nat} {lee : Bool} (f : State → α → State) (l : List α)
    (step : ∀ (u : State), (∀ n, u.leeHalf n = s.leeHalf n) → ∀ x ∈ l, u.BankWrite (f u x) t lee) : s.BankWrite (l.foldl f s) t lee := by
  have chain (l' : List α) (sub : ∀ x ∈ l', x ∈ l) (u : State) (same : ∀ n, u.leeHalf n = s.leeHalf n) : u.BankWrite (l'.foldl f u) t lee := by
    induction l' generalizing u with
    | nil => exact .refl u t lee
    | cons x l' ih =>
      have one := step u same x (sub x List.mem_cons_self)
      exact one.trans (ih (fun y among => sub y (List.mem_cons_of_mem x among)) _ fun n => (one.1.leeHalf n).trans (same n))
  exact chain l (fun _ => id) s fun _ => rfl

theorem State.modHalf_write (t h : Nat) (f : TileBank → TileBank) (lee : Bool) (keeps : ∀ b, (f b).digest = b.digest) (half : lee = true → s.leeEn t = true → h = s.leeHalf t) :
    s.BankWrite (s.modHalf t h f) t lee :=
  ⟨s.modHalf_refilled t h f, s.modHalf_digests t h f keeps, fun on => (s.crestKept_modHalf t h f (half on)).bank⟩

theorem State.pwrFlag_write (t : Nat) (lee : Bool) : s.BankWrite (s.pwrFlag 5) t lee :=
  ⟨⟨rfl, fun _ ne => s.setFlag_reg_ne _ _ _ ne, fun _ _ => rfl⟩, fun _ _ => rfl, fun _ _ _ => rfl⟩

theorem State.putStored_write (h : Nat) (i : Image) (x : Nat × Chunk) (lee : Bool) (half : lee = true → h = s.leeHalf x.2.tile) : s.BankWrite (s.putStored h i x) x.2.tile lee := by
  unfold State.putStored State.putChunk
  split
  · exact s.modHalf_write _ _ _ lee (fun b => b.putBed_digest _ _) fun on two => by rw [State.bedHalf, if_pos two, half on]
  · exact s.modHalf_write _ _ _ lee (fun b => b.putTable_digest _) fun on _ => half on

/-! ### The restore of one tile (R340) -/

theorem State.restoreBank_write (t h : Nat) (bed : Bool) (l : List Image) (lee : Bool) (half : lee = true → h = s.leeHalf t ∧ bed = false) : s.BankWrite (s.restoreBank t h bed l) t lee := by
  have cleared (u : State) (same : ∀ n, u.leeHalf n = s.leeHalf n) : u.BankWrite (u.modHalf t h fun b => if bed ∨ u.leeEn t then b.lost else { b with cb := [], scale := [], slots := [] }) t lee :=
    u.modHalf_write t h _ lee (fun b => by split <;> rfl) fun on _ => (half on).1.trans (same t).symm
  have emptied (u : State) : u.BankWrite (if bed ∧ !u.leeEn t then u.modHalf t 0 fun b => { b with wbed := [], imem := [], wbedPoison := [], imemPoison := [] } else u) t lee := by
    split
    · next both => exact u.modHalf_write t 0 _ lee (fun _ => rfl) fun on _ => absurd both.1 (by rw [(half on).2]; decide)
    · exact .refl u t lee
  have flagged (u : State) (b : Bool) : u.BankWrite (if b then u.pwrFlag 5 else u) t lee := by
    cases b
    · exact .refl u t lee
    · exact u.pwrFlag_write t lee
  have filled (i : Image) (mine : List (Nat × Chunk)) (all : ∀ x ∈ mine, x.2.tile = t) (u : State) (same : ∀ n, u.leeHalf n = s.leeHalf n) :
      u.BankWrite (mine.foldl (fun s x => s.putStored h i x) u) t lee :=
    .foldl u _ mine fun v lees x among => all x among ▸ v.putStored_write h i x lee fun on => (half on).1.trans (by rw [all x among, lees, same])
  have start := (cleared s fun _ => rfl).trans (emptied _)
  refine start.trans (.foldl _ _ l fun u same i _ => ?_)
  have lees (n : Nat) : u.leeHalf n = s.leeHalf n := (same n).trans (start.1.leeHalf n)
  refine (flagged u _).trans (filled i _ (fun x among => ?_) _ fun n => ((flagged u _).1.leeHalf n).trans (lees n))
  exact of_decide_eq_true ((Bool.and_eq_true _ _ ▸ (List.mem_filter.mp among).2 :).1)

/-- Both banks of a tile have a claim, or neither has. -/
def State.Claimed (s : State) (n : Nat) : Prop := ¬ (claimedBy s.loader.crest.toList n = [] ∧ claimedBy s.loader.lee.toList n = [])

theorem State.restoreCrest_free (t : Nat) (free : ¬ s.Claimed t) : s.restoreCrest t = s := if_pos (not_not.mp free)

theorem State.restoreCrest_write (t : Nat) : s.BankWrite (s.restoreCrest t) t false := by
  unfold State.restoreCrest
  dsimp only
  split
  · exact .refl s t false
  · exact s.restoreBank_write t _ true _ false fun on => absurd on Bool.false_ne_true

theorem State.restoreLee_write (t : Nat) : s.BankWrite (s.restoreLee t) t true := by
  unfold State.restoreLee
  dsimp only
  split
  · exact .refl s t true
  · exact s.restoreBank_write t _ false _ true fun _ => ⟨rfl, rfl⟩

/-- The writes held for a tile land in its lee. -/
theorem State.releaseTile_write (t : Nat) : s.BankWrite (s.releaseTile t) t true := by
  have word (u : State) (j : Nat) (v : Word) : u.BankWrite (u.cbWord t j v) t true := by
    have half := u.modHalf_write t (u.leeHalf t) (fun b => (b.setCb (2 * j) (fld v 12 0)).setCb (2 * j + 1) (fld v 28 16)) true (fun _ => rfl) fun _ _ => rfl
    exact half.trans ⟨⟨rfl, fun _ _ => rfl, fun _ _ => rfl⟩, fun _ _ => rfl, fun _ _ _ => rfl⟩
  have held (u : State) (l : List HeldWrite) : u.BankWrite { u with heldWrites := l } t true := ⟨⟨rfl, fun _ _ => rfl, fun _ _ => rfl⟩, fun _ _ => rfl, fun _ _ _ => rfl⟩
  unfold State.releaseTile
  split
  · exact .refl s t true
  · exact (held s _).trans (.foldl _ _ _ fun u _ x _ => word u _ _)

/-! ### The restore of a row -/

/-- The crests of a list of tiles. -/
theorem State.restoreCrests (l : List Nat) : s.Refilled (l.foldl (fun s t => s.restoreCrest t) s) (fun n => n ∈ l ∧ s.Claimed n) ∧ s.DigestsKept (l.foldl (fun s t => s.restoreCrest t) s) := by
  induction l generalizing s with
  | nil => exact ⟨.refl s _, fun _ _ => rfl⟩
  | cons t l ih =>
    obtain ⟨refilled, digests, -⟩ := s.restoreCrest_write t
    obtain ⟨rest, later⟩ := ih (s.restoreCrest t)
    have claims (n : Nat) : (s.restoreCrest t).Claimed n ↔ s.Claimed n := by unfold State.Claimed; rw [refilled.crest, refilled.lee]
    refine ⟨.trans (u := s.restoreCrest t) ⟨refilled.frame, refilled.words, fun n free => ?_⟩ (rest.mono fun n own => ⟨List.mem_cons_of_mem t own.1, (claims n).mp own.2⟩), digests.trans later⟩
    by_cases same : n = t
    · subst same
      rw [s.restoreCrest_free n fun claimed => free ⟨List.mem_cons_self, claimed⟩]
    · exact refilled.others n same

/-- Writes into lee, tile by tile. -/
theorem State.leeWrites (f : State → Nat → State) (step : ∀ (u : State) t, u.BankWrite (f u t) t true) (l : List Nat) : s.Refilled (l.foldl f s) (· ∈ l) ∧ s.CrestBanks (l.foldl f s) := by
  induction l generalizing s with
  | nil => exact ⟨.refl s _, fun _ _ => rfl⟩
  | cons t l ih =>
    obtain ⟨refilled, -, banks⟩ := step s t
    obtain ⟨rest, later⟩ := ih (f s t)
    exact ⟨(refilled.mono fun n same => same ▸ List.mem_cons_self).trans (rest.mono fun n among => List.mem_cons_of_mem t among), (banks rfl).trans refilled later⟩

end Sys2Proof.Machine
end

section
/-! SUPPORT. The commands of rows, common and F domains and hints (13 R333, R336 to R342, R345, R347 to R349; 22 R591), for obligation O47. -/

namespace Sys2Proof.Machine

variable {s v : State} {t : Time} {d : Nat}

/-! ### Deeper states -/

theorem exec_rowEnterA1_yes (hv : s.at t = v) (may : v.MayA1 d) : exec (.rowEnterA1 d t) s = .next (v.enterRow d 1) := by
  subst hv
  exact congrArg Host.Outcome.next (if_pos ((s.at t).mayA1_iff d |>.mpr may))

theorem exec_rowEnterA1_no (hv : s.at t = v) (not_ : ¬ v.MayA1 d) : exec (.rowEnterA1 d t) s = .next v := by
  subst hv
  exact congrArg Host.Outcome.next (if_neg fun h => not_ ((s.at t).mayA1_iff d |>.mp h))

theorem exec_rowEnterA2_yes (hv : s.at t = v) (may : v.MayA2 d) : exec (.rowEnterA2 d t) s = .next ((v.enterRow d 2).dropBuffers d) := by
  subst hv
  exact congrArg Host.Outcome.next (if_pos ((s.at t).mayA2_iff d |>.mpr may))

theorem exec_rowEnterA2_no (hv : s.at t = v) (not_ : ¬ v.MayA2 d) : exec (.rowEnterA2 d t) s = .next v := by
  subst hv
  exact congrArg Host.Outcome.next (if_neg fun h => not_ ((s.at t).mayA2_iff d |>.mp h))

theorem exec_rowEnterA3_passes (hv : s.at t = v) (passes : v.Passes d) : exec (.rowEnterA3 d t) s = .next (v.rowPassage d) := by
  subst hv
  exact congrArg Host.Outcome.next (if_pos ((s.at t).passes_iff d |>.mpr passes))

theorem exec_rowEnterA3_yes (hv : s.at t = v) (stays : ¬ v.Passes d) (may : v.MayA3 d) : exec (.rowEnterA3 d t) s = .next (((v.enterRow d 3).dropBuffers d).loseBanks d) := by
  subst hv
  exact congrArg Host.Outcome.next ((if_neg fun h => stays ((s.at t).passes_iff d |>.mp h)).trans (if_pos ((s.at t).mayA3_iff d |>.mpr may)))

theorem exec_rowEnterA3_no (hv : s.at t = v) (stays : ¬ v.Passes d) (not_ : ¬ v.MayA3 d) : exec (.rowEnterA3 d t) s = .next v := by
  subst hv
  exact congrArg Host.Outcome.next ((if_neg fun h => stays ((s.at t).passes_iff d |>.mp h)).trans (if_neg fun h => not_ ((s.at t).mayA3_iff d |>.mp h)))

/-! ### Wakes (R337, R339, R349) -/

/-- The row is there. -/
def State.RowThere (s : State) (d : Nat) : Prop := isRowDom d = true ∧ s.ergLive (domDie d) = true

theorem exec_rowWake_yes (hv : s.at t = v) (there : v.RowThere d) (deep : (v.row d).state ≠ 0) (still : (v.row d).waking = false) :
    exec (.rowWake d t) s = .next (v.setRow d { v.row d with
      waking := true, wakeAt := v.time.now, late := false, wakeSet := if (v.row d).state = 3 then v.a3Set (domDie d) else []
      wakeCommon := v.power.commonA1.toList.getD (domDie d) false }) := by
  subst hv
  exact congrArg Host.Outcome.next ((if_pos there).trans ((s.at t).wakeRow_asleep d deep still))

theorem exec_rowWake_no (hv : s.at t = v) (not_ : ¬ v.RowThere d ∨ (v.row d).state = 0 ∨ (v.row d).waking = true) : exec (.rowWake d t) s = .next v := by
  subst hv
  refine congrArg Host.Outcome.next ?_
  by_cases there : isRowDom d = true ∧ (s.at t).ergLive (domDie d) = true
  · exact (if_pos there).trans (if_pos (not_.resolve_left (not_not.mpr there)))
  · exact if_neg there

/-- The row's oases start again. -/
def State.oasesStarted (s : State) (d : Nat) : State :=
  (domTiles d).foldl (fun s t =>
    if h : t < 512 then
      let o : Oasis := .tile ⟨t, h⟩
      let x := { s.oasisStart o with seen := true }
      (s.setOasis o x).excursion o 1 x.volt (decide (s.vmax d < x.volt))
    else s) s

theorem State.oasesStarted_adapted (s : State) (d : Nat) : s.Adapted (s.oasesStarted d) := by
  refine .foldl _ (fun u n => ?_) _ s
  dsimp only
  split
  · exact (u.setOasis_adapted _ _).trans (State.excursion_adapted _ _ _ _ _)
  · exact .refl u

theorem exec_rowWakeDone_yes (hv : s.at t = v) (row : isRowDom d = true) (waking : (v.row d).waking = true) :
    exec (.rowWakeDone d t) s = .next (let u := v.setRow d { v.row d with state := 0, waking := false, crestDue := decide ((v.row d).state = 3), leeDue := decide ((v.row d).state = 3) }
      if (v.row d).state < 2 then u else u.oasesStarted d) := by
  subst hv
  exact congrArg Host.Outcome.next (if_neg (by rw [row, waking]; decide))

theorem exec_rowWakeDone_no (hv : s.at t = v) (not_ : isRowDom d = false ∨ (v.row d).waking = false) : exec (.rowWakeDone d t) s = .next v := by
  subst hv
  exact congrArg Host.Outcome.next (if_pos (not_.imp (fun h => by rw [h]; rfl) (fun h => by rw [h]; rfl)))

/-- The row after its wake, whatever its oases do. -/
theorem State.wakeDone_results (x : Row) (b : Prop) [Decidable b] : v.RowIs (if b then v.setRow d x else (v.setRow d x).oasesStarted d) d x ∧ (if b then v.setRow d x else (v.setRow d x).oasesStarted d).tiles = v.tiles := by
  have is := v.setRow_is d x
  split
  · exact ⟨is, rfl⟩
  · have adapted := (v.setRow d x).oasesStarted_adapted d
    obtain ⟨own, others, common, fOn, jobs⟩ := is
    exact ⟨⟨(adapted.row d).trans own, fun e ne => (adapted.row e).trans (others e ne), adapted.commonA1.trans common, adapted.fOn.trans fOn, adapted.jobs.trans jobs⟩, adapted.tiles⟩

/-- A wake beyond its latency (R349). -/
def State.WakesLate (s : State) (d : Nat) : Prop :=
  isRowDom d = true ∧ ((s.row d).waking = true ∨ (s.row d).crestDue = true) ∧ (s.row d).late = false ∧ (s.row d).wakeAt + s.countedNs d < s.time.now

theorem State.wakesLate_iff (s : State) (d : Nat) : ((!isRowDom d) = true ∨ (!((s.row d).waking || (s.row d).crestDue)) = true ∨ (s.row d).late = true ∨ s.time.now ≤ (s.row d).wakeAt + s.countedNs d) ↔ ¬ s.WakesLate d := by
  unfold State.WakesLate
  simp only [Bool.not_eq_true', not_and_or, Bool.not_eq_true, Bool.not_eq_false, not_lt, Bool.or_eq_false_iff, not_or]

/-- The late wake is noted. -/
def State.lateNoted (s : State) (d : Nat) : State :=
  ((s.setRow d { s.row d with late := true }).pwrFlag 1).fault (s.serving (domDie d)) none { cls := 0x0007, sev := 2, kind := 1, index := domDie d, detail := d }

theorem exec_wakeLate_yes (hv : s.at t = v) (late : v.WakesLate d) : exec (.wakeLate d t) s = .next (v.lateNoted d) := by
  subst hv
  exact congrArg Host.Outcome.next (if_neg fun h => (s.at t).wakesLate_iff d |>.mp h late)

theorem exec_wakeLate_no (hv : s.at t = v) (not_ : ¬ v.WakesLate d) : exec (.wakeLate d t) s = .next v := by
  subst hv
  exact congrArg Host.Outcome.next (if_pos ((s.at t).wakesLate_iff d |>.mpr not_))

theorem State.pwrFlag_bit (s : State) (b : Nat) (h : b < 32) : ((s.pwrFlag b).reg 0x1000).getLsbD b = true := by
  unfold State.pwrFlag
  dsimp only
  split
  · next few =>
    rw [State.countByte_reg_ne _ _ _ _ (by omega), s.setFlag_bit _ _ h]
  · exact s.setFlag_bit _ _ h

theorem State.lateNoted_results (s : State) (d : Nat) : ((s.lateNoted d).reg 0x1000).getLsbD 1 = true ∧ (s.lateNoted d).logs.made.length = s.logs.made.length + 1 ∧
    s.RowIs (s.lateNoted d) d { s.row d with late := true } ∧ (s.lateNoted d).tiles = s.tiles := by
  have report : (s.setRow d { s.row d with late := true }).Reported (s.lateNoted d) := (State.reported_pwrFlag _ 1).trans (State.reported_fault _ _ _ _)
  refine ⟨?_, ?_, (s.setRow_is d _).kept (congrArg State.power report :) report.jobs, report.tiles⟩
  · unfold State.lateNoted
    rw [State.fault_reg _ (by decide) _ _ _ (show (2 : Nat) < 5 by decide), State.pwrFlag_bit _ 1 (by decide)]
  · exact (State.fault_made _ _ _ _).trans rfl

/-! ### Restores (R340) -/

theorem exec_rowCrestRestored_no (hv : s.at t = v) (none_ : (v.row d).crestDue = false) : exec (.rowCrestRestored d t) s = .next v := by
  subst hv
  exact congrArg Host.Outcome.next (if_pos (by rw [none_]; rfl))

theorem exec_rowCrestRestored_yes (hv : s.at t = v) (due : (v.row d).crestDue = true) :
    exec (.rowCrestRestored d t) s = .next (let u := (domTiles d).foldl (fun s t => s.restoreCrest t) v
      u.setRow d { u.row d with crestDue := false }) := by
  subst hv
  exact congrArg Host.Outcome.next (if_neg (by rw [due]; decide))

theorem State.Refilled.rowIs {u : State} {p : Nat → Prop} (h : v.Refilled u p) (x : Row) : v.RowIs (u.setRow d x) d x :=
  State.RowIs.trans (u := u) ⟨rfl, fun e _ => congrArg (fun q : Power => mget (fun _ => ({} : Row)) q.rows e) h.power, congrArg Power.commonA1 h.power, congrArg Power.fOn h.power, h.jobs⟩ (u.setRow_is d x)

theorem State.Refilled.row {u : State} {p : Nat → Prop} (h : v.Refilled u p) (e : Nat) : u.row e = v.row e := congrArg (fun q : Power => mget (fun _ => ({} : Row)) q.rows e) h.power

/-- The row once its crest is restored. -/
theorem State.crestRestored_results (v : State) (d : Nat) :
    let w := (domTiles d).foldl (fun s t => s.restoreCrest t) v
    let u := w.setRow d { w.row d with crestDue := false }
    v.RowIs u d { v.row d with crestDue := false } ∧ u.resv = v.resv ∧ (∀ n, n ∉ domTiles d → u.tile n = v.tile n) ∧
      (∀ n ∈ domTiles d, claimedBy v.loader.crest.toList n = [] → claimedBy v.loader.lee.toList n = [] → u.tile n = v.tile n) ∧ ∀ n h, ((u.tile n).half h).digest = ((v.tile n).half h).digest := by
  obtain ⟨refilled, digests⟩ := v.restoreCrests (domTiles d)
  generalize (domTiles d).foldl (fun s t => s.restoreCrest t) v = w at refilled digests ⊢
  dsimp only
  have row : { w.row d with crestDue := false } = { v.row d with crestDue := false } := congrArg (fun x : Row => { x with crestDue := false }) (refilled.row d)
  refine ⟨row ▸ refilled.rowIs { w.row d with crestDue := false }, refilled.resv, fun n out => refilled.others n fun own => out own.1, fun n _ crest lee => refilled.others n fun own => own.2 ⟨crest, lee⟩, digests⟩

theorem exec_rowLeeRestored_no (hv : s.at t = v) (none_ : (v.row d).crestDue = true ∨ (v.row d).leeDue = false) : exec (.rowLeeRestored d t) s = .next v := by
  subst hv
  exact congrArg Host.Outcome.next (if_pos (none_.imp id fun h => by rw [h]; rfl))

/-- The row once its lee is restored, and the writes held for it have landed. -/
def State.leeRestored (v : State) (d : Nat) : State :=
  let w := (domTiles d).foldl (fun s t => s.restoreLee t) v
  (domTiles d).foldl (fun s t => s.releaseTile t) (w.setRow d { w.row d with leeDue := false })

theorem State.leeRestored_results (v : State) (d : Nat) : v.RowIs (v.leeRestored d) d { v.row d with leeDue := false } ∧ (v.leeRestored d).resv = v.resv ∧ (∀ n, n ∉ domTiles d → (v.leeRestored d).tile n = v.tile n) ∧
    ∀ n ∈ domTiles d, v.leeEn n = true → ((v.leeRestored d).tile n).half (v.crestHalf n) = (v.tile n).half (v.crestHalf n) := by
  obtain ⟨restored, banks⟩ := v.leeWrites (fun s t => s.restoreLee t) State.restoreLee_write (domTiles d)
  unfold State.leeRestored
  dsimp only
  generalize (domTiles d).foldl (fun s t => s.restoreLee t) v = w at restored banks ⊢
  obtain ⟨released, later⟩ := (w.setRow d { w.row d with leeDue := false }).leeWrites (fun s t => s.releaseTile t) State.releaseTile_write (domTiles d)
  generalize (domTiles d).foldl (fun s t => s.releaseTile t) (w.setRow d { w.row d with leeDue := false }) = u at released later ⊢
  have row : { w.row d with leeDue := false } = { v.row d with leeDue := false } := congrArg (fun x : Row => { x with leeDue := false }) (restored.row d)
  have is := (restored.rowIs { w.row d with leeDue := false }).kept released.power released.jobs
  rw [row] at is
  refine ⟨is, released.resv.trans restored.resv, fun n out => (released.others n out).trans (restored.others n out), fun n _ two => ?_⟩
  have half := later n ((restored.leeEn n).trans two)
  have same : (w.setRow d { w.row d with leeDue := false }).crestHalf n = v.crestHalf n := restored.crestHalf n
  rw [same] at half
  exact half.trans (banks n two)

theorem exec_rowLeeRestored_yes (hv : s.at t = v) (crest : (v.row d).crestDue = false) (due : (v.row d).leeDue = true) (stays : (v.row d).passage = false) :
    exec (.rowLeeRestored d t) s = .next (v.leeRestored d) := by
  subst hv
  have row : ((s.at t).leeRestored d).row d = { (s.at t).row d with leeDue := false } := ((s.at t).leeRestored_results d).1.1
  refine congrArg Host.Outcome.next ((if_neg (by rw [crest, due]; decide)).trans (if_neg fun h => ?_))
  have passage : (((s.at t).leeRestored d).row d).passage = true := h.1
  rw [row] at passage
  exact absurd (stays.symm.trans passage) Bool.false_ne_true

end Sys2Proof.Machine
end

section
/-! SUPPORT. Common and F domains, and the hints (13 R336, R342, R347; 22 R588), for obligation O47. -/

namespace Sys2Proof.Machine

variable {s v : State} {t : Time} {d : Nat}

/-! ### Common domains (R342) -/

/-- The rows of an erg die. -/
def State.dieRows (s : State) (k : Nat) : List Row := (List.range 16).map fun n => s.row (16 + 17 * k + n)

/-- An A common domain may go off, and must come on. -/
def State.CommonOff (s : State) (d : Nat) : Prop :=
  isCommonDom d = true ∧ s.ergLive (domDie d) = true ∧ (∀ x ∈ s.dieRows (domDie d), 2 ≤ x.state ∧ x.waking = false) ∧ (s.applyUnit (domDie d)).binds = [] ∧ (s.applyUnit (domDie d)).waiting = [] ∧
    (∀ j ∈ s.jobs, j.reserved = true → ∀ n ∈ j.tiles, n / 128 ≠ domDie d) ∧ ∀ h ∈ s.net.hops, s.nodeDie h.place ≠ domDie d
def State.CommonOn (s : State) (d : Nat) : Prop :=
  isCommonDom d = true ∧ ((∃ h ∈ s.net.hops, s.nodeDie h.place = domDie d) ∨ ∃ x ∈ s.dieRows (domDie d), x.waking = true ∨ x.state < 2)

/-- An A common domain is off or on. -/
def State.setCommon (s : State) (k : Nat) (b : Bool) : State := { s with power := { s.power with commonA1 := s.power.commonA1.setIfInBounds k b } }

theorem State.dieRows_all (s : State) (k : Nat) (p : Row → Bool) : ((List.range 16).all fun n => p (s.row (16 + 17 * k + n))) = true ↔ ∀ x ∈ s.dieRows k, p x = true := by
  rw [State.dieRows, List.forall_mem_map, List.all_eq_true]

theorem State.dieRows_any (s : State) (k : Nat) (p : Row → Bool) : ((List.range 16).any fun n => p (s.row (16 + 17 * k + n))) = true ↔ ∃ x ∈ s.dieRows k, p x = true := by
  simp only [State.dieRows, List.mem_map, exists_exists_and_eq_and, List.any_eq_true]

theorem State.commonOff_iff (s : State) (d : Nat) :
    (isCommonDom d = true ∧ s.ergLive (domDie d) = true ∧ ((List.range 16).all fun r => decide (2 ≤ (s.row (16 + 17 * domDie d + r)).state) && !(s.row (16 + 17 * domDie d + r)).waking) = true ∧
      (s.applyUnit (domDie d)).binds = [] ∧ (s.applyUnit (domDie d)).waiting = [] ∧ (s.jobs.all fun j => !(j.reserved && j.tiles.any fun t => decide (t / 128 = domDie d))) = true ∧
      (s.net.hops.all fun h => decide (s.nodeDie h.place ≠ domDie d)) = true) ↔ s.CommonOff d := by
  rw [s.dieRows_all (domDie d) fun x => decide (2 ≤ x.state) && !x.waking]
  unfold State.CommonOff
  simp only [Bool.and_eq_true, decide_eq_true_eq, Bool.not_eq_true', List.all_eq_true, Bool.and_eq_false_iff, List.any_eq_false, or_iff_not_imp_left, Bool.not_eq_false]

theorem State.commonOn_iff (s : State) (d : Nat) :
    (isCommonDom d = true ∧ ((s.net.hops.any fun h => decide (s.nodeDie h.place = domDie d)) = true ∨
      ((List.range 16).any fun r => (s.row (16 + 17 * domDie d + r)).waking || decide ((s.row (16 + 17 * domDie d + r)).state < 2)) = true)) ↔ s.CommonOn d := by
  rw [s.dieRows_any (domDie d) fun x => x.waking || decide (x.state < 2)]
  unfold State.CommonOn
  simp only [Bool.or_eq_true, decide_eq_true_eq, List.any_eq_true]

theorem exec_commonEnterA1_yes (hv : s.at t = v) (off : v.CommonOff d) : exec (.commonEnterA1 d t) s = .next (v.setCommon (domDie d) true) := by
  subst hv
  exact congrArg Host.Outcome.next (if_pos ((s.at t).commonOff_iff d |>.mpr off))

theorem exec_commonEnterA1_no (hv : s.at t = v) (not_ : ¬ v.CommonOff d) : exec (.commonEnterA1 d t) s = .next v := by
  subst hv
  exact congrArg Host.Outcome.next (if_neg fun h => not_ ((s.at t).commonOff_iff d |>.mp h))

theorem exec_commonWake_yes (hv : s.at t = v) (on : v.CommonOn d) : exec (.commonWake d t) s = .next (v.setCommon (domDie d) false) := by
  subst hv
  exact congrArg Host.Outcome.next (if_pos ((s.at t).commonOn_iff d |>.mpr on))

theorem exec_commonWake_no (hv : s.at t = v) (not_ : ¬ v.CommonOn d) : exec (.commonWake d t) s = .next v := by
  subst hv
  exact congrArg Host.Outcome.next (if_neg fun h => not_ ((s.at t).commonOn_iff d |>.mp h))

/-! ### F domains (R336, R588) -/

/-- An F domain is on or off; what powers on starts from its reset state. -/
def State.fSwitched (s : State) (d : Nat) : State :=
  let j := (d - 1) / 4
  let f := (d - 1) % 4
  let u := { s with power := { s.power with fOn := s.power.fOn.setIfInBounds (d - 1) (s.fWanted j f) } }
  if s.fWanted j f && !s.power.fOn.toList.getD (d - 1) false then u.modDie j fun d => match f with
    | 1 => { d with ethUp := .replicate 4 false }
    | 2 => { d with cam := .replicate 24 {}, locked := .replicate 8 false }
    | _ => d
  else u

theorem exec_fDomain_no (hv : s.at t = v) (none_ : d < 1 ∨ 8 < d) : exec (.fDomainSwitchDone d t) s = .next v := by
  subst hv
  exact congrArg Host.Outcome.next (if_pos none_)

theorem exec_fDomain_yes (hv : s.at t = v) (low : 1 ≤ d) (high : d ≤ 8) : exec (.fDomainSwitchDone d t) s = .next (v.fSwitched d) := by
  subst hv
  exact congrArg Host.Outcome.next (if_neg (by omega))

/-- Whatever powers on, the switch itself is this. -/
theorem State.fSwitched_power (v : State) (d : Nat) : (v.fSwitched d).power.fOn = v.power.fOn.setIfInBounds (d - 1) (v.fWanted ((d - 1) / 4) ((d - 1) % 4)) ∧
    (v.fSwitched d).power.rows = v.power.rows ∧ (v.fSwitched d).tiles = v.tiles ∧ (v.fSwitched d).regs = v.regs := by
  unfold State.fSwitched
  dsimp only
  split <;> exact ⟨rfl, rfl, rfl, rfl⟩

/-- An F domain that does not power on leaves the sensor die as it is. -/
theorem State.fSwitched_still (v : State) (d : Nat) (still : v.power.fOn.toList.getD (d - 1) false = true ∨ v.fWanted ((d - 1) / 4) ((d - 1) % 4) = false) : (v.fSwitched d).ingress = v.ingress := by
  unfold State.fSwitched
  dsimp only
  rw [if_neg (by rw [Bool.and_eq_true, Bool.not_eq_true']; rintro ⟨on, off⟩; rcases still with h | h <;> simp_all)]

/-- The camera logic starts with every stream in its reset state. -/
theorem State.fSwitched_cameras (v : State) (d : Nat) (two : d ≤ 8) (off : v.power.fOn.toList.getD (d - 1) false = false) (on : v.fWanted ((d - 1) / 4) ((d - 1) % 4) = true) (f : (d - 1) % 4 = 2) :
    ((v.fSwitched d).die ((d - 1) / 4)).cam = .replicate 24 {} ∧ ((v.fSwitched d).die ((d - 1) / 4)).trig = (v.die ((d - 1) / 4)).trig ∧ ((v.fSwitched d).die ((d - 1) / 4)).tag = (v.die ((d - 1) / 4)).tag := by
  have die (u : State) (f : DieIngress → DieIngress) : (u.modDie ((d - 1) / 4) f).die ((d - 1) / 4) = f (u.die ((d - 1) / 4)) := State.modDie_die u ⟨(d - 1) / 4, by omega⟩ f
  unfold State.fSwitched
  dsimp only
  rw [if_pos (by rw [on, off]; rfl), die, f]
  exact ⟨rfl, rfl, rfl⟩

/-! ### Hints (R347) -/

theorem exec_idleSoon_yes (hv : s.at t = v) (row : isRowDom d = true) (live : v.ergLive (domDie d) = true) : exec (.hintRegIdleSoon d t) s = .next (v.setRow d { v.row d with idleHint := true }) := by
  subst hv
  exact congrArg Host.Outcome.next (if_pos (by rw [row, live]; rfl))

theorem exec_hints_no (hv : s.at t = v) (none_ : isRowDom d = false ∨ v.ergLive (domDie d) = false) : exec (.hintRegIdleSoon d t) s = .next v ∧ exec (.hintRegBusySoon d t) s = .next v := by
  subst hv
  have shut : ¬ (isRowDom d && (s.at t).ergLive (domDie d)) = true := by
    rw [Bool.and_eq_true]
    rintro ⟨row, live⟩
    exact none_.elim (fun h => by simp [h] at row) (fun h => by simp [h] at live)
  exact ⟨congrArg Host.Outcome.next (if_neg shut), congrArg Host.Outcome.next (if_neg shut)⟩

/-- The row with its hold. -/
def State.heldBusy (s : State) (d : Nat) : State :=
  let u := if 2 ≤ (s.row d).state then s.wakeRow d else s
  u.setRow d { u.row d with busyUntil := some (u.time.now + 1000000) }

theorem exec_busySoon_yes (hv : s.at t = v) (row : isRowDom d = true) (live : v.ergLive (domDie d) = true) : exec (.hintRegBusySoon d t) s = .next (v.heldBusy d) := by
  subst hv
  exact congrArg Host.Outcome.next (if_pos (by rw [row, live]; rfl))

/-- A wake request: one row of the power control, which keeps its state. -/
theorem State.wakeRow_results (s : State) (d : Nat) : ((s.wakeRow d).row d).state = (s.row d).state ∧ (2 ≤ (s.row d).state → ((s.wakeRow d).row d).waking = true) ∧ (∀ e, e ≠ d → (s.wakeRow d).row e = s.row e) ∧
    { s.wakeRow d with power := s.power } = s := by
  by_cases asleep : (s.row d).state = 0 ∨ (s.row d).waking = true
  · have stays : s.wakeRow d = s := if_pos asleep
    rw [stays]
    exact ⟨rfl, fun deep => asleep.resolve_left (by omega), fun _ _ => rfl, rfl⟩
  · rw [not_or, Bool.not_eq_true] at asleep
    rw [s.wakeRow_asleep d asleep.1 asleep.2]
    exact ⟨by rw [s.setRow_row, if_pos rfl], fun _ => by rw [s.setRow_row, if_pos rfl], fun e ne => (s.setRow_row d _ e).trans (if_neg ne), rfl⟩

theorem State.heldBusy_results (v : State) (d : Nat) : ((v.heldBusy d).row d).busyUntil = some (v.time.now + 1000000) ∧ ((v.heldBusy d).row d).state = (v.row d).state ∧
    (2 ≤ (v.row d).state → ((v.heldBusy d).row d).waking = true) ∧ (∀ e, e ≠ d → (v.heldBusy d).row e = v.row e) ∧ { v.heldBusy d with power := v.power } = v := by
  have put (u : State) (state : (u.row d).state = (v.row d).state) (waking : 2 ≤ (v.row d).state → (u.row d).waking = true) (others : ∀ e, e ≠ d → u.row e = v.row e) (rest : { u with power := v.power } = v) :
      let w := u.setRow d { u.row d with busyUntil := some (u.time.now + 1000000) }
      (w.row d).busyUntil = some (v.time.now + 1000000) ∧ (w.row d).state = (v.row d).state ∧ (2 ≤ (v.row d).state → (w.row d).waking = true) ∧ (∀ e, e ≠ d → w.row e = v.row e) ∧ { w with power := v.power } = v := by
    have time : u.time = v.time := (congrArg State.time rest :)
    dsimp only
    rw [u.setRow_row, if_pos rfl]
    exact ⟨by rw [time], state, waking, fun e ne => ((u.setRow_row d _ e).trans (if_neg ne)).trans (others e ne), rest⟩
  obtain ⟨state, waking, others, rest⟩ := v.wakeRow_results d
  unfold State.heldBusy
  dsimp only
  split
  · exact put (v.wakeRow d) state waking others rest
  · next shallow => exact put v rfl (fun deep => absurd deep shallow) (fun _ _ => rfl) rfl

theorem exec_busyHoldEnd_none (hv : s.at t = v) (none_ : (v.row d).busyUntil = none) : exec (.busyHoldEnd d t) s = .next v := by
  subst hv
  show Host.Outcome.next (match ((s.at t).row d).busyUntil with | some b => _ | none => _) = _
  rw [none_]

theorem exec_busyHoldEnd_some (hv : s.at t = v) {b : Time} (held : (v.row d).busyUntil = some b) :
    exec (.busyHoldEnd d t) s = .next (if b ≤ v.time.now then v.setRow d { v.row d with busyUntil := none } else v) := by
  subst hv
  show Host.Outcome.next (match ((s.at t).row d).busyUntil with | some b => _ | none => _) = _
  rw [held]

end Sys2Proof.Machine
end

section
/-! SUPPORT. Rows, common and F domains and hints, together (13 R333, R336 to R342, R345, R347 to R349; 22 R591), for obligation O47. -/

namespace Sys2Proof.Machine

/-- The first conjunct of O47: each command by its rule, on the state after its time is seen. -/
theorem powerDomainResults : Claims.PowerDomainResults := by
  intro s d t v r k ctl row only steady quiet deep fits a1 a2 set still a3 passes dropped emptied
  have hv : s.at t = v := rfl
  have eq : v = { s with time := s.time.seenAt t } := s.at_eq t
  clear_value v
  subst eq
  have keptBy {c : Host.Outcome State Fault Refusal} {u : State} (keeps : OutcomeKeeps s.kept c) (ran : c = .next u) : u.kept = s.kept := keeps.next ran
  have rowOf {u : State} {x : Row} (is : State.RowIs { s with time := s.time.seenAt t } u d x) (kept : u.kept = s.kept) : row u x := by
    obtain ⟨own, others, common, fOn, jobs⟩ := is
    exact ⟨own, others, common, fOn, jobs, kept⟩
  have onlyOf (x : Row) (kept : (State.setRow { s with time := s.time.seenAt t } d x).kept = s.kept) : only (State.setRow { s with time := s.time.seenAt t } d x) x :=
    ⟨rowOf (State.setRow_is _ d x) kept, rfl⟩
  refine ⟨fun may => ?enterA1, fun not_ => exec_rowEnterA1_no hv not_, fun may => ?enterA2, fun not_ => exec_rowEnterA2_no hv not_, fun may => ?passes, fun stays may => ?enterA3, fun stays not_ => exec_rowEnterA3_no hv stays not_,
    ⟨fun there deep still => ?wake, fun not_ => exec_rowWake_no hv not_⟩, fun row waking => ?wakeDone, fun not_ => exec_rowWakeDone_no hv not_, fun none_ => exec_rowCrestRestored_no hv none_, fun due => ?crest,
    fun none_ => exec_rowLeeRestored_no hv none_, fun crest due stays => ?lee, ⟨fun late => ?late, fun not_ => exec_wakeLate_no hv not_⟩,
    ⟨fun off => ⟨_, exec_commonEnterA1_yes hv off, rfl, rfl, rfl⟩, fun not_ => exec_commonEnterA1_no hv not_, fun on => ⟨_, exec_commonWake_yes hv on, rfl, rfl, rfl⟩, fun not_ => exec_commonWake_no hv not_⟩,
    fun none_ => exec_fDomain_no hv none_, fun low high => ?fDomain, rfl, fun row live => ⟨?idleSoon, ?busySoon⟩, fun none_ => exec_hints_no hv none_, fun none_ => exec_busyHoldEnd_none hv none_, fun b held => ⟨fun early => ?holds, fun due => ?ends⟩⟩
  case enterA1 =>
    have ran := exec_rowEnterA1_yes hv may
    have zero : r.state = 0 := may.2.1
    have entered : r.entered 1 (s.time.seenAt t).now = { r with state := 1, idleHint := false, idleSince := (s.time.seenAt t).now } := by rw [Row.entered, if_pos zero]
    refine ⟨_, ran, rowOf (entered ▸ State.enterRow_is _ d 1) (keptBy (execRowEnterA1_keeps ..) ran), rfl⟩
  case enterA2 =>
    have ran := exec_rowEnterA2_yes hv may
    have one : r.state = 1 := may.2.1
    obtain ⟨is, drops, halves⟩ := State.enterRow_dropped { s with time := s.time.seenAt t } d 2
    exact ⟨_, ran, rowOf (Row.entered_deeper r 2 _ (by rw [one]; decide) ▸ is) (keptBy (execRowEnterA2_keeps ..) ran), drops, halves⟩
  case passes =>
    exact ⟨_, exec_rowEnterA3_passes hv may, State.rowPassage_results _ d may.2.1⟩
  case enterA3 =>
    have ran := exec_rowEnterA3_yes hv stays may
    have deep : r.state = 1 ∨ r.state = 2 := may.2.1
    obtain ⟨is, drops, empties⟩ := State.enterA3_lost { s with time := s.time.seenAt t } d
    exact ⟨_, ran, rowOf (Row.entered_deeper r 3 _ (by omega) ▸ is) (keptBy (execRowEnterA3_keeps ..) ran), drops, empties⟩
  case wake =>
    have ran := exec_rowWake_yes hv there deep still
    exact ⟨_, ran, onlyOf _ (keptBy (execRowWake_keeps ..) ran)⟩
  case wakeDone =>
    have ran := exec_rowWakeDone_yes hv row waking
    obtain ⟨is, tiles⟩ := State.wakeDone_results (v := { s with time := s.time.seenAt t }) (d := d) { r with state := 0, waking := false, crestDue := decide (r.state = 3), leeDue := decide (r.state = 3) } (r.state < 2)
    exact ⟨_, ran, rowOf is (keptBy (execRowWakeDone_keeps ..) ran), tiles⟩
  case crest =>
    have ran := exec_rowCrestRestored_yes hv due
    obtain ⟨is, rest⟩ := State.crestRestored_results { s with time := s.time.seenAt t } d
    exact ⟨_, ran, rowOf is (keptBy (execRowCrestRestored_keeps ..) ran), rest⟩
  case lee =>
    have ran := exec_rowLeeRestored_yes hv crest due stays
    obtain ⟨is, rest⟩ := State.leeRestored_results { s with time := s.time.seenAt t } d
    exact ⟨_, ran, rowOf is (keptBy (execRowLeeRestored_keeps ..) ran), rest⟩
  case late =>
    have ran := exec_wakeLate_yes hv late
    obtain ⟨flag, record, is, tiles⟩ := State.lateNoted_results { s with time := s.time.seenAt t } d
    exact ⟨_, ran, flag, record, rowOf is (keptBy (execWakeLate_keeps ..) ran), tiles⟩
  case fDomain =>
    have ran := exec_fDomain_yes hv low high
    obtain ⟨fOn, rows, tiles, regs⟩ := State.fSwitched_power { s with time := s.time.seenAt t } d
    exact ⟨_, ran, fOn, rows, tiles, regs, keptBy (execFDomainSwitchDone_keeps ..) ran, State.fSwitched_still { s with time := s.time.seenAt t } d, State.fSwitched_cameras { s with time := s.time.seenAt t } d high⟩
  case idleSoon =>
    have ran := exec_idleSoon_yes hv row live
    exact ⟨_, ran, onlyOf _ (keptBy (execHintRegIdleSoon_keeps ..) ran)⟩
  case busySoon => exact ⟨_, exec_busySoon_yes hv row live, State.heldBusy_results _ d⟩
  case holds =>
    exact (exec_busyHoldEnd_some hv held).trans (congrArg Host.Outcome.next (if_neg (not_le.mpr early)))
  case ends =>
    have ran := (exec_busyHoldEnd_some hv held).trans (congrArg Host.Outcome.next (if_pos due))
    exact ⟨_, ran, onlyOf _ (keptBy (execBusyHoldEnd_keeps ..) ran)⟩

end Sys2Proof.Machine
end

section
/-! SUPPORT. Alarms, windows and clock changes of an oasis (13 R350 to R355), for obligation O47. -/

namespace Sys2Proof.Machine

variable {s u v : State} {o : Oasis} {t : Time}

/-! ### One oasis changes -/

/-- `u` is `s` but for one oasis, which is `x` with the excursions noted in it, and for what notes them. -/
def State.OasisNow (s u : State) (o : Oasis) (x : OasisSt) : Prop :=
  s.Adapted u ∧ (∀ a, a ≠ 0x1000 → a ≠ 0x1004 → u.reg a = s.reg a) ∧ (∃ l, u.oasis o = { x with excursions := l }) ∧ ∀ p, p ≠ o → u.oasis p = s.oasis p

theorem State.OasisNow.refl (s : State) (o : Oasis) : s.OasisNow s o (s.oasis o) := ⟨.refl s, fun _ _ _ => rfl, ⟨_, rfl⟩, fun _ _ => rfl⟩

variable {x y : OasisSt}

theorem State.setOasis_reg (s : State) (o : Oasis) (x : OasisSt) (a : Nat) : (s.setOasis o x).reg a = s.reg a := by
  cases o <;> rfl

theorem State.OasisNow.put (h : s.OasisNow u o x) (y : OasisSt) : s.OasisNow (u.setOasis o y) o y := by
  obtain ⟨adapted, words, -, others⟩ := h
  exact ⟨adapted.trans (u.setOasis_adapted o y), fun a flags counts => (u.setOasis_reg o y a).trans (words a flags counts), ⟨_, u.setOasis_own o y⟩, fun p ne => (u.setOasis_other o y p ne).trans (others p ne)⟩

theorem State.OasisNow.excursion (h : s.OasisNow u o x) (kind value : Nat) (out : Bool) : s.OasisNow (u.excursion o kind value out) o x := by
  obtain ⟨adapted, words, ⟨l, own⟩, others⟩ := h
  obtain ⟨⟨l', own'⟩, others'⟩ := u.excursion_oasis o kind value out
  rw [own] at own'
  exact ⟨adapted.trans (u.excursion_adapted o kind value out), fun a flags counts => (u.excursion_reg o kind value out a flags counts).trans (words a flags counts), ⟨l', own'⟩, fun p ne => (others' p ne).trans (others p ne)⟩

theorem State.OasisNow.ite {b : Prop} [Decidable b] {w : State} (h : s.OasisNow u o x) (h' : s.OasisNow w o x) : s.OasisNow (if b then u else w) o x := by
  split <;> assumption

theorem State.OasisNow.trans {w : State} (h : s.OasisNow u o x) (h' : u.OasisNow w o y) : s.OasisNow w o y := by
  obtain ⟨adapted, words, -, others⟩ := h
  obtain ⟨adapted', words', own, others'⟩ := h'
  exact ⟨adapted.trans adapted', fun a flags counts => (words' a flags counts).trans (words a flags counts), own, fun p ne => (others' p ne).trans (others p ne)⟩

/-! ### Alarms, windows, clocks -/

/-- The oasis, once it has been looked at since the reset (R350). -/
def State.lookedAt (s : State) (o : Oasis) : State :=
  if (s.oasis o).seen then s else (s.setOasis o { s.oasis o with seen := true }).excursion o 1 (s.oasis o).volt (decide (s.vmax o.dom < (s.oasis o).volt))

theorem State.lookedAt_now (s : State) (o : Oasis) : s.OasisNow (s.lookedAt o) o { s.oasis o with seen := true } := by
  unfold State.lookedAt
  split
  · next seen =>
    have same : s.oasis o = { s.oasis o with seen := true } := by
      generalize s.oasis o = x at seen
      cases x
      cases seen
      rfl
    exact same ▸ .refl s o
  · exact ((State.OasisNow.refl s o).put _).excursion _ _ _

/-- The oasis after a window. -/
def State.windowEnd (s : State) (o : Oasis) (alarm : Bool) (margin : Nat) : State :=
  let x := (s.oasis o).window alarm margin (fld (s.reg 0x1014) 4 0) (s.vmin o.dom)
  let slow := decide (x.volt = 160 ∧ 4 ≤ x.topAlarms)
  let f := if slow then max 400 (x.mhz * 95 / 100 / 5 * 5) else x.mhz
  let s := s.setOasis o { x with mhz := f }
  let s := s.excursion o 0 x.volt (decide (s.vmax o.dom < x.volt) && (alarm || x.excursions.contains 0))
  let s := if x.volt ≤ s.vmax o.dom then s.excursion o 1 x.volt false else s
  match o with
  | .tile _ => s.excursion o 3 f (decide (f < s.fmin o.dom) && (slow || x.excursions.contains 3))
  | .router _ => s

theorem State.windowEnd_now (s : State) (o : Oasis) (alarm : Bool) (margin : Nat) :
    let x := (s.oasis o).window alarm margin (fld (s.reg 0x1014) 4 0) (s.vmin o.dom)
    s.OasisNow (s.windowEnd o alarm margin) o { x with mhz := if x.volt = 160 ∧ 4 ≤ x.topAlarms then max 400 (x.mhz * 95 / 100 / 5 * 5) else x.mhz } := by
  intro x
  have slow : (if decide (x.volt = 160 ∧ 4 ≤ x.topAlarms) = true then max 400 (x.mhz * 95 / 100 / 5 * 5) else x.mhz) = if x.volt = 160 ∧ 4 ≤ x.topAlarms then max 400 (x.mhz * 95 / 100 / 5 * 5) else x.mhz :=
    if_congr decide_eq_true_iff rfl rfl
  have put := (State.OasisNow.refl s o).put { x with mhz := if decide (x.volt = 160 ∧ 4 ≤ x.topAlarms) = true then max 400 (x.mhz * 95 / 100 / 5 * 5) else x.mhz }
  rw [slow] at put
  unfold State.windowEnd
  dsimp only
  rw [slow]
  have upper := put.excursion 0 x.volt
  cases o with
  | tile n => exact (((upper _).excursion 1 x.volt false).ite (upper _)).excursion _ _ _
  | router n => exact ((upper _).excursion 1 x.volt false).ite (upper _)

theorem exec_avsWindow_on {alarm : Bool} {margin : Nat} (hv : s.at t = v) (on : v.oasisOn o = true) : exec (.avsWindow o alarm margin t) s = .next ((v.lookedAt o).windowEnd o alarm margin) := by
  subst hv
  exact congrArg Host.Outcome.next (if_neg (by rw [on]; decide))

/-- The voltage of a window (R352). -/
theorem OasisSt.window_volt (x : OasisSt) (alarm : Bool) (margin target vmin : Nat) :
    (x.window alarm margin target vmin).volt = if alarm then min 160 (x.volt + 4) else if target + 4 < margin ∧ 16 ≤ x.quiet + 1 then max vmin (x.volt - 1) else x.volt := by
  unfold OasisSt.window
  dsimp only
  split
  · rfl
  · split
    · next good => exact if_congr (by rw [and_iff_right good]) rfl rfl
    · next bad => rw [if_neg fun h => bad h.1]

theorem OasisSt.window_counts (x : OasisSt) (alarm : Bool) (margin target vmin : Nat) :
    (x.window alarm margin target vmin).topAlarms = (if alarm then x.topAlarms + 1 else 0) ∧
      (x.window alarm margin target vmin).quiet = (if !alarm && decide (target + 4 < margin) then x.quiet + 1 else 0) ∧ (x.window alarm margin target vmin).mhz = x.mhz := by
  cases alarm with
  | true => exact ⟨rfl, rfl, rfl⟩
  | false => by_cases good : target + 4 < margin <;> simp [OasisSt.window, good]

theorem State.avsWindow_results (v : State) (o : Oasis) (alarm : Bool) (margin : Nat) :
    let u := (v.lookedAt o).windowEnd o alarm margin
    let x := v.oasis o
    let volt := if alarm then min 160 (x.volt + 4) else if fld (v.reg 0x1014) 4 0 + 4 < margin ∧ 16 ≤ x.quiet + 1 then max (v.vmin o.dom) (x.volt - 1) else x.volt
    let tops := if alarm then x.topAlarms + 1 else 0
    v.Adapted u ∧ (∀ p, p ≠ o → u.oasis p = v.oasis p) ∧ (u.oasis o).volt = volt ∧ (u.oasis o).topAlarms = tops ∧
      (u.oasis o).quiet = (if !alarm && decide (fld (v.reg 0x1014) 4 0 + 4 < margin) then x.quiet + 1 else 0) ∧ (u.oasis o).mhz = if volt = 160 ∧ 4 ≤ tops then max 400 (x.mhz * 95 / 100 / 5 * 5) else x.mhz := by
  intro u x volt tops
  have looked := v.lookedAt_now o
  have ended := (v.lookedAt o).windowEnd_now o alarm margin
  obtain ⟨adapted, -, ⟨l, own⟩, others⟩ := looked.trans ended
  obtain ⟨adapted', words, ⟨l', own'⟩, -⟩ := looked
  rw [words 0x1014 (by decide) (by decide), adapted'.vmin, own'] at own
  obtain ⟨topAlarms, quiet, mhz⟩ := OasisSt.window_counts { x with seen := true, excursions := l' } alarm margin (fld (v.reg 0x1014) 4 0) (v.vmin o.dom)
  have voltage := OasisSt.window_volt { x with seen := true, excursions := l' } alarm margin (fld (v.reg 0x1014) 4 0) (v.vmin o.dom)
  refine ⟨adapted, others, (congrArg OasisSt.volt own).trans voltage, (congrArg OasisSt.topAlarms own).trans topAlarms, (congrArg OasisSt.quiet own).trans quiet, (congrArg OasisSt.mhz own).trans ?_⟩
  show (if _ then _ else _) = _
  rw [voltage, topAlarms, mhz]

/-- The clock that an oasis changes to, and the voltage that goes with it (R354). -/
def State.nextClock (s : State) (o : Oasis) : Nat := match (s.oasis o).throttle with | some m => min m (s.wantClock o) | none => s.wantClock o
def State.nextVolt (s : State) (o : Oasis) : Nat := if (s.oasis o).mhz < s.nextClock o then max (s.oasis o).volt (vSafeAt o.die (s.nextClock o)) else (s.oasis o).volt

/-- The oasis after a clock change. -/
def State.clockChanged (s : State) (o : Oasis) : State :=
  let x := s.oasis o
  let f := s.nextClock o
  let v := s.nextVolt o
  let u := s.setOasis o { x with mhz := f, volt := v }
  let u := u.excursion o 1 v (decide (u.vmax o.dom < v) && (decide (x.volt < v) || x.excursions.contains 1))
  match o with
  | .tile _ => (u.excursion o 2 f (decide (u.fceil o.dom < f))).excursion o 3 f (decide (f < u.fmin o.dom) && x.excursions.contains 3)
  | .router _ => u

theorem exec_clockChange_on (hv : s.at t = v) (on : v.oasisOn o = true) : exec (.clockChange o t) s = .next (v.clockChanged o) := by
  subst hv
  exact congrArg Host.Outcome.next (if_neg (by rw [on]; decide))

theorem State.clockChanged_now (s : State) (o : Oasis) : s.OasisNow (s.clockChanged o) o { s.oasis o with mhz := s.nextClock o, volt := s.nextVolt o } := by
  have raised := ((State.OasisNow.refl s o).put { s.oasis o with mhz := s.nextClock o, volt := s.nextVolt o }).excursion 1 (s.nextVolt o)
  cases o with
  | tile n => exact ((raised _).excursion _ _ _).excursion _ _ _
  | router n => exact raised _

theorem State.clockChanged_results (s : State) (o : Oasis) :
    let u := s.clockChanged o
    s.Adapted u ∧ (∀ p, p ≠ o → u.oasis p = s.oasis p) ∧ (u.oasis o).mhz = s.nextClock o ∧ (u.oasis o).volt = s.nextVolt o ∧ (u.oasis o).quiet = (s.oasis o).quiet ∧ (u.oasis o).alarm = (s.oasis o).alarm := by
  obtain ⟨adapted, -, ⟨l, own⟩, same⟩ := s.clockChanged_now o
  dsimp only
  rw [own]
  exact ⟨adapted, same, rfl, rfl, rfl, rfl⟩

/-- Nothing happens to an oasis that is off. -/
theorem exec_oasis_off {alarm : Bool} {margin : Nat} (hv : s.at t = v) (off : v.oasisOn o = false) : exec (.avsWindow o alarm margin t) s = .next v ∧ exec (.clockChange o t) s = .next v := by
  subst hv
  exact ⟨congrArg Host.Outcome.next (if_pos (by rw [off]; rfl)), congrArg Host.Outcome.next (if_pos (by rw [off]; rfl))⟩

end Sys2Proof.Machine
end

section
/-! SUPPORT. Temperatures: the marks, the throttle and the trip (13 R356, R357), for obligation O47. -/

namespace Sys2Proof.Machine

variable {s u w : State} {t : Time}

/-! ### What a temperature below the trip touches -/

/-- `u` is `s` but for the oases and the reports; no flag of the power control clears, and no record has gone. -/
structure State.Heats (s u : State) : Prop where
  adapted : s.Adapted u
  bits : ∀ b, (s.reg 0x1000).getLsbD b = true → (u.reg 0x1000).getLsbD b = true
  made : s.logs.made.length ≤ u.logs.made.length

theorem State.Heats.refl (s : State) : s.Heats s := ⟨.refl s, fun _ h => h, le_rfl⟩
theorem State.Heats.trans (h : s.Heats u) (h' : u.Heats w) : s.Heats w := ⟨h.adapted.trans h'.adapted, fun b on => h'.bits b (h.bits b on), h.made.trans h'.made⟩
theorem State.Heats.ite {b : Prop} [Decidable b] (h : s.Heats u) (h' : s.Heats w) : s.Heats (if b then u else w) := by split <;> assumption

variable (s)

theorem State.setOasis_heats (o : Oasis) (x : OasisSt) : s.Heats (s.setOasis o x) :=
  ⟨s.setOasis_adapted o x, fun b on => by rwa [s.setOasis_reg o x], by cases o <;> exact le_rfl⟩

theorem State.setFlag_bits (a b c : Nat) (on : (s.reg a).getLsbD c = true) : ((s.setFlag a b).reg a).getLsbD c = true := by
  rw [State.setFlag, State.reg_setReg_same, BitVec.getLsbD_or, on]
  rfl

theorem State.pwrFlag_heats (b : Nat) : s.Heats (s.pwrFlag b) := by
  have flag (c : Nat) (on : (s.reg 0x1000).getLsbD c = true) : ((s.pwrFlag b).reg 0x1000).getLsbD c = true := by
    unfold State.pwrFlag
    dsimp only
    split
    · rw [State.countByte_reg_ne _ _ _ _ (by omega)]
      exact s.setFlag_bits _ _ _ on
    · exact s.setFlag_bits _ _ _ on
  have logs : (s.pwrFlag b).logs = s.logs := by
    unfold State.pwrFlag
    dsimp only
    split
    · rw [State.countByte_logs, State.setFlag_logs]
    · rw [State.setFlag_logs]
  exact ⟨(s.reported_pwrFlag b).adapted, flag, by rw [logs]⟩

theorem State.fault_heats (die : Nat) (f : FaultInfo) (known : f.sev < 5) : s.Heats (s.fault die none f) :=
  ⟨(s.reported_fault die none f).adapted, fun b on => by rwa [s.fault_reg (by decide) die none f known], by rw [State.fault_made]; exact Nat.le_succ _⟩

theorem State.overridden_heats (o : Oasis) (kind value : Nat) : s.Heats (s.overridden o kind value) := by
  unfold State.overridden
  dsimp only
  exact (s.pwrFlag_heats 0).trans (State.fault_heats _ _ _ (by cases o <;> exact (by decide : (0 : Nat) < 5)))

/-! ### Oases that change together -/

/-- Each oasis of a list changes by a rule. -/
def State.eachOasis (s : State) (f : OasisSt → OasisSt) (l : List Oasis) : State := l.foldl (fun s o => s.setOasis o (f (s.oasis o))) s

theorem State.eachOasis_heats (f : OasisSt → OasisSt) (l : List Oasis) : s.Heats (s.eachOasis f l) := by
  induction l generalizing s with
  | nil => exact .refl s
  | cons o l ih => exact (s.setOasis_heats o _).trans (ih _)

theorem State.eachOasis_reg (f : OasisSt → OasisSt) (l : List Oasis) (a : Nat) : (s.eachOasis f l).reg a = s.reg a :=
  State.foldl_preserves (fun u : State => u.reg a) _ (fun u o => u.setOasis_reg o _ a) l s

theorem State.eachOasis_other (f : OasisSt → OasisSt) (l : List Oasis) (p : Oasis) (out : p ∉ l) : (s.eachOasis f l).oasis p = s.oasis p := by
  induction l generalizing s with
  | nil => rfl
  | cons o l ih =>
    rw [List.mem_cons, not_or] at out
    exact (ih (s.setOasis o (f (s.oasis o))) out.2).trans (s.setOasis_other o _ p out.1)

theorem State.eachOasis_own (f : OasisSt → OasisSt) (l : List Oasis) (once : l.Nodup) (p : Oasis) (own : p ∈ l) : (s.eachOasis f l).oasis p = f (s.oasis p) := by
  induction l generalizing s with
  | nil => cases own
  | cons o l ih =>
    obtain ⟨first, rest⟩ := List.nodup_cons.mp once
    by_cases here : p = o
    · subst here
      exact (State.eachOasis_other (s.setOasis p (f (s.oasis p))) f l p first).trans (s.setOasis_own p _)
    · exact (ih (s.setOasis o (f (s.oasis o))) rest ((List.mem_cons.mp own).resolve_left here)).trans (congrArg f (s.setOasis_other o _ p here))

/-- An oasis that T_LIMIT slows, and one that it lets go (log 68). -/
def OasisSt.slowed (x : OasisSt) : OasisSt := { x with mhz := max 400 (x.mhz * 90 / 100 / 5 * 5), throttle := some (max 400 (x.mhz * 90 / 100 / 5 * 5)) }
def OasisSt.freed (x : OasisSt) : OasisSt := { x with throttle := none }

theorem State.throttle_eq (d : Nat) : s.throttle d = s.eachOasis OasisSt.slowed (domOases d) := rfl
theorem State.unthrottle_eq (d : Nat) : s.unthrottle d = s.eachOasis OasisSt.freed (domOases d) := rfl

/-! ### The marks (R356) -/

/-- A list with a number in it or not. -/
def marked (l : List Nat) (n : Nat) (b : Bool) : List Nat := if b then (if l.contains n then l else l ++ [n]) else l.filter fun k => k != n

theorem mem_marked (l : List Nat) (n m : Nat) (b : Bool) : m ∈ marked l n b ↔ if m = n then b = true else m ∈ l := by
  have among : l.contains n = true ↔ n ∈ l := List.contains_iff_mem
  unfold marked
  by_cases same : m = n
  · subst same
    rw [if_pos rfl]
    cases b with
    | true =>
      rw [if_pos rfl]
      split
      · next here => exact iff_of_true (among.mp here) rfl
      · simp
    | false => simp
  · rw [if_neg same]
    cases b with
    | true =>
      rw [if_pos rfl]
      split
      · rfl
      · simp [same]
    | false => simp [same]

/-- The state with a sensor's temperature and marks. -/
def State.sensed (s : State) (x : Nat × Int) (warm hot : Bool) : State :=
  { s with power := { s.power with temps := (s.power.temps.filter fun e => decide (e.1 ≠ x.1)) ++ [x], warm := marked s.power.warm x.1 warm, hot := marked s.power.hot x.1 hot } }

/-- With the warning noted. -/
def State.warned (s : State) (x : Nat × Int) (warm hot : Bool) : State :=
  if warm && !s.power.warm.contains x.1 then (s.sensed x warm hot).pwrFlag 2 else s.sensed x warm hot

theorem State.warned_heats (x : Nat × Int) (warm hot : Bool) : (s.sensed x warm hot).Heats (s.warned x warm hot) := .ite (State.pwrFlag_heats _ 2) (.refl _)

theorem State.warned_bit (x : Nat × Int) (warm hot : Bool) (on : warm = true) (fresh : x.1 ∉ s.power.warm) : ((s.warned x warm hot).reg 0x1000).getLsbD 2 = true := by
  unfold State.warned
  rw [if_pos (by rw [on, Bool.true_and, Bool.not_eq_true', ← Bool.not_eq_true, List.contains_iff_mem]; exact fresh)]
  exact State.pwrFlag_bit _ 2 (by decide)

/-- T_LIMIT noted, once. -/
def State.limited (s : State) (d : Nat) : State :=
  match (domOases d).head? with
  | some o => (s.pwrFlag 3).overridden o 4 (s.oasis o).mhz
  | none => s.pwrFlag 3

theorem State.limited_heats (d : Nat) : s.Heats (s.limited d) ∧ ((s.limited d).reg 0x1000).getLsbD 3 = true ∧ ∀ p, (s.limited d).oasis p = s.oasis p := by
  have flag := s.pwrFlag_bit 3 (by decide)
  have report := s.reported_pwrFlag 3
  unfold State.limited
  cases (domOases d).head? with
  | none => exact ⟨s.pwrFlag_heats 3, flag, report.oasis⟩
  | some o =>
    have heats := State.overridden_heats (s.pwrFlag 3) o 4 (s.oasis o).mhz
    exact ⟨(s.pwrFlag_heats 3).trans heats, heats.bits 3 flag, (report.trans (State.reported_overridden _ o _ _)).oasis⟩

theorem State.senseHeat_warned (x : Nat × Int) (warm hot : Bool) :
    s.senseHeat x warm hot = match (s.warned x warm hot).sensorDom x.1 with
      | none => s.warned x warm hot
      | some d =>
        if hot then (if s.power.hot.contains x.1 then (s.warned x warm hot).throttle d else ((s.warned x warm hot).throttle d).limited d)
        else if s.power.hot.contains x.1 && !(s.warned x warm hot).domIn (s.warned x warm hot).power.hot d then (s.warned x warm hot).unthrottle d else s.warned x warm hot := rfl

theorem State.Heats.sensorDom {s u : State} (h : s.Heats u) (n : Nat) : u.sensorDom n = s.sensorDom n := (congrArg (fun x : State => x.sensorDom n) h.adapted :)
theorem State.Heats.ergLive {s u : State} (h : s.Heats u) (k : Nat) : u.ergLive k = s.ergLive k := (congrArg (fun x : State => x.ergLive k) h.adapted :)

theorem State.warned_oasis (x : Nat × Int) (warm hot : Bool) (p : Oasis) : (s.warned x warm hot).oasis p = s.oasis p := by
  unfold State.warned
  split
  · exact ((State.reported_pwrFlag _ 2).oasis p).trans rfl
  · rfl

/-- A sensor of a domain: its warning, its limit, and its oases. -/
theorem State.senseHeat_results (x : Nat × Int) (warm hot : Bool) (d : Nat) (dom : s.sensorDom x.1 = some d) :
    let u := s.senseHeat x warm hot
    (s.sensed x warm hot).Heats u ∧ (warm = true → x.1 ∉ s.power.warm → (u.reg 0x1000).getLsbD 2 = true) ∧ (hot = true → x.1 ∉ s.power.hot → (u.reg 0x1000).getLsbD 3 = true) ∧
      (hot = true → (domOases d).Nodup → ∀ p ∈ domOases d, u.oasis p = (s.oasis p).slowed) ∧ ∀ p, p ∉ domOases d → u.oasis p = s.oasis p := by
  have heats := s.warned_heats x warm hot
  have bit := s.warned_bit x warm hot
  have oasis := s.warned_oasis x warm hot
  have there : (s.warned x warm hot).sensorDom x.1 = some d := (heats.sensorDom x.1).trans dom
  have among : s.power.hot.contains x.1 = true ↔ x.1 ∈ s.power.hot := List.contains_iff_mem
  rw [s.senseHeat_warned x warm hot, there]
  dsimp only
  generalize s.warned x warm hot = v at heats bit oasis ⊢
  have slow := v.eachOasis_heats OasisSt.slowed (domOases d)
  have own (once : (domOases d).Nodup) (p : Oasis) (at_ : p ∈ domOases d) : (v.throttle d).oasis p = (s.oasis p).slowed := (v.eachOasis_own OasisSt.slowed _ once p at_).trans (congrArg OasisSt.slowed (oasis p))
  have other (f : OasisSt → OasisSt) (p : Oasis) (out : p ∉ domOases d) : (v.eachOasis f (domOases d)).oasis p = s.oasis p := (v.eachOasis_other f _ p out).trans (oasis p)
  cases hot with
  | true =>
    rw [if_pos rfl]
    split
    · next was => exact ⟨heats.trans slow, fun on fresh => slow.bits 2 (bit on fresh), fun _ fresh => absurd (among.mp was) fresh, fun _ => own, other OasisSt.slowed⟩
    · obtain ⟨heats', flag, same⟩ := (v.throttle d).limited_heats d
      exact ⟨(heats.trans slow).trans heats', fun on fresh => heats'.bits 2 (slow.bits 2 (bit on fresh)), fun _ _ => flag, fun _ once p at_ => (same p).trans (own once p at_), fun p out => (same p).trans (other OasisSt.slowed p out)⟩
  | false =>
    rw [if_neg (by decide)]
    split
    · have free := v.eachOasis_heats OasisSt.freed (domOases d)
      exact ⟨heats.trans free, fun on fresh => free.bits 2 (bit on fresh), fun h => absurd h (by decide), fun h => absurd h (by decide), other OasisSt.freed⟩
    · exact ⟨heats, bit, fun h => absurd h (by decide), fun h => absurd h (by decide), fun p _ => oasis p⟩

end Sys2Proof.Machine
end

section
/-! SUPPORT. The trip of an erg die, and a list of samples (13 R357; 21 R584), for obligation O47. -/

namespace Sys2Proof.Machine

variable (s : State)

/-! ### Words that a stop leaves -/

/-- The words that a stop, a lost party or a record can change: void masks, the slip, faults, and the apply units. -/
def stopWord (a : Nat) : Bool := decide (a ∈ [0x80, 0x84, 0x204, 0x218, 0x240, 0x5000, 0x5004, 0x5010] ∨ 0x00C00000 ≤ a)

variable {a : Nat} (other : stopWord a = false)
include other

theorem stopWord_ne : a ≠ 0x80 ∧ a ≠ 0x84 ∧ a ≠ 0x204 ∧ a ≠ 0x218 ∧ a ≠ 0x240 ∧ a ≠ 0x5000 ∧ a ≠ 0x5004 ∧ a ≠ 0x5010 ∧ a < 0x00C00000 := by
  have h := of_decide_eq_false other
  simp only [List.mem_cons, List.not_mem_nil, or_false, not_or, not_le] at h
  obtain ⟨⟨h1, h2, h3, h4, h5, h6, h7, h8⟩, h9⟩ := h
  exact ⟨h1, h2, h3, h4, h5, h6, h7, h8, h9⟩

theorem State.cairnFlags_reg (k : Nat) (bs : List Nat) : (s.cairnFlags k bs).reg a = s.reg a := by
  obtain ⟨-, -, -, -, -, -, -, -, low⟩ := stopWord_ne other
  have base : 0x00C00000 ≤ ergBase k := by unfold ergBase; omega
  refine State.foldl_preserves (fun u : State => u.reg a) _ (fun u b => ?_) bs s
  unfold State.cairnFlag
  dsimp only
  split
  · rw [State.countByte_reg_ne _ _ _ _ (by omega), State.setFlag_reg_ne _ _ _ _ (by omega)]
  · rw [State.setFlag_reg_ne _ _ _ _ (by omega)]

theorem State.dropBindings_reg (id : JobId) : (s.dropBindings id).reg a = s.reg a := by
  have unitSet (u : State) (k : Nat) (x : ApplyUnit) : (u.setApply k x).reg a = u.reg a := rfl
  refine State.foldl_preserves (fun u : State => u.reg a) _ (fun u k => ?_) _ s
  dsimp only
  rw [State.cairnFlags_reg _ other, unitSet]

theorem State.stopReports_reg (j : Job) (id : JobId) (reason : Nat) (key : Key) (detail unit : Nat) : (s.stopReports j id reason key detail unit).reg a = s.reg a := by
  obtain ⟨gv, counts, -, -, -, -, -, store, -⟩ := stopWord_ne other
  unfold State.stopReports
  dsimp only
  split
  · rw [State.gvFlag, State.setFlag_reg_ne _ _ _ _ gv, State.countVoid_reg _ _ _ gv counts, State.makeRecord_reg _ _ _ _ _ _ store]
  · rw [State.countVoid_reg _ _ _ gv counts, State.makeRecord_reg _ _ _ _ _ _ store]

theorem State.stopJob_reg (id : JobId) (reason : Nat) (key : Key) (detail unit : Nat) : (s.stopJob id reason key detail unit).reg a = s.reg a := by
  have ends (j : Job) : (s.stopEnds j id reason key detail unit).reg a = s.reg a := by
    have cycled (x : State) (l : List Cycle) : ({ x with cycles := l } : State).reg a = x.reg a := rfl
    have freed (x : State) : (x.freeTiles id).reg a = x.reg a := rfl
    unfold State.stopEnds
    dsimp only
    rw [cycled, State.dropBindings_reg _ other, freed, State.stopReports_reg _ other, State.reg_modJob]
  have over_ (x : State) : (x.hostJobOver id).reg a = x.reg a := (congrArg (fun y : State => y.reg a) (x.hostJobOver_link id) :)
  cases here : s.job id with
  | none => rw [s.stopJob_none here]
  | some j =>
    by_cases ended : j.isOver
    · rw [s.stopJob_over here ended]
    · rw [s.stopJob_active here ended]
      split
      · exact (over_ _).trans (ends j)
      · exact ends j

theorem State.partyGone_reg (p : Party) : (s.partyGone p).reg a = s.reg a := by
  obtain ⟨-, -, flag, party, counts, -⟩ := stopWord_ne other
  have replied (x : State) (status reason : Nat) : (x.slipReply status reason).reg a = x.reg a := by
    unfold State.slipReply
    split
    · rfl
    · exact (congrArg (fun y : State => y.reg a) (State.hpDone_link _ _ _ _ _) :)
  have sent : (s.slip.chips.foldl (fun s c => s.sendSlip c 3) s).reg a = s.reg a := by
    refine State.foldl_preserves (fun u : State => u.reg a) _ (fun u c => ?_) _ s
    unfold State.sendSlip
    dsimp only
    split <;> rfl
  unfold State.partyGone
  split
  · unfold State.slipAbort
    dsimp only
    rw [replied, State.slipCount, State.reg_setReg_ne _ _ _ _ counts, State.slipFlag, State.setFlag_reg_ne _ _ _ _ flag, State.reg_setReg_ne _ _ _ _ party]
    exact sent
  · rfl

theorem State.partiesGone_reg (f : Nat → Party) (l : List Nat) : (l.foldl (fun s t => s.partyGone (f t)) s).reg a = s.reg a :=
  State.foldl_preserves (fun u : State => u.reg a) _ (fun u t => u.partyGone_reg other (f t)) l s

theorem State.stopWhere_reg (p : Job → Bool) (reason unit : Nat) : (s.stopWhere p reason unit).reg a = s.reg a :=
  State.foldl_preserves (fun u : State => u.reg a) _ (fun u _ => u.stopJob_reg other _ _ _ _ _) _ s

theorem State.ergOut_reg (k reason : Nat) (on : s.ergLive k = true) : (s.ergOut k reason).reg a = s.reg a := by
  obtain ⟨-, -, -, -, -, seen, counts, store, -⟩ := stopWord_ne other
  have cleared : (s.ergCleared k).reg a = s.reg a := (State.fault_reg _ (decide_eq_false (by omega)) _ _ _ (show (3 : Nat) < 5 by decide)).trans rfl
  have emptied (x : State) : ((x.dropTraffic k).setApply k {}).reg a = x.reg a := rfl
  rw [s.ergOut_eq k reason on, emptied, State.partiesGone_reg _ other fun t => .tile (128 * k + t), State.stopWhere_reg _ other, cleared]

omit other

/-! ### The trip (R357) -/

theorem State.Struck.power {s u : State} (h : s.Struck u) : u.power = s.power := (congrArg State.power h.frame :)
theorem State.Struck.time {s u : State} (h : s.Struck u) : u.time = s.time := (congrArg State.time h.frame :)
theorem State.Reported.power {s u : State} (h : s.Reported u) : u.power = s.power := (congrArg State.power h :)

theorem State.ergOut_power (k reason : Nat) (on : s.ergLive k = true) : (s.ergOut k reason).power = s.power ∧ (s.ergOut k reason).time = s.time := by
  have struck := s.ergStopped_struck k reason
  have record := State.outRecord_reported (s.clearLive [k]) (s.serving k) 1 k k
  have emptied (x : State) : ((x.dropTraffic k).setApply k {}).power = x.power ∧ ((x.dropTraffic k).setApply k {}).time = x.time := ⟨rfl, rfl⟩
  rw [s.ergOut_eq k reason on, (emptied _).1, (emptied _).2]
  exact ⟨struck.power.trans record.power, struck.time.trans record.time⟩

/-- The trip of an erg die is recorded, and marked. -/
def State.tripSeen (s : State) (k n : Nat) : State :=
  let u := (s.pwrFlag 4).fault (s.serving k) none { cls := 0x0030, sev := 3, kind := 1, index := k, detail := n }
  { u with power := { u.power with tripped := u.power.tripped ++ [k] } }

theorem State.pwrFlag_serving (b k : Nat) : (s.pwrFlag b).serving k = s.serving k := (congrArg (fun x : State => x.serving k) (s.reported_pwrFlag b) :)

theorem State.trip_die (n d : Nat) (dom : s.sensorDom n = some d) (high : 16 ≤ d) (on : s.ergLive (domDie d) = true) : s.trip n = (s.tripSeen (domDie d) n).ergOut (domDie d) 0x0E := by
  unfold State.trip
  rw [dom]
  dsimp only
  rw [if_pos high, if_neg (by rw [on]; decide)]
  rfl

theorem State.trip_results {base : State} (same : s.jobs = base.jobs) (n d : Nat) (dom : s.sensorDom n = some d) (high : 16 ≤ d) (on : s.ergLive (domDie d) = true) :
    let u := s.trip n
    u.ergLive (domDie d) = false ∧ domDie d ∈ u.power.tripped ∧ (u.reg 0x1000).getLsbD 4 = true ∧
      (∀ j, base.job j.id = some j → j.stopped = none → j.running ≠ [] → (∃ q ∈ j.tiles, q / 128 = domDie d) → ∃ j', u.job j.id = some j' ∧ j'.stopped = some 0x0E ∧ j'.running = []) ∧ s.logs.made.length < u.logs.made.length := by
  have reported : s.Reported ((s.pwrFlag 4).fault (s.serving (domDie d)) none { cls := 0x0030, sev := 3, kind := 1, index := domDie d, detail := n }) := (s.reported_pwrFlag 4).trans (State.reported_fault _ _ _ _)
  have live : (s.tripSeen (domDie d) n).ergLive (domDie d) = true := (congrArg (fun x : State => x.ergLive (domDie d)) reported :).trans on
  have jobs : (s.tripSeen (domDie d) n).jobs = base.jobs := reported.jobs.trans same
  have flag : ((s.tripSeen (domDie d) n).reg 0x1000).getLsbD 4 = true := by
    have seen : (s.tripSeen (domDie d) n).reg 0x1000 = (s.pwrFlag 4).reg 0x1000 := State.fault_reg _ (by decide) _ _ _ (show (3 : Nat) < 5 by decide)
    rw [seen]
    exact s.pwrFlag_bit 4 (by decide)
  have made : s.logs.made.length ≤ (s.tripSeen (domDie d) n).logs.made.length := ((s.pwrFlag_heats 4).trans (State.fault_heats _ _ _ (by decide : (3 : Nat) < 5))).made
  rw [s.trip_die n d dom high on]
  dsimp only
  have out := State.ergOut_live (s.tripSeen (domDie d) n) (domDie d) 0x0E (domDie d) live
  have power := (State.ergOut_power (s.tripSeen (domDie d) n) (domDie d) 0x0E live).1
  refine ⟨by rw [out]; simp, ?_, by rw [State.ergOut_reg _ (by decide) _ _ live]; exact flag, fun j here runs tiles tile => State.ergOut_stops _ jobs _ _ live j here tile runs tiles, ?_⟩
  · rw [power]
    exact List.mem_append_right _ List.mem_cons_self
  · have more := State.ergOut_made (s.tripSeen (domDie d) n) (domDie d) 0x0E live
    omega

end Sys2Proof.Machine
end

section
/-! SUPPORT. Lists of samples, voltages, clocks and temperatures together, and the two conjuncts of the power control (13 R350 to R357), for obligation O47. -/

namespace Sys2Proof.Machine

variable {s v : State} {t : Time}

/-! ### One sample after another -/

theorem TimeUnit.seenAt_twice (u : TimeUnit) (t : Time) : (u.seenAt t).seenAt t = u.seenAt t := by
  unfold TimeUnit.seenAt
  by_cases runs : (u.running && !u.replay) = true
  · rw [if_pos runs]
    dsimp only
    rw [if_pos runs, max_assoc, max_self]
  · rw [if_neg runs, if_neg runs]

theorem State.at_seen {u : State} (seen : u.time = s.time.seenAt t) : u.at t = u := by
  rw [State.at_eq, seen, TimeUnit.seenAt_twice, ← seen]

variable (s)

theorem State.trip_time (n : Nat) : (s.trip n).time = s.time := by
  have downed (x : State) (cause : Nat) : (x.startDown cause).time = x.time := by
    unfold State.startDown
    split <;> rfl
  unfold State.trip
  cases s.sensorDom n with
  | none => rfl
  | some d =>
    dsimp only
    split
    · by_cases on : s.ergLive (domDie d) = true
      · rw [if_neg (by rw [on]; decide)]
        have reported : s.Reported ((s.pwrFlag 4).fault (s.serving (domDie d)) none { cls := 0x0030, sev := 3, kind := 1, index := domDie d, detail := n }) := (s.reported_pwrFlag 4).trans (State.reported_fault _ _ _ _)
        have live : (s.tripSeen (domDie d) n).ergLive (domDie d) = true := (congrArg (fun x : State => x.ergLive (domDie d)) reported :).trans on
        exact (State.ergOut_power _ (domDie d) 0x0E live).2.trans reported.time
      · rw [if_pos (by rw [Bool.not_eq_true] at on; rw [on]; rfl)]
    · split
      · rfl
      · rw [downed]
        exact ((s.reported_pwrFlag 4).trans (State.reported_fault _ _ _ _)).time

variable {s} in
theorem State.sensorDom_some {n : Nat} (on : s.sensorOn n = true) : ∃ d, s.sensorDom n = some d := by
  unfold State.sensorOn at on
  unfold State.sensorDom
  split at on
  · next low => exact ⟨_, if_pos low⟩
  · next low =>
    rw [if_neg low]
    split at on
    · next mid => exact ⟨_, if_pos mid⟩
    · next mid =>
      rw [if_neg mid, if_pos (of_decide_eq_true (Bool.and_eq_true _ _ ▸ on).1)]
      exact ⟨_, rfl⟩

/-- The thresholds of PWR_TEMP (R356). -/
def State.tempLimit (s : State) : Nat := fld (s.reg 0x100C) 15 8
def State.tempWarn (s : State) : Nat := min (fld (s.reg 0x100C) 7 0) s.tempLimit

/-- A sensor's reading, before the trip is looked at. -/
def State.heated (s : State) (x : Nat × Int) : State := s.senseHeat x (acts (s.power.warm.contains x.1) x.2 s.tempWarn) (acts (s.power.hot.contains x.1) x.2 s.tempLimit)

theorem State.sense_off (x : Nat × Int) (off : s.sensorOn x.1 = false) : s.sense x = s := if_pos (by rw [off]; rfl)
theorem State.sense_below (x : Nat × Int) (on : s.sensorOn x.1 = true) (cool : x.2 < 480) : s.sense x = s.heated x := (if_neg (by rw [on]; decide)).trans (if_neg (not_le.mpr cool))
theorem State.sense_trip (x : Nat × Int) (on : s.sensorOn x.1 = true) (hot : 480 ≤ x.2) : s.sense x = (s.heated x).trip x.1 := (if_neg (by rw [on]; decide)).trans (if_pos hot)

theorem State.heated_results (x : Nat × Int) (d : Nat) (dom : s.sensorDom x.1 = some d) : (s.sensed x (acts (s.power.warm.contains x.1) x.2 s.tempWarn) (acts (s.power.hot.contains x.1) x.2 s.tempLimit)).Heats (s.heated x) :=
  (s.senseHeat_results x _ _ d dom).1

theorem State.sense_time (x : Nat × Int) : (s.sense x).time = s.time := by
  by_cases on : s.sensorOn x.1 = true
  · obtain ⟨d, dom⟩ := State.sensorDom_some on
    have heated : (s.heated x).time = s.time := (s.heated_results x d dom).adapted.time.trans rfl
    rcases lt_or_ge x.2 480 with cool | hot
    · rw [s.sense_below x on cool, heated]
    · rw [s.sense_trip x on hot, State.trip_time, heated]
  · rw [s.sense_off x (Bool.eq_false_iff.mpr on)]

theorem exec_thermalSample (l : List (Nat × Int)) : exec (.thermalSample l t) s = .next (l.foldl State.sense (s.at t)) := rfl

variable {s} in
theorem exec_thermalSample_cons (x : Nat × Int) (rest : List (Nat × Int)) {u : State} (ran : exec (.thermalSample [x] t) s = .next u) : exec (.thermalSample (x :: rest) t) s = exec (.thermalSample rest t) u := by
  obtain rfl : (s.at t).sense x = u := Host.Outcome.next.inj ran
  have time : ((s.at t).sense x).time = s.time.seenAt t := ((s.at t).sense_time x).trans (by rw [State.at_eq])
  rw [exec_thermalSample, exec_thermalSample, State.at_seen time]
  rfl

/-! ### A sample below the trip, and one that trips an erg die -/

theorem State.heated_marks (x : Nat × Int) (on : s.sensorOn x.1 = true) :
    let u := s.heated x
    let warm := acts (s.power.warm.contains x.1) x.2 s.tempWarn
    let hot := acts (s.power.hot.contains x.1) x.2 s.tempLimit
    x ∈ u.power.temps ∧ (∀ e ∈ s.power.temps, e.1 ≠ x.1 → e ∈ u.power.temps) ∧ (x.1 ∈ u.power.warm ↔ warm = true) ∧ (x.1 ∈ u.power.hot ↔ hot = true) ∧
      ∀ m, m ≠ x.1 → ((m ∈ u.power.warm ↔ m ∈ s.power.warm) ∧ (m ∈ u.power.hot ↔ m ∈ s.power.hot)) := by
  intro u warm hot
  obtain ⟨d, dom⟩ := State.sensorDom_some on
  have heats := s.heated_results x d dom
  have temps : u.power.temps = (s.power.temps.filter fun e => decide (e.1 ≠ x.1)) ++ [x] := heats.adapted.temps
  have warms : u.power.warm = marked s.power.warm x.1 warm := heats.adapted.warm
  have hots : u.power.hot = marked s.power.hot x.1 hot := heats.adapted.hot
  rw [temps, warms, hots]
  refine ⟨List.mem_append_right _ List.mem_cons_self, fun e here ne => List.mem_append_left _ (List.mem_filter.mpr ⟨here, decide_eq_true ne⟩), by rw [mem_marked, if_pos rfl], by rw [mem_marked, if_pos rfl], fun m ne => ?_⟩
  rw [mem_marked, mem_marked, if_neg ne, if_neg ne]
  exact ⟨Iff.rfl, Iff.rfl⟩

theorem State.heated_effects (x : Nat × Int) (on : s.sensorOn x.1 = true) :
    let u := s.heated x
    let warm := acts (s.power.warm.contains x.1) x.2 s.tempWarn
    let hot := acts (s.power.hot.contains x.1) x.2 s.tempLimit
    (warm = true → x.1 ∉ s.power.warm → (u.reg 0x1000).getLsbD 2 = true) ∧ (hot = true → x.1 ∉ s.power.hot → (u.reg 0x1000).getLsbD 3 = true) ∧
      (∀ e, hot = true → s.sensorDom x.1 = some e → (domOases e).Nodup → ∀ p ∈ domOases e, (u.oasis p).mhz = max 400 ((s.oasis p).mhz * 90 / 100 / 5 * 5) ∧ (u.oasis p).throttle = some (u.oasis p).mhz) ∧
      (∀ e, s.sensorDom x.1 = some e → ∀ p, p ∉ domOases e → u.oasis p = s.oasis p) ∧ u.live = s.live ∧ u.tiles = s.tiles ∧ u.jobs = s.jobs := by
  intro u warm hot
  obtain ⟨d, dom⟩ := State.sensorDom_some on
  obtain ⟨heats, warmBit, hotBit, own, other⟩ := s.senseHeat_results x warm hot d dom
  refine ⟨warmBit, hotBit, fun e isHot at_ once p among => ?_, fun e at_ p out => ?_, heats.adapted.live, heats.adapted.tiles, heats.adapted.jobs⟩
  · obtain rfl : d = e := Option.some.inj (dom.symm.trans at_)
    have slow : u.oasis p = (s.oasis p).slowed := own isHot once p among
    rw [slow]
    exact ⟨rfl, rfl⟩
  · obtain rfl : d = e := Option.some.inj (dom.symm.trans at_)
    exact other p out

theorem State.heated_trip (x : Nat × Int) (on : s.sensorOn x.1 = true) (low : x.1 < 68) :
    let u := (s.heated x).trip x.1
    u.ergLive (x.1 / 17) = false ∧ x.1 / 17 ∈ u.power.tripped ∧ (u.reg 0x1000).getLsbD 4 = true ∧
      (∀ j, s.job j.id = some j → j.stopped = none → j.running ≠ [] → (∃ q ∈ j.tiles, q / 128 = x.1 / 17) → ∃ j', u.job j.id = some j' ∧ j'.stopped = some 0x0E ∧ j'.running = []) ∧ s.logs.made.length < u.logs.made.length := by
  have dom : s.sensorDom x.1 = some (16 + x.1) := if_pos low
  have die : domDie (16 + x.1) = x.1 / 17 := by
    unfold domDie
    rw [Nat.add_sub_cancel_left]
  have live : s.ergLive (x.1 / 17) = true := (if_pos low).symm.trans on
  have heats := s.heated_results x _ dom
  generalize s.heated x = w at heats ⊢
  have same : w.jobs = s.jobs := heats.adapted.jobs
  have made : s.logs.made.length ≤ w.logs.made.length := heats.made
  have there : w.sensorDom x.1 = some (16 + x.1) := (heats.sensorDom x.1).trans dom
  obtain ⟨dead, marked_, flag, stops, more⟩ := w.trip_results same x.1 (16 + x.1) there (by omega) (by rw [die]; exact (heats.ergLive _).trans live)
  rw [die] at dead marked_ stops
  exact ⟨dead, marked_, flag, stops, made.trans_lt more⟩

/-! ### The two conjuncts -/

theorem voltageAndHeatResults : Claims.VoltageAndHeatResults := by
  intro s o on alarm margin n temp rest t v x d others target volt tops limit warn hot
  have hv : s.at t = v := rfl
  have eq : v = { s with time := s.time.seenAt t } := s.at_eq t
  clear_value v
  subst eq
  have othersOf {u : State} (adapted : State.Adapted { s with time := s.time.seenAt t } u) (same : ∀ p, p ≠ o → u.oasis p = s.oasis p) (kept : u.kept = s.kept) : others u :=
    ⟨same, adapted.rows, adapted.tiles, adapted.jobs, kept⟩
  have sampled (x : Nat × Int) : exec (.thermalSample [x] t) s = .next (State.sense { s with time := s.time.seenAt t } x) := by rw [← hv]; rfl
  refine ⟨fun off => ⟨congrArg Host.Outcome.next (if_neg (by rw [off]; decide)), exec_oasis_off hv off⟩, fun on_ => ⟨?alarm, ?window, ?clock⟩, congrArg Host.Outcome.next hv,
    fun u ran => exec_thermalSample_cons (n, temp) rest ran, fun off => (sampled _).trans (congrArg Host.Outcome.next (State.sense_off _ (n, temp) off)), fun on_ cool => ?below, fun on_ high low => ?trips⟩
  case alarm =>
    have ran : exec (.timingAlarm o on) s = .next (s.setOasis o { x with alarm := on }) := congrArg Host.Outcome.next (if_pos on_)
    have adapted := s.setOasis_adapted o { x with alarm := on }
    refine ⟨_, ran, s.setOasis_own o _, ⟨fun p ne => s.setOasis_other o _ p ne, adapted.rows, adapted.tiles, adapted.jobs, (execTimingAlarm_keeps ..).next ran⟩, ?_⟩
    cases o <;> rfl
  case window =>
    have ran := exec_avsWindow_on (alarm := alarm) (margin := margin) hv on_
    obtain ⟨adapted, same, voltage, topAlarms, quiet, mhz⟩ := State.avsWindow_results { s with time := s.time.seenAt t } o alarm margin
    exact ⟨_, ran, voltage, topAlarms, quiet, mhz, othersOf adapted same ((execAvsWindow_keeps ..).next ran)⟩
  case clock =>
    have ran := exec_clockChange_on hv on_
    obtain ⟨adapted, same, values⟩ := State.clockChanged_results { s with time := s.time.seenAt t } o
    exact ⟨_, ran, othersOf adapted same ((execClockChange_keeps ..).next ran), values⟩
  case below =>
    have ran := (sampled (n, temp)).trans (congrArg Host.Outcome.next (State.sense_below _ (n, temp) on_ cool))
    obtain ⟨own, kept, warmMark, hotMark, others_⟩ := State.heated_marks { s with time := s.time.seenAt t } (n, temp) on_
    obtain ⟨warmBit, hotBit, slowed, rest_, live, tiles, jobs⟩ := State.heated_effects { s with time := s.time.seenAt t } (n, temp) on_
    exact ⟨_, ran, own, kept, warmMark, hotMark, others_, warmBit, hotBit, slowed, rest_, live, tiles, jobs, State.senseHeat_kept ..⟩
  case trips =>
    have ran := (sampled (n, temp)).trans (congrArg Host.Outcome.next (State.sense_trip _ (n, temp) on_ high))
    exact ⟨_, ran, State.heated_trip { s with time := s.time.seenAt t } (n, temp) on_ low⟩

/-- Settles O47: row, common and F domains with the hints, and voltages, clocks and temperatures, each by its own rule. -/
theorem powerResults : Obligations.PowerResults := ⟨powerDomainResults, voltageAndHeatResults⟩

end Sys2Proof.Machine
end

section
/-! SUPPORT. The cairn instructions, ACT, LOG, the profile reads and the hints (07 R178, R184; 08 R199, R225; 09 R245, R251 to R256; 21 R571), for obligation O17. -/

namespace Sys2Proof.Machine

section
variable {s : State} {t : Fin 512} {g : Issue} {c k : Core}

/-! ### An instruction that waits for a reply -/

/-- An instruction that issues and whose meaning holds the core leaves that core blocked (R213). -/
theorem exec_held {u : State} {i : Instr} {illegal : Core → Bool} {F : Core → State → NtRes} (issues : s.Issues t g c) (form : exec i s = .next (s.issue t g illegal F)) (legal : illegal c = false)
    (held : F c (s.fetched t g c) = .hold k u) : exec i s = .next (u.setCore t { k with blocked := true }) := by
  rw [form, State.issue_runs s t g c illegal F issues legal, held]
  rfl

/-! ### Cairns (R251, R258, R268) -/

/-- The message of a cairn operation. -/
def State.cairnMsg (f : State) (t : Nat) (c : Core) (cairn : Nat) (body : List Byte) (bad : Bool) : Msg :=
  c.msg t (.apply (cairn / 65536)) 1 0 { key := c.nextKey, void := f.voidOf c.id, poison := bad, body }

theorem State.cairnSend_sends (f : State) (t : Nat) {cairn : Nat} (body : List Byte) (bad : Bool) (more : Core → State → Key → NtRes) (room : c.noRoom c.prod = false) (left : c.spent = false)
    (there : cairn < 65536 * f.fuses.ergCount) (live : f.ergLive (cairn / 65536) = true) :
    f.cairnSend t c cairn body bad more = more c.emitted (f.inject (f.cairnMsg t c cairn body bad)) c.nextKey := by
  unfold State.cairnSend State.capCairns
  rw [if_neg (not_le.mpr there), if_neg (by rw [room]; decide), if_neg (by rw [live]; decide), if_neg (by rw [left]; decide)]
  rfl

theorem Core.cairnOf_eq (c : Core) (r : Fin 16) : c.cairnOf r = (c.s ⟨r.val, by omega⟩).toNat % 262144 := by
  simp [Core.cairnOf, fld, bitsOf]

/-- The operations of the cairn queue complete once their message is sent. -/
theorem exec_cairnQueued {i : Instr} (r : Fin 16) (opc : Nat) (operand : Core → Nat) (bad : Core → Bool) (issues : s.Issues t g c) (more : (s.fetched t g c).More t c) (room : c.noRoom c.prod = false) (left : c.spent = false)
    (form : exec i s = .next (s.cairnQueued t g r opc operand bad)) (there : c.cairnOf r < 65536 * (s.fetched t g c).fuses.ergCount) (live : (s.fetched t g c).ergLive (c.cairnOf r / 65536) = true)
    (queue : (s.fetched t g c).queueFull t 4 = false) :
    exec i s = .next ((((s.fetched t g c).inject ((s.fetched t g c).cairnMsg t c (c.cairnOf r) (cairnBody opc (c.cairnOf r) (operand c) 0 false 0) (bad c || c.cairnBad r))).fly t 4 [] []).setCore t (c.retire c.emitted)) := by
  refine exec_done issues more form rfl ?_
  rw [if_neg (by rw [queue]; decide), State.cairnSend_sends _ _ _ _ _ room left there live]

theorem execCwait_waits (r : Fin 16) (a b : Fin 32) (issues : s.Issues t g c) (room : c.noRoom c.prod = false) (left : c.spent = false)
    (there : c.cairnOf r < 65536 * (s.fetched t g c).fuses.ergCount) (live : (s.fetched t g c).ergLive (c.cairnOf r / 65536) = true) :
    exec (.cwait t g r a b) s = .next (((s.fetched t g c).inject ((s.fetched t g c).cairnMsg t c (c.cairnOf r) (cairnBody 4 (c.cairnOf r) (c.s b).toNat 0 false 0) (c.sBad b || c.cairnBad r))).setCore t
      { c.emitted with wait := some { die := c.cairnOf r / 65536, key := c.nextKey, kind := 0, sreg := a.val, preg := 0, slot := 0 }, blocked := true }) :=
  exec_held (k := { c.emitted with wait := some { die := c.cairnOf r / 65536, key := c.nextKey, kind := 0, sreg := a.val, preg := 0, slot := 0 } }) issues rfl rfl
    (State.cairnSend_sends _ _ _ _ (fun k' s key => .hold { k' with wait := some { die := c.cairnOf r / 65536, key, kind := 0, sreg := a.val, preg := 0, slot := 0 } } s) room left there live)

/-! ### Settles (R178, R184, R252) -/

/-- The core that waits for a settle. -/
def Core.settling (c : Core) (slot kind die : Nat) (b : Fin 32) (pd : Fin 8) : Core :=
  { c.emitted with counters := mdel c.counters slot, blocked := true, wait := some { die, key := c.nextKey, kind, sreg := b.val, preg := pd.val, slot } }

/-- A settle that goes out. -/
theorem exec_settles {i : Instr} {F : Core → State → NtRes} {slot cairn opc kind threshold contrib : Nat} {b : Fin 32} {pd : Fin 8} {rerun bad : Bool} (issues : s.Issues t g c) (form : exec i s = .next (s.issue t g anyEnc F))
    (room : c.noRoom c.prod = false) (left : c.spent = false) (there : cairn < 65536 * (s.fetched t g c).fuses.ergCount) (live : (s.fetched t g c).ergLive (cairn / 65536) = true)
    (sends : F c (s.fetched t g c) = (s.fetched t g c).settleSend t c slot cairn opc kind b pd rerun threshold contrib bad) :
    exec i s = .next (((s.fetched t g c).inject ((s.fetched t g c).cairnMsg t c cairn (cairnBody opc cairn (mget (fun _ => 0) c.counters slot) contrib rerun threshold) bad)).setCore t (c.settling slot kind (cairn / 65536) b pd)) :=
  exec_held (k := { c.emitted with counters := mdel c.counters slot, wait := some { die := cairn / 65536, key := c.nextKey, kind, sreg := b.val, preg := pd.val, slot } }) issues form rfl
    (sends.trans (State.cairnSend_sends _ _ _ _ (fun k s key => .hold { k with counters := mdel k.counters slot, wait := some { die := cairn / 65536, key, kind, sreg := b.val, preg := pd.val, slot } } s) room left there live))

theorem execSettleN_off (a b : Fin 32) (pd : Fin 8) (issues : s.Issues t g c) (more : (s.fetched t g c).More t c) (small : (c.s a).toNat < 64)
    (off : (((s.fetched t g c).tile t).half c.bank).slotMode (c.s a).toNat = 0) : exec (.settleN t g a b pd) s = .next ((s.fetched t g c).setCore t (c.retire ((c.setS b 0 false).setP pd false false))) := by
  refine exec_done issues more rfl rfl ?_
  dsimp only
  rw [if_neg (by omega), if_pos off]

/-! ### ACT and LOG (R199, R245, R254, R255, R571) -/

/-- The message of an extent that goes to a mesa unit. -/
def State.emitMsg (f : State) (t : Nat) (c : Core) (dest : Place) (bad : Bool) (body : List Byte) : Msg :=
  c.msg t dest 0 0 { key := c.nextKey, void := f.voidOf c.id, poison := bad, body }

theorem State.emitExtent_sends (f : State) (t : Nat) (x : Extent) (dest : Place) (regs : Bool) (wrap : State → List Byte → List Byte) (queue : f.queueFull t 3 = false) (left : c.spent = false)
    (clean : f.loadBad t c 0 x.base x.len = false) :
    f.emitExtent t c x dest regs wrap = .done c.emitted ((f.inject (f.emitMsg t c dest regs (wrap f ((f.tile t).abuf.bytes x.base x.len)))).fly t 3 [x] []) := by
  unfold State.emitExtent
  rw [if_neg (by rw [queue]; decide), if_neg (by rw [left]; decide), clean]
  rfl

theorem traceBytes_eq (type void : Nat) (replay : Bool) (key : Key) (body : List Byte) :
    traceBytes type void replay key body = [BitVec.ofNat 8 type, if replay then 1 else 0, BitVec.ofNat 8 void, 0] ++ leBytes 12 key.toNat ++ body := by
  cases replay <;> rfl

/-- An extent of the buffer that is whole and inside passes the checks of ACT and LOG. -/
theorem State.emitCheck_pass (f : State) (t : Fin 512) (x : Extent) (operand : Bool) (fine : operand = false) (room : c.noRoom c.prod = false) (space : x.space = 0) (base : x.base % 4 = 0) (len : x.len % 4 = 0)
    (inside : x.base + x.len ≤ 0x40000) : f.emitCheck t c x operand = none := by
  refine firstCause_eq_none fun y among => ?_
  rcases List.mem_append.mp among with first | extent
  · simp only [List.mem_cons, List.not_mem_nil, or_false] at first
    rcases first with rfl | rfl
    · exact fine
    · exact room
  · exact f.extentChecks_pass t [0] x (by omega) (by rw [space]; rfl) ⟨base, len⟩ (by rw [space]; exact inside) y extent

/-! ### The profile reads (R225) -/

theorem notProfile_single {r : Nat} (profile : c.profile = true) : notProfile false r c = false := by
  unfold notProfile
  rw [profile]
  rfl

theorem notProfile_pair {dst dst' : Fin 32} (profile : c.profile = true) (next : dst'.val = dst.val + 1) : notProfile true dst.val c = false := by
  unfold notProfile
  rw [profile, decide_eq_false (by omega)]
  rfl

/-- A pair is the register and the one after it. -/
theorem Core.setPair_next (c : Core) (dst : Fin 32) {dst' : Fin 32} (next : dst'.val = dst.val + 1) (v : Nat) (bad : Bool) :
    c.setPair dst v bad = (c.setS dst (BitVec.ofNat 32 v) bad).setS dst' (BitVec.ofNat 32 (v / 4294967296)) bad := by
  have after : nextReg dst = dst' := by
    unfold nextReg
    rw [dif_pos (by omega)]
    exact Fin.ext next.symm
  rw [Core.setPair, after, loWord, hiWord, Nat.shiftRight_eq_div_pow]

/-! ### Hints (R224, R256) -/

/-- What changes the power control alone. -/
def State.PowerOnly (s u : State) : Prop := { u with power := s.power } = s

theorem State.PowerOnly.retired {u : State} (h : s.PowerOnly u) (kept : u.kept = s.kept) (k : Core) :
    ((u.setCore t k).tile t).core = some k ∧ (∀ n, n ≠ t.val → (u.setCore t k).tile n = s.tile n) ∧ (u.setCore t k).resv = s.resv ∧ (u.setCore t k).net = s.net ∧
      (u.setCore t k).regs = s.regs ∧ (u.setCore t k).jobs = s.jobs ∧ (u.setCore t k).kept = s.kept := by
  have tiles : u.tiles = s.tiles := (congrArg State.tiles h :)
  have resv : u.resv = s.resv := (congrArg State.resv h :)
  have net : u.net = s.net := (congrArg State.net h :)
  have regs : u.regs = s.regs := (congrArg State.regs h :)
  have jobs : u.jobs = s.jobs := (congrArg State.jobs h :)
  exact ⟨State.setCore_core _ _ _, fun n ne => (State.setCore_tile_ne _ _ _ _ ne).trans (State.tile_of_tiles tiles n), resv, net, regs, jobs, (State.setCore_kept _ _ _).trans kept⟩

theorem State.idleSoon_powerOnly (f : State) (d : Nat) : f.PowerOnly (f.idleSoon d) := by
  unfold State.idleSoon
  split <;> rfl

theorem State.busySoon_powerOnly (f : State) (d : Nat) : f.PowerOnly (f.busySoon d) := by
  unfold State.busySoon
  split
  · exact (f.heldBusy_results d).2.2.2.2
  · rfl

end

/-! ### The two conjuncts -/

theorem cairnInstructionResults : Claims.CairnInstructionResults := by
  intro s t g c issues more room left f sent n nb fly
  have cairn (r : Fin 16) : c.cairnOf r = n r := c.cairnOf_eq r
  refine ⟨fun r a b there live => ⟨fun queue => ?queued, ?waits⟩, ?settles⟩
  case queued =>
    rw [← cairn] at there live
    have goes (i : Instr) (opc : Nat) (operand : Core → Nat) (bad : Core → Bool) (form : exec i s = .next (s.cairnQueued t g r opc operand bad)) :
        sent i (n r) opc (operand c) (bad c || nb r) 0 false 0 (c.retire c.emitted) fly := by
      have ran := exec_cairnQueued r opc operand bad issues more room left form there live queue
      rw [cairn] at ran
      exact ran
    exact ⟨goes _ 1 (fun _ => 1) (fun _ => false) rfl, goes _ 1 (fun k => (k.s a).toNat) (fun k => k.sBad a) rfl, goes _ 2 (fun k => (k.s a).toNat) (fun k => k.sBad a) rfl, goes _ 3 (fun _ => 0) (fun _ => false) rfl⟩
  case waits =>
    rw [← cairn] at there live
    have ran := execCwait_waits r a b issues room left there live
    rw [cairn] at ran
    exact ran
  case settles =>
    intro a b pd slot k count m away small
    refine ⟨execSettleN_off a b pd issues more small, fun armed there live => exec_settles issues rfl room left there live ?_, fun wide there live => exec_settles issues rfl room left there live ?_⟩
    · show (if 63 < slot then _ else if k.slotMode slot = 0 then _ else if k.slotMode slot = 3 then _ else _) = _
      rw [if_neg (by omega), if_neg (by omega), if_neg (by omega)]
    · show (if 63 < slot then _ else if k.slotMode slot < 2 then _ else _) = _
      rw [if_neg (by omega), if_neg (by omega)]

theorem emitAndProfileResults : Claims.EmitAndProfileResults := by
  intro s t g c issues more f
  refine ⟨?emits, fun profile dst cycles => ⟨?stall, fun dst' next => ⟨?cycles, ?time⟩⟩, fun a => ⟨?none_, ?idle, ?busy⟩⟩
  case emits =>
    intro xa r x space base len inside room left queue clean sent bytes
    refine ⟨fun whole => exec_done issues more rfl rfl ?_, fun low high first last => exec_done issues more rfl rfl ?_⟩
    · show (match f.emitCheck t c x (decide (x.len ≠ 48)) with | some n => NtRes.raise n | none => _) = _
      rw [f.emitCheck_pass t x _ (decide_eq_false (not_not.mpr whole)) room space base len inside]
      exact f.emitExtent_sends t x _ _ _ queue left clean
    · have type : fld (c.s r) 7 0 = (c.s r).toNat % 256 := by simp [fld, bitsOf]
      show (match f.emitCheck t c x (decide (x.len < 16 ∨ 256 < x.len ∨ fld (c.s r) 7 0 < 0x40 ∨ 0x7F < fld (c.s r) 7 0)) with | some n => NtRes.raise n | none => _) = _
      rw [f.emitCheck_pass t x _ (decide_eq_false (by omega)) room space base len inside]
      refine (f.emitExtent_sends t x _ _ _ queue left clean).trans ?_
      rw [type, traceBytes_eq]
      rfl
  case stall => exact exec_done issues more rfl (notProfile_single profile) rfl
  case cycles => exact exec_done issues more rfl (notProfile_pair profile next) (by rw [c.setPair_next dst next])
  case time => exact exec_done issues more rfl (notProfile_pair profile next) (by rw [c.setPair_next dst next])
  case none_ => exact congrArg Host.Outcome.next (State.issueCore_runs s t g c _ issues more)
  case idle => exact ⟨_, exec_done issues more rfl rfl rfl, (f.idleSoon_powerOnly _).retired (State.idleSoon_kept ..) _⟩
  case busy => exact ⟨_, exec_done issues more rfl rfl rfl, (f.busySoon_powerOnly _).retired (State.busySoon_kept ..) _⟩

/-- Settles O17: each instruction by what its meaning leaves, and that by whether it completes or waits. -/
theorem cairnAndEmitInstructionResults : Obligations.CairnAndEmitInstructionResults := ⟨cairnInstructionResults, emitAndProfileResults⟩

end Sys2Proof.Machine
end

section
/-! SUPPORT. What the work of cycles keeps: the commit and the decision of every cycle, the links, and what waits on them (17 R444 to R453, R455, R459; 19 R510), for obligation O42. -/

namespace Sys2Proof.Machine

/-! ### What stays of a cycle -/

/-- `c'` is `c` at work: its commit, check and event stay, and so do a verdict that is final and a default action that has been decided. -/
structure Cycle.Kin (c c' : Cycle) : Prop where
  id : c'.id = c.id
  commit : c'.commit = c.commit
  checked : c'.checked = c.checked
  event : c'.event = c.event
  final : c.verdict ≠ none → c'.verdict = c.verdict ∧ c'.recorded = c.recorded
  dflt : c.dfltSent = true ∨ c.dfltNotSent = true → c'.dfltSent = c.dfltSent ∧ c'.dfltNotSent = c.dfltNotSent

theorem Cycle.Kin.refl (c : Cycle) : c.Kin c := ⟨rfl, rfl, rfl, rfl, fun _ => ⟨rfl, rfl⟩, fun _ => ⟨rfl, rfl⟩⟩

theorem Cycle.Kin.trans {c c₁ c₂ : Cycle} (h : c.Kin c₁) (h' : c₁.Kin c₂) : c.Kin c₂ where
  id := h'.id.trans h.id
  commit := h'.commit.trans h.commit
  checked := h'.checked.trans h.checked
  event := h'.event.trans h.event
  final given := by
    obtain ⟨verdict, recorded⟩ := h.final given
    obtain ⟨verdict', recorded'⟩ := h'.final (verdict ▸ given)
    exact ⟨verdict'.trans verdict, recorded'.trans recorded⟩
  dflt decided := by
    obtain ⟨sent, notSent⟩ := h.dflt decided
    obtain ⟨sent', notSent'⟩ := h'.dflt (by rwa [sent, notSent])
    exact ⟨sent'.trans sent, notSent'.trans notSent⟩

/-! ### What stays of the state -/

/-- What the work of cycles leaves of the unit. -/
structure State.Acts (s u : State) : Prop where
  frame : { u with regs := s.regs, logs := s.logs, link := s.link, ports := s.ports, cycles := s.cycles } = s
  made : s.logs.made.length ≤ u.logs.made.length
  up : ∀ p, (u.port p).up = (s.port p).up
  cycle : ∀ id c, s.cycle id = some c → ∃ c', u.cycle id = some c' ∧ c.Kin c'
  events : s.replaying = false → ∀ p x, (s.port p).up = true → x ∈ (s.port p).events → x.scheduled = false → x ∈ (u.port p).events
  queue : s.replaying = false → ∀ p f, (s.port p).up = true → f ∈ (s.port p).queue → f ∈ (u.port p).queue

variable {s u w : State}

theorem State.Acts.replaying (h : s.Acts u) : u.replaying = s.replaying := (congrArg State.replaying h.frame :)
theorem State.Acts.tiles (h : s.Acts u) : u.tiles = s.tiles := (congrArg State.tiles h.frame :)
theorem State.Acts.resv (h : s.Acts u) : u.resv = s.resv := (congrArg State.resv h.frame :)
theorem State.Acts.jobs (h : s.Acts u) : u.jobs = s.jobs := (congrArg State.jobs h.frame :)
theorem State.Acts.slip (h : s.Acts u) : u.slip = s.slip := (congrArg State.slip h.frame :)
theorem State.Acts.time (h : s.Acts u) : u.time = s.time := (congrArg State.time h.frame :)

theorem State.Acts.refl (s : State) : s.Acts s := ⟨rfl, le_rfl, fun _ => rfl, fun _ c hc => ⟨c, hc, .refl c⟩, fun _ _ _ _ here _ => here, fun _ _ _ _ here => here⟩

theorem State.Acts.trans (h : s.Acts u) (h' : u.Acts w) : s.Acts w where
  frame := (congrArg (fun x : State => { x with regs := s.regs, logs := s.logs, link := s.link, ports := s.ports, cycles := s.cycles }) h'.frame :).trans h.frame
  made := h.made.trans h'.made
  up p := (h'.up p).trans (h.up p)
  cycle id c hc := by
    obtain ⟨c₁, found₁, kin₁⟩ := h.cycle id c hc
    obtain ⟨c₂, found₂, kin₂⟩ := h'.cycle id c₁ found₁
    exact ⟨c₂, found₂, kin₁.trans kin₂⟩
  events live p x up here waits := h'.events (h.replaying.trans live) p x ((h.up p).trans up) (h.events live p x up here waits) waits
  queue live p f up here := h'.queue (h.replaying.trans live) p f ((h.up p).trans up) (h.queue live p f up here)

theorem State.Acts.foldl {α : Type} (f : State → α → State) (step : ∀ (s : State) a, s.Acts (f s a)) (l : List α) (s : State) : s.Acts (l.foldl f s) := by
  induction l generalizing s with
  | nil => exact .refl s
  | cons a l ih => exact (step s a).trans (ih (f s a))

/-- A change of a cycle that the cycle of the name is kin to. -/
theorem State.modCycle_acts (s : State) (id : JobId) (f : Cycle → Cycle) (name : ∀ c, (f c).id = c.id) (kin : ∀ c, s.cycle id = some c → c.Kin (f c)) : s.Acts (s.modCycle id f) where
  frame := rfl
  made := le_rfl
  up _ := rfl
  cycle id' c hc := by
    rw [State.modCycle_cycle _ _ _ _ name, hc]
    split
    · next same => exact ⟨f c, rfl, kin c (same ▸ hc)⟩
    · exact ⟨c, rfl, .refl c⟩
  events _ _ _ _ here _ := here
  queue _ _ _ _ here := here

/-- A report that reaches no port. -/
theorem State.Acts.of_report (report : s.Reported u) (ports : u.ports = s.ports) (made : s.logs.made.length ≤ u.logs.made.length) : s.Acts u where
  frame := (congrArg (fun x : State => { x with cycles := s.cycles }) report :)
  made := made
  up p := congrArg (fun q : Vector DflPort 4 => (q.toList.getD p {}).up) ports
  cycle id c hc := ⟨c, (congrArg (fun x : State => x.cycle id) report :).trans hc, .refl c⟩
  events _ p _ _ here _ := (congrArg (fun q : Vector DflPort 4 => (q.toList.getD p {}).events) ports).symm ▸ here
  queue _ p _ _ here := (congrArg (fun q : Vector DflPort 4 => (q.toList.getD p {}).queue) ports).symm ▸ here

theorem State.port_setPort (s : State) (p q : Nat) (d : DflPort) : (s.setPort p d).port q = if q = p ∧ p < 4 then d else s.port q := by
  by_cases small : q < 4
  · by_cases same : q = p
    · subst same
      rw [if_pos ⟨rfl, small⟩]
      exact s.port_setPort_same ⟨q, small⟩ d
    · rw [if_neg fun h => same h.1]
      exact s.port_setPort_ne p ⟨q, small⟩ d same
  · rw [if_neg (by omega)]
    simp [State.port, State.setPort, small]

/-- A port that keeps its link, the events that are not scheduled and the frames that wait. -/
theorem State.setPort_acts (s : State) (p : Nat) (d : DflPort) (up : d.up = (s.port p).up) (events : (s.port p).up = true → s.replaying = false → ∀ x ∈ (s.port p).events, x.scheduled = false → x ∈ d.events)
    (queue : (s.port p).up = true → s.replaying = false → ∀ f ∈ (s.port p).queue, f ∈ d.queue) : s.Acts (s.setPort p d) where
  frame := rfl
  made := le_rfl
  up q := by
    rw [State.port_setPort]
    split
    · next here => rw [here.1, up]
    · rfl
  cycle _ c hc := ⟨c, hc, .refl c⟩
  events live q x on here waits := by
    rw [State.port_setPort]
    split
    · next at_ => exact events (at_.1 ▸ on) live x (at_.1 ▸ here) waits
    · exact here
  queue live q f on here := by
    rw [State.port_setPort]
    split
    · next at_ => exact queue (at_.1 ▸ on) live f (at_.1 ▸ here)
    · exact here

variable (s)

/-! ### Records (R40, R451) -/

theorem State.countVoid_ports (void : Nat) : (s.countVoid void).ports = s.ports := by
  have flags : ((List.range 4).foldl (fun s b => if void.testBit b then s.gvFlag b else s) s).ports = s.ports :=
    State.foldl_preserves State.ports _ (fun u b => by split <;> rfl) _ s
  have counted (u : State) : (u.count32 0x84 1).ports = u.ports := rfl
  unfold State.countVoid
  dsimp only
  generalize (List.range 4).foldl (fun s b => if void.testBit b then s.gvFlag b else s) s = v at flags ⊢
  split
  · exact flags
  · exact (counted v).trans flags

theorem State.setFlag_ports (a b : Nat) : (s.setFlag a b).ports = s.ports := rfl

theorem State.actFlag_still (j b : Nat) : (s.actFlag j b).ports = s.ports ∧ (s.actFlag j b).logs = s.logs := ⟨s.setFlag_ports _ _, s.setFlag_logs _ _⟩

theorem State.verdictFlagged_still (die verdict : Nat) : (s.verdictFlagged die verdict).ports = s.ports ∧ (s.verdictFlagged die verdict).logs = s.logs := by
  unfold State.verdictFlagged
  split
  · exact s.actFlag_still _ _
  · exact ⟨rfl, rfl⟩

/-- A decision record: one record, no port. -/
theorem State.decision_made (c : Cycle) (n verdict reason : Nat) (ev : List Byte) :
    s.Acts (s.decision c n verdict reason ev) ∧ (s.decision c n verdict reason ev).logs.made.length = s.logs.made.length + 1 := by
  have report := s.reported_decision c n verdict reason ev
  have still : (s.decision c n verdict reason ev).ports = s.ports ∧ (s.decision c n verdict reason ev).logs.made.length = s.logs.made.length + 1 := by
    obtain ⟨bytes, eq⟩ := s.decision_eq c n verdict reason ev
    have ports := s.makeRecord_ports c.die 0 (some (keyOf c.id.stamp (0xFFFFFFF0 + min n 15))) bytes
    have made := s.makeRecord_made c.die 0 (some (keyOf c.id.stamp (0xFFFFFFF0 + min n 15))) bytes
    rw [eq]
    generalize s.makeRecord c.die 0 (some (keyOf c.id.stamp (0xFFFFFFF0 + min n 15))) bytes = v at ports made ⊢
    have portsV := v.countVoid_ports (c.void ||| s.voidOf c.id)
    have logsV := v.countVoid_logs (c.void ||| s.voidOf c.id)
    generalize v.countVoid (c.void ||| s.voidOf c.id) = x at portsV logsV ⊢
    obtain ⟨portsF, logsF⟩ := (x.count32 (mesaBase c.die + 0x40010 + 4 * verdict) 1).verdictFlagged_still c.die verdict
    have counted (u : State) (a : Nat) : (u.count32 a 1).ports = u.ports := rfl
    rw [counted, portsV, ports] at portsF
    rw [State.count32_logs, logsV] at logsF
    dsimp only
    generalize (x.count32 (mesaBase c.die + 0x40010 + 4 * verdict) 1).verdictFlagged c.die verdict = y at portsF logsF ⊢
    split
    · rw [(y.actFlag_still _ _).1, (y.actFlag_still _ _).2, portsF, logsF]
      exact ⟨rfl, made⟩
    · rw [portsF, logsF]
      exact ⟨rfl, made⟩
  obtain ⟨ports, made⟩ := still
  exact ⟨.of_report report ports (by rw [made]; exact Nat.le_succ _), made⟩

/-! ### Sending (R38, R453, R455, R459) -/

theorem DflPort.mem_queueFrame (d : DflPort) (f g : DflFrame) : g ∈ (d.queueFrame f).queue ↔ g = f ∨ g ∈ d.queue := by
  rw [DflPort.queueFrame, (insertBy_perm DflFrame.prio f d.queue).mem_iff, List.mem_cons]

/-- A port that has taken an event under a handle; its resolved events have gone. -/
def DflPort.noted (d : DflPort) (now : Time) (eid : Nat) (id : JobId) (die : Nat) (e : ActEvent) : DflPort :=
  { d with nextEid := (eid + 1) % 4096, events := (d.events.filter fun x => x.open_ now) ++ [{ eid, event := e, cycle := id, cycleDie := die }] }

/-- The handle of its next event. -/
def DflPort.eidAt (d : DflPort) (now : Time) : Nat := DflPort.freeEid { d with events := d.events.filter fun x => x.open_ now }

/-- The port with the event, and with its frame unless nothing crosses the link. -/
def DflPort.sending (d : DflPort) (now : Time) (shut : Bool) (eid : Nat) (id : JobId) (die : Nat) (e : ActEvent) : DflPort :=
  if shut then d.noted now eid id die e else (d.noted now eid id die e).queueFrame { prio := 2, bytes := eventFrame eid e, eid := some eid }

theorem State.sendEvent_eq (id : JobId) (die : Nat) (e : ActEvent) :
    s.sendEvent id die e = s.setPort e.chip ((s.port e.chip).sending s.time.now (s.replaying || !(s.port e.chip).up) ((s.port e.chip).eidAt s.time.now) id die e) := rfl

/-- The port keeps its link, its open events and its frames. -/
theorem DflPort.sending_keeps (d : DflPort) (now : Time) (shut : Bool) (eid : Nat) (id : JobId) (die : Nat) (e : ActEvent) :
    (d.sending now shut eid id die e).up = d.up ∧ (∀ x ∈ d.events, x.scheduled = false → x ∈ (d.sending now shut eid id die e).events) ∧ ∀ f ∈ d.queue, f ∈ (d.sending now shut eid id die e).queue := by
  have stays (x : DflEvent) (here : x ∈ d.events) (waits : x.scheduled = false) : x ∈ (d.noted now eid id die e).events := by
    have open_ : x.open_ now = true := by
      unfold DflEvent.open_
      rw [waits]
      rfl
    exact List.mem_append_left _ (List.mem_filter.mpr ⟨here, open_⟩)
  unfold DflPort.sending
  split
  · exact ⟨rfl, stays, fun _ here => here⟩
  · exact ⟨rfl, stays, fun f here => (DflPort.mem_queueFrame _ _ _).mpr (.inr here)⟩

theorem State.sendEvent_acts (id : JobId) (die : Nat) (e : ActEvent) : s.Acts (s.sendEvent id die e) := by
  obtain ⟨up, events, queue⟩ := (s.port e.chip).sending_keeps s.time.now (s.replaying || !(s.port e.chip).up) ((s.port e.chip).eidAt s.time.now) id die e
  rw [State.sendEvent_eq]
  exact s.setPort_acts e.chip _ up (fun _ _ => events) fun _ _ => queue

/-- An event that goes out over a link that is up waits with its frame. -/
theorem DflPort.sending_frame (d : DflPort) (now : Time) (eid : Nat) (id : JobId) (die : Nat) (e : ActEvent) :
    ∃ x ∈ (d.sending now false eid id die e).events, x.scheduled = false ∧ x.event = e ∧ x.cycle = id ∧
      ∃ f ∈ (d.sending now false eid id die e).queue, f.prio = 2 ∧ f.bytes = eventFrame x.eid e ∧ f.eid = some x.eid := by
  unfold DflPort.sending
  rw [if_neg Bool.false_ne_true]
  exact ⟨{ eid, event := e, cycle := id, cycleDie := die }, List.mem_append_right _ List.mem_cons_self, rfl, rfl, rfl,
    { prio := 2, bytes := eventFrame eid e, eid := some eid }, (DflPort.mem_queueFrame _ _ _).mpr (.inl rfl), rfl, rfl, rfl⟩

end Sys2Proof.Machine
end

section
/-! SUPPORT. Default actions, verdicts, lost events and the turns of the solenoid banks (17 R444 to R453, R455, R459; 19 R510), for obligation O42. -/

namespace Sys2Proof.Machine

variable {s u : State} {id : JobId} {c : Cycle}

theorem State.cycle_id (hc : s.cycle id = some c) : c.id = id := by
  have found := List.find?_some hc
  exact of_decide_eq_true found

theorem State.modCycle_own (hc : s.cycle id = some c) (f : Cycle → Cycle) (name : ∀ c, (f c).id = c.id) : (s.modCycle id f).cycle id = some (f c) := by
  rw [State.modCycle_cycle _ _ _ _ name, if_pos rfl, hc]
  rfl

/-! ### The default action (R37, R449, R453) -/

/-- The default action of a cycle does not reach its chip. -/
def State.barred (s : State) (c : Cycle) : Bool := (s.chipCheck c.id.stamp c.dflt.chip c.dflt.kind c.dflt.index).isSome || (!s.replaying && !(s.port c.dflt.chip).up)

theorem State.sendDefault_acts (hc : s.cycle c.id = some c) (open_ : ¬ (c.dflt.action = 0 ∨ c.dfltSent = true ∨ c.dfltNotSent = true)) (direct : Bool) (e : ActEvent) :
    s.Acts (s.sendDefault c direct e) ∧ ∃ c', (s.sendDefault c direct e).cycle c.id = some c' ∧ c'.dfltSent = true ∧ c'.dfltNotSent = c.dfltNotSent := by
  rw [not_or] at open_
  have sent : s.Acts (s.modCycle c.id fun c => { c with dfltSent := true, dflt := e }) := by
    refine s.modCycle_acts _ _ (fun _ => rfl) fun c' found => ?_
    obtain rfl : c = c' := Option.some.inj (hc.symm.trans found)
    exact ⟨rfl, rfl, rfl, rfl, fun _ => ⟨rfl, rfl⟩, fun decided => absurd decided open_.2⟩
  have found : (s.modCycle c.id fun c => { c with dfltSent := true, dflt := e }).cycle c.id = some { c with dfltSent := true, dflt := e } := State.modCycle_own hc _ fun _ => rfl
  unfold State.sendDefault
  dsimp only
  generalize (s.modCycle c.id fun c => { c with dfltSent := true, dflt := e }) = v at sent found ⊢
  split
  · refine ⟨sent.trans (v.modCycle_acts _ _ (fun _ => rfl) fun c' _ => ⟨rfl, rfl, rfl, rfl, fun _ => ⟨rfl, rfl⟩, fun _ => ⟨rfl, rfl⟩⟩), ?_⟩
    exact ⟨_, State.modCycle_own found _ fun _ => rfl, rfl, rfl⟩
  · exact ⟨sent.trans (v.sendEvent_acts _ _ _), _, found, rfl, rfl⟩

theorem State.runDefault_acts (hc : s.cycle c.id = some c) (skip : Option Nat) (direct : Bool) : s.Acts (s.runDefault c skip direct) := by
  rw [State.runDefault_eq]
  by_cases done : c.dflt.action = 0 ∨ c.dfltSent = true ∨ c.dfltNotSent = true
  · rw [if_pos done]
    exact .refl s
  · rw [if_neg done]
    split
    · refine s.modCycle_acts _ _ (fun _ => rfl) fun c' found => ?_
      obtain rfl : c = c' := Option.some.inj (hc.symm.trans found)
      exact ⟨rfl, rfl, rfl, rfl, fun _ => ⟨rfl, rfl⟩, fun decided => absurd (.inr decided) done⟩
    · exact (State.sendDefault_acts hc done direct _).1

/-- The default of a verdict: sent, or noted as not sent. -/
theorem State.runDefault_decides (hc : s.cycle c.id = some c) (action : c.dflt.action ≠ 0) (sent : c.dfltSent = false) (notSent : c.dfltNotSent = false) :
    ∃ c', (s.runDefault c none false).cycle c.id = some c' ∧ c'.dfltSent = !s.barred c ∧ c'.dfltNotSent = s.barred c := by
  have open_ : ¬ (c.dflt.action = 0 ∨ c.dfltSent = true ∨ c.dfltNotSent = true) := by
    rintro (none_ | one | two)
    · exact action none_
    · exact absurd (sent.symm.trans one) Bool.false_ne_true
    · exact absurd (notSent.symm.trans two) Bool.false_ne_true
  have bars : ((none : Option Nat) = some c.dflt.chip ∨ (s.chipCheck c.id.stamp c.dflt.chip c.dflt.kind c.dflt.index).isSome = true ∨ (!s.replaying) = true ∧ (!(s.port c.dflt.chip).up) = true) ↔ s.barred c = true := by
    unfold State.barred
    rw [Bool.or_eq_true, Bool.and_eq_true]
    exact ⟨fun h => h.resolve_left (by simp), .inr⟩
  rw [State.runDefault_eq, if_neg open_]
  cases barred : s.barred c with
  | true =>
    rw [if_pos (bars.mpr barred)]
    exact ⟨_, State.modCycle_own hc _ fun _ => rfl, sent, rfl⟩
  | false =>
    rw [if_neg fun h => Bool.false_ne_true (barred.symm.trans (bars.mp h))]
    obtain ⟨-, c', found, one, two⟩ := State.sendDefault_acts hc open_ false (if (false : Bool) ∧ c.dflt.fire < s.time.now + 2000 then { c.dflt with fire := s.time.now + 2000 } else c.dflt)
    exact ⟨c', found, one, two.trans notSent⟩

/-! ### A verdict (R35, R40) -/

theorem State.verdictSet_acts (hc : s.cycle id = some c) (open_ : c.verdict = none) (verdict reason : Nat) :
    s.Acts (s.verdictSet id verdict reason) ∧ (s.verdictSet id verdict reason).cycle id = some { c with verdict := some (verdict, reason), recorded := true } := by
  refine ⟨s.modCycle_acts _ _ (fun _ => rfl) fun c' found => ?_, ?_⟩
  · obtain rfl : c = c' := Option.some.inj (hc.symm.trans found)
    exact ⟨rfl, rfl, rfl, rfl, fun given => absurd open_ given, fun _ => ⟨rfl, rfl⟩⟩
  · exact State.modCycle_own hc _ fun _ => rfl

theorem State.verdictRecorded_acts (hc : s.cycle id = some c) (verdict reason : Nat) :
    s.Acts (s.verdictRecorded id verdict reason) ∧ (s.verdictRecorded id verdict reason).logs.made.length = s.logs.made.length + 1 := by
  unfold State.verdictRecorded
  rw [hc]
  exact s.decision_made c 0 verdict reason _

theorem State.runDefault_keeps_verdict (hc : s.cycle c.id = some c) (skip : Option Nat) (direct : Bool) : ∃ c', (s.runDefault c skip direct).cycle c.id = some c' ∧ c'.verdict = c.verdict := by
  have stays (u : State) (f : Cycle → Cycle) (name : ∀ c, (f c).id = c.id) (verdict : ∀ c, (f c).verdict = c.verdict) {x : Cycle} (found : u.cycle c.id = some x) (same : x.verdict = c.verdict) :
      ∃ c', (u.modCycle c.id f).cycle c.id = some c' ∧ c'.verdict = c.verdict := by
    exact ⟨_, State.modCycle_own found f name, (verdict x).trans same⟩
  rw [State.runDefault_eq]
  split
  · exact ⟨c, hc, rfl⟩
  · split
    · exact stays s _ (fun _ => rfl) (fun _ => rfl) hc rfl
    · unfold State.sendDefault
      dsimp only
      generalize (if (direct = true ∧ c.dflt.fire < s.time.now + 2000) then { c.dflt with fire := s.time.now + 2000 } else c.dflt) = e
      obtain ⟨c', found, same⟩ := stays s (fun c => { c with dfltSent := true, dflt := e }) (fun _ => rfl) (fun _ => rfl) hc rfl
      split
      · exact stays _ _ (fun _ => rfl) (fun _ => rfl) found same
      · exact ⟨c', found, same⟩

/-- What a verdict leaves: the cycle with it and its record, and its default decided. -/
theorem State.finish_results (hc : s.cycle id = some c) (open_ : c.verdict = none) (verdict reason : Nat) (skip : Option Nat) (direct : Bool) :
    s.Acts (s.finish id verdict reason skip direct) ∧ s.logs.made.length < (s.finish id verdict reason skip direct).logs.made.length ∧
      ∃ x c', (if verdict = 1 then s else s.runDefault c skip direct).cycle id = some x ∧ (s.finish id verdict reason skip direct).cycle id = some c' ∧ c'.verdict = some (verdict, reason) ∧ c'.recorded = true ∧
        c'.commit = c.commit ∧ c'.dfltSent = x.dfltSent ∧ c'.dfltNotSent = x.dfltNotSent := by
  have own := State.cycle_id hc
  subst own
  have ran : s.Acts (if verdict = 1 then s else s.runDefault c skip direct) := by
    split
    · exact .refl s
    · exact State.runDefault_acts hc skip direct
  have still : ∃ x, (if verdict = 1 then s else s.runDefault c skip direct).cycle c.id = some x ∧ x.verdict = none := by
    split
    · exact ⟨c, hc, open_⟩
    · obtain ⟨x, found, same⟩ := State.runDefault_keeps_verdict hc skip direct
      exact ⟨x, found, same.trans open_⟩
  rw [s.finish_open hc open_]
  generalize (if verdict = 1 then s else s.runDefault c skip direct) = v at ran still ⊢
  obtain ⟨x, foundX, openX⟩ := still
  obtain ⟨set_, found⟩ := State.verdictSet_acts foundX openX verdict reason
  obtain ⟨x', foundX', kinX⟩ := ran.cycle c.id c hc
  obtain rfl : x = x' := Option.some.inj (foundX.symm.trans foundX')
  generalize v.verdictSet c.id verdict reason = y at set_ found ⊢
  have record := y.reported_verdictRecorded c.id verdict reason
  obtain ⟨recorded, made⟩ := State.verdictRecorded_acts found verdict reason
  refine ⟨(ran.trans set_).trans recorded, ?_, x, _, foundX, (congrArg (fun w : State => w.cycle c.id) record :).trans found, rfl, rfl, kinX.commit, rfl, rfl⟩
  have before := (ran.trans set_).made
  omega

theorem State.finish_acts (s : State) (id : JobId) (verdict reason : Nat) (skip : Option Nat) (direct : Bool) : s.Acts (s.finish id verdict reason skip direct) := by
  cases hc : s.cycle id with
  | none =>
    have same : s.finish id verdict reason skip direct = s := by unfold State.finish; rw [hc]
    rw [same]
    exact .refl s
  | some c =>
    cases open_ : c.verdict with
    | none => exact (State.finish_results hc open_ verdict reason skip direct).1
    | some V =>
      have same : s.finish id verdict reason skip direct = s := by
        unfold State.finish
        rw [hc]
        exact if_pos (by rw [open_]; rfl)
      rw [same]
      exact .refl s

/-! ### Events that are lost, and the banks' turns -/

variable (s)

theorem State.append_acts (id : JobId) (verdict reason : Nat) (ev : ActEvent) (skip : Option Nat) : s.Acts (s.append id verdict reason ev skip) := by
  unfold State.append
  split
  · exact .refl s
  · next c hc =>
    have own := State.cycle_id hc
    subst own
    have sent : s.Acts (if ev.flags = 0 then s.runDefault c skip true else s) := by
      split
      · exact State.runDefault_acts hc skip true
      · exact .refl s
    have counted (u : State) (id : JobId) : u.Acts (u.modCycle id fun c => { c with appended := c.appended + 1 }) :=
      u.modCycle_acts _ _ (fun _ => rfl) fun _ _ => ⟨rfl, rfl, rfl, rfl, fun _ => ⟨rfl, rfl⟩, fun _ => ⟨rfl, rfl⟩⟩
    dsimp only
    generalize (if ev.flags = 0 then s.runDefault c skip true else s) = u at sent ⊢
    refine (sent.trans (counted u c.id)).trans ?_
    split
    · exact .refl _
    · exact (State.decision_made _ _ _ _ _ _).1

theorem State.eventLost_acts (e : DflEvent) (verdict reason : Nat) : s.Acts (s.eventLost e verdict reason) := by
  have marked : s.Acts (if decide (reason = 0x0A) then s.modCycle e.cycle fun c => { c with void := c.void ||| 4 } else s) := by
    split
    · exact s.modCycle_acts _ _ (fun _ => rfl) fun _ _ => ⟨rfl, rfl, rfl, rfl, fun _ => ⟨rfl, rfl⟩, fun _ => ⟨rfl, rfl⟩⟩
    · exact .refl s
  unfold State.eventLost
  dsimp only
  generalize (if decide (reason = 0x0A) then s.modCycle e.cycle fun c => { c with void := c.void ||| 4 } else s) = u at marked ⊢
  refine marked.trans ?_
  split
  · exact .refl _
  · split
    · exact u.finish_acts _ _ _ _ _
    · exact u.append_acts _ _ _ _ _

/-- An event is abandoned only over a link that is down. -/
theorem State.abandon_acts (p eid : Nat) (down : (s.port p).up = false) : s.Acts (s.abandon p eid) := by
  unfold State.abandon
  dsimp only
  split
  · exact .refl s
  · have cut (d : DflPort) (up : d.up = (s.port p).up) : s.Acts (s.setPort p d) :=
      s.setPort_acts p d up (fun on => absurd (down.symm.trans on) Bool.false_ne_true) fun on => absurd (down.symm.trans on) Bool.false_ne_true
    refine (cut _ ?_).trans (State.eventLost_acts _ _ _ _)
    rfl

theorem State.sendOrAbandon_acts (c : Cycle) (e : ActEvent) : s.Acts (s.sendOrAbandon c e) := by
  have sent := s.sendEvent_acts c.id c.die e
  unfold State.sendOrAbandon
  dsimp only
  generalize s.sendEvent c.id c.die e = u at sent ⊢
  split
  · exact sent
  · next down =>
    rw [Bool.or_eq_true, not_or, Bool.not_eq_true, Bool.not_eq_true] at down
    split
    · exact sent.trans (u.abandon_acts _ _ down.2)
    · exact sent

theorem State.bankRun_acts : s.Acts s.bankRun := by
  have turned (u : State) (id : JobId) : u.Acts (u.modCycle id fun c => { c with queued := none }) :=
    u.modCycle_acts _ _ (fun _ => rfl) fun _ _ => ⟨rfl, rfl, rfl, rfl, fun _ => ⟨rfl, rfl⟩, fun _ => ⟨rfl, rfl⟩⟩
  unfold State.bankRun
  refine .foldl _ (fun u c => ?_) _ s
  split
  · exact (turned u _).trans (State.sendOrAbandon_acts _ _ _)
  · exact .refl u

/-! ### A cycle that is resolved -/

/-- A cycle has a verdict with its one record, its commit as it was, and its default sent or not. -/
def State.Judged (s u : State) (c : Cycle) (verdict reason : Nat) : Prop :=
  ∃ c', u.cycle c.id = some c' ∧ c'.verdict = some (verdict, reason) ∧ c'.recorded = true ∧ c'.commit = c.commit ∧ s.logs.made.length < u.logs.made.length ∧
    (verdict ≠ 1 → c.dflt.action ≠ 0 → c.dfltSent = false → c.dfltNotSent = false → c'.dfltSent = !s.barred c ∧ c'.dfltNotSent = s.barred c)

variable {s} in
theorem State.resolve_judges (hc : s.cycle c.id = some c) (open_ : c.verdict = none) (verdict reason : Nat) : s.Acts (s.resolve c.id verdict reason) ∧ s.Judged (s.resolve c.id verdict reason) c verdict reason := by
  obtain ⟨finished, made, x, c₁, foundX, found₁, verdict₁, recorded₁, commit₁, sent₁, notSent₁⟩ := State.finish_results hc open_ verdict reason none false
  have banks := (s.finish c.id verdict reason none false).bankRun_acts
  obtain ⟨c₂, found₂, kin⟩ := banks.cycle c.id c₁ found₁
  obtain ⟨verdict₂, recorded₂⟩ := kin.final (by rw [verdict₁]; exact Option.some_ne_none _)
  refine ⟨finished.trans banks, c₂, found₂, verdict₂.trans verdict₁, recorded₂.trans recorded₁, kin.commit.trans commit₁, made.trans_le banks.made, fun other action sent notSent => ?_⟩
  obtain ⟨x', foundX', sentX, notSentX⟩ := State.runDefault_decides hc action sent notSent
  rw [if_neg other] at foundX
  obtain rfl : x = x' := Option.some.inj (foundX.symm.trans foundX')
  obtain ⟨sent₂, notSent₂⟩ := kin.dflt (by rw [sent₁, notSent₁, sentX, notSentX]; cases s.barred c <;> simp)
  exact ⟨(sent₂.trans sent₁).trans sentX, (notSent₂.trans notSent₁).trans notSentX⟩

end Sys2Proof.Machine
end

section
/-! SUPPORT. Commits, their checks and deadlines (17 R444 to R446, R449, R450), and all of it together, for obligation O42. -/

namespace Sys2Proof.Machine

variable {s v : State} {die : Fin 2} {key : Key} {void : Nat} {body : List Byte} {st : Stamp} {t : Time} {c : Cycle} {m : CommitMsg}

/-! ### Commits (R445) -/

theorem State.modCycle_others (s : State) (id : JobId) (f : Cycle → Cycle) (name : ∀ c, (f c).id = c.id) :
    (s.modCycle id f).cycles.filter (fun c => decide (c.id ≠ id)) = s.cycles.filter fun c => decide (c.id ≠ id) := by
  have each (l : List Cycle) : (mapIf (fun c => decide (c.id = id)) f l).filter (fun c => decide (c.id ≠ id)) = l.filter fun c => decide (c.id ≠ id) := by
    unfold mapIf
    induction l with
    | nil => rfl
    | cons x l ih =>
      rw [List.map_cons]
      by_cases own : x.id = id
      · rw [if_pos (decide_eq_true own), List.filter_cons_of_neg (by simp [name, own]), List.filter_cons_of_neg (by simp [own]), ih]
      · rw [if_neg (by simp [own]), List.filter_cons_of_pos (by simp [own]), List.filter_cons_of_pos (by simp [own]), ih]
  exact each s.cycles

theorem State.modCycle_mem (here : c ∈ s.cycles) (f : Cycle → Cycle) : f c ∈ (s.modCycle c.id f).cycles :=
  List.mem_map.mpr ⟨c, here, if_pos (decide_eq_true rfl)⟩

/-- The cycle that a message from the job names. -/
def State.namedCycle (s : State) (die : Fin 2) (key : Key) : Option Cycle := s.cycles.find? fun c => decide (c.id = keyId key ∧ c.die = die.val)

/-- The cycle with its commit, and with one more stray message. -/
def State.committed (s : State) (c : Cycle) (key : Key) (void : Nat) (body : List Byte) : State :=
  s.modCycle c.id fun c => { c with commit := some { receipt := s.time.now, key, void, body := padTo 48 body }, void := c.void ||| void }
def State.strayed (s : State) (c : Cycle) (die : Nat) : State := (s.modCycle c.id fun c => { c with extra := min 255 (c.extra + 1) }).actFlag die 5

theorem exec_commitReceive_none (hv : s.at t = v) (none_ : v.namedCycle die key = none) : exec (.commitReceive die key void body t) s = .next (v.actFlag die 5) := by
  subst hv
  show Host.Outcome.next (match (s.at t).namedCycle die key with | none => _ | some c => _) = _
  rw [none_]

theorem exec_commitReceive_some (hv : s.at t = v) (found : v.namedCycle die key = some c) : exec (.commitReceive die key void body t) s = .next
    (if keyProd key = 4095 ∧ keyEmit key = 0 then (if c.verdict.isSome ∨ c.commit.isSome then v else v.committed c key void body) else v.strayed c die) := by
  subst hv
  show Host.Outcome.next (match (s.at t).namedCycle die key with | none => _ | some c => _) = _
  rw [found]
  rfl

theorem State.namedCycle_mem (found : s.namedCycle die key = some c) : c ∈ s.cycles := List.mem_of_find?_eq_some found

theorem State.committed_results (here : c ∈ s.cycles) : (s.committed c key void body).cycles.filter (fun x => decide (x.id ≠ c.id)) = s.cycles.filter (fun x => decide (x.id ≠ c.id)) ∧
    { c with commit := some { receipt := s.time.now, key, void, body := padTo 48 body }, void := c.void ||| void } ∈ (s.committed c key void body).cycles :=
  ⟨s.modCycle_others _ _ fun _ => rfl, State.modCycle_mem here _⟩

theorem State.actFlag_cycles (s : State) (j b : Nat) : (s.actFlag j b).cycles = s.cycles := (s.reported_actFlag j b).cycles

theorem State.strayed_results (here : c ∈ s.cycles) (die : Nat) : (s.strayed c die).cycles.filter (fun x => decide (x.id ≠ c.id)) = s.cycles.filter (fun x => decide (x.id ≠ c.id)) ∧
    { c with extra := min 255 (c.extra + 1) } ∈ (s.strayed c die).cycles ∧ ((s.strayed c die).reg (mesaBase die + 0x40000)).getLsbD 5 = true := by
  have cycles : (s.strayed c die).cycles = _ := State.actFlag_cycles _ die 5
  rw [cycles]
  exact ⟨s.modCycle_others _ _ fun _ => rfl, State.modCycle_mem here _, State.setFlag_bit _ _ _ (by decide)⟩

/-! ### Checks (R446) -/

theorem exec_commitCheck_none (hv : s.at t = v) (none_ : v.cycleAt st = none) : exec (.commitCheck st t) s = .next v := by
  subst hv
  show Host.Outcome.next (match (s.at t).cycleAt st with | none => _ | some c => _) = _
  rw [none_]

theorem Cycle.decided_iff (c : Cycle) : c.decided = true ↔ c.verdict ≠ none ∨ c.checked = true := by
  rw [Cycle.decided, Bool.or_eq_true, Option.isSome_iff_ne_none]

theorem exec_commitCheck_waits (hv : s.at t = v) (hc : v.cycleAt st = some c) (waits : c.commit = none ∨ c.verdict ≠ none ∨ c.checked = true ∨ v.time.now < stampTime st + 4000) :
    exec (.commitCheck st t) s = .next v := by
  subst hv
  show Host.Outcome.next (match (s.at t).cycleAt st with | none => _ | some c => match c.commit with | none => _ | some m => if c.decided ∨ (s.at t).time.now < stampTime st + 4000 then _ else _) = _
  rw [hc]
  dsimp only
  cases hm : c.commit with
  | none => rfl
  | some m =>
    dsimp only
    rw [if_pos]
    rw [c.decided_iff, or_assoc]
    exact waits.resolve_left (by rw [hm]; exact Option.some_ne_none m)

theorem exec_commitCheck_runs (hv : s.at t = v) (hc : v.cycleAt st = some c) (hm : c.commit = some m) (open_ : c.verdict = none) (fresh : c.checked = false) (late : stampTime st + 4000 ≤ v.time.now) :
    exec (.commitCheck st t) s = .next (v.commitCheck c m) := by
  subst hv
  show Host.Outcome.next (match (s.at t).cycleAt st with | none => _ | some c => match c.commit with | none => _ | some m => if c.decided ∨ (s.at t).time.now < stampTime st + 4000 then _ else _) = _
  rw [hc]
  dsimp only
  rw [hm]
  dsimp only
  rw [if_neg]
  rw [c.decided_iff, open_, fresh]
  rintro ((given | done) | early)
  · exact given rfl
  · exact absurd done (by decide)
  · exact absurd late (not_le.mpr early)

/-- The event of a commit. -/
def CommitMsg.event (m : CommitMsg) (c : Cycle) : ActEvent := eventOf m.body c.deadline c.id.stamp (m.key.toNat % 2 ^ 32)

theorem CommitMsg.event_chip (m : CommitMsg) (c : Cycle) : (m.event c).chip < 4 := Nat.mod_lt _ (by decide)

theorem State.commitCheck_verdict {verdict reason : Nat} (fails : v.commitVerdict c m (m.event c) = some (verdict, reason)) : v.commitCheck c m = v.resolve c.id verdict reason := by
  unfold State.commitCheck
  unfold CommitMsg.event at fails
  dsimp only
  rw [fails]

/-- The event has passed its checks. -/
def State.checked (v : State) (c : Cycle) (e : ActEvent) : State := v.modCycle c.id fun c => { c with checked := true, event := some e }

theorem State.commitCheck_passes (passes : v.commitVerdict c m (m.event c) = none) : v.commitCheck c m =
    if 64 ≤ (v.port (m.event c).chip).waiting then v
    else if (m.event c).kind = 1 then ((v.checked c (m.event c)).modCycle c.id fun x => { x with queued := some (m.event c) }).bankRun
    else ((v.checked c (m.event c)).sendOrAbandon c (m.event c)).bankRun := by
  unfold CommitMsg.event at passes
  unfold State.commitCheck
  dsimp only
  rw [passes]
  rfl

theorem State.sendOrAbandon_up (v : State) (c : Cycle) (e : ActEvent) (up : (v.port e.chip).up = true) (live : v.replaying = false) :
    v.sendOrAbandon c e = v.setPort e.chip ((v.port e.chip).sending v.time.now false ((v.port e.chip).eidAt v.time.now) c.id c.die e) := by
  have sent := v.sendEvent_eq c.id c.die e
  rw [live, up] at sent
  have link : ((v.sendEvent c.id c.die e).port e.chip).up = true := ((v.sendEvent_acts c.id c.die e).up e.chip).trans up
  unfold State.sendOrAbandon
  dsimp only
  rw [if_pos (by rw [link, Bool.or_true]), sent]
  rfl

/-- An event that passes: the cycle is checked with it, and a channel's event waits on its link, when that is up. -/
theorem State.commitCheck_event (hc : v.cycle c.id = some c) (passes : v.commitVerdict c m (m.event c) = none) (room : (v.port (m.event c).chip).waiting < 64) :
    ∃ c', (v.commitCheck c m).cycle c.id = some c' ∧ c'.checked = true ∧ c'.event = some (m.event c) ∧ ((v.commitCheck c m).tiles = v.tiles ∧ (v.commitCheck c m).resv = v.resv ∧ (v.commitCheck c m).jobs = v.jobs ∧ (v.commitCheck c m).slip = v.slip) ∧
      ((m.event c).kind = 0 → (v.port (m.event c).chip).up = true → v.replaying = false → ∃ x ∈ ((v.commitCheck c m).port (m.event c).chip).events, x.event = m.event c ∧ x.cycle = c.id ∧
        ∃ f ∈ ((v.commitCheck c m).port (m.event c).chip).queue, f.prio = 2 ∧ f.bytes = eventFrame x.eid (m.event c) ∧ f.eid = some x.eid) := by
  have small := m.event_chip c
  rw [v.commitCheck_passes passes, if_neg (by omega)]
  generalize m.event c = e at small
  have found : (v.checked c e).cycle c.id = some { c with checked := true, event := some e } := State.modCycle_own hc _ fun _ => rfl
  have still : (v.checked c e).tiles = v.tiles ∧ (v.checked c e).resv = v.resv ∧ (v.checked c e).jobs = v.jobs ∧ (v.checked c e).slip = v.slip ∧ (v.checked c e).replaying = v.replaying := ⟨rfl, rfl, rfl, rfl, rfl⟩
  have ports (p : Nat) : (v.checked c e).port p = v.port p := rfl
  generalize v.checked c e = w at found still ports
  obtain ⟨tiles, resv, jobs, slip, replaying⟩ := still
  have ends {u : State} (acts : w.Acts u) : ∃ c', u.cycle c.id = some c' ∧ c'.checked = true ∧ c'.event = some e ∧ u.tiles = v.tiles ∧ u.resv = v.resv ∧ u.jobs = v.jobs ∧ u.slip = v.slip := by
    obtain ⟨c', found', kin⟩ := acts.cycle c.id _ found
    exact ⟨c', found', kin.checked, kin.event, acts.tiles.trans tiles, acts.resv.trans resv, acts.jobs.trans jobs, acts.slip.trans slip⟩
  split
  · next solenoid =>
    have queued := w.modCycle_acts c.id (fun x => { x with queued := some e }) (fun _ => rfl) fun _ _ => ⟨rfl, rfl, rfl, rfl, fun _ => ⟨rfl, rfl⟩, fun _ => ⟨rfl, rfl⟩⟩
    obtain ⟨c', found', checked, event, rest⟩ := ends (queued.trans (State.bankRun_acts _))
    exact ⟨c', found', checked, event, rest, fun channel => absurd (solenoid.symm.trans channel) (by decide)⟩
  · obtain ⟨c', found', checked, event, rest⟩ := ends ((w.sendOrAbandon_acts c e).trans (State.bankRun_acts _))
    refine ⟨c', found', checked, event, rest, fun _ up live => ?_⟩
    have upW : (w.port e.chip).up = true := by rw [ports, up]
    have liveW : w.replaying = false := replaying.trans live
    have link := (w.sendOrAbandon_acts c e).up e.chip
    have replay := (w.sendOrAbandon_acts c e).replaying
    have port : (w.sendOrAbandon c e).port e.chip = (w.port e.chip).sending w.time.now false ((w.port e.chip).eidAt w.time.now) c.id c.die e := by
      rw [w.sendOrAbandon_up c e upW liveW, State.port_setPort, if_pos ⟨rfl, small⟩]
    obtain ⟨x, hereX, waits, own, cycle, f, hereF, prio, bytes, eid⟩ := (w.port e.chip).sending_frame w.time.now ((w.port e.chip).eidAt w.time.now) c.id c.die e
    rw [← port] at hereX hereF
    generalize w.sendOrAbandon c e = y at link replay hereX hereF
    exact ⟨x, y.bankRun_acts.events (replay.trans liveW) e.chip x (link.trans upW) hereX waits, own, cycle, f, y.bankRun_acts.queue (replay.trans liveW) e.chip f (link.trans upW) hereF, prio, bytes, eid⟩

/-! ### Deadlines (R36, R450) -/

theorem exec_deadlineExpiry_none (hv : s.at t = v) (none_ : v.cycleAt st = none) : exec (.deadlineExpiry st t) s = .next v := by
  subst hv
  show Host.Outcome.next (match (s.at t).cycleAt st with | none => _ | some c => _) = _
  rw [none_]

theorem exec_deadlineExpiry_some (hv : s.at t = v) (hc : v.cycleAt st = some c) : exec (.deadlineExpiry st t) s = .next
    (if c.verdict.isSome ∨ c.commit.isSome ∨ v.time.now < c.deadline then v else v.resolve c.id 2 (if c.jobStopped then 5 else 4)) := by
  subst hv
  show Host.Outcome.next (match (s.at t).cycleAt st with | none => _ | some c => if c.verdict.isSome ∨ c.commit.isSome ∨ (s.at t).time.now < c.deadline then _ else _) = _
  rw [hc]

end Sys2Proof.Machine
end

section
/-! SUPPORT. The checks of a commit in their order, and the whole of the actuation unit (17 R444 to R453), for obligation O42. -/

namespace Sys2Proof.Machine

/-! ### The first check that fails (R446) -/

section
variable (v : State) (c : Cycle) (m : CommitMsg) (e : ActEvent)

theorem State.commitVerdict_late (late : c.deadline ≤ m.receipt) : v.commitVerdict c m e = some (2, 3) := if_pos late

variable (intime : m.receipt < c.deadline)
include intime

theorem State.commitVerdict_form (bad : bodyOk m.body = false) : v.commitVerdict c m e = some (4, 0x0C) :=
  (if_neg (not_le.mpr intime)).trans (if_pos (by rw [bad]; rfl))

variable (fine : bodyOk m.body = true)
include fine

theorem State.commitVerdict_rest : v.commitVerdict c m e =
    if e.action = 0 then some (1, 0) else if e.fire < c.deadline + 6000 then some (3, 6) else if stampTime c.id.stamp + 16000000000 < e.fire then some (4, 7)
    else (v.chipCheck c.id.stamp e.chip e.kind e.index).map fun r => (4, r) :=
  (if_neg (not_le.mpr intime)).trans (if_neg (by rw [fine]; decide))

end

/-- Settles O42: commits, each check's verdict, and deadlines, a verdict by what the default, the record and the banks leave. -/
theorem actuationResults : Obligations.ActuationResults := by
  intro s die key void body st t v tame others found barred judged
  have hv : s.at t = v := rfl
  have eq : v = { s with time := s.time.seenAt t } := s.at_eq t
  clear_value v
  subst eq
  have replays : State.replaying { s with time := s.time.seenAt t } = s.replaying := by rw [← hv, State.at_replaying]
  have bars (c : Cycle) : State.barred { s with time := s.time.seenAt t } c = barred c := by
    unfold State.barred
    rw [replays]
    rfl
  have tameOf {u : State} (acts : State.Acts { s with time := s.time.seenAt t } u) (kept : u.kept = s.kept) : tame u := ⟨acts.tiles, acts.resv, acts.jobs, acts.slip, kept⟩
  have resolves {c : Cycle} {verdict reason : Nat} {i : Host.Outcome State Fault Refusal} (hc : s.cycleAt st = some c) (open_ : c.verdict = none) (keeps : OutcomeKeeps s.kept i)
      (ran : i = .next (State.resolve { s with time := s.time.seenAt t } c.id verdict reason)) : ∃ u, i = .next u ∧ judged u c verdict reason := by
    have own : c.id = { stamp := st, job := 0 } := State.cycle_id hc
    obtain ⟨acts, c', at_, verdict', recorded, commit, made, dflt⟩ := State.resolve_judges (s := { s with time := s.time.seenAt t }) (by rw [own]; exact hc) open_ verdict reason
    rw [bars] at dflt
    exact ⟨_, ran, c', (congrArg (State.cycle _) own).symm.trans at_, verdict', recorded, commit, made, tameOf acts (keeps.next ran), dflt⟩
  refine ⟨fun none_ => exec_commitReceive_none hv none_, fun c found_ => ⟨fun prod emit open_ fresh => ?takes, fun prod emit taken => ?keeps, fun stray => ?strays⟩,
    fun none_ => ⟨exec_commitCheck_none hv none_, exec_deadlineExpiry_none hv none_⟩, fun c hc => ⟨fun waits => exec_commitCheck_waits hv hc waits, ?checks, fun waits => ?waits, fun open_ none_ due => ?expires⟩⟩
  case takes =>
    have ran := (exec_commitReceive_some (void := void) (body := body) hv found_).trans (congrArg Host.Outcome.next ((if_pos ⟨prod, emit⟩).trans (if_neg (by rw [open_, fresh]; decide))))
    obtain ⟨others_, here⟩ := State.committed_results (s := { s with time := s.time.seenAt t }) (key := key) (void := void) (body := body) (State.namedCycle_mem found_)
    exact ⟨_, ran, ⟨rfl, rfl, rfl, rfl, (execCommitReceive_keeps ..).next ran⟩, others_, rfl, here⟩
  case keeps =>
    refine (exec_commitReceive_some hv found_).trans (congrArg Host.Outcome.next ((if_pos ⟨prod, emit⟩).trans (if_pos ?_)))
    rwa [Option.isSome_iff_ne_none, Option.isSome_iff_ne_none]
  case strays =>
    have ran := (exec_commitReceive_some (void := void) (body := body) hv found_).trans (congrArg Host.Outcome.next (if_neg (by rw [not_and_or]; exact stray)))
    obtain ⟨others_, here, flag⟩ := State.strayed_results (s := { s with time := s.time.seenAt t }) (State.namedCycle_mem found_) die
    have report := State.reported_actFlag (State.modCycle { s with time := s.time.seenAt t } c.id fun c => { c with extra := min 255 (c.extra + 1) }) die 5
    exact ⟨_, ran, ⟨report.tiles, report.resv, report.jobs, (congrArg State.slip report :), (execCommitReceive_keeps ..).next ran⟩, others_, here, flag⟩
  case waits =>
    refine (exec_deadlineExpiry_some hv hc).trans (congrArg Host.Outcome.next (if_pos ?_))
    rwa [Option.isSome_iff_ne_none, Option.isSome_iff_ne_none]
  case expires =>
    exact resolves hc open_ (execDeadlineExpiry_keeps st t s) ((exec_deadlineExpiry_some hv hc).trans (congrArg Host.Outcome.next (if_neg (by rw [open_, none_]; simpa using due))))
  case checks =>
    intro m hm open_ fresh late e check
    have ran := exec_commitCheck_runs hv hc hm open_ fresh late
    have own : c.id = { stamp := st, job := 0 } := State.cycle_id hc
    have event : m.event c = e := by rw [CommitMsg.event, own]
    have fails {verdict reason : Nat} (first : State.commitVerdict { s with time := s.time.seenAt t } c m (m.event c) = some (verdict, reason)) : ∃ u, exec (.commitCheck st t) s = .next u ∧ judged u c verdict reason :=
      resolves hc open_ (execCommitCheck_keeps st t s) (ran.trans (congrArg Host.Outcome.next (State.commitCheck_verdict first)))
    refine ⟨fun late_ => fails (State.commitVerdict_late _ c m _ late_), fun intime => ⟨fun bad => fails (State.commitVerdict_form _ c m _ intime bad), fun fine => ?_⟩⟩
    have rest := State.commitVerdict_rest { s with time := s.time.seenAt t } c m (m.event c) intime fine
    rw [event, own] at rest
    rw [event] at fails
    refine ⟨fun none_ => fails (rest.trans (if_pos none_)), fun some_ => ⟨fun soon => fails (rest.trans ((if_neg some_).trans (if_pos soon))), fun far over_ => fails (rest.trans ((if_neg some_).trans ((if_neg (not_lt.mpr far)).trans (if_pos over_)))), fun far near => ?_⟩⟩
    have chip := rest.trans ((if_neg some_).trans ((if_neg (not_lt.mpr far)).trans (if_neg (not_lt.mpr near))))
    refine ⟨fun r bar => fails (chip.trans (congrArg (Option.map fun r => (4, r)) bar)), fun free full => ?_, fun free room => ?_⟩
    · have passes := chip.trans (congrArg (Option.map fun r => (4, r)) free)
      rw [← event] at passes full
      exact ran.trans (congrArg Host.Outcome.next ((State.commitCheck_passes passes).trans (if_pos full)))
    · have passes := chip.trans (congrArg (Option.map fun r => (4, r)) free)
      rw [← event] at passes room
      obtain ⟨c', at_, checked, done, ⟨tiles, resv, jobs, slip⟩, frames⟩ := State.commitCheck_event (v := { s with time := s.time.seenAt t }) (by rw [own]; exact hc) passes room
      rw [event] at done frames
      rw [replays] at frames
      exact ⟨_, c', ran, (congrArg (State.cycle _) own).symm.trans at_, checked, done, ⟨tiles, resv, jobs, slip, (execCommitCheck_keeps ..).next ran⟩, frames⟩

end Sys2Proof.Machine
end

section
/-! SUPPORT. The frames of a slip toward the chips, and a slip's abort (12 R318, R322, R323, R325, R330; 15 R398; 17 R458), for obligation O45. -/

namespace Sys2Proof.Machine

variable {s u w : State}

/-! ### What only sends -/

/-- `u` is `s` but for the DFL ports. -/
def State.PortsOnly (s u : State) : Prop := { u with ports := s.ports } = s

theorem State.PortsOnly.refl (s : State) : s.PortsOnly s := rfl
theorem State.PortsOnly.trans (h : s.PortsOnly u) (h' : u.PortsOnly w) : s.PortsOnly w := (congrArg (fun x : State => { x with ports := s.ports }) h' :).trans h

theorem State.PortsOnly.foldl {α : Type} (f : State → α → State) (step : ∀ (s : State) a, s.PortsOnly (f s a)) (l : List α) (s : State) : s.PortsOnly (l.foldl f s) := by
  induction l generalizing s with
  | nil => exact .refl s
  | cons a l ih => exact (step s a).trans (ih (f s a))

theorem State.PortsOnly.slip (h : s.PortsOnly u) : u.slip = s.slip := (congrArg State.slip h :)
theorem State.PortsOnly.lee (h : s.PortsOnly u) : u.lee = s.lee := (congrArg State.lee h :)
theorem State.PortsOnly.regs (h : s.PortsOnly u) : u.regs = s.regs := (congrArg State.regs h :)
theorem State.PortsOnly.link (h : s.PortsOnly u) : u.link = s.link := (congrArg State.link h :)
theorem State.PortsOnly.reg (h : s.PortsOnly u) (a : Nat) : u.reg a = s.reg a := congrArg (mget regReset · a) h.regs

theorem State.setPort_portsOnly (s : State) (p : Nat) (d : DflPort) : s.PortsOnly (s.setPort p d) := rfl

variable (s)

theorem State.sendSlip_portsOnly (c op : Nat) : s.PortsOnly (s.sendSlip c op) := s.setPort_portsOnly c _

theorem State.sendChunks_portsOnly (c : Nat) (m : SMap Word) : s.PortsOnly (s.sendChunks c m) :=
  (s.setPort_portsOnly c _).trans (.foldl _ (fun s _ => s.setPort_portsOnly c _) _ _)

/-! ### SLIP frames (R323, R458) -/

/-- A SLIP frame. -/
def slipFrame (op id point : Nat) : DflFrame := { prio := 3, bytes := slipBytes op id point }

/-- A port that has queued it; COMMIT and ABORT are sent twice. -/
def DflPort.slipQueued (d : DflPort) (op id point : Nat) : DflPort :=
  if op = 1 then d.queueFrame (slipFrame op id point) else (d.queueFrame (slipFrame op id point)).queueFrame (slipFrame op id point)

theorem State.sendSlip_eq (c op : Nat) : s.sendSlip c op = s.setPort c ((s.port c).slipQueued op s.slip.id s.slip.point) := rfl

theorem DflPort.mem_slipQueued (d : DflPort) (op id point : Nat) (f : DflFrame) : f ∈ (d.slipQueued op id point).queue ↔ f = slipFrame op id point ∨ f ∈ d.queue := by
  unfold DflPort.slipQueued
  split
  · exact DflPort.mem_queueFrame _ _ _
  · rw [DflPort.mem_queueFrame, DflPort.mem_queueFrame, ← or_assoc, or_self]

/-- SLIP frames toward a list of chips. -/
def State.sendSlips (l : List Nat) (op : Nat) : State := l.foldl (fun s c => s.sendSlip c op) s

theorem State.sendSlips_portsOnly (l : List Nat) (op : Nat) : s.PortsOnly (s.sendSlips l op) := .foldl _ (fun s c => s.sendSlip_portsOnly c op) l s

/-- A frame that waits goes on waiting. -/
theorem State.sendSlips_waits (l : List Nat) (op q : Nat) (f : DflFrame) (here : f ∈ (s.port q).queue) : f ∈ ((s.sendSlips l op).port q).queue := by
  induction l generalizing s with
  | nil => exact here
  | cons c l ih =>
    refine ih (s.sendSlip c op) ?_
    rw [State.sendSlip_eq, State.port_setPort]
    split
    · next at_ => exact (DflPort.mem_slipQueued _ _ _ _ _).mpr (.inr (at_.1 ▸ here))
    · exact here

theorem State.sendSlips_frame (l : List Nat) (op q : Nat) (among : q ∈ l) (small : q < 4) : slipFrame op s.slip.id s.slip.point ∈ ((s.sendSlips l op).port q).queue := by
  induction l generalizing s with
  | nil => cases among
  | cons c l ih =>
    by_cases first : q = c
    · refine State.sendSlips_waits (s.sendSlip c op) l op q _ ?_
      rw [State.sendSlip_eq, State.port_setPort, if_pos ⟨first, first ▸ small⟩]
      exact (DflPort.mem_slipQueued _ _ _ _ _).mpr (.inl rfl)
    · exact ih (s.sendSlip c op) ((List.mem_cons.mp among).resolve_left first)

theorem Slip.mem_chips (p : Slip) (k : Nat) : k ∈ p.chips ↔ .chip k ∈ p.parties := by
  unfold Slip.chips
  rw [List.mem_filterMap]
  constructor
  · rintro ⟨x, here, own⟩
    cases x with
    | chip c => exact (Option.some.inj own) ▸ here
    | tile _ => cases own
    | mesa _ => cases own
  · exact fun here => ⟨_, here, rfl⟩

/-! ### PREPARE with the lee block (R318, R458) -/

/-- A port with frames queued one after the other. -/
def DflPort.queueFrames (d : DflPort) (l : List DflFrame) : DflPort := l.foldl DflPort.queueFrame d

theorem DflPort.queueFrames_results (d : DflPort) (l : List DflFrame) : (d.queueFrames l).queue.length = d.queue.length + l.length ∧ (d.queueFrames l).chunks = d.chunks ∧
    ∀ f ∈ d.queue, f ∈ (d.queueFrames l).queue := by
  induction l generalizing d with
  | nil => exact ⟨rfl, rfl, fun _ here => here⟩
  | cons g l ih =>
    obtain ⟨length, chunks, waits⟩ := ih (d.queueFrame g)
    refine ⟨length.trans ?_, chunks, fun f here => waits f ((DflPort.mem_queueFrame _ _ _).mpr (.inr here))⟩
    rw [DflPort.queueFrame_length, List.length_cons]
    omega

/-- The chunk frames of a ledger block. -/
def chunkFrames (m : SMap Word) (c id : Nat) : List DflFrame := (List.range 32).map fun k => { prio := 6, bytes := leeDataBytes m c k (id % 256) }

/-- A port that has its chunks to send. -/
def DflPort.chunked (d : DflPort) (m : SMap Word) (c id : Nat) : DflPort := DflPort.queueFrames { d with chunks := (List.range 32).map fun k => (k, 0, 0) } (chunkFrames m c id)

theorem State.setPort_setPort (p : Nat) (d e : DflPort) : (s.setPort p d).setPort p e = s.setPort p e := by
  have twice : (s.ports.setIfInBounds p d).setIfInBounds p e = s.ports.setIfInBounds p e := by
    ext1 i small
    rw [Vector.getElem_setIfInBounds, Vector.getElem_setIfInBounds, Vector.getElem_setIfInBounds]
    split <;> rfl
  exact congrArg (fun q : Vector DflPort 4 => { s with ports := q }) twice

theorem State.sendChunks_eq (c : Nat) (m : SMap Word) (small : c < 4) : s.sendChunks c m = s.setPort c ((s.port c).chunked m c s.slip.id) := by
  have sends (l : List Nat) (u : State) (d : DflPort) : l.foldl (fun s k => s.setPort c ((s.port c).queueFrame { prio := 6, bytes := leeDataBytes m c k (s.slip.id % 256) })) (u.setPort c d) =
      u.setPort c (d.queueFrames (l.map fun k => { prio := 6, bytes := leeDataBytes m c k (u.slip.id % 256) })) := by
    induction l generalizing d with
    | nil => rfl
    | cons k l ih =>
      rw [List.foldl_cons, State.port_setPort, if_pos ⟨rfl, small⟩, State.setPort_setPort]
      exact ih _
  exact sends (List.range 32) s _

/-- A port at the start of a prepare. -/
def DflPort.preparing (d : DflPort) (m : SMap Word) (c id point : Nat) : DflPort := (d.slipQueued 1 id point).chunked m c id

/-- PREPARE and the lee block's chunks toward a chip. -/
def State.prepareSent (c : Nat) : State := (s.sendSlip c 1).sendChunks c s.lee

theorem State.prepareSent_eq (c : Nat) (small : c < 4) : s.prepareSent c = s.setPort c ((s.port c).preparing s.lee c s.slip.id s.slip.point) := by
  rw [State.prepareSent, State.sendChunks_eq _ c _ small, State.sendSlip_eq, State.port_setPort, if_pos ⟨rfl, small⟩, State.setPort_setPort]
  rfl

theorem DflPort.preparing_results (d : DflPort) (m : SMap Word) (c id point : Nat) : (d.preparing m c id point).queue.length = d.queue.length + 33 ∧ (d.preparing m c id point).chunks.length = 32 ∧
    slipFrame 1 id point ∈ (d.preparing m c id point).queue := by
  obtain ⟨length, chunks, waits⟩ := DflPort.queueFrames_results { (d.slipQueued 1 id point) with chunks := (List.range 32).map fun k => (k, 0, 0) } (chunkFrames m c id)
  have frames : (chunkFrames m c id).length = 32 := by simp [chunkFrames]
  refine ⟨length.trans ?_, (congrArg List.length chunks).trans (by simp), waits _ ((DflPort.mem_slipQueued _ _ _ _ _).mpr (.inl rfl))⟩
  rw [frames]
  exact congrArg (· + 32) (DflPort.queueFrame_length _ _)

/-- PREPARE and the chunks toward a list of chips. -/
def State.sendPrepares (l : List Nat) : State := l.foldl State.prepareSent s

theorem State.sendPrepares_cons (c : Nat) (l : List Nat) : s.sendPrepares (c :: l) = (s.prepareSent c).sendPrepares l := by
  unfold State.sendPrepares
  rw [List.foldl_cons]

theorem State.prepareSent_portsOnly (c : Nat) : s.PortsOnly (s.prepareSent c) := (s.sendSlip_portsOnly c 1).trans (State.sendChunks_portsOnly _ c s.lee)

theorem State.sendPrepares_portsOnly (l : List Nat) : s.PortsOnly (s.sendPrepares l) := .foldl _ State.prepareSent_portsOnly l s

theorem State.prepareSent_port (c q : Nat) (small : c < 4) : (s.prepareSent c).port q = if q = c then (s.port c).preparing s.lee c s.slip.id s.slip.point else s.port q := by
  rw [State.prepareSent_eq _ c small, State.port_setPort]
  exact if_congr (and_iff_left small) rfl rfl

theorem State.sendPrepares_other (l : List Nat) (q : Nat) (small : ∀ c ∈ l, c < 4) (out : q ∉ l) : (s.sendPrepares l).port q = s.port q := by
  induction l generalizing s with
  | nil => rfl
  | cons c l ih =>
    rw [List.mem_cons, not_or] at out
    rw [State.sendPrepares_cons, ih (s.prepareSent c) (fun d here => small d (List.mem_cons_of_mem _ here)) out.2, State.prepareSent_port _ c q (small c List.mem_cons_self), if_neg out.1]

theorem State.sendPrepares_own (l : List Nat) (q : Nat) (small : ∀ c ∈ l, c < 4) (once : l.Nodup) (among : q ∈ l) : (s.sendPrepares l).port q = (s.port q).preparing s.lee q s.slip.id s.slip.point := by
  induction l generalizing s with
  | nil => cases among
  | cons c l ih =>
    obtain ⟨first, rest⟩ := List.nodup_cons.mp once
    have smallC := small c List.mem_cons_self
    have small' : ∀ d ∈ l, d < 4 := fun d here => small d (List.mem_cons_of_mem _ here)
    have only := s.prepareSent_portsOnly c
    rw [State.sendPrepares_cons]
    by_cases here : q = c
    · subst here
      rw [State.sendPrepares_other _ l q small' first, State.prepareSent_port _ q q smallC, if_pos rfl]
    · rw [ih (s.prepareSent c) small' rest ((List.mem_cons.mp among).resolve_left here), only.lee, only.slip, State.prepareSent_port _ c q smallC, if_neg here]

end Sys2Proof.Machine
end

section
/-! SUPPORT. Fields of words, a slip's abort and its request (12 R318, R322, R325, R330; 15 R398), for obligation O45. -/

namespace Sys2Proof.Machine

/-! ### Fields -/

theorem testBit_fld (w : Word) (hi lo i : Nat) : (fld w hi lo).testBit i = (decide (i < hi + 1 - lo) && w.getLsbD (lo + i)) := by
  rw [fld, bitsOf, Nat.testBit_mod_two_pow, Nat.testBit_shiftRight]
  rfl

theorem getLsbD_setFld (w : Word) (hi lo v i : Nat) (top : hi < 32) : (setFld w hi lo v).getLsbD i = if lo ≤ i ∧ i ≤ hi then v.testBit (i - lo) else w.getLsbD i := by
  by_cases small : i < 32
  · unfold setFld mergeMask maskOf
    simp only [BitVec.getLsbD_or, BitVec.getLsbD_and, BitVec.getLsbD_not, BitVec.getLsbD_ofNat, Nat.testBit_shiftLeft, Nat.testBit_two_pow_sub_one, Nat.testBit_mod_two_pow, small, decide_true, Bool.true_and]
    by_cases within : lo ≤ i ∧ i ≤ hi
    · rw [if_pos within]
      simp [within.1, show i - lo < hi + 1 - lo by omega]
    · rw [if_neg within]
      have out : (decide (i ≥ lo) && decide (i - lo < hi + 1 - lo)) = false := by
        rw [Bool.and_eq_false_iff, decide_eq_false_iff_not, decide_eq_false_iff_not]
        omega
      rw [out]
      simp
  · rw [if_neg (by omega), BitVec.getLsbD_of_ge _ _ (by omega), BitVec.getLsbD_of_ge _ _ (by omega)]

theorem fld_setFld (w : Word) (hi lo v : Nat) (top : hi < 32) (order : lo ≤ hi) : fld (setFld w hi lo v) hi lo = v % 2 ^ (hi + 1 - lo) := by
  refine Nat.eq_of_testBit_eq fun i => ?_
  rw [testBit_fld, Nat.testBit_mod_two_pow, getLsbD_setFld _ _ _ _ _ top]
  by_cases within : i < hi + 1 - lo
  · rw [if_pos (by omega), Nat.add_sub_cancel_left]
  · rw [decide_eq_false within, Bool.false_and, Bool.false_and]

theorem fld_setFld_other (w : Word) (hi lo v hi' lo' : Nat) (top : hi < 32) (apart : hi' < lo ∨ hi < lo') : fld (setFld w hi lo v) hi' lo' = fld w hi' lo' := by
  refine Nat.eq_of_testBit_eq fun i => ?_
  rw [testBit_fld, testBit_fld, getLsbD_setFld _ _ _ _ _ top]
  by_cases within : i < hi' + 1 - lo'
  · rw [if_neg (by omega)]
  · rw [decide_eq_false within, Bool.false_and, Bool.false_and]

variable {s u w : State}

/-! ### The host's answer (R398) -/

/-- A command's answer: the link alone, its slip command gone and its completion posted. -/
theorem State.slipReply_link (s : State) (status reason : Nat) : { s.slipReply status reason with link := s.link } = s := by
  unfold State.slipReply
  split
  · rfl
  · exact (congrArg (fun y : State => { y with link := s.link }) (State.hpDone_link _ _ _ _ _) :)

theorem State.hpDone_slipCmd (s : State) (c : HpCmd) (status detail result : Nat) : (s.hpDone c status detail result).link.slipCmd = s.link.slipCmd := by
  unfold State.hpDone
  dsimp only
  split <;> rfl

theorem State.slipReply_done (s : State) (status reason : Nat) (x : HpCmd) (asked : s.link.slipCmd = some x) (owed : x.queue ≠ 256) :
    (s.slipReply status reason).link.slipCmd = none ∧ (s.slipReply status reason).link.done = s.link.done ++ [{ cmd := x, status, detail := reason, result := s.slip.id }] := by
  unfold State.slipReply
  rw [asked]
  exact ⟨State.hpDone_slipCmd _ _ _ _ _, State.hpDone_done _ _ _ _ _ owed⟩

/-! ### An abort (R325, R330) -/

/-- `u` is `s` but for register words, the host link, ports and the slip. -/
def State.SlipOnly (s u : State) : Prop := { u with regs := s.regs, link := s.link, ports := s.ports, slip := s.slip } = s

theorem State.SlipOnly.trans (h : s.SlipOnly u) (h' : u.SlipOnly w) : s.SlipOnly w :=
  (congrArg (fun x : State => { x with regs := s.regs, link := s.link, ports := s.ports, slip := s.slip }) h' :).trans h

theorem State.SlipOnly.crest (h : s.SlipOnly u) : u.crest = s.crest := (congrArg State.crest h :)
theorem State.SlipOnly.lee (h : s.SlipOnly u) : u.lee = s.lee := (congrArg State.lee h :)
theorem State.SlipOnly.loader (h : s.SlipOnly u) : u.loader = s.loader := (congrArg State.loader h :)
theorem State.SlipOnly.tiles (h : s.SlipOnly u) : u.tiles = s.tiles := (congrArg State.tiles h :)
theorem State.SlipOnly.jobs (h : s.SlipOnly u) : u.jobs = s.jobs := (congrArg State.jobs h :)
theorem State.SlipOnly.cycles (h : s.SlipOnly u) : u.cycles = s.cycles := (congrArg State.cycles h :)

theorem State.PortsOnly.slipOnly (h : s.PortsOnly u) : s.SlipOnly u := (congrArg (fun x : State => { x with regs := s.regs, link := s.link, slip := s.slip }) h :)

/-- The party that an abort names. -/
def State.partyNoted (s : State) (party : Option Party) : State := match party with | some p => s.setReg 0x218 p.word | none => s

/-- The abort before its answer: the frames, the coordinator, the words. -/
def State.slipEnded (s : State) (reason : Nat) (party : Option Party) : State :=
  let u := s.sendSlips s.slip.chips 3
  ((State.partyNoted { u with slip := { u.slip with st := .idle, reason, failed := party } } party).slipFlag 4).slipCount true

theorem State.slipAbort_eq (s : State) (reason : Nat) (party : Option Party) : s.slipAbort reason party = (s.slipEnded reason party).slipReply 4 reason := rfl

theorem State.partyNoted_regs (s : State) (party : Option Party) : { s.partyNoted party with regs := s.regs } = s ∧ (∀ a, a ≠ 0x218 → (s.partyNoted party).reg a = s.reg a) ∧ ∀ p, party = some p → (s.partyNoted party).reg 0x218 = p.word := by
  cases party with
  | none => exact ⟨rfl, fun _ _ => rfl, fun _ none_ => nomatch none_⟩
  | some p =>
    refine ⟨rfl, fun a ne => s.reg_setReg_ne _ _ _ ne, fun q own => ?_⟩
    obtain rfl : p = q := Option.some.inj own
    exact s.reg_setReg_same _ _

/-- What the coordinator's words come to. -/
theorem State.flagCounted_regs (s : State) : { (s.slipFlag 4).slipCount true with regs := s.regs } = s ∧ (((s.slipFlag 4).slipCount true).reg 0x204).getLsbD 4 = true ∧
    fld (((s.slipFlag 4).slipCount true).reg 0x240) 31 16 = min 0xFFFF (fld (s.reg 0x240) 31 16 + 1) ∧ ∀ a, a ≠ 0x204 → a ≠ 0x240 → ((s.slipFlag 4).slipCount true).reg a = s.reg a := by
  have flag : ((s.slipFlag 4).reg 0x204).getLsbD 4 = true := s.setFlag_bit 0x204 4 (by decide)
  have others (a : Nat) (ne : a ≠ 0x204) : (s.slipFlag 4).reg a = s.reg a := s.setFlag_reg_ne 0x204 4 a ne
  have frame : { s.slipFlag 4 with regs := s.regs } = s := rfl
  generalize s.slipFlag 4 = v at flag others frame ⊢
  have apart (a : Nat) (ne : a ≠ 0x240) : (v.slipCount true).reg a = v.reg a := v.reg_setReg_ne _ _ _ ne
  have count : (v.slipCount true).reg 0x240 = setFld (v.reg 0x240) 31 16 (satAdd 0xFFFF (fld (v.reg 0x240) 31 16) 1) := v.reg_setReg_same _ _
  refine ⟨frame, by rw [apart _ (by decide), flag], ?_, fun a ne ne' => (apart a ne').trans (others a ne)⟩
  rw [count, fld_setFld _ _ _ _ (by decide) (by decide), others 0x240 (by decide), satAdd]
  exact Nat.mod_eq_of_lt (by omega)

/-- What an abort leaves (R325). -/
def State.Aborted (s u : State) (why : Nat) (failed : Option Party) : Prop :=
  u.slip = { s.slip with st := .idle, reason := why, failed := failed } ∧ (u.reg 0x204).getLsbD 4 = true ∧ fld (u.reg 0x240) 31 16 = min 0xFFFF (fld (s.reg 0x240) 31 16 + 1) ∧
    (∀ p, failed = some p → u.reg 0x218 = p.word) ∧ s.SlipOnly u ∧ (∀ k : Fin 4, .chip k.val ∈ s.slip.parties → ∃ f ∈ (u.port k).queue, f.prio = 3 ∧ f.bytes = slipBytes 3 s.slip.id s.slip.point) ∧
    ∀ x, s.link.slipCmd = some x → x.queue ≠ 256 → u.link.slipCmd = none ∧ u.link.done = s.link.done ++ [{ cmd := x, status := 4, detail := why, result := s.slip.id }]

theorem State.SlipOnly.of_regs (h : { u with regs := s.regs } = s) : s.SlipOnly u := (congrArg (fun x : State => { x with link := s.link, ports := s.ports, slip := s.slip }) h :)
theorem State.SlipOnly.of_link (h : { u with link := s.link } = s) : s.SlipOnly u := (congrArg (fun x : State => { x with regs := s.regs, ports := s.ports, slip := s.slip }) h :)

theorem State.slipAbort_aborted (s : State) (why : Nat) (failed : Option Party) : s.Aborted (s.slipAbort why failed) why failed := by
  rw [State.slipAbort_eq, State.slipEnded]
  dsimp only
  have sends := s.sendSlips_portsOnly s.slip.chips 3
  have frames (k : Fin 4) (party : .chip k.val ∈ s.slip.parties) := s.sendSlips_frame s.slip.chips 3 k ((s.slip.mem_chips k).mpr party) k.isLt
  generalize s.sendSlips s.slip.chips 3 = v at sends frames ⊢
  have idle : v.SlipOnly { v with slip := { v.slip with st := .idle, reason := why, failed := failed } } := rfl
  have slipX : ({ v with slip := { v.slip with st := .idle, reason := why, failed := failed } } : State).slip = { s.slip with st := .idle, reason := why, failed := failed } := by rw [← sends.slip]
  have linkX : ({ v with slip := { v.slip with st := .idle, reason := why, failed := failed } } : State).link = s.link := sends.link
  have portsX : ({ v with slip := { v.slip with st := .idle, reason := why, failed := failed } } : State).ports = v.ports := rfl
  have regX (a : Nat) : ({ v with slip := { v.slip with st := .idle, reason := why, failed := failed } } : State).reg a = s.reg a := sends.reg a
  generalize ({ v with slip := { v.slip with st := .idle, reason := why, failed := failed } } : State) = x at idle slipX linkX portsX regX ⊢
  obtain ⟨notedOnly, notedReg, notedOwn⟩ := x.partyNoted_regs failed
  generalize x.partyNoted failed = y at notedOnly notedReg notedOwn ⊢
  obtain ⟨countOnly, flag, count, rest⟩ := y.flagCounted_regs
  generalize (y.slipFlag 4).slipCount true = z at countOnly flag count rest ⊢
  have slipZ : z.slip = x.slip := (congrArg State.slip countOnly :).trans (congrArg State.slip notedOnly :)
  have linkZ : z.link = s.link := ((congrArg State.link countOnly :).trans (congrArg State.link notedOnly :)).trans linkX
  have portsZ : z.ports = v.ports := ((congrArg State.ports countOnly :).trans (congrArg State.ports notedOnly :)).trans portsX
  have only := z.slipReply_link 4 why
  have done := z.slipReply_done 4 why
  generalize z.slipReply 4 why = u at only done ⊢
  have reg (a : Nat) : u.reg a = z.reg a := (congrArg (fun q : State => q.reg a) only :)
  have port (k : Nat) : u.port k = v.port k := congrArg (fun q : Vector DflPort 4 => q.toList.getD k {}) ((congrArg State.ports only :).trans portsZ)
  refine ⟨(congrArg State.slip only :).trans (slipZ.trans slipX), by rw [reg, flag], by rw [reg, count, notedReg _ (by decide), regX], fun p own => by rw [reg, rest _ (by decide) (by decide), notedOwn p own],
    sends.slipOnly.trans (idle.trans ((State.SlipOnly.of_regs notedOnly).trans ((State.SlipOnly.of_regs countOnly).trans (.of_link only)))), fun k party => ⟨_, port k ▸ frames k party, rfl, rfl⟩, fun x asked owed => ?_⟩
  obtain ⟨gone, posted⟩ := done x (linkZ ▸ asked) owed
  refine ⟨gone, posted.trans ?_⟩
  rw [linkZ, slipZ, slipX]

end Sys2Proof.Machine
end

section
/-! SUPPORT. Requests of a slip and what its parties answer (12 R318 to R320, R329; 15 R398), for obligation O45. -/

namespace Sys2Proof.Machine

variable {s v u w : State} {t : Time}

/-! ### Requests (R318) -/

/-- Why a request is refused, or 0. -/
def slipWhy (now : Time) (replaying busy : Bool) (point deadline : Nat) : Nat :=
  if busy then 0x0B
  else if deadline < now + 200000 ∨ now + 10000000000 < deadline ∨ point < deadline + 100000 ∨ deadline + 10000000000 < point then 0x0C else if replaying then 0x0D else 0

theorem State.slipRefusal_eq (s : State) (point deadline : Nat) : s.slipRefusal point deadline = slipWhy s.time.now s.replaying (decide (s.slip.st ≠ .idle) || s.loading) point deadline :=
  if_congr (by rw [Bool.or_eq_true, decide_eq_true_eq]) rfl rfl

/-- The SLIP_ID that a request takes. -/
def State.nextSlip (s : State) : Nat := (s.slip.id + 1) % 65536

/-- A refused request, and one that opens prepare. -/
def State.slipRefused (s : State) (why : Nat) : State := State.slipFlag { s with slip := { s.slip with id := s.nextSlip, reason := why } } 7
def State.slipOpened (s : State) (point deadline expect exclude : Nat) : State :=
  { s with slip := { s.slip with
    id := s.nextSlip, st := .preparing, point, deadline, expect, parties := s.slipParties exclude, prepared := [], answers := [], acked := [], committed := [], commitAcked := []
    mesaSum := .replicate 2 0, failed := none } }

theorem State.slipRequest_eq (s : State) (point deadline expect exclude : Nat) : s.slipRequest point deadline expect exclude =
    if s.slipRefusal point deadline ≠ 0 then s.slipRefused (s.slipRefusal point deadline)
    else (s.slipOpened point deadline expect exclude).sendPrepares (s.slipOpened point deadline expect exclude).slip.chips := rfl

theorem State.slipRefused_results (s : State) (why : Nat) : (s.slipRefused why).slip = { s.slip with id := s.nextSlip, reason := why } ∧ ((s.slipRefused why).reg 0x204).getLsbD 7 = true ∧
    { s.slipRefused why with regs := s.regs, slip := s.slip } = s := ⟨rfl, State.setFlag_bit _ _ _ (by decide), rfl⟩

theorem State.mem_slipParties_tile (s : State) (exclude n : Nat) : .tile n ∈ s.slipParties exclude ↔ n < 512 ∧ s.tileOn n = true := by
  simp [State.slipParties]

theorem State.mem_slipParties_mesa (s : State) (exclude d : Nat) : .mesa d ∈ s.slipParties exclude ↔ d < 2 ∧ s.mesaLive d = true := by
  simp [State.slipParties]

theorem State.mem_slipParties_chip (s : State) (exclude k : Nat) : .chip k ∈ s.slipParties exclude ↔ k < 4 ∧ s.dflLive k = true ∧ (s.port k).attached = true ∧ exclude.testBit k = false := by
  simp [State.slipParties, and_assoc]

/-- The chip that a party is. -/
def Party.chipOf : Party → Option Nat
  | .chip c => some c
  | _ => none

theorem Slip.chips_eq (p : Slip) : p.chips = p.parties.filterMap Party.chipOf := by
  unfold Slip.chips
  exact congrArg (List.filterMap · p.parties) (funext fun x => by cases x <;> rfl)

/-- A slip's chips are the parties that are, each once. -/
theorem State.slipParties_chips (s : State) (exclude : Nat) (p : Slip) (own : p.parties = s.slipParties exclude) : p.chips.Nodup ∧ ∀ k ∈ p.chips, k < 4 := by
  refine ⟨?_, fun k here => ((s.mem_slipParties_chip exclude k).mp (own ▸ (p.mem_chips k).mp here)).1⟩
  have listed : p.chips = (List.range 4).filter fun c => s.dflLive c && (s.port c).attached && !exclude.testBit c := by
    have tiles (l : List Nat) : (l.map Party.tile).filterMap Party.chipOf = [] := List.filterMap_eq_nil_iff.mpr fun x here => by
      obtain ⟨n, -, rfl⟩ := List.mem_map.mp here
      rfl
    have mesas (l : List Nat) : (l.map Party.mesa).filterMap Party.chipOf = [] := List.filterMap_eq_nil_iff.mpr fun x here => by
      obtain ⟨n, -, rfl⟩ := List.mem_map.mp here
      rfl
    have chips (l : List Nat) : (l.map Party.chip).filterMap Party.chipOf = l := by
      rw [List.filterMap_map]
      exact List.filterMap_some
    rw [Slip.chips_eq, own, State.slipParties, List.filterMap_append, List.filterMap_append, tiles, mesas, chips]
    rfl
  rw [listed]
  exact List.nodup_range.filter _

/-- What a request that is accepted opens. -/
def State.Opened (s u : State) (point deadline expect exclude : Nat) : Prop :=
  u.slip.st = .preparing ∧ u.slip.id = s.nextSlip ∧ u.slip.point = point ∧ u.slip.deadline = deadline ∧ u.slip.expect = expect ∧ u.slip.prepared = [] ∧ u.slip.answers = [] ∧ u.slip.acked = [] ∧
    u.slip.committed = [] ∧ u.slip.commitAcked = [] ∧ u.slip.crestDigest = s.slip.crestDigest ∧ (∀ n, .tile n ∈ u.slip.parties ↔ n < 512 ∧ s.tileOn n = true) ∧
    (∀ d, .mesa d ∈ u.slip.parties ↔ d < 2 ∧ s.mesaLive d = true) ∧ (∀ k, .chip k ∈ u.slip.parties ↔ k < 4 ∧ s.dflLive k = true ∧ (s.port k).attached = true ∧ exclude.testBit k = false) ∧
    ∀ k : Fin 4, .chip k.val ∈ u.slip.parties → (u.port k).queue.length = (s.port k).queue.length + 33 ∧ (u.port k).chunks.length = 32 ∧ ∃ f ∈ (u.port k).queue, f.prio = 3 ∧ f.bytes = slipBytes 1 s.nextSlip point

theorem State.slipRequest_opens (s : State) (point deadline expect exclude : Nat) :
    let u := (s.slipOpened point deadline expect exclude).sendPrepares (s.slipOpened point deadline expect exclude).slip.chips
    s.Opened u point deadline expect exclude ∧ { u with ports := s.ports, slip := s.slip } = s := by
  have parties : (s.slipOpened point deadline expect exclude).slip.parties = s.slipParties exclude := rfl
  have still : { s.slipOpened point deadline expect exclude with slip := s.slip } = s := rfl
  have ports (k : Nat) : (s.slipOpened point deadline expect exclude).port k = s.port k := rfl
  have named : (s.slipOpened point deadline expect exclude).slip.id = s.nextSlip ∧ (s.slipOpened point deadline expect exclude).slip.point = point := ⟨rfl, rfl⟩
  have values : (s.slipOpened point deadline expect exclude).slip.st = .preparing ∧ (s.slipOpened point deadline expect exclude).slip.deadline = deadline ∧ (s.slipOpened point deadline expect exclude).slip.expect = expect ∧
      (s.slipOpened point deadline expect exclude).slip.prepared = [] ∧ (s.slipOpened point deadline expect exclude).slip.answers = [] ∧ (s.slipOpened point deadline expect exclude).slip.acked = [] ∧
      (s.slipOpened point deadline expect exclude).slip.committed = [] ∧ (s.slipOpened point deadline expect exclude).slip.commitAcked = [] ∧
      (s.slipOpened point deadline expect exclude).slip.crestDigest = s.slip.crestDigest := ⟨rfl, rfl, rfl, rfl, rfl, rfl, rfl, rfl, rfl⟩
  generalize s.slipOpened point deadline expect exclude = v at parties still ports named values
  obtain ⟨once, small⟩ := s.slipParties_chips exclude v.slip parties
  have only := v.sendPrepares_portsOnly v.slip.chips
  have own (k : Nat) := v.sendPrepares_own v.slip.chips k small once
  obtain ⟨id, at_⟩ := named
  obtain ⟨st, deadline', expect', prepared, answers, acked, committed, commitAcked, crestDigest⟩ := values
  dsimp only
  generalize v.sendPrepares v.slip.chips = u at only own ⊢
  rw [State.Opened, only.slip, parties]
  refine ⟨⟨st, id, at_, deadline', expect', prepared, answers, acked, committed, commitAcked, crestDigest, s.mem_slipParties_tile exclude, s.mem_slipParties_mesa exclude, s.mem_slipParties_chip exclude, fun k party => ?_⟩,
    (congrArg (fun x : State => { x with slip := s.slip, ports := s.ports }) only :).trans ?_⟩
  · obtain ⟨length, chunks, frame⟩ := (v.port k).preparing_results v.lee k v.slip.id v.slip.point
    rw [← own k ((v.slip.mem_chips k).mpr (parties ▸ party)), id, at_] at frame
    rw [← own k ((v.slip.mem_chips k).mpr (parties ▸ party))] at length chunks
    exact ⟨ports k ▸ length, chunks, _, frame, rfl, rfl⟩
  · exact (congrArg (fun x : State => { x with ports := s.ports }) still :)

end Sys2Proof.Machine
end

section
/-! SUPPORT. A request's two ends, the host's abort and the start of a party's prepare (12 R318 to R320, R323, R330, R337; 15 R398), for obligation O45. -/

namespace Sys2Proof.Machine

variable {s v u w : State} {t : Time}

/-! ### What a request comes to (R318, R330) -/

/-- What a request that is refused leaves. -/
def State.Refused (s u : State) (why : Nat) : Prop :=
  u.slip = { s.slip with id := s.nextSlip, reason := why } ∧ (u.reg 0x204).getLsbD 7 = true ∧ s.SlipOnly u ∧ ∀ p : Fin 4, u.port p = s.port p

theorem State.slipRequest_results (s : State) (point deadline expect exclude : Nat) {why : Nat} (known : s.slipRefusal point deadline = why) :
    let u := s.slipRequest point deadline expect exclude
    (why ≠ 0 → s.Refused u why) ∧ (why = 0 → s.Opened u point deadline expect exclude ∧ s.SlipOnly u) ∧ u.link = s.link := by
  rw [State.slipRequest_eq, known]
  split
  · next refuses =>
    obtain ⟨slip, flag, only⟩ := s.slipRefused_results why
    have link : (s.slipRefused why).link = s.link := (congrArg State.link only :)
    have ports : (s.slipRefused why).ports = s.ports := (congrArg State.ports only :)
    generalize s.slipRefused why = u at slip flag only link ports ⊢
    refine ⟨fun _ => ⟨slip, flag, (congrArg (fun x : State => { x with link := s.link, ports := s.ports }) only :), fun p => ?_⟩, fun accepts => absurd accepts refuses, link⟩
    exact congrArg (fun q : Vector DflPort 4 => q.toList.getD p {}) ports
  · next accepts =>
    obtain ⟨opened, only⟩ := s.slipRequest_opens point deadline expect exclude
    generalize (s.slipOpened point deadline expect exclude).sendPrepares (s.slipOpened point deadline expect exclude).slip.chips = u at opened only ⊢
    exact ⟨fun refuses => absurd refuses accepts, fun _ => ⟨opened, (congrArg (fun x : State => { x with regs := s.regs, link := s.link }) only :)⟩, (congrArg State.link only :)⟩

theorem exec_slipPrepareWrite (hv : s.at t = v) (value : Word) : exec (.slipPrepareWrite value t) s = .next
    (if value.getLsbD 0 then (v.setReg 0x200 (value &&& 0xF0)).slipRequest (v.getPair 0x208) (v.getPair 0x210) v.expectRegs (fld value 7 4) else v.setReg 0x200 (value &&& 0xF0)) := by
  subst hv
  have other (a : Nat) (ne : a ≠ 0x200) : ((s.at t).setReg 0x200 (value &&& 0xF0)).reg a = (s.at t).reg a := State.reg_setReg_ne _ _ _ _ ne
  have point : ((s.at t).setReg 0x200 (value &&& 0xF0)).getPair 0x208 = (s.at t).getPair 0x208 := by rw [State.getPair, other _ (by decide), other _ (by decide), State.getPair]
  have deadline : ((s.at t).setReg 0x200 (value &&& 0xF0)).getPair 0x210 = (s.at t).getPair 0x210 := by rw [State.getPair, other _ (by decide), other _ (by decide), State.getPair]
  have expect : ((s.at t).setReg 0x200 (value &&& 0xF0)).expectRegs = (s.at t).expectRegs := by
    unfold State.expectRegs
    refine congrArg (List.foldl · 0 (List.range 8)) (funext fun n => funext fun k => ?_)
    rw [other _ (by omega)]
  rw [← point, ← deadline, ← expect]
  rfl

theorem slipPrepareWrite_results (hv : s.at t = v) (value : Word) (asked : value.getLsbD 0 = true) :
    let why := slipWhy v.time.now v.replaying (decide (v.slip.st ≠ .idle) || v.loading) (v.getPair 0x208) (v.getPair 0x210)
    ∃ u, exec (.slipPrepareWrite value t) s = .next u ∧ (why ≠ 0 → v.Refused u why) ∧ (why = 0 → v.Opened u (v.getPair 0x208) (v.getPair 0x210) v.expectRegs (fld value 7 4) ∧ v.SlipOnly u) := by
  have same : v.SlipOnly (v.setReg 0x200 (value &&& 0xF0)) := rfl
  have why : (v.setReg 0x200 (value &&& 0xF0)).slipRefusal (v.getPair 0x208) (v.getPair 0x210) =
      slipWhy v.time.now v.replaying (decide (v.slip.st ≠ .idle) || v.loading) (v.getPair 0x208) (v.getPair 0x210) := State.slipRefusal_eq _ _ _
  obtain ⟨refused, opened, -⟩ := (v.setReg 0x200 (value &&& 0xF0)).slipRequest_results (v.getPair 0x208) (v.getPair 0x210) v.expectRegs (fld value 7 4) why
  refine ⟨_, (exec_slipPrepareWrite hv value).trans (congrArg Host.Outcome.next (if_pos asked)), fun ne => ?_, fun zero => ?_⟩
  · obtain ⟨slip, flag, only, ports⟩ := refused ne
    exact ⟨slip, flag, same.trans only, ports⟩
  · obtain ⟨all, only⟩ := opened zero
    exact ⟨all, same.trans only⟩

/-! ### The host's request (R398) -/

theorem exec_slip_waits (hv : s.at t = v) (other : ∀ x, v.link.adminNow = some x → byteAt x.bytes 0 ≠ 5) : exec (.slip t) s = .next v := by
  subst hv
  show Host.Outcome.next (match (s.at t).link.adminNow with | none => _ | some c => _) = _
  cases current : (s.at t).link.adminNow with
  | none => rfl
  | some c => exact congrArg Host.Outcome.next (if_pos (other c current))

/-- The executor goes on. -/
def State.adminFree (s : State) : State := s.modLink fun l => { l with adminNow := none }

/-- The request of a SLIP command. -/
def State.hostSlip (s : State) (c : HpCmd) : State := s.adminFree.slipRequest (leAt c.bytes 8 8) (leAt c.bytes 0x10 8) (leAt c.bytes 0x20 32) (byteAt c.bytes 0x18)

theorem exec_slip_some (hv : s.at t = v) {c : HpCmd} (current : v.link.adminNow = some c) (op : byteAt c.bytes 0 = 5) : exec (.slip t) s = .next
    (if v.adminFree.slipRefusal (leAt c.bytes 8 8) (leAt c.bytes 0x10 8) ≠ 0 then (v.hostSlip c).hpDone c 4 (v.adminFree.slipRefusal (leAt c.bytes 8 8) (leAt c.bytes 0x10 8)) (v.hostSlip c).slip.id
     else (v.hostSlip c).modLink fun l => { l with slipCmd := some c }) := by
  subst hv
  show Host.Outcome.next (match (s.at t).link.adminNow with | none => _ | some c => _) = _
  rw [current]
  exact congrArg Host.Outcome.next (if_neg (not_not_intro op))

theorem slip_results (hv : s.at t = v) {c : HpCmd} (current : v.link.adminNow = some c) (op : byteAt c.bytes 0 = 5) :
    let r := slipWhy v.time.now v.replaying (decide (v.slip.st ≠ .idle)) (leAt c.bytes 8 8) (leAt c.bytes 0x10 8)
    ∃ u, exec (.slip t) s = .next u ∧ u.link.adminNow = none ∧
      (r ≠ 0 → v.Refused u r ∧ (c.queue ≠ 256 → u.link.done = v.link.done ++ [{ cmd := c, status := 4, detail := r, result := v.nextSlip }])) ∧
      (r = 0 → (v.Opened u (leAt c.bytes 8 8) (leAt c.bytes 0x10 8) (leAt c.bytes 0x20 32) (byteAt c.bytes 0x18) ∧ v.SlipOnly u) ∧ u.link.slipCmd = some c ∧ u.link.done = v.link.done) := by
  have same : v.SlipOnly v.adminFree := rfl
  have why : v.adminFree.slipRefusal (leAt c.bytes 8 8) (leAt c.bytes 0x10 8) = slipWhy v.time.now v.replaying (decide (v.slip.st ≠ .idle)) (leAt c.bytes 8 8) (leAt c.bytes 0x10 8) := by
    rw [State.slipRefusal_eq, show v.adminFree.loading = false from rfl, Bool.or_false]
    rfl
  obtain ⟨refused, opened, link⟩ := v.adminFree.slipRequest_results (leAt c.bytes 8 8) (leAt c.bytes 0x10 8) (leAt c.bytes 0x20 32) (byteAt c.bytes 0x18) why
  have ran := exec_slip_some hv current op
  have done : v.adminFree.link.done = v.link.done := rfl
  have free : v.adminFree.link.adminNow = none := rfl
  have next : v.adminFree.nextSlip = v.nextSlip := rfl
  rw [why] at ran
  rw [← State.hostSlip] at refused opened link
  dsimp only
  generalize slipWhy v.time.now v.replaying (decide (v.slip.st ≠ .idle)) (leAt c.bytes 8 8) (leAt c.bytes 0x10 8) = r at ran refused opened ⊢
  generalize v.hostSlip c = w at ran refused opened link
  by_cases zero : r = 0
  · rw [if_neg (not_not_intro zero)] at ran
    obtain ⟨all, only⟩ := opened zero
    have tail : w.SlipOnly (w.modLink fun l => { l with slipCmd := some c }) := rfl
    refine ⟨_, ran, (congrArg HostLink.adminNow link).trans free, fun ne => absurd zero ne, fun _ => ⟨⟨all, (same.trans only).trans tail⟩, rfl, (congrArg HostLink.done link).trans done⟩⟩
  · rw [if_pos zero] at ran
    obtain ⟨slip, flag, only, ports⟩ := refused zero
    have posts := w.hpDone_link c 4 r w.slip.id
    have now := congrArg Prod.snd (w.hpDone_adminPart c 4 r w.slip.id)
    have entry := w.hpDone_done c 4 r w.slip.id
    generalize w.hpDone c 4 r w.slip.id = u at ran posts now entry
    refine ⟨u, ran, (now.trans (congrArg HostLink.adminNow link)).trans free, fun _ => ⟨⟨(congrArg State.slip posts :).trans slip, ?_, (same.trans only).trans (.of_link posts), fun p => ?_⟩, fun owed => ?_⟩, fun none_ => absurd none_ zero⟩
    · exact (congrArg (fun x : State => (x.reg 0x204).getLsbD 7) posts :).trans flag
    · exact (congrArg (fun x : State => x.port p) posts :).trans (ports p)
    · rw [entry owed, link, done, show w.slip.id = v.nextSlip from (congrArg Slip.id slip).trans next]

/-! ### The host's abort (R323) -/

theorem exec_slipAbortWrite (hv : s.at t = v) : exec (.slipAbortWrite t) s = .next (match v.slip.st with | .idle => v | .preparing => v.slipAbort 0x0A none | _ => v.slipFlag 6) := by
  subst hv
  rfl

theorem exec_slipAbortWrite_idle (hv : s.at t = v) (st : v.slip.st = .idle) : exec (.slipAbortWrite t) s = .next v := by rw [exec_slipAbortWrite hv, st]
theorem exec_slipAbortWrite_preparing (hv : s.at t = v) (st : v.slip.st = .preparing) : exec (.slipAbortWrite t) s = .next (v.slipAbort 0x0A none) := by rw [exec_slipAbortWrite hv, st]
theorem exec_slipAbortWrite_late (hv : s.at t = v) (st : v.slip.st = .arming ∨ v.slip.st = .armed) : exec (.slipAbortWrite t) s = .next (v.slipFlag 6) := by
  rcases st with st | st <;> rw [exec_slipAbortWrite hv, st]

/-! ### A party begins (R320, R337) -/

/-- The party has begun. -/
def State.partyBegun (s : State) (party : Party) : State := { s with slip := { s.slip with prepared := s.slip.prepared ++ [party] } }

theorem exec_partyPrepare_not (hv : s.at t = v) {party : Party} {id : Nat} (off : v.slip.st ≠ .preparing ∨ v.slip.id ≠ id ∨ party ∉ v.slip.parties ∨ party ∈ v.slip.prepared) :
    exec (.partyPrepare party id t) s = .next v := by
  subst hv
  exact congrArg Host.Outcome.next (if_pos off)

theorem exec_partyPrepare_due (hv : s.at t = v) {party : Party} {id : Nat} (on : ¬ (v.slip.st ≠ .preparing ∨ v.slip.id ≠ id ∨ party ∉ v.slip.parties ∨ party ∈ v.slip.prepared)) :
    exec (.partyPrepare party id t) s = .next (match party with
      | .tile n => if 2 ≤ ((v.partyBegun party).row (rowDom n)).state then (v.partyBegun party).wakeRow (rowDom n) else v.partyBegun party
      | _ => v.partyBegun party) := by
  subst hv
  exact (congrArg Host.Outcome.next (if_neg on)).trans (by cases party <;> rfl)

theorem partyPrepare_results (hv : s.at t = v) {party : Party} {id : Nat} (on : ¬ (v.slip.st ≠ .preparing ∨ v.slip.id ≠ id ∨ party ∉ v.slip.parties ∨ party ∈ v.slip.prepared)) :
    ∃ u, exec (.partyPrepare party id t) s = .next u ∧ u.slip = { v.slip with prepared := v.slip.prepared ++ [party] } ∧ { u with slip := v.slip, power := v.power } = v ∧
      ∀ n, party = .tile n → 2 ≤ (v.row (rowDom n)).state → (u.row (rowDom n)).waking = true := by
  have ran := exec_partyPrepare_due hv on
  have begun : (v.partyBegun party).slip = { v.slip with prepared := v.slip.prepared ++ [party] } := rfl
  have still : { v.partyBegun party with slip := v.slip } = v := rfl
  have rows (d : Nat) : (v.partyBegun party).row d = v.row d := rfl
  generalize v.partyBegun party = w at ran begun still rows
  have stays : { w with slip := v.slip, power := v.power } = v := (congrArg (fun x : State => { x with power := v.power }) still :)
  cases party with
  | tile n =>
    obtain ⟨-, wakes, -, only⟩ := w.wakeRow_results (rowDom n)
    refine ⟨_, ran, ?_⟩
    dsimp only
    split
    · next deep =>
      generalize w.wakeRow (rowDom n) = u at wakes only
      exact ⟨(congrArg State.slip only :).trans begun, (congrArg (fun x : State => { x with slip := v.slip, power := v.power }) only :).trans stays, fun m own _ => by cases own; exact wakes deep⟩
    · next shallow => exact ⟨begun, stays, fun m own deep => by cases own; exact absurd ((rows _).symm ▸ deep) shallow⟩
  | mesa d => exact ⟨w, ran, begun, stays, fun n own => nomatch own⟩
  | chip k => exact ⟨w, ran, begun, stays, fun n own => nomatch own⟩

end Sys2Proof.Machine
end

section
/-! SUPPORT. What a party finds as it reads its lee, and its answer (12 R315, R320; 21 R574), for obligation O45. -/

namespace Sys2Proof.Machine

variable {s v u w : State} {t : Time}

/-! ### Errors in a tile's lee (R574) -/

/-- A bank without the marks of its poisoned words. -/
def TileBank.bare (b : TileBank) : TileBank := { b with wbedPoison := [], imemPoison := [] }

theorem Tile.poison_bare (x : Tile) (h store addr k : Nat) : ((x.poison h store addr).half k).bare = (x.half k).bare := by
  have put (b : TileBank) (same : b.bare = (x.half h).bare) : ((x.setHalf h b).half k).bare = (x.half k).bare := by
    unfold Tile.setHalf Tile.half at *
    by_cases first : h = 0 <;> by_cases asked : k = 0 <;> simp_all
  unfold Tile.poison
  split
  · exact put _ rfl
  · exact put _ rfl
  · rfl

/-- `u` is `s` but for reports, poisoned words and tiles. -/
def State.LeeRead (s u : State) : Prop :=
  { u with regs := s.regs, logs := s.logs, link := s.link, ports := s.ports, crestBad := s.crestBad, leeBad := s.leeBad, oldBad := s.oldBad, tiles := s.tiles } = s

theorem State.LeeRead.trans (h : s.LeeRead u) (h' : u.LeeRead w) : s.LeeRead w :=
  (congrArg (fun x : State =>
    { x with regs := s.regs, logs := s.logs, link := s.link, ports := s.ports, crestBad := s.crestBad, leeBad := s.leeBad, oldBad := s.oldBad, tiles := s.tiles }) h' :).trans h

theorem State.RwlRead.leeRead (h : s.RwlRead u) : s.LeeRead u := (congrArg (fun x : State => { x with tiles := s.tiles }) h :)
theorem State.Reported.leeRead (h : s.Reported u) : s.LeeRead u := h.rwlRead.leeRead

/-- `u` is `s` but for what a tile's read of its lee finds: the words that name its halves stay, and its banks but for their poison marks. -/
def State.HalfRead (s u : State) (n : Nat) : Prop :=
  s.LeeRead u ∧ u.reg (tileBase n + 4) = s.reg (tileBase n + 4) ∧ u.reg (tileBase n + 8) = s.reg (tileBase n + 8) ∧ ∀ k, ((u.tile n).half k).bare = ((s.tile n).half k).bare

theorem State.HalfRead.refl (s : State) (n : Nat) : s.HalfRead s n := ⟨rfl, rfl, rfl, fun _ => rfl⟩

theorem State.HalfRead.trans {n : Nat} (h : s.HalfRead u n) (h' : u.HalfRead w n) : s.HalfRead w n := by
  obtain ⟨read, en, sts, banks⟩ := h
  obtain ⟨read', en', sts', banks'⟩ := h'
  exact ⟨read.trans read', en'.trans en, sts'.trans sts, fun k => (banks' k).trans (banks k)⟩

theorem State.HalfRead.of_reported {n : Nat} (h : s.Reported u) (en : u.reg (tileBase n + 4) = s.reg (tileBase n + 4)) (sts : u.reg (tileBase n + 8) = s.reg (tileBase n + 8)) : s.HalfRead u n :=
  ⟨h.leeRead, en, sts, fun k => by rw [State.tile_of_tiles h.tiles]⟩

theorem tileBase_faultWord (n k : Nat) : faultWord (tileBase n + k) = false := decide_eq_false (by unfold tileBase; omega)

theorem State.tileFlag_halfRead (s : State) (n b : Nat) : s.HalfRead (s.tileFlag n b) n :=
  .of_reported ((s.reported_setFlag _ _).trans (State.reported_countByte _ _ _)) (s.tileFlag_reg n b _ (by omega) (by omega)) (s.tileFlag_reg n b _ (by omega) (by omega))

theorem State.faultThrottled_halfRead (s : State) (n : Nat) (clear : Bool) (die : Nat) (f : FaultInfo) (known : f.sev < 5) : s.HalfRead (s.faultThrottled clear die f) n :=
  .of_reported (s.reported_faultThrottled clear die f) (s.faultThrottled_reg (tileBase_faultWord n _) _ _ _ known) (s.faultThrottled_reg (tileBase_faultWord n _) _ _ _ known)

theorem State.fault_halfRead (s : State) (n die : Nat) (f : FaultInfo) (known : f.sev < 5) : s.HalfRead (s.fault die none f) n :=
  .of_reported (s.reported_fault die none f) (s.fault_reg (tileBase_faultWord n _) _ _ _ known) (s.fault_reg (tileBase_faultWord n _) _ _ _ known)

theorem State.memCe_halfRead (s : State) (n store addr : Nat) (stamp : Stamp) : s.HalfRead (s.memCe n store addr stamp) n := by
  unfold State.memCe
  dsimp only
  split
  · exact (s.tileFlag_halfRead n 0).trans (State.faultThrottled_halfRead _ _ _ _ _ (by decide : (1 : Nat) < 5))
  · exact (s.tileFlag_halfRead n 2).trans (State.faultThrottled_halfRead _ _ _ _ _ (by decide : (1 : Nat) < 5))
  · exact State.faultThrottled_halfRead _ _ _ _ _ (by decide : (1 : Nat) < 5)

theorem State.memUe_halfRead (s : State) (n h store addr : Nat) (stamp : Stamp) : s.HalfRead (s.memUe n h store addr stamp) n := by
  have poisons : s.HalfRead (s.modTile n fun x => x.poison h store addr) n := ⟨rfl, rfl, rfl, fun k => by rw [State.tile_modTile_same, Tile.poison_bare]⟩
  have listed (x : State) (l : Logs) : x.HalfRead { x with logs := l } n := ⟨rfl, rfl, rfl, fun _ => rfl⟩
  unfold State.memUe
  dsimp only
  exact poisons.trans ((State.tileFlag_halfRead _ n _).trans ((listed _ _).trans (State.fault_halfRead _ _ _ _ (by decide : (2 : Nat) < 5))))

theorem State.leeReads_halfRead (s : State) (hits : List EccHit) (n : Nat) : s.HalfRead (s.leeReads hits (.tile n)) n := by
  unfold State.leeReads
  dsimp only
  induction hits generalizing s with
  | nil => exact .refl s n
  | cons e hits ih =>
    rw [List.foldl_cons]
    refine State.HalfRead.trans ?_ (ih _)
    split
    · split
      · exact s.memUe_halfRead n _ _ _ _
      · exact s.memCe_halfRead n _ _ _
    · exact .refl s n

/-- The errors in a party's lee leave all but reports, poison marks and tiles. -/
theorem State.leeReads_leeRead (s : State) (hits : List EccHit) (party : Party) : s.LeeRead (s.leeReads hits party) := by
  cases party with
  | tile n => exact (s.leeReads_halfRead hits n).1
  | mesa d => exact (s.rwlReads_rwlRead _ _ _).leeRead
  | chip k => rfl

theorem State.HalfRead.tileSerial {n : Nat} (h : s.HalfRead u n) (k : Nat) : u.tileSerial n k = s.tileSerial n k ∧ u.leeEn n = s.leeEn n ∧ u.leeHalf n = s.leeHalf n := by
  obtain ⟨-, en, sts, banks⟩ := h
  have serial (x : State) : x.tileSerial n k = let b := ((x.tile n).half k).bare
      if x.leeEn n then b.wbed.bytes 0 0x180000 ++ (b.imem.bytes 0 0x8000 ++ b.tables) else b.tables := rfl
  have enabled : u.leeEn n = s.leeEn n := congrArg (bit · 0) en
  refine ⟨?_, enabled, congrArg (fun w : Word => 1 - fld w 0 0) sts⟩
  rw [serial, serial, banks, enabled]

/-! ### The answer (R320) -/

/-- An answer of a party. -/
def State.answerNoted (s : State) (party : Party) (why sum : Nat) : State :=
  let u := match party with | .tile n => s.setPair (tileBase n + 0x40) sum | _ => s
  { u with slip := { u.slip with answers := u.slip.answers ++ [(party, why, sum)] } }

/-- A party's answer, once it has read its lee. -/
def State.partyAnswered (s : State) (party : Party) : State := s.answerNoted party (s.partyNack party) (s.partySum party)

/-- When a party's checksum does not count. -/
def State.answersNot (s : State) (party : Party) (id : Nat) : Prop :=
  s.slip.st ≠ .preparing ∨ s.slip.id ≠ id ∨ party ∉ s.slip.prepared ∨ (s.slip.answers.any fun a => decide (a.1 = party)) ∨ !s.partyAwake party

theorem State.answersNot_iff (s : State) (party : Party) (id : Nat) : s.answersNot party id ↔
    s.slip.st ≠ .preparing ∨ s.slip.id ≠ id ∨ party ∉ s.slip.prepared ∨ (∃ a ∈ s.slip.answers, a.1 = party) ∨ s.partyAwake party = false := by
  simp [State.answersNot]

theorem exec_partyChecksumDone_not (hv : s.at t = v) {party : Party} (own : ∀ k, party ≠ .chip k) (id : Nat) (hits : List EccHit) (off : v.answersNot party id) :
    exec (.partyChecksumDone party id hits t) s = .next v := by
  subst hv
  cases party with
  | chip k => exact absurd rfl (own k)
  | tile n => exact congrArg Host.Outcome.next (if_pos off)
  | mesa d => exact congrArg Host.Outcome.next (if_pos off)

theorem exec_partyChecksumDone_own (hv : s.at t = v) {party : Party} (own : ∀ k, party ≠ .chip k) (id : Nat) (hits : List EccHit) (on : ¬ v.answersNot party id) :
    exec (.partyChecksumDone party id hits t) s = .next ((v.leeReads hits party).partyAnswered party) := by
  subst hv
  cases party with
  | chip k => exact absurd rfl (own k)
  | tile n => exact congrArg Host.Outcome.next (if_neg on)
  | mesa d => exact congrArg Host.Outcome.next (if_neg on)

theorem exec_partyChecksumDone_chip (hv : s.at t = v) (k : Fin 4) (id : Nat) (hits : List EccHit) :
    exec (.partyChecksumDone (.chip k.val) id hits t) s = .next (if (v.chips[k]).slipId = id then { v with chips := v.chips.set k.val (v.chips[k]).slipChecksum } else v) := by
  subst hv
  exact congrArg Host.Outcome.next (dif_pos k.isLt)

theorem State.answerNoted_results (s : State) (party : Party) (why sum : Nat) : (s.answerNoted party why sum).slip = { s.slip with answers := s.slip.answers ++ [(party, why, sum)] } ∧
    { s.answerNoted party why sum with regs := s.regs, slip := s.slip } = s ∧ ∀ d, party = .mesa d → (s.answerNoted party why sum).regs = s.regs := by
  cases party with
  | tile n =>
    have pair (a : Nat) : { s.setPair a sum with regs := s.regs } = s := rfl
    have only := pair (tileBase n + 0x40)
    unfold State.answerNoted
    dsimp only
    generalize s.setPair (tileBase n + 0x40) sum = u at only
    have slip : u.slip = s.slip := (congrArg State.slip only :)
    refine ⟨by rw [slip], (congrArg (fun x : State => { x with slip := s.slip }) only :), fun d own => nomatch own⟩
  | mesa d => exact ⟨rfl, rfl, fun _ _ => rfl⟩
  | chip k => exact ⟨rfl, rfl, fun d own => nomatch own⟩

/-! ### A tile's answer -/

theorem State.partyNack_tile (s : State) (n : Nat) :
    let x := s.tile n
    let y := x.half (s.leeHalf n)
    (x.retiring ≠ none ∨ x.refreshing = true → s.partyNack (.tile n) = 6) ∧
    (x.retiring = none → x.refreshing = false → s.leeEn n = false → s.partyNack (.tile n) = if s.bedChanges n then 4 else 0) ∧
    (x.retiring = none → x.refreshing = false → s.leeEn n = true → s.partyNack (.tile n) = if y.wbedPoison ≠ [] ∨ y.imemPoison ≠ [] then 7 else 0) := by
  unfold State.partyNack
  dsimp only
  refine ⟨fun busy => if_pos (by rwa [Option.isSome_iff_ne_none]), fun retiring refreshing off => ?_, fun retiring refreshing on => ?_⟩
  · simp [retiring, refreshing, off]
  · simp [retiring, refreshing, on]

/-- What a tile answers: its lee's checksum before the read, and the reason that the read leaves. -/
theorem State.tile_answer (s : State) (hits : List EccHit) (n : Nat) :
    let read := s.leeReads hits (.tile n)
    let y := read.tile n
    let r := read.partyNack (.tile n)
    read.partySum (.tile n) = crc64 (s.tileSerial n (s.leeHalf n)) ∧ (y.retiring ≠ none ∨ y.refreshing = true → r = 6) ∧
    (y.retiring = none → y.refreshing = false → s.leeEn n = false → r = if s.bedChanges n then 4 else 0) ∧
    (y.retiring = none → y.refreshing = false → s.leeEn n = true → r = if (y.half (s.leeHalf n)).wbedPoison ≠ [] ∨ (y.half (s.leeHalf n)).imemPoison ≠ [] then 7 else 0) := by
  have half := s.leeReads_halfRead hits n
  have frame : s.LeeRead (s.leeReads hits (.tile n)) := half.1
  generalize s.leeReads hits (.tile n) = u at half frame
  have same (k : Nat) := half.tileSerial k
  obtain ⟨-, enabled, halved⟩ := same 0
  have beds : u.bedChanges n = s.bedChanges n := (congrArg (fun x : State => x.bedChanges n) frame :)
  obtain ⟨busy, closed, opened⟩ := u.partyNack_tile n
  rw [enabled, beds] at closed
  rw [enabled, halved] at opened
  exact ⟨congrArg crc64 ((congrArg (u.tileSerial n) halved).trans (same _).1), busy, closed, opened⟩

/-! ### A mesa die's answer -/

theorem State.partyNack_mesa (s : State) (d : Nat) :
    let bad := s.leeBad.any fun e => decide (leeDie e.1 = d) && !inLedger e.1
    (bad = true → s.partyNack (.mesa d) = 7) ∧ (bad = false → s.partyNack (.mesa d) = 0 ∨ s.partyNack (.mesa d) = 5 ∨ s.partyNack (.mesa d) = 0x0F) := by
  dsimp only
  unfold State.partyNack
  dsimp only
  refine ⟨fun bad => if_pos bad, fun good => ?_⟩
  rw [if_neg (by rw [good]; decide)]
  split
  · exact .inr (.inl rfl)
  · split
    · exact .inr (.inr rfl)
    · exact .inl rfl

theorem State.mesa_sum (s : State) (hits : List EccHit) (d : Nat) : (s.leeReads hits (.mesa d)).partySum (.mesa d) = mesaSumOf s.lee d :=
  congrArg (mesaSumOf · d) (congrArg State.lee (s.leeReads_leeRead hits (.mesa d)) :)

theorem State.leeReads_nil (s : State) (party : Party) : s.leeReads [] party = s := by cases party <;> rfl

end Sys2Proof.Machine
end

section
/-! SUPPORT. Acknowledgements, the digest and the timeouts of a prepare, and a chunk sent again (12 R319 to R322; 17 R458), for obligation O45. -/

namespace Sys2Proof.Machine

variable {s v u w : State} {t : Time}

/-! ### A party's answer, in all (R320) -/

theorem State.LeeRead.still (h : s.LeeRead u) : u.crest = s.crest ∧ u.lee = s.lee ∧ u.loader = s.loader ∧ u.jobs = s.jobs ∧ u.cycles = s.cycles ∧ u.slip = s.slip :=
  ⟨(congrArg State.crest h :), (congrArg State.lee h :), (congrArg State.loader h :), (congrArg State.jobs h :), (congrArg State.cycles h :), (congrArg State.slip h :)⟩

theorem State.answerNoted_still (s : State) (party : Party) (why sum : Nat) : (s.answerNoted party why sum).tiles = s.tiles ∧ s.LeeRead { s.answerNoted party why sum with slip := s.slip } := by
  obtain ⟨-, only, -⟩ := s.answerNoted_results party why sum
  generalize s.answerNoted party why sum = u at only
  exact ⟨(congrArg State.tiles only :), (congrArg (fun x : State =>
    { x with regs := s.regs, logs := s.logs, link := s.link, ports := s.ports, crestBad := s.crestBad, leeBad := s.leeBad, oldBad := s.oldBad, tiles := s.tiles }) only :)⟩

/-! ### The last acknowledgement (R319, R323) -/

/-- COMMIT goes out when the last party has acknowledged. -/
def Slip.afterAck (p : Slip) : SlipSt := if p.parties.all fun q => decide (q ∈ p.acked) then .arming else p.st

theorem State.armStep_results (s : State) : s.armStep.slip = { s.slip with st := s.slip.afterAck } ∧ s.SlipOnly s.armStep := by
  have sends (u : State) (l : List Nat) : u.PortsOnly (l.foldl (fun s c => s.sendSlip c 2) u) := u.sendSlips_portsOnly l 2
  unfold State.armStep Slip.afterAck
  dsimp only
  split
  · have only := sends { s with slip := { s.slip with st := .arming } } ({ s with slip := { s.slip with st := .arming } } : State).slip.chips
    exact ⟨only.slip, (show s.SlipOnly { s with slip := { s.slip with st := .arming } } from rfl).trans only.slipOnly⟩
  · exact ⟨rfl, rfl⟩

/-! ### An acknowledgement counts (R321) -/

/-- The party has acknowledged. -/
def Slip.withAck (p : Slip) (party : Party) : Slip := { p with acked := p.acked ++ [party] }

theorem State.slipAck_wrong (s : State) {party : Party} {sum : Nat} (wrong : s.sumWrong party sum = true) : s.slipAck party sum = s.slipAbort 2 (some party) := if_pos wrong

theorem State.slipAck_plain (s : State) {party : Party} {sum : Nat} (fits : s.sumWrong party sum = false) (plain : ∀ d, party ≠ .mesa d) :
    s.slipAck party sum = ({ s with slip := s.slip.withAck party } : State).armStep := by
  refine (if_neg (by rw [fits]; decide)).trans ?_
  cases party with
  | mesa d => exact absurd rfl (plain d)
  | tile n => rfl
  | chip k => rfl

/-- Every mesa die of a slip has acknowledged. -/
def Slip.mesasIn (p : Slip) : Bool := p.parties.all fun (q : Party) => (match q with | .mesa _ => decide (q ∈ p.acked) | _ => true)

/-- The acknowledgement of a mesa die, and the digest that it may complete. -/
def Slip.withMesa (p : Slip) (d sum : Nat) : Slip := { p with acked := p.acked ++ [.mesa d], mesaSum := p.mesaSum.setIfInBounds d sum }
def State.mesaAcked (s : State) (d sum : Nat) : State := { s with slip := s.slip.withMesa d sum }

theorem State.digestStep_eq (s : State) : s.digestStep = if s.slip.mesasIn then { s with slip := { s.slip with leeDigest := s.formDigest } } else s := rfl

theorem State.slipAck_mesa (s : State) (d sum : Nat) : s.slipAck (.mesa d) sum =
    let u := (s.mesaAcked d sum).digestStep
    if u.slip.mesasIn ∧ u.slip.expect ≠ 0 ∧ u.slip.expect ≠ u.slip.leeDigest then u.slipAbort 3 none else u.armStep := rfl

/-- What the acknowledgement of a mesa die comes to. -/
theorem State.slipAck_mesa_results (s : State) (d sum : Nat) :
    let p := s.slip.withMesa d sum
    let dig := (s.mesaAcked d sum).formDigest
    let u := s.slipAck (.mesa d) sum
    s.SlipOnly u ∧ u.slip.acked = p.acked ∧ u.slip.leeDigest = (if p.mesasIn then dig else s.slip.leeDigest) ∧
      (p.mesasIn = true → s.slip.expect ≠ 0 → s.slip.expect ≠ dig → u.slip.st = .idle ∧ u.slip.reason = 3) ∧
      (p.mesasIn = false ∨ s.slip.expect = 0 ∨ s.slip.expect = dig → u.slip.st = p.afterAck) := by
  have acked : (s.mesaAcked d sum).slip = s.slip.withMesa d sum := rfl
  have same : s.SlipOnly (s.mesaAcked d sum) := rfl
  have expect : (s.slip.withMesa d sum).expect = s.slip.expect := rfl
  have lee : (s.slip.withMesa d sum).leeDigest = s.slip.leeDigest := rfl
  rw [State.slipAck_mesa]
  dsimp only
  generalize s.mesaAcked d sum = v at acked same
  generalize s.slip.withMesa d sum = p at acked expect lee
  have formed : v.digestStep.slip = { p with leeDigest := if p.mesasIn then v.formDigest else s.slip.leeDigest } ∧ v.SlipOnly v.digestStep := by
    rw [State.digestStep_eq, acked]
    split
    · exact ⟨rfl, rfl⟩
    · exact ⟨by rw [← lee, acked], rfl⟩
  generalize v.formDigest = dig at formed
  generalize v.digestStep = w at formed
  obtain ⟨slip, only⟩ := formed
  have tests : w.slip.mesasIn = p.mesasIn ∧ w.slip.expect = s.slip.expect ∧ w.slip.leeDigest = (if p.mesasIn then dig else s.slip.leeDigest) ∧ w.slip.acked = p.acked ∧ w.slip.afterAck = p.afterAck := by
    rw [slip]
    exact ⟨rfl, expect, rfl, rfl, rfl⟩
  obtain ⟨full, asked, digest, names, after⟩ := tests
  have tests_iff : (w.slip.mesasIn = true ∧ w.slip.expect ≠ 0 ∧ w.slip.expect ≠ w.slip.leeDigest) ↔ p.mesasIn = true ∧ s.slip.expect ≠ 0 ∧ s.slip.expect ≠ dig := by
    rw [full, asked, digest]
    exact and_congr_right fun full' => by rw [if_pos full']
  by_cases differs : p.mesasIn = true ∧ s.slip.expect ≠ 0 ∧ s.slip.expect ≠ dig
  · rw [if_pos (tests_iff.mpr differs)]
    obtain ⟨full', asked', differs'⟩ := differs
    obtain ⟨ended, -, -, -, stays, -⟩ := w.slipAbort_aborted 3 none
    generalize w.slipAbort 3 none = u at ended stays
    rw [ended]
    refine ⟨same.trans (only.trans stays), names, digest, fun _ _ _ => ⟨rfl, rfl⟩, fun fits => absurd fits ?_⟩
    rw [not_or, not_or, Bool.not_eq_false]
    exact ⟨full', asked', differs'⟩
  · rw [if_neg (mt tests_iff.mp differs)]
    obtain ⟨armed, stays⟩ := w.armStep_results
    generalize w.armStep = u at armed stays
    rw [armed]
    exact ⟨same.trans (only.trans stays), names, digest, fun full' asked' differs' => absurd ⟨full', asked', differs'⟩ differs, fun _ => after⟩

/-! ### The commands (R321, R322) -/

theorem exec_prepareAck_not (hv : s.at t = v) {party : Party} {id : Nat} (sum : Nat) (off : v.awaits party id = false) : exec (.prepareAck party id sum t) s = .next v := by
  subst hv
  exact congrArg Host.Outcome.next (if_pos (by rw [off]; rfl))

theorem exec_prepareNack_not (hv : s.at t = v) {party : Party} {id reason : Nat} (off : v.awaits party id = false ∨ reason = 0) : exec (.prepareNack party id reason t) s = .next v := by
  subst hv
  exact congrArg Host.Outcome.next (if_pos (off.imp (fun h => by rw [h]; rfl) fun h => h))

section
variable (hv : s.at t = v) {party : Party} {id : Nat} (on : v.awaits party id = true)
include hv on

theorem exec_prepareAck_on (sum : Nat) : exec (.prepareAck party id sum t) s = .next (match party with
    | .chip c => if v.ledgerBad c then v.slipAbort 7 (some party) else if !(v.port c).seated then v.slipAbort 0x0E (some party) else v.slipAck party sum
    | _ => if (party, 0, sum) ∈ v.slip.answers then v.slipAck party sum else v) := by
  subst hv
  exact (congrArg Host.Outcome.next (if_neg (by rw [on]; decide))).trans (by cases party <;> rfl)

theorem exec_prepareAck_bad (sum : Nat) {k : Nat} (own : party = .chip k) (bad : v.ledgerBad k = true) : exec (.prepareAck party id sum t) s = .next (v.slipAbort 7 (some party)) := by
  subst own
  exact (exec_prepareAck_on hv on sum).trans (congrArg Host.Outcome.next (if_pos bad))

theorem exec_prepareAck_unseated (sum : Nat) {k : Nat} (own : party = .chip k) (good : v.ledgerBad k = false) (out : (v.port k).seated = false) :
    exec (.prepareAck party id sum t) s = .next (v.slipAbort 0x0E (some party)) := by
  subst own
  exact (exec_prepareAck_on hv on sum).trans (congrArg Host.Outcome.next ((if_neg (by rw [good]; decide)).trans (if_pos (by rw [out]; rfl))))

theorem exec_prepareAck_unknown (sum : Nat) (not : ¬ ((∃ k, party = .chip k) ∨ (party, 0, sum) ∈ v.slip.answers)) : exec (.prepareAck party id sum t) s = .next v := by
  rw [not_or] at not
  obtain ⟨own, unknown⟩ := not
  refine (exec_prepareAck_on hv on sum).trans (congrArg Host.Outcome.next ?_)
  cases party with
  | chip k => exact absurd ⟨k, rfl⟩ own
  | tile n => exact if_neg unknown
  | mesa d => exact if_neg unknown

theorem exec_prepareAck_given (sum : Nat) (given : (∃ k, party = .chip k) ∨ (party, 0, sum) ∈ v.slip.answers) (seated : ∀ k, party = .chip k → v.ledgerBad k = false ∧ (v.port k).seated = true) :
    exec (.prepareAck party id sum t) s = .next (v.slipAck party sum) := by
  refine (exec_prepareAck_on hv on sum).trans (congrArg Host.Outcome.next ?_)
  cases party with
  | chip k =>
    obtain ⟨good, in_⟩ := seated k rfl
    exact (if_neg (by rw [good]; decide)).trans (if_neg (by rw [in_]; decide))
  | tile n => exact if_pos (given.resolve_left fun ⟨_, own⟩ => nomatch own)
  | mesa d => exact if_pos (given.resolve_left fun ⟨_, own⟩ => nomatch own)

theorem exec_prepareNack_on {reason : Nat} (owed : reason ≠ 0) : exec (.prepareNack party id reason t) s = .next (match party with
    | .chip _ => v.slipAbort reason (some party)
    | _ => if v.slip.answers.any fun a => decide (a.1 = party ∧ a.2.1 = reason) then v.slipAbort reason (some party) else v) := by
  subst hv
  exact (congrArg Host.Outcome.next (if_neg (by rw [on]; simp [owed]))).trans (by cases party <;> rfl)

theorem exec_prepareNack_given {reason : Nat} (owed : reason ≠ 0) (given : (∃ k, party = .chip k) ∨ ∃ a ∈ v.slip.answers, a.1 = party ∧ a.2.1 = reason) :
    exec (.prepareNack party id reason t) s = .next (v.slipAbort reason (some party)) := by
  have answered (own : ∀ k, party ≠ .chip k) : (v.slip.answers.any fun a => decide (a.1 = party ∧ a.2.1 = reason)) = true := by
    obtain ⟨a, here, fits⟩ := given.resolve_left fun ⟨k, is⟩ => own k is
    exact List.any_eq_true.mpr ⟨a, here, decide_eq_true fits⟩
  refine (exec_prepareNack_on hv on owed).trans (congrArg Host.Outcome.next ?_)
  cases party with
  | chip k => rfl
  | tile n => exact if_pos (answered fun k is => nomatch is)
  | mesa d => exact if_pos (answered fun k is => nomatch is)

theorem exec_prepareNack_unknown {reason : Nat} (own : ∀ k, party ≠ .chip k) (not : ∀ a ∈ v.slip.answers, a.1 = party → a.2.1 ≠ reason) : exec (.prepareNack party id reason t) s = .next v := by
  have unknown : ¬ (v.slip.answers.any fun a => decide (a.1 = party ∧ a.2.1 = reason)) = true := fun any_ => by
    obtain ⟨a, here, fits⟩ := List.any_eq_true.mp any_
    obtain ⟨named, same⟩ := of_decide_eq_true fits
    exact not a here named same
  by_cases owed : reason = 0
  · exact exec_prepareNack_not hv (.inr owed)
  refine (exec_prepareNack_on hv on owed).trans (congrArg Host.Outcome.next ?_)
  cases party with
  | chip k => exact absurd rfl (own k)
  | tile n => exact if_neg unknown
  | mesa d => exact if_neg unknown

end

/-! ### The deadline (R322) -/

theorem exec_slipPrepareTimeout_not (hv : s.at t = v) (off : v.slip.st ≠ .preparing ∨ v.time.now < v.slip.deadline) : exec (.slipPrepareTimeout t) s = .next v := by
  subst hv
  exact congrArg Host.Outcome.next (if_neg fun on => off.elim (fun st => st on.1) fun early => absurd on.2 (Nat.not_le.mpr early))

theorem exec_slipPrepareTimeout_due (hv : s.at t = v) (st : v.slip.st = .preparing) (due : v.slip.deadline ≤ v.time.now) :
    exec (.slipPrepareTimeout t) s = .next (v.slipAbort 1 (v.slip.parties.find? fun p => decide (p ∉ v.slip.acked))) := by
  subst hv
  exact congrArg Host.Outcome.next (if_pos ⟨st, due⟩)

/-! ### A chunk sent again (R458) -/

/-- The chunk of a port that waits for its REPLY. -/
def State.chunkWaits (s : State) (port : Fin 4) (chunk : Fin 32) : Option (Nat × Time × Nat) := (s.port port).chunks.find? fun c => decide (c.1 = chunk.val ∧ c.2.2 = 1)

/-- A port that has sent a chunk again. -/
def DflPort.chunkAgain (d : DflPort) (chunk : Nat) (bytes : List Byte) : DflPort :=
  { d with chunks := d.chunks.map fun (x : Nat × Time × Nat) => if x.1 = chunk then (x.1, x.2.1, 2) else x }.queueFrame { prio := 6, bytes }

theorem exec_leeChunkRetransmit (hv : s.at t = v) (port : Fin 4) (chunk : Fin 32) : exec (.leeChunkRetransmit port chunk t) s = .next (match v.chunkWaits port chunk with
    | none => v
    | some c => if v.time.now < c.2.1 + 4000 then v
      else v.setPort port ((v.port port).chunkAgain chunk (leeDataBytes (if (v.port port).reseat then v.crest else v.lee) port chunk (v.slip.id % 256)))) := by
  subst hv
  rfl

theorem exec_leeChunkRetransmit_not (hv : s.at t = v) (port : Fin 4) (chunk : Fin 32) (off : v.chunkWaits port chunk = none ∨ ∃ y, v.chunkWaits port chunk = some y ∧ v.time.now < y.2.1 + 4000) :
    exec (.leeChunkRetransmit port chunk t) s = .next v := by
  rw [exec_leeChunkRetransmit hv]
  rcases off with none_ | ⟨y, held, early⟩
  · rw [none_]
  · rw [held]
    exact congrArg Host.Outcome.next (if_pos early)

theorem DflPort.chunkAgain_results (d : DflPort) (chunk : Nat) (bytes : List Byte) : (d.chunkAgain chunk bytes).queue.length = d.queue.length + 1 ∧ ∀ c ∈ (d.chunkAgain chunk bytes).chunks, c.1 = chunk → c.2.2 = 2 := by
  refine ⟨DflPort.queueFrame_length _ _, fun c here same => ?_⟩
  obtain ⟨x, -, rfl⟩ := List.mem_map.mp here
  split at same
  · next is => rw [if_pos is]
  · next other => exact absurd same other

theorem leeChunkRetransmit_results (hv : s.at t = v) (port : Fin 4) (chunk : Fin 32) {y : Nat × Time × Nat} (held : v.chunkWaits port chunk = some y) (late : y.2.1 + 4000 ≤ v.time.now) :
    ∃ u, exec (.leeChunkRetransmit port chunk t) s = .next u ∧ (u.port port).queue.length = (v.port port).queue.length + 1 ∧
      (∀ c ∈ (u.port port).chunks, c.1 = chunk.val → c.2.2 = 2) ∧ (∀ q : Fin 4, q ≠ port → u.port q = v.port q) ∧ { u with ports := v.ports } = v := by
  have ran := exec_leeChunkRetransmit hv port chunk
  rw [held] at ran
  obtain ⟨length, sent⟩ := (v.port port).chunkAgain_results chunk (leeDataBytes (if (v.port port).reseat then v.crest else v.lee) port chunk (v.slip.id % 256))
  generalize (v.port port).chunkAgain chunk (leeDataBytes (if (v.port port).reseat then v.crest else v.lee) port chunk (v.slip.id % 256)) = d at ran length sent
  have own : (v.setPort port d).port port = d := by rw [State.port_setPort, if_pos ⟨rfl, port.isLt⟩]
  refine ⟨_, ran.trans (congrArg Host.Outcome.next (if_neg (Nat.not_lt.mpr late))), by rw [own, length], by rwa [own], fun q ne => ?_, rfl⟩
  rw [State.port_setPort, if_neg fun same => ne (Fin.ext same.1)]

end Sys2Proof.Machine
end

section
/-! SUPPORT. The first half of a slip: requests, answers, acknowledgements and aborts (12 R318 to R322, R325, R330, R331; 15 R398; 17 R458), for obligation O45. -/

namespace Sys2Proof.Machine

/-- The part of the state that no abort, request or acknowledgement changes. -/
theorem State.SlipOnly.stays {s u : State} (h : s.SlipOnly u) (kept : u.kept = s.kept) :
    u.crest = s.crest ∧ u.lee = s.lee ∧ u.loader = s.loader ∧ u.tiles = s.tiles ∧ u.jobs = s.jobs ∧ u.cycles = s.cycles ∧ u.kept = s.kept :=
  ⟨h.crest, h.lee, h.loader, h.tiles, h.jobs, h.cycles, kept⟩

/-- The first half of the obligation. -/
theorem slipPrepareResults : Sys2Proof.Claims.SlipPrepareResults := by
  intro s value party id sum reason c port chunk hits t v read next refusal stays refused opened aborted point deadline why
  have hv : s.at t = v := rfl
  have eq : v = { s with time := s.time.seenAt t } := s.at_eq t
  have replaying : v.replaying = s.replaying := s.at_replaying t
  have whyOf (busy : Bool) (p d : Nat) : refusal busy p d = slipWhy v.time.now v.replaying busy p d := by rw [replaying]; rfl
  have askedWhy : why = slipWhy v.time.now v.replaying (decide (s.slip.st ≠ .idle) || s.loading) point deadline := whyOf _ _ _
  have hostWhy := whyOf (decide (s.slip.st ≠ .idle)) (leAt c.bytes 8 8) (leAt c.bytes 0x10 8)
  have whole : v.kept = s.kept := s.at_kept t
  clear_value v
  subst eq
  have staysOf {u : State} (only : State.SlipOnly { s with time := s.time.seenAt t } u) (kept : u.kept = s.kept) : stays u := only.stays kept
  have aborts {i : Host.Outcome State Fault Refusal} {n : Nat} {p : Option Party} (keeps : OutcomeKeeps s.kept i) (ran : i = .next (State.slipAbort { s with time := s.time.seenAt t } n p)) :
      ∃ u, i = .next u ∧ aborted u n p := by
    obtain ⟨slip, flag, count, named, only, frames, answer⟩ := State.slipAbort_aborted { s with time := s.time.seenAt t } n p
    exact ⟨_, ran, slip, flag, count, named, staysOf only (keeps.next ran), frames, answer⟩
  have refuses {u : State} {n : Nat} (h : State.Refused { s with time := s.time.seenAt t } u n) (kept : u.kept = s.kept) : refused u n := by
    obtain ⟨slip, flag, only, ports⟩ := h
    exact ⟨slip, flag, staysOf only kept, ports⟩
  have opens {u : State} {p d e x : Nat} (h : State.Opened { s with time := s.time.seenAt t } u p d e x) (only : State.SlipOnly { s with time := s.time.seenAt t } u) (kept : u.kept = s.kept) :
      opened u p d e x := by
    obtain ⟨st, named, point', deadline', expect, prepared, answers, acked, committed, commitAcked, digest, tiles, mesas, chips, sent⟩ := h
    exact ⟨st, named, point', deadline', expect, prepared, answers, acked, committed, commitAcked, digest, tiles, mesas, chips, sent, staysOf only kept⟩
  refine ⟨fun off => (exec_slipPrepareWrite hv value).trans (congrArg Host.Outcome.next (if_neg (by rw [off]; decide))), fun on => ?asks, exec_slip_waits hv, ?host,
    exec_slipAbortWrite_idle hv, fun st => aborts (execSlipAbortWrite_keeps ..) (exec_slipAbortWrite_preparing hv st), exec_slipAbortWrite_late hv, exec_partyPrepare_not hv,
    fun st named among fresh => partyPrepare_results hv (by rw [not_or, not_or, not_or]; exact ⟨not_not_intro st, not_not_intro named, not_not_intro among, fresh⟩),
    fun own => ⟨?silent, ?answers⟩, exec_partyChecksumDone_chip hv (id := id) (hits := hits), fun off => ⟨exec_prepareAck_not hv sum off, exec_prepareNack_not hv (.inl off)⟩, ?acks,
    exec_slipPrepareTimeout_not hv, fun st due => aborts (execSlipPrepareTimeout_keeps ..) (exec_slipPrepareTimeout_due hv st due), exec_leeChunkRetransmit_not hv port chunk,
    fun y held late => leeChunkRetransmit_results hv port chunk held late⟩
  case asks =>
    rw [askedWhy]
    obtain ⟨u, ran, refused', opened'⟩ := slipPrepareWrite_results hv value on
    have kept := (execSlipPrepareWrite_keeps ..).next ran
    exact ⟨u, ran, fun ne => refuses (refused' ne) kept, fun zero => opens (opened' zero).1 (opened' zero).2 kept⟩
  case host =>
    intro current op
    dsimp only
    rw [hostWhy]
    obtain ⟨u, ran, free, refused', opened'⟩ := slip_results hv current op
    have kept := (execSlip_keeps ..).next ran
    refine ⟨u, ran, free, fun ne => ⟨refuses (refused' ne).1 kept, (refused' ne).2⟩, fun zero => ?_⟩
    obtain ⟨⟨all, only⟩, command, done⟩ := opened' zero
    exact ⟨opens all only kept, command, done⟩
  case silent =>
    exact fun off => exec_partyChecksumDone_not hv own id hits ((State.answersNot_iff _ _ _).mpr off)
  case answers =>
    intro st named begun fresh awake
    have on : ¬ State.answersNot { s with time := s.time.seenAt t } party id := by
      rw [State.answersNot_iff, not_or, not_or, not_or, not_or, not_exists]
      exact ⟨not_not_intro st, not_not_intro named, not_not_intro begun, fun a ⟨here, same⟩ => fresh a here same, by rw [Bool.not_eq_false]; exact awake⟩
    have ran := exec_partyChecksumDone_own hv own id hits on
    have kept := (execPartyChecksumDone_keeps ..).next ran
    have found := State.leeReads_leeRead { s with time := s.time.seenAt t } hits party
    have clean : hits = [] → read = { s with time := s.time.seenAt t } := by
      rintro rfl
      exact State.leeReads_nil _ party
    have nacks (d : Nat) := read.partyNack_mesa d
    change exec (.partyChecksumDone party id hits t) s = .next (read.answerNoted party (read.partyNack party) (read.partySum party)) at ran
    obtain ⟨slip, -, regs⟩ := read.answerNoted_results party (read.partyNack party) (read.partySum party)
    obtain ⟨tiles, still⟩ := read.answerNoted_still party (read.partyNack party) (read.partySum party)
    obtain ⟨crest, lee, loader, jobs, cycles, -⟩ := (found.trans still).still
    have before : read.slip = s.slip := (congrArg State.slip found :)
    rw [before] at slip
    refine ⟨_, _, _, ran, slip, clean, tiles, ⟨crest, lee, loader, rfl, jobs, cycles, kept⟩, fun n is => ?_, fun d is => ?_⟩
    · subst is
      exact State.tile_answer { s with time := s.time.seenAt t } hits n
    · subst is
      exact ⟨State.mesa_sum { s with time := s.time.seenAt t } hits d, regs d rfl, nacks d⟩
  case acks =>
    intro on given all
    have st : s.slip.st = .preparing := (of_decide_eq_true (Bool.and_eq_true_iff.mp on).1).1
    have ackKeeps := execPrepareAck_keeps party id sum t s
    refine ⟨fun k own bad => aborts ackKeeps (exec_prepareAck_bad hv on sum own bad), fun k own good out => aborts ackKeeps (exec_prepareAck_unseated hv on sum own good out), exec_prepareAck_unknown hv on sum,
      fun has seated wrong => aborts ackKeeps ((exec_prepareAck_given hv on sum has seated).trans (congrArg Host.Outcome.next (State.slipAck_wrong _ wrong))), ?plain, ?mesa,
      fun none_ => exec_prepareNack_not hv (.inr none_), fun owed has => aborts (execPrepareNack_keeps ..) (exec_prepareNack_given hv on owed has), exec_prepareNack_unknown hv on⟩
    case plain =>
      intro has seated fits other
      have ran := (exec_prepareAck_given hv on sum has seated).trans (congrArg Host.Outcome.next (State.slipAck_plain _ fits other))
      obtain ⟨slip, only⟩ := State.armStep_results { s with time := s.time.seenAt t, slip := s.slip.withAck party }
      refine ⟨_, ran, staysOf ((show State.SlipOnly { s with time := s.time.seenAt t } { s with time := s.time.seenAt t, slip := s.slip.withAck party } from rfl).trans only) (ackKeeps.next ran), slip.trans ?_⟩
      rw [Slip.afterAck, ← st]
      rfl
    case mesa =>
      intro d is has
      subst is
      have ran := exec_prepareAck_given hv on sum has fun k own => nomatch own
      obtain ⟨only, acked, digest, differs, fits⟩ := State.slipAck_mesa_results { s with time := s.time.seenAt t } d sum
      refine ⟨_, ran, staysOf only (ackKeeps.next ran), acked, digest, differs, fun h => (fits h).trans ?_⟩
      rw [Slip.afterAck, ← st]
      rfl

end Sys2Proof.Machine
end

section
/-! SUPPORT. COMMIT, its acknowledgements, the arm deadline, an aborted party and reclaimed jobs (12 R133, R319, R323, R325, R326), for obligation O45. -/

namespace Sys2Proof.Machine

variable {s v u w : State} {t : Time}

/-! ### COMMIT (R323) -/

/-- The party has stored the digest. -/
def State.partyStored (s : State) (party : Party) : State := { s with slip := { s.slip with committed := (party :: s.slip.committed).eraseDups } }

theorem exec_partyCommit_not (hv : s.at t = v) {party : Party} {id : Nat} (off : v.slip.st ≠ .arming ∨ v.slip.id ≠ id ∨ party ∉ v.slip.parties ∨ ∃ k, party = .chip k) :
    exec (.partyCommit party id t) s = .next v := by
  subst hv
  by_cases shut : (s.at t).slip.st ≠ .arming ∨ (s.at t).slip.id ≠ id ∨ party ∉ (s.at t).slip.parties
  · exact congrArg Host.Outcome.next (if_pos shut)
  · rw [← or_assoc, ← or_assoc, or_assoc (a := (s.at t).slip.st ≠ .arming)] at off
    obtain ⟨k, rfl⟩ := off.resolve_left shut
    exact congrArg Host.Outcome.next (if_neg shut)

section
variable (hv : s.at t = v) {party : Party} {id : Nat} (st : v.slip.st = .arming) (named : v.slip.id = id) (among : party ∈ v.slip.parties)
include st named among

theorem slip_open : ¬ (v.slip.st ≠ .arming ∨ v.slip.id ≠ id ∨ party ∉ v.slip.parties) := by
  rw [not_or, not_or]
  exact ⟨not_not_intro st, not_not_intro named, not_not_intro among⟩

include hv

theorem exec_partyCommit_mesa {d : Nat} (own : party = .mesa d) : exec (.partyCommit party id t) s = .next (v.partyStored party) := by
  subst hv own
  exact congrArg Host.Outcome.next (if_neg (slip_open st named among))

theorem exec_partyCommit_tile {n : Nat} (own : party = .tile n) : exec (.partyCommit party id t) s = .next
    ((v.partyStored party).modHalf n (v.leeHalf n) fun b => { b with digest := v.slip.leeDigest }) := by
  subst hv own
  exact congrArg Host.Outcome.next (if_neg (slip_open st named among))

end

theorem State.partyStored_mem (s : State) (party : Party) : party ∈ (s.partyStored party).slip.committed ∧ ∀ q ∈ s.slip.committed, q ∈ (s.partyStored party).slip.committed :=
  ⟨List.mem_eraseDups.mpr List.mem_cons_self, fun _ here => List.mem_eraseDups.mpr (List.mem_cons_of_mem _ here)⟩

/-- The lee half is not the crest half. -/
theorem State.halves_differ (s : State) (n : Nat) : s.leeHalf n = 0 ↔ s.crestHalf n ≠ 0 := by
  have small := s.crestHalf_lt n
  rw [State.leeHalf]
  omega

/-- A change of a tile's lee half changes no crest half. -/
theorem State.modHalf_halves (s : State) (n : Nat) (f : TileBank → TileBank) : ((s.modHalf n (s.leeHalf n) f).tile n).half (s.leeHalf n) = f ((s.tile n).half (s.leeHalf n)) ∧
    ((s.modHalf n (s.leeHalf n) f).tile n).half (s.crestHalf n) = (s.tile n).half (s.crestHalf n) ∧ ∀ m, m ≠ n → (s.modHalf n (s.leeHalf n) f).tile m = s.tile m := by
  unfold State.modHalf
  refine ⟨?_, ?_, fun m ne => (s.tile_modTile n m _).trans (if_neg ne)⟩
  · rw [State.tile_modTile_same, Tile.half_setHalf]
  · rw [State.tile_modTile_same, Tile.half_setHalf_other _ _ _ _ (s.halves_differ n)]

/-! ### Acknowledgements of COMMIT (R319) -/

/-- A party that may acknowledge COMMIT. -/
def State.storedBy (s : State) (party : Party) : Bool := match party with | .chip _ => true | _ => decide (party ∈ s.slip.committed)

theorem State.storedBy_iff (s : State) (party : Party) : s.storedBy party = true ↔ (∃ k, party = .chip k) ∨ party ∈ s.slip.committed := by
  cases party with
  | chip k => exact ⟨fun _ => .inl ⟨k, rfl⟩, fun _ => rfl⟩
  | tile n => exact decide_eq_true_iff.trans ⟨.inr, fun h => h.resolve_left fun ⟨_, is⟩ => nomatch is⟩
  | mesa d => exact decide_eq_true_iff.trans ⟨.inr, fun h => h.resolve_left fun ⟨_, is⟩ => nomatch is⟩

/-- An acknowledged COMMIT, and ARMED after the last one. -/
def State.commitAcked (s : State) (party : Party) : State := { s with slip := { s.slip with commitAcked := (party :: s.slip.commitAcked).eraseDups } }
def State.armed (s : State) : State := if s.slip.parties.all fun p => decide (p ∈ s.slip.commitAcked) then { s with slip := { s.slip with st := .armed } } else s

theorem exec_commitAckReceive (hv : s.at t = v) (party : Party) (id : Nat) : exec (.commitAckReceive party id t) s = .next
    (if v.slip.st ≠ .arming ∨ v.slip.id ≠ id ∨ party ∉ v.slip.parties ∨ !v.storedBy party then v else (v.commitAcked party).armed) := by
  subst hv
  cases party <;> rfl

theorem State.armed_results (s : State) : { s.armed with slip := s.slip } = s ∧ s.armed.slip.commitAcked = s.slip.commitAcked ∧
    s.armed.slip.st = if s.slip.parties.all fun p => decide (p ∈ s.slip.commitAcked) then .armed else s.slip.st := by
  unfold State.armed
  split
  · exact ⟨rfl, rfl, rfl⟩
  · exact ⟨rfl, rfl, rfl⟩

theorem commitAckReceive_results (hv : s.at t = v) {party : Party} {id : Nat} (st : v.slip.st = .arming) (named : v.slip.id = id) (among : party ∈ v.slip.parties) (known : v.storedBy party = true) :
    ∃ u, exec (.commitAckReceive party id t) s = .next u ∧ { u with slip := v.slip } = v ∧ (∀ q, q ∈ u.slip.commitAcked ↔ q = party ∨ q ∈ v.slip.commitAcked) ∧
      ((∀ q ∈ v.slip.parties, q = party ∨ q ∈ v.slip.commitAcked) → u.slip.st = .armed) ∧ ((∃ q ∈ v.slip.parties, q ≠ party ∧ q ∉ v.slip.commitAcked) → u.slip.st = .arming) := by
  have on : ¬ (v.slip.st ≠ .arming ∨ v.slip.id ≠ id ∨ party ∉ v.slip.parties ∨ !v.storedBy party) := by
    rw [← or_assoc, ← or_assoc, or_assoc (a := v.slip.st ≠ .arming), not_or]
    exact ⟨slip_open st named among, by rw [known]; decide⟩
  have still : { v.commitAcked party with slip := v.slip } = v := rfl
  have parties : (v.commitAcked party).slip.parties = v.slip.parties := rfl
  have st' : (v.commitAcked party).slip.st = .arming := st
  have acked (q : Party) : q ∈ (v.commitAcked party).slip.commitAcked ↔ q = party ∨ q ∈ v.slip.commitAcked := List.mem_eraseDups.trans List.mem_cons
  have ran := (exec_commitAckReceive hv party id).trans (congrArg Host.Outcome.next (if_neg on))
  generalize v.commitAcked party = w at ran still parties st' acked
  obtain ⟨only, names, at_⟩ := w.armed_results
  generalize w.armed = u at ran only names at_
  rw [parties] at at_
  refine ⟨u, ran, (congrArg (fun x : State => { x with slip := v.slip }) only :).trans still, fun q => names ▸ acked q, fun full => at_.trans (if_pos ?_), fun ⟨q, here, other, open_⟩ => at_.trans ((if_neg ?_).trans st')⟩
  · exact List.all_eq_true.mpr fun q here => decide_eq_true ((acked q).mpr (full q here))
  · exact fun full => (of_decide_eq_true (List.all_eq_true.mp full q here) |> (acked q).mp).elim other open_

/-! ### The arm deadline, and an aborted party (R319, R325) -/

theorem exec_slipArmTimeout_not (hv : s.at t = v) (off : v.slip.st ≠ .arming ∨ v.time.now + 40000 < v.slip.point) : exec (.slipArmTimeout t) s = .next v := by
  subst hv
  exact congrArg Host.Outcome.next (if_neg fun on => off.elim (fun st => st on.1) fun early => absurd on.2 (Nat.not_le.mpr early))

theorem exec_slipArmTimeout_due (hv : s.at t = v) (st : v.slip.st = .arming) (due : v.slip.point ≤ v.time.now + 40000) :
    exec (.slipArmTimeout t) s = .next (v.slipAbort 9 (v.slip.parties.find? fun p => decide (p ∉ v.slip.commitAcked))) := by
  subst hv
  exact congrArg Host.Outcome.next (if_pos ⟨st, due⟩)

/-- A party forgets the prepare. -/
def State.partyForgets (s : State) (party : Party) : State :=
  { s with slip := { s.slip with
    prepared := s.slip.prepared.filter fun p => decide (p ≠ party)
    answers := s.slip.answers.filter fun a => decide (a.1 ≠ party)
    committed := s.slip.committed.filter fun p => decide (p ≠ party) } }

theorem exec_partyAbort (hv : s.at t = v) (party : Party) (id : Nat) : exec (.partyAbort party id t) s = .next (if v.slip.st ≠ .idle ∨ v.slip.id ≠ id then v else v.partyForgets party) := by
  subst hv
  rfl

theorem State.partyForgets_results (s : State) (party : Party) : { s.partyForgets party with slip := s.slip } = s ∧ (∀ q, q ∈ (s.partyForgets party).slip.prepared ↔ q ∈ s.slip.prepared ∧ q ≠ party) ∧
    (∀ a, a ∈ (s.partyForgets party).slip.answers ↔ a ∈ s.slip.answers ∧ a.1 ≠ party) ∧ ∀ q, q ∈ (s.partyForgets party).slip.committed ↔ q ∈ s.slip.committed ∧ q ≠ party :=
  ⟨rfl, fun _ => List.mem_filter.trans (and_congr_right fun _ => decide_eq_true_iff), fun _ => List.mem_filter.trans (and_congr_right fun _ => decide_eq_true_iff),
    fun _ => List.mem_filter.trans (and_congr_right fun _ => decide_eq_true_iff)⟩

/-! ### Reclaimed jobs (R133, R326) -/

/-- The tiles' flags of a reclaimed bank. -/
def State.reclaimFlags (s : State) (tiles : List Nat) : State := tiles.foldl (fun s t => s.tileFlag t 6) s

theorem State.reclaim_eq (s : State) (id : JobId) (tiles : List Nat) (unit : Nat) : s.reclaim id tiles unit = (s.reclaimFlags tiles).stopJob id 0x0A 0 0 unit := rfl

theorem State.tileFlag_reported (s : State) (n b : Nat) : s.Reported (s.tileFlag n b) := (s.reported_setFlag _ _).trans (State.reported_countByte _ _ _)

theorem State.reclaimFlags_reported (s : State) (tiles : List Nat) : s.Reported (s.reclaimFlags tiles) := State.reported_foldl _ (fun s n => s.tileFlag_reported n 6) tiles s

theorem State.reclaim_job (s : State) {id : JobId} {j : Job} (here : s.job id = some j) (runs : j.stopped = none) (tiles : j.running ≠ []) (l : List Nat) (unit : Nat) :
    ∃ j', (s.reclaim id l unit).job id = some j' ∧ j'.stopped = some 0x0A ∧ j'.running = [] := by
  rw [State.reclaim_eq]
  exact ⟨_, State.stopJob_job _ ((State.job_of_jobs (s.reclaimFlags_reported l).jobs id).trans here) runs tiles _ _ _ _, rfl, rfl⟩

theorem State.reclaim_other (s : State) {id id' : JobId} (other : id' ≠ id) (l : List Nat) (unit : Nat) : (s.reclaim id' l unit).job id = s.job id := by
  rw [State.reclaim_eq, State.stopJob_job_other _ _ _ _ _ _ other, State.job_of_jobs (s.reclaimFlags_reported l).jobs]

theorem State.reclaim_stopped (s : State) {id : JobId} {j : Job} (here : s.job id = some j) (over_ : j.stopped ≠ none) (id' : JobId) (l : List Nat) (unit : Nat) : (s.reclaim id' l unit).job id = some j := by
  rw [State.reclaim_eq]
  exact State.stopJob_stopped _ ((State.job_of_jobs (s.reclaimFlags_reported l).jobs id).trans here) over_ _ _ _ _ _

/-- Not-admitted jobs that hold a tile's half, each reclaimed. -/
def State.reclaimEach (s : State) (l : List Job) (n : Nat) : State := l.foldl (fun s j => s.reclaim j.id [n] n) s

theorem State.reclaimEach_stopped (s : State) (l : List Job) (n : Nat) {id : JobId} {j : Job} (here : s.job id = some j) (over_ : j.stopped ≠ none) : (s.reclaimEach l n).job id = some j := by
  induction l generalizing s with
  | nil => exact here
  | cons x l ih => exact ih _ (s.reclaim_stopped here over_ x.id [n] n)

theorem State.reclaimEach_job (s : State) (l : List Job) (n : Nat) {id : JobId} {j : Job} (here : s.job id = some j) (runs : j.stopped = none) (tiles : j.running ≠ []) (named : ∃ x ∈ l, x.id = id) :
    ∃ j', (s.reclaimEach l n).job id = some j' ∧ j'.stopped = some 0x0A ∧ j'.running = [] := by
  induction l generalizing s with
  | nil => simp at named
  | cons x l ih =>
    by_cases same : x.id = id
    · obtain ⟨j', stop, reason, idle⟩ := s.reclaim_job here runs tiles [n] n
      rw [← same] at stop ⊢
      exact ⟨j', State.reclaimEach_stopped _ l n stop (by rw [reason]; exact nofun), reason, idle⟩
    · refine ih (s.reclaim x.id [n] n) ((s.reclaim_other same [n] n).trans here) ?_
      obtain ⟨y, at_, name⟩ := named
      exact ⟨y, (List.mem_cons.mp at_).resolve_left fun e => same (e ▸ name), name⟩

theorem exec_slipReclaimTimeout_none (hv : s.at t = v) {job : JobId} (none_ : v.job job = none ∨ v.slip.lastPoint = none) : exec (.slipReclaimTimeout job t) s = .next v := by
  subst hv
  show Host.Outcome.next (match (s.at t).job job, (s.at t).slip.lastPoint with | some j, some p => _ | _, _ => _) = _
  rcases none_ with h | h
  · rw [h]
  · rw [h]
    cases (s.at t).job job <;> rfl

theorem exec_slipReclaimTimeout_some (hv : s.at t = v) {job : JobId} {j : Job} {p : Time} (here : v.job job = some j) (point : v.slip.lastPoint = some p) : exec (.slipReclaimTimeout job t) s = .next
    (if !j.admitted ∧ j.before p ∧ j.running ≠ [] ∧ p + 1000000 ≤ v.time.now then v.reclaim job j.running j.die else v) := by
  subst hv
  show Host.Outcome.next (match (s.at t).job job, (s.at t).slip.lastPoint with | some j, some p => _ | _, _ => _) = _
  rw [here, point]

/-! ### A mesa die's retired bank (R326) -/

theorem exec_mesaBankRetireEnd_none (hv : s.at t = v) {die : Fin 2} (none_ : v.old[die] = none ∨ v.slip.lastPoint = none) : exec (.mesaBankRetireEnd die t) s = .next v := by
  subst hv
  show Host.Outcome.next (match (s.at t).old[die], (s.at t).slip.lastPoint with | some _, some p => _ | _, _ => _) = _
  rcases none_ with h | h
  · rw [h]
  · rw [h]
    cases (s.at t).old[die] <;> rfl

theorem exec_mesaBankRetireEnd_some (hv : s.at t = v) {die : Fin 2} {p : Time} (held : v.old[die] ≠ none) (point : v.slip.lastPoint = some p) : exec (.mesaBankRetireEnd die t) s = .next
    (if v.mesaHeld die p then v else { v with old := v.old.set die none, oldBad := notBank die v.oldBad, refreshing := v.refreshing.set die true }) := by
  subst hv
  obtain ⟨x, bank⟩ := Option.ne_none_iff_exists'.mp held
  show Host.Outcome.next (match (s.at t).old[die], (s.at t).slip.lastPoint with | some _, some p => _ | _, _ => _) = _
  rw [bank, point]

end Sys2Proof.Machine
end

section
/-! SUPPORT. The slip point: what every party makes of its banks, and the chips that are unseated (12 R324, R326, R328, R329), for obligation O45. -/

namespace Sys2Proof.Machine

variable {s v u w : State} {t : Time}

/-! ### A tile at the slip point (R324) -/

/-- TILE_STS of the lee half at a slip point. -/
def slipWord (w : Word) : Word :=
  let w := setFld w 31 16 ((fld w 31 16 + 1) % 65536)
  setFld (setFld w 0 0 (1 - fld w 0 0)) 1 1 1

theorem slipWord_fields (w : Word) : fld (slipWord w) 0 0 = 1 - fld w 0 0 ∧ (slipWord w).getLsbD 1 = true ∧ fld (slipWord w) 31 16 = (fld w 31 16 + 1) % 65536 := by
  unfold slipWord
  dsimp only
  refine ⟨?_, ?_, ?_⟩
  · rw [fld_setFld_other _ _ _ _ _ _ (by decide) (by decide), fld_setFld _ _ _ _ (by decide) (by decide), fld_setFld_other _ _ _ _ _ _ (by decide) (by decide)]
    exact Nat.mod_eq_of_lt (by omega)
  · rw [getLsbD_setFld _ _ _ _ _ (by decide), if_pos (by decide)]
    decide
  · rw [fld_setFld_other _ _ _ _ _ _ (by decide) (by decide), fld_setFld_other _ _ _ _ _ _ (by decide) (by decide), fld_setFld _ _ _ _ (by decide) (by decide)]
    exact Nat.mod_eq_of_lt (by omega)

theorem pairVal_loWord_hiWord (v : Nat) (small : v < 2 ^ 64) : pairVal (loWord v) (hiWord v) = v := by
  unfold pairVal loWord hiWord
  rw [BitVec.toNat_ofNat, BitVec.toNat_ofNat]
  omega

theorem State.getPair_lt (s : State) (a : Nat) : s.getPair a < 2 ^ 64 := by
  have lo := (s.reg a).isLt
  have hi := (s.reg (a + 4)).isLt
  unfold State.getPair pairVal
  omega

theorem State.getPair_of_reg {a : Nat} (lo : u.reg a = s.reg a) (hi : u.reg (a + 4) = s.reg (a + 4)) : u.getPair a = s.getPair a := by rw [State.getPair, lo, hi, State.getPair]

theorem State.setPair_reg_ne (s : State) (a v x : Nat) (lo : x ≠ a) (hi : x ≠ a + 4) : (s.setPair a v).reg x = s.reg x := (State.reg_setReg_ne _ _ _ _ hi).trans (s.reg_setReg_ne _ _ _ lo)

theorem State.getPair_setPair (s : State) (a v : Nat) (small : v < 2 ^ 64) : (s.setPair a v).getPair a = v := by
  unfold State.getPair State.setPair
  rw [State.reg_setReg_ne _ _ _ _ (by omega), State.reg_setReg_same, State.reg_setReg_same]
  exact pairVal_loWord_hiWord v small

theorem State.setReg_frame (s : State) (a : Nat) (v : Word) : { s.setReg a v with regs := s.regs } = s := rfl
theorem State.setPair_frame (s : State) (a v : Nat) : { s.setPair a v with regs := s.regs } = s := rfl

/-- What a slip point reads and changes of a tile. -/
def State.TileStill (s u : State) (n : Nat) : Prop :=
  u.tile n = s.tile n ∧ u.reg (tileBase n + 8) = s.reg (tileBase n + 8) ∧ u.getPair (tileBase n + 0x40) = s.getPair (tileBase n + 0x40) ∧ u.getPair (tileBase n + 0x48) = s.getPair (tileBase n + 0x48)

/-- What a slip point makes of a tile. -/
def State.TileSlipped (s u : State) (n : Nat) : Prop :=
  u.tile n = { s.tile n with retiring := some s.slip.point } ∧ u.reg (tileBase n + 8) = slipWord (s.reg (tileBase n + 8)) ∧ u.getPair (tileBase n + 0x48) = s.getPair (tileBase n + 0x40)

/-- `u` is `s` but for the words, tiles and retiring banks of a slip point. -/
def State.PointOnly (s u : State) : Prop := { u with regs := s.regs, tiles := s.tiles, old := s.old, oldBad := s.oldBad, ingress := s.ingress } = s

theorem State.PointOnly.trans (h : s.PointOnly u) (h' : u.PointOnly w) : s.PointOnly w :=
  (congrArg (fun x : State => { x with regs := s.regs, tiles := s.tiles, old := s.old, oldBad := s.oldBad, ingress := s.ingress }) h' :).trans h

/-- A tile at the slip point, its window at `a`: its word, its crest's checksum, its retiring half. -/
def State.wordSlips (s : State) (a : Nat) : State := s.setReg (a + 8) (slipWord (s.reg (a + 8)))
def State.sumSlips (s : State) (a : Nat) : State := s.setPair (a + 0x48) (s.getPair (a + 0x40))
def State.halfRetires (s : State) (n : Nat) : State := s.modTile n fun x => { x with retiring := some s.slip.point }
def State.slipsAt (s : State) (a n : Nat) : State := ((s.wordSlips a).sumSlips a).halfRetires n

theorem State.tileSlips_eq (s : State) (n : Nat) : s.tileSlips n = s.slipsAt (tileBase n) n := by
  unfold State.tileSlips State.slipsAt State.halfRetires State.sumSlips State.wordSlips slipWord
  rfl

theorem State.wordSlips_own (s : State) (a : Nat) : (s.wordSlips a).reg (a + 8) = slipWord (s.reg (a + 8)) := by rw [State.wordSlips, State.reg_setReg_same]
theorem State.wordSlips_other (s : State) (a x : Nat) (ne : x ≠ a + 8) : (s.wordSlips a).reg x = s.reg x := by rw [State.wordSlips, State.reg_setReg_ne _ _ _ _ ne]
theorem State.wordSlips_sum (s : State) (a : Nat) : (s.wordSlips a).getPair (a + 0x40) = s.getPair (a + 0x40) :=
  State.getPair_of_reg (s.wordSlips_other a _ (by omega)) (s.wordSlips_other a _ (by omega))
theorem State.sumSlips_pair (s : State) (a : Nat) : (s.sumSlips a).getPair (a + 0x48) = s.getPair (a + 0x40) := by rw [State.sumSlips, State.getPair_setPair _ _ _ (s.getPair_lt _)]
theorem State.sumSlips_other (s : State) (a x : Nat) (lo : x ≠ a + 0x48) (hi : x ≠ a + 0x48 + 4) : (s.sumSlips a).reg x = s.reg x := by rw [State.sumSlips, State.setPair_reg_ne _ _ _ x lo hi]
theorem State.halfRetires_reg (s : State) (n x : Nat) : (s.halfRetires n).reg x = s.reg x := rfl
theorem State.halfRetires_pair (s : State) (n x : Nat) : (s.halfRetires n).getPair x = s.getPair x := rfl

theorem State.slipsAt_word (s : State) (a n : Nat) : (s.slipsAt a n).reg (a + 8) = slipWord (s.reg (a + 8)) := by
  rw [State.slipsAt, State.halfRetires_reg, State.sumSlips_other _ _ _ (by omega) (by omega), State.wordSlips_own]

theorem State.slipsAt_pair (s : State) (a n : Nat) : (s.slipsAt a n).getPair (a + 0x48) = s.getPair (a + 0x40) := by
  rw [State.slipsAt, State.halfRetires_pair, State.sumSlips_pair, State.wordSlips_sum]

theorem State.slipsAt_other (s : State) (a n x : Nat) (sts : x ≠ a + 8) (lo : x ≠ a + 0x48) (hi : x ≠ a + 0x48 + 4) : (s.slipsAt a n).reg x = s.reg x := by
  rw [State.slipsAt, State.halfRetires_reg, State.sumSlips_other _ _ _ lo hi, State.wordSlips_other _ _ _ sts]

theorem State.PointOnly.of_regs (h : { u with regs := s.regs } = s) : s.PointOnly u := (congrArg (fun x : State => { x with tiles := s.tiles, old := s.old, oldBad := s.oldBad, ingress := s.ingress }) h :)

/-- Register words alone. -/
theorem regsOnly_trans (h : { u with regs := s.regs } = s) (h' : { w with regs := u.regs } = u) : { w with regs := s.regs } = s := (congrArg (fun x : State => { x with regs := s.regs }) h' :).trans h

theorem State.sumSlips_frame (s : State) (a : Nat) : { (s.wordSlips a).sumSlips a with regs := s.regs } = s := by
  refine regsOnly_trans (u := s.wordSlips a) ?_ ?_
  · rw [State.wordSlips, State.setReg_frame]
  · rw [State.sumSlips, State.setPair_frame]

theorem State.halfRetires_results (only : { w with regs := s.regs } = s) (n : Nat) : (w.halfRetires n).tile n = { s.tile n with retiring := some s.slip.point } ∧
    (∀ m, m ≠ n → (w.halfRetires n).tile m = s.tile m) ∧ s.PointOnly (w.halfRetires n) ∧ (w.halfRetires n).old = s.old := by
  have tiles (k : Nat) : w.tile k = s.tile k := (congrArg (fun x : State => x.tile k) only :)
  have point : w.slip = s.slip := (congrArg State.slip only :)
  have half : w.PointOnly (w.halfRetires n) := rfl
  refine ⟨?_, fun m ne => (State.tile_modTile _ _ _ _).trans ((if_neg ne).trans (tiles m)), (State.PointOnly.of_regs only).trans half, (congrArg State.old only :)⟩
  rw [State.halfRetires, State.tile_modTile_same, tiles, point]

theorem State.slipsAt_tile (s : State) (a n : Nat) : (s.slipsAt a n).tile n = { s.tile n with retiring := some s.slip.point } ∧ (∀ m, m ≠ n → (s.slipsAt a n).tile m = s.tile m) ∧
    s.PointOnly (s.slipsAt a n) ∧ (s.slipsAt a n).old = s.old := State.halfRetires_results (s.sumSlips_frame a) n

theorem State.tileSlips_results (s : State) (n : Nat) : s.TileSlipped (s.tileSlips n) n ∧ (∀ m, m ≠ n → s.TileStill (s.tileSlips n) m) ∧ s.PointOnly (s.tileSlips n) ∧ (s.tileSlips n).old = s.old := by
  rw [State.tileSlips_eq]
  have sts := s.slipsAt_word (tileBase n) n
  have crest := s.slipsAt_pair (tileBase n) n
  have words := s.slipsAt_other (tileBase n) n
  obtain ⟨tile, others, only, old⟩ := s.slipsAt_tile (tileBase n) n
  generalize s.slipsAt (tileBase n) n = u at *
  refine ⟨⟨tile, sts, crest⟩, fun m ne => ?_, only, old⟩
  have far : tileBase m + 0x1000 ≤ tileBase n ∨ tileBase n + 0x1000 ≤ tileBase m := by unfold tileBase; omega
  have word (x : Nat) (lo : tileBase m ≤ x) (hi : x < tileBase m + 0x1000) : u.reg x = s.reg x := words x (by omega) (by omega) (by omega)
  exact ⟨others m ne, word _ (by omega) (by omega), State.getPair_of_reg (word _ (by omega) (by omega)) (word _ (by omega) (by omega)), State.getPair_of_reg (word _ (by omega) (by omega)) (word _ (by omega) (by omega))⟩

/-! ### A mesa die at the slip point -/

theorem State.mesaSlips_results (s : State) (d : Nat) : s.PointOnly (s.mesaSlips d) ∧ (∀ n, s.TileStill (s.mesaSlips d) n) ∧ (s.mesaSlips d).old = s.old.setIfInBounds d (some (mesaBank d s.crest)) :=
  ⟨rfl, fun _ => ⟨rfl, rfl, rfl, rfl⟩, rfl⟩

/-! ### Every party (R324, R329) -/

/-- A party at the slip point. -/
def State.partySlips (s : State) (p : Party) : State := match p with | .tile n => s.tileSlips n | .mesa d => s.mesaSlips d | .chip _ => s

theorem State.partySlips_pointOnly (s : State) (p : Party) : s.PointOnly (s.partySlips p) := by
  cases p with
  | tile n => exact (s.tileSlips_results n).2.2.1
  | mesa d => exact (s.mesaSlips_results d).1
  | chip k => rfl

theorem State.partySlips_still (s : State) (p : Party) (n : Nat) (other : p ≠ .tile n) : s.TileStill (s.partySlips p) n := by
  cases p with
  | tile m => exact (s.tileSlips_results m).2.1 n fun same => other (same ▸ rfl)
  | mesa d => exact (s.mesaSlips_results d).2.1 n
  | chip k => exact ⟨rfl, rfl, rfl, rfl⟩

theorem State.partySlips_old (s : State) (p : Party) (d : Fin 2) : (s.partySlips p).old[d] = if p = .mesa d then some (mesaBank d s.crest) else s.old[d] := by
  cases p with
  | tile n => exact (congrArg (fun o : Vector (Option (SMap Word)) 2 => o[d]) (s.tileSlips_results n).2.2.2).trans (if_neg nofun).symm
  | mesa k =>
    refine (congrArg (fun o : Vector (Option (SMap Word)) 2 => o[d]) (s.mesaSlips_results k).2.2).trans ((Vector.getElem_setIfInBounds ..).trans ?_)
    by_cases same : k = d
    · rw [if_pos same, if_pos (congrArg Party.mesa same), same]
    · rw [if_neg same, if_neg fun e => same (Party.mesa.inj e)]
      rfl
  | chip k => exact (if_neg nofun).symm

/-- The parties at the slip point, one after the other. -/
def State.partiesSlip (s : State) (l : List Party) : State := l.foldl State.partySlips s

theorem State.partiesSlip_cons (s : State) (p : Party) (l : List Party) : s.partiesSlip (p :: l) = (s.partySlips p).partiesSlip l := by
  unfold State.partiesSlip
  rw [List.foldl_cons]

theorem State.partiesSlip_pointOnly (s : State) (l : List Party) : s.PointOnly (s.partiesSlip l) := by
  induction l generalizing s with
  | nil => rfl
  | cons p l ih => exact (s.partySlips_pointOnly p).trans (ih _)

theorem State.TileStill.trans {n : Nat} (h : s.TileStill u n) (h' : u.TileStill w n) : s.TileStill w n := by
  obtain ⟨tile, sts, sum, crest⟩ := h
  obtain ⟨tile', sts', sum', crest'⟩ := h'
  exact ⟨tile'.trans tile, sts'.trans sts, sum'.trans sum, crest'.trans crest⟩

theorem State.TileSlipped.still {n : Nat} (h : s.TileSlipped u n) (h' : u.TileStill w n) : s.TileSlipped w n := by
  obtain ⟨tile, sts, crest⟩ := h
  obtain ⟨tile', sts', -, crest'⟩ := h'
  exact ⟨tile'.trans tile, sts'.trans sts, crest'.trans crest⟩

theorem State.partiesSlip_still (s : State) (l : List Party) (n : Nat) (out : .tile n ∉ l) : s.TileStill (s.partiesSlip l) n := by
  induction l generalizing s with
  | nil => exact ⟨rfl, rfl, rfl, rfl⟩
  | cons p l ih =>
    rw [List.mem_cons, not_or] at out
    exact (s.partySlips_still p n fun same => out.1 same.symm).trans (ih _ out.2)

theorem State.partiesSlip_tile (s : State) (l : List Party) (n : Nat) (once : l.Nodup) (among : .tile n ∈ l) : s.TileSlipped (s.partiesSlip l) n := by
  induction l generalizing s with
  | nil => cases among
  | cons p l ih =>
    obtain ⟨first, rest⟩ := List.nodup_cons.mp once
    by_cases here : p = .tile n
    · subst here
      have own : s.TileSlipped (s.partySlips (.tile n)) n := (s.tileSlips_results n).1
      have rest := State.partiesSlip_still (s.partySlips (.tile n)) l n first
      rw [State.partiesSlip_cons]
      generalize s.partySlips (.tile n) = v at own rest
      exact own.still rest
    · obtain ⟨tile, sts, sum, -⟩ := s.partySlips_still p n here
      have only := s.partySlips_pointOnly p
      obtain ⟨tile', sts', crest'⟩ := ih (s.partySlips p) rest ((List.mem_cons.mp among).resolve_left fun e => here e.symm)
      rw [State.partiesSlip_cons]
      generalize s.partySlips p = v at *
      have point : v.slip = s.slip := (congrArg State.slip only :)
      exact ⟨by rw [tile', tile, point], by rw [sts', sts], crest'.trans sum⟩

theorem State.partiesSlip_old (s : State) (l : List Party) (d : Fin 2) (due : .mesa d.val ∈ l ∨ s.old[d] = some (mesaBank d s.crest)) : (s.partiesSlip l).old[d] = some (mesaBank d s.crest) := by
  induction l generalizing s with
  | nil => exact due.resolve_left nofun
  | cons p l ih =>
    have crest : (s.partySlips p).crest = s.crest := (congrArg State.crest (s.partySlips_pointOnly p) :)
    have own := s.partySlips_old p d
    have next := ih (s.partySlips p)
    rw [crest] at next
    refine next ?_
    by_cases here : p = .mesa d
    · exact .inr (own.trans (if_pos here))
    · rw [if_neg here] at own
      exact due.imp (fun among => (List.mem_cons.mp among).resolve_left fun e => here e.symm) own.trans

end Sys2Proof.Machine
end

section
/-! SUPPORT. The coordinator at the slip point, and the chips that are unseated (12 R324, R328, R329), for obligation O45. -/

namespace Sys2Proof.Machine

variable {s v u w : State} {t : Time}

/-! ### A chip that is unseated (R328) -/

/-- The record of an unseated chip. -/
def State.splitNoted (s : State) (c : Nat) : State := (s.slipFlag 5).fault (c / 2) none { cls := 0x0008, sev := 2, kind := 3, index := c, detail := c }

/-- A chip that is held, its port's state noted. -/
def State.unseated (s : State) (c : Nat) : State :=
  (s.setPort c { s.port c with seated := false, reseat := true, compareDue := true }).noteChip c (chipStamp c s.time.now)

theorem State.unseat_eq (s : State) (c : Nat) : s.unseat c = if ((s.splitNoted c).port c).up then ((s.splitNoted c).unseated c).sendChunks c ((s.splitNoted c).unseated c).crest else (s.splitNoted c).unseated c := rfl

theorem State.splitNoted_results (s : State) (c : Nat) : s.Reported (s.splitNoted c) ∧ (s.splitNoted c).ports = s.ports ∧
    (∀ a, a ≠ 0x204 → faultWord a = false → (s.splitNoted c).reg a = s.reg a) ∧ ∀ b, (s.reg 0x204).getLsbD b = true → ((s.splitNoted c).reg 0x204).getLsbD b = true := by
  unfold State.splitNoted
  have flag : (s.slipFlag 5).ports = s.ports := rfl
  have reported : s.Reported (s.slipFlag 5) := s.reported_setFlag _ _
  have others (a : Nat) (ne : a ≠ 0x204) : (s.slipFlag 5).reg a = s.reg a := s.setFlag_reg_ne 0x204 5 a ne
  have bits (b : Nat) (on : (s.reg 0x204).getLsbD b = true) : ((s.slipFlag 5).reg 0x204).getLsbD b = true := s.setFlag_bits 0x204 5 b on
  generalize s.slipFlag 5 = w at flag reported others bits
  generalize kind : ({ cls := 0x0008, sev := 2, kind := 3, index := c, detail := c } : FaultInfo) = f
  have mild : f.sev = 2 := by rw [← kind]
  refine ⟨reported.trans (w.reported_fault _ _ _), (w.fault_quiet (c / 2) none f (by omega)).1.trans flag, fun a ne other => (w.fault_reg other _ _ _ (by omega)).trans (others a ne), fun b on => ?_⟩
  rw [w.fault_reg (by decide) _ _ _ (by omega)]
  exact bits b on

theorem State.noteChip_portsOnly (s : State) (p : Nat) (st : Stamp) : s.PortsOnly (s.noteChip p st) := by
  unfold State.noteChip
  split <;> rfl

theorem State.noteChip_seated (s : State) (p : Nat) (st : Stamp) (q : Nat) : ((s.noteChip p st).port q).seated = (s.port q).seated := by
  unfold State.noteChip
  split
  · rfl
  · dsimp only
    rw [State.port_setPort]
    split
    · next at_ => rw [at_.1]
    · rfl

theorem State.sendChunks_seated (s : State) (c : Nat) (m : SMap Word) (q : Nat) : ((s.sendChunks c m).port q).seated = (s.port q).seated := by
  have put (u : State) (d : DflPort) (same : d.seated = (u.port c).seated) : ((u.setPort c d).port q).seated = (u.port q).seated := by
    rw [State.port_setPort]
    split
    · next at_ => rw [same, at_.1]
    · rfl
  exact (State.foldl_preserves (fun u : State => (u.port q).seated) (fun s k => s.setPort c ((s.port c).queueFrame { prio := 6, bytes := leeDataBytes m c k (s.slip.id % 256) })) (fun u k => put u _ rfl) _ _).trans (put s _ rfl)

theorem State.unseated_seated (s : State) (c q : Nat) (small : c < 4) : ((s.unseated c).port q).seated = if q = c then false else (s.port q).seated := by
  rw [State.unseated, State.noteChip_seated, State.port_setPort]
  by_cases same : q = c
  · rw [if_pos ⟨same, small⟩, if_pos same]
  · rw [if_neg fun h => same h.1, if_neg same]

theorem State.unseat_seated (s : State) (c q : Nat) (small : c < 4) : ((s.unseat c).port q).seated = if q = c then false else (s.port q).seated := by
  have ports : ((s.splitNoted c).port q).seated = (s.port q).seated := congrArg (fun l : Vector DflPort 4 => (l.toList.getD q {}).seated) (s.splitNoted_results c).2.1
  rw [State.unseat_eq]
  split
  · rw [State.sendChunks_seated, State.unseated_seated _ c q small, ports]
  · rw [State.unseated_seated _ c q small, ports]

theorem State.PortsOnly.reported (h : s.PortsOnly u) : s.Reported u := (congrArg (fun x : State => { x with regs := s.regs, logs := s.logs, link := s.link }) h :)

/-- What an unseated chip leaves: words but for the flags, and no bit of MESA_SLIP_STS goes. -/
theorem State.unseat_results (s : State) (c : Nat) : s.Reported (s.unseat c) ∧ (∀ a, a ≠ 0x204 → faultWord a = false → (s.unseat c).reg a = s.reg a) ∧
    ∀ b, (s.reg 0x204).getLsbD b = true → ((s.unseat c).reg 0x204).getLsbD b = true := by
  rw [State.unseat_eq]
  obtain ⟨reported, -, others, bits⟩ := s.splitNoted_results c
  generalize s.splitNoted c = w at reported others bits ⊢
  have held : w.PortsOnly (w.unseated c) := (w.setPort_portsOnly _ _).trans (State.noteChip_portsOnly _ _ _)
  have only : w.PortsOnly (if (w.port c).up then (w.unseated c).sendChunks c (w.unseated c).crest else w.unseated c) := by
    split
    · exact held.trans (State.sendChunks_portsOnly _ _ _)
    · exact held
  generalize (if (w.port c).up then (w.unseated c).sendChunks c (w.unseated c).crest else w.unseated c) = u at only
  exact ⟨reported.trans only.reported, fun a ne other => (only.reg a).trans (others a ne other), fun b on => by rw [only.reg]; exact bits b on⟩

/-- Chips unseated one after the other. -/
def State.unseats (s : State) (l : List Nat) : State := l.foldl (fun s c => s.unseat c) s

theorem State.unseats_results (s : State) (l : List Nat) : s.Reported (s.unseats l) ∧ (∀ a, a ≠ 0x204 → faultWord a = false → (s.unseats l).reg a = s.reg a) ∧
    ∀ b, (s.reg 0x204).getLsbD b = true → ((s.unseats l).reg 0x204).getLsbD b = true := by
  induction l generalizing s with
  | nil => exact ⟨.refl s, fun _ _ _ => rfl, fun _ on => on⟩
  | cons c l ih =>
    obtain ⟨reported, others, bits⟩ := s.unseat_results c
    obtain ⟨reported', others', bits'⟩ := ih (s.unseat c)
    exact ⟨reported.trans reported', fun a ne other => (others' a ne other).trans (others a ne other), fun b on => bits' b (bits b on)⟩

theorem State.unseats_seated (s : State) (l : List Nat) (small : ∀ c ∈ l, c < 4) (q : Nat) : ((s.unseats l).port q).seated = if q ∈ l then false else (s.port q).seated := by
  induction l generalizing s with
  | nil => rfl
  | cons c l ih =>
    refine (ih (s.unseat c) fun d here => small d (List.mem_cons_of_mem _ here)).trans ?_
    rw [State.unseat_seated _ c q (small c List.mem_cons_self)]
    simp only [List.mem_cons]
    by_cases first : q = c <;> by_cases later : q ∈ l <;> simp [first, later]

/-! ### The coordinator at the slip point (R324) -/

/-- The attached chips that are no party. -/
def State.unpartied (s : State) : List Nat := (List.range 4).filter fun c => (s.port c).attached && !decide (Party.chip c ∈ s.slip.parties)

theorem State.mem_unpartied (s : State) (k : Nat) : k ∈ s.unpartied ↔ k < 4 ∧ (s.port k).attached = true ∧ .chip k ∉ s.slip.parties := by
  simp [State.unpartied]

/-- Lee has become crest, and the coordinator has recorded it. -/
def State.leeTaken (s : State) : State :=
  { s with
    crest := s.lee, crestBad := s.leeBad
    oldDigest := s.slip.crestDigest
    loader := { s.loader with old := s.loader.crest, crest := s.loader.lee, changed := .replicate 4 false }
    slip := { s.slip with st := .idle, crestDigest := s.slip.leeDigest, last := s.slip.point, lastPoint := some s.slip.point } }

def State.pointEnded (s : State) : State := ((s.leeTaken.slipFlag 3).slipCount false).slipReply 0 0

theorem exec_slipPoint_not (hv : s.at t = v) (off : v.slip.st ≠ .armed ∨ v.time.now < v.slip.point) : exec (.slipPoint t) s = .next v := by
  subst hv
  exact congrArg Host.Outcome.next (if_pos off)

theorem exec_slipPoint_due (hv : s.at t = v) (on : ¬ (v.slip.st ≠ .armed ∨ v.time.now < v.slip.point)) :
    exec (.slipPoint t) s = .next ((v.partiesSlip v.slip.parties).pointEnded.unseats (v.partiesSlip v.slip.parties).unpartied) := by
  subst hv
  exact congrArg Host.Outcome.next (if_neg on)

theorem State.pointEnded_results (s : State) : { s.pointEnded with regs := s.regs, link := s.link } = s.leeTaken ∧ (s.pointEnded.reg 0x204).getLsbD 3 = true ∧
    ∀ a, a ≠ 0x204 → a ≠ 0x240 → s.pointEnded.reg a = s.reg a := by
  unfold State.pointEnded
  have regs : s.leeTaken.regs = s.regs := rfl
  have link : s.leeTaken.link = s.link := rfl
  have word (a : Nat) : s.leeTaken.reg a = s.reg a := rfl
  generalize s.leeTaken = v at regs link word
  have flag : ((v.slipFlag 3).reg 0x204).getLsbD 3 = true := v.setFlag_bit 0x204 3 (by decide)
  have others (a : Nat) (ne : a ≠ 0x204) : (v.slipFlag 3).reg a = v.reg a := v.setFlag_reg_ne 0x204 3 a ne
  have flagged : { v.slipFlag 3 with regs := v.regs } = v := rfl
  generalize v.slipFlag 3 = w at flag others flagged ⊢
  have apart (a : Nat) (ne : a ≠ 0x240) : (w.slipCount false).reg a = w.reg a := w.reg_setReg_ne _ _ _ ne
  have counted : { w.slipCount false with regs := w.regs } = w := rfl
  generalize w.slipCount false = x at apart counted ⊢
  have only : { x with regs := v.regs } = v := regsOnly_trans flagged counted
  have posts := x.slipReply_link 0 0
  generalize x.slipReply 0 0 = u at posts ⊢
  have reg (a : Nat) : u.reg a = x.reg a := (congrArg (fun q : State => q.reg a) posts :)
  have linked : x.link = v.link := (congrArg State.link only :)
  refine ⟨?_, by rw [reg, apart _ (by decide), flag], fun a ne ne' => by rw [reg, apart _ ne', others _ ne, word]⟩
  rw [← regs, ← link, ← linked]
  exact (congrArg (fun q : State => { q with regs := v.regs }) posts :).trans only

/-! ### The slip point, in all -/

/-- `u` is what the coordinator makes of `s` at the slip point, but for reports, tiles and retiring banks. -/
def State.PointTaken (s u : State) : Prop :=
  { u with regs := s.regs, logs := s.logs, link := s.link, ports := s.ports, tiles := s.tiles, old := s.old, oldBad := s.oldBad, ingress := s.ingress } = s.leeTaken

theorem State.PointTaken.of_steps {x : State} (moved : v.PointOnly w) (frame : { x with regs := w.regs, link := w.link } = w.leeTaken) (reported : x.Reported u) : v.PointTaken u := by
  have ended : { u with regs := w.regs, logs := w.logs, link := w.link, ports := w.ports } = { w.leeTaken with logs := w.logs, ports := w.ports } :=
    (congrArg (fun q : State => { q with regs := w.regs, logs := w.logs, link := w.link, ports := w.ports }) reported :).trans (congrArg (fun q : State => { q with logs := w.logs, ports := w.ports }) frame :)
  exact (congrArg (fun q : State => { q with regs := v.regs, logs := v.logs, link := v.link, ports := v.ports, tiles := v.tiles, old := v.old, oldBad := v.oldBad, ingress := v.ingress }) ended :).trans
    (congrArg (fun q : State => { q.leeTaken with regs := v.regs, logs := v.logs, link := v.link, ports := v.ports, tiles := v.tiles, old := v.old, oldBad := v.oldBad, ingress := v.ingress }) moved :)

/-- What the slip point leaves. -/
theorem slipPoint_results (hv : s.at t = v) (on : ¬ (v.slip.st ≠ .armed ∨ v.time.now < v.slip.point)) (once : v.slip.parties.Nodup) : ∃ u, exec (.slipPoint t) s = .next u ∧ v.PointTaken u ∧ (u.reg 0x204).getLsbD 3 = true ∧
    (∀ n, .tile n ∈ v.slip.parties → u.tile n = { v.tile n with retiring := some v.slip.point } ∧ u.reg (tileBase n + 8) = slipWord (v.reg (tileBase n + 8)) ∧ u.getPair (tileBase n + 0x48) = v.getPair (tileBase n + 0x40)) ∧
    (∀ n, .tile n ∉ v.slip.parties → u.tile n = v.tile n ∧ u.reg (tileBase n + 8) = v.reg (tileBase n + 8)) ∧ (∀ d : Fin 2, .mesa d.val ∈ v.slip.parties → u.old[d] = some (mesaBank d v.crest)) ∧
    ∀ k : Fin 4, (u.port k).seated = if (v.port k).attached = true ∧ .chip k.val ∉ v.slip.parties then false else (v.port k).seated := by
  have ran := exec_slipPoint_due hv on
  have moved := v.partiesSlip_pointOnly v.slip.parties
  have slipped (n : Nat) := v.partiesSlip_tile v.slip.parties n once
  have still (n : Nat) := v.partiesSlip_still v.slip.parties n
  have old (d : Fin 2) (among : .mesa d.val ∈ v.slip.parties) := v.partiesSlip_old v.slip.parties d (.inl among)
  generalize v.partiesSlip v.slip.parties = w at ran moved slipped still old
  obtain ⟨frame, flag, words⟩ := w.pointEnded_results
  obtain ⟨reported, others, bits⟩ := w.pointEnded.unseats_results w.unpartied
  have seated (k : Nat) := w.pointEnded.unseats_seated w.unpartied (fun c here => ((w.mem_unpartied c).mp here).1) k
  generalize w.pointEnded = x at ran frame flag words reported others bits seated
  generalize x.unseats w.unpartied = u at ran reported others bits seated
  have ports (k : Nat) : x.port k = v.port k := ((congrArg (fun q : State => q.port k) frame :).trans (show w.leeTaken.port k = w.port k from rfl)).trans (congrArg (fun q : State => q.port k) moved :)
  have tiles (n : Nat) : u.tile n = w.tile n := (State.tile_of_tiles reported.tiles n).trans ((congrArg (fun q : State => q.tile n) frame :).trans (show w.leeTaken.tile n = w.tile n from rfl))
  have olds : u.old = w.old := (congrArg State.old reported :).trans ((congrArg State.old frame :).trans (show w.leeTaken.old = w.old from rfl))
  have word (n k : Nat) : u.reg (tileBase n + k) = w.reg (tileBase n + k) := by
    have high : 0x800000 ≤ tileBase n + k := by unfold tileBase; omega
    rw [others _ (by omega) (tileBase_faultWord n k), words _ (by omega) (by omega)]
  have word' (n k : Nat) : u.reg (tileBase n + k + 4) = w.reg (tileBase n + k + 4) := by rw [Nat.add_assoc]; exact word n (k + 4)
  refine ⟨u, ran, .of_steps moved frame reported, bits 3 flag, fun n among => ?_, fun n out => ?_, fun d among => ?_, fun k => ?_⟩
  · obtain ⟨tile, sts, crest⟩ := slipped n among
    exact ⟨(tiles n).trans tile, (word n 8).trans sts, (State.getPair_of_reg (word n 0x48) (word' n 0x48)).trans crest⟩
  · obtain ⟨tile, sts, -, -⟩ := still n out
    exact ⟨(tiles n).trans tile, (word n 8).trans sts⟩
  · exact (congrArg (fun o : Vector (Option (SMap Word)) 2 => o[d]) olds).trans (old d among)
  · have among : k.val ∈ w.unpartied ↔ (v.port k).attached = true ∧ .chip k.val ∉ v.slip.parties := by
      have port : w.port k = v.port k := (congrArg (fun q : State => q.port k) moved :)
      have slip : w.slip = v.slip := (congrArg State.slip moved :)
      rw [State.mem_unpartied, slip, port]
      exact and_iff_right k.isLt
    rw [seated, ports]
    exact if_congr among rfl rfl

end Sys2Proof.Machine
end

section
/-! SUPPORT. A tile's retiring half, and lee refreshed from crest (12 R133, R326), for obligation O45. -/

namespace Sys2Proof.Machine

variable {s v u w : State} {t : Time}

/-! ### A tile whose bank is reclaimed keeps its halves -/

theorem State.freeTiles_halves (s : State) (id : JobId) (n : Nat) (held : (s.tile n).retiring ≠ none) : ((s.freeTiles id).tile n).halves = (s.tile n).halves ∧ ((s.freeTiles id).tile n).retiring = (s.tile n).retiring := by
  have listed : Tile.left id (s.tile n) ≠ {} := fun e => held (congrArg Tile.retiring e :)
  have left : (s.freeTiles id).tile n = Tile.left id (s.tile n) := mget_map_filter (Tile.left id) s.tiles n listed rfl
  rw [left]
  exact ⟨rfl, rfl⟩

theorem State.reclaim_halves (s : State) (id : JobId) (l : List Nat) (unit n : Nat) (held : (s.tile n).retiring ≠ none) :
    ((s.reclaim id l unit).tile n).halves = (s.tile n).halves ∧ ((s.reclaim id l unit).tile n).retiring = (s.tile n).retiring := by
  have flags : (s.reclaimFlags l).tile n = s.tile n := State.tile_of_tiles (s.reclaimFlags_reported l).tiles n
  rw [State.reclaim_eq]
  generalize s.reclaimFlags l = w at flags ⊢
  rw [← flags] at held ⊢
  rcases w.stopJob_tiles id 0x0A 0 0 unit with same | freed
  · rw [State.tile_of_tiles same]
    exact ⟨rfl, rfl⟩
  · rw [State.tile_of_tiles freed]
    exact w.freeTiles_halves id n held

theorem State.reclaim_word (s : State) (id : JobId) (l : List Nat) (unit n : Nat) (small : n < 512) : (s.reclaim id l unit).reg (tileBase n + 8) = s.reg (tileBase n + 8) := by
  have low : stopWord (tileBase n + 8) = false := decide_eq_false (by simp only [List.mem_cons, List.not_mem_nil, or_false]; unfold tileBase; omega)
  have flags : (s.reclaimFlags l).reg (tileBase n + 8) = s.reg (tileBase n + 8) :=
    State.foldl_preserves (fun u : State => u.reg (tileBase n + 8)) _ (fun u k => u.tileFlag_reg k 6 _ (by unfold tileBase; omega) (by unfold tileBase; omega)) l s
  rw [State.reclaim_eq, State.stopJob_reg _ low, flags]

theorem State.reclaimEach_still (s : State) (l : List Job) (n : Nat) (small : n < 512) (held : (s.tile n).retiring ≠ none) :
    ((s.reclaimEach l n).tile n).halves = (s.tile n).halves ∧ (s.reclaimEach l n).reg (tileBase n + 8) = s.reg (tileBase n + 8) := by
  induction l generalizing s with
  | nil => exact ⟨rfl, rfl⟩
  | cons j l ih =>
    obtain ⟨halves, retiring⟩ := s.reclaim_halves j.id [n] n n held
    obtain ⟨halves', word⟩ := ih (s.reclaim j.id [n] n) (retiring ▸ held)
    exact ⟨halves'.trans halves, word.trans (s.reclaim_word j.id [n] n n small)⟩

/-! ### The retiring half goes (R133, R326) -/

/-- What a retired tile is like. -/
def State.TileReleased (s u : State) (n : Nat) : Prop :=
  (u.tile n).retiring = none ∧ (u.tile n).refreshing = true ∧ (u.reg (tileBase n + 8)).getLsbD 1 = false ∧ u.crestHalf n = s.crestHalf n ∧ (u.tile n).halves = (s.tile n).halves

/-- TILE_STS without its retiring bit. -/
def State.stsRetired (s : State) (a : Nat) : State := s.setReg a (setFld (s.reg a) 1 1 0)

theorem State.retireTile_eq (s : State) (n : Nat) : s.retireTile n = (s.stsRetired (tileBase n + 8)).modTile n fun x => { x with retiring := none, refreshing := true } := rfl

theorem State.stsRetired_results (s : State) (a : Nat) : { s.stsRetired a with regs := s.regs } = s ∧ ((s.stsRetired a).reg a).getLsbD 1 = false ∧ fld ((s.stsRetired a).reg a) 0 0 = fld (s.reg a) 0 0 := by
  have word : (s.stsRetired a).reg a = setFld (s.reg a) 1 1 0 := s.reg_setReg_same _ _
  rw [word, getLsbD_setFld _ _ _ _ _ (by decide), if_pos (by decide), fld_setFld_other _ _ _ _ _ _ (by decide) (by decide)]
  exact ⟨rfl, rfl, rfl⟩

theorem State.retireTile_released (s : State) (n : Nat) : s.TileReleased (s.retireTile n) n ∧ (s.retireTile n).jobs = s.jobs ∧ (s.retireTile n).cycles = s.cycles := by
  obtain ⟨only, bit, half⟩ := s.stsRetired_results (tileBase n + 8)
  rw [State.retireTile_eq]
  generalize s.stsRetired (tileBase n + 8) = w at only bit half ⊢
  have tile : w.tile n = s.tile n := (congrArg (fun x : State => x.tile n) only :)
  rw [State.TileReleased, State.tile_modTile_same, tile]
  exact ⟨⟨rfl, rfl, bit, half, rfl⟩, (congrArg State.jobs only :), (congrArg State.cycles only :)⟩

theorem exec_tileBankRetireEnd_none (hv : s.at t = v) {tile : Fin 512} (lee : Bool) (none_ : (v.tile tile).retiring = none) : exec (.tileBankRetireEnd tile lee t) s = .next v := by
  subst hv
  show Host.Outcome.next (match ((s.at t).tile tile).retiring with | none => _ | some p => _) = _
  rw [none_]

theorem exec_tileBankRetireEnd_some (hv : s.at t = v) {tile : Fin 512} (lee : Bool) {p : Time} (held : (v.tile tile).retiring = some p) : exec (.tileBankRetireEnd tile lee t) s = .next
    (if v.tileReserved tile p then v else if (v.holders tile p).any fun j => j.admitted then v else if v.holders tile p = [] then v.retireTile tile
     else if lee then (v.reclaimEach (v.holders tile p) tile).retireTile tile else v) := by
  subst hv
  show Host.Outcome.next (match ((s.at t).tile tile).retiring with | none => _ | some p => _) = _
  rw [held]
  rfl

/-- A bank that stays: reservations, admitted jobs, or jobs that nothing stops yet. -/
theorem exec_tileBankRetireEnd_stays (hv : s.at t = v) {tile : Fin 512} {lee : Bool} {p : Time} (held : (v.tile tile).retiring = some p)
    (stays : v.tileReserved tile p = true ∨ (∃ j ∈ v.holders tile p, j.admitted = true) ∨ (v.holders tile p ≠ [] ∧ lee = false)) : exec (.tileBankRetireEnd tile lee t) s = .next v := by
  refine (exec_tileBankRetireEnd_some hv lee held).trans (congrArg Host.Outcome.next ?_)
  split
  · rfl
  · next free =>
    split
    · rfl
    · next none_ =>
      have rest := (stays.resolve_left free).resolve_left fun ⟨j, here, adm⟩ => none_ (List.any_eq_true.mpr ⟨j, here, adm⟩)
      rw [if_neg rest.1, if_neg (by rw [rest.2]; decide)]

theorem exec_tileBankRetireEnd_idle (hv : s.at t = v) {tile : Fin 512} (lee : Bool) {p : Time} (held : (v.tile tile).retiring = some p) (free : v.tileReserved tile p = false) (idle : v.holders tile p = []) :
    exec (.tileBankRetireEnd tile lee t) s = .next (v.retireTile tile) :=
  (exec_tileBankRetireEnd_some hv lee held).trans (congrArg Host.Outcome.next ((if_neg (by rw [free]; decide)).trans ((if_neg (by rw [idle]; decide)).trans (if_pos idle))))

theorem exec_tileBankRetireEnd_stops (hv : s.at t = v) {tile : Fin 512} {lee : Bool} {p : Time} (held : (v.tile tile).retiring = some p) (free : v.tileReserved tile p = false) (busy : v.holders tile p ≠ [])
    (not : ∀ j ∈ v.holders tile p, j.admitted = false) (due : lee = true) : exec (.tileBankRetireEnd tile lee t) s = .next ((v.reclaimEach (v.holders tile p) tile).retireTile tile) := by
  have none_ : ¬ ((v.holders tile p).any fun j => j.admitted) = true := fun any_ => by
    obtain ⟨j, here, adm⟩ := List.any_eq_true.mp any_
    exact Bool.noConfusion ((not j here).symm.trans adm)
  exact (exec_tileBankRetireEnd_some hv lee held).trans (congrArg Host.Outcome.next ((if_neg (by rw [free]; decide)).trans ((if_neg none_).trans ((if_neg busy).trans (if_pos due)))))

theorem State.mem_holders_running (s : State) {n : Nat} {p : Time} {j : Job} (here : j ∈ s.holders n p) : j.running ≠ [] := by
  obtain ⟨-, test⟩ := List.mem_filter.mp here
  rw [Bool.and_eq_true, decide_eq_true_eq] at test
  exact List.ne_nil_of_mem test.2

/-! ### A tile's lee refreshed (R326) -/

/-- What lee becomes: crest's bank, but for the stores that both halves share. -/
def Tile.refreshed (x : Tile) (c : Nat) (enabled : Bool) : Tile :=
  let b := if enabled then x.half c else { x.half c with
    wbed := (x.half (1 - c)).wbed, imem := (x.half (1 - c)).imem
    wbedPoison := (x.half (1 - c)).wbedPoison, imemPoison := (x.half (1 - c)).imemPoison }
  { x.setHalf (1 - c) b with refreshing := false }

def State.leeCopied (s : State) (n : Nat) : State :=
  let s' := s.modTile n fun x => x.refreshed (s.crestHalf n) (s.leeEn n)
  { s' with loader := { s'.loader with expect := mins n (s'.getPair (tileBase n + 0x48)) s'.loader.expect } }

theorem State.refreshTile_eq (s : State) (n : Nat) : s.refreshTile n = (s.leeCopied n).releaseTile n := rfl

/-- With no write held for a tile, nothing is released. -/
theorem State.releaseTile_none (s : State) (n : Nat) (none_ : ∀ w ∈ s.heldWrites, w.addr < tileBase n ∨ tileBase n + 0x1000 ≤ w.addr) : { s.releaseTile n with heldWrites := s.heldWrites } = s := by
  have mine : s.heldWrites.filter (fun w => decide (tileBase n ≤ w.addr ∧ w.addr < tileBase n + 0x1000)) = [] := List.filter_eq_nil_iff.mpr fun w here => by
    have out := none_ w here
    rw [decide_eq_true_eq]
    omega
  unfold State.releaseTile
  split
  · rfl
  · dsimp only
    rw [mine]
    rfl

theorem exec_leeRefreshDone_chip (hv : s.at t = v) (k : Nat) : exec (.leeRefreshDone (.chip k) t) s = .next v := by
  subst hv
  rfl

theorem exec_leeRefreshDone_tile (hv : s.at t = v) (n : Nat) : exec (.leeRefreshDone (.tile n) t) s = .next (if (v.tile n).refreshing then v.refreshTile n else v) := by
  subst hv
  rfl

theorem Tile.refreshed_results (x : Tile) (c : Nat) (small : c < 2) (enabled : Bool) : (x.refreshed c enabled).refreshing = false ∧ (x.refreshed c enabled).half c = x.half c ∧
    (enabled = true → (x.refreshed c enabled).half (1 - c) = x.half c) ∧
    (enabled = false → (x.refreshed c enabled).half (1 - c) = { x.half c with wbed := (x.half (1 - c)).wbed, imem := (x.half (1 - c)).imem, wbedPoison := (x.half (1 - c)).wbedPoison, imemPoison := (x.half (1 - c)).imemPoison }) := by
  have own (b : TileBank) : ({ x.setHalf (1 - c) b with refreshing := false } : Tile).half (1 - c) = b := x.half_setHalf (1 - c) b
  have other (b : TileBank) : ({ x.setHalf (1 - c) b with refreshing := false } : Tile).half c = x.half c := x.half_setHalf_other (1 - c) c b (by omega)
  refine ⟨rfl, other _, fun on => (own _).trans (if_pos on), fun off => (own _).trans (if_neg (by rw [off]; decide))⟩

theorem State.refreshTile_results (s : State) (n : Nat) (none_ : ∀ w ∈ s.heldWrites, w.addr < tileBase n ∨ tileBase n + 0x1000 ≤ w.addr) :
    (s.refreshTile n).tile n = (s.tile n).refreshed (s.crestHalf n) (s.leeEn n) ∧ (∀ m, m ≠ n → (s.refreshTile n).tile m = s.tile m) ∧ (s.refreshTile n).jobs = s.jobs ∧
    (s.refreshTile n).cycles = s.cycles ∧ (s.refreshTile n).regs = s.regs := by
  have tile : (s.leeCopied n).tile n = (s.tile n).refreshed (s.crestHalf n) (s.leeEn n) := s.tile_modTile_same n fun x => x.refreshed (s.crestHalf n) (s.leeEn n)
  have others (m : Nat) (ne : m ≠ n) : (s.leeCopied n).tile m = s.tile m :=
    (s.tile_modTile n m fun x => x.refreshed (s.crestHalf n) (s.leeEn n)).trans (if_neg ne)
  have same : (s.leeCopied n).jobs = s.jobs ∧ (s.leeCopied n).cycles = s.cycles ∧ (s.leeCopied n).regs = s.regs ∧ (s.leeCopied n).heldWrites = s.heldWrites := ⟨rfl, rfl, rfl, rfl⟩
  rw [State.refreshTile_eq]
  generalize s.leeCopied n = w at tile others same ⊢
  obtain ⟨jobs, cycles, regs, held⟩ := same
  have only := w.releaseTile_none n (held ▸ none_)
  generalize w.releaseTile n = u at only ⊢
  exact ⟨(congrArg (fun x : State => x.tile n) only :).trans tile, fun m ne => (congrArg (fun x : State => x.tile m) only :).trans (others m ne), (congrArg State.jobs only :).trans jobs,
    (congrArg State.cycles only :).trans cycles, (congrArg State.regs only :).trans regs⟩

end Sys2Proof.Machine
end

section
/-! SUPPORT. A mesa die's lee refreshed from crest, and the second half of a slip (12 R319, R323 to R326, R329), for obligation O45. -/

namespace Sys2Proof.Machine

variable {s v u w : State} {t : Time}

/-! ### Sparse tables: a part by key, and a list put in -/

section
variable {α : Type}

theorem mget_filter (d : Nat → α) (p : Nat → Bool) (m : SMap α) (k : Nat) : mget d (m.filter fun e => p e.1) k = if p k then mget d m k else d k := by
  induction m with
  | nil => exact (ite_self _).symm
  | cons e m ih =>
    obtain ⟨j, x⟩ := e
    rw [List.filter_cons]
    by_cases same : j = k
    · subst same
      by_cases kept : p j = true
      · rw [if_pos kept, if_pos kept, mget, if_pos rfl, mget, if_pos rfl]
      · rw [if_neg kept, ih, if_neg kept, if_neg kept]
    · rw [mget, if_neg same, ← ih]
      split
      · rw [mget, if_neg same]
      · rfl

theorem mget_of_not_mem (d : Nat → α) (m : SMap α) (k : Nat) (out : k ∉ m.map Prod.fst) : mget d m k = d k := by
  induction m with
  | nil => rfl
  | cons e m ih =>
    obtain ⟨j, x⟩ := e
    rw [List.map_cons, List.mem_cons, not_or] at out
    rw [mget, if_neg fun same => out.1 same.symm, ih out.2]

theorem mget_foldl_mset [DecidableEq α] (d : Nat → α) (l : SMap α) (once : (l.map Prod.fst).Nodup) (m : SMap α) (k : Nat) :
    mget d (l.foldl (fun m e => mset d m e.1 e.2) m) k = if k ∈ l.map Prod.fst then mget d l k else mget d m k := by
  induction l generalizing m with
  | nil => rfl
  | cons e l ih =>
    obtain ⟨j, x⟩ := e
    rw [List.map_cons] at once ⊢
    obtain ⟨first, rest⟩ := List.nodup_cons.mp once
    rw [List.foldl_cons, ih rest, mget]
    by_cases same : j = k
    · subst same
      rw [if_neg first, if_pos List.mem_cons_self, if_pos rfl, mget_mset_same]
    · rw [mget_mset_ne _ _ _ _ _ fun e => same e.symm, if_neg same]
      exact if_congr ⟨List.mem_cons_of_mem _, fun here => (List.mem_cons.mp here).resolve_left fun e => same e.symm⟩ rfl rfl

theorem mwfFrom_keys [DecidableEq α] (d : Nat → α) (m : SMap α) (lo : Nat) (hm : mwfFrom d lo m = true) : (m.map Prod.fst).Nodup ∧ ∀ k ∈ m.map Prod.fst, lo ≤ k := by
  induction m generalizing lo with
  | nil => exact ⟨List.nodup_nil, nofun⟩
  | cons e m ih =>
    obtain ⟨j, x⟩ := e
    simp only [mwfFrom, Bool.and_eq_true, decide_eq_true_eq] at hm
    obtain ⟨⟨first, -⟩, rest⟩ := hm
    obtain ⟨once, above⟩ := ih (j + 1) rest
    refine ⟨List.nodup_cons.mpr ⟨fun here => absurd (above j here) (by omega), once⟩, fun k here => ?_⟩
    rcases List.mem_cons.mp here with rfl | later
    · exact first
    · have := above k later
      omega

theorem mwf_keys [DecidableEq α] (d : Nat → α) (m : SMap α) (hm : mwf d m = true) : (m.map Prod.fst).Nodup := (mwfFrom_keys d m 0 hm).1

/-- A table with a part of it, by key, taken from another. -/
theorem mget_mixed [DecidableEq α] (d : Nat → α) (p : Nat → Bool) (keep new : SMap α) (hm : mwf d new = true) (k : Nat) :
    mget d ((new.filter fun e => p e.1).foldl (fun m e => mset d m e.1 e.2) (keep.filter fun e => !p e.1)) k = if p k then mget d new k else mget d keep k := by
  have once : ((new.filter fun e => p e.1).map Prod.fst).Nodup := (mwf_keys d new hm).sublist (List.filter_sublist.map _)
  rw [mget_foldl_mset d _ once, mget_filter d p, mget_filter d fun a => !p a]
  by_cases taken : p k = true
  · rw [if_pos taken, if_pos taken]
    split
    · rfl
    · next out =>
      have listed := mget_of_not_mem d _ k out
      rw [mget_filter d p, if_pos taken] at listed
      rw [taken, listed]
      rfl
  · have out : k ∉ (new.filter fun e => p e.1).map Prod.fst := fun here => by
      obtain ⟨e, among, rfl⟩ := List.mem_map.mp here
      exact taken (List.mem_filter.mp among).2
    rw [if_neg out, if_neg taken, Bool.not_eq_true] at *
    rw [taken]
    rfl

end

/-! ### A mesa die's lee (R326) -/

/-- A word of a mesa die's banks. -/
def inBank (d a : Nat) : Bool := decide (leeDie a = d) && !inLedger a

theorem notBank_eq {α : Type} (d : Nat) (m : SMap α) : notBank d m = m.filter fun e => !inBank d e.1 := by
  refine congrArg (List.filter · m) (funext fun e => ?_)
  rw [inBank, Bool.not_and, Bool.not_not, decide_not]

/-- A mesa die's lee, copied. -/
def State.bankCopied (s : State) (d : Nat) : State :=
  { s with
    lee := (mesaBank d s.crest).foldl (fun (m : SMap Word) (e : Nat × Word) => mset regReset m e.1 e.2) (notBank d s.lee)
    leeBad := mixBad d s.leeBad s.crestBad
    refreshing := s.refreshing.setIfInBounds d false }

/-- The writes held for a mesa die, applied in their order. -/
def State.releaseMesa (s : State) (d : Nat) : State :=
  let mine := s.heldWrites.filter fun (w : HeldWrite) => decide (leeDie w.addr = d) && decide (w.addr < 0x00800000 ∨ 0x00A00000 ≤ w.addr)
  let s := { s with heldWrites := s.heldWrites.filter fun (w : HeldWrite) => !(decide (leeDie w.addr = d) && decide (w.addr < 0x00800000 ∨ 0x00A00000 ≤ w.addr)) }
  mine.foldl (fun (s : State) (w : HeldWrite) => s.setLee w.addr w.mask w.value) s

theorem State.refreshMesa_eq (s : State) (d : Nat) : s.refreshMesa d = (s.bankCopied d).releaseMesa d := rfl

theorem State.releaseMesa_none (s : State) (d : Nat) (none_ : ∀ w ∈ s.heldWrites, leeDie w.addr ≠ d) : { s.releaseMesa d with heldWrites := s.heldWrites } = s := by
  have mine : s.heldWrites.filter (fun (w : HeldWrite) => decide (leeDie w.addr = d) && decide (w.addr < 0x00800000 ∨ 0x00A00000 ≤ w.addr)) = [] := List.filter_eq_nil_iff.mpr fun w here => by
    rw [Bool.and_eq_true, decide_eq_true_eq]
    exact fun both => none_ w here both.1
  unfold State.releaseMesa
  dsimp only
  rw [mine]
  rfl

theorem State.bankCopied_leeWord (s : State) (d a : Nat) (sorted : mwf regReset s.crest = true) : (s.bankCopied d).leeWord a = if leeDie a = d ∧ inLedger a = false then s.crestWord a else s.leeWord a := by
  have word : (s.bankCopied d).leeWord a = mget regReset ((s.crest.filter fun e => inBank d e.1).foldl (fun m e => mset regReset m e.1 e.2) (s.lee.filter fun e => !inBank d e.1)) a := by
    rw [← notBank_eq]
    rfl
  rw [word, mget_mixed regReset (inBank d) s.lee s.crest sorted]
  refine if_congr ?_ rfl rfl
  rw [inBank, Bool.and_eq_true, decide_eq_true_eq, Bool.not_eq_true']

theorem exec_leeRefreshDone_mesa (hv : s.at t = v) (d : Fin 2) : exec (.leeRefreshDone (.mesa d) t) s = .next (if v.refreshing[d] then v.refreshMesa d else v) := by
  subst hv
  have read : (s.at t).refreshing.toList.getD d false = (s.at t).refreshing[d] := by
    rw [List.getD_eq_getElem _ _ (by rw [Vector.length_toList]; exact d.isLt)]
    rfl
  rw [← read]
  rfl

theorem State.refreshMesa_results (s : State) (d : Fin 2) (sorted : mwf regReset s.crest = true) (none_ : ∀ w ∈ s.heldWrites, leeDie w.addr ≠ d.val) :
    (s.refreshMesa d).refreshing = s.refreshing.set d false ∧ (s.refreshMesa d).crest = s.crest ∧ (s.refreshMesa d).tiles = s.tiles ∧ (s.refreshMesa d).jobs = s.jobs ∧ (s.refreshMesa d).cycles = s.cycles ∧
    ∀ a, (s.refreshMesa d).leeWord a = if leeDie a = d.val ∧ inLedger a = false then s.crestWord a else s.leeWord a := by
  have word (a : Nat) := s.bankCopied_leeWord d a sorted
  have shown : (s.bankCopied d).refreshing = s.refreshing.set d false := by
    refine Vector.ext fun i small => ?_
    rw [Vector.getElem_set]
    exact Vector.getElem_setIfInBounds ..
  have same : (s.bankCopied d).crest = s.crest ∧ (s.bankCopied d).tiles = s.tiles ∧ (s.bankCopied d).jobs = s.jobs ∧ (s.bankCopied d).cycles = s.cycles ∧ (s.bankCopied d).heldWrites = s.heldWrites := ⟨rfl, rfl, rfl, rfl, rfl⟩
  rw [State.refreshMesa_eq]
  generalize s.bankCopied d = w at word shown same ⊢
  obtain ⟨crest, tiles, jobs, cycles, held⟩ := same
  have only := w.releaseMesa_none d (held ▸ none_)
  generalize w.releaseMesa d = u at only ⊢
  exact ⟨(congrArg State.refreshing only :).trans shown, (congrArg State.crest only :).trans crest, (congrArg State.tiles only :).trans tiles, (congrArg State.jobs only :).trans jobs,
    (congrArg State.cycles only :).trans cycles, fun a => (congrArg (fun x : State => x.leeWord a) only :).trans (word a)⟩

end Sys2Proof.Machine
end

section
/-! PROOF. The slip: prepare, commit, point, abort and retirement (05, 12, 15, 17), obligation O45. -/

namespace Sys2Proof.Machine

/-- The second half of the obligation: COMMIT, the slip point, retirement and refresh. -/
theorem slipCommitResults : Sys2Proof.Claims.SlipCommitResults := by
  intro s party id tile die lee job t v quiet reclaimed
  have hv : s.at t = v := rfl
  have eq : v = { s with time := s.time.seenAt t } := s.at_eq t
  clear_value v
  subst eq
  have armed (st : s.slip.st = .armed) (due : s.slip.point ≤ (s.time.seenAt t).now) : ¬ (s.slip.st ≠ .armed ∨ (s.time.seenAt t).now < s.slip.point) := by
    rw [not_or]
    exact ⟨not_not_intro st, Nat.not_lt.mpr due⟩
  refine ⟨exec_partyCommit_not hv, ?commits, ⟨fun off => ?unacked, fun st named among known => commitAckReceive_results hv st named among ((State.storedBy_iff _ _).mpr known)⟩, exec_slipArmTimeout_not hv, ?disarms,
    fun off => (exec_partyAbort hv party id).trans (congrArg Host.Outcome.next (if_pos off)), ?forgets, exec_slipPoint_not hv, ?slips, exec_tileBankRetireEnd_none hv lee, ?retires,
    exec_mesaBankRetireEnd_none hv, fun p held point => exec_mesaBankRetireEnd_some hv held point, exec_slipReclaimTimeout_none hv, ?reclaims, exec_leeRefreshDone_chip hv, ?tiles, ?mesas⟩
  case commits =>
    intro st named among own
    have kept {u : State} (ran : exec (.partyCommit party id t) s = .next u) : u.kept = s.kept := (execPartyCommit_keeps ..).next ran
    cases party with
    | chip k => exact absurd rfl (own k)
    | mesa d =>
      have ran := exec_partyCommit_mesa hv st named among rfl
      obtain ⟨here, others⟩ := State.partyStored_mem { s with time := s.time.seenAt t } (.mesa d)
      exact ⟨_, ran, here, others, ⟨rfl, rfl, kept ran⟩, rfl, rfl, rfl, fun _ _ => rfl, fun _ is => (nomatch is)⟩
    | tile n =>
      have ran := exec_partyCommit_tile hv st named among rfl
      obtain ⟨here, others⟩ := State.partyStored_mem { s with time := s.time.seenAt t } (.tile n)
      obtain ⟨lee', crest', rest⟩ := (State.partyStored { s with time := s.time.seenAt t } (.tile n)).modHalf_halves n fun b => { b with digest := s.slip.leeDigest }
      refine ⟨_, ran, here, others, ⟨rfl, rfl, kept ran⟩, rfl, rfl, rfl, fun _ is => (nomatch is), fun m is => ?_⟩
      cases is
      exact ⟨congrArg TileBank.digest lee', crest', rest⟩
  case unacked =>
    refine (exec_commitAckReceive hv party id).trans (congrArg Host.Outcome.next (if_pos (off.imp_right (.imp_right (.imp_right fun unknown => ?_)))))
    rw [← State.storedBy_iff { s with time := s.time.seenAt t }, Bool.not_eq_true] at unknown
    rw [unknown]
    rfl
  case disarms =>
    intro st due
    have ran := exec_slipArmTimeout_due hv st due
    obtain ⟨slip, flag, -, -, only, -⟩ := State.slipAbort_aborted { s with time := s.time.seenAt t } 9 (s.slip.parties.find? fun p => decide (p ∉ s.slip.commitAcked))
    exact ⟨_, ran, (congrArg Slip.st slip :), (congrArg Slip.reason slip :), flag, only.crest, only.lee, only.tiles, only.jobs, only.cycles, (execSlipArmTimeout_keeps ..).next ran⟩
  case forgets =>
    intro st named
    have ran := (exec_partyAbort hv party id).trans (congrArg Host.Outcome.next (if_neg (by rw [not_or]; exact ⟨not_not_intro st, not_not_intro named⟩)))
    obtain ⟨only, prepared, answers, committed⟩ := State.partyForgets_results { s with time := s.time.seenAt t } party
    exact ⟨_, ran, only, prepared, answers, committed, st⟩
  case slips =>
    intro st due once
    obtain ⟨u, ran, taken, flag, among, out, old, seated⟩ := slipPoint_results hv (armed st due) once
    have half (n : Nat) : u.crestHalf n = fld (u.reg (tileBase n + 8)) 0 0 := rfl
    refine ⟨u, ran, (congrArg State.crest taken :), (congrArg State.lee taken :), (congrArg State.crestBad taken :), (congrArg (fun x : State => x.loader.crest) taken :), (congrArg (fun x : State => x.loader.lee) taken :),
      (congrArg (fun x : State => x.loader.old) taken :), (congrArg (fun x : State => x.slip.st) taken :), (congrArg (fun x : State => x.slip.crestDigest) taken :), (congrArg (fun x : State => x.slip.last) taken :),
      (congrArg (fun x : State => x.slip.lastPoint) taken :), (congrArg State.oldDigest taken :), flag, ⟨(congrArg State.jobs taken :), (congrArg State.cycles taken :), (execSlipPoint_keeps ..).next ran⟩,
      fun n here => ?_, fun n absent => ?_, old, fun k => ⟨fun attached stray => (seated k).trans (if_pos ⟨attached, stray⟩), fun h => (seated k).trans (if_neg ?_)⟩⟩
    · obtain ⟨tile', sts, crest⟩ := among n here
      obtain ⟨flips, retiring, count⟩ := slipWord_fields (s.reg (tileBase n + 8))
      refine ⟨?_, ?_, ?_, crest, congrArg Tile.retiring tile', (congrArg Tile.halves tile' :), (congrArg Tile.core tile' :)⟩
      · exact (congrArg (fld · 0 0) sts).trans flips
      · exact (congrArg (BitVec.getLsbD · 1) sts).trans retiring
      · exact (congrArg (fld · 31 16) sts).trans count
    · obtain ⟨tile', sts⟩ := out n absent
      exact ⟨tile', congrArg (fld · 0 0) sts⟩
    · exact fun both => h.elim (fun off => absurd (both.1.symm.trans off) (by decide)) both.2
  case retires =>
    intro p held hs released
    have kept {u : State} (ran : exec (.tileBankRetireEnd tile lee t) s = .next u) : u.kept = s.kept := (execTileBankRetireEnd_keeps ..).next ran
    refine ⟨exec_tileBankRetireEnd_stays hv held, fun free idle => ?_, fun free busy not due => ?_⟩
    · have ran := exec_tileBankRetireEnd_idle hv lee held free idle
      obtain ⟨⟨retiring, refreshing, bit, half, halves⟩, jobs, cycles⟩ := State.retireTile_released { s with time := s.time.seenAt t } tile
      exact ⟨_, ran, ⟨retiring, refreshing, bit, half, halves, kept ran⟩, jobs, cycles, kept ran⟩
    · have ran := exec_tileBankRetireEnd_stops hv held free busy not due
      have each := State.reclaimEach_still { s with time := s.time.seenAt t } hs tile tile.isLt (by exact fun none_ => nomatch held.symm.trans none_)
      have stops (j : Job) (here : j ∈ hs) (own : s.job j.id = some j) (runs : j.stopped = none) :=
        State.reclaimEach_job { s with time := s.time.seenAt t } hs tile (id := j.id) own runs (State.mem_holders_running _ here) ⟨j, here, rfl⟩
      obtain ⟨⟨retiring, refreshing, bit, half, halves⟩, jobs, -⟩ := (State.reclaimEach { s with time := s.time.seenAt t } hs tile).retireTile_released tile
      refine ⟨_, ran, ⟨retiring, refreshing, bit, half.trans (congrArg (fld · 0 0) each.2), halves.trans each.1, kept ran⟩, fun j here own runs => ?_⟩
      obtain ⟨j', stop, reason, idle⟩ := stops j here own runs
      exact ⟨j', (State.job_of_jobs jobs j.id).trans stop, reason, idle⟩
  case reclaims =>
    intro j p here point
    have ran := exec_slipReclaimTimeout_some hv here point
    refine ⟨fun off => ran.trans (congrArg Host.Outcome.next (if_neg fun on => ?_)), fun not before runs late open_ => ?_⟩
    · obtain ⟨not, before, runs, late⟩ := on
      rcases off with adm | after | idle | early
      · rw [adm] at not
        exact absurd not (by decide)
      · exact absurd (before.symm.trans after) (by decide)
      · exact runs idle
      · exact absurd late (Nat.not_le.mpr early)
    · have ran' := ran.trans (congrArg Host.Outcome.next (if_pos ⟨by rw [not]; rfl, before, runs, late⟩))
      have named : j.id = job := of_decide_eq_true (List.find?_some here :)
      obtain ⟨j', stop, reason, idle⟩ := State.reclaim_job { s with time := s.time.seenAt t } here open_ runs j.running j.die
      exact ⟨_, ran', ⟨j', named ▸ stop, reason, idle⟩, (execSlipReclaimTimeout_keeps ..).next ran'⟩
  case tiles =>
    intro n c
    have ran := exec_leeRefreshDone_tile hv n
    refine ⟨fun off => ran.trans (congrArg Host.Outcome.next (if_neg (fun on => absurd (off.symm.trans on) (by decide)))), fun on none_ => ?_⟩
    have ran' := ran.trans (congrArg Host.Outcome.next (if_pos on))
    obtain ⟨own, others, jobs, cycles, regs⟩ := State.refreshTile_results { s with time := s.time.seenAt t } n none_
    obtain ⟨refreshing, crest, whole, part⟩ := (s.tile n).refreshed_results (s.crestHalf n) (s.crestHalf_lt n) (s.leeEn n)
    refine ⟨_, ran', (congrArg Tile.refreshing own).trans refreshing, ⟨jobs, cycles, (execLeeRefreshDone_keeps (.tile n) t s).next ran'⟩, regs, (congrArg (Tile.half · c) own).trans crest, others,
      fun en => (congrArg (Tile.half · (1 - c)) own).trans (whole en), fun dis => (congrArg (Tile.half · (1 - c)) own).trans (part dis)⟩
  case mesas =>
    intro d
    have ran := exec_leeRefreshDone_mesa hv d
    refine ⟨fun off => ran.trans (congrArg Host.Outcome.next (if_neg (fun on => absurd (off.symm.trans on) (by decide)))), fun on sorted none_ => ?_⟩
    have ran' := ran.trans (congrArg Host.Outcome.next (if_pos on))
    obtain ⟨refreshing, crest, tiles, jobs, cycles, words⟩ := State.refreshMesa_results { s with time := s.time.seenAt t } d sorted none_
    exact ⟨_, ran', refreshing, crest, tiles, ⟨jobs, cycles, (execLeeRefreshDone_keeps (.mesa d) t s).next ran'⟩, words⟩

/-- Settles O45: the two halves of a slip, each command by the branches of its checks. -/
theorem slipResults : Obligations.SlipResults := ⟨slipPrepareResults, slipCommitResults⟩

end Sys2Proof.Machine
end

section
/-! SUPPORT. A facet operation's vectors: what each destination makes of a node, and the messages of DEST 2 (05 R127, R130; 06 R166; 07 R175, R180; 09 R234 to R238), for obligation O14. -/

namespace Sys2Proof.Machine

/-! ### Checks that pass -/

/-- No cause: every check passed. -/
theorem firstCause_none_all {l : List (Nat × Bool)} (none_ : firstCause l = none) : ∀ x ∈ l, x.2 = false := by
  have kept (m : List Nat) (a : Nat) : m.foldl (fun a x => match a with | none => some x | some y => some (min x y)) (some a) ≠ none := by
    induction m generalizing a with
    | nil => exact nofun
    | cons b m ih => exact ih _
  intro x here
  by_contra set
  rw [Bool.not_eq_false] at set
  have among : x.1 ∈ (l.filter fun x => x.2).map fun x => x.1 := List.mem_map.mpr ⟨x, List.mem_filter.mpr ⟨here, set⟩, rfl⟩
  rw [firstCause] at none_
  cases found : (l.filter fun x => x.2).map fun x => x.1 with
  | nil =>
    rw [found] at among
    cases among
  | cons a m =>
    rw [found] at none_
    exact kept m a none_

section
variable {f q : State} {t : Fin 512} {c : Core} {b : TileBank} {xd xa xb : Fin 16} {mac : Bool} {sc mode : Nat} {reads writes : List Extent} {node node' : Nat → NodeVal ⊕ Nat}

/-- A facet operation that passes its checks has a vector (R237). -/
theorem State.facetCheck_vecs (pass : f.facetCheck t c mac xd xa xb sc = none) : 1 ≤ c.facet.vecs := by
  have bad : c.facet.bad mac = false := firstCause_none_all pass (2, c.facet.bad mac) (by simp)
  unfold Facet.bad at bad
  simp only [Bool.or_eq_false_iff, decide_eq_false_iff_not] at bad
  omega

/-! ### Vectors one after the other -/

theorem runVectors_congr (l : List Nat) (same : ∀ v ∈ l, node v = node' v) (x : FacetAcc) : runVectors t b xd mode reads writes node l x = runVectors t b xd mode reads writes node' l x := by
  induction l generalizing x with
  | nil => rfl
  | cons v l ih =>
    unfold runVectors
    rw [same v List.mem_cons_self]
    cases node' v with
    | inr child => rfl
    | inl y =>
      dsimp only
      split
      · rfl
      · exact ih (fun v here => same v (List.mem_cons_of_mem _ here)) _

theorem runVectors_cons {v : Nat} {l : List Nat} {x x' : FacetAcc} {y : NodeVal} (own : node v = .inl y) (put : x.put t b xd v y = some x') :
    runVectors t b xd mode reads writes node (v :: l) x = runVectors t b xd mode reads writes node l x' := by
  rw [runVectors, own]
  dsimp only
  rw [put]

/-- Vectors that only write the buffer, one after the other. -/
theorem runVectors_writes (l : List Nat) (y : Nat → NodeVal) (write : State → Nat → State) (edge : Nat → Nat) (nodes : ∀ v ∈ l, node v = .inl (y v))
    (puts : ∀ v ∈ l, ∀ s e, FacetAcc.put { c, s, edges := e } t b xd v (y v) = some { c, s := write s v, edges := e + edge v }) (s : State) (e : Nat) :
    runVectors t b xd mode reads writes node l { c, s, edges := e } = FacetAcc.finish { c, s := l.foldl write s, edges := l.foldl (fun e v => e + edge v) e } t mode reads writes := by
  induction l generalizing s e with
  | nil => rfl
  | cons v l ih =>
    rw [runVectors_cons (nodes v List.mem_cons_self) (puts v List.mem_cons_self s e)]
    exact ih (fun v here => nodes v (List.mem_cons_of_mem _ here)) (fun v here => puts v (List.mem_cons_of_mem _ here)) _ _

/-! ### DEST 0 and 1 (R130, R234, R235) -/

/-- The codes of a vector's 64 outputs, with their edge saturations. -/
def facetCodes (b : TileBank) (f : Facet) (vals : List Word) : List (Nat × Bool) := (List.range 64).map fun col => channelOut b f col (nth 0 vals col)

theorem FacetAcc.put_codes (dest : c.facet.dest = 0) (v : Nat) (y : NodeVal) (clean : y.bad = fun _ => false) (s : State) (e : Nat) : FacetAcc.put { c, s, edges := e } t b xd v y = some
    { c, s := s.abWrite t ((extentOf (c.a xd)).base + v * outBytes c.facet.ofmt) (packVals c.facet.ofmt ((facetCodes b c.facet y.vals).map (·.1))) fun _ => false
      edges := e + ((facetCodes b c.facet y.vals).filter (·.2)).length } := by
  unfold FacetAcc.put
  dsimp only
  rw [dest, clean]
  rfl

theorem FacetAcc.put_record (dest : c.facet.dest = 1) (v : Nat) (y : NodeVal) (s : State) (e : Nat) : FacetAcc.put { c, s, edges := e } t b xd v y = some
    { c, s := s.abWrite t ((extentOf (c.a xd)).base + v * 264) (leBytes 8 (identityWord y.a y.n) ++ valBytes y.vals) fun i => if i < 8 then false else y.bad ((i - 8) / 4)
      edges := e } := by
  unfold FacetAcc.put
  dsimp only
  rw [dest]
  rfl

/-! ### DEST 2 (R70, R130, R237) -/

/-- The message of a vector's node, under a count. -/
def Core.vectorMsg (c : Core) (s : State) (t : Nat) (xd : Fin 16) (count : Nat) (y : NodeVal) : Msg :=
  c.msg t (ringDest (c.d xd).ring) 2 (c.d xd).stream { key := mkKey c.id c.prod count, void := s.voidOf c.id, nodeA := y.a, nodeN := y.n, poison := false, body := valBytes y.vals }

/-- The core once a vector's node has gone out. -/
def Core.vectorSent (c : Core) (xd : Fin 16) : Core :=
  c.emitted.setD xd { c.d xd with used := if (c.d xd).used.contains c.prod then (c.d xd).used else (c.d xd).used ++ [c.prod] }

/-- The count of the producer that emits. -/
def Core.sentCount (c : Core) : Nat := (c.count c.prod).getD 0

theorem FacetAcc.put_message (dest : c.facet.dest = 2) (v : Nat) (y : NodeVal) (clean : y.bad = fun _ => false) (left : c.sentCount < 65536) (s : State) (e : Nat) :
    FacetAcc.put { c, s, edges := e } t b xd v y = some { c := c.vectorSent xd, s := s.inject (c.vectorMsg s t xd c.sentCount y), edges := e } := by
  have spent : c.spent = false := decide_eq_false (not_le.mpr left)
  have key : c.nextKey = mkKey c.id c.prod c.sentCount := congrArg (mkKey c.id c.prod) (min_eq_right (by omega : c.sentCount ≤ 65535))
  have poison : ((List.range 64).any y.bad) = false := by
    rw [clean]
    simp
  unfold FacetAcc.put
  dsimp only
  rw [dest, spent, key, poison]
  rfl

/-- What sending a number of vectors leaves of a core: everything but the counts and the descriptor's producers. -/
def Core.SentFrom (c k : Core) (xd : Fin 16) (n : Nat) : Prop :=
  { k with emits := c.emits, desc := c.desc } = c ∧ (k.d xd).ring = (c.d xd).ring ∧ (k.d xd).stream = (c.d xd).stream ∧ k.count c.prod = if n = 0 then c.count c.prod else some (c.sentCount + n)

theorem Core.SentFrom.sentCount {k : Core} {n : Nat} (h : c.SentFrom k xd n) : k.sentCount = c.sentCount + n := by
  obtain ⟨only, -, -, count⟩ := h
  have prod : k.prod = c.prod := (congrArg Core.prod only :)
  rw [Core.sentCount, prod, count]
  split
  · next none_ => rw [none_]; rfl
  · rfl

theorem Core.SentFrom.refl (c : Core) (xd : Fin 16) : c.SentFrom c xd 0 := ⟨rfl, rfl, rfl, rfl⟩

theorem Core.vectorSent_sentFrom (c : Core) (xd : Fin 16) : c.SentFrom (c.vectorSent xd) xd 1 := by
  have own : (c.vectorSent xd).d xd = { c.d xd with used := if (c.d xd).used.contains c.prod then (c.d xd).used else (c.d xd).used ++ [c.prod] } := Vector.getElem_set_self ..
  exact ⟨rfl, by rw [own], by rw [own], Core.setCount_count c c.prod _⟩

theorem Core.SentFrom.trans {k k' : Core} {m n : Nat} (h : c.SentFrom k xd m) (h' : k.SentFrom k' xd n) : c.SentFrom k' xd (m + n) := by
  have reached := h.sentCount
  obtain ⟨only, ring, stream, count⟩ := h
  obtain ⟨only', ring', stream', count'⟩ := h'
  have prod : k.prod = c.prod := (congrArg Core.prod only :)
  refine ⟨(congrArg (fun x : Core => { x with emits := c.emits, desc := c.desc }) only' :).trans only, ring'.trans ring, stream'.trans stream, ?_⟩
  rw [prod] at count'
  by_cases none_ : n = 0
  · subst none_
    exact count'.trans count
  · rw [count', if_neg none_, if_neg (by omega), reached, Nat.add_assoc]

/-- Messages sent one after the other. -/
def State.injects (s : State) (l : List Msg) : State := l.foldl State.inject s

theorem State.injects_results (s : State) (l : List Msg) : { s.injects l with net := s.net } = s ∧ (s.injects l).net.hops = s.net.hops ++ l.map Msg.hop := by
  induction l generalizing s with
  | nil => exact ⟨rfl, (List.append_nil _).symm⟩
  | cons m l ih =>
    obtain ⟨only, hops⟩ := ih (s.inject m)
    have first : (s.inject m).net.hops = s.net.hops ++ [m.hop] := rfl
    refine ⟨(congrArg (fun x : State => { x with net := s.net }) only :), hops.trans ?_⟩
    rw [first, List.append_assoc]
    rfl

theorem Core.SentFrom.vectorMsg {k : Core} {n : Nat} (h : c.SentFrom k xd n) {s u : State} (jobs : u.jobs = s.jobs) (count : Nat) (y : NodeVal) : k.vectorMsg u t xd count y = c.vectorMsg s t xd count y := by
  obtain ⟨only, ring, stream, -⟩ := h
  have id : k.id = c.id := (congrArg Core.id only :)
  have prod : k.prod = c.prod := (congrArg Core.prod only :)
  have admitted : k.admitted = c.admitted := (congrArg Core.admitted only :)
  have void : u.voidOf c.id = s.voidOf c.id := by rw [State.voidOf, State.job_of_jobs jobs, State.voidOf]
  rw [Core.vectorMsg, Core.vectorMsg, Core.msg, Core.msg, ring, stream, id, prod, admitted, void]

/-- The messages of a run of vectors, under counts that follow one another. -/
def Core.vectorMsgs (c : Core) (s : State) (t : Nat) (xd : Fin 16) (y : Nat → NodeVal) (first n : Nat) : List Msg :=
  (List.range' first n).map fun v => c.vectorMsg s t xd (c.sentCount + (v - first)) (y v)

theorem runVectors_sends (y : Nat → NodeVal) (clean : ∀ v, (y v).bad = fun _ => false) (e n : Nat) : ∀ (first : Nat) (c : Core) (s : State), c.facet.dest = 2 → c.sentCount + n ≤ 65536 →
    (∀ v, first ≤ v → v < first + n → node v = .inl (y v)) → ∃ k, c.SentFrom k xd n ∧
      runVectors t b xd mode reads writes node (List.range' first n) { c, s, edges := e } = FacetAcc.finish { c := k, s := s.injects (c.vectorMsgs s t xd y first n), edges := e } t mode reads writes := by
  induction n with
  | zero => exact fun first c s _ _ _ => ⟨c, .refl c xd, rfl⟩
  | succ n ih =>
    intro first c s dest small nodes
    have one := c.vectorSent_sentFrom xd
    have reached := one.sentCount
    have facet : (c.vectorSent xd).facet = c.facet := rfl
    obtain ⟨k, sent, rest⟩ := ih (first + 1) (c.vectorSent xd) (s.inject (c.vectorMsg s t xd c.sentCount (y first))) (facet ▸ dest) (by omega) fun v low high => nodes v (by omega) (by omega)
    have tail : (c.vectorSent xd).vectorMsgs (s.inject (c.vectorMsg s t xd c.sentCount (y first))) t xd y (first + 1) n =
        (List.range' (first + 1) n).map fun v => c.vectorMsg s t xd (c.sentCount + (v - first)) (y v) := by
      refine List.map_congr_left fun v here => ?_
      rw [List.mem_range'_1] at here
      rw [one.vectorMsg (u := s.inject (c.vectorMsg s t xd c.sentCount (y first))) (s := s) rfl, reached, show c.sentCount + 1 + (v - (first + 1)) = c.sentCount + (v - first) by omega]
    have all : c.vectorMsgs s t xd y first (n + 1) = c.vectorMsg s t xd c.sentCount (y first) :: (c.vectorSent xd).vectorMsgs (s.inject (c.vectorMsg s t xd c.sentCount (y first))) t xd y (first + 1) n := by
      rw [tail, Core.vectorMsgs, List.range'_succ, List.map_cons, Nat.sub_self, Nat.add_zero]
    refine ⟨k, (Nat.add_comm 1 n) ▸ one.trans sent, ?_⟩
    rw [List.range'_succ, runVectors_cons (nodes first (Nat.le_refl _) (by omega)) (FacetAcc.put_message dest first (y first) (clean first) (by omega) s e), rest, all]
    rfl

/-! ### The end of an operation (R175, R180) -/

theorem Core.ended_still (c : Core) (mode n : Nat) (xs : List Extent) : { (c.countMisfit mode n).hold mode xs with counters := c.counters, holds := c.holds } = c := by
  unfold Core.hold Core.countMisfit
  dsimp only
  split_ifs <;> rfl

end

end Sys2Proof.Machine
end

section
/-! PROOF. FMAC with its three destinations, and FDRN with DEST 1 (03, 05, 06, 09), obligation O14. -/

namespace Sys2Proof.Machine

section
variable {s q : State} {t : Fin 512} {g : Issue} {c k : Core} {xd xa xb : Fin 16} {r : Fin 32} {hits : List EccHit}

/-! ### What an operation reads -/

theorem readGate_clean (q : State) (c : Core) {bad : Bool} (clean : bad = false) (run : State → NtRes) : readGate q c bad run = run q := by
  rw [clean]
  rfl

/-- The extents that a facet operation writes. -/
def Core.facetOuts (c : Core) (xd : Fin 16) : List Extent := if c.facet.dest = 2 then [] else [extentOf (c.a xd)]

theorem State.applyHits_net (s : State) (t : Nat) (c : Core) (xs : List Extent) (hits : List EccHit) : (s.applyHits t c xs hits).net = s.net := by
  have faulted (u : State) (die : Nat) (i : FaultInfo) : (u.fault die none i).net = u.net := (congrArg State.net (u.reported_fault die none i) :)
  have throttled (u : State) (clear : Bool) (die : Nat) (i : FaultInfo) : (u.faultThrottled clear die i).net = u.net := (congrArg State.net (u.reported_faultThrottled clear die i) :)
  have err (u : State) (die addr : Nat) (ue : Bool) (stamp : Stamp) : (u.resvErr die addr ue stamp).net = u.net := by
    unfold State.resvErr
    dsimp only
    split
    · exact faulted _ _ _
    · exact throttled _ _ _ _
  refine State.foldl_preserves State.net _ (fun u e => ?_) hits s
  split_ifs
  · exact err _ _ _ _ _
  · exact (congrArg State.net (u.memUe_halfRead t _ _ _ _).1 :)
  · exact (congrArg State.net (u.memCe_halfRead t _ _ _).1 :)
  · rfl

/-! ### FMAC (R127, R234, R237) -/

/-- The state that an FMAC runs on: its reads made, the plane register used. -/
def State.macRead (f : State) (t : Nat) (c : Core) (xa xb : Fin 16) (hits : List EccHit) : State :=
  (f.applyHits t c [extentOf (c.a xa), extentOf (c.a xb)] hits).modTile t fun x => { x with plane := none }

/-- A vector's node, read clean. -/
def State.macNode (q : State) (t : Nat) (c : Core) (xa xb : Fin 16) (sc v : Nat) : NodeVal :=
  let f := c.facet
  let w := extentOf (c.a xb)
  let b := (q.tile t).half c.bank
  let acts := chordValues b f (q.load t c 0 ((extentOf (c.a xa)).base + v * sc) (f.nodeN * chordBytes f.afmt))
  { a := f.nodeA, n := f.nodeN, vals := (List.range 64).map (columnNode b f acts (q.load t c w.space w.base (f.nodeN * planeBytes f.wfmt))), bad := fun _ => false }

/-- What an FMAC needs to run: checks that pass, room, and clean operands. -/
structure State.MacFits (f q : State) (t : Fin 512) (c : Core) (xd xa xb : Fin 16) (r : Fin 32) : Prop where
  check : f.facetCheck t c true xd xa xb (c.s r).toNat = none
  room : f.facetWaits t c (c.facetOuts xd) = false
  regs : (c.facetBad || c.aBad xa || c.aBad xb || c.aBad xd || c.sBad r) = false
  weights : q.loadBad t c (extentOf (c.a xb)).space (extentOf (c.a xb)).base (c.facet.nodeN * planeBytes c.facet.wfmt) = false
  acts : ∀ v < c.facet.vecs, q.loadBad t c 0 ((extentOf (c.a xa)).base + v * (c.s r).toNat) (c.facet.nodeN * chordBytes c.facet.afmt) = false

/-- The run of an FMAC's vectors. -/
def State.macRun (q : State) (t : Nat) (c : Core) (xd xa xb : Fin 16) (r : Fin 32) : NtRes :=
  runVectors t ((q.tile t).half c.bank) xd (((q.tile t).half c.bank).slotMode c.facet.slot) [extentOf (c.a xa), extentOf (c.a xb)] (c.facetOuts xd)
    (fun v => .inl (q.macNode t c xa xb (c.s r).toNat v)) (List.range c.facet.vecs) { c, s := q }

theorem execFmac_runs {u : State} (issues : s.Issues t g c) (more : (s.fetched t g c).More t c) (hq : (s.fetched t g c).macRead t c xa xb hits = q) (fits : (s.fetched t g c).MacFits q t c xd xa xb r)
    (runs : q.macRun t c xd xa xb r = .done k u) : exec (.fmac t g xd xa xb r hits) s = .next (u.setCore t (c.retire k)) := by
  subst hq
  refine exec_done issues more rfl rfl ?_
  have acts : ((List.range c.facet.vecs).any fun v => ((s.fetched t g c).macRead t c xa xb hits).loadBad t c 0 ((extentOf (c.a xa)).base + v * (c.s r).toNat) (c.facet.nodeN * chordBytes c.facet.afmt)) = false := by
    rw [List.any_eq_false]
    exact fun v here => by rw [fits.acts v (List.mem_range.mp here)]; decide
  show (match (s.fetched t g c).facetCheck t c true xd xa xb (c.s r).toNat with | some e => NtRes.raise e | none => _) = _
  rw [fits.check]
  refine (if_neg (by rw [← Core.facetOuts, fits.room]; decide)).trans ((readGate_clean _ _ (by exact Bool.or_eq_false_iff.mpr ⟨fits.weights, acts⟩) _).trans ?_)
  refine (runVectors_congr _ (fun v here => ?_) _).trans runs
  have clean := fits.acts v (List.mem_range.mp here)
  have whole {x y z w : Bool} (hx : x = false) (hy : y = false) (hz : z = false) : (x || y || z && w) = false := by rw [hx, hy, hz, Bool.false_and]; rfl
  exact congrArg Sum.inl (congrArg (NodeVal.mk _ _ _) (funext fun col => whole fits.regs clean fits.weights))

theorem foldl_add_zero (l : List Nat) : l.foldl (fun (e : Nat) _ => e + 0) 0 = 0 := by
  induction l with
  | nil => rfl
  | cons v l ih => exact ih

/-- The codes of a vector that an FMAC closes. -/
def State.macCodes (q : State) (t : Nat) (c : Core) (xa xb : Fin 16) (sc v : Nat) : List (Nat × Bool) := facetCodes ((q.tile t).half c.bank) c.facet (q.macNode t c xa xb sc v).vals

/-- DEST 0: each vector's codes go to the buffer, and edge saturations are counted (R166, R169, R173, R175). -/
theorem State.macRun_codes (q : State) (t : Fin 512) (c : Core) (xd xa xb : Fin 16) (r : Fin 32) (dest : c.facet.dest = 0) : q.macRun t c xd xa xb r = .done
    ((c.countMisfit (((q.tile t).half c.bank).slotMode c.facet.slot) ((List.range c.facet.vecs).foldl (fun e v => e + ((q.macCodes t c xa xb (c.s r).toNat v).filter (·.2)).length) 0)).hold
      (((q.tile t).half c.bank).slotMode c.facet.slot) [extentOf (c.a xa), extentOf (c.a xb)])
    (((List.range c.facet.vecs).foldl (fun u v => u.abWrite t ((extentOf (c.a xd)).base + v * outBytes c.facet.ofmt) (packVals c.facet.ofmt ((q.macCodes t c xa xb (c.s r).toNat v).map (·.1))) fun _ => false) q).fly t 0
      [extentOf (c.a xa), extentOf (c.a xb)] [extentOf (c.a xd)]) := by
  have outs : c.facetOuts xd = [extentOf (c.a xd)] := if_neg (by rw [dest]; decide)
  rw [State.macRun, outs]
  exact runVectors_writes (c := c) _ (q.macNode t c xa xb (c.s r).toNat) _ _ (fun _ _ => rfl) (fun v _ u e => FacetAcc.put_codes dest v _ rfl u e) q 0

/-- DEST 1: each vector's partial node goes to the buffer under its identity (R235). -/
theorem State.macRun_records (q : State) (t : Fin 512) (c : Core) (xd xa xb : Fin 16) (r : Fin 32) (dest : c.facet.dest = 1) : q.macRun t c xd xa xb r = .done
    ((c.countMisfit (((q.tile t).half c.bank).slotMode c.facet.slot) 0).hold (((q.tile t).half c.bank).slotMode c.facet.slot) [extentOf (c.a xa), extentOf (c.a xb)])
    (((List.range c.facet.vecs).foldl (fun u v => u.abWrite t ((extentOf (c.a xd)).base + v * 264)
      (leBytes 8 (identityWord c.facet.nodeA c.facet.nodeN) ++ valBytes (q.macNode t c xa xb (c.s r).toNat v).vals) fun _ => false) q).fly t 0 [extentOf (c.a xa), extentOf (c.a xb)] [extentOf (c.a xd)]) := by
  have outs : c.facetOuts xd = [extentOf (c.a xd)] := if_neg (by rw [dest]; decide)
  rw [State.macRun, outs]
  refine (runVectors_writes (c := c) _ (q.macNode t c xa xb (c.s r).toNat) (fun u v => u.abWrite t ((extentOf (c.a xd)).base + v * 264)
    (leBytes 8 (identityWord c.facet.nodeA c.facet.nodeN) ++ valBytes (q.macNode t c xa xb (c.s r).toNat v).vals) fun _ => false) (fun _ => 0) (fun _ _ => rfl) (fun v _ u e => ?_) q 0).trans ?_
  · refine (FacetAcc.put_record dest v _ u e).trans ?_
    simp only [State.macNode, ite_self]
    rfl
  · rw [foldl_add_zero]
    rfl

/-- DEST 2: each vector's node goes out under the next count (R130, R237). -/
theorem State.macRun_sends (q : State) (t : Fin 512) (c : Core) (xd xa xb : Fin 16) (r : Fin 32) (dest : c.facet.dest = 2) (small : c.sentCount + c.facet.vecs ≤ 65536) : ∃ k, c.SentFrom k xd c.facet.vecs ∧
    q.macRun t c xd xa xb r = .done ((k.countMisfit (((q.tile t).half c.bank).slotMode c.facet.slot) 0).hold (((q.tile t).half c.bank).slotMode c.facet.slot) [extentOf (c.a xa), extentOf (c.a xb)])
      ((q.injects (c.vectorMsgs q t xd (q.macNode t c xa xb (c.s r).toNat) 0 c.facet.vecs)).fly t 0 [extentOf (c.a xa), extentOf (c.a xb)] []) := by
  have outs : c.facetOuts xd = [] := if_pos dest
  obtain ⟨k, sent, ran⟩ := runVectors_sends (t := t) (b := (q.tile t).half c.bank) (xd := xd) (mode := ((q.tile t).half c.bank).slotMode c.facet.slot) (reads := [extentOf (c.a xa), extentOf (c.a xb)]) (writes := [])
    (node := fun v => .inl (q.macNode t c xa xb (c.s r).toNat v)) (q.macNode t c xa xb (c.s r).toNat) (fun _ => rfl) 0 c.facet.vecs 0 c q dest small (fun _ _ _ => rfl)
  refine ⟨k, sent, ?_⟩
  rw [State.macRun, outs, List.range_eq_range', ran]
  rfl

/-! ### FDRN (R78, R129, R238) -/

/-- The node of a pair of records. -/
def State.drainPair (q : State) (t : Nat) (c : Core) (xa xb : Fin 16) (v : Nat) : NodeVal ⊕ Nat :=
  combine ((q.tile t).half c.bank) c.facet false (q.readNode t c ((extentOf (c.a xa)).base + v * 264)) (q.readNode t c ((extentOf (c.a xb)).base + v * 264))

/-- What an FDRN needs to run. -/
structure State.DrainFits (f q : State) (t : Fin 512) (c : Core) (xd xa xb : Fin 16) : Prop where
  check : f.facetCheck t c false xd xa xb 0 = none
  room : f.facetWaits t c (c.facetOuts xd) = false
  regs : (c.facetBad || c.aBad xa || c.aBad xb || c.aBad xd) = false
  left : q.loadBad t c 0 (extentOf (c.a xa)).base (c.facet.vecs * 264) = false
  right : q.loadBad t c 0 (extentOf (c.a xb)).base (c.facet.vecs * 264) = false

/-- The run of an FDRN's vectors. -/
def State.drainRun (q : State) (t : Nat) (c : Core) (xd xa xb : Fin 16) : NtRes :=
  runVectors t ((q.tile t).half c.bank) xd (((q.tile t).half c.bank).slotMode c.facet.slot) [extentOf (c.a xa), extentOf (c.a xb)] (c.facetOuts xd) (q.drainPair t c xa xb) (List.range c.facet.vecs) { c, s := q }

theorem execFdrn_runs (issues : s.Issues t g c) (hq : (s.fetched t g c).applyHits t c [extentOf (c.a xa), extentOf (c.a xb)] hits = q) (fits : (s.fetched t g c).DrainFits q t c xd xa xb) :
    exec (.fdrn t g xd xa xb hits) s = .next ((s.fetched t g c).settle t c (q.drainRun t c xd xa xb)) := by
  subst hq
  rw [show exec (.fdrn t g xd xa xb hits) s = .next (s.issue t g anyEnc _) from rfl, State.issue_runs s t g c anyEnc _ issues rfl]
  refine congrArg Host.Outcome.next (congrArg (State.settle _ t c) ?_)
  show (match (s.fetched t g c).facetCheck t c false xd xa xb 0 with | some e => NtRes.raise e | none => _) = _
  rw [fits.check]
  refine (if_neg (by rw [← Core.facetOuts, fits.room]; decide)).trans ((readGate_clean _ _ (by exact Bool.or_eq_false_iff.mpr ⟨fits.left, fits.right⟩) _).trans ?_)
  refine runVectors_congr _ (fun v _ => ?_) _
  show combine _ c.facet (c.facetBad || c.aBad xa || c.aBad xb || c.aBad xd) _ _ = _
  rw [fits.regs]
  rfl

/-- DEST 1: each pair's parent goes to the buffer (R238). -/
theorem State.drainRun_records (q : State) (t : Fin 512) (c : Core) (xd xa xb : Fin 16) (dest : c.facet.dest = 1) (y : Nat → NodeVal) (pairs : ∀ v < c.facet.vecs, q.drainPair t c xa xb v = .inl (y v)) :
    q.drainRun t c xd xa xb = .done
      ((c.countMisfit (((q.tile t).half c.bank).slotMode c.facet.slot) 0).hold (((q.tile t).half c.bank).slotMode c.facet.slot) [extentOf (c.a xa), extentOf (c.a xb)])
      (((List.range c.facet.vecs).foldl (fun u v => u.abWrite t ((extentOf (c.a xd)).base + v * 264) (leBytes 8 (identityWord (y v).a (y v).n) ++ valBytes (y v).vals)
        fun i => if i < 8 then false else (y v).bad ((i - 8) / 4)) q).fly t 0 [extentOf (c.a xa), extentOf (c.a xb)] [extentOf (c.a xd)]) := by
  have outs : c.facetOuts xd = [extentOf (c.a xd)] := if_neg (by rw [dest]; decide)
  rw [State.drainRun, outs]
  refine (runVectors_writes (c := c) _ y _ (fun _ => 0) (fun v here => pairs v (List.mem_range.mp here)) (fun v _ u e => FacetAcc.put_record dest v (y v) u e) q 0).trans ?_
  rw [foldl_add_zero]
  rfl

/-- A first pair that is no pair of siblings stops the job (R238). -/
theorem State.drainRun_stops (q : State) (t : Fin 512) (c : Core) (xd xa xb : Fin 16) {child : Nat} (some_ : 0 < c.facet.vecs) (fails : q.drainPair t c xa xb 0 = .inr child) :
    q.drainRun t c xd xa xb = .stop q 0x03 c.nextKey child := by
  obtain ⟨n, vecs⟩ := Nat.exists_eq_succ_of_ne_zero (by omega : c.facet.vecs ≠ 0)
  rw [State.drainRun, vecs, List.range_succ_eq_map, runVectors, fails]

end

/-! ### The two conjuncts -/

theorem Core.vectorMsgs_hop (c : Core) (s : State) (t : Nat) (xd : Fin 16) (y : Nat → NodeVal) (n v : Nat) (small : v < n) (l : List Hop) :
    (l ++ (c.vectorMsgs s t xd y 0 n).map Msg.hop)[l.length + v]? = some (c.vectorMsg s t xd (c.sentCount + v) (y v)).hop := by
  rw [List.getElem?_append_right (Nat.le_add_right _ _), Nat.add_sub_cancel_left, List.getElem?_map, Core.vectorMsgs, List.getElem?_map, List.getElem?_range' small]
  simp

theorem facetMacResults : Claims.FacetMacResults := by
  intro s t g c xd xa xb r hits issues more f fc sc a w d writes q b mode wb acts vals codes edges check room bad badA badB badD badR weights clean
  have fits : f.MacFits q t c xd xa xb r := ⟨check, room, by rw [bad, badA, badB, badD, badR]; rfl, weights, clean⟩
  refine ⟨fun dest => execFmac_runs issues more rfl fits (q.macRun_codes t c xd xa xb r dest), fun dest => execFmac_runs issues more rfl fits (q.macRun_records t c xd xa xb r dest), fun dest small => ?_⟩
  obtain ⟨k, sent, runs⟩ := q.macRun_sends t c xd xa xb r dest small
  have ran := execFmac_runs issues more rfl fits runs
  have some_ := f.facetCheck_vecs check
  have ended := k.ended_still mode 0 [a, w]
  obtain ⟨only, hops⟩ := q.injects_results (c.vectorMsgs q t xd (q.macNode t c xa xb (c.s r).toNat) 0 fc.vecs)
  have net : q.net = f.net := f.applyHits_net t c [a, w] hits
  have listed : (c.vectorMsgs q t xd (q.macNode t c xa xb (c.s r).toNat) 0 fc.vecs).length = fc.vecs := by simp [Core.vectorMsgs]
  have hop (v : Nat) (here : v < fc.vecs) := c.vectorMsgs_hop q t xd (q.macNode t c xa xb (c.s r).toNat) fc.vecs v here f.net.hops
  change exec (.fmac t g xd xa xb r hits) s = .next ((((q.injects (c.vectorMsgs q t xd (q.macNode t c xa xb (c.s r).toNat) 0 fc.vecs)).fly t 0 [a, w] []).setCore t (c.retire ((k.countMisfit mode 0).hold mode [a, w])))) at ran
  obtain ⟨still, -, -, count⟩ := sent
  generalize (k.countMisfit mode 0).hold mode [a, w] = k' at ran ended
  generalize c.vectorMsgs q t xd (q.macNode t c xa xb (c.s r).toNat) 0 fc.vecs = l at ran only hops listed hop
  generalize q.injects l = u at ran only hops
  have same : { k' with emits := c.emits, desc := c.desc, counters := c.counters, holds := c.holds } = c :=
    (congrArg (fun x : Core => { x with emits := c.emits, desc := c.desc, counters := c.counters, holds := c.holds }) ended :).trans (congrArg (fun x : Core => { x with counters := c.counters, holds := c.holds }) still :)
  have emits : k'.count c.prod = k.count c.prod := (congrArg (fun x : Core => x.count c.prod) ended :)
  rw [net] at hops
  refine ⟨_, k', ran, State.setCore_core _ _ _, ?_, (congrArg Core.sreg same :), (congrArg Core.areg same :), (congrArg Core.vx same :), (congrArg Core.facet same :), ?_, ?_, (congrArg State.resv only :), fun v here => ?_⟩
  · rw [emits, count, if_neg (by omega)]
    rfl
  · exact (congrArg List.length hops).trans (by rw [List.length_append, List.length_map, listed])
  · rw [State.setCore_abuf, State.tile_fly]
    exact (congrArg (fun x : State => (x.tile t).abuf) only :)
  · exact ⟨_, (congrArg (fun x : List Hop => x[f.net.hops.length + v]?) hops).trans (hop v here), rfl, rfl, rfl, rfl, rfl, rfl, rfl⟩

theorem facetDrainResults : Claims.FacetDrainResults := by
  intro s t g c xd xa xb hits issues more f fc a b d q bank mode pair dest check room bad badA badB badD left right
  have outs : c.facetOuts xd = [d] := if_neg (by rw [show c.facet.dest = 1 from dest]; decide)
  have fits : f.DrainFits q t c xd xa xb := ⟨check, by rw [outs]; exact room, by rw [bad, badA, badB, badD]; rfl, left, right⟩
  have ran := execFdrn_runs issues rfl fits
  refine ⟨fun y pairs => ran.trans (congrArg Host.Outcome.next ?_), fun child some_ fails => ran.trans (congrArg Host.Outcome.next ?_)⟩
  · exact (congrArg (State.settle _ t c) (q.drainRun_records t c xd xa xb dest y pairs)).trans (State.settle_done _ _ t c _ more)
  · exact congrArg (State.settle _ t c) (q.drainRun_stops t c xd xa xb some_ fails)

/-- Settles O14: an operation runs its vectors one after the other, and its destination says what each of them does. -/
theorem facetResults : Obligations.FacetResults := ⟨facetMacResults, facetDrainResults⟩

end Sys2Proof.Machine
end
